-- ==== Sys2Proof/Word.lean ====
section
/-! DEFINITION. The word types of the AX4-192 model and their plainest arithmetic. -/

namespace Sys2Proof

/-- A register word (R5). -/
abbrev Word := BitVec 32

/-- A 64-bit palette entry, design-memory word or ring word (R13, R109). -/
abbrev Entry := BitVec 64

/-- The field of `w` bits that begins at bit `lo` of `x` (R4: bit 0 is the least significant). -/
def bitsAt {n : Nat} (x : BitVec n) (lo w : Nat) : BitVec w := BitVec.ofNat w (x.toNat / 2 ^ lo)

/-- The one bit at position `i`. -/
def bitAt {n : Nat} (x : BitVec n) (i : Nat) : Bool := x.getLsbD i

/-- `x` with the field of `w` bits at `lo` replaced by `v`. -/
def setBits {n : Nat} (x : BitVec n) (lo w : Nat) (v : BitVec w) : BitVec n :=
  (x &&& ~~~ ((BitVec.allOnes w).zeroExtend n <<< lo)) ||| ((v.zeroExtend n) <<< lo)

/-- `x` with bit `i` set to `b`. -/
def setBit {n : Nat} (x : BitVec n) (i : Nat) (b : Bool) : BitVec n := setBits x i 1 (if b then 1 else 0)

/-- One bit as a word of width `w`. -/
def ofBool (w : Nat) (b : Bool) : BitVec w := if b then BitVec.ofNat w 1 else BitVec.ofNat w 0

/-- The sum of two counts, held at the top of the width (the registers' counters saturate). -/
def satAdd {n : Nat} (x : BitVec n) (k : Nat) : BitVec n :=
  if x.toNat + k < 2 ^ n then BitVec.ofNat n (x.toNat + k) else BitVec.allOnes n

/-- Even parity over all bits: the XOR of the bits. -/
def parityOf {n : Nat} (x : BitVec n) : Bool :=
  (List.range n).foldl (fun p i => xor p (x.getLsbD i)) false

end Sys2Proof
end

