-- ==== Sys2Proof/Syntax.lean ====
section
/-! DEFINITION. The commands of the AX4-192 and the types of their operands. A command is an access, an operation, or
an event at a pin, a link, a timer or an engine; its operands carry what the outside world decides (the address and value
of an access, the outcome of a check code, a wait in ns, a pin level, the bits of an arriving frame). -/

namespace Sys2Proof

/-- A region of the package: 16 q + g (R14, R390). -/
abbrev Rg := BitVec 6
/-- A cluster of a region (R13). -/
abbrev Cl := BitVec 4
/-- A Boolean processor of a cluster (R64). -/
abbrev Bp := BitVec 6
/-- An easel core of a region (R324). -/
abbrev CoreNo := Fin 3
/-- A quadrant (R13). -/
abbrev Quad := BitVec 2
/-- An Oxdon port: 0 XP, 1 XN, 2 YP, 3 YN, 4 ZP, 5 ZN (R62, R272). -/
abbrev PortNo := Fin 6
/-- A canvas cell 32 y + x of a region (R145). -/
abbrev CellNo := BitVec 10
/-- A hub semaphore (R373). -/
abbrev SemNo := BitVec 5
/-- A job number (R15). -/
abbrev Job := BitVec 6
/-- A D2D link of a quadrant (R271). -/
abbrev LinkNo := Fin 3
/-- A GPIO pin index (R394). -/
abbrev PinNo := Fin 12
/-- A node address (R16). -/
abbrev Node := BitVec 24
/-- A flit of 128 data bits (R248). -/
abbrev Flit := BitVec 128

/-- What the check of a protected word finds (R66, R109): no error, one correctable bit, or an uncorrectable error. -/
inductive Ecc where
  | clean | single | uncorrectable
  deriving DecidableEq, Repr

/-- A supply rail whose loss R427 names. -/
inductive Rail where
  | vhub | vfl | vsdl | vsdh
  deriving DecidableEq, Repr

/-- A reset or power scope (R22). -/
inductive Scope where
  | region (rg : Rg) | quadrant (q : Quad) | package
  deriving DecidableEq, Repr

/-- The path by which a register write arrives: the I3C target, an Oxdon request from a node, the debug port, the helm. -/
inductive Writer where
  | i3c | oxdon (src : Node) | debug | helm
  deriving DecidableEq, Repr

/-- Who takes or releases a semaphore (R374): the KIND and, for the network, the node. -/
inductive Requester where
  | network (node : Node) | i3c | helm | debug
  deriving DecidableEq, Repr

/-- An Oxdon packet: the header fields of R248 and the data flits. Bit k of `poison` says that data flit k is a poison
flit (R250). -/
structure Packet where
  dest : Node
  src : Node
  cmd : BitVec 6
  tag : BitVec 10
  len : BitVec 6
  epoch : BitVec 8
  vc : BitVec 2
  addr : BitVec 40
  data : List Flit
  poison : BitVec 32
  deriving DecidableEq, Repr

/-- What befalls a MESSAGE at its mailbox (R354, R372): a flush cuts it; the words of it, by number, whose parity fails when they are read. -/
structure MessageFate where
  cut : Bool
  bad : BitVec 64
  deriving DecidableEq, Repr

/-- The training word that a receive lane has seen (R273, R278): the peer's physical lane, its port name and unique ID, whether the lane is OK
whether its polarity is swapped, and whether the peer offers precoding. -/
structure LaneWord where
  lane : BitVec 4
  port : BitVec 3
  uid : BitVec 64
  ok : Bool
  inverted : Bool
  precode : Bool
  deriving DecidableEq, Repr

/-- The arrival of a frame: the wrong symbols of its codeword, and the time from the receiver's latest tick, in 2^-16 ns. -/
structure Arrival where
  wrong : List (BitVec 10)
  since : Word
  deriving DecidableEq, Repr

/-- Waits at a frame position, in ns: of a new sequenced frame for space in the replay buffer, and of the bundles of a SCHED frame. -/
structure FrameWaits where
  tx : Word
  sched : Word
  deriving DecidableEq, Repr

/-- The payload of a received TICK frame (R301). `since` is the time from the receiver's latest tick to the frame's arrival, in 2^-16 ns. -/
structure TickFrame where
  count : BitVec 48
  reckoned : Bool
  hops : BitVec 8
  phase : BitVec 32
  period : BitVec 32
  since : Word
  deriving DecidableEq, Repr

/-- A failing bit found by BIST (R465, R466). -/
structure BistFail where
  q : Quad
  g : BitVec 4
  hub : Bool
  mac : BitVec 11
  logic : Bool
  addr : BitVec 16
  bit : BitVec 7
  deriving DecidableEq, Repr

/-- A spare row (0–3) or spare column (0–1) of a macro that fails its own test (R467). -/
structure SpareFail where
  q : Quad
  g : BitVec 4
  hub : Bool
  mac : BitVec 11
  col : Bool
  index : BitVec 2
  deriving DecidableEq, Repr

/-- What test steps found: failing bits, and failing spares (R466, R467). -/
structure BistReport where
  fails : List BistFail
  spares : List SpareFail
  deriving DecidableEq, Repr

/-- What start-up BIST found, and the steps, each by its macro or logic block (word 0 of R466), whose test clock measured out of range
(R461). -/
structure StartupBist where
  report : BistReport
  offClock : List (BitVec 18)
  deriving DecidableEq, Repr

/-- A parity error found as a cluster goes on to its next stroke: none, one in its completion tree, one in a full flag of its port
entries (R458). -/
inductive StrokeFlaw where
  | none | tree | flag
  deriving DecidableEq, Repr

/-- A switch of the packet plane (R257). -/
inductive Switch where
  | quad (q : Quad) | hub
  deriving DecidableEq, Repr

/-- An element of the packet plane (R244). -/
inductive Element where
  | router (rg : Rg) | quad (q : Quad) | hub
  deriving DecidableEq, Repr

/-- Where a request waits for injection (R260). -/
inductive InjPoint where
  | region (rg : Rg) | hub | oxdon (p : PortNo)
  deriving DecidableEq, Repr

/-- A canvas segment, numbered as CNV.FIGHT_AT [17:0] numbers it (R167, R188). -/
abbrev SegAt := BitVec 18

/-- An event that a pin-interrupt line watches for (R399). -/
inductive PinEdge where
  | rising | falling | high | low
  deriving DecidableEq, Repr



/-- The commands of the AX4-192: one constructor for each row of the table of operations and events. -/
inductive Instr where
  /-- POWER_ON (R20). Power is applied; the package resets and loads its epoch from the flash boot count. -/
  | powerOn
  /-- SUPPLY_LOSS (R427). VHUB or VFL leaves its range while RESET_N is high and the hub resets the package; a loss of VSDL or VSDH takes every port DOWN. -/
  | supplyLoss (rail : Rail)
  /-- RESET_N (R22). RESET_N is held low past the filter, which resets the package and pulls DONE low. -/
  | resetN (cool : Bool)
  /-- RESET_N_RELEASE (R428). RESET_N rises; the straps are sampled and helm boot starts from mask ROM. -/
  | resetNRelease (profSel addrSel : BitVec 2) (lodestar : Bool)
  /-- BOOT_END (R428). Helm boot completes: the boot count and epochs are set, VQ is confirmed, and the I3C target becomes ready. -/
  | bootEnd (secondCopy : Bool) (fwVersion : Word)
  /-- STARTUP_BIST_END (R460). Start-up BIST completes and its failures are repaired or the regions marked defective. -/
  | startupBistEnd (fails : StartupBist)
  /-- CALIBRATION_END (R428). Calibration of ticks, oscillators, sextants and sensors completes and the ground load begins. -/
  | calibrationEnd
  /-- HELM_RESTART (R22). The helm restarts, which causes a package reset. -/
  | helmRestart
  /-- REGION_RESET (R25). Host region reset through RGN.CTRL.RESET: refuse, drain, then clear the region within 20 µs. -/
  | regionReset (rg : Rg)
  /-- ISOLATE (R28). Host isolation of a region through RGN.CTRL.ISOLATE; the absorber answers for it and its job fails. -/
  | isolate (rg : Rg)
  /-- RELEASE (R501). RGN.CTRL.RELEASE ends an isolation by a region reset. -/
  | release (rg : Rg)
  /-- NEIGHBOUR_DRAIN_END (R262). The drain of a resetting or powering-down scope ends or reaches 2 µs, and the scope is gated. -/
  | neighbourDrainEnd (sc : Scope)
  /-- REGION_WATCHDOG (R107). The no-fix or grant limit of the region watchdog passes and the region is isolated. -/
  | regionWatchdog (rg : Rg) (grant : Bool)
  /-- REFERENCE_EDGES (R33). Reference edges are seen in NO_REF and the receiver starts ACQUIRING. -/
  | referenceEdges
  /-- LOCK (R33). 1,024 stable periods are seen and the receiver becomes LOCKED, or RETURNING after reckoning. -/
  | lock (meanPeriod : Word)
  /-- MARK (R35). A valid mark frame completes; the count is loaded, checked or realigned. -/
  | mark (count : BitVec 48) (parityOk : Bool) (mean : Word)
  /-- REALIGN_SLEW_STEP (R54). Each 256 ticks of a slew, one tick is inserted or omitted until the difference is removed. -/
  | realignSlewStep
  /-- LOSS (R34). The reference is declared lost, leading to dead reckoning or a return to NO_REF. -/
  | loss
  /-- SRC (R36). A write that changes MER.CTRL.SRC switches the meridian source at once. -/
  | src (v : BitVec 2)
  /-- MER_TICK_READ (R62). A read of MER.TICK_LO latches COUNT_HI. -/
  | merTickRead
  /-- TICK_FRAME_SEND (R301). Every INTERVAL ticks, a TICK frame is queued on each relay port.
  `count` is the tick. -/
  | tickFrameSend (count : BitVec 48)
  /-- TICK_FRAME (R302). A received TICK frame is dated and feeds the tick oscillator as a reference edge and mark. -/
  | tickFrame (p : PortNo) (f : TickFrame)
  /-- TICK_MISS (R303). MISS_N intervals pass without a TICK frame and the link loss criterion is met. -/
  | tickMiss (p : PortNo)
  /-- JOB_START (R40). The START tick arrives; T0 is written and every region of the job begins cycle 1. -/
  | jobStart (j : Job)
  /-- CYCLE_COMPLETE (R45). All clusters have executed END and all sent bundles are accepted, so cycle N is complete. -/
  | cycleComplete (rg : Rg) (phase : BitVec 4)
  /-- BOUNDARY_PASS (R42). A fix engine observes tick B(N) and the boundary has passed. -/
  | boundaryPass (rg : Rg) (par : Bool)
  /-- MIN_FIX_SPACING (R43). 200 ns after the previous fix began, a fix delayed by spacing may begin. -/
  | minFixSpacing (rg : Rg)
  /-- FIX_OVERHEAD_END (R46). The fix overhead completes; stroke 0 of the next cycle begins if every easel core has released the fix. -/
  | fixOverheadEnd (rg : Rg)
  /-- EWIN_EXPIRY (R46). FIX.CTRL.EWIN expires; the cycle starts and EASEL_LATE is logged. -/
  | ewinExpiry (rg : Rg)
  /-- MIN_RESTART (R56). A write of FIX.CTRL.MIN_RESTART resets FIX.MARGIN_MIN. -/
  | minRestart (rg : Rg)
  /-- HOLD (R49). A write of MER.JOB_CTRL.HOLD requests a hold and fixes the hold cycle H. -/
  | hold (j : Job)
  /-- RESUME (R50). A write of MER.JOB_CTRL.RESUME sets the resume tick of a held job. -/
  | resume (j : Job)
  /-- RESUME_TICK (R50). The resume tick S arrives; T0 is reset and cycle H+1 begins. -/
  | resumeTick (j : Job)
  /-- REARM (R51). MER.JOB_CTRL.REARM resets every non-isolated region of a failed or held job and leaves it ARMED. -/
  | rearm (j : Job)
  /-- LOOP_INTERVAL (R58). Every 1 ms the helm applies the VQ rule table to each quadrant. -/
  | loopInterval
  /-- BUDGET_WINDOW (R60). A budget window of 1,000,000 region fixes closes and WIN.LO is adapted. -/
  | budgetWindow (q : Quad)
  /-- STROKE_BEGIN (R84). All 64 BPs have completed stroke s and the completion tree begins stroke s+1. -/
  | strokeBegin (rg : Rg) (c : Cl) (stallNs : Word) (endAt : Ecc) (flaw : StrokeFlaw)
  /-- NOP (R68). Stroke NOP: nothing. -/
  | nop (rg : Rg) (c : Cl) (b : Bp) (upset : BitVec 112)
  /-- EVAL (R69). Evaluate the truth table into the working view of DEST. -/
  | eval (rg : Rg) (c : Cl) (b : Bp) (upset : BitVec 112)
  /-- EVAL_S (R78). Evaluate the truth table into the next-state bank of DEST. -/
  | evalS (rg : Rg) (c : Cl) (b : Bp) (upset : BitVec 112)
  /-- RESERVED_OP (R72). A reserved OP, or a cluster code in BPs 1–63, executes as NOP and is counted. -/
  | reservedOp (rg : Rg) (c : Cl) (b : Bp) (upset : BitVec 112)
  /-- SEND (R95). Form a bundle with its tag and offer it to the scheduled-plane injection. -/
  | send (rg : Rg) (c : Cl) (upset : BitVec 112) (table_ : Ecc)
  /-- INJECTION_TAKE (R95). The injection gains room and takes a waiting SEND's bundle. -/
  | injectionTake (rg : Rg) (c : Cl) (waitNs : Word)
  /-- MEMRD (R102). Issue a design-memory read to the front port. -/
  | memrd (rg : Rg) (c : Cl) (upset : BitVec 112)
  /-- MEMWR (R101). Issue a masked design-memory write to the front port. -/
  | memwr (rg : Rg) (c : Cl) (upset : BitVec 112)
  /-- FRONT_PORT_TAKE (R101). The front port takes the next MEMRD or MEMWR in list order. -/
  | frontPortTake (rg : Rg) (waitNs undoNs : Word) (table_ : Ecc)
  /-- MEMRD_DATA (R81). MEMRD data returns and fills entry 1012+k. -/
  | memrdData (rg : Rg) (ecc : Ecc)
  /-- MEMWR_PERFORMED (R112). A taken MEMWR reads the old word, writes the new one and passes an undo entry. -/
  | memwrPerformed (rg : Rg) (ecc : Ecc)
  /-- JPOST (R103). Present an entry to junction channel j. -/
  | jpost (rg : Rg) (c : Cl) (upset : BitVec 112)
  /-- JPOST_ACK (R170). The endpoint acknowledges the word; the JPOST completes and entry 1008+j empties. -/
  | jpostAck (rg : Rg) (c : Cl) (waitNs : Word)
  /-- JUNCTION_DELIVER (R171). All enabled inbound lanes have delivered and entry 1008+j is filled. -/
  | junctionDeliver (rg : Rg) (c : Cl) (j : BitVec 2)
  /-- PROBE (R104). Offer a trace record to the trace writer. -/
  | probe (rg : Rg) (c : Cl) (upset : BitVec 112)
  /-- TRACE_WRITER_TAKE (R104). The trace writer gains room and takes a waiting PROBE record. -/
  | traceWriterTake (rg : Rg) (c : Cl) (waitNs : Word)
  /-- HALTIF (R105). Read a condition bit and request a hold if it is 1. -/
  | haltif (rg : Rg) (c : Cl) (upset : BitVec 112)
  /-- END (R75). Last stroke of the cluster's cycle; completes when its MEMWRs and PROBEs are performed. -/
  | endStroke (rg : Rg) (c : Cl) (upset : BitVec 112) (cycleNs : BitVec 20)
  /-- LONG_STALL (R85). A stall exceeds STALL_WARN and LONG_STALL is set. -/
  | longStall (rg : Rg) (c : Cl)
  /-- HEADER_FLIT_ROUTE (R256). A region router routes a header flit by overrides and dimension order. -/
  | headerFlitRoute (rg : Rg) (inp : BitVec 3) (vc : BitVec 2) (upset : BitVec 139) (data : List (BitVec 5 × BitVec 139)) (table_ : Ecc)
  /-- SWITCH_ROUTE (R257). A quadrant or hub switch routes a packet by destination. -/
  | switchRoute (el : Switch) (inp : BitVec 5) (vc : BitVec 2) (upset : BitVec 139) (data : List (BitVec 5 × BitVec 139))
  /-- REQUEST_INJECT (R260). A request gains a tag and a credit and enters the packet plane. -/
  | requestInject (p : Packet) (waitNs : Word)
  /-- INJECTION_TIMEOUT (R260). INJ_TIMEOUT expires and a waiting request is withdrawn with REFUSED_BUSY. -/
  | injectionTimeout (p : Packet) (at_ : InjPoint)
  /-- RESPONSE_TIMEOUT (R260). RESP_TIMEOUT expires and the request ends in TIMEOUT. -/
  | responseTimeout (node : BitVec 12) (tag : BitVec 7)
  /-- NO_PROGRESS (R264). A header has not moved for NPD.LIMIT and the oldest blocked packet is discarded. -/
  | noProgress (el : Element) (inp : BitVec 5) (vc : BitVec 2)
  /-- READ (R251). Oxdon READ request taken at its target. -/
  | read (p : Packet) (ecc : Ecc)
  /-- WRITE (R251). Oxdon WRITE request taken at its target. -/
  | write (p : Packet) (ecc : Ecc)
  /-- WRITE_POSTED (R251). Oxdon posted write taken at its target. -/
  | writePosted (p : Packet) (ecc : Ecc)
  /-- ATOMIC (R251). Oxdon ATOMIC performed as one access. -/
  | atomic (p : Packet) (ecc : Ecc)
  /-- MESSAGE (R354). A MESSAGE delivers one item to an easel inbound mailbox. -/
  | message (p : Packet) (fate : MessageFate)
  /-- FRAME_WRITE (R201). Bitstream data at an offset is staged, discarded or refused. -/
  | frameWrite (p : Packet)
  /-- RESP_DATA (R254). A data response reaches its requester and frees its tag. -/
  | respData (p : Packet)
  /-- RESP_ACK (R254). An acknowledgement reaches its requester and frees its tag. -/
  | respAck (p : Packet)
  /-- RESP_ERROR (R252). An error response with its cause reaches its requester. -/
  | respError (p : Packet)
  /-- TICK (R305). The fabric-control TICK request is answered with the hub's tick count. -/
  | tick (p : Packet) (since : Word)
  /-- BUNDLE_FORWARD (R265). A router forwards a bundle by its scheduled forwarding entry. -/
  | bundleForward (el : Element) (inp : BitVec 5) (par : Bool) (data table_ : Ecc) (tagVote : Bool) (waitNs : Word)
  /-- BUNDLE_ACCEPT (R98). A bundle is accepted into an empty exchange-in side, or discarded as unmapped. -/
  | bundleAccept (rg : Rg) (par fromRing : Bool) (table_ : Ecc) (flagErr : Bool) (waitNs : Word)
  /-- OVR_SWAP (R259). NOC.OVR_CMD.SWAP starts a drain-and-swap. -/
  | ovrSwap (rg : Rg)
  /-- SWAP_DRAINED (R259). Packet outputs have drained and the override tables exchange. -/
  | swapDrained (rg : Rg)
  /-- DRAIN_LIMIT (R259). DRAIN_LIMIT expires and the swap is abandoned. -/
  | drainLimit (rg : Rg)
  /-- OVR_COPY (R259). NOC.OVR_CMD.COPY copies the active override table into the shadow. -/
  | ovrCopy (rg : Rg)
  /-- D2D_SPARING (R246). A wire's corrections reach SPARE_N and it is replaced by a spare. -/
  | d2dSparing (q : Quad) (l : LinkNo) (wire : BitVec 9) (rx : Bool)
  /-- D2D_RETRAIN (R247). NOC.D2D_CTRL.RETRAIN starts a D2D retrain. -/
  | d2dRetrain (q : Quad) (l : LinkNo)
  /-- D2D_TRAINED (R247). A D2D retrain completes. -/
  | d2dTrained (q : Quad) (l : LinkNo) (passed : Bool)
  /-- ARBITER_ROUND (R116). The back port becomes free with requesters waiting and one is granted. -/
  | arbiterRound (rg : Rg) (first : Option (Fin 6)) (waitNs : Word)
  /-- UNDO (R126). The trace writer writes an UNDO record from an undo-buffer entry. -/
  | undo (rg : Rg)
  /-- BIN (R127). The trace writer writes a boundary-input record. -/
  | bin (rg : Rg)
  /-- TRACE (R129). The trace writer writes a PROBE record to the ring. -/
  | trace (rg : Rg)
  /-- SNAPX (R124). All mapped slots are full and SNAPX is written, completing the snapshot. -/
  | snapx (rg : Rg)
  /-- MARKER (R130). A GAP or BRANCH marker record is written. -/
  | marker (rg : Rg)
  /-- GAP (R133). 4,556 words free again after discards, and a GAP record is written. -/
  | gap (rg : Rg)
  /-- REWIND (R136). RWD.CMD.REWIND starts restoring every region of the job to snapshot S. -/
  | rewind (rg : Rg) (errs : List (Rg × BitVec 18 × Ecc))
  /-- RESTORE_DONE (R137). Every region has restored; HOLD_CYCLE becomes S and MODE reads REWOUND. -/
  | restoreDone (j : Job)
  /-- RWD_RELEASE (R132). RWD.CMD.RELEASE moves TAIL to the snapshot of S. -/
  | rwdRelease (rg : Rg)
  /-- REPLAY_ARM (R138). RWD.CMD.REPLAY_ARM arms a replay to T. -/
  | replayArm (rg : Rg)
  /-- REC_EN (R134). A write of RWD.CTRL.REC_EN stops or restarts recording. -/
  | recEn (rg : Rg) (v : Bool)
  /-- CNV_PASS (R150). Canvas PASS fires on a token. -/
  | cnvPass (rg : Rg) (n : CellNo)
  /-- CNV_ADD (R150). Canvas ADD fires. -/
  | cnvAdd (rg : Rg) (n : CellNo)
  /-- CNV_SUB (R150). Canvas SUB fires. -/
  | cnvSub (rg : Rg) (n : CellNo)
  /-- CNV_AND (R150). Canvas AND fires. -/
  | cnvAnd (rg : Rg) (n : CellNo)
  /-- CNV_OR (R150). Canvas OR fires. -/
  | cnvOr (rg : Rg) (n : CellNo)
  /-- CNV_XOR (R150). Canvas XOR fires. -/
  | cnvXor (rg : Rg) (n : CellNo)
  /-- CNV_SHIFT (R150). Canvas SHIFT fires. -/
  | cnvShift (rg : Rg) (n : CellNo)
  /-- CNV_CMP (R150). Canvas CMP fires. -/
  | cnvCmp (rg : Rg) (n : CellNo)
  /-- CNV_MUX (R150). Canvas MUX fires. -/
  | cnvMux (rg : Rg) (n : CellNo)
  /-- CNV_ACC (R150). Canvas ACC fires. -/
  | cnvAcc (rg : Rg) (n : CellNo)
  /-- CNV_LUT (R150). Canvas LUT fires. -/
  | cnvLut (rg : Rg) (n : CellNo)
  /-- CNV_FORK (R150). Canvas FORK fires. -/
  | cnvFork (rg : Rg) (n : CellNo)
  /-- CNV_JOIN (R150). Canvas JOIN fires. -/
  | cnvJoin (rg : Rg) (n : CellNo)
  /-- CNV_MERGE (R152). Canvas MERGE decides and passes one token, logging or replaying the decision. -/
  | cnvMerge (rg : Rg) (n : CellNo) (pickB : Bool)
  /-- CNV_STEER (R150). Canvas STEER fires. -/
  | cnvSteer (rg : Rg) (n : CellNo)
  /-- CNV_RESERVED_OPC (R151). A reserved OPC consumes only S and is counted. -/
  | cnvReservedOpc (rg : Rg) (n : CellNo)
  /-- FIGHT (R167). Contention is detected on a segment and the segment is disabled. -/
  | fight (rg : Rg) (sg : SegAt)
  /-- FIGHT_CLEAR (R168). CNV.CTRL.FIGHT_CLEAR re-checks disabled segments. -/
  | fightClear (rg : Rg)
  /-- FIO_INPUT_TOKEN (R176). An input I/O cell issues a TOKEN or EDGE token, or discards it on overrun. -/
  | fioInputToken (rg : Rg) (i : BitVec 3) (uio : Bool) (samples : BitVec 16)
  /-- LEVEL_REQUEST (R176). A LEVEL request token is answered with the pin level. -/
  | levelRequest (rg : Rg) (i : BitVec 3) (uio level : Bool)
  /-- FIO_OUTPUT_TOKEN (R177). An output token is launched or sets the pin. -/
  | fioOutputToken (rg : Rg) (i : BitVec 3) (uio : Bool)
  /-- ENABLE_TOKEN (R177). An enable token turns an output driver on or off. -/
  | enableToken (rg : Rg) (i : BitVec 3) (uio : Bool)
  /-- FIO_DLY (R179). A write of CNV.FIO_DLY starts moving the pin delays. -/
  | fioDly (rg : Rg) (i : BitVec 3) (idelay odelay : BitVec 8) (clocked : Bool)
  /-- IO_SUPPLY_MISMATCH (R181). VFIO or VUIO leaves ±10 % of its declared value and the bank's outputs park. -/
  | ioSupplyMismatch (q : Quad) (uio : Bool)
  /-- RETOUCH_ENDPOINT_TOKEN (R221). The retouch endpoint takes a token carrying two bytes of a partial. -/
  | retouchEndpointToken (rg : Rg)
  /-- CFG_FIFO (R200). A write of CFG.FIFO appends four bitstream bytes. -/
  | cfgFifo (w : Word)
  /-- PARTITION (R194). The PARTITION section is processed: region map and partition table. -/
  | partition
  /-- CANVAS (R205). A CANVAS run writes frames after the contention check. -/
  | canvas
  /-- STROKE (R192). A STROKE page is written and END_AT is recomputed for BP 0. -/
  | stroke
  /-- PALETTE (R192). A PALETTE run writes palette entries or start values. -/
  | palette
  /-- DMEM (R192). A DMEM run writes design memory with check bits. -/
  | dmem
  /-- EASEL (R192). An EASEL run writes easel memory. -/
  | easel
  /-- SLOT (R294). A SLOT record loads a port's plan and receive map. -/
  | slot
  /-- ROUTE_OVR (R269). A ROUTE_OVR record loads overrides and forwarding entries. -/
  | routeOvr
  /-- REGION (R192). A REGION record loads a route table, map, order list or control record. -/
  | region
  /-- LIBRARY (R356). A LIBRARY run writes the shared easel library. -/
  | library
  /-- SETTINGS (R193). A SETTINGS section is checked and its records held for finishing. -/
  | settings
  /-- SIGNATURE (R196). The SIGNATURE section arrives and the load enters FINISHING. -/
  | signature
  /-- FINISHING_END (R203). Finishing completes; regions become ARMED or CONFIGURED and DONE is released. -/
  | finishingEnd
  /-- LOAD_TIMEOUT (R204). No byte is processed for LOAD_TIMEOUT ms and the load fails. -/
  | loadTimeout
  /-- ABORT (R204). CFG.CTRL.ABORT abandons the load in progress. -/
  | abort
  /-- DONE_HIGH (R208). DONE has been seen high for the filter time and the package enters USER. -/
  | doneHigh
  /-- START (R320). A START packet is flooded on, and applied under R210. -/
  | start (p : Packet) (port : PortNo)
  /-- START_CMD (R211). CFG.START_CMD.GO issues a local START, broadcast by the lodestar. -/
  | startCmd (v : Word)
  /-- GROUND_LOAD (R215). CFG.GROUND_CMD LOAD loads a ground slot as a FULL load. -/
  | groundLoad (slot : BitVec 2)
  /-- GROUND_WRITE (R214). CFG.GROUND_CMD WRITE directs the next bitstream to a flash slot. -/
  | groundWrite (slot : BitVec 2)
  /-- GROUND_COMMIT (R214). Programming and read-back complete, and the copy header and COMMIT are written. -/
  | groundCommit
  /-- GROUND_ERASE (R214). CFG.GROUND_CMD ERASE invalidates both copies of a slot. -/
  | groundErase (slot : BitVec 2)
  /-- GROUND_REFRESH (R216). A copy reaches two years of powered time and is rewritten. -/
  | groundRefresh (slot : BitVec 2)
  /-- UNWRAP (R198). CFG.PKEY_CMD UNWRAP loads a project key slot. -/
  | unwrap (slot : BitVec 3)
  /-- KEY_ERASE (R198). CFG.PKEY_CMD ERASE empties a project key slot. -/
  | keyErase (slot : BitVec 3)
  /-- KEY_ERASE_ALL (R198). CFG.PKEY_CMD ERASE_ALL empties every project key slot. -/
  | keyEraseAll
  /-- PROGRAM (R197). CFG.SKEY_CMD PROGRAM fuses a signing key hash. -/
  | program (by_ : Writer) (slot : BitVec 2) (arm : BitVec 8)
  /-- REVOKE (R197). CFG.SKEY_CMD REVOKE fuses a signing slot revoked. -/
  | revoke (by_ : Writer) (slot : BitVec 2) (arm : BitVec 8)
  /-- PARTIAL_CHECK (R224). A staged partial is validated and rejected or passed on. -/
  | partialCheck
  /-- PARTIAL_TIMEOUT (R242). No byte is staged for RTC TIMEOUT ms and the partial fails with code 14. -/
  | partialTimeout
  /-- HOLD_WAIT (R226). HOLD_WAIT expires before the region stops and the partial is rejected with code 19. -/
  | holdWait
  /-- APPLY (R228). The apply clamps, quiesces, writes, reinitialises, records and releases. -/
  | apply
  /-- CLAMP_FORCE (R229). After 1 µs a clamped outgoing bundle is forced to the spacer. -/
  | clampForce
  /-- RTC_ABORT (R242). RTC.CTRL.ABORT abandons a partial not yet applying. -/
  | rtcAbort
  /-- READBACK (R232). RTC.RB_CMD.GO requests a readback capture. -/
  | readback (kind : BitVec 2) (rg : Rg)
  /-- READBACK_READY (R232). Captured data lies in the readback area and READY is set. -/
  | readbackReady
  /-- SCRUB_FRAME (R236). A walker reads and corrects one canvas frame every CNV_GAP.
  `since` is the time since the latest tick, in 2^-16 ns. -/
  | scrubFrame (rg : Rg) (eccs : List Ecc) (vote : Bool) (since : Word)
  /-- SCRUB_MEM_STEP (R236). A walker requests the back port every MEM_GAP to scrub a burst. -/
  | scrubMemStep (rg : Rg) (eccs : List Ecc) (vote : Bool)
  /-- DETECT_END (R278). A peer lane is seen and training moves to TRAIN. -/
  | detectEnd (p : PortNo)
  /-- TRAIN_END (R278). Both ends report four OK lanes and the port moves to LOCK. -/
  | trainEnd (p : PortNo) (words : List (Option LaneWord)) (okTx : BitVec 9)
  /-- LOCK_END (R279). Markers are found, width fixed and lanes assigned; the port moves to CALIB.
  `precode` is the precoding offer in the peer's training words. -/
  | lockEnd (p : PortNo) (words : List (Option LaneWord)) (okTx : BitVec 9) (precode : Bool)
  /-- CALIB_END (R289). CALIB exchange completes, sequence state is resumed or cleared, and the port is UP.
  The peer's CTRL frames say `peerResume` and `peerExp`, and the measured link delay is `delay`. -/
  | calibEnd (p : PortNo) (peerResume : Bool) (peerExp : BitVec 12) (delay : BitVec 24)
  /-- TRAINING_TIMEOUT (R278). TRAIN or LOCK fails within 100 ms and training restarts, or the port goes DOWN. -/
  | trainingTimeout (p : PortNo)
  /-- LNK_RETRAIN (R278). LNK.CTRL.RETRAIN starts training from DETECT. -/
  | lnkRetrain (p : PortNo)
  /-- LNK_EN (R298). A write of LNK.CTRL.EN enables the port, or takes it DOWN. -/
  | lnkEn (p : PortNo) (v : Bool)
  /-- FRAME_SEND (R292). At each frame position the transmitter sends the highest-priority ready frame.
  `since` is the time since the latest tick, in 2^-16 ns. -/
  | frameSend (p : PortNo) (since : Word) (waits : FrameWaits)
  /-- IDLE (R281). An IDLE frame is received. -/
  | idle (p : PortNo) (f : BitVec 544) (cw : List (BitVec 10))
  /-- SCHED (R282). A SCHED frame is received and its bundles mapped through the receive map. -/
  | sched (p : PortNo) (f : BitVec 544) (cw : List (BitVec 10))
  /-- CTRL (R284). A CTRL frame delivers ACK, NAK, credits, timing and lane operations. -/
  | ctrl (p : PortNo) (f : BitVec 544) (a : Arrival)
  /-- PKT_FRAME (R283). A PKT frame delivers four flits of one VC. -/
  | pktFrame (p : PortNo) (f : BitVec 544) (cw : List (BitVec 10))
  /-- PKT_POISON (R283). A PKT_POISON frame delivers one poison flit. -/
  | pktPoison (p : PortNo) (f : BitVec 544) (cw : List (BitVec 10))
  /-- REPLAY_TIMEOUT (R287). No ACK advances for REPLAY_TIMEOUT; the transmitter rewinds or retrains. -/
  | replayTimeout (p : PortNo)
  /-- LANE_FAULT (R296). A lane fault is declared and SPARE or NARROW is proposed. -/
  | laneFault (p : PortNo) (lane : BitVec 4)
  /-- LANE_SWITCH (R296). At codeword AT both ends switch the agreed lane operation. -/
  | laneSwitch (p : PortNo)
  /-- SLOT_SWAP (R295). LNK.SLOT_CMD.SWAP exchanges the plan and receive map, or is refused. -/
  | slotSwap (p : PortNo)
  /-- SLOT_COPY (R295). LNK.SLOT_CMD.COPY copies the active slot tables to the shadow. -/
  | slotCopy (p : PortNo)
  /-- DISCOVER_SEND (R308). Every DISC_INTERVAL a DISCOVER is sent on each UP port. -/
  | discoverSend (p : PortNo)
  /-- DISCOVER (R312). A received DISCOVER updates the port role, coordinate, sizes, lodestar and ring table. -/
  | discover (p : PortNo) (m : Packet)
  /-- SETTLED (R313). Nothing has changed for SETTLE µs and the sweep settles. -/
  | settled
  /-- SWEEP (R313). FAB.CTRL.SWEEP discards the sweep state and restarts it. -/
  | sweep
  /-- FABRIC_RESET_CMD (R321). FAB.CTRL.FABRIC_RESET on the lodestar sends FABRIC_RESET. -/
  | fabricResetCmd
  /-- FABRIC_RESET (R321). A FABRIC_RESET packet is checked, forwarded and accepted. -/
  | fabricReset (p : Packet) (port : PortNo) (upFor1ms : Bool)
  /-- FABRIC_RESET_TIMER (R321). 5 µs after forwarding, the package begins a package reset. -/
  | fabricResetTimer
  /-- EAS_NOP (R331). Easel NOP. -/
  | easNop (rg : Rg) (k : CoreNo)
  /-- ADD (R331). Easel ADD. -/
  | easAdd (rg : Rg) (k : CoreNo)
  /-- SUB (R331). Easel SUB. -/
  | easSub (rg : Rg) (k : CoreNo)
  /-- AND (R331). Easel AND. -/
  | easAnd (rg : Rg) (k : CoreNo)
  /-- OR (R331). Easel OR. -/
  | easOr (rg : Rg) (k : CoreNo)
  /-- XOR (R331). Easel XOR. -/
  | easXor (rg : Rg) (k : CoreNo)
  /-- SHL (R331). Easel shift left. -/
  | easShl (rg : Rg) (k : CoreNo)
  /-- SHR (R331). Easel logical shift right. -/
  | easShr (rg : Rg) (k : CoreNo)
  /-- SHRA (R331). Easel arithmetic shift right. -/
  | easShra (rg : Rg) (k : CoreNo)
  /-- CMP (R332). Easel compare setting flags. -/
  | easCmp (rg : Rg) (k : CoreNo)
  /-- ADDI (R331). Easel add immediate. -/
  | easAddi (rg : Rg) (k : CoreNo)
  /-- ANDI (R331). Easel AND immediate. -/
  | easAndi (rg : Rg) (k : CoreNo)
  /-- ORI (R331). Easel OR immediate. -/
  | easOri (rg : Rg) (k : CoreNo)
  /-- XORI (R331). Easel XOR immediate. -/
  | easXori (rg : Rg) (k : CoreNo)
  /-- LDI (R331). Easel load immediate. -/
  | easLdi (rg : Rg) (k : CoreNo)
  /-- CMPI (R331). Easel compare immediate. -/
  | easCmpi (rg : Rg) (k : CoreNo)
  /-- MVS (R334). Move from a special register. -/
  | easMvs (rg : Rg) (k : CoreNo)
  /-- MSV (R334). Move to a special register. -/
  | easMsv (rg : Rg) (k : CoreNo)
  /-- MUL (R337). Multiply into an accumulator. -/
  | easMul (rg : Rg) (k : CoreNo)
  /-- MACLD (R337). Multiply-accumulate with dual load. -/
  | easMacld (rg : Rg) (k : CoreNo)
  /-- ACC (R338). Accumulator operation. -/
  | easAcc (rg : Rg) (k : CoreNo)
  /-- EXT (R339). Extract 16 bits from an accumulator. -/
  | easExt (rg : Rg) (k : CoreNo)
  /-- LD (R335). Load 16 bits. -/
  | easLd (rg : Rg) (k : CoreNo)
  /-- ST (R335). Store 16 bits. -/
  | easSt (rg : Rg) (k : CoreNo)
  /-- LDD (R335). Load 32 bits into a pair. -/
  | easLdd (rg : Rg) (k : CoreNo)
  /-- STD (R335). Store 32 bits from a pair. -/
  | easStd (rg : Rg) (k : CoreNo)
  /-- PAL (R348). Read or write a palette entry while holding the fix. -/
  | easPal (rg : Rg) (k : CoreNo)
  /-- BPA (R350). Back-port access to design memory or the ring. -/
  | easBpa (rg : Rg) (k : CoreNo) (ecc : Ecc) (undoNs : Word)
  /-- MBRD (R354). Pop the inbound mailbox. -/
  | easMbrd (rg : Rg) (k : CoreNo)
  /-- MBWR (R355). Push the outbound mailbox. -/
  | easMbwr (rg : Rg) (k : CoreNo)
  /-- BR (R331). Conditional branch. -/
  | easBr (rg : Rg) (k : CoreNo)
  /-- CALL (R331). Conditional call. -/
  | easCall (rg : Rg) (k : CoreNo)
  /-- RET (R331). Conditional return. -/
  | easRet (rg : Rg) (k : CoreNo)
  /-- RETI (R331). Return from interrupt. -/
  | easReti (rg : Rg) (k : CoreNo)
  /-- LOOP (R340). Start a hardware loop. -/
  | easLoop (rg : Rg) (k : CoreNo)
  /-- RELFIX (R347). Release the fix. -/
  | easRelfix (rg : Rg) (k : CoreNo)
  /-- WAIT (R331). Stop fetching until an enabled interrupt is pending. -/
  | easWait (rg : Rg) (k : CoreNo)
  /-- KICK (R359). Reload the easel watchdog. -/
  | easKick (rg : Rg) (k : CoreNo)
  /-- PKT (R352). Send the packet described by a descriptor. -/
  | easPkt (rg : Rg) (k : CoreNo)
  /-- BRK (R345). Trap with BRK, or halt under a debugger. -/
  | easBrk (rg : Rg) (k : CoreNo)
  /-- INTERRUPT (R344). A pending enabled interrupt is taken between instructions. -/
  | interrupt (rg : Rg) (k : CoreNo)
  /-- EASEL_WATCHDOG (R359). The easel watchdog reaches 0, bites and resets the core. -/
  | easelWatchdog (rg : Rg) (k : CoreNo)
  /-- CORE_RESET (R360). EAS.CTRL.RESET resets an easel core. -/
  | coreReset (rg : Rg) (k : CoreNo)
  /-- HOLD_RST (R360). A write of EAS.CTRL.HOLD_RST holds the core in reset or starts it. -/
  | holdRst (rg : Rg) (k : CoreNo) (v : Bool)
  /-- MBIN_FLUSH (R355). EAS.CTRL.MBIN_FLUSH empties the inbound mailbox. -/
  | mbinFlush (rg : Rg) (k : CoreNo)
  /-- MBOUT_FLUSH (R355). EAS.CTRL.MBOUT_FLUSH empties the outbound mailbox. -/
  | mboutFlush (rg : Rg) (k : CoreNo)
  /-- MBIN_FIRST (R354). The host pushes a word that begins an item. -/
  | mbinFirst (rg : Rg) (k : CoreNo) (w : Word) (bad : Bool)
  /-- MBIN_NEXT (R354). The host pushes a word that continues an item. -/
  | mbinNext (rg : Rg) (k : CoreNo) (w : Word) (bad : Bool)
  /-- MBOUT (R355). A read of EAS.MBOUT pops the outbound mailbox. -/
  | mbout (rg : Rg) (k : CoreNo) (bad : Bool)
  /-- PATCH_WRITE (R357). A write of a patch unit takes effect after 8 core cycles and invalidates the loop cache. -/
  | patchWrite (rg : Rg) (k : CoreNo) (u : BitVec 3) (word : Bool) (v : Word) (by_ : Writer)
  /-- EAS_WDOG (R359). A write of EAS.WDOG.LIMIT reloads or stops the watchdog. -/
  | easWdog (rg : Rg) (k : CoreNo) (limit : BitVec 24)
  /-- BUS_WATCHDOG (R368). A helm-bus access hangs for BUSWD.LIMIT and is ended with TIMEOUT. -/
  | busWatchdog
  /-- HELM_BUS_ACCESS (R387). A register access completes on the helm bus. -/
  | helmBusAccess
  /-- TAKE (R374). A read of SEM.TAKE attempts to take a semaphore. -/
  | take (n : SemNo) (who : Requester)
  /-- SEM_RELEASE (R375). SEM.RELEASE.GO frees a semaphore held by the writer. -/
  | semRelease (n : SemNo) (who : Requester)
  /-- HOLD_LIMIT (R376). A semaphore's hold timer reaches HOLD_LIMIT and the semaphore is broken. -/
  | holdLimit (n : SemNo)
  /-- ENEC (R382). CCC ENEC enables IBI or Hot-Join requests. -/
  | enec (int hj : Bool)
  /-- DISEC (R382). CCC DISEC disables IBI or Hot-Join requests. -/
  | disec (int hj : Bool)
  /-- ENTAS0 (R382). CCC ENTAS0, accepted with no effect. -/
  | entas0
  /-- ENTAS1 (R382). CCC ENTAS1, accepted with no effect. -/
  | entas1
  /-- ENTAS2 (R382). CCC ENTAS2, accepted with no effect. -/
  | entas2
  /-- ENTAS3 (R382). CCC ENTAS3, accepted with no effect. -/
  | entas3
  /-- RSTDAA (R382). CCC RSTDAA clears the dynamic address. -/
  | rstdaa
  /-- ENTDAA (R382). CCC ENTDAA: dynamic address assignment. -/
  | entdaa (da : BitVec 7)
  /-- SETMWL (R382). CCC SETMWL sets the maximum write length. -/
  | setmwl (n : BitVec 16)
  /-- SETMRL (R382). CCC SETMRL sets the maximum read length. -/
  | setmrl (n : BitVec 16)
  /-- ENTHDR0 (R382). CCC ENTHDR0 enters HDR-DDR. -/
  | enthdr0
  /-- RSTACT (R382). CCC RSTACT resets the target logic or restarts the helm. -/
  | rstact (b : BitVec 8)
  /-- SETDASA (R382). CCC SETDASA assigns the dynamic address. -/
  | setdasa (static_ da : BitVec 7)
  /-- SETNEWDA (R382). CCC SETNEWDA replaces the dynamic address. -/
  | setnewda (da : BitVec 7)
  /-- GETMWL (R382). CCC GETMWL returns the write limit. -/
  | getmwl
  /-- GETMRL (R382). CCC GETMRL returns the read limit. -/
  | getmrl
  /-- GETPID (R382). CCC GETPID returns the PID. -/
  | getpid
  /-- GETBCR (R382). CCC GETBCR returns the BCR. -/
  | getbcr
  /-- GETDCR (R382). CCC GETDCR returns the DCR. -/
  | getdcr
  /-- GETSTATUS (R382). CCC GETSTATUS returns the pending classes and access status. -/
  | getstatus
  /-- GETMXDS (R382). CCC GETMXDS returns no speed limit. -/
  | getmxds
  /-- STATUS (R386). Private STATUS command returns the status byte and index. -/
  | status
  /-- I3C_WRITE (R384). Private WRITE to consecutive register addresses. -/
  | i3cWrite (bytes : List (BitVec 8))
  /-- WRITE_FIXED (R384). Private WRITE_FIXED of every word to one address. -/
  | writeFixed (bytes : List (BitVec 8))
  /-- I3C_READ (R384). Private READ of consecutive register addresses. -/
  | i3cRead (bytes : List (BitVec 8)) (taken : BitVec 6)
  /-- READ_FIXED (R384). Private READ_FIXED of fresh reads of one address. -/
  | readFixed (bytes : List (BitVec 8)) (taken : BitVec 6)
  /-- HOT_JOIN (R383). The ready target without an address issues or retries a Hot-Join. -/
  | hotJoin (ack : Option (BitVec 7))
  /-- IBI (R389). A pending IBI class is sent at a Bus Available condition. -/
  | ibi (acked : Bool)
  /-- OUT_SET (R397). GPIO.OUT_SET sets owned output pins. -/
  | outSet (mask : BitVec 12) (by_ : Writer)
  /-- OUT_CLR (R397). GPIO.OUT_CLR clears owned output pins. -/
  | outClr (mask : BitVec 12) (by_ : Writer)
  /-- FUNC_CHANGE (R395). A GPIO function change turns off the old driver and parks the pad. -/
  | funcChange (v : BitVec 8) (by_ : Writer)
  /-- PARK_END (R395). The park of a pin ends and the new function takes the pad. -/
  | parkEnd (i : PinNo)
  /-- PIN_INTERRUPT (R399). A pin-interrupt line event goes to an IBI, an easel mailbox or the helm. -/
  | pinInterrupt (line : BitVec 3) (edge_ : PinEdge)
  /-- WAKE_INPUT (R400). A wake input holds its level for 1 µs and wakes the package. -/
  | wakeInput (k : Bool) (level : Bool)
  /-- UART_DATA_WRITE (R401). A write of GPIO.UART_DATA queues a byte for transmission. -/
  | uartDataWrite (b : BitVec 8) (by_ : Writer)
  /-- UART_DATA_READ (R401). A read of GPIO.UART_DATA pops a received byte. -/
  | uartDataRead
  /-- UART_RX (R401). A byte is received on the UART, or discarded when the queue is full. -/
  | uartRx (b : BitVec 8) (frameErr : Bool)
  /-- SPI_DATA (R401). A write of GPIO.SPI_DATA sends and receives one byte. -/
  | spiData (b : BitVec 8) (holdCs : Bool) (by_ : Writer)
  /-- CAPTURE (R401). A selected capture edge records MER.TICK. -/
  | capture (falling : Bool)
  /-- CAPTURE_READ (R401). A read of GPIO.CAP_LO latches TICK_HI and clears VALID. -/
  | captureRead
  /-- WAKE_SEQUENCE (R406). A TWD wake sequence restores the protocol state. -/
  | wakeSequence
  /-- TWD_REQUEST (R405). A TWD header is answered OK, WAIT or ERR and its data phase run. -/
  | twdRequest (hdr : BitVec 8) (data : Word) (par : Bool)
  /-- ATTACH (R409). A write of DBG.SESSION.ATTACH opens or ends a session. -/
  | attach (v : Bool)
  /-- SESSION_IDLE (R409). No TWD_CLK edge for IDLE_TO ends the session. -/
  | sessionIdle
  /-- DBG_DATA_WRITE (R412). A write of DBG.DATA starts a bus-master write. -/
  | dbgDataWrite (v : Word) (ecc : Ecc)
  /-- DBG_DATA_READ (R412). A read of DBG.DATA starts a bus-master read or returns its data. -/
  | dbgDataRead (ecc : Ecc)
  /-- ERR_CLR (R408). DBG.STATUS.ERR_CLR clears the error. -/
  | errClr
  /-- HALT (R414). DBG.CORE_CTRL.HALT halts the selected core at a boundary. -/
  | halt
  /-- CORE_RESUME (R415). DBG.CORE_CTRL.RESUME resumes a halted core. -/
  | coreResume
  /-- STEP (R415). DBG.CORE_CTRL.STEP executes one instruction and halts. -/
  | step_
  /-- CLAIM (R416). A write of CLAIM claims or restores patch units. -/
  | claim (mask : BitVec 8)
  /-- CORE_VAL (R417). DBG.CORE_VAL reads or writes a register of a halted core. -/
  | coreVal (wr : Option (BitVec 16))
  /-- FEED (R418). DBG.FEED executes one instruction on a halted core. -/
  | feed (insn : Word) (ecc : Ecc)
  /-- PRIV_ARM (R419). DBG.PRIV with ARM 0xA5 arms a test entry. -/
  | privArm (mode : BitVec 2) (arm : BitVec 8)
  /-- PRIV_GO (R420). DBG.PRIV GO within 100 µs starts test entry and clearing of secrets.
  `since` is the time since the latest tick, in 2^-16 ns. -/
  | privGo (mode : BitVec 2) (arm : BitVec 8) (since : Word)
  /-- TEST_ENTRY_DONE (R420). Stores are cleared and test mode is entered. -/
  | testEntryDone
  /-- ENTER_STATE (R436). PWR.CMD GO enters the named power state. -/
  | enterState (st : BitVec 3)
  /-- WAKE (R434). PWR.CMD.WAKE returns the package to RUN. -/
  | wake
  /-- SHUTDOWN (R447). PWR.CMD.SHUTDOWN runs the orderly shutdown. -/
  | shutdown
  /-- SHUTDOWN_BIST_END (R447). Shutdown BIST ends, records are written and the package reads OFF_READY. -/
  | shutdownBistEnd (fails : BistReport) (offClock : List (BitVec 18))
  /-- AUTO_ENTRY (R433). Idle time passes a break-even and the helm enters a deeper allowed state. -/
  | autoEntry
  /-- ENTRY_COMPLETE (R436). The entry to a power state completes after gating. -/
  | entryComplete
  /-- EXIT_COMPLETE (R431). The exit completes, every quadrant runs, and held jobs resume. -/
  | exitComplete
  /-- QUAD_RESET (R438). PWR.QCTRL RESET resets one quadrant. -/
  | quadReset (q : Quad)
  /-- QUAD_DOZE (R438). PWR.QCTRL DOZE puts one quadrant in DOZE. -/
  | quadDoze (q : Quad)
  /-- QUAD_DORMANT (R438). PWR.QCTRL DORMANT puts one quadrant in DORMANT. -/
  | quadDormant (q : Quad)
  /-- QUAD_WAKE (R438). PWR.QCTRL WAKE wakes one quadrant or retries its rail. -/
  | quadWake (q : Quad)
  /-- POWER_SAMPLE (R439). Every 1 ms package power is measured and the cap throttle judged. -/
  | powerSample (pkg : BitVec 16) (quads : List (BitVec 16))
  /-- THERMAL_SAMPLE (R441). Every 100 µs the sensors are sampled; throttle and trip are judged. -/
  | thermalSample (temps : List (BitVec 8))
  /-- THERMAL_SHUTDOWN (R443). At 125 °C the comparator shuts the package down. -/
  | thermalShutdown
  /-- VQ_FAULT (R445). A VQ supply fault isolates and resets its quadrant and turns off the rail.
  `since` is the time since the latest tick, in 2^-16 ns. -/
  | vqFault (q : Quad) (since : Word)
  /-- AGE_CHECK (R446). The helm measures ageing slowdown and raises WARN or LIMIT. -/
  | ageCheck (q : Quad) (slow : BitVec 10)
  /-- CLASSIFY (R452). The helm takes a key from a fault queue and updates the tracking table.
  `since` is the time since the latest tick, in 2^-16 ns. -/
  | classify (l : BitVec 3) (since : Word)
  /-- ISB_START (R463). The helm starts an in-service test of an eligible region.
  `due` says that the interval since its last pass is the reason. -/
  | isbStart (rg : Rg) (due : Bool)
  /-- BIST_STEP (R463). A macro or logic test step completes, with repair and copy-back. -/
  | bistStep (rg : Rg) (fails : BistReport) (valid : Bool) (last : Bool)
  /-- BIST_GO (R460). FLT.BIST_CMD.GO starts an on-demand test. -/
  | bistGo (rg : Rg)
  /-- BIST_ABORT (R464). FLT.BIST_CMD.ABORT abandons a test step. -/
  | bistAbort
  /-- REPAIR_CLEAR (R468). FLT.REPAIR_CMD.CLEAR with ARM empties the repair map. -/
  | repairClear (by_ : Writer) (arm : BitVec 8)
  /-- TAINT_CLEAR (R471). TNT.CTRL.CLEAR clears a quadrant's taint log. -/
  | taintClear (mask : BitVec 4)
  /-- REGISTER_WRITE (R5). Write to a register without a row of its own, under its access code, lock and reserved rules. -/
  | registerWrite (addr : Word) (v : Word) (by_ : Writer)
  /-- PEER_BEGINS_TRAINING (R278). The peer of a port begins training, and the port trains with it from DETECT, including a DOWN port. -/
  | peerBeginsTraining (p : PortNo)
  /-- PEER_RESUMES_SIGNALLING (R434). A peer resumes signalling on a QUIET port, which wakes a package in DOZE. -/
  | peerResumesSignalling (p : PortNo)
  /-- IO_SUPPLY_RETURN (R181). VFIO or VUIO returns within ±10 % of its declared value, so VOK is set again and the bank's outputs leave PARK. -/
  | ioSupplyReturn (q : Quad) (uio : Bool)
  /-- D2D_RESUME (R246). A D2D link paused for a wire replacement resumes, and waiting flits and bundles move again. -/
  | d2dResume (q : Quad) (l : LinkNo)
  /-- LATCH_CLOCK (R161). The wire that LCLK names reaches its active level or edge, and the cell's latches load D. -/
  | latchClock (rg : Rg) (n : CellNo) (level : Bool) (wires : BitVec 16)
  /-- EDGE_INPUT (R176). An FIO or UIO pin in EDGE mode sees an edge of the selected kind, which is added to the pending count, saturating with OVERRUN. -/
  | edgeInput (rg : Rg) (i : BitVec 3) (uio : Bool) (rising : Bool)
  /-- DELAY_STEP (R179). Every 8 periods of the pin clock a moving FIO delay advances by 10 ps, and BUSY clears when both delays have arrived. -/
  | delayStep (rg : Rg) (i : BitVec 3)
  /-- GRANT_IDLE_DROP (R351). 32 core cycles pass without a BPA, and an easel core drops its held back-port request. -/
  | grantIdleDrop (rg : Rg) (k : CoreNo)
  /-- DIRTY_CHECKS_PASS (R227). The schedule checks of a dirty region complete, and a region held for them begins its cycle late, logged as a slip. -/
  | dirtyChecksPass (rg : Rg)
  /-- UART_TX (R401). The UART finishes sending a byte from its transmit queue and frees a place. -/
  | uartTx
  /-- SPI_BYTE_END (R401). An SPI byte transfer completes, the received byte is stored and BUSY clears. -/
  | spiByteEnd (rx : BitVec 8)
  /-- TACH_EDGE (R401). A falling edge on a fan TACH pin updates GPIO.FAN_TACH with the time since the previous edge. -/
  | tachEdge (f : Bool) (us : BitVec 16)
  /-- HDR_EXIT_PATTERN (R380). The controller sends the HDR exit pattern, and the target leaves HDR mode and stops ignoring the bus. -/
  | hdrExitPattern
  /-- POWER_REMOVAL (R427). Power is removed with RESET_N low, the package goes OFF, and the loss of VHUB clears THM.STATUS.LAST_SHUTDOWN. -/
  | powerRemoval
  /-- SHUTDOWN_WAIT_END (R447). The shutdown's wait for HELD and for loads to end is met or times out, remaining loads are abandoned with code 15, and the neighbour procedure begins. -/
  | shutdownWaitEnd
  deriving DecidableEq, Repr

end Sys2Proof
end

