-- ==== Sys2Proof/Decode.lean ====
section
/-! DEFINITION. Words that spell commands. The operation table gives no row any bits: no word spells a command. -/

namespace Sys2Proof

/-- The command that the word `w` of `nbits` bits spells. -/
def decodeTableWord (nbits w : Nat) : Option Instr :=
  let _ := (nbits, w)
  none

end Sys2Proof
end

