-- ==== Sys2Proof/Config.lean ====
section
/-! DEFINITION. What the spec leaves open and the model leaves free: constants without a body, of which no proof can see a
value. -/

namespace Sys2Proof

/-- A free value: the n-th value of width w that the spec does not state. -/
opaque Config.freeBits (w n : Nat) : BitVec w

/-- The logical lane whose symbols of the marker codewords the standby lane copies, which the spec does not name (R279). -/
opaque Config.standbyCopy : BitVec 3

/-- What a port asks of its peer's equaliser on a lane, at a time in ns: the adaptation is the port's own (R278). -/
opaque Config.equaliserRequest (port lane now : Nat) : BitVec 16

/-- Whether a receive lane's bit error ratio has made it OK in TRAIN, at a time in ns (R278). -/
opaque Config.laneTrained (port lane now : Nat) : Bool

/-- Where a lane's PRBS13 pattern starts, and the 64 symbols in which a training word of some content is coded (R278). -/
opaque Config.prbsSeed (port lane : Nat) : BitVec 13
opaque Config.trainingCode (word symbol : Nat) : BitVec 2

/-- When the step of a macro or logic block runs in a BIST of the package, and how long it takes, in ns after the BIST begins at a moment: the
helm's order is its own (R460, R463). -/
opaque Config.bistStep (began block : Nat) : Nat × Nat

/-- The package's 64-bit unique ID (R308, R311), which is its own on every package. -/
opaque Config.uid : BitVec 64

/-- The 8 check bits of the (72,64) SECDED code of design memory and of the ring, whose layout the spec does not give (R109). -/
opaque Config.secded72 : BitVec 64 → BitVec 8

/-- SHA-384 of FIPS 180-4, which the spec names and does not restate (R195, R196). -/
opaque Config.sha384 : List (BitVec 8) → BitVec 384

/-- Whether (r, s) is an ECDSA signature on curve P-384 over a digest, under the public key (Qx, Qy) (R195). -/
opaque Config.ecdsaOk (qx qy r s digest : BitVec 384) : Bool

/-- RFC 3394 unwrapping under the fused key of the device (R198): the 40 bytes, where the integrity check passes. -/
opaque Config.keyUnwrap : BitVec 384 → Option (BitVec 320)

/-- AES-256-GCM opening of one chunk (R199): the plaintext, where the tag checks. -/
opaque Config.gcmOpen (key : BitVec 256) (iv : BitVec 96) (aad text : List (BitVec 8)) (tag : BitVec 128) :
  Option (List (BitVec 8))

end Sys2Proof
end

