-- ==== Sys2Proof/Machine/Fields.lean ====
section
/-! DEFINITION. The registers of the AX4-192 and their fields, from the register tables of the spec (R62, R63, R91, R108, R142,
R143, R188, R217, R242, R243, R271, R306, R323, R362, R379, R402, R403, R425, R448, R449, R470, R471, R473). A hub register's
offset is its package address; a region register's is its offset from the region window (R474). -/

namespace Sys2Proof.Machine

/-- A register field: the offset of its register, its lowest bit and its width. -/
structure Fld where
  off : Nat
  lo : Nat
  w : Nat
  deriving DecidableEq, Repr

abbrev R.HUB_ID : Nat := 0
abbrev R.HUB_FW : Nat := 0x4
abbrev R.HUB_FW_COPY : Nat := 0x8
abbrev R.HUB_NOC : Nat := 0xc
abbrev R.HUB_NOC_INJ : Nat := 0x10
abbrev R.HIF_CTRL : Nat := 0x10000
abbrev R.HIF_STATUS : Nat := 0x10004
abbrev R.HIF_PINS : Nat := 0x10008
abbrev R.HIF_ACC_STAT : Nat := 0x1000c
abbrev R.HIF_ERR : Nat := 0x10010
abbrev R.HIF_IBI_EN : Nat := 0x10014
abbrev R.HIF_IBI_PEND : Nat := 0x10018
abbrev R.HIF_IBI_COAL : Nat := 0x1001c
abbrev R.HIF_IBI_INFO (c : Nat) : Nat := 0x10020 + 4 * c
abbrev R.HIF_ALERT_SRC : Nat := 0x100a0
abbrev R.HIF_PID_LO : Nat := 0x100a4
abbrev R.HIF_PID_HI : Nat := 0x100a8
abbrev R.GPIO_FUNC : Nat := 0x20000
abbrev R.GPIO_IN : Nat := 0x20004
abbrev R.GPIO_OUT : Nat := 0x20008
abbrev R.GPIO_OUT_SET : Nat := 0x2000c
abbrev R.GPIO_OUT_CLR : Nat := 0x20010
abbrev R.GPIO_DIR : Nat := 0x20014
abbrev R.GPIO_FUNC_STAT : Nat := 0x20018
abbrev R.GPIO_DENIED : Nat := 0x2001c
abbrev R.GPIO_PIN (i : Nat) : Nat := 0x20040 + 4 * i
abbrev R.GPIO_INT (n : Nat) : Nat := 0x20080 + 4 * n
abbrev R.GPIO_INT_STAT : Nat := 0x200a0
abbrev R.GPIO_WAKE (k : Nat) : Nat := 0x200b0 + 4 * k
abbrev R.GPIO_UART_CFG : Nat := 0x20100
abbrev R.GPIO_UART_DATA : Nat := 0x20104
abbrev R.GPIO_UART_STAT : Nat := 0x20108
abbrev R.GPIO_SPI_CFG : Nat := 0x20110
abbrev R.GPIO_SPI_DATA : Nat := 0x20114
abbrev R.GPIO_FAN_CFG (f : Nat) : Nat := 0x20120 + 8 * f
abbrev R.GPIO_FAN_TACH (f : Nat) : Nat := 0x20124 + 8 * f
abbrev R.GPIO_CAP_CFG : Nat := 0x20130
abbrev R.GPIO_CAP_LO : Nat := 0x20134
abbrev R.GPIO_CAP_HI : Nat := 0x20138
abbrev R.PWR_CTRL : Nat := 0x30000
abbrev R.PWR_CMD : Nat := 0x30004
abbrev R.PWR_STATUS : Nat := 0x30008
abbrev R.PWR_TOL : Nat := 0x3000c
abbrev R.PWR_CAP : Nat := 0x30010
abbrev R.PWR_POWER : Nat := 0x30014
abbrev R.PWR_IDLE : Nat := 0x30018
abbrev R.PWR_COUNTS : Nat := 0x3001c
abbrev R.PWR_HOURS : Nat := 0x30020
abbrev R.PWR_AVS_CFG : Nat := 0x30024
abbrev R.PWR_QCTRL (q : Nat) : Nat := 0x30040 + 4 * q
abbrev R.PWR_QSTAT (q : Nat) : Nat := 0x30050 + 4 * q
abbrev R.PWR_QPOWER (q : Nat) : Nat := 0x30060 + 4 * q
abbrev R.PWR_AGE (q : Nat) : Nat := 0x30070 + 4 * q
abbrev R.THM_CTRL : Nat := 0x30800
abbrev R.THM_STATUS : Nat := 0x30804
abbrev R.THM_TEMP_MAX : Nat := 0x30808
abbrev R.THM_SENSOR (s : Nat) : Nat := 0x30840 + 4 * s
abbrev R.FLT_CTRL : Nat := 0x40000
abbrev R.FLT_STATUS : Nat := 0x40004
abbrev R.FLT_ISO_LAST : Nat := 0x40008
abbrev R.FLT_ISB : Nat := 0x4000c
abbrev R.FLT_BIST_CMD : Nat := 0x40010
abbrev R.FLT_BIST_STAT : Nat := 0x40014
abbrev R.FLT_TESTING_LO : Nat := 0x40018
abbrev R.FLT_TESTING_HI : Nat := 0x4001c
abbrev R.FLT_REPAIR : Nat := 0x40020
abbrev R.FLT_REPAIR_CMD : Nat := 0x40024
abbrev R.FLT_REPAIR_PTR : Nat := 0x40028
abbrev R.FLT_REPAIR_LO : Nat := 0x4002c
abbrev R.FLT_REPAIR_HI : Nat := 0x40030
abbrev R.FLT_LOG_PTR : Nat := 0x40034
abbrev R.FLT_LASTING_LOG (i : Nat) : Nat := 0x40100 + 16 * i
abbrev R.FLT_LASTING_LOG_1 (i : Nat) : Nat := 0x40104 + 16 * i
abbrev R.FLT_LASTING_LOG_2 (i : Nat) : Nat := 0x40108 + 16 * i
abbrev R.FLT_CLASS (s : Nat) : Nat := 0x40200 + 4 * s
abbrev R.FLT_BIST_LOG (i w : Nat) : Nat := 0x40400 + 16 * i + 4 * w
abbrev R.FLT_CNT (s l : Nat) : Nat := 0x41000 + 32 * s + 4 * l
abbrev R.TNT_CTRL : Nat := 0x48000
abbrev R.TNT_PTR (q : Nat) : Nat := 0x48010 + 16 * q
abbrev R.TNT_COUNT (q : Nat) : Nat := 0x48014 + 16 * q
abbrev R.TNT_LOST (q : Nat) : Nat := 0x48018 + 16 * q
abbrev R.TNT_LOG (w : Nat) : Nat := 0x4c000 + 4 * w
abbrev R.MER_CTRL : Nat := 0x50000
abbrev R.MER_STATUS : Nat := 0x50004
abbrev R.MER_TICK_LO : Nat := 0x50008
abbrev R.MER_TICK_HI : Nat := 0x5000c
abbrev R.MER_PERIOD : Nat := 0x50010
abbrev R.MER_INT_PERIOD : Nat := 0x50014
abbrev R.MER_REALIGN : Nat := 0x50018
abbrev R.MER_EVENTS : Nat := 0x5001c
abbrev R.MER_RECKON_TIME : Nat := 0x50020
abbrev R.MER_SLIP_BUDGET : Nat := 0x50024
abbrev R.MER_LOOP (q : Nat) : Nat := 0x50040 + 4 * q
abbrev R.MER_WIN (q : Nat) : Nat := 0x50050 + 4 * q
abbrev R.MER_QSLIP (q : Nat) : Nat := 0x50060 + 4 * q
abbrev R.MER_FIX_TICKS (j : Nat) : Nat := 0x50800 + 32 * j
abbrev R.MER_T0_LO (j : Nat) : Nat := 0x50804 + 32 * j
abbrev R.MER_T0_HI (j : Nat) : Nat := 0x50808 + 32 * j
abbrev R.MER_JOB_CTRL (j : Nat) : Nat := 0x5080c + 32 * j
abbrev R.MER_RESUME_LO (j : Nat) : Nat := 0x50810 + 32 * j
abbrev R.MER_RESUME_HI (j : Nat) : Nat := 0x50814 + 32 * j
abbrev R.MER_HOLD_CYCLE (j : Nat) : Nat := 0x50818 + 32 * j
abbrev R.CFG_CTRL : Nat := 0x60000
abbrev R.CFG_STATUS : Nat := 0x60004
abbrev R.CFG_ERR : Nat := 0x60008
abbrev R.CFG_ERR_OFFSET_LO : Nat := 0x6000c
abbrev R.CFG_ERR_OFFSET_HI : Nat := 0x60010
abbrev R.CFG_POINT_LO : Nat := 0x60014
abbrev R.CFG_POINT_HI : Nat := 0x60018
abbrev R.CFG_BSID_LO : Nat := 0x6001c
abbrev R.CFG_BSID_HI : Nat := 0x60020
abbrev R.CFG_COUNTS : Nat := 0x60024
abbrev R.CFG_LOADS : Nat := 0x60028
abbrev R.CFG_FIFO : Nat := 0x6002c
abbrev R.CFG_START_LEAD : Nat := 0x60030
abbrev R.CFG_START_CMD : Nat := 0x60034
abbrev R.CFG_START_TICK_LO : Nat := 0x60038
abbrev R.CFG_START_TICK_HI : Nat := 0x6003c
abbrev R.CFG_GROUND_CMD : Nat := 0x60040
abbrev R.CFG_GROUND_STAT : Nat := 0x60044
abbrev R.CFG_GSLOT (n : Nat) : Nat := 0x60048 + 4 * n
abbrev R.CFG_PKEY_CMD : Nat := 0x60060
abbrev R.CFG_PKEY_STAT : Nat := 0x60064
abbrev R.CFG_PKEY_ID (n : Nat) : Nat := 0x60068 + 4 * n
abbrev R.CFG_PKEY_WRAP (i : Nat) : Nat := 0x600a0 + 4 * i
abbrev R.CFG_SKEY : Nat := 0x600d0
abbrev R.CFG_SKEY_CMD : Nat := 0x600d4
abbrev R.CFG_SKEY_HASH (i : Nat) : Nat := 0x600e0 + 4 * i
abbrev R.CFG_PART (m : Nat) : Nat := 0x63000 + 4 * m
abbrev R.RTC_CTRL : Nat := 0x61000
abbrev R.RTC_STATUS : Nat := 0x61004
abbrev R.RTC_RESULT : Nat := 0x61008
abbrev R.RTC_POINT : Nat := 0x6100c
abbrev R.RTC_COUNTS : Nat := 0x61010
abbrev R.RTC_FLUSH : Nat := 0x61014
abbrev R.RTC_CEN_LO : Nat := 0x61018
abbrev R.RTC_CEN_HI : Nat := 0x6101c
abbrev R.RTC_DIRTY_LO : Nat := 0x61020
abbrev R.RTC_DIRTY_HI : Nat := 0x61024
abbrev R.RTC_RB_CMD : Nat := 0x61030
abbrev R.RTC_RB_STATUS : Nat := 0x61034
abbrev R.RTC_RB_CYCLE_LO : Nat := 0x61038
abbrev R.RTC_RB_CYCLE_HI : Nat := 0x6103c
abbrev R.RTC_RB_PTR : Nat := 0x61040
abbrev R.RTC_RB_WORD : Nat := 0x61044
abbrev R.SCR_CTRL : Nat := 0x62000
abbrev R.SCR_WINDOW : Nat := 0x62004
abbrev R.SCR_PACE : Nat := 0x62008
abbrev R.SCR_STATUS : Nat := 0x6200c
abbrev R.SCR_CE : Nat := 0x62010
abbrev R.SCR_MARKS : Nat := 0x62014
abbrev R.SCR_TMR : Nat := 0x62018
abbrev R.SCR_PASS : Nat := 0x6201c
abbrev R.SCR_LAST : Nat := 0x62020
abbrev R.SCR_SPARES (r : Nat) : Nat := 0x62100 + 4 * r
abbrev R.LNK_CTRL (p : Nat) : Nat := 0x70000 + 4096 * p
abbrev R.LNK_STATUS (p : Nat) : Nat := 0x70004 + 4096 * p
abbrev R.LNK_CFG (p : Nat) : Nat := 0x70008 + 4096 * p
abbrev R.LNK_LANE_CFG (p : Nat) : Nat := 0x7000c + 4096 * p
abbrev R.LNK_TICK_CFG (p : Nat) : Nat := 0x70010 + 4096 * p
abbrev R.LNK_DELAY (p : Nat) : Nat := 0x70014 + 4096 * p
abbrev R.LNK_FEC (p : Nat) : Nat := 0x70018 + 4096 * p
abbrev R.LNK_FEC_UE (p : Nat) : Nat := 0x7001c + 4096 * p
abbrev R.LNK_REPLAY (p : Nat) : Nat := 0x70020 + 4096 * p
abbrev R.LNK_REPLAY_TO (p : Nat) : Nat := 0x70024 + 4096 * p
abbrev R.LNK_TX_WAIT (p : Nat) : Nat := 0x70028 + 4096 * p
abbrev R.LNK_SCHED_WAIT (p : Nat) : Nat := 0x7002c + 4096 * p
abbrev R.LNK_SCHED_ERR (p : Nat) : Nat := 0x70030 + 4096 * p
abbrev R.LNK_PKT (p : Nat) : Nat := 0x70034 + 4096 * p
abbrev R.LNK_TICK_STAT (p : Nat) : Nat := 0x70038 + 4096 * p
abbrev R.LNK_LANE_EVENTS (p : Nat) : Nat := 0x7003c + 4096 * p
abbrev R.LNK_LANE (p l : Nat) : Nat := 0x70080 + 4096 * p + 4 * l
abbrev R.LNK_PLAN_LO (p : Nat) : Nat := 0x70400 + 4096 * p
abbrev R.LNK_PLAN_HI (p : Nat) : Nat := 0x70404 + 4096 * p
abbrev R.LNK_PLAN_SH_LO (p : Nat) : Nat := 0x70408 + 4096 * p
abbrev R.LNK_PLAN_SH_HI (p : Nat) : Nat := 0x7040c + 4096 * p
abbrev R.LNK_MAP_PTR (p : Nat) : Nat := 0x70410 + 4096 * p
abbrev R.LNK_MAP_DATA (p : Nat) : Nat := 0x70414 + 4096 * p
abbrev R.LNK_MAP_SHADOW (p : Nat) : Nat := 0x70418 + 4096 * p
abbrev R.LNK_SLOT_CMD (p : Nat) : Nat := 0x7041c + 4096 * p
abbrev R.LNK_SLOT_STAT (p : Nat) : Nat := 0x70420 + 4096 * p
abbrev R.FAB_CTRL : Nat := 0x80000
abbrev R.FAB_STATUS : Nat := 0x80004
abbrev R.FAB_ID : Nat := 0x80008
abbrev R.FAB_SIZE : Nat := 0x8000c
abbrev R.FAB_UID_LO : Nat := 0x80010
abbrev R.FAB_UID_HI : Nat := 0x80014
abbrev R.FAB_LUID_LO : Nat := 0x80018
abbrev R.FAB_LUID_HI : Nat := 0x8001c
abbrev R.FAB_ROUTE_STAT : Nat := 0x80020
abbrev R.FAB_DROP : Nat := 0x80024
abbrev R.FAB_BCAST : Nat := 0x80028
abbrev R.FAB_DISC_CNT : Nat := 0x8002c
abbrev R.FAB_RING_DOWN (d : Nat) : Nat := 0x80040 + 4 * d
abbrev R.FAB_NBR (p : Nat) : Nat := 0x80100 + 32 * p
abbrev R.FAB_NBR_1 (p : Nat) : Nat := 0x80104 + 32 * p
abbrev R.FAB_NBR_2 (p : Nat) : Nat := 0x80108 + 32 * p
abbrev R.FAB_NBR_3 (p : Nat) : Nat := 0x8010c + 32 * p
abbrev R.SEM_TAKE (n : Nat) : Nat := 0x90000 + 16 * n
abbrev R.SEM_RELEASE (n : Nat) : Nat := 0x90004 + 16 * n
abbrev R.SEM_HOLDER (n : Nat) : Nat := 0x90008 + 16 * n
abbrev R.SEM_HOLD_TIME (n : Nat) : Nat := 0x9000c + 16 * n
abbrev R.SEM_CTRL : Nat := 0x90200
abbrev R.SEM_STATUS : Nat := 0x90204
abbrev R.SEM_ALERT : Nat := 0x90208
abbrev R.SEM_COUNTS : Nat := 0x9020c
abbrev R.SEM_COUNTS2 : Nat := 0x90210
abbrev R.SEM_ALIVE_LO : Nat := 0x90214
abbrev R.SEM_ALIVE_HI : Nat := 0x90218
abbrev R.SEM_ALIVE_Q : Nat := 0x9021c
abbrev R.SEM_BUSWD : Nat := 0x90220
abbrev R.SEM_BUSWD_ADDR : Nat := 0x90224
abbrev R.SEM_BUSWD_CNT : Nat := 0x90228
abbrev R.SEM_XSTAT : Nat := 0x9022c
abbrev R.SEM_QERR : Nat := 0x90230
abbrev R.SEM_ABANDON (i : Nat) : Nat := 0x90240 + 4 * i
abbrev R.DBG_ID : Nat := 0xa0000
abbrev R.DBG_SESSION : Nat := 0xa0004
abbrev R.DBG_STATUS : Nat := 0xa0008
abbrev R.DBG_REQ : Nat := 0xa000c
abbrev R.DBG_ADDR_LO : Nat := 0xa0010
abbrev R.DBG_ADDR_HI : Nat := 0xa0014
abbrev R.DBG_DATA : Nat := 0xa0018
abbrev R.DBG_DATA_HI : Nat := 0xa001c
abbrev R.DBG_CORE : Nat := 0xa0020
abbrev R.DBG_CORE_CTRL : Nat := 0xa0024
abbrev R.DBG_CORE_STAT : Nat := 0xa0028
abbrev R.DBG_FEED : Nat := 0xa002c
abbrev R.DBG_CORE_REG : Nat := 0xa0030
abbrev R.DBG_CORE_VAL : Nat := 0xa0034
abbrev R.DBG_PRIV : Nat := 0xa0038
abbrev R.DBG_CTRL : Nat := 0xa003c
abbrev R.RGN_CTRL : Nat := 0
abbrev R.RGN_STATUS : Nat := 0x4
abbrev R.RGN_CHECK : Nat := 0x8
abbrev R.RGN_WDOG : Nat := 0xc
abbrev R.RGN_XERR : Nat := 0x10
abbrev R.RGN_XLAST : Nat := 0x14
abbrev R.RGN_HALT_SRC : Nat := 0x18
abbrev R.RGN_HALT_CYCLE : Nat := 0x1c
abbrev R.RGN_HALTIF_CNT : Nat := 0x20
abbrev R.RGN_SEND_WAIT : Nat := 0x24
abbrev R.RGN_MEM_WAIT : Nat := 0x28
abbrev R.RGN_JPOST_WAIT : Nat := 0x2c
abbrev R.RGN_PROBE_WAIT : Nat := 0x30
abbrev R.RGN_MCOUNT : Nat := 0x34
abbrev R.RGN_ROUTE (w : Nat) : Nat := 0x8000 + 4 * w
abbrev R.RGN_XMAP (w : Nat) : Nat := 0xa000 + 4 * w
abbrev R.RGN_MORDER (w : Nat) : Nat := 0xb000 + 4 * w
abbrev R.FIX_CTRL : Nat := 0x1000
abbrev R.FIX_STATUS : Nat := 0x1004
abbrev R.FIX_CYCLE_LO : Nat := 0x1008
abbrev R.FIX_CYCLE_HI : Nat := 0x100c
abbrev R.FIX_BOUND_LO : Nat := 0x1010
abbrev R.FIX_BOUND_HI : Nat := 0x1014
abbrev R.FIX_MARGIN : Nat := 0x1018
abbrev R.FIX_MARGIN_MIN : Nat := 0x101c
abbrev R.FIX_SLIPS : Nat := 0x1020
abbrev R.FIX_SLIP_MAX : Nat := 0x1024
abbrev R.FIX_RECKONED : Nat := 0x1028
abbrev R.FIX_LOG_PTR : Nat := 0x102c
abbrev R.FIX_LOG_COUNT : Nat := 0x1030
abbrev R.FIX_LOG (w : Nat) : Nat := 0x1100 + 4 * w
abbrev R.DMEM_ARB : Nat := 0x2000
abbrev R.DMEM_STATUS : Nat := 0x2004
abbrev R.DMEM_GRANT_TIME : Nat := 0x2008
abbrev R.DMEM_ERR : Nat := 0x200c
abbrev R.DMEM_UE_LAST : Nat := 0x2010
abbrev R.DMEM_ARB_EVENTS : Nat := 0x2014
abbrev R.DMEM_AGE_MAX : Nat := 0x2018
abbrev R.DMEM_REFUSED : Nat := 0x201c
abbrev R.DMEM_BACK_WAIT (r : Nat) : Nat := 0x2020 + 4 * r
abbrev R.RWD_CTRL : Nat := 0x3000
abbrev R.RWD_CMD : Nat := 0x3004
abbrev R.RWD_ARG_LO : Nat := 0x3008
abbrev R.RWD_ARG_HI : Nat := 0x300c
abbrev R.RWD_REPLAY_TO_LO : Nat := 0x3010
abbrev R.RWD_REPLAY_TO_HI : Nat := 0x3014
abbrev R.RWD_STATUS : Nat := 0x3018
abbrev R.RWD_HEAD : Nat := 0x301c
abbrev R.RWD_TAIL : Nat := 0x3020
abbrev R.RWD_FREE : Nat := 0x3024
abbrev R.RWD_LAST_REC_LO : Nat := 0x3028
abbrev R.RWD_LAST_REC_HI : Nat := 0x302c
abbrev R.RWD_COUNTS : Nat := 0x3030
abbrev R.RWD_JLOG_LO : Nat := 0x3034
abbrev R.RWD_JLOG_HI : Nat := 0x3038
abbrev R.RWD_UNDO_WAIT : Nat := 0x303c
abbrev R.RWD_MARK (i : Nat) : Nat := 0x3400 + 16 * i
abbrev R.RWD_MARK_1 (i : Nat) : Nat := 0x3404 + 16 * i
abbrev R.RWD_MARK_2 (i : Nat) : Nat := 0x3408 + 16 * i
abbrev R.RWD_DATA (w : Nat) : Nat := 0x200000 + 4 * w
abbrev R.CLU_CTRL (c : Nat) : Nat := 0x4000 + 256 * c
abbrev R.CLU_STATUS (c : Nat) : Nat := 0x4004 + 256 * c
abbrev R.CLU_END_AT (c : Nat) : Nat := 0x4008 + 256 * c
abbrev R.CLU_ERR_OP (c : Nat) : Nat := 0x400c + 256 * c
abbrev R.CLU_ERR_ECC (c : Nat) : Nat := 0x4010 + 256 * c
abbrev R.CLU_UE_LAST (c : Nat) : Nat := 0x4014 + 256 * c
abbrev R.CLU_STALL_TIME (c : Nat) : Nat := 0x4018 + 256 * c
abbrev R.CLU_CYCLE_TIME (c : Nat) : Nat := 0x401c + 256 * c
abbrev R.CLU_PATROL (c : Nat) : Nat := 0x4020 + 256 * c
abbrev R.CLU_PORT_FULL (c : Nat) : Nat := 0x4024 + 256 * c
abbrev R.CNV_CTRL : Nat := 0xc000
abbrev R.CNV_STATUS : Nat := 0xc004
abbrev R.CNV_FIGHT_AT : Nat := 0xc008
abbrev R.CNV_FIGHT_CNT : Nat := 0xc00c
abbrev R.CNV_CHAIN_AT : Nat := 0xc010
abbrev R.CNV_ERR : Nat := 0xc014
abbrev R.CNV_MLOG : Nat := 0xc018
abbrev R.CNV_JOUT_LO : Nat := 0xc020
abbrev R.CNV_JOUT_HI : Nat := 0xc024
abbrev R.CNV_JIN_LO : Nat := 0xc028
abbrev R.CNV_JIN_HI : Nat := 0xc02c
abbrev R.CNV_JEP (n : Nat) : Nat := 0xc100 + 4 * n
abbrev R.CNV_FIO_CFG (i : Nat) : Nat := 0xc200 + 8 * i
abbrev R.CNV_FIO_DLY (i : Nat) : Nat := 0xc204 + 8 * i
abbrev R.CNV_UIO_CFG (u : Nat) : Nat := 0xc240 + 4 * u
abbrev R.CNV_IOERR : Nat := 0xc250
abbrev R.CNV_IOSTICKY : Nat := 0xc254
abbrev R.CNV_BANK : Nat := 0xc258
abbrev R.NOC_CTRL : Nat := 0xd000
abbrev R.NOC_STATUS : Nat := 0xd004
abbrev R.NOC_ISO : Nat := 0xd008
abbrev R.NOC_OVR_CMD : Nat := 0xd00c
abbrev R.NOC_OVR_STAT : Nat := 0xd010
abbrev R.NOC_NPD : Nat := 0xd014
abbrev R.NOC_NPD_LAST : Nat := 0xd018
abbrev R.NOC_ERR : Nat := 0xd01c
abbrev R.NOC_DROP : Nat := 0xd020
abbrev R.NOC_REFUSE : Nat := 0xd024
abbrev R.NOC_RESP_TO : Nat := 0xd028
abbrev R.NOC_INJ_WAIT : Nat := 0xd02c
abbrev R.NOC_SCHED_WAIT : Nat := 0xd030
abbrev R.NOC_D2D_STATUS (l : Nat) : Nat := 0xd100 + 16 * l
abbrev R.NOC_D2D_ERR (l : Nat) : Nat := 0xd104 + 16 * l
abbrev R.NOC_D2D_CTRL (l : Nat) : Nat := 0xd108 + 16 * l
abbrev R.NOC_D2D_LAST (l : Nat) : Nat := 0xd10c + 16 * l
abbrev R.NOC_QSW : Nat := 0xd140
abbrev R.NOC_QSW_REFUSE : Nat := 0xd144
abbrev R.NOC_OVR (w : Nat) : Nat := 0xd400 + 4 * w
abbrev R.NOC_OVR_SHADOW (w : Nat) : Nat := 0xd480 + 4 * w
abbrev R.NOC_SFWD (w : Nat) : Nat := 0xd800 + 4 * w
abbrev R.EAS_CTRL (k : Nat) : Nat := 0xe000 + 256 * k
abbrev R.EAS_STATUS (k : Nat) : Nat := 0xe004 + 256 * k
abbrev R.EAS_WDOG (k : Nat) : Nat := 0xe008 + 256 * k
abbrev R.EAS_WDOG_CNT (k : Nat) : Nat := 0xe00c + 256 * k
abbrev R.EAS_MBIN_STAT (k : Nat) : Nat := 0xe010 + 256 * k
abbrev R.EAS_MBOUT_STAT (k : Nat) : Nat := 0xe014 + 256 * k
abbrev R.EAS_MBOUT (k : Nat) : Nat := 0xe018 + 256 * k
abbrev R.EAS_MBIN_FIRST (k : Nat) : Nat := 0xe01c + 256 * k
abbrev R.EAS_MBIN_NEXT (k : Nat) : Nat := 0xe020 + 256 * k
abbrev R.EAS_COUNTS (k : Nat) : Nat := 0xe024 + 256 * k
abbrev R.EAS_PERF_INSN (k : Nat) : Nat := 0xe028 + 256 * k
abbrev R.EAS_PERF_STALL (k : Nat) : Nat := 0xe02c + 256 * k
abbrev R.EAS_CLK (k : Nat) : Nat := 0xe030 + 256 * k
abbrev R.EAS_PKT (k : Nat) : Nat := 0xe034 + 256 * k
abbrev R.EAS_PATCH_ADDR (k u : Nat) : Nat := 0xe040 + 256 * k + 8 * u
abbrev R.EAS_PATCH_WORD (k u : Nat) : Nat := 0xe044 + 256 * k + 8 * u

abbrev F.HUB_ID_REV : Fld := ⟨0, 0, 12⟩
abbrev F.HUB_ID_PART : Fld := ⟨0, 12, 16⟩
abbrev F.HUB_FW_VERSION : Fld := ⟨0x4, 0, 32⟩
abbrev F.HUB_FW_COPY_COPY : Fld := ⟨0x8, 0, 1⟩
abbrev F.HUB_NOC_ABSORBED : Fld := ⟨0xc, 0, 16⟩
abbrev F.HUB_NOC_POSTED_DROP : Fld := ⟨0xc, 16, 16⟩
abbrev F.HUB_NOC_INJ_INJ_BUSY : Fld := ⟨0x10, 0, 16⟩
abbrev F.HUB_NOC_INJ_TIMEOUTS : Fld := ⟨0x10, 16, 16⟩
abbrev F.HIF_CTRL_HJ_EN : Fld := ⟨0x10000, 0, 1⟩
abbrev F.HIF_CTRL_HDR_EN : Fld := ⟨0x10000, 1, 1⟩
abbrev F.HIF_STATUS_DA : Fld := ⟨0x10004, 0, 7⟩
abbrev F.HIF_STATUS_DA_VALID : Fld := ⟨0x10004, 7, 1⟩
abbrev F.HIF_STATUS_INT_EN : Fld := ⟨0x10004, 8, 1⟩
abbrev F.HIF_STATUS_HJ_ENC : Fld := ⟨0x10004, 9, 1⟩
abbrev F.HIF_STATUS_HDR : Fld := ⟨0x10004, 10, 1⟩
abbrev F.HIF_PINS_PROF_SEL : Fld := ⟨0x10008, 0, 2⟩
abbrev F.HIF_PINS_ADDR_SEL : Fld := ⟨0x10008, 2, 2⟩
abbrev F.HIF_PINS_LODESTAR : Fld := ⟨0x10008, 4, 1⟩
abbrev F.HIF_PINS_RST_CAUSE : Fld := ⟨0x10008, 5, 3⟩
abbrev F.HIF_ACC_STAT_RESULT : Fld := ⟨0x1000c, 0, 3⟩
abbrev F.HIF_ACC_STAT_INDEX : Fld := ⟨0x1000c, 3, 5⟩
abbrev F.HIF_ACC_STAT_BUSY : Fld := ⟨0x1000c, 8, 1⟩
abbrev F.HIF_ERR_PROTO : Fld := ⟨0x10010, 0, 16⟩
abbrev F.HIF_ERR_NACKS : Fld := ⟨0x10010, 16, 16⟩
abbrev F.HIF_IBI_EN_EN : Fld := ⟨0x10014, 1, 31⟩
abbrev F.HIF_IBI_PEND_PEND : Fld := ⟨0x10018, 1, 31⟩
abbrev F.HIF_IBI_COAL_COALESCED : Fld := ⟨0x1001c, 0, 16⟩
abbrev F.HIF_IBI_COAL_SENT : Fld := ⟨0x1001c, 16, 16⟩
abbrev F.HIF_IBI_INFO_LOC (c : Nat) : Fld := ⟨0x10020 + 4 * c, 0, 8⟩
abbrev F.HIF_IBI_INFO_ARG (c : Nat) : Fld := ⟨0x10020 + 4 * c, 8, 8⟩
abbrev F.HIF_ALERT_SRC_SRC : Fld := ⟨0x100a0, 0, 16⟩
abbrev F.HIF_ALERT_SRC_PIN : Fld := ⟨0x100a0, 16, 1⟩
abbrev F.HIF_PID_LO_PID : Fld := ⟨0x100a4, 0, 32⟩
abbrev F.HIF_PID_HI_PID : Fld := ⟨0x100a8, 0, 16⟩
abbrev F.GPIO_FUNC_UART_EN : Fld := ⟨0x20000, 0, 1⟩
abbrev F.GPIO_FUNC_UART_ALT : Fld := ⟨0x20000, 1, 1⟩
abbrev F.GPIO_FUNC_SPI_EN : Fld := ⟨0x20000, 2, 1⟩
abbrev F.GPIO_FUNC_SPI_CS1 : Fld := ⟨0x20000, 3, 1⟩
abbrev F.GPIO_FUNC_FAN0_EN : Fld := ⟨0x20000, 4, 1⟩
abbrev F.GPIO_FUNC_FAN1_EN : Fld := ⟨0x20000, 5, 1⟩
abbrev F.GPIO_FUNC_CAP_EN : Fld := ⟨0x20000, 6, 1⟩
abbrev F.GPIO_FUNC_CAP_SEL : Fld := ⟨0x20000, 7, 1⟩
abbrev F.GPIO_IN_LEVEL : Fld := ⟨0x20004, 0, 12⟩
abbrev F.GPIO_OUT_DATA : Fld := ⟨0x20008, 0, 12⟩
abbrev F.GPIO_OUT_SET_SET : Fld := ⟨0x2000c, 0, 12⟩
abbrev F.GPIO_OUT_CLR_CLR : Fld := ⟨0x20010, 0, 12⟩
abbrev F.GPIO_DIR_OUT : Fld := ⟨0x20014, 0, 12⟩
abbrev F.GPIO_FUNC_STAT_STATE : Fld := ⟨0x20018, 0, 24⟩
abbrev F.GPIO_FUNC_STAT_CONFLICT : Fld := ⟨0x20018, 24, 1⟩
abbrev F.GPIO_DENIED_WRITES : Fld := ⟨0x2001c, 0, 16⟩
abbrev F.GPIO_PIN_OWNER (i : Nat) : Fld := ⟨0x20040 + 4 * i, 0, 2⟩
abbrev F.GPIO_PIN_CORE (i : Nat) : Fld := ⟨0x20040 + 4 * i, 2, 8⟩
abbrev F.GPIO_INT_SEL (n : Nat) : Fld := ⟨0x20080 + 4 * n, 0, 1⟩
abbrev F.GPIO_INT_MODE (n : Nat) : Fld := ⟨0x20080 + 4 * n, 1, 3⟩
abbrev F.GPIO_INT_TARGET (n : Nat) : Fld := ⟨0x20080 + 4 * n, 4, 2⟩
abbrev F.GPIO_INT_CORE (n : Nat) : Fld := ⟨0x20080 + 4 * n, 6, 8⟩
abbrev F.GPIO_INT_STAT_PEND : Fld := ⟨0x200a0, 0, 6⟩
abbrev F.GPIO_INT_STAT_OVERRUN : Fld := ⟨0x200a0, 8, 6⟩
abbrev F.GPIO_WAKE_EN (k : Nat) : Fld := ⟨0x200b0 + 4 * k, 0, 1⟩
abbrev F.GPIO_WAKE_SEL (k : Nat) : Fld := ⟨0x200b0 + 4 * k, 1, 4⟩
abbrev F.GPIO_WAKE_POL (k : Nat) : Fld := ⟨0x200b0 + 4 * k, 5, 1⟩
abbrev F.GPIO_WAKE_HIT (k : Nat) : Fld := ⟨0x200b0 + 4 * k, 6, 1⟩
abbrev F.GPIO_UART_CFG_DIV : Fld := ⟨0x20100, 0, 16⟩
abbrev F.GPIO_UART_CFG_PAR_EN : Fld := ⟨0x20100, 16, 1⟩
abbrev F.GPIO_UART_CFG_ODD : Fld := ⟨0x20100, 17, 1⟩
abbrev F.GPIO_UART_CFG_STOP2 : Fld := ⟨0x20100, 18, 1⟩
abbrev F.GPIO_UART_DATA_BYTE : Fld := ⟨0x20104, 0, 8⟩
abbrev F.GPIO_UART_STAT_RX_COUNT : Fld := ⟨0x20108, 0, 5⟩
abbrev F.GPIO_UART_STAT_TX_FREE : Fld := ⟨0x20108, 5, 5⟩
abbrev F.GPIO_UART_STAT_EMPTY : Fld := ⟨0x20108, 10, 1⟩
abbrev F.GPIO_UART_STAT_OVERRUN : Fld := ⟨0x20108, 11, 1⟩
abbrev F.GPIO_UART_STAT_FRAME_ERR : Fld := ⟨0x20108, 12, 1⟩
abbrev F.GPIO_UART_STAT_TX_DROP : Fld := ⟨0x20108, 16, 8⟩
abbrev F.GPIO_SPI_CFG_DIV : Fld := ⟨0x20110, 0, 8⟩
abbrev F.GPIO_SPI_CFG_MODE : Fld := ⟨0x20110, 8, 2⟩
abbrev F.GPIO_SPI_CFG_CS : Fld := ⟨0x20110, 10, 1⟩
abbrev F.GPIO_SPI_CFG_LSB_FIRST : Fld := ⟨0x20110, 11, 1⟩
abbrev F.GPIO_SPI_DATA_BYTE : Fld := ⟨0x20114, 0, 8⟩
abbrev F.GPIO_SPI_DATA_HOLD_CS : Fld := ⟨0x20114, 8, 1⟩
abbrev F.GPIO_SPI_DATA_BUSY : Fld := ⟨0x20114, 9, 1⟩
abbrev F.GPIO_FAN_CFG_DUTY (f : Nat) : Fld := ⟨0x20120 + 8 * f, 0, 8⟩
abbrev F.GPIO_FAN_CFG_PERIOD (f : Nat) : Fld := ⟨0x20120 + 8 * f, 8, 16⟩
abbrev F.GPIO_FAN_TACH_US (f : Nat) : Fld := ⟨0x20124 + 8 * f, 0, 16⟩
abbrev F.GPIO_CAP_CFG_EDGE : Fld := ⟨0x20130, 0, 2⟩
abbrev F.GPIO_CAP_CFG_VALID : Fld := ⟨0x20130, 2, 1⟩
abbrev F.GPIO_CAP_CFG_OVERRUN : Fld := ⟨0x20130, 3, 1⟩
abbrev F.GPIO_CAP_LO_TICK_LO : Fld := ⟨0x20134, 0, 32⟩
abbrev F.GPIO_CAP_HI_TICK_HI : Fld := ⟨0x20138, 0, 16⟩
abbrev F.PWR_CTRL_AUTO : Fld := ⟨0x30000, 0, 1⟩
abbrev F.PWR_CTRL_MAX_STATE : Fld := ⟨0x30000, 1, 3⟩
abbrev F.PWR_CTRL_RELOAD : Fld := ⟨0x30000, 4, 1⟩
abbrev F.PWR_CTRL_SHUT_BIST : Fld := ⟨0x30000, 5, 1⟩
abbrev F.PWR_CMD_STATE : Fld := ⟨0x30004, 0, 3⟩
abbrev F.PWR_CMD_GO : Fld := ⟨0x30004, 3, 1⟩
abbrev F.PWR_CMD_WAKE : Fld := ⟨0x30004, 4, 1⟩
abbrev F.PWR_CMD_SHUTDOWN : Fld := ⟨0x30004, 5, 1⟩
abbrev F.PWR_STATUS_STATE : Fld := ⟨0x30008, 0, 3⟩
abbrev F.PWR_STATUS_ENTERING : Fld := ⟨0x30008, 3, 1⟩
abbrev F.PWR_STATUS_THR_TEMP : Fld := ⟨0x30008, 4, 1⟩
abbrev F.PWR_STATUS_THR_CAP : Fld := ⟨0x30008, 5, 1⟩
abbrev F.PWR_STATUS_CAPPED : Fld := ⟨0x30008, 6, 1⟩
abbrev F.PWR_STATUS_TRIP_HOLD : Fld := ⟨0x30008, 7, 1⟩
abbrev F.PWR_STATUS_BIST_SKIPPED : Fld := ⟨0x30008, 8, 1⟩
abbrev F.PWR_STATUS_WAKE_SRC : Fld := ⟨0x30008, 9, 3⟩
abbrev F.PWR_STATUS_WAKE_EVT : Fld := ⟨0x30008, 12, 1⟩
abbrev F.PWR_STATUS_AGE_ALERT : Fld := ⟨0x30008, 13, 1⟩
abbrev F.PWR_TOL_US : Fld := ⟨0x3000c, 0, 32⟩
abbrev F.PWR_CAP_DW : Fld := ⟨0x30010, 0, 16⟩
abbrev F.PWR_POWER_NOW : Fld := ⟨0x30014, 0, 16⟩
abbrev F.PWR_POWER_PEAK : Fld := ⟨0x30014, 16, 16⟩
abbrev F.PWR_IDLE_US : Fld := ⟨0x30018, 0, 32⟩
abbrev F.PWR_COUNTS_ENTRIES : Fld := ⟨0x3001c, 0, 16⟩
abbrev F.PWR_COUNTS_ABORTED : Fld := ⟨0x3001c, 16, 16⟩
abbrev F.PWR_HOURS_HOURS : Fld := ⟨0x30020, 0, 32⟩
abbrev F.PWR_AVS_CFG_MHZ : Fld := ⟨0x30024, 0, 5⟩
abbrev F.PWR_AVS_CFG_RATE : Fld := ⟨0x30024, 8, 8⟩
abbrev F.PWR_QCTRL_OP (q : Nat) : Fld := ⟨0x30040 + 4 * q, 0, 3⟩
abbrev F.PWR_QCTRL_GO (q : Nat) : Fld := ⟨0x30040 + 4 * q, 3, 1⟩
abbrev F.PWR_QSTAT_VQ (q : Nat) : Fld := ⟨0x30050 + 4 * q, 0, 10⟩
abbrev F.PWR_QSTAT_STATE (q : Nat) : Fld := ⟨0x30050 + 4 * q, 10, 3⟩
abbrev F.PWR_QSTAT_REFUSED (q : Nat) : Fld := ⟨0x30050 + 4 * q, 13, 1⟩
abbrev F.PWR_QSTAT_VQ_FAULT (q : Nat) : Fld := ⟨0x30050 + 4 * q, 14, 1⟩
abbrev F.PWR_QPOWER_DW (q : Nat) : Fld := ⟨0x30060 + 4 * q, 0, 16⟩
abbrev F.PWR_AGE_SLOW (q : Nat) : Fld := ⟨0x30070 + 4 * q, 0, 10⟩
abbrev F.PWR_AGE_WARN (q : Nat) : Fld := ⟨0x30070 + 4 * q, 10, 1⟩
abbrev F.PWR_AGE_LIMIT (q : Nat) : Fld := ⟨0x30070 + 4 * q, 11, 1⟩
abbrev F.THM_CTRL_THROTTLE : Fld := ⟨0x30800, 0, 8⟩
abbrev F.THM_CTRL_HYST : Fld := ⟨0x30800, 8, 4⟩
abbrev F.THM_STATUS_TRIP : Fld := ⟨0x30804, 0, 1⟩
abbrev F.THM_STATUS_THERM : Fld := ⟨0x30804, 1, 1⟩
abbrev F.THM_STATUS_THROTTLING : Fld := ⟨0x30804, 2, 1⟩
abbrev F.THM_STATUS_LAST_SHUTDOWN : Fld := ⟨0x30804, 3, 1⟩
abbrev F.THM_TEMP_MAX_TEMP : Fld := ⟨0x30808, 0, 8⟩
abbrev F.THM_TEMP_MAX_SRC : Fld := ⟨0x30808, 8, 7⟩
abbrev F.THM_SENSOR_TEMP (s : Nat) : Fld := ⟨0x30840 + 4 * s, 0, 8⟩
abbrev F.FLT_CTRL_AUTO_TEST : Fld := ⟨0x40000, 0, 1⟩
abbrev F.FLT_CTRL_GATE_ISO : Fld := ⟨0x40000, 1, 1⟩
abbrev F.FLT_CTRL_ISB_EN : Fld := ⟨0x40000, 2, 1⟩
abbrev F.FLT_STATUS_LASTING : Fld := ⟨0x40004, 0, 1⟩
abbrev F.FLT_STATUS_ISO : Fld := ⟨0x40004, 1, 1⟩
abbrev F.FLT_STATUS_BIST_FAIL : Fld := ⟨0x40004, 2, 1⟩
abbrev F.FLT_STATUS_REPAIR_FULL : Fld := ⟨0x40004, 3, 1⟩
abbrev F.FLT_STATUS_TRACK_OVF : Fld := ⟨0x40004, 4, 1⟩
abbrev F.FLT_STATUS_KEY_LOST : Fld := ⟨0x40004, 5, 1⟩
abbrev F.FLT_STATUS_HUB_FAIL : Fld := ⟨0x40004, 6, 1⟩
abbrev F.FLT_STATUS_SKIP_HELD : Fld := ⟨0x40004, 7, 1⟩
abbrev F.FLT_ISO_LAST_QUAD : Fld := ⟨0x40008, 0, 2⟩
abbrev F.FLT_ISO_LAST_RGN : Fld := ⟨0x40008, 2, 4⟩
abbrev F.FLT_ISO_LAST_CAUSE : Fld := ⟨0x40008, 6, 3⟩
abbrev F.FLT_ISO_LAST_SUB : Fld := ⟨0x40008, 9, 4⟩
abbrev F.FLT_ISB_INTERVAL : Fld := ⟨0x4000c, 0, 8⟩
abbrev F.FLT_ISB_MAX_PAR : Fld := ⟨0x4000c, 8, 4⟩
abbrev F.FLT_ISB_HEADROOM : Fld := ⟨0x4000c, 16, 8⟩
abbrev F.FLT_BIST_CMD_QUAD : Fld := ⟨0x40010, 0, 2⟩
abbrev F.FLT_BIST_CMD_RGN : Fld := ⟨0x40010, 2, 4⟩
abbrev F.FLT_BIST_CMD_GO : Fld := ⟨0x40010, 6, 1⟩
abbrev F.FLT_BIST_CMD_ABORT : Fld := ⟨0x40010, 7, 1⟩
abbrev F.FLT_BIST_STAT_STATE : Fld := ⟨0x40014, 0, 3⟩
abbrev F.FLT_BIST_STAT_OCCASION : Fld := ⟨0x40014, 3, 2⟩
abbrev F.FLT_BIST_STAT_FAILS : Fld := ⟨0x40014, 16, 16⟩
abbrev F.FLT_TESTING_LO_RGN : Fld := ⟨0x40018, 0, 32⟩
abbrev F.FLT_TESTING_HI_RGN : Fld := ⟨0x4001c, 0, 32⟩
abbrev F.FLT_REPAIR_USED : Fld := ⟨0x40020, 0, 13⟩
abbrev F.FLT_REPAIR_FULL : Fld := ⟨0x40020, 13, 1⟩
abbrev F.FLT_REPAIR_SEQ : Fld := ⟨0x40020, 16, 16⟩
abbrev F.FLT_REPAIR_CMD_CLEAR : Fld := ⟨0x40024, 0, 1⟩
abbrev F.FLT_REPAIR_CMD_ARM : Fld := ⟨0x40024, 24, 8⟩
abbrev F.FLT_REPAIR_PTR_INDEX : Fld := ⟨0x40028, 0, 12⟩
abbrev F.FLT_REPAIR_LO_ENTRY : Fld := ⟨0x4002c, 0, 32⟩
abbrev F.FLT_REPAIR_HI_ENTRY : Fld := ⟨0x40030, 0, 32⟩
abbrev F.FLT_LOG_PTR_LASTING : Fld := ⟨0x40034, 0, 4⟩
abbrev F.FLT_LOG_PTR_BIST : Fld := ⟨0x40034, 8, 6⟩
abbrev F.FLT_LASTING_LOG_SOURCE (i : Nat) : Fld := ⟨0x40100 + 16 * i, 0, 5⟩
abbrev F.FLT_LASTING_LOG_LOC (i : Nat) : Fld := ⟨0x40100 + 16 * i, 5, 3⟩
abbrev F.FLT_LASTING_LOG_KEY (i : Nat) : Fld := ⟨0x40104 + 16 * i, 0, 32⟩
abbrev F.FLT_LASTING_LOG_TIME (i : Nat) : Fld := ⟨0x40108 + 16 * i, 0, 32⟩
abbrev F.FLT_CLASS_N (s : Nat) : Fld := ⟨0x40200 + 4 * s, 0, 8⟩
abbrev F.FLT_CLASS_W (s : Nat) : Fld := ⟨0x40200 + 4 * s, 8, 16⟩
abbrev F.FLT_CNT_EVENTS (s l : Nat) : Fld := ⟨0x41000 + 32 * s + 4 * l, 0, 16⟩
abbrev F.FLT_CNT_LASTING (s l : Nat) : Fld := ⟨0x41000 + 32 * s + 4 * l, 16, 8⟩
abbrev F.TNT_CTRL_KEEP : Fld := ⟨0x48000, 0, 1⟩
abbrev F.TNT_CTRL_WIN_SEL : Fld := ⟨0x48000, 1, 2⟩
abbrev F.TNT_CTRL_CLEAR : Fld := ⟨0x48000, 4, 4⟩
abbrev F.TNT_PTR_NEWEST (q : Nat) : Fld := ⟨0x48010 + 16 * q, 0, 10⟩
abbrev F.TNT_PTR_WRAPPED (q : Nat) : Fld := ⟨0x48010 + 16 * q, 10, 1⟩
abbrev F.TNT_COUNT_ENTRIES (q : Nat) : Fld := ⟨0x48014 + 16 * q, 0, 32⟩
abbrev F.TNT_LOST_LOST (q : Nat) : Fld := ⟨0x48018 + 16 * q, 0, 16⟩
abbrev F.MER_CTRL_SRC : Fld := ⟨0x50000, 0, 2⟩
abbrev F.MER_CTRL_RELAY_PORT : Fld := ⟨0x50000, 2, 3⟩
abbrev F.MER_CTRL_ALT_PORT : Fld := ⟨0x50000, 5, 3⟩
abbrev F.MER_CTRL_ALT_EN : Fld := ⟨0x50000, 8, 1⟩
abbrev F.MER_CTRL_REALIGN_SLEW : Fld := ⟨0x50000, 9, 1⟩
abbrev F.MER_CTRL_LOSS_PERIODS : Fld := ⟨0x50000, 10, 4⟩
abbrev F.MER_CTRL_RELAY_EN : Fld := ⟨0x50000, 16, 6⟩
abbrev F.MER_STATUS_STATE : Fld := ⟨0x50004, 0, 3⟩
abbrev F.MER_STATUS_SRC_PORT : Fld := ⟨0x50004, 3, 3⟩
abbrev F.MER_STATUS_UPSTREAM_RECKONING : Fld := ⟨0x50004, 6, 1⟩
abbrev F.MER_STATUS_LOSS : Fld := ⟨0x50004, 8, 1⟩
abbrev F.MER_STATUS_REALIGNED : Fld := ⟨0x50004, 9, 1⟩
abbrev F.MER_STATUS_MARK_ERR : Fld := ⟨0x50004, 10, 1⟩
abbrev F.MER_STATUS_RELAY_SWITCH : Fld := ⟨0x50004, 11, 1⟩
abbrev F.MER_STATUS_BUDGET_OVER : Fld := ⟨0x50004, 12, 4⟩
abbrev F.MER_TICK_LO_COUNT_LO : Fld := ⟨0x50008, 0, 32⟩
abbrev F.MER_TICK_HI_COUNT_HI : Fld := ⟨0x5000c, 0, 16⟩
abbrev F.MER_PERIOD_PERIOD : Fld := ⟨0x50010, 0, 32⟩
abbrev F.MER_INT_PERIOD_PERIOD : Fld := ⟨0x50014, 0, 32⟩
abbrev F.MER_REALIGN_DELTA : Fld := ⟨0x50018, 0, 24⟩
abbrev F.MER_REALIGN_COUNT : Fld := ⟨0x50018, 24, 8⟩
abbrev F.MER_EVENTS_LOSSES : Fld := ⟨0x5001c, 0, 16⟩
abbrev F.MER_EVENTS_MARK_ERRS : Fld := ⟨0x5001c, 16, 16⟩
abbrev F.MER_RECKON_TIME_TIME : Fld := ⟨0x50020, 0, 32⟩
abbrev F.MER_SLIP_BUDGET_BUDGET : Fld := ⟨0x50024, 0, 20⟩
abbrev F.MER_LOOP_STATE (q : Nat) : Fld := ⟨0x50040 + 4 * q, 0, 3⟩
abbrev F.MER_LOOP_QMIN (q : Nat) : Fld := ⟨0x50040 + 4 * q, 4, 12⟩
abbrev F.MER_WIN_LO (q : Nat) : Fld := ⟨0x50050 + 4 * q, 0, 10⟩
abbrev F.MER_WIN_HI (q : Nat) : Fld := ⟨0x50050 + 4 * q, 16, 10⟩
abbrev F.MER_WIN_FREEZE (q : Nat) : Fld := ⟨0x50050 + 4 * q, 30, 1⟩
abbrev F.MER_WIN_OVERRIDE (q : Nat) : Fld := ⟨0x50050 + 4 * q, 31, 1⟩
abbrev F.MER_QSLIP_SLIPS (q : Nat) : Fld := ⟨0x50060 + 4 * q, 0, 20⟩
abbrev F.MER_QSLIP_OVER (q : Nat) : Fld := ⟨0x50060 + 4 * q, 20, 12⟩
abbrev F.MER_FIX_TICKS_TICKS (j : Nat) : Fld := ⟨0x50800 + 32 * j, 0, 24⟩
abbrev F.MER_T0_LO_T0_LO (j : Nat) : Fld := ⟨0x50804 + 32 * j, 0, 32⟩
abbrev F.MER_T0_HI_T0_HI (j : Nat) : Fld := ⟨0x50808 + 32 * j, 0, 16⟩
abbrev F.MER_JOB_CTRL_HOLD (j : Nat) : Fld := ⟨0x5080c + 32 * j, 0, 1⟩
abbrev F.MER_JOB_CTRL_RESUME (j : Nat) : Fld := ⟨0x5080c + 32 * j, 1, 1⟩
abbrev F.MER_JOB_CTRL_AT (j : Nat) : Fld := ⟨0x5080c + 32 * j, 2, 1⟩
abbrev F.MER_JOB_CTRL_HELD (j : Nat) : Fld := ⟨0x5080c + 32 * j, 3, 1⟩
abbrev F.MER_JOB_CTRL_ACTIVE (j : Nat) : Fld := ⟨0x5080c + 32 * j, 4, 1⟩
abbrev F.MER_JOB_CTRL_FAILED (j : Nat) : Fld := ⟨0x5080c + 32 * j, 5, 1⟩
abbrev F.MER_JOB_CTRL_START_ERR (j : Nat) : Fld := ⟨0x5080c + 32 * j, 6, 1⟩
abbrev F.MER_JOB_CTRL_LATE_RESUME (j : Nat) : Fld := ⟨0x5080c + 32 * j, 7, 1⟩
abbrev F.MER_JOB_CTRL_HOLD_CAUSE (j : Nat) : Fld := ⟨0x5080c + 32 * j, 8, 3⟩
abbrev F.MER_JOB_CTRL_REARM (j : Nat) : Fld := ⟨0x5080c + 32 * j, 11, 1⟩
abbrev F.MER_RESUME_LO_S_LO (j : Nat) : Fld := ⟨0x50810 + 32 * j, 0, 32⟩
abbrev F.MER_RESUME_HI_S_HI (j : Nat) : Fld := ⟨0x50814 + 32 * j, 0, 16⟩
abbrev F.MER_HOLD_CYCLE_H (j : Nat) : Fld := ⟨0x50818 + 32 * j, 0, 32⟩
abbrev F.CFG_CTRL_ABORT : Fld := ⟨0x60000, 0, 1⟩
abbrev F.CFG_CTRL_DONE_SOLO : Fld := ⟨0x60000, 1, 1⟩
abbrev F.CFG_CTRL_AUTO_START : Fld := ⟨0x60000, 2, 1⟩
abbrev F.CFG_CTRL_LOAD_TIMEOUT : Fld := ⟨0x60000, 8, 8⟩
abbrev F.CFG_STATUS_STATE : Fld := ⟨0x60004, 0, 3⟩
abbrev F.CFG_STATUS_SOURCE : Fld := ⟨0x60004, 3, 2⟩
abbrev F.CFG_STATUS_DONE_PIN : Fld := ⟨0x60004, 5, 1⟩
abbrev F.CFG_STATUS_DONE_SEEN : Fld := ⟨0x60004, 6, 1⟩
abbrev F.CFG_STATUS_OPEN : Fld := ⟨0x60004, 7, 1⟩
abbrev F.CFG_STATUS_START_LATE : Fld := ⟨0x60004, 8, 1⟩
abbrev F.CFG_STATUS_START_MISSED : Fld := ⟨0x60004, 9, 1⟩
abbrev F.CFG_STATUS_GROUND_FALLBACK : Fld := ⟨0x60004, 10, 1⟩
abbrev F.CFG_STATUS_GROUND_ERR : Fld := ⟨0x60004, 11, 1⟩
abbrev F.CFG_STATUS_SLOT : Fld := ⟨0x60004, 12, 2⟩
abbrev F.CFG_STATUS_ENC : Fld := ⟨0x60004, 14, 1⟩
abbrev F.CFG_ERR_CODE : Fld := ⟨0x60008, 0, 4⟩
abbrev F.CFG_ERR_QUAD : Fld := ⟨0x60008, 4, 2⟩
abbrev F.CFG_ERR_RGN : Fld := ⟨0x60008, 6, 4⟩
abbrev F.CFG_ERR_INDEX : Fld := ⟨0x60008, 10, 10⟩
abbrev F.CFG_ERR_OFFSET_LO_OFS_LO : Fld := ⟨0x6000c, 0, 32⟩
abbrev F.CFG_ERR_OFFSET_HI_OFS_HI : Fld := ⟨0x60010, 0, 8⟩
abbrev F.CFG_POINT_LO_PT_LO : Fld := ⟨0x60014, 0, 32⟩
abbrev F.CFG_POINT_HI_PT_HI : Fld := ⟨0x60018, 0, 8⟩
abbrev F.CFG_BSID_LO_ID_LO : Fld := ⟨0x6001c, 0, 32⟩
abbrev F.CFG_BSID_HI_ID_HI : Fld := ⟨0x60020, 0, 32⟩
abbrev F.CFG_COUNTS_DUP : Fld := ⟨0x60024, 0, 16⟩
abbrev F.CFG_COUNTS_REFUSED : Fld := ⟨0x60024, 16, 16⟩
abbrev F.CFG_LOADS_OK : Fld := ⟨0x60028, 0, 16⟩
abbrev F.CFG_LOADS_FAILED : Fld := ⟨0x60028, 16, 16⟩
abbrev F.CFG_FIFO_DATA : Fld := ⟨0x6002c, 0, 32⟩
abbrev F.CFG_START_LEAD_TICKS : Fld := ⟨0x60030, 0, 24⟩
abbrev F.CFG_START_CMD_JOB : Fld := ⟨0x60034, 0, 6⟩
abbrev F.CFG_START_CMD_ALL : Fld := ⟨0x60034, 6, 1⟩
abbrev F.CFG_START_CMD_BROADCAST : Fld := ⟨0x60034, 7, 1⟩
abbrev F.CFG_START_CMD_AT : Fld := ⟨0x60034, 8, 1⟩
abbrev F.CFG_START_CMD_GO : Fld := ⟨0x60034, 9, 1⟩
abbrev F.CFG_START_TICK_LO_T_LO : Fld := ⟨0x60038, 0, 32⟩
abbrev F.CFG_START_TICK_HI_T_HI : Fld := ⟨0x6003c, 0, 16⟩
abbrev F.CFG_GROUND_CMD_SLOT : Fld := ⟨0x60040, 0, 2⟩
abbrev F.CFG_GROUND_CMD_OP : Fld := ⟨0x60040, 2, 2⟩
abbrev F.CFG_GROUND_CMD_GO : Fld := ⟨0x60040, 4, 1⟩
abbrev F.CFG_GROUND_STAT_PIN_SEL : Fld := ⟨0x60044, 0, 2⟩
abbrev F.CFG_GROUND_STAT_BUSY : Fld := ⟨0x60044, 2, 1⟩
abbrev F.CFG_GROUND_STAT_RESULT : Fld := ⟨0x60044, 8, 4⟩
abbrev F.CFG_GSLOT_VALID (n : Nat) : Fld := ⟨0x60048 + 4 * n, 0, 1⟩
abbrev F.CFG_GSLOT_COPY (n : Nat) : Fld := ⟨0x60048 + 4 * n, 1, 1⟩
abbrev F.CFG_GSLOT_OTHER_VALID (n : Nat) : Fld := ⟨0x60048 + 4 * n, 2, 1⟩
abbrev F.CFG_GSLOT_WRAPPED (n : Nat) : Fld := ⟨0x60048 + 4 * n, 3, 1⟩
abbrev F.CFG_GSLOT_SEQ (n : Nat) : Fld := ⟨0x60048 + 4 * n, 4, 12⟩
abbrev F.CFG_GSLOT_AGE (n : Nat) : Fld := ⟨0x60048 + 4 * n, 16, 10⟩
abbrev F.CFG_PKEY_CMD_SLOT : Fld := ⟨0x60060, 0, 3⟩
abbrev F.CFG_PKEY_CMD_OP : Fld := ⟨0x60060, 4, 2⟩
abbrev F.CFG_PKEY_CMD_GO : Fld := ⟨0x60060, 8, 1⟩
abbrev F.CFG_PKEY_STAT_LOADED : Fld := ⟨0x60064, 0, 8⟩
abbrev F.CFG_PKEY_STAT_UNWRAP_FAIL : Fld := ⟨0x60064, 8, 1⟩
abbrev F.CFG_PKEY_STAT_BUSY : Fld := ⟨0x60064, 9, 1⟩
abbrev F.CFG_PKEY_ID_KEY_ID (n : Nat) : Fld := ⟨0x60068 + 4 * n, 0, 32⟩
abbrev F.CFG_PKEY_WRAP_WRAP (i : Nat) : Fld := ⟨0x600a0 + 4 * i, 0, 32⟩
abbrev F.CFG_SKEY_PROGRAMMED : Fld := ⟨0x600d0, 0, 4⟩
abbrev F.CFG_SKEY_REVOKED : Fld := ⟨0x600d0, 4, 4⟩
abbrev F.CFG_SKEY_LAST : Fld := ⟨0x600d0, 8, 2⟩
abbrev F.CFG_SKEY_CMD_SLOT : Fld := ⟨0x600d4, 0, 2⟩
abbrev F.CFG_SKEY_CMD_OP : Fld := ⟨0x600d4, 2, 2⟩
abbrev F.CFG_SKEY_CMD_GO : Fld := ⟨0x600d4, 8, 1⟩
abbrev F.CFG_SKEY_CMD_ARM : Fld := ⟨0x600d4, 24, 8⟩
abbrev F.CFG_SKEY_HASH_HASH (i : Nat) : Fld := ⟨0x600e0 + 4 * i, 0, 32⟩
abbrev F.RTC_CTRL_SRC_EN : Fld := ⟨0x61000, 0, 3⟩
abbrev F.RTC_CTRL_SCLAMP : Fld := ⟨0x61000, 3, 2⟩
abbrev F.RTC_CTRL_ABORT : Fld := ⟨0x61000, 5, 1⟩
abbrev F.RTC_CTRL_HOLD_WAIT : Fld := ⟨0x61000, 8, 8⟩
abbrev F.RTC_CTRL_TIMEOUT : Fld := ⟨0x61000, 16, 8⟩
abbrev F.RTC_STATUS_STATE : Fld := ⟨0x61004, 0, 3⟩
abbrev F.RTC_STATUS_SOURCE : Fld := ⟨0x61004, 3, 3⟩
abbrev F.RTC_STATUS_ENC_SEEN : Fld := ⟨0x61004, 6, 1⟩
abbrev F.RTC_STATUS_CLAMPED : Fld := ⟨0x61004, 7, 1⟩
abbrev F.RTC_STATUS_PID : Fld := ⟨0x61004, 8, 8⟩
abbrev F.RTC_RESULT_CODE : Fld := ⟨0x61008, 0, 5⟩
abbrev F.RTC_RESULT_QUAD : Fld := ⟨0x61008, 5, 2⟩
abbrev F.RTC_RESULT_RGN : Fld := ⟨0x61008, 7, 4⟩
abbrev F.RTC_RESULT_INDEX : Fld := ⟨0x61008, 11, 10⟩
abbrev F.RTC_POINT_POINT : Fld := ⟨0x6100c, 0, 23⟩
abbrev F.RTC_COUNTS_APPLIED : Fld := ⟨0x61010, 0, 16⟩
abbrev F.RTC_COUNTS_REJECTED : Fld := ⟨0x61010, 16, 16⟩
abbrev F.RTC_FLUSH_TOKENS : Fld := ⟨0x61014, 0, 16⟩
abbrev F.RTC_CEN_LO_EN : Fld := ⟨0x61018, 0, 32⟩
abbrev F.RTC_CEN_HI_EN : Fld := ⟨0x6101c, 0, 32⟩
abbrev F.RTC_DIRTY_LO_DIRTY : Fld := ⟨0x61020, 0, 32⟩
abbrev F.RTC_DIRTY_HI_DIRTY : Fld := ⟨0x61024, 0, 32⟩
abbrev F.RTC_RB_CMD_KIND : Fld := ⟨0x61030, 0, 2⟩
abbrev F.RTC_RB_CMD_QUAD : Fld := ⟨0x61030, 2, 2⟩
abbrev F.RTC_RB_CMD_RGN : Fld := ⟨0x61030, 4, 4⟩
abbrev F.RTC_RB_CMD_GO : Fld := ⟨0x61030, 8, 1⟩
abbrev F.RTC_RB_STATUS_BUSY : Fld := ⟨0x61034, 0, 1⟩
abbrev F.RTC_RB_STATUS_WAITING_FIX : Fld := ⟨0x61034, 1, 1⟩
abbrev F.RTC_RB_STATUS_READY : Fld := ⟨0x61034, 2, 1⟩
abbrev F.RTC_RB_STATUS_REFUSED : Fld := ⟨0x61034, 3, 1⟩
abbrev F.RTC_RB_CYCLE_LO_C_LO : Fld := ⟨0x61038, 0, 32⟩
abbrev F.RTC_RB_CYCLE_HI_C_HI : Fld := ⟨0x6103c, 0, 16⟩
abbrev F.RTC_RB_PTR_WORD : Fld := ⟨0x61040, 0, 16⟩
abbrev F.RTC_RB_WORD_DATA : Fld := ⟨0x61044, 0, 32⟩
abbrev F.SCR_CTRL_CNV_EN : Fld := ⟨0x62000, 0, 1⟩
abbrev F.SCR_CTRL_MEM_EN : Fld := ⟨0x62000, 1, 1⟩
abbrev F.SCR_CTRL_REMAP_EN : Fld := ⟨0x62000, 2, 1⟩
abbrev F.SCR_CTRL_LASTING_N : Fld := ⟨0x62000, 8, 8⟩
abbrev F.SCR_WINDOW_W : Fld := ⟨0x62004, 0, 16⟩
abbrev F.SCR_PACE_CNV_GAP : Fld := ⟨0x62008, 0, 16⟩
abbrev F.SCR_PACE_MEM_GAP : Fld := ⟨0x62008, 16, 16⟩
abbrev F.SCR_STATUS_PAUSED : Fld := ⟨0x6200c, 0, 1⟩
abbrev F.SCR_STATUS_SPARES_OUT : Fld := ⟨0x6200c, 1, 1⟩
abbrev F.SCR_STATUS_TRACK_OVF : Fld := ⟨0x6200c, 2, 1⟩
abbrev F.SCR_STATUS_TMR_EVENT : Fld := ⟨0x6200c, 3, 1⟩
abbrev F.SCR_CE_CNV_CE : Fld := ⟨0x62010, 0, 16⟩
abbrev F.SCR_CE_CNV_UE : Fld := ⟨0x62010, 16, 16⟩
abbrev F.SCR_MARKS_LASTING : Fld := ⟨0x62014, 0, 16⟩
abbrev F.SCR_MARKS_REMAPPED : Fld := ⟨0x62014, 16, 16⟩
abbrev F.SCR_TMR_VOTES : Fld := ⟨0x62018, 0, 16⟩
abbrev F.SCR_PASS_CNV_PASSES : Fld := ⟨0x6201c, 0, 16⟩
abbrev F.SCR_PASS_MEM_PASSES : Fld := ⟨0x6201c, 16, 16⟩
abbrev F.SCR_LAST_QUAD : Fld := ⟨0x62020, 0, 2⟩
abbrev F.SCR_LAST_RGN : Fld := ⟨0x62020, 2, 4⟩
abbrev F.SCR_LAST_CELL : Fld := ⟨0x62020, 6, 10⟩
abbrev F.SCR_LAST_UE : Fld := ⟨0x62020, 16, 1⟩
abbrev F.SCR_LAST_REMAPPED : Fld := ⟨0x62020, 17, 1⟩
abbrev F.SCR_SPARES_USED (r : Nat) : Fld := ⟨0x62100 + 4 * r, 0, 5⟩
abbrev F.LNK_CTRL_EN (p : Nat) : Fld := ⟨0x70000 + 4096 * p, 0, 1⟩
abbrev F.LNK_CTRL_RETRAIN (p : Nat) : Fld := ⟨0x70000 + 4096 * p, 1, 1⟩
abbrev F.LNK_CTRL_PRECODE_ALLOW (p : Nat) : Fld := ⟨0x70000 + 4096 * p, 2, 1⟩
abbrev F.LNK_CTRL_REPLAY_LIMIT (p : Nat) : Fld := ⟨0x70000 + 4096 * p, 8, 8⟩
abbrev F.LNK_STATUS_STATE (p : Nat) : Fld := ⟨0x70004 + 4096 * p, 0, 3⟩
abbrev F.LNK_STATUS_STRAY (p : Nat) : Fld := ⟨0x70004 + 4096 * p, 3, 1⟩
abbrev F.LNK_STATUS_TX_NARROW (p : Nat) : Fld := ⟨0x70004 + 4096 * p, 4, 1⟩
abbrev F.LNK_STATUS_RX_NARROW (p : Nat) : Fld := ⟨0x70004 + 4096 * p, 5, 1⟩
abbrev F.LNK_STATUS_PRECODE (p : Nat) : Fld := ⟨0x70004 + 4096 * p, 6, 1⟩
abbrev F.LNK_STATUS_PLAN_CLIPPED (p : Nat) : Fld := ⟨0x70004 + 4096 * p, 7, 1⟩
abbrev F.LNK_STATUS_SPARE_EVT (p : Nat) : Fld := ⟨0x70004 + 4096 * p, 8, 1⟩
abbrev F.LNK_STATUS_NARROW_EVT (p : Nat) : Fld := ⟨0x70004 + 4096 * p, 9, 1⟩
abbrev F.LNK_STATUS_DOWN_EVT (p : Nat) : Fld := ⟨0x70004 + 4096 * p, 10, 1⟩
abbrev F.LNK_CFG_INJ_TIMEOUT (p : Nat) : Fld := ⟨0x70008 + 4096 * p, 0, 16⟩
abbrev F.LNK_CFG_REPLAY_TIMEOUT (p : Nat) : Fld := ⟨0x70008 + 4096 * p, 16, 16⟩
abbrev F.LNK_LANE_CFG_SER_LIMIT (p : Nat) : Fld := ⟨0x7000c + 4096 * p, 0, 16⟩
abbrev F.LNK_TICK_CFG_INTERVAL (p : Nat) : Fld := ⟨0x70010 + 4096 * p, 0, 16⟩
abbrev F.LNK_TICK_CFG_MISS_N (p : Nat) : Fld := ⟨0x70010 + 4096 * p, 16, 4⟩
abbrev F.LNK_DELAY_ONEWAY (p : Nat) : Fld := ⟨0x70014 + 4096 * p, 0, 24⟩
abbrev F.LNK_FEC_CORR_SYM (p : Nat) : Fld := ⟨0x70018 + 4096 * p, 0, 32⟩
abbrev F.LNK_FEC_UE_UNCORR_CW (p : Nat) : Fld := ⟨0x7001c + 4096 * p, 0, 16⟩
abbrev F.LNK_FEC_UE_CRC_FAIL (p : Nat) : Fld := ⟨0x7001c + 4096 * p, 16, 16⟩
abbrev F.LNK_REPLAY_NAK_SENT (p : Nat) : Fld := ⟨0x70020 + 4096 * p, 0, 16⟩
abbrev F.LNK_REPLAY_REPLAYS (p : Nat) : Fld := ⟨0x70020 + 4096 * p, 16, 16⟩
abbrev F.LNK_REPLAY_TO_TIMEOUTS (p : Nat) : Fld := ⟨0x70024 + 4096 * p, 0, 16⟩
abbrev F.LNK_REPLAY_TO_RETRAINS (p : Nat) : Fld := ⟨0x70024 + 4096 * p, 16, 16⟩
abbrev F.LNK_TX_WAIT_NS (p : Nat) : Fld := ⟨0x70028 + 4096 * p, 0, 32⟩
abbrev F.LNK_SCHED_WAIT_NS (p : Nat) : Fld := ⟨0x7002c + 4096 * p, 0, 32⟩
abbrev F.LNK_SCHED_ERR_UNMAPPED (p : Nat) : Fld := ⟨0x70030 + 4096 * p, 0, 16⟩
abbrev F.LNK_SCHED_ERR_POISON (p : Nat) : Fld := ⟨0x70030 + 4096 * p, 16, 16⟩
abbrev F.LNK_PKT_INJ_BUSY (p : Nat) : Fld := ⟨0x70034 + 4096 * p, 0, 16⟩
abbrev F.LNK_TICK_STAT_RX_FRAMES (p : Nat) : Fld := ⟨0x70038 + 4096 * p, 0, 16⟩
abbrev F.LNK_TICK_STAT_MISSES (p : Nat) : Fld := ⟨0x70038 + 4096 * p, 16, 16⟩
abbrev F.LNK_LANE_EVENTS_SPARINGS (p : Nat) : Fld := ⟨0x7003c + 4096 * p, 0, 8⟩
abbrev F.LNK_LANE_EVENTS_NARROWINGS (p : Nat) : Fld := ⟨0x7003c + 4096 * p, 8, 8⟩
abbrev F.LNK_LANE_EVENTS_TRAINS (p : Nat) : Fld := ⟨0x7003c + 4096 * p, 16, 8⟩
abbrev F.LNK_LANE_CORR_SYM (p l : Nat) : Fld := ⟨0x70080 + 4096 * p + 4 * l, 0, 16⟩
abbrev F.LNK_LANE_OK (p l : Nat) : Fld := ⟨0x70080 + 4096 * p + 4 * l, 16, 1⟩
abbrev F.LNK_LANE_ROLE (p l : Nat) : Fld := ⟨0x70080 + 4096 * p + 4 * l, 17, 4⟩
abbrev F.LNK_LANE_INVERTED (p l : Nat) : Fld := ⟨0x70080 + 4096 * p + 4 * l, 21, 1⟩
abbrev F.LNK_PLAN_LO_MASK (p : Nat) : Fld := ⟨0x70400 + 4096 * p, 0, 32⟩
abbrev F.LNK_PLAN_HI_MASK (p : Nat) : Fld := ⟨0x70404 + 4096 * p, 0, 32⟩
abbrev F.LNK_PLAN_SH_LO_MASK (p : Nat) : Fld := ⟨0x70408 + 4096 * p, 0, 32⟩
abbrev F.LNK_PLAN_SH_HI_MASK (p : Nat) : Fld := ⟨0x7040c + 4096 * p, 0, 32⟩
abbrev F.LNK_MAP_PTR_INDEX (p : Nat) : Fld := ⟨0x70410 + 4096 * p, 0, 12⟩
abbrev F.LNK_MAP_DATA_ENTRY (p : Nat) : Fld := ⟨0x70414 + 4096 * p, 0, 32⟩
abbrev F.LNK_MAP_SHADOW_ENTRY (p : Nat) : Fld := ⟨0x70418 + 4096 * p, 0, 32⟩
abbrev F.LNK_SLOT_CMD_SWAP (p : Nat) : Fld := ⟨0x7041c + 4096 * p, 0, 1⟩
abbrev F.LNK_SLOT_CMD_COPY (p : Nat) : Fld := ⟨0x7041c + 4096 * p, 1, 1⟩
abbrev F.LNK_SLOT_STAT_BUSY (p : Nat) : Fld := ⟨0x70420 + 4096 * p, 0, 1⟩
abbrev F.LNK_SLOT_STAT_REFUSED (p : Nat) : Fld := ⟨0x70420 + 4096 * p, 1, 1⟩
abbrev F.FAB_CTRL_NOMINATE : Fld := ⟨0x80000, 0, 1⟩
abbrev F.FAB_CTRL_SWEEP : Fld := ⟨0x80000, 1, 1⟩
abbrev F.FAB_CTRL_FABRIC_RESET : Fld := ⟨0x80000, 2, 1⟩
abbrev F.FAB_CTRL_LEAF_CTRL_EN : Fld := ⟨0x80000, 3, 1⟩
abbrev F.FAB_CTRL_AUTO_MER : Fld := ⟨0x80000, 4, 1⟩
abbrev F.FAB_CTRL_DISC_INTERVAL : Fld := ⟨0x80000, 8, 8⟩
abbrev F.FAB_CTRL_SETTLE : Fld := ⟨0x80000, 16, 16⟩
abbrev F.FAB_STATUS_SWEEP : Fld := ⟨0x80004, 0, 2⟩
abbrev F.FAB_STATUS_LODESTAR : Fld := ⟨0x80004, 2, 1⟩
abbrev F.FAB_STATUS_STRAP : Fld := ⟨0x80004, 3, 1⟩
abbrev F.FAB_STATUS_COORD_VALID : Fld := ⟨0x80004, 4, 1⟩
abbrev F.FAB_STATUS_MULTI_LODE : Fld := ⟨0x80004, 5, 1⟩
abbrev F.FAB_STATUS_CONFLICT : Fld := ⟨0x80004, 6, 1⟩
abbrev F.FAB_STATUS_MISWIRE : Fld := ⟨0x80004, 7, 1⟩
abbrev F.FAB_STATUS_LEAF_REFUSED : Fld := ⟨0x80004, 8, 1⟩
abbrev F.FAB_STATUS_RESET_IGNORED : Fld := ⟨0x80004, 9, 1⟩
abbrev F.FAB_ID_EPOCH : Fld := ⟨0x80008, 0, 8⟩
abbrev F.FAB_ID_COORD : Fld := ⟨0x80008, 8, 12⟩
abbrev F.FAB_SIZE_SIZE : Fld := ⟨0x8000c, 0, 12⟩
abbrev F.FAB_SIZE_WRAP : Fld := ⟨0x8000c, 12, 3⟩
abbrev F.FAB_UID_LO_UID : Fld := ⟨0x80010, 0, 32⟩
abbrev F.FAB_UID_HI_UID : Fld := ⟨0x80014, 0, 32⟩
abbrev F.FAB_LUID_LO_UID : Fld := ⟨0x80018, 0, 32⟩
abbrev F.FAB_LUID_HI_UID : Fld := ⟨0x8001c, 0, 32⟩
abbrev F.FAB_ROUTE_STAT_NO_PATH : Fld := ⟨0x80020, 0, 16⟩
abbrev F.FAB_ROUTE_STAT_DETOURS : Fld := ⟨0x80020, 16, 16⟩
abbrev F.FAB_DROP_STRAY_DROP : Fld := ⟨0x80024, 0, 16⟩
abbrev F.FAB_DROP_BCAST_DROP : Fld := ⟨0x80024, 16, 16⟩
abbrev F.FAB_BCAST_RELAYED : Fld := ⟨0x80028, 0, 16⟩
abbrev F.FAB_BCAST_DUPS : Fld := ⟨0x80028, 16, 16⟩
abbrev F.FAB_DISC_CNT_RX : Fld := ⟨0x8002c, 0, 16⟩
abbrev F.FAB_DISC_CNT_BAD : Fld := ⟨0x8002c, 16, 16⟩
abbrev F.FAB_RING_DOWN_DOWN (d : Nat) : Fld := ⟨0x80040 + 4 * d, 0, 16⟩
abbrev F.FAB_NBR_ROLE (p : Nat) : Fld := ⟨0x80100 + 32 * p, 0, 3⟩
abbrev F.FAB_NBR_PEER_PORT (p : Nat) : Fld := ⟨0x80100 + 32 * p, 3, 3⟩
abbrev F.FAB_NBR_PEER_TYPE (p : Nat) : Fld := ⟨0x80100 + 32 * p, 6, 3⟩
abbrev F.FAB_NBR_PEER_COORD (p : Nat) : Fld := ⟨0x80100 + 32 * p, 9, 12⟩
abbrev F.FAB_NBR_PEER_CV (p : Nat) : Fld := ⟨0x80100 + 32 * p, 21, 1⟩
abbrev F.FAB_NBR_PEER_EPOCH (p : Nat) : Fld := ⟨0x80100 + 32 * p, 22, 8⟩
abbrev F.FAB_NBR_PEER_UID_LO (p : Nat) : Fld := ⟨0x80104 + 32 * p, 0, 32⟩
abbrev F.FAB_NBR_PEER_UID_HI (p : Nat) : Fld := ⟨0x80108 + 32 * p, 0, 32⟩
abbrev F.FAB_NBR_LEAF_COORD (p : Nat) : Fld := ⟨0x8010c + 32 * p, 0, 12⟩
abbrev F.FAB_NBR_LEAF_VALID (p : Nat) : Fld := ⟨0x8010c + 32 * p, 12, 1⟩
abbrev F.SEM_TAKE_GOT (n : Nat) : Fld := ⟨0x90000 + 16 * n, 0, 1⟩
abbrev F.SEM_TAKE_BROKEN (n : Nat) : Fld := ⟨0x90000 + 16 * n, 1, 1⟩
abbrev F.SEM_TAKE_ORDER (n : Nat) : Fld := ⟨0x90000 + 16 * n, 2, 1⟩
abbrev F.SEM_RELEASE_GO (n : Nat) : Fld := ⟨0x90004 + 16 * n, 0, 1⟩
abbrev F.SEM_HOLDER_NODE (n : Nat) : Fld := ⟨0x90008 + 16 * n, 0, 24⟩
abbrev F.SEM_HOLDER_KIND (n : Nat) : Fld := ⟨0x90008 + 16 * n, 24, 3⟩
abbrev F.SEM_HOLDER_FROZEN (n : Nat) : Fld := ⟨0x90008 + 16 * n, 27, 1⟩
abbrev F.SEM_HOLD_TIME_US (n : Nat) : Fld := ⟨0x9000c + 16 * n, 0, 32⟩
abbrev F.SEM_CTRL_HOLD_LIMIT : Fld := ⟨0x90200, 0, 16⟩
abbrev F.SEM_CTRL_ALERT_EN : Fld := ⟨0x90200, 16, 1⟩
abbrev F.SEM_STATUS_BROKEN : Fld := ⟨0x90204, 0, 32⟩
abbrev F.SEM_ALERT_ALERT : Fld := ⟨0x90208, 0, 1⟩
abbrev F.SEM_COUNTS_BROKEN : Fld := ⟨0x9020c, 0, 16⟩
abbrev F.SEM_COUNTS_ORDER : Fld := ⟨0x9020c, 16, 16⟩
abbrev F.SEM_COUNTS2_FOREIGN : Fld := ⟨0x90210, 0, 16⟩
abbrev F.SEM_COUNTS2_CONTENDED : Fld := ⟨0x90210, 16, 16⟩
abbrev F.SEM_ALIVE_LO_RGN : Fld := ⟨0x90214, 0, 32⟩
abbrev F.SEM_ALIVE_HI_RGN : Fld := ⟨0x90218, 0, 32⟩
abbrev F.SEM_ALIVE_Q_QUAD : Fld := ⟨0x9021c, 0, 4⟩
abbrev F.SEM_BUSWD_LIMIT : Fld := ⟨0x90220, 0, 16⟩
abbrev F.SEM_BUSWD_TIMEOUT : Fld := ⟨0x90220, 16, 1⟩
abbrev F.SEM_BUSWD_ADDR_ADDR : Fld := ⟨0x90224, 0, 32⟩
abbrev F.SEM_BUSWD_CNT_COUNT : Fld := ⟨0x90228, 0, 16⟩
abbrev F.SEM_XSTAT_OVERRUN : Fld := ⟨0x9022c, 0, 16⟩
abbrev F.SEM_XSTAT_FLUSHES : Fld := ⟨0x9022c, 16, 16⟩
abbrev F.SEM_QERR_ABANDONED : Fld := ⟨0x90230, 0, 16⟩
abbrev F.SEM_ABANDON_CORE (i : Nat) : Fld := ⟨0x90240 + 4 * i, 0, 32⟩
abbrev F.DBG_ID_REV : Fld := ⟨0xa0000, 0, 12⟩
abbrev F.DBG_ID_PART : Fld := ⟨0xa0000, 12, 16⟩
abbrev F.DBG_ID_TWDV : Fld := ⟨0xa0000, 28, 4⟩
abbrev F.DBG_SESSION_ATTACH : Fld := ⟨0xa0004, 0, 1⟩
abbrev F.DBG_SESSION_IDLE_TO : Fld := ⟨0xa0004, 8, 8⟩
abbrev F.DBG_STATUS_ERR : Fld := ⟨0xa0008, 0, 3⟩
abbrev F.DBG_STATUS_BUSY : Fld := ⟨0xa0008, 3, 1⟩
abbrev F.DBG_STATUS_EMU_SLEEP : Fld := ⟨0xa0008, 4, 1⟩
abbrev F.DBG_STATUS_TESTMODE : Fld := ⟨0xa0008, 5, 1⟩
abbrev F.DBG_STATUS_CLEARED : Fld := ⟨0xa0008, 6, 1⟩
abbrev F.DBG_STATUS_TEST_LOCKED : Fld := ⟨0xa0008, 7, 1⟩
abbrev F.DBG_STATUS_HDR_ERR : Fld := ⟨0xa0008, 8, 8⟩
abbrev F.DBG_STATUS_ERR_CLR : Fld := ⟨0xa0008, 16, 1⟩
abbrev F.DBG_REQ_SPACE : Fld := ⟨0xa000c, 0, 1⟩
abbrev F.DBG_REQ_SIZE64 : Fld := ⟨0xa000c, 1, 1⟩
abbrev F.DBG_REQ_INC : Fld := ⟨0xa000c, 2, 1⟩
abbrev F.DBG_REQ_CONSUME : Fld := ⟨0xa000c, 3, 1⟩
abbrev F.DBG_REQ_QUAD : Fld := ⟨0xa000c, 4, 2⟩
abbrev F.DBG_REQ_RGN : Fld := ⟨0xa000c, 6, 4⟩
abbrev F.DBG_REQ_UNIT : Fld := ⟨0xa000c, 10, 6⟩
abbrev F.DBG_ADDR_LO_ADDR : Fld := ⟨0xa0010, 0, 32⟩
abbrev F.DBG_ADDR_HI_ADDR : Fld := ⟨0xa0014, 0, 8⟩
abbrev F.DBG_DATA_DATA : Fld := ⟨0xa0018, 0, 32⟩
abbrev F.DBG_DATA_HI_DATA : Fld := ⟨0xa001c, 0, 32⟩
abbrev F.DBG_CORE_SEL : Fld := ⟨0xa0020, 0, 8⟩
abbrev F.DBG_CORE_CTRL_HALT : Fld := ⟨0xa0024, 0, 1⟩
abbrev F.DBG_CORE_CTRL_RESUME : Fld := ⟨0xa0024, 1, 1⟩
abbrev F.DBG_CORE_CTRL_STEP : Fld := ⟨0xa0024, 2, 1⟩
abbrev F.DBG_CORE_CTRL_TRAP_HALT : Fld := ⟨0xa0024, 3, 1⟩
abbrev F.DBG_CORE_CTRL_CLAIM : Fld := ⟨0xa0024, 8, 8⟩
abbrev F.DBG_CORE_STAT_HALTED : Fld := ⟨0xa0028, 0, 1⟩
abbrev F.DBG_CORE_STAT_CAUSE : Fld := ⟨0xa0028, 1, 3⟩
abbrev F.DBG_CORE_STAT_UNIT : Fld := ⟨0xa0028, 4, 3⟩
abbrev F.DBG_CORE_STAT_FEED_BUSY : Fld := ⟨0xa0028, 7, 1⟩
abbrev F.DBG_CORE_STAT_FEED_CAUSE : Fld := ⟨0xa0028, 8, 4⟩
abbrev F.DBG_CORE_STAT_PC : Fld := ⟨0xa0028, 12, 15⟩
abbrev F.DBG_FEED_INSN : Fld := ⟨0xa002c, 0, 32⟩
abbrev F.DBG_CORE_REG_INDEX : Fld := ⟨0xa0030, 0, 8⟩
abbrev F.DBG_CORE_VAL_VALUE : Fld := ⟨0xa0034, 0, 16⟩
abbrev F.DBG_PRIV_ARM : Fld := ⟨0xa0038, 0, 8⟩
abbrev F.DBG_PRIV_MODE : Fld := ⟨0xa0038, 8, 2⟩
abbrev F.DBG_PRIV_GO : Fld := ⟨0xa0038, 10, 1⟩
abbrev F.DBG_CTRL_SLEEP_EMU : Fld := ⟨0xa003c, 0, 1⟩
abbrev F.RGN_CTRL_RESET : Fld := ⟨0, 0, 1⟩
abbrev F.RGN_CTRL_ISOLATE : Fld := ⟨0, 1, 1⟩
abbrev F.RGN_CTRL_RELEASE : Fld := ⟨0, 2, 1⟩
abbrev F.RGN_CTRL_HALTIF_EN : Fld := ⟨0, 3, 1⟩
abbrev F.RGN_CTRL_PROBE_EN : Fld := ⟨0, 4, 1⟩
abbrev F.RGN_STATUS_EPOCH : Fld := ⟨0x4, 0, 8⟩
abbrev F.RGN_STATUS_CFG : Fld := ⟨0x4, 8, 2⟩
abbrev F.RGN_STATUS_JOB : Fld := ⟨0x4, 10, 6⟩
abbrev F.RGN_STATUS_IN_JOB : Fld := ⟨0x4, 16, 1⟩
abbrev F.RGN_STATUS_RESET_BUSY : Fld := ⟨0x4, 17, 1⟩
abbrev F.RGN_STATUS_ISO_CAUSE : Fld := ⟨0x4, 18, 3⟩
abbrev F.RGN_CHECK_CODE : Fld := ⟨0x8, 0, 4⟩
abbrev F.RGN_CHECK_CLUSTER : Fld := ⟨0x8, 4, 4⟩
abbrev F.RGN_CHECK_INDEX : Fld := ⟨0x8, 8, 12⟩
abbrev F.RGN_CHECK_SHORT : Fld := ⟨0x8, 20, 1⟩
abbrev F.RGN_WDOG_LIMIT : Fld := ⟨0xc, 0, 16⟩
abbrev F.RGN_WDOG_GRANT : Fld := ⟨0xc, 16, 8⟩
abbrev F.RGN_XERR_UNMAPPED : Fld := ⟨0x10, 0, 16⟩
abbrev F.RGN_XERR_POISON : Fld := ⟨0x10, 16, 16⟩
abbrev F.RGN_XLAST_STREAM : Fld := ⟨0x14, 0, 6⟩
abbrev F.RGN_XLAST_INPUT : Fld := ⟨0x14, 6, 3⟩
abbrev F.RGN_XLAST_POISON : Fld := ⟨0x14, 9, 1⟩
abbrev F.RGN_HALT_SRC_CLUSTER : Fld := ⟨0x18, 0, 4⟩
abbrev F.RGN_HALT_SRC_STROKE : Fld := ⟨0x18, 4, 11⟩
abbrev F.RGN_HALT_SRC_HIT : Fld := ⟨0x18, 15, 1⟩
abbrev F.RGN_HALT_CYCLE_CYCLE : Fld := ⟨0x1c, 0, 32⟩
abbrev F.RGN_HALTIF_CNT_HITS : Fld := ⟨0x20, 0, 16⟩
abbrev F.RGN_SEND_WAIT_NS : Fld := ⟨0x24, 0, 32⟩
abbrev F.RGN_MEM_WAIT_NS : Fld := ⟨0x28, 0, 32⟩
abbrev F.RGN_JPOST_WAIT_NS : Fld := ⟨0x2c, 0, 32⟩
abbrev F.RGN_PROBE_WAIT_NS : Fld := ⟨0x30, 0, 32⟩
abbrev F.RGN_MCOUNT_COUNT : Fld := ⟨0x34, 0, 13⟩
abbrev F.FIX_CTRL_LOG_EVENTS : Fld := ⟨0x1000, 0, 1⟩
abbrev F.FIX_CTRL_MIN_RESTART : Fld := ⟨0x1000, 1, 1⟩
abbrev F.FIX_CTRL_EWIN : Fld := ⟨0x1000, 8, 8⟩
abbrev F.FIX_STATUS_STATE : Fld := ⟨0x1004, 0, 3⟩
abbrev F.FIX_STATUS_JOB : Fld := ⟨0x1004, 3, 6⟩
abbrev F.FIX_STATUS_HOLD_CAUSE : Fld := ⟨0x1004, 9, 3⟩
abbrev F.FIX_STATUS_RECKONING : Fld := ⟨0x1004, 12, 1⟩
abbrev F.FIX_CYCLE_LO_CYCLE_LO : Fld := ⟨0x1008, 0, 32⟩
abbrev F.FIX_CYCLE_HI_CYCLE_HI : Fld := ⟨0x100c, 0, 16⟩
abbrev F.FIX_BOUND_LO_BOUND_LO : Fld := ⟨0x1010, 0, 32⟩
abbrev F.FIX_BOUND_HI_BOUND_HI : Fld := ⟨0x1014, 0, 16⟩
abbrev F.FIX_MARGIN_LAST : Fld := ⟨0x1018, 0, 20⟩
abbrev F.FIX_MARGIN_MIN_MIN : Fld := ⟨0x101c, 0, 20⟩
abbrev F.FIX_SLIPS_SLIPS : Fld := ⟨0x1020, 0, 32⟩
abbrev F.FIX_SLIP_MAX_MAX : Fld := ⟨0x1024, 0, 24⟩
abbrev F.FIX_RECKONED_COUNT : Fld := ⟨0x1028, 0, 32⟩
abbrev F.FIX_LOG_PTR_NEWEST : Fld := ⟨0x102c, 0, 5⟩
abbrev F.FIX_LOG_COUNT_COUNT : Fld := ⟨0x1030, 0, 32⟩
abbrev F.DMEM_ARB_WAIT_LIMIT : Fld := ⟨0x2000, 0, 5⟩
abbrev F.DMEM_ARB_SCRUB_BURST : Fld := ⟨0x2000, 8, 4⟩
abbrev F.DMEM_ARB_PREEMPT_EN : Fld := ⟨0x2000, 16, 1⟩
abbrev F.DMEM_STATUS_OWNER : Fld := ⟨0x2004, 0, 3⟩
abbrev F.DMEM_STATUS_WAITING : Fld := ⟨0x2004, 3, 6⟩
abbrev F.DMEM_STATUS_REPLAY_BLOCK : Fld := ⟨0x2004, 9, 1⟩
abbrev F.DMEM_GRANT_TIME_NS : Fld := ⟨0x2008, 0, 32⟩
abbrev F.DMEM_ERR_CE : Fld := ⟨0x200c, 0, 16⟩
abbrev F.DMEM_ERR_UE : Fld := ⟨0x200c, 16, 16⟩
abbrev F.DMEM_UE_LAST_ADDR : Fld := ⟨0x2010, 0, 19⟩
abbrev F.DMEM_UE_LAST_SRC : Fld := ⟨0x2010, 19, 3⟩
abbrev F.DMEM_UE_LAST_RING : Fld := ⟨0x2010, 22, 1⟩
abbrev F.DMEM_ARB_EVENTS_FORCED : Fld := ⟨0x2014, 0, 16⟩
abbrev F.DMEM_ARB_EVENTS_PREEMPT : Fld := ⟨0x2014, 16, 16⟩
abbrev F.DMEM_AGE_MAX_ROUNDS : Fld := ⟨0x2018, 0, 5⟩
abbrev F.DMEM_REFUSED_REPLAY : Fld := ⟨0x201c, 0, 16⟩
abbrev F.DMEM_REFUSED_DENIED : Fld := ⟨0x201c, 16, 16⟩
abbrev F.DMEM_BACK_WAIT_NS (r : Nat) : Fld := ⟨0x2020 + 4 * r, 0, 32⟩
abbrev F.RWD_CTRL_SNAP_EVERY : Fld := ⟨0x3000, 0, 16⟩
abbrev F.RWD_CTRL_REC_EN : Fld := ⟨0x3000, 16, 1⟩
abbrev F.RWD_CTRL_REPLAY_TRACE : Fld := ⟨0x3000, 17, 1⟩
abbrev F.RWD_CTRL_WARN : Fld := ⟨0x3000, 18, 6⟩
abbrev F.RWD_CMD_REWIND : Fld := ⟨0x3004, 0, 1⟩
abbrev F.RWD_CMD_RELEASE : Fld := ⟨0x3004, 1, 1⟩
abbrev F.RWD_CMD_REPLAY_ARM : Fld := ⟨0x3004, 2, 1⟩
abbrev F.RWD_ARG_LO_S_LO : Fld := ⟨0x3008, 0, 32⟩
abbrev F.RWD_ARG_HI_S_HI : Fld := ⟨0x300c, 0, 16⟩
abbrev F.RWD_REPLAY_TO_LO_T_LO : Fld := ⟨0x3010, 0, 32⟩
abbrev F.RWD_REPLAY_TO_HI_T_HI : Fld := ⟨0x3014, 0, 16⟩
abbrev F.RWD_STATUS_MODE : Fld := ⟨0x3018, 0, 3⟩
abbrev F.RWD_STATUS_FULL : Fld := ⟨0x3018, 3, 1⟩
abbrev F.RWD_STATUS_LOW : Fld := ⟨0x3018, 4, 1⟩
abbrev F.RWD_STATUS_GAP : Fld := ⟨0x3018, 5, 1⟩
abbrev F.RWD_STATUS_RESTORE_TAINT : Fld := ⟨0x3018, 6, 1⟩
abbrev F.RWD_STATUS_CMD_BUSY : Fld := ⟨0x3018, 7, 1⟩
abbrev F.RWD_STATUS_CMD_ERR : Fld := ⟨0x3018, 8, 3⟩
abbrev F.RWD_STATUS_SNAP_PENDING : Fld := ⟨0x3018, 11, 1⟩
abbrev F.RWD_HEAD_WORD : Fld := ⟨0x301c, 0, 18⟩
abbrev F.RWD_TAIL_WORD : Fld := ⟨0x3020, 0, 18⟩
abbrev F.RWD_FREE_WORDS : Fld := ⟨0x3024, 0, 19⟩
abbrev F.RWD_LAST_REC_LO_C_LO : Fld := ⟨0x3028, 0, 32⟩
abbrev F.RWD_LAST_REC_HI_C_HI : Fld := ⟨0x302c, 0, 16⟩
abbrev F.RWD_COUNTS_SNAP_SKIP : Fld := ⟨0x3030, 0, 16⟩
abbrev F.RWD_COUNTS_DISCARDED : Fld := ⟨0x3030, 16, 16⟩
abbrev F.RWD_JLOG_LO_CH : Fld := ⟨0x3034, 0, 32⟩
abbrev F.RWD_JLOG_HI_CH : Fld := ⟨0x3038, 0, 32⟩
abbrev F.RWD_UNDO_WAIT_NS : Fld := ⟨0x303c, 0, 32⟩
abbrev F.RWD_MARK_CYCLE_LO (i : Nat) : Fld := ⟨0x3400 + 16 * i, 0, 32⟩
abbrev F.RWD_MARK_CYCLE_HI (i : Nat) : Fld := ⟨0x3404 + 16 * i, 0, 16⟩
abbrev F.RWD_MARK_VALID (i : Nat) : Fld := ⟨0x3404 + 16 * i, 16, 1⟩
abbrev F.RWD_MARK_COMPLETE (i : Nat) : Fld := ⟨0x3404 + 16 * i, 17, 1⟩
abbrev F.RWD_MARK_USABLE (i : Nat) : Fld := ⟨0x3404 + 16 * i, 18, 1⟩
abbrev F.RWD_MARK_POS (i : Nat) : Fld := ⟨0x3408 + 16 * i, 0, 18⟩
abbrev F.CLU_CTRL_PATROL_EN (c : Nat) : Fld := ⟨0x4000 + 256 * c, 0, 1⟩
abbrev F.CLU_CTRL_STALL_WARN (c : Nat) : Fld := ⟨0x4000 + 256 * c, 8, 8⟩
abbrev F.CLU_STATUS_STROKE (c : Nat) : Fld := ⟨0x4004 + 256 * c, 0, 11⟩
abbrev F.CLU_STATUS_STALLED (c : Nat) : Fld := ⟨0x4004 + 256 * c, 11, 1⟩
abbrev F.CLU_STATUS_STALL_ENTRY (c : Nat) : Fld := ⟨0x4004 + 256 * c, 12, 10⟩
abbrev F.CLU_STATUS_STALL_BP (c : Nat) : Fld := ⟨0x4004 + 256 * c, 22, 6⟩
abbrev F.CLU_STATUS_LONG_STALL (c : Nat) : Fld := ⟨0x4004 + 256 * c, 28, 1⟩
abbrev F.CLU_STATUS_NO_END (c : Nat) : Fld := ⟨0x4004 + 256 * c, 29, 1⟩
abbrev F.CLU_END_AT_INDEX (c : Nat) : Fld := ⟨0x4008 + 256 * c, 0, 11⟩
abbrev F.CLU_ERR_OP_RSVD_OP (c : Nat) : Fld := ⟨0x400c + 256 * c, 0, 16⟩
abbrev F.CLU_ERR_OP_DEST_ERR (c : Nat) : Fld := ⟨0x400c + 256 * c, 16, 16⟩
abbrev F.CLU_ERR_ECC_CE (c : Nat) : Fld := ⟨0x4010 + 256 * c, 0, 16⟩
abbrev F.CLU_ERR_ECC_UE (c : Nat) : Fld := ⟨0x4010 + 256 * c, 16, 16⟩
abbrev F.CLU_UE_LAST_STROKE (c : Nat) : Fld := ⟨0x4014 + 256 * c, 0, 11⟩
abbrev F.CLU_UE_LAST_BP (c : Nat) : Fld := ⟨0x4014 + 256 * c, 11, 6⟩
abbrev F.CLU_UE_LAST_LEAD_END (c : Nat) : Fld := ⟨0x4014 + 256 * c, 17, 1⟩
abbrev F.CLU_UE_LAST_PATROL (c : Nat) : Fld := ⟨0x4014 + 256 * c, 18, 1⟩
abbrev F.CLU_STALL_TIME_NS (c : Nat) : Fld := ⟨0x4018 + 256 * c, 0, 32⟩
abbrev F.CLU_CYCLE_TIME_LAST (c : Nat) : Fld := ⟨0x401c + 256 * c, 0, 20⟩
abbrev F.CLU_PATROL_NEXT (c : Nat) : Fld := ⟨0x4020 + 256 * c, 0, 11⟩
abbrev F.CLU_PORT_FULL_FULL (c : Nat) : Fld := ⟨0x4024 + 256 * c, 0, 28⟩
abbrev F.CNV_CTRL_FIGHT_CLEAR : Fld := ⟨0xc000, 0, 1⟩
abbrev F.CNV_CTRL_ALERT_EN : Fld := ⟨0xc000, 1, 1⟩
abbrev F.CNV_STATUS_CONFIGURED : Fld := ⟨0xc004, 0, 1⟩
abbrev F.CNV_STATUS_CHAIN_ERR : Fld := ⟨0xc004, 1, 1⟩
abbrev F.CNV_STATUS_FIGHT : Fld := ⟨0xc004, 2, 1⟩
abbrev F.CNV_STATUS_CLEAR_REFUSED : Fld := ⟨0xc004, 3, 1⟩
abbrev F.CNV_STATUS_IO_PARKED : Fld := ⟨0xc004, 4, 1⟩
abbrev F.CNV_FIGHT_AT_X : Fld := ⟨0xc008, 0, 5⟩
abbrev F.CNV_FIGHT_AT_Y : Fld := ⟨0xc008, 5, 5⟩
abbrev F.CNV_FIGHT_AT_DIR : Fld := ⟨0xc008, 10, 1⟩
abbrev F.CNV_FIGHT_AT_CLASS : Fld := ⟨0xc008, 11, 2⟩
abbrev F.CNV_FIGHT_AT_INDEX : Fld := ⟨0xc008, 13, 5⟩
abbrev F.CNV_FIGHT_CNT_FIGHTS : Fld := ⟨0xc00c, 0, 16⟩
abbrev F.CNV_FIGHT_CNT_DISABLED : Fld := ⟨0xc00c, 16, 8⟩
abbrev F.CNV_CHAIN_AT_X : Fld := ⟨0xc010, 0, 5⟩
abbrev F.CNV_CHAIN_AT_Y : Fld := ⟨0xc010, 5, 5⟩
abbrev F.CNV_ERR_RSVD_OPC : Fld := ⟨0xc014, 0, 16⟩
abbrev F.CNV_MLOG_SLOTS : Fld := ⟨0xc018, 0, 16⟩
abbrev F.CNV_MLOG_FULL_WAIT : Fld := ⟨0xc018, 16, 16⟩
abbrev F.CNV_JOUT_LO_WAIT : Fld := ⟨0xc020, 0, 32⟩
abbrev F.CNV_JOUT_HI_WAIT : Fld := ⟨0xc024, 0, 32⟩
abbrev F.CNV_JIN_LO_HELD : Fld := ⟨0xc028, 0, 32⟩
abbrev F.CNV_JIN_HI_HELD : Fld := ⟨0xc02c, 0, 32⟩
abbrev F.CNV_JEP_EN (n : Nat) : Fld := ⟨0xc100 + 4 * n, 0, 1⟩
abbrev F.CNV_JEP_OUTW (n : Nat) : Fld := ⟨0xc100 + 4 * n, 1, 2⟩
abbrev F.CNV_JEP_INW (n : Nat) : Fld := ⟨0xc100 + 4 * n, 3, 2⟩
abbrev F.CNV_FIO_DLY_IDELAY (i : Nat) : Fld := ⟨0xc204 + 8 * i, 0, 8⟩
abbrev F.CNV_FIO_DLY_ODELAY (i : Nat) : Fld := ⟨0xc204 + 8 * i, 8, 8⟩
abbrev F.CNV_FIO_DLY_BUSY (i : Nat) : Fld := ⟨0xc204 + 8 * i, 16, 1⟩
abbrev F.CNV_IOERR_OVERRUN : Fld := ⟨0xc250, 0, 16⟩
abbrev F.CNV_IOERR_UNDERRUN : Fld := ⟨0xc250, 16, 16⟩
abbrev F.CNV_IOSTICKY_FIO_OVR : Fld := ⟨0xc254, 0, 8⟩
abbrev F.CNV_IOSTICKY_UIO_OVR : Fld := ⟨0xc254, 8, 2⟩
abbrev F.CNV_IOSTICKY_FIO_UNR : Fld := ⟨0xc254, 16, 8⟩
abbrev F.CNV_BANK_FIO_VSTD : Fld := ⟨0xc258, 0, 2⟩
abbrev F.CNV_BANK_UIO_VSTD : Fld := ⟨0xc258, 2, 1⟩
abbrev F.CNV_BANK_FIO_VOK : Fld := ⟨0xc258, 3, 1⟩
abbrev F.CNV_BANK_UIO_VOK : Fld := ⟨0xc258, 4, 1⟩
abbrev F.CNV_BANK_VMISMATCH : Fld := ⟨0xc258, 5, 1⟩
abbrev F.NOC_CTRL_INJ_TIMEOUT : Fld := ⟨0xd000, 0, 16⟩
abbrev F.NOC_CTRL_RESP_TIMEOUT : Fld := ⟨0xd000, 16, 16⟩
abbrev F.NOC_STATUS_ABSORBING : Fld := ⟨0xd004, 0, 1⟩
abbrev F.NOC_STATUS_REFUSING : Fld := ⟨0xd004, 1, 1⟩
abbrev F.NOC_STATUS_DRAINING : Fld := ⟨0xd004, 2, 1⟩
abbrev F.NOC_ISO_OUT : Fld := ⟨0xd008, 0, 6⟩
abbrev F.NOC_OVR_CMD_SWAP : Fld := ⟨0xd00c, 0, 1⟩
abbrev F.NOC_OVR_CMD_COPY : Fld := ⟨0xd00c, 1, 1⟩
abbrev F.NOC_OVR_CMD_DRAIN_LIMIT : Fld := ⟨0xd00c, 8, 8⟩
abbrev F.NOC_OVR_STAT_BUSY : Fld := ⟨0xd010, 0, 1⟩
abbrev F.NOC_OVR_STAT_DRAIN_FAIL : Fld := ⟨0xd010, 1, 1⟩
abbrev F.NOC_OVR_STAT_SWAPS : Fld := ⟨0xd010, 8, 8⟩
abbrev F.NOC_NPD_LIMIT : Fld := ⟨0xd014, 0, 16⟩
abbrev F.NOC_NPD_DROPS : Fld := ⟨0xd014, 16, 16⟩
abbrev F.NOC_NPD_LAST_DEST : Fld := ⟨0xd018, 0, 24⟩
abbrev F.NOC_NPD_LAST_VC : Fld := ⟨0xd018, 24, 2⟩
abbrev F.NOC_NPD_LAST_INPUT : Fld := ⟨0xd018, 26, 3⟩
abbrev F.NOC_ERR_CE : Fld := ⟨0xd01c, 0, 16⟩
abbrev F.NOC_ERR_UE : Fld := ⟨0xd01c, 16, 16⟩
abbrev F.NOC_DROP_HDR_DROP : Fld := ⟨0xd020, 0, 16⟩
abbrev F.NOC_DROP_LATE_RESP : Fld := ⟨0xd020, 16, 16⟩
abbrev F.NOC_REFUSE_INJ_BUSY : Fld := ⟨0xd024, 0, 16⟩
abbrev F.NOC_REFUSE_ABSORBED : Fld := ⟨0xd024, 16, 16⟩
abbrev F.NOC_RESP_TO_TIMEOUTS : Fld := ⟨0xd028, 0, 16⟩
abbrev F.NOC_RESP_TO_POSTED_DROP : Fld := ⟨0xd028, 16, 16⟩
abbrev F.NOC_INJ_WAIT_NS : Fld := ⟨0xd02c, 0, 32⟩
abbrev F.NOC_SCHED_WAIT_NS : Fld := ⟨0xd030, 0, 32⟩
abbrev F.NOC_D2D_STATUS_STATE (l : Nat) : Fld := ⟨0xd100 + 16 * l, 0, 2⟩
abbrev F.NOC_D2D_STATUS_TX_SPARES (l : Nat) : Fld := ⟨0xd100 + 16 * l, 2, 5⟩
abbrev F.NOC_D2D_STATUS_RX_SPARES (l : Nat) : Fld := ⟨0xd100 + 16 * l, 7, 5⟩
abbrev F.NOC_D2D_STATUS_DOWN_EVT (l : Nat) : Fld := ⟨0xd100 + 16 * l, 12, 1⟩
abbrev F.NOC_D2D_ERR_CE (l : Nat) : Fld := ⟨0xd104 + 16 * l, 0, 16⟩
abbrev F.NOC_D2D_ERR_UE (l : Nat) : Fld := ⟨0xd104 + 16 * l, 16, 16⟩
abbrev F.NOC_D2D_CTRL_SPARE_N (l : Nat) : Fld := ⟨0xd108 + 16 * l, 0, 8⟩
abbrev F.NOC_D2D_CTRL_RETRAIN (l : Nat) : Fld := ⟨0xd108 + 16 * l, 8, 1⟩
abbrev F.NOC_D2D_LAST_WIRE (l : Nat) : Fld := ⟨0xd10c + 16 * l, 0, 9⟩
abbrev F.NOC_D2D_LAST_DIR (l : Nat) : Fld := ⟨0xd10c + 16 * l, 9, 1⟩
abbrev F.NOC_D2D_LAST_SPARINGS (l : Nat) : Fld := ⟨0xd10c + 16 * l, 16, 16⟩
abbrev F.NOC_QSW_NPD_DROPS : Fld := ⟨0xd140, 0, 16⟩
abbrev F.NOC_QSW_HDR_DROP : Fld := ⟨0xd140, 16, 16⟩
abbrev F.NOC_QSW_REFUSE_ABSORBED : Fld := ⟨0xd144, 0, 16⟩
abbrev F.EAS_CTRL_HOLD_RST (k : Nat) : Fld := ⟨0xe000 + 256 * k, 0, 1⟩
abbrev F.EAS_CTRL_RESET (k : Nat) : Fld := ⟨0xe000 + 256 * k, 1, 1⟩
abbrev F.EAS_CTRL_PTRAP (k : Nat) : Fld := ⟨0xe000 + 256 * k, 2, 1⟩
abbrev F.EAS_CTRL_MBIN_FLUSH (k : Nat) : Fld := ⟨0xe000 + 256 * k, 3, 1⟩
abbrev F.EAS_CTRL_MBOUT_FLUSH (k : Nat) : Fld := ⟨0xe000 + 256 * k, 4, 1⟩
abbrev F.EAS_STATUS_STATE (k : Nat) : Fld := ⟨0xe004 + 256 * k, 0, 2⟩
abbrev F.EAS_STATUS_HALTED (k : Nat) : Fld := ⟨0xe004 + 256 * k, 2, 1⟩
abbrev F.EAS_STATUS_HOLDING (k : Nat) : Fld := ⟨0xe004 + 256 * k, 3, 1⟩
abbrev F.EAS_STATUS_LATE (k : Nat) : Fld := ⟨0xe004 + 256 * k, 4, 1⟩
abbrev F.EAS_STATUS_WDOG (k : Nat) : Fld := ⟨0xe004 + 256 * k, 5, 1⟩
abbrev F.EAS_STATUS_POISON (k : Nat) : Fld := ⟨0xe004 + 256 * k, 6, 1⟩
abbrev F.EAS_STATUS_DOUBLE (k : Nat) : Fld := ⟨0xe004 + 256 * k, 7, 1⟩
abbrev F.EAS_STATUS_CAUSE (k : Nat) : Fld := ⟨0xe004 + 256 * k, 8, 4⟩
abbrev F.EAS_STATUS_PC (k : Nat) : Fld := ⟨0xe004 + 256 * k, 16, 15⟩
abbrev F.EAS_WDOG_LIMIT (k : Nat) : Fld := ⟨0xe008 + 256 * k, 0, 24⟩
abbrev F.EAS_WDOG_CNT_COUNT (k : Nat) : Fld := ⟨0xe00c + 256 * k, 0, 24⟩
abbrev F.EAS_MBIN_STAT_WORDS (k : Nat) : Fld := ⟨0xe010 + 256 * k, 0, 7⟩
abbrev F.EAS_MBIN_STAT_FREE (k : Nat) : Fld := ⟨0xe010 + 256 * k, 8, 7⟩
abbrev F.EAS_MBIN_STAT_ABANDONED (k : Nat) : Fld := ⟨0xe010 + 256 * k, 16, 1⟩
abbrev F.EAS_MBIN_STAT_PARITY (k : Nat) : Fld := ⟨0xe010 + 256 * k, 17, 1⟩
abbrev F.EAS_MBOUT_STAT_WORDS (k : Nat) : Fld := ⟨0xe014 + 256 * k, 0, 7⟩
abbrev F.EAS_MBOUT_STAT_FREE (k : Nat) : Fld := ⟨0xe014 + 256 * k, 8, 7⟩
abbrev F.EAS_MBOUT_STAT_LAST_EMPTY (k : Nat) : Fld := ⟨0xe014 + 256 * k, 16, 1⟩
abbrev F.EAS_MBOUT_STAT_LAST_FIRST (k : Nat) : Fld := ⟨0xe014 + 256 * k, 17, 1⟩
abbrev F.EAS_MBOUT_STAT_LAST_POISON (k : Nat) : Fld := ⟨0xe014 + 256 * k, 18, 1⟩
abbrev F.EAS_MBOUT_WORD (k : Nat) : Fld := ⟨0xe018 + 256 * k, 0, 32⟩
abbrev F.EAS_MBIN_FIRST_WORD (k : Nat) : Fld := ⟨0xe01c + 256 * k, 0, 32⟩
abbrev F.EAS_MBIN_NEXT_WORD (k : Nat) : Fld := ⟨0xe020 + 256 * k, 0, 32⟩
abbrev F.EAS_COUNTS_LATE (k : Nat) : Fld := ⟨0xe024 + 256 * k, 0, 8⟩
abbrev F.EAS_COUNTS_WDOG (k : Nat) : Fld := ⟨0xe024 + 256 * k, 8, 8⟩
abbrev F.EAS_COUNTS_POISON (k : Nat) : Fld := ⟨0xe024 + 256 * k, 16, 8⟩
abbrev F.EAS_COUNTS_MB_REFUSED (k : Nat) : Fld := ⟨0xe024 + 256 * k, 24, 8⟩
abbrev F.EAS_PERF_INSN_COUNT (k : Nat) : Fld := ⟨0xe028 + 256 * k, 0, 32⟩
abbrev F.EAS_PERF_STALL_COUNT (k : Nat) : Fld := ⟨0xe02c + 256 * k, 0, 32⟩
abbrev F.EAS_CLK_MHZ (k : Nat) : Fld := ⟨0xe030 + 256 * k, 0, 11⟩
abbrev F.EAS_PKT_BUSY (k : Nat) : Fld := ⟨0xe034 + 256 * k, 0, 8⟩
abbrev F.EAS_PKT_REFUSED (k : Nat) : Fld := ⟨0xe034 + 256 * k, 8, 8⟩
abbrev F.EAS_PKT_TIMEOUTS (k : Nat) : Fld := ⟨0xe034 + 256 * k, 16, 8⟩
abbrev F.EAS_PATCH_ADDR_ADDR (k u : Nat) : Fld := ⟨0xe040 + 256 * k + 8 * u, 0, 15⟩
abbrev F.EAS_PATCH_ADDR_EN (k u : Nat) : Fld := ⟨0xe040 + 256 * k + 8 * u, 15, 1⟩
abbrev F.EAS_PATCH_ADDR_CLAIMED (k u : Nat) : Fld := ⟨0xe040 + 256 * k + 8 * u, 16, 1⟩
abbrev F.EAS_PATCH_WORD_WORD (k u : Nat) : Fld := ⟨0xe044 + 256 * k + 8 * u, 0, 32⟩

end Sys2Proof.Machine
end

