-- ==== Sys2Proof/Machine/RegMap.lean ====
section
/-! DEFINITION. The register map: for every register its offset, its repeats, and the masks of its RW, W1C, W1S and RC bits
(R5); the reset words that are not 0 (R10). Bits in no mask are RO, WO or reserved. -/

namespace Sys2Proof.Machine

/-- One register or array of registers: the offset of the first, the (stride, count) of each index, and the access masks. -/
structure RegRow where
  off : Nat
  dims : List (Nat × Nat)
  rw : Nat
  w1c : Nat
  w1s : Nat
  rc : Nat
  deriving DecidableEq, Repr

/-- Whether the distance `d` from the first register of an array is that of one of its registers. -/
def dimsHold : List (Nat × Nat) → Nat → Bool
  | [], d => d == 0
  | (st, n) :: t, d => decide (d / st < n) && dimsHold t (d % st)

/-- Whether the register at `a` is one of the row. -/
def RegRow.holds (r : RegRow) (a : Nat) : Bool := decide (r.off ≤ a) && dimsHold r.dims (a - r.off)

/-- The registers of the hub blocks (R472) (part 0). -/
def hubRows0 : List RegRow :=
  [⟨0x0, [], 0x0, 0x0, 0x0, 0x0⟩,
   ⟨0x4, [], 0x0, 0x0, 0x0, 0x0⟩,
   ⟨0x8, [], 0x0, 0x0, 0x0, 0x0⟩,
   ⟨0xc, [], 0x0, 0x0, 0x0, 0xffffffff⟩,
   ⟨0x10, [], 0x0, 0x0, 0x0, 0xffffffff⟩,
   ⟨0x10000, [], 0x3, 0x0, 0x0, 0x0⟩,
   ⟨0x10004, [], 0x0, 0x0, 0x0, 0x0⟩,
   ⟨0x10008, [], 0x0, 0x0, 0x0, 0x0⟩,
   ⟨0x1000c, [], 0x0, 0x0, 0x0, 0x0⟩,
   ⟨0x10010, [], 0x0, 0x0, 0x0, 0xffffffff⟩,
   ⟨0x10014, [], 0xfffffffe, 0x0, 0x0, 0x0⟩,
   ⟨0x10018, [], 0x0, 0xfffffffe, 0x0, 0x0⟩,
   ⟨0x1001c, [], 0x0, 0x0, 0x0, 0xffffffff⟩,
   ⟨0x10020, [(4, 32)], 0x0, 0x0, 0x0, 0x0⟩,
   ⟨0x100a0, [], 0x0, 0x0, 0x0, 0x0⟩,
   ⟨0x100a4, [], 0x0, 0x0, 0x0, 0x0⟩,
   ⟨0x100a8, [], 0x0, 0x0, 0x0, 0x0⟩,
   ⟨0x20000, [], 0xff, 0x0, 0x0, 0x0⟩,
   ⟨0x20004, [], 0x0, 0x0, 0x0, 0x0⟩,
   ⟨0x20008, [], 0x0, 0x0, 0x0, 0x0⟩,
   ⟨0x2000c, [], 0x0, 0x0, 0x0, 0x0⟩,
   ⟨0x20010, [], 0x0, 0x0, 0x0, 0x0⟩,
   ⟨0x20014, [], 0xfff, 0x0, 0x0, 0x0⟩,
   ⟨0x20018, [], 0x0, 0x1000000, 0x0, 0x0⟩,
   ⟨0x2001c, [], 0x0, 0x0, 0x0, 0xffff⟩,
   ⟨0x20040, [(4, 12)], 0x3ff, 0x0, 0x0, 0x0⟩,
   ⟨0x20080, [(4, 6)], 0x3fff, 0x0, 0x0, 0x0⟩,
   ⟨0x200a0, [], 0x0, 0x3f3f, 0x0, 0x0⟩,
   ⟨0x200b0, [(4, 2)], 0x3f, 0x40, 0x0, 0x0⟩,
   ⟨0x20100, [], 0x7ffff, 0x0, 0x0, 0x0⟩]

/-- The registers of the hub blocks (R472) (part 1). -/
def hubRows1 : List RegRow :=
  [⟨0x20104, [], 0xff, 0x0, 0x0, 0x0⟩,
   ⟨0x20108, [], 0x0, 0x1800, 0x0, 0xff0000⟩,
   ⟨0x20110, [], 0xfff, 0x0, 0x0, 0x0⟩,
   ⟨0x20114, [], 0x1ff, 0x0, 0x0, 0x0⟩,
   ⟨0x20120, [(8, 2)], 0xffffff, 0x0, 0x0, 0x0⟩,
   ⟨0x20124, [(8, 2)], 0x0, 0x0, 0x0, 0x0⟩,
   ⟨0x20130, [], 0x3, 0x8, 0x0, 0x0⟩,
   ⟨0x20134, [], 0x0, 0x0, 0x0, 0x0⟩,
   ⟨0x20138, [], 0x0, 0x0, 0x0, 0x0⟩,
   ⟨0x30000, [], 0x3f, 0x0, 0x0, 0x0⟩,
   ⟨0x30004, [], 0x7, 0x0, 0x0, 0x0⟩,
   ⟨0x30008, [], 0x0, 0x3000, 0x0, 0x0⟩,
   ⟨0x3000c, [], 0xffffffff, 0x0, 0x0, 0x0⟩,
   ⟨0x30010, [], 0xffff, 0x0, 0x0, 0x0⟩,
   ⟨0x30014, [], 0x0, 0x0, 0x0, 0xffff0000⟩,
   ⟨0x30018, [], 0x0, 0x0, 0x0, 0x0⟩,
   ⟨0x3001c, [], 0x0, 0x0, 0x0, 0xffffffff⟩,
   ⟨0x30020, [], 0x0, 0x0, 0x0, 0x0⟩,
   ⟨0x30024, [], 0xff1f, 0x0, 0x0, 0x0⟩,
   ⟨0x30040, [(4, 4)], 0x7, 0x0, 0x0, 0x0⟩,
   ⟨0x30050, [(4, 4)], 0x0, 0x6000, 0x0, 0x0⟩,
   ⟨0x30060, [(4, 4)], 0x0, 0x0, 0x0, 0x0⟩,
   ⟨0x30070, [(4, 4)], 0x0, 0x0, 0x0, 0x0⟩,
   ⟨0x30800, [], 0xfff, 0x0, 0x0, 0x0⟩,
   ⟨0x30804, [], 0x0, 0x1, 0x0, 0x0⟩,
   ⟨0x30808, [], 0x0, 0x0, 0x0, 0x0⟩,
   ⟨0x30840, [(4, 65)], 0x0, 0x0, 0x0, 0x0⟩,
   ⟨0x40000, [], 0x7, 0x0, 0x0, 0x0⟩,
   ⟨0x40004, [], 0x0, 0x3f, 0x0, 0x0⟩,
   ⟨0x40008, [], 0x0, 0x0, 0x0, 0x0⟩]

/-- The registers of the hub blocks (R472) (part 2). -/
def hubRows2 : List RegRow :=
  [⟨0x4000c, [], 0xff0fff, 0x0, 0x0, 0x0⟩,
   ⟨0x40010, [], 0x3f, 0x0, 0x0, 0x0⟩,
   ⟨0x40014, [], 0x0, 0x0, 0x0, 0xffff0000⟩,
   ⟨0x40018, [], 0x0, 0x0, 0x0, 0x0⟩,
   ⟨0x4001c, [], 0x0, 0x0, 0x0, 0x0⟩,
   ⟨0x40020, [], 0x0, 0x0, 0x0, 0x0⟩,
   ⟨0x40024, [], 0x0, 0x0, 0x0, 0x0⟩,
   ⟨0x40028, [], 0xfff, 0x0, 0x0, 0x0⟩,
   ⟨0x4002c, [], 0x0, 0x0, 0x0, 0x0⟩,
   ⟨0x40030, [], 0x0, 0x0, 0x0, 0x0⟩,
   ⟨0x40034, [], 0x0, 0x0, 0x0, 0x0⟩,
   ⟨0x40100, [(16, 16)], 0x0, 0x0, 0x0, 0x0⟩,
   ⟨0x40104, [(16, 16)], 0x0, 0x0, 0x0, 0x0⟩,
   ⟨0x40108, [(16, 16)], 0x0, 0x0, 0x0, 0x0⟩,
   ⟨0x40200, [(4, 32)], 0xffffff, 0x0, 0x0, 0x0⟩,
   ⟨0x40400, [(16, 64), (4, 4)], 0x0, 0x0, 0x0, 0x0⟩,
   ⟨0x41000, [(32, 32), (4, 5)], 0x0, 0x0, 0x0, 0xffffff⟩,
   ⟨0x48000, [], 0x7, 0x0, 0x0, 0x0⟩,
   ⟨0x48010, [(16, 4)], 0x0, 0x0, 0x0, 0x0⟩,
   ⟨0x48014, [(16, 4)], 0x0, 0x0, 0x0, 0x0⟩,
   ⟨0x48018, [(16, 4)], 0x0, 0x0, 0x0, 0xffff⟩,
   ⟨0x4c000, [(4, 4096)], 0x0, 0x0, 0x0, 0x0⟩,
   ⟨0x50000, [], 0x3f3fff, 0x0, 0x0, 0x0⟩,
   ⟨0x50004, [], 0x0, 0xff00, 0x0, 0x0⟩,
   ⟨0x50008, [], 0x0, 0x0, 0x0, 0x0⟩,
   ⟨0x5000c, [], 0x0, 0x0, 0x0, 0x0⟩,
   ⟨0x50010, [], 0x0, 0x0, 0x0, 0x0⟩,
   ⟨0x50014, [], 0xffffffff, 0x0, 0x0, 0x0⟩,
   ⟨0x50018, [], 0x0, 0x0, 0x0, 0xff000000⟩,
   ⟨0x5001c, [], 0x0, 0x0, 0x0, 0xffffffff⟩]

/-- The registers of the hub blocks (R472) (part 3). -/
def hubRows3 : List RegRow :=
  [⟨0x50020, [], 0x0, 0x0, 0x0, 0xffffffff⟩,
   ⟨0x50024, [], 0xfffff, 0x0, 0x0, 0x0⟩,
   ⟨0x50040, [(4, 4)], 0x0, 0x0, 0x0, 0x0⟩,
   ⟨0x50050, [(4, 4)], 0xc3ff03ff, 0x0, 0x0, 0x0⟩,
   ⟨0x50060, [(4, 4)], 0x0, 0x0, 0x0, 0xfff00000⟩,
   ⟨0x50800, [(32, 64)], 0xffffff, 0x0, 0x0, 0x0⟩,
   ⟨0x50804, [(32, 64)], 0x0, 0x0, 0x0, 0x0⟩,
   ⟨0x50808, [(32, 64)], 0x0, 0x0, 0x0, 0x0⟩,
   ⟨0x5080c, [(32, 64)], 0x4, 0xc0, 0x1, 0x0⟩,
   ⟨0x50810, [(32, 64)], 0xffffffff, 0x0, 0x0, 0x0⟩,
   ⟨0x50814, [(32, 64)], 0xffff, 0x0, 0x0, 0x0⟩,
   ⟨0x50818, [(32, 64)], 0x0, 0x0, 0x0, 0x0⟩,
   ⟨0x60000, [], 0xff06, 0x0, 0x0, 0x0⟩,
   ⟨0x60004, [], 0x0, 0xf00, 0x0, 0x0⟩,
   ⟨0x60008, [], 0x0, 0x0, 0x0, 0x0⟩,
   ⟨0x6000c, [], 0x0, 0x0, 0x0, 0x0⟩,
   ⟨0x60010, [], 0x0, 0x0, 0x0, 0x0⟩,
   ⟨0x60014, [], 0x0, 0x0, 0x0, 0x0⟩,
   ⟨0x60018, [], 0x0, 0x0, 0x0, 0x0⟩,
   ⟨0x6001c, [], 0x0, 0x0, 0x0, 0x0⟩,
   ⟨0x60020, [], 0x0, 0x0, 0x0, 0x0⟩,
   ⟨0x60024, [], 0x0, 0x0, 0x0, 0xffffffff⟩,
   ⟨0x60028, [], 0x0, 0x0, 0x0, 0xffffffff⟩,
   ⟨0x6002c, [], 0x0, 0x0, 0x0, 0x0⟩,
   ⟨0x60030, [], 0xffffff, 0x0, 0x0, 0x0⟩,
   ⟨0x60034, [], 0x1ff, 0x0, 0x0, 0x0⟩,
   ⟨0x60038, [], 0xffffffff, 0x0, 0x0, 0x0⟩,
   ⟨0x6003c, [], 0xffff, 0x0, 0x0, 0x0⟩,
   ⟨0x60040, [], 0xf, 0x0, 0x0, 0x0⟩,
   ⟨0x60044, [], 0x0, 0x0, 0x0, 0x0⟩]

/-- The registers of the hub blocks (R472) (part 4). -/
def hubRows4 : List RegRow :=
  [⟨0x60048, [(4, 4)], 0x0, 0x0, 0x0, 0x0⟩,
   ⟨0x60060, [], 0x37, 0x0, 0x0, 0x0⟩,
   ⟨0x60064, [], 0x0, 0x100, 0x0, 0x0⟩,
   ⟨0x60068, [(4, 8)], 0x0, 0x0, 0x0, 0x0⟩,
   ⟨0x600a0, [(4, 12)], 0x0, 0x0, 0x0, 0x0⟩,
   ⟨0x600d0, [], 0x0, 0x0, 0x0, 0x0⟩,
   ⟨0x600d4, [], 0xf, 0x0, 0x0, 0x0⟩,
   ⟨0x600e0, [(4, 12)], 0x0, 0x0, 0x0, 0x0⟩,
   ⟨0x63000, [(4, 2048)], 0x0, 0x0, 0x0, 0x0⟩,
   ⟨0x61000, [], 0xffff1f, 0x0, 0x0, 0x0⟩,
   ⟨0x61004, [], 0x0, 0x0, 0x0, 0x0⟩,
   ⟨0x61008, [], 0x0, 0x0, 0x0, 0x0⟩,
   ⟨0x6100c, [], 0x0, 0x0, 0x0, 0x0⟩,
   ⟨0x61010, [], 0x0, 0x0, 0x0, 0xffffffff⟩,
   ⟨0x61014, [], 0x0, 0x0, 0x0, 0xffff⟩,
   ⟨0x61018, [], 0xffffffff, 0x0, 0x0, 0x0⟩,
   ⟨0x6101c, [], 0xffffffff, 0x0, 0x0, 0x0⟩,
   ⟨0x61020, [], 0x0, 0x0, 0x0, 0x0⟩,
   ⟨0x61024, [], 0x0, 0x0, 0x0, 0x0⟩,
   ⟨0x61030, [], 0xff, 0x0, 0x0, 0x0⟩,
   ⟨0x61034, [], 0x0, 0xc, 0x0, 0x0⟩,
   ⟨0x61038, [], 0x0, 0x0, 0x0, 0x0⟩,
   ⟨0x6103c, [], 0x0, 0x0, 0x0, 0x0⟩,
   ⟨0x61040, [], 0xffff, 0x0, 0x0, 0x0⟩,
   ⟨0x61044, [], 0x0, 0x0, 0x0, 0x0⟩,
   ⟨0x62000, [], 0xff07, 0x0, 0x0, 0x0⟩,
   ⟨0x62004, [], 0xffff, 0x0, 0x0, 0x0⟩,
   ⟨0x62008, [], 0xffffffff, 0x0, 0x0, 0x0⟩,
   ⟨0x6200c, [], 0x0, 0xe, 0x0, 0x0⟩,
   ⟨0x62010, [], 0x0, 0x0, 0x0, 0xffffffff⟩]

/-- The registers of the hub blocks (R472) (part 5). -/
def hubRows5 : List RegRow :=
  [⟨0x62014, [], 0x0, 0x0, 0x0, 0xffffffff⟩,
   ⟨0x62018, [], 0x0, 0x0, 0x0, 0xffff⟩,
   ⟨0x6201c, [], 0x0, 0x0, 0x0, 0xffffffff⟩,
   ⟨0x62020, [], 0x0, 0x0, 0x0, 0x0⟩,
   ⟨0x62100, [(4, 64)], 0x0, 0x0, 0x0, 0x0⟩,
   ⟨0x70000, [(4096, 6)], 0xff05, 0x0, 0x0, 0x0⟩,
   ⟨0x70004, [(4096, 6)], 0x0, 0x700, 0x0, 0x0⟩,
   ⟨0x70008, [(4096, 6)], 0xffffffff, 0x0, 0x0, 0x0⟩,
   ⟨0x7000c, [(4096, 6)], 0xffff, 0x0, 0x0, 0x0⟩,
   ⟨0x70010, [(4096, 6)], 0xfffff, 0x0, 0x0, 0x0⟩,
   ⟨0x70014, [(4096, 6)], 0x0, 0x0, 0x0, 0x0⟩,
   ⟨0x70018, [(4096, 6)], 0x0, 0x0, 0x0, 0xffffffff⟩,
   ⟨0x7001c, [(4096, 6)], 0x0, 0x0, 0x0, 0xffffffff⟩,
   ⟨0x70020, [(4096, 6)], 0x0, 0x0, 0x0, 0xffffffff⟩,
   ⟨0x70024, [(4096, 6)], 0x0, 0x0, 0x0, 0xffffffff⟩,
   ⟨0x70028, [(4096, 6)], 0x0, 0x0, 0x0, 0xffffffff⟩,
   ⟨0x7002c, [(4096, 6)], 0x0, 0x0, 0x0, 0xffffffff⟩,
   ⟨0x70030, [(4096, 6)], 0x0, 0x0, 0x0, 0xffffffff⟩,
   ⟨0x70034, [(4096, 6)], 0x0, 0x0, 0x0, 0xffff⟩,
   ⟨0x70038, [(4096, 6)], 0x0, 0x0, 0x0, 0xffffffff⟩,
   ⟨0x7003c, [(4096, 6)], 0x0, 0x0, 0x0, 0xffffff⟩,
   ⟨0x70080, [(4096, 6), (4, 9)], 0x0, 0x0, 0x0, 0xffff⟩,
   ⟨0x70400, [(4096, 6)], 0x0, 0x0, 0x0, 0x0⟩,
   ⟨0x70404, [(4096, 6)], 0x0, 0x0, 0x0, 0x0⟩,
   ⟨0x70408, [(4096, 6)], 0xffffffff, 0x0, 0x0, 0x0⟩,
   ⟨0x7040c, [(4096, 6)], 0xffffffff, 0x0, 0x0, 0x0⟩,
   ⟨0x70410, [(4096, 6)], 0xfff, 0x0, 0x0, 0x0⟩,
   ⟨0x70414, [(4096, 6)], 0x0, 0x0, 0x0, 0x0⟩,
   ⟨0x70418, [(4096, 6)], 0xffffffff, 0x0, 0x0, 0x0⟩,
   ⟨0x7041c, [(4096, 6)], 0x0, 0x0, 0x0, 0x0⟩]

/-- The registers of the hub blocks (R472) (part 6). -/
def hubRows6 : List RegRow :=
  [⟨0x70420, [(4096, 6)], 0x0, 0x2, 0x0, 0x0⟩,
   ⟨0x80000, [], 0xffffff19, 0x0, 0x0, 0x0⟩,
   ⟨0x80004, [], 0x0, 0x3e0, 0x0, 0x0⟩,
   ⟨0x80008, [], 0x0, 0x0, 0x0, 0x0⟩,
   ⟨0x8000c, [], 0x0, 0x0, 0x0, 0x0⟩,
   ⟨0x80010, [], 0x0, 0x0, 0x0, 0x0⟩,
   ⟨0x80014, [], 0x0, 0x0, 0x0, 0x0⟩,
   ⟨0x80018, [], 0x0, 0x0, 0x0, 0x0⟩,
   ⟨0x8001c, [], 0x0, 0x0, 0x0, 0x0⟩,
   ⟨0x80020, [], 0x0, 0x0, 0x0, 0xffffffff⟩,
   ⟨0x80024, [], 0x0, 0x0, 0x0, 0xffffffff⟩,
   ⟨0x80028, [], 0x0, 0x0, 0x0, 0xffffffff⟩,
   ⟨0x8002c, [], 0x0, 0x0, 0x0, 0xffffffff⟩,
   ⟨0x80040, [(4, 3)], 0x0, 0x0, 0x0, 0x0⟩,
   ⟨0x80100, [(32, 6)], 0x0, 0x0, 0x0, 0x0⟩,
   ⟨0x80104, [(32, 6)], 0x0, 0x0, 0x0, 0x0⟩,
   ⟨0x80108, [(32, 6)], 0x0, 0x0, 0x0, 0x0⟩,
   ⟨0x8010c, [(32, 6)], 0x0, 0x0, 0x0, 0x0⟩,
   ⟨0x90000, [(16, 32)], 0x0, 0x0, 0x0, 0x0⟩,
   ⟨0x90004, [(16, 32)], 0x0, 0x0, 0x0, 0x0⟩,
   ⟨0x90008, [(16, 32)], 0x0, 0x0, 0x0, 0x0⟩,
   ⟨0x9000c, [(16, 32)], 0x0, 0x0, 0x0, 0x0⟩,
   ⟨0x90200, [], 0x1ffff, 0x0, 0x0, 0x0⟩,
   ⟨0x90204, [], 0x0, 0x0, 0x0, 0x0⟩,
   ⟨0x90208, [], 0x0, 0x1, 0x0, 0x0⟩,
   ⟨0x9020c, [], 0x0, 0x0, 0x0, 0xffffffff⟩,
   ⟨0x90210, [], 0x0, 0x0, 0x0, 0xffffffff⟩,
   ⟨0x90214, [], 0x0, 0x0, 0x0, 0x0⟩,
   ⟨0x90218, [], 0x0, 0x0, 0x0, 0x0⟩,
   ⟨0x9021c, [], 0x0, 0x0, 0x0, 0x0⟩]

/-- The registers of the hub blocks (R472) (part 7). -/
def hubRows7 : List RegRow :=
  [⟨0x90220, [], 0xffff, 0x10000, 0x0, 0x0⟩,
   ⟨0x90224, [], 0x0, 0x0, 0x0, 0x0⟩,
   ⟨0x90228, [], 0x0, 0x0, 0x0, 0xffff⟩,
   ⟨0x9022c, [], 0x0, 0x0, 0x0, 0xffffffff⟩,
   ⟨0x90230, [], 0x0, 0x0, 0x0, 0xffff⟩,
   ⟨0x90240, [(4, 6)], 0x0, 0xffffffff, 0x0, 0x0⟩,
   ⟨0xa0000, [], 0x0, 0x0, 0x0, 0x0⟩,
   ⟨0xa0004, [], 0xff01, 0x0, 0x0, 0x0⟩,
   ⟨0xa0008, [], 0x0, 0x0, 0x0, 0xff00⟩,
   ⟨0xa000c, [], 0xffff, 0x0, 0x0, 0x0⟩,
   ⟨0xa0010, [], 0xffffffff, 0x0, 0x0, 0x0⟩,
   ⟨0xa0014, [], 0xff, 0x0, 0x0, 0x0⟩,
   ⟨0xa0018, [], 0xffffffff, 0x0, 0x0, 0x0⟩,
   ⟨0xa001c, [], 0xffffffff, 0x0, 0x0, 0x0⟩,
   ⟨0xa0020, [], 0xff, 0x0, 0x0, 0x0⟩,
   ⟨0xa0024, [], 0xff08, 0x0, 0x0, 0x0⟩,
   ⟨0xa0028, [], 0x0, 0x0, 0x0, 0x0⟩,
   ⟨0xa002c, [], 0x0, 0x0, 0x0, 0x0⟩,
   ⟨0xa0030, [], 0xff, 0x0, 0x0, 0x0⟩,
   ⟨0xa0034, [], 0xffff, 0x0, 0x0, 0x0⟩,
   ⟨0xa0038, [], 0x300, 0x0, 0x0, 0x0⟩,
   ⟨0xa003c, [], 0x1, 0x0, 0x0, 0x0⟩]

/-- The registers of the hub blocks (R472). -/
def hubRows : List RegRow := hubRows0 ++ hubRows1 ++ hubRows2 ++ hubRows3 ++ hubRows4 ++ hubRows5 ++ hubRows6 ++ hubRows7

/-- The registers of a region window (R474) (part 0). -/
def rgnRows0 : List RegRow :=
  [⟨0x0, [], 0x18, 0x0, 0x2, 0x0⟩,
   ⟨0x4, [], 0x0, 0x0, 0x0, 0x0⟩,
   ⟨0x8, [], 0x0, 0x0, 0x0, 0x0⟩,
   ⟨0xc, [], 0xffffff, 0x0, 0x0, 0x0⟩,
   ⟨0x10, [], 0x0, 0x0, 0x0, 0xffffffff⟩,
   ⟨0x14, [], 0x0, 0x0, 0x0, 0x0⟩,
   ⟨0x18, [], 0x0, 0x8000, 0x0, 0x0⟩,
   ⟨0x1c, [], 0x0, 0x0, 0x0, 0x0⟩,
   ⟨0x20, [], 0x0, 0x0, 0x0, 0xffff⟩,
   ⟨0x24, [], 0x0, 0x0, 0x0, 0xffffffff⟩,
   ⟨0x28, [], 0x0, 0x0, 0x0, 0xffffffff⟩,
   ⟨0x2c, [], 0x0, 0x0, 0x0, 0xffffffff⟩,
   ⟨0x30, [], 0x0, 0x0, 0x0, 0xffffffff⟩,
   ⟨0x34, [], 0x0, 0x0, 0x0, 0x0⟩,
   ⟨0x8000, [(4, 2048)], 0x0, 0x0, 0x0, 0x0⟩,
   ⟨0xa000, [(4, 512)], 0x0, 0x0, 0x0, 0x0⟩,
   ⟨0xb000, [(4, 512)], 0x0, 0x0, 0x0, 0x0⟩,
   ⟨0x1000, [], 0xff01, 0x0, 0x0, 0x0⟩,
   ⟨0x1004, [], 0x0, 0x0, 0x0, 0x0⟩,
   ⟨0x1008, [], 0x0, 0x0, 0x0, 0x0⟩,
   ⟨0x100c, [], 0x0, 0x0, 0x0, 0x0⟩,
   ⟨0x1010, [], 0x0, 0x0, 0x0, 0x0⟩,
   ⟨0x1014, [], 0x0, 0x0, 0x0, 0x0⟩,
   ⟨0x1018, [], 0x0, 0x0, 0x0, 0x0⟩,
   ⟨0x101c, [], 0x0, 0x0, 0x0, 0x0⟩,
   ⟨0x1020, [], 0x0, 0x0, 0x0, 0xffffffff⟩,
   ⟨0x1024, [], 0x0, 0x0, 0x0, 0xffffff⟩,
   ⟨0x1028, [], 0x0, 0x0, 0x0, 0xffffffff⟩,
   ⟨0x102c, [], 0x0, 0x0, 0x0, 0x0⟩,
   ⟨0x1030, [], 0x0, 0x0, 0x0, 0x0⟩]

/-- The registers of a region window (R474) (part 1). -/
def rgnRows1 : List RegRow :=
  [⟨0x1100, [(4, 128)], 0x0, 0x0, 0x0, 0x0⟩,
   ⟨0x2000, [], 0x10f1f, 0x0, 0x0, 0x0⟩,
   ⟨0x2004, [], 0x0, 0x0, 0x0, 0x0⟩,
   ⟨0x2008, [], 0x0, 0x0, 0x0, 0x0⟩,
   ⟨0x200c, [], 0x0, 0x0, 0x0, 0xffffffff⟩,
   ⟨0x2010, [], 0x0, 0x0, 0x0, 0x0⟩,
   ⟨0x2014, [], 0x0, 0x0, 0x0, 0xffffffff⟩,
   ⟨0x2018, [], 0x0, 0x0, 0x0, 0x1f⟩,
   ⟨0x201c, [], 0x0, 0x0, 0x0, 0xffffffff⟩,
   ⟨0x2020, [(4, 6)], 0x0, 0x0, 0x0, 0xffffffff⟩,
   ⟨0x3000, [], 0xffffff, 0x0, 0x0, 0x0⟩,
   ⟨0x3004, [], 0x0, 0x0, 0x0, 0x0⟩,
   ⟨0x3008, [], 0xffffffff, 0x0, 0x0, 0x0⟩,
   ⟨0x300c, [], 0xffff, 0x0, 0x0, 0x0⟩,
   ⟨0x3010, [], 0xffffffff, 0x0, 0x0, 0x0⟩,
   ⟨0x3014, [], 0xffff, 0x0, 0x0, 0x0⟩,
   ⟨0x3018, [], 0x0, 0x70, 0x0, 0x0⟩,
   ⟨0x301c, [], 0x0, 0x0, 0x0, 0x0⟩,
   ⟨0x3020, [], 0x0, 0x0, 0x0, 0x0⟩,
   ⟨0x3024, [], 0x0, 0x0, 0x0, 0x0⟩,
   ⟨0x3028, [], 0x0, 0x0, 0x0, 0x0⟩,
   ⟨0x302c, [], 0x0, 0x0, 0x0, 0x0⟩,
   ⟨0x3030, [], 0x0, 0x0, 0x0, 0xffffffff⟩,
   ⟨0x3034, [], 0xffffffff, 0x0, 0x0, 0x0⟩,
   ⟨0x3038, [], 0xffffffff, 0x0, 0x0, 0x0⟩,
   ⟨0x303c, [], 0x0, 0x0, 0x0, 0xffffffff⟩,
   ⟨0x3400, [(16, 64)], 0x0, 0x0, 0x0, 0x0⟩,
   ⟨0x3404, [(16, 64)], 0x0, 0x0, 0x0, 0x0⟩,
   ⟨0x3408, [(16, 64)], 0x0, 0x0, 0x0, 0x0⟩,
   ⟨0x200000, [(4, 524288)], 0x0, 0x0, 0x0, 0x0⟩]

/-- The registers of a region window (R474) (part 2). -/
def rgnRows2 : List RegRow :=
  [⟨0x4000, [(256, 16)], 0xff01, 0x0, 0x0, 0x0⟩,
   ⟨0x4004, [(256, 16)], 0x0, 0x10000000, 0x0, 0x0⟩,
   ⟨0x4008, [(256, 16)], 0x0, 0x0, 0x0, 0x0⟩,
   ⟨0x400c, [(256, 16)], 0x0, 0x0, 0x0, 0xffffffff⟩,
   ⟨0x4010, [(256, 16)], 0x0, 0x0, 0x0, 0xffffffff⟩,
   ⟨0x4014, [(256, 16)], 0x0, 0x0, 0x0, 0x0⟩,
   ⟨0x4018, [(256, 16)], 0x0, 0x0, 0x0, 0xffffffff⟩,
   ⟨0x401c, [(256, 16)], 0x0, 0x0, 0x0, 0x0⟩,
   ⟨0x4020, [(256, 16)], 0x0, 0x0, 0x0, 0x0⟩,
   ⟨0x4024, [(256, 16)], 0x0, 0x0, 0x0, 0x0⟩,
   ⟨0xc000, [], 0x2, 0x0, 0x0, 0x0⟩,
   ⟨0xc004, [], 0x0, 0x8, 0x0, 0x0⟩,
   ⟨0xc008, [], 0x0, 0x0, 0x0, 0x0⟩,
   ⟨0xc00c, [], 0x0, 0x0, 0x0, 0xffff⟩,
   ⟨0xc010, [], 0x0, 0x0, 0x0, 0x0⟩,
   ⟨0xc014, [], 0x0, 0x0, 0x0, 0xffff⟩,
   ⟨0xc018, [], 0x0, 0x0, 0x0, 0xffff0000⟩,
   ⟨0xc020, [], 0x0, 0x0, 0x0, 0x0⟩,
   ⟨0xc024, [], 0x0, 0x0, 0x0, 0x0⟩,
   ⟨0xc028, [], 0x0, 0x0, 0x0, 0x0⟩,
   ⟨0xc02c, [], 0x0, 0x0, 0x0, 0x0⟩,
   ⟨0xc100, [(4, 64)], 0x0, 0x0, 0x0, 0x0⟩,
   ⟨0xc200, [(8, 8)], 0x0, 0x0, 0x0, 0x0⟩,
   ⟨0xc204, [(8, 8)], 0xffff, 0x0, 0x0, 0x0⟩,
   ⟨0xc240, [(4, 2)], 0x0, 0x0, 0x0, 0x0⟩,
   ⟨0xc250, [], 0x0, 0x0, 0x0, 0xffffffff⟩,
   ⟨0xc254, [], 0x0, 0xff03ff, 0x0, 0x0⟩,
   ⟨0xc258, [], 0x0, 0x20, 0x0, 0x0⟩,
   ⟨0xd000, [], 0xffffffff, 0x0, 0x0, 0x0⟩,
   ⟨0xd004, [], 0x0, 0x0, 0x0, 0x0⟩]

/-- The registers of a region window (R474) (part 3). -/
def rgnRows3 : List RegRow :=
  [⟨0xd008, [], 0x3f, 0x0, 0x0, 0x0⟩,
   ⟨0xd00c, [], 0xff00, 0x0, 0x0, 0x0⟩,
   ⟨0xd010, [], 0x0, 0x2, 0x0, 0xff00⟩,
   ⟨0xd014, [], 0xffff, 0x0, 0x0, 0xffff0000⟩,
   ⟨0xd018, [], 0x0, 0x0, 0x0, 0x0⟩,
   ⟨0xd01c, [], 0x0, 0x0, 0x0, 0xffffffff⟩,
   ⟨0xd020, [], 0x0, 0x0, 0x0, 0xffffffff⟩,
   ⟨0xd024, [], 0x0, 0x0, 0x0, 0xffffffff⟩,
   ⟨0xd028, [], 0x0, 0x0, 0x0, 0xffffffff⟩,
   ⟨0xd02c, [], 0x0, 0x0, 0x0, 0xffffffff⟩,
   ⟨0xd030, [], 0x0, 0x0, 0x0, 0xffffffff⟩,
   ⟨0xd100, [(16, 3)], 0x0, 0x1000, 0x0, 0x0⟩,
   ⟨0xd104, [(16, 3)], 0x0, 0x0, 0x0, 0xffffffff⟩,
   ⟨0xd108, [(16, 3)], 0xff, 0x0, 0x0, 0x0⟩,
   ⟨0xd10c, [(16, 3)], 0x0, 0x0, 0x0, 0xffff0000⟩,
   ⟨0xd140, [], 0x0, 0x0, 0x0, 0xffffffff⟩,
   ⟨0xd144, [], 0x0, 0x0, 0x0, 0xffff⟩,
   ⟨0xd400, [(4, 32)], 0x0, 0x0, 0x0, 0x0⟩,
   ⟨0xd480, [(8, 16)], 0x00ffffff, 0x0, 0x0, 0x0⟩,
   ⟨0xd484, [(8, 16)], 0x1fffffff, 0x0, 0x0, 0x0⟩,
   ⟨0xd800, [(4, 384)], 0x0, 0x0, 0x0, 0x0⟩,
   ⟨0xe000, [(256, 3)], 0x5, 0x0, 0x0, 0x0⟩,
   ⟨0xe004, [(256, 3)], 0x0, 0xf0, 0x0, 0x0⟩,
   ⟨0xe008, [(256, 3)], 0xffffff, 0x0, 0x0, 0x0⟩,
   ⟨0xe00c, [(256, 3)], 0x0, 0x0, 0x0, 0x0⟩,
   ⟨0xe010, [(256, 3)], 0x0, 0x30000, 0x0, 0x0⟩,
   ⟨0xe014, [(256, 3)], 0x0, 0x0, 0x0, 0x0⟩,
   ⟨0xe018, [(256, 3)], 0x0, 0x0, 0x0, 0x0⟩,
   ⟨0xe01c, [(256, 3)], 0x0, 0x0, 0x0, 0x0⟩,
   ⟨0xe020, [(256, 3)], 0x0, 0x0, 0x0, 0x0⟩,
   ⟨0xe024, [(256, 3)], 0x0, 0x0, 0x0, 0xffffffff⟩]

/-- The registers of a region window (R474) (part 4). -/
def rgnRows4 : List RegRow :=
  [⟨0xe028, [(256, 3)], 0x0, 0x0, 0x0, 0xffffffff⟩,
   ⟨0xe02c, [(256, 3)], 0x0, 0x0, 0x0, 0xffffffff⟩,
   ⟨0xe030, [(256, 3)], 0x0, 0x0, 0x0, 0x0⟩,
   ⟨0xe034, [(256, 3)], 0x0, 0x0, 0x0, 0xffff00⟩,
   ⟨0xe040, [(256, 3), (8, 8)], 0xffff, 0x0, 0x0, 0x0⟩,
   ⟨0xe044, [(256, 3), (8, 8)], 0xffffffff, 0x0, 0x0, 0x0⟩]

/-- The registers of a region window (R474). -/
def rgnRows : List RegRow := rgnRows0 ++ rgnRows1 ++ rgnRows2 ++ rgnRows3 ++ rgnRows4

/-- The hub registers whose reset word is not 0; the reset word stands in the `rw` place (part 0). -/
def hubResets0 : List RegRow :=
  [⟨0x0, [], 0xc0000, 0, 0, 0⟩,
   ⟨0x10000, [], 0x3, 0, 0, 0⟩,
   ⟨0x10004, [], 0x300, 0, 0, 0⟩,
   ⟨0x10014, [], 0xfffffffe, 0, 0, 0⟩,
   ⟨0x100a8, [], 0x352, 0, 0, 0⟩,
   ⟨0x20100, [], 0x87a, 0, 0, 0⟩,
   ⟨0x20108, [], 0x600, 0, 0, 0⟩,
   ⟨0x20110, [], 0x4, 0, 0, 0⟩,
   ⟨0x20120, [(8, 2)], 0x190ff, 0, 0, 0⟩,
   ⟨0x20124, [(8, 2)], 0xffff, 0, 0, 0⟩,
   ⟨0x30000, [], 0x29, 0, 0, 0⟩,
   ⟨0x30010, [], 0xed8, 0, 0, 0⟩,
   ⟨0x30024, [], 0x514, 0, 0, 0⟩,
   ⟨0x30050, [(4, 4)], 0x2ee, 0, 0, 0⟩,
   ⟨0x30800, [], 0x364, 0, 0, 0⟩,
   ⟨0x40000, [], 0x1, 0, 0, 0⟩,
   ⟨0x4000c, [], 0x140218, 0, 0, 0⟩,
   ⟨0x40034, [], 0x3f0f, 0, 0, 0⟩,
   ⟨0x48010, [(16, 4)], 0x3ff, 0, 0, 0⟩,
   ⟨0x50000, [], 0x1000, 0, 0, 0⟩,
   ⟨0x50014, [], 0xa0000, 0, 0, 0⟩,
   ⟨0x50024, [], 0x3e8, 0, 0, 0⟩,
   ⟨0x50050, [(4, 4)], 0x3c0014, 0, 0, 0⟩,
   ⟨0x60000, [], 0x6400, 0, 0, 0⟩,
   ⟨0x60030, [], 0x186a0, 0, 0, 0⟩,
   ⟨0x61000, [], 0x646400, 0, 0, 0⟩,
   ⟨0x62000, [], 0x307, 0, 0, 0⟩,
   ⟨0x62004, [], 0x64, 0, 0, 0⟩,
   ⟨0x62008, [], 0x640062, 0, 0, 0⟩,
   ⟨0x70000, [(4096, 6)], 0x804, 0, 0, 0⟩,
   ⟨0x70008, [(4096, 6)], 0x640014, 0, 0, 0⟩]

/-- The hub registers whose reset word is not 0; the reset word stands in the `rw` place (part 1). -/
def hubResets1 : List RegRow :=
  [⟨0x7000c, [(4096, 6)], 0x1000, 0, 0, 0⟩,
   ⟨0x70010, [(4096, 6)], 0x40100, 0, 0, 0⟩,
   ⟨0x70080, [(4096, 6), (4, 9)], 0x1e0000, 0, 0, 0⟩,
   ⟨0x80000, [], 0x3e80a00, 0, 0, 0⟩,
   ⟨0x90200, [], 0x103e8, 0, 0, 0⟩,
   ⟨0x90220, [], 0xa, 0, 0, 0⟩,
   ⟨0xa0000, [], 0x100c0000, 0, 0, 0⟩,
   ⟨0xa0004, [], 0xa00, 0, 0, 0⟩,
   ⟨0xa003c, [], 0x1, 0, 0, 0⟩]

/-- The hub registers whose reset word is not 0; the reset word stands in the `rw` place. -/
def hubResets : List RegRow := hubResets0 ++ hubResets1

/-- The region registers whose reset word is not 0; the reset word stands in the `rw` place (part 0). -/
def rgnResets0 : List RegRow :=
  [⟨0x0, [], 0x18, 0, 0, 0⟩,
   ⟨0xc, [], 0x322710, 0, 0, 0⟩,
   ⟨0x1000, [], 0xa00, 0, 0, 0⟩,
   ⟨0x101c, [], 0x7ffff, 0, 0, 0⟩,
   ⟨0x102c, [], 0x1f, 0, 0, 0⟩,
   ⟨0x2000, [], 0x10810, 0, 0, 0⟩,
   ⟨0x2004, [], 0x6, 0, 0, 0⟩,
   ⟨0x3000, [], 0x210000, 0, 0, 0⟩,
   ⟨0x3024, [], 0x40000, 0, 0, 0⟩,
   ⟨0x4000, [(256, 16)], 0x6401, 0, 0, 0⟩,
   ⟨0x4004, [(256, 16)], 0x20000000, 0, 0, 0⟩,
   ⟨0x4008, [(256, 16)], 0x7ff, 0, 0, 0⟩,
   ⟨0xc000, [], 0x2, 0, 0, 0⟩,
   ⟨0xd000, [], 0xc80014, 0, 0, 0⟩,
   ⟨0xd00c, [], 0xa00, 0, 0, 0⟩,
   ⟨0xd014, [], 0x64, 0, 0, 0⟩,
   ⟨0xd100, [(16, 3)], 0x1, 0, 0, 0⟩,
   ⟨0xd108, [(16, 3)], 0x10, 0, 0, 0⟩,
   ⟨0xe000, [(256, 3)], 0x4, 0, 0, 0⟩,
   ⟨0xe010, [(256, 3)], 0x4000, 0, 0, 0⟩,
   ⟨0xe014, [(256, 3)], 0x4000, 0, 0, 0⟩]

/-- The region registers whose reset word is not 0; the reset word stands in the `rw` place. -/
def rgnResets : List RegRow := rgnResets0

/-- The default lasting thresholds N of R450, by source. -/
def classN : List Nat := [3, 3, 0, 3, 1, 3, 3, 3, 3, 3, 1, 0, 0, 3, 3, 2, 3, 3, 3, 3, 0, 3, 3, 1, 3, 1, 0, 0, 0, 0, 0, 0]

/-- The reset word of the hub register at `a`. -/
def hubReset (a : Nat) : Word :=
  if 0x40200 ≤ a ∧ a < 0x40280 then BitVec.ofNat 32 (0x6400 + classN.getD ((a - 0x40200) / 4) 0)
  else match hubResets.find? (fun r => r.holds a) with
    | some r => BitVec.ofNat 32 r.rw
    | none => 0

/-- The reset word of the region register at window offset `a`. -/
def rgnReset (a : Nat) : Word :=
  match rgnResets.find? (fun r => r.holds a) with
  | some r => BitVec.ofNat 32 r.rw
  | none => 0

end Sys2Proof.Machine
end

