-- ==== Sys2Proof/Machine/Store.lean ====
section
/-! DEFINITION. Sparse stores: a list of (key, value) pairs with strictly rising keys and no entry equal to what an
unlisted key reads as. A byte-addressed memory is a list of `Host.Cell`. -/

namespace Sys2Proof.Machine

/-- A sparse store with values of type `α`. -/
abbrev SMap (α : Type) := List (Nat × α)

/-- A byte-addressed memory. Unlisted bytes read as 0 (R23: a store reads as 0 until the loader has written it). -/
abbrev Mem := List Host.Cell

/-- The value at key `k`, or `d` where no entry lists `k`. -/
def SMap.get {α : Type} (d : α) (m : SMap α) (k : Nat) : α :=
  match m with
  | [] => d
  | (k', v) :: t => if k' = k then v else SMap.get d t k

/-- The store with every entry of key `k` removed. -/
def SMap.erase {α : Type} (m : SMap α) (k : Nat) : SMap α :=
  match m with
  | [] => []
  | (k', v) :: t => if k' = k then SMap.erase t k else (k', v) :: SMap.erase t k

/-- The store with key `k` holding `v`, an entry in its place in the rising order. -/
def SMap.insert {α : Type} (m : SMap α) (k : Nat) (v : α) : SMap α :=
  match m with
  | [] => [(k, v)]
  | (k', v') :: t =>
    if k < k' then (k, v) :: (k', v') :: t
    else if k' = k then (k, v) :: t
    else (k', v') :: SMap.insert t k v

/-- The store after `v` is written at `k`: writing what an unlisted key reads as removes the entry. -/
def SMap.set {α : Type} [DecidableEq α] (d : α) (m : SMap α) (k : Nat) (v : α) : SMap α :=
  if v = d then SMap.erase m k else SMap.insert m k v

/-- The store kept to the keys that satisfy `p`. -/
def SMap.keep {α : Type} (p : Nat → Bool) (m : SMap α) : SMap α := m.filter (fun e => p e.1)

/-- The store with `f` applied to the value at `k`. -/
def SMap.update {α : Type} [DecidableEq α] (d : α) (m : SMap α) (k : Nat) (f : α → α) : SMap α :=
  SMap.set d m k (f (SMap.get d m k))

/-- Strictly rising keys. -/
def SMap.rising {α : Type} : SMap α → Bool
  | [] => true
  | [_] => true
  | (k, _) :: (k', v') :: t => decide (k < k') && SMap.rising ((k', v') :: t)

/-- The canonical form: rising keys, and no entry equal to the default. -/
def SMap.wf {α : Type} [DecidableEq α] (d : α) (m : SMap α) : Bool :=
  SMap.rising m && m.all (fun e => decide (e.2 ≠ d))

/-- The canonical form of a byte memory. -/
def Memory.wf (m : Mem) : Bool := SMap.wf (0 : BitVec 8) m

/-- The bytes `a`, `a + 1`, … as one little-endian number of `n` bytes (R4). -/
def Mem.read (m : Mem) (a n : Nat) : Nat :=
  match n with
  | 0 => 0
  | n + 1 => (SMap.get (0 : BitVec 8) m a).toNat + 256 * Mem.read m (a + 1) n

/-- The memory after `n` bytes of `v`, least significant first, are written at `a`. -/
def Mem.write (m : Mem) (a n v : Nat) : Mem :=
  match n with
  | 0 => m
  | n + 1 => Mem.write (SMap.set 0 m a (BitVec.ofNat 8 v)) (a + 1) n (v / 256)

/-- The memory after the listed bytes are written from `a` upward. -/
def Mem.writeBytes (m : Mem) (a : Nat) : List (BitVec 8) → Mem
  | [] => m
  | b :: t => Mem.writeBytes (SMap.set 0 m a b) (a + 1) t

/-- `n` bytes read from `a` upward. -/
def Mem.bytes (m : Mem) (a : Nat) : Nat → List (BitVec 8)
  | 0 => []
  | n + 1 => SMap.get (0 : BitVec 8) m a :: Mem.bytes m (a + 1) n

end Sys2Proof.Machine
end

