-- ==== Sys2Proof/Machine/State.lean ====
section
/-! DEFINITION. The state of one AX4-192 package as plain data: the registers, the stores, the engines' own state and the
queue of commands that wait. Register-mapped state lives in the register words; what the registers do not show stands in
the structures below. -/

namespace Sys2Proof.Machine

/-- Why the block stops. No meaning raises a fault: every command of the table has an effect by the spec. The one name is
kept for the ill-formed command that `WellFormed` refuses; stopping there would be safe. -/
inductive Fault where
  /-- A command that is not well formed. Raised by no meaning; safe. -/
  | illFormed (mnemonic : String)
  deriving DecidableEq, Repr

/-- Why a command is refused. -/
inductive Refusal where
  /-- The dispatcher's answer for a command without a meaning; safe. -/
  | notModelled (mnemonic : String)
  deriving DecidableEq, Repr

/-- What the lead BP of a cluster waits to complete (R73). -/
inductive Lead where
  | none
  | send (data : Entry) (ix : BitVec 10)
  | memrd (k : BitVec 3) (addr : BitVec 19)
  | memwr (addr : BitVec 19) (data mask : Entry)
  /-- `shown`: the word stands on the outbound lanes; at a clamped endpoint it does not (R229). -/
  | jpost (j : BitVec 2) (data : Entry) (shown : Bool)
  | probe (num : BitVec 10) (data : Entry)
  deriving DecidableEq, Repr

/-- A palette write that a BP has made in the stroke in progress; strokes after it see it (R79). -/
structure PalWrite where
  bp : Bp
  entry : BitVec 10
  next : Bool
  val : Bool
  deriving DecidableEq, Repr

/-- A cluster: its palette and the progress of its strokes (R64, R77, R84). -/
structure Cluster where
  /-- The cluster executes strokes of a cycle (from stroke 0 to its END). -/
  running : Bool := false
  /-- It has executed END of the cycle (R45, R75). -/
  ended : Bool := false
  /-- Bit b: BP b has completed the stroke (R84). -/
  done : BitVec 64 := 0
  /-- The writes of the stroke in progress (R79). -/
  writes : List PalWrite := []
  /-- BP to the port entries it waits on, which were empty when it read them, in operand order (R83, R85). -/
  waits : SMap (List (BitVec 10)) := []
  /-- When the stall in progress began, in ns; whether a BP has stalled in this stroke (R85, R91). -/
  since : Nat := 0
  stalled : Bool := false
  /-- Entries 0–991: the current bank of the state zone and the working zone (R77). -/
  pal : SMap Entry := []
  /-- The next-state bank and its written flags (R78). -/
  next : SMap Entry := []
  written : SMap Entry := []
  /-- Exchange-in slot k, side p at key 16 p + k, and the full flags (R98). -/
  exch : SMap Entry := []
  exFull : BitVec 32 := 0
  /-- Entries 1008–1019 at keys 0–11, and their full flags (R81). -/
  ports : SMap Entry := []
  portFull : BitVec 12 := 0
  /-- The same as they stood when the stroke began (R79, R102). -/
  portsAt : SMap Entry := []
  portFullAt : BitVec 12 := 0
  /-- The cluster operation of the lead BP that is not complete (R73). -/
  lead : Lead := .none
  /-- MEMWRs and PROBEs of the cycle that are not performed (R73, END). -/
  memOut : BitVec 13 := 0
  probeOut : BitVec 12 := 0
  /-- Deliveries on channel j since the start of the cycle (R127, SEQ). -/
  jseq : SMap (BitVec 12) := []
  deriving DecidableEq, Repr

/-- A bundle on the scheduled plane (R95): the data, the tag, its poison mark (R99), the region it left, and the Oxdon port
by which it entered the package, if it did (R127). -/
structure Bundle where
  data : Entry
  tag : BitVec 7
  egress : BitVec 3 := 4
  poison : Bool := false
  origin : Option Rg := none
  port : Option PortNo := none
  /-- The input by which it reached its destination's router, and for an EXT bundle its XRGN and XDEST (R265, R266). -/
  via : BitVec 3 := 0
  xrgn : BitVec 4 := 0
  xdest : BitVec 4 := 0
  /-- The quadrant number that its outgoing LSTREAM is formed with (R290), and the epoch of the region that sent it. -/
  qtag : BitVec 2 := 0
  epoch : BitVec 8 := 0
  deriving DecidableEq, Repr

/-- An access that the front port has taken and not finished (R101, R112). -/
inductive FrontAcc where
  /-- A MEMRD: its target, its word, whether a later MEMRD of the same k has taken its place (R102), and the value it read
  and the error it met, where a later write has been performed before its data returned. -/
  | rd (c : Cl) (k : BitVec 3) (addr : BitVec 19) (stroke : BitVec 11) (stale : Bool) (val : Option (Entry × Ecc))
  /-- A MEMWR with its take index (R126). -/
  | wr (c : Cl) (addr : BitVec 19) (data mask : Entry) (stroke : BitVec 11) (pos : BitVec 13)
  /-- The NEW word of a back-port UNDO record, written again in a replay (R138). -/
  | redo (addr : BitVec 19) (data : Entry)
  deriving DecidableEq, Repr

/-- An entry of the undo buffer (R113, R126). `new` is given for back-port writes. -/
structure UndoEntry where
  cycle : BitVec 48
  addr : BitVec 19
  pos : BitVec 13
  src : BitVec 3
  c : Cl
  poison : Bool
  old : Entry
  new : Option Entry
  deriving DecidableEq, Repr

/-- A record that the trace writer holds for a PROBE (R104, R129). -/
structure ProbeRec where
  cycle : BitVec 48
  num : BitVec 10
  c : Cl
  stroke : BitVec 11
  data : Entry
  deriving DecidableEq, Repr

/-- A boundary input that waits to be written as a BIN record (R127). -/
structure BinRec where
  cycle : BitVec 48
  word0 : Entry
  data : Entry
  deriving DecidableEq, Repr

/-- The snapshot in the shadows (R124): the cycle, the ring word of the SNAP header, the words of its SNAP record as the state shadows
give them, the port shadow of entries 1008–1019 (entry i of cluster c at key 12 c + i, and the full flags by cluster), the exchange
shadow (slot k of cluster c at key 16 c + k, once it is full), and how many of the reserved ring words have been written. -/
structure Snapshot where
  cycle : BitVec 48
  pos : BitVec 18
  seq : BitVec 16
  state : List Entry
  ports : SMap Entry
  full : SMap (BitVec 12)
  exch : SMap (Option Entry)
  done : Nat := 0
  deriving DecidableEq, Repr

/-- What a fix engine holds beside the FIX registers (R44–R47, R61). -/
structure FixEngine where
  /-- B(N) of the cycle in progress has passed, and the moment at which it did, by `Meridian.elapsed` (R42, R47). -/
  passed : Bool := false
  passAt : BitVec 48 := 0
  /-- The boundary was counted in dead reckoning (R52). -/
  passReck : Bool := false
  /-- Boundaries after B(N) that have passed already, the earliest first: the moment, and whether it was counted in dead reckoning. -/
  later : List (BitVec 48 × Bool) := []
  /-- The cycle in progress began late by so many ticks, which its fix logs as a slip (R226, R227, R435). -/
  lateBy : BitVec 48 := 0
  /-- Time since the last fix or the start, in ns, while the region is in a cycle (R107). -/
  noFix : Nat := 0
  /-- The moment of completion: tick and sixteenths of a tick (R45, R56). -/
  doneTick : BitVec 48 := 0
  donePhase : BitVec 4 := 0
  /-- The same moment by `Meridian.elapsed`, which no realignment steps. -/
  doneAt : BitVec 48 := 0
  /-- B(N) had passed when the cycle was complete (R47). -/
  doneLate : Bool := false
  /-- Less than 200 ns have passed since the previous fix began, and a fix waits on that (R43). -/
  spacing : Bool := false
  minspace : Bool := false
  /-- In FIXING: the fix overhead is complete (R46). -/
  overhead : Bool := false
  /-- EWIN has expired since step 6 of this fix (R46). -/
  ewinOut : Bool := false
  /-- The next fix carries REALIGN (R54); a slip whose boundary lies at or before `realignTo` carries it too (R55). -/
  realign : Bool := false
  realignTo : Option (BitVec 48) := none
  /-- A taint entry was written for the region in this cycle (R61). -/
  taint : Bool := false
  /-- A poisoned bundle of this cycle is read in the next one, whose fix carries TAINT too (R99). -/
  taintNext : Bool := false
  /-- The entry of the last fix, and whether LOG_EVENTS left it unlogged (R61). -/
  entry : BitVec 128 := 0
  unlogged : Bool := false
  /-- Bundles of the cycle that are not accepted yet (R45). -/
  unaccepted : BitVec 16 := 0
  /-- Held for schedule checks of a dirty region (R227). -/
  checking : Bool := false
  /-- The smallest margin of the helm's control interval, in 1/16 tick, and whether there is one (R56, R57). -/
  helmMin : Option (BitVec 20) := none
  deriving DecidableEq, Repr

/-- The back-port arbiter, beside DMEM.STATUS (R115–R118). -/
structure Arbiter where
  /-- Requesters from the top of the rank order to the bottom. -/
  rank : List (Fin 6) := [0, 1, 2, 3, 4, 5]
  /-- Requester to age. -/
  ages : SMap (BitVec 5) := []
  /-- Requesters that have reached WAIT_LIMIT, the first to reach it first. -/
  forced : List (Fin 6) := []
  /-- The scrubber's last grant was ended by the burst limit (R118). -/
  burstEnded : Bool := false
  deriving DecidableEq, Repr

/-- The trace writer and the rewind engine beside the RWD registers (R113, R121–R139). -/
structure Rewind where
  undo : List UndoEntry := []
  bins : List BinRec := []
  probes : List ProbeRec := []
  /-- MERGE records that wait for a grant (R115, R128). -/
  merges : List (BitVec 48 × List Entry) := []
  snap : Option Snapshot := none
  /-- Sequence number of the next snapshot (R125). -/
  seq : BitVec 16 := 0
  /-- The cycle of the first record discarded while FULL (R130, R133). -/
  gapCycle : BitVec 48 := 0
  gapCount : BitVec 32 := 0
  /-- A GAP marker of count 0 is due (R134); a BRANCH marker is due (R139). -/
  gapDue : Option (BitVec 48) := none
  branchDue : Option (BitVec 48) := none
  /-- An armed replay, the cycle from which the replay in progress runs, and where it stands: ring words of the records already used (R138). -/
  armed : Option (BitVec 48) := none
  replayFrom : BitVec 48 := 0
  /-- The ring word of the snapshot that the last rewind went to (R137). -/
  restored : BitVec 18 := 0
  /-- An accepted rewind that waits for the trace writer to write out what it holds: the mark, S and H (R115, R137). -/
  restoring : Option (BitVec 6 × BitVec 48 × BitVec 48) := none
  used : List (BitVec 18) := []
  /-- Decisions of replayed MERGE records used so far, by cell (R138). -/
  mused : SMap Nat := []
  deriving DecidableEq, Repr

/-- A hardware loop level of an easel core (R341). -/
structure LoopLevel where
  start : BitVec 15
  stop : BitVec 15
  rot : Bool
  ie : Bool
  deriving DecidableEq, Repr

/-- A word of a mailbox: the first-of-item marker and a parity that fails (R354). -/
structure MbWord where
  word : Word
  first : Bool
  bad : Bool
  deriving DecidableEq, Repr

/-- A request of a packet engine that is outstanding or waits to enter the packet plane (R352, R353). -/
structure EnginePkt where
  packet : Packet
  irq : Bool
  resp : BitVec 16
  desc : BitVec 16
  sent : Bool
  deriving DecidableEq, Repr

/-- A write of B, L or RB that the next two instructions do not see (R343): the special register, the value and how many
instructions are still to complete. -/
structure LateWrite where
  spec : BitVec 6
  val : BitVec 16
  left : BitVec 2
  deriving DecidableEq, Repr

/-- What the debug port keeps of an easel core (R414–R418): the cause of its halt and the patch unit, the cause of a fed
instruction that would trap, TRAP_HALT, a HALT that waits for the end of a reset, a STEP in progress, the unit to pass over at the
next fetch, and the saved ADDR, EN and WORD of claimed units as ADDR + 2^16 WORD. -/
structure CoreDbg where
  cause : BitVec 3 := 0
  unit : BitVec 3 := 0
  feedCause : BitVec 4 := 0
  trapHalt : Bool := false
  haltReq : Bool := false
  stepping : Bool := false
  pass : Option (BitVec 3) := none
  saved : SMap (Option (BitVec 48)) := []
  deriving DecidableEq, Repr

/-- What the last instruction of a core leaves for the next one to wait for (R343), by number: physical registers that it loads, accumulators
that it works on, pointers that it moves to; and the quartets that PAL reads fill and nothing has used yet, each with the cycles that must
still pass before its data arrives. -/
structure Hazard where
  regs : BitVec 32 := 0
  pal : List (BitVec 32 × BitVec 2) := []
  accs : BitVec 2 := 0
  ptrs : BitVec 8 := 0
  deriving DecidableEq, Repr

/-- What a patch unit held before a write that no fetch sees yet (R357): its ADDR and EN, its WORD, and the core cycles that are left. -/
structure PatchOld where
  unit : BitVec 3
  addr : BitVec 16
  word : Word
  left : BitVec 4
  deriving DecidableEq, Repr

/-- An easel core (R325). -/
structure Easel where
  /-- S0–S7 at keys 0–7, physical rotating registers at 8–31. -/
  r : SMap (BitVec 16) := []
  a0 : BitVec 40 := 0
  a1 : BitVec 40 := 0
  /-- P0–P7, B0–B7 and L0–L7 at keys 0–23 (R334). -/
  ptr : SMap (BitVec 16) := []
  rb : BitVec 5 := 0
  lc0 : BitVec 16 := 0
  lc1 : BitVec 16 := 0
  lr : BitVec 15 := 0
  epc : BitVec 15 := 0
  /-- SR bits [7:0]; HOLD is in EAS.STATUS.HOLDING. -/
  sr : BitVec 8 := 0
  pc : BitVec 15 := 0
  ien : BitVec 3 := 0
  pktDone : BitVec 8 := 0
  pendFix : Bool := false
  /-- PAL traps with LATE and RELFIX does nothing until the next fix (R349). -/
  late : Bool := false
  /-- CYC0–CYC2 (R334). -/
  cyc : BitVec 48 := 0
  l0 : Option LoopLevel := none
  l1 : Option LoopLevel := none
  lateW : List LateWrite := []
  haz : Hazard := {}
  /-- The instruction that has been fetched and stalls (R343), and the writes of patch units that no fetch sees yet. -/
  fetched : Option Word := none
  patchOld : List PatchOld := []
  prog : Mem := []
  x : Mem := []
  y : Mem := []
  mbin : List MbWord := []
  mbout : List MbWord := []
  /-- After a flush, words without the first marker are discarded until a marked one (R372). -/
  mbinCut : Bool := false
  mboutCut : Bool := false
  /-- Packet tags outstanding (R352). -/
  pkts : SMap (Option EnginePkt) := []
  /-- Accesses made in the held back-port grant, where the core keeps its request (R351). -/
  grant : BitVec 5 := 0
  /-- The state to which a core stopped by a rewind returns (R361). -/
  stopFrom : Option (BitVec 2) := none
  dbg : CoreDbg := {}
  deriving DecidableEq, Repr

/-- A canvas cell's own state (R145–R149): the accumulator, the latches, the Y0 hold register, and the tokens on its outputs
that no receiver has taken. -/
structure Cell where
  acc : BitVec 16 := 0
  q : BitVec 16 := 0
  hold : BitVec 16 := 0
  y0 : Option (BitVec 16) := none
  y1 : Option (BitVec 16) := none
  f : Option (BitVec 4) := none
  /-- RSVD_OPC has been counted for a default entry that is reserved (R151). -/
  counted : Bool := false
  /-- A retouch clamp holds the cell (R229). -/
  clamped : Bool := false
  /-- A FORK whose input A waits for both outputs (R150). -/
  owed : Bool := false
  /-- The latch clock stands at its active level (R161, R162). -/
  clk : Bool := false
  /-- The token that waits for full MERGE log buffers has been counted (R153). -/
  waited : Bool := false
  deriving DecidableEq, Repr

/-- A MERGE log slot (R153): the cell that last wrote to it and its decisions of the cycle, the first at the head. -/
structure MergeSlot where
  cell : CellNo := 0
  bits : List Bool := []
  deriving DecidableEq, Repr

/-- An FIO or UIO cell (R175–R180): its queues (for UIO, its one token), its pin's driven level and driver, the pending edge
count, and the delays that a write of FIO_DLY moves. -/
structure IoCell where
  inQ : List (BitVec 16) := []
  outQ : List (BitVec 16) := []
  level : Bool := false
  driven : Bool := false
  /-- The level last seen at the pin (R176). -/
  pin : Bool := false
  edges : BitVec 4 := 0
  dly : BitVec 16 := 0
  deriving DecidableEq, Repr

/-- A region: its register window and what the window does not show. -/
structure Region where
  /-- Register words of the window, by offset; an unlisted register reads its reset word (R474). -/
  regs : SMap Word := []
  /-- Stroke word s of BP b of cluster c at key (64 c + b) 2048 + s (R64). -/
  strokes : SMap (BitVec 112) := []
  /-- Start value i of cluster c at key 28 c + i (R82). -/
  startv : SMap Entry := []
  clusters : SMap Cluster := []
  dmem : SMap Entry := []
  ring : SMap Entry := []
  /-- Words of either memory that hold an error which an earlier read has met and not mended: word A of design memory at key A, word w of
  the ring at key 524288 + w (R109, R111). -/
  upsets : SMap Ecc := []
  fix : FixEngine := {}
  /-- Front port (R101): the next place of the order list, the takes of the cycle, and the accesses in flight. -/
  mpos : BitVec 13 := 0
  takes : BitVec 13 := 0
  front : List FrontAcc := []
  /-- Bundles in the scheduled-plane injection, the oldest first (R95). -/
  inject : List Bundle := []
  arb : Arbiter := {}
  rwd : Rewind := {}
  easels : SMap Easel := []
  /-- Configuration blocks and state of the canvas cells, by cell (R144). -/
  canvas : SMap (BitVec 2048) := []
  cells : SMap Cell := []
  /-- MERGE log slots (R153). -/
  mlog : SMap MergeSlot := []
  /-- Outbound lane k of junction n at key 4 n + k: the token that no receiver has taken (R170). -/
  lanes : SMap (Option (BitVec 16)) := []
  /-- FIO local pin i at key i, UIO local pin u at key 8 + u (R173). -/
  io : SMap IoCell := []
  /-- Disabled segments, as CNV.FIGHT_AT numbers them, and whether FIGHT_AT holds the first since the last clear (R167). -/
  disabled : List SegAt := []
  fightSeen : Bool := false
  /-- The reset that RESET_BUSY shows ends an isolation (R501). -/
  releasing : Bool := false
  /-- The drain has ended and the reset waits for a restore or a retouch (R25). -/
  resetDue : Bool := false
  /-- A load has configured the region (R108, CFG). -/
  configured : Bool := false
  /-- The package has entered USER since the region was configured (R207). -/
  live : Bool := false
  /-- The status token on the retouch endpoint (R221). -/
  rtcStatus : Option (BitVec 4) := none
  /-- The SUB of the isolation in force (R458, R459). -/
  isoSub : BitVec 4 := 0
  /-- The word whose error isolated the region, in its table (R458). -/
  isoWord : BitVec 12 := 0
  deriving DecidableEq, Repr

/-- A job's state beside the job table (R40, R49, R50). -/
structure JobState where
  /-- The START tick that arms the job (R40, R210). -/
  start : Option (BitVec 48) := none
  /-- The resume tick S (R50). -/
  resumeAt : Option (BitVec 48) := none
  /-- The hold cycle H of a hold in progress, in full (R49). -/
  hold : Option (BitVec 48) := none
  /-- FIX_TICKS as the fix engines read it at START or at resume (R41). -/
  ticks : BitVec 24 := 0
  /-- The package returned to RUN before the hold of its entry to HOLD was complete: the job resumes once it is HELD (R435). -/
  byPackage : Bool := false
  deriving DecidableEq, Repr

/-- The meridian receiver beside the MER registers (R31–R38, R54). -/
structure Meridian where
  /-- The package tick count MER.TICK. -/
  tick : BitVec 48 := 0
  /-- Ticks of the tick oscillator, which no realignment steps: the model's measure of time between two moments (R47). -/
  elapsed : BitVec 48 := 0
  /-- A valid mark that disagreed, as its difference from the count that it was compared with (R35, R54). -/
  odd : Option (BitVec 48) := none
  /-- The difference a slew has not removed yet (R54), signed. -/
  slew : BitVec 48 := 0
  /-- MER.CTRL.SRC switched to ALT_PORT by R38. -/
  onAlt : Bool := false
  /-- The switch waits for the first TICK frame from ALT_PORT (R38). -/
  switching : Bool := false
  /-- Ports that have met the link loss criterion since their last TICK frame (R303). -/
  missed : BitVec 6 := 0
  /-- Hops of the relayed source (R301). -/
  hops : BitVec 8 := 0
  /-- The next tick is omitted by a slew (R54). -/
  omitted : Bool := false
  /-- Ports that deliver TICK frames that are not reckoned (R38). -/
  alive : BitVec 6 := 0
  /-- The last tick that a TICK frame of the source was dated to, count and moment in 2^-16 ns (R302), and the port that brought it; the
  last one whose count was not ignored (R35), and the first such one of the mark frame in progress (R52). -/
  dated : Option (BitVec 48 × Int) := none
  datedOn : BitVec 3 := 0
  agreed : Option (BitVec 48 × Int) := none
  frame0 : Option (BitVec 48 × Int) := none
  /-- Periods between the ticks dated since the reference was last lost, at most 1,024, the newest last (R33, R302). -/
  periods : List Word := []
  /-- By port, the moment of the last TICK frame or of the last interval that is counted as missed, by `elapsed`, and how many have been
  counted since that frame (R303). -/
  heardAt : SMap (Option (BitVec 48)) := []
  lateBy : SMap Nat := []
  /-- Successive TICK frames that imply a period more than 1 % off (R303). -/
  offs : BitVec 2 := 0
  /-- Time since the package reset, in 2^-16 ns: the block's own time base. -/
  time : Nat := 0
  deriving DecidableEq, Repr

/-- A packet in the transmit queue of an Oxdon port: how many of its flits have been launched (0 is the header), and whether it is
a locally made response of the port's ingress (R293). -/
structure TxPacket where
  packet : Packet
  own : Bool := false
  gone : Nat := 0
  deriving DecidableEq, Repr

/-- A packet that an Oxdon port is receiving on a VC: its header, and the data flits so far (R283). -/
structure RxPacket where
  head : Packet
  left : Nat
  deriving DecidableEq, Repr

/-- A lane operation of R296: the operation, the physical receive lane, the codeword at which it takes effect, and whether it
concerns this end's receive direction. -/
structure LaneOp where
  op : BitVec 4
  lane : BitVec 4
  at_ : BitVec 48
  rx : Bool
  deriving DecidableEq, Repr

/-- An Oxdon port beside its LNK registers (R278–R303). -/
structure Port where
  /-- Training failures in a row (R278). -/
  fails : BitVec 2 := 0
  /-- The roles of the transmit lanes, as LNK.LANE.ROLE gives them for receive lanes (R279, R296). -/
  txRole : SMap (BitVec 4) := []
  /-- Port name and unique ID of the peer, from its training words (R278). -/
  peer : Option (BitVec 3 × BitVec 64) := none
  /-- Stream bits that wait for a whole codeword, and how many; the count c of the next codeword; the codewords that the last frame completed,
  by count and message (R276, R277). -/
  rest : Nat := 0
  restLen : Nat := 0
  cw : BitVec 48 := 0
  words : List (BitVec 48 × BitVec 5140) := []
  /-- The codeword that is being received, and how many of its stream bits have come (R277, R296). -/
  rxCw : BitVec 48 := 0
  rxLen : Nat := 0
  /-- The sequence state is kept through a retrain (R289). -/
  keep : Bool := false
  /-- Next SEQ to assign; next SEQ expected (R285, R286). -/
  seq : BitVec 12 := 0
  exp : BitVec 12 := 0
  /-- Unreleased sequenced frames, the oldest first; the read point, as an index into them; the ACK of a NAK whose rewind is in
  progress (R286). -/
  replay : List (BitVec 544) := []
  readAt : Nat := 0
  rewound : Option (BitVec 12) := none
  /-- Rewinds by timeout without an advance (R287). -/
  tries : BitVec 8 := 0
  /-- A NAK is outstanding; one is to be sent (R285). -/
  nakOut : Bool := false
  nakDue : Bool := false
  /-- Frame position in the round; positions since the last CTRL frame; the acknowledgement or credits have changed since (R292). -/
  pos : BitVec 6 := 0
  sinceCtrl : BitVec 9 := 0
  ackNew : Bool := false
  /-- Cumulative credits: flits sent and credited per VC, bundles sent and credited per parity; flits and bundle places freed
  here (R284). -/
  txVc : SMap (BitVec 16) := []
  peerVc : SMap (BitVec 16) := []
  txPar : SMap (BitVec 16) := []
  peerPar : SMap (BitVec 16) := []
  rxVc : SMap (BitVec 16) := []
  rxPar : SMap (BitVec 16) := []
  /-- Bundles launched and not credited yet, by parity: the regions that sent them count them as accepted then (R45). -/
  inFlight : SMap (List Bundle) := []
  /-- Packets and bundles that wait at the transmitter (R290, R292), the VC that is next in rotation; a TICK frame is due. -/
  txPkt : SMap (List TxPacket) := []
  txSched : List Bundle := []
  turn : BitVec 2 := 0
  tick : Bool := false
  /-- Packets that are being received, by VC (R283). -/
  rxPkt : SMap (Option RxPacket) := []
  /-- TS_TX of the last CTRL frame received, and when it arrived; TS_TX of CTRL frames sent that the peer may still echo; the samples of the
  link delay, doubled, the newest last (R284, R302). -/
  echo : BitVec 32 := 0
  echoAt : BitVec 32 := 0
  sentTs : List (BitVec 32) := []
  samples : List (BitVec 32) := []
  /-- CTRL frames sent and received in CALIB, up to 256, and the RESUME and EXP of the last one received (R278, R289). -/
  ctrlOut : BitVec 9 := 0
  ctrlIn : BitVec 9 := 0
  peerSeq : Option (Bool × BitVec 12) := none
  /-- The lane operation that this end proposes; the answer, QUIET or WAKE that it has to send; the operations that are agreed and take effect
  at their codewords; lanes declared faulty that wait for their turn (R296, R299). -/
  propose : Option LaneOp := none
  reply : Option LaneOp := none
  agreed : List LaneOp := []
  faulty : List (BitVec 4) := []
  /-- Moments, in ns, of the symbols corrected on a receive lane within the last 1 ms (R296). -/
  ser : SMap (List Nat) := []
  /-- Requests of the ingress, with their causes, that are refused as soon as one of the 32 places for responses frees (R293). -/
  due : List (Packet × BitVec 5) := []
  /-- Active and shadow receive maps, by LSTREAM (R291). -/
  map : SMap Word := []
  shadow : SMap Word := []
  /-- The frame last launched: what stands at the transmitter's output. -/
  out : Option (BitVec 544) := none
  /-- What each physical transmit lane sent with it, as levels 0–3 for −3, −1, +1 and +3; the level that each lane sent last, which the
  precoder holds (R274, R276). -/
  sent : SMap (List (BitVec 2)) := []
  level : SMap (BitVec 2) := []
  deriving DecidableEq, Repr

/-- The compass sweep beside the FAB registers (R308–R321). -/
structure Fabric where
  /-- Which sizes are known, by dimension (R312). -/
  known : BitVec 3 := 0
  /-- ORIGIN to pass on, by dimension; 0 is unknown (R312). -/
  origin : SMap Entry := []
  /-- The class of the adopted lodestar: 0 is none (R311). -/
  lclass : BitVec 2 := 0
  /-- Ring tables: link i of dimension d at key 16 d + i, as [0] DOWN and [5:1] AGE (R317). -/
  ring : SMap (BitVec 6) := []
  /-- The latest DISCOVER received on each port: its ring entries, its CV, its LUID, and its coordinate (R309, R314, R317). -/
  heard : SMap (Option Packet) := []
  /-- The last 8 STARTs seen: tick, JOB and ALL (R320). -/
  starts : List (BitVec 128) := []
  /-- A FABRIC_RESET whose 5 µs run (R321). -/
  resetDue : Bool := false
  deriving DecidableEq, Repr

/-- An entry of the helm's tracking table (R452); times in ms since the package reset. -/
structure Track where
  src : BitVec 5
  loc : BitVec 3
  key : Word
  count : BitVec 9
  /-- In ms since the package reset. -/
  first : Nat
  deriving DecidableEq, Repr

/-- An entry of the scrubber's tracking table (R239). -/
structure FrameTrack where
  rg : Rg
  cell : CellNo
  count : BitVec 8
  /-- In ms since the package reset. -/
  first : Nat
  deriving DecidableEq, Repr

/-- The scrubber (R235, R236): walker positions by region, the regions that have completed the pass in progress, and the
tracking table. -/
structure Scrubber where
  cnv : SMap (BitVec 10) := []
  mem : SMap (BitVec 20) := []
  cnvDone : BitVec 64 := 0
  memDone : BitVec 64 := 0
  tracks : List FrameTrack := []
  deriving DecidableEq, Repr

/-- A copy of a ground in the profile flash (R212, R213): its header, its bytes as 4-byte words by offset / 4, and its powered
hours (R216). `wrapped` 0 is none. -/
structure GroundCopy where
  commit : Bool := false
  seq : Word := 0
  digest : BitVec 384 := 0
  length : Nat := 0
  wrapped : BitVec 384 := 0
  bytes : SMap Word := []
  hours : Word := 0
  deriving DecidableEq, Repr

/-- The profile flash (R20, R212, R446, R462, R468): the boot count, the copies (copy c of slot n at key 2 n + c), the repair map
and its SEQ, the skip record, powered hours, and the saved slowdown by quadrant. -/
structure Flash where
  boots : Word := 0
  copies : SMap GroundCopy := []
  repairs : List (BitVec 64) := []
  seq : Word := 0
  skip : Option Word := none
  hours : Word := 0
  slow : SMap (BitVec 10) := []
  /-- Powered hours when each quadrant's slowdown was last saved (R446). -/
  slowAt : SMap Word := []
  deriving DecidableEq, Repr

/-- The hub fuses (R196, R419). -/
structure Fuses where
  hashes : SMap (BitVec 384) := []
  programmed : BitVec 4 := 0
  revoked : BitVec 4 := 0
  testDisable : Bool := false
  deriving DecidableEq, Repr

/-- What the bitstream that is coming in is (R200, R214). -/
inductive LoadKind where
  | none | full | retouch | ground (slot : BitVec 2)
  deriving DecidableEq, Repr

/-- The section in progress (R191): the offset of its payload and the plaintext bytes processed. -/
structure Section where
  typ : BitVec 8
  enc : Bool
  count : Word
  len : Nat
  nonce : BitVec 64
  start : Nat
  done : Nat := 0
  deriving DecidableEq, Repr

/-- The loader (R200, R201, R203): staged 4-byte words by offset / 4, the path (0 none, 1 flash, 2 Oxdon, 3 I3C), the processing
point, the next FIFO offset, the sections found, the section in progress, SETTINGS held for finishing as (ADDR, MASK, VALUE), the
regions that a record named (R27), the ground slot that a GROUND_WRITE waits to fill, the wrapped key for it, and the flash copy
that a ground load or a ground write uses. -/
structure Loader where
  stage : SMap (Option Word) := []
  kind : LoadKind := .none
  path : BitVec 2 := 0
  point : Nat := 0
  fifo : Nat := 0
  sections : Nat := 0
  sec : Option Section := none
  settings : List (Word × Word × Word) := []
  touched : BitVec 64 := 0
  armed : Option (BitVec 2) := none
  /-- Ports for which the load has brought a SLOT record (R294). -/
  slots : BitVec 6 := 0
  copy : Bool := false
  fallback : Bool := false
  /-- The lower half of a 4-byte word, from a retouch endpoint (R221). -/
  half : Option (BitVec 16) := none
  deriving DecidableEq, Repr

/-- A segment of a track (R163): its direction (Y or X), class (0 W16, 1 W4, 2 W1, 3 single), index, first position, place across,
and the region block along its direction to which it is cut. -/
structure Seg where
  y : Bool
  cls : Nat
  t : Nat
  start : Nat
  across : Nat
  blk : Nat
  deriving DecidableEq, Repr

/-- What drives a segment at a box: a cell output (`which`: 0 Y0, 1 Y1, 2 F, 3 the LUT outputs O, 4 the latches Q), an outbound junction lane,
an I/O cell, or another segment. -/
inductive Drive where
  | out (rg : Rg) (n : CellNo) (which : Nat)
  | lane (rg : Rg) (n k : Nat)
  | io (rg : Rg) (i : Nat)
  | seg (g : Seg)
  /-- The retouch endpoint of a region, which sends its status tokens (R221). -/
  | status (rg : Rg)
  deriving DecidableEq, Repr

/-- The retouch port (R221–R234): the node or the region that the partial comes from, the readback in progress and those that wait
(R232). -/
structure Retouch where
  node : Option Node := none
  endpoint : Option Rg := none
  /-- Outgoing bundles of the clamped rectangle have been forced to the spacer (R229). -/
  forced : Bool := false
  /-- Clamps are closed on a rectangle; the sources inside it whose tokens still stand on outgoing bundles since then; the sources outside whose
  tokens stand on bundles through it and that no receiver has taken since; and how many such bundles carry a token. -/
  cut : Bool := false
  leaving : List Drive := []
  through : List Drive := []
  carried : Nat := 0
  /-- Levels that SCLAMP = 0 holds at single segments while the clamps are closed (R229). -/
  held : SMap (Option Bool) := []
  /-- The project keys with which the partial was decrypted as it was checked (R224). -/
  keys : SMap (BitVec 288) := []
  /-- The apply in progress keeps the fix engine of its region from stroke 0 (R226). -/
  holds : Bool := false
  /-- It holds the region's cores in reset (R228). -/
  cores : Bool := false
  rb : Option (BitVec 2 × Rg) := none
  rbQueue : List (BitVec 2 × Rg) := []
  deriving DecidableEq, Repr

/-- What follows the drain of an ingress (R262): nothing is under way, a reset, the entry to a state, an orderly shutdown; `hold` waits for
the jobs to be HELD before an entry (R435, R436), `gate` is its gate step. -/
inductive Drain where
  | none | reset | hold (st : BitVec 3) | enter (st : BitVec 3) | gate (st : BitVec 3) | shutdown
  deriving DecidableEq, Repr

/-- Commands of the AVSBus controller to a rail (R444): target voltage write with commit, in mV; transition rate write, in 0.1 mV/µs; the
reads. -/
inductive AvsOp where
  | target (mv : BitVec 10) | rate (r : BitVec 8) | voltage | current | temperature | status
  deriving DecidableEq, Repr

/-- Where the package stands between power and USER (R427, R428, R443): `noPower` while VHUB or VFL is out of its range. -/
inductive Boot where
  | helmBoot | selfTest | calibration | up | resetLow | noPower | thermal
  deriving DecidableEq, Repr

/-- The helm's power control (R426–R447): the boot step, quadrants' own states, drains by quadrant and (key 4) for the package, an
exit in progress, the source of a wake that arrived from the gate step on, the cap seen exceeded in the last interval (R440), calm
intervals (R441), quadrants that stay FAULT (R445), quadrants whose exit from DOZE runs, the step of an orderly shutdown (R447),
the cause of the next package reset. -/
structure PowerCtl where
  boot : Boot := .helmBoot
  own : SMap (BitVec 3) := []
  drains : SMap Drain := []
  exiting : Bool := false
  wakeDue : Option (BitVec 3) := none
  capOver : Bool := false
  calm : BitVec 4 := 0
  locked : BitVec 4 := 0
  shutdown : BitVec 2 := 0
  cause : BitVec 3 := 0
  /-- Minutes' fractions of the powered hour, in µs (R446). -/
  hourUs : Word := 0
  /-- The state below RUN that PWR.CMD names while an exit or a gate step is under way (R436). -/
  goal : Option (BitVec 3) := none
  /-- The commands that the helm last issued to rail selector q (R444). -/
  avs : SMap (List AvsOp) := []
  /-- VFL is out of its range (R427, R497); VHUB is (R427). -/
  vflOut : Bool := false
  vhubOut : Bool := false
  /-- The state that PWR.QCTRL names for a quadrant while its gate step or its reset is under way, 0 for WAKE (R438). -/
  qGoal : SMap (Option (BitVec 3)) := []
  /-- Banks whose supply is below its range, FIO bank q at bit 2 q and UIO bank q at bit 2 q + 1 (R492). -/
  lowBanks : BitVec 8 := 0
  /-- Quadrants that sleep emulation keeps powered and clocked in the state they report (R421). -/
  kept : BitVec 4 := 0
  /-- The times of each quadrant's supply faults of the last second, in ns since the package reset (R445). -/
  faults : SMap (List Nat) := []
  /-- The entry under way was chosen under AUTO (R433). -/
  auto : Bool := false
  /-- A canvas cell has completed a handshake since PWR.IDLE was last judged (R432). -/
  handshake : Bool := false
  deriving DecidableEq, Repr

/-- BIST (R460–R466): regions whose in-service test is queued, regions whose pass in progress is on demand, entries of FLT.BIST_LOG
written since FLT.BIST_STAT was read, repairs that act but are not stored. -/
structure Bist where
  queued : BitVec 64 := 0
  demand : BitVec 64 := 0
  /-- Regions whose on-demand test waits to start or to continue (R460, R464). -/
  asked : BitVec 64 := 0
  /-- Regions with an unrepaired failure in the in-service pass in progress or broken off. -/
  bad : BitVec 64 := 0
  /-- The same for the on-demand pass. -/
  badAsked : BitVec 64 := 0
  /-- Regions whose step in progress began outside the conditions of R461. -/
  unsound : BitVec 64 := 0
  /-- The blocks tested in the pass in progress or broken off, of a region in service; in the on-demand pass at 64 more (R463). -/
  tested : SMap (BitVec 1218) := []
  /-- Regions whose logic step an event of a core has broken off, until its state is restored (R464). -/
  broken : BitVec 64 := 0
  /-- When BIST of the whole package began, and by die, the hub at 4, from when to when the conditions of R461 have not held since. -/
  began : Nat := 0
  lost : SMap (List (Nat × Option Nat)) := []
  /-- The macro or logic block of each region under test whose contents its spare bank holds (R463, R465). -/
  bank : SMap (Option (BitVec 11)) := []
  logged : Nat := 0
  unstored : List (BitVec 64) := []
  /-- PWR.HOURS at each region's last complete pass (R463). -/
  passed : SMap (Option Word) := []
  deriving DecidableEq, Repr

/-- The I3C target beside the HIF registers (R380–R389): limits, the protocol-error bit of GETSTATUS, classes whose IBI is requested and
not accepted, a Hot-Join that is due, and the bytes that the target last sent. -/
structure I3c where
  mwl : BitVec 16 := 133
  mrl : BitVec 16 := 128
  protoErr : Bool := false
  ibiDue : Word := 0
  joinDue : Bool := false
  /-- An HDR entry that the target does not support or does not accept: it ignores the bus until the HDR exit pattern (R380). -/
  deaf : Bool := false
  out : List (BitVec 8) := []
  /-- The bytes held of a READ whose words are not all there (R385). -/
  held : List (BitVec 8) := []
  /-- The first failing result of the transfer in progress, and the word it fell on (R386). -/
  res : BitVec 3 := 0
  at_ : BitVec 5 := 0
  deriving DecidableEq, Repr

/-- A word access that has been put on the helm bus and is not complete (R368, R387): the address, the word to write, the path, for an
I3C transfer the word's place in it, for the debug port DBG.REQ as it stood at the start (R410) and what the check of a
memory word finds, and the request whose turn it is where it came over Oxdon to UNIT 0x38. -/
structure BusAccess where
  addr : BitVec 40
  write : Option Entry
  who : Writer
  index : BitVec 5 := 0
  req : BitVec 16 := 0
  ecc : Ecc := .clean
  turn : Option Packet := none
  deriving DecidableEq, Repr

/-- The hub GPIO beside its registers (R394–R401): pad levels, parked pins, the function each pin has, UART queues, the SPI byte in
transfer, pending counts of the pin-interrupt lines, and the capture that CAP_LO and CAP_HI show. -/
structure Gpio where
  pads : BitVec 12 := 0
  parked : BitVec 12 := 0xFFF
  /-- Every pin stays parked from a package reset until SETTINGS are applied (R399). -/
  held : Bool := true
  periph : BitVec 12 := 0
  uartRx : List (BitVec 8) := []
  uartTx : List (BitVec 8) := []
  spi : Option (BitVec 8) := none
  lines : SMap (BitVec 4) := []
  capture : BitVec 48 := 0
  /-- Microseconds since the last falling edge of each fan's tachometer, to 65,535 (R401). -/
  tach : SMap (BitVec 16) := []
  deriving DecidableEq, Repr

/-- The debug port beside the DBG registers (R404–R423): a wake sequence seen, the line ignored after an unanswered header, read data
held, the private latches of quiet reads, a test entry that is armed, a fed instruction that stalls with what its memory check
finds, and what the port last drove: acknowledge, data, and the XOR of the data bits (R405). -/
structure Debug where
  synced : Bool := false
  ignoring : Bool := false
  held : Option Entry := none
  tickHi : BitVec 16 := 0
  capHi : BitVec 16 := 0
  armed : Option (BitVec 2) := none
  /-- When it was armed, in ns since the package reset (R419). -/
  armedAt : Nat := 0
  testing : Option (BitVec 2) := none
  fed : Option (Rg × CoreNo × Word × Ecc) := none
  ack : BitVec 3 := 7
  out : Word := 0
  par : Bool := false
  deriving DecidableEq, Repr

/-- The state of the package. -/
structure State where
  /-- Commands that wait, the first to act at the head. -/
  pending : List Instr := []
  /-- Register words of the hub blocks, by package address; an unlisted register reads its reset word (R472). -/
  regs : SMap Word := []
  /-- Regions by 16 q + g. -/
  rgns : SMap Region := []
  jobs : SMap JobState := []
  mer : Meridian := {}
  /-- Fault-queue keys by location, as (source, key), the oldest first (R451). -/
  faultQ : SMap (List (BitVec 5 × Word)) := []
  /-- Events that have come to one event crossing or queue since time last moved: that time, and how many. Key 32 l + s is the crossing of fault
  source s at location l (R451), key 256 + q the queue of taint log q (R456). -/
  bursts : SMap (Nat × Nat) := []
  /-- Taint logs: word w of entry i of quadrant q at key 4096 q + 4 i + w (R454). -/
  taints : SMap Word := []
  /-- Packets at the inputs of the packet plane, the oldest first: input i and virtual channel v of element e at key
  (32 e + i) 4 + v (R255); elements 0–63 are the routers, 64–67 the quadrant switches, 68 the hub switch. -/
  net : SMap (List Packet) := []
  /-- By key of `net`: the inputs behind, the nearest first, at which flits of the last packet there may still stand (R255). -/
  trail : SMap (List Nat) := []
  /-- Keys of `net`, one for each packet there, in the order in which the packets' headers arrived (R264). -/
  order : List Nat := []
  /-- Times, in ns, of the corrections of the last ms that pointed at wire w of D2D receiver n, at key 512 n + w (R246): receiver
  3 q + l is that of link l at quadrant q, 12 + q the hub's. -/
  wires : SMap (List Nat) := []
  /-- Packets that have left the network at their target or requester and are not taken yet. -/
  arrived : List Packet := []
  /-- Bundles at the inputs of the scheduled plane (R267): input i and parity p of element e at key (32 e + i) 2 + p; the LOCAL
  output of a router at i = 31. -/
  sched : SMap (List Bundle) := []
  /-- Outstanding request tags: tag t of the requester with node address bits n at key 128 n + t (R254). -/
  tags : SMap Bool := []
  /-- Oxdon ports (R272). -/
  ports : SMap Port := []
  fab : Fabric := {}
  /-- Training failures in a row of D2D link l of quadrant q at key 3 q + l, a ring link at its clockwise end (R247). -/
  d2dFails : SMap (BitVec 2) := []
  /-- Scopes whose ingress refuses (R262): bit q a quadrant, bit 4 the package. -/
  refusing : BitVec 5 := 0
  /-- The region to which a retouch apply is in progress (R228). -/
  applying : Option Rg := none
  /-- The shared library: byte b of the copies of quadrant q at 0x8000 q + b (R356). -/
  library : Mem := []
  /-- Hub SRAM, by byte (R17). -/
  sram : Mem := []
  /-- Region fixes in the budget window of quadrant q (R60). -/
  windowFixes : SMap Nat := []
  tracks : List Track := []
  flash : Flash := {}
  fuses : Fuses := {}
  /-- Project key slots: key and, above it, KEY_ID; 0 is empty (R198). -/
  keys : SMap (BitVec 288) := []
  load : Loader := {}
  rtc : Retouch := {}
  scr : Scrubber := {}
  pwr : PowerCtl := {}
  bist : Bist := {}
  i3c : I3c := {}
  /-- Accesses on the helm bus, in their order of arrival; the first hangs (R368, R387). -/
  bus : List BusAccess := []
  gpio : Gpio := {}
  dbg : Debug := {}
  /-- The count of values drawn from `Config.freeBits`: the model's own field. -/
  drawn : Nat := 0
  deriving DecidableEq, Repr

/-- The machine right after reset: every register at its reset word, every store empty, the queue empty. -/
def State.reset : State := {}

end Sys2Proof.Machine
end

