-- ==== Sys2Proof/Machine/Ops.lean ====
section
/-! DEFINITION. The named operations over registers, stores and regions that the meanings share. -/

namespace Sys2Proof.Machine

/-! ### Fields of a register word -/

/-- The value of the field `f` in the word `v`. -/
def Fld.of (f : Fld) (v : Word) : Nat := v.toNat / 2 ^ f.lo % 2 ^ f.w

/-- The word `v` with the field `f` at `n` modulo the field's width. -/
def Fld.put (f : Fld) (v : Word) (n : Nat) : Word :=
  BitVec.ofNat 32 (v.toNat % 2 ^ f.lo + 2 ^ f.lo * (n % 2 ^ f.w) + 2 ^ (f.lo + f.w) * (v.toNat / 2 ^ (f.lo + f.w)))

/-- The largest value of the field. -/
def Fld.max (f : Fld) : Nat := 2 ^ f.w - 1

/-! ### Hub registers -/

/-- The word of the hub register at package address `a`. -/
def State.reg (s : State) (a : Nat) : Word := SMap.get (hubReset a) s.regs a

/-- The state with the hub register at `a` holding `v`. -/
def State.setReg (s : State) (a : Nat) (v : Word) : State := { s with regs := SMap.set (hubReset a) s.regs a v }

/-- A field of a hub register. -/
def State.f (s : State) (f : Fld) : Nat := f.of (s.reg f.off)

/-- The state with a field of a hub register at `n`. -/
def State.setF (s : State) (f : Fld) (n : Nat) : State := s.setReg f.off (f.put (s.reg f.off) n)

/-- A one-bit field as a truth value. -/
def State.bit (s : State) (f : Fld) : Bool := s.f f != 0

/-- A hub counter raised by `k`, held at its maximum (the registers' counters saturate). -/
def State.bump (s : State) (f : Fld) (k : Nat) : State := s.setF f (min (s.f f + k) f.max)

/-- A 48-bit value held in a LO and a HI register. -/
def State.get48 (s : State) (lo hi : Nat) : BitVec 48 := BitVec.ofNat 48 ((s.reg lo).toNat + 2 ^ 32 * (s.reg hi).toNat)

/-- The state with a 48-bit value in a LO and a HI register. -/
def State.set48 (s : State) (lo hi : Nat) (v : BitVec 48) : State :=
  (s.setReg lo (v.truncate 32)).setReg hi (BitVec.ofNat 32 (v.toNat / 2 ^ 32))

/-! ### Regions and their registers -/

/-- Region `rg`. -/
def State.rgn (s : State) (rg : Rg) : Region := SMap.get {} s.rgns rg.toNat

/-- The state with region `rg` as `r`. -/
def State.setRgn (s : State) (rg : Rg) (r : Region) : State := { s with rgns := SMap.set {} s.rgns rg.toNat r }

/-- The state with `g` applied to region `rg`. -/
def State.onRgn (s : State) (rg : Rg) (g : Region → Region) : State := s.setRgn rg (g (s.rgn rg))

/-- The word of the region register at window offset `a`. -/
def Region.reg (r : Region) (a : Nat) : Word := SMap.get (rgnReset a) r.regs a

def Region.setReg (r : Region) (a : Nat) (v : Word) : Region := { r with regs := SMap.set (rgnReset a) r.regs a v }

/-- A field of a region register. -/
def Region.f (r : Region) (f : Fld) : Nat := f.of (r.reg f.off)

def Region.setF (r : Region) (f : Fld) (n : Nat) : Region := r.setReg f.off (f.put (r.reg f.off) n)

def Region.bit (r : Region) (f : Fld) : Bool := r.f f != 0

def Region.bump (r : Region) (f : Fld) (k : Nat) : Region := r.setF f (min (r.f f + k) f.max)

def Region.get48 (r : Region) (lo hi : Nat) : BitVec 48 := BitVec.ofNat 48 ((r.reg lo).toNat + 2 ^ 32 * (r.reg hi).toNat)

def Region.set48 (r : Region) (lo hi : Nat) (v : BitVec 48) : Region :=
  (r.setReg lo (v.truncate 32)).setReg hi (BitVec.ofNat 32 (v.toNat / 2 ^ 32))

/-- A field of a register of region `rg`. -/
def State.rf (s : State) (rg : Rg) (f : Fld) : Nat := (s.rgn rg).f f

def State.setRf (s : State) (rg : Rg) (f : Fld) (n : Nat) : State := s.onRgn rg (fun r => r.setF f n)

def State.rbit (s : State) (rg : Rg) (f : Fld) : Bool := s.rf rg f != 0

def State.bumpR (s : State) (rg : Rg) (f : Fld) (k : Nat) : State := s.onRgn rg (fun r => r.bump f k)

/-- All 64 regions. -/
def allRegions : List Rg := (List.range 64).map (BitVec.ofNat 6)

/-- The quadrant of a region and its number within it (R14, R390). -/
def quadOf (rg : Rg) : Nat := rg.toNat / 16
def numOf (rg : Rg) : Nat := rg.toNat % 16

/-- The first region of a quadrant, which holds the quadrant's own registers (R474). -/
def quadHome (q : Nat) : Rg := BitVec.ofNat 6 (16 * q)

/-- The regions of a quadrant. -/
def quadRegions (q : Nat) : List Rg := (List.range 16).map (fun g => BitVec.ofNat 6 (16 * q + g))

/-- The quadrant is above DOZE, or sleep emulation keeps its clocks (R421). -/
def State.quadClocked (s : State) (q : Nat) : Bool :=
  decide (s.f (F.PWR_QSTAT_STATE q) ≤ 1) || (s.pwr.kept.getLsbD q && decide (s.f (F.PWR_QSTAT_STATE q) ≤ 4))

/-- The region's clock runs (R358): its quadrant's clocks run and the region is not GATED. -/
def State.clocked (s : State) (rg : Rg) : Bool := s.quadClocked (quadOf rg) && decide (s.rf rg F.RGN_STATUS_CFG ≠ 3)

/-! ### Clusters -/

def Region.cl (r : Region) (c : Cl) : Cluster := SMap.get {} r.clusters c.toNat

def Region.setCl (r : Region) (c : Cl) (k : Cluster) : Region := { r with clusters := SMap.set {} r.clusters c.toNat k }

def State.cl (s : State) (rg : Rg) (c : Cl) : Cluster := (s.rgn rg).cl c

def State.setCl (s : State) (rg : Rg) (c : Cl) (k : Cluster) : State := s.onRgn rg (fun r => r.setCl c k)

def State.onCl (s : State) (rg : Rg) (c : Cl) (g : Cluster → Cluster) : State := s.setCl rg c (g (s.cl rg c))

/-- All 16 clusters of a region. -/
def allClusters : List Cl := (List.range 16).map (BitVec.ofNat 4)

/-- The region with `f` applied to each of its clusters. -/
def Region.mapCl (r : Region) (f : Cluster → Cluster) : Region := allClusters.foldl (fun r c => r.setCl c (f (r.cl c))) r

/-! ### Easel cores -/

def Region.eas (r : Region) (k : CoreNo) : Easel := SMap.get {} r.easels k.val

def Region.setEas (r : Region) (k : CoreNo) (e : Easel) : Region := { r with easels := SMap.set {} r.easels k.val e }

def State.eas (s : State) (rg : Rg) (k : CoreNo) : Easel := (s.rgn rg).eas k

def State.setEas (s : State) (rg : Rg) (k : CoreNo) (e : Easel) : State := s.onRgn rg (fun r => r.setEas k e)

def State.onEas (s : State) (rg : Rg) (k : CoreNo) (g : Easel → Easel) : State := s.setEas rg k (g (s.eas rg k))

/-- The three cores of a region. -/
def allCores : List CoreNo := [0, 1, 2]

/-- The node address of a unit of a region of this package (R16). -/
def State.node (s : State) (rg : Rg) (unit : Nat) : Node :=
  BitVec.ofNat 24 (4096 * s.f F.FAB_ID_COORD + 64 * rg.toNat + unit)

/-- The node address of a target on the hub die (R17). -/
def State.hubNode (s : State) (unit : Nat) : Node := BitVec.ofNat 24 (4096 * s.f F.FAB_ID_COORD + unit)

/-- The package coordinate, the region and the unit of a node address (R16). -/
def nodeCoord (n : Node) : Nat := n.toNat / 4096
def nodeRgn (n : Node) : Rg := BitVec.ofNat 6 (n.toNat / 64)
def nodeUnit (n : Node) : Nat := n.toNat % 64

/-! ### Jobs -/

def State.job (s : State) (j : Job) : JobState := SMap.get {} s.jobs j.toNat

def State.setJob (s : State) (j : Job) (x : JobState) : State := { s with jobs := SMap.set {} s.jobs j.toNat x }

/-- The job of a region, where the partition table gives it one (R15, R108). -/
def State.jobOf (s : State) (rg : Rg) : Option Job :=
  if s.rbit rg F.RGN_STATUS_IN_JOB then some (BitVec.ofNat 6 (s.rf rg F.RGN_STATUS_JOB)) else none

/-- The regions of job `j` on the package. -/
def State.jobRegions (s : State) (j : Job) : List Rg := allRegions.filter (fun rg => decide (s.jobOf rg = some j))

/-! ### Free values -/

/-- A fresh free value of width `w`, and the state with the count of draws advanced. -/
def State.draw (s : State) (w : Nat) : BitVec w × State := (Config.freeBits w s.drawn, { s with drawn := s.drawn + 1 })

/-! ### Times -/

/-- Time since the package reset, in ns. -/
def State.now (s : State) : Nat := s.mer.time / 65536

/-- The time at a moment `since` after the latest tick, `since` in 2^-16 ns: in ns, and in ms (R239, R452). -/
def State.nowAt (s : State) (since : Word) : Nat := (s.mer.time + since.toNat) / 65536
def State.msAt (s : State) (since : Word) : Nat := s.nowAt since / 1000000

/-- Signed order of tick counts: the signed 48-bit difference a − b (R32). -/
def tickDiff (a b : BitVec 48) : Int := (a - b).toInt

/-- The tick `a` lies at or before `b` (R32). -/
def tickLe (a b : BitVec 48) : Bool := decide (0 ≤ tickDiff b a)

/-! ### Interrupt classes, counters of faults, taint -/

/-- An event requests an IBI of class `cls` with LOC and ARG (R389): the first event of a class sets its pending bit and is
recorded; a further one is counted as coalesced. -/
def State.ibi (s : State) (cls loc arg : Nat) : State :=
  if (s.reg R.HIF_IBI_PEND).getLsbD cls then s.bump F.HIF_IBI_COAL_COALESCED 1
  else
    let s := s.setReg R.HIF_IBI_PEND (s.reg R.HIF_IBI_PEND ||| (1 <<< cls))
    let s := if (s.reg R.HIF_IBI_EN).getLsbD cls then { s with i3c := { s.i3c with ibiDue := s.i3c.ibiDue ||| (1 <<< cls) } } else s
    (s.setF (F.HIF_IBI_INFO_LOC cls) loc).setF (F.HIF_IBI_INFO_ARG cls) arg

/-- The LOC of a region event: 16 q + g (R390). -/
def locOf (rg : Rg) : Nat := rg.toNat

/-- The helm issues commands to a VQ rail over AVSBus (R444). -/
def State.issueAvs (s : State) (q : Nat) (l : List AvsOp) : State :=
  { s with pwr := { s.pwr with avs := SMap.set [] s.pwr.avs q l } }

/-- BIST of the whole package is running (R428, R447). -/
def State.packageTesting (s : State) : Bool :=
  decide (s.pwr.boot = .selfTest) || (decide (s.pwr.shutdown = 3) && s.bit F.PWR_CTRL_SHUT_BIST)

/-- A sensor reads at most 105 °C (R461). -/
def State.sensorCool (s : State) (i : Nat) : Bool :=
  decide ((BitVec.ofNat 8 (s.f (F.THM_SENSOR_TEMP i)) : BitVec 8).toInt ≤ 105)

/-- The conditions of R461 for start-up and shutdown BIST that the state shows, of a die, the hub being 4: VQ at 0.75 V ±15 mV, its sensors at
most 105 °C. -/
def State.dieSound (s : State) (k : Nat) : Bool :=
  if k < 4 then
    decide (735 ≤ s.f (F.PWR_QSTAT_VQ k)) && decide (s.f (F.PWR_QSTAT_VQ k) ≤ 765) && (List.range 16).all (fun g => s.sensorCool (16 * k + g))
  else s.sensorCool 64

/-- While BIST of the package runs, what changes those conditions is noted with its time. -/
def watchTest (s : State) : State :=
  if ¬ s.packageTesting then s
  else
    (List.range 5).foldl (fun (s : State) k =>
      let l := SMap.get [] s.bist.lost k
      let away := l.any (fun x => x.2.isNone)
      let l := if s.dieSound k && away then l.map (fun x => (x.1, some (x.2.getD s.now)))
        else if !s.dieSound k && !away then l ++ [(s.now, none)] else l
      { s with bist := { s.bist with lost := SMap.set [] s.bist.lost k l } }) s

/-- The helm sets the voltage of a VQ rail, in mV: it commits the target over AVSBus (R444). -/
def State.setVq (s : State) (q v : Nat) : State :=
  watchTest ((s.setF (F.PWR_QSTAT_VQ q) v).issueAvs q [.target (BitVec.ofNat 10 v)])

/-- AVS_CLK in MHz, and the transition rate in 0.1 mV/µs, as PWR.AVS_CFG acts (R444, R448). -/
def State.avsClock (s : State) : Nat := min 25 (max 5 (s.f F.PWR_AVS_CFG_MHZ))
def State.avsRate (s : State) : BitVec 8 := BitVec.ofNat 8 (max 1 (s.f F.PWR_AVS_CFG_RATE))

/-- An event comes to an event crossing or a queue with `places` places, and there is room for it. What came before time last moved has gone on by
then; of more than `places` that come together, which find room is free (R365, R456). -/
def State.findsRoom (s : State) (key places : Nat) : Bool × State :=
  let (t, n) := SMap.get (0, 0) s.bursts key
  let n := if t = s.mer.time then n else 0
  let s := { s with bursts := SMap.set (0, 0) s.bursts key (s.mer.time, n + 1) }
  if n < places then (true, s)
  else
    let (v, s) := s.draw 1
    (v == 1#1, s)

/-- An event of error source `src` at location `l` with its key (R450, R451): the hub counter rises, or the event crossing has overrun, which holds
one event on its way and 15 pending; the key enters the fault queue of the location or is lost. -/
def State.noteFault (s : State) (src l : Nat) (key : Word) : State :=
  let (room, s) := s.findsRoom (32 * l + src) 16
  let s := if room then s.bump (F.FLT_CNT_EVENTS src l) 1 else s.bump F.SEM_XSTAT_OVERRUN 1
  let q := SMap.get [] s.faultQ l
  if q.length < 64 then { s with faultQ := SMap.set [] s.faultQ l (q ++ [(BitVec.ofNat 5 src, key)]) }
  else s.setF F.FLT_STATUS_KEY_LOST 1

/-- A key packed from fields (value, width), the first from bit 0 upward (R450). -/
def packKey : List (Nat × Nat) → Nat
  | [] => 0
  | (v, w) :: t => v % 2 ^ w + 2 ^ w * packKey t

def faultKey (fs : List (Nat × Nat)) : Word := BitVec.ofNat 32 (packKey fs)

/-- The last fixed cycle of a region (R46, R63). -/
def Region.cycle (r : Region) : BitVec 48 := r.get48 R.FIX_CYCLE_LO R.FIX_CYCLE_HI

/-- The cycle a region is executing: the one after the last fixed cycle (R49). -/
def Region.executing (r : Region) : BitVec 48 := r.cycle + 1

/-- The fields of a taint entry that its cause gives (R454, R455). -/
structure Taint where
  cause : Nat
  cluster : Nat := 0
  stroke : Nat := 0
  bp : Nat := 0
  entry : Nat := 0
  detail : Nat := 0

/-- The region replays: MODE reads REPLAYING (R138). -/
def Region.replaying (r : Region) : Bool := r.f F.RWD_STATUS_MODE == 3

/-- The words of a taint entry of a region (R454). -/
def taintWords (s : State) (rg : Option Rg) (cycle : BitVec 48) (t : Taint) : List Word :=
  match rg with
  | none =>
    [0, BitVec.ofNat 32 (packKey [(0, 16), (t.cause, 4), (0, 10), (1, 1), (0, 1)]),
      BitVec.ofNat 32 (packKey [(t.stroke, 11), (t.bp, 6), (t.entry, 10)]),
      BitVec.ofNat 32 (packKey [(t.detail, 24), (0, 6), (1, 1)])]
  | some rg =>
    let j := s.jobOf rg
    let cyc := if j.isSome then cycle else 0
    [cyc.truncate 32,
      BitVec.ofNat 32 (packKey [(cyc.toNat / 2 ^ 32, 16), (t.cause, 4), (quadOf rg, 2), (numOf rg, 4), (t.cluster, 4), (0, 1),
        (if (s.rgn rg).replaying then 1 else 0, 1)]),
      BitVec.ofNat 32 (packKey [(t.stroke, 11), (t.bp, 6), (t.entry, 10)]),
      BitVec.ofNat 32 (packKey [(t.detail, 24), ((j.getD 0).toNat, 6), (if j.isSome then 0 else 1, 1)])]

/-- Words written at rising keys from `k`. -/
def putWords (m : SMap Word) (k : Nat) : List Word → SMap Word
  | [] => m
  | w :: t => putWords (SMap.set 0 m k w) (k + 1) t

/-- A taint entry goes to the log of its region's quadrant, or of quadrant 0 where it names no region (R454, R456): with
KEEP a full log loses it, and so does a full queue of 32. The entry is written whole, then TNT.PTR moves to it. -/
def State.taintAt (s : State) (rg : Option Rg) (cycle : BitVec 48) (t : Taint) : State :=
  let q := match rg with | some r => quadOf r | none => 0
  let n := s.f (F.TNT_COUNT_ENTRIES q)
  let (room, s') := s.findsRoom (256 + q) 32
  let s := s'
  if !room || s.bit F.TNT_CTRL_KEEP && decide (1024 ≤ n) then s.bump (F.TNT_LOST_LOST q) 1
  else
    let i := (s.f (F.TNT_PTR_NEWEST q) + 1) % 1024
    let s := { s with taints := putWords s.taints (4096 * q + 4 * i) (taintWords s rg cycle t) }
    let s := s.setF (F.TNT_PTR_NEWEST q) i
    let s := if 1024 ≤ n then s.setF (F.TNT_PTR_WRAPPED q) 1 else s
    let s := s.bump (F.TNT_COUNT_ENTRIES q) 1
    let s := match rg with
      | some r => s.onRgn r (fun x => { x with fix := { x.fix with taint := true } })
      | none => s
    s.ibi 0x16 (match rg with | some r => locOf r | none => 0) t.cause

/-- A taint entry for the cycle a region is executing. -/
def State.taint (s : State) (rg : Rg) (t : Taint) : State := s.taintAt (some rg) (s.rgn rg).executing t

/-! ### Lists -/

/-- `f` applied in turn for each element, left to right. -/
def foldS {α : Type} (l : List α) (s : State) (f : State → α → State) : State := l.foldl f s

end Sys2Proof.Machine
end

