-- ==== Sys2Proof/Machine/Flags.lean ====
section
/-! DEFINITION. The flags of an easel core (R332), its conditions (R333), and its accumulator and extraction arithmetic
(R337–R339). -/

namespace Sys2Proof.Machine

/-- A 16-bit result with its flags (R332). -/
structure Alu where
  val : BitVec 16
  z : Bool
  n : Bool
  c : Bool
  v : Bool
  deriving DecidableEq, Repr

/-- Z and N of a result, with C and V as given. -/
def aluOf (val : BitVec 16) (c v : Bool) : Alu := ⟨val, decide (val = 0), val.msb, c, v⟩

/-- The signed value `i` does not fit 16 bits. -/
def overflow16 (i : Int) : Bool := decide (i < -32768) || decide (32767 < i)

/-- ADD: C is the carry out of bit 15, V a signed overflow (R332). -/
def aluAdd (a b : BitVec 16) : Alu := aluOf (a + b) (decide (65536 ≤ a.toNat + b.toNat)) (overflow16 (a.toInt + b.toInt))

/-- SUB and CMP: C is the borrow, compared unsigned (R332). -/
def aluSub (a b : BitVec 16) : Alu := aluOf (a - b) (decide (a.toNat < b.toNat)) (overflow16 (a.toInt - b.toInt))

/-- The bitwise operations: C and V are cleared (R332). -/
def aluLogic (val : BitVec 16) : Alu := aluOf val false false

/-- SHL: C is the last bit shifted out, 0 for a shift of 0 (R332). -/
def aluShl (a : BitVec 16) (n : Nat) : Alu := aluOf (a <<< n) (decide (0 < n) && a.getLsbD (16 - n)) false

/-- SHR (R332). -/
def aluShr (a : BitVec 16) (n : Nat) : Alu := aluOf (a >>> n) (decide (0 < n) && a.getLsbD (n - 1)) false

/-- SHRA (R332). -/
def aluShra (a : BitVec 16) (n : Nat) : Alu := aluOf (a.sshiftRight n) (decide (0 < n) && a.getLsbD (n - 1)) false

/-- SR with the flags of a result: Z [0], N [1], C [2], V [3] (R334). -/
def srFlags (sr : BitVec 8) (x : Alu) : BitVec 8 :=
  setBit (setBit (setBit (setBit sr 0 x.z) 1 x.n) 2 x.c) 3 x.v

/-- COND (R333). `mb` says that the inbound mailbox holds a word, `hold` that the core holds a fix. -/
def condHolds (cond : Nat) (sr : BitVec 8) (mb hold : Bool) : Bool :=
  let z := sr.getLsbD 0
  let n := sr.getLsbD 1
  let c := sr.getLsbD 2
  let v := sr.getLsbD 3
  match cond with
  | 0 => true
  | 1 => z
  | 2 => !z
  | 3 => xor n v
  | 4 => !(xor n v)
  | 5 => c
  | 6 => !c
  | 7 => !z && !(xor n v)
  | 8 => z || xor n v
  | 9 => n
  | 10 => !n
  | 11 => v
  | 12 => !v
  | 13 => mb
  | 14 => hold
  | _ => false

/-! ### Accumulators -/

/-- An exact value in an accumulator, modulo 2^40, and whether it overflows 40 signed bits (R337). -/
def accOf (i : Int) : BitVec 40 × Bool := (BitVec.ofInt 40 i, decide (i < -(2 ^ 39)) || decide (2 ^ 39 ≤ i))

/-- The multiply operations MPY, MAC and MSU (R337). -/
def accMul (mop : Nat) (a : BitVec 40) (x y : BitVec 16) : BitVec 40 × Bool :=
  let p := x.toInt * y.toInt
  accOf (match mop with | 0 => p | 1 => a.toInt + p | _ => a.toInt - p)

/-- ACC (R338): the new accumulator, and whether V is set. -/
def accFn (fn : Nat) (a other : BitVec 40) (ra : BitVec 16) (imm : Nat) : BitVec 40 × Bool :=
  match fn with
  | 0 => (0, false)
  | 1 => (BitVec.ofInt 40 (ra.toInt * 65536), false)
  | 2 => accOf (a.toInt + other.toInt)
  | 3 => accOf (a.toInt - other.toInt)
  | 4 => (a.sshiftRight imm, false)
  | 5 => (a <<< imm, false)
  | 6 => (other, false)
  | _ => accOf (- a.toInt)

/-- EXT (R339): bits [SHIFT + 15 : SHIFT]; with SAT a quotient outside 16 signed bits saturates and sets V. -/
def extract16 (a : BitVec 40) (shift : Nat) (sat : Bool) : BitVec 16 × Bool :=
  let n := min shift 24
  if sat && decide (32767 * 2 ^ n < a.toInt) then (0x7FFF, true)
  else if sat && decide (a.toInt < -32768 * 2 ^ n) then (0x8000, true)
  else (bitsAt (a.sshiftRight n) 0 16, false)

end Sys2Proof.Machine
end

