-- ==== Sys2Proof/Machine/Operands.lean ====
section
/-! DEFINITION. Operand forms: the extended Hamming codes of the spec, the fields of a stroke word, the views through which
strokes, easel cores and network requests read and write a palette. -/

namespace Sys2Proof.Machine

/-! ### The extended Hamming codes of R66 and R249 -/

/-- `n` is a power of two: a codeword position that holds a check bit (R66). -/
def isCheckPos (n : Nat) : Bool := decide (n ∈ [1, 2, 4, 8, 16, 32, 64, 128, 256])

/-- The codeword positions of the data bits, ascending, within positions 1 to `top` (R66, R249). -/
def dataPositions (top : Nat) : List Nat := ((List.range top).map (· + 1)).filter (fun p => !isCheckPos p)

/-- The check bits over the data: bit i is the XOR of the data bits whose position has bit i set (R66). -/
def hamming {n : Nat} (d : BitVec n) : List Nat → Nat → Nat
  | [], _ => 0
  | p :: t, i => (if d.getLsbD i then p else 0) ^^^ hamming d t (i + 1)

/-- The index of the data bit at codeword position `p`, where a data bit stands there. -/
def dataIndex (p : Nat) : List Nat → Nat → Option Nat
  | [], _ => none
  | q :: t, i => if q = p then some i else dataIndex p t (i + 1)

/-- The outcome of the check (R66): the syndrome against the overall parity. -/
def eccOf (odd : Bool) (syndrome top : Nat) : Ecc :=
  if odd then (if syndrome ≤ top then .single else .uncorrectable)
  else if syndrome = 0 then .clean else .uncorrectable

/-- The data with the bit that the syndrome names inverted, where it names a data bit. -/
def fixData {n : Nat} (d : BitVec n) (syndrome : Nat) (ps : List Nat) : BitVec n :=
  match dataIndex syndrome ps 0 with
  | some i => d ^^^ (1 <<< i)
  | none => d

/-! ### Stroke words (R65–R67) -/

/-- CHK for the data bits [103:0] of a stroke word (R66). -/
def strokeChk (d : BitVec 104) : BitVec 8 :=
  let c := BitVec.ofNat 7 (hamming d (dataPositions 111) 0)
  BitVec.ofNat 8 (c.toNat + 128 * (if xor (parityOf d) (parityOf c) then 1 else 0))

/-- A whole stroke word from its data bits. -/
def strokeEncode (d : BitVec 104) : BitVec 112 := BitVec.ofNat 112 (d.toNat + 2 ^ 104 * (strokeChk d).toNat)

/-- What the check of a stored stroke word finds, and the corrected word (R66, R87). -/
def strokeCheck (w : BitVec 112) : Ecc × BitVec 112 :=
  let d : BitVec 104 := bitsAt w 0 104
  let syn := hamming d (dataPositions 111) 0 ^^^ (bitsAt w 104 7).toNat
  let e := eccOf (parityOf w) syn 111
  (e, match e with | .single => strokeEncode (fixData d syn (dataPositions 111)) | _ => w)

def strokeOp (w : BitVec 112) : Nat := (bitsAt w 100 4).toNat
def strokeDest (w : BitVec 112) : BitVec 10 := bitsAt w 90 10
def strokeCtrl (w : BitVec 112) : BitVec 10 := bitsAt w 80 10
def strokeTt (w : BitVec 112) : BitVec 16 := bitsAt w 64 16
/-- Operand n: entry and column (R67). -/
def strokeOpd (w : BitVec 112) (n : Nat) : BitVec 10 × BitVec 6 :=
  let o : BitVec 16 := bitsAt w (16 * n) 16
  (bitsAt o 6 10, bitsAt o 0 6)

/-! ### The palette -/

/-- The exchange-in side that cycle `n` reads: (n − 1) mod 2 (R81, R98). -/
def sideOf (n : BitVec 48) : Nat := (n - 1).toNat % 2

/-- Entries 1020–1023 in cycle `n` (R81). -/
def constEntry (n : BitVec 48) (e : Nat) : Entry :=
  if e = 1020 then 0
  else if e = 1021 then BitVec.allOnes 64
  else if e = 1022 then n.zeroExtend 64
  else if n = 1 then BitVec.allOnes 64 else 0

/-- Entry `e` as cycle `n` reads it, whatever its full flag says (R80, R81, R348). -/
def Cluster.peek (k : Cluster) (n : BitVec 48) (e : Nat) : Entry :=
  if e < 992 then SMap.get 0 k.pal e
  else if e < 1008 then SMap.get 0 k.exch (16 * sideOf n + (e - 992))
  else if e < 1020 then SMap.get 0 k.ports (e - 1008)
  else constEntry n e

/-- Entry `e` as a stroke of cycle `n` reads it: as it stood when the stroke began, or, for a port entry that was empty then,
as it has filled since; none while it is empty (R79, R81, R83, R102). -/
def Cluster.read (k : Cluster) (n : BitVec 48) (e : Nat) : Option Entry :=
  if e < 992 then some (SMap.get 0 k.pal e)
  else if e < 1008 then
    let i := 16 * sideOf n + (e - 992)
    if k.exFull.getLsbD i then some (SMap.get 0 k.exch i) else none
  else if e < 1020 then
    let i := e - 1008
    if k.portFullAt.getLsbD i then some (SMap.get 0 k.portsAt i)
    else if k.portFull.getLsbD i then some (SMap.get 0 k.ports i)
    else none
  else some (constEntry n e)

/-- The cluster with entry `e` holding `v` as a write outside the strokes makes it; `full` sets the full flag of a port entry
(R80, R348). -/
def Cluster.poke (k : Cluster) (n : BitVec 48) (e : Nat) (v : Entry) (full : Bool) : Cluster :=
  if e < 992 then { k with pal := SMap.set 0 k.pal e v }
  else if e < 1008 then
    let i := 16 * sideOf n + (e - 992)
    { k with exch := SMap.set 0 k.exch i v, exFull := if full then setBit k.exFull i true else k.exFull }
  else if e < 1020 then
    let i := e - 1008
    { k with ports := SMap.set 0 k.ports i v, portFull := if full then setBit k.portFull i true else k.portFull }
  else k

/-- The full flag that cycle `n` sees of entry `e` (R81). -/
def Cluster.full (k : Cluster) (n : BitVec 48) (e : Nat) : Bool :=
  if e < 992 then true
  else if e < 1008 then k.exFull.getLsbD (16 * sideOf n + (e - 992))
  else if e < 1020 then k.portFull.getLsbD (e - 1008)
  else true

/-- The writes of a stroke made in the palette: a current-bank or working bit at once, a next-state bit with its written
flag (R69, R78, R79). -/
def Cluster.commit (k : Cluster) : List PalWrite → Cluster
  | [] => { k with writes := [] }
  | w :: t =>
    let e := w.entry.toNat
    let b := w.bp.toNat
    if w.next then
      Cluster.commit { k with next := SMap.set 0 k.next e (setBit (SMap.get 0 k.next e) b w.val),
                              written := SMap.set 0 k.written e (setBit (SMap.get 0 k.written e) b true) } t
    else Cluster.commit { k with pal := SMap.set 0 k.pal e (setBit (SMap.get 0 k.pal e) b w.val) } t

/-- The bank swap of a fix (R78): a written state bit takes the value its EVAL_S wrote, the others keep theirs, and the
flags clear. -/
def swapBank (pal next : SMap Entry) : SMap Entry → SMap Entry
  | [] => pal
  | (e, m) :: t => swapBank (SMap.set 0 pal e ((SMap.get 0 pal e &&& ~~~ m) ||| (SMap.get 0 next e &&& m))) next t

def Cluster.swap (k : Cluster) : Cluster := { k with pal := swapBank k.pal k.next k.written, next := [], written := [] }

end Sys2Proof.Machine
end

