-- ==== Sys2Proof/Machine/CanvasNet.lean ====
section
/-! DEFINITION. The canvas routing (R163–R171, R173–R176): segments, driver fields, selectors, and the token that stands at a
selector. Positions are counted over a quadrant's 4 × 4 regions, 16 added so that a segment may begin below box 0. -/

namespace Sys2Proof.Machine

/-- A field of a cell's configuration block (R146). -/
def cfgField (b : BitVec 2048) (lo w : Nat) : Nat := b.toNat / 2 ^ lo % 2 ^ w

/-- The configuration block of cell `n` of region `rg`. -/
def State.cellCfg (s : State) (rg : Rg) (n : CellNo) : BitVec 2048 := SMap.get 0 (s.rgn rg).canvas n.toNat

/-- The state of cell `n`. -/
def Region.cell (r : Region) (n : CellNo) : Cell := SMap.get {} r.cells n.toNat
def Region.setCell (r : Region) (n : CellNo) (x : Cell) : Region := { r with cells := SMap.set {} r.cells n.toNat x }

/-- The state of I/O cell `i` (FIO 0–7, UIO 8–9). -/
def Region.ioCell (r : Region) (i : Nat) : IoCell := SMap.get {} r.io i
def Region.setIo (r : Region) (i : Nat) (x : IoCell) : Region := { r with io := SMap.set {} r.io i x }

/-- The length of track `t` of a class (R163). -/
def trackLen (cls t : Nat) : Nat :=
  let four := if cls = 3 then 16 else 4
  let sixteen := if cls = 3 then 24 else if cls = 1 then 6 else 8
  if t < four then 1 else if t < sixteen then 4 else 16

/-- Where segments of track `t` begin, modulo the length (R163). -/
def trackOff (cls t : Nat) : Nat :=
  match trackLen cls t with
  | 4 => t % 4
  | 16 => if cls = 3 then 4 * (t - 24) else if cls = 1 then 0 else 8 * (t - 8)
  | _ => 0

/-- A W16 track of length 16 continues across region edges (R166). -/
def trackCrosses (cls t : Nat) : Bool := decide (cls = 0) && decide (trackLen cls t = 16)

/-- The first and the last box that a segment joins (R163, R166). -/
def Seg.first (g : Seg) : Nat := max g.start (if trackCrosses g.cls g.t then 16 else 16 + 32 * g.blk)
def Seg.last (g : Seg) : Nat := min (g.start + trackLen g.cls g.t) (if trackCrosses g.cls g.t then 143 else 47 + 32 * g.blk)

def Seg.boxes (g : Seg) : List Nat := (List.range (g.last + 1 - g.first)).map (g.first + ·)

/-- A box by its place in the quadrant: along X and along Y. -/
structure Box where
  x : Nat
  y : Nat
  deriving DecidableEq, Repr

def Box.along (b : Box) (y : Bool) : Nat := if y then b.y else b.x
def Box.across (b : Box) (y : Bool) : Nat := if y then b.x else b.y

/-- The box of cell `n` of region `rg` (R14, R144). -/
def boxOf (rg : Rg) (n : CellNo) : Box :=
  ⟨16 + 32 * (numOf rg % 4) + n.toNat % 32, 16 + 32 * (numOf rg / 4) + n.toNat / 32⟩

/-- The region of quadrant `q` that holds a box, and the box's cell. -/
def boxRgn (q : Nat) (b : Box) : Rg := BitVec.ofNat 6 (16 * q + (b.x - 16) / 32 + 4 * ((b.y - 16) / 32))
def boxCell (b : Box) : CellNo := BitVec.ofNat 10 ((b.x - 16) % 32 + 32 * ((b.y - 16) % 32))

def mkSeg (y : Bool) (cls t start : Nat) (b : Box) : Seg :=
  ⟨y, cls, t, start, b.across y, if trackCrosses cls t then 0 else (b.along y - 16) / 32⟩

/-- The segment that arrives at a box from below (−X or −Y), where one does. -/
def segBelow (y : Bool) (cls t : Nat) (b : Box) : Option Seg :=
  let l := trackLen cls t
  let p := b.along y
  let m := (p - trackOff cls t) % l
  let g := mkSeg y cls t (if m = 0 then p - l else p - m) b
  if g.first < p then some g else none

/-- The segment that arrives at a box from above (+X or +Y), where one does. -/
def segAbove (y : Bool) (cls t : Nat) (b : Box) : Option Seg :=
  let p := b.along y
  let g := mkSeg y cls t (p - (p - trackOff cls t) % trackLen cls t) b
  if p < g.last then some g else none

/-- The segments of a track at a box: the one that ends there or passes it, and the one that begins there. -/
def segsAt (y : Bool) (cls t : Nat) (b : Box) : List Seg :=
  let p := b.along y
  let above := mkSeg y cls t (p - (p - trackOff cls t) % trackLen cls t) b
  match segBelow y cls t b with
  | some g => if g = above then [g] else [g, above]
  | none => [above]

/-- The segment that a selector reads at a box (R165): the one from below where two meet. -/
def selSeg (y : Bool) (cls t : Nat) (b : Box) : Option Seg := (segsAt y cls t b).head?

/-- The place of a track's driver field in DRV (R163). -/
def driverIndex (y : Bool) (cls t : Nat) : Nat :=
  (if y then 55 else 0) + (match cls with | 0 => 0 | 1 => 10 | 2 => 17 | _ => 27) + t

/-- Tracks of a class (R163). -/
def trackCount (cls : Nat) : Nat := match cls with | 0 => 10 | 1 => 7 | 2 => 10 | _ => 28

/-- The junction whose endpoint attaches to a cell's box, where one does (R169). -/
def junctionAt (n : CellNo) : Option Nat :=
  if n.toNat / 32 = 0 then some (n.toNat % 32) else if n.toNat / 32 = 31 then some (32 + n.toNat % 32) else none

/-- The cell that carries the endpoint of junction `n` (R169). -/
def junctionCell (n : Nat) : CellNo := BitVec.ofNat 10 (n % 32 + (if n < 32 then 0 else 32 * 31))

/-- The endpoint fields EN, OUTW and INW of junction `n` of a region (R169). -/
def State.endpoint (s : State) (rg : Rg) (n : Nat) : Bool × Nat × Nat :=
  let b := s.cellCfg rg (junctionCell n)
  (decide (cfgField b 852 1 = 1), cfgField b 853 2, cfgField b 855 2)

/-- MODE, SSRC, SDEF and CHAIN of a block (R147). -/
def cfgMode (b : BitVec 2048) : Nat := cfgField b 192 2
def cfgSsrc (b : BitVec 2048) : Bool := cfgField b 194 2 == 1
def cfgSdef (b : BitVec 2048) : Nat := cfgField b 196 2
def cfgChain (b : BitVec 2048) : Nat := cfgField b 198 2
def cfgCw (b : BitVec 2048) : Nat := cfgField b 200 1

/-- The length of a chain (R155). -/
def chainLen (b : BitVec 2048) : Nat := if cfgCw b = 1 then 4 else 2

/-- The cells of the chain to which cell `n` with block `b` would belong, the LOW cell first. -/
def chainCells (b : BitVec 2048) (n : CellNo) : List CellNo :=
  let l := chainLen b
  (List.range l).map (fun i => BitVec.ofNat 10 (n.toNat - n.toNat % l + i))

/-- Every cell of the chain carries its own CHAIN code and the same CW (R155). -/
def chainSound (s : State) (rg : Rg) (n : CellNo) : Bool :=
  let b := s.cellCfg rg n
  let l := chainLen b
  (List.range l).all (fun i =>
    let c := s.cellCfg rg (BitVec.ofNat 10 (n.toNat - n.toNat % l + i))
    decide (cfgCw c = cfgCw b) && decide (cfgChain c = (if i = 0 then 1 else if i + 1 = l then 3 else 2)))

/-- A cell that acts as OFF because its chain does not match (R155). -/
def chainOff (s : State) (rg : Rg) (n : CellNo) : Bool := cfgChain (s.cellCfg rg n) != 0 && !chainSound s rg n

/-- How many lanes a lane field enables (R169). -/
def laneCount (w : Nat) : Nat := match w with | 0 => 0 | 1 => 1 | 2 => 2 | _ => 4

/-- The I/O cell that attaches to a cell's box in regions 0–3 (R173): FIO 0–7, UIO 8–9. -/
def ioAt (rg : Rg) (n : CellNo) : Option Nat :=
  let x := n.toNat % 32
  let y := n.toNat / 32
  if x ≠ 31 ∨ 4 ≤ numOf rg then none
  else if y % 4 = 2 then some (y / 4)
  else if y % 16 = 1 then some (8 + y / 16)
  else none

/-- The cell to which I/O cell `i` attaches (R173). -/
def ioCellNo (i : Nat) : CellNo := BitVec.ofNat 10 (31 + 32 * (if i < 8 then 4 * i + 2 else 16 * (i - 8) + 1))

/-- The configuration word of I/O cell `i` (R175, R180). -/
def State.ioCfg (s : State) (rg : Rg) (i : Nat) : Nat := cfgField (s.cellCfg rg (ioCellNo i)) 852 32

/-- The pin is clock-capable (R173) and configured as a clock input: FIO local pin 0 of each region. -/
def ioClockPin (cfg i : Nat) : Bool := i == 0 && cfg % 4 == 3

/-- DIR makes the pin a data input: code 3 does so where the pin is not clock-capable (R175, R180). -/
def ioInput (cfg i : Nat) : Bool := cfg % 4 == 0 || (cfg % 4 == 3 && i != 0)

/-- The class of track that an I/O cell drives under its configuration, where it drives one (R174, R176, R180). -/
def ioDrives (cfg i : Nat) : Option Nat :=
  let imode := cfg / 4 % 4
  if ¬ ioInput cfg i then none
  else if i < 8 then
    match imode with
    | 0 => match cfg / 1024 % 4 with | 1 => some 1 | 2 => some 0 | _ => some 2
    | 1 => some 1
    | 2 => some 2
    | _ => some 3
  else match imode with | 1 => some 1 | 3 => some 3 | _ => some 2

/-- The retouch endpoint of a region is enabled (R221): EDGE bit [852] of cell (0, 15) and the region's bit of RTC.CEN. -/
def State.retouchEndpoint (s : State) (rg : Rg) : Bool :=
  decide (cfgField (s.cellCfg rg 480) 852 1 = 1) &&
    (s.reg (if rg.toNat < 32 then R.RTC_CEN_LO else R.RTC_CEN_HI)).getLsbD (rg.toNat % 32)

/-- The driver of track (y, cls, t) at a box, where its field is not 0 and does not act as 0 (R164). -/
def driveAt (s : State) (q : Nat) (y : Bool) (cls t : Nat) (b : Box) : Option Drive :=
  let rg := boxRgn q b
  let n := boxCell b
  let v := cfgField (s.cellCfg rg n) (288 + 4 * driverIndex y cls t) 4
  match v with
  | 1 => some (.out rg n (match cls with | 0 => 0 | 3 => 3 | _ => 2))
  | 2 => some (.out rg n (match cls with | 0 => 1 | 3 => 4 | _ => 0))
  | 3 =>
    match junctionAt n, ioAt rg n with
    | some j, _ =>
      let (en, outw, _) := s.endpoint rg j
      if cls = 0 ∧ en ∧ t % 4 < laneCount outw then some (.lane rg j (t % 4)) else none
    | none, some i => if ioDrives (s.ioCfg rg i) i = some cls then some (.io rg i) else none
    | none, none => if n = 480 ∧ cls = 1 ∧ t = 0 ∧ ¬ y ∧ s.retouchEndpoint rg then some (.status rg) else none
  | 4 => (segBelow false cls t b).map .seg
  | 5 => (segAbove false cls t b).map .seg
  | 6 => (segBelow true cls t b).map .seg
  | 7 => (segAbove true cls t b).map .seg
  | _ => none

/-- The box at position `p` of a segment. -/
def Seg.box (g : Seg) (p : Nat) : Box := if g.y then ⟨g.across, p⟩ else ⟨p, g.across⟩

/-- Every driver of a segment (R164): a field drives the segments of its track at its box, except the one it names. -/
def segDrivers (s : State) (q : Nat) (g : Seg) : List Drive :=
  g.boxes.filterMap (fun p =>
    match driveAt s q g.y g.cls g.t (g.box p) with
    | some d => if d = .seg g then none else some d
    | none => none)

/-- The number by which CNV.FIGHT_AT names a segment at one of its boxes (R188). -/
def segAtBox (g : Seg) (b : Box) : SegAt :=
  let n := boxCell b
  BitVec.ofNat 18 (n.toNat % 32 + 32 * (n.toNat / 32) + 1024 * (if g.y then 1 else 0) + 2048 * g.cls + 8192 * g.t)

/-- The segment that a FIGHT_AT number names in region `rg`. -/
def segNamed (rg : Rg) (a : SegAt) : Option Seg :=
  let v := a.toNat
  selSeg (decide (v / 1024 % 2 = 1)) (v / 2048 % 4) (v / 8192) (boxOf rg (BitVec.ofNat 10 (v % 1024)))

/-- A segment is disabled by the fight detector (R167). -/
def segDisabled (s : State) (q : Nat) (g : Seg) : Bool :=
  (quadRegions q).any (fun rg => (s.rgn rg).disabled.any (fun a => decide (segNamed rg a = some g)))

/-- A retouch clamp holds a driver of the segment (R229). -/
def segCut (s : State) (q : Nat) (g : Seg) : Bool :=
  s.rtc.cut && g.boxes.any (fun p =>
    let b := g.box p
    ((s.rgn (boxRgn q b)).cell (boxCell b)).clamped && (driveAt s q g.y g.cls g.t b).isSome)

/-- No route of segments is longer than this: a quadrant has fewer segments. -/
def routeFuel : Nat := 2 ^ 22

/-- The source of the tokens on a segment: followed back through driver fields, the fuel bounding a loop of segments; none
where nothing or more than one thing drives it, or it is disabled. A closed clamp keeps it at the spacer, but for a token that stood there as the
clamp closed (R229). -/
def segSource (s : State) (q : Nat) : Nat → Seg → Option Drive
  | 0, _ => none
  | f + 1, g =>
    if segDisabled s q g then none
    else
      let source := match segDrivers s q g with
        | [.seg h] => segSource s q f h
        | [d] => some d
        | _ => none
      if segCut s q g then source.filter (fun d => decide (d ∈ s.rtc.leaving ∨ d ∈ s.rtc.through)) else source

/-- The bits of a token that a class carries (R157, R164). -/
def classBits (cls : Nat) (v : BitVec 16) : BitVec 16 :=
  match cls with | 0 => v | 1 => v &&& 15 | _ => v &&& 1

/-- The token that stands at a source. -/
def sourceToken (s : State) (cls : Nat) : Drive → Option (BitVec 16)
  | .out rg n w =>
    let x := (s.rgn rg).cell n
    (match w with | 0 => x.y0 | 1 => x.y1 | 2 => x.f.map (fun (v : BitVec 4) => v.zeroExtend 16) | _ => none).map (classBits cls)
  | .lane rg n k => SMap.get none (s.rgn rg).lanes (4 * n + k)
  | .io rg i => ((s.rgn rg).ioCell i).inQ.head?
  | .status rg => (s.rgn rg).rtcStatus.map (fun (v : BitVec 4) => v.zeroExtend 16)
  | .seg _ => none

/-- The source with its token gone. -/
def clearToken (s : State) : Drive → State
  | .out rg n w => s.onRgn rg (fun r =>
      let x := r.cell n
      r.setCell n (match w with | 0 => { x with y0 := none } | 1 => { x with y1 := none } | 2 => { x with f := none } | _ => x))
  | .lane rg n k => s.onRgn rg (fun r => { r with lanes := SMap.set none r.lanes (4 * n + k) none })
  | .io rg i => s.onRgn rg (fun r => r.setIo i { r.ioCell i with inQ := (r.ioCell i).inQ.tail })
  | .status rg => s.onRgn rg (fun r => { r with rtcStatus := none })
  | .seg _ => s

/-- The source and the token on a segment. -/
def segToken (s : State) (q : Nat) (g : Seg) : Option (Drive × BitVec 16) :=
  match segSource s q routeFuel g with
  | some d => (sourceToken s g.cls d).map (fun v => (d, v))
  | none => none

/-- The track that ASEL or BSEL names (R165). -/
def selW16 (v : Nat) : Option (Bool × Nat) :=
  if v = 0 then none else if v ≤ 10 then some (false, v - 1) else if v ≤ 20 then some (true, v - 11) else none

/-- The track that CSEL or SSEL names: direction, class and index (R165). -/
def selNarrow (v : Nat) : Option (Bool × Nat × Nat) :=
  if v = 0 then none
  else if v ≤ 7 then some (false, 1, v - 1)
  else if v ≤ 14 then some (true, 1, v - 8)
  else if v ≤ 24 then some (false, 2, v - 15)
  else if v ≤ 34 then some (true, 2, v - 25)
  else none

/-- The region is stopped for its canvas crossings: isolated, gated or in reset (R166, R182). -/
def Region.canvasStopped (r : Region) : Bool :=
  r.bit F.RGN_CTRL_ISOLATE || decide (r.f F.RGN_STATUS_CFG = 3) || r.bit F.RGN_STATUS_RESET_BUSY

/-- The region of a source. -/
def Drive.rgn? : Drive → Option Rg
  | .out rg _ _ => some rg
  | .lane rg _ _ => some rg
  | .io rg _ => some rg
  | .status rg => some rg
  | .seg _ => none

/-- A receiver sees no token of a source in another region that is stopped (R166). -/
def seesSource (s : State) (rg : Rg) (d : Drive) : Bool :=
  match d.rgn? with
  | some rg' => rg' == rg || !(s.rgn rg').canvasStopped
  | none => false

/-- The source and the token that a receiver of region `rg` sees on a segment. -/
def seenToken (s : State) (rg : Rg) (g : Option Seg) : Option (Drive × BitVec 16) :=
  match g with
  | none => none
  | some g => (segToken s (quadOf rg) g).filter (fun x => seesSource s rg x.1)

/-- The token that waits at an input of a cell: 0 A, 1 B, 2 C, 3 S. -/
def inputToken (s : State) (rg : Rg) (n : CellNo) (port : Nat) : Option (Drive × BitVec 16) :=
  let b := s.cellCfg rg n
  let track : Option (Bool × Nat × Nat) :=
    match port with
    | 0 => (selW16 (cfgField b 728 5)).map (fun x => (x.1, 0, x.2))
    | 1 => (selW16 (cfgField b 733 5)).map (fun x => (x.1, 0, x.2))
    | 2 => selNarrow (cfgField b 738 6)
    | _ => selNarrow (cfgField b 744 6)
  match track with
  | none => none
  | some (y, cls, t) => seenToken s rg (selSeg y cls t (boxOf rg n))

/-! ### Single tracks (R145, R161, R164, R165, R174, R176) -/

/-- The single track that an input selector of STATIC mode, or LCLK up to 56, names (R161, R165). -/
def selSingle (v : Nat) : Option (Bool × Nat) :=
  if v = 0 then none else if v ≤ 28 then some (false, v - 1) else if v ≤ 56 then some (true, v - 29) else none

/-- A LUT4 over inputs that may be open (R146): its output, where all values of the open inputs give the same. Input 3 is the most
significant. -/
def lutLevel (lut : BitVec 16) (ins : List (Option Bool)) : Option Bool :=
  let fits (x : Nat) : Bool := ins.zipIdx.all (fun p => match p.1 with | none => true | some v => x.testBit p.2 == v)
  let outs := ((List.range 16).filter fits).map (fun x => lut.getLsbD x)
  if outs.all id then some true else if outs.all (!·) then some false else none

/-- The number under which a retouch keeps the level of a single segment (R229). -/
def heldKey (q : Nat) (g : Seg) : Nat :=
  let b := g.box g.first
  (boxRgn q b).toNat * 2 ^ 18 + (segAtBox g b).toNat

/-- A level that a closed clamp holds at a single segment driven from inside it (R229): SCLAMP gives 0, 1, or what the segment carried as the clamp
closed. -/
def clampedLevel (s : State) (q : Nat) (g : Seg) : Option Bool :=
  match s.f F.RTC_CTRL_SCLAMP with
  | 1 => some false
  | 2 => some true
  | _ => SMap.get none s.rtc.held (heldKey q g)

/-- A clamp is closed on a driver of a single segment (R229). -/
def singleCut (s : State) (q : Nat) (g : Seg) : Bool :=
  g.boxes.any (fun p =>
    let b := g.box p
    ((s.rgn (boxRgn q b)).cell (boxCell b)).clamped && (driveAt s q g.y g.cls g.t b).isSome)

/-- The level of a single segment, from the latches, the LUTs of STATIC cells and the pins that drive it. None where the spec gives it no level:
nothing or more than one thing drives it, or combinational logic feeds itself (R162). `seen` are the LUT outputs on the way. -/
def wireLevel (s : State) (q : Nat) : Nat → List (Rg × CellNo × Nat) → Seg → Option Bool
  | 0, _, _ => none
  | f + 1, seen, g =>
    if segDisabled s q g then some false
    else if singleCut s q g then clampedLevel s q g
    else
      match segDrivers s q g with
      | [.seg h] => wireLevel s q f seen h
      | [.io rg i] => some ((s.rgn rg).ioCell i).pin
      | [.out rg n w] =>
        let c := s.cellCfg rg n
        if (cfgMode c ≠ 1 ∧ cfgMode c ≠ 2) ∨ chainOff s rg n then none
        else if w = 4 then some (((s.rgn rg).cell n).q.getLsbD (g.t % 16))
        else if cfgMode c ≠ 2 then none
        else
          let i := g.t % 4
          if (rg, n, i) ∈ seen then none
          else
            lutLevel (bitsAt c (128 + 16 * i) 16) ((List.range 4).map (fun m =>
              match cfgField c (756 + 6 * (4 * i + m)) 6 with
              | 57 => some true
              | v =>
                match selSingle v with
                | none => some false
                | some (y, t) =>
                  match selSeg y 3 t (boxOf rg n) with
                  | none => some false
                  | some h => wireLevel s q f ((rg, n, i) :: seen) h))
      | _ => none

def trackLevel (s : State) (rg : Rg) (b : Box) (y : Bool) (t : Nat) : Option Bool :=
  (selSeg y 3 t b).bind (wireLevel s (quadOf rg) routeFuel [])

/-- The 16 STATIC input wires of a cell (R146, R165); a bit of `free` stands for a wire whose level is open. -/
def staticWires (s : State) (rg : Rg) (n : CellNo) (free : BitVec 16) : BitVec 16 :=
  let c := s.cellCfg rg n
  BitVec.ofNat 16 (packKey ((List.range 16).map (fun m =>
    ((match cfgField c (756 + 6 * m) 6 with
      | 57 => true
      | v => match selSingle v with
        | none => false
        | some (y, t) => (trackLevel s rg (boxOf rg n) y t).getD (free.getLsbD m)).toNat, 1))))

/-- The clock that CKSEL names exists (R173–R175): a bank clock that its pin drives, or the canvas clock, where a driver gives it to the X single
track of index 0 that arrives from −X. -/
def ioClocked (s : State) (rg : Rg) (i : Nat) : Bool :=
  let ck := s.ioCfg rg i / 64 % 8
  if ck < 4 then
    let home : Rg := BitVec.ofNat 6 (16 * quadOf rg + ck)
    ioClockPin (s.ioCfg home 0) 0
  else
    ck == 4 && (segBelow false 3 0 (boxOf rg (ioCellNo i))).any (fun g =>
      !segDisabled s (quadOf rg) g && !singleCut s (quadOf rg) g && decide ((segDrivers s (quadOf rg) g).length = 1))

/-! ### Latches (R147, R161) -/

/-- LUT of a cell (R146, R150): F[i] is entry A[4i + 3 : 4i] of LUT i. -/
def lutFlags (b : BitVec 2048) (a : BitVec 16) : BitVec 4 :=
  (List.range 4).foldl (fun f i =>
    setBit f i ((bitsAt b (128 + 16 * i) 16 : BitVec 16).getLsbD (bitsAt a (4 * i) 4).toNat)) 0

/-- The latch clock of a cell exists (R161). -/
def latchClocked (b : BitVec 2048) : Bool :=
  let k := cfgField b 750 6
  decide (1 ≤ k) && decide (k ≤ 58)

/-- The D input that LDSEL selects (R147); none where the latches keep their values. -/
def latchD (b : BitVec 2048) (x : Cell) (wires : BitVec 16) : Option (BitVec 16) :=
  match cfgField b 203 2 with
  | 0 => some x.hold
  | 1 => some wires
  | 2 => let o := (lutFlags b wires).zeroExtend 16; some (o ||| (o <<< 4) ||| (o <<< 8) ||| (o <<< 12))
  | _ => none

/-- The latch clock stands at `level`, the STATIC wires at `wires`: the latches load on the active edge, or follow while the level is active
(R161). -/
def Cell.clockTo (b : BitVec 2048) (level : Bool) (wires : BitVec 16) (x : Cell) : Cell :=
  let active := xor level (cfgField b 202 1 == 1)
  let loads := active && (cfgField b 201 1 == 0 || !x.clk)
  { x with q := if loads then (latchD b x wires).getD x.q else x.q, clk := active }

/-- The acknowledge wire of input `port` of cell `n` rises and falls again; LCLK 57 names that of A, 58 that of B (R157, R161). -/
def ackPulse (s : State) (rg : Rg) (n : CellNo) (port : Nat) : State :=
  let b := s.cellCfg rg n
  if 2 ≤ port ∨ cfgField b 750 6 ≠ 57 + port then s
  else
    let (v, s) := if cfgField b 203 2 = 0 ∨ cfgField b 203 2 = 3 then (0, s) else s.draw 16
    let w := staticWires s rg n v
    s.onRgn rg (fun r => r.setCell n (Cell.clockTo b false w (Cell.clockTo b true w (r.cell n))))

/-! ### Acknowledges -/

/-- The source with its token gone; a bundle that a closed clamp had left to it stays at the spacer from then on. A clamp that the token had to pass
keeps the acknowledge from its sender, whose token stays (R229). -/
def tokenGone (s : State) (d : Drive) : State :=
  if d ∈ s.rtc.through then { s with rtc := { s.rtc with through := s.rtc.through.filter (fun x => decide (x ≠ d)) } }
  else
  let s := clearToken s d
  if d ∈ s.rtc.leaving then { s with rtc := { s.rtc with leaving := s.rtc.leaving.filter (fun x => decide (x ≠ d)) } } else s

/-- The token at a source is acknowledged and gone. A FORK whose outputs have both been taken then acknowledges its own A
(R150), and so on up a tree of FORKs; the fuel bounds it. A FORK inside a closed clamp acknowledges nothing (R229). -/
def ackToken : Nat → State → Drive → State
  | 0, s, d => tokenGone s d
  | fuel + 1, s, d =>
    if d ∈ s.rtc.through then tokenGone s d
    else
    let s := tokenGone s d
    match d with
    | .out rg n _ =>
      let x := (s.rgn rg).cell n
      if x.owed ∧ x.y0 = none ∧ x.y1 = none ∧ ¬ x.clamped then
        let s := ackPulse (s.onRgn rg (fun r => r.setCell n { x with owed := false })) rg n 0
        match inputToken s rg n 0 with
        | some (d', _) => ackToken fuel s d'
        | none => s
      else s
    | _ => s

def takeToken (s : State) (d : Drive) : State :=
  let s := ackToken 1024 s d
  { s with pwr := { s.pwr with handshake := true } }

/-- Cell `n` acknowledges the token at one of its inputs. -/
def takeInput (s : State) (rg : Rg) (n : CellNo) (port : Nat) : State :=
  match inputToken s rg n port with
  | some (d, _) => ackPulse (takeToken s d) rg n port
  | none => s

/-! ### Receivers (R158, R168) -/

/-- The class of track from which an I/O cell takes its output data (R174, R177, R180). -/
def ioData (cfg i : Nat) : Nat :=
  if i < 8 then
    match cfg / 16 % 4 with
    | 0 => if cfg / 1024 % 4 = 2 then 0 else 1
    | 1 => 1
    | _ => 3
  else if cfg / 16 % 4 = 2 then 3 else 1

/-- An I/O cell takes tokens from the X track of index 0 of class `cls` (R174). -/
def ioReceives (cfg i cls : Nat) : Bool :=
  let dir := cfg % 4
  if dir = 1 then ioData cfg i == cls
  else if dir = 2 then ioData cfg i == cls || cls == 2
  else ioInput cfg i && cls == 2 && (cfg / 4 % 4 == 2 || (decide (8 ≤ i) && cfg / 4 % 4 == 0))

/-- The segment that arrives at the box of I/O cell `i` from −X on the track of index 0 of a class (R174). -/
def ioSeg (rg : Rg) (i cls : Nat) : Option Seg := segBelow false cls 0 (boxOf rg (ioCellNo i))

/-- The segment of inbound lane `k` of junction `n` (R171). -/
def laneSeg (rg : Rg) (n k : Nat) : Option Seg :=
  let b := boxOf rg (junctionCell n)
  if n < 32 then segAbove true 0 k b else segBelow true 0 k b

/-- The receivers of a segment at one of its boxes (R205): selectors of cells in TOKEN mode, whether or not R155 lets them run, inbound lanes, I/O
cell inputs. -/
def boxReceivers (s : State) (q : Nat) (g : Seg) (b : Box) : Nat :=
  let rg := boxRgn q b
  let n := boxCell b
  let c := s.cellCfg rg n
  let sel (o : Option (Bool × Nat × Nat)) : Nat :=
    match o with
    | some (y, cls, t) => if selSeg y cls t b = some g then 1 else 0
    | none => 0
  let cell :=
    if cfgMode c ≠ 1 then 0
    else
      sel ((selW16 (cfgField c 728 5)).map (fun x => (x.1, 0, x.2))) + sel ((selW16 (cfgField c 733 5)).map (fun x => (x.1, 0, x.2))) +
        sel (selNarrow (cfgField c 738 6)) + sel (selNarrow (cfgField c 744 6))
  let lanes :=
    match junctionAt n with
    | some j =>
      let (en, _, inw) := s.endpoint rg j
      if en then ((List.range (laneCount inw)).filter (fun k => decide (laneSeg rg j k = some g))).length else 0
    | none => 0
  let io :=
    match ioAt rg n with
    | some i => if ioReceives (s.ioCfg rg i) i g.cls ∧ ioSeg rg i g.cls = some g then 1 else 0
    | none => 0
  cell + lanes + io

/-- Driver fields of a box through which a segment drives others; each carries an acknowledge back. A field that names the one segment it would
drive acts as 0 (R164). -/
def boxFeeds (s : State) (q : Nat) (g : Seg) (b : Box) : Nat :=
  ([false, true].filter (fun y => decide (driveAt s q y g.cls g.t b = some (.seg g)) &&
    (segsAt y g.cls g.t b).any (fun h => decide (h ≠ g)))).length

/-- A segment has at most one driver and, where it carries an acknowledge wire, at most one receiver as `count` counts them. -/
def segHolds (count : Box → Nat) (s : State) (q : Nat) (g : Seg) : Bool :=
  decide ((segDrivers s q g).length ≤ 1) &&
    (decide (g.cls = 3) || decide ((g.boxes.map (fun p => count (g.box p))).foldl (· + ·) 0 ≤ 1))

/-- The loader's check of a segment (R205). -/
def segSound (s : State) (q : Nat) (g : Seg) : Bool := segHolds (boxReceivers s q g) s q g

/-- No contention on a segment or on its acknowledge wire (R167, R168). -/
def segQuiet (s : State) (q : Nat) (g : Seg) : Bool := segHolds (fun b => boxReceivers s q g b + boxFeeds s q g b) s q g

/-! ### Crossings into a stopped region (R166) -/

/-- A segment crosses a region's edge, and a region on one side of it is stopped. DESIGN CHOICE (log entry 152): what the isolated region's own
logic puts on such a crossing is acknowledged and discarded too. -/
def segMeetsStopped (s : State) (q : Nat) (g : Seg) : Bool :=
  trackCrosses g.cls g.t && decide (boxRgn q (g.box g.first) ≠ boxRgn q (g.box g.last)) &&
    g.boxes.any (fun p => (s.rgn (boxRgn q (g.box p))).canvasStopped)

/-- The W16 segments that segment `g` drives through driver fields at its boxes (R164). -/
def segFeeds (s : State) (q : Nat) (g : Seg) : List Seg :=
  g.boxes.flatMap (fun p =>
    let b := g.box p
    [false, true].flatMap (fun y =>
      if driveAt s q y g.cls g.t b = some (.seg g) then (segsAt y g.cls g.t b).filter (fun h => decide (h ≠ g)) else []))

/-- The token of source `d` stands on segment `g`, which no fight has disabled (R167), and reaches a crossing into a stopped region from there. -/
def reachesStopped (s : State) (q : Nat) (d : Drive) : Nat → Seg → Bool
  | 0, _ => false
  | f + 1, g => decide (segSource s q routeFuel g = some d) && (segMeetsStopped s q g || (segFeeds s q g).any (reachesStopped s q d f))

/-- The W16 segments that a source drives at the box of cell `n`, its own. -/
def outSegs (s : State) (rg : Rg) (n : CellNo) (d : Drive) : List Seg :=
  let b := boxOf rg n
  [false, true].flatMap (fun y => (List.range 10).flatMap (fun t =>
    if driveAt s (quadOf rg) y 0 t b = some d then segsAt y 0 t b else []))

/-- The token of a source that stands before a crossing into a stopped region is acknowledged and discarded (R166). -/
def dropCrossed (s : State) (rg : Rg) (n : CellNo) (d : Drive) : State :=
  if (sourceToken s 0 d).isSome ∧ (outSegs s rg n d).any (reachesStopped s (quadOf rg) d routeFuel) then takeToken s d else s

/-- The same for the outputs of a cell. -/
def dropCrossing (s : State) (rg : Rg) (n : CellNo) : State :=
  dropCrossed (dropCrossed s rg n (.out rg n 0)) rg n (.out rg n 1)

/-- The same for the outbound lanes of a junction. -/
def dropLanes (s : State) (rg : Rg) (n : Nat) : State :=
  foldS [0, 1, 2, 3] s (fun s k => dropCrossed s rg (junctionCell n) (.lane rg n k))

/-- The same for an I/O cell, whose tokens at gear ×16 stand on W16 tracks: one after the other, all that its queue holds. -/
def dropIo (s : State) (rg : Rg) (i : Nat) : State :=
  if numOf rg < 4 ∧ ioDrives (s.ioCfg rg i) i = some 0 then
    foldS ((s.rgn rg).ioCell i).inQ s (fun s _ => dropCrossed s rg (ioCellNo i) (.io rg i))
  else s

/-- Tokens in flight towards a region that stops are lost (R166). -/
def dropTokens (s : State) (q : Nat) : State :=
  foldS (quadRegions q) s (fun s rg =>
    if (s.rgn rg).canvasStopped then s
    else
      let s := foldS (s.rgn rg).cells s (fun s e => dropCrossing s rg (BitVec.ofNat 10 e.1))
      let s := foldS (List.range 8) s (fun s i => dropIo s rg i)
      foldS (s.rgn rg).lanes s (fun s e => dropCrossed s rg (junctionCell (e.1 / 4)) (.lane rg (e.1 / 4) (e.1 % 4))))

end Sys2Proof.Machine
end

