-- ==== Sys2Proof/Machine/Contain.lean ====
section
/-! DEFINITION. Containment: breaking semaphores, flushing crossings, resetting a core, holding and failing a job, isolating
and gating a region, and the resets of R22. -/

namespace Sys2Proof.Machine

/-! ### The repair map (R468) -/

/-- KIND of an entry of the repair map. -/
def entryKind (e : BitVec 64) : Nat := e.toNat / 2 ^ 18 % 4

/-- Every repair in force: those of the map and those that act without being stored (R468). -/
def State.repairs (s : State) : List (BitVec 64) := s.flash.repairs ++ s.bist.unstored

/-- The region is marked defective in the repair map (R468). -/
def State.defective (s : State) (rg : Rg) : Bool :=
  s.repairs.any (fun e => decide (entryKind e = 3 ∧ e.toNat % 64 = rg.toNat / 16 + 4 * (rg.toNat % 16)))

/-! ### Semaphores and crossings -/

/-- A held semaphore is broken (R376): it is freed, BROKEN is set, the break is counted, and with ALERT_EN the alert is
raised. -/
def breakSem (s : State) (n : Nat) : State :=
  if s.f (F.SEM_HOLDER_KIND n) = 0 then s
  else
    let s := (s.setReg (R.SEM_HOLDER n) 0).setReg (R.SEM_HOLD_TIME n) 0
    let s := s.setReg R.SEM_STATUS (s.reg R.SEM_STATUS ||| (1 <<< n))
    let s := s.bump F.SEM_COUNTS_BROKEN 1
    let s := s.noteFault 19 4 (faultKey [(n, 5)])
    if s.bit F.SEM_CTRL_ALERT_EN then (s.setF F.SEM_ALERT_ALERT 1).ibi 0x0A 0 n else s

/-- Every semaphore whose network owner satisfies `p` is broken (R376). -/
def breakOwned (s : State) (p : Node → Bool) : State :=
  foldS (List.range 32) s (fun s n =>
    if s.f (F.SEM_HOLDER_KIND n) = 1 ∧ p (BitVec.ofNat 24 (s.f (F.SEM_HOLDER_NODE n))) then breakSem s n else s)

/-- A node of region `rg` of this package. -/
def State.nodeIn (s : State) (rg : Rg) (n : Node) : Bool :=
  decide (nodeCoord n = s.f F.FAB_ID_COORD) && decide (nodeRgn n = rg) && decide (nodeUnit n < 0x17)

/-- A domain enters reset, is gated or isolated: its crossings are flushed (R367). How many crossings there are is not
stated: one, and a free number more. -/
def flushCrossings (s : State) : State :=
  let (v, s) := s.draw 8
  s.bump F.SEM_XSTAT_FLUSHES (1 + v.toNat)

/-- Pending counts of the pin-interrupt lines towards cores of regions that stop are discarded (R367, R399). -/
def dropLines (s : State) (stops : Rg → Bool) : State :=
  { s with gpio := { s.gpio with lines := SMap.keep (fun n =>
      !(decide (s.f (F.GPIO_INT_TARGET n) = 1) && stops (BitVec.ofNat 6 (s.f (F.GPIO_INT_CORE n) / 3)))
      || decide (192 ≤ s.f (F.GPIO_INT_CORE n))) s.gpio.lines } }

/-- The crossings of a region that stops are flushed: its events, and the tokens in flight to it (R166, R367). -/
def flushRegion (s : State) (rg : Rg) : State :=
  dropLines (dropTokens (flushCrossings s) (quadOf rg)) (fun x => decide (x = rg))

/-- The queues and pending counts between a region's canvas and its pins are emptied (R367). -/
def Region.emptyIo (r : Region) : Region :=
  { r with io := r.io.map (fun x => (x.1, { x.2 with inQ := [], outQ := [], edges := 0 })) }

/-! ### Cores -/

/-- What a core reset does to the core itself (R360): registers, loop levels, packet tags and any pending fix are cleared,
memories and mailboxes are kept, and so is LATE, which only the next fix ends (R349). The stop of a rewind lasts until the job resumes (R361, log 120). -/
def Easel.reset (e : Easel) : Easel :=
  { prog := e.prog, x := e.x, y := e.y, mbin := e.mbin, mbout := e.mbout, mbinCut := e.mbinCut, mboutCut := e.mboutCut,
    cyc := e.cyc, dbg := e.dbg, stopFrom := e.stopFrom, late := e.late }

/-- A back-port request of a requester is dropped: it waits no more, and a grant it owns ends (R115). -/
def Region.dropRequest (r : Region) (q : Nat) : Region :=
  let r := r.setF F.DMEM_STATUS_WAITING (r.f F.DMEM_STATUS_WAITING &&& (63 - 2 ^ q))
  if r.f F.DMEM_STATUS_OWNER = q then (r.setF F.DMEM_STATUS_OWNER 6).setF F.DMEM_GRANT_TIME_NS 0 else r

/-- A HALT that waited for the end of a reset takes effect (R414). -/
def Region.haltStart (r : Region) (k : CoreNo) : Region :=
  let e := r.eas k
  if e.dbg.haltReq ∧ r.live ∧ ¬ r.bit (F.EAS_CTRL_HOLD_RST k.val) then
    (r.setEas k { e with dbg := { e.dbg with haltReq := false, cause := 1, unit := 0 } }).setF (F.EAS_STATUS_HALTED k.val) 1
  else r

/-- The state in which a core comes out of a reset: RESET while HOLD_RST is 1 (R360) and before USER (R207), else RUN. -/
def Region.startCore (r : Region) (k : CoreNo) : Region :=
  let n := k.val
  let r := r.haltStart k
  let st := if r.bit (F.EAS_CTRL_HOLD_RST n) ∨ ¬ r.live then 0 else 1
  let e := r.eas k
  let r := if e.stopFrom.isSome then (r.setEas k { e with stopFrom := some (BitVec.ofNat 2 st) }).setF (F.EAS_STATUS_STATE n) 3
    else r.setF (F.EAS_STATUS_STATE n) st
  let r := (r.setF (F.EAS_STATUS_HOLDING n) 0).setF (F.EAS_PKT_BUSY n) 0
  r.setF (F.EAS_WDOG_CNT_COUNT n) (r.f (F.EAS_WDOG_LIMIT n))

/-- A retouch of the region's cores is applied (R228). -/
def State.coresHeld (s : State) (rg : Rg) : Bool := decide (s.applying = some rg) && s.rtc.cores

/-- A core that has been reset is held there; where a rewind stops it, it returns to RESET. -/
def holdReset (s : State) (rg : Rg) (k : CoreNo) : State :=
  s.onRgn rg (fun r =>
    let e := r.eas k
    if e.stopFrom.isSome then r.setEas k { e with stopFrom := some 0 } else r.setF (F.EAS_STATUS_STATE k.val) 0)

/-- A core reset (R360): the core restarts at 0x0000, its watchdog reloads (R359), its back-port request is dropped (R351)
its packet tags are free (R254) and its semaphores are broken (R376). -/
def resetCore (s : State) (rg : Rg) (k : CoreNo) : State :=
  let s := s.onRgn rg (fun r => ((r.setEas k (r.eas k).reset).dropRequest k.val).startCore k)
  let key := (64 * rg.toNat + 0x10 + k.val)
  let s := { s with tags := SMap.keep (fun t => decide (t / 128 ≠ key)) s.tags }
  breakOwned s (fun n => decide (n = s.node rg (0x10 + k.val)))

/-! ### Holds (R49) -/

/-- The fix engine of a region is at work on a cycle of its job: STROKING, COMPLETE, FIXING or HELD. -/
def Region.atWork (r : Region) : Bool := decide (2 ≤ r.f F.FIX_STATUS_STATE)

/-- The region's bit of RTC.DIRTY (R227). -/
def dirtyReg (rg : Rg) : Nat := if rg.toNat < 32 then R.RTC_DIRTY_LO else R.RTC_DIRTY_HI

def State.dirty (s : State) (rg : Rg) : Bool := (s.reg (dirtyReg rg)).getLsbD (rg.toNat % 32)

def State.setDirty (s : State) (rg : Rg) (v : Bool) : State := s.setReg (dirtyReg rg) (setBit (s.reg (dirtyReg rg)) (rg.toNat % 32) v)

/-- The schedule checks of the job's dirty regions start (R227). -/
def startChecks (s : State) (j : Job) : State :=
  foldS (s.jobRegions j) s (fun s rg =>
    if s.dirty rg then s.onRgn rg (fun r => { r with fix := { r.fix with checking := true } }) else s)

/-- Some region of the job has the given RWD mode. -/
def State.jobMode (s : State) (j : Job) (m : Nat) : Bool :=
  (s.jobRegions j).any (fun rg => decide (s.rf rg F.RWD_STATUS_MODE = m))

/-- A rewind of the job has been accepted and is not done (R137). -/
def State.restoringJob (s : State) (j : Job) : Bool :=
  s.jobMode j 2 || (s.jobRegions j).any (fun rg => (s.rgn rg).rwd.restoring.isSome)

/-- A RESUME of the job has an effect (R50, R137): it is HELD, has not FAILED, and is not being restored. -/
def State.resumable (s : State) (j : Job) : Bool :=
  s.bit (F.MER_JOB_CTRL_HELD j.toNat) && !s.bit (F.MER_JOB_CTRL_FAILED j.toNat) && !s.restoringJob j

/-- A RESUME with AT at 0 (R50): S is the next tick. One that has no effect is ignored. -/
def resumeSoon (s : State) (j : Job) : State :=
  if s.resumable j then (startChecks s j).setJob j { s.job j with resumeAt := some (s.mer.tick + 1) } else s

/-- A job held by the package's entry to HOLD, in RUN again (R435): it resumes as with AT at 0, or stays HELD where the host asked for
it. -/
def returnJob (s : State) (j : Job) : State :=
  let s := s.setJob j { s.job j with byPackage := false }
  if s.bit (F.MER_JOB_CTRL_HOLD j.toNat) then s.setF (F.MER_JOB_CTRL_HOLD_CAUSE j.toNat) 2
  else resumeSoon s j

/-- The register and the bit of FLT.TESTING for a region (R470). -/
def testingReg (rg : Rg) : Nat := if rg.toNat < 32 then R.FLT_TESTING_LO else R.FLT_TESTING_HI
def State.testing (s : State) (rg : Rg) : Bool := (s.reg (testingReg rg)).getLsbD (rg.toNat % 32)
def State.setTesting (s : State) (rg : Rg) (v : Bool) : State :=
  s.setReg (testingReg rg) (setBit (s.reg (testingReg rg)) (rg.toNat % 32) v)

/-- The step in progress tests logic, whose state stands in the region's spare bank (R463, R465). -/
def State.logicStep (s : State) (rg : Rg) : Bool :=
  (SMap.get none s.bist.bank rg.toNat).any (fun m => decide (1200 ≤ m.toNat))

/-- The occasion of a test of the region, as R466 codes it: in service or on demand. -/
def State.occasionOf (s : State) (rg : Rg) : Nat := if s.bist.demand.getLsbD rg.toNat then 3 else 2

/-- A test step of the region, if one runs, is abandoned and its contents restored (R464): the step ends INVALID, and the pass
continues later. -/
def abandonTest (s : State) (rg : Rg) : State :=
  if ¬ s.testing rg then s
  else
    let s := ((s.setTesting rg false).setF F.FLT_BIST_STAT_STATE 4).setF F.FLT_BIST_STAT_OCCASION (s.occasionOf rg)
    let n := rg.toNat
    let demand := s.bist.demand.getLsbD n
    { s with bist := { s.bist with queued := if demand then s.bist.queued else setBit s.bist.queued n true,
                                   asked := if demand then setBit s.bist.asked n true else s.bist.asked,
                                   demand := setBit s.bist.demand n false, unsound := setBit s.bist.unsound n false,
                                   broken := setBit s.bist.broken n false,
                                   bank := SMap.set none s.bist.bank n none } }

/-! ### Drains (R262) -/

/-- What follows the drain of quadrant `k` (0–3) or of the package (4). -/
def State.drainOf (s : State) (k : Nat) : Drain := SMap.get .none s.pwr.drains k

def State.setDrain (s : State) (k : Nat) (d : Drain) : State :=
  { s with pwr := { s.pwr with drains := SMap.set .none s.pwr.drains k d } }

/-- The ingress of a scope refuses, or accepts again (R262). -/
def State.setRefusing (s : State) (k : Nat) (v : Bool) : State :=
  { s with refusing := setBit s.refusing k (v || s.dbg.testing.isSome) }

/-- A quadrant reset waits for its drain. -/
def State.quadResetting (s : State) (q : Nat) : Bool := decide (s.drainOf q = .reset)

/-- The package is between the request and the moment of a package reset. -/
def State.packageResetting (s : State) : Bool := decide (s.drainOf 4 = .reset)

/-! ### Effective states (R438) -/

/-- A quadrant's own state (R438): 0 RUN, 2 DOZE, 4 DORMANT, 5 FAULT. -/
def State.ownState (s : State) (q : Nat) : Nat := (SMap.get 0 s.pwr.own q).toNat

def State.setOwn (s : State) (q st : Nat) : State :=
  { s with pwr := { s.pwr with own := SMap.set 0 s.pwr.own q (BitVec.ofNat 3 st) } }

/-- PWR.QSTAT.STATE shows the deeper of the quadrant's own state and the package's, or FAULT (R438, R448). Sleep emulation keeps
the state that is reported. -/
def showQuads (s : State) : State :=
  foldS (List.range 4) s (fun s q =>
    let own := s.ownState q
    s.setF (F.PWR_QSTAT_STATE q) (if own = 5 then 5 else max own (min (s.f F.PWR_STATUS_STATE) 4)))

/-! ### The package's states (R430, R435, R436) -/

def State.pwrState (s : State) : Nat := s.f F.PWR_STATUS_STATE

/-- The package's state is set, and the quadrants' effective states with it (R438). -/
def setPwr (s : State) (st : Nat) : State := showQuads (s.setF F.PWR_STATUS_STATE st)

/-- Jobs that are ACTIVE and not HELD. -/
def State.activeJobs (s : State) : List Job :=
  ((List.range 64).map (BitVec.ofNat 6)).filter (fun j => s.bit (F.MER_JOB_CTRL_ACTIVE j.toNat) && !s.bit (F.MER_JOB_CTRL_HELD j.toNat))

/-- ACTIVE jobs whose hold is fixed and not reached yet; a job that has failed holds nothing up. -/
def State.holdsPending (s : State) : Bool :=
  s.activeJobs.any (fun j => (s.job j).hold.isSome && !s.bit (F.MER_JOB_CTRL_FAILED j.toNat))

/-- HOLD stands. -/
def reachHold (s : State) : State :=
  ((setPwr s 1).setDrain 4 .none).setF F.PWR_STATUS_ENTERING 0 |>.bump F.PWR_COUNTS_ENTRIES 1

/-- The entry to a state below HOLD goes on from HOLD: the package's ingress and every quadrant's refuse, and their drain begins (R262, R436).
Test steps are abandoned (R464). -/
def beginDrain (s : State) (st : BitVec 3) : State :=
  let s := if s.pwrState = 0 then setPwr s 1 else s
  let s := { foldS allRegions s abandonTest with refusing := 31 }
  (s.setDrain 4 (.enter st)).setF F.PWR_STATUS_ENTERING 1

/-- An entry that waits for jobs goes on once all are HELD (R435, R436). -/
def settleHold (s : State) : State :=
  match s.drainOf 4 with
  | .hold st => if s.holdsPending then s else if st = 1 then reachHold s else beginDrain s st
  | _ => s

/-- The job's HELD, once every region of it that is at work is HELD (R49): H goes to MER.HOLD_CYCLE, and the hold is
reported. -/
def jobHeld (s : State) (j : Job) : State :=
  match (s.job j).hold with
  | none => s
  | some h =>
    let rs := (s.jobRegions j).filter (fun rg => (s.rgn rg).atWork)
    if rs ≠ [] ∧ rs.all (fun rg => decide (s.rf rg F.FIX_STATUS_STATE = 5)) ∧ ¬ s.bit (F.MER_JOB_CTRL_HELD j.toNat) then
      let s := s.setF (F.MER_JOB_CTRL_HELD j.toNat) 1
      let s := s.setReg (R.MER_HOLD_CYCLE j.toNat) (h.truncate 32)
      let s := foldS rs s (fun s rg => if (s.rgn rg).replaying then s.setRf rg F.RWD_STATUS_MODE 4 else s)
      let s := s.ibi 0x03 (match s.jobRegions j with | rg :: _ => locOf rg | [] => 0) j.toNat
      settleHold (if (s.job j).byPackage then returnJob s j else s)
    else s

/-- A hold request reaches a job (R49): H is the larger of the HALTIF's cycle and the highest cycle that a region of the job
executes. A hold that is already fixed stands, but for the one at which a replay ends, which an earlier one replaces (R138). -/
def requestHold (s : State) (j : Job) (cause : Nat) (least : BitVec 48) : State :=
  let rs := (s.jobRegions j).filter (fun rg => (s.rgn rg).atWork)
  let h := rs.foldl (fun m rg => max m (s.rgn rg).executing.toNat) least.toNat
  let stands : Bool := match (s.job j).hold with
    | none => false
    | some t => !(rs.any (fun rg => (s.rgn rg).replaying)) || decide (t.toNat ≤ h)
  if ¬ s.bit (F.MER_JOB_CTRL_ACTIVE j.toNat) ∨ stands then s
  else
    let s := s.setJob j { s.job j with hold := some (BitVec.ofNat 48 h) }
    jobHeld (s.setF (F.MER_JOB_CTRL_HOLD_CAUSE j.toNat) cause) j

/-- A job fails (R28, R51): FAILED is set, the failure is reported, and its other regions hold at their next fix. -/
def failJob (s : State) (j : Job) : State :=
  let s := s.setF (F.MER_JOB_CTRL_FAILED j.toNat) 1
  let s := s.ibi 0x03 (match s.jobRegions j with | rg :: _ => locOf rg | [] => 0) j.toNat
  settleHold (jobHeld (requestHold s j 3 0) j)

/-! ### Stopping and clearing a region -/

/-- A reset of the quadrant of `rg` or of the package is in progress. -/
def State.enclosingReset (s : State) (rg : Rg) : Bool :=
  decide (SMap.get .none s.pwr.drains (quadOf rg) = .reset) || decide (SMap.get .none s.pwr.drains 4 = .reset)

/-- A stroke of cluster `c` that stalled on port entries ends, or is cut off by an isolation: its stall goes into CLU.STALL_TIME
(R91). The time is not among the operands: a free value. -/
def endStall (s : State) (rg : Rg) (c : Cl) : State :=
  if (s.cl rg c).running ∧ (s.cl rg c).stalled then
    let (v, s) := s.draw 32
    s.bumpR rg (F.CLU_STALL_TIME_NS c.toNat) v.toNat
  else s

/-- The fix engine stops and its clusters with it; the registers keep their values (R44, R107). -/
def Region.halt (r : Region) : Region :=
  let r := r.setF F.FIX_STATUS_STATE 0
  let r := r.mapCl (fun k => { k with running := false, lead := .none })
  { r with fix := { r.fix with overhead := false } }

/-- Registers that do not stand in the region's own power domain (R188, R244, R271): the router's, the quadrant's, and the
I/O bank voltage. -/
def ungated (a : Nat) : Bool := (decide (0xD000 ≤ a) && decide (a < 0xE000)) || a == R.CNV_BANK

/-- What the debug port holds of a core stays when the core's contents go (R415, R422): it stays halted, with its cause, TRAP_HALT and a
HALT that waits, and its claimed patch units stay claimed with what they held (R416). -/
def Region.keepDebug (n r : Region) : Region :=
  allCores.foldl (fun n k =>
    let n := (n.setEas k { n.eas k with dbg := { (r.eas k).dbg with stepping := false, pass := none } }).setF
      (F.EAS_STATUS_HALTED k.val) (r.f (F.EAS_STATUS_HALTED k.val))
    (List.range 8).foldl (fun (n : Region) u => n.setF (F.EAS_PATCH_ADDR_CLAIMED k.val u) (r.f (F.EAS_PATCH_ADDR_CLAIMED k.val u))) n) n

/-- A core whose contents are lost: its mailboxes have been emptied as a flush empties them (R367, R372). -/
def Region.cutMail (n : Region) : Region :=
  { n with easels := allCores.foldl (fun (m : SMap Easel) k => SMap.set {} m k.val { n.eas k with mbinCut := true, mboutCut := true }) n.easels }

/-- A gated region loses its contents (R26): what stays is its epoch, its job, its place, its router, and a region reset that has been
requested (R25). -/
def Region.gated (r : Region) : Region :=
  let n : Region := { isoSub := r.isoSub, isoWord := r.isoWord, regs := SMap.keep ungated r.regs, releasing := r.releasing, resetDue := r.resetDue }
  let n := n.setReg R.RGN_STATUS (r.reg R.RGN_STATUS)
  let n := n.setF F.RGN_CTRL_ISOLATE (r.f F.RGN_CTRL_ISOLATE)
  (n.setF F.RGN_STATUS_CFG 3).cutMail.keepDebug r

/-- The helm gates a region (R26, R27). -/
def gateRegion (s : State) (rg : Rg) : State := flushRegion ((abandonTest s rg).onRgn rg Region.gated) rg

/-- A region is isolated (R28, R459, R501): ISOLATE reads 1, ISO_CAUSE and CFG say so, the fix engine goes OFF, its job is
reported failed, the semaphores of its requesters are broken, and every isolation but one by the host is logged. A stall that it cuts off counts as far as it lasted (R91). -/
def isolate (s : State) (rg : Rg) (cause sub : Nat) : State :=
  if s.rbit rg F.RGN_CTRL_ISOLATE then s
  else
    let s := foldS allClusters (abandonTest s rg) (fun s c => endStall s rg c)
    let s := s.onRgn rg (fun (r : Region) =>
      let r : Region := { r.halt.emptyIo with isoSub := BitVec.ofNat 4 sub }
      let r : Region := (r.setF F.RGN_CTRL_ISOLATE 1).setF F.RGN_STATUS_ISO_CAUSE cause
      if r.f F.RGN_STATUS_CFG = 3 then r else r.setF F.RGN_STATUS_CFG 2)
    let s := flushRegion s rg
    let s := breakOwned s (fun n => s.nodeIn rg n)
    let s := if cause = 3 then s.noteFault 10 (quadOf rg) (faultKey [(numOf rg, 4), (sub, 4)]) else s
    let s := match s.jobOf rg with | some j => failJob s j | none => s
    let s := if cause = 4 then s
      else
        let s := s.setReg R.FLT_ISO_LAST (faultKey [(quadOf rg, 2), (numOf rg, 4), (cause, 3), (sub, 4)])
        (s.setF F.FLT_STATUS_ISO 1).ibi 0x14 (locOf rg) cause
    if s.bit F.FLT_CTRL_GATE_ISO then gateRegion s rg else s

/-- An uncontainable error in a region that is isolated already is counted and recorded (R458). -/
def noteContained (s : State) (rg : Rg) (sub : Nat) : State :=
  (s.noteFault 10 (quadOf rg) (faultKey [(numOf rg, 4), (sub, 4)])).setReg R.FLT_ISO_LAST
    (faultKey [(quadOf rg, 2), (numOf rg, 4), (3, 3), (sub, 4)])

/-- An uncontainable error isolates its region; in one that is isolated already it is counted and recorded (R458). -/
def uncontained (s : State) (rg : Rg) (sub : Nat) : State :=
  if s.rbit rg F.RGN_CTRL_ISOLATE then noteContained s rg sub else isolate s rg 3 sub

/-- The override table's number in a key of source 9 (R450). -/
def overrideTable : Nat := 6

/-- What the check of a region-table word leads to (R458): a single-bit error is corrected and counted, an uncorrectable one
isolates the region. `tbl` numbers the table in the key, as its SUB does but for the override table (log 69). -/
def tableEcc (s : State) (rg : Rg) (e : Ecc) (tbl index : Nat) : State :=
  match e with
  | .clean => s
  | .single => s.noteFault 9 (quadOf rg) (faultKey [(numOf rg, 4), (tbl, 3), (index, 12)])
  | .uncorrectable =>
    let t := uncontained s rg (if tbl = overrideTable then 4 else tbl)
    if s.rbit rg F.RGN_CTRL_ISOLATE then t else t.onRgn rg (fun r => { r with isoWord := BitVec.ofNat 12 index })

end Sys2Proof.Machine
end

