-- ==== Sys2Proof/Machine/Ring.lean ====
section
/-! DEFINITION. The rewind ring (R121–R135): records and their headers, the space rules, the buffers of the trace writer, the
snapshot, and the reading of records by restore and replay. -/

namespace Sys2Proof.Machine

/-- Ring words (R109). -/
def ringSize : Nat := 262144

/-- Words that a snapshot reserves: SNAP and SNAPX with their headers (R124). -/
def snapSpan : Nat := 4556

/-- RWD.STATUS.MODE (R134): OFF where the region records nothing. -/
def Region.mode (r : Region) : Nat :=
  let raw := r.f F.RWD_STATUS_MODE
  if ¬ r.bit F.RGN_STATUS_IN_JOB ∨ r.f F.RGN_STATUS_CFG = 0 ∨ r.f F.RGN_STATUS_CFG = 3 then 1
  else if raw = 0 ∧ ¬ r.bit F.RWD_CTRL_REC_EN then 1 else raw

def Region.recording (r : Region) : Bool := decide (r.mode = 0)

/-- The header of a record (R122). -/
def recHeader (cycle : BitVec 48) (len : Nat) (rpl : Bool) (typ : Nat) : Entry :=
  BitVec.ofNat 64 (packKey [(cycle.toNat, 48), (len, 12), (if rpl then 1 else 0, 1), (typ, 3)])

/-- Keys of `Region.upsets`. -/
def dmemKey (a : Nat) : Nat := a
def ringKey (w : Nat) : Nat := 524288 + w % ringSize

/-- The 8 check bits stored with a word of either memory (R109): those of its data, which the loader and every write compute. Of a word that
`upsets` names the stored bits have come to differ from them. -/
def Region.checkBits (r : Region) (key : Nat) : BitVec 8 :=
  Config.secded72 (if key < 524288 then SMap.get 0 r.dmem key else SMap.get 0 r.ring (key - 524288))

/-- What the check of a word finds (R109, R111): the error that it holds, and `e`, one that has come up since it was last read. Two errors
are not correctable. -/
def Region.checked (r : Region) (key : Nat) (e : Ecc) : Ecc :=
  match SMap.get .clean r.upsets key, e with
  | .clean, e => e
  | x, .clean => x
  | _, _ => .uncorrectable

/-- A read leaves an uncorrectable word as it is and mends any other (R111). -/
def Region.afterRead (r : Region) (key : Nat) (e : Ecc) : Region :=
  { r with upsets := SMap.set .clean r.upsets key (if e == .uncorrectable then e else .clean) }

/-- A word of design memory written, with new check bits (R109, R111). -/
def Region.putDmem (r : Region) (a : BitVec 19) (v : Entry) : Region :=
  { r with dmem := SMap.set 0 r.dmem a.toNat v, upsets := SMap.set .clean r.upsets (dmemKey a.toNat) .clean }

/-- Words of a design-memory image from word `a` on, with their check bits, which the loader computes (R109). -/
def Region.loadDmem (r : Region) (a : Nat) (ws : List Nat) : Region :=
  { r with dmem := (ws.foldl (fun (x : SMap Entry × Nat) w => (SMap.set 0 x.1 x.2 (BitVec.ofNat 64 w), x.2 + 1)) (r.dmem, a)).1,
           upsets := SMap.keep (fun k => decide (k < a) || decide (a + ws.length ≤ k)) r.upsets }

/-- Ring words written from word `p` on, past the last word at word 0 (R121). -/
def ringPut (m : SMap Entry) (p : Nat) : List Entry → SMap Entry
  | [] => m
  | w :: t => ringPut (SMap.set 0 m (p % ringSize) w) (p + 1) t

def Region.putRing (r : Region) (p : Nat) (ws : List Entry) : Region :=
  { r with ring := ringPut r.ring p ws,
           upsets := SMap.keep (fun k => decide (k < 524288) || decide (ws.length ≤ (k - 524288 + ringSize - p % ringSize) % ringSize)) r.upsets }

/-- Ring word `p` as the trace writer reads it back: an uncorrectable word is used as 0 (R111). -/
def Region.ringAt (r : Region) (p : Nat) : Entry :=
  if r.checked (ringKey p) .clean == .uncorrectable then 0 else SMap.get 0 r.ring (p % ringSize)

/-- The words appended at HEAD (R132). -/
def Region.append (r : Region) (ws : List Entry) : Region :=
  let h := r.f F.RWD_HEAD_WORD
  let r := r.putRing h ws
  (r.setF F.RWD_HEAD_WORD ((h + ws.length) % ringSize)).setF F.RWD_FREE_WORDS (r.f F.RWD_FREE_WORDS - ws.length)

/-- Every mark loses USABLE (R132–R134). -/
def Region.unusable (r : Region) : Region := (List.range 64).foldl (fun r i => r.setF (F.RWD_MARK_USABLE i) 0) r

/-- A GAP record (R130, R133): written once enough words are free; every older mark loses USABLE. -/
def Region.writeGap (r : Region) : Region :=
  let w := BitVec.ofNat 64 (packKey [(1, 4), (r.rwd.gapCount.toNat, 32)])
  let r := r.append [recHeader r.rwd.gapCycle 1 false 7, w]
  let r := ((r.setF F.RWD_STATUS_FULL 0).setF F.RWD_STATUS_GAP 1).unusable
  { r with rwd := { r.rwd with gapCount := 0 } }

/-- A record is discarded for want of space (R133). -/
def Region.discard (r : Region) (cycle : BitVec 48) : Region :=
  let r := r.bump F.RWD_COUNTS_DISCARDED 1
  if r.bit F.RWD_STATUS_FULL then { r with rwd := { r.rwd with gapCount := satAdd r.rwd.gapCount 1 } }
  else { r.setF F.RWD_STATUS_FULL 1 with rwd := { r.rwd with gapCycle := cycle, gapCount := 1 } }

/-- A MARKER of kind GAP with a count of 0, or of kind BRANCH (R130, R134, R139, R228). -/
def Region.writeMarker (r : Region) (cycle : BitVec 48) (kind : Nat) : Region :=
  if ¬ r.recording then r
  else if r.bit F.RWD_STATUS_FULL ∨ r.f F.RWD_FREE_WORDS < 2 then r.discard cycle
  else
    let r := r.append [recHeader cycle 1 false 7, BitVec.ofNat 64 kind]
    if kind = 1 then (r.setF F.RWD_STATUS_GAP 1).unusable else r

/-- The GAP of a discard can be written: there is room for it again (R133). -/
def Region.gapFits (r : Region) : Bool :=
  r.recording && r.bit F.RWD_STATUS_FULL && decide (snapSpan ≤ r.f F.RWD_FREE_WORDS)

/-- A marker is due before any other record: that GAP, the BRANCH of a live resume (R139), the GAP of count 0 of a retouch or of REC_EN
(R134, R228). -/
def Region.markerDue (r : Region) : Bool := r.gapFits || r.rwd.branchDue.isSome || r.rwd.gapDue.isSome

/-- The first marker that is due is written, as one record. -/
def Region.settleOne (r : Region) : Region :=
  if r.gapFits then r.writeGap
  else
    match r.rwd.branchDue, r.rwd.gapDue with
    | some h, _ => { r with rwd := { r.rwd with branchDue := none } }.writeMarker h 2
    | none, some n => { r with rwd := { r.rwd with gapDue := none } }.writeMarker n 1
    | none, none => r

/-- Whether free space lies below WARN/64 of the ring (R133). -/
def Region.lowSpace (r : Region) : Bool := decide (r.f F.RWD_FREE_WORDS < 4096 * r.f F.RWD_CTRL_WARN)

/-- LOW and its IBI, where free space has fallen below the threshold since `before` (R133). -/
def lowCheck (s : State) (rg : Rg) (before : Region) : State :=
  if ¬ before.lowSpace ∧ (s.rgn rg).lowSpace then (s.setRf rg F.RWD_STATUS_LOW 1).ibi 0x06 (locOf rg) 0 else s

/-- The first marker that is due is written, and LOW follows (R133). -/
def settleMarker (s : State) (rg : Rg) : State := lowCheck (s.onRgn rg Region.settleOne) rg (s.rgn rg)

/-- The markers that are due are written: at most a GAP, a BRANCH and a GAP of count 0. -/
def settleMarkers (s : State) (rg : Rg) : State := settleMarker (settleMarker (settleMarker s rg) rg) rg

/-- A record is written at HEAD, or discarded while it does not fit (R133). -/
def ringWrite (s : State) (rg : Rg) (cycle : BitVec 48) (ws : List Entry) : State :=
  let r := s.rgn rg
  let b := r
  let r := if r.bit F.RWD_STATUS_FULL ∨ r.f F.RWD_FREE_WORDS < ws.length then r.discard cycle else r.append ws
  lowCheck (s.setRgn rg r) rg b

/-- An entry arrives at the undo buffer (R113): discarded while the region records nothing or the ring is full. -/
def pushUndo (s : State) (rg : Rg) (u : UndoEntry) : State :=
  let r := s.rgn rg
  if ¬ r.recording then s
  else if r.bit F.RWD_STATUS_FULL then s.setRgn rg (r.discard u.cycle)
  else s.setRgn rg { r with rwd := { r.rwd with undo := r.rwd.undo ++ [u] } }

/-- MEMWRs that the front port has taken and not performed. -/
def Region.writesTaken (r : Region) : Nat :=
  (r.front.filter (fun x => match x with | .wr .. => true | _ => false)).length

/-- The undo buffer has no room for one more entry beside those of the MEMWRs in flight (R113). While nothing is recorded, or while the
ring is full, entries are discarded on arrival and neither port waits. -/
def Region.undoFull (r : Region) : Bool :=
  r.recording && !r.bit F.RWD_STATUS_FULL && decide (32 ≤ r.rwd.undo.length + r.writesTaken)

/-- The record of an undo entry (R126). -/
def undoWords (u : UndoEntry) : List Entry :=
  let w0 := BitVec.ofNat 64 (packKey [(u.addr.toNat, 19), (u.pos.toNat, 13), (u.src.toNat, 3), (u.c.toNat, 4),
    (if u.poison then 1 else 0, 1)])
  match u.new with
  | none => [recHeader u.cycle 2 false 3, w0, u.old]
  | some n => [recHeader u.cycle 3 false 3, w0, u.old, n]

/-- The oldest undo entry leaves the buffer as a record (R113, R126). -/
def drainUndo (s : State) (rg : Rg) : State :=
  let r := s.rgn rg
  match r.rwd.undo with
  | [] => s
  | u :: t => ringWrite (s.setRgn rg { r with rwd := { r.rwd with undo := t } }) rg u.cycle (undoWords u)

/-- A boundary input is offered for a BIN record (R127): only while the region records. -/
def pushBin (s : State) (rg : Rg) (cycle : BitVec 48) (kind : Nat) (c : Cl) (entry source seq : Nat) (full : Bool)
    (data : Entry) : State :=
  let r := s.rgn rg
  if ¬ r.recording then s
  else
    let w0 := BitVec.ofNat 64 (packKey [(kind, 4), (c.toNat, 4), (entry, 10), (source, 4), (seq, 12), (if full then 1 else 0, 1)])
    s.setRgn rg { r with rwd := { r.rwd with bins := r.rwd.bins ++ [⟨cycle, w0, data⟩] } }

/-! ### The exchange shadow (R124, step 4) -/

/-- Slot `k` of cluster `c` is named by a valid map entry (R97, R124). -/
def Region.mapped (r : Region) (c k : Nat) : Bool :=
  (List.range 384).any (fun m =>
    let w := (r.reg (R.RGN_XMAP m)).toNat
    decide (w % 16 = k ∧ w / 16 % 16 = c ∧ w / 256 % 2 = 1))

/-- Slot `k` of cluster `c` is copied as it becomes full on the side of the cycle after the snapshot's (R124). -/
def Region.shadowSlot (r : Region) (c : Cl) (k : Nat) : Region :=
  match r.rwd.snap with
  | none => r
  | some sn =>
    let i := 16 * (sn.cycle.toNat % 2) + k
    let key := 16 * c.toNat + k
    if r.cycle = sn.cycle ∧ (r.cl c).exFull.getLsbD i ∧ (SMap.get none sn.exch key).isNone ∧ r.mapped c.toNat k then
      { r with rwd := { r.rwd with snap := some { sn with exch := SMap.set none sn.exch key (some (SMap.get 0 (r.cl c).exch i)) } } }
    else r

/-- A palette write at a fix is logged as an INJECT record with its SOURCE (R80, R127, R348); an exchange-in slot that it fills is
copied for a snapshot (R124). -/
def logInject (s : State) (rg : Rg) (c : Cl) (e source : Nat) : State :=
  let s := if 992 ≤ e ∧ e < 1008 then s.onRgn rg (fun r => r.shadowSlot c (e - 992)) else s
  let r := s.rgn rg
  let n := r.executing
  let k := r.cl c
  pushBin s rg n 3 c e source 0 (decide (992 ≤ e) && k.full n e) (k.peek n e)

/-! ### Back-port accesses (R110–R113) -/

/-- A read of the front port keeps the word that it has read, where a later write changes it (R101, R112). -/
def keepOld (r : Region) (a : BitVec 19) : FrontAcc → FrontAcc
  | .rd c k addr t stale none =>
    if addr = a then .rd c k addr t stale (some (SMap.get 0 r.dmem a.toNat, r.checked (dmemKey a.toNat) .clean))
    else .rd c k addr t stale none
  | x => x

/-- A back-port write of design memory (R110, R111, R113): the bytes that `be` enables, under the check's outcome; the old and
the new word go to the undo buffer. A write that finds the buffer full first has entries turned into records (R113). The front port's
reads have used their memory cycles before it (R112). -/
def backWrite (s : State) (rg : Rg) (src : Nat) (a : BitVec 19) (be : BitVec 8) (v : Entry) (e : Ecc) (undoNs : Word) : State :=
  let s := if (s.rgn rg).undoFull then drainUndo (settleMarkers (s.bumpR rg F.RWD_UNDO_WAIT_NS undoNs.toNat) rg) rg else s
  let r := s.rgn rg
  let e := r.checked (dmemKey a.toNat) e
  let bad := e == .uncorrectable
  let old := if bad then 0 else SMap.get 0 r.dmem a.toNat
  let bytes : Entry := BitVec.ofNat 64 (packKey ((List.range 8).map (fun i => (if be.getLsbD i then 255 else 0, 8))))
  let new := (old &&& ~~~ bytes) ||| (v &&& bytes)
  let s := s.setRgn rg { r.putDmem a new with front := r.front.map (keepOld r a) }
  let key := faultKey [(numOf rg, 4), (0, 1), (a.toNat, 19)]
  let s := match e with
    | .clean => s
    | .single => (s.bumpR rg F.DMEM_ERR_CE 1).noteFault 3 (quadOf rg) key
    | .uncorrectable =>
      let s := (s.bumpR rg F.DMEM_ERR_UE 1).noteFault 4 (quadOf rg) key
      let s := s.onRgn rg (fun r => r.setReg R.DMEM_UE_LAST (faultKey [(a.toNat, 19), (src, 3), (0, 1)]))
      if be = 255 then s else s.taint rg { cause := 4, detail := a.toNat }
  pushUndo s rg ⟨(s.rgn rg).executing, a, (s.rgn rg).takes, BitVec.ofNat 3 src, 0, bad, old, some new⟩

/-- The effect of a back-port read on the error counts, and the word it returns: none where the word is uncorrectable
(R111). -/
def backRead (s : State) (rg : Rg) (src : Nat) (ring : Bool) (a : Nat) (e : Ecc) : State × Option Entry :=
  let r := s.rgn rg
  let v := if ring then SMap.get 0 r.ring (a % ringSize) else SMap.get 0 r.dmem a
  let place := if ring then ringKey a else dmemKey a
  let e := r.checked place e
  let key := faultKey [(numOf rg, 4), (if ring then 1 else 0, 1), (a, 19)]
  match e with
  | .clean => (s, some v)
  | .single => (((s.onRgn rg (fun r => r.afterRead place e)).bumpR rg F.DMEM_ERR_CE 1).noteFault 3 (quadOf rg) key, some v)
  | .uncorrectable =>
    let s := ((s.onRgn rg (fun r => r.afterRead place e)).bumpR rg F.DMEM_ERR_UE 1).noteFault 4 (quadOf rg) key
    (s.onRgn rg (fun r => r.setReg R.DMEM_UE_LAST (faultKey [(a, 19), (src, 3), (if ring then 1 else 0, 1)])), none)

/-! ### Snapshots (R124, R125) -/

/-- The payload of SNAP: every state entry of every cluster (R125). -/
def snapWords (r : Region) (seq : BitVec 16) : List Entry :=
  BitVec.ofNat 64 (r.f F.RGN_STATUS_EPOCH + 256 * seq.toNat) ::
    (List.range 4096).map (fun i => SMap.get 0 (r.cl (BitVec.ofNat 4 (i / 256))).pal (i % 256))

/-- The port shadow: entries 1008–1019 of all clusters (R124, step 1). -/
def portShadow (r : Region) : SMap Entry :=
  (List.range 192).foldl (fun m i => SMap.set 0 m i (SMap.get 0 (r.cl (BitVec.ofNat 4 (i / 12))).ports (i % 12))) []

def fullShadow (r : Region) : SMap (BitVec 12) :=
  (List.range 16).foldl (fun m c => SMap.set 0 m c (r.cl (BitVec.ofNat 4 c)).portFull) []

/-- Every slot that a valid map entry names (R124), by key 16 c + k. -/
def Region.mappedSlots (r : Region) : List Nat := (List.range 256).filter (fun i => r.mapped (i / 16) (i % 16))

/-- Every mapped slot has been copied (R124). -/
def Region.shadowsFull (r : Region) (sn : Snapshot) : Bool := r.mappedSlots.all (fun i => (SMap.get none sn.exch i).isSome)

/-- A snapshot is due at the fix of cycle `n` (R124). -/
def Region.snapDue (r : Region) (n : BitVec 48) : Bool :=
  r.recording && decide (r.f F.RWD_CTRL_SNAP_EVERY ≠ 0) && decide (n.toNat % r.f F.RWD_CTRL_SNAP_EVERY = 0)

/-- The snapshot of cycle `n` at step 5 of its fix (R124): the state banks are copied to the shadows, the span is reserved, the mark
of the snapshot opens, and the slots that are full already are copied. `sh` and `fl` are the port shadow taken at the beginning of the fix.
True where it was taken. -/
def takeSnapshot (s : State) (rg : Rg) (n : BitVec 48) (sh : SMap Entry) (fl : SMap (BitVec 12)) : State × Bool :=
  let b := s.rgn rg
  let r := b
  if r.rwd.snap.isSome ∨ r.f F.RWD_FREE_WORDS < snapSpan then (s.setRgn rg (r.bump F.RWD_COUNTS_SNAP_SKIP 1), false)
  else
    let h := r.f F.RWD_HEAD_WORD
    let seq := r.rwd.seq
    let i := seq.toNat % 64
    let sn : Snapshot := { cycle := n, pos := BitVec.ofNat 18 h, seq := seq, state := recHeader n 0 false 1 :: snapWords r seq,
                           ports := sh, full := fl, exch := [] }
    let r := (r.setF F.RWD_HEAD_WORD ((h + snapSpan) % ringSize)).setF F.RWD_FREE_WORDS (r.f F.RWD_FREE_WORDS - snapSpan)
    let r := { r with rwd := { r.rwd with seq := seq + 1, snap := some sn } }
    let r := r.set48 (R.RWD_MARK i) (R.RWD_MARK_1 i) n
    let r := (r.setF (F.RWD_MARK_VALID i) 1).setF (F.RWD_MARK_USABLE i) 1
    let r := ((r.setF (F.RWD_MARK_COMPLETE i) 0).setF (F.RWD_MARK_POS i) h).setF F.RWD_STATUS_SNAP_PENDING 1
    let r := r.mappedSlots.foldl (fun (r : Region) x => r.shadowSlot (BitVec.ofNat 4 (x / 16)) (x % 16)) r
    (lowCheck (s.setRgn rg r) rg b, true)

/-- The flags of 16 clusters packed four to a word (R125). -/
def packFlags (f : Nat → Nat) : List Entry :=
  (List.range 4).map (fun i => BitVec.ofNat 64 (packKey ((List.range 4).map (fun j => (f (4 * i + j), 16)))))

/-- SNAPX, its header first (R125). -/
def snapxWords (r : Region) (sn : Snapshot) : List Entry :=
  recHeader sn.cycle 457 false 2 :: BitVec.ofNat 64 (r.f F.RGN_STATUS_EPOCH + 256 * sn.seq.toNat) ::
    (List.range 256).map (fun i => (SMap.get none sn.exch i).getD 0) ++
    packFlags (fun c => packKey ((List.range 16).map (fun k => (if r.mapped c k then 1 else 0, 1)))) ++
    (List.range 192).map (fun i => SMap.get 0 sn.ports i) ++
    packFlags (fun c => (SMap.get 0 sn.full c).toNat)

/-- Words of a SNAP record with its header. -/
def snapLen : Nat := 4098

/-- Up to `n` words of the snapshot are written from the shadows to its reserved words: SNAP, then SNAPX, of which one write takes no words
together. The snapshot whose SNAPX is written is complete (R124). -/
def Region.writeSnap (r : Region) (n : Nat) : Region :=
  match r.rwd.snap with
  | none => r
  | some sn =>
    let ws := (if sn.done < snapLen then sn.state.drop sn.done else (snapxWords r sn).drop (sn.done - snapLen)).take n
    let done := sn.done + ws.length
    let r := { r.putRing (sn.pos.toNat + sn.done) ws with rwd := { r.rwd with snap := some { sn with done := done } } }
    if done < snapSpan then r
    else
      let i := sn.seq.toNat % 64
      ({ r with rwd := { r.rwd with snap := none } }.setF (F.RWD_MARK_COMPLETE i) (if r.shadowsFull sn then 1 else 0)).setF
        F.RWD_STATUS_SNAP_PENDING 0

/-- The trace writer can write words of a snapshot: of SNAP, or of SNAPX once every mapped slot is copied, or once a rewind waits for it, when
the slots that are missing read as 0; nothing while the region does not record (R124, R134). -/
def Region.snapReady (r : Region) : Bool :=
  match r.rwd.snap with
  | none => false
  | some sn => r.recording && (decide (sn.done < snapLen) || r.shadowsFull sn || r.rwd.restoring.isSome)

/-- The trace writer holds nothing that it has still to write. -/
def Region.writerIdle (r : Region) : Bool :=
  r.rwd.undo.isEmpty && r.rwd.bins.isEmpty && r.rwd.merges.isEmpty && r.rwd.probes.isEmpty && (!r.recording || (r.rwd.snap.isNone && !r.markerDue))

/-! ### Reading the ring -/

/-- A record found in the ring: its place, its header's fields, and its payload's length (R122). -/
structure Rec where
  pos : Nat
  cycle : BitVec 48
  rpl : Bool
  typ : Nat
  len : Nat

/-- The header at ring word `p`; the headers of a snapshot stand for its reserved words from the reservation on (R124). -/
def Region.headerAt (r : Region) (p : Nat) : Entry :=
  match r.rwd.snap with
  | none => r.ringAt p
  | some sn =>
    if p % ringSize = sn.pos.toNat then recHeader sn.cycle 0 false 1
    else if p % ringSize = (sn.pos.toNat + snapLen) % ringSize then recHeader sn.cycle 457 false 2
    else r.ringAt p

/-- The records from word `p` on, within `n` words; the fuel bounds the walk. A header that its check finds uncorrectable counts as 0 (R111),
which is no type: the walk ends with it. -/
def recordsFrom (r : Region) : Nat → Nat → Nat → List Rec
  | 0, _, _ => []
  | f + 1, p, n =>
    if n = 0 then []
    else
      let h := r.headerAt p
      let typ := (bitsAt h 61 3).toNat
      let len := if typ = 1 then 4097 else (bitsAt h 48 12).toNat
      if typ = 0 then (if r.checked (ringKey p) .clean == .uncorrectable then [⟨p % ringSize, 0, false, 0, 0⟩] else [])
      else ⟨p % ringSize, bitsAt h 0 48, h.getLsbD 60, typ, len⟩ :: recordsFrom r f (p + len + 1) (n - (len + 1))

/-- The records from the snapshot that the region has been restored to, up to HEAD: those that restore and replay read (R132, R137, R138). -/
def Region.records (r : Region) : List Rec :=
  let n := (r.f F.RWD_HEAD_WORD + ringSize - r.rwd.restored.toNat) % ringSize
  let n := if n = 0 then ringSize else n
  recordsFrom r n r.rwd.restored.toNat n

/-- A BRANCH record (R130). -/
def Region.isBranch (r : Region) (x : Rec) : Bool := decide (x.typ = 7) && decide ((r.ringAt (x.pos + 1)).toNat % 16 = 2)

/-- The records that no later BRANCH supersedes and that no replay wrote (R131, R137). -/
def Region.liveFrom (r : Region) : List Rec → List Rec
  | [] => []
  | x :: t =>
    if x.rpl || t.any (fun y => r.isBranch y && decide (y.cycle.toNat < x.cycle.toNat)) then r.liveFrom t
    else x :: r.liveFrom t

def Region.liveRecords (r : Region) : List Rec := r.liveFrom r.records

/-- Payload word `i` of a record. -/
def Region.payload (r : Region) (x : Rec) (i : Nat) : Entry := r.ringAt (x.pos + 1 + i)

/-- The record that ring word `w` belongs to. -/
def Region.recordOf (r : Region) (w : Nat) : Option Rec := r.records.find? (fun x => decide ((w + ringSize - x.pos) % ringSize ≤ x.len))

/-- What the check of a ring word finds as restore or replay reads it (R111): it is corrected, or used as 0 and reported. The taint entry
names the cycle of the record (R454). -/
def ringError (s : State) (rg : Rg) (w : Nat) (cycle : BitVec 48) (e : Ecc) : State :=
  let s := (backRead s rg 4 true w e).1
  match e with
  | .uncorrectable =>
    (s.taintAt (some rg) cycle { cause := 5, detail := w }).setRf rg F.RWD_STATUS_RESTORE_TAINT 1
  | _ => s

/-- Ring words that hold an error, and the error. -/
def Region.ringUpsets (r : Region) : List (Nat × Ecc) := (r.upsets.filter (fun x => decide (524288 ≤ x.1))).map (fun x => (x.1 - 524288, x.2))

/-- The payload of a record is read in restore or replay: the errors that its words hold are met (R111). -/
def readRecord (s : State) (rg : Rg) (x : Rec) : State :=
  foldS (s.rgn rg).ringUpsets s (fun s u =>
    if (u.1 + ringSize - x.pos) % ringSize ≤ x.len then ringError s rg u.1 x.cycle u.2 else s)

/-- Replay meets the records of boundary inputs and MERGE decisions whose first word is uncorrectable: it counts as 0 and names nothing, and
the error is reported once (R111). They are those of cycles up to the next of the one in progress, which replay has come to. -/
def meetDamaged (s : State) (rg : Rg) : State :=
  let r := s.rgn rg
  let bad := r.liveRecords.filter (fun x => (x.typ = 4 ∨ x.typ = 5) && r.checked (ringKey (x.pos + 1)) .clean == .uncorrectable &&
    decide (r.rwd.replayFrom.toNat < x.cycle.toNat ∧ x.cycle.toNat ≤ r.executing.toNat + 1) &&
    decide (BitVec.ofNat 18 x.pos ∉ r.rwd.used))
  foldS bad s (fun s x =>
    (readRecord s rg x).onRgn rg (fun r => { r with rwd := { r.rwd with used := r.rwd.used ++ [BitVec.ofNat 18 x.pos] } }))

/-- The cycle of mark `i` (R143). -/
def Region.markCycle (r : Region) (i : Nat) : BitVec 48 :=
  BitVec.ofNat 48 (r.f (F.RWD_MARK_CYCLE_LO i) + 2 ^ 32 * r.f (F.RWD_MARK_CYCLE_HI i))

/-- The marks of snapshots that a BRANCH of cycle `h` supersedes lose USABLE (R131, R139). -/
def Region.branchMarks (r : Region) (h : BitVec 48) : Region :=
  (List.range 64).foldl (fun r i =>
    if r.bit (F.RWD_MARK_VALID i) ∧ h.toNat < (r.markCycle i).toNat then r.setF (F.RWD_MARK_USABLE i) 0 else r) r

end Sys2Proof.Machine
end

