-- ==== Sys2Proof/Machine/Canvas.lean ====
section
/-! DEFINITION. The canvas cells (R145–R156, R161): the firing of an instruction entry, MERGE and its log, reserved codes, the
fight detector. -/

namespace Sys2Proof.Machine

/-! ### Entries -/

/-- The instruction entry `e` of a configuration block (R148). -/
def cellEntry (b : BitVec 2048) (e : Nat) : BitVec 32 := bitsAt b (32 * e) 32

def entOpc (e : BitVec 32) : Nat := (bitsAt e 0 5).toNat
def entMod (e : BitVec 32) : Nat := (bitsAt e 5 2).toNat
def entA (e : BitVec 32) : Nat := (bitsAt e 8 2).toNat
def entB (e : BitVec 32) : Nat := (bitsAt e 10 2).toNat

/-- The operation reads operand A, B or C (R150). -/
def readsA (opc : Nat) : Bool := decide (opc ≤ 0x0A) || opc == 0x10 || opc == 0x11 || opc == 0x13
def readsB (opc : Nat) : Bool := (decide (1 ≤ opc) && decide (opc ≤ 8)) || opc == 0x11
def readsC (opc : Nat) : Bool := opc == 1 || opc == 2 || opc == 8 || opc == 9 || opc == 0x13

/-- The operations that act on the whole width of a chain (R156). -/
def wholeWidth (opc : Nat) : Bool := opc == 1 || opc == 2 || opc == 7 || opc == 9

/-- A reserved operation: a code the table does not list, or MERGE in a chain (R150, R156). -/
def reservedOpc (opc : Nat) (chained : Bool) : Bool :=
  !(decide (opc ≤ 0x0A) || opc == 0x10 || opc == 0x11 || opc == 0x13 || (opc == 0x12 && !chained))

/-- The cells that fire together with cell `n`: itself, or its chain where it is the LOW cell; none where it cannot lead
(R155, R156). -/
def firingCells (s : State) (rg : Rg) (n : CellNo) : List CellNo :=
  let b := s.cellCfg rg n
  if cfgMode b ≠ 1 then []
  else if cfgChain b = 0 then [n]
  else if cfgChain b = 1 ∧ chainSound s rg n ∧ (chainCells b n).all (fun m => decide (cfgMode (s.cellCfg rg m) = 1)) then chainCells b n
  else []

/-- The canvas of the region runs (R26, R22). -/
def Region.canvasRuns (r : Region) : Bool := r.live && decide (r.f F.RGN_STATUS_CFG ≠ 3) && !r.bit F.RGN_STATUS_RESET_BUSY

/-- Cell `n` can take a token: it runs, no clamp holds it, and its emitted outputs have completed (R149, step 5). -/
def cellFree (s : State) (rg : Rg) (n : CellNo) : Bool :=
  let x := (s.rgn rg).cell n
  (s.rgn rg).canvasRuns && !x.clamped && !x.owed && x.y0.isNone && x.y1.isNone && x.f.isNone

/-- The entry that a cell selects: SDEF, or bits [1:0] of the token on S (R149, step 1). -/
def selectedEntry (s : State) (rg : Rg) (n : CellNo) : Option Nat :=
  let b := s.cellCfg rg n
  if cfgSsrc b then (inputToken s rg n 3).map (fun x => x.2.toNat % 4) else some (cfgSdef b)

/-! ### The operations (R150) -/

/-- What one cell computes: its Y0 and Y1, where the operation produces them, the result that its flags describe, the carry or
borrow out, the signed overflow, and the accumulator after it. -/
structure CellOut where
  y0 : Option (BitVec 16)
  y1 : Option (BitVec 16)
  res : BitVec 16
  carry : Bool
  ovf : Bool
  acc : BitVec 16

/-- A + B + carry in 16 bits: sum, carry out, signed overflow. -/
def add16 (a b : BitVec 16) (c : Bool) : BitVec 16 × Bool × Bool :=
  let n := a.toNat + b.toNat + c.toNat
  let v := BitVec.ofNat 16 n
  (v, decide (65536 ≤ n), decide (a.toInt + b.toInt + c.toNat ≠ v.toInt))

/-- A − B − borrow in 16 bits: difference, borrow out, signed overflow. -/
def sub16 (a b : BitVec 16) (c : Bool) : BitVec 16 × Bool × Bool :=
  let v := a - b - (if c then 1 else 0)
  (v, decide (a.toNat < b.toNat + c.toNat), decide (a.toInt - b.toInt - c.toNat ≠ v.toInt))

/-- SHIFT: the result and the last bit shifted out (R150). -/
def shift16 (a : BitVec 16) (n m : Nat) : BitVec 16 × Bool :=
  match m with
  | 0 => (a <<< n, decide (n ≠ 0) && a.getLsbD (16 - n))
  | 1 => (a >>> n, decide (n ≠ 0) && a.getLsbD (n - 1))
  | 2 => (a.sshiftRight n, decide (n ≠ 0) && a.getLsbD (n - 1))
  | _ => (a.rotateLeft n, false)

/-- The result of operation `opc` on A, B and the carry or C bit. -/
def cellCompute (opc md : Nat) (a b : BitVec 16) (c : Bool) (acc : BitVec 16) : CellOut :=
  let plain (v : BitVec 16) : CellOut := ⟨some v, none, v, false, false, acc⟩
  match opc with
  | 0x00 => plain a
  | 0x01 => let (v, k, o) := add16 a b c; ⟨some v, none, v, k, o, acc⟩
  | 0x02 => let (v, k, o) := sub16 a b c; ⟨some v, none, v, k, o, acc⟩
  | 0x03 => plain (a &&& b)
  | 0x04 => plain (a ||| b)
  | 0x05 => plain (a ^^^ b)
  | 0x06 => let (v, k) := shift16 a (b.toNat % 16) md; ⟨some v, none, v, k, false, acc⟩
  | 0x07 => let (v, k, o) := sub16 a b c; ⟨none, none, v, k, o, acc⟩
  | 0x08 => plain (if c then b else a)
  | 0x09 =>
    match md with
    | 0 => let (v, k, o) := add16 acc a c; ⟨some v, none, v, k, o, v⟩
    | 1 => let (v, k, o) := sub16 acc a c; ⟨some v, none, v, k, o, v⟩
    | 2 => ⟨some a, none, a, false, false, a⟩
    | _ => ⟨some acc, none, 0, false, false, 0⟩
  | 0x0A => ⟨none, none, a, false, false, acc⟩
  | 0x10 => ⟨some a, some a, a, false, false, acc⟩
  | 0x11 => ⟨some a, some b, a, false, false, acc⟩
  | _ => if c then ⟨none, some a, a, false, false, acc⟩ else ⟨some a, none, a, false, false, acc⟩

/-- F of a cell or of a chain, whose last cell answered `o` and whose results `all` it describes (R150, R156). -/
def cellFlags (opc : Nat) (b : BitVec 2048) (a : BitVec 16) (o : CellOut) (all : List (BitVec 16)) : BitVec 4 :=
  let zero := all.all (fun v => decide (v = 0))
  if opc = 0x07 then
    BitVec.ofNat 4 (zero.toNat + 2 * o.carry.toNat + 4 * (xor (o.res.getLsbD 15) o.ovf).toNat)
  else if opc = 0x0A then lutFlags b a
  else BitVec.ofNat 4 (o.carry.toNat + 2 * zero.toNat + 4 * (o.res.getLsbD 15).toNat + 8 * o.ovf.toNat)

/-! ### Firing -/

/-- A cell reads its Q (R148, R162): as the latches stand at capture; while the latch clock is active, any value. -/
def readQ (s : State) (rg : Rg) (n : CellNo) : BitVec 16 × State :=
  let x := (s.rgn rg).cell n
  if x.clk then s.draw 16 else (x.q, s)

/-- Operand A or B by its source code (R148): channel, IMM, ACC or Q. -/
def cellOperand (s : State) (rg : Rg) (n : CellNo) (e : BitVec 32) (src port : Nat) : BitVec 16 × State :=
  match src with
  | 0 => (match inputToken s rg n port with | some (_, v) => v | none => 0, s)
  | 1 => (bitsAt e 16 16, s)
  | 2 => (((s.rgn rg).cell n).acc, s)
  | _ => readQ s rg n

/-- The channels that the entry of a cell reads: ports 0 A, 1 B, 2 C. MID and HIGH cells take the carry of their neighbour in
place of C (R149, R156). -/
def entryPorts (e : BitVec 32) (low : Bool) : List Nat :=
  let o := entOpc e
  (if readsA o && entA e == 0 then [0] else []) ++ (if readsB o && entB e == 0 then [1] else []) ++
    (if readsC o && !e.getLsbD 15 && (low || !wholeWidth o) then [2] else [])

/-- The entry emits on an output (R149): one that its operation produces and that is enabled. STEER emits exactly one output, and so no F
(R150); where it reads no channel, its C is 0 and that output is Y0. -/
def entryEmits (e : BitVec 32) (last : Bool) : Bool :=
  let o := entOpc e
  !reservedOpc o true && ((e.getLsbD 12 && o != 0x07 && o != 0x0A) || (e.getLsbD 13 && (o == 0x10 || o == 0x11)) || (e.getLsbD 14 && last && o != 0x13))

/-- The latches follow D while they are transparent (R147, R161). -/
def Cell.follow (b : BitVec 2048) (x : Cell) : Cell :=
  if x.clk ∧ cfgField b 201 1 = 0 ∧ cfgField b 203 2 = 0 then { x with q := x.hold } else x

/-- One cell of a firing takes its results: outputs, accumulator and the Y0 hold register. -/
def Cell.fired (b : BitVec 2048) (e : BitVec 32) (o : CellOut) (f : Option (BitVec 4)) (x : Cell) : Cell :=
  Cell.follow b { x with
    acc := o.acc, hold := o.y0.getD x.hold,
    y0 := if e.getLsbD 12 then o.y0 else none,
    y1 := if e.getLsbD 13 then o.y1 else none,
    f := f }

/-- The cells of a firing compute one after the other, the carry passing to the next; each captures its inputs first. `all`
gathers the results. A reserved code behind the LOW cell emits nothing and is counted (R151). -/
def fireCells (s : State) (rg : Rg) (ei : Nat) (carry : Bool) (all : List (BitVec 16)) (low : Bool) : List CellNo → State
  | [] => s
  | n :: t =>
    let b := s.cellCfg rg n
    let e := cellEntry b ei
    let o := entOpc e
    let (va, s) := cellOperand s rg n e (entA e) 0
    let (vb, s) := cellOperand s rg n e (entB e) 1
    let own : Bool := !e.getLsbD 15 && (match inputToken s rg n 2 with | some (_, v) => v.getLsbD 0 | none => false)
    let c := if wholeWidth o && !low then carry else if o = 0x07 then false else own
    let acc := ((s.rgn rg).cell n).acc
    let res := reservedOpc o true
    let out := if res then ⟨none, none, 0, false, false, acc⟩ else cellCompute o (entMod e) va vb c acc
    let s := if res then s.bumpR rg F.CNV_ERR_RSVD_OPC 1 else s
    let all := all ++ [out.res]
    let f := if e.getLsbD 14 && t.isEmpty && !res && o != 0x13 then some (cellFlags o b va out all) else none
    let ports := (entryPorts e low).filter (fun p => !(o == 0x10 && p == 0))
    let s := foldS ports s (fun s p => takeInput s rg n p)
    let s := s.onRgn rg (fun r => r.setCell n (Cell.fired b e out f (r.cell n)))
    let x := (s.rgn rg).cell n
    let forkA := o == 0x10 && entA e == 0
    let s :=
      if forkA then
        if x.y0.isNone && x.y1.isNone then takeInput s rg n 0
        else s.onRgn rg (fun r => r.setCell n { r.cell n with owed := true })
      else s
    fireCells (dropCrossing s rg n) rg ei (out.carry && wholeWidth o) all false t

/-- The cells of a firing have every input they read (R149, step 2; R156). -/
def inputsReady (s : State) (rg : Rg) (ei : Nat) (low : Bool) : List CellNo → Bool
  | [] => true
  | n :: t =>
    (entryPorts (cellEntry (s.cellCfg rg n) ei) low).all (fun p => (inputToken s rg n p).isSome) && inputsReady s rg ei false t

/-- A firing reads a channel or emits a token: without either, and without a token on S, the entry does not fire (R149). -/
def firingActs (s : State) (rg : Rg) (ei : Nat) (low : Bool) : List CellNo → Bool
  | [] => false
  | n :: t =>
    let e := cellEntry (s.cellCfg rg n) ei
    !(entryPorts e low).isEmpty || entryEmits e t.isEmpty || firingActs s rg ei false t

/-- The S token of a cell is consumed where SSRC is 1 (R149, step 3). -/
def takeS (s : State) (rg : Rg) (n : CellNo) : State :=
  if cfgSsrc (s.cellCfg rg n) then (match inputToken s rg n 3 with | some (d, _) => takeToken s d | none => s) else s

/-- Cell `n`, or the chain it leads, fires where its selected entry carries operation `opc` (R149, R156). -/
def fire (s : State) (rg : Rg) (n : CellNo) (opc : Nat) : State :=
  let cells := firingCells s rg n
  match selectedEntry s rg n with
  | none => s
  | some ei =>
    if cells ≠ [] ∧ entOpc (cellEntry (s.cellCfg rg n) ei) = opc ∧ cells.all (cellFree s rg) ∧ inputsReady s rg ei true cells ∧
        (cfgSsrc (s.cellCfg rg n) ∨ firingActs s rg ei true cells) then
      fireCells (takeS s rg n) rg ei false [] true cells
    else s

def execCnvPass (rg : Rg) (n : CellNo) (s : State) : Host.Outcome State Fault Refusal := .next (fire s rg n 0x00)
def execCnvAdd (rg : Rg) (n : CellNo) (s : State) : Host.Outcome State Fault Refusal := .next (fire s rg n 0x01)
def execCnvSub (rg : Rg) (n : CellNo) (s : State) : Host.Outcome State Fault Refusal := .next (fire s rg n 0x02)
def execCnvAnd (rg : Rg) (n : CellNo) (s : State) : Host.Outcome State Fault Refusal := .next (fire s rg n 0x03)
def execCnvOr (rg : Rg) (n : CellNo) (s : State) : Host.Outcome State Fault Refusal := .next (fire s rg n 0x04)
def execCnvXor (rg : Rg) (n : CellNo) (s : State) : Host.Outcome State Fault Refusal := .next (fire s rg n 0x05)
def execCnvShift (rg : Rg) (n : CellNo) (s : State) : Host.Outcome State Fault Refusal := .next (fire s rg n 0x06)
def execCnvCmp (rg : Rg) (n : CellNo) (s : State) : Host.Outcome State Fault Refusal := .next (fire s rg n 0x07)
def execCnvMux (rg : Rg) (n : CellNo) (s : State) : Host.Outcome State Fault Refusal := .next (fire s rg n 0x08)
def execCnvAcc (rg : Rg) (n : CellNo) (s : State) : Host.Outcome State Fault Refusal := .next (fire s rg n 0x09)
def execCnvLut (rg : Rg) (n : CellNo) (s : State) : Host.Outcome State Fault Refusal := .next (fire s rg n 0x0A)
def execCnvFork (rg : Rg) (n : CellNo) (s : State) : Host.Outcome State Fault Refusal := .next (fire s rg n 0x10)
def execCnvJoin (rg : Rg) (n : CellNo) (s : State) : Host.Outcome State Fault Refusal := .next (fire s rg n 0x11)
def execCnvSteer (rg : Rg) (n : CellNo) (s : State) : Host.Outcome State Fault Refusal := .next (fire s rg n 0x13)

/-! ### MERGE (R152–R154) -/

/-- A cell logs its MERGE decisions (R153). -/
def mergeLogged (s : State) (rg : Rg) (n : CellNo) : Bool :=
  let b := s.cellCfg rg n
  cfgField b 209 1 == 1 && cfgMode b == 1 && cfgChain b == 0 && (s.jobOf rg).isSome

/-- The MERGE records of a cell in the cycle being executed, in their order (R128, R138). -/
def mergeRecs (r : Region) (n : CellNo) : List Rec :=
  r.liveRecords.filter (fun x => decide (x.typ = 5) && decide (x.cycle = r.executing) &&
    decide ((r.payload x 0).toNat % 1024 = n.toNat))

/-- The decisions that they hold. -/
def recordedMerges (r : Region) (n : CellNo) : List Bool :=
  (mergeRecs r n).flatMap (fun x =>
    (List.range ((r.payload x 0).toNat / 4096 % 4096)).map (fun i => (r.payload x (1 + i / 64)).getLsbD (i % 64)))

/-- The token that a MERGE passes, and where it goes. -/
def passMerge (s : State) (rg : Rg) (n : CellNo) (e : BitVec 32) (pickB : Bool) : State :=
  let b := s.cellCfg rg n
  let src := if pickB then entB e else entA e
  let port := if pickB then 1 else 0
  let (v, s) := cellOperand s rg n e src port
  let out : CellOut := ⟨some v, none, v, false, false, ((s.rgn rg).cell n).acc⟩
  let s := if src = 0 then takeInput s rg n port else s
  let f := if e.getLsbD 14 then some (BitVec.ofNat 4 (pickB.toNat + 2 * (decide (v = 0)).toNat + 4 * (v.getLsbD 15).toNat)) else none
  dropCrossing (s.onRgn rg (fun r => r.setCell n { Cell.fired b e out f (r.cell n) with waited := false })) rg n

/-- A MERGE decision goes to the cell's log slot (R153). -/
def logMerge (s : State) (rg : Rg) (n : CellNo) (pickB : Bool) : State :=
  s.onRgn rg (fun r =>
    let k := cfgField (s.cellCfg rg n) 205 4
    let m := SMap.get {} r.mlog k
    { r with mlog := SMap.set {} r.mlog k ⟨n, m.bits ++ [pickB]⟩ })

/-- MERGE (R152–R154): `pickB` is the choice of the mutual-exclusion element. A logged cell whose two buffers are full holds the
token back; in a replay it follows its records and passes none once they are used up. -/
def execCnvMerge (rg : Rg) (n : CellNo) (pickB : Bool) (s : State) : Host.Outcome State Fault Refusal :=
  .next (
    match selectedEntry s rg n with
    | none => s
    | some ei =>
      let e := cellEntry (s.cellCfg rg n) ei
      let r := s.rgn rg
      let src := if pickB then entB e else entA e
      if firingCells s rg n ≠ [n] ∨ cfgChain (s.cellCfg rg n) ≠ 0 ∨ entOpc e ≠ 0x12 ∨ ¬ cellFree s rg n ∨
          ¬ (src ≠ 0 ∨ (inputToken s rg n (if pickB then 1 else 0)).isSome) ∨
          (entA e ≠ 0 ∧ entB e ≠ 0 ∧ ¬ e.getLsbD 12 ∧ ¬ e.getLsbD 14 ∧ ¬ cfgSsrc (s.cellCfg rg n)) then s
      else if ¬ mergeLogged s rg n then passMerge (takeS s rg n) rg n e pickB
      else if r.replaying then
        let used := SMap.get 0 r.rwd.mused n.toNat
        let s := if used = 0 then foldS (mergeRecs r n) s (fun s x => readRecord s rg x) else s
        if (recordedMerges (s.rgn rg) n)[used]? = some pickB then
          let s := s.onRgn rg (fun r => { r with rwd := { r.rwd with mused := SMap.set 0 r.rwd.mused n.toNat (used + 1) } })
          passMerge (takeS s rg n) rg n e pickB
        else s
      else if 2 * 4095 ≤ (SMap.get {} r.mlog (cfgField (s.cellCfg rg n) 205 4)).bits.length then
        if (r.cell n).waited then s
        else (s.bumpR rg F.CNV_MLOG_FULL_WAIT 1).onRgn rg (fun r => r.setCell n { r.cell n with waited := true })
      else logMerge (passMerge (takeS s rg n) rg n e pickB) rg n pickB)

/-- A reserved OPC (R151): it consumes only the S token, if SSRC is 1, and is counted; with SSRC = 0 it is counted once. -/
def execCnvReservedOpc (rg : Rg) (n : CellNo) (s : State) : Host.Outcome State Fault Refusal :=
  let cells := firingCells s rg n
  .next (
    match selectedEntry s rg n with
    | none => s
    | some ei =>
      if cells = [] ∨ ¬ cells.all (cellFree s rg) ∨
          ¬ reservedOpc (entOpc (cellEntry (s.cellCfg rg n) ei)) (decide (cfgChain (s.cellCfg rg n) ≠ 0)) then s
      else if cfgSsrc (s.cellCfg rg n) then takeS (s.bumpR rg F.CNV_ERR_RSVD_OPC 1) rg n
      else if ((s.rgn rg).cell n).counted then s
      else (s.bumpR rg F.CNV_ERR_RSVD_OPC 1).onRgn rg (fun r => r.setCell n { r.cell n with counted := true }))

/-! ### Latches (R161) -/

/-- The level of the wire that LCLK names, where it has one. An acknowledge wire is low but for the pulses of `ackPulse`. -/
def latchLevel (s : State) (rg : Rg) (n : CellNo) : Option Bool :=
  let v := cfgField (s.cellCfg rg n) 750 6
  if 57 ≤ v then some false else (selSingle v).bind (fun x => trackLevel s rg (boxOf rg n) x.1 x.2)

/-- The latches of a cell as it begins to run after a configuration or a region reset: one that is transparent on a wire that stands active follows
it; where the wire has no level that the spec gives, it stands inactive. A level is no edge. -/
def startLatch (s : State) (rg : Rg) (n : CellNo) : State :=
  let b := s.cellCfg rg n
  if (cfgMode b ≠ 1 ∧ cfgMode b ≠ 2) ∨ chainOff s rg n ∨ ¬ latchClocked b then s
  else
    match latchLevel s rg n with
    | none => s
    | some l =>
      let (v, s) := if cfgField b 203 2 = 1 ∨ cfgField b 203 2 = 2 then s.draw 16 else (0, s)
      s.onRgn rg (fun r =>
        let x := r.cell n
        let y := Cell.clockTo b l (staticWires s rg n v) x
        r.setCell n (if cfgField b 201 1 = 1 then { y with q := x.q } else y))

/-- All latches of a region as it begins to run. -/
def startLatches (s : State) (rg : Rg) : State :=
  if ¬ (s.rgn rg).canvasRuns then s
  else foldS (s.rgn rg).canvas s (fun s e => startLatch s rg (BitVec.ofNat 10 e.1))

/-- The wire that LCLK names reaches its level, and with it what the cell's 16 STATIC wires carry takes effect on the latches (R161). `level` and
`wires` stand for the levels that the spec leaves open. -/
def execLatchClock (rg : Rg) (n : CellNo) (level : Bool) (wires : BitVec 16) (s : State) : Host.Outcome State Fault Refusal :=
  let b := s.cellCfg rg n
  let x := (s.rgn rg).cell n
  .next (
    if (cfgMode b ≠ 1 ∧ cfgMode b ≠ 2) ∨ chainOff s rg n ∨ ¬ latchClocked b ∨ ¬ (s.rgn rg).canvasRuns ∨ x.clamped then s
    else
      let level := (latchLevel s rg n).getD level
      s.onRgn rg (fun r => r.setCell n (Cell.clockTo b level (staticWires s rg n wires) x)))

/-! ### Fights (R167, R168) -/

/-- The number of disabled segments shows in FIGHT_CNT.DISABLED and in STATUS.FIGHT (R188). -/
def Region.showFights (r : Region) : Region :=
  (r.setF F.CNV_FIGHT_CNT_DISABLED (min r.disabled.length 255)).setF F.CNV_STATUS_FIGHT (if r.disabled.isEmpty then 0 else 1)

/-- Contention on a segment (R167): its drivers are disabled and it stays so, the first since the last clear is recorded, it is
counted, reported with ALERT_EN, and tainted in a job. -/
def execFight (rg : Rg) (sg : SegAt) (s : State) : Host.Outcome State Fault Refusal :=
  .next (
    match segNamed rg sg with
    | none => s
    | some g =>
      if segDisabled s (quadOf rg) g ∨ trackCount g.cls ≤ g.t then s
      else
        let s := s.onRgn rg (fun r =>
          let r := { r with disabled := r.disabled ++ [sg] }
          let r := if r.fightSeen then r else { r.setReg R.CNV_FIGHT_AT (sg.zeroExtend 32) with fightSeen := true }
          (r.bump F.CNV_FIGHT_CNT_FIGHTS 1).showFights)
        let s := s.noteFault 13 (quadOf rg) (faultKey [(numOf rg, 4), (sg.toNat, 18)])
        let s := if s.rbit rg F.CNV_CTRL_ALERT_EN then s.ibi 0x07 (locOf rg) 0 else s
        if (s.jobOf rg).isSome then s.taint rg { cause := 6, detail := sg.toNat } else s)

/-- The disabled segments of a region are re-checked against its configuration (R168): what is still contended stays disabled. -/
def recheckFights (s : State) (rg : Rg) (which : SegAt → Bool) : State :=
  let q := quadOf rg
  let bad (a : SegAt) : Bool := match segNamed rg a with | some g => !segQuiet s q g | none => false
  let s' := s.onRgn rg (fun r => { r with disabled := r.disabled.filter (fun a => !which a || bad a) }.showFights)
  if (s.rgn rg).disabled.any (fun a => which a && bad a) then s'.setRf rg F.CNV_STATUS_CLEAR_REFUSED 1 else s'

/-- FIGHT_CLEAR (R168, R188); a token that a segment enabled again carries to a crossing into a stopped region is discarded there (R166). -/
def execFightClear (rg : Rg) (s : State) : Host.Outcome State Fault Refusal :=
  .next (dropTokens (recheckFights (s.onRgn rg (fun r => { r with fightSeen := false })) rg (fun _ => true)) (quadOf rg))

end Sys2Proof.Machine
end

