-- ==== Sys2Proof/Machine/IoCells.lean ====
section
/-! DEFINITION. FIO and UIO cells (R173–R182): input and output tokens, enables, edges, delays, and the supplies of the banks. -/

namespace Sys2Proof.Machine

/-- The I/O cell that `i` and `uio` name: FIO 0–7, UIO 8–9. -/
def ioIndex (i : BitVec 3) (uio : Bool) : Nat := if uio then 8 + i.toNat % 2 else i.toNat

/-- Region `rg` owns pins (R173) and its canvas runs. -/
def ioRuns (s : State) (rg : Rg) : Bool := decide (numOf rg < 4) && (s.rgn rg).canvasRuns

/-- I/O cell `k` works: its canvas runs, and no retouch clamp holds it (R229). -/
def ioWorks (s : State) (rg : Rg) (k : Nat) : Bool := ioRuns s rg && !((s.rgn rg).cell (ioCellNo k)).clamped

/-- DIR and the modes of an I/O cell (R175, R180). -/
def ioDir (cfg : Nat) : Nat := cfg % 4
/-- Input mode: 0 TOKEN, 1 EDGE, 2 LEVEL, 3 STATIC; code 0 of a UIO acts as LEVEL. -/
def ioImode (cfg i : Nat) : Nat := let m := cfg / 4 % 4; if 8 ≤ i ∧ m = 0 then 2 else m
/-- Output mode: 0 TOKEN, 1 LEVEL, 2 STATIC, 3 parked; codes 0 and 3 of a UIO act as LEVEL. -/
def ioOmode (cfg i : Nat) : Nat := let m := cfg / 16 % 4; if 8 ≤ i then (if m = 2 then 2 else 1) else m
/-- Bits of one token: ×1, ×4 or ×16. -/
def ioGear (cfg : Nat) : Nat := match cfg / 1024 % 4 with | 1 => 4 | 2 => 16 | _ => 1
/-- EDGESEL (R175, R180). -/
def ioEdgeSel (cfg i : Nat) : Nat := if i < 8 then cfg / 4096 % 4 else cfg / 2048 % 4
/-- PARK (R175, R180). -/
def ioPark (cfg i : Nat) : Nat := if i < 8 then cfg / 16384 % 4 else cfg / 8192 % 4

/-- An overrun of an I/O cell is counted and its sticky bit set (R176, R178). -/
def noteOverrun (s : State) (rg : Rg) (i : Nat) : State :=
  (s.bumpR rg F.CNV_IOERR_OVERRUN 1).onRgn rg (fun r =>
    r.setReg R.CNV_IOSTICKY (r.reg R.CNV_IOSTICKY ||| (1 <<< i)))

/-- An input token of an I/O cell (R176, R178): a TOKEN sample group enters the input queue, or is discarded when its four places
are taken; an EDGE token carries the pending count. -/
def execFioInputToken (rg : Rg) (i : BitVec 3) (uio : Bool) (samples : BitVec 16) (s : State) :
    Host.Outcome State Fault Refusal :=
  let k := ioIndex i uio
  let cfg := s.ioCfg rg k
  let x := (s.rgn rg).ioCell k
  .next (
    if ¬ ioWorks s rg k ∨ ¬ ioInput cfg k then s
    else if ioImode cfg k = 0 then
      if ¬ ioClocked s rg k then s
      else
        let pin := samples.getLsbD (ioGear cfg - 1)
        if x.inQ.length < 4 then
          dropIo (s.onRgn rg (fun r => r.setIo k { x with inQ := x.inQ ++ [BitVec.ofNat 16 (samples.toNat % 2 ^ ioGear cfg)], pin := pin })) rg k
        else noteOverrun (s.onRgn rg (fun r => r.setIo k { x with pin := pin })) rg k
    else if ioImode cfg k = 1 ∧ x.edges ≠ 0 ∧ x.inQ = [] then
      s.onRgn rg (fun r => r.setIo k { x with inQ := [x.edges.zeroExtend 16], edges := 0 })
    else s)

/-- An edge of the pin (R176, R365): in EDGE mode one of the kind EDGESEL names joins the pending count, which stops at 15 with OVERRUN; in STATIC
mode the level drives single tracks directly. -/
def execEdgeInput (rg : Rg) (i : BitVec 3) (uio : Bool) (rising : Bool) (s : State) : Host.Outcome State Fault Refusal :=
  let k := ioIndex i uio
  let cfg := s.ioCfg rg k
  let sel := ioEdgeSel cfg k
  .next (
    if 4 ≤ numOf rg then s
    else
      let s := s.onRgn rg (fun r => r.setIo k { r.ioCell k with pin := rising })
      let x := (s.rgn rg).ioCell k
      if ¬ ioWorks s rg k ∨ ¬ ioInput cfg k ∨ ioImode cfg k ≠ 1 then s
      else if sel ≠ 2 ∧ rising ≠ decide (sel ≠ 1) then s
      else if x.edges = 15 then noteOverrun s rg k
      else s.onRgn rg (fun r => r.setIo k { x with edges := x.edges + 1 }))

/-- The token that waits for I/O cell `i` on the track of index 0 of a class (R174). -/
def ioToken (s : State) (rg : Rg) (i cls : Nat) : Option (Drive × BitVec 16) := seenToken s rg (ioSeg rg i cls)

/-- LEVEL input (R176): the request token is taken and answered with the pin level. -/
def execLevelRequest (rg : Rg) (i : BitVec 3) (uio level : Bool) (s : State) : Host.Outcome State Fault Refusal :=
  let k := ioIndex i uio
  let cfg := s.ioCfg rg k
  .next (
    if ¬ ioWorks s rg k ∨ ¬ ioInput cfg k ∨ ioImode cfg k ≠ 2 ∨ ((s.rgn rg).ioCell k).inQ ≠ [] then s
    else
      match ioToken s rg k 2 with
      | none => s
      | some (d, _) => (takeToken s d).onRgn rg (fun r => r.setIo k { r.ioCell k with inQ := [ofBool 16 level], pin := level }))

/-- An output queue with room takes the token that waits for it (R178); a full one withholds its acknowledge. -/
def fillOutQ (s : State) (rg : Rg) (k cls : Nat) : State :=
  match ioToken s rg k cls with
  | none => s
  | some (d, v) =>
    if ((s.rgn rg).ioCell k).outQ.length < 4 then
      (takeToken s d).onRgn rg (fun r => r.setIo k { r.ioCell k with outQ := (r.ioCell k).outQ ++ [v] })
    else s

/-- An output token is launched or sets the pin (R177, R178). With none ready the pin holds its last bit, and the period is
counted as an underrun. -/
def execFioOutputToken (rg : Rg) (i : BitVec 3) (uio : Bool) (s : State) : Host.Outcome State Fault Refusal :=
  let k := ioIndex i uio
  let cfg := s.ioCfg rg k
  .next (
    if ¬ ioWorks s rg k ∨ ioDir cfg ≠ 1 ∧ ioDir cfg ≠ 2 then s
    else
      match ioOmode cfg k with
      | 0 =>
        let s := fillOutQ s rg k (ioData cfg k)
        if ¬ ioClocked s rg k then s
        else
          let x := (s.rgn rg).ioCell k
          match x.outQ with
          | v :: t => s.onRgn rg (fun r => r.setIo k { x with outQ := t, level := v.getLsbD (ioGear cfg - 1) })
          | [] => (s.bumpR rg F.CNV_IOERR_UNDERRUN 1).onRgn rg (fun r =>
              r.setReg R.CNV_IOSTICKY (r.reg R.CNV_IOSTICKY ||| (1 <<< (16 + k))))
      | 1 =>
        match ioToken s rg k (ioData cfg k) with
        | some (d, v) => (takeToken s d).onRgn rg (fun r => r.setIo k { r.ioCell k with level := v.getLsbD 0 })
        | none => s
      | _ => s)

/-- As time passes, the output queues of a region's pins take the tokens that wait for them (R178). -/
def fillPins (s : State) (rg : Rg) : State :=
  if ¬ ioRuns s rg then s
  else foldS (List.range 8) s (fun s k =>
    let cfg := s.ioCfg rg k
    if ioDir cfg ≠ 1 ∧ ioDir cfg ≠ 2 ∨ ioOmode cfg k ≠ 0 ∨ ¬ ioWorks s rg k then s else fillOutQ s rg k (ioData cfg k))

/-- With DIR = 2 an enable token turns the driver on or off (R177). -/
def execEnableToken (rg : Rg) (i : BitVec 3) (uio : Bool) (s : State) : Host.Outcome State Fault Refusal :=
  let k := ioIndex i uio
  .next (
    if ¬ ioWorks s rg k ∨ ioDir (s.ioCfg rg k) ≠ 2 then s
    else
      match ioToken s rg k 2 with
      | some (d, v) => (takeToken s d).onRgn rg (fun r => r.setIo k { r.ioCell k with driven := v.getLsbD 0 })
      | none => s)

/-- The configured delays of an FIO pin (R175): IDELAY in the low byte. -/
def configuredDelay (s : State) (rg : Rg) (k : Nat) : Nat := cfgField (s.cellCfg rg (ioCellNo k)) 884 16

/-- A delay one step nearer to its target. -/
def stepTo (cur tgt : Nat) : Nat := if cur < tgt then cur + 1 else if tgt < cur then cur - 1 else cur

/-- BUSY shows that a delay still moves (R179). -/
def Region.showDelay (r : Region) (k : Nat) : Region :=
  let t := (r.ioCell k).dly.toNat
  let arrived := r.f (F.CNV_FIO_DLY_IDELAY k) = t % 256 ∧ r.f (F.CNV_FIO_DLY_ODELAY k) = t / 256
  r.setF (F.CNV_FIO_DLY_BUSY k) (if arrived then 0 else 1)

/-- A write of CNV.FIO_DLY (R179): the delays begin to move; without a running clock they take the value at once. -/
def writeDelay (s : State) (rg : Rg) (k idelay odelay : Nat) (clocked : Bool) : State :=
  s.onRgn rg (fun r =>
    let r := r.setIo k { r.ioCell k with dly := BitVec.ofNat 16 (idelay + 256 * odelay) }
    let r := if clocked then r else (r.setF (F.CNV_FIO_DLY_IDELAY k) idelay).setF (F.CNV_FIO_DLY_ODELAY k) odelay
    r.showDelay k)

def execFioDly (rg : Rg) (i : BitVec 3) (idelay odelay : BitVec 8) (clocked : Bool) (s : State) :
    Host.Outcome State Fault Refusal :=
  .next (if numOf rg < 4 then writeDelay s rg i.toNat idelay.toNat odelay.toNat (clocked && ioClocked s rg i.toNat) else s)

/-- Eight periods of the pin's clock have passed (R179). -/
def execDelayStep (rg : Rg) (i : BitVec 3) (s : State) : Host.Outcome State Fault Refusal :=
  let k := i.toNat
  .next (
    if numOf rg < 4 ∧ s.rbit rg (F.CNV_FIO_DLY_BUSY k) then
      s.onRgn rg (fun r =>
        let t := (r.ioCell k).dly.toNat
        let r := r.setF (F.CNV_FIO_DLY_IDELAY k) (stepTo (r.f (F.CNV_FIO_DLY_IDELAY k)) (t % 256))
        let r := r.setF (F.CNV_FIO_DLY_ODELAY k) (stepTo (r.f (F.CNV_FIO_DLY_ODELAY k)) (t / 256))
        r.showDelay k)
    else s)

/-- The configured delays take effect (R183, R228). -/
def resetDelays (s : State) (rg : Rg) : State :=
  if 4 ≤ numOf rg then s
  else foldS (List.range 8) s (fun s k =>
    let d := configuredDelay s rg k
    writeDelay s rg k (d % 256) (d / 256) false)

/-- The supplies are compared with their declared values: from DONE onwards (R181). -/
def State.supplyWatched (s : State) : Bool := decide (s.f F.CFG_STATUS_STATE = 4) || s.bit F.CFG_STATUS_DONE_SEEN

/-- A supply of quadrant `q` leaves ±10 % of its declared value (R181): watched from DONE onwards. Whether it is below its range is free (R492). -/
def execIoSupplyMismatch (q : Quad) (uio : Bool) (s : State) : Host.Outcome State Fault Refusal :=
  let rg := quadHome q.toNat
  .next (
    let (v, s) := s.draw 1
    let bit := 2 * q.toNat + uio.toNat
    let s := { s with pwr := { s.pwr with lowBanks := setBit s.pwr.lowBanks bit (v == 1#1) } }
    if ¬ s.supplyWatched then s
    else (s.setRf rg (if uio then F.CNV_BANK_UIO_VOK else F.CNV_BANK_FIO_VOK) 0).setRf rg F.CNV_BANK_VMISMATCH 1)

/-- It returns: the bank's outputs leave PARK (R181). -/
def execIoSupplyReturn (q : Quad) (uio : Bool) (s : State) : Host.Outcome State Fault Refusal :=
  let s := { s with pwr := { s.pwr with lowBanks := setBit s.pwr.lowBanks (2 * q.toNat + uio.toNat) false } }
  .next (s.setRf (quadHome q.toNat) (if uio then F.CNV_BANK_UIO_VOK else F.CNV_BANK_FIO_VOK) 1)

/-- The outputs of a bank of a region are held at PARK (R181, R182). -/
def ioParked (s : State) (rg : Rg) (uio : Bool) : Bool :=
  s.rbit rg F.RGN_CTRL_ISOLATE ||
    s.supplyWatched && !s.rbit (quadHome (quadOf rg)) (if uio then F.CNV_BANK_UIO_VOK else F.CNV_BANK_FIO_VOK)

/-- What stands at a pad from inside: a level that the pin drives, a level or toggling that a peripheral drives, the keeper, a pull of about 40 kΩ
up or down, or high-Z without keeper. -/
inductive PadOut where
  | drives (level : Bool) | peripheral | keeper | pull (up : Bool) | float
  deriving DecidableEq, Repr

/-- Every FIO, UIO and GPIO pad is high-Z without keeper (R427, R443, R492). -/
def State.padsFloat (s : State) : Bool := decide (s.pwr.boot = .noPower) || decide (s.pwr.boot = .thermal) || s.pwr.vflOut || s.pwr.vhubOut

/-- What an FIO or UIO pad shows (R175–R182, R492): high-Z with keeper until its I/O cell is configured, then PARK before USER (R203, R207). An input
pad has what PULL gives it. DESIGN CHOICE (log entry 153): a STATIC output whose track has no level keeps its last one. -/
def State.pad (s : State) (rg : Rg) (i : BitVec 3) (uio : Bool) : PadOut :=
  let k := ioIndex i uio
  let cfg := s.ioCfg rg k
  let x := (s.rgn rg).ioCell k
  let parked : PadOut := match ioPark cfg k with | 1 => .drives false | 2 => .drives true | _ => .keeper
  if s.padsFloat ∨ s.pwr.lowBanks.getLsbD (2 * quadOf rg + uio.toNat) then .float
  else if s.cellCfg rg (ioCellNo k) = 0 then .keeper
  else if ioInput cfg k ∨ ioClockPin cfg k then
    (if ¬ uio then .float
     else match cfg / 64 % 4 with | 1 => .keeper | 2 => .pull true | 3 => .pull false | _ => .float)
  else if ¬ (s.rgn rg).live ∨ ioParked s rg uio ∨ (k < 8 ∧ ioOmode cfg k = 3) ∨ ((s.rgn rg).cell (ioCellNo k)).clamped then parked
  else if ioDir cfg = 2 ∧ ¬ x.driven then .keeper
  else if ioOmode cfg k = 2 then .drives ((trackLevel s rg (boxOf rg (ioCellNo k)) false 0).getD x.level)
  else .drives x.level

end Sys2Proof.Machine
end

