-- ==== Sys2Proof/Machine/Arbiter.lean ====
section
/-! DEFINITION. The back-port arbiter (R112, R115–R120), and the MERGE records that the trace writer writes by its grants (R128). -/

namespace Sys2Proof.Machine

/-! ### The arbiter (R115–R118) -/

/-- The rounds a requester may lose before it is forced: 0 acts as 1 (R116). -/
def Region.waitLimit (r : Region) : Nat := max 1 (r.f F.DMEM_ARB_WAIT_LIMIT)

/-- The requesters that wait, as a bit mask (R142). -/
def Region.waiting (r : Region) : Nat := r.f F.DMEM_STATUS_WAITING

def Region.waits (r : Region) (q : Fin 6) : Bool := r.waiting.testBit q.val

def allRequesters : List (Fin 6) := [0, 1, 2, 3, 4, 5]

/-- The rank of a requester: 5 at the top of the order, 0 at the bottom (R116). -/
def rankIn (order : List (Fin 6)) (q : Fin 6) : Nat := 5 - order.idxOf q

/-- The requester of highest rank + age; a tie goes to the higher rank (R116). The order runs from the top, so the first of the
highest sum has the higher rank. -/
def byRank (a : Arbiter) (w : List (Fin 6)) : Option (Fin 6) :=
  let score (q : Fin 6) : Nat := rankIn a.rank q + (SMap.get 0 a.ages q.val).toNat
  (a.rank.filter (fun q => w.contains q)).foldl (fun best q =>
    match best with
    | none => some q
    | some b => if score b < score q then some q else some b) none

/-- The forced requesters among those that wait, the first to have reached the limit first (R116). -/
def forcedOf (a : Arbiter) (limit : Nat) (w : List (Fin 6)) : List (Fin 6) :=
  let f := w.filter (fun q => decide (limit ≤ (SMap.get 0 a.ages q.val).toNat))
  a.forced.filter (fun q => f.contains q) ++ f.filter (fun q => !a.forced.contains q)

/-- The choice of a round (R116, R118), and whether it was forced. -/
def Region.choose (r : Region) (w : List (Fin 6)) : Option (Fin 6) × Bool :=
  let a := r.arb
  match forcedOf a r.waitLimit w with
  | q :: _ => (some q, true)
  | [] =>
    if w.contains 5 ∧ ¬ (a.burstEnded ∧ w ≠ [5]) then (some 5, false)
    else (byRank a w, false)

/-- The book-keeping of a round that grants `g` out of `w` (R116): ages, the rank order, DMEM.AGE_MAX. -/
def Region.round (r : Region) (w : List (Fin 6)) (g : Fin 6) : Region :=
  let a := r.arb
  let limit := r.waitLimit
  let ages := w.foldl (fun m q => if q = g then m else SMap.set 0 m q.val (BitVec.ofNat 5 (min ((SMap.get 0 m q.val).toNat + 1) 31))) a.ages
  let reached := w.filter (fun q => decide (q ≠ g) && decide (limit ≤ (SMap.get 0 ages q.val).toNat) && !a.forced.contains q)
  let oldest := w.foldl (fun n q => max n (SMap.get 0 ages q.val).toNat) 0
  let r := { r with arb := { rank := a.rank.filter (fun q => decide (q ≠ g)) ++ [g], ages := SMap.set 0 ages g.val 0,
                             forced := a.forced.filter (fun q => decide (q ≠ g)) ++ reached, burstEnded := false } }
  if r.f F.DMEM_AGE_MAX_ROUNDS < oldest then r.setF F.DMEM_AGE_MAX_ROUNDS oldest else r

/-- Requester `g` is granted in a round of `w`. -/
def Region.grant (r : Region) (w : List (Fin 6)) (g : Fin 6) : Region :=
  let r := (r.round w g).setF F.DMEM_STATUS_WAITING (r.waiting &&& (63 - 2 ^ g.val))
  (r.setF F.DMEM_STATUS_OWNER g.val).setF F.DMEM_GRANT_TIME_NS 0

/-- A forced grant is counted (R117). -/
def Region.granted (r : Region) (w : List (Fin 6)) (g : Fin 6) (forced : Bool) : Region :=
  if forced then (r.grant w g).bump F.DMEM_ARB_EVENTS_FORCED 1 else r.grant w g

/-- The word offset of RWD.DATA in the window of a region (R143). -/
def ringWindow : Nat := 0x200000

/-- The access at the head of the helm bus is the debug port's, of a memory of region `rg` (R119, R135, R410). -/
def State.debugAsks (s : State) (rg : Rg) : Bool :=
  match s.bus with
  | [] => false
  | b :: _ =>
    let q := b.req.toNat
    let a := b.addr.toNat
    decide (b.who = .debug) &&
      (if b.req.getLsbD 0 then decide (BitVec.ofNat 6 (16 * (q / 16 % 4) + q / 64 % 16) = rg ∧ q / 1024 ∈ [0x13, 0x14])
       else decide (a / 0x400000 = 0x40 + rg.toNat ∧ ringWindow ≤ a % 0x400000))

/-- Without PREEMPT_EN the debug access that waits takes the next round ahead of every requester (R119). -/
def State.debugFirst (s : State) (rg : Rg) : Bool := !s.rbit rg F.DMEM_ARB_PREEMPT_EN && s.debugAsks rg

/-- ARBITER_ROUND (R116): the port is free and some requester waits. `first` is the requester that the mutual-exclusion element
lets through where the requests found the port free; `waitNs` is how long the granted one waited (R142). -/
def execArbiterRound (rg : Rg) (first : Option (Fin 6)) (waitNs : Word) (s : State) : Host.Outcome State Fault Refusal :=
  let r := s.rgn rg
  let w := allRequesters.filter r.waits
  let (g, forced) : Option (Fin 6) × Bool := match first with
    | some q => if w.contains q then (some q, false) else r.choose w
    | none => r.choose w
  .next (
    match g with
    | none => s
    | some g =>
      if r.f F.DMEM_STATUS_OWNER ≠ 6 ∨ s.debugFirst rg then s
      else s.setRgn rg ((r.granted w g forced).bump (F.DMEM_BACK_WAIT_NS g.val) waitNs.toNat))

/-- The owner drops its request (R115). -/
def Region.dropGrant (r : Region) : Region := (r.setF F.DMEM_STATUS_OWNER 6).setF F.DMEM_GRANT_TIME_NS 0

/-- Requester `q` begins to wait. -/
def Region.waitFor (r : Region) (q : Fin 6) : Region := r.setF F.DMEM_STATUS_WAITING (r.waiting ||| 2 ^ q.val)

/-- Requester `q` asks for the back port (R115–R119), and whether the grant is its own: it holds the grant; or the port is free and the
round among it and those that wait goes to it, where it arrives alone without a choice. What a requester that had to wait adds to BACK_WAIT
is time, which is free. -/
def askPort (s : State) (rg : Rg) (q : Fin 6) : State × Bool :=
  let r := s.rgn rg
  let o := r.f F.DMEM_STATUS_OWNER
  if o = q.val then (s, true)
  else if o ≠ 6 ∨ s.debugFirst rg then (s.onRgn rg (fun r => r.waitFor q), false)
  else if r.waiting = 0 then (s.setRgn rg (r.grant [q] q), true)
  else
    let w := allRequesters.filter (fun p => p == q || r.waits p)
    let (g, forced) := r.choose w
    let g := g.getD q
    let (ns, t) := if r.waits g then s.draw 32 else (0, s)
    (t.onRgn rg (fun r => ((r.waitFor q).granted w g forced).bump (F.DMEM_BACK_WAIT_NS g.val) ns.toNat), decide (g = q))

/-- Requester `q` uses the back port for `f`, and its grant ends with the access; or it waits and nothing is performed. -/
def usePort (s : State) (rg : Rg) (q : Fin 6) (f : State → State) : State :=
  let (s, mine) := askPort s rg q
  if mine then (f s).onRgn rg Region.dropGrant else s

/-- Accesses that the front port has taken use their memory cycles before any back-port access to design memory (R112). A MEMWR in flight
holds such an access up; a MEMRD has read its word. -/
def Region.frontWrites (r : Region) : Bool := r.front.any (fun x => match x with | .rd .. => false | _ => true)

/-- Requester `q` makes an access that returns a value, in a grant of its own (R116), which ends with it; or it waits. An access to design
memory (`dmem`) also waits for the writes that the front port has taken (R112). -/
def portGives {α : Type} (s : State) (rg : Rg) (q : Fin 6) (dmem : Bool) (f : State → State × α) : State × Option α :=
  let (s, mine) := askPort s rg q
  if mine ∧ ¬ (dmem ∧ (s.rgn rg).frontWrites) then
    let (s, x) := f s
    (s.onRgn rg Region.dropGrant, some x)
  else (s, none)

/-- A debug access to either memory (R119): with PREEMPT_EN it stops the owner at a word boundary, which then continues; without, it
waits until the port is free. -/
def debugPort {α : Type} (s : State) (rg : Rg) (dmem : Bool) (f : State → State × α) : Option (State × α) :=
  let r := s.rgn rg
  if dmem ∧ r.frontWrites then none
  else if r.f F.DMEM_STATUS_OWNER = 6 then some (f s)
  else if r.bit F.DMEM_ARB_PREEMPT_EN then some (f (s.bumpR rg F.DMEM_ARB_EVENTS_PREEMPT 1))
  else none

/-- The markers that are due are written, each in a grant of the trace writer, for as long as it gets them (R115). -/
def writeMarkers (s : State) (rg : Rg) : State :=
  [0, 1, 2].foldl (fun s (_ : Nat) => if (s.rgn rg).markerDue then usePort s rg 4 (fun s => settleMarker s rg) else s) s

/-- The trace writer writes one record by `f` in a grant of its own, after the markers that are due (R115, R133). -/
def traceGrant (s : State) (rg : Rg) (f : State → State) : State :=
  let s := writeMarkers s rg
  if (s.rgn rg).markerDue then s else usePort s rg 4 f

/-- The oldest MERGE record that waits is written (R128). -/
def writeMerge (s : State) (rg : Rg) : State :=
  let r := s.rgn rg
  match r.rwd.merges with
  | [] => s
  | (n, ws) :: t => ringWrite (s.setRgn rg { r with rwd := { r.rwd with merges := t } }) rg n ws

/-- MERGE records are written by grants of the trace writer, one for each record, for as long as it gets them; the others wait (R115). -/
def writeMerges (s : State) (rg : Rg) : State :=
  foldS (s.rgn rg).rwd.merges s (fun s _ => if (s.rgn rg).rwd.merges = [] then s else traceGrant s rg (fun s => writeMerge s rg))

end Sys2Proof.Machine
end

