-- ==== Sys2Proof/Machine/Strokes.lean ====
section
/-! DEFINITION. The strokes of a cluster (R64–R90): fetching and checking a stroke word, the operations of a BP, the stroke
barrier. -/

namespace Sys2Proof.Machine

/-- The key of stroke word `t` of BP `b` of cluster `c`. -/
def strokeKey (c : Cl) (b : Bp) (t : Nat) : Nat := (64 * c.toNat + b.toNat) * 2048 + t

/-- The stroke index that cluster `c` executes (R91). -/
def Region.strokeNo (r : Region) (c : Cl) : Nat := r.f (F.CLU_STATUS_STROKE c.toNat)

/-- CLU.END_AT (R75). -/
def Region.endAt (r : Region) (c : Cl) : Nat := r.f (F.CLU_END_AT_INDEX c.toNat)

/-- BP `b` has this stroke still to complete and waits on no cluster operation of its own (R84). -/
def bpTurn (r : Region) (c : Cl) (b : Bp) : Bool :=
  let k := r.cl c
  decide (r.f F.FIX_STATUS_STATE = 2) && k.running && !k.ended && !k.done.getLsbD b.toNat &&
    (decide (b ≠ 0) || decide (k.lead = .none))

/-- The BPs that wait on a port entry that is still empty, each with the first such entry in operand order; the lowest BP first. -/
def Cluster.stalls (k : Cluster) (n : BitVec 48) : List (Nat × BitVec 10) :=
  k.waits.filterMap (fun x => (x.2.find? (fun e => (k.read n e.toNat).isNone)).map (fun e => (x.1, e)))

/-- CLU.STATUS's stall fields: the entry and the number of the lowest BP that waits (R85). In an isolated region they stand (R107). -/
def Region.showStall (r : Region) (c : Cl) : Region :=
  let n := c.toNat
  if r.bit F.RGN_CTRL_ISOLATE then r
  else
  match (r.cl c).stalls r.executing with
  | [] => ((r.setF (F.CLU_STATUS_STALLED n) 0).setF (F.CLU_STATUS_STALL_ENTRY n) 0).setF (F.CLU_STATUS_STALL_BP n) 0
  | (b, e) :: _ => ((r.setF (F.CLU_STATUS_STALLED n) 1).setF (F.CLU_STATUS_STALL_ENTRY n) e.toNat).setF (F.CLU_STATUS_STALL_BP n) b

/-- The cluster ends its cycle (R75, R45): the stroke at END_AT is complete in all BPs, and every MEMWR and PROBE it issued has
been performed (R73). The time that this stroke stalled is not among the operands: a free value. -/
def tryEnd (s : State) (rg : Rg) (c : Cl) : State :=
  let r := s.rgn rg
  let k := r.cl c
  if k.running ∧ k.done = BitVec.allOnes 64 ∧ r.strokeNo c = r.endAt c ∧ k.memOut = 0 ∧ k.probeOut = 0 then
    (endStall s rg c).setCl rg c { k.commit k.writes with running := false, ended := true }
  else s

/-- BP `b` completes its stroke (R84), with the palette write it makes, if any. -/
def completeBp (s : State) (rg : Rg) (c : Cl) (b : Bp) (w : Option PalWrite) : State :=
  let s := s.onRgn rg (fun r =>
    let k := r.cl c
    (r.setCl c { k with done := setBit k.done b.toNat true, writes := k.writes ++ w.toList, waits := SMap.erase k.waits b.toNat,
                        lead := if b = 0 then .none else k.lead }).showStall c)
  tryEnd s rg c

/-- BP `b` completes its stroke. Where the lead BP does so at END_AT with another word than END, CLU.CYCLE_TIME takes the cycle's time, which
is not among the operands: a free value (R75, R88, R91). -/
def finishBp (s : State) (rg : Rg) (c : Cl) (b : Bp) (w : Option PalWrite) : State :=
  let s :=
    if b = 0 ∧ (s.rgn rg).strokeNo c = (s.rgn rg).endAt c then
      let (v, s) := s.draw 20
      s.setRf rg (F.CLU_CYCLE_TIME_LAST c.toNat) v.toNat
    else s
  completeBp s rg c b w

/-- BP `b` stalls on the empty port entries `es` (R83). -/
def stallBp (s : State) (rg : Rg) (c : Cl) (b : Bp) (es : List (BitVec 10)) : State :=
  s.onRgn rg (fun r =>
    let k := r.cl c
    let since := if k.stalls r.executing = [] then s.now else k.since
    (r.setCl c { k with waits := SMap.set [] k.waits b.toNat es, since := since, stalled := true }).showStall c)

/-- The key of sources 0 and 1 (R450). -/
def strokeFault (rg : Rg) (c : Cl) (b : Bp) (t : Nat) : Word :=
  faultKey [(numOf rg, 4), (c.toNat, 4), (b.toNat, 6), (t, 11)]

/-- An uncorrectable stroke word (R88): the BP reads nothing and writes 0 to its column of DEST as read, the error is counted
and tainted, and the word stays as it is. In the lead BP at END_AT it still ends the cycle. -/
def damagedStroke (s : State) (rg : Rg) (c : Cl) (b : Bp) (w : BitVec 112) : State :=
  let r := s.rgn rg
  let t := r.strokeNo c
  let d := strokeDest w
  let leadEnd := b = 0 ∧ t = r.endAt c
  let s := s.bumpR rg (F.CLU_ERR_ECC_UE c.toNat) 1
  let s := s.onRgn rg (fun r => r.setReg (R.CLU_UE_LAST c.toNat)
    (faultKey [(t, 11), (b.toNat, 6), (if leadEnd then 1 else 0, 1), (0, 1)]))
  let s := s.noteFault 1 (quadOf rg) (strokeFault rg c b t)
  let s := s.taint rg { cause := 1, cluster := c.toNat, stroke := t, bp := b.toNat, entry := d.toNat }
  finishBp s rg c b (if d.toNat < 992 then some ⟨b, d, false, false⟩ else none)

/-- BP `b` reads the word of its stroke against CHK, `upset` being bits that the store has lost since it was written, and acts
on it with `act` where it is the operation the command names (R66, R87, R88). -/
def runBp (s : State) (rg : Rg) (c : Cl) (b : Bp) (upset : BitVec 112) (named : Nat → Bool)
    (act : State → BitVec 112 → State) : State :=
  let r := s.rgn rg
  if ¬ bpTurn r c b then s
  else
    let key := strokeKey c b (r.strokeNo c)
    let w := SMap.get 0 r.strokes key ^^^ upset
    let keep (v : BitVec 112) : State := s.setRgn rg { r with strokes := SMap.set 0 r.strokes key v }
    match strokeCheck w with
    | (.clean, v) => if named (strokeOp v) then act (keep v) v else s
    | (.single, v) =>
      if named (strokeOp v) then
        let s := (keep v).bumpR rg (F.CLU_ERR_ECC_CE c.toNat) 1
        act (s.noteFault 0 (quadOf rg) (strokeFault rg c b (r.strokeNo c))) v
      else s
    | (.uncorrectable, v) => damagedStroke (keep v) rg c b v

/-- The listed operands whose entries are empty, or the entries' values (R83). -/
def readAll (k : Cluster) (n : BitVec 48) (es : List (BitVec 10)) : Except (List (BitVec 10)) (List Entry) :=
  let vs := es.map (fun e => k.read n e.toNat)
  if vs.all Option.isSome then .ok (vs.map (fun v => v.getD 0))
  else .error (es.filter (fun e => (k.read n e.toNat).isNone))

/-- An operation that reads whole entries or bits: it stalls while one is empty (R83), and goes on with their values. -/
def withOperands (s : State) (rg : Rg) (c : Cl) (b : Bp) (es : List (BitVec 10)) (go : State → List Entry → State) : State :=
  let r := s.rgn rg
  match readAll (r.cl c) r.executing es with
  | .error e => stallBp s rg c b e
  | .ok vs => go s vs

/-- The result of a truth table (R69). -/
def evalTt (tt : BitVec 16) (v0 v1 v2 v3 : Bool) : Bool :=
  tt.getLsbD (8 * v3.toNat + 4 * v2.toNat + 2 * v1.toNat + v0.toNat)

/-- EVAL and EVAL_S (R69, R70, R78): a refused DEST is counted and reads no operand; otherwise the table's result goes to the
BP's own column of DEST. -/
def evalBp (s : State) (rg : Rg) (c : Cl) (b : Bp) (next : Bool) (w : BitVec 112) : State :=
  let d := strokeDest w
  if (if next then 256 else 992) ≤ d.toNat then
    let s := (s.bumpR rg (F.CLU_ERR_OP_DEST_ERR c.toNat) 1).noteFault 2 (quadOf rg) (faultKey [(numOf rg, 4), (c.toNat, 4)])
    finishBp s rg c b none
  else
    let o (n : Nat) := strokeOpd w n
    withOperands s rg c b [(o 0).1, (o 1).1, (o 2).1, (o 3).1] (fun s vs =>
      let v (n : Nat) : Bool := (vs.getD n 0).getLsbD (o n).2.toNat
      finishBp s rg c b (some ⟨b, d, next, evalTt (strokeTt w) (v 0) (v 1) (v 2) (v 3)⟩))

/-- NOP (R68): the BP completes the stroke and does nothing. -/
def execNop (rg : Rg) (c : Cl) (b : Bp) (upset : BitVec 112) (s : State) : Host.Outcome State Fault Refusal :=
  .next (runBp s rg c b upset (fun op => op == 0) (fun s _ => finishBp s rg c b none))

/-- EVAL (R69, R70). -/
def execEval (rg : Rg) (c : Cl) (b : Bp) (upset : BitVec 112) (s : State) : Host.Outcome State Fault Refusal :=
  .next (runBp s rg c b upset (fun op => op == 1) (fun s w => evalBp s rg c b false w))

/-- EVAL_S (R69, R70, R78). -/
def execEvalS (rg : Rg) (c : Cl) (b : Bp) (upset : BitVec 112) (s : State) : Host.Outcome State Fault Refusal :=
  .next (runBp s rg c b upset (fun op => op == 2) (fun s w => evalBp s rg c b true w))

/-- A reserved OP, or a cluster code in a BP other than the lead (R71, R72): counted, and executed as NOP. -/
def execReservedOp (rg : Rg) (c : Cl) (b : Bp) (upset : BitVec 112) (s : State) : Host.Outcome State Fault Refusal :=
  .next (runBp s rg c b upset
    (fun op => (decide (3 ≤ op) && decide (op ≤ 7)) || op == 14 || (decide (8 ≤ op) && decide (b ≠ 0)))
    (fun s _ =>
      let s := s.bumpR rg (F.CLU_ERR_OP_RSVD_OP c.toNat) 1
      finishBp (s.noteFault 2 (quadOf rg) (faultKey [(numOf rg, 4), (c.toNat, 4)])) rg c b none))

/-- A stroke begins: what its reads see of the port entries is fixed (R79, R102). -/
def Cluster.beginStroke (k : Cluster) : Cluster :=
  { k with done := 0, writes := [], waits := [], stalled := false, lead := .none, portsAt := k.ports, portFullAt := k.portFull }

/-- The completion tree begins the next stroke once all 64 BPs have completed this one (R84), and the package is in RUN (R430, R435). A parity error in the tree or in a
full flag of a port entry, or an uncorrectable CLU.END_AT, is uncontainable (R458). -/
def execStrokeBegin (rg : Rg) (c : Cl) (stallNs : Word) (endAt : Ecc) (flaw : StrokeFlaw) (s : State) :
    Host.Outcome State Fault Refusal :=
  let r := s.rgn rg
  let k := r.cl c
  .next (
    if s.f F.PWR_STATUS_STATE = 0 ∧ r.f F.FIX_STATUS_STATE = 2 ∧ k.running ∧ k.done = BitVec.allOnes 64 ∧ r.strokeNo c < r.endAt c then
      if flaw = .tree then uncontained s rg 7
      else if flaw = .flag then uncontained s rg 8
      else if endAt = .uncorrectable then tableEcc s rg endAt 5 c.toNat
      else
        let s := tableEcc s rg endAt 5 c.toNat
        let s := s.bumpR rg (F.CLU_STALL_TIME_NS c.toNat) stallNs.toNat
        s.onRgn rg (fun r => (r.setCl c (k.commit k.writes).beginStroke).setF (F.CLU_STATUS_STROKE c.toNat) (r.strokeNo c + 1))
    else s)

/-- A stall has lasted longer than STALL_WARN µs (R85). -/
def execLongStall (rg : Rg) (c : Cl) (s : State) : Host.Outcome State Fault Refusal :=
  .next (
    if s.rbit rg F.RGN_CTRL_ISOLATE then s
    else if s.rbit rg (F.CLU_STATUS_STALLED c.toNat) ∧ s.rbit rg (F.CLU_CTRL_STALL_WARN c.toNat) ∧
        1000 * s.rf rg (F.CLU_CTRL_STALL_WARN c.toNat) < s.now - (s.cl rg c).since then
      s.setRf rg (F.CLU_STATUS_LONG_STALL c.toNat) 1
    else s)

end Sys2Proof.Machine
end

