-- ==== Sys2Proof/Machine/ClusterOps.lean ====
section
/-! DEFINITION. The operations of a lead BP that leave the cluster (R73, R74, R95–R105): SEND, MEMRD, MEMWR, PROBE, HALTIF,
END, and the units that take what they offer. -/

namespace Sys2Proof.Machine

/-- The lead BP of cluster `c` carries the operation `op` on this stroke. -/
def runLead (s : State) (rg : Rg) (c : Cl) (upset : BitVec 112) (op : Nat) (act : State → BitVec 112 → State) : State :=
  runBp s rg c 0 upset (fun o => o == op) act

/-- The cluster operation of the lead BP waits (R73). -/
def leadWaits (s : State) (rg : Rg) (c : Cl) (l : Lead) : State :=
  s.onRgn rg (fun r =>
    let k := r.cl c
    (r.setCl c { k with lead := l, waits := SMap.erase k.waits 0 }).showStall c)

/-! ### SEND (R95, R96, R99) -/

/-- A bundle that the region discards as unmapped (R99): counted, recorded in RGN.XLAST and tainted. -/
def unmappedBundle (s : State) (rg : Rg) (input stream : Nat) : State :=
  let s :=
    if s.rbit rg F.RGN_CTRL_ISOLATE then s
    else (s.bumpR rg F.RGN_XERR_UNMAPPED 1).onRgn rg (fun r => r.setReg R.RGN_XLAST (faultKey [(stream, 6), (input, 3), (0, 1)]))
  let s := s.noteFault 8 (quadOf rg) (faultKey [(numOf rg, 4), (input, 3), (stream, 6)])
  s.taint rg { cause := 2, detail := stream + 64 * input }

/-- The injection takes the bundle of route entry `ix` (R95): its tag is the parity of the cycle and the entry's STREAM. A
bundle with a reserved EGRESS, or whose entry is not VALID, never leaves the region (R96, R99). -/
def injectBundle (s : State) (rg : Rg) (data : Entry) (ix : BitVec 10) : State :=
  let r := s.rgn rg
  let w := (r.reg (R.RGN_ROUTE (2 * ix.toNat))).toNat
  let stream := w % 64
  let egress := w / 64 % 8
  if w / 512 % 2 = 0 ∨ 6 ≤ egress then unmappedBundle s rg 4 stream
  else
    let tag := BitVec.ofNat 7 (stream + 64 * (r.executing.toNat % 2))
    let b : Bundle := { data := data, tag := tag, egress := BitVec.ofNat 3 egress, origin := some rg,
                        epoch := BitVec.ofNat 8 (r.f F.RGN_STATUS_EPOCH) }
    s.setRgn rg { r with inject := r.inject ++ [b], fix := { r.fix with unaccepted := r.fix.unaccepted + 1 } }

/-- The injection holds up to 32 bundles (R95). -/
def Region.injectRoom (r : Region) : Bool := decide (r.inject.length < 32)

/-- SEND (R95): an uncorrectable route-table word isolates the region (R458); with room in the injection the bundle is taken at
once, without it the stroke waits. -/
def execSend (rg : Rg) (c : Cl) (upset : BitVec 112) (table_ : Ecc) (s : State) : Host.Outcome State Fault Refusal :=
  .next (runLead s rg c upset 8 (fun s w =>
    withOperands s rg c 0 [(strokeOpd w 0).1] (fun s vs =>
      let ix : BitVec 10 := bitsAt (strokeTt w) 0 10
      let data := vs.getD 0 0
      let s := tableEcc s rg table_ 1 ix.toNat
      if table_ = .uncorrectable then s
      else if (s.rgn rg).injectRoom then finishBp (injectBundle s rg data ix) rg c 0 none
      else leadWaits s rg c (.send data ix))))

/-- The injection has gained room and takes a waiting SEND's bundle (R95). -/
def execInjectionTake (rg : Rg) (c : Cl) (waitNs : Word) (s : State) : Host.Outcome State Fault Refusal :=
  .next (
    match (s.cl rg c).lead with
    | .send data ix =>
      if (s.rgn rg).injectRoom then
        finishBp (injectBundle (s.bumpR rg F.RGN_SEND_WAIT_NS waitNs.toNat) rg data ix) rg c 0 none
      else s
    | _ => s)

/-! ### Design memory: the front port (R74, R101, R102, R111–R113) -/

/-- The word address of MEMRD and MEMWR (R74). -/
def memAddr (a b : Entry) : BitVec 19 := BitVec.ofNat 19 (a.toNat % 2 ^ 19 + b.toNat % 2 ^ 19)

/-- MEMRD (R73, R74): the request is issued, and the stroke waits until the front port takes it. -/
def execMemrd (rg : Rg) (c : Cl) (upset : BitVec 112) (s : State) : Host.Outcome State Fault Refusal :=
  .next (runLead s rg c upset 9 (fun s w =>
    withOperands s rg c 0 [(strokeOpd w 0).1, (strokeOpd w 1).1] (fun s vs =>
      leadWaits s rg c (.memrd (bitsAt (strokeCtrl w) 0 3) (memAddr (vs.getD 0 0) (vs.getD 1 0))))))

/-- MEMWR (R73, R74). -/
def execMemwr (rg : Rg) (c : Cl) (upset : BitVec 112) (s : State) : Host.Outcome State Fault Refusal :=
  .next (runLead s rg c upset 10 (fun s w =>
    withOperands s rg c 0 [(strokeOpd w 0).1, (strokeOpd w 1).1, (strokeOpd w 2).1, (strokeOpd w 3).1] (fun s vs =>
      leadWaits s rg c (.memwr (memAddr (vs.getD 0 0) (vs.getD 1 0)) (vs.getD 2 0) (vs.getD 3 0)))))

/-- An access is a read. -/
def FrontAcc.isRead : FrontAcc → Bool
  | .rd .. => true
  | _ => false

/-- The words of a replay that stand first among the writes are written (R138). -/
def redoFront : Nat → Region → Region
  | 0, r => r
  | n + 1, r =>
    match r.front.dropWhile FrontAcc.isRead with
    | .redo a v :: t => redoFront n { r.putDmem a v with front := (r.front.takeWhile FrontAcc.isRead).map (keepOld r a) ++ t }
    | _ => r

def Region.redo (r : Region) : Region := redoFront r.front.length r

/-- In a replay, the back-port UNDO records of this cycle with POS up to `p` are due (R138). -/
def replayUndos (s : State) (rg : Rg) (p : Nat) : State :=
  let r := s.rgn rg
  if ¬ r.replaying then s
  else
    let due := r.liveRecords.filter (fun x => decide (x.typ = 3) && decide (x.len = 3) && decide (x.cycle = r.executing) &&
      decide ((bitsAt (r.payload x 0) 19 13).toNat ≤ p) && decide (BitVec.ofNat 18 x.pos ∉ r.rwd.used))
    let s := foldS due s (fun s x => readRecord s rg x)
    s.onRgn rg (fun r =>
      { r with front := r.front ++ due.map (fun (x : Rec) => FrontAcc.redo (bitsAt (r.payload x 0) 0 19) (r.payload x 2)),
               rwd := { r.rwd with used := r.rwd.used ++ due.map (fun (x : Rec) => BitVec.ofNat 18 x.pos) } }.redo)

/-- The cluster that the order list names at its next place, where it has one (R101). -/
def Region.nextTaker (r : Region) : Option Cl :=
  let i := r.mpos.toNat
  if i < r.f F.RGN_MCOUNT_COUNT then some (bitsAt (r.reg (R.RGN_MORDER (i / 8))) (4 * (i % 8)) 4) else none

/-- The front port takes the next MEMRD or MEMWR in list order (R101): a MEMRD empties its entry and puts an earlier one of the
same k out of date (R102); a MEMWR is not taken while the undo buffer is full (R113). An uncorrectable order-list word isolates
the region (R458). -/
def execFrontPortTake (rg : Rg) (waitNs undoNs : Word) (table_ : Ecc) (s : State) : Host.Outcome State Fault Refusal :=
  let r := s.rgn rg
  let took (r : Region) (c : Cl) (a : FrontAcc) : Region :=
    { r with front := r.front ++ [a], mpos := r.mpos + 1, takes := r.takes + 1,
             clusters := (r.setCl c { r.cl c with lead := .none }).clusters }
  .next (
    match r.nextTaker with
    | none => s
    | some c =>
      let k := r.cl c
      let waited (s : State) : State := tableEcc (s.bumpR rg F.RGN_MEM_WAIT_NS waitNs.toNat) rg table_ 3 (r.mpos.toNat / 8)
      match k.lead with
      | .memrd n a =>
        if table_ = .uncorrectable then tableEcc s rg table_ 3 (r.mpos.toNat / 8)
        else
          let s := waited s
          let s := replayUndos s rg r.takes.toNat
          let s := s.onRgn rg (fun r =>
            let old := r.front.map (fun x => match x with
              | .rd c' n' a' t st v => if c' = c ∧ n' = n then .rd c' n' a' t true v else .rd c' n' a' t st v
              | y => y)
            let r := { r with front := old }
            let r := took r c (.rd c n a (BitVec.ofNat 11 (r.strokeNo c)) false none)
            r.setCl c { r.cl c with portFull := setBit (r.cl c).portFull (4 + n.toNat) false })
          finishBp s rg c 0 none
      | .memwr a d m =>
        if table_ = .uncorrectable then tableEcc s rg table_ 3 (r.mpos.toNat / 8)
        else if r.undoFull then s
        else
          let s := (waited s).bumpR rg F.RWD_UNDO_WAIT_NS undoNs.toNat
          let s := replayUndos s rg r.takes.toNat
          let s := s.onRgn rg (fun r =>
            let r := took r c (.wr c a d m (BitVec.ofNat 11 (r.strokeNo c)) r.takes)
            r.setCl c { r.cl c with memOut := (r.cl c).memOut + 1 })
          finishBp s rg c 0 none
      | _ => s)

/-- The last word that failed its check, with the front port as the requester (R111, R142). -/
def frontUe (s : State) (rg : Rg) (a : BitVec 19) : State :=
  let s := (s.bumpR rg F.DMEM_ERR_UE 1).noteFault 4 (quadOf rg) (faultKey [(numOf rg, 4), (0, 1), (a.toNat, 19)])
  s.onRgn rg (fun r => r.setReg R.DMEM_UE_LAST (faultKey [(a.toNat, 19), (6, 3), (0, 1)]))

def frontCe (s : State) (rg : Rg) (a : BitVec 19) : State :=
  (s.bumpR rg F.DMEM_ERR_CE 1).noteFault 3 (quadOf rg) (faultKey [(numOf rg, 4), (0, 1), (a.toNat, 19)])

/-- The data of the oldest MEMRD in flight returns (R81, R102, R111): it fills entry 1012 + k unless a later MEMRD of that k has
been taken; an uncorrectable word fills it with 0 and is tainted. An isolated region's entries stand (R107). -/
def execMemrdData (rg : Rg) (ecc : Ecc) (s : State) : Host.Outcome State Fault Refusal :=
  let r := s.rgn rg
  .next (
    match r.front with
    | .rd c k a t stale v :: rest =>
      let word := (v.map (·.1)).getD (SMap.get 0 r.dmem a.toNat)
      let ecc := match v with
        | some (_, .uncorrectable) => Ecc.uncorrectable
        | some _ => ecc
        | none => r.checked (dmemKey a.toNat) ecc
      let s := s.setRgn rg { (if v.isNone then r.afterRead (dmemKey a.toNat) ecc else r) with front := rest }
      let s := match ecc with
        | .clean => s
        | .single => frontCe s rg a
        | .uncorrectable => (frontUe s rg a).taint rg
            { cause := 4, cluster := c.toNat, stroke := t.toNat, entry := 1012 + k.toNat, detail := a.toNat }
      let s := if stale ∨ s.rbit rg F.RGN_CTRL_ISOLATE then s
        else s.onCl rg c (fun x => { x with
          ports := SMap.set 0 x.ports (4 + k.toNat) (if ecc = .uncorrectable then 0 else word),
          portFull := setBit x.portFull (4 + k.toNat) true })
      s.onRgn rg (fun r => (r.showStall c).redo)
    | _ => s)

/-- The first MEMWR taken is performed (R74, R111–R113): the old word is read, the masked bits are written, and the undo entry
goes to the trace writer. -/
def execMemwrPerformed (rg : Rg) (ecc : Ecc) (s : State) : Host.Outcome State Fault Refusal :=
  let r := s.rgn rg
  let before := r.front.takeWhile FrontAcc.isRead
  .next (
    match r.front.dropWhile FrontAcc.isRead with
    | .wr c a d m t pos :: rest =>
      let ecc := r.checked (dmemKey a.toNat) ecc
      let bad := ecc == .uncorrectable
      let old := if bad then 0 else SMap.get 0 r.dmem a.toNat
      let s := s.setRgn rg { r.putDmem a ((old &&& ~~~ m) ||| (d &&& m)) with front := before.map (keepOld r a) ++ rest }
      let s := match ecc with
        | .clean => s
        | .single => frontCe s rg a
        | .uncorrectable =>
          let s := frontUe s rg a
          if m = BitVec.allOnes 64 then s
          else s.taint rg { cause := 4, cluster := c.toNat, stroke := t.toNat, detail := a.toNat }
      let s := pushUndo s rg ⟨(s.rgn rg).executing, a, pos, 6, c, bad, old, none⟩
      let s := s.onCl rg c (fun x => { x with memOut := x.memOut - 1 })
      tryEnd (s.onRgn rg Region.redo) rg c
    | _ => s)

/-! ### PROBE (R104) -/

/-- The trace writer takes a record at once and writes nothing of it (R104, R133, R134, R138). -/
def Region.probeDropped (r : Region) : Bool :=
  !r.bit F.RGN_CTRL_PROBE_EN || decide (r.mode = 1) || decide (r.mode = 2) || decide (r.mode = 4) ||
    (r.replaying && !r.bit F.RWD_CTRL_REPLAY_TRACE)

/-- The trace writer takes the record of a PROBE (R104). -/
def takeProbe (s : State) (rg : Rg) (c : Cl) (num : BitVec 10) (data : Entry) : State :=
  let r := s.rgn rg
  if r.probeDropped then finishBp s rg c 0 none
  else if r.bit F.RWD_STATUS_FULL then finishBp (s.setRgn rg (r.discard r.executing)) rg c 0 none
  else
    let p : ProbeRec := ⟨r.executing, num, c, BitVec.ofNat 11 (r.strokeNo c), data⟩
    let r := { r with rwd := { r.rwd with probes := r.rwd.probes ++ [p] } }
    finishBp (s.setRgn rg (r.setCl c { r.cl c with probeOut := (r.cl c).probeOut + 1 })) rg c 0 none

/-- The trace writer holds up to 16 records (R104). -/
def Region.probeRoom (r : Region) : Bool :=
  decide (r.rwd.probes.length < 16) || r.probeDropped || r.bit F.RWD_STATUS_FULL

/-- PROBE (R104): with room in the trace writer the record is taken at once, without it the stroke waits. -/
def execProbe (rg : Rg) (c : Cl) (upset : BitVec 112) (s : State) : Host.Outcome State Fault Refusal :=
  .next (runLead s rg c upset 12 (fun s w =>
    withOperands s rg c 0 [(strokeOpd w 0).1] (fun s vs =>
      if (s.rgn rg).probeRoom then takeProbe s rg c (strokeCtrl w) (vs.getD 0 0)
      else leadWaits s rg c (.probe (strokeCtrl w) (vs.getD 0 0)))))

/-- The trace writer has gained room and takes a waiting record (R104). -/
def execTraceWriterTake (rg : Rg) (c : Cl) (waitNs : Word) (s : State) : Host.Outcome State Fault Refusal :=
  .next (
    match (s.cl rg c).lead with
    | .probe num data =>
      if (s.rgn rg).probeRoom then takeProbe (s.bumpR rg F.RGN_PROBE_WAIT_NS waitNs.toNat) rg c num data else s
    | _ => s)

/-! ### HALTIF and END -/

/-- HALTIF (R105): a condition bit of 1 is counted, the first is recorded, and with HALTIF_EN a hold of the job is requested for
the HALTIF's cycle (R49). The cluster runs on. -/
def execHaltif (rg : Rg) (c : Cl) (upset : BitVec 112) (s : State) : Host.Outcome State Fault Refusal :=
  .next (runLead s rg c upset 13 (fun s w =>
    let o := strokeOpd w 0
    withOperands s rg c 0 [o.1] (fun s vs =>
      if (vs.getD 0 0).getLsbD o.2.toNat then
        let r := s.rgn rg
        let n := r.executing
        let s := s.bumpR rg F.RGN_HALTIF_CNT_HITS 1
        let s := if r.bit F.RGN_HALT_SRC_HIT then s
          else s.onRgn rg (fun r => (r.setReg R.RGN_HALT_SRC (faultKey [(c.toNat, 4), (r.strokeNo c, 11), (1, 1)])).setReg
            R.RGN_HALT_CYCLE (n.truncate 32))
        let s := if r.bit F.RGN_CTRL_HALTIF_EN then
            match s.jobOf rg with
            | some j => requestHold s j 1 n
            | none => s
          else s
        finishBp s rg c 0 none
      else finishBp s rg c 0 none)))

/-- END (R73, R75): the last stroke of the cycle, complete once every MEMWR and PROBE of the cluster in the cycle has been
performed. `cycleNs` is the time from stroke 0. -/
def execEndStroke (rg : Rg) (c : Cl) (upset : BitVec 112) (cycleNs : BitVec 20) (s : State) :
    Host.Outcome State Fault Refusal :=
  let k := s.cl rg c
  .next (
    if k.memOut = 0 ∧ k.probeOut = 0 then
      runLead s rg c upset 15 (fun s _ => completeBp (s.setRf rg (F.CLU_CYCLE_TIME_LAST c.toNat) cycleNs.toNat) rg c 0 none)
    else s)

end Sys2Proof.Machine
end

