-- ==== Sys2Proof/Machine/Fix.lean ====
section
/-! DEFINITION. The fix of a region (R43–R49, R54–R56, R61): the actions of a fix in their order, the cycle log, the beginning
of a cycle. -/

namespace Sys2Proof.Machine

/-! ### The cycle log (R61) -/

/-- Bits of word 2 of a log entry, by position. -/
def logFlag (i : Nat) (b : Bool) : Nat := if b then 2 ^ i else 0

/-- The fix engine writes an entry of the cycle log, then advances the pointer and the count (R61). -/
def Region.writeLog (r : Region) (e : BitVec 128) : Region :=
  let i := (r.f F.FIX_LOG_PTR_NEWEST + 1) % 32
  let r := (List.range 4).foldl (fun r w => r.setReg (R.FIX_LOG (4 * i + w)) (bitsAt e (32 * w) 32)) r
  (r.setF F.FIX_LOG_PTR_NEWEST i).bump F.FIX_LOG_COUNT_COUNT 1

/-- EASEL_LATE enters the entry of the last fix, which is first written where LOG_EVENTS left it out (R61). -/
def Region.logLate (r : Region) : Region :=
  let e := setBit r.fix.entry (64 + 24) true
  let r := { r with fix := { r.fix with entry := e, unlogged := false } }
  if r.fix.unlogged then r.writeLog e
  else r.setReg (R.FIX_LOG (4 * r.f F.FIX_LOG_PTR_NEWEST + 2)) (bitsAt e 64 32)

/-! ### Margins (R56) -/

/-- A value held to ±(2^19 − 1). -/
def sat20 (v : Int) : Int := if v < -524287 then -524287 else if 524287 < v then 524287 else v

/-- A signed value in a field of `w` bits. -/
def toField (w : Nat) (v : Int) : Nat := (BitVec.ofInt w v).toNat

/-- The signed value of a field of `w` bits. -/
def fromField (w n : Nat) : Int := (BitVec.ofNat w n).toInt

/-- The margin of a fix: B(N) minus the moment of completion, in sixteenths of a tick (R56). Of a cycle that completed after its boundary
it is negative also where a realignment has moved the count back since. -/
def Region.margin (r : Region) : Int :=
  let x := r.fix
  let m := tickDiff (r.get48 R.FIX_BOUND_LO R.FIX_BOUND_HI) x.doneTick * 16 - x.donePhase.toNat
  sat20 (if x.doneLate ∧ 0 ≤ m then - (((x.doneAt - x.passAt).toNat * 16 + x.donePhase.toNat : Nat) : Int) else m)

/-- Step 1 of R46: the sextant monitor records the margin. -/
def Region.recordMargin (r : Region) : Region :=
  let m := r.margin
  let r := r.setF F.FIX_MARGIN_LAST (toField 20 m)
  let r := if m < fromField 20 (r.f F.FIX_MARGIN_MIN_MIN) then r.setF F.FIX_MARGIN_MIN_MIN (toField 20 m) else r
  let least := match r.fix.helmMin with
    | none => m
    | some v => min m v.toInt
  { r with fix := { r.fix with helmMin := some (BitVec.ofInt 20 least) } }

/-! ### The beginning of a cycle -/

/-- Every cluster begins stroke 0 of the cycle (R84). -/
def Region.startClusters (r : Region) : Region :=
  allClusters.foldl (fun r c =>
    ((r.setCl c { (r.cl c).beginStroke with running := true, ended := false }).setF (F.CLU_STATUS_STROKE c.toNat) 0)) r

/-- The region begins its next cycle: STROKING. -/
def Region.begins (r : Region) : Region :=
  let r := r.startClusters.setF F.FIX_STATUS_STATE 2
  { r with fix := { r.fix with overhead := false, ewinOut := false, checking := false } }

/-- An easel core of the region holds the fix (R347). -/
def Region.easelHolds (r : Region) : Bool := allCores.any (fun k => r.bit (F.EAS_STATUS_HOLDING k.val))

/-- Something outside the region keeps its fix engine from stroke 0: the package is below RUN, or on the way there
with the job not held by that (R435), a retouch of the region is being applied (R226), or a test step of its logic is not yet abandoned
(R464). -/
def State.keepsBack (s : State) (rg : Rg) : Bool :=
  decide (s.f F.PWR_STATUS_STATE ≠ 0) ||
    (decide (s.drainOf 4 ≠ .none) && decide (s.drainOf 4 ≠ .reset) && (s.jobOf rg).any (fun j => (s.job j).hold.isNone)) ||
    (s.rtc.holds && decide (s.applying = some rg)) || s.logicStep rg

/-- Stroke 0 of the next cycle begins once the fix overhead is complete and every core has released the fix (R46), the schedule
checks of a dirty region are done (R227), and nothing else keeps the engine back. -/
def tryBegin (s : State) (rg : Rg) : State :=
  let r := s.rgn rg
  if r.f F.FIX_STATUS_STATE = 4 ∧ r.fix.overhead ∧ ¬ r.easelHolds ∧ ¬ r.fix.checking ∧ ¬ s.keepsBack rg then
    s.onRgn rg Region.begins
  else s

/-! ### The actions of a fix (R46) -/

/-- B(N) of a job (R39). -/
def State.boundary (s : State) (j : Job) (n : BitVec 48) : BitVec 48 :=
  s.get48 (R.MER_T0_LO j.toNat) (R.MER_T0_HI j.toNat) + n * (s.job j).ticks.zeroExtend 48

/-- The hold rule holds cycle `n` of job `j` (R49). -/
def State.holdsAt (s : State) (j : Job) (n : BitVec 48) : Bool :=
  match (s.job j).hold with
  | some h => decide (h.toNat ≤ n.toNat)
  | none => false

/-- The words of a palette area for readback: entries 0–1023 of a cluster in cycle order `n`, and its full flags (R233). -/
def readbackPalette (r : Region) (n : BitVec 48) : List (Nat × Nat × Nat) :=
  allClusters.flatMap (fun c =>
    let k := r.cl c
    (List.range 1024).map (fun e => (8 * (1024 * c.toNat + e), 8, (k.peek (n + 1) e).toNat)) ++
      [(0x20000 + 4 * c.toNat, 4, ((List.range 28).foldl (fun v i => v + (if k.full (n + 1) (992 + i) then 2 ^ i else 0)) 0))])

/-- The readback data of a region by KIND (R233), as (offset, bytes, value). -/
def readbackData (r : Region) (kind : Nat) : List (Nat × Nat × Nat) :=
  match kind with
  | 0 => readbackPalette r r.cycle
  | 1 => (List.range 1024).map (fun n => let x := r.cell (BitVec.ofNat 10 n); (4 * n, 4, x.acc.toNat + 65536 * x.q.toNat))
  | _ => (List.range 1024).map (fun n => (256 * n, 256, (SMap.get 0 r.canvas n).toNat))

/-- The first byte of the readback area in hub SRAM (R233). -/
def readbackBase : Nat := 0x600000

/-- The Q of cells whose latch clock is active may read as any value (R162, R233). -/
def openLatches (s : State) (r : Region) : Region × State :=
  r.cells.foldl (fun (x : Region × State) e =>
    if e.2.clk then
      let (v, s) := x.2.draw 16
      (x.1.setCell (BitVec.ofNat 10 e.1) { e.2 with q := v }, s)
    else x) (r, s)

/-- A pending readback of region `rg` captures its data (R232). -/
def capture (s : State) (rg : Rg) : State :=
  match s.rtc.rb with
  | none => s
  | some (kind, target) =>
    if s.bit F.RTC_RB_STATUS_WAITING_FIX ∧ target = rg then
      let (r, s) := if kind = 1 then openLatches s (s.rgn rg) else (s.rgn rg, s)
      let area := (readbackData r kind.toNat).foldl (fun m x => Mem.write m (readbackBase + x.1) x.2.1 x.2.2)
        (SMap.keep (fun a => decide (a < readbackBase) || decide (readbackBase + 0x40000 ≤ a)) s.sram)
      let s := { s with sram := area }.setF F.RTC_RB_STATUS_WAITING_FIX 0
      s.set48 R.RTC_RB_CYCLE_LO R.RTC_RB_CYCLE_HI r.cycle
    else s

/-- Step 2 and 3 of R46: the banks swap, the cycle count becomes N, side (N − 1) mod 2 of every slot is emptied (R98). -/
def Region.swapAndCount (r : Region) : Region :=
  let n := r.executing
  let side : BitVec 32 := (0xFFFF : BitVec 32) <<< (16 * sideOf n)
  (r.mapCl (fun k => { k.swap with exFull := k.exFull &&& ~~~ side, jseq := [] })).set48 R.FIX_CYCLE_LO R.FIX_CYCLE_HI n

/-- In a replay the INJECT records of the next cycle are applied at the fix (R138). -/
def replayInjects (s : State) (rg : Rg) : State :=
  if ¬ (s.rgn rg).replaying then s
  else
    let s := meetDamaged s rg
    let r := s.rgn rg
    let due := r.liveRecords.filter (fun x => decide (x.typ = 4) && decide ((r.payload x 0).toNat % 16 = 3) &&
      decide (x.cycle = r.executing))
    foldS due s (fun s x =>
      let w := (r.payload x 0).toNat
      let c : Cl := BitVec.ofNat 4 (w / 16)
      (readRecord s rg x).onCl rg c (fun k => k.poke r.executing (w / 256 % 1024) (r.payload x 1) (w / 2 ^ 34 % 2 = 1)))

/-- Step 6 of R46: the fix interrupt (R347). It is pending in every core that runs, and a core whose IEN.FIX is 1 begins to hold the fix (R344). -/
def Region.fixInterrupt (r : Region) : Region :=
  if r.replaying then r
  else allCores.foldl (fun r k =>
    let e := r.eas k
    let st := r.f (F.EAS_STATUS_STATE k.val)
    if e.stopFrom.isSome then r
    else
      let runs := st ≠ 0 ∧ st ≠ 3
      let r := r.setEas k { e with cyc := r.cycle, late := false, pendFix := if runs then true else e.pendFix }
      if runs ∧ e.ien.getLsbD 0 then r.setF (F.EAS_STATUS_HOLDING k.val) 1 else r) r

/-- The MERGE records of a slot (R128): decisions in groups of up to 4,095. -/
def mergeRecords (n : BitVec 48) (cell : CellNo) : Nat → List Bool → List (List Entry)
  | 0, _ => []
  | f + 1, bits =>
    if bits = [] then []
    else
      let now := bits.take 4095
      let words := (List.range ((now.length + 63) / 64)).map (fun i =>
        BitVec.ofNat 64 (packKey (((now.drop (64 * i)).take 64).map (fun b => (b.toNat, 1)))))
      (recHeader n (1 + words.length) false 5 :: BitVec.ofNat 64 (cell.toNat + 4096 * now.length) :: words) ::
        mergeRecords n cell f (bits.drop 4095)

/-- The MERGE log buffers go to the trace writer, or are emptied while nothing is recorded (R153, R134). -/
def flushMerges (s : State) (rg : Rg) (n : BitVec 48) : State :=
  let r := s.rgn rg
  let recs := r.mlog.flatMap (fun x => mergeRecords n x.2.cell 3 x.2.bits)
  let merges := if r.recording then r.rwd.merges ++ recs.map (fun ws => (n, ws)) else []
  writeMerges (s.setRgn rg { r with mlog := [], rwd := { r.rwd with mused := [], merges := merges } }) rg

/-- The next stroke index of a cluster's patrol (R89). -/
def patrolIndex (next endAt : Nat) : Nat := if next ≤ endAt then endAt + 1 else next

/-- One stored word that the patrol reads (R87–R89). -/
def patrolWord (s : State) (rg : Rg) (c : Cl) (b : Bp) (t : Nat) : State :=
  let r := s.rgn rg
  let key := strokeKey c b t
  match strokeCheck (SMap.get 0 r.strokes key) with
  | (.clean, _) => s
  | (.single, v) =>
    let s := (s.setRgn rg { r with strokes := SMap.set 0 r.strokes key v }).bumpR rg (F.CLU_ERR_ECC_CE c.toNat) 1
    s.noteFault 0 (quadOf rg) (strokeFault rg c b t)
  | (.uncorrectable, _) =>
    let s := s.bumpR rg (F.CLU_ERR_ECC_UE c.toNat) 1
    let s := s.onRgn rg (fun r => r.setReg (R.CLU_UE_LAST c.toNat) (faultKey [(t, 11), (b.toNat, 6), (0, 1), (1, 1)]))
    s.noteFault 1 (quadOf rg) (strokeFault rg c b t)

/-- The patrol of a fix (R89): in every cluster each BP reads one index beyond END_AT. -/
def patrol (s : State) (rg : Rg) : State :=
  foldS allClusters s (fun s c =>
    let r := s.rgn rg
    let e := r.endAt c
    if ¬ r.bit (F.CLU_CTRL_PATROL_EN c.toNat) ∨ 2047 ≤ e then s
    else
      let t := patrolIndex (r.f (F.CLU_PATROL_NEXT c.toNat)) e
      let stored := r.strokes.filter (fun x => decide (x.1 % 2048 = t) && decide (x.1 / 131072 = c.toNat))
      let s := foldS stored s (fun s x => patrolWord s rg c (BitVec.ofNat 6 (x.1 / 2048)) t)
      s.setRf rg (F.CLU_PATROL_NEXT c.toNat) (if t = 2047 then e + 1 else t + 1))

/-- A fix that began after its boundary is counted as a slip (R47). -/
def countSlip (s : State) (rg : Rg) (len : Nat) : State :=
  let s := s.bumpR rg F.FIX_SLIPS_SLIPS 1
  let s := if s.rf rg F.FIX_SLIP_MAX_MAX < len then s.setRf rg F.FIX_SLIP_MAX_MAX len else s
  s.bump (F.MER_QSLIP_SLIPS (quadOf rg)) 1

/-- The slip length in ticks, saturating (R61). -/
def slipTicks (since now : BitVec 48) : Nat := min (now - since).toNat 0xFFFFFF

/-- A region that something held back begins its cycle, late: the delay since the start of the cycle is logged as a slip, at the fix of
that cycle (R226, R227, R435). -/
def beginLate (s : State) (rg : Rg) : State :=
  match s.jobOf rg with
  | none => s
  | some j =>
    let start := (s.rgn rg).get48 R.FIX_BOUND_LO R.FIX_BOUND_HI - (s.job j).ticks.zeroExtend 48
    let s' := tryBegin s rg
    if s.rf rg F.FIX_STATUS_STATE = 4 ∧ s'.rf rg F.FIX_STATUS_STATE = 2 ∧ 0 < tickDiff s.mer.tick start then
      s'.onRgn rg (fun r => { r with fix := { r.fix with lateBy := s.mer.tick - start } })
    else s'

/-- The fix of the cycle in progress, its actions in the order of R46. `slip` says that it begins after B(N). The region is left in
FIXING. -/
def doFix (s : State) (rg : Rg) (slip : Bool) : State :=
  match s.jobOf rg with
  | none => s
  | some j =>
    let r := s.rgn rg
    let n := r.executing
    let due := r.snapDue n
    let sh := if due then portShadow r else []
    let fl := if due then fullShadow r else []
    let late := r.fix.lateBy
    let len := max (if slip then slipTicks r.fix.passAt s.mer.elapsed else 0) (min late.toNat 0xFFFFFF)
    let slipped := slip || late != 0
    let m := r.margin
    let bound := r.get48 R.FIX_BOUND_LO R.FIX_BOUND_HI
    let x := r.fix
    -- 1: the margin; slips and reckoned fixes
    let s := (replayUndos s rg 8191).onRgn rg Region.recordMargin
    let s := { s with windowFixes := SMap.update 0 s.windowFixes (quadOf rg) (· + 1) }
    let s := if slipped then countSlip s rg len else s
    let s := if x.passReck then s.bumpR rg F.FIX_RECKONED_COUNT 1 else s
    -- 2, 3: banks, cycle count, exchange parity; a pending readback captures
    let s := capture (s.onRgn rg Region.swapAndCount) rg
    -- 4: the hold rule; 5: the snapshot
    let held := s.holdsAt j n
    let (s, snapped) := if due then takeSnapshot (writeMarkers s rg) rg n sh fl else (s, false)
    -- 6: the fix interrupt, or the records that stand for its writes
    let s := replayInjects (s.onRgn rg Region.fixInterrupt) rg
    -- 7: the log entry
    let realigned := x.realign || (slip && (match x.realignTo with | some t => tickLe bound t | none => false))
    let flags := logFlag 20 slipped + logFlag 21 x.passReck + logFlag 22 realigned + logFlag 23 x.minspace + logFlag 25 held +
      logFlag 26 x.taint + logFlag 27 snapped + logFlag 28 (s.bit F.MER_STATUS_UPSTREAM_RECKONING)
    let e := BitVec.ofNat 128 (n.toNat % 2 ^ 32 + 2 ^ 32 * (bound.toNat % 2 ^ 32) + 2 ^ 64 * (toField 20 m + flags) + 2 ^ 96 * len)
    let skip := (s.rgn rg).bit F.FIX_CTRL_LOG_EVENTS ∧ flags = 0
    let s := s.onRgn rg (fun r =>
      let r := { r with fix := { r.fix with entry := e, unlogged := skip } }
      if skip then r else r.writeLog e)
    -- what the next cycle starts from
    let next := s.boundary j (n + 1)
    let s := s.onRgn rg (fun r =>
      let r := r.set48 R.FIX_BOUND_LO R.FIX_BOUND_HI next
      let r := if r.recording then r.set48 R.RWD_LAST_REC_LO R.RWD_LAST_REC_HI n else r
      { r.setF F.FIX_STATUS_STATE 4 with
        mpos := 0, takes := 0,
        fix := { r.fix with passed := !x.later.isEmpty, passAt := (x.later.headD (0, false)).1, passReck := (x.later.headD (0, false)).2,
                            later := x.later.tail, lateBy := 0, noFix := 0, spacing := true, minspace := false, overhead := false,
                            ewinOut := false, realign := false, taint := r.fix.taintNext, taintNext := false, unaccepted := 0,
                            realignTo := if realigned then x.realignTo else none } })
    patrol (flushMerges s rg n) rg

end Sys2Proof.Machine
end

