-- ==== Sys2Proof/Machine/Junctions.lean ====
section
/-! DEFINITION. The junction channels between a cluster and its canvas (R103, R169–R171). -/

namespace Sys2Proof.Machine

/-- The junction number of channel `j` of cluster `c` (R169). -/
def junctionNo (c : Cl) (j : BitVec 2) : Nat := 4 * c.toNat + j.toNat

/-- Bit 4c + j of RWD.JLOG (R127). -/
def Region.jlogged (r : Region) (c : Cl) (j : BitVec 2) : Bool :=
  let n := junctionNo c j
  (r.reg (if n < 32 then R.RWD_JLOG_LO else R.RWD_JLOG_HI)).getLsbD (n % 32)

/-- In a replay the channel's words come from its records (R138). -/
def Region.jreplayed (r : Region) (c : Cl) (j : BitVec 2) : Bool := r.replaying && r.jlogged c j

/-- From the acceptance of a rewind until live running resumes, no live word reaches the entry of a channel whose bit is set: what it holds is
the snapshot's, or comes from the channel's records (R138, R140). -/
def Region.jheld (r : Region) (c : Cl) (j : BitVec 2) : Bool := decide (2 ≤ r.f F.RWD_STATUS_MODE) && r.jlogged c j

/-- An entry 1008 + j is filled with a word (R81, R103); the delivery is counted for SEQ (R127). -/
def fillJunction (s : State) (rg : Rg) (c : Cl) (j : BitVec 2) (v : Entry) : State :=
  let s := s.onCl rg c (fun k => { k with ports := SMap.set 0 k.ports j.toNat v, portFull := setBit k.portFull j.toNat true,
                                          jseq := SMap.update 0 k.jseq j.toNat (· + 1) })
  s.onRgn rg (fun r => r.showStall c)

/-- The next JUNCTION_IN record of the channel fills the entry once a JPOST has completed (R138). -/
def replayJunction (s : State) (rg : Rg) (c : Cl) (j : BitVec 2) : State :=
  let r := s.rgn rg
  let next := r.liveRecords.find? (fun x => decide (x.typ = 4) &&
    decide ((r.payload x 0).toNat % 2 ^ 18 = packKey [(2, 4), (c.toNat, 4), (1008 + j.toNat, 10)]) &&
    decide (r.rwd.replayFrom.toNat < x.cycle.toNat) &&
    decide (BitVec.ofNat 18 x.pos ∉ r.rwd.used))
  match next with
  | none => s
  | some x =>
    let s := s.onRgn rg (fun r => { r with rwd := { r.rwd with used := r.rwd.used ++ [BitVec.ofNat 18 x.pos] } })
    fillJunction (readRecord s rg x) rg c j (r.payload x 1)

/-- A JPOST on channel j completes (R103): its entry becomes empty, and the word register is free. -/
def jpostDone (s : State) (rg : Rg) (c : Cl) (j : BitVec 2) : State :=
  let s := s.onCl rg c (fun k => { k with portFull := setBit k.portFull j.toNat false, lead := .none })
  let s := finishBp s rg c 0 none
  if (s.rgn rg).jreplayed c j then replayJunction s rg c j else s

/-- The word of a JPOST meets its endpoint (R103, R170): it goes to the enabled outbound lanes and waits for their acknowledges. With no lane
enabled or with the endpoint off it is acknowledged at once; a clamped endpoint shows nothing, and the word waits (R229). -/
def presentWord (s : State) (rg : Rg) (c : Cl) (j : BitVec 2) (v : Entry) : State :=
  let n := junctionNo c j
  let (en, outw, _) := s.endpoint rg n
  if ((s.rgn rg).cell (junctionCell n)).clamped then leadWaits s rg c (.jpost j v false)
  else if ¬ en ∨ outw = 0 then jpostDone s rg c j
  else
    let s := leadWaits s rg c (.jpost j v true)
    let put (m : SMap (Option (BitVec 16))) (k : Nat) := SMap.set none m (4 * n + k) (some (bitsAt v (16 * k) 16))
    let s := s.onRgn rg (fun r => { r with lanes := (List.range (laneCount outw)).foldl put r.lanes })
    dropLanes s rg n

/-- JPOST (R73, R103, R170). On a logged channel of a replay it is acknowledged at once; an endpoint that isolation has cut waits
(R182). -/
def execJpost (rg : Rg) (c : Cl) (upset : BitVec 112) (s : State) : Host.Outcome State Fault Refusal :=
  .next (runLead s rg c upset 11 (fun s w =>
    withOperands s rg c 0 [(strokeOpd w 0).1] (fun s vs =>
      let j : BitVec 2 := bitsAt (strokeCtrl w) 0 2
      if (s.rgn rg).jreplayed c j then jpostDone s rg c j else presentWord s rg c j (vs.getD 0 0))))

/-- Every enabled outbound lane has raised its acknowledge (R170). -/
def execJpostAck (rg : Rg) (c : Cl) (waitNs : Word) (s : State) : Host.Outcome State Fault Refusal :=
  .next (
    match (s.cl rg c).lead with
    | .jpost j _ true =>
      let n := junctionNo c j
      if ((s.rgn rg).cell (junctionCell n)).clamped ∨ (s.rgn rg).bit F.RGN_CTRL_ISOLATE ∨
          (List.range 4).any (fun k => (SMap.get none (s.rgn rg).lanes (4 * n + k)).isSome) then s
      else jpostDone (s.bumpR rg F.RGN_JPOST_WAIT_NS waitNs.toNat) rg c j
    | _ => s)

/-- The words of JPOSTs that waited at clamped endpoints are presented, once the clamps are open (R229). One that no lane need
acknowledge completes with that; its wait, which is not among the operands, is a free value (R103). -/
def presentWaiting (s : State) (rg : Rg) : State :=
  foldS allClusters s (fun s c =>
    match (s.cl rg c).lead with
    | .jpost j v false =>
      let (en, outw, _) := s.endpoint rg (junctionNo c j)
      if ((s.rgn rg).cell (junctionCell (junctionNo c j))).clamped ∨ (en ∧ outw ≠ 0) then presentWord s rg c j v
      else
        let (w, s) := s.draw 32
        presentWord (s.bumpR rg F.RGN_JPOST_WAIT_NS w.toNat) rg c j v
    | _ => s)

/-- A retouch takes the words of JPOSTs off the endpoints of its rectangle; they wait to be presented again (R228, R229). -/
def Region.hideWords (r : Region) (cells : List CellNo) : Region :=
  allClusters.foldl (fun r c =>
    match (r.cl c).lead with
    | .jpost j v _ =>
      if junctionCell (junctionNo c j) ∈ cells then r.setCl c { r.cl c with lead := .jpost j v false } else r
    | _ => r) r

/-- The tokens that wait on the enabled inbound lanes of a junction, lane 0 first (R171). -/
def laneTokens (s : State) (rg : Rg) (n : Nat) (inw : Nat) : List (Option (Drive × BitVec 16)) :=
  (List.range (laneCount inw)).map (fun k => seenToken s rg (laneSeg rg n k))

/-- A word of lanes: lane k supplies bits [16k + 15 : 16k] (R171). -/
def laneWord : List (Option (Drive × BitVec 16)) → Nat
  | [] => 0
  | x :: t => (match x with | some (_, v) => v.toNat | none => 0) + 65536 * laneWord t

/-- The endpoint fills entry 1008 + j once every enabled inbound lane has delivered a token and the entry is empty (R103, R171);
with the channel's JLOG bit set the word is a boundary input (R127). -/
def execJunctionDeliver (rg : Rg) (c : Cl) (j : BitVec 2) (s : State) : Host.Outcome State Fault Refusal :=
  let n := junctionNo c j
  let r := s.rgn rg
  let k := r.cl c
  let (en, _, inw) := s.endpoint rg n
  let ts := laneTokens s rg n inw
  .next (
    if ¬ en ∨ inw = 0 ∨ k.portFull.getLsbD j.toNat ∨ r.bit F.RGN_CTRL_ISOLATE ∨ ¬ r.canvasRuns ∨
        (r.cell (junctionCell n)).clamped ∨ r.jheld c j ∨ ts.any Option.isNone then s
    else
      let v := BitVec.ofNat 64 (laneWord ts)
      let s := foldS ts s (fun s x => match x with | some (d, _) => takeToken s d | none => s)
      let seq := (SMap.get 0 k.jseq j.toNat).toNat
      let s := if r.jlogged c j then pushBin s rg r.executing 2 c (1008 + j.toNat) 0 seq false v else s
      fillJunction s rg c j v)

end Sys2Proof.Machine
end

