-- ==== Sys2Proof/Machine/Jobs.lean ====
section
/-! DEFINITION. Jobs: start, completion and boundary of a cycle, hold, resume, and the sextant's restart (R40–R51, R56, R210). -/

namespace Sys2Proof.Machine

/-! ### The events of a cycle -/

/-- A fix engine is at work on a cycle (R44): STROKING, COMPLETE or FIXING. -/
def Region.inCycle (r : Region) : Bool := decide (2 ≤ r.f F.FIX_STATUS_STATE) && decide (r.f F.FIX_STATUS_STATE ≤ 4)

/-- A fix waits for the spacing limit (R43). -/
def waitSpacing (s : State) (rg : Rg) : State :=
  s.onRgn rg (fun r => { r.setF F.FIX_STATUS_STATE 3 with fix := { r.fix with minspace := true } })

/-- CYCLE_COMPLETE (R45): every cluster has executed END and every bundle of the cycle is accepted. `phase` is the moment within
the tick, in sixteenths. A fix whose boundary has passed begins, unless the spacing limit holds it back (R46, R47). -/
def execCycleComplete (rg : Rg) (phase : BitVec 4) (s : State) : Host.Outcome State Fault Refusal :=
  let r := s.rgn rg
  .next (
    if r.f F.FIX_STATUS_STATE = 2 ∧ allClusters.all (fun c => (r.cl c).ended) ∧ r.fix.unaccepted = 0 then
      let s := s.onRgn rg (fun r =>
        { r with fix := { r.fix with doneTick := s.mer.tick, donePhase := phase, doneAt := s.mer.elapsed, doneLate := r.fix.passed } })
      if ¬ r.fix.passed then s.setRf rg F.FIX_STATUS_STATE 3
      else if r.fix.spacing then waitSpacing s rg
      else doFix s rg (decide (s.mer.elapsed ≠ r.fix.passAt) || decide (phase ≠ 0))
    else s)

/-- The next boundary that the fix engine has not observed: B(N), or one after it where the region is late (R42, R47). -/
def State.nextBoundary (s : State) (rg : Rg) : BitVec 48 :=
  let r := s.rgn rg
  let ticks : BitVec 48 := match s.jobOf rg with | some j => (s.job j).ticks.zeroExtend 48 | none => 0
  r.get48 R.FIX_BOUND_LO R.FIX_BOUND_HI + (if r.fix.passed then BitVec.ofNat 48 (1 + r.fix.later.length) * ticks else 0)

/-- BOUNDARY_PASS (R42): the fix engine observes the tick of its next boundary. `par` is a parity error in the engine's state (R458). A
complete cycle is fixed at once, unless the spacing limit holds it back; a boundary after B(N) is kept for the fix of its cycle. -/
def execBoundaryPass (rg : Rg) (par : Bool) (s : State) : Host.Outcome State Fault Refusal :=
  let r := s.rgn rg
  .next (
    if ¬ r.inCycle ∨ ¬ tickLe (s.nextBoundary rg) s.mer.tick then s
    else if par then uncontained s rg 6
    else
      let reck := decide (4 ≤ s.f F.MER_STATUS_STATE)
      let now := s.mer.elapsed
      let s := s.onRgn rg (fun r =>
        if r.fix.passed then { r with fix := { r.fix with later := r.fix.later ++ [(now, reck)] } }
        else { r with fix := { r.fix with passed := true, passAt := now, passReck := reck } })
      if r.fix.passed ∨ r.f F.FIX_STATUS_STATE ≠ 3 then s
      else if r.fix.spacing then waitSpacing s rg
      else doFix s rg false)

/-- MIN_FIX_SPACING (R43): 200 ns have passed since the previous fix began; a fix that waited for that begins, late. -/
def execMinFixSpacing (rg : Rg) (s : State) : Host.Outcome State Fault Refusal :=
  let r := s.rgn rg
  .next (
    if ¬ r.fix.spacing then s
    else
      let s := s.onRgn rg (fun r => { r with fix := { r.fix with spacing := false } })
      if r.f F.FIX_STATUS_STATE = 3 ∧ r.fix.passed then doFix s rg true else s)

/-- FIX_OVERHEAD_END (R46): the region is HELD where the hold rule applies to its cycle; otherwise the next cycle begins once
every easel core has released the fix. -/
def execFixOverheadEnd (rg : Rg) (s : State) : Host.Outcome State Fault Refusal :=
  let r := s.rgn rg
  .next (
    match s.jobOf rg with
    | none => s
    | some j =>
      if r.f F.FIX_STATUS_STATE ≠ 4 ∨ r.fix.overhead then s
      else if s.holdsAt j r.cycle then jobHeld (s.setRf rg F.FIX_STATUS_STATE 5) j
      else tryBegin (s.onRgn rg (fun r => { r with fix := { r.fix with overhead := true } })) rg)

/-- A core's hold ends as LATE (R349). -/
def Region.endLate (r : Region) : Region :=
  allCores.foldl (fun r k =>
    if r.bit (F.EAS_STATUS_HOLDING k.val) then
      let r := ((r.setF (F.EAS_STATUS_HOLDING k.val) 0).setF (F.EAS_STATUS_LATE k.val) 1).bump (F.EAS_COUNTS_LATE k.val) 1
      r.setEas k { r.eas k with late := true }
    else r) r

/-- EWIN_EXPIRY (R46, R61, R349): while the region waits to begin its next cycle and a core holds the fix, the limit passes; the
cycle begins without the core and EASEL_LATE is logged. -/
def execEwinExpiry (rg : Rg) (s : State) : Host.Outcome State Fault Refusal :=
  let r := s.rgn rg
  .next (
    if r.f F.FIX_STATUS_STATE = 4 ∧ r.bit F.FIX_CTRL_EWIN ∧ ¬ r.replaying ∧ r.easelHolds then
      tryBegin (s.onRgn rg (fun r =>
        let r := r.endLate.logLate
        { r with fix := { r.fix with ewinOut := true } })) rg
    else s)

/-- MIN_RESTART (R56). -/
def execMinRestart (rg : Rg) (s : State) : Host.Outcome State Fault Refusal :=
  .next (s.setRf rg F.FIX_MARGIN_MIN_MIN 0x7FFFF)

/-! ### Start (R40, R82, R210) -/

/-- Every port entry that cycle 1 reads is filled from the start-value store (R82). -/
def Region.fillStart (r : Region) : Region :=
  allClusters.foldl (fun r c =>
    let v (i : Nat) : Entry := SMap.get 0 r.startv (28 * c.toNat + i)
    let k := r.cl c
    let exch := (List.range 16).foldl (fun m i => SMap.set 0 m i (v i)) k.exch
    let ports := (List.range 12).foldl (fun m i => SMap.set 0 m i (v (16 + i))) k.ports
    r.setCl c { k with exch := exch, exFull := 0x0000FFFF, ports := ports, portFull := 0xFFF }) r

/-- A region begins a cycle at a START or resume tick: at once, or, where something still holds it, from FIXING (R227, R347,
R435). -/
def Region.beginAt (r : Region) (bound : BitVec 48) (free : Bool) : Region :=
  let r := r.set48 R.FIX_BOUND_LO R.FIX_BOUND_HI bound
  let r := { r with fix := { r.fix with passed := false, passReck := false, later := [], lateBy := 0, overhead := true,
                                        ewinOut := false } }
  if free ∧ ¬ r.easelHolds ∧ ¬ r.fix.checking then r.begins else r.setF F.FIX_STATUS_STATE 4

/-- A START of job `j` at tick `t` reaches the package (R210, R40). A job that has failed is left unstarted until REARM (R50, R51). -/
def applyStart (s : State) (j : Job) (t : BitVec 48) : State :=
  let rs := s.jobRegions j
  let armed (rg : Rg) : Bool := decide (s.rf rg F.FIX_STATUS_STATE = 1)
  if s.f F.CFG_STATUS_STATE ≠ 4 then s.setF F.CFG_STATUS_START_MISSED 1
  else if ¬ rs.any armed ∨ s.bit (F.MER_JOB_CTRL_FAILED j.toNat) then s
  else if ¬ rs.all armed then s.setF F.CFG_STATUS_START_MISSED 1
  else if tickLe t s.mer.tick then (s.setF F.CFG_STATUS_START_LATE 1).ibi 0x04 0 j.toNat
  else if s.f F.MER_STATUS_STATE < 3 ∨ s.f (F.MER_FIX_TICKS_TICKS j.toNat) = 0 then s.setF (F.MER_JOB_CTRL_START_ERR j.toNat) 1
  else startChecks (s.setJob j { s.job j with start := some t }) j

/-- JOB_START (R40): at the START tick every region of the job begins stroke 0 of cycle 1. A job of which some region is no longer
ARMED is not started (R210), nor one that has failed (R51). -/
def execJobStart (j : Job) (s : State) : Host.Outcome State Fault Refusal :=
  .next (
    match (s.job j).start with
    | none => s
    | some t =>
      let rs := s.jobRegions j
      if ¬ tickLe t s.mer.tick then s
      else if s.bit (F.MER_JOB_CTRL_FAILED j.toNat) then s.setJob j { s.job j with start := none }
      else if ¬ rs.all (fun rg => decide (s.rf rg F.FIX_STATUS_STATE = 1)) ∨ rs = [] then
        (s.setJob j { s.job j with start := none }).setF F.CFG_STATUS_START_MISSED 1
      else
        let ticks : BitVec 24 := BitVec.ofNat 24 (s.f (F.MER_FIX_TICKS_TICKS j.toNat))
        let s := s.set48 (R.MER_T0_LO j.toNat) (R.MER_T0_HI j.toNat) t
        let s := (s.setF (F.MER_JOB_CTRL_ACTIVE j.toNat) 1).setJob j { ticks := ticks }
        let bound := s.boundary j 1
        foldS rs s (fun s rg => s.onRgn rg (fun r => r.fillStart.beginAt bound (!s.keepsBack rg))))

/-! ### Hold and resume (R49, R50) -/

/-- A write of MER.JOB_CTRL.HOLD (R49). -/
def execHold (j : Job) (s : State) : Host.Outcome State Fault Refusal :=
  .next (requestHold (s.setF (F.MER_JOB_CTRL_HOLD j.toNat) 1) j 2 0)

/-- A RESUME of a held job with AT as given (R50): it fixes the resume tick S. -/
def resumeJob (s : State) (j : Job) (at_ : Bool) : State :=
  let n := j.toNat
  let asked := s.get48 (R.MER_RESUME_LO n) (R.MER_RESUME_HI n)
  if ¬ at_ ∨ ¬ s.resumable j then resumeSoon s j
  else if tickLe asked s.mer.tick then (resumeSoon s j).setF (F.MER_JOB_CTRL_LATE_RESUME n) 1
  else (startChecks s j).setJob j { s.job j with resumeAt := some asked }

/-- RESUME (R50). -/
def execResume (j : Job) (s : State) : Host.Outcome State Fault Refusal :=
  .next (resumeJob s j (s.bit (F.MER_JOB_CTRL_AT j.toNat)))

/-- A core that a rewind stopped continues from where it stopped (R361). -/
def Region.wakeCores (r : Region) : Region :=
  allCores.foldl (fun r k =>
    match (r.eas k).stopFrom with
    | some st => (r.setEas k { r.eas k with stopFrom := none }).setF (F.EAS_STATUS_STATE k.val) st.toNat
    | none => r) r

/-- What the rewind engine of a region does at a resume tick (R138, R139): with a replay armed it starts at the cycle after `h`;
otherwise live running begins with a BRANCH. -/
def Region.resumeMode (r : Region) (h : BitVec 48) : Region :=
  if r.f F.RWD_STATUS_MODE ≠ 4 then r
  else
    match r.rwd.armed with
    | some _ => { r.setF F.RWD_STATUS_MODE 3 with rwd := { r.rwd with armed := none, replayFrom := h, mused := [] } }
    | none =>
      let r := { r.setF F.RWD_STATUS_MODE 0 with rwd := { r.rwd with branchDue := some h } }
      ((r.mapCl (fun k => { k with jseq := [] })).branchMarks h).wakeCores

/-- Where a replay starts with an entry 1008 + j of a logged channel empty, its JPOST completed before the snapshot, and the next
JUNCTION_IN record of the channel fills it (R103, R138, R140). -/
def replayWaiting (s : State) (rg : Rg) : State :=
  allClusters.foldl (fun s c =>
    foldS [0, 1, 2, 3] s (fun s j =>
      if (s.rgn rg).jreplayed c j ∧ ¬ (s.cl rg c).portFull.getLsbD j.toNat then replayJunction s rg c j else s)) s

/-- RESUME_TICK (R50): T0 becomes S − H × FIX_TICKS, and every region of the job begins cycle H + 1. -/
def execResumeTick (j : Job) (s : State) : Host.Outcome State Fault Refusal :=
  let n := j.toNat
  .next (
    match (s.job j).resumeAt, (s.job j).hold with
    | some at_, some h =>
      if ¬ tickLe at_ s.mer.tick ∨ ¬ s.bit (F.MER_JOB_CTRL_HELD n) ∨ s.bit (F.MER_JOB_CTRL_FAILED n) ∨ s.restoringJob j then s
      else
        let rs := (s.jobRegions j).filter (fun rg => decide (s.rf rg F.FIX_STATUS_STATE = 5))
        let ticks : BitVec 24 := BitVec.ofNat 24 (s.f (F.MER_FIX_TICKS_TICKS n))
        let target := rs.findSome? (fun rg => (s.rgn rg).rwd.armed)
        let s := s.set48 (R.MER_T0_LO n) (R.MER_T0_HI n) (at_ - h * ticks.zeroExtend 48)
        let s := s.setJob j { ticks := ticks, hold := target }
        let s := ((s.setF (F.MER_JOB_CTRL_HOLD n) 0).setF (F.MER_JOB_CTRL_HELD n) 0).setF (F.MER_JOB_CTRL_HOLD_CAUSE n)
          (if target.isSome then 2 else 0)
        let bound := s.boundary j (h + 1)
        foldS rs s (fun s rg =>
          let s := writeMarkers (s.onRgn rg (fun r => r.resumeMode h)) rg
          let s := replayWaiting (replayInjects s rg) rg
          s.onRgn rg (fun r => r.beginAt bound (!s.keepsBack rg)))
    | _, _ => s)

/-- REARM (R51): every region of the job that is not isolated begins a region reset, and the job's flags clear. Ignored while the
job is ACTIVE and neither HELD nor FAILED. -/
def execRearm (j : Job) (s : State) : Host.Outcome State Fault Refusal :=
  let n := j.toNat
  .next (
    if s.bit (F.MER_JOB_CTRL_ACTIVE n) ∧ ¬ s.bit (F.MER_JOB_CTRL_HELD n) ∧ ¬ s.bit (F.MER_JOB_CTRL_FAILED n) then s
    else
      let s := (((s.setF (F.MER_JOB_CTRL_FAILED n) 0).setF (F.MER_JOB_CTRL_HELD n) 0).setF (F.MER_JOB_CTRL_ACTIVE n) 0).setF
        (F.MER_JOB_CTRL_HOLD_CAUSE n) 0
      let s := (s.setF (F.MER_JOB_CTRL_HOLD n) 0).setJob j {}
      foldS (s.jobRegions j) s (fun s rg =>
        if s.rbit rg F.RGN_CTRL_ISOLATE ∨ s.enclosingReset rg then s
        else (s.setRf rg F.RGN_STATUS_RESET_BUSY 1).setRf rg F.NOC_STATUS_REFUSING 1))

end Sys2Proof.Machine
end

