-- ==== Sys2Proof/Machine/Region.lean ====
section
/-! DEFINITION. Region resets, isolation and release (R19–R28, R51, R183, R262, R360, R459, R501). -/

namespace Sys2Proof.Machine

/-! ### Network state of a region (R262) -/

/-- The key of input `i`, virtual channel `v` of element `e` on the packet plane. -/
def netKey (e i v : Nat) : Nat := (32 * e + i) * 4 + v

/-- The key of input `i`, parity `p` of element `e` on the scheduled plane. -/
def schedKey (e i : Nat) (p : Bool) : Nat := (32 * e + i) * 2 + p.toNat

/-- A bundle counts as accepted at the region that sent it (R45, R99). -/
def countAccepted (s : State) (b : Bundle) : State :=
  match b.origin with
  | none => s
  | some o => s.onRgn o (fun r => if r.f F.RGN_STATUS_EPOCH ≠ b.epoch.toNat then r else { r with fix := { r.fix with unaccepted := r.fix.unaccepted - (if r.fix.unaccepted = 0 then 0 else 1) } })

/-- The bundles of a queue are lost and count as accepted (R262). -/
def loseBundles (s : State) (key : Nat) : State :=
  let s' := foldS (SMap.get [] s.sched key) s countAccepted
  { s' with sched := SMap.set [] s'.sched key [] }

/-- The inputs of `gone` are emptied: no flits of other packets stand there. -/
def State.cutTrails (s : State) (gone : Nat → Bool) : State :=
  { s with trail := s.trail.foldl (fun m x => SMap.set [] m x.1 (if gone x.1 then [] else x.2.filter (fun k => !gone k))) [] }

/-- The queues of a region router's local port are emptied on both planes, and the region's tags are freed (R254, R262). -/
def emptyLocal (s : State) (rg : Rg) : State :=
  let e := rg.toNat
  let s := { s with net := (List.range 4).foldl (fun m v => SMap.set [] m (netKey e 4 v) []) s.net,
                    order := s.order.filter (fun k => decide (k / 4 ≠ 32 * e + 4)),
                    arrived := s.arrived.filter (fun p => !s.nodeIn rg p.dest),
                    tags := SMap.keep (fun k => decide (k / 8192 ≠ rg.toNat) || decide (0x17 ≤ k / 128 % 64)) s.tags }
  let s := s.cutTrails (fun k => decide (k / 4 = 32 * e + 4))
  let s := foldS (s.rgn rg).inject s countAccepted
  let s := s.onRgn rg (fun r => { r with inject := [] })
  loseBundles (loseBundles s (schedKey e 31 false)) (schedKey e 31 true)

/-! ### Region reset (R22, R183, R360) -/

/-- Registers of the window that a region reset keeps (R19, R22, R92, R108, R132, R188, R265, R271). -/
def keptByReset (a : Nat) : Bool :=
  a == R.RGN_STATUS || a == R.RGN_CHECK || a == R.RGN_MCOUNT || (decide (0x8000 ≤ a) && decide (a < 0xC000)) ||
    (decide (0x4000 ≤ a) && decide (a < 0x5000) && a % 256 == 8) ||
    a == R.RWD_HEAD || a == R.RWD_JLOG_LO || a == R.RWD_JLOG_HI || (decide (0x3400 ≤ a) && decide (a < 0x3800)) ||
    a == R.CNV_BANK || (decide (0xD100 ≤ a) && decide (a < 0xD200)) || (decide (0xD400 ≤ a) && decide (a < 0xDE00))

/-- The cells after a region reset (R183): ACC takes ACCINIT, Q takes LINIT, every channel is empty. -/
def resetCells (canvas : SMap (BitVec 2048)) : SMap Cell :=
  canvas.foldl (fun m e =>
    SMap.set {} m e.1 { acc := bitsAt e.2 272 16, q := bitsAt e.2 256 16 }) []

/-- An I/O cell after a region reset: its queues are empty. -/
def resetIo (m : SMap IoCell) : SMap IoCell :=
  m.foldl (fun n e => SMap.set {} n e.1 { level := e.2.level, driven := false, pin := e.2.pin }) []

/-- A core after a region reset (R360): as after a core reset, and with its mailboxes emptied as a flush empties them (R372). -/
def Easel.regionReset (e : Easel) : Easel := { prog := e.prog, x := e.x, y := e.y, cyc := 0, mbinCut := true, mboutCut := true }

/-- The stores that a region reset keeps, with everything else cleared (R22). -/
def Region.cleared (r : Region) (release : Bool) : Region where
  regs := SMap.keep keptByReset r.regs
  strokes := r.strokes
  startv := r.startv
  dmem := r.dmem
  ring := r.ring
  upsets := r.upsets
  canvas := r.canvas
  cells := resetCells r.canvas
  io := resetIo r.io
  disabled := r.disabled
  rwd := { seq := r.rwd.seq }
  isoSub := if release then 0 else r.isoSub
  isoWord := r.isoWord
  configured := r.configured
  live := r.live
  easels := allCores.foldl (fun (m : SMap Easel) (k : CoreNo) => SMap.set {} m k.val (r.eas k).regionReset) []

/-- The RWD registers after a region reset (R132): the ring is empty, its marks are not USABLE; SNAP_EVERY stays (R92). -/
def Region.resetRing (n : Region) (every : Nat) : Region :=
  ((n.setF F.RWD_CTRL_SNAP_EVERY every).setF F.RWD_TAIL_WORD (n.f F.RWD_HEAD_WORD)).unusable

/-- What RGN.CTRL and RGN.STATUS read after a region reset: the epoch has risen (R19); an isolation stays unless it is released
(R501); CLU.STATUS.NO_END goes with CLU.END_AT (R75, R91). -/
def Region.resetStatus (n r : Region) (release : Bool) : Region :=
  let n := (n.setF F.RGN_STATUS_EPOCH (r.f F.RGN_STATUS_EPOCH + 1)).setF F.RGN_STATUS_RESET_BUSY 0
  let n := n.setF F.CNV_BANK_VMISMATCH 0
  let n := allClusters.foldl (fun (n : Region) c => n.setF (F.CLU_STATUS_NO_END c.toNat) (r.f (F.CLU_STATUS_NO_END c.toNat))) n
  if r.bit F.RGN_CTRL_ISOLATE ∧ ¬ release then n.setF F.RGN_CTRL_ISOLATE 1
  else
    let n := n.setF F.RGN_STATUS_ISO_CAUSE 0
    if n.f F.RGN_STATUS_CFG = 3 then n else n.setF F.RGN_STATUS_CFG (if r.configured then 1 else 0)

/-- The cores of a configured region restart, and its fix engine is ARMED where it has a job (R22, R44, R360). -/
def Region.restart (n : Region) : Region :=
  let n := if n.configured then allCores.foldl (fun (n : Region) (k : CoreNo) => n.startCore k) n else n
  if n.f F.RGN_STATUS_CFG = 1 ∧ n.bit F.RGN_STATUS_IN_JOB then n.setF F.FIX_STATUS_STATE 1 else n

/-- A region after its reset. `release` ends an isolation. -/
def Region.afterReset (r : Region) (release : Bool) : Region :=
  ((((r.cleared release).resetRing (r.f F.RWD_CTRL_SNAP_EVERY)).resetStatus r release).showFights.keepDebug r).restart

/-- A release isolates the region again (R459): after SUB 1–5, as long as no load has rewritten the word, and after SUB 9, as long as the
repair map marks the region defective. -/
def State.reisolates (s : State) (rg : Rg) (sub : Nat) : Bool := (decide (1 ≤ sub) && decide (sub ≤ 5)) || (sub == 9 && s.defective rg)

/-- A region reset is performed (R22, R25): its epoch rises, and where its job is ACTIVE the job fails (R51). -/
def performReset (s : State) (rg : Rg) : State :=
  let r := s.rgn rg
  let release := r.releasing && r.bit F.RGN_CTRL_ISOLATE
  let sub := r.isoSub.toNat
  let s := emptyLocal s rg
  let s := breakOwned (flushRegion s rg) (fun n => s.nodeIn rg n)
  let s := startLatches (resetDelays (s.setRgn rg ((s.rgn rg).afterReset release)) rg) rg
  let s := match s.jobOf rg with
    | some j => if s.bit (F.MER_JOB_CTRL_ACTIVE j.toNat) then failJob s j else s
    | none => s
  if release ∧ s.reisolates rg sub then isolate s rg 3 sub else s

/-- The drain of a region reset has ended: the reset is performed, unless a rewind restores the region or a retouch applies to it;
then it waits (R25, R230). -/
def drainedRegion (s : State) (rg : Rg) : State :=
  let r := s.rgn rg
  if ¬ r.bit F.RGN_STATUS_RESET_BUSY then s
  else if r.f F.RWD_STATUS_MODE = 2 ∨ r.rwd.restoring.isSome ∨ s.applying = some rg then s.onRgn rg (fun r => { r with resetDue := true })
  else performReset s rg

/-- A reset that waited for the end of a restore or of an apply (R25). -/
def resetIfDue (s : State) (rg : Rg) : State := if (s.rgn rg).resetDue then drainedRegion s rg else s

/-- A region reset is requested (R25): the ingress refuses new requests and drains. A request during another, or during a reset of an
enclosing scope, is merged with it (R24). -/
def requestReset (s : State) (rg : Rg) (release : Bool) : State :=
  let s := if release then s.onRgn rg (fun r => { r with releasing := true }) else s
  if s.rbit rg F.RGN_STATUS_RESET_BUSY ∨ s.enclosingReset rg then s
  else (s.setRf rg F.RGN_STATUS_RESET_BUSY 1).setRf rg F.NOC_STATUS_REFUSING 1

/-- REGION_RESET: a write of 1 to RGN.CTRL.RESET (R25). -/
def execRegionReset (rg : Rg) (s : State) : Host.Outcome State Fault Refusal := .next (requestReset s rg false)

/-- ISOLATE: a host write of 1 to RGN.CTRL.ISOLATE (R28). -/
def execIsolate (rg : Rg) (s : State) : Host.Outcome State Fault Refusal := .next (isolate s rg 4 0)

/-- RELEASE: a write of 1 to RGN.CTRL.RELEASE ends an isolation by a region reset (R501). -/
def execRelease (rg : Rg) (s : State) : Host.Outcome State Fault Refusal :=
  .next (if s.rbit rg F.RGN_CTRL_ISOLATE then requestReset s rg true else s)

/-- REGION_WATCHDOG (R107, R120): the no-fix timer has reached RGN.WDOG.LIMIT while the region is in a cycle, or DMEM.GRANT_TIME has
passed RGN.WDOG.GRANT. -/
def execRegionWatchdog (rg : Rg) (grant : Bool) (s : State) : Host.Outcome State Fault Refusal :=
  let r := s.rgn rg
  .next (
    if grant then
      if r.bit F.RGN_WDOG_GRANT ∧ r.f F.DMEM_STATUS_OWNER ≠ 6 ∧ 1000 * r.f F.RGN_WDOG_GRANT < r.f F.DMEM_GRANT_TIME_NS then
        isolate (s.noteFault 18 (quadOf rg) (faultKey [(numOf rg, 4), (1, 1)])) rg 2 0
      else s
    else if r.bit F.RGN_WDOG_LIMIT ∧ r.inCycle ∧ 1000 * r.f F.RGN_WDOG_LIMIT ≤ r.fix.noFix then
      isolate (s.noteFault 18 (quadOf rg) (faultKey [(numOf rg, 4), (0, 1)])) rg 1 0
    else s)

end Sys2Proof.Machine
end

