-- ==== Sys2Proof/Machine/Rewind.lean ====
section
/-! DEFINITION. The trace writer's records (R121–R134), release, rewind and replay (R132, R136–R139). -/

namespace Sys2Proof.Machine

/-! ### Restoring (R137) -/

/-- The OLD words of the records after cycle `c`, up to `h`, the newest first (R137, step 1). -/
def Region.unwind (r : Region) (c h : BitVec 48) : Region :=
  let us := r.liveRecords.filter (fun x => decide (x.typ = 3) && decide (c.toNat < x.cycle.toNat) && decide (x.cycle.toNat ≤ h.toNat))
  us.reverse.foldl (fun (r : Region) x => r.putDmem (bitsAt (r.payload x 0) 0 19) (r.payload x 1)) r

/-- A cluster restored from the snapshot whose SNAP header is at word `p` (R137, steps 2 to 5). -/
def Region.restoreCl (r : Region) (p : Nat) (side : Nat) (c : Nat) : Cluster :=
  let k := r.cl (BitVec.ofNat 4 c)
  let snap (i : Nat) : Entry := r.ringAt (p + 1 + i)
  let snapx (i : Nat) : Entry := r.ringAt (p + 4099 + i)
  let mapped : BitVec 16 := bitsAt (snapx (257 + c / 4)) (16 * (c % 4)) 16
  { k with
    jseq := []
    pal := (List.range 256).foldl (fun m e => SMap.set 0 m e (snap (1 + 256 * c + e))) []
    next := []
    written := []
    exch := (List.range 16).foldl (fun m e =>
      if mapped.getLsbD e then SMap.set 0 m (16 * side + e) (snapx (1 + 16 * c + e)) else m) k.exch
    exFull := mapped.zeroExtend 32 <<< (16 * side)
    ports := (List.range 12).foldl (fun m e => SMap.set 0 m e (snapx (261 + 12 * c + e))) []
    portFull := bitsAt (snapx (453 + c / 4)) (16 * (c % 4)) 12 }

/-- Steps 2 to 6 of R137 from the snapshot at word `p`. -/
def Region.restoreFrom (r : Region) (p : Nat) (c : BitVec 48) : Region :=
  let src := r
  let r := (List.range 16).foldl (fun (x : Region) i => x.setCl (BitVec.ofNat 4 i) (src.restoreCl p (c.toNat % 2) i)) r
  let r := (r.set48 R.FIX_CYCLE_LO R.FIX_CYCLE_HI c).setF F.RWD_STATUS_SNAP_PENDING 0
  { r with rwd := { r.rwd with snap := none } }

/-- The cores of a region stop, and drop their back-port requests (R351, R361). -/
def Region.stopCores (r : Region) : Region :=
  allCores.foldl (fun r k =>
    let e := r.eas k
    if e.stopFrom.isSome then r
    else
      let st := r.f (F.EAS_STATUS_STATE k.val)
      (((r.setEas k { e with stopFrom := some (BitVec.ofNat 2 st), grant := 0 }).dropRequest k.val).setF (F.EAS_STATUS_STATE k.val) 3).setF
        (F.EAS_STATUS_HOLDING k.val) 0) r

/-- Restore from the snapshot at word `p` reads the headers of the records from it to HEAD, the two snapshot records, the markers, and the
UNDO records that it applies (R137). -/
def Region.restoreReads (r : Region) (p : Nat) (c h : BitVec 48) (w : Nat) : Bool :=
  let from_ (q : Nat) : Nat := (q + ringSize - p) % ringSize
  decide (from_ w < from_ (r.f F.RWD_HEAD_WORD)) &&
    (match r.recordOf w with
     | none => false
     | some x => decide (w = x.pos) || decide (from_ w < snapSpan) || decide (x.typ = 7) ||
        (decide (x.typ = 3) && decide (c.toNat < x.cycle.toNat ∧ x.cycle.toNat ≤ h.toNat) && (r.liveRecords.any (fun y => decide (y.pos = x.pos)))))

/-- The errors that a restore meets (R111). -/
def restoreErrors (s : State) (rg : Rg) (p : Nat) (c h : BitVec 48) : State :=
  let r := s.rgn rg
  foldS (r.ringUpsets.filter (fun u => r.restoreReads p c h u.1)) s (fun s u =>
    ringError s rg u.1 (match r.recordOf u.1 with | some x => x.cycle | none => 0) u.2)

/-- A region restores the snapshot of mark `i` (R137). -/
def restoreRegion (s : State) (rg : Rg) (i : Nat) (c h : BitVec 48) : State :=
  let p := (s.rgn rg).f (F.RWD_MARK_POS i)
  let s := s.onRgn rg (fun r => { r.dropRequest 4 with rwd := { r.rwd with restored := BitVec.ofNat 18 p, used := [], restoring := none,
                                                                            gapDue := none, branchDue := none } })
  (restoreErrors s rg p c h).onRgn rg (fun r => ((r.unwind c h).restoreFrom p c).setF F.RWD_STATUS_MODE 2)

/-- A rewind that waits for the trace writer goes on once that has nothing left to write (R115, R137). -/
def restoreIfIdle (s : State) (rg : Rg) : State :=
  match (s.rgn rg).rwd.restoring with
  | some (i, c, h) => if (s.rgn rg).writerIdle then restoreRegion s rg i.toNat c h else s
  | none => s

/-! ### The trace writer's records (R122–R134) -/

/-- UNDO (R126): the oldest entry of the undo buffer becomes a record. -/
def execUndo (rg : Rg) (s : State) : Host.Outcome State Fault Refusal :=
  .next (if (s.rgn rg).rwd.undo = [] then s else restoreIfIdle (traceGrant s rg (fun s => drainUndo s rg)) rg)

/-- The oldest boundary input becomes a record (R127). -/
def writeBin (s : State) (rg : Rg) : State :=
  let r := s.rgn rg
  match r.rwd.bins with
  | [] => s
  | b :: t => ringWrite (s.setRgn rg { r with rwd := { r.rwd with bins := t } }) rg b.cycle [recHeader b.cycle 2 false 4, b.word0, b.data]

/-- BIN (R127). -/
def execBin (rg : Rg) (s : State) : Host.Outcome State Fault Refusal :=
  .next (if (s.rgn rg).rwd.bins = [] then s else restoreIfIdle (traceGrant s rg (fun s => writeBin s rg)) rg)

/-- The oldest probe record goes to the ring, marked RPL in a replay (R129, R137); the PROBE is then performed (R104). -/
def writeTrace (s : State) (rg : Rg) : State :=
  let r := s.rgn rg
  match r.rwd.probes with
  | [] => s
  | p :: t =>
    let w0 := BitVec.ofNat 64 (packKey [(p.num.toNat, 10), (p.c.toNat, 4), (p.stroke.toNat, 11)])
    let s := s.setRgn rg { r with rwd := { r.rwd with probes := t } }
    let s := ringWrite s rg p.cycle [recHeader p.cycle 2 r.replaying 6, w0, p.data]
    tryEnd (s.onCl rg p.c (fun k => { k with probeOut := k.probeOut - 1 })) rg p.c

/-- TRACE (R129). -/
def execTrace (rg : Rg) (s : State) : Host.Outcome State Fault Refusal :=
  .next (if (s.rgn rg).rwd.probes = [] then s else restoreIfIdle (traceGrant s rg (fun s => writeTrace s rg)) rg)

/-- A block of the snapshot: at most 64 words, in a grant of its own (R115, R124). -/
def snapBlock : Nat := 64

/-- SNAPX (R124): the trace writer writes the next block of the snapshot that stands in the shadows; the last one of SNAPX, whose slots must all be
full, completes it. -/
def execSnapx (rg : Rg) (s : State) : Host.Outcome State Fault Refusal :=
  .next (if (s.rgn rg).snapReady then restoreIfIdle (traceGrant s rg (fun s => s.onRgn rg (fun r => r.writeSnap snapBlock))) rg else s)

/-- MARKER (R130): the GAP and BRANCH records that are due. -/
def execMarker (rg : Rg) (s : State) : Host.Outcome State Fault Refusal := .next (restoreIfIdle (writeMarkers s rg) rg)

/-- GAP (R133): 4,556 words are free again after records were discarded. -/
def execGap (rg : Rg) (s : State) : Host.Outcome State Fault Refusal :=
  .next (
    if (s.rgn rg).gapFits then
      restoreIfIdle (usePort s rg 4 (fun s => lowCheck (s.onRgn rg Region.writeGap) rg (s.rgn rg))) rg
    else s)

/-- A region that stops recording discards what its trace writer holds, and the writer's request; the PROBEs concerned are then performed (R104, R134). -/
def dropRecords (s : State) (rg : Rg) : State :=
  if ¬ (s.rgn rg).recording then s
  else
    let ps := (s.rgn rg).rwd.probes
    let s := s.onRgn rg (fun r => { r with rwd := { r.rwd with undo := [], bins := [], probes := [], merges := [] } }.dropRequest 4)
    foldS ps s (fun s p => tryEnd (s.onCl rg p.c (fun k => { k with probeOut := k.probeOut - 1 })) rg p.c)

/-- REC_EN (R134): a write of 0 in a running job clears USABLE in every mark at once and ends the recording; a return to 1 makes a
GAP record due for the cycle the region executes. -/
def execRecEn (rg : Rg) (v : Bool) (s : State) : Host.Outcome State Fault Refusal :=
  let runs : Bool := match s.jobOf rg with | some j => s.bit (F.MER_JOB_CTRL_ACTIVE j.toNat) | none => false
  let was := s.rbit rg F.RWD_CTRL_REC_EN
  .next (
    if v then
      let s := s.setRf rg F.RWD_CTRL_REC_EN 1
      if was || !runs then s else s.onRgn rg (fun r => { r with rwd := { r.rwd with gapDue := some r.executing } })
    else
      let s := (dropRecords s rg).setRf rg F.RWD_CTRL_REC_EN 0
      restoreIfIdle (if runs then s.onRgn rg Region.unusable else s) rg)

/-! ### Release (R132) -/

/-- How many snapshots have been taken after that of mark `i`: marks are numbered by sequence mod 64 (R132). -/
def Region.markAge (r : Region) (i : Nat) : Nat := (r.rwd.seq.toNat + 127 - i) % 64

/-- The mark of the snapshot of cycle `c` that satisfies `p`; where two do, the one written last. -/
def Region.findMark (r : Region) (c : BitVec 48) (p : Nat → Bool) : Option Nat :=
  let ms := (List.range 64).filter (fun i => decide (r.markCycle i = c) && r.bit (F.RWD_MARK_VALID i) && p i)
  ms.foldl (fun best i =>
    match best with
    | none => some i
    | some b => if r.markAge i < r.markAge b then some i else some b) none

/-- TAIL moves to a mark's snapshot, and every older mark is invalid; the words from TAIL to HEAD are not free. -/
def Region.releaseTo (r : Region) (i : Nat) : Region :=
  let tail := r.f (F.RWD_MARK_POS i)
  let held := (r.f F.RWD_HEAD_WORD + ringSize - tail) % ringSize
  let r' := (List.range 64).foldl (fun (x : Region) k =>
    if r.bit (F.RWD_MARK_VALID k) ∧ r.markAge i < r.markAge k then (x.setF (F.RWD_MARK_VALID k) 0).setF (F.RWD_MARK_USABLE k) 0 else x) r
  ((r'.setF F.RWD_TAIL_WORD tail).setF F.RWD_FREE_WORDS (if held = 0 then 0 else ringSize - held)).setF F.RWD_STATUS_CMD_ERR 0

/-- The cycle S of RWD.ARG. -/
def Region.arg (r : Region) : BitVec 48 := BitVec.ofNat 48 (r.f F.RWD_ARG_LO_S_LO + 2 ^ 32 * r.f F.RWD_ARG_HI_S_HI)

/-- A command of the RWD block is refused with its code (R143). -/
def refuseRwd (s : State) (rg : Rg) (code : Nat) : State := s.setRf rg F.RWD_STATUS_CMD_ERR code

/-- RWD_RELEASE (R132). -/
def execRwdRelease (rg : Rg) (s : State) : Host.Outcome State Fault Refusal :=
  let r := s.rgn rg
  .next (
    match r.findMark r.arg (fun _ => true) with
    | none => refuseRwd s rg 6
    | some i => s.setRgn rg (r.releaseTo i))

/-! ### Rewind (R136, R137) -/

/-- A region has a snapshot of `c` to which a rewind can go. -/
def Region.canRewind (r : Region) (c : BitVec 48) : Option Nat :=
  r.findMark c (fun i => r.bit (F.RWD_MARK_COMPLETE i) && r.bit (F.RWD_MARK_USABLE i))

/-- The code with which a rewind is refused, or 0 (R136). -/
def rewindCode (s : State) (rg : Rg) : Nat :=
  match s.jobOf rg with
  | none => 4
  | some j =>
    let c := (s.rgn rg).arg
    let rs := s.jobRegions j
    if s.restoringJob j ∨ s.jobMode j 3 then 3
    else
      match (s.job j).hold with
      | none => 1
      | some h =>
        if ¬ s.bit (F.MER_JOB_CTRL_HELD j.toNat) then 1
        else if h.toNat < c.toNat ∨ rs.any (fun g => ((s.rgn g).canRewind c).isNone) then 2
        else 0

/-- A region accepts a rewind to the snapshot of mark `i` (R137): its cores stop, and it restores once its trace writer has written out what it
holds, for which MODE reads RECORDING. `errs` are errors that have come up in ring words; restore or replay meets them where it reads the word. -/
def acceptRewind (s : State) (rg : Rg) (i : Nat) (c h : BitVec 48) (errs : List (BitVec 18 × Ecc)) : State :=
  let s := s.onRgn rg (fun r =>
    let r := errs.foldl (fun (r : Region) x =>
      { r with upsets := SMap.set .clean r.upsets (ringKey x.1.toNat) (r.checked (ringKey x.1.toNat) x.2) }) r
    let r := { r with rwd := { r.rwd with restoring := some (BitVec.ofNat 6 i, c, h) } }
    (r.stopCores.setF F.RWD_STATUS_CMD_BUSY 1).setF F.RWD_STATUS_CMD_ERR 0)
  restoreIfIdle s rg

/-- REWIND (R136, R137): a rewind that is accepted restores every region of the job. `errs` are the ring words in which an error has come up. -/
def execRewind (rg : Rg) (errs : List (Rg × BitVec 18 × Ecc)) (s : State) : Host.Outcome State Fault Refusal :=
  let code := rewindCode s rg
  .next (
    if code ≠ 0 then refuseRwd s rg code
    else
      match s.jobOf rg with
      | none => s
      | some j =>
        let c := (s.rgn rg).arg
        let h := ((s.job j).hold).getD 0
        foldS (s.jobRegions j) s (fun s g =>
          match (s.rgn g).canRewind c with
          | none => s
          | some i => acceptRewind s g i c h ((errs.filter (fun x => decide (x.1 = g))).map (·.2))))

/-- RESTORE_DONE (R137): every region has restored; HOLD_CYCLE becomes S and MODE reads REWOUND. A region reset that waited for it
is performed (R25). -/
def execRestoreDone (j : Job) (s : State) : Host.Outcome State Fault Refusal :=
  let rs := (s.jobRegions j).filter (fun rg => decide (s.rf rg F.RWD_STATUS_MODE = 2))
  .next (
    match (if (s.jobRegions j).any (fun g => (s.rgn g).rwd.restoring.isSome) then [] else rs) with
    | [] => s
    | rg :: _ =>
      let c := (s.rgn rg).cycle
      let s := (s.setJob j { s.job j with hold := some c }).setReg (R.MER_HOLD_CYCLE j.toNat) (c.truncate 32)
      let s := foldS rs s (fun s g => (s.setRf g F.RWD_STATUS_MODE 4).setRf g F.RWD_STATUS_CMD_BUSY 0)
      foldS rs s resetIfDue)

/-- The cycle T of RWD.REPLAY_TO. -/
def Region.replayTo (r : Region) : BitVec 48 :=
  BitVec.ofNat 48 (r.f F.RWD_REPLAY_TO_LO_T_LO + 2 ^ 32 * r.f F.RWD_REPLAY_TO_HI_T_HI)

/-- REPLAY_ARM (R138): with the job REWOUND, every region of it is armed to replay to T. -/
def execReplayArm (rg : Rg) (s : State) : Host.Outcome State Fault Refusal :=
  let r := s.rgn rg
  let t := r.replayTo
  .next (
    match s.jobOf rg with
    | none => refuseRwd s rg 4
    | some j =>
      match (s.job j).hold with
      | none => refuseRwd s rg 5
      | some h =>
        if r.f F.RWD_STATUS_MODE ≠ 4 ∨ t.toNat ≤ h.toNat ∨ (r.get48 R.RWD_LAST_REC_LO R.RWD_LAST_REC_HI).toNat < t.toNat then
          refuseRwd s rg 5
        else
          let s := foldS (s.jobRegions j) s (fun s g => s.onRgn g (fun x => { x with rwd := { x.rwd with armed := some t } }))
          s.setRf rg F.RWD_STATUS_CMD_ERR 0)

end Sys2Proof.Machine
end

