-- ==== Sys2Proof/Machine/EaselCore.lean ====
section
/-! DEFINITION. An easel core at work (R324–R346): registers, fetch, traps, the end of an instruction, loops, special registers.
A command of an instruction performs the instruction that the core fetches at its PC, where that is one of its opcode. -/

namespace Sys2Proof.Machine

/-! ### Registers (R325, R326) -/

/-- The register that field value `n` names with rotation base `rb`: S0–S7 at 0–7, physical rotating registers at 8–31. -/
def physReg (rb : BitVec 5) (n : Nat) : Nat := if n < 8 then n else 8 + (n - 8 + rb.toNat) % 24

def Easel.get (e : Easel) (n : Nat) : BitVec 16 := SMap.get 0 e.r (physReg e.rb n)

def Easel.put (e : Easel) (n : Nat) (v : BitVec 16) : Easel := { e with r := SMap.set 0 e.r (physReg e.rb n) v }

/-- The `n` registers from `rd` on as one value, the lowest first (R331). -/
def Easel.getMany (e : Easel) (rd : Nat) : Nat → Nat
  | 0 => 0
  | n + 1 => (e.get rd).toNat + 65536 * e.getMany (rd + 1) n

def Easel.putMany (e : Easel) (rd : Nat) (v : Nat) : Nat → Easel
  | 0 => e
  | n + 1 => (e.put rd (BitVec.ofNat 16 v)).putMany (rd + 1) (v / 65536) n

def Easel.ie (e : Easel) : Bool := e.sr.getLsbD 7
def Easel.setIe (e : Easel) (b : Bool) : Easel := { e with sr := setBit e.sr 7 b }
def Easel.setV (e : Easel) : Easel := { e with sr := setBit e.sr 3 true }

/-- A result with its flags goes to register `rd`. -/
def Easel.result (e : Easel) (rd : Nat) (x : Alu) : Easel := { e with sr := srFlags e.sr x }.put rd x.val

def Easel.acc (e : Easel) (one : Bool) : BitVec 40 := if one then e.a1 else e.a0

def Easel.setAcc (e : Easel) (one : Bool) (x : BitVec 40 × Bool) : Easel :=
  let e := if one then { e with a1 := x.1 } else { e with a0 := x.1 }
  if x.2 then e.setV else e

/-- P, B and L of pointer `n` (R334). -/
def Easel.p (e : Easel) (n : Nat) : BitVec 16 := SMap.get 0 e.ptr n
def Easel.b (e : Easel) (n : Nat) : BitVec 16 := SMap.get 0 e.ptr (8 + n)
def Easel.l (e : Easel) (n : Nat) : BitVec 16 := SMap.get 0 e.ptr (16 + n)
def Easel.setP (e : Easel) (n : Nat) (v : BitVec 16) : Easel := { e with ptr := SMap.set 0 e.ptr n v }

/-- Pointer `n` advanced by `m` (R336). -/
def Easel.advance (e : Easel) (n : Nat) (m : Int) : BitVec 16 :=
  let x : Int := (e.p n).toNat + m
  let l : Int := (e.l n).toNat
  let b : Int := (e.b n).toNat
  BitVec.ofInt 16 (if l = 0 then x else if b + l ≤ x then x - l else if x < b then x + l else x)

/-- The mailbox counts that EAS.MBIN_STAT and EAS.MBOUT_STAT show (R362). -/
def Region.showMail (r : Region) (k : CoreNo) : Region :=
  let e := r.eas k
  let n := k.val
  let r := (r.setF (F.EAS_MBIN_STAT_WORDS n) e.mbin.length).setF (F.EAS_MBIN_STAT_FREE n) (64 - e.mbin.length)
  (r.setF (F.EAS_MBOUT_STAT_WORDS n) e.mbout.length).setF (F.EAS_MBOUT_STAT_FREE n) (64 - e.mbout.length)

/-! ### Special registers (R334) -/

/-- Pending interrupts: FIX, MBIN, PKT (R344). -/
def Easel.pend (e : Easel) : BitVec 3 :=
  BitVec.ofNat 3 (e.pendFix.toNat + 2 * (!e.mbin.isEmpty).toNat + 4 * (decide (e.pktDone ≠ 0)).toNat)

/-- Bits [8 i + 7 : 8 i] and so on of an accumulator: 0 low, 1 middle, 2 guard. -/
def accPart (a : BitVec 40) (part : Nat) : BitVec 16 :=
  match part with
  | 0 => bitsAt a 0 16
  | 1 => bitsAt a 16 16
  | _ => (bitsAt a 32 8 : BitVec 8).signExtend 16

def setAccPart (a : BitVec 40) (part : Nat) (v : BitVec 16) : BitVec 40 :=
  match part with
  | 0 => setBits a 0 16 v
  | 1 => setBits a 16 16 v
  | _ => setBits a 32 8 (v.truncate 8)

/-- A read of special register `sp`. -/
def specRead (r : Region) (rg : Rg) (k : CoreNo) (sp : Nat) : BitVec 16 :=
  let e := r.eas k
  if sp < 0x18 then SMap.get 0 e.ptr sp
  else if 0x21 ≤ sp ∧ sp ≤ 0x26 then accPart (e.acc (decide (0x24 ≤ sp))) ((sp - 0x21) % 3)
  else if 0x27 ≤ sp ∧ sp ≤ 0x29 then bitsAt e.cyc (16 * (sp - 0x27)) 16
  else
    match sp with
    | 0x18 => BitVec.ofNat 16 (e.sr.toNat + 256 * r.f (F.EAS_STATUS_HOLDING k.val))
    | 0x19 => e.rb.zeroExtend 16
    | 0x1A => e.lr.zeroExtend 16
    | 0x1B => e.lc0
    | 0x1C => e.lc1
    | 0x1D => e.epc.zeroExtend 16
    | 0x1E => BitVec.ofNat 16 (r.f (F.EAS_STATUS_CAUSE k.val))
    | 0x1F => e.ien.zeroExtend 16
    | 0x20 => e.pend.zeroExtend 16
    | 0x2A => BitVec.ofNat 16 (packKey [(k.val, 2), (numOf rg, 4), (quadOf rg, 2)])
    | 0x2B => e.pktDone.zeroExtend 16
    | _ => 0

/-- A write of special register `sp`; B, L and RB take it two instructions later (R343). -/
def Easel.specWrite (e : Easel) (sp : Nat) (v : BitVec 16) : Easel :=
  if sp < 8 then e.setP sp v
  else if sp < 0x18 ∨ sp = 0x19 then { e with lateW := e.lateW ++ [⟨BitVec.ofNat 6 sp, v, 3⟩] }
  else if 0x21 ≤ sp ∧ sp ≤ 0x23 then { e with a0 := setAccPart e.a0 (sp - 0x21) v }
  else if 0x24 ≤ sp ∧ sp ≤ 0x26 then { e with a1 := setAccPart e.a1 (sp - 0x24) v }
  else
    match sp with
    | 0x18 => { e with sr := v.truncate 8 }
    | 0x1A => { e with lr := v.truncate 15 }
    | 0x1B => { e with lc0 := v }
    | 0x1C => { e with lc1 := v }
    | 0x1D => { e with epc := v.truncate 15 }
    | 0x1F => { e with ien := v.truncate 3 }
    | 0x2B => { e with pktDone := e.pktDone &&& ~~~ (v.truncate 8) }
    | _ => e

/-- A late write of B, L or RB lands; a value of RB is taken modulo 24 (R334, R343). -/
def Easel.land (e : Easel) (w : LateWrite) : Easel :=
  if w.spec = 0x19 then { e with rb := BitVec.ofNat 5 (w.val.toNat % 24) }
  else { e with ptr := SMap.set 0 e.ptr w.spec.toNat w.val }

/-- One more instruction has completed: late writes that two instructions have not seen land. -/
def Easel.age (e : Easel) : Easel :=
  let due := e.lateW.filter (fun w => decide (w.left ≤ 1))
  let e := { e with lateW := (e.lateW.filter (fun w => decide (1 < w.left))).map (fun w => { w with left := w.left - 1 }) }
  due.foldl Easel.land e

/-! ### Fetch (R327, R356, R357) -/

/-- An instruction word's fields. -/
def insnOp (w : Word) : Nat := w.toNat / 2 ^ 26
def insnRd (w : Word) : Nat := w.toNat / 2 ^ 21 % 32
def insnRa (w : Word) : Nat := w.toNat / 2 ^ 16 % 32
def insnRb (w : Word) : Nat := w.toNat / 2 ^ 11 % 32
def insnField (w : Word) (lo n : Nat) : Nat := w.toNat / 2 ^ lo % 2 ^ n
def insnImm (w : Word) : BitVec 16 := w.truncate 16

/-- The opcodes of R331. -/
def isOpcode (op : Nat) : Bool := decide (op ≤ 0x15) || (decide (0x18 ≤ op) && decide (op ≤ 0x29))

/-- The word of program memory or of the library at an address below 0x6000. -/
def storedInsn (s : State) (rg : Rg) (k : CoreNo) (pc : BitVec 15) : Word :=
  let a := pc.toNat
  BitVec.ofNat 32 (if a < 0x4000 then Mem.read (s.eas rg k).prog (4 * a) 4 else Mem.read s.library (0x8000 * quadOf rg + 4 * (a - 0x4000)) 4)

/-- ADDR with EN, and WORD, of a patch unit as a fetch sees them: a write acts after 8 core cycles (R357). -/
def Region.patchUnit (r : Region) (k : CoreNo) (u : Nat) : BitVec 16 × Word :=
  match (r.eas k).patchOld.find? (fun x => decide (x.unit.toNat = u)) with
  | some x => (x.addr, x.word)
  | none => ((r.reg (R.EAS_PATCH_ADDR k.val u)).truncate 16, r.reg (R.EAS_PATCH_WORD k.val u))

/-- The lowest enabled patch unit that matches `pc`, but for one that a breakpoint's resume passes over (R357, R416). -/
def Region.patchAt (r : Region) (k : CoreNo) (pc : BitVec 15) : Option Nat :=
  (List.range 8).find? (fun u =>
    decide ((r.patchUnit k u).1.toNat = 2 ^ 15 + pc.toNat) && !decide ((r.eas k).dbg.pass = some (BitVec.ofNat 3 u)))

/-- The word that the core executes at `pc`, and the patch unit that gives it. -/
def fetchAt (s : State) (rg : Rg) (k : CoreNo) (pc : BitVec 15) : Word × Option Nat :=
  let r := s.rgn rg
  match r.patchAt k pc with
  | some u => ((r.patchUnit k u).2, some u)
  | none => (storedInsn s rg k pc, none)

/-- The instruction that the core performs next: one that stalls has been fetched, and what is written meanwhile does not change it (R357). -/
def State.insnAt (s : State) (rg : Rg) (k : CoreNo) : Word :=
  let e := s.eas rg k
  e.fetched.getD (fetchAt s rg k e.pc).1

/-- `n` core cycles pass for the writes of patch units. -/
def Easel.cycles (e : Easel) (n : Nat) : Easel :=
  { e with patchOld := (e.patchOld.filter (fun x => decide (n < x.left.toNat))).map (fun x => { x with left := x.left - BitVec.ofNat 4 n }) }

/-! ### Traps and halts (R345, R346, R414) -/

/-- The core drops its back-port request or grant (R351). -/
def releasePort (s : State) (rg : Rg) (k : CoreNo) : State :=
  s.onRgn rg (fun r => (r.setEas k { r.eas k with grant := 0 }).dropRequest k.val)

/-- The core halts for the debug port. -/
def haltCore (s : State) (rg : Rg) (k : CoreNo) (cause unit : Nat) : State :=
  (releasePort s rg k).onRgn rg (fun r =>
    let e := r.eas k
    let d := { e.dbg with cause := BitVec.ofNat 3 cause, unit := BitVec.ofNat 3 unit, stepping := false, pass := none, haltReq := false }
    (r.setEas k { e with dbg := d, fetched := none, patchOld := [] }).setF (F.EAS_STATUS_HALTED k.val) 1)

/-- A debug session is open (R409). -/
def State.attached (s : State) : Bool := s.bit F.DBG_SESSION_ATTACH

/-- An instruction boundary (R414): a STEP that has completed halts the core again, and a HALT that waited halts it. -/
def boundary (s : State) (rg : Rg) (k : CoreNo) : State :=
  let d := (s.eas rg k).dbg
  if d.stepping then haltCore s rg k 4 0 else if d.haltReq then haltCore s rg k 1 0 else s

/-- What `n` cycles leave of the hazards: the data of PAL reads may still be on its way (R343). -/
def Hazard.pass (h : Hazard) (n : Nat) : Hazard := { pal := h.pal.map (fun x => (x.1, BitVec.ofNat 2 (x.2.toNat - n))) }

/-- What a jump to a vector, which loses 2 cycles, leaves of them. -/
def Hazard.jump (h : Hazard) : Hazard := h.pass 2

/-- A core leaves for a vector with SR.IE clear, and EPC keeps where it was (R344, R345). -/
def Easel.toVector (e : Easel) (pc : BitVec 15) : Easel :=
  { e with epc := e.pc, sr := setBit e.sr 7 false, pc := pc, haz := e.haz.jump, fetched := none }.cycles 2

/-- A trap with its cause (R345); where SR.IE was 0 the core then stops (R346); with TRAP_HALT it halts instead (R414). -/
def takeTrap (s : State) (rg : Rg) (k : CoreNo) (cause : Nat) : State :=
  let n := k.val
  if (s.eas rg k).dbg.trapHalt then haltCore s rg k 5 0
  else
    let s := (releasePort s rg k).setRf rg (F.EAS_STATUS_CAUSE n) cause
    let e := s.eas rg k
    let s := s.setEas rg k { e.toVector 2 with dbg := { e.dbg with pass := none } }
    if e.ie then boundary s rg k
    else ((s.setRf rg (F.EAS_STATUS_STATE n) 3).setRf rg (F.EAS_STATUS_DOUBLE n) 1).ibi 0x0B (locOf rg) n

/-! ### The end of an instruction (R341) -/

/-- The active level whose END is `pc` and whose recorded SR.IE is the core's. -/
def Easel.levelAt (e : Easel) (pc : BitVec 15) : Option (Bool × LoopLevel) :=
  let hit (l : Option LoopLevel) : Option LoopLevel := l.filter (fun x => decide (x.stop = pc) && x.ie == e.ie)
  match hit e.l1 with
  | some l => some (true, l)
  | none => (hit e.l0).map (fun l => (false, l))

/-- The loop-back at END (R341): the core after it, and the next PC. -/
def Easel.loopBack (e : Easel) (one : Bool) (l : LoopLevel) : Easel × BitVec 15 :=
  let e := if l.rot then { e with rb := BitVec.ofNat 5 ((e.rb.toNat + 23) % 24) } else e
  let lc := if one then e.lc1 else e.lc0
  if 1 < lc.toNat then (if one then { e with lc1 := lc - 1 } else { e with lc0 := lc - 1 }, l.start)
  else (if one then { e with lc1 := 0, l1 := none } else { e with lc0 := 0, l0 := none }, l.stop + 1)

/-- The core after the instruction at `e.pc` has completed, `next` being where a jump goes, and `ie` SR.IE as it stood before. A level loops back
where SR.IE is the recorded one before and after the instruction: it ignores a handler's RETI (R346). -/
def Easel.complete (e : Easel) (ie : Bool) (next : Option (BitVec 15)) : Easel :=
  let (e, pc) := match (if e.ie = ie then e.levelAt e.pc else none) with
    | some (one, l) => e.loopBack one l
    | none => (e, next.getD (e.pc + 1))
  let e := e.age
  { e with pc := pc, dbg := { e.dbg with pass := none } }

/-- An instruction completes (R341, R362), and the core is at a boundary. -/
def retire (s : State) (rg : Rg) (k : CoreNo) (ie : Bool) (next : Option (BitVec 15)) : State :=
  boundary ((s.onEas rg k (fun e => e.complete ie next)).bumpR rg (F.EAS_PERF_INSN_COUNT k.val) 1) rg k

/-! ### Stalls (R343, R362) -/

/-- A mask of numbers. -/
def maskOf (w : Nat) (l : List Nat) : BitVec w := l.foldl (fun m n => m ||| (1 <<< n)) 0

/-- The `n` register numbers from `r` on. -/
def regsFrom (r n : Nat) : List Nat := (List.range n).map (r + ·)

/-- The register numbers that an instruction reads (R330, R331, R337–R340). -/
def readsRegs (w : Word) : List Nat :=
  let rd := insnRd w
  let ra := insnRa w
  match insnOp w with
  | 0x00 | 0x0E | 0x10 | 0x15 | 0x18 | 0x1A | 0x1E => []
  | 0x11 | 0x19 => [rd]
  | 0x13 => if insnField w 23 2 = 3 then [] else [8 + insnField w 19 4, 8 + insnField w 15 4]
  | 0x14 => if insnField w 22 3 = 1 then [ra] else []
  | 0x1B => [rd, rd + 1]
  | 0x1C => if w.getLsbD 6 then regsFrom rd 4 else []
  | 0x1D => regsFrom ra 2 ++ (if w.getLsbD 15 then regsFrom rd 4 else [])
  | 0x1F => regsFrom ra 2
  | 0x24 => if w.getLsbD 25 then [insnField w 20 5] else []
  | 0x28 => [ra]
  | op => if op ≤ 0x09 ∨ op = 0x12 then [ra, insnRb w] else if op ≤ 0x0F then [ra] else []

/-- The registers that an instruction loads from X or Y. -/
def loadsRegs (w : Word) : List Nat :=
  match insnOp w with
  | 0x18 => [insnRd w]
  | 0x1A => regsFrom (insnRd w) 2
  | 0x13 => ([insnField w 5 4, insnField w 1 4].filter (fun d => decide (d ≠ 15))).map (8 + ·)
  | _ => []

/-- The registers that an instruction writes (R331). -/
def writesRegs (w : Word) : List Nat :=
  let rd := insnRd w
  match insnOp w with
  | 0x09 | 0x0F => []
  | 0x0A | 0x0B | 0x0C | 0x0D | 0x0E | 0x10 | 0x15 => [rd]
  | 0x1C => if w.getLsbD 6 then [] else regsFrom rd 4
  | 0x1D => if w.getLsbD 15 then [] else regsFrom rd 4
  | 0x1E => regsFrom rd 2
  | op => if 0x01 ≤ op ∧ op ≤ 0x08 then [rd] else loadsRegs w

/-- The accumulator that an EXT, ACC or MVS waits for. -/
def readsAccs (w : Word) : List Nat :=
  let sp := insnField w 15 6
  match insnOp w with
  | 0x14 => [(w.getLsbD 25).toNat]
  | 0x15 => [(w.getLsbD 20).toNat]
  | 0x10 => if 0x21 ≤ sp ∧ sp ≤ 0x26 then [(sp - 0x21) / 3] else []
  | _ => []

/-- The pointers with which an instruction makes its accesses. -/
def readsPtrs (w : Word) : List Nat :=
  let op := insnOp w
  if 0x18 ≤ op ∧ op ≤ 0x1B then (if insnField w 16 2 = 3 then [] else [insnField w 18 3])
  else if op = 0x13 then
    (if insnField w 5 4 = 15 then [] else [insnField w 13 2]) ++ (if insnField w 1 4 = 15 then [] else [4 + insnField w 11 2])
  else []

/-- What an instruction leaves for the next one to wait for. -/
def Easel.hazardOf (e : Easel) (w : Word) : Hazard where
  regs := maskOf 32 ((loadsRegs w).map (physReg e.rb))
  pal := if insnOp w = 0x1C ∧ ¬ w.getLsbD 6 then [(maskOf 32 ((regsFrom (insnRd w) 4).map (physReg e.rb)), 3)] else []
  accs := if insnOp w = 0x12 ∨ insnOp w = 0x13 ∨ insnOp w = 0x14 then 1 <<< (w.getLsbD 25).toNat else 0
  ptrs := if insnOp w = 0x11 ∧ insnField w 15 6 < 8 then 1 <<< insnField w 15 6 else 0

/-- The instruction waits one cycle for what the one before it leaves. -/
def Easel.interlocks (e : Easel) (w : Word) : Bool :=
  (maskOf 32 ((readsRegs w).map (physReg e.rb)) &&& e.haz.regs) != 0 || (maskOf 2 (readsAccs w) &&& e.haz.accs) != 0 ||
    (maskOf 8 (readsPtrs w) &&& e.haz.ptrs) != 0

/-- The instruction uses a quartet that a PAL read fills: it reads or writes one of its registers. -/
def Easel.usesQuartet (e : Easel) (w : Word) (q : BitVec 32) : Bool :=
  (maskOf 32 ((readsRegs w ++ writesRegs w).map (physReg e.rb)) &&& q) != 0
def Easel.palUse (e : Easel) (w : Word) : Bool := e.haz.pal.any (fun x => e.usesQuartet w x.1)

/-- The cycles that must still pass before the data of all of them has arrived. -/
def Easel.palWait (e : Easel) (w : Word) : Nat :=
  ((e.haz.pal.filter (fun x => e.usesQuartet w x.1)).map (fun x => x.2.toNat)).foldl max 0

/-- The instruction waits for a bus: its own PAL, BPA or PKT, the data of an earlier PAL read, or, at an access to X or Y, the network's
use of that bus (R329). -/
def Easel.busStalls (e : Easel) (w : Word) : Bool :=
  decide (insnOp w ∈ [0x13, 0x18, 0x19, 0x1A, 0x1B, 0x1C, 0x1D, 0x28]) || e.palUse w

/-- The stall cycles of an instruction that completes (R343): the core before it was `e`. How many cycles a bus takes is time, which the
spec does not fix: a free value, on top of what a PAL read's data takes at least. `jumps`: a taken branch loses 2 cycles, which are no stall. -/
def countStalls (s : State) (rg : Rg) (k : CoreNo) (e : Easel) (w : Word) (jumps : Bool) : State :=
  let (v, s) := if e.busStalls w then s.draw 32 else (0, s)
  let stalls := (e.interlocks w).toNat + e.palWait w + v.toNat
  let cycles := 1 + stalls + (if jumps then 2 else 0)
  let open_ : Hazard := { pal := e.haz.pal.filter (fun x => !e.usesQuartet w x.1) }
  let h := e.hazardOf w
  let h := { h with pal := (open_.pass cycles).pal ++ h.pal }
  (s.onEas rg k (fun x => { x with haz := h, fetched := none }.cycles cycles)).bumpR rg (F.EAS_PERF_STALL_COUNT k.val) stalls

/-- The instruction `w` at PC stalls (R343): by one cycle, and a free number more. It has been fetched. -/
def stallMore (s : State) (rg : Rg) (k : CoreNo) (w : Word) : State :=
  let (v, s) := s.draw 32
  (s.onEas rg k (fun x => { x with haz := x.haz.pass (1 + v.toNat), fetched := some w }.cycles (1 + v.toNat))).bumpR rg (F.EAS_PERF_STALL_COUNT k.val) (1 + v.toNat)

/-! ### Performing an instruction -/

/-- What becomes of an instruction: it is performed, with the target of a jump; it traps; it stalls and nothing more happens
now; or the core stops fetching. -/
inductive Did where
  | done (s : State) (next : Option (BitVec 15))
  | trap (s : State) (cause : Nat)
  | stall (s : State)
  | stop (s : State)

/-- The core executes instructions: not while a test step of the region's logic holds its state in the spare bank (R463). -/
def State.coreRuns (s : State) (rg : Rg) (k : CoreNo) : Bool :=
  decide (s.rf rg (F.EAS_STATUS_STATE k.val) = 1) && !s.rbit rg (F.EAS_STATUS_HALTED k.val) && s.clocked rg && !s.logicStep rg

/-- BR, CALL and RET (R331): at the END of an active level they trap (R341). -/
def isBranch (op : Nat) : Bool := decide (0x20 ≤ op) && decide (op ≤ 0x22)

/-- The core performs the instruction at its PC, where that has opcode `op` and the meaning `f`. A fetch from the reserved part of
the program space, or of a reserved opcode, traps with ILLEGAL (R327, R331, R345). -/
def easStep (s : State) (rg : Rg) (k : CoreNo) (op : Nat) (f : State → Word → Did) : State :=
  if ¬ s.coreRuns rg k then s
  else
    let e := s.eas rg k
    if 0x6000 ≤ e.pc.toNat then takeTrap s rg k 1
    else
      let w := s.insnAt rg k
      if ¬ isOpcode (insnOp w) then takeTrap s rg k 1
      else if insnOp w ≠ op then s
      else if isBranch op ∧ (e.levelAt e.pc).isSome then takeTrap s rg k 3
      else
        match f s w with
        | .done t next => retire (countStalls t rg k e w next.isSome) rg k e.ie next
        | .trap t c => takeTrap t rg k c
        | .stall t => stallMore t rg k w
        | .stop t => t

/-- An instruction that only changes the core. -/
def onCore (rg : Rg) (k : CoreNo) (f : Easel → Word → Easel) (s : State) (w : Word) : Did :=
  .done (s.onEas rg k (fun e => f e w)) none

end Sys2Proof.Machine
end

