-- ==== Sys2Proof/Machine/EaselMem.lean ====
section
/-! DEFINITION. Easel loads and stores, palette and back-port access, mailboxes and packets (R335, R348–R355). -/

namespace Sys2Proof.Machine

/-! ### Loads and stores (R328, R335) -/

/-- The effective address of a memory-format word, and the core with the pointer as it is afterwards. -/
def Easel.effective (e : Easel) (w : Word) : BitVec 16 × Easel :=
  let p := insnField w 18 3
  let off := insnImm w
  match insnField w 16 2 with
  | 0 => (e.p p + off, e)
  | 1 => (e.p p, e.setP p (e.advance p off.toInt))
  | 2 => (e.advance p off.toInt, e.setP p (e.advance p off.toInt))
  | _ => (off, e)

/-- P0–P3 address X, P4–P7 address Y (R328). -/
def Easel.mem (e : Easel) (p : Nat) : Mem := if p < 4 then e.x else e.y
def Easel.setMem (e : Easel) (p : Nat) (m : Mem) : Easel := if p < 4 then { e with x := m } else { e with y := m }

/-- A load of `n` registers: a pair's register is even, the address aligned to the size. -/
def runLoad (n : Nat) (rg : Rg) (k : CoreNo) (s : State) (w : Word) : Did :=
  let e := s.eas rg k
  let p := insnField w 18 3
  let (ea, e') := e.effective w
  if insnRd w % n ≠ 0 then .trap s 9
  else if ea.toNat % (2 * n) ≠ 0 then .trap s 2
  else .done (s.setEas rg k (e'.putMany (insnRd w) (Mem.read (e.mem p) ea.toNat (2 * n)) n)) none

/-- A store of `n` registers. -/
def runStore (n : Nat) (rg : Rg) (k : CoreNo) (s : State) (w : Word) : Did :=
  let e := s.eas rg k
  let p := insnField w 18 3
  let (ea, e') := e.effective w
  if insnRd w % n ≠ 0 then .trap s 9
  else if ea.toNat % (2 * n) ≠ 0 then .trap s 2
  else .done (s.setEas rg k (e'.setMem p (Mem.write (e.mem p) ea.toNat (2 * n) (e.getMany (insnRd w) n)))) none

/-- LD (R335). -/
def execEasLd (rg : Rg) (k : CoreNo) (s : State) : Host.Outcome State Fault Refusal := .next (easStep s rg k 0x18 (runLoad 1 rg k))

/-- ST (R335). -/
def execEasSt (rg : Rg) (k : CoreNo) (s : State) : Host.Outcome State Fault Refusal := .next (easStep s rg k 0x19 (runStore 1 rg k))

/-- LDD (R335). -/
def execEasLdd (rg : Rg) (k : CoreNo) (s : State) : Host.Outcome State Fault Refusal := .next (easStep s rg k 0x1A (runLoad 2 rg k))

/-- STD (R335). -/
def execEasStd (rg : Rg) (k : CoreNo) (s : State) : Host.Outcome State Fault Refusal := .next (easStep s rg k 0x1B (runStore 2 rg k))

/-! ### PAL (R348, R349) -/

/-- The entry may be read or written by PAL (R348). -/
def palAllowed (entry : Nat) (wr : Bool) : Bool :=
  decide (entry < 256) || (decide (992 ≤ entry) && (!wr || decide (entry < 1020)))

/-- PAL (R348, R349): one entry of one palette, in a quartet, while the core holds the fix. -/
def runPal (rg : Rg) (k : CoreNo) (s : State) (w : Word) : Did :=
  let r := s.rgn rg
  let e := r.eas k
  let rd := insnRd w
  let c : Cl := BitVec.ofNat 4 (insnField w 17 4)
  let entry := insnField w 7 10
  let wr := w.getLsbD 6
  if rd % 4 ≠ 0 then .trap s 9
  else if e.late then .trap s 6
  else if ¬ r.bit (F.EAS_STATUS_HOLDING k.val) then .trap s 5
  else if ¬ palAllowed entry wr then .trap s 7
  else if wr then
    let v : Entry := BitVec.ofNat 64 (e.getMany rd 4)
    let s := s.onCl rg c (fun x => x.poke r.executing entry v (w.getLsbD 5))
    .done (logInject s rg c entry k.val) none
  else .done (s.setEas rg k (e.putMany rd ((r.cl c).peek r.executing entry).toNat 4)) none

/-- PAL (R348). -/
def execEasPal (rg : Rg) (k : CoreNo) (s : State) : Host.Outcome State Fault Refusal := .next (easStep s rg k 0x1C (runPal rg k))

/-! ### BPA (R350, R351) -/

/-- The requester of a core (R115). -/
def coreReq (k : CoreNo) : Fin 6 := ⟨k.val, by omega⟩

/-- An access of the grant is made: with H = 0, or after 16, the request is dropped (R351). -/
def Region.endAccess (r : Region) (k : CoreNo) (keep : Bool) : Region :=
  let e := r.eas k
  let n := e.grant.toNat + 1
  if keep ∧ n < 16 then r.setEas k { e with grant := BitVec.ofNat 5 n }
  else (r.setEas k { e with grant := 0 }).dropGrant

/-- The access itself, in a grant (R110, R111, R350). -/
def backAccess (s : State) (rg : Rg) (k : CoreNo) (w : Word) (ecc : Ecc) (undoNs : Word) : Did :=
  let e := s.eas rg k
  let n := k.val
  let rd := insnRd w
  let a := e.getMany (insnRa w) 2
  let ends (s : State) : State := s.onRgn rg (fun r => r.endAccess k (w.getLsbD 14))
  if w.getLsbD 15 then
    .done (ends (backWrite s rg n (BitVec.ofNat 19 (a / 8)) (BitVec.ofNat 8 (insnField w 6 8)) (BitVec.ofNat 64 (e.getMany rd 4)) ecc
      undoNs)) none
  else
    let ring := decide (0x400000 ≤ a)
    let (s, v) := backRead s rg n ring (if ring then (a - 0x400000) / 8 else a / 8) ecc
    let s := ends (s.onEas rg k (fun e => e.putMany rd (v.getD 0).toNat 4))
    match v with
    | some _ => .done s none
    | none =>
      let s := (s.setRf rg (F.EAS_STATUS_POISON n) 1).bumpR rg (F.EAS_COUNTS_POISON n) 1
      if s.rbit rg (F.EAS_CTRL_PTRAP n) then .trap s 4 else .done s none

/-- BPA (R350): a quartet to or from the back port. The core waits for its grant (R351), and for a memory cycle of design memory (R112). -/
def runBpa (ecc : Ecc) (undoNs : Word) (rg : Rg) (k : CoreNo) (s : State) (w : Word) : Did :=
  let r := s.rgn rg
  let e := r.eas k
  let a := e.getMany (insnRa w) 2
  if insnRd w % 4 ≠ 0 ∨ insnRa w % 2 ≠ 0 then .trap s 9
  else if a % 8 ≠ 0 ∨ 0x600000 ≤ a ∨ (w.getLsbD 15 ∧ 0x400000 ≤ a) then .trap s 8
  else
    let (s, mine) := askPort s rg (coreReq k)
    if ¬ mine ∨ (a < 0x400000 ∧ r.frontWrites) then .stall s else backAccess s rg k w ecc undoNs

/-- BPA (R350). -/
def execEasBpa (rg : Rg) (k : CoreNo) (ecc : Ecc) (undoNs : Word) (s : State) : Host.Outcome State Fault Refusal :=
  .next (easStep s rg k 0x1D (runBpa ecc undoNs rg k))

/-- GRANT_IDLE_DROP (R351): 32 core cycles pass without a BPA. -/
def execGrantIdleDrop (rg : Rg) (k : CoreNo) (s : State) : Host.Outcome State Fault Refusal :=
  .next (if s.rf rg F.DMEM_STATUS_OWNER = k.val then releasePort s rg k else s)

/-! ### Mailboxes (R354, R355, R371, R372) -/

/-- A word of a queue fails its parity (R371). -/
def queueError (s : State) (rg : Rg) (k : CoreNo) : State :=
  s.noteFault 24 (quadOf rg) (faultKey [(numOf rg, 4), (k.val, 2)])

/-- MBRD (R354). -/
def runMbrd (rg : Rg) (k : CoreNo) (s : State) (w : Word) : Did :=
  let e := s.eas rg k
  let rd := insnRd w
  if rd % 2 ≠ 0 then .trap s 9
  else
    match e.mbin with
    | [] => .done (s.setEas rg k ({ e with sr := setBit (setBit (setBit e.sr 4 true) 5 false) 6 false }.putMany rd 0 2)) none
    | m :: t =>
      let e := { e with mbin := t, sr := setBit (setBit (setBit e.sr 4 false) 5 m.first) 6 m.bad }
      let s := s.onRgn rg (fun r => (r.setEas k (e.putMany rd m.word.toNat 2)).showMail k)
      .done (if m.bad then queueError (s.setRf rg (F.EAS_MBIN_STAT_PARITY k.val) 1) rg k else s) none

/-- A word that a flush has cut off is discarded (R372). -/
def abandonWord (s : State) : State := s.bump F.SEM_QERR_ABANDONED 1

/-- The bit of a core in SEM.ABANDON: core 3 (16 q + g) + k. -/
def abandonBit (rg : Rg) (k : CoreNo) : Nat := 3 * rg.toNat + k.val

def noteAbandon (s : State) (rg : Rg) (k : CoreNo) : State :=
  let n := abandonBit rg k
  let a := R.SEM_ABANDON (n / 32)
  s.setReg a (s.reg a ||| (1 <<< (n % 32)))

/-- MBWR (R355): a push to a full mailbox stalls the core; after a flush, a word without the first marker is discarded. -/
def runMbwr (rg : Rg) (k : CoreNo) (s : State) (w : Word) : Did :=
  let e := s.eas rg k
  let ra := insnRa w
  let first := w.getLsbD 15
  if ra % 2 ≠ 0 then .trap s 9
  else if e.mboutCut ∧ ¬ first then .done (noteAbandon (abandonWord s) rg k) none
  else if 64 ≤ e.mbout.length then .stall s
  else
    let e := { e with mbout := e.mbout ++ [⟨BitVec.ofNat 32 (e.getMany ra 2), first, false⟩], mboutCut := false }
    .done (s.onRgn rg (fun r => (r.setEas k e).showMail k)) none

/-- MBRD (R354). -/
def execEasMbrd (rg : Rg) (k : CoreNo) (s : State) : Host.Outcome State Fault Refusal := .next (easStep s rg k 0x1E (runMbrd rg k))

/-- MBWR (R355). -/
def execEasMbwr (rg : Rg) (k : CoreNo) (s : State) : Host.Outcome State Fault Refusal := .next (easStep s rg k 0x1F (runMbwr rg k))

/-! ### PKT (R352, R353) -/

/-- Bytes of X from `a` on, past 0xFFFF at 0, as one number. -/
def xRead (m : Mem) (a : Nat) : Nat → Nat
  | 0 => 0
  | n + 1 => (SMap.get (0 : BitVec 8) m (a % 65536)).toNat + 256 * xRead m (a + 1) n

def xWrite (m : Mem) (a : Nat) (v : Nat) : Nat → Mem
  | 0 => m
  | n + 1 => xWrite (SMap.set 0 m (a % 65536) (BitVec.ofNat 8 v)) (a + 1) (v / 256) n

/-- A request that carries data flits: every one but READ (R248). -/
def carriesData (cmd : Nat) : Bool := cmd != 1

/-- The packet that a descriptor at X address `d` describes, for tag `t` (R254, R352). -/
def descPacket (s : State) (rg : Rg) (k : CoreNo) (d t : Nat) : EnginePkt :=
  let x := (s.eas rg k).x
  let cmd := xRead x (d + 3) 1 % 64
  let len := xRead x (d + 4) 1 % 64
  let data := xRead x (d + 12) 2
  { packet :=
      { dest := BitVec.ofNat 24 (xRead x d 3), src := s.node rg (0x10 + k.val), cmd := BitVec.ofNat 6 cmd,
        tag := BitVec.ofNat 10 (t + 128 * (s.rf rg F.RGN_STATUS_EPOCH % 8)), len := BitVec.ofNat 6 len,
        epoch := BitVec.ofNat 8 (xRead x (d + 5) 1), vc := 0, addr := BitVec.ofNat 40 (xRead x (d + 6) 5),
        data := if carriesData cmd then (List.range len).map (fun i => BitVec.ofNat 128 (xRead x (data + 16 * i) 16)) else [],
        poison := 0 }
    irq := decide (xRead x (d + 11) 1 % 2 = 1)
    resp := BitVec.ofNat 16 (xRead x (d + 14) 2)
    desc := BitVec.ofNat 16 d
    sent := false }

/-- The lowest free packet tag of a core. -/
def Easel.freeTag (e : Easel) : Option Nat := (List.range 8).find? (fun t => (SMap.get none e.pkts t).isNone)

/-- PKT (R352): the engine reads the descriptor and the data and offers the request; while 8 are outstanding the core stalls. -/
def runPkt (rg : Rg) (k : CoreNo) (s : State) (w : Word) : Did :=
  let e := s.eas rg k
  let d := (e.get (insnRa w)).toNat
  if d % 8 ≠ 0 then .trap s 2
  else
    match e.freeTag with
    | none => .stall s
    | some t =>
      let q := descPacket s rg k d t
      let cmd := q.packet.cmd.toNat
      if (q.packet.data ≠ [] ∧ xRead e.x (d + 12) 2 % 16 ≠ 0) ∨ ((cmd = 1 ∨ cmd = 4) ∧ q.resp.toNat % 16 ≠ 0) then .trap s 2
      else
        .done (s.onRgn rg (fun r =>
          let r := r.setEas k { e with x := xWrite e.x (d + 18) t 1, pkts := SMap.set none e.pkts t (some q) }
          r.setF (F.EAS_PKT_BUSY k.val) (r.f (F.EAS_PKT_BUSY k.val) ||| 2 ^ t))) none

/-- PKT (R352). -/
def execEasPkt (rg : Rg) (k : CoreNo) (s : State) : Host.Outcome State Fault Refusal := .next (easStep s rg k 0x28 (runPkt rg k))

/-- A request of a packet engine ends (R353): STATUS and the response data are written, the tag is free, and with IRQ the tag's bit
of PKTDONE is set. -/
def endPkt (s : State) (rg : Rg) (k : CoreNo) (t cause : Nat) (poison : Bool) (data : List Flit) : State :=
  let e := s.eas rg k
  match SMap.get none e.pkts t with
  | none => s
  | some q =>
    let x := (data.zipIdx).foldl (fun m f => xWrite m (q.resp.toNat + 16 * f.2) f.1.toNat 16) e.x
    let x := xWrite x (q.desc.toNat + 16) (cause % 16 + 16 + (if poison then 32 else 0)) 2
    let e := { e with x := x, pkts := SMap.set none e.pkts t none, pktDone := if q.irq then e.pktDone ||| (1 <<< t) else e.pktDone }
    let s := s.onRgn rg (fun r =>
      let r := r.setEas k e
      r.setF (F.EAS_PKT_BUSY k.val) (r.f (F.EAS_PKT_BUSY k.val) &&& (255 - 2 ^ t)))
    if cause = 1 then s.bumpR rg (F.EAS_PKT_REFUSED k.val) 1
    else if cause = 8 then s.bumpR rg (F.EAS_PKT_TIMEOUTS k.val) 1
    else s

end Sys2Proof.Machine
end

