-- ==== Sys2Proof/Machine/EaselFlow.lean ====
section
/-! DEFINITION. Easel control flow (R331, R340–R347, R359). -/

namespace Sys2Proof.Machine

/-- The condition of a branch word holds (R333). -/
def branchTaken (s : State) (rg : Rg) (k : CoreNo) (w : Word) : Bool :=
  let e := s.eas rg k
  condHolds (insnField w 22 4) e.sr (!e.mbin.isEmpty) (s.rbit rg (F.EAS_STATUS_HOLDING k.val))

def insnTarget (w : Word) : BitVec 15 := w.truncate 15

/-- BR (R331). -/
def runBr (rg : Rg) (k : CoreNo) (s : State) (w : Word) : Did :=
  .done s (if branchTaken s rg k w then some (insnTarget w) else none)

/-- CALL (R331). -/
def runCall (rg : Rg) (k : CoreNo) (s : State) (w : Word) : Did :=
  if branchTaken s rg k w then .done (s.onEas rg k (fun e => { e with lr := e.pc + 1 })) (some (insnTarget w)) else .done s none

/-- RET (R331). -/
def runRet (rg : Rg) (k : CoreNo) (s : State) (w : Word) : Did :=
  .done s (if branchTaken s rg k w then some (s.eas rg k).lr else none)

/-- RETI (R331). -/
def runReti (rg : Rg) (k : CoreNo) (s : State) (_ : Word) : Did :=
  .done (s.onEas rg k (fun e => e.setIe true)) (some (s.eas rg k).epc)

/-- LOOP (R340). -/
def runLoop (rg : Rg) (k : CoreNo) (s : State) (w : Word) : Did :=
  let e := s.eas rg k
  let stop := insnTarget w
  let count : BitVec 16 := if w.getLsbD 25 then e.get (insnField w 20 5) else BitVec.ofNat 16 (insnField w 16 9)
  let ends (l : Option LoopLevel) : Bool := match l with | some x => decide (x.stop = stop) | none => false
  if stop.toNat ≤ e.pc.toNat ∨ ends e.l0 ∨ ends e.l1 then .trap s 3
  else if count = 0 then .done s (some (stop + 1))
  else if e.l0.isSome ∧ e.l1.isSome then .trap s 3
  else
    let l : LoopLevel := ⟨e.pc + 1, stop, w.getLsbD 15, e.ie⟩
    .done (s.setEas rg k (if e.l0.isNone then { e with l0 := some l, lc0 := count } else { e with l1 := some l, lc1 := count })) none

/-- The core releases the fix (R347, R349): it does nothing after an EWIN expiry, or where the core neither holds nor may hold. -/
def releaseFix (s : State) (rg : Rg) (k : CoreNo) : State :=
  let e := s.eas rg k
  let holds := s.rbit rg (F.EAS_STATUS_HOLDING k.val)
  if e.late ∨ ¬ (holds ∨ e.ien.getLsbD 0) then s
  else
    let s := s.setEas rg k { e with pendFix := false }
    if holds then s.setRf rg (F.EAS_STATUS_HOLDING k.val) 0 else s

/-- RELFIX (R347). The region may begin its next cycle once the instruction has completed (R46). -/
def runRelfix (rg : Rg) (k : CoreNo) (s : State) (_ : Word) : Did := .done (releaseFix s rg k) none

/-- WAIT (R331): fetching stops until an interrupt whose IEN bit is 1 is pending. -/
def runWait (rg : Rg) (k : CoreNo) (s : State) (_ : Word) : Did :=
  let e := s.eas rg k
  if e.pend &&& e.ien ≠ 0 then .done s none else
    .stop ((s.setEas rg k { e with haz := {}, patchOld := [] }).setRf rg (F.EAS_STATUS_STATE k.val) 2)

/-- The watchdog reloads (R359). -/
def Region.reloadDog (r : Region) (k : CoreNo) : Region := r.setF (F.EAS_WDOG_CNT_COUNT k.val) (r.f (F.EAS_WDOG_LIMIT k.val))

/-- KICK (R359). -/
def runKick (rg : Rg) (k : CoreNo) (s : State) (_ : Word) : Did := .done (s.onRgn rg (fun r => r.reloadDog k)) none

/-- BRK (R345, R414): a trap; during a debug session the core halts, with the unit where a claimed patch unit gave the word. -/
def runBrk (rg : Rg) (k : CoreNo) (s : State) (_ : Word) : Did :=
  if s.attached then
    match (fetchAt s rg k (s.eas rg k).pc).2 with
    | some u =>
      if s.rbit rg (F.EAS_PATCH_ADDR_CLAIMED k.val u) then .stop (haltCore s rg k 3 u) else .stop (haltCore s rg k 2 0)
    | none => .stop (haltCore s rg k 2 0)
  else .trap s 10

/-- BR (R331, R333). -/
def execEasBr (rg : Rg) (k : CoreNo) (s : State) : Host.Outcome State Fault Refusal := .next (easStep s rg k 0x20 (runBr rg k))

/-- CALL (R331, R333). -/
def execEasCall (rg : Rg) (k : CoreNo) (s : State) : Host.Outcome State Fault Refusal := .next (easStep s rg k 0x21 (runCall rg k))

/-- RET (R331, R333). -/
def execEasRet (rg : Rg) (k : CoreNo) (s : State) : Host.Outcome State Fault Refusal := .next (easStep s rg k 0x22 (runRet rg k))

/-- RETI (R331). -/
def execEasReti (rg : Rg) (k : CoreNo) (s : State) : Host.Outcome State Fault Refusal := .next (easStep s rg k 0x23 (runReti rg k))

/-- LOOP (R340). -/
def execEasLoop (rg : Rg) (k : CoreNo) (s : State) : Host.Outcome State Fault Refusal := .next (easStep s rg k 0x24 (runLoop rg k))

/-- RELFIX (R347). -/
def execEasRelfix (rg : Rg) (k : CoreNo) (s : State) : Host.Outcome State Fault Refusal :=
  .next (tryBegin (easStep s rg k 0x25 (runRelfix rg k)) rg)

/-- WAIT (R331). -/
def execEasWait (rg : Rg) (k : CoreNo) (s : State) : Host.Outcome State Fault Refusal := .next (easStep s rg k 0x26 (runWait rg k))

/-- KICK (R359). -/
def execEasKick (rg : Rg) (k : CoreNo) (s : State) : Host.Outcome State Fault Refusal := .next (easStep s rg k 0x27 (runKick rg k))

/-- BRK (R345). -/
def execEasBrk (rg : Rg) (k : CoreNo) (s : State) : Host.Outcome State Fault Refusal := .next (easStep s rg k 0x29 (runBrk rg k))

/-! ### Interrupts (R344) -/

/-- An enabled interrupt is taken between instructions, so not while one stalls: FIX first (R344). -/
def takeInterrupt (s : State) (rg : Rg) (k : CoreNo) : State :=
  s.onEas rg k (fun e =>
    let on := e.pend &&& e.ien
    if on = 0 ∨ ¬ e.ie ∨ e.fetched.isSome then e
    else if on.getLsbD 0 then { e.toVector 4 with pendFix := false }
    else e.toVector 6)

/-- A pending interrupt comes to a core (R344): a core in WAIT first completes it; the interrupt is taken while SR.IE is 1. A halted core takes
none, nor does a STEP (R415). It breaks a test step of the region's logic off, and waits until the state is restored (R464). -/
def serveInterrupt (s : State) (rg : Rg) (k : CoreNo) : State :=
  let e := s.eas rg k
  let st := s.rf rg (F.EAS_STATUS_STATE k.val)
  if e.pend &&& e.ien = 0 ∨ s.rbit rg (F.EAS_STATUS_HALTED k.val) ∨ ¬ s.clocked rg ∨ ¬ (st = 1 ∨ st = 2) then s
  else if s.logicStep rg then { s with bist := { s.bist with broken := setBit s.bist.broken rg.toNat true } }
  else if st = 2 then
    let s := retire (s.setRf rg (F.EAS_STATUS_STATE k.val) 1) rg k e.ie none
    if s.rbit rg (F.EAS_STATUS_HALTED k.val) then s else takeInterrupt s rg k
  else if ¬ e.dbg.stepping then takeInterrupt s rg k
  else s

/-- INTERRUPT (R344). -/
def execInterrupt (rg : Rg) (k : CoreNo) (s : State) : Host.Outcome State Fault Refusal := .next (serveInterrupt s rg k)

end Sys2Proof.Machine
end

