-- ==== Sys2Proof/Machine/Network.lean ====
section
/-! DEFINITION. The packet plane (R248–R264, R318, R319, R500): checks of flits, routing, refusals, injection, overrides, D2D
links. A header moves from input to input, and the flits of its packet follow it as far as there are credits. -/

namespace Sys2Proof

/-! ### Packets -/

/-- VC[1]: 1 for responses (R255). -/
def Packet.isResp (p : Packet) : Bool := p.vc.getLsbD 1

/-- A request that is not answered: posted writes, and the link-local and broadcast commands (R251). -/
def Packet.posted (p : Packet) : Bool := p.cmd == 3
def Packet.unanswered (p : Packet) : Bool := p.posted || p.cmd == 0x21 || p.cmd == 0x22 || p.cmd == 0x23

/-- A data flit of the packet is a poison flit (R250). -/
def Packet.poisoned (p : Packet) : Bool := decide (p.poison ≠ 0)

/-- Flits of a packet (R248). -/
def Packet.flits (p : Packet) : Nat := 1 + p.data.length

def Packet.stage (p : Packet) (b : Bool) : Packet := { p with vc := setBit p.vc 0 b }

/-- The header flit (R248). -/
def Packet.header (p : Packet) : Flit :=
  BitVec.ofNat 128 (Machine.packKey [(p.dest.toNat, 24), (p.src.toNat, 24), (p.cmd.toNat, 6), (p.tag.toNat, 10), (p.len.toNat, 6),
    (p.epoch.toNat, 8), (p.vc.toNat, 2), (p.addr.toNat, 40)])

/-- Flit `k` of a packet: the header is flit 0. -/
def Packet.flitAt (p : Packet) (k : Nat) : Flit := if k = 0 then p.header else p.data.getD (k - 1) 0

/-- Flit `k` of a packet is a poison flit. -/
def Packet.poisonAt (p : Packet) (k : Nat) : Bool := decide (1 ≤ k) && p.poison.getLsbD (k - 1)

/-- Data flit `k` of the packet becomes a poison flit (R250). -/
def Packet.poisonFlit (p : Packet) (k : Nat) : Packet :=
  { p with data := p.data.set k 0, poison := setBit p.poison k true }

end Sys2Proof

namespace Sys2Proof.Machine

/-- A packet whose header flit is `h` (R248). -/
def headerOf (h : Flit) (data : List Flit) (poison : BitVec 32) : Packet :=
  { dest := bitsAt h 0 24, src := bitsAt h 24 24, cmd := bitsAt h 48 6, tag := bitsAt h 54 10, len := bitsAt h 64 6,
    epoch := bitsAt h 70 8, vc := bitsAt h 78 2, addr := bitsAt h 80 40, data := data, poison := poison }

/-- The current epoch at a target (R19, R21): the region's for UNIT 0x00–0x16, the package's otherwise. -/
def State.epochAt (s : State) (n : Node) : BitVec 8 :=
  if nodeUnit n < 0x17 then BitVec.ofNat 8 (s.rf (nodeRgn n) F.RGN_STATUS_EPOCH) else BitVec.ofNat 8 (s.f F.FAB_ID_EPOCH)

/-- A response of a target or of an element that answers in its place (R248, R251). -/
def State.answer (s : State) (p : Packet) (cmd : BitVec 6) (cause : Nat) (data : List Flit) : Packet :=
  { dest := p.src, src := p.dest, cmd := cmd, tag := p.tag, len := BitVec.ofNat 6 data.length, epoch := s.epochAt p.dest, vc := 2,
    addr := BitVec.ofNat 40 cause, data := data, poison := 0 }

/-! ### Elements and their queues (R244) -/

def elemNo : Element → Nat
  | .router rg => rg.toNat
  | .quad q => 64 + q.toNat
  | .hub => 68

/-- The input at which an element's own packets enter: LOCAL at a router, and the switches' own. -/
def ownInput : Element → Nat
  | .router _ => 4
  | .quad _ => 19
  | .hub => 10

/-- Where FLT.CNT counts an element's events, and its number in their keys (R450). -/
def elemLoc : Element → Nat
  | .router rg => quadOf rg
  | .quad q => q.toNat
  | .hub => 4

def elemKey : Element → Word
  | .router rg => faultKey [(numOf rg, 5)]
  | .quad _ => faultKey [(16, 5)]
  | .hub => faultKey [(20, 5)]

def State.queue (s : State) (key : Nat) : List Packet := SMap.get [] s.net key
def State.setQueue (s : State) (key : Nat) (l : List Packet) : State := { s with net := SMap.set [] s.net key l }

/-- A packet arrives at input `i` of an element. -/
def State.pushNet (s : State) (e i : Nat) (p : Packet) : State :=
  let k := netKey e i p.vc.toNat
  { s.setQueue k (s.queue k ++ [p]) with order := s.order ++ [k], trail := SMap.set [] s.trail k [] }

/-- The packet at the head of a queue leaves it; `rest` stays. -/
def State.popNet (s : State) (key : Nat) (rest : List Packet) : State :=
  { s.setQueue key rest with order := s.order.erase key, trail := if rest.isEmpty then SMap.set [] s.trail key [] else s.trail }

/-- Flits that the buffer of an input holds for each VC: 8 (R255), and 64 at an Oxdon ingress (R284). -/
def bufferSize (key : Nat) : Nat := if 4 ≤ key / 4 - 32 * 68 ∧ key / 4 - 32 * 68 < 10 then 64 else 8

/-- Flits that stand at an input and belong to packets whose headers have gone on: of such a packet the next inputs hold what has room
there. `n` is at least the number of packets behind one another. -/
def State.tailAt (s : State) : Nat → Nat → Nat
  | 0, _ => 0
  | n + 1, k => ((s.trail.filter (fun x => x.2.contains k)).map (fun x =>
      let flits := (s.queue x.1).map Packet.flits
      let late := flits.getLastD 0 - (bufferSize x.1 - s.tailAt n x.1 - flits.dropLast.sum)
      min (bufferSize k) (late - 8 * x.2.idxOf k))).sum

/-- Flits of packets whose headers have gone on, at an input. -/
def State.behind (s : State) (key : Nat) : Nat := s.tailAt s.trail.length key

/-- Flits that wait at an input, or follow a header that waits there. -/
def State.waiting (s : State) (key : Nat) : Nat := s.behind key + ((s.queue key).map Packet.flits).sum

/-- There is a credit for the VC at the input (R255): fewer than 8 flits are there. -/
def State.hasRoom (s : State) (e i : Nat) (p : Packet) : Bool := decide (s.waiting (netKey e i p.vc.toNat) < 8)

/-- The packet at the head of queue `key` of `s` goes on to input `i` of element `e`; `t` is the state it has left. The inputs behind keep
the flits for which there is no room yet. -/
def State.goOn (s : State) (key : Nat) (t : State) (e i : Nat) (p : Packet) : State :=
  let path := if (s.queue key).length = 1 then SMap.get [] s.trail key else []
  let t := t.pushNet e i p
  { t with trail := SMap.set [] t.trail (netKey e i p.vc.toNat) ((key :: path).take 4) }

/-- The element at which a request is served, and its answer enters the plane (R244). -/
def targetElement (p : Packet) : Element :=
  if 0x38 ≤ nodeUnit p.dest ∧ nodeUnit p.dest ≤ 0x3B then .hub else .router (nodeRgn p.dest)

/-- Requests that a target at the element has taken and not answered yet. -/
def State.taken (s : State) (el : Element) : Nat :=
  (s.arrived.filter (fun p => !p.isResp && !p.unanswered && decide (targetElement p = el))).length

/-- A target takes a request off its VC only where there is room for the response (R260). -/
def State.targetRoom (s : State) (el : Element) (p : Packet) : Bool :=
  p.isResp || p.unanswered ||
    decide (s.waiting (netKey (elemNo el) (ownInput el) 2) + s.taken el < 8)

/-! ### Refusals (R257, R261–R263, R500) -/

/-- A request answered, or a response discarded, by an element is counted in the element's block. -/
def countRefused (s : State) : Element → State
  | .router rg => s.bumpR rg F.NOC_REFUSE_ABSORBED 1
  | .quad q => s.bumpR (quadHome q.toNat) F.NOC_QSW_REFUSE_ABSORBED 1
  | .hub => s.bump F.HUB_NOC_ABSORBED 1

/-- A posted write refused or dropped: R500 names a block for the routers alone, and none for the switches. -/
def countPosted (s : State) : Element → State
  | .router rg => s.bumpR rg F.NOC_RESP_TO_POSTED_DROP 1
  | _ => s

/-- A posted write that its target does not perform (R500). -/
def countPostedAt (s : State) : Element → State
  | .hub => s.bump F.HUB_NOC_POSTED_DROP 1
  | el => countPosted s el

/-- An element refuses a packet with a cause: a request is answered, a response or a posted write discarded. -/
def refuse (s : State) (el : Element) (p : Packet) (cause : Nat) : State :=
  if p.isResp then countRefused s el
  else if p.unanswered then countPosted s el
  else countRefused (s.pushNet (elemNo el) (ownInput el) (s.answer p 0x12 cause [])) el

/-! ### Checks of flits (R249, R250) -/

/-- The codeword positions of the 130 information bits of a flit (R249). -/
def flitPositions : List Nat := dataPositions 138

/-- What the check finds of an upset of a flit's 139 bits (130 information bits, then CHK[8:0]): the outcome, and what is wrong
with the header after correction. -/
def flitCheck (upset : BitVec 139) : Ecc × BitVec 130 :=
  let info : BitVec 130 := bitsAt upset 0 130
  let syn := hamming info flitPositions 0 ^^^ (bitsAt upset 130 8 : BitVec 8).toNat
  let e := eccOf (parityOf upset) syn 138
  (e, match e with | .single => fixData info syn flitPositions | _ => info)

/-- The wire of the packet lane at which the check of an upset points (R245, R246): wire i carries bit i of the 130 information bits,
wire 130 + i is CHK[i]. -/
def flitWire (upset : BitVec 139) : Nat :=
  let info : BitVec 130 := bitsAt upset 0 130
  let fixed := info ^^^ (flitCheck upset).2
  match (List.range 130).find? (fun i => fixed.getLsbD i) with
  | some i => i
  | none =>
    let syn := hamming info flitPositions 0 ^^^ (bitsAt upset 130 8 : BitVec 8).toNat
    if syn = 0 then 138 else 130 + Nat.log2 syn

/-- The number of the D2D receiver at an element's input, where there is one (R246). -/
def receiverOf : Element → Option Nat → Option Nat
  | .quad q, some l => some (3 * q.toNat + l)
  | .hub, some q => some (12 + q)
  | _, _ => none

/-- A D2D receiver counts a correction for its wire; the counts of the last ms stand (R246). -/
def noteWire (s : State) (rcv : Option Nat) (wire : Nat) : State :=
  match rcv with
  | none => s
  | some n =>
    let recent (l : List Nat) : List Nat := l.filter (fun t => decide (s.now ≤ t + 1000000))
    { s with wires := SMap.update [] s.wires (512 * n + wire) (fun l => recent l ++ [s.now]) }

/-- Corrections of the last ms that pointed at a wire. -/
def State.wireCount (s : State) (rcv wire : Nat) : Nat :=
  ((SMap.get [] s.wires (512 * rcv + wire)).filter (fun t => decide (s.now ≤ t + 1000000))).length

/-- A flit or bundle is corrected at an element; a D2D receiver counts for its link too (R246, R249). -/
def noteCorrected (s : State) (el : Element) (d2d : Option Nat) : State :=
  let s := s.noteFault 5 (elemLoc el) (match el, d2d with
    | .quad _, some l => faultKey [(17 + l, 5)]
    | .hub, some q => faultKey [(21 + q, 5)]
    | _, _ => elemKey el)
  match el, d2d with
  | .router rg, _ => s.bumpR rg F.NOC_ERR_CE 1
  | .quad q, some l => (s.bumpR (quadHome q.toNat) (F.NOC_D2D_ERR_CE l) 1).bumpR (quadHome q.toNat) F.NOC_ERR_CE 1
  | .quad q, none => s.bumpR (quadHome q.toNat) F.NOC_ERR_CE 1
  | .hub, _ => s

/-- A flit or a bundle is poisoned at an element (R250, R268). -/
def notePoisoned (s : State) (el : Element) (d2d : Option Nat) : State :=
  let s := s.noteFault 6 (elemLoc el) (match el, d2d with
    | .quad _, some l => faultKey [(17 + l, 5)]
    | .hub, some q => faultKey [(21 + q, 5)]
    | _, _ => elemKey el)
  match el, d2d with
  | .router rg, _ => s.bumpR rg F.NOC_ERR_UE 1
  | .quad q, some l => (s.bumpR (quadHome q.toNat) (F.NOC_D2D_ERR_UE l) 1).bumpR (quadHome q.toNat) F.NOC_ERR_UE 1
  | .quad q, none => s.bumpR (quadHome q.toNat) F.NOC_ERR_UE 1
  | .hub, _ => s

/-- A packet discarded for its header (R250). -/
def noteHeaderDrop (s : State) (el : Element) : State :=
  let s := s.noteFault 7 (elemLoc el) (elemKey el)
  match el with
  | .router rg => s.bumpR rg F.NOC_DROP_HDR_DROP 1
  | .quad q => s.bumpR (quadHome q.toNat) F.NOC_QSW_HDR_DROP 1
  | .hub => s

/-- Data flit `k` of a packet is checked, with the bits in error (R249, R250). A poison flit is forwarded unchanged. -/
def checkFlit (s : State) (el : Element) (d2d : Option Nat) (p : Packet) (k : Nat) (upset : BitVec 139) : State × Packet :=
  if p.data.length ≤ k ∨ p.poison.getLsbD k then (s, p)
  else
    let (e, wrong) := flitCheck upset
    let p' : Packet := { p with data := p.data.set k (p.data.getD k 0 ^^^ bitsAt wrong 0 128) }
    match e with
    | .clean => (s, p')
    | .single => (noteWire (noteCorrected s el d2d) (receiverOf el d2d) (flitWire upset), p')
    | .uncorrectable => (notePoisoned s el d2d, p.poisonFlit k)

/-- Data flits of a packet with the bits in error that this hop finds in them. -/
def checkFlits (el : Element) (d2d : Option Nat) : List (BitVec 5 × BitVec 139) → State → Packet → State × Packet
  | [], s, p => (s, p)
  | (k, upset) :: t, s, p =>
    let (s, p) := checkFlit s el d2d p k.toNat upset
    checkFlits el d2d t s p

/-- The packet at the head of an input is checked flit by flit: none where its header is uncorrectable, and it is discarded. `upset`
is what is wrong with the header flit, `data` with data flits by number. -/
def checkPacket (s : State) (el : Element) (d2d : Option Nat) (p : Packet) (upset : BitVec 139) (data : List (BitVec 5 × BitVec 139)) :
    State × Option Packet :=
  let (e, wrong) := flitCheck upset
  let h := p.header ^^^ (bitsAt wrong 0 128 : BitVec 128)
  let bad := e == .uncorrectable || wrong.getLsbD 128
  if bad then (noteHeaderDrop s el, none)
  else
    let s := if e == .single then noteWire (noteCorrected s el d2d) (receiverOf el d2d) (flitWire upset) else s
    let (s, p) := checkFlits el d2d data s (headerOf h p.data p.poison)
    (s, some p)

/-! ### D2D links (R245–R247, R257) -/

/-- The quadrant ring runs Q0 → Q1 → Q3 → Q2 → Q0 (R244). -/
def cwOf (q : Nat) : Nat := match q with | 0 => 1 | 1 => 3 | 3 => 2 | _ => 0
def ccwOf (q : Nat) : Nat := match q with | 0 => 2 | 1 => 0 | 3 => 1 | _ => 3

/-- The other end of a ring link: 1 is the clockwise link, 2 the anticlockwise one; the hub link has none (R271). -/
def partner (q l : Nat) : Option (Nat × Nat) :=
  match l with
  | 1 => some (cwOf q, 2)
  | 2 => some (ccwOf q, 1)
  | _ => none

/-- STATE of link `l` of quadrant `q`: 0 DOWN, 1 TRAINING, 2 UP, 3 PAUSED (R271). -/
def State.d2d (s : State) (q l : Nat) : Nat := s.rf (quadHome q) (F.NOC_D2D_STATUS_STATE l)

/-- The state of a link at both its ends. -/
def setD2d (s : State) (q l v : Nat) : State :=
  let s := s.setRf (quadHome q) (F.NOC_D2D_STATUS_STATE l) v
  match partner q l with
  | some (q', l') => s.setRf (quadHome q') (F.NOC_D2D_STATUS_STATE l') v
  | none => s

/-- A link goes DOWN in both directions (R247). -/
def d2dDown (s : State) (q l : Nat) : State :=
  let s := (setD2d s q l 0).setRf (quadHome q) (F.NOC_D2D_STATUS_DOWN_EVT l) 1
  let s := match partner q l with
    | some (q', l') => s.setRf (quadHome q') (F.NOC_D2D_STATUS_DOWN_EVT l') 1
    | none => s
  s.ibi 0x09 (4 * q + l) 0

/-- The effective state of a quadrant (R448): 0 RUN, 1 HOLD, 2 DOZE, 3 NAP, 4 DORMANT, 5 FAULT. -/
def State.quadState (s : State) (q : Nat) : Nat := s.f (F.PWR_QSTAT_STATE q)

/-- The quadrant is below HOLD (R257). -/
def State.quadAsleep (s : State) (q : Nat) : Bool := decide (2 ≤ s.quadState q) && decide (s.quadState q ≤ 4)

/-- The quadrant is isolated by a VQ fault (R257). -/
def State.quadFault (s : State) (q : Nat) : Bool := decide (s.quadState q = 5)

/-! ### Routing at a region router (R256, R258, R263) -/

/-- An override entry applies to a destination (R256); OUT 7 acts as not VALID (R258). -/
def overrideHit (r : Region) (d : Node) (i : Nat) : Bool :=
  let w0 := r.reg (R.NOC_OVR (2 * i))
  let w1 := r.reg (R.NOC_OVR (2 * i + 1))
  let mask : BitVec 24 := w1.truncate 24
  w1.getLsbD 28 && decide ((bitsAt w1 24 3 : BitVec 3) ≠ 7) && decide (d &&& mask = (w0.truncate 24) &&& mask)

/-- The lowest override entry that applies, entry `skip` left out: OUT and STAGE_RESET. -/
def overrideOf (r : Region) (d : Node) (skip : Option Nat) : Option (Nat × Bool) :=
  ((List.range 16).find? (fun i => overrideHit r d i && !decide (skip = some i))).map (fun i =>
    let w1 := r.reg (R.NOC_OVR (2 * i + 1))
    ((bitsAt w1 24 3 : BitVec 3).toNat, w1.getLsbD 27))

/-- Dimension-ordered routing (R256): the output, numbered as in R97. -/
def routeOut (s : State) (rg : Rg) (d : Node) : Nat :=
  let own := numOf rg
  let dst := numOf (nodeRgn d)
  let u := nodeUnit d
  let step (t p : Nat) (plus : Nat) : Nat := if (t + 4 - p) % 4 = 1 ∨ (t + 4 - p) % 4 = 2 then plus else plus + 1
  if nodeCoord d ≠ s.f F.FAB_ID_COORD then 5
  else if 0x38 ≤ u ∧ u ≤ 0x3B then 5
  else if quadOf (nodeRgn d) ≠ quadOf rg then 5
  else if dst % 4 ≠ own % 4 then step (dst % 4) (own % 4) 0
  else if dst / 4 ≠ own / 4 then step (dst / 4) (own / 4) 2
  else 4

/-- The neighbour at torus output `o`, and whether that link is a dateline (R244, R255). -/
def torusNext (rg : Rg) (o : Nat) : Rg × Bool :=
  let x := numOf rg % 4
  let y := numOf rg / 4
  let at_ (x y : Nat) : Rg := BitVec.ofNat 6 (16 * quadOf rg + 4 * y + x)
  match o with
  | 0 => (at_ ((x + 1) % 4) y, x == 3)
  | 1 => (at_ ((x + 3) % 4) y, x == 0)
  | 2 => (at_ x ((y + 1) % 4), y == 3)
  | _ => (at_ x ((y + 3) % 4), y == 0)

/-- The input at which torus output `o` arrives: the opposite one (R265). -/
def oppositeIn (o : Nat) : Nat := match o with | 0 => 1 | 1 => 0 | 2 => 3 | _ => 2

/-- The absorber stands in place of the local port (R261). -/
def Region.absorbing (r : Region) : Bool := r.bit F.RGN_CTRL_ISOLATE || decide (r.f F.RGN_STATUS_CFG ≠ 1)

/-- What an element would answer to a packet that it refuses has a credit at the element's own input (R255); what is discarded needs none. -/
def State.answerRoom (s : State) (el : Element) (p : Packet) : Bool :=
  p.isResp || p.unanswered || s.hasRoom (elemNo el) (ownInput el) (s.answer p 0x12 0 [])

/-- The cause of what an absorber or an isolated output refuses (R261, R263): ISOLATED, but in a test mode every request is answered
POWERING_DOWN (R420). -/
def State.absorbCause (s : State) : Nat := if s.dbg.testing.isSome then 3 else 2

/-- The head packet `p` of a queue of `s` leaves it and is refused, once there is room for the answer. -/
def refuseFrom (s : State) (take : State → State) (el : Element) (p : Packet) (cause : Nat) : State :=
  if s.answerRoom el p then refuse (take s) el p cause else s

/-- A packet reaches the local port of its region (R261, R262, R420). -/
def deliverLocal (s : State) (rg : Rg) (p : Packet) : State :=
  let r := s.rgn rg
  if s.dbg.testing.isSome ∧ ¬ p.isResp then refuse s (.router rg) p 3
  else if r.absorbing ∧ nodeUnit p.dest < 0x17 then refuse s (.router rg) p 2
  else if r.bit F.NOC_STATUS_REFUSING ∧ ¬ p.isResp then refuse s (.router rg) p 3
  else { s with arrived := s.arrived ++ [p] }

/-- The packet leaves a router by output `o`, from input `inp`. -/
def routerMove (s : State) (rg : Rg) (inp o : Nat) (reset : Bool) (p : Packet) (key : Nat) (rest : List Packet) : State :=
  let take (s : State) : State := s.popNet key rest
  if o = 6 ∨ (o ≠ 4 ∧ (s.rf rg F.NOC_ISO_OUT).testBit o) then refuseFrom s take (.router rg) p s.absorbCause
  else if o = 4 then (if s.targetRoom (.router rg) p then deliverLocal (take s) rg p else s)
  else if o = 5 then
    let p := if reset then p.stage false else p
    if s.hasRoom (64 + quadOf rg) (numOf rg) p then s.goOn key (take s) (64 + quadOf rg) (numOf rg) p else s
  else
    let (n, dateline) := torusNext rg o
    let same := decide (inp < 4) && decide (inp / 2 = o / 2)
    let b := !reset && ((same && p.vc.getLsbD 0) || dateline)
    let p := p.stage b
    if s.hasRoom n.toNat (oppositeIn o) p then s.goOn key (take s) n.toNat (oppositeIn o) p else s

/-- A router sends the packet at the head of an input on, where it can (R256, R258, R263): with the entry of the override table that
applies, or, where the check of that entry fails, without it. -/
def routerHead (s : State) (rg : Rg) (inp : Nat) (p : Packet) (key : Nat) (rest : List Packet) (bad : Bool) : State :=
  let r := s.rgn rg
  let hit := (List.range 16).find? (overrideHit r p.dest)
  let (out, reset) := (overrideOf r p.dest (if bad then hit else none)).getD (routeOut s rg p.dest, false)
  routerMove s rg inp out reset p key rest

/-- HEADER_FLIT_ROUTE (R249, R250, R256, R258, R263): the packet at the head of an input of a region router. `table_` is what the
check of the override table finds. -/
def execHeaderFlitRoute (rg : Rg) (inp : BitVec 3) (vc : BitVec 2) (upset : BitVec 139) (data : List (BitVec 5 × BitVec 139))
    (table_ : Ecc) (s : State) : Host.Outcome State Fault Refusal :=
  let key := netKey rg.toNat inp.toNat vc.toNat
  .next (
    match s.queue key with
    | [] => s
    | p :: rest =>
      if s.rbit rg F.NOC_STATUS_DRAINING ∨ s.behind key ≠ 0 then s
      else
        let (s', q) := checkPacket s (.router rg) none p upset data
        match q with
        | none => s'.popNet key rest
        | some p' =>
          let s' := match (List.range 16).find? (overrideHit (s.rgn rg) p'.dest) with
            | some i => tableEcc s' rg table_ overrideTable i
            | none => s'
          let s'' := routerHead s' rg inp.toNat p' key rest (table_ == .uncorrectable)
          if s''.queue key = s.queue key then s else s'')

/-! ### Routing at the switches (R257) -/

/-- A packet crosses a D2D link of quadrant `q` to an input of another element, if the link is UP; a DOWN link refuses. -/
def crossLink (s : State) (key : Nat) (el : Element) (q l : Nat) (e i : Nat) (p : Packet) (take : State → State) : State :=
  if s.d2d q l = 0 then refuseFrom s take el p 2
  else if s.d2d q l ≠ 2 ∨ ¬ s.hasRoom e i p then s
  else s.goOn key (take s) e i p

/-- The destination quadrant of a packet is stopped (R257): the cause, if it is. -/
def quadStopped (s : State) (q : Nat) : Option Nat :=
  if s.quadFault q then some 2 else if s.quadAsleep q then some 3 else none

/-- The gate step of an entry of the quadrant, or of the package, is under way (R262, R436): no response enters any more. -/
def State.gateStep (s : State) (q : Nat) : Bool :=
  let gate (k : Nat) : Bool := match SMap.get .none s.pwr.drains k with | .gate _ => true | _ => false
  gate q || gate 4

/-- A quadrant switch passes a packet on (R257, R262). -/
def quadMove (s : State) (key q inp : Nat) (p : Packet) (take : State → State) : State :=
  let el : Element := .quad (BitVec.ofNat 2 q)
  let u := nodeUnit p.dest
  let dq := quadOf (nodeRgn p.dest)
  let ring (l : Nat) : State :=
    let n := if l = 1 then cwOf q else ccwOf q
    let goes := decide (inp = 17 ∨ inp = 18) && p.vc.getLsbD 0
    let p := p.stage (goes || (l = 1 && q = 2))
    crossLink s key el q l (64 + n) (if l = 1 then 18 else 17) p take
  if s.refusing.getLsbD q ∧ ¬ p.isResp then refuseFrom s take el p 3
  else if s.gateStep q ∧ p.isResp ∧ nodeCoord p.dest = s.f F.FAB_ID_COORD ∧ u < 0x17 ∧ dq = q then countRefused (take s) el
  else if nodeCoord p.dest ≠ s.f F.FAB_ID_COORD ∨ (0x38 ≤ u ∧ u ≤ 0x3B) then crossLink s key el q 0 68 q p take
  else
    match quadStopped s dq with
    | some c => refuseFrom s take el p c
    | none =>
      if dq = q then
        let g := numOf (nodeRgn p.dest)
        if s.hasRoom (16 * q + g) 5 p then s.goOn key (take s) (16 * q + g) 5 p else s
      else if dq = cwOf q then ring 1
      else if dq = ccwOf q then ring 2
      else if s.d2d q 1 = 0 ∨ s.quadFault (cwOf q) ∨ s.quadAsleep (cwOf q) then crossLink s key el q 0 68 q (p.stage false) take
      else ring 1

/-! ### Routes between packages (R310, R317–R319) -/

/-- The digit of a coordinate in dimension d: X, Y, Z (R323). -/
def coordAt (c d : Nat) : Nat := c / 16 ^ (2 - d) % 16

/-- The size of dimension d (R323). -/
def State.fabSize (s : State) (d : Nat) : Nat := coordAt (s.f F.FAB_SIZE_SIZE) d + 1

/-- STATE of Oxdon port `p`: 0 DOWN, 1 DETECT, 2 TRAIN, 3 LOCK, 4 CALIB, 5 UP, 6 QUIET, 7 OFF (R306). -/
def State.link (s : State) (p : Nat) : Nat := s.f (F.LNK_STATUS_STATE p)

/-- Role of a port (R309): 0 NONE, 1 RING, 2 LEAF, 3 STRAY. -/
def State.role (s : State) (p : Nat) : Nat := s.f (F.FAB_NBR_ROLE p)

/-- The coordinate of the peer of a port, where it has one: a leaf has the one that was assigned to it, or none (R315). -/
def State.peerCoord (s : State) (p : Nat) : Option Nat :=
  if s.role p = 2 then (if s.bit (F.FAB_NBR_LEAF_VALID p) then some (s.f (F.FAB_NBR_LEAF_COORD p)) else none)
  else if s.bit (F.FAB_NBR_PEER_CV p) then some (s.f (F.FAB_NBR_PEER_COORD p))
  else none

/-- The links that a path of `n` hops from position `k` uses. -/
def pathLinks (k n size : Nat) (plus : Bool) : List Nat :=
  (List.range n).map (fun i => if plus then (k + i) % size else (k + 2 * size - 1 - i) % size)

/-- Where the hub switch sends a packet for another package or a leaf: the port and whether it is a detour; none is NO_PATH. -/
def hubRoute (s : State) (dest : Nat) : Option (Nat × Bool) :=
  let ports := List.range 6
  match ports.find? (fun p => (s.role p == 3 || s.role p == 2) && decide (s.peerCoord p = some dest)) with
  | some p => some (p, false)
  | none =>
    if s.f F.FAB_STATUS_SWEEP ≠ 1 then
      (ports.find? (fun p => s.role p ≠ 0 && decide (s.peerCoord p = some dest))).map (fun p => (p, false))
    else
      let c := s.f F.FAB_ID_COORD
      let leafDims := (List.range 3).filter (fun d => decide (s.fabSize d ≤ coordAt dest d))
      let attach (d : Nat) : Option Nat :=
        let v := coordAt dest d
        let z := s.fabSize d
        if v < z then some v
        else if v = z ∧ z ≤ 15 then some (z - 1)
        else if v = 15 ∧ z ≤ 14 then some 0
        else none
      if 1 < leafDims.length ∨ (List.range 3).any (fun d => (attach d).isNone) then none
      else
        match (List.range 3).find? (fun d => decide (attach d ≠ some (coordAt c d))) with
        | none => none
        | some d =>
          let z := s.fabSize d
          let k := coordAt c d
          let t := (attach d).getD 0
          let up := (t + z - k) % z
          let down := (k + z - t) % z
          let plus := decide (up ≤ down)
          let clear (pl : Bool) : Bool :=
            (pathLinks k (if pl then up else down) z pl).all (fun i => !(s.f (F.FAB_RING_DOWN_DOWN d)).testBit i)
          let port (pl : Bool) : Nat := 2 * d + (if pl then 0 else 1)
          if clear plus then some (port plus, false)
          else if clear (!plus) then some (port (!plus), true)
          else none

/-- A port has the limits of a STRAY port (R310): it is one, or the sweep has not settled (R313). -/
def State.strayPort (s : State) (p : Nat) : Bool := s.role p == 3 || s.f F.FAB_STATUS_SWEEP != 1

/-- The stage on which a packet leaves the hub switch for a port (R319). -/
def hubStage (s : State) (port : Nat) (p : Packet) : Bool :=
  if s.role port ≠ 1 ∨ s.strayPort port then false
  else
    let d := port / 2
    let z := s.fabSize d
    let k := coordAt (s.f F.FAB_ID_COORD) d
    let v := coordAt (nodeCoord p.src) d
    let e := if v < z then v else if v = z ∧ z ≤ 15 then z - 1 else 0
    if port % 2 = 0 then decide (k = z - 1) || decide (k < e) else decide (k = 0) || decide (e < k)

def State.port (s : State) (p : Nat) : Port := SMap.get {} s.ports p
def State.setPort (s : State) (p : Nat) (x : Port) : State := { s with ports := SMap.set {} s.ports p x }
def State.onPort (s : State) (p : Nat) (f : Port → Port) : State := s.setPort p (f (s.port p))

/-- A packet joins the transmit queue of a port on its VC. -/
def sendOn (s : State) (port : Nat) (p : Packet) (own : Bool) : State :=
  s.onPort port (fun x =>
    let q := SMap.get [] x.txPkt p.vc.toNat
    { x with txPkt := SMap.set [] x.txPkt p.vc.toNat (q ++ [{ packet := p, own := own }]) })

/-- A response that the hub switch makes for a request of a port's ingress leaves on that port, as R319 stages it. -/
def replyOn (s : State) (port : Nat) (p : Packet) : State := sendOn s port (p.stage (hubStage s port p)) true

/-- Locally made responses that wait at a port (R293). -/
def ownResponses (x : Port) : Nat := (x.txPkt.flatMap (fun e => e.2.filter (fun t => t.own))).length

/-- All 32 places for locally made responses of a port's ingress are in use (R293). -/
def noPlace (s : State) (port : Nat) : Bool := decide (32 ≤ ownResponses (s.port port))

/-- Room in the transmit queue of a port: fewer than 8 flits wait on the VC. -/
def portRoom (s : State) (port : Nat) (p : Packet) : Bool :=
  decide (((SMap.get [] (s.port port).txPkt p.vc.toNat).map (fun t => t.packet.flits - t.gone)).sum < 8)

/-- The hub switch passes a packet on (R257, R310, R318, R319, R420). -/
def hubMove (s : State) (key : Nat) (p : Packet) (take : State → State) : State :=
  let u := nodeUnit p.dest
  if nodeCoord p.dest = s.f F.FAB_ID_COORD then
    if s.dbg.testing.isSome ∧ ¬ p.isResp then refuseFrom s take .hub p 3
    else if 0x38 ≤ u ∧ u ≤ 0x3B then (if s.targetRoom .hub p then { take s with arrived := s.arrived ++ [p] } else s)
    else
      let q := quadOf (nodeRgn p.dest)
      match quadStopped s q with
      | some c => refuseFrom s take .hub p c
      | none => crossLink s key .hub q 0 (64 + q) 16 (p.stage false) take
  else
    match hubRoute s (nodeCoord p.dest) with
    | none => if s.answerRoom .hub p then (refuse (take s) .hub p 2).bump F.FAB_ROUTE_STAT_NO_PATH 1 else s
    | some (port, detour) =>
      let p := p.stage (hubStage s port p)
      if ¬ portRoom s port p then s
      else
        let s := sendOn (take s) port p false
        if detour then s.bump F.FAB_ROUTE_STAT_DETOURS 1 else s

/-- Flits leave the receive buffer of an Oxdon port (R284). -/
def freeFlits (s : State) (inp : Nat) (p : Packet) : State :=
  if inp < 4 ∨ 9 < inp then s
  else s.onPort (inp - 4) (fun x =>
    { x with rxVc := SMap.set 0 x.rxVc p.vc.toNat (SMap.get 0 x.rxVc p.vc.toNat + BitVec.ofNat 16 p.flits), ackNew := true })

/-- The headers that stay in the order of arrival when the packets that `lost` names leave their queues. -/
def State.orderWithout (s : State) (lost : Nat → Packet → Bool) : List Nat :=
  (s.order.foldl (fun (acc : List Nat × SMap (List Packet)) k =>
    match SMap.get [] acc.2 k with
    | [] => acc
    | p :: t => (if lost k p then acc.1 else acc.1 ++ [k], SMap.set [] acc.2 k t)) ([], s.net)).1

/-- The packets that `lost` names, by the key of their queue, are taken out of the packet plane (R262); their places at an Oxdon ingress are
free. -/
def State.dropQueued (s : State) (lost : Nat → Packet → Bool) : State :=
  let gone (k : Nat) (l : List Packet) : Bool := match l.getLast? with | some p => lost k p | none => false
  let t := { s with net := s.net.foldl (fun m e => SMap.set [] m e.1 (e.2.filter (fun p => !lost e.1 p))) [],
                    order := s.orderWithout lost,
                    trail := s.trail.foldl (fun m e => SMap.set [] m e.1 (if gone e.1 (s.queue e.1) then [] else e.2)) [] }
  foldS s.net t (fun t e =>
    if e.1 / 128 = 68 then foldS (e.2.filter (lost e.1)) t (fun t p => freeFlits t (e.1 / 4 % 32) p) else t)

/-- A switch as an element of the plane. -/
def switchElement : Switch → Element
  | .quad q => .quad q
  | .hub => .hub

/-- The D2D link by which input `i` of an element is reached. -/
def d2dInput (el : Element) (i : Nat) : Option Nat :=
  match el with
  | .router _ => none
  | .quad _ => if 16 ≤ i ∧ i ≤ 18 then some (i - 16) else none
  | .hub => if i < 4 then some i else none

/-- The packet at the head of a switch's input leaves it. -/
def takeHead (s : State) (el : Switch) (i key : Nat) (rest : List Packet) (p : Packet) : State :=
  let s := s.popNet key rest
  match el with | .hub => freeFlits s i p | .quad _ => s

/-- A switch sends the packet at the head of an input on, where it can (R257). -/
def switchHead (s : State) (el : Switch) (i : Nat) (p : Packet) (key : Nat) (rest : List Packet) : State :=
  let take (s : State) : State := takeHead s el i key rest p
  match el with
  | .quad q => quadMove s key q.toNat i p take
  | .hub => hubMove s key p take

/-- A request of an Oxdon ingress is to be refused, and waits for a place for its response (R293). -/
def refusalDue (s : State) (el : Switch) (i : Nat) (p : Packet) : Bool :=
  match el with
  | .hub => decide (4 ≤ i ∧ i < 10) && (s.port (i - 4)).due.any (fun x => decide (x.1 = p))
  | .quad _ => false

/-- SWITCH_ROUTE (R257): the packet at the head of an input of a quadrant switch or of the hub switch. -/
def execSwitchRoute (el : Switch) (inp : BitVec 5) (vc : BitVec 2) (upset : BitVec 139) (data : List (BitVec 5 × BitVec 139)) (s : State) :
    Host.Outcome State Fault Refusal :=
  let i := inp.toNat
  let key := netKey (elemNo (switchElement el)) i vc.toNat
  .next (
    match s.queue key with
    | [] => s
    | p :: rest =>
      if refusalDue s el i p ∨ s.behind key ≠ 0 then s else
      let (s', q) := checkPacket s (switchElement el) (d2dInput (switchElement el) i) p upset data
      match q with
      | none => takeHead s' el i key rest p
      | some p' =>
        let s'' := switchHead s' el i p' key rest
        if s''.queue key = s.queue key then s else s'')

/-! ### Injection and its limits (R254, R260) -/

/-- The element and the input at which a requester's packets enter. -/
def injectAt (n : Node) : Element × Nat := if nodeUnit n < 0x17 then (.router (nodeRgn n), 4) else (.hub, 10)

/-- The key of a request's tag (R254). -/
def tagKey (n : Node) (t : Nat) : Nat := 128 * (n.toNat % 4096) + t % 128

/-- The easel core that a node address names, where it does (R17). -/
def coreOf (n : Node) : Option CoreNo := match nodeUnit n with | 0x10 => some 0 | 0x11 => some 1 | 0x12 => some 2 | _ => none

/-- A request is one that a packet engine offers (R352). -/
def offered (s : State) (p : Packet) : Bool :=
  match coreOf p.src with
  | none => true
  | some k =>
    match SMap.get none (s.eas (nodeRgn p.src) k).pkts (p.tag.toNat % 128) with
    | some q => !q.sent && decide (q.packet = ({ p with vc := 0 } : Packet))
    | none => false

/-- The packet engine learns that its request has entered the plane; a posted write then ends (R353). -/
def markSent (s : State) (p : Packet) : State :=
  match coreOf p.src with
  | none => s
  | some k =>
    let rg := nodeRgn p.src
    let t := p.tag.toNat % 128
    if p.posted then endPkt s rg k t 0 false []
    else s.onEas rg k (fun e =>
      { e with pkts := SMap.update none e.pkts t (fun x => x.map (fun q => { q with sent := true })) })

/-- REQUEST_INJECT (R260): a request of this package holds a free tag and a credit and enters the packet plane. A core's request holds its tag until
it ends, be it one that nothing answers (R353). -/
def execRequestInject (p : Packet) (waitNs : Word) (s : State) : Host.Outcome State Fault Refusal :=
  let p := { p with vc := 0 }
  let (el, i) := injectAt p.src
  let key := tagKey p.src p.tag.toNat
  let untagged : Bool := p.posted || (p.unanswered && (coreOf p.src).isNone)
  .next (
    if nodeCoord p.src ≠ s.f F.FAB_ID_COORD ∨ ¬ offered s p ∨ ¬ s.hasRoom (elemNo el) i p ∨
        (¬ untagged ∧ SMap.get false s.tags key) then s
    else
      let s := s.pushNet (elemNo el) i p
      let s := if untagged then s else { s with tags := SMap.set false s.tags key true }
      let s := markSent s p
      match el with
      | .router rg => s.bumpR rg F.NOC_INJ_WAIT_NS waitNs.toNat
      | _ => s)

/-- The request at the head of a VC of an Oxdon ingress is refused (R262, R293). -/
def refuseHead (s : State) (port : Nat) (p : Packet) (rest : List Packet) (cause : Nat) : State :=
  let s := freeFlits (s.popNet (netKey 68 (4 + port) p.vc.toNat) rest) (4 + port) p
  let s := s.onPort port (fun x => { x with due := x.due.filter (fun y => decide (y.1 ≠ p)) })
  let s := replyOn s port (s.answer p 0x12 cause [])
  if cause = 1 then s.bump (F.LNK_PKT_INJ_BUSY port) 1 else countRefused s .hub

/-- Requests at the heads of an ingress that are to be refused leave as places for their responses free (R293). -/
def settleDue (s : State) (port : Nat) : State :=
  foldS (List.range 4) s (fun s v =>
    match s.queue (netKey 68 (4 + port) v) with
    | [] => s
    | p :: rest =>
      match (s.port port).due.find? (fun x => decide (x.1 = p)) with
      | some (_, c) => if noPlace s port then s else refuseHead s port p rest c.toNat
      | none => s)

/-- INJECTION_TIMEOUT (R260, R293, R500): a waiting request is withdrawn. -/
def execInjectionTimeout (p : Packet) (at_ : InjPoint) (s : State) : Host.Outcome State Fault Refusal :=
  .next (
    match at_ with
    | .region rg =>
      if nodeRgn p.src ≠ rg ∨ ¬ s.rbit rg F.NOC_CTRL_INJ_TIMEOUT ∨ ¬ offered s p then s
      else
        let s := s.bumpR rg (if p.posted then F.NOC_RESP_TO_POSTED_DROP else F.NOC_REFUSE_INJ_BUSY) 1
        match coreOf p.src with
        | some k => endPkt s rg k (p.tag.toNat % 128) 1 false []
        | none => s
    | .hub =>
      let waits := decide (nodeCoord p.src = s.f F.FAB_ID_COORD) && decide (0x17 ≤ nodeUnit p.src) && !p.isResp &&
        (!s.hasRoom 68 10 p || (!p.unanswered && SMap.get false s.tags (tagKey p.src p.tag.toNat)))
      if waits then s.bump (if p.posted then F.HUB_NOC_POSTED_DROP else F.HUB_NOC_INJ_INJ_BUSY) 1 else s
    | .oxdon port =>
      match s.queue (netKey 68 (4 + port.val) p.vc.toNat) with
      | [] => s
      | h :: rest =>
        if h ≠ p ∨ p.isResp ∨ ¬ s.bit (F.LNK_CFG_INJ_TIMEOUT port.val) then s
        else if p.posted then
          (freeFlits (s.popNet (netKey 68 (4 + port.val) p.vc.toNat) rest) (4 + port.val) p).bump F.HUB_NOC_POSTED_DROP 1
        else if refusalDue s .hub (4 + port.val) p then s
        else if noPlace s port.val then s.onPort port.val (fun x => { x with due := x.due ++ [(p, 1)] })
        else refuseHead s port.val p rest 1)

/-- RESPONSE_TIMEOUT (R260, R353): no response within RESP_TIMEOUT; the request ends and its tag is free. -/
def execResponseTimeout (node : BitVec 12) (tag : BitVec 7) (s : State) : Host.Outcome State Fault Refusal :=
  let n : Node := node.zeroExtend 24
  let key := tagKey n tag.toNat
  .next (
    if ¬ SMap.get false s.tags key then s
    else if nodeUnit n < 0x17 then
      let rg := nodeRgn n
      if ¬ s.rbit rg F.NOC_CTRL_RESP_TIMEOUT then s
      else
        let s := { s with tags := SMap.set false s.tags key false }.bumpR rg F.NOC_RESP_TO_TIMEOUTS 1
        match coreOf n with
        | some k => endPkt s rg k tag.toNat 8 false []
        | none => s
    else { s with tags := SMap.set false s.tags key false }.bump F.HUB_NOC_INJ_TIMEOUTS 1)

/-- The element is paused by a drain-and-swap, a D2D replacement or a retrain (R264). -/
def elemPaused (s : State) : Element → Bool
  | .router rg => s.rbit rg F.NOC_STATUS_DRAINING
  | .quad q => (List.range 3).any (fun l => s.d2d q.toNat l == 1 || s.d2d q.toNat l == 3)
  | .hub => (List.range 4).any (fun q => s.d2d q 0 == 1 || s.d2d q 0 == 3)

/-- The header at the head of a queue of the packet plane cannot move. -/
def blockedAt (s : State) (el : Element) (key : Nat) : Bool :=
  let i := key / 4 % 32
  match s.queue key with
  | [] => false
  | p :: rest =>
    let t := match el with
      | .router rg => routerHead s rg i p key rest false
      | .quad q => switchHead s (.quad q) i p key rest
      | .hub => switchHead s .hub i p key rest
    decide (s.behind key = 0) && decide (t.queue key = s.queue key)

/-- Among the blocked VCs of an element, that whose header arrived first (R264). -/
def firstBlocked (s : State) (el : Element) : Option Nat :=
  s.order.find? (fun k => decide (k / 128 = elemNo el) && blockedAt s el k)

/-- The packet that stands first in a queue is discarded whole, and counted (R264). -/
def discardHead (s : State) (el : Element) (key : Nat) : State :=
  match s.queue key with
  | [] => s
  | p :: rest =>
    let s := (s.popNet key rest).noteFault 7 (elemLoc el) (elemKey el)
    match el with
    | .router rg =>
      let s := s.bumpR rg F.NOC_NPD_DROPS 1
      s.onRgn rg (fun r => r.setReg R.NOC_NPD_LAST (faultKey [(p.dest.toNat, 24), (key % 4, 2), (key / 4 % 32, 3)]))
    | .quad q => s.bumpR (quadHome q.toNat) F.NOC_QSW_NPD_DROPS 1
    | .hub => freeFlits s (key / 4 % 32) p

/-- NO_PROGRESS (R264): the header at an input has not moved; of the blocked packets of the element the one whose header arrived first is
discarded. -/
def execNoProgress (el : Element) (inp : BitVec 5) (vc : BitVec 2) (s : State) : Host.Outcome State Fault Refusal :=
  .next (
    if elemPaused s el ∨ ¬ blockedAt s el (netKey (elemNo el) inp.toNat vc.toNat) then s
    else match firstBlocked s el with
      | some k => discardHead s el k
      | none => s)

/-! ### Override tables (R259) -/

/-- OVR_SWAP (R259): a drain-and-swap starts. -/
def execOvrSwap (rg : Rg) (s : State) : Host.Outcome State Fault Refusal :=
  .next ((s.setRf rg F.NOC_STATUS_DRAINING 1).setRf rg F.NOC_OVR_STAT_BUSY 1)

/-- The shadow words in the active table, and the active words in the shadow. -/
def swapOverrides (r : Region) : Region :=
  (List.range 32).foldl (fun (x : Region) w =>
    (x.setReg (R.NOC_OVR w) (r.reg (R.NOC_OVR_SHADOW w))).setReg (R.NOC_OVR_SHADOW w) (r.reg (R.NOC_OVR w))) r

/-- Routing resumes after a drain-and-swap. -/
def endDrain (s : State) (rg : Rg) : State := (s.setRf rg F.NOC_STATUS_DRAINING 0).setRf rg F.NOC_OVR_STAT_BUSY 0

/-- Every packet-plane output of a router lies between packets (R259): no packet whose header it has routed has flits left at its inputs. -/
def State.betweenPackets (s : State) (rg : Rg) : Bool :=
  (List.range 6).all (fun i => (List.range 4).all (fun v => decide (s.behind (netKey rg.toNat i v) = 0)))

/-- SWAP_DRAINED (R259): the outputs lie between packets and the tables exchange. -/
def execSwapDrained (rg : Rg) (s : State) : Host.Outcome State Fault Refusal :=
  .next (if s.rbit rg F.NOC_STATUS_DRAINING ∧ s.betweenPackets rg then endDrain ((s.onRgn rg swapOverrides).bumpR rg F.NOC_OVR_STAT_SWAPS 1) rg else s)

/-- DRAIN_LIMIT (R259): the swap is abandoned. -/
def execDrainLimit (rg : Rg) (s : State) : Host.Outcome State Fault Refusal :=
  .next (if s.rbit rg F.NOC_STATUS_DRAINING then endDrain (s.setRf rg F.NOC_OVR_STAT_DRAIN_FAIL 1) rg else s)

/-- OVR_COPY (R259): the active table is copied into the shadow table. -/
def execOvrCopy (rg : Rg) (s : State) : Host.Outcome State Fault Refusal :=
  .next (s.onRgn rg (fun r =>
    (List.range 32).foldl (fun (x : Region) w => x.setReg (R.NOC_OVR_SHADOW w) (r.reg (R.NOC_OVR w))) r))

/-! ### D2D maintenance (R246, R247) -/

/-- A wire replaced, as one end's registers show it. -/
def noteSparing (s : State) (q l : Nat) (wire : BitVec 9) (rx : Bool) : State :=
  let h := quadHome q
  let s := s.bumpR h (if rx then F.NOC_D2D_STATUS_RX_SPARES l else F.NOC_D2D_STATUS_TX_SPARES l) 1
  let s := (s.setRf h (F.NOC_D2D_LAST_WIRE l) wire.toNat).setRf h (F.NOC_D2D_LAST_DIR l) (if rx then 1 else 0)
  s.bumpR h (F.NOC_D2D_LAST_SPARINGS l) 1

/-- The receiver of the direction of a link that an end names: its own, or that at the other end. -/
def dirReceiver (q l : Nat) (rx : Bool) : Nat :=
  if rx then 3 * q + l else match partner q l with | some (q', l') => 3 * q' + l' | none => 12 + q

/-- NOC.D2D_CTRL.SPARE_N of the link at a receiver; 0 acts as 1 (R271). -/
def State.spareN (s : State) (rcv : Nat) : Nat :=
  max 1 (if rcv < 12 then s.rf (quadHome (rcv / 3)) (F.NOC_D2D_CTRL_SPARE_N (rcv % 3)) else s.rf (quadHome (rcv - 12)) (F.NOC_D2D_CTRL_SPARE_N 0))

/-- The count of a control wire (240–255) has reached SPARE_N (R244, R246): the coding of the control wires is internal to the package (R245), no
command carries their transfers, and the answer is free. -/
def State.controlDue (s : State) (wire : BitVec 9) : Bool × State :=
  if 240 ≤ wire.toNat ∧ wire.toNat < 256 then
    let (v, s) := s.draw 1
    (v == 1#1, s)
  else (false, s)

/-- D2D_SPARING (R246, R247): a wire whose corrections of the last ms have reached SPARE_N, or that fails the training pattern, is replaced
and the link pauses; a seventeenth replacement takes it DOWN. The event counts at the die that received, under the name that the wire
has there: that element, and DIR 1 (R450). -/
def execD2dSparing (q : Quad) (l : LinkNo) (wire : BitVec 9) (rx : Bool) (s : State) : Host.Outcome State Fault Refusal :=
  let n := q.toNat
  let i := l.val
  let used := s.rf (quadHome n) (if rx then F.NOC_D2D_STATUS_RX_SPARES i else F.NOC_D2D_STATUS_TX_SPARES i)
  let rcv := dirReceiver n i rx
  let (due, s') := s.controlDue wire
  let s := s'
  .next (
    if s.d2d n i = 0 ∨ (s.d2d n i ≠ 1 ∧ s.wireCount rcv wire.toNat < s.spareN rcv ∧ ¬ due) then s
    else if 16 ≤ used then d2dDown s n i
    else
      let s := { s with wires := SMap.set [] s.wires (512 * rcv + wire.toNat) [] }
      let s := noteSparing s n i wire rx
      let s := match partner n i with | some (n', i') => noteSparing s n' i' wire (!rx) | none => s
      let (loc, el) : Nat × Nat :=
        if rx then (n, 17 + i) else match partner n i with | some (n', i') => (n', 17 + i') | none => (4, 21 + n)
      (setD2d s n i (if s.d2d n i = 2 then 3 else s.d2d n i)).noteFault 14 loc (faultKey [(el, 5), (wire.toNat, 9), (1, 1)]))

/-- D2D_RESUME (R246): a paused link resumes. -/
def execD2dResume (q : Quad) (l : LinkNo) (s : State) : Host.Outcome State Fault Refusal :=
  .next (if s.d2d q.toNat l.val = 3 then setD2d s q.toNat l.val 2 else s)

/-- The key of a link's training failures: both its ends name the same. -/
def linkKey (q l : Nat) : Nat := if l = 2 then 3 * ccwOf q + 1 else 3 * q + l

def State.d2dFailed (s : State) (q l : Nat) : BitVec 2 := SMap.get 0 s.d2dFails (linkKey q l)
def State.setD2dFailed (s : State) (q l : Nat) (n : BitVec 2) : State := { s with d2dFails := SMap.set 0 s.d2dFails (linkKey q l) n }

/-- A retrain starts (R247). -/
def trainD2d (s : State) (q l : Nat) : State := (setD2d s q l 1).setD2dFailed q l 0

/-- D2D_RETRAIN (R247). -/
def execD2dRetrain (q : Quad) (l : LinkNo) (s : State) : Host.Outcome State Fault Refusal := .next (trainD2d s q.toNat l.val)

/-- The die at the far end of a ring link of quadrant `q` has lost its supply. -/
def State.farFault (s : State) (q l : Nat) : Bool :=
  (l == 1 && s.quadFault (cwOf q)) || (l == 2 && s.quadFault (ccwOf q))

/-- D2D_TRAINED (R247): the link is UP, or has failed, as one to a die without supply does (R29); three failures in a row take it DOWN. -/
def execD2dTrained (q : Quad) (l : LinkNo) (passed : Bool) (s : State) : Host.Outcome State Fault Refusal :=
  let n := q.toNat
  let i := l.val
  .next (
    if s.d2d n i ≠ 1 then s
    else if passed ∧ ¬ s.quadFault n ∧ ¬ s.farFault n i then (setD2d s n i 2).setD2dFailed n i 0
    else if 2 ≤ (s.d2dFailed n i).toNat then d2dDown (s.setD2dFailed n i 0) n i
    else s.setD2dFailed n i (s.d2dFailed n i + 1))

end Sys2Proof.Machine
end

