-- ==== Sys2Proof/Machine/Bundles.lean ====
section
/-! DEFINITION. The scheduled plane (R265–R268, R290, R291, R97–R99, R138): a bundle waits in a queue of its parity at the input
that it has reached, until the next element takes it. -/

namespace Sys2Proof.Machine

/-- The parity of a bundle's tag (R95). -/
def Bundle.parity (b : Bundle) : Bool := b.tag.getLsbD 6

/-- The STREAM of a bundle's tag. -/
def Bundle.stream (b : Bundle) : Nat := b.tag.toNat % 64

/-- The bundle with another STREAM; the parity bit stays (R96). -/
def Bundle.relabel (b : Bundle) (stream : Nat) : Bundle := { b with tag := BitVec.ofNat 7 (stream % 64 + 64 * b.parity.toNat) }

def State.bundles (s : State) (e i : Nat) (par : Bool) : List Bundle := SMap.get [] s.sched (schedKey e i par)

def State.setBundles (s : State) (e i : Nat) (par : Bool) (l : List Bundle) : State :=
  { s with sched := SMap.set [] s.sched (schedKey e i par) l }

/-- A queue holds 4 bundles of one parity (R267). -/
def State.bundleRoom (s : State) (e i : Nat) (b : Bundle) : Bool := decide ((s.bundles e i b.parity).length < 4)

/-- The bundle joins the queue of its parity at input `i` of element `e`. -/
def State.pushBundle (s : State) (e i : Nat) (b : Bundle) : State := s.setBundles e i b.parity (s.bundles e i b.parity ++ [b])

/-- The bundles of one parity that wait at an input of an element; at input 4 of a router, those in the injection (R95). -/
def waitingBundles (s : State) (el : Element) (i : Nat) (par : Bool) : List Bundle :=
  match el with
  | .router rg => if i = 4 then (s.rgn rg).inject.filter (fun b => b.parity == par) else s.bundles rg.toNat i par
  | _ => s.bundles (elemNo el) i par

/-- The first of them leaves; a bundle that leaves the buffer of an Oxdon port frees its place there (R284). -/
def takeBundle (s : State) (el : Element) (i : Nat) (par : Bool) : State :=
  match el with
  | .router rg =>
    if i = 4 then s.onRgn rg (fun r => { r with inject := r.inject.eraseP (fun b => b.parity == par) })
    else s.setBundles rg.toNat i par (s.bundles rg.toNat i par).tail
  | .quad q => s.setBundles (64 + q.toNat) i par (s.bundles (64 + q.toNat) i par).tail
  | .hub =>
    let s := s.setBundles 68 i par (s.bundles 68 i par).tail
    if 4 ≤ i ∧ i ≤ 9 then
      s.onPort (i - 4) (fun x => { x with rxPar := SMap.update 0 x.rxPar par.toNat (· + 1), ackNew := true })
    else s

/-! ### Checks of a hop (R268) -/

/-- A bundle is corrected at a hop; which wire of a D2D lane carried the bit is not among the operands, and free (R245, R246). -/
def correctBundle (s : State) (el : Element) (d2d : Option Nat) : State :=
  let s := noteCorrected s el d2d
  match receiverOf el d2d with
  | none => s
  | some n =>
    let (v, s) := s.draw 7
    noteWire s (some n) (139 + v.toNat % 101)

/-- The data and the tag copies are checked, corrected and voted; uncorrectable data poisons the bundle. A bundle that is poisoned
already carries no code to check. -/
def checkBundle (s : State) (el : Element) (i : Nat) (b : Bundle) (data : Ecc) (tagVote : Bool) : State × Bundle :=
  let d := d2dInput el i
  let s := if tagVote then correctBundle s el d else s
  if b.poison then (s, b)
  else
    match data with
    | .clean => (s, b)
    | .single => (correctBundle s el d, b)
    | .uncorrectable => (notePoisoned s el d, { b with poison := true, data := 0 })

/-! ### Routers (R265, R266) -/

/-- Where a router sends a bundle: to a neighbour, to its LOCAL output, to its quadrant switch, or nowhere (not VALID). -/
inductive Hop where
  | torus (o : Nat) (b : Bundle)
  | home (b : Bundle)
  | ext (b : Bundle)
  | unmapped
  deriving DecidableEq, Repr

/-- The forwarding entry that a bundle on input `i` uses, if it uses one (R265). -/
def forwardIndex (i : Nat) (b : Bundle) : Option Nat :=
  if i ≠ 4 then some (64 * i + b.stream) else if b.egress = 5 then some (256 + b.stream) else none

/-- What the entry says for a bundle on input `i` (R265). -/
def forwardEntry (w : Nat) (i : Nat) (b : Bundle) : Hop :=
  let out := w % 8
  let stream := w / 8 % 64
  let xdest := w / 2 ^ 14 % 16
  if w / 512 % 2 = 0 ∨ 6 ≤ out ∨ (i = 4 ∧ out ≠ 5) then .unmapped
  else if out < 4 then .torus out (b.relabel stream)
  else if out = 4 then .home { b with via := BitVec.ofNat 3 i }
  else if (4 ≤ xdest ∧ xdest < 8) ∨ 14 ≤ xdest then .unmapped
  else .ext { b.relabel stream with xrgn := BitVec.ofNat 4 (w / 2 ^ 10), xdest := BitVec.ofNat 4 xdest }

/-- The hop of a bundle on input `i` of a region's router; the injection needs no entry but for EGRESS 5 (R95, R96, R265). -/
def routerHop (r : Region) (i : Nat) (b : Bundle) : Hop :=
  match forwardIndex i b with
  | some m => forwardEntry (r.reg (R.NOC_SFWD m)).toNat i b
  | none => if b.egress = 4 then .home { b with via := 4 } else .torus b.egress.toNat b

/-- A router takes a bundle as its hop says, or the bundle waits; `t` is the state with the bundle taken. -/
def routerForward (s t : State) (rg : Rg) (i : Nat) (b : Bundle) : Hop → State
  | .torus o b' =>
    let n := (torusNext rg o).1.toNat
    if s.bundleRoom n (oppositeIn o) b' then t.pushBundle n (oppositeIn o) b' else s
  | .home b' => if s.bundleRoom rg.toNat 31 b' then t.pushBundle rg.toNat 31 b' else s
  | .ext b' => if s.bundleRoom (64 + quadOf rg) (numOf rg) b' then t.pushBundle (64 + quadOf rg) (numOf rg) b' else s
  | .unmapped => countAccepted (unmappedBundle t rg i b.stream) b

/-! ### Switches (R266, R290) -/

/-- The transmit queue of a D2D bundle lane: input 20 + l of the quadrant switch for link l, 20 + q of the hub switch for quadrant q. -/
def laneQueue (x : Nat) : Nat := 20 + x

/-- A quadrant switch passes a bundle to a region, or to the lane of a ring link or of the hub link. -/
def quadForward (s t : State) (q : Nat) (b : Bundle) : State :=
  let x := b.xdest.toNat
  let put (l : Nat) (b : Bundle) : State :=
    if s.bundleRoom (64 + q) (laneQueue l) b then t.pushBundle (64 + q) (laneQueue l) b else s
  if 8 ≤ x then put 0 { b with qtag := BitVec.ofNat 2 q }
  else if x = q then
    if s.bundleRoom (16 * q + b.xrgn.toNat) 5 b then t.pushBundle (16 * q + b.xrgn.toNat) 5 b else s
  else if x = ccwOf q then put 2 b
  else put 1 b

/-- The far end of a lane: the element and the input that it reaches, and its link as a quadrant names it. -/
def laneEnd : Element → Nat → Nat × Nat × Nat × Nat
  | .quad q, 0 => (68, q.toNat, q.toNat, 0)
  | .quad q, 1 => (64 + cwOf q.toNat, 18, q.toNat, 1)
  | .quad q, _ => (64 + ccwOf q.toNat, 17, q.toNat, 2)
  | _, x => (64 + x, 16, x, 0)

/-- A bundle crosses a D2D link that is UP (R246, R247): while it pauses or is DOWN, and at the edge of a die without supply (R29), bundles
wait in the lane's queue. -/
def laneForward (s t : State) (el : Element) (x : Nat) (b : Bundle) : State :=
  let (e, i, q, l) := laneEnd el x
  if s.d2d q l = 2 ∧ ¬ s.quadFault q ∧ ¬ s.farFault q l ∧ s.bundleRoom e i b then t.pushBundle e i b else s

/-- The region that sent a bundle replays (R138). -/
def originReplays (s : State) (b : Bundle) : Bool :=
  match b.origin with
  | some o => (s.rgn o).replaying
  | none => false

/-- The hub passes a bundle to a quadrant or to the transmit queue of a port. In a replay the bundles of the job that leave on a
port are discarded there and count as accepted (R138). -/
def hubForward (s t : State) (b : Bundle) : State :=
  let x := b.xdest.toNat
  if x < 4 then
    if s.bundleRoom 68 (laneQueue x) b then t.pushBundle 68 (laneQueue x) b else s
  else
    let p := x - 8
    if originReplays s b then countAccepted t b
    else if ((s.port p).txSched.filter (fun c => c.parity == b.parity)).length < 4 then
      t.onPort p (fun y => { y with txSched := y.txSched ++ [b] })
    else s

/-- BUNDLE_FORWARD (R265–R268): the first bundle of parity `par` at input `inp` of an element, or in the queue of a D2D lane of a switch,
moves on, if the next queue has room. `data` and `tagVote` are what the hop's checks find, `table_` what the check of the forwarding entry finds, and `waitNs` the
time the bundle has waited at the router's output. -/
def execBundleForward (el : Element) (inp : BitVec 5) (par : Bool) (data table_ : Ecc) (tagVote : Bool) (waitNs : Word) (s : State) :
    Host.Outcome State Fault Refusal :=
  let i := inp.toNat
  .next (
    match el, waitingBundles s el i par with
    | _, [] => s
    | .router rg, b :: _ =>
      if 5 < i then s
      else
        let (s', b') := checkBundle s el i b data tagVote
        let entry := forwardIndex i b
        let s' := match entry with | some m => tableEcc s' rg table_ 4 m | none => s'
        let hop := if entry.isSome && table_ == .uncorrectable then .unmapped else routerHop (s.rgn rg) i b'
        if waitingBundles s' el i par ≠ waitingBundles s el i par then s'
        else
          let t := (takeBundle s' el i par).bumpR rg F.NOC_SCHED_WAIT_NS waitNs.toNat
          let u := routerForward s' t rg i b' hop
          if waitingBundles u el i par = waitingBundles s el i par then s else u
    | .quad q, b :: _ =>
      if 20 ≤ i then laneForward s (takeBundle s el i par) el (i - 20) b
      else
        let (s', b') := checkBundle s el i b data tagVote
        let u := quadForward s' (takeBundle s' el i par) q.toNat b'
        if waitingBundles u el i par = waitingBundles s el i par then s else u
    | .hub, b :: _ =>
      if 20 ≤ i then laneForward s (takeBundle s el i par) el (i - 20) b
      else
        let (s', b') := checkBundle s el i b data tagVote
        let u := hubForward s' (takeBundle s' el i par) b'
        if waitingBundles u el i par = waitingBundles s el i par then s else u)

/-! ### Acceptance (R97–R99) -/

/-- The bundle enters the side of its parity of slot `k` of cluster `c` (R98); a poisoned one as zeros, counted and tainted (R99).
The fix of the cycle that reads it carries TAINT. In an isolated region, whose registers stand (R107), the bundle is taken and
changes nothing of them. -/
def fillSide (s : State) (rg : Rg) (c : Cl) (k : Nat) (b : Bundle) : State :=
  let i := 16 * b.parity.toNat + k
  let halted := s.rbit rg F.RGN_CTRL_ISOLATE
  let input := b.via.toNat
  let s :=
    if halted then s
    else
      let s := s.onCl rg c (fun x => { x with exch := SMap.set 0 x.exch i (if b.poison then 0 else b.data), exFull := setBit x.exFull i true })
      s.onRgn rg (fun r => (r.showStall c).shadowSlot c k)
  if ¬ b.poison then s
  else
    let later := decide (b.parity.toNat = (s.rgn rg).executing.toNat % 2)
    let s :=
      if halted then s
      else
        (s.bumpR rg F.RGN_XERR_POISON 1).onRgn rg (fun r =>
          { r.setReg R.RGN_XLAST (faultKey [(b.stream, 6), (input, 3), (1, 1)]) with
            fix := { r.fix with taintNext := r.fix.taintNext || later } })
    let s := s.noteFault 8 (quadOf rg) (faultKey [(numOf rg, 4), (input, 3), (b.stream, 6)])
    s.taint rg { cause := 3, cluster := c.toNat, entry := 992 + k, detail := b.stream + 64 * input }

/-- The cycle whose sending a bundle of parity `par` belongs to, in a region that executes `n`: n or n − 1. -/
def sentIn (n : BitVec 48) (par : Bool) : BitVec 48 := if n.toNat % 2 = par.toNat then n else n - 1

/-- The side that map entry `w` gives a bundle of parity `par`: cluster, slot, and whether it is full. -/
def sideFull (r : Region) (c : Cl) (k : Nat) (par : Bool) : Bool := (r.cl c).exFull.getLsbD (16 * par.toNat + k)

/-- The bundle at the head of the LOCAL output is accepted, discarded as unmapped, or waits (R98, R99). -/
def acceptBundle (s : State) (rg : Rg) (par : Bool) (table_ : Ecc) (waitNs : Word) (b : Bundle) (rest : List Bundle) : State :=
  let r := s.rgn rg
  let m := 64 * b.via.toNat + b.stream
  let w := (r.reg (R.RGN_XMAP m)).toNat
  let c : Cl := BitVec.ofNat 4 (w / 16)
  let k := w % 16
  let take (s : State) : State := (s.setBundles rg.toNat 31 par rest).bumpR rg F.NOC_SCHED_WAIT_NS waitNs.toNat
  if r.replaying ∧ b.port.isSome then unmappedBundle (take s) rg b.via.toNat b.stream
  else if table_ = .uncorrectable then tableEcc s rg table_ 2 m
  else if w / 256 % 2 = 0 ∨ 384 ≤ m then countAccepted (unmappedBundle (tableEcc (take s) rg table_ 2 m) rg b.via.toNat b.stream) b
  else if sideFull r c k par then s
  else
    let s := countAccepted (fillSide (tableEcc (take s) rg table_ 2 m) rg c k b) b
    match b.port with
    | none => s
    | some p => pushBin s rg (sentIn r.executing par) 1 c (992 + k) p.val 0 false (if b.poison then 0 else b.data)

/-- The next LINK_BUNDLE record of a replay with parity `par` (R138). -/
def Region.nextLinkBundle (r : Region) (par : Bool) : Option Rec :=
  r.liveRecords.find? (fun x => decide (x.typ = 4) && decide ((r.payload x 0).toNat % 16 = 1) &&
    decide (r.rwd.replayFrom.toNat < x.cycle.toNat) && decide (x.cycle.toNat % 2 = par.toNat) &&
    decide (BitVec.ofNat 18 x.pos ∉ r.rwd.used))

/-- In a replay the next LINK_BUNDLE record of the parity is delivered into its side once that is empty (R138). `ecc` is what the
check of its ring word finds. -/
def replayBundle (s : State) (rg : Rg) (par : Bool) (ecc : Ecc) : State :=
  let r := s.rgn rg
  match r.nextLinkBundle par with
  | none => s
  | some x =>
    let w := (r.payload x 0).toNat
    let c : Cl := BitVec.ofNat 4 (w / 16)
    let k := w / 256 % 16
    if sideFull r c k par ∨ r.bit F.RGN_CTRL_ISOLATE then s
    else
      let r := { r with upsets := SMap.set .clean r.upsets (ringKey (x.pos + 2)) (r.checked (ringKey (x.pos + 2)) ecc) }
      let s := readRecord (s.setRgn rg r) rg x
      let v := r.payload x 1
      let s := s.onRgn rg (fun r => { r with rwd := { r.rwd with used := r.rwd.used ++ [BitVec.ofNat 18 x.pos] } })
      let s := s.onCl rg c (fun y =>
        { y with exch := SMap.set 0 y.exch (16 * par.toNat + k) v, exFull := setBit y.exFull (16 * par.toNat + k) true })
      s.onRgn rg (fun r => r.showStall c)

/-- BUNDLE_ACCEPT (R97–R99, R127, R138, R458): the bundle of parity `par` at a region's LOCAL output, or (`fromRing`) the next
LINK_BUNDLE record of a replay. `table_` is what the check of the map entry, or of the ring word, finds; `flagErr` a parity error in a
side flag. -/
def execBundleAccept (rg : Rg) (par fromRing : Bool) (table_ : Ecc) (flagErr : Bool) (waitNs : Word) (s : State) :
    Host.Outcome State Fault Refusal :=
  .next (
    if flagErr then uncontained s rg 8
    else if fromRing then (if (s.rgn rg).replaying then replayBundle s rg par table_ else s)
    else
      match s.bundles rg.toNat 31 par with
      | [] => s
      | b :: rest => acceptBundle s rg par table_ waitNs b rest)

end Sys2Proof.Machine
end

