-- ==== Sys2Proof/Machine/EaselAlu.lean ====
section
/-! DEFINITION. Easel arithmetic, logic, shifts, moves (R331, R332, R334). -/

namespace Sys2Proof.Machine

/-- A register-format operation with its flags (R330, R332). -/
def aluReg (f : BitVec 16 → BitVec 16 → Alu) (e : Easel) (w : Word) : Easel :=
  e.result (insnRd w) (f (e.get (insnRa w)) (e.get (insnRb w)))

/-- An immediate-format operation with its flags. -/
def aluImm (f : BitVec 16 → BitVec 16 → Alu) (e : Easel) (w : Word) : Easel :=
  e.result (insnRd w) (f (e.get (insnRa w)) (insnImm w))

/-- A shift by RB[3:0]. -/
def aluShift (f : BitVec 16 → Nat → Alu) (e : Easel) (w : Word) : Easel :=
  e.result (insnRd w) (f (e.get (insnRa w)) ((e.get (insnRb w)).toNat % 16))

/-- The flags of a comparison alone. -/
def aluFlags (e : Easel) (x : Alu) : Easel := { e with sr := srFlags e.sr x }

def doNop (e : Easel) (_ : Word) : Easel := e
def doAdd : Easel → Word → Easel := aluReg aluAdd
def doSub : Easel → Word → Easel := aluReg aluSub
def doAnd : Easel → Word → Easel := aluReg (fun a b => aluLogic (a &&& b))
def doOr : Easel → Word → Easel := aluReg (fun a b => aluLogic (a ||| b))
def doXor : Easel → Word → Easel := aluReg (fun a b => aluLogic (a ^^^ b))
def doShl : Easel → Word → Easel := aluShift aluShl
def doShr : Easel → Word → Easel := aluShift aluShr
def doShra : Easel → Word → Easel := aluShift aluShra
def doCmp (e : Easel) (w : Word) : Easel := aluFlags e (aluSub (e.get (insnRa w)) (e.get (insnRb w)))
def doAddi : Easel → Word → Easel := aluImm aluAdd
def doAndi : Easel → Word → Easel := aluImm (fun a b => aluLogic (a &&& b))
def doOri : Easel → Word → Easel := aluImm (fun a b => aluLogic (a ||| b))
def doXori : Easel → Word → Easel := aluImm (fun a b => aluLogic (a ^^^ b))
def doLdi (e : Easel) (w : Word) : Easel := e.put (insnRd w) (insnImm w)
def doCmpi (e : Easel) (w : Word) : Easel := aluFlags e (aluSub (e.get (insnRa w)) (insnImm w))

/-- MSV (R334): the register RA, in [25:21], goes to special register SPEC. -/
def doMsv (e : Easel) (w : Word) : Easel := e.specWrite (insnField w 15 6) (e.get (insnRd w))

/-- MVS (R334). -/
def runMvs (rg : Rg) (k : CoreNo) (s : State) (w : Word) : Did :=
  .done (s.onEas rg k (fun e => e.put (insnRd w) (specRead (s.rgn rg) rg k (insnField w 15 6)))) none

/-- EAS_NOP (R331). -/
def execEasNop (rg : Rg) (k : CoreNo) (s : State) : Host.Outcome State Fault Refusal := .next (easStep s rg k 0x00 (onCore rg k doNop))

/-- ADD (R331, R332). -/
def execEasAdd (rg : Rg) (k : CoreNo) (s : State) : Host.Outcome State Fault Refusal := .next (easStep s rg k 0x01 (onCore rg k doAdd))

/-- SUB (R331, R332). -/
def execEasSub (rg : Rg) (k : CoreNo) (s : State) : Host.Outcome State Fault Refusal := .next (easStep s rg k 0x02 (onCore rg k doSub))

/-- AND (R331, R332). -/
def execEasAnd (rg : Rg) (k : CoreNo) (s : State) : Host.Outcome State Fault Refusal := .next (easStep s rg k 0x03 (onCore rg k doAnd))

/-- OR (R331, R332). -/
def execEasOr (rg : Rg) (k : CoreNo) (s : State) : Host.Outcome State Fault Refusal := .next (easStep s rg k 0x04 (onCore rg k doOr))

/-- XOR (R331, R332). -/
def execEasXor (rg : Rg) (k : CoreNo) (s : State) : Host.Outcome State Fault Refusal := .next (easStep s rg k 0x05 (onCore rg k doXor))

/-- SHL (R331, R332). -/
def execEasShl (rg : Rg) (k : CoreNo) (s : State) : Host.Outcome State Fault Refusal := .next (easStep s rg k 0x06 (onCore rg k doShl))

/-- SHR (R331, R332). -/
def execEasShr (rg : Rg) (k : CoreNo) (s : State) : Host.Outcome State Fault Refusal := .next (easStep s rg k 0x07 (onCore rg k doShr))

/-- SHRA (R331, R332). -/
def execEasShra (rg : Rg) (k : CoreNo) (s : State) : Host.Outcome State Fault Refusal := .next (easStep s rg k 0x08 (onCore rg k doShra))

/-- CMP (R332). -/
def execEasCmp (rg : Rg) (k : CoreNo) (s : State) : Host.Outcome State Fault Refusal := .next (easStep s rg k 0x09 (onCore rg k doCmp))

/-- ADDI (R331, R332). -/
def execEasAddi (rg : Rg) (k : CoreNo) (s : State) : Host.Outcome State Fault Refusal := .next (easStep s rg k 0x0A (onCore rg k doAddi))

/-- ANDI (R331, R332). -/
def execEasAndi (rg : Rg) (k : CoreNo) (s : State) : Host.Outcome State Fault Refusal := .next (easStep s rg k 0x0B (onCore rg k doAndi))

/-- ORI (R331, R332). -/
def execEasOri (rg : Rg) (k : CoreNo) (s : State) : Host.Outcome State Fault Refusal := .next (easStep s rg k 0x0C (onCore rg k doOri))

/-- XORI (R331, R332). -/
def execEasXori (rg : Rg) (k : CoreNo) (s : State) : Host.Outcome State Fault Refusal := .next (easStep s rg k 0x0D (onCore rg k doXori))

/-- LDI (R331). -/
def execEasLdi (rg : Rg) (k : CoreNo) (s : State) : Host.Outcome State Fault Refusal := .next (easStep s rg k 0x0E (onCore rg k doLdi))

/-- CMPI (R332). -/
def execEasCmpi (rg : Rg) (k : CoreNo) (s : State) : Host.Outcome State Fault Refusal := .next (easStep s rg k 0x0F (onCore rg k doCmpi))

/-- MVS (R334). -/
def execEasMvs (rg : Rg) (k : CoreNo) (s : State) : Host.Outcome State Fault Refusal := .next (easStep s rg k 0x10 (runMvs rg k))

/-- MSV (R334, R343). -/
def execEasMsv (rg : Rg) (k : CoreNo) (s : State) : Host.Outcome State Fault Refusal := .next (easStep s rg k 0x11 (onCore rg k doMsv))

end Sys2Proof.Machine
end

