-- ==== Sys2Proof/Machine/EaselCtl.lean ====
section
/-! DEFINITION. The EAS registers' commands: watchdog, resets, mailboxes from the host, patch units (R354–R360). -/

namespace Sys2Proof.Machine

/-- A core is reset, and its region may begin the cycle that its hold delayed (R46, R347, R360). One that a retouch holds in reset stays there
(R228). -/
def resetOne (s : State) (rg : Rg) (k : CoreNo) : State :=
  let s' := resetCore s rg k
  tryBegin (if s.coresHeld rg then holdReset s' rg k else s') rg

/-- EASEL_WATCHDOG (R359): the count has reached 0 and the watchdog bites. -/
def execEaselWatchdog (rg : Rg) (k : CoreNo) (s : State) : Host.Outcome State Fault Refusal :=
  let n := k.val
  let st := s.rf rg (F.EAS_STATUS_STATE n)
  .next (
    if ¬ s.rbit rg (F.EAS_WDOG_LIMIT n) ∨ s.rf rg (F.EAS_WDOG_CNT_COUNT n) ≠ 0 ∨ st = 0 ∨ st = 3 ∨
        s.rbit rg (F.EAS_STATUS_HALTED n) ∨ ¬ s.clocked rg then s
    else
      let s := (s.setRf rg (F.EAS_STATUS_WDOG n) 1).bumpR rg (F.EAS_COUNTS_WDOG n) 1
      let s := s.noteFault 17 (quadOf rg) (faultKey [(numOf rg, 4), (n, 2)])
      resetOne (s.ibi 0x0B (locOf rg) n) rg k)

/-- CORE_RESET: a write of 1 to EAS.CTRL.RESET (R360). -/
def execCoreReset (rg : Rg) (k : CoreNo) (s : State) : Host.Outcome State Fault Refusal := .next (resetOne s rg k)

/-- HOLD_RST (R360): the core goes into reset and stays there, or starts at 0x0000. -/
def execHoldRst (rg : Rg) (k : CoreNo) (v : Bool) (s : State) : Host.Outcome State Fault Refusal :=
  let n := k.val
  let was := s.rbit rg (F.EAS_CTRL_HOLD_RST n)
  let s' := s.setRf rg (F.EAS_CTRL_HOLD_RST n) (if v then 1 else 0)
  .next (
    if v = was then s'
    else if v then resetOne s' rg k
    else if (s.rgn rg).configured ∧ ¬ s.coresHeld rg then s'.onRgn rg (fun r => r.startCore k)
    else s')

/-- MBIN_FLUSH (R355, R372). -/
def execMbinFlush (rg : Rg) (k : CoreNo) (s : State) : Host.Outcome State Fault Refusal :=
  .next (s.onRgn rg (fun r => (r.setEas k { r.eas k with mbin := [], mbinCut := true }).showMail k))

/-- MBOUT_FLUSH (R355, R372). -/
def execMboutFlush (rg : Rg) (k : CoreNo) (s : State) : Host.Outcome State Fault Refusal :=
  .next (s.onRgn rg (fun r => (r.setEas k { r.eas k with mbout := [], mboutCut := true }).showMail k))

/-- A word that the host pushes into the inbound mailbox (R354, R372); `bad` says that its stored parity fails. -/
def pushMbin (s : State) (rg : Rg) (k : CoreNo) (w : Word) (first bad : Bool) : State :=
  let e := s.eas rg k
  if e.mbinCut ∧ ¬ first then abandonWord (s.setRf rg (F.EAS_MBIN_STAT_ABANDONED k.val) 1)
  else if 64 ≤ e.mbin.length then s.bumpR rg (F.EAS_COUNTS_MB_REFUSED k.val) 1
  else s.onRgn rg (fun r => (r.setEas k { e with mbin := e.mbin ++ [⟨w, first, bad⟩], mbinCut := false }).showMail k)

/-- MBIN_FIRST (R354). -/
def execMbinFirst (rg : Rg) (k : CoreNo) (w : Word) (bad : Bool) (s : State) : Host.Outcome State Fault Refusal :=
  .next (pushMbin s rg k w true bad)

/-- MBIN_NEXT (R354). -/
def execMbinNext (rg : Rg) (k : CoreNo) (w : Word) (bad : Bool) (s : State) : Host.Outcome State Fault Refusal :=
  .next (pushMbin s rg k w false bad)

/-- A pop of the outbound mailbox (R355): the word, and its flags in EAS.MBOUT_STAT. -/
def popMbout (s : State) (rg : Rg) (k : CoreNo) (bad : Bool) : Word × State :=
  let n := k.val
  let e := s.eas rg k
  let flags (s : State) (a b c : Nat) : State :=
    ((s.setRf rg (F.EAS_MBOUT_STAT_LAST_EMPTY n) a).setRf rg (F.EAS_MBOUT_STAT_LAST_FIRST n) b).setRf rg (F.EAS_MBOUT_STAT_LAST_POISON n) c
  match e.mbout with
  | [] => (0, s.setRf rg (F.EAS_MBOUT_STAT_LAST_EMPTY n) 1)
  | m :: t =>
    let fails := m.bad || bad
    let s := s.onRgn rg (fun r => (r.setEas k { e with mbout := t }).showMail k)
    let s := flags s 0 m.first.toNat fails.toNat
    (m.word, if fails then queueError s rg k else s)

/-- MBOUT: a read of EAS.MBOUT (R355). `bad` says that the word fails its parity. -/
def execMbout (rg : Rg) (k : CoreNo) (bad : Bool) (s : State) : Host.Outcome State Fault Refusal := .next (popMbout s rg k bad).2

/-- PATCH_WRITE (R357): EAS.PATCH_ADDR or EAS.PATCH_WORD. A unit that the debug port has claimed takes no other write. A running core's fetches see it 8 core cycles later. -/
def execPatchWrite (rg : Rg) (k : CoreNo) (u : BitVec 3) (word : Bool) (v : Word) (by_ : Writer) (s : State) :
    Host.Outcome State Fault Refusal :=
  let n := k.val
  let i := u.toNat
  .next (
    if s.rbit rg (F.EAS_PATCH_ADDR_CLAIMED n i) ∧ by_ ≠ .debug then s
    else
    let s := if s.coreRuns rg k then s.onRgn rg (fun r => r.setEas k { r.eas k with patchOld := (r.eas k).patchOld ++
        [⟨u, (r.reg (R.EAS_PATCH_ADDR n i)).truncate 16, r.reg (R.EAS_PATCH_WORD n i), 8⟩] }) else s
    if word then s.onRgn rg (fun r => r.setReg (R.EAS_PATCH_WORD n i) v)
    else (s.setRf rg (F.EAS_PATCH_ADDR_ADDR n i) v.toNat).setRf rg (F.EAS_PATCH_ADDR_EN n i) (v.toNat / 2 ^ 15))

/-- EAS_WDOG: a write of EAS.WDOG.LIMIT (R359). -/
def execEasWdog (rg : Rg) (k : CoreNo) (limit : BitVec 24) (s : State) : Host.Outcome State Fault Refusal :=
  .next ((s.setRf rg (F.EAS_WDOG_LIMIT k.val) limit.toNat).onRgn rg (fun r => r.reloadDog k))

end Sys2Proof.Machine
end

