-- ==== Sys2Proof/Machine/EaselMac.lean ====
section
/-! DEFINITION. Easel multiply and accumulate (R337–R339). -/

namespace Sys2Proof.Machine

/-- MUL (R337); MOP 3 traps with ILLEGAL. -/
def runMul (rg : Rg) (k : CoreNo) (s : State) (w : Word) : Did :=
  let mop := insnField w 23 2
  if mop = 3 then .trap s 1
  else onCore rg k (fun e w =>
    let one := w.getLsbD 25
    e.setAcc one (accMul mop (e.acc one) (e.get (insnRa w)) (e.get (insnRb w)))) s w

/-- One load of MACLD: 16 bits at pointer `p` of memory `m` into register V`d`, the pointer advanced by +2 or −2; 15 is no
load (R337). -/
def macLoad (e : Easel) (m : Mem) (p d : Nat) (back : Bool) : Easel :=
  if d = 15 then e
  else (e.put (8 + d) (BitVec.ofNat 16 (Mem.read m (e.p p).toNat 2))).setP p (e.advance p (if back then -2 else 2))

/-- MACLD (R337): the product is of the registers at issue; then the two loads. Where both loads name one register, its value is not
stated: a free value. -/
def runMacld (rg : Rg) (k : CoreNo) (s : State) (w : Word) : Did :=
  let e := s.eas rg k
  let mop := insnField w 23 2
  let xp := insnField w 13 2
  let yp := 4 + insnField w 11 2
  let xd := insnField w 5 4
  let yd := insnField w 1 4
  if (xd ≠ 15 ∧ (e.p xp).getLsbD 0) ∨ (yd ≠ 15 ∧ (e.p yp).getLsbD 0) then .trap s 2
  else
    let one := w.getLsbD 25
    let e' := if mop = 3 then e
      else e.setAcc one (accMul mop (e.acc one) (e.get (8 + insnField w 19 4)) (e.get (8 + insnField w 15 4)))
    let e' := macLoad (macLoad e' e.x xp xd (w.getLsbD 10)) e.y yp yd (w.getLsbD 9)
    if xd = yd ∧ xd ≠ 15 then
      let (v, s) := s.draw 16
      .done (s.setEas rg k (e'.put (8 + xd) v)) none
    else .done (s.setEas rg k e') none

/-- ACC (R338). -/
def doAcc (e : Easel) (w : Word) : Easel :=
  let one := w.getLsbD 25
  e.setAcc one (accFn (insnField w 22 3) (e.acc one) (e.acc (!one)) (e.get (insnRa w)) (insnField w 0 5))

/-- EXT (R339). -/
def doExt (e : Easel) (w : Word) : Easel :=
  let (v, ovf) := extract16 (e.acc (w.getLsbD 20)) (insnField w 15 5) (w.getLsbD 14)
  let e := e.put (insnRd w) v
  if ovf then e.setV else e

/-- MUL (R337). -/
def execEasMul (rg : Rg) (k : CoreNo) (s : State) : Host.Outcome State Fault Refusal := .next (easStep s rg k 0x12 (runMul rg k))

/-- MACLD (R337). -/
def execEasMacld (rg : Rg) (k : CoreNo) (s : State) : Host.Outcome State Fault Refusal := .next (easStep s rg k 0x13 (runMacld rg k))

/-- ACC (R338). -/
def execEasAcc (rg : Rg) (k : CoreNo) (s : State) : Host.Outcome State Fault Refusal := .next (easStep s rg k 0x14 (onCore rg k doAcc))

/-- EXT (R339). -/
def execEasExt (rg : Rg) (k : CoreNo) (s : State) : Host.Outcome State Fault Refusal := .next (easStep s rg k 0x15 (onCore rg k doExt))

end Sys2Proof.Machine
end

