-- ==== Sys2Proof/Machine/Meridian.lean ====
section
/-! DEFINITION. The meridian receiver (R31–R38, R52–R55, R302, R303). -/

namespace Sys2Proof.Machine

/-- MER.STATUS.STATE (R33): 0 NO_REF, 1 ACQUIRING, 2 LOCKED, 3 ALIGNED, 4 RECKONING, 5 RETURNING. -/
def State.merState (s : State) : Nat := s.f F.MER_STATUS_STATE

def State.setMer (s : State) (st : Nat) : State := s.setF F.MER_STATUS_STATE st

/-- The effective source (R62): 0 PINS, 1 LINK, 2 INTERNAL; code 3 acts as PINS. -/
def srcOf (v : Nat) : Nat := if v = 3 then 0 else v

def State.merSrc (s : State) : Nat := srcOf (s.f F.MER_CTRL_SRC)

/-- The port that supplies the TICK frames of a link source (R38, R62). -/
def State.merPort (s : State) : Nat := if s.mer.onAlt then s.f F.MER_CTRL_ALT_PORT else s.f F.MER_CTRL_RELAY_PORT

/-- REFERENCE_EDGES (R33): edges of the source are seen in NO_REF. -/
def execReferenceEdges (s : State) : Host.Outcome State Fault Refusal :=
  .next (if s.merState = 0 ∧ s.merSrc ≠ 2 then s.setMer 1 else s)

/-- The mean of a list of periods. -/
def meanOf (l : List Word) : Nat := (l.map BitVec.toNat).sum / l.length

/-- The mean of 1,024 consecutive periods that lie within ±0.1 % of it (R33). -/
def stableMean (l : List Word) : Option Word :=
  let m := meanOf l
  if l.length = 1024 ∧ l.all (fun p => decide (1000 * (p.toNat - m) ≤ m ∧ 1000 * (m - p.toNat) ≤ m)) then some (BitVec.ofNat 32 m) else none

/-- LOCK (R33, R52): 1,024 stable periods have been seen, for a link source those between dated ticks (R302). In ACQUIRING their mean
becomes the trimmed period. -/
def execLock (meanPeriod : Word) (s : State) : Host.Outcome State Fault Refusal :=
  .next (
    match (if s.merSrc = 1 then stableMean s.mer.periods else some meanPeriod) with
    | none => s
    | some m =>
      if s.merSrc = 2 then s
      else if s.merState = 1 then (s.setMer 2).setReg R.MER_PERIOD m
      else if s.merState = 4 then s.setMer 5
      else s)

/-! ### Realignment (R54, R55) -/

/-- Every region at work learns of a realignment: its next fix carries REALIGN, and so does a slip whose boundary the step has
passed (R55). -/
def flagRealign (s : State) (passed : Option (BitVec 48)) : State :=
  foldS allRegions s (fun s rg =>
    if (s.rgn rg).atWork then
      s.onRgn rg (fun r => { r with fix := { r.fix with realign := true, realignTo := passed } })
    else s)

/-- The count is realigned (R54): the difference is recorded; it is removed by a step, or by a slew. -/
def realign (s : State) (delta : BitVec 48) : State :=
  let s := s.setF F.MER_REALIGN_DELTA (toField 24 delta.toInt)
  let s := (s.bump F.MER_REALIGN_COUNT 1).setF F.MER_STATUS_REALIGNED 1
  let s := { s.setMer 3 with mer := { (s.setMer 3).mer with agreed := none, frame0 := none } }
  if s.bit F.MER_CTRL_REALIGN_SLEW then
    flagRealign { s with mer := { s.mer with odd := none, slew := delta, omitted := false } } none
  else
    let t := s.mer.tick + delta
    flagRealign { s with mer := { s.mer with odd := none, slew := 0, omitted := false, tick := t } } (if 0 < delta.toInt then some t else none)

/-- What a slew has still to remove (R54): a tick that is to be omitted next has not been removed yet. -/
def Meridian.left (m : Meridian) : BitVec 48 := if m.omitted then m.slew - 1 else m.slew

/-- In ALIGNED a mark whose count is `delta` ahead of the local count disagrees with the count that a slew is heading for (R35, R54). -/
def State.disagrees (s : State) (delta : BitVec 48) : Bool := decide (s.merState = 3) && decide (delta ≠ s.mer.left)

/-- A valid mark: the source's count is `delta` ahead of the local count. In ALIGNED one that disagrees is ignored, and two in a row agree with
each other where they differ alike (R35); one that agrees gives the trimmed period (R52). -/
def takeMark (s : State) (delta : BitVec 48) (mean : Option Word) : State :=
  match s.merState with
  | 2 => ({ s with mer := { s.mer with tick := s.mer.tick + delta, odd := none } }).setMer 3
  | 3 =>
    if ¬ s.disagrees delta then
      let s := { s with mer := { s.mer with odd := none } }
      match mean with | some m => s.setReg R.MER_PERIOD m | none => s
    else
      let off := delta - s.mer.left
      let again := s.mer.odd = some off
      let s := (s.setF F.MER_STATUS_MARK_ERR 1).bump F.MER_EVENTS_MARK_ERRS 1
      if again then realign s delta else { s with mer := { s.mer with odd := some off } }
  | 5 => realign s delta
  | _ => s

/-- MARK (R31, R32, R35): a mark frame with its count and parity has been received, 50 ticks after its mark tick; `mean` is the mean
period of the frame it completes. An invalid mark is nothing. -/
def execMark (count : BitVec 48) (parityOk : Bool) (mean : Word) (s : State) : Host.Outcome State Fault Refusal :=
  .next (
    if ¬ parityOk ∨ count.toNat % 65536 ≠ 0 ∨ s.merSrc ≠ 0 then s
    else takeMark s (count + 50 - s.mer.tick) (some mean))

/-- The watchdog of a core counts (R359): frozen while the core is halted, held in reset, stopped, or its clock is. -/
def dogTick (r : Region) (k : CoreNo) : Region :=
  let n := k.val
  let st := r.f (F.EAS_STATUS_STATE n)
  let c := r.f (F.EAS_WDOG_CNT_COUNT n)
  if r.f (F.EAS_WDOG_LIMIT n) = 0 ∨ c = 0 ∨ st = 0 ∨ st = 3 ∨ r.bit (F.EAS_STATUS_HALTED n) then r
  else r.setF (F.EAS_WDOG_CNT_COUNT n) (c - 1)

/-- One tick is counted (R32), by MER.TICK and by the watchdogs of the cores (R359). -/
def countTick (s : State) : State :=
  foldS allRegions { s with mer := { s.mer with tick := s.mer.tick + 1, elapsed := s.mer.elapsed + 1 } } (fun s rg =>
    if ¬ s.clocked rg then s
    else
      let r := allCores.foldl dogTick (s.rgn rg)
      if r = s.rgn rg then s else s.setRgn rg r)

/-- REALIGN_SLEW_STEP (R54): one tick in 256 is inserted or omitted. -/
def execRealignSlewStep (s : State) : Host.Outcome State Fault Refusal :=
  .next (
    if s.merState ≠ 3 ∨ s.mer.slew = 0 then s
    else if 0 < s.mer.slew.toInt then
      countTick { s with mer := { s.mer with slew := s.mer.slew - 1 } }
    else { s with mer := { s.mer with omitted := true, slew := s.mer.slew + 1 } })

/-! ### Loss (R34, R38) -/

/-- The dated ticks of a link source are forgotten (R302). -/
def State.undated (s : State) : State :=
  { s with mer := { s.mer with dated := none, agreed := none, frame0 := none, offs := 0, periods := [] } }

/-- The reference is lost (R34): declared in ALIGNED and RETURNING; in ACQUIRING and LOCKED the receiver goes back to NO_REF. -/
def loseReference (s : State) : State :=
  match s.merState with
  | 1 => s.undated.setMer 0
  | 2 => s.undated.setMer 0
  | 3 | 5 =>
    let s := { s.undated with mer := { s.undated.mer with slew := 0, odd := none, omitted := false } }
    let s := (s.setMer 4).setF F.MER_STATUS_LOSS 1
    let s := (s.bump F.MER_EVENTS_LOSSES 1).noteFault 22 4 0
    s.ibi 0x01 0 4
  | _ => s

/-- SRC (R36): a write of MER.CTRL.SRC. -/
def changeSrc (s : State) (v : Nat) : State :=
  let old := s.merSrc
  let s := s.setF F.MER_CTRL_SRC v
  if srcOf v = old then s
  else
    let s : State := { s.undated with mer := { s.undated.mer with odd := none, slew := 0, onAlt := false, switching := false, omitted := false } }
    let s := s.setF F.MER_STATUS_UPSTREAM_RECKONING 0
    if s.merState < 3 then
      if srcOf v = 2 then ({ s with mer := { s.mer with tick := 0 } }).setMer 3 else s.setMer 0
    else s.setMer (if srcOf v = 2 then 3 else 4)

def execSrc (v : BitVec 2) (s : State) : Host.Outcome State Fault Refusal := .next (changeSrc s v.toNat)

/-- MER_TICK_READ (R62): a read of MER.TICK_LO latches COUNT_HI. -/
def latchTick (s : State) : State := s.set48 R.MER_TICK_LO R.MER_TICK_HI s.mer.tick

def execMerTickRead (s : State) : Host.Outcome State Fault Refusal := .next (latchTick s)

/-! ### TICK frames (R301–R303) -/

/-- The receiver switches to ALT_PORT (R38). -/
def switchSource (s : State) : State :=
  { s.undated with mer := { s.undated.mer with onAlt := true, switching := true } }.setF F.MER_STATUS_RELAY_SWITCH 1

/-- ALT_EN is 1 and the receiver is not on ALT_PORT yet (R38). -/
def State.mayswitch (s : State) : Bool := decide (s.merSrc = 1) && s.bit F.MER_CTRL_ALT_EN && !s.mer.onAlt

/-- The link loss criterion is met on port `p` (R303, R38). On the source port the reference is lost; with ALT_EN, and TICK
frames that are not reckoned on ALT_PORT, the receiver switches to that port; a loss of ALT_PORT leaves it waiting for RELAY_PORT. -/
def missTick (s : State) (p : Nat) : State :=
  let s := { s with mer := { s.mer with alive := setBit s.mer.alive p false, missed := setBit s.mer.missed p true } }
  if s.merSrc ≠ 1 ∨ s.merPort ≠ p then s
  else
    let alt := s.f F.MER_CTRL_ALT_PORT
    let s' := loseReference s
    if s.mer.onAlt then { s' with mer := { s'.mer with onAlt := false, switching := false } }
    else if s.mayswitch ∧ alt < 6 ∧ s.mer.alive.getLsbD alt then switchSource s'
    else s'

/-- LOSS (R34, R303): the criteria of R34 are met; for a link source they are met on the port that supplies the TICK frames (R38). -/
def execLoss (s : State) : Host.Outcome State Fault Refusal :=
  .next (
    match s.merSrc with
    | 0 => loseReference s
    | 1 => missTick s s.merPort
    | _ => s)

/-- The moment to which a TICK frame is dated (R302): its arrival less LNK.DELAY and PHASE, in 2^-16 ns. -/
def dateOf (s : State) (p : PortNo) (f : TickFrame) : Int :=
  (s.mer.time : Int) + f.since.toNat - 256 * s.f (F.LNK_DELAY_ONEWAY p.val) - f.phase.toNat

/-- The local count at a moment: that of the local tick nearest to it, ticks MER.PERIOD apart. -/
def countAt (s : State) (at_ : Int) : BitVec 48 :=
  let per : Int := (s.reg R.MER_PERIOD).toNat
  if per = 0 then s.mer.tick else s.mer.tick + BitVec.ofInt 48 ((2 * (at_ - s.mer.time) + per) / (2 * per))

/-- The mean period between two dated ticks, by their counts (R302). -/
def periodOf (a b : BitVec 48 × Int) : Option Word :=
  let n := (b.1 - a.1).toInt
  if n ≤ 0 then none else some (BitVec.ofInt 32 ((b.2 - a.2) / n))

/-- A period differs by more than 1 % (R303) from the trimmed one, in ACQUIRING from the mean of those seen so far (R33); where there is
none, it does not. -/
def offPeriod (s : State) (m : Word) : Bool :=
  let t := if s.merState = 1 then meanOf s.mer.periods else (s.reg R.MER_PERIOD).toNat
  decide (t ≠ 0) && decide (t < 100 * (if m.toNat < t then t - m.toNat else m.toNat - t))

/-- The mark frame of 65,536 ticks in which a dated tick lies. -/
def frameOf (a : BitVec 48 × Int) : Nat := a.1.toNat / 65536

/-- A dated tick begins a mark frame: the first one of it, after a dated tick of the frame before. -/
def beginsFrame (a b : BitVec 48 × Int) : Bool := decide (frameOf b = (frameOf a + 1) % 2 ^ 32)

/-- A tick dated in ALIGNED whose count is not ignored (R52): where it begins a mark frame, the mean period of the frame it completes. A frame
of which no tick is dated is not received, nor is the one after it complete. -/
def countFrame (s : State) (d : BitVec 48 × Int) : State × Option Word :=
  let begins := (s.mer.agreed.map (fun a => beginsFrame a d)).getD false
  let same := (s.mer.agreed.map (fun a => decide (frameOf a = frameOf d))).getD false
  let mean := if begins then s.mer.frame0.bind (fun a => periodOf a d) else none
  ({ s with mer := { s.mer with agreed := some d, frame0 := if begins then some d else if same then s.mer.frame0 else none } }, mean)

/-- A TICK frame of the source dates a tick (R302): four in a row that imply a period more than 1 % off meet the loss criterion (R303); it
serves as a mark (R35, R54), and one that completes a mark frame gives the trimmed period (R52). -/
def dateTick (s : State) (p : PortNo) (f : TickFrame) : State :=
  let s := if s.mer.datedOn.toNat = p.val then s
    else { s.undated with mer := { s.undated.mer with datedOn := BitVec.ofNat 3 p.val } }
  let d := (f.count, dateOf s p f)
  let implied := s.mer.dated.bind (fun a => periodOf a d)
  let off := (implied.map (offPeriod s)).getD false
  let four := off && s.mer.offs == 3
  let all := s.mer.periods ++ implied.toList
  let s := { s with mer := { s.mer with dated := some d, periods := all.drop (all.length - 1024),
                                        offs := if off then s.mer.offs + 1 else 0 } }
  if four then missTick s p.val
  else
    let delta := f.count - countAt s d.2
    match s.merState with
    | 0 => s.setMer 1
    | 4 => if s.mer.switching then realign { s with mer := { s.mer with switching := false } } delta else s
    | 3 =>
      let (s, mean) := if s.disagrees delta then (s, none) else countFrame s d
      takeMark { s with mer := { s.mer with switching := false } } delta mean
    | _ => takeMark { s with mer := { s.mer with switching := false, agreed := some d, frame0 := none } } delta none

/-- Ticks between TICK frames on a port: values below 16 act as 16 (R301, R306). -/
def State.tickInterval (s : State) (p : Nat) : Nat := max 16 (s.f (F.LNK_TICK_CFG_INTERVAL p))

/-- A TICK frame arrives: the port's intervals are counted from here (R303). -/
def noteHeard (s : State) (p : Nat) : State :=
  { s with mer := { s.mer with heardAt := SMap.set none s.mer.heardAt p (some s.mer.elapsed), lateBy := SMap.set 0 s.mer.lateBy p 0 } }

/-- The port comes UP (R303): its intervals are counted from here, and those that passed meanwhile are not missed. -/
def listenAnew (s : State) (p : Nat) : State :=
  if (SMap.get none s.mer.heardAt p).isSome then noteHeard s p else s

/-- A tick passes: an interval that ends with it without a TICK frame is missed (R303). -/
def missIntervals (s : State) : State :=
  foldS (List.range 6) s (fun s p =>
    match SMap.get none s.mer.heardAt p with
    | none => s
    | some t =>
      let n := s.tickInterval p
      if s.f (F.LNK_STATUS_STATE p) ≠ 5 ∨ (s.mer.elapsed - t).toNat ≤ n then s
      else
        { s with mer := { s.mer with heardAt := SMap.set none s.mer.heardAt p (some (t + BitVec.ofNat 48 n)),
                                     lateBy := SMap.update 0 s.mer.lateBy p (· + 1) } }.bump (F.LNK_TICK_STAT_MISSES p) 1)

/-- TICK_FRAME (R302, R36–R38): a frame received on port `p`; the first one that is not reckoned on ALT_PORT after the loss of RELAY_PORT switches to
it, and one from the port that is the source dates a tick. -/
def execTickFrame (p : PortNo) (f : TickFrame) (s : State) : Host.Outcome State Fault Refusal :=
  let s := noteHeard (s.bump (F.LNK_TICK_STAT_RX_FRAMES p.val) 1) p.val
  let s := { s with mer := { s.mer with alive := setBit s.mer.alive p.val (!f.reckoned), missed := setBit s.mer.missed p.val false } }
  let s := if s.mayswitch ∧ ¬ f.reckoned ∧ s.f F.MER_CTRL_ALT_PORT = p.val ∧ s.mer.missed.getLsbD (s.f F.MER_CTRL_RELAY_PORT) then switchSource s else s
  .next (
    if s.merSrc ≠ 1 ∨ s.merPort ≠ p.val then s
    else dateTick ({ s with mer := { s.mer with hops := f.hops } }.setF F.MER_STATUS_UPSTREAM_RECKONING f.reckoned.toNat) p f)

/-- Missed intervals that meet the loss criterion (R303): 0 and 1 act as 2. -/
def State.missLimit (s : State) (p : Nat) : Nat := max 2 (s.f (F.LNK_TICK_CFG_MISS_N p))

/-- TICK_MISS (R303): MISS_N intervals have passed without a TICK frame, each of them counted once. -/
def execTickMiss (p : PortNo) (s : State) : Host.Outcome State Fault Refusal :=
  let s := s.bump (F.LNK_TICK_STAT_MISSES p.val) (s.missLimit p.val - SMap.get 0 s.mer.lateBy p.val)
  .next (missTick (noteHeard s p.val) p.val)

end Sys2Proof.Machine
end

