-- ==== Sys2Proof/Machine/Loop.lean ====
section
/-! DEFINITION. The adaptive-voltage loop and the slip budget (R56–R60, R440, R441). -/

namespace Sys2Proof.Machine

/-- A region takes part in its quadrant's loop (R57). -/
def takesPart (s : State) (rg : Rg) : Bool := decide (2 ≤ s.rf rg F.FIX_STATUS_STATE) && decide (s.rf rg F.FIX_STATUS_STATE ≤ 4)

/-- A margin in units of 1/1,024 of the region's job cycle (R57). -/
def marginUnits (s : State) (rg : Rg) (m : BitVec 20) : Int :=
  let ticks := match s.jobOf rg with | some j => (s.job j).ticks.toNat | none => 0
  (m.toInt * 64) / ticks

/-- QMIN of a quadrant (R57): none where no region that takes part has fixed in the interval. -/
def qmin (s : State) (q : Nat) : Option Int :=
  (quadRegions q).foldl (fun (a : Option Int) rg =>
    if takesPart s rg then
      match (s.rgn rg).fix.helmMin with
      | none => a
      | some m => some (match a with | none => marginUnits s rg m | some v => min v (marginUnits s rg m))
    else a) none

/-- Package power is at PWR.CAP (R440). -/
def atCap (s : State) : Bool :=
  decide (98 * min 4200 (max 1000 (s.f F.PWR_CAP_DW)) ≤ 100 * s.f F.PWR_POWER_NOW)

/-- VQ moved by `d` mV within 600–900 mV (R59), with the state that the loop reports. -/
def moveVq (s : State) (q : Nat) (d : Int) (st : Nat) : State :=
  let v : Int := s.f (F.PWR_QSTAT_VQ q) + d
  if v < 600 then (s.setVq q 600).setF (F.MER_LOOP_STATE q) 4
  else if 900 < v then (s.setVq q 900).setF (F.MER_LOOP_STATE q) 5
  else (s.setVq q v.toNat).setF (F.MER_LOOP_STATE q) st

/-- The rule table of one quadrant (R58, R441). Below RUN the loop is idle and VQ held (R430). -/
def loopQuadrant (s : State) (q : Nat) : State :=
  if ¬ (quadRegions q).any (takesPart s) ∨ s.f F.PWR_STATUS_STATE ≠ 0 then s.setF (F.MER_LOOP_STATE q) 0
  else
    let old := fromField 12 (s.f (F.MER_LOOP_QMIN q))
    let m := match qmin s q with | some v => max (-2048) (min v 2047) | none => old
    let s := s.setF (F.MER_LOOP_QMIN q) (toField 12 m)
    let lo : Int := s.f (F.MER_WIN_LO q)
    let hi : Int := s.f (F.MER_WIN_HI q)
    if s.bit (F.MER_WIN_FREEZE q) then s.setF (F.MER_LOOP_STATE q) 6
    else if s.bit F.PWR_STATUS_THR_TEMP then
      moveVq s q (if s.f F.THM_TEMP_MAX_SRC / 16 = q then -10 else -5) 3
    else if s.bit F.PWR_STATUS_THR_CAP then moveVq s q (-5) 3
    else if m < lo ∧ atCap s then s.setF (F.MER_LOOP_STATE q) 2
    else if m < 0 then moveVq s q 20 1
    else if m < lo then moveVq s q 5 1
    else if hi < m then moveVq s q (-5) 1
    else s.setF (F.MER_LOOP_STATE q) 1

/-- LOOP_INTERVAL (R58): the rule table applies to each quadrant, and the helm's minima begin anew (R56). -/
def execLoopInterval (s : State) : Host.Outcome State Fault Refusal :=
  let s := foldS [0, 1, 2, 3] s loopQuadrant
  .next (foldS allRegions s (fun s rg =>
    if (s.rgn rg).fix.helmMin.isSome then s.onRgn rg (fun r => { r with fix := { r.fix with helmMin := none } }) else s))

/-- Region fixes in a budget window (R60). -/
def windowSize : Nat := 1000000

/-- BUDGET_WINDOW (R60): the window of a quadrant closes; over budget it is reported, and while OVERRIDE is 0 the loop's window is
adapted. -/
def execBudgetWindow (q : Quad) (s : State) : Host.Outcome State Fault Refusal :=
  let n := q.toNat
  .next (
    if SMap.get 0 s.windowFixes n < windowSize then s
    else
      let slips := s.f (F.MER_QSLIP_SLIPS n)
      let budget := s.f F.MER_SLIP_BUDGET_BUDGET
      let lo := s.f (F.MER_WIN_LO n)
      let s' := { s with windowFixes := SMap.set 0 s.windowFixes n 0 }.setF (F.MER_QSLIP_SLIPS n) 0
      let s' :=
        if budget < slips then
          let s' := s'.setF F.MER_STATUS_BUDGET_OVER (s'.f F.MER_STATUS_BUDGET_OVER ||| 2 ^ n)
          (s'.bump (F.MER_QSLIP_OVER n) 1).ibi 0x02 0 (2 ^ n)
        else s'
      if s.bit (F.MER_WIN_OVERRIDE n) then s'
      else
        let lo := if budget < slips then min (lo + 4) 200 else if 4 * slips < budget then max (lo - 1) 4 else lo
        (s'.setF (F.MER_WIN_LO n) lo).setF (F.MER_WIN_HI n) (lo + 40))

end Sys2Proof.Machine
end

