-- ==== Sys2Proof/Machine/GpioPins.lean ====
section
/-! DEFINITION. The hub GPIO's pins: which peripheral claims which pin, and the park between functions (R394, R395). -/

namespace Sys2Proof.Machine

/-- The claims of the enabled peripherals, the highest priority first, as (peripheral, pin): 1 UART, 2 SPI, 3 fan 0, 4 fan 1,
5 capture (R394). `f` is GPIO.FUNC. -/
def pinClaims (f : Nat) : List (Nat × Nat) :=
  let on (i : Nat) (l : List (Nat × Nat)) : List (Nat × Nat) := if f.testBit i then l else []
  on 0 (if f.testBit 1 then [(1, 10), (1, 11)] else [(1, 0), (1, 1)]) ++
  on 2 ([(2, 2), (2, 3), (2, 4), (2, 5)] ++ on 3 [(2, 11)]) ++
  on 4 [(3, 6), (3, 7)] ++
  on 5 [(4, 8), (4, 9)] ++
  on 6 (if f.testBit 7 then [(5, 7)] else [(5, 10)])

/-- The function of pin `i`: its highest claimant, or 0 for plain GPIO (R394). -/
def pinFunction (f i : Nat) : Nat := (((pinClaims f).find? (fun c => c.2 == i)).map (·.1)).getD 0

/-- A peripheral loses a pin to a higher priority (R394). -/
def pinConflict (f : Nat) : Bool := (pinClaims f).any (fun c => pinFunction f c.2 != c.1)

/-- GPIO.FUNC takes a new value (R394, R395): every pin whose function changes is parked, and a lost pin is a conflict. -/
def changeFunc (s : State) (v : Nat) : State :=
  let old := s.f ⟨R.GPIO_FUNC, 0, 8⟩
  let moved : BitVec 12 := BitVec.ofNat 12 (packKey ((List.range 12).map (fun i => ((pinFunction old i != pinFunction v i).toNat, 1))))
  let s := s.setF ⟨R.GPIO_FUNC, 0, 8⟩ v
  let s := if pinConflict (v % 256) then s.setF F.GPIO_FUNC_STAT_CONFLICT 1 else s
  { s with gpio := { s.gpio with parked := s.gpio.parked ||| moved } }

/-- The counts that GPIO.UART_STAT shows. -/
def showUart (s : State) : State :=
  (s.setF F.GPIO_UART_STAT_RX_COUNT s.gpio.uartRx.length).setF F.GPIO_UART_STAT_TX_FREE (16 - s.gpio.uartTx.length)

/-- What DORMANT takes from the peripherals (R400): queued data and the byte in transfer. -/
def losePeripherals (s : State) : State :=
  (showUart { s with gpio := { s.gpio with uartRx := [], uartTx := [], spi := none } }).setF F.GPIO_SPI_DATA_BUSY 0

end Sys2Proof.Machine
end

