-- ==== Sys2Proof/Machine/Fabric.lean ====
section
/-! DEFINITION. The compass sweep and the broadcasts of a fabric (R307–R321). -/

namespace Sys2Proof.Machine

/-! ### What a DISCOVER says (R308) -/

/-- A field of data flit `i` of a DISCOVER. -/
def discField (m : Packet) (i lo w : Nat) : Nat := (m.data.getD i 0).toNat / 2 ^ lo % 2 ^ w

def discUid (m : Packet) : BitVec 64 := BitVec.ofNat 64 (discField m 0 0 64)
def discPort (m : Packet) : Nat := discField m 0 64 3
def discType (m : Packet) : Nat := discField m 0 67 3
def discCand (m : Packet) : Nat := discField m 0 70 2
def discCv (m : Packet) : Bool := discField m 0 72 1 == 1
def discCoord (m : Packet) : Nat := discField m 0 73 12
def discSize (m : Packet) : Nat := discField m 0 85 12
def discSknown (m : Packet) : Nat := discField m 0 97 3
def discWrap (m : Packet) : Nat := discField m 0 100 3
def discEpoch (m : Packet) : Nat := discField m 0 103 8
def discLclass (m : Packet) : Nat := discField m 0 112 2
def discLuid (m : Packet) : BitVec 64 := BitVec.ofNat 64 (discField m 1 0 64)
def discOrigin (m : Packet) : Entry := BitVec.ofNat 64 (discField m 1 64 64)
/-- Ring entry i as [0] DOWN and [5:1] AGE. -/
def discRing (m : Packet) (i : Nat) : BitVec 6 := BitVec.ofNat 6 (discField m 2 (6 * i) 6)

/-- The layout of R308: the header, the reserved bits, PORT 6, and LUID = 0 while COORD is not valid. -/
def discSound (m : Packet) : Bool :=
  decide (m.cmd = 0x21) && decide (m.dest = 0) && decide (m.tag = 0) && decide (m.epoch = 0) && decide (m.addr = 0) &&
  decide (m.len = 3) && decide (m.data.length = 3) && decide (m.poison = 0) &&
  decide (m.src.toNat = if discCv m then 4096 * discCoord m else 0) &&
  decide (discPort m ≠ 6) && decide (discField m 0 114 14 = 0) && decide (discField m 2 109 19 = 0) &&
  (discCv m || decide (discLuid m = 0))

/-! ### The sweep's state -/

/-- The package's own candidacy for lodestar (R311). -/
def State.ownClass (s : State) : Nat :=
  if s.bit F.FAB_CTRL_NOMINATE then 2 else if s.bit F.FAB_STATUS_STRAP then 1 else 0

/-- The adopted lodestar's unique ID. -/
def State.luid (s : State) : BitVec 64 := BitVec.ofNat 64 ((s.reg R.FAB_LUID_LO).toNat + 2 ^ 32 * (s.reg R.FAB_LUID_HI).toNat)

/-- The digit of the own coordinate in dimension d. -/
def State.ownDigit (s : State) (d : Nat) : Nat := coordAt (s.f F.FAB_ID_COORD) d

/-- A coordinate with the digit of dimension d at `v` modulo 16. -/
def coordPut (c d v : Nat) : Nat := c - 16 ^ (2 - d) * coordAt c d + 16 ^ (2 - d) * (v % 16)

/-- What R313 watches for change: the coordinate, the sizes, the roles and the adopted lodestar. -/
def fabView (s : State) : List Nat :=
  [s.f F.FAB_ID_COORD, s.f F.FAB_STATUS_COORD_VALID, s.f F.FAB_SIZE_SIZE, s.f F.FAB_SIZE_WRAP, s.fab.known.toNat, s.luid.toNat] ++
  (List.range 6).map s.role

/-- A settled sweep in which something has changed is sweeping again (R313). -/
def unsettle (before s : State) : State :=
  if s.f F.FAB_STATUS_SWEEP = 1 ∧ fabView before ≠ fabView s then s.setF F.FAB_STATUS_SWEEP 0 else s

/-- The package enters SHAPE_ERR (R313): it reports it by IBI and keeps its coordinate. -/
def conflict (s : State) : State :=
  let s := s.setF F.FAB_STATUS_CONFLICT 1
  if s.f F.FAB_STATUS_SWEEP = 2 then s else (s.setF F.FAB_STATUS_SWEEP 2).ibi 0x0D 7 2

/-! ### Roles (R309) -/

/-- The role of a port: of an UP port from its latest DISCOVER; a QUIET port keeps its role, any other has none. -/
def roleOf (s : State) (p : Nat) : Nat :=
  if s.link p = 6 then s.role p
  else if s.link p ≠ 5 then 0
  else
    match SMap.get none s.fab.heard p with
    | none => 0
    | some m =>
      if discType m ≠ 0 then 2
      else if discPort m ≠ p + 1 - 2 * (p % 2) then 3
      else if discCv m ∧ s.bit F.FAB_STATUS_COORD_VALID ∧ discLuid m ≠ s.luid then 3
      else 1

/-- The role of one port is taken; a mis-wire is reported. -/
def setRole (s : State) (p : Nat) : State :=
  let n := roleOf s p
  let o := s.role p
  let s := (s.setF (F.FAB_NBR_ROLE p) n).setF (F.LNK_STATUS_STRAY p) (if n = 3 then 1 else 0)
  let s := if n ≠ 2 then (s.setF (F.FAB_NBR_LEAF_VALID p) 0).setF (F.FAB_NBR_LEAF_COORD p) 0 else s
  if n = 3 ∧ o ≠ 3 then (s.setF F.FAB_STATUS_MISWIRE 1).ibi 0x0D p (s.f F.FAB_STATUS_SWEEP) else s

def setRoles (s : State) : State := foldS (List.range 6) s setRole

/-! ### Sizes and ring tables (R312, R317) -/

/-- The size of dimension d is known. -/
def State.sizeKnown (s : State) (d : Nat) : Bool := s.fab.known.getLsbD d

/-- An offer of a size merges into the size of dimension d (R312). -/
def offerSize (s : State) (d n : Nat) (wrap : Bool) : State :=
  let w := (s.f F.FAB_SIZE_WRAP).testBit d
  let put (s : State) : State :=
    let s := s.setF F.FAB_SIZE_SIZE (coordPut (s.f F.FAB_SIZE_SIZE) d (n - 1))
    let s := s.setF F.FAB_SIZE_WRAP (s.f F.FAB_SIZE_WRAP % 2 ^ d + (if wrap then 2 ^ d else 0) +
      2 ^ (d + 1) * (s.f F.FAB_SIZE_WRAP / 2 ^ (d + 1)))
    { s with fab := { s.fab with known := setBit s.fab.known d true } }
  if ¬ s.sizeKnown d then put s
  else if wrap ∧ ¬ w then put s
  else if wrap ∧ w then (if s.fabSize d = n then s else conflict s)
  else if w then s
  else if s.fabSize d < n then put s else s

/-- What a package with a coordinate offers itself, in every dimension: position 0 is its own origin, and an end whose dP is not RING
knows the length of its line. -/
def ownOffers (s : State) : State :=
  if ¬ s.bit F.FAB_STATUS_COORD_VALID then s
  else foldS (List.range 3) s (fun s d =>
    let s := if s.ownDigit d = 0 then { s with fab := { s.fab with origin := SMap.set 0 s.fab.origin d Config.uid } } else s
    if s.role (2 * d) ≠ 1 then offerSize s d (s.ownDigit d + 1) false else s)

/-- The entry of a ring table that the two neighbours' entries give: the lower AGE, on equal AGE DOWN, one older. -/
def mergeRing (a b : Option (BitVec 6)) : BitVec 6 :=
  let age (e : BitVec 6) : Nat := e.toNat / 2
  let older (e : BitVec 6) : BitVec 6 := BitVec.ofNat 6 (e.toNat % 2 + 2 * min 31 (age e + 1))
  match a, b with
  | none, none => 63
  | some x, none => older x
  | none, some y => older y
  | some x, some y => if age x < age y then older x else if age y < age x then older y else older (x ||| (y &&& 1))

/-- The ring table of dimension d and FAB.RING_DOWN, from the own ports and the neighbours' latest DISCOVERs (R317). -/
def setRing (s : State) (d : Nat) : State :=
  if ¬ s.bit F.FAB_STATUS_COORD_VALID ∨ ¬ s.sizeKnown d then s.setF (F.FAB_RING_DOWN_DOWN d) 0
  else
    let z := s.fabSize d
    let c := s.ownDigit d
    let up (p : Nat) : Bool := s.link p == 5 && s.role p == 1
    let heard (p i : Nat) : Option (BitVec 6) :=
      if s.role p = 1 then (SMap.get none s.fab.heard p).map (fun m => discRing m i) else none
    let entry (i : Nat) : BitVec 6 :=
      if i = c % z ∨ i = (c + z - 1) % z then
        if (i = c % z → up (2 * d)) ∧ (i = (c + z - 1) % z → up (2 * d + 1)) then 0 else 1
      else mergeRing (heard (2 * d) i) (heard (2 * d + 1) i)
    let es := (List.range z).map entry
    let down := (es.zipIdx.filter (fun e => e.1.getLsbD 0 || decide (62 ≤ e.1.toNat))).map (fun e => 2 ^ e.2)
    let s := { s with fab := { s.fab with ring := es.zipIdx.foldl (fun (m : SMap (BitVec 6)) (e : BitVec 6 × Nat) => SMap.set 0 m (16 * d + e.2) e.1) s.fab.ring } }
    s.setF (F.FAB_RING_DOWN_DOWN d) down.sum

def setRings (s : State) : State := foldS (List.range 3) s setRing

/-- Roles, sizes and ring tables are brought up to date after an event of the sweep. -/
def sweepUpdate (before s : State) : State := unsettle before (setRings (ownOffers (setRoles s)))

/-! ### The lodestar (R311) -/

/-- The coordinate, the sizes and the ring tables are discarded. -/
def discardSweep (s : State) : State :=
  let s := (s.setF F.FAB_STATUS_COORD_VALID 0).setF F.FAB_ID_COORD 0
  let s := ((s.setF F.FAB_SIZE_SIZE 0).setF F.FAB_SIZE_WRAP 0).setF F.FAB_STATUS_LODESTAR 0
  let s := foldS (List.range 3) s (fun s d => s.setF (F.FAB_RING_DOWN_DOWN d) 0)
  let s := foldS (List.range 6) s (fun s p => (s.setF (F.FAB_NBR_LEAF_VALID p) 0).setF (F.FAB_NBR_LEAF_COORD p) 0)
  { s with fab := { s.fab with known := 0, origin := [], ring := [] } }

/-- A candidate of a class with a unique ID is heard of: the highest class is adopted, and within it the lowest unique ID. -/
def hearCandidate (s : State) (cls : Nat) (uid : BitVec 64) : State :=
  let mine := s.fab.lclass.toNat
  if cls = 0 ∨ cls = 3 then s
  else if uid = s.luid ∧ 0 < mine then { s with fab := { s.fab with lclass := BitVec.ofNat 2 (max cls mine) } }
  else if cls < mine ∨ (cls = mine ∧ s.luid.toNat ≤ uid.toNat) then
    if uid = Config.uid then s.setF F.FAB_STATUS_MULTI_LODE 1 else s
  else
    let s := discardSweep s
    let s := (s.setReg R.FAB_LUID_LO (bitsAt uid 0 32)).setReg R.FAB_LUID_HI (bitsAt uid 32 32)
    let s := ({ s with fab := { s.fab with lclass := BitVec.ofNat 2 cls } }).setF F.FAB_STATUS_SWEEP (if s.bit F.FAB_STATUS_CONFLICT then 2 else 0)
    if uid = Config.uid then (s.setF F.FAB_STATUS_LODESTAR 1).setF F.FAB_STATUS_COORD_VALID 1
    else if s.ownClass ≠ 0 then s.setF F.FAB_STATUS_MULTI_LODE 1 else s

/-- The package's own candidacy may have changed (R311). -/
def considerSelf (s : State) : State := sweepUpdate s (hearCandidate s s.ownClass Config.uid)

/-- The sweep starts afresh (R313): the package is its own only candidate, if it is one. -/
def beginSweep (s : State) : State :=
  let s := discardSweep s
  let s := ((s.setReg R.FAB_LUID_LO 0).setReg R.FAB_LUID_HI 0).setF F.FAB_STATUS_SWEEP 3
  let s := { s with fab := { s.fab with lclass := 0, heard := [] } }
  let s := s.setF F.FAB_STATUS_CONFLICT 0
  let s := hearCandidate s s.ownClass Config.uid
  setRings (ownOffers (setRoles s))

/-- SWEEP (R313): a write of 1 to FAB.CTRL.SWEEP. -/
def execSweep (s : State) : Host.Outcome State Fault Refusal := .next (beginSweep s)

/-! ### DISCOVER (R308–R312) -/

/-- The procedure of R312 for a DISCOVER on RING port `p`. -/
def learnCoord (s : State) (p : Nat) (m : Packet) : State :=
  let d := p / 2
  let s :=
    if p % 2 = 1 ∧ discCv m ∧ discLuid m = s.luid ∧ 0 < s.fab.lclass.toNat then
      let up := coordAt (discCoord m) d + 1
      let prop := coordPut (discCoord m) d up
      let s :=
        if ¬ s.bit F.FAB_STATUS_COORD_VALID then (s.setF F.FAB_ID_COORD prop).setF F.FAB_STATUS_COORD_VALID 1
        else if s.ownDigit d = 0 ∧ discOrigin m = Config.uid then offerSize s d up true
        else if prop ≠ s.f F.FAB_ID_COORD then conflict s else s
      if s.ownDigit d ≠ 0 then { s with fab := { s.fab with origin := SMap.set 0 s.fab.origin d (discOrigin m) } } else s
    else s
  foldS (List.range 3) s (fun s e =>
    if (discSknown m).testBit e then offerSize s e (coordAt (discSize m) e + 1) ((discWrap m).testBit e) else s)

/-- The registers of a neighbour (R323). -/
def noteNeighbour (s : State) (p : Nat) (m : Packet) : State :=
  let s := (s.setF (F.FAB_NBR_PEER_PORT p) (discPort m)).setF (F.FAB_NBR_PEER_TYPE p) (discType m)
  let s := (s.setF (F.FAB_NBR_PEER_COORD p) (discCoord m)).setF (F.FAB_NBR_PEER_CV p) (discCv m).toNat
  let s := s.setF (F.FAB_NBR_PEER_EPOCH p) (discEpoch m)
  (s.setReg (R.FAB_NBR_1 p) (bitsAt (discUid m) 0 32)).setReg (R.FAB_NBR_2 p) (bitsAt (discUid m) 32 32)

/-- DISCOVER (R308–R312, R317): a DISCOVER received on an UP port. -/
def execDiscover (p : PortNo) (m : Packet) (s : State) : Host.Outcome State Fault Refusal :=
  .next (
    if s.link p.val ≠ 5 then s
    else
      let s := { s with arrived := s.arrived.erase m }.bump F.FAB_DISC_CNT_RX 1
      if ¬ discSound m then s.bump F.FAB_DISC_CNT_BAD 1
      else
        let b := s
        let s := noteNeighbour { s with fab := { s.fab with heard := SMap.set none s.fab.heard p.val (some m) } } p.val m
        let s := hearCandidate s (discCand m) (discUid m)
        let s := if discLuid m = 0 then s else hearCandidate s (discLclass m) (discLuid m)
        let s := setRoles s
        let s := if s.role p.val = 1 then learnCoord s p.val m else s
        sweepUpdate b s)

/-- The DISCOVER that the hub sends on port `p` (R308). -/
def discoverOf (s : State) (p : Nat) : Packet :=
  let d := p / 2
  let cv := s.bit F.FAB_STATUS_COORD_VALID
  let f0 := packKey [(Config.uid.toNat, 64), (p, 3), (0, 3), (s.ownClass, 2), (cv.toNat, 1), (s.f F.FAB_ID_COORD, 12),
    (s.f F.FAB_SIZE_SIZE, 12), (s.fab.known.toNat, 3), (s.f F.FAB_SIZE_WRAP, 3), (s.f F.FAB_ID_EPOCH, 8),
    (if s.f F.FAB_STATUS_SWEEP = 1 then 1 else 0, 1), (if cv then s.fab.lclass.toNat else 0, 2)]
  let f1 := packKey [(if cv then s.luid.toNat else 0, 64), ((SMap.get 0 s.fab.origin d).toNat, 64)]
  let f2 := packKey ((List.range 16).map (fun i => ((SMap.get 0 s.fab.ring (16 * d + i)).toNat, 6)) ++
    [(s.f (F.FAB_NBR_LEAF_COORD p), 12), (s.f (F.FAB_NBR_LEAF_VALID p), 1)])
  { dest := 0, src := BitVec.ofNat 24 (4096 * s.f F.FAB_ID_COORD), cmd := 0x21, tag := 0, len := 3, epoch := 0, vc := 0, addr := 0,
    data := [BitVec.ofNat 128 f0, BitVec.ofNat 128 f1, BitVec.ofNat 128 f2], poison := 0 }

/-- DISCOVER_SEND (R308): the interval, or a change in the sweep, sends a DISCOVER on an UP port. -/
def execDiscoverSend (p : PortNo) (s : State) : Host.Outcome State Fault Refusal :=
  .next (if s.link p.val = 5 then sendOn s p.val (discoverOf s p.val) false else s)

/-! ### Settling (R313–R315) -/

/-- The sum of the ring distances of a coordinate from the lodestar (R314). -/
def hopsHome (s : State) (c : Nat) : Nat :=
  ((List.range 3).map (fun d => min (coordAt c d) (s.fabSize d - coordAt c d))).sum

/-- A settled package assigns a coordinate to a leaf, or refuses it (R315). -/
def assignLeaf (s : State) (p : Nat) : State :=
  if s.role p ≠ 2 then s
  else
    let d := p / 2
    let z := s.fabSize d
    let a := s.ownDigit d
    let v := if p % 2 = 0 ∧ a = z - 1 ∧ z ≤ 15 then some z else if p % 2 = 1 ∧ a = 0 ∧ z ≤ 14 then some 15 else none
    match v with
    | some v => (s.setF (F.FAB_NBR_LEAF_COORD p) (coordPut (s.f F.FAB_ID_COORD) d v)).setF (F.FAB_NBR_LEAF_VALID p) 1
    | none => ((s.setF (F.FAB_NBR_LEAF_COORD p) 0).setF (F.FAB_NBR_LEAF_VALID p) 0).setF F.FAB_STATUS_LEAF_REFUSED 1

/-- MER.CTRL as a package that settles writes it (R314). -/
def autoMer (s : State) : State :=
  let ports := List.range 6
  let mask (q : Nat → Bool) : Nat := ((ports.filter q).map (2 ^ ·)).sum
  if s.bit F.FAB_STATUS_LODESTAR then s.setF F.MER_CTRL_RELAY_EN (mask (fun p => s.role p == 1 || s.role p == 2))
  else
    let h := hopsHome s (s.f F.FAB_ID_COORD)
    let hp (p : Nat) : Option Nat := (s.peerCoord p).map (hopsHome s)
    let ring (p : Nat) : Bool := s.role p == 1 && s.link p == 5
    let cands := [1, 0, 3, 2, 5, 4].filter (fun p => ring p && (hp p).map (· + 1) == some h)
    let s := s.setF F.MER_CTRL_RELAY_EN (mask (fun p => s.role p == 2 || (s.role p == 1 && hp p == some (h + 1))))
    let s := match cands with | p :: _ => s.setF F.MER_CTRL_RELAY_PORT p | [] => s
    let s := match cands with
      | _ :: p :: _ => (s.setF F.MER_CTRL_ALT_PORT p).setF F.MER_CTRL_ALT_EN 1
      | _ => s.setF F.MER_CTRL_ALT_EN 0
    changeSrc s 1

/-- SETTLED (R313): a coordinate and all sizes, no conflict, and no change for SETTLE µs. -/
def execSettled (s : State) : Host.Outcome State Fault Refusal :=
  .next (
    if s.f F.FAB_STATUS_SWEEP ≠ 0 ∨ ¬ s.bit F.FAB_STATUS_COORD_VALID ∨ s.fab.known ≠ 7 ∨ s.bit F.FAB_STATUS_CONFLICT then s
    else
      let s := s.setF F.FAB_STATUS_SWEEP 1
      let s := foldS (List.range 6) s assignLeaf
      if s.bit F.FAB_CTRL_AUTO_MER then autoMer s else s)

/-! ### Broadcasts (R211, R320, R321) -/

/-- A broadcast goes out on every RING and LEAF port but `skip`, each copy on the stage of its port (R319); the count of copies. -/
def flood (s : State) (p : Packet) (skip : Option Nat) : State × Nat :=
  let ports := (List.range 6).filter (fun q => s.link q = 5 && (s.role q == 1 || s.role q == 2) && !decide (skip = some q))
  (foldS ports s (fun s q => sendOn s q (({ p with vc := 0 } : Packet).stage (hubStage s q p)) false), ports.length)

/-- A broadcast that this package makes: DEST, TAG and ADDR are not stated and stay free. -/
def broadcastOf (s : State) (cmd : BitVec 6) (flit : Flit) : State × Packet :=
  let (x, s) := s.draw 74
  (s, { dest := bitsAt x 0 24, src := BitVec.ofNat 24 (4096 * s.f F.FAB_ID_COORD), cmd := cmd, tag := bitsAt x 24 10, len := 1,
        epoch := 0, vc := 0, addr := bitsAt x 34 40, data := [flit], poison := 0 })

/-- A START applies to its job, or with ALL to every job with a region on the package (R210). -/
def applyStarts (s : State) (tick : BitVec 48) (j : Job) (all : Bool) : State :=
  if all then foldS ((List.range 64).map (BitVec.ofNat 6)) s (fun s j => applyStart s j tick) else applyStart s j tick

/-- A package remembers the last 8 STARTs it has seen (R320). -/
def rememberStart (s : State) (key : BitVec 128) : State :=
  let l := s.fab.starts ++ [key]
  { s with fab := { s.fab with starts := l.drop (l.length - 8) } }

/-- The data flit of a START (R211). -/
def startFlit (tick : BitVec 48) (j : Job) (all : Bool) : Flit :=
  BitVec.ofNat 128 (packKey [(tick.toNat, 48), (j.toNat, 6), (all.toNat, 1)])

/-- A broadcast may be taken from the port: RING, or LEAF with LEAF_CTRL_EN (R320, R321). -/
def controlPort (s : State) (p : Nat) : Bool := s.role p == 1 || (s.role p == 2 && s.bit F.FAB_CTRL_LEAF_CTRL_EN)

/-- START (R320): a START packet received on a port. -/
def execStart (p : Packet) (port : PortNo) (s : State) : Host.Outcome State Fault Refusal :=
  let flit : Flit := p.data.getD 0 0
  let key : BitVec 128 := (bitsAt flit 0 55 : BitVec 55).zeroExtend 128
  .next (
    if s.link port.val ≠ 5 then s
    else
      let s := { s with arrived := s.arrived.erase p }
      if s.f F.FAB_STATUS_SWEEP ≠ 1 then (s.bump F.FAB_DROP_BCAST_DROP 1).setF F.CFG_STATUS_START_MISSED 1
      else if ¬ controlPort s port.val ∨ nodeCoord p.src ≠ 0 ∨ p.poison ≠ 0 then s.bump F.FAB_DROP_BCAST_DROP 1
      else if key ∈ s.fab.starts then s.bump F.FAB_BCAST_DUPS 1
      else
        let (s, n) := flood (rememberStart s key) p (some port.val)
        applyStarts (s.bump F.FAB_BCAST_RELAYED n) (bitsAt flit 0 48) (bitsAt flit 48 6) (flit.getLsbD 54))

/-- FABRIC_RESET_CMD (R321): a write of 1 to FAB.CTRL.FABRIC_RESET. -/
def execFabricResetCmd (s : State) : Host.Outcome State Fault Refusal :=
  .next (
    if ¬ s.bit F.FAB_STATUS_LODESTAR then s.setF F.FAB_STATUS_RESET_IGNORED 1
    else
      let (s, p) := broadcastOf s 0x23 (Config.uid.zeroExtend 128)
      let s := (flood s p none).1
      { s with fab := { s.fab with resetDue := true } })

/-- FABRIC_RESET (R321): a FABRIC_RESET packet received on a port; `upFor1ms` says that the port has been UP for at least 1 ms. -/
def execFabricReset (p : Packet) (port : PortNo) (upFor1ms : Bool) (s : State) : Host.Outcome State Fault Refusal :=
  .next (
    if s.link port.val ≠ 5 then s
    else
      let s := { s with arrived := s.arrived.erase p }
      let uid : BitVec 64 := bitsAt (p.data.getD 0 0) 0 64
      if s.fab.lclass = 0 ∨ uid ≠ s.luid ∨ ¬ upFor1ms ∨ ¬ controlPort s port.val ∨ p.poison ≠ 0 then
        (s.bump F.FAB_DROP_BCAST_DROP 1).setF F.FAB_STATUS_RESET_IGNORED 1
      else if s.fab.resetDue then s.bump F.FAB_BCAST_DUPS 1
      else
        let (s, n) := flood s p (some port.val)
        { s.bump F.FAB_BCAST_RELAYED n with fab := { s.fab with resetDue := true } })

end Sys2Proof.Machine
end

