-- ==== Sys2Proof/Machine/Faults.lean ====
section
/-! DEFINITION. Counting and self-test: classification of faults, the taint log's clear, BIST in service and on demand, spares and
the repair map (R450–R471). -/

namespace Sys2Proof.Machine

/-! ### Classification (R452, R453) -/

/-- A key is declared lasting (R453): the lasting log, the count, the status bit, the interrupt, and with AUTO_TEST the test of a
region whose memory is concerned. -/
def declareLasting (s : State) (src l : Nat) (key : Word) (now : Nat) : State :=
  let i := (s.f F.FLT_LOG_PTR_LASTING + 1) % 16
  let s := s.setReg (R.FLT_LASTING_LOG i) (faultKey [(src, 5), (l, 3)])
  let s := (s.setReg (R.FLT_LASTING_LOG_1 i) key).setReg (R.FLT_LASTING_LOG_2 i) (BitVec.ofNat 32 now)
  let s := (s.setF F.FLT_LOG_PTR_LASTING i).bump (F.FLT_CNT_LASTING src l) 1
  let s := (s.setF F.FLT_STATUS_LASTING 1).ibi 0x13 l src
  if s.bit F.FLT_CTRL_AUTO_TEST ∧ src ∈ [0, 1, 3, 4] then
    { s with bist := { s.bist with queued := setBit s.bist.queued (16 * l + key.toNat % 16) true } }
  else s

/-- W of a source in ms (R452). -/
def State.classWindow (s : State) (src : Nat) : Nat := 100 * s.f (F.FLT_CLASS_W src)

/-- The tracking table with entry `e` taken by its predecessor `old`. -/
def putTrack (ts : List Track) (old e : Track) : List Track := ts.map (fun x => if x = old then e else x)

/-- The entry of the table with the oldest first event. -/
def oldestTrack (ts : List Track) : Option Track :=
  ts.foldl (fun m x => match m with
    | none => some x
    | some y => if x.first < y.first then some x else some y) none

/-- The procedure of R452 for one key: the table and whether its entry count reached N. An unused entry is the oldest. -/
def classify (s : State) (src : BitVec 5) (l : Nat) (key : Word) (now : Nat) : State :=
  let n := s.f (F.FLT_CLASS_N src.toNat)
  let fresh : Track := ⟨src, BitVec.ofNat 3 l, key, 1, now⟩
  let reach (s : State) (c : Nat) : State := if c = n then declareLasting s src.toNat l key now else s
  if n = 0 then s
  else
    match s.tracks.find? (fun x => decide (x.src = src ∧ x.loc.toNat = l ∧ x.key = key)) with
    | some e =>
      if now - e.first ≤ s.classWindow src.toNat then
        let c := satAdd e.count 1
        reach { s with tracks := putTrack s.tracks e { e with count := c } } c.toNat
      else reach { s with tracks := putTrack s.tracks e fresh } 1
    | none =>
      if s.tracks.length < 512 then reach { s with tracks := s.tracks ++ [fresh] } 1
      else
        match oldestTrack s.tracks with
        | none => s
        | some e =>
          let s := if now - e.first ≤ s.classWindow e.src.toNat then s.setF F.FLT_STATUS_TRACK_OVF 1 else s
          reach { s with tracks := putTrack s.tracks e fresh } 1

/-- CLASSIFY (R452): the helm takes the oldest key from the fault queue of location `l`. -/
def execClassify (l : BitVec 3) (since : Word) (s : State) : Host.Outcome State Fault Refusal :=
  .next (
    match SMap.get [] s.faultQ l.toNat with
    | [] => s
    | (src, key) :: t => classify { s with faultQ := SMap.set [] s.faultQ l.toNat t } src l.toNat key (s.msAt since))

/-- TAINT_CLEAR (R471): NEWEST becomes 0x3FF and COUNT 0; the next entry goes to index 0. -/
def execTaintClear (mask : BitVec 4) (s : State) : Host.Outcome State Fault Refusal :=
  .next (foldS (List.range 4) s (fun s q =>
    if mask.getLsbD q then ((s.setF (F.TNT_PTR_NEWEST q) 0x3FF).setF (F.TNT_PTR_WRAPPED q) 0).setF (F.TNT_COUNT_ENTRIES q) 0
    else s))

/-! ### Spares and the repair map (R467, R468) -/

/-- A macro as the low 18 bits of a repair-map entry name it. -/
def macroOf (f : BistFail) : Nat := packKey [(f.q.toNat, 2), (f.g.toNat, 4), (f.hub.toNat, 1), (f.mac.toNat, 11)]

/-- A repair-map entry (R468). -/
def repairEntry (mac kind index spare : Nat) : BitVec 64 :=
  BitVec.ofNat 64 (packKey [(mac, 18), (kind, 2), (index, 16), (spare, 4)])

def entryMacro (e : BitVec 64) : Nat := e.toNat % 2 ^ 18
def entryIndex (e : BitVec 64) : Nat := e.toNat / 2 ^ 20 % 2 ^ 16
def entrySpare (e : BitVec 64) : Nat := e.toNat / 2 ^ 36 % 16

/-- The macro of a failing spare, as `macroOf` names it. -/
def spareMacro (x : SpareFail) : Nat := packKey [(x.q.toNat, 2), (x.g.toNat, 4), (x.hub.toNat, 1), (x.mac.toNat, 11)]

/-- The lowest spare of a kind of a macro, of `n` in all, that is free and does not itself fail. -/
def freeSpare (bad : List SpareFail) (map : List (BitVec 64)) (mac kind n : Nat) : Option Nat :=
  (List.range n).find? (fun i =>
    !map.any (fun e => decide (entryMacro e = mac ∧ entryKind e = kind ∧ entrySpare e = i)) &&
      !bad.any (fun x => decide (spareMacro x = mac ∧ x.col.toNat = kind ∧ x.index.toNat = i)))

/-- How many different rows of the failing bits (row, bit) have bit position `b`. -/
def rowsWith (f : List (Nat × Nat)) (b : Nat) : Nat := ((f.filter (fun x => x.2 == b)).map (·.1)).eraseDups.length

/-- The row that holds most of the failing bits, the lowest of equals. -/
def worstRow (f : List (Nat × Nat)) : Nat :=
  let score (r : Nat) : Nat := (f.filter (fun x => x.1 == r)).length
  ((f.map (·.1)).eraseDups.foldl (fun m r => match m with
    | none => some r
    | some x => if score x < score r ∨ (score x = score r ∧ r < x) then some r else some x) none).getD 0

/-- The assignment of spares (R467) for the failing bits `f` of a macro: the new entries, and the bits left uncovered. -/
def assignSpares (bad : List SpareFail) (mac : Nat) :
    Nat → List (BitVec 64) → List (Nat × Nat) → List (BitVec 64) × List (Nat × Nat)
  | 0, _, f => ([], f)
  | n + 1, map, f =>
    if f = [] then ([], [])
    else
      let col := ((f.map (·.2)).eraseDups.filter (fun b => decide (3 ≤ rowsWith f b))).min?
      match col, freeSpare bad map mac 1 2, freeSpare bad map mac 0 4 with
      | some b, some i, _ =>
        let e := repairEntry mac 1 b i
        let r := assignSpares bad mac n (map ++ [e]) (f.filter (fun x => x.2 != b))
        (e :: r.1, r.2)
      | _, _, some i =>
        let row := worstRow f
        let e := repairEntry mac 0 row i
        let r := assignSpares bad mac n (map ++ [e]) (f.filter (fun x => x.1 != row))
        (e :: r.1, r.2)
      | _, _, none => ([], f)

/-- A new entry is appended to the map, or acts unstored once the map is full (R468). -/
def storeRepair (s : State) (e : BitVec 64) : State :=
  if s.flash.repairs.length < 4096 then
    let s := { s with flash := { s.flash with repairs := s.flash.repairs ++ [e], seq := s.flash.seq + 1 } }
    if s.flash.repairs.length = 4096 then (s.setF F.FLT_STATUS_REPAIR_FULL 1).ibi 0x17 0 0 else s
  else ({ s with bist := { s.bist with unstored := s.bist.unstored ++ [e] } }.setF F.FLT_STATUS_REPAIR_FULL 1).ibi 0x17 0 0

/-- The region of a failing bit. -/
def failRegion (f : BistFail) : Rg := BitVec.ofNat 6 (16 * f.q.toNat + f.g.toNat)

/-! ### Results (R466) -/

/-- A failing bit is counted and, among the first 64 since FLT.BIST_STAT was read, logged (R466). -/
def logFail (s : State) (occasion : Nat) (f : BistFail) (repaired defect : Bool) : State :=
  let s := s.bump F.FLT_BIST_STAT_FAILS 1
  let s := s.noteFault 25 (if f.hub then 4 else f.q.toNat) (faultKey [(f.mac.toNat, 11), (f.g.toNat, 4)])
  let s :=
    if s.bist.logged < 64 then
      let i := (s.f F.FLT_LOG_PTR_BIST + 1) % 64
      let w0 := faultKey [(macroOf f, 18), (f.logic.toNat, 1), (repaired.toNat, 1), (defect.toNat, 1), (occasion, 2)]
      let s := (s.setReg (R.FLT_BIST_LOG i 0) w0).setReg (R.FLT_BIST_LOG i 1) (faultKey [(f.addr.toNat, 16), (f.bit.toNat, 7)])
      let s := (s.setReg (R.FLT_BIST_LOG i 2) s.flash.hours).setF F.FLT_LOG_PTR_BIST i
      { s with bist := { s.bist with logged := s.bist.logged + 1 } }
    else s
  if repaired then s
  else (s.setF F.FLT_STATUS_BIST_FAIL 1).ibi 0x15 (if f.hub then 0xFF else (failRegion f).toNat) (f.mac.toNat % 256)

/-- The row and the bit position of a failing bit (R465). -/
def failPlace (f : BistFail) : Nat × Nat := (f.addr.toNat / 8, f.bit.toNat)

/-- The new entries for the failing bits `fs` of one macro or logic block, and the bits that no spare covers; logic has no spares
(R467). -/
def State.assignment (s : State) (bad : List SpareFail) (fs : List BistFail) : List (BitVec 64) × List (Nat × Nat) :=
  let bits := fs.map failPlace
  if fs.any (·.logic) then ([], bits) else assignSpares bad ((fs.map macroOf).headD 0) 6 s.repairs bits

/-- The results of the test of one macro or logic block: spares are assigned, or the region is defective or the hub failed (R467);
and whether a failure is left unrepaired. -/
def macroResult (s : State) (occasion : Nat) (bad : List SpareFail) (fs : List BistFail) : State × Bool :=
  match fs with
  | [] => (s, false)
  | f :: _ =>
    let (new, left) := s.assignment bad fs
    let s := foldS new s storeRepair
    let fatal := decide (left ≠ [])
    let defect := fatal && !f.hub
    let s := if defect ∧ ¬ s.defective (failRegion f) then storeRepair s (repairEntry (macroOf f % 64) 3 0 0) else s
    let s := if fatal && f.hub then s.setF F.FLT_STATUS_HUB_FAIL 1 else s
    (foldS fs s (fun s x => logFail s occasion x (!left.contains (failPlace x)) defect), fatal)

/-- The results of a test on one occasion, macro by macro, and whether a failure is left unrepaired. -/
def testResults (s : State) (occasion : Nat) (r : BistReport) : State × Bool :=
  ((r.fails.map macroOf).eraseDups).foldl (fun x m =>
    let y := macroResult x.1 occasion r.spares (r.fails.filter (fun f => macroOf f == m))
    (y.1, x.2 || y.2)) (s, false)

/-- The result of a test in FLT.BIST_STAT.STATE (R470): PASS, FAIL or INVALID. -/
def testState (valid failed : Bool) : Nat := if !valid then 4 else if failed then 3 else 2

/-! ### Testing at start-up and shutdown (R460, R461) -/

/-- BIST of the whole package begins (R460, R470). -/
def beginPackageTest (s : State) (occasion : Nat) : State :=
  let s := (s.setF F.FLT_BIST_STAT_STATE 1).setF F.FLT_BIST_STAT_OCCASION occasion
  { s with bist := { s.bist with
      began := s.now
      lost := (List.range 5).foldl (fun m k => SMap.set [] m k (if s.dieSound k then [] else [(s.now, none)])) [] } }

/-- The conditions of R461 held on die `k` at time `t` of the BIST in progress. -/
def State.heldAt (s : State) (k t : Nat) : Bool :=
  (SMap.get [] s.bist.lost k).all (fun x => !(decide (x.1 ≤ t) && (match x.2 with | some e => decide (t < e) | none => true)))

/-- A step of the BIST in progress, by its macro or logic block, is valid (R461): its test clock measured in range, and the conditions held
before and after it. -/
def State.stepValid (s : State) (offClock : List (BitVec 18)) (f : BistFail) : Bool :=
  let k := if f.hub then 4 else f.q.toNat
  let (at_, len) := Config.bistStep s.bist.began (macroOf f)
  let start := min s.now (s.bist.began + at_)
  !offClock.contains (BitVec.ofNat 18 (macroOf f)) && s.heldAt k start && s.heldAt k (min s.now (start + len))

/-- BIST of the whole package ends: the results of its valid steps count, and the test is INVALID where a step may have been invalid. Whether it
passed, every failure repaired and each repair stored (R462). -/
def endPackageTest (s : State) (occasion : Nat) (r : BistReport) (offClock : List (BitVec 18)) : State × Bool :=
  let valid := offClock.isEmpty && (List.range 5).all (fun k => (SMap.get [] s.bist.lost k).isEmpty)
  let (s, failed) := testResults s occasion { r with fails := r.fails.filter (s.stepValid offClock) }
  let s := s.setF F.FLT_BIST_STAT_STATE (testState valid failed)
  ({ s with bist := { s.bist with lost := [] } }, valid && !failed && s.bist.unstored.isEmpty)

/-! ### Testing in service and on demand (R463, R464) -/

/-- How many regions are under test. -/
def State.testCount (s : State) : Nat := (allRegions.filter s.testing).length

/-- The helm may start a test (R463): fewer than MAX_PAR regions are under test, and power leaves the headroom. -/
def State.testRoom (s : State) : Bool :=
  decide (s.testCount < max 1 (s.f F.FLT_ISB_MAX_PAR)) &&
    decide (s.f F.PWR_POWER_NOW + 10 * s.f F.FLT_ISB_HEADROOM ≤ min (max (s.f F.PWR_CAP_DW) 1000) 4200)

/-- The fix engine is OFF, ARMED or HELD (R463). -/
def Region.restful (r : Region) : Bool := decide (r.f F.FIX_STATUS_STATE ∈ [0, 1, 5])

/-- The conditions of a step in service (R461) that the state shows: VQ, the loop's state and the region's temperature. -/
def State.testSound (s : State) (rg : Rg) : Bool :=
  let q := quadOf rg
  let vq := s.f (F.PWR_QSTAT_VQ q)
  decide (700 ≤ vq) && decide (vq ≤ 900) && decide (s.f (F.MER_LOOP_STATE q) ≠ 2) && decide (s.f (F.MER_LOOP_STATE q) ≠ 3) &&
    s.sensorCool rg.toNat

/-- No easel core of the region is in RUN (R463). -/
def Region.coresIdle (r : Region) : Bool := allCores.all (fun k => decide (r.f (F.EAS_STATUS_STATE k.val) ≠ 1))

/-- The place of a region's pass in progress in the record of tested blocks. -/
def State.passKey (s : State) (rg : Rg) : Nat := if s.bist.demand.getLsbD rg.toNat then 64 + rg.toNat else rg.toNat

/-- The blocks tested in service and on demand that the pass has still to test (R460, R463, R465): memory macros 0–1,160 and logic blocks
1,200–1,217. -/
def State.blocksLeft (s : State) (rg : Rg) : List Nat :=
  (List.range 1218).filter (fun b => (decide (b < 1161) || decide (1200 ≤ b)) && !(SMap.get 0 s.bist.tested (s.passKey rg)).getLsbD b)

/-- The step in progress of a region's logic has been broken off (R464): its fix engine is no longer at rest, or an event of a core came. -/
def State.stepBroken (s : State) (rg : Rg) : Bool := !(s.rgn rg).restful || s.bist.broken.getLsbD rg.toNat

/-- Those that may be tested now: logic only where the fix engine is at rest and, in service, no core is in RUN. -/
def State.nextBlocks (s : State) (rg : Rg) : List Nat :=
  (s.blocksLeft rg).filter (fun b =>
    decide (b < 1161) || ((s.rgn rg).restful && (s.bist.demand.getLsbD rg.toNat || (s.rgn rg).coresIdle)))

/-- The helm takes up a block of a region under test: the spare bank holds its contents or its scan state (R463). Which block is
next is free. Where only logic is left that may not be tested now, the pass continues later. -/
def takeBlock (s : State) (rg : Rg) : State :=
  match s.nextBlocks rg with
  | [] => abandonTest s rg
  | l =>
    let (v, s) := s.draw 11
    let b := l.getD (v.toNat % l.length) 0
    { s with bist := { s.bist with bank := SMap.set none s.bist.bank rg.toNat (some (BitVec.ofNat 11 b)),
                                   unsound := setBit s.bist.unsound rg.toNat (!s.testSound rg) } }

/-- A pass over a region begins or continues (R460, R464): the on-demand one that waits, or one in service. -/
def beginTest (s : State) (rg : Rg) (demand : Bool) : State :=
  let s := ((s.setTesting rg true).setF F.FLT_BIST_STAT_STATE 1).setF F.FLT_BIST_STAT_OCCASION (if demand then 3 else 2)
  let n := rg.toNat
  let s := { s with bist := { s.bist with queued := if demand then s.bist.queued else setBit s.bist.queued n false,
                                          asked := if demand then setBit s.bist.asked n false else s.bist.asked,
                                          demand := setBit s.bist.demand n demand, broken := setBit s.bist.broken n false } }
  let s := if s.blocksLeft rg = [] then { s with bist := { s.bist with tested := SMap.set 0 s.bist.tested (s.passKey rg) 0 } } else s
  takeBlock s rg

/-- The block in the spare bank has been tested. -/
def noteTested (s : State) (rg : Rg) : State :=
  match SMap.get none s.bist.bank rg.toNat with
  | none => s
  | some b =>
    { s with bist := { s.bist with tested := SMap.update 0 s.bist.tested (s.passKey rg) (fun m => setBit m b.toNat true) } }

/-- A failure of the pass in progress is left unrepaired. -/
def State.passBad (s : State) (rg : Rg) : Bool :=
  (if s.bist.demand.getLsbD rg.toNat then s.bist.badAsked else s.bist.bad).getLsbD rg.toNat

def State.setPassBad (s : State) (rg : Rg) (v : Bool) : State :=
  if s.bist.demand.getLsbD rg.toNat then { s with bist := { s.bist with badAsked := setBit s.bist.badAsked rg.toNat v } }
  else { s with bist := { s.bist with bad := setBit s.bist.bad rg.toNat v } }

/-- A pass is complete (R463, R470). -/
def completeTest (s : State) (rg : Rg) (failed : Bool) : State :=
  let s := ((s.setPassBad rg false).setTesting rg false).setF F.FLT_BIST_STAT_STATE (testState true failed)
  let s := s.setF F.FLT_BIST_STAT_OCCASION (s.occasionOf rg)
  { s with bist := { s.bist with tested := SMap.set 0 s.bist.tested (s.passKey rg) 0,
                                 demand := setBit s.bist.demand rg.toNat false, bank := SMap.set none s.bist.bank rg.toNat none,
                                 passed := SMap.set none s.bist.passed rg.toNat (some s.flash.hours) } }

/-- The region's quadrant and the package are up and on no way to a deeper state, in which the helm would abandon the step (R464). -/
def State.testable (s : State) (rg : Rg) : Bool :=
  decide (s.pwr.boot = .up) && [s.drainOf 4, s.drainOf (quadOf rg)].all (fun d => match d with
    | .enter _ | .gate _ | .shutdown => false
    | .none | .reset | .hold _ => true)

/-- INTERVAL hours have passed since the region's last complete pass, or it has had none (R463). -/
def State.passDue (s : State) (rg : Rg) : Bool :=
  let n := s.f F.FLT_ISB_INTERVAL
  decide (n ≠ 0) &&
    match SMap.get none s.bist.passed rg.toNat with
    | some h => decide (h.toNat + n ≤ s.flash.hours.toNat)
    | none => true

/-- ISB_START (R463): the helm starts a test of a region that is eligible, because the interval has passed (`due`) or a test of it is
queued; or the on-demand test that waits. -/
def execIsbStart (rg : Rg) (due : Bool) (s : State) : Host.Outcome State Fault Refusal :=
  let r := s.rgn rg
  let demand := s.bist.asked.getLsbD rg.toNat
  let wanted := if due then s.passDue rg else s.bist.queued.getLsbD rg.toNat
  let eligible := demand || (s.bit F.FLT_CTRL_ISB_EN && wanted && r.coresIdle && !r.bit F.RGN_CTRL_ISOLATE &&
    decide (s.f F.PWR_STATUS_STATE ≤ 1) && s.clocked rg)
  .next (if eligible ∧ r.restful ∧ s.testRoom ∧ s.testable rg ∧ ¬ s.testing rg then beginTest s rg demand else s)

/-- BIST_GO (R460): an on-demand test of a region. It waits while the limits on tests in parallel or its fix engine hold it back, and
while an in-service test of the region runs. -/
def execBistGo (rg : Rg) (s : State) : Host.Outcome State Fault Refusal :=
  let s := (s.setF F.FLT_BIST_CMD_QUAD (quadOf rg)).setF F.FLT_BIST_CMD_RGN (numOf rg)
  .next (
    if s.testing rg ∧ s.bist.demand.getLsbD rg.toNat then s
    else if ¬ s.testing rg ∧ (s.rgn rg).restful ∧ s.testRoom ∧ s.testable rg then beginTest s rg true
    else { s with bist := { s.bist with asked := setBit s.bist.asked rg.toNat true } })

/-- What a test step of the region's logic delayed proceeds (R464): an interrupt of a core, and the start of a cycle. -/
def proceedAfter (s : State) (rg : Rg) : State := beginLate (allCores.foldl (fun s k => serveInterrupt s rg k) s) rg

/-- A logic step that was broken off ends: its state is restored, what it delayed proceeds, and another block is taken up (R464). -/
def restoreLogic (s : State) (rg : Rg) : State :=
  let s := { s with bist := { s.bist with bank := SMap.set none s.bist.bank rg.toNat none, broken := setBit s.bist.broken rg.toNat false } }
  takeBlock (proceedAfter s rg) rg

/-- The results of a valid step (R463, R466, R467): failing bits of the block in the spare bank. The step that leaves no block of the pass gives
the pass its result. A region marked defective is isolated (R458). -/
def endStep (s : State) (rg : Rg) (fails : BistReport) : State :=
  let block := SMap.get none s.bist.bank rg.toNat
  let own := fails.fails.filter (fun f => !f.hub && decide (failRegion f = rg) && decide (block = some f.mac))
  let was := s.defective rg
  let (s, left) := testResults (noteTested s rg) (s.occasionOf rg) ⟨own, fails.spares⟩
  let bad := s.passBad rg || left
  let s := s.setPassBad rg bad
  let s := if s.blocksLeft rg = [] then completeTest s rg bad else takeBlock s rg
  if s.defective rg && !was then uncontained s rg 9 else s

/-- BIST_STEP (R461, R463, R464): a step of a region under test ends; `valid`: the test clock measured in range; `last`: it is the last of the
pass. A logic step that was broken off counts nothing. An invalid step makes no repair and counts nothing, and the pass continues later. -/
def execBistStep (rg : Rg) (fails : BistReport) (valid last : Bool) (s : State) : Host.Outcome State Fault Refusal :=
  .next (
    if ¬ s.testing rg then s
    else if s.logicStep rg ∧ s.stepBroken rg then restoreLogic s rg
    else if ¬ valid ∨ s.bist.unsound.getLsbD rg.toNat ∨ ¬ s.testSound rg then proceedAfter (abandonTest s rg) rg
    else if last ≠ decide ((noteTested s rg).blocksLeft rg = []) then s
    else endStep s rg fails)

/-- BIST_ABORT (R464): every step in progress is abandoned as for lost conditions. -/
def execBistAbort (s : State) : Host.Outcome State Fault Refusal :=
  .next (foldS allRegions s (fun s rg => proceedAfter (abandonTest s rg) rg))

/-- REPAIR_CLEAR (R468): with ARM 0xC5, from the I3C target only, the map is emptied. -/
def execRepairClear (by_ : Writer) (arm : BitVec 8) (s : State) : Host.Outcome State Fault Refusal :=
  .next (
    if by_ = .i3c ∧ arm = 0xC5 then
      { s with flash := { s.flash with repairs := [], seq := s.flash.seq + 1 } }
    else s)

end Sys2Proof.Machine
end

