-- ==== Sys2Proof/Machine/Coding.lean ====
section
/-! DEFINITION. Frames, codewords and lanes of an Oxdon direction (R276, R277, R279, R280): the frame CRC, the RS(544,514) code, marker
codewords, and what stands on the lanes. -/

namespace Sys2Proof.Machine

/-! ### Frames (R280, R281) -/

/-- One step of the CRC-16 of R280: a stream bit enters the register. -/
def crcStep (reg : BitVec 16) (b : Bool) : BitVec 16 :=
  let r := reg <<< 1
  if xor reg.msb b then r ^^^ 0x1021 else r

/-- The CRC over frame bits 0–527 in stream order. -/
def frameCrc (f : BitVec 544) : BitVec 16 := (List.range 528).foldl (fun r i => crcStep r (f.getLsbD i)) 0xFFFF

/-- The CRC field as it stands in the frame: register bit 15 at frame bit 528. -/
def crcField (f : BitVec 544) : BitVec 16 := (frameCrc f).reverse

/-- A frame of a type, with its SEQ and its payload. -/
def mkFrame (typ seq : Nat) (payload : BitVec 512) : BitVec 544 :=
  let f : BitVec 544 := BitVec.ofNat 544 (packKey [(typ, 4), (seq, 12), (payload.toNat, 512)])
  setBits f 528 16 (crcField f)

def frameType (f : BitVec 544) : Nat := f.toNat % 16
def frameSeq (f : BitVec 544) : BitVec 12 := bitsAt f 4 12
def framePayload (f : BitVec 544) : BitVec 512 := bitsAt f 16 512
def crcOk (f : BitVec 544) : Bool := decide (bitsAt f 528 16 = crcField f)

/-- TYPE codes that name a frame (R281). -/
def typeNamed (t : Nat) : Bool := decide (1 ≤ t ∧ t ≤ 4) || decide (8 ≤ t)

/-! ### The code (R276)

PRESUMED (log 118): the field and the generator polynomial of Clause 91, which the spec names and does not restate. -/

abbrev Symbol := BitVec 10

/-- Multiplication by α in GF(2^10) modulo x^10 + x^3 + 1. -/
def timesAlpha (a : Symbol) : Symbol := if a.msb then (a <<< 1) ^^^ 0x009 else a <<< 1

/-- The product in GF(2^10): `n` bits of `b` from bit 0 upward, at `a`, α·`a`, …. -/
def gfMul : Nat → Symbol → Symbol → Symbol
  | 0, _, _ => 0
  | n + 1, a, b => (if b.getLsbD 0 then a else 0) ^^^ gfMul n (timesAlpha a) (b >>> 1)

/-- α to the power `n`. -/
def alphaPow : Nat → Symbol
  | 0 => 1
  | n + 1 => timesAlpha (alphaPow n)

/-- The product of (x − α^j), j < `n`: its coefficients below the leading 1, the highest first. -/
def generator : Nat → List Symbol
  | 0 => []
  | n + 1 =>
    let g := generator n
    let r := alphaPow n
    List.zipWith (· ^^^ ·) (g ++ [0]) ((1 :: g).map (gfMul 10 r))

/-- The 30 parity symbols of a message, its first symbol the highest coefficient. -/
def rsParity (message : List Symbol) : List Symbol :=
  let g := generator 30
  message.foldl (fun (p : List Symbol) m =>
    let c := m ^^^ p.headD 0
    List.zipWith (fun x y => x ^^^ gfMul 10 c y) (p.tail ++ [0]) g) (List.replicate 30 0)

/-- The 514 message symbols of 5,140 stream bits: ten bits each, the first as bit 0. -/
def messageSymbols (m : BitVec 5140) : List Symbol := (List.range 514).map (fun k => bitsAt m (10 * k) 10)

/-- A codeword: 514 message symbols and 30 parity symbols. -/
def codeword (m : BitVec 5140) : List Symbol := messageSymbols m ++ rsParity (messageSymbols m)

/-- The most wrong symbols that the code corrects. -/
def correctable : Nat := 15

/-- Codeword c is a marker codeword (R277). -/
def isMarker (c : BitVec 48) : Bool := decide (c.toNat % 4096 = 0)

/-- The message of marker codeword c of a direction of width `w` (R277). -/
def markerMessage (w : Nat) (c : BitVec 48) : BitVec 5140 :=
  BitVec.ofNat 5140 (packKey ((List.range 480).map (fun k => (0x2A0 + k % w, 10)) ++ [(c.toNat / 4096, 50)]))

/-! ### The stream of a transmitter (R276, R277) -/

/-- A frame joins the stream; whole codewords leave it, a marker before the one whose count is a multiple of 4,096. `w` is the width at a
codeword. -/
def Port.stream (x : Port) (w : BitVec 48 → Nat) (f : BitVec 544) : Port :=
  let bits := x.rest + f.toNat * 2 ^ x.restLen
  let len := x.restLen + 544
  if len < 5140 then { x with rest := bits, restLen := len, words := [] }
  else
    let m : BitVec 5140 := BitVec.ofNat 5140 bits
    let (marks, c) := if isMarker x.cw then ([(x.cw, markerMessage (w x.cw) x.cw)], x.cw + 1) else ([], x.cw)
    { x with rest := bits / 2 ^ 5140, restLen := len - 5140, cw := c + 1, words := marks ++ [(c, m)] }

/-- The width of the transmit direction (R279). -/
def State.txWidth (s : State) (p : Nat) : Nat := if s.bit (F.LNK_STATUS_TX_NARROW p) then 4 else 8

/-! ### Lane operations (R296) -/

def laneFaultKey (p lane : Nat) : Word := faultKey [(p, 3), (lane, 4)]

/-- SPARE at the receiver: the faulty lane's logical lane moves to the standby. -/
def spareLane (s : State) (q l : Nat) : State :=
  let role := s.f (F.LNK_LANE_ROLE q l)
  let s := foldS (List.range 9) s (fun s i => if s.f (F.LNK_LANE_ROLE q i) = 8 then s.setF (F.LNK_LANE_ROLE q i) role else s)
  (s.setF (F.LNK_LANE_OK q l) 0).setF (F.LNK_LANE_ROLE q l) 15

/-- NARROW at the receiver: four logical lanes on the lowest-numbered four good lanes. -/
def narrowLanes (s : State) (q l : Nat) : State :=
  let s := s.setF (F.LNK_LANE_OK q l) 0
  let good := (List.range 9).filter (fun i => s.bit (F.LNK_LANE_OK q i))
  foldS (List.range 9) s (fun s i => s.setF (F.LNK_LANE_ROLE q i) (if i ∈ good.take 4 then good.idxOf i else 15))

/-- SPARE or NARROW at the transmitter. Which of its own lanes the peer's receive lane is it does not learn: the logical lane that moves, or the
lane that fails, is free. -/
def switchTx (s : State) (q : Nat) (op : BitVec 4) : State :=
  let (v, s) := s.draw 4
  let roles := (s.port q).txRole
  let role (l : Nat) : Nat := (SMap.get 15 roles l).toNat
  let bad := ((List.range 9).find? (fun l => role l = v.toNat % 8)).getD 0
  if op = 1 then
    let m := (List.range 9).foldl (fun (m : SMap (BitVec 4)) l =>
      SMap.set 15 m l (if l = bad then 15 else if role l = 8 then BitVec.ofNat 4 (role bad) else SMap.get 15 roles l)) []
    s.onPort q (fun x => { x with txRole := m })
  else
    let good := ((List.range 9).filter (fun l => role l < 8 && l != bad)).take 4
    let m := (List.range 9).foldl (fun (m : SMap (BitVec 4)) l => SMap.set 15 m l (if l ∈ good then BitVec.ofNat 4 (good.idxOf l) else 15)) []
    (s.onPort q (fun x => { x with txRole := m })).setF (F.LNK_STATUS_TX_NARROW q) 1

/-- SPARE or NARROW at the receiver, which records the operation and reports it. -/
def switchRx (s : State) (q : Nat) (o : LaneOp) : State :=
  let l := o.lane.toNat
  let s :=
    if o.op = 1 then ((spareLane s q l).setF (F.LNK_STATUS_SPARE_EVT q) 1).bump (F.LNK_LANE_EVENTS_SPARINGS q) 1
    else (((narrowLanes s q l).setF (F.LNK_STATUS_RX_NARROW q) 1).setF (F.LNK_STATUS_NARROW_EVT q) 1).bump (F.LNK_LANE_EVENTS_NARROWINGS q) 1
  (s.noteFault 15 4 (laneFaultKey q l)).ibi 0x08 q (s.link q)

/-- The operation of a direction with the lowest AT among those whose codeword `c` has reached. -/
def Port.dueIn (x : Port) (rx : Bool) (c : BitVec 48) : Option LaneOp :=
  (x.agreed.filter (fun o => o.rx == rx && decide (o.at_ ≤ c))).foldl (fun m o => match m with
    | some y => if o.at_ < y.at_ then some o else m
    | none => some o) none

/-- The agreed operation that takes effect next: one of the transmit direction before one of the receive direction. -/
def Port.dueOp (x : Port) : Option LaneOp :=
  match x.dueIn false x.cw with
  | some o => some o
  | none => x.dueIn true x.rxCw

/-- An agreed operation takes effect at this end. -/
def switchOne (s : State) (q : Nat) (o : LaneOp) : State :=
  let s := s.onPort q (fun x => { x with agreed := x.agreed.erase o })
  if o.rx then switchRx s q o else switchTx s q o.op

/-- The operations of a direction that codeword `c` brings. -/
def switchDue (s : State) (q : Nat) (rx : Bool) (c : BitVec 48) : State :=
  foldS (s.port q).agreed s (fun s _ =>
    match (s.port q).dueIn rx c with
    | none => s
    | some o => switchOne s q o)

/-- The width of the transmit direction from codeword `c` on (R279, R296). -/
def State.txWidthAt (s : State) (p : Nat) (c : BitVec 48) : Nat :=
  if (s.port p).agreed.any (fun o => !o.rx && o.op == 2 && decide (o.at_ ≤ c)) then 4 else s.txWidth p

/-- The receiver counts the codewords that the frames of the stream fill, past each marker (R276, R277). -/
def Port.countBits (x : Port) : Port :=
  let len := x.rxLen + 544
  if len < 5140 then { x with rxLen := len }
  else { x with rxLen := len - 5140, rxCw := if isMarker (x.rxCw + 1) then x.rxCw + 2 else x.rxCw + 1 }

/-- A frame's bits have come in: at codeword AT the receive direction switches (R296). -/
def hearFrame (s : State) (p : Nat) : State :=
  let s := s.onPort p Port.countBits
  switchDue s p true (s.port p).rxCw

/-! ### The lanes (R274, R276, R279) -/

/-- The PAM4 pairs of a symbol, (bit 2i + 1, bit 2i) for i = 0 to 4. -/
def pam4 (a : Symbol) : List (BitVec 2) := (List.range 5).map (fun i => bitsAt a (2 * i) 2)

/-- The level of a bit pair under the Gray mapping (R274): 0–3 for −3, −1, +1 and +3. -/
def grayLevel (b : BitVec 2) : BitVec 2 := b ^^^ (b >>> 1)

/-- 1/(1 + D) precoding of levels, modulo 4, after a lane that sent `last` (R274). -/
def precoded (last : BitVec 2) : List (BitVec 2) → List (BitVec 2)
  | [] => []
  | g :: t => (g - last) :: precoded (g - last) t

/-- The symbols of a codeword that logical lane `i` of `w` carries. -/
def laneSymbols (w i : Nat) (cw : List Symbol) : List Symbol :=
  (cw.zipIdx.filter (fun x => decide (x.2 % w = i))).map (·.1)

/-- The pairs that codeword `c` with message `m` gives physical lane `l` of a direction of width `w`: those of its logical lane's symbols; the
standby carries a copy of the marker codewords, of one lane's symbols, and nothing else. -/
def Port.lanePairs (x : Port) (w l : Nat) (c : BitVec 48) (m : BitVec 5140) : List (BitVec 2) :=
  let role := (SMap.get 15 x.txRole l).toNat
  let pairs (i : Nat) : List (BitVec 2) := (laneSymbols w i (codeword m)).flatMap pam4
  if role < w then pairs role
  else if role = 8 ∧ isMarker c then pairs (Config.standbyCopy.toNat % w)
  else []

/-- The levels that physical lane `l` sends for them. -/
def Port.laneLevels (x : Port) (w : Nat) (pre : Bool) (l : Nat) (c : BitVec 48) (m : BitVec 5140) : List (BitVec 2) :=
  let g := (x.lanePairs w l c m).map grayLevel
  if pre then precoded (SMap.get 0 x.level l) g else g

/-- The lanes send one codeword, on the lanes and in the width that hold from it on (R296). -/
def sendCodeword (s : State) (p : Nat) (c : BitVec 48) (m : BitVec 5140) : State :=
  let s := switchDue s p false c
  let w := s.txWidth p
  let pre := s.bit (F.LNK_STATUS_PRECODE p)
  s.onPort p (fun x =>
    { x with
      sent := (List.range 9).foldl (fun n l => SMap.update [] n l (· ++ x.laneLevels w pre l c m)) x.sent
      level := (List.range 9).foldl (fun n l => SMap.set 0 n l ((x.laneLevels w pre l c m).getLastD (SMap.get 0 x.level l))) x.level })

/-- A frame is launched: it stands at the transmitter's output and in the stream, and the lanes send the codewords that it completes. -/
def launch (s : State) (p : Nat) (f : BitVec 544) : State :=
  let s := s.onPort p (fun x => { x.stream (s.txWidthAt p) f with out := some f, sent := [] })
  foldS (s.port p).words s (fun s w => sendCodeword s p w.1 w.2)

/-- What physical transmit lane `l` of a port sent with the last frame, as levels 0–3 for −3, −1, +1 and +3. -/
def State.txLane (s : State) (p l : Nat) : List (BitVec 2) := SMap.get [] (s.port p).sent l

/-- The content of a lane's training word (R278). The spec gives its fields; their coding in the 64 symbols it leaves to the ports. -/
structure TrainingWord where
  lane : BitVec 4
  port : BitVec 3
  uid : BitVec 64
  equaliser : BitVec 16
  ok : Bool
  precode : Bool
  deriving DecidableEq, Repr

/-- What transmit lane `l` of a port interleaves with the PRBS13 pattern in DETECT and TRAIN (R278). Which receive lanes are OK before TRAIN
ends, their bit error ratios decide. -/
def State.trainingWord (s : State) (p l : Nat) : Option TrainingWord :=
  if s.f (F.LNK_STATUS_STATE p) = 1 ∨ s.f (F.LNK_STATUS_STATE p) = 2 then
    some { lane := BitVec.ofNat 4 l, port := BitVec.ofNat 3 p, uid := Config.uid, equaliser := Config.equaliserRequest p l s.now,
           ok := decide (s.f (F.LNK_STATUS_STATE p) = 2) && Config.laneTrained p l s.now,
           precode := s.bit (F.LNK_CTRL_PRECODE_ALLOW p) }
  else none

/-- The training word as one number, its fields in their order. -/
def TrainingWord.packed (w : TrainingWord) : Nat :=
  packKey [(w.lane.toNat, 4), (w.port.toNat, 3), (w.uid.toNat, 64), (w.equaliser.toNat, 16), (w.ok.toNat, 1), (w.precode.toNat, 1)]

/-- The PRBS13 generator, x^13 + x^12 + x^2 + x + 1, after `n` bits; bit 0 is the bit that came last. PRESUMED (log 154). -/
def prbs13 (seed : BitVec 13) : Nat → BitVec 13
  | 0 => seed
  | n + 1 =>
    let r := prbs13 seed n
    setBit (r <<< 1) 0 (xor (xor (r.getLsbD 0) (r.getLsbD 1)) (xor (r.getLsbD 11) (r.getLsbD 12)))

/-- Symbol `n` of the PRBS13 pattern as a level: two bits, the first as the upper one, Gray mapped. -/
def prbsLevel (seed : BitVec 13) (n : Nat) : BitVec 2 :=
  let bit (k : Nat) : Nat := ((prbs13 seed (k + 1)).getLsbD 0).toNat
  grayLevel (BitVec.ofNat 2 (2 * bit (2 * n) + bit (2 * n + 1)))

/-- Symbol `n` that transmit lane `l` of a port sends in DETECT and TRAIN (R278): 4,096 symbols of the pattern, then the 64 of the training
word, and so on. -/
def State.trainingLevel (s : State) (p l n : Nat) : Option (BitVec 2) :=
  (s.trainingWord p l).map (fun w =>
    if n % 4160 < 4096 then prbsLevel (Config.prbsSeed p l) (n / 4160 * 4096 + n % 4160)
    else Config.trainingCode w.packed (n % 4160 - 4096))

end Sys2Proof.Machine
end

