-- ==== Sys2Proof/Machine/Links.lean ====
section
/-! DEFINITION. Oxdon links (R272–R304): training, frames, sequence numbers and replay, the frame plan, slot tables, lane faults. -/

namespace Sys2Proof.Machine

/-! ### Link state -/

/-- What training had found of a link is no longer in use: in DOWN, DETECT and OFF no precoding is (R274), and from DETECT on no lane has
passed training (R297). -/
def forgetTraining (s : State) (p st : Nat) : State :=
  let s := if st = 0 ∨ st = 1 ∨ st = 7 then s.setF (F.LNK_STATUS_PRECODE p) 0 else s
  if st = 1 then foldS (List.range 9) s (fun s l => s.setF (F.LNK_LANE_OK p l) 0) else s

/-- A port takes another STATE; leaving UP meets the link loss criterion (R303), and the sweep takes the port's new role (R309). What was
heard on a port is forgotten when the port leaves UP and QUIET. -/
def setLink (s : State) (p st : Nat) : State :=
  let b := s
  let s := if s.link p = 5 ∧ st ≠ 5 then missTick s p else s
  let s := if st = 5 ∧ s.link p ≠ 5 then listenAnew s p else s
  let s := forgetTraining (s.setF (F.LNK_STATUS_STATE p) st) p st
  let s := if st = 5 ∨ st = 6 then s else { s with fab := { s.fab with heard := SMap.set none s.fab.heard p none } }
  sweepUpdate b s

/-- Packets of the transmit queues of which no flit has left. -/
def unlaunched (x : Port) : List TxPacket := x.txPkt.flatMap (fun e => e.2.filter (fun t => decide (t.gone = 0)))

/-- Sequence state, replay buffer, credits and partly carried packets are cleared (R289). Bundles in unreleased frames never arrive. -/
def Port.clearSeq (x : Port) : Port :=
  { x with
    keep := false, seq := 0, exp := 0, replay := [], readAt := 0, rewound := none, tries := 0, nakOut := false, nakDue := false,
    pos := 0, sinceCtrl := 0, ackNew := false, txVc := [], peerVc := [], txPar := [], peerPar := [], rxVc := [], rxPar := [],
    inFlight := [], rxPkt := [], tick := false, propose := none, reply := none, agreed := [], faulty := [], ser := [],
    txPkt := (List.range 4).foldl (fun m v => SMap.set [] m v ((SMap.get [] x.txPkt v).filter (fun t => decide (t.gone = 0)))) [] }

/-- Packets that wait at a port go back to the hub switch for another route; DISCOVERs and broadcasts for the port are dropped (R298). -/
def sendBack (s : State) (p : Nat) : State :=
  let back := (unlaunched (s.port p)).filter (fun t => !(t.packet.cmd == 0x21 || t.packet.cmd == 0x22 || t.packet.cmd == 0x23))
  foldS back (s.onPort p (fun x => { x with txPkt := [] })) (fun s t => s.pushNet 68 10 (t.packet.stage false))

/-- A port goes DOWN in both directions (R298): unreleased frames are lost, and packets that wait go back to the hub switch, responses to
refusals that had waited for a place among them. -/
def goDown (s : State) (p : Nat) : State :=
  let s := (sendBack s p).onPort p (fun x => { x.clearSeq with fails := 0, out := none, sent := [] })
  let s := sendBack (settleDue s p) p
  let s := (setLink s p 0).setF (F.LNK_STATUS_DOWN_EVT p) 1
  s.ibi 0x08 p 0

/-- A port leaves a link that it had, in STATE `st`, to train again, and keeps its sequence state (R289). -/
def Port.leave (x : Port) (st : Nat) : Port :=
  { x with keep := x.keep || st == 5 || st == 6, tick := false, propose := none, reply := none, agreed := [], faulty := [], ser := [],
           nakOut := false, nakDue := false, out := none, sent := [] }

/-- Training starts from DETECT (R278). -/
def beginTraining (s : State) (p : Nat) : State :=
  let st := s.link p
  if ¬ s.bit (F.LNK_CTRL_EN p) ∨ st = 7 then s
  else
    let s := s.onPort p (fun x => x.leave st)
    (setLink s p 1).bump (F.LNK_LANE_EVENTS_TRAINS p) 1

/-- Training fails: after three failures in a row the port goes DOWN, before that it starts again at DETECT (R278). -/
def failTraining (s : State) (p : Nat) : State :=
  let n := (s.port p).fails.toNat + 1
  if 3 ≤ n then goDown s p
  else (setLink (s.onPort p (fun x => { x with fails := BitVec.ofNat 2 n })) p 1).bump (F.LNK_LANE_EVENTS_TRAINS p) 1

/-- Set bits of a mask, the lowest first. -/
def bitsOf (n : Nat) (m : Nat) : List Nat := (List.range n).filter (fun i => m.testBit i)

/-- DETECT_END (R278). -/
def execDetectEnd (p : PortNo) (s : State) : Host.Outcome State Fault Refusal :=
  .next (if s.link p.val = 1 then setLink s p.val 2 else s)

/-- The peer that most of the lanes name in their training words, the first of several (R273). -/
def majorityPeer (words : List (Option LaneWord)) : Option (BitVec 3 × BitVec 64) :=
  let names := words.filterMap (fun w => w.map (fun w => (w.port, w.uid)))
  names.foldl (fun m x =>
    match m with
    | none => some x
    | some y => if names.count y < names.count x then some x else some y) none

/-- The training word of receive lane `l`, where the lane is OK: one that names another peer than the majority has failed (R273). -/
def okWord (words : List (Option LaneWord)) (l : Nat) : Option LaneWord :=
  (words.getD l none).filter (fun w => w.ok && decide (some (w.port, w.uid) = majorityPeer words))

/-- The peer's physical lanes that reach an OK receive lane, as a mask. -/
def okLanes (words : List (Option LaneWord)) : Nat :=
  (((List.range 9).filterMap (okWord words)).map (fun w => w.lane.toNat)).eraseDups.foldl (fun m l => m + 2 ^ l) 0

/-- OK lanes of the receive direction. -/
def okCount (words : List (Option LaneWord)) : Nat := ((List.range 9).filterMap (okWord words)).length

/-- The roles of the lanes of a direction at LOCK, by the sender's physical lane (R279): logical lanes on the lowest-numbered eight or four, and
the standby. -/
def laneRole (ok : Nat) (l : Nat) : Nat :=
  let oks := bitsOf 9 ok
  if ¬ ok.testBit l then 15
  else
    let i := oks.idxOf l
    if 9 ≤ oks.length then (if l = 8 then 8 else i)
    else if oks.length = 8 then i
    else if i < 4 then i else 15

/-- The roles and the width of the transmit direction, from the peer's OK lanes (R279). -/
def setTxLanes (s : State) (p : Nat) (okTx : BitVec 9) : State :=
  let roles := (List.range 9).foldl (fun (m : SMap (BitVec 4)) l => SMap.set 15 m l (BitVec.ofNat 4 (laneRole okTx.toNat l))) []
  (s.onPort p (fun x => { x with txRole := roles })).setF (F.LNK_STATUS_TX_NARROW p) (if (bitsOf 9 okTx.toNat).length < 8 then 1 else 0)

/-- Both ends offer precoding (R274): the peer in the training words of its OK lanes. -/
def precodeAgreed (s : State) (p : Nat) (words : List (Option LaneWord)) : Bool :=
  s.bit (F.LNK_CTRL_PRECODE_ALLOW p) && ((List.range 9).filterMap (okWord words)).all (·.precode)

/-- TRAIN_END (R278, R279): both ends report at least four OK lanes, and the transmitter switches to coded data on them, precoded where both ends
offer it (R274), its codewords counted from 0. What the precoders hold then is free. -/
def execTrainEnd (p : PortNo) (words : List (Option LaneWord)) (okTx : BitVec 9) (s : State) : Host.Outcome State Fault Refusal :=
  .next (
    if s.link p.val ≠ 2 ∨ okCount words < 4 ∨ (bitsOf 9 okTx.toNat).length < 4 then s
    else
      let (v, s) := s.draw 18
      let level := (List.range 9).foldl (fun m l => SMap.set 0 m l (bitsAt v (2 * l) 2)) []
      let s := setTxLanes s p.val okTx
      let s := s.setF (F.LNK_STATUS_PRECODE p.val) (precodeAgreed s p.val words).toNat
      let s := foldS (List.range 9) s (fun s l => s.setF (F.LNK_LANE_OK p.val l) (okWord words l).isSome.toNat)
      setLink (s.onPort p.val (fun x => { x with rest := 0, restLen := 0, cw := 0, words := [], sent := [], level := level })) p.val 3)

/-- The receive lanes take the roles and the polarity that training has learned (R273, R279). -/
def setLanes (s : State) (p : Nat) (words : List (Option LaneWord)) : State :=
  let ok := okLanes words
  foldS (List.range 9) s (fun s l =>
    let w := okWord words l
    let s := s.setF (F.LNK_LANE_OK p l) w.isSome.toNat
    let s := s.setF (F.LNK_LANE_ROLE p l) (match w with | some w => laneRole ok w.lane.toNat | none => 15)
    s.setF (F.LNK_LANE_INVERTED p l) (match w with | some w => w.inverted.toNat | none => 0))

/-- The peer that the training words name is passed to the sweep (R278). -/
def notePeer (s : State) (p : Nat) (words : List (Option LaneWord)) : State :=
  let peer := majorityPeer words
  let s := s.onPort p (fun x => { x with peer := peer })
  match peer with
  | some (_, uid) => (s.setReg (R.FAB_NBR_1 p) (bitsAt uid 0 32)).setReg (R.FAB_NBR_2 p) (bitsAt uid 32 32)
  | none => s

/-- LOCK_END (R278, R279): the width of each direction is fixed; precoding is used where both ends offer it (R274). The markers tell the
receiver which codeword it receives (R277): how far the peer is then is free. -/
def execLockEnd (p : PortNo) (words : List (Option LaneWord)) (okTx : BitVec 9) (precode : Bool) (s : State) :
    Host.Outcome State Fault Refusal :=
  let q := p.val
  let nr := okCount words
  let nt := (bitsOf 9 okTx.toNat).length
  .next (
    if s.link q ≠ 3 then s
    else if nr < 4 ∨ nt < 4 then failTraining s q
    else
      let s := notePeer (setLanes s q words) q words
      let s := setTxLanes (s.setF (F.LNK_STATUS_RX_NARROW q) (if nr < 8 then 1 else 0)) q okTx
      let s := s.setF (F.LNK_STATUS_PRECODE q) (precode && s.bit (F.LNK_CTRL_PRECODE_ALLOW q)).toNat
      let (at_, s) := s.draw 61
      let s := s.onPort q (fun x => { x with rxCw := bitsAt at_ 0 48, rxLen := (bitsAt at_ 48 13 : BitVec 13).toNat % 5140 })
      setLink (s.onPort q (fun x => { x with ctrlOut := 0, ctrlIn := 0, peerSeq := none, sentTs := [], samples := [] })) q 4)

/-- The transmitter rewinds to the peer's EXP (R289): frames before it are released, the others are sent again. Credits count from UP anew
(R284): what the peer has not freed stays used. -/
def Port.resumeAt (x : Port) (peerExp : BitVec 12) : Port :=
  let used (n : Nat) (sent freed : SMap (BitVec 16)) : SMap (BitVec 16) :=
    (List.range n).foldl (fun m i => SMap.set 0 m i (SMap.get 0 sent i - SMap.get 0 freed i)) []
  { x with replay := x.replay.dropWhile (fun f => decide (frameSeq f ≠ peerExp)), readAt := 0, rewound := none, tries := 0,
           txVc := used 4 x.txVc x.peerVc, txPar := used 2 x.txPar x.peerPar, peerVc := [], peerPar := [], rxVc := [], rxPar := [] }

/-- CALIB_END (R278, R289): at least 256 CTRL frames have gone each way, which said what the operands say, and the port is UP. -/
def execCalibEnd (p : PortNo) (peerResume : Bool) (peerExp : BitVec 12) (delay : BitVec 24) (s : State) : Host.Outcome State Fault Refusal :=
  let q := p.val
  let x := s.port q
  .next (
    if s.link q ≠ 4 ∨ x.ctrlOut.toNat < 256 ∨ x.ctrlIn.toNat < 256 ∨ x.peerSeq ≠ some (peerResume, peerExp) ∨
        s.f (F.LNK_DELAY_ONEWAY q) ≠ delay.toNat then s
      else
        let resumed := x.keep && peerResume
        let s := s.onPort q (fun x =>
          let x := if resumed then x.resumeAt peerExp else x.clearSeq
          { x with fails := 0, keep := false, pos := 0, sinceCtrl := 0 })
        let s := if resumed then s.bump (F.LNK_REPLAY_REPLAYS q) 1 else s
        setLink s q 5)

/-- TRAINING_TIMEOUT (R278): TRAIN or LOCK has not ended within 100 ms. -/
def execTrainingTimeout (p : PortNo) (s : State) : Host.Outcome State Fault Refusal :=
  .next (if s.link p.val = 2 ∨ s.link p.val = 3 then failTraining s p.val else s)

/-- LNK_RETRAIN (R278): a write of 1 to LNK.CTRL.RETRAIN. -/
def execLnkRetrain (p : PortNo) (s : State) : Host.Outcome State Fault Refusal :=
  .next (beginTraining (s.onPort p.val (fun x => { x with fails := 0 })) p.val)

/-- LNK_EN (R298): a write of LNK.CTRL.EN; 0 takes the port DOWN. -/
def execLnkEn (p : PortNo) (v : Bool) (s : State) : Host.Outcome State Fault Refusal :=
  let s := s.setF (F.LNK_CTRL_EN p.val) v.toNat
  .next (if v ∨ s.link p.val = 0 then s else goDown s p.val)

/-- The peer of a port begins training (R278): the port trains with it, also from DOWN. -/
def execPeerBeginsTraining (p : PortNo) (s : State) : Host.Outcome State Fault Refusal :=
  .next (if s.link p.val = 1 ∨ s.link p.val = 2 then s else beginTraining s p.val)

/-! ### The transmitter (R284, R286, R290, R292) -/

/-- PLAN as it takes effect: its first 48 set bits (R292). -/
def planOf (s : State) (p : Nat) : List Nat :=
  (bitsOf 64 ((s.reg (R.LNK_PLAN_LO p)).toNat + 2 ^ 32 * (s.reg (R.LNK_PLAN_HI p)).toNat)).take 48

/-- LNK.STATUS.PLAN_CLIPPED for the active PLAN (R292). -/
def setClipped (s : State) (p : Nat) : State :=
  let m := (s.reg (R.LNK_PLAN_LO p)).toNat + 2 ^ 32 * (s.reg (R.LNK_PLAN_HI p)).toNat
  s.setF (F.LNK_STATUS_PLAN_CLIPPED p) (if 48 < (bitsOf 64 m).length then 1 else 0)

/-- The credits left of a buffer of `size` places: those freed since, less those used (R284). -/
def credit (size : Nat) (sent freed : BitVec 16) : Nat := (BitVec.ofNat 16 size + freed - sent).toNat

def Port.vcCredit (x : Port) (v : Nat) : Nat := credit 64 (SMap.get 0 x.txVc v) (SMap.get 0 x.peerVc v)
def Port.parCredit (x : Port) (b : Bool) : Nat := credit 256 (SMap.get 0 x.txPar b.toNat) (SMap.get 0 x.peerPar b.toNat)

/-- The bundles of the next SCHED frame: up to six in their order, as far as the credits of each parity reach. -/
def pickBundles : Nat → Nat → Nat → List Bundle → List Bundle × List Bundle
  | 0, _, _, l => ([], l)
  | _, _, _, [] => ([], [])
  | n + 1, c0, c1, b :: t =>
    let c := if b.parity then c1 else c0
    if c = 0 then
      let (x, y) := pickBundles (n + 1) c0 c1 t
      (x, b :: y)
    else
      let (x, y) := if b.parity then pickBundles n c0 (c1 - 1) t else pickBundles n (c0 - 1) c1 t
      (b :: x, y)

/-- LSTREAM of a bundle at the port by which it leaves (R290). -/
def lstreamOf (b : Bundle) : Nat := 1024 * b.qtag.toNat + 64 * b.xrgn.toNat + b.stream

/-- A position of a SCHED payload (R282). -/
def schedPosition (b : Bundle) : Nat :=
  packKey [(if b.poison then 0 else b.data.toNat, 64), (b.parity.toNat, 1), (lstreamOf b, 12), (1, 1), (b.poison.toNat, 1)]

def schedPayload (bs : List Bundle) : BitVec 512 := BitVec.ofNat 512 (packKey (bs.map (fun b => (schedPosition b, 80))))

/-- A sequenced frame of a type and payload goes into the replay buffer (R286). -/
def Port.sendSeq (x : Port) (typ : Nat) (payload : BitVec 512) : Port :=
  let f := mkFrame typ x.seq.toNat payload
  { x with seq := x.seq + 1, replay := x.replay ++ [f], readAt := x.replay.length + 1 }

/-- The frame that a transmitter has just put into its replay buffer is launched. -/
def launchNew (s : State) (p : Nat) : State :=
  match (s.port p).replay.getLast? with
  | some f => launch s p f
  | none => s

/-- The next flits of a VC for one frame: up to `n`, within the credits, up to a poison flit; and the queue behind them. -/
def pickFlits : Nat → Nat → List TxPacket → List Flit × List TxPacket
  | 0, _, q => ([], q)
  | _, _, [] => ([], [])
  | n + 1, c, t :: q =>
    if c = 0 ∨ t.packet.poisonAt t.gone then ([], t :: q)
    else
      let f := t.packet.flitAt t.gone
      if t.packet.flits ≤ t.gone + 1 then
        let (x, y) := pickFlits n (c - 1) q
        (f :: x, y)
      else
        let (x, y) := pickFlits n (c - 1) ({ t with gone := t.gone + 1 } :: q)
        (f :: x, y)

/-- The flits of the packet at the head of the queue of VC `v` are sent in part. -/
def Port.midPacket (x : Port) (v : Nat) : Bool :=
  match SMap.get [] x.txPkt v with | [] => false | t :: _ => decide (0 < t.gone)

/-- A frame of VC `v` is ready: flits wait, and either four of them have credits or a frame may end before. -/
def Port.pktReady (x : Port) (v : Nat) : Bool :=
  let q := SMap.get [] x.txPkt v
  let c := x.vcCredit v
  match q with
  | [] => false
  | t :: _ =>
    if c = 0 then false
    else if t.packet.poisonAt t.gone then true
    else
      let (fs, rest) := pickFlits 4 c q
      decide (fs.length = 4) || (match rest with | [] => true | u :: _ => decide (u.gone = 0) || u.packet.poisonAt u.gone)

/-- The frame of VC `v`: four flits, padded after a packet's end, or one poison flit alone (R283). Where a poison flit comes next in
mid-packet, the places up to the fourth hold `fill`, as the spec names nothing that could stand there. -/
def Port.sendPkt (x : Port) (v : Nat) (fill : BitVec 512) : Port :=
  let q := SMap.get [] x.txPkt v
  match q with
  | [] => x
  | t :: rest =>
    if t.packet.poisonAt t.gone then
      let q' := if t.packet.flits ≤ t.gone + 1 then rest else { t with gone := t.gone + 1 } :: rest
      ({ x with txPkt := SMap.set [] x.txPkt v q', txVc := SMap.update 0 x.txVc v (· + 1), turn := BitVec.ofNat 2 (v + 1) }).sendSeq (12 + v) 0
    else
      let (fs, q') := pickFlits 4 (x.vcCredit v) q
      let x := { x with txPkt := SMap.set [] x.txPkt v q', txVc := SMap.update 0 x.txVc v (· + BitVec.ofNat 16 fs.length),
                        turn := BitVec.ofNat 2 (v + 1) }
      let n := 128 * fs.length
      let flits := packKey (fs.map (fun f => (f.toNat, 128)))
      x.sendSeq (8 + v) (BitVec.ofNat 512 (flits + if x.midPacket v then 2 ^ n * (fill.toNat / 2 ^ n) else 0))

/-- The VC whose turn it is, among those with a frame ready (R292). -/
def Port.nextVc (x : Port) : Option Nat := ((List.range 4).map (fun i => (x.turn.toNat + i) % 4)).find? (fun v => x.pktReady v)

/-- A CTRL frame is ready (R292). -/
def Port.ctrlReady (x : Port) : Bool :=
  x.nakDue || x.propose.isSome || x.reply.isSome || (x.ackNew && decide (32 ≤ x.sinceCtrl.toNat)) || decide (256 ≤ x.sinceCtrl.toNat)

/-- The timer of the package at a moment `since` after its latest tick (R284): in 2^-8 ns; the spec does not start it at a value, the model
starts it at 0 with the package reset. -/
def State.timer (s : State) (since : Word) : Word := BitVec.ofNat 32 ((s.mer.time + since.toNat) / 256)

/-- The payload of a CTRL frame launched at `ts` (R284). An answer to the peer goes before a proposal of this end's own. -/
def ctrlPayload (x : Port) (calib : Bool) (ts : Word) : BitVec 512 :=
  let op := (x.reply.or x.propose).getD { op := 0, lane := 0, at_ := 0, rx := false }
  BitVec.ofNat 512 (packKey ([((x.exp - 1).toNat, 12), (x.nakDue.toNat, 1), (1, 1), (0, 2)] ++
    (List.range 4).map (fun v => ((SMap.get 0 x.rxVc v).toNat, 16)) ++ (List.range 2).map (fun b => ((SMap.get 0 x.rxPar b).toNat, 16)) ++
    [(ts.toNat, 32), (x.echo.toNat, 32), ((ts - x.echoAt).toNat, 32), (op.op.toNat, 4), (op.lane.toNat, 4), (op.at_.toNat, 48),
     ((calib && x.keep).toNat, 1), (if calib then x.exp.toNat else 0, 12)]))

/-- The transmitter sends a CTRL frame at `since` after the latest tick: a NAK is counted; an answer has then been sent, while a proposal stands
until it is accepted. -/
def sendCtrl (s : State) (p : Nat) (calib : Bool) (since : Word) : State :=
  let ts := s.timer since
  let s := if (s.port p).nakDue then s.bump (F.LNK_REPLAY_NAK_SENT p) 1 else s
  let s := launch s p (mkFrame 4 0 (ctrlPayload (s.port p) calib ts))
  s.onPort p (fun x =>
    { x with nakDue := false, ackNew := false, sinceCtrl := 0, reply := none, sentTs := x.sentTs ++ [ts],
             ctrlOut := if calib ∧ x.ctrlOut.toNat < 256 then x.ctrlOut + 1 else x.ctrlOut })

/-- What the transmitter can send (R292). -/
inductive Ready where
  | replay | sched | ctrl | tick | pkt (v : Nat) | idle
  deriving DecidableEq, Repr

/-- The first ready frame in the column of the position's PLAN bit. A stray port sends no SCHED frame; a full replay buffer holds new
sequenced frames back. -/
def readyFrame (s : State) (p : Nat) : Ready :=
  let x := s.port p
  let room := decide (x.replay.length < 480)
  let sched := if room && !s.bit (F.LNK_STATUS_STRAY p) &&
    x.txSched.any (fun b => decide (0 < x.parCredit b.parity)) then [Ready.sched] else []
  let ctrl := if x.ctrlReady then [Ready.ctrl] else []
  let tick := if x.tick then [Ready.tick] else []
  let pkt := match (if room then x.nextVc else none) with | some v => [Ready.pkt v] | none => []
  let replay := if x.readAt < x.replay.length then [Ready.replay] else []
  let order := if decide (x.pos.toNat ∈ planOf s p) then replay ++ sched ++ ctrl ++ tick ++ pkt else replay ++ ctrl ++ tick ++ pkt ++ sched
  order.headD .idle

/-- The bundles launched in a frame leave the transmit queue and wait for their credit (R45, R284). -/
def sendSched (s : State) (p : Nat) : State :=
  let x := s.port p
  let (bs, rest) := pickBundles 6 (x.parCredit false) (x.parCredit true) x.txSched
  let n (b : Bool) : BitVec 16 := BitVec.ofNat 16 (bs.filter (fun y => y.parity == b)).length
  let fl (m : SMap (List Bundle)) (b : Bool) := SMap.update [] m b.toNat (· ++ bs.filter (fun y => y.parity == b))
  let x := { x with txSched := rest, txPar := SMap.update 0 (SMap.update 0 x.txPar 0 (· + n false)) 1 (· + n true),
                    inFlight := fl (fl x.inFlight false) true }
  (launchNew (s.setPort p (x.sendSeq 2 (schedPayload bs))) p).bump (F.LNK_SCHED_ERR_POISON p) (bs.filter (fun y => y.poison)).length

/-- The package's tick period: MER.PERIOD, or MER.INT_PERIOD, clamped to 5–100 ns, where the source is INTERNAL (R36, R62). -/
def merPeriod (s : State) : Word :=
  if s.merSrc = 2 then BitVec.ofNat 32 (max 327680 (min 6553600 (s.reg R.MER_INT_PERIOD).toNat)) else s.reg R.MER_PERIOD

/-- HOPS of the package's own TICK frames (R301, R302). -/
def ownHops (s : State) : Nat := if s.merSrc = 1 then min 255 (s.mer.hops.toNat + 1) else 0

/-- The payload of a TICK frame launched at `since` after the latest tick (R301). -/
def tickPayload (s : State) (since : Word) : BitVec 512 :=
  let reck := decide (s.merState = 4) || decide (s.merState = 5)
  BitVec.ofNat 512 (packKey [(s.mer.tick.toNat, 48), (reck.toNat, 1), (0, 7), (ownHops s, 8), (since.toNat, 32), ((merPeriod s).toNat, 32)])

/-- A PKT or PKT_POISON frame of VC `v` is launched. -/
def sendPktFrame (s : State) (p v : Nat) : State :=
  let (fill, s) := s.draw 512
  launchNew (s.onPort p (fun x => x.sendPkt v fill)) p

/-- The next frame of a rewind is sent again (R286). -/
def resend (s : State) (p : Nat) : State :=
  let x := s.port p
  let n := x.readAt + 1
  (launch s p (x.replay.getD x.readAt 0)).onPort p (fun x =>
    { x with readAt := n, rewound := if n < x.replay.length then x.rewound else none })

/-- The frame that a port UP sends in a position. -/
def sendReady (s : State) (p : Nat) (since : Word) (waits : FrameWaits) : State :=
  match readyFrame s p with
  | .replay => resend s p
  | .sched => ((sendSched s p).bump (F.LNK_SCHED_WAIT_NS p) waits.sched.toNat).bump (F.LNK_TX_WAIT_NS p) waits.tx.toNat
  | .ctrl => sendCtrl s p false since
  | .tick => (launch s p (mkFrame 3 0 (tickPayload s since))).onPort p (fun x => { x with tick := false })
  | .pkt v => settleDue ((sendPktFrame s p v).bump (F.LNK_TX_WAIT_NS p) waits.tx.toNat) p
  | .idle => launch s p (mkFrame 1 0 0)

/-- A frame position passes (R292). -/
def nextPosition (s : State) (p : Nat) : State :=
  s.onPort p (fun x => { x with pos := x.pos + 1, sinceCtrl := if x.sinceCtrl.toNat < 256 then x.sinceCtrl + 1 else x.sinceCtrl })

/-- FRAME_SEND (R292): the transmitter of a port sends the frame of one position, `since` after the latest tick. In LOCK a port
sends IDLE frames, in CALIB CTRL frames. -/
def execFrameSend (p : PortNo) (since : Word) (waits : FrameWaits) (s : State) : Host.Outcome State Fault Refusal :=
  let q := p.val
  .next (
    match s.link q with
    | 3 => launch s q (mkFrame 1 0 0)
    | 4 => sendCtrl s q true since
    | 5 =>
      let t := sendReady s q since waits
      if readyFrame s q = .ctrl then t.onPort q (fun x => { x with pos := x.pos + 1 }) else nextPosition t q
    | _ => s)

/-- A port sends QUIET in a CTRL frame and its lanes go idle (R299). -/
def quietLink (s : State) (p : Nat) : State :=
  if s.link p ≠ 5 then s
  else
    let (since, s) := s.draw 32
    let s := s.onPort p (fun x => { x with reply := some { op := 4, lane := 0, at_ := 0, rx := false } })
    setLink (sendCtrl s p false since) p 6

/-- A WAKE returns a QUIET port to UP without training (R299). -/
def wakeLink (s : State) (p : Nat) : State :=
  if s.link p ≠ 6 then s
  else
    let (since, s) := s.draw 32
    let s := s.onPort p (fun x => { x with reply := some { op := 5, lane := 0, at_ := 0, rx := false } })
    sendCtrl (setLink s p 5) p false since

/-! ### Replay (R286, R287) -/

/-- Frames up to and including SEQ `ack` are released; an advance ends the count of rewinds without one (R286, R287). -/
def Port.release (x : Port) (ack : BitVec 12) : Port :=
  match x.replay.findIdx? (fun f => decide (frameSeq f = ack)) with
  | none => x
  | some i => { x with replay := x.replay.drop (i + 1), readAt := x.readAt - (i + 1), tries := 0 }

/-- The read point goes back to the oldest unreleased frame; with none, the rewind has nothing to resend and is over. -/
def rewindPort (s : State) (p : Nat) (ack : Option (BitVec 12)) : State :=
  (s.onPort p (fun x => { x with readAt := 0, rewound := if x.replay.isEmpty then none else ack })).bump (F.LNK_REPLAY_REPLAYS p) 1

/-- REPLAY_TIMEOUT (R287): no ACK has advanced for the limit; after REPLAY_LIMIT rewinds without an advance the port retrains. -/
def execReplayTimeout (p : PortNo) (s : State) : Host.Outcome State Fault Refusal :=
  .next (
    if s.link p.val ≠ 5 ∨ (s.port p.val).replay = [] then s
    else if max 1 (s.f (F.LNK_CTRL_REPLAY_LIMIT p.val)) ≤ (s.port p.val).tries.toNat then
      beginTraining ((s.onPort p.val (fun x => { x with tries := 0 })).bump (F.LNK_REPLAY_TO_RETRAINS p.val) 1) p.val
    else
      let s := (s.onPort p.val (fun x => { x with tries := x.tries + 1 })).bump (F.LNK_REPLAY_TO_TIMEOUTS p.val) 1
      rewindPort s p.val none)

/-! ### The receiver (R281–R285, R291) -/

/-- A bad frame is discarded, and a NAK is due unless one is outstanding (R285). -/
def badFrame (s : State) (p : Nat) : State :=
  s.onPort p (fun x => if x.nakOut then x else { x with nakOut := true, nakDue := true })

/-- A lane waits for an operation, or one of the receive direction is under way. -/
def Port.laneBusy (x : Port) : Bool := x.propose.isSome || x.agreed.any (fun o => o.rx)

/-- A fault is declared on a receive lane (R296): the first row that applies is acted on; while an operation is under way the lane waits. The
codeword AT is the receiver's choice. -/
def declareFault (s : State) (q : Nat) (lane : BitVec 4) : State :=
  let l := lane.toNat
  if s.link q ≠ 5 ∨ 9 ≤ l ∨ ¬ s.bit (F.LNK_LANE_OK q l) then s
  else if 8 ≤ s.f (F.LNK_LANE_ROLE q l) then (s.setF (F.LNK_LANE_OK q l) 0).setF (F.LNK_LANE_ROLE q l) 15
  else if s.bit (F.LNK_STATUS_RX_NARROW q) then
    goDown (((s.setF (F.LNK_LANE_OK q l) 0).setF (F.LNK_LANE_ROLE q l) 15).noteFault 15 4 (laneFaultKey q l)) q
  else
    let x := s.port q
    if x.laneBusy then
      if lane ∈ x.faulty ∨ x.propose.any (fun o => o.lane = lane) ∨ x.agreed.any (fun o => o.rx && o.lane == lane) then s
      else s.onPort q (fun x => { x with faulty := x.faulty ++ [lane] })
    else
      let spare := (List.range 9).any (fun i => s.f (F.LNK_LANE_ROLE q i) = 8)
      let (at_, s) := s.draw 48
      s.onPort q (fun x => { x with propose := some { op := if spare then 1 else 2, lane := lane, at_ := at_, rx := true } })

/-- The decoder corrects symbol `k` of a codeword, which came on logical lane k mod W (R276): both counts rise, and more than SER_LIMIT of
them on the lane within 1 ms declare a fault (R296). -/
def corrected (s : State) (p : Nat) (k : BitVec 10) : State :=
  let w := if s.bit (F.LNK_STATUS_RX_NARROW p) then 4 else 8
  let s := s.bump (F.LNK_FEC_CORR_SYM p) 1
  match (List.range 9).find? (fun l => s.f (F.LNK_LANE_ROLE p l) = k.toNat % w) with
  | none => s
  | some l =>
    let s := s.bump (F.LNK_LANE_CORR_SYM p l) 1
    let recent := (SMap.get [] (s.port p).ser l ++ [s.now]).filter (fun t => decide (s.now < t + 1000000))
    let many := decide (max 1 (s.f (F.LNK_LANE_CFG_SER_LIMIT p)) < recent.length)
    let s := s.onPort p (fun x => { x with ser := SMap.set [] x.ser l (if many then [] else recent) })
    if many then declareFault s p (BitVec.ofNat 4 l) else s

/-- A frame is received under R285: what its codeword and its CRC say, and then, if its TYPE is one of `types`, what `use` does with it. `cw`
are the wrong symbols of its codeword, of which the code corrects 15 (R276). -/
def receive (s : State) (p : Nat) (f : BitVec 544) (cw : List (BitVec 10)) (types : List Nat) (use : State → State) : State :=
  let wrong := (cw.filter (fun k => decide (k.toNat < 544))).eraseDups
  if s.link p < 4 ∨ s.link p = 7 then s
  else
    let s := hearFrame s p
    if correctable < wrong.length then badFrame ((s.bump (F.LNK_FEC_UE_UNCORR_CW p) 1).noteFault 16 4 (faultKey [(p, 3)])) p
    else
      let s := foldS wrong s (fun s k => corrected s p k)
      if ¬ crcOk f ∨ ¬ typeNamed (frameType f) then badFrame (s.bump (F.LNK_FEC_UE_CRC_FAIL p) 1) p
      else if frameType f ∈ types then use s
      else s

/-- A good sequenced frame: accepted where SEQ = EXP, otherwise discarded; one that lies ahead counts as bad, as one whose CRC fails (R285). -/
def inSequence (s : State) (p : Nat) (f : BitVec 544) (use : State → State) : State :=
  let x := s.port p
  if s.link p ≠ 5 then s
  else if frameSeq f = x.exp then use (s.setPort p { x with exp := x.exp + 1, nakOut := x.nakDue, ackNew := true })
  else if (frameSeq f - x.exp).toNat < 2048 then badFrame (s.bump (F.LNK_FEC_UE_CRC_FAIL p) 1) p
  else s

/-- IDLE (R281). -/
def execIdle (p : PortNo) (f : BitVec 544) (cw : List (BitVec 10)) (s : State) : Host.Outcome State Fault Refusal :=
  .next (receive s p.val f cw [1] id)

/-- One position of a SCHED payload goes through the receive map (R282, R291). -/
def takePosition (s : State) (p : Nat) (pos : BitVec 80) : State :=
  if ¬ pos.getLsbD 77 then s
  else
    let par := pos.getLsbD 64
    let poison := pos.getLsbD 78
    let ls := (bitsAt pos 65 12 : BitVec 12).toNat
    let w := (SMap.get 0 (s.port p).map ls).toNat
    let xdest := w % 16
    let s := if poison then s.bump (F.LNK_SCHED_ERR_POISON p) 1 else s
    if w / 2 ^ 16 % 2 = 0 ∨ (4 ≤ xdest ∧ xdest < 8) ∨ 14 ≤ xdest ∨ xdest = 8 + p then
      let s := (s.bump (F.LNK_SCHED_ERR_UNMAPPED p) 1).taintAt none 0 { cause := 8, detail := ls + 4096 * p }
      s.onPort p (fun x => { x with rxPar := SMap.update 0 x.rxPar par.toNat (· + 1), ackNew := true })
    else
      let b : Bundle :=
        { data := if poison then 0 else bitsAt pos 0 64, tag := BitVec.ofNat 7 (w / 256 % 64 + 64 * par.toNat), poison := poison,
          port := if h : p < 6 then some ⟨p, h⟩ else none, xrgn := BitVec.ofNat 4 (w / 16), xdest := BitVec.ofNat 4 xdest,
          qtag := BitVec.ofNat 2 (w / 2 ^ 14) }
      s.pushBundle 68 (4 + p) b

/-- SCHED (R282, R285, R291). -/
def execSched (p : PortNo) (f : BitVec 544) (cw : List (BitVec 10)) (s : State) : Host.Outcome State Fault Refusal :=
  .next (receive s p.val f cw [2] (fun s => inSequence s p.val f (fun s =>
    foldS (List.range 6) s (fun s i => takePosition s p.val (bitsAt (framePayload f) (80 * i) 80)))))

/-- The addresses that the ingress of a stopped package admits: UNIT 0x38 in the HIF, PWR and THM blocks (R262, R472). -/
def admitted (p : Packet) : Bool :=
  decide (nodeUnit p.dest = 0x38) &&
    (decide (0x10000 ≤ p.addr.toNat ∧ p.addr.toNat < 0x11000) || decide (0x30000 ≤ p.addr.toNat ∧ p.addr.toNat < 0x31000))

/-- A whole packet has arrived on a port (R262, R293, R308, R310, R313, R315): link-local and broadcast packets are consumed; a leaf without a
coordinate exchanges no other; the others enter the hub switch. -/
def packetIn (s : State) (port v : Nat) (p : Packet) : State :=
  let stopped : Bool := match SMap.get .none s.pwr.drains 4 with
    | .none => decide (2 ≤ s.f F.PWR_STATUS_STATE) && decide (s.f F.PWR_STATUS_STATE ≤ 4)
    | .enter _ | .gate _ => true
    | _ => false
  let p := { p with vc := BitVec.ofNat 2 v }
  let free (s : State) : State := freeFlits s (4 + port) p
  if p.cmd = 0x21 ∨ p.cmd = 0x22 ∨ p.cmd = 0x23 then { free s with arrived := s.arrived ++ [p] }
  else if s.role port = 2 ∧ (s.peerCoord port).isNone then free s
  else if s.strayPort port ∧ nodeCoord p.dest ≠ s.f F.FAB_ID_COORD then (free s).bump F.FAB_DROP_STRAY_DROP 1
  else if s.refusing.getLsbD 4 ∧ p.isResp ∧ (2 ≤ s.f F.PWR_STATUS_STATE ∨ s.gateStep 4) then countRefused (free s) .hub
  else if s.refusing.getLsbD 4 ∧ ¬ p.isResp ∧ (stopped && admitted p) = false then
    if p.posted then countPosted (free s) .hub
    else if noPlace s port then (s.pushNet 68 (4 + port) p).onPort port (fun x => { x with due := x.due ++ [(p, 3)] })
    else countRefused (replyOn (free s) port (s.answer p 0x12 3 [])) .hub
  else s.pushNet 68 (4 + port) p

/-- One flit of VC `v` (R283): a header, a pad, or a data flit. The second answer says that the rest of the frame is discarded. -/
def takeFlit (s : State) (port v : Nat) (f : Flit) (poison : Bool) : State × Bool :=
  let put (x : Option RxPacket) (s : State) : State := s.onPort port (fun y => { y with rxPkt := SMap.set none y.rxPkt v x })
  match SMap.get none (s.port port).rxPkt v with
  | none =>
    if f = 0 ∨ poison then (s, true)
    else
      let h := headerOf f [] 0
      let n := if h.cmd = 1 then 0 else h.len.toNat
      if n = 0 then (packetIn s port v h, false) else (put (some ⟨h, n⟩) s, false)
  | some r =>
    let h := { r.head with data := r.head.data ++ [f], poison := setBit r.head.poison r.head.data.length poison }
    if r.left ≤ 1 then (packetIn (put none s) port v h, false) else (put (some ⟨h, r.left - 1⟩) s, false)

/-- The flits of a PKT frame in order, up to a pad. -/
def takeFlits (s : State) (port v : Nat) : List Flit → State
  | [] => s
  | f :: t => match takeFlit s port v f false with | (s, stop) => if stop then s else takeFlits s port v t

/-- PKT on VC 0–3 (R283). -/
def execPktFrame (p : PortNo) (f : BitVec 544) (cw : List (BitVec 10)) (s : State) : Host.Outcome State Fault Refusal :=
  .next (receive s p.val f cw [8, 9, 10, 11] (fun s => inSequence s p.val f (fun s =>
    takeFlits s p.val (frameType f - 8) ((List.range 4).map (fun i => bitsAt (framePayload f) (128 * i) 128)))))

/-- PKT_POISON on VC 0–3 (R283): one poison flit in a data position. -/
def execPktPoison (p : PortNo) (f : BitVec 544) (cw : List (BitVec 10)) (s : State) : Host.Outcome State Fault Refusal :=
  .next (receive s p.val f cw [12, 13, 14, 15] (fun s => inSequence s p.val f (fun s => (takeFlit s p.val (frameType f - 12) 0 true).1)))

/-- The peer has freed bundle places of a parity: the first bundles in flight of it count as accepted (R45). -/
def acceptInFlight (s : State) (p : Nat) (par : Bool) (n : Nat) : State :=
  let l := SMap.get [] (s.port p).inFlight par.toNat
  let s := s.onPort p (fun x => { x with inFlight := SMap.set [] x.inFlight par.toNat (l.drop n) })
  foldS (l.take n) s countAccepted

/-- The lane operation of a CTRL frame (R284, R296, R299). -/
def laneOpIn (s : State) (p : Nat) (op : Nat) (lane : BitVec 4) (at_ : BitVec 48) : State :=
  match op with
  | 1 | 2 =>
    let o : LaneOp := { op := BitVec.ofNat 4 op, lane := lane, at_ := at_, rx := false }
    s.onPort p (fun x => { x with reply := some { op := 3, lane := lane, at_ := at_, rx := false },
                                  agreed := if o ∈ x.agreed then x.agreed else x.agreed ++ [o] })
  | 3 =>
    s.onPort p (fun x =>
      match x.propose with
      | some o => if o.at_ = at_ then { x with agreed := x.agreed ++ [o], propose := none } else x
      | none => x)
  | 4 => if s.link p = 5 then setLink s p 6 else s
  | 5 => if s.link p = 6 then setLink s p 5 else s
  | _ => s

/-- A CTRL frame that echoes one of this end's gives a sample of the link delay (R302): LNK.DELAY is the mean of the last 256. -/
def sampleDelay (s : State) (p : Nat) (c : BitVec 512) (arrival : Word) : State :=
  let t1 : Word := bitsAt c 144 32
  let x := s.port p
  if t1 ∉ x.sentTs then s
  else
    let all := x.samples ++ [arrival - t1 - bitsAt c 176 32]
    let l := all.drop (all.length - 256)
    let s := s.onPort p (fun x => { x with samples := l, sentTs := x.sentTs.dropWhile (fun t => decide (t ≠ t1)) })
    s.setF (F.LNK_DELAY_ONEWAY p) ((l.map BitVec.toNat).sum / (2 * l.length))

/-- The credits that a CTRL frame restates (R284); bundles whose places are free now count as accepted (R45). -/
def takeCredits (s : State) (q : Nat) (c : BitVec 512) : State :=
  let freed (b : Bool) : Nat := ((bitsAt c (80 + 16 * b.toNat) 16 : BitVec 16) - SMap.get 0 (s.port q).peerPar b.toNat).toNat
  let n0 := freed false
  let n1 := freed true
  let s := s.onPort q (fun x =>
    { x with peerVc := (List.range 4).foldl (fun m v => SMap.set 0 m v (bitsAt c (16 + 16 * v) 16)) x.peerVc,
             peerPar := (List.range 2).foldl (fun m b => SMap.set 0 m b (bitsAt c (80 + 16 * b) 16)) x.peerPar })
  acceptInFlight (acceptInFlight s q false n0) q true n1

/-- A CTRL frame in CALIB (R278, R289): it is counted, and tells the peer's sequence state. -/
def calibCtrl (s : State) (q : Nat) (c : BitVec 512) : State :=
  let s := if (s.port q).keep then takeCredits s q c else s
  s.onPort q (fun x => { x with peerSeq := some (c.getLsbD 264, bitsAt c 265 12),
                                ctrlIn := if x.ctrlIn.toNat < 256 then x.ctrlIn + 1 else x.ctrlIn })

/-- CTRL (R284–R286): acknowledgement, NAK, credits, timing and lane operation, of a frame that arrives as `a` says. -/
def execCtrl (p : PortNo) (f : BitVec 544) (a : Arrival) (s : State) : Host.Outcome State Fault Refusal :=
  let q := p.val
  let c := framePayload f
  let ack : BitVec 12 := bitsAt c 0 12
  let op := (bitsAt c 208 4 : BitVec 4).toNat
  .next (receive s q f a.wrong [4] (fun s =>
    let arrival := s.timer a.since
    let s := (sampleDelay s q c arrival).onPort q (fun x => { x with echo := bitsAt c 112 32, echoAt := arrival })
    if s.link q = 6 then (if op = 5 then laneOpIn s q 5 0 0 else s)
    else if s.link q = 4 then calibCtrl s q c
    else if s.link q ≠ 5 then s
    else
      let s := if c.getLsbD 13 then s.onPort q (fun x => x.release ack) else s
      let s := if c.getLsbD 12 ∧ (s.port q).rewound ≠ some ack then rewindPort s q (some ack) else s
      laneOpIn (takeCredits s q c) q op (bitsAt c 212 4) (bitsAt c 216 48)))

/-! ### Lane faults (R296, R297) -/

/-- LANE_FAULT (R296): the receiver declares a fault on a lane. -/
def execLaneFault (p : PortNo) (lane : BitVec 4) (s : State) : Host.Outcome State Fault Refusal := .next (declareFault s p.val lane)

/-- LANE_SWITCH (R296): an operation whose codeword has come takes effect; a lane that waited to be declared faulty then has its turn, unless
another operation of the receive direction is under way. -/
def execLaneSwitch (p : PortNo) (s : State) : Host.Outcome State Fault Refusal :=
  let q := p.val
  let turn (s : State) : State :=
    match (s.port q).faulty with
    | [] => s
    | l :: more => if (s.port q).laneBusy then s else declareFault (s.onPort q (fun x => { x with faulty := more })) q l
  .next (
    match (s.port q).dueOp with
    | none => turn s
    | some o => if o.rx then turn (switchOne s q o) else switchOne s q o)

/-! ### Slot tables (R294, R295) -/

/-- A bundle stands in the port's transmit queues, in its receive buffer, or in an unreleased SCHED frame. -/
def slotBusy (s : State) (p : Nat) : Bool :=
  !(s.port p).txSched.isEmpty || !(s.bundles 68 (4 + p) false).isEmpty || !(s.bundles 68 (4 + p) true).isEmpty ||
    (s.port p).replay.any (fun f => decide (frameType f = 2))

/-- SLOT_SWAP (R295): both tables exchange in one step, or the swap is refused. -/
def execSlotSwap (p : PortNo) (s : State) : Host.Outcome State Fault Refusal :=
  let q := p.val
  .next (
    if slotBusy s q then s.setF (F.LNK_SLOT_STAT_REFUSED q) 1
    else
      let swap (s : State) (a b : Nat) : State := (s.setReg a (s.reg b)).setReg b (s.reg a)
      let s := swap (swap s (R.LNK_PLAN_LO q) (R.LNK_PLAN_SH_LO q)) (R.LNK_PLAN_HI q) (R.LNK_PLAN_SH_HI q)
      setClipped (s.onPort q (fun x => { x with map := x.shadow, shadow := x.map })) q)

/-- SLOT_COPY (R295): the active tables are copied into the shadow. -/
def execSlotCopy (p : PortNo) (s : State) : Host.Outcome State Fault Refusal :=
  let q := p.val
  let s := (s.setReg (R.LNK_PLAN_SH_LO q) (s.reg (R.LNK_PLAN_LO q))).setReg (R.LNK_PLAN_SH_HI q) (s.reg (R.LNK_PLAN_HI q))
  .next (s.onPort q (fun x => { x with shadow := x.map }))

/-! ### TICK frames (R301) -/

/-- TICK_FRAME_SEND (R301, R37): after tick `count`, one at the interval, the ports of RELAY_EN have a TICK frame to send. -/
def execTickFrameSend (count : BitVec 48) (s : State) : Host.Outcome State Fault Refusal :=
  .next (if count ≠ s.mer.tick then s else foldS (List.range 6) s (fun s p =>
    if (s.f F.MER_CTRL_RELAY_EN).testBit p ∧ s.link p = 5 ∧ s.mer.tick.toNat % s.tickInterval p = 0 then
      s.onPort p (fun x => { x with tick := true })
    else s))

end Sys2Proof.Machine
end

