-- ==== Sys2Proof/Machine/Scopes.lean ====
section
/-! DEFINITION. Quadrant and package resets and the drains that precede them (R19–R25, R262, R428, R438). -/

namespace Sys2Proof.Machine

/-! ### The quadrant (R22) -/

/-- A region after a quadrant or package reset (R19, R22, R27): everything is lost; the epoch is `epoch`, the partition table's job
stays, and a gated region stays GATED. What CNV.BANK reads of the supplies is live (R188). -/
def Region.lost (r : Region) (epoch : Nat) : Region :=
  let n := Region.cutMail {}
  let n := (n.setF F.RGN_STATUS_EPOCH epoch).setF F.RGN_STATUS_CFG (if r.f F.RGN_STATUS_CFG = 3 then 3 else 0)
  let n := n.setReg R.CNV_BANK (r.reg R.CNV_BANK &&& 0x1F)
  ((n.setF F.RGN_STATUS_JOB (r.f F.RGN_STATUS_JOB)).setF F.RGN_STATUS_IN_JOB (r.f F.RGN_STATUS_IN_JOB)).keepDebug r

/-- The elements of the packet plane on the die of quadrant `q` (R244). -/
def onDie (q e : Nat) : Bool := (decide (16 * q ≤ e) && decide (e < 16 * q + 16)) || e == 64 + q

/-- Everything in flight on the die is lost (R22, R262); bundles count as accepted at their senders. -/
def emptyDie (s : State) (q : Nat) : State :=
  let s := foldS (s.sched.filter (fun x => onDie q (x.1 / 64))) s (fun s x => foldS x.2 s countAccepted)
  let s := foldS (quadRegions q) s (fun s rg => foldS (s.rgn rg).inject s countAccepted)
  { s.cutTrails (fun k => onDie q (k / 128)) with
           net := SMap.keep (fun k => !onDie q (k / 128)) s.net,
           order := s.order.filter (fun k => !onDie q (k / 128)),
           sched := SMap.keep (fun k => !onDie q (k / 64)) s.sched,
           arrived := s.arrived.filter (fun p => !(quadRegions q).any (fun rg => s.nodeIn rg p.dest)),
           tags := SMap.keep (fun k => decide (k / 131072 ≠ q) || decide (0x17 ≤ k / 128 % 64)) s.tags }

/-- A job with regions in the quadrant is reported failed (R28, R438). -/
def failJobsOf (s : State) (q : Nat) : State :=
  foldS ((quadRegions q).filterMap s.jobOf).eraseDups s (fun s j => failJob s j)

/-- The crossings of a quadrant that stops are flushed, pending events to its cores with them (R367). -/
def flushQuad (s : State) (q : Nat) : State := dropLines (flushCrossings s) (fun rg => decide (quadOf rg = q))

/-- The quadrant reset itself (R22, R19): its 16 regions lose everything and are UNCONFIGURED, their epochs rise by one, its links
retrain. -/
def resetQuadrant (s : State) (q : Nat) : State :=
  let s := foldS (quadRegions q) s (fun s rg => if s.testing rg then abandonTest s rg else s)
  let s := breakOwned (flushQuad s q) (fun n => (quadRegions q).any (fun rg => s.nodeIn rg n))
  let s := dropTokens (emptyDie s q) q
  let s := foldS (quadRegions q) s (fun s rg => s.onRgn rg (fun r => r.lost (r.f F.RGN_STATUS_EPOCH + 1)))
  let s := { s with library := SMap.keep (fun k => decide (k / 0x8000 ≠ q)) s.library,
                    windowFixes := SMap.set 0 s.windowFixes q 0,
                    pwr := { s.pwr with kept := setBit s.pwr.kept q false } }
  foldS (List.range 3) s (fun s l => trainD2d s q l)

/-! ### The package (R19, R22, R428) -/

/-- What the package is after a package reset (R22): the flash, the fuses, the queue and the pads stay; the epochs rise (R19); the
straps are kept until the next release of RESET_N (R392); the last shutdown's latch stays (R443). -/
def resetPackage (s : State) (boot : Boot) : State :=
  let e := s.f F.FAB_ID_EPOCH + 1
  let n : State := { pending := s.pending, drawn := s.drawn, flash := s.flash, fuses := s.fuses,
                     gpio := { pads := s.gpio.pads }, pwr := { boot := boot, cause := s.pwr.cause, lowBanks := s.pwr.lowBanks,
                                                                     vflOut := s.pwr.vflOut, vhubOut := s.pwr.vhubOut } }
  let n := (n.setReg R.HIF_PINS (s.reg R.HIF_PINS)).setF F.HIF_PINS_RST_CAUSE s.pwr.cause.toNat
  let n := n.setF F.FAB_STATUS_STRAP (s.f F.HIF_PINS_LODESTAR)
  let n := n.setF F.CFG_GROUND_STAT_PIN_SEL (s.f F.CFG_GROUND_STAT_PIN_SEL)
  let n := n.setF F.THM_STATUS_LAST_SHUTDOWN (s.f F.THM_STATUS_LAST_SHUTDOWN)
  let n := n.setF F.FAB_ID_EPOCH e
  let n := foldS (List.range 12) n (fun n i => trainD2d n (i / 3) (i % 3))
  foldS allRegions n (fun n rg =>
    let n := (n.onRgn rg Region.cutMail).setRf rg F.RGN_STATUS_EPOCH e
    if s.rf rg F.RGN_STATUS_CFG = 3 then n.setRf rg F.RGN_STATUS_CFG 3 else n)

/-- The hub has its supplies and no thermal shutdown holds it in reset (R427, R443). -/
def State.hubPowered (s : State) : Bool := decide (s.pwr.boot ≠ .noPower) && decide (s.pwr.boot ≠ .thermal)

end Sys2Proof.Machine
end

