-- ==== Sys2Proof/Machine/Checks.lean ====
section
/-! DEFINITION. What the loader computes and checks in a region: CLU.END_AT (R75), the schedule checks (R93), contention between
canvas frames (R205), the reserved bits of a frame (R146), and the fields that SETTINGS may address (R193). -/

namespace Sys2Proof.Machine

/-! ### END_AT (R75) -/

/-- The stored words of one BP as (stroke index, corrected word), in rising order; words that are not stored are NOPs. -/
def bpWords (r : Region) (c : Cl) (b : Nat) : List (Nat × BitVec 112) :=
  (r.strokes.filter (fun x => x.1 / 2048 == 64 * c.toNat + b)).map (fun x => (x.1 % 2048, (strokeCheck x.2).2))

/-- CLU.END_AT and NO_END from the lead BP's stroke memory. -/
def Region.computeEnd (r : Region) (c : Cl) : Region :=
  match (bpWords r c 0).find? (fun x => strokeOp x.2 == 0xF) with
  | some x => (r.setF (F.CLU_END_AT_INDEX c.toNat) x.1).setF (F.CLU_STATUS_NO_END c.toNat) 0
  | none => (r.setF (F.CLU_END_AT_INDEX c.toNat) 2047).setF (F.CLU_STATUS_NO_END c.toNat) 1

/-! ### The schedule checks (R93) -/

/-- An executed stroke: cluster, BP, index, word. -/
structure Stroke where
  c : Nat
  b : Nat
  t : Nat
  w : BitVec 112
  deriving DecidableEq, Repr

/-- The executed strokes of a region that are not NOPs, by cluster, BP and index. -/
def executed (r : Region) : List Stroke :=
  (r.strokes.map (fun x => (⟨x.1 / 131072, x.1 / 2048 % 64, x.1 % 2048, (strokeCheck x.2).2⟩ : Stroke))).filter
    (fun x => decide (x.t ≤ r.f (F.CLU_END_AT_INDEX x.c)))

/-- The entries that a stroke reads (R69, R70, R73). -/
def Stroke.reads (x : Stroke) : List Nat :=
  let o (n : Nat) : Nat := (strokeOpd x.w n).1.toNat
  let dest := (strokeDest x.w).toNat
  match strokeOp x.w with
  | 0x1 => if 992 ≤ dest then [] else [o 0, o 1, o 2, o 3]
  | 0x2 => if 256 ≤ dest then [] else [o 0, o 1, o 2, o 3]
  | 0x8 | 0xB | 0xC | 0xD => if x.b = 0 then [o 0] else []
  | 0x9 => if x.b = 0 then [o 0, o 1] else []
  | 0xA => if x.b = 0 then [o 0, o 1, o 2, o 3] else []
  | _ => []

/-- The stroke is the lead BP's and carries the cluster operation `op`. -/
def Stroke.isOp (x : Stroke) (op : Nat) : Bool := x.b == 0 && strokeOp x.w == op

/-- The strokes of one cluster, by stroke index. -/
def byIndex (xs : List Stroke) : List Stroke := xs.mergeSort (fun a b => decide (a.c * 2048 + a.t ≤ b.c * 2048 + b.t))

/-- What a check of a schedule reports: code, cluster, index, and SHORT for check 6. -/
structure Flaw where
  code : Nat
  c : Nat
  index : Nat
  short : Bool := false
  deriving DecidableEq, Repr

def Region.routeValid (r : Region) (i : Nat) : Bool := (r.reg (R.RGN_ROUTE (2 * i))).getLsbD 9
def Region.routeIndex (x : Stroke) : Nat := (strokeTt x.w).toNat % 1024

/-- Valid exchange-in map entries as (index, 16 c + k). -/
def mapEntries (r : Region) : List (Nat × Nat) :=
  (List.range 384).filterMap (fun m =>
    let w := r.reg (R.RGN_XMAP m)
    if w.getLsbD 8 then some (m, w.toNat / 16 % 16 * 16 + w.toNat % 16) else none)

/-- The first element that repeats the key of an earlier one. -/
def firstRepeat {α : Type} (key : α → Nat) : List Nat → List α → Option α
  | _, [] => none
  | seen, x :: t => if seen.contains (key x) then some x else firstRepeat key (key x :: seen) t

def orderEntry (r : Region) (i : Nat) : Nat := (r.reg (R.RGN_MORDER (i / 8))).toNat / 2 ^ (4 * (i % 8)) % 16

/-- Check 6 for one cluster: front-port entries against executed MEMRD and MEMWR strokes. -/
def orderFlaw (r : Region) (xs : List Stroke) (c : Nat) : Option Flaw :=
  let places := (List.range (r.f F.RGN_MCOUNT_COUNT)).filter (fun i => orderEntry r i == c)
  let n := (xs.filter (fun x => x.c == c && (x.isOp 0x9 || x.isOp 0xA))).length
  if n < places.length then some ⟨6, c, places.getD n 0, false⟩
  else if places.length < n then some ⟨6, c, 0, true⟩
  else none

/-- Check 7 (R93): an executed stroke that uses a junction channel whose endpoint is not enabled. -/
def junctionFlaw (s : State) (rg : Rg) : Option Flaw :=
  let junctions (x : Stroke) : List Nat :=
    (if x.isOp 0xB then [(strokeCtrl x.w).toNat % 4] else []) ++ (x.reads.filter (fun e => decide (1008 ≤ e ∧ e < 1012))).map (· - 1008)
  ((byIndex (executed (s.rgn rg))).find? (fun x => (junctions x).any (fun j => !(s.endpoint rg (4 * x.c + j)).1))).map
    (fun x => (⟨7, x.c, x.t, false⟩ : Flaw))

/-- The checks of R93 in the order of their codes; the first flaw. -/
def scheduleFlaw (s : State) (rg : Rg) : Option Flaw :=
  let r := s.rgn rg
  let xs := byIndex (executed r)
  let sends := xs.filter (fun x => x.isOp 0x8)
  let es := mapEntries r
  let slotReads (x : Stroke) : List Nat := (x.reads.filter (fun e => decide (992 ≤ e ∧ e < 1008))).map (fun e => 16 * x.c + (e - 992))
  let c1 := (sends.find? (fun x => !r.routeValid (Region.routeIndex x))).map (fun x => (⟨1, x.c, x.t, false⟩ : Flaw))
  let c2 := (firstRepeat Region.routeIndex [] sends).map (fun x => (⟨2, x.c, Region.routeIndex x, false⟩ : Flaw))
  let c3 := (firstRepeat (fun (e : Nat × Nat) => e.2) [] es).map (fun e => (⟨3, e.2 / 16, e.1, false⟩ : Flaw))
  let c4 := (xs.find? (fun x => (slotReads x).any (fun k => !es.any (fun e => e.2 == k)))).map (fun x => (⟨4, x.c, x.t, false⟩ : Flaw))
  let c5 := (es.find? (fun e => !xs.any (fun x => (slotReads x).contains e.2))).map (fun e => (⟨5, e.2 / 16, e.1, false⟩ : Flaw))
  let c6 := (List.range 16).findSome? (orderFlaw r xs)
  let c7 := junctionFlaw s rg
  c1 <|> c2 <|> c3 <|> c4 <|> c5 <|> c6 <|> c7

/-- The schedule checks of a region run (R93): the result goes to RGN.CHECK, and a region that fails is isolated with ISO_CAUSE
6, schedule check. -/
def runChecks (s : State) (rg : Rg) : State :=
  match scheduleFlaw s rg with
  | none => s.onRgn rg (fun r => r.setReg R.RGN_CHECK 0)
  | some x =>
    isolate (s.onRgn rg (fun r => r.setReg R.RGN_CHECK (faultKey [(x.code, 4), (x.c, 4), (x.index, 12), (x.short.toNat, 1)])))
      rg 6 0

/-! ### Contention between frames (R205, R225) -/

/-- Every segment that lies at the box of a cell is sound: at most one driver, and one receiver of a dual-rail bundle. -/
def frameSound (s : State) (rg : Rg) (n : CellNo) : Bool :=
  let q := quadOf rg
  let b := boxOf rg n
  [false, true].all (fun y => (List.range 4).all (fun cls => (List.range (trackCount cls)).all (fun t =>
    (segsAt y cls t b).all (segSound s q))))

/-- The reserved bits of a frame are 0 (R146, R147, R169, R175, R180): the top half, those of CTRL, and EDGE beyond what the cell
attaches, with the upper half of an FIO pin's word. -/
def frameReserved (rg : Rg) (n : CellNo) (b : BitVec 2048) : Bool :=
  let edge := cfgField b 852 172
  let used : Nat :=
    match junctionAt n, ioAt rg n with
    | some _, _ => 5
    | none, some i => if i < 8 then 48 else 15
    | none, none => if n = 480 then 1 else 0
  let fioHole : Bool := match junctionAt n, ioAt rg n with | none, some i => decide (i < 8) && decide (edge / 65536 % 65536 ≠ 0) | _, _ => false
  decide (cfgField b 1024 1024 = 0) && decide (cfgField b 210 46 = 0) && decide (edge / 2 ^ used = 0) && !fioHole

/-- A frame written to a cell outside its clamp: the block, with ACC and Q at their initial values (R207, R228). -/
def Region.putFrame (r : Region) (n : CellNo) (b : BitVec 2048) : Region :=
  { r with canvas := SMap.set 0 r.canvas n.toNat b }.setCell n
    { acc := bitsAt b 272 16, q := bitsAt b 256 16, clamped := (r.cell n).clamped }

/-! ### SETTINGS (R193) -/

/-- The bits of a hub register whose Reset column reads *ground*. -/
def groundMask (a : Nat) : Nat :=
  if a = R.GPIO_FUNC then 0xFF
  else if a = R.GPIO_DIR then 0xFFF
  else if 0x20040 ≤ a ∧ a < 0x20070 ∧ a % 4 = 0 then 0x3FF
  else if a = R.GPIO_WAKE 0 ∨ a = R.GPIO_WAKE 1 then 0x3F
  else if a = R.PWR_CTRL then 0x10
  else if a = R.PWR_TOL then 0xFFFFFFFF
  else if a = R.FLT_CTRL then 0x4
  else if a = R.MER_CTRL then 0x3F01FF
  else if a = R.CFG_CTRL then 0x6
  else if a = R.RTC_CTRL then 0x7
  else if a = R.FAB_CTRL then 0x19
  else if (List.range 6).any (fun p => a == R.LNK_CTRL p) then 0x1
  else 0

/-- Bits of `v` under `mask` in the word `old`. -/
def underMask (old mask v : Word) : Word := (old &&& ~~~ mask) ||| (v &&& mask)

/-- One SETTINGS record is applied (R193), with what a write of the field does: a port enabled trains (R428) and one disabled goes DOWN (R298), a source change acts
(R36), a pin whose function changes is parked (R395), a nomination is a candidacy (R311). -/
def applySetting (s : State) (a mask v : Word) : State :=
  let k := a.toNat
  let old := s.reg k
  let new := underMask old mask v
  if k = R.MER_CTRL then
    changeSrc (s.setReg k (underMask old (mask &&& 0xFFFFFFFC) v)) (new.toNat % 4)
  else if k = R.GPIO_FUNC then changeFunc s new.toNat
  else
    let s := s.setReg k new
    if k = R.FAB_CTRL then considerSelf s
    else foldS (List.range 6) s (fun s p =>
      if k ≠ R.LNK_CTRL p ∨ ¬ mask.getLsbD 0 then s
      else if ¬ new.getLsbD 0 then (if s.link p = 0 then s else goDown s p)
      else if s.link p = 0 then beginTraining (s.onPort p (fun x => { x with fails := 0 })) p
      else s)

end Sys2Proof.Machine
end

