-- ==== Sys2Proof/Machine/Loader.lean ====
section
/-! DEFINITION. The loader (R189–R209): the byte format, staging, the sections of a bitstream, checks and failure, and how a load
starts and ends. -/

namespace Sys2Proof.Machine

/-! ### Bytes -/

/-- A little-endian number (R4, R189). -/
def leNat : List (BitVec 8) → Nat
  | [] => 0
  | b :: t => b.toNat + 256 * leNat t

/-- A byte string as a number, the first byte most significant (the order of FIPS 180-4 and SP 800-38D). -/
def beNat (l : List (BitVec 8)) : Nat := l.foldl (fun n b => 256 * n + b.toNat) 0

/-- The bytes of a number, least significant first. -/
def bytesOf : Nat → Nat → List (BitVec 8)
  | 0, _ => []
  | n + 1, v => BitVec.ofNat 8 v :: bytesOf n (v / 256)

/-- A list cut into pieces of `k`, `n` of them. -/
def pieces {α : Type} (k : Nat) : Nat → List α → List (List α)
  | 0, _ => []
  | n + 1, l => l.take k :: pieces k n (l.drop k)

/-- The little-endian numbers of `k` bytes each in a byte string. -/
def numbers (k : Nat) (l : List (BitVec 8)) : List Nat := (pieces k (l.length / k) l).map leNat

/-! ### Staging (R201) -/

/-- A staged byte. -/
def stagedByte (m : SMap (Option Word)) (i : Nat) : Option (BitVec 8) :=
  (SMap.get none m (i / 4)).map (fun w => bitsAt w (8 * (i % 4)) 8)

/-- `n` staged bytes from `a`, where all of them are staged. -/
def stagedBytes (m : SMap (Option Word)) (a : Nat) : Nat → Option (List (BitVec 8))
  | 0 => some []
  | n + 1 => match stagedByte m a, stagedBytes m (a + 1) n with
    | some b, some t => some (b :: t)
    | _, _ => none

/-- Words staged from offset `a`, a multiple of 4. -/
def stageWords (m : SMap (Option Word)) (a : Nat) : List Word → SMap (Option Word)
  | [] => m
  | w :: t => stageWords (SMap.set none m (a / 4) (some w)) (a + 4) t

/-- The window of staging: 6 MiB (R201). -/
def windowBytes : Nat := 0x600000

/-- Bytes that arrive are staged in hub SRAM, in a window of 6 MiB that goes with the processing point (R201): byte offset o of the bitstream at
byte o mod 6 MiB. -/
def stageIn (s : State) (a : Nat) (ws : List Word) : State :=
  let sram := ws.zipIdx.foldl (fun m x => Mem.write m ((a + 4 * x.2) % windowBytes) 4 x.1.toNat) s.sram
  { s with sram := sram, load := { s.load with stage := stageWords s.load.stage a ws } }

/-- The end of the staged bytes that are contiguous from offset `a`. -/
def contiguous (m : SMap (Option Word)) : Nat → Nat → Nat
  | 0, a => a
  | n + 1, a => if (SMap.get none m (a / 4)).isSome then contiguous m n (a + 4) else a

def Loader.end_ (x : Loader) : Nat := contiguous x.stage x.stage.length 0

/-- A field of the header, staged (R190). -/
def headerField (s : State) (a n : Nat) : Nat := leNat ((stagedBytes s.load.stage a n).getD [])

def bsLength (s : State) : Nat := headerField s 0x10 8
def bsKeyId (s : State) : Nat := headerField s 0x24 4
def bsKind (s : State) : Nat := headerField s 0x0E 1

/-! ### Failure (R204, R206) -/

def State.cfgState (s : State) : Nat := s.f F.CFG_STATUS_STATE

/-- The quadrants' resets with which a load starts and with which it fails (R203, R206), after the drain of R25. A reset already
requested takes them in (R24). -/
def requestQuadReset (s : State) (q : Nat) : State :=
  if s.quadResetting q ∨ s.packageResetting then s else (s.setRefusing q true).setDrain q .reset

def requestQuadResets (s : State) : State := foldS (List.range 4) s requestQuadReset

/-- A status token leaves a retouch endpoint (R221). -/
def endPartial (s : State) (code : Nat) : State :=
  match s.rtc.endpoint with
  | some rg => s.onRgn rg (fun r => { r with rtcStatus := some (if code = 0 then 0 else 1) })
  | none => s

/-- The clamps open (R228), and words that waited at their endpoints are presented (R229). -/
def openClamps (s : State) (rg : Rg) : State :=
  let s := s.onRgn rg (fun r => (List.range 1024).foldl (fun r n =>
    let x := r.cell (BitVec.ofNat 10 n)
    if x.clamped then r.setCell (BitVec.ofNat 10 n) { x with clamped := false } else r) r)
  presentWaiting s rg

/-- A readback starts (R232): it waits for the fix of a region that is in a cycle, and captures at once otherwise. -/
def startReadback (s : State) (kind : BitVec 2) (rg : Rg) : State :=
  let s := { s with rtc := { s.rtc with rb := some (kind, rg) } }
  let s := (s.setF F.RTC_RB_STATUS_BUSY 1).setF F.RTC_RB_STATUS_WAITING_FIX 1
  if (s.rgn rg).inCycle then s else capture s rg

/-- The next readback that waited starts, unless an apply to its region is in progress. -/
def nextReadback (s : State) : State :=
  match s.rtc.rb, s.rtc.rbQueue with
  | none, (k, rg) :: t => if s.applying = some rg then s else startReadback { s with rtc := { s.rtc with rbQueue := t } } k rg
  | _, _ => s

/-- The retouch port is IDLE again (R242): a status token leaves the endpoint, nothing is staged any more, and a readback that waited for the
apply starts (R232). -/
def closePartial (s : State) (code : Nat) : State :=
  let s := ((endPartial s code).setF F.RTC_STATUS_STATE 0).setF F.RTC_STATUS_SOURCE 0
  nextReadback { s with load := { armed := s.load.armed }, applying := none,
                        rtc := { s.rtc with node := none, endpoint := none, forced := false, cut := false, leaving := [], through := [], carried := 0, held := [], keys := [], holds := false } }

/-- The result and the count of a partial that is rejected (R224). -/
def recordReject (s : State) (code : Nat) (rg : Rg) (ix : Nat) : State :=
  let s := (s.setF F.RTC_RESULT_CODE code).setF F.RTC_RESULT_QUAD (quadOf rg)
  ((s.setF F.RTC_RESULT_RGN (numOf rg)).setF F.RTC_RESULT_INDEX ix).bump F.RTC_COUNTS_REJECTED 1

/-- A partial is rejected or abandoned (R224): the clamps of one that was being applied open, and a reset that waited for it follows (R25). -/
def rejectPartial (s : State) (code : Nat) (rg : Rg) (ix : Nat) : State :=
  let s := (recordReject s code rg ix).setF F.RTC_STATUS_CLAMPED 0
  match s.applying with
  | some rg => resetIfDue (closePartial (openClamps s rg) code) rg
  | none => closePartial s code

/-- The words of CFG.PART, and the jobs they give the regions, are gone (R206). -/
def clearPart (s : State) : State :=
  let s := { s with regs := SMap.keep (fun a => decide (a < 0x63000) || decide (0x65000 ≤ a)) s.regs }
  foldS allRegions s (fun s rg => (s.setRf rg F.RGN_STATUS_IN_JOB 0).setRf rg F.RGN_STATUS_JOB 0)

/-- The load fails (R204, R206). `ofs` is the byte offset of the failing record. A ground load that fails sets GROUND_ERR (R215). -/
def failLoad (s : State) (code : Nat) (rg : Rg) (ix ofs : Nat) : State :=
  let s := if s.load.path = 1 then (s.setF F.CFG_STATUS_GROUND_ERR 1).setF F.CFG_GROUND_STAT_RESULT code else s
  let s := s.setReg R.CFG_ERR (faultKey [(code, 4), (quadOf rg, 2), (numOf rg, 4), (ix, 10)])
  let s := (s.setReg R.CFG_ERR_OFFSET_LO (BitVec.ofNat 32 ofs)).setF F.CFG_ERR_OFFSET_HI_OFS_HI (ofs / 2 ^ 32)
  let s := ((s.setF F.CFG_STATUS_STATE 5).bump F.CFG_LOADS_FAILED 1).ibi 0x05 0 code
  let sram := SMap.keep (fun a => decide (windowBytes ≤ a)) s.sram
  requestQuadResets (clearPart { s with load := {}, keys := [], sram := sram })

/-- A ground write ends with a result (R214); nothing is staged any more. -/
def endGround (s : State) (code : Nat) : State :=
  { s.setF F.CFG_GROUND_STAT_RESULT code with load := {} }

/-- A ground write is in progress (R214): armed, or its bitstream is arriving. -/
def State.groundBusy (s : State) : Bool :=
  s.load.armed.isSome || (match s.load.kind with | .ground _ => true | _ => false)

/-- The load or the ground write in progress is abandoned with code 15 (R204, R447). -/
def abandonLoad (s : State) : State :=
  if s.load.kind = .full ∧ (s.cfgState = 1 ∨ s.cfgState = 2) then failLoad s 15 0 0 s.load.point
  else if s.groundBusy then endGround s 15
  else s

/-- A package reset is requested (R25, R262): the ingresses refuse and drain first; an orderly shutdown, an exit and a load in progress are
abandoned (R204, R206, R447). A request during another is merged (R24). -/
def requestPackageReset (s : State) (cause : Nat) : State :=
  if s.packageResetting ∨ ¬ s.hubPowered then s
  else
    let s := { s with pwr := { s.pwr with cause := BitVec.ofNat 3 cause, shutdown := 0, exiting := false, goal := none, wakeDue := none } }
    abandonLoad ((s.setRefusing 4 true).setDrain 4 .reset)

/-- FABRIC_RESET_TIMER (R321): 5 µs after the packet went out, each package begins a package reset. -/
def execFabricResetTimer (s : State) : Host.Outcome State Fault Refusal :=
  .next (if s.fab.resetDue then requestPackageReset { s with fab := { s.fab with resetDue := false } } 2 else s)

/-! ### The start of a load (R203) -/

/-- A FULL load starts (R203): RECEIVING, the quadrants are reset, a partial in progress is abandoned (R222). `path` is 1 ground,
2 Oxdon, 3 I3C. -/
def startLoad (s : State) (path : Nat) : State :=
  let s := (s.setF F.CFG_STATUS_STATE 1).setF F.CFG_STATUS_SOURCE path
  let s := ((s.setF F.CFG_STATUS_ENC 0).setF F.CFG_STATUS_DONE_SEEN 0).setF F.CFG_STATUS_DONE_PIN 0
  let s := ((s.setF F.RTC_STATUS_ENC_SEEN 0).setReg R.RTC_DIRTY_LO 0).setReg R.RTC_DIRTY_HI 0
  let s := s.setReg R.CFG_ERR 0
  let s := { s with load := { s.load with kind := .full, path := BitVec.ofNat 2 path, point := 0, sections := 0, sec := none, slots := 0,
                                          settings := [], touched := 0 } }
  requestQuadResets (clearPart s)

/-- The checks of a header (R190, R204): the code of the first failure. `full` says that it must be a FULL one. -/
def headerFlaw (s : State) (full : Bool) : Option Nat :=
  if headerField s 0 8 ≠ 0x31535449424C5241 ∨ headerField s 0x0C 2 ≠ 1 ∨ bsKind s = 0 ∨ 2 < bsKind s then some 1
  else if headerField s 8 4 ≠ 0x000400C0 then some 2
  else if headerField s 0x0F 1 ≠ 0 ∨ headerField s 0x2C 20 ≠ 0 ∨ (full ∧ headerField s 0x28 4 ≠ 0) then some 5
  else if bsLength s < 64 then some 3
  else none

/-- The header of a FULL load is checked, and the processing point passes it. -/
def takeFullHeader (s : State) (path : Nat) : State :=
  let s := startLoad s path
  match headerFlaw s true with
  | some c => failLoad s c 0 0 0
  | none => { s with load := { s.load with point := 64 } }

/-! ### Sections (R191, R199) -/

/-- Bytes of a section's payload on the wire (R199). -/
def wireLen (enc : Bool) (len : Nat) : Nat := if enc then len + 16 * ((len + 65535) / 65536) else len

/-- The project key slot that holds a KEY_ID (R199). -/
def keySlot (s : State) (id : Nat) : Option (BitVec 288) := (s.keys.find? (fun e => e.2.toNat / 2 ^ 256 == id)).map (·.2)

/-- What a read of payload bytes gives: not all staged yet, a failure, or the plaintext. -/
inductive Got where
  | wait
  | bad (code : Nat)
  | ok (l : List (BitVec 8))
  deriving DecidableEq, Repr

/-- A 4-byte count, most significant byte first (R199). -/
def be4 (i : Nat) : List (BitVec 8) := (bytesOf 4 i).reverse

/-- Chunk `i` of an encrypted section, opened (R199). -/
def Section.chunk (s : State) (x : Section) (i : Nat) : Got :=
  let n := min 65536 (x.len - 65536 * i)
  let at_ := x.start + i * (65536 + 16)
  match stagedBytes s.load.stage at_ (n + 16), stagedBytes s.load.stage (x.start - 32) 32, keySlot s (bsKeyId s) with
  | none, _, _ => .wait
  | _, none, _ => .wait
  | _, _, none => .bad 8
  | some w, some h, some key =>
    let last := decide (x.len ≤ 65536 * (i + 1))
    let iv : BitVec 96 := BitVec.ofNat 96 (beNat ((h.drop 16).take 8 ++ be4 i))
    let aad := h ++ be4 i ++ [ofBool 8 last]
    match Config.gcmOpen (bitsAt key 0 256) iv aad (w.take n) (BitVec.ofNat 128 (beNat (w.drop n))) with
    | none => .bad 9
    | some p => .ok p

/-- Chunks `i`, …, joined. -/
def Section.chunks (s : State) (x : Section) (i : Nat) : Nat → Got
  | 0 => .ok []
  | n + 1 =>
    match x.chunk s i, x.chunks s (i + 1) n with
    | .ok a, .ok b => .ok (a ++ b)
    | .bad c, _ => .bad c
    | .wait, _ => .wait
    | .ok _, r => r

/-- `n` plaintext bytes of a section's payload from byte `a`. -/
def Section.bytes (s : State) (x : Section) (a n : Nat) : Got :=
  if ¬ x.enc then
    match stagedBytes s.load.stage (x.start + a) n with
    | some l => .ok l
    | none => .wait
  else if n = 0 then .ok []
  else
    let i := a / 65536
    match x.chunks s i ((a + n - 1) / 65536 + 1 - i) with
    | .ok l => .ok ((l.drop (a - 65536 * i)).take n)
    | r => r

/-- The byte offset in the bitstream of plaintext byte `a` of a section. -/
def Section.offset (x : Section) (a : Nat) : Nat := x.start + a + (if x.enc then 16 * (a / 65536) else 0)

/-- What the header at offset `at_` of a section gives (R191): not staged, a failure, or the section. `first` and `last` are whether a
PARTITION section must stand here, and the types allowed. -/
def readSection (s : State) (at_ : Nat) (known : Nat → Bool) : Got × Option Section :=
  match stagedBytes s.load.stage at_ 32 with
  | none => (.wait, none)
  | some h =>
    let fld (a n : Nat) : Nat := leNat ((h.drop a).take n)
    let typ := fld 0 1
    let enc := decide (fld 1 1 % 2 = 1)
    let len := fld 8 8
    if ¬ known typ then (.bad 4, none)
    else if 2 ≤ fld 1 1 ∨ fld 2 6 ≠ 0 ∨ fld 0x1C 4 ≠ 0 ∨ (¬ enc ∧ fld 0x10 8 ≠ 0) ∨ (enc ∧ (typ = 1 ∨ typ = 0xF)) then (.bad 5, none)
    else if len % 8 ≠ 0 ∨ bsLength s < at_ + 32 + wireLen enc len then (.bad 3, none)
    else if enc ∧ (bsKeyId s = 0 ∨ (keySlot s (bsKeyId s)).isNone) then (.bad 8, none)
    else (.ok [], some { typ := BitVec.ofNat 8 typ, enc := enc, count := BitVec.ofNat 32 (fld 0x18 4), len := len,
                         nonce := BitVec.ofNat 64 (fld 0x10 8), start := at_ + 32 })

/-- Section types of R192. -/
def knownType (t : Nat) : Bool := (decide (1 ≤ t) && decide (t ≤ 0xB)) || t == 0xF

/-! ### Records (R192) -/

/-- The region that a run header names. -/
def runRgn (h : Nat) : Rg := BitVec.ofNat 6 (16 * (h % 4) + h / 4 % 16)

def hf (h lo w : Nat) : Nat := h / 2 ^ lo % 2 ^ w

/-- The data length of a record from its run header, or the code of R204 that it fails with. -/
def runSize (typ h : Nat) : Except Nat Nat :=
  let need (reserved : Nat) (inRange : Bool) (n : Nat) : Except Nat Nat :=
    if h / 2 ^ reserved ≠ 0 then .error 5 else if inRange then .ok n else .error 6
  match typ with
  | 0x2 => need 27 (decide (1 ≤ hf h 16 11) && decide (hf h 6 10 + hf h 16 11 ≤ 1024)) (256 * hf h 16 11)
  | 0x3 => need 21 true 896
  | 0x4 => need 31 (decide (1 ≤ hf h 20 11) && decide (hf h 10 10 + hf h 20 11 ≤ 1020)) (8 * hf h 20 11)
  | 0x5 => need 45 (decide (1 ≤ hf h 25 20) && decide (hf h 6 19 + hf h 25 20 ≤ 524288)) (8 * hf h 25 20)
  | 0x6 => need 43 (decide (hf h 6 2 ≤ 2) && decide (hf h 8 2 ≤ 2) && decide (hf h 10 16 % 8 = 0) && decide (hf h 26 17 % 8 = 0) &&
      decide (1 ≤ hf h 26 17) && decide (hf h 10 16 + hf h 26 17 ≤ 65536)) (hf h 26 17)
  | 0x7 => need 32 (decide (hf h 0 3 ≤ 5) && decide (16 ≤ hf h 3 29) && decide (hf h 3 29 % 8 = 0) && decide (hf h 3 29 ≤ 16400)) (hf h 3 29)
  | 0x8 => need 6 true 1664
  | 0x9 => need 23 (decide (hf h 6 4 ≤ 3) && decide (hf h 10 13 ≤ 4096))
      (match hf h 6 4 with | 0 => 8192 | 1 => 2048 | 2 => 2048 | _ => 16)
  | 0xA => need 48 (decide (hf h 0 24 % 8 = 0) && decide (hf h 0 24 + hf h 24 24 ≤ 32768)) (hf h 24 24)
  | _ => .error 4

/-- A failing record: the code, the region and the index that CFG.ERR or RTC.RESULT names. -/
structure Bad where
  code : Nat
  rg : Rg
  ix : Nat
  deriving DecidableEq, Repr

/-- The frames of a CANVAS run are written one by one; with `check` each is checked against the frames already written (R205). A
failing frame is not written. -/
def writeFrames (check : Bool) (rg : Rg) : Nat → List (List (BitVec 8)) → State → Except (Bad × State) State
  | _, [], s => .ok s
  | n, d :: t, s =>
    let b : BitVec 2048 := BitVec.ofNat 2048 (leNat d)
    let c : CellNo := BitVec.ofNat 10 n
    let s' := s.onRgn rg (fun r => r.putFrame c b)
    if ¬ frameReserved rg c b then .error (⟨5, rg, n⟩, s)
    else if check ∧ ¬ frameSound s' rg c then .error (⟨10, rg, n⟩, s)
    else writeFrames check rg (n + 1) t s'

/-- Words of 32 bits written to the register window from offset `a` (R92). -/
def Region.putRegs (r : Region) (a : Nat) : List Nat → Region
  | [] => r
  | w :: t => Region.putRegs (r.setReg a (BitVec.ofNat 32 w)) (a + 4) t

/-- The stroke words of a page (R192). -/
def putPage (r : Region) (key : Nat) : List Nat → Region
  | [] => r
  | w :: t => putPage { r with strokes := SMap.set 0 r.strokes key (BitVec.ofNat 112 w) } (key + 1) t

/-- Palette entries from `e` upward: palette entries below 992, start values above (R82, R220). -/
def putPalette (r : Region) (c : Cl) (e : Nat) : List Nat → Region
  | [] => r
  | w :: t =>
    let v : Entry := BitVec.ofNat 64 w
    putPalette (if e < 992 then r.setCl c { r.cl c with pal := SMap.set 0 (r.cl c).pal e v }
      else { r with startv := SMap.set 0 r.startv (28 * c.toNat + (e - 992)) v }) c (e + 1) t

/-- Reserved bits of the words of a table are 0. -/
def wordsClear (mask : Nat) (ws : List Nat) : Bool := ws.all (fun w => w &&& mask == 0)

/-- The region tables (R96, R97, R101, R143, R192). -/
def writeTable (r : Region) (h : Nat) (d : List (BitVec 8)) : Option Region :=
  let ws := numbers 4 d
  match hf h 6 4 with
  | 0 =>
    let ok := (ws.zipIdx).all (fun x => x.1 &&& (if x.2 % 2 = 0 then 0xFFFFFC00 else 0xFF000000) == 0)
    if ok then some (r.putRegs (R.RGN_ROUTE 0) ws) else none
  | 1 => if wordsClear 0xFFFFFE00 ws then some (r.putRegs (R.RGN_XMAP 0) ws) else none
  | 2 => some ((r.putRegs (R.RGN_MORDER 0) ws).setF F.RGN_MCOUNT_COUNT (hf h 10 13))
  | _ =>
    if leNat ((d.drop 2).take 6) ≠ 0 then none
    else
      let r := r.setF F.RWD_CTRL_SNAP_EVERY (leNat (d.take 2))
      some ((r.setReg R.RWD_JLOG_LO (BitVec.ofNat 32 (ws.getD 2 0))).setReg R.RWD_JLOG_HI (BitVec.ofNat 32 (ws.getD 3 0)))

/-- A slot table goes into the active and the shadow copy of its port (R294). -/
def writeSlot (s : State) (p : Nat) (d : List (BitVec 8)) : Option State :=
  let ws := numbers 4 d
  let es := ws.drop 4
  if leNat ((d.drop 8).take 8) ≠ 0 ∨ ¬ wordsClear 0xFFFE0000 es then none
  else
    let m : SMap Word := putWords [] 0 (es.map (BitVec.ofNat 32))
    let lo := BitVec.ofNat 32 (ws.getD 0 0)
    let hi := BitVec.ofNat 32 (ws.getD 1 0)
    let s := ((s.setReg (R.LNK_PLAN_LO p) lo).setReg (R.LNK_PLAN_HI p) hi).setReg (R.LNK_PLAN_SH_LO p) lo
    let s := s.setReg (R.LNK_PLAN_SH_HI p) hi
    let s := { s with load := { s.load with slots := setBit s.load.slots p true } }
    some (setClipped (s.onPort p (fun x => { x with map := m, shadow := m })) p)

/-- Override and forwarding entries of a region (R258, R265, R269). -/
def writeOverrides (r : Region) (d : List (BitVec 8)) : Option Region :=
  let ws := numbers 4 d
  let ov := ws.take 32
  let fw := ws.drop 32
  let ok := (ov.zipIdx).all (fun x => x.1 &&& (if x.2 % 2 = 0 then 0xFF000000 else 0xE0000000) == 0) && wordsClear 0xFFFC0000 fw
  if ok then some (((r.putRegs (R.NOC_OVR 0) ov).putRegs (R.NOC_OVR_SHADOW 0) ov).putRegs (R.NOC_SFWD 0) fw) else none

/-- Bytes of one of the memories of an easel core. -/
def Easel.putBytes (e : Easel) (m a : Nat) (d : List (BitVec 8)) : Easel :=
  match m with
  | 0 => { e with prog := Mem.writeBytes e.prog a d }
  | 1 => { e with x := Mem.writeBytes e.x a d }
  | _ => { e with y := Mem.writeBytes e.y a d }

/-- 64-bit words written from key `k` upward. -/
def putEntries (m : SMap Entry) (k : Nat) : List Nat → SMap Entry
  | [] => m
  | w :: t => putEntries (SMap.set 0 m k (BitVec.ofNat 64 w)) (k + 1) t

/-- A load does not power the region (R27): it is defective, or isolated while FLT.CTRL.GATE_ISO is 1. -/
def State.staysGated (s : State) (rg : Rg) : Bool := s.defective rg || (s.rbit rg F.RGN_CTRL_ISOLATE && s.bit F.FLT_CTRL_GATE_ISO)

/-- A gated region is powered, with nothing in its stores. -/
def Region.ungate (r : Region) : Region :=
  if r.f F.RGN_STATUS_CFG = 3 then r.gated.setF F.RGN_STATUS_CFG (if r.bit F.RGN_CTRL_ISOLATE then 2 else 0) else r

/-- The failing word of an isolation with SUB 1–5 has been rewritten by a load: a release no longer isolates the region again (R459). -/
def Region.rewritten (r : Region) (sub : Nat) (lo n : Nat) : Region :=
  if r.isoSub.toNat = sub ∧ lo ≤ r.isoWord.toNat ∧ r.isoWord.toNat < lo + n then { r with isoSub := 0 } else r

/-- A record is written (R192, R203). A region that was GATED is powered by the first record of a load that names it (R27). -/
def writeRecord (check : Bool) (typ h : Nat) (d : List (BitVec 8)) (s : State) : Except (Bad × State) State :=
  let rg := runRgn h
  let c : Cl := BitVec.ofNat 4 (hf h 6 4)
  let bad (code ix : Nat) : Except (Bad × State) State := .error (⟨code, rg, ix⟩, s)
  let named := typ ≠ 0x7 ∧ typ ≠ 0x8 ∧ typ ≠ 0xA
  let s := if named ∧ s.load.kind ≠ .retouch ∧ ¬ s.staysGated rg then s.onRgn rg Region.ungate else s
  let s := if named then { s with load := { s.load with touched := setBit s.load.touched rg.toNat true } } else s
  match typ with
  | 0x2 => writeFrames check rg (hf h 6 10) (pieces 256 (hf h 16 11) d) s
  | 0x3 => .ok (s.onRgn rg (fun r =>
      let r := putPage r (strokeKey c (BitVec.ofNat 6 (hf h 10 6)) (64 * hf h 16 5)) (numbers 14 d)
      if hf h 10 6 = 0 then (r.computeEnd c).rewritten 5 c.toNat 1 else r))
  | 0x4 => .ok (s.onRgn rg (fun r => putPalette r c (hf h 10 10) (numbers 8 d)))
  | 0x5 => .ok (s.onRgn rg (fun r => r.loadDmem (hf h 6 19) (numbers 8 d)))
  | 0x6 =>
    let k : CoreNo := if hf h 6 2 = 0 then 0 else if hf h 6 2 = 1 then 1 else 2
    .ok (s.onEas rg k (fun e => e.putBytes (hf h 8 2) (hf h 10 16) d))
  | 0x7 => match writeSlot s (hf h 0 3) d with | some s => .ok s | none => .error (⟨5, 0, 0⟩, s)
  | 0x8 => match writeOverrides (s.rgn rg) d with | some r => .ok (s.setRgn rg (r.rewritten 4 0 4096)) | none => bad 5 0
  | 0x9 =>
    match writeTable (s.rgn rg) h d with
    | some r => .ok (s.setRgn rg (if hf h 6 4 ≤ 2 then r.rewritten (hf h 6 4 + 1) 0 (d.length / 8 * 2) else r))
    | none => bad 5 0
  | _ => .ok { s with library := (List.range 4).foldl (fun m q => Mem.writeBytes m (0x8000 * q + hf h 0 24) d) s.library }

/-! ### Processing (R201, R203) -/

/-- The loader is at work on sections: RECEIVING, and the quadrant resets of the load's start are done. -/
def State.loading (s : State) : Bool :=
  decide (s.load.kind = .full ∧ s.cfgState = 1) && (List.range 4).all (fun q => !s.quadResetting q)

/-- The outcome of a record: not all staged yet, a failure of the record `past` bytes further on, or the state with so many plaintext bytes
processed. -/
inductive Took where
  | wait
  | bad (b : Bad) (s : State) (past : Nat := 0)
  | done (s : State) (used : Nat)
  deriving DecidableEq, Repr

/-- The next record of a section of runs, as read: not all staged, a failure, or its run header and data. -/
inductive Run where
  | wait
  | bad (b : Bad)
  | run (h : Nat) (d : List (BitVec 8))
  deriving DecidableEq, Repr

/-- The region that a record concerns (R192, R204): those of SLOT and LIBRARY name none. -/
def recordRgn (typ h : Nat) : Rg := if typ = 0x7 ∨ typ = 0xA then 0 else runRgn h

/-- The cell, cluster or entry that a run header names (R217, R242). -/
def recordIndex (typ h : Nat) : Nat :=
  match typ with
  | 0x2 => hf h 6 10
  | 0x3 => hf h 6 4
  | 0x4 => hf h 10 10
  | _ => 0

def readRun (s : State) (x : Section) : Run :=
  let typ := x.typ.toNat
  if x.len < x.done + 8 then .bad ⟨6, 0, 0⟩
  else
    match x.bytes s x.done 8 with
    | .wait => .wait
    | .bad c => .bad ⟨c, 0, 0⟩
    | .ok hb =>
      let h := leNat hb
      match runSize typ h with
      | .error c => .bad ⟨c, recordRgn typ h, recordIndex typ h⟩
      | .ok n =>
        if x.len < x.done + 8 + n then .bad ⟨6, recordRgn typ h, recordIndex typ h⟩
        else
          match x.bytes s (x.done + 8) n with
          | .wait => .wait
          | .bad c => .bad ⟨c, recordRgn typ h, recordIndex typ h⟩
          | .ok d => .run h d

/-- The next record of a section of runs is written. -/
def takeRun (s : State) (x : Section) : Took :=
  match readRun s x with
  | .wait => .wait
  | .bad b => .bad b s
  | .run h d =>
    match writeRecord true x.typ.toNat h d s with
    | .ok s => .done s (8 + d.length)
    | .error (b, s) => .bad b s

/-- The section after `used` more bytes: the processing point moves, and a section that is used up ends. -/
def advance (s : State) (x : Section) (used : Nat) : State :=
  let done := x.done + used
  if x.len ≤ done then
    { s with load := { s.load with sec := none, sections := s.load.sections + 1, point := x.start + wireLen x.enc x.len } }
  else { s with load := { s.load with sec := some { x with done := done }, point := x.offset done } }

/-- One record of the section in progress. -/
def takeIn (s : State) (x : Section) (take : State → Section → Took) : State :=
  if x.len ≤ x.done then advance s x 0
  else
    match take s x with
    | .wait => s
    | .bad b s past => failLoad s b.code b.rg b.ix (x.offset (x.done + past))
    | .done s used => advance s x used

/-- The order of sections in a FULL bitstream (R192): PARTITION first and once, nothing beyond SECTIONS. -/
def orderOk (s : State) (typ : Nat) : Bool := decide ((s.load.sections = 0) = (typ = 1))

/-- A step of the loader on a section of type `typ`: the section is opened if none is, and its next record taken. A header that fails
a check fails the load, whatever its type; a section of another type leaves the state as it is. Where LENGTH has been reached, sections are missing
(3), or the last is no SIGNATURE (4). -/
def sectionStep (s : State) (typ : Nat) (take : State → Section → Took) : State :=
  if ¬ s.loading then s
  else
    match s.load.sec with
    | some x => if x.typ.toNat = typ then takeIn s x take else s
    | none =>
      if bsLength s < s.load.point + 32 then
        failLoad s (if bsLength s ≤ s.load.point ∧ headerField s 0x20 4 = s.load.sections then 4 else 3) 0 0 s.load.point
      else
      match readSection s s.load.point knownType with
      | (.wait, _) => s
      | (.bad c, _) => failLoad s c 0 0 s.load.point
      | (.ok _, none) => s
      | (.ok _, some x) =>
        if ¬ orderOk s x.typ.toNat then failLoad s 4 0 0 s.load.point
        else if headerField s 0x20 4 ≤ s.load.sections then failLoad s 3 0 0 s.load.point
        else if x.typ.toNat ≠ typ then s
        else
          let s := if x.enc then s.setF F.CFG_STATUS_ENC 1 else s
          takeIn { s with load := { s.load with sec := some x, point := x.start } } x take

/-! ### The partition table (R194) -/

/-- A partition entry. -/
structure PartEntry where
  pid : Nat
  rg : Rg
  sched : Bool
  easel : Bool
  dmem : Bool
  canvas : Bool
  x0 : Nat
  y0 : Nat
  x1 : Nat
  y1 : Nat
  deriving DecidableEq, Repr

def partEntry (v : Nat) : PartEntry :=
  { pid := hf v 0 8, rg := BitVec.ofNat 6 (16 * hf v 8 2 + hf v 10 4), sched := v.testBit 14, easel := v.testBit 15, dmem := v.testBit 16,
    canvas := v.testBit 17, x0 := hf v 18 5, y0 := hf v 23 5, x1 := hf v 28 5, y1 := hf v 33 5 }

/-- The cell lies in the rectangle of a CANVAS partition. -/
def PartEntry.covers (p : PartEntry) (n : CellNo) : Bool :=
  p.canvas && decide (p.x0 ≤ n.toNat % 32 ∧ n.toNat % 32 ≤ p.x1 ∧ p.y0 ≤ n.toNat / 32 ∧ n.toNat / 32 ≤ p.y1)

/-- Two partitions share a cell, or one region's SCHED, EASEL or DMEM scope (R204). -/
def PartEntry.clash (a b : PartEntry) : Bool :=
  decide (a.rg = b.rg) && ((a.sched && b.sched) || (a.easel && b.easel) || (a.dmem && b.dmem) ||
    (a.canvas && b.canvas && decide (a.x0 ≤ b.x1 ∧ b.x0 ≤ a.x1 ∧ a.y0 ≤ b.y1 ∧ b.y0 ≤ a.y1)))

/-- The first partition entry that fails, its index and its code (R204): a reserved field that is not 0 is 5, an invalid table 7. -/
def partFlaw : List PartEntry → Nat → List Nat → Option (Nat × Nat × Rg)
  | _, _, [] => none
  | before, i, v :: t =>
    let p := partEntry v
    if 2 ^ 38 ≤ v then some (i, 5, p.rg)
    else if p.pid = 0 ∨ p.x1 < p.x0 ∨ p.y1 < p.y0 ∨ before.any (fun a => a.pid == p.pid || a.clash p) then some (i, 7, p.rg)
    else partFlaw (p :: before) (i + 1) t

/-- The PARTITION payload: the regions' jobs, and the words of CFG.PART. More than 255 entries cannot have PIDs of their own, which makes the
table invalid. -/
def takePartition (s : State) (x : Section) : Took :=
  let n := x.count.toNat
  if 255 < n then .bad ⟨7, 0, 255⟩ s (512 + 16 * 255)
  else if x.len ≠ 512 + 16 * n then .bad ⟨3, 0, 0⟩ s
  else
    match x.bytes s 0 x.len with
    | .wait => .wait
    | .bad c => .bad ⟨c, 0, 0⟩ s
    | .ok d =>
      let rgs := numbers 8 (d.take 512)
      let es := numbers 16 (d.drop 512)
      match rgs.findIdx? (fun v => decide (128 ≤ v)) with
      | some i => .bad ⟨5, BitVec.ofNat 6 i, 0⟩ s (8 * i)
      | none =>
        match partFlaw [] 0 es with
        | some (i, code, rg) => .bad ⟨code, rg, i⟩ s (512 + 16 * i)
        | none =>
          let s := foldS (numbers 4 d).zipIdx s (fun s w => s.setReg (R.CFG_PART w.2) (BitVec.ofNat 32 w.1))
          let s := foldS rgs.zipIdx s (fun s v =>
            let rg : Rg := BitVec.ofNat 6 v.2
            (s.setRf rg F.RGN_STATUS_JOB (v.1 % 64)).setRf rg F.RGN_STATUS_IN_JOB (v.1 / 64))
          .done s x.len

/-- The partition entries that CFG.PART holds (R194); a word 0 is no entry, as no PID is 0. -/
def State.partitions (s : State) : List PartEntry :=
  ((List.range 255).map (fun i => partEntry ((s.reg (R.CFG_PART (128 + 4 * i))).toNat + 2 ^ 32 * (s.reg (R.CFG_PART (129 + 4 * i))).toNat))).filter
    (fun p => decide (p.pid ≠ 0))

/-! ### Commands of the sections -/

/-- PARTITION (R194). -/
def execPartition (s : State) : Host.Outcome State Fault Refusal := .next (sectionStep s 0x1 takePartition)
/-- CANVAS (R205). -/
def execCanvas (s : State) : Host.Outcome State Fault Refusal := .next (sectionStep s 0x2 takeRun)
/-- STROKE (R75, R192). -/
def execStroke (s : State) : Host.Outcome State Fault Refusal := .next (sectionStep s 0x3 takeRun)
/-- PALETTE (R82, R192). -/
def execPalette (s : State) : Host.Outcome State Fault Refusal := .next (sectionStep s 0x4 takeRun)
/-- DMEM (R192). -/
def execDmem (s : State) : Host.Outcome State Fault Refusal := .next (sectionStep s 0x5 takeRun)
/-- EASEL (R192). -/
def execEasel (s : State) : Host.Outcome State Fault Refusal := .next (sectionStep s 0x6 takeRun)
/-- SLOT (R294). -/
def execSlot (s : State) : Host.Outcome State Fault Refusal := .next (sectionStep s 0x7 takeRun)
/-- ROUTE_OVR (R269). -/
def execRouteOvr (s : State) : Host.Outcome State Fault Refusal := .next (sectionStep s 0x8 takeRun)
/-- REGION (R192). -/
def execRegion (s : State) : Host.Outcome State Fault Refusal := .next (sectionStep s 0x9 takeRun)
/-- LIBRARY (R356). -/
def execLibrary (s : State) : Host.Outcome State Fault Refusal := .next (sectionStep s 0xA takeRun)

/-- The SETTINGS of a section are checked and held for finishing (R193, R204). -/
def takeSettings (s : State) (x : Section) : Took :=
  if x.len ≠ 16 * x.count.toNat then .bad ⟨3, 0, 0⟩ s
  else
    match x.bytes s 0 x.len with
    | .wait => .wait
    | .bad c => .bad ⟨c, 0, 0⟩ s
    | .ok d =>
      let rs := (pieces 16 (d.length / 16) d).map (numbers 4)
      let flaw (r : List Nat) : Nat :=
        let m := groundMask (r.getD 0 0)
        if r.getD 3 0 != 0 then 5 else if m == 0 || (r.getD 1 0 &&& (0xFFFFFFFF - m)) != 0 then 11 else 0
      match rs.findIdx? (fun r => flaw r != 0) with
      | some i => .bad ⟨flaw (rs.getD i []), 0, i⟩ s (16 * i)
      | none =>
          let new := rs.map (fun r => (BitVec.ofNat 32 (r.getD 0 0), BitVec.ofNat 32 (r.getD 1 0), BitVec.ofNat 32 (r.getD 2 0)))
          .done { s with load := { s.load with settings := s.load.settings ++ new } } x.len

/-- SETTINGS (R193). -/
def execSettings (s : State) : Host.Outcome State Fault Refusal := .next (sectionStep s 0xB takeSettings)

/-- The SIGNATURE section ends the bitstream (R192, R195): 200 bytes, the last of SECTIONS; the load enters FINISHING. -/
def takeSignature (s : State) (x : Section) : Took :=
  if x.len ≠ 200 ∨ headerField s 0x20 4 ≠ s.load.sections + 1 then .bad ⟨3, 0, 0⟩ s
  else
    match x.bytes s 0 200 with
    | .wait => .wait
    | .bad c => .bad ⟨c, 0, 0⟩ s
    | .ok d =>
      if leNat ((d.drop 1).take 7) ≠ 0 then .bad ⟨5, 0, 0⟩ s
      else .done (s.setF F.CFG_STATUS_STATE 2) 200

/-- SIGNATURE (R196, R203). -/
def execSignature (s : State) : Host.Outcome State Fault Refusal := .next (sectionStep s 0xF takeSignature)

end Sys2Proof.Machine
end

