-- ==== Sys2Proof/Machine/Loading.lean ====
section
/-! DEFINITION. How a FULL load comes in, finishes and starts the package (R200–R211), and the grounds and key slots (R196–R198,
R212–R216). -/

namespace Sys2Proof.Machine

/-! ### Signatures (R195, R196) -/

/-- The bytes of words that hold the first byte in [7:0], as a number with the first byte most significant. -/
def wordsNat (ws : List Word) : Nat := beNat (ws.flatMap (fun w => bytesOf 4 w.toNat))

/-- The code of R204 with which the signature payload at offset `p` of the staged bitstream fails, if it does. -/
def signatureFlaw (s : State) (p : Nat) : Option Nat :=
  match stagedBytes s.load.stage p 200, stagedBytes s.load.stage 0 p with
  | some d, some text =>
    let part (i : Nat) : List (BitVec 8) := (d.drop (8 + 48 * i)).take 48
    let num (i : Nat) : BitVec 384 := BitVec.ofNat 384 (beNat (part i))
    let slot := leNat (d.take 1)
    let open_ := decide (s.fuses.programmed = 0)
    let held := decide (slot < 4) && s.fuses.programmed.getLsbD slot && !s.fuses.revoked.getLsbD slot &&
      decide (Config.sha384 ((4 : BitVec 8) :: (part 0 ++ part 1)) = SMap.get 0 s.fuses.hashes slot)
    if ¬ open_ ∧ ¬ held then some 13
    else if ¬ Config.ecdsaOk (num 0) (num 1) (num 2) (num 3) (Config.sha384 text) ∨ bsLength s ≠ p + 200 then some 12
    else none
  | _, _ => some 12

/-- The slot that verified the bitstream whose signature payload stands at offset `p` (R217). -/
def noteVerified (s : State) (p : Nat) : State :=
  if s.fuses.programmed = 0 then s else s.setF F.CFG_SKEY_LAST (leNat ((stagedBytes s.load.stage p 1).getD []))

/-! ### Project keys (R198) -/

def State.setKey (s : State) (n : Nat) (v : BitVec 288) : State := { s with keys := SMap.set 0 s.keys n v }

/-- A wrapped key is unwrapped into a slot, which is left empty where that fails. -/
def unwrapInto (s : State) (n : Nat) (w : BitVec 384) : State :=
  let fail := (s.setKey n 0).setF F.CFG_PKEY_STAT_UNWRAP_FAIL 1
  match Config.keyUnwrap w with
  | none => fail
  | some b =>
    let id := leNat (bytesOf 4 (b.toNat / 2 ^ 32 % 2 ^ 32)).reverse
    if b.toNat % 2 ^ 32 ≠ 0 ∨ id = 0 then fail else s.setKey n (BitVec.ofNat 288 (b.toNat / 2 ^ 64 + 2 ^ 256 * id))

/-- CFG.PKEY_WRAP. -/
def State.wrapped (s : State) : BitVec 384 := BitVec.ofNat 384 (wordsNat ((List.range 12).map (fun i => s.reg (R.CFG_PKEY_WRAP i))))

/-- UNWRAP (R198). -/
def execUnwrap (slot : BitVec 3) (s : State) : Host.Outcome State Fault Refusal := .next (unwrapInto s slot.toNat s.wrapped)

/-- KEY_ERASE (R198, R217). -/
def execKeyErase (slot : BitVec 3) (s : State) : Host.Outcome State Fault Refusal := .next (s.setKey slot.toNat 0)

/-- KEY_ERASE_ALL (R198, R217). -/
def execKeyEraseAll (s : State) : Host.Outcome State Fault Refusal := .next { s with keys := [] }

/-! ### Signing slots (R197) -/

/-- PROGRAM: from the I3C target only, with ARM at 0xC5; one-time. -/
def execProgram (by_ : Writer) (slot : BitVec 2) (arm : BitVec 8) (s : State) : Host.Outcome State Fault Refusal :=
  let n := slot.toNat
  .next (
    if by_ ≠ .i3c ∨ arm ≠ 0xC5 ∨ s.fuses.programmed.getLsbD n then s
    else
      let h : BitVec 384 := BitVec.ofNat 384 (wordsNat ((List.range 12).map (fun i => s.reg (R.CFG_SKEY_HASH i))))
      { s with fuses := { s.fuses with programmed := setBit s.fuses.programmed n true, hashes := SMap.set 0 s.fuses.hashes n h } })

/-- REVOKE: from the I3C target only, with ARM at 0xC5; one-time. -/
def execRevoke (by_ : Writer) (slot : BitVec 2) (arm : BitVec 8) (s : State) : Host.Outcome State Fault Refusal :=
  .next (
    if by_ ≠ .i3c ∨ arm ≠ 0xC5 then s
    else { s with fuses := { s.fuses with revoked := setBit s.fuses.revoked slot.toNat true } })

/-! ### Grounds (R212–R216) -/

/-- Copy `c` of ground slot `n`. -/
def State.copy (s : State) (n : Nat) (c : Bool) : GroundCopy := SMap.get {} s.flash.copies (2 * n + c.toNat)

def State.setCopy (s : State) (n : Nat) (c : Bool) (x : GroundCopy) : State :=
  { s with flash := { s.flash with copies := SMap.set {} s.flash.copies (2 * n + c.toNat) x } }

/-- The stored bytes of a copy. -/
def GroundCopy.text (x : GroundCopy) : List (BitVec 8) :=
  ((List.range ((x.length + 3) / 4)).flatMap (fun i => bytesOf 4 (SMap.get 0 x.bytes i).toNat)).take x.length

/-- A copy is valid (R213). -/
def GroundCopy.valid (x : GroundCopy) : Bool := x.commit && decide (Config.sha384 x.text = x.digest)

/-- SEQ `a` is later than `b`, as a signed 32-bit difference (R213). -/
def laterSeq (a b : Word) : Bool := decide (0 < (a - b).toInt)

/-- The active copy of a slot (R213). -/
def State.activeCopy (s : State) (n : Nat) : Option Bool :=
  let a := s.copy n false
  let b := s.copy n true
  if a.valid ∧ b.valid then some (laterSeq b.seq a.seq) else if a.valid then some false else if b.valid then some true else none

/-- A copy is loaded as a FULL load (R215). -/
def loadCopy (s : State) (n : Nat) (c second : Bool) : State :=
  let x := s.copy n c
  let s := if x.wrapped = 0 then s else unwrapInto s 7 x.wrapped
  let stage := (List.range ((x.length + 3) / 4)).foldl
    (fun (m : SMap (Option Word)) i => SMap.set none m i (some (SMap.get 0 x.bytes i))) []
  let s := { s with load := { stage := stage, copy := c, fallback := second } }.setF F.CFG_STATUS_SLOT n
  takeFullHeader (if second then s.setF F.CFG_STATUS_GROUND_FALLBACK 1 else s) 1

/-- A ground slot is loaded (no code of R204 is stated for a slot that holds no valid copy: its RESULT is a free value other than 0): its active copy, or the other one where a committed copy with the later SEQ fails its digest (R215). -/
def loadGround (s : State) (n : Nat) : State :=
  match s.activeCopy n with
  | none =>
    let (v, s) := s.draw 4
    let s := s.setF F.CFG_GROUND_STAT_RESULT (1 + v.toNat % 15)
    ((s.setF F.CFG_STATUS_GROUND_ERR 1).setF F.CFG_STATUS_SLOT n).ibi 0x05 0 (s.f F.CFG_ERR_CODE)
  | some c =>
    let o := s.copy n (!c)
    loadCopy s n c (o.commit && !o.valid && laterSeq o.seq (s.copy n c).seq)

/-- A FULL load is in progress. -/
def State.fullLoad (s : State) : Bool := decide (s.cfgState = 1) || decide (s.cfgState = 2)

/-- A partial in progress gives way to a FULL load (R222). -/
def yieldPartial (s : State) : State :=
  if s.load.kind = .retouch then rejectPartial s 15 0 0 else s

/-- GROUND_LOAD (R215): refused while a load or a ground write is in progress (R200, R214). -/
def execGroundLoad (slot : BitVec 2) (s : State) : Host.Outcome State Fault Refusal :=
  .next (if s.fullLoad ∨ s.groundBusy then s else loadGround (yieldPartial s) slot.toNat)

/-- GROUND_WRITE (R214): the next bitstream goes to the flash. Refused while a load or a ground write is in progress. -/
def execGroundWrite (slot : BitVec 2) (s : State) : Host.Outcome State Fault Refusal :=
  .next (if s.fullLoad ∨ s.groundBusy then s else { s with load := { s.load with armed := some slot } })

/-- GROUND_ERASE (R214): both copies of the slot are invalid. -/
def execGroundErase (slot : BitVec 2) (s : State) : Host.Outcome State Fault Refusal :=
  .next (((s.setCopy slot.toNat false {}).setCopy slot.toNat true {}).setF F.CFG_GROUND_STAT_RESULT 0)

/-- The largest bitstream of a copy (R212). -/
def groundLimit : Nat := 62910464

/-- The bitstream of a ground write begins (R214): the header is checked, and the copy that is not active is erased. No code of R204
is stated for a bitstream beyond the limit: that result is a free value other than 0. -/
def takeGround (s : State) (n : BitVec 2) : State :=
  match headerFlaw s true with
  | some c => endGround s c
  | none =>
    if groundLimit < bsLength s then
      let (v, s) := s.draw 4
      endGround s (1 + v.toNat % 15)
    else
      let s := s.setCopy n.toNat (match s.activeCopy n.toNat with | some c => !c | none => false) {}
      { s with load := { s.load with kind := .ground n, armed := none, point := 64 } }

/-- GROUND_COMMIT (R214): once every byte has arrived, the signature is checked, the copy read back, and its header and COMMIT written.
Where the slot has no active copy the new SEQ is not stated. -/
def execGroundCommit (s : State) : Host.Outcome State Fault Refusal :=
  .next (
    match s.load.kind with
    | .ground n =>
      if s.load.end_ < bsLength s then s
      else
        match signatureFlaw s (bsLength s - 200) with
        | some c => endGround s c
        | none =>
          let s := noteVerified s (bsLength s - 200)
          let text := (stagedBytes s.load.stage 0 (bsLength s)).getD []
          let active := s.activeCopy n.toNat
          let (v, s') := s.draw 32
          let seq := match active with | some c => (s.copy n.toNat c).seq + 1 | none => v
          let s := match active with | some _ => s | none => s'
          let bytes := s.load.stage.foldl (fun (m : SMap Word) e => if 4 * e.1 < text.length then SMap.set 0 m e.1 (e.2.getD 0) else m) []
          let x : GroundCopy := { commit := true, seq := seq, digest := Config.sha384 text, length := text.length, bytes := bytes,
                                  wrapped := if bsKeyId s = 0 then 0 else s.wrapped }
          endGround (s.setCopy n.toNat (match active with | some c => !c | none => false) x) 0
    | _ => s)

/-- GROUND_REFRESH (R216): an active copy of two powered years is rewritten into the other copy. Deferred while a load or a ground
write is in progress. -/
def execGroundRefresh (slot : BitVec 2) (s : State) : Host.Outcome State Fault Refusal :=
  let n := slot.toNat
  .next (
    match s.activeCopy n with
    | none => s
    | some c =>
      let x := s.copy n c
      if x.hours < 17532 ∨ s.fullLoad ∨ s.groundBusy then s
      else s.setCopy n (!c) { x with seq := x.seq + 1, hours := 0 })

/-! ### Bytes that arrive (R200, R201) -/

/-- A header is complete: it starts a ground write or a FULL load. -/
def tryHeader (s : State) (path : Nat) : State :=
  if s.load.kind ≠ .none ∨ (stagedBytes s.load.stage 0 64).isNone then s
  else
    match s.load.armed with
    | some n => takeGround s n
    | none => takeFullHeader s path

/-- The point from which the window of staging counts: the processing point, or, for bytes that only collect, the end of those that
are contiguous. -/
def State.loadPoint (s : State) : Nat :=
  match s.load.kind with
  | .full => s.load.point
  | .none => 0
  | _ => s.load.end_

/-! ### The end of a load (R203, R207, R208) -/

/-- The package enters USER (R207, R208): what stands configured runs, and with AUTO_START a START goes to every job (R211). -/
def issueStart (s : State) (tick : BitVec 48) (j : Job) (all broadcast : Bool) : State :=
  let s :=
    if ¬ broadcast then s
    else if ¬ s.bit F.FAB_STATUS_LODESTAR then s.setF F.CFG_STATUS_START_MISSED 1
    else
      let flit := startFlit tick j all
      let (s, p) := broadcastOf s 0x22 flit
      (flood (rememberStart s ((bitsAt flit 0 55 : BitVec 55).zeroExtend 128)) p none).1
  applyStarts s tick j all

def startLead (s : State) : BitVec 48 := s.mer.tick + BitVec.ofNat 48 (s.f F.CFG_START_LEAD_TICKS)

def enterUser (s : State) : State :=
  let s := (s.setF F.CFG_STATUS_STATE 4).setF F.CFG_STATUS_DONE_SEEN 1
  let s := foldS allRegions s (fun s rg =>
    if (s.rgn rg).configured then
      s.onRgn rg (fun r => allCores.foldl (fun (r : Region) k => r.startCore k) { r with live := true })
    else s)
  let s := foldS allRegions s startLatches
  if s.bit F.CFG_CTRL_AUTO_START then issueStart s (startLead s) 0 true (s.bit F.FAB_STATUS_LODESTAR) else s

/-- DONE is released in DONE_WAIT: with DONE_SOLO the package enters USER whatever the level (R208). -/
def doneReleased (s : State) : State := if s.cfgState = 3 ∧ s.bit F.CFG_CTRL_DONE_SOLO then enterUser s else s

/-- A region at the end of a load (R27, R203, R468). -/
def finishRegion (s : State) (rg : Rg) : State :=
  let job := s.jobOf rg
  let named := s.load.touched.getLsbD rg.toNat
  let gated := decide (s.rf rg F.RGN_STATUS_CFG = 3)
  if s.defective rg then
    let s := gateRegion s rg
    if job.isSome then isolate s rg 3 9 else s
  else if s.staysGated rg then gateRegion s rg
  else if gated then s
  else if ¬ named ∧ job.isNone then gateRegion s rg
  else
    resetDelays (s.onRgn rg (fun r =>
      let r := allClusters.foldl (fun (r : Region) c => r.computeEnd c) { r with configured := true }
      if r.bit F.RGN_CTRL_ISOLATE then r.setF F.RGN_STATUS_CFG 2
      else (r.setF F.RGN_STATUS_CFG 1).setF F.FIX_STATUS_STATE (if job.isSome then 1 else 0))) rg

/-- Spare frames in use, from the repair map (R240, R468). -/
def countSpares (s : State) : State :=
  foldS allRegions s (fun s rg =>
    let n := (s.repairs.filter (fun e => entryKind e == 2 && e.toNat % 64 == quadOf rg + 4 * numOf rg)).length
    s.setF (F.SCR_SPARES_USED rg.toNat) n)

/-- CNV.BANK of region 0 of each quadrant (R181, R203). No byte of the bitstream is named that gives the declared standards: they are
free values. -/
def writeBanks (s : State) : State :=
  foldS (List.range 4) s (fun s q =>
    let (v, s) := s.draw 3
    let rg := quadHome q
    let s := (s.setRf rg F.CNV_BANK_FIO_VSTD (v.toNat % 4)).setRf rg F.CNV_BANK_UIO_VSTD (v.toNat / 4)
    (s.setRf rg F.CNV_BANK_FIO_VOK 1).setRf rg F.CNV_BANK_UIO_VOK 1)

/-- A port for which the load has brought no SLOT record has PLAN = 0 and no valid entry (R294). -/
def clearSlots (s : State) : State :=
  foldS (List.range 6) s (fun s p =>
    if s.load.slots.getLsbD p then s
    else
      let s := foldS [R.LNK_PLAN_LO p, R.LNK_PLAN_HI p, R.LNK_PLAN_SH_LO p, R.LNK_PLAN_SH_HI p] s (fun s a => s.setReg a 0)
      setClipped (s.onPort p (fun x => { x with map := [], shadow := [] })) p)

/-- The load succeeds: SETTINGS, the partition table's jobs, the schedule checks, the counts, DONE (R203, R208). `p` is the offset of the
signature payload. -/
def finishLoad (s : State) (p : Nat) : State :=
  let s := noteVerified s p
  let s := if s.load.path = 1 then s.setF F.CFG_GROUND_STAT_RESULT 0 else s
  let s := foldS s.load.settings s (fun s r => applySetting s r.1 r.2.1 r.2.2)
  let s := { s with gpio := { s.gpio with held := false } }
  let s := clearSlots (countSpares (writeBanks (foldS allRegions s finishRegion)))
  let s := foldS allRegions s (fun s rg =>
    if (s.jobOf rg).isSome ∧ (s.rgn rg).configured then runChecks s rg else s)
  let id := headerField s 0x18 8
  let s := (s.setReg R.CFG_BSID_LO (BitVec.ofNat 32 id)).setReg R.CFG_BSID_HI (BitVec.ofNat 32 (id / 2 ^ 32))
  let s := (s.bump F.CFG_LOADS_OK 1).setF F.CFG_STATUS_STATE 3
  let s := { s with load := {} }
  doneReleased s

/-- FINISHING_END (R203): the signature is verified, and the load ends. A ground whose signature fails gives way to the other copy of its
slot (R215). -/
def execFinishingEnd (s : State) : Host.Outcome State Fault Refusal :=
  .next (
    if s.load.kind ≠ .full ∨ s.cfgState ≠ 2 then s
    else
      let p := s.load.point - 200
      match signatureFlaw s p with
      | some c =>
        let n := s.f F.CFG_STATUS_SLOT
        if s.load.path = 1 ∧ ¬ s.load.fallback ∧ (s.copy n (!s.load.copy)).valid then loadCopy s n (!s.load.copy) true
        else failLoad s c 0 0 (p - 32)
      | none => finishLoad s p)

/-- LOAD_TIMEOUT (R204). -/
def execLoadTimeout (s : State) : Host.Outcome State Fault Refusal :=
  .next (
    if s.load.kind = .full ∧ s.cfgState = 1 ∧ s.f F.CFG_CTRL_LOAD_TIMEOUT ≠ 0 then failLoad s 14 0 0 s.load.point else s)

/-- ABORT (R204). -/
def execAbort (s : State) : Host.Outcome State Fault Refusal := .next (abandonLoad s)

/-- DONE_HIGH (R208). -/
def execDoneHigh (s : State) : Host.Outcome State Fault Refusal := .next (if s.cfgState = 3 then enterUser s else s)

/-- START_CMD (R211): the fields of the register are written, and GO issues the START. -/
def execStartCmd (v : Word) (s : State) : Host.Outcome State Fault Refusal :=
  let s := s.setReg R.CFG_START_CMD (v &&& 0x1FF)
  .next (
    if ¬ v.getLsbD 9 then s
    else
      let tick := if v.getLsbD 8 then s.get48 R.CFG_START_TICK_LO R.CFG_START_TICK_HI else startLead s
      issueStart s tick (bitsAt v 0 6) (v.getLsbD 6) (v.getLsbD 7))

end Sys2Proof.Machine
end

