-- ==== Sys2Proof/Machine/Retouch.lean ====
section
/-! DEFINITION. The retouch port (R218–R234): partial bitstreams, their checks, the apply and its clamps, readback; and the arrival of
bitstream bytes by FRAME_WRITE and CFG.FIFO (R200, R201, R222, R223). -/

namespace Sys2Proof.Machine

/-! ### Headers of partials (R222, R224) -/

def State.rtcState (s : State) : Nat := s.f F.RTC_STATUS_STATE

/-- The SRC_EN bit of a source (R222): 1 Oxdon host and 2 I3C are the host, 3 an easel core, 4 a canvas endpoint. -/
def sourceBit (src : Nat) : Nat := match src with | 3 => 1 | 4 => 2 | _ => 0

/-- The largest partial (R223): the staging window. -/
def partialLimit : Nat := 0x600000

/-- The 64 bytes of a partial's header are staged: its source and its header are checked. -/
def partialHeader (s : State) : State :=
  let s := s.setF F.RTC_STATUS_PID (headerField s 0x28 1)
  if ¬ (s.reg R.RTC_CTRL).getLsbD (sourceBit (s.f F.RTC_STATUS_SOURCE)) ∨ s.fullLoad ∨ s.load.armed.isSome then
    rejectPartial s 21 0 0
  else
    match headerFlaw s false with
    | some c => rejectPartial s c 0 0
    | none =>
      if bsKind s ≠ 2 then rejectPartial s 1 0 0
      else if partialLimit < bsLength s then rejectPartial s 18 0 0
      else { s with load := { s.load with point := 64 } }

/-- A partial begins (R222). -/
def startPartial (s : State) (src : Nat) : State :=
  let s := (s.setF F.RTC_STATUS_STATE 1).setF F.RTC_STATUS_SOURCE src
  { s with load := { s.load with kind := .retouch, point := 0 } }

/-- Bytes have been staged: a header that is complete is acted on, and a partial that is whole is CHECKING. -/
def afterStage (s : State) : State :=
  let whole := (stagedBytes s.load.stage 0 64).isSome
  let s :=
    if s.load.kind = .none ∧ whole then
      if bsKind s = 2 then startPartial s (if s.load.path = 3 then 2 else if s.rtc.node.isSome then 3 else 1)
      else tryHeader s s.load.path.toNat
    else s
  let s := if s.load.kind = .retouch ∧ s.load.point = 0 ∧ whole then partialHeader s else s
  if s.load.kind = .retouch ∧ s.rtcState = 1 ∧ s.load.point = 64 ∧ bsLength s ≤ s.load.end_ then s.setF F.RTC_STATUS_STATE 2 else s

/-! ### Bytes by FRAME_WRITE (R200, R201, R222, R223) -/

/-- A FRAME_WRITE is refused: the count, and the cause of the answer. -/
def refuseFrame (s : State) (cause : Nat) : State × Option Nat := (s.bump F.CFG_COUNTS_REFUSED 1, some cause)

/-- The rows of R201 below the first: a duplicate, a frame in the window, a frame beyond it. -/
def frameRows (s : State) (ofs : Nat) (ws : List Word) : State × Option Nat :=
  let pt := s.loadPoint
  let stop := ofs + 4 * ws.length
  if stop ≤ pt then (s.bump F.CFG_COUNTS_DUP 1, none)
  else if pt + windowBytes < stop then refuseFrame s 1
  else
    let from_ := max ofs pt
    (afterStage (stageIn s from_ (ws.drop ((from_ - ofs) / 4))), none)

/-- Whether a node is an easel core of this package (R222). -/
def State.isCore (s : State) (n : Node) : Bool := decide (nodeCoord n = s.f F.FAB_ID_COORD) && decide (0x10 ≤ nodeUnit n ∧ nodeUnit n ≤ 0x12)

/-- A frame at offset 0 begins a bitstream. -/
def beginFrame (s : State) (node : Option Node) (ws : List Word) : State × Option Nat :=
  let stage := if s.load.path = 3 then [] else s.load.stage
  frameRows { s with load := { s.load with stage := stage, path := 2 }, rtc := { s.rtc with node := node } } 0 ws

/-- A PARTIAL header arrives while a FULL load or a ground write is in progress (R222): it is refused with code 21, and nothing of it is staged. -/
def refusePartial (s : State) (ws : List Word) : State :=
  recordReject (s.setF F.RTC_STATUS_PID ((ws.getD 10 0).toNat % 256)) 21 0 0

/-- A FRAME_WRITE of words at a byte offset, from node `src`: the new state, and the cause of a RESP_ERROR. -/
def offerFrame (s : State) (src : Node) (ofs : Nat) (ws : List Word) : State × Option Nat :=
  let node := if s.isCore src then some src else none
  let kind := (ws.getD 3 0).toNat / 2 ^ 16 % 256
  let mine := decide (s.load.path = 2) && decide (s.rtc.endpoint = none)
  match s.load.kind with
  | .none =>
    if ofs = 0 then (if node.isSome ∧ kind ≠ 2 then refuseFrame s 7 else beginFrame s node ws)
    else if s.load.path = 3 then refuseFrame s 7
    else frameRows s ofs ws
  | .full =>
    if ofs = 0 ∧ kind = 2 then (refusePartial s ws, if s.cfgState = 1 then some 7 else none)
    else if ¬ mine then refuseFrame s 7
    else if ofs = 0 ∧ s.cfgState = 1 then (s, some 7)
    else frameRows s ofs ws
  | .ground _ =>
    if ofs = 0 ∧ kind = 2 then (refusePartial s ws, none) else if mine then frameRows s ofs ws else refuseFrame s 7
  | .retouch =>
    if ofs = 0 ∧ kind = 1 ∧ node = none then beginFrame (rejectPartial s 15 0 0) none ws
    else if ¬ mine ∨ s.rtc.node ≠ node then (if ofs = 0 ∧ kind = 2 then (s, some 1) else refuseFrame s 7)
    else if ofs = 0 ∧ s.rtcState = 1 then (s, some 7)
    else frameRows s ofs ws

/-- CFG_FIFO (R200): four bytes are appended. A word that another path's bitstream, or one that has ended, does not take is ignored and
counted. -/
def execCfgFifo (w : Word) (s : State) : Host.Outcome State Fault Refusal :=
  let busy : Bool := match s.load.kind with
    | .none => false
    | .full => decide (s.load.path ≠ 3) || decide (s.cfgState ≠ 1)
    | .ground _ => decide (s.load.path ≠ 3)
    | .retouch => decide (s.load.path ≠ 3) || decide (s.rtcState ≠ 1)
  .next (
    if busy ∨ s.loadPoint + windowBytes < s.load.fifo + 4 then s.bump F.CFG_COUNTS_REFUSED 1
    else
      let l := if s.load.kind = .none ∧ s.load.path ≠ 3 then { s.load with stage := [], path := 3, fifo := 0 } else s.load
      afterStage (stageIn { s with load := { l with fifo := l.fifo + 4 }, rtc := { s.rtc with node := none } } l.fifo [w]))

/-! ### The canvas endpoint (R221) -/

/-- Two bytes from the endpoint, the lower-offset byte in [7:0]. -/
def endpointBytes (s : State) (v : BitVec 16) : State :=
  match s.load.half with
  | none => { s with load := { s.load with half := some v } }
  | some lo =>
    let w : Word := BitVec.ofNat 32 (lo.toNat + 65536 * v.toNat)
    afterStage (stageIn { s with load := { s.load with half := none, fifo := s.load.fifo + 4 } } s.load.fifo [w])

/-- RETOUCH_ENDPOINT_TOKEN (R221): a token at the endpoint of the region. It waits while another partial is in progress, and until the
status token of the last one has gone. A partial that begins during a FULL load or a ground write, or while canvas endpoints are not enabled, is
refused with code 21 (R222). -/
def execRetouchEndpointToken (rg : Rg) (s : State) : Host.Outcome State Fault Refusal :=
  .next (
    if ¬ s.retouchEndpoint rg ∨ ¬ (s.rgn rg).canvasRuns ∨ (s.rgn rg).rtcStatus.isSome then s
    else
      match seenToken s rg (segAbove false 0 0 (boxOf rg 480)) with
      | none => s
      | some (d, v) =>
        if s.rtc.endpoint = some rg ∧ s.rtcState = 1 then endpointBytes (takeToken s d) v
        else if s.load.kind = .none ∧ s.rtc.endpoint = none ∧ s.load.armed = none ∧ (s.reg R.RTC_CTRL).getLsbD (sourceBit 4) then
          let s := takeToken s d
          let s := startPartial { s with load := {}, rtc := { s.rtc with endpoint := some rg, node := none } } 4
          endpointBytes s v
        else if s.rtc.endpoint = none ∧ s.load.kind ≠ .retouch then
          (recordReject (takeToken s d) 21 0 0).onRgn rg (fun r => { r with rtcStatus := some 1 })
        else s)

/-! ### What a partial may carry (R218, R219) -/

/-- The partition that the partial names. -/
def State.partOf (s : State) : Option PartEntry := s.partitions.find? (fun p => p.pid == s.f F.RTC_STATUS_PID)

/-- The section types that the scope bits of a partition allow. -/
def PartEntry.allows (p : PartEntry) (typ : Nat) : Bool :=
  match typ with
  | 0x2 => p.canvas
  | 0x3 | 0x4 | 0x9 => p.sched
  | 0x6 => p.easel
  | 0x5 => p.dmem
  | _ => false

/-- A record names the partition's region, and of its cells only those of the rectangle. -/
def PartEntry.holds (p : PartEntry) (typ h : Nat) : Bool :=
  decide (runRgn h = p.rg) && (typ != 0x2 || (List.range (hf h 16 11)).all (fun i => p.covers (BitVec.ofNat 10 (hf h 6 10 + i))))

/-- The partition includes something that strokes use (R226). -/
def PartEntry.stops (p : PartEntry) : Bool := p.sched || p.easel || p.dmem

/-- The cells of a partition's rectangle. -/
def PartEntry.cells (p : PartEntry) : List CellNo := ((List.range 1024).map (BitVec.ofNat 10)).filter p.covers

/-- Every cell of the rectangle becomes an all-zero block (R219). -/
def PartEntry.clear (p : PartEntry) (s : State) : State :=
  s.onRgn p.rg (fun r => p.cells.foldl (fun r c => r.putFrame c 0) r)

/-- The index that RTC.RESULT gives for a record outside the partition: of the partition's region, the first cell beyond the rectangle; otherwise
the cell, cluster or entry that the record names. -/
def PartEntry.outside (p : PartEntry) (typ h : Nat) : Nat :=
  if typ = 0x2 ∧ runRgn h = p.rg then
    (((List.range (hf h 16 11)).map (hf h 6 10 + ·)).find? (fun n => !p.covers (BitVec.ofNat 10 n))).getD (hf h 6 10)
  else recordIndex typ h

/-- The records of a section of a partial are written. The fuel bounds their number. -/
def walkRuns (p : PartEntry) : Nat → State → Section → Except Bad State
  | 0, s, _ => .ok s
  | n + 1, s, x =>
    if x.len ≤ x.done then .ok s
    else
      match readRun s x with
      | .wait => .error ⟨3, p.rg, 0⟩
      | .bad b => .error (if b.code = 8 ∨ b.code = 9 ∨ x.len < x.done + 8 then { b with rg := p.rg } else b)
      | .run h d =>
        if ¬ p.holds x.typ.toNat h then .error ⟨17, runRgn h, p.outside x.typ.toNat h⟩
        else
          match writeRecord false x.typ.toNat h d s with
          | .error (b, _) => .error b
          | .ok s => walkRuns p n s { x with done := x.done + 8 + d.length }

/-- The sections of a partial from offset `at_`, `k` of which have been found: the state they leave, the offset of the signature payload,
whether one was encrypted. -/
def walkSections (p : PartEntry) : Nat → Nat → Nat → Bool → State → Except Bad (State × Nat × Bool)
  | 0, _, _, _, _ => .error ⟨3, p.rg, 0⟩
  | n + 1, k, at_, enc, s =>
    match readSection s at_ knownType with
    | (.bad c, _) => .error ⟨c, p.rg, 0⟩
    | (.ok _, some x) =>
      if x.typ = 0xF then
        if x.len ≠ 200 ∨ headerField s 0x20 4 ≠ k + 1 then .error ⟨3, p.rg, 0⟩
        else if headerField s (x.start + 1) 7 ≠ 0 then .error ⟨5, p.rg, 0⟩
        else .ok (s, x.start, enc)
      else if ¬ p.allows x.typ.toNat then .error ⟨4, p.rg, 0⟩
      else
        match walkRuns p (x.len / 8 + 1) s x with
        | .error b => .error b
        | .ok s => walkSections p n (k + 1) (x.start + wireLen x.enc x.len) (enc || x.enc) s
    | _ => .error ⟨3, p.rg, 0⟩

/-- Everything the partial writes, in offset order. -/
def writePartial (p : PartEntry) (s : State) : Except Bad (State × Nat × Bool) :=
  walkSections p (min (headerField s 0x20 4) (bsLength s)) 0 64 false (p.clear s)

/-- The partition's region is UNCONFIGURED or GATED. -/
def PartEntry.absent (p : PartEntry) (s : State) : Bool := !(s.rgn p.rg).configured || decide (s.rf p.rg F.RGN_STATUS_CFG = 3)

/-- Codes 22 and 23 (R224). -/
def placeFlaw (s : State) (p : PartEntry) : Option Nat :=
  let core := match s.rtc.node with | some n => p.easel && decide (nodeRgn n = p.rg) | none => false
  let cell := decide (s.rtc.endpoint = some p.rg) && p.covers 480
  if p.absent s then some 22 else if core || cell then some 23 else none

/-- PARTIAL_CHECK (R224, R225): the whole partial is validated against the configuration that the apply would leave. -/
def execPartialCheck (s : State) : Host.Outcome State Fault Refusal :=
  .next (
    if s.load.kind ≠ .retouch ∨ s.rtcState ≠ 2 then s
    else
      match (if 256 ≤ headerField s 0x28 4 then none else s.partOf) with
      | none => rejectPartial s 16 0 0
      | some p =>
        match placeFlaw s p with
        | some c => rejectPartial s c p.rg 0
        | none =>
          match writePartial p s with
          | .error b => rejectPartial s b.code b.rg b.ix
          | .ok (t, sig, _) =>
            match p.cells.find? (fun c => !frameSound t p.rg c) with
            | some c => rejectPartial s 10 p.rg c.toNat
            | none =>
              match (if (s.jobOf p.rg).isSome then junctionFlaw t p.rg else none) with
              | some x => rejectPartial s 20 p.rg x.c
              | none =>
                match signatureFlaw s sig with
                | some c => rejectPartial s c p.rg 0
                | none => noteVerified { s.setF F.RTC_STATUS_STATE 3 with rtc := { s.rtc with keys := s.keys } } sig)

/-- PARTIAL_TIMEOUT (R242). -/
def execPartialTimeout (s : State) : Host.Outcome State Fault Refusal :=
  .next (if s.load.kind = .retouch ∧ s.rtcState = 1 ∧ s.f F.RTC_CTRL_TIMEOUT ≠ 0 then rejectPartial s 14 0 0 else s)

/-- The partition's region is at work on a cycle (R226). -/
def PartEntry.runs (p : PartEntry) (s : State) : Bool := p.stops && (s.rgn p.rg).inCycle

/-- HOLD_WAIT (R226). -/
def execHoldWait (s : State) : Host.Outcome State Fault Refusal :=
  .next (
    match s.partOf with
    | some p => if s.rtcState = 3 ∧ s.f F.RTC_CTRL_HOLD_WAIT ≠ 0 ∧ p.runs s then rejectPartial s 19 p.rg 0 else s
    | none => s)

/-- RTC_ABORT (R242). -/
def execRtcAbort (s : State) : Host.Outcome State Fault Refusal :=
  .next (if s.load.kind = .retouch ∧ 1 ≤ s.rtcState ∧ s.rtcState ≤ 3 then rejectPartial s 15 0 0 else s)

/-! ### The clamps (R229) -/

/-- The dual-rail segments that a source drives at a box. -/
def bundleSegs (s : State) (q : Nat) (b : Box) (d : Drive) : List Seg :=
  [false, true].flatMap (fun y => [0, 1, 2].flatMap (fun cls => (List.range (trackCount cls)).flatMap (fun t =>
    if driveAt s q y cls t b = some d then segsAt y cls t b else [])))

/-- A segment leads to a receiver outside the rectangle. -/
def leadsOut (s : State) (p : PartEntry) : Nat → Seg → Bool
  | 0, _ => false
  | f + 1, g =>
    let q := quadOf p.rg
    g.boxes.any (fun i => let b := g.box i
      (decide (boxRgn q b ≠ p.rg) || !p.covers (boxCell b)) && decide (0 < boxReceivers s q g b)) ||
    (segFeeds s q g).any (leadsOut s p f)

/-- The sources inside the rectangle: cell outputs, outbound lanes, I/O cells, the retouch endpoint. -/
def PartEntry.sources (p : PartEntry) : List (CellNo × Drive) :=
  p.cells.flatMap (fun c =>
    let ds : List Drive := [.out p.rg c 0, .out p.rg c 1, .out p.rg c 2] ++
      (match junctionAt c with | some j => (List.range 4).map (Drive.lane p.rg j) | none => []) ++
      (match ioAt p.rg c with | some i => [.io p.rg i] | none => []) ++ (if c = 480 then [.status p.rg] else [])
    ds.map (fun d => (c, d)))

/-- The sources inside the rectangle whose tokens stand before a receiver outside; once the clamps are closed, those that stood there as they
closed and have not gone since. -/
def outgoing (s : State) (p : PartEntry) : List Drive :=
  (p.sources.filter (fun x => (sourceToken s 0 x.2).isSome && (!s.rtc.cut || decide (x.2 ∈ s.rtc.leaving)) &&
    (bundleSegs s (quadOf p.rg) (boxOf p.rg x.1) x.2).any (leadsOut s p routeFuel))).map (·.2)

/-- The dual-rail segments that driver fields inside the rectangle drive from other segments (R164). -/
def PartEntry.relays (p : PartEntry) (s : State) : List Seg :=
  p.cells.flatMap (fun c =>
    let b := boxOf p.rg c
    [false, true].flatMap (fun y => [0, 1, 2].flatMap (fun cls => (List.range (trackCount cls)).flatMap (fun t =>
      match driveAt s (quadOf p.rg) y cls t b with
      | some (.seg h) => (segsAt y cls t b).filter (fun g => decide (g ≠ h))
      | _ => []))))

/-- The sources outside the rectangle whose tokens stand, through the rectangle, before a receiver outside. -/
def passing (s : State) (p : PartEntry) : List Drive :=
  ((p.relays s).filterMap (fun g =>
    match segToken s (quadOf p.rg) g with
    | some (d, _) => if p.sources.any (fun x => decide (x.2 = d)) ∨ ¬ leadsOut s p routeFuel g then none else some d
    | none => none)).eraseDups

/-- No token stands on a bundle that leaves the rectangle. -/
def quiet (s : State) (p : PartEntry) : Bool := (outgoing s p).isEmpty && (passing s p).isEmpty && decide (s.rtc.carried = 0)

/-- CLAMP_FORCE (R229): 1 µs after the clamps closed, every bundle that still carries a token is forced to the spacer; the token is
lost and counted. A sender outside keeps its token, whose acknowledge the clamp holds low. -/
def execClampForce (s : State) : Host.Outcome State Fault Refusal :=
  .next (
    match s.partOf with
    | some p =>
      if s.rtcState ≠ 4 ∨ ¬ s.bit F.RTC_STATUS_CLAMPED ∨ s.rtc.forced then s
      else
        let s := (foldS (outgoing s p) s (fun s d => (tokenGone s d).bump F.RTC_FLUSH_TOKENS 1)).bump F.RTC_FLUSH_TOKENS s.rtc.carried
        { s with rtc := { s.rtc with forced := true, through := [], carried := 0 } }
    | none => s)

/-! ### The apply (R228) -/

/-- The levels of the single segments that are driven from inside the rectangle (R229). -/
def PartEntry.levels (p : PartEntry) (s : State) : SMap (Option Bool) :=
  let q := quadOf p.rg
  (p.cells.flatMap (fun c =>
    let b := boxOf p.rg c
    [false, true].flatMap (fun y => (List.range (trackCount 3)).flatMap (fun t =>
      match driveAt s q y 3 t b with
      | some d => (segsAt y 3 t b).filter (fun g => decide (d ≠ .seg g))
      | none => [])))).foldl (fun m g => SMap.set none m (heldKey q g) (wireLevel s q routeFuel [] g)) []

/-- Steps 1 and 2: the clamps close, and the cores of an EASEL partition are held in reset. Bundles on which no token stands are held at once. A token from outside
that stands on a bundle through the rectangle may be taken beyond it until the bundle is forced; its sender sees no acknowledge. -/
def beginApply (s : State) (p : PartEntry) : State :=
  let s := { s.setF F.RTC_STATUS_STATE 4 with
               applying := some p.rg,
               rtc := { s.rtc with forced := quiet s p, cut := p.canvas, leaving := outgoing s p, through := passing s p, carried := (passing s p).length, held := p.levels s, holds := p.stops, cores := p.easel } }
  let s := s.setF F.RTC_STATUS_CLAMPED (if p.canvas then 1 else 0)
  let s := s.onRgn p.rg (fun r => p.cells.foldl (fun (r : Region) c => r.setCell c { r.cell c with clamped := true }) r)
  if p.easel then foldS allCores s (fun s k =>
      holdReset (resetCore s p.rg k) p.rg k) else s

/-- Step 4: the channels of the rectangle return to the spacer, the delays take their configured values, disabled segments with
boxes there, whichever region's they are, are re-checked (R168). Tokens of I/O cells in EDGE and LEVEL mode are gone with their channels; a TOKEN input queue is no channel. The cells themselves are reinitialised as their frames are written. -/
def reinitialise (old s : State) (p : PartEntry) : State :=
  if ¬ p.canvas then s
  else
    let s := s.onRgn p.rg (fun r => p.cells.foldl (fun (r : Region) c =>
      match junctionAt c with
      | some j => { r with lanes := (List.range 4).foldl (fun m k => SMap.set none m (4 * j + k) none) r.lanes }
      | none => r) (r.hideWords p.cells))
    let s := if p.covers 480 then s.onRgn p.rg (fun r => { r with rtcStatus := none }) else s
    let s := foldS (List.range 10) s (fun s k =>
      if numOf p.rg < 4 ∧ p.covers (ioCellNo k) ∧ ioImode (old.ioCfg p.rg k) k ≠ 0 then
        s.onRgn p.rg (fun r => r.setIo k { r.ioCell k with inQ := [] })
      else s)
    let s := foldS (List.range 8) s (fun s k =>
      if numOf p.rg < 4 ∧ p.covers (ioCellNo k) then
        let d := configuredDelay s p.rg k
        writeDelay s p.rg k (d % 256) (d / 256) false
      else s)
    foldS (quadRegions (quadOf p.rg)) s (fun s rg => recheckFights s rg (fun a => match segNamed rg a with
      | some g => g.boxes.any (fun i => let b := g.box i; decide (boxRgn (quadOf p.rg) b = p.rg) && p.covers (boxCell b))
      | none => false))

/-- Steps 5 and 6, and the result. A token that now stands before a crossing into a stopped region is discarded (R166). -/
def endApply (s : State) (p : PartEntry) (enc : Bool) : State :=
  let s := if (s.jobOf p.rg).isSome then
      (writeMarkers (s.onRgn p.rg (fun r => { r with rwd := { r.rwd with gapDue := some r.executing } })) p.rg).onRgn p.rg Region.unusable
    else s
  let s := foldS (if p.canvas then p.cells else []) ((openClamps s p.rg).setF F.RTC_STATUS_CLAMPED 0) (fun s n => startLatch s p.rg n)
  let s := if p.easel then s.onRgn p.rg (fun r => allCores.foldl (fun (r : Region) k =>
      let r := r.setEas k { (r.eas k).reset with mbin := [], mbout := [], mbinCut := true, mboutCut := true }
      (r.showMail k).startCore k) r)
    else s
  let s := if p.sched then s.setDirty p.rg true else s
  let s := if enc then s.setF F.RTC_STATUS_ENC_SEEN 1 else s
  let s := ((s.setF F.RTC_RESULT_CODE 0).setF F.RTC_RESULT_QUAD (quadOf p.rg)).setF F.RTC_RESULT_RGN (numOf p.rg)
  let s := (s.setF F.RTC_RESULT_INDEX 0).bump F.RTC_COUNTS_APPLIED 1
  let s := dropTokens (closePartial s 0) (quadOf p.rg)
  resetIfDue (beginLate s p.rg) p.rg

/-- APPLY (R226, R228): a partial that waits is clamped and quiesced once its region has stopped; once no token stands on an outgoing
bundle, or they have been forced, it is written, reinitialised, recorded and released. -/
def execApply (s : State) : Host.Outcome State Fault Refusal :=
  .next (
    match s.partOf with
    | none => s
    | some p =>
      if s.rtcState = 3 then (if p.absent s then rejectPartial s 22 p.rg 0 else if p.runs s then s else beginApply s p)
      else if s.rtcState ≠ 4 ∨ (¬ quiet s p ∧ ¬ s.rtc.forced) then s
      else if p.absent s then beginLate (rejectPartial s 22 p.rg 0) p.rg
      else
        match writePartial p { s with keys := s.rtc.keys } with
        | .error b => beginLate (rejectPartial s b.code b.rg b.ix) p.rg
        | .ok (t, _, enc) => endApply (reinitialise s { t with keys := s.keys } p) p enc)

/-- DIRTY_CHECKS_PASS (R227): the schedule checks of a dirty region complete; a region held for them begins its cycle late. -/
def execDirtyChecksPass (rg : Rg) (s : State) : Host.Outcome State Fault Refusal :=
  .next (
    if ¬ s.dirty rg ∨ ¬ (s.rgn rg).fix.checking then s
    else
      let s := runChecks (s.setDirty rg false) rg
      let s := s.onRgn rg (fun r => { r with fix := { r.fix with checking := false } })
      beginLate s rg)

/-! ### Readback (R232–R234) -/

/-- READBACK (R232, R234): RTC.RB_CMD is written with GO. A reserved KIND is refused, and KIND 2 after an encrypted load or partial. -/
def execReadback (kind : BitVec 2) (rg : Rg) (s : State) : Host.Outcome State Fault Refusal :=
  let s := ((s.setF F.RTC_RB_CMD_KIND kind.toNat).setF F.RTC_RB_CMD_QUAD (quadOf rg)).setF F.RTC_RB_CMD_RGN (numOf rg)
  .next (
    if kind = 3 ∨ (kind = 2 ∧ (s.bit F.CFG_STATUS_ENC ∨ s.bit F.RTC_STATUS_ENC_SEEN)) then s.setF F.RTC_RB_STATUS_REFUSED 1
    else nextReadback (({ s with rtc := { s.rtc with rbQueue := s.rtc.rbQueue ++ [(kind, rg)] } }).setF F.RTC_RB_STATUS_BUSY 1))

/-- READBACK_READY (R232): the captured data lies in the readback area. -/
def execReadbackReady (s : State) : Host.Outcome State Fault Refusal :=
  .next (
    match s.rtc.rb with
    | none => nextReadback s
    | some _ =>
      if s.bit F.RTC_RB_STATUS_WAITING_FIX then s
      else
        let s := { (s.setF F.RTC_RB_STATUS_READY 1) with rtc := { s.rtc with rb := none } }
        nextReadback (if s.rtc.rbQueue = [] then s.setF F.RTC_RB_STATUS_BUSY 0 else s))

end Sys2Proof.Machine
end

