-- ==== Sys2Proof/Machine/Scrub.lean ====
section
/-! DEFINITION. The scrubber (R235–R241): the walkers, the tracking table, lasting frames and spares. -/

namespace Sys2Proof.Machine

/-- The walker of a region runs (R236): the region is configured and its quadrant above DOZE. -/
def State.walks (s : State) (rg : Rg) : Bool := (s.rgn rg).configured && s.clocked rg

/-- An upset of the scrubber's state is out-voted (R235). -/
def outVote (s : State) (vote : Bool) : State :=
  if vote then (s.bump F.SCR_TMR_VOTES 1).setF F.SCR_STATUS_TMR_EVENT 1 else s

/-- A pass is counted once the walker of every configured region has completed it (R243); those of sleeping quadrants have only paused. -/
def endPass (s : State) (done : BitVec 64) : Bool := allRegions.all (fun rg => !(s.rgn rg).configured || done.getLsbD rg.toNat)

/-- SCR.STATUS.PAUSED (R243): the walkers of a quadrant, or of all of them, are paused by DOZE or NAP. -/
def State.walkersPaused (s : State) : Bool := (List.range 4).any (fun q => s.quadState q == 2 || s.quadState q == 3)

/-- A free spare takes a lasting frame (R240). -/
def remapFrame (s : State) (rg : Rg) (n : CellNo) : State :=
  let used := s.f (F.SCR_SPARES_USED rg.toNat)
  if ¬ s.bit F.SCR_CTRL_REMAP_EN ∨ 16 ≤ used then s
  else
    let s := (s.setF (F.SCR_SPARES_USED rg.toNat) (used + 1)).bump F.SCR_MARKS_REMAPPED 1
    let s := storeRepair (s.setF F.SCR_LAST_REMAPPED 1) (repairEntry (quadOf rg + 4 * numOf rg) 2 n.toNat used)
    if used = 15 then s.setF F.SCR_STATUS_SPARES_OUT 1 else s

/-- A frame is lasting (R238, R239): recorded, counted, reported, and counted as a lasting fault. -/
def lastingFrame (s : State) (rg : Rg) (n : CellNo) (ue : Bool) (now : Nat) : State :=
  let s := s.setReg R.SCR_LAST (faultKey [(quadOf rg, 2), (numOf rg, 4), (n.toNat, 10), (ue.toNat, 1)])
  let s := (s.bump F.SCR_MARKS_LASTING 1).ibi 0x0C (locOf rg) 0
  let s := declareLasting s (if ue then 12 else 11) (quadOf rg) (faultKey [(numOf rg, 4), (n.toNat, 10)]) now
  if ue then s else remapFrame s rg n

/-- The entry whose first correction is oldest. -/
def oldestFrame (ts : List FrameTrack) : Option FrameTrack :=
  ts.foldl (fun m x => match m with
    | none => some x
    | some y => if x.first < y.first then some x else some y) none

/-- A corrected frame is entered in the tracking table (R239), and whether its count has reached LASTING_N; `now` in ms since the package
reset. -/
def trackFrame (s : State) (rg : Rg) (n : CellNo) (now : Nat) : State × Bool :=
  let window := 100 * s.f F.SCR_WINDOW_W
  let within (x : FrameTrack) : Bool := decide (now - x.first ≤ window)
  let put (old new : FrameTrack) : List FrameTrack := s.scr.tracks.map (fun x => if x = old then new else x)
  let fresh : FrameTrack := ⟨rg, n, 1, now⟩
  let (s, count) : State × Nat :=
    match s.scr.tracks.find? (fun x => decide (x.rg = rg ∧ x.cell = n)) with
    | some e =>
      let e' := if within e then { e with count := satAdd e.count 1 } else fresh
      ({ s with scr := { s.scr with tracks := put e e' } }, e'.count.toNat)
    | none =>
      if s.scr.tracks.length < 256 then ({ s with scr := { s.scr with tracks := s.scr.tracks ++ [fresh] } }, 1)
      else
        match oldestFrame s.scr.tracks with
        | none => (s, 1)
        | some e =>
          let s' := if within e then s.setF F.SCR_STATUS_TRACK_OVF 1 else s
          ({ s' with scr := { s.scr with tracks := put e fresh } }, 1)
  (s, decide (count = max 1 (s.f F.SCR_CTRL_LASTING_N)))

/-- What a walker finds in a frame: the outcome of each of its 32 words (R236–R240). One with an uncorrectable word is lasting at once, whatever
its count, and is not remapped. -/
def scrubFrame (s : State) (rg : Rg) (n : CellNo) (eccs : List Ecc) (now : Nat) : State :=
  let l := quadOf rg
  let key := faultKey [(numOf rg, 4), (n.toNat, 10)]
  let words := eccs.take 32
  let s := foldS words s (fun s e =>
    match e with
    | .clean => s
    | .single => (s.bump F.SCR_CE_CNV_CE 1).noteFault 11 l key
    | .uncorrectable => (s.bump F.SCR_CE_CNV_UE 1).noteFault 12 l key)
  let (s, reached) := if Ecc.single ∈ words then trackFrame s rg n now else (s, false)
  if Ecc.uncorrectable ∈ words then
    let s := s.onRgn rg (fun r => { r with canvas := SMap.set 0 r.canvas n.toNat (setBits (SMap.get 0 r.canvas n.toNat) 192 2 0) })
    let s := lastingFrame s rg n true now
    if (s.jobOf rg).isSome then s.taint rg { cause := 7, detail := n.toNat } else s
  else if reached then lastingFrame s rg n false now
  else s

/-- SCRUB_FRAME (R236): the walker of a region reads its next frame, unless a retouch is being applied to it (R228). `vote` is an upset in
the scrubber's own state. -/
def execScrubFrame (rg : Rg) (eccs : List Ecc) (vote : Bool) (since : Word) (s : State) : Host.Outcome State Fault Refusal :=
  .next (
    if ¬ s.bit F.SCR_CTRL_CNV_EN ∨ ¬ s.walks rg then s
    else
      let s := outVote s vote
      let n : CellNo := SMap.get 0 s.scr.cnv rg.toNat
      let s := if ((s.rgn rg).cell n).clamped then s else scrubFrame s rg n eccs (s.msAt since)
      let done := setBit s.scr.cnvDone rg.toNat (s.scr.cnvDone.getLsbD rg.toNat || n == 1023)
      let s := { s with scr := { s.scr with cnv := SMap.set 0 s.scr.cnv rg.toNat (n + 1), cnvDone := done } }
      if endPass s done then { s with scr := { s.scr with cnvDone := 0 } }.bump F.SCR_PASS_CNV_PASSES 1 else s)

/-- Words of one memory walk: design memory, then the ring (R236). -/
def walkSize : Nat := 524288 + 262144

/-- The walker reads one word and corrects it (R111, R237). -/
def scrubWord (s : State) (rg : Rg) (e : Ecc) : State :=
  let i := (SMap.get 0 s.scr.mem rg.toNat).toNat
  let s := if i < 524288 then (backRead s rg 5 false i e).1 else (backRead s rg 5 true (i - 524288) e).1
  let done := setBit s.scr.memDone rg.toNat (s.scr.memDone.getLsbD rg.toNat || i + 1 == walkSize)
  let s := { s with scr := { s.scr with mem := SMap.set 0 s.scr.mem rg.toNat (BitVec.ofNat 20 ((i + 1) % walkSize)), memDone := done } }
  if endPass s done then { s with scr := { s.scr with memDone := 0 } }.bump F.SCR_PASS_MEM_PASSES 1 else s

/-- A retouch of the region's design memory is being applied (R228). -/
def State.dmemHeld (s : State) (rg : Rg) : Bool :=
  decide (s.applying = some rg) && (match s.partOf with | some p => p.dmem | none => false)

/-- The walker leaves the words of design memory out, and goes on with the ring (R228). -/
def State.passDmem (s : State) (rg : Rg) : State :=
  { s with scr := { s.scr with mem := SMap.update 0 s.scr.mem rg.toNat (fun i => if i.toNat < 524288 then 524288 else i) } }

/-- SCRUB_MEM_STEP (R236, R241): the walker requests the back port and takes a burst, which ends its grant (R118). -/
def execScrubMemStep (rg : Rg) (eccs : List Ecc) (vote : Bool) (s : State) : Host.Outcome State Fault Refusal :=
  .next (
    if ¬ s.bit F.SCR_CTRL_MEM_EN ∨ ¬ s.walks rg then s
    else
      let s := if s.dmemHeld rg then s.passDmem rg else s
      let burst := max 1 (s.rf rg F.DMEM_ARB_SCRUB_BURST)
      let dmem := decide ((SMap.get 0 s.scr.mem rg.toNat).toNat < 524288)
      (portGives (outVote s vote) rg 5 dmem (fun s =>
        let s := foldS (List.range burst) s (fun s i => scrubWord (if s.dmemHeld rg then s.passDmem rg else s) rg (eccs.getD i .clean))
        (s.onRgn rg (fun r => { r with arb := { r.arb with burstEnded := true } }), ()))).1)

end Sys2Proof.Machine
end

