-- ==== Sys2Proof/Machine/Power.lean ====
section
/-! DEFINITION. Power, thermal and start-up (R426–R447): resets and boot, power states, quadrants, power and temperature samples, ageing,
the orderly shutdown; and the end of a neighbour drain (R262). -/

namespace Sys2Proof.Machine

/-! ### Jobs and the package's states (R435) -/

/-- Every ACTIVE job is held with HOLD_CAUSE 4 (R435). -/
def holdJobs (s : State) : State := foldS s.activeJobs s (fun s j => requestHold s j 4 0)

/-- The return to RUN of the jobs held with cause 4 (R435). One that is not HELD yet resumes once it is. -/
def resumeJobs (s : State) : State :=
  foldS ((List.range 64).map (BitVec.ofNat 6)) s (fun s j =>
    if s.f (F.MER_JOB_CTRL_HOLD_CAUSE j.toNat) ≠ 4 ∨ (s.job j).hold = none then s
    else if s.bit (F.MER_JOB_CTRL_HELD j.toNat) then returnJob s j
    else s.setJob j { s.job j with byPackage := true })

/-- Regions that a job resumed in HOLD left waiting begin their cycle, late (R435). -/
def releaseRegions (s : State) : State := foldS allRegions s beginLate

/-! ### States of the package (R430–R437) -/

/-- The ingresses accept again: all but those of a package below HOLD (R262, R430), of scopes that are being reset or shut down, and of
quadrants that sleep. -/
def acceptAgain (s : State) : State :=
  let low := decide (2 ≤ s.pwrState)
  foldS (List.range 4) (s.setRefusing 4 (low || decide (s.drainOf 4 ≠ .none))) (fun s q =>
    s.setRefusing q (low || decide (s.ownState q ≠ 0) || decide (s.drainOf q ≠ .none)))

/-- The entry to a state deeper than the present one (R433, R435, R436): one under AUTO at once, as no region is at work then; another once every
ACTIVE job is HELD. While the loader is at work none below HOLD is entered (R206). -/
def beginEntry (s : State) (st : Nat) (auto : Bool) : State :=
  let s := { s with pwr := { s.pwr with auto := auto, exiting := false } }
  if 2 ≤ st ∧ s.fullLoad then s
  else if auto then (if st = 1 then reachHold s else beginDrain s (BitVec.ofNat 3 st))
  else
    let s := (s.setDrain 4 (.hold (BitVec.ofNat 3 st))).setF F.PWR_STATUS_ENTERING 1
    settleHold (holdJobs s)

/-- An entry that has not reached its gate step is given up (R436). -/
def cancelEntry (s : State) : State :=
  match s.drainOf 4 with
  | .hold _ | .enter _ => (acceptAgain ((s.setDrain 4 .none).setF F.PWR_STATUS_ENTERING 0)).bump F.PWR_COUNTS_ABORTED 1
  | _ => s

/-- The package is commanded to state `st` (R436): deeper by an entry, shallower by an exit, at once or, from the gate step of an entry, once
that has completed. None while a reset or a shutdown is under way. -/
def commandState (s : State) (st : Nat) : State :=
  let goal : Option (BitVec 3) := if st = 0 then none else some (BitVec.ofNat 3 st)
  match s.drainOf 4 with
  | .gate e =>
    if e.toNat = st then { s with pwr := { s.pwr with wakeDue := none, goal := none } }
    else { s with pwr := { s.pwr with wakeDue := some 0, goal := goal } }
  | .reset | .shutdown => s
  | .none | .hold _ | .enter _ =>
    let s := { s with pwr := { s.pwr with goal := none } }
    if s.pwrState < st then beginEntry s st false
    else if st < s.pwrState then { cancelEntry s with pwr := { (cancelEntry s).pwr with exiting := true, goal := goal } }
    else if s.drainOf 4 = .none then { s with pwr := { s.pwr with exiting := false } }
    else { cancelEntry s with pwr := { (cancelEntry s).pwr with exiting := decide (st = 0) } }

/-- ENTER_STATE (R436): PWR.CMD is written with GO; codes 5–7 act as 0. -/
def execEnterState (st : BitVec 3) (s : State) : Host.Outcome State Fault Refusal :=
  .next (commandState (s.setF F.PWR_CMD_STATE st.toNat) (if 5 ≤ st.toNat then 0 else st.toNat))

/-- Exit latency in tenths of a µs, and break-even time in µs, of a state (R430, R433). -/
def exitTenths (s : State) (st : Nat) : Nat :=
  match st with
  | 1 => 3
  | 2 => 150
  | 3 => 4000
  | _ =>
    let n := s.f F.CFG_STATUS_SLOT
    let len := match s.activeCopy n with | some c => (s.copy n c).length | none => 0
    800000 + (if s.bit F.PWR_CTRL_RELOAD then (len * 10000000 + 2 ^ 30 - 1) / 2 ^ 30 + 15000 else 0)

def breakEven (st : Nat) : Nat := match st with | 1 => 1 | 2 => 200 | 3 => 20000 | _ => 60000000

/-- AUTO_ENTRY (R433): towards the deepest allowed state whose break-even time PWR.IDLE has passed, by way of the shallower allowed ones:
the next of them. -/
def execAutoEntry (s : State) : Host.Outcome State Fault Refusal :=
  let ok (st : Nat) : Bool := decide (st ≤ s.f F.PWR_CTRL_MAX_STATE) && decide (exitTenths s st ≤ 10 * s.f F.PWR_TOL_US) &&
    decide (breakEven st ≤ s.f F.PWR_IDLE_US)
  .next (
    if ¬ s.bit F.PWR_CTRL_AUTO ∨ s.drainOf 4 ≠ .none then s
    else
      match [1, 2, 3, 4].find? (fun st => decide (s.pwrState < st) && ok st) with
      | some st => beginEntry s st true
      | none => s)

/-- VQ of a quadrant that runs again after retention: the value is not stated, and free within R444's range. One that sleep emulation
kept has its supply still (R421). -/
def restoreVq (s : State) (q : Nat) : State :=
  if s.pwr.kept.getLsbD q then { s with pwr := { s.pwr with kept := setBit s.pwr.kept q false } }
  else
    let (v, s) := s.draw 10
    s.setVq q (600 + v.toNat % 301)

/-- The contents of a quadrant are lost as its supply goes (R26, R430). Semaphores of its requesters stay held until the reset at the exit
(R22, R376). -/
def loseQuad (s : State) (q : Nat) : State :=
  let s := emptyDie (flushQuad s q) q
  let s := foldS (quadRegions q) s (fun s rg => s.onRgn rg (fun r => r.lost (r.f F.RGN_STATUS_EPOCH)))
  { s with library := SMap.keep (fun k => decide (k / 0x8000 ≠ q)) s.library }

/-- A retouch whose region lies in the quadrant is abandoned (R230). -/
def abandonApply (s : State) (q : Nat) : State :=
  match s.applying with
  | some rg => if quadOf rg = q then rejectPartial s 15 rg 0 else s
  | none => s

/-- Jobs with regions in the quadrant that are ACTIVE fail as its contents go (R51). -/
def failActive (s : State) (q : Nat) : State :=
  foldS ((quadRegions q).filterMap s.jobOf).eraseDups s (fun s j => if s.bit (F.MER_JOB_CTRL_ACTIVE j.toNat) then failJob s j else s)

/-- A quadrant enters DORMANT: the rail is off. -/
def quadOff (s : State) (q : Nat) : State := (loseQuad (abandonApply (failActive s q) q) q).setVq q 0

/-- Sleep emulation keeps the quadrant, which holds a halted core, powered in the state that it now reports (R421). -/
def State.emulates (s : State) (q : Nat) : Bool :=
  s.bit F.DBG_SESSION_ATTACH && s.bit F.DBG_CTRL_SLEEP_EMU && s.quadClocked q &&
    (quadRegions q).any (fun rg => allCores.any (fun k => s.rbit rg (F.EAS_STATUS_HALTED k.val)))

/-- A quadrant's supply and contents in the state it enters: lost in DORMANT, retained above it, kept as they are under emulation. -/
def sleepQuadSupply (s : State) (q st : Nat) : State :=
  let keep := s.emulates q
  let s := { s with pwr := { s.pwr with kept := setBit s.pwr.kept q keep } }
  if keep then s else if st = 4 then quadOff s q else s.setVq q 550

/-- The ports go QUIET in DOZE; OFF below it (R299): in NAP the sequence state is kept, in DORMANT it is cleared (R289, R430). -/
def sleepPorts (s : State) (st : Nat) : State :=
  foldS (List.range 6) s (fun s p =>
    if st = 2 then quietLink s p
    else
      let was := s.link p
      setLink (s.onPort p (fun x => if st = 3 then x.leave was else { x.clearSeq with out := none, sent := [] })) p 7)

/-- The entry of the package to `st` completes (R436). One below HOLD is given up where the loader is at work by now (R206). -/
def completeEntry (s : State) (st : Nat) : State :=
  let s := (s.setDrain 4 .none).setF F.PWR_STATUS_ENTERING 0
  if s.fullLoad then
    let s := (acceptAgain s).bump F.PWR_COUNTS_ABORTED 1
    { s with pwr := { s.pwr with wakeDue := none, goal := none, exiting := true } }
  else
    let s := foldS (List.range 4) s (fun s q =>
      if s.ownState q = 5 ∨ (s.ownState q = 4 ∧ ¬ s.quadClocked q) then s else sleepQuadSupply s q st)
    let s := (setPwr s st).bump F.PWR_COUNTS_ENTRIES 1
    let s := if st = 4 then losePeripherals s else s
    match s.pwr.wakeDue with
    | some _ => { s with pwr := { s.pwr with wakeDue := none, exiting := true } }
    | none => s

/-- A wake event of source `src` (R434, R436): it cancels an entry that still drains, waits for one that is past the gate, and begins
the exit from a state below RUN that is one of `acts`. A package reset that drains goes on (R25). -/
def wakeEvent (s : State) (src : Nat) (acts : List Nat) : State :=
  let note (s : State) : State :=
    let s := ((s.setF F.PWR_STATUS_WAKE_SRC src).setF F.PWR_STATUS_WAKE_EVT 1).setF F.PWR_IDLE_US 0
    { s with pwr := { s.pwr with goal := none } }
  match s.drainOf 4 with
  | .hold st | .enter st =>
    if st.toNat ∈ acts ∨ s.pwrState ∈ acts then
      let s := cancelEntry (note s)
      { s with pwr := { s.pwr with exiting := true } }
    else s
  | .gate st => if st.toNat ∈ acts then { note s with pwr := { (note s).pwr with wakeDue := some (BitVec.ofNat 3 src) } } else s
  | .reset => s
  | _ => if s.pwrState ∈ acts then { note s with pwr := { (note s).pwr with exiting := true } } else s

/-- WAKE (R434). -/
def execWake (s : State) : Host.Outcome State Fault Refusal := .next (wakeEvent s 1 [1, 2, 3, 4])

/-- PEER_RESUMES_SIGNALLING (R434): a peer resumes signalling on a QUIET port. -/
def execPeerResumesSignalling (p : PortNo) (s : State) : Host.Outcome State Fault Refusal :=
  .next (if s.link p.val = 6 then wakeEvent s 3 [2] else s)

/-- An idle condition fails: it wakes a package in HOLD, and one that under AUTO begins to leave HOLD (R432, R434, R436); an entry by command
goes on whatever the idle conditions say. -/
def idleFails (s : State) : State :=
  let s := s.setF F.PWR_IDLE_US 0
  let entry : Bool := match s.drainOf 4 with | .none => true | .hold _ | .enter _ => s.pwr.auto | _ => false
  if s.pwrState = 1 ∧ entry then wakeEvent s 4 [1] else s

/-- A quadrant as the package leaves state `was` (R22, R24, R438): one that runs has its supply again. After DORMANT every quadrant that is
not DORMANT or FAULT itself is reset, which ends a reset of it that was requested, and one in DOZE of its own stays there. -/
def exitQuad (s : State) (was q : Nat) : State :=
  let own := s.ownState q
  if was = 4 ∧ (own = 0 ∨ own = 2) then
    let s := (if s.packageResetting then s else resetQuadrant (abandonLoad s) q).setVq q (if own = 0 then 750 else 550)
    if s.quadResetting q then s.setDrain q .none else s
  else if 2 ≤ was ∧ own = 0 then restoreVq s q
  else s

/-- The session ends during an emulated state: each quadrant that was kept enters the state it reports (R423). -/
def endEmulation (s : State) : State :=
  foldS (List.range 4) s (fun s q =>
    if ¬ s.pwr.kept.getLsbD q then s
    else
      let s := { s with pwr := { s.pwr with kept := setBit s.pwr.kept q false } }
      if s.quadState q = 4 then quadOff s q else if s.quadState q < 2 then s else s.setVq q 550)

/-! ### Quadrants (R438, R445) -/

/-- The supply of a quadrant whose rail is switched on: the package's state decides it. -/
def railOn (s : State) (q : Nat) : State :=
  if s.pwrState = 4 then s else s.setVq q (if 2 ≤ s.pwrState then 550 else 750)

def setQop (s : State) (q op : Nat) : State := s.setF (F.PWR_QCTRL_OP q) op

/-- DOZE or DORMANT of one quadrant (R438): refused while a region of it belongs to a job that is ACTIVE and not HELD. A deeper state takes
the place of one that still drains; past the drain, or in a reset, it waits for the end of that. -/
def sleepQuad (s : State) (q st : Nat) : State :=
  let busy := (quadRegions q).any (fun rg => match s.jobOf rg with | some j => s.activeJobs.contains j | none => false)
  if busy then s.setF (F.PWR_QSTAT_REFUSED q) 1
  else if st ≤ s.ownState q then s
  else
    let b := BitVec.ofNat 3 st
    match s.drainOf q with
    | .enter _ => s.setDrain q (.enter b)
    | .none => (foldS (quadRegions q) s abandonTest).setRefusing q true |>.setDrain q (.enter b)
    | _ => { s with pwr := { s.pwr with qGoal := SMap.set none s.pwr.qGoal q (some b) } }

/-- WAKE of one quadrant (R438, R445): from DOZE it runs again, from DORMANT it is reset and UNCONFIGURED, and the rail of a FAULT is retried
unless it is locked. An entry that drains is cancelled; past the drain, or in a reset, the wake waits for the end of that (R436). -/
def wakeQuad (s : State) (n : Nat) : State :=
  let up (s : State) : State := (showQuads (s.setOwn n 0)).setRefusing n (decide (2 ≤ s.pwrState))
  let awake (s : State) : State :=
    match s.ownState n with
    | 0 => s.setRefusing n (decide (2 ≤ s.pwrState))
    | 2 => up (if 2 ≤ s.pwrState then s else restoreVq s n)
    | 4 => up (if s.pwrState = 4 then s else railOn (if s.packageResetting then s else resetQuadrant (abandonLoad s) n) n)
    | 5 => if s.pwr.locked.getLsbD n then s else up (railOn s n)
    | _ => s
  match s.drainOf n with
  | .none => if s.ownState n = 0 then s else awake s
  | .enter _ => awake (s.setDrain n .none)
  | _ => { s with pwr := { s.pwr with qGoal := SMap.set none s.pwr.qGoal n (some 0) } }

/-- The state that PWR.QCTRL has named meanwhile is entered (R438). -/
def settleQuad (s : State) (q : Nat) : State :=
  let t := { s with pwr := { s.pwr with qGoal := SMap.set none s.pwr.qGoal q none } }
  match SMap.get none s.pwr.qGoal q with
  | none => s
  | some st => if st = 0 then wakeQuad t q else sleepQuad t q st.toNat

/-- The entry of a quadrant to its own state completes (R438). -/
def completeQuad (s : State) (q st : Nat) : State :=
  settleQuad (showQuads ((sleepQuadSupply (s.setDrain q .none) q st).setOwn q st)) q

/-- ENTRY_COMPLETE (R436, R438): what has been gated reaches its state. -/
def execEntryComplete (s : State) : Host.Outcome State Fault Refusal :=
  .next (foldS (List.range 5) s (fun s k =>
    match s.drainOf k with
    | .gate st => if k = 4 then completeEntry s st.toNat else completeQuad s k st.toNat
    | _ => s))

/-- The quadrant reset after its drain (R22, R438): a rail that is off after a fault is retried, unless it is locked. -/
def performQuadReset (s : State) (q : Nat) : State :=
  let s := (resetQuadrant (abandonApply s q) q).setDrain q .none
  let s := if s.ownState q = 5 ∧ ¬ s.pwr.locked.getLsbD q then railOn (s.setOwn q 0) q else s
  let s := showQuads s
  settleQuad (s.setRefusing q (decide (s.ownState q ≠ 0) || (decide (2 ≤ s.pwrState)))) q

/-- EXIT_COMPLETE (R431, R435–R437): every quadrant runs and every ingress accepts; ports wake or train; held jobs resume. From DORMANT the
quadrants are reset, and with RELOAD the ground is loaded. Where PWR.CMD has named a state below RUN, the package goes to HOLD alone and enters it;
while the thermal trip stands, HOLD is where the exit ends (R442). -/
def execExitComplete (s : State) : Host.Outcome State Fault Refusal :=
  .next (
    if ¬ s.pwr.exiting then s
    else
      let was := s.pwrState
      let trip := decide (s.pwr.goal = none) && s.bit F.THM_STATUS_THERM
      let goal := if trip then some 1 else s.pwr.goal
      let s := { s with pwr := { s.pwr with exiting := false, goal := none } }.setF F.PWR_STATUS_TRIP_HOLD trip.toNat
      let s := foldS (List.range 4) s (fun s q => exitQuad s was q)
      let s := acceptAgain (setPwr s (if goal.isSome then 1 else 0))
      let s := foldS (List.range 4) s (fun s q => if s.drainOf q = .none then settleQuad s q else s)
      let s := foldS (List.range 6) s (fun s p =>
        if s.link p = 6 then wakeLink s p
        else if s.link p = 7 then beginTraining (setLink s p 0) p else s)
      let s := match goal with
        | some st => if st = 1 then (if was = 0 then holdJobs s else s) else beginEntry s st.toNat false
        | none => releaseRegions (resumeJobs s)
      if was = 4 ∧ s.bit F.PWR_CTRL_RELOAD ∧ ¬ s.fullLoad ∧ ¬ s.groundBusy then loadGround s (s.f F.CFG_STATUS_SLOT) else s)

/-- QUAD_RESET (R438): never refused; a load in progress is abandoned (R204), jobs in the quadrant are reported failed. -/
def execQuadReset (q : Quad) (s : State) : Host.Outcome State Fault Refusal :=
  let n := q.toNat
  .next (requestQuadReset (failJobsOf (abandonLoad (setQop s n 1)) n) n)

/-- QUAD_DOZE (R438). -/
def execQuadDoze (q : Quad) (s : State) : Host.Outcome State Fault Refusal := .next (sleepQuad (setQop s q.toNat 2) q.toNat 2)

/-- QUAD_DORMANT (R438). -/
def execQuadDormant (q : Quad) (s : State) : Host.Outcome State Fault Refusal := .next (sleepQuad (setQop s q.toNat 3) q.toNat 4)

/-- QUAD_WAKE (R438, R445). -/
def execQuadWake (q : Quad) (s : State) : Host.Outcome State Fault Refusal := .next (wakeQuad (setQop s q.toNat 4) q.toNat)

/-- VQ_FAULT (R29, R445): the quadrant's regions are isolated, it is reset (with the package, where that is being reset), its rail is off; a load in progress is abandoned (R204).
After the third fault within 1 s it stays FAULT. -/
def execVqFault (q : Quad) (since : Word) (s : State) : Host.Outcome State Fault Refusal :=
  let n := q.toNat
  let s := foldS (quadRegions n) (abandonApply (abandonLoad s) n) (fun s rg => isolate s rg 5 0)
  let s := { s with pwr := { s.pwr with qGoal := SMap.set none s.pwr.qGoal n none } }
  let s := (if s.packageResetting then s else (resetQuadrant s n).setDrain n .none).setVq n 0
  let recent := (SMap.get [] s.pwr.faults n ++ [s.nowAt since]).filter (fun t => decide (s.nowAt since ≤ t + 1000000000))
  let s := { s with pwr := { s.pwr with faults := SMap.set [] s.pwr.faults n recent,
                                        locked := setBit s.pwr.locked n (s.pwr.locked.getLsbD n || decide (3 ≤ recent.length)) } }
  let s := showQuads ((s.setOwn n 5).setRefusing n true)
  .next (((s.setF (F.PWR_QSTAT_VQ_FAULT n) 1).noteFault 23 n (faultKey [])).ibi 0x11 n 0)

/-! ### Samples (R439–R446) -/

/-- PWR.CAP as it acts (R440). -/
def State.cap (s : State) : Nat := min 4200 (max 1000 (s.f F.PWR_CAP_DW))

/-- A temperature as a signed number (R449). -/
def degrees (t : BitVec 8) : Int := t.toInt

/-- THM.CTRL.THROTTLE as it acts (R449). -/
def State.throttleAt (s : State) : Int := max 60 (min 110 (degrees (BitVec.ofNat 8 (s.f F.THM_CTRL_THROTTLE))))

def State.hottest (s : State) : Int := degrees (BitVec.ofNat 8 (s.f F.THM_TEMP_MAX_TEMP))

/-- The throttle's bits and THM.STATUS.THROTTLING (R441). -/
def setThrottle (s : State) (temp cap : Bool) : State :=
  let s := (s.setF F.PWR_STATUS_THR_TEMP temp.toNat).setF F.PWR_STATUS_THR_CAP cap.toNat
  s.setF F.THM_STATUS_THROTTLING (temp || cap).toNat

/-- POWER_SAMPLE (R439–R441): package power and the rails' shares in 0.1 W; the cap throttle engages after two intervals above PWR.CAP,
and the throttle ends after ten calm ones. -/
def execPowerSample (pkg : BitVec 16) (quads : List (BitVec 16)) (s : State) : Host.Outcome State Fault Refusal :=
  let s := foldS (List.range 4) s (fun s q => s.issueAvs q [.voltage, .current, .status])
  let s := s.setF F.PWR_POWER_NOW pkg.toNat
  let s := if s.f F.PWR_POWER_PEAK < pkg.toNat then s.setF F.PWR_POWER_PEAK pkg.toNat else s
  let s := foldS (List.range 4) s (fun s q => s.setF (F.PWR_QPOWER_DW q) (quads.getD q 0).toNat)
  let s := s.setF F.PWR_STATUS_CAPPED (decide (98 * s.cap ≤ 100 * pkg.toNat)).toNat
  let ovf := decide (s.cap < pkg.toNat)
  let temp := s.bit F.PWR_STATUS_THR_TEMP
  let s := if ovf ∧ s.pwr.capOver then setThrottle s temp true else s
  let quiet := decide (s.hottest < s.throttleAt - s.f F.THM_CTRL_HYST) && !ovf
  let calm := if quiet then min (s.pwr.calm.toNat + 1) 10 else 0
  let s := { s with pwr := { s.pwr with capOver := ovf, calm := BitVec.ofNat 4 calm } }
  .next (if calm = 10 then setThrottle s false false else s)

/-- The sensor with the highest reading, the lowest number first. -/
def hottestOf (temps : List (BitVec 8)) : Nat × BitVec 8 :=
  (temps.zipIdx).foldl (fun m x => if degrees m.2 < degrees x.1 then (x.2, x.1) else m) (0, temps.getD 0 0)

/-- The trip at 115 °C, and its end below 110 °C (R442). From RUN the package enters HOLD; an exit that is under way ends there. -/
def judgeTrip (s : State) : State :=
  let t := s.hottest
  if 115 ≤ t ∧ ¬ s.bit F.THM_STATUS_THERM then
    let s := (s.setF F.THM_STATUS_THERM 1).setF F.THM_STATUS_TRIP 1
    let s := s.ibi 0x10 (s.f F.THM_TEMP_MAX_SRC) (s.f F.THM_TEMP_MAX_TEMP)
    if s.drainOf 4 ≠ .none ∨ 2 ≤ s.pwrState then holdJobs s
    else if s.pwrState = 0 then (beginEntry s 1 false).setF F.PWR_STATUS_TRIP_HOLD 1
    else
      let s := holdJobs s
      if s.pwr.exiting then { s with pwr := { s.pwr with exiting := false, goal := none } }.setF F.PWR_STATUS_TRIP_HOLD 1 else s
  else if t < 110 ∧ s.bit F.THM_STATUS_THERM then
    let s := s.setF F.THM_STATUS_THERM 0
    if s.bit F.PWR_STATUS_TRIP_HOLD then wakeEvent s 5 [1] else s
  else s

/-- THERMAL_SAMPLE (R441, R442): the 65 sensors, 16 q + g and 64 for the hub. A hub that is held in reset samples none. -/
def execThermalSample (temps : List (BitVec 8)) (s : State) : Host.Outcome State Fault Refusal :=
  let ts := (List.range 65).map (fun i => temps.getD i 0)
  if ¬ s.hubPowered ∨ s.pwr.boot = .resetLow then .next s
  else
  let s := foldS ts.zipIdx s (fun s x => s.setF (F.THM_SENSOR_TEMP x.2) x.1.toNat)
  let (i, t) := hottestOf ts
  let s := (s.setF F.THM_TEMP_MAX_TEMP t.toNat).setF F.THM_TEMP_MAX_SRC i
  let s := if s.throttleAt ≤ s.hottest then setThrottle { s with pwr := { s.pwr with calm := 0 } } true (s.bit F.PWR_STATUS_THR_CAP) else s
  .next (judgeTrip (watchTest s))

/-- A quadrant's slowdown is saved to the helm area (R446, R447). -/
def saveSlow (s : State) (n : Nat) : State :=
  { s with flash := { s.flash with slow := SMap.set 0 s.flash.slow n (BitVec.ofNat 10 (s.f (F.PWR_AGE_SLOW n))),
                                   slowAt := SMap.set 0 s.flash.slowAt n s.flash.hours } }

/-- AGE_CHECK (R446): the slowdown in units of 0.1 %, saved to the flash every 24 h of powered time; the warning level reached is reported. -/
def execAgeCheck (q : Quad) (slow : BitVec 10) (s : State) : Host.Outcome State Fault Refusal :=
  let n := q.toNat
  let before := s.f (F.PWR_AGE_SLOW n)
  let s := s.setF (F.PWR_AGE_SLOW n) slow.toNat
  let s := if (SMap.get 0 s.flash.slowAt n).toNat + 24 ≤ s.flash.hours.toNat then saveSlow s n else s
  .next (if before < 60 ∧ 60 ≤ slow.toNat then (s.setF F.PWR_STATUS_AGE_ALERT 1).ibi 0x12 n (min 255 (slow.toNat / 4)) else s)

/-! ### Resets and boot (R427, R428, R443) -/

/-- A package reset that has been requested happens. -/
def performPackageReset (s : State) : State :=
  resetPackage s (match s.pwr.boot with | .resetLow => .resetLow | _ => .helmBoot)

/-- Requests that were taken and are not answered at the end of a drain are lost (R262): at their targets, with their places on the helm bus and
their requests for a memory's back port, and in the queues that `inside` names, but for those that wait there to be refused. -/
def State.loseTaken (s : State) (inside : Nat → Bool) (lost : Packet → Bool) : State :=
  let gone (p : Packet) : Bool := !p.isResp && lost p
  let due (p : Packet) : Bool := (List.range 6).any (fun i => (s.port i).due.any (fun x => decide (x.1 = p)))
  let t := { s with arrived := s.arrived.filter (fun p => !gone p),
                    bus := s.bus.filter (fun b => match b.turn with | some p => !gone p | none => true) }
  let t := t.dropQueued (fun k p => inside (k / 128) && gone p && !due p)
  foldS (s.arrived.filter gone) t (fun t p =>
    if nodeUnit p.dest = 0x13 ∨ nodeUnit p.dest = 0x14 then t.onRgn (nodeRgn p.dest) (fun r => r.dropRequest 3) else t)

/-- A request to a target in quadrant `q`, and one to a target of the package that its ingress does not admit while it is stopped. -/
def State.intoQuad (s : State) (q : Nat) (p : Packet) : Bool :=
  decide (nodeCoord p.dest = s.f F.FAB_ID_COORD) && !(decide (0x38 ≤ nodeUnit p.dest) && decide (nodeUnit p.dest ≤ 0x3B)) &&
    decide (quadOf (nodeRgn p.dest) = q)
def State.intoPackage (s : State) (p : Packet) : Bool := decide (nodeCoord p.dest = s.f F.FAB_ID_COORD) && !admitted p

/-- The helm sets every VQ that it can to 0.75 V for shutdown BIST (R447, R461). -/
def testSupply (s : State) : State :=
  foldS (List.range 4) s (fun s q => if s.ownState q = 5 then s else s.setVq q 750)

/-- NEIGHBOUR_DRAIN_END (R262): the drain of a scope has ended, and the scope is gated or reset. -/
def execNeighbourDrainEnd (sc : Scope) (s : State) : Host.Outcome State Fault Refusal :=
  .next (
    match sc with
    | .region rg => drainedRegion s rg
    | .quadrant q =>
      match s.drainOf q.toNat with
      | .reset => performQuadReset s q.toNat
      | .enter st => (flushQuad (s.loseTaken (fun e => decide (e < 64) && onDie q.toNat e) (s.intoQuad q.toNat)) q.toNat).setDrain q.toNat (.gate st)
      | _ => s
    | .package =>
      match s.drainOf 4 with
      | .reset => performPackageReset s
      | .enter st => (sleepPorts (dropLines (flushCrossings (s.loseTaken (fun _ => true) s.intoPackage)) (fun _ => true)) st.toNat).setDrain 4 (.gate st)
      | .shutdown =>
        let s := sleepPorts ((s.loseTaken (fun _ => true) s.intoPackage).setDrain 4 .none) 3
        let s := { s with pwr := { s.pwr with shutdown := 3 } }
        if s.bit F.PWR_CTRL_SHUT_BIST then beginPackageTest (testSupply s) 1 else s
      | _ => s)

/-- RESET_N (R22, R443): held low past the filter. After a thermal shutdown it counts only while every sensor reads below 110 °C,
`cool`, and the hub has its supplies. -/
def execResetN (cool : Bool) (s : State) : Host.Outcome State Fault Refusal :=
  .next (
    match s.pwr.boot with
    | .noPower => s
    | .thermal => if cool ∧ ¬ s.pwr.vhubOut ∧ ¬ s.pwr.vflOut then resetPackage { s with pwr := { s.pwr with cause := 1 } } .resetLow else s
    | _ =>
      let s := requestPackageReset s 1
      { s with pwr := { s.pwr with boot := .resetLow, cause := 1 } })

/-- RESET_N_RELEASE (R392, R428): the straps are sampled and helm boot starts. -/
def execResetNRelease (profSel addrSel : BitVec 2) (lodestar : Bool) (s : State) : Host.Outcome State Fault Refusal :=
  .next (
    if s.pwr.boot ≠ .resetLow then s
    else
      let s := if s.packageResetting then performPackageReset s else s
      let s := (s.setF F.HIF_PINS_PROF_SEL profSel.toNat).setF F.HIF_PINS_ADDR_SEL addrSel.toNat
      let s := (s.setF F.HIF_PINS_LODESTAR lodestar.toNat).setF F.CFG_GROUND_STAT_PIN_SEL profSel.toNat
      { s.setF F.FAB_STATUS_STRAP lodestar.toNat with pwr := { s.pwr with boot := .helmBoot } })

/-- POWER_ON (R20, R427): power is applied, with RESET_N low. A hub that a thermal shutdown holds in reset stays so (R443). -/
def execPowerOn (s : State) : Host.Outcome State Fault Refusal :=
  let t := { s with pwr := { s.pwr with vflOut := false, vhubOut := false } }
  .next (if s.pwr.boot = .noPower then resetPackage { t with pwr := { t.pwr with cause := 0 } } .resetLow else t)

/-- VHUB, or VFL, or both leave their range: the package resets, and nothing runs until power is applied again (R427). A hub that a thermal
shutdown holds in reset stays so while it has VHUB, whose loss clears LAST_SHUTDOWN (R443). -/
def loseSupply (s : State) (vhub vfl : Bool) : State :=
  let s := { s with pwr := { s.pwr with vflOut := s.pwr.vflOut || vfl, vhubOut := s.pwr.vhubOut || vhub } }
  let s := if s.pwr.boot = .noPower ∨ (s.pwr.boot = .thermal ∧ ¬ vhub) then s
    else resetPackage { s with pwr := { s.pwr with cause := 0 } } .noPower
  if vhub then s.setF F.THM_STATUS_LAST_SHUTDOWN 0 else s

/-- POWER_REMOVAL (R427, R443): with RESET_N low the package goes OFF, and the loss of VHUB clears LAST_SHUTDOWN. -/
def execPowerRemoval (s : State) : Host.Outcome State Fault Refusal :=
  .next (if s.pwr.boot = .resetLow ∨ ¬ s.hubPowered then loseSupply s true true else s)

/-- SUPPLY_LOSS (R427, R443): the loss of VHUB or VFL resets the package at once, as no drain can run; the loss of VSDL or VSDH takes every
port DOWN. -/
def execSupplyLoss (rail : Rail) (s : State) : Host.Outcome State Fault Refusal :=
  .next (
    match rail with
    | .vhub => loseSupply s true false
    | .vfl => loseSupply s false true
    | _ => foldS (List.range 6) s (fun s p => goDown s p))

/-- HELM_RESTART (R22). -/
def execHelmRestart (s : State) : Host.Outcome State Fault Refusal := .next (requestPackageReset s 3)

/-- THERMAL_SHUTDOWN (R443): the switches open, THERM_N is asserted, every pad is high-Z, the hub is held in reset. -/
def execThermalShutdown (s : State) : Host.Outcome State Fault Refusal :=
  let s := resetPackage s .thermal
  let s := foldS (List.range 4) s (fun s q => s.setF (F.PWR_QSTAT_VQ q) 0)
  .next ((s.setF F.THM_STATUS_LAST_SHUTDOWN 1).setF F.THM_STATUS_THERM 1)

/-- BOOT_END (R20, R428, R462): the boot count rises and sets the epochs, the I3C target becomes ready, the skip record is consumed; the
compass sweep begins. -/
def execBootEnd (secondCopy : Bool) (fwVersion : Word) (s : State) : Host.Outcome State Fault Refusal :=
  .next (
    if s.pwr.boot ≠ .helmBoot then s
    else
      let boots := s.flash.boots + 1
      let skips := decide (s.flash.skip = some s.flash.seq)
      let s := { s with flash := { s.flash with boots := boots, skip := none } }
      let s := foldS allRegions (s.setF F.FAB_ID_EPOCH boots.toNat) (fun s rg => s.setRf rg F.RGN_STATUS_EPOCH boots.toNat)
      let s := (s.setReg R.HUB_FW fwVersion).setReg R.HUB_FW_COPY (ofBool 32 secondCopy)
      let s := foldS (List.range 4) s (fun s q => s.setF (F.PWR_AGE_SLOW q) (SMap.get 0 s.flash.slow q).toNat)
      let s := { s with i3c := { s.i3c with joinDue := s.bit F.HIF_CTRL_HJ_EN } }
      let s := foldS (List.range 4) s (fun s q => s.issueAvs q [.voltage, .rate s.avsRate])
      let s := s.setF F.PWR_STATUS_BIST_SKIPPED skips.toNat
      let s := if skips then s else beginPackageTest s 0
      beginSweep { s with pwr := { s.pwr with boot := if skips then .calibration else .selfTest } })

/-- STARTUP_BIST_END (R428, R460, R461). -/
def execStartupBistEnd (fails : StartupBist) (s : State) : Host.Outcome State Fault Refusal :=
  .next (
    if s.pwr.boot ≠ .selfTest then s
    else
      let s := (endPackageTest s 0 fails.report fails.offClock).1
      { s with pwr := { s.pwr with boot := .calibration } })

/-- CALIBRATION_END (R215, R428): the ground that PROF_SEL names is loaded, unless a host's bitstream is already arriving. -/
def execCalibrationEnd (s : State) : Host.Outcome State Fault Refusal :=
  .next (
    if s.pwr.boot ≠ .calibration then s
    else
      let s := { s with pwr := { s.pwr with boot := .up } }
      if s.fullLoad ∨ s.groundBusy then s else loadGround s (s.f F.CFG_GROUND_STAT_PIN_SEL))

/-! ### Orderly shutdown (R447) -/

/-- SHUTDOWN (R447): step 1. -/
def execShutdown (s : State) : Host.Outcome State Fault Refusal :=
  .next (if s.pwr.shutdown ≠ 0 ∨ 5 ≤ s.pwrState ∨ s.packageResetting then s else { holdJobs s with pwr := { s.pwr with shutdown := 1 } })

/-- SHUTDOWN_WAIT_END (R447): steps 2 and 3. -/
def execShutdownWaitEnd (s : State) : Host.Outcome State Fault Refusal :=
  .next (
    if s.pwr.shutdown ≠ 1 then s
    else
      let s := abandonLoad s
      let s := if s.load.kind = .retouch then rejectPartial s 15 ((s.applying).getD 0) 0 else s
      let s := foldS allRegions { s with pwr := { s.pwr with shutdown := 2 } } abandonTest
      ((s.setF F.PWR_STATUS_ENTERING 0).setRefusing 4 true).setDrain 4 .shutdown)

/-- SHUTDOWN_BIST_END (R447, R461, R462): steps 4 to 6. `offClock`: the steps whose test clock measured out of range. -/
def execShutdownBistEnd (fails : BistReport) (offClock : List (BitVec 18)) (s : State) : Host.Outcome State Fault Refusal :=
  .next (
    if s.pwr.shutdown ≠ 3 then s
    else
      let (s, pass) := if s.bit F.PWR_CTRL_SHUT_BIST then endPackageTest s 1 fails offClock else (s, false)
      let s := if pass then { s with flash := { s.flash with skip := some s.flash.seq } } else s
      let s := foldS (List.range 4) s saveSlow
      let s := foldS (List.range 4) s quadOff
      let s := { s with gpio := { s.gpio with parked := 0xFFF, held := true } }
      setPwr { s with pwr := { s.pwr with shutdown := 0 } } 5)

end Sys2Proof.Machine
end

