-- ==== Sys2Proof/Machine/Gpio.lean ====
section
/-! DEFINITION. The hub GPIO and its peripherals (R394–R401). -/

namespace Sys2Proof.Machine

/-! ### Owners (R396) -/

/-- The node address of easel core c = 3 (16 q + g) + k on this package (R396). -/
def State.coreNode (s : State) (c : Nat) : Node := s.node (BitVec.ofNat 6 (c / 3)) (0x10 + c % 3)

/-- A node whose UNIT is that of an easel core. -/
def easelUnit (n : Node) : Bool := decide (0x10 ≤ nodeUnit n) && decide (nodeUnit n ≤ 0x12)

/-- The writer owns pin `i`. -/
def State.ownsPin (s : State) (w : Writer) (i : Nat) : Bool :=
  match s.f (F.GPIO_PIN_OWNER i), w with
  | 0, .helm => true
  | 1, .i3c => true
  | 1, .debug => true
  | 1, .oxdon n => !easelUnit n
  | 2, .i3c => true
  | 2, .debug => true
  | 3, .oxdon n => decide (s.f (F.GPIO_PIN_CORE i) < 192) && decide (n = s.coreNode (s.f (F.GPIO_PIN_CORE i)))
  | _, _ => false

/-- Writes or bits that R396 refuses are ignored and counted. -/
def State.gpioDenied (s : State) (n : Nat) : State := s.bump F.GPIO_DENIED_WRITES n

/-- The bits of a pin mask that the writer may change. -/
def State.ownedPins (s : State) (w : Writer) (mask : BitVec 12) : BitVec 12 :=
  mask &&& BitVec.ofNat 12 (packKey ((List.range 12).map (fun i => ((s.ownsPin w i).toNat, 1))))

/-- The number of 1 bits. -/
def ones (m : BitVec 12) : Nat := ((List.range 12).filter (fun i => m.getLsbD i)).length

/-- The pads that plain outputs drive (R394). -/
def State.drivenPins (s : State) : BitVec 12 :=
  BitVec.ofNat 12 (s.f F.GPIO_DIR_OUT) &&& ~~~ s.gpio.parked &&& ~~~ s.gpio.periph

/-- What GPIO pad `n` shows (R394, R395, R427, R443): parked with its keeper, driven by the peripheral that has it or as a plain output, or high-Z. -/
def State.gpioPad (s : State) (n : Nat) : PadOut :=
  if s.padsFloat then .float
  else if s.gpio.parked.getLsbD n then .keeper
  else if s.gpio.periph.getLsbD n then .peripheral
  else if s.drivenPins.getLsbD n then .drives ((s.f F.GPIO_OUT_DATA).testBit n)
  else .float

/-- The levels last seen or driven at the pads: a plain output brings its pad to GPIO.OUT (R397). -/
def showPads (s : State) : State :=
  let d := s.drivenPins
  let v := (s.gpio.pads &&& ~~~ d) ||| (BitVec.ofNat 12 (s.f F.GPIO_OUT_DATA) &&& d)
  { s with gpio := { s.gpio with pads := v } }

/-- A pad is seen at a level. -/
def seePad (s : State) (i : Nat) (v : Bool) : State := { s with gpio := { s.gpio with pads := setBit s.gpio.pads i v } }

/-- A write of GPIO.OUT_SET or GPIO.OUT_CLR (R396, R397). -/
def writeOut (s : State) (mask : BitVec 12) (w : Writer) (set : Bool) : State :=
  let ok := s.ownedPins w mask
  let out : BitVec 12 := BitVec.ofNat 12 (s.f F.GPIO_OUT_DATA)
  let s := s.setF F.GPIO_OUT_DATA (if set then out ||| ok else out &&& ~~~ ok).toNat
  showPads (s.gpioDenied (ones (mask &&& ~~~ ok)))

/-- OUT_SET (R396, R397). -/
def execOutSet (mask : BitVec 12) (by_ : Writer) (s : State) : Host.Outcome State Fault Refusal := .next (writeOut s mask by_ true)

/-- OUT_CLR (R396, R397). -/
def execOutClr (mask : BitVec 12) (by_ : Writer) (s : State) : Host.Outcome State Fault Refusal := .next (writeOut s mask by_ false)

/-- A write of GPIO.DIR (R395, R396): a direction changes without a park. -/
def writeDir (s : State) (v : BitVec 12) (w : Writer) : State :=
  let old : BitVec 12 := BitVec.ofNat 12 (s.f F.GPIO_DIR_OUT)
  let moved := old ^^^ v
  let ok := s.ownedPins w moved
  showPads ((s.setF F.GPIO_DIR_OUT (old ^^^ ok).toNat).gpioDenied (ones (moved &&& ~~~ ok)))

/-- The pins that a peripheral could claim, by the bit of GPIO.FUNC that concerns it (R394). -/
def funcPins : Nat → List Nat
  | 0 | 1 => [0, 1, 10, 11]
  | 2 | 3 => [2, 3, 4, 5, 11]
  | 4 => [6, 7]
  | 5 => [8, 9]
  | _ => [10, 7]

/-- FUNC_CHANGE (R394–R396): a write of GPIO.FUNC. A bit changes where the writer owns every pin that its peripheral could claim. -/
def writeFunc (s : State) (v : BitVec 8) (w : Writer) : State :=
  let old := s.f ⟨R.GPIO_FUNC, 0, 8⟩
  let moved := (List.range 8).filter (fun b => old.testBit b != v.getLsbD b)
  let ok := moved.filter (fun b => (funcPins b).all (s.ownsPin w))
  let new := ok.foldl (fun x b => x ^^^ 2 ^ b) old
  (changeFunc s new).gpioDenied (moved.length - ok.length)

def execFuncChange (v : BitVec 8) (by_ : Writer) (s : State) : Host.Outcome State Fault Refusal := .next (writeFunc s v by_)

/-- PARK_END (R395, R400): the pin takes the function in force. After a package reset every pin stays parked until SETTINGS are
applied; in a test entry it stays parked (R420). -/
def execParkEnd (i : PinNo) (s : State) : Host.Outcome State Fault Refusal :=
  let n := i.val
  .next (
    if ¬ s.gpio.parked.getLsbD n ∨ s.gpio.held ∨ s.dbg.testing.isSome then s
    else
      let p := pinFunction (s.f ⟨R.GPIO_FUNC, 0, 8⟩) n != 0
      showPads { s with gpio := { s.gpio with parked := setBit s.gpio.parked n false, periph := setBit s.gpio.periph n p } })

/-! ### Pin interrupts and wake inputs (R399, R400) -/

/-- The pin that line `n` watches (R399). -/
def State.linePin (s : State) (n : Nat) : Nat := n + 6 * s.f (F.GPIO_INT_SEL n)

/-- An event of the kind is one for MODE (R399, R403). -/
def modeTakes (mode : Nat) : PinEdge → Bool
  | .rising => mode == 1 || mode == 3
  | .falling => mode == 2 || mode == 3
  | .high => mode == 4
  | .low => mode == 5

/-- The pending count of line `n` goes to its core as a one-word item, if the mailbox has room (R399). -/
def deliverLine (s : State) (n : Nat) : State :=
  let c := s.f (F.GPIO_INT_CORE n)
  let count := (SMap.get 0 s.gpio.lines n).toNat
  if count = 0 ∨ s.f (F.GPIO_INT_TARGET n) ≠ 1 ∨ 192 ≤ c then s
  else
    let rg : Rg := BitVec.ofNat 6 (c / 3)
    let k : CoreNo := ⟨c % 3, Nat.mod_lt _ (by decide)⟩
    if 64 ≤ (s.eas rg k).mbin.length then s
    else
      let s := { s with gpio := { s.gpio with lines := SMap.set 0 s.gpio.lines n 0 } }
      pushMbin s rg k (BitVec.ofNat 32 (0x10000 + 16 * count + n)) true false

/-- Another event of line `n` joins its pending count, which stops at 15 with OVERRUN (R365, R399). -/
def countLine (s : State) (n : Nat) : State :=
  let c := SMap.get 0 s.gpio.lines n
  if c = 15 then s.setReg R.GPIO_INT_STAT (s.reg R.GPIO_INT_STAT ||| (1 <<< (8 + n)))
  else { s with gpio := { s.gpio with lines := SMap.set 0 s.gpio.lines n (c + 1) } }

/-- The level that an event shows. -/
def levelOf : PinEdge → Bool
  | .rising | .high => true
  | _ => false

/-- PIN_INTERRUPT (R399): an event at the pin that a line watches goes to the line's TARGET. In a level mode an IBI line waits for its
PEND to be cleared. -/
def execPinInterrupt (line : BitVec 3) (edge_ : PinEdge) (s : State) : Host.Outcome State Fault Refusal :=
  let n := line.toNat
  let mode := s.f (F.GPIO_INT_MODE n)
  let s' := seePad s (s.linePin n) (levelOf edge_)
  .next (
    if 6 ≤ n then s
    else if ¬ modeTakes mode edge_ then s'
    else
      match s.f (F.GPIO_INT_TARGET n) with
      | 0 =>
        if 4 ≤ mode ∧ (s.reg R.GPIO_INT_STAT).getLsbD n then s'
        else (s'.setReg R.GPIO_INT_STAT (s'.reg R.GPIO_INT_STAT ||| (1 <<< n))).ibi 0x0E 0 n
      | 1 => deliverLine (countLine s' n) n
      | _ => s')

/-- The package is not OFF and not in reset (R400: wake inputs act in every state but OFF). -/
def State.powered (s : State) : Bool := s.hubPowered && decide (s.pwr.boot ≠ .resetLow)

/-- WAKE_INPUT (R400, R434): the selected pad has held a level for 1 µs. -/
def execWakeInput (k level : Bool) (s : State) : Host.Outcome State Fault Refusal :=
  let i := k.toNat
  let pin := s.f (F.GPIO_WAKE_SEL i)
  .next (
    if ¬ s.powered ∨ ¬ s.bit (F.GPIO_WAKE_EN i) ∨ 12 ≤ pin ∨ level ≠ s.bit (F.GPIO_WAKE_POL i) then s
    else wakeEvent ((seePad s pin level).setF (F.GPIO_WAKE_HIT i) 1) 2 [1, 2, 3, 4])

/-! ### UART, SPI controller, fans, capture timer (R400, R401) -/

/-- The peripherals' clocks run: not in NAP or DORMANT (R400). -/
def State.gpioRuns (s : State) : Bool := decide (s.pwrState ≠ 3) && decide (s.pwrState ≠ 4)

/-- A write of GPIO.UART_DATA (R401): a byte for a full queue is ignored and counted. -/
def writeUart (s : State) (b : BitVec 8) (w : Writer) : State :=
  if ¬ s.ownsPin w 0 then s.gpioDenied 1
  else if 16 ≤ s.gpio.uartTx.length then s.bump F.GPIO_UART_STAT_TX_DROP 1
  else showUart { s with gpio := { s.gpio with uartTx := s.gpio.uartTx ++ [b] } }

/-- UART_DATA_WRITE (R401). -/
def execUartDataWrite (b : BitVec 8) (by_ : Writer) (s : State) : Host.Outcome State Fault Refusal := .next (writeUart s b by_)

/-- A read of GPIO.UART_DATA (R401): the oldest byte, or 0 with EMPTY. -/
def readUart (s : State) : Word × State :=
  match s.gpio.uartRx with
  | [] => (0, s.setF F.GPIO_UART_STAT_EMPTY 1)
  | b :: t => (b.zeroExtend 32, (showUart { s with gpio := { s.gpio with uartRx := t } }).setF F.GPIO_UART_STAT_EMPTY 0)

/-- UART_DATA_READ (R401). -/
def execUartDataRead (s : State) : Host.Outcome State Fault Refusal := .next (readUart s).2

/-- The pin that the enabled UART receives on is not parked (R394, R395). -/
def State.uartHears (s : State) : Bool :=
  s.bit F.GPIO_FUNC_UART_EN && s.gpioRuns && !s.gpio.parked.getLsbD (if s.bit F.GPIO_FUNC_UART_ALT then 11 else 1)

/-- UART_RX (R401): a byte is received; while the queue is full it is discarded with OVERRUN. -/
def execUartRx (b : BitVec 8) (frameErr : Bool) (s : State) : Host.Outcome State Fault Refusal :=
  .next (
    if ¬ s.uartHears then s
    else
      let s := if frameErr then s.setF F.GPIO_UART_STAT_FRAME_ERR 1 else s
      if 16 ≤ s.gpio.uartRx.length then s.setF F.GPIO_UART_STAT_OVERRUN 1
      else showUart { s with gpio := { s.gpio with uartRx := s.gpio.uartRx ++ [b] } })

/-- UART_TX (R401): a byte has been sent and its place is free. -/
def execUartTx (s : State) : Host.Outcome State Fault Refusal :=
  .next (
    if ¬ s.bit F.GPIO_FUNC_UART_EN ∨ ¬ s.gpioRuns then s
    else showUart { s with gpio := { s.gpio with uartTx := s.gpio.uartTx.tail } })

/-- A write of GPIO.SPI_DATA (R401): a byte is sent; while BUSY is 1 the write is ignored and counted. -/
def writeSpi (s : State) (b : BitVec 8) (holdCs : Bool) (w : Writer) : State :=
  if ¬ s.ownsPin w 2 ∨ s.bit F.GPIO_SPI_DATA_BUSY then s.gpioDenied 1
  else
    ({ s with gpio := { s.gpio with spi := some b } }.setF F.GPIO_SPI_DATA_HOLD_CS holdCs.toNat).setF F.GPIO_SPI_DATA_BUSY 1

/-- SPI_DATA (R401). -/
def execSpiData (b : BitVec 8) (holdCs : Bool) (by_ : Writer) (s : State) : Host.Outcome State Fault Refusal :=
  .next (writeSpi s b holdCs by_)

/-- SPI_BYTE_END (R401): the byte received is stored; MISO reads 0 where the controller has not the pin (R394). -/
def execSpiByteEnd (rx : BitVec 8) (s : State) : Host.Outcome State Fault Refusal :=
  .next (
    if s.gpio.spi = none ∨ ¬ s.gpioRuns then s
    else
      let heard := s.bit F.GPIO_FUNC_SPI_EN && !s.gpio.parked.getLsbD 4
      let s := { s with gpio := { s.gpio with spi := none } }
      (s.setF F.GPIO_SPI_DATA_BYTE (if heard then rx.toNat else 0)).setF F.GPIO_SPI_DATA_BUSY 0)

/-- TACH_EDGE (R401): a falling edge on the TACH pin of an enabled fan, `us` after the one before. -/
def execTachEdge (f : Bool) (us : BitVec 16) (s : State) : Host.Outcome State Fault Refusal :=
  let pin := if f then 9 else 7
  .next (
    if pinFunction (s.f ⟨R.GPIO_FUNC, 0, 8⟩) pin ≠ (if f then 4 else 3) ∨ s.gpio.parked.getLsbD pin then s
    else
      let s := { s with gpio := { s.gpio with tach := SMap.set 0 s.gpio.tach f.toNat 0 } }
      (seePad s pin false).setF (F.GPIO_FAN_TACH_US f.toNat) us.toNat)

/-- `us` microseconds without an edge: after 65,535 GPIO.FAN_TACH reads that (R401). -/
def tachTick (us : Nat) (s : State) (f : Nat) : State :=
  let t := min 65535 ((SMap.get 0 s.gpio.tach f).toNat + us)
  let s := { s with gpio := { s.gpio with tach := SMap.set 0 s.gpio.tach f (BitVec.ofNat 16 t) } }
  if t = 65535 then s.setF (F.GPIO_FAN_TACH_US f) t else s

/-- The edge is one that GPIO.CAP_CFG.EDGE selects: 3 acts as rising. -/
def capTakes (sel : Nat) (falling : Bool) : Bool := sel == 2 || falling == (sel == 1)

/-- CAPTURE (R401): an edge at the capture input records the meridian tick count. -/
def execCapture (falling : Bool) (s : State) : Host.Outcome State Fault Refusal :=
  let pin := if s.bit F.GPIO_FUNC_CAP_SEL then 7 else 10
  .next (
    if pinFunction (s.f ⟨R.GPIO_FUNC, 0, 8⟩) pin ≠ 5 ∨ s.gpio.parked.getLsbD pin ∨ ¬ s.gpioRuns ∨
        ¬ capTakes (s.f F.GPIO_CAP_CFG_EDGE) falling then s
    else
      let s := if s.bit F.GPIO_CAP_CFG_VALID then s.setF F.GPIO_CAP_CFG_OVERRUN 1 else s
      let s := seePad { s with gpio := { s.gpio with capture := s.mer.tick } } pin (!falling)
      (s.setReg R.GPIO_CAP_LO (s.mer.tick.truncate 32)).setF F.GPIO_CAP_CFG_VALID 1)

/-- CAPTURE_READ (R401): a read of GPIO.CAP_LO latches CAP_HI and clears VALID. -/
def readCapture (s : State) : State :=
  (s.setReg R.GPIO_CAP_HI (BitVec.ofNat 32 (s.gpio.capture.toNat / 2 ^ 32))).setF F.GPIO_CAP_CFG_VALID 0

def execCaptureRead (s : State) : Host.Outcome State Fault Refusal := .next (readCapture s)

end Sys2Proof.Machine
end

