-- ==== Sys2Proof/Machine/Semaphores.lean ====
section
/-! DEFINITION. The 32 hub semaphores (R373–R378). -/

namespace Sys2Proof.Machine

/-- KIND of an owner (R373). -/
def kindOf : Requester → Nat
  | .network _ => 1
  | .i3c => 2
  | .helm => 3
  | .debug => 4

/-- What SEM.HOLDER shows of an owner (R373, R379): NODE for the network, and KIND. -/
def holderOf (who : Requester) : Word :=
  match who with
  | .network n => faultKey [(n.toNat, 24), (kindOf who, 3)]
  | _ => faultKey [(0, 24), (kindOf who, 3)]

/-- The requester holds semaphore `n`. -/
def State.ownsSem (s : State) (who : Requester) (n : Nat) : Bool := decide (s.reg (R.SEM_HOLDER n) = holderOf who)

/-- Semaphore `n` was broken since its last successful take. -/
def State.semBroken (s : State) (n : Nat) : Bool := (s.reg R.SEM_STATUS).getLsbD n

/-- A take of semaphore `n` (R374): SEM.TAKE as the read returns it, and the state after. -/
def takeSem (s : State) (who : Requester) (n : Nat) : Word × State :=
  let broken := if s.semBroken n then 2 else 0
  if (List.range 32).any (fun m => decide (n < m) && s.ownsSem who m) then
    (BitVec.ofNat 32 (4 + broken), s.bump F.SEM_COUNTS_ORDER 1)
  else if s.f (F.SEM_HOLDER_KIND n) = 0 then
    let s := (s.setReg (R.SEM_HOLDER n) (holderOf who)).setReg (R.SEM_HOLD_TIME n) 0
    (BitVec.ofNat 32 (1 + broken), s.setReg R.SEM_STATUS (setBit (s.reg R.SEM_STATUS) n false))
  else if s.ownsSem who n then (1, s)
  else (BitVec.ofNat 32 broken, s.bump F.SEM_COUNTS2_CONTENDED 1)

/-- TAKE (R374): a read of SEM.TAKE. -/
def execTake (n : SemNo) (who : Requester) (s : State) : Host.Outcome State Fault Refusal := .next (takeSem s who n.toNat).2

/-- A write of 1 to SEM.RELEASE.GO (R375). -/
def releaseSem (s : State) (who : Requester) (n : Nat) : State :=
  if s.ownsSem who n then (s.setReg (R.SEM_HOLDER n) 0).setReg (R.SEM_HOLD_TIME n) 0
  else s.bump F.SEM_COUNTS2_FOREIGN 1

/-- SEM_RELEASE (R375). -/
def execSemRelease (n : SemNo) (who : Requester) (s : State) : Host.Outcome State Fault Refusal := .next (releaseSem s who n.toNat)

/-- The core that holds a semaphore is halted, or stopped by a rewind: its hold timer is frozen (R377). -/
def State.semFrozen (s : State) (n : Nat) : Bool :=
  let o : Node := BitVec.ofNat 24 (s.f (F.SEM_HOLDER_NODE n))
  let rg := nodeRgn o
  decide (s.f (F.SEM_HOLDER_KIND n) = 1) && decide (nodeCoord o = s.f F.FAB_ID_COORD) &&
    match nodeUnit o with
    | 0x10 => s.rbit rg (F.EAS_STATUS_HALTED 0) || (s.eas rg 0).stopFrom.isSome
    | 0x11 => s.rbit rg (F.EAS_STATUS_HALTED 1) || (s.eas rg 1).stopFrom.isSome
    | 0x12 => s.rbit rg (F.EAS_STATUS_HALTED 2) || (s.eas rg 2).stopFrom.isSome
    | _ => false

/-- HOLD_LIMIT (R376): the hold timer of semaphore `n` has reached the limit. -/
def execHoldLimit (n : SemNo) (s : State) : Host.Outcome State Fault Refusal :=
  let i := n.toNat
  let limit := s.f F.SEM_CTRL_HOLD_LIMIT
  .next (if s.f (F.SEM_HOLDER_KIND i) = 0 ∨ limit = 0 ∨ (s.reg (R.SEM_HOLD_TIME i)).toNat < limit then s else breakSem s i)

end Sys2Proof.Machine
end

