-- ==== Sys2Proof/Machine/RegView.lean ====
section
/-! DEFINITION. What registers show of state that does not live in their words: the fields that the register tables mark live, and
windows (R62, R63, R91, R108, R142, R143, R188, R217, R242, R271, R306, R323, R362, R379, R402, R403, R425, R448, R470, R471, R473). -/

namespace Sys2Proof.Machine

/-- A word of fields (value, width), the first from bit 0 upward. -/
def wordOf (fs : List (Nat × Nat)) : Word := BitVec.ofNat 32 (packKey fs)

/-- Bits by number, bit i as `p i` says. -/
def bitWord (n : Nat) (p : Nat → Bool) : Word := wordOf ((List.range n).map (fun i => ((p i).toNat, 1)))

/-! ### What runs (R369) -/

/-- Quadrant `q` runs: its clocks run, it is not FAULT, and no reset of it is in progress. -/
def State.quadAlive (s : State) (q : Nat) : Bool := s.quadClocked q && !s.quadResetting q && !s.packageResetting

/-- Region `rg` runs: its quadrant runs, it is not GATED, and no reset of it is in progress. -/
def State.alive (s : State) (rg : Rg) : Bool :=
  s.quadAlive (quadOf rg) && decide (s.rf rg F.RGN_STATUS_CFG ≠ 3) && !s.rbit rg F.RGN_STATUS_RESET_BUSY

/-! ### ALERT_N (R391, R442, R445, R446, R469) -/

/-- The sources that hold ALERT_N. -/
def State.alertSrc (s : State) : Nat :=
  let ports := List.range 6
  let quads := List.range 4
  packKey ((
    [s.bit F.SEM_ALERT_ALERT,
     allRegions.any (fun rg => s.rbit rg F.CNV_STATUS_FIGHT && s.rbit rg F.CNV_CTRL_ALERT_EN),
     quads.any (fun q => s.rbit (quadHome q) F.CNV_BANK_VMISMATCH),
     ports.any (fun p => s.bit (F.LNK_STATUS_SPARE_EVT p) || s.bit (F.LNK_STATUS_NARROW_EVT p) || s.bit (F.LNK_STATUS_DOWN_EVT p)),
     quads.any (fun q => (List.range 3).any (fun l => s.rbit (quadHome q) (F.NOC_D2D_STATUS_DOWN_EVT l))),
     s.bit F.SCR_CE_CNV_UE, false, false,
     s.bit F.THM_STATUS_TRIP,
     quads.any (fun q => s.bit (F.PWR_QSTAT_VQ_FAULT q)),
     s.bit F.PWR_STATUS_AGE_ALERT,
     s.bit F.FLT_STATUS_LASTING, s.bit F.FLT_STATUS_ISO, s.bit F.FLT_STATUS_BIST_FAIL, s.bit F.FLT_STATUS_REPAIR_FULL, false] :
      List Bool).map (fun b => (b.toNat, 1)))

/-! ### Hub blocks -/

/-- The package pulls DONE low: outside DONE_WAIT and USER, in reset, in test mode, or shut down (R208, R420, R443, R447); not while VFL is
below its range (R497). -/
def State.donePulled (s : State) : Bool :=
  !s.pwr.vflOut &&
  (decide (s.cfgState ≠ 3) && decide (s.cfgState ≠ 4) || decide (s.pwr.boot ≠ .up) || s.dbg.testing.isSome ||
    decide (s.pwrState = 5))

/-- CFG.GSLOT (R213, R216, R217). -/
def gslotView (s : State) (n : Nat) : Word :=
  match s.activeCopy n with
  | none => 0
  | some c =>
    let x := s.copy n c
    wordOf [(1, 1), (c.toNat, 1), ((s.copy n (!c)).valid.toNat, 1), ((decide (x.wrapped ≠ 0)).toNat, 1), (x.seq.toNat, 12),
      (x.hours.toNat / 24, 10)]

/-- A key slot holds a key. -/
def State.keyLoaded (s : State) (n : Nat) : Bool := decide (SMap.get 0 s.keys n ≠ 0)

/-- The retouch point (R223, R221): that of the endpoint's tokens, or the end of what is staged without a gap. -/
def State.retouchPoint (s : State) : Nat :=
  if s.rtc.endpoint.isSome then s.load.fifo
  else if s.load.kind = .retouch then s.loadPoint else 0

/-- The FLT.REPAIR view of the stored repair map (R468, R470). -/
def repairView (s : State) : Word :=
  let n := s.flash.repairs.length
  wordOf [(n, 13), ((decide (4096 ≤ n)).toNat, 1), (0, 2), (s.flash.seq.toNat, 16)]

/-- Entry FLT.REPAIR_PTR of the map. -/
def State.repairShown (s : State) : BitVec 64 := s.flash.repairs.getD (s.f F.FLT_REPAIR_PTR_INDEX) 0

/-- The entry of the active or of the shadow receive map that LNK.MAP_PTR selects (R291, R306). -/
def mapView (s : State) (p : Nat) (shadow : Bool) : Word :=
  let x := s.port p
  SMap.get 0 (if shadow then x.shadow else x.map) (s.f (F.LNK_MAP_PTR_INDEX p))

/-- SEM.HOLDER with FROZEN (R377, R379). -/
def holderView (s : State) (n : Nat) : Word := (s.reg (R.SEM_HOLDER n)) ||| ((ofBool 32 (s.semFrozen n)) <<< 27)

/-- An I3C access is on the helm bus. -/
def State.i3cBusy (s : State) : Bool := s.bus.any (fun b => decide (b.who = .i3c))

/-- GPIO.FUNC_STAT (R395, R403): 0 GPIO, 1 peripheral, 2 PARKED, by pin; CONFLICT is the register's own. -/
def funcStat (s : State) : Word :=
  let st (i : Nat) : Nat := if s.gpio.parked.getLsbD i then 2 else (s.gpio.periph.getLsbD i).toNat
  wordOf ((List.range 12).map (fun i => (st i, 2))) ||| (s.reg R.GPIO_FUNC_STAT &&& 0x1000000)

/-- DBG.STATUS.BUSY (R412, R418). -/
def State.dbgBusy (s : State) : Bool := s.bus.any (fun b => decide (b.who = .debug)) || s.dbg.fed.isSome

/-- DBG.STATUS as every path reads it (R425). -/
def dbgStatus (s : State) : Word :=
  s.reg R.DBG_STATUS ||| wordOf [(0, 3), (s.dbgBusy.toNat, 1), ((decide (s.pwr.kept ≠ 0)).toNat, 1), (0, 2), (s.fuses.testDisable.toNat, 1)]

/-- The word of the hub register at `a`. -/
def hubView (s : State) (a : Nat) : Word :=
  let w := s.reg a
  match a / 0x1000 with
  | 0x00 => if a = R.HUB_ID then 0xC0001 else w
  | 0x10 =>
    if a = R.HIF_PID_LO then wordOf [(1, 12), (s.f F.HIF_PINS_ADDR_SEL, 4), (0xC0, 16)]
    else if a = R.HIF_ACC_STAT then w ||| (ofBool 32 s.i3cBusy <<< 8)
    else if a = R.HIF_ALERT_SRC then BitVec.ofNat 32 s.alertSrc
    else w
  | 0x20 => if a = R.GPIO_FUNC_STAT then funcStat s else w
  | 0x30 =>
    if a = R.PWR_HOURS then s.flash.hours
    else if R.PWR_AGE 0 ≤ a ∧ a ≤ R.PWR_AGE 3 then
      let slow := F.PWR_AGE_SLOW 0 |>.of w
      wordOf [(slow, 10), ((decide (60 ≤ slow)).toNat, 1), ((decide (80 ≤ slow)).toNat, 1)]
    else w
  | 0x40 =>
    if a = R.FLT_STATUS then w ||| (ofBool 32 s.flash.skip.isSome <<< 7)
    else if a = R.FLT_REPAIR then repairView s
    else if a = R.FLT_REPAIR_LO then s.repairShown.truncate 32
    else if a = R.FLT_REPAIR_HI then BitVec.ofNat 32 (s.repairShown.toNat / 2 ^ 32)
    else w
  | 0x4C | 0x4D | 0x4E | 0x4F => SMap.get 0 s.taints (4096 * s.f F.TNT_CTRL_WIN_SEL + (a - R.TNT_LOG 0) / 4)
  | 0x50 =>
    if a = R.MER_PERIOD then merPeriod s
    else if a = R.MER_STATUS then F.MER_STATUS_SRC_PORT.put w s.merPort
    else if a = R.MER_TICK_LO then s.mer.tick.truncate 32
    else w
  | 0x60 =>
    if a = R.CFG_STATUS then w ||| (ofBool 32 (decide (s.fuses.programmed = 0)) <<< 7)
    else if a = R.CFG_POINT_LO then BitVec.ofNat 32 s.loadPoint
    else if a = R.CFG_POINT_HI then BitVec.ofNat 32 (s.loadPoint / 2 ^ 32)
    else if a = R.CFG_GROUND_STAT then w ||| (ofBool 32 (s.groundBusy || (s.fullLoad && s.load.path == 1)) <<< 2)
    else if R.CFG_GSLOT 0 ≤ a ∧ a ≤ R.CFG_GSLOT 3 then gslotView s ((a - R.CFG_GSLOT 0) / 4)
    else if a = R.CFG_PKEY_STAT then w ||| bitWord 8 s.keyLoaded
    else if R.CFG_PKEY_ID 0 ≤ a ∧ a ≤ R.CFG_PKEY_ID 7 then
      BitVec.ofNat 32 ((SMap.get 0 s.keys ((a - R.CFG_PKEY_ID 0) / 4)).toNat / 2 ^ 256)
    else if R.CFG_PKEY_WRAP 0 ≤ a ∧ a ≤ R.CFG_PKEY_WRAP 11 then 0
    else if a = R.CFG_SKEY then w ||| wordOf [(s.fuses.programmed.toNat, 4), (s.fuses.revoked.toNat, 4)]
    else if R.CFG_SKEY_HASH 0 ≤ a ∧ a ≤ R.CFG_SKEY_HASH 11 then 0
    else w
  | 0x61 =>
    if a = R.RTC_POINT then BitVec.ofNat 32 (s.retouchPoint % 2 ^ 23)
    else if a = R.RTC_RB_WORD then BitVec.ofNat 32 (Mem.read s.sram (readbackBase + 4 * s.f F.RTC_RB_PTR_WORD) 4)
    else w
  | 0x62 => if a = R.SCR_STATUS then w ||| ofBool 32 s.walkersPaused else w
  | 0x70 | 0x71 | 0x72 | 0x73 | 0x74 | 0x75 =>
    let p := a / 0x1000 - 0x70
    if a = R.LNK_MAP_DATA p then mapView s p false
    else if a = R.LNK_MAP_SHADOW p then mapView s p true
    else w
  | 0x80 =>
    if a = R.FAB_UID_LO then Config.uid.truncate 32
    else if a = R.FAB_UID_HI then BitVec.ofNat 32 (Config.uid.toNat / 2 ^ 32)
    else w
  | 0x90 =>
    if a = R.SEM_ALIVE_LO then bitWord 32 (fun i => s.alive (BitVec.ofNat 6 i))
    else if a = R.SEM_ALIVE_HI then bitWord 32 (fun i => s.alive (BitVec.ofNat 6 (32 + i)))
    else if a = R.SEM_ALIVE_Q then bitWord 4 s.quadAlive
    else if a < R.SEM_CTRL ∧ a % 16 = 8 then holderView s ((a - R.SEM_HOLDER 0) / 16)
    else w
  | 0xA0 =>
    if a = R.DBG_ID then 0x100C0001
    else if a = R.DBG_STATUS then dbgStatus s
    else 0
  | _ => w

/-! ### Region windows -/

/-- The first cell of a region that acts as OFF under R155. -/
def chainFault (s : State) (rg : Rg) : Option Nat := (List.range 1024).find? (fun n => chainOff s rg (BitVec.ofNat 10 n))

/-- MERGE log slots that a logged cell names (R153). -/
def loggedSlots (s : State) (rg : Rg) : Word :=
  let cells := (List.range 1024).filter (fun n => mergeLogged s rg (BitVec.ofNat 10 n))
  bitWord 16 (fun i => cells.any (fun n => decide (cfgField (s.cellCfg rg (BitVec.ofNat 10 n)) 205 4 = i)))

/-- Junction `n` holds an outbound word that is not acknowledged (R170). -/
def junctionOut (s : State) (rg : Rg) (n : Nat) : Bool :=
  (match (s.cl rg (BitVec.ofNat 4 (n / 4))).lead with | .jpost j _ _ => decide (j.toNat = n % 4) | _ => false) || (List.range 4).any (fun k => (SMap.get none (s.rgn rg).lanes (4 * n + k)).isSome)

/-- An inbound token of junction `n` waits for entry 1008 + j to empty (R171). -/
def junctionIn (s : State) (rg : Rg) (n : Nat) : Bool :=
  let (en, _, inw) := s.endpoint rg n
  let k := s.cl rg (BitVec.ofNat 4 (n / 4))
  en && k.portFull.getLsbD (n % 4) && (laneTokens s rg n inw).any Option.isSome

/-- EN, OUTW and INW of junction `n`. -/
def jepView (s : State) (rg : Rg) (n : Nat) : Word :=
  let (en, outw, inw) := s.endpoint rg n
  wordOf [(en.toNat, 1), (outw, 2), (inw, 2)]

/-- The canvas registers' live words. -/
def cnvView (s : State) (rg : Rg) (a : Nat) (w : Word) : Word :=
  if a = R.CNV_STATUS then
    w ||| wordOf [((decide ((s.rgn rg).canvas ≠ [])).toNat, 1), ((chainFault s rg).isSome.toNat, 1), (0, 2),
      ((decide (numOf rg < 4) && (ioParked s rg false || ioParked s rg true)).toNat, 1)]
  else if a = R.CNV_CHAIN_AT then (match chainFault s rg with | some n => wordOf [(n % 32, 5), (n / 32, 5)] | none => 0)
  else if a = R.CNV_MLOG then w ||| loggedSlots s rg
  else if a = R.CNV_JOUT_LO then bitWord 32 (junctionOut s rg)
  else if a = R.CNV_JOUT_HI then bitWord 32 (fun i => junctionOut s rg (32 + i))
  else if a = R.CNV_JIN_LO then bitWord 32 (junctionIn s rg)
  else if a = R.CNV_JIN_HI then bitWord 32 (fun i => junctionIn s rg (32 + i))
  else if R.CNV_JEP 0 ≤ a ∧ a ≤ R.CNV_JEP 63 then jepView s rg ((a - R.CNV_JEP 0) / 4)
  else if 4 ≤ numOf rg then w
  else if R.CNV_FIO_CFG 0 ≤ a ∧ a ≤ R.CNV_FIO_CFG 7 ∧ a % 8 = 0 then BitVec.ofNat 32 (s.ioCfg rg ((a - R.CNV_FIO_CFG 0) / 8))
  else if a = R.CNV_UIO_CFG 0 then BitVec.ofNat 32 (s.ioCfg rg 8)
  else if a = R.CNV_UIO_CFG 1 then BitVec.ofNat 32 (s.ioCfg rg 9)
  else w

/-- FIX.STATUS with the job's number and hold cause, and whether its boundaries are reckoned (R52, R63). -/
def fixStatus (s : State) (rg : Rg) (w : Word) : Word :=
  match s.jobOf rg with
  | none => w
  | some j =>
    w ||| wordOf [(0, 3), (j.toNat, 6), (s.f (F.MER_JOB_CTRL_HOLD_CAUSE j.toNat), 3),
      ((decide (s.merState = 4) || decide (s.merState = 5)).toNat, 1)]

/-- CLU.PORT_FULL: entries 992–1019, the exchange-in bits on the side that the current cycle reads (R91). -/
def portFullView (r : Region) (c : Nat) : Word :=
  let k := r.cl (BitVec.ofNat 4 c)
  bitWord 28 (fun i => k.full r.executing (992 + i))

/-- The word of the region register at window offset `a`. -/
def rgnView (s : State) (rg : Rg) (a : Nat) : Word :=
  let r := s.rgn rg
  let w := r.reg a
  match a / 0x1000 with
  | 0x1 => if a = R.FIX_STATUS then fixStatus s rg w else w
  | 0x2 => if a = R.DMEM_STATUS then w ||| (ofBool 32 r.replaying <<< 9) else w
  | 0x3 => if a = R.RWD_STATUS then F.RWD_STATUS_MODE.put w r.mode else w
  | 0x4 => if a % 256 = 0x24 then portFullView r ((a - 0x4000) / 256) else w
  | 0xC => cnvView s rg a w
  | 0xD => if a = R.NOC_STATUS then w ||| ofBool 32 r.absorbing else w
  | 0xE =>
    let k := (a - 0xE000) / 256
    if h : k < 3 then
      let e := r.eas ⟨k, h⟩
      if a = R.EAS_STATUS k then w ||| (BitVec.ofNat 32 e.pc.toNat <<< 16)
      else if a = R.EAS_MBOUT k then (match e.mbout with | m :: _ => m.word | [] => 0)
      else w
    else w
  | _ => w

end Sys2Proof.Machine
end

