-- ==== Sys2Proof/Machine/RegRead.lean ====
section
/-! DEFINITION. Reads of registers by package address (R5, R9, R374, R413, R472–R478): classes of addresses, what a read returns and
what it changes. -/

namespace Sys2Proof.Machine

/-! ### Addresses (R472–R477) -/

/-- What an address names: a hub block, an offset of a region window, or nothing. -/
inductive Place where
  | hub (a : Nat) | window (rg : Rg) (a : Nat) | unmapped
  deriving DecidableEq, Repr

/-- The address lies in a range of R472. -/
def hubMapped (a : Nat) : Bool :=
  a / 0x1000 ∈ [0x00, 0x10, 0x20, 0x30, 0x50, 0x60, 0x61, 0x62, 0x63, 0x64, 0x70, 0x71, 0x72, 0x73, 0x74, 0x75, 0x80, 0x90, 0xA0] ||
    decide (a / 0x10000 = 4)

/-- The place of a package address (R472, R474, R476). -/
def placeOf (a : Nat) : Place :=
  if hubMapped a then .hub a
  else if 0x10000000 ≤ a ∧ a < 0x20000000 then .window (BitVec.ofNat 6 ((a - 0x10000000) / 0x400000)) (a % 0x400000)
  else .unmapped

/-- Registers of a window that exist only in some regions are reserved in the others (R188, R271, R474). -/
def existsIn (rg : Rg) (a : Nat) : Bool :=
  if 0xC200 ≤ a ∧ a < 0xC258 then decide (numOf rg < 4)
  else if a = R.CNV_BANK ∨ (0xD100 ≤ a ∧ a < 0xD200) then decide (numOf rg = 0)
  else true

/-- The row of a hub register. -/
def hubRow (a : Nat) : Option RegRow := hubRows.find? (fun r => r.holds a)

/-- The row of a register of a window. -/
def rgnRow (rg : Rg) (a : Nat) : Option RegRow := if existsIn rg a then rgnRows.find? (fun r => r.holds a) else none

/-- The helm bus completes accesses to the window of `rg` (R369, R478). During the drain that precedes a region reset the registers
still answer with the old values. -/
def State.busReaches (s : State) (rg : Rg) : Bool := s.quadAlive (quadOf rg) && decide (s.rf rg F.RGN_STATUS_CFG ≠ 3)

/-! ### Paths -/

/-- The requester that a path is, as a semaphore's owner (R373). -/
def ownerOf : Writer → Requester
  | .i3c => .i3c
  | .oxdon n => .network n
  | .debug => .debug
  | .helm => .helm

/-- How a read is made: by whom, whether it is quiet (R413), and what the check of a memory or queue word finds. -/
structure ReadAs where
  who : Writer
  quiet : Bool := false
  ecc : Ecc := .clean

/-- What a read returns: the word, whether it is sound (R111), and the state after it. -/
structure ReadBack where
  word : Word
  sound : Bool := true
  st : State

/-! ### Reads -/

/-- A quiet read of SEM.TAKE returns what a take would find (R374). -/
def readTake (s : State) (m : ReadAs) (n : Nat) : ReadBack :=
  let (w, t) := takeSem s (ownerOf m.who) n
  ⟨w, true, if m.quiet then s else t⟩

/-- MER.TICK_LO latches MER.TICK_HI (R62); a quiet read latches a private copy (R413). -/
def readTick (s : State) (m : ReadAs) : ReadBack :=
  ⟨s.mer.tick.truncate 32, true,
    if m.quiet then { s with dbg := { s.dbg with tickHi := BitVec.ofNat 16 (s.mer.tick.toNat / 2 ^ 32) } } else latchTick s⟩

/-- GPIO.CAP_LO latches GPIO.CAP_HI (R401); a quiet read latches a private copy (R413). -/
def readCap (s : State) (m : ReadAs) : ReadBack :=
  ⟨s.reg R.GPIO_CAP_LO, true,
    if m.quiet then { s with dbg := { s.dbg with capHi := BitVec.ofNat 16 (s.gpio.capture.toNat / 2 ^ 32) } } else readCapture s⟩

/-- GPIO.IN (R398): the board decides the level at a pad that is not parked, so that it is free; a parked pin reads its keeper's. -/
def readPads (s : State) : ReadBack :=
  let (v, s) := s.draw 12
  let pads := (s.gpio.pads &&& s.gpio.parked) ||| (v &&& ~~~ s.gpio.parked)
  ⟨pads.zeroExtend 32, true, { s with gpio := { s.gpio with pads := pads } }⟩

/-- A pin that the package pulls low reads 0; released, its level is the board's (R208, R391). -/
def readPin (s : State) (w : Word) (i : Nat) (pulled : Bool) : ReadBack :=
  if pulled then ⟨w, true, s⟩
  else
    let (v, s) := s.draw 1
    ⟨w ||| (v.zeroExtend 32 <<< i), true, s⟩

/-- RC bits of a register are cleared by a read that is not quiet (R5, R9). -/
def clearHub (s : State) (a : Nat) (rc : Nat) : State :=
  if rc = 0 then s else s.setReg a (s.reg a &&& ~~~ BitVec.ofNat 32 rc)

/-- The lowest 16 of the bits that are set in `w`. -/
def lowest16 (w : Word) : Word :=
  ((List.range 32).foldl (fun (x : Word × Nat) i => if w.getLsbD i ∧ x.2 < 16 then (setBit x.1 i true, x.2 + 1) else x) (0, 0)).1

/-- A read of the hub register at `a`. While the whole package is under test, FLT.TESTING shows at most 16 regions (R460), which
ones being free. -/
def readHub (s : State) (m : ReadAs) (a : Nat) : ReadBack :=
  let w := hubView s a
  if a / 0x1000 = 0x90 ∧ a < R.SEM_CTRL ∧ a % 16 = 0 then readTake s m ((a - R.SEM_TAKE 0) / 16)
  else if a = R.MER_TICK_LO then readTick s m
  else if a = R.MER_TICK_HI ∧ m.quiet then ⟨s.dbg.tickHi.zeroExtend 32, true, s⟩
  else if a = R.GPIO_CAP_LO then readCap s m
  else if a = R.GPIO_CAP_HI ∧ m.quiet then ⟨s.dbg.capHi.zeroExtend 32, true, s⟩
  else if a = R.GPIO_UART_DATA then
    let (w, t) := readUart s
    let t := if m.ecc = .clean ∨ s.gpio.uartRx = [] then t else t.noteFault 24 4 (faultKey [(0, 4), (3, 2)])
    ⟨w, true, if m.quiet then s else t⟩
  else if a = R.GPIO_IN then readPads s
  else if (a = R.FLT_TESTING_LO ∨ a = R.FLT_TESTING_HI) ∧ s.packageTesting then
    let (v, s) := s.draw 32
    ⟨lowest16 v, true, s⟩
  else if a = R.CFG_STATUS then readPin s w 5 s.donePulled
  else if a = R.HIF_ALERT_SRC then readPin s w 16 (decide (s.alertSrc ≠ 0))
  else if m.quiet then ⟨w, true, s⟩
  else
    let s := match hubRow a with | some r => clearHub s a r.rc | none => s
    ⟨w, true, if a = R.FLT_BIST_STAT then { s with bist := { s.bist with logged := 0 } } else s⟩

/-- RWD.DATA (R135): half `a` of ring word `a / 8`, low half first, read through the back port: a debug read as R119 says, any other as requester 3
in the grant that `ringGiven` has found. -/
def readRing (s : State) (m : ReadAs) (rg : Rg) (a : Nat) : ReadBack :=
  let word (t : State) (v : Option Entry) : ReadBack := ⟨BitVec.ofNat 32 ((v.getD 0).toNat / 2 ^ (32 * (a / 4 % 2))), v.isSome, t⟩
  match m.who with
  | .debug =>
    let s := if s.rf rg F.DMEM_STATUS_OWNER = 6 then s else s.bumpR rg F.DMEM_ARB_EVENTS_PREEMPT 1
    let (t, v) := backRead s rg 7 true (a / 8) m.ecc
    word t v
  | _ =>
    let (t, v) := backRead (askPort s rg 3).1 rg 3 true (a / 8) m.ecc
    word (t.onRgn rg Region.dropGrant) v

/-- Whether a read of offset `a` of the window gets the back port now, where it needs it (R119, R135); else the state in which it waits. -/
def ringGiven (s : State) (who : Writer) (rg : Rg) (a : Nat) : Option State :=
  if a < ringWindow then none
  else
    match who with
    | .debug => if s.rf rg F.DMEM_STATUS_OWNER = 6 ∨ s.rbit rg F.DMEM_ARB_PREEMPT_EN then none else some s
    | _ =>
      let (t, mine) := askPort s rg 3
      if mine then none else some t

/-- Limits of the stroke time in units of 0.01 ns at a VQ in mV, by rows of 50 mV from 600 mV (R86): the shortest, and the longest with the 8 % of
ageing. Between two rows they are the shortest of the row above and the longest of the row below. -/
def strokeLimits (vq : Nat) : Nat × Nat :=
  let row (i : Nat) : Nat × Nat := [(115, 240), (98, 195), (85, 160), (74, 138), (66, 120), (59, 106), (53, 95)].getD (min i 6) (53, 95)
  ((row ((vq - 600 + 49) / 50)).1, (row ((vq - 600) / 50)).2 * 108 / 100)

/-- The least and the greatest frequency in MHz of a core whose quadrant stands at VQ (R358): the period is the stroke time, and not below 1 ns. -/
def clkLimits (vq : Nat) : Nat × Nat :=
  let (lo, hi) := strokeLimits vq
  (100000 / max 100 hi, 100000 / max 100 lo)

/-- A read of offset `a` of the window of `rg`. -/
def readRgn (s : State) (m : ReadAs) (rg : Rg) (a : Nat) : ReadBack :=
  match rgnRow rg a with
  | none => ⟨0, true, s⟩
  | some row =>
    let w := rgnView s rg a
    if 0x200000 ≤ a then readRing s m rg (a - 0x200000)
    else if 0xE000 ≤ a ∧ a < 0xE300 then
      let k : CoreNo := ⟨(a - 0xE000) / 256 % 3, Nat.mod_lt _ (by decide)⟩
      if a = R.EAS_MBOUT k.val then
        if m.quiet then ⟨w, true, s⟩
        else
          let (w, t) := popMbout s rg k (m.ecc != .clean)
          ⟨w, true, t⟩
      else if a = R.EAS_CLK k.val then
        let (v, s) := s.draw 11
        let (lo, hi) := clkLimits (s.f (F.PWR_QSTAT_VQ (quadOf rg)))
        ⟨BitVec.ofNat 32 (lo + v.toNat % (hi - lo + 1)), true, s⟩
      else ⟨w, true, if m.quiet ∨ row.rc = 0 then s else s.onRgn rg (fun r => r.setReg a (r.reg a &&& ~~~ BitVec.ofNat 32 row.rc))⟩
    else ⟨w, true, if m.quiet ∨ row.rc = 0 then s else s.onRgn rg (fun r => r.setReg a (r.reg a &&& ~~~ BitVec.ofNat 32 row.rc))⟩

end Sys2Proof.Machine
end

