-- ==== Sys2Proof/Machine/RegWrite.lean ====
section
/-! DEFINITION. Writes of registers by package address (R5, R8, R197, R396, R468, R475): what a write stores, and what it does. -/

namespace Sys2Proof.Machine

/-- What a register holds after `v` is written over `old` (R5): RW bits take `v`, a 1 clears a W1C bit, the others stay. -/
def RegRow.written (r : RegRow) (old v : Word) : Word :=
  let rw : Word := BitVec.ofNat 32 r.rw
  let w1c : Word := BitVec.ofNat 32 r.w1c
  ((old &&& ~~~rw) ||| (v &&& rw)) &&& ~~~(v &&& w1c)

/-- The state after a command of a register, which always answers a next state. -/
def after (o : Host.Outcome State Fault Refusal) (s : State) : State :=
  match o with
  | .next t => t
  | _ => s

/-- `f` is done where bit `i` of the written word is 1. -/
def ifBit (v : Word) (i : Nat) (f : State → State) (s : State) : State := if v.getLsbD i then f s else s

/-- A hub register stores what its access codes allow. -/
def storeHub (s : State) (a : Nat) (v : Word) : State :=
  match hubRow a with
  | some r => s.setReg a (r.written (s.reg a) v)
  | none => s

/-- A register of a window stores what its access codes allow. -/
def storeRgn (s : State) (rg : Rg) (a : Nat) (v : Word) : State :=
  match rgnRow rg a with
  | some r => s.onRgn rg (fun x => x.setReg a (r.written (x.reg a) v))
  | none => s

/-! ### Hub blocks -/

/-- A register of a GPIO peripheral, written by the owner of its first listed pin (R394, R396). -/
def writePeriph (s : State) (a : Nat) (v : Word) (w : Writer) (pin : Nat) : State :=
  if s.ownsPin w pin then storeHub s a v else s.gpioDenied 1

/-- The GPIO block (R395–R401). -/
def writeGpio (s : State) (a : Nat) (v : Word) (w : Writer) : State :=
  if a = R.GPIO_FUNC then writeFunc s (bitsAt v 0 8) w
  else if a = R.GPIO_OUT_SET then writeOut s (bitsAt v 0 12) w true
  else if a = R.GPIO_OUT_CLR then writeOut s (bitsAt v 0 12) w false
  else if a = R.GPIO_DIR then writeDir s (bitsAt v 0 12) w
  else if R.GPIO_PIN 0 ≤ a ∧ a ≤ R.GPIO_PIN 11 then
    match w with
    | .i3c | .debug => storeHub s a v
    | _ => s
  else if a = R.GPIO_UART_DATA then writeUart s (bitsAt v 0 8) w
  else if a = R.GPIO_UART_CFG ∨ a = R.GPIO_UART_STAT then writePeriph s a v w 0
  else if a = R.GPIO_SPI_DATA then writeSpi s (bitsAt v 0 8) (v.getLsbD 8) w
  else if a = R.GPIO_SPI_CFG then writePeriph s a v w 2
  else if a = R.GPIO_FAN_CFG 0 then writePeriph s a v w 6
  else if a = R.GPIO_FAN_CFG 1 then writePeriph s a v w 8
  else if a = R.GPIO_CAP_CFG then writePeriph s a v w 10
  else storeHub s a v

/-- PWR.CMD and PWR.QCTRL (R434, R436, R438, R447). -/
def writePwr (s : State) (a : Nat) (v : Word) : State :=
  let s := storeHub s a v
  if a = R.PWR_CMD then
    ifBit v 5 (fun s => after (execShutdown s) s)
      (ifBit v 4 (fun s => after (execWake s) s) (ifBit v 3 (fun s => after (execEnterState (bitsAt v 0 3) s) s) s))
  else if R.PWR_QCTRL 0 ≤ a ∧ a ≤ R.PWR_QCTRL 3 ∧ v.getLsbD 3 then
    let q : Quad := BitVec.ofNat 2 ((a - R.PWR_QCTRL 0) / 4)
    match (bitsAt v 0 3 : BitVec 3).toNat with
    | 1 => after (execQuadReset q s) s
    | 2 => after (execQuadDoze q s) s
    | 3 => after (execQuadDormant q s) s
    | 4 => after (execQuadWake q s) s
    | _ => s
  else s

/-- The SCR block: with SCR.CTRL.MEM_EN at 0 the walkers drop their back-port requests (R115, R236). -/
def writeScr (s : State) (a : Nat) (v : Word) : State :=
  let s := storeHub s a v
  if a = R.SCR_CTRL ∧ ¬ s.bit F.SCR_CTRL_MEM_EN then foldS allRegions s (fun s rg => s.onRgn rg (fun r => r.dropRequest 5)) else s

/-- With FLT.CTRL.GATE_ISO at 1 the helm gates every isolated region (R27, R459). -/
def gateIsolated (s : State) : State :=
  if ¬ s.bit F.FLT_CTRL_GATE_ISO then s
  else foldS allRegions s (fun s rg => if s.rbit rg F.RGN_CTRL_ISOLATE ∧ s.rf rg F.RGN_STATUS_CFG ≠ 3 then gateRegion s rg else s)

/-- The FLT and TNT blocks (R456, R459, R463, R468). -/
def writeFlt (s : State) (a : Nat) (v : Word) (w : Writer) : State :=
  let s := storeHub s a v
  if a = R.FLT_BIST_CMD then
    ifBit v 7 (fun s => after (execBistAbort s) s)
      (ifBit v 6 (fun s => after (execBistGo (BitVec.ofNat 6 (16 * (v.toNat % 4) + v.toNat / 4 % 16)) s) s) s)
  else if a = R.FLT_REPAIR_CMD then ifBit v 0 (fun s => after (execRepairClear w (bitsAt v 24 8) s) s) s
  else if a = R.FLT_CTRL then gateIsolated s
  else if a = R.TNT_CTRL then after (execTaintClear (bitsAt v 4 4) s) s
  else s

/-- The MER block with its job table (R36, R49–R51). -/
def writeMer (s : State) (a : Nat) (v : Word) : State :=
  if a = R.MER_CTRL then
    let src := s.f F.MER_CTRL_SRC
    changeSrc (storeHub s a (F.MER_CTRL_SRC.put v src)) (v.toNat % 4)
  else
    let s := storeHub s a v
    if 0x50800 ≤ a ∧ a % 32 = 0xC then
      let j : Job := BitVec.ofNat 6 ((a - 0x50800) / 32)
      ifBit v 11 (fun s => after (execRearm j s) s)
        (ifBit v 1 (fun s => after (execResume j s) s) (ifBit v 0 (fun s => after (execHold j s) s) s))
    else s

/-- Registers that only the I3C target writes (R197). -/
def secretReg (a : Nat) : Bool :=
  a == R.CFG_SKEY_CMD || (decide (R.CFG_SKEY_HASH 0 ≤ a) && decide (a ≤ R.CFG_SKEY_HASH 11)) || a == R.CFG_PKEY_CMD ||
    a == R.CFG_PKEY_STAT || (decide (R.CFG_PKEY_ID 0 ≤ a) && decide (a ≤ R.CFG_PKEY_ID 7)) ||
    (decide (R.CFG_PKEY_WRAP 0 ≤ a) && decide (a ≤ R.CFG_PKEY_WRAP 11))

/-- The key registers (R197, R198). -/
def writeSecret (s : State) (a : Nat) (v : Word) (w : Writer) : State :=
  if R.CFG_PKEY_WRAP 0 ≤ a ∧ a ≤ R.CFG_PKEY_WRAP 11 ∨ R.CFG_SKEY_HASH 0 ≤ a ∧ a ≤ R.CFG_SKEY_HASH 11 then s.setReg a v
  else
    let s := storeHub s a v
    if ¬ v.getLsbD 8 then s
    else if a = R.CFG_PKEY_CMD then
      match (bitsAt v 4 2 : BitVec 2).toNat with
      | 1 => after (execUnwrap (bitsAt v 0 3) s) s
      | 2 => after (execKeyErase (bitsAt v 0 3) s) s
      | 3 => after (execKeyEraseAll s) s
      | _ => s
    else if a = R.CFG_SKEY_CMD then
      match (bitsAt v 2 2 : BitVec 2).toNat with
      | 1 => after (execProgram w (bitsAt v 0 2) (bitsAt v 24 8) s) s
      | 2 => after (execRevoke w (bitsAt v 0 2) (bitsAt v 24 8) s) s
      | _ => s
    else s

/-- The CFG and RTC blocks (R198, R200, R204, R211–R216, R230, R232). -/
def writeCfg (s : State) (a : Nat) (v : Word) (w : Writer) : State :=
  if secretReg a then (if w = .i3c then writeSecret s a v w else s)
  else if a = R.CFG_FIFO then after (execCfgFifo v s) s
  else if a = R.CFG_START_CMD then after (execStartCmd v s) s
  else
    let s := storeHub s a v
    if a = R.CFG_CTRL then doneReleased (ifBit v 0 (fun s => after (execAbort s) s) s)
    else if a = R.CFG_GROUND_CMD ∧ v.getLsbD 4 then
      match (bitsAt v 2 2 : BitVec 2).toNat with
      | 1 => after (execGroundLoad (bitsAt v 0 2) s) s
      | 2 => after (execGroundWrite (bitsAt v 0 2) s) s
      | 3 => after (execGroundErase (bitsAt v 0 2) s) s
      | _ => s
    else if a = R.RTC_CTRL then ifBit v 5 (fun s => after (execRtcAbort s) s) s
    else if a = R.RTC_RB_CMD then
      ifBit v 8 (fun s => after (execReadback (bitsAt v 0 2) (BitVec.ofNat 6 (16 * (v.toNat / 4 % 4) + v.toNat / 16 % 16)) s) s) s
    else s

/-- The LNK block of port `p` (R278, R291, R295, R298). -/
def writeLnk (s : State) (p : PortNo) (a : Nat) (v : Word) : State :=
  let n := p.val
  if a = R.LNK_CTRL n then
    let en := s.f (F.LNK_CTRL_EN n)
    let s := storeHub s a ((F.LNK_CTRL_EN n).put v en)
    ifBit v 1 (fun s => after (execLnkRetrain p s) s) (after (execLnkEn p (v.getLsbD 0) s) s)
  else if a = R.LNK_MAP_SHADOW n then
    s.onPort n (fun x => { x with shadow := SMap.set 0 x.shadow (s.f (F.LNK_MAP_PTR_INDEX n)) (v &&& 0x1FFFF) })
  else
    let s := storeHub s a v
    if a = R.LNK_SLOT_CMD n then
      ifBit v 0 (fun s => after (execSlotSwap p s) s) (ifBit v 1 (fun s => after (execSlotCopy p s) s) s)
    else s

/-- The FAB block (R311, R313, R321): once CONFLICT is cleared the package leaves SHAPE_ERR and may settle. -/
def writeFab (s : State) (a : Nat) (v : Word) : State :=
  let s := storeHub s a v
  if a = R.FAB_CTRL then
    ifBit v 2 (fun s => after (execFabricResetCmd s) s)
      (ifBit v 1 (fun s => after (execSweep s) s) (considerSelf s))
  else if s.f F.FAB_STATUS_SWEEP = 2 ∧ ¬ s.bit F.FAB_STATUS_CONFLICT then
    s.setF F.FAB_STATUS_SWEEP (if s.fab.lclass = 0 then 3 else 0)
  else s

/-- The SEM block (R375). -/
def writeSem (s : State) (a : Nat) (v : Word) (w : Writer) : State :=
  if a < R.SEM_CTRL ∧ a % 16 = 4 then ifBit v 0 (fun s => releaseSem s (ownerOf w) ((a - R.SEM_TAKE 0) / 16)) s
  else storeHub s a v

/-- An IBI whose class the host clears is no longer requested (R389). -/
def writeHif (s : State) (a : Nat) (v : Word) : State :=
  let s := storeHub s a v
  { s with i3c := { s.i3c with ibiDue := s.i3c.ibiDue &&& s.reg R.HIF_IBI_PEND } }

/-- A write of the hub register at `a`. -/
def writeHub (s : State) (a : Nat) (v : Word) (w : Writer) : State :=
  match a / 0x1000 with
  | 0x10 => writeHif s a v
  | 0x20 => writeGpio s a v w
  | 0x30 => writePwr s a v
  | 0x40 | 0x48 => writeFlt s a v w
  | 0x50 => writeMer s a v
  | 0x60 | 0x61 => writeCfg s a v w
  | 0x62 => writeScr s a v
  | 0x70 => writeLnk s 0 a v
  | 0x71 => writeLnk s 1 a v
  | 0x72 => writeLnk s 2 a v
  | 0x73 => writeLnk s 3 a v
  | 0x74 => writeLnk s 4 a v
  | 0x75 => writeLnk s 5 a v
  | 0x80 => writeFab s a v
  | 0x90 => writeSem s a v w
  | 0xA0 => s
  | _ => storeHub s a v

/-! ### Region windows -/

/-- The RWD block (R132, R134, R136, R138). SNAP_EVERY and JLOG, which belong to the schedule, change only while the fix engine is OFF, ARMED or
HELD (R92, R143). -/
def writeRwd (s : State) (rg : Rg) (a : Nat) (v : Word) : State :=
  let keeps := (s.rgn rg).inCycle
  if a = R.RWD_CTRL then
    let v := if keeps then F.RWD_CTRL_SNAP_EVERY.put v (s.rf rg F.RWD_CTRL_SNAP_EVERY) else v
    let was := s.rf rg F.RWD_CTRL_REC_EN
    after (execRecEn rg (v.getLsbD 16) (storeRgn s rg a (F.RWD_CTRL_REC_EN.put v was))) s
  else if keeps ∧ (a = R.RWD_JLOG_LO ∨ a = R.RWD_JLOG_HI) then s
  else
    let s := storeRgn s rg a v
    if a = R.RWD_CMD then
      ifBit v 2 (fun s => after (execReplayArm rg s) s)
        (ifBit v 1 (fun s => after (execRwdRelease rg s) s) (ifBit v 0 (fun s => after (execRewind rg [] s) s) s))
    else s

/-- The CNV block (R168, R177). Whether the clock of a pin runs when its delays are written is the board's. -/
def writeCnv (s : State) (rg : Rg) (a : Nat) (v : Word) : State :=
  if a = R.CNV_CTRL then ifBit v 0 (fun s => after (execFightClear rg s) s) (storeRgn s rg a v)
  else if R.CNV_FIO_DLY 0 ≤ a ∧ a ≤ R.CNV_FIO_DLY 7 ∧ a % 8 = 4 then
    let (c, s) := s.draw 1
    after (execFioDly rg (BitVec.ofNat 3 ((a - R.CNV_FIO_DLY 0) / 8)) (bitsAt v 0 8) (bitsAt v 8 8) (c.getLsbD 0) s) s
  else storeRgn s rg a v

/-- The NOC block (R247, R259). -/
def writeNoc (s : State) (rg : Rg) (a : Nat) (v : Word) : State :=
  let s := storeRgn s rg a v
  if a = R.NOC_OVR_CMD then
    ifBit v 0 (fun s => after (execOvrSwap rg s) s) (ifBit v 1 (fun s => after (execOvrCopy rg s) s) s)
  else if existsIn rg a ∧ 0xD100 ≤ a ∧ a < 0xD130 ∧ a % 16 = 8 then
    ifBit v 8 (fun s => trainD2d s (quadOf rg) ((a - 0xD100) / 16)) s
  else s

/-- The EAS block of core `k`, at offset `o` of it (R354–R360). -/
def writeEas (s : State) (rg : Rg) (k : CoreNo) (o : Nat) (v : Word) (w : Writer) : State :=
  match o with
  | 0x00 =>
    let s := s.setRf rg (F.EAS_CTRL_PTRAP k.val) (v.toNat / 4)
    let s := after (execHoldRst rg k (v.getLsbD 0) s) s
    let s := ifBit v 1 (fun s => after (execCoreReset rg k s) s) s
    ifBit v 4 (fun s => after (execMboutFlush rg k s) s) (ifBit v 3 (fun s => after (execMbinFlush rg k s) s) s)
  | 0x08 => after (execEasWdog rg k (bitsAt v 0 24) s) s
  | 0x1C => after (execMbinFirst rg k v false s) s
  | 0x20 => after (execMbinNext rg k v false s) s
  | _ =>
    if 0x40 ≤ o ∧ o < 0x80 then
      after (execPatchWrite rg k (BitVec.ofNat 3 ((o - 0x40) / 8)) (decide (o % 8 = 4)) v w s) s
    else storeRgn s rg (R.EAS_CTRL k.val + o) v

/-- A write of offset `a` of the window of `rg`. -/
def writeRgn (s : State) (rg : Rg) (a : Nat) (v : Word) (w : Writer) : State :=
  if a = R.RGN_CTRL then
    ifBit v 2 (fun s => after (execRelease rg s) s)
      (ifBit v 1 (fun s => after (execIsolate rg s) s)
        (ifBit v 0 (fun s => after (execRegionReset rg s) s) (storeRgn s rg a v)))
  else if a = R.FIX_CTRL then ifBit v 1 (fun s => after (execMinRestart rg s) s) (storeRgn s rg a v)
  else
    match a / 0x1000 with
    | 0x3 => writeRwd s rg a v
    | 0xC => writeCnv s rg a v
    | 0xD => writeNoc s rg a v
    | 0xE =>
      match (a - 0xE000) / 0x100 with
      | 0 => writeEas s rg 0 (a - 0xE000) v w
      | 1 => writeEas s rg 1 (a - 0xE100) v w
      | 2 => writeEas s rg 2 (a - 0xE200) v w
      | _ => s
    | _ => storeRgn s rg a v

/-! ### What a path is refused (R197, R396, R468) -/

/-- A write over Oxdon that its register refuses: it is answered ACCESS_DENIED. -/
def oxdonDenied (a : Nat) (v : Word) : Bool :=
  secretReg a || (decide (R.GPIO_PIN 0 ≤ a) && decide (a ≤ R.GPIO_PIN 11)) ||
    (a == R.FLT_REPAIR_CMD && v.getLsbD 0 && decide ((bitsAt v 24 8 : BitVec 8) = 0xC5))

/-- A write of the register at a package address (R5). An unmapped address touches nothing (R476). -/
def writePlace (s : State) (x : Place) (v : Word) (w : Writer) : State :=
  match x with
  | .hub a => writeHub s a v w
  | .window rg a => writeRgn s rg a v w
  | .unmapped => s

end Sys2Proof.Machine
end

