-- ==== Sys2Proof/Machine/Targets.lean ====
section
/-! DEFINITION. The units of a package as targets of accesses (R17, R80, R110, R111, R187, R329, R410): words read and written, for
network requests and for the debug port. -/

namespace Sys2Proof.Machine

/-! ### Palettes (R80, R410) -/

/-- The fix engine is OFF, ARMED or HELD: no stroke meets an access (R80). -/
def State.paletteOpen (s : State) (rg : Rg) : Bool := decide (s.rf rg F.FIX_STATUS_STATE ∈ [0, 1, 5])

/-- Entry `e` of a palette as it stands (R80, R81). -/
def readPalette (s : State) (rg : Rg) (c : Cl) (e : Nat) : Entry := (s.cl rg c).peek (s.rgn rg).executing e

/-- Entry `e` of a palette written, its full flag set, and the write logged (R80, R127, R410). -/
def writePalette (s : State) (rg : Rg) (c : Cl) (e source : Nat) (v : Entry) : State :=
  logInject (s.onCl rg c (fun k => k.poke (s.rgn rg).executing e v true)) rg c e source

/-! ### Easel memories (R329) -/

/-- The core is held in reset (R360), also while a rewind stops it there (R361). -/
def State.inReset (s : State) (rg : Rg) (k : CoreNo) : Bool :=
  decide (s.rf rg (F.EAS_STATUS_STATE k.val) = 0) || decide ((s.eas rg k).stopFrom = some 0)

/-- `n` bytes at address `a` of a core's memories: program, X, Y. -/
def easRead (s : State) (rg : Rg) (k : CoreNo) (a n : Nat) : Nat :=
  let e := s.eas rg k
  match a / 0x10000 with
  | 0 => Mem.read e.prog a n
  | 1 => Mem.read e.x (a % 0x10000) n
  | _ => Mem.read e.y (a % 0x10000) n

/-- `n` bytes of `v` written there. -/
def easWrite (s : State) (rg : Rg) (k : CoreNo) (a n v : Nat) : State :=
  s.onEas rg k (fun e =>
    match a / 0x10000 with
    | 0 => { e with prog := Mem.write e.prog a n v }
    | 1 => { e with x := Mem.write e.x (a % 0x10000) n v }
    | _ => { e with y := Mem.write e.y (a % 0x10000) n v })

/-! ### Design memory and ring (R109–R111) -/

/-- A back-port write of `src`; how long it waits for the undo buffer is free (R113). -/
def portWrite (s : State) (rg : Rg) (src : Nat) (a : Nat) (be : BitVec 8) (v : Entry) (e : Ecc) : State :=
  let (ns, s') := s.draw 32
  backWrite (if (s.rgn rg).undoFull then s' else s) rg src (BitVec.ofNat 19 a) be v e (if (s.rgn rg).undoFull then ns else 0)

/-- `n` words from `a` on; the check's outcome `e` is that of the first. None where a word is uncorrectable. -/
def portReads (rg : Rg) (src : Nat) (ring : Bool) : Nat → State → Nat → Ecc → State × Option (List Entry)
  | 0, s, _, _ => (s, some [])
  | n + 1, s, a, e =>
    let (s, v) := backRead s rg src ring a e
    let (s, t) := portReads rg src ring n s (a + 1) .clean
    (s, match v, t with
      | some v, some t => some (v :: t)
      | _, _ => none)

/-- The words written from `a` on. -/
def portWrites (rg : Rg) (src : Nat) : List Entry → State → Nat → Ecc → State
  | [], s, _, _ => s
  | v :: t, s, a, e => portWrites rg src t (portWrite s rg src a 0xFF v e) (a + 1) .clean

/-! ### Flits -/

/-- Two words of a data flit, the lower address in [63:0] (R4). -/
def flitOf (lo hi : Entry) : Flit := hi ++ lo

def flitsOf : List Entry → List Flit
  | a :: b :: t => flitOf a b :: flitsOf t
  | [a] => [flitOf a 0]
  | [] => []

/-- The words of data flits. -/
def wordsOf (fs : List Flit) : List Entry := fs.flatMap (fun f => [bitsAt f 0 64, bitsAt f 64 64])

/-! ### Hub SRAM (R17) -/

def sramSize : Nat := 0x800000

def sramReads (s : State) : Nat → Nat → List Entry
  | 0, _ => []
  | n + 1, a => BitVec.ofNat 64 (Mem.read s.sram a 8) :: sramReads s n (a + 8)

def sramWrites : List Entry → State → Nat → State
  | [], s, _ => s
  | v :: t, s, a => sramWrites t { s with sram := Mem.write s.sram a 8 v.toNat } (a + 8)

/-! ### ATOMIC (R251) -/

/-- The word after an operation: SWAP, ADD, AND, OR, CAS. -/
def atomicOf (op : Nat) (old v cmp : Entry) : Entry :=
  match op with
  | 0 => v
  | 1 => old + v
  | 2 => old &&& v
  | 3 => old ||| v
  | _ => if old = cmp then v else old

end Sys2Proof.Machine
end

