-- ==== Sys2Proof/Machine/HostBus.lean ====
section
/-! DEFINITION. The helm bus (R368, R387, R478): one access at a time, in the order of arrival; an access into a stopped domain hangs until
the watchdog ends it. The debug port's accesses to units (R410–R413). -/

namespace Sys2Proof.Machine

/-- How an access ends. -/
inductive BusEnd where
  | ok | timeout | unmapped | denied | poison | state
  deriving DecidableEq, Repr

/-- An access that has ended: how, the data read, and the state. -/
structure BusDone where
  how : BusEnd
  data : Entry
  st : State

def BusDone.word (g : ReadBack) : BusDone := ⟨if g.sound then .ok else .poison, if g.sound then g.word.zeroExtend 64 else 0, g.st⟩

/-! ### Fields of DBG.REQ at the start of an access (R410, R425) -/

def BusAccess.space (b : BusAccess) : Bool := b.req.getLsbD 0
def BusAccess.size64 (b : BusAccess) : Bool := b.req.getLsbD 0 && b.req.getLsbD 1
def BusAccess.inc (b : BusAccess) : Bool := b.req.getLsbD 2
def BusAccess.quiet (b : BusAccess) : Bool := decide (b.who = .debug) && !b.req.getLsbD 3
def BusAccess.rg (b : BusAccess) : Rg := BitVec.ofNat 6 (16 * (b.req.toNat / 16 % 4) + b.req.toNat / 64 % 16)
def BusAccess.unit (b : BusAccess) : Nat := b.req.toNat / 1024
def BusAccess.bytes (b : BusAccess) : Nat := if b.size64 then 8 else 4

/-! ### The register space -/

/-- A register write ends: one of which the register's rule refuses any bit to the debug port (R396) gives DENIED (R411). -/
def writeEnd (s : State) (x : Place) (v : Word) (w : Writer) : BusDone :=
  let t := writePlace s x v w
  let refused := (writePlace (s.setF F.GPIO_DENIED_WRITES 0) x v w).f F.GPIO_DENIED_WRITES ≠ 0
  ⟨if w = .debug ∧ refused then .denied else .ok, 0, t⟩

/-- An access to the register space (R472–R478): none where the domain does not answer. -/
def busRegister (s : State) (b : BusAccess) : Option BusDone :=
  let x := placeOf b.addr.toNat
  match x with
  | .unmapped => some ⟨.unmapped, 0, s⟩
  | .hub a =>
    match b.write with
    | some v => some (writeEnd s x (v.truncate 32) b.who)
    | none => some (.word (readHub s { who := b.who, quiet := b.quiet, ecc := b.ecc } a))
  | .window rg a =>
    if ¬ s.busReaches rg then none
    else
      match b.write with
      | some v => some (writeEnd s x (v.truncate 32) b.who)
      | none =>
        if (ringGiven s b.who rg a).isSome then none
        else some (.word (readRgn s { who := b.who, quiet := b.quiet, ecc := b.ecc } rg a))

/-- What an access that waits leaves behind: a read of RWD.DATA waits for the back port as requester 3 (R135). -/
def busWaits (s : State) (b : BusAccess) : State :=
  match placeOf b.addr.toNat with
  | .window rg a =>
    if b.space ∨ b.write.isSome ∨ b.addr.toNat % 4 ≠ 0 ∨ ¬ s.busReaches rg then s else (ringGiven s b.who rg a).getD s
  | _ => s

/-! ### Units, for the debug port (R410) -/

/-- The half of a word that a 32-bit access reads. -/
def BusAccess.half (b : BusAccess) (v : Entry) : Entry :=
  if b.size64 then v else BitVec.ofNat 64 (v.toNat / 2 ^ (8 * (b.addr.toNat % 8)) % 2 ^ 32)

/-- The bytes that an access enables, and its data in their place. -/
def BusAccess.enables (b : BusAccess) : BitVec 8 := if b.size64 then 0xFF else if b.addr.toNat % 8 = 4 then 0xF0 else 0x0F

def BusAccess.placed (b : BusAccess) (v : Entry) : Entry := if b.size64 then v else (v &&& 0xFFFFFFFF) <<< (8 * (b.addr.toNat % 8))

/-- A word with the enabled half replaced. -/
def BusAccess.merge (b : BusAccess) (old v : Entry) : Entry :=
  if b.size64 then v else if b.addr.toNat % 8 = 4 then setBits old 32 32 (v.truncate 32) else setBits old 0 32 (v.truncate 32)

/-- A palette (R80, R410). -/
def debugPalette (s : State) (b : BusAccess) (c : Cl) : BusDone :=
  let a := b.addr.toNat
  let e := a / 8
  if 1024 ≤ e then ⟨.unmapped, 0, s⟩
  else if ¬ s.paletteOpen b.rg then ⟨.state, 0, s⟩
  else
    match b.write with
    | none => ⟨.ok, b.half (readPalette s b.rg c e), s⟩
    | some v =>
      if 1020 ≤ e then ⟨.denied, 0, s⟩
      else ⟨.ok, 0, writePalette s b.rg c e 4 (b.merge (readPalette s b.rg c e) v)⟩

/-- The memories of a core (R329, R410). -/
def debugEasel (s : State) (b : BusAccess) (k : CoreNo) : BusDone :=
  let a := b.addr.toNat
  if 0x30000 ≤ a then ⟨.unmapped, 0, s⟩
  else
    match b.write with
    | none => ⟨.ok, BitVec.ofNat 64 (easRead s b.rg k a b.bytes), s⟩
    | some v =>
      if a < 0x10000 ∧ ¬ s.inReset b.rg k ∧ ¬ s.rbit b.rg (F.EAS_STATUS_HALTED k.val) then ⟨.denied, 0, s⟩
      else ⟨.ok, 0, easWrite s b.rg k a b.bytes v.toNat⟩

/-- Design memory or the ring (R119, R410). -/
def debugMemory (s : State) (b : BusAccess) (ring : Bool) : Option BusDone :=
  let a := b.addr.toNat
  if (if ring then 0x200000 else 0x400000) ≤ a then some ⟨.unmapped, 0, s⟩
  else
    match b.write with
    | some v =>
      if ring then some ⟨.denied, 0, s⟩
      else (debugPort s b.rg true (fun s => (portWrite s b.rg 7 (a / 8) b.enables (b.placed v) b.ecc, ()))).map (fun x => ⟨.ok, 0, x.1⟩)
    | none =>
      (debugPort s b.rg (!ring) (fun s => backRead s b.rg 7 ring (a / 8) b.ecc)).map (fun x =>
        match x.2 with
        | some v => ⟨.ok, b.half v, x.1⟩
        | none => ⟨.poison, 0, x.1⟩)

/-- An access to a unit (R410): none while its region or its back port does not answer. -/
def busUnit (s : State) (b : BusAccess) : Option BusDone :=
  let u := b.unit
  if b.addr.toNat % b.bytes ≠ 0 then some ⟨.unmapped, 0, s⟩
  else if u = 0x39 then
    if sramSize ≤ b.addr.toNat then some ⟨.unmapped, 0, s⟩
    else
      match b.write with
      | none => some ⟨.ok, BitVec.ofNat 64 (Mem.read s.sram b.addr.toNat b.bytes), s⟩
      | some v => some ⟨.ok, 0, { s with sram := Mem.write s.sram b.addr.toNat b.bytes v.toNat }⟩
  else if 0x15 ≤ u then some ⟨.unmapped, 0, s⟩
  else if ¬ s.busReaches b.rg then none
  else if u < 0x10 then some (debugPalette s b (BitVec.ofNat 4 u))
  else
    match u with
    | 0x10 => some (debugEasel s b 0)
    | 0x11 => some (debugEasel s b 1)
    | 0x12 => some (debugEasel s b 2)
    | 0x13 => debugMemory s b false
    | _ => debugMemory s b true

/-! ### The bus -/

/-- The access at the front, where its target answers. A request that came over Oxdon is performed at its target; its turn on the bus passes
with it (R387). -/
def busTry (s : State) (b : BusAccess) : Option BusDone :=
  if b.turn.any (fun p => decide (p ∈ s.arrived)) then none
  else if b.turn.isSome then some ⟨.ok, 0, s⟩
  else if b.space then busUnit s b
  else if b.addr.toNat % 4 ≠ 0 then some ⟨.unmapped, 0, s⟩
  else busRegister s b

/-- RESULT of I3C (R386) and ERR of the debug port (R408). -/
def i3cCode : BusEnd → Nat
  | .timeout => 1
  | .unmapped => 2
  | _ => 0

def debugCode : BusEnd → Nat
  | .ok => 0
  | .timeout => 2
  | .unmapped => 3
  | .denied => 4
  | .poison => 5
  | .state => 6

/-- The first error since the last clear stays (R408). -/
def State.dbgErr (s : State) (code : Nat) : State := if s.f F.DBG_STATUS_ERR = 0 then s.setF F.DBG_STATUS_ERR code else s

/-- An I3C word has ended (R386): the words read are held until the last is there, and then sent, at most the maximum read length of bytes
(R382, R385); after the transfer's last word the status is recorded. -/
def endI3c (s : State) (b : BusAccess) (how : BusEnd) (data : Entry) (last : Bool) : State :=
  let x := s.i3c
  let x := if b.write.isNone then { x with held := x.held ++ (List.range 4).map (fun i => bitsAt data (8 * i) 8) } else x
  let x := if last ∧ b.write.isNone then { x with out := x.held.take x.mrl.toNat, held := [] } else x
  let x := if i3cCode how ≠ 0 ∧ x.res = 0 then { x with res := BitVec.ofNat 3 (i3cCode how), at_ := b.index } else x
  let s := { s with i3c := x }
  if last then (s.setF F.HIF_ACC_STAT_RESULT x.res.toNat).setF F.HIF_ACC_STAT_INDEX x.at_.toNat else s

/-- A debug access has ended (R408, R412): read data is held, the first error stays, ADDR advances with INC. -/
def endDebug (s : State) (b : BusAccess) (how : BusEnd) (data : Entry) : State :=
  let s := if b.write.isNone then { s with dbg := { s.dbg with held := some data } } else s
  let s := if how = .ok then s else s.dbgErr (debugCode how)
  if b.inc then
    let a := (s.f F.DBG_ADDR_HI_ADDR * 2 ^ 32 + (s.reg R.DBG_ADDR_LO).toNat + b.bytes) % 2 ^ 40
    (s.setReg R.DBG_ADDR_LO (BitVec.ofNat 32 a)).setReg R.DBG_ADDR_HI (BitVec.ofNat 32 (a / 2 ^ 32))
  else s

/-- What the path of an access learns of its end; `rest` waits behind it. -/
def endAccessOf (s : State) (b : BusAccess) (rest : List BusAccess) (how : BusEnd) (data : Entry) : State :=
  match b.who with
  | .i3c => endI3c s b how data (!rest.any (fun x => decide (x.who = .i3c)))
  | .debug => endDebug s b how data
  | _ => s

/-- Accesses are performed in their order until one hangs (R368, R387). -/
def runBus : List BusAccess → State → State
  | [], s => { s with bus := [] }
  | b :: t, s =>
    match busTry { s with bus := t } b with
    | none => { busWaits s b with bus := b :: t }
    | some d => runBus t (endAccessOf d.st b t d.how d.data)

/-- Accesses `l` join those on the bus in the order of arrival: the words of an I3C transfer arrive one after the other, so that they come before
all of its words but the first that waits (R387). -/
def joinBus (bus l : List BusAccess) : List BusAccess :=
  let (before, rest) := bus.span (fun b => decide (b.who ≠ .i3c))
  match rest with
  | [] => before ++ l
  | w :: t =>
    let (passed, words) := t.span (fun b => decide (b.who ≠ .i3c))
    before ++ w :: passed ++ l ++ words

def putBus (s : State) (l : List BusAccess) : State := if s.bus = [] then runBus l s else { s with bus := joinBus s.bus l }

/-- A request that came over Oxdon to a register of the hub has its turn where the bus is free, or its place there has come to the front; the
state is then the one in which it is performed. -/
def busTurn (s : State) (p : Packet) : Option State :=
  match s.bus with
  | [] => some s
  | b :: t => if b.turn = some p then some { s with bus := t } else none

/-- Else it takes its place behind those that came before it. -/
def busPlace (s : State) (p : Packet) : State :=
  if s.bus.any (fun b => decide (b.turn = some p)) then s
  else { s with bus := joinBus s.bus [{ addr := p.addr, write := none, who := .oxdon p.src, turn := some p }] }

/-- HELM_BUS_ACCESS (R387): the access at the front completes where its target answers by now, and those behind it follow. -/
def execHelmBusAccess (s : State) : Host.Outcome State Fault Refusal := .next (runBus s.bus s)

/-- A read of RWD.DATA that waited for the back port drops its request (R115). -/
def busLeaves (s : State) (b : BusAccess) : State :=
  match placeOf b.addr.toNat with
  | .window rg a =>
    if b.space ∨ b.write.isSome ∨ b.who = .debug ∨ a < ringWindow then s else s.onRgn rg (fun r => r.dropRequest 3)
  | _ => s

/-- BUS_WATCHDOG (R368): the access that hangs ends with TIMEOUT; a read returns 0, a write is not performed. -/
def execBusWatchdog (s : State) : Host.Outcome State Fault Refusal :=
  .next (
    match s.bus with
    | [] => s
    | b :: t =>
      if b.turn.isSome then s
      else
        let s := ((s.setF F.SEM_BUSWD_TIMEOUT 1).setReg R.SEM_BUSWD_ADDR (b.addr.truncate 32)).bump F.SEM_BUSWD_CNT_COUNT 1
        let s := busLeaves (s.noteFault 21 4 ((b.addr.truncate 32) >>> 2)) b
        runBus t (endAccessOf { s with bus := t } b t .timeout 0))

/-- The transfer of an I3C access begins: no failure so far. -/
def beginI3c (s : State) : State := { s with i3c := { s.i3c with held := [], res := 0, at_ := 0 } }

/-- A protocol error is counted (R382, R385). -/
def protocolError (s : State) : State :=
  let s := s.bump F.HIF_ERR_PROTO 1
  { s with i3c := { s.i3c with protoErr := true } }

/-- A malformed transfer: nothing is accessed (R385). -/
def malformed (s : State) : State :=
  protocolError ((s.setF F.HIF_ACC_STAT_RESULT 3).setF F.HIF_ACC_STAT_INDEX 0)

/-- REGISTER_WRITE (R5, R197, R475–R477): a write by the path named. Over Oxdon it has come by UNIT 0x38 or UNIT 0x16; over I3C
an address that is not aligned makes the transfer malformed (R385). -/
def execRegisterWrite (addr v : Word) (by_ : Writer) (s : State) : Host.Outcome State Fault Refusal :=
  let a := addr.toNat
  .next (
    if a % 4 ≠ 0 then (if by_ ≠ .i3c then s else if s.i3cBusy then s.bump F.HIF_ERR_NACKS 1 else malformed s)
    else
      match by_ with
      | .oxdon _ =>
        match placeOf a with
        | .hub h => if oxdonDenied h v then s else putBus s [{ addr := addr.zeroExtend 40, write := some (v.zeroExtend 64), who := by_ }]
        | .window rg o => if (s.rgn rg).absorbing then s else writeRgn s rg o v by_
        | .unmapped => s
      | .i3c =>
        if s.i3cBusy then s.bump F.HIF_ERR_NACKS 1
        else putBus (beginI3c s) [{ addr := addr.zeroExtend 40, write := some (v.zeroExtend 64), who := by_ }]
      | _ => putBus s [{ addr := addr.zeroExtend 40, write := some (v.zeroExtend 64), who := by_ }])

end Sys2Proof.Machine
end

