-- ==== Sys2Proof/Machine/Debug.lean ====
section
/-! DEFINITION. The two-wire debug port (R404–R423): requests, sessions, bus-master accesses, halted cores, fed instructions, test
entry. -/

namespace Sys2Proof.Machine

/-- The port has power: it stands in every state but OFF (R421). -/
def State.portUp (s : State) : Bool := s.pwr.boot != .noPower && s.pwr.boot != .thermal && s.pwr.boot != .resetLow

/-- The XOR of the bits of a word. -/
def xorBits (v : Word) : Bool := (List.range 32).foldl (fun b i => b ^^ v.getLsbD i) false

/-- The acknowledge of a request (R405). -/
def ackOk : BitVec 3 := 3
def ackWait : BitVec 3 := 5
def ackErr : BitVec 3 := 6
def ackNone : BitVec 3 := 7

def State.acked (s : State) (a : BitVec 3) : State := { s with dbg := { s.dbg with ack := a } }

/-- A read is answered OK: the port drives 32 data bits, then their XOR (R405, R407). -/
def State.driven (s : State) (v : Word) : State := { s with dbg := { s.dbg with out := v, par := xorBits v, ack := ackOk } }

/-- An error of the core registers is STATE (R408). -/
def State.dbgState (s : State) : State := s.dbgErr 6

/-! ### The selected core (R425) -/

/-- The core that DBG.CORE selects; 3 names none. -/
def State.selCore (s : State) : Option (Rg × CoreNo) :=
  let n := s.f F.DBG_CORE_SEL
  let rg : Rg := BitVec.ofNat 6 (16 * (n / 64) + n / 4 % 16)
  if h : n % 4 < 3 then some (rg, ⟨n % 4, h⟩) else none

/-- `f` is done to the selected core; where none is selected, STATE. -/
def State.onSel (s : State) (f : State → Rg → CoreNo → State) : State :=
  match s.selCore with
  | some (rg, k) => f s rg k
  | none => s.dbgState

def State.onCoreDbg (s : State) (rg : Rg) (k : CoreNo) (f : CoreDbg → CoreDbg) : State :=
  s.onEas rg k (fun e => { e with dbg := f e.dbg })

def State.coreHalted (s : State) (rg : Rg) (k : CoreNo) : Bool := s.rbit rg (F.EAS_STATUS_HALTED k.val)

/-! ### Halting and resuming (R414–R416) -/

/-- A HALT (R414): at once where the core stands at a boundary; else it waits for the end of the reset or of the BPA that stalls. A core
that is STOPPED, or whose region is GATED, gives STATE. -/
def haltSel (s : State) (rg : Rg) (k : CoreNo) : State :=
  let later (s : State) : State := s.onCoreDbg rg k (fun d => { d with haltReq := true })
  if s.coreHalted rg k then s
  else if s.rf rg F.RGN_STATUS_CFG = 3 then s.dbgState
  else
    match s.rf rg (F.EAS_STATUS_STATE k.val) with
    | 3 => s.dbgState
    | 0 => later s
    | 2 => haltCore (s.setRf rg (F.EAS_STATUS_STATE k.val) 1) rg k 1 0
    | _ => if (s.eas rg k).fetched.any (fun w => insnOp w == 0x1D) then later s else haltCore s rg k 1 0

/-- A halted core continues at PC (R415, R416): its watchdog reloads, and a breakpoint unit that halted it is passed over for one
fetch. With `step` it halts again after one instruction. -/
def resumeCore (s : State) (rg : Rg) (k : CoreNo) (step : Bool) : State :=
  (s.setRf rg (F.EAS_STATUS_HALTED k.val) 0).onRgn rg (fun r =>
    let e := r.eas k
    let d := { e.dbg with cause := 0, unit := 0, haltReq := false, stepping := step, pass := if e.dbg.cause = 3 then some e.dbg.unit else none }
    (r.setEas k { e with dbg := d }).reloadDog k)

/-- A fed instruction of the core that still stalls is not performed any more: ERR is FEED. -/
def dropFeed (s : State) (rg : Rg) (k : CoreNo) : State :=
  match s.dbg.fed with
  | some (r, c, _) => if r = rg ∧ c = k then { s with dbg := { s.dbg with fed := none } }.dbgErr 7 else s
  | none => s

/-- RESUME or STEP (R415); a core that is not halted gives STATE. -/
def resumeSel (step : Bool) (s : State) (rg : Rg) (k : CoreNo) : State :=
  if s.coreHalted rg k then resumeCore (dropFeed s rg k) rg k step else s.dbgState

/-! ### Patch units (R416) -/

def State.claimed (s : State) (rg : Rg) (k : CoreNo) (u : Nat) : Bool := s.rbit rg (F.EAS_PATCH_ADDR_CLAIMED k.val u)

/-- The unit's ADDR, EN and WORD are saved, and it is claimed. -/
def claimUnit (s : State) (rg : Rg) (k : CoreNo) (u : Nat) : State :=
  if s.claimed rg k u then s
  else
    let r := s.rgn rg
    let kept : BitVec 48 :=
      BitVec.ofNat 48 (packKey [(r.f (F.EAS_PATCH_ADDR_ADDR k.val u), 15), (r.f (F.EAS_PATCH_ADDR_EN k.val u), 1),
        ((r.reg (R.EAS_PATCH_WORD k.val u)).toNat, 32)])
    (s.onCoreDbg rg k (fun d => { d with saved := SMap.set none d.saved u (some kept) })).setRf rg (F.EAS_PATCH_ADDR_CLAIMED k.val u) 1

/-- The saved contents return. -/
def restoreUnit (s : State) (rg : Rg) (k : CoreNo) (u : Nat) : State :=
  if ¬ s.claimed rg k u then s
  else
    let n := k.val
    let v := ((SMap.get none (s.eas rg k).dbg.saved u).getD 0).toNat
    let s := s.onCoreDbg rg k (fun d => { d with saved := SMap.set none d.saved u none })
    s.onRgn rg (fun r =>
      let r := (r.setF (F.EAS_PATCH_ADDR_ADDR n u) v).setF (F.EAS_PATCH_ADDR_EN n u) (v / 2 ^ 15)
      (r.setReg (R.EAS_PATCH_WORD n u) (BitVec.ofNat 32 (v / 2 ^ 16))).setF (F.EAS_PATCH_ADDR_CLAIMED n u) 0)

/-- A write of CLAIM (R416). -/
def claimUnits (mask : BitVec 8) (s : State) (rg : Rg) (k : CoreNo) : State :=
  foldS (List.range 8) s (fun s u => if mask.getLsbD u then claimUnit s rg k u else restoreUnit s rg k u)

/-! ### Registers of a halted core (R417) -/

/-- The register that INDEX names. -/
def coreValOf (s : State) (rg : Rg) (k : CoreNo) (i : Nat) : BitVec 16 :=
  let e := s.eas rg k
  if i < 32 then e.get i
  else if 0x40 ≤ i ∧ i < 0x80 then specRead (s.rgn rg) rg k (i - 0x40)
  else if i = 0x80 then e.pc.zeroExtend 16
  else 0

/-- A write of it. B, L and RB take the value at once: the core executes nothing meanwhile. -/
def setCoreVal (s : State) (rg : Rg) (k : CoreNo) (i : Nat) (v : BitVec 16) : State :=
  s.onEas rg k (fun e =>
    if i < 32 then e.put i v
    else if 0x40 ≤ i ∧ i < 0x80 then
      let sp := i - 0x40
      if (8 ≤ sp ∧ sp < 0x18) ∨ sp = 0x19 then e.land ⟨BitVec.ofNat 6 sp, v, 0⟩ else e.specWrite sp v
    else if i = 0x80 then { e with pc := v.truncate 15 }
    else e)

/-! ### Fed instructions (R418) -/

/-- What an instruction of each opcode does (R331), LOOP, WAIT and BRK apart. -/
def performs (op : Nat) (ecc : Ecc) (undoNs : Word) (rg : Rg) (k : CoreNo) : State → Word → Did :=
  match op with
  | 0x00 => onCore rg k doNop
  | 0x01 => onCore rg k doAdd
  | 0x02 => onCore rg k doSub
  | 0x03 => onCore rg k doAnd
  | 0x04 => onCore rg k doOr
  | 0x05 => onCore rg k doXor
  | 0x06 => onCore rg k doShl
  | 0x07 => onCore rg k doShr
  | 0x08 => onCore rg k doShra
  | 0x09 => onCore rg k doCmp
  | 0x0A => onCore rg k doAddi
  | 0x0B => onCore rg k doAndi
  | 0x0C => onCore rg k doOri
  | 0x0D => onCore rg k doXori
  | 0x0E => onCore rg k doLdi
  | 0x0F => onCore rg k doCmpi
  | 0x10 => runMvs rg k
  | 0x11 => onCore rg k doMsv
  | 0x12 => runMul rg k
  | 0x13 => runMacld rg k
  | 0x14 => onCore rg k doAcc
  | 0x15 => onCore rg k doExt
  | 0x18 => runLoad 1 rg k
  | 0x19 => runStore 1 rg k
  | 0x1A => runLoad 2 rg k
  | 0x1B => runStore 2 rg k
  | 0x1C => runPal rg k
  | 0x1D => runBpa ecc undoNs rg k
  | 0x1E => runMbrd rg k
  | 0x1F => runMbwr rg k
  | 0x20 => runBr rg k
  | 0x21 => runCall rg k
  | 0x22 => runRet rg k
  | 0x23 => runReti rg k
  | 0x25 => runRelfix rg k
  | 0x27 => runKick rg k
  | 0x28 => runPkt rg k
  | _ => fun s _ => .trap s 1

/-- A fed instruction is not performed: ERR is FEED, and a trap's cause is kept. -/
def feedFails (s : State) (rg : Rg) (k : CoreNo) (cause : Nat) : State :=
  (s.onCoreDbg rg k (fun d => { d with feedCause := BitVec.ofNat 4 cause })).dbgErr 7

/-- The halted core executes the instruction as if fetched at PC; where it stalls, it is tried again later. -/
def tryFeed (s : State) (rg : Rg) (k : CoreNo) (w : Word) (ecc : Ecc) : State :=
  let op := insnOp w
  let e := s.eas rg k
  let wait (s : State) : State := { s with dbg := { s.dbg with fed := some (rg, k, w, ecc) } }
  let s := { s with dbg := { s.dbg with fed := none } }
  if ¬ s.coreHalted rg k then s.dbgErr 7
  else if ¬ s.clocked rg then wait s
  else if op = 0x24 ∨ op = 0x26 ∨ op = 0x29 then s.dbgErr 7
  else if ¬ isOpcode op then feedFails s rg k 1
  else if isBranch op ∧ (e.levelAt e.pc).isSome then feedFails s rg k 3
  else
    let (ns, s') := s.draw 32
    match performs op ecc ns rg k s' w with
    | .trap _ c => feedFails s rg k c
    | .stall t => wait ((stallMore t rg k w).onEas rg k (fun x => { x with fetched := none }))
    | .stop t => t
    | .done t next =>
      let t := ((countStalls t rg k e w next.isSome).onEas rg k (fun e => { e.age with pc := next.getD e.pc })).bumpR rg (F.EAS_PERF_INSN_COUNT k.val) 1
      tryBegin t rg

/-- A fed instruction that stalled is tried again. -/
def retryFeed (s : State) : State :=
  match s.dbg.fed with
  | some (rg, k, w, ecc) => tryFeed s rg k w ecc
  | none => s

/-- A write of DBG.FEED (R418). -/
def feedSel (w : Word) (ecc : Ecc) (s : State) (rg : Rg) (k : CoreNo) : State :=
  if s.coreHalted rg k then tryFeed (s.onCoreDbg rg k (fun d => { d with feedCause := 0 })) rg k w ecc else s.dbgState

/-! ### Bus-master accesses (R410, R412) -/

/-- An access to ADDR begins. -/
def startAccess (s : State) (write : Option Entry) (ecc : Ecc) : State :=
  let req : BitVec 16 := (s.reg R.DBG_REQ).truncate 16
  let lo := (s.reg R.DBG_ADDR_LO).toNat
  let addr := if req.getLsbD 0 then lo + 2 ^ 32 * s.f F.DBG_ADDR_HI_ADDR else lo
  putBus s [{ addr := BitVec.ofNat 40 addr, write := write, who := .debug, req := req, ecc := ecc }]

/-- SPACE 1 with SIZE64 (R410). -/
def State.dbgWide (s : State) : Bool := s.bit F.DBG_REQ_SPACE && s.bit F.DBG_REQ_SIZE64

/-- A write of DBG.DATA. -/
def dataWrite (s : State) (v : Word) (ecc : Ecc) : State :=
  let s := s.setReg R.DBG_DATA v
  startAccess s (some (if s.dbgWide then (s.reg R.DBG_DATA_HI ++ v : BitVec 64) else v.zeroExtend 64)) ecc

/-- A read of DBG.DATA: held data is returned, and with INC and no CONSUME the next read begins; else a read begins, answered WAIT. -/
def dataRead (s : State) (ecc : Ecc) : State :=
  match s.dbg.held with
  | none => (startAccess s none ecc).acked ackWait
  | some v =>
    let s := s.setReg R.DBG_DATA (v.truncate 32)
    let s := if s.dbgWide then s.setReg R.DBG_DATA_HI (BitVec.ofNat 32 (v.toNat / 2 ^ 32)) else s
    let s := { s with dbg := { s.dbg with held := none } }.driven (v.truncate 32)
    if s.bit F.DBG_REQ_INC ∧ ¬ s.bit F.DBG_REQ_CONSUME then startAccess s none ecc else s

/-! ### Sessions (R409) -/

/-- A session ends: halted cores resume, claimed units are restored, semaphores of debug are broken, sleep emulation ends. -/
def endSession (s : State) : State :=
  let s := (s.setF F.DBG_SESSION_ATTACH 0)
  let s := { s with dbg := { s.dbg with armed := none, fed := none } }
  let s := foldS allRegions s (fun s rg => foldS allCores s (fun s k =>
    let s := claimUnits 0 s rg k
    let s := if s.coreHalted rg k then resumeCore s rg k false else s
    if (s.eas rg k).dbg.haltReq then s.onCoreDbg rg k (fun d => { d with haltReq := false }) else s))
  let s := foldS (List.range 32) s (fun s n => if s.f (F.SEM_HOLDER_KIND n) = 4 then breakSem s n else s)
  endEmulation s

/-- A write of DBG.SESSION. -/
def writeSession (s : State) (v : Word) : State :=
  let was := s.attached
  let s := (s.setF F.DBG_SESSION_IDLE_TO (v.toNat / 2 ^ 8)).setF F.DBG_SESSION_ATTACH v.toNat
  if was ∧ ¬ v.getLsbD 0 then endSession s else s

/-! ### Test entry (R419, R420) -/

/-- An entry is accepted: every region isolated, every ingress refusing, every pin parked. -/
def enterTest (s : State) (mode : BitVec 2) : State :=
  let s := { s with dbg := { s.dbg with testing := some mode, armed := none }, refusing := 31,
                    gpio := { s.gpio with parked := 0xFFF } }
  foldS allRegions s (fun s rg => isolate s rg 4 0)

/-- A write of DBG.PRIV: ARM 0xA5 arms the mode; GO with ARM 0x5A and the same mode, in time, enters it; anything else breaks the
sequence. A broken sequence or a locked port gives DENIED. -/
def writePriv (s : State) (v : Word) : State :=
  let mode : BitVec 2 := bitsAt v 8 2
  let arm := v.toNat % 256
  let go := v.getLsbD 10
  let armed := s.dbg.armed
  let s := { s.setF F.DBG_PRIV_MODE mode.toNat with dbg := { s.dbg with armed := none } }
  if s.dbg.testing.isSome then s
  else if go then
    if arm = 0x5A ∧ armed = some mode ∧ s.now ≤ s.dbg.armedAt + 100000 ∧ ¬ s.fuses.testDisable then enterTest s mode else s.dbgErr 4
  else if s.fuses.testDisable ∧ arm = 0xA5 then s.dbgErr 4
  else if arm = 0xA5 ∧ (mode = 1 ∨ mode = 2) then { s with dbg := { s.dbg with armed := some mode, armedAt := s.now } }
  else if armed.isSome ∨ arm = 0x5A then s.dbgErr 4
  else s

/-- The stores of a region that a test entry clears. -/
def Region.blanked (r : Region) : Region :=
  let r := r.mapCl (fun k => { k with pal := [], next := [], written := [], exch := [], ports := [] })
  let r := allCores.foldl (fun r k => r.setEas k { r.eas k with prog := [], x := [], y := [] }) r
  { r with strokes := [], dmem := [], ring := [], upsets := [], canvas := [] }

/-- Every store of R420 reads zero; CLEARED is set, then the test mode is entered. -/
def clearStores (s : State) : State :=
  let s := { s with keys := [], sram := [], library := [], load := { s.load with stage := [] }, rtc := { s.rtc with keys := [] } }
  let s := foldS allRegions s (fun s rg => s.onRgn rg Region.blanked)
  (s.setF F.DBG_STATUS_CLEARED 1).setF F.DBG_STATUS_TESTMODE 1

/-! ### The port's registers (R425) -/

/-- DBG.CORE_CTRL and DBG.CORE_STAT as they read for the selected core. -/
def coreCtrlView (s : State) : Word :=
  match s.selCore with
  | none => 0
  | some (rg, k) =>
    wordOf [(0, 3), ((s.eas rg k).dbg.trapHalt.toNat, 1), (0, 4), ((bitWord 8 (fun u => s.claimed rg k u)).toNat, 8)]

def coreStatView (s : State) : Word :=
  match s.selCore with
  | none => 0
  | some (rg, k) =>
    let e := s.eas rg k
    let busy : Bool := match s.dbg.fed with | some (r, c, _) => decide (r = rg) && decide (c = k) | none => false
    wordOf [((s.coreHalted rg k).toNat, 1), (e.dbg.cause.toNat, 3), (e.dbg.unit.toNat, 3), (busy.toNat, 1), (e.dbg.feedCause.toNat, 4),
      (e.pc.toNat, 15)]

/-- A write of DBG.CORE_CTRL: its bits act in rising order. -/
def writeCoreCtrl (s : State) (v : Word) : State :=
  s.onSel (fun s rg k =>
    let s := s.onCoreDbg rg k (fun d => { d with trapHalt := v.getLsbD 3 })
    let s := claimUnits (bitsAt v 8 8) s rg k
    let s := if v.getLsbD 0 then haltSel s rg k else s
    let s := if v.getLsbD 1 then resumeSel false s rg k else s
    if v.getLsbD 2 then resumeSel true s rg k else s)

/-- A read of DBG.STATUS: HDR_ERR is cleared with CONSUME (R9). -/
def readStatus (s : State) : Word × State :=
  (dbgStatus s, if s.bit F.DBG_REQ_CONSUME then s.setF F.DBG_STATUS_HDR_ERR 0 else s)

/-- A read of port register `t`, DATA apart: the word and the state after. -/
def readPort (s : State) (t : Nat) : Word × State :=
  match t with
  | 0 => (0x100C0001, s)
  | 2 => readStatus s
  | 9 => (coreCtrlView s, s)
  | 10 => (coreStatView s, s)
  | 11 => (0, s)
  | 13 =>
    match s.selCore with
    | none => (0, s.dbgState)
    | some (rg, k) =>
      if s.coreHalted rg k then ((coreValOf s rg k (s.f F.DBG_CORE_REG_INDEX)).zeroExtend 32, s) else (0, s.dbgState)
  | _ => (s.reg (R.DBG_ID + 4 * t), s)

/-- A write of port register `t`. -/
def writePort (s : State) (t : Nat) (v : Word) (ecc : Ecc) : State :=
  match t with
  | 1 => writeSession s v
  | 2 => if v.getLsbD 16 then s.setF F.DBG_STATUS_ERR 0 else s
  | 6 => dataWrite s v ecc
  | 9 => writeCoreCtrl s v
  | 11 => s.onSel (feedSel v ecc)
  | 13 => s.onSel (fun s rg k => if s.coreHalted rg k then setCoreVal s rg k (s.f F.DBG_CORE_REG_INDEX) (v.truncate 16) else s.dbgState)
  | 14 => writePriv s v
  | 0 | 10 => s
  | _ => storeHub s (R.DBG_ID + 4 * t) v

/-! ### Requests (R405–R407, R409) -/

/-- The port's answer to a request of register `t`, where it answers at all. While an error stands, the four data registers answer ERR
before they would answer WAIT. -/
def answer (s : State) (t : Nat) : BitVec 3 :=
  if ¬ s.attached ∧ 3 ≤ t then ackErr
  else if s.f F.DBG_STATUS_ERR ≠ 0 ∧ t ∈ [6, 7, 11, 13] then ackErr
  else if s.dbgBusy ∧ t ∈ [6, 7, 11] then ackWait
  else ackOk

/-- A request is answered, and where it is OK its data phase runs; `bad` is a write whose data parity is wrong. -/
def request (s : State) (t : Nat) (write : Option Word) (bad : Bool) (ecc : Ecc) : State :=
  if ¬ s.portUp then s
  else
    let s := retryFeed s
    let a := answer s t
    if a = ackErr then (if s.attached then s else s.dbgState).acked ackErr
    else if a = ackWait then s.acked ackWait
    else
      match write with
      | some v => if bad then (s.dbgErr 1).acked ackOk else (writePort s t v ecc).acked ackOk
      | none =>
        if t = 6 then dataRead s ecc
        else
          let (v, s) := readPort s t
          s.driven v

/-- A header that the port takes (R405, R406): MARK 0, GUARD 1, an odd number of ones in bits [6:1]. -/
def headerOk (h : BitVec 8) : Bool :=
  !h.getLsbD 0 && h.getLsbD 7 && decide ((List.range 6).countP (fun i => h.getLsbD (i + 1)) % 2 = 1)

/-- A header is not answered (R406). -/
def unanswered (s : State) : State :=
  { s.bump F.DBG_STATUS_HDR_ERR 1 with dbg := { s.dbg with ignoring := true, ack := ackNone } }

/-- The outcome of a memory word's check, where the command does not give it: free. -/
def freeEcc (s : State) : Ecc × State :=
  let (v, s) := s.draw 2
  (if v = 1 then .single else if v = 2 then .uncorrectable else .clean, s)

/-- WAKE_SEQUENCE (R406): the protocol state is restored and nothing else. -/
def execWakeSequence (s : State) : Host.Outcome State Fault Refusal :=
  .next (if s.portUp then { s with dbg := { s.dbg with synced := true, ignoring := false } } else s)

/-- TWD_REQUEST (R405–R407): a header as it stands on the line and, for a write, its data with whether their parity is wrong. A port that
ignores the line takes a header of eight ones as the eight clocks that end this (R406). What the check of a memory
word finds is free. -/
def execTwdRequest (hdr : BitVec 8) (data : Word) (par : Bool) (s : State) : Host.Outcome State Fault Refusal :=
  .next (
    if ¬ s.portUp then s
    else if s.dbg.ignoring then (if hdr = 0xFF then { s with dbg := { s.dbg with ignoring := false } } else s)
    else if hdr.getLsbD 0 then s
    else if ¬ s.dbg.synced ∨ ¬ headerOk hdr then unanswered s
    else
      let (ecc, s) := freeEcc s
      request s (hdr.toNat / 2 % 16) (if hdr.getLsbD 5 then none else some data) par ecc)

/-- A request by name, its header sound: the port takes it unless it ignores the line or has seen no wake sequence (R406). -/
def named (s : State) (t : Nat) (write : Option Word) (ecc : Ecc) : State :=
  if ¬ s.portUp ∨ s.dbg.ignoring then s
  else if ¬ s.dbg.synced then unanswered s
  else request s t write false ecc

/-- ATTACH (R409). -/
def execAttach (v : Bool) (s : State) : Host.Outcome State Fault Refusal :=
  .next (named s 1 (some (F.DBG_SESSION_ATTACH.put (s.reg R.DBG_SESSION) v.toNat)) .clean)

/-- SESSION_IDLE (R409): the line has stood still for IDLE_TO. -/
def execSessionIdle (s : State) : Host.Outcome State Fault Refusal :=
  .next (if s.attached ∧ s.f F.DBG_SESSION_IDLE_TO ≠ 0 then endSession s else s)

/-- DBG_DATA_WRITE (R412). -/
def execDbgDataWrite (v : Word) (ecc : Ecc) (s : State) : Host.Outcome State Fault Refusal := .next (named s 6 (some v) ecc)

/-- DBG_DATA_READ (R412). -/
def execDbgDataRead (ecc : Ecc) (s : State) : Host.Outcome State Fault Refusal := .next (named s 6 none ecc)

/-- ERR_CLR (R408). -/
def execErrClr (s : State) : Host.Outcome State Fault Refusal := .next (named s 2 (some 0x10000) .clean)

/-- HALT (R414). -/
def execHalt (s : State) : Host.Outcome State Fault Refusal := .next (named s 9 (some (coreCtrlView s ||| 1)) .clean)

/-- CORE_RESUME (R415). -/
def execCoreResume (s : State) : Host.Outcome State Fault Refusal := .next (named s 9 (some (coreCtrlView s ||| 2)) .clean)

/-- STEP (R415). -/
def execStep_ (s : State) : Host.Outcome State Fault Refusal := .next (named s 9 (some (coreCtrlView s ||| 4)) .clean)

/-- CLAIM (R416). -/
def execClaim (mask : BitVec 8) (s : State) : Host.Outcome State Fault Refusal :=
  .next (named s 9 (some (F.DBG_CORE_CTRL_CLAIM.put (coreCtrlView s) mask.toNat)) .clean)

/-- CORE_VAL (R417): a write of the value given, or a read. -/
def execCoreVal (wr : Option (BitVec 16)) (s : State) : Host.Outcome State Fault Refusal :=
  .next (named s 13 (wr.map (fun v => v.zeroExtend 32)) .clean)

/-- FEED (R418). -/
def execFeed (insn : Word) (ecc : Ecc) (s : State) : Host.Outcome State Fault Refusal := .next (named s 11 (some insn) ecc)

/-- PRIV_ARM (R419). -/
def execPrivArm (mode : BitVec 2) (arm : BitVec 8) (s : State) : Host.Outcome State Fault Refusal :=
  .next (named s 14 (some (wordOf [(arm.toNat, 8), (mode.toNat, 2)])) .clean)

/-- PRIV_GO (R419, R420), `since` after the latest tick: 100 µs after ARM the port is armed no more. -/
def execPrivGo (mode : BitVec 2) (arm : BitVec 8) (since : Word) (s : State) : Host.Outcome State Fault Refusal :=
  let late := decide (s.dbg.armedAt + 100000 < s.nowAt since)
  .next (named (if late then { s with dbg := { s.dbg with armed := none } } else s) 14
    (some (wordOf [(arm.toNat, 8), (mode.toNat, 2), (1, 1)])) .clean)

/-- TEST_ENTRY_DONE (R420). -/
def execTestEntryDone (s : State) : Host.Outcome State Fault Refusal :=
  .next (if s.dbg.testing.isSome ∧ ¬ s.bit F.DBG_STATUS_TESTMODE then clearStores s else s)

end Sys2Proof.Machine
end

