-- ==== Sys2Proof/Machine/I3c.lean ====
section
/-! DEFINITION. The I3C target (R380–R390): common command codes, private transfers, Hot-Join, in-band interrupts. What the target sends
stands in `i3c.out`, the first byte at the head. -/

namespace Sys2Proof.Machine

/-- The target responds (R383, R262): from the end of helm boot, in every power state but OFF, which is to have no power. -/
def State.i3cUp (s : State) : Bool :=
  decide (s.pwr.boot ∈ ([.selfTest, .calibration, .up] : List Boot))

/-- It takes SDR commands: it responds, is not in HDR, and does not wait for the HDR exit pattern (R380). -/
def State.i3cHears (s : State) : Bool := s.i3cUp && !s.i3c.deaf && !s.bit F.HIF_STATUS_HDR

/-- It takes private transfers, in SDR or HDR-DDR, at its dynamic address (R381, R384). -/
def State.i3cPrivate (s : State) : Bool := s.i3cUp && !s.i3c.deaf && s.bit F.HIF_STATUS_DA_VALID

/-- It takes a direct command at its dynamic address. -/
def State.i3cDirect (s : State) : Bool := s.i3cHears && s.bit F.HIF_STATUS_DA_VALID

/-- The target sends bytes. -/
def sendI3c (s : State) (l : List (BitVec 8)) : State := { s with i3c := { s.i3c with out := l } }

/-- The dynamic address is set (R381). -/
def setDa (s : State) (da : BitVec 7) : State :=
  let s := (s.setF F.HIF_STATUS_DA da.toNat).setF F.HIF_STATUS_DA_VALID 1
  { s with i3c := { s.i3c with joinDue := false } }

/-- The bytes of a number of `n` bytes, the most significant first. -/
def beBytes (n v : Nat) : List (BitVec 8) := (bytesOf n v).reverse

/-- PID, BCR and DCR (R381). -/
def State.pid (s : State) : Nat := 0x0352 * 2 ^ 32 + 0xC0 * 2 ^ 16 + s.f F.HIF_PINS_ADDR_SEL * 2 ^ 12 + 1
def bcr : BitVec 8 := 0x26
def dcr : BitVec 8 := 0x00

/-- The status byte (R386). -/
def i3cStatus (s : State) : BitVec 8 :=
  BitVec.ofNat 8 (packKey [(s.f F.HIF_ACC_STAT_RESULT, 3), (s.i3cBusy.toNat, 1), ((decide (s.alertSrc ≠ 0)).toNat, 1),
    ((decide (s.reg R.HIF_IBI_PEND ≠ 0)).toNat, 1)])

/-! ### Common command codes (R382) -/

/-- ENEC (R382): IBI requests are enabled with INT, Hot-Join requests with HJ. -/
def execEnec (int hj : Bool) (s : State) : Host.Outcome State Fault Refusal :=
  .next (
    if ¬ s.i3cHears then s
    else
      let s := if int then s.setF F.HIF_STATUS_INT_EN 1 else s
      if hj then s.setF F.HIF_STATUS_HJ_ENC 1 else s)

/-- DISEC (R382): with INT, IBI requests stop and pending bits stay (R389); with HJ, a Hot-Join is no longer retried (R383). -/
def execDisec (int hj : Bool) (s : State) : Host.Outcome State Fault Refusal :=
  .next (
    if ¬ s.i3cHears then s
    else
      let s := if int then s.setF F.HIF_STATUS_INT_EN 0 else s
      if hj then { s.setF F.HIF_STATUS_HJ_ENC 0 with i3c := { s.i3c with joinDue := false } } else s)

/-- ENTAS0 to ENTAS3: accepted, no effect. -/
def execEntas0 (s : State) : Host.Outcome State Fault Refusal := .next s
def execEntas1 (s : State) : Host.Outcome State Fault Refusal := .next s
def execEntas2 (s : State) : Host.Outcome State Fault Refusal := .next s
def execEntas3 (s : State) : Host.Outcome State Fault Refusal := .next s

/-- RSTDAA: the dynamic address is cleared. -/
def execRstdaa (s : State) : Host.Outcome State Fault Refusal :=
  .next (if ¬ s.i3cHears then s else (s.setF F.HIF_STATUS_DA 0).setF F.HIF_STATUS_DA_VALID 0)

/-- ENTDAA: a target without a dynamic address takes part with PID, BCR and DCR, and is given one. -/
def execEntdaa (da : BitVec 7) (s : State) : Host.Outcome State Fault Refusal :=
  .next (
    if ¬ s.i3cHears ∨ s.bit F.HIF_STATUS_DA_VALID then s
    else setDa (sendI3c s (beBytes 6 s.pid ++ [bcr, dcr])) da)

/-- SETMWL: a larger value acts as 133. -/
def execSetmwl (n : BitVec 16) (s : State) : Host.Outcome State Fault Refusal :=
  .next (if ¬ s.i3cHears then s else { s with i3c := { s.i3c with mwl := if 133 < n.toNat then 133 else n } })

/-- SETMRL: a larger value acts as 128. -/
def execSetmrl (n : BitVec 16) (s : State) : Host.Outcome State Fault Refusal :=
  .next (if ¬ s.i3cHears then s else { s with i3c := { s.i3c with mrl := if 128 < n.toNat then 128 else n } })

/-- ENTHDR0: the bus enters HDR-DDR; a target that does not accept it ignores the bus until the HDR exit pattern (R380). -/
def execEnthdr0 (s : State) : Host.Outcome State Fault Refusal :=
  .next (
    if ¬ s.i3cHears then s
    else if s.bit F.HIF_CTRL_HDR_EN then s.setF F.HIF_STATUS_HDR 1
    else { s with i3c := { s.i3c with deaf := true } })

/-- RSTACT: 0x01 resets the target logic and keeps the dynamic address; 0x02 restarts the helm; others do nothing. -/
def execRstact (b : BitVec 8) (s : State) : Host.Outcome State Fault Refusal :=
  .next (
    if ¬ s.i3cHears then s
    else if b = 0x01 then
      let s := { s with i3c := { ibiDue := s.i3c.ibiDue, joinDue := s.i3c.joinDue } }
      (((s.setF F.HIF_STATUS_INT_EN 1).setF F.HIF_STATUS_HJ_ENC 1).setF F.HIF_ACC_STAT_RESULT 0).setF F.HIF_ACC_STAT_INDEX 0
    else if b = 0x02 then requestPackageReset s 3
    else s)

/-- SETDASA: at the static address, a target without a dynamic address is given one (R381). -/
def execSetdasa (static_ da : BitVec 7) (s : State) : Host.Outcome State Fault Refusal :=
  .next (
    if ¬ s.i3cHears ∨ s.bit F.HIF_STATUS_DA_VALID ∨ static_.toNat ≠ 0x30 + s.f F.HIF_PINS_ADDR_SEL then s
    else setDa s da)

/-- SETNEWDA: the dynamic address is replaced. -/
def execSetnewda (da : BitVec 7) (s : State) : Host.Outcome State Fault Refusal :=
  .next (if s.i3cDirect then setDa s da else s)

/-- GETMWL. -/
def execGetmwl (s : State) : Host.Outcome State Fault Refusal :=
  .next (if s.i3cDirect then sendI3c s (beBytes 2 s.i3c.mwl.toNat) else s)

/-- GETMRL. -/
def execGetmrl (s : State) : Host.Outcome State Fault Refusal :=
  .next (if s.i3cDirect then sendI3c s (beBytes 2 s.i3c.mrl.toNat) else s)

/-- GETPID. -/
def execGetpid (s : State) : Host.Outcome State Fault Refusal := .next (if s.i3cDirect then sendI3c s (beBytes 6 s.pid) else s)

/-- GETBCR. -/
def execGetbcr (s : State) : Host.Outcome State Fault Refusal := .next (if s.i3cDirect then sendI3c s [bcr] else s)

/-- GETDCR. -/
def execGetdcr (s : State) : Host.Outcome State Fault Refusal := .next (if s.i3cDirect then sendI3c s [dcr] else s)

/-- The pending IBI classes. -/
def State.ibiCount (s : State) : Nat := ((List.range 32).filter (fun c => (s.reg R.HIF_IBI_PEND).getLsbD c)).length

/-- GETSTATUS: pending classes, the protocol error, the status byte; the protocol error clears. -/
def execGetstatus (s : State) : Host.Outcome State Fault Refusal :=
  .next (
    if ¬ s.i3cDirect then s
    else
      let w := packKey [(min s.ibiCount 15, 4), (0, 1), (s.i3c.protoErr.toNat, 1), (0, 2), ((i3cStatus s).toNat, 8)]
      sendI3c { s with i3c := { s.i3c with protoErr := false } } (beBytes 2 w))

/-- GETMXDS: no limit. -/
def execGetmxds (s : State) : Host.Outcome State Fault Refusal := .next (if s.i3cDirect then sendI3c s [0, 0] else s)

/-! ### Private transfers (R384–R387) -/

/-- OP of the command byte; 7 where there is none. -/
def opOf (bytes : List (BitVec 8)) : Nat :=
  match bytes with
  | [] => 7
  | b :: _ => b.toNat / 32

/-- N of the command byte. -/
def wordsIn (bytes : List (BitVec 8)) : Nat := (bytes.headD 0).toNat % 32 + 1

/-- A little-endian word of the bytes from `i` on (R4). -/
def wordAt (bytes : List (BitVec 8)) (i : Nat) : Word := BitVec.ofNat 32 (packKey (((bytes.drop i).take 4).map (fun b => (b.toNat, 8))))

/-- The header of a private transfer: NACKed while an access of an earlier one is on the helm bus (R385). -/
def privateHeader (s : State) (f : State → State) : State :=
  if ¬ s.i3cPrivate then s
  else if s.i3cBusy then s.bump F.HIF_ERR_NACKS 1
  else f s

/-- The accesses of a transfer: word j at `addr + 4 j`, or all at `addr`. -/
def transfer (bytes : List (BitVec 8)) (n : Nat) (fixed write : Bool) : List BusAccess :=
  let a := (wordAt bytes 1).toNat
  (List.range n).map (fun j =>
    { addr := BitVec.ofNat 40 ((if fixed then a else a + 4 * j) % 2 ^ 32),
      write := if write then some ((wordAt bytes (5 + 4 * j)).zeroExtend 64) else none, who := .i3c, index := BitVec.ofNat 5 j })

/-- STATUS (R384, R386): the status byte and the word index are sent. -/
def execStatus (s : State) : Host.Outcome State Fault Refusal :=
  .next (privateHeader s (fun s => sendI3c s [i3cStatus s, BitVec.ofNat 8 (s.f F.HIF_ACC_STAT_INDEX)]))

/-- A write of N words (R384, R385): `op` is the command's OP. A write longer than the maximum write length (R382), whose end the target does not
take, is malformed. -/
def writeTransfer (s : State) (bytes : List (BitVec 8)) (op : Nat) : State :=
  let n := wordsIn bytes
  privateHeader s (fun s =>
    if opOf bytes ≠ op ∨ s.i3c.mwl.toNat < bytes.length ∨ bytes.length ≠ 5 + 4 * n ∨ (wordAt bytes 1).toNat % 4 ≠ 0 then malformed s
    else putBus (beginI3c s) (transfer bytes n (op == 2) true))

/-- A write whose OP is reserved, of no bytes, or a STATUS command with bytes after it, is malformed; one of another OP is another command
(R385). -/
def otherOp (bytes : List (BitVec 8)) (op : Nat) : Bool :=
  opOf bytes != op && decide (opOf bytes ≤ 4) && !(opOf bytes == 0 && decide (bytes.length ≠ 1))

/-- I3C_WRITE (R384). -/
def execI3cWrite (bytes : List (BitVec 8)) (s : State) : Host.Outcome State Fault Refusal :=
  .next (if otherOp bytes 1 then s else writeTransfer s bytes 1)

/-- WRITE_FIXED (R384). -/
def execWriteFixed (bytes : List (BitVec 8)) (s : State) : Host.Outcome State Fault Refusal :=
  .next (if otherOp bytes 2 then s else writeTransfer s bytes 2)

/-- A read of N words (R384, R385), of which the controller lets `taken` be read; words that lie beyond the maximum read length are not read
(R382). -/
def readTransfer (s : State) (bytes : List (BitVec 8)) (taken op : Nat) : State :=
  let taken := min taken ((s.i3c.mrl.toNat + 3) / 4)
  privateHeader s (fun s =>
    if opOf bytes ≠ op ∨ s.i3c.mwl.toNat < bytes.length ∨ bytes.length ≠ 5 ∨ (wordAt bytes 1).toNat % 4 ≠ 0 then malformed s
    else putBus (beginI3c s) (transfer bytes (min (wordsIn bytes) taken) (op == 4) false))

/-- A read header after the bytes of a command: after none, after a WRITE or WRITE_FIXED and after a reserved OP, which is a malformed write, it
is NACKed and counted (R385); after the read command of another row it is that row's. -/
def readAfter (s : State) (bytes : List (BitVec 8)) (taken op : Nat) : State :=
  if bytes = [] then privateHeader s protocolError
  else if opOf bytes = 1 ∨ opOf bytes = 2 ∨ 5 ≤ opOf bytes then
    let t := writeTransfer s bytes (if opOf bytes = 2 then 2 else 1)
    if ¬ s.i3cPrivate ∨ s.i3cBusy then t else protocolError t
  else if otherOp bytes op then s
  else readTransfer s bytes taken op

/-- I3C_READ (R384). -/
def execI3cRead (bytes : List (BitVec 8)) (taken : BitVec 6) (s : State) : Host.Outcome State Fault Refusal :=
  .next (readAfter s bytes taken.toNat 3)

/-- READ_FIXED (R384). -/
def execReadFixed (bytes : List (BitVec 8)) (taken : BitVec 6) (s : State) : Host.Outcome State Fault Refusal :=
  .next (readAfter s bytes taken.toNat 4)

/-! ### Hot-Join, IBI, HDR exit (R380, R383, R389) -/

/-- HOT_JOIN (R383): the request is issued or retried; accepted, the target is given a dynamic address. -/
def execHotJoin (ack : Option (BitVec 7)) (s : State) : Host.Outcome State Fault Refusal :=
  .next (
    if ¬ s.i3cHears ∨ ¬ s.i3c.joinDue ∨ s.bit F.HIF_STATUS_DA_VALID ∨ ¬ s.bit F.HIF_CTRL_HJ_EN ∨ ¬ s.bit F.HIF_STATUS_HJ_ENC then s
    else
      match ack with
      | some da => setDa s da
      | none => s)

/-- The lowest class whose IBI is requested. -/
def State.nextIbi (s : State) : Option Nat := (List.range 32).find? (fun c => s.i3c.ibiDue.getLsbD c)

/-- IBI (R389): the lowest class is sent with its class code, LOC and ARG; accepted, it is counted. -/
def execIbi (acked : Bool) (s : State) : Host.Outcome State Fault Refusal :=
  .next (
    if ¬ s.i3cDirect ∨ ¬ s.bit F.HIF_STATUS_INT_EN ∨ ¬ acked then s
    else
      match s.nextIbi with
      | none => s
      | some c =>
        let s := { s with i3c := { s.i3c with ibiDue := setBit s.i3c.ibiDue c false } }
        sendI3c (s.bump F.HIF_IBI_COAL_SENT 1)
          [BitVec.ofNat 8 c, BitVec.ofNat 8 (s.f (F.HIF_IBI_INFO_LOC c)), BitVec.ofNat 8 (s.f (F.HIF_IBI_INFO_ARG c))])

/-- HDR_EXIT_PATTERN (R380). -/
def execHdrExitPattern (s : State) : Host.Outcome State Fault Refusal :=
  .next ({ s with i3c := { s.i3c with deaf := false } }.setF F.HIF_STATUS_HDR 0)

end Sys2Proof.Machine
end

