-- ==== Sys2Proof/Machine/Requests.lean ====
section
/-! DEFINITION. Oxdon requests at their targets and responses at their requesters (R17, R18, R21, R80, R110, R187, R201, R251–R254,
R305, R329, R354, R372, R373, R477, R500). -/

namespace Sys2Proof.Machine

/-- What a target makes of a request: it waits, or it answers with a cause and data (R252). -/
inductive Serve where
  | wait (s : State)
  | done (s : State) (cause : Nat) (data : List Flit)

/-- A request refused with a cause, nothing done. -/
def Serve.refuse (s : State) (cause : Nat) : Serve := .done s cause []

/-- The UNIT is reserved, or names a hub target with a QUAD or RGN (R18). -/
def badUnit (p : Packet) : Bool :=
  let u := nodeUnit p.dest
  (decide (0x17 ≤ u) && decide (u ≤ 0x37)) || decide (0x3C ≤ u) || (decide (0x38 ≤ u) && decide (nodeRgn p.dest ≠ 0))

/-- A request from outside the package, other than to the HIF, PWR and THM blocks, ends an idle time (R432). -/
def noteOutside (s : State) (p : Packet) : State :=
  if nodeCoord p.src ≠ s.f F.FAB_ID_COORD ∧ ¬ admitted p then idleFails s else s

/-- A request to one of the two memories of a region (R17). -/
def memoryUnit (p : Packet) : Bool := !p.isResp && (nodeUnit p.dest == 0x13 || nodeUnit p.dest == 0x14)

/-- The target port of a region, which a request left without having used it, drops its back-port request (R115), unless another one
stands there for the memories. -/
def freePort (s : State) (p : Packet) : State :=
  let rg := nodeRgn p.dest
  if memoryUnit p ∧ ¬ s.arrived.any (fun x => memoryUnit x && nodeRgn x.dest == rg && s.nodeIn rg x.dest) then
    s.onRgn rg (fun r => r.dropRequest 3)
  else s

/-- The request leaves its target: its answer enters the plane where there is room, a posted write that was not performed is counted
(R260, R500). -/
def finish (s : State) (p : Packet) : Serve → State
  | .wait t => t
  | .done t cause data =>
    let t := { t with arrived := t.arrived.erase p }
    let t := if cause = 0 then t else freePort t p
    let el := targetElement p
    if p.posted then (if cause = 0 then t else countPostedAt t el)
    else
      let cmd : BitVec 6 := if cause ≠ 0 then 0x12 else if p.cmd = 1 ∨ p.cmd = 4 then 0x10 else 0x11
      let a := t.answer p cmd cause data
      if s.hasRoom (elemNo el) (ownInput el) a then t.pushNet (elemNo el) (ownInput el) a else s

/-- The absorber stands before the target of a request (R28, R261). -/
def absorbed (s : State) (p : Packet) : Bool := decide (nodeUnit p.dest < 0x17) && (s.rgn (nodeRgn p.dest)).absorbing

/-- A request at its target (R18, R21, R252): the absorber of a region that has been isolated since, a reserved UNIT, the epoch, then the
target's own checks. -/
def serve (s : State) (p : Packet) (own : State → Serve) : State :=
  if p ∉ s.arrived ∨ p.isResp then s
  else if absorbed s p then
    refuseFrom s (fun s => freePort { s with arrived := s.arrived.erase p } p) (.router (nodeRgn p.dest)) p s.absorbCause
  else
    let s' := noteOutside s p
    finish s p (
      if badUnit p then .refuse s' 5
      else if p.epoch ≠ s'.epochAt p.dest then .refuse s' 4
      else own s')

/-! ### Checks of a target -/

/-- The words of a request: 1 to 32 flits, aligned, within `size` bytes (R251). -/
def memoryShape (p : Packet) (size : Nat) : Bool :=
  decide (1 ≤ p.len.toNat) && decide (p.len.toNat ≤ 32) && decide (p.addr.toNat % 8 = 0) &&
    decide (p.addr.toNat + 16 * p.len.toNat ≤ size)

/-- The data flits are those that LEN tells. -/
def whole (p : Packet) : Bool := decide (p.data.length = p.len.toNat)

/-- One aligned register (R251). -/
def registerShape (p : Packet) : Bool := decide (p.len.toNat = 1) && decide (p.addr.toNat % 4 = 0)

/-- ATOMIC (R251): one flit, or two for CAS; an operation that is not reserved; an aligned word within `size` bytes. -/
def atomicOp (p : Packet) : Nat := (bitsAt (p.data.getD 0 0) 125 3 : BitVec 3).toNat

def atomicShape (p : Packet) (size : Nat) : Bool :=
  whole p && decide (atomicOp p ≤ 4) && decide (p.len.toNat = if atomicOp p = 4 then 2 else 1) && decide (p.addr.toNat % 8 = 0) &&
    decide (p.addr.toNat + 8 ≤ size)

/-- An ATOMIC whose first flit is a poison flit does not show its operation (R250): its LEN and ADDR are those of some operation. -/
def atomicHidden (p : Packet) (size : Nat) : Bool :=
  whole p && p.poison.getLsbD 0 && decide (p.len.toNat = 1 ∨ p.len.toNat = 2) && decide (p.addr.toNat % 8 = 0) &&
    decide (p.addr.toNat + 8 ≤ size)

/-- The first word of a flit. -/
def operand (p : Packet) : Entry := bitsAt (p.data.getD 0 0) 0 64

/-- The register data of a write (R251). -/
def regData (p : Packet) : Word := bitsAt (p.data.getD 0 0) 0 32

/-- The region replays, or a retouch of its memory is applied: a network request is refused (R138, R228). -/
def replayRefuses (s : State) (rg : Rg) : Option State :=
  if (s.rgn rg).replaying then some (s.bumpR rg F.DMEM_REFUSED_REPLAY 1) else none

/-- The core that UNIT 0x10–0x12 names. -/
def coreUnit (u : Nat) : CoreNo := ⟨(u - 0x10) % 3, Nat.mod_lt _ (by decide)⟩

/-! ### READ (R251) -/

def palRead (s : State) (p : Packet) (rg : Rg) (c : Cl) : Serve :=
  if p.len.toNat ≠ 1 ∨ p.addr.toNat % 8 ≠ 0 ∨ 8192 ≤ p.addr.toNat then .refuse s 5
  else
    match replayRefuses s rg with
    | some t => .refuse t 1
    | none => if s.paletteOpen rg then .done s 0 [flitOf (readPalette s rg c (p.addr.toNat / 8)) 0] else .refuse s 1

def easelRead (s : State) (p : Packet) (rg : Rg) (k : CoreNo) : Serve :=
  if ¬ memoryShape p 0x30000 then .refuse s 5
  else if s.coresHeld rg then .refuse s 1
  else .done s 0 (flitsOf ((List.range (2 * p.len.toNat)).map (fun i => BitVec.ofNat 64 (easRead s rg k (p.addr.toNat + 8 * i) 8))))

/-- A read of design memory or of the ring, as requester 3 of the back port (R110, R111). -/
def portRead (s : State) (p : Packet) (rg : Rg) (ring : Bool) (e : Ecc) : Serve :=
  if ¬ memoryShape p (if ring then 0x200000 else 0x400000) then .refuse s 5
  else
    match replayRefuses s rg with
    | some t => .refuse t 1
    | none =>
      if ¬ ring ∧ s.dmemHeld rg then .refuse s 1
      else
        match portGives s rg 3 (!ring) (fun s => portReads rg 3 ring (2 * p.len.toNat) s (p.addr.toNat / 8) e) with
        | (t, none) => .wait t
        | (t, some none) => .refuse t 6
        | (t, some (some l)) => .done t 0 (flitsOf l)

/-- The canvas of a region, read only (R187). Q of a cell whose latch clock is active may read as any value (R162). -/
def canvasRead (s : State) (p : Packet) (rg : Rg) : Serve :=
  let a := p.addr.toNat
  if a < 0x1000 then
    if ¬ registerShape p then .refuse s 5
    else
      let x := (s.rgn rg).cell (BitVec.ofNat 10 (a / 4))
      if x.clk then
        let (q, s) := s.draw 16
        .done s 0 [BitVec.ofNat 128 (packKey [(x.acc.toNat, 16), (q.toNat, 16)])]
      else .done s 0 [BitVec.ofNat 128 (packKey [(x.acc.toNat, 16), (x.q.toNat, 16)])]
  else if a < 0x1100 then
    if ¬ registerShape p then .refuse s 5
    else
      let n := (a - 0x1000) / 4
      .done s 0 [BitVec.ofNat 128 ((jepView s rg n).toNat + packKey [(0, 5), ((junctionOut s rg n).toNat, 1), ((junctionIn s rg n).toNat, 1)])]
  else if 0x100000 ≤ a ∧ a < 0x140000 then
    if ¬ memoryShape p 0x140000 then .refuse s 5
    else if s.bit F.CFG_STATUS_ENC ∨ s.bit F.RTC_STATUS_ENC_SEEN then .refuse s 7
    else
      .done s 0 (flitsOf ((List.range (2 * p.len.toNat)).map (fun i =>
        let b := a - 0x100000 + 8 * i
        bitsAt (s.cellCfg rg (BitVec.ofNat 10 (b / 256))) (8 * (b % 256)) 64)))
  else .refuse s 5

/-- A register read over Oxdon (R477): the register in [31:0] of the flit. -/
def answerReg (g : ReadBack) : Serve := if g.sound then .done g.st 0 [g.word.zeroExtend 128] else .refuse g.st 6

def hubRead (s : State) (p : Packet) (a : Nat) (e : Ecc) : Serve :=
  match placeOf a with
  | .hub h =>
    match busTurn s p with
    | some s => answerReg (readHub s { who := .oxdon p.src, ecc := e } h)
    | none => .wait (busPlace s p)
  | _ => .refuse s 5

/-- READ at each unit (R17, R251). -/
def readUnit (s : State) (p : Packet) (e : Ecc) : Serve :=
  let rg := nodeRgn p.dest
  let u := nodeUnit p.dest
  if u < 0x10 then palRead s p rg (BitVec.ofNat 4 u)
  else
    match u with
    | 0x10 | 0x11 | 0x12 => easelRead s p rg (coreUnit u)
    | 0x13 => portRead s p rg false e
    | 0x14 => portRead s p rg true e
    | 0x15 => canvasRead s p rg
    | 0x16 =>
      if ¬ registerShape p ∨ 0x400000 ≤ p.addr.toNat then .refuse s 5
      else
        match ringGiven s (.oxdon p.src) rg p.addr.toNat with
        | some t => .wait t
        | none => answerReg (readRgn s { who := .oxdon p.src, ecc := e } rg p.addr.toNat)
    | 0x38 => if ¬ registerShape p then .refuse s 5 else hubRead s p p.addr.toNat e
    | 0x39 =>
      if ¬ memoryShape p sramSize then .refuse s 5 else .done s 0 (flitsOf (sramReads s (2 * p.len.toNat) p.addr.toNat))
    | 0x3B => if ¬ registerShape p ∨ 0x1000 ≤ p.addr.toNat then .refuse s 5 else hubRead s p (0x90000 + p.addr.toNat) e
    | _ => .refuse s 5

/-- A request command that R251 reserves. -/
def reservedRequest (p : Packet) : Bool :=
  decide (p.cmd.toNat ∉ [1, 2, 3, 4, 5, 6, 0x10, 0x11, 0x12, 0x20, 0x21, 0x22, 0x23])

/-- READ (R251). A request with a reserved CMD is answered ADDRESS_FAULT. -/
def execRead (p : Packet) (ecc : Ecc) (s : State) : Host.Outcome State Fault Refusal :=
  .next (
    if reservedRequest p then serve s p (fun s => .refuse s 5)
    else if p.cmd ≠ 1 then s
    else serve s p (fun s => readUnit s p ecc))

/-! ### WRITE and WRITE_POSTED (R251) -/

def palWrite (s : State) (p : Packet) (rg : Rg) (c : Cl) : Serve :=
  if p.len.toNat ≠ 1 ∨ p.addr.toNat % 8 ≠ 0 ∨ 8 * 1020 ≤ p.addr.toNat then .refuse s 5
  else
    match replayRefuses s rg with
    | some t => .refuse t 1
    | none => if s.paletteOpen rg then .done (writePalette s rg c (p.addr.toNat / 8) 3 (operand p)) 0 [] else .refuse s 1

/-- Program memory is written only while the core is held in reset (R329). -/
def easelWrite (s : State) (p : Packet) (rg : Rg) (k : CoreNo) : Serve :=
  if ¬ memoryShape p 0x30000 then .refuse s 5
  else if s.coresHeld rg then .refuse s 1
  else if p.addr.toNat < 0x10000 ∧ ¬ s.inReset rg k then .refuse s 7
  else
    .done (foldS ((wordsOf p.data).zipIdx) s (fun s x => easWrite s rg k (p.addr.toNat + 8 * x.2) 8 x.1.toNat)) 0 []

def memWrite (s : State) (p : Packet) (rg : Rg) (e : Ecc) : Serve :=
  if ¬ memoryShape p 0x400000 then .refuse s 5
  else
    match replayRefuses s rg with
    | some t => .refuse t 1
    | none =>
      if s.dmemHeld rg then .refuse s 1
      else
        match portGives s rg 3 true (fun s => (portWrites rg 3 (wordsOf p.data) s (p.addr.toNat / 8) e, ())) with
        | (t, none) => .wait t
        | (t, some _) => .done t 0 []

/-- The ring takes no write (R110). -/
def ringWriteRefused (s : State) (rg : Rg) : Serve := .refuse (s.bumpR rg F.DMEM_REFUSED_DENIED 1) 7

def hubWrite (s : State) (p : Packet) (a : Nat) : Serve :=
  match placeOf a with
  | .hub h =>
    if oxdonDenied h (regData p) then .refuse s 7
    else
      match busTurn s p with
      | some s => .done (writeHub s h (regData p) (.oxdon p.src)) 0 []
      | none => .wait (busPlace s p)
  | _ => .refuse s 5

/-- A poisoned request is refused with POISONED, but one whose LEN or ADDR is wrong with ADDRESS_FAULT. -/
def unlessPoisoned (s : State) (p : Packet) (x : Serve) : Serve :=
  if ¬ p.poisoned then x
  else
    match x with
    | .done t 5 d => .done t 5 d
    | _ => .refuse s 6

/-- A write at each unit (R17, R251). -/
def writeUnit (s : State) (p : Packet) (e : Ecc) : Serve :=
  let rg := nodeRgn p.dest
  let u := nodeUnit p.dest
  if ¬ whole p then .refuse s 5
  else unlessPoisoned s p <|
  if u < 0x10 then palWrite s p rg (BitVec.ofNat 4 u)
  else
    match u with
    | 0x10 | 0x11 | 0x12 => easelWrite s p rg (coreUnit u)
    | 0x13 => memWrite s p rg e
    | 0x14 =>
      if ¬ memoryShape p 0x200000 then .refuse s 5
      else
        match replayRefuses s rg with
        | some t => .refuse t 1
        | none => ringWriteRefused s rg
    | 0x15 => .refuse s 7
    | 0x16 =>
      if ¬ registerShape p ∨ 0x400000 ≤ p.addr.toNat then .refuse s 5
      else .done (writeRgn s rg p.addr.toNat (regData p) (.oxdon p.src)) 0 []
    | 0x38 => if ¬ registerShape p then .refuse s 5 else hubWrite s p p.addr.toNat
    | 0x39 => if ¬ memoryShape p sramSize then .refuse s 5 else .done (sramWrites (wordsOf p.data) s p.addr.toNat) 0 []
    | 0x3B => if ¬ registerShape p ∨ 0x1000 ≤ p.addr.toNat then .refuse s 5 else hubWrite s p (0x90000 + p.addr.toNat)
    | _ => .refuse s 5

/-- WRITE (R251). -/
def execWrite (p : Packet) (ecc : Ecc) (s : State) : Host.Outcome State Fault Refusal :=
  .next (if p.cmd ≠ 2 then s else serve s p (fun s => writeUnit s p ecc))

/-- The semaphores take READ and WRITE alone (R373). -/
def postedUnit (s : State) (p : Packet) (e : Ecc) : Serve := if nodeUnit p.dest = 0x3B then .refuse s 5 else writeUnit s p e

/-- WRITE_POSTED (R251, R500): one that is not performed is dropped and counted. -/
def execWritePosted (p : Packet) (ecc : Ecc) (s : State) : Host.Outcome State Fault Refusal :=
  .next (if p.cmd ≠ 3 then s else serve s p (fun s => postedUnit s p ecc))

/-! ### ATOMIC (R251, R111) -/

/-- The old word of design memory, and the write of the new one: one access. -/
def memAtomic (s : State) (p : Packet) (rg : Rg) (e : Ecc) : Serve :=
  let a := p.addr.toNat / 8
  if ¬ atomicShape p 0x400000 then .refuse s 5
  else
    match replayRefuses s rg with
    | some t => .refuse t 1
    | none =>
      if s.dmemHeld rg then .refuse s 1
      else
        let run (s : State) : State × Option Entry :=
          if (s.rgn rg).checked (dmemKey a) e == .uncorrectable then backRead s rg 3 false a e
          else
            let old := SMap.get 0 (s.rgn rg).dmem a
            let cmp : Entry := bitsAt (p.data.getD 1 0) 0 64
            if atomicOp p = 4 ∧ old ≠ cmp then backRead s rg 3 false a e
            else (portWrite s rg 3 a 0xFF (atomicOf (atomicOp p) old (operand p) cmp) e, some old)
        match portGives s rg 3 true run with
        | (t, none) => .wait t
        | (t, some none) => .refuse t 6
        | (t, some (some old)) => .done t 0 [flitOf old 0]

def sramAtomic (s : State) (p : Packet) (e : Ecc) : Serve :=
  if ¬ atomicShape p sramSize then .refuse s 5
  else if e == .uncorrectable then .refuse s 6
  else
    let a := p.addr.toNat
    let old : Entry := BitVec.ofNat 64 (Mem.read s.sram a 8)
    let new := atomicOf (atomicOp p) old (operand p) (bitsAt (p.data.getD 1 0) 0 64)
    .done { s with sram := Mem.write s.sram a 8 new.toNat } 0 [flitOf old 0]

/-- ATOMIC at each unit (R80, R110, R187, R251, R329, R373). -/
def atomicUnit (s : State) (p : Packet) (e : Ecc) : Serve :=
  let rg := nodeRgn p.dest
  let hidden : Bool := match nodeUnit p.dest with
    | 0x13 => atomicHidden p 0x400000
    | 0x14 => atomicHidden p 0x200000
    | 0x39 => atomicHidden p sramSize
    | _ => false
  if hidden then .refuse s 6
  else unlessPoisoned s p <|
    match nodeUnit p.dest with
    | 0x13 => memAtomic s p rg e
    | 0x14 => if ¬ atomicShape p 0x200000 then .refuse s 5 else
        match replayRefuses s rg with
        | some t => .refuse t 1
        | none => ringWriteRefused s rg
    | 0x15 => .refuse s 7
    | 0x39 => sramAtomic s p e
    | _ => .refuse s 5

def execAtomic (p : Packet) (ecc : Ecc) (s : State) : Host.Outcome State Fault Refusal :=
  .next (if p.cmd ≠ 4 then s else serve s p (fun s => atomicUnit s p ecc))

/-! ### MESSAGE (R354, R372) -/

/-- The words of an item, the first marked, with those whose parity will fail. -/
def itemOf (fs : List Flit) (bad : BitVec 64) : List MbWord :=
  ((fs.flatMap (fun f => (List.range 4).map (fun j => bitsAt f (32 * j) 32))).zipIdx).map (fun x => ⟨x.1, decide (x.2 = 0), bad.getLsbD x.2⟩)

/-- A MESSAGE to an inbound mailbox. -/
def takeMessage (s : State) (p : Packet) (rg : Rg) (k : CoreNo) (fate : MessageFate) : Serve :=
  let n := p.len.toNat
  let e := s.eas rg k
  let busy (s : State) : State := s.bumpR rg (F.EAS_COUNTS_MB_REFUSED k.val) 1
  if p.addr.toNat ≠ 0x30000 ∨ ¬ whole p ∨ n = 0 then .refuse s 5
  else if 16 < n then .refuse (busy s) 5
  else if p.poisoned then .refuse s 6
  else if s.coresHeld rg then .refuse s 1
  else if 64 < e.mbin.length + 4 * n then .refuse (busy s) 1
  else if fate.cut then
    .refuse ((s.onRgn rg (fun r => (r.setEas k { e with mbin := [], mbinCut := true }).showMail k)).setRf rg
      (F.EAS_MBIN_STAT_ABANDONED k.val) 1) 1
  else .done (s.onRgn rg (fun r => (r.setEas k { e with mbin := e.mbin ++ itemOf p.data fate.bad, mbinCut := false }).showMail k)) 0 []

/-- MESSAGE (R354): at a unit that has no mailbox it is answered ADDRESS_FAULT (R80, R187, R329, R373). -/
def execMessage (p : Packet) (fate : MessageFate) (s : State) : Host.Outcome State Fault Refusal :=
  .next (
    if p.cmd ≠ 5 then s
    else serve s p (fun s =>
      match nodeUnit p.dest with
      | 0x10 => takeMessage s p (nodeRgn p.dest) 0 fate
      | 0x11 => takeMessage s p (nodeRgn p.dest) 1 fate
      | 0x12 => takeMessage s p (nodeRgn p.dest) 2 fate
      | _ => .refuse s 5))

/-! ### FRAME_WRITE and TICK -/

/-- FRAME_WRITE (R200, R201, R223) to the loader. -/
def execFrameWrite (p : Packet) (s : State) : Host.Outcome State Fault Refusal :=
  .next (
    if p.cmd ≠ 6 then s
    else serve s p (fun s =>
      if nodeUnit p.dest ≠ 0x3A ∨ ¬ whole p ∨ p.len.toNat = 0 ∨ 32 < p.len.toNat ∨ p.addr.toNat % 16 ≠ 0 then .refuse s 5
      else if p.poisoned then .refuse s 6
      else
        let (t, cause) := offerFrame s p.src p.addr.toNat (p.data.flatMap (fun f => (List.range 4).map (fun j => bitsAt f (32 * j) 32)))
        .done t (cause.getD 0) []))

/-- TICK (R305): the tick count, whether it is reckoned, and the time since that tick. No epoch is checked (R21). -/
def execTick (p : Packet) (since : Word) (s : State) : Host.Outcome State Fault Refusal :=
  .next (
    if p.cmd ≠ 0x20 ∨ p ∉ s.arrived ∨ p.isResp then s
    else if absorbed s p then refuseFrom s (fun s => { s with arrived := s.arrived.erase p }) (.router (nodeRgn p.dest)) p s.absorbCause
    else
      let s' := noteOutside s p
      let t := { s' with arrived := s'.arrived.erase p }
      let reckoned := decide (s.merState = 4) || decide (s.merState = 5)
      let el := targetElement p
      let a :=
        if badUnit p ∨ nodeUnit p.dest ≠ 0x38 ∨ p.len.toNat ≠ 0 then t.answer p 0x12 5 []
        else t.answer p 0x10 0 [BitVec.ofNat 128 (packKey [(s.mer.tick.toNat, 48), (reckoned.toNat, 1), (0, 15), (since.toNat, 32)])]
      if s.hasRoom (elemNo el) (ownInput el) a then t.pushNet (elemNo el) (ownInput el) a else s)

/-! ### Responses (R252–R254) -/

/-- A response at its requester (R254): discarded where its TAG does not carry the requester's epoch or names no outstanding request;
else the tag is free, and a packet engine ends its request (R353). -/
def takeResponse (s : State) (p : Packet) (cause : Nat) (data : List Flit) : State :=
  if p ∉ s.arrived then s
  else
    let s := { s with arrived := s.arrived.erase p }
    let n := p.dest
    let key := tagKey n (p.tag.toNat % 128)
    if p.tag.toNat / 128 ≠ (s.epochAt n).toNat % 8 ∨ ¬ SMap.get false s.tags key then
      if nodeUnit n < 0x17 then s.bumpR (nodeRgn n) F.NOC_DROP_LATE_RESP 1 else s
    else
      let s := { s with tags := SMap.set false s.tags key false }
      match coreOf n with
      | some k => endPkt s (nodeRgn n) k (p.tag.toNat % 128) cause p.poisoned data
      | none => s

/-- RESP_DATA (R254). -/
def execRespData (p : Packet) (s : State) : Host.Outcome State Fault Refusal :=
  .next (if p.cmd ≠ 0x10 then s else takeResponse s p 0 p.data)

/-- RESP_ACK (R254). -/
def execRespAck (p : Packet) (s : State) : Host.Outcome State Fault Refusal :=
  .next (if p.cmd ≠ 0x11 then s else takeResponse s p 0 [])

/-- RESP_ERROR (R252): the request ends with its cause. A response with a reserved CMD is discarded and counted (R251). -/
def execRespError (p : Packet) (s : State) : Host.Outcome State Fault Refusal :=
  .next (
    if p.cmd = 0x12 then takeResponse s p (p.addr.toNat % 16) []
    else if p.isResp ∧ p ∈ s.arrived ∧ p.cmd ≠ 0x10 ∧ p.cmd ≠ 0x11 then
      let s := { s with arrived := s.arrived.erase p }
      if nodeUnit p.dest < 0x17 then s.bumpR (nodeRgn p.dest) F.NOC_DROP_HDR_DROP 1 else s
    else s)

end Sys2Proof.Machine
end

