-- ==== Sys2Proof/Machine/Dispatch.lean ====
section
/-! DEFINITION. Which meaning each command has: one arm per constructor of `Instr`. -/

namespace Sys2Proof.Machine

def exec (i : Instr) (s : State) : Host.Outcome State Fault Refusal :=
  match i with
  | .powerOn => Sys2Proof.Machine.execPowerOn s
  | .supplyLoss rail => Sys2Proof.Machine.execSupplyLoss rail s
  | .resetN cool => Sys2Proof.Machine.execResetN cool s
  | .resetNRelease profSel addrSel lodestar => Sys2Proof.Machine.execResetNRelease profSel addrSel lodestar s
  | .bootEnd secondCopy fwVersion => Sys2Proof.Machine.execBootEnd secondCopy fwVersion s
  | .startupBistEnd fails => Sys2Proof.Machine.execStartupBistEnd fails s
  | .calibrationEnd => Sys2Proof.Machine.execCalibrationEnd s
  | .helmRestart => Sys2Proof.Machine.execHelmRestart s
  | .regionReset rg => Sys2Proof.Machine.execRegionReset rg s
  | .isolate rg => Sys2Proof.Machine.execIsolate rg s
  | .release rg => Sys2Proof.Machine.execRelease rg s
  | .neighbourDrainEnd sc => Sys2Proof.Machine.execNeighbourDrainEnd sc s
  | .regionWatchdog rg grant => Sys2Proof.Machine.execRegionWatchdog rg grant s
  | .referenceEdges => Sys2Proof.Machine.execReferenceEdges s
  | .lock meanPeriod => Sys2Proof.Machine.execLock meanPeriod s
  | .mark count parityOk mean => Sys2Proof.Machine.execMark count parityOk mean s
  | .realignSlewStep => Sys2Proof.Machine.execRealignSlewStep s
  | .loss => Sys2Proof.Machine.execLoss s
  | .src v => Sys2Proof.Machine.execSrc v s
  | .merTickRead => Sys2Proof.Machine.execMerTickRead s
  | .tickFrameSend count => Sys2Proof.Machine.execTickFrameSend count s
  | .tickFrame p f => Sys2Proof.Machine.execTickFrame p f s
  | .tickMiss p => Sys2Proof.Machine.execTickMiss p s
  | .jobStart j => Sys2Proof.Machine.execJobStart j s
  | .cycleComplete rg phase => Sys2Proof.Machine.execCycleComplete rg phase s
  | .boundaryPass rg par => Sys2Proof.Machine.execBoundaryPass rg par s
  | .minFixSpacing rg => Sys2Proof.Machine.execMinFixSpacing rg s
  | .fixOverheadEnd rg => Sys2Proof.Machine.execFixOverheadEnd rg s
  | .ewinExpiry rg => Sys2Proof.Machine.execEwinExpiry rg s
  | .minRestart rg => Sys2Proof.Machine.execMinRestart rg s
  | .hold j => Sys2Proof.Machine.execHold j s
  | .resume j => Sys2Proof.Machine.execResume j s
  | .resumeTick j => Sys2Proof.Machine.execResumeTick j s
  | .rearm j => Sys2Proof.Machine.execRearm j s
  | .loopInterval => Sys2Proof.Machine.execLoopInterval s
  | .budgetWindow q => Sys2Proof.Machine.execBudgetWindow q s
  | .strokeBegin rg c stallNs endAt flaw => Sys2Proof.Machine.execStrokeBegin rg c stallNs endAt flaw s
  | .nop rg c b upset => Sys2Proof.Machine.execNop rg c b upset s
  | .eval rg c b upset => Sys2Proof.Machine.execEval rg c b upset s
  | .evalS rg c b upset => Sys2Proof.Machine.execEvalS rg c b upset s
  | .reservedOp rg c b upset => Sys2Proof.Machine.execReservedOp rg c b upset s
  | .send rg c upset table_ => Sys2Proof.Machine.execSend rg c upset table_ s
  | .injectionTake rg c waitNs => Sys2Proof.Machine.execInjectionTake rg c waitNs s
  | .memrd rg c upset => Sys2Proof.Machine.execMemrd rg c upset s
  | .memwr rg c upset => Sys2Proof.Machine.execMemwr rg c upset s
  | .frontPortTake rg waitNs undoNs table_ => Sys2Proof.Machine.execFrontPortTake rg waitNs undoNs table_ s
  | .memrdData rg ecc => Sys2Proof.Machine.execMemrdData rg ecc s
  | .memwrPerformed rg ecc => Sys2Proof.Machine.execMemwrPerformed rg ecc s
  | .jpost rg c upset => Sys2Proof.Machine.execJpost rg c upset s
  | .jpostAck rg c waitNs => Sys2Proof.Machine.execJpostAck rg c waitNs s
  | .junctionDeliver rg c j => Sys2Proof.Machine.execJunctionDeliver rg c j s
  | .probe rg c upset => Sys2Proof.Machine.execProbe rg c upset s
  | .traceWriterTake rg c waitNs => Sys2Proof.Machine.execTraceWriterTake rg c waitNs s
  | .haltif rg c upset => Sys2Proof.Machine.execHaltif rg c upset s
  | .endStroke rg c upset cycleNs => Sys2Proof.Machine.execEndStroke rg c upset cycleNs s
  | .longStall rg c => Sys2Proof.Machine.execLongStall rg c s
  | .headerFlitRoute rg inp vc upset data table_ => Sys2Proof.Machine.execHeaderFlitRoute rg inp vc upset data table_ s
  | .switchRoute el inp vc upset data => Sys2Proof.Machine.execSwitchRoute el inp vc upset data s
  | .requestInject p waitNs => Sys2Proof.Machine.execRequestInject p waitNs s
  | .injectionTimeout p at_ => Sys2Proof.Machine.execInjectionTimeout p at_ s
  | .responseTimeout node tag => Sys2Proof.Machine.execResponseTimeout node tag s
  | .noProgress el inp vc => Sys2Proof.Machine.execNoProgress el inp vc s
  | .read p ecc => Sys2Proof.Machine.execRead p ecc s
  | .write p ecc => Sys2Proof.Machine.execWrite p ecc s
  | .writePosted p ecc => Sys2Proof.Machine.execWritePosted p ecc s
  | .atomic p ecc => Sys2Proof.Machine.execAtomic p ecc s
  | .message p cut => Sys2Proof.Machine.execMessage p cut s
  | .frameWrite p => Sys2Proof.Machine.execFrameWrite p s
  | .respData p => Sys2Proof.Machine.execRespData p s
  | .respAck p => Sys2Proof.Machine.execRespAck p s
  | .respError p => Sys2Proof.Machine.execRespError p s
  | .tick p since => Sys2Proof.Machine.execTick p since s
  | .bundleForward el inp par data table_ tagVote waitNs => Sys2Proof.Machine.execBundleForward el inp par data table_ tagVote waitNs s
  | .bundleAccept rg par fromRing table_ flagErr waitNs => Sys2Proof.Machine.execBundleAccept rg par fromRing table_ flagErr waitNs s
  | .ovrSwap rg => Sys2Proof.Machine.execOvrSwap rg s
  | .swapDrained rg => Sys2Proof.Machine.execSwapDrained rg s
  | .drainLimit rg => Sys2Proof.Machine.execDrainLimit rg s
  | .ovrCopy rg => Sys2Proof.Machine.execOvrCopy rg s
  | .d2dSparing q l wire rx => Sys2Proof.Machine.execD2dSparing q l wire rx s
  | .d2dRetrain q l => Sys2Proof.Machine.execD2dRetrain q l s
  | .d2dTrained q l passed => Sys2Proof.Machine.execD2dTrained q l passed s
  | .arbiterRound rg first waitNs => Sys2Proof.Machine.execArbiterRound rg first waitNs s
  | .undo rg => Sys2Proof.Machine.execUndo rg s
  | .bin rg => Sys2Proof.Machine.execBin rg s
  | .trace rg => Sys2Proof.Machine.execTrace rg s
  | .snapx rg => Sys2Proof.Machine.execSnapx rg s
  | .marker rg => Sys2Proof.Machine.execMarker rg s
  | .gap rg => Sys2Proof.Machine.execGap rg s
  | .rewind rg errs => Sys2Proof.Machine.execRewind rg errs s
  | .restoreDone j => Sys2Proof.Machine.execRestoreDone j s
  | .rwdRelease rg => Sys2Proof.Machine.execRwdRelease rg s
  | .replayArm rg => Sys2Proof.Machine.execReplayArm rg s
  | .recEn rg v => Sys2Proof.Machine.execRecEn rg v s
  | .cnvPass rg n => Sys2Proof.Machine.execCnvPass rg n s
  | .cnvAdd rg n => Sys2Proof.Machine.execCnvAdd rg n s
  | .cnvSub rg n => Sys2Proof.Machine.execCnvSub rg n s
  | .cnvAnd rg n => Sys2Proof.Machine.execCnvAnd rg n s
  | .cnvOr rg n => Sys2Proof.Machine.execCnvOr rg n s
  | .cnvXor rg n => Sys2Proof.Machine.execCnvXor rg n s
  | .cnvShift rg n => Sys2Proof.Machine.execCnvShift rg n s
  | .cnvCmp rg n => Sys2Proof.Machine.execCnvCmp rg n s
  | .cnvMux rg n => Sys2Proof.Machine.execCnvMux rg n s
  | .cnvAcc rg n => Sys2Proof.Machine.execCnvAcc rg n s
  | .cnvLut rg n => Sys2Proof.Machine.execCnvLut rg n s
  | .cnvFork rg n => Sys2Proof.Machine.execCnvFork rg n s
  | .cnvJoin rg n => Sys2Proof.Machine.execCnvJoin rg n s
  | .cnvMerge rg n pickB => Sys2Proof.Machine.execCnvMerge rg n pickB s
  | .cnvSteer rg n => Sys2Proof.Machine.execCnvSteer rg n s
  | .cnvReservedOpc rg n => Sys2Proof.Machine.execCnvReservedOpc rg n s
  | .fight rg sg => Sys2Proof.Machine.execFight rg sg s
  | .fightClear rg => Sys2Proof.Machine.execFightClear rg s
  | .fioInputToken rg n_ uio samples => Sys2Proof.Machine.execFioInputToken rg n_ uio samples s
  | .levelRequest rg n_ uio level => Sys2Proof.Machine.execLevelRequest rg n_ uio level s
  | .fioOutputToken rg n_ uio => Sys2Proof.Machine.execFioOutputToken rg n_ uio s
  | .enableToken rg n_ uio => Sys2Proof.Machine.execEnableToken rg n_ uio s
  | .fioDly rg n_ idelay odelay clocked => Sys2Proof.Machine.execFioDly rg n_ idelay odelay clocked s
  | .ioSupplyMismatch q uio => Sys2Proof.Machine.execIoSupplyMismatch q uio s
  | .retouchEndpointToken rg => Sys2Proof.Machine.execRetouchEndpointToken rg s
  | .cfgFifo w => Sys2Proof.Machine.execCfgFifo w s
  | .partition => Sys2Proof.Machine.execPartition s
  | .canvas => Sys2Proof.Machine.execCanvas s
  | .stroke => Sys2Proof.Machine.execStroke s
  | .palette => Sys2Proof.Machine.execPalette s
  | .dmem => Sys2Proof.Machine.execDmem s
  | .easel => Sys2Proof.Machine.execEasel s
  | .slot => Sys2Proof.Machine.execSlot s
  | .routeOvr => Sys2Proof.Machine.execRouteOvr s
  | .region => Sys2Proof.Machine.execRegion s
  | .library => Sys2Proof.Machine.execLibrary s
  | .settings => Sys2Proof.Machine.execSettings s
  | .signature => Sys2Proof.Machine.execSignature s
  | .finishingEnd => Sys2Proof.Machine.execFinishingEnd s
  | .loadTimeout => Sys2Proof.Machine.execLoadTimeout s
  | .abort => Sys2Proof.Machine.execAbort s
  | .doneHigh => Sys2Proof.Machine.execDoneHigh s
  | .start p port => Sys2Proof.Machine.execStart p port s
  | .startCmd v => Sys2Proof.Machine.execStartCmd v s
  | .groundLoad slot => Sys2Proof.Machine.execGroundLoad slot s
  | .groundWrite slot => Sys2Proof.Machine.execGroundWrite slot s
  | .groundCommit => Sys2Proof.Machine.execGroundCommit s
  | .groundErase slot => Sys2Proof.Machine.execGroundErase slot s
  | .groundRefresh slot => Sys2Proof.Machine.execGroundRefresh slot s
  | .unwrap slot => Sys2Proof.Machine.execUnwrap slot s
  | .keyErase slot => Sys2Proof.Machine.execKeyErase slot s
  | .keyEraseAll => Sys2Proof.Machine.execKeyEraseAll s
  | .program by_ slot arm => Sys2Proof.Machine.execProgram by_ slot arm s
  | .revoke by_ slot arm => Sys2Proof.Machine.execRevoke by_ slot arm s
  | .partialCheck => Sys2Proof.Machine.execPartialCheck s
  | .partialTimeout => Sys2Proof.Machine.execPartialTimeout s
  | .holdWait => Sys2Proof.Machine.execHoldWait s
  | .apply => Sys2Proof.Machine.execApply s
  | .clampForce => Sys2Proof.Machine.execClampForce s
  | .rtcAbort => Sys2Proof.Machine.execRtcAbort s
  | .readback kind rg => Sys2Proof.Machine.execReadback kind rg s
  | .readbackReady => Sys2Proof.Machine.execReadbackReady s
  | .scrubFrame rg eccs vote since => Sys2Proof.Machine.execScrubFrame rg eccs vote since s
  | .scrubMemStep rg eccs vote => Sys2Proof.Machine.execScrubMemStep rg eccs vote s
  | .detectEnd p => Sys2Proof.Machine.execDetectEnd p s
  | .trainEnd p words okTx => Sys2Proof.Machine.execTrainEnd p words okTx s
  | .lockEnd p words okTx precode => Sys2Proof.Machine.execLockEnd p words okTx precode s
  | .calibEnd p peerResume peerExp delay => Sys2Proof.Machine.execCalibEnd p peerResume peerExp delay s
  | .trainingTimeout p => Sys2Proof.Machine.execTrainingTimeout p s
  | .lnkRetrain p => Sys2Proof.Machine.execLnkRetrain p s
  | .lnkEn p v => Sys2Proof.Machine.execLnkEn p v s
  | .frameSend p since waits => Sys2Proof.Machine.execFrameSend p since waits s
  | .idle p f cw => Sys2Proof.Machine.execIdle p f cw s
  | .sched p f cw => Sys2Proof.Machine.execSched p f cw s
  | .ctrl p f a => Sys2Proof.Machine.execCtrl p f a s
  | .pktFrame p f cw => Sys2Proof.Machine.execPktFrame p f cw s
  | .pktPoison p f cw => Sys2Proof.Machine.execPktPoison p f cw s
  | .replayTimeout p => Sys2Proof.Machine.execReplayTimeout p s
  | .laneFault p lane => Sys2Proof.Machine.execLaneFault p lane s
  | .laneSwitch p => Sys2Proof.Machine.execLaneSwitch p s
  | .slotSwap p => Sys2Proof.Machine.execSlotSwap p s
  | .slotCopy p => Sys2Proof.Machine.execSlotCopy p s
  | .discoverSend p => Sys2Proof.Machine.execDiscoverSend p s
  | .discover p m => Sys2Proof.Machine.execDiscover p m s
  | .settled => Sys2Proof.Machine.execSettled s
  | .sweep => Sys2Proof.Machine.execSweep s
  | .fabricResetCmd => Sys2Proof.Machine.execFabricResetCmd s
  | .fabricReset p port upFor1ms => Sys2Proof.Machine.execFabricReset p port upFor1ms s
  | .fabricResetTimer => Sys2Proof.Machine.execFabricResetTimer s
  | .easNop rg k => Sys2Proof.Machine.execEasNop rg k s
  | .easAdd rg k => Sys2Proof.Machine.execEasAdd rg k s
  | .easSub rg k => Sys2Proof.Machine.execEasSub rg k s
  | .easAnd rg k => Sys2Proof.Machine.execEasAnd rg k s
  | .easOr rg k => Sys2Proof.Machine.execEasOr rg k s
  | .easXor rg k => Sys2Proof.Machine.execEasXor rg k s
  | .easShl rg k => Sys2Proof.Machine.execEasShl rg k s
  | .easShr rg k => Sys2Proof.Machine.execEasShr rg k s
  | .easShra rg k => Sys2Proof.Machine.execEasShra rg k s
  | .easCmp rg k => Sys2Proof.Machine.execEasCmp rg k s
  | .easAddi rg k => Sys2Proof.Machine.execEasAddi rg k s
  | .easAndi rg k => Sys2Proof.Machine.execEasAndi rg k s
  | .easOri rg k => Sys2Proof.Machine.execEasOri rg k s
  | .easXori rg k => Sys2Proof.Machine.execEasXori rg k s
  | .easLdi rg k => Sys2Proof.Machine.execEasLdi rg k s
  | .easCmpi rg k => Sys2Proof.Machine.execEasCmpi rg k s
  | .easMvs rg k => Sys2Proof.Machine.execEasMvs rg k s
  | .easMsv rg k => Sys2Proof.Machine.execEasMsv rg k s
  | .easMul rg k => Sys2Proof.Machine.execEasMul rg k s
  | .easMacld rg k => Sys2Proof.Machine.execEasMacld rg k s
  | .easAcc rg k => Sys2Proof.Machine.execEasAcc rg k s
  | .easExt rg k => Sys2Proof.Machine.execEasExt rg k s
  | .easLd rg k => Sys2Proof.Machine.execEasLd rg k s
  | .easSt rg k => Sys2Proof.Machine.execEasSt rg k s
  | .easLdd rg k => Sys2Proof.Machine.execEasLdd rg k s
  | .easStd rg k => Sys2Proof.Machine.execEasStd rg k s
  | .easPal rg k => Sys2Proof.Machine.execEasPal rg k s
  | .easBpa rg k ecc undoNs => Sys2Proof.Machine.execEasBpa rg k ecc undoNs s
  | .easMbrd rg k => Sys2Proof.Machine.execEasMbrd rg k s
  | .easMbwr rg k => Sys2Proof.Machine.execEasMbwr rg k s
  | .easBr rg k => Sys2Proof.Machine.execEasBr rg k s
  | .easCall rg k => Sys2Proof.Machine.execEasCall rg k s
  | .easRet rg k => Sys2Proof.Machine.execEasRet rg k s
  | .easReti rg k => Sys2Proof.Machine.execEasReti rg k s
  | .easLoop rg k => Sys2Proof.Machine.execEasLoop rg k s
  | .easRelfix rg k => Sys2Proof.Machine.execEasRelfix rg k s
  | .easWait rg k => Sys2Proof.Machine.execEasWait rg k s
  | .easKick rg k => Sys2Proof.Machine.execEasKick rg k s
  | .easPkt rg k => Sys2Proof.Machine.execEasPkt rg k s
  | .easBrk rg k => Sys2Proof.Machine.execEasBrk rg k s
  | .interrupt rg k => Sys2Proof.Machine.execInterrupt rg k s
  | .easelWatchdog rg k => Sys2Proof.Machine.execEaselWatchdog rg k s
  | .coreReset rg k => Sys2Proof.Machine.execCoreReset rg k s
  | .holdRst rg k v => Sys2Proof.Machine.execHoldRst rg k v s
  | .mbinFlush rg k => Sys2Proof.Machine.execMbinFlush rg k s
  | .mboutFlush rg k => Sys2Proof.Machine.execMboutFlush rg k s
  | .mbinFirst rg k w bad => Sys2Proof.Machine.execMbinFirst rg k w bad s
  | .mbinNext rg k w bad => Sys2Proof.Machine.execMbinNext rg k w bad s
  | .mbout rg k bad => Sys2Proof.Machine.execMbout rg k bad s
  | .patchWrite rg k u word v by_ => Sys2Proof.Machine.execPatchWrite rg k u word v by_ s
  | .easWdog rg k limit => Sys2Proof.Machine.execEasWdog rg k limit s
  | .busWatchdog => Sys2Proof.Machine.execBusWatchdog s
  | .helmBusAccess => Sys2Proof.Machine.execHelmBusAccess s
  | .take n who => Sys2Proof.Machine.execTake n who s
  | .semRelease n who => Sys2Proof.Machine.execSemRelease n who s
  | .holdLimit n => Sys2Proof.Machine.execHoldLimit n s
  | .enec int hj => Sys2Proof.Machine.execEnec int hj s
  | .disec int hj => Sys2Proof.Machine.execDisec int hj s
  | .entas0 => Sys2Proof.Machine.execEntas0 s
  | .entas1 => Sys2Proof.Machine.execEntas1 s
  | .entas2 => Sys2Proof.Machine.execEntas2 s
  | .entas3 => Sys2Proof.Machine.execEntas3 s
  | .rstdaa => Sys2Proof.Machine.execRstdaa s
  | .entdaa da => Sys2Proof.Machine.execEntdaa da s
  | .setmwl n => Sys2Proof.Machine.execSetmwl n s
  | .setmrl n => Sys2Proof.Machine.execSetmrl n s
  | .enthdr0 => Sys2Proof.Machine.execEnthdr0 s
  | .rstact b => Sys2Proof.Machine.execRstact b s
  | .setdasa static_ da => Sys2Proof.Machine.execSetdasa static_ da s
  | .setnewda da => Sys2Proof.Machine.execSetnewda da s
  | .getmwl => Sys2Proof.Machine.execGetmwl s
  | .getmrl => Sys2Proof.Machine.execGetmrl s
  | .getpid => Sys2Proof.Machine.execGetpid s
  | .getbcr => Sys2Proof.Machine.execGetbcr s
  | .getdcr => Sys2Proof.Machine.execGetdcr s
  | .getstatus => Sys2Proof.Machine.execGetstatus s
  | .getmxds => Sys2Proof.Machine.execGetmxds s
  | .status => Sys2Proof.Machine.execStatus s
  | .i3cWrite bytes => Sys2Proof.Machine.execI3cWrite bytes s
  | .writeFixed bytes => Sys2Proof.Machine.execWriteFixed bytes s
  | .i3cRead bytes taken => Sys2Proof.Machine.execI3cRead bytes taken s
  | .readFixed bytes taken => Sys2Proof.Machine.execReadFixed bytes taken s
  | .hotJoin ack => Sys2Proof.Machine.execHotJoin ack s
  | .ibi acked => Sys2Proof.Machine.execIbi acked s
  | .outSet mask by_ => Sys2Proof.Machine.execOutSet mask by_ s
  | .outClr mask by_ => Sys2Proof.Machine.execOutClr mask by_ s
  | .funcChange v by_ => Sys2Proof.Machine.execFuncChange v by_ s
  | .parkEnd n_ => Sys2Proof.Machine.execParkEnd n_ s
  | .pinInterrupt line edge_ => Sys2Proof.Machine.execPinInterrupt line edge_ s
  | .wakeInput k level => Sys2Proof.Machine.execWakeInput k level s
  | .uartDataWrite b by_ => Sys2Proof.Machine.execUartDataWrite b by_ s
  | .uartDataRead => Sys2Proof.Machine.execUartDataRead s
  | .uartRx b frameErr => Sys2Proof.Machine.execUartRx b frameErr s
  | .spiData b holdCs by_ => Sys2Proof.Machine.execSpiData b holdCs by_ s
  | .capture falling => Sys2Proof.Machine.execCapture falling s
  | .captureRead => Sys2Proof.Machine.execCaptureRead s
  | .wakeSequence => Sys2Proof.Machine.execWakeSequence s
  | .twdRequest hdr data par => Sys2Proof.Machine.execTwdRequest hdr data par s
  | .attach v => Sys2Proof.Machine.execAttach v s
  | .sessionIdle => Sys2Proof.Machine.execSessionIdle s
  | .dbgDataWrite v ecc => Sys2Proof.Machine.execDbgDataWrite v ecc s
  | .dbgDataRead ecc => Sys2Proof.Machine.execDbgDataRead ecc s
  | .errClr => Sys2Proof.Machine.execErrClr s
  | .halt => Sys2Proof.Machine.execHalt s
  | .coreResume => Sys2Proof.Machine.execCoreResume s
  | .step_ => Sys2Proof.Machine.execStep_ s
  | .claim mask => Sys2Proof.Machine.execClaim mask s
  | .coreVal wr => Sys2Proof.Machine.execCoreVal wr s
  | .feed insn ecc => Sys2Proof.Machine.execFeed insn ecc s
  | .privArm mode arm => Sys2Proof.Machine.execPrivArm mode arm s
  | .privGo mode arm since => Sys2Proof.Machine.execPrivGo mode arm since s
  | .testEntryDone => Sys2Proof.Machine.execTestEntryDone s
  | .enterState st => Sys2Proof.Machine.execEnterState st s
  | .wake => Sys2Proof.Machine.execWake s
  | .shutdown => Sys2Proof.Machine.execShutdown s
  | .shutdownBistEnd fails valid => Sys2Proof.Machine.execShutdownBistEnd fails valid s
  | .autoEntry => Sys2Proof.Machine.execAutoEntry s
  | .entryComplete => Sys2Proof.Machine.execEntryComplete s
  | .exitComplete => Sys2Proof.Machine.execExitComplete s
  | .quadReset q => Sys2Proof.Machine.execQuadReset q s
  | .quadDoze q => Sys2Proof.Machine.execQuadDoze q s
  | .quadDormant q => Sys2Proof.Machine.execQuadDormant q s
  | .quadWake q => Sys2Proof.Machine.execQuadWake q s
  | .powerSample pkg quads => Sys2Proof.Machine.execPowerSample pkg quads s
  | .thermalSample temps => Sys2Proof.Machine.execThermalSample temps s
  | .thermalShutdown => Sys2Proof.Machine.execThermalShutdown s
  | .vqFault q since => Sys2Proof.Machine.execVqFault q since s
  | .ageCheck q slow => Sys2Proof.Machine.execAgeCheck q slow s
  | .classify l since => Sys2Proof.Machine.execClassify l since s
  | .isbStart rg due => Sys2Proof.Machine.execIsbStart rg due s
  | .bistStep rg fails valid last => Sys2Proof.Machine.execBistStep rg fails valid last s
  | .bistGo rg => Sys2Proof.Machine.execBistGo rg s
  | .bistAbort => Sys2Proof.Machine.execBistAbort s
  | .repairClear by_ arm => Sys2Proof.Machine.execRepairClear by_ arm s
  | .taintClear mask => Sys2Proof.Machine.execTaintClear mask s
  | .registerWrite addr v by_ => Sys2Proof.Machine.execRegisterWrite addr v by_ s
  | .peerBeginsTraining p => Sys2Proof.Machine.execPeerBeginsTraining p s
  | .peerResumesSignalling p => Sys2Proof.Machine.execPeerResumesSignalling p s
  | .ioSupplyReturn q uio => Sys2Proof.Machine.execIoSupplyReturn q uio s
  | .d2dResume q l => Sys2Proof.Machine.execD2dResume q l s
  | .latchClock rg n level wires => Sys2Proof.Machine.execLatchClock rg n level wires s
  | .edgeInput rg n_ uio rising => Sys2Proof.Machine.execEdgeInput rg n_ uio rising s
  | .delayStep rg n_ => Sys2Proof.Machine.execDelayStep rg n_ s
  | .grantIdleDrop rg k => Sys2Proof.Machine.execGrantIdleDrop rg k s
  | .dirtyChecksPass rg => Sys2Proof.Machine.execDirtyChecksPass rg s
  | .uartTx => Sys2Proof.Machine.execUartTx s
  | .spiByteEnd rx => Sys2Proof.Machine.execSpiByteEnd rx s
  | .tachEdge f us => Sys2Proof.Machine.execTachEdge f us s
  | .hdrExitPattern => Sys2Proof.Machine.execHdrExitPattern s
  | .powerRemoval => Sys2Proof.Machine.execPowerRemoval s
  | .shutdownWaitEnd => Sys2Proof.Machine.execShutdownWaitEnd s

end Sys2Proof.Machine
end

