-- ==== Sys2Proof/Machine/Ticks.lean ====
section
/-! DEFINITION. A tick of the package tick count (R32): what time alone changes, while no command waits. -/

namespace Sys2Proof.Machine

/-! ### What counts with the ticks -/

/-- The no-fix timer of a region counts while its fix engine is in a cycle (R107), and so does the time of a back-port grant (R120), by
`ns`. -/
def regionTick (ns : Nat) (s : State) (rg : Rg) : State :=
  if ¬ s.clocked rg then s
  else
    let r := s.rgn rg
    let r := if r.f F.DMEM_STATUS_OWNER < 6 then r.bump F.DMEM_GRANT_TIME_NS ns else r
    let r := if r.inCycle then { r with fix := { r.fix with noFix := r.fix.noFix + ns } } else r
    if r = s.rgn rg then s else s.setRgn rg r

/-! ### What counts microseconds -/

/-- The hold timer of semaphore `n` (R376, R377). -/
def semTick (us : Nat) (s : State) (n : Nat) : State :=
  if s.f (F.SEM_HOLDER_KIND n) = 0 ∨ s.semFrozen n then s else s.bump (F.SEM_HOLD_TIME_US n) us

/-- The package is idle (R432), as far as the state shows it. -/
def State.idleNow (s : State) : Bool :=
  !s.fullLoad && !s.groundBusy && decide (s.rtcState = 0) && !s.pwr.handshake &&
    allRegions.all (fun rg =>
      !decide (s.rf rg F.FIX_STATUS_STATE ∈ [2, 3, 4]) && allCores.all (fun k => !s.coreRuns rg k))

/-- PWR.IDLE (R432): a condition that fails after idle time is the event of R434. -/
def idleTick (us : Nat) (s : State) : State :=
  let t := if s.idleNow then s.bump F.PWR_IDLE_US us else if s.f F.PWR_IDLE_US = 0 then s else idleFails s
  { t with pwr := { t.pwr with handshake := false } }

/-- MER.RECKON_TIME: time in RECKONING and RETURNING (R62). -/
def reckonTick (us : Nat) (s : State) : State := if s.merState = 4 ∨ s.merState = 5 then s.bump F.MER_RECKON_TIME_TIME us else s

/-- An hour of powered time in µs. -/
def hourUs : Nat := 3600000000

/-- Powered time (R216, R446): after an hour PWR.HOURS and the hours of each written copy rise. -/
def hoursTick (us : Nat) (s : State) : State :=
  let h := s.pwr.hourUs.toNat + us
  let keep (s : State) : State := { s with pwr := { s.pwr with hourUs := BitVec.ofNat 32 (h % hourUs) } }
  if h < hourUs then keep s
  else
    let older (m : SMap GroundCopy) (i : Nat) : SMap GroundCopy :=
      let c := SMap.get {} m i
      if c.commit then SMap.set {} m i { c with hours := c.hours + 1 } else m
    keep { s with flash := { s.flash with hours := s.flash.hours + 1, copies := (List.range 8).foldl older s.flash.copies } }

/-- `us` microseconds have passed. -/
def microseconds (us : Nat) (s : State) : State :=
  if us = 0 then s
  else hoursTick us (reckonTick us (idleTick us (foldS (List.range 2) (foldS (List.range 32) s (semTick us)) (tachTick us))))

/-! ### A tick -/

/-- The package's tick period in 2^-16 ns. Before the first lock the spec states none: free between 5 and 100 ns (R36). -/
def tickPeriod (s : State) : Nat × State :=
  let p := (merPeriod s).toNat
  if p ≠ 0 then (p, s)
  else
    let (v, s) := s.draw 32
    (327680 + v.toNat % (6553600 - 327680 + 1), s)

/-- One tick of MER.TICK passes (R32), but for one that a slew omits (R54); MERGE records that wait ask for the back port again (R115), and items
that waited for room are tried again (R399, R418). -/
def tickStep (s : State) : State :=
  if ¬ s.portUp then s
  else
    let s := if s.mer.omitted then { s with mer := { s.mer with omitted := false } } else countTick s
    let (p, s) := tickPeriod (missIntervals s)
    let t := s.mer.time + p
    let us := t / 65536000 - s.mer.time / 65536000
    let ns := t / 65536 - s.mer.time / 65536
    let s := { s with mer := { s.mer with time := t } }
    let s := microseconds us (foldS allRegions s (regionTick ns))
    let s := foldS allRegions s fillPins
    let s := foldS allRegions s (fun s rg => if (s.rgn rg).rwd.merges = [] then s else restoreIfIdle (writeMerges s rg) rg)
    retryFeed (foldS (List.range 6) s deliverLine)

end Sys2Proof.Machine
end

