-- ==== Sys2Proof/Safety.lean ====
section
/-! DEFINITION. The terms of the statements: what it is for a command to complete, what an effect leaves alone, and the invariant of
every step. -/

namespace Sys2Proof.Machine

/-- The command completes from `s`: it answers a next state, of which `P` holds. -/
def Completes (c : Instr) (s : State) (P : State → Prop) : Prop := ∃ t, exec c s = .next t ∧ P t

/-- Nothing outside region `rg` has changed. -/
def OnlyRegion (rg : Rg) (s t : State) : Prop := t = { s with rgns := t.rgns } ∧ ∀ rh : Rg, rh ≠ rg → t.rgn rh = s.rgn rh

/-- The same, but for the count of free values that have been drawn. -/
def OnlyRegionDrawn (rg : Rg) (s t : State) : Prop := OnlyRegion rg { s with drawn := t.drawn } t

/-- Nothing but registers of region `rg` has changed, and of these only the ones at the listed offsets. -/
def OnlyRgnRegs (rg : Rg) (as : List Nat) (s t : State) : Prop :=
  OnlyRegion rg s t ∧ t.rgn rg = { s.rgn rg with regs := (t.rgn rg).regs } ∧ ∀ a, a ∉ as → (t.rgn rg).reg a = (s.rgn rg).reg a

/-- Nothing but hub registers has changed, and of these only the ones at the listed addresses. -/
def OnlyRegs (as : List Nat) (s t : State) : Prop := t = { s with regs := t.regs } ∧ ∀ a, a ∉ as → t.reg a = s.reg a

/-- The stores of a region hold what they held: stroke words, palettes, design memory, ring, canvas. -/
def SameStores (r r' : Region) : Prop :=
  r'.strokes = r.strokes ∧ r'.clusters = r.clusters ∧ r'.dmem = r.dmem ∧ r'.ring = r.ring ∧ r'.canvas = r.canvas ∧ r'.cells = r.cells ∧
    r'.fix = r.fix ∧ r'.rwd = r.rwd

/-- The stroke word that BP `b` of cluster `c` stands at. -/
def strokeAt (s : State) (rg : Rg) (c : Cl) (b : Bp) : BitVec 112 := SMap.get 0 (s.rgn rg).strokes (strokeKey c b ((s.rgn rg).strokeNo c))

/-- BP `b` has a stroke to complete, its word is undamaged and carries the operation `op`. -/
abbrev AtStroke (s : State) (rg : Rg) (c : Cl) (b : Bp) (op : Nat) : Prop :=
  bpTurn (s.rgn rg) c b = true ∧ (strokeCheck (strokeAt s rg c b)).1 = .clean ∧ strokeOp (strokeAt s rg c b) = op

/-- The entry that operand `n` of that word names reads `v` in the cycle in progress. -/
abbrev OperandIs (s : State) (rg : Rg) (c : Cl) (b : Bp) (n : Nat) (v : Entry) : Prop :=
  (s.cl rg c).read (s.rgn rg).executing (strokeOpd (strokeAt s rg c b) n).1.toNat = some v

/-- Some BP but `b` has the stroke still to complete. -/
abbrev OthersBusy (s : State) (rg : Rg) (c : Cl) (b : Bp) : Prop := ∃ n : Fin 64, n.val ≠ b.toNat ∧ (s.cl rg c).done.getLsbD n.val = false

/-- The ring of a region has room for `n` words, and no marker is due. -/
abbrev RingReady (r : Region) (n : Nat) : Prop :=
  r.f F.RWD_STATUS_FULL = 0 ∧ n ≤ r.f F.RWD_FREE_WORDS ∧ r.rwd.branchDue = none ∧ r.rwd.gapDue = none

/-- The words `ws` have been appended to the ring at HEAD. -/
abbrev RingAppended (r r' : Region) (ws : List Entry) : Prop :=
  r'.ring = ringPut r.ring (r.f F.RWD_HEAD_WORD) ws ∧ r'.f F.RWD_HEAD_WORD = (r.f F.RWD_HEAD_WORD + ws.length) % ringSize ∧
    r'.f F.RWD_FREE_WORDS = r.f F.RWD_FREE_WORDS - ws.length

/-- The entry that a cell without an S input uses, its operands and its C bit as they stand. -/
abbrev cellE (s : State) (rg : Rg) (n : CellNo) : BitVec 32 := cellEntry (s.cellCfg rg n) (cfgSdef (s.cellCfg rg n))
abbrev cellA (s : State) (rg : Rg) (n : CellNo) : BitVec 16 := (cellOperand s rg n (cellE s rg n) (entA (cellE s rg n)) 0).1
abbrev cellB (s : State) (rg : Rg) (n : CellNo) : BitVec 16 := (cellOperand s rg n (cellE s rg n) (entB (cellE s rg n)) 1).1
abbrev cellC (s : State) (rg : Rg) (n : CellNo) : Bool :=
  !(cellE s rg n).getLsbD 15 && (match inputToken s rg n 2 with | some (_, v) => v.getLsbD 0 | none => false)

/-- A cell outside a chain, without an S input, stands ready to fire operation `op` with the output of entry bit `out` enabled: its
inputs have arrived, its outputs are free, its latch clock is quiet, and no region nearby is stopped. -/
abbrev CellReady (s : State) (rg : Rg) (n : CellNo) (op out : Nat) : Prop :=
  cfgMode (s.cellCfg rg n) = 1 ∧ cfgChain (s.cellCfg rg n) = 0 ∧ cfgSsrc (s.cellCfg rg n) = false ∧ entOpc (cellE s rg n) = op ∧
    (cellE s rg n).getLsbD out = true ∧ cellFree s rg n = true ∧ inputsReady s rg (cfgSdef (s.cellCfg rg n)) true [n] = true ∧
    ((s.rgn rg).cell n).clk = false ∧ ∀ g : Rg, (s.rgn g).canvasStopped = false

/-- The word that an easel core executes next: one that stalls stays the word that was fetched (R357). -/
abbrev coreWord (s : State) (rg : Rg) (k : CoreNo) : Word := s.insnAt rg k

/-- A running core stands at an instruction of opcode `op`: no active loop ends there, no late write is due and the debug port does
nothing with the core. -/
abbrev CoreAt (s : State) (rg : Rg) (k : CoreNo) (op : Nat) : Prop :=
  s.coreRuns rg k = true ∧ (s.eas rg k).pc.toNat < 0x6000 ∧ insnOp (coreWord s rg k) = op ∧ (s.eas rg k).levelAt (s.eas rg k).pc = none ∧
    (s.eas rg k).lateW = [] ∧ (s.eas rg k).dbg.stepping = false ∧ (s.eas rg k).dbg.haltReq = false

/-- The register that a field of the core's word names, and its immediate. -/
abbrev coreReg (s : State) (rg : Rg) (k : CoreNo) (n : Nat) : BitVec 16 := (s.eas rg k).get n
abbrev coreA (s : State) (rg : Rg) (k : CoreNo) : BitVec 16 := coreReg s rg k (insnRa (coreWord s rg k))
abbrev coreB (s : State) (rg : Rg) (k : CoreNo) : BitVec 16 := coreReg s rg k (insnRb (coreWord s rg k))

/-- The core has become `e`, at the next instruction, but for what the instruction leaves the next one to wait for and the patch writes that come
nearer to their fetches. -/
def CoreStep (s t : State) (rg : Rg) (k : CoreNo) (e : Easel) : Prop :=
  t.eas rg k = { e with pc := (s.eas rg k).pc + 1, dbg := { (s.eas rg k).dbg with pass := none }, haz := (t.eas rg k).haz,
                            fetched := none, patchOld := (t.eas rg k).patchOld }

/-- Nothing but core `k` of region `rg` and its counts of instructions and of stall cycles has changed. -/
def OnlyCore (rg : Rg) (k : CoreNo) (s t : State) : Prop :=
  OnlyRegionDrawn rg s t ∧ SameStores (s.rgn rg) (t.rgn rg) ∧ (∀ i : CoreNo, i ≠ k → t.eas rg i = s.eas rg i) ∧
    ∀ a, a ≠ (F.EAS_PERF_INSN_COUNT k.val).off → a ≠ (F.EAS_PERF_STALL_COUNT k.val).off → (t.rgn rg).reg a = (s.rgn rg).reg a

/-- Register `rd`, and no other, has changed, to `v`. -/
def RegBecomes (s t : State) (rg : Rg) (k : CoreNo) (rd : Nat) (v : BitVec 16) : Prop :=
  coreReg t rg k rd = v ∧ ∀ i : Fin 32, i.val ≠ rd → coreReg t rg k i.val = coreReg s rg k i.val

/-- The flags of a result `v` with carry `c` and overflow `o`; the rest of SR has not changed. -/
def FlagsBecome (s t : State) (rg : Rg) (k : CoreNo) (v : BitVec 16) (c o : Bool) : Prop :=
  (t.eas rg k).sr.getLsbD 0 = decide (v = 0) ∧ (t.eas rg k).sr.getLsbD 1 = v.getLsbD 15 ∧ (t.eas rg k).sr.getLsbD 2 = c ∧
    (t.eas rg k).sr.getLsbD 3 = o ∧ ∀ i : Fin 8, 4 ≤ i.val → (t.eas rg k).sr.getLsbD i.val = (s.eas rg k).sr.getLsbD i.val

/-- The core has put `v` in its RD with the flags of `v`, and gone on to the next instruction; nothing else has changed. -/
def AluDone (s t : State) (rg : Rg) (k : CoreNo) (v : BitVec 16) (c o : Bool) : Prop :=
  RegBecomes s t rg k (insnRd (coreWord s rg k)) v ∧ FlagsBecome s t rg k v c o ∧
    CoreStep s t rg k { s.eas rg k with r := (t.eas rg k).r, sr := (t.eas rg k).sr } ∧ OnlyCore rg k s t

/-- The core takes a trap of cause `c` where it may: EPC holds its PC, SR.IE is 0, and it goes on at 0x0002. -/
def Traps (s t : State) (rg : Rg) (k : CoreNo) (c : Nat) : Prop :=
  t.rf rg (F.EAS_STATUS_CAUSE k.val) = c ∧ (t.eas rg k).epc = (s.eas rg k).pc ∧ (t.eas rg k).pc = 2 ∧ (t.eas rg k).ie = false ∧
    (t.eas rg k).r = (s.eas rg k).r ∧ (t.eas rg k).x = (s.eas rg k).x ∧ (t.eas rg k).y = (s.eas rg k).y ∧
    SameStores (s.rgn rg) (t.rgn rg) ∧ OnlyRegion rg s t

/-- A section of a FULL load is open, and its next record, whole in the staging store, has header `h` and data `d`. -/
abbrev AtRun (s : State) (x : Section) (typ h : Nat) (d : List (BitVec 8)) : Prop :=
  s.loading = true ∧ s.load.sec = some x ∧ x.typ.toNat = typ ∧ x.done < x.len ∧ readRun s x = .run h d

/-- The record has been taken: the section goes on behind it, or has ended. -/
abbrev RunTaken (t : State) (x : Section) (d : List (BitVec 8)) : Prop :=
  t.load.sec = (if x.len ≤ x.done + (8 + d.length) then none else some { x with done := x.done + (8 + d.length) }) ∧
    t.f F.CFG_STATUS_STATE = 1

/-- The same for a section that is one record of `n` bytes, all of them staged as `d`. -/
abbrev AtWhole (s : State) (x : Section) (typ : Nat) (d : List (BitVec 8)) : Prop :=
  s.loading = true ∧ s.load.sec = some x ∧ x.typ.toNat = typ ∧ x.done < x.len ∧ x.bytes s 0 x.len = .ok d

/-- Byte `a` of a memory. -/
abbrev byteAt (m : Mem) (a : Nat) : BitVec 8 := SMap.get (0 : BitVec 8) m a

/-- A partial has arrived whole and names partition `p`; the retouch port is in state `st`. -/
abbrev PartialAt (s : State) (st : Nat) (p : PartEntry) : Prop := s.load.kind = .retouch ∧ s.rtcState = st ∧ s.partOf = some p

/-- A request has arrived at its target, which holds its epoch and is not isolated, and there is room for the answer. -/
abbrev AtTarget (s : State) (p : Packet) : Prop :=
  p ∈ s.arrived ∧ p.isResp = false ∧ badUnit p = false ∧ p.epoch = s.epochAt p.dest ∧
    (nodeUnit p.dest < 0x17 → (s.rgn (nodeRgn p.dest)).absorbing = false) ∧
    s.waiting (netKey (elemNo (targetElement p)) (ownInput (targetElement p)) 2) < 8

/-- The request has left its target, and its answer stands last at the element that serves it. -/
abbrev Answered (s t : State) (p : Packet) (cmd : BitVec 6) (cause : Nat) (data : List Flit) : Prop :=
  t.arrived = s.arrived.erase p ∧
    t.queue (netKey (elemNo (targetElement p)) (ownInput (targetElement p)) 2) =
      s.queue (netKey (elemNo (targetElement p)) (ownInput (targetElement p)) 2) ++ [s.answer p cmd cause data]

/-- A response has arrived and ends a request of its requester: the TAG is outstanding and carries the requester's epoch. -/
abbrev EndsRequest (s : State) (p : Packet) : Prop :=
  p ∈ s.arrived ∧ p.tag.toNat / 128 = (s.epochAt p.dest).toNat % 8 ∧ SMap.get false s.tags (tagKey p.dest (p.tag.toNat % 128)) = true

/-- A frame of type `typ` has arrived sound on a port that is UP. -/
abbrev SoundFrame (s : State) (p : PortNo) (f : BitVec 544) (cw : List (BitVec 10)) (typ : Nat) : Prop :=
  s.link p.val = 5 ∧ cw = [] ∧ crcOk f = true ∧ frameType f = typ

/-- A START of one job, whose regions on the package are all ARMED, arrives in time. -/
abbrev StartInTime (s : State) (j : Job) (tick : BitVec 48) : Prop :=
  s.jobRegions j ≠ [] ∧ s.f F.CFG_STATUS_STATE = 4 ∧ (∀ rg ∈ s.jobRegions j, s.rf rg F.FIX_STATUS_STATE = 1 ∧ s.dirty rg = false) ∧
    tickLe tick s.mer.tick = false ∧ 3 ≤ s.f F.MER_STATUS_STATE ∧ s.f (F.MER_FIX_TICKS_TICKS j.toNat) ≠ 0 ∧
    s.f (F.MER_JOB_CTRL_FAILED j.toNat) = 0

/-- The debug port is powered, has seen a wake sequence and does not ignore the line (R406). -/
abbrev PortSynced (s : State) : Prop := s.portUp = true ∧ s.dbg.synced = true ∧ s.dbg.ignoring = false

/-- The debug port is powered, and carries no instruction that stalled. -/
abbrev PortIdle (s : State) : Prop := PortSynced s ∧ s.dbg.fed = none

/-- A session is open, no error stands and nothing is in progress: the port answers every request OK. -/
abbrev PortOpen (s : State) : Prop := PortSynced s ∧ s.attached = true ∧ s.f F.DBG_STATUS_ERR = 0 ∧ s.dbgBusy = false

/-- The same, with a core selected that is halted (`h`) or not. -/
abbrev CorePort (s : State) (rg : Rg) (k : CoreNo) (h : Bool) : Prop := PortOpen s ∧ s.selCore = some (rg, k) ∧ s.coreHalted rg k = h

/-- Nothing of a core but its debug state has changed. -/
abbrev SameCore (s t : State) (rg : Rg) (k : CoreNo) : Prop := t.eas rg k = { s.eas rg k with dbg := (t.eas rg k).dbg }

/-- The registers, regions and jobs, and the byte memories of the hub, are in their canonical form: rising keys and, where one value
stands for every unlisted key, no entry that equals it. -/
def Canonical (s : State) : Prop :=
  SMap.rising s.regs = true ∧ SMap.wf {} s.rgns = true ∧ SMap.wf {} s.jobs = true ∧ Memory.wf s.sram = true ∧ Memory.wf s.library = true

/-- What cannot be undone (R197, R419): a slot programmed or revoked stays so, a programmed hash stays, TEST_DISABLE stays. -/
def FusesKept (s t : State) : Prop :=
  (∀ i, s.fuses.programmed.getLsbD i = true → t.fuses.programmed.getLsbD i = true) ∧
    (∀ i, s.fuses.revoked.getLsbD i = true → t.fuses.revoked.getLsbD i = true) ∧
    (∀ i < 4, s.fuses.programmed.getLsbD i = true → SMap.get 0 t.fuses.hashes i = SMap.get 0 s.fuses.hashes i) ∧
    t.fuses.testDisable = s.fuses.testDisable

end Sys2Proof.Machine
end

