-- ==== Sys2Proof/Certificates/Slice0/Obligations.lean ====
section
/-! DEFINITION. The statements. -/

open Sys2Proof Sys2Proof.Machine

/-- A write to RGN.CTRL.RESET makes RESET_BUSY and the ingress refusal read 1, and touches neither the region's epoch and stores
nor anything outside the region; during a reset of the region, of its quadrant or of the package it is merged. ISOLATE stops the
fix engine, sets ISOLATE, ISO_CAUSE 4 and CFG, and fails the job of the region; an isolated region stays as it is. RELEASE ends an
isolation by a region reset, and is ignored elsewhere. The no-fix limit isolates with cause 1, the grant limit with cause 2, and
neither acts before its limit. Each clause concludes that exec answers a next state, from conditions on the state and the operands
alone, for: regionReset, isolate, release, regionWatchdog. -/
def Obligations.RegionResetAndIsolation : Prop :=
  -- REGION_RESET (R25)
  (∀ (rg : Rg) (s : State),
    s.rf rg F.RGN_STATUS_RESET_BUSY = 0 →
    s.enclosingReset rg = false →
    Completes (.regionReset rg) s (fun t => t.rf rg F.RGN_STATUS_RESET_BUSY = 1 ∧
      t.rf rg F.NOC_STATUS_REFUSING = 1 ∧
      t.rf rg F.RGN_STATUS_EPOCH = s.rf rg F.RGN_STATUS_EPOCH ∧
      OnlyRegion rg s t ∧
      SameStores (s.rgn rg) (t.rgn rg))) ∧
  -- a request during a reset is merged with it (R24)
  (∀ (rg : Rg) (s : State),
    s.rf rg F.RGN_STATUS_RESET_BUSY = 1 →
    Completes (.regionReset rg) s (fun t => t = s)) ∧
  -- and a request during a reset of its quadrant or of the package with that one
  (∀ (rg : Rg) (s : State),
    s.enclosingReset rg = true →
    Completes (.regionReset rg) s (fun t => t = s)) ∧
  -- ISOLATE (R28)
  (∀ (rg : Rg) (s : State),
    s.rf rg F.RGN_CTRL_ISOLATE = 0 →
    Completes (.isolate rg) s (fun t => t.rf rg F.RGN_CTRL_ISOLATE = 1 ∧
      t.rf rg F.RGN_STATUS_ISO_CAUSE = 4 ∧
      t.rf rg F.FIX_STATUS_STATE = 0 ∧
      2 ≤ t.rf rg F.RGN_STATUS_CFG)) ∧
  -- its job is reported failed (R28, R51)
  (∀ (rg : Rg) (j : Job) (s : State),
    s.rf rg F.RGN_CTRL_ISOLATE = 0 →
    s.jobOf rg = some j →
    Completes (.isolate rg) s (fun t => t.f (F.MER_JOB_CTRL_FAILED j.toNat) = 1)) ∧
  (∀ (rg : Rg) (s : State),
    s.rf rg F.RGN_CTRL_ISOLATE = 1 →
    Completes (.isolate rg) s (fun t => t = s)) ∧
  -- RELEASE (R501)
  (∀ (rg : Rg) (s : State),
    s.rf rg F.RGN_CTRL_ISOLATE = 1 →
    s.rf rg F.RGN_STATUS_RESET_BUSY = 0 →
    s.enclosingReset rg = false →
    Completes (.release rg) s (fun t => t.rf rg F.RGN_STATUS_RESET_BUSY = 1 ∧
      t.rf rg F.NOC_STATUS_REFUSING = 1 ∧
      (t.rgn rg).releasing = true ∧
      OnlyRegion rg s t)) ∧
  (∀ (rg : Rg) (s : State),
    s.rf rg F.RGN_CTRL_ISOLATE = 0 →
    Completes (.release rg) s (fun t => t = s)) ∧
  -- REGION_WATCHDOG (R107)
  (∀ (rg : Rg) (s : State),
    s.rf rg F.RGN_CTRL_ISOLATE = 0 →
    s.rf rg F.RGN_WDOG_LIMIT ≠ 0 →
    2 ≤ s.rf rg F.FIX_STATUS_STATE ∧ s.rf rg F.FIX_STATUS_STATE ≤ 4 →
    1000 * s.rf rg F.RGN_WDOG_LIMIT ≤ (s.rgn rg).fix.noFix →
    Completes (.regionWatchdog rg false) s (fun t => t.rf rg F.RGN_CTRL_ISOLATE = 1 ∧
      t.rf rg F.RGN_STATUS_ISO_CAUSE = 1 ∧
      t.rf rg F.FIX_STATUS_STATE = 0)) ∧
  (∀ (rg : Rg) (s : State),
    s.rf rg F.RGN_CTRL_ISOLATE = 0 →
    s.rf rg F.RGN_WDOG_GRANT ≠ 0 →
    s.rf rg F.DMEM_STATUS_OWNER < 6 →
    1000 * s.rf rg F.RGN_WDOG_GRANT < s.rf rg F.DMEM_GRANT_TIME_NS →
    Completes (.regionWatchdog rg true) s (fun t => t.rf rg F.RGN_CTRL_ISOLATE = 1 ∧
      t.rf rg F.RGN_STATUS_ISO_CAUSE = 2)) ∧
  -- and neither acts before its limit
  (∀ (rg : Rg) (grant : Bool) (s : State),
    (if grant then s.rf rg F.RGN_WDOG_GRANT = 0 ∨ s.rf rg F.DMEM_GRANT_TIME_NS ≤ 1000 * s.rf rg F.RGN_WDOG_GRANT else s.rf rg F.RGN_WDOG_LIMIT = 0 ∨ (s.rgn rg).fix.noFix < 1000 * s.rf rg F.RGN_WDOG_LIMIT) →
    Completes (.regionWatchdog rg grant) s (fun t => t = s))

/-- In every state: edges of the source start acquiring; a lock sets the trimmed period; a valid mark in LOCKED sets the count to
the mark tick plus 50 and aligns; loss in ALIGNED starts dead reckoning with LOSS set, the loss counted and the count kept; a slew
step inserts or omits one tick; an internal source starts the count from 0 in ALIGNED; a read of TICK_LO latches the count; a TICK
frame from the source port dates a tick. Each clause concludes that exec answers a next state, from conditions on the state and
the operands alone, for: referenceEdges, lock, mark, realignSlewStep, loss, src, merTickRead, tickFrame, tickMiss. That TICK_MISS
counts into MISSES as it does is log entry 98; the mean that LOCK takes for a link source is log entry 143; the dating of a TICK
frame is the model's choice (log entry 119). -/
def Obligations.MeridianReceiver : Prop :=
  -- REFERENCE_EDGES (R33)
  (∀ (s : State),
    s.merState = 0 →
    s.merSrc ≠ 2 →
    Completes (.referenceEdges) s (fun t => t.merState = 1 ∧
      OnlyRegs [R.MER_STATUS] s t)) ∧
  -- LOCK (R33, R52)
  (∀ (m : Word) (s : State),
    s.merState = 1 →
    (s.merSrc = 0 ∨ (s.merSrc = 1 ∧ stableMean s.mer.periods = some m)) →
    Completes (.lock m) s (fun t => t.merState = 2 ∧
      t.reg R.MER_PERIOD = m ∧
      OnlyRegs [R.MER_STATUS, R.MER_PERIOD] s t)) ∧
  -- LOCK in RECKONING keeps the period (R33, R52)
  (∀ (m : Word) (s : State),
    s.merState = 4 →
    (s.merSrc = 0 ∨ (s.merSrc = 1 ∧ stableMean s.mer.periods = some m)) →
    Completes (.lock m) s (fun t => t.merState = 5 ∧
      OnlyRegs [R.MER_STATUS] s t)) ∧
  -- MARK (R31, R35)
  (∀ (count : BitVec 48) (m : Word) (s : State),
    s.merState = 2 →
    s.merSrc = 0 →
    count.toNat % 65536 = 0 →
    Completes (.mark count true m) s (fun t => t.merState = 3 ∧
      t.mer.tick = count + 50)) ∧
  -- REALIGN_SLEW_STEP (R54): one tick inserted, or one omitted
  (∀ (s : State),
    s.merState = 3 →
    0 < s.mer.slew.toInt →
    Completes (.realignSlewStep) s (fun t => t.mer.tick = s.mer.tick + 1 ∧
      t.mer.slew = s.mer.slew - 1 ∧
      t = { s with mer := t.mer })) ∧
  (∀ (s : State),
    s.merState = 3 →
    s.mer.slew.toInt < 0 →
    Completes (.realignSlewStep) s (fun t => t.mer.omitted = true ∧
      t.mer.tick = s.mer.tick ∧
      t.mer.slew = s.mer.slew + 1)) ∧
  -- LOSS (R34)
  (∀ (s : State),
    (s.merState = 3 ∨ s.merState = 5) →
    s.merSrc ≠ 2 →
    Completes (.loss) s (fun t => t.merState = 4 ∧
      t.f F.MER_STATUS_LOSS = 1 ∧
      t.f F.MER_EVENTS_LOSSES = min (s.f F.MER_EVENTS_LOSSES + 1) F.MER_EVENTS_LOSSES.max ∧
      t.mer.tick = s.mer.tick)) ∧
  (∀ (s : State),
    (s.merState = 1 ∨ s.merState = 2) →
    s.merSrc = 0 →
    Completes (.loss) s (fun t => t.merState = 0 ∧
      OnlyRegs [R.MER_STATUS] s.undated t)) ∧
  -- SRC (R36): internal, before the count is aligned
  (∀ (s : State),
    s.merState < 3 →
    s.merSrc ≠ 2 →
    Completes (.src 2) s (fun t => t.merSrc = 2 ∧
      t.merState = 3 ∧
      t.mer.tick = 0)) ∧
  -- a reference in place of the internal source, in ALIGNED (R36)
  (∀ (s : State),
    s.merState = 3 →
    s.merSrc = 2 →
    Completes (.src 0) s (fun t => t.merSrc = 0 ∧
      t.merState = 4 ∧
      t.mer.tick = s.mer.tick)) ∧
  -- MER_TICK_READ (R62)
  (∀ (s : State),
    Completes (.merTickRead) s (fun t => t.get48 R.MER_TICK_LO R.MER_TICK_HI = s.mer.tick ∧
      OnlyRegs [R.MER_TICK_LO, R.MER_TICK_HI] s t)) ∧
  -- TICK_FRAME (R302): from the source port in LOCKED it dates a tick
  (∀ (p : PortNo) (f : TickFrame) (s : State),
    s.merSrc = 1 →
    s.merPort = p.val →
    s.merState = 2 →
    s.mer.offs ≠ 3 →
    Completes (.tickFrame p f) s (fun t => t.merState = 3 ∧
      t.mer.tick = s.mer.tick + (f.count - countAt s (dateOf s p f)) ∧
      t.mer.hops = f.hops)) ∧
  -- TICK_MISS (R303)
  (∀ (p : PortNo) (s : State),
    s.merSrc = 1 →
    s.merPort = p.val →
    s.merState = 3 →
    Completes (.tickMiss p) s (fun t => t.merState = 4 ∧
      t.f (F.LNK_TICK_STAT_MISSES p.val) = min (s.f (F.LNK_TICK_STAT_MISSES p.val) + (max 2 (s.f (F.LNK_TICK_CFG_MISS_N p.val)) - SMap.get 0 s.mer.lateBy p.val)) (F.LNK_TICK_STAT_MISSES p.val).max ∧
      t.mer.tick = s.mer.tick))

/-- With every cluster at END and every bundle accepted, completion moves a region from STROKING to COMPLETE and records the
moment. Passing the boundary is recorded; a parity error there isolates with cause 3. The spacing limit's end is recorded. The end
of the fix overhead begins stroke 0 of the next cycle in every cluster, or holds the region where the hold rule applies. At the
end of EWIN a core's hold ends as LATE. A restart of the minimum margin makes it +524287. Each clause concludes that exec answers
a next state, from conditions on the state and the operands alone, for: cycleComplete, boundaryPass, minFixSpacing,
fixOverheadEnd, ewinExpiry, minRestart. -/
def Obligations.FixEngineEvents : Prop :=
  -- CYCLE_COMPLETE (R45)
  (∀ (rg : Rg) (phase : BitVec 4) (s : State),
    s.rf rg F.FIX_STATUS_STATE = 2 →
    (∀ c : Cl, (s.cl rg c).ended = true) →
    (s.rgn rg).fix.unaccepted = 0 →
    (s.rgn rg).fix.passed = false →
    Completes (.cycleComplete rg phase) s (fun t => t.rf rg F.FIX_STATUS_STATE = 3 ∧
      (t.rgn rg).fix.doneTick = s.mer.tick ∧
      (t.rgn rg).fix.donePhase = phase ∧
      OnlyRegion rg s t ∧
      SameStores { s.rgn rg with fix := (t.rgn rg).fix } (t.rgn rg))) ∧
  -- BOUNDARY_PASS (R42)
  (∀ (rg : Rg) (s : State),
    s.rf rg F.FIX_STATUS_STATE = 2 →
    (s.rgn rg).fix.passed = false →
    tickLe ((s.rgn rg).get48 R.FIX_BOUND_LO R.FIX_BOUND_HI) s.mer.tick = true →
    Completes (.boundaryPass rg false) s (fun t => (t.rgn rg).fix.passed = true ∧
      (t.rgn rg).fix.passAt = s.mer.elapsed ∧
      t.rf rg F.FIX_STATUS_STATE = 2 ∧
      OnlyRegion rg s t)) ∧
  -- a parity error of the engine (R458)
  (∀ (rg : Rg) (s : State),
    2 ≤ s.rf rg F.FIX_STATUS_STATE ∧ s.rf rg F.FIX_STATUS_STATE ≤ 4 →
    (s.rgn rg).fix.passed = false →
    tickLe ((s.rgn rg).get48 R.FIX_BOUND_LO R.FIX_BOUND_HI) s.mer.tick = true →
    s.rf rg F.RGN_CTRL_ISOLATE = 0 →
    Completes (.boundaryPass rg true) s (fun t => t.rf rg F.RGN_CTRL_ISOLATE = 1 ∧
      t.rf rg F.RGN_STATUS_ISO_CAUSE = 3 ∧
      t.rf rg F.FIX_STATUS_STATE = 0)) ∧
  -- MIN_FIX_SPACING (R43)
  (∀ (rg : Rg) (s : State),
    (s.rgn rg).fix.spacing = true →
    s.rf rg F.FIX_STATUS_STATE ≠ 3 →
    Completes (.minFixSpacing rg) s (fun t => (t.rgn rg).fix.spacing = false ∧
      OnlyRegion rg s t)) ∧
  -- FIX_OVERHEAD_END (R46)
  (∀ (rg : Rg) (j : Job) (s : State),
    s.jobOf rg = some j →
    s.rf rg F.FIX_STATUS_STATE = 4 →
    (s.rgn rg).fix.overhead = false →
    s.holdsAt j (s.rgn rg).cycle = false →
    (s.rgn rg).easelHolds = false →
    (s.rgn rg).fix.checking = false →
    s.keepsBack rg = false →
    Completes (.fixOverheadEnd rg) s (fun t => t.rf rg F.FIX_STATUS_STATE = 2 ∧
      (∀ c : Cl, (t.cl rg c).running = true ∧ (t.cl rg c).ended = false ∧ t.rf rg (F.CLU_STATUS_STROKE c.toNat) = 0) ∧
      OnlyRegion rg s t)) ∧
  -- the hold rule holds its cycle (R49)
  (∀ (rg : Rg) (j : Job) (s : State),
    s.jobOf rg = some j →
    s.rf rg F.FIX_STATUS_STATE = 4 →
    (s.rgn rg).fix.overhead = false →
    s.holdsAt j (s.rgn rg).cycle = true →
    Completes (.fixOverheadEnd rg) s (fun t => t.rf rg F.FIX_STATUS_STATE = 5)) ∧
  -- EWIN_EXPIRY (R46, R349)
  (∀ (rg : Rg) (k : CoreNo) (s : State),
    s.rf rg F.FIX_STATUS_STATE = 4 →
    s.rf rg F.FIX_CTRL_EWIN ≠ 0 →
    (s.rgn rg).replaying = false →
    s.rbit rg (F.EAS_STATUS_HOLDING k.val) = true →
    Completes (.ewinExpiry rg) s (fun t => t.rf rg (F.EAS_STATUS_HOLDING k.val) = 0 ∧
      t.rf rg (F.EAS_STATUS_LATE k.val) = 1 ∧
      (t.eas rg k).late = true ∧
      OnlyRegion rg s t)) ∧
  -- MIN_RESTART (R56)
  (∀ (rg : Rg) (s : State),
    Completes (.minRestart rg) s (fun t => t.rf rg F.FIX_MARGIN_MIN_MIN = 524287 ∧
      OnlyRgnRegs rg [R.FIX_MARGIN_MIN] s t))

/-- In every state in which a region of a job is COMPLETE with its boundary not yet passed and no spacing limit holds it, the
passing of the boundary performs the fix: the cycle count rises by one, the region is in FIXING, the boundary register holds the
boundary of the cycle after, the spacing limit runs, and no other region's cycle count, state or stores change. Each clause
concludes that exec answers a next state, from conditions on the state and the operands alone, for: boundaryPass. -/
def Obligations.TheFixAdvancesTheCycle : Prop :=
  -- BOUNDARY_PASS of a COMPLETE region (R42, R46)
  (∀ (rg : Rg) (j : Job) (s : State),
    s.jobOf rg = some j →
    s.rf rg F.FIX_STATUS_STATE = 3 →
    (s.rgn rg).fix.passed = false →
    (s.rgn rg).fix.spacing = false →
    tickLe ((s.rgn rg).get48 R.FIX_BOUND_LO R.FIX_BOUND_HI) s.mer.tick = true →
    Completes (.boundaryPass rg false) s (fun t => (t.rgn rg).cycle = (s.rgn rg).cycle + 1 ∧
      t.rf rg F.FIX_STATUS_STATE = 4 ∧
      (t.rgn rg).get48 R.FIX_BOUND_LO R.FIX_BOUND_HI = s.boundary j ((s.rgn rg).cycle + 2) ∧
      (t.rgn rg).fix.spacing = true ∧
      (∀ rh : Rg, rh ≠ rg → t.rgn rh = s.rgn rh)))

/-- At its START tick a job whose regions are all ARMED is ACTIVE, T0 is the START tick, and every region that nothing keeps back
begins cycle 1. A hold request fixes the cycle of an ACTIVE job with cause 2. A RESUME of a held job with AT at 0 fixes the next
tick. At the resume tick T0 is the tick less H times FIX_TICKS, and HOLD and HELD clear. REARM of a job that is not ACTIVE clears
its flags and begins the reset of each of its regions that is not isolated. Each clause concludes that exec answers a next state,
from conditions on the state and the operands alone, for: jobStart, hold, resume, resumeTick, rearm. -/
def Obligations.JobsStartHoldAndResume : Prop :=
  -- JOB_START (R40)
  (∀ (j : Job) (t0 : BitVec 48) (s : State),
    (s.job j).start = some t0 →
    tickLe t0 s.mer.tick = true →
    s.f (F.MER_JOB_CTRL_FAILED j.toNat) = 0 →
    s.jobRegions j ≠ [] →
    (∀ rg ∈ s.jobRegions j, s.rf rg F.FIX_STATUS_STATE = 1 ∧ (s.rgn rg).easelHolds = false ∧ (s.rgn rg).fix.checking = false ∧ s.keepsBack rg = false) →
    Completes (.jobStart j) s (fun t => t.f (F.MER_JOB_CTRL_ACTIVE j.toNat) = 1 ∧
      t.get48 (R.MER_T0_LO j.toNat) (R.MER_T0_HI j.toNat) = t0 ∧
      (t.job j).start = none ∧
      (∀ rg ∈ s.jobRegions j, t.rf rg F.FIX_STATUS_STATE = 2 ∧ ∀ c : Cl, (t.cl rg c).portFull = 0xFFF))) ∧
  -- HOLD (R49)
  (∀ (j : Job) (s : State),
    s.f (F.MER_JOB_CTRL_ACTIVE j.toNat) = 1 →
    (s.job j).hold = none →
    Completes (.hold j) s (fun t => t.f (F.MER_JOB_CTRL_HOLD j.toNat) = 1 ∧
      t.f (F.MER_JOB_CTRL_HOLD_CAUSE j.toNat) = 2 ∧
      (t.job j).hold.isSome = true)) ∧
  -- RESUME (R50)
  (∀ (j : Job) (s : State),
    s.f (F.MER_JOB_CTRL_HELD j.toNat) = 1 →
    s.f (F.MER_JOB_CTRL_FAILED j.toNat) = 0 →
    s.f (F.MER_JOB_CTRL_AT j.toNat) = 0 →
    s.jobMode j 2 = false →
    Completes (.resume j) s (fun t => (t.job j).resumeAt = some (s.mer.tick + 1))) ∧
  -- RESUME_TICK (R50)
  (∀ (j : Job) (at_ h : BitVec 48) (s : State),
    (s.job j).resumeAt = some at_ →
    (s.job j).hold = some h →
    tickLe at_ s.mer.tick = true →
    s.f (F.MER_JOB_CTRL_HELD j.toNat) = 1 →
    s.f (F.MER_JOB_CTRL_FAILED j.toNat) = 0 →
    s.jobMode j 2 = false →
    Completes (.resumeTick j) s (fun t => t.get48 (R.MER_T0_LO j.toNat) (R.MER_T0_HI j.toNat) = at_ - h * BitVec.ofNat 48 (s.f (F.MER_FIX_TICKS_TICKS j.toNat)) ∧
      t.f (F.MER_JOB_CTRL_HELD j.toNat) = 0 ∧
      t.f (F.MER_JOB_CTRL_HOLD j.toNat) = 0)) ∧
  -- REARM (R51)
  (∀ (j : Job) (s : State),
    s.f (F.MER_JOB_CTRL_ACTIVE j.toNat) = 0 →
    Completes (.rearm j) s (fun t => t.f (F.MER_JOB_CTRL_FAILED j.toNat) = 0 ∧
      t.f (F.MER_JOB_CTRL_HELD j.toNat) = 0 ∧
      t.f (F.MER_JOB_CTRL_ACTIVE j.toNat) = 0 ∧
      t.f (F.MER_JOB_CTRL_HOLD j.toNat) = 0 ∧
      (∀ rg ∈ s.jobRegions j, s.rf rg F.RGN_CTRL_ISOLATE = 0 → s.enclosingReset rg = false → t.rf rg F.RGN_STATUS_RESET_BUSY = 1 ∧ t.rf rg F.NOC_STATUS_REFUSING = 1))) ∧
  (∀ (j : Job) (s : State),
    s.f (F.MER_JOB_CTRL_ACTIVE j.toNat) = 1 →
    s.f (F.MER_JOB_CTRL_HELD j.toNat) = 0 →
    s.f (F.MER_JOB_CTRL_FAILED j.toNat) = 0 →
    Completes (.rearm j) s (fun t => t = s))

/-- With the loop frozen a taking-part quadrant reports FROZEN; with a negative minimum margin and none of the rows before it, VQ
rises by 20 mV and the state is 1; a quadrant without a taking-part region is idle. A closed window over budget sets the
quadrant's bit of BUDGET_OVER and counts it, and the slips and fixes of the window begin anew. Each clause concludes that exec
answers a next state, from conditions on the state and the operands alone, for: loopInterval, budgetWindow. R60 leaves the reports
of a window under MER.WIN.OVERRIDE = 1 open: that they are made then too is the model's choice (log entry 105). -/
def Obligations.SextantLoopAndBudget : Prop :=
  -- LOOP_INTERVAL (R58): no region takes part
  (∀ (q : Quad) (s : State),
    (quadRegions q.toNat).any (takesPart s) = false →
    Completes (.loopInterval) s (fun t => t.f (F.MER_LOOP_STATE q.toNat) = 0 ∧
      t.f (F.PWR_QSTAT_VQ q.toNat) = s.f (F.PWR_QSTAT_VQ q.toNat))) ∧
  -- the loop is frozen
  (∀ (q : Quad) (s : State),
    (quadRegions q.toNat).any (takesPart s) = true ∧ s.f F.PWR_STATUS_STATE = 0 →
    s.f (F.MER_WIN_FREEZE q.toNat) = 1 →
    Completes (.loopInterval) s (fun t => t.f (F.MER_LOOP_STATE q.toNat) = 6 ∧
      t.f (F.PWR_QSTAT_VQ q.toNat) = s.f (F.PWR_QSTAT_VQ q.toNat))) ∧
  -- a negative minimum margin raises the voltage
  (∀ (q : Quad) (v : Int) (s : State),
    (quadRegions q.toNat).any (takesPart s) = true ∧ s.f F.PWR_STATUS_STATE = 0 →
    s.f (F.MER_WIN_FREEZE q.toNat) = 0 →
    s.f F.PWR_STATUS_THR_TEMP = 0 →
    s.f F.PWR_STATUS_THR_CAP = 0 →
    atCap s = false →
    qmin s q.toNat = some v →
    v < 0 →
    600 ≤ s.f (F.PWR_QSTAT_VQ q.toNat) ∧ s.f (F.PWR_QSTAT_VQ q.toNat) ≤ 880 →
    Completes (.loopInterval) s (fun t => t.f (F.PWR_QSTAT_VQ q.toNat) = s.f (F.PWR_QSTAT_VQ q.toNat) + 20 ∧
      t.f (F.MER_LOOP_STATE q.toNat) = 1)) ∧
  -- BUDGET_WINDOW (R60)
  (∀ (q : Quad) (s : State),
    1000000 ≤ SMap.get 0 s.windowFixes q.toNat →
    s.f F.MER_SLIP_BUDGET_BUDGET < s.f (F.MER_QSLIP_SLIPS q.toNat) →
    Completes (.budgetWindow q) s (fun t => SMap.get 0 t.windowFixes q.toNat = 0 ∧
      t.f (F.MER_QSLIP_SLIPS q.toNat) = 0 ∧
      t.f F.MER_STATUS_BUDGET_OVER = s.f F.MER_STATUS_BUDGET_OVER ||| 2 ^ q.toNat ∧
      t.f (F.MER_QSLIP_OVER q.toNat) = min (s.f (F.MER_QSLIP_OVER q.toNat) + 1) (F.MER_QSLIP_OVER q.toNat).max))

/-- A read of SEM.TAKE by a requester that holds no higher semaphore gives a free semaphore to it, with the hold timer at 0 and
the broken bit clear; out of order it takes nothing and is counted; a semaphore held by another is counted as contended. A hold
timer at HOLD_LIMIT breaks the semaphore, and only with HOLD_LIMIT not 0. Each clause concludes that exec answers a next state,
from conditions on the state and the operands alone, for: take, holdLimit. -/
def Obligations.HubSemaphores : Prop :=
  -- TAKE (R374)
  (∀ (n : SemNo) (who : Requester) (s : State),
    (∀ m : Fin 32, n.toNat < m.val → s.ownsSem who m.val = false) →
    s.f (F.SEM_HOLDER_KIND n.toNat) = 0 →
    Completes (.take n who) s (fun t => t.ownsSem who n.toNat = true ∧
      t.f (F.SEM_HOLDER_KIND n.toNat) = kindOf who ∧
      t.reg (R.SEM_HOLD_TIME n.toNat) = 0 ∧
      t.semBroken n.toNat = false ∧
      OnlyRegs [R.SEM_HOLDER n.toNat, R.SEM_HOLD_TIME n.toNat, R.SEM_STATUS] s t)) ∧
  -- out of order
  (∀ (n : SemNo) (who : Requester) (m : Nat) (s : State),
    n.toNat < m ∧ m < 32 →
    s.ownsSem who m = true →
    Completes (.take n who) s (fun t => t.f F.SEM_COUNTS_ORDER = min (s.f F.SEM_COUNTS_ORDER + 1) F.SEM_COUNTS_ORDER.max ∧
      OnlyRegs [F.SEM_COUNTS_ORDER.off] s t)) ∧
  -- held by another
  (∀ (n : SemNo) (who : Requester) (s : State),
    (∀ m : Fin 32, n.toNat < m.val → s.ownsSem who m.val = false) →
    s.f (F.SEM_HOLDER_KIND n.toNat) ≠ 0 →
    s.ownsSem who n.toNat = false →
    Completes (.take n who) s (fun t => t.f F.SEM_COUNTS2_CONTENDED = min (s.f F.SEM_COUNTS2_CONTENDED + 1) F.SEM_COUNTS2_CONTENDED.max ∧
      OnlyRegs [F.SEM_COUNTS2_CONTENDED.off] s t)) ∧
  -- HOLD_LIMIT (R376)
  (∀ (n : SemNo) (s : State),
    s.f (F.SEM_HOLDER_KIND n.toNat) ≠ 0 →
    s.f F.SEM_CTRL_HOLD_LIMIT ≠ 0 →
    s.f F.SEM_CTRL_HOLD_LIMIT ≤ (s.reg (R.SEM_HOLD_TIME n.toNat)).toNat →
    Completes (.holdLimit n) s (fun t => t.f (F.SEM_HOLDER_KIND n.toNat) = 0 ∧
      t.semBroken n.toNat = true ∧
      t.f F.SEM_COUNTS_BROKEN = min (s.f F.SEM_COUNTS_BROKEN + 1) F.SEM_COUNTS_BROKEN.max)) ∧
  (∀ (n : SemNo) (s : State),
    (s.f (F.SEM_HOLDER_KIND n.toNat) = 0 ∨ s.f F.SEM_CTRL_HOLD_LIMIT = 0) →
    Completes (.holdLimit n) s (fun t => t = s))

/-- In a cluster whose stroke other BPs have still to complete: NOP completes the BP's stroke with no write. EVAL reads its four
operand bits and writes the truth table's result to the BP's own column of DEST, EVAL_S to the next-state bank; neither changes
the palette before the barrier. At the barrier every write of the stroke is made, and each BP begins the next stroke. A stall
longer than STALL_WARN sets LONG_STALL. Each clause concludes that exec answers a next state, from conditions on the state and the
operands alone, for: nop, eval, evalS, strokeBegin, longStall. -/
def Obligations.StrokeOperations : Prop :=
  -- NOP (R68)
  (∀ (rg : Rg) (c : Cl) (b : Bp) (s : State),
    AtStroke s rg c b 0 →
    OthersBusy s rg c b →
    Completes (.nop rg c b 0) s (fun t => (t.cl rg c).done = setBit (s.cl rg c).done b.toNat true ∧
      (t.cl rg c).writes = (s.cl rg c).writes ∧
      (t.cl rg c).pal = (s.cl rg c).pal ∧
      OnlyRegionDrawn rg s t)) ∧
  -- EVAL (R69, R70, R79)
  (∀ (rg : Rg) (c : Cl) (b : Bp) (v0 v1 v2 v3 : Entry) (s : State),
    AtStroke s rg c b 1 →
    OthersBusy s rg c b →
    OperandIs s rg c b 0 v0 →
    OperandIs s rg c b 1 v1 →
    OperandIs s rg c b 2 v2 →
    OperandIs s rg c b 3 v3 →
    (strokeDest (strokeAt s rg c b)).toNat < 992 →
    Completes (.eval rg c b 0) s (fun t => (t.cl rg c).done = setBit (s.cl rg c).done b.toNat true ∧
      (t.cl rg c).writes = (s.cl rg c).writes ++ [⟨b, strokeDest (strokeAt s rg c b), false,
        (strokeTt (strokeAt s rg c b)).getLsbD
          (8 * (v3.getLsbD (strokeOpd (strokeAt s rg c b) 3).2.toNat).toNat + 4 * (v2.getLsbD (strokeOpd (strokeAt s rg c b) 2).2.toNat).toNat +
            2 * (v1.getLsbD (strokeOpd (strokeAt s rg c b) 1).2.toNat).toNat + (v0.getLsbD (strokeOpd (strokeAt s rg c b) 0).2.toNat).toNat)⟩] ∧
      (t.cl rg c).pal = (s.cl rg c).pal ∧
      OnlyRegionDrawn rg s t)) ∧
  -- EVAL_S (R69, R70, R78)
  (∀ (rg : Rg) (c : Cl) (b : Bp) (v0 v1 v2 v3 : Entry) (s : State),
    AtStroke s rg c b 2 →
    OthersBusy s rg c b →
    OperandIs s rg c b 0 v0 →
    OperandIs s rg c b 1 v1 →
    OperandIs s rg c b 2 v2 →
    OperandIs s rg c b 3 v3 →
    (strokeDest (strokeAt s rg c b)).toNat < 256 →
    Completes (.evalS rg c b 0) s (fun t => (t.cl rg c).writes = (s.cl rg c).writes ++ [⟨b, strokeDest (strokeAt s rg c b), true,
        (strokeTt (strokeAt s rg c b)).getLsbD
          (8 * (v3.getLsbD (strokeOpd (strokeAt s rg c b) 3).2.toNat).toNat + 4 * (v2.getLsbD (strokeOpd (strokeAt s rg c b) 2).2.toNat).toNat +
            2 * (v1.getLsbD (strokeOpd (strokeAt s rg c b) 1).2.toNat).toNat + (v0.getLsbD (strokeOpd (strokeAt s rg c b) 0).2.toNat).toNat)⟩] ∧
      (t.cl rg c).pal = (s.cl rg c).pal ∧
      (t.cl rg c).next = (s.cl rg c).next ∧
      OnlyRegionDrawn rg s t)) ∧
  -- STROKE_BEGIN (R84), in RUN (R430)
  (∀ (rg : Rg) (c : Cl) (stallNs : Word) (s : State),
    s.rf rg F.FIX_STATUS_STATE = 2 ∧ s.f F.PWR_STATUS_STATE = 0 →
    (s.cl rg c).running = true →
    (s.cl rg c).done = BitVec.allOnes 64 →
    (s.rgn rg).strokeNo c < (s.rgn rg).endAt c →
    Completes (.strokeBegin rg c stallNs .clean .none) s (fun t => (t.cl rg c).pal = ((s.cl rg c).commit (s.cl rg c).writes).pal ∧
      (t.cl rg c).next = ((s.cl rg c).commit (s.cl rg c).writes).next ∧
      (t.cl rg c).done = 0 ∧
      (t.cl rg c).writes = [] ∧
      t.rf rg (F.CLU_STATUS_STROKE c.toNat) = s.rf rg (F.CLU_STATUS_STROKE c.toNat) + 1 ∧
      OnlyRegion rg s t)) ∧
  -- LONG_STALL (R85)
  (∀ (rg : Rg) (c : Cl) (s : State),
    s.rf rg (F.CLU_STATUS_STALLED c.toNat) = 1 ∧ s.rf rg F.RGN_CTRL_ISOLATE = 0 →
    s.rf rg (F.CLU_CTRL_STALL_WARN c.toNat) ≠ 0 →
    1000 * s.rf rg (F.CLU_CTRL_STALL_WARN c.toNat) < s.now - (s.cl rg c).since →
    Completes (.longStall rg c) s (fun t => t.rf rg (F.CLU_STATUS_LONG_STALL c.toNat) = 1 ∧
      OnlyRgnRegs rg [R.CLU_STATUS c.toNat] s t))

/-- For a BP with an undamaged word whose OP is reserved (3 to 7 or 14), or a cluster code (8 and above) in a BP other than the
lead: the stroke of the BP is complete, whatever its operands' entries hold, CLU.ERR_OP.RSVD_OP rises by one and saturates, no
palette write is made and no stall begins; the cluster is as NOP leaves it. Each clause concludes that exec answers a next state,
from conditions on the state and the operands alone, for: reservedOp. -/
def Obligations.ReservedOpExecutesAsNop : Prop :=
  (∀ (rg : Rg) (c : Cl) (b : Bp) (op : Nat) (s : State),
    AtStroke s rg c b op →
    ((3 ≤ op ∧ op ≤ 7) ∨ op = 14 ∨ (8 ≤ op ∧ b ≠ 0)) →
    OthersBusy s rg c b →
    Completes (.reservedOp rg c b 0) s (fun t => t.cl rg c = { s.cl rg c with done := setBit (s.cl rg c).done b.toNat true, waits := SMap.erase (s.cl rg c).waits b.toNat, lead := (t.cl rg c).lead } ∧
      t.rf rg (F.CLU_ERR_OP_RSVD_OP c.toNat) = min (s.rf rg (F.CLU_ERR_OP_RSVD_OP c.toNat) + 1) (F.CLU_ERR_OP_RSVD_OP c.toNat).max ∧
      (∀ e, (t.cl rg c).pal = (s.cl rg c).pal ∧ SMap.get 0 (t.rgn rg).dmem e = SMap.get 0 (s.rgn rg).dmem e)))

/-- SEND puts its data, tagged with the cycle's parity and the entry's STREAM, into the injection where there is room; a waiting
SEND is taken once there is. MEMRD and MEMWR form their word address and wait for the front port. Each clause concludes that exec
answers a next state, from conditions on the state and the operands alone, for: send, injectionTake, memrd, memwr. -/
def Obligations.ClusterOperations : Prop :=
  -- SEND (R95)
  (∀ (rg : Rg) (c : Cl) (v : Entry) (s : State),
    AtStroke s rg c 0 8 →
    OperandIs s rg c 0 0 v →
    (s.rgn rg).injectRoom = true →
    ((s.rgn rg).reg (R.RGN_ROUTE (2 * (bitsAt (strokeTt (strokeAt s rg c 0)) 0 10 : BitVec 10).toNat))).toNat / 512 % 2 = 1 →
    ((s.rgn rg).reg (R.RGN_ROUTE (2 * (bitsAt (strokeTt (strokeAt s rg c 0)) 0 10 : BitVec 10).toNat))).toNat / 64 % 8 < 6 →
    Completes (.send rg c 0 .clean) s (fun t => (∃ bu : Bundle, (t.rgn rg).inject = (s.rgn rg).inject ++ [bu] ∧ bu.data = v ∧ bu.origin = some rg ∧ bu.poison = false ∧
        bu.tag.toNat = ((s.rgn rg).reg (R.RGN_ROUTE (2 * (bitsAt (strokeTt (strokeAt s rg c 0)) 0 10 : BitVec 10).toNat))).toNat % 64 +
          64 * ((s.rgn rg).executing.toNat % 2)) ∧
      (t.cl rg c).done.getLsbD 0 = true ∧
      (t.rgn rg).fix.unaccepted = (s.rgn rg).fix.unaccepted + 1)) ∧
  -- INJECTION_TAKE
  (∀ (rg : Rg) (c : Cl) (ns : Word) (v : Entry) (ix : BitVec 10) (s : State),
    (s.cl rg c).lead = .send v ix →
    (s.rgn rg).injectRoom = true →
    ((s.rgn rg).reg (R.RGN_ROUTE (2 * ix.toNat))).toNat / 512 % 2 = 1 →
    ((s.rgn rg).reg (R.RGN_ROUTE (2 * ix.toNat))).toNat / 64 % 8 < 6 →
    Completes (.injectionTake rg c ns) s (fun t => (∃ bu : Bundle, (t.rgn rg).inject = (s.rgn rg).inject ++ [bu] ∧ bu.data = v) ∧
      (t.cl rg c).lead = .none ∧
      (t.cl rg c).done.getLsbD 0 = true)) ∧
  -- MEMRD (R74)
  (∀ (rg : Rg) (c : Cl) (v0 v1 : Entry) (s : State),
    AtStroke s rg c 0 9 →
    OperandIs s rg c 0 0 v0 →
    OperandIs s rg c 0 1 v1 →
    Completes (.memrd rg c 0) s (fun t => (t.cl rg c).lead = .memrd (bitsAt (strokeCtrl (strokeAt s rg c 0)) 0 3) (BitVec.ofNat 19 (v0.toNat % 2 ^ 19 + v1.toNat % 2 ^ 19)) ∧
      (t.cl rg c).done = (s.cl rg c).done ∧
      OnlyRegion rg s t)) ∧
  -- MEMWR (R74)
  (∀ (rg : Rg) (c : Cl) (v0 v1 v2 v3 : Entry) (s : State),
    AtStroke s rg c 0 10 →
    OperandIs s rg c 0 0 v0 →
    OperandIs s rg c 0 1 v1 →
    OperandIs s rg c 0 2 v2 →
    OperandIs s rg c 0 3 v3 →
    Completes (.memwr rg c 0) s (fun t => (t.cl rg c).lead = .memwr (BitVec.ofNat 19 (v0.toNat % 2 ^ 19 + v1.toNat % 2 ^ 19)) v2 v3 ∧
      (t.cl rg c).done = (s.cl rg c).done ∧
      OnlyRegion rg s t))

/-- The front port takes waiting accesses in the order of the list; a read's data fill its port entry, and a write changes exactly
the masked bits of its word. A PROBE's record goes to the trace writer, at once or when there is room. HALTIF with its bit at 1 is
counted and recorded. END in the last BP ends the cluster's cycle. Each clause concludes that exec answers a next state, from
conditions on the state and the operands alone, for: frontPortTake, memrdData, memwrPerformed, probe, traceWriterTake, haltif,
endStroke. -/
def Obligations.FrontPortProbesAndEnd : Prop :=
  -- FRONT_PORT_TAKE of a MEMRD (R101, R102)
  (∀ (rg : Rg) (c : Cl) (ns us : Word) (n : BitVec 3) (a : BitVec 19) (s : State),
    (s.rgn rg).nextTaker = some c →
    (s.cl rg c).lead = .memrd n a →
    (s.rgn rg).replaying = false →
    Completes (.frontPortTake rg ns us .clean) s (fun t => (t.rgn rg).mpos = (s.rgn rg).mpos + 1 ∧
      (t.rgn rg).front.length = (s.rgn rg).front.length + 1 ∧
      (t.rgn rg).front.getLast? = some (.rd c n a (BitVec.ofNat 11 ((s.rgn rg).strokeNo c)) false none) ∧
      (t.cl rg c).portFull.getLsbD (4 + n.toNat) = false ∧
      (t.cl rg c).lead = .none)) ∧
  -- FRONT_PORT_TAKE of a MEMWR (R101, R113)
  (∀ (rg : Rg) (c : Cl) (ns us : Word) (a : BitVec 19) (d m : Entry) (s : State),
    (s.rgn rg).nextTaker = some c →
    (s.cl rg c).lead = .memwr a d m →
    (s.rgn rg).undoFull = false →
    (s.rgn rg).replaying = false →
    Completes (.frontPortTake rg ns us .clean) s (fun t => (t.rgn rg).front = (s.rgn rg).front ++ [.wr c a d m (BitVec.ofNat 11 ((s.rgn rg).strokeNo c)) (s.rgn rg).takes] ∧
      (t.cl rg c).memOut = (s.cl rg c).memOut + 1 ∧
      (t.cl rg c).lead = .none)) ∧
  -- MEMRD_DATA (R81, R102)
  (∀ (rg : Rg) (c : Cl) (k : BitVec 3) (a : BitVec 19) (st : BitVec 11) (v : Option (Entry × Ecc)) (rest : List FrontAcc) (s : State),
    (s.rgn rg).front = .rd c k a st false v :: rest →
    s.rf rg F.RGN_CTRL_ISOLATE = 0 →
    (∀ x, v = some x → x.2 ≠ .uncorrectable) →
    (s.rgn rg).checked (dmemKey a.toNat) .clean = .clean →
    Completes (.memrdData rg .clean) s (fun t => SMap.get 0 (t.cl rg c).ports (4 + k.toNat) = (v.map (·.1)).getD (SMap.get 0 (s.rgn rg).dmem a.toNat) ∧
      (t.cl rg c).portFull.getLsbD (4 + k.toNat) = true ∧
      OnlyRegion rg s t)) ∧
  -- MEMWR_PERFORMED (R74, R112): the stored word, and no other, changes
  (∀ (rg : Rg) (c : Cl) (a : BitVec 19) (d m : Entry) (st : BitVec 11) (pos : BitVec 13) (rest : List FrontAcc) (s : State),
    (s.rgn rg).front = .wr c a d m st pos :: rest →
    (∀ x ∈ rest, FrontAcc.isRead x = true) →
    (s.rgn rg).checked (dmemKey a.toNat) .clean = .clean →
    Completes (.memwrPerformed rg .clean) s (fun t => SMap.get 0 (t.rgn rg).dmem a.toNat = (SMap.get 0 (s.rgn rg).dmem a.toNat &&& ~~~ m) ||| (d &&& m) ∧
      (∀ a' : Nat, a' ≠ a.toNat → SMap.get 0 (t.rgn rg).dmem a' = SMap.get 0 (s.rgn rg).dmem a') ∧
      (t.cl rg c).memOut = (s.cl rg c).memOut - 1 ∧
      OnlyRegionDrawn rg s t)) ∧
  -- PROBE (R104)
  (∀ (rg : Rg) (c : Cl) (v : Entry) (s : State),
    AtStroke s rg c 0 12 →
    OperandIs s rg c 0 0 v →
    (s.rgn rg).probeDropped = false →
    s.rf rg F.RWD_STATUS_FULL = 0 →
    (s.rgn rg).rwd.probes.length < 16 →
    Completes (.probe rg c 0) s (fun t => (∃ x : ProbeRec, (t.rgn rg).rwd.probes = (s.rgn rg).rwd.probes ++ [x] ∧ x.data = v ∧ x.num = strokeCtrl (strokeAt s rg c 0) ∧ x.c = c ∧
        x.cycle = (s.rgn rg).executing) ∧
      (t.cl rg c).done.getLsbD 0 = true ∧
      OnlyRegionDrawn rg s t)) ∧
  -- TRACE_WRITER_TAKE (R104)
  (∀ (rg : Rg) (c : Cl) (ns : Word) (num : BitVec 10) (v : Entry) (s : State),
    (s.cl rg c).lead = .probe num v →
    (s.rgn rg).probeDropped = false →
    s.rf rg F.RWD_STATUS_FULL = 0 →
    (s.rgn rg).rwd.probes.length < 16 →
    Completes (.traceWriterTake rg c ns) s (fun t => (∃ x : ProbeRec, (t.rgn rg).rwd.probes = (s.rgn rg).rwd.probes ++ [x] ∧ x.data = v ∧ x.num = num) ∧
      (t.cl rg c).lead = .none ∧
      OnlyRegionDrawn rg s t)) ∧
  -- HALTIF (R105)
  (∀ (rg : Rg) (c : Cl) (v : Entry) (s : State),
    AtStroke s rg c 0 13 →
    OperandIs s rg c 0 0 v →
    v.getLsbD (strokeOpd (strokeAt s rg c 0) 0).2.toNat = true →
    Completes (.haltif rg c 0) s (fun t => t.rf rg F.RGN_HALTIF_CNT_HITS = min (s.rf rg F.RGN_HALTIF_CNT_HITS + 1) F.RGN_HALTIF_CNT_HITS.max ∧
      t.rf rg F.RGN_HALT_SRC_HIT = 1 ∧
      (t.cl rg c).done.getLsbD 0 = true)) ∧
  -- END (R73, R75)
  (∀ (rg : Rg) (c : Cl) (ns : BitVec 20) (s : State),
    AtStroke s rg c 0 15 →
    (s.cl rg c).memOut = 0 →
    (s.cl rg c).probeOut = 0 →
    setBit (s.cl rg c).done 0 true = BitVec.allOnes 64 →
    (s.rgn rg).strokeNo c = (s.rgn rg).endAt c →
    Completes (.endStroke rg c 0 ns) s (fun t => (t.cl rg c).ended = true ∧
      (t.cl rg c).running = false ∧
      t.rf rg (F.CLU_CYCLE_TIME_LAST c.toNat) = ns.toNat ∧
      OnlyRegionDrawn rg s t))

/-- Within its grant the trace writer appends an UNDO, BIN or TRACE record whole at HEAD and then frees the port; SNAPX writes a
block of 64 words and, with the last one, completes the snapshot's mark; a due BRANCH marker is written; with 4,556 words free a
GAP record ends the FULL state. A round of the arbiter lets through the requester that the mutual-exclusion element names. REC_EN
at 0 empties the buffers. A release moves TAIL to the mark; an accepted rewind restores every region of the job to S and stops its
cores; a completed restore reads REWOUND; an armed replay is armed in every region of the job. Each clause concludes that exec
answers a next state, from conditions on the state and the operands alone, for: arbiterRound, undo, bin, trace, snapx, marker,
gap, recEn, rwdRelease, rewind, restoreDone, replayArm. CMD_ERR = 0 after an accepted RELEASE, REPLAY_ARM or REWIND is the model's
choice (log entry 131); the buffers emptied by REC_EN = 0 are log entry 78; a rewind that waits for the trace writer with MODE
unchanged is log entry 157. -/
def Obligations.RecordsRewindAndReplay : Prop :=
  -- ARBITER_ROUND (R116)
  (∀ (rg : Rg) (q : Fin 6) (ns : Word) (s : State),
    s.rf rg F.DMEM_STATUS_OWNER = 6 →
    s.debugFirst rg = false →
    (s.rgn rg).waits q = true →
    Completes (.arbiterRound rg (some q) ns) s (fun t => t.rf rg F.DMEM_STATUS_OWNER = q.val ∧
      (t.rgn rg).waits q = false ∧
      t.rf rg F.DMEM_GRANT_TIME_NS = 0 ∧
      (∀ q' : Fin 6, q' ≠ q → (t.rgn rg).waits q' = (s.rgn rg).waits q') ∧
      OnlyRegion rg s t)) ∧
  -- UNDO (R126)
  (∀ (rg : Rg) (u : UndoEntry) (us : List UndoEntry) (s : State),
    (s.rgn rg).rwd.undo = u :: us →
    s.rf rg F.DMEM_STATUS_OWNER = 4 →
    RingReady (s.rgn rg) (undoWords u).length →
    Completes (.undo rg) s (fun t => (t.rgn rg).rwd.undo = us ∧
      RingAppended (s.rgn rg) (t.rgn rg) (undoWords u) ∧
      t.rf rg F.DMEM_STATUS_OWNER = 6 ∧
      (t.rgn rg).dmem = (s.rgn rg).dmem)) ∧
  -- BIN (R127)
  (∀ (rg : Rg) (x : BinRec) (xs : List BinRec) (s : State),
    (s.rgn rg).rwd.bins = x :: xs →
    s.rf rg F.DMEM_STATUS_OWNER = 4 →
    RingReady (s.rgn rg) 3 →
    Completes (.bin rg) s (fun t => (t.rgn rg).rwd.bins = xs ∧
      RingAppended (s.rgn rg) (t.rgn rg) [recHeader x.cycle 2 false 4, x.word0, x.data])) ∧
  -- TRACE (R129)
  (∀ (rg : Rg) (x : ProbeRec) (xs : List ProbeRec) (s : State),
    (s.rgn rg).rwd.probes = x :: xs →
    s.rf rg F.DMEM_STATUS_OWNER = 4 →
    RingReady (s.rgn rg) 3 →
    Completes (.trace rg) s (fun t => (t.rgn rg).rwd.probes = xs ∧
      (∃ w0, RingAppended (s.rgn rg) (t.rgn rg) [recHeader x.cycle 2 (s.rgn rg).replaying 6, w0, x.data]) ∧
      (t.cl rg x.c).probeOut = (s.cl rg x.c).probeOut - 1)) ∧
  -- SNAPX (R124): a block of 64 words of SNAPX is written behind those that stand
  (∀ (rg : Rg) (sn : Snapshot) (s : State),
    (s.rgn rg).rwd.snap = some sn →
    (s.rgn rg).snapReady = true →
    snapLen ≤ sn.done ∧ sn.done + 64 < snapSpan →
    s.rf rg F.DMEM_STATUS_OWNER = 4 →
    Completes (.snapx rg) s (fun t => (t.rgn rg).rwd.snap = some { sn with done := sn.done + 64 } ∧
      (t.rgn rg).ring = ringPut (s.rgn rg).ring (sn.pos.toNat + sn.done) (((snapxWords (s.rgn rg) sn).drop (sn.done - snapLen)).take 64) ∧
      t.rf rg F.DMEM_STATUS_OWNER = 6 ∧
      OnlyRegion rg s t)) ∧
  -- the last block completes the snapshot
  (∀ (rg : Rg) (sn : Snapshot) (s : State),
    (s.rgn rg).rwd.snap = some sn →
    (s.rgn rg).snapReady = true →
    snapSpan ≤ sn.done + 64 ∧ sn.done < snapSpan →
    s.rf rg F.DMEM_STATUS_OWNER = 4 →
    Completes (.snapx rg) s (fun t => (t.rgn rg).rwd.snap = none ∧
      t.rf rg (F.RWD_MARK_COMPLETE (sn.seq.toNat % 64)) = 1 ∧
      t.rf rg F.RWD_STATUS_SNAP_PENDING = 0 ∧
      OnlyRegion rg s t)) ∧
  -- MARKER (R130, R139)
  (∀ (rg : Rg) (n : BitVec 48) (s : State),
    (s.rgn rg).rwd.branchDue = some n →
    (s.rgn rg).rwd.gapDue = none →
    (s.rgn rg).recording = true →
    s.rf rg F.RWD_STATUS_FULL = 0 →
    2 ≤ s.rf rg F.RWD_FREE_WORDS →
    s.rf rg F.DMEM_STATUS_OWNER = 4 →
    Completes (.marker rg) s (fun t => (t.rgn rg).rwd.branchDue = none ∧
      RingAppended (s.rgn rg) (t.rgn rg) [recHeader n 1 false 7, 2])) ∧
  -- GAP (R133)
  (∀ (rg : Rg) (s : State),
    s.rf rg F.RWD_STATUS_FULL = 1 →
    4556 ≤ s.rf rg F.RWD_FREE_WORDS →
    (s.rgn rg).recording = true →
    s.rf rg F.DMEM_STATUS_OWNER = 4 →
    Completes (.gap rg) s (fun t => t.rf rg F.RWD_STATUS_FULL = 0 ∧
      t.rf rg F.RWD_STATUS_GAP = 1 ∧
      (∃ w, RingAppended (s.rgn rg) (t.rgn rg) [recHeader (s.rgn rg).rwd.gapCycle 1 false 7, w]) ∧
      (∀ i : Fin 64, t.rf rg (F.RWD_MARK_USABLE i.val) = 0))) ∧
  -- REC_EN (R134): what the trace writer holds is discarded
  (∀ (rg : Rg) (s : State),
    (s.rgn rg).recording = true →
    Completes (.recEn rg false) s (fun t => t.rf rg F.RWD_CTRL_REC_EN = 0 ∧
      (t.rgn rg).rwd.undo = [] ∧
      (t.rgn rg).rwd.bins = [] ∧
      (t.rgn rg).rwd.probes = [] ∧
      OnlyRegionDrawn rg s t)) ∧
  -- RWD_RELEASE (R132)
  (∀ (rg : Rg) (i : Nat) (s : State),
    (s.rgn rg).findMark (s.rgn rg).arg (fun _ => true) = some i →
    i < 64 →
    Completes (.rwdRelease rg) s (fun t => t.rf rg F.RWD_TAIL_WORD = s.rf rg (F.RWD_MARK_POS i) ∧
      t.rf rg F.RWD_STATUS_CMD_ERR = 0 ∧
      OnlyRegion rg s t)) ∧
  -- REWIND (R136, R137), with nothing left in the trace writer (R115)
  (∀ (rg g : Rg) (j : Job) (s : State),
    s.jobOf rg = some j →
    rewindCode s rg = 0 →
    g ∈ s.jobRegions j →
    (s.rgn g).writerIdle = true →
    Completes (.rewind rg []) s (fun t => t.rf g F.RWD_STATUS_MODE = 2 ∧ t.rf g F.RWD_STATUS_CMD_BUSY = 1 ∧ t.rf g F.RWD_STATUS_CMD_ERR = 0 ∧
      (t.rgn g).cycle = (s.rgn rg).arg ∧
      (∀ k : CoreNo, t.rf g (F.EAS_STATUS_STATE k.val) = 3 ∨ (s.eas g k).stopFrom.isSome = true))) ∧
  -- with records still to write, the region waits for them
  (∀ (rg g : Rg) (j : Job) (s : State),
    s.jobOf rg = some j →
    rewindCode s rg = 0 →
    g ∈ s.jobRegions j →
    (s.rgn g).writerIdle = false →
    Completes (.rewind rg []) s (fun t => t.rf g F.RWD_STATUS_MODE = s.rf g F.RWD_STATUS_MODE ∧ t.rf g F.RWD_STATUS_CMD_BUSY = 1 ∧ t.rf g F.RWD_STATUS_CMD_ERR = 0 ∧
      (t.rgn g).cycle = (s.rgn g).cycle ∧ (t.rgn g).rwd.bins = (s.rgn g).rwd.bins ∧ (t.rgn g).rwd.restoring.isSome = true)) ∧
  -- RESTORE_DONE (R137)
  (∀ (rg : Rg) (j : Job) (s : State),
    rg ∈ s.jobRegions j →
    s.rf rg F.RWD_STATUS_MODE = 2 →
    (∀ g ∈ s.jobRegions j, (s.rgn g).resetDue = false ∧ (s.rgn g).rwd.restoring = none) →
    Completes (.restoreDone j) s (fun t => t.rf rg F.RWD_STATUS_MODE = 4 ∧
      t.rf rg F.RWD_STATUS_CMD_BUSY = 0 ∧
      (t.job j).hold.isSome = true)) ∧
  -- REPLAY_ARM (R138)
  (∀ (rg g : Rg) (j : Job) (h : BitVec 48) (s : State),
    s.jobOf rg = some j →
    (s.job j).hold = some h →
    s.rf rg F.RWD_STATUS_MODE = 4 →
    h.toNat < (s.rgn rg).replayTo.toNat →
    (s.rgn rg).replayTo.toNat ≤ ((s.rgn rg).get48 R.RWD_LAST_REC_LO R.RWD_LAST_REC_HI).toNat →
    g ∈ s.jobRegions j →
    Completes (.replayArm rg) s (fun t => (t.rgn g).rwd.armed = some (s.rgn rg).replayTo ∧
      t.rf rg F.RWD_STATUS_CMD_ERR = 0))

/-- A bundle of the injection whose EGRESS is LOCAL goes, unchanged but for its input, to its own region's LOCAL output. A clean
bundle at that output whose map entry is valid and whose side is empty fills the side of its parity of its slot and leaves the
queue; a full side keeps it waiting. JPOST on a disabled endpoint is acknowledged at once and empties its entry; a waiting JPOST
whose lanes are all taken is complete; an endpoint whose lanes have delivered fills the junction's entry. Each clause concludes
that exec answers a next state, from conditions on the state and the operands alone, for: bundleForward, bundleAccept, jpost,
jpostAck, junctionDeliver. -/
def Obligations.BundlesAndJunctions : Prop :=
  -- BUNDLE_FORWARD from the injection (R95, R267)
  (∀ (rg : Rg) (par : Bool) (ns : Word) (b : Bundle) (s : State),
    (s.rgn rg).inject = [b] →
    b.parity = par →
    b.egress = 4 →
    s.bundles rg.toNat 31 par = [] →
    Completes (.bundleForward (.router rg) 4 par .clean .clean false ns) s (fun t => t.bundles rg.toNat 31 par = [{ b with via := 4 }] ∧
      (t.rgn rg).inject = [])) ∧
  -- BUNDLE_ACCEPT (R98)
  (∀ (rg : Rg) (par : Bool) (ns : Word) (b : Bundle) (rest : List Bundle) (s : State),
    s.bundles rg.toNat 31 par = b :: rest ∧ s.rf rg F.RGN_CTRL_ISOLATE = 0 →
    b.parity = par →
    b.poison = false →
    b.port = none →
    b.origin = none →
    64 * b.via.toNat + b.stream < 384 →
    ((s.rgn rg).reg (R.RGN_XMAP (64 * b.via.toNat + b.stream))).toNat / 256 % 2 = 1 →
    sideFull (s.rgn rg) (BitVec.ofNat 4 (((s.rgn rg).reg (R.RGN_XMAP (64 * b.via.toNat + b.stream))).toNat / 16)) (((s.rgn rg).reg (R.RGN_XMAP (64 * b.via.toNat + b.stream))).toNat % 16) par = false →
    Completes (.bundleAccept rg par false .clean false ns) s (fun t => t.bundles rg.toNat 31 par = rest ∧
      SMap.get 0 (t.cl rg (BitVec.ofNat 4 (((s.rgn rg).reg (R.RGN_XMAP (64 * b.via.toNat + b.stream))).toNat / 16))).exch
        (16 * par.toNat + ((s.rgn rg).reg (R.RGN_XMAP (64 * b.via.toNat + b.stream))).toNat % 16) = b.data ∧
      sideFull (t.rgn rg) (BitVec.ofNat 4 (((s.rgn rg).reg (R.RGN_XMAP (64 * b.via.toNat + b.stream))).toNat / 16)) (((s.rgn rg).reg (R.RGN_XMAP (64 * b.via.toNat + b.stream))).toNat % 16) par = true)) ∧
  -- JPOST with its endpoint off (R103)
  (∀ (rg : Rg) (c : Cl) (v : Entry) (s : State),
    AtStroke s rg c 0 11 →
    OperandIs s rg c 0 0 v →
    (s.endpoint rg (junctionNo c (bitsAt (strokeCtrl (strokeAt s rg c 0)) 0 2))).1 = false →
    ((s.rgn rg).cell (junctionCell (junctionNo c (bitsAt (strokeCtrl (strokeAt s rg c 0)) 0 2)))).clamped = false →
    (s.rgn rg).jreplayed c (bitsAt (strokeCtrl (strokeAt s rg c 0)) 0 2) = false →
    Completes (.jpost rg c 0) s (fun t => (t.cl rg c).done.getLsbD 0 = true ∧
      (t.cl rg c).portFull.getLsbD (bitsAt (strokeCtrl (strokeAt s rg c 0)) 0 2 : BitVec 2).toNat = false)) ∧
  -- JPOST_ACK (R103, R170)
  (∀ (rg : Rg) (c : Cl) (ns : Word) (j : BitVec 2) (v : Entry) (s : State),
    (s.cl rg c).lead = .jpost j v true →
    ((s.rgn rg).cell (junctionCell (junctionNo c j))).clamped = false →
    s.rf rg F.RGN_CTRL_ISOLATE = 0 →
    (∀ k : Fin 4, SMap.get none (s.rgn rg).lanes (4 * junctionNo c j + k.val) = none) →
    (s.rgn rg).jreplayed c j = false →
    Completes (.jpostAck rg c ns) s (fun t => (t.cl rg c).done.getLsbD 0 = true ∧
      (t.cl rg c).lead = .none ∧
      (t.cl rg c).portFull.getLsbD j.toNat = false)) ∧
  -- JUNCTION_DELIVER (R171)
  (∀ (rg : Rg) (c : Cl) (j : BitVec 2) (s : State),
    (s.endpoint rg (junctionNo c j)).1 = true →
    (s.endpoint rg (junctionNo c j)).2.2 ≠ 0 →
    (s.cl rg c).portFull.getLsbD j.toNat = false →
    s.rf rg F.RGN_CTRL_ISOLATE = 0 →
    (s.rgn rg).canvasRuns = true →
    ((s.rgn rg).cell (junctionCell (junctionNo c j))).clamped = false →
    (s.rgn rg).jreplayed c j = false →
    (laneTokens s rg (junctionNo c j) (s.endpoint rg (junctionNo c j)).2.2).any Option.isNone = false →
    Completes (.junctionDeliver rg c j) s (fun t => SMap.get 0 (t.cl rg c).ports j.toNat = BitVec.ofNat 64 (laneWord (laneTokens s rg (junctionNo c j) (s.endpoint rg (junctionNo c j)).2.2)) ∧
      (t.cl rg c).portFull.getLsbD j.toNat = true))

/-- A cell that is ready, with the output in question enabled, and no stopped region: after PASS, ADD, SUB, AND, OR, XOR, SHIFT or
CMP its Y0 (or the flags F) carries the result of its row of the table of its operands as they stood. Each clause concludes that
exec answers a next state, from conditions on the state and the operands alone, for: cnvPass, cnvAdd, cnvSub, cnvAnd, cnvOr,
cnvXor, cnvShift, cnvCmp. -/
def Obligations.CanvasOperations : Prop :=
  -- PASS (R150)
  (∀ (rg : Rg) (n : CellNo) (s : State),
    CellReady s rg n 0x00 12 →
    Completes (.cnvPass rg n) s (fun t => ((t.rgn rg).cell n).y0 = some (cellA s rg n) ∧
      ((t.rgn rg).cell n).acc = ((s.rgn rg).cell n).acc)) ∧
  -- ADD
  (∀ (rg : Rg) (n : CellNo) (s : State),
    CellReady s rg n 0x01 12 →
    Completes (.cnvAdd rg n) s (fun t => ((t.rgn rg).cell n).y0 = some (cellA s rg n + cellB s rg n + (if cellC s rg n then 1 else 0)) ∧
      ((t.rgn rg).cell n).acc = ((s.rgn rg).cell n).acc)) ∧
  -- SUB
  (∀ (rg : Rg) (n : CellNo) (s : State),
    CellReady s rg n 0x02 12 →
    Completes (.cnvSub rg n) s (fun t => ((t.rgn rg).cell n).y0 = some (cellA s rg n - cellB s rg n - (if cellC s rg n then 1 else 0)) ∧
      ((t.rgn rg).cell n).acc = ((s.rgn rg).cell n).acc)) ∧
  -- AND, OR, XOR
  (∀ (rg : Rg) (n : CellNo) (s : State),
    CellReady s rg n 0x03 12 →
    Completes (.cnvAnd rg n) s (fun t => ((t.rgn rg).cell n).y0 = some (cellA s rg n &&& cellB s rg n) ∧
      ((t.rgn rg).cell n).acc = ((s.rgn rg).cell n).acc)) ∧
  (∀ (rg : Rg) (n : CellNo) (s : State),
    CellReady s rg n 0x04 12 →
    Completes (.cnvOr rg n) s (fun t => ((t.rgn rg).cell n).y0 = some (cellA s rg n ||| cellB s rg n) ∧
      ((t.rgn rg).cell n).acc = ((s.rgn rg).cell n).acc)) ∧
  (∀ (rg : Rg) (n : CellNo) (s : State),
    CellReady s rg n 0x05 12 →
    Completes (.cnvXor rg n) s (fun t => ((t.rgn rg).cell n).y0 = some (cellA s rg n ^^^ cellB s rg n) ∧
      ((t.rgn rg).cell n).acc = ((s.rgn rg).cell n).acc)) ∧
  -- SHIFT to the left, and to the right
  (∀ (rg : Rg) (n : CellNo) (s : State),
    CellReady s rg n 0x06 12 →
    entMod (cellE s rg n) = 0 →
    Completes (.cnvShift rg n) s (fun t => ((t.rgn rg).cell n).y0 = some (cellA s rg n <<< ((cellB s rg n).toNat % 16)) ∧
      ((t.rgn rg).cell n).acc = ((s.rgn rg).cell n).acc)) ∧
  (∀ (rg : Rg) (n : CellNo) (s : State),
    CellReady s rg n 0x06 12 →
    entMod (cellE s rg n) = 1 →
    Completes (.cnvShift rg n) s (fun t => ((t.rgn rg).cell n).y0 = some (cellA s rg n >>> ((cellB s rg n).toNat % 16)))) ∧
  -- CMP: equal, less unsigned, less signed
  (∀ (rg : Rg) (n : CellNo) (s : State),
    CellReady s rg n 0x07 14 →
    Completes (.cnvCmp rg n) s (fun t => (∃ f : BitVec 4, ((t.rgn rg).cell n).f = some f ∧ f.getLsbD 0 = decide (cellA s rg n = cellB s rg n) ∧
        f.getLsbD 1 = decide ((cellA s rg n).toNat < (cellB s rg n).toNat) ∧ f.getLsbD 2 = decide ((cellA s rg n).toInt < (cellB s rg n).toInt)) ∧
      ((t.rgn rg).cell n).y0 = none))

/-- A cell that is ready, with the output in question enabled, and no stopped region: MUX, ACC, LUT, FORK, JOIN, STEER and MERGE
put what their row of the table gives on their outputs, and only ACC changes the accumulator. A reserved operation is counted once
and emits nothing. The active level of the latch clock loads the word. FIGHT disables a segment, and FIGHT_CLEAR enables what is
sound again. Each clause concludes that exec answers a next state, from conditions on the state and the operands alone, for:
cnvMux, cnvAcc, cnvLut, cnvFork, cnvJoin, cnvSteer, cnvMerge, cnvReservedOpc, latchClock, fight, fightClear. That LATCH_CLOCK
takes the level of the driving track where there is one, and its operand for a wire left open, is log entry 115. -/
def Obligations.CanvasChoicesAndLatches : Prop :=
  -- MUX
  (∀ (rg : Rg) (n : CellNo) (s : State),
    CellReady s rg n 0x08 12 →
    Completes (.cnvMux rg n) s (fun t => ((t.rgn rg).cell n).y0 = some (if cellC s rg n then cellB s rg n else cellA s rg n) ∧
      ((t.rgn rg).cell n).acc = ((s.rgn rg).cell n).acc)) ∧
  -- ACC adds
  (∀ (rg : Rg) (n : CellNo) (s : State),
    CellReady s rg n 0x09 12 →
    entMod (cellE s rg n) = 0 →
    Completes (.cnvAcc rg n) s (fun t => ((t.rgn rg).cell n).acc = ((s.rgn rg).cell n).acc + cellA s rg n + (if cellC s rg n then 1 else 0) ∧
      ((t.rgn rg).cell n).y0 = some ((t.rgn rg).cell n).acc)) ∧
  -- LUT
  (∀ (rg : Rg) (n : CellNo) (s : State),
    CellReady s rg n 0x0A 14 →
    Completes (.cnvLut rg n) s (fun t => (∃ f : BitVec 4, ((t.rgn rg).cell n).f = some f ∧ ∀ i : Fin 4, f.getLsbD i.val =
        (bitsAt (s.cellCfg rg n) (128 + 16 * i.val) 16 : BitVec 16).getLsbD (bitsAt (cellA s rg n) (4 * i.val) 4 : BitVec 4).toNat))) ∧
  -- FORK
  (∀ (rg : Rg) (n : CellNo) (s : State),
    CellReady s rg n 0x10 12 →
    Completes (.cnvFork rg n) s (fun t => ((t.rgn rg).cell n).y0 = some (cellA s rg n) ∧
      ((cellE s rg n).getLsbD 13 = true → ((t.rgn rg).cell n).y1 = some (cellA s rg n)))) ∧
  -- JOIN
  (∀ (rg : Rg) (n : CellNo) (s : State),
    CellReady s rg n 0x11 12 →
    Completes (.cnvJoin rg n) s (fun t => ((t.rgn rg).cell n).y0 = some (cellA s rg n) ∧
      ((cellE s rg n).getLsbD 13 = true → ((t.rgn rg).cell n).y1 = some (cellB s rg n)))) ∧
  -- STEER
  (∀ (rg : Rg) (n : CellNo) (s : State),
    CellReady s rg n 0x13 12 →
    Completes (.cnvSteer rg n) s (fun t => ((t.rgn rg).cell n).y0 = (if cellC s rg n then none else some (cellA s rg n)) ∧
      ((cellE s rg n).getLsbD 13 = true → ((t.rgn rg).cell n).y1 = (if cellC s rg n then some (cellA s rg n) else none)))) ∧
  -- MERGE, not logged (R152)
  (∀ (rg : Rg) (n : CellNo) (pickB : Bool) (s : State),
    CellReady s rg n 0x12 12 →
    mergeLogged s rg n = false →
    ((if pickB then entB (cellE s rg n) else entA (cellE s rg n)) ≠ 0 ∨ (inputToken s rg n (if pickB then 1 else 0)).isSome = true) →
    Completes (.cnvMerge rg n pickB) s (fun t => ((t.rgn rg).cell n).y0 = some (if pickB then cellB s rg n else cellA s rg n) ∧
      (t.rgn rg).mlog = (s.rgn rg).mlog)) ∧
  -- a reserved OPC without S is counted once, and emits nothing (R151)
  (∀ (rg : Rg) (n : CellNo) (s : State),
    cfgMode (s.cellCfg rg n) = 1 ∧ cfgChain (s.cellCfg rg n) = 0 ∧ cfgSsrc (s.cellCfg rg n) = false →
    cellFree s rg n = true →
    reservedOpc (entOpc (cellE s rg n)) false = true →
    ((s.rgn rg).cell n).counted = false →
    Completes (.cnvReservedOpc rg n) s (fun t => t.rf rg F.CNV_ERR_RSVD_OPC = min (s.rf rg F.CNV_ERR_RSVD_OPC + 1) F.CNV_ERR_RSVD_OPC.max ∧
      (t.rgn rg).cell n = { (s.rgn rg).cell n with counted := true } ∧
      OnlyRegion rg s t)) ∧
  -- LATCH_CLOCK (R161): the active level loads Y0's word
  (∀ (rg : Rg) (n : CellNo) (level : Bool) (wires : BitVec 16) (s : State),
    (cfgMode (s.cellCfg rg n) = 1 ∨ cfgMode (s.cellCfg rg n) = 2) →
    latchClocked (s.cellCfg rg n) = true →
    chainOff s rg n = false →
    ((selSingle (cfgField (s.cellCfg rg n) 750 6)).bind (fun x => trackLevel s rg (boxOf rg n) x.1 x.2)).getD level = true →
    cfgField (s.cellCfg rg n) 202 1 = 0 ∧ cfgField (s.cellCfg rg n) 203 2 = 0 →
    ((s.rgn rg).cell n).clk = false ∧ ((s.rgn rg).cell n).clamped = false →
    (s.rgn rg).canvasRuns = true →
    Completes (.latchClock rg n level wires) s (fun t => (t.rgn rg).cell n = { (s.rgn rg).cell n with q := ((s.rgn rg).cell n).hold, clk := true } ∧
      OnlyRegion rg s t)) ∧
  -- FIGHT (R167)
  (∀ (rg : Rg) (sg : SegAt) (g : Seg) (s : State),
    segNamed rg sg = some g →
    segDisabled s (quadOf rg) g = false →
    g.t < trackCount g.cls →
    Completes (.fight rg sg) s (fun t => (t.rgn rg).disabled = (s.rgn rg).disabled ++ [sg] ∧
      t.rf rg F.CNV_FIGHT_CNT_FIGHTS = min (s.rf rg F.CNV_FIGHT_CNT_FIGHTS + 1) F.CNV_FIGHT_CNT_FIGHTS.max ∧
      t.rf rg F.CNV_STATUS_FIGHT = 1)) ∧
  -- FIGHT_CLEAR (R168): what is sound again is enabled
  (∀ (rg : Rg) (s : State),
    (s.rgn rg).disabled.all (fun a => match segNamed rg a with | some g => segQuiet s (quadOf rg) g | none => true) = true →
    Completes (.fightClear rg) s (fun t => (t.rgn rg).disabled = [] ∧
      (t.rgn rg).fightSeen = false ∧
      t.rf rg F.CNV_STATUS_FIGHT = 0 ∧
      OnlyRegion rg s t))

/-- A TOKEN input enters the four-place input queue, or is discarded and counted as an overrun; a LEVEL request is answered with
the pin's level; an EDGE input counts edges; an output token sets the pin, and with none ready the period is an underrun; an
enable token drives or releases the pin; a delay moves by steps, and without a clock at once; a bank's supply out of range clears
its VOK and sets VMISMATCH. Each clause concludes that exec answers a next state, from conditions on the state and the operands
alone, for: fioInputToken, levelRequest, edgeInput, fioOutputToken, enableToken, fioDly, delayStep, ioSupplyMismatch,
ioSupplyReturn. -/
def Obligations.PinsOfARegion : Prop :=
  -- FIO_INPUT_TOKEN (R176, R178)
  (∀ (rg : Rg) (i : BitVec 3) (w : BitVec 16) (s : State),
    ioWorks s rg i.toNat = true →
    ioInput (s.ioCfg rg i.toNat) i.toNat = true →
    ioImode (s.ioCfg rg i.toNat) i.toNat = 0 →
    ioClocked s rg i.toNat = true →
    ((s.rgn rg).ioCell i.toNat).inQ.length < 4 →
    (∀ g : Rg, (s.rgn g).canvasStopped = false) →
    Completes (.fioInputToken rg i false w) s (fun t => ((t.rgn rg).ioCell i.toNat).inQ = ((s.rgn rg).ioCell i.toNat).inQ ++ [BitVec.ofNat 16 (w.toNat % 2 ^ ioGear (s.ioCfg rg i.toNat))] ∧
      OnlyRegion rg s t)) ∧
  -- a fifth is discarded and counted
  (∀ (rg : Rg) (i : BitVec 3) (w : BitVec 16) (s : State),
    ioWorks s rg i.toNat = true →
    ioInput (s.ioCfg rg i.toNat) i.toNat = true →
    ioImode (s.ioCfg rg i.toNat) i.toNat = 0 →
    ioClocked s rg i.toNat = true →
    ((s.rgn rg).ioCell i.toNat).inQ.length = 4 →
    Completes (.fioInputToken rg i false w) s (fun t => ((t.rgn rg).ioCell i.toNat).inQ = ((s.rgn rg).ioCell i.toNat).inQ ∧
      t.rf rg F.CNV_IOERR_OVERRUN = min (s.rf rg F.CNV_IOERR_OVERRUN + 1) F.CNV_IOERR_OVERRUN.max)) ∧
  -- LEVEL_REQUEST (R176)
  (∀ (rg : Rg) (i : BitVec 3) (level : Bool) (s : State),
    ioWorks s rg i.toNat = true →
    ioInput (s.ioCfg rg i.toNat) i.toNat = true →
    ioImode (s.ioCfg rg i.toNat) i.toNat = 2 →
    ((s.rgn rg).ioCell i.toNat).inQ = [] →
    (ioToken s rg i.toNat 2).isSome = true →
    Completes (.levelRequest rg i false level) s (fun t => ((t.rgn rg).ioCell i.toNat).inQ = [if level then 1 else 0])) ∧
  -- EDGE_INPUT (R176): every edge counts with EDGESEL 2
  (∀ (rg : Rg) (i : BitVec 3) (s : State),
    ioWorks s rg i.toNat = true →
    ioInput (s.ioCfg rg i.toNat) i.toNat = true →
    ioImode (s.ioCfg rg i.toNat) i.toNat = 1 →
    ioEdgeSel (s.ioCfg rg i.toNat) i.toNat = 2 →
    ((s.rgn rg).ioCell i.toNat).edges ≠ 15 →
    Completes (.edgeInput rg i false true) s (fun t => ((t.rgn rg).ioCell i.toNat).edges = ((s.rgn rg).ioCell i.toNat).edges + 1 ∧
      OnlyRegion rg s t)) ∧
  -- FIO_OUTPUT_TOKEN (R177, R178)
  (∀ (rg : Rg) (i : BitVec 3) (v : BitVec 16) (rest : List (BitVec 16)) (s : State),
    ioWorks s rg i.toNat = true →
    (ioDir (s.ioCfg rg i.toNat) = 1 ∨ ioDir (s.ioCfg rg i.toNat) = 2) →
    ioOmode (s.ioCfg rg i.toNat) i.toNat = 0 →
    ioClocked s rg i.toNat = true →
    ((s.rgn rg).ioCell i.toNat).outQ = v :: rest →
    ioToken s rg i.toNat (ioData (s.ioCfg rg i.toNat) i.toNat) = none →
    Completes (.fioOutputToken rg i false) s (fun t => ((t.rgn rg).ioCell i.toNat).outQ = rest ∧
      ((t.rgn rg).ioCell i.toNat).level = v.getLsbD (ioGear (s.ioCfg rg i.toNat) - 1) ∧
      OnlyRegion rg s t)) ∧
  -- ENABLE_TOKEN (R177)
  (∀ (rg : Rg) (i : BitVec 3) (d : Drive) (v : BitVec 16) (s : State),
    ioWorks s rg i.toNat = true →
    ioDir (s.ioCfg rg i.toNat) = 2 →
    ioToken s rg i.toNat 2 = some (d, v) →
    Completes (.enableToken rg i false) s (fun t => ((t.rgn rg).ioCell i.toNat).driven = v.getLsbD 0)) ∧
  -- FIO_DLY without a running clock (R179)
  (∀ (rg : Rg) (i : BitVec 3) (a b : BitVec 8) (s : State),
    numOf rg < 4 →
    Completes (.fioDly rg i a b false) s (fun t => t.rf rg (F.CNV_FIO_DLY_IDELAY i.toNat) = a.toNat ∧
      t.rf rg (F.CNV_FIO_DLY_ODELAY i.toNat) = b.toNat ∧
      t.rf rg (F.CNV_FIO_DLY_BUSY i.toNat) = 0 ∧
      OnlyRegion rg s t)) ∧
  -- DELAY_STEP (R179)
  (∀ (rg : Rg) (i : BitVec 3) (s : State),
    numOf rg < 4 →
    s.rf rg (F.CNV_FIO_DLY_BUSY i.toNat) = 1 →
    Completes (.delayStep rg i) s (fun t => t.rf rg (F.CNV_FIO_DLY_IDELAY i.toNat) = stepTo (s.rf rg (F.CNV_FIO_DLY_IDELAY i.toNat)) (((s.rgn rg).ioCell i.toNat).dly.toNat % 256) ∧
      t.rf rg (F.CNV_FIO_DLY_ODELAY i.toNat) = stepTo (s.rf rg (F.CNV_FIO_DLY_ODELAY i.toNat)) (((s.rgn rg).ioCell i.toNat).dly.toNat / 256) ∧
      OnlyRegion rg s t)) ∧
  -- IO_SUPPLY_MISMATCH and IO_SUPPLY_RETURN (R181)
  (∀ (q : Quad) (s : State),
    s.supplyWatched = true →
    Completes (.ioSupplyMismatch q false) s (fun t => t.rf (quadHome q.toNat) F.CNV_BANK_FIO_VOK = 0 ∧
      t.rf (quadHome q.toNat) F.CNV_BANK_VMISMATCH = 1 ∧
      OnlyRgnRegs (quadHome q.toNat) [R.CNV_BANK] { s with pwr := { s.pwr with lowBanks := t.pwr.lowBanks }, drawn := t.drawn } t)) ∧
  (∀ (q : Quad) (s : State),
    Completes (.ioSupplyReturn q true) s (fun t => t.rf (quadHome q.toNat) F.CNV_BANK_UIO_VOK = 1 ∧ t.pwr.lowBanks = setBit s.pwr.lowBanks (2 * q.toNat + 1) false ∧
      OnlyRgnRegs (quadHome q.toNat) [R.CNV_BANK] { s with pwr := { s.pwr with lowBanks := t.pwr.lowBanks } } t))

/-- For a running core at a register-form ALU instruction: RD holds the result of the opcode's row, no other register changes, Z,
N, C and V are as R332 says, the rest of SR and of the core, the region and the package is unchanged, and the core stands at the
next instruction. CMP changes the flags alone, NOP nothing. Each clause concludes that exec answers a next state, from conditions
on the state and the operands alone, for: easNop, easAdd, easSub, easAnd, easOr, easXor, easShl, easShr, easShra, easCmp. -/
def Obligations.EaselArithmetic : Prop :=
  (∀ (rg : Rg) (k : CoreNo) (s : State),
    CoreAt s rg k 0x00 →
    Completes (.easNop rg k) s (fun t => CoreStep s t rg k (s.eas rg k) ∧
      OnlyCore rg k s t ∧
      t.rf rg (F.EAS_PERF_INSN_COUNT k.val) = min (s.rf rg (F.EAS_PERF_INSN_COUNT k.val) + 1) (F.EAS_PERF_INSN_COUNT k.val).max)) ∧
  (∀ (rg : Rg) (k : CoreNo) (s : State),
    CoreAt s rg k 0x01 →
    Completes (.easAdd rg k) s (fun t => AluDone s t rg k (coreA s rg k + coreB s rg k) (decide (65536 ≤ (coreA s rg k).toNat + (coreB s rg k).toNat)) (decide ((coreA s rg k).toInt + (coreB s rg k).toInt ≠ (coreA s rg k + coreB s rg k).toInt)))) ∧
  (∀ (rg : Rg) (k : CoreNo) (s : State),
    CoreAt s rg k 0x02 →
    Completes (.easSub rg k) s (fun t => AluDone s t rg k (coreA s rg k - coreB s rg k) (decide ((coreA s rg k).toNat < (coreB s rg k).toNat)) (decide ((coreA s rg k).toInt - (coreB s rg k).toInt ≠ (coreA s rg k - coreB s rg k).toInt)))) ∧
  (∀ (rg : Rg) (k : CoreNo) (s : State),
    CoreAt s rg k 0x03 →
    Completes (.easAnd rg k) s (fun t => AluDone s t rg k (coreA s rg k &&& coreB s rg k) false false)) ∧
  (∀ (rg : Rg) (k : CoreNo) (s : State),
    CoreAt s rg k 0x04 →
    Completes (.easOr rg k) s (fun t => AluDone s t rg k (coreA s rg k ||| coreB s rg k) false false)) ∧
  (∀ (rg : Rg) (k : CoreNo) (s : State),
    CoreAt s rg k 0x05 →
    Completes (.easXor rg k) s (fun t => AluDone s t rg k (coreA s rg k ^^^ coreB s rg k) false false)) ∧
  (∀ (rg : Rg) (k : CoreNo) (s : State),
    CoreAt s rg k 0x06 →
    Completes (.easShl rg k) s (fun t => AluDone s t rg k (coreA s rg k <<< ((coreB s rg k).toNat % 16)) (decide (((coreB s rg k).toNat % 16) ≠ 0) && (coreA s rg k).getLsbD (16 - ((coreB s rg k).toNat % 16))) false)) ∧
  (∀ (rg : Rg) (k : CoreNo) (s : State),
    CoreAt s rg k 0x07 →
    Completes (.easShr rg k) s (fun t => AluDone s t rg k (coreA s rg k >>> ((coreB s rg k).toNat % 16)) (decide (((coreB s rg k).toNat % 16) ≠ 0) && (coreA s rg k).getLsbD (((coreB s rg k).toNat % 16) - 1)) false)) ∧
  (∀ (rg : Rg) (k : CoreNo) (s : State),
    CoreAt s rg k 0x08 →
    Completes (.easShra rg k) s (fun t => AluDone s t rg k ((coreA s rg k).sshiftRight ((coreB s rg k).toNat % 16)) (decide (((coreB s rg k).toNat % 16) ≠ 0) && (coreA s rg k).getLsbD (((coreB s rg k).toNat % 16) - 1)) false)) ∧
  (∀ (rg : Rg) (k : CoreNo) (s : State),
    CoreAt s rg k 0x09 →
    Completes (.easCmp rg k) s (fun t => FlagsBecome s t rg k (coreA s rg k - coreB s rg k) (decide ((coreA s rg k).toNat < (coreB s rg k).toNat)) (decide ((coreA s rg k).toInt - (coreB s rg k).toInt ≠ (coreA s rg k - coreB s rg k).toInt)) ∧
      CoreStep s t rg k { s.eas rg k with sr := (t.eas rg k).sr } ∧
      OnlyCore rg k s t))

/-- For a running core at ADDI, ANDI, ORI, XORI, LDI, CMPI or MVS: RD holds the result, no other register changes, the flags are
as R332 says, and nothing else of the package changes. MSV writes its special register: a pointer at once, and B, L or RB so that
the next two instructions do not see it. Each clause concludes that exec answers a next state, from conditions on the state and
the operands alone, for: easAddi, easAndi, easOri, easXori, easLdi, easCmpi, easMvs, easMsv. -/
def Obligations.EaselImmediatesAndMoves : Prop :=
  (∀ (rg : Rg) (k : CoreNo) (s : State),
    CoreAt s rg k 0x0A →
    Completes (.easAddi rg k) s (fun t => AluDone s t rg k (coreA s rg k + insnImm (coreWord s rg k)) (decide (65536 ≤ (coreA s rg k).toNat + (insnImm (coreWord s rg k)).toNat)) (decide ((coreA s rg k).toInt + (insnImm (coreWord s rg k)).toInt ≠ (coreA s rg k + insnImm (coreWord s rg k)).toInt)))) ∧
  (∀ (rg : Rg) (k : CoreNo) (s : State),
    CoreAt s rg k 0x0B →
    Completes (.easAndi rg k) s (fun t => AluDone s t rg k (coreA s rg k &&& insnImm (coreWord s rg k)) false false)) ∧
  (∀ (rg : Rg) (k : CoreNo) (s : State),
    CoreAt s rg k 0x0C →
    Completes (.easOri rg k) s (fun t => AluDone s t rg k (coreA s rg k ||| insnImm (coreWord s rg k)) false false)) ∧
  (∀ (rg : Rg) (k : CoreNo) (s : State),
    CoreAt s rg k 0x0D →
    Completes (.easXori rg k) s (fun t => AluDone s t rg k (coreA s rg k ^^^ insnImm (coreWord s rg k)) false false)) ∧
  (∀ (rg : Rg) (k : CoreNo) (s : State),
    CoreAt s rg k 0x0E →
    Completes (.easLdi rg k) s (fun t => RegBecomes s t rg k (insnRd (coreWord s rg k)) (insnImm (coreWord s rg k)) ∧
      CoreStep s t rg k { s.eas rg k with r := (t.eas rg k).r } ∧
      OnlyCore rg k s t)) ∧
  (∀ (rg : Rg) (k : CoreNo) (s : State),
    CoreAt s rg k 0x0F →
    Completes (.easCmpi rg k) s (fun t => FlagsBecome s t rg k (coreA s rg k - insnImm (coreWord s rg k)) (decide ((coreA s rg k).toNat < (insnImm (coreWord s rg k)).toNat)) (decide ((coreA s rg k).toInt - (insnImm (coreWord s rg k)).toInt ≠ (coreA s rg k - insnImm (coreWord s rg k)).toInt)) ∧
      CoreStep s t rg k { s.eas rg k with sr := (t.eas rg k).sr } ∧
      OnlyCore rg k s t)) ∧
  (∀ (rg : Rg) (k : CoreNo) (s : State),
    CoreAt s rg k 0x10 →
    Completes (.easMvs rg k) s (fun t => RegBecomes s t rg k (insnRd (coreWord s rg k)) (specRead (s.rgn rg) rg k (insnField (coreWord s rg k) 15 6)) ∧
      CoreStep s t rg k { s.eas rg k with r := (t.eas rg k).r } ∧
      OnlyCore rg k s t)) ∧
  -- MSV to a pointer P takes effect at once (R334)
  (∀ (rg : Rg) (k : CoreNo) (s : State),
    CoreAt s rg k 0x11 →
    insnField (coreWord s rg k) 15 6 < 8 →
    Completes (.easMsv rg k) s (fun t => (t.eas rg k).p (insnField (coreWord s rg k) 15 6) = coreReg s rg k (insnRd (coreWord s rg k)) ∧
      CoreStep s t rg k { s.eas rg k with ptr := (t.eas rg k).ptr } ∧
      OnlyCore rg k s t)) ∧
  -- MSV to B, L or RB is not seen by the next two instructions (R343)
  (∀ (rg : Rg) (k : CoreNo) (s : State),
    CoreAt s rg k 0x11 →
    ((8 ≤ insnField (coreWord s rg k) 15 6 ∧ insnField (coreWord s rg k) 15 6 < 0x18) ∨ insnField (coreWord s rg k) 15 6 = 0x19) →
    Completes (.easMsv rg k) s (fun t => CoreStep s t rg k { s.eas rg k with lateW := [⟨BitVec.ofNat 6 (insnField (coreWord s rg k) 15 6), coreReg s rg k (insnRd (coreWord s rg k)), 2⟩] } ∧
      OnlyCore rg k s t))

/-- MUL replaces the accumulator, adds or subtracts the exact signed product modulo 2^40, and sets V on a signed overflow of 40
bits; MACLD takes its factors as they stand at issue and then loads and advances both pointers; ACC adds and subtracts
accumulators; EXT extracts 16 bits at a shift, and saturates with V where SAT asks for it. Each clause concludes that exec answers
a next state, from conditions on the state and the operands alone, for: easMul, easMacld, easAcc, easExt. -/
def Obligations.AccumulatorInstructions : Prop :=
  -- MPY
  (∀ (rg : Rg) (k : CoreNo) (s : State),
    CoreAt s rg k 0x12 →
    insnField (coreWord s rg k) 23 2 = 0 →
    Completes (.easMul rg k) s (fun t => (t.eas rg k).acc ((coreWord s rg k).getLsbD 25) = BitVec.ofInt 40 ((coreA s rg k).toInt * (coreB s rg k).toInt) ∧
      (t.eas rg k).sr = (s.eas rg k).sr ∧
      (t.eas rg k).r = (s.eas rg k).r ∧
      OnlyCore rg k s t)) ∧
  -- MAC
  (∀ (rg : Rg) (k : CoreNo) (s : State),
    CoreAt s rg k 0x12 →
    insnField (coreWord s rg k) 23 2 = 1 →
    Completes (.easMul rg k) s (fun t => (t.eas rg k).acc ((coreWord s rg k).getLsbD 25) = BitVec.ofInt 40 (((s.eas rg k).acc ((coreWord s rg k).getLsbD 25)).toInt + ((coreA s rg k).toInt * (coreB s rg k).toInt)) ∧
      ((t.eas rg k).sr.getLsbD 3 = ((s.eas rg k).sr.getLsbD 3 || decide ((((s.eas rg k).acc ((coreWord s rg k).getLsbD 25)).toInt + ((coreA s rg k).toInt * (coreB s rg k).toInt)) < -(2 ^ 39) ∨ 2 ^ 39 ≤ (((s.eas rg k).acc ((coreWord s rg k).getLsbD 25)).toInt + ((coreA s rg k).toInt * (coreB s rg k).toInt))))) ∧
      (t.eas rg k).r = (s.eas rg k).r ∧
      OnlyCore rg k s t)) ∧
  -- MSU
  (∀ (rg : Rg) (k : CoreNo) (s : State),
    CoreAt s rg k 0x12 →
    insnField (coreWord s rg k) 23 2 = 2 →
    Completes (.easMul rg k) s (fun t => (t.eas rg k).acc ((coreWord s rg k).getLsbD 25) = BitVec.ofInt 40 (((s.eas rg k).acc ((coreWord s rg k).getLsbD 25)).toInt - ((coreA s rg k).toInt * (coreB s rg k).toInt)) ∧
      ((t.eas rg k).sr.getLsbD 3 = ((s.eas rg k).sr.getLsbD 3 || decide ((((s.eas rg k).acc ((coreWord s rg k).getLsbD 25)).toInt - ((coreA s rg k).toInt * (coreB s rg k).toInt)) < -(2 ^ 39) ∨ 2 ^ 39 ≤ (((s.eas rg k).acc ((coreWord s rg k).getLsbD 25)).toInt - ((coreA s rg k).toInt * (coreB s rg k).toInt))))) ∧
      OnlyCore rg k s t)) ∧
  -- MACLD with both loads
  (∀ (rg : Rg) (k : CoreNo) (s : State),
    CoreAt s rg k 0x13 →
    insnField (coreWord s rg k) 23 2 = 1 →
    insnField (coreWord s rg k) 5 4 ≠ 15 ∧ insnField (coreWord s rg k) 1 4 ≠ 15 ∧ insnField (coreWord s rg k) 5 4 ≠ insnField (coreWord s rg k) 1 4 →
    ((s.eas rg k).p (insnField (coreWord s rg k) 13 2)).getLsbD 0 = false →
    ((s.eas rg k).p (4 + insnField (coreWord s rg k) 11 2)).getLsbD 0 = false →
    Completes (.easMacld rg k) s (fun t => (t.eas rg k).acc ((coreWord s rg k).getLsbD 25) = BitVec.ofInt 40 (((s.eas rg k).acc ((coreWord s rg k).getLsbD 25)).toInt + (coreReg s rg k (8 + insnField (coreWord s rg k) 19 4)).toInt * (coreReg s rg k (8 + insnField (coreWord s rg k) 15 4)).toInt) ∧
      coreReg t rg k (8 + insnField (coreWord s rg k) 5 4) = BitVec.ofNat 16 (Mem.read (s.eas rg k).x ((s.eas rg k).p (insnField (coreWord s rg k) 13 2)).toNat 2) ∧
      coreReg t rg k (8 + insnField (coreWord s rg k) 1 4) = BitVec.ofNat 16 (Mem.read (s.eas rg k).y ((s.eas rg k).p (4 + insnField (coreWord s rg k) 11 2)).toNat 2) ∧
      (t.eas rg k).p (insnField (coreWord s rg k) 13 2) = (s.eas rg k).advance (insnField (coreWord s rg k) 13 2) (if (coreWord s rg k).getLsbD 10 then -2 else 2) ∧
      (t.eas rg k).p (4 + insnField (coreWord s rg k) 11 2) = (s.eas rg k).advance (4 + insnField (coreWord s rg k) 11 2) (if (coreWord s rg k).getLsbD 9 then -2 else 2) ∧
      (t.eas rg k).x = (s.eas rg k).x ∧ (t.eas rg k).y = (s.eas rg k).y ∧
      OnlyCore rg k s t)) ∧
  -- ACC, FN 2 and FN 0
  (∀ (rg : Rg) (k : CoreNo) (s : State),
    CoreAt s rg k 0x14 →
    insnField (coreWord s rg k) 22 3 = 2 →
    Completes (.easAcc rg k) s (fun t => (t.eas rg k).acc ((coreWord s rg k).getLsbD 25) = BitVec.ofInt 40 (((s.eas rg k).acc ((coreWord s rg k).getLsbD 25)).toInt + ((s.eas rg k).acc (!(coreWord s rg k).getLsbD 25)).toInt) ∧
      ((t.eas rg k).sr.getLsbD 3 = ((s.eas rg k).sr.getLsbD 3 || decide ((((s.eas rg k).acc ((coreWord s rg k).getLsbD 25)).toInt + ((s.eas rg k).acc (!(coreWord s rg k).getLsbD 25)).toInt) < -(2 ^ 39) ∨ 2 ^ 39 ≤ (((s.eas rg k).acc ((coreWord s rg k).getLsbD 25)).toInt + ((s.eas rg k).acc (!(coreWord s rg k).getLsbD 25)).toInt)))) ∧
      (t.eas rg k).r = (s.eas rg k).r ∧
      OnlyCore rg k s t)) ∧
  (∀ (rg : Rg) (k : CoreNo) (s : State),
    CoreAt s rg k 0x14 →
    insnField (coreWord s rg k) 22 3 = 0 →
    Completes (.easAcc rg k) s (fun t => (t.eas rg k).acc ((coreWord s rg k).getLsbD 25) = 0 ∧
      (t.eas rg k).sr = (s.eas rg k).sr ∧
      OnlyCore rg k s t)) ∧
  -- EXT without SAT, and saturated
  (∀ (rg : Rg) (k : CoreNo) (s : State),
    CoreAt s rg k 0x15 →
    (coreWord s rg k).getLsbD 14 = false →
    insnField (coreWord s rg k) 15 5 ≤ 24 →
    Completes (.easExt rg k) s (fun t => RegBecomes s t rg k (insnRd (coreWord s rg k)) (bitsAt (((s.eas rg k).acc ((coreWord s rg k).getLsbD 20)).sshiftRight (insnField (coreWord s rg k) 15 5)) 0 16) ∧
      (t.eas rg k).sr = (s.eas rg k).sr ∧
      OnlyCore rg k s t)) ∧
  (∀ (rg : Rg) (k : CoreNo) (s : State),
    CoreAt s rg k 0x15 →
    (coreWord s rg k).getLsbD 14 = true →
    insnField (coreWord s rg k) 15 5 ≤ 24 →
    32767 * 2 ^ (insnField (coreWord s rg k) 15 5) < ((s.eas rg k).acc ((coreWord s rg k).getLsbD 20)).toInt →
    Completes (.easExt rg k) s (fun t => RegBecomes s t rg k (insnRd (coreWord s rg k)) 0x7FFF ∧
      (t.eas rg k).sr.getLsbD 3 = true ∧
      OnlyCore rg k s t))

/-- For every MODE the effective address and the pointer afterwards are those of the table. A load puts the 16 or 32 bits at EA in
its registers and leaves both memories as they were; a store writes exactly the 2 or 4 bytes at EA of the memory that P selects;
every other byte of X and of Y reads as before. Each clause concludes that exec answers a next state, from conditions on the state
and the operands alone, for: easLd, easSt, easLdd, easStd. -/
def Obligations.LoadsAndStores : Prop :=
  -- the table, MODE 0 to 3
  (∀ (e : Easel) (w : Word),
    (insnField w 16 2 = 0 → (e.effective w).1 = e.p (insnField w 18 3) + insnImm w ∧ (e.effective w).2 = e) ∧
      (insnField w 16 2 = 1 → (e.effective w).1 = e.p (insnField w 18 3) ∧
        (e.effective w).2.p (insnField w 18 3) = e.advance (insnField w 18 3) (insnImm w).toInt) ∧
      (insnField w 16 2 = 2 → (e.effective w).1 = e.advance (insnField w 18 3) (insnImm w).toInt ∧
        (e.effective w).2.p (insnField w 18 3) = (e.effective w).1) ∧
      (insnField w 16 2 = 3 → (e.effective w).1 = insnImm w ∧ (e.effective w).2 = e) ∧
      (∀ n, n ≠ insnField w 18 3 → (e.effective w).2.p n = e.p n) ∧
      (∀ p, e.mem p = if p ≤ 3 then e.x else e.y)) ∧
  (∀ (rg : Rg) (k : CoreNo) (s : State),
    CoreAt s rg k 0x18 →
    (((s.eas rg k).effective (coreWord s rg k)).1).toNat % 2 = 0 →
    Completes (.easLd rg k) s (fun t => RegBecomes s t rg k (insnRd (coreWord s rg k)) (BitVec.ofNat 16 (Mem.read ((s.eas rg k).mem (insnField (coreWord s rg k) 18 3)) (((s.eas rg k).effective (coreWord s rg k)).1).toNat 2)) ∧
      (t.eas rg k).x = (s.eas rg k).x ∧ (t.eas rg k).y = (s.eas rg k).y ∧
      ((∀ n, (t.eas rg k).p n = ((s.eas rg k).effective (coreWord s rg k)).2.p n)) ∧
      (t.eas rg k).sr = (s.eas rg k).sr ∧ (t.eas rg k).pc = (s.eas rg k).pc + 1 ∧
      OnlyCore rg k s t)) ∧
  (∀ (rg : Rg) (k : CoreNo) (s : State),
    CoreAt s rg k 0x19 →
    (((s.eas rg k).effective (coreWord s rg k)).1).toNat % 2 = 0 →
    Completes (.easSt rg k) s (fun t => Mem.read ((t.eas rg k).mem (insnField (coreWord s rg k) 18 3)) (((s.eas rg k).effective (coreWord s rg k)).1).toNat 2 = (coreReg s rg k (insnRd (coreWord s rg k))).toNat ∧
      (∀ a, a < (((s.eas rg k).effective (coreWord s rg k)).1).toNat ∨ (((s.eas rg k).effective (coreWord s rg k)).1).toNat + 2 ≤ a → SMap.get 0 ((t.eas rg k).mem (insnField (coreWord s rg k) 18 3)) a = SMap.get 0 ((s.eas rg k).mem (insnField (coreWord s rg k) 18 3)) a) ∧
      (((insnField (coreWord s rg k) 18 3) ≤ 3 → (t.eas rg k).y = (s.eas rg k).y) ∧ (3 < insnField (coreWord s rg k) 18 3 → (t.eas rg k).x = (s.eas rg k).x)) ∧
      (t.eas rg k).r = (s.eas rg k).r ∧
      ((∀ n, (t.eas rg k).p n = ((s.eas rg k).effective (coreWord s rg k)).2.p n)) ∧
      (t.eas rg k).sr = (s.eas rg k).sr ∧ (t.eas rg k).pc = (s.eas rg k).pc + 1 ∧
      OnlyCore rg k s t)) ∧
  (∀ (rg : Rg) (k : CoreNo) (s : State),
    CoreAt s rg k 0x1A →
    (((s.eas rg k).effective (coreWord s rg k)).1).toNat % 4 = 0 →
    insnRd (coreWord s rg k) % 2 = 0 →
    Completes (.easLdd rg k) s (fun t => coreReg t rg k (insnRd (coreWord s rg k)) = BitVec.ofNat 16 (Mem.read ((s.eas rg k).mem (insnField (coreWord s rg k) 18 3)) (((s.eas rg k).effective (coreWord s rg k)).1).toNat 2) ∧
      coreReg t rg k (insnRd (coreWord s rg k) + 1) = BitVec.ofNat 16 (Mem.read ((s.eas rg k).mem (insnField (coreWord s rg k) 18 3)) ((((s.eas rg k).effective (coreWord s rg k)).1).toNat + 2) 2) ∧
      (∀ i : Fin 32, i.val / 2 ≠ insnRd (coreWord s rg k) / 2 → coreReg t rg k i.val = coreReg s rg k i.val) ∧
      (t.eas rg k).x = (s.eas rg k).x ∧ (t.eas rg k).y = (s.eas rg k).y ∧
      ((∀ n, (t.eas rg k).p n = ((s.eas rg k).effective (coreWord s rg k)).2.p n)) ∧
      (t.eas rg k).sr = (s.eas rg k).sr ∧ (t.eas rg k).pc = (s.eas rg k).pc + 1 ∧
      OnlyCore rg k s t)) ∧
  (∀ (rg : Rg) (k : CoreNo) (s : State),
    CoreAt s rg k 0x1B →
    (((s.eas rg k).effective (coreWord s rg k)).1).toNat % 4 = 0 →
    insnRd (coreWord s rg k) % 2 = 0 →
    Completes (.easStd rg k) s (fun t => Mem.read ((t.eas rg k).mem (insnField (coreWord s rg k) 18 3)) (((s.eas rg k).effective (coreWord s rg k)).1).toNat 4 = (coreReg s rg k (insnRd (coreWord s rg k))).toNat + 65536 * (coreReg s rg k (insnRd (coreWord s rg k) + 1)).toNat ∧
      (∀ a, a < (((s.eas rg k).effective (coreWord s rg k)).1).toNat ∨ (((s.eas rg k).effective (coreWord s rg k)).1).toNat + 4 ≤ a → SMap.get 0 ((t.eas rg k).mem (insnField (coreWord s rg k) 18 3)) a = SMap.get 0 ((s.eas rg k).mem (insnField (coreWord s rg k) 18 3)) a) ∧
      (((insnField (coreWord s rg k) 18 3) ≤ 3 → (t.eas rg k).y = (s.eas rg k).y) ∧ (3 < insnField (coreWord s rg k) 18 3 → (t.eas rg k).x = (s.eas rg k).x)) ∧
      (t.eas rg k).r = (s.eas rg k).r ∧
      ((∀ n, (t.eas rg k).p n = ((s.eas rg k).effective (coreWord s rg k)).2.p n)) ∧
      (t.eas rg k).sr = (s.eas rg k).sr ∧ (t.eas rg k).pc = (s.eas rg k).pc + 1 ∧
      OnlyCore rg k s t))

/-- BR and RET go to their target exactly where COND holds; CALL also saves the next address in LR. RETI goes to EPC and sets IE.
LOOP takes level 0 with its count, or skips its body for a count of 0. RELFIX ends the hold. WAIT with nothing pending stops
fetching. KICK reloads the watchdog. BRK with no debug session traps with BRK. A pending FIX interrupt is taken before another:
EPC holds the PC, IE is 0, and the core goes on at 0x0004. Each clause concludes that exec answers a next state, from conditions
on the state and the operands alone, for: easBr, easCall, easRet, easReti, easLoop, easRelfix, easWait, easKick, easBrk,
interrupt. That WAIT with nothing pending leaves PC at the WAIT, to complete at the wake, is log entry 71. -/
def Obligations.EaselFlow : Prop :=
  (∀ (rg : Rg) (k : CoreNo) (s : State),
    CoreAt s rg k 0x20 →
    Completes (.easBr rg k) s (fun t => t.eas rg k = { s.eas rg k with pc := (if branchTaken s rg k (coreWord s rg k) then insnTarget (coreWord s rg k) else (s.eas rg k).pc + 1), dbg := { (s.eas rg k).dbg with pass := none }, haz := (t.eas rg k).haz, fetched := none, patchOld := (t.eas rg k).patchOld } ∧
      OnlyCore rg k s t)) ∧
  (∀ (rg : Rg) (k : CoreNo) (s : State),
    CoreAt s rg k 0x21 →
    branchTaken s rg k (coreWord s rg k) = true →
    Completes (.easCall rg k) s (fun t => t.eas rg k = { s.eas rg k with lr := (s.eas rg k).pc + 1, pc := insnTarget (coreWord s rg k), dbg := { (s.eas rg k).dbg with pass := none }, haz := (t.eas rg k).haz, fetched := none, patchOld := (t.eas rg k).patchOld } ∧
      OnlyCore rg k s t)) ∧
  (∀ (rg : Rg) (k : CoreNo) (s : State),
    CoreAt s rg k 0x21 →
    branchTaken s rg k (coreWord s rg k) = false →
    Completes (.easCall rg k) s (fun t => CoreStep s t rg k (s.eas rg k) ∧
      OnlyCore rg k s t)) ∧
  (∀ (rg : Rg) (k : CoreNo) (s : State),
    CoreAt s rg k 0x22 →
    Completes (.easRet rg k) s (fun t => t.eas rg k = { s.eas rg k with pc := (if branchTaken s rg k (coreWord s rg k) then (s.eas rg k).lr else (s.eas rg k).pc + 1), dbg := { (s.eas rg k).dbg with pass := none }, haz := (t.eas rg k).haz, fetched := none, patchOld := (t.eas rg k).patchOld } ∧
      OnlyCore rg k s t)) ∧
  (∀ (rg : Rg) (k : CoreNo) (s : State),
    CoreAt s rg k 0x23 →
    Completes (.easReti rg k) s (fun t => (t.eas rg k).pc = (s.eas rg k).epc ∧
      (t.eas rg k).ie = true ∧
      t.eas rg k = { s.eas rg k with sr := (t.eas rg k).sr, pc := (s.eas rg k).epc, dbg := { (s.eas rg k).dbg with pass := none }, haz := (t.eas rg k).haz, fetched := none, patchOld := (t.eas rg k).patchOld } ∧
      OnlyCore rg k s t)) ∧
  -- LOOP (R340)
  (∀ (rg : Rg) (k : CoreNo) (s : State),
    CoreAt s rg k 0x24 →
    (s.eas rg k).pc.toNat < (insnTarget (coreWord s rg k)).toNat →
    (s.eas rg k).l0 = none →
    (s.eas rg k).l1 = none →
    (if (coreWord s rg k).getLsbD 25 then coreReg s rg k (insnField (coreWord s rg k) 20 5) else BitVec.ofNat 16 (insnField (coreWord s rg k) 16 9)) ≠ 0 →
    Completes (.easLoop rg k) s (fun t => (t.eas rg k).l0 = some ⟨(s.eas rg k).pc + 1, (insnTarget (coreWord s rg k)), (coreWord s rg k).getLsbD 15, (s.eas rg k).ie⟩ ∧
      (t.eas rg k).lc0 = (if (coreWord s rg k).getLsbD 25 then coreReg s rg k (insnField (coreWord s rg k) 20 5) else BitVec.ofNat 16 (insnField (coreWord s rg k) 16 9)) ∧
      (t.eas rg k).pc = (s.eas rg k).pc + 1 ∧
      (t.eas rg k).r = (s.eas rg k).r ∧
      OnlyCore rg k s t)) ∧
  (∀ (rg : Rg) (k : CoreNo) (s : State),
    CoreAt s rg k 0x24 →
    (s.eas rg k).pc.toNat < (insnTarget (coreWord s rg k)).toNat →
    (s.eas rg k).l0 = none →
    (s.eas rg k).l1 = none →
    (if (coreWord s rg k).getLsbD 25 then coreReg s rg k (insnField (coreWord s rg k) 20 5) else BitVec.ofNat 16 (insnField (coreWord s rg k) 16 9)) = 0 →
    Completes (.easLoop rg k) s (fun t => (t.eas rg k).pc = (insnTarget (coreWord s rg k)) + 1 ∧
      (t.eas rg k).l0 = none ∧ (t.eas rg k).l1 = none ∧
      (t.eas rg k).rb = (s.eas rg k).rb ∧
      OnlyCore rg k s t)) ∧
  -- RELFIX (R347)
  (∀ (rg : Rg) (k : CoreNo) (s : State),
    CoreAt s rg k 0x25 →
    s.rf rg (F.EAS_STATUS_HOLDING k.val) = 1 →
    (s.eas rg k).late = false →
    Completes (.easRelfix rg k) s (fun t => t.rf rg (F.EAS_STATUS_HOLDING k.val) = 0 ∧
      (t.eas rg k).pendFix = false ∧
      (t.eas rg k).pc = (s.eas rg k).pc + 1 ∧
      OnlyRegionDrawn rg s t)) ∧
  -- WAIT (R331): nothing is pending; something is
  (∀ (rg : Rg) (k : CoreNo) (s : State),
    CoreAt s rg k 0x26 →
    (s.eas rg k).pend &&& (s.eas rg k).ien = 0 →
    Completes (.easWait rg k) s (fun t => t.rf rg (F.EAS_STATUS_STATE k.val) = 2 ∧
      t.eas rg k = { s.eas rg k with haz := (t.eas rg k).haz, fetched := (t.eas rg k).fetched, patchOld := (t.eas rg k).patchOld } ∧
      OnlyRegion rg s t)) ∧
  (∀ (rg : Rg) (k : CoreNo) (s : State),
    CoreAt s rg k 0x26 →
    (s.eas rg k).pend &&& (s.eas rg k).ien ≠ 0 →
    Completes (.easWait rg k) s (fun t => CoreStep s t rg k (s.eas rg k) ∧
      OnlyCore rg k s t)) ∧
  -- KICK (R359)
  (∀ (rg : Rg) (k : CoreNo) (s : State),
    CoreAt s rg k 0x27 →
    Completes (.easKick rg k) s (fun t => t.rf rg (F.EAS_WDOG_CNT_COUNT k.val) = s.rf rg (F.EAS_WDOG_LIMIT k.val) ∧
      CoreStep s t rg k (s.eas rg k) ∧
      OnlyRegionDrawn rg s t)) ∧
  -- BRK (R345)
  (∀ (rg : Rg) (k : CoreNo) (s : State),
    CoreAt s rg k 0x29 →
    s.attached = false ∧ (s.eas rg k).dbg.trapHalt = false →
    (s.eas rg k).ie = true →
    Completes (.easBrk rg k) s (fun t => Traps s t rg k 10)) ∧
  -- INTERRUPT (R344): FIX
  (∀ (rg : Rg) (k : CoreNo) (s : State),
    s.rf rg (F.EAS_STATUS_STATE k.val) = 1 ∧ s.rf rg (F.EAS_STATUS_HALTED k.val) = 0 ∧ s.clocked rg = true ∧ s.logicStep rg = false →
    (s.eas rg k).fetched = none ∧ (s.eas rg k).pendFix = true ∧ (s.eas rg k).ien.getLsbD 0 = true ∧ (s.eas rg k).ie = true →
    (s.eas rg k).dbg.stepping = false →
    Completes (.interrupt rg k) s (fun t => t.eas rg k = { s.eas rg k with epc := (s.eas rg k).pc, pc := 4, pendFix := false, sr := (t.eas rg k).sr, haz := (s.eas rg k).haz.jump, patchOld := (t.eas rg k).patchOld } ∧
      (t.eas rg k).ie = false ∧
      OnlyCore rg k s t))

/-- A core whose SR.IE is 1, and whose traps the debug port does not take, traps with ILLEGAL at a reserved opcode or above the
program space, with ADDR at a misaligned address and with REGQ at an odd pair and at a bad quartet, whatever instruction the
command names: EPC holds the PC, IE is 0 and execution goes on at 0x0002, with its registers and memories as they were. With IE at
0 EPC and PC are set all the same, the core stops, and DOUBLE is set. Each clause concludes that exec answers a next state, from
conditions on the state and the operands alone, for: easAdd, easNop, easSt, easLdd, easPal, easSub. EPC and PC set with IE at 0,
and ILLEGAL at 0x6000 and above, are log entry 71. -/
def Obligations.EaselTraps : Prop :=
  -- a reserved opcode (R331)
  (∀ (rg : Rg) (k : CoreNo) (s : State),
    s.coreRuns rg k = true ∧ (s.eas rg k).dbg.trapHalt = false →
    (s.eas rg k).ie = true ∧ (s.eas rg k).dbg.stepping = false ∧ (s.eas rg k).dbg.haltReq = false →
    (s.eas rg k).pc.toNat < 0x6000 →
    isOpcode (insnOp (coreWord s rg k)) = false →
    Completes (.easAdd rg k) s (fun t => Traps s t rg k 1)) ∧
  -- the reserved part of the program space (R327)
  (∀ (rg : Rg) (k : CoreNo) (s : State),
    s.coreRuns rg k = true ∧ (s.eas rg k).dbg.trapHalt = false →
    (s.eas rg k).ie = true ∧ (s.eas rg k).dbg.stepping = false ∧ (s.eas rg k).dbg.haltReq = false →
    0x6000 ≤ (s.eas rg k).pc.toNat →
    Completes (.easNop rg k) s (fun t => Traps s t rg k 1)) ∧
  -- a misaligned store changes nothing (R335, R345)
  (∀ (rg : Rg) (k : CoreNo) (s : State),
    CoreAt s rg k 0x19 →
    (s.eas rg k).dbg.trapHalt = false ∧ (s.eas rg k).ie = true →
    ((s.eas rg k).effective (coreWord s rg k)).1.toNat % 2 = 1 →
    Completes (.easSt rg k) s (fun t => Traps s t rg k 2)) ∧
  -- an odd pair (R331)
  (∀ (rg : Rg) (k : CoreNo) (s : State),
    CoreAt s rg k 0x1A →
    (s.eas rg k).dbg.trapHalt = false ∧ (s.eas rg k).ie = true →
    insnRd (coreWord s rg k) % 2 = 1 →
    Completes (.easLdd rg k) s (fun t => Traps s t rg k 9)) ∧
  -- a bad quartet (R331, R348)
  (∀ (rg : Rg) (k : CoreNo) (s : State),
    CoreAt s rg k 0x1C →
    (s.eas rg k).dbg.trapHalt = false ∧ (s.eas rg k).ie = true →
    insnRd (coreWord s rg k) % 4 ≠ 0 →
    Completes (.easPal rg k) s (fun t => Traps s t rg k 9)) ∧
  -- with IE at 0 the core stops (R346)
  (∀ (rg : Rg) (k : CoreNo) (s : State),
    s.coreRuns rg k = true ∧ s.attached = false →
    (s.eas rg k).ie = false →
    (s.eas rg k).pc.toNat < 0x6000 →
    isOpcode (insnOp (coreWord s rg k)) = false →
    (s.eas rg k).dbg.trapHalt = false →
    Completes (.easSub rg k) s (fun t => t.rf rg (F.EAS_STATUS_STATE k.val) = 3 ∧
      t.rf rg (F.EAS_STATUS_DOUBLE k.val) = 1 ∧ t.rf rg (F.EAS_STATUS_CAUSE k.val) = 1 ∧
      (t.eas rg k).pc = 2 ∧ (t.eas rg k).epc = (s.eas rg k).pc ∧ (t.eas rg k).r = (s.eas rg k).r))

/-- While the core holds the fix, PAL reads or writes the one entry it names; a BPA within its grant reads a quartet, or writes
the enabled bytes of one word, and ends the grant; MBRD pops and MBWR pushes a mailbox; PKT takes the lowest free tag for the
packet its descriptor describes. A grant idle for 32 cycles is dropped. Each clause concludes that exec answers a next state, from
conditions on the state and the operands alone, for: easPal, easBpa, grantIdleDrop, easMbrd, easMbwr, easPkt. That PKT takes the
lowest free tag is log entry 74. -/
def Obligations.PalettePortMailboxAndPacket : Prop :=
  -- PAL reads (R348)
  (∀ (rg : Rg) (k : CoreNo) (s : State),
    CoreAt s rg k 0x1C →
    s.rf rg (F.EAS_STATUS_HOLDING k.val) = 1 →
    (s.eas rg k).late = false →
    insnRd (coreWord s rg k) % 4 = 0 →
    palAllowed (insnField (coreWord s rg k) 7 10) false = true →
    (coreWord s rg k).getLsbD 6 = false →
    Completes (.easPal rg k) s (fun t => (∀ i : Fin 4, coreReg t rg k (insnRd (coreWord s rg k) + i.val) = bitsAt ((s.cl rg (BitVec.ofNat 4 (insnField (coreWord s rg k) 17 4))).peek (s.rgn rg).executing (insnField (coreWord s rg k) 7 10)) (16 * i.val) 16) ∧
      (∀ i : Fin 32, i.val / 4 ≠ insnRd (coreWord s rg k) / 4 → coreReg t rg k i.val = coreReg s rg k i.val) ∧
      OnlyCore rg k s t)) ∧
  -- PAL writes (R348)
  (∀ (rg : Rg) (k : CoreNo) (s : State),
    CoreAt s rg k 0x1C →
    s.rf rg (F.EAS_STATUS_HOLDING k.val) = 1 →
    (s.eas rg k).late = false →
    insnRd (coreWord s rg k) % 4 = 0 →
    palAllowed (insnField (coreWord s rg k) 7 10) true = true →
    (coreWord s rg k).getLsbD 6 = true →
    Completes (.easPal rg k) s (fun t => (t.cl rg (BitVec.ofNat 4 (insnField (coreWord s rg k) 17 4))).peek (s.rgn rg).executing (insnField (coreWord s rg k) 7 10) = BitVec.ofNat 64 ((s.eas rg k).getMany (insnRd (coreWord s rg k)) 4) ∧
      (∀ n : Fin 1024, n.val ≠ insnField (coreWord s rg k) 7 10 → (t.cl rg (BitVec.ofNat 4 (insnField (coreWord s rg k) 17 4))).peek (s.rgn rg).executing n.val = (s.cl rg (BitVec.ofNat 4 (insnField (coreWord s rg k) 17 4))).peek (s.rgn rg).executing n.val) ∧
      (∀ c : Cl, c ≠ (BitVec.ofNat 4 (insnField (coreWord s rg k) 17 4)) → t.cl rg c = s.cl rg c) ∧
      (t.rgn rg).dmem = (s.rgn rg).dmem ∧ (t.rgn rg).ring = (s.rgn rg).ring ∧
      (t.eas rg k).r = (s.eas rg k).r ∧
      OnlyRegionDrawn rg s t)) ∧
  -- BPA reads design memory (R350)
  (∀ (rg : Rg) (k : CoreNo) (ns : Word) (s : State),
    CoreAt s rg k 0x1D →
    s.rf rg F.DMEM_STATUS_OWNER = k.val →
    (s.rgn rg).frontWrites = false →
    (s.rgn rg).checked (dmemKey ((s.eas rg k).getMany (insnRa (coreWord s rg k)) 2 / 8)) .clean = .clean →
    insnRd (coreWord s rg k) % 4 = 0 ∧ insnRa (coreWord s rg k) % 2 = 0 →
    ((s.eas rg k).getMany (insnRa (coreWord s rg k)) 2) % 8 = 0 ∧ (s.eas rg k).getMany (insnRa (coreWord s rg k)) 2 < 0x400000 →
    (coreWord s rg k).getLsbD 15 = false ∧ (coreWord s rg k).getLsbD 14 = false →
    Completes (.easBpa rg k .clean ns) s (fun t => (∀ i : Fin 4, coreReg t rg k (insnRd (coreWord s rg k) + i.val) = bitsAt (SMap.get 0 (s.rgn rg).dmem ((s.eas rg k).getMany (insnRa (coreWord s rg k)) 2 / 8)) (16 * i.val) 16) ∧
      (∀ i : Fin 32, i.val / 4 ≠ insnRd (coreWord s rg k) / 4 → coreReg t rg k i.val = coreReg s rg k i.val) ∧
      t.rf rg F.DMEM_STATUS_OWNER = 6 ∧
      (t.rgn rg).dmem = (s.rgn rg).dmem ∧
      OnlyRegionDrawn rg s t)) ∧
  -- BPA writes design memory (R350): the enabled bytes of one word
  (∀ (rg : Rg) (k : CoreNo) (ns : Word) (s : State),
    CoreAt s rg k 0x1D →
    s.rf rg F.DMEM_STATUS_OWNER = k.val →
    (s.rgn rg).frontWrites = false →
    (s.rgn rg).checked (dmemKey ((s.eas rg k).getMany (insnRa (coreWord s rg k)) 2 / 8)) .clean = .clean →
    insnRd (coreWord s rg k) % 4 = 0 ∧ insnRa (coreWord s rg k) % 2 = 0 →
    ((s.eas rg k).getMany (insnRa (coreWord s rg k)) 2) % 8 = 0 ∧ (s.eas rg k).getMany (insnRa (coreWord s rg k)) 2 < 0x400000 →
    (coreWord s rg k).getLsbD 15 = true ∧ (coreWord s rg k).getLsbD 14 = false →
    (s.rgn rg).undoFull = false →
    Completes (.easBpa rg k .clean ns) s (fun t => (∀ i : Fin 64, (SMap.get 0 (t.rgn rg).dmem ((s.eas rg k).getMany (insnRa (coreWord s rg k)) 2 / 8)).getLsbD i.val =
        (if (coreWord s rg k).getLsbD (6 + i.val / 8) then (BitVec.ofNat 64 ((s.eas rg k).getMany (insnRd (coreWord s rg k)) 4)).getLsbD i.val
          else (SMap.get 0 (s.rgn rg).dmem ((s.eas rg k).getMany (insnRa (coreWord s rg k)) 2 / 8)).getLsbD i.val)) ∧
      (∀ n : Nat, n ≠ (s.eas rg k).getMany (insnRa (coreWord s rg k)) 2 / 8 → SMap.get 0 (t.rgn rg).dmem n = SMap.get 0 (s.rgn rg).dmem n) ∧
      (t.eas rg k).r = (s.eas rg k).r ∧
      t.rf rg F.DMEM_STATUS_OWNER = 6 ∧
      (t.rgn rg).ring = (s.rgn rg).ring)) ∧
  -- GRANT_IDLE_DROP (R351)
  (∀ (rg : Rg) (k : CoreNo) (s : State),
    s.rf rg F.DMEM_STATUS_OWNER = k.val →
    Completes (.grantIdleDrop rg k) s (fun t => t.rf rg F.DMEM_STATUS_OWNER = 6 ∧
      (t.eas rg k).grant = 0 ∧
      OnlyRegion rg s t)) ∧
  -- MBRD (R354)
  (∀ (rg : Rg) (k : CoreNo) (m : MbWord) (rest : List MbWord) (s : State),
    CoreAt s rg k 0x1E →
    insnRd (coreWord s rg k) % 2 = 0 →
    (s.eas rg k).mbin = m :: rest →
    m.bad = false →
    Completes (.easMbrd rg k) s (fun t => coreReg t rg k (insnRd (coreWord s rg k)) = bitsAt m.word 0 16 ∧
      coreReg t rg k (insnRd (coreWord s rg k) + 1) = bitsAt m.word 16 16 ∧
      (t.eas rg k).mbin = rest ∧
      (t.eas rg k).sr.getLsbD 4 = false ∧ (t.eas rg k).sr.getLsbD 5 = m.first ∧
      OnlyRegionDrawn rg s t)) ∧
  -- MBWR (R355)
  (∀ (rg : Rg) (k : CoreNo) (s : State),
    CoreAt s rg k 0x1F →
    insnRa (coreWord s rg k) % 2 = 0 →
    (s.eas rg k).mboutCut = false →
    (s.eas rg k).mbout.length < 64 →
    Completes (.easMbwr rg k) s (fun t => (t.eas rg k).mbout = (s.eas rg k).mbout ++ [⟨BitVec.ofNat 32 ((coreReg s rg k (insnRa (coreWord s rg k))).toNat + 65536 * (coreReg s rg k (insnRa (coreWord s rg k) + 1)).toNat), (coreWord s rg k).getLsbD 15, false⟩] ∧
      (t.eas rg k).pc = (s.eas rg k).pc + 1 ∧
      OnlyRegionDrawn rg s t)) ∧
  -- PKT (R352)
  (∀ (rg : Rg) (k : CoreNo) (tag : Nat) (s : State),
    CoreAt s rg k 0x28 →
    (coreA s rg k).toNat % 8 = 0 →
    (s.eas rg k).freeTag = some tag →
    ((descPacket s rg k (coreA s rg k).toNat tag).packet.data = [] ∨ xRead (s.eas rg k).x ((coreA s rg k).toNat + 12) 2 % 16 = 0) →
    ((descPacket s rg k (coreA s rg k).toNat tag).packet.cmd = 1 ∨ (descPacket s rg k (coreA s rg k).toNat tag).packet.cmd = 4 → (descPacket s rg k (coreA s rg k).toNat tag).resp.toNat % 16 = 0) →
    Completes (.easPkt rg k) s (fun t => SMap.get none (t.eas rg k).pkts tag = some (descPacket s rg k (coreA s rg k).toNat tag) ∧
      (t.rf rg (F.EAS_PKT_BUSY k.val)).testBit tag = true ∧
      (t.eas rg k).pc = (s.eas rg k).pc + 1 ∧
      OnlyRegionDrawn rg s t))

/-- A core reset, by the host or by a watchdog that bites, restarts the core at 0x0000 with its registers cleared and its memories
kept; HOLD_RST holds it in reset. A flush empties a mailbox and cuts the item in progress; a word with the first marker is pushed
where there is room; a pop takes the oldest word. A patch register is written unless the debug port has claimed the unit. A write
of the watchdog's limit reloads it. Each clause concludes that exec answers a next state, from conditions on the state and the
operands alone, for: coreReset, easelWatchdog, holdRst, mbinFlush, mboutFlush, mbinFirst, mbinNext, mbout, patchWrite, easWdog. -/
def Obligations.CoreResetAndHostSide : Prop :=
  -- CORE_RESET (R360)
  (∀ (rg : Rg) (k : CoreNo) (s : State),
    s.rf rg (F.EAS_CTRL_HOLD_RST k.val) = 0 →
    (s.rgn rg).live = true →
    (s.eas rg k).stopFrom = none →
    Completes (.coreReset rg k) s (fun t => (t.eas rg k).pc = 0 ∧
      (t.eas rg k).r = [] ∧ (t.eas rg k).a0 = 0 ∧ (t.eas rg k).sr = 0 ∧
      (t.eas rg k).prog = (s.eas rg k).prog ∧ (t.eas rg k).x = (s.eas rg k).x ∧ (t.eas rg k).y = (s.eas rg k).y ∧
      (t.eas rg k).mbin = (s.eas rg k).mbin ∧ (t.eas rg k).mbout = (s.eas rg k).mbout ∧
      t.rf rg (F.EAS_STATUS_STATE k.val) = 1)) ∧
  -- EASEL_WATCHDOG (R359)
  (∀ (rg : Rg) (k : CoreNo) (s : State),
    s.rf rg (F.EAS_CTRL_HOLD_RST k.val) = 0 →
    s.coreRuns rg k = true →
    s.rf rg (F.EAS_WDOG_LIMIT k.val) ≠ 0 ∧ s.rf rg (F.EAS_WDOG_CNT_COUNT k.val) = 0 →
    Completes (.easelWatchdog rg k) s (fun t => t.rf rg (F.EAS_STATUS_WDOG k.val) = 1 ∧
      t.rf rg (F.EAS_COUNTS_WDOG k.val) = min (s.rf rg (F.EAS_COUNTS_WDOG k.val) + 1) (F.EAS_COUNTS_WDOG k.val).max ∧
      (t.eas rg k).pc = 0 ∧
      t.rf rg (F.EAS_WDOG_CNT_COUNT k.val) = s.rf rg (F.EAS_WDOG_LIMIT k.val))) ∧
  -- HOLD_RST (R360)
  (∀ (rg : Rg) (k : CoreNo) (s : State),
    s.rf rg (F.EAS_CTRL_HOLD_RST k.val) = 0 →
    (s.eas rg k).stopFrom = none →
    Completes (.holdRst rg k true) s (fun t => t.rf rg (F.EAS_CTRL_HOLD_RST k.val) = 1 ∧
      t.rf rg (F.EAS_STATUS_STATE k.val) = 0 ∧
      (t.eas rg k).pc = 0)) ∧
  -- MBIN_FLUSH, MBOUT_FLUSH (R355, R372)
  (∀ (rg : Rg) (k : CoreNo) (s : State),
    Completes (.mbinFlush rg k) s (fun t => (t.eas rg k).mbin = [] ∧ (t.eas rg k).mbinCut = true ∧
      t.rf rg (F.EAS_MBIN_STAT_WORDS k.val) = 0 ∧ t.rf rg (F.EAS_MBIN_STAT_FREE k.val) = 64 ∧
      (t.eas rg k).mbout = (s.eas rg k).mbout ∧
      OnlyRegion rg s t)) ∧
  (∀ (rg : Rg) (k : CoreNo) (s : State),
    Completes (.mboutFlush rg k) s (fun t => (t.eas rg k).mbout = [] ∧ (t.eas rg k).mboutCut = true ∧
      t.rf rg (F.EAS_MBOUT_STAT_WORDS k.val) = 0 ∧ t.rf rg (F.EAS_MBOUT_STAT_FREE k.val) = 64 ∧
      (t.eas rg k).mbin = (s.eas rg k).mbin ∧
      OnlyRegion rg s t)) ∧
  -- MBIN_FIRST, MBIN_NEXT (R354)
  (∀ (rg : Rg) (k : CoreNo) (w : Word) (s : State),
    (s.eas rg k).mbin.length < 64 →
    Completes (.mbinFirst rg k w false) s (fun t => (t.eas rg k).mbin = (s.eas rg k).mbin ++ [⟨w, true, false⟩] ∧
      (t.eas rg k).mbinCut = false ∧
      OnlyRegion rg s t)) ∧
  (∀ (rg : Rg) (k : CoreNo) (w : Word) (s : State),
    (s.eas rg k).mbin.length < 64 →
    (s.eas rg k).mbinCut = false →
    Completes (.mbinNext rg k w false) s (fun t => (t.eas rg k).mbin = (s.eas rg k).mbin ++ [⟨w, false, false⟩] ∧
      OnlyRegion rg s t)) ∧
  -- MBOUT (R355)
  (∀ (rg : Rg) (k : CoreNo) (m : MbWord) (rest : List MbWord) (s : State),
    (s.eas rg k).mbout = m :: rest →
    m.bad = false →
    Completes (.mbout rg k false) s (fun t => (t.eas rg k).mbout = rest ∧
      (popMbout s rg k false).1 = m.word ∧
      t.rf rg (F.EAS_MBOUT_STAT_LAST_FIRST k.val) = m.first.toNat ∧ t.rf rg (F.EAS_MBOUT_STAT_LAST_EMPTY k.val) = 0 ∧
      OnlyRegion rg s t)) ∧
  -- PATCH_WRITE (R357)
  (∀ (rg : Rg) (k : CoreNo) (u : BitVec 3) (v : Word) (by_ : Writer) (s : State),
    s.rf rg (F.EAS_PATCH_ADDR_CLAIMED k.val u.toNat) = 0 →
    Completes (.patchWrite rg k u true v by_) s (fun t => (t.rgn rg).reg (R.EAS_PATCH_WORD k.val u.toNat) = v ∧
      (OnlyRegion rg s t ∧ SameStores (s.rgn rg) (t.rgn rg) ∧ (∀ i : CoreNo, i ≠ k → t.eas rg i = s.eas rg i) ∧ (t.eas rg k).r = (s.eas rg k).r ∧
      ∀ a, a ≠ R.EAS_PATCH_WORD k.val u.toNat → (t.rgn rg).reg a = (s.rgn rg).reg a))) ∧
  (∀ (rg : Rg) (k : CoreNo) (u : BitVec 3) (v : Word) (by_ : Writer) (s : State),
    s.rf rg (F.EAS_PATCH_ADDR_CLAIMED k.val u.toNat) = 0 →
    Completes (.patchWrite rg k u false v by_) s (fun t => t.rf rg (F.EAS_PATCH_ADDR_ADDR k.val u.toNat) = v.toNat % 2 ^ 15 ∧
      t.rf rg (F.EAS_PATCH_ADDR_EN k.val u.toNat) = v.toNat / 2 ^ 15 % 2)) ∧
  -- EAS_WDOG (R359)
  (∀ (rg : Rg) (k : CoreNo) (limit : BitVec 24) (s : State),
    Completes (.easWdog rg k limit) s (fun t => t.rf rg (F.EAS_WDOG_LIMIT k.val) = limit.toNat ∧
      t.rf rg (F.EAS_WDOG_CNT_COUNT k.val) = limit.toNat ∧
      OnlyRegion rg s t))

/-- Power applied, or a supply lost, resets the package: the flash, the fuses and the queue stay, the hub SRAM and every region's
design memory are empty, and each region reads UNCONFIGURED or GATED. RESET_N, a helm restart and a fabric reset request a package
reset with their cause; during one a further request is merged; its drain's end performs it. The release of RESET_N samples the
straps. At the end of helm boot the boot count rises and every epoch is the count modulo 256; self-test and calibration follow.
The drain of a region or quadrant ends in its reset. A FULL load in progress is abandoned with code 15. A thermal shutdown leaves
the rails at 0 and LAST_SHUTDOWN set. Each clause concludes that exec answers a next state, from conditions on the state and the
operands alone, for: powerOn, powerRemoval, supplyLoss, resetN, resetNRelease, helmRestart, fabricResetTimer, bootEnd,
startupBistEnd, calibrationEnd, neighbourDrainEnd, thermalShutdown. RST_CAUSE 0 after POWER_ON and SUPPLY_LOSS is the model's
reading (log entry 11), as are CFG GATED kept across a package reset (log entry 58), the boot count and the epochs set at every
BOOT_END (log entry 12), and a step of BIST judged by the conditions that held over it (log entry 56). -/
def Obligations.ResetsAndBoot : Prop :=
  -- POWER_ON (R20, R427)
  (∀ (s : State),
    s.pwr.boot = .noPower →
    Completes (.powerOn) s (fun t => t.pwr.boot = .resetLow ∧ t.f F.HIF_PINS_RST_CAUSE = 0 ∧
      t.flash = s.flash ∧ t.fuses = s.fuses ∧ t.pending = s.pending ∧
      t.sram = [] ∧ t.jobs = [] ∧ t.net = [] ∧ t.sched = [] ∧ t.keys = [] ∧
      (∀ rg : Rg, (t.rgn rg).dmem = [] ∧ (t.rgn rg).strokes = [] ∧ (t.rf rg F.RGN_STATUS_CFG = 0 ∨ t.rf rg F.RGN_STATUS_CFG = 3)))) ∧
  -- POWER_REMOVAL (R427)
  (∀ (s : State),
    s.pwr.boot = .resetLow →
    Completes (.powerRemoval) s (fun t => t.pwr.boot = .noPower ∧ t.f F.THM_STATUS_LAST_SHUTDOWN = 0 ∧
      t.flash = s.flash ∧ t.fuses = s.fuses)) ∧
  -- SUPPLY_LOSS (R427)
  (∀ (s : State),
    s.pwr.boot = .up →
    Completes (.supplyLoss .vhub) s (fun t => t.pwr.boot = .noPower ∧ t.f F.HIF_PINS_RST_CAUSE = 0 ∧ t.f F.THM_STATUS_LAST_SHUTDOWN = 0 ∧
      t.flash = s.flash ∧ t.fuses = s.fuses ∧ t.sram = [])) ∧
  -- RESET_N (R22)
  (∀ (cool : Bool) (s : State),
    s.pwr.boot = .up →
    s.packageResetting = false ∧ s.fullLoad = false ∧ s.groundBusy = false →
    Completes (.resetN cool) s (fun t => t.pwr.boot = .resetLow ∧ t.pwr.cause = 1 ∧ t.refusing = setBit s.refusing 4 true ∧ t.drainOf 4 = .reset ∧
      t.regs = s.regs ∧ t.rgns = s.rgns)) ∧
  -- RESET_N_RELEASE (R392)
  (∀ (prof addr : BitVec 2) (lode : Bool) (s : State),
    s.pwr.boot = .resetLow →
    s.packageResetting = false →
    Completes (.resetNRelease prof addr lode) s (fun t => t.pwr.boot = .helmBoot ∧
      t.f F.HIF_PINS_PROF_SEL = prof.toNat ∧ t.f F.HIF_PINS_ADDR_SEL = addr.toNat ∧ t.f F.HIF_PINS_LODESTAR = lode.toNat ∧
      t.f F.CFG_GROUND_STAT_PIN_SEL = prof.toNat)) ∧
  -- HELM_RESTART (R22), FABRIC_RESET_TIMER (R321)
  (∀ (s : State),
    s.packageResetting = false ∧ s.hubPowered = true ∧ s.fullLoad = false ∧ s.groundBusy = false →
    Completes (.helmRestart) s (fun t => t.refusing = setBit s.refusing 4 true ∧ t.drainOf 4 = .reset ∧ t.pwr.cause = 3 ∧
      t.regs = s.regs ∧ t.rgns = s.rgns)) ∧
  -- during a FULL load (R204, R206): it is abandoned with code 15
  (∀ (s : State),
    s.packageResetting = false ∧ s.hubPowered = true →
    (s.load.kind = .full ∧ (s.cfgState = 1 ∨ s.cfgState = 2)) →
    Completes (.helmRestart) s (fun t => t.cfgState = 5 ∧ t.f F.CFG_ERR_CODE = 15 ∧ t.load.kind = .none ∧
      t.refusing.getLsbD 4 = true ∧ t.drainOf 4 = .reset ∧ t.pwr.cause = 3)) ∧
  (∀ (s : State),
    s.packageResetting = true →
    Completes (.helmRestart) s (fun t => t = s)) ∧
  (∀ (s : State),
    s.fab.resetDue = true →
    s.packageResetting = false ∧ s.hubPowered = true →
    Completes (.fabricResetTimer) s (fun t => t.fab.resetDue = false ∧ t.refusing = setBit s.refusing 4 true ∧ t.drainOf 4 = .reset ∧ t.pwr.cause = 2)) ∧
  -- BOOT_END (R20, R428)
  (∀ (boots : Bool) (fw : Word) (s : State),
    s.pwr.boot = .helmBoot →
    Completes (.bootEnd boots fw) s (fun t => t.flash.boots = s.flash.boots + 1 ∧ t.reg R.HUB_FW = fw ∧
      t.f F.FAB_ID_EPOCH = (s.flash.boots + 1).toNat % 256 ∧
      (∀ rg : Rg, t.rf rg F.RGN_STATUS_EPOCH = (s.flash.boots + 1).toNat % 256) ∧
      t.pwr.boot = (if s.flash.skip = some s.flash.seq then .calibration else .selfTest))) ∧
  -- STARTUP_BIST_END (R428), nothing fails
  (∀ (s : State),
    s.pwr.boot = .selfTest →
    s.bist.lost = [] →
    Completes (.startupBistEnd ⟨⟨[], []⟩, []⟩) s (fun t => t.pwr.boot = .calibration ∧ t.f F.FLT_BIST_STAT_STATE = 2 ∧
      t.flash = s.flash)) ∧
  -- steps whose test clock measured out of range: INVALID, and what they found does not count (R461)
  (∀ (r : BistReport) (off : List (BitVec 18)) (s : State),
    s.pwr.boot = .selfTest →
    (off ≠ [] ∧ ∀ f ∈ r.fails, BitVec.ofNat 18 (macroOf f) ∈ off) →
    Completes (.startupBistEnd ⟨r, off⟩) s (fun t => t.pwr.boot = .calibration ∧ t.f F.FLT_BIST_STAT_STATE = 4 ∧
      t.flash = s.flash ∧ t.f F.FLT_BIST_STAT_FAILS = s.f F.FLT_BIST_STAT_FAILS)) ∧
  -- a die whose VQ or temperature has been out of range all the time: INVALID, and its steps do not count (R461)
  (∀ (r : BistReport) (off : List (BitVec 18)) (k : Fin 5) (s : State),
    s.pwr.boot = .selfTest →
    s.bist.began ≤ s.now ∧ SMap.get [] s.bist.lost k.val = [(s.bist.began, none)] →
    (∀ f ∈ r.fails, (if f.hub = true then 4 else f.q.toNat) = k.val) →
    Completes (.startupBistEnd ⟨r, off⟩) s (fun t => t.pwr.boot = .calibration ∧ t.f F.FLT_BIST_STAT_STATE = 4 ∧
      t.flash = s.flash ∧ t.f F.FLT_BIST_STAT_FAILS = s.f F.FLT_BIST_STAT_FAILS)) ∧
  -- CALIBRATION_END (R428)
  (∀ (s : State),
    s.pwr.boot = .calibration →
    Completes (.calibrationEnd) s (fun t => t.pwr.boot = .up)) ∧
  -- NEIGHBOUR_DRAIN_END of a region (R22, R25)
  (∀ (rg : Rg) (s : State),
    s.rf rg F.RGN_STATUS_RESET_BUSY = 1 ∧ s.rf rg F.RWD_STATUS_MODE ≠ 2 →
    s.applying = none ∧ (s.rgn rg).releasing = false ∧ (s.rgn rg).rwd.restoring = none →
    Completes (.neighbourDrainEnd (.region rg)) s (fun t => t.rf rg F.RGN_STATUS_RESET_BUSY = 0 ∧
      t.rf rg F.RGN_STATUS_EPOCH = (s.rf rg F.RGN_STATUS_EPOCH + 1) % 256 ∧
      (t.rgn rg).strokes = (s.rgn rg).strokes ∧ (t.rgn rg).dmem = (s.rgn rg).dmem ∧ (t.rgn rg).canvas = (s.rgn rg).canvas ∧
      (t.rgn rg).clusters = [] ∧ (t.rgn rg).inject = [])) ∧
  -- of a quadrant (R22, R438)
  (∀ (q : Quad) (s : State),
    s.drainOf q.toNat = .reset →
    s.applying = none ∧ SMap.get none s.pwr.qGoal q.toNat = none →
    Completes (.neighbourDrainEnd (.quadrant q)) s (fun t => t.drainOf q.toNat = .none ∧
      (∀ rg : Rg, quadOf rg = q.toNat → (t.rgn rg).dmem = [] ∧ (t.rgn rg).canvas = [] ∧
        t.rf rg F.RGN_STATUS_EPOCH = (s.rf rg F.RGN_STATUS_EPOCH + 1) % 256))) ∧
  -- of the package (R22)
  (∀ (s : State),
    s.drainOf 4 = .reset →
    s.pwr.boot = .up →
    Completes (.neighbourDrainEnd .package) s (fun t => t.pwr.boot = .helmBoot ∧ t.f F.HIF_PINS_RST_CAUSE = s.pwr.cause.toNat ∧
      t.drainOf 4 = .none ∧ t.refusing = 0 ∧ t.sram = [] ∧
      t.flash = s.flash ∧ t.fuses = s.fuses)) ∧
  -- THERMAL_SHUTDOWN (R443)
  (∀ (s : State),
    Completes (.thermalShutdown) s (fun t => t.pwr.boot = .thermal ∧ t.f F.THM_STATUS_LAST_SHUTDOWN = 1 ∧
      (∀ q : Fin 4, t.f (F.PWR_QSTAT_VQ q.val) = 0) ∧
      t.flash = s.flash ∧ t.fuses = s.fuses))

/-- With no job to be held HOLD is entered from RUN at once and counted, and a deeper state begins with every ingress refusing and
its drain; a job that is not HELD makes the entry wait; the entry's completion sets the state; a wake event begins the exit, and
its end returns the package to RUN. A quadrant's reset is requested whatever it does; DOZE and DORMANT begin with its ingress
refusing where no job holds it; QUAD_WAKE retries a rail in FAULT; a rail's fault leaves the quadrant in FAULT at 0 mV. The
orderly shutdown ends in state 5 with every rail off. Each clause concludes that exec answers a next state, from conditions on the
state and the operands alone, for: enterState, autoEntry, entryComplete, wake, peerResumesSignalling, exitComplete, quadReset,
quadDoze, quadDormant, quadWake, vqFault, shutdown, shutdownWaitEnd, shutdownBistEnd. That an entry waits for the ACTIVE jobs to
be HELD and is ignored during a FULL load is log entry 36; that a quadrant wakes within its command is log entry 39; that an exit
under the trip ends in HOLD follows R442 by the reading of log entry 161. -/
def Obligations.PowerStates : Prop :=
  -- ENTER_STATE: HOLD (R435)
  (∀ (s : State),
    s.pwrState = 0 →
    s.drainOf 4 = .none ∧ s.activeJobs = [] →
    Completes (.enterState 1) s (fun t => t.pwrState = 1 ∧
      t.f F.PWR_COUNTS_ENTRIES = min (s.f F.PWR_COUNTS_ENTRIES + 1) F.PWR_COUNTS_ENTRIES.max)) ∧
  -- with a job that is not HELD the entry waits (R435)
  (∀ (st : BitVec 3) (j : Job) (s : State),
    1 ≤ st.toNat ∧ st.toNat ≤ 4 ∧ s.fullLoad = false →
    s.pwrState = 0 ∧ s.drainOf 4 = .none ∧ s.activeJobs = [j] →
    (s.job j).hold ≠ none ∧ s.f (F.MER_JOB_CTRL_FAILED j.toNat) = 0 →
    Completes (.enterState st) s (fun t => t.pwrState = 0 ∧ t.drainOf 4 = .hold st ∧ t.refusing = s.refusing)) ∧
  -- a deeper state (R436)
  (∀ (st : BitVec 3) (s : State),
    2 ≤ st.toNat ∧ st.toNat ≤ 4 →
    s.pwrState < st.toNat →
    s.drainOf 4 = .none ∧ s.activeJobs = [] →
    s.fullLoad = false →
    Completes (.enterState st) s (fun t => t.refusing = 31 ∧ t.drainOf 4 = .enter st ∧ t.f F.PWR_STATUS_ENTERING = 1 ∧
      t.pwrState = max 1 s.pwrState)) ∧
  -- AUTO_ENTRY (R433): from RUN to HOLD first
  (∀ (s : State),
    s.f F.PWR_CTRL_AUTO = 1 ∧ 1 ≤ s.f F.PWR_CTRL_MAX_STATE ∧ 1 ≤ s.f F.PWR_TOL_US ∧ 1 ≤ s.f F.PWR_IDLE_US →
    s.pwrState = 0 →
    s.drainOf 4 = .none →
    Completes (.autoEntry) s (fun t => t.pwrState = 1)) ∧
  -- ENTRY_COMPLETE (R436)
  (∀ (st : BitVec 3) (s : State),
    2 ≤ st.toNat ∧ st.toNat ≤ 4 →
    s.drainOf 4 = .gate st →
    (∀ k : Fin 4, s.drainOf k.val = .none) →
    s.pwr.wakeDue = none →
    s.fullLoad = false →
    Completes (.entryComplete) s (fun t => t.pwrState = st.toNat ∧ t.f F.PWR_STATUS_ENTERING = 0 ∧ t.drainOf 4 = .none ∧
      (∀ q : Fin 4, s.ownState q.val = 0 → t.quadState q.val = st.toNat))) ∧
  -- WAKE (R434)
  (∀ (s : State),
    s.drainOf 4 = .none →
    1 ≤ s.pwrState ∧ s.pwrState ≤ 4 →
    Completes (.wake) s (fun t => t.pwr.exiting = true ∧ t.f F.PWR_STATUS_WAKE_SRC = 1 ∧ t.f F.PWR_STATUS_WAKE_EVT = 1 ∧ t.f F.PWR_IDLE_US = 0)) ∧
  -- PEER_RESUMES_SIGNALLING (R434)
  (∀ (p : PortNo) (s : State),
    s.link p.val = 6 →
    s.drainOf 4 = .none →
    s.pwrState = 2 →
    Completes (.peerResumesSignalling p) s (fun t => t.pwr.exiting = true ∧ t.f F.PWR_STATUS_WAKE_SRC = 3)) ∧
  -- EXIT_COMPLETE (R437)
  (∀ (s : State),
    s.pwr.exiting = true ∧ s.pwr.goal = none →
    s.f F.PWR_CTRL_RELOAD = 0 ∧ s.f F.THM_STATUS_THERM = 0 →
    Completes (.exitComplete) s (fun t => (t.pwrState = 0 ∧ t.pwr.exiting = false ∧ ∀ q : Fin 4, s.ownState q.val = 0 → t.quadState q.val = 0))) ∧
  -- while the thermal trip stands (R442): the exit ends in HOLD
  (∀ (s : State),
    s.pwr.exiting = true ∧ s.pwr.goal = none →
    s.f F.PWR_CTRL_RELOAD = 0 ∧ s.f F.THM_STATUS_THERM = 1 →
    Completes (.exitComplete) s (fun t => t.pwrState = 1 ∧ t.pwr.exiting = false ∧ t.f F.PWR_STATUS_TRIP_HOLD = 1)) ∧
  -- QUAD_RESET (R438)
  (∀ (q : Quad) (s : State),
    s.quadResetting q.toNat = false ∧ s.packageResetting = false →
    Completes (.quadReset q) s (fun t => t.drainOf q.toNat = .reset ∧ t.refusing.getLsbD q.toNat = true)) ∧
  -- QUAD_DOZE, QUAD_DORMANT (R438)
  (∀ (q : Quad) (s : State),
    (∀ rg : Rg, quadOf rg = q.toNat → s.jobOf rg = none) →
    s.drainOf q.toNat = .none ∧ s.ownState q.toNat = 0 →
    Completes (.quadDoze q) s (fun t => t.drainOf q.toNat = .enter 2 ∧ t.refusing.getLsbD q.toNat = true)) ∧
  (∀ (q : Quad) (s : State),
    (∀ rg : Rg, quadOf rg = q.toNat → s.jobOf rg = none) →
    s.drainOf q.toNat = .none ∧ s.ownState q.toNat = 0 →
    Completes (.quadDormant q) s (fun t => t.drainOf q.toNat = .enter 4 ∧ t.refusing.getLsbD q.toNat = true)) ∧
  -- QUAD_WAKE of a rail in FAULT (R445)
  (∀ (q : Quad) (s : State),
    s.drainOf q.toNat = .none ∧ s.ownState q.toNat = 5 ∧ s.pwr.locked.getLsbD q.toNat = false →
    s.pwrState < 2 →
    Completes (.quadWake q) s (fun t => t.ownState q.toNat = 0 ∧ t.f (F.PWR_QSTAT_VQ q.toNat) = 750 ∧
      t.f (F.PWR_QSTAT_STATE q.toNat) = s.pwrState)) ∧
  -- VQ_FAULT (R29, R445)
  (∀ (q : Quad) (since : Word) (s : State),
    s.packageResetting = false →
    Completes (.vqFault q since) s (fun t => t.ownState q.toNat = 5 ∧ t.f (F.PWR_QSTAT_STATE q.toNat) = 5 ∧ t.f (F.PWR_QSTAT_VQ q.toNat) = 0 ∧
      t.f (F.PWR_QSTAT_VQ_FAULT q.toNat) = 1 ∧ t.drainOf q.toNat = .none)) ∧
  -- SHUTDOWN and its steps (R447)
  (∀ (s : State),
    s.pwr.shutdown = 0 →
    s.pwrState < 5 →
    Completes (.shutdown) s (fun t => t.pwr.shutdown = 1)) ∧
  (∀ (s : State),
    s.pwr.shutdown = 1 →
    Completes (.shutdownWaitEnd) s (fun t => t.pwr.shutdown = 2 ∧ t.refusing = setBit s.refusing 4 true ∧ t.drainOf 4 = .shutdown)) ∧
  (∀ (s : State),
    s.pwr.shutdown = 3 →
    s.f F.PWR_CTRL_SHUT_BIST = 0 →
    Completes (.shutdownBistEnd ⟨[], []⟩ []) s (fun t => (t.pwrState = 5 ∧ t.pwr.shutdown = 0 ∧ ∀ q : Fin 4, t.f (F.PWR_QSTAT_VQ q.val) = 0) ∧
      t.flash = { s.flash with slow := t.flash.slow, slowAt := t.flash.slowAt } ∧
      (∀ q : Fin 4, SMap.get 0 t.flash.slow q.val = BitVec.ofNat 10 (s.f (F.PWR_AGE_SLOW q.val)))))

/-- A power sample shows in POWER and QPOWER, with CAPPED where it is at 98 % of the cap or above. A thermal sample shows in the
65 sensors; a sensor at 115 °C or above asserts THERM, and one at the throttle's threshold or above throttles. An age check stores
the slowdown in its register, and in the flash once 24 h of powered time have passed since it was last saved there (or since hour
0: log entry 40), and reports the crossing of 6 %. Each clause concludes that exec answers a next state, from conditions on the
state and the operands alone, for: powerSample, thermalSample, ageCheck. -/
def Obligations.PowerAndThermalSamples : Prop :=
  -- POWER_SAMPLE (R439, R440)
  (∀ (pkg : BitVec 16) (quads : List (BitVec 16)) (s : State),
    Completes (.powerSample pkg quads) s (fun t => t.f F.PWR_POWER_NOW = pkg.toNat ∧
      s.f F.PWR_POWER_PEAK ≤ t.f F.PWR_POWER_PEAK ∧ pkg.toNat ≤ t.f F.PWR_POWER_PEAK ∧
      (∀ q : Fin 4, t.f (F.PWR_QPOWER_DW q.val) = (quads.getD q.val 0).toNat) ∧
      t.f F.PWR_STATUS_CAPPED = if 98 * s.cap ≤ 100 * pkg.toNat then 1 else 0)) ∧
  -- THERMAL_SAMPLE (R441, R442)
  (∀ (temps : List (BitVec 8)) (s : State),
    temps.length = 65 ∧ s.hubPowered = true ∧ s.pwr.boot ≠ .resetLow →
    Completes (.thermalSample temps) s (fun t => (∀ i : Fin 65, t.f (F.THM_SENSOR_TEMP i.val) = (temps.getD i.val 0).toNat) ∧
      (∀ x ∈ temps, x.toInt ≤ t.hottest) ∧
      BitVec.ofNat 8 (t.f F.THM_TEMP_MAX_TEMP) ∈ temps)) ∧
  (∀ (temps : List (BitVec 8)) (s : State),
    temps.length = 65 ∧ s.hubPowered = true ∧ s.pwr.boot ≠ .resetLow →
    (∃ x ∈ temps, 115 ≤ x.toInt) →
    Completes (.thermalSample temps) s (fun t => t.f F.THM_STATUS_THERM = 1 ∧ t.f F.PWR_STATUS_THR_TEMP = 1 ∧ t.f F.THM_STATUS_THROTTLING = 1)) ∧
  -- the throttle's threshold (R441)
  (∀ (temps : List (BitVec 8)) (s : State),
    temps.length = 65 ∧ s.hubPowered = true ∧ s.pwr.boot ≠ .resetLow →
    (∃ x ∈ temps, s.throttleAt ≤ x.toInt) →
    Completes (.thermalSample temps) s (fun t => t.f F.PWR_STATUS_THR_TEMP = 1 ∧ t.f F.THM_STATUS_THROTTLING = 1)) ∧
  -- AGE_CHECK (R446)
  (∀ (q : Quad) (slow : BitVec 10) (s : State),
    Completes (.ageCheck q slow) s (fun t => t.f (F.PWR_AGE_SLOW q.toNat) = slow.toNat ∧
      SMap.get 0 t.flash.slow q.toNat = (if (SMap.get 0 s.flash.slowAt q.toNat).toNat + 24 ≤ s.flash.hours.toNat then slow else SMap.get 0 s.flash.slow q.toNat) ∧
      ((s.f (F.PWR_AGE_SLOW q.toNat) < 60 ∧ 60 ≤ slow.toNat) → t.f F.PWR_STATUS_AGE_ALERT = 1)))

/-- CLASSIFY takes the oldest key of a location's queue: an unseen key enters the table with count 1, and the N-th event of a key
within W makes it lasting, which is logged, counted and reported. TAINT_CLEAR empties the logs of the quadrants in the mask. A
test starts in a region that may be tested; its last valid step without a failure ends the pass, a failing bit of a macro takes a
spare row that does not fail itself, an invalid step abandons it, and so does BIST_ABORT; a logic step whose region is no longer
at rest counts nothing and the pass goes on (log entry 122). REPAIR_CLEAR empties the map from the I3C target with ARM 0xC5 and
from nowhere else. Each clause concludes that exec answers a next state, from conditions on the state and the operands alone, for:
classify, taintClear, isbStart, bistGo, bistStep, bistAbort, repairClear. That BIST_GO waits where a test cannot begin, and
BIST_ABORT abandons every region's step, is log entry 56. -/
def Obligations.CountingAndSelfTest : Prop :=
  -- CLASSIFY with nothing queued (R452)
  (∀ (l : BitVec 3) (since : Word) (s : State),
    SMap.get [] s.faultQ l.toNat = [] →
    Completes (.classify l since) s (fun t => t = s)) ∧
  -- a key that the table does not hold (R452)
  (∀ (l : BitVec 3) (since : Word) (src : BitVec 5) (key : Word) (rest : List (BitVec 5 × Word)) (s : State),
    SMap.get [] s.faultQ l.toNat = (src, key) :: rest →
    2 ≤ s.f (F.FLT_CLASS_N src.toNat) →
    s.tracks.length < 512 →
    (∀ x ∈ s.tracks, x.src ≠ src ∨ x.loc ≠ l ∨ x.key ≠ key) →
    Completes (.classify l since) s (fun t => t = { s with faultQ := SMap.set [] s.faultQ l.toNat rest, tracks := s.tracks ++ [⟨src, l, key, 1, s.msAt since⟩] })) ∧
  -- the N-th event within W: the key is lasting (R452, R453)
  (∀ (l : BitVec 3) (since : Word) (src : BitVec 5) (key : Word) (first : Nat) (n : BitVec 9) (rest : List (BitVec 5 × Word)) (s : State),
    SMap.get [] s.faultQ l.toNat = (src, key) :: rest →
    s.f (F.FLT_CLASS_N src.toNat) = n.toNat + 1 ∧ 1 ≤ n.toNat ∧ n.toNat < 255 →
    s.tracks = [⟨src, l, key, n, first⟩] →
    s.msAt since - first ≤ 100 * s.f (F.FLT_CLASS_W src.toNat) →
    s.f F.FLT_LOG_PTR_LASTING = 4 →
    Completes (.classify l since) s (fun t => t.tracks = [⟨src, l, key, n + 1, first⟩] ∧
      t.f F.FLT_STATUS_LASTING = 1 ∧
      t.f F.FLT_LOG_PTR_LASTING = 5 ∧
      t.reg (R.FLT_LASTING_LOG_1 5) = key ∧ t.reg (R.FLT_LASTING_LOG_2 5) = BitVec.ofNat 32 (s.msAt since) ∧
      (t.reg R.HIF_IBI_PEND).getLsbD 0x13 = true)) ∧
  -- TAINT_CLEAR (R471)
  (∀ (mask : BitVec 4) (s : State),
    Completes (.taintClear mask) s (fun t => (∀ q : Fin 4, mask.getLsbD q.val = true → t.f (F.TNT_PTR_NEWEST q.val) = 0x3FF ∧ t.f (F.TNT_PTR_WRAPPED q.val) = 0 ∧
      t.f (F.TNT_COUNT_ENTRIES q.val) = 0) ∧
      (∀ q : Fin 4, mask.getLsbD q.val = false → t.reg (R.TNT_PTR q.val) = s.reg (R.TNT_PTR q.val) ∧
      t.f (F.TNT_COUNT_ENTRIES q.val) = s.f (F.TNT_COUNT_ENTRIES q.val)) ∧
      (∀ a : Nat, (∀ q : Fin 4, mask.getLsbD q.val = true → a ≠ R.TNT_PTR q.val ∧ a ≠ R.TNT_COUNT q.val) → t.reg a = s.reg a) ∧
      t.taints = s.taints ∧ t = { s with regs := t.regs })) ∧
  -- ISB_START (R463): because the interval has passed, or for the queue
  (∀ (rg : Rg) (due : Bool) (s : State),
    s.f F.FLT_CTRL_ISB_EN = 1 ∧ s.bist.asked.getLsbD rg.toNat = false →
    s.testable rg = true →
    ((due = true ∧ s.passDue rg = true) ∨ (due = false ∧ s.bist.queued.getLsbD rg.toNat = true)) →
    s.testCount = 0 →
    s.f F.PWR_POWER_NOW = 0 ∧ s.f F.FLT_ISB_HEADROOM ≤ 100 →
    s.f F.PWR_STATUS_STATE ≤ 1 ∧ s.clocked rg = true →
    s.rf rg F.FIX_STATUS_STATE = 0 ∧ s.rf rg F.RGN_CTRL_ISOLATE = 0 →
    (∀ k : CoreNo, s.rf rg (F.EAS_STATUS_STATE k.val) ≠ 1) →
    Completes (.isbStart rg due) s (fun t => t.testing rg = true ∧ t.f F.FLT_BIST_STAT_STATE = 1 ∧ t.f F.FLT_BIST_STAT_OCCASION = 2 ∧
      t.rgns = s.rgns ∧ t.flash = s.flash)) ∧
  -- BIST_GO (R460, R463)
  (∀ (rg : Rg) (s : State),
    s.testCount = 0 ∧ s.testing rg = false →
    s.f F.PWR_POWER_NOW = 0 ∧ s.f F.FLT_ISB_HEADROOM ≤ 100 →
    s.rf rg F.FIX_STATUS_STATE = 0 ∧ s.testable rg = true →
    Completes (.bistGo rg) s (fun t => t.testing rg = true ∧ t.f F.FLT_BIST_STAT_STATE = 1 ∧ t.f F.FLT_BIST_STAT_OCCASION = 3 ∧
      t.rgns = s.rgns ∧ t.flash = s.flash)) ∧
  -- it waits while the fix engine works (R463)
  (∀ (rg : Rg) (s : State),
    s.testing rg = false →
    s.rf rg F.FIX_STATUS_STATE = 2 →
    Completes (.bistGo rg) s (fun t => t.testing rg = false ∧ t.bist.asked.getLsbD rg.toNat = true)) ∧
  -- it waits while an in-service test of the region runs (R460)
  (∀ (rg : Rg) (s : State),
    s.testing rg = true ∧ s.bist.demand.getLsbD rg.toNat = false →
    Completes (.bistGo rg) s (fun t => t.testing rg = true ∧ t.bist.asked.getLsbD rg.toNat = true ∧ t.bist.demand = s.bist.demand)) ∧
  -- BIST_STEP: the step that leaves no block of the pass untested finds nothing (R463, R466)
  (∀ (rg : Rg) (s : State),
    s.testing rg = true ∧ s.logicStep rg = false →
    (noteTested s rg).blocksLeft rg = [] →
    s.passBad rg = false →
    s.testSound rg = true ∧ s.bist.unsound.getLsbD rg.toNat = false →
    Completes (.bistStep rg ⟨[], []⟩ true true) s (fun t => t.testing rg = false ∧ t.f F.FLT_BIST_STAT_STATE = 2 ∧ t.f F.FLT_BIST_STAT_OCCASION = (if s.bist.demand.getLsbD rg.toNat then 3 else 2) ∧
      t.flash = s.flash ∧ t.rgns = s.rgns)) ∧
  -- a failing bit of a macro: a spare row that does not fail itself is assigned (R466, R467)
  (∀ (rg : Rg) (f : BistFail) (spareFails : Bool) (s : State),
    s.testing rg = true ∧ s.logicStep rg = false →
    s.testSound rg = true ∧ s.bist.unsound.getLsbD rg.toNat = false →
    f.hub = false ∧ failRegion f = rg ∧ f.logic = false ∧ f.mac.toNat ≤ 1160 →
    (SMap.get none s.bist.bank rg.toNat = some f.mac ∧ ∃ b ∈ (noteTested s rg).blocksLeft rg, b < 1161) →
    s.repairs = [] →
    Completes (.bistStep rg ⟨[f], if spareFails = true then [⟨f.q, f.g, false, f.mac, false, 0⟩] else []⟩ true false) s (fun t => t.flash.repairs = [repairEntry (macroOf f) 0 (f.addr.toNat / 8) (if spareFails = true then 1 else 0)] ∧
      t.flash.seq = s.flash.seq + 1 ∧
      t.f F.FLT_BIST_STAT_FAILS = min (s.f F.FLT_BIST_STAT_FAILS + 1) F.FLT_BIST_STAT_FAILS.max ∧
      t.testing rg = true ∧ t.f F.FLT_STATUS_BIST_FAIL = s.f F.FLT_STATUS_BIST_FAIL)) ∧
  -- BIST_STEP: INVALID, and the pass continues later (R464)
  (∀ (rg : Rg) (fails : BistReport) (valid last : Bool) (s : State),
    s.testing rg = true ∧ s.logicStep rg = false →
    (valid = false ∨ s.testSound rg = false ∨ s.bist.unsound.getLsbD rg.toNat = true) →
    Completes (.bistStep rg fails valid last) s (fun t => t.testing rg = false ∧ t.f F.FLT_BIST_STAT_STATE = 4 ∧
      (if s.bist.demand.getLsbD rg.toNat then t.bist.asked else t.bist.queued).getLsbD rg.toNat = true ∧
      t.f F.FLT_BIST_STAT_FAILS = s.f F.FLT_BIST_STAT_FAILS ∧ t.flash = s.flash)) ∧
  -- a logic step whose region has started, or of which a core was to leave WAIT, was abandoned: nothing counts, the pass goes on (R464)
  (∀ (rg : Rg) (fails : BistReport) (valid last : Bool) (s : State),
    s.testing rg = true ∧ s.logicStep rg = true →
    (s.stepBroken rg = true ∧ ∃ b ∈ s.blocksLeft rg, b < 1161) →
    Completes (.bistStep rg fails valid last) s (fun t => t.testing rg = true ∧
      t.f F.FLT_BIST_STAT_FAILS = s.f F.FLT_BIST_STAT_FAILS ∧ t.flash = s.flash)) ∧
  -- BIST_ABORT (R464)
  (∀ (s : State),
    (∃ rg : Rg, s.testing rg = true) →
    Completes (.bistAbort) s (fun t => (∀ rg : Rg, t.testing rg = false ∧ (s.testing rg = true → (if s.bist.demand.getLsbD rg.toNat then t.bist.asked else t.bist.queued).getLsbD rg.toNat = true)) ∧
      t.f F.FLT_BIST_STAT_STATE = 4 ∧ t.flash = s.flash)) ∧
  -- REPAIR_CLEAR (R468)
  (∀ (arm : BitVec 8) (s : State),
    Completes (.repairClear .i3c arm) s (fun t => (arm = 0xC5 → (t.flash.repairs = [] ∧ t.flash.seq = s.flash.seq + 1)) ∧
      t = { s with flash := t.flash } ∧ t.flash = { s.flash with repairs := t.flash.repairs, seq := t.flash.seq } ∧
      (arm ≠ 0xC5 → t = s))) ∧
  (∀ (w : Writer) (arm : BitVec 8) (s : State),
    w ≠ .i3c →
    Completes (.repairClear w arm) s (fun t => t = s))

/-- SCRUB_FRAME in a region whose walker runs moves the walker to the next frame, counts a word corrected as CNV_CE, and isolates
a cell whose frame has an uncorrectable word by setting its mode to 0. Where the walker does not run, or CNV_EN is 0, nothing
changes. SCRUB_MEM_STEP takes a burst at the back port. Each clause concludes that exec answers a next state, from conditions on
the state and the operands alone, for: scrubFrame, scrubMemStep. That a memory scrub step is one whole burst which frees the port
at its end is log entry 53. -/
def Obligations.Scrubbing : Prop :=
  -- SCRUB_FRAME of a clean frame (R236)
  (∀ (rg : Rg) (since : Word) (s : State),
    s.f F.SCR_CTRL_CNV_EN = 1 →
    s.walks rg = true →
    (∃ rh : Rg, s.walks rh = true ∧ rh ≠ rg ∧ s.scr.cnvDone.getLsbD rh.toNat = false) →
    Completes (.scrubFrame rg [] false since) s (fun t => SMap.get 0 t.scr.cnv rg.toNat = SMap.get 0 s.scr.cnv rg.toNat + 1 ∧
      t.rgns = s.rgns ∧ t.regs = s.regs)) ∧
  -- a walker that does not run (R236)
  (∀ (rg : Rg) (e : List Ecc) (vote : Bool) (since : Word) (s : State),
    (s.f F.SCR_CTRL_CNV_EN = 0 ∨ s.walks rg = false) →
    Completes (.scrubFrame rg e vote since) s (fun t => t = s)) ∧
  -- an uncorrectable word (R238)
  (∀ (rg : Rg) (since : Word) (s : State),
    s.f F.SCR_CTRL_CNV_EN = 1 →
    s.walks rg = true →
    ((s.rgn rg).cell (SMap.get 0 s.scr.cnv rg.toNat)).clamped = false →
    Completes (.scrubFrame rg [.uncorrectable] false since) s (fun t => cfgMode (t.cellCfg rg (SMap.get 0 s.scr.cnv rg.toNat)) = 0 ∧
      t.f F.SCR_CE_CNV_UE = min (s.f F.SCR_CE_CNV_UE + 1) F.SCR_CE_CNV_UE.max ∧
      (∀ m : CellNo, m ≠ SMap.get 0 s.scr.cnv rg.toNat → t.cellCfg rg m = s.cellCfg rg m))) ∧
  -- a corrected word (R237)
  (∀ (rg : Rg) (since : Word) (s : State),
    s.f F.SCR_CTRL_CNV_EN = 1 →
    s.walks rg = true →
    ((s.rgn rg).cell (SMap.get 0 s.scr.cnv rg.toNat)).clamped = false →
    Completes (.scrubFrame rg [.clean, .single] false since) s (fun t => t.f F.SCR_CE_CNV_CE = min (s.f F.SCR_CE_CNV_CE + 1) F.SCR_CE_CNV_CE.max ∧
      (∀ m : CellNo, t.cellCfg rg m = s.cellCfg rg m))) ∧
  -- SCRUB_MEM_STEP of a walker that does not run (R236)
  (∀ (rg : Rg) (e : List Ecc) (vote : Bool) (s : State),
    (s.f F.SCR_CTRL_MEM_EN = 0 ∨ s.walks rg = false) →
    Completes (.scrubMemStep rg e vote) s (fun t => t = s)) ∧
  -- SCRUB_MEM_STEP: a burst of two clean words within a pass (R236, R118)
  (∀ (rg : Rg) (vote : Bool) (s : State),
    s.f F.SCR_CTRL_MEM_EN = 1 →
    s.walks rg = true ∧ s.applying = none →
    s.rf rg F.DMEM_ARB_SCRUB_BURST = 2 →
    s.rf rg F.DMEM_STATUS_OWNER = 5 →
    (s.rgn rg).upsets = [] ∧ (s.rgn rg).frontWrites = false →
    (SMap.get 0 s.scr.mem rg.toNat).toNat + 2 < 786432 →
    (∃ rh : Rg, s.walks rh = true ∧ rh ≠ rg ∧ s.scr.memDone.getLsbD rh.toNat = false) →
    Completes (.scrubMemStep rg [] vote) s (fun t => (SMap.get 0 t.scr.mem rg.toNat).toNat = (SMap.get 0 s.scr.mem rg.toNat).toNat + 2 ∧
      (t.rgn rg).dmem = (s.rgn rg).dmem ∧ (t.rgn rg).ring = (s.rgn rg).ring ∧
      t.rf rg F.DMEM_STATUS_OWNER = 6))

/-- For every section type of R192: with the section open and its next record staged whole, the command writes the record's data
to the place its run header names, and the section goes on behind the record or ends. PARTITION gives the regions their jobs,
SETTINGS are held for finishing, SIGNATURE enters FINISHING. A word written to CFG.FIFO is staged behind the one before. Each
clause concludes that exec answers a next state, from conditions on the state and the operands alone, for: cfgFifo, partition,
canvas, stroke, palette, dmem, easel, slot, routeOvr, region, library, settings, signature. -/
def Obligations.SectionsOfALoad : Prop :=
  -- CFG_FIFO (R200), with the header still to come
  (∀ (w : Word) (s : State),
    s.load.kind = .none ∧ s.load.path = 3 ∧ s.load.fifo + 4 ≤ windowBytes ∧ s.load.fifo % 4 = 0 →
    stagedBytes (stageWords s.load.stage s.load.fifo [w]) 0 64 = none →
    Completes (.cfgFifo w) s (fun t => SMap.get none t.load.stage (s.load.fifo / 4) = some w ∧ t.load.fifo = s.load.fifo + 4 ∧
      t.regs = s.regs ∧ t.rgns = s.rgns)) ∧
  -- PARTITION (R194)
  (∀ (x : Section) (d : List (BitVec 8)) (s : State),
    AtWhole s x 1 d ∧ x.done = 0 →
    x.len = 512 + 16 * x.count.toNat ∧ x.count.toNat ≤ 255 →
    (∀ v ∈ numbers 8 (d.take 512), v < 128) →
    partFlaw [] 0 (numbers 16 (d.drop 512)) = none →
    Completes (.partition) s (fun t => (∀ rg : Rg, t.rf rg F.RGN_STATUS_IN_JOB = (numbers 8 d).getD rg.toNat 0 / 64 % 2 ∧ t.rf rg F.RGN_STATUS_JOB = (numbers 8 d).getD rg.toNat 0 % 64) ∧
      (∀ i < (numbers 4 d).length, t.reg (R.CFG_PART i) = BitVec.ofNat 32 ((numbers 4 d).getD i 0)) ∧
      t.load.sec = none)) ∧
  -- CANVAS, a run of one frame (R205)
  (∀ (x : Section) (h : Nat) (d : List (BitVec 8)) (s : State),
    AtRun s x 2 h d ∧ hf h 16 11 = 1 →
    frameReserved (runRgn h) (BitVec.ofNat 10 (hf h 6 10)) (BitVec.ofNat 2048 (leNat (d.take 256))) = true →
    frameSound (s.onRgn (runRgn h) (fun r => r.putFrame (BitVec.ofNat 10 (hf h 6 10)) (BitVec.ofNat 2048 (leNat (d.take 256))))) (runRgn h) (BitVec.ofNat 10 (hf h 6 10)) = true →
    Completes (.canvas) s (fun t => t.cellCfg (runRgn h) (BitVec.ofNat 10 (hf h 6 10)) = BitVec.ofNat 2048 (leNat (d.take 256)) ∧
      (∀ n : CellNo, n.toNat ≠ hf h 6 10 → t.cellCfg (runRgn h) n = s.cellCfg (runRgn h) n) ∧
      RunTaken t x d)) ∧
  -- STROKE (R192)
  (∀ (x : Section) (h : Nat) (d : List (BitVec 8)) (s : State),
    AtRun s x 3 h d →
    Completes (.stroke) s (fun t => (∀ i : Fin 64, SMap.get 0 (t.rgn (runRgn h)).strokes (strokeKey (BitVec.ofNat 4 (hf h 6 4)) (BitVec.ofNat 6 (hf h 10 6)) (64 * hf h 16 5 + i.val)) =
      BitVec.ofNat 112 ((numbers 14 d).getD i.val 0)) ∧
      RunTaken t x d)) ∧
  -- PALETTE (R82, R192)
  (∀ (x : Section) (h : Nat) (d : List (BitVec 8)) (s : State),
    AtRun s x 4 h d →
    Completes (.palette) s (fun t => (∀ i < hf h 20 11, hf h 10 10 + i < 992 →
      SMap.get 0 (t.cl (runRgn h) (BitVec.ofNat 4 (hf h 6 4))).pal (hf h 10 10 + i) = BitVec.ofNat 64 ((numbers 8 d).getD i 0)) ∧
      (∀ i < hf h 20 11, 992 ≤ hf h 10 10 + i →
      SMap.get 0 (t.rgn (runRgn h)).startv (28 * hf h 6 4 + (hf h 10 10 + i - 992)) = BitVec.ofNat 64 ((numbers 8 d).getD i 0)) ∧
      RunTaken t x d)) ∧
  -- DMEM (R192)
  (∀ (x : Section) (h : Nat) (d : List (BitVec 8)) (s : State),
    AtRun s x 5 h d →
    Completes (.dmem) s (fun t => (∀ i < hf h 25 20, SMap.get 0 (t.rgn (runRgn h)).dmem (hf h 6 19 + i) = BitVec.ofNat 64 ((numbers 8 d).getD i 0)) ∧
      (∀ a, a < hf h 6 19 ∨ hf h 6 19 + hf h 25 20 ≤ a → SMap.get 0 (t.rgn (runRgn h)).dmem a = SMap.get 0 (s.rgn (runRgn h)).dmem a) ∧
      RunTaken t x d)) ∧
  -- EASEL (R192)
  (∀ (x : Section) (h : Nat) (d : List (BitVec 8)) (k : CoreNo) (s : State),
    AtRun s x 6 h d ∧ hf h 6 2 = k.val →
    Completes (.easel) s (fun t => (∀ i < d.length, hf h 8 2 = 0 → byteAt (t.eas (runRgn h) k).prog (hf h 10 16 + i) = d.getD i 0) ∧
      (∀ i < d.length, hf h 8 2 = 1 → byteAt (t.eas (runRgn h) k).x (hf h 10 16 + i) = d.getD i 0) ∧
      (∀ i < d.length, hf h 8 2 = 2 → byteAt (t.eas (runRgn h) k).y (hf h 10 16 + i) = d.getD i 0) ∧
      RunTaken t x d)) ∧
  -- SLOT (R294)
  (∀ (x : Section) (h : Nat) (d : List (BitVec 8)) (s : State),
    AtRun s x 7 h d →
    leNat ((d.drop 8).take 8) = 0 →
    wordsClear 0xFFFE0000 ((numbers 4 d).drop 4) = true →
    Completes (.slot) s (fun t => t.reg (R.LNK_PLAN_LO (hf h 0 3)) = BitVec.ofNat 32 ((numbers 4 d).getD 0 0) ∧
      t.reg (R.LNK_PLAN_HI (hf h 0 3)) = BitVec.ofNat 32 ((numbers 4 d).getD 1 0) ∧
      (∀ i < (numbers 4 d).length - 4, SMap.get 0 (t.port (hf h 0 3)).map i = BitVec.ofNat 32 ((numbers 4 d).getD (4 + i) 0)) ∧
      (t.port (hf h 0 3)).shadow = (t.port (hf h 0 3)).map ∧ RunTaken t x d)) ∧
  -- ROUTE_OVR (R258, R265, R269)
  (∀ (x : Section) (h : Nat) (d : List (BitVec 8)) (s : State),
    AtRun s x 8 h d →
    (∀ i : Fin 32, (numbers 4 d).getD i.val 0 &&& (if i.val % 2 = 0 then 0xFF000000 else 0xE0000000) = 0) →
    wordsClear 0xFFFC0000 ((numbers 4 d).drop 32) = true →
    Completes (.routeOvr) s (fun t => (∀ i : Fin 32, (t.rgn (runRgn h)).reg (R.NOC_OVR 0 + 4 * i.val) = BitVec.ofNat 32 ((numbers 4 d).getD i.val 0)) ∧
      (∀ i : Fin 384, (t.rgn (runRgn h)).reg (R.NOC_SFWD 0 + 4 * i.val) = BitVec.ofNat 32 ((numbers 4 d).getD (32 + i.val) 0)) ∧
      RunTaken t x d)) ∧
  -- REGION: a route table, an exchange map, an order list (R96, R97, R101)
  (∀ (x : Section) (h : Nat) (d : List (BitVec 8)) (s : State),
    AtRun s x 9 h d ∧ hf h 6 4 = 0 →
    ((numbers 4 d).zipIdx).all (fun x => x.1 &&& (if x.2 % 2 = 0 then 0xFFFFFC00 else 0xFF000000) == 0) = true →
    Completes (.region) s (fun t => (∀ i : Fin 2048, (t.rgn (runRgn h)).reg (R.RGN_ROUTE 0 + 4 * i.val) = BitVec.ofNat 32 ((numbers 4 d).getD i.val 0)) ∧
      RunTaken t x d)) ∧
  (∀ (x : Section) (h : Nat) (d : List (BitVec 8)) (s : State),
    AtRun s x 9 h d ∧ hf h 6 4 = 1 →
    wordsClear 0xFFFFFE00 (numbers 4 d) = true →
    Completes (.region) s (fun t => (∀ i : Fin 512, (t.rgn (runRgn h)).reg (R.RGN_XMAP 0 + 4 * i.val) = BitVec.ofNat 32 ((numbers 4 d).getD i.val 0)) ∧
      RunTaken t x d)) ∧
  (∀ (x : Section) (h : Nat) (d : List (BitVec 8)) (s : State),
    AtRun s x 9 h d ∧ hf h 6 4 = 2 →
    Completes (.region) s (fun t => (∀ i : Fin 512, (t.rgn (runRgn h)).reg (R.RGN_MORDER 0 + 4 * i.val) = BitVec.ofNat 32 ((numbers 4 d).getD i.val 0)) ∧
      t.rf (runRgn h) F.RGN_MCOUNT_COUNT = hf h 10 13 ∧ RunTaken t x d)) ∧
  -- its control record (R143)
  (∀ (x : Section) (h : Nat) (d : List (BitVec 8)) (s : State),
    AtRun s x 9 h d ∧ hf h 6 4 = 3 →
    leNat ((d.drop 2).take 6) = 0 →
    Completes (.region) s (fun t => t.rf (runRgn h) F.RWD_CTRL_SNAP_EVERY = leNat (d.take 2) ∧
      (t.rgn (runRgn h)).reg R.RWD_JLOG_LO = BitVec.ofNat 32 ((numbers 4 d).getD 2 0) ∧ (t.rgn (runRgn h)).reg R.RWD_JLOG_HI = BitVec.ofNat 32 ((numbers 4 d).getD 3 0) ∧
      RunTaken t x d)) ∧
  -- LIBRARY (R356)
  (∀ (x : Section) (h : Nat) (d : List (BitVec 8)) (q : Quad) (s : State),
    AtRun s x 0xA h d →
    Completes (.library) s (fun t => (∀ i < d.length, byteAt t.library (0x8000 * q.toNat + hf h 0 24 + i) = d.getD i 0) ∧
      t.rgns = s.rgns ∧ RunTaken t x d)) ∧
  -- SETTINGS (R193)
  (∀ (x : Section) (d : List (BitVec 8)) (s : State),
    AtWhole s x 0xB d ∧ x.done = 0 ∧ x.len = 16 * x.count.toNat →
    ((pieces 16 (d.length / 16) d).map (numbers 4)).all (fun r => r.getD 3 0 == 0 && groundMask (r.getD 0 0) != 0 && r.getD 1 0 &&& (0xFFFFFFFF - groundMask (r.getD 0 0)) == 0) = true →
    Completes (.settings) s (fun t => t.load.settings = s.load.settings ++ ((pieces 16 (d.length / 16) d).map (numbers 4)).map (fun r => (BitVec.ofNat 32 (r.getD 0 0), BitVec.ofNat 32 (r.getD 1 0), BitVec.ofNat 32 (r.getD 2 0))) ∧
      t.load.sec = none ∧ t.regs = s.regs ∧ t.rgns = s.rgns)) ∧
  -- SIGNATURE (R195, R203)
  (∀ (x : Section) (d : List (BitVec 8)) (s : State),
    AtWhole s x 0xF d ∧ x.done = 0 ∧ x.len = 200 →
    headerField s 0x20 4 = s.load.sections + 1 →
    leNat ((d.drop 1).take 7) = 0 →
    Completes (.signature) s (fun t => t.f F.CFG_STATUS_STATE = 2 ∧ t.load.sec = none ∧ t.rgns = s.rgns))

/-- In FINISHING the load succeeds where the signature has no flaw, and fails with the flaw's code otherwise. A load fails with
code 14 by its timeout and 15 by ABORT. DONE seen high enters USER. START_CMD without GO writes its fields and starts nothing;
with GO, a broadcast by a package that is not the lodestar is refused. Each clause concludes that exec answers a next state, from
conditions on the state and the operands alone, for: finishingEnd, loadTimeout, abort, doneHigh, startCmd. -/
def Obligations.TheEndOfALoad : Prop :=
  -- FINISHING_END (R203) of a load that is no ground
  (∀ (s : State),
    s.load.kind = .full ∧ s.cfgState = 2 ∧ s.load.path ≠ 1 →
    s.f F.CFG_CTRL_DONE_SOLO = 0 →
    s.load.settings.all (fun x => groundMask x.1.toNat != 0 && x.1.toNat != R.CFG_CTRL) = true →
    Completes (.finishingEnd) s (fun t => (signatureFlaw s (s.load.point - 200) = none → t.f F.CFG_STATUS_STATE = 3 ∧ t.f F.CFG_LOADS_OK = min (s.f F.CFG_LOADS_OK + 1) F.CFG_LOADS_OK.max) ∧
      (signatureFlaw s (s.load.point - 200) ≠ none → t.f F.CFG_STATUS_STATE = 5 ∧ t.f F.CFG_LOADS_FAILED = min (s.f F.CFG_LOADS_FAILED + 1) F.CFG_LOADS_FAILED.max) ∧
      t.load = {})) ∧
  -- a signature by a slot that is not programmed (R196)
  (∀ (s : State),
    s.load.kind = .full ∧ s.cfgState = 2 ∧ s.load.path ≠ 1 →
    200 ≤ s.load.point ∧ (stagedBytes s.load.stage 0 s.load.point).isSome = true →
    s.fuses.programmed ≠ 0 ∧ s.fuses.programmed.getLsbD (leNat ((stagedBytes s.load.stage (s.load.point - 200) 1).getD [])) = false →
    Completes (.finishingEnd) s (fun t => t.f F.CFG_STATUS_STATE = 5 ∧ t.f F.CFG_ERR_CODE = 13)) ∧
  -- LOAD_TIMEOUT (R204)
  (∀ (s : State),
    s.load.kind = .full ∧ s.cfgState = 1 ∧ s.f F.CFG_CTRL_LOAD_TIMEOUT ≠ 0 →
    Completes (.loadTimeout) s (fun t => t.f F.CFG_STATUS_STATE = 5 ∧ t.f F.CFG_ERR_CODE = 14 ∧ t.load = {} ∧ t.keys = [] ∧
      (∀ rg : Rg, t.rf rg F.RGN_STATUS_IN_JOB = 0))) ∧
  -- ABORT (R204)
  (∀ (s : State),
    (s.load.kind = .full ∧ (s.cfgState = 1 ∨ s.cfgState = 2)) →
    Completes (.abort) s (fun t => t.f F.CFG_STATUS_STATE = 5 ∧ t.f F.CFG_ERR_CODE = 15 ∧ t.load = {} ∧ t.keys = [])) ∧
  -- DONE_HIGH (R207, R208)
  (∀ (s : State),
    s.cfgState = 3 →
    Completes (.doneHigh) s (fun t => t.f F.CFG_STATUS_STATE = 4 ∧ t.f F.CFG_STATUS_DONE_SEEN = 1 ∧
      (∀ rg : Rg, (s.rgn rg).configured = true → (t.rgn rg).live = true))) ∧
  -- START_CMD (R211) without GO
  (∀ (v : Word) (s : State),
    v.getLsbD 9 = false →
    Completes (.startCmd v) s (fun t => t = s.setReg R.CFG_START_CMD (v &&& 0x1FF))) ∧
  -- a broadcast by a package that is not the lodestar
  (∀ (v : Word) (s : State),
    v.getLsbD 9 = true ∧ v.getLsbD 7 = true →
    s.f F.FAB_STATUS_LODESTAR = 0 →
    (∀ rg : Rg, s.jobOf rg = none) →
    Completes (.startCmd v) s (fun t => t.f F.CFG_STATUS_START_MISSED = 1 ∧ t.reg R.CFG_START_CMD = v &&& 0x1FF))

/-- The ground commands load, arm, commit, erase and refresh the copies of their slot; the key commands fill and erase theirs;
PROGRAM and REVOKE over I3C with the arming byte act on their fuse slot, and by any other path or byte they do nothing. Each
clause concludes that exec answers a next state, from conditions on the state and the operands alone, for: groundLoad,
groundWrite, groundCommit, groundErase, groundRefresh, unwrap, keyErase, keyEraseAll, program, revoke. -/
def Obligations.GroundsAndKeys : Prop :=
  -- GROUND_LOAD (R213, R215)
  (∀ (slot : BitVec 2) (s : State),
    s.fullLoad = false ∧ s.groundBusy = false →
    Completes (.groundLoad slot) s (fun t => t.f F.CFG_STATUS_SLOT = slot.toNat ∧
      (s.activeCopy slot.toNat = none → t.f F.CFG_STATUS_GROUND_ERR = 1 ∧ t.cfgState = s.cfgState) ∧
      (s.activeCopy slot.toNat ≠ none → t.f F.CFG_STATUS_SOURCE = 1 ∧ (t.cfgState = 1 ∨ t.cfgState = 5)) ∧
      t.flash = s.flash)) ∧
  -- GROUND_WRITE (R214)
  (∀ (slot : BitVec 2) (s : State),
    s.fullLoad = false ∧ s.groundBusy = false →
    Completes (.groundWrite slot) s (fun t => t = { s with load := { s.load with armed := some slot } })) ∧
  -- GROUND_COMMIT (R214)
  (∀ (n : BitVec 2) (s : State),
    s.load.kind = .ground n ∧ bsLength s ≤ s.load.end_ →
    Completes (.groundCommit) s (fun t => (∀ k, signatureFlaw s (bsLength s - 200) = some k → t.f F.CFG_GROUND_STAT_RESULT = k % 16 ∧ t.flash = s.flash) ∧
      (signatureFlaw s (bsLength s - 200) = none → t.f F.CFG_GROUND_STAT_RESULT = 0) ∧
      (∀ c, s.activeCopy n.toNat = some c → t.copy n.toNat c = s.copy n.toNat c) ∧
      (signatureFlaw s (bsLength s - 200) = none → ∀ c, s.activeCopy n.toNat = some c →
        (t.copy n.toNat (!c)).seq = (s.copy n.toNat c).seq + 1 ∧ (t.copy n.toNat (!c)).commit = true ∧
          (t.copy n.toNat (!c)).digest = Config.sha384 ((stagedBytes s.load.stage 0 (bsLength s)).getD [])) ∧
      (signatureFlaw s (bsLength s - 200) = none → s.activeCopy n.toNat = none →
        (t.copy n.toNat false).commit = true ∧ (t.copy n.toNat false).digest = Config.sha384 ((stagedBytes s.load.stage 0 (bsLength s)).getD [])) ∧
      t.load = {})) ∧
  -- GROUND_ERASE (R214)
  (∀ (slot : BitVec 2) (s : State),
    Completes (.groundErase slot) s (fun t => t.copy slot.toNat false = {} ∧ t.copy slot.toNat true = {} ∧ t.f F.CFG_GROUND_STAT_RESULT = 0 ∧
      (∀ m : BitVec 2, m ≠ slot → ∀ c, t.copy m.toNat c = s.copy m.toNat c))) ∧
  -- GROUND_REFRESH (R216)
  (∀ (slot : BitVec 2) (s : State),
    s.fullLoad = false ∧ s.groundBusy = false →
    Completes (.groundRefresh slot) s (fun t => (s.activeCopy slot.toNat = none → t = s) ∧
      (∀ c, s.activeCopy slot.toNat = some c → (s.copy slot.toNat c).hours.toNat < 17532 → t = s) ∧
      (∀ c, s.activeCopy slot.toNat = some c → 17532 ≤ (s.copy slot.toNat c).hours.toNat →
      t.copy slot.toNat (!c) = { s.copy slot.toNat c with seq := (s.copy slot.toNat c).seq + 1, hours := 0 } ∧
      t.copy slot.toNat c = s.copy slot.toNat c ∧ t = { s with flash := t.flash }))) ∧
  -- UNWRAP (R198)
  (∀ (slot : BitVec 3) (s : State),
    Completes (.unwrap slot) s (fun t => (Config.keyUnwrap s.wrapped = none → SMap.get 0 t.keys slot.toNat = 0 ∧ t.f F.CFG_PKEY_STAT_UNWRAP_FAIL = 1) ∧
      (∀ b, Config.keyUnwrap s.wrapped = some b → b.toNat % 2 ^ 32 = 0 → leNat (bytesOf 4 (b.toNat / 2 ^ 32 % 2 ^ 32)).reverse ≠ 0 →
        SMap.get 0 t.keys slot.toNat = BitVec.ofNat 288 (b.toNat / 2 ^ 64 + 2 ^ 256 * leNat (bytesOf 4 (b.toNat / 2 ^ 32 % 2 ^ 32)).reverse) ∧
          hubView t (R.CFG_PKEY_ID slot.toNat) = BitVec.ofNat 32 (leNat (bytesOf 4 (b.toNat / 2 ^ 32 % 2 ^ 32)).reverse) ∧
          t.keyLoaded slot.toNat = true ∧ t.f F.CFG_PKEY_STAT_UNWRAP_FAIL = s.f F.CFG_PKEY_STAT_UNWRAP_FAIL) ∧
      (∀ b, Config.keyUnwrap s.wrapped = some b → (b.toNat % 2 ^ 32 ≠ 0 ∨ leNat (bytesOf 4 (b.toNat / 2 ^ 32 % 2 ^ 32)).reverse = 0) →
        SMap.get 0 t.keys slot.toNat = 0 ∧ t.f F.CFG_PKEY_STAT_UNWRAP_FAIL = 1) ∧
      (∀ m : BitVec 3, m ≠ slot → SMap.get 0 t.keys m.toNat = SMap.get 0 s.keys m.toNat))) ∧
  -- KEY_ERASE, KEY_ERASE_ALL (R198)
  (∀ (slot : BitVec 3) (s : State),
    Completes (.keyErase slot) s (fun t => SMap.get 0 t.keys slot.toNat = 0 ∧
      (∀ m : BitVec 3, m ≠ slot → SMap.get 0 t.keys m.toNat = SMap.get 0 s.keys m.toNat) ∧
      t = { s with keys := t.keys })) ∧
  (∀ (s : State),
    Completes (.keyEraseAll) s (fun t => t = { s with keys := [] })) ∧
  -- PROGRAM, REVOKE (R197)
  (∀ (slot : BitVec 2) (s : State),
    s.fuses.programmed.getLsbD slot.toNat = false →
    Completes (.program .i3c slot 0xC5) s (fun t => t.fuses.programmed.getLsbD slot.toNat = true ∧
      SMap.get 0 t.fuses.hashes slot.toNat = BitVec.ofNat 384 (wordsNat ((List.range 12).map (fun i => s.reg (R.CFG_SKEY_HASH i)))) ∧
      (∀ m : BitVec 2, m ≠ slot → t.fuses.programmed.getLsbD m.toNat = s.fuses.programmed.getLsbD m.toNat ∧ SMap.get 0 t.fuses.hashes m.toNat = SMap.get 0 s.fuses.hashes m.toNat))) ∧
  (∀ (w : Writer) (slot : BitVec 2) (arm : BitVec 8) (s : State),
    (w ≠ .i3c ∨ arm ≠ 0xC5) →
    Completes (.program w slot arm) s (fun t => t = s)) ∧
  (∀ (slot : BitVec 2) (s : State),
    Completes (.revoke .i3c slot 0xC5) s (fun t => t.fuses.revoked.getLsbD slot.toNat = true ∧ t.fuses.programmed = s.fuses.programmed ∧ t.fuses.hashes = s.fuses.hashes)) ∧
  (∀ (w : Writer) (slot : BitVec 2) (arm : BitVec 8) (s : State),
    (w ≠ .i3c ∨ arm ≠ 0xC5) →
    Completes (.revoke w slot arm) s (fun t => t = s))

/-- Each command of the retouch port: a token at an endpoint begins a partial and carries two bytes; PARTIAL_CHECK passes a sound
partial on to WAITING exactly where its signature has no flaw; PARTIAL_TIMEOUT rejects with 14, HOLD_WAIT with 19, RTC_ABORT with
15; APPLY clamps the partition and then writes, releases and counts it; CLAMP_FORCE drops the tokens that still stand on outgoing
bundles. A readback of a region that is in no cycle captures at once; KIND 3 is refused, and KIND 2 after an encrypted load. Each
clause concludes that exec answers a next state, from conditions on the state and the operands alone, for: retouchEndpointToken,
partialCheck, partialTimeout, holdWait, rtcAbort, apply, clampForce, dirtyChecksPass, readback, readbackReady. APPLY given twice
is log entry 49, the clamp held at once on quiet bundles, the flush count and the token of a refused partial are log entry 117,
and the order of the checks is log entry 47; that the reserved KIND 3 is refused is the model's choice (log entry 175). -/
def Obligations.RetouchPort : Prop :=
  -- RETOUCH_ENDPOINT_TOKEN (R221): the first token of a partial
  (∀ (rg : Rg) (d : Drive) (v : BitVec 16) (s : State),
    s.retouchEndpoint rg = true ∧ (s.rgn rg).canvasRuns = true ∧ (s.rgn rg).rtcStatus = none →
    seenToken s rg (segAbove false 0 0 (boxOf rg 480)) = some (d, v) →
    s.load.kind = .none ∧ s.rtc.endpoint = none →
    (s.reg R.RTC_CTRL).getLsbD (sourceBit 4) = true ∧ s.load.armed = none →
    Completes (.retouchEndpointToken rg) s (fun t => t.rtc.endpoint = some rg ∧ t.rtcState = 1 ∧ t.f F.RTC_STATUS_SOURCE = 4 ∧ t.load.kind = .retouch ∧ t.load.half = some v)) ∧
  -- while endpoints are not enabled, or a ground write is armed (R222): refused with 21
  (∀ (rg : Rg) (d : Drive) (v : BitVec 16) (s : State),
    s.retouchEndpoint rg = true ∧ (s.rgn rg).canvasRuns = true ∧ (s.rgn rg).rtcStatus = none →
    seenToken s rg (segAbove false 0 0 (boxOf rg 480)) = some (d, v) →
    s.load.kind = .none ∧ s.rtc.endpoint = none →
    ((s.reg R.RTC_CTRL).getLsbD (sourceBit 4) = false ∨ s.load.armed.isSome = true) →
    Completes (.retouchEndpointToken rg) s (fun t => t.rtc = { s.rtc with through := t.rtc.through, leaving := t.rtc.leaving } ∧ t.rtcState = s.rtcState ∧ t.load = s.load ∧ t.f F.RTC_RESULT_CODE = 21 ∧ (t.rgn rg).rtcStatus = some 1)) ∧
  -- a later one
  (∀ (rg : Rg) (d : Drive) (v : BitVec 16) (s : State),
    s.retouchEndpoint rg = true ∧ (s.rgn rg).canvasRuns = true ∧ (s.rgn rg).rtcStatus = none →
    seenToken s rg (segAbove false 0 0 (boxOf rg 480)) = some (d, v) →
    s.rtc.endpoint = some rg ∧ s.rtcState = 1 ∧ s.load.half = none →
    Completes (.retouchEndpointToken rg) s (fun t => t.load = { s.load with half := some v } ∧ t.rtc = { s.rtc with through := t.rtc.through, leaving := t.rtc.leaving })) ∧
  -- PARTIAL_CHECK (R224): everything but the signature is sound
  (∀ (p : PartEntry) (u : State) (sig : Nat) (enc : Bool) (s : State),
    PartialAt s 2 p ∧ placeFlaw s p = none →
    writePartial p s = .ok (u, sig, enc) →
    headerField s 0x28 4 < 256 ∧ p.cells = [] ∧ s.jobOf p.rg = none →
    Completes (.partialCheck) s (fun t => (signatureFlaw s sig = none → t = noteVerified { s.setF F.RTC_STATUS_STATE 3 with rtc := { s.rtc with keys := s.keys } } sig) ∧
      (∀ k : Fin 16, signatureFlaw s sig = some k.val → t.f F.RTC_RESULT_CODE = k.val ∧ t.rtcState = 0 ∧ t.load.kind = .none))) ∧
  -- no such partition (R224, code 16)
  (∀ (s : State),
    s.load.kind = .retouch ∧ s.rtcState = 2 ∧ s.partOf = none →
    Completes (.partialCheck) s (fun t => t.f F.RTC_RESULT_CODE = 16 ∧ t.rtcState = 0 ∧ t.f F.RTC_COUNTS_REJECTED = min (s.f F.RTC_COUNTS_REJECTED + 1) F.RTC_COUNTS_REJECTED.max)) ∧
  -- PARTIAL_TIMEOUT (R242)
  (∀ (s : State),
    s.load.kind = .retouch ∧ s.rtcState = 1 ∧ s.f F.RTC_CTRL_TIMEOUT ≠ 0 →
    Completes (.partialTimeout) s (fun t => t.f F.RTC_RESULT_CODE = 14 ∧ t.rtcState = 0 ∧ t.load.kind = .none)) ∧
  -- HOLD_WAIT (R226)
  (∀ (p : PartEntry) (s : State),
    PartialAt s 3 p ∧ s.f F.RTC_CTRL_HOLD_WAIT ≠ 0 ∧ p.runs s = true →
    Completes (.holdWait) s (fun t => t.f F.RTC_RESULT_CODE = 19 ∧ t.f F.RTC_RESULT_QUAD = quadOf p.rg ∧ t.f F.RTC_RESULT_RGN = numOf p.rg ∧ t.rtcState = 0)) ∧
  -- RTC_ABORT (R242)
  (∀ (s : State),
    s.load.kind = .retouch ∧ 1 ≤ s.rtcState ∧ s.rtcState ≤ 3 →
    Completes (.rtcAbort) s (fun t => t.f F.RTC_RESULT_CODE = 15 ∧ t.rtcState = 0 ∧ t.load.kind = .none)) ∧
  -- APPLY, steps 1 and 2 (R228)
  (∀ (p : PartEntry) (s : State),
    PartialAt s 3 p ∧ p.runs s = false ∧ p.absent s = false →
    Completes (.apply) s (fun t => t.rtcState = 4 ∧ t.applying = some p.rg ∧ t.rtc.forced = quiet s p ∧
      t.f F.RTC_STATUS_CLAMPED = (if p.canvas then 1 else 0) ∧
      (∀ n : CellNo, p.covers n = true → ((t.rgn p.rg).cell n).clamped = true) ∧
      (∀ n : CellNo, t.cellCfg p.rg n = s.cellCfg p.rg n))) ∧
  -- APPLY, steps 3 to 6 (R228): an apply to design memory alone
  (∀ (p : PartEntry) (u : State) (sig : Nat) (enc : Bool) (s : State),
    PartialAt s 4 p →
    (quiet s p = true ∨ s.rtc.forced = true) →
    writePartial p { s with keys := s.rtc.keys } = .ok (u, sig, enc) →
    p.canvas = false ∧ s.jobOf p.rg = none ∧ (s.rgn p.rg).resetDue = false →
    Completes (.apply) s (fun t => t.rtcState = 0 ∧ t.f F.RTC_RESULT_CODE = 0 ∧ t.applying = none ∧ t.load.kind = .none ∧
      t.f F.RTC_COUNTS_APPLIED = min (s.f F.RTC_COUNTS_APPLIED + 1) F.RTC_COUNTS_APPLIED.max)) ∧
  -- CLAMP_FORCE (R229)
  (∀ (p : PartEntry) (s : State),
    s.partOf = some p ∧ s.rtcState = 4 ∧ s.f F.RTC_STATUS_CLAMPED = 1 ∧ s.rtc.forced = false →
    Completes (.clampForce) s (fun t => t.rtc.forced = true ∧ t.f F.RTC_FLUSH_TOKENS = min (s.f F.RTC_FLUSH_TOKENS + (outgoing s p).length + s.rtc.carried) F.RTC_FLUSH_TOKENS.max)) ∧
  -- DIRTY_CHECKS_PASS (R227)
  (∀ (rg : Rg) (s : State),
    s.dirty rg = true ∧ (s.rgn rg).fix.checking = true ∧ s.jobOf rg = none →
    scheduleFlaw (s.setDirty rg false) rg = none →
    Completes (.dirtyChecksPass rg) s (fun t => t.dirty rg = false ∧ (t.rgn rg).fix.checking = false ∧ (t.rgn rg).reg R.RGN_CHECK = 0)) ∧
  -- READBACK (R232, R234)
  (∀ (kind : BitVec 2) (rg : Rg) (s : State),
    (kind = 3 ∨ (kind = 2 ∧ (s.f F.CFG_STATUS_ENC = 1 ∨ s.f F.RTC_STATUS_ENC_SEEN = 1))) →
    Completes (.readback kind rg) s (fun t => t.f F.RTC_RB_STATUS_REFUSED = 1 ∧ t.rtc = s.rtc ∧ t.sram = s.sram)) ∧
  -- of a region that is in no cycle: captured at once
  (∀ (kind : BitVec 2) (rg : Rg) (s : State),
    kind.toNat ≤ 1 →
    s.rtc.rb = none ∧ s.rtc.rbQueue = [] ∧ s.applying ≠ some rg ∧ (s.rgn rg).inCycle = false →
    Completes (.readback kind rg) s (fun t => t.rtc.rb = some (kind, rg) ∧ t.f F.RTC_RB_STATUS_BUSY = 1 ∧ t.f F.RTC_RB_STATUS_WAITING_FIX = 0 ∧
      t.get48 R.RTC_RB_CYCLE_LO R.RTC_RB_CYCLE_HI = (s.rgn rg).cycle ∧ t.rgns = s.rgns)) ∧
  -- of a region in a cycle: it waits for the fix
  (∀ (kind : BitVec 2) (rg : Rg) (s : State),
    kind.toNat ≤ 1 →
    s.rtc.rb = none ∧ s.rtc.rbQueue = [] ∧ s.applying ≠ some rg ∧ (s.rgn rg).inCycle = true →
    Completes (.readback kind rg) s (fun t => t.rtc.rb = some (kind, rg) ∧ t.f F.RTC_RB_STATUS_BUSY = 1 ∧ t.f F.RTC_RB_STATUS_WAITING_FIX = 1 ∧ t.sram = s.sram)) ∧
  -- while another is in progress: it waits behind it
  (∀ (kind : BitVec 2) (rg : Rg) (x : BitVec 2 × Rg) (s : State),
    kind.toNat ≤ 1 →
    s.rtc.rb = some x →
    Completes (.readback kind rg) s (fun t => t.rtc.rb = some x ∧ t.rtc.rbQueue = s.rtc.rbQueue ++ [(kind, rg)] ∧ t.sram = s.sram)) ∧
  -- READBACK_READY (R232)
  (∀ (x : BitVec 2 × Rg) (s : State),
    s.rtc.rb = some x ∧ s.f F.RTC_RB_STATUS_WAITING_FIX = 0 ∧ s.rtc.rbQueue = [] →
    Completes (.readbackReady) s (fun t => t.f F.RTC_RB_STATUS_READY = 1 ∧ t.f F.RTC_RB_STATUS_BUSY = 0 ∧ t.rtc.rb = none ∧ t.sram = s.sram))

/-- A write of a register by the helm with the bus free is performed at once: a register without a rule of its own takes its RW
bits and clears the W1C bits written as 1. An access to a stopped domain stays at the front; BUS_WATCHDOG ends it, stores its
address and counts it, and HELM_BUS_ACCESS performs it where its domain answers again. Each clause concludes that exec answers a
next state, from conditions on the state and the operands alone, for: registerWrite, helmBusAccess, busWatchdog. That an access
whose target answers is performed within its command is log entry 13; that a write to an address which is not a multiple of 4, by
a writer other than I3C, is no access at all is the model's choice (log entry 155). -/
def Obligations.HelmBus : Prop :=
  -- REGISTER_WRITE (R5): a plain hub register, by the helm
  (∀ (a v : Word) (s : State),
    s.bus = [] ∧ a.toNat ∈ [R.SEM_CTRL, R.PWR_TOL, R.FLT_ISB] →
    Completes (.registerWrite a v .helm) s (fun t => (∀ row, hubRow a.toNat = some row → t.reg a.toNat = row.written (s.reg a.toNat) v) ∧
      (t.rgns = s.rgns ∧ ∀ b, b ≠ a.toNat → t.reg b = s.reg b))) ∧
  -- an address that is not a multiple of 4: no access
  (∀ (a v : Word) (w : Writer) (s : State),
    a.toNat % 4 ≠ 0 ∧ w ≠ .i3c →
    Completes (.registerWrite a v w) s (fun t => t = s)) ∧
  -- over I3C the transfer is malformed (R385)
  (∀ (a v : Word) (s : State),
    a.toNat % 4 ≠ 0 ∧ s.i3cBusy = false →
    Completes (.registerWrite a v .i3c) s (fun t => t.f F.HIF_ACC_STAT_RESULT = 3 ∧ t.f F.HIF_ACC_STAT_INDEX = 0 ∧ t.f F.HIF_ERR_PROTO = min (s.f F.HIF_ERR_PROTO + 1) F.HIF_ERR_PROTO.max ∧
      t.i3c = { s.i3c with protoErr := true } ∧ OnlyRegs [R.HIF_ACC_STAT, F.HIF_ERR_PROTO.off] s { t with i3c := s.i3c })) ∧
  -- an access into a stopped domain hangs (R368)
  (∀ (b : BusAccess) (rg : Rg) (a : Nat) (s : State),
    s.bus = [b] ∧ b.space = false ∧ b.addr.toNat % 4 = 0 →
    placeOf b.addr.toNat = .window rg a ∧ s.busReaches rg = false →
    Completes (.helmBusAccess) s (fun t => t = s)) ∧
  -- one whose domain answers is performed (R387)
  (∀ (b : BusAccess) (d : BusDone) (s : State),
    s.bus = [b] ∧ b.who = .helm ∧ busTry { s with bus := [] } b = some d →
    Completes (.helmBusAccess) s (fun t => t = { d.st with bus := [] })) ∧
  -- BUS_WATCHDOG (R368)
  (∀ (b : BusAccess) (s : State),
    s.bus = [b] ∧ b.who = .helm →
    Completes (.busWatchdog) s (fun t => t.bus = [] ∧ t.f F.SEM_BUSWD_TIMEOUT = 1 ∧ t.reg R.SEM_BUSWD_ADDR = b.addr.truncate 32 ∧
      t.f F.SEM_BUSWD_CNT_COUNT = min (s.f F.SEM_BUSWD_CNT_COUNT + 1) F.SEM_BUSWD_CNT_COUNT.max ∧ t.rgns = s.rgns))

/-- A request at its target, with the epoch the target holds and room for the answer. At the hub SRAM, READ answers the words and
WRITE stores them, WRITE_POSTED stores and answers nothing, and ATOMIC stores the result of its operation and answers the old
word. MESSAGE puts its item at the end of the mailbox of an easel core. FRAME_WRITE within the window is staged. A request with
another epoch is answered with cause 4. TICK answers the tick count. Each clause concludes that exec answers a next state, from
conditions on the state and the operands alone, for: read, write, writePosted, atomic, message, frameWrite, tick, respData,
respAck, respError. That the bytes of FRAME_WRITE go to the hub SRAM at the bitstream's own offset is log entry 60; that stray
frames before a header stay is log entry 46. -/
def Obligations.RequestsAtTargets : Prop :=
  -- READ of the hub SRAM (R17, R251)
  (∀ (p : Packet) (ecc : Ecc) (s : State),
    AtTarget s p ∧ p.cmd = 1 ∧ nodeUnit p.dest = 0x39 →
    memoryShape p sramSize = true →
    Completes (.read p ecc) s (fun t => Answered s t p 0x10 0 (flitsOf (sramReads s (2 * p.len.toNat) p.addr.toNat)) ∧
      t.sram = s.sram)) ∧
  -- WRITE
  (∀ (p : Packet) (ecc : Ecc) (s : State),
    AtTarget s p ∧ p.cmd = 2 ∧ nodeUnit p.dest = 0x39 →
    memoryShape p sramSize = true ∧ whole p = true ∧ p.poison = 0 →
    Completes (.write p ecc) s (fun t => Answered s t p 0x11 0 [] ∧
      (∀ i < 2 * p.len.toNat, Mem.read t.sram (p.addr.toNat + 8 * i) 8 = ((wordsOf p.data).getD i 0).toNat) ∧
      (∀ a, a < p.addr.toNat ∨ p.addr.toNat + 16 * p.len.toNat ≤ a → byteAt t.sram a = byteAt s.sram a))) ∧
  -- WRITE_POSTED (R500)
  (∀ (p : Packet) (ecc : Ecc) (s : State),
    AtTarget s p ∧ p.cmd = 3 ∧ nodeUnit p.dest = 0x39 →
    memoryShape p sramSize = true ∧ whole p = true ∧ p.poison = 0 →
    Completes (.writePosted p ecc) s (fun t => t.arrived = s.arrived.erase p ∧ t.net = s.net ∧
      (∀ i < 2 * p.len.toNat, Mem.read t.sram (p.addr.toNat + 8 * i) 8 = ((wordsOf p.data).getD i 0).toNat) ∧
      (∀ a, a < p.addr.toNat ∨ p.addr.toNat + 16 * p.len.toNat ≤ a → byteAt t.sram a = byteAt s.sram a))) ∧
  -- ATOMIC
  (∀ (p : Packet) (ecc : Ecc) (old v cmp : Nat) (s : State),
    AtTarget s p ∧ p.cmd = 4 ∧ nodeUnit p.dest = 0x39 →
    atomicShape p sramSize = true ∧ p.poison = 0 ∧ ecc ≠ .uncorrectable →
    old = Mem.read s.sram p.addr.toNat 8 ∧ v = (operand p).toNat ∧ cmp = (bitsAt (p.data.getD 1 0) 0 64 : BitVec 64).toNat →
    Completes (.atomic p ecc) s (fun t => Answered s t p 0x10 0 [BitVec.ofNat 128 old] ∧
      (atomicOp p = 0 → Mem.read t.sram p.addr.toNat 8 = v) ∧
      (atomicOp p = 1 → Mem.read t.sram p.addr.toNat 8 = (old + v) % 2 ^ 64) ∧
      (atomicOp p = 2 → Mem.read t.sram p.addr.toNat 8 = old &&& v) ∧
      (atomicOp p = 3 → Mem.read t.sram p.addr.toNat 8 = old ||| v) ∧
      (atomicOp p = 4 → Mem.read t.sram p.addr.toNat 8 = if old = cmp then v else old))) ∧
  -- of an uncorrectable word (R251): POISONED
  (∀ (p : Packet) (s : State),
    AtTarget s p ∧ p.cmd = 4 ∧ nodeUnit p.dest = 0x39 →
    atomicShape p sramSize = true →
    Completes (.atomic p .uncorrectable) s (fun t => Answered s t p 0x12 6 [] ∧ t.sram = s.sram)) ∧
  -- MESSAGE (R354)
  (∀ (p : Packet) (k : CoreNo) (bad : BitVec 64) (s : State),
    AtTarget s p ∧ p.cmd = 5 ∧ nodeUnit p.dest = 0x10 + k.val ∧ p.addr.toNat = 0x30000 →
    whole p = true ∧ p.poison = 0 ∧ 1 ≤ p.len.toNat ∧ p.len.toNat ≤ 16 →
    s.applying = none ∧ (s.eas (nodeRgn p.dest) k).mbin.length + 4 * p.len.toNat ≤ 64 →
    Completes (.message p ⟨false, bad⟩) s (fun t => Answered s t p 0x11 0 [] ∧
      (t.eas (nodeRgn p.dest) k).mbin = (s.eas (nodeRgn p.dest) k).mbin ++ itemOf p.data bad)) ∧
  -- FRAME_WRITE (R201), in front of a header
  (∀ (p : Packet) (s : State),
    AtTarget s p ∧ p.cmd = 6 ∧ nodeUnit p.dest = 0x3A →
    whole p = true ∧ p.poison = 0 ∧ 1 ≤ p.len.toNat ∧ p.len.toNat ≤ 32 →
    p.addr.toNat % 16 = 0 ∧ p.addr.toNat ≠ 0 ∧ p.addr.toNat + 16 * p.len.toNat ≤ windowBytes →
    s.load.kind = .none ∧ s.load.path ≠ 3 ∧ stagedByte s.load.stage 0 = none →
    Completes (.frameWrite p) s (fun t => Answered s t p 0x11 0 [] ∧
      (∀ i < p.len.toNat, ∀ j : Fin 4, SMap.get none t.load.stage (p.addr.toNat / 4 + 4 * i + j.val) = some (bitsAt (p.data.getD i 0) (32 * j.val) 32)) ∧
      (∀ i < p.len.toNat, Mem.read t.sram (p.addr.toNat + 16 * i) 16 = (p.data.getD i 0).toNat))) ∧
  -- another epoch (R21)
  (∀ (p : Packet) (ecc : Ecc) (s : State),
    p ∈ s.arrived ∧ p.isResp = false ∧ p.cmd = 1 ∧ badUnit p = false ∧ p.epoch ≠ s.epochAt p.dest →
    (nodeUnit p.dest < 0x17 → (s.rgn (nodeRgn p.dest)).absorbing = false) →
    s.waiting (netKey (elemNo (targetElement p)) (ownInput (targetElement p)) 2) < 8 →
    Completes (.read p ecc) s (fun t => Answered s t p 0x12 4 [])) ∧
  -- TICK (R305)
  (∀ (p : Packet) (since : Word) (s : State),
    AtTarget s p ∧ p.cmd = 0x20 ∧ nodeUnit p.dest = 0x38 ∧ p.len = 0 →
    s.merState ≠ 4 ∧ s.merState ≠ 5 →
    Completes (.tick p since) s (fun t => Answered s t p 0x10 0 [BitVec.ofNat 128 (s.mer.tick.toNat + 2 ^ 64 * since.toNat)])) ∧
  -- RESP_DATA, RESP_ACK, RESP_ERROR at a requester that is no easel core (R254)
  (∀ (p : Packet) (s : State),
    EndsRequest s p ∧ p.cmd = 0x10 ∧ coreOf p.dest = none →
    Completes (.respData p) s (fun t => t = { s with arrived := s.arrived.erase p, tags := SMap.set false s.tags (tagKey p.dest (p.tag.toNat % 128)) false })) ∧
  (∀ (p : Packet) (s : State),
    EndsRequest s p ∧ p.cmd = 0x11 ∧ coreOf p.dest = none →
    Completes (.respAck p) s (fun t => t = { s with arrived := s.arrived.erase p, tags := SMap.set false s.tags (tagKey p.dest (p.tag.toNat % 128)) false })) ∧
  (∀ (p : Packet) (s : State),
    EndsRequest s p ∧ p.cmd = 0x12 ∧ coreOf p.dest = none →
    Completes (.respError p) s (fun t => t = { s with arrived := s.arrived.erase p, tags := SMap.set false s.tags (tagKey p.dest (p.tag.toNat % 128)) false })) ∧
  -- at a packet engine (R353)
  (∀ (p : Packet) (k : CoreNo) (q : EnginePkt) (s : State),
    EndsRequest s p ∧ p.cmd = 0x11 ∧ coreOf p.dest = some k →
    SMap.get none (s.eas (nodeRgn p.dest) k).pkts (p.tag.toNat % 128) = some q →
    Completes (.respAck p) s (fun t => SMap.get none (t.eas (nodeRgn p.dest) k).pkts (p.tag.toNat % 128) = none ∧
      SMap.get false t.tags (tagKey p.dest (p.tag.toNat % 128)) = false ∧ t.arrived = s.arrived.erase p)) ∧
  -- a late response (R254)
  (∀ (p : Packet) (s : State),
    p ∈ s.arrived ∧ p.cmd = 0x11 ∧ nodeUnit p.dest < 0x17 →
    SMap.get false s.tags (tagKey p.dest (p.tag.toNat % 128)) = false →
    Completes (.respAck p) s (fun t => t.rf (nodeRgn p.dest) F.NOC_DROP_LATE_RESP = min (s.rf (nodeRgn p.dest) F.NOC_DROP_LATE_RESP + 1) F.NOC_DROP_LATE_RESP.max ∧
      t.tags = s.tags ∧ t.arrived = s.arrived.erase p))

/-- A request with a free tag and room is injected and holds its tag. A region router delivers a packet for its region, and passes
another to the neighbour in the direction that R256 gives, on the stage that the dateline gives; a quadrant switch passes a packet
for its quadrant to the router of its region, the hub switch one for a hub unit to its target. The limits withdraw a request, free
a tag and discard a packet that does not move, each with its count. Each clause concludes that exec answers a next state, from
conditions on the state and the operands alone, for: requestInject, injectionTimeout, responseTimeout, noProgress,
headerFlitRoute, switchRoute, ovrSwap, swapDrained, drainLimit, ovrCopy. That a packet moves whole with its header between queues
and targets is log entry 123. -/
def Obligations.PacketPlane : Prop :=
  -- REQUEST_INJECT (R254, R260) of a requester that is no easel core
  (∀ (p : Packet) (waitNs : Word) (s : State),
    nodeCoord p.src = s.f F.FAB_ID_COORD ∧ coreOf p.src = none ∧ p.unanswered = false →
    s.hasRoom (elemNo (injectAt p.src).1) (injectAt p.src).2 { p with vc := 0 } = true →
    SMap.get false s.tags (tagKey p.src p.tag.toNat) = false →
    Completes (.requestInject p waitNs) s (fun t => t.queue (netKey (elemNo (injectAt p.src).1) (injectAt p.src).2 0) = s.queue (netKey (elemNo (injectAt p.src).1) (injectAt p.src).2 0) ++ [{ p with vc := 0 }] ∧
      SMap.get false t.tags (tagKey p.src p.tag.toNat) = true)) ∧
  -- its tag is outstanding
  (∀ (p : Packet) (waitNs : Word) (s : State),
    p.unanswered = false ∧ SMap.get false s.tags (tagKey p.src p.tag.toNat) = true →
    Completes (.requestInject p waitNs) s (fun t => t = s)) ∧
  -- INJECTION_TIMEOUT (R260)
  (∀ (p : Packet) (rg : Rg) (s : State),
    nodeRgn p.src = rg ∧ s.rf rg F.NOC_CTRL_INJ_TIMEOUT ≠ 0 ∧ coreOf p.src = none ∧ p.cmd ≠ 3 →
    Completes (.injectionTimeout p (.region rg)) s (fun t => t.rf rg F.NOC_REFUSE_INJ_BUSY = min (s.rf rg F.NOC_REFUSE_INJ_BUSY + 1) F.NOC_REFUSE_INJ_BUSY.max ∧
      OnlyRegion rg s t ∧ SameStores (s.rgn rg) (t.rgn rg))) ∧
  -- of a hub requester that waits for room or for its tag
  (∀ (p : Packet) (s : State),
    nodeCoord p.src = s.f F.FAB_ID_COORD ∧ 0x17 ≤ nodeUnit p.src ∧ p.isResp = false ∧ p.cmd ≠ 3 →
    (s.hasRoom 68 10 p = false ∨ (p.unanswered = false ∧ SMap.get false s.tags (tagKey p.src p.tag.toNat) = true)) →
    Completes (.injectionTimeout p .hub) s (fun t => t = s.bump F.HUB_NOC_INJ_INJ_BUSY 1)) ∧
  -- of one that stands at an Oxdon ingress whose 32 places for responses are in use (R293): it is refused when one is free
  (∀ (p : Packet) (port : PortNo) (rest : List Packet) (s : State),
    s.queue (netKey 68 (4 + port.val) p.vc.toNat) = p :: rest →
    p.isResp = false ∧ p.posted = false ∧ s.f (F.LNK_CFG_INJ_TIMEOUT port.val) ≠ 0 →
    noPlace s port.val = true ∧ refusalDue s .hub (4 + port.val) p = false →
    Completes (.injectionTimeout p (.oxdon port)) s (fun t => (t.port port.val).due = (s.port port.val).due ++ [(p, 1)] ∧ t.net = s.net)) ∧
  -- RESPONSE_TIMEOUT (R260)
  (∀ (node : BitVec 12) (tag : BitVec 7) (s : State),
    SMap.get false s.tags (tagKey (node.zeroExtend 24) tag.toNat) = true →
    0x17 ≤ nodeUnit (node.zeroExtend 24) →
    Completes (.responseTimeout node tag) s (fun t => SMap.get false t.tags (tagKey (node.zeroExtend 24) tag.toNat) = false ∧
      t.f F.HUB_NOC_INJ_TIMEOUTS = min (s.f F.HUB_NOC_INJ_TIMEOUTS + 1) F.HUB_NOC_INJ_TIMEOUTS.max)) ∧
  -- NO_PROGRESS (R264): of the blocked headers of the router the one that arrived first
  (∀ (rg : Rg) (inp : BitVec 5) (vc : BitVec 2) (k : Nat) (p : Packet) (rest : List Packet) (s : State),
    s.rf rg F.NOC_STATUS_DRAINING = 0 ∧ blockedAt s (.router rg) (netKey rg.toNat inp.toNat vc.toNat) = true →
    firstBlocked s (.router rg) = some k ∧ s.queue k = p :: rest →
    Completes (.noProgress (.router rg) inp vc) s (fun t => t.queue k = rest ∧
      t.rf rg F.NOC_NPD_DROPS = min (s.rf rg F.NOC_NPD_DROPS + 1) F.NOC_NPD_DROPS.max ∧
      t.arrived = s.arrived)) ∧
  -- HEADER_FLIT_ROUTE (R256): a packet for this region
  (∀ (rg : Rg) (inp : BitVec 3) (vc : BitVec 2) (p : Packet) (rest : List Packet) (s : State),
    s.queue (netKey rg.toNat inp.toNat vc.toNat) = p :: rest ∧ s.behind (netKey rg.toNat inp.toNat vc.toNat) = 0 →
    s.rf rg F.NOC_STATUS_DRAINING = 0 ∧ s.rf rg F.NOC_STATUS_REFUSING = 0 ∧ (s.rgn rg).absorbing = false ∧ s.rf rg F.NOC_ISO_OUT = 0 ∧ s.dbg.testing = none →
    (∀ i : Fin 16, overrideHit (s.rgn rg) p.dest i.val = false) →
    routeOut s rg p.dest = 4 ∧ s.targetRoom (.router rg) p = true →
    Completes (.headerFlitRoute rg inp vc 0 [] .clean) s (fun t => t.queue (netKey rg.toNat inp.toNat vc.toNat) = rest ∧ t.arrived = s.arrived ++ [p] ∧
      t.rgns = s.rgns ∧ t.regs = s.regs)) ∧
  -- one for another region of the quadrant (R255, R256)
  (∀ (rg : Rg) (inp : BitVec 3) (vc : BitVec 2) (o : Fin 4) (b : Bool) (p : Packet) (rest : List Packet) (s : State),
    s.queue (netKey rg.toNat inp.toNat vc.toNat) = p :: rest ∧ s.behind (netKey rg.toNat inp.toNat vc.toNat) = 0 →
    s.rf rg F.NOC_STATUS_DRAINING = 0 ∧ s.rf rg F.NOC_ISO_OUT = 0 →
    (∀ i : Fin 16, overrideHit (s.rgn rg) p.dest i.val = false) →
    routeOut s rg p.dest = o.val →
    b = ((decide (inp.toNat < 4 ∧ inp.toNat / 2 = o.val / 2) && p.vc.getLsbD 0) || (torusNext rg o.val).2) →
    s.hasRoom (torusNext rg o.val).1.toNat (oppositeIn o.val) (p.stage b) = true →
    Completes (.headerFlitRoute rg inp vc 0 [] .clean) s (fun t => t.queue (netKey rg.toNat inp.toNat vc.toNat) = rest ∧
      t.queue (netKey (torusNext rg o.val).1.toNat (oppositeIn o.val) (p.stage b).vc.toNat) = s.queue (netKey (torusNext rg o.val).1.toNat (oppositeIn o.val) (p.stage b).vc.toNat) ++ [p.stage b])) ∧
  -- no header passes flits of an earlier packet that wait for credits (R255)
  (∀ (rg : Rg) (inp : BitVec 3) (vc : BitVec 2) (upset : BitVec 139) (data : List (BitVec 5 × BitVec 139)) (tb : Ecc) (s : State),
    s.behind (netKey rg.toNat inp.toNat vc.toNat) ≠ 0 →
    Completes (.headerFlitRoute rg inp vc upset data tb) s (fun t => t = s)) ∧
  -- SWITCH_ROUTE (R257): a quadrant switch, a packet for a region of the quadrant
  (∀ (q : Quad) (inp : BitVec 5) (vc : BitVec 2) (p : Packet) (rest : List Packet) (s : State),
    s.queue (netKey (64 + q.toNat) inp.toNat vc.toNat) = p :: rest ∧ s.behind (netKey (64 + q.toNat) inp.toNat vc.toNat) = 0 →
    s.refusing.getLsbD q.toNat = false ∧ nodeCoord p.dest = s.f F.FAB_ID_COORD ∧ nodeUnit p.dest < 0x38 →
    quadOf (nodeRgn p.dest) = q.toNat ∧ quadStopped s q.toNat = none →
    s.hasRoom (nodeRgn p.dest).toNat 5 p = true →
    Completes (.switchRoute (.quad q) inp vc 0 []) s (fun t => t.queue (netKey (64 + q.toNat) inp.toNat vc.toNat) = rest ∧
      t.queue (netKey (nodeRgn p.dest).toNat 5 p.vc.toNat) = s.queue (netKey (nodeRgn p.dest).toNat 5 p.vc.toNat) ++ [p])) ∧
  -- the hub switch, a packet for a hub unit
  (∀ (inp : BitVec 5) (vc : BitVec 2) (p : Packet) (rest : List Packet) (s : State),
    s.queue (netKey 68 inp.toNat vc.toNat) = p :: rest ∧ s.behind (netKey 68 inp.toNat vc.toNat) = 0 →
    nodeCoord p.dest = s.f F.FAB_ID_COORD ∧ 0x38 ≤ nodeUnit p.dest ∧ nodeUnit p.dest ≤ 0x3B →
    refusalDue s .hub inp.toNat p = false ∧ s.targetRoom .hub p = true ∧ s.dbg.testing = none →
    Completes (.switchRoute .hub inp vc 0 []) s (fun t => t.queue (netKey 68 inp.toNat vc.toNat) = rest ∧ t.arrived = s.arrived ++ [p])) ∧
  -- OVR_SWAP and how it ends (R259)
  (∀ (rg : Rg) (s : State),
    Completes (.ovrSwap rg) s (fun t => t.rf rg F.NOC_STATUS_DRAINING = 1 ∧ t.rf rg F.NOC_OVR_STAT_BUSY = 1 ∧ OnlyRgnRegs rg [R.NOC_STATUS, R.NOC_OVR_STAT] s t)) ∧
  (∀ (rg : Rg) (s : State),
    s.rf rg F.NOC_STATUS_DRAINING = 1 →
    Completes (.swapDrained rg) s (fun t => t.rf rg F.NOC_STATUS_DRAINING = 0 ∧ t.rf rg F.NOC_OVR_STAT_BUSY = 0 ∧
      (∀ w : Fin 32, (t.rgn rg).reg (R.NOC_OVR w.val) = (s.rgn rg).reg (R.NOC_OVR_SHADOW w.val) ∧ (t.rgn rg).reg (R.NOC_OVR_SHADOW w.val) = (s.rgn rg).reg (R.NOC_OVR w.val)))) ∧
  (∀ (rg : Rg) (s : State),
    s.rf rg F.NOC_STATUS_DRAINING = 1 →
    Completes (.drainLimit rg) s (fun t => t.rf rg F.NOC_STATUS_DRAINING = 0 ∧ t.rf rg F.NOC_OVR_STAT_DRAIN_FAIL = 1 ∧
      (∀ w : Fin 32, (t.rgn rg).reg (R.NOC_OVR w.val) = (s.rgn rg).reg (R.NOC_OVR w.val)))) ∧
  (∀ (rg : Rg) (s : State),
    Completes (.ovrCopy rg) s (fun t => (∀ w : Fin 32, (t.rgn rg).reg (R.NOC_OVR_SHADOW w.val) = (s.rgn rg).reg (R.NOC_OVR w.val) ∧ (t.rgn rg).reg (R.NOC_OVR w.val) = (s.rgn rg).reg (R.NOC_OVR w.val))))

/-- A wire of a link that is UP whose corrections of the last ms have reached SPARE_N is replaced, which is counted and pauses the
link; the seventeenth takes it DOWN. RESUME returns a paused link to UP. A retrain leads to TRAINING, a success to UP, the third
failure in a row to DOWN. Each clause concludes that exec answers a next state, from conditions on the state and the operands
alone, for: d2dSparing, d2dResume, d2dRetrain, d2dTrained. -/
def Obligations.DieToDieLinks : Prop :=
  -- D2D_SPARING (R246)
  (∀ (q : Quad) (l : LinkNo) (wire : BitVec 9) (s : State),
    s.d2d q.toNat l.val = 2 ∧ s.rf (quadHome q.toNat) (F.NOC_D2D_STATUS_RX_SPARES l.val) < 16 →
    s.spareN (3 * q.toNat + l.val) ≤ s.wireCount (3 * q.toNat + l.val) wire.toNat →
    Completes (.d2dSparing q l wire true) s (fun t => t.d2d q.toNat l.val = 3 ∧ t.rf (quadHome q.toNat) (F.NOC_D2D_LAST_WIRE l.val) = wire.toNat ∧ t.rf (quadHome q.toNat) (F.NOC_D2D_LAST_DIR l.val) = 1 ∧
      t.rf (quadHome q.toNat) (F.NOC_D2D_STATUS_RX_SPARES l.val) = s.rf (quadHome q.toNat) (F.NOC_D2D_STATUS_RX_SPARES l.val) + 1)) ∧
  (∀ (q : Quad) (l : LinkNo) (wire : BitVec 9) (s : State),
    s.d2d q.toNat l.val = 2 ∧ s.rf (quadHome q.toNat) (F.NOC_D2D_STATUS_RX_SPARES l.val) = 16 →
    s.spareN (3 * q.toNat + l.val) ≤ s.wireCount (3 * q.toNat + l.val) wire.toNat →
    Completes (.d2dSparing q l wire true) s (fun t => t.d2d q.toNat l.val = 0 ∧ t.rf (quadHome q.toNat) (F.NOC_D2D_STATUS_DOWN_EVT l.val) = 1)) ∧
  -- D2D_RESUME (R246)
  (∀ (q : Quad) (l : LinkNo) (s : State),
    s.d2d q.toNat l.val = 3 →
    Completes (.d2dResume q l) s (fun t => t.d2d q.toNat l.val = 2)) ∧
  -- D2D_RETRAIN and D2D_TRAINED (R247)
  (∀ (q : Quad) (l : LinkNo) (s : State),
    Completes (.d2dRetrain q l) s (fun t => t.d2d q.toNat l.val = 1)) ∧
  (∀ (q : Quad) (l : LinkNo) (s : State),
    s.d2d q.toNat l.val = 1 →
    Completes (.d2dTrained q l true) s (fun t => t.d2d q.toNat l.val = 2)) ∧
  (∀ (q : Quad) (l : LinkNo) (s : State),
    s.d2d q.toNat l.val = 1 ∧ s.d2dFailed q.toNat l.val = 2 →
    Completes (.d2dTrained q l false) s (fun t => t.d2d q.toNat l.val = 0 ∧ t.rf (quadHome q.toNat) (F.NOC_D2D_STATUS_DOWN_EVT l.val) = 1))

/-- DETECT_END leads to TRAIN, TRAIN_END with four good lanes both ways to LOCK, LOCK_END to CALIB with the widths and the lanes
fixed, CALIB_END to UP after 256 CTRL frames each way. A failure returns to DETECT, the third in a row takes the port DOWN.
RETRAIN and a peer that begins training lead to DETECT; EN at 0 takes the port DOWN. Each clause concludes that exec answers a
next state, from conditions on the state and the operands alone, for: detectEnd, trainEnd, lockEnd, calibEnd, trainingTimeout,
lnkRetrain, peerBeginsTraining, lnkEn. That EN = 1 alone does not train is log entry 64; the order of the logical lanes is log
entry 68; the codeword count that begins at TRAIN_END and the tie of majorityPeer are the model's choices (log entry 119); the
precoding of the training words is log entry 154. -/
def Obligations.LinkTraining : Prop :=
  (∀ (p : PortNo) (s : State),
    s.link p.val = 1 →
    Completes (.detectEnd p) s (fun t => t.link p.val = 2)) ∧
  (∀ (p : PortNo) (words : List (Option LaneWord)) (okTx : BitVec 9) (s : State),
    s.link p.val = 2 ∧ 4 ≤ okCount words ∧ 4 ≤ (bitsOf 9 okTx.toNat).length →
    Completes (.trainEnd p words okTx) s (fun t => t.link p.val = 3 ∧ (t.port p.val).cw = 0 ∧
      t.f (F.LNK_STATUS_PRECODE p.val) = (s.bit (F.LNK_CTRL_PRECODE_ALLOW p.val) && ((List.range 9).filterMap (okWord words)).all (fun w => w.precode)).toNat)) ∧
  (∀ (p : PortNo) (words : List (Option LaneWord)) (okTx : BitVec 9) (precode : Bool) (s : State),
    s.link p.val = 3 ∧ 4 ≤ okCount words ∧ 4 ≤ (bitsOf 9 okTx.toNat).length →
    Completes (.lockEnd p words okTx precode) s (fun t => t.link p.val = 4 ∧ (t.port p.val).peer = majorityPeer words ∧
      t.f (F.LNK_STATUS_PRECODE p.val) = (precode && s.bit (F.LNK_CTRL_PRECODE_ALLOW p.val)).toNat ∧
      t.f (F.LNK_STATUS_RX_NARROW p.val) = (if okCount words < 8 then 1 else 0) ∧
      t.f (F.LNK_STATUS_TX_NARROW p.val) = (if (bitsOf 9 okTx.toNat).length < 8 then 1 else 0) ∧
      (∀ l : Fin 9, t.f (F.LNK_LANE_OK p.val l.val) = (okWord words l.val).isSome.toNat) ∧
      (∀ l : Fin 9, ∀ w, okWord words l.val = some w → t.f (F.LNK_LANE_INVERTED p.val l.val) = w.inverted.toNat ∧ t.f (F.LNK_LANE_ROLE p.val l.val) = laneRole (okLanes words) w.lane.toNat))) ∧
  -- without resumption the sequence state is cleared (R289)
  (∀ (p : PortNo) (r : Bool) (e : BitVec 12) (d : BitVec 24) (s : State),
    s.link p.val = 4 ∧ 256 ≤ (s.port p.val).ctrlOut.toNat ∧ 256 ≤ (s.port p.val).ctrlIn.toNat →
    (s.port p.val).peerSeq = some (r, e) ∧ ((s.port p.val).keep && r) = false ∧ s.f (F.LNK_DELAY_ONEWAY p.val) = d.toNat →
    Completes (.calibEnd p r e d) s (fun t => t.link p.val = 5 ∧ (t.port p.val).exp = 0 ∧ (t.port p.val).seq = 0 ∧ (t.port p.val).replay = [])) ∧
  -- with it, it goes on from the peer's EXP
  (∀ (p : PortNo) (e : BitVec 12) (d : BitVec 24) (s : State),
    s.link p.val = 4 ∧ 256 ≤ (s.port p.val).ctrlOut.toNat ∧ 256 ≤ (s.port p.val).ctrlIn.toNat →
    (s.port p.val).peerSeq = some (true, e) ∧ (s.port p.val).keep = true ∧ s.f (F.LNK_DELAY_ONEWAY p.val) = d.toNat →
    Completes (.calibEnd p true e d) s (fun t => t.link p.val = 5 ∧ (t.port p.val).exp = (s.port p.val).exp ∧ (t.port p.val).seq = (s.port p.val).seq ∧ (t.port p.val).readAt = 0 ∧
      (t.port p.val).replay = (s.port p.val).replay.dropWhile (fun f => decide (frameSeq f ≠ e)) ∧
      t.f (F.LNK_REPLAY_REPLAYS p.val) = min (s.f (F.LNK_REPLAY_REPLAYS p.val) + 1) (F.LNK_REPLAY_REPLAYS p.val).max)) ∧
  -- TRAINING_TIMEOUT
  (∀ (p : PortNo) (s : State),
    ((s.link p.val = 2 ∨ s.link p.val = 3) ∧ (s.port p.val).fails.toNat < 2) →
    Completes (.trainingTimeout p) s (fun t => t.link p.val = 1 ∧ (t.port p.val).fails = (s.port p.val).fails + 1)) ∧
  (∀ (p : PortNo) (s : State),
    ((s.link p.val = 2 ∨ s.link p.val = 3) ∧ (s.port p.val).fails = 2) →
    Completes (.trainingTimeout p) s (fun t => t.link p.val = 0 ∧ t.f (F.LNK_STATUS_DOWN_EVT p.val) = 1)) ∧
  -- RETRAIN
  (∀ (p : PortNo) (s : State),
    s.f (F.LNK_CTRL_EN p.val) = 1 ∧ s.link p.val ≠ 7 →
    Completes (.lnkRetrain p) s (fun t => (t.f (F.LNK_STATUS_PRECODE p.val) = 0 ∧ ∀ l : Fin 9, t.f (F.LNK_LANE_OK p.val l.val) = 0) ∧
      t.link p.val = 1 ∧ t.f (F.LNK_LANE_EVENTS_TRAINS p.val) = min (s.f (F.LNK_LANE_EVENTS_TRAINS p.val) + 1) (F.LNK_LANE_EVENTS_TRAINS p.val).max)) ∧
  -- a peer begins training
  (∀ (p : PortNo) (s : State),
    (s.f (F.LNK_CTRL_EN p.val) = 1 ∧ (s.link p.val = 0 ∨ 3 ≤ s.link p.val) ∧ s.link p.val ≠ 7) →
    Completes (.peerBeginsTraining p) s (fun t => t.link p.val = 1)) ∧
  -- EN
  (∀ (p : PortNo) (s : State),
    s.link p.val ≠ 0 →
    Completes (.lnkEn p false) s (fun t => t.link p.val = 0 ∧ t.f (F.LNK_CTRL_EN p.val) = 0 ∧ (t.port p.val).txPkt = [])) ∧
  (∀ (p : PortNo) (s : State),
    Completes (.lnkEn p true) s (fun t => t = s.setF (F.LNK_CTRL_EN p.val) 1))

/-- A sound frame in sequence moves EXP by one; a damaged one is counted and makes a NAK due. An IDLE frame changes nothing but
the count of the receiver's codewords. A SCHED position goes through the receive map to the hub's input, a PKT header without data
to the packet plane, a PKT_POISON into the packet that is being received as a poison flit, a CTRL frame gives the peer's credits.
The transmitter sends what readyFrame ranks first. A replay timeout rewinds to the oldest unreleased frame. Each clause concludes
that exec answers a next state, from conditions on the state and the operands alone, for: idle, sched, pktFrame, pktPoison, ctrl,
frameSend, replayTimeout, tickFrameSend. That a frame ahead of EXP counts in CRC_FAIL, and that REPLAY_LIMIT rewinds come before
the retrain, is log entry 65; the delay taken from a first sample is the model's choice (log entry 119). -/
def Obligations.FramesAndReplay : Prop :=
  -- IDLE (R281)
  (∀ (p : PortNo) (f : BitVec 544) (s : State),
    SoundFrame s p f [] 1 →
    (s.port p.val).agreed = [] →
    Completes (.idle p f []) s (fun t => t = s.onPort p.val Port.countBits)) ∧
  -- in a codeword with one wrong symbol, which the code corrects and counts (R276)
  (∀ (p : PortNo) (f : BitVec 544) (k : BitVec 10) (s : State),
    SoundFrame s p f [] 1 ∧ k.toNat < 544 →
    Completes (.idle p f [k]) s (fun t => t.f (F.LNK_FEC_CORR_SYM p.val) = min (s.f (F.LNK_FEC_CORR_SYM p.val) + 1) (F.LNK_FEC_CORR_SYM p.val).max)) ∧
  -- a codeword that cannot be corrected (R276, R285)
  (∀ (p : PortNo) (f : BitVec 544) (cw : List (BitVec 10)) (s : State),
    s.link p.val = 5 ∧ (s.port p.val).nakOut = false →
    15 < ((cw.filter (fun k => decide (k.toNat < 544))).eraseDups).length →
    Completes (.idle p f cw) s (fun t => (t.port p.val).nakDue = true ∧ (t.port p.val).nakOut = true ∧ (t.port p.val).exp = (s.port p.val).exp ∧
      t.f (F.LNK_FEC_UE_UNCORR_CW p.val) = min (s.f (F.LNK_FEC_UE_UNCORR_CW p.val) + 1) (F.LNK_FEC_UE_UNCORR_CW p.val).max)) ∧
  -- SCHED (R282, R285)
  (∀ (p : PortNo) (f : BitVec 544) (s : State),
    SoundFrame s p f [] 2 ∧ frameSeq f = (s.port p.val).exp →
    Completes (.sched p f []) s (fun t => (t.port p.val).exp = (s.port p.val).exp + 1 ∧ (t.port p.val).nakOut = (s.port p.val).nakDue)) ∧
  -- a SCHED frame behind EXP is discarded
  (∀ (p : PortNo) (f : BitVec 544) (s : State),
    SoundFrame s p f [] 2 ∧ 2048 ≤ (frameSeq f - (s.port p.val).exp).toNat →
    (s.port p.val).agreed = [] →
    Completes (.sched p f []) s (fun t => t = s.onPort p.val Port.countBits)) ∧
  -- one ahead of it counts as bad
  (∀ (p : PortNo) (f : BitVec 544) (s : State),
    SoundFrame s p f [] 2 ∧ frameSeq f ≠ (s.port p.val).exp ∧ (frameSeq f - (s.port p.val).exp).toNat < 2048 →
    (s.port p.val).nakOut = false →
    Completes (.sched p f []) s (fun t => (t.port p.val).nakDue = true ∧ (t.port p.val).exp = (s.port p.val).exp ∧
      t.f (F.LNK_FEC_UE_CRC_FAIL p.val) = min (s.f (F.LNK_FEC_UE_CRC_FAIL p.val) + 1) (F.LNK_FEC_UE_CRC_FAIL p.val).max)) ∧
  -- its first position, mapped (R291)
  (∀ (p : PortNo) (f : BitVec 544) (w : Word) (s : State),
    SoundFrame s p f [] 2 ∧ frameSeq f = (s.port p.val).exp →
    (f.getLsbD 93 = true ∧ f.getLsbD 94 = false ∧ ∀ i : Fin 5, f.getLsbD (173 + 80 * i.val) = false) →
    w = SMap.get 0 (s.port p.val).map (bitsAt f 81 12 : BitVec 12).toNat ∧ w.getLsbD 16 = true →
    ((bitsAt w 0 4 : BitVec 4).toNat < 4 ∨ (8 ≤ (bitsAt w 0 4 : BitVec 4).toNat ∧ (bitsAt w 0 4 : BitVec 4).toNat < 14 ∧ (bitsAt w 0 4 : BitVec 4).toNat ≠ 8 + p.val)) →
    Completes (.sched p f []) s (fun t => (∃ b, t.bundles 68 (4 + p.val) (f.getLsbD 80) = s.bundles 68 (4 + p.val) (f.getLsbD 80) ++ [b] ∧ b.data = bitsAt f 16 64 ∧ b.xdest = bitsAt w 0 4 ∧ b.xrgn = bitsAt w 4 4 ∧ b.port = some p))) ∧
  -- PKT (R283): a READ in its first flit
  (∀ (p : PortNo) (f : BitVec 544) (v : Fin 4) (h : Packet) (s : State),
    SoundFrame s p f [] (8 + v.val) ∧ frameSeq f = (s.port p.val).exp →
    h = { headerOf (bitsAt f 16 128) [] 0 with vc := BitVec.ofNat 2 v.val } ∧ h.cmd = 1 ∧ (bitsAt f 144 128 : BitVec 128) = 0 →
    SMap.get none (s.port p.val).rxPkt v.val = none ∧ s.role p.val ≠ 2 ∧ nodeCoord h.dest = s.f F.FAB_ID_COORD ∧ s.refusing.getLsbD 4 = false →
    Completes (.pktFrame p f []) s (fun t => t.queue (netKey 68 (4 + p.val) v.val) = s.queue (netKey 68 (4 + p.val) v.val) ++ [h] ∧
      (t.port p.val).exp = (s.port p.val).exp + 1)) ∧
  -- PKT_POISON (R283)
  (∀ (p : PortNo) (f : BitVec 544) (v : Fin 4) (r : RxPacket) (s : State),
    SoundFrame s p f [] (12 + v.val) ∧ frameSeq f = (s.port p.val).exp →
    SMap.get none (s.port p.val).rxPkt v.val = some r ∧ 2 ≤ r.left →
    Completes (.pktPoison p f []) s (fun t => SMap.get none (t.port p.val).rxPkt v.val = some ⟨{ r.head with data := r.head.data ++ [0], poison := setBit r.head.poison r.head.data.length true }, r.left - 1⟩ ∧
      (t.port p.val).exp = (s.port p.val).exp + 1)) ∧
  -- CTRL (R284): the peer's credits; nothing acknowledged, no NAK, no lane operation
  (∀ (p : PortNo) (f : BitVec 544) (since : Word) (s : State),
    SoundFrame s p f [] 4 ∧ f.getLsbD 28 = false ∧ f.getLsbD 29 = false ∧ (bitsAt f 224 4 : BitVec 4) = 0 →
    Completes (.ctrl p f ⟨[], since⟩) s (fun t => (∀ v : Fin 4, SMap.get 0 (t.port p.val).peerVc v.val = bitsAt f (32 + 16 * v.val) 16) ∧
      (∀ b : Fin 2, SMap.get 0 (t.port p.val).peerPar b.val = bitsAt f (96 + 16 * b.val) 16) ∧
      (t.port p.val).replay = (s.port p.val).replay ∧ (t.port p.val).exp = (s.port p.val).exp ∧
      (t.port p.val).echo = bitsAt f 128 32 ∧ (t.port p.val).echoAt = s.timer since)) ∧
  -- one that echoes a CTRL frame of this end: a sample of the link delay, the first (R302)
  (∀ (p : PortNo) (f : BitVec 544) (since t1 : Word) (s : State),
    SoundFrame s p f [] 4 →
    t1 = bitsAt f 160 32 ∧ t1 ∈ (s.port p.val).sentTs ∧ (s.port p.val).samples = [] →
    (s.timer since - t1 - bitsAt f 192 32 : Word).toNat < 2 ^ 25 →
    Completes (.ctrl p f ⟨[], since⟩) s (fun t => t.f (F.LNK_DELAY_ONEWAY p.val) = (s.timer since - t1 - bitsAt f 192 32 : Word).toNat / 2)) ∧
  -- FRAME_SEND (R292): nothing is ready
  (∀ (p : PortNo) (since a b : Word) (s : State),
    s.link p.val = 5 ∧ readyFrame s p.val = .idle ∧ (s.port p.val).agreed = [] →
    Completes (.frameSend p since ⟨a, b⟩) s (fun t => (t.port p.val).out = some (mkFrame 1 0 0) ∧ (t.port p.val).pos = (s.port p.val).pos + 1 ∧
      (t.port p.val).seq = (s.port p.val).seq ∧ t.regs = s.regs ∧ t.rgns = s.rgns)) ∧
  -- a frame to send again (R286)
  (∀ (p : PortNo) (since a b : Word) (s : State),
    s.link p.val = 5 ∧ readyFrame s p.val = .replay →
    Completes (.frameSend p since ⟨a, b⟩) s (fun t => (t.port p.val).out = some ((s.port p.val).replay.getD (s.port p.val).readAt 0) ∧ (t.port p.val).readAt = (s.port p.val).readAt + 1 ∧
      (t.port p.val).replay = (s.port p.val).replay ∧ (t.port p.val).seq = (s.port p.val).seq)) ∧
  -- a new PKT frame goes into the replay buffer (R286)
  (∀ (p : PortNo) (since a b : Word) (v : Fin 4) (s : State),
    s.link p.val = 5 ∧ readyFrame s p.val = .pkt v.val →
    Completes (.frameSend p since ⟨a, b⟩) s (fun t => ((t.port p.val).seq = (s.port p.val).seq + 1 ∧ ∃ f, (t.port p.val).replay = (s.port p.val).replay ++ [f] ∧ (t.port p.val).out = some f ∧ frameSeq f = (s.port p.val).seq))) ∧
  -- a CTRL frame, and a TICK frame with the count of its launch (R284, R301)
  (∀ (p : PortNo) (since a b : Word) (s : State),
    s.link p.val = 5 ∧ readyFrame s p.val = .ctrl →
    Completes (.frameSend p since ⟨a, b⟩) s (fun t => (t.port p.val).out = some (mkFrame 4 0 (ctrlPayload (s.port p.val) false (s.timer since))) ∧
      (t.port p.val).nakDue = false ∧ (t.port p.val).sinceCtrl = 0 ∧ (t.port p.val).pos = (s.port p.val).pos + 1)) ∧
  (∀ (p : PortNo) (since a b : Word) (s : State),
    s.link p.val = 5 ∧ readyFrame s p.val = .tick →
    Completes (.frameSend p since ⟨a, b⟩) s (fun t => (t.port p.val).out = some (mkFrame 3 0 (tickPayload s since)) ∧ (t.port p.val).tick = false)) ∧
  -- REPLAY_TIMEOUT (R287)
  (∀ (p : PortNo) (s : State),
    s.link p.val = 5 ∧ (s.port p.val).replay ≠ [] ∧ (s.port p.val).tries.toNat < s.f (F.LNK_CTRL_REPLAY_LIMIT p.val) →
    Completes (.replayTimeout p) s (fun t => (t.port p.val).readAt = 0 ∧ (t.port p.val).replay = (s.port p.val).replay ∧ (t.port p.val).tries = (s.port p.val).tries + 1 ∧ t.link p.val = 5)) ∧
  (∀ (p : PortNo) (s : State),
    s.link p.val = 5 ∧ (s.port p.val).replay ≠ [] ∧ max 1 (s.f (F.LNK_CTRL_REPLAY_LIMIT p.val)) ≤ (s.port p.val).tries.toNat ∧ s.f (F.LNK_CTRL_EN p.val) = 1 →
    Completes (.replayTimeout p) s (fun t => t.link p.val = 1 ∧ (t.port p.val).replay = (s.port p.val).replay ∧ (t.port p.val).keep = true)) ∧
  -- TICK_FRAME_SEND (R301)
  (∀ (p : PortNo) (s : State),
    (s.f F.MER_CTRL_RELAY_EN).testBit p.val = true ∧ s.link p.val = 5 ∧ s.mer.tick.toNat % s.tickInterval p.val = 0 →
    Completes (.tickFrameSend s.mer.tick) s (fun t => (t.port p.val).tick = true ∧ t.regs = s.regs ∧ t.rgns = s.rgns))

/-- A fault on a standby lane takes it out of use; on a port already narrow it takes the port DOWN; otherwise the receiver
proposes SPARE where a standby lane is free and NARROW where not, and at the agreed codeword the operation takes effect and is
counted. SWAP exchanges the active and shadow plan and receive map unless a bundle stands in the port; COPY copies them. Each
clause concludes that exec answers a next state, from conditions on the state and the operands alone, for: laneFault, laneSwitch,
slotSwap, slotCopy. The codeword that a lane switch names, and the turn in which LANE_SWITCH serves the directions, are the
model's choices (log entry 67). -/
def Obligations.LanesAndSlotTables : Prop :=
  -- LANE_FAULT (R296): a standby lane
  (∀ (p : PortNo) (l : Fin 9) (s : State),
    s.link p.val = 5 ∧ s.f (F.LNK_LANE_OK p.val l.val) = 1 ∧ 8 ≤ s.f (F.LNK_LANE_ROLE p.val l.val) →
    Completes (.laneFault p (BitVec.ofNat 4 l.val)) s (fun t => t.f (F.LNK_LANE_OK p.val l.val) = 0 ∧ t.f (F.LNK_LANE_ROLE p.val l.val) = 15 ∧ t.link p.val = 5)) ∧
  -- a port that is narrow
  (∀ (p : PortNo) (l : Fin 9) (s : State),
    s.link p.val = 5 ∧ s.f (F.LNK_LANE_OK p.val l.val) = 1 ∧ s.f (F.LNK_LANE_ROLE p.val l.val) < 8 ∧ s.f (F.LNK_STATUS_RX_NARROW p.val) = 1 →
    Completes (.laneFault p (BitVec.ofNat 4 l.val)) s (fun t => t.link p.val = 0 ∧ t.f (F.LNK_LANE_OK p.val l.val) = 0)) ∧
  -- a full port: SPARE or NARROW is proposed
  (∀ (p : PortNo) (l : Fin 9) (s : State),
    s.link p.val = 5 ∧ s.f (F.LNK_LANE_OK p.val l.val) = 1 ∧ s.f (F.LNK_LANE_ROLE p.val l.val) < 8 ∧ s.f (F.LNK_STATUS_RX_NARROW p.val) = 0 →
    (s.port p.val).laneBusy = false →
    Completes (.laneFault p (BitVec.ofNat 4 l.val)) s (fun t => (∃ o, (t.port p.val).propose = some o ∧ o.rx = true ∧ o.lane = BitVec.ofNat 4 l.val ∧
      o.op = (if (List.range 9).any (fun i => s.f (F.LNK_LANE_ROLE p.val i) = 8) then 1 else 2)))) ∧
  -- while another operation of the receiver is under way the lane waits
  (∀ (p : PortNo) (l : Fin 9) (s : State),
    s.link p.val = 5 ∧ s.f (F.LNK_LANE_OK p.val l.val) = 1 ∧ s.f (F.LNK_LANE_ROLE p.val l.val) < 8 ∧ s.f (F.LNK_STATUS_RX_NARROW p.val) = 0 →
    (s.port p.val).laneBusy = true ∧ BitVec.ofNat 4 l.val ∉ (s.port p.val).faulty →
    ((∀ o ∈ (s.port p.val).agreed, o.rx = true → o.lane ≠ BitVec.ofNat 4 l.val) ∧ ∀ o, (s.port p.val).propose = some o → o.lane ≠ BitVec.ofNat 4 l.val) →
    Completes (.laneFault p (BitVec.ofNat 4 l.val)) s (fun t => (t.port p.val).faulty = (s.port p.val).faulty ++ [BitVec.ofNat 4 l.val] ∧ t.regs = s.regs)) ∧
  -- LANE_SWITCH (R296)
  (∀ (p : PortNo) (o : LaneOp) (s : State),
    (s.port p.val).dueOp = some o ∧ (s.port p.val).faulty = [] ∧ o.rx = true ∧ o.op = 1 ∧ o.lane.toNat < 9 ∧ s.f (F.LNK_LANE_ROLE p.val o.lane.toNat) ≠ 8 →
    Completes (.laneSwitch p) s (fun t => (t.port p.val).agreed = (s.port p.val).agreed.erase o ∧
      t.f (F.LNK_STATUS_SPARE_EVT p.val) = 1 ∧ t.f (F.LNK_LANE_ROLE p.val o.lane.toNat) = 15 ∧ t.f (F.LNK_LANE_OK p.val o.lane.toNat) = 0 ∧
      (∀ l : Fin 9, s.f (F.LNK_LANE_ROLE p.val l.val) = 8 → t.f (F.LNK_LANE_ROLE p.val l.val) = s.f (F.LNK_LANE_ROLE p.val o.lane.toNat)))) ∧
  (∀ (p : PortNo) (o : LaneOp) (s : State),
    (s.port p.val).dueOp = some o ∧ (s.port p.val).faulty = [] ∧ o.rx = true ∧ o.op = 2 ∧ o.lane.toNat < 9 →
    Completes (.laneSwitch p) s (fun t => (t.port p.val).agreed = (s.port p.val).agreed.erase o ∧
      t.f (F.LNK_STATUS_RX_NARROW p.val) = 1 ∧ t.f (F.LNK_STATUS_NARROW_EVT p.val) = 1 ∧ t.f (F.LNK_LANE_OK p.val o.lane.toNat) = 0)) ∧
  -- NARROW at the transmitter, whose codeword AT has come
  (∀ (p : PortNo) (o : LaneOp) (s : State),
    (s.port p.val).agreed = [o] ∧ o.rx = false ∧ o.op = 2 ∧ o.at_ ≤ (s.port p.val).cw →
    Completes (.laneSwitch p) s (fun t => (t.port p.val).agreed = [] ∧ t.f (F.LNK_STATUS_TX_NARROW p.val) = 1)) ∧
  -- and before it
  (∀ (p : PortNo) (o : LaneOp) (s : State),
    (s.port p.val).agreed = [o] ∧ (if o.rx = true then (s.port p.val).rxCw else (s.port p.val).cw) < o.at_ ∧ (s.port p.val).faulty = [] →
    Completes (.laneSwitch p) s (fun t => t = s)) ∧
  -- SLOT_SWAP (R295)
  (∀ (p : PortNo) (s : State),
    slotBusy s p.val = false →
    Completes (.slotSwap p) s (fun t => (t.port p.val).map = (s.port p.val).shadow ∧ (t.port p.val).shadow = (s.port p.val).map ∧
      t.reg (R.LNK_PLAN_LO p.val) = s.reg (R.LNK_PLAN_SH_LO p.val) ∧ t.reg (R.LNK_PLAN_SH_LO p.val) = s.reg (R.LNK_PLAN_LO p.val) ∧
      t.reg (R.LNK_PLAN_HI p.val) = s.reg (R.LNK_PLAN_SH_HI p.val) ∧ t.reg (R.LNK_PLAN_SH_HI p.val) = s.reg (R.LNK_PLAN_HI p.val))) ∧
  (∀ (p : PortNo) (s : State),
    slotBusy s p.val = true →
    Completes (.slotSwap p) s (fun t => t = s.setF (F.LNK_SLOT_STAT_REFUSED p.val) 1)) ∧
  -- SLOT_COPY
  (∀ (p : PortNo) (s : State),
    Completes (.slotCopy p) s (fun t => (t.port p.val).shadow = (s.port p.val).map ∧ (t.port p.val).map = (s.port p.val).map ∧
      t.reg (R.LNK_PLAN_SH_LO p.val) = s.reg (R.LNK_PLAN_LO p.val) ∧ t.reg (R.LNK_PLAN_SH_HI p.val) = s.reg (R.LNK_PLAN_HI p.val)))

/-- A DISCOVER is sent on an UP port. One received sound fills the neighbour's registers, one that is not is counted. SWEEP starts
the sweep afresh: a candidate becomes its own lodestar at coordinate 0, any other package loses its coordinate. SETTLED marks the
sweep settled. FABRIC_RESET of the lodestar is sent on and its reset follows; of any other package it is ignored. A START that
arrives in time sets its tick for the job, and a repeated one is counted. Each clause concludes that exec answers a next state,
from conditions on the state and the operands alone, for: discoverSend, discover, sweep, settled, fabricResetCmd, fabricReset,
start, startCmd. SWEEP reading 3 on a package that is no candidate and the layout check of a DISCOVER are log entry 62; the ports
that START is accepted from are log entry 63; a START in time is log entry 80. -/
def Obligations.FabricSweep : Prop :=
  -- DISCOVER_SEND (R308)
  (∀ (p : PortNo) (s : State),
    s.link p.val = 5 →
    Completes (.discoverSend p) s (fun t => SMap.get [] (t.port p.val).txPkt 0 = SMap.get [] (s.port p.val).txPkt 0 ++ [{ packet := discoverOf s p.val }] ∧
      t.regs = s.regs)) ∧
  -- DISCOVER (R308): one that is not sound
  (∀ (p : PortNo) (m : Packet) (s : State),
    s.link p.val = 5 ∧ discSound m = false →
    Completes (.discover p m) s (fun t => t.f F.FAB_DISC_CNT_BAD = min (s.f F.FAB_DISC_CNT_BAD + 1) F.FAB_DISC_CNT_BAD.max ∧
      t.f F.FAB_DISC_CNT_RX = min (s.f F.FAB_DISC_CNT_RX + 1) F.FAB_DISC_CNT_RX.max ∧
      t.fab = s.fab ∧ t.arrived = s.arrived.erase m)) ∧
  -- a sound one (R309)
  (∀ (p : PortNo) (m : Packet) (s : State),
    s.link p.val = 5 ∧ discSound m = true →
    Completes (.discover p m) s (fun t => t.f (F.FAB_NBR_PEER_PORT p.val) = discPort m ∧ t.f (F.FAB_NBR_PEER_TYPE p.val) = discType m ∧ t.f (F.FAB_NBR_PEER_EPOCH p.val) = discEpoch m ∧
      t.reg (R.FAB_NBR_1 p.val) = bitsAt (discUid m) 0 32 ∧ t.reg (R.FAB_NBR_2 p.val) = bitsAt (discUid m) 32 32 ∧
      SMap.get none t.fab.heard p.val = some m ∧ t.arrived = s.arrived.erase m)) ∧
  -- SWEEP (R311, R313) on a package that is no candidate
  (∀ (s : State),
    s.f F.FAB_CTRL_NOMINATE = 0 ∧ s.f F.FAB_STATUS_STRAP = 0 →
    Completes (.sweep) s (fun t => t.f F.FAB_STATUS_SWEEP = 3 ∧ t.f F.FAB_STATUS_COORD_VALID = 0 ∧ t.f F.FAB_ID_COORD = 0 ∧ t.f F.FAB_STATUS_LODESTAR = 0)) ∧
  -- on a candidate
  (∀ (s : State),
    s.f F.FAB_CTRL_NOMINATE = 1 →
    Completes (.sweep) s (fun t => t.f F.FAB_STATUS_COORD_VALID = 1 ∧ t.f F.FAB_ID_COORD = 0 ∧ t.f F.FAB_STATUS_LODESTAR = 1 ∧ t.luid = Config.uid)) ∧
  -- SETTLED (R313)
  (∀ (s : State),
    s.f F.FAB_STATUS_SWEEP = 0 ∧ s.f F.FAB_STATUS_COORD_VALID = 1 ∧ s.fab.known = 7 ∧ s.f F.FAB_STATUS_CONFLICT = 0 →
    Completes (.settled) s (fun t => t.f F.FAB_STATUS_SWEEP = 1 ∧ t.f F.FAB_ID_COORD = s.f F.FAB_ID_COORD ∧ t.fab.known = 7)) ∧
  -- FABRIC_RESET_CMD (R321)
  (∀ (s : State),
    s.f F.FAB_STATUS_LODESTAR = 0 →
    Completes (.fabricResetCmd) s (fun t => t = s.setF F.FAB_STATUS_RESET_IGNORED 1)) ∧
  (∀ (s : State),
    s.f F.FAB_STATUS_LODESTAR = 1 →
    Completes (.fabricResetCmd) s (fun t => t.fab = { s.fab with resetDue := true } ∧ t.regs = s.regs)) ∧
  -- FABRIC_RESET (R321)
  (∀ (p : Packet) (port : PortNo) (s : State),
    s.link port.val = 5 ∧ s.fab.lclass ≠ 0 ∧ bitsAt (p.data.getD 0 0) 0 64 = s.luid →
    controlPort s port.val = true ∧ p.poison = 0 ∧ s.fab.resetDue = false →
    Completes (.fabricReset p port true) s (fun t => t.fab.resetDue = true ∧ t.arrived = s.arrived.erase p)) ∧
  -- of another lodestar, it is dropped
  (∀ (p : Packet) (port : PortNo) (s : State),
    s.link port.val = 5 ∧ bitsAt (p.data.getD 0 0) 0 64 ≠ s.luid →
    Completes (.fabricReset p port true) s (fun t => t.fab = s.fab ∧ t.f F.FAB_STATUS_RESET_IGNORED = 1 ∧ t.f F.FAB_DROP_BCAST_DROP = min (s.f F.FAB_DROP_BCAST_DROP + 1) F.FAB_DROP_BCAST_DROP.max)) ∧
  -- START (R210, R320)
  (∀ (p : Packet) (port : PortNo) (j : Job) (s : State),
    s.link port.val = 5 ∧ s.f F.FAB_STATUS_SWEEP = 1 ∧ controlPort s port.val = true ∧ nodeCoord p.src = 0 ∧ p.poison = 0 →
    ((bitsAt (p.data.getD 0 0) 0 55 : BitVec 55).zeroExtend 128 : BitVec 128) ∉ s.fab.starts →
    (p.data.getD 0 0).getLsbD 54 = false ∧ bitsAt (p.data.getD 0 0) 48 6 = j →
    StartInTime s j (bitsAt (p.data.getD 0 0) 0 48) →
    Completes (.start p port) s (fun t => (t.job j).start = some (bitsAt (p.data.getD 0 0) 0 48) ∧
      (bitsAt (p.data.getD 0 0) 0 55 : BitVec 55).zeroExtend 128 ∈ t.fab.starts)) ∧
  -- one seen before
  (∀ (p : Packet) (port : PortNo) (s : State),
    s.link port.val = 5 ∧ s.f F.FAB_STATUS_SWEEP = 1 ∧ controlPort s port.val = true ∧ nodeCoord p.src = 0 ∧ p.poison = 0 →
    ((bitsAt (p.data.getD 0 0) 0 55 : BitVec 55).zeroExtend 128 : BitVec 128) ∈ s.fab.starts →
    Completes (.start p port) s (fun t => t.jobs = s.jobs ∧ t.fab = s.fab ∧ t.f F.FAB_BCAST_DUPS = min (s.f F.FAB_BCAST_DUPS + 1) F.FAB_BCAST_DUPS.max)) ∧
  -- START_CMD (R211), for one job of this package
  (∀ (v : Word) (j : Job) (s : State),
    v.getLsbD 9 = true ∧ v.getLsbD 8 = true ∧ v.getLsbD 7 = false ∧ v.getLsbD 6 = false ∧ bitsAt v 0 6 = j →
    StartInTime s j (s.get48 R.CFG_START_TICK_LO R.CFG_START_TICK_HI) →
    Completes (.startCmd v) s (fun t => (t.job j).start = some (s.get48 R.CFG_START_TICK_LO R.CFG_START_TICK_HI) ∧ t.reg R.CFG_START_CMD = v &&& 0x1FF))

/-- For every common command code that sets something and that the target hears: the enables and limits it sets, and the address
it gives, replaces or clears. ENTAS0 to ENTAS3 have no effect. ENTHDR0 enters HDR-DDR where HDR_EN is 1, and otherwise the target
ignores the bus until the exit pattern. RSTACT resets what its byte names. Each clause concludes that exec answers a next state,
from conditions on the state and the operands alone, for: enec, disec, entas0, entas1, entas2, entas3, rstdaa, entdaa, setdasa,
setnewda, setmwl, setmrl, enthdr0, hdrExitPattern, rstact. The byte order of the ENTDAA answer and ENTHDR0 with HDR_EN 0 follow
the MIPI specification (log entry 9, PRESUMED); that RSTACT 1 clears ACC_STAT is the model's choice (log entry 10). -/
def Obligations.CommonCommandCodes : Prop :=
  -- ENEC, DISEC
  (∀ (hj : Bool) (s : State),
    s.i3cHears = true →
    Completes (.enec true hj) s (fun t => (t.f F.HIF_STATUS_INT_EN = 1 ∧ (hj = true → t.f F.HIF_STATUS_HJ_ENC = 1) ∧ (hj = false → t.f F.HIF_STATUS_HJ_ENC = s.f F.HIF_STATUS_HJ_ENC)))) ∧
  (∀ (hj : Bool) (s : State),
    s.i3cHears = true →
    Completes (.disec true hj) s (fun t => (t.f F.HIF_STATUS_INT_EN = 0 ∧ t.reg R.HIF_IBI_PEND = s.reg R.HIF_IBI_PEND ∧ (hj = true → t.f F.HIF_STATUS_HJ_ENC = 0 ∧ t.i3c.joinDue = false)))) ∧
  -- ENTAS0 to ENTAS3
  (∀ (s : State),
    Completes (.entas0) s (fun t => t = s)) ∧
  (∀ (s : State),
    Completes (.entas1) s (fun t => t = s)) ∧
  (∀ (s : State),
    Completes (.entas2) s (fun t => t = s)) ∧
  (∀ (s : State),
    Completes (.entas3) s (fun t => t = s)) ∧
  -- RSTDAA
  (∀ (s : State),
    s.i3cHears = true →
    Completes (.rstdaa) s (fun t => t.f F.HIF_STATUS_DA_VALID = 0 ∧ t.f F.HIF_STATUS_DA = 0)) ∧
  -- ENTDAA
  (∀ (da : BitVec 7) (s : State),
    s.i3cHears = true ∧ s.f F.HIF_STATUS_DA_VALID = 0 →
    Completes (.entdaa da) s (fun t => t.f F.HIF_STATUS_DA_VALID = 1 ∧ t.f F.HIF_STATUS_DA = da.toNat ∧ t.i3c.out = beBytes 6 s.pid ++ [bcr, dcr] ∧ t.i3c.joinDue = false)) ∧
  -- SETDASA at the static address
  (∀ (da : BitVec 7) (s : State),
    s.i3cHears = true ∧ s.f F.HIF_STATUS_DA_VALID = 0 →
    Completes (.setdasa (BitVec.ofNat 7 (0x30 + s.f F.HIF_PINS_ADDR_SEL)) da) s (fun t => t.f F.HIF_STATUS_DA_VALID = 1 ∧ t.f F.HIF_STATUS_DA = da.toNat)) ∧
  -- SETNEWDA
  (∀ (da : BitVec 7) (s : State),
    s.i3cDirect = true →
    Completes (.setnewda da) s (fun t => t.f F.HIF_STATUS_DA_VALID = 1 ∧ t.f F.HIF_STATUS_DA = da.toNat)) ∧
  -- SETMWL, SETMRL
  (∀ (n : BitVec 16) (s : State),
    s.i3cHears = true →
    Completes (.setmwl n) s (fun t => t.i3c.mwl.toNat = min n.toNat 133 ∧ t.i3c.mrl = s.i3c.mrl ∧ t.regs = s.regs)) ∧
  (∀ (n : BitVec 16) (s : State),
    s.i3cHears = true →
    Completes (.setmrl n) s (fun t => t.i3c.mrl.toNat = min n.toNat 128 ∧ t.i3c.mwl = s.i3c.mwl ∧ t.regs = s.regs)) ∧
  -- ENTHDR0 and the HDR exit pattern (R380)
  (∀ (s : State),
    s.i3cHears = true ∧ s.f F.HIF_CTRL_HDR_EN = 1 →
    Completes (.enthdr0) s (fun t => t.f F.HIF_STATUS_HDR = 1 ∧ t.i3c = s.i3c)) ∧
  (∀ (s : State),
    s.i3cHears = true ∧ s.f F.HIF_CTRL_HDR_EN = 0 →
    Completes (.enthdr0) s (fun t => t.f F.HIF_STATUS_HDR = 0 ∧ t.i3cHears = false)) ∧
  (∀ (s : State),
    Completes (.hdrExitPattern) s (fun t => t.f F.HIF_STATUS_HDR = 0 ∧ t.i3c.deaf = false)) ∧
  -- RSTACT
  (∀ (s : State),
    s.i3cHears = true →
    Completes (.rstact 1) s (fun t => t.f F.HIF_ACC_STAT_RESULT = 0 ∧ t.f F.HIF_STATUS_DA = s.f F.HIF_STATUS_DA ∧ t.f F.HIF_STATUS_DA_VALID = s.f F.HIF_STATUS_DA_VALID)) ∧
  (∀ (s : State),
    s.i3cHears = true ∧ s.packageResetting = false →
    Completes (.rstact 2) s (fun t => t.drainOf 4 = .reset ∧ t.pwr.cause = 3))

/-- GETMWL, GETMRL, GETPID, GETBCR, GETDCR, GETMXDS and GETSTATUS make the target answer with its limits, its provisional ID, its
characteristics, no speed limit, and its status. Each clause concludes that exec answers a next state, from conditions on the
state and the operands alone, for: getmwl, getmrl, getpid, getbcr, getdcr, getmxds, getstatus. The order of the answers' bytes,
most significant first, follows the MIPI specification (log entry 9, PRESUMED). -/
def Obligations.GetCommandCodes : Prop :=
  -- GETMWL, GETMRL, GETPID, GETBCR, GETDCR, GETMXDS
  (∀ (s : State),
    s.i3cDirect = true →
    Completes (.getmwl) s (fun t => t = { s with i3c := { s.i3c with out := beBytes 2 s.i3c.mwl.toNat } })) ∧
  (∀ (s : State),
    s.i3cDirect = true →
    Completes (.getmrl) s (fun t => t = { s with i3c := { s.i3c with out := beBytes 2 s.i3c.mrl.toNat } })) ∧
  (∀ (s : State),
    s.i3cDirect = true →
    Completes (.getpid) s (fun t => t = { s with i3c := { s.i3c with out := beBytes 6 s.pid } })) ∧
  (∀ (s : State),
    s.i3cDirect = true →
    Completes (.getbcr) s (fun t => t = { s with i3c := { s.i3c with out := [bcr] } })) ∧
  (∀ (s : State),
    s.i3cDirect = true →
    Completes (.getdcr) s (fun t => t = { s with i3c := { s.i3c with out := [dcr] } })) ∧
  (∀ (s : State),
    s.i3cDirect = true →
    Completes (.getmxds) s (fun t => t = { s with i3c := { s.i3c with out := [0, 0] } })) ∧
  -- GETSTATUS
  (∀ (s : State),
    s.i3cDirect = true →
    Completes (.getstatus) s (fun t => t.i3c.protoErr = false ∧ t.i3c.out.length = 2 ∧ t.i3c.out.getD 0 0 = i3cStatus s ∧
      (t.i3c.out.getD 1 0).getLsbD 5 = s.i3c.protoErr ∧ (t.i3c.out.getD 1 0).toNat % 16 = min s.ibiCount 15))

/-- STATUS answers the status byte and the word index. WRITE and WRITE_FIXED of one word to a plain hub register write it, READ
and READ_FIXED answer it least significant byte first; each records that all went well. A malformed transfer accesses nothing and
is recorded with code 3. An accepted Hot-Join gives the address; an accepted IBI sends the lowest class that waits, with its LOC
and ARG, and is counted. Each clause concludes that exec answers a next state, from conditions on the state and the operands
alone, for: status, i3cWrite, writeFixed, i3cRead, readFixed, hotJoin, ibi. That a WRITE longer than the maximum write length is
malformed is log entry 146. -/
def Obligations.PrivateTransfersAndInterrupts : Prop :=
  -- STATUS (R386)
  (∀ (s : State),
    s.i3cPrivate = true ∧ s.i3cBusy = false →
    Completes (.status) s (fun t => t = { s with i3c := { s.i3c with out := [i3cStatus s, BitVec.ofNat 8 (s.f F.HIF_ACC_STAT_INDEX)] } })) ∧
  -- WRITE, WRITE_FIXED (R384)
  (∀ (a v : Word) (s : State),
    s.i3cPrivate = true ∧ s.bus = [] ∧ 9 ≤ s.i3c.mwl.toNat →
    a.toNat ∈ [R.SEM_CTRL, R.PWR_TOL, R.FLT_ISB] →
    Completes (.i3cWrite (0x20 :: (bytesOf 4 a.toNat ++ bytesOf 4 v.toNat))) s (fun t => (∀ row, hubRow a.toNat = some row → t.reg a.toNat = row.written (s.reg a.toNat) v) ∧
      t.f F.HIF_ACC_STAT_RESULT = 0 ∧ t.f F.HIF_ACC_STAT_INDEX = 0 ∧ t.bus = [] ∧ t.rgns = s.rgns)) ∧
  (∀ (a v : Word) (s : State),
    s.i3cPrivate = true ∧ s.bus = [] ∧ 9 ≤ s.i3c.mwl.toNat →
    a.toNat ∈ [R.SEM_CTRL, R.PWR_TOL, R.FLT_ISB] →
    Completes (.writeFixed (0x40 :: (bytesOf 4 a.toNat ++ bytesOf 4 v.toNat))) s (fun t => (∀ row, hubRow a.toNat = some row → t.reg a.toNat = row.written (s.reg a.toNat) v) ∧
      t.f F.HIF_ACC_STAT_RESULT = 0 ∧ t.f F.HIF_ACC_STAT_INDEX = 0 ∧ t.bus = [] ∧ t.rgns = s.rgns)) ∧
  -- two words to one address: the second stays
  (∀ (a v w : Word) (s : State),
    s.i3cPrivate = true ∧ s.bus = [] ∧ 13 ≤ s.i3c.mwl.toNat →
    a.toNat ∈ [R.SEM_CTRL, R.PWR_TOL, R.FLT_ISB] →
    Completes (.writeFixed (0x41 :: (bytesOf 4 a.toNat ++ bytesOf 4 v.toNat ++ bytesOf 4 w.toNat))) s (fun t => (∀ row, hubRow a.toNat = some row → t.reg a.toNat = row.written (row.written (s.reg a.toNat) v) w) ∧
      t.f F.HIF_ACC_STAT_RESULT = 0 ∧ t.bus = [])) ∧
  -- READ, READ_FIXED (R384)
  (∀ (a : Word) (s : State),
    s.i3cPrivate = true ∧ s.bus = [] ∧ 5 ≤ s.i3c.mwl.toNat ∧ 4 ≤ s.i3c.mrl.toNat →
    a.toNat ∈ [R.SEM_CTRL, R.PWR_TOL, R.FLT_ISB] →
    Completes (.i3cRead (0x60 :: bytesOf 4 a.toNat) 1) s (fun t => t.i3c.out = bytesOf 4 (s.reg a.toNat).toNat ∧ t.f F.HIF_ACC_STAT_RESULT = 0 ∧ t.bus = [] ∧ t.rgns = s.rgns)) ∧
  (∀ (a : Word) (s : State),
    s.i3cPrivate = true ∧ s.bus = [] ∧ 5 ≤ s.i3c.mwl.toNat ∧ 4 ≤ s.i3c.mrl.toNat →
    a.toNat ∈ [R.SEM_CTRL, R.PWR_TOL, R.FLT_ISB] →
    Completes (.readFixed (0x80 :: bytesOf 4 a.toNat) 1) s (fun t => t.i3c.out = bytesOf 4 (s.reg a.toNat).toNat ∧ t.f F.HIF_ACC_STAT_RESULT = 0 ∧ t.bus = [] ∧ t.rgns = s.rgns)) ∧
  -- a malformed WRITE (R385)
  (∀ (bytes : List (BitVec 8)) (s : State),
    s.i3cPrivate = true ∧ s.i3cBusy = false →
    (opOf bytes = 1 ∧ (s.i3c.mwl.toNat < bytes.length ∨ bytes.length ≠ 5 + 4 * wordsIn bytes ∨ (wordAt bytes 1).toNat % 4 ≠ 0)) →
    Completes (.i3cWrite bytes) s (fun t => t.f F.HIF_ACC_STAT_RESULT = 3 ∧ t.f F.HIF_ACC_STAT_INDEX = 0 ∧ t.i3c = { s.i3c with protoErr := true } ∧ t.rgns = s.rgns ∧
      t.f F.HIF_ERR_PROTO = min (s.f F.HIF_ERR_PROTO + 1) F.HIF_ERR_PROTO.max ∧
      OnlyRegs [R.HIF_ACC_STAT, F.HIF_ERR_PROTO.off] s { t with i3c := s.i3c })) ∧
  -- a write whose OP is reserved, with the read header after it: malformed, and the header counts as PROTO too
  (∀ (bytes : List (BitVec 8)) (n : Nat) (s : State),
    s.i3cPrivate = true ∧ s.i3cBusy = false →
    5 ≤ opOf bytes ∧ bytes ≠ [] →
    Completes (.i3cRead bytes n) s (fun t => t.f F.HIF_ACC_STAT_RESULT = 3 ∧ t.f F.HIF_ACC_STAT_INDEX = 0 ∧ t.i3c = { s.i3c with protoErr := true } ∧
      t.f F.HIF_ERR_PROTO = min (s.f F.HIF_ERR_PROTO + 2) F.HIF_ERR_PROTO.max ∧
      OnlyRegs [R.HIF_ACC_STAT, F.HIF_ERR_PROTO.off] s { t with i3c := s.i3c })) ∧
  -- HOT_JOIN (R383)
  (∀ (da : BitVec 7) (s : State),
    s.i3cHears = true ∧ s.i3c.joinDue = true ∧ s.f F.HIF_STATUS_DA_VALID = 0 ∧ s.f F.HIF_CTRL_HJ_EN = 1 ∧ s.f F.HIF_STATUS_HJ_ENC = 1 →
    Completes (.hotJoin (some da)) s (fun t => t.f F.HIF_STATUS_DA_VALID = 1 ∧ t.f F.HIF_STATUS_DA = da.toNat ∧ t.i3c.joinDue = false)) ∧
  -- IBI (R389)
  (∀ (k : Fin 32) (s : State),
    s.i3cDirect = true ∧ s.f F.HIF_STATUS_INT_EN = 1 ∧ s.i3c.ibiDue.getLsbD k.val = true →
    (∀ j : Fin 32, j < k → s.i3c.ibiDue.getLsbD j.val = false) →
    Completes (.ibi true) s (fun t => t.i3c.out = [BitVec.ofNat 8 k.val, BitVec.ofNat 8 (s.f (F.HIF_IBI_INFO_LOC k.val)), BitVec.ofNat 8 (s.f (F.HIF_IBI_INFO_ARG k.val))] ∧
      t.f F.HIF_IBI_COAL_SENT = min (s.f F.HIF_IBI_COAL_SENT + 1) F.HIF_IBI_COAL_SENT.max ∧
      (∀ j : Fin 32, t.i3c.ibiDue.getLsbD j.val = (decide (j ≠ k) && s.i3c.ibiDue.getLsbD j.val))))

/-- A write of 1 to SEM.RELEASE.GO by the owner frees the semaphore: its holder and its hold time read 0. From any other
requester, or to a free semaphore, nothing changes but SEM.COUNTS2.FOREIGN, which rises by 1. Each clause concludes that exec
answers a next state, from conditions on the state and the operands alone, for: semRelease. -/
def Obligations.SemaphoreRelease : Prop :=
  (∀ (n : SemNo) (who : Requester) (s : State),
    s.reg (R.SEM_HOLDER n.toNat) = holderOf who →
    Completes (.semRelease n who) s (fun t => t = (s.setReg (R.SEM_HOLDER n.toNat) 0).setReg (R.SEM_HOLD_TIME n.toNat) 0 ∧
      t.f (F.SEM_HOLDER_KIND n.toNat) = 0)) ∧
  (∀ (n : SemNo) (who : Requester) (s : State),
    s.reg (R.SEM_HOLDER n.toNat) ≠ holderOf who →
    Completes (.semRelease n who) s (fun t => t = s.setF F.SEM_COUNTS2_FOREIGN (min (s.f F.SEM_COUNTS2_FOREIGN + 1) F.SEM_COUNTS2_FOREIGN.max)))

/-- OUT_SET and OUT_CLR change the bits of the mask that the writer owns and count the others. A change of GPIO.FUNC by the owner
of every pin takes effect, by another in the bits of the peripherals whose pins it owns, and parks each pin whose function
changes; the park's end takes the pin out of it. An event that a line watches sets the bit of an IBI line or joins the count of an
easel line. A wake input at its level sets its HIT bit. Each clause concludes that exec answers a next state, from conditions on
the state and the operands alone, for: outSet, outClr, funcChange, parkEnd, pinInterrupt, wakeInput. That DENIED counts every
refused bit is the model's choice (log entry 30). -/
def Obligations.GpioPins : Prop :=
  -- OUT_SET, OUT_CLR (R396, R397)
  (∀ (mask : BitVec 12) (w : Writer) (s : State),
    Completes (.outSet mask w) s (fun t => t.f F.GPIO_OUT_DATA = (BitVec.ofNat 12 (s.f F.GPIO_OUT_DATA) ||| s.ownedPins w mask).toNat ∧
      t.f F.GPIO_DENIED_WRITES = min (s.f F.GPIO_DENIED_WRITES + ones (mask &&& ~~~ s.ownedPins w mask)) F.GPIO_DENIED_WRITES.max ∧
      t.f F.GPIO_DIR_OUT = s.f F.GPIO_DIR_OUT ∧ t.rgns = s.rgns)) ∧
  (∀ (mask : BitVec 12) (w : Writer) (s : State),
    Completes (.outClr mask w) s (fun t => t.f F.GPIO_OUT_DATA = (BitVec.ofNat 12 (s.f F.GPIO_OUT_DATA) &&& ~~~ s.ownedPins w mask).toNat ∧
      t.f F.GPIO_DENIED_WRITES = min (s.f F.GPIO_DENIED_WRITES + ones (mask &&& ~~~ s.ownedPins w mask)) F.GPIO_DENIED_WRITES.max)) ∧
  -- FUNC_CHANGE by the owner of every pin (R394, R395)
  (∀ (v : BitVec 8) (w : Writer) (s : State),
    (∀ i : PinNo, s.ownsPin w i.val = true) →
    Completes (.funcChange v w) s (fun t => t.f ⟨R.GPIO_FUNC, 0, 8⟩ = v.toNat ∧
      (∀ i : PinNo, pinFunction (s.f ⟨R.GPIO_FUNC, 0, 8⟩) i.val ≠ pinFunction v.toNat i.val → t.gpio.parked.getLsbD i.val = true) ∧
      (∀ i : PinNo, pinFunction (s.f ⟨R.GPIO_FUNC, 0, 8⟩) i.val = pinFunction v.toNat i.val → t.gpio.parked.getLsbD i.val = s.gpio.parked.getLsbD i.val))) ∧
  -- by an owner of some pins: the bits of the peripherals it owns whole change, and the others are counted
  (∀ (v : BitVec 8) (w : Writer) (s : State),
    Completes (.funcChange v w) s (fun t => (∀ b : Fin 8, (t.f ⟨R.GPIO_FUNC, 0, 8⟩).testBit b.val = if (funcPins b.val).all (s.ownsPin w) then v.getLsbD b.val else (s.f ⟨R.GPIO_FUNC, 0, 8⟩).testBit b.val) ∧
      t.f F.GPIO_DENIED_WRITES = min (s.f F.GPIO_DENIED_WRITES +
        ((List.range 8).filter (fun b => (s.f ⟨R.GPIO_FUNC, 0, 8⟩).testBit b != v.getLsbD b && !(funcPins b).all (s.ownsPin w))).length) F.GPIO_DENIED_WRITES.max)) ∧
  -- PARK_END
  (∀ (i : PinNo) (s : State),
    s.gpio.parked.getLsbD i.val = true ∧ s.gpio.held = false ∧ s.dbg.testing = none →
    Completes (.parkEnd i) s (fun t => t.gpio.parked.getLsbD i.val = false ∧ t.gpio.periph.getLsbD i.val = (pinFunction (s.f ⟨R.GPIO_FUNC, 0, 8⟩) i.val != 0) ∧
      (∀ j : PinNo, j ≠ i → t.gpio.parked.getLsbD j.val = s.gpio.parked.getLsbD j.val))) ∧
  -- PIN_INTERRUPT (R399) of an IBI line
  (∀ (n : Fin 6) (e : PinEdge) (s : State),
    modeTakes (s.f (F.GPIO_INT_MODE n.val)) e = true ∧ s.f (F.GPIO_INT_MODE n.val) < 4 ∧ s.f (F.GPIO_INT_TARGET n.val) = 0 →
    Completes (.pinInterrupt (BitVec.ofNat 3 n.val) e) s (fun t => (t.reg R.GPIO_INT_STAT).getLsbD n.val = true ∧ (t.reg R.HIF_IBI_PEND).getLsbD 0x0E = true)) ∧
  -- of an easel line whose mailbox is full: the event joins the count
  (∀ (n : Fin 6) (e : PinEdge) (c : BitVec 4) (s : State),
    modeTakes (s.f (F.GPIO_INT_MODE n.val)) e = true ∧ s.f (F.GPIO_INT_TARGET n.val) = 1 ∧ s.f (F.GPIO_INT_CORE n.val) = 0 →
    64 ≤ (s.eas 0 0).mbin.length ∧ c = SMap.get 0 s.gpio.lines n.val ∧ c.toNat < 15 →
    Completes (.pinInterrupt (BitVec.ofNat 3 n.val) e) s (fun t => SMap.get 0 t.gpio.lines n.val = c + 1 ∧ t.rgns = s.rgns)) ∧
  -- WAKE_INPUT (R400)
  (∀ (k : Bool) (s : State),
    s.pwr.boot = .up ∧ s.f (F.GPIO_WAKE_EN k.toNat) = 1 ∧ s.f (F.GPIO_WAKE_SEL k.toNat) < 12 →
    Completes (.wakeInput k (s.bit (F.GPIO_WAKE_POL k.toNat))) s (fun t => t.f (F.GPIO_WAKE_HIT k.toNat) = 1))

/-- A write of UART_DATA by the owner queues the byte while fewer than 16 wait, and otherwise is counted. A received byte joins
the queue or sets OVERRUN; a read takes the oldest byte; a byte sent leaves the queue. An SPI byte makes BUSY 1 until its end
stores the byte received. A tachometer edge stores the time, a capture edge the tick count, and reading CAP_LO latches its upper
half. Each clause concludes that exec answers a next state, from conditions on the state and the operands alone, for:
uartDataWrite, uartDataRead, uartRx, uartTx, spiData, spiByteEnd, tachEdge, capture, captureRead. That UART_DATA and SPI_DATA act
without their enable bit is the model's choice (log entry 31). -/
def Obligations.GpioPeripherals : Prop :=
  -- UART_DATA_WRITE (R401)
  (∀ (b : BitVec 8) (w : Writer) (s : State),
    s.ownsPin w 0 = true ∧ s.gpio.uartTx.length < 16 →
    Completes (.uartDataWrite b w) s (fun t => t.gpio.uartTx = s.gpio.uartTx ++ [b] ∧ t.f F.GPIO_UART_STAT_TX_FREE = 16 - (s.gpio.uartTx.length + 1))) ∧
  (∀ (b : BitVec 8) (w : Writer) (s : State),
    s.ownsPin w 0 = true ∧ 16 ≤ s.gpio.uartTx.length →
    Completes (.uartDataWrite b w) s (fun t => t = s.bump F.GPIO_UART_STAT_TX_DROP 1)) ∧
  -- UART_DATA_READ
  (∀ (b : BitVec 8) (rest : List (BitVec 8)) (s : State),
    s.gpio.uartRx = b :: rest →
    Completes (.uartDataRead) s (fun t => t.gpio.uartRx = rest ∧ t.f F.GPIO_UART_STAT_EMPTY = 0)) ∧
  -- UART_RX
  (∀ (b : BitVec 8) (s : State),
    s.uartHears = true ∧ s.gpio.uartRx.length < 16 →
    Completes (.uartRx b false) s (fun t => t.gpio.uartRx = s.gpio.uartRx ++ [b] ∧ t.f F.GPIO_UART_STAT_RX_COUNT = s.gpio.uartRx.length + 1)) ∧
  (∀ (b : BitVec 8) (s : State),
    s.uartHears = true ∧ 16 ≤ s.gpio.uartRx.length →
    Completes (.uartRx b false) s (fun t => t = s.setF F.GPIO_UART_STAT_OVERRUN 1)) ∧
  -- UART_TX
  (∀ (b : BitVec 8) (rest : List (BitVec 8)) (s : State),
    s.gpio.uartTx = b :: rest ∧ s.f F.GPIO_FUNC_UART_EN = 1 ∧ s.gpioRuns = true →
    Completes (.uartTx) s (fun t => t.gpio.uartTx = rest)) ∧
  -- SPI_DATA and SPI_BYTE_END (R401)
  (∀ (b : BitVec 8) (cs : Bool) (w : Writer) (s : State),
    s.ownsPin w 2 = true ∧ s.f F.GPIO_SPI_DATA_BUSY = 0 →
    Completes (.spiData b cs w) s (fun t => t.gpio.spi = some b ∧ t.f F.GPIO_SPI_DATA_BUSY = 1 ∧ t.f F.GPIO_SPI_DATA_HOLD_CS = cs.toNat)) ∧
  (∀ (b : BitVec 8) (cs : Bool) (w : Writer) (s : State),
    s.ownsPin w 2 = true ∧ s.f F.GPIO_SPI_DATA_BUSY = 1 →
    Completes (.spiData b cs w) s (fun t => t = s.bump F.GPIO_DENIED_WRITES 1)) ∧
  (∀ (rx b : BitVec 8) (s : State),
    s.gpio.spi = some b ∧ s.gpioRuns = true ∧ s.f F.GPIO_FUNC_SPI_EN = 1 ∧ s.gpio.parked.getLsbD 4 = false →
    Completes (.spiByteEnd rx) s (fun t => t.gpio.spi = none ∧ t.f F.GPIO_SPI_DATA_BYTE = rx.toNat ∧ t.f F.GPIO_SPI_DATA_BUSY = 0)) ∧
  -- TACH_EDGE
  (∀ (us : BitVec 16) (s : State),
    pinFunction (s.f ⟨R.GPIO_FUNC, 0, 8⟩) 9 = 4 ∧ s.gpio.parked.getLsbD 9 = false →
    Completes (.tachEdge true us) s (fun t => t.f (F.GPIO_FAN_TACH_US 1) = us.toNat)) ∧
  (∀ (us : BitVec 16) (s : State),
    pinFunction (s.f ⟨R.GPIO_FUNC, 0, 8⟩) 7 = 3 ∧ s.gpio.parked.getLsbD 7 = false →
    Completes (.tachEdge false us) s (fun t => t.f (F.GPIO_FAN_TACH_US 0) = us.toNat)) ∧
  -- CAPTURE, CAPTURE_READ
  (∀ (falling : Bool) (s : State),
    s.f F.GPIO_FUNC_CAP_SEL = 0 ∧ pinFunction (s.f ⟨R.GPIO_FUNC, 0, 8⟩) 10 = 5 ∧ s.gpio.parked.getLsbD 10 = false ∧ s.gpioRuns = true →
    s.f F.GPIO_CAP_CFG_EDGE = 2 →
    Completes (.capture falling) s (fun t => t.gpio.capture = s.mer.tick ∧ t.reg R.GPIO_CAP_LO = s.mer.tick.truncate 32 ∧ t.f F.GPIO_CAP_CFG_VALID = 1 ∧
      (s.f F.GPIO_CAP_CFG_VALID = 1 → t.f F.GPIO_CAP_CFG_OVERRUN = 1))) ∧
  (∀ (s : State),
    Completes (.captureRead) s (fun t => t.reg R.GPIO_CAP_HI = BitVec.ofNat 32 (s.gpio.capture.toNat / 2 ^ 32) ∧ t.f F.GPIO_CAP_CFG_VALID = 0))

/-- A powered port drops a header whose guard or parity is wrong and counts it; a wake sequence restores its protocol state only.
It answers a read of DBG.ID at any time, ERR with code STATE to a core or data register outside a session, and discards a write of
wrong parity with ERR PARITY. ATTACH opens a session; its end, by a write of 0 or by the idle limit, resumes every halted core.
ERR_CLR clears the error. A write of DBG.DATA to a plain hub register is performed, a read is answered WAIT until its data is
held, and then gives it. Each clause concludes that exec answers a next state, from conditions on the state and the operands
alone, for: wakeSequence, twdRequest, attach, sessionIdle, dbgDataWrite, dbgDataRead, errClr. That a read with ERR standing is
answered ERR even where R407 would answer WAIT is log entry 83. -/
def Obligations.DebugPort : Prop :=
  -- WAKE_SEQUENCE (R406)
  (∀ (s : State),
    s.portUp = true →
    Completes (.wakeSequence) s (fun t => t = { s with dbg := { s.dbg with synced := true, ignoring := false } })) ∧
  -- TWD_REQUEST: a header that the port does not answer (R406)
  (∀ (hdr : BitVec 8) (d : Word) (par : Bool) (s : State),
    s.portUp = true ∧ s.dbg.ignoring = false ∧ hdr.getLsbD 0 = false →
    (s.dbg.synced = false ∨ headerOk hdr = false) →
    Completes (.twdRequest hdr d par) s (fun t => t.f F.DBG_STATUS_HDR_ERR = min (s.f F.DBG_STATUS_HDR_ERR + 1) F.DBG_STATUS_HDR_ERR.max ∧ t.dbg.ack = 7 ∧ t.dbg.ignoring = true ∧ t.rgns = s.rgns)) ∧
  -- a read of DBG.ID, in a session or not (R409)
  (∀ (d : Word) (par : Bool) (s : State),
    PortIdle s ∧ s.dbg.ignoring = false ∧ s.dbg.synced = true →
    Completes (.twdRequest 0xA0 d par) s (fun t => t.dbg.ack = 3 ∧ t.dbg.out = 0x100C0001 ∧ t.regs = s.regs ∧ t.rgns = s.rgns)) ∧
  -- a register of the session outside one
  (∀ (hdr : BitVec 8) (d : Word) (par : Bool) (s : State),
    PortIdle s ∧ s.dbg.ignoring = false ∧ s.dbg.synced = true ∧ s.attached = false →
    headerOk hdr = true ∧ 3 ≤ hdr.toNat / 2 % 16 ∧ s.f F.DBG_STATUS_ERR = 0 →
    Completes (.twdRequest hdr d par) s (fun t => t.dbg.ack = 6 ∧ t.f F.DBG_STATUS_ERR = 6 ∧ t.rgns = s.rgns)) ∧
  -- a write whose parity is wrong (R407)
  (∀ (hdr : BitVec 8) (d : Word) (s : State),
    PortOpen s ∧ s.dbg.ignoring = false ∧ s.dbg.synced = true ∧ headerOk hdr = true ∧ hdr.getLsbD 5 = false →
    Completes (.twdRequest hdr d true) s (fun t => t.dbg.ack = 3 ∧ t.f F.DBG_STATUS_ERR = 1 ∧ t.rgns = s.rgns ∧ t.bus = s.bus)) ∧
  -- ATTACH (R409)
  (∀ (s : State),
    PortIdle s →
    Completes (.attach true) s (fun t => t.attached = true ∧ t.dbg.ack = 3 ∧ t.f F.DBG_SESSION_IDLE_TO = s.f F.DBG_SESSION_IDLE_TO ∧ t.rgns = s.rgns)) ∧
  -- the end of a session by a write
  (∀ (s : State),
    (PortIdle s ∧ s.attached = true ∧ s.pwr.kept = 0 ∧ (∀ n : Fin 32, s.f (F.SEM_HOLDER_KIND n.val) ≠ 4)) →
    Completes (.attach false) s (fun t => (t.attached = false ∧ ∀ (rg : Rg) (k : CoreNo), t.coreHalted rg k = false))) ∧
  -- SESSION_IDLE
  (∀ (s : State),
    (s.attached = true ∧ s.f F.DBG_SESSION_IDLE_TO ≠ 0 ∧ s.pwr.kept = 0 ∧ (∀ n : Fin 32, s.f (F.SEM_HOLDER_KIND n.val) ≠ 4)) →
    Completes (.sessionIdle) s (fun t => (t.attached = false ∧ ∀ (rg : Rg) (k : CoreNo), t.coreHalted rg k = false))) ∧
  -- no limit (IDLE_TO 0)
  (∀ (s : State),
    s.f F.DBG_SESSION_IDLE_TO = 0 →
    Completes (.sessionIdle) s (fun t => t = s)) ∧
  -- DBG_DATA_WRITE (R410, R412): SPACE 0, a hub register without a rule of its own
  (∀ (v : Word) (ecc : Ecc) (s : State),
    PortOpen s ∧ s.bus = [] ∧ (s.reg R.DBG_REQ).toNat % 8 = 0 ∧ (s.reg R.DBG_ADDR_LO).toNat ∈ [R.SEM_CTRL, R.PWR_TOL, R.FLT_ISB] →
    Completes (.dbgDataWrite v ecc) s (fun t => (∀ row, hubRow (s.reg R.DBG_ADDR_LO).toNat = some row → t.reg (s.reg R.DBG_ADDR_LO).toNat = row.written (s.reg (s.reg R.DBG_ADDR_LO).toNat) v) ∧
      t.reg R.DBG_DATA = v ∧ t.dbg.ack = 3 ∧ t.bus = [] ∧ t.rgns = s.rgns)) ∧
  -- DBG_DATA_READ of the same: WAIT, and the data held
  (∀ (ecc : Ecc) (s : State),
    PortOpen s ∧ s.bus = [] ∧ s.dbg.held = none ∧ (s.reg R.DBG_REQ).toNat % 8 = 0 →
    (s.reg R.DBG_ADDR_LO).toNat ∈ [R.SEM_CTRL, R.PWR_TOL, R.FLT_ISB] →
    Completes (.dbgDataRead ecc) s (fun t => t.dbg.ack = 5 ∧ t.dbg.held = some ((s.reg (s.reg R.DBG_ADDR_LO).toNat).zeroExtend 64) ∧ t.regs = s.regs ∧ t.rgns = s.rgns)) ∧
  -- and its data returned
  (∀ (v : Entry) (ecc : Ecc) (s : State),
    PortOpen s ∧ s.dbg.held = some v ∧ (s.reg R.DBG_REQ).toNat % 8 = 0 →
    Completes (.dbgDataRead ecc) s (fun t => t.dbg.ack = 3 ∧ t.dbg.out = v.truncate 32 ∧ t.reg R.DBG_DATA = v.truncate 32 ∧ t.dbg.held = none ∧ t.rgns = s.rgns)) ∧
  -- while an error stands (R407)
  (∀ (ecc : Ecc) (s : State),
    PortIdle s ∧ s.attached = true ∧ s.f F.DBG_STATUS_ERR ≠ 0 →
    Completes (.dbgDataRead ecc) s (fun t => t = { s with dbg := { s.dbg with ack := 6 } })) ∧
  -- ERR_CLR (R408)
  (∀ (s : State),
    PortIdle s →
    Completes (.errClr) s (fun t => t.f F.DBG_STATUS_ERR = 0 ∧ t.f F.DBG_STATUS_HDR_ERR = s.f F.DBG_STATUS_HDR_ERR ∧ t.dbg.ack = 3 ∧ t.rgns = s.rgns))

/-- HALT stops a running core where it stands, with cause 1; a core that is STOPPED, or not halted where it must be, gives STATE.
RESUME lets it continue, STEP lets it continue for one instruction. A write of CLAIM claims the units of its mask and restores the
others. CORE_VAL reads and writes a register of a halted core. A fed instruction acts as in a program and leaves PC; WAIT, LOOP
and BRK are not performed. Each clause concludes that exec answers a next state, from conditions on the state and the operands
alone, for: halt, coreResume, step_, claim, coreVal, feed. That HALT acts at once at a boundary or waits for the reset's end, and
the cases of the STATE code, are log entry 84. -/
def Obligations.HaltedCores : Prop :=
  -- HALT (R414) of a core that runs
  (∀ (rg : Rg) (k : CoreNo) (s : State),
    CorePort s rg k false ∧ s.rf rg F.RGN_STATUS_CFG = 1 ∧ s.rf rg (F.EAS_STATUS_STATE k.val) = 1 ∧ (s.rgn rg).waiting.testBit k.val = false →
    Completes (.halt) s (fun t => t.coreHalted rg k = true ∧ (t.eas rg k).dbg.cause = 1 ∧ t.eas rg k = { s.eas rg k with grant := 0, fetched := (t.eas rg k).fetched, dbg := (t.eas rg k).dbg, patchOld := [] } ∧ t.dbg.ack = 3 ∧ t.f F.DBG_STATUS_ERR = 0 ∧
      (∀ rh : Rg, rh ≠ rg → t.rgn rh = s.rgn rh))) ∧
  -- of one that is STOPPED
  (∀ (rg : Rg) (k : CoreNo) (s : State),
    CorePort s rg k false ∧ s.rf rg (F.EAS_STATUS_STATE k.val) = 3 →
    Completes (.halt) s (fun t => t.f F.DBG_STATUS_ERR = 6 ∧ t.coreHalted rg k = false ∧ SameCore s t rg k)) ∧
  -- of one in reset: it waits for the end of the reset
  (∀ (rg : Rg) (k : CoreNo) (s : State),
    CorePort s rg k false ∧ s.rf rg F.RGN_STATUS_CFG = 1 ∧ s.rf rg (F.EAS_STATUS_STATE k.val) = 0 →
    Completes (.halt) s (fun t => t.f F.DBG_STATUS_ERR = 0 ∧ t.coreHalted rg k = false ∧ (t.eas rg k).dbg.haltReq = true ∧ SameCore s t rg k)) ∧
  -- RESUME (R415)
  (∀ (rg : Rg) (k : CoreNo) (s : State),
    CorePort s rg k true →
    Completes (.coreResume) s (fun t => t.coreHalted rg k = false ∧ (t.eas rg k).dbg.stepping = false ∧ (t.eas rg k).pc = (s.eas rg k).pc ∧ (t.eas rg k).r = (s.eas rg k).r ∧ (t.eas rg k).sr = (s.eas rg k).sr ∧
      (t.f F.DBG_STATUS_ERR = 0 ∧ t.dbg.ack = 3 ∧ ∀ rh : Rg, rh ≠ rg → t.rgn rh = s.rgn rh))) ∧
  (∀ (rg : Rg) (k : CoreNo) (s : State),
    CorePort s rg k false →
    Completes (.coreResume) s (fun t => t.f F.DBG_STATUS_ERR = 6 ∧ t.coreHalted rg k = false ∧ SameCore s t rg k)) ∧
  -- STEP (R415)
  (∀ (rg : Rg) (k : CoreNo) (s : State),
    CorePort s rg k true →
    Completes (.step_) s (fun t => t.coreHalted rg k = false ∧ (t.eas rg k).dbg.stepping = true ∧ (t.eas rg k).pc = (s.eas rg k).pc ∧ (t.eas rg k).r = (s.eas rg k).r ∧
      (t.f F.DBG_STATUS_ERR = 0 ∧ ∀ rh : Rg, rh ≠ rg → t.rgn rh = s.rgn rh))) ∧
  -- CLAIM (R416)
  (∀ (mask : BitVec 8) (rg : Rg) (k : CoreNo) (s : State),
    PortOpen s ∧ s.selCore = some (rg, k) →
    Completes (.claim mask) s (fun t => (∀ u : Fin 8, t.claimed rg k u.val = mask.getLsbD u.val) ∧
      (∀ u : Fin 8, mask.getLsbD u.val = true → (t.rgn rg).reg (R.EAS_PATCH_WORD k.val u.val) = (s.rgn rg).reg (R.EAS_PATCH_WORD k.val u.val)) ∧
      (t.f F.DBG_STATUS_ERR = 0 ∧ SameCore s t rg k ∧ ∀ rh : Rg, rh ≠ rg → t.rgn rh = s.rgn rh))) ∧
  -- a unit whose bit is 0 gets back what was saved
  (∀ (mask : BitVec 8) (u : Fin 8) (addr : BitVec 15) (en : Bool) (w : Word) (rg : Rg) (k : CoreNo) (s : State),
    PortOpen s ∧ s.selCore = some (rg, k) ∧ s.claimed rg k u.val = true ∧ mask.getLsbD u.val = false →
    SMap.get none (s.eas rg k).dbg.saved u.val = some (w ++ (BitVec.ofBool en ++ addr : BitVec 16)) →
    Completes (.claim mask) s (fun t => t.rf rg (F.EAS_PATCH_ADDR_ADDR k.val u.val) = addr.toNat ∧ t.rf rg (F.EAS_PATCH_ADDR_EN k.val u.val) = en.toNat ∧ (t.rgn rg).reg (R.EAS_PATCH_WORD k.val u.val) = w)) ∧
  -- CORE_VAL (R417): a register of R326
  (∀ (v : BitVec 16) (rg : Rg) (k : CoreNo) (s : State),
    CorePort s rg k true ∧ s.f F.DBG_CORE_REG_INDEX < 32 →
    Completes (.coreVal (some v)) s (fun t => (coreReg t rg k (s.f F.DBG_CORE_REG_INDEX) = v ∧ (∀ i : Fin 32, i.val ≠ s.f F.DBG_CORE_REG_INDEX → coreReg t rg k i.val = coreReg s rg k i.val)) ∧
      t.eas rg k = { s.eas rg k with r := (t.eas rg k).r } ∧ OnlyRegion rg { s with dbg := t.dbg } t ∧ t.dbg.ack = 3)) ∧
  (∀ (rg : Rg) (k : CoreNo) (s : State),
    CorePort s rg k true ∧ s.f F.DBG_CORE_REG_INDEX < 32 →
    Completes (.coreVal none) s (fun t => t.dbg.out = (coreReg s rg k (s.f F.DBG_CORE_REG_INDEX)).zeroExtend 32 ∧ t.regs = s.regs ∧ t.rgns = s.rgns ∧ t.dbg.ack = 3)) ∧
  -- of a core that is not halted
  (∀ (wr : Option (BitVec 16)) (rg : Rg) (k : CoreNo) (s : State),
    CorePort s rg k false →
    Completes (.coreVal wr) s (fun t => t.f F.DBG_STATUS_ERR = 6 ∧ t.rgns = s.rgns)) ∧
  -- FEED (R418): LDI as an example, PC unchanged
  (∀ (w : Word) (ecc : Ecc) (rg : Rg) (k : CoreNo) (s : State),
    CorePort s rg k true ∧ s.clocked rg = true ∧ insnOp w = 0x0E →
    Completes (.feed w ecc) s (fun t => RegBecomes s t rg k (insnRd w) (insnImm w) ∧ (t.eas rg k).pc = (s.eas rg k).pc ∧ t.coreHalted rg k = true ∧ t.f F.DBG_STATUS_ERR = 0)) ∧
  -- LOOP, WAIT, BRK
  (∀ (w : Word) (ecc : Ecc) (rg : Rg) (k : CoreNo) (s : State),
    CorePort s rg k true ∧ s.clocked rg = true ∧ insnOp w ∈ [0x24, 0x26, 0x29] →
    Completes (.feed w ecc) s (fun t => t.f F.DBG_STATUS_ERR = 7 ∧ SameCore s t rg k)) ∧
  -- to a core that is not halted
  (∀ (w : Word) (ecc : Ecc) (rg : Rg) (k : CoreNo) (s : State),
    CorePort s rg k false →
    Completes (.feed w ecc) s (fun t => t.f F.DBG_STATUS_ERR = 6 ∧ t.rgns = s.rgns))

/-- ARM with 0xA5 in a session arms the mode; where the entry is locked it is denied. GO in time with 0x5A and the same mode
isolates every region and parks every pin; out of time, or without the arming, it is denied. TEST_ENTRY_DONE leaves the stores
empty, sets CLEARED and enters the mode; it does nothing else at other times. Each clause concludes that exec answers a next
state, from conditions on the state and the operands alone, for: privArm, privGo, testEntryDone. DENIED of a locked port at ARM
0xA5 is log entry 87. -/
def Obligations.TestEntry : Prop :=
  -- PRIV_ARM (R419)
  (∀ (mode : BitVec 2) (s : State),
    (PortOpen s ∧ s.dbg.testing = none ∧ s.fuses.testDisable = false ∧ (mode = 1 ∨ mode = 2)) →
    Completes (.privArm mode 0xA5) s (fun t => t.dbg.armed = some mode ∧ t.dbg.armedAt = s.now ∧ t.dbg.testing = none ∧ t.f F.DBG_STATUS_ERR = 0 ∧ t.rgns = s.rgns)) ∧
  -- locked
  (∀ (mode : BitVec 2) (s : State),
    PortOpen s ∧ s.dbg.testing = none ∧ s.fuses.testDisable = true →
    Completes (.privArm mode 0xA5) s (fun t => t.dbg.armed = none ∧ t.f F.DBG_STATUS_ERR = 4 ∧ t.rgns = s.rgns)) ∧
  -- PRIV_GO in time (R420)
  (∀ (mode : BitVec 2) (since : Word) (s : State),
    PortOpen s ∧ s.dbg.testing = none ∧ s.fuses.testDisable = false ∧ s.dbg.armed = some mode →
    s.nowAt since ≤ s.dbg.armedAt + 100000 →
    Completes (.privGo mode 0x5A since) s (fun t => (t.dbg.testing = some mode ∧ t.gpio.parked = 0xFFF ∧ ∀ rg : Rg, t.rbit rg F.RGN_CTRL_ISOLATE = true))) ∧
  -- a broken sequence
  (∀ (mode : BitVec 2) (arm : BitVec 8) (since : Word) (s : State),
    (PortOpen s ∧ s.dbg.testing = none ∧ (s.dbg.armedAt + 100000 < s.nowAt since ∨ arm ≠ 0x5A ∨ s.dbg.armed ≠ some mode ∨ s.fuses.testDisable = true)) →
    Completes (.privGo mode arm since) s (fun t => t.dbg.testing = none ∧ t.dbg.armed = none ∧ t.f F.DBG_STATUS_ERR = 4 ∧ t.rgns = s.rgns)) ∧
  -- TEST_ENTRY_DONE (R420)
  (∀ (mode : BitVec 2) (s : State),
    s.dbg.testing = some mode ∧ s.f F.DBG_STATUS_TESTMODE = 0 →
    Completes (.testEntryDone) s (fun t => t.f F.DBG_STATUS_TESTMODE = 1 ∧ t.f F.DBG_STATUS_CLEARED = 1 ∧ t.sram = [] ∧ t.library = [] ∧ t.keys = [] ∧
      (∀ rg : Rg, (t.rgn rg).strokes = [] ∧ (t.rgn rg).dmem = [] ∧ (t.rgn rg).ring = [] ∧ (t.rgn rg).canvas = []) ∧
      (∀ (rg : Rg) (k : CoreNo), (t.eas rg k).prog = [] ∧ (t.eas rg k).x = [] ∧ (t.eas rg k).y = []) ∧
      (∀ (rg : Rg) (c : Cl), (t.cl rg c).pal = [] ∧ (t.cl rg c).next = [] ∧ (t.cl rg c).exch = [] ∧ (t.cl rg c).ports = []) ∧
      t.load.stage = [] ∧ t.rtc.keys = [])) ∧
  (∀ (s : State),
    s.dbg.testing = none →
    Completes (.testEntryDone) s (fun t => t = s))

/-- The trace writer's grant appends the header and two payload words: word 0 holds PROBE in bits 9 to 0, CLUSTER in bits 13 to
10, STROKE in bits 24 to 14 and 0 above, word 1 the 64 bits of the source entry. Each clause concludes that exec answers a next
state, from conditions on the state and the operands alone, for: trace. -/
def Obligations.TraceRecordWords : Prop :=
  (∀ (rg : Rg) (x : ProbeRec) (xs : List ProbeRec) (s : State),
    (s.rgn rg).rwd.probes = x :: xs ∧ s.rf rg F.DMEM_STATUS_OWNER = 4 ∧ RingReady (s.rgn rg) 3 →
    Completes (.trace rg) s (fun t => (∃ h w0 w1 : Entry, RingAppended (s.rgn rg) (t.rgn rg) [h, w0, w1] ∧
      bitsAt w0 0 10 = x.num ∧ bitsAt w0 10 4 = x.c ∧ bitsAt w0 14 11 = x.stroke ∧ bitsAt w0 25 39 = (0 : BitVec 39) ∧ w1 = x.data)))

/-- While CFG.STATUS.ENC or RTC.STATUS.ENC_SEEN is 1, READBACK of KIND 2 sets RTC.RB_STATUS.REFUSED and captures nothing. The
package reset, once its drain has ended, leaves the hub SRAM (the readback area in it) and the staging window empty. Each clause
concludes that exec answers a next state, from conditions on the state and the operands alone, for: readback, neighbourDrainEnd. -/
def Obligations.ReadbackOfConfiguration : Prop :=
  (∀ (rg : Rg) (s : State),
    (s.f F.CFG_STATUS_ENC = 1 ∨ s.f F.RTC_STATUS_ENC_SEEN = 1) →
    Completes (.readback 2 rg) s (fun t => t.f F.RTC_RB_STATUS_REFUSED = 1 ∧ t.rtc = s.rtc ∧ t.sram = s.sram ∧ t.rgns = s.rgns)) ∧
  (∀ (s : State),
    s.drainOf 4 = .reset →
    Completes (.neighbourDrainEnd .package) s (fun t => ((∀ a : Nat, byteAt t.sram a = 0) ∧ t.load.stage = [])))

/-- The header at the head of an input of a region router whose route, by the override table or by dimension order, is ABSORB or
an output marked in NOC.ISO: a request that has an answer leaves the input once the router's own response input has a place, and
the router queues the ISOLATED response there for its source (in a test mode, where R420 has every request answered so,
POWERING_DOWN); a response leaves the input and is counted in NOC.REFUSE.ABSORBED. Each clause concludes that exec answers a next
state, from conditions on the state and the operands alone, for: headerFlitRoute. -/
def Obligations.IsolatedOutputs : Prop :=
  (∀ (rg : Rg) (inp : BitVec 3) (vc : BitVec 2) (o : Nat) (re : Bool) (p : Packet) (rest : List Packet) (s : State),
    s.queue (netKey rg.toNat inp.toNat vc.toNat) = p :: rest ∧ vc ≠ 2 ∧ s.rf rg F.NOC_STATUS_DRAINING = 0 ∧ s.behind (netKey rg.toNat inp.toNat vc.toNat) = 0 →
    (overrideOf (s.rgn rg) p.dest none).getD (routeOut s rg p.dest, false) = (o, re) →
    (o = 6 ∨ (o ≠ 4 ∧ (s.rf rg F.NOC_ISO_OUT).testBit o = true)) →
    p.isResp = false ∧ p.unanswered = false →
    s.waiting (netKey rg.toNat (ownInput (.router rg)) 2) < 8 →
    Completes (.headerFlitRoute rg inp vc 0 [] .clean) s (fun t => t.queue (netKey rg.toNat inp.toNat vc.toNat) = rest ∧ t.arrived = s.arrived ∧
      t.queue (netKey rg.toNat (ownInput (.router rg)) 2) = s.queue (netKey rg.toNat (ownInput (.router rg)) 2) ++ [s.answer p 0x12 (if s.dbg.testing.isSome then 3 else 2) []])) ∧
  (∀ (rg : Rg) (inp : BitVec 3) (vc : BitVec 2) (o : Nat) (re : Bool) (p : Packet) (rest : List Packet) (s : State),
    s.queue (netKey rg.toNat inp.toNat vc.toNat) = p :: rest ∧ s.rf rg F.NOC_STATUS_DRAINING = 0 ∧ s.behind (netKey rg.toNat inp.toNat vc.toNat) = 0 →
    (overrideOf (s.rgn rg) p.dest none).getD (routeOut s rg p.dest, false) = (o, re) →
    (o = 6 ∨ (o ≠ 4 ∧ (s.rf rg F.NOC_ISO_OUT).testBit o = true)) →
    p.isResp = true →
    Completes (.headerFlitRoute rg inp vc 0 [] .clean) s (fun t => t.queue (netKey rg.toNat inp.toNat vc.toNat) = rest ∧ t.arrived = s.arrived ∧
      t.rf rg F.NOC_REFUSE_ABSORBED = min (s.rf rg F.NOC_REFUSE_ABSORBED + 1) F.NOC_REFUSE_ABSORBED.max))

/-- The queue of commands is empty; the hub's identity registers read their values; every region reads UNCONFIGURED with its fix
engine OFF, no job and no store written; the network, the scheduled plane, the hub SRAM and the project key slots are empty; no
debug session is open and every GPIO pin is parked. -/
def Obligations.ResetState : Prop :=
  State.reset.pending = [] ∧ State.reset.bus = [] ∧ State.reset.net = [] ∧ State.reset.sched = [] ∧ State.reset.sram = [] ∧ State.reset.keys = [] ∧
  State.reset.attached = false ∧ State.reset.gpio.parked = 0xFFF ∧ hubView State.reset R.DBG_ID = 0x100C0001 ∧ hubView State.reset R.HUB_ID = 0xC0001 ∧
  (∀ rg : Rg, State.reset.rf rg F.RGN_STATUS_CFG = 0 ∧ State.reset.rf rg F.FIX_STATUS_STATE = 0 ∧ State.reset.rf rg F.RGN_STATUS_IN_JOB = 0 ∧
    (State.reset.rgn rg).strokes = [] ∧ (State.reset.rgn rg).dmem = [] ∧ (State.reset.rgn rg).ring = [] ∧ (State.reset.rgn rg).canvas = [])

/-- At reset the registers, regions and jobs and the byte memories of the hub are in canonical form. -/
def Obligations.ResetIsCanonical : Prop :=
  Canonical State.reset

/-- For every command c, queue and state: with c at the front, step answers what exec answers for c on the state whose queue is
the rest. -/
def Obligations.StepTakesTheFront : Prop :=
  ∀ (c : Instr) (rest : List Instr) (s : State), step { s with pending := c :: rest } = exec c { s with pending := rest }

/-- With no command waiting, and with the package powered, a step advances MER.TICK by one unless a slew omits this tick; the
queue stays empty. That an empty queue lets a tick pass is the model's choice, log entry 3; that the count rises by one at a tick
is R32. -/
def Obligations.EmptyQueueIsATick : Prop :=
  ∀ s : State, s.pending = [] → s.portUp = true →
    ∃ t, step s = .next t ∧ t.pending = [] ∧ t.mer.tick = (if s.mer.omitted then s.mer.tick else s.mer.tick + 1) ∧ t.mer.omitted = false

/-- Every command, in every state, answers a next state. That this holds also where the event of a command cannot happen, and the
state then stays as it is, is the model's choice (log entry 5). -/
def Obligations.EveryCommandCompletes : Prop :=
  ∀ (c : Instr) (s : State), ∃ t, exec c s = .next t

/-- For every state: a step that answers a next state leaves in the queue what stood behind its front; every fuse slot that was
programmed or revoked stays so, a programmed slot keeps its hash, and the TEST_DISABLE fuse is as it was. -/
def Obligations.StepKeepsTheQueueAndFuses : Prop :=
  ∀ s t : State, step s = .next t → t.pending = s.pending.tail ∧ FusesKept s t

/-- For every state in which the hub registers have rising addresses, the regions and jobs list no entry at its default, and the
hub SRAM and the library are in the one canonical form of a byte memory: after every step they are again, so that equal contents
are equal data. -/
def Obligations.StepKeepsCanonicalForms : Prop :=
  ∀ s t : State, Canonical s → step s = .next t → Canonical t
end

