-- ==== Sys2Proof/Laws/State.lean ====
section
/-! SUPPORT. For every update of the state and of a region, what it leaves of every field. -/

namespace Sys2Proof.Machine

/-! ### State.setReg -/

@[simp] theorem State.setReg_pending (s : State) (a : Nat) (v : Word) : (s.setReg a v).pending = s.pending := rfl
@[simp] theorem State.setReg_rgns (s : State) (a : Nat) (v : Word) : (s.setReg a v).rgns = s.rgns := rfl
@[simp] theorem State.setReg_jobs (s : State) (a : Nat) (v : Word) : (s.setReg a v).jobs = s.jobs := rfl
@[simp] theorem State.setReg_mer (s : State) (a : Nat) (v : Word) : (s.setReg a v).mer = s.mer := rfl
@[simp] theorem State.setReg_faultQ (s : State) (a : Nat) (v : Word) : (s.setReg a v).faultQ = s.faultQ := rfl
@[simp] theorem State.setReg_bursts (s : State) (a : Nat) (v : Word) : (s.setReg a v).bursts = s.bursts := rfl
@[simp] theorem State.setReg_taints (s : State) (a : Nat) (v : Word) : (s.setReg a v).taints = s.taints := rfl
@[simp] theorem State.setReg_net (s : State) (a : Nat) (v : Word) : (s.setReg a v).net = s.net := rfl
@[simp] theorem State.setReg_trail (s : State) (a : Nat) (v : Word) : (s.setReg a v).trail = s.trail := rfl
@[simp] theorem State.setReg_order (s : State) (a : Nat) (v : Word) : (s.setReg a v).order = s.order := rfl
@[simp] theorem State.setReg_wires (s : State) (a : Nat) (v : Word) : (s.setReg a v).wires = s.wires := rfl
@[simp] theorem State.setReg_arrived (s : State) (a : Nat) (v : Word) : (s.setReg a v).arrived = s.arrived := rfl
@[simp] theorem State.setReg_sched (s : State) (a : Nat) (v : Word) : (s.setReg a v).sched = s.sched := rfl
@[simp] theorem State.setReg_tags (s : State) (a : Nat) (v : Word) : (s.setReg a v).tags = s.tags := rfl
@[simp] theorem State.setReg_ports (s : State) (a : Nat) (v : Word) : (s.setReg a v).ports = s.ports := rfl
@[simp] theorem State.setReg_fab (s : State) (a : Nat) (v : Word) : (s.setReg a v).fab = s.fab := rfl
@[simp] theorem State.setReg_d2dFails (s : State) (a : Nat) (v : Word) : (s.setReg a v).d2dFails = s.d2dFails := rfl
@[simp] theorem State.setReg_refusing (s : State) (a : Nat) (v : Word) : (s.setReg a v).refusing = s.refusing := rfl
@[simp] theorem State.setReg_applying (s : State) (a : Nat) (v : Word) : (s.setReg a v).applying = s.applying := rfl
@[simp] theorem State.setReg_library (s : State) (a : Nat) (v : Word) : (s.setReg a v).library = s.library := rfl
@[simp] theorem State.setReg_sram (s : State) (a : Nat) (v : Word) : (s.setReg a v).sram = s.sram := rfl
@[simp] theorem State.setReg_windowFixes (s : State) (a : Nat) (v : Word) : (s.setReg a v).windowFixes = s.windowFixes := rfl
@[simp] theorem State.setReg_tracks (s : State) (a : Nat) (v : Word) : (s.setReg a v).tracks = s.tracks := rfl
@[simp] theorem State.setReg_flash (s : State) (a : Nat) (v : Word) : (s.setReg a v).flash = s.flash := rfl
@[simp] theorem State.setReg_fuses (s : State) (a : Nat) (v : Word) : (s.setReg a v).fuses = s.fuses := rfl
@[simp] theorem State.setReg_keys (s : State) (a : Nat) (v : Word) : (s.setReg a v).keys = s.keys := rfl
@[simp] theorem State.setReg_load (s : State) (a : Nat) (v : Word) : (s.setReg a v).load = s.load := rfl
@[simp] theorem State.setReg_rtc (s : State) (a : Nat) (v : Word) : (s.setReg a v).rtc = s.rtc := rfl
@[simp] theorem State.setReg_scr (s : State) (a : Nat) (v : Word) : (s.setReg a v).scr = s.scr := rfl
@[simp] theorem State.setReg_pwr (s : State) (a : Nat) (v : Word) : (s.setReg a v).pwr = s.pwr := rfl
@[simp] theorem State.setReg_bist (s : State) (a : Nat) (v : Word) : (s.setReg a v).bist = s.bist := rfl
@[simp] theorem State.setReg_i3c (s : State) (a : Nat) (v : Word) : (s.setReg a v).i3c = s.i3c := rfl
@[simp] theorem State.setReg_bus (s : State) (a : Nat) (v : Word) : (s.setReg a v).bus = s.bus := rfl
@[simp] theorem State.setReg_gpio (s : State) (a : Nat) (v : Word) : (s.setReg a v).gpio = s.gpio := rfl
@[simp] theorem State.setReg_dbg (s : State) (a : Nat) (v : Word) : (s.setReg a v).dbg = s.dbg := rfl
@[simp] theorem State.setReg_drawn (s : State) (a : Nat) (v : Word) : (s.setReg a v).drawn = s.drawn := rfl

/-! ### State.setF -/

@[simp] theorem State.setF_pending (s : State) (f : Fld) (n : Nat) : (s.setF f n).pending = s.pending := rfl
@[simp] theorem State.setF_rgns (s : State) (f : Fld) (n : Nat) : (s.setF f n).rgns = s.rgns := rfl
@[simp] theorem State.setF_jobs (s : State) (f : Fld) (n : Nat) : (s.setF f n).jobs = s.jobs := rfl
@[simp] theorem State.setF_mer (s : State) (f : Fld) (n : Nat) : (s.setF f n).mer = s.mer := rfl
@[simp] theorem State.setF_faultQ (s : State) (f : Fld) (n : Nat) : (s.setF f n).faultQ = s.faultQ := rfl
@[simp] theorem State.setF_bursts (s : State) (f : Fld) (n : Nat) : (s.setF f n).bursts = s.bursts := rfl
@[simp] theorem State.setF_taints (s : State) (f : Fld) (n : Nat) : (s.setF f n).taints = s.taints := rfl
@[simp] theorem State.setF_net (s : State) (f : Fld) (n : Nat) : (s.setF f n).net = s.net := rfl
@[simp] theorem State.setF_trail (s : State) (f : Fld) (n : Nat) : (s.setF f n).trail = s.trail := rfl
@[simp] theorem State.setF_order (s : State) (f : Fld) (n : Nat) : (s.setF f n).order = s.order := rfl
@[simp] theorem State.setF_wires (s : State) (f : Fld) (n : Nat) : (s.setF f n).wires = s.wires := rfl
@[simp] theorem State.setF_arrived (s : State) (f : Fld) (n : Nat) : (s.setF f n).arrived = s.arrived := rfl
@[simp] theorem State.setF_sched (s : State) (f : Fld) (n : Nat) : (s.setF f n).sched = s.sched := rfl
@[simp] theorem State.setF_tags (s : State) (f : Fld) (n : Nat) : (s.setF f n).tags = s.tags := rfl
@[simp] theorem State.setF_ports (s : State) (f : Fld) (n : Nat) : (s.setF f n).ports = s.ports := rfl
@[simp] theorem State.setF_fab (s : State) (f : Fld) (n : Nat) : (s.setF f n).fab = s.fab := rfl
@[simp] theorem State.setF_d2dFails (s : State) (f : Fld) (n : Nat) : (s.setF f n).d2dFails = s.d2dFails := rfl
@[simp] theorem State.setF_refusing (s : State) (f : Fld) (n : Nat) : (s.setF f n).refusing = s.refusing := rfl
@[simp] theorem State.setF_applying (s : State) (f : Fld) (n : Nat) : (s.setF f n).applying = s.applying := rfl
@[simp] theorem State.setF_library (s : State) (f : Fld) (n : Nat) : (s.setF f n).library = s.library := rfl
@[simp] theorem State.setF_sram (s : State) (f : Fld) (n : Nat) : (s.setF f n).sram = s.sram := rfl
@[simp] theorem State.setF_windowFixes (s : State) (f : Fld) (n : Nat) : (s.setF f n).windowFixes = s.windowFixes := rfl
@[simp] theorem State.setF_tracks (s : State) (f : Fld) (n : Nat) : (s.setF f n).tracks = s.tracks := rfl
@[simp] theorem State.setF_flash (s : State) (f : Fld) (n : Nat) : (s.setF f n).flash = s.flash := rfl
@[simp] theorem State.setF_fuses (s : State) (f : Fld) (n : Nat) : (s.setF f n).fuses = s.fuses := rfl
@[simp] theorem State.setF_keys (s : State) (f : Fld) (n : Nat) : (s.setF f n).keys = s.keys := rfl
@[simp] theorem State.setF_load (s : State) (f : Fld) (n : Nat) : (s.setF f n).load = s.load := rfl
@[simp] theorem State.setF_rtc (s : State) (f : Fld) (n : Nat) : (s.setF f n).rtc = s.rtc := rfl
@[simp] theorem State.setF_scr (s : State) (f : Fld) (n : Nat) : (s.setF f n).scr = s.scr := rfl
@[simp] theorem State.setF_pwr (s : State) (f : Fld) (n : Nat) : (s.setF f n).pwr = s.pwr := rfl
@[simp] theorem State.setF_bist (s : State) (f : Fld) (n : Nat) : (s.setF f n).bist = s.bist := rfl
@[simp] theorem State.setF_i3c (s : State) (f : Fld) (n : Nat) : (s.setF f n).i3c = s.i3c := rfl
@[simp] theorem State.setF_bus (s : State) (f : Fld) (n : Nat) : (s.setF f n).bus = s.bus := rfl
@[simp] theorem State.setF_gpio (s : State) (f : Fld) (n : Nat) : (s.setF f n).gpio = s.gpio := rfl
@[simp] theorem State.setF_dbg (s : State) (f : Fld) (n : Nat) : (s.setF f n).dbg = s.dbg := rfl
@[simp] theorem State.setF_drawn (s : State) (f : Fld) (n : Nat) : (s.setF f n).drawn = s.drawn := rfl

/-! ### State.bump -/

@[simp] theorem State.bump_pending (s : State) (f : Fld) (k : Nat) : (s.bump f k).pending = s.pending := rfl
@[simp] theorem State.bump_rgns (s : State) (f : Fld) (k : Nat) : (s.bump f k).rgns = s.rgns := rfl
@[simp] theorem State.bump_jobs (s : State) (f : Fld) (k : Nat) : (s.bump f k).jobs = s.jobs := rfl
@[simp] theorem State.bump_mer (s : State) (f : Fld) (k : Nat) : (s.bump f k).mer = s.mer := rfl
@[simp] theorem State.bump_faultQ (s : State) (f : Fld) (k : Nat) : (s.bump f k).faultQ = s.faultQ := rfl
@[simp] theorem State.bump_bursts (s : State) (f : Fld) (k : Nat) : (s.bump f k).bursts = s.bursts := rfl
@[simp] theorem State.bump_taints (s : State) (f : Fld) (k : Nat) : (s.bump f k).taints = s.taints := rfl
@[simp] theorem State.bump_net (s : State) (f : Fld) (k : Nat) : (s.bump f k).net = s.net := rfl
@[simp] theorem State.bump_trail (s : State) (f : Fld) (k : Nat) : (s.bump f k).trail = s.trail := rfl
@[simp] theorem State.bump_order (s : State) (f : Fld) (k : Nat) : (s.bump f k).order = s.order := rfl
@[simp] theorem State.bump_wires (s : State) (f : Fld) (k : Nat) : (s.bump f k).wires = s.wires := rfl
@[simp] theorem State.bump_arrived (s : State) (f : Fld) (k : Nat) : (s.bump f k).arrived = s.arrived := rfl
@[simp] theorem State.bump_sched (s : State) (f : Fld) (k : Nat) : (s.bump f k).sched = s.sched := rfl
@[simp] theorem State.bump_tags (s : State) (f : Fld) (k : Nat) : (s.bump f k).tags = s.tags := rfl
@[simp] theorem State.bump_ports (s : State) (f : Fld) (k : Nat) : (s.bump f k).ports = s.ports := rfl
@[simp] theorem State.bump_fab (s : State) (f : Fld) (k : Nat) : (s.bump f k).fab = s.fab := rfl
@[simp] theorem State.bump_d2dFails (s : State) (f : Fld) (k : Nat) : (s.bump f k).d2dFails = s.d2dFails := rfl
@[simp] theorem State.bump_refusing (s : State) (f : Fld) (k : Nat) : (s.bump f k).refusing = s.refusing := rfl
@[simp] theorem State.bump_applying (s : State) (f : Fld) (k : Nat) : (s.bump f k).applying = s.applying := rfl
@[simp] theorem State.bump_library (s : State) (f : Fld) (k : Nat) : (s.bump f k).library = s.library := rfl
@[simp] theorem State.bump_sram (s : State) (f : Fld) (k : Nat) : (s.bump f k).sram = s.sram := rfl
@[simp] theorem State.bump_windowFixes (s : State) (f : Fld) (k : Nat) : (s.bump f k).windowFixes = s.windowFixes := rfl
@[simp] theorem State.bump_tracks (s : State) (f : Fld) (k : Nat) : (s.bump f k).tracks = s.tracks := rfl
@[simp] theorem State.bump_flash (s : State) (f : Fld) (k : Nat) : (s.bump f k).flash = s.flash := rfl
@[simp] theorem State.bump_fuses (s : State) (f : Fld) (k : Nat) : (s.bump f k).fuses = s.fuses := rfl
@[simp] theorem State.bump_keys (s : State) (f : Fld) (k : Nat) : (s.bump f k).keys = s.keys := rfl
@[simp] theorem State.bump_load (s : State) (f : Fld) (k : Nat) : (s.bump f k).load = s.load := rfl
@[simp] theorem State.bump_rtc (s : State) (f : Fld) (k : Nat) : (s.bump f k).rtc = s.rtc := rfl
@[simp] theorem State.bump_scr (s : State) (f : Fld) (k : Nat) : (s.bump f k).scr = s.scr := rfl
@[simp] theorem State.bump_pwr (s : State) (f : Fld) (k : Nat) : (s.bump f k).pwr = s.pwr := rfl
@[simp] theorem State.bump_bist (s : State) (f : Fld) (k : Nat) : (s.bump f k).bist = s.bist := rfl
@[simp] theorem State.bump_i3c (s : State) (f : Fld) (k : Nat) : (s.bump f k).i3c = s.i3c := rfl
@[simp] theorem State.bump_bus (s : State) (f : Fld) (k : Nat) : (s.bump f k).bus = s.bus := rfl
@[simp] theorem State.bump_gpio (s : State) (f : Fld) (k : Nat) : (s.bump f k).gpio = s.gpio := rfl
@[simp] theorem State.bump_dbg (s : State) (f : Fld) (k : Nat) : (s.bump f k).dbg = s.dbg := rfl
@[simp] theorem State.bump_drawn (s : State) (f : Fld) (k : Nat) : (s.bump f k).drawn = s.drawn := rfl

/-! ### State.set48 -/

@[simp] theorem State.set48_pending (s : State) (lo hi : Nat) (v : BitVec 48) : (s.set48 lo hi v).pending = s.pending := rfl
@[simp] theorem State.set48_rgns (s : State) (lo hi : Nat) (v : BitVec 48) : (s.set48 lo hi v).rgns = s.rgns := rfl
@[simp] theorem State.set48_jobs (s : State) (lo hi : Nat) (v : BitVec 48) : (s.set48 lo hi v).jobs = s.jobs := rfl
@[simp] theorem State.set48_mer (s : State) (lo hi : Nat) (v : BitVec 48) : (s.set48 lo hi v).mer = s.mer := rfl
@[simp] theorem State.set48_faultQ (s : State) (lo hi : Nat) (v : BitVec 48) : (s.set48 lo hi v).faultQ = s.faultQ := rfl
@[simp] theorem State.set48_bursts (s : State) (lo hi : Nat) (v : BitVec 48) : (s.set48 lo hi v).bursts = s.bursts := rfl
@[simp] theorem State.set48_taints (s : State) (lo hi : Nat) (v : BitVec 48) : (s.set48 lo hi v).taints = s.taints := rfl
@[simp] theorem State.set48_net (s : State) (lo hi : Nat) (v : BitVec 48) : (s.set48 lo hi v).net = s.net := rfl
@[simp] theorem State.set48_trail (s : State) (lo hi : Nat) (v : BitVec 48) : (s.set48 lo hi v).trail = s.trail := rfl
@[simp] theorem State.set48_order (s : State) (lo hi : Nat) (v : BitVec 48) : (s.set48 lo hi v).order = s.order := rfl
@[simp] theorem State.set48_wires (s : State) (lo hi : Nat) (v : BitVec 48) : (s.set48 lo hi v).wires = s.wires := rfl
@[simp] theorem State.set48_arrived (s : State) (lo hi : Nat) (v : BitVec 48) : (s.set48 lo hi v).arrived = s.arrived := rfl
@[simp] theorem State.set48_sched (s : State) (lo hi : Nat) (v : BitVec 48) : (s.set48 lo hi v).sched = s.sched := rfl
@[simp] theorem State.set48_tags (s : State) (lo hi : Nat) (v : BitVec 48) : (s.set48 lo hi v).tags = s.tags := rfl
@[simp] theorem State.set48_ports (s : State) (lo hi : Nat) (v : BitVec 48) : (s.set48 lo hi v).ports = s.ports := rfl
@[simp] theorem State.set48_fab (s : State) (lo hi : Nat) (v : BitVec 48) : (s.set48 lo hi v).fab = s.fab := rfl
@[simp] theorem State.set48_d2dFails (s : State) (lo hi : Nat) (v : BitVec 48) : (s.set48 lo hi v).d2dFails = s.d2dFails := rfl
@[simp] theorem State.set48_refusing (s : State) (lo hi : Nat) (v : BitVec 48) : (s.set48 lo hi v).refusing = s.refusing := rfl
@[simp] theorem State.set48_applying (s : State) (lo hi : Nat) (v : BitVec 48) : (s.set48 lo hi v).applying = s.applying := rfl
@[simp] theorem State.set48_library (s : State) (lo hi : Nat) (v : BitVec 48) : (s.set48 lo hi v).library = s.library := rfl
@[simp] theorem State.set48_sram (s : State) (lo hi : Nat) (v : BitVec 48) : (s.set48 lo hi v).sram = s.sram := rfl
@[simp] theorem State.set48_windowFixes (s : State) (lo hi : Nat) (v : BitVec 48) : (s.set48 lo hi v).windowFixes = s.windowFixes := rfl
@[simp] theorem State.set48_tracks (s : State) (lo hi : Nat) (v : BitVec 48) : (s.set48 lo hi v).tracks = s.tracks := rfl
@[simp] theorem State.set48_flash (s : State) (lo hi : Nat) (v : BitVec 48) : (s.set48 lo hi v).flash = s.flash := rfl
@[simp] theorem State.set48_fuses (s : State) (lo hi : Nat) (v : BitVec 48) : (s.set48 lo hi v).fuses = s.fuses := rfl
@[simp] theorem State.set48_keys (s : State) (lo hi : Nat) (v : BitVec 48) : (s.set48 lo hi v).keys = s.keys := rfl
@[simp] theorem State.set48_load (s : State) (lo hi : Nat) (v : BitVec 48) : (s.set48 lo hi v).load = s.load := rfl
@[simp] theorem State.set48_rtc (s : State) (lo hi : Nat) (v : BitVec 48) : (s.set48 lo hi v).rtc = s.rtc := rfl
@[simp] theorem State.set48_scr (s : State) (lo hi : Nat) (v : BitVec 48) : (s.set48 lo hi v).scr = s.scr := rfl
@[simp] theorem State.set48_pwr (s : State) (lo hi : Nat) (v : BitVec 48) : (s.set48 lo hi v).pwr = s.pwr := rfl
@[simp] theorem State.set48_bist (s : State) (lo hi : Nat) (v : BitVec 48) : (s.set48 lo hi v).bist = s.bist := rfl
@[simp] theorem State.set48_i3c (s : State) (lo hi : Nat) (v : BitVec 48) : (s.set48 lo hi v).i3c = s.i3c := rfl
@[simp] theorem State.set48_bus (s : State) (lo hi : Nat) (v : BitVec 48) : (s.set48 lo hi v).bus = s.bus := rfl
@[simp] theorem State.set48_gpio (s : State) (lo hi : Nat) (v : BitVec 48) : (s.set48 lo hi v).gpio = s.gpio := rfl
@[simp] theorem State.set48_dbg (s : State) (lo hi : Nat) (v : BitVec 48) : (s.set48 lo hi v).dbg = s.dbg := rfl
@[simp] theorem State.set48_drawn (s : State) (lo hi : Nat) (v : BitVec 48) : (s.set48 lo hi v).drawn = s.drawn := rfl

/-! ### State.setRgn -/

@[simp] theorem State.setRgn_pending (s : State) (rg : Rg) (r : Region) : (s.setRgn rg r).pending = s.pending := rfl
@[simp] theorem State.setRgn_regs (s : State) (rg : Rg) (r : Region) : (s.setRgn rg r).regs = s.regs := rfl
@[simp] theorem State.setRgn_jobs (s : State) (rg : Rg) (r : Region) : (s.setRgn rg r).jobs = s.jobs := rfl
@[simp] theorem State.setRgn_mer (s : State) (rg : Rg) (r : Region) : (s.setRgn rg r).mer = s.mer := rfl
@[simp] theorem State.setRgn_faultQ (s : State) (rg : Rg) (r : Region) : (s.setRgn rg r).faultQ = s.faultQ := rfl
@[simp] theorem State.setRgn_bursts (s : State) (rg : Rg) (r : Region) : (s.setRgn rg r).bursts = s.bursts := rfl
@[simp] theorem State.setRgn_taints (s : State) (rg : Rg) (r : Region) : (s.setRgn rg r).taints = s.taints := rfl
@[simp] theorem State.setRgn_net (s : State) (rg : Rg) (r : Region) : (s.setRgn rg r).net = s.net := rfl
@[simp] theorem State.setRgn_trail (s : State) (rg : Rg) (r : Region) : (s.setRgn rg r).trail = s.trail := rfl
@[simp] theorem State.setRgn_order (s : State) (rg : Rg) (r : Region) : (s.setRgn rg r).order = s.order := rfl
@[simp] theorem State.setRgn_wires (s : State) (rg : Rg) (r : Region) : (s.setRgn rg r).wires = s.wires := rfl
@[simp] theorem State.setRgn_arrived (s : State) (rg : Rg) (r : Region) : (s.setRgn rg r).arrived = s.arrived := rfl
@[simp] theorem State.setRgn_sched (s : State) (rg : Rg) (r : Region) : (s.setRgn rg r).sched = s.sched := rfl
@[simp] theorem State.setRgn_tags (s : State) (rg : Rg) (r : Region) : (s.setRgn rg r).tags = s.tags := rfl
@[simp] theorem State.setRgn_ports (s : State) (rg : Rg) (r : Region) : (s.setRgn rg r).ports = s.ports := rfl
@[simp] theorem State.setRgn_fab (s : State) (rg : Rg) (r : Region) : (s.setRgn rg r).fab = s.fab := rfl
@[simp] theorem State.setRgn_d2dFails (s : State) (rg : Rg) (r : Region) : (s.setRgn rg r).d2dFails = s.d2dFails := rfl
@[simp] theorem State.setRgn_refusing (s : State) (rg : Rg) (r : Region) : (s.setRgn rg r).refusing = s.refusing := rfl
@[simp] theorem State.setRgn_applying (s : State) (rg : Rg) (r : Region) : (s.setRgn rg r).applying = s.applying := rfl
@[simp] theorem State.setRgn_library (s : State) (rg : Rg) (r : Region) : (s.setRgn rg r).library = s.library := rfl
@[simp] theorem State.setRgn_sram (s : State) (rg : Rg) (r : Region) : (s.setRgn rg r).sram = s.sram := rfl
@[simp] theorem State.setRgn_windowFixes (s : State) (rg : Rg) (r : Region) : (s.setRgn rg r).windowFixes = s.windowFixes := rfl
@[simp] theorem State.setRgn_tracks (s : State) (rg : Rg) (r : Region) : (s.setRgn rg r).tracks = s.tracks := rfl
@[simp] theorem State.setRgn_flash (s : State) (rg : Rg) (r : Region) : (s.setRgn rg r).flash = s.flash := rfl
@[simp] theorem State.setRgn_fuses (s : State) (rg : Rg) (r : Region) : (s.setRgn rg r).fuses = s.fuses := rfl
@[simp] theorem State.setRgn_keys (s : State) (rg : Rg) (r : Region) : (s.setRgn rg r).keys = s.keys := rfl
@[simp] theorem State.setRgn_load (s : State) (rg : Rg) (r : Region) : (s.setRgn rg r).load = s.load := rfl
@[simp] theorem State.setRgn_rtc (s : State) (rg : Rg) (r : Region) : (s.setRgn rg r).rtc = s.rtc := rfl
@[simp] theorem State.setRgn_scr (s : State) (rg : Rg) (r : Region) : (s.setRgn rg r).scr = s.scr := rfl
@[simp] theorem State.setRgn_pwr (s : State) (rg : Rg) (r : Region) : (s.setRgn rg r).pwr = s.pwr := rfl
@[simp] theorem State.setRgn_bist (s : State) (rg : Rg) (r : Region) : (s.setRgn rg r).bist = s.bist := rfl
@[simp] theorem State.setRgn_i3c (s : State) (rg : Rg) (r : Region) : (s.setRgn rg r).i3c = s.i3c := rfl
@[simp] theorem State.setRgn_bus (s : State) (rg : Rg) (r : Region) : (s.setRgn rg r).bus = s.bus := rfl
@[simp] theorem State.setRgn_gpio (s : State) (rg : Rg) (r : Region) : (s.setRgn rg r).gpio = s.gpio := rfl
@[simp] theorem State.setRgn_dbg (s : State) (rg : Rg) (r : Region) : (s.setRgn rg r).dbg = s.dbg := rfl
@[simp] theorem State.setRgn_drawn (s : State) (rg : Rg) (r : Region) : (s.setRgn rg r).drawn = s.drawn := rfl

/-! ### State.onRgn -/

@[simp] theorem State.onRgn_pending (s : State) (rg : Rg) (g : Region → Region) : (s.onRgn rg g).pending = s.pending := rfl
@[simp] theorem State.onRgn_regs (s : State) (rg : Rg) (g : Region → Region) : (s.onRgn rg g).regs = s.regs := rfl
@[simp] theorem State.onRgn_jobs (s : State) (rg : Rg) (g : Region → Region) : (s.onRgn rg g).jobs = s.jobs := rfl
@[simp] theorem State.onRgn_mer (s : State) (rg : Rg) (g : Region → Region) : (s.onRgn rg g).mer = s.mer := rfl
@[simp] theorem State.onRgn_faultQ (s : State) (rg : Rg) (g : Region → Region) : (s.onRgn rg g).faultQ = s.faultQ := rfl
@[simp] theorem State.onRgn_bursts (s : State) (rg : Rg) (g : Region → Region) : (s.onRgn rg g).bursts = s.bursts := rfl
@[simp] theorem State.onRgn_taints (s : State) (rg : Rg) (g : Region → Region) : (s.onRgn rg g).taints = s.taints := rfl
@[simp] theorem State.onRgn_net (s : State) (rg : Rg) (g : Region → Region) : (s.onRgn rg g).net = s.net := rfl
@[simp] theorem State.onRgn_trail (s : State) (rg : Rg) (g : Region → Region) : (s.onRgn rg g).trail = s.trail := rfl
@[simp] theorem State.onRgn_order (s : State) (rg : Rg) (g : Region → Region) : (s.onRgn rg g).order = s.order := rfl
@[simp] theorem State.onRgn_wires (s : State) (rg : Rg) (g : Region → Region) : (s.onRgn rg g).wires = s.wires := rfl
@[simp] theorem State.onRgn_arrived (s : State) (rg : Rg) (g : Region → Region) : (s.onRgn rg g).arrived = s.arrived := rfl
@[simp] theorem State.onRgn_sched (s : State) (rg : Rg) (g : Region → Region) : (s.onRgn rg g).sched = s.sched := rfl
@[simp] theorem State.onRgn_tags (s : State) (rg : Rg) (g : Region → Region) : (s.onRgn rg g).tags = s.tags := rfl
@[simp] theorem State.onRgn_ports (s : State) (rg : Rg) (g : Region → Region) : (s.onRgn rg g).ports = s.ports := rfl
@[simp] theorem State.onRgn_fab (s : State) (rg : Rg) (g : Region → Region) : (s.onRgn rg g).fab = s.fab := rfl
@[simp] theorem State.onRgn_d2dFails (s : State) (rg : Rg) (g : Region → Region) : (s.onRgn rg g).d2dFails = s.d2dFails := rfl
@[simp] theorem State.onRgn_refusing (s : State) (rg : Rg) (g : Region → Region) : (s.onRgn rg g).refusing = s.refusing := rfl
@[simp] theorem State.onRgn_applying (s : State) (rg : Rg) (g : Region → Region) : (s.onRgn rg g).applying = s.applying := rfl
@[simp] theorem State.onRgn_library (s : State) (rg : Rg) (g : Region → Region) : (s.onRgn rg g).library = s.library := rfl
@[simp] theorem State.onRgn_sram (s : State) (rg : Rg) (g : Region → Region) : (s.onRgn rg g).sram = s.sram := rfl
@[simp] theorem State.onRgn_windowFixes (s : State) (rg : Rg) (g : Region → Region) : (s.onRgn rg g).windowFixes = s.windowFixes := rfl
@[simp] theorem State.onRgn_tracks (s : State) (rg : Rg) (g : Region → Region) : (s.onRgn rg g).tracks = s.tracks := rfl
@[simp] theorem State.onRgn_flash (s : State) (rg : Rg) (g : Region → Region) : (s.onRgn rg g).flash = s.flash := rfl
@[simp] theorem State.onRgn_fuses (s : State) (rg : Rg) (g : Region → Region) : (s.onRgn rg g).fuses = s.fuses := rfl
@[simp] theorem State.onRgn_keys (s : State) (rg : Rg) (g : Region → Region) : (s.onRgn rg g).keys = s.keys := rfl
@[simp] theorem State.onRgn_load (s : State) (rg : Rg) (g : Region → Region) : (s.onRgn rg g).load = s.load := rfl
@[simp] theorem State.onRgn_rtc (s : State) (rg : Rg) (g : Region → Region) : (s.onRgn rg g).rtc = s.rtc := rfl
@[simp] theorem State.onRgn_scr (s : State) (rg : Rg) (g : Region → Region) : (s.onRgn rg g).scr = s.scr := rfl
@[simp] theorem State.onRgn_pwr (s : State) (rg : Rg) (g : Region → Region) : (s.onRgn rg g).pwr = s.pwr := rfl
@[simp] theorem State.onRgn_bist (s : State) (rg : Rg) (g : Region → Region) : (s.onRgn rg g).bist = s.bist := rfl
@[simp] theorem State.onRgn_i3c (s : State) (rg : Rg) (g : Region → Region) : (s.onRgn rg g).i3c = s.i3c := rfl
@[simp] theorem State.onRgn_bus (s : State) (rg : Rg) (g : Region → Region) : (s.onRgn rg g).bus = s.bus := rfl
@[simp] theorem State.onRgn_gpio (s : State) (rg : Rg) (g : Region → Region) : (s.onRgn rg g).gpio = s.gpio := rfl
@[simp] theorem State.onRgn_dbg (s : State) (rg : Rg) (g : Region → Region) : (s.onRgn rg g).dbg = s.dbg := rfl
@[simp] theorem State.onRgn_drawn (s : State) (rg : Rg) (g : Region → Region) : (s.onRgn rg g).drawn = s.drawn := rfl

/-! ### State.setRf -/

@[simp] theorem State.setRf_pending (s : State) (rg : Rg) (f : Fld) (n : Nat) : (s.setRf rg f n).pending = s.pending := rfl
@[simp] theorem State.setRf_regs (s : State) (rg : Rg) (f : Fld) (n : Nat) : (s.setRf rg f n).regs = s.regs := rfl
@[simp] theorem State.setRf_jobs (s : State) (rg : Rg) (f : Fld) (n : Nat) : (s.setRf rg f n).jobs = s.jobs := rfl
@[simp] theorem State.setRf_mer (s : State) (rg : Rg) (f : Fld) (n : Nat) : (s.setRf rg f n).mer = s.mer := rfl
@[simp] theorem State.setRf_faultQ (s : State) (rg : Rg) (f : Fld) (n : Nat) : (s.setRf rg f n).faultQ = s.faultQ := rfl
@[simp] theorem State.setRf_bursts (s : State) (rg : Rg) (f : Fld) (n : Nat) : (s.setRf rg f n).bursts = s.bursts := rfl
@[simp] theorem State.setRf_taints (s : State) (rg : Rg) (f : Fld) (n : Nat) : (s.setRf rg f n).taints = s.taints := rfl
@[simp] theorem State.setRf_net (s : State) (rg : Rg) (f : Fld) (n : Nat) : (s.setRf rg f n).net = s.net := rfl
@[simp] theorem State.setRf_trail (s : State) (rg : Rg) (f : Fld) (n : Nat) : (s.setRf rg f n).trail = s.trail := rfl
@[simp] theorem State.setRf_order (s : State) (rg : Rg) (f : Fld) (n : Nat) : (s.setRf rg f n).order = s.order := rfl
@[simp] theorem State.setRf_wires (s : State) (rg : Rg) (f : Fld) (n : Nat) : (s.setRf rg f n).wires = s.wires := rfl
@[simp] theorem State.setRf_arrived (s : State) (rg : Rg) (f : Fld) (n : Nat) : (s.setRf rg f n).arrived = s.arrived := rfl
@[simp] theorem State.setRf_sched (s : State) (rg : Rg) (f : Fld) (n : Nat) : (s.setRf rg f n).sched = s.sched := rfl
@[simp] theorem State.setRf_tags (s : State) (rg : Rg) (f : Fld) (n : Nat) : (s.setRf rg f n).tags = s.tags := rfl
@[simp] theorem State.setRf_ports (s : State) (rg : Rg) (f : Fld) (n : Nat) : (s.setRf rg f n).ports = s.ports := rfl
@[simp] theorem State.setRf_fab (s : State) (rg : Rg) (f : Fld) (n : Nat) : (s.setRf rg f n).fab = s.fab := rfl
@[simp] theorem State.setRf_d2dFails (s : State) (rg : Rg) (f : Fld) (n : Nat) : (s.setRf rg f n).d2dFails = s.d2dFails := rfl
@[simp] theorem State.setRf_refusing (s : State) (rg : Rg) (f : Fld) (n : Nat) : (s.setRf rg f n).refusing = s.refusing := rfl
@[simp] theorem State.setRf_applying (s : State) (rg : Rg) (f : Fld) (n : Nat) : (s.setRf rg f n).applying = s.applying := rfl
@[simp] theorem State.setRf_library (s : State) (rg : Rg) (f : Fld) (n : Nat) : (s.setRf rg f n).library = s.library := rfl
@[simp] theorem State.setRf_sram (s : State) (rg : Rg) (f : Fld) (n : Nat) : (s.setRf rg f n).sram = s.sram := rfl
@[simp] theorem State.setRf_windowFixes (s : State) (rg : Rg) (f : Fld) (n : Nat) : (s.setRf rg f n).windowFixes = s.windowFixes := rfl
@[simp] theorem State.setRf_tracks (s : State) (rg : Rg) (f : Fld) (n : Nat) : (s.setRf rg f n).tracks = s.tracks := rfl
@[simp] theorem State.setRf_flash (s : State) (rg : Rg) (f : Fld) (n : Nat) : (s.setRf rg f n).flash = s.flash := rfl
@[simp] theorem State.setRf_fuses (s : State) (rg : Rg) (f : Fld) (n : Nat) : (s.setRf rg f n).fuses = s.fuses := rfl
@[simp] theorem State.setRf_keys (s : State) (rg : Rg) (f : Fld) (n : Nat) : (s.setRf rg f n).keys = s.keys := rfl
@[simp] theorem State.setRf_load (s : State) (rg : Rg) (f : Fld) (n : Nat) : (s.setRf rg f n).load = s.load := rfl
@[simp] theorem State.setRf_rtc (s : State) (rg : Rg) (f : Fld) (n : Nat) : (s.setRf rg f n).rtc = s.rtc := rfl
@[simp] theorem State.setRf_scr (s : State) (rg : Rg) (f : Fld) (n : Nat) : (s.setRf rg f n).scr = s.scr := rfl
@[simp] theorem State.setRf_pwr (s : State) (rg : Rg) (f : Fld) (n : Nat) : (s.setRf rg f n).pwr = s.pwr := rfl
@[simp] theorem State.setRf_bist (s : State) (rg : Rg) (f : Fld) (n : Nat) : (s.setRf rg f n).bist = s.bist := rfl
@[simp] theorem State.setRf_i3c (s : State) (rg : Rg) (f : Fld) (n : Nat) : (s.setRf rg f n).i3c = s.i3c := rfl
@[simp] theorem State.setRf_bus (s : State) (rg : Rg) (f : Fld) (n : Nat) : (s.setRf rg f n).bus = s.bus := rfl
@[simp] theorem State.setRf_gpio (s : State) (rg : Rg) (f : Fld) (n : Nat) : (s.setRf rg f n).gpio = s.gpio := rfl
@[simp] theorem State.setRf_dbg (s : State) (rg : Rg) (f : Fld) (n : Nat) : (s.setRf rg f n).dbg = s.dbg := rfl
@[simp] theorem State.setRf_drawn (s : State) (rg : Rg) (f : Fld) (n : Nat) : (s.setRf rg f n).drawn = s.drawn := rfl

/-! ### State.bumpR -/

@[simp] theorem State.bumpR_pending (s : State) (rg : Rg) (f : Fld) (k : Nat) : (s.bumpR rg f k).pending = s.pending := rfl
@[simp] theorem State.bumpR_regs (s : State) (rg : Rg) (f : Fld) (k : Nat) : (s.bumpR rg f k).regs = s.regs := rfl
@[simp] theorem State.bumpR_jobs (s : State) (rg : Rg) (f : Fld) (k : Nat) : (s.bumpR rg f k).jobs = s.jobs := rfl
@[simp] theorem State.bumpR_mer (s : State) (rg : Rg) (f : Fld) (k : Nat) : (s.bumpR rg f k).mer = s.mer := rfl
@[simp] theorem State.bumpR_faultQ (s : State) (rg : Rg) (f : Fld) (k : Nat) : (s.bumpR rg f k).faultQ = s.faultQ := rfl
@[simp] theorem State.bumpR_bursts (s : State) (rg : Rg) (f : Fld) (k : Nat) : (s.bumpR rg f k).bursts = s.bursts := rfl
@[simp] theorem State.bumpR_taints (s : State) (rg : Rg) (f : Fld) (k : Nat) : (s.bumpR rg f k).taints = s.taints := rfl
@[simp] theorem State.bumpR_net (s : State) (rg : Rg) (f : Fld) (k : Nat) : (s.bumpR rg f k).net = s.net := rfl
@[simp] theorem State.bumpR_trail (s : State) (rg : Rg) (f : Fld) (k : Nat) : (s.bumpR rg f k).trail = s.trail := rfl
@[simp] theorem State.bumpR_order (s : State) (rg : Rg) (f : Fld) (k : Nat) : (s.bumpR rg f k).order = s.order := rfl
@[simp] theorem State.bumpR_wires (s : State) (rg : Rg) (f : Fld) (k : Nat) : (s.bumpR rg f k).wires = s.wires := rfl
@[simp] theorem State.bumpR_arrived (s : State) (rg : Rg) (f : Fld) (k : Nat) : (s.bumpR rg f k).arrived = s.arrived := rfl
@[simp] theorem State.bumpR_sched (s : State) (rg : Rg) (f : Fld) (k : Nat) : (s.bumpR rg f k).sched = s.sched := rfl
@[simp] theorem State.bumpR_tags (s : State) (rg : Rg) (f : Fld) (k : Nat) : (s.bumpR rg f k).tags = s.tags := rfl
@[simp] theorem State.bumpR_ports (s : State) (rg : Rg) (f : Fld) (k : Nat) : (s.bumpR rg f k).ports = s.ports := rfl
@[simp] theorem State.bumpR_fab (s : State) (rg : Rg) (f : Fld) (k : Nat) : (s.bumpR rg f k).fab = s.fab := rfl
@[simp] theorem State.bumpR_d2dFails (s : State) (rg : Rg) (f : Fld) (k : Nat) : (s.bumpR rg f k).d2dFails = s.d2dFails := rfl
@[simp] theorem State.bumpR_refusing (s : State) (rg : Rg) (f : Fld) (k : Nat) : (s.bumpR rg f k).refusing = s.refusing := rfl
@[simp] theorem State.bumpR_applying (s : State) (rg : Rg) (f : Fld) (k : Nat) : (s.bumpR rg f k).applying = s.applying := rfl
@[simp] theorem State.bumpR_library (s : State) (rg : Rg) (f : Fld) (k : Nat) : (s.bumpR rg f k).library = s.library := rfl
@[simp] theorem State.bumpR_sram (s : State) (rg : Rg) (f : Fld) (k : Nat) : (s.bumpR rg f k).sram = s.sram := rfl
@[simp] theorem State.bumpR_windowFixes (s : State) (rg : Rg) (f : Fld) (k : Nat) : (s.bumpR rg f k).windowFixes = s.windowFixes := rfl
@[simp] theorem State.bumpR_tracks (s : State) (rg : Rg) (f : Fld) (k : Nat) : (s.bumpR rg f k).tracks = s.tracks := rfl
@[simp] theorem State.bumpR_flash (s : State) (rg : Rg) (f : Fld) (k : Nat) : (s.bumpR rg f k).flash = s.flash := rfl
@[simp] theorem State.bumpR_fuses (s : State) (rg : Rg) (f : Fld) (k : Nat) : (s.bumpR rg f k).fuses = s.fuses := rfl
@[simp] theorem State.bumpR_keys (s : State) (rg : Rg) (f : Fld) (k : Nat) : (s.bumpR rg f k).keys = s.keys := rfl
@[simp] theorem State.bumpR_load (s : State) (rg : Rg) (f : Fld) (k : Nat) : (s.bumpR rg f k).load = s.load := rfl
@[simp] theorem State.bumpR_rtc (s : State) (rg : Rg) (f : Fld) (k : Nat) : (s.bumpR rg f k).rtc = s.rtc := rfl
@[simp] theorem State.bumpR_scr (s : State) (rg : Rg) (f : Fld) (k : Nat) : (s.bumpR rg f k).scr = s.scr := rfl
@[simp] theorem State.bumpR_pwr (s : State) (rg : Rg) (f : Fld) (k : Nat) : (s.bumpR rg f k).pwr = s.pwr := rfl
@[simp] theorem State.bumpR_bist (s : State) (rg : Rg) (f : Fld) (k : Nat) : (s.bumpR rg f k).bist = s.bist := rfl
@[simp] theorem State.bumpR_i3c (s : State) (rg : Rg) (f : Fld) (k : Nat) : (s.bumpR rg f k).i3c = s.i3c := rfl
@[simp] theorem State.bumpR_bus (s : State) (rg : Rg) (f : Fld) (k : Nat) : (s.bumpR rg f k).bus = s.bus := rfl
@[simp] theorem State.bumpR_gpio (s : State) (rg : Rg) (f : Fld) (k : Nat) : (s.bumpR rg f k).gpio = s.gpio := rfl
@[simp] theorem State.bumpR_dbg (s : State) (rg : Rg) (f : Fld) (k : Nat) : (s.bumpR rg f k).dbg = s.dbg := rfl
@[simp] theorem State.bumpR_drawn (s : State) (rg : Rg) (f : Fld) (k : Nat) : (s.bumpR rg f k).drawn = s.drawn := rfl

/-! ### State.setCl -/

@[simp] theorem State.setCl_pending (s : State) (rg : Rg) (c : Cl) (k : Cluster) : (s.setCl rg c k).pending = s.pending := rfl
@[simp] theorem State.setCl_regs (s : State) (rg : Rg) (c : Cl) (k : Cluster) : (s.setCl rg c k).regs = s.regs := rfl
@[simp] theorem State.setCl_jobs (s : State) (rg : Rg) (c : Cl) (k : Cluster) : (s.setCl rg c k).jobs = s.jobs := rfl
@[simp] theorem State.setCl_mer (s : State) (rg : Rg) (c : Cl) (k : Cluster) : (s.setCl rg c k).mer = s.mer := rfl
@[simp] theorem State.setCl_faultQ (s : State) (rg : Rg) (c : Cl) (k : Cluster) : (s.setCl rg c k).faultQ = s.faultQ := rfl
@[simp] theorem State.setCl_bursts (s : State) (rg : Rg) (c : Cl) (k : Cluster) : (s.setCl rg c k).bursts = s.bursts := rfl
@[simp] theorem State.setCl_taints (s : State) (rg : Rg) (c : Cl) (k : Cluster) : (s.setCl rg c k).taints = s.taints := rfl
@[simp] theorem State.setCl_net (s : State) (rg : Rg) (c : Cl) (k : Cluster) : (s.setCl rg c k).net = s.net := rfl
@[simp] theorem State.setCl_trail (s : State) (rg : Rg) (c : Cl) (k : Cluster) : (s.setCl rg c k).trail = s.trail := rfl
@[simp] theorem State.setCl_order (s : State) (rg : Rg) (c : Cl) (k : Cluster) : (s.setCl rg c k).order = s.order := rfl
@[simp] theorem State.setCl_wires (s : State) (rg : Rg) (c : Cl) (k : Cluster) : (s.setCl rg c k).wires = s.wires := rfl
@[simp] theorem State.setCl_arrived (s : State) (rg : Rg) (c : Cl) (k : Cluster) : (s.setCl rg c k).arrived = s.arrived := rfl
@[simp] theorem State.setCl_sched (s : State) (rg : Rg) (c : Cl) (k : Cluster) : (s.setCl rg c k).sched = s.sched := rfl
@[simp] theorem State.setCl_tags (s : State) (rg : Rg) (c : Cl) (k : Cluster) : (s.setCl rg c k).tags = s.tags := rfl
@[simp] theorem State.setCl_ports (s : State) (rg : Rg) (c : Cl) (k : Cluster) : (s.setCl rg c k).ports = s.ports := rfl
@[simp] theorem State.setCl_fab (s : State) (rg : Rg) (c : Cl) (k : Cluster) : (s.setCl rg c k).fab = s.fab := rfl
@[simp] theorem State.setCl_d2dFails (s : State) (rg : Rg) (c : Cl) (k : Cluster) : (s.setCl rg c k).d2dFails = s.d2dFails := rfl
@[simp] theorem State.setCl_refusing (s : State) (rg : Rg) (c : Cl) (k : Cluster) : (s.setCl rg c k).refusing = s.refusing := rfl
@[simp] theorem State.setCl_applying (s : State) (rg : Rg) (c : Cl) (k : Cluster) : (s.setCl rg c k).applying = s.applying := rfl
@[simp] theorem State.setCl_library (s : State) (rg : Rg) (c : Cl) (k : Cluster) : (s.setCl rg c k).library = s.library := rfl
@[simp] theorem State.setCl_sram (s : State) (rg : Rg) (c : Cl) (k : Cluster) : (s.setCl rg c k).sram = s.sram := rfl
@[simp] theorem State.setCl_windowFixes (s : State) (rg : Rg) (c : Cl) (k : Cluster) : (s.setCl rg c k).windowFixes = s.windowFixes := rfl
@[simp] theorem State.setCl_tracks (s : State) (rg : Rg) (c : Cl) (k : Cluster) : (s.setCl rg c k).tracks = s.tracks := rfl
@[simp] theorem State.setCl_flash (s : State) (rg : Rg) (c : Cl) (k : Cluster) : (s.setCl rg c k).flash = s.flash := rfl
@[simp] theorem State.setCl_fuses (s : State) (rg : Rg) (c : Cl) (k : Cluster) : (s.setCl rg c k).fuses = s.fuses := rfl
@[simp] theorem State.setCl_keys (s : State) (rg : Rg) (c : Cl) (k : Cluster) : (s.setCl rg c k).keys = s.keys := rfl
@[simp] theorem State.setCl_load (s : State) (rg : Rg) (c : Cl) (k : Cluster) : (s.setCl rg c k).load = s.load := rfl
@[simp] theorem State.setCl_rtc (s : State) (rg : Rg) (c : Cl) (k : Cluster) : (s.setCl rg c k).rtc = s.rtc := rfl
@[simp] theorem State.setCl_scr (s : State) (rg : Rg) (c : Cl) (k : Cluster) : (s.setCl rg c k).scr = s.scr := rfl
@[simp] theorem State.setCl_pwr (s : State) (rg : Rg) (c : Cl) (k : Cluster) : (s.setCl rg c k).pwr = s.pwr := rfl
@[simp] theorem State.setCl_bist (s : State) (rg : Rg) (c : Cl) (k : Cluster) : (s.setCl rg c k).bist = s.bist := rfl
@[simp] theorem State.setCl_i3c (s : State) (rg : Rg) (c : Cl) (k : Cluster) : (s.setCl rg c k).i3c = s.i3c := rfl
@[simp] theorem State.setCl_bus (s : State) (rg : Rg) (c : Cl) (k : Cluster) : (s.setCl rg c k).bus = s.bus := rfl
@[simp] theorem State.setCl_gpio (s : State) (rg : Rg) (c : Cl) (k : Cluster) : (s.setCl rg c k).gpio = s.gpio := rfl
@[simp] theorem State.setCl_dbg (s : State) (rg : Rg) (c : Cl) (k : Cluster) : (s.setCl rg c k).dbg = s.dbg := rfl
@[simp] theorem State.setCl_drawn (s : State) (rg : Rg) (c : Cl) (k : Cluster) : (s.setCl rg c k).drawn = s.drawn := rfl

/-! ### State.onCl -/

@[simp] theorem State.onCl_pending (s : State) (rg : Rg) (c : Cl) (g : Cluster → Cluster) : (s.onCl rg c g).pending = s.pending := rfl
@[simp] theorem State.onCl_regs (s : State) (rg : Rg) (c : Cl) (g : Cluster → Cluster) : (s.onCl rg c g).regs = s.regs := rfl
@[simp] theorem State.onCl_jobs (s : State) (rg : Rg) (c : Cl) (g : Cluster → Cluster) : (s.onCl rg c g).jobs = s.jobs := rfl
@[simp] theorem State.onCl_mer (s : State) (rg : Rg) (c : Cl) (g : Cluster → Cluster) : (s.onCl rg c g).mer = s.mer := rfl
@[simp] theorem State.onCl_faultQ (s : State) (rg : Rg) (c : Cl) (g : Cluster → Cluster) : (s.onCl rg c g).faultQ = s.faultQ := rfl
@[simp] theorem State.onCl_bursts (s : State) (rg : Rg) (c : Cl) (g : Cluster → Cluster) : (s.onCl rg c g).bursts = s.bursts := rfl
@[simp] theorem State.onCl_taints (s : State) (rg : Rg) (c : Cl) (g : Cluster → Cluster) : (s.onCl rg c g).taints = s.taints := rfl
@[simp] theorem State.onCl_net (s : State) (rg : Rg) (c : Cl) (g : Cluster → Cluster) : (s.onCl rg c g).net = s.net := rfl
@[simp] theorem State.onCl_trail (s : State) (rg : Rg) (c : Cl) (g : Cluster → Cluster) : (s.onCl rg c g).trail = s.trail := rfl
@[simp] theorem State.onCl_order (s : State) (rg : Rg) (c : Cl) (g : Cluster → Cluster) : (s.onCl rg c g).order = s.order := rfl
@[simp] theorem State.onCl_wires (s : State) (rg : Rg) (c : Cl) (g : Cluster → Cluster) : (s.onCl rg c g).wires = s.wires := rfl
@[simp] theorem State.onCl_arrived (s : State) (rg : Rg) (c : Cl) (g : Cluster → Cluster) : (s.onCl rg c g).arrived = s.arrived := rfl
@[simp] theorem State.onCl_sched (s : State) (rg : Rg) (c : Cl) (g : Cluster → Cluster) : (s.onCl rg c g).sched = s.sched := rfl
@[simp] theorem State.onCl_tags (s : State) (rg : Rg) (c : Cl) (g : Cluster → Cluster) : (s.onCl rg c g).tags = s.tags := rfl
@[simp] theorem State.onCl_ports (s : State) (rg : Rg) (c : Cl) (g : Cluster → Cluster) : (s.onCl rg c g).ports = s.ports := rfl
@[simp] theorem State.onCl_fab (s : State) (rg : Rg) (c : Cl) (g : Cluster → Cluster) : (s.onCl rg c g).fab = s.fab := rfl
@[simp] theorem State.onCl_d2dFails (s : State) (rg : Rg) (c : Cl) (g : Cluster → Cluster) : (s.onCl rg c g).d2dFails = s.d2dFails := rfl
@[simp] theorem State.onCl_refusing (s : State) (rg : Rg) (c : Cl) (g : Cluster → Cluster) : (s.onCl rg c g).refusing = s.refusing := rfl
@[simp] theorem State.onCl_applying (s : State) (rg : Rg) (c : Cl) (g : Cluster → Cluster) : (s.onCl rg c g).applying = s.applying := rfl
@[simp] theorem State.onCl_library (s : State) (rg : Rg) (c : Cl) (g : Cluster → Cluster) : (s.onCl rg c g).library = s.library := rfl
@[simp] theorem State.onCl_sram (s : State) (rg : Rg) (c : Cl) (g : Cluster → Cluster) : (s.onCl rg c g).sram = s.sram := rfl
@[simp] theorem State.onCl_windowFixes (s : State) (rg : Rg) (c : Cl) (g : Cluster → Cluster) : (s.onCl rg c g).windowFixes = s.windowFixes := rfl
@[simp] theorem State.onCl_tracks (s : State) (rg : Rg) (c : Cl) (g : Cluster → Cluster) : (s.onCl rg c g).tracks = s.tracks := rfl
@[simp] theorem State.onCl_flash (s : State) (rg : Rg) (c : Cl) (g : Cluster → Cluster) : (s.onCl rg c g).flash = s.flash := rfl
@[simp] theorem State.onCl_fuses (s : State) (rg : Rg) (c : Cl) (g : Cluster → Cluster) : (s.onCl rg c g).fuses = s.fuses := rfl
@[simp] theorem State.onCl_keys (s : State) (rg : Rg) (c : Cl) (g : Cluster → Cluster) : (s.onCl rg c g).keys = s.keys := rfl
@[simp] theorem State.onCl_load (s : State) (rg : Rg) (c : Cl) (g : Cluster → Cluster) : (s.onCl rg c g).load = s.load := rfl
@[simp] theorem State.onCl_rtc (s : State) (rg : Rg) (c : Cl) (g : Cluster → Cluster) : (s.onCl rg c g).rtc = s.rtc := rfl
@[simp] theorem State.onCl_scr (s : State) (rg : Rg) (c : Cl) (g : Cluster → Cluster) : (s.onCl rg c g).scr = s.scr := rfl
@[simp] theorem State.onCl_pwr (s : State) (rg : Rg) (c : Cl) (g : Cluster → Cluster) : (s.onCl rg c g).pwr = s.pwr := rfl
@[simp] theorem State.onCl_bist (s : State) (rg : Rg) (c : Cl) (g : Cluster → Cluster) : (s.onCl rg c g).bist = s.bist := rfl
@[simp] theorem State.onCl_i3c (s : State) (rg : Rg) (c : Cl) (g : Cluster → Cluster) : (s.onCl rg c g).i3c = s.i3c := rfl
@[simp] theorem State.onCl_bus (s : State) (rg : Rg) (c : Cl) (g : Cluster → Cluster) : (s.onCl rg c g).bus = s.bus := rfl
@[simp] theorem State.onCl_gpio (s : State) (rg : Rg) (c : Cl) (g : Cluster → Cluster) : (s.onCl rg c g).gpio = s.gpio := rfl
@[simp] theorem State.onCl_dbg (s : State) (rg : Rg) (c : Cl) (g : Cluster → Cluster) : (s.onCl rg c g).dbg = s.dbg := rfl
@[simp] theorem State.onCl_drawn (s : State) (rg : Rg) (c : Cl) (g : Cluster → Cluster) : (s.onCl rg c g).drawn = s.drawn := rfl

/-! ### State.setEas -/

@[simp] theorem State.setEas_pending (s : State) (rg : Rg) (k : CoreNo) (e : Easel) : (s.setEas rg k e).pending = s.pending := rfl
@[simp] theorem State.setEas_regs (s : State) (rg : Rg) (k : CoreNo) (e : Easel) : (s.setEas rg k e).regs = s.regs := rfl
@[simp] theorem State.setEas_jobs (s : State) (rg : Rg) (k : CoreNo) (e : Easel) : (s.setEas rg k e).jobs = s.jobs := rfl
@[simp] theorem State.setEas_mer (s : State) (rg : Rg) (k : CoreNo) (e : Easel) : (s.setEas rg k e).mer = s.mer := rfl
@[simp] theorem State.setEas_faultQ (s : State) (rg : Rg) (k : CoreNo) (e : Easel) : (s.setEas rg k e).faultQ = s.faultQ := rfl
@[simp] theorem State.setEas_bursts (s : State) (rg : Rg) (k : CoreNo) (e : Easel) : (s.setEas rg k e).bursts = s.bursts := rfl
@[simp] theorem State.setEas_taints (s : State) (rg : Rg) (k : CoreNo) (e : Easel) : (s.setEas rg k e).taints = s.taints := rfl
@[simp] theorem State.setEas_net (s : State) (rg : Rg) (k : CoreNo) (e : Easel) : (s.setEas rg k e).net = s.net := rfl
@[simp] theorem State.setEas_trail (s : State) (rg : Rg) (k : CoreNo) (e : Easel) : (s.setEas rg k e).trail = s.trail := rfl
@[simp] theorem State.setEas_order (s : State) (rg : Rg) (k : CoreNo) (e : Easel) : (s.setEas rg k e).order = s.order := rfl
@[simp] theorem State.setEas_wires (s : State) (rg : Rg) (k : CoreNo) (e : Easel) : (s.setEas rg k e).wires = s.wires := rfl
@[simp] theorem State.setEas_arrived (s : State) (rg : Rg) (k : CoreNo) (e : Easel) : (s.setEas rg k e).arrived = s.arrived := rfl
@[simp] theorem State.setEas_sched (s : State) (rg : Rg) (k : CoreNo) (e : Easel) : (s.setEas rg k e).sched = s.sched := rfl
@[simp] theorem State.setEas_tags (s : State) (rg : Rg) (k : CoreNo) (e : Easel) : (s.setEas rg k e).tags = s.tags := rfl
@[simp] theorem State.setEas_ports (s : State) (rg : Rg) (k : CoreNo) (e : Easel) : (s.setEas rg k e).ports = s.ports := rfl
@[simp] theorem State.setEas_fab (s : State) (rg : Rg) (k : CoreNo) (e : Easel) : (s.setEas rg k e).fab = s.fab := rfl
@[simp] theorem State.setEas_d2dFails (s : State) (rg : Rg) (k : CoreNo) (e : Easel) : (s.setEas rg k e).d2dFails = s.d2dFails := rfl
@[simp] theorem State.setEas_refusing (s : State) (rg : Rg) (k : CoreNo) (e : Easel) : (s.setEas rg k e).refusing = s.refusing := rfl
@[simp] theorem State.setEas_applying (s : State) (rg : Rg) (k : CoreNo) (e : Easel) : (s.setEas rg k e).applying = s.applying := rfl
@[simp] theorem State.setEas_library (s : State) (rg : Rg) (k : CoreNo) (e : Easel) : (s.setEas rg k e).library = s.library := rfl
@[simp] theorem State.setEas_sram (s : State) (rg : Rg) (k : CoreNo) (e : Easel) : (s.setEas rg k e).sram = s.sram := rfl
@[simp] theorem State.setEas_windowFixes (s : State) (rg : Rg) (k : CoreNo) (e : Easel) : (s.setEas rg k e).windowFixes = s.windowFixes := rfl
@[simp] theorem State.setEas_tracks (s : State) (rg : Rg) (k : CoreNo) (e : Easel) : (s.setEas rg k e).tracks = s.tracks := rfl
@[simp] theorem State.setEas_flash (s : State) (rg : Rg) (k : CoreNo) (e : Easel) : (s.setEas rg k e).flash = s.flash := rfl
@[simp] theorem State.setEas_fuses (s : State) (rg : Rg) (k : CoreNo) (e : Easel) : (s.setEas rg k e).fuses = s.fuses := rfl
@[simp] theorem State.setEas_keys (s : State) (rg : Rg) (k : CoreNo) (e : Easel) : (s.setEas rg k e).keys = s.keys := rfl
@[simp] theorem State.setEas_load (s : State) (rg : Rg) (k : CoreNo) (e : Easel) : (s.setEas rg k e).load = s.load := rfl
@[simp] theorem State.setEas_rtc (s : State) (rg : Rg) (k : CoreNo) (e : Easel) : (s.setEas rg k e).rtc = s.rtc := rfl
@[simp] theorem State.setEas_scr (s : State) (rg : Rg) (k : CoreNo) (e : Easel) : (s.setEas rg k e).scr = s.scr := rfl
@[simp] theorem State.setEas_pwr (s : State) (rg : Rg) (k : CoreNo) (e : Easel) : (s.setEas rg k e).pwr = s.pwr := rfl
@[simp] theorem State.setEas_bist (s : State) (rg : Rg) (k : CoreNo) (e : Easel) : (s.setEas rg k e).bist = s.bist := rfl
@[simp] theorem State.setEas_i3c (s : State) (rg : Rg) (k : CoreNo) (e : Easel) : (s.setEas rg k e).i3c = s.i3c := rfl
@[simp] theorem State.setEas_bus (s : State) (rg : Rg) (k : CoreNo) (e : Easel) : (s.setEas rg k e).bus = s.bus := rfl
@[simp] theorem State.setEas_gpio (s : State) (rg : Rg) (k : CoreNo) (e : Easel) : (s.setEas rg k e).gpio = s.gpio := rfl
@[simp] theorem State.setEas_dbg (s : State) (rg : Rg) (k : CoreNo) (e : Easel) : (s.setEas rg k e).dbg = s.dbg := rfl
@[simp] theorem State.setEas_drawn (s : State) (rg : Rg) (k : CoreNo) (e : Easel) : (s.setEas rg k e).drawn = s.drawn := rfl

/-! ### State.onEas -/

@[simp] theorem State.onEas_pending (s : State) (rg : Rg) (k : CoreNo) (g : Easel → Easel) : (s.onEas rg k g).pending = s.pending := rfl
@[simp] theorem State.onEas_regs (s : State) (rg : Rg) (k : CoreNo) (g : Easel → Easel) : (s.onEas rg k g).regs = s.regs := rfl
@[simp] theorem State.onEas_jobs (s : State) (rg : Rg) (k : CoreNo) (g : Easel → Easel) : (s.onEas rg k g).jobs = s.jobs := rfl
@[simp] theorem State.onEas_mer (s : State) (rg : Rg) (k : CoreNo) (g : Easel → Easel) : (s.onEas rg k g).mer = s.mer := rfl
@[simp] theorem State.onEas_faultQ (s : State) (rg : Rg) (k : CoreNo) (g : Easel → Easel) : (s.onEas rg k g).faultQ = s.faultQ := rfl
@[simp] theorem State.onEas_bursts (s : State) (rg : Rg) (k : CoreNo) (g : Easel → Easel) : (s.onEas rg k g).bursts = s.bursts := rfl
@[simp] theorem State.onEas_taints (s : State) (rg : Rg) (k : CoreNo) (g : Easel → Easel) : (s.onEas rg k g).taints = s.taints := rfl
@[simp] theorem State.onEas_net (s : State) (rg : Rg) (k : CoreNo) (g : Easel → Easel) : (s.onEas rg k g).net = s.net := rfl
@[simp] theorem State.onEas_trail (s : State) (rg : Rg) (k : CoreNo) (g : Easel → Easel) : (s.onEas rg k g).trail = s.trail := rfl
@[simp] theorem State.onEas_order (s : State) (rg : Rg) (k : CoreNo) (g : Easel → Easel) : (s.onEas rg k g).order = s.order := rfl
@[simp] theorem State.onEas_wires (s : State) (rg : Rg) (k : CoreNo) (g : Easel → Easel) : (s.onEas rg k g).wires = s.wires := rfl
@[simp] theorem State.onEas_arrived (s : State) (rg : Rg) (k : CoreNo) (g : Easel → Easel) : (s.onEas rg k g).arrived = s.arrived := rfl
@[simp] theorem State.onEas_sched (s : State) (rg : Rg) (k : CoreNo) (g : Easel → Easel) : (s.onEas rg k g).sched = s.sched := rfl
@[simp] theorem State.onEas_tags (s : State) (rg : Rg) (k : CoreNo) (g : Easel → Easel) : (s.onEas rg k g).tags = s.tags := rfl
@[simp] theorem State.onEas_ports (s : State) (rg : Rg) (k : CoreNo) (g : Easel → Easel) : (s.onEas rg k g).ports = s.ports := rfl
@[simp] theorem State.onEas_fab (s : State) (rg : Rg) (k : CoreNo) (g : Easel → Easel) : (s.onEas rg k g).fab = s.fab := rfl
@[simp] theorem State.onEas_d2dFails (s : State) (rg : Rg) (k : CoreNo) (g : Easel → Easel) : (s.onEas rg k g).d2dFails = s.d2dFails := rfl
@[simp] theorem State.onEas_refusing (s : State) (rg : Rg) (k : CoreNo) (g : Easel → Easel) : (s.onEas rg k g).refusing = s.refusing := rfl
@[simp] theorem State.onEas_applying (s : State) (rg : Rg) (k : CoreNo) (g : Easel → Easel) : (s.onEas rg k g).applying = s.applying := rfl
@[simp] theorem State.onEas_library (s : State) (rg : Rg) (k : CoreNo) (g : Easel → Easel) : (s.onEas rg k g).library = s.library := rfl
@[simp] theorem State.onEas_sram (s : State) (rg : Rg) (k : CoreNo) (g : Easel → Easel) : (s.onEas rg k g).sram = s.sram := rfl
@[simp] theorem State.onEas_windowFixes (s : State) (rg : Rg) (k : CoreNo) (g : Easel → Easel) : (s.onEas rg k g).windowFixes = s.windowFixes := rfl
@[simp] theorem State.onEas_tracks (s : State) (rg : Rg) (k : CoreNo) (g : Easel → Easel) : (s.onEas rg k g).tracks = s.tracks := rfl
@[simp] theorem State.onEas_flash (s : State) (rg : Rg) (k : CoreNo) (g : Easel → Easel) : (s.onEas rg k g).flash = s.flash := rfl
@[simp] theorem State.onEas_fuses (s : State) (rg : Rg) (k : CoreNo) (g : Easel → Easel) : (s.onEas rg k g).fuses = s.fuses := rfl
@[simp] theorem State.onEas_keys (s : State) (rg : Rg) (k : CoreNo) (g : Easel → Easel) : (s.onEas rg k g).keys = s.keys := rfl
@[simp] theorem State.onEas_load (s : State) (rg : Rg) (k : CoreNo) (g : Easel → Easel) : (s.onEas rg k g).load = s.load := rfl
@[simp] theorem State.onEas_rtc (s : State) (rg : Rg) (k : CoreNo) (g : Easel → Easel) : (s.onEas rg k g).rtc = s.rtc := rfl
@[simp] theorem State.onEas_scr (s : State) (rg : Rg) (k : CoreNo) (g : Easel → Easel) : (s.onEas rg k g).scr = s.scr := rfl
@[simp] theorem State.onEas_pwr (s : State) (rg : Rg) (k : CoreNo) (g : Easel → Easel) : (s.onEas rg k g).pwr = s.pwr := rfl
@[simp] theorem State.onEas_bist (s : State) (rg : Rg) (k : CoreNo) (g : Easel → Easel) : (s.onEas rg k g).bist = s.bist := rfl
@[simp] theorem State.onEas_i3c (s : State) (rg : Rg) (k : CoreNo) (g : Easel → Easel) : (s.onEas rg k g).i3c = s.i3c := rfl
@[simp] theorem State.onEas_bus (s : State) (rg : Rg) (k : CoreNo) (g : Easel → Easel) : (s.onEas rg k g).bus = s.bus := rfl
@[simp] theorem State.onEas_gpio (s : State) (rg : Rg) (k : CoreNo) (g : Easel → Easel) : (s.onEas rg k g).gpio = s.gpio := rfl
@[simp] theorem State.onEas_dbg (s : State) (rg : Rg) (k : CoreNo) (g : Easel → Easel) : (s.onEas rg k g).dbg = s.dbg := rfl
@[simp] theorem State.onEas_drawn (s : State) (rg : Rg) (k : CoreNo) (g : Easel → Easel) : (s.onEas rg k g).drawn = s.drawn := rfl

/-! ### State.setJob -/

@[simp] theorem State.setJob_pending (s : State) (j : Job) (x : JobState) : (s.setJob j x).pending = s.pending := rfl
@[simp] theorem State.setJob_regs (s : State) (j : Job) (x : JobState) : (s.setJob j x).regs = s.regs := rfl
@[simp] theorem State.setJob_rgns (s : State) (j : Job) (x : JobState) : (s.setJob j x).rgns = s.rgns := rfl
@[simp] theorem State.setJob_mer (s : State) (j : Job) (x : JobState) : (s.setJob j x).mer = s.mer := rfl
@[simp] theorem State.setJob_faultQ (s : State) (j : Job) (x : JobState) : (s.setJob j x).faultQ = s.faultQ := rfl
@[simp] theorem State.setJob_bursts (s : State) (j : Job) (x : JobState) : (s.setJob j x).bursts = s.bursts := rfl
@[simp] theorem State.setJob_taints (s : State) (j : Job) (x : JobState) : (s.setJob j x).taints = s.taints := rfl
@[simp] theorem State.setJob_net (s : State) (j : Job) (x : JobState) : (s.setJob j x).net = s.net := rfl
@[simp] theorem State.setJob_trail (s : State) (j : Job) (x : JobState) : (s.setJob j x).trail = s.trail := rfl
@[simp] theorem State.setJob_order (s : State) (j : Job) (x : JobState) : (s.setJob j x).order = s.order := rfl
@[simp] theorem State.setJob_wires (s : State) (j : Job) (x : JobState) : (s.setJob j x).wires = s.wires := rfl
@[simp] theorem State.setJob_arrived (s : State) (j : Job) (x : JobState) : (s.setJob j x).arrived = s.arrived := rfl
@[simp] theorem State.setJob_sched (s : State) (j : Job) (x : JobState) : (s.setJob j x).sched = s.sched := rfl
@[simp] theorem State.setJob_tags (s : State) (j : Job) (x : JobState) : (s.setJob j x).tags = s.tags := rfl
@[simp] theorem State.setJob_ports (s : State) (j : Job) (x : JobState) : (s.setJob j x).ports = s.ports := rfl
@[simp] theorem State.setJob_fab (s : State) (j : Job) (x : JobState) : (s.setJob j x).fab = s.fab := rfl
@[simp] theorem State.setJob_d2dFails (s : State) (j : Job) (x : JobState) : (s.setJob j x).d2dFails = s.d2dFails := rfl
@[simp] theorem State.setJob_refusing (s : State) (j : Job) (x : JobState) : (s.setJob j x).refusing = s.refusing := rfl
@[simp] theorem State.setJob_applying (s : State) (j : Job) (x : JobState) : (s.setJob j x).applying = s.applying := rfl
@[simp] theorem State.setJob_library (s : State) (j : Job) (x : JobState) : (s.setJob j x).library = s.library := rfl
@[simp] theorem State.setJob_sram (s : State) (j : Job) (x : JobState) : (s.setJob j x).sram = s.sram := rfl
@[simp] theorem State.setJob_windowFixes (s : State) (j : Job) (x : JobState) : (s.setJob j x).windowFixes = s.windowFixes := rfl
@[simp] theorem State.setJob_tracks (s : State) (j : Job) (x : JobState) : (s.setJob j x).tracks = s.tracks := rfl
@[simp] theorem State.setJob_flash (s : State) (j : Job) (x : JobState) : (s.setJob j x).flash = s.flash := rfl
@[simp] theorem State.setJob_fuses (s : State) (j : Job) (x : JobState) : (s.setJob j x).fuses = s.fuses := rfl
@[simp] theorem State.setJob_keys (s : State) (j : Job) (x : JobState) : (s.setJob j x).keys = s.keys := rfl
@[simp] theorem State.setJob_load (s : State) (j : Job) (x : JobState) : (s.setJob j x).load = s.load := rfl
@[simp] theorem State.setJob_rtc (s : State) (j : Job) (x : JobState) : (s.setJob j x).rtc = s.rtc := rfl
@[simp] theorem State.setJob_scr (s : State) (j : Job) (x : JobState) : (s.setJob j x).scr = s.scr := rfl
@[simp] theorem State.setJob_pwr (s : State) (j : Job) (x : JobState) : (s.setJob j x).pwr = s.pwr := rfl
@[simp] theorem State.setJob_bist (s : State) (j : Job) (x : JobState) : (s.setJob j x).bist = s.bist := rfl
@[simp] theorem State.setJob_i3c (s : State) (j : Job) (x : JobState) : (s.setJob j x).i3c = s.i3c := rfl
@[simp] theorem State.setJob_bus (s : State) (j : Job) (x : JobState) : (s.setJob j x).bus = s.bus := rfl
@[simp] theorem State.setJob_gpio (s : State) (j : Job) (x : JobState) : (s.setJob j x).gpio = s.gpio := rfl
@[simp] theorem State.setJob_dbg (s : State) (j : Job) (x : JobState) : (s.setJob j x).dbg = s.dbg := rfl
@[simp] theorem State.setJob_drawn (s : State) (j : Job) (x : JobState) : (s.setJob j x).drawn = s.drawn := rfl

/-! ### State.draw -/

@[simp] theorem State.draw_pending (s : State) (w : Nat) : (s.draw w).2.pending = s.pending := rfl
@[simp] theorem State.draw_regs (s : State) (w : Nat) : (s.draw w).2.regs = s.regs := rfl
@[simp] theorem State.draw_rgns (s : State) (w : Nat) : (s.draw w).2.rgns = s.rgns := rfl
@[simp] theorem State.draw_jobs (s : State) (w : Nat) : (s.draw w).2.jobs = s.jobs := rfl
@[simp] theorem State.draw_mer (s : State) (w : Nat) : (s.draw w).2.mer = s.mer := rfl
@[simp] theorem State.draw_faultQ (s : State) (w : Nat) : (s.draw w).2.faultQ = s.faultQ := rfl
@[simp] theorem State.draw_bursts (s : State) (w : Nat) : (s.draw w).2.bursts = s.bursts := rfl
@[simp] theorem State.draw_taints (s : State) (w : Nat) : (s.draw w).2.taints = s.taints := rfl
@[simp] theorem State.draw_net (s : State) (w : Nat) : (s.draw w).2.net = s.net := rfl
@[simp] theorem State.draw_trail (s : State) (w : Nat) : (s.draw w).2.trail = s.trail := rfl
@[simp] theorem State.draw_order (s : State) (w : Nat) : (s.draw w).2.order = s.order := rfl
@[simp] theorem State.draw_wires (s : State) (w : Nat) : (s.draw w).2.wires = s.wires := rfl
@[simp] theorem State.draw_arrived (s : State) (w : Nat) : (s.draw w).2.arrived = s.arrived := rfl
@[simp] theorem State.draw_sched (s : State) (w : Nat) : (s.draw w).2.sched = s.sched := rfl
@[simp] theorem State.draw_tags (s : State) (w : Nat) : (s.draw w).2.tags = s.tags := rfl
@[simp] theorem State.draw_ports (s : State) (w : Nat) : (s.draw w).2.ports = s.ports := rfl
@[simp] theorem State.draw_fab (s : State) (w : Nat) : (s.draw w).2.fab = s.fab := rfl
@[simp] theorem State.draw_d2dFails (s : State) (w : Nat) : (s.draw w).2.d2dFails = s.d2dFails := rfl
@[simp] theorem State.draw_refusing (s : State) (w : Nat) : (s.draw w).2.refusing = s.refusing := rfl
@[simp] theorem State.draw_applying (s : State) (w : Nat) : (s.draw w).2.applying = s.applying := rfl
@[simp] theorem State.draw_library (s : State) (w : Nat) : (s.draw w).2.library = s.library := rfl
@[simp] theorem State.draw_sram (s : State) (w : Nat) : (s.draw w).2.sram = s.sram := rfl
@[simp] theorem State.draw_windowFixes (s : State) (w : Nat) : (s.draw w).2.windowFixes = s.windowFixes := rfl
@[simp] theorem State.draw_tracks (s : State) (w : Nat) : (s.draw w).2.tracks = s.tracks := rfl
@[simp] theorem State.draw_flash (s : State) (w : Nat) : (s.draw w).2.flash = s.flash := rfl
@[simp] theorem State.draw_fuses (s : State) (w : Nat) : (s.draw w).2.fuses = s.fuses := rfl
@[simp] theorem State.draw_keys (s : State) (w : Nat) : (s.draw w).2.keys = s.keys := rfl
@[simp] theorem State.draw_load (s : State) (w : Nat) : (s.draw w).2.load = s.load := rfl
@[simp] theorem State.draw_rtc (s : State) (w : Nat) : (s.draw w).2.rtc = s.rtc := rfl
@[simp] theorem State.draw_scr (s : State) (w : Nat) : (s.draw w).2.scr = s.scr := rfl
@[simp] theorem State.draw_pwr (s : State) (w : Nat) : (s.draw w).2.pwr = s.pwr := rfl
@[simp] theorem State.draw_bist (s : State) (w : Nat) : (s.draw w).2.bist = s.bist := rfl
@[simp] theorem State.draw_i3c (s : State) (w : Nat) : (s.draw w).2.i3c = s.i3c := rfl
@[simp] theorem State.draw_bus (s : State) (w : Nat) : (s.draw w).2.bus = s.bus := rfl
@[simp] theorem State.draw_gpio (s : State) (w : Nat) : (s.draw w).2.gpio = s.gpio := rfl
@[simp] theorem State.draw_dbg (s : State) (w : Nat) : (s.draw w).2.dbg = s.dbg := rfl

/-! ### Region.setReg -/

@[simp] theorem Region.setReg_strokes (r : Region) (a : Nat) (v : Word) : (r.setReg a v).strokes = r.strokes := rfl
@[simp] theorem Region.setReg_startv (r : Region) (a : Nat) (v : Word) : (r.setReg a v).startv = r.startv := rfl
@[simp] theorem Region.setReg_clusters (r : Region) (a : Nat) (v : Word) : (r.setReg a v).clusters = r.clusters := rfl
@[simp] theorem Region.setReg_dmem (r : Region) (a : Nat) (v : Word) : (r.setReg a v).dmem = r.dmem := rfl
@[simp] theorem Region.setReg_ring (r : Region) (a : Nat) (v : Word) : (r.setReg a v).ring = r.ring := rfl
@[simp] theorem Region.setReg_upsets (r : Region) (a : Nat) (v : Word) : (r.setReg a v).upsets = r.upsets := rfl
@[simp] theorem Region.setReg_fix (r : Region) (a : Nat) (v : Word) : (r.setReg a v).fix = r.fix := rfl
@[simp] theorem Region.setReg_mpos (r : Region) (a : Nat) (v : Word) : (r.setReg a v).mpos = r.mpos := rfl
@[simp] theorem Region.setReg_takes (r : Region) (a : Nat) (v : Word) : (r.setReg a v).takes = r.takes := rfl
@[simp] theorem Region.setReg_front (r : Region) (a : Nat) (v : Word) : (r.setReg a v).front = r.front := rfl
@[simp] theorem Region.setReg_inject (r : Region) (a : Nat) (v : Word) : (r.setReg a v).inject = r.inject := rfl
@[simp] theorem Region.setReg_arb (r : Region) (a : Nat) (v : Word) : (r.setReg a v).arb = r.arb := rfl
@[simp] theorem Region.setReg_rwd (r : Region) (a : Nat) (v : Word) : (r.setReg a v).rwd = r.rwd := rfl
@[simp] theorem Region.setReg_easels (r : Region) (a : Nat) (v : Word) : (r.setReg a v).easels = r.easels := rfl
@[simp] theorem Region.setReg_canvas (r : Region) (a : Nat) (v : Word) : (r.setReg a v).canvas = r.canvas := rfl
@[simp] theorem Region.setReg_cells (r : Region) (a : Nat) (v : Word) : (r.setReg a v).cells = r.cells := rfl
@[simp] theorem Region.setReg_mlog (r : Region) (a : Nat) (v : Word) : (r.setReg a v).mlog = r.mlog := rfl
@[simp] theorem Region.setReg_lanes (r : Region) (a : Nat) (v : Word) : (r.setReg a v).lanes = r.lanes := rfl
@[simp] theorem Region.setReg_io (r : Region) (a : Nat) (v : Word) : (r.setReg a v).io = r.io := rfl
@[simp] theorem Region.setReg_disabled (r : Region) (a : Nat) (v : Word) : (r.setReg a v).disabled = r.disabled := rfl
@[simp] theorem Region.setReg_fightSeen (r : Region) (a : Nat) (v : Word) : (r.setReg a v).fightSeen = r.fightSeen := rfl
@[simp] theorem Region.setReg_releasing (r : Region) (a : Nat) (v : Word) : (r.setReg a v).releasing = r.releasing := rfl
@[simp] theorem Region.setReg_resetDue (r : Region) (a : Nat) (v : Word) : (r.setReg a v).resetDue = r.resetDue := rfl
@[simp] theorem Region.setReg_configured (r : Region) (a : Nat) (v : Word) : (r.setReg a v).configured = r.configured := rfl
@[simp] theorem Region.setReg_live (r : Region) (a : Nat) (v : Word) : (r.setReg a v).live = r.live := rfl
@[simp] theorem Region.setReg_rtcStatus (r : Region) (a : Nat) (v : Word) : (r.setReg a v).rtcStatus = r.rtcStatus := rfl
@[simp] theorem Region.setReg_isoSub (r : Region) (a : Nat) (v : Word) : (r.setReg a v).isoSub = r.isoSub := rfl
@[simp] theorem Region.setReg_isoWord (r : Region) (a : Nat) (v : Word) : (r.setReg a v).isoWord = r.isoWord := rfl

/-! ### Region.setF -/

@[simp] theorem Region.setF_strokes (r : Region) (f : Fld) (n : Nat) : (r.setF f n).strokes = r.strokes := rfl
@[simp] theorem Region.setF_startv (r : Region) (f : Fld) (n : Nat) : (r.setF f n).startv = r.startv := rfl
@[simp] theorem Region.setF_clusters (r : Region) (f : Fld) (n : Nat) : (r.setF f n).clusters = r.clusters := rfl
@[simp] theorem Region.setF_dmem (r : Region) (f : Fld) (n : Nat) : (r.setF f n).dmem = r.dmem := rfl
@[simp] theorem Region.setF_ring (r : Region) (f : Fld) (n : Nat) : (r.setF f n).ring = r.ring := rfl
@[simp] theorem Region.setF_upsets (r : Region) (f : Fld) (n : Nat) : (r.setF f n).upsets = r.upsets := rfl
@[simp] theorem Region.setF_fix (r : Region) (f : Fld) (n : Nat) : (r.setF f n).fix = r.fix := rfl
@[simp] theorem Region.setF_mpos (r : Region) (f : Fld) (n : Nat) : (r.setF f n).mpos = r.mpos := rfl
@[simp] theorem Region.setF_takes (r : Region) (f : Fld) (n : Nat) : (r.setF f n).takes = r.takes := rfl
@[simp] theorem Region.setF_front (r : Region) (f : Fld) (n : Nat) : (r.setF f n).front = r.front := rfl
@[simp] theorem Region.setF_inject (r : Region) (f : Fld) (n : Nat) : (r.setF f n).inject = r.inject := rfl
@[simp] theorem Region.setF_arb (r : Region) (f : Fld) (n : Nat) : (r.setF f n).arb = r.arb := rfl
@[simp] theorem Region.setF_rwd (r : Region) (f : Fld) (n : Nat) : (r.setF f n).rwd = r.rwd := rfl
@[simp] theorem Region.setF_easels (r : Region) (f : Fld) (n : Nat) : (r.setF f n).easels = r.easels := rfl
@[simp] theorem Region.setF_canvas (r : Region) (f : Fld) (n : Nat) : (r.setF f n).canvas = r.canvas := rfl
@[simp] theorem Region.setF_cells (r : Region) (f : Fld) (n : Nat) : (r.setF f n).cells = r.cells := rfl
@[simp] theorem Region.setF_mlog (r : Region) (f : Fld) (n : Nat) : (r.setF f n).mlog = r.mlog := rfl
@[simp] theorem Region.setF_lanes (r : Region) (f : Fld) (n : Nat) : (r.setF f n).lanes = r.lanes := rfl
@[simp] theorem Region.setF_io (r : Region) (f : Fld) (n : Nat) : (r.setF f n).io = r.io := rfl
@[simp] theorem Region.setF_disabled (r : Region) (f : Fld) (n : Nat) : (r.setF f n).disabled = r.disabled := rfl
@[simp] theorem Region.setF_fightSeen (r : Region) (f : Fld) (n : Nat) : (r.setF f n).fightSeen = r.fightSeen := rfl
@[simp] theorem Region.setF_releasing (r : Region) (f : Fld) (n : Nat) : (r.setF f n).releasing = r.releasing := rfl
@[simp] theorem Region.setF_resetDue (r : Region) (f : Fld) (n : Nat) : (r.setF f n).resetDue = r.resetDue := rfl
@[simp] theorem Region.setF_configured (r : Region) (f : Fld) (n : Nat) : (r.setF f n).configured = r.configured := rfl
@[simp] theorem Region.setF_live (r : Region) (f : Fld) (n : Nat) : (r.setF f n).live = r.live := rfl
@[simp] theorem Region.setF_rtcStatus (r : Region) (f : Fld) (n : Nat) : (r.setF f n).rtcStatus = r.rtcStatus := rfl
@[simp] theorem Region.setF_isoSub (r : Region) (f : Fld) (n : Nat) : (r.setF f n).isoSub = r.isoSub := rfl
@[simp] theorem Region.setF_isoWord (r : Region) (f : Fld) (n : Nat) : (r.setF f n).isoWord = r.isoWord := rfl

/-! ### Region.bump -/

@[simp] theorem Region.bump_strokes (r : Region) (f : Fld) (k : Nat) : (r.bump f k).strokes = r.strokes := rfl
@[simp] theorem Region.bump_startv (r : Region) (f : Fld) (k : Nat) : (r.bump f k).startv = r.startv := rfl
@[simp] theorem Region.bump_clusters (r : Region) (f : Fld) (k : Nat) : (r.bump f k).clusters = r.clusters := rfl
@[simp] theorem Region.bump_dmem (r : Region) (f : Fld) (k : Nat) : (r.bump f k).dmem = r.dmem := rfl
@[simp] theorem Region.bump_ring (r : Region) (f : Fld) (k : Nat) : (r.bump f k).ring = r.ring := rfl
@[simp] theorem Region.bump_upsets (r : Region) (f : Fld) (k : Nat) : (r.bump f k).upsets = r.upsets := rfl
@[simp] theorem Region.bump_fix (r : Region) (f : Fld) (k : Nat) : (r.bump f k).fix = r.fix := rfl
@[simp] theorem Region.bump_mpos (r : Region) (f : Fld) (k : Nat) : (r.bump f k).mpos = r.mpos := rfl
@[simp] theorem Region.bump_takes (r : Region) (f : Fld) (k : Nat) : (r.bump f k).takes = r.takes := rfl
@[simp] theorem Region.bump_front (r : Region) (f : Fld) (k : Nat) : (r.bump f k).front = r.front := rfl
@[simp] theorem Region.bump_inject (r : Region) (f : Fld) (k : Nat) : (r.bump f k).inject = r.inject := rfl
@[simp] theorem Region.bump_arb (r : Region) (f : Fld) (k : Nat) : (r.bump f k).arb = r.arb := rfl
@[simp] theorem Region.bump_rwd (r : Region) (f : Fld) (k : Nat) : (r.bump f k).rwd = r.rwd := rfl
@[simp] theorem Region.bump_easels (r : Region) (f : Fld) (k : Nat) : (r.bump f k).easels = r.easels := rfl
@[simp] theorem Region.bump_canvas (r : Region) (f : Fld) (k : Nat) : (r.bump f k).canvas = r.canvas := rfl
@[simp] theorem Region.bump_cells (r : Region) (f : Fld) (k : Nat) : (r.bump f k).cells = r.cells := rfl
@[simp] theorem Region.bump_mlog (r : Region) (f : Fld) (k : Nat) : (r.bump f k).mlog = r.mlog := rfl
@[simp] theorem Region.bump_lanes (r : Region) (f : Fld) (k : Nat) : (r.bump f k).lanes = r.lanes := rfl
@[simp] theorem Region.bump_io (r : Region) (f : Fld) (k : Nat) : (r.bump f k).io = r.io := rfl
@[simp] theorem Region.bump_disabled (r : Region) (f : Fld) (k : Nat) : (r.bump f k).disabled = r.disabled := rfl
@[simp] theorem Region.bump_fightSeen (r : Region) (f : Fld) (k : Nat) : (r.bump f k).fightSeen = r.fightSeen := rfl
@[simp] theorem Region.bump_releasing (r : Region) (f : Fld) (k : Nat) : (r.bump f k).releasing = r.releasing := rfl
@[simp] theorem Region.bump_resetDue (r : Region) (f : Fld) (k : Nat) : (r.bump f k).resetDue = r.resetDue := rfl
@[simp] theorem Region.bump_configured (r : Region) (f : Fld) (k : Nat) : (r.bump f k).configured = r.configured := rfl
@[simp] theorem Region.bump_live (r : Region) (f : Fld) (k : Nat) : (r.bump f k).live = r.live := rfl
@[simp] theorem Region.bump_rtcStatus (r : Region) (f : Fld) (k : Nat) : (r.bump f k).rtcStatus = r.rtcStatus := rfl
@[simp] theorem Region.bump_isoSub (r : Region) (f : Fld) (k : Nat) : (r.bump f k).isoSub = r.isoSub := rfl
@[simp] theorem Region.bump_isoWord (r : Region) (f : Fld) (k : Nat) : (r.bump f k).isoWord = r.isoWord := rfl

/-! ### Region.set48 -/

@[simp] theorem Region.set48_strokes (r : Region) (lo hi : Nat) (v : BitVec 48) : (r.set48 lo hi v).strokes = r.strokes := rfl
@[simp] theorem Region.set48_startv (r : Region) (lo hi : Nat) (v : BitVec 48) : (r.set48 lo hi v).startv = r.startv := rfl
@[simp] theorem Region.set48_clusters (r : Region) (lo hi : Nat) (v : BitVec 48) : (r.set48 lo hi v).clusters = r.clusters := rfl
@[simp] theorem Region.set48_dmem (r : Region) (lo hi : Nat) (v : BitVec 48) : (r.set48 lo hi v).dmem = r.dmem := rfl
@[simp] theorem Region.set48_ring (r : Region) (lo hi : Nat) (v : BitVec 48) : (r.set48 lo hi v).ring = r.ring := rfl
@[simp] theorem Region.set48_upsets (r : Region) (lo hi : Nat) (v : BitVec 48) : (r.set48 lo hi v).upsets = r.upsets := rfl
@[simp] theorem Region.set48_fix (r : Region) (lo hi : Nat) (v : BitVec 48) : (r.set48 lo hi v).fix = r.fix := rfl
@[simp] theorem Region.set48_mpos (r : Region) (lo hi : Nat) (v : BitVec 48) : (r.set48 lo hi v).mpos = r.mpos := rfl
@[simp] theorem Region.set48_takes (r : Region) (lo hi : Nat) (v : BitVec 48) : (r.set48 lo hi v).takes = r.takes := rfl
@[simp] theorem Region.set48_front (r : Region) (lo hi : Nat) (v : BitVec 48) : (r.set48 lo hi v).front = r.front := rfl
@[simp] theorem Region.set48_inject (r : Region) (lo hi : Nat) (v : BitVec 48) : (r.set48 lo hi v).inject = r.inject := rfl
@[simp] theorem Region.set48_arb (r : Region) (lo hi : Nat) (v : BitVec 48) : (r.set48 lo hi v).arb = r.arb := rfl
@[simp] theorem Region.set48_rwd (r : Region) (lo hi : Nat) (v : BitVec 48) : (r.set48 lo hi v).rwd = r.rwd := rfl
@[simp] theorem Region.set48_easels (r : Region) (lo hi : Nat) (v : BitVec 48) : (r.set48 lo hi v).easels = r.easels := rfl
@[simp] theorem Region.set48_canvas (r : Region) (lo hi : Nat) (v : BitVec 48) : (r.set48 lo hi v).canvas = r.canvas := rfl
@[simp] theorem Region.set48_cells (r : Region) (lo hi : Nat) (v : BitVec 48) : (r.set48 lo hi v).cells = r.cells := rfl
@[simp] theorem Region.set48_mlog (r : Region) (lo hi : Nat) (v : BitVec 48) : (r.set48 lo hi v).mlog = r.mlog := rfl
@[simp] theorem Region.set48_lanes (r : Region) (lo hi : Nat) (v : BitVec 48) : (r.set48 lo hi v).lanes = r.lanes := rfl
@[simp] theorem Region.set48_io (r : Region) (lo hi : Nat) (v : BitVec 48) : (r.set48 lo hi v).io = r.io := rfl
@[simp] theorem Region.set48_disabled (r : Region) (lo hi : Nat) (v : BitVec 48) : (r.set48 lo hi v).disabled = r.disabled := rfl
@[simp] theorem Region.set48_fightSeen (r : Region) (lo hi : Nat) (v : BitVec 48) : (r.set48 lo hi v).fightSeen = r.fightSeen := rfl
@[simp] theorem Region.set48_releasing (r : Region) (lo hi : Nat) (v : BitVec 48) : (r.set48 lo hi v).releasing = r.releasing := rfl
@[simp] theorem Region.set48_resetDue (r : Region) (lo hi : Nat) (v : BitVec 48) : (r.set48 lo hi v).resetDue = r.resetDue := rfl
@[simp] theorem Region.set48_configured (r : Region) (lo hi : Nat) (v : BitVec 48) : (r.set48 lo hi v).configured = r.configured := rfl
@[simp] theorem Region.set48_live (r : Region) (lo hi : Nat) (v : BitVec 48) : (r.set48 lo hi v).live = r.live := rfl
@[simp] theorem Region.set48_rtcStatus (r : Region) (lo hi : Nat) (v : BitVec 48) : (r.set48 lo hi v).rtcStatus = r.rtcStatus := rfl
@[simp] theorem Region.set48_isoSub (r : Region) (lo hi : Nat) (v : BitVec 48) : (r.set48 lo hi v).isoSub = r.isoSub := rfl
@[simp] theorem Region.set48_isoWord (r : Region) (lo hi : Nat) (v : BitVec 48) : (r.set48 lo hi v).isoWord = r.isoWord := rfl

/-! ### Region.setCl -/

@[simp] theorem Region.setCl_regs (r : Region) (c : Cl) (k : Cluster) : (r.setCl c k).regs = r.regs := rfl
@[simp] theorem Region.setCl_strokes (r : Region) (c : Cl) (k : Cluster) : (r.setCl c k).strokes = r.strokes := rfl
@[simp] theorem Region.setCl_startv (r : Region) (c : Cl) (k : Cluster) : (r.setCl c k).startv = r.startv := rfl
@[simp] theorem Region.setCl_dmem (r : Region) (c : Cl) (k : Cluster) : (r.setCl c k).dmem = r.dmem := rfl
@[simp] theorem Region.setCl_ring (r : Region) (c : Cl) (k : Cluster) : (r.setCl c k).ring = r.ring := rfl
@[simp] theorem Region.setCl_upsets (r : Region) (c : Cl) (k : Cluster) : (r.setCl c k).upsets = r.upsets := rfl
@[simp] theorem Region.setCl_fix (r : Region) (c : Cl) (k : Cluster) : (r.setCl c k).fix = r.fix := rfl
@[simp] theorem Region.setCl_mpos (r : Region) (c : Cl) (k : Cluster) : (r.setCl c k).mpos = r.mpos := rfl
@[simp] theorem Region.setCl_takes (r : Region) (c : Cl) (k : Cluster) : (r.setCl c k).takes = r.takes := rfl
@[simp] theorem Region.setCl_front (r : Region) (c : Cl) (k : Cluster) : (r.setCl c k).front = r.front := rfl
@[simp] theorem Region.setCl_inject (r : Region) (c : Cl) (k : Cluster) : (r.setCl c k).inject = r.inject := rfl
@[simp] theorem Region.setCl_arb (r : Region) (c : Cl) (k : Cluster) : (r.setCl c k).arb = r.arb := rfl
@[simp] theorem Region.setCl_rwd (r : Region) (c : Cl) (k : Cluster) : (r.setCl c k).rwd = r.rwd := rfl
@[simp] theorem Region.setCl_easels (r : Region) (c : Cl) (k : Cluster) : (r.setCl c k).easels = r.easels := rfl
@[simp] theorem Region.setCl_canvas (r : Region) (c : Cl) (k : Cluster) : (r.setCl c k).canvas = r.canvas := rfl
@[simp] theorem Region.setCl_cells (r : Region) (c : Cl) (k : Cluster) : (r.setCl c k).cells = r.cells := rfl
@[simp] theorem Region.setCl_mlog (r : Region) (c : Cl) (k : Cluster) : (r.setCl c k).mlog = r.mlog := rfl
@[simp] theorem Region.setCl_lanes (r : Region) (c : Cl) (k : Cluster) : (r.setCl c k).lanes = r.lanes := rfl
@[simp] theorem Region.setCl_io (r : Region) (c : Cl) (k : Cluster) : (r.setCl c k).io = r.io := rfl
@[simp] theorem Region.setCl_disabled (r : Region) (c : Cl) (k : Cluster) : (r.setCl c k).disabled = r.disabled := rfl
@[simp] theorem Region.setCl_fightSeen (r : Region) (c : Cl) (k : Cluster) : (r.setCl c k).fightSeen = r.fightSeen := rfl
@[simp] theorem Region.setCl_releasing (r : Region) (c : Cl) (k : Cluster) : (r.setCl c k).releasing = r.releasing := rfl
@[simp] theorem Region.setCl_resetDue (r : Region) (c : Cl) (k : Cluster) : (r.setCl c k).resetDue = r.resetDue := rfl
@[simp] theorem Region.setCl_configured (r : Region) (c : Cl) (k : Cluster) : (r.setCl c k).configured = r.configured := rfl
@[simp] theorem Region.setCl_live (r : Region) (c : Cl) (k : Cluster) : (r.setCl c k).live = r.live := rfl
@[simp] theorem Region.setCl_rtcStatus (r : Region) (c : Cl) (k : Cluster) : (r.setCl c k).rtcStatus = r.rtcStatus := rfl
@[simp] theorem Region.setCl_isoSub (r : Region) (c : Cl) (k : Cluster) : (r.setCl c k).isoSub = r.isoSub := rfl
@[simp] theorem Region.setCl_isoWord (r : Region) (c : Cl) (k : Cluster) : (r.setCl c k).isoWord = r.isoWord := rfl

/-! ### Region.setEas -/

@[simp] theorem Region.setEas_regs (r : Region) (k : CoreNo) (e : Easel) : (r.setEas k e).regs = r.regs := rfl
@[simp] theorem Region.setEas_strokes (r : Region) (k : CoreNo) (e : Easel) : (r.setEas k e).strokes = r.strokes := rfl
@[simp] theorem Region.setEas_startv (r : Region) (k : CoreNo) (e : Easel) : (r.setEas k e).startv = r.startv := rfl
@[simp] theorem Region.setEas_clusters (r : Region) (k : CoreNo) (e : Easel) : (r.setEas k e).clusters = r.clusters := rfl
@[simp] theorem Region.setEas_dmem (r : Region) (k : CoreNo) (e : Easel) : (r.setEas k e).dmem = r.dmem := rfl
@[simp] theorem Region.setEas_ring (r : Region) (k : CoreNo) (e : Easel) : (r.setEas k e).ring = r.ring := rfl
@[simp] theorem Region.setEas_upsets (r : Region) (k : CoreNo) (e : Easel) : (r.setEas k e).upsets = r.upsets := rfl
@[simp] theorem Region.setEas_fix (r : Region) (k : CoreNo) (e : Easel) : (r.setEas k e).fix = r.fix := rfl
@[simp] theorem Region.setEas_mpos (r : Region) (k : CoreNo) (e : Easel) : (r.setEas k e).mpos = r.mpos := rfl
@[simp] theorem Region.setEas_takes (r : Region) (k : CoreNo) (e : Easel) : (r.setEas k e).takes = r.takes := rfl
@[simp] theorem Region.setEas_front (r : Region) (k : CoreNo) (e : Easel) : (r.setEas k e).front = r.front := rfl
@[simp] theorem Region.setEas_inject (r : Region) (k : CoreNo) (e : Easel) : (r.setEas k e).inject = r.inject := rfl
@[simp] theorem Region.setEas_arb (r : Region) (k : CoreNo) (e : Easel) : (r.setEas k e).arb = r.arb := rfl
@[simp] theorem Region.setEas_rwd (r : Region) (k : CoreNo) (e : Easel) : (r.setEas k e).rwd = r.rwd := rfl
@[simp] theorem Region.setEas_canvas (r : Region) (k : CoreNo) (e : Easel) : (r.setEas k e).canvas = r.canvas := rfl
@[simp] theorem Region.setEas_cells (r : Region) (k : CoreNo) (e : Easel) : (r.setEas k e).cells = r.cells := rfl
@[simp] theorem Region.setEas_mlog (r : Region) (k : CoreNo) (e : Easel) : (r.setEas k e).mlog = r.mlog := rfl
@[simp] theorem Region.setEas_lanes (r : Region) (k : CoreNo) (e : Easel) : (r.setEas k e).lanes = r.lanes := rfl
@[simp] theorem Region.setEas_io (r : Region) (k : CoreNo) (e : Easel) : (r.setEas k e).io = r.io := rfl
@[simp] theorem Region.setEas_disabled (r : Region) (k : CoreNo) (e : Easel) : (r.setEas k e).disabled = r.disabled := rfl
@[simp] theorem Region.setEas_fightSeen (r : Region) (k : CoreNo) (e : Easel) : (r.setEas k e).fightSeen = r.fightSeen := rfl
@[simp] theorem Region.setEas_releasing (r : Region) (k : CoreNo) (e : Easel) : (r.setEas k e).releasing = r.releasing := rfl
@[simp] theorem Region.setEas_resetDue (r : Region) (k : CoreNo) (e : Easel) : (r.setEas k e).resetDue = r.resetDue := rfl
@[simp] theorem Region.setEas_configured (r : Region) (k : CoreNo) (e : Easel) : (r.setEas k e).configured = r.configured := rfl
@[simp] theorem Region.setEas_live (r : Region) (k : CoreNo) (e : Easel) : (r.setEas k e).live = r.live := rfl
@[simp] theorem Region.setEas_rtcStatus (r : Region) (k : CoreNo) (e : Easel) : (r.setEas k e).rtcStatus = r.rtcStatus := rfl
@[simp] theorem Region.setEas_isoSub (r : Region) (k : CoreNo) (e : Easel) : (r.setEas k e).isoSub = r.isoSub := rfl
@[simp] theorem Region.setEas_isoWord (r : Region) (k : CoreNo) (e : Easel) : (r.setEas k e).isoWord = r.isoWord := rfl

end Sys2Proof.Machine
end

