-- ==== Sys2Proof/Laws/Store.lean ====
section
/-! SUPPORT. Laws of the sparse stores: a read after a write, and the canonical form. -/

namespace Sys2Proof.Machine

variable {α : Type}

@[simp] theorem SMap.get_nil (d : α) (k : Nat) : SMap.get d ([] : SMap α) k = d := rfl

theorem SMap.get_erase_same (d : α) (m : SMap α) (k : Nat) : SMap.get d (SMap.erase m k) k = d := by
  induction m with
  | nil => rfl
  | cons h t ih =>
    obtain ⟨k', v⟩ := h
    by_cases hk : k' = k <;> simp [SMap.erase, SMap.get, hk, ih]

theorem SMap.get_erase_ne (d : α) (m : SMap α) {k j : Nat} (hj : j ≠ k) : SMap.get d (SMap.erase m k) j = SMap.get d m j := by
  induction m with
  | nil => rfl
  | cons h t ih =>
    obtain ⟨k', v⟩ := h
    by_cases hk : k' = k
    · subst hk; simp [SMap.erase, SMap.get, ih, Ne.symm hj]
    · simp only [SMap.erase, hk, if_false, SMap.get, ih]

theorem SMap.get_insert_same (d : α) (m : SMap α) (k : Nat) (v : α) : SMap.get d (SMap.insert m k v) k = v := by
  induction m with
  | nil => simp [SMap.insert, SMap.get]
  | cons h t ih =>
    obtain ⟨k', v'⟩ := h
    unfold SMap.insert
    split
    · simp [SMap.get]
    · split
      · simp [SMap.get]
      · rename_i h2; simp [SMap.get, h2, ih]

theorem SMap.get_insert_ne (d : α) (m : SMap α) {k j : Nat} (v : α) (hj : j ≠ k) :
    SMap.get d (SMap.insert m k v) j = SMap.get d m j := by
  induction m with
  | nil => simp [SMap.insert, SMap.get, Ne.symm hj]
  | cons h t ih =>
    obtain ⟨k', v'⟩ := h
    unfold SMap.insert
    split
    · simp [SMap.get, Ne.symm hj]
    · split
      · rename_i h2; subst h2; simp [SMap.get, Ne.symm hj]
      · simp [SMap.get, ih]

/-- A read after a write to the same key gives the value written. -/
@[simp] theorem SMap.get_set_same [DecidableEq α] (d : α) (m : SMap α) (k : Nat) (v : α) : SMap.get d (SMap.set d m k v) k = v := by
  unfold SMap.set
  split
  · rename_i h; rw [SMap.get_erase_same, h]
  · exact SMap.get_insert_same d m k v

/-- A write leaves every other key alone. -/
theorem SMap.get_set_ne [DecidableEq α] (d : α) (m : SMap α) {k j : Nat} (v : α) (hj : j ≠ k) : SMap.get d (SMap.set d m k v) j = SMap.get d m j := by
  unfold SMap.set
  split
  · exact SMap.get_erase_ne d m hj
  · exact SMap.get_insert_ne d m v hj

/-! ### The canonical form -/

/-- Every key of a store lies above `b`. -/
def SMap.above (b : Nat) (m : SMap α) : Prop := ∀ e ∈ m, b < e.1

theorem SMap.rising_cons (k : Nat) (v : α) (t : SMap α) : SMap.rising ((k, v) :: t) = true ↔ SMap.above k t ∧ SMap.rising t = true := by
  induction t generalizing k v with
  | nil => simp [SMap.rising, SMap.above]
  | cons h t ih =>
    obtain ⟨k', v'⟩ := h
    simp only [SMap.rising, Bool.and_eq_true, decide_eq_true_eq]
    constructor
    · rintro ⟨h1, h2⟩
      refine ⟨?_, h2⟩
      intro e he
      rcases List.mem_cons.1 he with rfl | he
      · exact h1
      · exact Nat.lt_trans h1 (((ih k' v').1 h2).1 e he)
    · rintro ⟨h1, h2⟩
      exact ⟨h1 (k', v') (by simp), h2⟩

theorem SMap.mem_erase {m : SMap α} {k : Nat} {e : Nat × α} (h : e ∈ SMap.erase m k) : e ∈ m := by
  induction m with
  | nil => exact h
  | cons x t ih =>
    obtain ⟨k', v⟩ := x
    unfold SMap.erase at h
    split at h
    · exact List.mem_cons_of_mem _ (ih h)
    · rcases List.mem_cons.1 h with rfl | h
      · exact List.mem_cons_self
      · exact List.mem_cons_of_mem _ (ih h)

theorem SMap.mem_insert {m : SMap α} {k : Nat} {v : α} {e : Nat × α} (h : e ∈ SMap.insert m k v) : e = (k, v) ∨ e ∈ m := by
  induction m with
  | nil => simp [SMap.insert] at h; exact .inl h
  | cons x t ih =>
    obtain ⟨k', v'⟩ := x
    unfold SMap.insert at h
    split at h
    · rcases List.mem_cons.1 h with rfl | h
      · exact .inl rfl
      · exact .inr h
    · split at h
      · rcases List.mem_cons.1 h with rfl | h
        · exact .inl rfl
        · exact .inr (List.mem_cons_of_mem _ h)
      · rcases List.mem_cons.1 h with rfl | h
        · exact .inr List.mem_cons_self
        · rcases ih h with h | h
          · exact .inl h
          · exact .inr (List.mem_cons_of_mem _ h)

theorem SMap.rising_erase {m : SMap α} (k : Nat) (h : SMap.rising m = true) : SMap.rising (SMap.erase m k) = true := by
  induction m with
  | nil => rfl
  | cons x t ih =>
    obtain ⟨k', v⟩ := x
    have h' := (SMap.rising_cons k' v t).1 h
    unfold SMap.erase
    split
    · exact ih h'.2
    · exact (SMap.rising_cons _ _ _).2 ⟨fun e he => h'.1 e (SMap.mem_erase he), ih h'.2⟩

theorem SMap.rising_insert {m : SMap α} (k : Nat) (v : α) (h : SMap.rising m = true) : SMap.rising (SMap.insert m k v) = true := by
  induction m with
  | nil => rfl
  | cons x t ih =>
    obtain ⟨k', v'⟩ := x
    have h' := (SMap.rising_cons k' v' t).1 h
    unfold SMap.insert
    split
    · rename_i hk
      refine (SMap.rising_cons _ _ _).2 ⟨?_, h⟩
      intro e he
      rcases List.mem_cons.1 he with rfl | he
      · exact hk
      · exact Nat.lt_trans hk (h'.1 e he)
    · split
      · rename_i hk; subst hk; exact (SMap.rising_cons _ _ _).2 h'
      · rename_i h1 h2
        refine (SMap.rising_cons _ _ _).2 ⟨?_, ih h'.2⟩
        intro e he
        rcases SMap.mem_insert he with rfl | he
        · show k' < k; omega
        · exact h'.1 e he

/-- A write keeps the canonical form. -/
theorem SMap.wf_set [DecidableEq α] {d : α} {m : SMap α} (k : Nat) (v : α) (h : SMap.wf d m = true) : SMap.wf d (SMap.set d m k v) = true := by
  simp only [SMap.wf, Bool.and_eq_true, List.all_eq_true, decide_eq_true_eq] at h ⊢
  unfold SMap.set
  split
  · exact ⟨SMap.rising_erase k h.1, fun e he => h.2 e (SMap.mem_erase he)⟩
  · rename_i hv
    refine ⟨SMap.rising_insert k v h.1, fun e he => ?_⟩
    rcases SMap.mem_insert he with rfl | he
    · exact hv
    · exact h.2 e he

/-- Keeping some keys keeps the canonical form. -/
theorem SMap.wf_keep [DecidableEq α] {d : α} {m : SMap α} (p : Nat → Bool) (h : SMap.wf d m = true) : SMap.wf d (SMap.keep p m) = true := by
  simp only [SMap.wf, Bool.and_eq_true, List.all_eq_true, decide_eq_true_eq] at h ⊢
  obtain ⟨h1, h2⟩ := h
  refine ⟨?_, fun e he => h2 e ((List.mem_filter.1 he).1)⟩
  clear h2
  induction m with
  | nil => rfl
  | cons x t ih =>
    obtain ⟨k, v⟩ := x
    have h' := (SMap.rising_cons k v t).1 h1
    simp only [SMap.keep, List.filter_cons] at ih ⊢
    split
    · exact (SMap.rising_cons _ _ _).2 ⟨fun e he => h'.1 e ((List.mem_filter.1 he).1), ih h'.2⟩
    · exact ih h'.2

/-- A write of bytes keeps the canonical form of a memory. -/
theorem Mem.wf_write {m : Mem} (a n v : Nat) (h : Memory.wf m = true) : Memory.wf (Mem.write m a n v) = true := by
  induction n generalizing m a v with
  | zero => simpa [Mem.write] using h
  | succ n ih =>
    simp only [Mem.write]
    exact ih _ _ (SMap.wf_set _ _ h)

end Sys2Proof.Machine
end

