-- ==== Sys2Proof/Laws/Ops.lean ====
section
/-! SUPPORT. Laws of the shared operations: reads after writes of fields, registers, regions, cores, clusters and jobs. -/

namespace Sys2Proof.Machine

/-! ### Fields -/

/-- A field lies within a word. -/
def Fld.fits (f : Fld) : Prop := f.lo + f.w ≤ 32

/-- Two fields of different registers, or apart within one. -/
def Fld.apart (f g : Fld) : Prop := f.off ≠ g.off ∨ f.lo + f.w ≤ g.lo ∨ g.lo + g.w ≤ f.lo

theorem Fld.put_toNat (f : Fld) (hf : f.fits) (v : Word) (n : Nat) :
    (f.put v n).toNat = v.toNat % 2 ^ f.lo + 2 ^ f.lo * (n % 2 ^ f.w) + 2 ^ (f.lo + f.w) * (v.toNat / 2 ^ (f.lo + f.w)) := by
  unfold Fld.put
  rw [BitVec.toNat_ofNat]
  apply Nat.mod_eq_of_lt
  have h1 : v.toNat % 2 ^ f.lo < 2 ^ f.lo := Nat.mod_lt _ (by positivity)
  have h2 : n % 2 ^ f.w < 2 ^ f.w := Nat.mod_lt _ (by positivity)
  have h3 : v.toNat / 2 ^ (f.lo + f.w) < 2 ^ (32 - (f.lo + f.w)) := by
    apply Nat.div_lt_of_lt_mul
    rw [← Nat.pow_add]
    have : f.lo + f.w + (32 - (f.lo + f.w)) = 32 := by unfold Fld.fits at hf; omega
    rw [this]; exact v.isLt
  have e1 : 2 ^ f.lo * (n % 2 ^ f.w) + 2 ^ f.lo ≤ 2 ^ (f.lo + f.w) := by
    rw [Nat.pow_add, ← Nat.mul_succ]; exact Nat.mul_le_mul_left _ h2
  have e2 : 2 ^ (f.lo + f.w) * (v.toNat / 2 ^ (f.lo + f.w)) + 2 ^ (f.lo + f.w) ≤ 2 ^ 32 := by
    have : 2 ^ 32 = 2 ^ (f.lo + f.w) * 2 ^ (32 - (f.lo + f.w)) := by
      rw [← Nat.pow_add]; congr 1; unfold Fld.fits at hf; omega
    rw [this, ← Nat.mul_succ]; exact Nat.mul_le_mul_left _ h3
  omega

/-- A field reads what was put into it, modulo its width. -/
theorem Fld.of_put (f : Fld) (hf : f.fits) (v : Word) (n : Nat) : f.of (f.put v n) = n % 2 ^ f.w := by
  unfold Fld.of
  rw [Fld.put_toNat f hf]
  have h1 : v.toNat % 2 ^ f.lo < 2 ^ f.lo := Nat.mod_lt _ (by positivity)
  rw [Nat.pow_add]
  have : v.toNat % 2 ^ f.lo + 2 ^ f.lo * (n % 2 ^ f.w) + 2 ^ f.lo * 2 ^ f.w * (v.toNat / (2 ^ f.lo * 2 ^ f.w)) =
      v.toNat % 2 ^ f.lo + 2 ^ f.lo * (n % 2 ^ f.w + 2 ^ f.w * (v.toNat / (2 ^ f.lo * 2 ^ f.w))) := by ring
  rw [this, Nat.add_mul_div_left _ _ (by positivity), Nat.div_eq_of_lt h1, Nat.zero_add, Nat.add_mul_mod_self_left, Nat.mod_mod]

/-- A field apart from the one that is put keeps its value. -/
theorem Fld.of_put_apart (f g : Fld) (hf : f.fits) (h : f.lo + f.w ≤ g.lo ∨ g.lo + g.w ≤ f.lo) (v : Word) (n : Nat) :
    g.of (f.put v n) = g.of v := by
  unfold Fld.of
  rw [Fld.put_toNat f hf]
  have h1 : v.toNat % 2 ^ f.lo < 2 ^ f.lo := Nat.mod_lt _ (by positivity)
  have h2 : n % 2 ^ f.w < 2 ^ f.w := Nat.mod_lt _ (by positivity)
  rcases h with h | h
  · have hlow : v.toNat % 2 ^ f.lo + 2 ^ f.lo * (n % 2 ^ f.w) < 2 ^ (f.lo + f.w) := by
      have : 2 ^ f.lo * (n % 2 ^ f.w) + 2 ^ f.lo ≤ 2 ^ (f.lo + f.w) := by
        rw [Nat.pow_add, ← Nat.mul_succ]; exact Nat.mul_le_mul_left _ h2
      omega
    have e : 2 ^ g.lo = 2 ^ (f.lo + f.w) * 2 ^ (g.lo - (f.lo + f.w)) := by
      rw [← Nat.pow_add]; congr 1; omega
    rw [e, ← Nat.div_div_eq_div_mul, ← Nat.div_div_eq_div_mul, Nat.add_mul_div_left _ _ (by positivity),
      Nat.div_eq_of_lt hlow, Nat.zero_add]
  · have e1 : 2 ^ f.lo = 2 ^ g.lo * (2 ^ g.w * 2 ^ (f.lo - (g.lo + g.w))) := by
      rw [← Nat.pow_add, ← Nat.pow_add]; congr 1; omega
    have split : v.toNat % 2 ^ f.lo + 2 ^ f.lo * (n % 2 ^ f.w) + 2 ^ (f.lo + f.w) * (v.toNat / 2 ^ (f.lo + f.w)) =
        v.toNat % 2 ^ f.lo + 2 ^ f.lo * (n % 2 ^ f.w + 2 ^ f.w * (v.toNat / 2 ^ (f.lo + f.w))) := by
      rw [Nat.pow_add]; ring
    have own : v.toNat = v.toNat % 2 ^ f.lo + 2 ^ f.lo * (v.toNat / 2 ^ f.lo) := (Nat.mod_add_div _ _).symm
    rw [split]
    conv_rhs => rw [own]
    have key : ∀ x : Nat, (v.toNat % 2 ^ f.lo + 2 ^ f.lo * x) / 2 ^ g.lo % 2 ^ g.w = v.toNat % 2 ^ f.lo / 2 ^ g.lo % 2 ^ g.w := by
      intro x
      have : v.toNat % 2 ^ f.lo + 2 ^ f.lo * x =
          v.toNat % 2 ^ f.lo + 2 ^ g.lo * (2 ^ g.w * (2 ^ (f.lo - (g.lo + g.w)) * x)) := by rw [e1]; ring
      rw [this, Nat.add_mul_div_left _ _ (by positivity), Nat.add_mul_mod_self_left]
    rw [key, key]

theorem Fld.of_lt (f : Fld) (v : Word) : f.of v < 2 ^ f.w := Nat.mod_lt _ (by positivity)

/-! ### Hub registers -/

@[simp] theorem State.reg_setReg_same (s : State) (a : Nat) (v : Word) : (s.setReg a v).reg a = v := by
  simp [State.reg, State.setReg]

theorem State.reg_setReg_ne (s : State) {a b : Nat} (v : Word) (h : b ≠ a) : (s.setReg a v).reg b = s.reg b := by
  simp only [State.reg, State.setReg]
  unfold SMap.set
  split
  · exact SMap.get_erase_ne _ _ h
  · exact SMap.get_insert_ne _ _ v h

@[simp] theorem State.f_setF_same (s : State) (f : Fld) (hf : f.fits) (n : Nat) : (s.setF f n).f f = n % 2 ^ f.w := by
  simp [State.f, State.setF, Fld.of_put f hf]

theorem State.f_setF_apart (s : State) (f g : Fld) (hf : f.fits) (h : f.apart g) (n : Nat) : (s.setF f n).f g = s.f g := by
  unfold State.f State.setF
  by_cases ho : g.off = f.off
  · rw [ho, State.reg_setReg_same]
    rcases h with h | h
    · exact absurd ho.symm h
    · exact Fld.of_put_apart f g hf h _ _
  · rw [State.reg_setReg_ne _ _ ho]

theorem State.f_setReg_ne (s : State) (g : Fld) {a : Nat} (v : Word) (h : g.off ≠ a) : (s.setReg a v).f g = s.f g := by
  unfold State.f; rw [State.reg_setReg_ne _ _ h]

theorem State.reg_setF_ne (s : State) (f : Fld) {a : Nat} (n : Nat) (h : a ≠ f.off) : (s.setF f n).reg a = s.reg a :=
  State.reg_setReg_ne _ _ h

/-- A counter after it is raised. -/
theorem State.f_bump_same (s : State) (f : Fld) (hf : f.fits) (k : Nat) : (s.bump f k).f f = min (s.f f + k) f.max := by
  unfold State.bump
  rw [State.f_setF_same _ _ hf]
  apply Nat.mod_eq_of_lt
  have : f.max < 2 ^ f.w := Nat.sub_lt (Nat.pos_of_ne_zero (by positivity)) (by decide)
  omega

/-! ### Regions -/

@[simp] theorem State.rgn_setRgn_same (s : State) (rg : Rg) (r : Region) : (s.setRgn rg r).rgn rg = r := by
  simp [State.rgn, State.setRgn]

theorem State.rgn_setRgn_ne (s : State) {rg rh : Rg} (r : Region) (h : rh ≠ rg) : (s.setRgn rg r).rgn rh = s.rgn rh := by
  unfold State.rgn State.setRgn
  exact SMap.get_set_ne _ _ _ (fun e => h (BitVec.eq_of_toNat_eq e))

@[simp] theorem State.rgn_onRgn_same (s : State) (rg : Rg) (g : Region → Region) : (s.onRgn rg g).rgn rg = g (s.rgn rg) := by
  simp [State.onRgn]

theorem State.rgn_onRgn_ne (s : State) {rg rh : Rg} (g : Region → Region) (h : rh ≠ rg) : (s.onRgn rg g).rgn rh = s.rgn rh :=
  State.rgn_setRgn_ne s _ h

@[simp] theorem State.rgn_setReg (s : State) (a : Nat) (v : Word) (rg : Rg) : (s.setReg a v).rgn rg = s.rgn rg := rfl
@[simp] theorem State.rgn_setF (s : State) (f : Fld) (n : Nat) (rg : Rg) : (s.setF f n).rgn rg = s.rgn rg := rfl
@[simp] theorem State.reg_setRgn (s : State) (rg : Rg) (r : Region) (a : Nat) : (s.setRgn rg r).reg a = s.reg a := rfl
@[simp] theorem State.reg_onRgn (s : State) (rg : Rg) (g : Region → Region) (a : Nat) : (s.onRgn rg g).reg a = s.reg a := rfl
@[simp] theorem State.f_onRgn (s : State) (rg : Rg) (g : Region → Region) (f : Fld) : (s.onRgn rg g).f f = s.f f := rfl
@[simp] theorem State.f_setRf (s : State) (rg : Rg) (g : Fld) (n : Nat) (f : Fld) : (s.setRf rg g n).f f = s.f f := rfl

@[simp] theorem Region.reg_setReg_same (r : Region) (a : Nat) (v : Word) : (r.setReg a v).reg a = v := by
  simp [Region.reg, Region.setReg]

theorem Region.reg_setReg_ne (r : Region) {a b : Nat} (v : Word) (h : b ≠ a) : (r.setReg a v).reg b = r.reg b := by
  simp only [Region.reg, Region.setReg]
  unfold SMap.set
  split
  · exact SMap.get_erase_ne _ _ h
  · exact SMap.get_insert_ne _ _ v h

@[simp] theorem Region.f_setF_same (r : Region) (f : Fld) (hf : f.fits) (n : Nat) : (r.setF f n).f f = n % 2 ^ f.w := by
  simp [Region.f, Region.setF, Fld.of_put f hf]

theorem Region.f_setF_apart (r : Region) (f g : Fld) (hf : f.fits) (h : f.apart g) (n : Nat) : (r.setF f n).f g = r.f g := by
  unfold Region.f Region.setF
  by_cases ho : g.off = f.off
  · rw [ho, Region.reg_setReg_same]
    rcases h with h | h
    · exact absurd ho.symm h
    · exact Fld.of_put_apart f g hf h _ _
  · rw [Region.reg_setReg_ne _ _ ho]

theorem Region.f_setReg_ne (r : Region) (g : Fld) {a : Nat} (v : Word) (h : g.off ≠ a) : (r.setReg a v).f g = r.f g := by
  unfold Region.f; rw [Region.reg_setReg_ne _ _ h]

theorem Region.f_bump_same (r : Region) (f : Fld) (hf : f.fits) (k : Nat) : (r.bump f k).f f = min (r.f f + k) f.max := by
  unfold Region.bump
  rw [Region.f_setF_same _ _ hf]
  apply Nat.mod_eq_of_lt
  have : f.max < 2 ^ f.w := Nat.sub_lt (Nat.pos_of_ne_zero (by positivity)) (by decide)
  omega

@[simp] theorem State.rf_setRf_same (s : State) (rg : Rg) (f : Fld) (hf : f.fits) (n : Nat) : (s.setRf rg f n).rf rg f = n % 2 ^ f.w := by
  simp [State.rf, State.setRf, Region.f_setF_same _ _ hf]

theorem State.rf_setRf_apart (s : State) (rg : Rg) (f g : Fld) (hf : f.fits) (h : f.apart g) (n : Nat) :
    (s.setRf rg f n).rf rg g = s.rf rg g := by
  simp [State.rf, State.setRf, Region.f_setF_apart _ _ _ hf h]

/-! ### Cores and clusters -/

@[simp] theorem Region.eas_setEas_same (r : Region) (k : CoreNo) (e : Easel) : (r.setEas k e).eas k = e := by
  simp [Region.eas, Region.setEas]

theorem Region.eas_setEas_ne (r : Region) {k j : CoreNo} (e : Easel) (h : j ≠ k) : (r.setEas k e).eas j = r.eas j := by
  unfold Region.eas Region.setEas
  exact SMap.get_set_ne _ _ _ (fun x => h (Fin.ext x))

@[simp] theorem Region.eas_setReg (r : Region) (a : Nat) (v : Word) (k : CoreNo) : (r.setReg a v).eas k = r.eas k := rfl
@[simp] theorem Region.eas_setF (r : Region) (f : Fld) (n : Nat) (k : CoreNo) : (r.setF f n).eas k = r.eas k := rfl
@[simp] theorem Region.f_setEas (r : Region) (k : CoreNo) (e : Easel) (f : Fld) : (r.setEas k e).f f = r.f f := rfl
@[simp] theorem Region.reg_setEas (r : Region) (k : CoreNo) (e : Easel) (a : Nat) : (r.setEas k e).reg a = r.reg a := rfl

@[simp] theorem State.eas_setEas_same (s : State) (rg : Rg) (k : CoreNo) (e : Easel) : (s.setEas rg k e).eas rg k = e := by
  simp [State.eas, State.setEas]

@[simp] theorem State.eas_onEas_same (s : State) (rg : Rg) (k : CoreNo) (g : Easel → Easel) :
    (s.onEas rg k g).eas rg k = g (s.eas rg k) := by
  simp [State.onEas]

@[simp] theorem State.eas_setRf (s : State) (rg rh : Rg) (f : Fld) (n : Nat) (k : CoreNo) : (s.setRf rg f n).eas rh k = s.eas rh k := by
  unfold State.eas State.setRf
  by_cases h : rh = rg
  · subst h; simp
  · rw [State.rgn_onRgn_ne _ _ h]

@[simp] theorem Region.cl_setCl_same (r : Region) (c : Cl) (k : Cluster) : (r.setCl c k).cl c = k := by
  simp [Region.cl, Region.setCl]

theorem Region.cl_setCl_ne (r : Region) {c d : Cl} (k : Cluster) (h : d ≠ c) : (r.setCl c k).cl d = r.cl d := by
  unfold Region.cl Region.setCl
  exact SMap.get_set_ne _ _ _ (fun e => h (BitVec.eq_of_toNat_eq e))

@[simp] theorem State.cl_setCl_same (s : State) (rg : Rg) (c : Cl) (k : Cluster) : (s.setCl rg c k).cl rg c = k := by
  simp [State.cl, State.setCl]

@[simp] theorem State.rf_setCl (s : State) (rg rh : Rg) (c : Cl) (k : Cluster) (f : Fld) : (s.setCl rg c k).rf rh f = s.rf rh f := by
  unfold State.rf State.setCl
  by_cases h : rh = rg
  · subst h; simp; rfl
  · rw [State.rgn_onRgn_ne _ _ h]

@[simp] theorem State.rf_setEas (s : State) (rg rh : Rg) (k : CoreNo) (e : Easel) (f : Fld) : (s.setEas rg k e).rf rh f = s.rf rh f := by
  unfold State.rf State.setEas
  by_cases h : rh = rg
  · subst h; simp
  · rw [State.rgn_onRgn_ne _ _ h]

/-! ### Jobs -/

@[simp] theorem State.job_setJob_same (s : State) (j : Job) (x : JobState) : (s.setJob j x).job j = x := by
  simp [State.job, State.setJob]

theorem State.job_setJob_ne (s : State) {i j : Job} (x : JobState) (h : i ≠ j) : (s.setJob j x).job i = s.job i := by
  unfold State.job State.setJob
  exact SMap.get_set_ne _ _ _ (fun e => h (BitVec.eq_of_toNat_eq e))

@[simp] theorem State.f_setJob (s : State) (j : Job) (x : JobState) (f : Fld) : (s.setJob j x).f f = s.f f := rfl

/-! ### Canonical forms -/

/-- The stores of the state whose entries every register access touches are in their canonical form. -/
theorem State.setReg_regs_rising (s : State) (a : Nat) (v : Word) (h : SMap.rising s.regs = true) :
    SMap.rising (s.setReg a v).regs = true := by
  unfold State.setReg SMap.set
  split
  · exact SMap.rising_erase _ h
  · exact SMap.rising_insert _ _ h

theorem State.setRgn_wf (s : State) (rg : Rg) (r : Region) (h : SMap.wf {} s.rgns = true) : SMap.wf {} (s.setRgn rg r).rgns = true :=
  SMap.wf_set _ _ h

end Sys2Proof.Machine
end

