-- ==== Sys2Proof/Laws/SelfTest.lean ====
section
/-! SUPPORT. Laws of self-test and of the crossings: what a spare may be, what a step of a test leaves alone. -/

namespace Sys2Proof.Machine

/-- A spare that is taken is one of the macro's, free, and does not fail itself (R467). -/
theorem freeSpare_some {bad : List SpareFail} {map : List (BitVec 64)} {mac kind n i : Nat} (h : freeSpare bad map mac kind n = some i) :
    i < n ∧ (∀ e ∈ map, ¬ (entryMacro e = mac ∧ entryKind e = kind ∧ entrySpare e = i)) ∧
      ∀ x ∈ bad, ¬ (spareMacro x = mac ∧ x.col.toNat = kind ∧ x.index.toNat = i) := by
  have hp := List.find?_some h
  have hm := List.mem_of_find?_eq_some h
  simp only [Bool.and_eq_true, Bool.not_eq_true', List.any_eq_false, decide_eq_true_eq] at hp
  exact ⟨List.mem_range.mp hm, hp.1, hp.2⟩

/-- A step that is abandoned leaves every store as it was (R464): only FLT's registers and the state of the tests change. -/
theorem abandonTest_frame (s : State) (rg : Rg) :
    abandonTest s rg = { s with regs := (abandonTest s rg).regs, bist := (abandonTest s rg).bist } := by
  unfold abandonTest
  split <;> rfl

/-- Taking up a block draws at most one free value (R463): only FLT's registers and the state of the tests change besides. -/
theorem takeBlock_frame (s : State) (rg : Rg) :
    takeBlock s rg = { s with regs := (takeBlock s rg).regs, drawn := (takeBlock s rg).drawn, bist := (takeBlock s rg).bist } := by
  unfold takeBlock
  split
  · unfold abandonTest
    split <;> rfl
  · rfl

/-- An event that comes to a crossing changes the count there, and draws at most one free value (R365). -/
theorem State.findsRoom_frame (s : State) (key places : Nat) :
    (s.findsRoom key places).2 = { s with bursts := (s.findsRoom key places).2.bursts, drawn := (s.findsRoom key places).2.drawn } := by
  unfold State.findsRoom
  dsimp only
  repeat' split
  all_goals rfl

/-- An event among the first ones that its crossing has places for goes in (R365, R451). -/
theorem State.findsRoom_first (s : State) (key places : Nat) (h : (SMap.get (0, 0) s.bursts key).2 < places) :
    (s.findsRoom key places).1 = true := by
  unfold State.findsRoom
  dsimp only
  repeat' split
  all_goals first | rfl | omega

end Sys2Proof.Machine
end

