-- ==== Sys2Proof/WellFormed.lean ====
section
/-! DEFINITION. Well-formed commands: operands within what the hardware can send or sense. The meanings are total beyond it. -/

namespace Sys2Proof

/-- A packet on the packet plane (R248): LEN is at most 32; a READ carries no data flit, any other packet with data carries LEN. -/
def Packet.ok (p : Packet) : Bool :=
  decide (p.len.toNat ≤ 32) && decide (p.data.length = p.len.toNat ∨ p.data = [])

/-- Eight FIO pins and two UIO pins of a region (R173). -/
def ioPinOk (i : BitVec 3) (uio : Bool) : Bool := !uio || decide (i.toNat < 2)

/-- A failing bit lies in a macro of R465. -/
def BistFail.ok (f : BistFail) : Bool :=
  if f.hub then decide (f.mac.toNat < 128)
  else decide (f.mac.toNat ≤ 1160) || (decide (1200 ≤ f.mac.toNat) && decide (f.mac.toNat ≤ 1219))

/-- The failing bits and spares of a report lie in macros of R465. -/
def BistReport.ok (r : BistReport) : Bool :=
  r.fails.all BistFail.ok &&
    r.spares.all (fun s => (if s.hub then decide (s.mac.toNat < 64) else decide (s.mac.toNat ≤ 1160)) &&
      (!s.col || decide (s.index.toNat < 2)))

/-- The operands of a command are ones that can occur. -/
def Instr.wellFormed (c : Instr) : Bool :=
  match c with
  | .requestInject p _ => p.ok
  | .injectionTimeout p _ => p.ok
  | .read p _ => p.ok && decide (p.data = [])
  | .write p _ => p.ok
  | .writePosted p _ => p.ok
  | .atomic p _ => p.ok
  | .message p _ => p.ok
  | .frameWrite p => p.ok
  | .respData p => p.ok
  | .respAck p => p.ok
  | .respError p => p.ok
  | .tick p _ => p.ok
  | .start p _ => p.ok
  | .discover _ m => m.ok
  | .fabricReset p _ _ => p.ok
  | .powerSample _ quads => decide (quads.length = 4)
  | .thermalSample temps => decide (temps.length = 65)
  | .laneFault _ lane => decide (lane.toNat < 9)
  | .pinInterrupt line _ => decide (line.toNat < 6)
  | .fioInputToken _ i uio _ => ioPinOk i uio
  | .levelRequest _ i uio _ => ioPinOk i uio
  | .fioOutputToken _ i uio => ioPinOk i uio
  | .enableToken _ i uio => ioPinOk i uio
  | .edgeInput _ i uio _ => ioPinOk i uio
  | .startupBistEnd fails => fails.report.ok
  | .shutdownBistEnd fails _ => fails.ok
  | .bistStep _ fails _ _ => fails.ok
  | _ => true

end Sys2Proof
end

