-- ==== Sys2Proof/Tests/Slice0.lean ====
section
/-! SUPPORT. A witness for every hypothesis of every statement (theorem witness_<Name>, one conjunct per clause of the statement, in
its order), ill-formed commands that the check refuses, and the spec's worked examples. -/

open Sys2Proof Sys2Proof.Machine
namespace Sys2Proof.Tests

set_option Elab.async false

/-- The reset state with fields of hub registers set. -/
def hub (fs : List (Fld × Nat)) : State := fs.foldl (fun s x => s.setF x.1 x.2) State.reset

/-- A state with fields of a region's registers set. -/
def rgnF (rg : Rg) (fs : List (Fld × Nat)) (s : State) : State := fs.foldl (fun s x => s.setRf rg x.1 x.2) s

/-- A stroke word with its check bits: OP, DEST, CTRL, TT and operands 0 to 3 as entries. -/
def sw (op dest ctrl tt : Nat) (os : List Nat) : BitVec 112 :=
  strokeEncode (BitVec.ofNat 104 (2 ^ 100 * op + 2 ^ 90 * dest + 2 ^ 80 * ctrl + 2 ^ 64 * tt + packKey (os.map (fun e => (64 * e, 16)))))

/-- Region 3 in STROKING, its cluster 1 at stroke 0, which BP `b` has as `w`; palette entry 5 reads 1. -/
def stroking (b : Bp) (w : BitVec 112) : State :=
  (rgnF 3 [(F.FIX_STATUS_STATE, 2)] State.reset).onRgn 3 (fun r =>
    { r with strokes := [(strokeKey 1 b 0, w)], clusters := [(1, { running := true, pal := [(5, 1)] })] })

/-- The same with a cluster operation of the lead BP that waits. -/
def leadAt (l : Lead) : State := (stroking 0 (sw 0 0 0 0 [])).onCl 3 1 (fun k => { k with lead := l })

/-- Region 3 with a running canvas: configuration blocks and cells by number. -/
def cellsAt (cfg : List (Nat × Nat)) (cs : List (Nat × Cell)) : State :=
  (rgnF 3 [(F.RGN_STATUS_CFG, 1)] State.reset).onRgn 3 (fun r =>
    { r with live := true, canvas := cfg.map (fun x => (x.1, BitVec.ofNat 2048 x.2)), cells := cs })

/-- Core 1 of region 3 runs and stands at `w`; registers by number. -/
def coreOn (w : Nat) (regs : List (Nat × BitVec 16)) (e : Easel) : State :=
  (rgnF 3 [(F.RGN_STATUS_CFG, 1), (F.EAS_STATUS_STATE 1, 1)] (hub [(F.PWR_QSTAT_STATE 0, 0)])).onRgn 3 (fun r =>
    { r with easels := [(1, { e with prog := Mem.write [] 0 4 w, r := regs })] })

/-- A FULL load in progress by Oxdon, section `typ` open at offset 96 with the 4-byte words `ws` staged there. -/
def loadAt (typ : Nat) (ws : List Nat) : State :=
  { hub [(F.CFG_STATUS_STATE, 1)] with load := { kind := .full, path := 2, point := 96, sec := some { typ := BitVec.ofNat 8 typ, enc := false, count := 1, len := 4 * ws.length, nonce := 0, start := 96 }, stage := stageWords [] 96 (ws.map (BitVec.ofNat 32)) } }

/-- The section of `loadAt`, and the data bytes of its one run. -/
def secAt (typ n : Nat) : Section := { typ := BitVec.ofNat 8 typ, enc := false, count := 1, len := 4 * n, nonce := 0, start := 96 }
def dataOf (ws : List Nat) : List (BitVec 8) := ws.flatMap (bytesOf 4)

theorem get_zeros (n a k : Nat) (h : a ≤ k) (h' : k < a + n) :
    SMap.get none ((List.range' a n).map (fun i => (i, (some 0 : Option Word)))) k = some 0 := by
  induction n generalizing a with
  | zero => omega
  | succ n ih =>
    simp only [List.range'_succ, List.map_cons, SMap.get]
    split
    · rfl
    · exact ih (a + 1) (by omega) (by omega)

theorem staged_zeros (m : SMap (Option Word)) (n a : Nat) (h : ∀ i, a ≤ i → i < a + n → SMap.get none m (i / 4) = some 0) :
    stagedBytes m a n = some (List.replicate n 0) := by
  induction n generalizing a with
  | zero => rfl
  | succ n ih =>
    have h1 : stagedByte m a = some 0 := by
      simp [stagedByte, h a (by omega) (by omega), bitsAt]
    simp only [stagedBytes, h1, ih (a + 1) (fun i _ _ => h i (by omega) (by omega)), List.replicate_succ]

/-- `loadAt` with a header word and `n` words of zeros behind it. -/
def zerosAt (typ h n : Nat) : State :=
  { hub [(F.CFG_STATUS_STATE, 1)] with load := { kind := .full, path := 2, point := 96, sec := some (secAt typ (n + 1)), stage := (24, some (BitVec.ofNat 32 h)) :: (List.range' 25 n).map (fun i => (i, some 0)) } }

theorem run_zeros (typ h n : Nat) (ht : typ < 256) (hh : h < 2 ^ 32) (hn : runSize typ h = .ok (4 * n)) :
    readRun (zerosAt typ h (n + 1)) (secAt typ (n + 2)) = .run h (List.replicate (4 * n) 0) := by
  have hb : stagedBytes (zerosAt typ h (n + 1)).load.stage 96 8 = some (bytesOf 4 h ++ List.replicate 4 0) := by
    simp [stagedBytes, stagedByte, zerosAt, SMap.get, List.range'_succ, bytesOf, bitsAt, List.replicate]
    rw [Nat.mod_eq_of_lt (by omega)]
    refine ⟨rfl, ?_, ?_⟩ <;> congr 1 <;> omega
  have hd : stagedBytes (zerosAt typ h (n + 1)).load.stage 104 (4 * n) = some (List.replicate (4 * n) 0) := by
    apply staged_zeros
    intro i h1 h2
    have : (24 : Nat) ≠ i / 4 := by omega
    simp only [zerosAt, SMap.get, this, if_false]
    exact get_zeros _ _ _ (by omega) (by omega)
  have hle : leNat (bytesOf 4 h ++ List.replicate 4 0) = h := by
    simp [bytesOf, leNat, List.replicate]
    omega
  have e1 : (BitVec.ofNat 8 typ).toNat = typ := by simp; omega
  have b1 : Section.bytes (zerosAt typ h (n + 1)) (secAt typ (n + 2)) 0 8 = .ok (bytesOf 4 h ++ List.replicate 4 0) := by
    simp [Section.bytes, secAt, hb]
  have b2 : Section.bytes (zerosAt typ h (n + 1)) (secAt typ (n + 2)) 8 (4 * n) = .ok (List.replicate (4 * n) 0) := by
    simp [Section.bytes, secAt, hd]
  unfold readRun
  have l1 : (secAt typ (n + 2)).len = 4 * (n + 2) := rfl
  have l2 : (secAt typ (n + 2)).done = 0 := rfl
  have l3 : (secAt typ (n + 2)).typ = BitVec.ofNat 8 typ := rfl
  simp only [l1, l2, l3, e1, b1, hle, hn]
  rw [if_neg (by omega)]
  simp only [Nat.zero_add, b2]
  rw [if_neg (by omega)]

/-- Partition 1 of a package is `scope` of region 3; a partial for it, with no section but its signature, is whole in state `st`. -/
def partialAt (st scope : Nat) : State :=
  (rgnF 3 [(F.RGN_STATUS_CFG, 1)]
    { hub [(F.RTC_STATUS_STATE, st), (F.RTC_STATUS_PID, 1)] with load := { kind := .retouch, path := 2, point := 64, stage := stageWords [] 0 (([0x424C5241, 0x31535449, 0x000400C0, 0x00020001, 296, 0, 0, 0, 1, 0, 1, 0, 0, 0, 0, 0, 15, 0, 200] ++
          List.replicate 55 0).map (BitVec.ofNat 32)) } }).setReg (R.CFG_PART 128) (BitVec.ofNat 32 (1 + 2 ^ 10 * 3 + 2 ^ 14 * scope))
    |>.onRgn 3 (fun r => { r with configured := true })

/-- A packet of epoch 0 between two nodes. -/
def pk (dest src cmd len addr : Nat) (data : List Flit) : Packet :=
  { dest := BitVec.ofNat 24 dest, src := BitVec.ofNat 24 src, cmd := BitVec.ofNat 6 cmd, tag := 0, len := BitVec.ofNat 6 len, epoch := 0, vc := 0, addr := BitVec.ofNat 40 addr, data := data, poison := 0 }

/-- One packet has arrived. -/
def came (p : Packet) (s : State) : State := { s with arrived := [p] }

/-- Port 1 in a link state, its port state as given. -/
def portAt (st : Nat) (x : Port) (fs : List (Fld × Nat) := []) : State :=
  { hub ([(F.LNK_CTRL_EN 1, 1), (F.LNK_STATUS_STATE 1, st)] ++ fs) with ports := [(1, x)] }

/-- The bits of a frame in front of its CRC. -/
def frameText (typ seq : Nat) (payload : BitVec 512) : BitVec 544 := BitVec.ofNat 544 (packKey [(typ, 4), (seq, 12), (payload.toNat, 512)])

theorem mkFrame_low (typ seq : Nat) (payload : BitVec 512) (i : Nat) (h : i < 528) :
    (mkFrame typ seq payload).getLsbD i = (frameText typ seq payload).getLsbD i := by
  simp only [mkFrame, setBits, BitVec.getLsbD_or, BitVec.getLsbD_and, BitVec.getLsbD_not, BitVec.getLsbD_shiftLeft]
  have h1 : i < 544 := by omega
  simp [h, h1, frameText]

theorem bitsAt_getLsbD {n : Nat} (x : BitVec n) (lo w i : Nat) : (bitsAt x lo w).getLsbD i = (decide (i < w) && x.getLsbD (lo + i)) := by
  simp [bitsAt, BitVec.getLsbD, Nat.testBit_div_two_pow, Nat.add_comm]

theorem bitsAt_mkFrame (typ seq : Nat) (payload : BitVec 512) (lo w : Nat) (h : lo + w ≤ 528) :
    bitsAt (mkFrame typ seq payload) lo w = bitsAt (frameText typ seq payload) lo w := by
  apply BitVec.eq_of_getLsbD_eq
  intro i hi
  rw [bitsAt_getLsbD, bitsAt_getLsbD, mkFrame_low _ _ _ _ (by omega)]

theorem frameType_mkFrame (typ seq : Nat) (payload : BitVec 512) (h : typ < 16) : frameType (mkFrame typ seq payload) = typ := by
  have e : ∀ f : BitVec 544, frameType f = (bitsAt f 0 4).toNat := by intro f; simp [frameType, bitsAt]
  rw [e, bitsAt_mkFrame _ _ _ _ _ (by omega)]
  simp [frameText, bitsAt, packKey]
  omega

theorem crcOk_mkFrame (typ seq : Nat) (payload : BitVec 512) : crcOk (mkFrame typ seq payload) = true := by
  have e1 : frameCrc (mkFrame typ seq payload) = frameCrc (frameText typ seq payload) := by
    have g : ∀ (l : List Nat) (r : BitVec 16), (∀ i ∈ l, i < 528) →
        l.foldl (fun r i => crcStep r ((mkFrame typ seq payload).getLsbD i)) r = l.foldl (fun r i => crcStep r ((frameText typ seq payload).getLsbD i)) r := by
      intro l
      induction l with
      | nil => intro r _; simp only [List.foldl_nil]
      | cons a l ih =>
        intro r hl
        simp only [List.foldl_cons]
        rw [mkFrame_low _ _ _ _ (hl a (by simp))]
        exact ih _ (fun i hi => hl i (by simp [hi]))
    unfold frameCrc
    generalize hl : List.range 528 = l at *
    exact g l _ (fun i hi => List.mem_range.1 (hl ▸ hi))
  have e2 : bitsAt (mkFrame typ seq payload) 528 16 = crcField (frameText typ seq payload) := by
    apply BitVec.eq_of_getLsbD_eq
    intro i hi
    rw [bitsAt_getLsbD]
    simp only [mkFrame, setBits, BitVec.getLsbD_or, BitVec.getLsbD_and, BitVec.getLsbD_not, BitVec.getLsbD_shiftLeft]
    have h1 : 528 + i < 544 := by omega
    have h2 : i < 544 := by omega
    have h3 : (65535#544).getLsbD i = true := by
      have : ∀ j : Fin 16, (65535#544).getLsbD j.val = true := by decide +kernel
      exact this ⟨i, hi⟩
    simp [hi, h1, h2, h3, frameText]
  have e3 : crcField (mkFrame typ seq payload) = crcField (frameText typ seq payload) := congrArg BitVec.reverse e1
  unfold crcOk
  exact decide_eq_true (e2.trans e3.symm)

theorem sound_mkFrame (s : State) (p : PortNo) (typ seq : Nat) (payload : BitVec 512) (h : s.link p.val = 5) (ht : typ < 16) :
    SoundFrame s p (mkFrame typ seq payload) [] typ :=
  And.intro h (And.intro rfl (And.intro (crcOk_mkFrame typ seq payload) (frameType_mkFrame typ seq payload ht)))

theorem frameSeq_mkFrame (typ seq : Nat) (payload : BitVec 512) : frameSeq (mkFrame typ seq payload) = BitVec.ofNat 12 seq := by
  rw [frameSeq, bitsAt_mkFrame _ _ _ _ _ (by omega)]
  apply BitVec.eq_of_toNat_eq
  simp [frameText, bitsAt, packKey]
  omega

/-- A package that is up, its I3C target at dynamic address 9, with hub fields set. -/
def i3cUpS (fs : List (Fld × Nat)) : State :=
  { hub ([(F.HIF_STATUS_DA_VALID, 1), (F.HIF_STATUS_DA, 9)] ++ fs) with pwr := { boot := .up } }

theorem witness_RegionResetAndIsolation :
    (∃ (rg : Rg) (s : State), s.rf rg F.RGN_STATUS_RESET_BUSY = 0 ∧ s.enclosingReset rg = false) ∧
    (∃ (rg : Rg) (s : State), s.rf rg F.RGN_STATUS_RESET_BUSY = 1) ∧
    (∃ (rg : Rg) (s : State), s.enclosingReset rg = true) ∧
    (∃ (rg : Rg) (s : State), s.rf rg F.RGN_CTRL_ISOLATE = 0) ∧
    (∃ (rg : Rg) (j : Job) (s : State), s.rf rg F.RGN_CTRL_ISOLATE = 0 ∧ s.jobOf rg = some j) ∧
    (∃ (rg : Rg) (s : State), s.rf rg F.RGN_CTRL_ISOLATE = 1) ∧
    (∃ (rg : Rg) (s : State), s.rf rg F.RGN_CTRL_ISOLATE = 1 ∧ s.rf rg F.RGN_STATUS_RESET_BUSY = 0 ∧ s.enclosingReset rg = false) ∧
    (∃ (rg : Rg) (s : State), s.rf rg F.RGN_CTRL_ISOLATE = 0) ∧
    (∃ (rg : Rg) (s : State), s.rf rg F.RGN_CTRL_ISOLATE = 0 ∧ s.rf rg F.RGN_WDOG_LIMIT ≠ 0 ∧ 2 ≤ s.rf rg F.FIX_STATUS_STATE ∧ s.rf rg F.FIX_STATUS_STATE ≤ 4 ∧ 1000 * s.rf rg F.RGN_WDOG_LIMIT ≤ (s.rgn rg).fix.noFix) ∧
    (∃ (rg : Rg) (s : State), s.rf rg F.RGN_CTRL_ISOLATE = 0 ∧ s.rf rg F.RGN_WDOG_GRANT ≠ 0 ∧ s.rf rg F.DMEM_STATUS_OWNER < 6 ∧ 1000 * s.rf rg F.RGN_WDOG_GRANT < s.rf rg F.DMEM_GRANT_TIME_NS) ∧
    (∃ (rg : Rg) (grant : Bool) (s : State), (if grant then s.rf rg F.RGN_WDOG_GRANT = 0 ∨ s.rf rg F.DMEM_GRANT_TIME_NS ≤ 1000 * s.rf rg F.RGN_WDOG_GRANT else s.rf rg F.RGN_WDOG_LIMIT = 0 ∨ (s.rgn rg).fix.noFix < 1000 * s.rf rg F.RGN_WDOG_LIMIT)) :=
  ⟨⟨5, State.reset, by decide +kernel⟩,
    ⟨5, rgnF 5 [(F.RGN_STATUS_RESET_BUSY, 1)] State.reset, by decide +kernel⟩,
    ⟨5, State.reset.setDrain 0 .reset, by decide +kernel⟩,
    ⟨7, rgnF 7 [(F.RGN_STATUS_CFG, 1), (F.FIX_STATUS_STATE, 2), (F.RGN_STATUS_IN_JOB, 1), (F.RGN_STATUS_JOB, 9)] State.reset, by decide +kernel⟩,
    ⟨7, 9, rgnF 7 [(F.RGN_STATUS_CFG, 1), (F.FIX_STATUS_STATE, 2), (F.RGN_STATUS_IN_JOB, 1), (F.RGN_STATUS_JOB, 9)] State.reset, by decide +kernel⟩,
    ⟨7, rgnF 7 [(F.RGN_CTRL_ISOLATE, 1)] State.reset, by decide +kernel⟩,
    ⟨7, rgnF 7 [(F.RGN_CTRL_ISOLATE, 1)] State.reset, by decide +kernel⟩,
    ⟨7, State.reset, by decide +kernel⟩,
    ⟨7, (rgnF 7 [(F.FIX_STATUS_STATE, 2), (F.RGN_WDOG_LIMIT, 1)] State.reset).onRgn 7 (fun r => { r with fix := { noFix := 1000 } }), by decide +kernel⟩,
    ⟨7, rgnF 7 [(F.DMEM_STATUS_OWNER, 3), (F.DMEM_GRANT_TIME_NS, 1001), (F.RGN_WDOG_GRANT, 1)] State.reset, by decide +kernel⟩,
    ⟨7, false, rgnF 7 [(F.FIX_STATUS_STATE, 2), (F.RGN_WDOG_LIMIT, 1)] State.reset, by decide +kernel⟩⟩

theorem witness_MeridianReceiver :
    (∃ (s : State), s.merState = 0 ∧ s.merSrc ≠ 2) ∧
    (∃ (m : Word) (s : State), s.merState = 1 ∧ (s.merSrc = 0 ∨ (s.merSrc = 1 ∧ stableMean s.mer.periods = some m))) ∧
    (∃ (m : Word) (s : State), s.merState = 4 ∧ (s.merSrc = 0 ∨ (s.merSrc = 1 ∧ stableMean s.mer.periods = some m))) ∧
    (∃ (count : BitVec 48) (s : State), s.merState = 2 ∧ s.merSrc = 0 ∧ count.toNat % 65536 = 0) ∧
    (∃ (s : State), s.merState = 3 ∧ 0 < s.mer.slew.toInt) ∧
    (∃ (s : State), s.merState = 3 ∧ s.mer.slew.toInt < 0) ∧
    (∃ (s : State), (s.merState = 3 ∨ s.merState = 5) ∧ s.merSrc ≠ 2) ∧
    (∃ (s : State), (s.merState = 1 ∨ s.merState = 2) ∧ s.merSrc = 0) ∧
    (∃ (s : State), s.merState < 3 ∧ s.merSrc ≠ 2) ∧
    (∃ (s : State), s.merState = 3 ∧ s.merSrc = 2) ∧
    (∃ (p : PortNo) (s : State), s.merSrc = 1 ∧ s.merPort = p.val ∧ s.merState = 2 ∧ s.mer.offs ≠ 3) ∧
    (∃ (p : PortNo) (s : State), s.merSrc = 1 ∧ s.merPort = p.val ∧ s.merState = 3) :=
  ⟨⟨State.reset, by decide +kernel⟩,
    ⟨20000, { hub [(F.MER_CTRL_SRC, 1), (F.MER_STATUS_STATE, 1)] with mer := { periods := List.replicate 1024 20000 } }, by decide +kernel⟩,
    ⟨20000, hub [(F.MER_STATUS_STATE, 4)], by decide +kernel⟩,
    ⟨0x30000, hub [(F.MER_STATUS_STATE, 2)], by decide +kernel⟩,
    ⟨{ hub [(F.MER_STATUS_STATE, 3)] with mer := { slew := 3 } }, by decide +kernel⟩,
    ⟨{ hub [(F.MER_STATUS_STATE, 3)] with mer := { slew := -3 } }, by decide +kernel⟩,
    ⟨hub [(F.MER_STATUS_STATE, 3), (F.MER_CTRL_SRC, 1)], by decide +kernel⟩,
    ⟨hub [(F.MER_STATUS_STATE, 1)], by decide +kernel⟩,
    ⟨State.reset, by decide +kernel⟩,
    ⟨hub [(F.MER_STATUS_STATE, 3), (F.MER_CTRL_SRC, 2)], by decide +kernel⟩,
    ⟨2, hub [(F.MER_CTRL_SRC, 1), (F.MER_CTRL_RELAY_PORT, 2), (F.MER_STATUS_STATE, 2)], by decide +kernel⟩,
    ⟨2, hub [(F.MER_CTRL_SRC, 1), (F.MER_CTRL_RELAY_PORT, 2), (F.MER_STATUS_STATE, 3)], by decide +kernel⟩⟩

theorem witness_FixEngineEvents :
    (∃ (rg : Rg) (s : State), s.rf rg F.FIX_STATUS_STATE = 2 ∧ (∀ c : Cl, (s.cl rg c).ended = true) ∧ (s.rgn rg).fix.unaccepted = 0 ∧ (s.rgn rg).fix.passed = false) ∧
    (∃ (rg : Rg) (s : State), s.rf rg F.FIX_STATUS_STATE = 2 ∧ (s.rgn rg).fix.passed = false ∧ tickLe ((s.rgn rg).get48 R.FIX_BOUND_LO R.FIX_BOUND_HI) s.mer.tick = true) ∧
    (∃ (rg : Rg) (s : State), 2 ≤ s.rf rg F.FIX_STATUS_STATE ∧ s.rf rg F.FIX_STATUS_STATE ≤ 4 ∧ (s.rgn rg).fix.passed = false ∧ tickLe ((s.rgn rg).get48 R.FIX_BOUND_LO R.FIX_BOUND_HI) s.mer.tick = true ∧ s.rf rg F.RGN_CTRL_ISOLATE = 0) ∧
    (∃ (rg : Rg) (s : State), (s.rgn rg).fix.spacing = true ∧ s.rf rg F.FIX_STATUS_STATE ≠ 3) ∧
    (∃ (rg : Rg) (j : Job) (s : State), s.jobOf rg = some j ∧ s.rf rg F.FIX_STATUS_STATE = 4 ∧ (s.rgn rg).fix.overhead = false ∧ s.holdsAt j (s.rgn rg).cycle = false ∧ (s.rgn rg).easelHolds = false ∧ (s.rgn rg).fix.checking = false ∧ s.keepsBack rg = false) ∧
    (∃ (rg : Rg) (j : Job) (s : State), s.jobOf rg = some j ∧ s.rf rg F.FIX_STATUS_STATE = 4 ∧ (s.rgn rg).fix.overhead = false ∧ s.holdsAt j (s.rgn rg).cycle = true) ∧
    (∃ (rg : Rg) (k : CoreNo) (s : State), s.rf rg F.FIX_STATUS_STATE = 4 ∧ s.rf rg F.FIX_CTRL_EWIN ≠ 0 ∧ (s.rgn rg).replaying = false ∧ s.rbit rg (F.EAS_STATUS_HOLDING k.val) = true) :=
  ⟨⟨3, allClusters.foldl (fun s c => s.setCl 3 c { ended := true }) (rgnF 3 [(F.FIX_STATUS_STATE, 2)] State.reset), by decide +kernel⟩,
    ⟨3, rgnF 3 [(F.FIX_STATUS_STATE, 2)] State.reset, by decide +kernel⟩,
    ⟨3, rgnF 3 [(F.FIX_STATUS_STATE, 2)] State.reset, by decide +kernel⟩,
    ⟨3, State.reset.onRgn 3 (fun r => { r with fix := { spacing := true } }), by decide +kernel⟩,
    ⟨3, 2, rgnF 3 [(F.FIX_STATUS_STATE, 4), (F.RGN_STATUS_IN_JOB, 1), (F.RGN_STATUS_JOB, 2)] State.reset, by decide +kernel⟩,
    ⟨3, 2, (rgnF 3 [(F.FIX_STATUS_STATE, 4), (F.RGN_STATUS_IN_JOB, 1), (F.RGN_STATUS_JOB, 2)] State.reset).setJob 2 { hold := some 0 }, by decide +kernel⟩,
    ⟨3, 1, rgnF 3 [(F.FIX_STATUS_STATE, 4), (F.FIX_CTRL_EWIN, 5), (F.EAS_STATUS_HOLDING 1, 1)] State.reset, by decide +kernel⟩⟩

theorem witness_TheFixAdvancesTheCycle :
    (∃ (rg : Rg) (j : Job) (s : State), s.jobOf rg = some j ∧ s.rf rg F.FIX_STATUS_STATE = 3 ∧ (s.rgn rg).fix.passed = false ∧ (s.rgn rg).fix.spacing = false ∧ tickLe ((s.rgn rg).get48 R.FIX_BOUND_LO R.FIX_BOUND_HI) s.mer.tick = true) :=
  ⟨3, 2, rgnF 3 [(F.FIX_STATUS_STATE, 3), (F.RGN_STATUS_IN_JOB, 1), (F.RGN_STATUS_JOB, 2)] State.reset, by decide +kernel⟩

theorem witness_JobsStartHoldAndResume :
    (∃ (j : Job) (t0 : BitVec 48) (s : State), (s.job j).start = some t0 ∧ tickLe t0 s.mer.tick = true ∧ s.f (F.MER_JOB_CTRL_FAILED j.toNat) = 0 ∧ s.jobRegions j ≠ [] ∧ (∀ rg ∈ s.jobRegions j, s.rf rg F.FIX_STATUS_STATE = 1 ∧ (s.rgn rg).easelHolds = false ∧ (s.rgn rg).fix.checking = false ∧ s.keepsBack rg = false)) ∧
    (∃ (j : Job) (s : State), s.f (F.MER_JOB_CTRL_ACTIVE j.toNat) = 1 ∧ (s.job j).hold = none) ∧
    (∃ (j : Job) (s : State), s.f (F.MER_JOB_CTRL_HELD j.toNat) = 1 ∧ s.f (F.MER_JOB_CTRL_FAILED j.toNat) = 0 ∧ s.f (F.MER_JOB_CTRL_AT j.toNat) = 0 ∧ s.jobMode j 2 = false) ∧
    (∃ (j : Job) (at_ : BitVec 48) (h : BitVec 48) (s : State), (s.job j).resumeAt = some at_ ∧ (s.job j).hold = some h ∧ tickLe at_ s.mer.tick = true ∧ s.f (F.MER_JOB_CTRL_HELD j.toNat) = 1 ∧ s.f (F.MER_JOB_CTRL_FAILED j.toNat) = 0 ∧ s.jobMode j 2 = false) ∧
    (∃ (j : Job) (s : State), s.f (F.MER_JOB_CTRL_ACTIVE j.toNat) = 0) ∧
    (∃ (j : Job) (s : State), s.f (F.MER_JOB_CTRL_ACTIVE j.toNat) = 1 ∧ s.f (F.MER_JOB_CTRL_HELD j.toNat) = 0 ∧ s.f (F.MER_JOB_CTRL_FAILED j.toNat) = 0) :=
  ⟨⟨2, 0, (rgnF 3 [(F.FIX_STATUS_STATE, 1), (F.RGN_STATUS_IN_JOB, 1), (F.RGN_STATUS_JOB, 2)] State.reset).setJob 2 { start := some 0 }, by decide +kernel⟩,
    ⟨2, hub [(F.MER_JOB_CTRL_ACTIVE 2, 1)], by decide +kernel⟩,
    ⟨2, hub [(F.MER_JOB_CTRL_HELD 2, 1)], by decide +kernel⟩,
    ⟨2, 0, 7, (hub [(F.MER_JOB_CTRL_HELD 2, 1)]).setJob 2 { resumeAt := some 0, hold := some 7 }, by decide +kernel⟩,
    ⟨2, State.reset, by decide +kernel⟩,
    ⟨2, hub [(F.MER_JOB_CTRL_ACTIVE 2, 1)], by decide +kernel⟩⟩

theorem witness_SextantLoopAndBudget :
    (∃ (q : Quad) (s : State), (quadRegions q.toNat).any (takesPart s) = false) ∧
    (∃ (q : Quad) (s : State), (quadRegions q.toNat).any (takesPart s) = true ∧ s.f F.PWR_STATUS_STATE = 0 ∧ s.f (F.MER_WIN_FREEZE q.toNat) = 1) ∧
    (∃ (q : Quad) (v : Int) (s : State), (quadRegions q.toNat).any (takesPart s) = true ∧ s.f F.PWR_STATUS_STATE = 0 ∧ s.f (F.MER_WIN_FREEZE q.toNat) = 0 ∧ s.f F.PWR_STATUS_THR_TEMP = 0 ∧ s.f F.PWR_STATUS_THR_CAP = 0 ∧ atCap s = false ∧ qmin s q.toNat = some v ∧ v < 0 ∧ 600 ≤ s.f (F.PWR_QSTAT_VQ q.toNat) ∧ s.f (F.PWR_QSTAT_VQ q.toNat) ≤ 880) ∧
    (∃ (q : Quad) (s : State), 1000000 ≤ SMap.get 0 s.windowFixes q.toNat ∧ s.f F.MER_SLIP_BUDGET_BUDGET < s.f (F.MER_QSLIP_SLIPS q.toNat)) :=
  ⟨⟨1, State.reset, by decide +kernel⟩,
    ⟨0, (rgnF 3 [(F.FIX_STATUS_STATE, 2), (F.RGN_STATUS_CFG, 1), (F.RGN_STATUS_IN_JOB, 1), (F.RGN_STATUS_JOB, 2)] (hub [(F.MER_WIN_FREEZE 0, 1), (F.MER_JOB_CTRL_ACTIVE 2, 1)])), by decide +kernel⟩,
    ⟨0, -3, (rgnF 3 [(F.FIX_STATUS_STATE, 2), (F.RGN_STATUS_CFG, 1), (F.RGN_STATUS_IN_JOB, 1), (F.RGN_STATUS_JOB, 2)] (hub [(F.PWR_QSTAT_VQ 0, 700), (F.MER_JOB_CTRL_ACTIVE 2, 1)])).onRgn 3 (fun r => { r with fix := { helmMin := some (BitVec.ofInt 20 (-48)) } }) |>.setJob 2 { ticks := 1024 }, by decide +kernel⟩,
    ⟨1, { hub [(F.MER_QSLIP_SLIPS 1, 60000)] with windowFixes := [(1, 1000000)] }, by decide +kernel⟩⟩

theorem witness_HubSemaphores :
    (∃ (n : SemNo) (who : Requester) (s : State), (∀ m : Fin 32, n.toNat < m.val → s.ownsSem who m.val = false) ∧ s.f (F.SEM_HOLDER_KIND n.toNat) = 0) ∧
    (∃ (n : SemNo) (who : Requester) (m : Nat) (s : State), n.toNat < m ∧ m < 32 ∧ s.ownsSem who m = true) ∧
    (∃ (n : SemNo) (who : Requester) (s : State), (∀ m : Fin 32, n.toNat < m.val → s.ownsSem who m.val = false) ∧ s.f (F.SEM_HOLDER_KIND n.toNat) ≠ 0 ∧ s.ownsSem who n.toNat = false) ∧
    (∃ (n : SemNo) (s : State), s.f (F.SEM_HOLDER_KIND n.toNat) ≠ 0 ∧ s.f F.SEM_CTRL_HOLD_LIMIT ≠ 0 ∧ s.f F.SEM_CTRL_HOLD_LIMIT ≤ (s.reg (R.SEM_HOLD_TIME n.toNat)).toNat) ∧
    (∃ (n : SemNo) (s : State), (s.f (F.SEM_HOLDER_KIND n.toNat) = 0 ∨ s.f F.SEM_CTRL_HOLD_LIMIT = 0)) :=
  ⟨⟨4, .helm, State.reset, by decide +kernel⟩,
    ⟨4, .helm, 9, State.reset.setReg (R.SEM_HOLDER 9) (holderOf .helm), by decide +kernel⟩,
    ⟨4, .debug, State.reset.setReg (R.SEM_HOLDER 4) (holderOf .helm), by decide +kernel⟩,
    ⟨4, ((hub [(F.SEM_CTRL_HOLD_LIMIT, 5)]).setReg (R.SEM_HOLDER 4) (holderOf .helm)).setReg (R.SEM_HOLD_TIME 4) 5, by decide +kernel⟩,
    ⟨4, State.reset, by decide +kernel⟩⟩

theorem witness_StrokeOperations :
    (∃ (rg : Rg) (c : Cl) (b : Bp) (s : State), AtStroke s rg c b 0 ∧ OthersBusy s rg c b) ∧
    (∃ (rg : Rg) (c : Cl) (b : Bp) (v0 : Entry) (v1 : Entry) (v2 : Entry) (v3 : Entry) (s : State), AtStroke s rg c b 1 ∧ OthersBusy s rg c b ∧ OperandIs s rg c b 0 v0 ∧ OperandIs s rg c b 1 v1 ∧ OperandIs s rg c b 2 v2 ∧ OperandIs s rg c b 3 v3 ∧ (strokeDest (strokeAt s rg c b)).toNat < 992) ∧
    (∃ (rg : Rg) (c : Cl) (b : Bp) (v0 : Entry) (v1 : Entry) (v2 : Entry) (v3 : Entry) (s : State), AtStroke s rg c b 2 ∧ OthersBusy s rg c b ∧ OperandIs s rg c b 0 v0 ∧ OperandIs s rg c b 1 v1 ∧ OperandIs s rg c b 2 v2 ∧ OperandIs s rg c b 3 v3 ∧ (strokeDest (strokeAt s rg c b)).toNat < 256) ∧
    (∃ (rg : Rg) (c : Cl) (s : State), s.rf rg F.FIX_STATUS_STATE = 2 ∧ s.f F.PWR_STATUS_STATE = 0 ∧ (s.cl rg c).running = true ∧ (s.cl rg c).done = BitVec.allOnes 64 ∧ (s.rgn rg).strokeNo c < (s.rgn rg).endAt c) ∧
    (∃ (rg : Rg) (c : Cl) (s : State), s.rf rg (F.CLU_STATUS_STALLED c.toNat) = 1 ∧ s.rf rg F.RGN_CTRL_ISOLATE = 0 ∧ s.rf rg (F.CLU_CTRL_STALL_WARN c.toNat) ≠ 0 ∧ 1000 * s.rf rg (F.CLU_CTRL_STALL_WARN c.toNat) < s.now - (s.cl rg c).since) :=
  ⟨⟨3, 1, 7, stroking 7 (sw 0 0 0 0 []), by decide +kernel⟩,
    ⟨3, 1, 7, 1, 0, 1, BitVec.allOnes 64, stroking 7 (sw 1 9 0 0x6996 [5, 6, 5, 1021]), by decide +kernel⟩,
    ⟨3, 1, 7, 1, 0, 1, BitVec.allOnes 64, stroking 7 (sw 2 9 0 0x6996 [5, 6, 5, 1021]), by decide +kernel⟩,
    ⟨3, 1, (rgnF 3 [(F.CLU_END_AT_INDEX 1, 4)] (stroking 7 0)).onCl 3 1 (fun k => { k with done := BitVec.allOnes 64, writes := [⟨7, 9, false, true⟩] }), by decide +kernel⟩,
    ⟨3, 1, rgnF 3 [(F.CLU_STATUS_STALLED 1, 1), (F.CLU_CTRL_STALL_WARN 1, 2)] { State.reset with mer := { time := 65536 * 2001 } }, by decide +kernel⟩⟩

theorem witness_ReservedOpExecutesAsNop :
    (∃ (rg : Rg) (c : Cl) (b : Bp) (op : Nat) (s : State), AtStroke s rg c b op ∧ ((3 ≤ op ∧ op ≤ 7) ∨ op = 14 ∨ (8 ≤ op ∧ b ≠ 0)) ∧ OthersBusy s rg c b) :=
  ⟨3, 1, 7, 9, stroking 7 (sw 9 0 0 0 []), by decide +kernel⟩

theorem witness_ClusterOperations :
    (∃ (rg : Rg) (c : Cl) (v : Entry) (s : State), AtStroke s rg c 0 8 ∧ OperandIs s rg c 0 0 v ∧ (s.rgn rg).injectRoom = true ∧ ((s.rgn rg).reg (R.RGN_ROUTE (2 * (bitsAt (strokeTt (strokeAt s rg c 0)) 0 10 : BitVec 10).toNat))).toNat / 512 % 2 = 1 ∧ ((s.rgn rg).reg (R.RGN_ROUTE (2 * (bitsAt (strokeTt (strokeAt s rg c 0)) 0 10 : BitVec 10).toNat))).toNat / 64 % 8 < 6) ∧
    (∃ (rg : Rg) (c : Cl) (v : Entry) (ix : BitVec 10) (s : State), (s.cl rg c).lead = .send v ix ∧ (s.rgn rg).injectRoom = true ∧ ((s.rgn rg).reg (R.RGN_ROUTE (2 * ix.toNat))).toNat / 512 % 2 = 1 ∧ ((s.rgn rg).reg (R.RGN_ROUTE (2 * ix.toNat))).toNat / 64 % 8 < 6) ∧
    (∃ (rg : Rg) (c : Cl) (v0 : Entry) (v1 : Entry) (s : State), AtStroke s rg c 0 9 ∧ OperandIs s rg c 0 0 v0 ∧ OperandIs s rg c 0 1 v1) ∧
    (∃ (rg : Rg) (c : Cl) (v0 : Entry) (v1 : Entry) (v2 : Entry) (v3 : Entry) (s : State), AtStroke s rg c 0 10 ∧ OperandIs s rg c 0 0 v0 ∧ OperandIs s rg c 0 1 v1 ∧ OperandIs s rg c 0 2 v2 ∧ OperandIs s rg c 0 3 v3) :=
  ⟨⟨3, 1, 1, (stroking 0 (sw 8 0 0 2 [5])).onRgn 3 (fun r => r.setReg (R.RGN_ROUTE 4) 0x309), by decide +kernel⟩,
    ⟨3, 1, 77, 2, (leadAt (.send 77 2)).onRgn 3 (fun r => r.setReg (R.RGN_ROUTE 4) 0x309), by decide +kernel⟩,
    ⟨3, 1, 1, 0, stroking 0 (sw 9 0 3 0 [5, 6]), by decide +kernel⟩,
    ⟨3, 1, 1, 0, 0, BitVec.allOnes 64, stroking 0 (sw 10 0 0 0 [5, 6, 6, 1021]), by decide +kernel⟩⟩

theorem witness_FrontPortProbesAndEnd :
    (∃ (rg : Rg) (c : Cl) (n : BitVec 3) (a : BitVec 19) (s : State), (s.rgn rg).nextTaker = some c ∧ (s.cl rg c).lead = .memrd n a ∧ (s.rgn rg).replaying = false) ∧
    (∃ (rg : Rg) (c : Cl) (a : BitVec 19) (d : Entry) (m : Entry) (s : State), (s.rgn rg).nextTaker = some c ∧ (s.cl rg c).lead = .memwr a d m ∧ (s.rgn rg).undoFull = false ∧ (s.rgn rg).replaying = false) ∧
    (∃ (rg : Rg) (c : Cl) (k : BitVec 3) (a : BitVec 19) (st : BitVec 11) (v : Option (Entry × Ecc)) (rest : List FrontAcc) (s : State), (s.rgn rg).front = .rd c k a st false v :: rest ∧ s.rf rg F.RGN_CTRL_ISOLATE = 0 ∧ (∀ x, v = some x → x.2 ≠ .uncorrectable) ∧ (s.rgn rg).checked (dmemKey a.toNat) .clean = .clean) ∧
    (∃ (rg : Rg) (c : Cl) (a : BitVec 19) (d : Entry) (m : Entry) (st : BitVec 11) (pos : BitVec 13) (rest : List FrontAcc) (s : State), (s.rgn rg).front = .wr c a d m st pos :: rest ∧ (∀ x ∈ rest, FrontAcc.isRead x = true) ∧ (s.rgn rg).checked (dmemKey a.toNat) .clean = .clean) ∧
    (∃ (rg : Rg) (c : Cl) (v : Entry) (s : State), AtStroke s rg c 0 12 ∧ OperandIs s rg c 0 0 v ∧ (s.rgn rg).probeDropped = false ∧ s.rf rg F.RWD_STATUS_FULL = 0 ∧ (s.rgn rg).rwd.probes.length < 16) ∧
    (∃ (rg : Rg) (c : Cl) (num : BitVec 10) (v : Entry) (s : State), (s.cl rg c).lead = .probe num v ∧ (s.rgn rg).probeDropped = false ∧ s.rf rg F.RWD_STATUS_FULL = 0 ∧ (s.rgn rg).rwd.probes.length < 16) ∧
    (∃ (rg : Rg) (c : Cl) (v : Entry) (s : State), AtStroke s rg c 0 13 ∧ OperandIs s rg c 0 0 v ∧ v.getLsbD (strokeOpd (strokeAt s rg c 0) 0).2.toNat = true) ∧
    (∃ (rg : Rg) (c : Cl) (s : State), AtStroke s rg c 0 15 ∧ (s.cl rg c).memOut = 0 ∧ (s.cl rg c).probeOut = 0 ∧ setBit (s.cl rg c).done 0 true = BitVec.allOnes 64 ∧ (s.rgn rg).strokeNo c = (s.rgn rg).endAt c) :=
  ⟨⟨3, 1, 2, 900, (rgnF 3 [(F.RGN_MCOUNT_COUNT, 1)] (leadAt (.memrd 2 900))).onRgn 3 (fun r => r.setReg (R.RGN_MORDER 0) 1), by decide +kernel⟩,
    ⟨3, 1, 900, 6, 255, (rgnF 3 [(F.RGN_MCOUNT_COUNT, 1)] (leadAt (.memwr 900 6 255))).onRgn 3 (fun r => r.setReg (R.RGN_MORDER 0) 1), by decide +kernel⟩,
    ⟨3, 1, 2, 900, 0, none, [], (stroking 0 0).onRgn 3 (fun r => { r with front := [.rd 1 2 900 0 false none], dmem := [(900, 55)] }), by decide +kernel⟩,
    ⟨3, 1, 900, 6, 255, 0, 0, [], (stroking 0 0).onRgn 3 (fun r => { r with front := [.wr 1 900 6 255 0 0], dmem := [(900, 0x5555)] }), by decide +kernel⟩,
    ⟨3, 1, 1, rgnF 3 [(F.RGN_CTRL_PROBE_EN, 1), (F.RGN_STATUS_IN_JOB, 1), (F.RGN_STATUS_CFG, 1), (F.RWD_CTRL_REC_EN, 1)] (stroking 0 (sw 12 0 33 0 [5])), by decide +kernel⟩,
    ⟨3, 1, 33, 4, rgnF 3 [(F.RGN_CTRL_PROBE_EN, 1), (F.RGN_STATUS_IN_JOB, 1), (F.RGN_STATUS_CFG, 1), (F.RWD_CTRL_REC_EN, 1)] (leadAt (.probe 33 4)), by decide +kernel⟩,
    ⟨3, 1, 1, stroking 0 (sw 13 0 0 0 [5]), by decide +kernel⟩,
    ⟨3, 1, (rgnF 3 [(F.CLU_END_AT_INDEX 1, 0)] (stroking 0 (sw 15 0 0 0 []))).onCl 3 1 (fun k => { k with done := ~~~ 1 }), by decide +kernel⟩⟩

theorem witness_RecordsRewindAndReplay :
    (∃ (rg : Rg) (q : Fin 6) (s : State), s.rf rg F.DMEM_STATUS_OWNER = 6 ∧ s.debugFirst rg = false ∧ (s.rgn rg).waits q = true) ∧
    (∃ (rg : Rg) (u : UndoEntry) (us : List UndoEntry) (s : State), (s.rgn rg).rwd.undo = u :: us ∧ s.rf rg F.DMEM_STATUS_OWNER = 4 ∧ RingReady (s.rgn rg) (undoWords u).length) ∧
    (∃ (rg : Rg) (x : BinRec) (xs : List BinRec) (s : State), (s.rgn rg).rwd.bins = x :: xs ∧ s.rf rg F.DMEM_STATUS_OWNER = 4 ∧ RingReady (s.rgn rg) 3) ∧
    (∃ (rg : Rg) (x : ProbeRec) (xs : List ProbeRec) (s : State), (s.rgn rg).rwd.probes = x :: xs ∧ s.rf rg F.DMEM_STATUS_OWNER = 4 ∧ RingReady (s.rgn rg) 3) ∧
    (∃ (rg : Rg) (sn : Snapshot) (s : State), (s.rgn rg).rwd.snap = some sn ∧ (s.rgn rg).snapReady = true ∧ snapLen ≤ sn.done ∧ sn.done + 64 < snapSpan ∧ s.rf rg F.DMEM_STATUS_OWNER = 4) ∧
    (∃ (rg : Rg) (sn : Snapshot) (s : State), (s.rgn rg).rwd.snap = some sn ∧ (s.rgn rg).snapReady = true ∧ snapSpan ≤ sn.done + 64 ∧ sn.done < snapSpan ∧ s.rf rg F.DMEM_STATUS_OWNER = 4) ∧
    (∃ (rg : Rg) (n : BitVec 48) (s : State), (s.rgn rg).rwd.branchDue = some n ∧ (s.rgn rg).rwd.gapDue = none ∧ (s.rgn rg).recording = true ∧ s.rf rg F.RWD_STATUS_FULL = 0 ∧ 2 ≤ s.rf rg F.RWD_FREE_WORDS ∧ s.rf rg F.DMEM_STATUS_OWNER = 4) ∧
    (∃ (rg : Rg) (s : State), s.rf rg F.RWD_STATUS_FULL = 1 ∧ 4556 ≤ s.rf rg F.RWD_FREE_WORDS ∧ (s.rgn rg).recording = true ∧ s.rf rg F.DMEM_STATUS_OWNER = 4) ∧
    (∃ (rg : Rg) (s : State), (s.rgn rg).recording = true) ∧
    (∃ (rg : Rg) (i : Nat) (s : State), (s.rgn rg).findMark (s.rgn rg).arg (fun _ => true) = some i ∧ i < 64) ∧
    (∃ (rg : Rg) (g : Rg) (j : Job) (s : State), s.jobOf rg = some j ∧ rewindCode s rg = 0 ∧ g ∈ s.jobRegions j ∧ (s.rgn g).writerIdle = true) ∧
    (∃ (rg : Rg) (g : Rg) (j : Job) (s : State), s.jobOf rg = some j ∧ rewindCode s rg = 0 ∧ g ∈ s.jobRegions j ∧ (s.rgn g).writerIdle = false) ∧
    (∃ (rg : Rg) (j : Job) (s : State), rg ∈ s.jobRegions j ∧ s.rf rg F.RWD_STATUS_MODE = 2 ∧ (∀ g ∈ s.jobRegions j, (s.rgn g).resetDue = false ∧ (s.rgn g).rwd.restoring = none)) ∧
    (∃ (rg : Rg) (g : Rg) (j : Job) (h : BitVec 48) (s : State), s.jobOf rg = some j ∧ (s.job j).hold = some h ∧ s.rf rg F.RWD_STATUS_MODE = 4 ∧ h.toNat < (s.rgn rg).replayTo.toNat ∧ (s.rgn rg).replayTo.toNat ≤ ((s.rgn rg).get48 R.RWD_LAST_REC_LO R.RWD_LAST_REC_HI).toNat ∧ g ∈ s.jobRegions j) :=
  ⟨⟨3, 4, rgnF 3 [(F.DMEM_STATUS_OWNER, 6), (F.DMEM_STATUS_WAITING, 0x12)] State.reset, by decide +kernel⟩,
    ⟨3, ⟨9, 5, 1, 6, 2, false, 44, none⟩, [], (rgnF 3 [(F.DMEM_STATUS_OWNER, 4)] State.reset).onRgn 3 (fun r => { r with rwd := { undo := [⟨9, 5, 1, 6, 2, false, 44, none⟩] } }), by decide +kernel⟩,
    ⟨3, ⟨9, 5, 1⟩, [], (rgnF 3 [(F.DMEM_STATUS_OWNER, 4)] State.reset).onRgn 3 (fun r => { r with rwd := { bins := [⟨9, 5, 1⟩] } }), by decide +kernel⟩,
    ⟨3, ⟨9, 5, 1, 7, 66⟩, [], (rgnF 3 [(F.DMEM_STATUS_OWNER, 4)] State.reset).onRgn 3 (fun r => { r with rwd := { probes := [⟨9, 5, 1, 7, 66⟩] } }), by decide +kernel⟩,
    ⟨3, { cycle := 9, pos := 5, seq := 1, state := [], ports := [], full := [], exch := [], done := 4098 }, (rgnF 3 [(F.DMEM_STATUS_OWNER, 4), (F.RGN_STATUS_IN_JOB, 1), (F.RGN_STATUS_CFG, 1), (F.RWD_CTRL_REC_EN, 1)] State.reset).onRgn 3 (fun r => { r with rwd := { snap := some { cycle := 9, pos := 5, seq := 1, state := [], ports := [], full := [], exch := [], done := 4098 } } }), by decide +kernel⟩,
    ⟨3, { cycle := 9, pos := 5, seq := 1, state := [], ports := [], full := [], exch := [], done := 4500 }, (rgnF 3 [(F.DMEM_STATUS_OWNER, 4), (F.RGN_STATUS_IN_JOB, 1), (F.RGN_STATUS_CFG, 1), (F.RWD_CTRL_REC_EN, 1)] State.reset).onRgn 3 (fun r => { r with rwd := { snap := some { cycle := 9, pos := 5, seq := 1, state := [], ports := [], full := [], exch := [], done := 4500 } } }), by decide +kernel⟩,
    ⟨3, 12, (rgnF 3 [(F.DMEM_STATUS_OWNER, 4), (F.RGN_STATUS_IN_JOB, 1), (F.RGN_STATUS_CFG, 1), (F.RWD_CTRL_REC_EN, 1)] State.reset).onRgn 3 (fun r => { r with rwd := { branchDue := some 12 } }), by decide +kernel⟩,
    ⟨3, rgnF 3 [(F.DMEM_STATUS_OWNER, 4), (F.RWD_STATUS_FULL, 1), (F.RGN_STATUS_IN_JOB, 1), (F.RGN_STATUS_CFG, 1), (F.RWD_CTRL_REC_EN, 1)] State.reset, by decide +kernel⟩,
    ⟨3, rgnF 3 [(F.RGN_STATUS_IN_JOB, 1), (F.RGN_STATUS_CFG, 1), (F.RWD_CTRL_REC_EN, 1)] State.reset, by decide +kernel⟩,
    ⟨3, 5, rgnF 3 [(F.RWD_MARK_VALID 5, 1), (F.RWD_MARK_POS 5, 70), (F.RWD_MARK_CYCLE_LO 5, 8), (F.RWD_ARG_LO_S_LO, 8)] State.reset, by decide +kernel⟩,
    ⟨3, 3, 2, { rgnF 3 [(F.RGN_STATUS_IN_JOB, 1), (F.RGN_STATUS_JOB, 2), (F.RWD_MARK_VALID 5, 1), (F.RWD_MARK_USABLE 5, 1), (F.RWD_MARK_COMPLETE 5, 1), (F.RWD_MARK_CYCLE_LO 5, 8), (F.RWD_ARG_LO_S_LO, 8)] (hub [(F.MER_JOB_CTRL_HELD 2, 1)]) with jobs := [(2, { hold := some 9 })] }, by decide +kernel⟩,
    ⟨3, 3, 2, { (rgnF 3 [(F.RGN_STATUS_IN_JOB, 1), (F.RGN_STATUS_JOB, 2), (F.RWD_MARK_VALID 5, 1), (F.RWD_MARK_USABLE 5, 1), (F.RWD_MARK_COMPLETE 5, 1), (F.RWD_MARK_CYCLE_LO 5, 8), (F.RWD_ARG_LO_S_LO, 8)] (hub [(F.MER_JOB_CTRL_HELD 2, 1)])).onRgn 3 (fun r => { r with rwd := { r.rwd with bins := [⟨9, 5, 1⟩] } }) with jobs := [(2, { hold := some 9 })] }, by decide +kernel⟩,
    ⟨3, 2, rgnF 3 [(F.RGN_STATUS_IN_JOB, 1), (F.RGN_STATUS_JOB, 2), (F.RWD_STATUS_MODE, 2)] State.reset, by decide +kernel⟩,
    ⟨3, 3, 2, 5, { rgnF 3 [(F.RGN_STATUS_IN_JOB, 1), (F.RGN_STATUS_JOB, 2), (F.RWD_STATUS_MODE, 4), (F.RWD_REPLAY_TO_LO_T_LO, 9), ⟨R.RWD_LAST_REC_LO, 0, 32⟩ |> (·, 9)] State.reset with jobs := [(2, { hold := some 5 })] }, by decide +kernel⟩⟩

theorem witness_BundlesAndJunctions :
    (∃ (rg : Rg) (par : Bool) (b : Bundle) (s : State), (s.rgn rg).inject = [b] ∧ b.parity = par ∧ b.egress = 4 ∧ s.bundles rg.toNat 31 par = []) ∧
    (∃ (rg : Rg) (par : Bool) (b : Bundle) (rest : List Bundle) (s : State), s.bundles rg.toNat 31 par = b :: rest ∧ s.rf rg F.RGN_CTRL_ISOLATE = 0 ∧ b.parity = par ∧ b.poison = false ∧ b.port = none ∧ b.origin = none ∧ 64 * b.via.toNat + b.stream < 384 ∧ ((s.rgn rg).reg (R.RGN_XMAP (64 * b.via.toNat + b.stream))).toNat / 256 % 2 = 1 ∧ sideFull (s.rgn rg) (BitVec.ofNat 4 (((s.rgn rg).reg (R.RGN_XMAP (64 * b.via.toNat + b.stream))).toNat / 16)) (((s.rgn rg).reg (R.RGN_XMAP (64 * b.via.toNat + b.stream))).toNat % 16) par = false) ∧
    (∃ (rg : Rg) (c : Cl) (v : Entry) (s : State), AtStroke s rg c 0 11 ∧ OperandIs s rg c 0 0 v ∧ (s.endpoint rg (junctionNo c (bitsAt (strokeCtrl (strokeAt s rg c 0)) 0 2))).1 = false ∧ ((s.rgn rg).cell (junctionCell (junctionNo c (bitsAt (strokeCtrl (strokeAt s rg c 0)) 0 2)))).clamped = false ∧ (s.rgn rg).jreplayed c (bitsAt (strokeCtrl (strokeAt s rg c 0)) 0 2) = false) ∧
    (∃ (rg : Rg) (c : Cl) (j : BitVec 2) (v : Entry) (s : State), (s.cl rg c).lead = .jpost j v true ∧ ((s.rgn rg).cell (junctionCell (junctionNo c j))).clamped = false ∧ s.rf rg F.RGN_CTRL_ISOLATE = 0 ∧ (∀ k : Fin 4, SMap.get none (s.rgn rg).lanes (4 * junctionNo c j + k.val) = none) ∧ (s.rgn rg).jreplayed c j = false) ∧
    (∃ (rg : Rg) (c : Cl) (j : BitVec 2) (s : State), (s.endpoint rg (junctionNo c j)).1 = true ∧ (s.endpoint rg (junctionNo c j)).2.2 ≠ 0 ∧ (s.cl rg c).portFull.getLsbD j.toNat = false ∧ s.rf rg F.RGN_CTRL_ISOLATE = 0 ∧ (s.rgn rg).canvasRuns = true ∧ ((s.rgn rg).cell (junctionCell (junctionNo c j))).clamped = false ∧ (s.rgn rg).jreplayed c j = false ∧ (laneTokens s rg (junctionNo c j) (s.endpoint rg (junctionNo c j)).2.2).any Option.isNone = false) :=
  ⟨⟨3, false, { data := 7, tag := 5 }, State.reset.onRgn 3 (fun r => { r with inject := [{ data := 7, tag := 5 }] }), by decide +kernel⟩,
    ⟨3, false, { data := 7, tag := 5, via := 4 }, [], (State.reset.onRgn 3 (fun r => r.setReg (R.RGN_XMAP 261) 0x123)).setBundles 3 31 false [{ data := 7, tag := 5, via := 4 }], by decide +kernel⟩,
    ⟨3, 1, 1, stroking 0 (sw 11 0 1 0 [5]), by decide +kernel⟩,
    ⟨3, 1, 1, 9, leadAt (.jpost 1 9 true), by decide +kernel⟩,
    ⟨3, 1, 1, cellsAt [(5, 2 ^ 508 + 2 ^ 852 + 2 ^ 855)] [(5, { y0 := some 77 })], by decide +kernel⟩⟩

theorem witness_CanvasOperations :
    (∃ (rg : Rg) (n : CellNo) (s : State), CellReady s rg n 0x00 12) ∧
    (∃ (rg : Rg) (n : CellNo) (s : State), CellReady s rg n 0x01 12) ∧
    (∃ (rg : Rg) (n : CellNo) (s : State), CellReady s rg n 0x02 12) ∧
    (∃ (rg : Rg) (n : CellNo) (s : State), CellReady s rg n 0x03 12) ∧
    (∃ (rg : Rg) (n : CellNo) (s : State), CellReady s rg n 0x04 12) ∧
    (∃ (rg : Rg) (n : CellNo) (s : State), CellReady s rg n 0x05 12) ∧
    (∃ (rg : Rg) (n : CellNo) (s : State), CellReady s rg n 0x06 12 ∧ entMod (cellE s rg n) = 0) ∧
    (∃ (rg : Rg) (n : CellNo) (s : State), CellReady s rg n 0x06 12 ∧ entMod (cellE s rg n) = 1) ∧
    (∃ (rg : Rg) (n : CellNo) (s : State), CellReady s rg n 0x07 14) :=
  ⟨⟨3, 5, cellsAt [(5, 2596050176 + 2 ^ 192)] [(5, { acc := 7, q := 3 })], by decide +kernel⟩,
    ⟨3, 5, cellsAt [(5, 2596050177 + 2 ^ 192)] [(5, { acc := 7, q := 3 })], by decide +kernel⟩,
    ⟨3, 5, cellsAt [(5, 2596050178 + 2 ^ 192)] [(5, { acc := 7, q := 3 })], by decide +kernel⟩,
    ⟨3, 5, cellsAt [(5, 2596050179 + 2 ^ 192)] [(5, { acc := 7, q := 3 })], by decide +kernel⟩,
    ⟨3, 5, cellsAt [(5, 2596050180 + 2 ^ 192)] [(5, { acc := 7, q := 3 })], by decide +kernel⟩,
    ⟨3, 5, cellsAt [(5, 2596050181 + 2 ^ 192)] [(5, { acc := 7, q := 3 })], by decide +kernel⟩,
    ⟨3, 5, cellsAt [(5, 2596050182 + 2 ^ 192)] [(5, { acc := 7, q := 3 })], by decide +kernel⟩,
    ⟨3, 5, cellsAt [(5, 2596050214 + 2 ^ 192)] [(5, { acc := 7, q := 3 })], by decide +kernel⟩,
    ⟨3, 5, cellsAt [(5, 2596062471 + 2 ^ 192)] [(5, { acc := 7, q := 3 })], by decide +kernel⟩⟩

theorem witness_CanvasChoicesAndLatches :
    (∃ (rg : Rg) (n : CellNo) (s : State), CellReady s rg n 0x08 12) ∧
    (∃ (rg : Rg) (n : CellNo) (s : State), CellReady s rg n 0x09 12 ∧ entMod (cellE s rg n) = 0) ∧
    (∃ (rg : Rg) (n : CellNo) (s : State), CellReady s rg n 0x0A 14) ∧
    (∃ (rg : Rg) (n : CellNo) (s : State), CellReady s rg n 0x10 12) ∧
    (∃ (rg : Rg) (n : CellNo) (s : State), CellReady s rg n 0x11 12) ∧
    (∃ (rg : Rg) (n : CellNo) (s : State), CellReady s rg n 0x13 12) ∧
    (∃ (rg : Rg) (n : CellNo) (pickB : Bool) (s : State), CellReady s rg n 0x12 12 ∧ mergeLogged s rg n = false ∧ ((if pickB then entB (cellE s rg n) else entA (cellE s rg n)) ≠ 0 ∨ (inputToken s rg n (if pickB then 1 else 0)).isSome = true)) ∧
    (∃ (rg : Rg) (n : CellNo) (s : State), cfgMode (s.cellCfg rg n) = 1 ∧ cfgChain (s.cellCfg rg n) = 0 ∧ cfgSsrc (s.cellCfg rg n) = false ∧ cellFree s rg n = true ∧ reservedOpc (entOpc (cellE s rg n)) false = true ∧ ((s.rgn rg).cell n).counted = false) ∧
    (∃ (rg : Rg) (n : CellNo) (level : Bool) (s : State), (cfgMode (s.cellCfg rg n) = 1 ∨ cfgMode (s.cellCfg rg n) = 2) ∧ latchClocked (s.cellCfg rg n) = true ∧ chainOff s rg n = false ∧ ((selSingle (cfgField (s.cellCfg rg n) 750 6)).bind (fun x => trackLevel s rg (boxOf rg n) x.1 x.2)).getD level = true ∧ cfgField (s.cellCfg rg n) 202 1 = 0 ∧ cfgField (s.cellCfg rg n) 203 2 = 0 ∧ ((s.rgn rg).cell n).clk = false ∧ ((s.rgn rg).cell n).clamped = false ∧ (s.rgn rg).canvasRuns = true) ∧
    (∃ (rg : Rg) (sg : SegAt) (g : Seg) (s : State), segNamed rg sg = some g ∧ segDisabled s (quadOf rg) g = false ∧ g.t < trackCount g.cls) ∧
    (∃ (rg : Rg) (s : State), (s.rgn rg).disabled.all (fun a => match segNamed rg a with | some g => segQuiet s (quadOf rg) g | none => true) = true) :=
  ⟨⟨3, 5, cellsAt [(5, 2596050184 + 2 ^ 192)] [(5, { acc := 7, q := 3 })], by decide +kernel⟩,
    ⟨3, 5, cellsAt [(5, 2596050185 + 2 ^ 192)] [(5, { acc := 7, q := 3 })], by decide +kernel⟩,
    ⟨3, 5, cellsAt [(5, 2596062474 + 2 ^ 192)] [(5, { acc := 7, q := 3 })], by decide +kernel⟩,
    ⟨3, 5, cellsAt [(5, 2596058384 + 2 ^ 192)] [(5, { acc := 7, q := 3 })], by decide +kernel⟩,
    ⟨3, 5, cellsAt [(5, 2596058385 + 2 ^ 192)] [(5, { acc := 7, q := 3 })], by decide +kernel⟩,
    ⟨3, 5, cellsAt [(5, 2596050195 + 2 ^ 192)] [(5, { acc := 7, q := 3 })], by decide +kernel⟩,
    ⟨3, 5, true, cellsAt [(5, 0x12 + 256 + 1024 + 4096 + 32768 + 65536 * 77 + 2 ^ 192)] [], by decide +kernel⟩,
    ⟨3, 5, cellsAt [(5, 0x1F + 2 ^ 192)] [], by decide +kernel⟩,
    ⟨3, 5, true, cellsAt [(5, 2 ^ 192 + 3 * 2 ^ 750)] [(5, { hold := 88 })], by decide +kernel⟩,
    ⟨3, 5, (segNamed 3 5).getD ⟨false, 0, 0, 0, 0, 0⟩, cellsAt [] [], by decide +kernel⟩,
    ⟨3, (cellsAt [] []).onRgn 3 (fun r => { r with disabled := [5] }), by decide +kernel⟩⟩

theorem witness_PinsOfARegion :
    (∃ (rg : Rg) (i : BitVec 3) (s : State), ioWorks s rg i.toNat = true ∧ ioInput (s.ioCfg rg i.toNat) i.toNat = true ∧ ioImode (s.ioCfg rg i.toNat) i.toNat = 0 ∧ ioClocked s rg i.toNat = true ∧ ((s.rgn rg).ioCell i.toNat).inQ.length < 4 ∧ (∀ g : Rg, (s.rgn g).canvasStopped = false)) ∧
    (∃ (rg : Rg) (i : BitVec 3) (s : State), ioWorks s rg i.toNat = true ∧ ioInput (s.ioCfg rg i.toNat) i.toNat = true ∧ ioImode (s.ioCfg rg i.toNat) i.toNat = 0 ∧ ioClocked s rg i.toNat = true ∧ ((s.rgn rg).ioCell i.toNat).inQ.length = 4) ∧
    (∃ (rg : Rg) (i : BitVec 3) (s : State), ioWorks s rg i.toNat = true ∧ ioInput (s.ioCfg rg i.toNat) i.toNat = true ∧ ioImode (s.ioCfg rg i.toNat) i.toNat = 2 ∧ ((s.rgn rg).ioCell i.toNat).inQ = [] ∧ (ioToken s rg i.toNat 2).isSome = true) ∧
    (∃ (rg : Rg) (i : BitVec 3) (s : State), ioWorks s rg i.toNat = true ∧ ioInput (s.ioCfg rg i.toNat) i.toNat = true ∧ ioImode (s.ioCfg rg i.toNat) i.toNat = 1 ∧ ioEdgeSel (s.ioCfg rg i.toNat) i.toNat = 2 ∧ ((s.rgn rg).ioCell i.toNat).edges ≠ 15) ∧
    (∃ (rg : Rg) (i : BitVec 3) (v : BitVec 16) (rest : List (BitVec 16)) (s : State), ioWorks s rg i.toNat = true ∧ (ioDir (s.ioCfg rg i.toNat) = 1 ∨ ioDir (s.ioCfg rg i.toNat) = 2) ∧ ioOmode (s.ioCfg rg i.toNat) i.toNat = 0 ∧ ioClocked s rg i.toNat = true ∧ ((s.rgn rg).ioCell i.toNat).outQ = v :: rest ∧ ioToken s rg i.toNat (ioData (s.ioCfg rg i.toNat) i.toNat) = none) ∧
    (∃ (rg : Rg) (i : BitVec 3) (d : Drive) (v : BitVec 16) (s : State), ioWorks s rg i.toNat = true ∧ ioDir (s.ioCfg rg i.toNat) = 2 ∧ ioToken s rg i.toNat 2 = some (d, v)) ∧
    (∃ (rg : Rg), numOf rg < 4) ∧
    (∃ (rg : Rg) (i : BitVec 3) (s : State), numOf rg < 4 ∧ s.rf rg (F.CNV_FIO_DLY_BUSY i.toNat) = 1) ∧
    (∃ (s : State), s.supplyWatched = true) :=
  ⟨⟨3, 0, (cellsAt [] []).onRgn 0 (fun r => { r with live := true, canvas := [(95, BitVec.ofNat 2048 (3 * 2 ^ 852))] }), by decide +kernel⟩,
    ⟨3, 0, ((cellsAt [] []).onRgn 0 (fun r => { r with live := true, canvas := [(95, BitVec.ofNat 2048 (3 * 2 ^ 852))] })).onRgn 3 (fun r => { r with io := [(0, { inQ := [1, 2, 3, 4] })] }), by decide +kernel⟩,
    ⟨3, 0, cellsAt [(94, 2 ^ 356), (95, 8 * 2 ^ 852)] [(94, { f := some 1 })], by decide +kernel⟩,
    ⟨3, 0, cellsAt [(95, (4 + 8192) * 2 ^ 852)] [], by decide +kernel⟩,
    ⟨3, 0, 1, [0], ((cellsAt [(95, 2 ^ 852)] []).onRgn 0 (fun r => { r with live := true, canvas := [(95, BitVec.ofNat 2048 (3 * 2 ^ 852))] })).onRgn 3 (fun r => { r with io := [(0, { outQ := [1, 0] })] }), by decide +kernel⟩,
    ⟨3, 0, .out 3 94 2, 1, cellsAt [(94, 2 ^ 356), (95, 2 * 2 ^ 852)] [(94, { f := some 1 })], by decide +kernel⟩,
    ⟨3, by decide +kernel⟩,
    ⟨3, 2, (rgnF 3 [(F.CNV_FIO_DLY_BUSY 2, 1)] State.reset).onRgn 3 (fun r => { r with io := [(2, { dly := 0x0305 })] }), by decide +kernel⟩,
    ⟨hub [(F.CFG_STATUS_STATE, 4)], by decide +kernel⟩⟩

theorem witness_EaselArithmetic :
    (∃ (rg : Rg) (k : CoreNo) (s : State), CoreAt s rg k 0x00) ∧
    (∃ (rg : Rg) (k : CoreNo) (s : State), CoreAt s rg k 0x01) ∧
    (∃ (rg : Rg) (k : CoreNo) (s : State), CoreAt s rg k 0x02) ∧
    (∃ (rg : Rg) (k : CoreNo) (s : State), CoreAt s rg k 0x03) ∧
    (∃ (rg : Rg) (k : CoreNo) (s : State), CoreAt s rg k 0x04) ∧
    (∃ (rg : Rg) (k : CoreNo) (s : State), CoreAt s rg k 0x05) ∧
    (∃ (rg : Rg) (k : CoreNo) (s : State), CoreAt s rg k 0x06) ∧
    (∃ (rg : Rg) (k : CoreNo) (s : State), CoreAt s rg k 0x07) ∧
    (∃ (rg : Rg) (k : CoreNo) (s : State), CoreAt s rg k 0x08) ∧
    (∃ (rg : Rg) (k : CoreNo) (s : State), CoreAt s rg k 0x09) :=
  ⟨⟨3, 1, (coreOn 0x00000000 [(2, 0x8001), (3, 0x7FFF)] {}), by decide +kernel⟩,
    ⟨3, 1, (coreOn 0x05221800 [(2, 0x8001), (3, 0x7FFF)] {}), by decide +kernel⟩,
    ⟨3, 1, (coreOn 0x09221800 [(2, 0x8001), (3, 0x7FFF)] {}), by decide +kernel⟩,
    ⟨3, 1, (coreOn 0x0D221800 [(2, 0x8001), (3, 0x7FFF)] {}), by decide +kernel⟩,
    ⟨3, 1, (coreOn 0x11221800 [(2, 0x8001), (3, 0x7FFF)] {}), by decide +kernel⟩,
    ⟨3, 1, (coreOn 0x15221800 [(2, 0x8001), (3, 0x7FFF)] {}), by decide +kernel⟩,
    ⟨3, 1, (coreOn 0x19221800 [(2, 0x8001), (3, 0x7FFF)] {}), by decide +kernel⟩,
    ⟨3, 1, (coreOn 0x1D221800 [(2, 0x8001), (3, 0x7FFF)] {}), by decide +kernel⟩,
    ⟨3, 1, (coreOn 0x21221800 [(2, 0x8001), (3, 0x7FFF)] {}), by decide +kernel⟩,
    ⟨3, 1, (coreOn 0x25221800 [(2, 0x8001), (3, 0x7FFF)] {}), by decide +kernel⟩⟩

theorem witness_EaselImmediatesAndMoves :
    (∃ (rg : Rg) (k : CoreNo) (s : State), CoreAt s rg k 0x0A) ∧
    (∃ (rg : Rg) (k : CoreNo) (s : State), CoreAt s rg k 0x0B) ∧
    (∃ (rg : Rg) (k : CoreNo) (s : State), CoreAt s rg k 0x0C) ∧
    (∃ (rg : Rg) (k : CoreNo) (s : State), CoreAt s rg k 0x0D) ∧
    (∃ (rg : Rg) (k : CoreNo) (s : State), CoreAt s rg k 0x0E) ∧
    (∃ (rg : Rg) (k : CoreNo) (s : State), CoreAt s rg k 0x0F) ∧
    (∃ (rg : Rg) (k : CoreNo) (s : State), CoreAt s rg k 0x10) ∧
    (∃ (rg : Rg) (k : CoreNo) (s : State), CoreAt s rg k 0x11 ∧ insnField (coreWord s rg k) 15 6 < 8) ∧
    (∃ (rg : Rg) (k : CoreNo) (s : State), CoreAt s rg k 0x11 ∧ ((8 ≤ insnField (coreWord s rg k) 15 6 ∧ insnField (coreWord s rg k) 15 6 < 0x18) ∨ insnField (coreWord s rg k) 15 6 = 0x19)) :=
  ⟨⟨3, 1, (coreOn 0x2922FFF0 [(2, 0x8001), (3, 0x7FFF)] {}), by decide +kernel⟩,
    ⟨3, 1, (coreOn 0x2D22FFF0 [(2, 0x8001), (3, 0x7FFF)] {}), by decide +kernel⟩,
    ⟨3, 1, (coreOn 0x31220FF0 [(2, 0x8001), (3, 0x7FFF)] {}), by decide +kernel⟩,
    ⟨3, 1, (coreOn 0x35220FF0 [(2, 0x8001), (3, 0x7FFF)] {}), by decide +kernel⟩,
    ⟨3, 1, (coreOn 0x39201234 [(2, 0x8001), (3, 0x7FFF)] {}), by decide +kernel⟩,
    ⟨3, 1, (coreOn 0x3D220FF0 [(2, 0x8001), (3, 0x7FFF)] {}), by decide +kernel⟩,
    ⟨3, 1, (coreOn 0x412D0000 [(2, 0x8001), (3, 0x7FFF)] { lr := 77 }), by decide +kernel⟩,
    ⟨3, 1, (coreOn 0x44620000 [(2, 0x8001), (3, 0x7FFF)] {}), by decide +kernel⟩,
    ⟨3, 1, (coreOn 0x44648000 [(2, 0x8001), (3, 0x7FFF)] {}), by decide +kernel⟩⟩

theorem witness_AccumulatorInstructions :
    (∃ (rg : Rg) (k : CoreNo) (s : State), CoreAt s rg k 0x12 ∧ insnField (coreWord s rg k) 23 2 = 0) ∧
    (∃ (rg : Rg) (k : CoreNo) (s : State), CoreAt s rg k 0x12 ∧ insnField (coreWord s rg k) 23 2 = 1) ∧
    (∃ (rg : Rg) (k : CoreNo) (s : State), CoreAt s rg k 0x12 ∧ insnField (coreWord s rg k) 23 2 = 2) ∧
    (∃ (rg : Rg) (k : CoreNo) (s : State), CoreAt s rg k 0x13 ∧ insnField (coreWord s rg k) 23 2 = 1 ∧ insnField (coreWord s rg k) 5 4 ≠ 15 ∧ insnField (coreWord s rg k) 1 4 ≠ 15 ∧ insnField (coreWord s rg k) 5 4 ≠ insnField (coreWord s rg k) 1 4 ∧ ((s.eas rg k).p (insnField (coreWord s rg k) 13 2)).getLsbD 0 = false ∧ ((s.eas rg k).p (4 + insnField (coreWord s rg k) 11 2)).getLsbD 0 = false) ∧
    (∃ (rg : Rg) (k : CoreNo) (s : State), CoreAt s rg k 0x14 ∧ insnField (coreWord s rg k) 22 3 = 2) ∧
    (∃ (rg : Rg) (k : CoreNo) (s : State), CoreAt s rg k 0x14 ∧ insnField (coreWord s rg k) 22 3 = 0) ∧
    (∃ (rg : Rg) (k : CoreNo) (s : State), CoreAt s rg k 0x15 ∧ (coreWord s rg k).getLsbD 14 = false ∧ insnField (coreWord s rg k) 15 5 ≤ 24) ∧
    (∃ (rg : Rg) (k : CoreNo) (s : State), CoreAt s rg k 0x15 ∧ (coreWord s rg k).getLsbD 14 = true ∧ insnField (coreWord s rg k) 15 5 ≤ 24 ∧ 32767 * 2 ^ (insnField (coreWord s rg k) 15 5) < ((s.eas rg k).acc ((coreWord s rg k).getLsbD 20)).toInt) :=
  ⟨⟨3, 1, (coreOn 0x4A021800 [(2, 0x8001), (3, 0x7FFF)] {}), by decide +kernel⟩,
    ⟨3, 1, (coreOn 0x48821800 [(2, 0x8001), (3, 0x7FFF)] { a0 := 0x7FFFFFFFFF }), by decide +kernel⟩,
    ⟨3, 1, (coreOn 0x49021800 [(2, 0x8001), (3, 0x7FFF)] {}), by decide +kernel⟩,
    ⟨3, 1, (coreOn 0x4C892C68 [(9, 0x8001), (10, 0x7FFF)] { ptr := [(1, 100), (5, 40)], x := [(100, 5), (101, 1)], y := [(40, 7)] }), by decide +kernel⟩,
    ⟨3, 1, (coreOn 0x50800000 [(2, 0x8001), (3, 0x7FFF)] { a0 := 0x7FFFFFFFFF, a1 := 5 }), by decide +kernel⟩,
    ⟨3, 1, (coreOn 0x50000000 [(2, 0x8001), (3, 0x7FFF)] { a0 := 0x7FFFFFFFFF, a1 := 5 }), by decide +kernel⟩,
    ⟨3, 1, (coreOn 0x55240000 [(2, 0x8001), (3, 0x7FFF)] { a0 := 0x123456789A }), by decide +kernel⟩,
    ⟨3, 1, (coreOn 0x55244000 [(2, 0x8001), (3, 0x7FFF)] { a0 := 0x123456789A }), by decide +kernel⟩⟩

theorem witness_LoadsAndStores :
    (∃ (rg : Rg) (k : CoreNo) (s : State), CoreAt s rg k 0x18 ∧ (((s.eas rg k).effective (coreWord s rg k)).1).toNat % 2 = 0) ∧
    (∃ (rg : Rg) (k : CoreNo) (s : State), CoreAt s rg k 0x19 ∧ (((s.eas rg k).effective (coreWord s rg k)).1).toNat % 2 = 0) ∧
    (∃ (rg : Rg) (k : CoreNo) (s : State), CoreAt s rg k 0x1A ∧ (((s.eas rg k).effective (coreWord s rg k)).1).toNat % 4 = 0 ∧ insnRd (coreWord s rg k) % 2 = 0) ∧
    (∃ (rg : Rg) (k : CoreNo) (s : State), CoreAt s rg k 0x1B ∧ (((s.eas rg k).effective (coreWord s rg k)).1).toNat % 4 = 0 ∧ insnRd (coreWord s rg k) % 2 = 0) :=
  ⟨⟨3, 1, (coreOn 0x60950002 [(4, 0xBEEF), (5, 0xCAFE)] { ptr := [(5, 64)], y := [(64, 1), (66, 2)] }), by decide +kernel⟩,
    ⟨3, 1, (coreOn 0x64950002 [(4, 0xBEEF), (5, 0xCAFE)] { ptr := [(5, 64)], y := [(64, 1), (66, 2)] }), by decide +kernel⟩,
    ⟨3, 1, (coreOn 0x68950004 [(4, 0xBEEF), (5, 0xCAFE)] { ptr := [(5, 64)], y := [(64, 1), (66, 2)] }), by decide +kernel⟩,
    ⟨3, 1, (coreOn 0x6C950004 [(4, 0xBEEF), (5, 0xCAFE)] { ptr := [(5, 64)], y := [(64, 1), (66, 2)] }), by decide +kernel⟩⟩

theorem witness_EaselFlow :
    (∃ (rg : Rg) (k : CoreNo) (s : State), CoreAt s rg k 0x20) ∧
    (∃ (rg : Rg) (k : CoreNo) (s : State), CoreAt s rg k 0x21 ∧ branchTaken s rg k (coreWord s rg k) = true) ∧
    (∃ (rg : Rg) (k : CoreNo) (s : State), CoreAt s rg k 0x21 ∧ branchTaken s rg k (coreWord s rg k) = false) ∧
    (∃ (rg : Rg) (k : CoreNo) (s : State), CoreAt s rg k 0x22) ∧
    (∃ (rg : Rg) (k : CoreNo) (s : State), CoreAt s rg k 0x23) ∧
    (∃ (rg : Rg) (k : CoreNo) (s : State), CoreAt s rg k 0x24 ∧ (s.eas rg k).pc.toNat < (insnTarget (coreWord s rg k)).toNat ∧ (s.eas rg k).l0 = none ∧ (s.eas rg k).l1 = none ∧ (if (coreWord s rg k).getLsbD 25 then coreReg s rg k (insnField (coreWord s rg k) 20 5) else BitVec.ofNat 16 (insnField (coreWord s rg k) 16 9)) ≠ 0) ∧
    (∃ (rg : Rg) (k : CoreNo) (s : State), CoreAt s rg k 0x24 ∧ (s.eas rg k).pc.toNat < (insnTarget (coreWord s rg k)).toNat ∧ (s.eas rg k).l0 = none ∧ (s.eas rg k).l1 = none ∧ (if (coreWord s rg k).getLsbD 25 then coreReg s rg k (insnField (coreWord s rg k) 20 5) else BitVec.ofNat 16 (insnField (coreWord s rg k) 16 9)) = 0) ∧
    (∃ (rg : Rg) (k : CoreNo) (s : State), CoreAt s rg k 0x25 ∧ s.rf rg (F.EAS_STATUS_HOLDING k.val) = 1 ∧ (s.eas rg k).late = false) ∧
    (∃ (rg : Rg) (k : CoreNo) (s : State), CoreAt s rg k 0x26 ∧ (s.eas rg k).pend &&& (s.eas rg k).ien = 0) ∧
    (∃ (rg : Rg) (k : CoreNo) (s : State), CoreAt s rg k 0x26 ∧ (s.eas rg k).pend &&& (s.eas rg k).ien ≠ 0) ∧
    (∃ (rg : Rg) (k : CoreNo) (s : State), CoreAt s rg k 0x27) ∧
    (∃ (rg : Rg) (k : CoreNo) (s : State), CoreAt s rg k 0x29 ∧ s.attached = false ∧ (s.eas rg k).dbg.trapHalt = false ∧ (s.eas rg k).ie = true) ∧
    (∃ (rg : Rg) (k : CoreNo) (s : State), s.rf rg (F.EAS_STATUS_STATE k.val) = 1 ∧ s.rf rg (F.EAS_STATUS_HALTED k.val) = 0 ∧ s.clocked rg = true ∧ s.logicStep rg = false ∧ (s.eas rg k).fetched = none ∧ (s.eas rg k).pendFix = true ∧ (s.eas rg k).ien.getLsbD 0 = true ∧ (s.eas rg k).ie = true ∧ (s.eas rg k).dbg.stepping = false) :=
  ⟨⟨3, 1, (coreOn 0x80400077 [(2, 0x8001), (3, 0x7FFF)] { sr := 1 }), by decide +kernel⟩,
    ⟨3, 1, (coreOn 0x84000077 [(2, 0x8001), (3, 0x7FFF)] {}), by decide +kernel⟩,
    ⟨3, 1, (coreOn 0x84400077 [(2, 0x8001), (3, 0x7FFF)] {}), by decide +kernel⟩,
    ⟨3, 1, (coreOn 0x88000000 [(2, 0x8001), (3, 0x7FFF)] { lr := 0x55 }), by decide +kernel⟩,
    ⟨3, 1, (coreOn 0x8C000000 [(2, 0x8001), (3, 0x7FFF)] { epc := 0x55 }), by decide +kernel⟩,
    ⟨3, 1, (coreOn 0x90070040 [(2, 0x8001), (3, 0x7FFF)] {}), by decide +kernel⟩,
    ⟨3, 1, (coreOn 0x90000040 [(2, 0x8001), (3, 0x7FFF)] {}), by decide +kernel⟩,
    ⟨3, 1, rgnF 3 [(F.EAS_STATUS_HOLDING 1, 1)] (coreOn 0x94000000 [] { pendFix := true }), by decide +kernel⟩,
    ⟨3, 1, (coreOn 0x98000000 [(2, 0x8001), (3, 0x7FFF)] {}), by decide +kernel⟩,
    ⟨3, 1, (coreOn 0x98000000 [(2, 0x8001), (3, 0x7FFF)] { ien := 1, pendFix := true }), by decide +kernel⟩,
    ⟨3, 1, rgnF 3 [(F.EAS_WDOG_LIMIT 1, 500)] (coreOn 0x9C000000 [] {}), by decide +kernel⟩,
    ⟨3, 1, (coreOn 0xA4000000 [(2, 0x8001), (3, 0x7FFF)] { sr := 0x80 }), by decide +kernel⟩,
    ⟨3, 1, coreOn 0 [] { pendFix := true, ien := 1, sr := 0x80, pc := 60 }, by decide +kernel⟩⟩

theorem witness_EaselTraps :
    (∃ (rg : Rg) (k : CoreNo) (s : State), s.coreRuns rg k = true ∧ (s.eas rg k).dbg.trapHalt = false ∧ (s.eas rg k).ie = true ∧ (s.eas rg k).dbg.stepping = false ∧ (s.eas rg k).dbg.haltReq = false ∧ (s.eas rg k).pc.toNat < 0x6000 ∧ isOpcode (insnOp (coreWord s rg k)) = false) ∧
    (∃ (rg : Rg) (k : CoreNo) (s : State), s.coreRuns rg k = true ∧ (s.eas rg k).dbg.trapHalt = false ∧ (s.eas rg k).ie = true ∧ (s.eas rg k).dbg.stepping = false ∧ (s.eas rg k).dbg.haltReq = false ∧ 0x6000 ≤ (s.eas rg k).pc.toNat) ∧
    (∃ (rg : Rg) (k : CoreNo) (s : State), CoreAt s rg k 0x19 ∧ (s.eas rg k).dbg.trapHalt = false ∧ (s.eas rg k).ie = true ∧ ((s.eas rg k).effective (coreWord s rg k)).1.toNat % 2 = 1) ∧
    (∃ (rg : Rg) (k : CoreNo) (s : State), CoreAt s rg k 0x1A ∧ (s.eas rg k).dbg.trapHalt = false ∧ (s.eas rg k).ie = true ∧ insnRd (coreWord s rg k) % 2 = 1) ∧
    (∃ (rg : Rg) (k : CoreNo) (s : State), CoreAt s rg k 0x1C ∧ (s.eas rg k).dbg.trapHalt = false ∧ (s.eas rg k).ie = true ∧ insnRd (coreWord s rg k) % 4 ≠ 0) ∧
    (∃ (rg : Rg) (k : CoreNo) (s : State), s.coreRuns rg k = true ∧ s.attached = false ∧ (s.eas rg k).ie = false ∧ (s.eas rg k).pc.toNat < 0x6000 ∧ isOpcode (insnOp (coreWord s rg k)) = false ∧ (s.eas rg k).dbg.trapHalt = false) :=
  ⟨⟨3, 1, coreOn 0xFC000000 [(1, 7)] { sr := 0x80 }, by decide +kernel⟩,
    ⟨3, 1, coreOn 0 [(1, 7)] { sr := 0x80, pc := 0x6000 }, by decide +kernel⟩,
    ⟨3, 1, coreOn 0x640B0011 [(1, 7)] { sr := 0x80 }, by decide +kernel⟩,
    ⟨3, 1, coreOn 0x68200000 [(1, 7)] { sr := 0x80 }, by decide +kernel⟩,
    ⟨3, 1, coreOn 0x71240480 [(1, 7)] { sr := 0x80 }, by decide +kernel⟩,
    ⟨3, 1, coreOn 0xFC000000 [(1, 7)] {}, by decide +kernel⟩⟩

theorem witness_PalettePortMailboxAndPacket :
    (∃ (rg : Rg) (k : CoreNo) (s : State), CoreAt s rg k 0x1C ∧ s.rf rg (F.EAS_STATUS_HOLDING k.val) = 1 ∧ (s.eas rg k).late = false ∧ insnRd (coreWord s rg k) % 4 = 0 ∧ palAllowed (insnField (coreWord s rg k) 7 10) false = true ∧ (coreWord s rg k).getLsbD 6 = false) ∧
    (∃ (rg : Rg) (k : CoreNo) (s : State), CoreAt s rg k 0x1C ∧ s.rf rg (F.EAS_STATUS_HOLDING k.val) = 1 ∧ (s.eas rg k).late = false ∧ insnRd (coreWord s rg k) % 4 = 0 ∧ palAllowed (insnField (coreWord s rg k) 7 10) true = true ∧ (coreWord s rg k).getLsbD 6 = true) ∧
    (∃ (rg : Rg) (k : CoreNo) (s : State), CoreAt s rg k 0x1D ∧ s.rf rg F.DMEM_STATUS_OWNER = k.val ∧ (s.rgn rg).frontWrites = false ∧ (s.rgn rg).checked (dmemKey ((s.eas rg k).getMany (insnRa (coreWord s rg k)) 2 / 8)) .clean = .clean ∧ insnRd (coreWord s rg k) % 4 = 0 ∧ insnRa (coreWord s rg k) % 2 = 0 ∧ ((s.eas rg k).getMany (insnRa (coreWord s rg k)) 2) % 8 = 0 ∧ (s.eas rg k).getMany (insnRa (coreWord s rg k)) 2 < 0x400000 ∧ (coreWord s rg k).getLsbD 15 = false ∧ (coreWord s rg k).getLsbD 14 = false) ∧
    (∃ (rg : Rg) (k : CoreNo) (s : State), CoreAt s rg k 0x1D ∧ s.rf rg F.DMEM_STATUS_OWNER = k.val ∧ (s.rgn rg).frontWrites = false ∧ (s.rgn rg).checked (dmemKey ((s.eas rg k).getMany (insnRa (coreWord s rg k)) 2 / 8)) .clean = .clean ∧ insnRd (coreWord s rg k) % 4 = 0 ∧ insnRa (coreWord s rg k) % 2 = 0 ∧ ((s.eas rg k).getMany (insnRa (coreWord s rg k)) 2) % 8 = 0 ∧ (s.eas rg k).getMany (insnRa (coreWord s rg k)) 2 < 0x400000 ∧ (coreWord s rg k).getLsbD 15 = true ∧ (coreWord s rg k).getLsbD 14 = false ∧ (s.rgn rg).undoFull = false) ∧
    (∃ (rg : Rg) (k : CoreNo) (s : State), s.rf rg F.DMEM_STATUS_OWNER = k.val) ∧
    (∃ (rg : Rg) (k : CoreNo) (m : MbWord) (rest : List MbWord) (s : State), CoreAt s rg k 0x1E ∧ insnRd (coreWord s rg k) % 2 = 0 ∧ (s.eas rg k).mbin = m :: rest ∧ m.bad = false) ∧
    (∃ (rg : Rg) (k : CoreNo) (s : State), CoreAt s rg k 0x1F ∧ insnRa (coreWord s rg k) % 2 = 0 ∧ (s.eas rg k).mboutCut = false ∧ (s.eas rg k).mbout.length < 64) ∧
    (∃ (rg : Rg) (k : CoreNo) (tag : Nat) (s : State), CoreAt s rg k 0x28 ∧ (coreA s rg k).toNat % 8 = 0 ∧ (s.eas rg k).freeTag = some tag ∧ ((descPacket s rg k (coreA s rg k).toNat tag).packet.data = [] ∨ xRead (s.eas rg k).x ((coreA s rg k).toNat + 12) 2 % 16 = 0) ∧ ((descPacket s rg k (coreA s rg k).toNat tag).packet.cmd = 1 ∨ (descPacket s rg k (coreA s rg k).toNat tag).packet.cmd = 4 → (descPacket s rg k (coreA s rg k).toNat tag).resp.toNat % 16 = 0)) :=
  ⟨⟨3, 1, (rgnF 3 [(F.EAS_STATUS_HOLDING 1, 1)] (coreOn 0x71040480 [] {})).onCl 3 2 (fun c => { c with pal := [(9, 0x123456789ABCDEF0)] }), by decide +kernel⟩,
    ⟨3, 1, (rgnF 3 [(F.EAS_STATUS_HOLDING 1, 1)] (coreOn 0x710404C0 [(8, 1), (9, 2)] {})).onCl 3 2 (fun c => { c with pal := [(9, 0x123456789ABCDEF0)] }), by decide +kernel⟩,
    ⟨3, 1, (rgnF 3 [(F.DMEM_STATUS_OWNER, 1)] (coreOn 0x75020000 [(2, 0x48)] {})).onRgn 3 (fun r => { r with dmem := [(9, 0x123456789ABCDEF0)] }), by decide +kernel⟩,
    ⟨3, 1, (rgnF 3 [(F.DMEM_STATUS_OWNER, 1)] (coreOn 0x750283C0 [(2, 0x48), (8, 0x1111), (9, 0x2222)] {})).onRgn 3 (fun r => { r with dmem := [(9, 0x123456789ABCDEF0)] }), by decide +kernel⟩,
    ⟨3, 1, rgnF 3 [(F.DMEM_STATUS_OWNER, 1)] State.reset, by decide +kernel⟩,
    ⟨3, 1, ⟨0xCAFE1234, true, false⟩, [], coreOn 0x78800000 [] { mbin := [⟨0xCAFE1234, true, false⟩] }, by decide +kernel⟩,
    ⟨3, 1, coreOn 0x7C048000 [(4, 7), (5, 8)] {}, by decide +kernel⟩,
    ⟨3, 1, 0, coreOn 0xA0020000 [(2, 0x40)] { x := [(0x43, 2), (0x44, 1), (0x4C, 0x80)] }, by decide +kernel⟩⟩

theorem witness_CoreResetAndHostSide :
    (∃ (rg : Rg) (k : CoreNo) (s : State), s.rf rg (F.EAS_CTRL_HOLD_RST k.val) = 0 ∧ (s.rgn rg).live = true ∧ (s.eas rg k).stopFrom = none) ∧
    (∃ (rg : Rg) (k : CoreNo) (s : State), s.rf rg (F.EAS_CTRL_HOLD_RST k.val) = 0 ∧ s.coreRuns rg k = true ∧ s.rf rg (F.EAS_WDOG_LIMIT k.val) ≠ 0 ∧ s.rf rg (F.EAS_WDOG_CNT_COUNT k.val) = 0) ∧
    (∃ (rg : Rg) (k : CoreNo) (s : State), s.rf rg (F.EAS_CTRL_HOLD_RST k.val) = 0 ∧ (s.eas rg k).stopFrom = none) ∧
    (∃ (rg : Rg) (k : CoreNo) (s : State), (s.eas rg k).mbin.length < 64) ∧
    (∃ (rg : Rg) (k : CoreNo) (s : State), (s.eas rg k).mbin.length < 64 ∧ (s.eas rg k).mbinCut = false) ∧
    (∃ (rg : Rg) (k : CoreNo) (m : MbWord) (rest : List MbWord) (s : State), (s.eas rg k).mbout = m :: rest ∧ m.bad = false) ∧
    (∃ (rg : Rg) (k : CoreNo) (u : BitVec 3) (s : State), s.rf rg (F.EAS_PATCH_ADDR_CLAIMED k.val u.toNat) = 0) ∧
    (∃ (rg : Rg) (k : CoreNo) (u : BitVec 3) (s : State), s.rf rg (F.EAS_PATCH_ADDR_CLAIMED k.val u.toNat) = 0) :=
  ⟨⟨3, 1, (coreOn 5 [(1, 7)] { pc := 99 }).onRgn 3 (fun r => { r with live := true }), by decide +kernel⟩,
    ⟨3, 1, rgnF 3 [(F.EAS_WDOG_LIMIT 1, 9), (F.EAS_WDOG_CNT_COUNT 1, 0)] (coreOn 5 [(1, 7)] { pc := 99 }), by decide +kernel⟩,
    ⟨3, 1, coreOn 5 [(1, 7)] { pc := 99 }, by decide +kernel⟩,
    ⟨3, 1, State.reset, by decide +kernel⟩,
    ⟨3, 1, State.reset, by decide +kernel⟩,
    ⟨3, 1, ⟨9, true, false⟩, [], coreOn 0 [] { mbout := [⟨9, true, false⟩] }, by decide +kernel⟩,
    ⟨3, 1, 2, State.reset, by decide +kernel⟩,
    ⟨3, 1, 2, State.reset, by decide +kernel⟩⟩

theorem witness_ResetsAndBoot :
    (∃ (s : State), s.pwr.boot = .noPower) ∧
    (∃ (s : State), s.pwr.boot = .resetLow) ∧
    (∃ (s : State), s.pwr.boot = .up) ∧
    (∃ (s : State), s.pwr.boot = .up ∧ s.packageResetting = false ∧ s.fullLoad = false ∧ s.groundBusy = false) ∧
    (∃ (s : State), s.pwr.boot = .resetLow ∧ s.packageResetting = false) ∧
    (∃ (s : State), s.packageResetting = false ∧ s.hubPowered = true ∧ s.fullLoad = false ∧ s.groundBusy = false) ∧
    (∃ (s : State), s.packageResetting = false ∧ s.hubPowered = true ∧ (s.load.kind = .full ∧ (s.cfgState = 1 ∨ s.cfgState = 2))) ∧
    (∃ (s : State), s.packageResetting = true) ∧
    (∃ (s : State), s.fab.resetDue = true ∧ s.packageResetting = false ∧ s.hubPowered = true) ∧
    (∃ (s : State), s.pwr.boot = .helmBoot) ∧
    (∃ (s : State), s.pwr.boot = .selfTest ∧ s.bist.lost = []) ∧
    (∃ (r : BistReport) (off : List (BitVec 18)) (s : State), s.pwr.boot = .selfTest ∧ (off ≠ [] ∧ ∀ f ∈ r.fails, BitVec.ofNat 18 (macroOf f) ∈ off)) ∧
    (∃ (r : BistReport) (k : Fin 5) (s : State), s.pwr.boot = .selfTest ∧ s.bist.began ≤ s.now ∧ SMap.get [] s.bist.lost k.val = [(s.bist.began, none)] ∧ (∀ f ∈ r.fails, (if f.hub = true then 4 else f.q.toNat) = k.val)) ∧
    (∃ (s : State), s.pwr.boot = .calibration) ∧
    (∃ (rg : Rg) (s : State), s.rf rg F.RGN_STATUS_RESET_BUSY = 1 ∧ s.rf rg F.RWD_STATUS_MODE ≠ 2 ∧ s.applying = none ∧ (s.rgn rg).releasing = false ∧ (s.rgn rg).rwd.restoring = none) ∧
    (∃ (q : Quad) (s : State), s.drainOf q.toNat = .reset ∧ s.applying = none ∧ SMap.get none s.pwr.qGoal q.toNat = none) ∧
    (∃ (s : State), s.drainOf 4 = .reset ∧ s.pwr.boot = .up) :=
  ⟨⟨{ State.reset with pwr := { boot := .noPower }, sram := [(5, 5)] }, by decide +kernel⟩,
    ⟨{ State.reset with pwr := { boot := .resetLow } }, by decide +kernel⟩,
    ⟨{ State.reset with pwr := { boot := .up } }, by decide +kernel⟩,
    ⟨{ State.reset with pwr := { boot := .up } }, by decide +kernel⟩,
    ⟨{ State.reset with pwr := { boot := .resetLow } }, by decide +kernel⟩,
    ⟨State.reset, by decide +kernel⟩,
    ⟨loadAt 2 [], by decide +kernel⟩,
    ⟨State.reset.setDrain 4 .reset, by decide +kernel⟩,
    ⟨{ State.reset with fab := { resetDue := true } }, by decide +kernel⟩,
    ⟨State.reset, by decide +kernel⟩,
    ⟨{ State.reset with pwr := { boot := .selfTest } }, by decide +kernel⟩,
    ⟨⟨[⟨0, 3, false, 5, false, 8, 1⟩], []⟩, [BitVec.ofNat 18 (macroOf ⟨0, 3, false, 5, false, 8, 1⟩)], { State.reset with pwr := { boot := .selfTest } }, by decide +kernel⟩,
    ⟨⟨[⟨0, 3, false, 5, false, 8, 1⟩], []⟩, 0, { State.reset with pwr := { boot := .selfTest }, bist := { lost := [(0, [(0, none)])] } }, by decide +kernel⟩,
    ⟨{ State.reset with pwr := { boot := .calibration } }, by decide +kernel⟩,
    ⟨3, rgnF 3 [(F.RGN_STATUS_RESET_BUSY, 1), (F.RGN_STATUS_EPOCH, 255)] State.reset, by decide +kernel⟩,
    ⟨1, State.reset.setDrain 1 .reset, by decide +kernel⟩,
    ⟨{ State.reset with pwr := { boot := .up, cause := 3 } }.setDrain 4 .reset, by decide +kernel⟩⟩

theorem witness_PowerStates :
    (∃ (s : State), s.pwrState = 0 ∧ s.drainOf 4 = .none ∧ s.activeJobs = []) ∧
    (∃ (st : BitVec 3) (j : Job) (s : State), 1 ≤ st.toNat ∧ st.toNat ≤ 4 ∧ s.fullLoad = false ∧ s.pwrState = 0 ∧ s.drainOf 4 = .none ∧ s.activeJobs = [j] ∧ (s.job j).hold ≠ none ∧ s.f (F.MER_JOB_CTRL_FAILED j.toNat) = 0) ∧
    (∃ (st : BitVec 3) (s : State), 2 ≤ st.toNat ∧ st.toNat ≤ 4 ∧ s.pwrState < st.toNat ∧ s.drainOf 4 = .none ∧ s.activeJobs = [] ∧ s.fullLoad = false) ∧
    (∃ (s : State), s.f F.PWR_CTRL_AUTO = 1 ∧ 1 ≤ s.f F.PWR_CTRL_MAX_STATE ∧ 1 ≤ s.f F.PWR_TOL_US ∧ 1 ≤ s.f F.PWR_IDLE_US ∧ s.pwrState = 0 ∧ s.drainOf 4 = .none) ∧
    (∃ (st : BitVec 3) (s : State), 2 ≤ st.toNat ∧ st.toNat ≤ 4 ∧ s.drainOf 4 = .gate st ∧ (∀ k : Fin 4, s.drainOf k.val = .none) ∧ s.pwr.wakeDue = none ∧ s.fullLoad = false) ∧
    (∃ (s : State), s.drainOf 4 = .none ∧ 1 ≤ s.pwrState ∧ s.pwrState ≤ 4) ∧
    (∃ (p : PortNo) (s : State), s.link p.val = 6 ∧ s.drainOf 4 = .none ∧ s.pwrState = 2) ∧
    (∃ (s : State), s.pwr.exiting = true ∧ s.pwr.goal = none ∧ s.f F.PWR_CTRL_RELOAD = 0 ∧ s.f F.THM_STATUS_THERM = 0) ∧
    (∃ (s : State), s.pwr.exiting = true ∧ s.pwr.goal = none ∧ s.f F.PWR_CTRL_RELOAD = 0 ∧ s.f F.THM_STATUS_THERM = 1) ∧
    (∃ (q : Quad) (s : State), s.quadResetting q.toNat = false ∧ s.packageResetting = false) ∧
    (∃ (q : Quad) (s : State), (∀ rg : Rg, quadOf rg = q.toNat → s.jobOf rg = none) ∧ s.drainOf q.toNat = .none ∧ s.ownState q.toNat = 0) ∧
    (∃ (q : Quad) (s : State), (∀ rg : Rg, quadOf rg = q.toNat → s.jobOf rg = none) ∧ s.drainOf q.toNat = .none ∧ s.ownState q.toNat = 0) ∧
    (∃ (q : Quad) (s : State), s.drainOf q.toNat = .none ∧ s.ownState q.toNat = 5 ∧ s.pwr.locked.getLsbD q.toNat = false ∧ s.pwrState < 2) ∧
    (∃ (s : State), s.packageResetting = false) ∧
    (∃ (s : State), s.pwr.shutdown = 0 ∧ s.pwrState < 5) ∧
    (∃ (s : State), s.pwr.shutdown = 1) ∧
    (∃ (s : State), s.pwr.shutdown = 3 ∧ s.f F.PWR_CTRL_SHUT_BIST = 0) :=
  ⟨⟨State.reset, by decide +kernel⟩,
    ⟨2, 3, (hub [(F.MER_JOB_CTRL_ACTIVE 3, 1)]).setJob 3 { hold := some 9 }, by decide +kernel⟩,
    ⟨2, State.reset, by decide +kernel⟩,
    ⟨hub [(F.PWR_CTRL_AUTO, 1), (F.PWR_CTRL_MAX_STATE, 1), (F.PWR_TOL_US, 1), (F.PWR_IDLE_US, 1)], by decide +kernel⟩,
    ⟨2, State.reset.setDrain 4 (.gate 2), by decide +kernel⟩,
    ⟨hub [(F.PWR_STATUS_STATE, 2)], by decide +kernel⟩,
    ⟨1, hub [(F.PWR_STATUS_STATE, 2), (F.LNK_STATUS_STATE 1, 6)], by decide +kernel⟩,
    ⟨{ hub [(F.PWR_STATUS_STATE, 2)] with pwr := { exiting := true } }, by decide +kernel⟩,
    ⟨{ hub [(F.PWR_STATUS_STATE, 2), (F.THM_STATUS_THERM, 1)] with pwr := { exiting := true } }, by decide +kernel⟩,
    ⟨1, State.reset, by decide +kernel⟩,
    ⟨1, State.reset, by decide +kernel⟩,
    ⟨1, State.reset, by decide +kernel⟩,
    ⟨1, State.reset.setOwn 1 5, by decide +kernel⟩,
    ⟨State.reset, by decide +kernel⟩,
    ⟨State.reset, by decide +kernel⟩,
    ⟨{ State.reset with pwr := { shutdown := 1 } }, by decide +kernel⟩,
    ⟨{ hub [(F.PWR_CTRL_SHUT_BIST, 0)] with pwr := { shutdown := 3 } }, by decide +kernel⟩⟩

theorem witness_PowerAndThermalSamples :
    (∃ (temps : List (BitVec 8)) (s : State), temps.length = 65 ∧ s.hubPowered = true ∧ s.pwr.boot ≠ .resetLow) ∧
    (∃ (temps : List (BitVec 8)) (s : State), temps.length = 65 ∧ s.hubPowered = true ∧ s.pwr.boot ≠ .resetLow ∧ (∃ x ∈ temps, 115 ≤ x.toInt)) ∧
    (∃ (temps : List (BitVec 8)) (s : State), temps.length = 65 ∧ s.hubPowered = true ∧ s.pwr.boot ≠ .resetLow ∧ (∃ x ∈ temps, s.throttleAt ≤ x.toInt)) :=
  ⟨⟨List.replicate 65 40, State.reset, by decide +kernel⟩,
    ⟨40 :: 116 :: List.replicate 63 40, State.reset, by decide +kernel⟩,
    ⟨40 :: 111 :: List.replicate 63 40, State.reset, by decide +kernel⟩⟩

theorem witness_CountingAndSelfTest :
    (∃ (l : BitVec 3) (s : State), SMap.get [] s.faultQ l.toNat = []) ∧
    (∃ (l : BitVec 3) (src : BitVec 5) (key : Word) (rest : List (BitVec 5 × Word)) (s : State), SMap.get [] s.faultQ l.toNat = (src, key) :: rest ∧ 2 ≤ s.f (F.FLT_CLASS_N src.toNat) ∧ s.tracks.length < 512 ∧ (∀ x ∈ s.tracks, x.src ≠ src ∨ x.loc ≠ l ∨ x.key ≠ key)) ∧
    (∃ (l : BitVec 3) (since : Word) (src : BitVec 5) (key : Word) (first : Nat) (n : BitVec 9) (rest : List (BitVec 5 × Word)) (s : State), SMap.get [] s.faultQ l.toNat = (src, key) :: rest ∧ s.f (F.FLT_CLASS_N src.toNat) = n.toNat + 1 ∧ 1 ≤ n.toNat ∧ n.toNat < 255 ∧ s.tracks = [⟨src, l, key, n, first⟩] ∧ s.msAt since - first ≤ 100 * s.f (F.FLT_CLASS_W src.toNat) ∧ s.f F.FLT_LOG_PTR_LASTING = 4) ∧
    (∃ (rg : Rg) (due : Bool) (s : State), s.f F.FLT_CTRL_ISB_EN = 1 ∧ s.bist.asked.getLsbD rg.toNat = false ∧ s.testable rg = true ∧ ((due = true ∧ s.passDue rg = true) ∨ (due = false ∧ s.bist.queued.getLsbD rg.toNat = true)) ∧ s.testCount = 0 ∧ s.f F.PWR_POWER_NOW = 0 ∧ s.f F.FLT_ISB_HEADROOM ≤ 100 ∧ s.f F.PWR_STATUS_STATE ≤ 1 ∧ s.clocked rg = true ∧ s.rf rg F.FIX_STATUS_STATE = 0 ∧ s.rf rg F.RGN_CTRL_ISOLATE = 0 ∧ (∀ k : CoreNo, s.rf rg (F.EAS_STATUS_STATE k.val) ≠ 1)) ∧
    (∃ (rg : Rg) (s : State), s.testCount = 0 ∧ s.testing rg = false ∧ s.f F.PWR_POWER_NOW = 0 ∧ s.f F.FLT_ISB_HEADROOM ≤ 100 ∧ s.rf rg F.FIX_STATUS_STATE = 0 ∧ s.testable rg = true) ∧
    (∃ (rg : Rg) (s : State), s.testing rg = false ∧ s.rf rg F.FIX_STATUS_STATE = 2) ∧
    (∃ (rg : Rg) (s : State), s.testing rg = true ∧ s.bist.demand.getLsbD rg.toNat = false) ∧
    (∃ (rg : Rg) (s : State), s.testing rg = true ∧ s.logicStep rg = false ∧ (noteTested s rg).blocksLeft rg = [] ∧ s.passBad rg = false ∧ s.testSound rg = true ∧ s.bist.unsound.getLsbD rg.toNat = false) ∧
    (∃ (rg : Rg) (f : BistFail) (s : State), s.testing rg = true ∧ s.logicStep rg = false ∧ s.testSound rg = true ∧ s.bist.unsound.getLsbD rg.toNat = false ∧ f.hub = false ∧ failRegion f = rg ∧ f.logic = false ∧ f.mac.toNat ≤ 1160 ∧ (SMap.get none s.bist.bank rg.toNat = some f.mac ∧ ∃ b ∈ (noteTested s rg).blocksLeft rg, b < 1161) ∧ s.repairs = []) ∧
    (∃ (rg : Rg) (valid : Bool) (s : State), s.testing rg = true ∧ s.logicStep rg = false ∧ (valid = false ∨ s.testSound rg = false ∨ s.bist.unsound.getLsbD rg.toNat = true)) ∧
    (∃ (rg : Rg) (s : State), s.testing rg = true ∧ s.logicStep rg = true ∧ (s.stepBroken rg = true ∧ ∃ b ∈ s.blocksLeft rg, b < 1161)) ∧
    (∃ (s : State), (∃ rg : Rg, s.testing rg = true)) ∧
    (∃ (w : Writer), w ≠ .i3c) :=
  ⟨⟨2, State.reset, by decide +kernel⟩,
    ⟨2, 3, 9, [], { hub [(F.FLT_CLASS_N 3, 2)] with faultQ := [(2, [(3, 9)])] }, by decide +kernel⟩,
    ⟨2, 70000, 7, 9, 0, 1, [], { hub [(F.FLT_CLASS_N 7, 2), (F.FLT_LOG_PTR_LASTING, 4)] with faultQ := [(2, [(7, 9)])], tracks := [⟨7, 2, 9, 1, 0⟩] }, by decide +kernel⟩,
    ⟨3, true, { rgnF 3 [(F.RGN_STATUS_CFG, 1)] (hub [(F.FLT_CTRL_ISB_EN, 1), (F.FLT_ISB_INTERVAL, 24), (F.FLT_ISB_HEADROOM, 5), (F.PWR_QSTAT_STATE 0, 0)]) with pwr := { boot := .up } }, by decide +kernel⟩,
    ⟨3, { hub [(F.FLT_ISB_HEADROOM, 5)] with pwr := { boot := .up } }, by decide +kernel⟩,
    ⟨3, rgnF 3 [(F.FIX_STATUS_STATE, 2)] State.reset, by decide +kernel⟩,
    ⟨3, State.reset.setTesting 3 true, by decide +kernel⟩,
    ⟨3, { (hub [(F.PWR_QSTAT_VQ 0, 750)]).setTesting 3 true with bist := { tested := [(3, BitVec.allOnes 1218)] } }, by decide +kernel⟩,
    ⟨3, ⟨0, 3, false, 5, false, 17, 1⟩, { (hub [(F.PWR_QSTAT_VQ 0, 750)]).setTesting 3 true with bist := { bank := [(3, some 5)] } }, by decide +kernel⟩,
    ⟨3, false, State.reset.setTesting 3 true, by decide +kernel⟩,
    ⟨3, { (rgnF 3 [(F.FIX_STATUS_STATE, 2)] State.reset).setTesting 3 true with bist := { bank := [(3, some 1205)] } }, by decide +kernel⟩,
    ⟨State.reset.setTesting 3 true, by decide +kernel⟩,
    ⟨.debug, by decide +kernel⟩⟩

theorem witness_Scrubbing :
    (∃ (rg : Rg) (s : State), s.f F.SCR_CTRL_CNV_EN = 1 ∧ s.walks rg = true ∧ (∃ rh : Rg, s.walks rh = true ∧ rh ≠ rg ∧ s.scr.cnvDone.getLsbD rh.toNat = false)) ∧
    (∃ (rg : Rg) (s : State), (s.f F.SCR_CTRL_CNV_EN = 0 ∨ s.walks rg = false)) ∧
    (∃ (rg : Rg) (s : State), s.f F.SCR_CTRL_CNV_EN = 1 ∧ s.walks rg = true ∧ ((s.rgn rg).cell (SMap.get 0 s.scr.cnv rg.toNat)).clamped = false) ∧
    (∃ (rg : Rg) (s : State), s.f F.SCR_CTRL_CNV_EN = 1 ∧ s.walks rg = true ∧ ((s.rgn rg).cell (SMap.get 0 s.scr.cnv rg.toNat)).clamped = false) ∧
    (∃ (rg : Rg) (s : State), (s.f F.SCR_CTRL_MEM_EN = 0 ∨ s.walks rg = false)) ∧
    (∃ (rg : Rg) (s : State), s.f F.SCR_CTRL_MEM_EN = 1 ∧ s.walks rg = true ∧ s.applying = none ∧ s.rf rg F.DMEM_ARB_SCRUB_BURST = 2 ∧ s.rf rg F.DMEM_STATUS_OWNER = 5 ∧ (s.rgn rg).upsets = [] ∧ (s.rgn rg).frontWrites = false ∧ (SMap.get 0 s.scr.mem rg.toNat).toNat + 2 < 786432 ∧ (∃ rh : Rg, s.walks rh = true ∧ rh ≠ rg ∧ s.scr.memDone.getLsbD rh.toNat = false)) :=
  ⟨⟨3, ((rgnF 3 [(F.RGN_STATUS_CFG, 1)] (rgnF 4 [(F.RGN_STATUS_CFG, 1)] (hub [(F.SCR_CTRL_CNV_EN, 1), (F.PWR_QSTAT_STATE 0, 0)]))).onRgn 3 (fun r => { r with configured := true })).onRgn 4 (fun r => { r with configured := true }), by decide +kernel⟩,
    ⟨3, State.reset, by decide +kernel⟩,
    ⟨3, (rgnF 3 [(F.RGN_STATUS_CFG, 1)] (hub [(F.SCR_CTRL_CNV_EN, 1), (F.PWR_QSTAT_STATE 0, 0)])).onRgn 3 (fun r => { r with configured := true, canvas := [(0, 64 * 2 ^ 186)] }), by decide +kernel⟩,
    ⟨3, (rgnF 3 [(F.RGN_STATUS_CFG, 1)] (hub [(F.SCR_CTRL_CNV_EN, 1), (F.PWR_QSTAT_STATE 0, 0)])).onRgn 3 (fun r => { r with configured := true }), by decide +kernel⟩,
    ⟨3, State.reset, by decide +kernel⟩,
    ⟨3, ((rgnF 3 [(F.RGN_STATUS_CFG, 1), (F.DMEM_ARB_SCRUB_BURST, 2), (F.DMEM_STATUS_OWNER, 5)] (rgnF 4 [(F.RGN_STATUS_CFG, 1)] (hub [(F.SCR_CTRL_MEM_EN, 1), (F.PWR_QSTAT_STATE 0, 0)]))).onRgn 3 (fun r => { r with configured := true })).onRgn 4 (fun r => { r with configured := true }), by decide +kernel⟩⟩

theorem witness_SectionsOfALoad_1 :
    (∃ (w : Word) (s : State), s.load.kind = .none ∧ s.load.path = 3 ∧ s.load.fifo + 4 ≤ windowBytes ∧ s.load.fifo % 4 = 0 ∧ stagedBytes (stageWords s.load.stage s.load.fifo [w]) 0 64 = none) ∧
    (∃ (x : Section) (d : List (BitVec 8)) (s : State), AtWhole s x 1 d ∧ x.done = 0 ∧ x.len = 512 + 16 * x.count.toNat ∧ x.count.toNat ≤ 255 ∧ (∀ v ∈ numbers 8 (d.take 512), v < 128) ∧ partFlaw [] 0 (numbers 16 (d.drop 512)) = none) ∧
    (∃ (x : Section) (h : Nat) (d : List (BitVec 8)) (s : State), AtRun s x 2 h d ∧ hf h 16 11 = 1 ∧ frameReserved (runRgn h) (BitVec.ofNat 10 (hf h 6 10)) (BitVec.ofNat 2048 (leNat (d.take 256))) = true ∧ frameSound (s.onRgn (runRgn h) (fun r => r.putFrame (BitVec.ofNat 10 (hf h 6 10)) (BitVec.ofNat 2048 (leNat (d.take 256))))) (runRgn h) (BitVec.ofNat 10 (hf h 6 10)) = true) ∧
    (∃ (x : Section) (h : Nat) (d : List (BitVec 8)) (s : State), AtRun s x 3 h d) :=
  ⟨⟨0x424C5241, { State.reset with load := { path := 3 } }, by decide +kernel⟩,
    ⟨{ secAt 1 128 with count := 0 }, dataOf (69 :: List.replicate 127 0), { loadAt 1 (69 :: List.replicate 127 0) with load := { (loadAt 1 (69 :: List.replicate 127 0)).load with sec := some { secAt 1 128 with count := 0 } } }, by decide +kernel⟩,
    ⟨secAt 2 66, 65536 + 64 * 7 + 12, dataOf (List.replicate 64 0), loadAt 2 ([65536 + 64 * 7 + 12, 0] ++ List.replicate 64 0), by decide +kernel⟩,
    ⟨secAt 3 226, 66700, List.replicate (4 * 224) 0, zerosAt 3 66700 225, ⟨by decide +kernel, rfl, by decide, by decide, run_zeros 3 66700 224 (by decide) (by decide) rfl⟩⟩⟩

theorem witness_SectionsOfALoad_2 :
    (∃ (x : Section) (h : Nat) (d : List (BitVec 8)) (s : State), AtRun s x 4 h d) ∧
    (∃ (x : Section) (h : Nat) (d : List (BitVec 8)) (s : State), AtRun s x 5 h d) ∧
    (∃ (x : Section) (h : Nat) (d : List (BitVec 8)) (k : CoreNo) (s : State), AtRun s x 6 h d ∧ hf h 6 2 = k.val) ∧
    (∃ (x : Section) (h : Nat) (d : List (BitVec 8)) (s : State), AtRun s x 7 h d ∧ leNat ((d.drop 8).take 8) = 0 ∧ wordsClear 0xFFFE0000 ((numbers 4 d).drop 4) = true) :=
  ⟨⟨secAt 4 6, 12 + 64 * 2 + 1024 * 991 + 2 ^ 20 * 2, dataOf [1, 2, 3, 4], loadAt 4 [12 + 64 * 2 + 1024 * 991 + 2 ^ 20 * 2, 0, 1, 2, 3, 4], by decide +kernel⟩,
    ⟨secAt 5 6, 12 + 64 * 40 + 2 ^ 25 * 2, dataOf [1, 2, 3, 4], loadAt 5 [12 + 64 * 40 + 2 ^ 25 * 2, 0, 1, 2, 3, 4], by decide +kernel⟩,
    ⟨secAt 6 4, 12 + 64 * 1 + 256 * 2 + 1024 * 16 + 2 ^ 26 * 8, dataOf [1, 2], 1, loadAt 6 [12 + 64 * 1 + 256 * 2 + 1024 * 16 + 2 ^ 26 * 8, 0, 1, 2], by decide +kernel⟩,
    ⟨secAt 7 8, 2 + 8 * 24, dataOf [3, 4, 0, 0, 9, 8], loadAt 7 [2 + 8 * 24, 0, 3, 4, 0, 0, 9, 8], by decide +kernel⟩⟩

theorem witness_SectionsOfALoad_3 :
    (∃ (x : Section) (h : Nat) (d : List (BitVec 8)) (s : State), AtRun s x 8 h d ∧ (∀ i : Fin 32, (numbers 4 d).getD i.val 0 &&& (if i.val % 2 = 0 then 0xFF000000 else 0xE0000000) = 0) ∧ wordsClear 0xFFFC0000 ((numbers 4 d).drop 32) = true) ∧
    (∃ (x : Section) (h : Nat) (d : List (BitVec 8)) (s : State), AtRun s x 9 h d ∧ hf h 6 4 = 0 ∧ ((numbers 4 d).zipIdx).all (fun x => x.1 &&& (if x.2 % 2 = 0 then 0xFFFFFC00 else 0xFF000000) == 0) = true) ∧
    (∃ (x : Section) (h : Nat) (d : List (BitVec 8)) (s : State), AtRun s x 9 h d ∧ hf h 6 4 = 1 ∧ wordsClear 0xFFFFFE00 (numbers 4 d) = true) ∧
    (∃ (x : Section) (h : Nat) (d : List (BitVec 8)) (s : State), AtRun s x 9 h d ∧ hf h 6 4 = 2) :=
  ⟨⟨secAt 8 418, 12, List.replicate (4 * 416) 0, zerosAt 8 12 417, ⟨by decide +kernel, rfl, by decide, by decide, run_zeros 8 12 416 (by decide) (by decide) rfl⟩, by decide +kernel, by decide +kernel⟩,
    ⟨secAt 9 2050, 12, List.replicate (4 * 2048) 0, zerosAt 9 12 2049, ⟨by decide +kernel, rfl, by decide, by decide, run_zeros 9 12 2048 (by decide) (by decide) rfl⟩, by decide, by decide +kernel⟩,
    ⟨secAt 9 514, 76, List.replicate (4 * 512) 0, zerosAt 9 76 513, ⟨by decide +kernel, rfl, by decide, by decide, run_zeros 9 76 512 (by decide) (by decide) rfl⟩, by decide, by decide +kernel⟩,
    ⟨secAt 9 514, 9356, List.replicate (4 * 512) 0, zerosAt 9 9356 513, ⟨by decide +kernel, rfl, by decide, by decide, run_zeros 9 9356 512 (by decide) (by decide) rfl⟩, by decide⟩⟩

theorem witness_SectionsOfALoad_4 :
    (∃ (x : Section) (h : Nat) (d : List (BitVec 8)) (s : State), AtRun s x 9 h d ∧ hf h 6 4 = 3 ∧ leNat ((d.drop 2).take 6) = 0) ∧
    (∃ (x : Section) (h : Nat) (d : List (BitVec 8)) (s : State), AtRun s x 0xA h d) ∧
    (∃ (x : Section) (d : List (BitVec 8)) (s : State), AtWhole s x 0xB d ∧ x.done = 0 ∧ x.len = 16 * x.count.toNat ∧ ((pieces 16 (d.length / 16) d).map (numbers 4)).all (fun r => r.getD 3 0 == 0 && groundMask (r.getD 0 0) != 0 && r.getD 1 0 &&& (0xFFFFFFFF - groundMask (r.getD 0 0)) == 0) = true) ∧
    (∃ (x : Section) (d : List (BitVec 8)) (s : State), AtWhole s x 0xF d ∧ x.done = 0 ∧ x.len = 200 ∧ headerField s 0x20 4 = s.load.sections + 1 ∧ leNat ((d.drop 1).take 7) = 0) :=
  ⟨⟨secAt 9 6, 12 + 192, dataOf [7, 0, 5, 6], loadAt 9 [12 + 192, 0, 7, 0, 5, 6], by decide +kernel⟩,
    ⟨secAt 0xA 4, 16 + 2 ^ 24 * 8, dataOf [1, 2], loadAt 0xA [16 + 2 ^ 24 * 8, 0, 1, 2], by decide +kernel⟩,
    ⟨secAt 0xB 4, dataOf [R.CFG_CTRL, 2, 2, 0], loadAt 0xB [R.CFG_CTRL, 2, 2, 0], by decide +kernel⟩,
    ⟨secAt 0xF 50, dataOf (List.replicate 50 0), { loadAt 0xF (List.replicate 50 0) with load := { (loadAt 0xF (List.replicate 50 0)).load with stage := stageWords [] 0 (([0, 0, 0, 0, 0, 0, 0, 0, 1] ++ List.replicate 65 0).map (BitVec.ofNat 32)) } }, by decide +kernel⟩⟩

theorem witness_TheEndOfALoad :
    (∃ (s : State), s.load.kind = .full ∧ s.cfgState = 2 ∧ s.load.path ≠ 1 ∧ s.f F.CFG_CTRL_DONE_SOLO = 0 ∧ s.load.settings.all (fun x => groundMask x.1.toNat != 0 && x.1.toNat != R.CFG_CTRL) = true) ∧
    (∃ (s : State), s.load.kind = .full ∧ s.cfgState = 2 ∧ s.load.path ≠ 1 ∧ 200 ≤ s.load.point ∧ (stagedBytes s.load.stage 0 s.load.point).isSome = true ∧ s.fuses.programmed ≠ 0 ∧ s.fuses.programmed.getLsbD (leNat ((stagedBytes s.load.stage (s.load.point - 200) 1).getD [])) = false) ∧
    (∃ (s : State), s.load.kind = .full ∧ s.cfgState = 1 ∧ s.f F.CFG_CTRL_LOAD_TIMEOUT ≠ 0) ∧
    (∃ (s : State), (s.load.kind = .full ∧ (s.cfgState = 1 ∨ s.cfgState = 2))) ∧
    (∃ (s : State), s.cfgState = 3) ∧
    (∃ (v : Word), v.getLsbD 9 = false) ∧
    (∃ (v : Word) (s : State), v.getLsbD 9 = true ∧ v.getLsbD 7 = true ∧ s.f F.FAB_STATUS_LODESTAR = 0 ∧ (∀ rg : Rg, s.jobOf rg = none)) :=
  ⟨⟨{ hub [(F.CFG_STATUS_STATE, 2), (F.CFG_CTRL_DONE_SOLO, 0)] with load := { kind := .full, path := 2, point := 496 } }, by decide +kernel⟩,
    ⟨{ hub [(F.CFG_STATUS_STATE, 2)] with fuses := { programmed := 2 }, load := { kind := .full, path := 2, point := 200, stage := stageWords [] 0 (List.replicate 50 0) } }, by decide +kernel⟩,
    ⟨loadAt 5 [], by decide +kernel⟩,
    ⟨loadAt 5 [], by decide +kernel⟩,
    ⟨hub [(F.CFG_STATUS_STATE, 3)], by decide +kernel⟩,
    ⟨0x105, by decide +kernel⟩,
    ⟨0x3C5, State.reset, by decide +kernel⟩⟩

theorem witness_GroundsAndKeys :
    (∃ (s : State), s.fullLoad = false ∧ s.groundBusy = false) ∧
    (∃ (s : State), s.fullLoad = false ∧ s.groundBusy = false) ∧
    (∃ (n : BitVec 2) (s : State), s.load.kind = .ground n ∧ bsLength s ≤ s.load.end_) ∧
    (∃ (s : State), s.fullLoad = false ∧ s.groundBusy = false) ∧
    (∃ (slot : BitVec 2) (s : State), s.fuses.programmed.getLsbD slot.toNat = false) ∧
    (∃ (w : Writer) (arm : BitVec 8), (w ≠ .i3c ∨ arm ≠ 0xC5)) ∧
    (∃ (w : Writer) (arm : BitVec 8), (w ≠ .i3c ∨ arm ≠ 0xC5)) :=
  ⟨⟨State.reset, by decide +kernel⟩,
    ⟨State.reset, by decide +kernel⟩,
    ⟨1, { State.reset with load := { kind := .ground 1 } }, by decide +kernel⟩,
    ⟨State.reset, by decide +kernel⟩,
    ⟨1, State.reset.setReg (R.CFG_SKEY_HASH 0) 7, by decide +kernel⟩,
    ⟨.helm, 0xC5, by decide +kernel⟩,
    ⟨.helm, 0xC5, by decide +kernel⟩⟩

theorem witness_RetouchPort :
    (∃ (rg : Rg) (d : Drive) (v : BitVec 16) (s : State), s.retouchEndpoint rg = true ∧ (s.rgn rg).canvasRuns = true ∧ (s.rgn rg).rtcStatus = none ∧ seenToken s rg (segAbove false 0 0 (boxOf rg 480)) = some (d, v) ∧ s.load.kind = .none ∧ s.rtc.endpoint = none ∧ (s.reg R.RTC_CTRL).getLsbD (sourceBit 4) = true ∧ s.load.armed = none) ∧
    (∃ (rg : Rg) (d : Drive) (v : BitVec 16) (s : State), s.retouchEndpoint rg = true ∧ (s.rgn rg).canvasRuns = true ∧ (s.rgn rg).rtcStatus = none ∧ seenToken s rg (segAbove false 0 0 (boxOf rg 480)) = some (d, v) ∧ s.load.kind = .none ∧ s.rtc.endpoint = none ∧ ((s.reg R.RTC_CTRL).getLsbD (sourceBit 4) = false ∨ s.load.armed.isSome = true)) ∧
    (∃ (rg : Rg) (d : Drive) (v : BitVec 16) (s : State), s.retouchEndpoint rg = true ∧ (s.rgn rg).canvasRuns = true ∧ (s.rgn rg).rtcStatus = none ∧ seenToken s rg (segAbove false 0 0 (boxOf rg 480)) = some (d, v) ∧ s.rtc.endpoint = some rg ∧ s.rtcState = 1 ∧ s.load.half = none) ∧
    (∃ (p : PartEntry) (u : State) (sig : Nat) (enc : Bool) (s : State), PartialAt s 2 p ∧ placeFlaw s p = none ∧ writePartial p s = .ok (u, sig, enc) ∧ headerField s 0x28 4 < 256 ∧ p.cells = [] ∧ s.jobOf p.rg = none) ∧
    (∃ (s : State), s.load.kind = .retouch ∧ s.rtcState = 2 ∧ s.partOf = none) ∧
    (∃ (s : State), s.load.kind = .retouch ∧ s.rtcState = 1 ∧ s.f F.RTC_CTRL_TIMEOUT ≠ 0) ∧
    (∃ (p : PartEntry) (s : State), PartialAt s 3 p ∧ s.f F.RTC_CTRL_HOLD_WAIT ≠ 0 ∧ p.runs s = true) ∧
    (∃ (s : State), s.load.kind = .retouch ∧ 1 ≤ s.rtcState ∧ s.rtcState ≤ 3) ∧
    (∃ (p : PartEntry) (s : State), PartialAt s 3 p ∧ p.runs s = false ∧ p.absent s = false) ∧
    (∃ (p : PartEntry) (u : State) (sig : Nat) (enc : Bool) (s : State), PartialAt s 4 p ∧ (quiet s p = true ∨ s.rtc.forced = true) ∧ writePartial p { s with keys := s.rtc.keys } = .ok (u, sig, enc) ∧ p.canvas = false ∧ s.jobOf p.rg = none ∧ (s.rgn p.rg).resetDue = false) ∧
    (∃ (p : PartEntry) (s : State), s.partOf = some p ∧ s.rtcState = 4 ∧ s.f F.RTC_STATUS_CLAMPED = 1 ∧ s.rtc.forced = false) ∧
    (∃ (rg : Rg) (s : State), s.dirty rg = true ∧ (s.rgn rg).fix.checking = true ∧ s.jobOf rg = none ∧ scheduleFlaw (s.setDirty rg false) rg = none) ∧
    (∃ (kind : BitVec 2) (s : State), (kind = 3 ∨ (kind = 2 ∧ (s.f F.CFG_STATUS_ENC = 1 ∨ s.f F.RTC_STATUS_ENC_SEEN = 1)))) ∧
    (∃ (kind : BitVec 2) (rg : Rg) (s : State), kind.toNat ≤ 1 ∧ s.rtc.rb = none ∧ s.rtc.rbQueue = [] ∧ s.applying ≠ some rg ∧ (s.rgn rg).inCycle = false) ∧
    (∃ (kind : BitVec 2) (rg : Rg) (s : State), kind.toNat ≤ 1 ∧ s.rtc.rb = none ∧ s.rtc.rbQueue = [] ∧ s.applying ≠ some rg ∧ (s.rgn rg).inCycle = true) ∧
    (∃ (kind : BitVec 2) (x : BitVec 2 × Rg) (s : State), kind.toNat ≤ 1 ∧ s.rtc.rb = some x) ∧
    (∃ (x : BitVec 2 × Rg) (s : State), s.rtc.rb = some x ∧ s.f F.RTC_RB_STATUS_WAITING_FIX = 0 ∧ s.rtc.rbQueue = []) :=
  ⟨⟨3, .out 3 480 0, 7, ((cellsAt [(480, 2 ^ 852 + 2 ^ 288)] [(480, { y0 := some 7 })]).setReg R.RTC_CEN_LO 8).setReg R.RTC_CTRL 0x1F, by decide +kernel⟩,
    ⟨3, .out 3 480 0, 7, ((cellsAt [(480, 2 ^ 852 + 2 ^ 288)] [(480, { y0 := some 7 })]).setReg R.RTC_CEN_LO 8).setReg R.RTC_CTRL 0, by decide +kernel⟩,
    ⟨3, .out 3 480 0, 7, { ((cellsAt [(480, 2 ^ 852 + 2 ^ 288)] [(480, { y0 := some 7 })]).setReg R.RTC_CEN_LO 8).setF F.RTC_STATUS_STATE 1 with rtc := { endpoint := some 3 } }, by decide +kernel⟩,
    ⟨partEntry (1 + 2 ^ 10 * 3 + 2 ^ 14 * 4), partialAt 2 4, 96, false, partialAt 2 4, by decide +kernel⟩,
    ⟨(partialAt 2 4).setF F.RTC_STATUS_PID 9, by decide +kernel⟩,
    ⟨(partialAt 1 4).setF F.RTC_CTRL_TIMEOUT 5, by decide +kernel⟩,
    ⟨partEntry (1 + 2 ^ 10 * 3 + 2 ^ 14 * 4), rgnF 3 [(F.FIX_STATUS_STATE, 2)] ((partialAt 3 4).setF F.RTC_CTRL_HOLD_WAIT 5), by decide +kernel⟩,
    ⟨partialAt 3 4, by decide +kernel⟩,
    ⟨partEntry (1 + 2 ^ 10 * 3 + 2 ^ 14 * 8), partialAt 3 8, by decide +kernel⟩,
    ⟨partEntry (1 + 2 ^ 10 * 3 + 2 ^ 14 * 4), { partialAt 4 4 with keys := (partialAt 4 4).rtc.keys }, 96, false, partialAt 4 4, by decide +kernel⟩,
    ⟨partEntry (1 + 2 ^ 10 * 3 + 2 ^ 14 * 8), (partialAt 4 8).setF F.RTC_STATUS_CLAMPED 1, by decide +kernel⟩,
    ⟨3, ((rgnF 3 [(F.RGN_STATUS_CFG, 1), (F.CLU_STATUS_NO_END 0, 0)] State.reset).onRgn 3 (fun r => { r with fix := { r.fix with checking := true } })).setDirty 3 true, by decide +kernel⟩,
    ⟨2, hub [(F.CFG_STATUS_ENC, 1)], by decide +kernel⟩,
    ⟨1, 3, State.reset, by decide +kernel⟩,
    ⟨1, 3, rgnF 3 [(F.FIX_STATUS_STATE, 2)] State.reset, by decide +kernel⟩,
    ⟨1, (0, 4), { State.reset with rtc := { rb := some (0, 4) } }, by decide +kernel⟩,
    ⟨(1, 3), { hub [(F.RTC_RB_STATUS_BUSY, 1)] with rtc := { rb := some (1, 3) } }, by decide +kernel⟩⟩

theorem witness_HelmBus :
    (∃ (a : Word) (s : State), s.bus = [] ∧ a.toNat ∈ [R.SEM_CTRL, R.PWR_TOL, R.FLT_ISB]) ∧
    (∃ (a : Word) (w : Writer), a.toNat % 4 ≠ 0 ∧ w ≠ .i3c) ∧
    (∃ (a : Word) (s : State), a.toNat % 4 ≠ 0 ∧ s.i3cBusy = false) ∧
    (∃ (b : BusAccess) (rg : Rg) (a : Nat) (s : State), s.bus = [b] ∧ b.space = false ∧ b.addr.toNat % 4 = 0 ∧ placeOf b.addr.toNat = .window rg a ∧ s.busReaches rg = false) ∧
    (∃ (b : BusAccess) (d : BusDone) (s : State), s.bus = [b] ∧ b.who = .helm ∧ busTry { s with bus := [] } b = some d) ∧
    (∃ (b : BusAccess) (s : State), s.bus = [b] ∧ b.who = .helm) :=
  ⟨⟨BitVec.ofNat 32 R.FLT_ISB, State.reset, by decide +kernel⟩,
    ⟨2, .helm, by decide +kernel⟩,
    ⟨2, State.reset, by decide +kernel⟩,
    ⟨{ addr := BitVec.ofNat 40 0x10000000, write := none, who := .helm }, 0, 0, { hub [(F.PWR_QSTAT_STATE 0, 4)] with bus := [{ addr := BitVec.ofNat 40 0x10000000, write := none, who := .helm }] }, by decide +kernel⟩,
    ⟨{ addr := BitVec.ofNat 40 R.SEM_CTRL, write := some 1, who := .helm }, ⟨.ok, 0, writePlace State.reset (.hub R.SEM_CTRL) 1 .helm⟩, { State.reset with bus := [{ addr := BitVec.ofNat 40 R.SEM_CTRL, write := some 1, who := .helm }] }, ⟨rfl, rfl, rfl⟩⟩,
    ⟨{ addr := BitVec.ofNat 40 0x10000000, write := none, who := .helm }, { hub [(F.PWR_QSTAT_STATE 0, 4)] with bus := [{ addr := BitVec.ofNat 40 0x10000000, write := none, who := .helm }] }, by decide +kernel⟩⟩

theorem witness_RequestsAtTargets :
    (∃ (p : Packet) (s : State), AtTarget s p ∧ p.cmd = 1 ∧ nodeUnit p.dest = 0x39 ∧ memoryShape p sramSize = true) ∧
    (∃ (p : Packet) (s : State), AtTarget s p ∧ p.cmd = 2 ∧ nodeUnit p.dest = 0x39 ∧ memoryShape p sramSize = true ∧ whole p = true ∧ p.poison = 0) ∧
    (∃ (p : Packet) (s : State), AtTarget s p ∧ p.cmd = 3 ∧ nodeUnit p.dest = 0x39 ∧ memoryShape p sramSize = true ∧ whole p = true ∧ p.poison = 0) ∧
    (∃ (p : Packet) (ecc : Ecc) (old : Nat) (v : Nat) (cmp : Nat) (s : State), AtTarget s p ∧ p.cmd = 4 ∧ nodeUnit p.dest = 0x39 ∧ atomicShape p sramSize = true ∧ p.poison = 0 ∧ ecc ≠ .uncorrectable ∧ old = Mem.read s.sram p.addr.toNat 8 ∧ v = (operand p).toNat ∧ cmp = (bitsAt (p.data.getD 1 0) 0 64 : BitVec 64).toNat) ∧
    (∃ (p : Packet) (s : State), AtTarget s p ∧ p.cmd = 4 ∧ nodeUnit p.dest = 0x39 ∧ atomicShape p sramSize = true) ∧
    (∃ (p : Packet) (k : CoreNo) (s : State), AtTarget s p ∧ p.cmd = 5 ∧ nodeUnit p.dest = 0x10 + k.val ∧ p.addr.toNat = 0x30000 ∧ whole p = true ∧ p.poison = 0 ∧ 1 ≤ p.len.toNat ∧ p.len.toNat ≤ 16 ∧ s.applying = none ∧ (s.eas (nodeRgn p.dest) k).mbin.length + 4 * p.len.toNat ≤ 64) ∧
    (∃ (p : Packet) (s : State), AtTarget s p ∧ p.cmd = 6 ∧ nodeUnit p.dest = 0x3A ∧ whole p = true ∧ p.poison = 0 ∧ 1 ≤ p.len.toNat ∧ p.len.toNat ≤ 32 ∧ p.addr.toNat % 16 = 0 ∧ p.addr.toNat ≠ 0 ∧ p.addr.toNat + 16 * p.len.toNat ≤ windowBytes ∧ s.load.kind = .none ∧ s.load.path ≠ 3 ∧ stagedByte s.load.stage 0 = none) ∧
    (∃ (p : Packet) (s : State), p ∈ s.arrived ∧ p.isResp = false ∧ p.cmd = 1 ∧ badUnit p = false ∧ p.epoch ≠ s.epochAt p.dest ∧ (nodeUnit p.dest < 0x17 → (s.rgn (nodeRgn p.dest)).absorbing = false) ∧ s.waiting (netKey (elemNo (targetElement p)) (ownInput (targetElement p)) 2) < 8) ∧
    (∃ (p : Packet) (s : State), AtTarget s p ∧ p.cmd = 0x20 ∧ nodeUnit p.dest = 0x38 ∧ p.len = 0 ∧ s.merState ≠ 4 ∧ s.merState ≠ 5) ∧
    (∃ (p : Packet) (s : State), EndsRequest s p ∧ p.cmd = 0x10 ∧ coreOf p.dest = none) ∧
    (∃ (p : Packet) (s : State), EndsRequest s p ∧ p.cmd = 0x11 ∧ coreOf p.dest = none) ∧
    (∃ (p : Packet) (s : State), EndsRequest s p ∧ p.cmd = 0x12 ∧ coreOf p.dest = none) ∧
    (∃ (p : Packet) (k : CoreNo) (q : EnginePkt) (s : State), EndsRequest s p ∧ p.cmd = 0x11 ∧ coreOf p.dest = some k ∧ SMap.get none (s.eas (nodeRgn p.dest) k).pkts (p.tag.toNat % 128) = some q) ∧
    (∃ (p : Packet) (s : State), p ∈ s.arrived ∧ p.cmd = 0x11 ∧ nodeUnit p.dest < 0x17 ∧ SMap.get false s.tags (tagKey p.dest (p.tag.toNat % 128)) = false) :=
  ⟨⟨pk 0x39 0x3A 1 2 16 [], came (pk 0x39 0x3A 1 2 16 []) { State.reset with sram := [(17, 9)] }, by decide +kernel⟩,
    ⟨pk 0x39 0x3A 2 1 16 [0x55], came (pk 0x39 0x3A 2 1 16 [0x55]) State.reset, by decide +kernel⟩,
    ⟨pk 0x39 0x3A 3 1 16 [0x55], came (pk 0x39 0x3A 3 1 16 [0x55]) State.reset, by decide +kernel⟩,
    ⟨pk 0x39 0x3A 4 1 16 [5 + 2 ^ 125], .clean, 9, 5, 0, came (pk 0x39 0x3A 4 1 16 [5 + 2 ^ 125]) { State.reset with sram := [(16, 9)] }, by decide +kernel⟩,
    ⟨pk 0x39 0x3A 4 1 16 [5 + 2 ^ 125], came (pk 0x39 0x3A 4 1 16 [5 + 2 ^ 125]) { State.reset with sram := [(16, 9)] }, by decide +kernel⟩,
    ⟨pk (64 * 3 + 0x11) 0x3A 5 1 0x30000 [0x55], 1, came (pk (64 * 3 + 0x11) 0x3A 5 1 0x30000 [0x55]) (rgnF 3 [(F.RGN_STATUS_CFG, 1)] State.reset), by decide +kernel⟩,
    ⟨pk 0x3A 0x39 6 1 64 [0x55], came (pk 0x3A 0x39 6 1 64 [0x55]) State.reset, by decide +kernel⟩,
    ⟨{ pk 0x39 0x3A 1 2 16 [] with epoch := 9 }, came { pk 0x39 0x3A 1 2 16 [] with epoch := 9 } State.reset, by decide +kernel⟩,
    ⟨pk 0x38 0x3A 0x20 0 0 [], came (pk 0x38 0x3A 0x20 0 0 []) { State.reset with mer := { tick := 5 } }, by decide +kernel⟩,
    ⟨{ pk 0x38 0x39 0x10 1 0 [7] with vc := 2 }, { came { pk 0x38 0x39 0x10 1 0 [7] with vc := 2 } State.reset with tags := [(128 * 0x38, true)] }, by decide +kernel⟩,
    ⟨{ pk 0x38 0x39 0x11 0 0 [] with vc := 2 }, { came { pk 0x38 0x39 0x11 0 0 [] with vc := 2 } State.reset with tags := [(128 * 0x38, true)] }, by decide +kernel⟩,
    ⟨{ pk 0x38 0x39 0x12 0 5 [] with vc := 2 }, { came { pk 0x38 0x39 0x12 0 5 [] with vc := 2 } State.reset with tags := [(128 * 0x38, true)] }, by decide +kernel⟩,
    ⟨{ pk (64 * 3 + 0x10) 0x39 0x11 0 0 [] with vc := 2 }, 0, { packet := pk 0x39 (64 * 3 + 0x10) 2 1 0 [7], irq := true, resp := 0, desc := 64, sent := true }, ({ came { pk (64 * 3 + 0x10) 0x39 0x11 0 0 [] with vc := 2 } State.reset with tags := [(128 * (64 * 3 + 0x10), true)] }).onEas 3 0 (fun e => { e with pkts := [(0, some { packet := pk 0x39 (64 * 3 + 0x10) 2 1 0 [7], irq := true, resp := 0, desc := 64, sent := true })] }), by decide +kernel⟩,
    ⟨{ pk (64 * 3 + 0x10) 0x39 0x11 0 0 [] with vc := 2 }, came { pk (64 * 3 + 0x10) 0x39 0x11 0 0 [] with vc := 2 } State.reset, by decide +kernel⟩⟩

theorem witness_PacketPlane :
    (∃ (p : Packet) (s : State), nodeCoord p.src = s.f F.FAB_ID_COORD ∧ coreOf p.src = none ∧ p.unanswered = false ∧ s.hasRoom (elemNo (injectAt p.src).1) (injectAt p.src).2 { p with vc := 0 } = true ∧ SMap.get false s.tags (tagKey p.src p.tag.toNat) = false) ∧
    (∃ (p : Packet) (s : State), p.unanswered = false ∧ SMap.get false s.tags (tagKey p.src p.tag.toNat) = true) ∧
    (∃ (p : Packet) (rg : Rg) (s : State), nodeRgn p.src = rg ∧ s.rf rg F.NOC_CTRL_INJ_TIMEOUT ≠ 0 ∧ coreOf p.src = none ∧ p.cmd ≠ 3) ∧
    (∃ (p : Packet) (s : State), nodeCoord p.src = s.f F.FAB_ID_COORD ∧ 0x17 ≤ nodeUnit p.src ∧ p.isResp = false ∧ p.cmd ≠ 3 ∧ (s.hasRoom 68 10 p = false ∨ (p.unanswered = false ∧ SMap.get false s.tags (tagKey p.src p.tag.toNat) = true))) ∧
    (∃ (p : Packet) (port : PortNo) (rest : List Packet) (s : State), s.queue (netKey 68 (4 + port.val) p.vc.toNat) = p :: rest ∧ p.isResp = false ∧ p.posted = false ∧ s.f (F.LNK_CFG_INJ_TIMEOUT port.val) ≠ 0 ∧ noPlace s port.val = true ∧ refusalDue s .hub (4 + port.val) p = false) ∧
    (∃ (node : BitVec 12) (tag : BitVec 7) (s : State), SMap.get false s.tags (tagKey (node.zeroExtend 24) tag.toNat) = true ∧ 0x17 ≤ nodeUnit (node.zeroExtend 24)) ∧
    (∃ (rg : Rg) (inp : BitVec 5) (vc : BitVec 2) (k : Nat) (p : Packet) (rest : List Packet) (s : State), s.rf rg F.NOC_STATUS_DRAINING = 0 ∧ blockedAt s (.router rg) (netKey rg.toNat inp.toNat vc.toNat) = true ∧ firstBlocked s (.router rg) = some k ∧ s.queue k = p :: rest) ∧
    (∃ (rg : Rg) (inp : BitVec 3) (vc : BitVec 2) (p : Packet) (rest : List Packet) (s : State), s.queue (netKey rg.toNat inp.toNat vc.toNat) = p :: rest ∧ s.behind (netKey rg.toNat inp.toNat vc.toNat) = 0 ∧ s.rf rg F.NOC_STATUS_DRAINING = 0 ∧ s.rf rg F.NOC_STATUS_REFUSING = 0 ∧ (s.rgn rg).absorbing = false ∧ s.rf rg F.NOC_ISO_OUT = 0 ∧ s.dbg.testing = none ∧ (∀ i : Fin 16, overrideHit (s.rgn rg) p.dest i.val = false) ∧ routeOut s rg p.dest = 4 ∧ s.targetRoom (.router rg) p = true) ∧
    (∃ (rg : Rg) (inp : BitVec 3) (vc : BitVec 2) (o : Fin 4) (b : Bool) (p : Packet) (rest : List Packet) (s : State), s.queue (netKey rg.toNat inp.toNat vc.toNat) = p :: rest ∧ s.behind (netKey rg.toNat inp.toNat vc.toNat) = 0 ∧ s.rf rg F.NOC_STATUS_DRAINING = 0 ∧ s.rf rg F.NOC_ISO_OUT = 0 ∧ (∀ i : Fin 16, overrideHit (s.rgn rg) p.dest i.val = false) ∧ routeOut s rg p.dest = o.val ∧ b = ((decide (inp.toNat < 4 ∧ inp.toNat / 2 = o.val / 2) && p.vc.getLsbD 0) || (torusNext rg o.val).2) ∧ s.hasRoom (torusNext rg o.val).1.toNat (oppositeIn o.val) (p.stage b) = true) ∧
    (∃ (rg : Rg) (inp : BitVec 3) (vc : BitVec 2) (s : State), s.behind (netKey rg.toNat inp.toNat vc.toNat) ≠ 0) ∧
    (∃ (q : Quad) (inp : BitVec 5) (vc : BitVec 2) (p : Packet) (rest : List Packet) (s : State), s.queue (netKey (64 + q.toNat) inp.toNat vc.toNat) = p :: rest ∧ s.behind (netKey (64 + q.toNat) inp.toNat vc.toNat) = 0 ∧ s.refusing.getLsbD q.toNat = false ∧ nodeCoord p.dest = s.f F.FAB_ID_COORD ∧ nodeUnit p.dest < 0x38 ∧ quadOf (nodeRgn p.dest) = q.toNat ∧ quadStopped s q.toNat = none ∧ s.hasRoom (nodeRgn p.dest).toNat 5 p = true) ∧
    (∃ (inp : BitVec 5) (vc : BitVec 2) (p : Packet) (rest : List Packet) (s : State), s.queue (netKey 68 inp.toNat vc.toNat) = p :: rest ∧ s.behind (netKey 68 inp.toNat vc.toNat) = 0 ∧ nodeCoord p.dest = s.f F.FAB_ID_COORD ∧ 0x38 ≤ nodeUnit p.dest ∧ nodeUnit p.dest ≤ 0x3B ∧ refusalDue s .hub inp.toNat p = false ∧ s.targetRoom .hub p = true ∧ s.dbg.testing = none) ∧
    (∃ (rg : Rg) (s : State), s.rf rg F.NOC_STATUS_DRAINING = 1) ∧
    (∃ (rg : Rg) (s : State), s.rf rg F.NOC_STATUS_DRAINING = 1) :=
  ⟨⟨pk 0x39 (64 * 3 + 0x13) 1 2 16 [], State.reset, by decide +kernel⟩,
    ⟨pk 0x39 (64 * 3 + 0x13) 1 2 16 [], { State.reset with tags := [(128 * (64 * 3 + 0x13), true)] }, by decide +kernel⟩,
    ⟨pk 0x39 (64 * 3 + 0x13) 1 2 16 [], 3, rgnF 3 [(F.NOC_CTRL_INJ_TIMEOUT, 4)] State.reset, by decide +kernel⟩,
    ⟨pk 0x39 0x38 1 2 16 [], { State.reset with tags := [(128 * 0x38, true)] }, by decide +kernel⟩,
    ⟨pk 0x39 0x100038 1 2 16 [], 1, [], { portAt 5 { txPkt := [(2, List.replicate 32 { packet := pk 0x100038 0x39 0x12 0 0 [], own := true })] } [(F.LNK_CFG_INJ_TIMEOUT 1, 1)] with net := [(netKey 68 5 0, [pk 0x39 0x100038 1 2 16 []])] }, by decide +kernel⟩,
    ⟨0x38, 3, { State.reset with tags := [(128 * 0x38 + 3, true)] }, by decide +kernel⟩,
    ⟨3, 2, 1, netKey 3 2 1, { pk 0x39 0x38 1 2 16 [] with vc := 1 }, [], { State.reset with net := [(netKey 3 2 1, [{ pk 0x39 0x38 1 2 16 [] with vc := 1 }]), (netKey 64 3 1, [pk 0x39 0x38 2 7 16 (List.replicate 7 0)])], order := [netKey 64 3 1, netKey 3 2 1] }, by decide +kernel⟩,
    ⟨3, 2, 0, pk (64 * 3 + 0x13) 0x38 1 2 16 [], [], rgnF 3 [(F.RGN_STATUS_CFG, 1)] { State.reset with net := [(netKey 3 2 0, [pk (64 * 3 + 0x13) 0x38 1 2 16 []])] }, by decide +kernel⟩,
    ⟨3, 4, 0, 0, true, pk (64 * 0 + 0x13) 0x38 1 2 16 [], [], { State.reset with net := [(netKey 3 4 0, [pk (64 * 0 + 0x13) 0x38 1 2 16 []])] }, by decide +kernel⟩,
    ⟨3, 2, 0, { State.reset with net := [(netKey 3 2 0, [pk 0x38 0x39 1 2 16 []]), (netKey 64 3 0, [pk 0x39 0x38 2 9 16 (List.replicate 9 0)])], trail := [(netKey 64 3 0, [netKey 3 2 0])] }, by decide +kernel⟩,
    ⟨0, 16, 0, pk (64 * 3 + 0x13) 0x38 1 2 16 [], [], { hub [(F.PWR_QSTAT_STATE 0, 0)] with net := [(netKey 64 16 0, [pk (64 * 3 + 0x13) 0x38 1 2 16 []])] }, by decide +kernel⟩,
    ⟨10, 0, pk 0x39 0x38 1 2 16 [], [], { State.reset with net := [(netKey 68 10 0, [pk 0x39 0x38 1 2 16 []])] }, by decide +kernel⟩,
    ⟨3, rgnF 3 [(F.NOC_STATUS_DRAINING, 1)] State.reset |>.onRgn 3 (fun r => r.setReg (R.NOC_OVR_SHADOW 4) 77), by decide +kernel⟩,
    ⟨3, rgnF 3 [(F.NOC_STATUS_DRAINING, 1)] State.reset, by decide +kernel⟩⟩

theorem witness_DieToDieLinks :
    (∃ (q : Quad) (l : LinkNo) (wire : BitVec 9) (s : State), s.d2d q.toNat l.val = 2 ∧ s.rf (quadHome q.toNat) (F.NOC_D2D_STATUS_RX_SPARES l.val) < 16 ∧ s.spareN (3 * q.toNat + l.val) ≤ s.wireCount (3 * q.toNat + l.val) wire.toNat) ∧
    (∃ (q : Quad) (l : LinkNo) (wire : BitVec 9) (s : State), s.d2d q.toNat l.val = 2 ∧ s.rf (quadHome q.toNat) (F.NOC_D2D_STATUS_RX_SPARES l.val) = 16 ∧ s.spareN (3 * q.toNat + l.val) ≤ s.wireCount (3 * q.toNat + l.val) wire.toNat) ∧
    (∃ (q : Quad) (l : LinkNo) (s : State), s.d2d q.toNat l.val = 3) ∧
    (∃ (q : Quad) (l : LinkNo) (s : State), s.d2d q.toNat l.val = 1) ∧
    (∃ (q : Quad) (l : LinkNo) (s : State), s.d2d q.toNat l.val = 1 ∧ s.d2dFailed q.toNat l.val = 2) :=
  ⟨⟨1, 1, 9, { rgnF 16 [(F.NOC_D2D_STATUS_STATE 1, 2), (F.NOC_D2D_CTRL_SPARE_N 1, 2)] State.reset with wires := [(512 * 4 + 9, [0, 0])] }, by decide +kernel⟩,
    ⟨1, 1, 9, { rgnF 16 [(F.NOC_D2D_STATUS_STATE 1, 2), (F.NOC_D2D_CTRL_SPARE_N 1, 2), (F.NOC_D2D_STATUS_RX_SPARES 1, 16)] State.reset with wires := [(512 * 4 + 9, [0, 0])] }, by decide +kernel⟩,
    ⟨1, 1, rgnF 16 [(F.NOC_D2D_STATUS_STATE 1, 3)] State.reset, by decide +kernel⟩,
    ⟨1, 1, rgnF 16 [(F.NOC_D2D_STATUS_STATE 1, 1)] State.reset, by decide +kernel⟩,
    ⟨1, 1, { rgnF 16 [(F.NOC_D2D_STATUS_STATE 1, 1)] State.reset with d2dFails := [(4, 2)] }, by decide +kernel⟩⟩

theorem witness_LinkTraining :
    (∃ (p : PortNo) (s : State), s.link p.val = 1) ∧
    (∃ (p : PortNo) (words : List (Option LaneWord)) (okTx : BitVec 9) (s : State), s.link p.val = 2 ∧ 4 ≤ okCount words ∧ 4 ≤ (bitsOf 9 okTx.toNat).length) ∧
    (∃ (p : PortNo) (words : List (Option LaneWord)) (okTx : BitVec 9) (s : State), s.link p.val = 3 ∧ 4 ≤ okCount words ∧ 4 ≤ (bitsOf 9 okTx.toNat).length) ∧
    (∃ (p : PortNo) (r : Bool) (e : BitVec 12) (d : BitVec 24) (s : State), s.link p.val = 4 ∧ 256 ≤ (s.port p.val).ctrlOut.toNat ∧ 256 ≤ (s.port p.val).ctrlIn.toNat ∧ (s.port p.val).peerSeq = some (r, e) ∧ ((s.port p.val).keep && r) = false ∧ s.f (F.LNK_DELAY_ONEWAY p.val) = d.toNat) ∧
    (∃ (p : PortNo) (e : BitVec 12) (d : BitVec 24) (s : State), s.link p.val = 4 ∧ 256 ≤ (s.port p.val).ctrlOut.toNat ∧ 256 ≤ (s.port p.val).ctrlIn.toNat ∧ (s.port p.val).peerSeq = some (true, e) ∧ (s.port p.val).keep = true ∧ s.f (F.LNK_DELAY_ONEWAY p.val) = d.toNat) ∧
    (∃ (p : PortNo) (s : State), ((s.link p.val = 2 ∨ s.link p.val = 3) ∧ (s.port p.val).fails.toNat < 2)) ∧
    (∃ (p : PortNo) (s : State), ((s.link p.val = 2 ∨ s.link p.val = 3) ∧ (s.port p.val).fails = 2)) ∧
    (∃ (p : PortNo) (s : State), s.f (F.LNK_CTRL_EN p.val) = 1 ∧ s.link p.val ≠ 7) ∧
    (∃ (p : PortNo) (s : State), (s.f (F.LNK_CTRL_EN p.val) = 1 ∧ (s.link p.val = 0 ∨ 3 ≤ s.link p.val) ∧ s.link p.val ≠ 7)) ∧
    (∃ (p : PortNo) (s : State), s.link p.val ≠ 0) :=
  ⟨⟨1, portAt 1 {}, by decide +kernel⟩,
    ⟨1, (List.range 4).map (fun i => some { lane := BitVec.ofNat 4 i, port := 2, uid := 7, ok := true, inverted := false, precode := true }), 0x1FF, portAt 2 {}, by decide +kernel⟩,
    ⟨1, (List.range 4).map (fun i => some { lane := BitVec.ofNat 4 i, port := 2, uid := 7, ok := true, inverted := false, precode := true }), 0x1FF, portAt 3 {} [(F.LNK_CTRL_PRECODE_ALLOW 1, 1)], by decide +kernel⟩,
    ⟨1, true, 3, 9, portAt 4 { exp := 5, seq := 6, ctrlOut := 256, ctrlIn := 256, peerSeq := some (true, 3) } [(F.LNK_DELAY_ONEWAY 1, 9)], by decide +kernel⟩,
    ⟨1, 5, 9, portAt 4 { exp := 5, seq := 6, replay := [mkFrame 2 4 0, mkFrame 2 5 0], keep := true, ctrlOut := 256, ctrlIn := 256, peerSeq := some (true, 5) } [(F.LNK_DELAY_ONEWAY 1, 9)], by decide +kernel⟩,
    ⟨1, portAt 2 { fails := 1 }, by decide +kernel⟩,
    ⟨1, portAt 2 { fails := 2 }, by decide +kernel⟩,
    ⟨1, portAt 5 {}, by decide +kernel⟩,
    ⟨1, portAt 0 {}, by decide +kernel⟩,
    ⟨1, portAt 7 {}, by decide +kernel⟩⟩

theorem witness_FramesAndReplay_1 :
    (∃ (p : PortNo) (f : BitVec 544) (s : State), SoundFrame s p f [] 1 ∧ (s.port p.val).agreed = []) ∧
    (∃ (p : PortNo) (f : BitVec 544) (k : BitVec 10) (s : State), SoundFrame s p f [] 1 ∧ k.toNat < 544) ∧
    (∃ (p : PortNo) (cw : List (BitVec 10)) (s : State), s.link p.val = 5 ∧ (s.port p.val).nakOut = false ∧ 15 < ((cw.filter (fun k => decide (k.toNat < 544))).eraseDups).length) ∧
    (∃ (p : PortNo) (f : BitVec 544) (s : State), SoundFrame s p f [] 2 ∧ frameSeq f = (s.port p.val).exp) :=
  ⟨⟨1, mkFrame 1 0 0, portAt 5 {}, ⟨sound_mkFrame _ _ 1 0 0 (by decide +kernel) (by decide), by decide +kernel⟩⟩,
    ⟨1, mkFrame 1 0 0, 9, portAt 5 {}, ⟨sound_mkFrame _ _ 1 0 0 (by decide +kernel) (by decide), by decide⟩⟩,
    ⟨1, (List.range 16).map (BitVec.ofNat 10), portAt 5 {}, by decide +kernel⟩,
    ⟨1, mkFrame 2 5 0, portAt 5 { exp := 5 }, ⟨sound_mkFrame _ _ 2 5 0 (by decide +kernel) (by decide), by rw [frameSeq_mkFrame]; decide +kernel⟩⟩⟩

theorem witness_FramesAndReplay_2 :
    (∃ (p : PortNo) (f : BitVec 544) (s : State), SoundFrame s p f [] 2 ∧ 2048 ≤ (frameSeq f - (s.port p.val).exp).toNat ∧ (s.port p.val).agreed = []) ∧
    (∃ (p : PortNo) (f : BitVec 544) (s : State), SoundFrame s p f [] 2 ∧ frameSeq f ≠ (s.port p.val).exp ∧ (frameSeq f - (s.port p.val).exp).toNat < 2048 ∧ (s.port p.val).nakOut = false) ∧
    (∃ (p : PortNo) (f : BitVec 544) (w : Word) (s : State), SoundFrame s p f [] 2 ∧ frameSeq f = (s.port p.val).exp ∧ (f.getLsbD 93 = true ∧ f.getLsbD 94 = false ∧ ∀ i : Fin 5, f.getLsbD (173 + 80 * i.val) = false) ∧ w = SMap.get 0 (s.port p.val).map (bitsAt f 81 12 : BitVec 12).toNat ∧ w.getLsbD 16 = true ∧ ((bitsAt w 0 4 : BitVec 4).toNat < 4 ∨ (8 ≤ (bitsAt w 0 4 : BitVec 4).toNat ∧ (bitsAt w 0 4 : BitVec 4).toNat < 14 ∧ (bitsAt w 0 4 : BitVec 4).toNat ≠ 8 + p.val))) ∧
    (∃ (p : PortNo) (f : BitVec 544) (v : Fin 4) (h : Packet) (s : State), SoundFrame s p f [] (8 + v.val) ∧ frameSeq f = (s.port p.val).exp ∧ h = { headerOf (bitsAt f 16 128) [] 0 with vc := BitVec.ofNat 2 v.val } ∧ h.cmd = 1 ∧ (bitsAt f 144 128 : BitVec 128) = 0 ∧ SMap.get none (s.port p.val).rxPkt v.val = none ∧ s.role p.val ≠ 2 ∧ nodeCoord h.dest = s.f F.FAB_ID_COORD ∧ s.refusing.getLsbD 4 = false) :=
  ⟨⟨1, mkFrame 2 4 0, portAt 5 { exp := 5 }, ⟨sound_mkFrame _ _ 2 4 0 (by decide +kernel) (by decide), by rw [frameSeq_mkFrame]; decide +kernel, by decide +kernel⟩⟩,
    ⟨1, mkFrame 2 7 0, portAt 5 { exp := 5 }, ⟨sound_mkFrame _ _ 2 7 0 (by decide +kernel) (by decide), by rw [frameSeq_mkFrame]; decide +kernel⟩⟩,
    ⟨1, mkFrame 2 5 (BitVec.ofNat 512 (77 + 2 ^ 64 + 2 ^ 65 * 9 + 2 ^ 77)), 0x14E53, portAt 5 { exp := 5, map := [(9, 0x14E53)] }, ⟨sound_mkFrame _ _ 2 5 (BitVec.ofNat 512 (77 + 2 ^ 64 + 2 ^ 65 * 9 + 2 ^ 77)) (by decide +kernel) (by decide), by rw [frameSeq_mkFrame]; decide +kernel, ⟨by rw [mkFrame_low _ _ _ _ (by omega)]; decide +kernel, by rw [mkFrame_low _ _ _ _ (by omega)]; decide +kernel, by intro i; rw [mkFrame_low _ _ _ _ (by omega)]; revert i; decide +kernel⟩, by rw [bitsAt_mkFrame _ _ _ _ _ (by omega)]; decide +kernel, by decide, by decide⟩⟩,
    ⟨1, mkFrame 10 5 ((pk 0x39 0x1000 1 2 16 []).header.zeroExtend 512), 2, { pk 0x39 0x1000 1 2 16 [] with vc := 2 }, portAt 5 { exp := 5 }, ⟨sound_mkFrame _ _ 10 5 _ (by decide +kernel) (by decide), by rw [frameSeq_mkFrame]; decide +kernel, by rw [bitsAt_mkFrame _ _ _ _ _ (by omega)]; decide +kernel, by decide, by rw [bitsAt_mkFrame _ _ _ _ _ (by omega)]; decide +kernel, by decide +kernel⟩⟩⟩

theorem witness_FramesAndReplay_3 :
    (∃ (p : PortNo) (f : BitVec 544) (v : Fin 4) (r : RxPacket) (s : State), SoundFrame s p f [] (12 + v.val) ∧ frameSeq f = (s.port p.val).exp ∧ SMap.get none (s.port p.val).rxPkt v.val = some r ∧ 2 ≤ r.left) ∧
    (∃ (p : PortNo) (f : BitVec 544) (s : State), SoundFrame s p f [] 4 ∧ f.getLsbD 28 = false ∧ f.getLsbD 29 = false ∧ (bitsAt f 224 4 : BitVec 4) = 0) ∧
    (∃ (p : PortNo) (f : BitVec 544) (since : Word) (t1 : Word) (s : State), SoundFrame s p f [] 4 ∧ t1 = bitsAt f 160 32 ∧ t1 ∈ (s.port p.val).sentTs ∧ (s.port p.val).samples = [] ∧ (s.timer since - t1 - bitsAt f 192 32 : Word).toNat < 2 ^ 25) ∧
    (∃ (p : PortNo) (s : State), s.link p.val = 5 ∧ readyFrame s p.val = .idle ∧ (s.port p.val).agreed = []) :=
  ⟨⟨1, mkFrame 14 5 0, 2, ⟨pk 0x39 0x1000 2 2 16 [], 2⟩, portAt 5 { exp := 5, rxPkt := [(2, some ⟨pk 0x39 0x1000 2 2 16 [], 2⟩)] }, ⟨sound_mkFrame _ _ 14 5 0 (by decide +kernel) (by decide), by rw [frameSeq_mkFrame]; decide +kernel, by decide +kernel⟩⟩,
    ⟨1, mkFrame 4 0 (2 ^ 16 * 9), portAt 5 { exp := 5 }, ⟨sound_mkFrame _ _ 4 0 _ (by decide +kernel) (by decide), by rw [mkFrame_low _ _ _ _ (by omega)]; decide +kernel, by rw [mkFrame_low _ _ _ _ (by omega)]; decide +kernel, by rw [bitsAt_mkFrame _ _ _ _ _ (by omega)]; decide +kernel⟩⟩,
    ⟨1, mkFrame 4 0 (2 ^ 144 * 2 + 2 ^ 176 * 3), 256 * 25, 2, portAt 5 { sentTs := [1, 2, 3] }, ⟨sound_mkFrame _ _ 4 0 _ (by decide +kernel) (by decide), by rw [bitsAt_mkFrame _ _ _ _ _ (by omega)]; decide +kernel, by decide, by decide, by rw [bitsAt_mkFrame _ _ _ _ _ (by omega)]; decide +kernel⟩⟩,
    ⟨1, portAt 5 {}, by decide +kernel⟩⟩

theorem witness_FramesAndReplay_4 :
    (∃ (p : PortNo) (s : State), s.link p.val = 5 ∧ readyFrame s p.val = .replay) ∧
    (∃ (p : PortNo) (v : Fin 4) (s : State), s.link p.val = 5 ∧ readyFrame s p.val = .pkt v.val) ∧
    (∃ (p : PortNo) (s : State), s.link p.val = 5 ∧ readyFrame s p.val = .ctrl) ∧
    (∃ (p : PortNo) (s : State), s.link p.val = 5 ∧ readyFrame s p.val = .tick) :=
  ⟨⟨1, portAt 5 { replay := [mkFrame 2 0 0], readAt := 0, seq := 1 }, by decide +kernel⟩,
    ⟨1, 0, portAt 5 { txPkt := [(0, [{ packet := pk 0x1039 0x38 1 2 16 [] }])] }, by decide +kernel⟩,
    ⟨1, portAt 5 { nakDue := true }, by decide +kernel⟩,
    ⟨1, portAt 5 { tick := true }, by decide +kernel⟩⟩

theorem witness_FramesAndReplay_5 :
    (∃ (p : PortNo) (s : State), s.link p.val = 5 ∧ (s.port p.val).replay ≠ [] ∧ (s.port p.val).tries.toNat < s.f (F.LNK_CTRL_REPLAY_LIMIT p.val)) ∧
    (∃ (p : PortNo) (s : State), s.link p.val = 5 ∧ (s.port p.val).replay ≠ [] ∧ max 1 (s.f (F.LNK_CTRL_REPLAY_LIMIT p.val)) ≤ (s.port p.val).tries.toNat ∧ s.f (F.LNK_CTRL_EN p.val) = 1) ∧
    (∃ (p : PortNo) (s : State), (s.f F.MER_CTRL_RELAY_EN).testBit p.val = true ∧ s.link p.val = 5 ∧ s.mer.tick.toNat % s.tickInterval p.val = 0) :=
  ⟨⟨1, portAt 5 { replay := [mkFrame 2 0 0], readAt := 1, seq := 1 } [(F.LNK_CTRL_REPLAY_LIMIT 1, 3)], by decide +kernel⟩,
    ⟨1, portAt 5 { replay := [mkFrame 2 0 0], readAt := 1, seq := 1, tries := 9 } [(F.LNK_CTRL_REPLAY_LIMIT 1, 3)], by decide +kernel⟩,
    ⟨1, portAt 5 {} [(F.MER_CTRL_RELAY_EN, 2)], by decide +kernel⟩⟩

theorem witness_LanesAndSlotTables :
    (∃ (p : PortNo) (l : Fin 9) (s : State), s.link p.val = 5 ∧ s.f (F.LNK_LANE_OK p.val l.val) = 1 ∧ 8 ≤ s.f (F.LNK_LANE_ROLE p.val l.val)) ∧
    (∃ (p : PortNo) (l : Fin 9) (s : State), s.link p.val = 5 ∧ s.f (F.LNK_LANE_OK p.val l.val) = 1 ∧ s.f (F.LNK_LANE_ROLE p.val l.val) < 8 ∧ s.f (F.LNK_STATUS_RX_NARROW p.val) = 1) ∧
    (∃ (p : PortNo) (l : Fin 9) (s : State), s.link p.val = 5 ∧ s.f (F.LNK_LANE_OK p.val l.val) = 1 ∧ s.f (F.LNK_LANE_ROLE p.val l.val) < 8 ∧ s.f (F.LNK_STATUS_RX_NARROW p.val) = 0 ∧ (s.port p.val).laneBusy = false) ∧
    (∃ (p : PortNo) (l : Fin 9) (s : State), s.link p.val = 5 ∧ s.f (F.LNK_LANE_OK p.val l.val) = 1 ∧ s.f (F.LNK_LANE_ROLE p.val l.val) < 8 ∧ s.f (F.LNK_STATUS_RX_NARROW p.val) = 0 ∧ (s.port p.val).laneBusy = true ∧ BitVec.ofNat 4 l.val ∉ (s.port p.val).faulty ∧ ((∀ o ∈ (s.port p.val).agreed, o.rx = true → o.lane ≠ BitVec.ofNat 4 l.val) ∧ ∀ o, (s.port p.val).propose = some o → o.lane ≠ BitVec.ofNat 4 l.val)) ∧
    (∃ (p : PortNo) (o : LaneOp) (s : State), (s.port p.val).dueOp = some o ∧ (s.port p.val).faulty = [] ∧ o.rx = true ∧ o.op = 1 ∧ o.lane.toNat < 9 ∧ s.f (F.LNK_LANE_ROLE p.val o.lane.toNat) ≠ 8) ∧
    (∃ (p : PortNo) (o : LaneOp) (s : State), (s.port p.val).dueOp = some o ∧ (s.port p.val).faulty = [] ∧ o.rx = true ∧ o.op = 2 ∧ o.lane.toNat < 9) ∧
    (∃ (p : PortNo) (o : LaneOp) (s : State), (s.port p.val).agreed = [o] ∧ o.rx = false ∧ o.op = 2 ∧ o.at_ ≤ (s.port p.val).cw) ∧
    (∃ (p : PortNo) (o : LaneOp) (s : State), (s.port p.val).agreed = [o] ∧ (if o.rx = true then (s.port p.val).rxCw else (s.port p.val).cw) < o.at_ ∧ (s.port p.val).faulty = []) ∧
    (∃ (p : PortNo) (s : State), slotBusy s p.val = false) ∧
    (∃ (p : PortNo) (s : State), slotBusy s p.val = true) :=
  ⟨⟨1, 8, portAt 5 {} [(F.LNK_LANE_OK 1 8, 1), (F.LNK_LANE_ROLE 1 8, 8)], by decide +kernel⟩,
    ⟨1, 2, portAt 5 {} [(F.LNK_LANE_OK 1 2, 1), (F.LNK_LANE_ROLE 1 2, 2), (F.LNK_STATUS_RX_NARROW 1, 1)], by decide +kernel⟩,
    ⟨1, 2, portAt 5 {} [(F.LNK_LANE_OK 1 2, 1), (F.LNK_LANE_ROLE 1 2, 2), (F.LNK_STATUS_RX_NARROW 1, 0)], by decide +kernel⟩,
    ⟨1, 2, portAt 5 { propose := some { op := 1, lane := 3, at_ := 5, rx := true } } [(F.LNK_LANE_OK 1 2, 1), (F.LNK_LANE_ROLE 1 2, 2), (F.LNK_STATUS_RX_NARROW 1, 0)], ⟨by decide +kernel, by decide +kernel, by decide +kernel, by decide +kernel, by decide +kernel, by decide +kernel, by decide +kernel, fun o h => by cases h; decide⟩⟩,
    ⟨1, { op := 1, lane := 2, at_ := 5, rx := true }, portAt 5 { agreed := [{ op := 1, lane := 3, at_ := 9, rx := true }, { op := 1, lane := 2, at_ := 5, rx := true }], rxCw := 7 } [(F.LNK_LANE_ROLE 1 2, 2), (F.LNK_LANE_ROLE 1 8, 8)], by decide +kernel⟩,
    ⟨1, { op := 2, lane := 2, at_ := 5, rx := true }, portAt 5 { agreed := [{ op := 2, lane := 2, at_ := 5, rx := true }], rxCw := 5 } [(F.LNK_LANE_ROLE 1 2, 2)], by decide +kernel⟩,
    ⟨1, { op := 2, lane := 2, at_ := 5, rx := false }, portAt 5 { agreed := [{ op := 2, lane := 2, at_ := 5, rx := false }], cw := 7 }, by decide +kernel⟩,
    ⟨1, { op := 2, lane := 2, at_ := 5, rx := false }, portAt 5 { agreed := [{ op := 2, lane := 2, at_ := 5, rx := false }], cw := 4 }, by decide +kernel⟩,
    ⟨1, (portAt 5 { map := [(1, 5)], shadow := [(2, 6)] }).setReg (R.LNK_PLAN_SH_LO 1) 9, by decide +kernel⟩,
    ⟨1, portAt 5 { txSched := [{ data := 1, tag := 0 }] }, by decide +kernel⟩⟩

theorem witness_FabricSweep :
    (∃ (p : PortNo) (s : State), s.link p.val = 5) ∧
    (∃ (p : PortNo) (m : Packet) (s : State), s.link p.val = 5 ∧ discSound m = false) ∧
    (∃ (p : PortNo) (m : Packet) (s : State), s.link p.val = 5 ∧ discSound m = true) ∧
    (∃ (s : State), s.f F.FAB_CTRL_NOMINATE = 0 ∧ s.f F.FAB_STATUS_STRAP = 0) ∧
    (∃ (s : State), s.f F.FAB_CTRL_NOMINATE = 1) ∧
    (∃ (s : State), s.f F.FAB_STATUS_SWEEP = 0 ∧ s.f F.FAB_STATUS_COORD_VALID = 1 ∧ s.fab.known = 7 ∧ s.f F.FAB_STATUS_CONFLICT = 0) ∧
    (∃ (s : State), s.f F.FAB_STATUS_LODESTAR = 0) ∧
    (∃ (s : State), s.f F.FAB_STATUS_LODESTAR = 1) ∧
    (∃ (p : Packet) (port : PortNo) (s : State), s.link port.val = 5 ∧ s.fab.lclass ≠ 0 ∧ bitsAt (p.data.getD 0 0) 0 64 = s.luid ∧ controlPort s port.val = true ∧ p.poison = 0 ∧ s.fab.resetDue = false) ∧
    (∃ (p : Packet) (port : PortNo) (s : State), s.link port.val = 5 ∧ bitsAt (p.data.getD 0 0) 0 64 ≠ s.luid) ∧
    (∃ (p : Packet) (port : PortNo) (j : Job) (s : State), s.link port.val = 5 ∧ s.f F.FAB_STATUS_SWEEP = 1 ∧ controlPort s port.val = true ∧ nodeCoord p.src = 0 ∧ p.poison = 0 ∧ ((bitsAt (p.data.getD 0 0) 0 55 : BitVec 55).zeroExtend 128 : BitVec 128) ∉ s.fab.starts ∧ (p.data.getD 0 0).getLsbD 54 = false ∧ bitsAt (p.data.getD 0 0) 48 6 = j ∧ StartInTime s j (bitsAt (p.data.getD 0 0) 0 48)) ∧
    (∃ (p : Packet) (port : PortNo) (s : State), s.link port.val = 5 ∧ s.f F.FAB_STATUS_SWEEP = 1 ∧ controlPort s port.val = true ∧ nodeCoord p.src = 0 ∧ p.poison = 0 ∧ ((bitsAt (p.data.getD 0 0) 0 55 : BitVec 55).zeroExtend 128 : BitVec 128) ∈ s.fab.starts) ∧
    (∃ (v : Word) (j : Job) (s : State), v.getLsbD 9 = true ∧ v.getLsbD 8 = true ∧ v.getLsbD 7 = false ∧ v.getLsbD 6 = false ∧ bitsAt v 0 6 = j ∧ StartInTime s j (s.get48 R.CFG_START_TICK_LO R.CFG_START_TICK_HI)) :=
  ⟨⟨1, portAt 5 {}, by decide +kernel⟩,
    ⟨1, pk 0 0 0x21 1 0 [5], came (pk 0 0 0x21 1 0 [5]) (portAt 5 {}), by decide +kernel⟩,
    ⟨1, pk 0 0 0x21 3 0 [5, 0, 0], came (pk 0 0 0x21 3 0 [5, 0, 0]) (portAt 5 {}), by decide +kernel⟩,
    ⟨hub [(F.FAB_STATUS_COORD_VALID, 1), (F.FAB_ID_COORD, 7)], by decide +kernel⟩,
    ⟨hub [(F.FAB_CTRL_NOMINATE, 1), (F.FAB_ID_COORD, 7)], by decide +kernel⟩,
    ⟨{ hub [(F.FAB_STATUS_SWEEP, 0), (F.FAB_STATUS_COORD_VALID, 1), (F.FAB_CTRL_AUTO_MER, 0)] with fab := { known := 7 } }, by decide +kernel⟩,
    ⟨State.reset, by decide +kernel⟩,
    ⟨hub [(F.FAB_STATUS_LODESTAR, 1)], by decide +kernel⟩,
    ⟨pk 0 0 0x23 1 0 [9], 1, { portAt 5 {} [(F.FAB_NBR_ROLE 1, 1)] with fab := { lclass := 1 } }.setReg R.FAB_LUID_LO 9, by decide +kernel⟩,
    ⟨pk 0 0 0x23 1 0 [8], 1, { portAt 5 {} [(F.FAB_NBR_ROLE 1, 1)] with fab := { lclass := 1 } }.setReg R.FAB_LUID_LO 9, by decide +kernel⟩,
    ⟨pk 0 0 0x22 1 0 [BitVec.ofNat 128 (500 + 2 ^ 48 * 9)], 1, 9, rgnF 3 [(F.RGN_STATUS_IN_JOB, 1), (F.RGN_STATUS_JOB, 9), (F.FIX_STATUS_STATE, 1)] (portAt 5 {} [(F.FAB_NBR_ROLE 1, 1), (F.FAB_STATUS_SWEEP, 1), (F.CFG_STATUS_STATE, 4), (F.MER_STATUS_STATE, 3), (F.MER_FIX_TICKS_TICKS 9, 20)]), by decide +kernel⟩,
    ⟨pk 0 0 0x22 1 0 [500], 1, { portAt 5 {} [(F.FAB_NBR_ROLE 1, 1), (F.FAB_STATUS_SWEEP, 1)] with fab := { starts := [500] } }, by decide +kernel⟩,
    ⟨0x309, 9, (rgnF 3 [(F.RGN_STATUS_IN_JOB, 1), (F.RGN_STATUS_JOB, 9), (F.FIX_STATUS_STATE, 1)] (hub [(F.CFG_STATUS_STATE, 4), (F.MER_STATUS_STATE, 3), (F.MER_FIX_TICKS_TICKS 9, 20)])).setReg R.CFG_START_TICK_LO 500, by decide +kernel⟩⟩

theorem witness_CommonCommandCodes :
    (∃ (s : State), s.i3cHears = true) ∧
    (∃ (s : State), s.i3cHears = true) ∧
    (∃ (s : State), s.i3cHears = true) ∧
    (∃ (s : State), s.i3cHears = true ∧ s.f F.HIF_STATUS_DA_VALID = 0) ∧
    (∃ (s : State), s.i3cHears = true ∧ s.f F.HIF_STATUS_DA_VALID = 0) ∧
    (∃ (s : State), s.i3cDirect = true) ∧
    (∃ (s : State), s.i3cHears = true) ∧
    (∃ (s : State), s.i3cHears = true) ∧
    (∃ (s : State), s.i3cHears = true ∧ s.f F.HIF_CTRL_HDR_EN = 1) ∧
    (∃ (s : State), s.i3cHears = true ∧ s.f F.HIF_CTRL_HDR_EN = 0) ∧
    (∃ (s : State), s.i3cHears = true) ∧
    (∃ (s : State), s.i3cHears = true ∧ s.packageResetting = false) :=
  ⟨⟨i3cUpS [(F.HIF_STATUS_INT_EN, 0)], by decide +kernel⟩,
    ⟨i3cUpS [], by decide +kernel⟩,
    ⟨i3cUpS [], by decide +kernel⟩,
    ⟨i3cUpS [(F.HIF_STATUS_DA_VALID, 0)], by decide +kernel⟩,
    ⟨i3cUpS [(F.HIF_STATUS_DA_VALID, 0)], by decide +kernel⟩,
    ⟨i3cUpS [], by decide +kernel⟩,
    ⟨i3cUpS [], by decide +kernel⟩,
    ⟨i3cUpS [], by decide +kernel⟩,
    ⟨i3cUpS [(F.HIF_CTRL_HDR_EN, 1)], by decide +kernel⟩,
    ⟨i3cUpS [(F.HIF_CTRL_HDR_EN, 0)], by decide +kernel⟩,
    ⟨i3cUpS [(F.HIF_ACC_STAT_RESULT, 2)], by decide +kernel⟩,
    ⟨i3cUpS [], by decide +kernel⟩⟩

theorem witness_GetCommandCodes :
    (∃ (s : State), s.i3cDirect = true) ∧
    (∃ (s : State), s.i3cDirect = true) ∧
    (∃ (s : State), s.i3cDirect = true) ∧
    (∃ (s : State), s.i3cDirect = true) ∧
    (∃ (s : State), s.i3cDirect = true) ∧
    (∃ (s : State), s.i3cDirect = true) ∧
    (∃ (s : State), s.i3cDirect = true) :=
  ⟨⟨i3cUpS [], by decide +kernel⟩,
    ⟨i3cUpS [], by decide +kernel⟩,
    ⟨i3cUpS [], by decide +kernel⟩,
    ⟨i3cUpS [], by decide +kernel⟩,
    ⟨i3cUpS [], by decide +kernel⟩,
    ⟨i3cUpS [], by decide +kernel⟩,
    ⟨{ i3cUpS [(F.HIF_ACC_STAT_RESULT, 2)] with i3c := { protoErr := true } }, by decide +kernel⟩⟩

theorem witness_PrivateTransfersAndInterrupts :
    (∃ (s : State), s.i3cPrivate = true ∧ s.i3cBusy = false) ∧
    (∃ (a : Word) (s : State), s.i3cPrivate = true ∧ s.bus = [] ∧ 9 ≤ s.i3c.mwl.toNat ∧ a.toNat ∈ [R.SEM_CTRL, R.PWR_TOL, R.FLT_ISB]) ∧
    (∃ (a : Word) (s : State), s.i3cPrivate = true ∧ s.bus = [] ∧ 9 ≤ s.i3c.mwl.toNat ∧ a.toNat ∈ [R.SEM_CTRL, R.PWR_TOL, R.FLT_ISB]) ∧
    (∃ (a : Word) (s : State), s.i3cPrivate = true ∧ s.bus = [] ∧ 13 ≤ s.i3c.mwl.toNat ∧ a.toNat ∈ [R.SEM_CTRL, R.PWR_TOL, R.FLT_ISB]) ∧
    (∃ (a : Word) (s : State), s.i3cPrivate = true ∧ s.bus = [] ∧ 5 ≤ s.i3c.mwl.toNat ∧ 4 ≤ s.i3c.mrl.toNat ∧ a.toNat ∈ [R.SEM_CTRL, R.PWR_TOL, R.FLT_ISB]) ∧
    (∃ (a : Word) (s : State), s.i3cPrivate = true ∧ s.bus = [] ∧ 5 ≤ s.i3c.mwl.toNat ∧ 4 ≤ s.i3c.mrl.toNat ∧ a.toNat ∈ [R.SEM_CTRL, R.PWR_TOL, R.FLT_ISB]) ∧
    (∃ (bytes : List (BitVec 8)) (s : State), s.i3cPrivate = true ∧ s.i3cBusy = false ∧ (opOf bytes = 1 ∧ (s.i3c.mwl.toNat < bytes.length ∨ bytes.length ≠ 5 + 4 * wordsIn bytes ∨ (wordAt bytes 1).toNat % 4 ≠ 0))) ∧
    (∃ (bytes : List (BitVec 8)) (s : State), s.i3cPrivate = true ∧ s.i3cBusy = false ∧ 5 ≤ opOf bytes ∧ bytes ≠ []) ∧
    (∃ (s : State), s.i3cHears = true ∧ s.i3c.joinDue = true ∧ s.f F.HIF_STATUS_DA_VALID = 0 ∧ s.f F.HIF_CTRL_HJ_EN = 1 ∧ s.f F.HIF_STATUS_HJ_ENC = 1) ∧
    (∃ (k : Fin 32) (s : State), s.i3cDirect = true ∧ s.f F.HIF_STATUS_INT_EN = 1 ∧ s.i3c.ibiDue.getLsbD k.val = true ∧ (∀ j : Fin 32, j < k → s.i3c.ibiDue.getLsbD j.val = false)) :=
  ⟨⟨i3cUpS [(F.HIF_ACC_STAT_RESULT, 2), (F.HIF_ACC_STAT_INDEX, 3)], by decide +kernel⟩,
    ⟨BitVec.ofNat 32 R.FLT_ISB, i3cUpS [], by decide +kernel⟩,
    ⟨BitVec.ofNat 32 R.FLT_ISB, i3cUpS [], by decide +kernel⟩,
    ⟨BitVec.ofNat 32 R.FLT_ISB, i3cUpS [], by decide +kernel⟩,
    ⟨BitVec.ofNat 32 R.FLT_ISB, i3cUpS [], by decide +kernel⟩,
    ⟨BitVec.ofNat 32 R.FLT_ISB, i3cUpS [], by decide +kernel⟩,
    ⟨[0x20, 0], i3cUpS [], by decide +kernel⟩,
    ⟨[0xA0, 0], i3cUpS [], by decide +kernel⟩,
    ⟨{ i3cUpS [(F.HIF_STATUS_DA_VALID, 0), (F.HIF_CTRL_HJ_EN, 1), (F.HIF_STATUS_HJ_ENC, 1)] with i3c := { joinDue := true } }, by decide +kernel⟩,
    ⟨5, { i3cUpS [(F.HIF_STATUS_INT_EN, 1), (F.HIF_IBI_INFO_LOC 5, 7)] with i3c := { ibiDue := 0x60 } }, by decide +kernel⟩⟩

theorem witness_SemaphoreRelease :
    (∃ (n : SemNo) (who : Requester) (s : State), s.reg (R.SEM_HOLDER n.toNat) = holderOf who) ∧
    (∃ (n : SemNo) (who : Requester) (s : State), s.reg (R.SEM_HOLDER n.toNat) ≠ holderOf who) :=
  ⟨⟨4, .helm, State.reset.setReg (R.SEM_HOLDER 4) (holderOf .helm), by decide +kernel⟩,
    ⟨4, .i3c, State.reset, by decide +kernel⟩⟩

theorem witness_GpioPins :
    (∃ (w : Writer) (s : State), (∀ i : PinNo, s.ownsPin w i.val = true)) ∧
    (∃ (i : PinNo) (s : State), s.gpio.parked.getLsbD i.val = true ∧ s.gpio.held = false ∧ s.dbg.testing = none) ∧
    (∃ (n : Fin 6) (e : PinEdge) (s : State), modeTakes (s.f (F.GPIO_INT_MODE n.val)) e = true ∧ s.f (F.GPIO_INT_MODE n.val) < 4 ∧ s.f (F.GPIO_INT_TARGET n.val) = 0) ∧
    (∃ (n : Fin 6) (e : PinEdge) (c : BitVec 4) (s : State), modeTakes (s.f (F.GPIO_INT_MODE n.val)) e = true ∧ s.f (F.GPIO_INT_TARGET n.val) = 1 ∧ s.f (F.GPIO_INT_CORE n.val) = 0 ∧ 64 ≤ (s.eas 0 0).mbin.length ∧ c = SMap.get 0 s.gpio.lines n.val ∧ c.toNat < 15) ∧
    (∃ (k : Bool) (s : State), s.pwr.boot = .up ∧ s.f (F.GPIO_WAKE_EN k.toNat) = 1 ∧ s.f (F.GPIO_WAKE_SEL k.toNat) < 12) :=
  ⟨⟨.i3c, hub ((List.range 12).map (fun i => (F.GPIO_PIN_OWNER i, 1))), by decide +kernel⟩,
    ⟨6, { hub [(⟨R.GPIO_FUNC, 0, 8⟩, 0x10)] with gpio := { held := false } }, by decide +kernel⟩,
    ⟨4, .falling, hub [(F.GPIO_INT_MODE 4, 2), (F.GPIO_INT_TARGET 4, 0)], by decide +kernel⟩,
    ⟨4, .high, 2, { hub [(F.GPIO_INT_MODE 4, 4), (F.GPIO_INT_TARGET 4, 1)] with gpio := { lines := [(4, 2)] } }.onEas 0 0 (fun x => { x with mbin := List.replicate 64 ⟨0, true, false⟩ }), by decide +kernel⟩,
    ⟨true, { hub [(F.GPIO_WAKE_EN 1, 1), (F.GPIO_WAKE_SEL 1, 3)] with pwr := { boot := .up } }, by decide +kernel⟩⟩

theorem witness_GpioPeripherals :
    (∃ (w : Writer) (s : State), s.ownsPin w 0 = true ∧ s.gpio.uartTx.length < 16) ∧
    (∃ (w : Writer) (s : State), s.ownsPin w 0 = true ∧ 16 ≤ s.gpio.uartTx.length) ∧
    (∃ (b : BitVec 8) (rest : List (BitVec 8)) (s : State), s.gpio.uartRx = b :: rest) ∧
    (∃ (s : State), s.uartHears = true ∧ s.gpio.uartRx.length < 16) ∧
    (∃ (s : State), s.uartHears = true ∧ 16 ≤ s.gpio.uartRx.length) ∧
    (∃ (b : BitVec 8) (rest : List (BitVec 8)) (s : State), s.gpio.uartTx = b :: rest ∧ s.f F.GPIO_FUNC_UART_EN = 1 ∧ s.gpioRuns = true) ∧
    (∃ (w : Writer) (s : State), s.ownsPin w 2 = true ∧ s.f F.GPIO_SPI_DATA_BUSY = 0) ∧
    (∃ (w : Writer) (s : State), s.ownsPin w 2 = true ∧ s.f F.GPIO_SPI_DATA_BUSY = 1) ∧
    (∃ (b : BitVec 8) (s : State), s.gpio.spi = some b ∧ s.gpioRuns = true ∧ s.f F.GPIO_FUNC_SPI_EN = 1 ∧ s.gpio.parked.getLsbD 4 = false) ∧
    (∃ (s : State), pinFunction (s.f ⟨R.GPIO_FUNC, 0, 8⟩) 9 = 4 ∧ s.gpio.parked.getLsbD 9 = false) ∧
    (∃ (s : State), pinFunction (s.f ⟨R.GPIO_FUNC, 0, 8⟩) 7 = 3 ∧ s.gpio.parked.getLsbD 7 = false) ∧
    (∃ (s : State), s.f F.GPIO_FUNC_CAP_SEL = 0 ∧ pinFunction (s.f ⟨R.GPIO_FUNC, 0, 8⟩) 10 = 5 ∧ s.gpio.parked.getLsbD 10 = false ∧ s.gpioRuns = true ∧ s.f F.GPIO_CAP_CFG_EDGE = 2) :=
  ⟨⟨.i3c, hub [(F.GPIO_PIN_OWNER 0, 1)], by decide +kernel⟩,
    ⟨.i3c, { hub [(F.GPIO_PIN_OWNER 0, 1)] with gpio := { uartTx := List.replicate 16 0 } }, by decide +kernel⟩,
    ⟨7, [8], { State.reset with gpio := { uartRx := [7, 8] } }, by decide +kernel⟩,
    ⟨{ hub [(F.GPIO_FUNC_UART_EN, 1)] with gpio := { parked := 0 } }, by decide +kernel⟩,
    ⟨{ hub [(F.GPIO_FUNC_UART_EN, 1)] with gpio := { parked := 0, uartRx := List.replicate 16 0 } }, by decide +kernel⟩,
    ⟨7, [8], { hub [(F.GPIO_FUNC_UART_EN, 1)] with gpio := { uartTx := [7, 8] } }, by decide +kernel⟩,
    ⟨.i3c, hub [(F.GPIO_PIN_OWNER 2, 1)], by decide +kernel⟩,
    ⟨.i3c, hub [(F.GPIO_PIN_OWNER 2, 1), (F.GPIO_SPI_DATA_BUSY, 1)], by decide +kernel⟩,
    ⟨7, { hub [(F.GPIO_FUNC_SPI_EN, 1), (F.GPIO_SPI_DATA_BUSY, 1)] with gpio := { parked := 0, spi := some 7 } }, by decide +kernel⟩,
    ⟨{ hub [(⟨R.GPIO_FUNC, 0, 8⟩, 0x20)] with gpio := { parked := 0 } }, by decide +kernel⟩,
    ⟨{ hub [(⟨R.GPIO_FUNC, 0, 8⟩, 0x10)] with gpio := { parked := 0 } }, by decide +kernel⟩,
    ⟨{ hub [(⟨R.GPIO_FUNC, 0, 8⟩, 0x40), (F.GPIO_CAP_CFG_EDGE, 2)] with gpio := { parked := 0 }, mer := { tick := 77 } }, by decide +kernel⟩⟩

theorem witness_DebugPort :
    (∃ (s : State), s.portUp = true) ∧
    (∃ (hdr : BitVec 8) (s : State), s.portUp = true ∧ s.dbg.ignoring = false ∧ hdr.getLsbD 0 = false ∧ (s.dbg.synced = false ∨ headerOk hdr = false)) ∧
    (∃ (s : State), PortIdle s ∧ s.dbg.ignoring = false ∧ s.dbg.synced = true) ∧
    (∃ (hdr : BitVec 8) (s : State), PortIdle s ∧ s.dbg.ignoring = false ∧ s.dbg.synced = true ∧ s.attached = false ∧ headerOk hdr = true ∧ 3 ≤ hdr.toNat / 2 % 16 ∧ s.f F.DBG_STATUS_ERR = 0) ∧
    (∃ (hdr : BitVec 8) (s : State), PortOpen s ∧ s.dbg.ignoring = false ∧ s.dbg.synced = true ∧ headerOk hdr = true ∧ hdr.getLsbD 5 = false) ∧
    (∃ (s : State), PortIdle s) ∧
    (∃ (s : State), (PortIdle s ∧ s.attached = true ∧ s.pwr.kept = 0 ∧ (∀ n : Fin 32, s.f (F.SEM_HOLDER_KIND n.val) ≠ 4))) ∧
    (∃ (s : State), (s.attached = true ∧ s.f F.DBG_SESSION_IDLE_TO ≠ 0 ∧ s.pwr.kept = 0 ∧ (∀ n : Fin 32, s.f (F.SEM_HOLDER_KIND n.val) ≠ 4))) ∧
    (∃ (s : State), s.f F.DBG_SESSION_IDLE_TO = 0) ∧
    (∃ (s : State), PortOpen s ∧ s.bus = [] ∧ (s.reg R.DBG_REQ).toNat % 8 = 0 ∧ (s.reg R.DBG_ADDR_LO).toNat ∈ [R.SEM_CTRL, R.PWR_TOL, R.FLT_ISB]) ∧
    (∃ (s : State), PortOpen s ∧ s.bus = [] ∧ s.dbg.held = none ∧ (s.reg R.DBG_REQ).toNat % 8 = 0 ∧ (s.reg R.DBG_ADDR_LO).toNat ∈ [R.SEM_CTRL, R.PWR_TOL, R.FLT_ISB]) ∧
    (∃ (v : Entry) (s : State), PortOpen s ∧ s.dbg.held = some v ∧ (s.reg R.DBG_REQ).toNat % 8 = 0) ∧
    (∃ (s : State), PortIdle s ∧ s.attached = true ∧ s.f F.DBG_STATUS_ERR ≠ 0) ∧
    (∃ (s : State), PortIdle s) :=
  ⟨⟨{ State.reset with pwr := { boot := .up }, dbg := { ignoring := true } }, by decide +kernel⟩,
    ⟨0xC0, { State.reset with pwr := { boot := .up } }, by decide +kernel⟩,
    ⟨{ State.reset with pwr := { boot := .up }, dbg := { synced := true } }, by decide +kernel⟩,
    ⟨0xA6, { State.reset with pwr := { boot := .up }, dbg := { synced := true } }, by decide +kernel⟩,
    ⟨0x8E, { hub [(F.DBG_SESSION_ATTACH, 1)] with pwr := { boot := .up }, dbg := { synced := true } }, by decide +kernel⟩,
    ⟨{ State.reset with pwr := { boot := .up }, dbg := { synced := true } }, by decide +kernel⟩,
    ⟨rgnF 3 [(F.EAS_STATUS_HALTED 1, 1)] { hub [(F.DBG_SESSION_ATTACH, 1)] with pwr := { boot := .up }, dbg := { synced := true } }, by decide +kernel⟩,
    ⟨rgnF 3 [(F.EAS_STATUS_HALTED 1, 1)] { hub [(F.DBG_SESSION_ATTACH, 1), (F.DBG_SESSION_IDLE_TO, 2)] with pwr := { boot := .up }, dbg := { synced := true } }, by decide +kernel⟩,
    ⟨hub [(F.DBG_SESSION_ATTACH, 1), (F.DBG_SESSION_IDLE_TO, 0)], by decide +kernel⟩,
    ⟨{ hub [(F.DBG_SESSION_ATTACH, 1), (⟨R.DBG_ADDR_LO, 0, 32⟩, R.FLT_ISB)] with pwr := { boot := .up }, dbg := { synced := true } }, by decide +kernel⟩,
    ⟨{ hub [(F.DBG_SESSION_ATTACH, 1), (⟨R.DBG_ADDR_LO, 0, 32⟩, R.FLT_ISB), (⟨R.FLT_ISB, 0, 32⟩, 6)] with pwr := { boot := .up }, dbg := { synced := true } }, by decide +kernel⟩,
    ⟨6, { hub [(F.DBG_SESSION_ATTACH, 1)] with pwr := { boot := .up }, dbg := { synced := true, held := some 6 } }, by decide +kernel⟩,
    ⟨{ hub [(F.DBG_SESSION_ATTACH, 1), (F.DBG_STATUS_ERR, 3)] with pwr := { boot := .up }, dbg := { synced := true } }, by decide +kernel⟩,
    ⟨{ hub [(F.DBG_SESSION_ATTACH, 1), (F.DBG_STATUS_ERR, 3)] with pwr := { boot := .up }, dbg := { synced := true } }, by decide +kernel⟩⟩

theorem witness_HaltedCores :
    (∃ (rg : Rg) (k : CoreNo) (s : State), CorePort s rg k false ∧ s.rf rg F.RGN_STATUS_CFG = 1 ∧ s.rf rg (F.EAS_STATUS_STATE k.val) = 1 ∧ (s.rgn rg).waiting.testBit k.val = false) ∧
    (∃ (rg : Rg) (k : CoreNo) (s : State), CorePort s rg k false ∧ s.rf rg (F.EAS_STATUS_STATE k.val) = 3) ∧
    (∃ (rg : Rg) (k : CoreNo) (s : State), CorePort s rg k false ∧ s.rf rg F.RGN_STATUS_CFG = 1 ∧ s.rf rg (F.EAS_STATUS_STATE k.val) = 0) ∧
    (∃ (rg : Rg) (k : CoreNo) (s : State), CorePort s rg k true) ∧
    (∃ (rg : Rg) (k : CoreNo) (s : State), CorePort s rg k false) ∧
    (∃ (rg : Rg) (k : CoreNo) (s : State), CorePort s rg k true) ∧
    (∃ (rg : Rg) (k : CoreNo) (s : State), PortOpen s ∧ s.selCore = some (rg, k)) ∧
    (∃ (mask : BitVec 8) (u : Fin 8) (addr : BitVec 15) (en : Bool) (w : Word) (rg : Rg) (k : CoreNo) (s : State), PortOpen s ∧ s.selCore = some (rg, k) ∧ s.claimed rg k u.val = true ∧ mask.getLsbD u.val = false ∧ SMap.get none (s.eas rg k).dbg.saved u.val = some (w ++ (BitVec.ofBool en ++ addr : BitVec 16))) ∧
    (∃ (rg : Rg) (k : CoreNo) (s : State), CorePort s rg k true ∧ s.f F.DBG_CORE_REG_INDEX < 32) ∧
    (∃ (rg : Rg) (k : CoreNo) (s : State), CorePort s rg k true ∧ s.f F.DBG_CORE_REG_INDEX < 32) ∧
    (∃ (rg : Rg) (k : CoreNo) (s : State), CorePort s rg k false) ∧
    (∃ (w : Word) (rg : Rg) (k : CoreNo) (s : State), CorePort s rg k true ∧ s.clocked rg = true ∧ insnOp w = 0x0E) ∧
    (∃ (w : Word) (rg : Rg) (k : CoreNo) (s : State), CorePort s rg k true ∧ s.clocked rg = true ∧ insnOp w ∈ [0x24, 0x26, 0x29]) ∧
    (∃ (rg : Rg) (k : CoreNo) (s : State), CorePort s rg k false) :=
  ⟨⟨3, 1, rgnF 3 [(F.RGN_STATUS_CFG, 1), (F.EAS_STATUS_STATE 1, 1)] { hub [(F.DBG_SESSION_ATTACH, 1), (F.DBG_CORE_SEL, 13)] with pwr := { boot := .up }, dbg := { synced := true } }, by decide +kernel⟩,
    ⟨3, 1, rgnF 3 [(F.RGN_STATUS_CFG, 1), (F.EAS_STATUS_STATE 1, 3)] { hub [(F.DBG_SESSION_ATTACH, 1), (F.DBG_CORE_SEL, 13)] with pwr := { boot := .up }, dbg := { synced := true } }, by decide +kernel⟩,
    ⟨3, 1, rgnF 3 [(F.RGN_STATUS_CFG, 1)] { hub [(F.DBG_SESSION_ATTACH, 1), (F.DBG_CORE_SEL, 13)] with pwr := { boot := .up }, dbg := { synced := true } }, by decide +kernel⟩,
    ⟨3, 1, rgnF 3 [(F.RGN_STATUS_CFG, 1), (F.EAS_STATUS_STATE 1, 1), (F.EAS_STATUS_HALTED 1, 1)] { hub [(F.DBG_SESSION_ATTACH, 1), (F.DBG_CORE_SEL, 13)] with pwr := { boot := .up }, dbg := { synced := true } }, by decide +kernel⟩,
    ⟨3, 1, { hub [(F.DBG_SESSION_ATTACH, 1), (F.DBG_CORE_SEL, 13)] with pwr := { boot := .up }, dbg := { synced := true } }, by decide +kernel⟩,
    ⟨3, 1, rgnF 3 [(F.RGN_STATUS_CFG, 1), (F.EAS_STATUS_STATE 1, 1), (F.EAS_STATUS_HALTED 1, 1)] { hub [(F.DBG_SESSION_ATTACH, 1), (F.DBG_CORE_SEL, 13)] with pwr := { boot := .up }, dbg := { synced := true } }, by decide +kernel⟩,
    ⟨3, 1, rgnF 3 [(F.EAS_PATCH_ADDR_CLAIMED 1 1, 1)] { hub [(F.DBG_SESSION_ATTACH, 1), (F.DBG_CORE_SEL, 13)] with pwr := { boot := .up }, dbg := { synced := true } }, by decide +kernel⟩,
    ⟨5, 1, 0x77, true, 0x12345678, 3, 1, (rgnF 3 [(F.EAS_PATCH_ADDR_CLAIMED 1 1, 1)] { hub [(F.DBG_SESSION_ATTACH, 1), (F.DBG_CORE_SEL, 13)] with pwr := { boot := .up }, dbg := { synced := true } }).onEas 3 1 (fun e => { e with dbg := { e.dbg with saved := [(1, some 0x123456788077)] } }), by decide +kernel⟩,
    ⟨3, 1, rgnF 3 [(F.RGN_STATUS_CFG, 1), (F.EAS_STATUS_STATE 1, 1), (F.EAS_STATUS_HALTED 1, 1)] { hub [(F.DBG_SESSION_ATTACH, 1), (F.DBG_CORE_SEL, 13), (F.DBG_CORE_REG_INDEX, 12)] with pwr := { boot := .up }, dbg := { synced := true } }, by decide +kernel⟩,
    ⟨3, 1, rgnF 3 [(F.RGN_STATUS_CFG, 1), (F.EAS_STATUS_STATE 1, 1), (F.EAS_STATUS_HALTED 1, 1)] { hub [(F.DBG_SESSION_ATTACH, 1), (F.DBG_CORE_SEL, 13), (F.DBG_CORE_REG_INDEX, 12)] with pwr := { boot := .up }, dbg := { synced := true } }, by decide +kernel⟩,
    ⟨3, 1, { hub [(F.DBG_SESSION_ATTACH, 1), (F.DBG_CORE_SEL, 13)] with pwr := { boot := .up }, dbg := { synced := true } }, by decide +kernel⟩,
    ⟨0x39800007, 3, 1, rgnF 3 [(F.RGN_STATUS_CFG, 1), (F.EAS_STATUS_STATE 1, 1), (F.EAS_STATUS_HALTED 1, 1)] { hub [(F.DBG_SESSION_ATTACH, 1), (F.DBG_CORE_SEL, 13), (F.PWR_QSTAT_STATE 0, 0)] with pwr := { boot := .up }, dbg := { synced := true } }, by decide +kernel⟩,
    ⟨0xA4000000, 3, 1, rgnF 3 [(F.RGN_STATUS_CFG, 1), (F.EAS_STATUS_STATE 1, 1), (F.EAS_STATUS_HALTED 1, 1)] { hub [(F.DBG_SESSION_ATTACH, 1), (F.DBG_CORE_SEL, 13), (F.PWR_QSTAT_STATE 0, 0)] with pwr := { boot := .up }, dbg := { synced := true } }, by decide +kernel⟩,
    ⟨3, 1, { hub [(F.DBG_SESSION_ATTACH, 1), (F.DBG_CORE_SEL, 13)] with pwr := { boot := .up }, dbg := { synced := true } }, by decide +kernel⟩⟩

theorem witness_TestEntry :
    (∃ (mode : BitVec 2) (s : State), (PortOpen s ∧ s.dbg.testing = none ∧ s.fuses.testDisable = false ∧ (mode = 1 ∨ mode = 2))) ∧
    (∃ (s : State), PortOpen s ∧ s.dbg.testing = none ∧ s.fuses.testDisable = true) ∧
    (∃ (mode : BitVec 2) (since : Word) (s : State), PortOpen s ∧ s.dbg.testing = none ∧ s.fuses.testDisable = false ∧ s.dbg.armed = some mode ∧ s.nowAt since ≤ s.dbg.armedAt + 100000) ∧
    (∃ (mode : BitVec 2) (arm : BitVec 8) (since : Word) (s : State), (PortOpen s ∧ s.dbg.testing = none ∧ (s.dbg.armedAt + 100000 < s.nowAt since ∨ arm ≠ 0x5A ∨ s.dbg.armed ≠ some mode ∨ s.fuses.testDisable = true))) ∧
    (∃ (mode : BitVec 2) (s : State), s.dbg.testing = some mode ∧ s.f F.DBG_STATUS_TESTMODE = 0) ∧
    (∃ (s : State), s.dbg.testing = none) :=
  ⟨⟨2, { hub [(F.DBG_SESSION_ATTACH, 1)] with pwr := { boot := .up }, dbg := { synced := true } }, by decide +kernel⟩,
    ⟨{ hub [(F.DBG_SESSION_ATTACH, 1)] with pwr := { boot := .up }, dbg := { synced := true }, fuses := { testDisable := true } }, by decide +kernel⟩,
    ⟨2, 5, { hub [(F.DBG_SESSION_ATTACH, 1)] with pwr := { boot := .up }, dbg := { synced := true, armed := some 2 } }, by decide +kernel⟩,
    ⟨2, 0x5A, 5, { hub [(F.DBG_SESSION_ATTACH, 1)] with pwr := { boot := .up }, dbg := { synced := true, armed := some 1 } }, by decide +kernel⟩,
    ⟨2, { State.reset with dbg := { testing := some 2 }, sram := [(3, 4)] }, by decide +kernel⟩,
    ⟨State.reset, by decide +kernel⟩⟩

theorem witness_TraceRecordWords :
    (∃ (rg : Rg) (x : ProbeRec) (xs : List ProbeRec) (s : State), (s.rgn rg).rwd.probes = x :: xs ∧ s.rf rg F.DMEM_STATUS_OWNER = 4 ∧ RingReady (s.rgn rg) 3) :=
  ⟨3, ⟨9, 5, 1, 7, 66⟩, [], (rgnF 3 [(F.DMEM_STATUS_OWNER, 4)] State.reset).onRgn 3 (fun r => { r with rwd := { probes := [⟨9, 5, 1, 7, 66⟩] } }), by decide +kernel⟩

theorem witness_ReadbackOfConfiguration :
    (∃ (s : State), (s.f F.CFG_STATUS_ENC = 1 ∨ s.f F.RTC_STATUS_ENC_SEEN = 1)) ∧
    (∃ (s : State), s.drainOf 4 = .reset) :=
  ⟨⟨hub [(F.RTC_STATUS_ENC_SEEN, 1)], by decide +kernel⟩,
    ⟨{ State.reset with sram := [(0x600000, 5)] }.setDrain 4 .reset, by decide +kernel⟩⟩

theorem witness_IsolatedOutputs :
    (∃ (rg : Rg) (inp : BitVec 3) (vc : BitVec 2) (o : Nat) (re : Bool) (p : Packet) (rest : List Packet) (s : State), s.queue (netKey rg.toNat inp.toNat vc.toNat) = p :: rest ∧ vc ≠ 2 ∧ s.rf rg F.NOC_STATUS_DRAINING = 0 ∧ s.behind (netKey rg.toNat inp.toNat vc.toNat) = 0 ∧ (overrideOf (s.rgn rg) p.dest none).getD (routeOut s rg p.dest, false) = (o, re) ∧ (o = 6 ∨ (o ≠ 4 ∧ (s.rf rg F.NOC_ISO_OUT).testBit o = true)) ∧ p.isResp = false ∧ p.unanswered = false ∧ s.waiting (netKey rg.toNat (ownInput (.router rg)) 2) < 8) ∧
    (∃ (rg : Rg) (inp : BitVec 3) (vc : BitVec 2) (o : Nat) (re : Bool) (p : Packet) (rest : List Packet) (s : State), s.queue (netKey rg.toNat inp.toNat vc.toNat) = p :: rest ∧ s.rf rg F.NOC_STATUS_DRAINING = 0 ∧ s.behind (netKey rg.toNat inp.toNat vc.toNat) = 0 ∧ (overrideOf (s.rgn rg) p.dest none).getD (routeOut s rg p.dest, false) = (o, re) ∧ (o = 6 ∨ (o ≠ 4 ∧ (s.rf rg F.NOC_ISO_OUT).testBit o = true)) ∧ p.isResp = true) :=
  ⟨⟨3, 2, 0, 0, false, pk (64 * 0 + 0x13) 0x38 1 2 16 [], [], rgnF 3 [(F.NOC_ISO_OUT, 1)] { State.reset with net := [(netKey 3 2 0, [pk (64 * 0 + 0x13) 0x38 1 2 16 []])] }, by decide +kernel⟩,
    ⟨3, 2, 2, 0, false, { pk (64 * 0 + 0x13) 0x38 0x11 2 16 [] with vc := 2 }, [], rgnF 3 [(F.NOC_ISO_OUT, 1)] { State.reset with net := [(netKey 3 2 2, [{ pk (64 * 0 + 0x13) 0x38 0x11 2 16 [] with vc := 2 }])] }, by decide +kernel⟩⟩

theorem witness_EmptyQueueIsATick :
    (∃ s : State, s.pending = [] ∧ s.portUp = true) :=
  (⟨State.reset, by decide⟩)

theorem witness_StepKeepsTheQueueAndFuses :
    (∃ s t : State, step s = .next t) :=
  (⟨{ State.reset with pending := [.nop 3 1 0 0] }, _, rfl⟩)

theorem witness_StepKeepsCanonicalForms :
    (∃ s t : State, Canonical s ∧ step s = .next t) :=
  (⟨State.reset, _, by unfold Canonical; decide, rfl⟩)

/-! ### Ill-formed commands are refused by the check of their row, well-formed ones pass -/

/-- A packet that names 33 words. -/
def long : Packet := pk 0x13 0xD1 2 33 0 []

theorem test_wf_packets_of_33_words :
    ([.requestInject long 0, .injectionTimeout long (.region 3), .read long .clean, .write long .clean, .writePosted long .clean,
      .atomic long .clean, .message long ⟨false, 0⟩, .frameWrite long, .respData long, .respAck long, .respError long, .tick long 0,
      .start long 0, .discover 0 long, .fabricReset long 0 true] : List Instr).all (fun c => !c.wellFormed) = true := by decide

theorem test_wf_packets :
    ([.requestInject (pk 0x13 0xD1 2 32 0 []) 0, .read (pk 0x13 0xD1 0 16 0 []) .clean, .write (pk 0x13 0xD1 2 1 0 [7]) .clean] : List Instr).all
      (fun c => c.wellFormed) = true := by decide

theorem test_wf_read_with_data : Instr.wellFormed (.read (pk 0x13 0xD1 0 1 0 [7]) .clean) = false := by decide
theorem test_wf_power_sample : Instr.wellFormed (.powerSample 0 [0, 0, 0]) = false := by decide
theorem test_wf_thermal_sample : Instr.wellFormed (.thermalSample (List.replicate 64 0)) = false := by decide
theorem test_wf_lane : Instr.wellFormed (.laneFault 0 9) = false := by decide
theorem test_wf_line : Instr.wellFormed (.pinInterrupt 6 .rising) = false := by decide
theorem test_wf_uio_pins :
    ([.fioInputToken 3 2 true 0, .levelRequest 3 2 true true, .fioOutputToken 3 2 true, .enableToken 3 2 true, .edgeInput 3 2 true true] : List Instr).all
      (fun c => !c.wellFormed) = true := by decide
theorem test_wf_macro :
    ([.startupBistEnd ⟨⟨[⟨0, 0, false, 1170, false, 0, 0⟩], []⟩, []⟩, .shutdownBistEnd ⟨[⟨0, 0, true, 128, false, 0, 0⟩], []⟩ [],
      .bistStep 3 ⟨[⟨0, 3, false, 1220, false, 0, 0⟩], []⟩ true true, .bistStep 3 ⟨[], [⟨0, 3, false, 1200, false, 0⟩]⟩ true true] : List Instr).all (fun c => !c.wellFormed) = true := by decide

/-! ### The spec's worked examples -/

/-- The state after one command. -/
def after (c : Instr) (s : State) : State :=
  match exec c s with
  | .next t => t
  | _ => s

/-- 01_six_levels.md: Easel core 2 of region 9 of Q3, package (2,5,1): node 0x251E52, window 0x1E400000. -/
theorem test_node_address : State.node (hub [(F.FAB_ID_COORD, 0x251)]) 57 0x12 = 0x251E52 := by decide +kernel
theorem test_node_fields : nodeCoord 0x251E52 = 0x251 ∧ nodeRgn 0x251E52 = 57 ∧ nodeUnit 0x251E52 = 0x12 := by decide
theorem test_window : placeOf 0x1E400000 = .window 57 0 := by decide +kernel

/-- 00_scope.md: region 5 of quadrant 2 begins at 0x1940_0000. -/
theorem test_window_of_scope : placeOf 0x19400000 = .window 37 0 := by decide +kernel

/-- 18_register_space_map.md: NOC.D2D_CTRL at region 9 of Q2 is reserved, at region 0 it exists. -/
theorem test_two_windows : placeOf 0x1A40D108 = .window 41 0xD108 ∧ existsIn 41 0xD108 = false ∧ existsIn 32 0xD108 = true := by decide +kernel

/-- 03_strokes_and_palettes.md: the sum word of the adder bit, field by field. -/
theorem test_sum_word :
    let w := strokeEncode 0x14B0009696FF00414541050328
    strokeOp w = 1 ∧ strokeDest w = 300 ∧ strokeCtrl w = 0 ∧ strokeTt w = 0x9696 ∧
    strokeOpd w 0 = (12, 40) ∧ strokeOpd w 1 = (260, 5) ∧ strokeOpd w 2 = (261, 5) ∧ strokeOpd w 3 = (1020, 0) := by decide +kernel

/-- The sum of A = 1, B = 1, Cin = 0 is 0 and the carry 1. -/
theorem test_adder_tables : evalTt 0x9696 true true false false = false ∧ evalTt 0xE8E8 true true false false = true := by decide

/-- The sum word as BP 5 runs it, with A = 1 and B = Cin = 0: the cluster's pending write is 1 into entry 300 of its own column. -/
theorem test_sum_stroke :
    ((after (.eval 3 1 5 0) ((stroking 5 (strokeEncode 0x14B0009696FF00414541050328)).onCl 3 1
        (fun k => { k with pal := [(12, 0x10000000000)] }))).cl 3 1).writes = [⟨5, 300, false, true⟩] := by decide +kernel

/-- 09_on_package_network.md: from region 3 towards 0x000213 the first hop is +X over the dateline, then +Y without one. -/
theorem test_two_routes :
    routeOut State.reset 3 0x213 = 0 ∧ torusNext 3 0 = (0, true) ∧ routeOut State.reset 0 0x213 = 2 ∧ torusNext 0 2 = (4, false) ∧
    routeOut State.reset 8 0x0D1 = 1 ∧ torusNext 8 1 = (11, true) := by decide +kernel

/-- 12_easel_cores.md: the words of the average's MACLD and of its LOOP. -/
theorem test_macld_word : insnOp 0x4C950010 = 0x13 ∧ insnField 0x4C950010 23 3 = 1 ∧ insnField 0x4C950010 4 5 = 1 := by decide
theorem test_loop_word : insnOp 0x90028101 = 0x24 := by decide

/-- 15_debug_and_run_control.md: the header 0xCC names target 6 for a write; DBG.CORE 0xE6 selects core 2 of region 9 of Q3. -/
theorem test_debug_header : headerOk 0xCC = true ∧ (0xCC : BitVec 8).toNat / 2 % 16 = 6 ∧ (0xCC : BitVec 8).getLsbD 5 = false := by decide
theorem test_debug_core : State.selCore (hub [(F.DBG_CORE_SEL, 0xE6)]) = some (57, 2) := by decide +kernel

/-- 17_faults_and_self_test.md: the key 0x474805 and the repair entry 0x34821096. -/
theorem test_fault_key : faultKey [(5, 4), (0, 1), (0x23A40, 27)] = 0x474805 := by decide
theorem test_repair_entry : repairEntry (packKey [(2, 2), (5, 4), (0, 1), (1057, 11)]) 0 840 0 = 0x34821096 := by decide

/-- 14_host_interface.md: MER.TICK_LO and TICK_HI in one read transfer, tick count 0x123456789. -/
theorem test_i3c_tick :
    (after (.i3cRead (0x61 :: bytesOf 4 0x50008) 2) { i3cUpS [] with mer := { tick := 0x123456789 } }).i3c.out =
      [0x89, 0x67, 0x45, 0x23, 0x01, 0x00, 0x00, 0x00] := by decide +kernel

/-- 11_fabric_of_packages.md: at (6,1,0) of an 8 × 4 × 4 fabric with link 7 DOWN the packet for (1,3,0) takes −X, a detour. -/
theorem test_detour :
    hubRoute (hub [(F.FAB_ID_COORD, 0x610), (F.FAB_SIZE_SIZE, 0x733), (F.FAB_STATUS_SWEEP, 1),
      (F.FAB_RING_DOWN_DOWN 0, 128)]) 0x130 = some (1, true) := by decide +kernel

end Sys2Proof.Tests
end

section
/-! PROOFS. The strokes of a cluster: what a BP that completes its stroke changes (R84), and the reserved operations (R72). -/

namespace Sys2Proof.Machine

/-! ### Bits -/

theorem getLsbD_setBit_ne {n : Nat} (x : BitVec n) {i j : Nat} (b : Bool) (h : j ≠ i) :
    (setBit x i b).getLsbD j = x.getLsbD j := by
  unfold setBit setBits
  rcases Nat.lt_or_ge j n with hn | hn
  · rcases Nat.lt_or_gt_of_ne h with hlt | hgt
    · simp [hn, hlt]
    · have hout : j - i ≠ 0 ∧ ¬ j < i := by omega
      cases b <;> simp [hn, hout]
  · rw [BitVec.getLsbD_of_ge _ j hn, BitVec.getLsbD_of_ge _ j hn]

/-! ### Updates that leave a region's store alone -/

/-- An event of an error source is counted and queued in the hub: no region changes (R450). -/
@[simp] theorem State.noteFault_rgns (s : State) (src l : Nat) (key : Word) : (s.noteFault src l key).rgns = s.rgns := by
  have hroom : (s.findsRoom (32 * l + src) 16).2.rgns = s.rgns := by rw [State.findsRoom_frame]
  unfold State.noteFault
  dsimp only
  split <;> split <;> simpa using hroom

@[simp] theorem State.rgn_noteFault (s : State) (src l : Nat) (key : Word) (rg : Rg) :
    (s.noteFault src l key).rgn rg = s.rgn rg := by
  unfold State.rgn; rw [State.noteFault_rgns]

@[simp] theorem State.rgn_bumpR_same (s : State) (rg : Rg) (f : Fld) (k : Nat) :
    (s.bumpR rg f k).rgn rg = (s.rgn rg).bump f k := State.rgn_onRgn_same s rg _

/-- The stall fields of CLU.STATUS are all that an update of the stalls changes (R85). -/
theorem Region.showStall_frame (r : Region) (c : Cl) : r.showStall c = { r with regs := (r.showStall c).regs } := by
  unfold Region.showStall
  dsimp only
  split
  · rfl
  · split <;> rfl

@[simp] theorem Region.cl_showStall (r : Region) (c d : Cl) : (r.showStall c).cl d = r.cl d := by
  rw [Region.showStall_frame]; rfl

@[simp] theorem Region.showStall_dmem (r : Region) (c : Cl) : (r.showStall c).dmem = r.dmem := by
  rw [Region.showStall_frame]

theorem Region.f_showStall_ne (r : Region) (c : Cl) (g : Fld) (h : g.off ≠ R.CLU_STATUS c.toNat) :
    (r.showStall c).f g = r.f g := by
  have hset (r : Region) (x y z : Nat) :
      (((r.setF (F.CLU_STATUS_STALLED c.toNat) x).setF (F.CLU_STATUS_STALL_ENTRY c.toNat) y).setF
        (F.CLU_STATUS_STALL_BP c.toNat) z).f g = r.f g := by
    simp only [Region.setF, Region.f_setReg_ne _ g _ h]
  unfold Region.showStall
  dsimp only
  split
  · rfl
  · split <;> exact hset r _ _ _

/-! ### A BP completes its stroke -/

/-- The cluster once BP `b` has completed its stroke with the palette write `w`, if any (R84). -/
def Cluster.completed (k : Cluster) (b : Bp) (w : Option PalWrite) : Cluster :=
  { k with done := setBit k.done b.toNat true, writes := k.writes ++ w.toList, waits := SMap.erase k.waits b.toNat,
           lead := if b = 0 then .none else k.lead }

/-- From `s` to `t` BP `b` completes its stroke: the cluster records it, the design memory stands, of the region's registers only
CLU.STATUS and CLU.CYCLE_TIME may change, and nothing outside the region but the count of drawn values. -/
def BpCompleted (s t : State) (rg : Rg) (c : Cl) (b : Bp) (w : Option PalWrite) : Prop :=
  t.cl rg c = (s.cl rg c).completed b w ∧ (t.rgn rg).dmem = (s.rgn rg).dmem ∧
    (∀ g : Fld, g.off ≠ R.CLU_STATUS c.toNat → g.off ≠ R.CLU_CYCLE_TIME c.toNat → t.rf rg g = s.rf rg g) ∧
    OnlyRegionDrawn rg s t

/-- A cluster with a BP still to complete the stroke does not end its cycle (R75). -/
theorem tryEnd_of_done_ne {s : State} {rg : Rg} {c : Cl} (h : (s.cl rg c).done ≠ BitVec.allOnes 64) : tryEnd s rg c = s :=
  if_neg fun ⟨_, hall, _⟩ => h hall

theorem completed_done_ne {s : State} {rg : Rg} {c : Cl} {b : Bp} (h : OthersBusy s rg c b) (w : Option PalWrite) :
    ((s.cl rg c).completed b w).done ≠ BitVec.allOnes 64 := by
  obtain ⟨n, hn, hbusy⟩ := h
  intro hall
  have hbit : ((s.cl rg c).completed b w).done.getLsbD n = false := (getLsbD_setBit_ne _ true hn).trans hbusy
  rw [hall, BitVec.getLsbD_allOnes, decide_eq_true n.isLt] at hbit
  exact Bool.noConfusion hbit

/-- While another BP has the stroke still to complete, a BP's completion does no more than record it. -/
theorem completeBp_of_othersBusy {s : State} {rg : Rg} {c : Cl} {b : Bp} (h : OthersBusy s rg c b) (w : Option PalWrite) :
    completeBp s rg c b w = s.onRgn rg (fun r => (r.setCl c ((r.cl c).completed b w)).showStall c) := by
  refine tryEnd_of_done_ne (rg := rg) (c := c) ?_
  have hcl : (s.onRgn rg (fun r => (r.setCl c ((r.cl c).completed b w)).showStall c)).cl rg c = (s.cl rg c).completed b w := by
    simp [State.cl]
  exact fun hall => completed_done_ne h w ((congrArg Cluster.done hcl).symm.trans hall)

theorem completeBp_completed {s : State} {rg : Rg} {c : Cl} {b : Bp} (h : OthersBusy s rg c b) (w : Option PalWrite) :
    BpCompleted s (completeBp s rg c b w) rg c b w := by
  rw [completeBp_of_othersBusy h]
  refine ⟨by simp [State.cl], by simp, fun g hstatus _ => ?_, rfl, fun _ hrh => State.rgn_onRgn_ne s _ hrh⟩
  simp only [State.rf, State.rgn_onRgn_same]
  exact Region.f_showStall_ne _ c g hstatus

/-- The state with a drawn value in CLU.CYCLE_TIME, as the lead BP leaves it at END_AT (R91). -/
def State.drawCycleTime (s : State) (rg : Rg) (c : Cl) : State :=
  (s.draw 20).2.setRf rg (F.CLU_CYCLE_TIME_LAST c.toNat) (s.draw 20).1.toNat

theorem State.rgn_drawCycleTime (s : State) (rg : Rg) (c : Cl) :
    (s.drawCycleTime rg c).rgn rg = (s.rgn rg).setF (F.CLU_CYCLE_TIME_LAST c.toNat) (s.draw 20).1.toNat :=
  State.rgn_onRgn_same _ _ _

theorem State.rgn_drawCycleTime_ne (s : State) {rg rh : Rg} (c : Cl) (h : rh ≠ rg) :
    (s.drawCycleTime rg c).rgn rh = s.rgn rh :=
  State.rgn_onRgn_ne (s.draw 20).2 _ h

theorem State.cl_drawCycleTime (s : State) (rg : Rg) (c d : Cl) : (s.drawCycleTime rg c).cl rg d = s.cl rg d := by
  rw [State.cl, State.rgn_drawCycleTime]; rfl

theorem finishBp_completed {s : State} {rg : Rg} {c : Cl} {b : Bp} (h : OthersBusy s rg c b) (w : Option PalWrite) :
    BpCompleted s (finishBp s rg c b w) rg c b w := by
  unfold finishBp
  split
  case isFalse => exact completeBp_completed h w
  case isTrue =>
    have hcl := s.cl_drawCycleTime rg c c
    have hbusy : OthersBusy (s.drawCycleTime rg c) rg c b := by rw [OthersBusy, hcl]; exact h
    obtain ⟨hdone, hdmem, hregs, hhub, hothers⟩ := completeBp_completed hbusy w
    refine ⟨hdone.trans (by rw [hcl]), hdmem.trans (by rw [State.rgn_drawCycleTime]; rfl), fun g hstatus htime => ?_, hhub,
      fun rh hrh => (hothers rh hrh).trans (s.rgn_drawCycleTime_ne c hrh)⟩
    refine (hregs g hstatus htime).trans ?_
    rw [State.rf, State.rgn_drawCycleTime]
    exact Region.f_setReg_ne _ g _ htime

/-! ### A BP reads its stroke word -/

theorem strokeCheck_of_clean {w : BitVec 112} (h : (strokeCheck w).1 = .clean) : strokeCheck w = (.clean, w) := by
  refine Prod.ext h ?_
  unfold strokeCheck at h ⊢
  dsimp only at h ⊢
  rw [h]

/-- The state with the word that BP `b` stands at written back as it was read (R87). -/
def State.keepStroke (s : State) (rg : Rg) (c : Cl) (b : Bp) : State :=
  s.setRgn rg { s.rgn rg with
    strokes := SMap.set 0 (s.rgn rg).strokes (strokeKey c b ((s.rgn rg).strokeNo c)) (strokeAt s rg c b) }

theorem State.rgn_keepStroke (s : State) (rg : Rg) (c : Cl) (b : Bp) :
    (s.keepStroke rg c b).rgn rg = { s.rgn rg with
      strokes := SMap.set 0 (s.rgn rg).strokes (strokeKey c b ((s.rgn rg).strokeNo c)) (strokeAt s rg c b) } :=
  State.rgn_setRgn_same s rg _

theorem State.cl_keepStroke (s : State) (rg : Rg) (c d : Cl) (b : Bp) : (s.keepStroke rg c b).cl rg d = s.cl rg d := by
  rw [State.cl, State.rgn_keepStroke]; rfl

theorem State.rf_keepStroke (s : State) (rg : Rg) (c : Cl) (b : Bp) (f : Fld) :
    (s.keepStroke rg c b).rf rg f = s.rf rg f := by
  rw [State.rf, State.rgn_keepStroke]; rfl

theorem State.dmem_keepStroke (s : State) (rg : Rg) (c : Cl) (b : Bp) :
    ((s.keepStroke rg c b).rgn rg).dmem = (s.rgn rg).dmem := by
  rw [State.rgn_keepStroke]

/-- A BP whose turn it is acts on an undamaged word where it carries the operation that the command names (R66, R87). -/
theorem runBp_of_clean {s : State} {rg : Rg} {c : Cl} {b : Bp} {op : Nat} (h : AtStroke s rg c b op) {named : Nat → Bool}
    (hop : named op = true) (act : State → BitVec 112 → State) :
    runBp s rg c b 0 named act = act (s.keepStroke rg c b) (strokeAt s rg c b) := by
  obtain ⟨hturn, hclean, rfl⟩ := h
  have hcheck : strokeCheck (SMap.get 0 (s.rgn rg).strokes (strokeKey c b ((s.rgn rg).strokeNo c)) ^^^ 0) =
      (.clean, strokeAt s rg c b) :=
    (congrArg strokeCheck BitVec.xor_zero).trans (strokeCheck_of_clean hclean)
  unfold runBp
  rw [if_neg (not_not.mpr hturn)]
  dsimp only
  rw [hcheck]
  exact if_pos hop

/-! ### Reserved operations -/

/-- The reserved operation of a BP is counted in CLU.ERR_OP and noted (R72, R450). -/
def State.countReserved (s : State) (rg : Rg) (c : Cl) : State :=
  (s.bumpR rg (F.CLU_ERR_OP_RSVD_OP c.toNat) 1).noteFault 2 (quadOf rg) (faultKey [(numOf rg, 4), (c.toNat, 4)])

theorem State.rgn_countReserved (s : State) (rg : Rg) (c : Cl) :
    (s.countReserved rg c).rgn rg = (s.rgn rg).bump (F.CLU_ERR_OP_RSVD_OP c.toNat) 1 := by
  simp [State.countReserved]

theorem State.cl_countReserved (s : State) (rg : Rg) (c d : Cl) : (s.countReserved rg c).cl rg d = s.cl rg d := by
  rw [State.cl, State.rgn_countReserved]; rfl

theorem State.dmem_countReserved (s : State) (rg : Rg) (c : Cl) :
    ((s.countReserved rg c).rgn rg).dmem = (s.rgn rg).dmem := by
  rw [State.rgn_countReserved, Region.bump_dmem]

theorem State.rf_countReserved (s : State) (rg : Rg) (c : Cl) :
    (s.countReserved rg c).rf rg (F.CLU_ERR_OP_RSVD_OP c.toNat) =
      min (s.rf rg (F.CLU_ERR_OP_RSVD_OP c.toNat) + 1) (F.CLU_ERR_OP_RSVD_OP c.toNat).max := by
  rw [State.rf, State.rgn_countReserved]
  exact Region.f_bump_same _ (F.CLU_ERR_OP_RSVD_OP c.toNat) (by simp [Fld.fits]) 1

/-- The codes that execute as NOP in BP `b`: 3 to 7 and 14, and the cluster codes in a BP other than the lead (R72). -/
abbrev ReservedFor (b : Bp) (op : Nat) : Prop := (3 ≤ op ∧ op ≤ 7) ∨ op = 14 ∨ (8 ≤ op ∧ b ≠ 0)

/-- A reserved operation is counted, and the BP then finishes as at a NOP: no operand is read. -/
theorem exec_reservedOp_of_clean {s : State} {rg : Rg} {c : Cl} {b : Bp} {op : Nat} (h : AtStroke s rg c b op)
    (hop : ReservedFor b op) :
    exec (.reservedOp rg c b 0) s = .next (finishBp ((s.keepStroke rg c b).countReserved rg c) rg c b none) := by
  refine congrArg Host.Outcome.next (runBp_of_clean h ?_ _)
  simpa [ReservedFor, or_assoc] using hop

/-- Settles O9: the word that is read back and the count leave the cluster as it was, so the BP's completion is the one of a NOP. -/
theorem reservedOpExecutesAsNop : Obligations.ReservedOpExecutesAsNop := by
  unfold Obligations.ReservedOpExecutesAsNop
  intro rg c b op s hat hop hbusy
  refine ⟨_, exec_reservedOp_of_clean hat hop, ?_⟩
  have hcl : ((s.keepStroke rg c b).countReserved rg c).cl rg c = s.cl rg c := by
    rw [State.cl_countReserved, State.cl_keepStroke]
  have hbusy' : OthersBusy ((s.keepStroke rg c b).countReserved rg c) rg c b := by rw [OthersBusy, hcl]; exact hbusy
  obtain ⟨hdone, hdmem, hregs, -⟩ := finishBp_completed hbusy' none
  rw [hcl] at hdone
  rw [State.dmem_countReserved, State.dmem_keepStroke] at hdmem
  refine ⟨?_, ?_, fun e => ⟨?_, ?_⟩⟩
  · rw [hdone]; simp [Cluster.completed]
  · rw [hregs _ (by simp) (by simp), State.rf_countReserved, State.rf_keepStroke]
  · rw [hdone]; rfl
  · rw [hdmem]

end Sys2Proof.Machine
end

section
/-! PROOFS. The rewind ring: what leaves it as it stands, what a record appends to it (R122, R132), and the words of a TRACE record
(R129). -/

namespace Sys2Proof.Machine

/-! ### The ring stands -/

/-- The ring of `r'` is the one of `r`: its words, HEAD and the count of free words. -/
structure RingKept (r r' : Region) : Prop where
  ring : r'.ring = r.ring
  head : r'.f F.RWD_HEAD_WORD = r.f F.RWD_HEAD_WORD
  free : r'.f F.RWD_FREE_WORDS = r.f F.RWD_FREE_WORDS

/-- The register at offset `a` is neither RWD.HEAD nor RWD.FREE. -/
abbrev OffRing (a : Nat) : Prop := F.RWD_HEAD_WORD.off ≠ a ∧ F.RWD_FREE_WORDS.off ≠ a

theorem RingKept.refl (r : Region) : RingKept r r := ⟨rfl, rfl, rfl⟩

theorem RingKept.trans {r r' r'' : Region} (h : RingKept r r') (h' : RingKept r' r'') : RingKept r r'' :=
  ⟨h'.ring.trans h.ring, h'.head.trans h.head, h'.free.trans h.free⟩

/-- HEAD and FREE are registers: an update that keeps the words and the registers keeps the ring. -/
theorem ringKept_of_regs {r r' : Region} (hring : r'.ring = r.ring) (hregs : r'.regs = r.regs) : RingKept r r' := by
  refine ⟨hring, ?_, ?_⟩ <;> simp only [Region.f, Region.reg, hregs]

theorem ringKept_of_rgns {s t : State} (rg : Rg) (h : t.rgns = s.rgns) : RingKept (s.rgn rg) (t.rgn rg) := by
  simp only [State.rgn, h]
  exact .refl _

theorem Region.ringKept_setReg (r : Region) {a : Nat} (v : Word) (ha : OffRing a) : RingKept r (r.setReg a v) :=
  ⟨rfl, r.f_setReg_ne _ v ha.1, r.f_setReg_ne _ v ha.2⟩

theorem Region.ringKept_setF (r : Region) (f : Fld) (n : Nat) (hf : OffRing f.off) : RingKept r (r.setF f n) :=
  r.ringKept_setReg _ hf

theorem Region.ringKept_bump (r : Region) (f : Fld) (n : Nat) (hf : OffRing f.off) : RingKept r (r.bump f n) :=
  r.ringKept_setF f _ hf

theorem Region.ringKept_set48 (r : Region) {lo hi : Nat} (v : BitVec 48) (hlo : OffRing lo) (hhi : OffRing hi) :
    RingKept r (r.set48 lo hi v) :=
  (r.ringKept_setReg _ hlo).trans (Region.ringKept_setReg _ _ hhi)

theorem RingKept.foldl {α : Type} {f : Region → α → Region} (hf : ∀ r a, RingKept r (f r a)) (l : List α) (r : Region) :
    RingKept r (l.foldl f r) := by
  induction l generalizing r with
  | nil => exact .refl r
  | cons a l ih => exact (hf r a).trans (ih _)

theorem RingKept.foldS {α : Type} {rg : Rg} {f : State → α → State} (hf : ∀ s a, RingKept (s.rgn rg) ((f s a).rgn rg))
    (l : List α) (s : State) : RingKept (s.rgn rg) ((Machine.foldS l s f).rgn rg) := by
  induction l generalizing s with
  | nil => exact .refl _
  | cons a l ih => exact (hf s a).trans (ih _)

/-! ### Events and grants leave the ring alone -/

@[simp] theorem State.ibi_rgns (s : State) (cls loc arg : Nat) : (s.ibi cls loc arg).rgns = s.rgns := by
  unfold State.ibi
  dsimp only
  split
  · simp
  · split <;> simp

@[simp] theorem State.rgn_ibi (s : State) (cls loc arg : Nat) (rg : Rg) : (s.ibi cls loc arg).rgn rg = s.rgn rg := by
  unfold State.rgn; rw [State.ibi_rgns]

@[simp] theorem State.findsRoom_rgns (s : State) (key places : Nat) : (s.findsRoom key places).2.rgns = s.rgns := by
  rw [State.findsRoom_frame]

/-- A taint entry goes to the hub's log: of its region it changes at most the mark of the cycle (R61, R454). -/
theorem State.ringKept_taintAt (s : State) (rg : Rg) (cycle : BitVec 48) (t : Taint) :
    RingKept (s.rgn rg) ((s.taintAt (some rg) cycle t).rgn rg) := by
  unfold State.taintAt
  dsimp only
  split
  case isTrue => exact ringKept_of_rgns rg (by simp [State.bump])
  case isFalse =>
    rw [State.rgn_ibi, State.rgn_onRgn_same]
    refine .trans (ringKept_of_rgns rg ?_) (ringKept_of_regs rfl rfl)
    split <;> simp [State.bump]

/-- LOW and its IBI stand beside the ring (R133). -/
theorem ringKept_lowCheck (s : State) (rg : Rg) (before : Region) : RingKept (s.rgn rg) ((lowCheck s rg before).rgn rg) := by
  unfold lowCheck
  split
  · rw [State.rgn_ibi, State.setRf, State.rgn_onRgn_same]
    exact Region.ringKept_setF _ F.RWD_STATUS_LOW 1 (by decide)
  · exact .refl _

theorem Region.ringKept_dropGrant (r : Region) : RingKept r r.dropGrant :=
  (r.ringKept_setF F.DMEM_STATUS_OWNER 6 (by decide)).trans (Region.ringKept_setF _ F.DMEM_GRANT_TIME_NS 0 (by decide))

theorem Region.ringKept_dropRequest (r : Region) (q : Nat) : RingKept r (r.dropRequest q) := by
  have hwait := r.ringKept_setF F.DMEM_STATUS_WAITING (r.f F.DMEM_STATUS_WAITING &&& (63 - 2 ^ q)) (by decide)
  unfold Region.dropRequest
  dsimp only
  split
  · exact hwait.trans (Region.ringKept_dropGrant _)
  · exact hwait

/-- The end of a cluster's cycle changes the cluster and CLU.STALL_TIME (R75, R91). -/
theorem ringKept_tryEnd (s : State) (rg : Rg) (c : Cl) : RingKept (s.rgn rg) ((tryEnd s rg c).rgn rg) := by
  have hstall : RingKept (s.rgn rg) ((endStall s rg c).rgn rg) := by
    unfold endStall
    split
    · rw [State.rgn_bumpR_same]
      refine Region.ringKept_bump (s.rgn rg) (F.CLU_STALL_TIME_NS c.toNat) _ ⟨?_, ?_⟩ <;> simp <;> omega
    · exact .refl _
  unfold tryEnd
  dsimp only
  split
  · rw [State.setCl, State.rgn_onRgn_same]
    exact hstall.trans (ringKept_of_regs rfl rfl)
  · exact .refl _

/-! ### A restore reads the ring and leaves it as it stands (R137) -/

theorem Region.ringKept_afterRead (r : Region) (key : Nat) (e : Ecc) : RingKept r (r.afterRead key e) := ringKept_of_regs rfl rfl

/-- A read through the back port mends or counts errors; the words that the ring stores stand (R111). -/
theorem ringKept_backRead (s : State) (rg : Rg) (src : Nat) (ring : Bool) (a : Nat) (e : Ecc) :
    RingKept (s.rgn rg) ((backRead s rg src ring a e).1.rgn rg) := by
  unfold backRead
  dsimp only
  split
  case h_1 => exact .refl _
  case h_2 =>
    rw [State.rgn_noteFault, State.rgn_bumpR_same, State.rgn_onRgn_same]
    exact (Region.ringKept_afterRead _ _ _).trans (Region.ringKept_bump _ F.DMEM_ERR_CE 1 (by decide))
  case h_3 =>
    rw [State.rgn_onRgn_same, State.rgn_noteFault, State.rgn_bumpR_same, State.rgn_onRgn_same]
    exact ((Region.ringKept_afterRead _ _ _).trans (Region.ringKept_bump _ F.DMEM_ERR_UE 1 (by decide))).trans
      (Region.ringKept_setReg _ (a := R.DMEM_UE_LAST) _ (by decide))

theorem ringKept_ringError (s : State) (rg : Rg) (w : Nat) (cycle : BitVec 48) (e : Ecc) :
    RingKept (s.rgn rg) ((ringError s rg w cycle e).rgn rg) := by
  have hread := ringKept_backRead s rg 4 true w e
  unfold ringError
  cases e with
  | clean => exact hread
  | single => exact hread
  | uncorrectable =>
    dsimp only
    rw [State.setRf, State.rgn_onRgn_same]
    exact (hread.trans (State.ringKept_taintAt _ rg cycle _)).trans (Region.ringKept_setF _ F.RWD_STATUS_RESTORE_TAINT 1 (by decide))

theorem Region.ringKept_unwind (r : Region) (c h : BitVec 48) : RingKept r (r.unwind c h) :=
  RingKept.foldl (f := fun (r : Region) (x : Rec) => r.putDmem (bitsAt (r.payload x 0) 0 19) (r.payload x 1))
    (fun _ _ => ringKept_of_regs rfl rfl) _ r

theorem Region.ringKept_restoreFrom (r : Region) (p : Nat) (c : BitVec 48) : RingKept r (r.restoreFrom p c) := by
  have hclusters := RingKept.foldl (f := fun (x : Region) i => x.setCl (BitVec.ofNat 4 i) (r.restoreCl p (c.toNat % 2) i))
    (fun _ _ => ringKept_of_regs rfl rfl) (List.range 16) r
  unfold Region.restoreFrom
  exact ((hclusters.trans (Region.ringKept_set48 _ c (by decide) (by decide))).trans
    (Region.ringKept_setF _ F.RWD_STATUS_SNAP_PENDING 0 (by decide))).trans (ringKept_of_regs rfl rfl)

theorem ringKept_restoreErrors (s : State) (rg : Rg) (p : Nat) (c h : BitVec 48) :
    RingKept (s.rgn rg) ((restoreErrors s rg p c h).rgn rg) :=
  RingKept.foldS (fun s (u : Nat × Ecc) => ringKept_ringError s rg u.1 _ u.2) _ s

theorem ringKept_restoreRegion (s : State) (rg : Rg) (i : Nat) (c h : BitVec 48) :
    RingKept (s.rgn rg) ((restoreRegion s rg i c h).rgn rg) := by
  unfold restoreRegion
  dsimp only
  rw [State.rgn_onRgn_same]
  refine .trans (.trans ?_ (ringKept_restoreErrors _ rg _ c h)) (((Region.ringKept_unwind _ c h).trans
    (Region.ringKept_restoreFrom _ _ c)).trans (Region.ringKept_setF _ F.RWD_STATUS_MODE 2 (by decide)))
  rw [State.rgn_onRgn_same]
  exact ((s.rgn rg).ringKept_dropRequest 4).trans (ringKept_of_regs rfl rfl)

theorem ringKept_restoreIfIdle (s : State) (rg : Rg) : RingKept (s.rgn rg) ((restoreIfIdle s rg).rgn rg) := by
  unfold restoreIfIdle
  split
  · split
    · exact ringKept_restoreRegion s rg _ _ _
    · exact .refl _
  · exact .refl _

/-! ### A record is appended (R132, R133) -/

theorem ringAppended_of_kept_before {r r' r'' : Region} {ws : List Entry} (h : RingKept r r') (ha : RingAppended r' r'' ws) :
    RingAppended r r'' ws := by
  rwa [RingAppended, h.ring, h.head, h.free] at ha

theorem ringAppended_of_kept_after {r r' r'' : Region} {ws : List Entry} (ha : RingAppended r r' ws) (h : RingKept r' r'') :
    RingAppended r r'' ws := by
  rwa [RingAppended, h.ring, h.head, h.free]

theorem Region.ringAppended_append (r : Region) (ws : List Entry) : RingAppended r (r.append ws) ws := by
  have hhead : (r.f F.RWD_HEAD_WORD + ws.length) % ringSize < 2 ^ F.RWD_HEAD_WORD.w := Nat.mod_lt _ (by decide)
  have hfree : r.f F.RWD_FREE_WORDS - ws.length < 2 ^ F.RWD_FREE_WORDS.w :=
    (Nat.sub_le _ _).trans_lt (F.RWD_FREE_WORDS.of_lt _)
  refine ⟨rfl, ?_, ?_⟩
  · unfold Region.append
    dsimp only
    rw [Region.f_setF_apart _ _ F.RWD_HEAD_WORD (by simp [Fld.fits]) (.inl (by decide)),
      Region.f_setF_same _ F.RWD_HEAD_WORD (by simp [Fld.fits])]
    exact Nat.mod_eq_of_lt hhead
  · unfold Region.append
    dsimp only
    rw [Region.f_setF_same _ F.RWD_FREE_WORDS (by simp [Fld.fits])]
    exact Nat.mod_eq_of_lt hfree

/-- A record that fits goes to the ring whole, at HEAD. -/
theorem ringAppended_ringWrite {s : State} {rg : Rg} (cycle : BitVec 48) {ws : List Entry}
    (hfull : (s.rgn rg).f F.RWD_STATUS_FULL = 0) (hfits : ws.length ≤ (s.rgn rg).f F.RWD_FREE_WORDS) :
    RingAppended (s.rgn rg) ((ringWrite s rg cycle ws).rgn rg) ws := by
  have hroom : ¬ ((s.rgn rg).bit F.RWD_STATUS_FULL = true ∨ (s.rgn rg).f F.RWD_FREE_WORDS < ws.length) := by
    simp [Region.bit, hfull, hfits]
  refine ringAppended_of_kept_after ((s.rgn rg).ringAppended_append ws) ?_
  have hlow := ringKept_lowCheck (s.setRgn rg ((s.rgn rg).append ws)) rg (s.rgn rg)
  rw [State.rgn_setRgn_same] at hlow
  unfold ringWrite
  dsimp only
  rwa [if_neg hroom]

/-! ### A grant of the trace writer (R115) -/

theorem Region.markerDue_of_ringReady {r : Region} {n : Nat} (h : RingReady r n) : r.markerDue = false := by
  obtain ⟨hfull, -, hbranch, hgap⟩ := h
  simp [Region.markerDue, Region.gapFits, Region.bit, hfull, hbranch, hgap]

/-- The trace writer, as the owner of the port and with no marker due, writes its record and frees the port. -/
theorem traceGrant_of_owner {s : State} {rg : Rg} (howner : s.rf rg F.DMEM_STATUS_OWNER = 4)
    (hdue : (s.rgn rg).markerDue = false) (f : State → State) : traceGrant s rg f = (f s).onRgn rg Region.dropGrant := by
  have hmarkers : writeMarkers s rg = s := by simp [writeMarkers, hdue]
  have hask : askPort s rg 4 = (s, true) := if_pos howner
  simp [traceGrant, hmarkers, hdue, usePort, hask]

/-! ### The words of a TRACE record (R129) -/

/-- Word 0 of the payload of a TRACE record. -/
def ProbeRec.word0 (x : ProbeRec) : Entry := BitVec.ofNat 64 (packKey [(x.num.toNat, 10), (x.c.toNat, 4), (x.stroke.toNat, 11)])

theorem ProbeRec.word0_toNat (x : ProbeRec) :
    x.word0.toNat = x.num.toNat + 2 ^ 10 * x.c.toNat + 2 ^ 14 * x.stroke.toNat := by
  simp only [ProbeRec.word0, packKey, BitVec.toNat_ofNat]
  omega

theorem ProbeRec.bitsAt_word0_toNat (x : ProbeRec) (lo w : Nat) :
    (bitsAt x.word0 lo w).toNat = (x.num.toNat + 2 ^ 10 * x.c.toNat + 2 ^ 14 * x.stroke.toNat) / 2 ^ lo % 2 ^ w := by
  rw [bitsAt, BitVec.toNat_ofNat, x.word0_toNat]

theorem ProbeRec.word0_probe (x : ProbeRec) : bitsAt x.word0 0 10 = x.num :=
  BitVec.eq_of_toNat_eq (by rw [x.bitsAt_word0_toNat]; omega)

theorem ProbeRec.word0_cluster (x : ProbeRec) : bitsAt x.word0 10 4 = x.c :=
  BitVec.eq_of_toNat_eq (by rw [x.bitsAt_word0_toNat]; omega)

theorem ProbeRec.word0_stroke (x : ProbeRec) : bitsAt x.word0 14 11 = x.stroke :=
  BitVec.eq_of_toNat_eq (by rw [x.bitsAt_word0_toNat]; omega)

theorem ProbeRec.word0_reserved (x : ProbeRec) : bitsAt x.word0 25 39 = (0 : BitVec 39) :=
  BitVec.eq_of_toNat_eq (by simp [x.bitsAt_word0_toNat]; omega)

/-- The record of a TRACE, its header first. -/
def ProbeRec.words (x : ProbeRec) (rpl : Bool) : List Entry := [recHeader x.cycle 2 rpl 6, x.word0, x.data]

/-- The state with `xs` as the probe records that the trace writer of region `rg` holds. -/
def State.setProbes (s : State) (rg : Rg) (xs : List ProbeRec) : State :=
  s.onRgn rg (fun r => { r with rwd := { r.rwd with probes := xs } })

theorem State.ringKept_setProbes (s : State) (rg : Rg) (xs : List ProbeRec) : RingKept (s.rgn rg) ((s.setProbes rg xs).rgn rg) := by
  rw [State.setProbes, State.rgn_onRgn_same]
  exact ringKept_of_regs rfl rfl

/-- The oldest probe record leaves the buffer for the ring, and its PROBE is performed (R104, R129). -/
theorem writeTrace_of_cons {s : State} {rg : Rg} {x : ProbeRec} {xs : List ProbeRec} (h : (s.rgn rg).rwd.probes = x :: xs) :
    writeTrace s rg =
      tryEnd ((ringWrite (s.setProbes rg xs) rg x.cycle (x.words (s.rgn rg).replaying)).onCl rg x.c
        (fun k => { k with probeOut := k.probeOut - 1 })) rg x.c := by
  unfold writeTrace
  dsimp only
  rw [h]
  rfl

theorem ringAppended_writeTrace {s : State} {rg : Rg} {x : ProbeRec} {xs : List ProbeRec}
    (hprobes : (s.rgn rg).rwd.probes = x :: xs) (hready : RingReady (s.rgn rg) 3) :
    RingAppended (s.rgn rg) ((writeTrace s rg).rgn rg) (x.words (s.rgn rg).replaying) := by
  obtain ⟨hfull, hfits, -, -⟩ := hready
  have htaken := s.ringKept_setProbes rg xs
  have hfull' : ((s.setProbes rg xs).rgn rg).f F.RWD_STATUS_FULL = 0 := by
    rw [State.setProbes, State.rgn_onRgn_same]; exact hfull
  have hwrite := ringAppended_ringWrite x.cycle (ws := x.words (s.rgn rg).replaying) hfull' (by rw [htaken.free]; exact hfits)
  rw [writeTrace_of_cons hprobes]
  refine ringAppended_of_kept_after (ringAppended_of_kept_before htaken hwrite) (.trans ?_ (ringKept_tryEnd _ rg x.c))
  rw [State.onCl, State.setCl, State.rgn_onRgn_same]
  exact ringKept_of_regs rfl rfl

/-- Settles O51: the grant appends the record's words, and what follows it, the end of the grant and a restore that waited for it,
leaves the ring alone. -/
theorem traceRecordWords : Obligations.TraceRecordWords := by
  unfold Obligations.TraceRecordWords
  intro rg x xs s ⟨hprobes, howner, hready⟩
  have hgrant := traceGrant_of_owner howner (Region.markerDue_of_ringReady hready) (fun s => writeTrace s rg)
  have happended : RingAppended (s.rgn rg)
      ((restoreIfIdle ((writeTrace s rg).onRgn rg Region.dropGrant) rg).rgn rg) (x.words (s.rgn rg).replaying) := by
    refine ringAppended_of_kept_after (ringAppended_writeTrace hprobes hready) (.trans ?_ (ringKept_restoreIfIdle _ rg))
    rw [State.rgn_onRgn_same]
    exact Region.ringKept_dropGrant _
  refine ⟨_, ?_, _, _, _, happended, x.word0_probe, x.word0_cluster, x.word0_stroke, x.word0_reserved, rfl⟩
  rw [← hgrant]
  exact congrArg Host.Outcome.next (if_neg (by simp [hprobes]))

end Sys2Proof.Machine
end

section
/-! PROOFS. The refusal of a readback (R232, R234), and what a package reset leaves of the hub SRAM and the staging window (R22, R234). -/

namespace Sys2Proof.Machine

/-! ### A readback that is refused -/

/-- The state with the operands of a READBACK in RTC.RB_CMD. -/
def State.setRbCmd (s : State) (kind : BitVec 2) (rg : Rg) : State :=
  ((s.setF F.RTC_RB_CMD_KIND kind.toNat).setF F.RTC_RB_CMD_QUAD (quadOf rg)).setF F.RTC_RB_CMD_RGN (numOf rg)

theorem State.f_setRbCmd_ne (s : State) (kind : BitVec 2) (rg : Rg) (g : Fld) (h : g.off ≠ R.RTC_RB_CMD) :
    (s.setRbCmd kind rg).f g = s.f g := by
  simp only [State.setRbCmd, State.setF, State.f_setReg_ne _ g _ h]

/-- Canvas configuration may not leave the package once an encrypted load or partial has been taken. -/
theorem exec_readback_configuration {s : State} (rg : Rg) (henc : s.f F.CFG_STATUS_ENC = 1 ∨ s.f F.RTC_STATUS_ENC_SEEN = 1) :
    exec (.readback 2 rg) s = .next ((s.setRbCmd 2 rg).setF F.RTC_RB_STATUS_REFUSED 1) := by
  have hseen : (s.setRbCmd 2 rg).bit F.CFG_STATUS_ENC ∨ (s.setRbCmd 2 rg).bit F.RTC_STATUS_ENC_SEEN := by
    rw [State.bit, State.bit, s.f_setRbCmd_ne 2 rg _ (by decide), s.f_setRbCmd_ne 2 rg _ (by decide)]
    exact henc.imp (by simp [·]) (by simp [·])
  exact congrArg Host.Outcome.next (if_pos (.inr ⟨rfl, hseen⟩))

/-! ### What a package reset leaves in the hub's memories -/

/-- What every step of a fold keeps, the fold keeps. -/
theorem foldS_keeps {α β : Type} (g : State → β) {f : State → α → State} (hf : ∀ s a, g (f s a) = g s) (l : List α) (s : State) :
    g (foldS l s f) = g s := by
  induction l generalizing s with
  | nil => rfl
  | cons a l ih => exact (ih (f s a)).trans (hf s a)

/-- The state of a die-to-die link stands in registers of regions only (R247). -/
theorem setD2d_frame (s : State) (q l v : Nat) : setD2d s q l v = { s with rgns := (setD2d s q l v).rgns } := by
  unfold setD2d
  dsimp only
  split <;> rfl

@[simp] theorem trainD2d_sram (s : State) (q l : Nat) : (trainD2d s q l).sram = s.sram := by
  rw [trainD2d, setD2d_frame]; rfl

@[simp] theorem trainD2d_load (s : State) (q l : Nat) : (trainD2d s q l).load = s.load := by
  rw [trainD2d, setD2d_frame]; rfl

/-- The package reset builds a state anew, and none of what it then sets or trains is in the hub SRAM. -/
theorem resetPackage_sram (s : State) (boot : Boot) : (resetPackage s boot).sram = [] := by
  unfold resetPackage
  dsimp only
  rw [foldS_keeps State.sram (fun n rg => by split <;> rfl), foldS_keeps State.sram (fun n i => trainD2d_sram n _ _)]
  rfl

/-- The loader is the one of a package that has received nothing: its staging window is empty. -/
theorem resetPackage_load (s : State) (boot : Boot) : (resetPackage s boot).load = {} := by
  unfold resetPackage
  dsimp only
  rw [foldS_keeps State.load (fun n rg => by split <;> rfl), foldS_keeps State.load (fun n i => trainD2d_load n _ _)]
  rfl

theorem exec_neighbourDrainEnd_of_packageReset {s : State} (h : s.drainOf 4 = .reset) :
    exec (.neighbourDrainEnd .package) s = .next (performPackageReset s) := by
  change execNeighbourDrainEnd .package s = _
  simp only [execNeighbourDrainEnd, h]

/-- Settles O52: a refusal writes RTC.RB_CMD and REFUSED alone, and a package reset builds its state with both memories empty. -/
theorem readbackOfConfiguration : Obligations.ReadbackOfConfiguration := by
  unfold Obligations.ReadbackOfConfiguration
  refine ⟨fun rg s henc => ⟨_, exec_readback_configuration rg henc, ?_, rfl, rfl, rfl⟩,
    fun s hreset => ⟨_, exec_neighbourDrainEnd_of_packageReset hreset, fun a => ?_, ?_⟩⟩
  · exact State.f_setF_same _ F.RTC_RB_STATUS_REFUSED (by simp [Fld.fits]) 1
  · rw [performPackageReset, resetPackage_sram, byteAt, SMap.get_nil]
  · rw [performPackageReset, resetPackage_load]

end Sys2Proof.Machine
end

section
/-! PROOFS. A router refuses what is routed to an isolated output or to ABSORB (R263), and what it needs of the packet plane: queues
(R244, R255), the header of a packet (R248) and the check of a flit that arrives undamaged (R249). -/

namespace Sys2Proof.Machine

/-! ### Queues of the packet plane -/

theorem netKey_ne_of_vc {e i v e' i' v' : Nat} (hv : v < 4) (hv' : v' < 4) (h : v ≠ v') : netKey e i v ≠ netKey e' i' v' := by
  unfold netKey; omega

@[simp] theorem State.queue_popNet_same (s : State) (k : Nat) (rest : List Packet) : (s.popNet k rest).queue k = rest :=
  SMap.get_set_same _ _ _ _

theorem State.queue_popNet_ne (s : State) {k j : Nat} (rest : List Packet) (h : j ≠ k) : (s.popNet k rest).queue j = s.queue j :=
  SMap.get_set_ne _ _ _ h

@[simp] theorem State.queue_pushNet_same (s : State) (e i : Nat) (p : Packet) :
    (s.pushNet e i p).queue (netKey e i p.vc.toNat) = s.queue (netKey e i p.vc.toNat) ++ [p] :=
  SMap.get_set_same _ _ _ _

theorem State.queue_pushNet_ne (s : State) {e i k : Nat} {p : Packet} (h : k ≠ netKey e i p.vc.toNat) :
    (s.pushNet e i p).queue k = s.queue k :=
  SMap.get_set_ne _ _ _ h

/-- An answer takes its fields from registers and from the request alone. -/
@[simp] theorem State.answer_popNet (s : State) (k : Nat) (rest : List Packet) (p : Packet) (cmd : BitVec 6) (cause : Nat)
    (data : List Flit) : (s.popNet k rest).answer p cmd cause data = s.answer p cmd cause data := rfl

@[simp] theorem State.queue_bumpR (s : State) (rg : Rg) (f : Fld) (n k : Nat) : (s.bumpR rg f n).queue k = s.queue k := rfl

/-! ### A flit without an upset passes its check (R249) -/

theorem hamming_zero {n : Nat} (ps : List Nat) (i : Nat) : hamming 0#n ps i = 0 := by
  induction ps generalizing i with
  | nil => rfl
  | cons q ps ih => simp [hamming, ih]

theorem parityOf_zero (n : Nat) : parityOf 0#n = false := by simp [parityOf]

theorem bitsAt_zero (n lo w : Nat) : bitsAt 0#n lo w = 0#w := by simp [bitsAt]

theorem flitCheck_zero : flitCheck 0#139 = (.clean, 0#130) := by
  simp [flitCheck, bitsAt_zero, hamming_zero, parityOf_zero, eccOf]

/-! ### The header flit spells the packet's fields (R248) -/

theorem header_toNat (p : Packet) :
    p.header.toNat = p.dest.toNat + 2 ^ 24 * p.src.toNat + 2 ^ 48 * p.cmd.toNat + 2 ^ 54 * p.tag.toNat + 2 ^ 64 * p.len.toNat +
      2 ^ 70 * p.epoch.toNat + 2 ^ 78 * p.vc.toNat + 2 ^ 80 * p.addr.toNat := by
  simp only [Packet.header, packKey, BitVec.toNat_ofNat]
  omega

theorem headerOf_header (p : Packet) : headerOf p.header p.data p.poison = p := by
  have hnum := header_toNat p
  have field {lo w : Nat} (x : BitVec w) (h : p.header.toNat / 2 ^ lo % 2 ^ w = x.toNat) : bitsAt p.header lo w = x :=
    BitVec.eq_of_toNat_eq ((BitVec.toNat_ofNat _ _).trans h)
  unfold headerOf
  rw [field p.dest (by omega), field p.src (by omega), field p.cmd (by omega), field p.tag (by omega), field p.len (by omega),
    field p.epoch (by omega), field p.vc (by omega), field p.addr (by omega)]

/-- A packet without an upset is taken as it stands, and its check counts nothing. -/
theorem checkPacket_of_noUpset (s : State) (el : Element) (d2d : Option Nat) (p : Packet) :
    checkPacket s el d2d p 0#139 [] = (s, some p) := by
  simp [checkPacket, flitCheck_zero, bitsAt_zero, checkFlits, headerOf_header]

/-! ### A header leaves an input of a router -/

@[simp] theorem tableEcc_clean (s : State) (rg : Rg) (tbl index : Nat) : tableEcc s rg .clean tbl index = s := rfl

/-- A header without an upset: the command does what the router does with the packet, where that takes it from the input. -/
theorem exec_headerFlitRoute_of_noUpset {s t : State} {rg : Rg} {inp : BitVec 3} {vc : BitVec 2} {p : Packet} {rest : List Packet}
    (hhead : s.queue (netKey rg.toNat inp.toNat vc.toNat) = p :: rest) (hrun : s.rf rg F.NOC_STATUS_DRAINING = 0)
    (hbehind : s.behind (netKey rg.toNat inp.toNat vc.toNat) = 0)
    (hmove : routerHead s rg inp.toNat p (netKey rg.toNat inp.toNat vc.toNat) rest false = t)
    (hleft : t.queue (netKey rg.toNat inp.toNat vc.toNat) = rest) :
    exec (.headerFlitRoute rg inp vc 0 [] .clean) s = .next t := by
  have hgoes : ¬ (s.rbit rg F.NOC_STATUS_DRAINING ∨ s.behind (netKey rg.toNat inp.toNat vc.toNat) ≠ 0) := by
    simp [State.rbit, hrun, hbehind]
  have hbad : (Ecc.clean == Ecc.uncorrectable) = false := rfl
  have hmoved : t.queue (netKey rg.toNat inp.toNat vc.toNat) ≠ p :: rest := by
    rw [hleft]; exact (List.cons_ne_self p rest).symm
  change execHeaderFlitRoute rg inp vc 0#139 [] .clean s = .next t
  simp only [execHeaderFlitRoute, hhead, if_neg hgoes, checkPacket_of_noUpset, tableEcc_clean, hbad]
  split <;> rw [hmove, if_neg hmoved]

/-! ### What a router does with a packet that it refuses (R263) -/

theorem refuse_response {p : Packet} (hresp : p.isResp = true) (s : State) (rg : Rg) (cause : Nat) :
    refuse s (.router rg) p cause = s.bumpR rg F.NOC_REFUSE_ABSORBED 1 := if_pos hresp

theorem refuse_request {p : Packet} (hreq : p.isResp = false) (hanswered : p.unanswered = false) (s : State) (rg : Rg) (cause : Nat) :
    refuse s (.router rg) p cause =
      (s.pushNet rg.toNat (ownInput (.router rg)) (s.answer p 0x12 cause [])).bumpR rg F.NOC_REFUSE_ABSORBED 1 := by
  simp [refuse, hreq, hanswered, countRefused, elemNo]

theorem queue_refuse_request_same {p : Packet} (hreq : p.isResp = false) (hanswered : p.unanswered = false) (s : State) (rg : Rg)
    (cause : Nat) :
    (refuse s (.router rg) p cause).queue (netKey rg.toNat (ownInput (.router rg)) 2) =
      s.queue (netKey rg.toNat (ownInput (.router rg)) 2) ++ [s.answer p 0x12 cause []] := by
  rw [refuse_request hreq hanswered, State.queue_bumpR]
  exact s.queue_pushNet_same rg.toNat (ownInput (.router rg)) (s.answer p 0x12 cause [])

theorem queue_refuse_request_ne {p : Packet} (hreq : p.isResp = false) (hanswered : p.unanswered = false) (s : State) {rg : Rg}
    (cause : Nat) {k : Nat} (h : k ≠ netKey rg.toNat (ownInput (.router rg)) 2) :
    (refuse s (.router rg) p cause).queue k = s.queue k := by
  rw [refuse_request hreq hanswered, State.queue_bumpR]
  exact s.queue_pushNet_ne h

theorem arrived_refuse_request {p : Packet} (hreq : p.isResp = false) (hanswered : p.unanswered = false) (s : State) (rg : Rg)
    (cause : Nat) : (refuse s (.router rg) p cause).arrived = s.arrived := by
  rw [refuse_request hreq hanswered]; rfl

theorem rf_bumpR_refuseAbsorbed (s : State) (rg : Rg) :
    (s.bumpR rg F.NOC_REFUSE_ABSORBED 1).rf rg F.NOC_REFUSE_ABSORBED =
      min (s.rf rg F.NOC_REFUSE_ABSORBED + 1) F.NOC_REFUSE_ABSORBED.max := by
  rw [State.rf, State.rgn_bumpR_same]
  exact Region.f_bump_same _ F.NOC_REFUSE_ABSORBED (by simp [Fld.fits]) 1

/-- A response is discarded, which needs no room for an answer. -/
theorem State.answerRoom_response (s : State) (el : Element) {p : Packet} (hresp : p.isResp = true) :
    s.answerRoom el p = true := by simp [State.answerRoom, hresp]

/-- There is room for an answer while fewer than 8 flits wait at the element's own response input (R255). -/
theorem State.answerRoom_of_waiting {s : State} {el : Element} (p : Packet)
    (hroom : s.waiting (netKey (elemNo el) (ownInput el) 2) < 8) : s.answerRoom el p = true := by
  have hfree : s.hasRoom (elemNo el) (ownInput el) (s.answer p 0x12 0 []) = true := decide_eq_true hroom
  rw [State.answerRoom, hfree, Bool.or_true]

/-! ### A header routed to an isolated output, or to ABSORB -/

/-- Output `o` of router `rg` is ABSORB or isolated. -/
abbrev OutputIsolated (s : State) (rg : Rg) (o : Nat) : Prop := o = 6 ∨ (o ≠ 4 ∧ (s.rf rg F.NOC_ISO_OUT).testBit o = true)

/-- The packet is taken from its queue and refused. -/
theorem routerHead_of_isolated {s : State} {rg : Rg} {p : Packet} {o : Nat} {re : Bool}
    (hroute : (overrideOf (s.rgn rg) p.dest none).getD (routeOut s rg p.dest, false) = (o, re)) (hiso : OutputIsolated s rg o)
    (hroom : s.answerRoom (.router rg) p = true) (inp key : Nat) (rest : List Packet) :
    routerHead s rg inp p key rest false = refuse (s.popNet key rest) (.router rg) p s.absorbCause := by
  calc routerHead s rg inp p key rest false
      = routerMove s rg inp o re p key rest := by simp only [routerHead, Bool.false_eq_true, if_false, hroute]
    _ = refuseFrom s (fun s => s.popNet key rest) (.router rg) p s.absorbCause := if_pos hiso
    _ = refuse (s.popNet key rest) (.router rg) p s.absorbCause := if_pos hroom

/-- A request is answered into another queue than it leaves: the router's own response input, of the other virtual channel. -/
theorem headerFlitRoute_isolated_request {s : State} {rg : Rg} {inp : BitVec 3} {vc : BitVec 2} {o : Nat} {re : Bool} {p : Packet}
    {rest : List Packet} (hhead : s.queue (netKey rg.toNat inp.toNat vc.toNat) = p :: rest) (hvc : vc ≠ 2)
    (hrun : s.rf rg F.NOC_STATUS_DRAINING = 0) (hbehind : s.behind (netKey rg.toNat inp.toNat vc.toNat) = 0)
    (hroute : (overrideOf (s.rgn rg) p.dest none).getD (routeOut s rg p.dest, false) = (o, re)) (hiso : OutputIsolated s rg o)
    (hreq : p.isResp = false) (hanswered : p.unanswered = false)
    (hroom : s.waiting (netKey rg.toNat (ownInput (.router rg)) 2) < 8) :
    Completes (.headerFlitRoute rg inp vc 0 [] .clean) s (fun t => t.queue (netKey rg.toNat inp.toNat vc.toNat) = rest ∧
      t.arrived = s.arrived ∧ t.queue (netKey rg.toNat (ownInput (.router rg)) 2) =
        s.queue (netKey rg.toNat (ownInput (.router rg)) 2) ++ [s.answer p 0x12 s.absorbCause []]) := by
  have hother : netKey rg.toNat inp.toNat vc.toNat ≠ netKey rg.toNat (ownInput (.router rg)) 2 :=
    netKey_ne_of_vc vc.isLt (by decide) (fun h => hvc (BitVec.eq_of_toNat_eq h))
  have hmove := routerHead_of_isolated hroute hiso (State.answerRoom_of_waiting p hroom) inp.toNat
    (netKey rg.toNat inp.toNat vc.toNat) rest
  have hleft := (queue_refuse_request_ne hreq hanswered _ s.absorbCause hother).trans (s.queue_popNet_same _ rest)
  refine ⟨_, exec_headerFlitRoute_of_noUpset hhead hrun hbehind hmove hleft, hleft, ?_, ?_⟩
  · rw [arrived_refuse_request hreq hanswered]; rfl
  · rw [queue_refuse_request_same hreq hanswered, s.queue_popNet_ne rest hother.symm, State.answer_popNet]

theorem headerFlitRoute_isolated_response {s : State} {rg : Rg} {inp : BitVec 3} {vc : BitVec 2} {o : Nat} {re : Bool} {p : Packet}
    {rest : List Packet} (hhead : s.queue (netKey rg.toNat inp.toNat vc.toNat) = p :: rest)
    (hrun : s.rf rg F.NOC_STATUS_DRAINING = 0) (hbehind : s.behind (netKey rg.toNat inp.toNat vc.toNat) = 0)
    (hroute : (overrideOf (s.rgn rg) p.dest none).getD (routeOut s rg p.dest, false) = (o, re)) (hiso : OutputIsolated s rg o)
    (hresp : p.isResp = true) :
    Completes (.headerFlitRoute rg inp vc 0 [] .clean) s (fun t => t.queue (netKey rg.toNat inp.toNat vc.toNat) = rest ∧
      t.arrived = s.arrived ∧ t.rf rg F.NOC_REFUSE_ABSORBED = min (s.rf rg F.NOC_REFUSE_ABSORBED + 1) F.NOC_REFUSE_ABSORBED.max) := by
  have hmove := routerHead_of_isolated hroute hiso (s.answerRoom_response (.router rg) hresp) inp.toNat
    (netKey rg.toNat inp.toNat vc.toNat) rest
  rw [refuse_response hresp] at hmove
  have hleft := s.queue_popNet_same (netKey rg.toNat inp.toNat vc.toNat) rest
  exact ⟨_, exec_headerFlitRoute_of_noUpset hhead hrun hbehind hmove hleft, hleft, rfl, rf_bumpR_refuseAbsorbed _ rg⟩

/-- Settles O53: a request with the answer that its router queues, and a response with the count. -/
theorem isolatedOutputs : Obligations.IsolatedOutputs := by
  unfold Obligations.IsolatedOutputs
  exact ⟨fun rg inp vc o re p rest s ⟨hhead, hvc, hrun, hbehind⟩ hroute hiso ⟨hreq, hanswered⟩ hroom =>
      headerFlitRoute_isolated_request hhead hvc hrun hbehind hroute hiso hreq hanswered hroom,
    fun rg inp vc o re p rest s ⟨hhead, hrun, hbehind⟩ hroute hiso hresp =>
      headerFlitRoute_isolated_response hhead hrun hbehind hroute hiso hresp⟩

end Sys2Proof.Machine
end

section
/-! PROOFS. An easel core performs an instruction that only changes the core: what the step makes of the core, and what it leaves
alone (R331, R341, R343). -/

namespace Sys2Proof.Machine

/-! ### Nothing but a core and its counts -/

theorem OnlyCore.refl (rg : Rg) (k : CoreNo) (s : State) : OnlyCore rg k s s :=
  ⟨⟨rfl, fun _ _ => rfl⟩, ⟨rfl, rfl, rfl, rfl, rfl, rfl, rfl, rfl⟩, fun _ _ => rfl, fun _ _ _ => rfl⟩

theorem OnlyCore.trans {rg : Rg} {k : CoreNo} {s t u : State} (h : OnlyCore rg k s t) (h' : OnlyCore rg k t u) : OnlyCore rg k s u := by
  obtain ⟨⟨hstate, hrgns⟩, ⟨g1, g2, g3, g4, g5, g6, g7, g8⟩, heas, hregs⟩ := h
  obtain ⟨⟨hstate', hrgns'⟩, ⟨g1', g2', g3', g4', g5', g6', g7', g8'⟩, heas', hregs'⟩ := h'
  have hboth : u = { { s with drawn := u.drawn } with rgns := u.rgns } :=
    hstate'.trans (congrArg (fun x : State => { { x with drawn := u.drawn } with rgns := u.rgns }) hstate)
  exact ⟨⟨hboth, fun rh hne => (hrgns' rh hne).trans (hrgns rh hne)⟩,
    ⟨g1'.trans g1, g2'.trans g2, g3'.trans g3, g4'.trans g4, g5'.trans g5, g6'.trans g6, g7'.trans g7, g8'.trans g8⟩,
    fun i hne => (heas' i hne).trans (heas i hne), fun a hinsn hstall => (hregs' a hinsn hstall).trans (hregs a hinsn hstall)⟩

theorem onlyCore_setEas (s : State) (rg : Rg) (k : CoreNo) (e : Easel) : OnlyCore rg k s (s.setEas rg k e) := by
  have hrgn : (s.setEas rg k e).rgn rg = (s.rgn rg).setEas k e := State.rgn_onRgn_same s rg _
  refine ⟨⟨rfl, fun rh hne => State.rgn_onRgn_ne s _ hne⟩, ?_, fun i hne => ?_, fun a _ _ => ?_⟩
  · rw [hrgn]; exact ⟨rfl, rfl, rfl, rfl, rfl, rfl, rfl, rfl⟩
  · rw [State.eas, hrgn]; exact Region.eas_setEas_ne _ e hne
  · rw [hrgn]; rfl

theorem onlyCore_draw (s : State) (rg : Rg) (k : CoreNo) (w : Nat) : OnlyCore rg k s (s.draw w).2 :=
  ⟨⟨rfl, fun _ _ => rfl⟩, ⟨rfl, rfl, rfl, rfl, rfl, rfl, rfl, rfl⟩, fun _ _ => rfl, fun _ _ _ => rfl⟩

/-- The two counts that an instruction of core `k` raises (R362). -/
abbrev PerfCount (k : CoreNo) (f : Fld) : Prop := f = F.EAS_PERF_INSN_COUNT k.val ∨ f = F.EAS_PERF_STALL_COUNT k.val

theorem onlyCore_bumpR (s : State) (rg : Rg) {k : CoreNo} {f : Fld} (hf : PerfCount k f) (n : Nat) :
    OnlyCore rg k s (s.bumpR rg f n) := by
  refine ⟨⟨rfl, fun rh hne => State.rgn_onRgn_ne s _ hne⟩, ?_, fun i _ => ?_, fun a hinsn hstall => ?_⟩
  · rw [State.rgn_bumpR_same]; exact ⟨rfl, rfl, rfl, rfl, rfl, rfl, rfl, rfl⟩
  · rw [State.eas, State.rgn_bumpR_same]; rfl
  · have hoff : a ≠ f.off := by
      rcases hf with rfl | rfl
      · exact hinsn
      · exact hstall
    rw [State.rgn_bumpR_same]; exact Region.reg_setReg_ne _ _ hoff

@[simp] theorem State.eas_bumpR (s : State) (rg : Rg) (f : Fld) (n : Nat) (k : CoreNo) : (s.bumpR rg f n).eas rg k = s.eas rg k := by
  rw [State.eas, State.rgn_bumpR_same]; rfl

/-! ### An instruction ends (R341, R343) -/

/-- The state from which the stalls of an instruction are counted: a bus takes a free number of cycles. -/
def Easel.stallDraw (e : Easel) (w : Word) (s : State) : State := (if e.busStalls w then s.draw 32 else (0, s)).2

theorem Easel.eas_stallDraw (e : Easel) (w : Word) (s : State) (rg : Rg) (k : CoreNo) : (e.stallDraw w s).eas rg k = s.eas rg k := by
  unfold Easel.stallDraw; split <;> rfl

theorem Easel.onlyCore_stallDraw (e : Easel) (w : Word) (s : State) (rg : Rg) (k : CoreNo) : OnlyCore rg k s (e.stallDraw w s) := by
  unfold Easel.stallDraw
  split
  · exact onlyCore_draw s rg k 32
  · exact OnlyCore.refl rg k s

/-- What the count of the stalls leaves of a core: hazards, patch writes that are nearer to their fetches, and no fetched word. -/
def Easel.stalled (e : Easel) (h : Hazard) (n : Nat) : Easel := { e with haz := h, fetched := none }.cycles n

theorem countStalls_eq (s : State) (rg : Rg) (k : CoreNo) (e : Easel) (w : Word) (jumps : Bool) : ∃ (h : Hazard) (n stalls : Nat),
    countStalls s rg k e w jumps =
      ((e.stallDraw w s).onEas rg k (fun x => x.stalled h n)).bumpR rg (F.EAS_PERF_STALL_COUNT k.val) stalls :=
  ⟨_, _, _, rfl⟩

theorem Easel.complete_of_levelAt_none {e : Easel} (hend : e.levelAt e.pc = none) (hlate : e.lateW = []) (ie : Bool) :
    e.complete ie none = { e with pc := e.pc + 1, dbg := { e.dbg with pass := none } } := by
  have hage : e.age = e := by
    unfold Easel.age
    rw [hlate]
    exact congrArg (fun l => { e with lateW := l }) hlate.symm
  have hstay : (if e.ie = ie then e.levelAt e.pc else none) = none := by rw [hend, ite_self]
  simp only [Easel.complete, hstay, hage, Option.getD_none]

theorem boundary_of_quiet {s : State} {rg : Rg} {k : CoreNo} (hstep : (s.eas rg k).dbg.stepping = false)
    (hreq : (s.eas rg k).dbg.haltReq = false) : boundary s rg k = s := by simp [boundary, hstep, hreq]

/-- The state after the instruction at PC has completed where no loop ends, no late write is due and the debug port is quiet. -/
theorem retire_of_quiet {s : State} {rg : Rg} {k : CoreNo} (hend : (s.eas rg k).levelAt (s.eas rg k).pc = none)
    (hlate : (s.eas rg k).lateW = []) (hstep : (s.eas rg k).dbg.stepping = false) (hreq : (s.eas rg k).dbg.haltReq = false) (ie : Bool) :
    retire s rg k ie none =
      (s.setEas rg k { s.eas rg k with pc := (s.eas rg k).pc + 1, dbg := { (s.eas rg k).dbg with pass := none } }).bumpR rg
        (F.EAS_PERF_INSN_COUNT k.val) 1 := by
  unfold retire
  rw [State.onEas, Easel.complete_of_levelAt_none hend hlate]
  exact boundary_of_quiet (by simpa using hstep) (by simpa using hreq)

/-! ### An instruction is performed -/

/-- The core `e'` differs from `e` in its registers, its pointers and its memories alone. -/
def Easel.OnlyData (e e' : Easel) : Prop := e' = { e with r := e'.r, ptr := e'.ptr, x := e'.x, y := e'.y }

theorem easStep_of_coreAt {s t : State} {rg : Rg} {k : CoreNo} {op : Nat} {f : State → Word → Did} (hat : CoreAt s rg k op)
    (hop : isOpcode op = true) (hf : f s (coreWord s rg k) = .done t none) :
    easStep s rg k op f = retire (countStalls t rg k (s.eas rg k) (coreWord s rg k) false) rg k (s.eas rg k).ie none := by
  obtain ⟨hruns, hpc, hword, hend, -⟩ := hat
  have hbelow : ¬ 0x6000 ≤ (s.eas rg k).pc.toNat := by omega
  simp [easStep, hruns, hbelow, hword, hop, hend, hf]

/-- An instruction that changes no more than registers, pointers and memories of its core, and does not jump. -/
theorem easStep_coreStep {s : State} {rg : Rg} {k : CoreNo} {op : Nat} {f : State → Word → Did} {e : Easel} (hat : CoreAt s rg k op)
    (hop : isOpcode op = true) (hf : f s (coreWord s rg k) = .done (s.setEas rg k e) none) (hdata : (s.eas rg k).OnlyData e) :
    CoreStep s (easStep s rg k op f) rg k e ∧ OnlyCore rg k s (easStep s rg k op f) := by
  obtain ⟨h, n, stalls, hcount⟩ := countStalls_eq (s.setEas rg k e) rg k (s.eas rg k) (coreWord s rg k) false
  have hcore : (countStalls (s.setEas rg k e) rg k (s.eas rg k) (coreWord s rg k) false).eas rg k = e.stalled h n := by
    rw [hcount, State.eas_bumpR, State.eas_onEas_same, Easel.eas_stallDraw, State.eas_setEas_same]
  have hstalls : OnlyCore rg k s (countStalls (s.setEas rg k e) rg k (s.eas rg k) (coreWord s rg k) false) := by
    rw [hcount]
    exact (((onlyCore_setEas s rg k e).trans (Easel.onlyCore_stallDraw _ _ _ rg k)).trans (onlyCore_setEas _ rg k _)).trans
      (onlyCore_bumpR _ rg (.inr rfl) stalls)
  rw [easStep_of_coreAt hat hop hf]
  obtain ⟨-, -, -, hend, hlate, hstep, hreq⟩ := hat
  generalize countStalls (s.setEas rg k e) rg k (s.eas rg k) (coreWord s rg k) false = t at hcore hstalls ⊢
  rw [Easel.OnlyData] at hdata
  rw [retire_of_quiet (by rw [hcore, hdata]; exact hend) (by rw [hcore, hdata]; exact hlate) (by rw [hcore, hdata]; exact hstep)
    (by rw [hcore, hdata]; exact hreq)]
  refine ⟨?_, (hstalls.trans (onlyCore_setEas t rg k _)).trans (onlyCore_bumpR _ rg (.inl rfl) 1)⟩
  rw [CoreStep, State.eas_bumpR, State.eas_setEas_same, hcore, hdata]
  rfl

/-! ### What a core reads as after its step -/

section
variable {s t : State} {rg : Rg} {k : CoreNo} {e : Easel}

theorem CoreStep.get (h : CoreStep s t rg k e) (n : Nat) : (t.eas rg k).get n = e.get n := by rw [h]; rfl
theorem CoreStep.p (h : CoreStep s t rg k e) (n : Nat) : (t.eas rg k).p n = e.p n := by rw [h]; rfl
theorem CoreStep.mem (h : CoreStep s t rg k e) (n : Nat) : (t.eas rg k).mem n = e.mem n := by rw [h]; rfl
theorem CoreStep.x (h : CoreStep s t rg k e) : (t.eas rg k).x = e.x := by rw [h]
theorem CoreStep.y (h : CoreStep s t rg k e) : (t.eas rg k).y = e.y := by rw [h]
theorem CoreStep.r (h : CoreStep s t rg k e) : (t.eas rg k).r = e.r := by rw [h]
theorem CoreStep.sr (h : CoreStep s t rg k e) : (t.eas rg k).sr = e.sr := by rw [h]
theorem CoreStep.pc (h : CoreStep s t rg k e) : (t.eas rg k).pc = (s.eas rg k).pc + 1 := by rw [h]

end

end Sys2Proof.Machine
end

section
/-! PROOFS. The easel's loads and stores (R335): the effective address, the bytes of a memory after a write, and registers one after
another. -/

namespace Sys2Proof.Machine

/-! ### Bytes of a memory -/

theorem Mem.read_lt (m : Mem) (a n : Nat) : Mem.read m a n < 256 ^ n := by
  induction n generalizing a with
  | zero => simp [Mem.read]
  | succ n ih =>
    have hbyte := (SMap.get (0 : BitVec 8) m a).isLt
    have hrest := ih (a + 1)
    rw [Mem.read, Nat.pow_succ]
    omega

/-- The first `n` of `n + j` bytes are the low part of their number, little-endian (R4). -/
theorem Mem.read_add (m : Mem) (a n j : Nat) : Mem.read m a (n + j) = Mem.read m a n + 256 ^ n * Mem.read m (a + n) j := by
  induction n generalizing a with
  | zero => simp [Mem.read]
  | succ n ih =>
    have hrest := ih (a + 1)
    rw [Nat.add_right_comm n 1 j, Mem.read, Mem.read, hrest, Nat.add_right_comm a 1 n, Nat.pow_succ]
    ring_nf

/-- A write of `n` bytes leaves every byte outside them alone. -/
theorem Mem.get_write_of_outside (m : Mem) (a n v : Nat) {b : Nat} (h : b < a ∨ a + n ≤ b) :
    SMap.get 0 (Mem.write m a n v) b = SMap.get 0 m b := by
  induction n generalizing m a v with
  | zero => rfl
  | succ n ih => rw [Mem.write, ih _ _ _ (by omega), SMap.get_set_ne _ _ _ (by omega)]

theorem Mem.read_write_same (m : Mem) (a n v : Nat) : Mem.read (Mem.write m a n v) a n = v % 256 ^ n := by
  induction n generalizing m a v with
  | zero => simp [Mem.read, Nat.mod_one]
  | succ n ih =>
    have hbyte : SMap.get 0 (Mem.write m a (n + 1) v) a = BitVec.ofNat 8 v := by
      rw [Mem.write, Mem.get_write_of_outside _ _ _ _ (by omega), SMap.get_set_same]
    have hpow : 256 ^ (n + 1) = 256 * 256 ^ n := Nat.pow_succ'
    rw [Mem.read, hbyte, Mem.write, ih, BitVec.toNat_ofNat, hpow]
    exact Nat.mod_mul.symm

/-- Halfword `i` of `n` is the two bytes at its own address. -/
theorem Mem.halfword_of_read (m : Mem) (a : Nat) {n i : Nat} (hi : i < n) :
    BitVec.ofNat 16 (Mem.read m a (2 * n) / 65536 ^ i) = BitVec.ofNat 16 (Mem.read m (a + 2 * i) 2) := by
  obtain ⟨j, rfl⟩ : ∃ j, n = i + (1 + j) := ⟨n - i - 1, by omega⟩
  have hbelow : Mem.read m a (2 * i) < 65536 ^ i := by simpa [Nat.pow_mul] using Mem.read_lt m a (2 * i)
  have hsplit : Mem.read m a (2 * (i + (1 + j))) = Mem.read m a (2 * i) + 65536 ^ i *
      (Mem.read m (a + 2 * i) 2 + 65536 * Mem.read m (a + 2 * i + 2) (2 * j)) := by
    rw [Nat.mul_add, Mem.read_add, Nat.mul_add 2 1 j, Mem.read_add, Nat.pow_mul]
    simp only [Nat.mul_one, Nat.reducePow]
  rw [hsplit, Nat.add_mul_div_left _ _ (by positivity), Nat.div_eq_of_lt hbelow, Nat.zero_add]
  apply BitVec.eq_of_toNat_eq
  simp only [BitVec.toNat_ofNat]
  omega

/-! ### Registers (R325, R326) -/

theorem insnRd_lt (w : Word) : insnRd w < 32 := Nat.mod_lt _ (by decide)

theorem physReg_inj {rb : BitVec 5} {i j : Nat} (hi : i < 32) (hj : j < 32) (h : physReg rb i = physReg rb j) : i = j := by
  unfold physReg at h
  split at h <;> split at h <;> omega

@[simp] theorem Easel.get_put_same (e : Easel) (n : Nat) (v : BitVec 16) : (e.put n v).get n = v := SMap.get_set_same 0 e.r _ v

theorem Easel.get_put_ne (e : Easel) {i n : Nat} (v : BitVec 16) (hi : i < 32) (hn : n < 32) (h : i ≠ n) :
    (e.put n v).get i = e.get i :=
  SMap.get_set_ne 0 e.r v (fun heq => h (physReg_inj hi hn heq))

theorem Easel.putMany_eq (e : Easel) (rd v n : Nat) : e.putMany rd v n = { e with r := (e.putMany rd v n).r } := by
  induction n generalizing e rd v with
  | zero => rfl
  | succ n ih => exact ih (e.put rd (BitVec.ofNat 16 v)) (rd + 1) (v / 65536)

theorem Easel.get_putMany_of_outside (e : Easel) {rd n i : Nat} (v : Nat) (hrd : rd + n ≤ 32) (hi : i < 32)
    (h : i < rd ∨ rd + n ≤ i) : (e.putMany rd v n).get i = e.get i := by
  induction n generalizing e rd v with
  | zero => rfl
  | succ n ih =>
    rw [Easel.putMany, ih _ _ (by omega) (by omega), Easel.get_put_ne e _ hi (by omega) (by omega)]

theorem Easel.get_putMany (e : Easel) {rd n i : Nat} (v : Nat) (hrd : rd + n ≤ 32) (hi : i < n) :
    (e.putMany rd v n).get (rd + i) = BitVec.ofNat 16 (v / 65536 ^ i) := by
  induction n generalizing e rd v i with
  | zero => omega
  | succ n ih =>
    rw [Easel.putMany]
    cases i with
    | zero => rw [Easel.get_putMany_of_outside _ _ (by omega) (by omega) (by omega)]; simp
    | succ i =>
      have hnext := ih (e.put rd (BitVec.ofNat 16 v)) (v / 65536) (rd := rd + 1) (i := i) (by omega) (by omega)
      rw [show rd + (i + 1) = rd + 1 + i by omega, hnext, Nat.div_div_eq_div_mul, Nat.pow_succ']

theorem Easel.getMany_one (e : Easel) (rd : Nat) : e.getMany rd 1 = (e.get rd).toNat := rfl

theorem Easel.getMany_two (e : Easel) (rd : Nat) : e.getMany rd 2 = (e.get rd).toNat + 65536 * (e.get (rd + 1)).toNat := rfl

theorem Easel.getMany_lt (e : Easel) (rd n : Nat) : e.getMany rd n < 65536 ^ n := by
  induction n generalizing rd with
  | zero => simp [Easel.getMany]
  | succ n ih =>
    have hlow := (e.get rd).isLt
    have hrest := ih (rd + 1)
    rw [Easel.getMany, Nat.pow_succ]
    omega

/-! ### Pointers and memories (R328, R334) -/

@[simp] theorem Easel.p_setP_same (e : Easel) (n : Nat) (v : BitVec 16) : (e.setP n v).p n = v := SMap.get_set_same 0 e.ptr n v

theorem Easel.p_setP_ne (e : Easel) {j n : Nat} (v : BitVec 16) (h : j ≠ n) : (e.setP n v).p j = e.p j :=
  SMap.get_set_ne 0 e.ptr v h

theorem Easel.mem_setMem_same (e : Easel) (p : Nat) (m : Mem) : (e.setMem p m).mem p = m := by
  unfold Easel.setMem Easel.mem; split <;> rfl

theorem Easel.setMem_eq (e : Easel) (p : Nat) (m : Mem) : e.setMem p m = { e with x := (e.setMem p m).x, y := (e.setMem p m).y } := by
  unfold Easel.setMem; split <;> rfl

theorem Easel.y_setMem (e : Easel) {p : Nat} (m : Mem) (h : p ≤ 3) : (e.setMem p m).y = e.y := by
  rw [Easel.setMem, if_pos (by omega)]

theorem Easel.x_setMem (e : Easel) {p : Nat} (m : Mem) (h : 3 < p) : (e.setMem p m).x = e.x := by
  rw [Easel.setMem, if_neg (by omega)]

/-! ### The effective address (R335) -/

section
variable (e : Easel) {w : Word}

theorem Easel.effective_of_mode0 (h : insnField w 16 2 = 0) : e.effective w = (e.p (insnField w 18 3) + insnImm w, e) := by
  simp [Easel.effective, h]

theorem Easel.effective_of_mode1 (h : insnField w 16 2 = 1) : e.effective w =
    (e.p (insnField w 18 3), e.setP (insnField w 18 3) (e.advance (insnField w 18 3) (insnImm w).toInt)) := by
  simp [Easel.effective, h]

theorem Easel.effective_of_mode2 (h : insnField w 16 2 = 2) : e.effective w =
    (e.advance (insnField w 18 3) (insnImm w).toInt, e.setP (insnField w 18 3) (e.advance (insnField w 18 3) (insnImm w).toInt)) := by
  simp [Easel.effective, h]

theorem Easel.effective_of_mode3 (h : insnField w 16 2 = 3) : e.effective w = (insnImm w, e) := by simp [Easel.effective, h]

end

/-- In every MODE the core is as it was, or pointer P has a new value. -/
theorem Easel.effective_core (e : Easel) (w : Word) : (e.effective w).2 = e ∨ ∃ v, (e.effective w).2 = e.setP (insnField w 18 3) v := by
  unfold Easel.effective
  dsimp only
  split
  · exact .inl rfl
  · exact .inr ⟨_, rfl⟩
  · exact .inr ⟨_, rfl⟩
  · exact .inl rfl

theorem Easel.effective_eq (e : Easel) (w : Word) : (e.effective w).2 = { e with ptr := (e.effective w).2.ptr } := by
  rcases e.effective_core w with h | ⟨v, h⟩
  · rw [h]
  · rw [h]; rfl

theorem Easel.p_effective_ne (e : Easel) (w : Word) {n : Nat} (hn : n ≠ insnField w 18 3) : (e.effective w).2.p n = e.p n := by
  rcases e.effective_core w with h | ⟨v, h⟩
  · rw [h]
  · rw [h, e.p_setP_ne v hn]

/-! ### The core after a load -/

/-- The `n` registers from RD on filled with the halfwords at EA. -/
def Easel.loaded (e : Easel) (w : Word) (n : Nat) : Easel :=
  (e.effective w).2.putMany (insnRd w) (Mem.read (e.mem (insnField w 18 3)) (e.effective w).1.toNat (2 * n)) n

theorem runLoad_of_aligned {n : Nat} {rg : Rg} {k : CoreNo} {s : State} {w : Word} (hrd : insnRd w % n = 0)
    (hea : ((s.eas rg k).effective w).1.toNat % (2 * n) = 0) :
    runLoad n rg k s w = .done (s.setEas rg k ((s.eas rg k).loaded w n)) none := by
  simp [runLoad, hrd, hea, Easel.loaded]

/-- The registers and the pointer are all that a load changes of the core. -/
theorem Easel.loaded_eq (e : Easel) (w : Word) (n : Nat) :
    e.loaded w n = { e with r := (e.loaded w n).r, ptr := (e.effective w).2.ptr } :=
  (Easel.putMany_eq _ _ _ n).trans (congrArg (fun c : Easel => { c with r := (e.loaded w n).r }) (e.effective_eq w))

theorem Easel.onlyData_loaded (e : Easel) (w : Word) (n : Nat) : e.OnlyData (e.loaded w n) := by
  rw [Easel.OnlyData, e.loaded_eq w n]

theorem Easel.p_loaded (e : Easel) (w : Word) (n i : Nat) : (e.loaded w n).p i = (e.effective w).2.p i := by
  rw [e.loaded_eq w n]; rfl

theorem Easel.get_loaded (e : Easel) {w : Word} {n i : Nat} (hrd : insnRd w + n ≤ 32) (hi : i < n) :
    (e.loaded w n).get (insnRd w + i) =
      BitVec.ofNat 16 (Mem.read (e.mem (insnField w 18 3)) ((e.effective w).1.toNat + 2 * i) 2) := by
  rw [Easel.loaded, Easel.get_putMany _ _ hrd hi, Mem.halfword_of_read _ _ hi]

theorem Easel.get_loaded_of_outside (e : Easel) {w : Word} {n i : Nat} (hrd : insnRd w + n ≤ 32) (hi : i < 32)
    (h : i < insnRd w ∨ insnRd w + n ≤ i) : (e.loaded w n).get i = e.get i := by
  rw [Easel.loaded, Easel.get_putMany_of_outside _ _ hrd hi h, e.effective_eq w]; rfl

/-! ### The core after a store -/

/-- The memory that P selects with the `n` registers from RD on at EA. -/
def Easel.stored (e : Easel) (w : Word) (n : Nat) : Easel :=
  (e.effective w).2.setMem (insnField w 18 3)
    (Mem.write (e.mem (insnField w 18 3)) (e.effective w).1.toNat (2 * n) (e.getMany (insnRd w) n))

theorem runStore_of_aligned {n : Nat} {rg : Rg} {k : CoreNo} {s : State} {w : Word} (hrd : insnRd w % n = 0)
    (hea : ((s.eas rg k).effective w).1.toNat % (2 * n) = 0) :
    runStore n rg k s w = .done (s.setEas rg k ((s.eas rg k).stored w n)) none := by
  simp [runStore, hrd, hea, Easel.stored]

/-- The memories and the pointer are all that a store changes of the core. -/
theorem Easel.stored_eq (e : Easel) (w : Word) (n : Nat) :
    e.stored w n = { e with ptr := (e.effective w).2.ptr, x := (e.stored w n).x, y := (e.stored w n).y } :=
  (Easel.setMem_eq _ _ _).trans
    (congrArg (fun c : Easel => { c with x := (e.stored w n).x, y := (e.stored w n).y }) (e.effective_eq w))

theorem Easel.onlyData_stored (e : Easel) (w : Word) (n : Nat) : e.OnlyData (e.stored w n) := by
  rw [Easel.OnlyData, e.stored_eq w n]

theorem Easel.p_stored (e : Easel) (w : Word) (n i : Nat) : (e.stored w n).p i = (e.effective w).2.p i := by
  rw [e.stored_eq w n]; rfl

theorem Easel.read_stored (e : Easel) (w : Word) (n : Nat) :
    Mem.read ((e.stored w n).mem (insnField w 18 3)) (e.effective w).1.toNat (2 * n) = e.getMany (insnRd w) n := by
  have hfits : e.getMany (insnRd w) n < 256 ^ (2 * n) := by simpa [Nat.pow_mul] using e.getMany_lt (insnRd w) n
  rw [Easel.stored, Easel.mem_setMem_same, Mem.read_write_same, Nat.mod_eq_of_lt hfits]

theorem Easel.get_mem_stored_of_outside (e : Easel) (w : Word) (n : Nat) {a : Nat}
    (h : a < (e.effective w).1.toNat ∨ (e.effective w).1.toNat + 2 * n ≤ a) :
    SMap.get 0 ((e.stored w n).mem (insnField w 18 3)) a = SMap.get 0 (e.mem (insnField w 18 3)) a := by
  rw [Easel.stored, Easel.mem_setMem_same, Mem.get_write_of_outside _ _ _ _ h]

theorem Easel.y_stored (e : Easel) {w : Word} (n : Nat) (h : insnField w 18 3 ≤ 3) : (e.stored w n).y = e.y := by
  rw [Easel.stored, Easel.y_setMem _ _ h, e.effective_eq w]

theorem Easel.x_stored (e : Easel) {w : Word} (n : Nat) (h : 3 < insnField w 18 3) : (e.stored w n).x = e.x := by
  rw [Easel.stored, Easel.x_setMem _ _ h, e.effective_eq w]

/-! ### The instructions -/

section
variable {s : State} {rg : Rg} {k : CoreNo} {op n : Nat}

theorem easStep_load (hat : CoreAt s rg k op) (hop : isOpcode op = true) (hrd : insnRd (coreWord s rg k) % n = 0)
    (hea : ((s.eas rg k).effective (coreWord s rg k)).1.toNat % (2 * n) = 0) :
    CoreStep s (easStep s rg k op (runLoad n rg k)) rg k ((s.eas rg k).loaded (coreWord s rg k) n) ∧
      OnlyCore rg k s (easStep s rg k op (runLoad n rg k)) :=
  easStep_coreStep hat hop (runLoad_of_aligned hrd hea) (Easel.onlyData_loaded _ _ n)

theorem easStep_store (hat : CoreAt s rg k op) (hop : isOpcode op = true) (hrd : insnRd (coreWord s rg k) % n = 0)
    (hea : ((s.eas rg k).effective (coreWord s rg k)).1.toNat % (2 * n) = 0) :
    CoreStep s (easStep s rg k op (runStore n rg k)) rg k ((s.eas rg k).stored (coreWord s rg k) n) ∧
      OnlyCore rg k s (easStep s rg k op (runStore n rg k)) :=
  easStep_coreStep hat hop (runStore_of_aligned hrd hea) (Easel.onlyData_stored _ _ n)

theorem load_frame {t : State} {w : Word} (h : CoreStep s t rg k ((s.eas rg k).loaded w n)) :
    (t.eas rg k).x = (s.eas rg k).x ∧ (t.eas rg k).y = (s.eas rg k).y ∧
      (∀ i, (t.eas rg k).p i = ((s.eas rg k).effective w).2.p i) ∧
      (t.eas rg k).sr = (s.eas rg k).sr ∧ (t.eas rg k).pc = (s.eas rg k).pc + 1 := by
  refine ⟨h.x.trans ?_, h.y.trans ?_, fun i => (h.p i).trans (Easel.p_loaded _ w n i), h.sr.trans ?_, h.pc⟩ <;> rw [Easel.loaded_eq]

theorem load_coreReg {t : State} {w : Word} {i : Nat} (h : CoreStep s t rg k ((s.eas rg k).loaded w n)) (hrd : insnRd w + n ≤ 32)
    (hi : i < n) : coreReg t rg k (insnRd w + i) =
      BitVec.ofNat 16 (Mem.read ((s.eas rg k).mem (insnField w 18 3)) (((s.eas rg k).effective w).1.toNat + 2 * i) 2) :=
  (h.get _).trans (Easel.get_loaded _ hrd hi)

theorem load_coreReg_of_outside {t : State} {w : Word} {i : Nat} (h : CoreStep s t rg k ((s.eas rg k).loaded w n))
    (hrd : insnRd w + n ≤ 32) (hi : i < 32) (hout : i < insnRd w ∨ insnRd w + n ≤ i) : coreReg t rg k i = coreReg s rg k i :=
  (h.get i).trans (Easel.get_loaded_of_outside _ hrd hi hout)

theorem store_read {t : State} {w : Word} (h : CoreStep s t rg k ((s.eas rg k).stored w n)) :
    Mem.read ((t.eas rg k).mem (insnField w 18 3)) ((s.eas rg k).effective w).1.toNat (2 * n) = (s.eas rg k).getMany (insnRd w) n := by
  rw [h.mem]; exact Easel.read_stored _ w n

theorem store_frame {t : State} {w : Word} (h : CoreStep s t rg k ((s.eas rg k).stored w n)) :
    (∀ a, a < ((s.eas rg k).effective w).1.toNat ∨ ((s.eas rg k).effective w).1.toNat + 2 * n ≤ a →
        SMap.get 0 ((t.eas rg k).mem (insnField w 18 3)) a = SMap.get 0 ((s.eas rg k).mem (insnField w 18 3)) a) ∧
      ((insnField w 18 3 ≤ 3 → (t.eas rg k).y = (s.eas rg k).y) ∧ (3 < insnField w 18 3 → (t.eas rg k).x = (s.eas rg k).x)) ∧
      (t.eas rg k).r = (s.eas rg k).r ∧ (∀ i, (t.eas rg k).p i = ((s.eas rg k).effective w).2.p i) ∧
      (t.eas rg k).sr = (s.eas rg k).sr ∧ (t.eas rg k).pc = (s.eas rg k).pc + 1 := by
  refine ⟨fun a ha => ?_, ⟨fun hx => h.y.trans (Easel.y_stored _ n hx), fun hy => h.x.trans (Easel.x_stored _ n hy)⟩, h.r.trans ?_,
    fun i => (h.p i).trans (Easel.p_stored _ w n i), h.sr.trans ?_, h.pc⟩
  · rw [h.mem]; exact Easel.get_mem_stored_of_outside _ w n ha
  · rw [Easel.stored_eq]
  · rw [Easel.stored_eq]

end

/-- Settles O20: the table row by row, then what each core `loaded` or `stored` reads as, for one register and for a pair. -/
theorem loadsAndStores : Obligations.LoadsAndStores := by
  unfold Obligations.LoadsAndStores
  refine ⟨fun e w => ⟨fun h => ?_, fun h => ?_, fun h => ?_, fun h => ?_, fun n hn => e.p_effective_ne w hn, fun p => ?_⟩,
    ?ld, ?st, ?ldd, ?std⟩
  · rw [e.effective_of_mode0 h]; exact ⟨rfl, rfl⟩
  · rw [e.effective_of_mode1 h]; exact ⟨rfl, e.p_setP_same _ _⟩
  · rw [e.effective_of_mode2 h]; exact ⟨rfl, e.p_setP_same _ _⟩
  · rw [e.effective_of_mode3 h]; exact ⟨rfl, rfl⟩
  · simp only [Easel.mem, Nat.lt_succ_iff]
  case ld =>
    intro rg k s hat hea
    obtain ⟨h, honly⟩ := easStep_load (n := 1) hat (by decide) (Nat.mod_one _) hea
    have hrd : insnRd (coreWord s rg k) + 1 ≤ 32 := insnRd_lt _
    obtain ⟨hx, hy, hp, hsr, hpc⟩ := load_frame h
    exact ⟨_, rfl, ⟨load_coreReg (i := 0) h hrd (by decide), fun i hi => load_coreReg_of_outside h hrd i.isLt (by omega)⟩,
      hx, hy, hp, hsr, hpc, honly⟩
  case st =>
    intro rg k s hat hea
    obtain ⟨h, honly⟩ := easStep_store (n := 1) hat (by decide) (Nat.mod_one _) hea
    obtain ⟨hbytes, hother, hr, hp, hsr, hpc⟩ := store_frame h
    exact ⟨_, rfl, (store_read h).trans (Easel.getMany_one _ _), hbytes, hother, hr, hp, hsr, hpc, honly⟩
  case ldd =>
    intro rg k s hat hea heven
    obtain ⟨h, honly⟩ := easStep_load (n := 2) hat (by decide) heven hea
    have hrd : insnRd (coreWord s rg k) + 2 ≤ 32 := by have := insnRd_lt (coreWord s rg k); omega
    obtain ⟨hx, hy, hp, hsr, hpc⟩ := load_frame h
    exact ⟨_, rfl, load_coreReg (i := 0) h hrd (by decide), load_coreReg (i := 1) h hrd (by decide),
      fun i hi => load_coreReg_of_outside h hrd i.isLt (by omega), hx, hy, hp, hsr, hpc, honly⟩
  case std =>
    intro rg k s hat hea heven
    obtain ⟨h, honly⟩ := easStep_store (n := 2) hat (by decide) heven hea
    obtain ⟨hbytes, hother, hr, hp, hsr, hpc⟩ := store_frame h
    exact ⟨_, rfl, (store_read h).trans (Easel.getMany_two _ _), hbytes, hother, hr, hp, hsr, hpc, honly⟩

end Sys2Proof.Machine
end

section
/-! PROOFS. A release of a semaphore by its owner, and by any other requester (R375). -/

namespace Sys2Proof.Machine

theorem State.ownsSem_iff {s : State} {who : Requester} {n : Nat} :
    s.ownsSem who n = true ↔ s.reg (R.SEM_HOLDER n) = holderOf who := decide_eq_true_iff

/-- The state with semaphore `n` free: SEM.HOLDER and SEM.HOLD_TIME at 0 (R375, R376). -/
abbrev State.freedSem (s : State) (n : Nat) : State := (s.setReg (R.SEM_HOLDER n) 0).setReg (R.SEM_HOLD_TIME n) 0

theorem releaseSem_of_owner {s : State} {who : Requester} {n : Nat} (h : s.reg (R.SEM_HOLDER n) = holderOf who) :
    releaseSem s who n = s.freedSem n :=
  if_pos (State.ownsSem_iff.mpr h)

theorem releaseSem_of_foreign {s : State} {who : Requester} {n : Nat} (h : s.reg (R.SEM_HOLDER n) ≠ holderOf who) :
    releaseSem s who n = s.bump F.SEM_COUNTS2_FOREIGN 1 :=
  if_neg (mt State.ownsSem_iff.mp h)

/-- A freed semaphore shows KIND 0, free: its hold time is a register of its own, so clearing it leaves SEM.HOLDER at 0. -/
theorem State.kind_freedSem (s : State) (n : Nat) : (s.freedSem n).f (F.SEM_HOLDER_KIND n) = 0 := by
  have hother : (F.SEM_HOLDER_KIND n).off ≠ R.SEM_HOLD_TIME n := by simp
  rw [State.f_setReg_ne _ _ _ hother, State.f, State.reg_setReg_same]
  simp [Fld.of]

/-- Settles O45: the release tests who owns the semaphore, and each clause is one branch of that test. -/
theorem semaphoreRelease : Obligations.SemaphoreRelease := by
  unfold Obligations.SemaphoreRelease
  refine ⟨fun n who s howner => ?_, fun n who s hforeign => ?_⟩
  · exact ⟨_, congrArg Host.Outcome.next (releaseSem_of_owner howner), rfl, s.kind_freedSem n.toNat⟩
  · exact ⟨_, congrArg Host.Outcome.next (releaseSem_of_foreign hforeign), rfl⟩

end Sys2Proof.Machine
end

section
/-! PROOFS. What every step keeps: the queue behind the command, the fuses, and the canonical forms of the stores. -/

namespace Sys2Proof.Machine

-- The lemmas are many and short: they are elaborated one after another, so that their number does not become a number of threads.
set_option Elab.async false

/-! ### The relation -/

/-- From `s` to `t` the queue stands, no fuse is undone, and the canonical forms are kept; where `τ` is set, the tick count stands too. -/
structure Kept (τ : Bool) (s t : State) : Prop where
  pending : t.pending = s.pending
  fuses : FusesKept s t
  canonical : Canonical s → Canonical t
  clock : τ = true → t.mer.tick = s.mer.tick ∧ t.mer.omitted = s.mer.omitted

/-- What the relation speaks of. -/
abbrev State.core (s : State) : List Instr × Fuses × SMap Word × SMap Region × SMap JobState × Mem × Mem :=
  (s.pending, s.fuses, s.regs, s.rgns, s.jobs, s.sram, s.library)

/-- What it speaks of besides, where the tick count stands. -/
abbrev State.clock (s : State) : BitVec 48 × Bool := (s.mer.tick, s.mer.omitted)

theorem FusesKept.of_eq {s t : State} (h : t.fuses = s.fuses) : FusesKept s t := by
  unfold FusesKept
  rw [h]
  exact ⟨fun _ hi => hi, fun _ hi => hi, fun _ _ _ => rfl, rfl⟩

theorem FusesKept.trans {s t u : State} (h : FusesKept s t) (h' : FusesKept t u) : FusesKept s u := by
  obtain ⟨hprog, hrev, hhash, htest⟩ := h
  obtain ⟨hprog', hrev', hhash', htest'⟩ := h'
  exact ⟨fun i hi => hprog' i (hprog i hi), fun i hi => hrev' i (hrev i hi),
    fun i hn hi => (hhash' i hn (hprog i hi)).trans (hhash i hn hi), htest'.trans htest⟩

theorem Kept.refl (τ : Bool) (s : State) : Kept τ s s := ⟨rfl, .of_eq rfl, id, fun _ => ⟨rfl, rfl⟩⟩

theorem Kept.trans {τ : Bool} {s t u : State} (h : Kept τ s t) (h' : Kept τ t u) : Kept τ s u :=
  ⟨h'.pending.trans h.pending, h.fuses.trans h'.fuses, fun hc => h'.canonical (h.canonical hc),
    fun hm => ⟨(h'.clock hm).1.trans (h.clock hm).1, (h'.clock hm).2.trans (h.clock hm).2⟩⟩

section
variable {τ : Bool} {s₀ s t u : State}

/-- An update of what the relation does not speak of, the tick count apart. -/
theorem Kept.otherThan (h : Kept τ s₀ s) (hclock : τ = true → t.clock = s.clock) (hcore : t.core = s.core := by with_reducible rfl) :
    Kept τ s₀ t := by
  simp only [State.core, State.clock, Prod.mk.injEq] at hcore hclock
  obtain ⟨hpending, hfuses, hregs, hrgns, hjobs, hsram, hlibrary⟩ := hcore
  refine h.trans ⟨hpending, .of_eq hfuses, fun hc => ?_, hclock⟩
  unfold Canonical at hc ⊢
  rwa [hregs, hrgns, hjobs, hsram, hlibrary]

/-- An update of what the relation does not speak of. -/
theorem Kept.other (h : Kept τ s₀ s) (hcore : t.core = s.core := by with_reducible rfl) (hclock : t.clock = s.clock := by with_reducible rfl) :
    Kept τ s₀ t := h.otherThan (fun _ => hclock) hcore

/-- An update of the tick count. -/
theorem Kept.ticked (h : Kept false s₀ s) (hcore : t.core = s.core := by with_reducible rfl) : Kept false s₀ t :=
  h.otherThan (fun hm => Bool.noConfusion hm) hcore

/-- The fact about a state that is used more than once. -/
theorem Kept.of (h : Kept τ s₀ t → Kept τ s₀ u) (ht : Kept τ s₀ t) : Kept τ s₀ u := h ht

theorem Kept.ite {c : Prop} {_ : Decidable c} (ht : Kept τ s₀ t) (hu : Kept τ s₀ u) : Kept τ s₀ (if c then t else u) := by
  split <;> assumption

theorem Kept.iteFst {α : Type} {c : Prop} {_ : Decidable c} {x y : State × α} (hx : Kept τ s₀ x.1) (hy : Kept τ s₀ y.1) :
    Kept τ s₀ (if c then x else y).1 := by
  split <;> assumption

theorem Kept.iteSnd {α : Type} {c : Prop} {_ : Decidable c} {x y : α × State} (hx : Kept τ s₀ x.2) (hy : Kept τ s₀ y.2) :
    Kept τ s₀ (if c then x else y).2 := by
  split <;> assumption

theorem Kept.foldl {α : Type} {l : List α} {f : State → α → State} (h : Kept τ s₀ s)
    (hf : ∀ t a, Kept τ s₀ t → Kept τ s₀ (f t a)) : Kept τ s₀ (l.foldl f s) := by
  induction l generalizing s with
  | nil => exact h
  | cons a l ih => exact ih (hf _ _ h)

theorem Kept.foldS {α : Type} {f : State → α → State} {l : List α} (h : Kept τ s₀ s)
    (hf : ∀ t a, Kept τ s₀ t → Kept τ s₀ (f t a)) : Kept τ s₀ (foldS l s f) := h.foldl hf

theorem Kept.foldlSnd {α β : Type} {l : List α} {f : β × State → α → β × State} {b : β} (h : Kept τ s₀ s)
    (hf : ∀ x a, Kept τ s₀ x.2 → Kept τ s₀ (f x a).2) : Kept τ s₀ (l.foldl f (b, s)).2 := by
  suffices ∀ x : β × State, Kept τ s₀ x.2 → Kept τ s₀ (l.foldl f x).2 from this _ h
  induction l with
  | nil => exact fun _ hx => hx
  | cons a l ih => exact fun x hx => ih _ (hf x a hx)

theorem Kept.foldlFst {α β : Type} {l : List α} {f : State × β → α → State × β} {b : β} (h : Kept τ s₀ s)
    (hf : ∀ x a, Kept τ s₀ x.1 → Kept τ s₀ (f x a).1) : Kept τ s₀ (l.foldl f (s, b)).1 := by
  suffices ∀ x : State × β, Kept τ s₀ x.1 → Kept τ s₀ (l.foldl f x).1 from this _ h
  induction l with
  | nil => exact fun _ hx => hx
  | cons a l ih => exact fun x hx => ih _ (hf x a hx)

/-! ### The stores that the relation speaks of -/

theorem Kept.setReg {a v} (h : Kept τ s₀ s) : Kept τ s₀ (s.setReg a v) :=
  h.trans ⟨rfl, .of_eq rfl, fun ⟨hregs, hrest⟩ => ⟨s.setReg_regs_rising a v hregs, hrest⟩, fun _ => ⟨rfl, rfl⟩⟩

theorem Kept.setRgn {rg r} (h : Kept τ s₀ s) : Kept τ s₀ (s.setRgn rg r) :=
  h.trans ⟨rfl, .of_eq rfl, fun ⟨hregs, hrgns, hrest⟩ => ⟨hregs, s.setRgn_wf rg r hrgns, hrest⟩, fun _ => ⟨rfl, rfl⟩⟩

theorem Kept.setJob {j x} (h : Kept τ s₀ s) : Kept τ s₀ (s.setJob j x) :=
  h.trans ⟨rfl, .of_eq rfl, fun ⟨hregs, hrgns, hjobs, hrest⟩ => ⟨hregs, hrgns, SMap.wf_set _ _ hjobs, hrest⟩, fun _ => ⟨rfl, rfl⟩⟩

/-- The hub SRAM takes a memory in canonical form. -/
theorem Kept.withSram {m : Mem} (h : Kept τ s₀ s) (hm : Memory.wf s.sram = true → Memory.wf m = true) : Kept τ s₀ { s with sram := m } :=
  h.trans ⟨rfl, .of_eq rfl, fun ⟨hregs, hrgns, hjobs, hsram, hlib⟩ => ⟨hregs, hrgns, hjobs, hm hsram, hlib⟩, fun _ => ⟨rfl, rfl⟩⟩

theorem Kept.withLibrary {m : Mem} (h : Kept τ s₀ s) (hm : Memory.wf s.library = true → Memory.wf m = true) :
    Kept τ s₀ { s with library := m } :=
  h.trans ⟨rfl, .of_eq rfl, fun ⟨hregs, hrgns, hjobs, hsram, hlib⟩ => ⟨hregs, hrgns, hjobs, hsram, hm hlib⟩, fun _ => ⟨rfl, rfl⟩⟩

theorem SMap.rising_keep {α : Type} {m : SMap α} (p : Nat → Bool) (h : SMap.rising m = true) : SMap.rising (SMap.keep p m) = true := by
  induction m with
  | nil => rfl
  | cons x t ih =>
    obtain ⟨k, v⟩ := x
    obtain ⟨habove, ht⟩ := (SMap.rising_cons k v t).1 h
    simp only [SMap.keep, List.filter_cons] at ih ⊢
    split
    · exact (SMap.rising_cons _ _ _).2 ⟨fun e he => habove e (List.mem_filter.1 he).1, ih ht⟩
    · exact ih ht

theorem Kept.keepRegs {p} (h : Kept τ s₀ s) : Kept τ s₀ { s with regs := SMap.keep p s.regs } :=
  h.trans ⟨rfl, .of_eq rfl, fun ⟨hregs, hrest⟩ => ⟨SMap.rising_keep _ hregs, hrest⟩, fun _ => ⟨rfl, rfl⟩⟩

theorem Mem.wf_writeBytes {m : Mem} (a : Nat) (l : List (BitVec 8)) (h : Memory.wf m = true) : Memory.wf (Mem.writeBytes m a l) = true := by
  induction l generalizing m a with
  | nil => exact h
  | cons b l ih => exact ih _ (SMap.wf_set _ _ h)

/-- What every step of a fold over a memory keeps, the fold keeps. -/
theorem Memory.wf_foldl {α : Type} {f : Mem → α → Mem} (hf : ∀ m a, Memory.wf m = true → Memory.wf (f m a) = true) (l : List α) {m : Mem}
    (h : Memory.wf m = true) : Memory.wf (l.foldl f m) = true := by
  induction l generalizing m with
  | nil => exact h
  | cons a l ih => exact ih (hf _ _ h)

/-! ### Answers that carry a state -/

/-- Every state that the answer of an instruction carries is kept. -/
def Did.Keeps (τ : Bool) (s₀ : State) : Did → Prop
  | .done t _ => Kept τ s₀ t
  | .trap t _ => Kept τ s₀ t
  | .stall t => Kept τ s₀ t
  | .stop t => Kept τ s₀ t

def Serve.Keeps (τ : Bool) (s₀ : State) : Serve → Prop
  | .wait t => Kept τ s₀ t
  | .done t _ _ => Kept τ s₀ t

def Took.Keeps (τ : Bool) (s₀ : State) : Took → Prop
  | .wait => True
  | .bad _ t _ => Kept τ s₀ t
  | .done t _ => Kept τ s₀ t

def KeptIf (τ : Bool) (s₀ : State) : Option State → Prop
  | some t => Kept τ s₀ t
  | none => True

def KeptEither (τ : Bool) (s₀ : State) : Except (Bad × State) State → Prop
  | .ok t => Kept τ s₀ t
  | .error (_, t) => Kept τ s₀ t

def KeptOut (τ : Bool) (s₀ : State) : Host.Outcome State Fault Refusal → Prop
  | .next t => Kept τ s₀ t
  | .fault _ => True
  | .refused _ => True

theorem KeptIf.get {x : Option State} (hx : KeptIf τ s₀ x) (h : x = some t) : Kept τ s₀ t := by
  rw [h] at hx
  exact hx

theorem KeptEither.get {x : Except (Bad × State) State} (hx : KeptEither τ s₀ x) (h : x = .ok t) : Kept τ s₀ t := by
  rw [h] at hx
  exact hx

theorem KeptEither.getError {x : Except (Bad × State) State} {b : Bad} (hx : KeptEither τ s₀ x) (h : x = .error (b, t)) : Kept τ s₀ t := by
  rw [h] at hx
  exact hx

theorem KeptEither.ite {c : Prop} {_ : Decidable c} {x y : Except (Bad × State) State} (hx : KeptEither τ s₀ x) (hy : KeptEither τ s₀ y) :
    KeptEither τ s₀ (if c then x else y) := by
  split <;> assumption

theorem Kept.iteSt {c : Prop} {_ : Decidable c} {x y : ReadBack} (hx : Kept τ s₀ x.st) (hy : Kept τ s₀ y.st) :
    Kept τ s₀ (if c then x else y).st := by
  split <;> assumption

theorem Did.Keeps.ite {c : Prop} {_ : Decidable c} {x y : Did} (hx : x.Keeps τ s₀) (hy : y.Keeps τ s₀) : (if c then x else y).Keeps τ s₀ := by
  split <;> assumption

theorem Serve.Keeps.ite {c : Prop} {_ : Decidable c} {x y : Serve} (hx : x.Keeps τ s₀) (hy : y.Keeps τ s₀) :
    (if c then x else y).Keeps τ s₀ := by
  split <;> assumption

theorem Took.Keeps.ite {c : Prop} {_ : Decidable c} {x y : Took} (hx : x.Keeps τ s₀) (hy : y.Keeps τ s₀) : (if c then x else y).Keeps τ s₀ := by
  split <;> assumption

theorem KeptIf.ite {c : Prop} {_ : Decidable c} {x y : Option State} (hx : KeptIf τ s₀ x) (hy : KeptIf τ s₀ y) :
    KeptIf τ s₀ (if c then x else y) := by
  split <;> assumption

theorem KeptOut.ite {c : Prop} {_ : Decidable c} {x y : Host.Outcome State Fault Refusal} (hx : KeptOut τ s₀ x) (hy : KeptOut τ s₀ y) :
    KeptOut τ s₀ (if c then x else y) := by
  split <;> assumption

/-! ### Function by function, in the order of the model -/

theorem Kept.setF {f n} (h : Kept τ s₀ s) : Kept τ s₀ (s.setF f n) :=
  h.setReg

theorem Kept.bump {f k} (h : Kept τ s₀ s) : Kept τ s₀ (s.bump f k) :=
  h.setF

theorem Kept.set48 {lo hi v} (h : Kept τ s₀ s) : Kept τ s₀ (s.set48 lo hi v) :=
  h.setReg.setReg

theorem Kept.onRgn {rg g} (h : Kept τ s₀ s) : Kept τ s₀ (s.onRgn rg g) :=
  h.setRgn

theorem Kept.setRf {rg f n} (h : Kept τ s₀ s) : Kept τ s₀ (s.setRf rg f n) :=
  h.onRgn

theorem Kept.bumpR {rg f k} (h : Kept τ s₀ s) : Kept τ s₀ (s.bumpR rg f k) :=
  h.onRgn

theorem Kept.setCl {rg c k} (h : Kept τ s₀ s) : Kept τ s₀ (s.setCl rg c k) :=
  h.onRgn

theorem Kept.onCl {rg c g} (h : Kept τ s₀ s) : Kept τ s₀ (s.onCl rg c g) :=
  h.setCl

theorem Kept.setEas {rg k e} (h : Kept τ s₀ s) : Kept τ s₀ (s.setEas rg k e) :=
  h.onRgn

theorem Kept.onEas {rg k g} (h : Kept τ s₀ s) : Kept τ s₀ (s.onEas rg k g) :=
  h.setEas

theorem Kept.draw {n} (h : Kept τ s₀ s) : Kept τ s₀ { s with drawn := n } :=
  h.other

theorem Kept.ibi {cls loc arg} (h : Kept τ s₀ s) : Kept τ s₀ (s.ibi cls loc arg) := by
  unfold State.ibi
  exact Kept.ite h.bump (Kept.of (fun h3 => (Kept.ite h3.other h3).setF.setF) h.setReg)

theorem Kept.issueAvs {q l} (h : Kept τ s₀ s) : Kept τ s₀ (s.issueAvs q l) := by
  unfold State.issueAvs
  exact h.other

theorem Kept.watchTest (h : Kept τ s₀ s) : Kept τ s₀ (watchTest s) := by
  unfold Machine.watchTest
  exact Kept.ite h (h.foldl (fun _ _ h2 => h2.other))

theorem Kept.setVq {q v} (h : Kept τ s₀ s) : Kept τ s₀ (s.setVq q v) :=
  h.setF.issueAvs.watchTest

theorem Kept.findsRoom {key places} (h : Kept τ s₀ s) : Kept τ s₀ (s.findsRoom key places).2 := by
  rw [State.findsRoom_frame]
  exact h.other

theorem Kept.noteFault {src l key} (h : Kept τ s₀ s) : Kept τ s₀ (s.noteFault src l key) := by
  unfold State.noteFault
  exact Kept.of (fun h1 => Kept.ite h1.other h1.setF) (Kept.ite h.findsRoom.bump h.findsRoom.bump)

theorem Kept.taintAt {rg cycle x} (h : Kept τ s₀ s) : Kept τ s₀ (s.taintAt rg cycle x) := by
  unfold State.taintAt
  extract_lets q n
  have hroom : Kept τ s₀ (s.findsRoom (256 + q) 32).2 := h.findsRoom
  generalize s.findsRoom (256 + q) 32 = r at hroom ⊢
  obtain ⟨room, t⟩ := r
  have ht : ∀ {m f n}, Kept τ s₀ (State.setF { t with taints := m } f n) := hroom.other.setF
  refine .ite hroom.bump (Kept.ibi ?_)
  cases rg with
  | some r => exact (Kept.ite ht.setF ht).bump.onRgn
  | none => exact (Kept.ite ht.setF ht).bump

theorem Kept.taint {rg t} (h : Kept τ s₀ s) : Kept τ s₀ (s.taint rg t) :=
  h.taintAt

theorem Kept.clearToken {x} (h : Kept τ s₀ s) : Kept τ s₀ (clearToken s x) := by
  unfold Machine.clearToken
  split
  · exact h.onRgn
  · exact h.onRgn
  · exact h.onRgn
  · exact h.onRgn
  · exact h

theorem Kept.ackPulse {rg n port} (h : Kept τ s₀ s) : Kept τ s₀ (ackPulse s rg n port) :=
  Kept.ite h ((Kept.iteSnd h h.draw).onRgn)

theorem Kept.tokenGone {d} (h : Kept τ s₀ s) : Kept τ s₀ (tokenGone s d) := by
  unfold Machine.tokenGone
  exact Kept.ite h.other (Kept.of (fun h2 => Kept.ite h2.other h2) h.clearToken)

theorem Kept.ackToken {fuel d} (h : Kept τ s₀ s) : Kept τ s₀ (ackToken fuel s d) := by
  induction fuel generalizing s d with
  | zero => exact h.tokenGone
  | succ fuel ih =>
    rw [Machine.ackToken]
    refine .ite h.tokenGone ?_
    dsimp only
    split
    · refine .ite ?_ h.tokenGone
      split
      · exact ih h.tokenGone.onRgn.ackPulse
      · exact h.tokenGone.onRgn.ackPulse
    · exact h.tokenGone

theorem Kept.takeToken {d} (h : Kept τ s₀ s) : Kept τ s₀ (takeToken s d) := by
  unfold Machine.takeToken
  exact h.ackToken.other

theorem Kept.takeInput {rg n port} (h : Kept τ s₀ s) : Kept τ s₀ (takeInput s rg n port) := by
  unfold Machine.takeInput
  split
  · exact h.takeToken.ackPulse
  · exact h

theorem Kept.dropCrossed {rg n d} (h : Kept τ s₀ s) : Kept τ s₀ (dropCrossed s rg n d) :=
  Kept.ite h.takeToken h

theorem Kept.dropCrossing {rg n} (h : Kept τ s₀ s) : Kept τ s₀ (dropCrossing s rg n) :=
  h.dropCrossed.dropCrossed

theorem Kept.dropLanes {rg n} (h : Kept τ s₀ s) : Kept τ s₀ (dropLanes s rg n) :=
  h.foldl (fun _ _ h1 => h1.dropCrossed)

theorem Kept.dropIo {rg i} (h : Kept τ s₀ s) : Kept τ s₀ (dropIo s rg i) :=
  Kept.ite (h.foldl (fun _ _ h2 => h2.dropCrossed)) h

theorem Kept.dropTokens {q} (h : Kept τ s₀ s) : Kept τ s₀ (dropTokens s q) :=
  h.foldl (fun _ _ h1 => Kept.ite h1 (((h1.foldl (fun _ _ h2 => h2.dropCrossing)).foldl (fun _ _ h4 => h4.dropIo)).foldl (fun _ _ h6 => h6.dropCrossed)))

theorem Kept.breakSem {n} (h : Kept τ s₀ s) : Kept τ s₀ (breakSem s n) :=
  Kept.ite h (Kept.of (fun h8 => Kept.ite h8.setF.ibi h8) h.setReg.setReg.setReg.bump.noteFault)

theorem Kept.breakOwned {p} (h : Kept τ s₀ s) : Kept τ s₀ (breakOwned s p) :=
  h.foldl (fun _ _ h1 => Kept.ite h1.breakSem h1)

theorem Kept.flushCrossings (h : Kept τ s₀ s) : Kept τ s₀ (flushCrossings s) :=
  h.draw.bump

theorem Kept.dropLines {stops} (h : Kept τ s₀ s) : Kept τ s₀ (dropLines s stops) := by
  unfold Machine.dropLines
  exact h.other

theorem Kept.flushRegion {rg} (h : Kept τ s₀ s) : Kept τ s₀ (flushRegion s rg) :=
  h.flushCrossings.dropTokens.dropLines

theorem Kept.holdReset {rg k} (h : Kept τ s₀ s) : Kept τ s₀ (holdReset s rg k) :=
  h.onRgn

theorem Kept.resetCore {rg k} (h : Kept τ s₀ s) : Kept τ s₀ (resetCore s rg k) := by
  unfold Machine.resetCore
  exact h.onRgn.other.breakOwned

theorem Kept.setDirty {rg v} (h : Kept τ s₀ s) : Kept τ s₀ (s.setDirty rg v) :=
  h.setReg

theorem Kept.startChecks {j} (h : Kept τ s₀ s) : Kept τ s₀ (startChecks s j) :=
  h.foldl (fun _ _ h1 => Kept.ite h1.onRgn h1)

theorem Kept.resumeSoon {j} (h : Kept τ s₀ s) : Kept τ s₀ (resumeSoon s j) :=
  Kept.ite h.startChecks.setJob h

theorem Kept.returnJob {j} (h : Kept τ s₀ s) : Kept τ s₀ (returnJob s j) :=
  Kept.of (fun h1 => Kept.ite h1.setF h1.resumeSoon) h.setJob

theorem Kept.setTesting {rg v} (h : Kept τ s₀ s) : Kept τ s₀ (s.setTesting rg v) :=
  h.setReg

theorem Kept.abandonTest {rg} (h : Kept τ s₀ s) : Kept τ s₀ (abandonTest s rg) := by
  unfold Machine.abandonTest
  exact Kept.ite h h.setTesting.setF.setF.other

theorem Kept.setDrain {k d} (h : Kept τ s₀ s) : Kept τ s₀ (s.setDrain k d) := by
  unfold State.setDrain
  exact h.other

theorem Kept.setRefusing {k v} (h : Kept τ s₀ s) : Kept τ s₀ (s.setRefusing k v) := by
  unfold State.setRefusing
  exact h.other

theorem Kept.setOwn {q st} (h : Kept τ s₀ s) : Kept τ s₀ (s.setOwn q st) := by
  unfold State.setOwn
  exact h.other

theorem Kept.showQuads (h : Kept τ s₀ s) : Kept τ s₀ (showQuads s) :=
  h.foldl (fun _ _ h1 => h1.setF)

theorem Kept.setPwr {st} (h : Kept τ s₀ s) : Kept τ s₀ (setPwr s st) :=
  h.setF.showQuads

theorem Kept.reachHold (h : Kept τ s₀ s) : Kept τ s₀ (reachHold s) :=
  h.setPwr.setDrain.setF.bump

theorem Kept.beginDrain {st} (h : Kept τ s₀ s) : Kept τ s₀ (beginDrain s st) :=
  ((Kept.ite h.setPwr h).foldS (fun _ _ h2 => h2.abandonTest)).other.setDrain.setF

theorem Kept.settleHold (h : Kept τ s₀ s) : Kept τ s₀ (settleHold s) := by
  unfold Machine.settleHold
  split
  · exact Kept.ite h (Kept.ite h.reachHold h.beginDrain)
  · exact h

theorem Kept.jobHeld {j} (h : Kept τ s₀ s) : Kept τ s₀ (jobHeld s j) := by
  unfold Machine.jobHeld
  split
  · exact h
  · exact Kept.ite (Kept.of (fun h10 => (Kept.ite h10.returnJob h10).settleHold) ((h.setF.setReg.foldl (fun _ _ h8 => Kept.ite h8.setRf h8)).ibi)) h

theorem Kept.requestHold {j cause least} (h : Kept τ s₀ s) : Kept τ s₀ (requestHold s j cause least) :=
  Kept.ite h h.setJob.setF.jobHeld

theorem Kept.failJob {j} (h : Kept τ s₀ s) : Kept τ s₀ (failJob s j) :=
  h.setF.ibi.requestHold.jobHeld.settleHold

theorem Kept.endStall {rg c} (h : Kept τ s₀ s) : Kept τ s₀ (endStall s rg c) :=
  Kept.ite h.draw.bumpR h

theorem Kept.gateRegion {rg} (h : Kept τ s₀ s) : Kept τ s₀ (gateRegion s rg) :=
  h.abandonTest.onRgn.flushRegion

theorem Kept.isolate {rg cause sub} (h : Kept τ s₀ s) : Kept τ s₀ (isolate s rg cause sub) := by
  unfold Machine.isolate
  exact Kept.ite h (Kept.of (fun h14 => Kept.of (fun h15 => Kept.of (fun h16 => Kept.of (fun h18 => Kept.ite h18.gateRegion h18) (Kept.ite h16 h16.setReg.setF.ibi)) (by split; exact h15.failJob; exact h15)) (Kept.ite h14.noteFault h14)) ((h.abandonTest.foldl (fun _ _ h10 => h10.endStall)).onRgn.flushRegion.breakOwned))

theorem Kept.noteContained {rg sub} (h : Kept τ s₀ s) : Kept τ s₀ (noteContained s rg sub) :=
  h.noteFault.setReg

theorem Kept.uncontained {rg sub} (h : Kept τ s₀ s) : Kept τ s₀ (uncontained s rg sub) :=
  Kept.ite h.noteContained h.isolate

theorem Kept.tableEcc {rg e tbl index} (h : Kept τ s₀ s) : Kept τ s₀ (tableEcc s rg e tbl index) := by
  unfold Machine.tableEcc
  split
  · exact h
  · exact h.noteFault
  · exact Kept.of (fun h1 => Kept.ite h1 h1.onRgn) h.uncontained

theorem Kept.lowCheck {rg before} (h : Kept τ s₀ s) : Kept τ s₀ (lowCheck s rg before) :=
  Kept.ite h.setRf.ibi h

theorem Kept.settleMarker {rg} (h : Kept τ s₀ s) : Kept τ s₀ (settleMarker s rg) :=
  h.onRgn.lowCheck

theorem Kept.settleMarkers {rg} (h : Kept τ s₀ s) : Kept τ s₀ (settleMarkers s rg) :=
  h.settleMarker.settleMarker.settleMarker

theorem Kept.ringWrite {rg cycle ws} (h : Kept τ s₀ s) : Kept τ s₀ (ringWrite s rg cycle ws) :=
  h.setRgn.lowCheck

theorem Kept.pushUndo {rg u} (h : Kept τ s₀ s) : Kept τ s₀ (pushUndo s rg u) :=
  Kept.ite h (Kept.ite h.setRgn h.setRgn)

theorem Kept.drainUndo {rg} (h : Kept τ s₀ s) : Kept τ s₀ (drainUndo s rg) := by
  unfold Machine.drainUndo
  dsimp only
  split
  · exact h
  · exact h.setRgn.ringWrite

theorem Kept.pushBin {rg cycle kind c entry source seq full data} (h : Kept τ s₀ s) : Kept τ s₀ (pushBin s rg cycle kind c entry source seq full data) :=
  Kept.ite h h.setRgn

theorem Kept.logInject {rg c e source} (h : Kept τ s₀ s) : Kept τ s₀ (logInject s rg c e source) :=
  (Kept.ite h.onRgn h).pushBin

theorem Kept.backWrite {rg src a be v e undoNs} (h : Kept τ s₀ s) : Kept τ s₀ (backWrite s rg src a be v e undoNs) := by
  unfold Machine.backWrite
  exact Kept.of (fun h2 => Kept.of (fun h5 => h5.pushUndo) (by split; exact h2; exact h2.bumpR.noteFault; exact Kept.of (fun h4 => Kept.ite h4 h4.taint) h2.bumpR.noteFault.onRgn)) ((Kept.ite h.bumpR.settleMarkers.drainUndo h).setRgn)

theorem Kept.backRead {rg src ring a e} (h : Kept τ s₀ s) : Kept τ s₀ (backRead s rg src ring a e).1 := by
  unfold Machine.backRead
  dsimp only
  generalize (s.rgn rg).checked (if ring then ringKey a else dmemKey a) e = e
  cases e with
  | clean => exact h
  | single => exact h.onRgn.bumpR.noteFault
  | uncorrectable =>
    dsimp only
    exact h.onRgn.bumpR.noteFault.onRgn

theorem Kept.takeSnapshot {rg n sh fl} (h : Kept τ s₀ s) : Kept τ s₀ (takeSnapshot s rg n sh fl).1 :=
  Kept.iteFst h.setRgn h.setRgn.lowCheck

theorem Kept.ringError {rg w cycle e} (h : Kept τ s₀ s) : Kept τ s₀ (ringError s rg w cycle e) := by
  unfold Machine.ringError
  split
  · exact h.backRead.taintAt.setRf
  · exact h.backRead

theorem Kept.readRecord {rg x} (h : Kept τ s₀ s) : Kept τ s₀ (readRecord s rg x) :=
  h.foldl (fun _ _ h1 => Kept.ite h1.ringError h1)

theorem Kept.meetDamaged {rg} (h : Kept τ s₀ s) : Kept τ s₀ (meetDamaged s rg) :=
  h.foldl (fun _ _ h1 => h1.readRecord.onRgn)

theorem Kept.readQ {rg n} (h : Kept τ s₀ s) : Kept τ s₀ (readQ s rg n).2 :=
  Kept.iteSnd h.draw h

theorem Kept.cellOperand {rg n e src port} (h : Kept τ s₀ s) : Kept τ s₀ (cellOperand s rg n e src port).2 := by
  unfold Machine.cellOperand
  split; exact h; exact h; exact h; exact h.readQ

theorem Kept.fireCells {rg ei carry all low x} (h : Kept τ s₀ s) : Kept τ s₀ (fireCells s rg ei carry all low x) := by
  induction x generalizing s carry all low with
  | nil => exact h
  | cons n t ih =>
    unfold Machine.fireCells
    dsimp only
    refine ih (Kept.dropCrossing (Kept.of (fun h1 => .ite (.ite h1.takeInput h1.onRgn) h1) (Kept.onRgn (Kept.foldS ?_ fun _ _ h2 => h2.takeInput))))
    exact .ite h.cellOperand.cellOperand.bumpR h.cellOperand.cellOperand

theorem Kept.takeS {rg n} (h : Kept τ s₀ s) : Kept τ s₀ (takeS s rg n) := by
  unfold Machine.takeS
  split
  · split
    · exact h.takeToken
    · exact h
  · exact h

theorem Kept.fire {rg n opc} (h : Kept τ s₀ s) : Kept τ s₀ (fire s rg n opc) := by
  unfold Machine.fire
  dsimp only
  split
  · exact h
  · exact Kept.ite h.takeS.fireCells h

theorem Kept.execCnvPass {rg n} (h : Kept τ s₀ s) : KeptOut τ s₀ (execCnvPass rg n s) :=
  h.fire

theorem Kept.execCnvAdd {rg n} (h : Kept τ s₀ s) : KeptOut τ s₀ (execCnvAdd rg n s) :=
  h.fire

theorem Kept.execCnvSub {rg n} (h : Kept τ s₀ s) : KeptOut τ s₀ (execCnvSub rg n s) :=
  h.fire

theorem Kept.execCnvAnd {rg n} (h : Kept τ s₀ s) : KeptOut τ s₀ (execCnvAnd rg n s) :=
  h.fire

theorem Kept.execCnvOr {rg n} (h : Kept τ s₀ s) : KeptOut τ s₀ (execCnvOr rg n s) :=
  h.fire

theorem Kept.execCnvXor {rg n} (h : Kept τ s₀ s) : KeptOut τ s₀ (execCnvXor rg n s) :=
  h.fire

theorem Kept.execCnvShift {rg n} (h : Kept τ s₀ s) : KeptOut τ s₀ (execCnvShift rg n s) :=
  h.fire

theorem Kept.execCnvCmp {rg n} (h : Kept τ s₀ s) : KeptOut τ s₀ (execCnvCmp rg n s) :=
  h.fire

theorem Kept.execCnvMux {rg n} (h : Kept τ s₀ s) : KeptOut τ s₀ (execCnvMux rg n s) :=
  h.fire

theorem Kept.execCnvAcc {rg n} (h : Kept τ s₀ s) : KeptOut τ s₀ (execCnvAcc rg n s) :=
  h.fire

theorem Kept.execCnvLut {rg n} (h : Kept τ s₀ s) : KeptOut τ s₀ (execCnvLut rg n s) :=
  h.fire

theorem Kept.execCnvFork {rg n} (h : Kept τ s₀ s) : KeptOut τ s₀ (execCnvFork rg n s) :=
  h.fire

theorem Kept.execCnvJoin {rg n} (h : Kept τ s₀ s) : KeptOut τ s₀ (execCnvJoin rg n s) :=
  h.fire

theorem Kept.execCnvSteer {rg n} (h : Kept τ s₀ s) : KeptOut τ s₀ (execCnvSteer rg n s) :=
  h.fire

theorem Kept.passMerge {rg n e pickB} (h : Kept τ s₀ s) : Kept τ s₀ (passMerge s rg n e pickB) :=
  (Kept.ite h.cellOperand.takeInput h.cellOperand).onRgn.dropCrossing

theorem Kept.logMerge {rg n pickB} (h : Kept τ s₀ s) : Kept τ s₀ (logMerge s rg n pickB) :=
  h.onRgn

theorem Kept.execCnvMerge {rg n pickB} (h : Kept τ s₀ s) : KeptOut τ s₀ (execCnvMerge rg n pickB s) := by
  unfold Machine.execCnvMerge
  split
  · exact h
  · exact Kept.ite h (Kept.ite h.takeS.passMerge (Kept.ite (Kept.of (fun h12 => Kept.ite h12.onRgn.takeS.passMerge h12) (Kept.ite (h.foldl (fun _ _ h11 => h11.readRecord)) h)) (Kept.ite (Kept.ite h h.bumpR.onRgn) h.takeS.passMerge.logMerge)))

theorem Kept.execCnvReservedOpc {rg n} (h : Kept τ s₀ s) : KeptOut τ s₀ (execCnvReservedOpc rg n s) := by
  unfold Machine.execCnvReservedOpc
  dsimp only
  split
  · exact h
  · exact Kept.ite h (Kept.ite h.bumpR.takeS (Kept.ite h h.bumpR.onRgn))

theorem Kept.startLatch {rg n} (h : Kept τ s₀ s) : Kept τ s₀ (startLatch s rg n) := by
  unfold Machine.startLatch
  dsimp only
  split
  · exact h
  · split
    · exact h
    · exact (Kept.iteSnd h.draw h).onRgn

theorem Kept.startLatches {rg} (h : Kept τ s₀ s) : Kept τ s₀ (startLatches s rg) :=
  Kept.ite h (h.foldl (fun _ _ h2 => h2.startLatch))

theorem Kept.execLatchClock {rg n level wires} (h : Kept τ s₀ s) : KeptOut τ s₀ (execLatchClock rg n level wires s) :=
  Kept.ite h h.onRgn

theorem Kept.execFight {rg sg} (h : Kept τ s₀ s) : KeptOut τ s₀ (execFight rg sg s) := by
  unfold Machine.execFight
  split
  · exact h
  · exact Kept.ite h (Kept.of (fun h5 => Kept.of (fun h6 => Kept.ite h6.taint h6) (Kept.ite h5.ibi h5)) h.onRgn.noteFault)

theorem Kept.recheckFights {rg which} (h : Kept τ s₀ s) : Kept τ s₀ (recheckFights s rg which) :=
  Kept.of (fun h1 => Kept.ite h1.setRf h1) h.onRgn

theorem Kept.execFightClear {rg} (h : Kept τ s₀ s) : KeptOut τ s₀ (execFightClear rg s) :=
  h.onRgn.recheckFights.dropTokens

theorem Kept.noteOverrun {rg i} (h : Kept τ s₀ s) : Kept τ s₀ (noteOverrun s rg i) :=
  h.bumpR.onRgn

theorem Kept.execFioInputToken {rg i uio samples} (h : Kept τ s₀ s) : KeptOut τ s₀ (execFioInputToken rg i uio samples s) :=
  Kept.ite h (Kept.ite (Kept.ite h (Kept.ite h.onRgn.dropIo h.onRgn.noteOverrun)) (Kept.ite h.onRgn h))

theorem Kept.execEdgeInput {rg i uio rising} (h : Kept τ s₀ s) : KeptOut τ s₀ (execEdgeInput rg i uio rising s) :=
  Kept.ite h (Kept.of (fun h2 => Kept.ite h2 (Kept.ite h2 (Kept.ite h2.noteOverrun h2.onRgn))) h.onRgn)

theorem Kept.execLevelRequest {rg i uio level} (h : Kept τ s₀ s) : KeptOut τ s₀ (execLevelRequest rg i uio level s) := by
  unfold Machine.execLevelRequest
  dsimp only
  split
  · exact h
  · split
    · exact h
    · exact h.takeToken.onRgn

theorem Kept.fillOutQ {rg k cls} (h : Kept τ s₀ s) : Kept τ s₀ (fillOutQ s rg k cls) := by
  unfold Machine.fillOutQ
  split
  · exact h
  · exact Kept.ite h.takeToken.onRgn h

theorem Kept.execFioOutputToken {rg i uio} (h : Kept τ s₀ s) : KeptOut τ s₀ (execFioOutputToken rg i uio s) := by
  unfold Machine.execFioOutputToken
  refine Kept.ite h ?_
  split
  · refine Kept.ite h.fillOutQ ?_
    dsimp only
    split
    · exact h.fillOutQ.onRgn
    · exact h.fillOutQ.bumpR.onRgn
  · split
    · exact h.takeToken.onRgn
    · exact h
  · exact h

theorem Kept.fillPins {rg} (h : Kept τ s₀ s) : Kept τ s₀ (fillPins s rg) :=
  Kept.ite h (h.foldl (fun _ _ h2 => Kept.ite h2 h2.fillOutQ))

theorem Kept.execEnableToken {rg i uio} (h : Kept τ s₀ s) : KeptOut τ s₀ (execEnableToken rg i uio s) := by
  unfold Machine.execEnableToken
  dsimp only
  split
  · exact h
  · split
    · exact h.takeToken.onRgn
    · exact h

theorem Kept.writeDelay {rg k idelay odelay clocked} (h : Kept τ s₀ s) : Kept τ s₀ (writeDelay s rg k idelay odelay clocked) :=
  h.onRgn

theorem Kept.execFioDly {rg i idelay odelay clocked} (h : Kept τ s₀ s) : KeptOut τ s₀ (execFioDly rg i idelay odelay clocked s) :=
  Kept.ite h.writeDelay h

theorem Kept.execDelayStep {rg i} (h : Kept τ s₀ s) : KeptOut τ s₀ (execDelayStep rg i s) :=
  Kept.ite h.onRgn h

theorem Kept.resetDelays {rg} (h : Kept τ s₀ s) : Kept τ s₀ (resetDelays s rg) :=
  Kept.ite h (h.foldl (fun _ _ h2 => h2.writeDelay))

theorem Kept.execIoSupplyMismatch {q uio} (h : Kept τ s₀ s) : KeptOut τ s₀ (execIoSupplyMismatch q uio s) :=
  have h1 : Kept τ s₀ { s with pwr := _, drawn := _ } := h.other
  Kept.ite h1 h1.setRf.setRf

theorem Kept.execIoSupplyReturn {q uio} (h : Kept τ s₀ s) : KeptOut τ s₀ (execIoSupplyReturn q uio s) := by
  unfold Machine.execIoSupplyReturn
  exact h.other.setRf

theorem Kept.execArbiterRound {rg first waitNs} (h : Kept τ s₀ s) : KeptOut τ s₀ (execArbiterRound rg first waitNs s) := by
  unfold Machine.execArbiterRound
  dsimp only
  split
  · exact h
  · exact Kept.ite h h.setRgn

theorem Kept.askPort {rg q} (h : Kept τ s₀ s) : Kept τ s₀ (askPort s rg q).1 := by
  have hd : ∀ {c : Prop} {_ : Decidable c}, Kept τ s₀ (if c then s.draw 32 else (0, s)).2 := .iteSnd h.draw h
  unfold Machine.askPort
  dsimp only
  split
  · exact h
  split
  · dsimp only
    exact h.onRgn
  split
  · exact h.setRgn
  · dsimp only
    exact hd.onRgn

theorem Kept.usePort {rg q f} (h : Kept τ s₀ s) (hf : ∀ t, Kept τ s₀ t → Kept τ s₀ (f t)) : Kept τ s₀ (usePort s rg q f) :=
  Kept.ite (hf _ h.askPort).onRgn h.askPort

theorem Kept.portGives {α : Type} {rg q dmem} {f : State → State × α} (h : Kept τ s₀ s) (hf : ∀ t, Kept τ s₀ t → Kept τ s₀ (f t).1) :
    Kept τ s₀ (portGives s rg q dmem f).1 :=
  Kept.iteFst (hf _ h.askPort).onRgn h.askPort

theorem Kept.debugPort {α : Type} {rg dmem} {f : State → State × α} (h : Kept τ s₀ s) (hf : ∀ t, Kept τ s₀ t → Kept τ s₀ (f t).1) :
    KeptIf τ s₀ ((debugPort s rg dmem f).map Prod.fst) := by
  unfold Machine.debugPort
  dsimp only
  split
  · trivial
  · split
    · exact hf _ h
    · split
      · exact hf _ h.bumpR
      · trivial

theorem Kept.writeMarkers {rg} (h : Kept τ s₀ s) : Kept τ s₀ (writeMarkers s rg) :=
  h.foldl (fun _ _ h1 => Kept.ite (h1.usePort (fun _ h2 => h2.settleMarker)) h1)

theorem Kept.traceGrant {rg f} (h : Kept τ s₀ s) (hf : ∀ t, Kept τ s₀ t → Kept τ s₀ (f t)) : Kept τ s₀ (traceGrant s rg f) :=
  Kept.ite h.writeMarkers (h.writeMarkers.usePort hf)

theorem Kept.writeMerge {rg} (h : Kept τ s₀ s) : Kept τ s₀ (writeMerge s rg) := by
  unfold Machine.writeMerge
  dsimp only
  split
  · exact h
  · exact h.setRgn.ringWrite

theorem Kept.writeMerges {rg} (h : Kept τ s₀ s) : Kept τ s₀ (writeMerges s rg) :=
  h.foldl (fun _ _ h1 => Kept.ite h1 (h1.traceGrant (fun _ h2 => h2.writeMerge)))

theorem Kept.tryEnd {rg c} (h : Kept τ s₀ s) : Kept τ s₀ (tryEnd s rg c) :=
  Kept.ite h.endStall.setCl h

theorem Kept.completeBp {rg c b w} (h : Kept τ s₀ s) : Kept τ s₀ (completeBp s rg c b w) :=
  h.onRgn.tryEnd

theorem Kept.finishBp {rg c b w} (h : Kept τ s₀ s) : Kept τ s₀ (finishBp s rg c b w) :=
  (Kept.ite h.draw.setRf h).completeBp

theorem Kept.stallBp {rg c b es} (h : Kept τ s₀ s) : Kept τ s₀ (stallBp s rg c b es) :=
  h.onRgn

theorem Kept.damagedStroke {rg c b w} (h : Kept τ s₀ s) : Kept τ s₀ (damagedStroke s rg c b w) :=
  h.bumpR.onRgn.noteFault.taint.finishBp

theorem Kept.runBp {rg c b upset named act} (h : Kept τ s₀ s) (hact : ∀ t w, Kept τ s₀ t → Kept τ s₀ (act t w)) :
    Kept τ s₀ (runBp s rg c b upset named act) := by
  unfold Machine.runBp
  refine Kept.ite h ?_
  dsimp only
  split
  · exact Kept.ite (hact _ _ h.setRgn) h
  · exact Kept.ite (hact _ _ h.setRgn.bumpR.noteFault) h
  · exact h.setRgn.damagedStroke

theorem Kept.withOperands {rg c b es go} (h : Kept τ s₀ s) (hgo : ∀ t vs, Kept τ s₀ t → Kept τ s₀ (go t vs)) :
    Kept τ s₀ (withOperands s rg c b es go) := by
  unfold Machine.withOperands
  dsimp only
  split
  · exact h.stallBp
  · exact hgo _ _ h

theorem Kept.evalBp {rg c b next w} (h : Kept τ s₀ s) : Kept τ s₀ (evalBp s rg c b next w) :=
  Kept.ite h.bumpR.noteFault.finishBp (h.withOperands (fun _ _ h4 => h4.finishBp))

theorem Kept.execNop {rg c b upset} (h : Kept τ s₀ s) : KeptOut τ s₀ (execNop rg c b upset s) :=
  h.runBp (fun _ _ h1 => h1.finishBp)

theorem Kept.execEval {rg c b upset} (h : Kept τ s₀ s) : KeptOut τ s₀ (execEval rg c b upset s) :=
  h.runBp (fun _ _ h1 => h1.evalBp)

theorem Kept.execEvalS {rg c b upset} (h : Kept τ s₀ s) : KeptOut τ s₀ (execEvalS rg c b upset s) :=
  h.runBp (fun _ _ h1 => h1.evalBp)

theorem Kept.execReservedOp {rg c b upset} (h : Kept τ s₀ s) : KeptOut τ s₀ (execReservedOp rg c b upset s) :=
  h.runBp (fun _ _ h1 => h1.bumpR.noteFault.finishBp)

theorem Kept.execStrokeBegin {rg c stallNs endAt flaw} (h : Kept τ s₀ s) : KeptOut τ s₀ (execStrokeBegin rg c stallNs endAt flaw s) :=
  Kept.ite (Kept.ite h.uncontained (Kept.ite h.uncontained (Kept.ite h.tableEcc h.tableEcc.bumpR.onRgn))) h

theorem Kept.execLongStall {rg c} (h : Kept τ s₀ s) : KeptOut τ s₀ (execLongStall rg c s) :=
  Kept.ite h (Kept.ite h.setRf h)

theorem Kept.runLead {rg c upset op act} (h : Kept τ s₀ s) (hact : ∀ t w, Kept τ s₀ t → Kept τ s₀ (act t w)) :
    Kept τ s₀ (runLead s rg c upset op act) :=
  h.runBp hact

theorem Kept.leadWaits {rg c l} (h : Kept τ s₀ s) : Kept τ s₀ (leadWaits s rg c l) :=
  h.onRgn

theorem Kept.unmappedBundle {rg input stream} (h : Kept τ s₀ s) : Kept τ s₀ (unmappedBundle s rg input stream) :=
  (Kept.ite h h.bumpR.onRgn).noteFault.taint

theorem Kept.injectBundle {rg data ix} (h : Kept τ s₀ s) : Kept τ s₀ (injectBundle s rg data ix) :=
  Kept.ite h.unmappedBundle h.setRgn

theorem Kept.execSend {rg c upset table_} (h : Kept τ s₀ s) : KeptOut τ s₀ (execSend rg c upset table_ s) :=
  h.runLead (fun _ _ h1 => h1.withOperands (fun _ _ h2 => Kept.of (fun h3 => Kept.ite h3 (Kept.ite h3.injectBundle.finishBp h3.leadWaits)) h2.tableEcc))

theorem Kept.execInjectionTake {rg c waitNs} (h : Kept τ s₀ s) : KeptOut τ s₀ (execInjectionTake rg c waitNs s) := by
  unfold Machine.execInjectionTake
  split
  · exact Kept.ite h.bumpR.injectBundle.finishBp h
  · exact h

theorem Kept.execMemrd {rg c upset} (h : Kept τ s₀ s) : KeptOut τ s₀ (execMemrd rg c upset s) :=
  h.runLead (fun _ _ h1 => h1.withOperands (fun _ _ h2 => h2.leadWaits))

theorem Kept.execMemwr {rg c upset} (h : Kept τ s₀ s) : KeptOut τ s₀ (execMemwr rg c upset s) :=
  h.runLead (fun _ _ h1 => h1.withOperands (fun _ _ h2 => h2.leadWaits))

theorem Kept.replayUndos {rg p} (h : Kept τ s₀ s) : Kept τ s₀ (replayUndos s rg p) :=
  Kept.ite h ((h.foldl (fun _ _ h3 => h3.readRecord)).onRgn)

theorem Kept.execFrontPortTake {rg waitNs undoNs table_} (h : Kept τ s₀ s) : KeptOut τ s₀ (execFrontPortTake rg waitNs undoNs table_ s) := by
  unfold Machine.execFrontPortTake
  dsimp only
  split
  · exact h
  · split
    · exact Kept.ite h.tableEcc h.bumpR.tableEcc.replayUndos.onRgn.finishBp
    · exact Kept.ite h.tableEcc (Kept.ite h h.bumpR.tableEcc.bumpR.replayUndos.onRgn.finishBp)
    · exact h

theorem Kept.frontUe {rg a} (h : Kept τ s₀ s) : Kept τ s₀ (frontUe s rg a) := by
  unfold Machine.frontUe
  exact h.bumpR.noteFault.onRgn

theorem Kept.frontCe {rg a} (h : Kept τ s₀ s) : Kept τ s₀ (frontCe s rg a) :=
  h.bumpR.noteFault

theorem Kept.execMemrdData {rg ecc} (h : Kept τ s₀ s) : KeptOut τ s₀ (execMemrdData rg ecc s) := by
  unfold Machine.execMemrdData
  dsimp only
  split
  · refine Kept.of (fun h1 => Kept.onRgn (.ite h1 h1.onCl)) ?_
    split
    · exact h.setRgn
    · exact h.setRgn.frontCe
    · exact h.setRgn.frontUe.taint
  · exact h

theorem Kept.execMemwrPerformed {rg ecc} (h : Kept τ s₀ s) : KeptOut τ s₀ (execMemwrPerformed rg ecc s) := by
  unfold Machine.execMemwrPerformed
  dsimp only
  split
  · refine Kept.tryEnd (Kept.onRgn (Kept.onCl (Kept.pushUndo ?_)))
    split
    · exact h.setRgn
    · exact h.setRgn.frontCe
    · exact .ite h.setRgn.frontUe h.setRgn.frontUe.taint
  · exact h

theorem Kept.takeProbe {rg c num data} (h : Kept τ s₀ s) : Kept τ s₀ (takeProbe s rg c num data) :=
  Kept.ite h.finishBp (Kept.ite h.setRgn.finishBp h.setRgn.finishBp)

theorem Kept.execProbe {rg c upset} (h : Kept τ s₀ s) : KeptOut τ s₀ (execProbe rg c upset s) :=
  h.runLead (fun _ _ h1 => h1.withOperands (fun _ _ h2 => Kept.ite h2.takeProbe h2.leadWaits))

theorem Kept.execTraceWriterTake {rg c waitNs} (h : Kept τ s₀ s) : KeptOut τ s₀ (execTraceWriterTake rg c waitNs s) := by
  unfold Machine.execTraceWriterTake
  split
  · exact Kept.ite h.bumpR.takeProbe h
  · exact h

theorem Kept.execHaltif {rg c upset} (h : Kept τ s₀ s) : KeptOut τ s₀ (execHaltif rg c upset s) := by
  unfold Machine.execHaltif
  exact h.runLead (fun _ _ h1 => h1.withOperands (fun _ _ h2 => Kept.ite (Kept.of (fun h3 => Kept.of (fun h4 => (Kept.ite (by split; exact h4.requestHold; exact h4) h4).finishBp) (Kept.ite h3 h3.onRgn)) h2.bumpR) h2.finishBp))

theorem Kept.execEndStroke {rg c upset cycleNs} (h : Kept τ s₀ s) : KeptOut τ s₀ (execEndStroke rg c upset cycleNs s) :=
  Kept.ite (h.runLead (fun _ _ h2 => h2.setRf.completeBp)) h

theorem Kept.tryBegin {rg} (h : Kept τ s₀ s) : Kept τ s₀ (tryBegin s rg) :=
  Kept.ite h.onRgn h

theorem Kept.openLatches {r} (h : Kept τ s₀ s) : Kept τ s₀ (openLatches s r).2 :=
  Kept.foldlSnd h fun _ _ h1 => .iteSnd h1.draw h1

theorem Kept.capture {rg} (h : Kept τ s₀ s) : Kept τ s₀ (capture s rg) := by
  unfold Machine.capture
  split
  · exact h
  · next kind target _ =>
    refine .ite ?_ h
    have h1 : Kept τ s₀ (if kind = 1 then Machine.openLatches s (s.rgn rg) else (s.rgn rg, s)).2 := .iteSnd h.openLatches h
    generalize (if kind = 1 then Machine.openLatches s (s.rgn rg) else (s.rgn rg, s)) = x at h1 ⊢
    obtain ⟨r, t⟩ := x
    exact (h1.withSram fun hm => Memory.wf_foldl (fun _ _ => Mem.wf_write _ _ _) _ (SMap.wf_keep _ hm)).setF.set48

theorem Kept.replayInjects {rg} (h : Kept τ s₀ s) : Kept τ s₀ (replayInjects s rg) :=
  Kept.ite h (h.meetDamaged.foldl (fun _ _ h4 => h4.readRecord.onCl))

theorem Kept.flushMerges {rg n} (h : Kept τ s₀ s) : Kept τ s₀ (flushMerges s rg n) :=
  h.setRgn.writeMerges

theorem Kept.patrolWord {rg c b t} (h : Kept τ s₀ s) : Kept τ s₀ (patrolWord s rg c b t) := by
  unfold Machine.patrolWord
  dsimp only
  split
  · exact h
  · exact h.setRgn.bumpR.noteFault
  · exact h.bumpR.onRgn.noteFault

theorem Kept.patrol {rg} (h : Kept τ s₀ s) : Kept τ s₀ (patrol s rg) :=
  h.foldl (fun _ _ h1 => Kept.ite h1 ((h1.foldl (fun _ _ h2 => h2.patrolWord)).setRf))

theorem Kept.countSlip {rg len} (h : Kept τ s₀ s) : Kept τ s₀ (countSlip s rg len) :=
  Kept.of (fun h1 => (Kept.ite h1.setRf h1).bump) h.bumpR

theorem Kept.beginLate {rg} (h : Kept τ s₀ s) : Kept τ s₀ (beginLate s rg) := by
  unfold Machine.beginLate
  split
  · exact h
  · exact Kept.of (fun h1 => Kept.ite h1.onRgn h1) h.tryBegin

theorem Kept.doFix {rg slip} (h : Kept τ s₀ s) : Kept τ s₀ (doFix s rg slip) := by
  unfold Machine.doFix
  split
  · exact h
  · exact Kept.of (fun h2 => Kept.of (fun h3 => Kept.of (fun h5 => (((Kept.iteFst h5.writeMarkers.takeSnapshot h5).onRgn).replayInjects).onRgn.onRgn.flushMerges.patrol) ((Kept.ite h3.bumpR h3).onRgn.capture)) (Kept.ite h2.countSlip h2)) h.replayUndos.onRgn.other

theorem Kept.fillJunction {rg c j v} (h : Kept τ s₀ s) : Kept τ s₀ (fillJunction s rg c j v) := by
  unfold Machine.fillJunction
  exact h.onCl.onRgn

theorem Kept.replayJunction {rg c j} (h : Kept τ s₀ s) : Kept τ s₀ (replayJunction s rg c j) := by
  suffices ∀ f, f = Machine.replayJunction → Kept τ s₀ (f s rg c j) from this _ rfl
  intro f hf
  delta Machine.replayJunction at hf
  subst hf
  beta_reduce
  extract_lets r next
  clear_value next
  cases next with
  | none => exact h
  | some x => exact h.onRgn.readRecord.fillJunction

theorem Kept.jpostDone {rg c j} (h : Kept τ s₀ s) : Kept τ s₀ (jpostDone s rg c j) :=
  Kept.of (fun h2 => Kept.ite h2.replayJunction h2) h.onCl.finishBp

theorem Kept.presentWord {rg c j v} (h : Kept τ s₀ s) : Kept τ s₀ (presentWord s rg c j v) :=
  Kept.ite h.leadWaits (Kept.ite h.jpostDone h.leadWaits.onRgn.dropLanes)

theorem Kept.execJpost {rg c upset} (h : Kept τ s₀ s) : KeptOut τ s₀ (execJpost rg c upset s) :=
  h.runLead (fun _ _ h1 => h1.withOperands (fun _ _ h2 => Kept.ite h2.jpostDone h2.presentWord))

theorem Kept.execJpostAck {rg c waitNs} (h : Kept τ s₀ s) : KeptOut τ s₀ (execJpostAck rg c waitNs s) := by
  unfold Machine.execJpostAck
  split
  · exact Kept.ite h h.bumpR.jpostDone
  · exact h

theorem Kept.presentWaiting {rg} (h : Kept τ s₀ s) : Kept τ s₀ (presentWaiting s rg) := by
  unfold Machine.presentWaiting
  exact h.foldl (fun _ _ h1 => by split; exact Kept.ite h1.presentWord (h1.draw.bumpR.presentWord); exact h1)

theorem Kept.execJunctionDeliver {rg c j} (h : Kept τ s₀ s) : KeptOut τ s₀ (execJunctionDeliver rg c j s) := by
  unfold Machine.execJunctionDeliver
  exact Kept.ite h (Kept.of (fun h5 => (Kept.ite h5.pushBin h5).fillJunction) (h.foldl (fun _ _ h4 => by split; exact h4.takeToken; exact h4)))

theorem Kept.waitSpacing {rg} (h : Kept τ s₀ s) : Kept τ s₀ (waitSpacing s rg) :=
  h.onRgn

theorem Kept.execCycleComplete {rg phase} (h : Kept τ s₀ s) : KeptOut τ s₀ (execCycleComplete rg phase s) :=
  Kept.ite (Kept.of (fun h2 => Kept.ite h2.setRf (Kept.ite h2.waitSpacing h2.doFix)) h.onRgn) h

theorem Kept.execBoundaryPass {rg par} (h : Kept τ s₀ s) : KeptOut τ s₀ (execBoundaryPass rg par s) :=
  Kept.ite h (Kept.ite h.uncontained (Kept.of (fun h3 => Kept.ite h3 (Kept.ite h3.waitSpacing h3.doFix)) h.onRgn))

theorem Kept.execMinFixSpacing {rg} (h : Kept τ s₀ s) : KeptOut τ s₀ (execMinFixSpacing rg s) :=
  Kept.ite h (Kept.of (fun h2 => Kept.ite h2.doFix h2) h.onRgn)

theorem Kept.execFixOverheadEnd {rg} (h : Kept τ s₀ s) : KeptOut τ s₀ (execFixOverheadEnd rg s) := by
  unfold Machine.execFixOverheadEnd
  dsimp only
  split
  · exact h
  · exact Kept.ite h (Kept.ite h.setRf.jobHeld h.onRgn.tryBegin)

theorem Kept.execEwinExpiry {rg} (h : Kept τ s₀ s) : KeptOut τ s₀ (execEwinExpiry rg s) :=
  Kept.ite h.onRgn.tryBegin h

theorem Kept.execMinRestart {rg} (h : Kept τ s₀ s) : KeptOut τ s₀ (execMinRestart rg s) :=
  h.setRf

theorem Kept.applyStart {j t} (h : Kept τ s₀ s) : Kept τ s₀ (applyStart s j t) :=
  Kept.ite h.setF (Kept.ite h (Kept.ite h.setF (Kept.ite h.setF.ibi (Kept.ite h.setF h.setJob.startChecks))))

theorem Kept.execJobStart {j} (h : Kept τ s₀ s) : KeptOut τ s₀ (execJobStart j s) := by
  unfold Machine.execJobStart
  split
  · exact h
  · exact Kept.ite h (Kept.ite h.setJob (Kept.ite h.setJob.setF (h.set48.setF.setJob.foldl (fun _ _ h12 => h12.onRgn))))

theorem Kept.execHold {j} (h : Kept τ s₀ s) : KeptOut τ s₀ (execHold j s) :=
  h.setF.requestHold

theorem Kept.resumeJob {j at_} (h : Kept τ s₀ s) : Kept τ s₀ (resumeJob s j at_) :=
  Kept.ite h.resumeSoon (Kept.ite h.resumeSoon.setF h.startChecks.setJob)

theorem Kept.execResume {j} (h : Kept τ s₀ s) : KeptOut τ s₀ (execResume j s) :=
  h.resumeJob

theorem Kept.replayWaiting {rg} (h : Kept τ s₀ s) : Kept τ s₀ (replayWaiting s rg) :=
  h.foldl (fun _ _ h1 => h1.foldl (fun _ _ h2 => Kept.ite h2.replayJunction h2))

theorem Kept.execResumeTick {j} (h : Kept τ s₀ s) : KeptOut τ s₀ (execResumeTick j s) := by
  unfold Machine.execResumeTick
  dsimp only
  split
  · exact Kept.ite h (h.set48.setJob.setF.setF.setF.foldl (fun _ _ h10 => h10.onRgn.writeMarkers.replayInjects.replayWaiting.onRgn))
  · exact h

theorem Kept.execRearm {j} (h : Kept τ s₀ s) : KeptOut τ s₀ (execRearm j s) :=
  Kept.ite h (h.setF.setF.setF.setF.setF.setJob.foldl (fun _ _ h6 => Kept.ite h6 h6.setRf.setRf))

theorem Kept.countAccepted {b} (h : Kept τ s₀ s) : Kept τ s₀ (countAccepted s b) := by
  unfold Machine.countAccepted
  split
  · exact h
  · exact h.onRgn

theorem Kept.loseBundles {key} (h : Kept τ s₀ s) : Kept τ s₀ (loseBundles s key) := by
  unfold Machine.loseBundles
  exact (h.foldS fun _ _ h1 => h1.countAccepted).other

theorem Kept.cutTrails {gone} (h : Kept τ s₀ s) : Kept τ s₀ (s.cutTrails gone) := by
  unfold State.cutTrails
  exact h.other

theorem Kept.emptyLocal {rg} (h : Kept τ s₀ s) : Kept τ s₀ (emptyLocal s rg) := by
  unfold Machine.emptyLocal
  exact (h.other.cutTrails.foldl (fun _ _ h3 => h3.countAccepted)).onRgn.loseBundles.loseBundles

theorem Kept.performReset {rg} (h : Kept τ s₀ s) : Kept τ s₀ (performReset s rg) := by
  unfold Machine.performReset
  exact Kept.of (fun h3 => Kept.of (fun h4 => Kept.ite h4.isolate h4) (by split; exact Kept.ite h3.failJob h3; exact h3)) h.emptyLocal.flushRegion.breakOwned.setRgn.resetDelays.startLatches

theorem Kept.drainedRegion {rg} (h : Kept τ s₀ s) : Kept τ s₀ (drainedRegion s rg) :=
  Kept.ite h (Kept.ite h.onRgn h.performReset)

theorem Kept.resetIfDue {rg} (h : Kept τ s₀ s) : Kept τ s₀ (resetIfDue s rg) :=
  Kept.ite h.drainedRegion h

theorem Kept.requestReset {rg release} (h : Kept τ s₀ s) : Kept τ s₀ (requestReset s rg release) :=
  Kept.of (fun h1 => Kept.ite h1 h1.setRf.setRf) (Kept.ite h.onRgn h)

theorem Kept.execRegionReset {rg} (h : Kept τ s₀ s) : KeptOut τ s₀ (execRegionReset rg s) :=
  h.requestReset

theorem Kept.execIsolate {rg} (h : Kept τ s₀ s) : KeptOut τ s₀ (execIsolate rg s) :=
  h.isolate

theorem Kept.execRelease {rg} (h : Kept τ s₀ s) : KeptOut τ s₀ (execRelease rg s) :=
  Kept.ite h.requestReset h

theorem Kept.execRegionWatchdog {rg grant} (h : Kept τ s₀ s) : KeptOut τ s₀ (execRegionWatchdog rg grant s) :=
  Kept.ite (Kept.ite h.noteFault.isolate h) (Kept.ite h.noteFault.isolate h)

theorem Kept.restoreErrors {rg p c d} (h : Kept τ s₀ s) : Kept τ s₀ (restoreErrors s rg p c d) :=
  h.foldl (fun _ _ h1 => h1.ringError)

theorem Kept.restoreRegion {rg i c d} (h : Kept τ s₀ s) : Kept τ s₀ (restoreRegion s rg i c d) := by
  unfold Machine.restoreRegion
  dsimp only
  generalize BitVec.ofNat 18 _ = p
  exact h.onRgn.restoreErrors.onRgn

theorem Kept.restoreIfIdle {rg} (h : Kept τ s₀ s) : Kept τ s₀ (restoreIfIdle s rg) := by
  unfold Machine.restoreIfIdle
  split
  · exact Kept.ite h.restoreRegion h
  · exact h

theorem Kept.execUndo {rg} (h : Kept τ s₀ s) : KeptOut τ s₀ (execUndo rg s) :=
  Kept.ite h ((h.traceGrant (fun _ h2 => h2.drainUndo)).restoreIfIdle)

theorem Kept.writeBin {rg} (h : Kept τ s₀ s) : Kept τ s₀ (writeBin s rg) := by
  unfold Machine.writeBin
  dsimp only
  split
  · exact h
  · exact h.setRgn.ringWrite

theorem Kept.execBin {rg} (h : Kept τ s₀ s) : KeptOut τ s₀ (execBin rg s) :=
  Kept.ite h ((h.traceGrant (fun _ h2 => h2.writeBin)).restoreIfIdle)

theorem Kept.writeTrace {rg} (h : Kept τ s₀ s) : Kept τ s₀ (writeTrace s rg) := by
  unfold Machine.writeTrace
  dsimp only
  split
  · exact h
  · exact h.setRgn.ringWrite.onCl.tryEnd

theorem Kept.execTrace {rg} (h : Kept τ s₀ s) : KeptOut τ s₀ (execTrace rg s) :=
  Kept.ite h ((h.traceGrant (fun _ h2 => h2.writeTrace)).restoreIfIdle)

theorem Kept.execSnapx {rg} (h : Kept τ s₀ s) : KeptOut τ s₀ (execSnapx rg s) :=
  Kept.ite ((h.traceGrant (fun _ h2 => h2.onRgn)).restoreIfIdle) h

theorem Kept.execMarker {rg} (h : Kept τ s₀ s) : KeptOut τ s₀ (execMarker rg s) :=
  h.writeMarkers.restoreIfIdle

theorem Kept.execGap {rg} (h : Kept τ s₀ s) : KeptOut τ s₀ (execGap rg s) :=
  Kept.ite ((h.usePort (fun _ h2 => h2.onRgn.lowCheck)).restoreIfIdle) h

theorem Kept.dropRecords {rg} (h : Kept τ s₀ s) : Kept τ s₀ (dropRecords s rg) :=
  Kept.ite h (h.onRgn.foldl (fun _ _ h4 => h4.onCl.tryEnd))

theorem Kept.execRecEn {rg v} (h : Kept τ s₀ s) : KeptOut τ s₀ (execRecEn rg v s) :=
  Kept.ite (Kept.of (fun h3 => Kept.ite h3 h3.onRgn) h.setRf) (Kept.of (fun h4 => (Kept.ite h4.onRgn h4).restoreIfIdle) h.dropRecords.setRf)

theorem Kept.refuseRwd {rg code} (h : Kept τ s₀ s) : Kept τ s₀ (refuseRwd s rg code) :=
  h.setRf

theorem Kept.execRwdRelease {rg} (h : Kept τ s₀ s) : KeptOut τ s₀ (execRwdRelease rg s) := by
  unfold Machine.execRwdRelease
  dsimp only
  split
  · exact h.refuseRwd
  · exact h.setRgn

theorem Kept.acceptRewind {rg i c d errs} (h : Kept τ s₀ s) : Kept τ s₀ (acceptRewind s rg i c d errs) :=
  h.onRgn.restoreIfIdle

theorem Kept.execRewind {rg errs} (h : Kept τ s₀ s) : KeptOut τ s₀ (execRewind rg errs s) := by
  unfold Machine.execRewind
  dsimp only
  split
  · exact h.refuseRwd
  · split
    · exact h
    · exact h.foldl (fun _ _ h1 => by split; exact h1; exact h1.acceptRewind)

theorem Kept.execRestoreDone {j} (h : Kept τ s₀ s) : KeptOut τ s₀ (execRestoreDone j s) := by
  unfold Machine.execRestoreDone
  dsimp only
  split
  · exact h
  · exact (h.setJob.setReg.foldl (fun _ _ h2 => h2.setRf.setRf)).foldl (fun _ _ h4 => h4.resetIfDue)

theorem Kept.execReplayArm {rg} (h : Kept τ s₀ s) : KeptOut τ s₀ (execReplayArm rg s) := by
  unfold Machine.execReplayArm
  dsimp only
  split
  · exact h.refuseRwd
  · split
    · exact h.refuseRwd
    · exact Kept.ite h.refuseRwd ((h.foldl (fun _ _ h3 => h3.onRgn)).setRf)

theorem Kept.releasePort {rg k} (h : Kept τ s₀ s) : Kept τ s₀ (releasePort s rg k) :=
  h.onRgn

theorem Kept.haltCore {rg k cause unit} (h : Kept τ s₀ s) : Kept τ s₀ (haltCore s rg k cause unit) :=
  h.releasePort.onRgn

theorem Kept.boundary {rg k} (h : Kept τ s₀ s) : Kept τ s₀ (boundary s rg k) :=
  Kept.ite h.haltCore (Kept.ite h.haltCore h)

theorem Kept.takeTrap {rg k cause} (h : Kept τ s₀ s) : Kept τ s₀ (takeTrap s rg k cause) :=
  Kept.ite h.haltCore (Kept.of (fun h4 => Kept.ite h4.boundary h4.setRf.setRf.ibi) h.releasePort.setRf.setEas)

theorem Kept.retire {rg k ie next} (h : Kept τ s₀ s) : Kept τ s₀ (retire s rg k ie next) :=
  h.onEas.bumpR.boundary

theorem Kept.countStalls {rg k e w jumps} (h : Kept τ s₀ s) : Kept τ s₀ (countStalls s rg k e w jumps) :=
  ((Kept.iteSnd h.draw h).onEas).bumpR

theorem Kept.stallMore {rg k w} (h : Kept τ s₀ s) : Kept τ s₀ (stallMore s rg k w) :=
  h.draw.onEas.bumpR

theorem Kept.easStep {rg k op f} (h : Kept τ s₀ s) (hf : ∀ t w, Kept τ s₀ t → (f t w).Keeps τ s₀) : Kept τ s₀ (easStep s rg k op f) := by
  have hdid := hf s (s.insnAt rg k) h
  unfold Machine.easStep
  refine Kept.ite h (Kept.ite h.takeTrap (Kept.ite h.takeTrap (Kept.ite h (Kept.ite h.takeTrap ?_))))
  cases hd : f s (s.insnAt rg k) with
  | done t next => rw [hd] at hdid; exact (Kept.countStalls hdid).retire
  | trap t c => rw [hd] at hdid; exact Kept.takeTrap hdid
  | stall t => rw [hd] at hdid; exact Kept.stallMore hdid
  | stop t => rw [hd] at hdid; exact hdid

theorem Kept.onCore {rg k f w} (h : Kept τ s₀ s) : (onCore rg k f s w).Keeps τ s₀ :=
  h.onEas

theorem Kept.runLoad {n rg k w} (h : Kept τ s₀ s) : (runLoad n rg k s w).Keeps τ s₀ :=
  Did.Keeps.ite h (Did.Keeps.ite h h.setEas)

theorem Kept.runStore {n rg k w} (h : Kept τ s₀ s) : (runStore n rg k s w).Keeps τ s₀ :=
  Did.Keeps.ite h (Did.Keeps.ite h h.setEas)

theorem Kept.execEasLd {rg k} (h : Kept τ s₀ s) : KeptOut τ s₀ (execEasLd rg k s) :=
  h.easStep (fun _ _ h1 => h1.runLoad)

theorem Kept.execEasSt {rg k} (h : Kept τ s₀ s) : KeptOut τ s₀ (execEasSt rg k s) :=
  h.easStep (fun _ _ h1 => h1.runStore)

theorem Kept.execEasLdd {rg k} (h : Kept τ s₀ s) : KeptOut τ s₀ (execEasLdd rg k s) :=
  h.easStep (fun _ _ h1 => h1.runLoad)

theorem Kept.execEasStd {rg k} (h : Kept τ s₀ s) : KeptOut τ s₀ (execEasStd rg k s) :=
  h.easStep (fun _ _ h1 => h1.runStore)

theorem Kept.runPal {rg k w} (h : Kept τ s₀ s) : (runPal rg k s w).Keeps τ s₀ :=
  Did.Keeps.ite h (Did.Keeps.ite h (Did.Keeps.ite h (Did.Keeps.ite h (Did.Keeps.ite h.onCl.logInject h.setEas))))

theorem Kept.execEasPal {rg k} (h : Kept τ s₀ s) : KeptOut τ s₀ (execEasPal rg k s) :=
  h.easStep (fun _ _ h1 => h1.runPal)

theorem Kept.backAccess {rg k w ecc undoNs} (h : Kept τ s₀ s) : (backAccess s rg k w ecc undoNs).Keeps τ s₀ := by
  unfold Machine.backAccess
  refine Did.Keeps.ite h.backWrite.onRgn ?_
  dsimp only
  split
  · exact h.backRead.onEas.onRgn
  · exact Did.Keeps.ite h.backRead.onEas.onRgn.setRf.bumpR h.backRead.onEas.onRgn.setRf.bumpR

theorem Kept.runBpa {ecc undoNs rg k w} (h : Kept τ s₀ s) : (runBpa ecc undoNs rg k s w).Keeps τ s₀ :=
  Did.Keeps.ite h (Did.Keeps.ite h (Did.Keeps.ite h.askPort h.askPort.backAccess))

theorem Kept.execEasBpa {rg k ecc undoNs} (h : Kept τ s₀ s) : KeptOut τ s₀ (execEasBpa rg k ecc undoNs s) :=
  h.easStep (fun _ _ h1 => h1.runBpa)

theorem Kept.execGrantIdleDrop {rg k} (h : Kept τ s₀ s) : KeptOut τ s₀ (execGrantIdleDrop rg k s) :=
  Kept.ite h.releasePort h

theorem Kept.queueError {rg k} (h : Kept τ s₀ s) : Kept τ s₀ (queueError s rg k) :=
  h.noteFault

theorem Kept.runMbrd {rg k w} (h : Kept τ s₀ s) : (runMbrd rg k s w).Keeps τ s₀ := by
  unfold Machine.runMbrd
  dsimp only
  split
  · exact h
  · split
    · exact h.setEas
    · exact Kept.of (fun h1 => Kept.ite h1.setRf.queueError h1) h.onRgn

theorem Kept.abandonWord (h : Kept τ s₀ s) : Kept τ s₀ (abandonWord s) :=
  h.bump

theorem Kept.noteAbandon {rg k} (h : Kept τ s₀ s) : Kept τ s₀ (noteAbandon s rg k) :=
  h.setReg

theorem Kept.runMbwr {rg k w} (h : Kept τ s₀ s) : (runMbwr rg k s w).Keeps τ s₀ :=
  Did.Keeps.ite h (Did.Keeps.ite h.abandonWord.noteAbandon (Did.Keeps.ite h h.onRgn))

theorem Kept.execEasMbrd {rg k} (h : Kept τ s₀ s) : KeptOut τ s₀ (execEasMbrd rg k s) :=
  h.easStep (fun _ _ h1 => h1.runMbrd)

theorem Kept.execEasMbwr {rg k} (h : Kept τ s₀ s) : KeptOut τ s₀ (execEasMbwr rg k s) :=
  h.easStep (fun _ _ h1 => h1.runMbwr)

theorem Kept.runPkt {rg k w} (h : Kept τ s₀ s) : (runPkt rg k s w).Keeps τ s₀ := by
  unfold Machine.runPkt
  dsimp only
  split
  · exact h
  · split
    · exact h
    · exact Did.Keeps.ite h h.onRgn

theorem Kept.execEasPkt {rg k} (h : Kept τ s₀ s) : KeptOut τ s₀ (execEasPkt rg k s) :=
  h.easStep (fun _ _ h1 => h1.runPkt)

theorem Kept.endPkt {rg k t cause poison data} (h : Kept τ s₀ s) : Kept τ s₀ (endPkt s rg k t cause poison data) := by
  unfold Machine.endPkt
  dsimp only
  split
  · exact h
  · exact Kept.of (fun h1 => Kept.ite h1.bumpR (Kept.ite h1.bumpR h1)) h.onRgn

theorem Kept.runBr {rg k w} (h : Kept τ s₀ s) : (runBr rg k s w).Keeps τ s₀ :=
  h

theorem Kept.runCall {rg k w} (h : Kept τ s₀ s) : (runCall rg k s w).Keeps τ s₀ :=
  Did.Keeps.ite h.onEas h

theorem Kept.runRet {rg k w} (h : Kept τ s₀ s) : (runRet rg k s w).Keeps τ s₀ :=
  h

theorem Kept.runReti {rg k x} (h : Kept τ s₀ s) : (runReti rg k s x).Keeps τ s₀ :=
  h.onEas

theorem Kept.runLoop {rg k w} (h : Kept τ s₀ s) : (runLoop rg k s w).Keeps τ s₀ :=
  Did.Keeps.ite h (Did.Keeps.ite h (Did.Keeps.ite h h.setEas))

theorem Kept.releaseFix {rg k} (h : Kept τ s₀ s) : Kept τ s₀ (releaseFix s rg k) :=
  Kept.ite h (Kept.of (fun h2 => Kept.ite h2.setRf h2) h.setEas)

theorem Kept.runRelfix {rg k x} (h : Kept τ s₀ s) : (runRelfix rg k s x).Keeps τ s₀ :=
  h.releaseFix

theorem Kept.runWait {rg k x} (h : Kept τ s₀ s) : (runWait rg k s x).Keeps τ s₀ :=
  Did.Keeps.ite h h.setEas.setRf

theorem Kept.runKick {rg k x} (h : Kept τ s₀ s) : (runKick rg k s x).Keeps τ s₀ :=
  h.onRgn

theorem Kept.runBrk {rg k x} (h : Kept τ s₀ s) : (runBrk rg k s x).Keeps τ s₀ := by
  unfold Machine.runBrk
  split
  · split
    · exact Did.Keeps.ite h.haltCore h.haltCore
    · exact h.haltCore
  · exact h

theorem Kept.execEasBr {rg k} (h : Kept τ s₀ s) : KeptOut τ s₀ (execEasBr rg k s) :=
  h.easStep (fun _ _ h1 => h1.runBr)

theorem Kept.execEasCall {rg k} (h : Kept τ s₀ s) : KeptOut τ s₀ (execEasCall rg k s) :=
  h.easStep (fun _ _ h1 => h1.runCall)

theorem Kept.execEasRet {rg k} (h : Kept τ s₀ s) : KeptOut τ s₀ (execEasRet rg k s) :=
  h.easStep (fun _ _ h1 => h1.runRet)

theorem Kept.execEasReti {rg k} (h : Kept τ s₀ s) : KeptOut τ s₀ (execEasReti rg k s) :=
  h.easStep (fun _ _ h1 => h1.runReti)

theorem Kept.execEasLoop {rg k} (h : Kept τ s₀ s) : KeptOut τ s₀ (execEasLoop rg k s) :=
  h.easStep (fun _ _ h1 => h1.runLoop)

theorem Kept.execEasRelfix {rg k} (h : Kept τ s₀ s) : KeptOut τ s₀ (execEasRelfix rg k s) :=
  (h.easStep (fun _ _ h1 => h1.runRelfix)).tryBegin

theorem Kept.execEasWait {rg k} (h : Kept τ s₀ s) : KeptOut τ s₀ (execEasWait rg k s) :=
  h.easStep (fun _ _ h1 => h1.runWait)

theorem Kept.execEasKick {rg k} (h : Kept τ s₀ s) : KeptOut τ s₀ (execEasKick rg k s) :=
  h.easStep (fun _ _ h1 => h1.runKick)

theorem Kept.execEasBrk {rg k} (h : Kept τ s₀ s) : KeptOut τ s₀ (execEasBrk rg k s) :=
  h.easStep (fun _ _ h1 => h1.runBrk)

theorem Kept.takeInterrupt {rg k} (h : Kept τ s₀ s) : Kept τ s₀ (takeInterrupt s rg k) :=
  h.onEas

theorem Kept.serveInterrupt {rg k} (h : Kept τ s₀ s) : Kept τ s₀ (serveInterrupt s rg k) := by
  unfold Machine.serveInterrupt
  exact Kept.ite h (Kept.ite h.other (Kept.ite (Kept.of (fun h4 => Kept.ite h4 h4.takeInterrupt) h.setRf.retire) (Kept.ite h.takeInterrupt h)))

theorem Kept.execInterrupt {rg k} (h : Kept τ s₀ s) : KeptOut τ s₀ (execInterrupt rg k s) :=
  h.serveInterrupt

theorem Kept.setQueue {key l} (h : Kept τ s₀ s) : Kept τ s₀ (s.setQueue key l) := by
  unfold State.setQueue
  exact h.other

theorem Kept.pushNet {e i p} (h : Kept τ s₀ s) : Kept τ s₀ (s.pushNet e i p) := by
  unfold State.pushNet
  exact h.setQueue.other

theorem Kept.popNet {key rest} (h : Kept τ s₀ s) : Kept τ s₀ (s.popNet key rest) := by
  unfold State.popNet
  exact h.setQueue.other

theorem Kept.goOn {key e i p} (h : Kept τ s₀ t) : Kept τ s₀ (s.goOn key t e i p) := by
  unfold State.goOn
  exact h.pushNet.other

theorem Kept.countRefused {x} (h : Kept τ s₀ s) : Kept τ s₀ (countRefused s x) := by
  unfold Machine.countRefused
  split
  · exact h.bumpR
  · exact h.bumpR
  · exact h.bump

theorem Kept.countPosted {x} (h : Kept τ s₀ s) : Kept τ s₀ (countPosted s x) := by
  unfold Machine.countPosted
  split
  · exact h.bumpR
  · exact h

theorem Kept.countPostedAt {x} (h : Kept τ s₀ s) : Kept τ s₀ (countPostedAt s x) := by
  unfold Machine.countPostedAt
  split
  · exact h.bump
  · exact h.countPosted

theorem Kept.refuse {el p cause} (h : Kept τ s₀ s) : Kept τ s₀ (refuse s el p cause) :=
  Kept.ite h.countRefused (Kept.ite h.countPosted h.pushNet.countRefused)

theorem Kept.noteWire {rcv wire} (h : Kept τ s₀ s) : Kept τ s₀ (noteWire s rcv wire) := by
  unfold Machine.noteWire
  split
  · exact h
  · exact h.other

theorem Kept.noteCorrected {el d2d} (h : Kept τ s₀ s) : Kept τ s₀ (noteCorrected s el d2d) := by
  unfold Machine.noteCorrected
  extract_lets t
  have h1 : Kept τ s₀ t := h.noteFault
  split
  · exact h1.bumpR
  · exact h1.bumpR.bumpR
  · exact h1.bumpR
  · exact h1

theorem Kept.notePoisoned {el d2d} (h : Kept τ s₀ s) : Kept τ s₀ (notePoisoned s el d2d) := by
  unfold Machine.notePoisoned
  extract_lets t
  have h1 : Kept τ s₀ t := h.noteFault
  split
  · exact h1.bumpR
  · exact h1.bumpR.bumpR
  · exact h1.bumpR
  · exact h1

theorem Kept.noteHeaderDrop {el} (h : Kept τ s₀ s) : Kept τ s₀ (noteHeaderDrop s el) := by
  unfold Machine.noteHeaderDrop
  split
  · exact h.noteFault.bumpR
  · exact h.noteFault.bumpR
  · exact h.noteFault

theorem Kept.checkFlit {el d2d p k upset} (h : Kept τ s₀ s) : Kept τ s₀ (checkFlit s el d2d p k upset).1 := by
  unfold Machine.checkFlit
  refine .iteFst h ?_
  dsimp only
  split
  · exact h
  · exact h.noteCorrected.noteWire
  · exact h.notePoisoned

theorem Kept.checkFlits {el d2d l p} (h : Kept τ s₀ s) : Kept τ s₀ (checkFlits el d2d l s p).1 := by
  induction l generalizing s p with
  | nil => exact h
  | cons x t ih =>
    obtain ⟨k, upset⟩ := x
    have h1 : Kept τ s₀ (Machine.checkFlit s el d2d p k.toNat upset).1 := h.checkFlit
    rw [Machine.checkFlits]
    generalize Machine.checkFlit s el d2d p k.toNat upset = y at h1 ⊢
    exact ih h1

theorem Kept.checkPacket {el d2d p upset data} (h : Kept τ s₀ s) : Kept τ s₀ (checkPacket s el d2d p upset data).1 := by
  unfold Machine.checkPacket
  exact Kept.iteFst h.noteHeaderDrop (Kept.ite h.noteCorrected.noteWire h).checkFlits

theorem Kept.setD2d {q l v} (h : Kept τ s₀ s) : Kept τ s₀ (setD2d s q l v) := by
  unfold Machine.setD2d
  split
  · exact h.setRf.setRf
  · exact h.setRf

theorem Kept.d2dDown {q l} (h : Kept τ s₀ s) : Kept τ s₀ (d2dDown s q l) := by
  unfold Machine.d2dDown
  exact Kept.of (fun h1 => Kept.of (fun h2 => h2.ibi) (by split; exact h1.setRf; exact h1)) h.setD2d.setRf

theorem Kept.refuseFrom {take el p cause} (h : Kept τ s₀ s) (htake : ∀ t, Kept τ s₀ t → Kept τ s₀ (take t)) :
    Kept τ s₀ (refuseFrom s take el p cause) :=
  Kept.ite (htake _ h).refuse h

theorem Kept.deliverLocal {rg p} (h : Kept τ s₀ s) : Kept τ s₀ (deliverLocal s rg p) := by
  unfold Machine.deliverLocal
  exact Kept.ite h.refuse (Kept.ite h.refuse (Kept.ite h.refuse h.other))

theorem Kept.routerMove {rg inp o reset p key rest} (h : Kept τ s₀ s) : Kept τ s₀ (routerMove s rg inp o reset p key rest) :=
  Kept.ite (h.refuseFrom fun _ ht => ht.popNet) (Kept.ite (Kept.ite h.popNet.deliverLocal h)
    (Kept.ite (Kept.ite h.popNet.goOn h) (Kept.ite h.popNet.goOn h)))

theorem Kept.routerHead {rg inp p key rest bad} (h : Kept τ s₀ s) : Kept τ s₀ (routerHead s rg inp p key rest bad) :=
  h.routerMove

theorem Kept.execHeaderFlitRoute {rg inp vc upset data table_} (h : Kept τ s₀ s) : KeptOut τ s₀ (execHeaderFlitRoute rg inp vc upset data table_ s) := by
  unfold Machine.execHeaderFlitRoute
  dsimp only
  split
  · exact h
  · split
    · exact h
    · split
      · exact h.checkPacket.popNet
      · exact Kept.of (fun h1 => Kept.ite h h1.routerHead) (by split; exact h.checkPacket.tableEcc; exact h.checkPacket)

theorem Kept.crossLink {key el q l e i p take} (h : Kept τ s₀ s) (htake : ∀ t, Kept τ s₀ t → Kept τ s₀ (take t)) :
    Kept τ s₀ (crossLink s key el q l e i p take) :=
  Kept.ite (h.refuseFrom htake) (Kept.ite h (htake _ h).goOn)

theorem Kept.quadMove {key q inp p take} (h : Kept τ s₀ s) (htake : ∀ t, Kept τ s₀ t → Kept τ s₀ (take t)) :
    Kept τ s₀ (quadMove s key q inp p take) := by
  unfold Machine.quadMove
  refine Kept.ite (h.refuseFrom htake) (Kept.ite (htake _ h).countRefused (Kept.ite (h.crossLink htake) ?_))
  split
  · exact h.refuseFrom htake
  · exact Kept.ite (Kept.ite (htake _ h).goOn h)
      (Kept.ite (h.crossLink htake) (Kept.ite (h.crossLink htake) (Kept.ite (h.crossLink htake) (h.crossLink htake))))

theorem Kept.setPort {p x} (h : Kept τ s₀ s) : Kept τ s₀ (s.setPort p x) := by
  unfold State.setPort
  exact h.other

theorem Kept.onPort {p f} (h : Kept τ s₀ s) : Kept τ s₀ (s.onPort p f) :=
  h.setPort

theorem Kept.sendOn {port p own} (h : Kept τ s₀ s) : Kept τ s₀ (sendOn s port p own) :=
  h.onPort

theorem Kept.replyOn {port p} (h : Kept τ s₀ s) : Kept τ s₀ (replyOn s port p) :=
  h.sendOn

theorem Kept.hubMove {key p take} (h : Kept τ s₀ s) (htake : ∀ t, Kept τ s₀ t → Kept τ s₀ (take t)) : Kept τ s₀ (hubMove s key p take) := by
  unfold Machine.hubMove
  refine Kept.ite (Kept.ite (h.refuseFrom htake) (Kept.ite (Kept.ite (htake _ h).other h) ?_)) ?_
  · dsimp only
    split
    · exact h.refuseFrom htake
    · exact h.crossLink htake
  · split
    · exact Kept.ite (htake _ h).refuse.bump h
    · exact Kept.ite h (Kept.ite (htake _ h).sendOn.bump (htake _ h).sendOn)

theorem Kept.freeFlits {inp p} (h : Kept τ s₀ s) : Kept τ s₀ (freeFlits s inp p) :=
  Kept.ite h h.onPort

theorem Kept.dropQueued {lost} (h : Kept τ s₀ s) : Kept τ s₀ (s.dropQueued lost) := by
  unfold State.dropQueued
  exact h.other.foldl (fun _ _ h2 => Kept.ite (h2.foldl (fun _ _ h3 => h3.freeFlits)) h2)

theorem Kept.takeHead {el i key rest p} (h : Kept τ s₀ s) : Kept τ s₀ (takeHead s el i key rest p) := by
  unfold Machine.takeHead
  split
  · exact h.popNet.freeFlits
  · exact h.popNet

theorem Kept.switchHead {el i p key rest} (h : Kept τ s₀ s) : Kept τ s₀ (switchHead s el i p key rest) := by
  unfold Machine.switchHead
  dsimp only
  split
  · exact h.quadMove (fun _ h1 => h1.takeHead)
  · exact h.hubMove (fun _ h2 => h2.takeHead)

theorem Kept.execSwitchRoute {el inp vc upset data} (h : Kept τ s₀ s) : KeptOut τ s₀ (execSwitchRoute el inp vc upset data s) := by
  unfold Machine.execSwitchRoute
  dsimp only
  split
  · exact h
  · split
    · exact h
    · split
      · exact h.checkPacket.takeHead
      · exact Kept.ite h h.checkPacket.switchHead

theorem Kept.markSent {p} (h : Kept τ s₀ s) : Kept τ s₀ (markSent s p) := by
  unfold Machine.markSent
  split
  · exact h
  · exact Kept.ite h.endPkt h.onEas

theorem Kept.execRequestInject {p waitNs} (h : Kept τ s₀ s) : KeptOut τ s₀ (execRequestInject p waitNs s) := by
  unfold Machine.execRequestInject
  dsimp only
  generalize (injectAt p.src).1 = el
  refine Kept.ite h ?_
  have h1 : ∀ {i q}, Kept τ s₀ (s.pushNet (elemNo el) i q) := h.pushNet
  have h2 : ∀ {c : Prop} {_ : Decidable c} {i q m},
      Kept τ s₀ (Machine.markSent (if c then s.pushNet (elemNo el) i q else { s.pushNet (elemNo el) i q with tags := m }) q) :=
    (Kept.ite h1 h1.other).markSent
  cases el with
  | router rg => exact h2.bumpR
  | quad _ => exact h2
  | hub => exact h2

theorem Kept.refuseHead {port p rest cause} (h : Kept τ s₀ s) : Kept τ s₀ (refuseHead s port p rest cause) :=
  Kept.of (fun h3 => Kept.ite h3.bump h3.countRefused) h.popNet.freeFlits.onPort.replyOn

theorem Kept.settleDue {port} (h : Kept τ s₀ s) : Kept τ s₀ (settleDue s port) := by
  unfold Machine.settleDue
  exact h.foldl (fun _ _ h1 => by split; exact h1; exact by split; exact Kept.ite h1 (h1.refuseHead); exact h1)

theorem Kept.execInjectionTimeout {p at_} (h : Kept τ s₀ s) : KeptOut τ s₀ (execInjectionTimeout p at_ s) := by
  unfold Machine.execInjectionTimeout
  cases at_ with
  | region rg =>
    refine Kept.ite h ?_
    dsimp only
    split
    · exact h.bumpR.endPkt
    · exact h.bumpR
  | hub => exact Kept.ite h.bump h
  | oxdon port =>
    dsimp only
    split
    · exact h
    · exact Kept.ite h (Kept.ite h.popNet.freeFlits.bump (Kept.ite h (Kept.ite h.onPort h.refuseHead)))

theorem Kept.execResponseTimeout {node tag} (h : Kept τ s₀ s) : KeptOut τ s₀ (execResponseTimeout node tag s) := by
  unfold Machine.execResponseTimeout
  refine Kept.ite h (Kept.ite (Kept.ite h ?_) h.other.bump)
  have h1 : Kept τ s₀ { s with tags := SMap.set false s.tags (tagKey (node.zeroExtend 24) tag.toNat) false } := h.other
  dsimp only
  split
  · exact h1.bumpR.endPkt
  · exact h1.bumpR

theorem Kept.discardHead {el key} (h : Kept τ s₀ s) : Kept τ s₀ (discardHead s el key) := by
  unfold Machine.discardHead
  split
  · exact h
  · split
    · exact h.popNet.noteFault.bumpR.onRgn
    · exact h.popNet.noteFault.bumpR
    · exact h.popNet.noteFault.freeFlits

theorem Kept.execNoProgress {el inp vc} (h : Kept τ s₀ s) : KeptOut τ s₀ (execNoProgress el inp vc s) := by
  unfold Machine.execNoProgress
  split
  · exact h
  · split
    · exact h.discardHead
    · exact h

theorem Kept.execOvrSwap {rg} (h : Kept τ s₀ s) : KeptOut τ s₀ (execOvrSwap rg s) :=
  h.setRf.setRf

theorem Kept.endDrain {rg} (h : Kept τ s₀ s) : Kept τ s₀ (endDrain s rg) :=
  h.setRf.setRf

theorem Kept.execSwapDrained {rg} (h : Kept τ s₀ s) : KeptOut τ s₀ (execSwapDrained rg s) :=
  Kept.ite h.onRgn.bumpR.endDrain h

theorem Kept.execDrainLimit {rg} (h : Kept τ s₀ s) : KeptOut τ s₀ (execDrainLimit rg s) :=
  Kept.ite h.setRf.endDrain h

theorem Kept.execOvrCopy {rg} (h : Kept τ s₀ s) : KeptOut τ s₀ (execOvrCopy rg s) :=
  h.onRgn

theorem Kept.noteSparing {q l wire rx} (h : Kept τ s₀ s) : Kept τ s₀ (noteSparing s q l wire rx) :=
  h.bumpR.setRf.setRf.bumpR

theorem Kept.controlDue {wire} (h : Kept τ s₀ s) : Kept τ s₀ (s.controlDue wire).2 :=
  Kept.iteSnd h.draw h

theorem Kept.execD2dSparing {q l wire rx} (h : Kept τ s₀ s) : KeptOut τ s₀ (execD2dSparing q l wire rx s) := by
  unfold Machine.execD2dSparing
  exact Kept.of (fun h1 => Kept.ite h1 (Kept.ite h1.d2dDown (Kept.of (fun h9 => Kept.of (fun h10 => h10.setD2d.noteFault) (by split; exact h9.noteSparing; exact h9)) h1.other.noteSparing))) h.controlDue

theorem Kept.execD2dResume {q l} (h : Kept τ s₀ s) : KeptOut τ s₀ (execD2dResume q l s) :=
  Kept.ite h.setD2d h

theorem Kept.setD2dFailed {q l n} (h : Kept τ s₀ s) : Kept τ s₀ (s.setD2dFailed q l n) := by
  unfold State.setD2dFailed
  exact h.other

theorem Kept.trainD2d {q l} (h : Kept τ s₀ s) : Kept τ s₀ (trainD2d s q l) :=
  h.setD2d.setD2dFailed

theorem Kept.execD2dRetrain {q l} (h : Kept τ s₀ s) : KeptOut τ s₀ (execD2dRetrain q l s) :=
  h.trainD2d

theorem Kept.execD2dTrained {q l passed} (h : Kept τ s₀ s) : KeptOut τ s₀ (execD2dTrained q l passed s) :=
  Kept.ite h (Kept.ite h.setD2d.setD2dFailed (Kept.ite h.setD2dFailed.d2dDown h.setD2dFailed))

theorem Kept.setBundles {e i par l} (h : Kept τ s₀ s) : Kept τ s₀ (s.setBundles e i par l) := by
  unfold State.setBundles
  exact h.other

theorem Kept.pushBundle {e i b} (h : Kept τ s₀ s) : Kept τ s₀ (s.pushBundle e i b) :=
  h.setBundles

theorem Kept.takeBundle {el i par} (h : Kept τ s₀ s) : Kept τ s₀ (takeBundle s el i par) := by
  unfold Machine.takeBundle
  split
  · exact Kept.ite h.onRgn h.setBundles
  · exact h.setBundles
  · exact Kept.of (fun h1 => Kept.ite h1.onPort h1) h.setBundles

theorem Kept.correctBundle {el d2d} (h : Kept τ s₀ s) : Kept τ s₀ (correctBundle s el d2d) := by
  unfold Machine.correctBundle
  split
  · exact h.noteCorrected
  · exact h.noteCorrected.draw.noteWire

theorem Kept.checkBundle {el i b data tagVote} (h : Kept τ s₀ s) : Kept τ s₀ (checkBundle s el i b data tagVote).1 := by
  unfold Machine.checkBundle
  exact Kept.of (fun h1 => Kept.iteFst h1 (by split; exact h1; exact h1.correctBundle; exact h1.notePoisoned)) (Kept.ite h.correctBundle h)

theorem Kept.routerForward {rg i b hop} (h : Kept τ s₀ s) (ht : Kept τ s₀ t) : Kept τ s₀ (routerForward s t rg i b hop) := by
  cases hop with
  | torus o b' => exact Kept.ite ht.pushBundle h
  | home b' => exact Kept.ite ht.pushBundle h
  | ext b' => exact Kept.ite ht.pushBundle h
  | unmapped => exact ht.unmappedBundle.countAccepted

theorem Kept.quadForward {q b} (h : Kept τ s₀ s) (ht : Kept τ s₀ t) : Kept τ s₀ (quadForward s t q b) :=
  have hput : ∀ {c : Prop} {_ : Decidable c} {e i b}, Kept τ s₀ (if c then t.pushBundle e i b else s) := Kept.ite ht.pushBundle h
  Kept.ite hput (Kept.ite hput (Kept.ite hput hput))

theorem Kept.laneForward {el x b} (h : Kept τ s₀ s) (ht : Kept τ s₀ t) : Kept τ s₀ (laneForward s t el x b) :=
  Kept.ite ht.pushBundle h

theorem Kept.hubForward {b} (h : Kept τ s₀ s) (ht : Kept τ s₀ t) : Kept τ s₀ (hubForward s t b) :=
  Kept.ite (Kept.ite ht.pushBundle h) (Kept.ite ht.countAccepted (Kept.ite ht.onPort h))

theorem Kept.execBundleForward {el inp par data table_ tagVote waitNs} (h : Kept τ s₀ s) : KeptOut τ s₀ (execBundleForward el inp par data table_ tagVote waitNs s) := by
  unfold Machine.execBundleForward
  dsimp only
  split
  · exact h
  · refine Kept.ite h (Kept.of (fun h6 => Kept.ite h6 (Kept.ite h (h6.routerForward h6.takeBundle.bumpR))) ?_)
    split
    · exact h.checkBundle.tableEcc
    · exact h.checkBundle
  · exact Kept.ite (h.laneForward h.takeBundle) (Kept.ite h (h.checkBundle.quadForward h.checkBundle.takeBundle))
  · exact Kept.ite (h.laneForward h.takeBundle) (Kept.ite h (h.checkBundle.hubForward h.checkBundle.takeBundle))

theorem Kept.fillSide {rg c k b} (h : Kept τ s₀ s) : Kept τ s₀ (fillSide s rg c k b) :=
  Kept.of (fun h2 => Kept.ite h2 ((Kept.ite h2 h2.bumpR.onRgn).noteFault.taint)) (Kept.ite h h.onCl.onRgn)

theorem Kept.acceptBundle {rg par table_ waitNs b rest} (h : Kept τ s₀ s) : Kept τ s₀ (acceptBundle s rg par table_ waitNs b rest) := by
  unfold Machine.acceptBundle
  dsimp only
  split
  · exact h.setBundles.bumpR.unmappedBundle
  · split
    · exact h.tableEcc
    · split
      · exact h.setBundles.bumpR.tableEcc.unmappedBundle.countAccepted
      · split
        · exact h
        · split
          · exact h.setBundles.bumpR.tableEcc.fillSide.countAccepted
          · exact h.setBundles.bumpR.tableEcc.fillSide.countAccepted.pushBin

theorem Kept.replayBundle {rg par ecc} (h : Kept τ s₀ s) : Kept τ s₀ (replayBundle s rg par ecc) := by
  suffices ∀ f, f = Machine.replayBundle → Kept τ s₀ (f s rg par ecc) from this _ rfl
  intro f hf
  delta Machine.replayBundle at hf
  subst hf
  beta_reduce
  extract_lets r
  generalize r.nextLinkBundle par = next
  cases next with
  | none => exact h
  | some x => exact Kept.ite h h.setRgn.readRecord.onRgn.onCl.onRgn

theorem Kept.execBundleAccept {rg par fromRing table_ flagErr waitNs} (h : Kept τ s₀ s) : KeptOut τ s₀ (execBundleAccept rg par fromRing table_ flagErr waitNs s) := by
  unfold Machine.execBundleAccept
  split
  · exact h.uncontained
  · split
    · exact Kept.ite h.replayBundle h
    · split
      · exact h
      · exact h.acceptBundle

theorem Kept.runMvs {rg k w} (h : Kept τ s₀ s) : (runMvs rg k s w).Keeps τ s₀ :=
  h.onEas

theorem Kept.execEasNop {rg k} (h : Kept τ s₀ s) : KeptOut τ s₀ (execEasNop rg k s) :=
  h.easStep (fun _ _ h1 => h1.onCore)

theorem Kept.execEasAdd {rg k} (h : Kept τ s₀ s) : KeptOut τ s₀ (execEasAdd rg k s) :=
  h.easStep (fun _ _ h1 => h1.onCore)

theorem Kept.execEasSub {rg k} (h : Kept τ s₀ s) : KeptOut τ s₀ (execEasSub rg k s) :=
  h.easStep (fun _ _ h1 => h1.onCore)

theorem Kept.execEasAnd {rg k} (h : Kept τ s₀ s) : KeptOut τ s₀ (execEasAnd rg k s) :=
  h.easStep (fun _ _ h1 => h1.onCore)

theorem Kept.execEasOr {rg k} (h : Kept τ s₀ s) : KeptOut τ s₀ (execEasOr rg k s) :=
  h.easStep (fun _ _ h1 => h1.onCore)

theorem Kept.execEasXor {rg k} (h : Kept τ s₀ s) : KeptOut τ s₀ (execEasXor rg k s) :=
  h.easStep (fun _ _ h1 => h1.onCore)

theorem Kept.execEasShl {rg k} (h : Kept τ s₀ s) : KeptOut τ s₀ (execEasShl rg k s) :=
  h.easStep (fun _ _ h1 => h1.onCore)

theorem Kept.execEasShr {rg k} (h : Kept τ s₀ s) : KeptOut τ s₀ (execEasShr rg k s) :=
  h.easStep (fun _ _ h1 => h1.onCore)

theorem Kept.execEasShra {rg k} (h : Kept τ s₀ s) : KeptOut τ s₀ (execEasShra rg k s) :=
  h.easStep (fun _ _ h1 => h1.onCore)

theorem Kept.execEasCmp {rg k} (h : Kept τ s₀ s) : KeptOut τ s₀ (execEasCmp rg k s) :=
  h.easStep (fun _ _ h1 => h1.onCore)

theorem Kept.execEasAddi {rg k} (h : Kept τ s₀ s) : KeptOut τ s₀ (execEasAddi rg k s) :=
  h.easStep (fun _ _ h1 => h1.onCore)

theorem Kept.execEasAndi {rg k} (h : Kept τ s₀ s) : KeptOut τ s₀ (execEasAndi rg k s) :=
  h.easStep (fun _ _ h1 => h1.onCore)

theorem Kept.execEasOri {rg k} (h : Kept τ s₀ s) : KeptOut τ s₀ (execEasOri rg k s) :=
  h.easStep (fun _ _ h1 => h1.onCore)

theorem Kept.execEasXori {rg k} (h : Kept τ s₀ s) : KeptOut τ s₀ (execEasXori rg k s) :=
  h.easStep (fun _ _ h1 => h1.onCore)

theorem Kept.execEasLdi {rg k} (h : Kept τ s₀ s) : KeptOut τ s₀ (execEasLdi rg k s) :=
  h.easStep (fun _ _ h1 => h1.onCore)

theorem Kept.execEasCmpi {rg k} (h : Kept τ s₀ s) : KeptOut τ s₀ (execEasCmpi rg k s) :=
  h.easStep (fun _ _ h1 => h1.onCore)

theorem Kept.execEasMvs {rg k} (h : Kept τ s₀ s) : KeptOut τ s₀ (execEasMvs rg k s) :=
  h.easStep (fun _ _ h1 => h1.runMvs)

theorem Kept.execEasMsv {rg k} (h : Kept τ s₀ s) : KeptOut τ s₀ (execEasMsv rg k s) :=
  h.easStep (fun _ _ h1 => h1.onCore)

theorem Kept.resetOne {rg k} (h : Kept τ s₀ s) : Kept τ s₀ (resetOne s rg k) :=
  Kept.of (fun h1 => (Kept.ite h1.holdReset h1).tryBegin) h.resetCore

theorem Kept.execEaselWatchdog {rg k} (h : Kept τ s₀ s) : KeptOut τ s₀ (execEaselWatchdog rg k s) :=
  Kept.ite h h.setRf.bumpR.noteFault.ibi.resetOne

theorem Kept.execCoreReset {rg k} (h : Kept τ s₀ s) : KeptOut τ s₀ (execCoreReset rg k s) :=
  h.resetOne

theorem Kept.execHoldRst {rg k v} (h : Kept τ s₀ s) : KeptOut τ s₀ (execHoldRst rg k v s) :=
  Kept.of (fun h1 => Kept.ite h1 (Kept.ite h1.resetOne (Kept.ite h1.onRgn h1))) h.setRf

theorem Kept.execMbinFlush {rg k} (h : Kept τ s₀ s) : KeptOut τ s₀ (execMbinFlush rg k s) :=
  h.onRgn

theorem Kept.execMboutFlush {rg k} (h : Kept τ s₀ s) : KeptOut τ s₀ (execMboutFlush rg k s) :=
  h.onRgn

theorem Kept.pushMbin {rg k w first bad} (h : Kept τ s₀ s) : Kept τ s₀ (pushMbin s rg k w first bad) :=
  Kept.ite h.setRf.abandonWord (Kept.ite h.bumpR h.onRgn)

theorem Kept.execMbinFirst {rg k w bad} (h : Kept τ s₀ s) : KeptOut τ s₀ (execMbinFirst rg k w bad s) :=
  h.pushMbin

theorem Kept.execMbinNext {rg k w bad} (h : Kept τ s₀ s) : KeptOut τ s₀ (execMbinNext rg k w bad s) :=
  h.pushMbin

theorem Kept.popMbout {rg k bad} (h : Kept τ s₀ s) : Kept τ s₀ (popMbout s rg k bad).2 := by
  unfold Machine.popMbout
  dsimp only
  split
  · exact h.setRf
  · exact Kept.of (fun h2 => Kept.ite h2.queueError h2) h.onRgn.setRf.setRf.setRf

theorem Kept.execMbout {rg k bad} (h : Kept τ s₀ s) : KeptOut τ s₀ (execMbout rg k bad s) :=
  h.popMbout

theorem Kept.execPatchWrite {rg k u word v by_} (h : Kept τ s₀ s) : KeptOut τ s₀ (execPatchWrite rg k u word v by_ s) :=
  Kept.ite h (Kept.of (fun h2 => Kept.ite h2.onRgn h2.setRf.setRf) (Kept.ite h.onRgn h))

theorem Kept.execEasWdog {rg k limit} (h : Kept τ s₀ s) : KeptOut τ s₀ (execEasWdog rg k limit s) :=
  h.setRf.onRgn

theorem Kept.runMul {rg k w} (h : Kept τ s₀ s) : (runMul rg k s w).Keeps τ s₀ :=
  Did.Keeps.ite h h.onCore

theorem Kept.runMacld {rg k w} (h : Kept τ s₀ s) : (runMacld rg k s w).Keeps τ s₀ :=
  Did.Keeps.ite h (Did.Keeps.ite h.draw.setEas h.setEas)

theorem Kept.execEasMul {rg k} (h : Kept τ s₀ s) : KeptOut τ s₀ (execEasMul rg k s) :=
  h.easStep (fun _ _ h1 => h1.runMul)

theorem Kept.execEasMacld {rg k} (h : Kept τ s₀ s) : KeptOut τ s₀ (execEasMacld rg k s) :=
  h.easStep (fun _ _ h1 => h1.runMacld)

theorem Kept.execEasAcc {rg k} (h : Kept τ s₀ s) : KeptOut τ s₀ (execEasAcc rg k s) :=
  h.easStep (fun _ _ h1 => h1.onCore)

theorem Kept.execEasExt {rg k} (h : Kept τ s₀ s) : KeptOut τ s₀ (execEasExt rg k s) :=
  h.easStep (fun _ _ h1 => h1.onCore)

theorem Kept.setMer {st} (h : Kept τ s₀ s) : Kept τ s₀ (s.setMer st) :=
  h.setF

theorem Kept.execReferenceEdges (h : Kept τ s₀ s) : KeptOut τ s₀ (execReferenceEdges s) :=
  Kept.ite h.setMer h

theorem Kept.execLock {meanPeriod} (h : Kept τ s₀ s) : KeptOut τ s₀ (execLock meanPeriod s) := by
  unfold Machine.execLock
  split
  · exact h
  · exact Kept.ite h (Kept.ite h.setMer.setReg (Kept.ite h.setMer h))

theorem Kept.flagRealign {passed} (h : Kept τ s₀ s) : Kept τ s₀ (flagRealign s passed) :=
  h.foldl (fun _ _ h1 => Kept.ite h1.onRgn h1)

theorem Kept.realign {delta} (h : Kept false s₀ s) : Kept false s₀ (realign s delta) := by
  unfold Machine.realign
  exact Kept.of (fun h4 => Kept.ite h4.ticked.flagRealign h4.ticked.flagRealign) h.setF.bump.setF.setMer.ticked

theorem Kept.takeMark {delta mean} (h : Kept false s₀ s) : Kept false s₀ (takeMark s delta mean) := by
  unfold Machine.takeMark
  split
  · exact h.ticked.setMer
  · refine Kept.ite ?_ (Kept.of (fun h2 => Kept.ite h2.realign h2.other) h.setF.bump)
    cases mean with
    | some m => exact h.other.setReg
    | none => exact h.other
  · exact h.realign
  · exact h

theorem Kept.execMark {count parityOk mean} (h : Kept false s₀ s) : KeptOut false s₀ (execMark count parityOk mean s) :=
  Kept.ite h h.takeMark

theorem Kept.countTick (h : Kept false s₀ s) : Kept false s₀ (countTick s) := by
  unfold Machine.countTick
  exact h.ticked.foldl (fun _ _ h1 => Kept.ite h1 (Kept.ite h1 h1.setRgn))

theorem Kept.execRealignSlewStep (h : Kept false s₀ s) : KeptOut false s₀ (execRealignSlewStep s) := by
  unfold Machine.execRealignSlewStep
  exact Kept.ite h (Kept.ite h.ticked.countTick h.ticked)

theorem Kept.undated (h : Kept τ s₀ s) : Kept τ s₀ s.undated := by
  unfold State.undated
  exact h.other

theorem Kept.loseReference (h : Kept false s₀ s) : Kept false s₀ (loseReference s) := by
  unfold Machine.loseReference
  split
  · exact h.undated.setMer
  · exact h.undated.setMer
  · exact h.undated.ticked.setMer.setF.bump.noteFault.ibi
  · exact h.undated.ticked.setMer.setF.bump.noteFault.ibi
  · exact h

theorem Kept.changeSrc {v} (h : Kept false s₀ s) : Kept false s₀ (changeSrc s v) := by
  unfold Machine.changeSrc
  exact Kept.of (fun h1 => Kept.ite h1 (Kept.of (fun h7 => Kept.ite (Kept.ite h7.ticked.setMer h7.setMer) h7.setMer) h1.undated.ticked.setF)) h.setF

theorem Kept.execSrc {v} (h : Kept false s₀ s) : KeptOut false s₀ (execSrc v s) :=
  h.changeSrc

theorem Kept.latchTick (h : Kept τ s₀ s) : Kept τ s₀ (latchTick s) :=
  h.set48

theorem Kept.execMerTickRead (h : Kept τ s₀ s) : KeptOut τ s₀ (execMerTickRead s) :=
  h.latchTick

theorem Kept.switchSource (h : Kept τ s₀ s) : Kept τ s₀ (switchSource s) := by
  unfold Machine.switchSource
  exact h.undated.other.setF

theorem Kept.missTick {p} (h : Kept false s₀ s) : Kept false s₀ (missTick s p) := by
  unfold Machine.missTick
  exact Kept.of (fun h1 => Kept.ite h1 (Kept.of (fun h3 => Kept.ite h3.other (Kept.ite h3.switchSource h3)) h1.loseReference)) h.other

theorem Kept.execLoss (h : Kept false s₀ s) : KeptOut false s₀ (execLoss s) := by
  unfold Machine.execLoss
  split
  · exact h.loseReference
  · exact h.missTick
  · exact h

theorem Kept.countFrame {d} (h : Kept τ s₀ s) : Kept τ s₀ (countFrame s d).1 := by
  unfold Machine.countFrame
  exact h.other

theorem Kept.dateTick {p f} (h : Kept false s₀ s) : Kept false s₀ (dateTick s p f) := by
  unfold Machine.dateTick
  extract_lets u mu s1 d implied off four all m1 s2 delta
  have h1 : Kept false s₀ s1 := Kept.ite h h.undated.other
  have h2 : Kept false s₀ s2 := Kept.other h1
  refine Kept.ite h2.missTick ?_
  split
  · exact h2.setMer
  · exact Kept.ite h2.other.realign h2
  · have h3 : Kept false s₀ (if s2.disagrees delta then (s2, none) else Machine.countFrame s2 d).1 := Kept.iteFst h2 h2.countFrame
    generalize (if s2.disagrees delta then (s2, none) else Machine.countFrame s2 d) = x at h3 ⊢
    exact h3.other.takeMark
  · exact h2.other.takeMark

theorem Kept.noteHeard {p} (h : Kept τ s₀ s) : Kept τ s₀ (noteHeard s p) := by
  unfold Machine.noteHeard
  exact h.other

theorem Kept.listenAnew {p} (h : Kept τ s₀ s) : Kept τ s₀ (listenAnew s p) :=
  Kept.ite h.noteHeard h

theorem Kept.missIntervals (h : Kept τ s₀ s) : Kept τ s₀ (missIntervals s) := by
  unfold Machine.missIntervals
  exact h.foldl (fun _ _ h1 => by split; exact h1; exact Kept.ite h1 h1.other.bump)

theorem Kept.execTickFrame {p f} (h : Kept false s₀ s) : KeptOut false s₀ (execTickFrame p f s) := by
  unfold Machine.execTickFrame
  exact Kept.of (fun h2 => Kept.of (fun h3 => Kept.ite h3 h3.other.setF.dateTick) (Kept.ite h2.switchSource h2)) h.bump.noteHeard.other

theorem Kept.execTickMiss {p} (h : Kept false s₀ s) : KeptOut false s₀ (execTickMiss p s) :=
  h.bump.noteHeard.missTick

theorem Kept.moveVq {q d st} (h : Kept τ s₀ s) : Kept τ s₀ (moveVq s q d st) :=
  Kept.ite h.setVq.setF (Kept.ite h.setVq.setF h.setVq.setF)

theorem Kept.loopQuadrant {q} (h : Kept τ s₀ s) : Kept τ s₀ (loopQuadrant s q) :=
  Kept.ite h.setF (Kept.of (fun h2 => Kept.ite h2.setF (Kept.ite h2.moveVq (Kept.ite h2.moveVq (Kept.ite h2.setF (Kept.ite h2.moveVq (Kept.ite h2.moveVq (Kept.ite h2.moveVq h2.setF))))))) h.setF)

theorem Kept.execLoopInterval (h : Kept τ s₀ s) : KeptOut τ s₀ (execLoopInterval s) :=
  (h.foldl (fun _ _ h1 => h1.loopQuadrant)).foldl (fun _ _ h3 => Kept.ite h3.onRgn h3)

theorem Kept.execBudgetWindow {q} (h : Kept τ s₀ s) : KeptOut τ s₀ (execBudgetWindow q s) := by
  unfold Machine.execBudgetWindow
  exact Kept.ite h (Kept.of (fun h4 => Kept.of (fun h6 => Kept.ite h6 h6.setF.setF) (Kept.ite h4.setF.bump.ibi h4)) h.other.setF)

theorem Kept.changeFunc {v} (h : Kept τ s₀ s) : Kept τ s₀ (changeFunc s v) := by
  unfold Machine.changeFunc
  exact Kept.of (fun h1 => (Kept.ite h1.setF h1).other) h.setF

theorem Kept.showUart (h : Kept τ s₀ s) : Kept τ s₀ (showUart s) :=
  h.setF.setF

theorem Kept.losePeripherals (h : Kept τ s₀ s) : Kept τ s₀ (losePeripherals s) := by
  unfold Machine.losePeripherals
  exact h.other.showUart.setF

theorem Kept.unsettle {before} (h : Kept τ s₀ s) : Kept τ s₀ (unsettle before s) :=
  Kept.ite h.setF h

theorem Kept.conflict (h : Kept τ s₀ s) : Kept τ s₀ (conflict s) :=
  Kept.of (fun h1 => Kept.ite h1 h1.setF.ibi) h.setF

theorem Kept.setRole {p} (h : Kept τ s₀ s) : Kept τ s₀ (setRole s p) :=
  Kept.of (fun h1 => Kept.of (fun h2 => Kept.ite h2.setF.ibi h2) (Kept.ite h1.setF.setF h1)) h.setF.setF

theorem Kept.setRoles (h : Kept τ s₀ s) : Kept τ s₀ (setRoles s) :=
  h.foldl (fun _ _ h1 => h1.setRole)

theorem Kept.offerSize {d n wrap} (h : Kept τ s₀ s) : Kept τ s₀ (offerSize s d n wrap) := by
  unfold Machine.offerSize
  exact Kept.ite h.setF.setF.other (Kept.ite h.setF.setF.other (Kept.ite (Kept.ite h h.conflict) (Kept.ite h (Kept.ite h.setF.setF.other h))))

theorem Kept.ownOffers (h : Kept τ s₀ s) : Kept τ s₀ (ownOffers s) := by
  unfold Machine.ownOffers
  exact Kept.ite h (h.foldl (fun _ _ h3 => Kept.of (fun h4 => Kept.ite h4.offerSize h4) (Kept.ite h3.other h3)))

theorem Kept.setRing {d} (h : Kept τ s₀ s) : Kept τ s₀ (setRing s d) := by
  unfold Machine.setRing
  exact Kept.ite h.setF h.other.setF

theorem Kept.setRings (h : Kept τ s₀ s) : Kept τ s₀ (setRings s) :=
  h.foldl (fun _ _ h1 => h1.setRing)

theorem Kept.sweepUpdate {t} (h : Kept τ s₀ s) : Kept τ s₀ (sweepUpdate t s) :=
  h.setRoles.ownOffers.setRings.unsettle

theorem Kept.discardSweep (h : Kept τ s₀ s) : Kept τ s₀ (discardSweep s) := by
  unfold Machine.discardSweep
  exact ((h.setF.setF.setF.setF.setF.foldS fun _ _ h3 => h3.setF).foldS fun _ _ h5 => h5.setF.setF).other

theorem Kept.hearCandidate {cls uid} (h : Kept τ s₀ s) : Kept τ s₀ (hearCandidate s cls uid) := by
  unfold Machine.hearCandidate
  exact Kept.ite h (Kept.ite h.other (Kept.ite (Kept.ite h.setF h) (Kept.of (fun h12 => Kept.ite h12.setF.setF (Kept.ite h12.setF h12)) h.discardSweep.setReg.setReg.other.setF)))

theorem Kept.considerSelf (h : Kept τ s₀ s) : Kept τ s₀ (considerSelf s) :=
  h.hearCandidate.sweepUpdate

theorem Kept.beginSweep (h : Kept τ s₀ s) : Kept τ s₀ (beginSweep s) := by
  unfold Machine.beginSweep
  exact h.discardSweep.setReg.setReg.setF.other.setF.hearCandidate.setRoles.ownOffers.setRings

theorem Kept.execSweep (h : Kept τ s₀ s) : KeptOut τ s₀ (execSweep s) :=
  h.beginSweep

theorem Kept.learnCoord {p m} (h : Kept τ s₀ s) : Kept τ s₀ (learnCoord s p m) := by
  unfold Machine.learnCoord
  exact (Kept.ite (Kept.of (fun h1 => Kept.ite h1.other h1) (Kept.ite h.setF.setF (Kept.ite h.offerSize (Kept.ite h.conflict h)))) h).foldl (fun _ _ h3 => Kept.ite h3.offerSize h3)

theorem Kept.noteNeighbour {p m} (h : Kept τ s₀ s) : Kept τ s₀ (noteNeighbour s p m) :=
  h.setF.setF.setF.setF.setF.setReg.setReg

theorem Kept.execDiscover {p m} (h : Kept τ s₀ s) : KeptOut τ s₀ (execDiscover p m s) := by
  unfold Machine.execDiscover
  refine Kept.ite h ?_
  extract_lets s1 b fab s2 s3 s4 s5 s6
  have h1 : Kept τ s₀ s1 := Kept.bump h.other
  have h3 : Kept τ s₀ s3 := Kept.hearCandidate (Kept.noteNeighbour h1.other)
  have h5 : Kept τ s₀ s5 := Kept.setRoles (.ite h3 h3.hearCandidate)
  have h6 : Kept τ s₀ s6 := .ite h5.learnCoord h5
  exact Kept.ite h1.bump h6.sweepUpdate

theorem Kept.execDiscoverSend {p} (h : Kept τ s₀ s) : KeptOut τ s₀ (execDiscoverSend p s) :=
  Kept.ite h.sendOn h

theorem Kept.assignLeaf {p} (h : Kept τ s₀ s) : Kept τ s₀ (assignLeaf s p) := by
  unfold Machine.assignLeaf
  split
  · exact h
  · dsimp only
    split
    · exact h.setF.setF
    · exact h.setF.setF.setF

theorem Kept.autoMer (h : Kept false s₀ s) : Kept false s₀ (autoMer s) := by
  unfold Machine.autoMer
  exact Kept.ite h.setF (Kept.of (fun h4 => Kept.of (fun h5 => Kept.of (fun h6 => h6.changeSrc) (by split; exact h5.setF.setF; exact h5.setF)) (by split; exact h4.setF; exact h4)) h.setF)

theorem Kept.execSettled (h : Kept false s₀ s) : KeptOut false s₀ (execSettled s) :=
  Kept.ite h (Kept.of (fun h6 => Kept.ite h6.autoMer h6) (h.setF.foldl (fun _ _ h5 => h5.assignLeaf)))

theorem Kept.flood {p skip} (h : Kept τ s₀ s) : Kept τ s₀ (flood s p skip).1 :=
  h.foldl (fun _ _ h1 => h1.sendOn)

theorem Kept.broadcastOf {cmd flit} (h : Kept τ s₀ s) : Kept τ s₀ (broadcastOf s cmd flit).1 :=
  h.draw

theorem Kept.applyStarts {tick j all} (h : Kept τ s₀ s) : Kept τ s₀ (applyStarts s tick j all) :=
  Kept.ite (h.foldl (fun _ _ h2 => h2.applyStart)) h.applyStart

theorem Kept.rememberStart {key} (h : Kept τ s₀ s) : Kept τ s₀ (rememberStart s key) := by
  unfold Machine.rememberStart
  exact h.other

theorem Kept.execStart {p port} (h : Kept τ s₀ s) : KeptOut τ s₀ (execStart p port s) := by
  unfold Machine.execStart
  exact Kept.ite h (Kept.of (fun h2 => Kept.ite h2.bump.setF (Kept.ite h2.bump (Kept.ite h2.bump h2.rememberStart.flood.bump.applyStarts))) h.other)

theorem Kept.execFabricResetCmd (h : Kept τ s₀ s) : KeptOut τ s₀ (execFabricResetCmd s) := by
  unfold Machine.execFabricResetCmd
  exact Kept.ite h.setF h.broadcastOf.flood.other

theorem Kept.execFabricReset {p port upFor1ms} (h : Kept τ s₀ s) : KeptOut τ s₀ (execFabricReset p port upFor1ms s) := by
  unfold Machine.execFabricReset
  exact Kept.ite h (Kept.of (fun h5 => Kept.ite h5.bump.setF (Kept.ite h5.bump h5.flood.bump.other)) h.other)

theorem Kept.declareLasting {src l key now} (h : Kept τ s₀ s) : Kept τ s₀ (declareLasting s src l key now) := by
  unfold Machine.declareLasting
  exact Kept.of (fun h4 => Kept.ite h4.other h4) h.setReg.setReg.setReg.setF.bump.setF.ibi

theorem Kept.classify {src l key now} (h : Kept τ s₀ s) : Kept τ s₀ (classify s src l key now) := by
  unfold Machine.classify
  dsimp only
  split
  · exact h
  · split
    · exact Kept.ite (Kept.ite h.other.declareLasting h.other) (Kept.ite h.other.declareLasting h.other)
    · split
      · exact Kept.ite h.other.declareLasting h.other
      · split
        · exact h
        · exact Kept.of (fun h1 => Kept.ite h1.other.declareLasting h1.other) (Kept.ite h.setF h)

theorem Kept.execClassify {l since} (h : Kept τ s₀ s) : KeptOut τ s₀ (execClassify l since s) := by
  unfold Machine.execClassify
  split
  · exact h
  · exact h.other.classify

theorem Kept.execTaintClear {mask} (h : Kept τ s₀ s) : KeptOut τ s₀ (execTaintClear mask s) :=
  h.foldl (fun _ _ h1 => Kept.ite h1.setF.setF.setF h1)

theorem Kept.storeRepair {e} (h : Kept τ s₀ s) : Kept τ s₀ (storeRepair s e) := by
  unfold Machine.storeRepair
  exact Kept.ite (Kept.of (fun h2 => Kept.ite h2.setF.ibi h2) h.other) h.other.setF.ibi

theorem Kept.logFail {occasion f repaired defect} (h : Kept τ s₀ s) : Kept τ s₀ (logFail s occasion f repaired defect) := by
  unfold Machine.logFail
  exact Kept.of (fun h2 => Kept.of (fun h5 => Kept.ite h5 h5.setF.ibi) (Kept.ite h2.setReg.setReg.setReg.setF.other h2)) h.bump.noteFault

theorem Kept.macroResult {occasion bad fs} (h : Kept τ s₀ s) : Kept τ s₀ (macroResult s occasion bad fs).1 := by
  unfold Machine.macroResult
  split; exact h; exact Kept.of (fun h2 => Kept.of (fun h3 => (Kept.ite h3.setF h3).foldl (fun _ _ h5 => h5.logFail)) (Kept.ite h2.storeRepair h2)) (h.foldl (fun _ _ h1 => h1.storeRepair))

theorem Kept.testResults {occasion r} (h : Kept τ s₀ s) : Kept τ s₀ (testResults s occasion r).1 :=
  Kept.foldlFst h fun _ _ h1 => h1.macroResult

theorem Kept.beginPackageTest {occasion} (h : Kept τ s₀ s) : Kept τ s₀ (beginPackageTest s occasion) := by
  unfold Machine.beginPackageTest
  exact h.setF.setF.other

theorem Kept.endPackageTest {occasion r offClock} (h : Kept τ s₀ s) : Kept τ s₀ (endPackageTest s occasion r offClock).1 := by
  unfold Machine.endPackageTest
  exact h.testResults.setF.other

theorem Kept.takeBlock {rg} (h : Kept τ s₀ s) : Kept τ s₀ (takeBlock s rg) := by
  unfold Machine.takeBlock
  split
  · exact h.abandonTest
  · exact h.other rfl rfl

theorem Kept.beginTest {rg demand} (h : Kept τ s₀ s) : Kept τ s₀ (beginTest s rg demand) := by
  unfold Machine.beginTest
  exact Kept.of (fun h2 => (Kept.ite h2.other h2).takeBlock) h.setTesting.setF.setF.other

theorem Kept.noteTested {rg} (h : Kept τ s₀ s) : Kept τ s₀ (noteTested s rg) := by
  unfold Machine.noteTested
  split
  · exact h
  · exact h.other

theorem Kept.setPassBad {rg v} (h : Kept τ s₀ s) : Kept τ s₀ (s.setPassBad rg v) := by
  unfold State.setPassBad
  exact Kept.ite h.other h.other

theorem Kept.completeTest {rg failed} (h : Kept τ s₀ s) : Kept τ s₀ (completeTest s rg failed) := by
  unfold Machine.completeTest
  exact h.setPassBad.setTesting.setF.setF.other

theorem Kept.execIsbStart {rg due} (h : Kept τ s₀ s) : KeptOut τ s₀ (execIsbStart rg due s) :=
  Kept.ite h.beginTest h

theorem Kept.execBistGo {rg} (h : Kept τ s₀ s) : KeptOut τ s₀ (execBistGo rg s) := by
  unfold Machine.execBistGo
  exact Kept.of (fun h1 => Kept.ite h1 (Kept.ite h1.beginTest h1.other)) h.setF.setF

theorem Kept.proceedAfter {rg} (h : Kept τ s₀ s) : Kept τ s₀ (proceedAfter s rg) :=
  (h.foldl (fun _ _ h1 => h1.serveInterrupt)).beginLate

theorem Kept.restoreLogic {rg} (h : Kept τ s₀ s) : Kept τ s₀ (restoreLogic s rg) := by
  unfold Machine.restoreLogic
  exact h.other.proceedAfter.takeBlock

theorem Kept.endStep {rg fails} (h : Kept τ s₀ s) : Kept τ s₀ (endStep s rg fails) := by
  unfold Machine.endStep
  exact Kept.of (fun h1 => Kept.of (fun h2 => Kept.ite h2.uncontained h2) (Kept.ite h1.completeTest h1.takeBlock)) h.noteTested.testResults.setPassBad

theorem Kept.execBistStep {rg fails valid last} (h : Kept τ s₀ s) : KeptOut τ s₀ (execBistStep rg fails valid last s) :=
  Kept.ite h (Kept.ite h.restoreLogic (Kept.ite h.abandonTest.proceedAfter (Kept.ite h h.endStep)))

theorem Kept.execBistAbort (h : Kept τ s₀ s) : KeptOut τ s₀ (execBistAbort s) :=
  h.foldl (fun _ _ h1 => h1.abandonTest.proceedAfter)

theorem Kept.execRepairClear {by_ arm} (h : Kept τ s₀ s) : KeptOut τ s₀ (execRepairClear by_ arm s) := by
  unfold Machine.execRepairClear
  exact Kept.ite h.other h

theorem Kept.spareLane {q l} (h : Kept τ s₀ s) : Kept τ s₀ (spareLane s q l) :=
  (h.foldl (fun _ _ h1 => Kept.ite h1.setF h1)).setF.setF

theorem Kept.narrowLanes {q l} (h : Kept τ s₀ s) : Kept τ s₀ (narrowLanes s q l) :=
  h.setF.foldl (fun _ _ h2 => h2.setF)

theorem Kept.switchTx {q op} (h : Kept τ s₀ s) : Kept τ s₀ (switchTx s q op) :=
  Kept.ite h.draw.onPort h.draw.onPort.setF

theorem Kept.switchRx {q o} (h : Kept τ s₀ s) : Kept τ s₀ (switchRx s q o) :=
  (Kept.ite h.spareLane.setF.bump h.narrowLanes.setF.setF.bump).noteFault.ibi

theorem Kept.switchOne {q o} (h : Kept τ s₀ s) : Kept τ s₀ (switchOne s q o) :=
  Kept.of (fun h1 => Kept.ite h1.switchRx h1.switchTx) h.onPort

theorem Kept.switchDue {q rx c} (h : Kept τ s₀ s) : Kept τ s₀ (switchDue s q rx c) := by
  unfold Machine.switchDue
  exact h.foldl (fun _ _ h1 => by split; exact h1; exact h1.switchOne)

theorem Kept.hearFrame {p} (h : Kept τ s₀ s) : Kept τ s₀ (hearFrame s p) :=
  h.onPort.switchDue

theorem Kept.sendCodeword {p c m} (h : Kept τ s₀ s) : Kept τ s₀ (sendCodeword s p c m) := by
  unfold Machine.sendCodeword
  exact h.switchDue.onPort

theorem Kept.launch {p f} (h : Kept τ s₀ s) : Kept τ s₀ (launch s p f) :=
  h.onPort.foldl (fun _ _ h2 => h2.sendCodeword)

theorem Kept.forgetTraining {p st} (h : Kept τ s₀ s) : Kept τ s₀ (forgetTraining s p st) :=
  Kept.of (fun h1 => Kept.ite (h1.foldl (fun _ _ h3 => h3.setF)) h1) (Kept.ite h.setF h)

theorem Kept.setLink {p st} (h : Kept false s₀ s) : Kept false s₀ (setLink s p st) := by
  unfold Machine.setLink
  extract_lets b s1 s2 s3 f s4
  have h1 : Kept false s₀ s1 := .ite h.missTick h
  have h2 : Kept false s₀ s2 := .ite h1.listenAnew h1
  have h3 : Kept false s₀ s3 := h2.setF.forgetTraining
  have h4 : Kept false s₀ s4 := .ite h3 h3.other
  exact h4.sweepUpdate

theorem Kept.sendBack {p} (h : Kept τ s₀ s) : Kept τ s₀ (sendBack s p) :=
  h.onPort.foldl (fun _ _ h1 => h1.pushNet)

theorem Kept.goDown {p} (h : Kept false s₀ s) : Kept false s₀ (goDown s p) :=
  h.sendBack.onPort.settleDue.sendBack.setLink.setF.ibi

theorem Kept.beginTraining {p} (h : Kept false s₀ s) : Kept false s₀ (beginTraining s p) :=
  Kept.ite h h.onPort.setLink.bump

theorem Kept.failTraining {p} (h : Kept false s₀ s) : Kept false s₀ (failTraining s p) :=
  Kept.ite h.goDown h.onPort.setLink.bump

theorem Kept.execDetectEnd {p} (h : Kept false s₀ s) : KeptOut false s₀ (execDetectEnd p s) :=
  Kept.ite h.setLink h

theorem Kept.setTxLanes {p okTx} (h : Kept τ s₀ s) : Kept τ s₀ (setTxLanes s p okTx) :=
  h.onPort.setF

theorem Kept.execTrainEnd {p words okTx} (h : Kept false s₀ s) : KeptOut false s₀ (execTrainEnd p words okTx s) :=
  Kept.ite h ((h.draw.setTxLanes.setF.foldl (fun _ _ h7 => h7.setF)).onPort.setLink)

theorem Kept.setLanes {p words} (h : Kept τ s₀ s) : Kept τ s₀ (setLanes s p words) :=
  h.foldl (fun _ _ h1 => h1.setF.setF.setF)

theorem Kept.notePeer {p words} (h : Kept τ s₀ s) : Kept τ s₀ (notePeer s p words) := by
  unfold Machine.notePeer
  dsimp only
  split
  · exact h.onPort.setReg.setReg
  · exact h.onPort

theorem Kept.execLockEnd {p words okTx precode} (h : Kept false s₀ s) : KeptOut false s₀ (execLockEnd p words okTx precode s) :=
  Kept.ite h (Kept.ite h.failTraining h.setLanes.notePeer.setF.setTxLanes.setF.draw.onPort.onPort.setLink)

theorem Kept.execCalibEnd {p peerResume peerExp delay} (h : Kept false s₀ s) : KeptOut false s₀ (execCalibEnd p peerResume peerExp delay s) :=
  Kept.ite h (Kept.of (fun h3 => (Kept.ite h3.bump h3).setLink) h.onPort)

theorem Kept.execTrainingTimeout {p} (h : Kept false s₀ s) : KeptOut false s₀ (execTrainingTimeout p s) :=
  Kept.ite h.failTraining h

theorem Kept.execLnkRetrain {p} (h : Kept false s₀ s) : KeptOut false s₀ (execLnkRetrain p s) :=
  h.onPort.beginTraining

theorem Kept.execLnkEn {p v} (h : Kept false s₀ s) : KeptOut false s₀ (execLnkEn p v s) :=
  Kept.of (fun h1 => Kept.ite h1 h1.goDown) h.setF

theorem Kept.execPeerBeginsTraining {p} (h : Kept false s₀ s) : KeptOut false s₀ (execPeerBeginsTraining p s) :=
  Kept.ite h h.beginTraining

theorem Kept.setClipped {p} (h : Kept τ s₀ s) : Kept τ s₀ (setClipped s p) :=
  h.setF

theorem Kept.launchNew {p} (h : Kept τ s₀ s) : Kept τ s₀ (launchNew s p) := by
  unfold Machine.launchNew
  split
  · exact h.launch
  · exact h

theorem Kept.sendCtrl {p calib since} (h : Kept τ s₀ s) : Kept τ s₀ (sendCtrl s p calib since) := by
  unfold Machine.sendCtrl
  exact (Kept.ite h.bump h).launch.onPort

theorem Kept.sendSched {p} (h : Kept τ s₀ s) : Kept τ s₀ (sendSched s p) :=
  h.setPort.launchNew.bump

theorem Kept.sendPktFrame {p v} (h : Kept τ s₀ s) : Kept τ s₀ (sendPktFrame s p v) :=
  h.draw.onPort.launchNew

theorem Kept.resend {p} (h : Kept τ s₀ s) : Kept τ s₀ (resend s p) := by
  unfold Machine.resend
  exact h.launch.onPort

theorem Kept.sendReady {p since waits} (h : Kept τ s₀ s) : Kept τ s₀ (sendReady s p since waits) := by
  unfold Machine.sendReady
  split
  · exact h.resend
  · exact h.sendSched.bump.bump
  · exact h.sendCtrl
  · exact h.launch.onPort
  · exact h.sendPktFrame.bump.settleDue
  · exact h.launch

theorem Kept.nextPosition {p} (h : Kept τ s₀ s) : Kept τ s₀ (nextPosition s p) :=
  h.onPort

theorem Kept.execFrameSend {p since waits} (h : Kept τ s₀ s) : KeptOut τ s₀ (execFrameSend p since waits s) := by
  unfold Machine.execFrameSend
  dsimp only
  split
  · exact h.launch
  · exact h.sendCtrl
  · exact Kept.of (fun h1 => Kept.ite h1.onPort h1.nextPosition) h.sendReady
  · exact h

theorem Kept.quietLink {p} (h : Kept false s₀ s) : Kept false s₀ (quietLink s p) :=
  Kept.ite h h.draw.onPort.sendCtrl.setLink

theorem Kept.wakeLink {p} (h : Kept false s₀ s) : Kept false s₀ (wakeLink s p) :=
  Kept.ite h h.draw.onPort.setLink.sendCtrl

theorem Kept.rewindPort {p ack} (h : Kept τ s₀ s) : Kept τ s₀ (rewindPort s p ack) :=
  h.onPort.bump

theorem Kept.execReplayTimeout {p} (h : Kept false s₀ s) : KeptOut false s₀ (execReplayTimeout p s) :=
  Kept.ite h (Kept.ite h.onPort.bump.beginTraining h.onPort.bump.rewindPort)

theorem Kept.badFrame {p} (h : Kept τ s₀ s) : Kept τ s₀ (badFrame s p) :=
  h.onPort

theorem Kept.declareFault {q lane} (h : Kept false s₀ s) : Kept false s₀ (declareFault s q lane) :=
  Kept.ite h (Kept.ite h.setF.setF (Kept.ite h.setF.setF.noteFault.goDown (Kept.ite (Kept.ite h h.onPort) h.draw.onPort)))

theorem Kept.corrected {p k} (h : Kept false s₀ s) : Kept false s₀ (corrected s p k) := by
  unfold Machine.corrected
  dsimp only
  split
  · exact h.bump
  · exact Kept.of (fun h3 => Kept.ite h3.declareFault h3) h.bump.bump.onPort

theorem Kept.receive {p f cw types use} (h : Kept false s₀ s) (huse : ∀ t, Kept false s₀ t → Kept false s₀ (use t)) :
    Kept false s₀ (receive s p f cw types use) :=
  Kept.ite h (Kept.of (fun h1 => Kept.ite h1.bump.noteFault.badFrame (Kept.of
    (fun h2 => Kept.ite h2.bump.badFrame (Kept.ite (huse _ h2) h2)) (h1.foldl fun _ _ h3 => h3.corrected))) h.hearFrame)

theorem Kept.inSequence {p f use} (h : Kept τ s₀ s) (huse : ∀ t, Kept τ s₀ t → Kept τ s₀ (use t)) : Kept τ s₀ (inSequence s p f use) :=
  Kept.ite h (Kept.ite (huse _ h.setPort) (Kept.ite h.bump.badFrame h))

theorem Kept.execIdle {p f cw} (h : Kept false s₀ s) : KeptOut false s₀ (execIdle p f cw s) :=
  h.receive (fun _ h1 => h1)

theorem Kept.takePosition {p pos} (h : Kept τ s₀ s) : Kept τ s₀ (takePosition s p pos) :=
  Kept.ite h (Kept.of (fun h4 => Kept.ite h4.bump.taintAt.onPort h4.pushBundle) (Kept.ite h.bump h))

theorem Kept.execSched {p f cw} (h : Kept false s₀ s) : KeptOut false s₀ (execSched p f cw s) :=
  h.receive (fun _ h1 => h1.inSequence (fun _ h2 => h2.foldl (fun _ _ h3 => h3.takePosition)))

theorem Kept.packetIn {port v p} (h : Kept τ s₀ s) : Kept τ s₀ (packetIn s port v p) := by
  unfold Machine.packetIn
  exact Kept.ite h.freeFlits.other (Kept.ite h.freeFlits (Kept.ite h.freeFlits.bump (Kept.ite h.freeFlits.countRefused (Kept.ite (Kept.ite h.freeFlits.countPosted (Kept.ite h.pushNet.onPort h.freeFlits.replyOn.countRefused)) h.pushNet))))

theorem Kept.takeFlit {port v f poison} (h : Kept τ s₀ s) : Kept τ s₀ (takeFlit s port v f poison).1 := by
  unfold Machine.takeFlit
  dsimp only
  split
  · refine Kept.iteFst h (Kept.iteFst h.packetIn ?_)
    dsimp only
    exact h.onPort
  · split
    · dsimp only
      exact h.onPort.packetIn
    · dsimp only
      exact h.onPort

theorem Kept.takeFlits {port v x} (h : Kept τ s₀ s) : Kept τ s₀ (takeFlits s port v x) := by
  induction x generalizing s with
  | nil => exact h
  | cons f t ih =>
    rw [Machine.takeFlits]
    exact Kept.ite h.takeFlit (ih h.takeFlit)

theorem Kept.execPktFrame {p f cw} (h : Kept false s₀ s) : KeptOut false s₀ (execPktFrame p f cw s) :=
  h.receive (fun _ h1 => h1.inSequence (fun _ h2 => h2.takeFlits))

theorem Kept.execPktPoison {p f cw} (h : Kept false s₀ s) : KeptOut false s₀ (execPktPoison p f cw s) :=
  h.receive (fun _ h1 => h1.inSequence (fun _ h2 => h2.takeFlit))

theorem Kept.acceptInFlight {p par n} (h : Kept τ s₀ s) : Kept τ s₀ (acceptInFlight s p par n) :=
  h.onPort.foldl (fun _ _ h2 => h2.countAccepted)

theorem Kept.laneOpIn {p op lane at_} (h : Kept false s₀ s) : Kept false s₀ (laneOpIn s p op lane at_) := by
  unfold Machine.laneOpIn
  split
  · exact h.onPort
  · exact h.onPort
  · exact h.onPort
  · exact Kept.ite h.setLink h
  · exact Kept.ite h.setLink h
  · exact h

theorem Kept.sampleDelay {p c arrival} (h : Kept τ s₀ s) : Kept τ s₀ (sampleDelay s p c arrival) :=
  Kept.ite h h.onPort.setF

theorem Kept.takeCredits {q c} (h : Kept τ s₀ s) : Kept τ s₀ (takeCredits s q c) :=
  h.onPort.acceptInFlight.acceptInFlight

theorem Kept.calibCtrl {q c} (h : Kept τ s₀ s) : Kept τ s₀ (calibCtrl s q c) := by
  unfold Machine.calibCtrl
  exact (Kept.ite h.takeCredits h).onPort

theorem Kept.execCtrl {p f a} (h : Kept false s₀ s) : KeptOut false s₀ (execCtrl p f a s) :=
  h.receive (fun _ h1 => Kept.of (fun h2 => Kept.ite (Kept.ite h2.laneOpIn h2) (Kept.ite h2.calibCtrl (Kept.ite h2 (Kept.of (fun h3 => (Kept.ite h3.rewindPort h3).takeCredits.laneOpIn) (Kept.ite h2.onPort h2))))) h1.sampleDelay.onPort)

theorem Kept.execLaneFault {p lane} (h : Kept false s₀ s) : KeptOut false s₀ (execLaneFault p lane s) :=
  h.declareFault

theorem Kept.execLaneSwitch {p} (h : Kept false s₀ s) : KeptOut false s₀ (execLaneSwitch p s) := by
  unfold Machine.execLaneSwitch
  dsimp only
  split
  · split
    · exact h
    · exact Kept.ite h h.onPort.declareFault
  · split
    · split
      · exact h.switchOne
      · exact Kept.ite h.switchOne h.switchOne.onPort.declareFault
    · exact h.switchOne

theorem Kept.execSlotSwap {p} (h : Kept τ s₀ s) : KeptOut τ s₀ (execSlotSwap p s) :=
  Kept.ite h.setF h.setReg.setReg.setReg.setReg.onPort.setClipped

theorem Kept.execSlotCopy {p} (h : Kept τ s₀ s) : KeptOut τ s₀ (execSlotCopy p s) :=
  h.setReg.setReg.onPort

theorem Kept.execTickFrameSend {count} (h : Kept τ s₀ s) : KeptOut τ s₀ (execTickFrameSend count s) :=
  Kept.ite h (h.foldl (fun _ _ h2 => Kept.ite h2.onPort h2))

theorem Kept.emptyDie {q} (h : Kept τ s₀ s) : Kept τ s₀ (emptyDie s q) := by
  unfold Machine.emptyDie
  extract_lets s1 s2
  have h1 : Kept τ s₀ s1 := h.foldS fun _ _ h1 => h1.foldS fun _ _ h2 => h2.countAccepted
  have h2 : Kept τ s₀ s2 := h1.foldS fun _ _ h1 => h1.foldS fun _ _ h2 => h2.countAccepted
  exact Kept.other (s := s2.cutTrails fun k => onDie q (k / 128)) h2.cutTrails

theorem Kept.failJobsOf {q} (h : Kept τ s₀ s) : Kept τ s₀ (failJobsOf s q) :=
  h.foldl (fun _ _ h1 => h1.failJob)

theorem Kept.flushQuad {q} (h : Kept τ s₀ s) : Kept τ s₀ (flushQuad s q) :=
  h.flushCrossings.dropLines

theorem Kept.resetQuadrant {q} (h : Kept τ s₀ s) : Kept τ s₀ (resetQuadrant s q) := by
  unfold Machine.resetQuadrant
  extract_lets s1 s2 s3 s4
  have h1 : Kept τ s₀ s1 := h.foldS fun _ _ h => .ite h.abandonTest h
  have h4 : Kept τ s₀ s4 := h1.flushQuad.breakOwned.emptyDie.dropTokens.foldS fun _ _ h => h.onRgn
  refine Kept.foldS (Kept.other (h4.withLibrary (m := SMap.keep (fun k => decide (k / 0x8000 ≠ q)) s4.library) (SMap.wf_keep _))) ?_
  exact fun _ _ h => h.trainD2d

theorem Kept.resetPackage {boot} (h : Kept false s₀ s) : Kept false s₀ (resetPackage s boot) := by
  have h1 : ∀ {d g p}, Kept false s₀ { pending := s.pending, drawn := d, flash := s.flash, fuses := s.fuses, gpio := g, pwr := p } :=
    h.trans ⟨rfl, .of_eq rfl, fun _ => ⟨rfl, rfl, rfl, rfl, rfl⟩, fun hτ => Bool.noConfusion hτ⟩
  unfold Machine.resetPackage
  refine Kept.foldS (Kept.foldS h1.setReg.setF.setF.setF.setF.setF fun _ _ h => h.trainD2d) fun _ _ h => ?_
  exact .ite h.onRgn.setRf.setRf h.onRgn.setRf

theorem Kept.runChecks {rg} (h : Kept τ s₀ s) : Kept τ s₀ (runChecks s rg) := by
  unfold Machine.runChecks
  split
  · exact h.onRgn
  · exact h.onRgn.isolate

theorem Kept.applySetting {a mask v} (h : Kept false s₀ s) : Kept false s₀ (applySetting s a mask v) :=
  Kept.ite h.setReg.changeSrc (Kept.ite h.changeFunc (Kept.of (fun h6 => Kept.ite h6.considerSelf (h6.foldl (fun _ _ h7 => Kept.ite h7 (Kept.ite (Kept.ite h7 h7.goDown) (Kept.ite h7.onPort.beginTraining h7))))) h.setReg))

theorem Kept.stageIn {a ws} (h : Kept τ s₀ s) : Kept τ s₀ (stageIn s a ws) := by
  unfold Machine.stageIn
  exact Kept.other (h.withSram fun hm => Memory.wf_foldl (fun _ _ => Mem.wf_write _ _ _) _ hm)

theorem Kept.requestQuadReset {q} (h : Kept τ s₀ s) : Kept τ s₀ (requestQuadReset s q) :=
  Kept.ite h h.setRefusing.setDrain

theorem Kept.requestQuadResets (h : Kept τ s₀ s) : Kept τ s₀ (requestQuadResets s) :=
  h.foldl (fun _ _ h1 => h1.requestQuadReset)

theorem Kept.endPartial {code} (h : Kept τ s₀ s) : Kept τ s₀ (endPartial s code) := by
  unfold Machine.endPartial
  split
  · exact h.onRgn
  · exact h

theorem Kept.openClamps {rg} (h : Kept τ s₀ s) : Kept τ s₀ (openClamps s rg) :=
  h.onRgn.presentWaiting

theorem Kept.startReadback {kind rg} (h : Kept τ s₀ s) : Kept τ s₀ (startReadback s kind rg) := by
  unfold Machine.startReadback
  exact Kept.of (fun h2 => Kept.ite h2 h2.capture) h.other.setF.setF

theorem Kept.nextReadback (h : Kept τ s₀ s) : Kept τ s₀ (nextReadback s) := by
  unfold Machine.nextReadback
  split
  · exact Kept.ite h h.other.startReadback
  · exact h

theorem Kept.closePartial {code} (h : Kept τ s₀ s) : Kept τ s₀ (closePartial s code) := by
  unfold Machine.closePartial
  exact h.endPartial.setF.setF.other.nextReadback

theorem Kept.recordReject {code rg ix} (h : Kept τ s₀ s) : Kept τ s₀ (recordReject s code rg ix) :=
  h.setF.setF.setF.setF.bump

theorem Kept.rejectPartial {code rg ix} (h : Kept τ s₀ s) : Kept τ s₀ (rejectPartial s code rg ix) := by
  have h1 := (h.recordReject (code := code) (rg := rg) (ix := ix)).setF (f := F.RTC_STATUS_CLAMPED) (n := 0)
  unfold Machine.rejectPartial
  dsimp only
  split
  · exact h1.openClamps.closePartial.resetIfDue
  · exact h1.closePartial

theorem Kept.clearPart (h : Kept τ s₀ s) : Kept τ s₀ (clearPart s) := by
  unfold Machine.clearPart
  exact Kept.foldS h.keepRegs fun _ _ h => h.setRf.setRf

theorem Kept.failLoad {code rg ix ofs} (h : Kept τ s₀ s) : Kept τ s₀ (failLoad s code rg ix ofs) := by
  unfold Machine.failLoad
  extract_lets s1 s2 s3 s4 sram
  have h1 : Kept τ s₀ s1 := .ite h.setF.setF h
  have h4 : Kept τ s₀ s4 := h1.setReg.setReg.setF.setF.bump.ibi
  exact (Kept.other (h4.withSram (m := sram) (SMap.wf_keep _))).clearPart.requestQuadResets

theorem Kept.endGround {code} (h : Kept τ s₀ s) : Kept τ s₀ (endGround s code) := by
  unfold Machine.endGround
  exact h.setF.other

theorem Kept.abandonLoad (h : Kept τ s₀ s) : Kept τ s₀ (abandonLoad s) :=
  Kept.ite h.failLoad (Kept.ite h.endGround h)

theorem Kept.requestPackageReset {cause} (h : Kept τ s₀ s) : Kept τ s₀ (requestPackageReset s cause) := by
  unfold Machine.requestPackageReset
  exact Kept.ite h h.other.setRefusing.setDrain.abandonLoad

theorem Kept.execFabricResetTimer (h : Kept τ s₀ s) : KeptOut τ s₀ (execFabricResetTimer s) := by
  unfold Machine.execFabricResetTimer
  exact Kept.ite h.other.requestPackageReset h

theorem Kept.startLoad {path} (h : Kept τ s₀ s) : Kept τ s₀ (startLoad s path) := by
  unfold Machine.startLoad
  exact h.setF.setF.setF.setF.setF.setF.setReg.setReg.setReg.other.clearPart.requestQuadResets

theorem Kept.takeFullHeader {path} (h : Kept τ s₀ s) : Kept τ s₀ (takeFullHeader s path) := by
  unfold Machine.takeFullHeader
  dsimp only
  split
  · exact h.startLoad.failLoad
  · exact h.startLoad.other

theorem Kept.writeFrames {check rg n ds} (h : Kept τ s₀ s) : KeptEither τ s₀ (writeFrames check rg n ds s) := by
  induction ds generalizing n s with
  | nil => exact h
  | cons d t ih =>
    rw [Machine.writeFrames]
    exact .ite h (.ite h (ih h.onRgn))

theorem Kept.writeSlot {p d} (h : Kept τ s₀ s) : KeptIf τ s₀ (writeSlot s p d) := by
  unfold Machine.writeSlot
  exact KeptIf.ite trivial h.setReg.setReg.setReg.setReg.other.onPort.setClipped

theorem Kept.writeRecord {check typ hd d} (h : Kept τ s₀ s) : KeptEither τ s₀ (writeRecord check typ hd d s) := by
  unfold Machine.writeRecord
  extract_lets rg c bad named s1 l s2
  have h1 : Kept τ s₀ s1 := .ite h.onRgn h
  have h2 : Kept τ s₀ s2 := .ite h1.other h1
  split
  · exact h2.writeFrames
  · exact h2.onRgn
  · exact h2.onRgn
  · exact h2.onRgn
  · exact h2.onEas
  · split
    · next t ht => exact h2.writeSlot.get ht
    · exact h2
  · split
    · exact h2.setRgn
    · exact h
  · split
    · exact h2.setRgn
    · exact h
  · exact h2.withLibrary fun hm => Memory.wf_foldl (fun _ _ => Mem.wf_writeBytes _ _) _ hm

theorem Kept.takeRun {x} (h : Kept τ s₀ s) : (takeRun s x).Keeps τ s₀ := by
  unfold Machine.takeRun
  split
  · trivial
  · exact h
  · split
    · next ht => exact h.writeRecord.get ht
    · next ht => exact h.writeRecord.getError ht

theorem Kept.advance {x used} (h : Kept τ s₀ s) : Kept τ s₀ (advance s x used) := by
  unfold Machine.advance
  exact Kept.ite h.other h.other

theorem Kept.takeIn {x take} (h : Kept τ s₀ s) (htake : ∀ t y, Kept τ s₀ t → (take t y).Keeps τ s₀) : Kept τ s₀ (takeIn s x take) := by
  unfold Machine.takeIn
  refine .ite h.advance ?_
  have h1 := htake s x h
  cases hx : take s x with
  | wait => exact h
  | bad b t past => rw [hx] at h1; exact Kept.failLoad h1
  | done t used => rw [hx] at h1; exact Kept.advance h1

theorem Kept.sectionStep {typ take} (h : Kept τ s₀ s) (htake : ∀ t y, Kept τ s₀ t → (take t y).Keeps τ s₀) :
    Kept τ s₀ (sectionStep s typ take) := by
  unfold Machine.sectionStep
  refine .ite h ?_
  split
  · exact .ite (h.takeIn htake) h
  · refine .ite h.failLoad ?_
    split
    · exact h
    · exact h.failLoad
    · exact h
    · refine .ite h.failLoad (.ite h.failLoad (.ite h ?_))
      exact Kept.takeIn (Kept.other (Kept.ite h.setF h)) htake

theorem Kept.takePartition {x} (h : Kept τ s₀ s) : (takePartition s x).Keeps τ s₀ := by
  unfold Machine.takePartition
  refine .ite h (.ite h ?_)
  split
  · trivial
  · exact h
  · dsimp only
    split
    · exact h
    · split
      · exact h
      · exact Kept.foldS (h.foldS fun _ _ h => h.setReg) fun _ _ h => h.setRf.setRf

theorem Kept.execPartition (h : Kept τ s₀ s) : KeptOut τ s₀ (execPartition s) :=
  h.sectionStep (fun _ _ h1 => h1.takePartition)

theorem Kept.execCanvas (h : Kept τ s₀ s) : KeptOut τ s₀ (execCanvas s) :=
  h.sectionStep (fun _ _ h1 => h1.takeRun)

theorem Kept.execStroke (h : Kept τ s₀ s) : KeptOut τ s₀ (execStroke s) :=
  h.sectionStep (fun _ _ h1 => h1.takeRun)

theorem Kept.execPalette (h : Kept τ s₀ s) : KeptOut τ s₀ (execPalette s) :=
  h.sectionStep (fun _ _ h1 => h1.takeRun)

theorem Kept.execDmem (h : Kept τ s₀ s) : KeptOut τ s₀ (execDmem s) :=
  h.sectionStep (fun _ _ h1 => h1.takeRun)

theorem Kept.execEasel (h : Kept τ s₀ s) : KeptOut τ s₀ (execEasel s) :=
  h.sectionStep (fun _ _ h1 => h1.takeRun)

theorem Kept.execSlot (h : Kept τ s₀ s) : KeptOut τ s₀ (execSlot s) :=
  h.sectionStep (fun _ _ h1 => h1.takeRun)

theorem Kept.execRouteOvr (h : Kept τ s₀ s) : KeptOut τ s₀ (execRouteOvr s) :=
  h.sectionStep (fun _ _ h1 => h1.takeRun)

theorem Kept.execRegion (h : Kept τ s₀ s) : KeptOut τ s₀ (execRegion s) :=
  h.sectionStep (fun _ _ h1 => h1.takeRun)

theorem Kept.execLibrary (h : Kept τ s₀ s) : KeptOut τ s₀ (execLibrary s) :=
  h.sectionStep (fun _ _ h1 => h1.takeRun)

theorem Kept.takeSettings {x} (h : Kept τ s₀ s) : (takeSettings s x).Keeps τ s₀ := by
  unfold Machine.takeSettings
  refine .ite h ?_
  split
  · trivial
  · exact h
  · dsimp only
    split
    · exact h
    · exact h.other

theorem Kept.execSettings (h : Kept τ s₀ s) : KeptOut τ s₀ (execSettings s) :=
  h.sectionStep (fun _ _ h1 => h1.takeSettings)

theorem Kept.takeSignature {x} (h : Kept τ s₀ s) : (takeSignature s x).Keeps τ s₀ := by
  unfold Machine.takeSignature
  refine .ite h ?_
  split
  · trivial
  · exact h
  · exact .ite h h.setF

theorem Kept.execSignature (h : Kept τ s₀ s) : KeptOut τ s₀ (execSignature s) :=
  h.sectionStep (fun _ _ h1 => h1.takeSignature)

theorem Kept.noteVerified {p} (h : Kept τ s₀ s) : Kept τ s₀ (noteVerified s p) :=
  Kept.ite h h.setF

theorem Kept.setKey {n v} (h : Kept τ s₀ s) : Kept τ s₀ (s.setKey n v) := by
  unfold State.setKey
  exact h.other

theorem Kept.unwrapInto {n w} (h : Kept τ s₀ s) : Kept τ s₀ (unwrapInto s n w) := by
  unfold Machine.unwrapInto
  split
  · exact h.setKey.setF
  · exact Kept.ite h.setKey.setF h.setKey

theorem Kept.execUnwrap {slot} (h : Kept τ s₀ s) : KeptOut τ s₀ (execUnwrap slot s) :=
  h.unwrapInto

theorem Kept.execKeyErase {slot} (h : Kept τ s₀ s) : KeptOut τ s₀ (execKeyErase slot s) :=
  h.setKey

theorem Kept.execKeyEraseAll (h : Kept τ s₀ s) : KeptOut τ s₀ (execKeyEraseAll s) := by
  unfold Machine.execKeyEraseAll
  exact h.other

theorem getLsbD_setBit_of_set {n : Nat} {x : BitVec n} {i j : Nat} (h : x.getLsbD j = true) (hne : j ≠ i) :
    (setBit x i true).getLsbD j = true :=
  (getLsbD_setBit_ne x true hne).trans h

/-- Only a slot that is not programmed is programmed (R197). -/
theorem Kept.execProgram {by_ slot arm} (h : Kept τ s₀ s) : KeptOut τ s₀ (execProgram by_ slot arm s) := by
  unfold Machine.execProgram
  dsimp only
  split
  · exact h
  · next hn =>
    have hfree : s.fuses.programmed.getLsbD slot.toNat ≠ true := fun hp => hn (.inr (.inr hp))
    have hne : ∀ i, s.fuses.programmed.getLsbD i = true → i ≠ slot.toNat := fun i hi hs => hfree (hs ▸ hi)
    exact h.trans ⟨rfl, ⟨fun i hi => getLsbD_setBit_of_set hi (hne i hi), fun i hi => hi,
      fun i _ hi => SMap.get_set_ne _ _ _ (hne i hi), rfl⟩, id, fun _ => ⟨rfl, rfl⟩⟩

theorem getLsbD_setBit_true {n : Nat} {x : BitVec n} {i j : Nat} (h : x.getLsbD j = true) : (setBit x i true).getLsbD j = true := by
  by_cases hij : j = i
  · subst hij
    have hj : j < n := BitVec.lt_of_getLsbD h
    simp [setBit, setBits, hj]
  · exact getLsbD_setBit_of_set h hij

theorem Kept.execRevoke {by_ slot arm} (h : Kept τ s₀ s) : KeptOut τ s₀ (execRevoke by_ slot arm s) := by
  have hset : ∀ i, s.fuses.revoked.getLsbD i = true → (setBit s.fuses.revoked slot.toNat true).getLsbD i = true :=
    fun _ => getLsbD_setBit_true
  exact Kept.ite h (h.trans ⟨rfl, ⟨fun _ hi => hi, hset, fun _ _ _ => rfl, rfl⟩, id, fun _ => ⟨rfl, rfl⟩⟩)

theorem Kept.setCopy {n c x} (h : Kept τ s₀ s) : Kept τ s₀ (s.setCopy n c x) := by
  unfold State.setCopy
  exact h.other

theorem Kept.loadCopy {n c second} (h : Kept τ s₀ s) : Kept τ s₀ (loadCopy s n c second) := by
  unfold Machine.loadCopy
  exact Kept.of (fun h2 => (Kept.ite h2.setF h2).takeFullHeader) ((Kept.ite h h.unwrapInto).other.setF)

theorem Kept.loadGround {n} (h : Kept τ s₀ s) : Kept τ s₀ (loadGround s n) := by
  unfold Machine.loadGround
  split
  · exact h.draw.setF.setF.setF.ibi
  · exact h.loadCopy

theorem Kept.yieldPartial (h : Kept τ s₀ s) : Kept τ s₀ (yieldPartial s) :=
  Kept.ite h.rejectPartial h

theorem Kept.execGroundLoad {slot} (h : Kept τ s₀ s) : KeptOut τ s₀ (execGroundLoad slot s) :=
  Kept.ite h h.yieldPartial.loadGround

theorem Kept.execGroundWrite {slot} (h : Kept τ s₀ s) : KeptOut τ s₀ (execGroundWrite slot s) := by
  unfold Machine.execGroundWrite
  exact Kept.ite h h.other

theorem Kept.execGroundErase {slot} (h : Kept τ s₀ s) : KeptOut τ s₀ (execGroundErase slot s) :=
  h.setCopy.setCopy.setF

theorem Kept.takeGround {n} (h : Kept τ s₀ s) : Kept τ s₀ (takeGround s n) := by
  unfold Machine.takeGround
  split
  · exact h.endGround
  · exact Kept.ite h.draw.endGround h.setCopy.other

theorem Kept.execGroundCommit (h : Kept τ s₀ s) : KeptOut τ s₀ (execGroundCommit s) := by
  unfold Machine.execGroundCommit
  split
  · split
    · exact h
    · split
      · exact h.endGround
      · exact Kept.of (fun h1 => Kept.of (fun h2 => h2.setCopy.endGround) (by split; exact h1; exact h1.draw)) h.noteVerified
  · exact h

theorem Kept.execGroundRefresh {slot} (h : Kept τ s₀ s) : KeptOut τ s₀ (execGroundRefresh slot s) := by
  unfold Machine.execGroundRefresh
  dsimp only
  split
  · exact h
  · exact Kept.ite h h.setCopy

theorem Kept.tryHeader {path} (h : Kept τ s₀ s) : Kept τ s₀ (tryHeader s path) := by
  unfold Machine.tryHeader
  split
  · exact h
  · split
    · exact h.takeGround
    · exact h.takeFullHeader

theorem Kept.issueStart {tick j all broadcast} (h : Kept τ s₀ s) : Kept τ s₀ (issueStart s tick j all broadcast) := by
  have h1 : Kept τ s₀ (Machine.broadcastOf s 0x22 (startFlit tick j all)).1 := h.broadcastOf
  unfold Machine.issueStart
  dsimp only
  generalize Machine.broadcastOf s 0x22 (startFlit tick j all) = x at h1 ⊢
  exact (Kept.ite h (Kept.ite h.setF h1.rememberStart.flood)).applyStarts

theorem Kept.enterUser (h : Kept τ s₀ s) : Kept τ s₀ (enterUser s) :=
  Kept.of (fun h5 => Kept.ite h5.issueStart h5) ((h.setF.setF.foldl (fun _ _ h2 => Kept.ite h2.onRgn h2)).foldl (fun _ _ h4 => h4.startLatches))

theorem Kept.doneReleased (h : Kept τ s₀ s) : Kept τ s₀ (doneReleased s) :=
  Kept.ite h.enterUser h

theorem Kept.finishRegion {rg} (h : Kept τ s₀ s) : Kept τ s₀ (finishRegion s rg) :=
  Kept.ite (Kept.of (fun h2 => Kept.ite h2.isolate h2) h.gateRegion) (Kept.ite h.gateRegion (Kept.ite h (Kept.ite h.gateRegion h.onRgn.resetDelays)))

theorem Kept.countSpares (h : Kept τ s₀ s) : Kept τ s₀ (countSpares s) :=
  h.foldl (fun _ _ h1 => h1.setF)

theorem Kept.writeBanks (h : Kept τ s₀ s) : Kept τ s₀ (writeBanks s) :=
  h.foldl (fun _ _ h1 => h1.draw.setRf.setRf.setRf.setRf)

theorem Kept.clearSlots (h : Kept τ s₀ s) : Kept τ s₀ (clearSlots s) :=
  h.foldl (fun _ _ h1 => Kept.ite h1 ((h1.foldl (fun _ _ h2 => h2.setReg)).onPort.setClipped))

theorem Kept.finishLoad {p} (h : Kept false s₀ s) : Kept false s₀ (finishLoad s p) := by
  unfold Machine.finishLoad
  extract_lets s1 s2 s3 g s4 s5 s6 id s7 s8 s9
  have h1 : Kept false s₀ s1 := h.noteVerified
  have h2 : Kept false s₀ s2 := .ite h1.setF h1
  have h3 : Kept false s₀ s3 := h2.foldS fun _ _ h => h.applySetting
  have h4 : Kept false s₀ s4 := h3.other
  have h5 : Kept false s₀ s5 := (h4.foldS fun _ _ h => h.finishRegion).writeBanks.countSpares.clearSlots
  have h6 : Kept false s₀ s6 := h5.foldS fun _ _ h => .ite h.runChecks h
  have h8 : Kept false s₀ s8 := h6.setReg.setReg.bump.setF
  have h9 : Kept false s₀ s9 := h8.other
  exact h9.doneReleased

theorem Kept.execFinishingEnd (h : Kept false s₀ s) : KeptOut false s₀ (execFinishingEnd s) := by
  unfold Machine.execFinishingEnd
  split
  · exact h
  · dsimp only
    split
    · exact Kept.ite h.loadCopy h.failLoad
    · exact h.finishLoad

theorem Kept.execLoadTimeout (h : Kept τ s₀ s) : KeptOut τ s₀ (execLoadTimeout s) :=
  Kept.ite h.failLoad h

theorem Kept.execAbort (h : Kept τ s₀ s) : KeptOut τ s₀ (execAbort s) :=
  h.abandonLoad

theorem Kept.execDoneHigh (h : Kept τ s₀ s) : KeptOut τ s₀ (execDoneHigh s) :=
  Kept.ite h.enterUser h

theorem Kept.execStartCmd {v} (h : Kept τ s₀ s) : KeptOut τ s₀ (execStartCmd v s) :=
  Kept.of (fun h1 => Kept.ite h1 h1.issueStart) h.setReg

theorem Kept.partialHeader (h : Kept τ s₀ s) : Kept τ s₀ (partialHeader s) := by
  unfold Machine.partialHeader
  refine .ite h.setF.rejectPartial ?_
  dsimp only
  split
  · exact h.setF.rejectPartial
  · exact Kept.ite h.setF.rejectPartial (Kept.ite h.setF.rejectPartial h.setF.other)

theorem Kept.startPartial {src} (h : Kept τ s₀ s) : Kept τ s₀ (startPartial s src) := by
  unfold Machine.startPartial
  exact h.setF.setF.other

theorem Kept.afterStage (h : Kept τ s₀ s) : Kept τ s₀ (afterStage s) :=
  Kept.of (fun h1 => Kept.of (fun h2 => Kept.ite h2.setF h2) (Kept.ite h1.partialHeader h1)) (Kept.ite (Kept.ite h.startPartial h.tryHeader) h)

theorem Kept.refuseFrame {cause} (h : Kept τ s₀ s) : Kept τ s₀ (refuseFrame s cause).1 :=
  h.bump

theorem Kept.frameRows {ofs ws} (h : Kept τ s₀ s) : Kept τ s₀ (frameRows s ofs ws).1 :=
  Kept.iteFst h.bump (Kept.iteFst h.refuseFrame h.stageIn.afterStage)

theorem Kept.beginFrame {node ws} (h : Kept τ s₀ s) : Kept τ s₀ (beginFrame s node ws).1 := by
  unfold Machine.beginFrame
  exact h.other.frameRows

theorem Kept.refusePartial {ws} (h : Kept τ s₀ s) : Kept τ s₀ (refusePartial s ws) :=
  h.setF.recordReject

theorem Kept.offerFrame {src ofs ws} (h : Kept τ s₀ s) : Kept τ s₀ (offerFrame s src ofs ws).1 := by
  unfold Machine.offerFrame
  cases s.load.kind with
  | none => exact Kept.iteFst (Kept.iteFst h.refuseFrame h.beginFrame) (Kept.iteFst h.refuseFrame h.frameRows)
  | full => exact Kept.iteFst h.refusePartial (Kept.iteFst h.refuseFrame (Kept.iteFst h h.frameRows))
  | ground _ => exact Kept.iteFst h.refusePartial (Kept.iteFst h.frameRows h.refuseFrame)
  | retouch => exact Kept.iteFst h.rejectPartial.beginFrame (Kept.iteFst (Kept.iteFst h h.refuseFrame) (Kept.iteFst h h.frameRows))

theorem Kept.execCfgFifo {w} (h : Kept τ s₀ s) : KeptOut τ s₀ (execCfgFifo w s) := by
  unfold Machine.execCfgFifo
  exact Kept.ite h.bump h.other.stageIn.afterStage

theorem Kept.endpointBytes {v} (h : Kept τ s₀ s) : Kept τ s₀ (endpointBytes s v) := by
  unfold Machine.endpointBytes
  split
  · exact h.other
  · exact h.other.stageIn.afterStage

theorem Kept.execRetouchEndpointToken {rg} (h : Kept τ s₀ s) : KeptOut τ s₀ (execRetouchEndpointToken rg s) := by
  unfold Machine.execRetouchEndpointToken
  split
  · exact h
  · split
    · exact h
    · exact Kept.ite h.takeToken.endpointBytes (Kept.ite h.takeToken.other.startPartial.endpointBytes (Kept.ite h.takeToken.recordReject.onRgn h))

theorem Kept.clear {p} (h : Kept τ s₀ s) : Kept τ s₀ (PartEntry.clear p s) :=
  h.onRgn

theorem Kept.walkRuns {p fuel x} (h : Kept τ s₀ s) : ∀ t, walkRuns p fuel s x = .ok t → Kept τ s₀ t := by
  induction fuel generalizing s x with
  | zero =>
    intro t ht
    cases ht
    exact h
  | succ n ih =>
    intro t ht
    rw [Machine.walkRuns] at ht
    split at ht
    · cases ht
      exact h
    split at ht
    · cases ht
    · cases ht
    · split at ht
      · cases ht
      · split at ht
        · cases ht
        · next hw => exact ih (h.writeRecord.get hw) t ht

theorem Kept.walkSections {p fuel k at_ enc} (h : Kept τ s₀ s) : ∀ r, walkSections p fuel k at_ enc s = .ok r → Kept τ s₀ r.1 := by
  induction fuel generalizing s k at_ enc with
  | zero =>
    intro r hr
    cases hr
  | succ n ih =>
    intro r hr
    rw [Machine.walkSections] at hr
    split at hr
    · cases hr
    · split at hr
      · split at hr
        · cases hr
        · split at hr
          · cases hr
          · cases hr
            exact h
      · split at hr
        · cases hr
        · split at hr
          · cases hr
          · next hw => exact ih (h.walkRuns _ hw) r hr
    · cases hr

theorem Kept.writePartial {p} (h : Kept τ s₀ s) : ∀ r, writePartial p s = .ok r → Kept τ s₀ r.1 :=
  h.clear.walkSections

theorem Kept.execPartialCheck (h : Kept τ s₀ s) : KeptOut τ s₀ (execPartialCheck s) := by
  unfold Machine.execPartialCheck
  refine Kept.ite h ?_
  split
  · exact h.rejectPartial
  · split
    · exact h.rejectPartial
    · split
      · exact h.rejectPartial
      · split
        · exact h.rejectPartial
        · split
          · exact h.rejectPartial
          · split
            · exact h.rejectPartial
            · exact Kept.noteVerified (Kept.other h.setF)

theorem Kept.execPartialTimeout (h : Kept τ s₀ s) : KeptOut τ s₀ (execPartialTimeout s) :=
  Kept.ite h.rejectPartial h

theorem Kept.execHoldWait (h : Kept τ s₀ s) : KeptOut τ s₀ (execHoldWait s) := by
  unfold Machine.execHoldWait
  split
  · exact Kept.ite h.rejectPartial h
  · exact h

theorem Kept.execRtcAbort (h : Kept τ s₀ s) : KeptOut τ s₀ (execRtcAbort s) :=
  Kept.ite h.rejectPartial h

theorem Kept.execClampForce (h : Kept τ s₀ s) : KeptOut τ s₀ (execClampForce s) := by
  unfold Machine.execClampForce
  cases s.partOf with
  | some p => exact Kept.ite h (h.foldS fun _ _ h3 => h3.tokenGone.bump).bump.other
  | none => exact h

theorem Kept.beginApply {p} (h : Kept τ s₀ s) : Kept τ s₀ (beginApply s p) := by
  unfold Machine.beginApply
  exact Kept.of (fun h4 => Kept.ite (h4.foldl (fun _ _ h6 => h6.resetCore.holdReset)) h4) h.setF.other.setF.onRgn

theorem Kept.reinitialise {old p} (h : Kept τ s₀ s) : Kept τ s₀ (reinitialise old s p) := by
  unfold Machine.reinitialise
  refine .ite h ?_
  extract_lets s1 s2 s3 s4
  have h2 : Kept τ s₀ s2 := .ite h.onRgn.onRgn h.onRgn
  have h3 : Kept τ s₀ s3 := h2.foldS fun _ _ h => .ite h.onRgn h
  have h4 : Kept τ s₀ s4 := h3.foldS fun _ _ h => .ite h.writeDelay h
  exact h4.foldS fun _ _ h => h.recheckFights

theorem Kept.endApply {p enc} (h : Kept τ s₀ s) : Kept τ s₀ (endApply s p enc) :=
  Kept.of (fun h3 => Kept.of (fun h4 => Kept.of (fun h5 => (Kept.ite h5.setF h5).setF.setF.setF.setF.bump.closePartial.dropTokens.beginLate.resetIfDue) (Kept.ite h4.setDirty h4)) (Kept.ite h3.onRgn h3)) ((Kept.ite h.onRgn.writeMarkers.onRgn h).openClamps.setF.foldl (fun _ _ h2 => h2.startLatch))

theorem Kept.execApply (h : Kept τ s₀ s) : KeptOut τ s₀ (execApply s) := by
  unfold Machine.execApply
  split
  · exact h
  · refine Kept.ite (.ite h.rejectPartial (.ite h h.beginApply)) (.ite h (.ite h.rejectPartial.beginLate ?_))
    split
    · exact h.rejectPartial.beginLate
    · next t _ enc hw =>
      have h1 : Kept τ s₀ t := Kept.writePartial (Kept.other h) _ hw
      exact (Kept.reinitialise (Kept.other h1)).endApply

theorem Kept.execDirtyChecksPass {rg} (h : Kept τ s₀ s) : KeptOut τ s₀ (execDirtyChecksPass rg s) :=
  Kept.ite h h.setDirty.runChecks.onRgn.beginLate

theorem Kept.execReadback {kind rg} (h : Kept τ s₀ s) : KeptOut τ s₀ (execReadback kind rg s) := by
  unfold Machine.execReadback
  exact Kept.of (fun h1 => Kept.ite h1.setF h1.other.setF.nextReadback) h.setF.setF.setF

theorem Kept.execReadbackReady (h : Kept τ s₀ s) : KeptOut τ s₀ (execReadbackReady s) := by
  unfold Machine.execReadbackReady
  split
  · exact h.nextReadback
  · exact Kept.ite h (Kept.of (fun h4 => (Kept.ite h4.setF h4).nextReadback) h.setF.other)

theorem Kept.outVote {vote} (h : Kept τ s₀ s) : Kept τ s₀ (outVote s vote) :=
  Kept.ite h.bump.setF h

theorem Kept.remapFrame {rg n} (h : Kept τ s₀ s) : Kept τ s₀ (remapFrame s rg n) :=
  Kept.ite h (Kept.of (fun h4 => Kept.ite h4.setF h4) h.setF.bump.setF.storeRepair)

theorem Kept.lastingFrame {rg n ue now} (h : Kept τ s₀ s) : Kept τ s₀ (lastingFrame s rg n ue now) :=
  Kept.of (fun h3 => Kept.ite h3 h3.remapFrame) h.setReg.bump.ibi.declareLasting

theorem Kept.trackFrame {rg n now} (h : Kept τ s₀ s) : Kept τ s₀ (trackFrame s rg n now).1 := by
  unfold Machine.trackFrame
  split; exact h.other; exact Kept.iteFst h.other (by split; exact h; exact (Kept.ite h.setF h).other)

theorem Kept.scrubFrame {rg n eccs now} (h : Kept τ s₀ s) : Kept τ s₀ (scrubFrame s rg n eccs now) := by
  unfold Machine.scrubFrame
  exact Kept.of (fun h2 => Kept.ite (Kept.of (fun h6 => Kept.ite h6.taint h6) (((Kept.iteFst h2.trackFrame h2).onRgn).lastingFrame)) (Kept.ite ((Kept.iteFst h2.trackFrame h2).lastingFrame) (Kept.iteFst h2.trackFrame h2))) (h.foldl (fun _ _ h1 => by split; exact h1; exact h1.bump.noteFault; exact h1.bump.noteFault))

theorem Kept.execScrubFrame {rg eccs vote since} (h : Kept τ s₀ s) : KeptOut τ s₀ (execScrubFrame rg eccs vote since s) := by
  unfold Machine.execScrubFrame
  exact Kept.ite h (Kept.of (fun h4 => Kept.of (fun h6 => Kept.ite h6.other.bump h6) ((Kept.ite h4 h4.scrubFrame).other)) h.outVote)

theorem Kept.scrubWord {rg e} (h : Kept τ s₀ s) : Kept τ s₀ (scrubWord s rg e) := by
  unfold Machine.scrubWord
  exact Kept.of (fun h2 => Kept.ite h2.other.bump h2) ((Kept.ite h.backRead h.backRead).other)

theorem Kept.passDmem {rg} (h : Kept τ s₀ s) : Kept τ s₀ (s.passDmem rg) := by
  unfold State.passDmem
  exact h.other

theorem Kept.execScrubMemStep {rg eccs vote} (h : Kept τ s₀ s) : KeptOut τ s₀ (execScrubMemStep rg eccs vote s) := by
  refine Kept.ite h ((Kept.ite h.passDmem h).outVote.portGives fun t h1 => ?_)
  dsimp only
  exact Kept.onRgn (h1.foldS fun _ _ h2 => (Kept.ite h2.passDmem h2).scrubWord)

theorem Kept.holdJobs (h : Kept τ s₀ s) : Kept τ s₀ (holdJobs s) :=
  h.foldl (fun _ _ h1 => h1.requestHold)

theorem Kept.resumeJobs (h : Kept τ s₀ s) : Kept τ s₀ (resumeJobs s) :=
  h.foldl (fun _ _ h1 => Kept.ite h1 (Kept.ite h1.returnJob h1.setJob))

theorem Kept.releaseRegions (h : Kept τ s₀ s) : Kept τ s₀ (releaseRegions s) :=
  h.foldl (fun _ _ h1 => h1.beginLate)

theorem Kept.acceptAgain (h : Kept τ s₀ s) : Kept τ s₀ (acceptAgain s) :=
  h.setRefusing.foldl (fun _ _ h1 => h1.setRefusing)

theorem Kept.beginEntry {st auto} (h : Kept τ s₀ s) : Kept τ s₀ (beginEntry s st auto) := by
  unfold Machine.beginEntry
  exact Kept.of (fun h1 => Kept.ite h1 (Kept.ite (Kept.ite h1.reachHold h1.beginDrain) h1.setDrain.setF.holdJobs.settleHold)) h.other

theorem Kept.cancelEntry (h : Kept τ s₀ s) : Kept τ s₀ (cancelEntry s) := by
  unfold Machine.cancelEntry
  split
  · exact h.setDrain.setF.acceptAgain.bump
  · exact h.setDrain.setF.acceptAgain.bump
  · exact h

theorem Kept.commandState {st} (h : Kept τ s₀ s) : Kept τ s₀ (commandState s st) := by
  unfold Machine.commandState
  dsimp only
  split
  · exact Kept.ite h.other h.other
  · exact h
  · exact h
  · exact Kept.of (fun h1 => Kept.ite h1.beginEntry (Kept.ite h1.cancelEntry.other (Kept.ite h1.other h1.cancelEntry.other))) h.other
  · exact Kept.of (fun h9 => Kept.ite h9.beginEntry (Kept.ite h9.cancelEntry.other (Kept.ite h9.other h9.cancelEntry.other))) h.other
  · exact Kept.of (fun h17 => Kept.ite h17.beginEntry (Kept.ite h17.cancelEntry.other (Kept.ite h17.other h17.cancelEntry.other))) h.other

theorem Kept.execEnterState {st} (h : Kept τ s₀ s) : KeptOut τ s₀ (execEnterState st s) :=
  h.setF.commandState

theorem Kept.execAutoEntry (h : Kept τ s₀ s) : KeptOut τ s₀ (execAutoEntry s) := by
  unfold Machine.execAutoEntry
  dsimp only
  split
  · exact h
  · split
    · exact h.beginEntry
    · exact h

theorem Kept.restoreVq {q} (h : Kept τ s₀ s) : Kept τ s₀ (restoreVq s q) := by
  unfold Machine.restoreVq
  exact Kept.ite h.other h.draw.setVq

theorem Kept.loseQuad {q} (h : Kept τ s₀ s) : Kept τ s₀ (loseQuad s q) :=
  Kept.withLibrary (h.flushQuad.emptyDie.foldS fun _ _ h => h.onRgn) (SMap.wf_keep _)

theorem Kept.abandonApply {q} (h : Kept τ s₀ s) : Kept τ s₀ (abandonApply s q) := by
  unfold Machine.abandonApply
  split
  · exact Kept.ite h.rejectPartial h
  · exact h

theorem Kept.failActive {q} (h : Kept τ s₀ s) : Kept τ s₀ (failActive s q) :=
  h.foldl (fun _ _ h1 => Kept.ite h1.failJob h1)

theorem Kept.quadOff {q} (h : Kept τ s₀ s) : Kept τ s₀ (quadOff s q) :=
  h.failActive.abandonApply.loseQuad.setVq

theorem Kept.sleepQuadSupply {q st} (h : Kept τ s₀ s) : Kept τ s₀ (sleepQuadSupply s q st) := by
  unfold Machine.sleepQuadSupply
  exact Kept.of (fun h1 => Kept.ite h1 (Kept.ite h1.quadOff h1.setVq)) h.other

theorem Kept.sleepPorts {st} (h : Kept false s₀ s) : Kept false s₀ (sleepPorts s st) :=
  h.foldl (fun _ _ h1 => Kept.ite h1.quietLink h1.onPort.setLink)

theorem Kept.completeEntry {st} (h : Kept τ s₀ s) : Kept τ s₀ (completeEntry s st) := by
  have h1 : Kept τ s₀ ((s.setDrain 4 .none).setF F.PWR_STATUS_ENTERING 0) := h.setDrain.setF
  unfold Machine.completeEntry
  refine .ite h1.acceptAgain.bump.other ?_
  extract_lets s2 s3 s4
  have h2 : Kept τ s₀ s2 := h1.foldS fun _ _ h => .ite h h.sleepQuadSupply
  have h4 : Kept τ s₀ s4 := .ite h2.setPwr.bump.losePeripherals h2.setPwr.bump
  cases s4.pwr.wakeDue with
  | none => exact h4
  | some _ => exact h4.other

theorem Kept.wakeEvent {src acts} (h : Kept τ s₀ s) : Kept τ s₀ (wakeEvent s src acts) := by
  unfold Machine.wakeEvent
  extract_lets note
  have h1 : Kept τ s₀ (note s) := h.setF.setF.setF.other
  split
  · exact .ite h1.cancelEntry.other h
  · exact .ite h1.cancelEntry.other h
  · exact .ite h1.other h
  · exact h
  · exact .ite h1.other h

theorem Kept.execWake (h : Kept τ s₀ s) : KeptOut τ s₀ (execWake s) :=
  h.wakeEvent

theorem Kept.execPeerResumesSignalling {p} (h : Kept τ s₀ s) : KeptOut τ s₀ (execPeerResumesSignalling p s) :=
  Kept.ite h.wakeEvent h

theorem Kept.idleFails (h : Kept τ s₀ s) : Kept τ s₀ (idleFails s) :=
  Kept.of (fun h1 => Kept.ite h1.wakeEvent h1) h.setF

theorem Kept.exitQuad {was q} (h : Kept τ s₀ s) : Kept τ s₀ (exitQuad s was q) :=
  Kept.ite (Kept.of (fun h2 => Kept.ite h2.setDrain h2) ((Kept.ite h h.abandonLoad.resetQuadrant).setVq)) (Kept.ite h.restoreVq h)

theorem Kept.endEmulation (h : Kept τ s₀ s) : Kept τ s₀ (endEmulation s) := by
  unfold Machine.endEmulation
  exact h.foldl (fun _ _ h1 => Kept.ite h1 (Kept.of (fun h2 => Kept.ite h2.quadOff (Kept.ite h2 h2.setVq)) h1.other))

theorem Kept.railOn {q} (h : Kept τ s₀ s) : Kept τ s₀ (railOn s q) :=
  Kept.ite h h.setVq

theorem Kept.setQop {q op} (h : Kept τ s₀ s) : Kept τ s₀ (setQop s q op) :=
  h.setF

theorem Kept.sleepQuad {q st} (h : Kept τ s₀ s) : Kept τ s₀ (sleepQuad s q st) := by
  unfold Machine.sleepQuad
  dsimp only
  split
  · exact h.setF
  · split
    · exact h
    · split
      · exact h.setDrain
      · exact ((h.foldl (fun _ _ h1 => h1.abandonTest)).setRefusing).setDrain
      · exact h.other

theorem Kept.wakeQuad {n} (h : Kept τ s₀ s) : Kept τ s₀ (wakeQuad s n) := by
  unfold Machine.wakeQuad
  dsimp only
  split
  · split
    · exact h
    · split
      · exact h.setRefusing
      · exact (((Kept.ite h h.restoreVq).setOwn).showQuads).setRefusing
      · exact (((Kept.ite h ((Kept.ite h h.abandonLoad.resetQuadrant).railOn)).setOwn).showQuads).setRefusing
      · exact Kept.ite h h.railOn.setOwn.showQuads.setRefusing
      · exact h
  · split
    · exact h.setDrain.setRefusing
    · exact (((Kept.ite h.setDrain h.setDrain.restoreVq).setOwn).showQuads).setRefusing
    · exact (((Kept.ite h.setDrain ((Kept.ite h.setDrain h.setDrain.abandonLoad.resetQuadrant).railOn)).setOwn).showQuads).setRefusing
    · exact Kept.ite h.setDrain h.setDrain.railOn.setOwn.showQuads.setRefusing
    · exact h.setDrain
  · exact h.other

theorem Kept.settleQuad {q} (h : Kept τ s₀ s) : Kept τ s₀ (settleQuad s q) := by
  have h1 : Kept τ s₀ { s with pwr := { s.pwr with qGoal := SMap.set none s.pwr.qGoal q none } } := h.other
  unfold Machine.settleQuad
  cases SMap.get none s.pwr.qGoal q with
  | none => exact h
  | some st => exact Kept.ite h1.wakeQuad h1.sleepQuad

theorem Kept.completeQuad {q st} (h : Kept τ s₀ s) : Kept τ s₀ (completeQuad s q st) :=
  h.setDrain.sleepQuadSupply.setOwn.showQuads.settleQuad

theorem Kept.execEntryComplete (h : Kept τ s₀ s) : KeptOut τ s₀ (execEntryComplete s) := by
  unfold Machine.execEntryComplete
  exact h.foldl (fun _ _ h1 => by split; exact Kept.ite h1.completeEntry (h1.completeQuad); exact h1)

theorem Kept.performQuadReset {q} (h : Kept τ s₀ s) : Kept τ s₀ (performQuadReset s q) :=
  Kept.of (fun h1 => (Kept.ite h1.setOwn.railOn h1).showQuads.setRefusing.settleQuad) h.abandonApply.resetQuadrant.setDrain

theorem Kept.execExitComplete (h : Kept false s₀ s) : KeptOut false s₀ (execExitComplete s) := by
  unfold Machine.execExitComplete
  exact Kept.ite h (Kept.of (fun h17 => Kept.of (fun h18 => Kept.ite h18.loadGround h18) (by split; exact Kept.ite (Kept.ite h17.holdJobs h17) (h17.beginEntry); exact h17.resumeJobs.releaseRegions)) (((h.other.setF.foldl (fun _ _ h11 => h11.exitQuad)).setPwr.acceptAgain.foldl (fun _ _ h14 => Kept.ite h14.settleQuad h14)).foldl (fun _ _ h16 => Kept.ite h16.wakeLink (Kept.ite h16.setLink.beginTraining h16))))

theorem Kept.execQuadReset {q} (h : Kept τ s₀ s) : KeptOut τ s₀ (execQuadReset q s) :=
  h.setQop.abandonLoad.failJobsOf.requestQuadReset

theorem Kept.execQuadDoze {q} (h : Kept τ s₀ s) : KeptOut τ s₀ (execQuadDoze q s) :=
  h.setQop.sleepQuad

theorem Kept.execQuadDormant {q} (h : Kept τ s₀ s) : KeptOut τ s₀ (execQuadDormant q s) :=
  h.setQop.sleepQuad

theorem Kept.execQuadWake {q} (h : Kept τ s₀ s) : KeptOut τ s₀ (execQuadWake q s) :=
  h.setQop.wakeQuad

theorem Kept.execVqFault {q since} (h : Kept τ s₀ s) : KeptOut τ s₀ (execVqFault q since s) := by
  unfold Machine.execVqFault
  extract_lets n s1 p1 s2 s3 recent p3 s4 s5
  have h1 : Kept τ s₀ s1 := h.abandonLoad.abandonApply.foldS fun _ _ h => h.isolate
  have h2 : Kept τ s₀ s2 := h1.other
  have h3 : Kept τ s₀ s3 := (Kept.ite h2 h2.resetQuadrant.setDrain).setVq
  have h4 : Kept τ s₀ s4 := h3.other
  have h5 : Kept τ s₀ s5 := h4.setOwn.setRefusing.showQuads
  exact Kept.ibi h5.setF.noteFault

theorem Kept.setThrottle {temp cap} (h : Kept τ s₀ s) : Kept τ s₀ (setThrottle s temp cap) :=
  h.setF.setF.setF

theorem Kept.execPowerSample {pkg quads} (h : Kept τ s₀ s) : KeptOut τ s₀ (execPowerSample pkg quads s) := by
  unfold Machine.execPowerSample
  extract_lets s1 s2 s3 s4 s5 ovf temp s6 quiet calm p6 s7
  have h2 : Kept τ s₀ s2 := Kept.setF (h.foldS fun _ _ h => h.issueAvs)
  have h4 : Kept τ s₀ s4 := (Kept.ite h2.setF h2).foldS fun _ _ h => h.setF
  have h6 : Kept τ s₀ s6 := .ite h4.setF.setThrottle h4.setF
  have h7 : Kept τ s₀ s7 := h6.other
  exact Kept.ite h7.setThrottle h7

theorem Kept.judgeTrip (h : Kept τ s₀ s) : Kept τ s₀ (judgeTrip s) := by
  unfold Machine.judgeTrip
  exact Kept.ite (Kept.of (fun h9 => Kept.ite h9.holdJobs (Kept.ite h9.beginEntry.setF (Kept.of (fun h10 => Kept.ite h10.other.setF h10) h9.holdJobs))) h.setF.setF.ibi) (Kept.ite (Kept.of (fun h11 => Kept.ite h11.wakeEvent h11) h.setF) h)

theorem Kept.execThermalSample {temps} (h : Kept τ s₀ s) : KeptOut τ s₀ (execThermalSample temps s) := by
  unfold Machine.execThermalSample
  exact KeptOut.ite h (Kept.of (fun h7 => (Kept.ite h7.other.setThrottle h7).watchTest.judgeTrip) ((h.foldl (fun _ _ h5 => h5.setF)).setF.setF))

theorem Kept.saveSlow {n} (h : Kept τ s₀ s) : Kept τ s₀ (saveSlow s n) := by
  unfold Machine.saveSlow
  exact h.other

theorem Kept.execAgeCheck {q slow} (h : Kept τ s₀ s) : KeptOut τ s₀ (execAgeCheck q slow s) :=
  Kept.of (fun h1 => Kept.of (fun h2 => Kept.ite h2.setF.ibi h2) (Kept.ite h1.saveSlow h1)) h.setF

theorem Kept.performPackageReset (h : Kept false s₀ s) : Kept false s₀ (performPackageReset s) :=
  h.resetPackage

theorem Kept.loseTaken {inside lost} (h : Kept τ s₀ s) : Kept τ s₀ (s.loseTaken inside lost) := by
  unfold State.loseTaken
  exact h.other.dropQueued.foldl (fun _ _ h3 => Kept.ite h3.onRgn h3)

theorem Kept.testSupply (h : Kept τ s₀ s) : Kept τ s₀ (testSupply s) :=
  h.foldl (fun _ _ h1 => Kept.ite h1 h1.setVq)

theorem Kept.execNeighbourDrainEnd {sc} (h : Kept false s₀ s) : KeptOut false s₀ (execNeighbourDrainEnd sc s) := by
  unfold Machine.execNeighbourDrainEnd
  split
  · exact h.drainedRegion
  · split
    · exact h.performQuadReset
    · exact h.loseTaken.flushQuad.setDrain
    · exact h
  · split
    · exact h.performPackageReset
    · exact h.loseTaken.flushCrossings.dropLines.sleepPorts.setDrain
    · exact Kept.of (fun h2 => Kept.ite h2.testSupply.beginPackageTest h2) h.loseTaken.setDrain.sleepPorts.other
    · exact h

theorem Kept.execResetN {cool} (h : Kept false s₀ s) : KeptOut false s₀ (execResetN cool s) := by
  unfold Machine.execResetN
  split
  · exact h
  · exact Kept.ite h.other.resetPackage h
  · exact h.requestPackageReset.other

theorem Kept.execResetNRelease {profSel addrSel lodestar} (h : Kept false s₀ s) : KeptOut false s₀ (execResetNRelease profSel addrSel lodestar s) := by
  unfold Machine.execResetNRelease
  exact Kept.ite h ((Kept.ite h.performPackageReset h).setF.setF.setF.setF.setF.other)

theorem Kept.execPowerOn (h : Kept false s₀ s) : KeptOut false s₀ (execPowerOn s) := by
  unfold Machine.execPowerOn
  exact Kept.of (fun h1 => Kept.ite h1.other.resetPackage h1) h.other

theorem Kept.loseSupply {vhub vfl} (h : Kept false s₀ s) : Kept false s₀ (loseSupply s vhub vfl) := by
  unfold Machine.loseSupply
  exact Kept.of (fun h1 => Kept.of (fun h2 => Kept.ite h2.setF h2) (Kept.ite h1 h1.other.resetPackage)) h.other

theorem Kept.execPowerRemoval (h : Kept false s₀ s) : KeptOut false s₀ (execPowerRemoval s) :=
  Kept.ite h.loseSupply h

theorem Kept.execSupplyLoss {rail} (h : Kept false s₀ s) : KeptOut false s₀ (execSupplyLoss rail s) := by
  unfold Machine.execSupplyLoss
  split
  · exact h.loseSupply
  · exact h.loseSupply
  · exact h.foldl (fun _ _ h1 => h1.goDown)

theorem Kept.execHelmRestart (h : Kept τ s₀ s) : KeptOut τ s₀ (execHelmRestart s) :=
  h.requestPackageReset

theorem Kept.execThermalShutdown (h : Kept false s₀ s) : KeptOut false s₀ (execThermalShutdown s) :=
  (h.resetPackage.foldl (fun _ _ h2 => h2.setF)).setF.setF

theorem Kept.execBootEnd {secondCopy fwVersion} (h : Kept τ s₀ s) : KeptOut τ s₀ (execBootEnd secondCopy fwVersion s) := by
  unfold Machine.execBootEnd
  refine Kept.ite h ?_
  extract_lets boots skips f1 s1 s2 s3 s4 i4 s5 s6 s7 s8 
  have h1 : Kept τ s₀ s1 := h.other
  have h2 : Kept τ s₀ s2 := h1.setF.foldS fun _ _ h => h.setRf
  have h4 : Kept τ s₀ s4 := h2.setReg.setReg.foldS fun _ _ h => h.setF
  have h5 : Kept τ s₀ s5 := h4.other
  have h7 : Kept τ s₀ s7 := Kept.setF (h5.foldS fun _ _ h => h.issueAvs)
  have h8 : Kept τ s₀ s8 := .ite h7 h7.beginPackageTest
  exact h8.other.beginSweep

theorem Kept.execStartupBistEnd {fails} (h : Kept τ s₀ s) : KeptOut τ s₀ (execStartupBistEnd fails s) := by
  unfold Machine.execStartupBistEnd
  exact Kept.ite h h.endPackageTest.other

theorem Kept.execCalibrationEnd (h : Kept τ s₀ s) : KeptOut τ s₀ (execCalibrationEnd s) := by
  unfold Machine.execCalibrationEnd
  exact Kept.ite h (Kept.of (fun h2 => Kept.ite h2 h2.loadGround) h.other)

theorem Kept.execShutdown (h : Kept τ s₀ s) : KeptOut τ s₀ (execShutdown s) := by
  unfold Machine.execShutdown
  exact Kept.ite h h.holdJobs.other

theorem Kept.execShutdownWaitEnd (h : Kept τ s₀ s) : KeptOut τ s₀ (execShutdownWaitEnd s) := by
  unfold Machine.execShutdownWaitEnd
  exact Kept.ite h (Kept.of (fun h5 => ((Kept.ite h5.rejectPartial h5).other.foldl (fun _ _ h7 => h7.abandonTest)).setF.setRefusing.setDrain) h.abandonLoad)

theorem Kept.execShutdownBistEnd {fails offClock} (h : Kept τ s₀ s) : KeptOut τ s₀ (execShutdownBistEnd fails offClock s) := by
  unfold Machine.execShutdownBistEnd
  refine Kept.ite h ?_
  have h1 : Kept τ s₀ (if s.bit F.PWR_CTRL_SHUT_BIST then Machine.endPackageTest s 1 fails offClock else (s, false)).1 := .iteFst h.endPackageTest h
  generalize (if s.bit F.PWR_CTRL_SHUT_BIST then Machine.endPackageTest s 1 fails offClock else (s, false)) = x at h1 ⊢
  obtain ⟨t, pass⟩ := x
  have h2 : Kept τ s₀ (if pass then { t with flash := { t.flash with skip := some t.flash.seq } } else t) := .ite h1.other h1
  generalize hu : (if pass then { t with flash := { t.flash with skip := some t.flash.seq } } else t) = u at h2
  dsimp only
  rw [hu]
  have h4 : Kept τ s₀ (Machine.foldS (List.range 4) (Machine.foldS (List.range 4) u Machine.saveSlow) Machine.quadOff) := (h2.foldS fun _ _ h => h.saveSlow).foldS fun _ _ h => h.quadOff
  generalize Machine.foldS (List.range 4) (Machine.foldS (List.range 4) u Machine.saveSlow) Machine.quadOff = v at h4 ⊢
  exact h4.other.setPwr

theorem Kept.gpioDenied {n} (h : Kept τ s₀ s) : Kept τ s₀ (s.gpioDenied n) :=
  h.bump

theorem Kept.showPads (h : Kept τ s₀ s) : Kept τ s₀ (showPads s) := by
  unfold Machine.showPads
  exact h.other

theorem Kept.seePad {i v} (h : Kept τ s₀ s) : Kept τ s₀ (seePad s i v) := by
  unfold Machine.seePad
  exact h.other

theorem Kept.writeOut {mask w set} (h : Kept τ s₀ s) : Kept τ s₀ (writeOut s mask w set) :=
  h.setF.gpioDenied.showPads

theorem Kept.execOutSet {mask by_} (h : Kept τ s₀ s) : KeptOut τ s₀ (execOutSet mask by_ s) :=
  h.writeOut

theorem Kept.execOutClr {mask by_} (h : Kept τ s₀ s) : KeptOut τ s₀ (execOutClr mask by_ s) :=
  h.writeOut

theorem Kept.writeDir {v w} (h : Kept τ s₀ s) : Kept τ s₀ (writeDir s v w) :=
  h.setF.gpioDenied.showPads

theorem Kept.writeFunc {v w} (h : Kept τ s₀ s) : Kept τ s₀ (writeFunc s v w) :=
  h.changeFunc.gpioDenied

theorem Kept.execFuncChange {v by_} (h : Kept τ s₀ s) : KeptOut τ s₀ (execFuncChange v by_ s) :=
  h.writeFunc

theorem Kept.execParkEnd {i} (h : Kept τ s₀ s) : KeptOut τ s₀ (execParkEnd i s) := by
  unfold Machine.execParkEnd
  exact Kept.ite h h.other.showPads

theorem Kept.deliverLine {n} (h : Kept τ s₀ s) : Kept τ s₀ (deliverLine s n) := by
  unfold Machine.deliverLine
  exact Kept.ite h (Kept.ite h h.other.pushMbin)

theorem Kept.countLine {n} (h : Kept τ s₀ s) : Kept τ s₀ (countLine s n) := by
  unfold Machine.countLine
  exact Kept.ite h.setReg h.other

theorem Kept.execPinInterrupt {line edge_} (h : Kept τ s₀ s) : KeptOut τ s₀ (execPinInterrupt line edge_ s) := by
  unfold Machine.execPinInterrupt
  refine Kept.ite h (Kept.ite h.seePad ?_)
  split
  · exact Kept.ite h.seePad h.seePad.setReg.ibi
  · exact h.seePad.countLine.deliverLine
  · exact h.seePad

theorem Kept.execWakeInput {k level} (h : Kept τ s₀ s) : KeptOut τ s₀ (execWakeInput k level s) :=
  Kept.ite h h.seePad.setF.wakeEvent

theorem Kept.writeUart {b w} (h : Kept τ s₀ s) : Kept τ s₀ (writeUart s b w) := by
  unfold Machine.writeUart
  exact Kept.ite h.gpioDenied (Kept.ite h.bump h.other.showUart)

theorem Kept.execUartDataWrite {b by_} (h : Kept τ s₀ s) : KeptOut τ s₀ (execUartDataWrite b by_ s) :=
  h.writeUart

theorem Kept.readUart (h : Kept τ s₀ s) : Kept τ s₀ (readUart s).2 := by
  unfold Machine.readUart
  split; exact h.setF; exact h.other.showUart.setF

theorem Kept.execUartDataRead (h : Kept τ s₀ s) : KeptOut τ s₀ (execUartDataRead s) :=
  h.readUart

theorem Kept.execUartRx {b frameErr} (h : Kept τ s₀ s) : KeptOut τ s₀ (execUartRx b frameErr s) := by
  unfold Machine.execUartRx
  exact Kept.ite h (Kept.of (fun h2 => Kept.ite h2.setF h2.other.showUart) (Kept.ite h.setF h))

theorem Kept.execUartTx (h : Kept τ s₀ s) : KeptOut τ s₀ (execUartTx s) := by
  unfold Machine.execUartTx
  exact Kept.ite h h.other.showUart

theorem Kept.writeSpi {b holdCs w} (h : Kept τ s₀ s) : Kept τ s₀ (writeSpi s b holdCs w) := by
  unfold Machine.writeSpi
  exact Kept.ite h.gpioDenied h.other.setF.setF

theorem Kept.execSpiData {b holdCs by_} (h : Kept τ s₀ s) : KeptOut τ s₀ (execSpiData b holdCs by_ s) :=
  h.writeSpi

theorem Kept.execSpiByteEnd {rx} (h : Kept τ s₀ s) : KeptOut τ s₀ (execSpiByteEnd rx s) := by
  unfold Machine.execSpiByteEnd
  exact Kept.ite h h.other.setF.setF

theorem Kept.execTachEdge {f us} (h : Kept τ s₀ s) : KeptOut τ s₀ (execTachEdge f us s) := by
  unfold Machine.execTachEdge
  exact Kept.ite h h.other.seePad.setF

theorem Kept.tachTick {us f} (h : Kept τ s₀ s) : Kept τ s₀ (tachTick us s f) := by
  unfold Machine.tachTick
  exact Kept.of (fun h1 => Kept.ite h1.setF h1) h.other

theorem Kept.execCapture {falling} (h : Kept τ s₀ s) : KeptOut τ s₀ (execCapture falling s) := by
  unfold Machine.execCapture
  exact Kept.ite h ((Kept.ite h.setF h).other.seePad.setReg.setF)

theorem Kept.readCapture (h : Kept τ s₀ s) : Kept τ s₀ (readCapture s) :=
  h.setReg.setF

theorem Kept.execCaptureRead (h : Kept τ s₀ s) : KeptOut τ s₀ (execCaptureRead s) :=
  h.readCapture

theorem Kept.takeSem {who n} (h : Kept τ s₀ s) : Kept τ s₀ (takeSem s who n).2 :=
  Kept.iteSnd h.bump (Kept.iteSnd h.setReg.setReg.setReg (Kept.iteSnd h h.bump))

theorem Kept.execTake {n who} (h : Kept τ s₀ s) : KeptOut τ s₀ (execTake n who s) :=
  h.takeSem

theorem Kept.releaseSem {who n} (h : Kept τ s₀ s) : Kept τ s₀ (releaseSem s who n) :=
  Kept.ite h.setReg.setReg h.bump

theorem Kept.execSemRelease {n who} (h : Kept τ s₀ s) : KeptOut τ s₀ (execSemRelease n who s) :=
  h.releaseSem

theorem Kept.execHoldLimit {n} (h : Kept τ s₀ s) : KeptOut τ s₀ (execHoldLimit n s) :=
  Kept.ite h h.breakSem

theorem Kept.readTake {m n} (h : Kept τ s₀ s) : Kept τ s₀ (readTake s m n).st :=
  Kept.ite h h.takeSem

theorem Kept.readTick {m} (h : Kept τ s₀ s) : Kept τ s₀ (readTick s m).st := by
  unfold Machine.readTick
  exact Kept.ite h.other h.latchTick

theorem Kept.readCap {m} (h : Kept τ s₀ s) : Kept τ s₀ (readCap s m).st := by
  unfold Machine.readCap
  exact Kept.ite h.other h.readCapture

theorem Kept.readPads (h : Kept τ s₀ s) : Kept τ s₀ (readPads s).st :=
  h.other rfl rfl

theorem Kept.readPin {w i pulled} (h : Kept τ s₀ s) : Kept τ s₀ (readPin s w i pulled).st := by
  unfold Machine.readPin
  split; exact h; exact h.draw

theorem Kept.clearHub {a rc} (h : Kept τ s₀ s) : Kept τ s₀ (clearHub s a rc) :=
  Kept.ite h h.setReg

theorem Kept.readHub {m a} (h : Kept τ s₀ s) : Kept τ s₀ (readHub s m a).st := by
  unfold Machine.readHub
  refine Kept.iteSt h.readTake (.iteSt h.readTick (.iteSt h (.iteSt h.readCap (.iteSt h (.iteSt (Kept.ite h (Kept.ite h.readUart h.readUart.noteFault))
    (.iteSt h.readPads (.iteSt h.draw (.iteSt h.readPin (.iteSt h.readPin (.iteSt h ?_))))))))))
  cases hubRow a with
  | some r => exact Kept.ite h.clearHub.other h.clearHub
  | none => exact Kept.ite h.other h

theorem Kept.readRing {m rg a} (h : Kept τ s₀ s) : Kept τ s₀ (readRing s m rg a).st := by
  unfold Machine.readRing
  dsimp only
  split
  · exact (Kept.ite h h.bumpR).backRead
  · exact h.askPort.backRead.onRgn

theorem Kept.ringGiven {who rg a} (h : Kept τ s₀ s) : KeptIf τ s₀ (ringGiven s who rg a) := by
  unfold Machine.ringGiven
  split
  · exact trivial
  · split
    · exact KeptIf.ite trivial h
    · exact KeptIf.ite trivial h.askPort

theorem Kept.readRgn {m rg a} (h : Kept τ s₀ s) : Kept τ s₀ (readRgn s m rg a).st := by
  unfold Machine.readRgn
  split
  · exact h
  · exact Kept.iteSt h.readRing (.iteSt (.iteSt (.iteSt h h.popMbout) (.iteSt h.draw (Kept.ite h h.onRgn))) (Kept.ite h h.onRgn))

theorem Kept.after {o} (h : Kept τ s₀ s) (ho : KeptOut τ s₀ o) : Kept τ s₀ (after o s) := by
  cases o with
  | next t => exact ho
  | fault _ => exact h
  | refused _ => exact h

theorem Kept.ifBit {v i f} (h : Kept τ s₀ s) (hf : ∀ t, Kept τ s₀ t → Kept τ s₀ (f t)) : Kept τ s₀ (ifBit v i f s) :=
  Kept.ite (hf _ h) h

theorem Kept.storeHub {a v} (h : Kept τ s₀ s) : Kept τ s₀ (storeHub s a v) := by
  unfold Machine.storeHub
  split
  · exact h.setReg
  · exact h

theorem Kept.storeRgn {rg a v} (h : Kept τ s₀ s) : Kept τ s₀ (storeRgn s rg a v) := by
  unfold Machine.storeRgn
  split
  · exact h.onRgn
  · exact h

theorem Kept.writePeriph {a v w pin} (h : Kept τ s₀ s) : Kept τ s₀ (writePeriph s a v w pin) :=
  Kept.ite h.storeHub h.gpioDenied

theorem Kept.writeGpio {a v w} (h : Kept τ s₀ s) : Kept τ s₀ (writeGpio s a v w) := by
  unfold Machine.writeGpio
  refine .ite h.writeFunc (.ite h.writeOut (.ite h.writeOut (.ite h.writeDir (.ite ?_ (.ite h.writeUart (.ite h.writePeriph
    (.ite h.writeSpi (.ite h.writePeriph (.ite h.writePeriph (.ite h.writePeriph (.ite h.writePeriph h.storeHub)))))))))))
  cases w with
  | i3c => exact h.storeHub
  | debug => exact h.storeHub
  | _ => exact h

theorem Kept.writePwr {a v} (h : Kept τ s₀ s) : Kept τ s₀ (writePwr s a v) := by
  have h1 : Kept τ s₀ (Machine.storeHub s a v) := h.storeHub
  unfold Machine.writePwr
  refine .ite (.ifBit (.ifBit (.ifBit h1 fun _ h => h.after h.execEnterState) fun _ h => h.after h.execWake) fun _ h => h.after h.execShutdown)
    (.ite ?_ h1)
  dsimp only
  split
  · exact h1.after h1.execQuadReset
  · exact h1.after h1.execQuadDoze
  · exact h1.after h1.execQuadDormant
  · exact h1.after h1.execQuadWake
  · exact h1

theorem Kept.writeScr {a v} (h : Kept τ s₀ s) : Kept τ s₀ (writeScr s a v) :=
  Kept.of (fun h1 => Kept.ite (h1.foldl (fun _ _ h3 => h3.onRgn)) h1) h.storeHub

theorem Kept.gateIsolated (h : Kept τ s₀ s) : Kept τ s₀ (gateIsolated s) :=
  Kept.ite h (h.foldl (fun _ _ h2 => Kept.ite h2.gateRegion h2))

theorem Kept.writeFlt {a v w} (h : Kept τ s₀ s) : Kept τ s₀ (writeFlt s a v w) :=
  have h1 : Kept τ s₀ (Machine.storeHub s a v) := h.storeHub
  .ite (.ifBit (.ifBit h1 fun _ h => h.after h.execBistGo) fun _ h => h.after h.execBistAbort)
    (.ite (.ifBit h1 fun _ h => h.after h.execRepairClear) (.ite h1.gateIsolated (.ite (h1.after h1.execTaintClear) h1)))

theorem Kept.writeMer {a v} (h : Kept false s₀ s) : Kept false s₀ (writeMer s a v) :=
  .ite h.storeHub.changeSrc (.ite (.ifBit (.ifBit (.ifBit h.storeHub fun _ h => h.after h.execHold) fun _ h => h.after h.execResume)
    fun _ h => h.after h.execRearm) h.storeHub)

theorem Kept.writeSecret {a v w} (h : Kept τ s₀ s) : Kept τ s₀ (writeSecret s a v w) := by
  have h1 : Kept τ s₀ (Machine.storeHub s a v) := h.storeHub
  unfold Machine.writeSecret
  refine .ite h.setReg (.ite h1 (.ite ?_ (.ite ?_ h1)))
  · split
    · exact h1.after h1.execUnwrap
    · exact h1.after h1.execKeyErase
    · exact h1.after h1.execKeyEraseAll
    · exact h1
  · split
    · exact h1.after h1.execProgram
    · exact h1.after h1.execRevoke
    · exact h1

theorem Kept.writeCfg {a v w} (h : Kept τ s₀ s) : Kept τ s₀ (writeCfg s a v w) := by
  have h1 : Kept τ s₀ (Machine.storeHub s a v) := h.storeHub
  unfold Machine.writeCfg
  refine .ite (.ite h.writeSecret h) (.ite (h.after h.execCfgFifo) (.ite (h.after h.execStartCmd) (.ite
    (Kept.doneReleased (.ifBit h1 fun _ h => h.after h.execAbort)) (.ite ?_ (.ite (.ifBit h1 fun _ h => h.after h.execRtcAbort)
      (.ite (.ifBit h1 fun _ h => h.after h.execReadback) h1))))))
  split
  · exact h1.after h1.execGroundLoad
  · exact h1.after h1.execGroundWrite
  · exact h1.after h1.execGroundErase
  · exact h1

theorem Kept.writeLnk {p a v} (h : Kept false s₀ s) : Kept false s₀ (writeLnk s p a v) :=
  .ite (.ifBit (h.storeHub.after h.storeHub.execLnkEn) fun _ h => h.after h.execLnkRetrain) (.ite h.onPort
    (.ite (.ifBit (.ifBit h.storeHub fun _ h => h.after h.execSlotCopy) fun _ h => h.after h.execSlotSwap) h.storeHub))

theorem Kept.writeFab {a v} (h : Kept τ s₀ s) : Kept τ s₀ (writeFab s a v) :=
  .ite (.ifBit (.ifBit h.storeHub.considerSelf fun _ h => h.after h.execSweep) fun _ h => h.after h.execFabricResetCmd)
    (.ite h.storeHub.setF h.storeHub)

theorem Kept.writeSem {a v w} (h : Kept τ s₀ s) : Kept τ s₀ (writeSem s a v w) :=
  Kept.ite (h.ifBit (fun _ h2 => h2.releaseSem)) h.storeHub

theorem Kept.writeHif {a v} (h : Kept τ s₀ s) : Kept τ s₀ (writeHif s a v) := by
  unfold Machine.writeHif
  exact h.storeHub.other

theorem Kept.writeHub {a v w} (h : Kept false s₀ s) : Kept false s₀ (writeHub s a v w) := by
  unfold Machine.writeHub
  split
  · exact h.writeHif
  · exact h.writeGpio
  · exact h.writePwr
  · exact h.writeFlt
  · exact h.writeFlt
  · exact h.writeMer
  · exact h.writeCfg
  · exact h.writeCfg
  · exact h.writeScr
  · exact h.writeLnk
  · exact h.writeLnk
  · exact h.writeLnk
  · exact h.writeLnk
  · exact h.writeLnk
  · exact h.writeLnk
  · exact h.writeFab
  · exact h.writeSem
  · exact h
  · exact h.storeHub

theorem Kept.writeRwd {rg a v} (h : Kept τ s₀ s) : Kept τ s₀ (writeRwd s rg a v) :=
  .ite (h.after h.storeRgn.execRecEn) (.ite h (.ite (.ifBit (.ifBit (.ifBit h.storeRgn fun _ h => h.after h.execRewind)
    fun _ h => h.after h.execRwdRelease) fun _ h => h.after h.execReplayArm) h.storeRgn))

theorem Kept.writeCnv {rg a v} (h : Kept τ s₀ s) : Kept τ s₀ (writeCnv s rg a v) :=
  .ite (.ifBit h.storeRgn fun _ h => h.after h.execFightClear) (.ite (Kept.after h.draw (Kept.execFioDly h.draw)) h.storeRgn)

theorem Kept.writeNoc {rg a v} (h : Kept τ s₀ s) : Kept τ s₀ (writeNoc s rg a v) :=
  .ite (.ifBit (.ifBit h.storeRgn fun _ h => h.after h.execOvrCopy) fun _ h => h.after h.execOvrSwap)
    (.ite (.ifBit h.storeRgn fun _ h => h.trainD2d) h.storeRgn)

theorem Kept.writeEas {rg k o v w} (h : Kept τ s₀ s) : Kept τ s₀ (writeEas s rg k o v w) := by
  unfold Machine.writeEas
  split
  · exact .ifBit (.ifBit (.ifBit (h.setRf.after h.setRf.execHoldRst) fun _ h => h.after h.execCoreReset) fun _ h => h.after h.execMbinFlush)
      fun _ h => h.after h.execMboutFlush
  · exact h.after h.execEasWdog
  · exact h.after h.execMbinFirst
  · exact h.after h.execMbinNext
  · exact .ite (h.after h.execPatchWrite) h.storeRgn

theorem Kept.writeRgn {rg a v w} (h : Kept τ s₀ s) : Kept τ s₀ (writeRgn s rg a v w) := by
  unfold Machine.writeRgn
  refine .ite (.ifBit (.ifBit (.ifBit h.storeRgn fun _ h => h.after h.execRegionReset) fun _ h => h.after h.execIsolate)
    fun _ h => h.after h.execRelease) (.ite (.ifBit h.storeRgn fun _ h => h.after h.execMinRestart) ?_)
  split
  · exact h.writeRwd
  · exact h.writeCnv
  · exact h.writeNoc
  · split
    · exact h.writeEas
    · exact h.writeEas
    · exact h.writeEas
    · exact h
  · exact h.storeRgn

theorem Kept.writePlace {x v w} (h : Kept false s₀ s) : Kept false s₀ (writePlace s x v w) := by
  unfold Machine.writePlace
  split
  · exact h.writeHub
  · exact h.writeRgn
  · exact h

theorem Kept.writePalette {rg c e source v} (h : Kept τ s₀ s) : Kept τ s₀ (writePalette s rg c e source v) :=
  h.onCl.logInject

theorem Kept.easWrite {rg k a n v} (h : Kept τ s₀ s) : Kept τ s₀ (easWrite s rg k a n v) :=
  h.onEas

theorem Kept.portWrite {rg src a be v e} (h : Kept τ s₀ s) : Kept τ s₀ (portWrite s rg src a be v e) :=
  (Kept.ite h.draw h).backWrite

theorem Kept.portReads {rg src ring n a e} (h : Kept τ s₀ s) : Kept τ s₀ (portReads rg src ring n s a e).1 := by
  induction n generalizing s a e with
  | zero => exact h
  | succ n ih =>
    rw [Machine.portReads]
    exact ih h.backRead

theorem Kept.portWrites {rg src l a e} (h : Kept τ s₀ s) : Kept τ s₀ (portWrites rg src l s a e) := by
  induction l generalizing s a e with
  | nil => exact h
  | cons v t ih => exact ih h.portWrite

theorem Kept.sramWrites {l a} (h : Kept τ s₀ s) : Kept τ s₀ (sramWrites l s a) := by
  induction l generalizing s a with
  | nil => exact h
  | cons v t ih => exact ih (h.withSram fun hm => Mem.wf_write _ _ _ hm)

theorem Kept.writeEnd {x v w} (h : Kept false s₀ s) : Kept false s₀ (writeEnd s x v w).st :=
  h.writePlace

theorem Kept.busWaits {b} (h : Kept τ s₀ s) : Kept τ s₀ (busWaits s b) := by
  unfold Machine.busWaits
  split
  · rename_i rg a _
    have h1 : KeptIf τ s₀ (Machine.ringGiven s b.who rg a) := h.ringGiven
    refine .ite h ?_
    cases hr : Machine.ringGiven s b.who rg a with
    | none => exact h
    | some t => rw [hr] at h1; exact h1
  · exact h

theorem Kept.debugPalette {b c} (h : Kept τ s₀ s) : Kept τ s₀ (debugPalette s b c).st := by
  unfold Machine.debugPalette
  dsimp only
  split
  · exact h
  · split
    · exact h
    · split
      · exact h
      · exact by split; exact h; exact h.writePalette

theorem Kept.debugEasel {b k} (h : Kept τ s₀ s) : Kept τ s₀ (debugEasel s b k).st := by
  unfold Machine.debugEasel
  dsimp only
  split
  · exact h
  · split
    · exact h
    · exact by split; exact h; exact h.easWrite

theorem Kept.dbgErr {code} (h : Kept τ s₀ s) : Kept τ s₀ (s.dbgErr code) :=
  Kept.ite h.setF h

theorem Kept.endI3c {b how data last} (h : Kept τ s₀ s) : Kept τ s₀ (endI3c s b how data last) := by
  unfold Machine.endI3c
  exact Kept.of (fun h1 => Kept.ite h1.setF.setF h1) h.other

theorem Kept.endDebug {b how data} (h : Kept τ s₀ s) : Kept τ s₀ (endDebug s b how data) := by
  unfold Machine.endDebug
  exact Kept.of (fun h1 => Kept.of (fun h2 => Kept.ite h2.setReg.setReg h2) (Kept.ite h1 h1.dbgErr)) (Kept.ite h.other h)

theorem Kept.endAccessOf {b rest how data} (h : Kept τ s₀ s) : Kept τ s₀ (endAccessOf s b rest how data) := by
  unfold Machine.endAccessOf
  split
  · exact h.endI3c
  · exact h.endDebug
  · exact h

theorem Kept.debugMemory {b ring} (h : Kept τ s₀ s) : KeptIf τ s₀ ((debugMemory s b ring).map BusDone.st) := by
  have hw : ∀ {dm a e x y}, KeptIf τ s₀ ((Machine.debugPort s b.rg dm (fun s => (Machine.portWrite s b.rg 7 a e x y, ()))).map Prod.fst) :=
    h.debugPort fun _ h => h.portWrite
  have hr : ∀ {dm r a e}, KeptIf τ s₀ ((Machine.debugPort s b.rg dm (fun s => Machine.backRead s b.rg 7 r a e)).map Prod.fst) :=
    h.debugPort fun _ h => h.backRead
  unfold Machine.debugMemory
  extract_lets a
  generalize (if ring then 0x200000 else 0x400000) = n
  split
  · exact h
  cases b.write with
  | some v =>
    dsimp only
    split
    · exact h
    · rw [Option.map_map]
      exact hw
  | none =>
    dsimp only
    rw [Option.map_map]
    generalize hx : Machine.debugPort _ _ _ _ = x
    cases x with
    | none => trivial
    | some y =>
      have h1 : Kept τ s₀ y.1 := by
        have := hx ▸ hr (dm := !ring) (r := ring) (a := a / 8) (e := b.ecc)
        exact this
      obtain ⟨t, _ | v⟩ := y
      · exact h1
      · exact h1

theorem Kept.busRegister {b} (h : Kept false s₀ s) : KeptIf false s₀ ((busRegister s b).map BusDone.st) := by
  have hend : ∀ {x v}, Kept false s₀ (Machine.writeEnd s x v b.who).st := h.writeEnd
  have hrun : ∀ {m a}, Kept false s₀ (Machine.readHub s m a).st := h.readHub
  have hrgn : ∀ {m rg a}, Kept false s₀ (Machine.readRgn s m rg a).st := h.readRgn
  unfold Machine.busRegister
  extract_lets x
  cases x with
  | unmapped => exact h
  | hub a => cases b.write with
    | some v => exact hend
    | none => exact hrun
  | window rg a =>
    dsimp only
    split
    · trivial
    · cases b.write with
      | some v => exact hend
      | none =>
        dsimp only
        split
        · trivial
        · exact hrgn

theorem Kept.busUnit {b} (h : Kept τ s₀ s) : KeptIf τ s₀ ((busUnit s b).map BusDone.st) := by
  unfold Machine.busUnit
  generalize b.unit = u
  dsimp only
  split
  · exact h
  split
  · split
    · exact h
    · cases b.write with
      | none => exact h
      | some v => exact h.withSram fun hm => Mem.wf_write _ _ _ hm
  split
  · exact h
  split
  · trivial
  split
  · exact Kept.debugPalette h
  split
  · exact Kept.debugEasel h
  · exact Kept.debugEasel h
  · exact Kept.debugEasel h
  · exact h.debugMemory
  · exact h.debugMemory

theorem Kept.busTry {b} (h : Kept false s₀ s) : KeptIf false s₀ ((busTry s b).map BusDone.st) := by
  unfold Machine.busTry
  split
  · trivial
  split
  · exact h
  split
  · exact h.busUnit
  split
  · exact h
  · exact h.busRegister

theorem Kept.runBus {l} (h : Kept false s₀ s) : Kept false s₀ (runBus l s) := by
  induction l generalizing s with
  | nil =>
    rw [Machine.runBus]
    exact h.other
  | cons b t ih =>
    have h1 : Kept false s₀ { s with bus := t } := h.other
    have h2 : KeptIf false s₀ ((Machine.busTry { s with bus := t } b).map BusDone.st) := h1.busTry
    rw [Machine.runBus]
    cases hd : Machine.busTry { s with bus := t } b with
    | none => exact h.busWaits.other
    | some d =>
      rw [hd] at h2
      exact ih (Kept.endAccessOf h2)

theorem Kept.putBus {l} (h : Kept false s₀ s) : Kept false s₀ (putBus s l) := by
  unfold Machine.putBus
  exact Kept.ite h.runBus h.other

theorem Kept.busTurn {p} (h : Kept τ s₀ s) : KeptIf τ s₀ (busTurn s p) := by
  unfold Machine.busTurn
  split
  · exact h
  · exact KeptIf.ite h.other trivial

theorem Kept.busPlace {p} (h : Kept τ s₀ s) : Kept τ s₀ (busPlace s p) := by
  unfold Machine.busPlace
  exact Kept.ite h h.other

theorem Kept.execHelmBusAccess (h : Kept false s₀ s) : KeptOut false s₀ (execHelmBusAccess s) :=
  h.runBus

theorem Kept.busLeaves {b} (h : Kept τ s₀ s) : Kept τ s₀ (busLeaves s b) := by
  unfold Machine.busLeaves
  split
  · exact Kept.ite h h.onRgn
  · exact h

theorem Kept.execBusWatchdog (h : Kept false s₀ s) : KeptOut false s₀ (execBusWatchdog s) := by
  unfold Machine.execBusWatchdog
  split
  · exact h
  · exact Kept.ite h h.setF.setReg.bump.noteFault.busLeaves.other.endAccessOf.runBus

theorem Kept.beginI3c (h : Kept τ s₀ s) : Kept τ s₀ (beginI3c s) := by
  unfold Machine.beginI3c
  exact h.other

theorem Kept.protocolError (h : Kept τ s₀ s) : Kept τ s₀ (protocolError s) := by
  unfold Machine.protocolError
  exact h.bump.other

theorem Kept.malformed (h : Kept τ s₀ s) : Kept τ s₀ (malformed s) :=
  h.setF.setF.protocolError

theorem Kept.execRegisterWrite {addr v by_} (h : Kept false s₀ s) : KeptOut false s₀ (execRegisterWrite addr v by_ s) := by
  have hput : ∀ l, Kept false s₀ (Machine.putBus s l) := fun _ => h.putBus
  have hi3c : ∀ l, Kept false s₀ (Machine.putBus (Machine.beginI3c s) l) := fun _ => h.beginI3c.putBus
  unfold Machine.execRegisterWrite
  dsimp only
  split
  · exact Kept.ite h (.ite h.bump h.malformed)
  cases by_ with
  | oxdon n =>
    dsimp only
    split
    · exact Kept.ite h (hput _)
    · exact Kept.ite h h.writeRgn
    · exact h
  | i3c => exact Kept.ite h.bump (hi3c _)
  | debug => exact hput _
  | _ => exact hput _

theorem Kept.acked {a} (h : Kept τ s₀ s) : Kept τ s₀ (s.acked a) := by
  unfold State.acked
  exact h.other

theorem Kept.driven {v} (h : Kept τ s₀ s) : Kept τ s₀ (s.driven v) := by
  unfold State.driven
  exact h.other

theorem Kept.dbgState (h : Kept τ s₀ s) : Kept τ s₀ s.dbgState :=
  h.dbgErr

theorem Kept.onSel {f} (h : Kept τ s₀ s) (hf : ∀ t rg k, Kept τ s₀ t → Kept τ s₀ (f t rg k)) : Kept τ s₀ (s.onSel f) := by
  unfold State.onSel
  split
  · exact hf _ _ _ h
  · exact h.dbgState

theorem Kept.onCoreDbg {rg k f} (h : Kept τ s₀ s) : Kept τ s₀ (s.onCoreDbg rg k f) :=
  h.onEas

theorem Kept.haltSel {rg k} (h : Kept τ s₀ s) : Kept τ s₀ (haltSel s rg k) := by
  unfold Machine.haltSel
  dsimp only
  split
  · exact h
  · split
    · exact h.dbgState
    · split
      · exact h.dbgState
      · exact h.onCoreDbg
      · exact h.setRf.haltCore
      · exact Kept.ite h.onCoreDbg h.haltCore

theorem Kept.resumeCore {rg k step} (h : Kept τ s₀ s) : Kept τ s₀ (resumeCore s rg k step) :=
  h.setRf.onRgn

theorem Kept.dropFeed {rg k} (h : Kept τ s₀ s) : Kept τ s₀ (dropFeed s rg k) := by
  unfold Machine.dropFeed
  split
  · exact Kept.ite h.other.dbgErr h
  · exact h

theorem Kept.resumeSel {step rg k} (h : Kept τ s₀ s) : Kept τ s₀ (resumeSel step s rg k) :=
  Kept.ite h.dropFeed.resumeCore h.dbgState

theorem Kept.claimUnit {rg k u} (h : Kept τ s₀ s) : Kept τ s₀ (claimUnit s rg k u) :=
  Kept.ite h h.onCoreDbg.setRf

theorem Kept.restoreUnit {rg k u} (h : Kept τ s₀ s) : Kept τ s₀ (restoreUnit s rg k u) :=
  Kept.ite h h.onCoreDbg.onRgn

theorem Kept.claimUnits {mask rg k} (h : Kept τ s₀ s) : Kept τ s₀ (claimUnits mask s rg k) :=
  h.foldl (fun _ _ h1 => Kept.ite h1.claimUnit h1.restoreUnit)

theorem Kept.setCoreVal {rg k i v} (h : Kept τ s₀ s) : Kept τ s₀ (setCoreVal s rg k i v) :=
  h.onEas

theorem Kept.performs {op ecc undoNs rg k w} (h : Kept τ s₀ s) : (performs op ecc undoNs rg k s w).Keeps τ s₀ := by
  unfold Machine.performs
  split
  · exact h.onCore
  · exact h.onCore
  · exact h.onCore
  · exact h.onCore
  · exact h.onCore
  · exact h.onCore
  · exact h.onCore
  · exact h.onCore
  · exact h.onCore
  · exact h.onCore
  · exact h.onCore
  · exact h.onCore
  · exact h.onCore
  · exact h.onCore
  · exact h.onCore
  · exact h.onCore
  · exact h.runMvs
  · exact h.onCore
  · exact h.runMul
  · exact h.runMacld
  · exact h.onCore
  · exact h.onCore
  · exact h.runLoad
  · exact h.runStore
  · exact h.runLoad
  · exact h.runStore
  · exact h.runPal
  · exact h.runBpa
  · exact h.runMbrd
  · exact h.runMbwr
  · exact h.runBr
  · exact h.runCall
  · exact h.runRet
  · exact h.runReti
  · exact h.runRelfix
  · exact h.runKick
  · exact h.runPkt
  · exact h

theorem Kept.feedFails {rg k cause} (h : Kept τ s₀ s) : Kept τ s₀ (feedFails s rg k cause) :=
  h.onCoreDbg.dbgErr

theorem Kept.tryFeed {rg k w ecc} (h : Kept τ s₀ s) : Kept τ s₀ (tryFeed s rg k w ecc) := by
  unfold Machine.tryFeed
  extract_lets op e wait d s1
  have hwait : ∀ t, Kept τ s₀ t → Kept τ s₀ (wait t) := fun t ht => ht.other
  have h1 : Kept τ s₀ s1 := h.other
  refine .ite h1.dbgErr (.ite (hwait _ h1) (.ite h1.dbgErr (.ite h1.feedFails (.ite h1.feedFails ?_))))
  have h2 : ∀ ns, (Machine.performs op ecc ns rg k (s1.draw 32).2 w).Keeps τ s₀ := fun ns => h1.draw.performs
  generalize s1.draw 32 = x at h2 ⊢
  obtain ⟨ns, s'⟩ := x
  specialize h2 ns
  dsimp only at h2 ⊢
  cases hd : Machine.performs op ecc ns rg k s' w with
  | trap _ c => exact h1.feedFails
  | stall t =>
    rw [hd] at h2
    exact hwait _ (Kept.stallMore h2).onEas
  | stop t =>
    rw [hd] at h2
    exact h2
  | done t next =>
    rw [hd] at h2
    exact (Kept.countStalls h2).onEas.bumpR.tryBegin

theorem Kept.retryFeed (h : Kept τ s₀ s) : Kept τ s₀ (retryFeed s) := by
  unfold Machine.retryFeed
  split
  · exact h.tryFeed
  · exact h

theorem Kept.feedSel {w ecc rg k} (h : Kept τ s₀ s) : Kept τ s₀ (feedSel w ecc s rg k) :=
  Kept.ite h.onCoreDbg.tryFeed h.dbgState

theorem Kept.startAccess {write ecc} (h : Kept false s₀ s) : Kept false s₀ (startAccess s write ecc) :=
  h.putBus

theorem Kept.dataWrite {v ecc} (h : Kept false s₀ s) : Kept false s₀ (dataWrite s v ecc) :=
  h.setReg.startAccess

theorem Kept.dataRead {ecc} (h : Kept false s₀ s) : Kept false s₀ (dataRead s ecc) := by
  unfold Machine.dataRead
  split
  · exact h.startAccess.acked
  · exact Kept.of (fun h1 => Kept.of (fun h3 => Kept.ite h3.startAccess h3) ((Kept.ite h1.setReg h1).other.driven)) h.setReg

theorem Kept.endSession (h : Kept τ s₀ s) : Kept τ s₀ (endSession s) := by
  unfold Machine.endSession
  exact ((h.setF.other.foldl (fun _ _ h3 => h3.foldl (fun _ _ h4 => Kept.of (fun h5 => Kept.of (fun h6 => Kept.ite h6.onCoreDbg h6) (Kept.ite h5.resumeCore h5)) h4.claimUnits))).foldl (fun _ _ h8 => Kept.ite h8.breakSem h8)).endEmulation

theorem Kept.writeSession {v} (h : Kept τ s₀ s) : Kept τ s₀ (writeSession s v) :=
  Kept.of (fun h1 => Kept.ite h1.endSession h1) h.setF.setF

theorem Kept.enterTest {mode} (h : Kept τ s₀ s) : Kept τ s₀ (enterTest s mode) := by
  unfold Machine.enterTest
  exact h.other.foldl (fun _ _ h2 => h2.isolate)

theorem Kept.writePriv {v} (h : Kept τ s₀ s) : Kept τ s₀ (writePriv s v) := by
  unfold Machine.writePriv
  exact Kept.of (fun h2 => Kept.ite h2 (Kept.ite (Kept.ite h2.enterTest h2.dbgErr) (Kept.ite h2.dbgErr (Kept.ite h2.other (Kept.ite h2.dbgErr h2))))) h.setF.other

theorem Kept.clearStores (h : Kept τ s₀ s) : Kept τ s₀ (clearStores s) := by
  unfold Machine.clearStores
  have h1 : Kept τ s₀ { s with sram := [], library := [] } := (h.withSram (m := []) fun _ => rfl).withLibrary fun _ => rfl
  exact (Kept.foldS (Kept.other h1) fun _ _ h => h.onRgn).setF.setF

theorem Kept.writeCoreCtrl {v} (h : Kept τ s₀ s) : Kept τ s₀ (writeCoreCtrl s v) :=
  h.onSel (fun _ _ _ h1 => Kept.of (fun h3 => Kept.of (fun h4 => Kept.of (fun h5 => Kept.ite h5.resumeSel h5) (Kept.ite h4.resumeSel h4)) (Kept.ite h3.haltSel h3)) h1.onCoreDbg.claimUnits)

theorem Kept.readStatus (h : Kept τ s₀ s) : Kept τ s₀ (readStatus s).2 :=
  Kept.ite h.setF h

theorem Kept.readPort {x} (h : Kept τ s₀ s) : Kept τ s₀ (readPort s x).2 := by
  unfold Machine.readPort
  split
  case h_6 =>
    split
    · exact h.dbgState
    · exact .iteSnd h h.dbgState
  case h_2 => exact h.readStatus
  all_goals exact h

theorem Kept.writePort {t v ecc} (h : Kept false s₀ s) : Kept false s₀ (writePort s t v ecc) := by
  unfold Machine.writePort
  split
  · exact h.writeSession
  · exact Kept.ite h.setF h
  · exact h.dataWrite
  · exact h.writeCoreCtrl
  · exact h.onSel (fun _ _ _ h1 => h1.feedSel)
  · exact h.onSel (fun _ _ _ h2 => Kept.ite h2.setCoreVal h2.dbgState)
  · exact h.writePriv
  · exact h
  · exact h
  · exact h.storeHub

theorem Kept.request {t write bad ecc} (h : Kept false s₀ s) : Kept false s₀ (request s t write bad ecc) := by
  unfold Machine.request
  split
  · exact h
  · refine Kept.of (fun h1 => ?_) h.retryFeed
    dsimp only
    split
    · exact (Kept.ite h1 h1.dbgState).acked
    · split
      · exact h1.acked
      · split
        · exact Kept.ite h1.dbgErr.acked h1.writePort.acked
        · exact Kept.ite h1.dataRead h1.readPort.driven

theorem Kept.unanswered (h : Kept τ s₀ s) : Kept τ s₀ (unanswered s) := by
  unfold Machine.unanswered
  exact h.bump.other

theorem Kept.freeEcc (h : Kept τ s₀ s) : Kept τ s₀ (freeEcc s).2 :=
  h.draw

theorem Kept.execWakeSequence (h : Kept τ s₀ s) : KeptOut τ s₀ (execWakeSequence s) := by
  unfold Machine.execWakeSequence
  exact Kept.ite h.other h

theorem Kept.execTwdRequest {hdr data par} (h : Kept false s₀ s) : KeptOut false s₀ (execTwdRequest hdr data par s) := by
  unfold Machine.execTwdRequest
  exact Kept.ite h (Kept.ite (Kept.ite h.other h) (Kept.ite h (Kept.ite h.unanswered h.freeEcc.request)))

theorem Kept.named {t write ecc} (h : Kept false s₀ s) : Kept false s₀ (named s t write ecc) :=
  Kept.ite h (Kept.ite h.unanswered h.request)

theorem Kept.execAttach {v} (h : Kept false s₀ s) : KeptOut false s₀ (execAttach v s) :=
  h.named

theorem Kept.execSessionIdle (h : Kept τ s₀ s) : KeptOut τ s₀ (execSessionIdle s) :=
  Kept.ite h.endSession h

theorem Kept.execDbgDataWrite {v ecc} (h : Kept false s₀ s) : KeptOut false s₀ (execDbgDataWrite v ecc s) :=
  h.named

theorem Kept.execDbgDataRead {ecc} (h : Kept false s₀ s) : KeptOut false s₀ (execDbgDataRead ecc s) :=
  h.named

theorem Kept.execErrClr (h : Kept false s₀ s) : KeptOut false s₀ (execErrClr s) :=
  h.named

theorem Kept.execHalt (h : Kept false s₀ s) : KeptOut false s₀ (execHalt s) :=
  h.named

theorem Kept.execCoreResume (h : Kept false s₀ s) : KeptOut false s₀ (execCoreResume s) :=
  h.named

theorem Kept.execStep_ (h : Kept false s₀ s) : KeptOut false s₀ (execStep_ s) :=
  h.named

theorem Kept.execClaim {mask} (h : Kept false s₀ s) : KeptOut false s₀ (execClaim mask s) :=
  h.named

theorem Kept.execCoreVal {wr} (h : Kept false s₀ s) : KeptOut false s₀ (execCoreVal wr s) :=
  h.named

theorem Kept.execFeed {insn ecc} (h : Kept false s₀ s) : KeptOut false s₀ (execFeed insn ecc s) :=
  h.named

theorem Kept.execPrivArm {mode arm} (h : Kept false s₀ s) : KeptOut false s₀ (execPrivArm mode arm s) :=
  h.named

theorem Kept.execPrivGo {mode arm since} (h : Kept false s₀ s) : KeptOut false s₀ (execPrivGo mode arm since s) := by
  unfold Machine.execPrivGo
  exact (Kept.ite h.other h).named

theorem Kept.execTestEntryDone (h : Kept τ s₀ s) : KeptOut τ s₀ (execTestEntryDone s) :=
  Kept.ite h.clearStores h

theorem Kept.sendI3c {l} (h : Kept τ s₀ s) : Kept τ s₀ (sendI3c s l) := by
  unfold Machine.sendI3c
  exact h.other

theorem Kept.setDa {da} (h : Kept τ s₀ s) : Kept τ s₀ (setDa s da) := by
  unfold Machine.setDa
  exact h.setF.setF.other

theorem Kept.execEnec {int hj} (h : Kept τ s₀ s) : KeptOut τ s₀ (execEnec int hj s) :=
  Kept.ite h (Kept.of (fun h2 => Kept.ite h2.setF h2) (Kept.ite h.setF h))

theorem Kept.execDisec {int hj} (h : Kept τ s₀ s) : KeptOut τ s₀ (execDisec int hj s) := by
  unfold Machine.execDisec
  exact Kept.ite h (Kept.of (fun h4 => Kept.ite h4.setF.other h4) (Kept.ite h.setF h))

theorem Kept.execEntas0 (h : Kept τ s₀ s) : KeptOut τ s₀ (execEntas0 s) :=
  h

theorem Kept.execEntas1 (h : Kept τ s₀ s) : KeptOut τ s₀ (execEntas1 s) :=
  h

theorem Kept.execEntas2 (h : Kept τ s₀ s) : KeptOut τ s₀ (execEntas2 s) :=
  h

theorem Kept.execEntas3 (h : Kept τ s₀ s) : KeptOut τ s₀ (execEntas3 s) :=
  h

theorem Kept.execRstdaa (h : Kept τ s₀ s) : KeptOut τ s₀ (execRstdaa s) :=
  Kept.ite h h.setF.setF

theorem Kept.execEntdaa {da} (h : Kept τ s₀ s) : KeptOut τ s₀ (execEntdaa da s) :=
  Kept.ite h h.sendI3c.setDa

theorem Kept.execSetmwl {n} (h : Kept τ s₀ s) : KeptOut τ s₀ (execSetmwl n s) := by
  unfold Machine.execSetmwl
  exact Kept.ite h h.other

theorem Kept.execSetmrl {n} (h : Kept τ s₀ s) : KeptOut τ s₀ (execSetmrl n s) := by
  unfold Machine.execSetmrl
  exact Kept.ite h h.other

theorem Kept.execEnthdr0 (h : Kept τ s₀ s) : KeptOut τ s₀ (execEnthdr0 s) := by
  unfold Machine.execEnthdr0
  exact Kept.ite h (Kept.ite h.setF h.other)

theorem Kept.execRstact {b} (h : Kept τ s₀ s) : KeptOut τ s₀ (execRstact b s) := by
  unfold Machine.execRstact
  exact Kept.ite h (Kept.ite h.other.setF.setF.setF.setF (Kept.ite h.requestPackageReset h))

theorem Kept.execSetdasa {static_ da} (h : Kept τ s₀ s) : KeptOut τ s₀ (execSetdasa static_ da s) :=
  Kept.ite h h.setDa

theorem Kept.execSetnewda {da} (h : Kept τ s₀ s) : KeptOut τ s₀ (execSetnewda da s) :=
  Kept.ite h.setDa h

theorem Kept.execGetmwl (h : Kept τ s₀ s) : KeptOut τ s₀ (execGetmwl s) :=
  Kept.ite h.sendI3c h

theorem Kept.execGetmrl (h : Kept τ s₀ s) : KeptOut τ s₀ (execGetmrl s) :=
  Kept.ite h.sendI3c h

theorem Kept.execGetpid (h : Kept τ s₀ s) : KeptOut τ s₀ (execGetpid s) :=
  Kept.ite h.sendI3c h

theorem Kept.execGetbcr (h : Kept τ s₀ s) : KeptOut τ s₀ (execGetbcr s) :=
  Kept.ite h.sendI3c h

theorem Kept.execGetdcr (h : Kept τ s₀ s) : KeptOut τ s₀ (execGetdcr s) :=
  Kept.ite h.sendI3c h

theorem Kept.execGetstatus (h : Kept τ s₀ s) : KeptOut τ s₀ (execGetstatus s) := by
  unfold Machine.execGetstatus
  exact Kept.ite h h.other.sendI3c

theorem Kept.execGetmxds (h : Kept τ s₀ s) : KeptOut τ s₀ (execGetmxds s) :=
  Kept.ite h.sendI3c h

theorem Kept.privateHeader {f} (h : Kept τ s₀ s) (hf : ∀ t, Kept τ s₀ t → Kept τ s₀ (f t)) : Kept τ s₀ (privateHeader s f) :=
  Kept.ite h (Kept.ite h.bump (hf _ h))

theorem Kept.execStatus (h : Kept τ s₀ s) : KeptOut τ s₀ (execStatus s) :=
  h.privateHeader (fun _ h1 => h1.sendI3c)

theorem Kept.writeTransfer {bytes op} (h : Kept false s₀ s) : Kept false s₀ (writeTransfer s bytes op) :=
  h.privateHeader (fun _ h1 => Kept.ite h1.malformed h1.beginI3c.putBus)

theorem Kept.execI3cWrite {bytes} (h : Kept false s₀ s) : KeptOut false s₀ (execI3cWrite bytes s) :=
  Kept.ite h h.writeTransfer

theorem Kept.execWriteFixed {bytes} (h : Kept false s₀ s) : KeptOut false s₀ (execWriteFixed bytes s) :=
  Kept.ite h h.writeTransfer

theorem Kept.readTransfer {bytes taken op} (h : Kept false s₀ s) : Kept false s₀ (readTransfer s bytes taken op) :=
  h.privateHeader (fun _ h1 => Kept.ite h1.malformed h1.beginI3c.putBus)

theorem Kept.readAfter {bytes taken op} (h : Kept false s₀ s) : Kept false s₀ (readAfter s bytes taken op) :=
  Kept.ite (h.privateHeader (fun _ h4 => h4.protocolError)) (Kept.ite (Kept.of (fun h5 => Kept.ite h5 h5.protocolError) h.writeTransfer) (Kept.ite h h.readTransfer))

theorem Kept.execI3cRead {bytes taken} (h : Kept false s₀ s) : KeptOut false s₀ (execI3cRead bytes taken s) :=
  h.readAfter

theorem Kept.execReadFixed {bytes taken} (h : Kept false s₀ s) : KeptOut false s₀ (execReadFixed bytes taken s) :=
  h.readAfter

theorem Kept.execHotJoin {ack} (h : Kept τ s₀ s) : KeptOut τ s₀ (execHotJoin ack s) := by
  unfold Machine.execHotJoin
  split
  · exact h
  · split
    · exact h.setDa
    · exact h

theorem Kept.execIbi {acked} (h : Kept τ s₀ s) : KeptOut τ s₀ (execIbi acked s) := by
  unfold Machine.execIbi
  split
  · exact h
  · split
    · exact h
    · exact h.other.bump.sendI3c

theorem Kept.execHdrExitPattern (h : Kept τ s₀ s) : KeptOut τ s₀ (execHdrExitPattern s) := by
  unfold Machine.execHdrExitPattern
  exact h.other.setF

theorem Kept.refuseServe {cause} (h : Kept τ s₀ s) : (Serve.refuse s cause).Keeps τ s₀ :=
  h

theorem Kept.noteOutside {p} (h : Kept τ s₀ s) : Kept τ s₀ (noteOutside s p) :=
  Kept.ite h.idleFails h

theorem Kept.freePort {p} (h : Kept τ s₀ s) : Kept τ s₀ (freePort s p) :=
  Kept.ite h.onRgn h

theorem Kept.finish {p x} (h : Kept τ s₀ s) (hx : x.Keeps τ s₀) : Kept τ s₀ (finish s p x) := by
  cases x with
  | wait t => exact hx
  | done t cause data =>
    have h1 : Kept τ s₀ { t with arrived := t.arrived.erase p } := Kept.other hx
    have h2 : Kept τ s₀ (if cause = 0 then { t with arrived := t.arrived.erase p } else Machine.freePort { t with arrived := t.arrived.erase p } p) :=
      .ite h1 h1.freePort
    rw [Machine.finish]
    generalize (if cause = 0 then { t with arrived := t.arrived.erase p } else Machine.freePort { t with arrived := t.arrived.erase p } p) = u at h2
    exact .ite (.ite h2 h2.countPostedAt) (.ite h2.pushNet h)

theorem Kept.serve {p own} (h : Kept τ s₀ s) (hown : ∀ t, Kept τ s₀ t → (own t).Keeps τ s₀) : Kept τ s₀ (serve s p own) := by
  have h1 : ∀ t, Kept τ s₀ t → Kept τ s₀ (Machine.freePort { t with arrived := t.arrived.erase p } p) := fun t ht => Kept.freePort ht.other
  unfold Machine.serve
  exact .ite h (.ite (h.refuseFrom h1) (h.finish (.ite h.noteOutside.refuseServe (.ite h.noteOutside.refuseServe (hown _ h.noteOutside)))))

theorem Kept.replayRefuses {rg} (h : Kept τ s₀ s) : KeptIf τ s₀ (replayRefuses s rg) :=
  KeptIf.ite h.bumpR trivial

theorem Kept.palRead {p rg c} (h : Kept τ s₀ s) : (palRead s p rg c).Keeps τ s₀ := by
  unfold Machine.palRead
  refine .ite h.refuseServe ?_
  split
  · next t ht => exact (h.replayRefuses.get ht).refuseServe
  · exact .ite h h.refuseServe

theorem Kept.easelRead {p rg k} (h : Kept τ s₀ s) : (easelRead s p rg k).Keeps τ s₀ := by
  unfold Machine.easelRead
  exact .ite h.refuseServe (.ite h.refuseServe h)

theorem Kept.portRead {p rg ring e} (h : Kept τ s₀ s) : (portRead s p rg ring e).Keeps τ s₀ := by
  have h1 : Kept τ s₀ (Machine.portGives s rg 3 (!ring) (fun s => Machine.portReads rg 3 ring (2 * p.len.toNat) s (p.addr.toNat / 8) e)).1 :=
    h.portGives fun _ h => h.portReads
  unfold Machine.portRead
  refine .ite h.refuseServe ?_
  split
  · next t ht => exact (h.replayRefuses.get ht).refuseServe
  · refine .ite h.refuseServe ?_
    generalize Machine.portGives s rg 3 (!ring) (fun s => Machine.portReads rg 3 ring (2 * p.len.toNat) s (p.addr.toNat / 8) e) = x at h1 ⊢
    obtain ⟨t, _ | _ | l⟩ := x
    · exact h1
    · exact h1.refuseServe
    · exact h1

theorem Kept.canvasRead {p rg} (h : Kept τ s₀ s) : (canvasRead s p rg).Keeps τ s₀ := by
  unfold Machine.canvasRead
  exact .ite (.ite h.refuseServe (.ite h.draw h)) (.ite (.ite h.refuseServe h) (.ite (.ite h.refuseServe (.ite h.refuseServe h)) h.refuseServe))

theorem Kept.answerReg {g : ReadBack} (h : Kept τ s₀ g.st) : (Machine.answerReg g).Keeps τ s₀ :=
  Serve.Keeps.ite h h.refuseServe

theorem Kept.hubRead {p a e} (h : Kept τ s₀ s) : (hubRead s p a e).Keeps τ s₀ := by
  unfold Machine.hubRead
  split
  · split
    · next t ht => exact Kept.answerReg (h.busTurn.get ht).readHub
    · exact h.busPlace
  · exact h.refuseServe

theorem Kept.readUnit {p e} (h : Kept τ s₀ s) : (readUnit s p e).Keeps τ s₀ := by
  unfold Machine.readUnit
  dsimp only
  generalize nodeUnit p.dest = u
  refine .ite h.palRead ?_
  split
  · exact h.easelRead
  · exact h.easelRead
  · exact h.easelRead
  · exact h.portRead
  · exact h.portRead
  · exact h.canvasRead
  · refine .ite h.refuseServe ?_
    split
    · next t ht => exact h.ringGiven.get ht
    · exact Kept.answerReg h.readRgn
  · exact .ite h.refuseServe h.hubRead
  · exact .ite h.refuseServe h
  · exact .ite h.refuseServe h.hubRead
  · exact h.refuseServe

theorem Kept.execRead {p ecc} (h : Kept τ s₀ s) : KeptOut τ s₀ (execRead p ecc s) :=
  Kept.ite (h.serve fun _ h => h.refuseServe) (Kept.ite h (h.serve fun _ h => h.readUnit))

theorem Kept.palWrite {p rg c} (h : Kept τ s₀ s) : (palWrite s p rg c).Keeps τ s₀ := by
  unfold Machine.palWrite
  refine .ite h.refuseServe ?_
  split
  · next t ht => exact (h.replayRefuses.get ht).refuseServe
  · exact .ite h.writePalette h.refuseServe

theorem Kept.easelWrite {p rg k} (h : Kept τ s₀ s) : (easelWrite s p rg k).Keeps τ s₀ := by
  have h1 : Kept τ s₀ (Machine.foldS ((wordsOf p.data).zipIdx) s (fun s x => Machine.easWrite s rg k (p.addr.toNat + 8 * x.2) 8 x.1.toNat)) :=
    h.foldS fun _ _ h => h.easWrite
  unfold Machine.easelWrite
  exact .ite h.refuseServe (.ite h.refuseServe (.ite h.refuseServe h1))

theorem Kept.memWrite {p rg e} (h : Kept τ s₀ s) : (memWrite s p rg e).Keeps τ s₀ := by
  have h1 : Kept τ s₀ (Machine.portGives s rg 3 true (fun s => (Machine.portWrites rg 3 (wordsOf p.data) s (p.addr.toNat / 8) e, ()))).1 :=
    h.portGives fun _ h => h.portWrites
  unfold Machine.memWrite
  refine .ite h.refuseServe ?_
  split
  · next t ht => exact (h.replayRefuses.get ht).refuseServe
  · refine .ite h.refuseServe ?_
    generalize Machine.portGives s rg 3 true (fun s => (Machine.portWrites rg 3 (wordsOf p.data) s (p.addr.toNat / 8) e, ())) = x at h1 ⊢
    obtain ⟨t, _ | _⟩ := x
    · exact h1
    · exact h1

theorem Kept.ringWriteRefused {rg} (h : Kept τ s₀ s) : (ringWriteRefused s rg).Keeps τ s₀ :=
  Kept.refuseServe h.bumpR

theorem Kept.hubWrite {p a} (h : Kept false s₀ s) : (hubWrite s p a).Keeps false s₀ := by
  unfold Machine.hubWrite
  split
  · refine .ite h.refuseServe ?_
    split
    · next t ht => exact (h.busTurn.get ht).writeHub
    · exact h.busPlace
  · exact h.refuseServe

theorem Kept.unlessPoisoned {p x} (h : Kept τ s₀ s) (hx : x.Keeps τ s₀) : (unlessPoisoned s p x).Keeps τ s₀ := by
  unfold Machine.unlessPoisoned
  refine .ite hx ?_
  split
  · exact hx
  · exact h.refuseServe

theorem Kept.writeUnit {p e} (h : Kept false s₀ s) : (writeUnit s p e).Keeps false s₀ := by
  unfold Machine.writeUnit
  dsimp only
  generalize nodeUnit p.dest = u
  refine .ite h.refuseServe (h.unlessPoisoned (.ite h.palWrite ?_))
  split
  · exact h.easelWrite
  · exact h.easelWrite
  · exact h.easelWrite
  · exact h.memWrite
  · refine .ite h.refuseServe ?_
    split
    · next t ht => exact (h.replayRefuses.get ht).refuseServe
    · exact h.ringWriteRefused
  · exact h.refuseServe
  · exact .ite h.refuseServe h.writeRgn
  · exact .ite h.refuseServe h.hubWrite
  · exact .ite h.refuseServe h.sramWrites
  · exact .ite h.refuseServe h.hubWrite
  · exact h.refuseServe

theorem Kept.execWrite {p ecc} (h : Kept false s₀ s) : KeptOut false s₀ (execWrite p ecc s) :=
  Kept.ite h (h.serve (fun _ h2 => h2.writeUnit))

theorem Kept.postedUnit {p e} (h : Kept false s₀ s) : (postedUnit s p e).Keeps false s₀ :=
  Serve.Keeps.ite h.refuseServe h.writeUnit

theorem Kept.execWritePosted {p ecc} (h : Kept false s₀ s) : KeptOut false s₀ (execWritePosted p ecc s) :=
  Kept.ite h (h.serve (fun _ h2 => h2.postedUnit))

theorem Kept.memAtomic {p rg e} (h : Kept τ s₀ s) : (memAtomic s p rg e).Keeps τ s₀ := by
  unfold Machine.memAtomic
  extract_lets a new run
  have h1 : Kept τ s₀ (Machine.portGives s rg 3 true run).1 := by
    refine h.portGives fun t h => ?_
    exact .iteFst h.backRead (.iteFst h.backRead h.portWrite)
  refine .ite h.refuseServe ?_
  split
  · next t ht => exact (h.replayRefuses.get ht).refuseServe
  · refine .ite h.refuseServe ?_
    generalize Machine.portGives s rg 3 true run = x at h1 ⊢
    obtain ⟨t, _ | _ | l⟩ := x
    · exact h1
    · exact h1.refuseServe
    · exact h1

theorem Kept.sramAtomic {p e} (h : Kept τ s₀ s) : (sramAtomic s p e).Keeps τ s₀ := by
  unfold Machine.sramAtomic
  exact .ite h.refuseServe (.ite h.refuseServe (h.withSram fun hm => Mem.wf_write _ _ _ hm))

theorem Kept.atomicUnit {p e} (h : Kept τ s₀ s) : (atomicUnit s p e).Keeps τ s₀ := by
  unfold Machine.atomicUnit
  refine .ite h.refuseServe (h.unlessPoisoned ?_)
  split
  · exact h.memAtomic
  · refine .ite h.refuseServe ?_
    split
    · next t ht => exact (h.replayRefuses.get ht).refuseServe
    · exact h.ringWriteRefused
  · exact h.refuseServe
  · exact h.sramAtomic
  · exact h.refuseServe

theorem Kept.execAtomic {p ecc} (h : Kept τ s₀ s) : KeptOut τ s₀ (execAtomic p ecc s) :=
  Kept.ite h (h.serve (fun _ h2 => h2.atomicUnit))

theorem Kept.takeMessage {p rg k fate} (h : Kept τ s₀ s) : (takeMessage s p rg k fate).Keeps τ s₀ := by
  unfold Machine.takeMessage
  exact .ite h.refuseServe (.ite (Kept.refuseServe h.bumpR) (.ite h.refuseServe (.ite h.refuseServe (.ite (Kept.refuseServe h.bumpR)
    (.ite (Kept.refuseServe h.onRgn.setRf) h.onRgn)))))

theorem Kept.execMessage {p fate} (h : Kept τ s₀ s) : KeptOut τ s₀ (execMessage p fate s) := by
  refine Kept.ite h (h.serve fun t h1 => ?_)
  split
  · exact h1.takeMessage
  · exact h1.takeMessage
  · exact h1.takeMessage
  · exact h1.refuseServe

theorem Kept.execFrameWrite {p} (h : Kept τ s₀ s) : KeptOut τ s₀ (execFrameWrite p s) :=
  Kept.ite h (h.serve fun _ h1 => .ite h1.refuseServe (.ite h1.refuseServe h1.offerFrame))

theorem Kept.execTick {p since} (h : Kept τ s₀ s) : KeptOut τ s₀ (execTick p since s) := by
  unfold Machine.execTick
  exact Kept.ite h (Kept.ite (h.refuseFrom (fun _ h7 => h7.other)) (Kept.ite h.noteOutside.other.pushNet h))

theorem Kept.takeResponse {p cause data} (h : Kept τ s₀ s) : Kept τ s₀ (takeResponse s p cause data) := by
  unfold Machine.takeResponse
  refine .ite h ?_
  extract_lets s1 n key s2
  have h1 : Kept τ s₀ s1 := h.other
  have h2 : Kept τ s₀ s2 := h1.other
  refine .ite (.ite h1.bumpR h1) ?_
  split
  · exact h2.endPkt
  · exact h2

theorem Kept.execRespData {p} (h : Kept τ s₀ s) : KeptOut τ s₀ (execRespData p s) :=
  Kept.ite h h.takeResponse

theorem Kept.execRespAck {p} (h : Kept τ s₀ s) : KeptOut τ s₀ (execRespAck p s) :=
  Kept.ite h h.takeResponse

theorem Kept.execRespError {p} (h : Kept τ s₀ s) : KeptOut τ s₀ (execRespError p s) := by
  unfold Machine.execRespError
  exact Kept.ite h.takeResponse (Kept.ite (Kept.of (fun h3 => Kept.ite h3.bumpR h3) h.other) h)

theorem Kept.regionTick {ns rg} (h : Kept τ s₀ s) : Kept τ s₀ (regionTick ns s rg) :=
  Kept.ite h (Kept.ite h h.setRgn)

theorem Kept.semTick {us n} (h : Kept τ s₀ s) : Kept τ s₀ (semTick us s n) :=
  Kept.ite h h.bump

theorem Kept.idleTick {us} (h : Kept τ s₀ s) : Kept τ s₀ (idleTick us s) := by
  unfold Machine.idleTick
  exact (Kept.ite h.bump (Kept.ite h h.idleFails)).other

theorem Kept.reckonTick {us} (h : Kept τ s₀ s) : Kept τ s₀ (reckonTick us s) :=
  Kept.ite h.bump h

theorem Kept.hoursTick {us} (h : Kept τ s₀ s) : Kept τ s₀ (hoursTick us s) := by
  unfold Machine.hoursTick
  exact Kept.ite h.other h.other.other

theorem Kept.microseconds {us} (h : Kept τ s₀ s) : Kept τ s₀ (microseconds us s) :=
  Kept.ite h (((((h.foldl (fun _ _ h3 => h3.semTick)).foldl (fun _ _ h4 => h4.tachTick)).idleTick).reckonTick).hoursTick)

theorem Kept.tickPeriod (h : Kept τ s₀ s) : Kept τ s₀ (tickPeriod s).2 :=
  Kept.iteSnd h h.draw

/-- The tick is counted, unless a slew omits it. -/
def State.counted (s : State) : State := if s.mer.omitted then { s with mer := { s.mer with omitted := false } } else countTick s

/-- What a tick brings besides its count. -/
def tickRest (s : State) : State :=
  let (p, s) := tickPeriod (missIntervals s)
  let t := s.mer.time + p
  let us := t / 65536000 - s.mer.time / 65536000
  let ns := t / 65536 - s.mer.time / 65536
  let s := { s with mer := { s.mer with time := t } }
  let s := microseconds us (Machine.foldS allRegions s (regionTick ns))
  let s := Machine.foldS allRegions s fillPins
  let s := Machine.foldS allRegions s (fun s rg => if (s.rgn rg).rwd.merges = [] then s else restoreIfIdle (writeMerges s rg) rg)
  retryFeed (Machine.foldS (List.range 6) s deliverLine)

theorem tickStep_eq (s : State) : tickStep s = if ¬ s.portUp then s else tickRest s.counted := rfl

theorem Kept.tickRest (h : Kept τ s₀ s) : Kept τ s₀ (tickRest s) := by
  have hx : Kept τ s₀ (Machine.tickPeriod (Machine.missIntervals s)).2 := h.missIntervals.tickPeriod
  unfold Machine.tickRest
  generalize Machine.tickPeriod (Machine.missIntervals s) = x at hx ⊢
  obtain ⟨p, s2⟩ := x
  dsimp -zeta only
  extract_lets t us ns m2 s3 s4 s5 s6
  have h3 : Kept τ s₀ s3 := hx.other
  have h4 : Kept τ s₀ s4 := Kept.microseconds (h3.foldS fun _ _ h => h.regionTick)
  have h5 : Kept τ s₀ s5 := h4.foldS fun _ _ h => h.fillPins
  have h6 : Kept τ s₀ s6 := h5.foldS fun _ _ h => .ite h h.writeMerges.restoreIfIdle
  exact Kept.retryFeed (h6.foldS fun _ _ h => h.deliverLine)

theorem Kept.counted (h : Kept false s₀ s) : Kept false s₀ s.counted := .ite h.ticked h.countTick

theorem Kept.tickStep (h : Kept false s₀ s) : Kept false s₀ (tickStep s) := by
  rw [tickStep_eq]
  exact .ite h h.counted.tickRest

/-- Every command keeps the queue, the fuses and the canonical forms: the lemma of its arm. -/
theorem Kept.exec (h : Kept false s₀ s) (i : Instr) : KeptOut false s₀ (exec i s) := by
  cases i with
  | powerOn => exact h.execPowerOn
  | supplyLoss => exact h.execSupplyLoss
  | resetN => exact h.execResetN
  | resetNRelease => exact h.execResetNRelease
  | bootEnd => exact h.execBootEnd
  | startupBistEnd => exact h.execStartupBistEnd
  | calibrationEnd => exact h.execCalibrationEnd
  | helmRestart => exact h.execHelmRestart
  | regionReset => exact h.execRegionReset
  | isolate => exact h.execIsolate
  | release => exact h.execRelease
  | neighbourDrainEnd => exact h.execNeighbourDrainEnd
  | regionWatchdog => exact h.execRegionWatchdog
  | referenceEdges => exact h.execReferenceEdges
  | lock => exact h.execLock
  | mark => exact h.execMark
  | realignSlewStep => exact h.execRealignSlewStep
  | loss => exact h.execLoss
  | src => exact h.execSrc
  | merTickRead => exact h.execMerTickRead
  | tickFrameSend => exact h.execTickFrameSend
  | tickFrame => exact h.execTickFrame
  | tickMiss => exact h.execTickMiss
  | jobStart => exact h.execJobStart
  | cycleComplete => exact h.execCycleComplete
  | boundaryPass => exact h.execBoundaryPass
  | minFixSpacing => exact h.execMinFixSpacing
  | fixOverheadEnd => exact h.execFixOverheadEnd
  | ewinExpiry => exact h.execEwinExpiry
  | minRestart => exact h.execMinRestart
  | hold => exact h.execHold
  | resume => exact h.execResume
  | resumeTick => exact h.execResumeTick
  | rearm => exact h.execRearm
  | loopInterval => exact h.execLoopInterval
  | budgetWindow => exact h.execBudgetWindow
  | strokeBegin => exact h.execStrokeBegin
  | nop => exact h.execNop
  | eval => exact h.execEval
  | evalS => exact h.execEvalS
  | reservedOp => exact h.execReservedOp
  | send => exact h.execSend
  | injectionTake => exact h.execInjectionTake
  | memrd => exact h.execMemrd
  | memwr => exact h.execMemwr
  | frontPortTake => exact h.execFrontPortTake
  | memrdData => exact h.execMemrdData
  | memwrPerformed => exact h.execMemwrPerformed
  | jpost => exact h.execJpost
  | jpostAck => exact h.execJpostAck
  | junctionDeliver => exact h.execJunctionDeliver
  | probe => exact h.execProbe
  | traceWriterTake => exact h.execTraceWriterTake
  | haltif => exact h.execHaltif
  | endStroke => exact h.execEndStroke
  | longStall => exact h.execLongStall
  | headerFlitRoute =>
    unfold Machine.exec
    exact h.execHeaderFlitRoute
  | switchRoute =>
    unfold Machine.exec
    exact h.execSwitchRoute
  | requestInject => exact h.execRequestInject
  | injectionTimeout => exact h.execInjectionTimeout
  | responseTimeout => exact h.execResponseTimeout
  | noProgress => exact h.execNoProgress
  | read => exact h.execRead
  | write => exact h.execWrite
  | writePosted => exact h.execWritePosted
  | atomic => exact h.execAtomic
  | message => exact h.execMessage
  | frameWrite => exact h.execFrameWrite
  | respData => exact h.execRespData
  | respAck => exact h.execRespAck
  | respError => exact h.execRespError
  | tick => exact h.execTick
  | bundleForward => exact h.execBundleForward
  | bundleAccept => exact h.execBundleAccept
  | ovrSwap => exact h.execOvrSwap
  | swapDrained => exact h.execSwapDrained
  | drainLimit => exact h.execDrainLimit
  | ovrCopy => exact h.execOvrCopy
  | d2dSparing => exact h.execD2dSparing
  | d2dRetrain => exact h.execD2dRetrain
  | d2dTrained => exact h.execD2dTrained
  | arbiterRound => exact h.execArbiterRound
  | undo => exact h.execUndo
  | bin => exact h.execBin
  | trace => exact h.execTrace
  | snapx => exact h.execSnapx
  | marker => exact h.execMarker
  | gap => exact h.execGap
  | rewind => exact h.execRewind
  | restoreDone => exact h.execRestoreDone
  | rwdRelease => exact h.execRwdRelease
  | replayArm => exact h.execReplayArm
  | recEn => exact h.execRecEn
  | cnvPass => exact h.execCnvPass
  | cnvAdd => exact h.execCnvAdd
  | cnvSub => exact h.execCnvSub
  | cnvAnd => exact h.execCnvAnd
  | cnvOr => exact h.execCnvOr
  | cnvXor => exact h.execCnvXor
  | cnvShift => exact h.execCnvShift
  | cnvCmp => exact h.execCnvCmp
  | cnvMux => exact h.execCnvMux
  | cnvAcc => exact h.execCnvAcc
  | cnvLut => exact h.execCnvLut
  | cnvFork => exact h.execCnvFork
  | cnvJoin => exact h.execCnvJoin
  | cnvMerge => exact h.execCnvMerge
  | cnvSteer => exact h.execCnvSteer
  | cnvReservedOpc => exact h.execCnvReservedOpc
  | fight => exact h.execFight
  | fightClear => exact h.execFightClear
  | fioInputToken => exact h.execFioInputToken
  | levelRequest => exact h.execLevelRequest
  | fioOutputToken => exact h.execFioOutputToken
  | enableToken => exact h.execEnableToken
  | fioDly => exact h.execFioDly
  | ioSupplyMismatch => exact h.execIoSupplyMismatch
  | retouchEndpointToken => exact h.execRetouchEndpointToken
  | cfgFifo => exact h.execCfgFifo
  | partition => exact h.execPartition
  | canvas => exact h.execCanvas
  | stroke => exact h.execStroke
  | palette => exact h.execPalette
  | dmem => exact h.execDmem
  | easel => exact h.execEasel
  | slot => exact h.execSlot
  | routeOvr => exact h.execRouteOvr
  | region => exact h.execRegion
  | library => exact h.execLibrary
  | settings => exact h.execSettings
  | signature => exact h.execSignature
  | finishingEnd => exact h.execFinishingEnd
  | loadTimeout => exact h.execLoadTimeout
  | abort => exact h.execAbort
  | doneHigh => exact h.execDoneHigh
  | start => exact h.execStart
  | startCmd => exact h.execStartCmd
  | groundLoad => exact h.execGroundLoad
  | groundWrite => exact h.execGroundWrite
  | groundCommit => exact h.execGroundCommit
  | groundErase => exact h.execGroundErase
  | groundRefresh => exact h.execGroundRefresh
  | unwrap => exact h.execUnwrap
  | keyErase => exact h.execKeyErase
  | keyEraseAll => exact h.execKeyEraseAll
  | program => exact h.execProgram
  | revoke => exact h.execRevoke
  | partialCheck => exact h.execPartialCheck
  | partialTimeout => exact h.execPartialTimeout
  | holdWait => exact h.execHoldWait
  | apply => exact h.execApply
  | clampForce => exact h.execClampForce
  | rtcAbort => exact h.execRtcAbort
  | readback => exact h.execReadback
  | readbackReady => exact h.execReadbackReady
  | scrubFrame => exact h.execScrubFrame
  | scrubMemStep => exact h.execScrubMemStep
  | detectEnd => exact h.execDetectEnd
  | trainEnd => exact h.execTrainEnd
  | lockEnd => exact h.execLockEnd
  | calibEnd => exact h.execCalibEnd
  | trainingTimeout => exact h.execTrainingTimeout
  | lnkRetrain => exact h.execLnkRetrain
  | lnkEn => exact h.execLnkEn
  | frameSend => exact h.execFrameSend
  | idle => exact h.execIdle
  | sched => exact h.execSched
  | ctrl => exact h.execCtrl
  | pktFrame => exact h.execPktFrame
  | pktPoison => exact h.execPktPoison
  | replayTimeout => exact h.execReplayTimeout
  | laneFault => exact h.execLaneFault
  | laneSwitch => exact h.execLaneSwitch
  | slotSwap => exact h.execSlotSwap
  | slotCopy => exact h.execSlotCopy
  | discoverSend => exact h.execDiscoverSend
  | discover => exact h.execDiscover
  | settled => exact h.execSettled
  | sweep => exact h.execSweep
  | fabricResetCmd => exact h.execFabricResetCmd
  | fabricReset => exact h.execFabricReset
  | fabricResetTimer => exact h.execFabricResetTimer
  | easNop => exact h.execEasNop
  | easAdd => exact h.execEasAdd
  | easSub => exact h.execEasSub
  | easAnd => exact h.execEasAnd
  | easOr => exact h.execEasOr
  | easXor => exact h.execEasXor
  | easShl => exact h.execEasShl
  | easShr => exact h.execEasShr
  | easShra => exact h.execEasShra
  | easCmp => exact h.execEasCmp
  | easAddi => exact h.execEasAddi
  | easAndi => exact h.execEasAndi
  | easOri => exact h.execEasOri
  | easXori => exact h.execEasXori
  | easLdi => exact h.execEasLdi
  | easCmpi => exact h.execEasCmpi
  | easMvs => exact h.execEasMvs
  | easMsv => exact h.execEasMsv
  | easMul => exact h.execEasMul
  | easMacld => exact h.execEasMacld
  | easAcc => exact h.execEasAcc
  | easExt => exact h.execEasExt
  | easLd => exact h.execEasLd
  | easSt => exact h.execEasSt
  | easLdd => exact h.execEasLdd
  | easStd => exact h.execEasStd
  | easPal => exact h.execEasPal
  | easBpa => exact h.execEasBpa
  | easMbrd => exact h.execEasMbrd
  | easMbwr => exact h.execEasMbwr
  | easBr => exact h.execEasBr
  | easCall => exact h.execEasCall
  | easRet => exact h.execEasRet
  | easReti => exact h.execEasReti
  | easLoop => exact h.execEasLoop
  | easRelfix => exact h.execEasRelfix
  | easWait => exact h.execEasWait
  | easKick => exact h.execEasKick
  | easPkt => exact h.execEasPkt
  | easBrk => exact h.execEasBrk
  | interrupt => exact h.execInterrupt
  | easelWatchdog => exact h.execEaselWatchdog
  | coreReset => exact h.execCoreReset
  | holdRst => exact h.execHoldRst
  | mbinFlush => exact h.execMbinFlush
  | mboutFlush => exact h.execMboutFlush
  | mbinFirst => exact h.execMbinFirst
  | mbinNext => exact h.execMbinNext
  | mbout => exact h.execMbout
  | patchWrite => exact h.execPatchWrite
  | easWdog => exact h.execEasWdog
  | busWatchdog => exact h.execBusWatchdog
  | helmBusAccess => exact h.execHelmBusAccess
  | take => exact h.execTake
  | semRelease => exact h.execSemRelease
  | holdLimit => exact h.execHoldLimit
  | enec => exact h.execEnec
  | disec => exact h.execDisec
  | entas0 => exact h.execEntas0
  | entas1 => exact h.execEntas1
  | entas2 => exact h.execEntas2
  | entas3 => exact h.execEntas3
  | rstdaa => exact h.execRstdaa
  | entdaa => exact h.execEntdaa
  | setmwl => exact h.execSetmwl
  | setmrl => exact h.execSetmrl
  | enthdr0 => exact h.execEnthdr0
  | rstact => exact h.execRstact
  | setdasa => exact h.execSetdasa
  | setnewda => exact h.execSetnewda
  | getmwl => exact h.execGetmwl
  | getmrl => exact h.execGetmrl
  | getpid => exact h.execGetpid
  | getbcr => exact h.execGetbcr
  | getdcr => exact h.execGetdcr
  | getstatus => exact h.execGetstatus
  | getmxds => exact h.execGetmxds
  | status => exact h.execStatus
  | i3cWrite => exact h.execI3cWrite
  | writeFixed => exact h.execWriteFixed
  | i3cRead => exact h.execI3cRead
  | readFixed => exact h.execReadFixed
  | hotJoin => exact h.execHotJoin
  | ibi => exact h.execIbi
  | outSet => exact h.execOutSet
  | outClr => exact h.execOutClr
  | funcChange => exact h.execFuncChange
  | parkEnd => exact h.execParkEnd
  | pinInterrupt => exact h.execPinInterrupt
  | wakeInput => exact h.execWakeInput
  | uartDataWrite => exact h.execUartDataWrite
  | uartDataRead => exact h.execUartDataRead
  | uartRx => exact h.execUartRx
  | spiData => exact h.execSpiData
  | capture => exact h.execCapture
  | captureRead => exact h.execCaptureRead
  | wakeSequence => exact h.execWakeSequence
  | twdRequest => exact h.execTwdRequest
  | attach => exact h.execAttach
  | sessionIdle => exact h.execSessionIdle
  | dbgDataWrite => exact h.execDbgDataWrite
  | dbgDataRead => exact h.execDbgDataRead
  | errClr => exact h.execErrClr
  | halt => exact h.execHalt
  | coreResume => exact h.execCoreResume
  | step_ => exact h.execStep_
  | claim => exact h.execClaim
  | coreVal => exact h.execCoreVal
  | feed => exact h.execFeed
  | privArm => exact h.execPrivArm
  | privGo => exact h.execPrivGo
  | testEntryDone => exact h.execTestEntryDone
  | enterState => exact h.execEnterState
  | wake => exact h.execWake
  | shutdown => exact h.execShutdown
  | shutdownBistEnd => exact h.execShutdownBistEnd
  | autoEntry => exact h.execAutoEntry
  | entryComplete => exact h.execEntryComplete
  | exitComplete => exact h.execExitComplete
  | quadReset => exact h.execQuadReset
  | quadDoze => exact h.execQuadDoze
  | quadDormant => exact h.execQuadDormant
  | quadWake => exact h.execQuadWake
  | powerSample => exact h.execPowerSample
  | thermalSample => exact h.execThermalSample
  | thermalShutdown => exact h.execThermalShutdown
  | vqFault => exact h.execVqFault
  | ageCheck => exact h.execAgeCheck
  | classify => exact h.execClassify
  | isbStart => exact h.execIsbStart
  | bistStep => exact h.execBistStep
  | bistGo => exact h.execBistGo
  | bistAbort => exact h.execBistAbort
  | repairClear => exact h.execRepairClear
  | taintClear => exact h.execTaintClear
  | registerWrite => exact h.execRegisterWrite
  | peerBeginsTraining => exact h.execPeerBeginsTraining
  | peerResumesSignalling => exact h.execPeerResumesSignalling
  | ioSupplyReturn => exact h.execIoSupplyReturn
  | d2dResume => exact h.execD2dResume
  | latchClock => exact h.execLatchClock
  | edgeInput => exact h.execEdgeInput
  | delayStep => exact h.execDelayStep
  | grantIdleDrop => exact h.execGrantIdleDrop
  | dirtyChecksPass => exact h.execDirtyChecksPass
  | uartTx => exact h.execUartTx
  | spiByteEnd => exact h.execSpiByteEnd
  | tachEdge => exact h.execTachEdge
  | hdrExitPattern => exact h.execHdrExitPattern
  | powerRemoval => exact h.execPowerRemoval
  | shutdownWaitEnd => exact h.execShutdownWaitEnd

theorem Kept.step {next : State} (hs : step s = .next next) : Kept false { s with pending := s.pending.tail } next := by
  unfold Machine.step at hs
  split at hs
  · next hq =>
    cases hs
    have h0 : Kept false { s with pending := s.pending.tail } s := ⟨by simp [hq], .of_eq rfl, id, fun _ => ⟨rfl, rfl⟩⟩
    exact h0.tickStep
  · next c rest hq =>
    have h1 := (Kept.refl false { s with pending := rest }).exec c
    rw [hs] at h1
    rw [hq]
    exact h1

end

/-- Settles O59: a step is a tick or the command at the front, and each keeps the queue behind it and undoes no fuse. -/
theorem stepKeepsTheQueueAndFuses : Obligations.StepKeepsTheQueueAndFuses := by
  unfold Obligations.StepKeepsTheQueueAndFuses
  intro s t hs
  exact ⟨(Kept.step hs).pending, (Kept.step hs).fuses⟩

/-- Settles O60: a step is a tick or the command at the front, and each writes the stores through operations that keep their form. -/
theorem stepKeepsCanonicalForms : Obligations.StepKeepsCanonicalForms := by
  unfold Obligations.StepKeepsCanonicalForms
  intro s t hc hs
  exact (Kept.step hs).canonical hc

end Sys2Proof.Machine
end

section
/-! PROOFS. The state at reset, and what a step is. -/

namespace Sys2Proof.Machine

/-- Settles O54: at reset every store is at its default, and the identity registers read their reset words. -/
theorem resetState : Obligations.ResetState := by
  unfold Obligations.ResetState
  have hcfg : Region.f {} F.RGN_STATUS_CFG = 0 := by decide
  have hstate : Region.f {} F.FIX_STATUS_STATE = 0 := by decide
  have hjob : Region.f {} F.RGN_STATUS_IN_JOB = 0 := by decide
  exact ⟨rfl, rfl, rfl, rfl, rfl, rfl, rfl, rfl, rfl, rfl, fun _ => ⟨hcfg, hstate, hjob, rfl, rfl, rfl, rfl⟩⟩

/-- Settles O55: every store that the canonical form speaks of is empty at reset. -/
theorem resetIsCanonical : Obligations.ResetIsCanonical := by
  unfold Obligations.ResetIsCanonical
  exact ⟨rfl, rfl, rfl, rfl, rfl⟩

/-- Settles O56: step takes the front of the queue off and performs it. -/
theorem stepTakesTheFront : Obligations.StepTakesTheFront := by
  unfold Obligations.StepTakesTheFront
  exact fun c rest s => rfl

/-- The one arm that decides before it answers. -/
theorem execThermalSample_completes (temps : List (BitVec 8)) (s : State) : ∃ t, execThermalSample temps s = .next t := by
  unfold execThermalSample
  dsimp only
  split
  · exact ⟨_, rfl⟩
  · exact ⟨_, rfl⟩

/-- Settles O58: every arm of exec answers a next state by its definition. -/
theorem everyCommandCompletes : Obligations.EveryCommandCompletes := by
  unfold Obligations.EveryCommandCompletes
  intro c s
  cases c with
  | thermalSample temps => exact execThermalSample_completes temps s
  | _ => exact ⟨_, rfl⟩

end Sys2Proof.Machine
end

section
/-! PROOFS. Reads after writes, in the form in which simp discharges the side conditions on literal fields by itself; and how the
frames of the statements compose. -/

namespace Sys2Proof.Machine

/-! ### Hub registers -/

@[simp] theorem State.f_setF_eq (s : State) (f : Fld) (n : Nat) (hf : f.lo + f.w ≤ 32) : (s.setF f n).f f = n % 2 ^ f.w :=
  State.f_setF_same s f hf n

@[simp] theorem State.f_setF_other (s : State) (f g : Fld) (n : Nat) (hf : f.lo + f.w ≤ 32)
    (h : f.off ≠ g.off ∨ f.lo + f.w ≤ g.lo ∨ g.lo + g.w ≤ f.lo) : (s.setF f n).f g = s.f g :=
  State.f_setF_apart s f g hf h n

@[simp] theorem State.f_setReg_other (s : State) (g : Fld) {a : Nat} (v : Word) (h : g.off ≠ a) : (s.setReg a v).f g = s.f g :=
  State.f_setReg_ne s g v h

@[simp] theorem State.reg_setReg_other (s : State) {a b : Nat} (v : Word) (h : b ≠ a) : (s.setReg a v).reg b = s.reg b :=
  State.reg_setReg_ne s v h

@[simp] theorem State.reg_setF_other (s : State) (f : Fld) {a : Nat} (n : Nat) (h : a ≠ f.off) : (s.setF f n).reg a = s.reg a :=
  State.reg_setF_ne s f n h

@[simp] theorem State.f_bump_eq (s : State) (f : Fld) (k : Nat) (hf : f.lo + f.w ≤ 32) : (s.bump f k).f f = min (s.f f + k) f.max :=
  State.f_bump_same s f hf k

@[simp] theorem State.f_bump_other (s : State) (f g : Fld) (k : Nat) (hf : f.lo + f.w ≤ 32)
    (h : f.off ≠ g.off ∨ f.lo + f.w ≤ g.lo ∨ g.lo + g.w ≤ f.lo) : (s.bump f k).f g = s.f g :=
  State.f_setF_apart s f g hf h _

@[simp] theorem State.reg_bump_other (s : State) (f : Fld) {a : Nat} (k : Nat) (h : a ≠ f.off) : (s.bump f k).reg a = s.reg a :=
  State.reg_setF_ne s f _ h

theorem State.f_lt (s : State) (f : Fld) : s.f f < 2 ^ f.w := Fld.of_lt f _

/-! ### Region registers -/

@[simp] theorem Region.f_setF_eq (r : Region) (f : Fld) (n : Nat) (hf : f.lo + f.w ≤ 32) : (r.setF f n).f f = n % 2 ^ f.w :=
  Region.f_setF_same r f hf n

@[simp] theorem Region.f_setF_other (r : Region) (f g : Fld) (n : Nat) (hf : f.lo + f.w ≤ 32)
    (h : f.off ≠ g.off ∨ f.lo + f.w ≤ g.lo ∨ g.lo + g.w ≤ f.lo) : (r.setF f n).f g = r.f g :=
  Region.f_setF_apart r f g hf h n

@[simp] theorem Region.f_setReg_other (r : Region) (g : Fld) {a : Nat} (v : Word) (h : g.off ≠ a) : (r.setReg a v).f g = r.f g :=
  Region.f_setReg_ne r g v h

@[simp] theorem Region.reg_setReg_other (r : Region) {a b : Nat} (v : Word) (h : b ≠ a) : (r.setReg a v).reg b = r.reg b :=
  Region.reg_setReg_ne r v h

@[simp] theorem Region.reg_setF_other (r : Region) (f : Fld) {a : Nat} (n : Nat) (h : a ≠ f.off) : (r.setF f n).reg a = r.reg a :=
  Region.reg_setReg_ne r _ h

@[simp] theorem Region.f_bump_eq (r : Region) (f : Fld) (k : Nat) (hf : f.lo + f.w ≤ 32) : (r.bump f k).f f = min (r.f f + k) f.max :=
  Region.f_bump_same r f hf k

@[simp] theorem Region.f_bump_other (r : Region) (f g : Fld) (k : Nat) (hf : f.lo + f.w ≤ 32)
    (h : f.off ≠ g.off ∨ f.lo + f.w ≤ g.lo ∨ g.lo + g.w ≤ f.lo) : (r.bump f k).f g = r.f g :=
  Region.f_setF_apart r f g hf h _

@[simp] theorem Region.reg_bump_other (r : Region) (f : Fld) {a : Nat} (k : Nat) (h : a ≠ f.off) : (r.bump f k).reg a = r.reg a :=
  Region.reg_setReg_ne r _ h

theorem Region.f_lt (r : Region) (f : Fld) : r.f f < 2 ^ f.w := Fld.of_lt f _

theorem State.rf_lt (s : State) (rg : Rg) (f : Fld) : s.rf rg f < 2 ^ f.w := Fld.of_lt f _

@[simp] theorem State.rgn_onRgn_other (s : State) {rg rh : Rg} (g : Region → Region) (h : rh ≠ rg) :
    (s.onRgn rg g).rgn rh = s.rgn rh :=
  State.rgn_onRgn_ne s g h

@[simp] theorem State.rgn_setRgn_other (s : State) {rg rh : Rg} (r : Region) (h : rh ≠ rg) : (s.setRgn rg r).rgn rh = s.rgn rh :=
  State.rgn_setRgn_ne s r h

@[simp] theorem State.rgn_bump (s : State) (f : Fld) (k : Nat) (rg : Rg) : (s.bump f k).rgn rg = s.rgn rg := rfl

@[simp] theorem State.rf_onRgn_same (s : State) (rg : Rg) (g : Region → Region) (f : Fld) :
    (s.onRgn rg g).rf rg f = (g (s.rgn rg)).f f := by
  simp [State.rf]

@[simp] theorem State.rf_onRgn_other (s : State) {rg rh : Rg} (g : Region → Region) (f : Fld) (h : rh ≠ rg) :
    (s.onRgn rg g).rf rh f = s.rf rh f := by
  simp [State.rf, h]

@[simp] theorem State.rf_setRgn_same (s : State) (rg : Rg) (r : Region) (f : Fld) : (s.setRgn rg r).rf rg f = r.f f := by
  simp [State.rf]

@[simp] theorem State.rf_setRf_eq (s : State) (rg : Rg) (f : Fld) (n : Nat) (hf : f.lo + f.w ≤ 32) :
    (s.setRf rg f n).rf rg f = n % 2 ^ f.w :=
  State.rf_setRf_same s rg f hf n

@[simp] theorem State.rf_setRf_other (s : State) (rg : Rg) (f g : Fld) (n : Nat) (hf : f.lo + f.w ≤ 32)
    (h : f.off ≠ g.off ∨ f.lo + f.w ≤ g.lo ∨ g.lo + g.w ≤ f.lo) : (s.setRf rg f n).rf rg g = s.rf rg g :=
  State.rf_setRf_apart s rg f g hf h n

@[simp] theorem State.rf_setRf_ne (s : State) {rg rh : Rg} (f g : Fld) (n : Nat) (h : rh ≠ rg) :
    (s.setRf rg f n).rf rh g = s.rf rh g :=
  State.rf_onRgn_other s _ g h

@[simp] theorem State.rf_bumpR_eq (s : State) (rg : Rg) (f : Fld) (k : Nat) (hf : f.lo + f.w ≤ 32) :
    (s.bumpR rg f k).rf rg f = min (s.rf rg f + k) f.max :=
  (State.rf_onRgn_same s rg _ f).trans (Region.f_bump_same _ f hf k)

@[simp] theorem State.rf_bumpR_other (s : State) (rg : Rg) (f g : Fld) (k : Nat) (hf : f.lo + f.w ≤ 32)
    (h : f.off ≠ g.off ∨ f.lo + f.w ≤ g.lo ∨ g.lo + g.w ≤ f.lo) : (s.bumpR rg f k).rf rg g = s.rf rg g :=
  (State.rf_onRgn_same s rg _ g).trans (Region.f_bump_other _ f g k hf h)

theorem State.rf_setRf_off (s : State) (rg rh : Rg) (f g : Fld) (n : Nat) (h : g.off ≠ f.off) : (s.setRf rg f n).rf rh g = s.rf rh g := by
  by_cases hr : rh = rg
  · subst hr
    exact (State.rf_onRgn_same s rh _ g).trans (Region.f_setReg_ne _ g _ h)
  · exact State.rf_onRgn_other s _ g hr

theorem State.rf_bumpR_off (s : State) (rg rh : Rg) (f g : Fld) (k : Nat) (h : g.off ≠ f.off) : (s.bumpR rg f k).rf rh g = s.rf rh g := by
  by_cases hr : rh = rg
  · subst hr
    exact (State.rf_onRgn_same s rh _ g).trans (Region.f_setReg_ne _ g _ h)
  · exact State.rf_onRgn_other s _ g hr

@[simp] theorem State.rf_ibi (s : State) (cls loc arg : Nat) (rg : Rg) (f : Fld) : (s.ibi cls loc arg).rf rg f = s.rf rg f := by
  unfold State.rf; rw [State.rgn_ibi]

@[simp] theorem State.rf_noteFault (s : State) (src l : Nat) (key : Word) (rg : Rg) (f : Fld) :
    (s.noteFault src l key).rf rg f = s.rf rg f := by
  unfold State.rf; rw [State.rgn_noteFault]

@[simp] theorem State.rf_setF (s : State) (rg : Rg) (f g : Fld) (n : Nat) : (s.setF f n).rf rg g = s.rf rg g := rfl
@[simp] theorem State.rf_setReg (s : State) (rg : Rg) (a : Nat) (v : Word) (g : Fld) : (s.setReg a v).rf rg g = s.rf rg g := rfl
@[simp] theorem State.rf_bump (s : State) (rg : Rg) (f g : Fld) (k : Nat) : (s.bump f k).rf rg g = s.rf rg g := rfl
@[simp] theorem State.f_setRgn (s : State) (rg : Rg) (r : Region) (f : Fld) : (s.setRgn rg r).f f = s.f f := rfl
@[simp] theorem State.f_bumpR (s : State) (rg : Rg) (f g : Fld) (k : Nat) : (s.bumpR rg f k).f g = s.f g := rfl
@[simp] theorem State.reg_setRf (s : State) (rg : Rg) (f : Fld) (n a : Nat) : (s.setRf rg f n).reg a = s.reg a := rfl
@[simp] theorem State.reg_bumpR (s : State) (rg : Rg) (f : Fld) (k a : Nat) : (s.bumpR rg f k).reg a = s.reg a := rfl

/-! ### Updates of another store

Whatever else of a state is replaced, its registers and regions read what the store that holds them reads. -/

@[simp] theorem State.reg_mk (t : State) {pending rgns jobs mer faultQ bursts taints net trail order wires arrived sched tags
      ports fab d2dFails refusing applying library sram windowFixes tracks flash fuses keys load rtc scr pwr bist i3c bus gpio
      dbg drawn} (a : Nat) :
    State.reg ⟨pending, t.regs, rgns, jobs, mer, faultQ, bursts, taints, net, trail, order, wires, arrived, sched, tags, ports,
      fab, d2dFails, refusing, applying, library, sram, windowFixes, tracks, flash, fuses, keys, load, rtc, scr, pwr, bist, i3c,
      bus, gpio, dbg, drawn⟩ a = t.reg a := rfl

@[simp] theorem State.f_mk (t : State) {pending rgns jobs mer faultQ bursts taints net trail order wires arrived sched tags ports
      fab d2dFails refusing applying library sram windowFixes tracks flash fuses keys load rtc scr pwr bist i3c bus gpio dbg
      drawn} (x : Fld) :
    State.f ⟨pending, t.regs, rgns, jobs, mer, faultQ, bursts, taints, net, trail, order, wires, arrived, sched, tags, ports,
      fab, d2dFails, refusing, applying, library, sram, windowFixes, tracks, flash, fuses, keys, load, rtc, scr, pwr, bist, i3c,
      bus, gpio, dbg, drawn⟩ x = t.f x := rfl

@[simp] theorem State.bit_mk (t : State) {pending rgns jobs mer faultQ bursts taints net trail order wires arrived sched tags
      ports fab d2dFails refusing applying library sram windowFixes tracks flash fuses keys load rtc scr pwr bist i3c bus gpio
      dbg drawn} (x : Fld) :
    State.bit ⟨pending, t.regs, rgns, jobs, mer, faultQ, bursts, taints, net, trail, order, wires, arrived, sched, tags, ports,
      fab, d2dFails, refusing, applying, library, sram, windowFixes, tracks, flash, fuses, keys, load, rtc, scr, pwr, bist, i3c,
      bus, gpio, dbg, drawn⟩ x = t.bit x := rfl

@[simp] theorem State.rgn_mk (t : State) {pending regs jobs mer faultQ bursts taints net trail order wires arrived sched tags
      ports fab d2dFails refusing applying library sram windowFixes tracks flash fuses keys load rtc scr pwr bist i3c bus gpio
      dbg drawn} (rg : Rg) :
    State.rgn ⟨pending, regs, t.rgns, jobs, mer, faultQ, bursts, taints, net, trail, order, wires, arrived, sched, tags, ports,
      fab, d2dFails, refusing, applying, library, sram, windowFixes, tracks, flash, fuses, keys, load, rtc, scr, pwr, bist, i3c,
      bus, gpio, dbg, drawn⟩ rg = t.rgn rg := rfl

@[simp] theorem State.rf_mk (t : State) {pending regs jobs mer faultQ bursts taints net trail order wires arrived sched tags
      ports fab d2dFails refusing applying library sram windowFixes tracks flash fuses keys load rtc scr pwr bist i3c bus gpio
      dbg drawn} (rg : Rg) (x : Fld) :
    State.rf ⟨pending, regs, t.rgns, jobs, mer, faultQ, bursts, taints, net, trail, order, wires, arrived, sched, tags, ports,
      fab, d2dFails, refusing, applying, library, sram, windowFixes, tracks, flash, fuses, keys, load, rtc, scr, pwr, bist, i3c,
      bus, gpio, dbg, drawn⟩ rg x = t.rf rg x := rfl

@[simp] theorem State.eas_mk (t : State) {pending regs jobs mer faultQ bursts taints net trail order wires arrived sched tags
      ports fab d2dFails refusing applying library sram windowFixes tracks flash fuses keys load rtc scr pwr bist i3c bus gpio
      dbg drawn} (rg : Rg) (k : CoreNo) :
    State.eas ⟨pending, regs, t.rgns, jobs, mer, faultQ, bursts, taints, net, trail, order, wires, arrived, sched, tags, ports,
      fab, d2dFails, refusing, applying, library, sram, windowFixes, tracks, flash, fuses, keys, load, rtc, scr, pwr, bist, i3c,
      bus, gpio, dbg, drawn⟩ rg k = t.eas rg k := rfl

@[simp] theorem State.cl_mk (t : State) {pending regs jobs mer faultQ bursts taints net trail order wires arrived sched tags
      ports fab d2dFails refusing applying library sram windowFixes tracks flash fuses keys load rtc scr pwr bist i3c bus gpio
      dbg drawn} (rg : Rg) (c : Cl) :
    State.cl ⟨pending, regs, t.rgns, jobs, mer, faultQ, bursts, taints, net, trail, order, wires, arrived, sched, tags, ports,
      fab, d2dFails, refusing, applying, library, sram, windowFixes, tracks, flash, fuses, keys, load, rtc, scr, pwr, bist, i3c,
      bus, gpio, dbg, drawn⟩ rg c = t.cl rg c := rfl

@[simp] theorem State.job_mk (t : State) {pending regs rgns mer faultQ bursts taints net trail order wires arrived sched tags
      ports fab d2dFails refusing applying library sram windowFixes tracks flash fuses keys load rtc scr pwr bist i3c bus gpio
      dbg drawn} (j : Job) :
    State.job ⟨pending, regs, rgns, t.jobs, mer, faultQ, bursts, taints, net, trail, order, wires, arrived, sched, tags, ports,
      fab, d2dFails, refusing, applying, library, sram, windowFixes, tracks, flash, fuses, keys, load, rtc, scr, pwr, bist, i3c,
      bus, gpio, dbg, drawn⟩ j = t.job j := rfl

@[simp] theorem Region.reg_mk (r : Region) {strokes startv clusters dmem ring upsets fix mpos takes front inject arb rwd easels
      canvas cells mlog lanes io disabled fightSeen releasing resetDue configured live rtcStatus isoSub isoWord} (a : Nat) :
    Region.reg ⟨r.regs, strokes, startv, clusters, dmem, ring, upsets, fix, mpos, takes, front, inject, arb, rwd, easels, canvas,
      cells, mlog, lanes, io, disabled, fightSeen, releasing, resetDue, configured, live, rtcStatus, isoSub, isoWord⟩ a = r.reg a
      := rfl

@[simp] theorem Region.f_mk (r : Region) {strokes startv clusters dmem ring upsets fix mpos takes front inject arb rwd easels
      canvas cells mlog lanes io disabled fightSeen releasing resetDue configured live rtcStatus isoSub isoWord} (x : Fld) :
    Region.f ⟨r.regs, strokes, startv, clusters, dmem, ring, upsets, fix, mpos, takes, front, inject, arb, rwd, easels, canvas,
      cells, mlog, lanes, io, disabled, fightSeen, releasing, resetDue, configured, live, rtcStatus, isoSub, isoWord⟩ x = r.f x := rfl

@[simp] theorem Region.bit_mk (r : Region) {strokes startv clusters dmem ring upsets fix mpos takes front inject arb rwd easels
      canvas cells mlog lanes io disabled fightSeen releasing resetDue configured live rtcStatus isoSub isoWord} (x : Fld) :
    Region.bit ⟨r.regs, strokes, startv, clusters, dmem, ring, upsets, fix, mpos, takes, front, inject, arb, rwd, easels, canvas,
      cells, mlog, lanes, io, disabled, fightSeen, releasing, resetDue, configured, live, rtcStatus, isoSub, isoWord⟩ x = r.bit x
      := rfl

@[simp] theorem Region.eas_mk (r : Region) {regs strokes startv clusters dmem ring upsets fix mpos takes front inject arb rwd
      canvas cells mlog lanes io disabled fightSeen releasing resetDue configured live rtcStatus isoSub isoWord} (k : CoreNo) :
    Region.eas ⟨regs, strokes, startv, clusters, dmem, ring, upsets, fix, mpos, takes, front, inject, arb, rwd, r.easels, canvas,
      cells, mlog, lanes, io, disabled, fightSeen, releasing, resetDue, configured, live, rtcStatus, isoSub, isoWord⟩ k = r.eas k
      := rfl

@[simp] theorem Region.cl_mk (r : Region) {regs strokes startv dmem ring upsets fix mpos takes front inject arb rwd easels canvas
      cells mlog lanes io disabled fightSeen releasing resetDue configured live rtcStatus isoSub isoWord} (c : Cl) :
    Region.cl ⟨regs, strokes, startv, r.clusters, dmem, ring, upsets, fix, mpos, takes, front, inject, arb, rwd, easels, canvas,
      cells, mlog, lanes, io, disabled, fightSeen, releasing, resetDue, configured, live, rtcStatus, isoSub, isoWord⟩ c = r.cl c := rfl

/-! ### Bits -/

/-- A one-bit field is 0 where it is not 1. -/
theorem State.f_eq_zero_of_ne_one {s : State} {f : Fld} (hw : f.w = 1) (h : s.f f ≠ 1) : s.f f = 0 := by
  have := s.f_lt f
  rw [hw] at this
  omega

theorem State.rf_eq_zero_of_ne_one {s : State} {rg : Rg} {f : Fld} (hw : f.w = 1) (h : s.rf rg f ≠ 1) : s.rf rg f = 0 := by
  have := s.rf_lt rg f
  rw [hw] at this
  omega

/-! ### Frames -/

theorem Completes.of_eq {c : Instr} {s : State} {P : State → Prop} (t : State) (h : exec c s = .next t) (hP : P t) : Completes c s P :=
  ⟨t, h, hP⟩

theorem OnlyRegs.refl (as : List Nat) (s : State) : OnlyRegs as s s := ⟨rfl, fun _ _ => rfl⟩

theorem OnlyRegs.setReg {as : List Nat} {s t : State} (h : OnlyRegs as s t) {a : Nat} (ha : a ∈ as) (v : Word) :
    OnlyRegs as s (t.setReg a v) := by
  obtain ⟨hs, hreg⟩ := h
  exact ⟨by rw [hs]; rfl, fun b hb => (State.reg_setReg_ne t v (ne_of_mem_of_not_mem ‹_ ∈ as› hb).symm).trans (hreg b hb)⟩

theorem OnlyRegs.setF {as : List Nat} {s t : State} (h : OnlyRegs as s t) {f : Fld} (hf : f.off ∈ as) (n : Nat) :
    OnlyRegs as s (t.setF f n) := h.setReg hf _

theorem OnlyRegs.bump {as : List Nat} {s t : State} (h : OnlyRegs as s t) {f : Fld} (hf : f.off ∈ as) (k : Nat) :
    OnlyRegs as s (t.bump f k) := h.setReg hf _

theorem OnlyRegs.set48 {as : List Nat} {s t : State} (h : OnlyRegs as s t) {lo hi : Nat} (hlo : lo ∈ as) (hhi : hi ∈ as)
    (v : BitVec 48) : OnlyRegs as s (t.set48 lo hi v) := (h.setReg hlo _).setReg hhi _

theorem OnlyRegion.refl (rg : Rg) (s : State) : OnlyRegion rg s s := ⟨rfl, fun _ _ => rfl⟩

theorem OnlyRegion.onRgn {rg : Rg} {s t : State} (h : OnlyRegion rg s t) (g : Region → Region) : OnlyRegion rg s (t.onRgn rg g) := by
  obtain ⟨hs, hrgn⟩ := h
  exact ⟨by rw [hs]; rfl, fun rh hrh => (State.rgn_onRgn_ne t g hrh).trans (hrgn rh hrh)⟩

theorem OnlyRegion.setRf {rg : Rg} {s t : State} (h : OnlyRegion rg s t) (f : Fld) (n : Nat) : OnlyRegion rg s (t.setRf rg f n) :=
  h.onRgn _

theorem OnlyRegion.bumpR {rg : Rg} {s t : State} (h : OnlyRegion rg s t) (f : Fld) (k : Nat) : OnlyRegion rg s (t.bumpR rg f k) :=
  h.onRgn _

theorem OnlyRegion.trans {rg : Rg} {s t u : State} (h : OnlyRegion rg s t) (h' : OnlyRegion rg t u) : OnlyRegion rg s u := by
  obtain ⟨hs, hrgn⟩ := h
  obtain ⟨hs', hrgn'⟩ := h'
  exact ⟨by rw [hs', hs], fun rh hrh => (hrgn' rh hrh).trans (hrgn rh hrh)⟩

theorem OnlyRgnRegs.refl (rg : Rg) (as : List Nat) (s : State) : OnlyRgnRegs rg as s s := ⟨.refl rg s, rfl, fun _ _ => rfl⟩

theorem OnlyRgnRegs.setReg {rg : Rg} {as : List Nat} {s t : State} (h : OnlyRgnRegs rg as s t) {a : Nat} (ha : a ∈ as) (v : Word) :
    OnlyRgnRegs rg as s (t.onRgn rg fun r => r.setReg a v) := by
  obtain ⟨hs, hr, hreg⟩ := h
  refine ⟨hs.onRgn _, ?_, fun b hb => ?_⟩
  · rw [State.rgn_onRgn_same, hr]; rfl
  · rw [State.rgn_onRgn_same, Region.reg_setReg_ne _ v (ne_of_mem_of_not_mem ‹_ ∈ as› hb).symm]
    exact hreg b hb

theorem OnlyRgnRegs.setRf {rg : Rg} {as : List Nat} {s t : State} (h : OnlyRgnRegs rg as s t) {f : Fld} (hf : f.off ∈ as) (n : Nat) :
    OnlyRgnRegs rg as s (t.setRf rg f n) := by
  obtain ⟨hs, hr, hreg⟩ := h
  refine ⟨hs.onRgn _, ?_, fun b hb => ?_⟩
  · rw [State.setRf, State.rgn_onRgn_same, hr]; rfl
  · rw [State.setRf, State.rgn_onRgn_same, Region.setF, Region.reg_setReg_ne _ _ (ne_of_mem_of_not_mem ‹_ ∈ as› hb).symm]
    exact hreg b hb

theorem OnlyRgnRegs.bumpR {rg : Rg} {as : List Nat} {s t : State} (h : OnlyRgnRegs rg as s t) {f : Fld} (hf : f.off ∈ as) (k : Nat) :
    OnlyRgnRegs rg as s (t.bumpR rg f k) := by
  obtain ⟨hs, hr, hreg⟩ := h
  refine ⟨hs.onRgn _, ?_, fun b hb => ?_⟩
  · rw [State.bumpR, State.rgn_onRgn_same, hr]; rfl
  · rw [State.bumpR, State.rgn_onRgn_same, Region.bump, Region.setF, Region.reg_setReg_ne _ _ (ne_of_mem_of_not_mem ‹_ ∈ as› hb).symm]
    exact hreg b hb

end Sys2Proof.Machine
end

section
/-! PROOFS. The common command codes of the I3C target (R382). -/

namespace Sys2Proof.Machine

/-! ### Bytes, the most significant first -/

theorem beBytes_length (n v : Nat) : (beBytes n v).length = n := by
  have hlen : ∀ v, (bytesOf n v).length = n := by
    induction n with
    | zero => exact fun _ => rfl
    | succ n ih => exact fun v => congrArg (· + 1) (ih (v / 256))
  rw [beBytes, List.length_reverse, hlen]

/-- Two bytes: the upper half, then the lower. -/
theorem beBytes_two (v : Nat) : beBytes 2 v = [BitVec.ofNat 8 (v / 256), BitVec.ofNat 8 v] := rfl

/-! ### The target hears -/

theorem State.hears_of_direct {s : State} (h : s.i3cDirect = true) : s.i3cHears = true ∧ s.f F.HIF_STATUS_DA_VALID ≠ 0 := by
  simpa [State.i3cDirect, State.bit] using h

theorem State.hdr_of_hears {s : State} (h : s.i3cHears = true) : s.f F.HIF_STATUS_HDR = 0 := by
  obtain ⟨-, hhdr⟩ : (s.i3cUp = true ∧ s.i3c.deaf = false) ∧ s.f F.HIF_STATUS_HDR = 0 := by
    simpa [State.i3cHears, State.bit] using h
  exact hhdr

theorem State.hubPowered_of_hears {s : State} (h : s.i3cHears = true) : s.hubPowered = true := by
  have hup : s.i3cUp = true := by
    simp only [State.i3cHears, Bool.and_eq_true] at h
    exact h.1.1
  have hboot : s.pwr.boot = .selfTest ∨ s.pwr.boot = .calibration ∨ s.pwr.boot = .up := by simpa [State.i3cUp] using hup
  rcases hboot with hb | hb | hb <;> simp [State.hubPowered, hb]

/-! ### GET codes -/

/-- A GET code is answered at the dynamic address: nothing but the bytes sent changes. -/
theorem getStatus_answer {s : State} (h : s.i3cDirect = true) :
    exec .getstatus s = .next (sendI3c { s with i3c := { s.i3c with protoErr := false } }
      [BitVec.ofNat 8 (packKey [(min s.ibiCount 15, 4), (0, 1), (s.i3c.protoErr.toNat, 1), (0, 2), ((i3cStatus s).toNat, 8)] / 256),
       BitVec.ofNat 8 (packKey [(min s.ibiCount 15, 4), (0, 1), (s.i3c.protoErr.toNat, 1), (0, 2), ((i3cStatus s).toNat, 8)])]) :=
  congrArg Host.Outcome.next (if_neg (not_not.mpr h))

/-- Settles O43: each code's answer stands in the bytes sent; GETSTATUS also clears the protocol error. -/
theorem getCommandCodes : Obligations.GetCommandCodes := by
  unfold Obligations.GetCommandCodes
  refine ⟨fun s h => ⟨_, congrArg Host.Outcome.next (if_pos h), rfl⟩, fun s h => ⟨_, congrArg Host.Outcome.next (if_pos h), rfl⟩,
    fun s h => ⟨_, congrArg Host.Outcome.next (if_pos h), rfl⟩, fun s h => ⟨_, congrArg Host.Outcome.next (if_pos h), rfl⟩,
    fun s h => ⟨_, congrArg Host.Outcome.next (if_pos h), rfl⟩, fun s h => ⟨_, congrArg Host.Outcome.next (if_pos h), rfl⟩,
    fun s h => ⟨_, getStatus_answer h, rfl, rfl, ?_, ?_, ?_⟩⟩
  · refine BitVec.eq_of_toNat_eq ?_
    have := (i3cStatus s).isLt
    simp only [sendI3c, packKey, List.getD_cons_zero, BitVec.toNat_ofNat]
    cases s.i3c.protoErr <;> simp <;> omega
  · simp only [sendI3c, packKey, List.getD_cons_succ, List.getD_cons_zero, BitVec.getLsbD_ofNat, Nat.testBit_eq_decide_div_mod_eq]
    cases s.i3c.protoErr <;> simp <;> omega
  · simp only [sendI3c, packKey, List.getD_cons_succ, List.getD_cons_zero, BitVec.toNat_ofNat]
    omega

/-! ### The dynamic address -/

theorem setDa_address (s : State) (da : BitVec 7) :
    (setDa s da).f F.HIF_STATUS_DA_VALID = 1 ∧ (setDa s da).f F.HIF_STATUS_DA = da.toNat ∧ (setDa s da).i3c = { s.i3c with joinDue := false } := by
  have hda := da.isLt
  refine ⟨?_, ?_, rfl⟩
  · show ((s.setF F.HIF_STATUS_DA da.toNat).setF F.HIF_STATUS_DA_VALID 1).f F.HIF_STATUS_DA_VALID = 1
    simp
  · show ((s.setF F.HIF_STATUS_DA da.toNat).setF F.HIF_STATUS_DA_VALID 1).f F.HIF_STATUS_DA = da.toNat
    simp; omega

/-! ### RSTACT 2: a reset of the package -/

@[simp] theorem State.ibi_pwr (s : State) (cls loc arg : Nat) : (s.ibi cls loc arg).pwr = s.pwr := by
  unfold State.ibi
  dsimp only
  split
  · rfl
  · split <;> rfl

@[simp] theorem clearPart_pwr (s : State) : (clearPart s).pwr = s.pwr := by
  unfold clearPart
  dsimp only
  rw [foldS_keeps State.pwr (fun s rg => by simp)]

theorem State.packageResetting_of_pwr {s t : State} (h : t.pwr = s.pwr) : t.packageResetting = s.packageResetting :=
  congrArg (fun p : PowerCtl => decide (SMap.get Drain.none p.drains 4 = .reset)) h

/-- During a reset of the package no quadrant's reset is requested (R24). -/
theorem requestQuadResets_of_resetting {s : State} (h : s.packageResetting = true) : requestQuadResets s = s := by
  have hquad (q : Nat) : requestQuadReset s q = s := if_pos (.inr h)
  show foldS [0, 1, 2, 3] s requestQuadReset = s
  simp [foldS, hquad]

theorem failLoad_pwr_of_resetting {s : State} (h : s.packageResetting = true) (code : Nat) (rg : Rg) (ix ofs : Nat) :
    (failLoad s code rg ix ofs).pwr = s.pwr := by
  unfold failLoad
  extract_lets s1 s2 s3 s4 sram
  have hpwr : (clearPart { s4 with load := {}, keys := [], sram := sram }).pwr = s.pwr := by
    rw [clearPart_pwr]
    show (State.ibi _ _ _ _).pwr = _
    rw [State.ibi_pwr]
    show s1.pwr = _
    dsimp only [s1]
    split <;> rfl
  rw [requestQuadResets_of_resetting ((State.packageResetting_of_pwr hpwr).trans h), hpwr]

theorem abandonLoad_pwr_of_resetting {s : State} (h : s.packageResetting = true) : (abandonLoad s).pwr = s.pwr := by
  unfold abandonLoad
  split
  · exact failLoad_pwr_of_resetting h _ _ _ _
  · split
    · rfl
    · rfl

/-- A request that is not merged puts the package into its reset, with its cause (R22, R24). -/
theorem requestPackageReset_drain {s : State} (hr : s.packageResetting = false) (hp : s.hubPowered = true) (cause : Nat) :
    (requestPackageReset s cause).drainOf 4 = .reset ∧ (requestPackageReset s cause).pwr.cause = BitVec.ofNat 3 cause := by
  have hnot : ¬ (s.packageResetting = true ∨ ¬ s.hubPowered = true) := by simp [hr, hp]
  rw [requestPackageReset, if_neg hnot]
  dsimp only
  rw [State.drainOf, abandonLoad_pwr_of_resetting (by simp [State.packageResetting, State.drainOf, State.setDrain])]
  exact ⟨by simp [State.setDrain], rfl⟩

/-! ### The codes that set something -/

theorem exec_enec_of_hears {s : State} (h : s.i3cHears = true) (hj : Bool) :
    Completes (.enec true hj) s (fun t => t.f F.HIF_STATUS_INT_EN = 1 ∧ (hj = true → t.f F.HIF_STATUS_HJ_ENC = 1) ∧
      (hj = false → t.f F.HIF_STATUS_HJ_ENC = s.f F.HIF_STATUS_HJ_ENC)) := by
  refine ⟨_, congrArg Host.Outcome.next (if_neg (not_not.mpr h)), ?_⟩
  cases hj <;> simp

theorem exec_disec_of_hears {s : State} (h : s.i3cHears = true) (hj : Bool) :
    Completes (.disec true hj) s (fun t => t.f F.HIF_STATUS_INT_EN = 0 ∧ t.reg R.HIF_IBI_PEND = s.reg R.HIF_IBI_PEND ∧
      (hj = true → t.f F.HIF_STATUS_HJ_ENC = 0 ∧ t.i3c.joinDue = false)) := by
  refine ⟨_, congrArg Host.Outcome.next (if_neg (not_not.mpr h)), ?_⟩
  cases hj
  · simp
  · show ((s.setF F.HIF_STATUS_INT_EN 0).setF F.HIF_STATUS_HJ_ENC 0).f F.HIF_STATUS_INT_EN = 0 ∧
      ((s.setF F.HIF_STATUS_INT_EN 0).setF F.HIF_STATUS_HJ_ENC 0).reg R.HIF_IBI_PEND = s.reg R.HIF_IBI_PEND ∧
      (true = true → ((s.setF F.HIF_STATUS_INT_EN 0).setF F.HIF_STATUS_HJ_ENC 0).f F.HIF_STATUS_HJ_ENC = 0 ∧ false = false)
    simp

theorem exec_rstact_logic {s : State} (h : s.i3cHears = true) :
    Completes (.rstact 1) s (fun t => t.f F.HIF_ACC_STAT_RESULT = 0 ∧ t.f F.HIF_STATUS_DA = s.f F.HIF_STATUS_DA ∧
      t.f F.HIF_STATUS_DA_VALID = s.f F.HIF_STATUS_DA_VALID) := by
  refine ⟨_, congrArg Host.Outcome.next ((if_neg (not_not.mpr h)).trans (if_pos rfl)), ?_⟩
  simp

/-- Settles O42: each code does its one update of the address, the enables, the limits or the HDR mode. -/
theorem commonCommandCodes : Obligations.CommonCommandCodes := by
  unfold Obligations.CommonCommandCodes
  refine ⟨fun hj s h => exec_enec_of_hears h hj, fun hj s h => exec_disec_of_hears h hj, fun s => ⟨s, rfl, rfl⟩, fun s => ⟨s, rfl, rfl⟩,
    fun s => ⟨s, rfl, rfl⟩, fun s => ⟨s, rfl, rfl⟩, ?rstdaa, ?entdaa, ?setdasa, ?setnewda, ?setmwl, ?setmrl, ?hdr, ?noHdr, ?exit,
    fun s h => exec_rstact_logic h, ?restart⟩
  case rstdaa =>
    intro s h
    refine ⟨_, congrArg Host.Outcome.next (if_neg (not_not.mpr h)), ?_⟩
    simp
  case entdaa =>
    intro da s ⟨h, hda⟩
    have hno : ¬ (¬ s.i3cHears = true ∨ s.bit F.HIF_STATUS_DA_VALID = true) := by simp [h, State.bit, hda]
    obtain ⟨hvalid, haddr, hi3c⟩ := setDa_address (sendI3c s (beBytes 6 s.pid ++ [bcr, dcr])) da
    exact ⟨_, congrArg Host.Outcome.next (if_neg hno), hvalid, haddr, by rw [hi3c]; rfl, by rw [hi3c]⟩
  case setdasa =>
    intro da s ⟨h, hda⟩
    have hsel := s.f_lt F.HIF_PINS_ADDR_SEL
    have hno : ¬ (¬ s.i3cHears = true ∨ s.bit F.HIF_STATUS_DA_VALID = true ∨
        (BitVec.ofNat 7 (0x30 + s.f F.HIF_PINS_ADDR_SEL)).toNat ≠ 0x30 + s.f F.HIF_PINS_ADDR_SEL) := by
      simp [h, State.bit, hda]
      simp at hsel
      omega
    obtain ⟨hvalid, haddr, -⟩ := setDa_address s da
    exact ⟨_, congrArg Host.Outcome.next (if_neg hno), hvalid, haddr⟩
  case setnewda =>
    intro da s h
    obtain ⟨hvalid, haddr, -⟩ := setDa_address s da
    exact ⟨_, congrArg Host.Outcome.next (if_pos h), hvalid, haddr⟩
  case setmwl =>
    intro n s h
    refine ⟨_, congrArg Host.Outcome.next (if_neg (not_not.mpr h)), ?_, rfl, rfl⟩
    dsimp only
    split <;> simp <;> omega
  case setmrl =>
    intro n s h
    refine ⟨_, congrArg Host.Outcome.next (if_neg (not_not.mpr h)), ?_, rfl, rfl⟩
    dsimp only
    split <;> simp <;> omega
  case hdr =>
    intro s ⟨h, hen⟩
    have hbit : s.bit F.HIF_CTRL_HDR_EN = true := by simp [State.bit, hen]
    refine ⟨_, congrArg Host.Outcome.next ((if_neg (not_not.mpr h)).trans (if_pos hbit)), ?_, rfl⟩
    simp
  case noHdr =>
    intro s ⟨h, hen⟩
    have hbit : ¬ s.bit F.HIF_CTRL_HDR_EN = true := by simp [State.bit, hen]
    refine ⟨_, congrArg Host.Outcome.next ((if_neg (not_not.mpr h)).trans (if_neg hbit)), ?_, by simp [State.i3cHears]⟩
    exact (State.hdr_of_hears h :)
  case exit =>
    intro s
    refine ⟨_, rfl, ?_, rfl⟩
    simp
  case restart =>
    intro s ⟨h, hr⟩
    exact ⟨_, congrArg Host.Outcome.next ((if_neg (not_not.mpr h)).trans ((if_neg (by decide)).trans (if_pos rfl))),
      requestPackageReset_drain hr (State.hubPowered_of_hears h) 3⟩

end Sys2Proof.Machine
end

section
/-! PROOFS. The hub GPIO: its peripherals (R400, R401) and its pins (R394 to R400). -/

namespace Sys2Proof.Machine

/-! ### UART -/

@[simp] theorem showUart_gpio (s : State) : (showUart s).gpio = s.gpio := rfl

theorem showUart_counts {s : State} (hrx : s.gpio.uartRx.length ≤ 16) :
    (showUart s).f F.GPIO_UART_STAT_RX_COUNT = s.gpio.uartRx.length ∧
      (showUart s).f F.GPIO_UART_STAT_TX_FREE = 16 - s.gpio.uartTx.length := by
  constructor
  · simp [showUart]; omega
  · simp [showUart]; omega

theorem showUart_txFree (s : State) : (showUart s).f F.GPIO_UART_STAT_TX_FREE = 16 - s.gpio.uartTx.length := by
  simp [showUart]; omega

theorem exec_spiByteEnd_of_heard {s : State} {rx b : BitVec 8} (hspi : s.gpio.spi = some b) (hrun : s.gpioRuns = true)
    (hen : s.f F.GPIO_FUNC_SPI_EN = 1) (hpark : s.gpio.parked.getLsbD 4 = false) :
    Completes (.spiByteEnd rx) s (fun t => t.gpio.spi = none ∧ t.f F.GPIO_SPI_DATA_BYTE = rx.toNat ∧ t.f F.GPIO_SPI_DATA_BUSY = 0) := by
  have hno : ¬ (s.gpio.spi = none ∨ ¬ s.gpioRuns = true) := by simp [hspi, hrun]
  have hrx := rx.isLt
  refine ⟨_, congrArg Host.Outcome.next (if_neg hno), rfl, ?_, ?_⟩
  · have hheard : (s.bit F.GPIO_FUNC_SPI_EN && !s.gpio.parked.getLsbD 4) = true := by rw [hpark]; simp [State.bit, hen]
    simp [-BitVec.getLsbD_eq_getElem, hheard]; omega
  · simp

theorem exec_tachEdge_of_fan {s : State} (fan : Bool) (us : BitVec 16)
    (hpin : pinFunction (s.f ⟨R.GPIO_FUNC, 0, 8⟩) (if fan then 9 else 7) = if fan then 4 else 3)
    (hpark : s.gpio.parked.getLsbD (if fan then 9 else 7) = false) :
    Completes (.tachEdge fan us) s (fun t => t.f (F.GPIO_FAN_TACH_US fan.toNat) = us.toNat) := by
  have hno : ¬ (pinFunction (s.f ⟨R.GPIO_FUNC, 0, 8⟩) (if fan then 9 else 7) ≠ (if fan then 4 else 3) ∨
      s.gpio.parked.getLsbD (if fan then 9 else 7) = true) := by simp [hpin, hpark]
  have hus := us.isLt
  refine ⟨_, congrArg Host.Outcome.next (if_neg hno), ?_⟩
  dsimp only
  rw [State.f_setF_eq _ _ _ (by simp)]
  exact Nat.mod_eq_of_lt hus

theorem exec_capture_of_input {s : State} (falling : Bool)
    (h : s.f F.GPIO_FUNC_CAP_SEL = 0 ∧ pinFunction (s.f ⟨R.GPIO_FUNC, 0, 8⟩) 10 = 5 ∧ s.gpio.parked.getLsbD 10 = false ∧
      s.gpioRuns = true) (hedge : s.f F.GPIO_CAP_CFG_EDGE = 2) :
    Completes (.capture falling) s (fun t => t.gpio.capture = s.mer.tick ∧ t.reg R.GPIO_CAP_LO = s.mer.tick.truncate 32 ∧
      t.f F.GPIO_CAP_CFG_VALID = 1 ∧ (s.f F.GPIO_CAP_CFG_VALID = 1 → t.f F.GPIO_CAP_CFG_OVERRUN = 1)) := by
  obtain ⟨hsel, hpin, hpark, hrun⟩ := h
  have hbit : s.bit F.GPIO_FUNC_CAP_SEL = false := by simp [State.bit, hsel]
  have htakes : capTakes (s.f F.GPIO_CAP_CFG_EDGE) falling = true := by simp [capTakes, hedge]
  have harm : exec (.capture falling) s = .next
      ((State.setReg (seePad { (if s.bit F.GPIO_CAP_CFG_VALID then s.setF F.GPIO_CAP_CFG_OVERRUN 1 else s) with
        gpio := { s.gpio with capture := s.mer.tick } } 10 (!falling)) R.GPIO_CAP_LO (s.mer.tick.truncate 32)).setF
          F.GPIO_CAP_CFG_VALID 1) := by
    have hno : ¬ (pinFunction (s.f ⟨R.GPIO_FUNC, 0, 8⟩) 10 ≠ 5 ∨ s.gpio.parked.getLsbD 10 = true ∨ ¬ s.gpioRuns = true ∨
        ¬ capTakes (s.f F.GPIO_CAP_CFG_EDGE) falling = true) := by simp only [hpin, hpark, hrun, htakes]; simp
    show execCapture falling s = _
    unfold execCapture
    simp only [hbit, Bool.false_eq_true, if_false]
    rw [if_neg hno]
    split <;> rfl
  refine ⟨_, harm, ?_, ?_, ?_, fun hvalid => ?_⟩
  · rfl
  · simp
  · simp
  · have hv : s.bit F.GPIO_CAP_CFG_VALID = true := by simp [State.bit, hvalid]
    simp [hv, seePad]

/-- Settles O47: each peripheral moves its byte between its queue, its register and the counts shown. -/
theorem gpioPeripherals : Obligations.GpioPeripherals := by
  unfold Obligations.GpioPeripherals
  refine ⟨?write, ?drop, ?read, ?rx, ?overrun, ?tx, ?spi, ?busy, fun rx b s ⟨hspi, hrun, hen, hpark⟩ =>
    exec_spiByteEnd_of_heard hspi hrun hen hpark, fun us s ⟨hpin, hpark⟩ => exec_tachEdge_of_fan true us hpin hpark,
    fun us s ⟨hpin, hpark⟩ => exec_tachEdge_of_fan false us hpin hpark, fun falling s h hedge => exec_capture_of_input falling h hedge,
    ?capRead⟩
  case write =>
    intro b w s ⟨hown, hroom⟩
    refine ⟨_, congrArg Host.Outcome.next ((if_neg (not_not.mpr hown)).trans (if_neg (by omega))), rfl, ?_⟩
    rw [showUart_txFree]
    simp
  case drop =>
    intro b w s ⟨hown, hfull⟩
    exact ⟨_, congrArg Host.Outcome.next ((if_neg (not_not.mpr hown)).trans (if_pos hfull)), rfl⟩
  case read =>
    intro b rest s hrx
    have hread : readUart s = (b.zeroExtend 32, (showUart { s with gpio := { s.gpio with uartRx := rest } }).setF F.GPIO_UART_STAT_EMPTY 0) := by
      simp [readUart, hrx]
    refine ⟨_, congrArg (fun x : Word × State => Host.Outcome.next x.2) hread, rfl, ?_⟩
    simp
  case rx =>
    intro b s ⟨hhears, hroom⟩
    refine ⟨_, congrArg Host.Outcome.next ((if_neg (not_not.mpr hhears)).trans (if_neg (by simpa using hroom))), rfl, ?_⟩
    refine (showUart_counts ?_).1.trans ?_ <;> simp <;> omega
  case overrun =>
    intro b s ⟨hhears, hfull⟩
    exact ⟨_, congrArg Host.Outcome.next ((if_neg (not_not.mpr hhears)).trans (if_pos hfull)), rfl⟩
  case tx =>
    intro b rest s ⟨htx, hen, hrun⟩
    have hno : ¬ (¬ s.bit F.GPIO_FUNC_UART_EN = true ∨ ¬ s.gpioRuns = true) := by simp [State.bit, hen, hrun]
    refine ⟨_, congrArg Host.Outcome.next (if_neg hno), ?_⟩
    simp [htx]
  case spi =>
    intro b cs w s ⟨hown, hbusy⟩
    have hno : ¬ (¬ s.ownsPin w 2 = true ∨ s.bit F.GPIO_SPI_DATA_BUSY = true) := by simp [State.bit, hown, hbusy]
    refine ⟨_, congrArg Host.Outcome.next (if_neg hno), rfl, ?_, ?_⟩
    · simp
    · cases cs <;> simp
  case busy =>
    intro b cs w s ⟨hown, hbusy⟩
    exact ⟨_, congrArg Host.Outcome.next (if_pos (.inr (by simp [State.bit, hbusy]))), rfl⟩
  case capRead =>
    intro s
    refine ⟨_, rfl, ?_, ?_⟩ <;> simp [readCapture]

/-! ### Bits of a mask -/

/-- A list of one-bit fields packs into the number of these bits. -/
theorem testBit_packKey_bits (l : List Bool) (i : Nat) :
    (packKey (l.map fun b => (b.toNat, 1))).testBit i = l.getD i false := by
  induction l generalizing i with
  | nil => simp [packKey]
  | cons b l ih =>
    have hb : b.toNat % 2 ^ 1 = b.toNat := by cases b <;> rfl
    simp only [List.map_cons, packKey, hb]
    cases i with
    | zero => cases b <;> simp <;> omega
    | succ i =>
      rw [Nat.testBit_add_one, show (b.toNat + 2 ^ 1 * packKey (l.map fun b => (b.toNat, 1))) / 2 =
        packKey (l.map fun b => (b.toNat, 1)) by cases b <;> simp <;> omega, ih]
      rfl

/-- The mask of the pins of which `p` holds. -/
theorem getLsbD_pinMask (p : Nat → Bool) {i : Nat} (h : i < 12) :
    (BitVec.ofNat 12 (packKey ((List.range 12).map fun i => ((p i).toNat, 1)))).getLsbD i = p i := by
  have hmap : (List.range 12).map (fun i => ((p i).toNat, 1)) = ((List.range 12).map p).map fun b => (b.toNat, 1) := by simp
  rw [BitVec.getLsbD_ofNat, hmap, testBit_packKey_bits]
  simp [h, List.getD_eq_getElem?_getD]

/-- Flipping each bit of a list without repetition flips exactly the bits listed. -/
theorem testBit_foldl_flip {l : List Nat} (hl : l.Nodup) (x i : Nat) :
    (l.foldl (fun x b => x ^^^ 2 ^ b) x).testBit i = (x.testBit i ^^ decide (i ∈ l)) := by
  induction l generalizing x with
  | nil => simp
  | cons b l ih =>
    obtain ⟨hb, hl⟩ := List.nodup_cons.mp hl
    rw [List.foldl_cons, ih hl, Nat.testBit_xor, Nat.testBit_two_pow]
    by_cases hi : i = b
    · subst hi; simp [hb]
    · simp [hi, Ne.symm hi]

theorem getLsbD_setBit_same {n : Nat} (x : BitVec n) {i : Nat} (b : Bool) (h : i < n) : (setBit x i b).getLsbD i = b := by
  unfold setBit setBits
  cases b <;> simp [h]

/-! ### Outputs -/

@[simp] theorem showPads_f (s : State) (x : Fld) : (showPads s).f x = s.f x := rfl
@[simp] theorem showPads_reg (s : State) (a : Nat) : (showPads s).reg a = s.reg a := rfl

theorem writeOut_regs (s : State) (mask : BitVec 12) (w : Writer) (set : Bool) :
    (writeOut s mask w set).f F.GPIO_OUT_DATA =
        (if set then BitVec.ofNat 12 (s.f F.GPIO_OUT_DATA) ||| s.ownedPins w mask
          else BitVec.ofNat 12 (s.f F.GPIO_OUT_DATA) &&& ~~~ s.ownedPins w mask).toNat ∧
      (writeOut s mask w set).f F.GPIO_DENIED_WRITES =
        min (s.f F.GPIO_DENIED_WRITES + ones (mask &&& ~~~ s.ownedPins w mask)) F.GPIO_DENIED_WRITES.max ∧
      (writeOut s mask w set).f F.GPIO_DIR_OUT = s.f F.GPIO_DIR_OUT := by
  refine ⟨?_, ?_, ?_⟩
  · simp only [writeOut, State.gpioDenied, showPads_f]
    rw [State.f_bump_other _ _ _ _ (by simp) (by simp), State.f_setF_eq _ _ _ (by simp)]
    exact Nat.mod_eq_of_lt (BitVec.isLt _)
  · simp only [writeOut, State.gpioDenied, showPads_f]
    rw [State.f_bump_eq _ _ _ (by simp), State.f_setF_other _ _ _ _ (by simp) (by simp)]
  · simp [writeOut, State.gpioDenied]

/-! ### Functions -/

theorem changeFunc_func (s : State) {v : Nat} (hv : v < 256) : (changeFunc s v).f ⟨R.GPIO_FUNC, 0, 8⟩ = v := by
  simp only [changeFunc, State.f_mk]
  split
  · rw [State.f_setF_other _ _ _ _ (by simp) (by simp), State.f_setF_eq _ _ _ (by simp)]
    exact Nat.mod_eq_of_lt hv
  · rw [State.f_setF_eq _ _ _ (by simp)]
    exact Nat.mod_eq_of_lt hv

theorem changeFunc_denied (s : State) (v : Nat) : (changeFunc s v).f F.GPIO_DENIED_WRITES = s.f F.GPIO_DENIED_WRITES := by
  simp only [changeFunc, State.f_mk]
  split <;> simp

/-- Every pin whose function changes is parked, and no other pin's park changes (R395). -/
theorem changeFunc_parked (s : State) (v : Nat) (i : PinNo) :
    (changeFunc s v).gpio.parked.getLsbD i.val = (s.gpio.parked.getLsbD i.val ||
      (pinFunction (s.f ⟨R.GPIO_FUNC, 0, 8⟩) i.val != pinFunction v i.val)) := by
  unfold changeFunc
  generalize s.f ⟨R.GPIO_FUNC, 0, 8⟩ = old
  have hmask := getLsbD_pinMask (fun i => pinFunction old i != pinFunction v i) i.isLt
  dsimp only
  rw [apply_ite State.gpio, State.setF_gpio, ite_self, State.setF_gpio, BitVec.getLsbD_or, hmask]

/-- The bits of GPIO.FUNC that a write changes, and those of them whose peripherals the writer owns whole (R394, R396). -/
def funcMoved (old : Nat) (v : BitVec 8) : List Nat := (List.range 8).filter (fun b => old.testBit b != v.getLsbD b)
def funcOwned (s : State) (w : Writer) (l : List Nat) : List Nat := l.filter (fun b => (funcPins b).all (s.ownsPin w))

theorem funcOwned_nodup (s : State) (w : Writer) (old : Nat) (v : BitVec 8) : (funcOwned s w (funcMoved old v)).Nodup :=
  (List.nodup_range.filter _).filter _

theorem writeFunc_eq (s : State) (v : BitVec 8) (w : Writer) (old : Nat) (h : old = s.f ⟨R.GPIO_FUNC, 0, 8⟩) :
    writeFunc s v w = (changeFunc s ((funcOwned s w (funcMoved old v)).foldl (fun x b => x ^^^ 2 ^ b) old)).gpioDenied
      ((funcMoved old v).length - (funcOwned s w (funcMoved old v)).length) := by
  subst h; rfl

/-- A bit of the value that a write leaves in GPIO.FUNC. -/
theorem testBit_newFunc (s : State) (v : BitVec 8) (w : Writer) (old : Nat) {b : Nat} (hb : b < 8) :
    ((funcOwned s w (funcMoved old v)).foldl (fun x b => x ^^^ 2 ^ b) old).testBit b =
      if (funcPins b).all (s.ownsPin w) then v.getLsbD b else old.testBit b := by
  rw [testBit_foldl_flip (funcOwned_nodup s w old v)]
  have hmem : b ∈ funcOwned s w (funcMoved old v) ↔ old.testBit b ≠ v.getLsbD b ∧ (funcPins b).all (s.ownsPin w) = true := by
    simp only [funcOwned, funcMoved, List.mem_filter, List.mem_range, bne_iff_ne, ne_eq]
    tauto
  split
  case isTrue hown =>
    have hdec : decide (b ∈ funcOwned s w (funcMoved old v)) = (old.testBit b != v.getLsbD b) := by
      rw [Bool.eq_iff_iff]; simp [hmem, hown]
    rw [hdec]
    cases old.testBit b <;> cases v.getLsbD b <;> rfl
  case isFalse hown =>
    have hno : b ∉ funcOwned s w (funcMoved old v) := fun h => hown (hmem.mp h).2
    simp [hno]

theorem newFunc_lt (s : State) (v : BitVec 8) (w : Writer) {old : Nat} (hold : old < 256) :
    (funcOwned s w (funcMoved old v)).foldl (fun x b => x ^^^ 2 ^ b) old < 256 := by
  refine Nat.lt_pow_two_of_testBit (n := 8) _ fun i hi => ?_
  rw [testBit_foldl_flip (funcOwned_nodup s w old v)]
  have hold : old.testBit i = false := Nat.testBit_lt_two_pow (lt_of_lt_of_le hold (Nat.pow_le_pow_right (n := 2) (i := 8) (by decide) hi))
  have hno : i ∉ funcOwned s w (funcMoved old v) := by simp [funcOwned, funcMoved]; omega
  simp [hold, hno]

theorem newFunc_of_owner {s : State} {w : Writer} (hown : ∀ i : PinNo, s.ownsPin w i.val = true) (v : BitVec 8) {old : Nat}
    (hold : old < 256) : (funcOwned s w (funcMoved old v)).foldl (fun x b => x ^^^ 2 ^ b) old = v.toNat := by
  have hall : ∀ b < 8, (funcPins b).all (s.ownsPin w) = true := by
    intro b _
    have hpin : ∀ i < 12, s.ownsPin w i = true := fun i hi => hown ⟨i, hi⟩
    rw [List.all_eq_true]
    intro i hi
    refine hpin i ?_
    have hlt : ∀ b < 8, ∀ i ∈ funcPins b, i < 12 := by decide
    exact hlt b ‹_› i hi
  refine Nat.eq_of_testBit_eq fun i => ?_
  by_cases hi : i < 8
  · rw [testBit_newFunc s v w old hi, if_pos (hall i hi)]; rfl
  · rw [Nat.testBit_lt_two_pow (lt_of_lt_of_le (newFunc_lt s v w hold) (Nat.pow_le_pow_right (n := 2) (i := 8) (by decide) (by omega))),
      Nat.testBit_lt_two_pow (lt_of_lt_of_le v.isLt (Nat.pow_le_pow_right (by decide) (by omega)))]

theorem exec_funcChange_of_owner {s : State} {w : Writer} (hown : ∀ i : PinNo, s.ownsPin w i.val = true) (v : BitVec 8) :
    Completes (.funcChange v w) s (fun t => t.f ⟨R.GPIO_FUNC, 0, 8⟩ = v.toNat ∧
      (∀ i : PinNo, pinFunction (s.f ⟨R.GPIO_FUNC, 0, 8⟩) i.val ≠ pinFunction v.toNat i.val → t.gpio.parked.getLsbD i.val = true) ∧
      (∀ i : PinNo, pinFunction (s.f ⟨R.GPIO_FUNC, 0, 8⟩) i.val = pinFunction v.toNat i.val →
        t.gpio.parked.getLsbD i.val = s.gpio.parked.getLsbD i.val)) := by
  have hold := s.f_lt ⟨R.GPIO_FUNC, 0, 8⟩
  refine ⟨_, congrArg Host.Outcome.next (writeFunc_eq s v w _ rfl), ?_⟩
  rw [newFunc_of_owner hown v hold, State.gpioDenied]
  refine ⟨?_, fun i hi => ?_, fun i hi => ?_⟩
  · rw [State.f_bump_other _ _ _ _ (by simp) (by simp), changeFunc_func s v.isLt]
  · rw [State.bump_gpio, changeFunc_parked, bne_iff_ne.mpr hi, Bool.or_true]
  · rw [State.bump_gpio, changeFunc_parked, hi, bne_self_eq_false, Bool.or_false]

theorem funcRefused_length (s : State) (w : Writer) (old : Nat) (v : BitVec 8) :
    (funcMoved old v).length - (funcOwned s w (funcMoved old v)).length =
      ((List.range 8).filter (fun b => old.testBit b != v.getLsbD b && !(funcPins b).all (s.ownsPin w))).length := by
  have hsum := List.length_eq_length_filter_add (l := funcMoved old v) (fun b => (funcPins b).all (s.ownsPin w))
  have hrest : (funcMoved old v).filter (fun b => !(funcPins b).all (s.ownsPin w)) =
      (List.range 8).filter (fun b => old.testBit b != v.getLsbD b && !(funcPins b).all (s.ownsPin w)) := by
    rw [funcMoved, List.filter_filter]
    congr 1
    funext b
    rw [Bool.and_comm]
  rw [hrest] at hsum
  rw [hsum, funcOwned, Nat.add_sub_cancel_left]

theorem exec_funcChange_bits (s : State) (w : Writer) (v : BitVec 8) :
    Completes (.funcChange v w) s (fun t => (∀ b : Fin 8, (t.f ⟨R.GPIO_FUNC, 0, 8⟩).testBit b.val =
        if (funcPins b.val).all (s.ownsPin w) then v.getLsbD b.val else (s.f ⟨R.GPIO_FUNC, 0, 8⟩).testBit b.val) ∧
      t.f F.GPIO_DENIED_WRITES = min (s.f F.GPIO_DENIED_WRITES +
        ((List.range 8).filter (fun b => (s.f ⟨R.GPIO_FUNC, 0, 8⟩).testBit b != v.getLsbD b && !(funcPins b).all (s.ownsPin w))).length)
          F.GPIO_DENIED_WRITES.max) := by
  have hold := s.f_lt ⟨R.GPIO_FUNC, 0, 8⟩
  refine ⟨_, congrArg Host.Outcome.next (writeFunc_eq s v w _ rfl), fun b => ?_, ?_⟩
  · rw [State.gpioDenied, State.f_bump_other _ _ _ _ (by simp) (by simp), changeFunc_func s (newFunc_lt s v w hold),
      testBit_newFunc s v w _ b.isLt]
  · rw [State.gpioDenied, State.f_bump_eq _ _ _ (by simp), changeFunc_denied, funcRefused_length]

theorem exec_parkEnd_of_parked {s : State} {i : PinNo} (hpark : s.gpio.parked.getLsbD i.val = true) (hheld : s.gpio.held = false)
    (htest : s.dbg.testing = none) :
    Completes (.parkEnd i) s (fun t => t.gpio.parked.getLsbD i.val = false ∧
      t.gpio.periph.getLsbD i.val = (pinFunction (s.f ⟨R.GPIO_FUNC, 0, 8⟩) i.val != 0) ∧
      (∀ j : PinNo, j ≠ i → t.gpio.parked.getLsbD j.val = s.gpio.parked.getLsbD j.val)) := by
  have hno : ¬ (¬ s.gpio.parked.getLsbD i.val = true ∨ s.gpio.held = true ∨ s.dbg.testing.isSome = true) := by
    rw [hpark, hheld, htest]; simp
  refine ⟨_, congrArg Host.Outcome.next (if_neg hno), ?_, ?_, fun j hj => ?_⟩
  · exact getLsbD_setBit_same _ _ i.isLt
  · exact getLsbD_setBit_same _ _ i.isLt
  · exact getLsbD_setBit_ne _ _ (fun e => hj (Fin.ext e))

/-! ### Pin interrupts -/

/-- An IBI class is pending once it is raised, and stays so (R389). -/
theorem State.ibi_pend (s : State) (cls loc arg : Nat) (h : cls < 32) : ((s.ibi cls loc arg).reg R.HIF_IBI_PEND).getLsbD cls = true := by
  unfold State.ibi
  dsimp only
  split
  case isTrue hp => rw [State.reg_bump_other _ _ _ (by simp)]; exact hp
  case isFalse =>
    have hpend : (s.reg R.HIF_IBI_PEND ||| BitVec.ofNat 32 (1 <<< cls)).getLsbD cls = true := by
      rw [BitVec.getLsbD_or, BitVec.getLsbD_ofNat]; simp [h]
    have hinfo : R.HIF_IBI_PEND ≠ 0x10020 + 4 * cls := by unfold R.HIF_IBI_PEND; omega
    rw [State.reg_setF_other _ _ _ hinfo, State.reg_setF_other _ _ _ hinfo]
    split
    · rw [State.reg_mk, State.reg_setReg_same]; exact hpend
    · rw [State.reg_setReg_same]; exact hpend

/-- Registers other than those of the IBI classes are as they were. -/
theorem State.reg_ibi (s : State) (cls loc arg : Nat) {a : Nat} (hp : a ≠ R.HIF_IBI_PEND) (hc : a ≠ F.HIF_IBI_COAL_COALESCED.off)
    (hi : a ≠ (F.HIF_IBI_INFO_LOC cls).off) : (s.ibi cls loc arg).reg a = s.reg a := by
  unfold State.ibi
  dsimp only
  split
  · exact State.reg_bump_other _ _ _ hc
  · have hi : a ≠ 0x10020 + 4 * cls := hi
    rw [State.reg_setF_other _ _ _ hi, State.reg_setF_other _ _ _ hi]
    split
    · rw [State.reg_mk, State.reg_setReg_other _ _ hp]
    · rw [State.reg_setReg_other _ _ hp]

theorem State.f_ibi (s : State) (cls loc arg : Nat) (x : Fld) (hp : x.off ≠ R.HIF_IBI_PEND) (hc : x.off ≠ F.HIF_IBI_COAL_COALESCED.off)
    (hi : x.off ≠ (F.HIF_IBI_INFO_LOC cls).off) : (s.ibi cls loc arg).f x = s.f x := by
  unfold State.f; rw [State.reg_ibi s cls loc arg hp hc hi]

@[simp] theorem seePad_reg (s : State) (i : Nat) (v : Bool) (a : Nat) : (seePad s i v).reg a = s.reg a := rfl
@[simp] theorem seePad_f (s : State) (i : Nat) (v : Bool) (x : Fld) : (seePad s i v).f x = s.f x := rfl

theorem exec_pinInterrupt_ibi {s : State} {n : Fin 6} {e : PinEdge} (htakes : modeTakes (s.f (F.GPIO_INT_MODE n.val)) e = true)
    (hmode : s.f (F.GPIO_INT_MODE n.val) < 4) (htarget : s.f (F.GPIO_INT_TARGET n.val) = 0) :
    Completes (.pinInterrupt (BitVec.ofNat 3 n.val) e) s (fun t => (t.reg R.GPIO_INT_STAT).getLsbD n.val = true ∧
      (t.reg R.HIF_IBI_PEND).getLsbD 0x0E = true) := by
  have hn : (BitVec.ofNat 3 n.val).toNat = n.val := by simp; omega
  have hlevel : ¬ (4 ≤ s.f (F.GPIO_INT_MODE n.val) ∧ (s.reg R.GPIO_INT_STAT).getLsbD n.val = true) := by omega
  have harm : exec (.pinInterrupt (BitVec.ofNat 3 n.val) e) s = .next
      (((seePad s (s.linePin n.val) (levelOf e)).setReg R.GPIO_INT_STAT (s.reg R.GPIO_INT_STAT ||| (1 <<< n.val))).ibi 0x0E 0 n.val) := by
    show execPinInterrupt _ e s = _
    unfold execPinInterrupt
    simp only [hn]
    rw [if_neg (by omega), if_neg (not_not.mpr htakes), htarget]
    simp only [if_neg hlevel, seePad_reg]
  refine ⟨_, harm, ?_, State.ibi_pend _ _ _ _ (by decide)⟩
  rw [State.reg_ibi _ _ _ _ (by decide) (by decide) (by decide), State.reg_setReg_same]
  rw [BitVec.getLsbD_or]
  show (_ || (BitVec.ofNat 32 (1 <<< n.val)).getLsbD n.val) = true
  rw [BitVec.getLsbD_ofNat]
  simp
  omega

theorem deliverLine_of_full {s : State} {n : Nat} (hcore : s.f (F.GPIO_INT_CORE n) = 0) (hfull : 64 ≤ (s.eas 0 0).mbin.length) :
    deliverLine s n = s := by
  have hcores : ∀ c, c = 0 → ∀ h : c % 3 < 3, s.eas (BitVec.ofNat 6 (c / 3)) ⟨c % 3, h⟩ = s.eas 0 0 := by rintro c rfl h; rfl
  unfold deliverLine
  dsimp only
  split
  · rfl
  · rw [hcores _ hcore]
    exact if_pos hfull

theorem exec_pinInterrupt_easel {s : State} {n : Fin 6} {e : PinEdge} {c : BitVec 4}
    (htakes : modeTakes (s.f (F.GPIO_INT_MODE n.val)) e = true) (htarget : s.f (F.GPIO_INT_TARGET n.val) = 1)
    (hcore : s.f (F.GPIO_INT_CORE n.val) = 0) (hfull : 64 ≤ (s.eas 0 0).mbin.length) (hc : c = SMap.get 0 s.gpio.lines n.val)
    (hlt : c.toNat < 15) :
    Completes (.pinInterrupt (BitVec.ofNat 3 n.val) e) s (fun t => SMap.get 0 t.gpio.lines n.val = c + 1 ∧ t.rgns = s.rgns) := by
  subst hc
  have hn : (BitVec.ofNat 3 n.val).toNat = n.val := by simp; omega
  have hcount : ¬ SMap.get 0 (seePad s (s.linePin n.val) (levelOf e)).gpio.lines n.val = (15 : BitVec 4) := by
    intro h
    have : (15 : BitVec 4).toNat < 15 := h ▸ hlt
    exact absurd this (by decide)
  have harm : exec (.pinInterrupt (BitVec.ofNat 3 n.val) e) s = .next (countLine (seePad s (s.linePin n.val) (levelOf e)) n.val) := by
    show execPinInterrupt _ e s = _
    unfold execPinInterrupt
    simp only [hn]
    rw [if_neg (by omega), if_neg (not_not.mpr htakes), htarget]
    show Host.Outcome.next (deliverLine (countLine _ n.val) n.val) = _
    rw [deliverLine_of_full]
    · rw [countLine, if_neg hcount]; exact hcore
    · rw [countLine, if_neg hcount]; exact hfull
  refine ⟨_, harm, ?_, ?_⟩
  · rw [countLine, if_neg hcount]
    exact SMap.get_set_same _ _ _ _
  · rw [countLine, if_neg hcount]; rfl

/-! ### Wake inputs -/

@[simp] theorem State.setRefusing_f (s : State) (k : Nat) (v : Bool) (x : Fld) : (s.setRefusing k v).f x = s.f x := rfl
@[simp] theorem State.setDrain_f (s : State) (k : Nat) (d : Drain) (x : Fld) : (s.setDrain k d).f x = s.f x := rfl

@[simp] theorem acceptAgain_f (s : State) (x : Fld) : (acceptAgain s).f x = s.f x := by
  unfold acceptAgain
  dsimp only
  rw [foldS_keeps (fun t => t.f x) (fun t q => by simp)]
  simp

/-- A wake event shows in the power unit's registers only (R434). -/
theorem wakeEvent_f (s : State) (src : Nat) (acts : List Nat) (x : Fld) (hs : x.off ≠ F.PWR_STATUS_WAKE_SRC.off)
    (hi : x.off ≠ F.PWR_IDLE_US.off) (hc : x.off ≠ F.PWR_COUNTS_ABORTED.off) : (wakeEvent s src acts).f x = s.f x := by
  have hset (t : State) (f : Fld) (n : Nat) (h : x.off ≠ f.off) : (t.setF f n).f x = t.f x := State.f_setReg_ne t x _ h
  have hnote (t : State) : (((t.setF F.PWR_STATUS_WAKE_SRC src).setF F.PWR_STATUS_WAKE_EVT 1).setF F.PWR_IDLE_US 0).f x = t.f x := by
    rw [hset _ _ _ hi, hset _ F.PWR_STATUS_WAKE_EVT _ hs, hset _ _ _ hs]
  have hcancel (t : State) : (cancelEntry t).f x = t.f x := by
    have hbump (t : State) : ((acceptAgain ((t.setDrain 4 .none).setF F.PWR_STATUS_ENTERING 0)).bump F.PWR_COUNTS_ABORTED 1).f x = t.f x := by
      rw [State.bump, hset _ _ _ hc, acceptAgain_f, hset _ F.PWR_STATUS_ENTERING _ hs, State.setDrain_f]
    unfold cancelEntry
    split
    · exact hbump t
    · exact hbump t
    · rfl
  unfold wakeEvent
  dsimp only
  split
  · split
    · rw [State.f_mk, hcancel, State.f_mk, hnote]
    · rfl
  · split
    · rw [State.f_mk, hcancel, State.f_mk, hnote]
    · rfl
  · split
    · rw [State.f_mk, hnote]
    · rfl
  · rfl
  · split
    · rw [State.f_mk, hnote]
    · rfl

theorem exec_wakeInput_at_level {s : State} {k : Bool} (hboot : s.pwr.boot = .up) (hen : s.f (F.GPIO_WAKE_EN k.toNat) = 1)
    (hsel : s.f (F.GPIO_WAKE_SEL k.toNat) < 12) :
    Completes (.wakeInput k (s.bit (F.GPIO_WAKE_POL k.toNat))) s (fun t => t.f (F.GPIO_WAKE_HIT k.toNat) = 1) := by
  have hpow : s.powered = true := by simp [State.powered, State.hubPowered, hboot]
  have hno : ¬ (¬ s.powered = true ∨ ¬ s.bit (F.GPIO_WAKE_EN k.toNat) = true ∨ 12 ≤ s.f (F.GPIO_WAKE_SEL k.toNat) ∨
      s.bit (F.GPIO_WAKE_POL k.toNat) ≠ s.bit (F.GPIO_WAKE_POL k.toNat)) := by
    have hbit : s.bit (F.GPIO_WAKE_EN k.toNat) = true := by unfold State.bit; rw [hen]; rfl
    simp [hpow, hbit, hsel]
  refine ⟨_, congrArg Host.Outcome.next (if_neg hno), ?_⟩
  refine (wakeEvent_f _ _ _ _ ?_ ?_ ?_).trans ?_
  case refine_4 => rw [State.f_setF_eq _ _ _ (by simp)]; rfl
  · cases k <;> decide
  · cases k <;> decide
  · cases k <;> decide

/-- Settles O46: the owned bits of a mask, the park of each pin that changes its function, and the target of each line. -/
theorem gpioPins : Obligations.GpioPins := by
  unfold Obligations.GpioPins
  refine ⟨fun mask w s => ⟨_, rfl, ?set⟩, fun mask w s => ⟨_, rfl, ?clr⟩, fun v w s hown => exec_funcChange_of_owner hown v,
    fun v w s => exec_funcChange_bits s w v, fun i s ⟨hpark, hheld, htest⟩ => exec_parkEnd_of_parked hpark hheld htest,
    fun n e s ⟨htakes, hmode, htarget⟩ => exec_pinInterrupt_ibi htakes hmode htarget,
    fun n e c s ⟨htakes, htarget, hcore⟩ ⟨hfull, hc, hlt⟩ => exec_pinInterrupt_easel htakes htarget hcore hfull hc hlt,
    fun k s ⟨hboot, hen, hsel⟩ => exec_wakeInput_at_level hboot hen hsel⟩
  case set =>
    obtain ⟨hout, hdenied, hdir⟩ := writeOut_regs s mask w true
    exact ⟨hout, hdenied, hdir, rfl⟩
  case clr =>
    obtain ⟨hout, hdenied, -⟩ := writeOut_regs s mask w false
    exact ⟨hout, hdenied⟩

end Sys2Proof.Machine
end

section
/-! PROOFS. The hub semaphores: a take and the hold limit (R374, R376). -/

namespace Sys2Proof.Machine

/-! ### An event of an error source -/

@[simp] theorem State.findsRoom_reg (s : State) (key places a : Nat) : (s.findsRoom key places).2.reg a = s.reg a := by
  rw [State.findsRoom_frame]; rfl

/-- An event is counted and queued: of the hub's registers it changes its count and the flags of what it has no room for (R450). -/
theorem State.reg_noteFault (s : State) (src l : Nat) (key : Word) {a : Nat} (hc : a ≠ (F.FLT_CNT_EVENTS src l).off)
    (hx : a ≠ F.SEM_XSTAT_OVERRUN.off) (hs : a ≠ F.FLT_STATUS_KEY_LOST.off) : (s.noteFault src l key).reg a = s.reg a := by
  have hroom : (s.findsRoom (32 * l + src) 16).2.reg a = s.reg a := s.findsRoom_reg _ _ _
  unfold State.noteFault
  dsimp only
  split <;> split
  · rw [State.reg_mk, State.reg_bump_other _ _ _ hc, hroom]
  · rw [State.reg_setF_other _ _ _ hs, State.reg_bump_other _ _ _ hc, hroom]
  · rw [State.reg_mk, State.reg_bump_other _ _ _ hx, hroom]
  · rw [State.reg_setF_other _ _ _ hs, State.reg_bump_other _ _ _ hx, hroom]

theorem State.f_noteFault (s : State) (src l : Nat) (key : Word) (x : Fld) (hc : x.off ≠ (F.FLT_CNT_EVENTS src l).off)
    (hx : x.off ≠ F.SEM_XSTAT_OVERRUN.off) (hs : x.off ≠ F.FLT_STATUS_KEY_LOST.off) : (s.noteFault src l key).f x = s.f x := by
  unfold State.f; rw [State.reg_noteFault s src l key hc hx hs]

/-! ### A take -/

theorem kindOf_holderOf (who : Requester) : Fld.of (F.SEM_HOLDER_KIND 0) (holderOf who) = kindOf who := by
  cases who with
  | network n =>
    have := n.isLt
    simp [holderOf, kindOf, faultKey, packKey, Fld.of]
    omega
  | _ => rfl

/-- The state with semaphore `n` given to `who`. -/
def State.givenSem (s : State) (who : Requester) (n : Nat) : State :=
  let t := (s.setReg (R.SEM_HOLDER n) (holderOf who)).setReg (R.SEM_HOLD_TIME n) 0
  t.setReg R.SEM_STATUS (setBit (t.reg R.SEM_STATUS) n false)

theorem takeSem_of_free {s : State} {who : Requester} {n : Nat} (hn : ¬ (List.range 32).any (fun m => decide (n < m) && s.ownsSem who m) = true)
    (hfree : s.f (F.SEM_HOLDER_KIND n) = 0) : (takeSem s who n).2 = s.givenSem who n := by
  unfold takeSem
  simp only [if_neg hn, if_pos hfree]
  rfl

theorem takeSem_out_of_order {s : State} {who : Requester} {n : Nat}
    (h : (List.range 32).any (fun m => decide (n < m) && s.ownsSem who m) = true) : (takeSem s who n).2 = s.bump F.SEM_COUNTS_ORDER 1 := by
  unfold takeSem
  simp only [if_pos h]

theorem takeSem_contended {s : State} {who : Requester} {n : Nat}
    (hn : ¬ (List.range 32).any (fun m => decide (n < m) && s.ownsSem who m) = true) (hheld : s.f (F.SEM_HOLDER_KIND n) ≠ 0)
    (hother : s.ownsSem who n = false) : (takeSem s who n).2 = s.bump F.SEM_COUNTS2_CONTENDED 1 := by
  unfold takeSem
  simp only [if_neg hn, if_neg hheld, hother, Bool.false_eq_true, if_false]

theorem noHigherSem {s : State} {who : Requester} {n : Nat} (h : ∀ m : Fin 32, n < m.val → s.ownsSem who m.val = false) :
    ¬ (List.range 32).any (fun m => decide (n < m) && s.ownsSem who m) = true := by
  simp only [List.any_eq_true, List.mem_range, Bool.and_eq_true, decide_eq_true_eq, not_exists, not_and]
  intro m hm hlt
  simp [h ⟨m, hm⟩ hlt]

theorem givenSem_effect (s : State) (who : Requester) {n : Nat} (hn : n < 32) :
    (s.givenSem who n).ownsSem who n = true ∧ (s.givenSem who n).f (F.SEM_HOLDER_KIND n) = kindOf who ∧
      (s.givenSem who n).reg (R.SEM_HOLD_TIME n) = 0 ∧ (s.givenSem who n).semBroken n = false ∧
      OnlyRegs [R.SEM_HOLDER n, R.SEM_HOLD_TIME n, R.SEM_STATUS] s (s.givenSem who n) := by
  have hht : R.SEM_HOLDER n ≠ R.SEM_HOLD_TIME n := by simp
  have hhs : R.SEM_HOLDER n ≠ R.SEM_STATUS := by unfold R.SEM_HOLDER R.SEM_STATUS; omega
  have hts : R.SEM_HOLD_TIME n ≠ R.SEM_STATUS := by unfold R.SEM_HOLD_TIME R.SEM_STATUS; omega
  have hholder : (s.givenSem who n).reg (R.SEM_HOLDER n) = holderOf who := by
    rw [State.givenSem, State.reg_setReg_other _ _ hhs, State.reg_setReg_other _ _ hht, State.reg_setReg_same]
  refine ⟨State.ownsSem_iff.mpr hholder, ?_, ?_, ?_, ?_⟩
  · show Fld.of (F.SEM_HOLDER_KIND 0) ((s.givenSem who n).reg (R.SEM_HOLDER n)) = _
    rw [hholder, kindOf_holderOf]
  · rw [State.givenSem, State.reg_setReg_other _ _ hts, State.reg_setReg_same]
  · rw [State.semBroken, State.givenSem, State.reg_setReg_same, getLsbD_setBit_same _ _ hn]
  · exact (((OnlyRegs.refl _ s).setReg (by simp) _).setReg (by simp) _).setReg (by simp) _

/-! ### The hold limit -/

/-- The state with the hold of semaphore `n` ended, marked broken and counted. -/
def State.brokenSem (s : State) (n : Nat) : State :=
  let t := s.freedSem n
  (t.setReg R.SEM_STATUS (t.reg R.SEM_STATUS ||| BitVec.ofNat 32 (1 <<< n))).bump F.SEM_COUNTS_BROKEN 1

/-- What a break reports beside it is no register of the semaphore, nor the status or the count. -/
theorem reg_breakSem {s : State} {n a : Nat} (hheld : s.f (F.SEM_HOLDER_KIND n) ≠ 0) (ha : 0x90008 ≤ a) (ha' : a ≤ 0x9020c)
    (hs : a ≠ F.SEM_ALERT_ALERT.off) : (breakSem s n).reg a = (s.brokenSem n).reg a := by
  have hnote : ((s.brokenSem n).noteFault 19 4 (faultKey [(n, 5)])).reg a = (s.brokenSem n).reg a :=
    State.reg_noteFault _ _ _ _ (by simp; omega) (by simp; omega) (by simp; omega)
  unfold breakSem
  rw [if_neg hheld]
  show State.reg (if _ then State.ibi (State.setF ((s.brokenSem n).noteFault 19 4 (faultKey [(n, 5)])) F.SEM_ALERT_ALERT 1) 0x0A 0 n else _) a = _
  split
  · rw [State.reg_ibi _ _ _ _ (by unfold R.HIF_IBI_PEND; omega) (by simp; omega) (by simp; omega), State.reg_setF_other _ _ _ hs, hnote]
  · exact hnote

theorem breakSem_effect {s : State} {n : Nat} (hn : n < 32) (hheld : s.f (F.SEM_HOLDER_KIND n) ≠ 0) :
    (breakSem s n).f (F.SEM_HOLDER_KIND n) = 0 ∧ (breakSem s n).semBroken n = true ∧
      (breakSem s n).f F.SEM_COUNTS_BROKEN = min (s.f F.SEM_COUNTS_BROKEN + 1) F.SEM_COUNTS_BROKEN.max := by
  have hht : R.SEM_HOLDER n ≠ R.SEM_HOLD_TIME n := by simp
  have hhs : R.SEM_HOLDER n ≠ R.SEM_STATUS := by unfold R.SEM_HOLDER R.SEM_STATUS; omega
  have hhc : R.SEM_HOLDER n ≠ F.SEM_COUNTS_BROKEN.off := by unfold R.SEM_HOLDER; simp; omega
  have hholder : (breakSem s n).reg (R.SEM_HOLDER n) = 0 := by
    rw [reg_breakSem hheld (by unfold R.SEM_HOLDER; omega) (by unfold R.SEM_HOLDER; omega) (by unfold R.SEM_HOLDER; simp; omega),
      State.brokenSem, State.reg_bump_other _ _ _ hhc, State.reg_setReg_other _ _ hhs, State.reg_setReg_other _ _ hht,
      State.reg_setReg_same]
  refine ⟨?_, ?_, ?_⟩
  · show Fld.of (F.SEM_HOLDER_KIND n) ((breakSem s n).reg (R.SEM_HOLDER n)) = 0
    rw [hholder]
    simp [Fld.of]
  · rw [State.semBroken, reg_breakSem hheld (by decide) (by decide) (by decide), State.brokenSem,
      State.reg_bump_other _ _ _ (by decide), State.reg_setReg_same, BitVec.getLsbD_or, BitVec.getLsbD_ofNat]
    simp [hn]
  · have hcount : (breakSem s n).f F.SEM_COUNTS_BROKEN = (s.brokenSem n).f F.SEM_COUNTS_BROKEN :=
      congrArg (Fld.of _) (reg_breakSem hheld (by decide) (by decide) (by decide))
    rw [hcount, State.brokenSem, State.f_bump_eq _ _ _ (by simp), State.f_setReg_other _ _ _ (by decide),
      State.f_setReg_other _ _ _ (by unfold R.SEM_HOLD_TIME; simp; omega), State.f_setReg_other _ _ _ hhc.symm]

/-- Settles O7: a take gives, refuses or counts by the owner of the semaphore and of the higher ones, and the limit breaks a hold. -/
theorem hubSemaphores : Obligations.HubSemaphores := by
  unfold Obligations.HubSemaphores
  refine ⟨fun n who s hord hfree => ?take, fun n who m s ⟨hlt, hm⟩ hown => ?order, fun n who s hord hheld hother => ?contended,
    fun n s hheld hlimit htime => ?limit, fun n s h => ?free⟩
  case take =>
    exact ⟨_, congrArg Host.Outcome.next (takeSem_of_free (noHigherSem hord) hfree), givenSem_effect s who n.isLt⟩
  case order =>
    have hany : (List.range 32).any (fun m => decide (n.toNat < m) && s.ownsSem who m) = true := by
      simp only [List.any_eq_true, List.mem_range, Bool.and_eq_true, decide_eq_true_eq]
      exact ⟨m, hm, hlt, hown⟩
    exact ⟨_, congrArg Host.Outcome.next (takeSem_out_of_order hany), by simp, (OnlyRegs.refl _ s).bump (by simp) _⟩
  case contended =>
    exact ⟨_, congrArg Host.Outcome.next (takeSem_contended (noHigherSem hord) hheld hother), by simp,
      (OnlyRegs.refl _ s).bump (by simp) _⟩
  case limit =>
    have hno : ¬ (s.f (F.SEM_HOLDER_KIND n.toNat) = 0 ∨ s.f F.SEM_CTRL_HOLD_LIMIT = 0 ∨
        (s.reg (R.SEM_HOLD_TIME n.toNat)).toNat < s.f F.SEM_CTRL_HOLD_LIMIT) := by omega
    exact ⟨_, congrArg Host.Outcome.next (if_neg hno), breakSem_effect n.isLt hheld⟩
  case free =>
    have hyes : s.f (F.SEM_HOLDER_KIND n.toNat) = 0 ∨ s.f F.SEM_CTRL_HOLD_LIMIT = 0 ∨
        (s.reg (R.SEM_HOLD_TIME n.toNat)).toNat < s.f F.SEM_CTRL_HOLD_LIMIT := by tauto
    exact ⟨s, congrArg Host.Outcome.next (if_pos hyes), rfl⟩

end Sys2Proof.Machine
end

section
/-! PROOFS. The die-to-die links: the training of a link beside a quadrant in FAULT (R247). -/

namespace Sys2Proof.Machine

/-- Link 0 of quadrant 0 trains while the quadrant is in FAULT. -/
def trainingInFault : State := (State.setRf {} (quadHome 0) (F.NOC_D2D_STATUS_STATE 0) 1).setF (F.PWR_QSTAT_STATE 0) 5

theorem d2dTrained_in_fault :
    exec (.d2dTrained 0 0 true) trainingInFault = .next (trainingInFault.setD2dFailed 0 0 1) := by
  have hstate : ¬ trainingInFault.d2d 0 0 ≠ 1 := by decide
  have hfault : ¬ (true = true ∧ ¬ trainingInFault.quadFault 0 = true ∧ ¬ trainingInFault.farFault 0 0 = true) := by decide
  exact congrArg Host.Outcome.next ((if_neg hstate).trans ((if_neg hfault).trans (if_neg (by decide))))

/-- Refutes O37: a training that passes beside a quadrant in FAULT counts as a failure, and the link stays in TRAINING. -/
theorem not_dieToDieLinks : ¬ Obligations.DieToDieLinks := by
  unfold Obligations.DieToDieLinks
  rintro ⟨-, -, -, -, htrained, -⟩
  obtain ⟨t, hexec, ht⟩ := htrained 0 0 trainingInFault (by decide)
  obtain rfl : trainingInFault.setD2dFailed 0 0 1 = t := Host.Outcome.next.inj (d2dTrained_in_fault.symm.trans hexec)
  exact absurd ht (by decide)

end Sys2Proof.Machine
end

section
/-! PROOFS. The resume of a held job while a region of it is restored (R50, R137). -/

namespace Sys2Proof.Machine

/-- Job 0 is HELD, and its one region still restores a snapshot although its engine is no longer in mode 2. -/
def restoringJob0 : State :=
  State.setF (State.onRgn {} 0 fun r =>
    { r.setF F.RGN_STATUS_IN_JOB 1 with rwd := { r.rwd with restoring := some (0, 0, 0) } }) (F.MER_JOB_CTRL_HELD 0) 1

theorem exec_resume_while_restoring : exec (.resume 0) restoringJob0 = .next restoringJob0 := by
  have hat : restoringJob0.bit (F.MER_JOB_CTRL_AT (0 : Job).toNat) = false := by decide
  have hno : restoringJob0.resumable 0 = false := by decide
  refine congrArg Host.Outcome.next ?_
  unfold resumeJob resumeSoon
  rw [hat, hno]
  rfl

/-- Refutes O5: a job whose region still restores is not resumable, and its RESUME fixes no tick. -/
theorem not_jobsStartHoldAndResume : ¬ Obligations.JobsStartHoldAndResume := by
  unfold Obligations.JobsStartHoldAndResume
  rintro ⟨-, -, hresume, -⟩
  obtain ⟨t, hexec, ht⟩ := hresume 0 restoringJob0 (by decide) (by decide) (by decide) (by decide)
  obtain rfl : restoringJob0 = t := Host.Outcome.next.inj (exec_resume_while_restoring.symm.trans hexec)
  exact absurd ht (by decide)

end Sys2Proof.Machine
end

section
/-! PROOFS. The sextant loop and the slip budget (R56 to R60). -/

namespace Sys2Proof.Machine

/-! ### What the loop of a quadrant leaves alone -/

theorem State.f_setF_off (s : State) (f x : Fld) (n : Nat) (h : x.off ≠ f.off) : (s.setF f n).f x = s.f x :=
  State.f_setReg_ne s x _ h

theorem watchTest_hub (s : State) : ∃ b, watchTest s = { s with bist := b } := by
  have hkeep (l : List Nat) (t : State) (f : State → Nat → State) (hf : ∀ t k, ∃ b, f t k = { t with bist := b }) :
      ∃ b, l.foldl f t = { t with bist := b } := by
    induction l generalizing t with
    | nil => exact ⟨t.bist, rfl⟩
    | cons k l ih =>
      obtain ⟨b, hb⟩ := hf t k
      obtain ⟨c, hc⟩ := ih { t with bist := b }
      exact ⟨c, by rw [List.foldl_cons, hb, hc]⟩
  unfold watchTest
  split
  · exact ⟨s.bist, rfl⟩
  · exact hkeep _ _ _ fun t k => ⟨_, rfl⟩

theorem setVq_hub (s : State) (q v : Nat) : ∃ b p, s.setVq q v = { s.setF (F.PWR_QSTAT_VQ q) v with bist := b, pwr := p } := by
  obtain ⟨b, hb⟩ := watchTest_hub ((s.setF (F.PWR_QSTAT_VQ q) v).issueAvs q [.target (BitVec.ofNat 10 v)])
  exact ⟨b, _, hb⟩

/-- Quadrant `p` writes its own loop and voltage registers only. -/
structure LoopKeeps (p : Nat) (s t : State) : Prop where
  rgns : t.rgns = s.rgns
  jobs : t.jobs = s.jobs
  f : ∀ x : Fld, x.off ≠ R.MER_LOOP p → x.off ≠ R.PWR_QSTAT p → t.f x = s.f x

theorem LoopKeeps.refl (p : Nat) (s : State) : LoopKeeps p s s := ⟨rfl, rfl, fun _ _ _ => rfl⟩

theorem LoopKeeps.setF {p : Nat} {s t : State} (h : LoopKeeps p s t) (f : Fld) (n : Nat) (hf : f.off = R.MER_LOOP p ∨ f.off = R.PWR_QSTAT p) :
    LoopKeeps p s (t.setF f n) := by
  refine ⟨h.rgns, h.jobs, fun x hl hq => ?_⟩
  rw [State.f_setF_off _ _ _ _ (by rcases hf with hf | hf <;> rw [hf] <;> assumption), h.f x hl hq]

theorem LoopKeeps.setVq {p : Nat} {s t : State} (h : LoopKeeps p s t) (v : Nat) : LoopKeeps p s (t.setVq p v) := by
  obtain ⟨b, w, heq⟩ := setVq_hub t p v
  obtain ⟨hrgns, hjobs, hf⟩ := h.setF (F.PWR_QSTAT_VQ p) v (.inr rfl)
  rw [heq]
  exact ⟨hrgns, hjobs, fun x hl hq => (State.f_mk ..).trans (hf x hl hq)⟩

theorem LoopKeeps.moveVq {p : Nat} {s t : State} (h : LoopKeeps p s t) (d : Int) (st : Nat) : LoopKeeps p s (moveVq t p d st) := by
  unfold Machine.moveVq
  dsimp only
  split
  · exact (h.setVq _).setF _ _ (.inl rfl)
  · split
    · exact (h.setVq _).setF _ _ (.inl rfl)
    · exact (h.setVq _).setF _ _ (.inl rfl)

theorem loopQuadrant_keeps (s : State) (p : Nat) : LoopKeeps p s (loopQuadrant s p) := by
  have hs := LoopKeeps.refl p s
  have hstate (t : State) (h : LoopKeeps p s t) (n : Nat) : LoopKeeps p s (t.setF (F.MER_LOOP_STATE p) n) := h.setF _ n (.inl rfl)
  unfold loopQuadrant
  split
  · exact hstate _ hs _
  · extract_lets old m t lo hi
    have ht : LoopKeeps p s t := hs.setF _ _ (.inl rfl)
    split
    · exact hstate _ ht _
    split
    · exact ht.moveVq _ _
    split
    · exact ht.moveVq _ _
    split
    · exact hstate _ ht _
    split
    · exact ht.moveVq _ _
    split
    · exact ht.moveVq _ _
    split
    · exact ht.moveVq _ _
    · exact hstate _ ht _

/-- From `s` to `t` quadrants other than `q` have been served. -/
structure LoopBeside (q : Nat) (s t : State) : Prop where
  rgns : t.rgns = s.rgns
  jobs : t.jobs = s.jobs
  f : ∀ x : Fld, (∀ p < 4, p ≠ q → x.off ≠ R.MER_LOOP p ∧ x.off ≠ R.PWR_QSTAT p) → t.f x = s.f x

theorem LoopBeside.refl (q : Nat) (s : State) : LoopBeside q s s := ⟨rfl, rfl, fun _ _ => rfl⟩

theorem LoopBeside.quadrant {q p : Nat} {s t : State} (h : LoopBeside q s t) (hp : p < 4) (hne : p ≠ q) :
    LoopBeside q s (loopQuadrant t p) := by
  obtain ⟨hrgns, hjobs, hf⟩ := loopQuadrant_keeps t p
  refine ⟨hrgns.trans h.rgns, hjobs.trans h.jobs, fun x hx => ?_⟩
  obtain ⟨hl, hq⟩ := hx p hp hne
  exact (hf x hl hq).trans (h.f x hx)

theorem LoopBeside.quadrants {q : Nat} {l : List Nat} (hl : ∀ p ∈ l, p < 4 ∧ p ≠ q) {s t : State} (h : LoopBeside q s t) :
    LoopBeside q s (foldS l t loopQuadrant) := by
  induction l generalizing t with
  | nil => exact h
  | cons p l ih =>
    obtain ⟨hp, hne⟩ := hl p List.mem_cons_self
    exact ih (fun p' hp' => hl p' (List.mem_cons_of_mem _ hp')) (h.quadrant hp hne)

/-- The loop serves quadrant `q` once, with what its rule table reads as it stands before the interval (R58). -/
theorem exec_loopInterval_quadrant (q : Quad) (s : State) :
    ∃ s' t, exec .loopInterval s = .next t ∧ LoopBeside q.toNat s s' ∧
      ∀ x : Fld, (∀ p < 4, p ≠ q.toNat → x.off ≠ R.MER_LOOP p ∧ x.off ≠ R.PWR_QSTAT p) → t.f x = (loopQuadrant s' q.toNat).f x := by
  obtain ⟨l, l', hsplit, hl, hl'⟩ : ∃ l l' : List Nat, [0, 1, 2, 3] = l ++ q.toNat :: l' ∧ (∀ p ∈ l, p < 4 ∧ p ≠ q.toNat) ∧
      ∀ p ∈ l', p < 4 ∧ p ≠ q.toNat := by
    have hq : ∀ n < 4, ∃ l l' : List Nat, [0, 1, 2, 3] = l ++ n :: l' ∧ (∀ p ∈ l, p < 4 ∧ p ≠ n) ∧ ∀ p ∈ l', p < 4 ∧ p ≠ n := by
      intro n hn
      interval_cases n
      · exact ⟨[], [1, 2, 3], by simp⟩
      · exact ⟨[0], [2, 3], by simp⟩
      · exact ⟨[0, 1], [3], by simp⟩
      · exact ⟨[0, 1, 2], [], by simp⟩
    exact hq q.toNat q.isLt
  refine ⟨foldS l s loopQuadrant, _, rfl, LoopBeside.quadrants hl (.refl _ s), fun x hx => ?_⟩
  have hfold : foldS [0, 1, 2, 3] s loopQuadrant = foldS l' (loopQuadrant (foldS l s loopQuadrant) q.toNat) loopQuadrant := by
    rw [hsplit]; simp [foldS]
  rw [foldS_keeps (fun t => t.f x) (fun t rg => by dsimp only; split <;> rfl), hfold]
  exact (LoopBeside.quadrants hl' (.refl _ _)).f x hx

/-! ### What the rule table reads -/

theorem takesPart_of_rgns {s t : State} (h : t.rgns = s.rgns) : takesPart t = takesPart s := by
  cases s; cases t; cases h; rfl

theorem qmin_of_stores {s t : State} (h : t.rgns = s.rgns) (hj : t.jobs = s.jobs) (q : Nat) : qmin t q = qmin s q := by
  cases s; cases t; cases h; cases hj; rfl

/-- A register of a quadrant's own is none of another quadrant's loop. -/
theorem quadReg_apart {q : Nat} (hq : q < 4) {x : Fld} (hx : x.off = R.MER_LOOP q ∨ x.off = R.PWR_QSTAT q ∨ x.off = 0x50050 + 4 * q ∨
    (0x30008 ≤ x.off ∧ x.off ≤ 0x30014)) : ∀ p < 4, p ≠ q → x.off ≠ R.MER_LOOP p ∧ x.off ≠ R.PWR_QSTAT p := by
  unfold R.MER_LOOP R.PWR_QSTAT at *
  omega

/-! ### The rows of the table -/

theorem loopQuadrant_idle {s : State} {q : Nat} (h : (quadRegions q).any (takesPart s) = false ∨ s.f F.PWR_STATUS_STATE ≠ 0) :
    loopQuadrant s q = s.setF (F.MER_LOOP_STATE q) 0 := by
  refine if_pos ?_
  rcases h with h | h
  · exact .inl (by rw [h]; decide)
  · exact .inr h

theorem loopQuadrant_frozen {s : State} {q : Nat} (h : (quadRegions q).any (takesPart s) = true) (hrun : s.f F.PWR_STATUS_STATE = 0)
    (hfreeze : s.f (F.MER_WIN_FREEZE q) = 1) :
    ∃ m, loopQuadrant s q = (s.setF (F.MER_LOOP_QMIN q) m).setF (F.MER_LOOP_STATE q) 6 := by
  have hno : ¬ (¬ (quadRegions q).any (takesPart s) = true ∨ s.f F.PWR_STATUS_STATE ≠ 0) := by rw [h, hrun]; decide
  refine ⟨_, (if_neg hno).trans (if_pos ?_)⟩
  simp [State.bit, hfreeze]

theorem loopQuadrant_negative {s : State} {q : Nat} {v : Int} (h : (quadRegions q).any (takesPart s) = true)
    (hrun : s.f F.PWR_STATUS_STATE = 0) (hfreeze : s.f (F.MER_WIN_FREEZE q) = 0) (htemp : s.f F.PWR_STATUS_THR_TEMP = 0)
    (hthr : s.f F.PWR_STATUS_THR_CAP = 0) (hcap : atCap s = false) (hmin : qmin s q = some v) (hv : v < 0) (hq : q < 4) :
    ∃ m, loopQuadrant s q = moveVq (s.setF (F.MER_LOOP_QMIN q) m) q 20 1 := by
  have hno : ¬ (¬ (quadRegions q).any (takesPart s) = true ∨ s.f F.PWR_STATUS_STATE ≠ 0) := by rw [h, hrun]; decide
  have hfield (m : Nat) (x : Fld) (hx : x.off ≠ R.MER_LOOP q) : (s.setF (F.MER_LOOP_QMIN q) m).f x = s.f x := State.f_setF_off _ _ _ _ hx
  have hcap' (m : Nat) : atCap (s.setF (F.MER_LOOP_QMIN q) m) = false := by
    rw [← hcap]
    unfold atCap
    rw [hfield _ F.PWR_CAP_DW (by unfold R.MER_LOOP; simp <;> omega), hfield _ F.PWR_POWER_NOW (by unfold R.MER_LOOP; simp <;> omega)]
  have hm : max (-2048) (min v 2047) < 0 := by omega
  refine ⟨toField 12 (max (-2048) (min v 2047)), (if_neg hno).trans ?_⟩
  rw [hmin]
  dsimp only
  rw [if_neg, if_neg, if_neg, if_neg, if_pos hm]
  · rw [hcap']; simp
  · rw [State.bit, hfield _ _ (by unfold R.MER_LOOP; simp <;> omega), hthr]; simp
  · rw [State.bit, hfield _ _ (by unfold R.MER_LOOP; simp <;> omega), htemp]; simp
  · rw [State.bit, hfield _ _ (by unfold R.MER_LOOP; simp <;> omega), hfreeze]; simp

theorem moveVq_within {s : State} {q : Nat} (hq : q < 4) (hlo : 600 ≤ s.f (F.PWR_QSTAT_VQ q)) (hhi : s.f (F.PWR_QSTAT_VQ q) ≤ 880) :
    (moveVq s q 20 1).f (F.PWR_QSTAT_VQ q) = s.f (F.PWR_QSTAT_VQ q) + 20 ∧ (moveVq s q 20 1).f (F.MER_LOOP_STATE q) = 1 := by
  generalize hv : s.f (F.PWR_QSTAT_VQ q) = v at hlo hhi
  have hmove : moveVq s q 20 1 = (s.setVq q (v + 20)).setF (F.MER_LOOP_STATE q) 1 := by
    unfold moveVq
    rw [hv]
    dsimp only
    rw [if_neg (by omega), if_neg (by omega)]
    rfl
  obtain ⟨b, p, heq⟩ := setVq_hub s q (v + 20)
  rw [hmove, heq]
  constructor
  · rw [State.f_setF_off _ _ _ _ (by simp <;> omega), State.f_mk, State.f_setF_eq _ _ _ (by simp)]
    exact Nat.mod_eq_of_lt (by simp <;> omega)
  · rw [State.f_setF_eq _ _ _ (by simp)]
    rfl

@[simp] theorem State.ibi_windowFixes (s : State) (cls loc arg : Nat) : (s.ibi cls loc arg).windowFixes = s.windowFixes := by
  unfold State.ibi
  dsimp only
  split
  · rfl
  · split <;> rfl

/-- The window of quadrant `n` closed, begun anew and reported as over budget. -/
def State.overBudget (s : State) (n : Nat) : State :=
  let t := { s with windowFixes := SMap.set 0 s.windowFixes n 0 }.setF (F.MER_QSLIP_SLIPS n) 0
  let t := t.setF F.MER_STATUS_BUDGET_OVER (t.f F.MER_STATUS_BUDGET_OVER ||| 2 ^ n)
  (t.bump (F.MER_QSLIP_OVER n) 1).ibi 0x02 0 (2 ^ n)

/-- A window that closes over budget (R60). -/
theorem exec_budgetWindow_over {q : Quad} {s : State} (hfixes : 1000000 ≤ SMap.get 0 s.windowFixes q.toNat)
    (hover : s.f F.MER_SLIP_BUDGET_BUDGET < s.f (F.MER_QSLIP_SLIPS q.toNat)) :
    Completes (.budgetWindow q) s (fun t => SMap.get 0 t.windowFixes q.toNat = 0 ∧ t.f (F.MER_QSLIP_SLIPS q.toNat) = 0 ∧
      t.f F.MER_STATUS_BUDGET_OVER = s.f F.MER_STATUS_BUDGET_OVER ||| 2 ^ q.toNat ∧
      t.f (F.MER_QSLIP_OVER q.toNat) = min (s.f (F.MER_QSLIP_OVER q.toNat) + 1) (F.MER_QSLIP_OVER q.toNat).max) := by
  have hq := q.isLt
  obtain ⟨t, hexec, hwin, hf⟩ : ∃ t, exec (.budgetWindow q) s = .next t ∧ t.windowFixes = SMap.set 0 s.windowFixes q.toNat 0 ∧
      ∀ x : Fld, x.off ≠ R.MER_WIN q.toNat → t.f x = (s.overBudget q.toNat).f x := by
    refine ⟨_, congrArg Host.Outcome.next (if_neg (by unfold windowSize; omega)), ?_, fun x hx => ?_⟩
    · dsimp only
      rw [if_pos hover]
      split <;> exact State.ibi_windowFixes _ _ _ _
    · dsimp only
      rw [if_pos hover]
      split
      · rfl
      · rw [State.f_setF_off _ _ _ _ hx, State.f_setF_off _ _ _ _ hx]; rfl
  have hbudget := s.f_lt F.MER_STATUS_BUDGET_OVER
  refine ⟨t, hexec, by rw [hwin, SMap.get_set_same], ?_, ?_, ?_⟩
  · rw [hf _ (by unfold R.MER_WIN; simp <;> omega), State.overBudget, State.f_ibi _ _ _ _ _ (by unfold R.HIF_IBI_PEND; simp <;> omega)
      (by simp <;> omega) (by simp <;> omega), State.f_bump_other _ _ _ _ (by simp) (by simp), State.f_setF_off _ _ _ _ (by simp <;> omega),
      State.f_setF_eq _ _ _ (by simp)]
    rfl
  · rw [hf _ (by unfold R.MER_WIN; simp <;> omega), State.overBudget, State.f_ibi _ _ _ _ _ (by decide) (by decide) (by decide),
      State.f_bump_other _ _ _ _ (by simp) (by simp <;> omega), State.f_setF_eq _ _ _ (by simp), State.f_setF_off _ _ _ _ (by simp <;> omega),
      State.f_mk]
    exact Nat.mod_eq_of_lt (Nat.or_lt_two_pow hbudget (Nat.pow_lt_pow_right (by decide) hq))
  · rw [hf _ (by unfold R.MER_WIN; simp <;> omega), State.overBudget, State.f_ibi _ _ _ _ _ (by unfold R.HIF_IBI_PEND; simp <;> omega)
      (by simp <;> omega) (by simp <;> omega), State.f_bump_eq _ _ _ (by simp), State.f_setF_off _ _ _ _ (by simp <;> omega),
      State.f_setF_other _ _ _ _ (by simp) (by simp), State.f_mk]

/-- Settles O6: the rule table is read for each quadrant beside the others, and a closed window over budget is reported. -/
theorem sextantLoopAndBudget : Obligations.SextantLoopAndBudget := by
  unfold Obligations.SextantLoopAndBudget
  refine ⟨fun q s h => ?idle, fun q s ⟨h, hrun⟩ hfreeze => ?frozen,
    fun q v s ⟨h, hrun⟩ hfreeze htemp hthr hcap hmin hv ⟨hlo, hhi⟩ => ?negative, fun q s hfixes hover => exec_budgetWindow_over hfixes hover⟩
  all_goals
    obtain ⟨s', t, hexec, ⟨hrgns, hjobs, hf⟩, ht⟩ := exec_loopInterval_quadrant q s
    have hq := q.isLt
    have hvq := hf (F.PWR_QSTAT_VQ q.toNat) (quadReg_apart hq (.inr (.inl rfl)))
    refine ⟨t, hexec, ?_⟩
    dsimp only
    rw [ht (F.MER_LOOP_STATE q.toNat) (quadReg_apart hq (.inl rfl)), ht (F.PWR_QSTAT_VQ q.toNat) (quadReg_apart hq (.inr (.inl rfl)))]
    rw [← takesPart_of_rgns hrgns] at h
  case idle =>
    rw [loopQuadrant_idle (.inl h), State.f_setF_eq _ _ _ (by simp), State.f_setF_off _ _ _ _ (by simp <;> omega), hvq]
    exact ⟨rfl, rfl⟩
  case frozen =>
    rw [← hf _ (quadReg_apart hq (.inr (.inr (.inr (by decide)))))] at hrun
    rw [← hf _ (quadReg_apart hq (.inr (.inr (.inl rfl))))] at hfreeze
    obtain ⟨m, hrow⟩ := loopQuadrant_frozen h hrun hfreeze
    rw [hrow, State.f_setF_eq _ _ _ (by simp), State.f_setF_off _ _ _ _ (by simp <;> omega), State.f_setF_off _ _ _ _ (by simp <;> omega), hvq]
    exact ⟨rfl, rfl⟩
  case negative =>
    have hhub (x : Fld) (hlo : 0x30008 ≤ x.off) (hhi : x.off ≤ 0x30014) : s'.f x = s.f x :=
      hf x (quadReg_apart hq (.inr (.inr (.inr ⟨hlo, hhi⟩))))
    have hcap' : atCap s' = false := by
      rw [← hcap]
      unfold atCap
      rw [hhub F.PWR_CAP_DW (by decide) (by decide), hhub F.PWR_POWER_NOW (by decide) (by decide)]
    rw [← hhub _ (by decide) (by decide)] at hrun htemp hthr
    rw [← hf _ (quadReg_apart hq (.inr (.inr (.inl rfl))))] at hfreeze
    rw [← qmin_of_stores hrgns hjobs] at hmin
    obtain ⟨m, hrow⟩ := loopQuadrant_negative h hrun hfreeze htemp hthr hcap' hmin hv hq
    have hown : (s'.setF (F.MER_LOOP_QMIN q.toNat) m).f (F.PWR_QSTAT_VQ q.toNat) = s.f (F.PWR_QSTAT_VQ q.toNat) :=
      (State.f_setF_off _ _ _ _ (by simp <;> omega)).trans hvq
    rw [hrow, ← hown]
    exact moveVq_within hq (by rw [hown]; exact hlo) (by rw [hown]; exact hhi)

end Sys2Proof.Machine
end

section
/-! PROOFS. NOP, EVAL and EVAL_S of a BP, and the barrier of a stroke (R68 to R70, R84, R85). -/

namespace Sys2Proof.Machine

/-! ### Frames -/

theorem OnlyRegionDrawn.trans {rg : Rg} {s t u : State} (h : OnlyRegionDrawn rg s t) (h' : OnlyRegionDrawn rg t u) :
    OnlyRegionDrawn rg s u := by
  obtain ⟨hs, hrgn⟩ := h
  obtain ⟨hs', hrgn'⟩ := h'
  refine ⟨?_, fun rh hrh => (hrgn' rh hrh).trans (hrgn rh hrh)⟩
  rw [hs', hs]

theorem OnlyRegion.drawn {rg : Rg} {s t : State} (h : OnlyRegion rg s t) : OnlyRegionDrawn rg s t := by
  obtain ⟨hs, hrgn⟩ := h
  exact ⟨by rw [hs], hrgn⟩

theorem State.onlyRegion_keepStroke (s : State) (rg : Rg) (c : Cl) (b : Bp) : OnlyRegion rg s (s.keepStroke rg c b) :=
  ⟨rfl, fun _ hrh => State.rgn_setRgn_ne s _ hrh⟩

/-! ### A BP with its word read back -/

theorem othersBusy_keepStroke {s : State} {rg : Rg} {c : Cl} {b : Bp} (h : OthersBusy s rg c b) :
    OthersBusy (s.keepStroke rg c b) rg c b := by
  rw [OthersBusy, State.cl_keepStroke]; exact h

/-- A BP that finishes after its word was read back: what its completion adds to the cluster as it was. -/
theorem finishBp_keepStroke {s : State} {rg : Rg} {c : Cl} {b : Bp} (h : OthersBusy s rg c b) (w : Option PalWrite) :
    (finishBp (s.keepStroke rg c b) rg c b w).cl rg c = (s.cl rg c).completed b w ∧
      OnlyRegionDrawn rg s (finishBp (s.keepStroke rg c b) rg c b w) := by
  obtain ⟨hcl, -, -, honly⟩ := finishBp_completed (othersBusy_keepStroke h) w
  exact ⟨by rw [hcl, State.cl_keepStroke], (s.onlyRegion_keepStroke rg c b).drawn.trans honly⟩

theorem exec_nop_of_clean {s : State} {rg : Rg} {c : Cl} {b : Bp} (h : AtStroke s rg c b 0) :
    exec (.nop rg c b 0) s = .next (finishBp (s.keepStroke rg c b) rg c b none) :=
  congrArg Host.Outcome.next (runBp_of_clean h rfl _)

/-! ### EVAL and EVAL_S -/

/-- The result of the word's truth table for the operands `v0` to `v3` (R69). -/
abbrev evalResult (s : State) (rg : Rg) (c : Cl) (b : Bp) (v0 v1 v2 v3 : Entry) : Bool :=
  (strokeTt (strokeAt s rg c b)).getLsbD
    (8 * (v3.getLsbD (strokeOpd (strokeAt s rg c b) 3).2.toNat).toNat + 4 * (v2.getLsbD (strokeOpd (strokeAt s rg c b) 2).2.toNat).toNat +
      2 * (v1.getLsbD (strokeOpd (strokeAt s rg c b) 1).2.toNat).toNat + (v0.getLsbD (strokeOpd (strokeAt s rg c b) 0).2.toNat).toNat)

/-- With its four operands filled an EVAL completes with the one write of its table's result. -/
theorem evalBp_of_filled {s : State} {rg : Rg} {c : Cl} {b : Bp} {v0 v1 v2 v3 : Entry} (next : Bool)
    (h0 : OperandIs s rg c b 0 v0) (h1 : OperandIs s rg c b 1 v1) (h2 : OperandIs s rg c b 2 v2) (h3 : OperandIs s rg c b 3 v3)
    (hd : (strokeDest (strokeAt s rg c b)).toNat < if next then 256 else 992) :
    evalBp (s.keepStroke rg c b) rg c b next (strokeAt s rg c b) =
      finishBp (s.keepStroke rg c b) rg c b (some ⟨b, strokeDest (strokeAt s rg c b), next, evalResult s rg c b v0 v1 v2 v3⟩) := by
  have hcl : ((s.keepStroke rg c b).rgn rg).cl c = s.cl rg c := s.cl_keepStroke rg c c b
  have hex : ((s.keepStroke rg c b).rgn rg).executing = (s.rgn rg).executing := by rw [State.rgn_keepStroke]; rfl
  unfold evalBp
  rw [if_neg (by omega)]
  unfold withOperands readAll
  dsimp only
  rw [hcl, hex]
  unfold OperandIs at h0 h1 h2 h3
  simp only [List.map_cons, List.map_nil, h0, h1, h2, h3]
  rfl

theorem eval_effect {s : State} {rg : Rg} {c : Cl} {b : Bp} {v0 v1 v2 v3 : Entry} {op : Nat} (next : Bool) {named : Nat → Bool}
    (hat : AtStroke s rg c b op) (hop : named op = true) (hbusy : OthersBusy s rg c b)
    (h0 : OperandIs s rg c b 0 v0) (h1 : OperandIs s rg c b 1 v1) (h2 : OperandIs s rg c b 2 v2) (h3 : OperandIs s rg c b 3 v3)
    (hd : (strokeDest (strokeAt s rg c b)).toNat < if next then 256 else 992) :
    (State.cl (runBp s rg c b 0 named fun s w => evalBp s rg c b next w) rg c) =
        (s.cl rg c).completed b (some ⟨b, strokeDest (strokeAt s rg c b), next, evalResult s rg c b v0 v1 v2 v3⟩) ∧
      OnlyRegionDrawn rg s (runBp s rg c b 0 named fun s w => evalBp s rg c b next w) := by
  rw [runBp_of_clean hat hop, evalBp_of_filled next h0 h1 h2 h3 hd]
  exact finishBp_keepStroke hbusy _

/-! ### The barrier and the stall warning -/

theorem exec_strokeBegin_of_complete {s : State} {rg : Rg} {c : Cl} (stallNs : Word)
    (h : s.rf rg F.FIX_STATUS_STATE = 2 ∧ s.f F.PWR_STATUS_STATE = 0) (hrun : (s.cl rg c).running = true)
    (hdone : (s.cl rg c).done = BitVec.allOnes 64) (hmore : (s.rgn rg).strokeNo c < (s.rgn rg).endAt c) :
    exec (.strokeBegin rg c stallNs .clean .none) s = .next
      ((s.bumpR rg (F.CLU_STALL_TIME_NS c.toNat) stallNs.toNat).onRgn rg fun r =>
        (r.setCl c ((s.cl rg c).commit (s.cl rg c).writes).beginStroke).setF (F.CLU_STATUS_STROKE c.toNat) (r.strokeNo c + 1)) := by
  have hyes : s.f F.PWR_STATUS_STATE = 0 ∧ (s.rgn rg).f F.FIX_STATUS_STATE = 2 ∧ ((s.rgn rg).cl c).running = true ∧
      ((s.rgn rg).cl c).done = BitVec.allOnes 64 ∧ (s.rgn rg).strokeNo c < (s.rgn rg).endAt c := ⟨h.2, h.1, hrun, hdone, hmore⟩
  exact congrArg Host.Outcome.next (if_pos hyes)

/-- Settles O8: a BP's completion adds its one write to the cluster's, and the barrier makes the writes. -/
theorem strokeOperations : Obligations.StrokeOperations := by
  unfold Obligations.StrokeOperations
  refine ⟨fun rg c b s hat hbusy => ?nop, fun rg c b v0 v1 v2 v3 s hat hbusy h0 h1 h2 h3 hd => ?eval,
    fun rg c b v0 v1 v2 v3 s hat hbusy h0 h1 h2 h3 hd => ?evalS, fun rg c stallNs s h hrun hdone hmore => ?begins,
    fun rg c s ⟨hstalled, hiso⟩ hwarn htime => ?stall⟩
  case nop =>
    obtain ⟨hcl, honly⟩ := finishBp_keepStroke hbusy none
    refine ⟨_, exec_nop_of_clean hat, ?_, ?_, ?_, honly⟩
    · rw [hcl]; rfl
    · rw [hcl]; exact List.append_nil _
    · rw [hcl]; rfl
  case eval =>
    obtain ⟨hcl, honly⟩ := eval_effect (named := fun op => op == 1) false hat rfl hbusy h0 h1 h2 h3 hd
    refine ⟨_, rfl, ?_, ?_, ?_, honly⟩ <;> rw [hcl] <;> rfl
  case evalS =>
    obtain ⟨hcl, honly⟩ := eval_effect (named := fun op => op == 2) true hat rfl hbusy h0 h1 h2 h3 hd
    refine ⟨_, rfl, ?_, ?_, ?_, honly⟩ <;> rw [hcl] <;> rfl
  case begins =>
    have hno : (s.rgn rg).strokeNo c + 1 < 2 ^ 11 := lt_of_le_of_lt hmore ((s.rgn rg).f_lt (F.CLU_END_AT_INDEX c.toNat))
    have hexec := exec_strokeBegin_of_complete stallNs h hrun hdone hmore
    generalize hk : ((s.cl rg c).commit (s.cl rg c).writes).beginStroke = k at hexec
    have hcl (t : State) (n : Region → Nat) :
        (t.onRgn rg fun r => (r.setCl c k).setF (F.CLU_STATUS_STROKE c.toNat) (n r)).cl rg c = k := by
      unfold State.cl
      rw [State.rgn_onRgn_same]
      exact Region.cl_setCl_same _ c k
    refine ⟨_, hexec, ?_, ?_, ?_, ?_, ?_, ((OnlyRegion.refl rg s).bumpR _ _).onRgn _⟩
    · rw [hcl, ← hk]; rfl
    · rw [hcl, ← hk]; rfl
    · rw [hcl, ← hk]; rfl
    · rw [hcl, ← hk]; rfl
    · have hsame : (s.bumpR rg (F.CLU_STALL_TIME_NS c.toNat) stallNs.toNat).rf rg (F.CLU_STATUS_STROKE c.toNat) = (s.rgn rg).strokeNo c :=
        State.rf_bumpR_other _ _ _ _ _ (by simp) (by simp)
      rw [State.rf_onRgn_same, Region.f_setF_eq _ _ _ (by simp)]
      refine Eq.trans (congrArg (fun n => (n + 1) % 2 ^ 11) hsame) (Nat.mod_eq_of_lt hno)
  case stall =>
    have hiso' : ¬ s.rbit rg F.RGN_CTRL_ISOLATE = true := by simp [State.rbit, hiso]
    have hyes : s.rbit rg (F.CLU_STATUS_STALLED c.toNat) = true ∧ s.rbit rg (F.CLU_CTRL_STALL_WARN c.toNat) = true ∧
        1000 * s.rf rg (F.CLU_CTRL_STALL_WARN c.toNat) < s.now - (s.cl rg c).since := by
      refine ⟨?_, ?_, htime⟩
      · unfold State.rbit; rw [hstalled]; rfl
      · unfold State.rbit; simpa using hwarn
    refine ⟨_, congrArg Host.Outcome.next ((if_neg hiso').trans (if_pos hyes)), ?_, (OnlyRgnRegs.refl rg _ s).setRf (by simp) _⟩
    rw [State.rf_setRf_eq _ _ _ _ (by simp)]
    rfl

end Sys2Proof.Machine
end

section
/-! PROOFS. What completes a stroke of the lead BP: SEND, MEMRD, MEMWR, PROBE, HALTIF and END, and the units that take what they offer
(R73, R74, R95 to R105). -/

namespace Sys2Proof.Machine

/-! ### The end of a stroke -/

/-- The barrier's writes go to the banks of the cluster only. -/
theorem Cluster.commit_frame (k : Cluster) (l : List PalWrite) :
    ∃ p n w, k.commit l = { k with pal := p, next := n, written := w, writes := [] } := by
  induction l generalizing k with
  | nil => exact ⟨k.pal, k.next, k.written, rfl⟩
  | cons x l ih =>
    unfold Cluster.commit
    dsimp only
    split
    · obtain ⟨p, n, w, h⟩ := ih { k with next := SMap.set 0 k.next x.entry.toNat (setBit (SMap.get 0 k.next x.entry.toNat) x.bp.toNat x.val),
                                         written := SMap.set 0 k.written x.entry.toNat (setBit (SMap.get 0 k.written x.entry.toNat) x.bp.toNat true) }
      exact ⟨p, n, w, h⟩
    · obtain ⟨p, n, w, h⟩ := ih { k with pal := SMap.set 0 k.pal x.entry.toNat (setBit (SMap.get 0 k.pal x.entry.toNat) x.bp.toNat x.val) }
      exact ⟨p, n, w, h⟩

/-- From `s` to `t` cluster `c` may have ended its cycle: its banks and its progress, registers of the region's and no other store. -/
structure MayEnd (rg : Rg) (c : Cl) (s t : State) : Prop where
  region : ∃ regs cls, t.rgn rg = { s.rgn rg with regs := regs, clusters := cls }
  cluster : ∃ p n w ws run e, t.cl rg c = { s.cl rg c with pal := p, next := n, written := w, writes := ws, running := run, ended := e }
  only : OnlyRegionDrawn rg s t
  rf : ∀ x : Fld, x.off ≠ R.CLU_STALL_TIME c.toNat → t.rf rg x = s.rf rg x

theorem MayEnd.refl (rg : Rg) (c : Cl) (s : State) : MayEnd rg c s s :=
  ⟨⟨(s.rgn rg).regs, (s.rgn rg).clusters, rfl⟩, ⟨(s.cl rg c).pal, (s.cl rg c).next, (s.cl rg c).written, (s.cl rg c).writes,
    (s.cl rg c).running, (s.cl rg c).ended, rfl⟩, (OnlyRegion.refl rg s).drawn, fun _ _ => rfl⟩

theorem endStall_mayEnd (s : State) (rg : Rg) (c : Cl) : MayEnd rg c s (endStall s rg c) ∧ (endStall s rg c).cl rg c = s.cl rg c := by
  unfold endStall
  split
  case isTrue =>
    have hr : (((s.draw 32).2).bumpR rg (F.CLU_STALL_TIME_NS c.toNat) (s.draw 32).1.toNat).rgn rg =
        (s.rgn rg).bump (F.CLU_STALL_TIME_NS c.toNat) (s.draw 32).1.toNat := State.rgn_onRgn_same _ _ _
    have hcl : (((s.draw 32).2).bumpR rg (F.CLU_STALL_TIME_NS c.toNat) (s.draw 32).1.toNat).cl rg c = s.cl rg c := by
      rw [State.cl, hr]; rfl
    exact ⟨⟨⟨_, (s.rgn rg).clusters, hr⟩, ⟨(s.cl rg c).pal, (s.cl rg c).next, (s.cl rg c).written, (s.cl rg c).writes,
      (s.cl rg c).running, (s.cl rg c).ended, hcl⟩, ⟨rfl, fun rh hrh => State.rgn_onRgn_ne _ _ hrh⟩,
      fun x hx => State.rf_bumpR_off _ _ _ _ _ _ hx⟩, hcl⟩
  case isFalse => exact ⟨.refl rg c s, rfl⟩

theorem MayEnd.setCl {rg : Rg} {c : Cl} {s t : State} (h : MayEnd rg c s t) {k : Cluster}
    (hk : ∃ p n w ws run e, k = { s.cl rg c with pal := p, next := n, written := w, writes := ws, running := run, ended := e }) :
    MayEnd rg c s (t.setCl rg c k) := by
  obtain ⟨regs, cls, hr⟩ := h.region
  obtain ⟨p, n, w, ws, run, e, rfl⟩ := hk
  have hset (k : Cluster) : (t.setCl rg c k).rgn rg = { s.rgn rg with regs := regs, clusters := ((t.rgn rg).setCl c k).clusters } := by
    rw [State.setCl, State.rgn_onRgn_same, hr]
    rfl
  exact ⟨⟨_, _, hset _⟩, ⟨p, n, w, ws, run, e, State.cl_setCl_same _ _ _ _⟩, h.only.trans ⟨rfl, fun rh hrh => State.rgn_onRgn_ne _ _ hrh⟩,
    fun x hx => (State.rf_setCl ..).trans (h.rf x hx)⟩

theorem tryEnd_mayEnd (s : State) (rg : Rg) (c : Cl) : MayEnd rg c s (tryEnd s rg c) := by
  unfold tryEnd
  dsimp only
  split
  · obtain ⟨p, n, w, hk⟩ := (s.cl rg c).commit_frame (s.cl rg c).writes
    refine (endStall_mayEnd s rg c).1.setCl ⟨p, n, w, [], false, true, ?_⟩
    exact congrArg (fun k : Cluster => { k with running := false, ended := true }) hk
  · exact .refl rg c s

/-- From `s` to `t` BP `b` of cluster `c` completes its stroke: what else may have changed is the end of the cluster's cycle, and CLU.STATUS
and CLU.CYCLE_TIME. -/
structure BpFinished (rg : Rg) (c : Cl) (b : Bp) (s t : State) : Prop where
  region : ∃ regs cls, t.rgn rg = { s.rgn rg with regs := regs, clusters := cls }
  cluster : ∃ p n w ws run e ps, t.cl rg c = { s.cl rg c with done := setBit (s.cl rg c).done b.toNat true, waits := ps, lead := if b = 0 then .none else (s.cl rg c).lead, pal := p, next := n, written := w, writes := ws, running := run, ended := e }
  only : OnlyRegionDrawn rg s t
  rf : ∀ x : Fld, x.off ≠ R.CLU_STALL_TIME c.toNat → x.off ≠ R.CLU_STATUS c.toNat → x.off ≠ R.CLU_CYCLE_TIME c.toNat → t.rf rg x = s.rf rg x

theorem completeBp_finished (s : State) (rg : Rg) (c : Cl) (b : Bp) (w : Option PalWrite) :
    BpFinished rg c b s (completeBp s rg c b w) ∧
      ∀ x : Fld, x.off ≠ R.CLU_STALL_TIME c.toNat → x.off ≠ R.CLU_STATUS c.toNat → (completeBp s rg c b w).rf rg x = s.rf rg x := by
  generalize hu : s.onRgn rg (fun r => (r.setCl c ((r.cl c).completed b w)).showStall c) = u
  have hcl : u.cl rg c = (s.cl rg c).completed b w := by rw [← hu]; simp [State.cl]
  have hrf (x : Fld) (hx : x.off ≠ R.CLU_STATUS c.toNat) : u.rf rg x = s.rf rg x := by
    rw [← hu, State.rf_onRgn_same, Region.f_showStall_ne _ _ _ hx]; rfl
  obtain ⟨⟨regs, cls, hr⟩, ⟨p, n, v, ws, run, e, hk⟩, honly, hf⟩ := tryEnd_mayEnd u rg c
  have heq : completeBp s rg c b w = tryEnd u rg c := by rw [← hu]; rfl
  rw [heq]
  refine ⟨⟨⟨regs, cls, ?_⟩, ⟨p, n, v, ws, run, e, SMap.erase (s.cl rg c).waits b.toNat, ?_⟩, ?_, fun x hx hs _ => (hf x hx).trans (hrf x hs)⟩,
    fun x hx hs => (hf x hx).trans (hrf x hs)⟩
  · rw [hr, ← hu, State.rgn_onRgn_same, Region.showStall_frame]; rfl
  · rw [hk, hcl]; rfl
  · refine OnlyRegionDrawn.trans ?_ honly
    rw [← hu]
    exact ((OnlyRegion.refl rg s).onRgn _).drawn

theorem finishBp_finished (s : State) (rg : Rg) (c : Cl) (b : Bp) (w : Option PalWrite) : BpFinished rg c b s (finishBp s rg c b w) := by
  unfold finishBp
  split
  case isFalse => exact (completeBp_finished s rg c b w).1
  case isTrue =>
    have hcl := s.cl_drawCycleTime rg c c
    obtain ⟨⟨⟨regs, cls, hr⟩, ⟨p, n, v, ws, run, e, ps, hk⟩, honly, -⟩, hf⟩ := completeBp_finished (s.drawCycleTime rg c) rg c b w
    refine ⟨⟨regs, cls, ?_⟩, ⟨p, n, v, ws, run, e, ps, ?_⟩, ?_, fun x hx hs ht => (hf x hx hs).trans ?_⟩
    · refine hr.trans ?_
      rw [State.rgn_drawCycleTime]; rfl
    · refine hk.trans ?_
      rw [hcl]
    · refine OnlyRegionDrawn.trans ?_ honly
      exact ⟨rfl, fun rh hrh => s.rgn_drawCycleTime_ne c hrh⟩
    · rw [State.rf, State.rgn_drawCycleTime]
      exact Region.f_setReg_ne _ x _ ht

/-- What a finished stroke leaves of the cluster. -/
theorem BpFinished.cl_fields {rg : Rg} {c : Cl} {s t : State} (h : BpFinished rg c 0 s t) :
    (t.cl rg c).done = setBit (s.cl rg c).done 0 true ∧ (t.cl rg c).lead = .none ∧ (t.cl rg c).memOut = (s.cl rg c).memOut ∧
      (t.cl rg c).portFull = (s.cl rg c).portFull ∧ (t.cl rg c).done.getLsbD 0 = true := by
  obtain ⟨p, n, w, ws, run, e, ps, hk⟩ := h.cluster
  rw [hk]
  exact ⟨rfl, rfl, rfl, rfl, getLsbD_setBit_same _ _ (by decide)⟩

/-- What a finished stroke leaves of the region beside its clusters. -/
theorem BpFinished.stores {rg : Rg} {c : Cl} {b : Bp} {s t : State} (h : BpFinished rg c b s t) :
    (t.rgn rg).inject = (s.rgn rg).inject ∧ (t.rgn rg).fix = (s.rgn rg).fix ∧ (t.rgn rg).front = (s.rgn rg).front ∧
      (t.rgn rg).mpos = (s.rgn rg).mpos ∧ (t.rgn rg).rwd = (s.rgn rg).rwd := by
  obtain ⟨regs, cls, hr⟩ := h.region
  rw [hr]
  exact ⟨rfl, rfl, rfl, rfl, rfl⟩

end Sys2Proof.Machine
end

section
/-! PROOFS. SEND, MEMRD and MEMWR of the lead BP issue what they say (R74, R95). -/

namespace Sys2Proof.Machine

/-! ### Operands -/

/-- An operation on one filled operand goes on with its value. -/
theorem withOperands_one {s : State} {rg : Rg} {c : Cl} {b : Bp} {e : BitVec 10} {v : Entry}
    (h : (s.cl rg c).read (s.rgn rg).executing e.toNat = some v) (go : State → List Entry → State) :
    withOperands s rg c b [e] go = go s [v] := by
  have h : ((s.rgn rg).cl c).read (s.rgn rg).executing e.toNat = some v := h
  unfold withOperands readAll
  simp only [List.map_cons, List.map_nil, h]
  rfl

theorem withOperands_two {s : State} {rg : Rg} {c : Cl} {b : Bp} {e0 e1 : BitVec 10} {v0 v1 : Entry}
    (h0 : (s.cl rg c).read (s.rgn rg).executing e0.toNat = some v0) (h1 : (s.cl rg c).read (s.rgn rg).executing e1.toNat = some v1)
    (go : State → List Entry → State) : withOperands s rg c b [e0, e1] go = go s [v0, v1] := by
  have h0 : ((s.rgn rg).cl c).read (s.rgn rg).executing e0.toNat = some v0 := h0
  have h1 : ((s.rgn rg).cl c).read (s.rgn rg).executing e1.toNat = some v1 := h1
  unfold withOperands readAll
  simp only [List.map_cons, List.map_nil, h0, h1]
  rfl

theorem withOperands_four {s : State} {rg : Rg} {c : Cl} {b : Bp} {e0 e1 e2 e3 : BitVec 10} {v0 v1 v2 v3 : Entry}
    (h0 : (s.cl rg c).read (s.rgn rg).executing e0.toNat = some v0) (h1 : (s.cl rg c).read (s.rgn rg).executing e1.toNat = some v1)
    (h2 : (s.cl rg c).read (s.rgn rg).executing e2.toNat = some v2) (h3 : (s.cl rg c).read (s.rgn rg).executing e3.toNat = some v3)
    (go : State → List Entry → State) : withOperands s rg c b [e0, e1, e2, e3] go = go s [v0, v1, v2, v3] := by
  have h0 : ((s.rgn rg).cl c).read (s.rgn rg).executing e0.toNat = some v0 := h0
  have h1 : ((s.rgn rg).cl c).read (s.rgn rg).executing e1.toNat = some v1 := h1
  have h2 : ((s.rgn rg).cl c).read (s.rgn rg).executing e2.toNat = some v2 := h2
  have h3 : ((s.rgn rg).cl c).read (s.rgn rg).executing e3.toNat = some v3 := h3
  unfold withOperands readAll
  simp only [List.map_cons, List.map_nil, h0, h1, h2, h3]
  rfl

/-- An operand reads the same once the word has been read back. -/
theorem operand_keepStroke {s : State} {rg : Rg} {c : Cl} {b : Bp} {n : Nat} {v : Entry} (h : OperandIs s rg c b n v) :
    ((s.keepStroke rg c b).cl rg c).read ((s.keepStroke rg c b).rgn rg).executing (strokeOpd (strokeAt s rg c b) n).1.toNat = some v := by
  rw [State.cl_keepStroke, State.rgn_keepStroke]; exact h

/-- What reading the word back leaves of the region. -/
theorem State.stores_keepStroke (s : State) (rg : Rg) (c : Cl) (b : Bp) :
    ((s.keepStroke rg c b).rgn rg).inject = (s.rgn rg).inject ∧ ((s.keepStroke rg c b).rgn rg).fix = (s.rgn rg).fix ∧
      ((s.keepStroke rg c b).rgn rg).regs = (s.rgn rg).regs ∧ ((s.keepStroke rg c b).rgn rg).rwd = (s.rgn rg).rwd := by
  rw [State.rgn_keepStroke]; exact ⟨rfl, rfl, rfl, rfl⟩

/-! ### SEND -/

/-- The route entry `ix` of a region, as it stands. -/
abbrev Region.routeWord (r : Region) (ix : BitVec 10) : Nat := (r.reg (R.RGN_ROUTE (2 * ix.toNat))).toNat

/-- The bundle that the injection makes of a SEND by route entry `ix` (R95). -/
def Region.sendBundle (r : Region) (rg : Rg) (data : Entry) (ix : BitVec 10) : Bundle :=
  { data := data, tag := BitVec.ofNat 7 (r.routeWord ix % 64 + 64 * (r.executing.toNat % 2)), egress := BitVec.ofNat 3 (r.routeWord ix / 64 % 8),
    origin := some rg, epoch := BitVec.ofNat 8 (r.f F.RGN_STATUS_EPOCH) }

theorem injectBundle_of_valid {s : State} {rg : Rg} {ix : BitVec 10} (hvalid : (s.rgn rg).routeWord ix / 512 % 2 = 1)
    (hegress : (s.rgn rg).routeWord ix / 64 % 8 < 6) (data : Entry) :
    injectBundle s rg data ix = s.setRgn rg { s.rgn rg with
      inject := (s.rgn rg).inject ++ [(s.rgn rg).sendBundle rg data ix],
      fix := { (s.rgn rg).fix with unaccepted := (s.rgn rg).fix.unaccepted + 1 } } := by
  have hno : ¬ ((s.rgn rg).routeWord ix / 512 % 2 = 0 ∨ 6 ≤ (s.rgn rg).routeWord ix / 64 % 8) := by omega
  exact if_neg hno

/-- A bundle taken by the injection, with the lead BP's stroke complete. -/
theorem finish_injectBundle {s : State} {rg : Rg} {c : Cl} {ix : BitVec 10} (hvalid : (s.rgn rg).routeWord ix / 512 % 2 = 1)
    (hegress : (s.rgn rg).routeWord ix / 64 % 8 < 6) (data : Entry) :
    ((finishBp (injectBundle s rg data ix) rg c 0 none).rgn rg).inject = (s.rgn rg).inject ++ [(s.rgn rg).sendBundle rg data ix] ∧
      ((finishBp (injectBundle s rg data ix) rg c 0 none).rgn rg).fix.unaccepted = (s.rgn rg).fix.unaccepted + 1 ∧
      ((finishBp (injectBundle s rg data ix) rg c 0 none).cl rg c).lead = .none ∧
      ((finishBp (injectBundle s rg data ix) rg c 0 none).cl rg c).done.getLsbD 0 = true := by
  have hfin := finishBp_finished (injectBundle s rg data ix) rg c 0 none
  obtain ⟨hinject, hfix, -⟩ := hfin.stores
  obtain ⟨-, hlead, -, -, hdone⟩ := hfin.cl_fields
  rw [hinject, hfix, injectBundle_of_valid hvalid hegress, State.rgn_setRgn_same] at *
  exact ⟨rfl, rfl, hlead, hdone⟩

theorem exec_send_with_room {s : State} {rg : Rg} {c : Cl} {v : Entry} (hat : AtStroke s rg c 0 8) (hv : OperandIs s rg c 0 0 v)
    (hroom : (s.rgn rg).injectRoom = true) :
    exec (.send rg c 0 .clean) s = .next
      (finishBp (injectBundle (s.keepStroke rg c 0) rg v (bitsAt (strokeTt (strokeAt s rg c 0)) 0 10)) rg c 0 none) := by
  have hroom' : ((s.keepStroke rg c 0).rgn rg).injectRoom = true := by rw [State.rgn_keepStroke]; exact hroom
  refine congrArg Host.Outcome.next ((runBp_of_clean hat rfl _).trans ((withOperands_one (operand_keepStroke hv) _).trans ?_))
  exact (if_neg (by decide)).trans (if_pos hroom')

theorem exec_injectionTake_with_room {s : State} {rg : Rg} {c : Cl} {v : Entry} {ix : BitVec 10} (hlead : (s.cl rg c).lead = .send v ix)
    (hroom : (s.rgn rg).injectRoom = true) (ns : Word) :
    exec (.injectionTake rg c ns) s = .next (finishBp (injectBundle (s.bumpR rg F.RGN_SEND_WAIT_NS ns.toNat) rg v ix) rg c 0 none) := by
  show execInjectionTake rg c ns s = _
  unfold execInjectionTake
  rw [hlead]
  exact congrArg Host.Outcome.next (if_pos hroom)

/-! ### MEMRD and MEMWR -/

/-- The lead BP waits: its operation stands in the cluster, and nothing outside the region changes (R73). -/
theorem leadWaits_effect (s : State) (rg : Rg) (c : Cl) (l : Lead) :
    ((leadWaits s rg c l).cl rg c).lead = l ∧ ((leadWaits s rg c l).cl rg c).done = (s.cl rg c).done ∧ OnlyRegion rg s (leadWaits s rg c l) := by
  have hcl : (leadWaits s rg c l).cl rg c = { s.cl rg c with lead := l, waits := SMap.erase (s.cl rg c).waits 0 } := by
    unfold leadWaits State.cl
    rw [State.rgn_onRgn_same, Region.cl_showStall, Region.cl_setCl_same]
  refine ⟨?_, ?_, (OnlyRegion.refl rg s).onRgn _⟩ <;> rw [hcl]

theorem leadWaits_keepStroke (s : State) (rg : Rg) (c : Cl) (l : Lead) :
    ((leadWaits (s.keepStroke rg c 0) rg c l).cl rg c).lead = l ∧
      ((leadWaits (s.keepStroke rg c 0) rg c l).cl rg c).done = (s.cl rg c).done ∧
      OnlyRegion rg s (leadWaits (s.keepStroke rg c 0) rg c l) := by
  obtain ⟨hlead, hdone, honly⟩ := leadWaits_effect (s.keepStroke rg c 0) rg c l
  exact ⟨hlead, by rw [hdone, State.cl_keepStroke], (s.onlyRegion_keepStroke rg c 0).trans honly⟩

/-- Settles O10: SEND's bundle goes into the injection, and a memory operation waits with the address its operands give. -/
theorem clusterOperations : Obligations.ClusterOperations := by
  unfold Obligations.ClusterOperations
  refine ⟨fun rg c v s hat hv hroom hvalid hegress => ?send, fun rg c ns v ix s hlead hroom hvalid hegress => ?take,
    fun rg c v0 v1 s hat h0 h1 => ?memrd, fun rg c v0 v1 v2 v3 s hat h0 h1 h2 h3 => ?memwr⟩
  case send =>
    have hrgn : (s.keepStroke rg c 0).rgn rg = { s.rgn rg with strokes := ((s.keepStroke rg c 0).rgn rg).strokes } := by
      rw [State.rgn_keepStroke]
    have hword (ix : BitVec 10) : ((s.keepStroke rg c 0).rgn rg).routeWord ix = (s.rgn rg).routeWord ix := by rw [hrgn]; rfl
    obtain ⟨hinject, hfix, -, hdone⟩ := finish_injectBundle (s := s.keepStroke rg c 0) (c := c) (by rw [hword]; exact hvalid)
      (by rw [hword]; exact hegress) v
    refine ⟨_, exec_send_with_room hat hv hroom, ⟨_, hinject.trans (congrArg (· ++ [_]) (by rw [hrgn])), rfl, rfl, rfl, ?_⟩, hdone, hfix.trans ?_⟩
    · have hexec : ((s.keepStroke rg c 0).rgn rg).executing = (s.rgn rg).executing := by rw [hrgn]; rfl
      simp only [Region.sendBundle, hword, hexec, BitVec.toNat_ofNat, Region.routeWord]
      omega
    · rw [hrgn]
  case take =>
    have hword (ix : BitVec 10) : ((s.bumpR rg F.RGN_SEND_WAIT_NS ns.toNat).rgn rg).routeWord ix = (s.rgn rg).routeWord ix := by
      have hne : R.RGN_ROUTE (2 * ix.toNat) ≠ F.RGN_SEND_WAIT_NS.off := by unfold R.RGN_ROUTE; simp <;> omega
      rw [State.rgn_bumpR_same, Region.routeWord, Region.reg_bump_other _ _ _ hne]
    obtain ⟨hinject, -, hlead', hdone⟩ := finish_injectBundle (s := s.bumpR rg F.RGN_SEND_WAIT_NS ns.toNat) (c := c) (ix := ix)
      (by rw [hword]; exact hvalid) (by rw [hword]; exact hegress) v
    exact ⟨_, exec_injectionTake_with_room hlead hroom ns, ⟨_, hinject.trans (congrArg (· ++ [_]) (by rw [State.rgn_bumpR_same]; rfl)), rfl⟩,
      hlead', hdone⟩
  case memrd =>
    refine ⟨_, congrArg Host.Outcome.next ((runBp_of_clean hat rfl _).trans
      (withOperands_two (operand_keepStroke h0) (operand_keepStroke h1) _)), leadWaits_keepStroke s rg c _⟩
  case memwr =>
    refine ⟨_, congrArg Host.Outcome.next ((runBp_of_clean hat rfl _).trans
      (withOperands_four (operand_keepStroke h0) (operand_keepStroke h1) (operand_keepStroke h2) (operand_keepStroke h3) _)),
      leadWaits_keepStroke s rg c _⟩

end Sys2Proof.Machine
end

section
/-! PROOFS. A hold of a job (R49), and what its end in the package's power state leaves of the regions (R435). -/

namespace Sys2Proof.Machine

/-- From `s` to `t` a region keeps all but registers and its fix engine's notes, and of its registers all but RWD.STATUS. -/
structure HoldKeeps (s t : State) : Prop where
  region : ∀ rg, ∃ regs fix, t.rgn rg = { s.rgn rg with regs := regs, fix := fix }
  rf : ∀ rg (x : Fld), x.off ≠ R.RWD_STATUS → t.rf rg x = s.rf rg x

theorem HoldKeeps.refl (s : State) : HoldKeeps s s := ⟨fun rg => ⟨(s.rgn rg).regs, (s.rgn rg).fix, rfl⟩, fun _ _ _ => rfl⟩

theorem HoldKeeps.trans {s t u : State} (h : HoldKeeps s t) (h' : HoldKeeps t u) : HoldKeeps s u := by
  refine ⟨fun rg => ?_, fun rg x hx => (h'.rf rg x hx).trans (h.rf rg x hx)⟩
  obtain ⟨regs, fix, hr⟩ := h.region rg
  obtain ⟨regs', fix', hr'⟩ := h'.region rg
  exact ⟨regs', fix', by rw [hr', hr]⟩

/-- An update that no region takes part in. -/
theorem HoldKeeps.of_rgns {s t u : State} (h : HoldKeeps s t) (hu : u.rgns = t.rgns) : HoldKeeps s u := by
  refine h.trans ⟨fun rg => ⟨(t.rgn rg).regs, (t.rgn rg).fix, ?_⟩, fun rg x _ => ?_⟩
  · simp only [State.rgn, hu]
  · simp only [State.rf, State.rgn, hu]

theorem HoldKeeps.onRgn {s t : State} (h : HoldKeeps s t) (rg : Rg) {g : Region → Region}
    (hg : ∀ r, ∃ regs fix, g r = { r with regs := regs, fix := fix }) (hf : ∀ r (x : Fld), x.off ≠ R.RWD_STATUS → (g r).f x = r.f x) :
    HoldKeeps s (t.onRgn rg g) := by
  refine h.trans ⟨fun rh => ?_, fun rh x hx => ?_⟩
  · by_cases hr : rh = rg
    · subst hr; rw [State.rgn_onRgn_same]; exact hg _
    · rw [State.rgn_onRgn_ne _ _ hr]; exact ⟨(t.rgn rh).regs, (t.rgn rh).fix, rfl⟩
  · by_cases hr : rh = rg
    · subst hr; rw [State.rf_onRgn_same]; exact hf _ x hx
    · exact State.rf_onRgn_other _ _ _ hr

theorem HoldKeeps.foldS {α : Type} {f : State → α → State} {s t : State} (h : HoldKeeps s t) (l : List α)
    (hf : ∀ u a, HoldKeeps s u → HoldKeeps s (f u a)) : HoldKeeps s (Machine.foldS l t f) := by
  induction l generalizing t with
  | nil => exact h
  | cons a l ih => exact ih (hf _ _ h)

theorem HoldKeeps.startChecks {s t : State} (h : HoldKeeps s t) (j : Job) : HoldKeeps s (startChecks t j) := by
  refine h.foldS _ fun u rg hu => ?_
  split
  · exact hu.onRgn rg (fun r => ⟨r.regs, _, rfl⟩) (fun _ _ _ => rfl)
  · exact hu

theorem HoldKeeps.resumeSoon {s t : State} (h : HoldKeeps s t) (j : Job) : HoldKeeps s (resumeSoon t j) := by
  unfold Machine.resumeSoon
  split
  · exact (h.startChecks j).of_rgns rfl
  · exact h

theorem HoldKeeps.returnJob {s t : State} (h : HoldKeeps s t) (j : Job) : HoldKeeps s (returnJob t j) := by
  have hjob : HoldKeeps s (t.setJob j { t.job j with byPackage := false }) := h.of_rgns rfl
  unfold Machine.returnJob
  dsimp only
  split
  · exact hjob.of_rgns rfl
  · exact hjob.resumeSoon j

theorem abandonTest_rgns (s : State) (rg : Rg) : (abandonTest s rg).rgns = s.rgns := by
  unfold abandonTest
  split <;> rfl

theorem HoldKeeps.beginDrain {s t : State} (h : HoldKeeps s t) (st : BitVec 3) : HoldKeeps s (beginDrain t st) := by
  have hpwr : HoldKeeps s (if t.pwrState = 0 then setPwr t 1 else t) := by
    split
    · exact h.of_rgns rfl
    · exact h
  have htests := hpwr.foldS allRegions (f := abandonTest) fun u rg hu => hu.of_rgns (abandonTest_rgns u rg)
  exact htests.of_rgns rfl

theorem HoldKeeps.settleHold {s t : State} (h : HoldKeeps s t) : HoldKeeps s (settleHold t) := by
  unfold Machine.settleHold
  split
  · split
    · exact h
    · split
      · exact h.of_rgns rfl
      · exact h.beginDrain _
  · exact h

/-- A replay that reaches the hold leaves its mode (R138). -/
theorem HoldKeeps.jobHeld {s t : State} (h : HoldKeeps s t) (j : Job) : HoldKeeps s (jobHeld t j) := by
  unfold Machine.jobHeld
  split
  · exact h
  · extract_lets rs held
    split
    · refine HoldKeeps.settleHold ?_
      refine (fun {u} (hu : HoldKeeps s u) => ?_ : ∀ {u}, HoldKeeps s u → HoldKeeps s (if (u.job j).byPackage then Machine.returnJob u j else u)) ?_
      · split
        · exact hu.returnJob j
        · exact hu
      · refine HoldKeeps.of_rgns (HoldKeeps.foldS (h.of_rgns ?_) _ fun u rg hu => ?_) (State.ibi_rgns _ _ _ _)
        · rfl
        · split
          · exact hu.onRgn rg (fun r => ⟨_, r.fix, rfl⟩) (fun r x hx => Region.f_setReg_ne r x _ hx)
          · exact hu
    · exact h

theorem HoldKeeps.requestHold {s t : State} (h : HoldKeeps s t) (j : Job) (cause : Nat) (least : BitVec 48) :
    HoldKeeps s (requestHold t j cause least) := by
  unfold Machine.requestHold
  extract_lets rs held stands
  split
  · exact h
  · refine HoldKeeps.jobHeld ?_ j
    exact HoldKeeps.of_rgns h rfl

theorem HoldKeeps.failJob {s t : State} (h : HoldKeeps s t) (j : Job) : HoldKeeps s (failJob t j) := by
  have hset : HoldKeeps s (t.setF (F.MER_JOB_CTRL_FAILED j.toNat) 1) := h.of_rgns rfl
  unfold Machine.failJob
  extract_lets u v
  have hv : HoldKeeps s v := hset.of_rgns (State.ibi_rgns _ _ _ _)
  exact ((hv.requestHold j 3 0).jobHeld j).settleHold

end Sys2Proof.Machine
end

section
/-! PROOFS. The front port, the trace writer's probes, HALTIF and END (R73 to R75, R101, R102, R104, R105, R112). -/

namespace Sys2Proof.Machine

/-! ### The front port takes an access -/

/-- A read of entry 1012 + `n` of cluster `c` is put out of date by a later one (R102). -/
def FrontAcc.outdated (c : Cl) (n : BitVec 3) : FrontAcc → FrontAcc
  | .rd c' n' a' t st v => if c' = c ∧ n' = n then .rd c' n' a' t true v else .rd c' n' a' t st v
  | y => y

/-- The front port takes access `a` of cluster `c` (R101). -/
def Region.took (r : Region) (c : Cl) (a : FrontAcc) : Region :=
  { r with front := r.front ++ [a], mpos := r.mpos + 1, takes := r.takes + 1,
           clusters := (r.setCl c { r.cl c with lead := .none }).clusters }

theorem cl_took (r : Region) (c : Cl) (a : FrontAcc) : (r.took c a).cl c = { r.cl c with lead := .none } :=
  Region.cl_setCl_same r c _

/-- The region with a MEMRD taken: earlier reads of the entry are out of date, and the entry is empty (R102). -/
def Region.tookRead (r : Region) (c : Cl) (n : BitVec 3) (a : BitVec 19) : Region :=
  let r := { r with front := r.front.map (FrontAcc.outdated c n) }
  let r := r.took c (.rd c n a (BitVec.ofNat 11 (r.strokeNo c)) false none)
  r.setCl c { r.cl c with portFull := setBit (r.cl c).portFull (4 + n.toNat) false }

/-- The region with a MEMWR taken (R101, R112). -/
def Region.tookWrite (r : Region) (c : Cl) (a : BitVec 19) (d m : Entry) : Region :=
  let r := r.took c (.wr c a d m (BitVec.ofNat 11 (r.strokeNo c)) r.takes)
  r.setCl c { r.cl c with memOut := (r.cl c).memOut + 1 }

theorem replayUndos_of_not_replaying {s : State} {rg : Rg} (h : (s.rgn rg).replaying = false) (p : Nat) : replayUndos s rg p = s := by
  unfold replayUndos
  exact if_pos (by rw [h]; decide)

theorem replaying_bumpR {s : State} {rg : Rg} {x : Fld} (hx : F.RWD_STATUS_MODE.off ≠ x.off) (n : Nat) :
    ((s.bumpR rg x n).rgn rg).replaying = (s.rgn rg).replaying :=
  congrArg (· == 3) (State.rf_bumpR_off s rg rg _ _ _ hx)

theorem exec_frontPortTake_memrd {s : State} {rg : Rg} {c : Cl} {n : BitVec 3} {a : BitVec 19} (htaker : (s.rgn rg).nextTaker = some c)
    (hlead : (s.cl rg c).lead = .memrd n a) (hreplay : (s.rgn rg).replaying = false) (ns us : Word) :
    exec (.frontPortTake rg ns us .clean) s = .next
      (finishBp ((s.bumpR rg F.RGN_MEM_WAIT_NS ns.toNat).onRgn rg fun r => r.tookRead c n a) rg c 0 none) := by
  have hlead : ((s.rgn rg).cl c).lead = .memrd n a := hlead
  have hkeep := replayUndos_of_not_replaying ((replaying_bumpR (x := F.RGN_MEM_WAIT_NS) (by simp) ns.toNat).trans hreplay) (s.rgn rg).takes.toNat
  show execFrontPortTake rg ns us .clean s = _
  unfold execFrontPortTake
  simp only [htaker, hlead, tableEcc, hkeep]
  rfl

theorem exec_frontPortTake_memwr {s : State} {rg : Rg} {c : Cl} {a : BitVec 19} {d m : Entry} (htaker : (s.rgn rg).nextTaker = some c)
    (hlead : (s.cl rg c).lead = .memwr a d m) (hroom : (s.rgn rg).undoFull = false) (hreplay : (s.rgn rg).replaying = false)
    (ns us : Word) :
    exec (.frontPortTake rg ns us .clean) s = .next
      (finishBp (((s.bumpR rg F.RGN_MEM_WAIT_NS ns.toNat).bumpR rg F.RWD_UNDO_WAIT_NS us.toNat).onRgn rg
        fun r => r.tookWrite c a d m) rg c 0 none) := by
  have hlead : ((s.rgn rg).cl c).lead = .memwr a d m := hlead
  have hkeep := replayUndos_of_not_replaying ((replaying_bumpR (s := s.bumpR rg F.RGN_MEM_WAIT_NS ns.toNat) (x := F.RWD_UNDO_WAIT_NS)
    (by simp) us.toNat).trans ((replaying_bumpR (x := F.RGN_MEM_WAIT_NS) (by simp) ns.toNat).trans hreplay)) (s.rgn rg).takes.toNat
  show execFrontPortTake rg ns us .clean s = _
  unfold execFrontPortTake
  simp only [htaker, hlead, hroom, tableEcc, hkeep]
  rfl

/-- What the front port's take leaves in the region, with the lead BP's stroke complete. -/
theorem finish_onRgn {s : State} {rg : Rg} {c : Cl} (g : Region → Region) {t : State}
    (ht : t = finishBp (s.onRgn rg g) rg c 0 none) :
    (t.rgn rg).front = (g (s.rgn rg)).front ∧ (t.rgn rg).mpos = (g (s.rgn rg)).mpos ∧
      (t.cl rg c).memOut = ((g (s.rgn rg)).cl c).memOut ∧ (t.cl rg c).portFull = ((g (s.rgn rg)).cl c).portFull ∧
      (t.cl rg c).lead = .none := by
  subst ht
  have hfin := finishBp_finished (s.onRgn rg g) rg c 0 none
  obtain ⟨-, -, hfront, hmpos, -⟩ := hfin.stores
  obtain ⟨-, hlead, hmem, hport, -⟩ := hfin.cl_fields
  have hcl : (s.onRgn rg g).cl rg c = (g (s.rgn rg)).cl c := by rw [State.cl, State.rgn_onRgn_same]
  rw [State.rgn_onRgn_same] at hfront hmpos
  rw [hcl] at hmem hport
  exact ⟨hfront, hmpos, hmem, hport, hlead⟩

/-- The count of a wait has no part in the stroke's number. -/
theorem Region.strokeNo_bump (r : Region) {x : Fld} (k : Nat) (c : Cl) (h : R.CLU_STATUS c.toNat ≠ x.off) :
    (r.bump x k).strokeNo c = r.strokeNo c :=
  congrArg (Fld.of _) (r.reg_bump_other x k h)

/-! ### The front port performs an access -/

/-- A replay's due writes change the design memory and the list of accesses only (R138). -/
theorem redoFront_frame (n : Nat) (r : Region) : ∃ d u f, redoFront n r = { r with dmem := d, upsets := u, front := f } := by
  induction n generalizing r with
  | zero => exact ⟨r.dmem, r.upsets, r.front, rfl⟩
  | succ n ih =>
    unfold redoFront
    split
    · next a v l _ =>
      obtain ⟨d, u, f, h⟩ := ih { r.putDmem a v with front := (r.front.takeWhile FrontAcc.isRead).map (keepOld r a) ++ l }
      exact ⟨d, u, f, h⟩
    · exact ⟨r.dmem, r.upsets, r.front, rfl⟩

theorem Region.redo_frame (r : Region) : ∃ d u f, r.redo = { r with dmem := d, upsets := u, front := f } := redoFront_frame _ _

/-- Behind reads no replay's write is due. -/
theorem redoFront_of_reads {r : Region} (h : ∀ x ∈ r.front, FrontAcc.isRead x = true) (n : Nat) : redoFront n r = r := by
  cases n with
  | zero => rfl
  | succ n =>
    unfold redoFront
    rw [List.dropWhile_eq_nil_iff.mpr h]

theorem mapped_reads {l : List FrontAcc} (h : ∀ x ∈ l, FrontAcc.isRead x = true) (r : Region) (a : BitVec 19) :
    ∀ x ∈ l.map (keepOld r a), FrontAcc.isRead x = true := by
  intro x hx
  obtain ⟨y, hy, rfl⟩ := List.mem_map.mp hx
  have hread := h y hy
  cases y with
  | rd c k addr st stale v => cases v <;> simp only [keepOld] <;> [split; skip] <;> rfl
  | wr => exact hread
  | redo => exact hread

/-- The region with the oldest read's data in its entry (R102). -/
def Region.filled (r : Region) (c : Cl) (k : BitVec 3) (v : Entry) : Region :=
  r.setCl c { r.cl c with ports := SMap.set 0 (r.cl c).ports (4 + k.toNat) v, portFull := setBit (r.cl c).portFull (4 + k.toNat) true }

/-- The word that a read in flight returns: the one kept for it, or the one stored now (R102). -/
def Region.readWord (r : Region) (a : BitVec 19) (v : Option (Entry × Ecc)) : Entry := (v.map (·.1)).getD (SMap.get 0 r.dmem a.toNat)

theorem exec_memrdData_of_clean {s : State} {rg : Rg} {c : Cl} {k : BitVec 3} {a : BitVec 19} {st : BitVec 11}
    {v : Option (Entry × Ecc)} {rest : List FrontAcc} (hfront : (s.rgn rg).front = .rd c k a st false v :: rest)
    (hiso : s.rf rg F.RGN_CTRL_ISOLATE = 0) (hv : ∀ x, v = some x → x.2 ≠ .uncorrectable)
    (hclean : (s.rgn rg).checked (dmemKey a.toNat) .clean = .clean) :
    ∃ r : Region, r.clusters = (s.rgn rg).clusters ∧ exec (.memrdData rg .clean) s = .next
      (((s.setRgn rg r).onRgn rg (fun r => r.filled c k ((s.rgn rg).readWord a v))).onRgn rg fun r => (r.showStall c).redo) := by
  have hno (r : Region) (hr : r.regs = (s.rgn rg).regs) : (s.setRgn rg r).rbit rg F.RGN_CTRL_ISOLATE = false := by
    have hrf : (s.setRgn rg r).rf rg F.RGN_CTRL_ISOLATE = 0 := by
      rw [State.rf, State.rgn_setRgn_same, Region.f, Region.reg, hr]; exact hiso
    simp [State.rbit, hrf]
  have hexec : exec (.memrdData rg .clean) s = execMemrdData rg .clean s := rfl
  rw [hexec]
  unfold execMemrdData
  dsimp only
  rw [hfront]
  obtain _ | ⟨w, e⟩ := v
  · refine ⟨{ (s.rgn rg).afterRead (dmemKey a.toNat) .clean with front := rest }, rfl, ?_⟩
    simp only [Option.isNone_none, hclean, if_true, Bool.false_eq_true, false_or,
      hno { (s.rgn rg).afterRead (dmemKey a.toNat) .clean with front := rest } rfl, if_false]
    rfl
  · refine ⟨{ s.rgn rg with front := rest }, rfl, ?_⟩
    cases e with
    | uncorrectable => exact absurd rfl (hv _ rfl)
    | clean | single =>
      simp only [Option.isNone_some, Bool.false_eq_true, false_or, if_false, hno { s.rgn rg with front := rest } rfl]
      rfl

theorem memrdData_effect (s : State) (rg : Rg) (c : Cl) (k : BitVec 3) (v : Entry) {r : Region} (hr : r.clusters = (s.rgn rg).clusters) :
    let t := ((s.setRgn rg r).onRgn rg (fun r => r.filled c k v)).onRgn rg fun r => (r.showStall c).redo
    SMap.get 0 (t.cl rg c).ports (4 + k.toNat) = v ∧ (t.cl rg c).portFull.getLsbD (4 + k.toNat) = true ∧ OnlyRegion rg s t := by
  intro t
  have hcl : t.cl rg c = (r.filled c k v).cl c := by
    obtain ⟨d, u, f, h⟩ := ((r.filled c k v).showStall c).redo_frame
    show (t.rgn rg).cl c = _
    rw [State.rgn_onRgn_same, State.rgn_onRgn_same, State.rgn_setRgn_same, h]
    exact Region.cl_showStall _ _ _
  rw [hcl, Region.filled, Region.cl_setCl_same]
  exact ⟨SMap.get_set_same _ _ _ _, getLsbD_setBit_same _ _ (by omega),
    ⟨rfl, fun rh hrh => (State.rgn_onRgn_ne _ _ hrh).trans ((State.rgn_onRgn_ne _ _ hrh).trans (State.rgn_setRgn_ne _ _ hrh))⟩⟩

/-- A discarded record is counted, and noted for the GAP record (R133). -/
theorem Region.discard_frame (r : Region) (cycle : BitVec 48) : ∃ regs rwd, r.discard cycle = { r with regs := regs, rwd := rwd } := by
  unfold Region.discard
  dsimp only
  split
  · exact ⟨_, _, rfl⟩
  · exact ⟨_, _, rfl⟩

/-- What pushing an undo entry leaves: the region's design memory, accesses and clusters, and all outside it (R112). -/
theorem pushUndo_frame (s : State) (rg : Rg) (u : UndoEntry) :
    (∃ regs rwd, (pushUndo s rg u).rgn rg = { s.rgn rg with regs := regs, rwd := rwd }) ∧ OnlyRegion rg s (pushUndo s rg u) := by
  have hset (r : Region) (hr : ∃ regs rwd, r = { s.rgn rg with regs := regs, rwd := rwd }) :
      (∃ regs rwd, (s.setRgn rg r).rgn rg = { s.rgn rg with regs := regs, rwd := rwd }) ∧ OnlyRegion rg s (s.setRgn rg r) := by
    rw [State.rgn_setRgn_same]
    exact ⟨hr, rfl, fun rh hrh => State.rgn_setRgn_ne _ _ hrh⟩
  unfold pushUndo
  dsimp only
  split
  · exact ⟨⟨_, _, rfl⟩, .refl rg s⟩
  · split
    · exact hset _ ((s.rgn rg).discard_frame _)
    · exact hset _ ⟨_, _, rfl⟩

/-- The region with the write performed: `rest` waits behind it (R74, R112). -/
def Region.wrote (r : Region) (a : BitVec 19) (d m : Entry) (rest : List FrontAcc) : Region :=
  { r.putDmem a ((SMap.get 0 r.dmem a.toNat &&& ~~~ m) ||| (d &&& m)) with front := rest }

/-- The undo entry of the write: the word as it was (R112). -/
def Region.undoEntry (r : Region) (a : BitVec 19) (pos : BitVec 13) (c : Cl) : UndoEntry :=
  ⟨r.executing, a, pos, 6, c, false, SMap.get 0 r.dmem a.toNat, none⟩

/-- The state with the write performed, its undo entry pushed and the count of the cluster's writes taken down (R74, R112). -/
def State.wrote (s : State) (rg : Rg) (c : Cl) (a : BitVec 19) (d m : Entry) (pos : BitVec 13) (rest : List FrontAcc) : State :=
  ((pushUndo (s.setRgn rg ((s.rgn rg).wrote a d m rest)) rg ((s.rgn rg).undoEntry a pos c)).onCl rg c
    (fun x => { x with memOut := x.memOut - 1 })).onRgn rg Region.redo

theorem exec_memwrPerformed_of_clean {s : State} {rg : Rg} {c : Cl} {a : BitVec 19} {d m : Entry} {st : BitVec 11} {pos : BitVec 13}
    {rest : List FrontAcc} (hfront : (s.rgn rg).front = .wr c a d m st pos :: rest)
    (hclean : (s.rgn rg).checked (dmemKey a.toNat) .clean = .clean) :
    exec (.memwrPerformed rg .clean) s = .next
      (tryEnd (s.wrote rg c a d m pos rest) rg c) := by
  have hexec : ((s.setRgn rg ((s.rgn rg).wrote a d m rest)).rgn rg).executing = (s.rgn rg).executing := by
    rw [State.rgn_setRgn_same]; rfl
  show execMemwrPerformed rg .clean s = _
  unfold execMemwrPerformed
  dsimp only
  rw [hfront]
  simp only [FrontAcc.isRead, List.dropWhile_cons_of_neg, List.takeWhile_cons_of_neg, hclean, Bool.false_eq_true, not_false_eq_true,
    State.wrote, Region.undoEntry, ← hexec]
  rfl

theorem rgn_wrote (s : State) (rg : Rg) (c : Cl) (a : BitVec 19) (d m : Entry) (pos : BitVec 13) {rest : List FrontAcc}
    (hrest : ∀ x ∈ rest, FrontAcc.isRead x = true) :
    ∃ regs rwd cls, (s.wrote rg c a d m pos rest).rgn rg =
      Region.setCl { (s.rgn rg).wrote a d m rest with regs := regs, rwd := rwd, clusters := cls } c
        { s.cl rg c with memOut := (s.cl rg c).memOut - 1 } := by
  obtain ⟨⟨regs, rwd, hundo⟩, -⟩ := pushUndo_frame (s.setRgn rg ((s.rgn rg).wrote a d m rest)) rg ((s.rgn rg).undoEntry a pos c)
  rw [State.rgn_setRgn_same] at hundo
  refine ⟨regs, rwd, (s.rgn rg).clusters, ?_⟩
  have hcl : (pushUndo (s.setRgn rg ((s.rgn rg).wrote a d m rest)) rg ((s.rgn rg).undoEntry a pos c)).cl rg c = s.cl rg c := by
    rw [State.cl, hundo]; rfl
  unfold State.wrote
  rw [State.rgn_onRgn_same, State.onCl, hcl, State.setCl, State.rgn_onRgn_same, hundo]
  exact redoFront_of_reads hrest _

theorem onlyRegion_wrote (s : State) (rg : Rg) (c : Cl) (a : BitVec 19) (d m : Entry) (pos : BitVec 13) (rest : List FrontAcc) :
    OnlyRegion rg s (s.wrote rg c a d m pos rest) := by
  have hset : OnlyRegion rg s (s.setRgn rg ((s.rgn rg).wrote a d m rest)) := ⟨rfl, fun rh hrh => State.rgn_setRgn_ne _ _ hrh⟩
  exact ((hset.trans (pushUndo_frame _ rg _).2).onRgn _).onRgn _

theorem memwrPerformed_effect (s : State) (rg : Rg) (c : Cl) (a : BitVec 19) (d m : Entry) (pos : BitVec 13) {rest : List FrontAcc}
    (hrest : ∀ x ∈ rest, FrontAcc.isRead x = true) :
    ((tryEnd (s.wrote rg c a d m pos rest) rg c).rgn rg).dmem = ((s.rgn rg).wrote a d m rest).dmem ∧
      ((tryEnd (s.wrote rg c a d m pos rest) rg c).cl rg c).memOut = (s.cl rg c).memOut - 1 ∧
      OnlyRegionDrawn rg s (tryEnd (s.wrote rg c a d m pos rest) rg c) := by
  obtain ⟨regs, rwd, cls, hrgn⟩ := rgn_wrote s rg c a d m pos hrest
  have hcl : (s.wrote rg c a d m pos rest).cl rg c = { s.cl rg c with memOut := (s.cl rg c).memOut - 1 } := by
    rw [State.cl, hrgn, Region.cl_setCl_same]
  obtain ⟨⟨regs', cls', hr⟩, ⟨p', n', w', ws', run', e', hk⟩, honly', -⟩ := tryEnd_mayEnd (s.wrote rg c a d m pos rest) rg c
  refine ⟨?_, ?_, (onlyRegion_wrote s rg c a d m pos rest).drawn.trans honly'⟩
  · rw [hr, hrgn]; rfl
  · rw [hk, hcl]

/-! ### PROBE -/

/-- The record of a PROBE of the lead BP (R104). -/
def Region.probeRec (r : Region) (c : Cl) (num : BitVec 10) (v : Entry) : ProbeRec :=
  ⟨r.executing, num, c, BitVec.ofNat 11 (r.strokeNo c), v⟩

theorem takeProbe_with_room {s : State} {rg : Rg} {c : Cl} {num : BitVec 10} {v : Entry} (hkept : (s.rgn rg).probeDropped = false)
    (hfull : s.rf rg F.RWD_STATUS_FULL = 0) :
    ((takeProbe s rg c num v).rgn rg).rwd.probes = (s.rgn rg).rwd.probes ++ [(s.rgn rg).probeRec c num v] ∧
      ((takeProbe s rg c num v).cl rg c).lead = .none ∧ ((takeProbe s rg c num v).cl rg c).done.getLsbD 0 = true ∧
      OnlyRegionDrawn rg s (takeProbe s rg c num v) := by
  have hfull : (s.rgn rg).f F.RWD_STATUS_FULL = 0 := hfull
  have htake : ∃ r : Region, r.rwd.probes = (s.rgn rg).rwd.probes ++ [(s.rgn rg).probeRec c num v] ∧
      takeProbe s rg c num v = finishBp (s.setRgn rg r) rg c 0 none := by
    refine ⟨_, ?_, (if_neg (by rw [hkept]; decide)).trans (if_neg (by simp [Region.bit, hfull]))⟩
    rfl
  obtain ⟨r, hr, heq⟩ := htake
  rw [heq]
  generalize hu : s.setRgn rg r = u
  have hfin := finishBp_finished u rg c 0 none
  obtain ⟨-, -, -, -, hrwd⟩ := hfin.stores
  obtain ⟨-, hlead, -, -, hdone⟩ := hfin.cl_fields
  refine ⟨?_, hlead, hdone, OnlyRegionDrawn.trans ?_ hfin.only⟩
  · rw [hrwd, ← hu, State.rgn_setRgn_same, hr]
  · rw [← hu]
    exact ⟨rfl, fun rh hrh => State.rgn_setRgn_ne _ _ hrh⟩

/-- The time that PROBEs waited has no part in what becomes of their records. -/
theorem probeDropped_bumpR (s : State) (rg : Rg) (n : Nat) :
    ((s.bumpR rg F.RGN_PROBE_WAIT_NS n).rgn rg).probeDropped = (s.rgn rg).probeDropped := by
  rw [State.rgn_bumpR_same]
  simp [Region.probeDropped, Region.bit, Region.mode, Region.replaying]

theorem exec_probe_with_room {s : State} {rg : Rg} {c : Cl} {v : Entry} (hat : AtStroke s rg c 0 12) (hv : OperandIs s rg c 0 0 v)
    (hroom : (s.rgn rg).rwd.probes.length < 16) :
    exec (.probe rg c 0) s = .next (takeProbe (s.keepStroke rg c 0) rg c (strokeCtrl (strokeAt s rg c 0)) v) := by
  have hroom' : ((s.keepStroke rg c 0).rgn rg).probeRoom = true := by
    rw [State.rgn_keepStroke]; simp [Region.probeRoom, hroom]
  refine congrArg Host.Outcome.next ((runBp_of_clean hat rfl _).trans ((withOperands_one (operand_keepStroke hv) _).trans ?_))
  exact if_pos hroom'

theorem exec_traceWriterTake_with_room {s : State} {rg : Rg} {c : Cl} {num : BitVec 10} {v : Entry} (hlead : (s.cl rg c).lead = .probe num v)
    (hroom : (s.rgn rg).rwd.probes.length < 16) (ns : Word) :
    exec (.traceWriterTake rg c ns) s = .next (takeProbe (s.bumpR rg F.RGN_PROBE_WAIT_NS ns.toNat) rg c num v) := by
  have hroom' : (s.rgn rg).probeRoom = true := by simp [Region.probeRoom, hroom]
  show execTraceWriterTake rg c ns s = _
  unfold execTraceWriterTake
  rw [hlead]
  exact congrArg Host.Outcome.next (if_pos hroom')

/-! ### HALTIF and END -/

/-- What a HALTIF with its condition bit at 1 does before the stroke completes: the count, the first such HALTIF, the hold (R105). -/
def haltifHit (s : State) (rg : Rg) (c : Cl) : State :=
  let r := s.rgn rg
  let s := s.bumpR rg F.RGN_HALTIF_CNT_HITS 1
  let s := if r.bit F.RGN_HALT_SRC_HIT then s
    else s.onRgn rg (fun q => (q.setReg R.RGN_HALT_SRC (faultKey [(c.toNat, 4), (q.strokeNo c, 11), (1, 1)])).setReg
      R.RGN_HALT_CYCLE (r.executing.truncate 32))
  if r.bit F.RGN_CTRL_HALTIF_EN then
    match s.jobOf rg with
    | some j => requestHold s j 1 r.executing
    | none => s
  else s

theorem exec_haltif_of_hit {s : State} {rg : Rg} {c : Cl} {v : Entry} (hat : AtStroke s rg c 0 13) (hv : OperandIs s rg c 0 0 v)
    (hbit : v.getLsbD (strokeOpd (strokeAt s rg c 0) 0).2.toNat = true) :
    exec (.haltif rg c 0) s = .next (finishBp (haltifHit (s.keepStroke rg c 0) rg c) rg c 0 none) := by
  refine congrArg Host.Outcome.next ((runBp_of_clean hat rfl _).trans ((withOperands_one (operand_keepStroke hv) _).trans ?_))
  exact if_pos hbit

/-- The HIT bit of a HALT_SRC word reads 1. -/
theorem f_faultKey_hit (r : Region) (c : Cl) (n : Nat) :
    (r.setReg R.RGN_HALT_SRC (faultKey [(c.toNat, 4), (n, 11), (1, 1)])).f F.RGN_HALT_SRC_HIT = 1 := by
  have hc : c.toNat < 16 := c.isLt
  rw [Region.f, Region.reg_setReg_same]
  simp [Fld.of, faultKey, packKey]
  omega

/-- A finished stroke leaves the registers in front of the clusters' ones. -/
theorem BpFinished.rf_below {rg : Rg} {c : Cl} {b : Bp} {s t : State} (h : BpFinished rg c b s t) {x : Fld} (hx : x.off < 0x4000) :
    t.rf rg x = s.rf rg x := by
  refine h.rf x ?_ ?_ ?_
  · unfold R.CLU_STALL_TIME; omega
  · unfold R.CLU_STATUS; omega
  · unfold R.CLU_CYCLE_TIME; omega

/-- HALTIF counts, and HALT_SRC.HIT is 1 behind it: a hold that it requests leaves both. -/
theorem rf_haltifHit (s : State) (rg : Rg) (c : Cl) :
    (haltifHit s rg c).rf rg F.RGN_HALTIF_CNT_HITS = min (s.rf rg F.RGN_HALTIF_CNT_HITS + 1) F.RGN_HALTIF_CNT_HITS.max ∧
      (haltifHit s rg c).rf rg F.RGN_HALT_SRC_HIT = 1 := by
  generalize hu : s.bumpR rg F.RGN_HALTIF_CNT_HITS 1 = u
  have hcount : u.rf rg F.RGN_HALTIF_CNT_HITS = min (s.rf rg F.RGN_HALTIF_CNT_HITS + 1) F.RGN_HALTIF_CNT_HITS.max := by
    rw [← hu]; simp
  have hhit : u.rf rg F.RGN_HALT_SRC_HIT = s.rf rg F.RGN_HALT_SRC_HIT := by rw [← hu]; simp
  generalize hv : (if (s.rgn rg).bit F.RGN_HALT_SRC_HIT then u
    else u.onRgn rg (fun q => (q.setReg R.RGN_HALT_SRC (faultKey [(c.toNat, 4), (q.strokeNo c, 11), (1, 1)])).setReg
      R.RGN_HALT_CYCLE ((s.rgn rg).executing.truncate 32))) = v
  have hnoted : v.rf rg F.RGN_HALTIF_CNT_HITS = u.rf rg F.RGN_HALTIF_CNT_HITS ∧ v.rf rg F.RGN_HALT_SRC_HIT = 1 := by
    rw [← hv]
    split
    case isTrue h =>
      have hone : u.rf rg F.RGN_HALT_SRC_HIT ≠ 0 := by rw [hhit]; exact bne_iff_ne.mp h
      have hlt := u.rf_lt rg F.RGN_HALT_SRC_HIT
      exact ⟨rfl, by simp at hlt; omega⟩
    case isFalse h =>
      rw [State.rf_onRgn_same, State.rf_onRgn_same]
      refine ⟨(Region.f_setReg_ne _ _ _ (by simp)).trans (Region.f_setReg_ne _ _ _ (by simp)), (Region.f_setReg_ne _ _ _ (by simp)).trans ?_⟩
      exact f_faultKey_hit _ _ _
  have hheld : HoldKeeps v (haltifHit s rg c) := by
    unfold haltifHit
    dsimp only
    rw [hu, hv]
    split
    · split
      · exact (HoldKeeps.refl v).requestHold _ _ _
      · exact .refl v
    · exact .refl v
  obtain ⟨hc, hh⟩ := hnoted
  exact ⟨(hheld.rf rg _ (by simp)).trans (hc.trans hcount), (hheld.rf rg _ (by simp)).trans hh⟩

theorem exec_endStroke_of_last {s : State} {rg : Rg} {c : Cl} (ns : BitVec 20) (hat : AtStroke s rg c 0 15) (hmem : (s.cl rg c).memOut = 0)
    (hprobe : (s.cl rg c).probeOut = 0) :
    exec (.endStroke rg c 0 ns) s =
      .next (completeBp ((s.keepStroke rg c 0).setRf rg (F.CLU_CYCLE_TIME_LAST c.toNat) ns.toNat) rg c 0 none) :=
  congrArg Host.Outcome.next ((if_pos ⟨hmem, hprobe⟩).trans (runBp_of_clean hat rfl _))

/-- A cluster whose every BP stands at the end of its last stroke ends its cycle (R73). -/
theorem tryEnd_of_all_done {s : State} {rg : Rg} {c : Cl} (hrun : (s.cl rg c).running = true) (hdone : (s.cl rg c).done = BitVec.allOnes 64)
    (hlast : (s.rgn rg).strokeNo c = (s.rgn rg).endAt c) (hmem : (s.cl rg c).memOut = 0) (hprobe : (s.cl rg c).probeOut = 0) :
    ((tryEnd s rg c).cl rg c).ended = true ∧ ((tryEnd s rg c).cl rg c).running = false := by
  unfold tryEnd
  dsimp only
  rw [if_pos ⟨hrun, hdone, hlast, hmem, hprobe⟩, State.cl_setCl_same]
  exact ⟨rfl, rfl⟩

/-- What CLU.STATUS says of a stall leaves the stroke's number. -/
theorem Region.strokeNo_showStall (r : Region) (c : Cl) : (r.showStall c).strokeNo c = r.strokeNo c := by
  have hset (r : Region) (x y z : Nat) :
      (((r.setF (F.CLU_STATUS_STALLED c.toNat) x).setF (F.CLU_STATUS_STALL_ENTRY c.toNat) y).setF
        (F.CLU_STATUS_STALL_BP c.toNat) z).strokeNo c = r.strokeNo c := by
    unfold Region.strokeNo
    rw [Region.f_setF_other _ _ _ _ (by simp) (by simp), Region.f_setF_other _ _ _ _ (by simp) (by simp),
      Region.f_setF_other _ _ _ _ (by simp) (by simp)]
  unfold Region.showStall
  dsimp only
  split
  · rfl
  · split
    · exact hset r 0 0 0
    · exact hset r 1 _ _

theorem Region.endAt_showStall (r : Region) (c : Cl) : (r.showStall c).endAt c = r.endAt c :=
  Region.f_showStall_ne r c (F.CLU_END_AT_INDEX c.toNat) (by unfold R.CLU_STATUS; simp)

/-- The lead BP's END with every other BP done ends the cluster's cycle. -/
theorem completeBp_ends {s : State} {rg : Rg} {c : Cl} (hrun : (s.cl rg c).running = true)
    (hdone : setBit (s.cl rg c).done 0 true = BitVec.allOnes 64) (hlast : (s.rgn rg).strokeNo c = (s.rgn rg).endAt c)
    (hmem : (s.cl rg c).memOut = 0) (hprobe : (s.cl rg c).probeOut = 0) :
    ((completeBp s rg c 0 none).cl rg c).ended = true ∧ ((completeBp s rg c 0 none).cl rg c).running = false := by
  generalize hu : s.onRgn rg (fun r => (r.setCl c ((r.cl c).completed 0 none)).showStall c) = u
  have heq : completeBp s rg c 0 none = tryEnd u rg c := by rw [← hu]; rfl
  have hcl : u.cl rg c = (s.cl rg c).completed 0 none := by rw [← hu]; simp [State.cl]
  have hrgn : u.rgn rg = ((s.rgn rg).setCl c ((s.cl rg c).completed 0 none)).showStall c := by rw [← hu, State.rgn_onRgn_same]; rfl
  have hlast' : (u.rgn rg).strokeNo c = (u.rgn rg).endAt c := by
    rw [hrgn, Region.strokeNo_showStall, Region.endAt_showStall]; exact hlast
  rw [heq]
  exact tryEnd_of_all_done (by rw [hcl]; exact hrun) (by rw [hcl]; exact hdone) hlast' (by rw [hcl]; exact hmem) (by rw [hcl]; exact hprobe)

/-- Settles O11: the front port, the trace writer and the lead BP do what R73 to R75 and R101 to R112 say. -/
theorem frontPortProbesAndEnd : Obligations.FrontPortProbesAndEnd := by
  unfold Obligations.FrontPortProbesAndEnd
  refine ⟨fun rg c ns us n a s htaker hlead hreplay => ?takeRead, fun rg c ns us a d m s htaker hlead hroom hreplay => ?takeWrite,
    fun rg c k a st v rest s hfront hiso hv hclean => ?read, fun rg c a d m st pos rest s hfront hrest hclean => ?write,
    fun rg c v s hat hv hkept hfull hroom => ?probe, fun rg c ns num v s hlead hkept hfull hroom => ?take,
    fun rg c v s hat hv hbit => ?haltif, fun rg c ns s hat hmem hprobe hdone hlast => ?ends⟩
  case takeRead =>
    refine ⟨_, exec_frontPortTake_memrd htaker hlead hreplay ns us, ?_⟩
    obtain ⟨hfront, hmpos, -, hport, hlead'⟩ := finish_onRgn (s := s.bumpR rg F.RGN_MEM_WAIT_NS ns.toNat) (c := c)
      (fun r => r.tookRead c n a) rfl
    rw [State.rgn_bumpR_same] at hfront hmpos hport
    have hstroke : ((s.rgn rg).bump F.RGN_MEM_WAIT_NS ns.toNat).strokeNo c = (s.rgn rg).strokeNo c :=
      Region.strokeNo_bump _ _ _ (by unfold R.CLU_STATUS; simp <;> omega)
    generalize ht : finishBp _ rg c 0 none = t at *
    refine ⟨hmpos, ?_, ?_, ?_, hlead'⟩
    · rw [hfront]; simp [Region.tookRead, Region.took, Region.setCl, Region.bump]
    · rw [hfront]
      refine List.getLast?_concat.trans ?_
      exact congrArg (fun n => some (FrontAcc.rd c _ a (BitVec.ofNat 11 n) false none)) hstroke
    · rw [hport, Region.tookRead, Region.cl_setCl_same]
      exact getLsbD_setBit_same _ _ (by omega)
  case takeWrite =>
    refine ⟨_, exec_frontPortTake_memwr htaker hlead hroom hreplay ns us, ?_⟩
    obtain ⟨hfront, -, hout, -, hlead'⟩ := finish_onRgn (s := (s.bumpR rg F.RGN_MEM_WAIT_NS ns.toNat).bumpR rg F.RWD_UNDO_WAIT_NS us.toNat)
      (c := c) (fun r => r.tookWrite c a d m) rfl
    rw [State.rgn_bumpR_same, State.rgn_bumpR_same] at hfront hout
    have hstroke : (((s.rgn rg).bump F.RGN_MEM_WAIT_NS ns.toNat).bump F.RWD_UNDO_WAIT_NS us.toNat).strokeNo c = (s.rgn rg).strokeNo c :=
      (Region.strokeNo_bump _ _ _ (by unfold R.CLU_STATUS; simp <;> omega)).trans
        (Region.strokeNo_bump _ _ _ (by unfold R.CLU_STATUS; simp <;> omega))
    refine ⟨hfront.trans ?_, hout.trans ?_, hlead'⟩
    · exact congrArg (fun n => (s.rgn rg).front ++ [FrontAcc.wr c a d m (BitVec.ofNat 11 n) (s.rgn rg).takes]) hstroke
    · rw [Region.tookWrite, Region.cl_setCl_same]
      dsimp only
      rw [cl_took]
      rfl
  case read =>
    obtain ⟨r, hr, hexec⟩ := exec_memrdData_of_clean hfront hiso hv hclean
    exact ⟨_, hexec, memrdData_effect s rg c k _ hr⟩
  case write =>
    obtain ⟨hdmem, hout, honly⟩ := memwrPerformed_effect s rg c a d m pos hrest
    refine ⟨_, exec_memwrPerformed_of_clean hfront hclean, ?_, fun a' ha' => ?_, hout, honly⟩
    · rw [hdmem]; exact SMap.get_set_same _ _ _ _
    · rw [hdmem]; exact SMap.get_set_ne _ _ _ ha'
  case probe =>
    have hrgn := s.rgn_keepStroke rg c 0
    obtain ⟨hrec, -, hdone, honly⟩ := takeProbe_with_room (s := s.keepStroke rg c 0) (c := c) (num := strokeCtrl (strokeAt s rg c 0)) (v := v)
      (by rw [hrgn]; exact hkept) (by rw [State.rf, hrgn]; exact hfull)
    refine ⟨_, exec_probe_with_room hat hv hroom, ⟨_, hrec.trans (congrArg (· ++ [_]) (by rw [hrgn])), rfl, rfl, rfl, ?_⟩, hdone,
      (s.onlyRegion_keepStroke rg c 0).drawn.trans honly⟩
    rw [hrgn]; rfl
  case take =>
    have hrgn := s.rgn_bumpR_same rg F.RGN_PROBE_WAIT_NS ns.toNat
    obtain ⟨hrec, hlead', -, honly⟩ := takeProbe_with_room (s := s.bumpR rg F.RGN_PROBE_WAIT_NS ns.toNat) (c := c) (num := num) (v := v)
      ((probeDropped_bumpR s rg ns.toNat).trans hkept) (by simp [hfull])
    exact ⟨_, exec_traceWriterTake_with_room hlead hroom ns, ⟨_, hrec.trans (congrArg (· ++ [_]) (by rw [hrgn]; rfl)), rfl, rfl⟩, hlead',
      ((OnlyRegion.refl rg s).bumpR _ _).drawn.trans honly⟩
  case haltif =>
    obtain ⟨hcount, hhit⟩ := rf_haltifHit (s.keepStroke rg c 0) rg c
    have hfin := finishBp_finished (haltifHit (s.keepStroke rg c 0) rg c) rg c 0 none
    have hrf (x : Fld) : (s.keepStroke rg c 0).rf rg x = s.rf rg x := by rw [State.rf, State.rgn_keepStroke]; rfl
    refine ⟨_, exec_haltif_of_hit hat hv hbit, ?_, ?_, hfin.cl_fields.2.2.2.2⟩
    · exact (hfin.rf_below (by decide)).trans (hcount.trans (by rw [hrf]))
    · exact (hfin.rf_below (by decide)).trans hhit
  case ends =>
    refine ⟨_, exec_endStroke_of_last ns hat hmem hprobe, ?_⟩
    obtain ⟨hturn, -, -⟩ := hat
    have hrun : (s.cl rg c).running = true := by
      unfold bpTurn at hturn
      simp only [Bool.and_eq_true] at hturn
      exact hturn.1.1.1.2
    generalize hu : (s.keepStroke rg c 0).setRf rg (F.CLU_CYCLE_TIME_LAST c.toNat) ns.toNat = u
    have honly : OnlyRegion rg s u := by rw [← hu]; exact (s.onlyRegion_keepStroke rg c 0).setRf _ _
    have hcl : u.cl rg c = s.cl rg c := by
      rw [← hu, ← s.cl_keepStroke rg c c 0, State.cl, State.setRf, State.rgn_onRgn_same]; rfl
    have hlast' : (u.rgn rg).strokeNo c = (u.rgn rg).endAt c := by
      have hreg (x : Fld) (hx : x.off ≠ R.CLU_CYCLE_TIME c.toNat) : u.rf rg x = s.rf rg x := by
        rw [← hu, State.rf_setRf_off _ _ _ _ _ _ hx, s.rf_keepStroke]
      exact (hreg (F.CLU_STATUS_STROKE c.toNat) (by unfold R.CLU_CYCLE_TIME; simp)).trans
        (hlast.trans (hreg (F.CLU_END_AT_INDEX c.toNat) (by unfold R.CLU_CYCLE_TIME; simp)).symm)
    obtain ⟨hfin, hrf⟩ := completeBp_finished u rg c 0 none
    obtain ⟨hended, hstop⟩ := completeBp_ends (s := u) (rg := rg) (c := c) (by rw [hcl]; exact hrun) (by rw [hcl]; exact hdone)
      hlast' (by rw [hcl]; exact hmem) (by rw [hcl]; exact hprobe)
    refine ⟨hended, hstop, (hrf _ ?_ ?_).trans ?_, honly.drawn.trans hfin.only⟩
    · unfold R.CLU_STALL_TIME; simp
    · unfold R.CLU_STATUS; simp
    · rw [← hu, State.rf_setRf_eq _ _ _ _ (by simp)]
      exact Nat.mod_eq_of_lt ns.isLt

end Sys2Proof.Machine
end

section
/-! PROOFS. A snapshot that a rewind completes with a slot missing (R124). -/

namespace Sys2Proof.Machine

/-- A snapshot of cycle 0 of which the last word is still to be written, and no slot has been copied. -/
def lastWordDue : Snapshot :=
  { cycle := 0, pos := 0, seq := 0, state := [], ports := [], full := [], exch := [], done := 4555 }

/-- Region 0 records that snapshot; slot 0 of cluster 0 is mapped, a rewind waits for the trace writer, and an undo entry waits too. -/
def missingSlot0 : State :=
  State.onRgn {} 0 fun r =>
    { (((((r.setF F.RGN_STATUS_IN_JOB 1).setF F.RGN_STATUS_CFG 1).setF F.RWD_CTRL_REC_EN 1).setF F.DMEM_STATUS_OWNER 4).setReg
        (R.RGN_XMAP 0) 256) with
      rwd := { r.rwd with restoring := some (0, 0, 0), undo := [⟨0, 0, 0, 0, 0, false, 0, none⟩], snap := some lastWordDue } }

/-- The state with the last word written and the port free. -/
def snapshotEnded : State := (missingSlot0.onRgn 0 fun r => r.writeSnap snapBlock).onRgn 0 Region.dropGrant

theorem exec_snapx_missing : exec (.snapx 0) missingSlot0 = .next snapshotEnded := by
  have hready : (missingSlot0.rgn 0).snapReady = true := by decide +kernel
  refine congrArg Host.Outcome.next ((if_pos hready).trans ?_)
  rw [traceGrant_of_owner (by decide) (by decide)]
  have hrestoring : (snapshotEnded.rgn 0).rwd.restoring = some (0, 0, 0) := by decide +kernel
  have hidle : (snapshotEnded.rgn 0).writerIdle = false := by decide +kernel
  show restoreIfIdle snapshotEnded 0 = snapshotEnded
  unfold restoreIfIdle
  rw [hrestoring]
  exact if_neg (by rw [hidle]; decide)

/-- Refutes O12: a snapshot that a rewind waits for is written without its missing slot, and its mark does not read COMPLETE. -/
theorem not_recordsRewindAndReplay : ¬ Obligations.RecordsRewindAndReplay := by
  unfold Obligations.RecordsRewindAndReplay
  rintro ⟨-, -, -, -, -, hlast, -⟩
  obtain ⟨t, hexec, -, hcomplete, -⟩ := hlast 0 lastWordDue missingSlot0 (by decide) (by decide) (by decide) (by decide)
  obtain rfl : snapshotEnded = t := Host.Outcome.next.inj (exec_snapx_missing.symm.trans hexec)
  exact absurd hcomplete (by decide +kernel)

end Sys2Proof.Machine
end

section
/-! PROOFS. A junction of a logged channel between a rewind and live running (R138, R140, R171). -/

namespace Sys2Proof.Machine

/-- Region 3 has been rewound; channel 1 of cluster 1 is logged, and its endpoint's one inbound lane sees the token that cell 5 shows. -/
def rewoundJunction5 : State :=
  State.onRgn {} 3 fun r =>
    { (((r.setF F.RGN_STATUS_CFG 1).setF F.RWD_STATUS_MODE 4).setReg R.RWD_JLOG_LO 32) with
      live := true, canvas := [(5, BitVec.ofNat 2048 (2 ^ 508 + 2 ^ 852 + 2 ^ 855))], cells := [(5, { y0 := some 77 })] }

theorem exec_junctionDeliver_rewound : exec (.junctionDeliver 3 1 1) rewoundJunction5 = .next rewoundJunction5 := by
  have hheld : (rewoundJunction5.rgn 3).jheld 1 1 = true := by decide +kernel
  exact congrArg Host.Outcome.next (if_pos (.inr (.inr (.inr (.inr (.inr (.inr (.inl hheld))))))))

/-- Refutes O13: from a rewind until live running resumes no live word reaches the entry of a logged channel, replaying or not. -/
theorem not_bundlesAndJunctions : ¬ Obligations.BundlesAndJunctions := by
  unfold Obligations.BundlesAndJunctions
  rintro ⟨-, -, -, -, hdeliver⟩
  obtain ⟨t, hexec, -, hfull⟩ := hdeliver 3 1 1 rewoundJunction5 (by decide +kernel) (by decide +kernel) (by decide +kernel)
    (by decide +kernel) (by decide +kernel) (by decide +kernel) (by decide +kernel) (by decide +kernel)
  obtain rfl : rewoundJunction5 = t := Host.Outcome.next.inj (exec_junctionDeliver_rewound.symm.trans hexec)
  exact absurd hfull (by decide +kernel)

end Sys2Proof.Machine
end

section
/-! PROOFS. A latch clocked by an acknowledge wire (R161). -/

namespace Sys2Proof.Machine

/-- Cell 5 of region 3 is in TOKEN mode, and its latches are clocked by the acknowledge wire of its input A. -/
def ackClockedCell5 : State :=
  State.onRgn {} 3 fun r =>
    { r.setF F.RGN_STATUS_CFG 1 with live := true, canvas := [(5, BitVec.ofNat 2048 (2 ^ 192 + 2 ^ 200 + 57 * 2 ^ 750))] }

theorem exec_latchClock_of_ack :
    exec (.latchClock 3 5 true 0) ackClockedCell5 = .next (ackClockedCell5.onRgn 3 fun r =>
      r.setCell 5 (Cell.clockTo (ackClockedCell5.cellCfg 3 5) false (staticWires ackClockedCell5 3 5 0) ((ackClockedCell5.rgn 3).cell 5))) := by
  have hlevel : (latchLevel ackClockedCell5 3 5).getD true = false := by decide +kernel
  refine congrArg Host.Outcome.next ((if_neg (by decide +kernel)).trans ?_)
  rw [hlevel]

/-- Refutes O15: an acknowledge wire stands low but for its pulses, so that the level of the command, which names such a wire, loads nothing. -/
theorem not_canvasChoicesAndLatches : ¬ Obligations.CanvasChoicesAndLatches := by
  unfold Obligations.CanvasChoicesAndLatches
  rintro ⟨-, -, -, -, -, -, -, -, hlatch, -⟩
  obtain ⟨t, hexec, hcell, -⟩ := hlatch 3 5 true 0 ackClockedCell5 (by decide +kernel) (by decide +kernel) (by decide +kernel)
    (by decide +kernel) (by decide +kernel) (by decide +kernel) (by decide +kernel)
  obtain rfl := Host.Outcome.next.inj (exec_latchClock_of_ack.symm.trans hexec)
  exact absurd (congrArg Cell.clk hcell) (by decide +kernel)

end Sys2Proof.Machine
end

section
/-! PROOFS. The reset of a core that a retouch holds in reset (R228, R360). -/

namespace Sys2Proof.Machine

/-- Region 0 runs and is being retouched, and the retouch holds its cores in reset. -/
def retouchedCores0 : State :=
  { State.onRgn {} 0 fun r => { r with live := true } with applying := some 0, rtc := { ({} : State).rtc with cores := true } }

/-- Refutes O24: a core whose region's cores a retouch holds stays in reset after its own reset. -/
theorem not_coreResetAndHostSide : ¬ Obligations.CoreResetAndHostSide := by
  unfold Obligations.CoreResetAndHostSide
  rintro ⟨hreset, -⟩
  obtain ⟨t, hexec, -, -, -, -, -, -, -, -, -, hstate⟩ := hreset 0 0 retouchedCores0 (by decide +kernel) (by decide +kernel) (by decide +kernel)
  obtain rfl : resetOne retouchedCores0 0 0 = t := Host.Outcome.next.inj hexec
  exact absurd hstate (by decide +kernel)

end Sys2Proof.Machine
end

section
/-! PROOFS. A shutdown asked for during a reset of the package (R446, R447). -/

namespace Sys2Proof.Machine

/-- The package is draining towards its reset. -/
def packageBeingReset : State :=
  ({} : State).setDrain 4 .reset

/-- Refutes O26: a shutdown requested while a package reset drains is not begun. -/
theorem not_powerStates : ¬ Obligations.PowerStates := by
  unfold Obligations.PowerStates
  rintro ⟨-, -, -, -, -, -, -, -, -, -, -, -, -, -, hshutdown, -⟩
  obtain ⟨t, hexec, hbegun⟩ := hshutdown packageBeingReset (by decide +kernel) (by decide +kernel)
  have hnext : execShutdown packageBeingReset = .next packageBeingReset :=
    congrArg Host.Outcome.next (if_pos (Or.inr (Or.inr (by decide +kernel))))
  obtain rfl : packageBeingReset = t := Host.Outcome.next.inj (hnext.symm.trans hexec)
  exact absurd hbegun (by decide +kernel)

end Sys2Proof.Machine
end

section
/-! PROOFS. A ticking watchdog while a slew inserts a tick (R54, R359). -/

namespace Sys2Proof.Machine

/-- The meridian is ALIGNED with one tick to insert, and the watchdog of core 0 of region 0 counts. -/
def slewBesideWatchdog : State :=
  let s : State := ((({} : State).setMer 3).setRf 0 (F.EAS_STATUS_STATE 0) 1).setRf 0 (F.EAS_WDOG_LIMIT 0) 5
  { s.setRf 0 (F.EAS_WDOG_CNT_COUNT 0) 5 with mer := { s.mer with slew := 1 } }

/-- Refutes O2: the inserted tick is counted by the watchdogs of the cores too, so that not the meridian alone changes. -/
theorem not_meridianReceiver : ¬ Obligations.MeridianReceiver := by
  unfold Obligations.MeridianReceiver
  rintro ⟨-, -, -, -, hinsert, -⟩
  obtain ⟨t, hexec, -, -, hframe⟩ := hinsert slewBesideWatchdog (by decide +kernel) (by decide +kernel)
  have hnext : exec .realignSlewStep slewBesideWatchdog =
      .next (countTick { slewBesideWatchdog with mer := { slewBesideWatchdog.mer with slew := slewBesideWatchdog.mer.slew - 1 } }) :=
    congrArg Host.Outcome.next ((if_neg (by decide +kernel)).trans (if_pos (by decide +kernel)))
  have ht := Host.Outcome.next.inj (hnext.symm.trans hexec)
  have hrgns : t.rgns = slewBesideWatchdog.rgns := (congrArg (fun s : State => s.rgns) hframe).trans rfl
  rw [← ht] at hrgns
  exact absurd hrgns (by decide +kernel)

end Sys2Proof.Machine
end

section
/-! PROOFS. The watchdog of the helm bus and an access that holds the turn of a packet (R368, R387). -/

namespace Sys2Proof.Machine

/-- An access of the helm bus that stands for a request of the packet plane. -/
def turnOfPacket : BusAccess :=
  { addr := 0, write := none, who := .helm,
    turn := some { dest := 0, src := 0, cmd := 0, tag := 0, len := 0, epoch := 0, vc := 0, addr := 0, data := [], poison := 0 } }

/-- Refutes O34: an access whose turn is that of a packet is not ended by the watchdog. -/
theorem not_helmBus : ¬ Obligations.HelmBus := by
  unfold Obligations.HelmBus
  rintro ⟨-, -, -, -, -, hwatchdog⟩
  obtain ⟨t, hexec, hbus, -⟩ := hwatchdog turnOfPacket { ({} : State) with bus := [turnOfPacket] } ⟨rfl, rfl⟩
  obtain rfl : { ({} : State) with bus := [turnOfPacket] } = t := Host.Outcome.next.inj hexec
  exact absurd hbus (by decide)

end Sys2Proof.Machine
end

section
/-! PROOFS. HALT of a core that has fetched a BPA (R414). -/

namespace Sys2Proof.Machine

/-- The debug port is open with core 0 of region 0 selected, which runs and has fetched a BPA. -/
def runningAtBpa : State :=
  let s : State := (({} : State).setF F.DBG_SESSION_ATTACH 1).setRf 0 F.RGN_STATUS_CFG 1
  { (s.setRf 0 (F.EAS_STATUS_STATE 0) 1).onEas 0 0 (fun e => { e with fetched := some (BitVec.ofNat 32 (0x1D * 2 ^ 26)) }) with
    pwr := { s.pwr with boot := .up }, dbg := { s.dbg with synced := true } }

/-- Refutes O49: a core that runs and has fetched a BPA is not halted before the BPA is through. -/
theorem not_haltedCores : ¬ Obligations.HaltedCores := by
  unfold Obligations.HaltedCores
  rintro ⟨hhalt, -⟩
  obtain ⟨t, hexec, hhalted, -⟩ := hhalt 0 0 runningAtBpa (by decide +kernel)
  obtain rfl : named runningAtBpa 9 (some (coreCtrlView runningAtBpa ||| 1)) .clean = t := Host.Outcome.next.inj hexec
  exact absurd hhalted (by decide +kernel)

end Sys2Proof.Machine
end

section
/-! PROOFS. A response that stands before a quadrant in the gate step (R257, R262). -/

namespace Sys2Proof.Machine

/-- A response for region 0. -/
def responseToRegion0 : Packet :=
  { dest := 0, src := 0, cmd := 0, tag := 0, len := 0, epoch := 0, vc := 2, addr := 0, data := [], poison := 0 }

/-- The response stands at input 16 of the switch of quadrant 0, whose gate step is under way. -/
def responseAtGate : State :=
  (({} : State).setDrain 0 (.gate 2)).setQueue (netKey 64 16 2) [responseToRegion0]

/-- Refutes O36: in the gate step a response for the quadrant is discarded and not passed on. -/
theorem not_packetPlane : ¬ Obligations.PacketPlane := by
  unfold Obligations.PacketPlane
  rintro ⟨-, -, -, -, -, -, -, -, -, -, hswitch, -⟩
  obtain ⟨t, hexec, -, hqueue⟩ := hswitch 0 16 2 responseToRegion0 [] responseAtGate (by decide +kernel) (by decide +kernel)
    (by decide +kernel) (by decide +kernel)
  have hrun : ∃ u, exec (.switchRoute (.quad 0) 16 2 0 []) responseAtGate = .next u ∧ u.queue (netKey 0 5 2) = [] := by
    refine ⟨_, rfl, ?_⟩
    decide +kernel
  obtain ⟨u, hu, hempty⟩ := hrun
  obtain rfl : u = t := Host.Outcome.next.inj (hu.symm.trans hexec)
  exact absurd (hempty.symm.trans hqueue) (by decide +kernel)

end Sys2Proof.Machine
end

section
/-! PROOFS. A DMEM section of a load into a region that was GATED (R27, R192). -/

namespace Sys2Proof.Machine

/-- The open DMEM section: one run of one word to address 0 of region 0. -/
def dmemSection : Section :=
  { typ := 5, enc := false, count := 1, len := 16, nonce := 0, start := 96 }

/-- A load over Oxdon has `dmemSection` staged; region 0 is GATED and its design memory reads 1 at address 1. -/
def loadIntoGated : State :=
  { (({} : State).setF F.CFG_STATUS_STATE 1).setRgn 0 (({ dmem := [(1, 1)] } : Region).setF F.RGN_STATUS_CFG 3) with
    load := { kind := .full, path := 2, point := 96, sec := some dmemSection,
              stage := stageWords [] 96 [BitVec.ofNat 32 (2 ^ 25), 0, 7, 0] } }

/-- Refutes O30: the record powers the gated region with empty stores, so that design memory outside the run does not stay. -/
theorem not_sectionsOfALoad : ¬ Obligations.SectionsOfALoad := by
  unfold Obligations.SectionsOfALoad
  rintro ⟨-, -, -, -, -, hdmem, -⟩
  obtain ⟨t, hexec, -, hkept, -⟩ := hdmem dmemSection (2 ^ 25) (bytesOf 8 7) loadIntoGated (by decide +kernel)
  obtain rfl : sectionStep loadIntoGated 5 takeRun = t := Host.Outcome.next.inj hexec
  exact absurd (hkept 1 (by decide)) (by decide +kernel)

end Sys2Proof.Machine
end

section
/-! PROOFS. The apply of a partial whose region is no longer configured (R224, R228). -/

namespace Sys2Proof.Machine

/-- A partial of the DMEM partition 1 of region 3, signature and all, is being applied with its bundles forced; region 3 is not configured. -/
def applyToAbsent : State :=
  { ((({} : State).setF F.RTC_STATUS_STATE 4).setF F.RTC_STATUS_PID 1).setReg (R.CFG_PART 128)
      (BitVec.ofNat 32 (1 + 2 ^ 10 * 3 + 2 ^ 16)) with
    rtc := { ({} : State).rtc with forced := true }
    load := { kind := .retouch, path := 2, point := 64,
              stage := stageWords [] 0 (([0x424C5241, 0x31535449, 0x000400C0, 0x00020001, 296, 0, 0, 0, 1, 0, 1, 0, 0, 0, 0, 0, 15, 0, 200] ++
                List.replicate 55 0).map (BitVec.ofNat 32)) } }

/-- The partition that the partial names. -/
def absentPartition : PartEntry := partEntry (1 + 2 ^ 10 * 3 + 2 ^ 16)

/-- Refutes O33: a region that is no longer configured when the partial is to be written makes the apply fail with code 22. -/
theorem not_retouchPort : ¬ Obligations.RetouchPort := by
  unfold Obligations.RetouchPort
  rintro ⟨-, -, -, -, -, -, -, -, -, happly, -⟩
  obtain ⟨u, hwritten⟩ : ∃ u, writePartial absentPartition { applyToAbsent with keys := applyToAbsent.rtc.keys } = .ok (u, 96, false) :=
    ⟨_, rfl⟩
  obtain ⟨t, hexec, -, hcode, -⟩ := happly absentPartition u 96 false applyToAbsent (by decide +kernel) (Or.inr rfl) hwritten (by decide +kernel)
  have hpart : applyToAbsent.partOf = some absentPartition := by decide +kernel
  have hnext : execApply applyToAbsent = .next (beginLate (rejectPartial applyToAbsent 22 absentPartition.rg 0) absentPartition.rg) := by
    unfold execApply
    rw [hpart]
    exact congrArg Host.Outcome.next
      ((if_neg (by decide +kernel)).trans ((if_neg (by decide +kernel)).trans (if_pos (by decide +kernel))))
  obtain rfl : beginLate (rejectPartial applyToAbsent 22 absentPartition.rg 0) absentPartition.rg = t :=
    Host.Outcome.next.inj (hnext.symm.trans hexec)
  exact absurd hcode (by decide +kernel)

end Sys2Proof.Machine
end

section
/-! PROOFS. Plain registers of the hub: accesses on the helm bus that have no rule of their own (R387, R475). -/

namespace Sys2Proof.Machine

/-! ### A register without a rule of its own -/

/-- The registers that the statements about the helm bus speak of. -/
abbrev PlainReg (a : Nat) : Prop := a ∈ [R.SEM_CTRL, R.PWR_TOL, R.FLT_ISB]

theorem plainReg_cases {a : Nat} (h : PlainReg a) : a = R.SEM_CTRL ∨ a = R.PWR_TOL ∨ a = R.FLT_ISB := by
  simpa only [PlainReg, List.mem_cons, List.not_mem_nil, or_false] using h

theorem placeOf_plain {a : Nat} (h : PlainReg a) : placeOf a = .hub a := by
  rcases plainReg_cases h with rfl | rfl | rfl <;> rfl

theorem storeHub_of_row {a : Nat} {row : RegRow} (h : hubRow a = some row) (s : State) (v : Word) :
    storeHub s a v = s.setReg a (row.written (s.reg a) v) := by
  unfold storeHub
  rw [h]

/-- A store to a register touches that register alone. -/
theorem storeHub_eq_setReg (s : State) (a : Nat) (v : Word) : storeHub s a v = s ∨ ∃ w, storeHub s a v = s.setReg a w := by
  unfold storeHub
  split
  · exact .inr ⟨_, rfl⟩
  · exact .inl rfl

theorem reg_storeHub_other (s : State) {a x : Nat} (v : Word) (h : x ≠ a) : (storeHub s a v).reg x = s.reg x := by
  rcases storeHub_eq_setReg s a v with heq | ⟨w, heq⟩ <;> rw [heq]
  exact State.reg_setReg_other _ _ h

@[simp] theorem storeHub_rgns (s : State) (a : Nat) (v : Word) : (storeHub s a v).rgns = s.rgns := by
  rcases storeHub_eq_setReg s a v with heq | ⟨w, heq⟩ <;> rw [heq] <;> rfl

@[simp] theorem storeHub_i3c (s : State) (a : Nat) (v : Word) : (storeHub s a v).i3c = s.i3c := by
  rcases storeHub_eq_setReg s a v with heq | ⟨w, heq⟩ <;> rw [heq] <;> rfl

@[simp] theorem storeHub_dbg (s : State) (a : Nat) (v : Word) : (storeHub s a v).dbg = s.dbg := by
  rcases storeHub_eq_setReg s a v with heq | ⟨w, heq⟩ <;> rw [heq] <;> rfl

theorem f_storeHub_other (s : State) {a : Nat} (v : Word) {f : Fld} (h : f.off ≠ a) : (storeHub s a v).f f = s.f f :=
  congrArg f.of (reg_storeHub_other s v h)

theorem writeHub_plain {a : Nat} (h : PlainReg a) (s : State) (v : Word) (w : Writer) : writeHub s a v w = storeHub s a v := by
  rcases plainReg_cases h with rfl | rfl | rfl <;> rfl

theorem hubRow_plain {a : Nat} (h : PlainReg a) : ∃ row, hubRow a = some row ∧ row.rc = 0 := by
  rcases plainReg_cases h with rfl | rfl | rfl
  · exact ⟨(hubRow R.SEM_CTRL).get (by decide), by simp, by decide⟩
  · exact ⟨(hubRow R.PWR_TOL).get (by decide), by simp, by decide⟩
  · exact ⟨(hubRow R.FLT_ISB).get (by decide), by simp, by decide⟩

theorem readHub_plain {a : Nat} (h : PlainReg a) (s : State) (m : ReadAs) : readHub s m a = ⟨s.reg a, true, s⟩ := by
  obtain ⟨row, hrow, hrc⟩ := hubRow_plain h
  have hview : hubView s a = s.reg a := by rcases plainReg_cases h with rfl | rfl | rfl <;> rfl
  have hread : readHub s m a = if m.quiet then ⟨s.reg a, true, s⟩ else ⟨s.reg a, true, s⟩ := by
    unfold readHub
    rw [hview]
    rcases plainReg_cases h with rfl | rfl | rfl <;> simp [hrow, hrc, clearHub]
  rw [hread, ite_self]

/-! ### An access of its own on the bus -/

/-- The access is one to a plain register, by register address. -/
structure BusAccess.Plain (b : BusAccess) (a : Nat) : Prop where
  plain : PlainReg a
  addr : b.addr.toNat = a
  turn : b.turn = none
  space : b.space = false

theorem busTry_of_plain {b : BusAccess} {a : Nat} (h : b.Plain a) (s : State) : busTry s b = busRegister s b := by
  obtain ⟨hplain, haddr, hturn, hspace⟩ := h
  unfold busTry
  rw [hturn, hspace, haddr]
  rcases plainReg_cases hplain with rfl | rfl | rfl <;> rfl

theorem busTry_write {b : BusAccess} {a : Nat} (h : b.Plain a) {v : Entry} (hw : b.write = some v) (s : State) :
    busTry s b = some ⟨.ok, 0, storeHub s a (v.truncate 32)⟩ := by
  have hplain := h.plain
  have hden : (writeHub (s.setF F.GPIO_DENIED_WRITES 0) a (v.truncate 32) b.who).f F.GPIO_DENIED_WRITES = 0 := by
    rw [writeHub_plain hplain, f_storeHub_other _ _ (by rcases plainReg_cases hplain with rfl | rfl | rfl <;> decide)]
    simp
  have hend : writeEnd s (.hub a) (v.truncate 32) b.who = ⟨.ok, 0, writeHub s a (v.truncate 32) b.who⟩ :=
    congrArg (fun how => BusDone.mk how 0 _) (if_neg (fun hc => hc.2 hden))
  rw [busTry_of_plain h, busRegister, h.addr, placeOf_plain hplain]
  dsimp only
  rw [hw, ← writeHub_plain hplain s _ b.who, ← hend]

theorem busTry_read {b : BusAccess} {a : Nat} (h : b.Plain a) (hw : b.write = none) (s : State) :
    busTry s b = some ⟨.ok, (s.reg a).zeroExtend 64, s⟩ := by
  rw [busTry_of_plain h, busRegister, h.addr, placeOf_plain h.plain]
  dsimp only
  rw [hw]
  dsimp only
  rw [readHub_plain h.plain]
  rfl

theorem runBus_cons_of_some {b : BusAccess} {rest : List BusAccess} {s : State} {d : BusDone}
    (h : busTry { s with bus := rest } b = some d) : runBus (b :: rest) s = runBus rest (endAccessOf d.st b rest d.how d.data) := by
  rw [runBus, h]

theorem putBus_free {s : State} (h : s.bus = []) (l : List BusAccess) : putBus s l = runBus l s := if_pos h

end Sys2Proof.Machine
end

section
/-! PROOFS. Private transfers of the I3C target, Hot-Join and in-band interrupts (R383–R389). -/

namespace Sys2Proof.Machine

/-! ### Bytes of a word -/

theorem wordAt_bytesOf (pre post : List (BitVec 8)) (v : Word) : wordAt (pre ++ (bytesOf 4 v.toNat ++ post)) pre.length = v := by
  refine BitVec.eq_of_toNat_eq ?_
  have := v.isLt
  rw [wordAt, List.drop_left]
  simp only [bytesOf, List.cons_append, List.take_succ_cons, List.take_zero, List.map_cons, List.map_nil, packKey, BitVec.toNat_ofNat]
  omega

theorem heldBytes_eq_bytesOf (v : Word) : (List.range 4).map (fun i => (bitsAt (v.zeroExtend 64) (8 * i) 8 : BitVec 8)) = bytesOf 4 v.toNat := by
  have hbyte (i : Nat) : (bitsAt (v.zeroExtend 64) (8 * i) 8 : BitVec 8) = BitVec.ofNat 8 (v.toNat / 2 ^ (8 * i)) := by
    refine BitVec.eq_of_toNat_eq ?_
    have hlt : v.toNat % 18446744073709551616 = v.toNat := Nat.mod_eq_of_lt (by have := v.isLt; omega)
    simp [bitsAt, Nat.shiftRight_eq_div_pow, hlt]
  simp only [hbyte, bytesOf]
  simp [List.range_succ, Nat.div_div_eq_div_mul]

/-! ### The end of a word of a transfer (R386) -/

theorem endI3c_write_more {s : State} {b : BusAccess} (hw : b.write.isNone = false) (data : Entry) : endI3c s b .ok data false = s := by
  simp [endI3c, hw, i3cCode]

theorem endI3c_write_last {s : State} {b : BusAccess} (hw : b.write.isNone = false) (hres : s.i3c.res = 0) (hat : s.i3c.at_ = 0)
    (data : Entry) : endI3c s b .ok data true = (s.setF F.HIF_ACC_STAT_RESULT 0).setF F.HIF_ACC_STAT_INDEX 0 := by
  simp [endI3c, hw, i3cCode, hres, hat]

theorem endI3c_read_last {s : State} {b : BusAccess} (hw : b.write.isNone = true) (hheld : s.i3c.held = []) (hres : s.i3c.res = 0)
    (hat : s.i3c.at_ = 0) (v : Word) :
    endI3c s b .ok (v.zeroExtend 64) true =
      ({ s with i3c := { s.i3c with out := (bytesOf 4 v.toNat).take s.i3c.mrl.toNat, held := [] } }.setF F.HIF_ACC_STAT_RESULT 0).setF
        F.HIF_ACC_STAT_INDEX 0 := by
  rw [← heldBytes_eq_bytesOf]
  simp [endI3c, hw, i3cCode, hheld, hres, hat]

/-! ### Transfers of one word to a plain register -/

/-- The state after a write transfer's word: the register is stored and the status records that all went well. -/
def i3cWritten (s : State) (a : Nat) (v : Word) : State :=
  (((storeHub s a v).setF F.HIF_ACC_STAT_RESULT 0).setF F.HIF_ACC_STAT_INDEX 0)

theorem runBus_i3c_write {s : State} {b : BusAccess} {a : Nat} {v : Word} (h : b.Plain a) (hwho : b.who = .i3c)
    (hw : b.write = some (v.zeroExtend 64)) (hres : s.i3c.res = 0) (hat : s.i3c.at_ = 0) :
    runBus [b] s = { i3cWritten { s with bus := [] } a v with bus := [] } := by
  have hv : ((v.zeroExtend 64 : Entry).truncate 32 : Word) = v := by simp
  rw [runBus_cons_of_some (busTry_write h hw { s with bus := [] }), endAccessOf, hwho]
  simp only [List.any_nil, Bool.not_false]
  rw [endI3c_write_last (by rw [hw]; rfl) (by simpa using hres) (by simpa using hat), hv]
  rfl

theorem runBus_i3c_read {s : State} {b : BusAccess} {a : Nat} (h : b.Plain a) (hwho : b.who = .i3c) (hw : b.write = none)
    (hheld : s.i3c.held = []) (hres : s.i3c.res = 0) (hat : s.i3c.at_ = 0) :
    runBus [b] s = { ({ s with i3c := { s.i3c with out := (bytesOf 4 (s.reg a).toNat).take s.i3c.mrl.toNat, held := [] } }.setF
      F.HIF_ACC_STAT_RESULT 0).setF F.HIF_ACC_STAT_INDEX 0 with bus := [] } := by
  rw [runBus_cons_of_some (busTry_read h hw { s with bus := [] }), endAccessOf, hwho]
  simp only [List.any_nil, Bool.not_false]
  rw [endI3c_read_last (by rw [hw]; rfl) (by simpa using hheld) (by simpa using hres) (by simpa using hat)]
  rfl

theorem reg_i3cWritten {a : Nat} (ha : PlainReg a) {row : RegRow} (hrow : hubRow a = some row) (s : State) (v : Word) :
    (i3cWritten s a v).reg a = row.written (s.reg a) v := by
  have hne : a ≠ R.HIF_ACC_STAT := by rcases plainReg_cases ha with rfl | rfl | rfl <;> decide
  rw [i3cWritten, storeHub_of_row hrow, State.reg_setF_other _ _ _ hne, State.reg_setF_other _ _ _ hne]
  simp

theorem f_i3cWritten (s : State) (a : Nat) (v : Word) :
    (i3cWritten s a v).f F.HIF_ACC_STAT_RESULT = 0 ∧ (i3cWritten s a v).f F.HIF_ACC_STAT_INDEX = 0 := by
  simp [i3cWritten]

/-! ### Transfers as they stand on the line -/

theorem privateHeader_taken {s : State} (h : s.i3cPrivate = true) (hb : s.i3cBusy = false) (f : State → State) : privateHeader s f = f s := by
  simp [privateHeader, h, hb]

theorem i3cBusy_of_free {s : State} (h : s.bus = []) : s.i3cBusy = false := by simp [State.i3cBusy, h]

/-- The address of a transfer to a plain register. -/
theorem wordAt_address (cmd : BitVec 8) (a : Word) (rest : List (BitVec 8)) : wordAt (cmd :: (bytesOf 4 a.toNat ++ rest)) 1 = a :=
  wordAt_bytesOf [cmd] rest a

theorem wordAt_first (cmd : BitVec 8) (a v : Word) (rest : List (BitVec 8)) :
    wordAt (cmd :: (bytesOf 4 a.toNat ++ (bytesOf 4 v.toNat ++ rest))) 5 = v :=
  wordAt_bytesOf (cmd :: bytesOf 4 a.toNat) rest v

theorem wordAt_second (cmd : BitVec 8) (a v w : Word) :
    wordAt (cmd :: (bytesOf 4 a.toNat ++ (bytesOf 4 v.toNat ++ bytesOf 4 w.toNat))) 9 = w := by
  have h := wordAt_bytesOf (cmd :: (bytesOf 4 a.toNat ++ bytesOf 4 v.toNat)) [] w
  rwa [List.append_nil, List.cons_append, List.append_assoc] at h

theorem aligned_plain {a : Nat} (h : PlainReg a) : a % 4 = 0 := by rcases plainReg_cases h with rfl | rfl | rfl <;> rfl

/-- An access of a transfer to a plain register. -/
theorem plain_access {a : Nat} (h : PlainReg a) (w : Option Entry) (i : BitVec 5) :
    BusAccess.Plain { addr := BitVec.ofNat 40 (a % 2 ^ 32), write := w, who := .i3c, index := i } a := by
  refine ⟨h, ?_, rfl, by simp [BusAccess.space]⟩
  rcases plainReg_cases h with rfl | rfl | rfl <;> rfl

theorem beginI3c_free {s : State} (h : s.bus = []) : { beginI3c s with bus := [] } = beginI3c s := by rw [← h]; rfl

/-- The access of word `j` of a transfer at one address. -/
def wordAccess (bytes : List (BitVec 8)) (write : Bool) (j : Nat) : BusAccess :=
  { addr := BitVec.ofNat 40 ((wordAt bytes 1).toNat % 2 ^ 32),
    write := if write then some ((wordAt bytes (5 + 4 * j)).zeroExtend 64) else none, who := .i3c, index := BitVec.ofNat 5 j }

theorem transfer_one (bytes : List (BitVec 8)) (fixed write : Bool) : transfer bytes 1 fixed write = [wordAccess bytes write 0] := by
  cases fixed <;> rfl

theorem transfer_two_fixed (bytes : List (BitVec 8)) (write : Bool) :
    transfer bytes 2 true write = [wordAccess bytes write 0, wordAccess bytes write 1] := rfl

theorem wordAccess_plain {bytes : List (BitVec 8)} (h : PlainReg (wordAt bytes 1).toNat) (write : Bool) (j : Nat) :
    (wordAccess bytes write j).Plain (wordAt bytes 1).toNat := plain_access h _ _

/-- A WRITE or WRITE_FIXED of one word. -/
theorem writeTransfer_one {s : State} {a : Word} {cmd : BitVec 8} (v : Word) (hpriv : s.i3cPrivate = true) (hfree : s.bus = [])
    (hmwl : 9 ≤ s.i3c.mwl.toNat) (ha : PlainReg a.toNat) (hn : cmd.toNat % 32 = 0) :
    writeTransfer s (cmd :: (bytesOf 4 a.toNat ++ bytesOf 4 v.toNat)) (cmd.toNat / 32) =
      { i3cWritten (beginI3c s) a.toNat v with bus := [] } := by
  have hwords : wordsIn (cmd :: (bytesOf 4 a.toNat ++ bytesOf 4 v.toNat)) = 1 := congrArg (· + 1) hn
  have haddr := wordAt_address cmd a (bytesOf 4 v.toNat)
  have hdata := wordAt_first cmd a v []
  rw [List.append_nil] at hdata
  have hok : ¬ (opOf (cmd :: (bytesOf 4 a.toNat ++ bytesOf 4 v.toNat)) ≠ cmd.toNat / 32 ∨
      s.i3c.mwl.toNat < (cmd :: (bytesOf 4 a.toNat ++ bytesOf 4 v.toNat)).length ∨
      (cmd :: (bytesOf 4 a.toNat ++ bytesOf 4 v.toNat)).length ≠ 5 + 4 * 1 ∨
      (wordAt (cmd :: (bytesOf 4 a.toNat ++ bytesOf 4 v.toNat)) 1).toNat % 4 ≠ 0) := by
    rw [haddr, aligned_plain ha]
    simp [opOf, bytesOf]
    omega
  rw [writeTransfer, hwords, privateHeader_taken hpriv (i3cBusy_of_free hfree), if_neg hok, putBus_free (s := beginI3c s) hfree,
    transfer_one, runBus_i3c_write (wordAccess_plain (by rwa [haddr]) _ _) rfl rfl rfl rfl, haddr, hdata, beginI3c_free hfree]

/-- A WRITE_FIXED of two words. -/
theorem writeTransfer_two {s : State} {a : Word} (v w : Word) (hpriv : s.i3cPrivate = true) (hfree : s.bus = [])
    (hmwl : 13 ≤ s.i3c.mwl.toNat) (ha : PlainReg a.toNat) :
    ∃ bus, writeTransfer s (0x41 :: (bytesOf 4 a.toNat ++ bytesOf 4 v.toNat ++ bytesOf 4 w.toNat)) 2 =
      { i3cWritten { storeHub { beginI3c s with bus := bus } a.toNat v with bus := [] } a.toNat w with bus := [] } := by
  rw [List.append_assoc]
  let bytes : List (BitVec 8) := 0x41 :: (bytesOf 4 a.toNat ++ (bytesOf 4 v.toNat ++ bytesOf 4 w.toNat))
  have haddr : wordAt bytes 1 = a := wordAt_address _ a _
  have hfirst : wordAt bytes 5 = v := wordAt_first _ a v _
  have hsecond : wordAt bytes 9 = w := wordAt_second _ a v w
  have hwords : wordsIn bytes = 2 := by simp [bytes, wordsIn]
  have hok : ¬ (opOf bytes ≠ 2 ∨ s.i3c.mwl.toNat < bytes.length ∨ bytes.length ≠ 5 + 4 * 2 ∨ (wordAt bytes 1).toNat % 4 ≠ 0) := by
    rw [haddr, aligned_plain ha]
    simp [bytes, opOf, bytesOf]
    omega
  have hplain (j : Nat) : (wordAccess bytes true j).Plain a.toNat := by
    have := wordAccess_plain (by rwa [haddr]) true j
    rwa [haddr] at this
  refine ⟨[wordAccess bytes true 1], ?_⟩
  rw [writeTransfer, hwords, privateHeader_taken hpriv (i3cBusy_of_free hfree), if_neg hok, putBus_free (s := beginI3c s) hfree,
    show ((2 : Nat) == 2) = true from rfl, transfer_two_fixed, runBus_cons_of_some (busTry_write (hplain 0) rfl _)]
  dsimp only
  rw [show wordAt bytes (5 + 4 * 0) = v from hfirst]
  have hmore : endAccessOf (storeHub { beginI3c s with bus := [wordAccess bytes true 1] } a.toNat v) (wordAccess bytes true 0)
      [wordAccess bytes true 1] .ok 0 = storeHub { beginI3c s with bus := [wordAccess bytes true 1] } a.toNat v :=
    endI3c_write_more rfl _
  have hv : ((v.zeroExtend 64 : Entry).truncate 32 : Word) = v := by simp
  rw [hv, hmore, runBus_i3c_write (hplain 1) rfl rfl (by rw [storeHub_i3c]; rfl) (by rw [storeHub_i3c]; rfl), hsecond]

/-- A READ or READ_FIXED of one word. -/
theorem readTransfer_one {s : State} {a : Word} {cmd : BitVec 8} (hpriv : s.i3cPrivate = true) (hfree : s.bus = [])
    (hmwl : 5 ≤ s.i3c.mwl.toNat) (hmrl : 4 ≤ s.i3c.mrl.toNat) (ha : PlainReg a.toNat) (hn : cmd.toNat % 32 = 0) :
    readTransfer s (cmd :: bytesOf 4 a.toNat) 1 (cmd.toNat / 32) =
      { ({ beginI3c s with i3c := { (beginI3c s).i3c with out := bytesOf 4 (s.reg a.toNat).toNat, held := [] } }.setF
        F.HIF_ACC_STAT_RESULT 0).setF F.HIF_ACC_STAT_INDEX 0 with bus := [] } := by
  have haddr := wordAt_address cmd a []
  rw [List.append_nil] at haddr
  have htaken : min (wordsIn (cmd :: bytesOf 4 a.toNat)) (min 1 ((s.i3c.mrl.toNat + 3) / 4)) = 1 := by
    have : wordsIn (cmd :: bytesOf 4 a.toNat) = 1 := congrArg (· + 1) hn
    omega
  have hok : ¬ (opOf (cmd :: bytesOf 4 a.toNat) ≠ cmd.toNat / 32 ∨ s.i3c.mwl.toNat < (cmd :: bytesOf 4 a.toNat).length ∨
      (cmd :: bytesOf 4 a.toNat).length ≠ 5 ∨ (wordAt (cmd :: bytesOf 4 a.toNat) 1).toNat % 4 ≠ 0) := by
    rw [haddr, aligned_plain ha]
    simp [opOf, bytesOf]
    omega
  have hout : (bytesOf 4 ((beginI3c s).reg a.toNat).toNat).take (beginI3c s).i3c.mrl.toNat = bytesOf 4 (s.reg a.toNat).toNat :=
    List.take_of_length_le hmrl
  rw [readTransfer, privateHeader_taken hpriv (i3cBusy_of_free hfree), if_neg hok, putBus_free (s := beginI3c s) hfree,
    htaken, transfer_one, runBus_i3c_read (wordAccess_plain (by rwa [haddr]) _ _) rfl rfl rfl rfl rfl, haddr, hout]

/-! ### Malformed transfers (R385) -/

theorem malformed_status (s : State) : (malformed s).f F.HIF_ACC_STAT_RESULT = 3 ∧ (malformed s).f F.HIF_ACC_STAT_INDEX = 0 ∧
    (malformed s).i3c = { s.i3c with protoErr := true } ∧
    (malformed s).f F.HIF_ERR_PROTO = min (s.f F.HIF_ERR_PROTO + 1) F.HIF_ERR_PROTO.max := by
  refine ⟨?_, ?_, rfl, ?_⟩
  · show (((s.setF F.HIF_ACC_STAT_RESULT 3).setF F.HIF_ACC_STAT_INDEX 0).bump F.HIF_ERR_PROTO 1).f F.HIF_ACC_STAT_RESULT = 3
    simp
  · show (((s.setF F.HIF_ACC_STAT_RESULT 3).setF F.HIF_ACC_STAT_INDEX 0).bump F.HIF_ERR_PROTO 1).f F.HIF_ACC_STAT_INDEX = 0
    simp
  · show (((s.setF F.HIF_ACC_STAT_RESULT 3).setF F.HIF_ACC_STAT_INDEX 0).bump F.HIF_ERR_PROTO 1).f F.HIF_ERR_PROTO = _
    simp

theorem malformed_frame (s : State) : OnlyRegs [R.HIF_ACC_STAT, F.HIF_ERR_PROTO.off] s { malformed s with i3c := s.i3c } := by
  have h : OnlyRegs [R.HIF_ACC_STAT, F.HIF_ERR_PROTO.off] s
      (((s.setF F.HIF_ACC_STAT_RESULT 3).setF F.HIF_ACC_STAT_INDEX 0).bump F.HIF_ERR_PROTO 1) :=
    (((OnlyRegs.refl _ s).setF (by simp) _).setF (by simp) _).bump (by simp) _
  exact h

theorem protocolError_status (s : State) : (protocolError s).reg R.HIF_ACC_STAT = s.reg R.HIF_ACC_STAT ∧
    (protocolError s).i3c = { s.i3c with protoErr := true } ∧
    (protocolError s).f F.HIF_ERR_PROTO = min (s.f F.HIF_ERR_PROTO + 1) F.HIF_ERR_PROTO.max := by
  refine ⟨?_, rfl, ?_⟩
  · show (s.bump F.HIF_ERR_PROTO 1).reg R.HIF_ACC_STAT = _
    simp
  · show (s.bump F.HIF_ERR_PROTO 1).f F.HIF_ERR_PROTO = _
    simp

theorem protocolError_malformed_frame (s : State) :
    OnlyRegs [R.HIF_ACC_STAT, F.HIF_ERR_PROTO.off] s { protocolError (malformed s) with i3c := s.i3c } :=
  (malformed_frame s).bump (f := F.HIF_ERR_PROTO) (by simp) 1

/-! ### In-band interrupts (R389) -/

theorem nextIbi_of_first {s : State} {k : Fin 32} (hdue : s.i3c.ibiDue.getLsbD k.val = true)
    (hfirst : ∀ j : Fin 32, j < k → s.i3c.ibiDue.getLsbD j.val = false) : s.nextIbi = some k.val := by
  rw [State.nextIbi, List.find?_range_eq_some]
  exact ⟨hdue, by simp, fun j hj => by simpa using hfirst ⟨j, by omega⟩ (by simpa [Fin.lt_def] using hj)⟩

/-- Class `c` has been taken from the due ones and counted. -/
def ibiTaken (s : State) (c : Nat) : State :=
  { s with i3c := { s.i3c with ibiDue := setBit s.i3c.ibiDue c false } }.bump F.HIF_IBI_COAL_SENT 1

theorem exec_ibi_of_first {s : State} {k : Fin 32} (hdirect : s.i3cDirect = true) (hint : s.f F.HIF_STATUS_INT_EN = 1)
    (hdue : s.i3c.ibiDue.getLsbD k.val = true) (hfirst : ∀ j : Fin 32, j < k → s.i3c.ibiDue.getLsbD j.val = false) :
    exec (.ibi true) s = .next (sendI3c (ibiTaken s k.val)
      [BitVec.ofNat 8 k.val, BitVec.ofNat 8 (s.f (F.HIF_IBI_INFO_LOC k.val)), BitVec.ofNat 8 (s.f (F.HIF_IBI_INFO_ARG k.val))]) := by
  refine congrArg Host.Outcome.next ((if_neg (by simp [State.bit, hdirect, hint])).trans ?_)
  rw [nextIbi_of_first hdue hfirst]
  rfl

/-- Settles O44: one access of the bus per word, on the bus that was free; a malformed transfer leaves its record alone. -/
theorem privateTransfersAndInterrupts : Obligations.PrivateTransfersAndInterrupts := by
  unfold Obligations.PrivateTransfersAndInterrupts
  refine ⟨fun s ⟨hpriv, hidle⟩ => ?status, fun a v s ⟨hpriv, hfree, hmwl⟩ ha => ?write, fun a v s ⟨hpriv, hfree, hmwl⟩ ha => ?writeFixed,
    fun a v w s ⟨hpriv, hfree, hmwl⟩ ha => ?writeTwo, fun a s ⟨hpriv, hfree, hmwl, hmrl⟩ ha => ?read,
    fun a s ⟨hpriv, hfree, hmwl, hmrl⟩ ha => ?readFixed, fun bytes s ⟨hpriv, hidle⟩ ⟨hop, hbad⟩ => ?malformed,
    fun bytes n s ⟨hpriv, hidle⟩ ⟨hop, hne⟩ => ?reserved, fun da s ⟨hhears, hdue, hvalid, hen, henc⟩ => ?hotJoin,
    fun k s ⟨hdirect, hint, hdue⟩ hfirst => ?ibi⟩
  case status => exact ⟨_, congrArg Host.Outcome.next (privateHeader_taken hpriv hidle _), rfl⟩
  case write =>
    refine ⟨_, congrArg Host.Outcome.next ((if_neg (by simp [otherOp, opOf])).trans (writeTransfer_one v hpriv hfree hmwl ha rfl)), ?_⟩
    exact ⟨fun row hrow => reg_i3cWritten ha hrow (beginI3c s) v, (f_i3cWritten _ _ _).1, (f_i3cWritten _ _ _).2, rfl,
      by simp [i3cWritten]; rfl⟩
  case writeFixed =>
    refine ⟨_, congrArg Host.Outcome.next ((if_neg (by simp [otherOp, opOf])).trans (writeTransfer_one v hpriv hfree hmwl ha rfl)), ?_⟩
    exact ⟨fun row hrow => reg_i3cWritten ha hrow (beginI3c s) v, (f_i3cWritten _ _ _).1, (f_i3cWritten _ _ _).2, rfl,
      by simp [i3cWritten]; rfl⟩
  case writeTwo =>
    obtain ⟨bus, hrun⟩ := writeTransfer_two v w hpriv hfree hmwl ha
    refine ⟨_, congrArg Host.Outcome.next ((if_neg (by simp [otherOp, opOf])).trans hrun), fun row hrow => ?_, (f_i3cWritten _ _ _).1, rfl⟩
    refine (reg_i3cWritten ha hrow _ w).trans ?_
    rw [storeHub_of_row hrow]
    exact congrArg (row.written · w) (by simp; rfl)
  case read =>
    exact ⟨_, congrArg Host.Outcome.next (readTransfer_one (cmd := 0x60) hpriv hfree hmwl hmrl ha rfl), rfl, by simp, rfl, by simp; rfl⟩
  case readFixed =>
    exact ⟨_, congrArg Host.Outcome.next (readTransfer_one (cmd := 0x80) hpriv hfree hmwl hmrl ha rfl), rfl, by simp, rfl, by simp; rfl⟩
  case malformed =>
    obtain ⟨hres, hix, hi3c, hproto⟩ := malformed_status s
    have hexec : writeTransfer s bytes 1 = malformed s := by
      rw [writeTransfer, privateHeader_taken hpriv hidle, if_pos (.inr hbad)]
    exact ⟨_, congrArg Host.Outcome.next ((if_neg (by simp [otherOp, hop])).trans hexec), hres, hix, hi3c, rfl, hproto, malformed_frame s⟩
  case reserved =>
    obtain ⟨hres, hix, hi3c, hproto⟩ := malformed_status s
    obtain ⟨hreg, hi3c', hproto'⟩ := protocolError_status (malformed s)
    have hwrite : writeTransfer s bytes 1 = malformed s := by
      rw [writeTransfer, privateHeader_taken hpriv hidle, if_pos (.inl (by omega))]
    have hexec (m : Nat) : readAfter s bytes m 3 = protocolError (malformed s) := by
      have hop1 : (if opOf bytes = 2 then 2 else 1) = 1 := if_neg (by omega)
      rw [readAfter, if_neg hne, if_pos (.inr (.inr hop)), hop1, hwrite]
      exact if_neg (by simp [hpriv, hidle])
    have hstat (f : Fld) (hf : f.off = R.HIF_ACC_STAT) : (protocolError (malformed s)).f f = (malformed s).f f := by
      rw [State.f, State.f, hf, hreg]
    refine ⟨_, congrArg Host.Outcome.next (hexec _), (hstat _ rfl).trans hres, (hstat _ rfl).trans hix, ?_, ?_,
      protocolError_malformed_frame s⟩
    · rw [hi3c', hi3c]
    · rw [hproto', hproto]
      omega
  case hotJoin =>
    obtain ⟨hda, haddr, hi3c⟩ := setDa_address s da
    refine ⟨_, congrArg Host.Outcome.next (if_neg ?_), hda, haddr, congrArg I3c.joinDue hi3c⟩
    simp [State.bit, hhears, hdue, hvalid, hen, henc]
  case ibi =>
    refine ⟨_, exec_ibi_of_first hdirect hint hdue hfirst, rfl, ?_, fun j => ?_⟩
    · show (ibiTaken s k.val).f F.HIF_IBI_COAL_SENT = _
      simp [ibiTaken]
    · show (setBit s.i3c.ibiDue k.val false).getLsbD j.val = _
      by_cases hj : j = k
      · rw [hj, getLsbD_setBit_same _ _ k.isLt]
        simp
      · rw [getLsbD_setBit_ne _ _ (fun h => hj (Fin.ext h))]
        simp [hj]

end Sys2Proof.Machine
end

section
/-! PROOFS. Requests of the two-wire debug port and the end of a session (R405–R412). -/

namespace Sys2Proof.Machine

/-! ### Folds -/

/-- What every step of a fold keeps holds after it. -/
theorem foldS_induct {α : Type} {P : State → Prop} {f : State → α → State} (l : List α) (hf : ∀ s, ∀ a ∈ l, P s → P (f s a)) {s : State}
    (hs : P s) : P (foldS l s f) := by
  induction l generalizing s with
  | nil => exact hs
  | cons a l ih =>
    rw [foldS, List.foldl_cons, ← foldS]
    exact ih (fun s b hb => hf s b (List.mem_cons_of_mem _ hb)) (hf s a List.mem_cons_self hs)

/-- What one step of a fold brings about and the others keep holds after it. -/
theorem foldS_reaches {α : Type} {P : State → Prop} {f : State → α → State} {l : List α} {x : α} (hx : x ∈ l) (hset : ∀ s, P (f s x))
    (hkeep : ∀ s a, P s → P (f s a)) (s : State) : P (foldS l s f) := by
  induction l generalizing s with
  | nil => exact absurd hx List.not_mem_nil
  | cons a l ih =>
    rw [foldS, List.foldl_cons, ← foldS]
    rcases List.mem_cons.mp hx with rfl | hx
    · exact foldS_induct l (fun s a _ => hkeep s a) (hset s)
    · exact ih hx _

/-- A fold whose steps do nothing in `s`. -/
theorem foldS_eq_self {α : Type} {f : State → α → State} {s : State} (l : List α) (hf : ∀ a ∈ l, f s a = s) : foldS l s f = s :=
  foldS_induct (P := (· = s)) l (fun t a ha ht => by rw [ht]; exact hf a ha) rfl

/-! ### A request and its answer -/

theorem retryFeed_idle {s : State} (h : s.dbg.fed = none) : retryFeed s = s := by rw [retryFeed, h]

theorem answer_open {s : State} (h : PortOpen s) (t : Nat) : answer s t = ackOk := by
  obtain ⟨-, hatt, herr, hbusy⟩ := h
  simp [answer, hatt, herr, hbusy]

/-- The registers that stand outside a session and beside an error: ID, SESSION and STATUS. -/
theorem answer_low {s : State} {t : Nat} (h : t < 3) : answer s t = ackOk := by
  have h3 : ¬ 3 ≤ t := by omega
  have hdata : t ≠ 6 ∧ t ≠ 7 ∧ t ≠ 11 ∧ t ≠ 13 := by omega
  simp [answer, h3, hdata]

theorem fed_of_open {s : State} (h : PortOpen s) : s.dbg.fed = none := by
  obtain ⟨-, -, -, hbusy⟩ := h
  simpa [State.dbgBusy] using (Bool.or_eq_false_iff.mp hbusy).2

theorem request_write_ok {s : State} {t : Nat} (hup : s.portUp = true) (hfed : s.dbg.fed = none) (ha : answer s t = ackOk) (v : Word)
    (ecc : Ecc) : request s t (some v) false ecc = (writePort s t v ecc).acked ackOk := by
  simp [request, hup, retryFeed_idle hfed, ha, ackOk, ackErr, ackWait]

theorem request_write_bad {s : State} {t : Nat} (hup : s.portUp = true) (hfed : s.dbg.fed = none) (ha : answer s t = ackOk) (v : Word)
    (ecc : Ecc) : request s t (some v) true ecc = (s.dbgErr 1).acked ackOk := by
  simp [request, hup, retryFeed_idle hfed, ha, ackOk, ackErr, ackWait]

theorem request_read_ok {s : State} {t : Nat} (hup : s.portUp = true) (hfed : s.dbg.fed = none) (ha : answer s t = ackOk) (ht : t ≠ 6)
    (bad : Bool) (ecc : Ecc) : request s t none bad ecc = (readPort s t).2.driven (readPort s t).1 := by
  simp [request, hup, retryFeed_idle hfed, ha, ackOk, ackErr, ackWait, ht]

theorem request_data_ok {s : State} (hup : s.portUp = true) (hfed : s.dbg.fed = none) (ha : answer s 6 = ackOk) (bad : Bool) (ecc : Ecc) :
    request s 6 none bad ecc = dataRead s ecc := by
  simp [request, hup, retryFeed_idle hfed, ha, ackOk, ackErr, ackWait]

theorem request_err {s : State} {t : Nat} (hup : s.portUp = true) (hfed : s.dbg.fed = none) (ha : answer s t = ackErr)
    (write : Option Word) (bad : Bool) (ecc : Ecc) :
    request s t write bad ecc = (if s.attached then s else s.dbgState).acked ackErr := by
  simp [request, hup, retryFeed_idle hfed, ha]

theorem named_synced {s : State} (h : PortSynced s) (t : Nat) (write : Option Word) (ecc : Ecc) :
    named s t write ecc = request s t write false ecc := by
  obtain ⟨hup, hsync, hign⟩ := h
  simp [named, hup, hsync, hign]

theorem named_write_open {s : State} (h : PortOpen s) (t : Nat) (v : Word) (ecc : Ecc) :
    named s t (some v) ecc = (writePort s t v ecc).acked ackOk :=
  (named_synced h.1 _ _ _).trans (request_write_ok h.1.1 (fed_of_open h) (answer_open h t) v ecc)

theorem named_write_low {s : State} (h : PortIdle s) {t : Nat} (ht : t < 3) (v : Word) (ecc : Ecc) :
    named s t (some v) ecc = (writePort s t v ecc).acked ackOk :=
  (named_synced h.1 _ _ _).trans (request_write_ok h.1.1 h.2 (answer_low ht) v ecc)

theorem named_read_data {s : State} (h : PortOpen s) (ecc : Ecc) : named s 6 none ecc = dataRead s ecc :=
  (named_synced h.1 _ _ _).trans (request_data_ok h.1.1 (fed_of_open h) (answer_open h 6) _ ecc)

/-- A header that is taken: the outcome of a check is drawn, and the request runs. -/
theorem exec_twdRequest_taken {s : State} {hdr : BitVec 8} (hsync : PortSynced s) (hok : headerOk hdr = true) (d : Word) (par : Bool) :
    ∃ ecc, exec (.twdRequest hdr d par) s = .next (request { s with drawn := s.drawn + 1 } (hdr.toNat / 2 % 16)
      (if hdr.getLsbD 5 then none else some d) par ecc) := by
  obtain ⟨hup, hsyn, hign⟩ := hsync
  have hmark : hdr.getLsbD 0 = false := by
    simp only [headerOk, Bool.and_eq_true, Bool.not_eq_true'] at hok
    exact hok.1.1
  refine ⟨(freeEcc s).1, congrArg Host.Outcome.next ?_⟩
  simp only [hup, hign, hmark, hsyn, hok]
  rfl

/-! ### Errors and writes of the session -/

theorem dbgErr_of_clear {s : State} (h : s.f F.DBG_STATUS_ERR = 0) {code : Nat} (hc : code < 8) :
    (s.dbgErr code).f F.DBG_STATUS_ERR = code ∧ (s.dbgErr code).rgns = s.rgns ∧ (s.dbgErr code).bus = s.bus := by
  rw [State.dbgErr, if_pos h]
  refine ⟨?_, rfl, rfl⟩
  simp; omega

/-! ### The end of a session (R409) -/

/-- What the end of a session does to one core: its claimed units are restored, it resumes, and a halt that waits is dropped. -/
def sessionCoreEnds (rg : Rg) (s : State) (k : CoreNo) : State :=
  let s := claimUnits 0 s rg k
  let s := if s.coreHalted rg k then resumeCore s rg k false else s
  if (s.eas rg k).dbg.haltReq then s.onCoreDbg rg k (fun d => { d with haltReq := false }) else s

/-- The session is closed, with nothing armed or fed. -/
def sessionClosed (s : State) : State :=
  let s := s.setF F.DBG_SESSION_ATTACH 0
  { s with dbg := { s.dbg with armed := none, fed := none } }

theorem endSession_eq (s : State) : endSession s = endEmulation (foldS (List.range 32)
    (foldS allRegions (sessionClosed s) (fun s rg => foldS allCores s (sessionCoreEnds rg)))
    (fun s n => if s.f (F.SEM_HOLDER_KIND n) = 4 then breakSem s n else s)) := rfl

theorem coreHalted_onRgn {rg rh : Rg} {j : CoreNo} {g : Region → Region} {s : State}
    (hg : ∀ r : Region, (g r).f (F.EAS_STATUS_HALTED j.val) = r.f (F.EAS_STATUS_HALTED j.val)) :
    (s.onRgn rg g).coreHalted rh j = s.coreHalted rh j := by
  unfold State.coreHalted State.rbit
  by_cases h : rh = rg
  · rw [h, State.rf_onRgn_same, hg]
    rfl
  · rw [State.rf_onRgn_other _ _ _ h]

theorem coreHalted_onCoreDbg (s : State) (rg rh : Rg) (k j : CoreNo) (g : CoreDbg → CoreDbg) :
    (s.onCoreDbg rg k g).coreHalted rh j = s.coreHalted rh j := coreHalted_onRgn (fun _ => rfl)

theorem restoreUnit_coreHalted (s : State) (rg rh : Rg) (k j : CoreNo) {u : Nat} (hu : u < 8) :
    (restoreUnit s rg k u).coreHalted rh j = s.coreHalted rh j := by
  have hk := k.isLt
  have hj := j.isLt
  unfold restoreUnit
  split
  · rfl
  · refine (coreHalted_onRgn (fun r => ?_)).trans (coreHalted_onCoreDbg s rg rh k j _)
    exact (((Region.f_setReg_ne _ _ _ (by dsimp only; omega)).trans
      (Region.f_setReg_ne _ _ _ (by dsimp only [R.EAS_PATCH_WORD]; omega))).trans
      (Region.f_setReg_ne _ _ _ (by dsimp only; omega))).trans (Region.f_setReg_ne _ _ _ (by dsimp only; omega))

theorem restoreUnit_hub (s : State) (rg : Rg) (k : CoreNo) (u : Nat) :
    (restoreUnit s rg k u).regs = s.regs ∧ (restoreUnit s rg k u).pwr = s.pwr := by
  unfold restoreUnit
  split <;> exact ⟨rfl, rfl⟩

theorem claimUnits_none (s : State) (rg : Rg) (k : CoreNo) :
    claimUnits 0 s rg k = foldS (List.range 8) s (fun s u => restoreUnit s rg k u) :=
  congrArg (foldS (List.range 8) s) (funext fun s => funext fun u => if_neg (by simp))

theorem claimUnits_none_coreHalted (s : State) (rg rh : Rg) (k j : CoreNo) :
    (claimUnits 0 s rg k).coreHalted rh j = s.coreHalted rh j := by
  rw [claimUnits_none]
  exact foldS_induct (P := fun t => t.coreHalted rh j = s.coreHalted rh j) _
    (fun t u hu ht => (restoreUnit_coreHalted t rg rh k j (List.mem_range.mp hu)).trans ht) rfl

theorem resumeCore_coreHalted (s : State) (rg rh : Rg) (k j : CoreNo) (step : Bool) :
    (resumeCore s rg k step).coreHalted rh j = (s.setRf rg (F.EAS_STATUS_HALTED k.val) 0).coreHalted rh j := by
  have hj := j.isLt
  have hk := k.isLt
  refine coreHalted_onRgn (fun r => ?_)
  exact (Region.f_setReg_ne _ _ _ (by dsimp only; omega)).trans rfl

/-- A resumed core is not halted, and no other core comes to be. -/
theorem sessionCoreEnds_coreHalted (s : State) (rg : Rg) (k : CoreNo) :
    (sessionCoreEnds rg s k).coreHalted rg k = false ∧
      ∀ rh j, s.coreHalted rh j = false → (sessionCoreEnds rg s k).coreHalted rh j = false := by
  have hset : ∀ t : State, (t.setRf rg (F.EAS_STATUS_HALTED k.val) 0).coreHalted rg k = false := fun t => by
    simp [State.coreHalted, State.rbit]
  have hkeep : ∀ (t : State) rh j, t.coreHalted rh j = false → (t.setRf rg (F.EAS_STATUS_HALTED k.val) 0).coreHalted rh j = false := by
    intro t rh j ht
    by_cases h : rh = rg ∧ j = k
    · rw [h.1, h.2]
      exact hset t
    · have hother : (t.setRf rg (F.EAS_STATUS_HALTED k.val) 0).coreHalted rh j = t.coreHalted rh j := by
        have hk := k.isLt
        have hj := j.isLt
        unfold State.coreHalted State.rbit
        by_cases hr : rh = rg
        · have hjk : j.val ≠ k.val := fun e => h ⟨hr, Fin.ext e⟩
          rw [State.rf_setRf_off _ _ _ _ _ _ (by dsimp only; omega)]
        · rw [State.rf_setRf_ne _ _ _ _ hr]
      exact hother.trans ht
  have hlast (t : State) (rh : Rg) (j : CoreNo) :
      (if (t.eas rg k).dbg.haltReq then t.onCoreDbg rg k (fun d => { d with haltReq := false }) else t).coreHalted rh j =
        t.coreHalted rh j := by
    split
    · exact coreHalted_onCoreDbg _ _ _ _ _ _
    · rfl
  unfold sessionCoreEnds
  simp only [hlast]
  by_cases hhalt : (claimUnits 0 s rg k).coreHalted rg k = true
  · simp only [hhalt, if_true, resumeCore_coreHalted]
    exact ⟨hset _, fun rh j h => hkeep _ rh j ((claimUnits_none_coreHalted _ _ _ _ _).trans h)⟩
  · rw [if_neg hhalt]
    exact ⟨by simpa using hhalt, fun rh j h => (claimUnits_none_coreHalted _ _ _ _ _).trans h⟩

theorem sessionCoreEnds_hub (s : State) (rg : Rg) (k : CoreNo) :
    (sessionCoreEnds rg s k).regs = s.regs ∧ (sessionCoreEnds rg s k).pwr = s.pwr := by
  have hclaim : (claimUnits 0 s rg k).regs = s.regs ∧ (claimUnits 0 s rg k).pwr = s.pwr := by
    rw [claimUnits_none]
    exact foldS_induct (P := fun t => t.regs = s.regs ∧ t.pwr = s.pwr) _
      (fun t u _ ht => ⟨(restoreUnit_hub t rg k u).1.trans ht.1, (restoreUnit_hub t rg k u).2.trans ht.2⟩) ⟨rfl, rfl⟩
  unfold sessionCoreEnds
  dsimp only
  split <;> split <;> exact hclaim

theorem sessionCores_hub (s : State) :
    (foldS allRegions s (fun s rg => foldS allCores s (sessionCoreEnds rg))).regs = s.regs ∧
      (foldS allRegions s (fun s rg => foldS allCores s (sessionCoreEnds rg))).pwr = s.pwr :=
  foldS_induct (P := fun t => t.regs = s.regs ∧ t.pwr = s.pwr) _
    (fun t rg _ ht => foldS_induct (P := fun t => t.regs = s.regs ∧ t.pwr = s.pwr) _
      (fun t k _ ht => ⟨(sessionCoreEnds_hub t rg k).1.trans ht.1, (sessionCoreEnds_hub t rg k).2.trans ht.2⟩) ht) ⟨rfl, rfl⟩

theorem mem_allRegions (rg : Rg) : rg ∈ allRegions :=
  List.mem_map.mpr ⟨rg.toNat, List.mem_range.mpr rg.isLt, by simp⟩

theorem mem_allCores (k : CoreNo) : k ∈ allCores := by
  have : ∀ k : CoreNo, k ∈ allCores := by decide
  exact this k

theorem sessionCores_coreHalted (s : State) (rg : Rg) (k : CoreNo) :
    (foldS allRegions s (fun s rg => foldS allCores s (sessionCoreEnds rg))).coreHalted rg k = false := by
  refine foldS_reaches (P := fun t => t.coreHalted rg k = false) (x := rg) (mem_allRegions rg) (fun t => ?_) (fun t r ht => ?_) s
  · exact foldS_reaches (P := fun t => t.coreHalted rg k = false) (x := k) (mem_allCores k) (fun t => (sessionCoreEnds_coreHalted t rg k).1)
      (fun t j ht => (sessionCoreEnds_coreHalted t rg j).2 rg k ht) t
  · exact foldS_induct (P := fun t => t.coreHalted rg k = false) _ (fun t j _ ht => (sessionCoreEnds_coreHalted t r j).2 rg k ht) ht

theorem breakDebugSems_none {s : State} (h : ∀ n < 32, s.f (F.SEM_HOLDER_KIND n) ≠ 4) :
    foldS (List.range 32) s (fun s n => if s.f (F.SEM_HOLDER_KIND n) = 4 then breakSem s n else s) = s :=
  foldS_eq_self _ (fun n hn => if_neg (h n (List.mem_range.mp hn)))

theorem endEmulation_none {s : State} (h : s.pwr.kept = 0) : endEmulation s = s :=
  foldS_eq_self _ (fun q _ => if_pos (by simp [h]))

theorem State.f_of_regs {s t : State} (h : t.regs = s.regs) (g : Fld) : t.f g = s.f g := by
  unfold State.f State.reg
  rw [h]

theorem sessionClosed_sem (s : State) (n : Nat) (hn : n < 32) :
    (sessionClosed s).f (F.SEM_HOLDER_KIND n) = s.f (F.SEM_HOLDER_KIND n) :=
  State.f_setF_off s F.DBG_SESSION_ATTACH (F.SEM_HOLDER_KIND n) 0 (by dsimp only; omega)

theorem sessionClosed_attached (s : State) : (sessionClosed s).f F.DBG_SESSION_ATTACH = 0 :=
  State.f_setF_eq s F.DBG_SESSION_ATTACH 0 (by decide)

/-- With no semaphore held by the debug port and no sleep emulated, the end of a session closes it and resumes the cores. -/
theorem endSession_plain {s : State} (hkept : s.pwr.kept = 0) (hsem : ∀ n : Fin 32, s.f (F.SEM_HOLDER_KIND n.val) ≠ 4) :
    (endSession s).attached = false ∧ ∀ (rg : Rg) (k : CoreNo), (endSession s).coreHalted rg k = false := by
  obtain ⟨hregs, hpwr⟩ := sessionCores_hub (sessionClosed s)
  have hhalt := sessionCores_coreHalted (sessionClosed s)
  rw [endSession_eq]
  generalize foldS allRegions (sessionClosed s) (fun s rg => foldS allCores s (sessionCoreEnds rg)) = t at hregs hpwr hhalt ⊢
  rw [breakDebugSems_none (fun n hn => ?_), endEmulation_none (by rw [hpwr]; exact hkept)]
  · refine ⟨?_, hhalt⟩
    rw [State.attached, State.bit, State.f_of_regs hregs, sessionClosed_attached]
    rfl
  · rw [State.f_of_regs hregs, sessionClosed_sem s n hn]
    exact hsem ⟨n, hn⟩

/-! ### Accesses by DBG.DATA (R410, R412) -/

/-- DBG.REQ asks for a 32-bit access of the register space whose address stays, without side effects. -/
theorem req_plain {r : Word} (h : r.toNat % 8 = 0) : r.getLsbD 0 = false ∧ r.getLsbD 1 = false ∧ r.getLsbD 2 = false := by
  simp only [BitVec.getLsbD, Nat.testBit_eq_decide_div_mod_eq]
  refine ⟨?_, ?_, ?_⟩ <;> simp <;> omega

/-- The access that a request of DBG.DATA to a plain register begins. -/
def debugAccess (s : State) (write : Option Entry) (ecc : Ecc) : BusAccess :=
  { addr := BitVec.ofNat 40 (s.reg R.DBG_ADDR_LO).toNat, write := write, who := .debug, req := (s.reg R.DBG_REQ).truncate 16, ecc := ecc }

theorem startAccess_plain {s : State} (hreq : (s.reg R.DBG_REQ).toNat % 8 = 0) (hfree : s.bus = []) (write : Option Entry) (ecc : Ecc) :
    startAccess s write ecc = runBus [debugAccess s write ecc] s := by
  have h0 : ((s.reg R.DBG_REQ).truncate 16 : BitVec 16).getLsbD 0 = false := by simpa using (req_plain hreq).1
  rw [startAccess, putBus_free hfree, if_neg (by rw [h0]; exact Bool.false_ne_true)]
  rfl

theorem debugAccess_plain {s : State} (hreq : (s.reg R.DBG_REQ).toNat % 8 = 0) (ha : PlainReg (s.reg R.DBG_ADDR_LO).toNat)
    (write : Option Entry) (ecc : Ecc) : (debugAccess s write ecc).Plain (s.reg R.DBG_ADDR_LO).toNat := by
  refine ⟨ha, ?_, rfl, ?_⟩
  · have := (s.reg R.DBG_ADDR_LO).isLt
    simp [debugAccess]
    omega
  · simpa [BusAccess.space, debugAccess] using (req_plain hreq).1

theorem debugAccess_inc {s : State} (hreq : (s.reg R.DBG_REQ).toNat % 8 = 0) (write : Option Entry) (ecc : Ecc) :
    (debugAccess s write ecc).inc = false := by
  simpa [BusAccess.inc, debugAccess] using (req_plain hreq).2.2

theorem endDebug_ok {b : BusAccess} (h : b.inc = false) (s : State) (d : Entry) :
    endDebug s b .ok d = if b.write.isNone then { s with dbg := { s.dbg with held := some d } } else s := by
  simp [endDebug, h]

theorem startAccess_write {s : State} (hreq : (s.reg R.DBG_REQ).toNat % 8 = 0) (hfree : s.bus = [])
    (ha : PlainReg (s.reg R.DBG_ADDR_LO).toNat) (v : Word) (ecc : Ecc) :
    startAccess s (some (v.zeroExtend 64)) ecc = { storeHub { s with bus := [] } (s.reg R.DBG_ADDR_LO).toNat v with bus := [] } := by
  have hv : ((v.zeroExtend 64 : Entry).truncate 32 : Word) = v := by simp
  rw [startAccess_plain hreq hfree, runBus_cons_of_some (busTry_write (debugAccess_plain hreq ha _ _) rfl _), hv]
  have hend (t : State) : endAccessOf t (debugAccess s (some (v.zeroExtend 64)) ecc) [] .ok 0 = t :=
    endDebug_ok (debugAccess_inc hreq _ _) t 0
  rw [hend]
  rfl

theorem startAccess_read {s : State} (hreq : (s.reg R.DBG_REQ).toNat % 8 = 0) (hfree : s.bus = [])
    (ha : PlainReg (s.reg R.DBG_ADDR_LO).toNat) (ecc : Ecc) :
    startAccess s none ecc = { s with bus := [], dbg := { s.dbg with held := some ((s.reg (s.reg R.DBG_ADDR_LO).toNat).zeroExtend 64) } } := by
  rw [startAccess_plain hreq hfree, runBus_cons_of_some (busTry_read (debugAccess_plain hreq ha _ _) rfl _)]
  have hend (t : State) (d : Entry) : endAccessOf t (debugAccess s none ecc) [] .ok d = { t with dbg := { t.dbg with held := some d } } :=
    endDebug_ok (debugAccess_inc hreq _ _) t d
  rw [hend]
  rfl

/-- The registers of the debug port that a request to a plain register goes by are not the one written. -/
theorem plain_ne_data {a : Nat} (h : PlainReg a) : a ≠ R.DBG_DATA := by rcases plainReg_cases h with rfl | rfl | rfl <;> decide

theorem dbgWide_plain {s : State} (hreq : (s.reg R.DBG_REQ).toNat % 8 = 0) : s.dbgWide = false := by
  have h : s.f F.DBG_REQ_SPACE = 0 := by
    show (s.reg R.DBG_REQ).toNat / 2 ^ 0 % 2 ^ 1 = 0
    omega
  simp [State.dbgWide, State.bit, h]

theorem dataWrite_plain {s : State} (hreq : (s.reg R.DBG_REQ).toNat % 8 = 0) (hfree : s.bus = [])
    (ha : PlainReg (s.reg R.DBG_ADDR_LO).toNat) (v : Word) (ecc : Ecc) :
    dataWrite s v ecc = { storeHub { s.setReg R.DBG_DATA v with bus := [] } (s.reg R.DBG_ADDR_LO).toNat v with bus := [] } := by
  have hreq' : (s.setReg R.DBG_DATA v).reg R.DBG_REQ = s.reg R.DBG_REQ := by simp
  have hlo : (s.setReg R.DBG_DATA v).reg R.DBG_ADDR_LO = s.reg R.DBG_ADDR_LO := by simp
  rw [dataWrite, dbgWide_plain (by rw [hreq']; exact hreq)]
  have h := startAccess_write (s := s.setReg R.DBG_DATA v) (by rw [hreq']; exact hreq) hfree (by rw [hlo]; exact ha) v ecc
  rw [hlo] at h
  exact h

theorem dataRead_begin {s : State} (hheld : s.dbg.held = none) (ecc : Ecc) : dataRead s ecc = (startAccess s none ecc).acked ackWait := by
  rw [dataRead, hheld]

theorem dataRead_held {s : State} {v : Entry} (hheld : s.dbg.held = some v) (hreq : (s.reg R.DBG_REQ).toNat % 8 = 0) (ecc : Ecc) :
    dataRead s ecc = { s.setReg R.DBG_DATA (v.truncate 32) with dbg := { s.dbg with held := none } }.driven (v.truncate 32) := by
  have hreq' : (s.setReg R.DBG_DATA (v.truncate 32)).reg R.DBG_REQ = s.reg R.DBG_REQ := by simp
  have hwide : (s.setReg R.DBG_DATA (v.truncate 32)).dbgWide = false := dbgWide_plain (by rw [hreq']; exact hreq)
  have hinc : (s.setReg R.DBG_DATA (v.truncate 32)).f F.DBG_REQ_INC = 0 := by
    show ((s.setReg R.DBG_DATA (v.truncate 32)).reg R.DBG_REQ).toNat / 2 ^ 2 % 2 ^ 1 = 0
    rw [hreq']
    omega
  rw [dataRead, hheld]
  dsimp only
  rw [hwide]
  refine if_neg (fun h => ?_)
  have hbit : (s.setReg R.DBG_DATA (v.truncate 32)).bit F.DBG_REQ_INC = true := h.1
  rw [State.bit, hinc] at hbit
  exact Bool.noConfusion hbit

/-- Opening a session keeps its idle limit. -/
theorem writeSession_attach (s : State) :
    (writeSession s (F.DBG_SESSION_ATTACH.put (s.reg R.DBG_SESSION) 1)).attached = true ∧
      (writeSession s (F.DBG_SESSION_ATTACH.put (s.reg R.DBG_SESSION) 1)).f F.DBG_SESSION_IDLE_TO = s.f F.DBG_SESSION_IDLE_TO ∧
      (writeSession s (F.DBG_SESSION_ATTACH.put (s.reg R.DBG_SESSION) 1)).rgns = s.rgns := by
  have hval := Fld.put_toNat F.DBG_SESSION_ATTACH (by unfold Fld.fits; decide) (s.reg R.DBG_SESSION) 1
  generalize F.DBG_SESSION_ATTACH.put (s.reg R.DBG_SESSION) 1 = v at hval ⊢
  simp only [pow_zero, Nat.mod_one, Nat.zero_add, one_mul] at hval
  have hbit : v.getLsbD 0 = true := by
    simp only [BitVec.getLsbD, Nat.testBit_eq_decide_div_mod_eq]
    simp
    omega
  have hopen : writeSession s v = (s.setF F.DBG_SESSION_IDLE_TO (v.toNat / 2 ^ 8)).setF F.DBG_SESSION_ATTACH v.toNat :=
    if_neg (by simp [hbit])
  have hidle : s.f F.DBG_SESSION_IDLE_TO = (s.reg R.DBG_SESSION).toNat / 2 ^ 8 % 2 ^ 8 := rfl
  rw [hopen, hidle]
  refine ⟨?_, ?_, rfl⟩
  · have : v.toNat % 2 = 1 := by omega
    simp [State.attached, State.bit, this]
  · simp
    omega

theorem writeSession_detach {s : State} (h : s.attached = true) (hkept : s.pwr.kept = 0)
    (hsem : ∀ n : Fin 32, s.f (F.SEM_HOLDER_KIND n.val) ≠ 4) :
    (writeSession s (F.DBG_SESSION_ATTACH.put (s.reg R.DBG_SESSION) 0)).attached = false ∧
      ∀ (rg : Rg) (k : CoreNo), (writeSession s (F.DBG_SESSION_ATTACH.put (s.reg R.DBG_SESSION) 0)).coreHalted rg k = false := by
  have hval := Fld.put_toNat F.DBG_SESSION_ATTACH (by unfold Fld.fits; decide) (s.reg R.DBG_SESSION) 0
  generalize F.DBG_SESSION_ATTACH.put (s.reg R.DBG_SESSION) 0 = v at hval ⊢
  simp only [pow_zero, Nat.mod_one, Nat.zero_add, one_mul] at hval
  have hbit : v.getLsbD 0 = false := by
    simp only [BitVec.getLsbD, Nat.testBit_eq_decide_div_mod_eq]
    simp
    omega
  have hclose : writeSession s v = endSession ((s.setF F.DBG_SESSION_IDLE_TO (v.toNat / 2 ^ 8)).setF F.DBG_SESSION_ATTACH v.toNat) :=
    if_pos ⟨h, by rw [hbit]; exact Bool.false_ne_true⟩
  rw [hclose]
  refine endSession_plain hkept (fun n => ?_)
  have hn := n.isLt
  rw [State.f_setF_off _ _ _ _ (by dsimp only; omega), State.f_setF_off _ _ _ _ (by dsimp only; omega)]
  exact hsem n

end Sys2Proof.Machine

namespace Sys2Proof

open Machine

/-- Settles O48: each request is answered by the state of the port, and runs its register's data phase where the answer is OK. -/
theorem debugPort : Obligations.DebugPort := by
  unfold Obligations.DebugPort
  refine ⟨fun s h => ⟨_, congrArg Host.Outcome.next (if_pos h), rfl⟩, fun hdr d par s ⟨hup, hign, hmark⟩ hbad => ?unanswered,
    fun d par s ⟨⟨hsync, hfed⟩, _, _⟩ => ?ident, fun hdr d par s ⟨⟨hsync, hfed⟩, _, _, hatt⟩ ⟨hok, ht, herr⟩ => ?outside,
    fun hdr d s ⟨hopen, _, _, hok, hw⟩ => ?parity, fun s h => ?attach, fun s ⟨h, hatt, hkept, hsem⟩ => ?detach,
    fun s ⟨hatt, hto, hkept, hsem⟩ => ?idle, fun s h => ⟨_, congrArg Host.Outcome.next (if_neg (fun hc => hc.2 h)), rfl⟩,
    fun v ecc s ⟨hopen, hfree, hreq, ha⟩ => ?dataWrite, fun ecc s ⟨hopen, hfree, hheld, hreq⟩ ha => ?dataRead,
    fun v ecc s ⟨hopen, hheld, hreq⟩ => ?dataHeld, fun ecc s ⟨⟨hsync, hfed⟩, hatt, herr⟩ => ?standing, fun s h => ?errClr⟩
  case unanswered =>
    have hno : ¬ s.dbg.synced = true ∨ ¬ headerOk hdr = true := by simpa using hbad
    have hexec : exec (.twdRequest hdr d par) s = .next (unanswered s) := by
      refine congrArg Host.Outcome.next ?_
      simp only [hup, hign, hmark, hno]
      rfl
    refine ⟨_, hexec, ?_, rfl, rfl, rfl⟩
    show (s.bump F.DBG_STATUS_HDR_ERR 1).f F.DBG_STATUS_HDR_ERR = _
    simp
  case ident =>
    obtain ⟨ecc, hexec⟩ := exec_twdRequest_taken (hdr := 0xA0) hsync (by decide) d par
    refine ⟨_, hexec.trans (congrArg Host.Outcome.next
      (request_read_ok (s := { s with drawn := s.drawn + 1 }) (t := 0) hsync.1 hfed (answer_low (by decide)) (by decide) par ecc)), ?_⟩
    exact ⟨rfl, rfl, rfl, rfl⟩
  case outside =>
    obtain ⟨ecc, hexec⟩ := exec_twdRequest_taken hsync hok d par
    have hans : answer { s with drawn := s.drawn + 1 } (hdr.toNat / 2 % 16) = ackErr :=
      if_pos ⟨by rw [show State.attached { s with drawn := s.drawn + 1 } = false from hatt]; exact Bool.false_ne_true, ht⟩
    have hatt' : State.attached { s with drawn := s.drawn + 1 } = false := hatt
    have hreq := request_err (s := { s with drawn := s.drawn + 1 }) hsync.1 hfed hans (if hdr.getLsbD 5 then none else some d) par ecc
    rw [hatt', if_neg Bool.false_ne_true] at hreq
    obtain ⟨hcode, hrgns, -⟩ := dbgErr_of_clear (s := { s with drawn := s.drawn + 1 }) herr (code := 6) (by decide)
    exact ⟨_, hexec.trans (congrArg Host.Outcome.next hreq), rfl, hcode, hrgns⟩
  case parity =>
    obtain ⟨ecc, hexec⟩ := exec_twdRequest_taken hopen.1 hok d true
    rw [hw, if_neg Bool.false_ne_true] at hexec
    have hopen' : PortOpen { s with drawn := s.drawn + 1 } := hopen
    obtain ⟨hcode, hrgns, hbus⟩ := dbgErr_of_clear hopen'.2.2.1 (code := 1) (by decide)
    exact ⟨_, hexec.trans (congrArg Host.Outcome.next (request_write_bad hopen'.1.1 (fed_of_open hopen') (answer_open hopen' _) d ecc)),
      rfl, hcode, hrgns, hbus⟩
  case attach =>
    obtain ⟨hatt, hto, hrgns⟩ := writeSession_attach s
    exact ⟨_, congrArg Host.Outcome.next (named_write_low h (by decide) _ _), hatt, rfl, hto, hrgns⟩
  case detach =>
    obtain ⟨hatt', hhalt⟩ := writeSession_detach hatt hkept hsem
    exact ⟨_, congrArg Host.Outcome.next (named_write_low h (by decide) _ _), hatt', hhalt⟩
  case idle => exact ⟨_, congrArg Host.Outcome.next (if_pos ⟨hatt, hto⟩), endSession_plain hkept hsem⟩
  case dataWrite =>
    refine ⟨_, congrArg Host.Outcome.next ((named_write_open hopen 6 v ecc).trans
      (congrArg (State.acked · ackOk) (dataWrite_plain hreq hfree ha v ecc))), fun row hrow => ?_, ?_, rfl, rfl, ?_⟩
    · show (storeHub { s.setReg R.DBG_DATA v with bus := [] } (s.reg R.DBG_ADDR_LO).toNat v).reg (s.reg R.DBG_ADDR_LO).toNat = _
      rw [storeHub_of_row hrow, State.reg_setReg_same]
      exact congrArg (row.written · v) (State.reg_setReg_other s v (plain_ne_data ha))
    · show (storeHub { s.setReg R.DBG_DATA v with bus := [] } (s.reg R.DBG_ADDR_LO).toNat v).reg R.DBG_DATA = v
      rw [reg_storeHub_other _ _ (plain_ne_data ha).symm]
      exact State.reg_setReg_same s R.DBG_DATA v
    · show (storeHub { s.setReg R.DBG_DATA v with bus := [] } (s.reg R.DBG_ADDR_LO).toNat v).rgns = s.rgns
      rw [storeHub_rgns]
      rfl
  case dataRead =>
    refine ⟨_, congrArg Host.Outcome.next ((named_read_data hopen ecc).trans ((dataRead_begin hheld ecc).trans
      (congrArg (State.acked · ackWait) (startAccess_read hreq hfree ha ecc)))), rfl, rfl, rfl, rfl⟩
  case dataHeld =>
    refine ⟨_, congrArg Host.Outcome.next ((named_read_data hopen ecc).trans (dataRead_held hheld hreq ecc)), rfl, rfl, ?_, rfl, rfl⟩
    exact State.reg_setReg_same s R.DBG_DATA _
  case standing =>
    have hans : answer s 6 = ackErr := by simp [answer, hatt, herr]
    have hreq := request_err hsync.1 hfed hans none false ecc
    rw [hatt, if_pos rfl] at hreq
    exact ⟨_, congrArg Host.Outcome.next ((named_synced hsync _ _ _).trans hreq), rfl⟩
  case errClr =>
    have hclr : writePort s 2 0x10000 .clean = s.setF F.DBG_STATUS_ERR 0 := by
      simp [writePort]
    refine ⟨_, congrArg Host.Outcome.next ((named_write_low h (by decide) _ _).trans (congrArg (State.acked · ackOk) hclr)), ?_, ?_, rfl, rfl⟩
    · show (s.setF F.DBG_STATUS_ERR 0).f F.DBG_STATUS_ERR = 0
      simp
    · show (s.setF F.DBG_STATUS_ERR 0).f F.DBG_STATUS_HDR_ERR = _
      simp

end Sys2Proof
end

section
/-! PROOFS. An easel core performs an instruction: the core after it, for every instruction that completes (R331, R341, R343). -/

namespace Sys2Proof.Machine

/-! ### An instruction completes -/

/-- Late writes that still wait count down by one instruction (R343). -/
def agedWrites (l : List LateWrite) : List LateWrite := l.map (fun w => { w with left := w.left - 1 })

theorem Easel.age_of_waiting {e : Easel} (h : ∀ w ∈ e.lateW, 1 < w.left) : e.age = { e with lateW := agedWrites e.lateW } := by
  have hdue : e.lateW.filter (fun w => decide (w.left ≤ 1)) = [] :=
    List.filter_eq_nil_iff.mpr (fun w hw => by simpa using h w hw)
  have hleft : e.lateW.filter (fun w => decide (1 < w.left)) = e.lateW :=
    List.filter_eq_self.mpr (fun w hw => by simpa using h w hw)
  unfold Easel.age
  rw [hdue, hleft]
  rfl

/-- The core `e` after its instruction where no late write lands and no loop ends: at `next` where it jumps, else at the next address. -/
def Easel.completed (e : Easel) (next : Option (BitVec 15)) : Easel :=
  { e with lateW := agedWrites e.lateW, pc := next.getD (e.pc + 1), dbg := { e.dbg with pass := none } }

theorem Easel.complete_of_no_end {e : Easel} {ie : Bool} (hend : e.ie = ie → e.levelAt e.pc = none) (hlate : ∀ w ∈ e.lateW, 1 < w.left)
    (next : Option (BitVec 15)) : e.complete ie next = e.completed next := by
  have hnone : (if e.ie = ie then e.levelAt e.pc else none) = none := by
    split
    · next h => exact hend h
    · rfl
  simp only [Easel.complete, hnone, Easel.age_of_waiting hlate]
  rfl

/-- The core reads as `e` but for what the counting of stalls touches. -/
def CoreIs (t : State) (rg : Rg) (k : CoreNo) (e : Easel) : Prop :=
  t.eas rg k = { e with haz := (t.eas rg k).haz, fetched := none, patchOld := (t.eas rg k).patchOld }

/-- What the end of an instruction asks of the core: no loop ends at it, no late write lands, the debug port is quiet. -/
structure Easel.Ends (e : Easel) (ie : Bool) : Prop where
  level : e.ie = ie → e.levelAt e.pc = none
  late : ∀ w ∈ e.lateW, 1 < w.left
  stepping : e.dbg.stepping = false
  haltReq : e.dbg.haltReq = false

theorem retire_of_ends {s : State} {rg : Rg} {k : CoreNo} {ie : Bool} (h : (s.eas rg k).Ends ie) (next : Option (BitVec 15)) :
    retire s rg k ie next = (s.setEas rg k ((s.eas rg k).completed next)).bumpR rg (F.EAS_PERF_INSN_COUNT k.val) 1 := by
  unfold retire
  rw [State.onEas, Easel.complete_of_no_end h.level h.late]
  exact boundary_of_quiet (by simpa [Easel.completed] using h.stepping) (by simpa [Easel.completed] using h.haltReq)

/-- The instruction at PC, of opcode `op`, is done in state `t`. -/
theorem easStep_of_done {s t : State} {rg : Rg} {k : CoreNo} {op : Nat} {f : State → Word → Did} {next : Option (BitVec 15)}
    (hat : CoreAt s rg k op) (hop : isOpcode op = true) (hf : f s (coreWord s rg k) = .done t next) :
    easStep s rg k op f =
      retire (countStalls t rg k (s.eas rg k) (coreWord s rg k) next.isSome) rg k (s.eas rg k).ie next := by
  obtain ⟨hruns, hpc, hword, hend, -⟩ := hat
  have hbelow : ¬ 0x6000 ≤ (s.eas rg k).pc.toNat := by omega
  simp [easStep, hruns, hbelow, hword, hop, hend, hf]

theorem State.rf_bumpR_count (s : State) (rg : Rg) (f : Fld) (n : Nat) (hf : f.fits) :
    (s.bumpR rg f n).rf rg f = min (s.rf rg f + n) f.max := by
  rw [State.rf, State.rgn_bumpR_same]
  exact Region.f_bump_same _ f hf n

theorem OnlyCore.rf {rg : Rg} {k : CoreNo} {s t : State} (h : OnlyCore rg k s t) {f : Fld} (h1 : f.off ≠ (F.EAS_PERF_INSN_COUNT k.val).off)
    (h2 : f.off ≠ (F.EAS_PERF_STALL_COUNT k.val).off) : t.rf rg f = s.rf rg f := by
  obtain ⟨-, -, -, hregs⟩ := h
  exact congrArg f.of (hregs _ h1 h2)

/-- The stalls are counted in a register of their own and in nothing else of the state but the core. -/
theorem countStalls_core (t : State) (rg : Rg) (k : CoreNo) (e : Easel) (w : Word) (jumps : Bool) :
    (∃ h n, (countStalls t rg k e w jumps).eas rg k = (t.eas rg k).stalled h n) ∧ OnlyCore rg k t (countStalls t rg k e w jumps) ∧
      (countStalls t rg k e w jumps).rf rg (F.EAS_PERF_INSN_COUNT k.val) = t.rf rg (F.EAS_PERF_INSN_COUNT k.val) := by
  obtain ⟨h, n, stalls, hcount⟩ := countStalls_eq t rg k e w jumps
  have hk := k.isLt
  rw [hcount]
  refine ⟨⟨h, n, ?_⟩, ?_, ?_⟩
  · rw [State.eas_bumpR, State.eas_onEas_same, Easel.eas_stallDraw]
  · exact ((Easel.onlyCore_stallDraw e w t rg k).trans (onlyCore_setEas _ rg k _)).trans (onlyCore_bumpR _ rg (.inr rfl) stalls)
  · rw [State.rf_bumpR_off _ _ _ _ _ _ (by dsimp only; omega)]
    unfold Easel.stallDraw
    split
    · exact State.rf_onRgn_same _ _ _ _
    · exact State.rf_onRgn_same _ _ _ _

/-- The core, the frame and the count of instructions after an instruction that is done in state `t`. -/
theorem easStep_done {s t : State} {rg : Rg} {k : CoreNo} {op : Nat} {f : State → Word → Did} {next : Option (BitVec 15)}
    (hat : CoreAt s rg k op) (hop : isOpcode op = true) (hf : f s (coreWord s rg k) = .done t next)
    (hends : (t.eas rg k).Ends (s.eas rg k).ie) :
    CoreIs (easStep s rg k op f) rg k ((t.eas rg k).completed next) ∧ OnlyCore rg k t (easStep s rg k op f) ∧
      (easStep s rg k op f).rf rg (F.EAS_PERF_INSN_COUNT k.val) =
        min (t.rf rg (F.EAS_PERF_INSN_COUNT k.val) + 1) (F.EAS_PERF_INSN_COUNT k.val).max := by
  rw [easStep_of_done hat hop hf]
  obtain ⟨⟨h, n, hcore⟩, honly, hcount⟩ := countStalls_core t rg k (s.eas rg k) (coreWord s rg k) next.isSome
  generalize countStalls t rg k (s.eas rg k) (coreWord s rg k) next.isSome = u at hcore honly hcount ⊢
  have hends' : (u.eas rg k).Ends (s.eas rg k).ie := by
    rw [hcore]
    exact ⟨hends.level, hends.late, hends.stepping, hends.haltReq⟩
  rw [retire_of_ends hends']
  refine ⟨?_, (honly.trans (onlyCore_setEas u rg k _)).trans (onlyCore_bumpR _ rg (.inl rfl) 1), ?_⟩
  · rw [CoreIs, State.eas_bumpR, State.eas_setEas_same, hcore]
    rfl
  · rw [State.rf_bumpR_count _ _ _ _ (by simp [Fld.fits]), ← hcount]
    exact congrArg (min · _) (congrArg (· + 1) (State.rf_onRgn_same _ _ _ _))

/-! ### An instruction that keeps the flow of the core -/

/-- The core `e'` stands where `e` does, in the same loops and for the debug port. -/
structure Easel.KeepsFlow (e e' : Easel) : Prop where
  pc : e'.pc = e.pc
  dbg : e'.dbg = e.dbg
  lateW : e'.lateW = e.lateW
  l0 : e'.l0 = e.l0
  l1 : e'.l1 = e.l1
  ie : e'.ie = e.ie

theorem Easel.KeepsFlow.levelAt {e e' : Easel} (h : e.KeepsFlow e') (pc : BitVec 15) : e'.levelAt pc = e.levelAt pc := by
  unfold Easel.levelAt
  rw [h.l0, h.l1, h.ie]

theorem Easel.KeepsFlow.ends {s : State} {rg : Rg} {k : CoreNo} {op : Nat} {e' : Easel} (h : (s.eas rg k).KeepsFlow e')
    (hat : CoreAt s rg k op) : e'.Ends (s.eas rg k).ie := by
  obtain ⟨-, -, -, hend, hlate, hstep, hreq⟩ := hat
  refine ⟨fun _ => ?_, ?_, by rw [h.dbg]; exact hstep, by rw [h.dbg]; exact hreq⟩
  · rw [h.pc, h.levelAt]; exact hend
  · rw [h.lateW, hlate]; simp

theorem Easel.completed_of_keepsFlow {s : State} {rg : Rg} {k : CoreNo} {op : Nat} {e' : Easel} (h : (s.eas rg k).KeepsFlow e')
    (hat : CoreAt s rg k op) (next : Option (BitVec 15)) :
    e'.completed next = { e' with pc := next.getD ((s.eas rg k).pc + 1), dbg := { (s.eas rg k).dbg with pass := none } } := by
  obtain ⟨-, -, -, -, hlate, -⟩ := hat
  have hno : e'.lateW = [] := h.lateW.trans hlate
  have haged : agedWrites e'.lateW = e'.lateW := by rw [hno]; rfl
  rw [Easel.completed, haged, h.pc, h.dbg]

theorem easStep_keepsFlow {s : State} {rg : Rg} {k : CoreNo} {op : Nat} {f : State → Word → Did} {e : Easel} (hat : CoreAt s rg k op)
    (hop : isOpcode op = true) (hf : f s (coreWord s rg k) = .done (s.setEas rg k e) none) (h : (s.eas rg k).KeepsFlow e) :
    CoreStep s (easStep s rg k op f) rg k e ∧ OnlyCore rg k s (easStep s rg k op f) ∧
      (easStep s rg k op f).rf rg (F.EAS_PERF_INSN_COUNT k.val) =
        min (s.rf rg (F.EAS_PERF_INSN_COUNT k.val) + 1) (F.EAS_PERF_INSN_COUNT k.val).max := by
  have hcore : (s.setEas rg k e).eas rg k = e := State.eas_setEas_same s rg k e
  obtain ⟨his, honly, hcount⟩ := easStep_done hat hop hf (by rw [hcore]; exact h.ends hat)
  rw [hcore, Easel.completed_of_keepsFlow h hat] at his
  refine ⟨his, (onlyCore_setEas s rg k e).trans honly, hcount.trans ?_⟩
  exact congrArg (min · _) (congrArg (· + 1) (State.rf_onRgn_same _ _ _ _))

theorem onCore_eq (rg : Rg) (k : CoreNo) (g : Easel → Word → Easel) (s : State) (w : Word) :
    onCore rg k g s w = .done (s.setEas rg k (g (s.eas rg k) w)) none := rfl

end Sys2Proof.Machine
end

section
/-! PROOFS. The arithmetic of an easel core, its immediate forms and its moves (R331, R332, R334). -/

namespace Sys2Proof.Machine

/-! ### Flags (R332) -/

/-- A signed value fits 16 bits exactly where it is the value of its 16-bit form. -/
theorem overflow16_eq (i : Int) (v : BitVec 16) (hv : v.toInt = i.bmod (2 ^ 16)) : overflow16 i = decide (i ≠ v.toInt) := by
  rw [hv, overflow16, Int.bmod_def, ← Bool.decide_or]
  refine decide_eq_decide.mpr ?_
  split <;> omega

theorem overflow16_add (a b : BitVec 16) : overflow16 (a.toInt + b.toInt) = decide (a.toInt + b.toInt ≠ (a + b).toInt) :=
  overflow16_eq _ _ (BitVec.toInt_add a b)

theorem overflow16_sub (a b : BitVec 16) : overflow16 (a.toInt - b.toInt) = decide (a.toInt - b.toInt ≠ (a - b).toInt) :=
  overflow16_eq _ _ BitVec.toInt_sub

theorem srFlags_bits (sr : BitVec 8) (x : Alu) :
    (srFlags sr x).getLsbD 0 = x.z ∧ (srFlags sr x).getLsbD 1 = x.n ∧ (srFlags sr x).getLsbD 2 = x.c ∧ (srFlags sr x).getLsbD 3 = x.v ∧
      ∀ i, 4 ≤ i → (srFlags sr x).getLsbD i = sr.getLsbD i := by
  unfold srFlags
  refine ⟨?_, ?_, ?_, getLsbD_setBit_same _ _ (by decide), fun i hi => ?_⟩
  · rw [getLsbD_setBit_ne _ _ (by decide), getLsbD_setBit_ne _ _ (by decide), getLsbD_setBit_ne _ _ (by decide),
      getLsbD_setBit_same _ _ (by decide)]
  · rw [getLsbD_setBit_ne _ _ (by decide), getLsbD_setBit_ne _ _ (by decide), getLsbD_setBit_same _ _ (by decide)]
  · rw [getLsbD_setBit_ne _ _ (by decide), getLsbD_setBit_same _ _ (by decide)]
  · rw [getLsbD_setBit_ne _ _ (by omega), getLsbD_setBit_ne _ _ (by omega), getLsbD_setBit_ne _ _ (by omega),
      getLsbD_setBit_ne _ _ (by omega)]

theorem Easel.ie_srFlags (e : Easel) (x : Alu) : ({ e with sr := srFlags e.sr x } : Easel).ie = e.ie :=
  (srFlags_bits e.sr x).2.2.2.2 7 (by decide)

/-! ### What a step leaves in the core -/

section
variable {s t : State} {rg : Rg} {k : CoreNo} {e : Easel}

theorem flagsBecome_of_step {v : BitVec 16} {c o : Bool} (h : CoreStep s t rg k e) (hsr : e.sr = srFlags (s.eas rg k).sr (aluOf v c o)) :
    FlagsBecome s t rg k v c o := by
  obtain ⟨hz, hn, hc, hv, hrest⟩ := srFlags_bits (s.eas rg k).sr (aluOf v c o)
  rw [FlagsBecome, h.sr, hsr]
  exact ⟨hz, hn.trans (BitVec.msb_eq_getLsbD_last v), hc, hv, fun i hi => hrest i.val hi⟩

theorem regBecomes_of_step {rd : Nat} {v : BitVec 16} (h : CoreStep s t rg k e) (hrd : rd < 32) (hr : e.r = ((s.eas rg k).put rd v).r)
    (hrb : e.rb = (s.eas rg k).rb) : RegBecomes s t rg k rd v := by
  have hget (n : Nat) : e.get n = ((s.eas rg k).put rd v).get n := by
    unfold Easel.get
    rw [hr, hrb]
    rfl
  refine ⟨(h.get rd).trans ((hget rd).trans (Easel.get_put_same _ _ _)), fun i hi => ?_⟩
  exact (h.get i.val).trans ((hget i.val).trans (Easel.get_put_ne _ _ i.isLt hrd hi))

/-- An ALU instruction that puts `v` with its flags in RD. -/
theorem aluDone_of_result {op : Nat} {f : Easel → Word → Easel} {v : BitVec 16} {c o : Bool} (hat : CoreAt s rg k op)
    (hop : isOpcode op = true)
    (hf : f (s.eas rg k) (coreWord s rg k) = (s.eas rg k).result (insnRd (coreWord s rg k)) (aluOf v c o)) :
    AluDone s (easStep s rg k op (onCore rg k f)) rg k v c o := by
  have hkeeps : (s.eas rg k).KeepsFlow (f (s.eas rg k) (coreWord s rg k)) := by
    rw [hf]
    exact ⟨rfl, rfl, rfl, rfl, rfl, Easel.ie_srFlags _ _⟩
  obtain ⟨hstep, honly, -⟩ := easStep_keepsFlow hat hop (onCore_eq rg k f s _) hkeeps
  rw [hf] at hstep
  refine ⟨regBecomes_of_step hstep (insnRd_lt _) rfl rfl, flagsBecome_of_step hstep rfl, ?_, honly⟩
  rw [CoreStep, hstep]
  rfl

/-- A comparison, which changes the flags alone. -/
theorem flags_of_compare {op : Nat} {f : Easel → Word → Easel} {v : BitVec 16} {c o : Bool} (hat : CoreAt s rg k op)
    (hop : isOpcode op = true) (hf : f (s.eas rg k) (coreWord s rg k) = aluFlags (s.eas rg k) (aluOf v c o)) :
    FlagsBecome s (easStep s rg k op (onCore rg k f)) rg k v c o ∧
      CoreStep s (easStep s rg k op (onCore rg k f)) rg k
        { s.eas rg k with sr := ((easStep s rg k op (onCore rg k f)).eas rg k).sr } ∧
      OnlyCore rg k s (easStep s rg k op (onCore rg k f)) := by
  have hkeeps : (s.eas rg k).KeepsFlow (f (s.eas rg k) (coreWord s rg k)) := by
    rw [hf]
    exact ⟨rfl, rfl, rfl, rfl, rfl, Easel.ie_srFlags _ _⟩
  obtain ⟨hstep, honly, -⟩ := easStep_keepsFlow hat hop (onCore_eq rg k f s _) hkeeps
  rw [hf] at hstep
  refine ⟨flagsBecome_of_step hstep rfl, ?_, honly⟩
  rw [CoreStep, hstep]
  rfl

/-- An instruction that puts `v` in RD and leaves the flags. -/
theorem regBecomes_of_put {op : Nat} {f : State → Word → Did} {v : BitVec 16} (hat : CoreAt s rg k op) (hop : isOpcode op = true)
    (hf : f s (coreWord s rg k) = .done (s.setEas rg k ((s.eas rg k).put (insnRd (coreWord s rg k)) v)) none) :
    RegBecomes s (easStep s rg k op f) rg k (insnRd (coreWord s rg k)) v ∧
      CoreStep s (easStep s rg k op f) rg k { s.eas rg k with r := ((easStep s rg k op f).eas rg k).r } ∧
      OnlyCore rg k s (easStep s rg k op f) := by
  obtain ⟨hstep, honly, -⟩ := easStep_keepsFlow hat hop hf ⟨rfl, rfl, rfl, rfl, rfl, rfl⟩
  refine ⟨regBecomes_of_step hstep (insnRd_lt _) rfl rfl, ?_, honly⟩
  rw [CoreStep, hstep]
  rfl

end

/-! ### The results with their flags -/

theorem aluAdd_eq (a b : BitVec 16) :
    aluAdd a b = aluOf (a + b) (decide (65536 ≤ a.toNat + b.toNat)) (decide (a.toInt + b.toInt ≠ (a + b).toInt)) := by
  rw [aluAdd, overflow16_add]

theorem aluSub_eq (a b : BitVec 16) :
    aluSub a b = aluOf (a - b) (decide (a.toNat < b.toNat)) (decide (a.toInt - b.toInt ≠ (a - b).toInt)) := by
  rw [aluSub, overflow16_sub]

theorem doAdd_eq (e : Easel) (w : Word) : doAdd e w = e.result (insnRd w) (aluOf (e.get (insnRa w) + e.get (insnRb w))
    (decide (65536 ≤ (e.get (insnRa w)).toNat + (e.get (insnRb w)).toNat))
    (decide ((e.get (insnRa w)).toInt + (e.get (insnRb w)).toInt ≠ (e.get (insnRa w) + e.get (insnRb w)).toInt))) := by
  rw [doAdd, aluReg, aluAdd_eq]

theorem doSub_eq (e : Easel) (w : Word) : doSub e w = e.result (insnRd w) (aluOf (e.get (insnRa w) - e.get (insnRb w))
    (decide ((e.get (insnRa w)).toNat < (e.get (insnRb w)).toNat))
    (decide ((e.get (insnRa w)).toInt - (e.get (insnRb w)).toInt ≠ (e.get (insnRa w) - e.get (insnRb w)).toInt))) := by
  rw [doSub, aluReg, aluSub_eq]

theorem doCmp_eq (e : Easel) (w : Word) : doCmp e w = aluFlags e (aluOf (e.get (insnRa w) - e.get (insnRb w))
    (decide ((e.get (insnRa w)).toNat < (e.get (insnRb w)).toNat))
    (decide ((e.get (insnRa w)).toInt - (e.get (insnRb w)).toInt ≠ (e.get (insnRa w) - e.get (insnRb w)).toInt))) := by
  rw [doCmp, aluSub_eq]

theorem doAddi_eq (e : Easel) (w : Word) : doAddi e w = e.result (insnRd w) (aluOf (e.get (insnRa w) + insnImm w)
    (decide (65536 ≤ (e.get (insnRa w)).toNat + (insnImm w).toNat))
    (decide ((e.get (insnRa w)).toInt + (insnImm w).toInt ≠ (e.get (insnRa w) + insnImm w).toInt))) := by
  rw [doAddi, aluImm, aluAdd_eq]

theorem doCmpi_eq (e : Easel) (w : Word) : doCmpi e w = aluFlags e (aluOf (e.get (insnRa w) - insnImm w)
    (decide ((e.get (insnRa w)).toNat < (insnImm w).toNat))
    (decide ((e.get (insnRa w)).toInt - (insnImm w).toInt ≠ (e.get (insnRa w) - insnImm w).toInt))) := by
  rw [doCmpi, aluSub_eq]

theorem decide_pos_eq_ne (n : Nat) : decide (0 < n) = decide (n ≠ 0) := decide_eq_decide.mpr Nat.pos_iff_ne_zero

/-- Settles O17: each row is the result of one function of its operands, put in RD with its flags. -/
theorem easelArithmetic : Obligations.EaselArithmetic := by
  unfold Obligations.EaselArithmetic
  refine ⟨fun rg k s hat => ⟨_, rfl, easStep_keepsFlow hat rfl rfl ⟨rfl, rfl, rfl, rfl, rfl, rfl⟩⟩,
    fun rg k s hat => ⟨_, rfl, aluDone_of_result hat rfl (doAdd_eq _ _)⟩,
    fun rg k s hat => ⟨_, rfl, aluDone_of_result hat rfl (doSub_eq _ _)⟩,
    fun rg k s hat => ⟨_, rfl, aluDone_of_result hat rfl rfl⟩, fun rg k s hat => ⟨_, rfl, aluDone_of_result hat rfl rfl⟩,
    fun rg k s hat => ⟨_, rfl, aluDone_of_result hat rfl rfl⟩, fun rg k s hat => ⟨_, rfl, ?shl⟩, fun rg k s hat => ⟨_, rfl, ?shr⟩,
    fun rg k s hat => ⟨_, rfl, ?shra⟩, fun rg k s hat => ⟨_, rfl, flags_of_compare hat rfl (doCmp_eq _ _)⟩⟩
  all_goals
    rw [← decide_pos_eq_ne]
    exact aluDone_of_result hat rfl rfl

/-! ### MSV -/

theorem Easel.specWrite_late {e : Easel} {sp : Nat} (h : (8 ≤ sp ∧ sp < 0x18) ∨ sp = 0x19) (v : BitVec 16) :
    e.specWrite sp v = { e with lateW := e.lateW ++ [⟨BitVec.ofNat 6 sp, v, 3⟩] } := by
  have h8 : ¬ sp < 8 := by omega
  exact (if_neg h8).trans (if_pos (by omega))

/-- A late write is seen to wait for two more instructions once its own has completed (R343). -/
theorem agedWrites_new (sp : BitVec 6) (v : BitVec 16) : agedWrites [⟨sp, v, 3⟩] = [⟨sp, v, 2⟩] := by simp [agedWrites]

/-- Settles O18: as O17, and MSV writes its pointer at once or queues the late write, which this instruction already ages by one. -/
theorem easelImmediatesAndMoves : Obligations.EaselImmediatesAndMoves := by
  unfold Obligations.EaselImmediatesAndMoves
  refine ⟨fun rg k s hat => ⟨_, rfl, aluDone_of_result hat rfl (doAddi_eq _ _)⟩,
    fun rg k s hat => ⟨_, rfl, aluDone_of_result hat rfl rfl⟩, fun rg k s hat => ⟨_, rfl, aluDone_of_result hat rfl rfl⟩,
    fun rg k s hat => ⟨_, rfl, aluDone_of_result hat rfl rfl⟩, fun rg k s hat => ⟨_, rfl, regBecomes_of_put hat rfl rfl⟩,
    fun rg k s hat => ⟨_, rfl, flags_of_compare hat rfl (doCmpi_eq _ _)⟩,
    fun rg k s hat => ⟨_, rfl, regBecomes_of_put hat rfl rfl⟩, fun rg k s hat hsp => ⟨_, rfl, ?pointer⟩,
    fun rg k s hat hsp => ⟨_, rfl, ?late⟩⟩
  case pointer =>
    have hmsv : doMsv (s.eas rg k) (coreWord s rg k) =
        (s.eas rg k).setP (insnField (coreWord s rg k) 15 6) ((s.eas rg k).get (insnRd (coreWord s rg k))) := if_pos hsp
    obtain ⟨hstep, honly, -⟩ := easStep_keepsFlow hat rfl (onCore_eq rg k doMsv s _) (by rw [hmsv]; exact ⟨rfl, rfl, rfl, rfl, rfl, rfl⟩)
    rw [hmsv] at hstep
    refine ⟨(hstep.p _).trans (Easel.p_setP_same _ _ _), ?_, honly⟩
    rw [CoreStep, hstep]
    rfl
  case late =>
    have hmsv : doMsv (s.eas rg k) (coreWord s rg k) = { s.eas rg k with
        lateW := [⟨BitVec.ofNat 6 (insnField (coreWord s rg k) 15 6), (s.eas rg k).get (insnRd (coreWord s rg k)), 3⟩] } := by
      rw [doMsv, Easel.specWrite_late hsp, hat.2.2.2.2.1, List.nil_append]
    have hf : onCore rg k doMsv s (coreWord s rg k) = .done (s.setEas rg k { s.eas rg k with
        lateW := [⟨BitVec.ofNat 6 (insnField (coreWord s rg k) 15 6), (s.eas rg k).get (insnRd (coreWord s rg k)), 3⟩] }) none := by
      rw [onCore_eq, hmsv]
    obtain ⟨-, -, -, hend, hlate, hstepping, hreq⟩ := id hat
    obtain ⟨his, honly, -⟩ := easStep_done hat rfl hf (by
      rw [State.eas_setEas_same]
      exact ⟨fun _ => hend, by simp, hstepping, hreq⟩)
    rw [State.eas_setEas_same, Easel.completed, agedWrites_new] at his
    exact ⟨his, (onlyCore_setEas s rg k _).trans honly⟩

end Sys2Proof.Machine
end

section
/-! PROOFS. The accumulators of an easel core (R337–R339). -/

namespace Sys2Proof.Machine

/-! ### An accumulator written -/

theorem Easel.setAcc_eq (e : Easel) (one : Bool) (x : BitVec 40 × Bool) :
    e.setAcc one x = { e with a0 := (e.setAcc one x).a0, a1 := (e.setAcc one x).a1, sr := if x.2 then setBit e.sr 3 true else e.sr } := by
  unfold Easel.setAcc Easel.setV
  cases one <;> cases x.2 <;> rfl

theorem Easel.acc_setAcc (e : Easel) (one : Bool) (x : BitVec 40 × Bool) : (e.setAcc one x).acc one = x.1 := by
  unfold Easel.setAcc Easel.acc Easel.setV
  cases one <;> cases x.2 <;> rfl

theorem ie_ifV (sr : BitVec 8) (b : Bool) : (if b then setBit sr 3 true else sr).getLsbD 7 = sr.getLsbD 7 := by
  split
  · exact getLsbD_setBit_ne _ _ (by decide)
  · rfl

theorem v_ifV (sr : BitVec 8) (b : Bool) : (if b then setBit sr 3 true else sr).getLsbD 3 = (sr.getLsbD 3 || b) := by
  cases b
  · rw [if_neg Bool.false_ne_true, Bool.or_false]
  · rw [if_pos rfl, getLsbD_setBit_same _ _ (by decide), Bool.or_true]

theorem Easel.keepsFlow_setAcc (e : Easel) (one : Bool) (x : BitVec 40 × Bool) : e.KeepsFlow (e.setAcc one x) := by
  rw [Easel.setAcc_eq]
  exact ⟨rfl, rfl, rfl, rfl, rfl, ie_ifV _ _⟩

theorem Easel.KeepsFlow.trans {e e' e'' : Easel} (h : e.KeepsFlow e') (h' : e'.KeepsFlow e'') : e.KeepsFlow e'' :=
  ⟨h'.pc.trans h.pc, h'.dbg.trans h.dbg, h'.lateW.trans h.lateW, h'.l0.trans h.l0, h'.l1.trans h.l1, h'.ie.trans h.ie⟩

theorem onCore_done {rg : Rg} {k : CoreNo} {g : Easel → Word → Easel} {s : State} {w : Word} {e : Easel} (h : g (s.eas rg k) w = e) :
    onCore rg k g s w = .done (s.setEas rg k e) none := by
  rw [onCore_eq, h]

section
variable {s t : State} {rg : Rg} {k : CoreNo} {e : Easel}

theorem CoreStep.acc (h : CoreStep s t rg k e) (one : Bool) : (t.eas rg k).acc one = e.acc one := by rw [h]; rfl

/-- An instruction that writes one accumulator, and V where it overflows. -/
theorem easStep_setAcc {op : Nat} {f : State → Word → Did} {one : Bool} {x : BitVec 40 × Bool} (hat : CoreAt s rg k op)
    (hop : isOpcode op = true) (hf : f s (coreWord s rg k) = .done (s.setEas rg k ((s.eas rg k).setAcc one x)) none) :
    ((easStep s rg k op f).eas rg k).acc one = x.1 ∧
      ((easStep s rg k op f).eas rg k).sr = (if x.2 then setBit (s.eas rg k).sr 3 true else (s.eas rg k).sr) ∧
      ((easStep s rg k op f).eas rg k).r = (s.eas rg k).r ∧ OnlyCore rg k s (easStep s rg k op f) := by
  obtain ⟨hstep, honly, -⟩ := easStep_keepsFlow hat hop hf (Easel.keepsFlow_setAcc _ _ _)
  refine ⟨(hstep.acc one).trans (Easel.acc_setAcc _ _ _), hstep.sr.trans ?_, hstep.r.trans ?_, honly⟩ <;> rw [Easel.setAcc_eq]

end

/-! ### Products -/

theorem runMul_of_mop {rg : Rg} {k : CoreNo} {s : State} {w : Word} {mop : Nat} (hmop : insnField w 23 2 = mop) (h : mop ≠ 3) :
    runMul rg k s w = .done (s.setEas rg k ((s.eas rg k).setAcc (w.getLsbD 25) (accMul mop ((s.eas rg k).acc (w.getLsbD 25))
      ((s.eas rg k).get (insnRa w)) ((s.eas rg k).get (insnRb w))))) none := by
  rw [runMul, hmop]
  exact if_neg h

/-- A product of two 16-bit values does not overflow an accumulator. -/
theorem accOf_product (a b : BitVec 16) : (accOf (a.toInt * b.toInt)).2 = false := by
  have ha := a.toInt_lt
  have ha' := a.le_toInt
  have hb := b.toInt_lt
  have hb' := b.le_toInt
  norm_num at ha ha' hb hb'
  have h1 : a.toInt * b.toInt ≤ 32768 * 32768 := by nlinarith
  have h2 : -(32768 * 32768) ≤ a.toInt * b.toInt := by nlinarith
  simp only [accOf, Bool.or_eq_false_iff, decide_eq_false_iff_not]
  omega

theorem accOf_overflow (i : Int) : (accOf i).2 = decide (i < -(2 ^ 39) ∨ 2 ^ 39 ≤ i) := (Bool.decide_or _ _).symm

/-! ### The loads of MACLD -/

theorem macLoad_of_load {e : Easel} {m : Mem} {p d : Nat} {back : Bool} (h : d ≠ 15) :
    macLoad e m p d back =
      (e.put (8 + d) (BitVec.ofNat 16 (Mem.read m (e.p p).toNat 2))).setP p (e.advance p (if back then -2 else 2)) := if_neg h

theorem Easel.keepsFlow_macLoad (e : Easel) (m : Mem) (p d : Nat) (back : Bool) : e.KeepsFlow (macLoad e m p d back) := by
  unfold macLoad
  split <;> exact ⟨rfl, rfl, rfl, rfl, rfl, rfl⟩

theorem Easel.advance_congr {e e' : Easel} {n : Nat} (hp : e'.p n = e.p n) (hb : e'.b n = e.b n) (hl : e'.l n = e.l n) (m : Int) :
    e'.advance n m = e.advance n m := by
  unfold Easel.advance
  rw [hp, hb, hl]

/-- A core whose pointers are those of `e`, but for P of another pointer, advances the pointer as `e` does. -/
theorem Easel.advance_of_ptr {e e' : Easel} {n j : Nat} {v : BitVec 16} (h : e'.ptr = SMap.set 0 e.ptr j v) (hj : j < 8) (hn : n ≠ j)
    (m : Int) : e'.advance n m = e.advance n m := by
  refine Easel.advance_congr ?_ ?_ ?_ m
  · exact (congrArg (SMap.get 0 · n) h).trans (SMap.get_set_ne _ _ _ (by omega))
  · exact (congrArg (SMap.get 0 · (8 + n)) h).trans (SMap.get_set_ne _ _ _ (by omega))
  · exact (congrArg (SMap.get 0 · (16 + n)) h).trans (SMap.get_set_ne _ _ _ (by omega))

/-- The core after a MACLD that accumulates `x` and makes both loads. -/
def Easel.macld (e : Easel) (w : Word) (x : BitVec 40 × Bool) : Easel :=
  macLoad (macLoad (e.setAcc (w.getLsbD 25) x) e.x (insnField w 13 2) (insnField w 5 4) (w.getLsbD 10)) e.y (4 + insnField w 11 2)
    (insnField w 1 4) (w.getLsbD 9)

theorem Easel.keepsFlow_macld (e : Easel) (w : Word) (x : BitVec 40 × Bool) : e.KeepsFlow (e.macld w x) :=
  ((e.keepsFlow_setAcc _ x).trans (Easel.keepsFlow_macLoad _ _ _ _ _)).trans (Easel.keepsFlow_macLoad _ _ _ _ _)

theorem Easel.ptr_setAcc (e : Easel) (one : Bool) (x : BitVec 40 × Bool) : (e.setAcc one x).ptr = e.ptr := by rw [Easel.setAcc_eq]

theorem Easel.x_setAcc (e : Easel) (one : Bool) (x : BitVec 40 × Bool) : (e.setAcc one x).x = e.x := by rw [Easel.setAcc_eq]

theorem Easel.y_setAcc (e : Easel) (one : Bool) (x : BitVec 40 × Bool) : (e.setAcc one x).y = e.y := by rw [Easel.setAcc_eq]

theorem insnField_lt (w : Word) (lo n : Nat) : insnField w lo n < 2 ^ n := Nat.mod_lt _ (by positivity)

/-- Both loads read and advance their pointers as the core before had them. -/
theorem Easel.macld_eq {e : Easel} {w : Word} (x : BitVec 40 × Bool) (hx : insnField w 5 4 ≠ 15) (hy : insnField w 1 4 ≠ 15) :
    e.macld w x = ((((e.setAcc (w.getLsbD 25) x).put (8 + insnField w 5 4)
        (BitVec.ofNat 16 (Mem.read e.x (e.p (insnField w 13 2)).toNat 2))).setP (insnField w 13 2)
        (e.advance (insnField w 13 2) (if w.getLsbD 10 then -2 else 2))).put (8 + insnField w 1 4)
        (BitVec.ofNat 16 (Mem.read e.y (e.p (4 + insnField w 11 2)).toNat 2))).setP (4 + insnField w 11 2)
        (e.advance (4 + insnField w 11 2) (if w.getLsbD 9 then -2 else 2)) := by
  have hxp := insnField_lt w 13 2
  have hp (n : Nat) : (e.setAcc (w.getLsbD 25) x).p n = e.p n := congrArg (SMap.get 0 · n) (e.ptr_setAcc _ x)
  have hadv (n : Nat) (m : Int) : (e.setAcc (w.getLsbD 25) x).advance n m = e.advance n m :=
    Easel.advance_congr (hp n) (congrArg (SMap.get 0 · (8 + n)) (e.ptr_setAcc _ x)) (congrArg (SMap.get 0 · (16 + n)) (e.ptr_setAcc _ x)) m
  have hp' (r : Nat) (v a : BitVec 16) : (((e.setAcc (w.getLsbD 25) x).put r v).setP (insnField w 13 2) a).p (4 + insnField w 11 2) =
      e.p (4 + insnField w 11 2) := (Easel.p_setP_ne _ _ (by omega)).trans (hp _)
  have hadv' (r : Nat) (v a : BitVec 16) (m : Int) : (((e.setAcc (w.getLsbD 25) x).put r v).setP (insnField w 13 2) a).advance
      (4 + insnField w 11 2) m = e.advance (4 + insnField w 11 2) m :=
    (Easel.advance_of_ptr (e := (e.setAcc (w.getLsbD 25) x).put r v) rfl (by omega) (by omega) m).trans (hadv _ m)
  unfold Easel.macld
  rw [macLoad_of_load hx, macLoad_of_load hy, hp, hadv, hp', hadv']

theorem runMacld_of_loads {rg : Rg} {k : CoreNo} {s : State} {w : Word} (hmop : insnField w 23 2 = 1)
    (hne : insnField w 5 4 ≠ insnField w 1 4) (hx : ((s.eas rg k).p (insnField w 13 2)).getLsbD 0 = false)
    (hy : ((s.eas rg k).p (4 + insnField w 11 2)).getLsbD 0 = false) :
    runMacld rg k s w = .done (s.setEas rg k ((s.eas rg k).macld w (accMul 1 ((s.eas rg k).acc (w.getLsbD 25))
      ((s.eas rg k).get (8 + insnField w 19 4)) ((s.eas rg k).get (8 + insnField w 15 4))))) none := by
  have heven : ¬ ((insnField w 5 4 ≠ 15 ∧ ((s.eas rg k).p (insnField w 13 2)).getLsbD 0 = true) ∨
      (insnField w 1 4 ≠ 15 ∧ ((s.eas rg k).p (4 + insnField w 11 2)).getLsbD 0 = true)) := by
    rw [hx, hy]
    simp
  have hdiff : ¬ (insnField w 5 4 = insnField w 1 4 ∧ insnField w 5 4 ≠ 15) := fun h => hne h.1
  unfold runMacld
  rw [hmop]
  exact (if_neg heven).trans (if_neg hdiff)

/-! ### EXT -/

theorem extract16_plain (a : BitVec 40) {n : Nat} (h : n ≤ 24) : extract16 a n false = (bitsAt (a.sshiftRight n) 0 16, false) := by
  simp [extract16, Nat.min_eq_left h]

theorem extract16_above {a : BitVec 40} {n : Nat} (h : n ≤ 24) (ha : 32767 * 2 ^ n < a.toInt) : extract16 a n true = (0x7FFF, true) := by
  rw [extract16, Nat.min_eq_left h]
  simp [ha]

theorem doExt_eq {e : Easel} {w : Word} {v : BitVec 16} {ovf : Bool}
    (h : extract16 (e.acc (w.getLsbD 20)) (insnField w 15 5) (w.getLsbD 14) = (v, ovf)) :
    doExt e w = if ovf then (e.put (insnRd w) v).setV else e.put (insnRd w) v := by
  rw [doExt, h]

/-- Settles O19: the exact results of `accMul`, `accFn` and `extract16` in the accumulator, the register and V. -/
theorem accumulatorInstructions : Obligations.AccumulatorInstructions := by
  unfold Obligations.AccumulatorInstructions
  refine ⟨fun rg k s hat hmop => ⟨_, rfl, ?mpy⟩, fun rg k s hat hmop => ⟨_, rfl, ?mac⟩, fun rg k s hat hmop => ⟨_, rfl, ?msu⟩,
    fun rg k s hat hmop ⟨hx, hy, hne⟩ hxp hyp => ⟨_, rfl, ?macld⟩, fun rg k s hat hfn => ⟨_, rfl, ?add⟩,
    fun rg k s hat hfn => ⟨_, rfl, ?clear⟩, fun rg k s hat hsat hsh => ⟨_, rfl, ?ext⟩, fun rg k s hat hsat hsh hbig => ⟨_, rfl, ?sat⟩⟩
  case mpy =>
    obtain ⟨hacc, hsr, hr, honly⟩ := easStep_setAcc hat rfl (runMul_of_mop hmop (by decide))
    have hv : (accMul 0 ((s.eas rg k).acc ((coreWord s rg k).getLsbD 25)) (coreA s rg k) (coreB s rg k)).2 = false := accOf_product _ _
    rw [hv, if_neg Bool.false_ne_true] at hsr
    exact ⟨hacc, hsr, hr, honly⟩
  case mac =>
    obtain ⟨hacc, hsr, hr, honly⟩ := easStep_setAcc hat rfl (runMul_of_mop hmop (by decide))
    refine ⟨hacc, ?_, hr, honly⟩
    rw [hsr, v_ifV]
    exact congrArg _ (accOf_overflow _)
  case msu =>
    obtain ⟨hacc, hsr, hr, honly⟩ := easStep_setAcc hat rfl (runMul_of_mop hmop (by decide))
    refine ⟨hacc, ?_, honly⟩
    rw [hsr, v_ifV]
    exact congrArg _ (accOf_overflow _)
  case add =>
    have hdo : doAcc (s.eas rg k) (coreWord s rg k) = (s.eas rg k).setAcc ((coreWord s rg k).getLsbD 25)
        (accOf (((s.eas rg k).acc ((coreWord s rg k).getLsbD 25)).toInt + ((s.eas rg k).acc (!(coreWord s rg k).getLsbD 25)).toInt)) := by
      rw [doAcc, hfn]
      rfl
    obtain ⟨hacc, hsr, hr, honly⟩ := easStep_setAcc hat rfl (onCore_done hdo)
    refine ⟨hacc, ?_, hr, honly⟩
    rw [hsr, v_ifV]
    exact congrArg _ (accOf_overflow _)
  case clear =>
    have hdo : doAcc (s.eas rg k) (coreWord s rg k) = (s.eas rg k).setAcc ((coreWord s rg k).getLsbD 25) (0, false) := by
      rw [doAcc, hfn]
      rfl
    obtain ⟨hacc, hsr, -, honly⟩ := easStep_setAcc hat rfl (onCore_done hdo)
    exact ⟨hacc, hsr, honly⟩
  case ext =>
    have hdo := doExt_eq ((congrArg (extract16 _ _) hsat).trans (extract16_plain ((s.eas rg k).acc ((coreWord s rg k).getLsbD 20)) hsh))
    rw [if_neg Bool.false_ne_true] at hdo
    obtain ⟨hstep, honly, -⟩ := easStep_keepsFlow hat rfl (onCore_done hdo) ⟨rfl, rfl, rfl, rfl, rfl, rfl⟩
    exact ⟨regBecomes_of_step hstep (insnRd_lt _) rfl rfl, hstep.sr, honly⟩
  case sat =>
    have hdo := doExt_eq ((congrArg (extract16 _ _) hsat).trans (extract16_above hsh hbig))
    rw [if_pos rfl] at hdo
    obtain ⟨hstep, honly, -⟩ := easStep_keepsFlow hat rfl (onCore_done hdo)
      ⟨rfl, rfl, rfl, rfl, rfl, getLsbD_setBit_ne _ _ (by decide)⟩
    exact ⟨regBecomes_of_step hstep (insnRd_lt _) rfl rfl, (congrArg (·.getLsbD 3) hstep.sr).trans (getLsbD_setBit_same _ _ (by decide)),
      honly⟩
  case macld =>
    obtain ⟨hstep, honly, -⟩ := easStep_keepsFlow hat rfl (runMacld_of_loads hmop hne hxp hyp) (Easel.keepsFlow_macld _ _ _)
    rw [Easel.macld_eq _ hx hy] at hstep
    have h13 := insnField_lt (coreWord s rg k) 13 2
    have h5 := insnField_lt (coreWord s rg k) 5 4
    have h1 := insnField_lt (coreWord s rg k) 1 4
    refine ⟨(hstep.acc _).trans (Easel.acc_setAcc _ _ _), (hstep.get _).trans ?_, (hstep.get _).trans (Easel.get_put_same _ _ _),
      (hstep.p _).trans ((Easel.p_setP_ne _ _ (by omega)).trans (Easel.p_setP_same _ _ _)), (hstep.p _).trans (Easel.p_setP_same _ _ _),
      hstep.x.trans ?_, hstep.y.trans ?_, honly⟩
    · exact (Easel.get_put_ne _ _ (by omega) (by omega) (by omega)).trans (Easel.get_put_same _ _ _)
    · exact Easel.x_setAcc _ _ _
    · exact Easel.y_setAcc _ _ _

end Sys2Proof.Machine
end

section
/-! PROOFS. The control flow of an easel core: branches, calls, loops, waits, the release of the fix, interrupts (R331, R340–R347). -/

namespace Sys2Proof.Machine

/-! ### A cycle that begins leaves the cores alone -/

theorem Region.easels_startClusters (r : Region) : r.startClusters.easels = r.easels := by
  unfold Region.startClusters
  generalize allClusters = l
  induction l generalizing r with
  | nil => rfl
  | cons c l ih => exact (ih _).trans rfl

theorem Region.reg_startClusters {r : Region} {a : Nat} (h : 0xE000 ≤ a) : r.startClusters.reg a = r.reg a := by
  unfold Region.startClusters
  generalize allClusters = l
  induction l generalizing r with
  | nil => rfl
  | cons c l ih =>
    have hc := c.isLt
    refine (ih ..).trans ?_
    exact Region.reg_setReg_ne _ _ (by dsimp only; omega)

theorem Region.eas_begins (r : Region) (k : CoreNo) : r.begins.eas k = r.eas k := by
  have hstart := r.easels_startClusters
  unfold Region.begins
  generalize r.startClusters = r' at hstart ⊢
  exact congrArg (fun m : SMap Easel => SMap.get ({} : Easel) m k.val) hstart

theorem Region.reg_begins {r : Region} {a : Nat} (h : 0xE000 ≤ a) : r.begins.reg a = r.reg a := by
  have hstart := Region.reg_startClusters (r := r) h
  unfold Region.begins
  generalize r.startClusters = r' at hstart ⊢
  exact (Region.reg_setReg_ne r' _ (show a ≠ 0x1004 by omega)).trans hstart

/-- Where the region begins its next cycle, its cores and their registers stay as they are. -/
theorem tryBegin_cores (s : State) (rg : Rg) : OnlyRegion rg s (tryBegin s rg) ∧ (∀ k, (tryBegin s rg).eas rg k = s.eas rg k) ∧
    ∀ f : Fld, 0xE000 ≤ f.off → (tryBegin s rg).rf rg f = s.rf rg f := by
  unfold tryBegin
  dsimp only
  split
  · refine ⟨(OnlyRegion.refl rg s).onRgn _, fun k => ?_, fun f hf => ?_⟩
    · rw [State.eas, State.rgn_onRgn_same]
      exact Region.eas_begins _ k
    · rw [State.rf_onRgn_same]
      exact congrArg f.of (Region.reg_begins hf)
  · exact ⟨OnlyRegion.refl rg s, fun _ => rfl, fun _ _ => rfl⟩

/-! ### The flow of a core -/

theorem Easel.KeepsFlow.refl (e : Easel) : e.KeepsFlow e := ⟨rfl, rfl, rfl, rfl, rfl, rfl⟩

section
variable {s t : State} {rg : Rg} {k : CoreNo} {op : Nat} {f : State → Word → Did} {next : Option (BitVec 15)} {e : Easel}

/-- An instruction that keeps the loops of the core and goes to `next`. -/
theorem easStep_goes (hat : CoreAt s rg k op) (hop : isOpcode op = true) (hf : f s (coreWord s rg k) = .done t next)
    (hcore : t.eas rg k = e) (hkeeps : (s.eas rg k).KeepsFlow e) :
    CoreIs (easStep s rg k op f) rg k
        { e with pc := next.getD ((s.eas rg k).pc + 1), dbg := { (s.eas rg k).dbg with pass := none } } ∧
      OnlyCore rg k t (easStep s rg k op f) := by
  obtain ⟨his, honly, -⟩ := easStep_done hat hop hf (by rw [hcore]; exact hkeeps.ends hat)
  rw [hcore, Easel.completed_of_keepsFlow hkeeps hat] at his
  exact ⟨his, honly⟩

theorem getD_ite (b : Bool) (x y : BitVec 15) : (if b then some x else none).getD y = if b then x else y := by cases b <;> rfl

end

/-! ### Loops -/

theorem Easel.levelAt_of_ends {e : Easel} {pc : BitVec 15} (h0 : ∀ l, e.l0 = some l → l.stop ≠ pc) (h1 : e.l1 = none) :
    e.levelAt pc = none := by
  unfold Easel.levelAt
  rw [h1]
  cases hl : e.l0 with
  | none => rfl
  | some l => simp [h0 l hl]

/-- The count of a LOOP. -/
def loopCount (e : Easel) (w : Word) : BitVec 16 :=
  if w.getLsbD 25 then e.get (insnField w 20 5) else BitVec.ofNat 16 (insnField w 16 9)

section
variable {s : State} {rg : Rg} {k : CoreNo} {w : Word}

theorem runLoop_first (hbelow : (s.eas rg k).pc.toNat < (insnTarget w).toNat) (h0 : (s.eas rg k).l0 = none) (h1 : (s.eas rg k).l1 = none)
    (hcount : loopCount (s.eas rg k) w ≠ 0) :
    runLoop rg k s w = .done (s.setEas rg k { s.eas rg k with
      l0 := some ⟨(s.eas rg k).pc + 1, insnTarget w, w.getLsbD 15, (s.eas rg k).ie⟩, lc0 := loopCount (s.eas rg k) w }) none := by
  have hno : ¬ (insnTarget w).toNat ≤ (s.eas rg k).pc.toNat := by omega
  rw [loopCount] at hcount ⊢
  simp only [runLoop, h0, h1, hno, hcount]
  rfl

theorem runLoop_skips (hbelow : (s.eas rg k).pc.toNat < (insnTarget w).toNat) (h0 : (s.eas rg k).l0 = none) (h1 : (s.eas rg k).l1 = none)
    (hcount : loopCount (s.eas rg k) w = 0) : runLoop rg k s w = .done s (some (insnTarget w + 1)) := by
  have hno : ¬ (insnTarget w).toNat ≤ (s.eas rg k).pc.toNat := by omega
  rw [loopCount] at hcount
  simp only [runLoop, h0, h1, hno, hcount]
  rfl

end

/-! ### Interrupts (R344) -/

theorem pend_of_fix {e : Easel} (hfix : e.pendFix = true) (hien : e.ien.getLsbD 0 = true) : (e.pend &&& e.ien).getLsbD 0 = true := by
  have hpend : e.pend.getLsbD 0 = true := by
    simp only [Easel.pend, hfix, BitVec.getLsbD_ofNat, Nat.testBit_eq_decide_div_mod_eq]
    simp
    omega
  rw [BitVec.getLsbD_and, hpend, hien]
  rfl

theorem takeInterrupt_fix {s : State} {rg : Rg} {k : CoreNo} (hfetched : (s.eas rg k).fetched = none) (hfix : (s.eas rg k).pendFix = true)
    (hien : (s.eas rg k).ien.getLsbD 0 = true) (hie : (s.eas rg k).ie = true) :
    takeInterrupt s rg k = s.setEas rg k { (s.eas rg k).toVector 4 with pendFix := false } := by
  have hbit := pend_of_fix hfix hien
  have hne : ¬ ((s.eas rg k).pend &&& (s.eas rg k).ien = 0) := fun h => by rw [h] at hbit; exact Bool.noConfusion hbit
  have hon : ¬ ((s.eas rg k).pend &&& (s.eas rg k).ien = 0 ∨ ¬ (s.eas rg k).ie = true ∨ (s.eas rg k).fetched.isSome = true) := by
    rintro (h | h | h)
    · exact hne h
    · exact h hie
    · rw [hfetched] at h
      exact Bool.noConfusion h
  exact congrArg (s.setEas rg k) ((if_neg hon).trans (if_pos hbit))

theorem serveInterrupt_fix {s : State} {rg : Rg} {k : CoreNo} (hstate : s.rf rg (F.EAS_STATUS_STATE k.val) = 1)
    (hhalt : s.rf rg (F.EAS_STATUS_HALTED k.val) = 0) (hclock : s.clocked rg = true) (hlogic : s.logicStep rg = false)
    (hstep : (s.eas rg k).dbg.stepping = false) (hbit : ((s.eas rg k).pend &&& (s.eas rg k).ien).getLsbD 0 = true) :
    serveInterrupt s rg k = takeInterrupt s rg k := by
  have hne : ¬ ((s.eas rg k).pend &&& (s.eas rg k).ien = 0) := fun h => by rw [h] at hbit; exact Bool.noConfusion hbit
  simp only [serveInterrupt, State.rbit, hne, hstate, hhalt, hclock, hlogic, hstep]
  rfl

theorem releaseFix_holding {s : State} {rg : Rg} {k : CoreNo} (hhold : s.rf rg (F.EAS_STATUS_HOLDING k.val) = 1)
    (hlate : (s.eas rg k).late = false) :
    releaseFix s rg k = (s.setEas rg k { s.eas rg k with pendFix := false }).setRf rg (F.EAS_STATUS_HOLDING k.val) 0 := by
  simp only [releaseFix, State.rbit, hhold, hlate]
  rfl

section
variable {t : State} {rg : Rg} {k : CoreNo} {e : Easel}

theorem CoreIs.r (h : CoreIs t rg k e) : (t.eas rg k).r = e.r := by rw [h]
theorem CoreIs.rb (h : CoreIs t rg k e) : (t.eas rg k).rb = e.rb := by rw [h]
theorem CoreIs.pc (h : CoreIs t rg k e) : (t.eas rg k).pc = e.pc := by rw [h]
theorem CoreIs.sr (h : CoreIs t rg k e) : (t.eas rg k).sr = e.sr := by rw [h]
theorem CoreIs.l0 (h : CoreIs t rg k e) : (t.eas rg k).l0 = e.l0 := by rw [h]
theorem CoreIs.l1 (h : CoreIs t rg k e) : (t.eas rg k).l1 = e.l1 := by rw [h]
theorem CoreIs.lc0 (h : CoreIs t rg k e) : (t.eas rg k).lc0 = e.lc0 := by rw [h]
theorem CoreIs.pendFix (h : CoreIs t rg k e) : (t.eas rg k).pendFix = e.pendFix := by rw [h]

end

/-! ### Traps (R345, R346) -/

theorem Region.dropRequest_eq (r : Region) (q : Nat) : r.dropRequest q = { r with regs := (r.dropRequest q).regs } := by
  unfold Region.dropRequest
  dsimp only
  split <;> rfl

theorem releasePort_rgn (s : State) (rg : Rg) (k : CoreNo) :
    (releasePort s rg k).rgn rg = ((s.rgn rg).setEas k { s.eas rg k with grant := 0 }).dropRequest k.val :=
  State.rgn_onRgn_same s rg _

theorem releasePort_eas (s : State) (rg : Rg) (k : CoreNo) : (releasePort s rg k).eas rg k = { s.eas rg k with grant := 0 } := by
  rw [State.eas, releasePort_rgn, Region.dropRequest_eq]
  exact Region.eas_setEas_same (s.rgn rg) k _

theorem releasePort_stores (s : State) (rg : Rg) (k : CoreNo) : SameStores (s.rgn rg) ((releasePort s rg k).rgn rg) := by
  rw [releasePort_rgn, Region.dropRequest_eq]
  exact ⟨rfl, rfl, rfl, rfl, rfl, rfl, rfl, rfl⟩

/-- The core at the trap's vector. -/
def Easel.trapped (e : Easel) : Easel := { { e with grant := 0 }.toVector 2 with dbg := { e.dbg with pass := none } }

/-- The state in which the core has left for the trap's vector. -/
def trapState (s : State) (rg : Rg) (k : CoreNo) (c : Nat) : State :=
  ((releasePort s rg k).setRf rg (F.EAS_STATUS_CAUSE k.val) c).setEas rg k (s.eas rg k).trapped

theorem takeTrap_eq {s : State} {rg : Rg} {k : CoreNo} (h : (s.eas rg k).dbg.trapHalt = false) (c : Nat) :
    takeTrap s rg k c = if (s.eas rg k).ie then boundary (trapState s rg k c) rg k
      else (((trapState s rg k c).setRf rg (F.EAS_STATUS_STATE k.val) 3).setRf rg (F.EAS_STATUS_DOUBLE k.val) 1).ibi 0x0B (locOf rg) k.val := by
  have hno : ¬ (s.eas rg k).dbg.trapHalt = true := by rw [h]; exact Bool.false_ne_true
  have heas : ((releasePort s rg k).setRf rg (F.EAS_STATUS_CAUSE k.val) c).eas rg k = { s.eas rg k with grant := 0 } := by
    rw [State.setRf, State.eas, State.rgn_onRgn_same]
    exact releasePort_eas s rg k
  refine (if_neg hno).trans ?_
  dsimp only
  rw [heas]
  rfl

theorem trapState_core (s : State) (rg : Rg) (k : CoreNo) (c : Nat) : (trapState s rg k c).eas rg k = (s.eas rg k).trapped :=
  State.eas_setEas_same _ rg k _

theorem trapState_rf (s : State) (rg : Rg) (k : CoreNo) (c : Nat) (f : Fld) :
    (trapState s rg k c).rf rg f = ((releasePort s rg k).setRf rg (F.EAS_STATUS_CAUSE k.val) c).rf rg f :=
  State.rf_onRgn_same _ _ _ _

theorem trapState_frame (s : State) (rg : Rg) (k : CoreNo) (c : Nat) :
    OnlyRegion rg s (trapState s rg k c) ∧ SameStores (s.rgn rg) ((trapState s rg k c).rgn rg) := by
  have honly : OnlyRegion rg s (releasePort s rg k) := (OnlyRegion.refl rg s).onRgn _
  refine ⟨(honly.setRf (F.EAS_STATUS_CAUSE k.val) c).onRgn (fun r => r.setEas k (s.eas rg k).trapped), ?_⟩
  have hrgn : (trapState s rg k c).rgn rg = (((releasePort s rg k).rgn rg).setF (F.EAS_STATUS_CAUSE k.val) c).setEas k (s.eas rg k).trapped := by
    rw [trapState, State.setEas, State.rgn_onRgn_same, State.setRf, State.rgn_onRgn_same]
  rw [hrgn]
  exact releasePort_stores s rg k

theorem Easel.ie_trapped (e : Easel) : e.trapped.ie = false := getLsbD_setBit_same _ _ (by decide)

/-- A trap that the debug port does not take and the core may take. -/
theorem takeTrap_traps {s : State} {rg : Rg} {k : CoreNo} {c : Nat} (htrap : (s.eas rg k).dbg.trapHalt = false)
    (hie : (s.eas rg k).ie = true) (hstep : (s.eas rg k).dbg.stepping = false) (hreq : (s.eas rg k).dbg.haltReq = false) (hc : c < 16) :
    Traps s (takeTrap s rg k c) rg k c := by
  have hcore := trapState_core s rg k c
  have hquiet : boundary (trapState s rg k c) rg k = trapState s rg k c :=
    boundary_of_quiet (by rw [hcore]; exact hstep) (by rw [hcore]; exact hreq)
  obtain ⟨honly, hstores⟩ := trapState_frame s rg k c
  rw [takeTrap_eq htrap, if_pos hie, hquiet]
  refine ⟨?_, congrArg Easel.epc hcore, congrArg Easel.pc hcore, (congrArg Easel.ie hcore).trans (Easel.ie_trapped _),
    by rw [hcore]; rfl, by rw [hcore]; rfl, by rw [hcore]; rfl, hstores, honly⟩
  rw [trapState_rf]
  simp
  omega

theorem easStep_of_trap {s t : State} {rg : Rg} {k : CoreNo} {op : Nat} {f : State → Word → Did} {c : Nat} (hat : CoreAt s rg k op)
    (hop : isOpcode op = true) (hf : f s (coreWord s rg k) = .trap t c) : easStep s rg k op f = takeTrap t rg k c := by
  obtain ⟨hruns, hpc, hword, hend, -⟩ := hat
  have hbelow : ¬ 0x6000 ≤ (s.eas rg k).pc.toNat := by omega
  simp [easStep, hruns, hbelow, hword, hop, hend, hf]

theorem easStep_of_stop {s t : State} {rg : Rg} {k : CoreNo} {op : Nat} {f : State → Word → Did} (hat : CoreAt s rg k op)
    (hop : isOpcode op = true) (hf : f s (coreWord s rg k) = .stop t) : easStep s rg k op f = t := by
  obtain ⟨hruns, hpc, hword, hend, -⟩ := hat
  have hbelow : ¬ 0x6000 ≤ (s.eas rg k).pc.toNat := by omega
  simp [easStep, hruns, hbelow, hword, hop, hend, hf]

theorem traps_of_coreAt {s : State} {rg : Rg} {k : CoreNo} {op c : Nat} {f : State → Word → Did} (hat : CoreAt s rg k op)
    (hop : isOpcode op = true) (hf : f s (coreWord s rg k) = .trap s c) (htrap : (s.eas rg k).dbg.trapHalt = false)
    (hie : (s.eas rg k).ie = true) (hc : c < 16) : Traps s (easStep s rg k op f) rg k c := by
  obtain ⟨-, -, -, -, -, hstep, hreq⟩ := id hat
  rw [easStep_of_trap hat hop hf]
  exact takeTrap_traps htrap hie hstep hreq hc

/-! ### The instructions -/

theorem agedWrites_of_coreAt {s : State} {rg : Rg} {k : CoreNo} {op : Nat} (hat : CoreAt s rg k op) :
    agedWrites (s.eas rg k).lateW = (s.eas rg k).lateW := by
  obtain ⟨-, -, -, -, hlate, -⟩ := hat
  rw [hlate]
  rfl

theorem reti_core {s : State} {rg : Rg} {k : CoreNo} (hat : CoreAt s rg k 0x23) :
    CoreIs (easStep s rg k 0x23 (runReti rg k)) rg k
        { s.eas rg k with sr := setBit (s.eas rg k).sr 7 true, pc := (s.eas rg k).epc, dbg := { (s.eas rg k).dbg with pass := none } } ∧
      OnlyCore rg k s (easStep s rg k 0x23 (runReti rg k)) := by
  have hcore : (s.onEas rg k (fun e => e.setIe true)).eas rg k = (s.eas rg k).setIe true := State.eas_onEas_same s rg k _
  have haged := agedWrites_of_coreAt hat
  obtain ⟨-, -, -, hend, hlate, hstep, hreq⟩ := id hat
  have hends : ((s.eas rg k).setIe true).Ends (s.eas rg k).ie := by
    refine ⟨fun h => ?_, fun w hw => ?_, hstep, hreq⟩
    · have hlevel : ((s.eas rg k).setIe true).levelAt (s.eas rg k).pc = (s.eas rg k).levelAt (s.eas rg k).pc := by
        unfold Easel.levelAt
        rw [h]
        rfl
      exact hlevel.trans hend
    · rw [show ((s.eas rg k).setIe true).lateW = [] from hlate] at hw
      exact absurd hw List.not_mem_nil
  obtain ⟨his, honly, -⟩ := easStep_done (f := runReti rg k) hat rfl rfl (by rw [hcore]; exact hends)
  rw [hcore, Easel.completed, show agedWrites ((s.eas rg k).setIe true).lateW = (s.eas rg k).lateW from haged] at his
  exact ⟨his, (onlyCore_setEas s rg k _).trans honly⟩

theorem loop_core {s : State} {rg : Rg} {k : CoreNo} (hat : CoreAt s rg k 0x24)
    (hbelow : (s.eas rg k).pc.toNat < (insnTarget (coreWord s rg k)).toNat) (h0 : (s.eas rg k).l0 = none) (h1 : (s.eas rg k).l1 = none)
    (hcount : loopCount (s.eas rg k) (coreWord s rg k) ≠ 0) :
    CoreIs (easStep s rg k 0x24 (runLoop rg k)) rg k { s.eas rg k with
        l0 := some ⟨(s.eas rg k).pc + 1, insnTarget (coreWord s rg k), (coreWord s rg k).getLsbD 15, (s.eas rg k).ie⟩,
        lc0 := loopCount (s.eas rg k) (coreWord s rg k), pc := (s.eas rg k).pc + 1, dbg := { (s.eas rg k).dbg with pass := none } } ∧
      OnlyCore rg k s (easStep s rg k 0x24 (runLoop rg k)) := by
  have haged := agedWrites_of_coreAt hat
  obtain ⟨-, -, -, -, hlate, hstep, hreq⟩ := id hat
  have hstop : insnTarget (coreWord s rg k) ≠ (s.eas rg k).pc := fun h => by rw [h] at hbelow; omega
  obtain ⟨his, honly, -⟩ := easStep_done hat rfl (runLoop_first hbelow h0 h1 hcount) (by
    rw [State.eas_setEas_same]
    refine ⟨fun _ => Easel.levelAt_of_ends (fun l hl => ?_) h1, fun w hw => ?_, hstep, hreq⟩
    · obtain rfl := Option.some.inj hl
      exact hstop
    · rw [show (s.eas rg k).lateW = [] from hlate] at hw
      exact absurd hw List.not_mem_nil)
  rw [State.eas_setEas_same, Easel.completed] at his
  dsimp only at his
  rw [haged] at his
  exact ⟨his, (onlyCore_setEas s rg k _).trans honly⟩

/-- Settles O21: each instruction by what it makes of the core and where it goes; RELFIX and WAIT also by the region's registers. -/
theorem easelFlow : Obligations.EaselFlow := by
  unfold Obligations.EaselFlow
  refine ⟨fun rg k s hat => ⟨_, rfl, ?br⟩, fun rg k s hat htaken => ⟨_, rfl, ?call⟩, fun rg k s hat htaken => ⟨_, rfl, ?notCall⟩,
    fun rg k s hat => ⟨_, rfl, ?ret⟩, fun rg k s hat => ⟨_, rfl, ?reti⟩, fun rg k s hat hbelow h0 h1 hcount => ⟨_, rfl, ?loop⟩,
    fun rg k s hat hbelow h0 h1 hcount => ⟨_, rfl, ?skip⟩, fun rg k s hat hhold hlate => ⟨_, rfl, ?relfix⟩,
    fun rg k s hat hpend => ⟨_, rfl, ?wait⟩, fun rg k s hat hpend => ⟨_, rfl, ?waitPending⟩, fun rg k s hat => ⟨_, rfl, ?kick⟩,
    fun rg k s hat ⟨hatt, htrap⟩ hie => ⟨_, rfl, ?brk⟩,
    fun rg k s ⟨hstate, hhalt, hclock, hlogic⟩ ⟨hfetched, hfix, hien, hie⟩ hstep => ⟨_, rfl, ?interrupt⟩⟩
  case br =>
    obtain ⟨his, honly⟩ := easStep_goes (f := runBr rg k) hat rfl rfl rfl (Easel.KeepsFlow.refl _)
    rw [getD_ite] at his
    exact ⟨his, honly⟩
  case call =>
    have hf : runCall rg k s (coreWord s rg k) = .done (s.onEas rg k (fun e => { e with lr := e.pc + 1 })) (some (insnTarget (coreWord s rg k))) :=
      if_pos htaken
    obtain ⟨his, honly⟩ := easStep_goes hat rfl hf (State.eas_onEas_same s rg k _) ⟨rfl, rfl, rfl, rfl, rfl, rfl⟩
    exact ⟨his, (onlyCore_setEas s rg k _).trans honly⟩
  case notCall =>
    have hf : runCall rg k s (coreWord s rg k) = .done s none := if_neg (by rw [htaken]; exact Bool.false_ne_true)
    exact easStep_goes hat rfl hf rfl (Easel.KeepsFlow.refl _)
  case ret =>
    obtain ⟨his, honly⟩ := easStep_goes (f := runRet rg k) hat rfl rfl rfl (Easel.KeepsFlow.refl _)
    rw [getD_ite] at his
    exact ⟨his, honly⟩
  case reti =>
    obtain ⟨his, honly⟩ := reti_core hat
    exact ⟨his.pc, (congrArg (·.getLsbD 7) his.sr).trans (getLsbD_setBit_same _ _ (by decide)), by rw [his.sr]; exact his, honly⟩
  case loop =>
    obtain ⟨his, honly⟩ := loop_core hat hbelow h0 h1 hcount
    exact ⟨his.l0, his.lc0, his.pc, his.r, honly⟩
  case skip =>
    obtain ⟨his, honly⟩ := easStep_goes hat rfl (runLoop_skips hbelow h0 h1 hcount) rfl (Easel.KeepsFlow.refl _)
    exact ⟨his.pc, his.l0.trans h0, his.l1.trans h1, his.rb, honly⟩
  case relfix =>
    have hrel := releaseFix_holding hhold hlate
    have hcore : ((s.setEas rg k { s.eas rg k with pendFix := false }).setRf rg (F.EAS_STATUS_HOLDING k.val) 0).eas rg k =
        { s.eas rg k with pendFix := false } := by
      rw [State.setRf, State.eas, State.rgn_onRgn_same]
      exact State.eas_setEas_same s rg k _
    obtain ⟨his, honly⟩ := easStep_goes (f := runRelfix rg k) (e := { s.eas rg k with pendFix := false }) hat rfl
      (congrArg (Did.done · none) hrel) hcore ⟨rfl, rfl, rfl, rfl, rfl, rfl⟩
    obtain ⟨hbegin, hcores, hregs⟩ := tryBegin_cores (easStep s rg k 0x25 (runRelfix rg k)) rg
    have hk := k.isLt
    refine ⟨?_, ?_, ?_, ((((OnlyRegion.refl rg s).onRgn _).setRf _ _).drawn.trans honly.1).trans hbegin.drawn⟩
    · rw [hregs _ (by dsimp only; omega), honly.rf (by dsimp only; omega) (by dsimp only; omega)]
      simp
    · exact (congrArg Easel.pendFix (hcores k)).trans his.pendFix
    · exact (congrArg Easel.pc (hcores k)).trans his.pc
  case wait =>
    have hf : runWait rg k s (coreWord s rg k) = .stop ((s.setEas rg k { s.eas rg k with haz := {}, patchOld := [] }).setRf rg
        (F.EAS_STATUS_STATE k.val) 2) := if_neg (not_not.mpr hpend)
    rw [easStep_of_stop hat rfl hf]
    refine ⟨by simp, ?_, ((OnlyRegion.refl rg s).onRgn _).setRf _ _⟩
    have hcore : ((s.setEas rg k { s.eas rg k with haz := {}, patchOld := [] }).setRf rg (F.EAS_STATUS_STATE k.val) 2).eas rg k =
        { s.eas rg k with haz := {}, patchOld := [] } := by
      rw [State.setRf, State.eas, State.rgn_onRgn_same]
      exact State.eas_setEas_same s rg k _
    rw [hcore]
  case waitPending =>
    have hf : runWait rg k s (coreWord s rg k) = .done s none := if_pos hpend
    exact easStep_goes hat rfl hf rfl (Easel.KeepsFlow.refl _)
  case kick =>
    have hcore : (s.onRgn rg (fun r => r.reloadDog k)).eas rg k = s.eas rg k := by
      rw [State.eas, State.rgn_onRgn_same]
      rfl
    obtain ⟨his, honly⟩ := easStep_goes (f := runKick rg k) hat rfl rfl hcore (Easel.KeepsFlow.refl _)
    refine ⟨?_, his, ((OnlyRegion.refl rg s).onRgn _).drawn.trans honly.1⟩
    have hk := k.isLt
    rw [honly.rf (by dsimp only; omega) (by dsimp only; omega), State.rf_onRgn_same]
    have hlt := State.rf_lt s rg (F.EAS_WDOG_LIMIT k.val)
    exact (Region.f_setF_eq _ _ _ (by simp)).trans (Nat.mod_eq_of_lt hlt)
  case brk =>
    have hf : runBrk rg k s (coreWord s rg k) = .trap s 10 := if_neg (by rw [hatt]; exact Bool.false_ne_true)
    exact traps_of_coreAt hat rfl hf htrap hie (by decide)
  case interrupt =>
    have htake := takeInterrupt_fix hfetched hfix hien hie
    have hserve := (serveInterrupt_fix hstate hhalt hclock hlogic hstep (pend_of_fix hfix hien)).trans htake
    have hcore : (serveInterrupt s rg k).eas rg k = { (s.eas rg k).toVector 4 with pendFix := false } := by
      rw [hserve, State.eas_setEas_same]
    refine ⟨?_, ?_, by rw [hserve]; exact onlyCore_setEas s rg k _⟩
    · have hkeep : (s.eas rg k).toVector 4 = { (s.eas rg k).toVector 4 with fetched := (s.eas rg k).fetched } := by
        rw [hfetched]
        rfl
      rw [hcore, hkeep]
      rfl
    · rw [hcore]
      exact getLsbD_setBit_same _ _ (by decide)

end Sys2Proof.Machine
end

section
/-! PROOFS. Traps of an easel core (R331, R335, R345, R346). -/

namespace Sys2Proof.Machine

section
variable {s : State} {rg : Rg} {k : CoreNo}

theorem easStep_reserved (hruns : s.coreRuns rg k = true) (hpc : (s.eas rg k).pc.toNat < 0x6000)
    (hop : isOpcode (insnOp (coreWord s rg k)) = false) (op : Nat) (f : State → Word → Did) : easStep s rg k op f = takeTrap s rg k 1 := by
  have hbelow : ¬ 0x6000 ≤ (s.eas rg k).pc.toNat := by omega
  simp [easStep, hruns, hbelow, hop]

theorem easStep_above (hruns : s.coreRuns rg k = true) (hpc : 0x6000 ≤ (s.eas rg k).pc.toNat) (op : Nat) (f : State → Word → Did) :
    easStep s rg k op f = takeTrap s rg k 1 := by
  simp [easStep, hruns, hpc]

theorem runStore_misaligned {w : Word} (h : ((s.eas rg k).effective w).1.toNat % 2 = 1) : runStore 1 rg k s w = .trap s 2 := by
  simp [runStore, Nat.mod_one, h]

theorem runLoad_odd {w : Word} (h : insnRd w % 2 = 1) : runLoad 2 rg k s w = .trap s 9 := by
  simp [runLoad, h]

/-- A trap with SR.IE at 0 stops the core (R346). -/
theorem takeTrap_stops {c : Nat} (htrap : (s.eas rg k).dbg.trapHalt = false) (hie : (s.eas rg k).ie = false) (hc : c < 16) :
    (takeTrap s rg k c).rf rg (F.EAS_STATUS_STATE k.val) = 3 ∧ (takeTrap s rg k c).rf rg (F.EAS_STATUS_DOUBLE k.val) = 1 ∧
      (takeTrap s rg k c).rf rg (F.EAS_STATUS_CAUSE k.val) = c ∧ (takeTrap s rg k c).eas rg k = (s.eas rg k).trapped := by
  rw [takeTrap_eq htrap, if_neg (by rw [hie]; exact Bool.false_ne_true)]
  refine ⟨by simp, by simp, ?_, ?_⟩
  · simp only [State.rf_ibi]
    rw [State.rf_setRf_other _ _ _ _ _ (by simp) (by simp), State.rf_setRf_other _ _ _ _ _ (by simp) (by simp), trapState_rf]
    simp
    omega
  · rw [State.eas, State.rgn_ibi, State.setRf, State.rgn_onRgn_same, State.setRf, State.rgn_onRgn_same]
    exact trapState_core s rg k c

end

/-- Settles O22: the fetch and the operands decide the trap, before the instruction that the command names does anything. -/
theorem easelTraps : Obligations.EaselTraps := by
  unfold Obligations.EaselTraps
  refine ⟨fun rg k s ⟨hruns, htrap⟩ ⟨hie, hstep, hreq⟩ hpc hop => ⟨_, congrArg Host.Outcome.next (easStep_reserved hruns hpc hop _ _), ?_⟩,
    fun rg k s ⟨hruns, htrap⟩ ⟨hie, hstep, hreq⟩ hpc => ⟨_, congrArg Host.Outcome.next (easStep_above hruns hpc _ _), ?_⟩,
    fun rg k s hat ⟨htrap, hie⟩ hea => ⟨_, rfl, traps_of_coreAt hat rfl (runStore_misaligned hea) htrap hie (by decide)⟩,
    fun rg k s hat ⟨htrap, hie⟩ hrd => ⟨_, rfl, traps_of_coreAt hat rfl (runLoad_odd hrd) htrap hie (by decide)⟩,
    fun rg k s hat ⟨htrap, hie⟩ hrd => ⟨_, rfl, traps_of_coreAt hat rfl (if_pos hrd) htrap hie (by decide)⟩,
    fun rg k s ⟨hruns, _⟩ hie hpc hop htrap => ⟨_, congrArg Host.Outcome.next (easStep_reserved hruns hpc hop _ _), ?_⟩⟩
  · exact takeTrap_traps htrap hie hstep hreq (by decide)
  · exact takeTrap_traps htrap hie hstep hreq (by decide)
  · obtain ⟨hstate, hdouble, hcause, hcore⟩ := takeTrap_stops htrap hie (c := 1) (by decide)
    exact ⟨hstate, hdouble, hcause, by rw [hcore]; rfl, by rw [hcore]; rfl, by rw [hcore]; rfl⟩

end Sys2Proof.Machine
end

section
/-! PROOFS. PAL, BPA, the mailboxes and PKT of an easel core (R348–R355). -/

namespace Sys2Proof.Machine

/-! ### What an instruction leaves in the region -/

section
variable {s t : State} {rg : Rg} {k : CoreNo}

theorem OnlyCore.stores (h : OnlyCore rg k s t) : SameStores (s.rgn rg) (t.rgn rg) := h.2.1

theorem SameStores.cl {r r' : Region} (h : SameStores r r') (c : Cl) : r'.cl c = r.cl c := by
  obtain ⟨-, hcl, -⟩ := h
  unfold Region.cl
  rw [hcl]

theorem insnField_eq_bitsAt (v : Entry) (i : Nat) : BitVec.ofNat 16 (v.toNat / 65536 ^ i) = bitsAt v (16 * i) 16 := by
  rw [bitsAt, pow_mul]
  rfl

/-- The quartet of an aligned register: its own four registers, and the others. -/
theorem Easel.get_quartet (e : Easel) {rd : Nat} (v : Entry) (hrd : rd < 32) (h4 : rd % 4 = 0) :
    (∀ i : Fin 4, (e.putMany rd v.toNat 4).get (rd + i.val) = bitsAt v (16 * i.val) 16) ∧
      ∀ i : Fin 32, i.val / 4 ≠ rd / 4 → (e.putMany rd v.toNat 4).get i.val = e.get i.val := by
  refine ⟨fun i => (e.get_putMany v.toNat (by omega) i.isLt).trans (insnField_eq_bitsAt v i.val), fun i hi => ?_⟩
  exact e.get_putMany_of_outside v.toNat (by omega) i.isLt (by omega)

theorem Easel.keepsFlow_putMany (e : Easel) (rd v n : Nat) : e.KeepsFlow (e.putMany rd v n) := by
  rw [Easel.putMany_eq]
  exact ⟨rfl, rfl, rfl, rfl, rfl, rfl⟩

theorem CoreIs.get {e : Easel} (h : CoreIs t rg k e) (n : Nat) : (t.eas rg k).get n = e.get n := by rw [h]; rfl
theorem CoreIs.mbin {e : Easel} (h : CoreIs t rg k e) : (t.eas rg k).mbin = e.mbin := by rw [h]
theorem CoreIs.mbout {e : Easel} (h : CoreIs t rg k e) : (t.eas rg k).mbout = e.mbout := by rw [h]
theorem CoreIs.pkts {e : Easel} (h : CoreIs t rg k e) : (t.eas rg k).pkts = e.pkts := by rw [h]

end

/-! ### PAL (R348) -/

theorem runPal_read {s : State} {rg : Rg} {k : CoreNo} {w : Word} (hhold : s.rf rg (F.EAS_STATUS_HOLDING k.val) = 1)
    (hlate : (s.eas rg k).late = false) (hrd : insnRd w % 4 = 0) (hallowed : palAllowed (insnField w 7 10) false = true)
    (hread : w.getLsbD 6 = false) :
    runPal rg k s w = .done (s.setEas rg k ((s.eas rg k).putMany (insnRd w)
      ((s.cl rg (BitVec.ofNat 4 (insnField w 17 4))).peek (s.rgn rg).executing (insnField w 7 10)).toNat 4)) none := by
  have hbit : (s.rgn rg).bit (F.EAS_STATUS_HOLDING k.val) = true := by
    rw [Region.bit, show (s.rgn rg).f (F.EAS_STATUS_HOLDING k.val) = 1 from hhold]
    rfl
  have hlate' : ((s.rgn rg).eas k).late = false := hlate
  simp only [runPal, hrd, hlate', hbit, hread, hallowed]
  rfl

theorem Region.shadowSlot_frame (r : Region) (c : Cl) (k : Nat) : ∃ w, r.shadowSlot c k = { r with rwd := w } := by
  unfold Region.shadowSlot
  split
  · exact ⟨_, rfl⟩
  · dsimp only
    split
    · exact ⟨_, rfl⟩
    · exact ⟨_, rfl⟩

theorem pushBin_frame (s : State) (rg : Rg) (cycle : BitVec 48) (kind : Nat) (c : Cl) (entry source seq : Nat) (full : Bool) (data : Entry) :
    (∃ w, (pushBin s rg cycle kind c entry source seq full data).rgn rg = { s.rgn rg with rwd := w }) ∧
      OnlyRegion rg s (pushBin s rg cycle kind c entry source seq full data) := by
  unfold pushBin
  dsimp only
  split
  · exact ⟨⟨_, rfl⟩, .refl rg s⟩
  · rw [State.rgn_setRgn_same]
    exact ⟨⟨_, rfl⟩, rfl, fun rh hrh => State.rgn_setRgn_ne _ _ hrh⟩

/-- The record of a palette write changes the rewind state of the region alone. -/
theorem logInject_frame (s : State) (rg : Rg) (c : Cl) (e source : Nat) :
    (∃ w, (logInject s rg c e source).rgn rg = { s.rgn rg with rwd := w }) ∧ OnlyRegion rg s (logInject s rg c e source) := by
  have hshadow : (∃ w, (if 992 ≤ e ∧ e < 1008 then s.onRgn rg (fun r => r.shadowSlot c (e - 992)) else s).rgn rg = { s.rgn rg with rwd := w }) ∧
      OnlyRegion rg s (if 992 ≤ e ∧ e < 1008 then s.onRgn rg (fun r => r.shadowSlot c (e - 992)) else s) := by
    split
    · rw [State.rgn_onRgn_same]
      exact ⟨Region.shadowSlot_frame _ _ _, (OnlyRegion.refl rg s).onRgn _⟩
    · exact ⟨⟨_, rfl⟩, .refl rg s⟩
  unfold logInject
  generalize (if 992 ≤ e ∧ e < 1008 then s.onRgn rg (fun r => r.shadowSlot c (e - 992)) else s) = u at hshadow ⊢
  obtain ⟨⟨w, hw⟩, honly⟩ := hshadow
  obtain ⟨⟨w', hw'⟩, honly'⟩ := pushBin_frame u rg (u.rgn rg).executing 3 c e source 0
    (decide (992 ≤ e) && ((u.rgn rg).cl c).full (u.rgn rg).executing e) (((u.rgn rg).cl c).peek (u.rgn rg).executing e)
  exact ⟨⟨w', hw'.trans (by rw [hw])⟩, honly.trans honly'⟩

theorem Cluster.peek_poke_same (x : Cluster) (n : BitVec 48) {e : Nat} (v : Entry) (full : Bool) (h : e < 1020) :
    (x.poke n e v full).peek n e = v := by
  unfold Cluster.poke Cluster.peek
  by_cases h1 : e < 992
  · simp only [h1, if_true]; exact SMap.get_set_same _ _ _ _
  · by_cases h2 : e < 1008
    · simp only [h1, h2, if_true, if_false]; exact SMap.get_set_same _ _ _ _
    · simp only [h1, h2, h, if_true, if_false]; exact SMap.get_set_same _ _ _ _

theorem Cluster.peek_poke_ne (x : Cluster) (n : BitVec 48) {e i : Nat} (v : Entry) (full : Bool) (h : i ≠ e) :
    (x.poke n e v full).peek n i = x.peek n i := by
  unfold Cluster.poke Cluster.peek
  by_cases h1 : e < 992
  · by_cases i1 : i < 992
    · simp only [h1, i1, if_true]; exact SMap.get_set_ne _ _ _ h
    · simp only [h1, i1, if_true, if_false]
  · by_cases h2 : e < 1008
    · by_cases i1 : i < 992
      · simp only [h1, h2, i1, if_true, if_false]
      · by_cases i2 : i < 1008
        · simp only [h1, h2, i1, i2, if_true, if_false]; exact SMap.get_set_ne _ _ _ (by omega)
        · simp only [h1, h2, i1, i2, if_true, if_false]
    · by_cases h3 : e < 1020
      · by_cases i1 : i < 992
        · simp only [h1, h2, h3, i1, if_true, if_false]
        · by_cases i2 : i < 1008
          · simp only [h1, h2, h3, i1, i2, if_true, if_false]
          · by_cases i3 : i < 1020
            · simp only [h1, h2, h3, i1, i2, i3, if_true, if_false]; exact SMap.get_set_ne _ _ _ (by omega)
            · simp only [h1, h2, h3, i1, i2, i3, if_true, if_false]
      · simp only [h1, h2, h3, if_false]

/-- The cluster of a PAL, and its palette with the quartet written. -/
abbrev palCluster (w : Word) : Cl := BitVec.ofNat 4 (insnField w 17 4)

def palPoked (s : State) (rg : Rg) (k : CoreNo) (w : Word) : Cluster :=
  (s.cl rg (palCluster w)).poke (s.rgn rg).executing (insnField w 7 10) (BitVec.ofNat 64 ((s.eas rg k).getMany (insnRd w) 4)) (w.getLsbD 5)

/-- The state after a PAL write, with its record. -/
def palWritten (s : State) (rg : Rg) (k : CoreNo) (w : Word) : State :=
  logInject (s.setCl rg (palCluster w) (palPoked s rg k w)) rg (palCluster w) (insnField w 7 10) k.val

theorem runPal_write {s : State} {rg : Rg} {k : CoreNo} {w : Word} (hhold : s.rf rg (F.EAS_STATUS_HOLDING k.val) = 1)
    (hlate : (s.eas rg k).late = false) (hrd : insnRd w % 4 = 0) (hallowed : palAllowed (insnField w 7 10) true = true)
    (hwrite : w.getLsbD 6 = true) : runPal rg k s w = .done (palWritten s rg k w) none := by
  have hbit : (s.rgn rg).bit (F.EAS_STATUS_HOLDING k.val) = true := by
    rw [Region.bit, show (s.rgn rg).f (F.EAS_STATUS_HOLDING k.val) = 1 from hhold]
    rfl
  have hlate' : ((s.rgn rg).eas k).late = false := hlate
  simp only [runPal, hrd, hlate', hbit, hwrite, hallowed]
  rfl

theorem palWritten_frame (s : State) (rg : Rg) (k : CoreNo) (w : Word) :
    (∃ x, (palWritten s rg k w).rgn rg = { (s.rgn rg).setCl (palCluster w) (palPoked s rg k w) with rwd := x }) ∧
      OnlyRegion rg s (palWritten s rg k w) := by
  obtain ⟨⟨x, hx⟩, hlog⟩ := logInject_frame (s.setCl rg (palCluster w) (palPoked s rg k w)) rg (palCluster w) (insnField w 7 10) k.val
  refine ⟨⟨x, hx.trans ?_⟩, ((OnlyRegion.refl rg s).onRgn _).trans hlog⟩
  rw [State.setCl, State.rgn_onRgn_same]

theorem entry_lt_of_palAllowed {e : Nat} (h : palAllowed e true = true) : e < 1020 := by
  simp only [palAllowed, Bool.or_eq_true, Bool.and_eq_true, decide_eq_true_eq] at h
  rcases h with h | ⟨-, h⟩
  · omega
  · simpa using h

end Sys2Proof.Machine
end

section
/-! PROOFS. BPA, the mailboxes and PKT of an easel core (R350–R355). -/

namespace Sys2Proof.Machine

/-! ### BPA (R350) -/

theorem askPort_of_owner {s : State} {rg : Rg} {k : CoreNo} (h : s.rf rg F.DMEM_STATUS_OWNER = k.val) :
    askPort s rg (coreReq k) = (s, true) := if_pos h

/-- A BPA of a core that owns the back port, at an aligned word of design memory that no write of the front port is about to change. -/
theorem runBpa_granted {s : State} {rg : Rg} {k : CoreNo} {w : Word} (hown : s.rf rg F.DMEM_STATUS_OWNER = k.val)
    (hfront : (s.rgn rg).frontWrites = false) (hrd : insnRd w % 4 = 0) (hra : insnRa w % 2 = 0)
    (ha : (s.eas rg k).getMany (insnRa w) 2 % 8 = 0) (hlt : (s.eas rg k).getMany (insnRa w) 2 < 0x400000) (ecc : Ecc) (ns : Word) :
    runBpa ecc ns rg k s w = backAccess s rg k w ecc ns := by
  have hregs : ¬ (insnRd w % 4 ≠ 0 ∨ insnRa w % 2 ≠ 0) := by omega
  have haddr : ¬ ((s.eas rg k).getMany (insnRa w) 2 % 8 ≠ 0 ∨ 0x600000 ≤ (s.eas rg k).getMany (insnRa w) 2 ∨
      (w.getLsbD 15 = true ∧ 0x400000 ≤ (s.eas rg k).getMany (insnRa w) 2)) := by omega
  have hgo : ¬ (¬ (true = true) ∨ ((s.eas rg k).getMany (insnRa w) 2 < 0x400000 ∧ (s.rgn rg).frontWrites = true)) := by simp [hfront]
  unfold runBpa
  dsimp only
  rw [askPort_of_owner hown]
  exact (if_neg hregs).trans ((if_neg haddr).trans (if_neg hgo))

theorem backRead_of_clean {s : State} {rg : Rg} {a : Nat} (h : (s.rgn rg).checked (dmemKey a) .clean = .clean) (src : Nat) :
    backRead s rg src false a .clean = (s, some (SMap.get 0 (s.rgn rg).dmem a)) := by
  unfold backRead
  simp only [Bool.false_eq_true, if_false, h]

theorem endAccess_drops (r : Region) (k : CoreNo) : r.endAccess k false = (r.setEas k { r.eas k with grant := 0 }).dropGrant := by
  unfold Region.endAccess
  exact if_neg (fun h => Bool.noConfusion h.1)

/-- The grant ends: the port is free. -/
theorem endAccess_effect (s : State) (rg : Rg) (k : CoreNo) :
    (s.onRgn rg (fun r => r.endAccess k false)).eas rg k = { s.eas rg k with grant := 0 } ∧
      (s.onRgn rg (fun r => r.endAccess k false)).rf rg F.DMEM_STATUS_OWNER = 6 ∧
      ((s.onRgn rg (fun r => r.endAccess k false)).rgn rg).dmem = (s.rgn rg).dmem ∧
      ((s.onRgn rg (fun r => r.endAccess k false)).rgn rg).ring = (s.rgn rg).ring := by
  refine ⟨?_, ?_, ?_, ?_⟩
  · rw [State.eas, State.rgn_onRgn_same, endAccess_drops]
    exact Region.eas_setEas_same (s.rgn rg) k _
  · rw [State.rf_onRgn_same, endAccess_drops, Region.dropGrant]
    simp
  · rw [State.rgn_onRgn_same, endAccess_drops]
    rfl
  · rw [State.rgn_onRgn_same, endAccess_drops]
    rfl

/-- The word of design memory that the core's BPA names. -/
def backWord (s : State) (rg : Rg) (k : CoreNo) : Entry :=
  SMap.get 0 (s.rgn rg).dmem ((s.eas rg k).getMany (insnRa (coreWord s rg k)) 2 / 8)

theorem backAccess_read {s : State} {rg : Rg} {k : CoreNo} {w : Word} (hlt : (s.eas rg k).getMany (insnRa w) 2 < 0x400000)
    (hclean : (s.rgn rg).checked (dmemKey ((s.eas rg k).getMany (insnRa w) 2 / 8)) .clean = .clean) (hread : w.getLsbD 15 = false)
    (hdrop : w.getLsbD 14 = false) (ns : Word) :
    backAccess s rg k w .clean ns = .done ((s.onEas rg k (fun e => e.putMany (insnRd w)
      (SMap.get 0 (s.rgn rg).dmem ((s.eas rg k).getMany (insnRa w) 2 / 8)).toNat 4)).onRgn rg (fun r => r.endAccess k false)) none := by
  have hring : decide (0x400000 ≤ (s.eas rg k).getMany (insnRa w) 2) = false := decide_eq_false (by omega)
  unfold backAccess
  rw [hread, if_neg Bool.false_ne_true, hdrop]
  dsimp only
  rw [hring, if_neg Bool.false_ne_true, backRead_of_clean hclean]
  rfl

/-- The bytes that a mask of enables names. -/
def byteMask (be : BitVec 8) : Entry := BitVec.ofNat 64 (packKey ((List.range 8).map (fun i => (if be.getLsbD i then 255 else 0, 8))))

theorem testBit_packKey_bytes (l : List Nat) (i : Nat) :
    (packKey (l.map fun b => (b, 8))).testBit i = (l.getD (i / 8) 0).testBit (i % 8) := by
  induction l generalizing i with
  | nil => simp [packKey]
  | cons b l ih =>
    rw [List.map_cons, packKey, Nat.add_comm, Nat.testBit_two_pow_mul_add _ (Nat.mod_lt _ (by decide))]
    by_cases hi : i < 8
    · have h0 : i / 8 = 0 := by omega
      rw [if_pos hi, h0, Nat.mod_eq_of_lt hi, Nat.testBit_mod_two_pow]
      simp [hi]
    · have h1 : i / 8 = (i - 8) / 8 + 1 := by omega
      have h2 : i % 8 = (i - 8) % 8 := by omega
      rw [if_neg hi, ih, h1, h2]
      rfl

theorem getLsbD_byteMask (be : BitVec 8) {i : Nat} (hi : i < 64) : (byteMask be).getLsbD i = be.getLsbD (i / 8) := by
  have hmap : (List.range 8).map (fun i => (if be.getLsbD i then 255 else 0, 8)) =
      ((List.range 8).map (fun i => if be.getLsbD i then 255 else 0)).map (fun b => (b, 8)) := by simp
  have hbyte : i / 8 < 8 := by omega
  have hones : ∀ j < 8, Nat.testBit 255 j = true := by decide
  rw [byteMask, BitVec.getLsbD_ofNat, hmap, testBit_packKey_bytes]
  simp only [hi, decide_true, Bool.true_and, List.getD_eq_getElem?_getD, List.getElem?_map, List.getElem?_range hbyte, Option.map_some,
    Option.getD_some]
  cases be.getLsbD (i / 8)
  · simp
  · exact hones _ (Nat.mod_lt _ (by decide))

theorem getLsbD_insnField (w : Word) {lo j : Nat} (hj : j < 8) : (BitVec.ofNat 8 (insnField w lo 8)).getLsbD j = w.getLsbD (lo + j) := by
  rw [BitVec.getLsbD_ofNat, insnField, Nat.testBit_mod_two_pow, Nat.testBit_div_two_pow]
  simp [hj, BitVec.getLsbD, Nat.add_comm]

/-- The word after a write of the enabled bytes. -/
theorem getLsbD_merged (old v : Entry) (w : Word) (i : Fin 64) :
    ((old &&& ~~~ byteMask (BitVec.ofNat 8 (insnField w 6 8))) ||| (v &&& byteMask (BitVec.ofNat 8 (insnField w 6 8)))).getLsbD i.val =
      if w.getLsbD (6 + i.val / 8) then v.getLsbD i.val else old.getLsbD i.val := by
  have hi := i.isLt
  rw [BitVec.getLsbD_or, BitVec.getLsbD_and, BitVec.getLsbD_and, BitVec.getLsbD_not, getLsbD_byteMask _ hi,
    getLsbD_insnField w (by omega)]
  cases w.getLsbD (6 + i.val / 8) <;> simp [hi]

/-- A write of the back port with a sound word and room in the undo buffer: the word, and the undo entry. -/
theorem backWrite_of_clean {s : State} {rg : Rg} {a : BitVec 19} (hfull : (s.rgn rg).undoFull = false)
    (hclean : (s.rgn rg).checked (dmemKey a.toNat) .clean = .clean) (src : Nat) (be : BitVec 8) (v : Entry) (ns : Word) :
    ∃ regs rwd front ups, (backWrite s rg src a be v .clean ns).rgn rg = { s.rgn rg with
      dmem := SMap.set 0 (s.rgn rg).dmem a.toNat ((SMap.get 0 (s.rgn rg).dmem a.toNat &&& ~~~ byteMask be) ||| (v &&& byteMask be)),
      regs := regs, rwd := rwd, front := front, upsets := ups } := by
  have hpush (r : Region) (u : UndoEntry) : ∃ regs rwd, (pushUndo (s.setRgn rg r) rg u).rgn rg = { r with regs := regs, rwd := rwd } := by
    obtain ⟨⟨regs, rwd, h⟩, -⟩ := pushUndo_frame (s.setRgn rg r) rg u
    rw [State.rgn_setRgn_same] at h
    exact ⟨regs, rwd, h⟩
  unfold backWrite
  rw [hfull, if_neg Bool.false_ne_true]
  simp only [hclean]
  exact Exists.elim (hpush _ _) (fun regs h => Exists.elim h (fun rwd h => ⟨regs, rwd, _, _, h⟩))

theorem backAccess_write {s : State} {rg : Rg} {k : CoreNo} {w : Word} (hwrite : w.getLsbD 15 = true) (hdrop : w.getLsbD 14 = false)
    (ns : Word) : backAccess s rg k w .clean ns = .done ((backWrite s rg k.val (BitVec.ofNat 19 ((s.eas rg k).getMany (insnRa w) 2 / 8))
      (BitVec.ofNat 8 (insnField w 6 8)) (BitVec.ofNat 64 ((s.eas rg k).getMany (insnRd w) 4)) .clean ns).onRgn rg
        (fun r => r.endAccess k false)) none := by
  unfold backAccess
  rw [hwrite, if_pos rfl, hdrop]

/-! ### The mailboxes (R354, R355) -/

/-- A core and its mailbox counts set in its region. -/
theorem eas_onRgn_showMail (s : State) (rg : Rg) (k : CoreNo) (e : Easel) :
    (s.onRgn rg (fun r => (r.setEas k e).showMail k)).eas rg k = e := by
  rw [State.eas, State.rgn_onRgn_same]
  exact Region.eas_setEas_same (s.rgn rg) k e

/-- The core that has taken word `m` of its inbound mailbox. -/
def Easel.popped (e : Easel) (m : MbWord) (rest : List MbWord) : Easel :=
  { e with mbin := rest, sr := setBit (setBit (setBit e.sr 4 false) 5 m.first) 6 m.bad }

theorem Easel.sr_popped (e : Easel) (m : MbWord) (rest : List MbWord) :
    (e.popped m rest).sr.getLsbD 4 = false ∧ (e.popped m rest).sr.getLsbD 5 = m.first ∧ (e.popped m rest).ie = e.ie := by
  unfold Easel.popped Easel.ie
  dsimp only
  refine ⟨?_, ?_, ?_⟩
  · rw [getLsbD_setBit_ne _ _ (by decide), getLsbD_setBit_ne _ _ (by decide), getLsbD_setBit_same _ _ (by decide)]
  · rw [getLsbD_setBit_ne _ _ (by decide), getLsbD_setBit_same _ _ (by decide)]
  · rw [getLsbD_setBit_ne _ _ (by decide), getLsbD_setBit_ne _ _ (by decide), getLsbD_setBit_ne _ _ (by decide)]

theorem Easel.keepsFlow_popped (e : Easel) (m : MbWord) (rest : List MbWord) : e.KeepsFlow (e.popped m rest) :=
  ⟨rfl, rfl, rfl, rfl, rfl, (e.sr_popped m rest).2.2⟩

theorem runMbrd_word {s : State} {rg : Rg} {k : CoreNo} {w : Word} {m : MbWord} {rest : List MbWord} (hrd : insnRd w % 2 = 0)
    (hmbin : (s.eas rg k).mbin = m :: rest) (hbad : m.bad = false) :
    runMbrd rg k s w = .done (s.onRgn rg (fun r =>
      (r.setEas k (((s.eas rg k).popped m rest).putMany (insnRd w) m.word.toNat 2)).showMail k)) none := by
  have heven : ¬ insnRd w % 2 ≠ 0 := by omega
  have hsound : ¬ m.bad = true := by rw [hbad]; exact Bool.false_ne_true
  unfold runMbrd
  dsimp only
  rw [if_neg heven, hmbin]
  dsimp only
  rw [if_neg hsound]
  rfl

theorem runMbwr_word {s : State} {rg : Rg} {k : CoreNo} {w : Word} (hra : insnRa w % 2 = 0) (hcut : (s.eas rg k).mboutCut = false)
    (hroom : (s.eas rg k).mbout.length < 64) :
    runMbwr rg k s w = .done (s.onRgn rg (fun r => (r.setEas k { s.eas rg k with
      mbout := (s.eas rg k).mbout ++ [⟨BitVec.ofNat 32 ((s.eas rg k).getMany (insnRa w) 2), w.getLsbD 15, false⟩],
      mboutCut := false }).showMail k)) none := by
  have heven : ¬ insnRa w % 2 ≠ 0 := by omega
  have hroom' : ¬ 64 ≤ (s.eas rg k).mbout.length := by omega
  have hwhole : ¬ ((s.eas rg k).mboutCut = true ∧ ¬ w.getLsbD 15 = true) := by simp [hcut]
  unfold runMbwr
  exact (if_neg heven).trans ((if_neg hwhole).trans (if_neg hroom'))

/-! ### PKT (R352) -/

/-- The core whose packet engine has taken `tag` for the packet of the descriptor at `d`. -/
def Easel.offered (s : State) (rg : Rg) (k : CoreNo) (d tag : Nat) : Easel :=
  { s.eas rg k with x := xWrite (s.eas rg k).x (d + 18) tag 1, pkts := SMap.set none (s.eas rg k).pkts tag (some (descPacket s rg k d tag)) }

theorem offered_pkts (s : State) (rg : Rg) (k : CoreNo) (d tag : Nat) :
    SMap.get none (Easel.offered s rg k d tag).pkts tag = some (descPacket s rg k d tag) := by
  show SMap.get none (SMap.set none (s.eas rg k).pkts tag (some (descPacket s rg k d tag))) tag = _
  exact SMap.get_set_same _ _ _ _

/-- The region with the tag taken, and busy. -/
def offeredState (s : State) (rg : Rg) (k : CoreNo) (d tag : Nat) : State :=
  s.onRgn rg (fun r => (r.setEas k (Easel.offered s rg k d tag)).setF (F.EAS_PKT_BUSY k.val)
    ((r.setEas k (Easel.offered s rg k d tag)).f (F.EAS_PKT_BUSY k.val) ||| 2 ^ tag))

theorem runPkt_offers {s : State} {rg : Rg} {k : CoreNo} {w : Word} {tag : Nat} (hd : ((s.eas rg k).get (insnRa w)).toNat % 8 = 0)
    (htag : (s.eas rg k).freeTag = some tag)
    (hdata : (descPacket s rg k ((s.eas rg k).get (insnRa w)).toNat tag).packet.data = [] ∨
      xRead (s.eas rg k).x (((s.eas rg k).get (insnRa w)).toNat + 12) 2 % 16 = 0)
    (hresp : (descPacket s rg k ((s.eas rg k).get (insnRa w)).toNat tag).packet.cmd = 1 ∨
      (descPacket s rg k ((s.eas rg k).get (insnRa w)).toNat tag).packet.cmd = 4 →
        (descPacket s rg k ((s.eas rg k).get (insnRa w)).toNat tag).resp.toNat % 16 = 0) :
    runPkt rg k s w = .done (offeredState s rg k ((s.eas rg k).get (insnRa w)).toNat tag) none := by
  have haligned : ¬ ((s.eas rg k).get (insnRa w)).toNat % 8 ≠ 0 := by omega
  unfold runPkt
  dsimp only
  rw [if_neg haligned, htag]
  refine if_neg ?_
  generalize descPacket s rg k ((s.eas rg k).get (insnRa w)).toNat tag = q at hdata hresp
  rintro (⟨hne, hodd⟩ | ⟨hcmd, hodd⟩)
  · exact hdata.elim hne hodd
  · exact hodd (hresp (hcmd.imp (fun h => BitVec.eq_of_toNat_eq h) (fun h => BitVec.eq_of_toNat_eq h)))

theorem Easel.freeTag_lt {e : Easel} {tag : Nat} (h : e.freeTag = some tag) : tag < 8 :=
  List.mem_range.mp (List.mem_of_find?_eq_some h)

theorem offeredState_busy (s : State) (rg : Rg) (k : CoreNo) (d : Nat) {tag : Nat} (h : tag < 8) :
    ((offeredState s rg k d tag).rf rg (F.EAS_PKT_BUSY k.val)).testBit tag = true := by
  rw [offeredState, State.rf_onRgn_same, Region.f_setF_eq _ _ _ (by simp), Nat.testBit_mod_two_pow, Nat.testBit_or,
    Nat.testBit_two_pow_self]
  simp [h]

theorem offeredState_core (s : State) (rg : Rg) (k : CoreNo) (d tag : Nat) :
    (offeredState s rg k d tag).eas rg k = Easel.offered s rg k d tag := by
  rw [offeredState, State.eas, State.rgn_onRgn_same]
  exact Region.eas_setEas_same (s.rgn rg) k _

theorem Region.owner_dropRequest {r : Region} {q : Nat} (h : r.f F.DMEM_STATUS_OWNER = q) : (r.dropRequest q).f F.DMEM_STATUS_OWNER = 6 := by
  have hown : (r.setF F.DMEM_STATUS_WAITING (r.f F.DMEM_STATUS_WAITING &&& (63 - 2 ^ q))).f F.DMEM_STATUS_OWNER = q := by
    simpa using h
  unfold Region.dropRequest
  dsimp only
  rw [if_pos hown]
  simp

/-- Settles O23: what each access leaves in its state, and the end of the instruction, which touches nothing but the core. -/
theorem palettePortMailboxAndPacket : Obligations.PalettePortMailboxAndPacket := by
  unfold Obligations.PalettePortMailboxAndPacket
  refine ⟨fun rg k s hat hhold hlate hrd hallowed hread => ⟨_, rfl, ?palRead⟩,
    fun rg k s hat hhold hlate hrd hallowed hwrite => ⟨_, rfl, ?palWrite⟩,
    fun rg k ns s hat hown hfront hclean ⟨hrd, hra⟩ ⟨ha, hlt⟩ ⟨hread, hdrop⟩ => ⟨_, rfl, ?bpaRead⟩,
    fun rg k ns s hat hown hfront hclean ⟨hrd, hra⟩ ⟨ha, hlt⟩ ⟨hwrite, hdrop⟩ hfull => ⟨_, rfl, ?bpaWrite⟩,
    fun rg k s hown => ⟨_, congrArg Host.Outcome.next (if_pos hown), ?idle⟩,
    fun rg k m rest s hat hrd hmbin hbad => ⟨_, rfl, ?mbrd⟩, fun rg k s hat hra hcut hroom => ⟨_, rfl, ?mbwr⟩,
    fun rg k tag s hat hd htag hdata hresp => ⟨_, rfl, ?pkt⟩⟩
  case palRead =>
    obtain ⟨hstep, honly, -⟩ := easStep_keepsFlow hat rfl (runPal_read hhold hlate hrd hallowed hread) (Easel.keepsFlow_putMany _ _ _ _)
    obtain ⟨hin, hout⟩ := (s.eas rg k).get_quartet ((s.cl rg (BitVec.ofNat 4 (insnField (coreWord s rg k) 17 4))).peek
      (s.rgn rg).executing (insnField (coreWord s rg k) 7 10)) (insnRd_lt _) hrd
    exact ⟨fun i => (hstep.get _).trans (hin i), fun i hi => (hstep.get _).trans (hout i hi), honly⟩
  case palWrite =>
    obtain ⟨⟨x, hx⟩, hframe⟩ := palWritten_frame s rg k (coreWord s rg k)
    have hcore : (palWritten s rg k (coreWord s rg k)).eas rg k = s.eas rg k := by
      rw [State.eas, hx]
      rfl
    obtain ⟨his, honly⟩ := easStep_goes hat rfl (runPal_write hhold hlate hrd hallowed hwrite) hcore (Easel.KeepsFlow.refl _)
    have hcl (d : Cl) : (easStep s rg k 0x1C (runPal rg k)).cl rg d =
        ((s.rgn rg).setCl (palCluster (coreWord s rg k)) (palPoked s rg k (coreWord s rg k))).cl d := by
      rw [State.cl, honly.stores.cl, hx]
      rfl
    obtain ⟨-, -, hdmem, hring, -⟩ := honly.stores
    refine ⟨?_, fun n hn => ?_, fun d hd => ?_, hdmem.trans (by rw [hx]; rfl), hring.trans (by rw [hx]; rfl), his.r,
      hframe.drawn.trans honly.1⟩
    · rw [hcl, Region.cl_setCl_same]
      exact Cluster.peek_poke_same _ _ _ _ (entry_lt_of_palAllowed hallowed)
    · rw [hcl, Region.cl_setCl_same]
      exact Cluster.peek_poke_ne _ _ _ _ hn
    · rw [hcl]
      exact Region.cl_setCl_ne _ _ hd
  case bpaRead =>
    have hcore' : (s.onEas rg k (fun e => e.putMany (insnRd (coreWord s rg k)) (backWord s rg k).toNat 4)).eas rg k =
        (s.eas rg k).putMany (insnRd (coreWord s rg k)) (backWord s rg k).toNat 4 := State.eas_onEas_same s rg k _
    obtain ⟨hcore, hfree, hdmem, -⟩ := endAccess_effect (s.onEas rg k (fun e => e.putMany (insnRd (coreWord s rg k)) (backWord s rg k).toNat 4)) rg k
    rw [hcore'] at hcore
    have hkeeps : (s.eas rg k).KeepsFlow { (s.eas rg k).putMany (insnRd (coreWord s rg k)) (backWord s rg k).toNat 4 with grant := 0 } :=
      (Easel.keepsFlow_putMany _ _ _ _).trans ⟨rfl, rfl, rfl, rfl, rfl, rfl⟩
    obtain ⟨his, honly⟩ := easStep_goes hat rfl ((runBpa_granted hown hfront hrd hra ha hlt .clean ns).trans
      (backAccess_read hlt hclean hread hdrop ns)) hcore hkeeps
    obtain ⟨hin, hout⟩ := (s.eas rg k).get_quartet (backWord s rg k) (insnRd_lt (coreWord s rg k)) hrd
    obtain ⟨-, -, hdmem', -⟩ := honly.stores
    refine ⟨fun i => (his.get _).trans (hin i), fun i hi => (his.get _).trans (hout i hi), ?_, hdmem'.trans (hdmem.trans ?_),
      (((OnlyRegion.refl rg s).onRgn _).onRgn _).drawn.trans honly.1⟩
    · rw [honly.rf (by dsimp only; omega) (by dsimp only; omega)]
      exact hfree
    · rw [State.onEas, State.setEas, State.rgn_onRgn_same]
      rfl
  case bpaWrite =>
    have haddr : (BitVec.ofNat 19 ((s.eas rg k).getMany (insnRa (coreWord s rg k)) 2 / 8)).toNat =
        (s.eas rg k).getMany (insnRa (coreWord s rg k)) 2 / 8 := by
      rw [BitVec.toNat_ofNat]
      omega
    obtain ⟨regs, rwd, front, ups, hback⟩ := backWrite_of_clean hfull (by rw [haddr]; exact hclean) k.val
      (BitVec.ofNat 8 (insnField (coreWord s rg k) 6 8)) (BitVec.ofNat 64 ((s.eas rg k).getMany (insnRd (coreWord s rg k)) 4)) ns
    have hf := (runBpa_granted hown hfront hrd hra ha hlt .clean ns).trans (backAccess_write hwrite hdrop ns)
    rw [haddr] at hback
    generalize backWrite s rg k.val (BitVec.ofNat 19 ((s.eas rg k).getMany (insnRa (coreWord s rg k)) 2 / 8))
      (BitVec.ofNat 8 (insnField (coreWord s rg k) 6 8)) (BitVec.ofNat 64 ((s.eas rg k).getMany (insnRd (coreWord s rg k)) 4)) .clean ns = u
      at hback hf
    have hcore' : u.eas rg k = s.eas rg k := by
      rw [State.eas, hback]
      rfl
    obtain ⟨hcore, hfree, hdmem, hring⟩ := endAccess_effect u rg k
    rw [hcore'] at hcore
    obtain ⟨his, honly⟩ := easStep_goes hat rfl hf hcore ⟨rfl, rfl, rfl, rfl, rfl, rfl⟩
    obtain ⟨-, -, hdmem', hring', -⟩ := honly.stores
    have hwords := (hdmem'.trans hdmem).trans (congrArg Region.dmem hback)
    refine ⟨fun i => ?_, fun n hn => ?_, his.r, ?_, (hring'.trans hring).trans (by rw [hback])⟩
    · rw [hwords, SMap.get_set_same]
      exact getLsbD_merged _ _ _ i
    · rw [hwords, SMap.get_set_ne _ _ _ hn]
    · rw [honly.rf (by dsimp only; omega) (by dsimp only; omega)]
      exact hfree
  case idle =>
    refine ⟨?_, congrArg Easel.grant (releasePort_eas s rg k), (OnlyRegion.refl rg s).onRgn _⟩
    rw [State.rf, releasePort_rgn]
    exact Region.owner_dropRequest hown
  case mbrd =>
    obtain ⟨h4, h5, -⟩ := (s.eas rg k).sr_popped m rest
    have hkeeps := ((s.eas rg k).keepsFlow_popped m rest).trans (Easel.keepsFlow_putMany _ (insnRd (coreWord s rg k)) m.word.toNat 2)
    obtain ⟨his, honly⟩ := easStep_goes hat rfl (runMbrd_word hrd hmbin hbad) (eas_onRgn_showMail s rg k _) hkeeps
    have hlt := insnRd_lt (coreWord s rg k)
    have hget (i : Nat) (hi : i < 2) := Easel.get_putMany ((s.eas rg k).popped m rest) (rd := insnRd (coreWord s rg k)) m.word.toNat
      (n := 2) (i := i) (by omega) hi
    have hsr : ((easStep s rg k 0x1E (runMbrd rg k)).eas rg k).sr = ((s.eas rg k).popped m rest).sr :=
      his.sr.trans (by rw [Easel.putMany_eq])
    refine ⟨(his.get _).trans (hget 0 (by decide)), (his.get _).trans (hget 1 (by decide)), his.mbin.trans (by rw [Easel.putMany_eq]; rfl),
      by rw [hsr]; exact h4, by rw [hsr]; exact h5, ((OnlyRegion.refl rg s).onRgn _).drawn.trans honly.1⟩
  case mbwr =>
    obtain ⟨his, honly⟩ := easStep_goes hat rfl (runMbwr_word hra hcut hroom) (eas_onRgn_showMail s rg k _) ⟨rfl, rfl, rfl, rfl, rfl, rfl⟩
    exact ⟨his.mbout, his.pc, ((OnlyRegion.refl rg s).onRgn _).drawn.trans honly.1⟩
  case pkt =>
    have hk := k.isLt
    obtain ⟨his, honly⟩ := easStep_goes hat rfl (runPkt_offers hd htag hdata hresp) (offeredState_core s rg k _ tag)
      ⟨rfl, rfl, rfl, rfl, rfl, rfl⟩
    refine ⟨?_, ?_, his.pc, ((OnlyRegion.refl rg s).onRgn _).drawn.trans honly.1⟩
    · rw [his.pkts]
      exact offered_pkts s rg k _ tag
    · rw [honly.rf (by dsimp only; omega) (by dsimp only; omega)]
      exact offeredState_busy s rg k _ (Easel.freeTag_lt htag)

end Sys2Proof.Machine
end

section
/-! PROOFS. What an acknowledged token leaves alone (R149, R157, R166). -/

namespace Sys2Proof.Machine

/-- From `s` to `t` tokens have been acknowledged, and nothing but what holds tokens has changed. -/
structure TokensMove (s t : State) : Prop where
  others : t = { s with rgns := t.rgns, pwr := { s.pwr with handshake := t.pwr.handshake },
                        rtc := { s.rtc with through := t.rtc.through, leaving := t.rtc.leaving }, drawn := t.drawn }
  region : ∀ rg, t.rgn rg = { s.rgn rg with cells := (t.rgn rg).cells, lanes := (t.rgn rg).lanes, io := (t.rgn rg).io,
                                            rtcStatus := (t.rgn rg).rtcStatus }
  acc : ∀ rg n, ((t.rgn rg).cell n).acc = ((s.rgn rg).cell n).acc

theorem TokensMove.refl (s : State) : TokensMove s s := ⟨rfl, fun _ => rfl, fun _ _ => rfl⟩

theorem TokensMove.trans {s t u : State} (h : TokensMove s t) (h' : TokensMove t u) : TokensMove s u := by
  refine ⟨?_, fun rg => ?_, fun rg n => (h'.acc rg n).trans (h.acc rg n)⟩
  · rw [h'.others, h.others]
  · rw [h'.region rg, h.region rg]

theorem TokensMove.draw {s t : State} (h : TokensMove s t) (w : Nat) : TokensMove s (t.draw w).2 :=
  h.trans ⟨rfl, fun _ => rfl, fun _ _ => rfl⟩

/-- An update of one region in what holds its tokens. -/
theorem TokensMove.onRgn {s t : State} (h : TokensMove s t) (rg : Rg) {g : Region → Region}
    (hg : g (t.rgn rg) = { t.rgn rg with cells := (g (t.rgn rg)).cells, lanes := (g (t.rgn rg)).lanes, io := (g (t.rgn rg)).io,
                                         rtcStatus := (g (t.rgn rg)).rtcStatus })
    (hacc : ∀ n, ((g (t.rgn rg)).cell n).acc = ((t.rgn rg).cell n).acc) : TokensMove s (t.onRgn rg g) := by
  refine h.trans ⟨rfl, fun rh => ?_, fun rh n => ?_⟩
  · by_cases hr : rh = rg
    · subst hr; rw [State.rgn_onRgn_same]; exact hg
    · rw [State.rgn_onRgn_ne _ _ hr]
  · by_cases hr : rh = rg
    · subst hr; rw [State.rgn_onRgn_same]; exact hacc n
    · rw [State.rgn_onRgn_ne _ _ hr]

theorem Region.cell_setCell_same (r : Region) (n : CellNo) (x : Cell) : (r.setCell n x).cell n = x := by
  simp [Region.cell, Region.setCell]

theorem Region.cell_setCell_ne (r : Region) {n m : CellNo} (x : Cell) (h : m ≠ n) : (r.setCell n x).cell m = r.cell m := by
  have hn : m.toNat ≠ n.toNat := fun e => h (BitVec.eq_of_toNat_eq e)
  exact SMap.get_set_ne _ _ _ hn

/-- A cell of a region written, with the accumulator it had. -/
theorem TokensMove.setCell {s t : State} (h : TokensMove s t) (rg : Rg) (n : CellNo) {x : Region → Cell}
    (hx : (x (t.rgn rg)).acc = ((t.rgn rg).cell n).acc) : TokensMove s (t.onRgn rg (fun r => r.setCell n (x r))) := by
  refine h.onRgn rg rfl fun m => ?_
  by_cases hm : m = n
  · subst hm; rw [Region.cell_setCell_same]; exact hx
  · rw [Region.cell_setCell_ne _ _ hm]

theorem Cell.acc_clockTo (b : BitVec 2048) (level : Bool) (wires : BitVec 16) (x : Cell) : (Cell.clockTo b level wires x).acc = x.acc := rfl

theorem TokensMove.ackPulse {s t : State} (h : TokensMove s t) (rg : Rg) (n : CellNo) (port : Nat) : TokensMove s (ackPulse t rg n port) := by
  unfold Machine.ackPulse
  dsimp only
  split
  · exact h
  · refine TokensMove.setCell ?_ rg n (Cell.acc_clockTo _ _ _ _)
    split
    · exact h
    · exact h.draw 16

theorem TokensMove.clearToken {s t : State} (h : TokensMove s t) (d : Drive) : TokensMove s (clearToken t d) := by
  cases d with
  | out rg n w =>
    show TokensMove s (t.onRgn rg fun r => r.setCell n _)
    refine h.setCell rg n ?_
    split <;> rfl
  | lane rg n k =>
    unfold Machine.clearToken
    exact h.onRgn rg rfl fun _ => rfl
  | io rg i =>
    unfold Machine.clearToken
    exact h.onRgn rg rfl fun _ => rfl
  | status rg =>
    unfold Machine.clearToken
    exact h.onRgn rg rfl fun _ => rfl
  | seg g => exact h

theorem TokensMove.tokenGone {s t : State} (h : TokensMove s t) (d : Drive) : TokensMove s (tokenGone t d) := by
  unfold Machine.tokenGone
  split
  · exact h.trans ⟨rfl, fun _ => rfl, fun _ _ => rfl⟩
  · have hc := h.clearToken d
    dsimp only
    split
    · exact hc.trans ⟨rfl, fun _ => rfl, fun _ _ => rfl⟩
    · exact hc

theorem TokensMove.ackToken {s t : State} (h : TokensMove s t) (fuel : Nat) (d : Drive) : TokensMove s (ackToken fuel t d) := by
  induction fuel generalizing t d with
  | zero => exact h.tokenGone d
  | succ fuel ih =>
    have hg := h.tokenGone d
    rw [Machine.ackToken]
    split
    · exact hg
    · dsimp only
      split
      case h_1 rg n w _ =>
        split
        · have hack := (hg.setCell rg n (x := fun _ => { ((Machine.tokenGone t (.out rg n w)).rgn rg).cell n with owed := false }) rfl).ackPulse rg n 0
          split
          · exact ih hack _
          · exact hack
        · exact hg
      case h_2 => exact hg

theorem TokensMove.takeToken {s t : State} (h : TokensMove s t) (d : Drive) : TokensMove s (takeToken t d) :=
  (h.ackToken 1024 d).trans ⟨rfl, fun _ => rfl, fun _ _ => rfl⟩

theorem TokensMove.takeInput {s t : State} (h : TokensMove s t) (rg : Rg) (n : CellNo) (port : Nat) : TokensMove s (takeInput t rg n port) := by
  unfold Machine.takeInput
  split
  · exact (h.takeToken _).ackPulse rg n port
  · exact h

theorem TokensMove.foldS {α : Type} {f : State → α → State} {s t : State} (h : TokensMove s t) (l : List α)
    (hf : ∀ u a, TokensMove s u → TokensMove s (f u a)) : TokensMove s (Machine.foldS l t f) :=
  foldS_induct (P := TokensMove s) l (fun u a _ => hf u a) h

theorem TokensMove.dropCrossed {s t : State} (h : TokensMove s t) (rg : Rg) (n : CellNo) (d : Drive) :
    TokensMove s (dropCrossed t rg n d) := by
  unfold Machine.dropCrossed
  split
  · exact h.takeToken d
  · exact h

theorem TokensMove.dropIo {s t : State} (h : TokensMove s t) (rg : Rg) (i : Nat) : TokensMove s (dropIo t rg i) := by
  unfold Machine.dropIo
  split
  · exact h.foldS _ fun u _ hu => hu.dropCrossed _ _ _
  · exact h

theorem TokensMove.dropTokens {s t : State} (h : TokensMove s t) (q : Nat) : TokensMove s (dropTokens t q) := by
  refine h.foldS _ fun u rg hu => ?_
  split
  · exact hu
  · have hcells := hu.foldS (u.rgn rg).cells (f := fun s e => dropCrossing s rg (BitVec.ofNat 10 e.1))
      fun v e hv => (hv.dropCrossed _ _ _).dropCrossed _ _ _
    have hio := hcells.foldS (List.range 8) (f := fun s i => Machine.dropIo s rg i) fun v i hv => hv.dropIo rg i
    exact hio.foldS _ fun v e hv => hv.dropCrossed _ _ _

/-! ### With no region stopped nothing is discarded -/

theorem TokensMove.canvasStopped {s t : State} (h : TokensMove s t) (rg : Rg) : (t.rgn rg).canvasStopped = (s.rgn rg).canvasStopped := by
  rw [h.region rg]; rfl

theorem segMeetsStopped_running {s : State} (hs : ∀ g : Rg, (s.rgn g).canvasStopped = false) (q : Nat) (g : Seg) :
    segMeetsStopped s q g = false := by
  simp [segMeetsStopped, hs]

theorem reachesStopped_running {s : State} (hs : ∀ g : Rg, (s.rgn g).canvasStopped = false) (q : Nat) (d : Drive) (fuel : Nat) (g : Seg) :
    reachesStopped s q d fuel g = false := by
  induction fuel generalizing g with
  | zero => rfl
  | succ fuel ih => simp [reachesStopped, segMeetsStopped_running hs, ih]

theorem dropCrossed_running {s : State} (hs : ∀ g : Rg, (s.rgn g).canvasStopped = false) (rg : Rg) (n : CellNo) (d : Drive) :
    dropCrossed s rg n d = s := by
  simp [dropCrossed, reachesStopped_running hs]

theorem dropCrossing_running {s : State} (hs : ∀ g : Rg, (s.rgn g).canvasStopped = false) (rg : Rg) (n : CellNo) :
    dropCrossing s rg n = s := by
  rw [dropCrossing, dropCrossed_running hs, dropCrossed_running hs]

theorem dropIo_running {s : State} (hs : ∀ g : Rg, (s.rgn g).canvasStopped = false) (rg : Rg) (i : Nat) : dropIo s rg i = s := by
  unfold dropIo
  split
  · exact foldS_eq_self _ fun _ _ => dropCrossed_running hs _ _ _
  · rfl

end Sys2Proof.Machine
end

section
/-! PROOFS. The pins of a region (R173–R182). -/

namespace Sys2Proof.Machine

theorem Region.ioCell_setIo_same (r : Region) (i : Nat) (x : IoCell) : (r.setIo i x).ioCell i = x :=
  SMap.get_set_same _ _ _ _

theorem State.ioCell_setIo (s : State) (rg : Rg) (k : Nat) (x : Region → IoCell) :
    ((s.onRgn rg fun r => r.setIo k (x r)).rgn rg).ioCell k = x (s.rgn rg) := by
  rw [State.rgn_onRgn_same, Region.ioCell_setIo_same]

/-- What an I/O cell holds is no part of what stops the canvas. -/
theorem canvasStopped_setIo {s : State} (hs : ∀ g : Rg, (s.rgn g).canvasStopped = false) (rg : Rg) (k : Nat) (x : Region → IoCell) (g : Rg) :
    ((s.onRgn rg fun r => r.setIo k (x r)).rgn g).canvasStopped = false := by
  by_cases hg : g = rg
  · subst hg; rw [State.rgn_onRgn_same]; exact hs g
  · rw [State.rgn_onRgn_ne _ _ hg]; exact hs g

theorem ioWorks_setIo (s : State) (rg : Rg) (k j : Nat) (x : Region → IoCell) :
    ioWorks (s.onRgn rg fun r => r.setIo k (x r)) rg j = ioWorks s rg j := by
  unfold ioWorks ioRuns
  rw [State.rgn_onRgn_same]
  rfl

/-- FIO_INPUT_TOKEN with room in the queue (R176). -/
theorem fioInputToken_room {rg : Rg} {i : BitVec 3} {w : BitVec 16} {s : State} (hw : ioWorks s rg i.toNat = true)
    (hin : ioInput (s.ioCfg rg i.toNat) i.toNat = true) (hm : ioImode (s.ioCfg rg i.toNat) i.toNat = 0)
    (hck : ioClocked s rg i.toNat = true) (hq : ((s.rgn rg).ioCell i.toNat).inQ.length < 4)
    (hrun : ∀ g : Rg, (s.rgn g).canvasStopped = false) :
    Completes (.fioInputToken rg i false w) s (fun t =>
      ((t.rgn rg).ioCell i.toNat).inQ = ((s.rgn rg).ioCell i.toNat).inQ ++ [BitVec.ofNat 16 (w.toNat % 2 ^ ioGear (s.ioCfg rg i.toNat))] ∧
      OnlyRegion rg s t) := by
  have hexec : execFioInputToken rg i false w s = .next (s.onRgn rg fun r => r.setIo i.toNat
      { (s.rgn rg).ioCell i.toNat with
        inQ := ((s.rgn rg).ioCell i.toNat).inQ ++ [BitVec.ofNat 16 (w.toNat % 2 ^ ioGear (s.ioCfg rg i.toNat))],
        pin := w.getLsbD (ioGear (s.ioCfg rg i.toNat) - 1) }) := by
    simp only [execFioInputToken, ioIndex, hw, hin, hm, hck, hq, Bool.false_eq_true, if_false, if_true, not_true_eq_false, or_self]
    rw [dropIo_running (canvasStopped_setIo hrun rg i.toNat fun _ => _)]
  refine ⟨_, hexec, ?_, (OnlyRegion.refl rg s).onRgn _⟩
  rw [State.ioCell_setIo]

/-- FIO_INPUT_TOKEN with a full queue (R178). -/
theorem fioInputToken_full {rg : Rg} {i : BitVec 3} {w : BitVec 16} {s : State} (hw : ioWorks s rg i.toNat = true)
    (hin : ioInput (s.ioCfg rg i.toNat) i.toNat = true) (hm : ioImode (s.ioCfg rg i.toNat) i.toNat = 0)
    (hck : ioClocked s rg i.toNat = true) (hq : ((s.rgn rg).ioCell i.toNat).inQ.length = 4) :
    Completes (.fioInputToken rg i false w) s (fun t =>
      ((t.rgn rg).ioCell i.toNat).inQ = ((s.rgn rg).ioCell i.toNat).inQ ∧
      t.rf rg F.CNV_IOERR_OVERRUN = min (s.rf rg F.CNV_IOERR_OVERRUN + 1) F.CNV_IOERR_OVERRUN.max) := by
  have hexec : execFioInputToken rg i false w s = .next (noteOverrun (s.onRgn rg fun r => r.setIo i.toNat
      { (s.rgn rg).ioCell i.toNat with pin := w.getLsbD (ioGear (s.ioCfg rg i.toNat) - 1) }) rg i.toNat) := by
    simp only [execFioInputToken, ioIndex, hw, hin, hm, hck, hq, Bool.false_eq_true, if_false, if_true, not_true_eq_false, or_self,
      Nat.lt_irrefl]
  refine ⟨_, hexec, ?_, ?_⟩
  · simp only [noteOverrun, State.bumpR, State.rgn_onRgn_same]
    show (((s.rgn rg).setIo i.toNat _).ioCell i.toNat).inQ = _
    rw [Region.ioCell_setIo_same]
  · rw [noteOverrun, State.rf_onRgn_same, Region.f_setReg_ne _ _ _ (by decide)]
    exact (State.rf_bumpR_eq _ _ _ _ (by decide)).trans (by rw [State.rf_onRgn_same]; rfl)

/-- LEVEL_REQUEST (R176). -/
theorem levelRequest_taken {rg : Rg} {i : BitVec 3} {level : Bool} {s : State} (hw : ioWorks s rg i.toNat = true)
    (hin : ioInput (s.ioCfg rg i.toNat) i.toNat = true) (hm : ioImode (s.ioCfg rg i.toNat) i.toNat = 2)
    (hq : ((s.rgn rg).ioCell i.toNat).inQ = []) (htok : (ioToken s rg i.toNat 2).isSome = true) :
    Completes (.levelRequest rg i false level) s (fun t => ((t.rgn rg).ioCell i.toNat).inQ = [if level then 1 else 0]) := by
  obtain ⟨⟨d, v⟩, htok⟩ := Option.isSome_iff_exists.mp htok
  have hexec : execLevelRequest rg i false level s = .next ((takeToken s d).onRgn rg fun r => r.setIo i.toNat
      { r.ioCell i.toNat with inQ := [ofBool 16 level], pin := level }) := by
    simp only [execLevelRequest, ioIndex, hw, hin, hm, hq, htok, Bool.false_eq_true, if_false, ne_eq, not_true_eq_false, or_self]
  refine ⟨_, hexec, (congrArg IoCell.inQ (State.ioCell_setIo _ _ _ _)).trans ?_⟩
  cases level <;> rfl

/-- The pin of an I/O cell has been seen at a level. -/
def pinSeen (s : State) (rg : Rg) (k : Nat) (level : Bool) : State :=
  s.onRgn rg fun r => r.setIo k { r.ioCell k with pin := level }

/-- EDGE_INPUT that counts every edge (R176). -/
theorem edgeInput_counts {rg : Rg} {i : BitVec 3} {s : State} (hw : ioWorks s rg i.toNat = true)
    (hin : ioInput (s.ioCfg rg i.toNat) i.toNat = true) (hm : ioImode (s.ioCfg rg i.toNat) i.toNat = 1)
    (hsel : ioEdgeSel (s.ioCfg rg i.toNat) i.toNat = 2) (hfew : ((s.rgn rg).ioCell i.toNat).edges ≠ 15) :
    Completes (.edgeInput rg i false true) s (fun t =>
      ((t.rgn rg).ioCell i.toNat).edges = ((s.rgn rg).ioCell i.toNat).edges + 1 ∧ OnlyRegion rg s t) := by
  have hpins : ¬ 4 ≤ numOf rg := by
    simp only [ioWorks, ioRuns, Bool.and_eq_true, decide_eq_true_eq] at hw
    omega
  have hu : ((pinSeen s rg i.toNat true).rgn rg).ioCell i.toNat = { (s.rgn rg).ioCell i.toNat with pin := true } :=
    State.ioCell_setIo s rg i.toNat fun r => { r.ioCell i.toNat with pin := true }
  have hwu : ioWorks (pinSeen s rg i.toNat true) rg i.toNat = true := (ioWorks_setIo s rg _ _ _).trans hw
  have hexec : execEdgeInput rg i false true s = .next ((pinSeen s rg i.toNat true).onRgn rg fun r => r.setIo i.toNat
      { ((pinSeen s rg i.toNat true).rgn rg).ioCell i.toNat with edges := (((pinSeen s rg i.toNat true).rgn rg).ioCell i.toNat).edges + 1 }) := by
    have hfewu : (((pinSeen s rg i.toNat true).rgn rg).ioCell i.toNat).edges ≠ 15 := by rw [hu]; exact hfew
    unfold execEdgeInput
    simp only [ioIndex, Bool.false_eq_true, if_false, hpins, hin, hm, hsel, ne_eq, not_true_eq_false, false_and]
    refine congrArg Host.Outcome.next ((if_neg ?_).trans (if_neg hfewu))
    simp only [or_false]
    exact not_not_intro hwu
  refine ⟨_, hexec, ?_, ((OnlyRegion.refl rg s).onRgn _).onRgn _⟩
  rw [State.ioCell_setIo, hu]

/-- FIO_OUTPUT_TOKEN with a token ready (R177). -/
theorem fioOutputToken_launches {rg : Rg} {i : BitVec 3} {v : BitVec 16} {rest : List (BitVec 16)} {s : State}
    (hw : ioWorks s rg i.toNat = true) (hdir : ioDir (s.ioCfg rg i.toNat) = 1 ∨ ioDir (s.ioCfg rg i.toNat) = 2)
    (hm : ioOmode (s.ioCfg rg i.toNat) i.toNat = 0) (hck : ioClocked s rg i.toNat = true)
    (hq : ((s.rgn rg).ioCell i.toNat).outQ = v :: rest) (htok : ioToken s rg i.toNat (ioData (s.ioCfg rg i.toNat) i.toNat) = none) :
    Completes (.fioOutputToken rg i false) s (fun t => ((t.rgn rg).ioCell i.toNat).outQ = rest ∧
      ((t.rgn rg).ioCell i.toNat).level = v.getLsbD (ioGear (s.ioCfg rg i.toNat) - 1) ∧ OnlyRegion rg s t) := by
  have hfill : fillOutQ s rg i.toNat (ioData (s.ioCfg rg i.toNat) i.toNat) = s := by rw [fillOutQ, htok]
  have hstop : ¬ (¬ ioWorks s rg i.toNat ∨ ioDir (s.ioCfg rg i.toNat) ≠ 1 ∧ ioDir (s.ioCfg rg i.toNat) ≠ 2) := by
    rw [hw]; rcases hdir with h | h <;> simp [h]
  have hexec : execFioOutputToken rg i false s = .next (s.onRgn rg fun r => r.setIo i.toNat
      { (s.rgn rg).ioCell i.toNat with outQ := rest, level := v.getLsbD (ioGear (s.ioCfg rg i.toNat) - 1) }) := by
    refine congrArg Host.Outcome.next ((if_neg hstop).trans ?_)
    simp only [ioIndex, Bool.false_eq_true, if_false, hm, hfill, hck, hq, not_true_eq_false]
  refine ⟨_, hexec, ?_, ?_, (OnlyRegion.refl rg s).onRgn _⟩ <;> rw [State.ioCell_setIo]

/-- ENABLE_TOKEN (R177). -/
theorem enableToken_taken {rg : Rg} {i : BitVec 3} {d : Drive} {v : BitVec 16} {s : State} (hw : ioWorks s rg i.toNat = true)
    (hdir : ioDir (s.ioCfg rg i.toNat) = 2) (htok : ioToken s rg i.toNat 2 = some (d, v)) :
    Completes (.enableToken rg i false) s (fun t => ((t.rgn rg).ioCell i.toNat).driven = v.getLsbD 0) := by
  have hexec : execEnableToken rg i false s = .next ((takeToken s d).onRgn rg fun r => r.setIo i.toNat
      { r.ioCell i.toNat with driven := v.getLsbD 0 }) := by
    simp only [execEnableToken, ioIndex, hw, hdir, htok, Bool.false_eq_true, if_false, ne_eq, not_true_eq_false, or_self]
  exact ⟨_, hexec, congrArg IoCell.driven (State.ioCell_setIo _ _ _ _)⟩

/-! ### Delays -/

theorem Region.showDelay_frame (r : Region) (k : Nat) : ∃ n, r.showDelay k = r.setF (F.CNV_FIO_DLY_BUSY k) n := ⟨_, rfl⟩

/-- The two delay fields of a pin after BUSY has been shown. -/
theorem Region.f_showDelay (r : Region) (k : Nat) :
    (r.showDelay k).f (F.CNV_FIO_DLY_IDELAY k) = r.f (F.CNV_FIO_DLY_IDELAY k) ∧
      (r.showDelay k).f (F.CNV_FIO_DLY_ODELAY k) = r.f (F.CNV_FIO_DLY_ODELAY k) := by
  obtain ⟨n, hn⟩ := r.showDelay_frame k
  rw [hn]
  exact ⟨Region.f_setF_other _ _ _ _ (by simp) (by simp), Region.f_setF_other _ _ _ _ (by simp) (by simp)⟩

/-- Both delays of a pin written. -/
theorem Region.f_setDelays (r : Region) (k a b : Nat) :
    ((r.setF (F.CNV_FIO_DLY_IDELAY k) a).setF (F.CNV_FIO_DLY_ODELAY k) b).f (F.CNV_FIO_DLY_IDELAY k) = a % 256 ∧
      ((r.setF (F.CNV_FIO_DLY_IDELAY k) a).setF (F.CNV_FIO_DLY_ODELAY k) b).f (F.CNV_FIO_DLY_ODELAY k) = b % 256 := by
  refine ⟨?_, Region.f_setF_eq _ _ _ (by simp)⟩
  rw [Region.f_setF_other _ _ _ _ (by simp) (by simp)]
  exact Region.f_setF_eq _ _ _ (by simp)

theorem delayTarget_parts (a b : BitVec 8) :
    (BitVec.ofNat 16 (a.toNat + 256 * b.toNat)).toNat % 256 = a.toNat ∧ (BitVec.ofNat 16 (a.toNat + 256 * b.toNat)).toNat / 256 = b.toNat := by
  rw [BitVec.toNat_ofNat]
  omega

theorem stepTo_lt {cur tgt n : Nat} (hc : cur < n) (ht : tgt < n) : stepTo cur tgt < n := by
  unfold stepTo
  split
  · omega
  · split <;> omega

/-- FIO_DLY without a running clock (R179). -/
theorem fioDly_atOnce {rg : Rg} (i : BitVec 3) (a b : BitVec 8) (s : State) (hpins : numOf rg < 4) :
    Completes (.fioDly rg i a b false) s (fun t => t.rf rg (F.CNV_FIO_DLY_IDELAY i.toNat) = a.toNat ∧
      t.rf rg (F.CNV_FIO_DLY_ODELAY i.toNat) = b.toNat ∧ t.rf rg (F.CNV_FIO_DLY_BUSY i.toNat) = 0 ∧ OnlyRegion rg s t) := by
  have hexec : execFioDly rg i a b false s = .next (writeDelay s rg i.toNat a.toNat b.toNat false) := by
    simp only [execFioDly, hpins, if_true, Bool.false_and]
  obtain ⟨ha, hb⟩ := delayTarget_parts a b
  have hset := fun r : Region => r.f_setDelays i.toNat a.toNat b.toNat
  simp only [Nat.mod_eq_of_lt a.isLt, Nat.mod_eq_of_lt b.isLt] at hset
  refine ⟨_, hexec, ?_, ?_, ?_, (OnlyRegion.refl rg s).onRgn _⟩ <;> rw [writeDelay, State.rf_onRgn_same] <;>
    simp only [Bool.false_eq_true, if_false]
  · rw [(Region.f_showDelay _ _).1]; exact (hset _).1
  · rw [(Region.f_showDelay _ _).2]; exact (hset _).2
  · unfold Region.showDelay
    rw [Region.f_setF_eq _ _ _ (by simp), if_pos]
    · rfl
    · rw [(hset _).1, (hset _).2]
      refine ⟨Eq.trans ?_ (congrArg (fun x : IoCell => x.dly.toNat % 256) (Region.ioCell_setIo_same (s.rgn rg) i.toNat _)).symm,
        Eq.trans ?_ (congrArg (fun x : IoCell => x.dly.toNat / 256) (Region.ioCell_setIo_same (s.rgn rg) i.toNat _)).symm⟩
      · exact ha.symm
      · exact hb.symm

/-- DELAY_STEP (R179). -/
theorem delayStep_moves {rg : Rg} (i : BitVec 3) (s : State) (hpins : numOf rg < 4) (hbusy : s.rf rg (F.CNV_FIO_DLY_BUSY i.toNat) = 1) :
    Completes (.delayStep rg i) s (fun t =>
      t.rf rg (F.CNV_FIO_DLY_IDELAY i.toNat) =
        stepTo (s.rf rg (F.CNV_FIO_DLY_IDELAY i.toNat)) (((s.rgn rg).ioCell i.toNat).dly.toNat % 256) ∧
      t.rf rg (F.CNV_FIO_DLY_ODELAY i.toNat) =
        stepTo (s.rf rg (F.CNV_FIO_DLY_ODELAY i.toNat)) (((s.rgn rg).ioCell i.toNat).dly.toNat / 256) ∧ OnlyRegion rg s t) := by
  have hbusy' : s.rbit rg (F.CNV_FIO_DLY_BUSY i.toNat) = true := by simp [State.rbit, hbusy]
  refine ⟨_, congrArg Host.Outcome.next (if_pos ⟨hpins, hbusy'⟩), ?_, ?_, (OnlyRegion.refl rg s).onRgn _⟩
  all_goals rw [State.rf_onRgn_same]; dsimp only
  · have hlt : stepTo ((s.rgn rg).f (F.CNV_FIO_DLY_IDELAY i.toNat)) (((s.rgn rg).ioCell i.toNat).dly.toNat % 256) < 256 :=
      stepTo_lt ((s.rgn rg).f_lt _) (by omega)
    rw [(Region.f_showDelay _ _).1, (Region.f_setDelays _ _ _ _).1, Nat.mod_eq_of_lt hlt]
    rfl
  · have hlt : stepTo ((s.rgn rg).f (F.CNV_FIO_DLY_ODELAY i.toNat)) (((s.rgn rg).ioCell i.toNat).dly.toNat / 256) < 256 :=
      stepTo_lt ((s.rgn rg).f_lt _) (by omega)
    rw [(Region.f_showDelay _ _).2, (Region.f_setDelays _ _ _ _).2, Region.f_setF_other _ _ _ _ (by simp) (by simp), Nat.mod_eq_of_lt hlt]
    rfl

/-! ### Supplies -/

/-- The supply of a quadrant's bank is noted as low or not. -/
def noteBank (s : State) (bit : Nat) (low : Bool) : State := { s with pwr := { s.pwr with lowBanks := setBit s.pwr.lowBanks bit low } }

/-- IO_SUPPLY_MISMATCH (R181). -/
theorem ioSupplyMismatch_watched (q : Quad) (s : State) (hwatch : s.supplyWatched = true) :
    Completes (.ioSupplyMismatch q false) s (fun t => t.rf (quadHome q.toNat) F.CNV_BANK_FIO_VOK = 0 ∧
      t.rf (quadHome q.toNat) F.CNV_BANK_VMISMATCH = 1 ∧
      OnlyRgnRegs (quadHome q.toNat) [R.CNV_BANK] { s with pwr := { s.pwr with lowBanks := t.pwr.lowBanks }, drawn := t.drawn } t) := by
  have hw : ¬ ¬ (noteBank (s.draw 1).2 (2 * q.toNat + false.toNat) ((s.draw 1).1 == 1#1)).supplyWatched = true := not_not_intro hwatch
  refine ⟨_, congrArg Host.Outcome.next (if_neg hw), ?_, State.rf_setRf_eq _ _ _ _ (by decide),
    ((OnlyRgnRegs.refl _ _ (noteBank (s.draw 1).2 _ _)).setRf (by decide) _).setRf (by decide) _⟩
  rw [State.rf_setRf_other _ _ _ _ _ (by decide) (by decide)]
  exact State.rf_setRf_eq _ _ _ _ (by decide)

/-- IO_SUPPLY_RETURN (R181). -/
theorem ioSupplyReturn_returns (q : Quad) (s : State) :
    Completes (.ioSupplyReturn q true) s (fun t => t.rf (quadHome q.toNat) F.CNV_BANK_UIO_VOK = 1 ∧
      t.pwr.lowBanks = setBit s.pwr.lowBanks (2 * q.toNat + 1) false ∧
      OnlyRgnRegs (quadHome q.toNat) [R.CNV_BANK] { s with pwr := { s.pwr with lowBanks := t.pwr.lowBanks } } t) :=
  ⟨_, rfl, State.rf_setRf_eq _ _ _ _ (by decide), rfl, (OnlyRgnRegs.refl _ _ (noteBank s (2 * q.toNat + true.toNat) false)).setRf (by decide) _⟩

/-- Settles O16. -/
theorem pinsOfARegion : Obligations.PinsOfARegion := by
  unfold Obligations.PinsOfARegion
  exact ⟨fun _ _ _ _ hw hin hm hck hq hrun => fioInputToken_room hw hin hm hck hq hrun,
    fun _ _ _ _ hw hin hm hck hq => fioInputToken_full hw hin hm hck hq,
    fun _ _ _ _ hw hin hm hq htok => levelRequest_taken hw hin hm hq htok,
    fun _ _ _ hw hin hm hsel hfew => edgeInput_counts hw hin hm hsel hfew,
    fun _ _ _ _ _ hw hdir hm hck hq htok => fioOutputToken_launches hw hdir hm hck hq htok,
    fun _ _ _ _ _ hw hdir htok => enableToken_taken hw hdir htok,
    fun _ i a b s hpins => fioDly_atOnce i a b s hpins,
    fun _ i s hpins hbusy => delayStep_moves i s hpins hbusy,
    fun q s hwatch => ioSupplyMismatch_watched q s hwatch,
    fun q s => ioSupplyReturn_returns q s⟩

end Sys2Proof.Machine
end

section
/-! PROOFS. A ready canvas cell fires (R149, R150). -/

namespace Sys2Proof.Machine

/-- With its latch clock quiet a cell reads an operand without a free value. -/
theorem cellOperand_quiet {s : State} {rg : Rg} {n : CellNo} (hclk : ((s.rgn rg).cell n).clk = false) (e : BitVec 32) (src port : Nat) :
    (cellOperand s rg n e src port).2 = s := by
  unfold cellOperand
  split
  · rfl
  · rfl
  · rfl
  · simp [readQ, hclk]

/-- What a cell holds is no part of what stops the canvas. -/
theorem canvasStopped_setCell {s u : State} (h : TokensMove s u) (hs : ∀ g : Rg, (s.rgn g).canvasStopped = false) {rg : Rg} (n : CellNo)
    (x : Region → Cell) (g : Rg) : ((u.onRgn rg fun r => r.setCell n (x r)).rgn g).canvasStopped = false := by
  have hu : (u.rgn g).canvasStopped = false := (h.canvasStopped g).trans (hs g)
  by_cases hg : g = rg
  · subst hg; rw [State.rgn_onRgn_same]; exact hu
  · rw [State.rgn_onRgn_ne _ _ hg]; exact hu

/-- The inputs that an entry reads have been acknowledged. -/
def inputsTaken (s : State) (rg : Rg) (n : CellNo) (ports : List Nat) : State := foldS ports s (fun s p => takeInput s rg n p)

theorem inputsTaken_moves (s : State) (rg : Rg) (n : CellNo) (ports : List Nat) : TokensMove s (inputsTaken s rg n ports) :=
  (TokensMove.refl s).foldS ports fun _ p hu => hu.takeInput rg n p

/-- What a ready cell computes. -/
def cellResult (s : State) (rg : Rg) (n : CellNo) (op : Nat) : CellOut :=
  cellCompute op (entMod (cellE s rg n)) (cellA s rg n) (cellB s rg n) (if op = 0x07 then false else cellC s rg n) ((s.rgn rg).cell n).acc

/-- The flags that it emits. -/
def cellEmitsFlags (s : State) (rg : Rg) (n : CellNo) (op : Nat) : Option (BitVec 4) :=
  if (cellE s rg n).getLsbD 14 then
    some (cellFlags op (s.cellCfg rg n) (cellA s rg n) (cellResult s rg n op) [(cellResult s rg n op).res])
  else none

/-- The cell takes its results where an entry of the table below FORK fires alone. -/
theorem fireCells_alone {s : State} {rg : Rg} {n : CellNo} {op : Nat} (hop : entOpc (cellE s rg n) = op) (hrsvd : reservedOpc op true = false)
    (hlow : op < 0x10) (hclk : ((s.rgn rg).cell n).clk = false) (hrun : ∀ g : Rg, (s.rgn g).canvasStopped = false) :
    ∃ u, TokensMove s u ∧ fireCells s rg (cfgSdef (s.cellCfg rg n)) false [] true [n] =
      u.onRgn rg (fun r => r.setCell n (Cell.fired (s.cellCfg rg n) (cellE s rg n) (cellResult s rg n op) (cellEmitsFlags s rg n op) (r.cell n))) := by
  have hfork : (op == 0x10) = false := by simp; omega
  have hsteer : (op != 0x13) = true := by simp; omega
  refine ⟨inputsTaken s rg n (entryPorts (cellE s rg n) true), inputsTaken_moves _ _ _ _, ?_⟩
  have hmoves := inputsTaken_moves s rg n (entryPorts (cellE s rg n) true)
  have hq := fun e src port => cellOperand_quiet hclk e src port
  unfold fireCells
  simp only [hop, hrsvd, hfork, hsteer, hq, Bool.not_true, Bool.and_false, Bool.false_eq_true, if_false, Bool.false_and, Bool.not_false,
    List.filter_true, List.nil_append, List.isEmpty_nil, Bool.and_true, fireCells]
  exact dropCrossing_running (canvasStopped_setCell hmoves hrun _ _) rg n

theorem Cell.follow_keeps (b : BitVec 2048) (x : Cell) :
    (Cell.follow b x).acc = x.acc ∧ (Cell.follow b x).y0 = x.y0 ∧ (Cell.follow b x).f = x.f := by
  unfold Cell.follow
  split <;> exact ⟨rfl, rfl, rfl⟩

/-- A ready cell fires its operation: what it then holds. -/
theorem fire_ready {s : State} {rg : Rg} {n : CellNo} {op out : Nat} (h : CellReady s rg n op out) (hrsvd : reservedOpc op true = false)
    (hlow : op < 0x10) (hemit : entryEmits (cellE s rg n) true = true) :
    ((((fire s rg n op).rgn rg).cell n).y0 = if (cellE s rg n).getLsbD 12 then (cellResult s rg n op).y0 else none) ∧
      (((fire s rg n op).rgn rg).cell n).acc = (cellResult s rg n op).acc ∧
      (((fire s rg n op).rgn rg).cell n).f = cellEmitsFlags s rg n op := by
  obtain ⟨hmode, hchain, hssrc, hop, hout, hfree, hready, hclk, hrun⟩ := h
  have hcells : firingCells s rg n = [n] := by
    simp only [firingCells, hmode, hchain, ne_eq, not_true_eq_false, if_false, if_true]
  have hsel : selectedEntry s rg n = some (cfgSdef (s.cellCfg rg n)) := by
    simp only [selectedEntry, hssrc, Bool.false_eq_true, if_false]
  have hacts : firingActs s rg (cfgSdef (s.cellCfg rg n)) true [n] = true := by
    simp only [firingActs, List.isEmpty_nil, hemit, Bool.or_true, Bool.true_or]
  have htakeS : takeS s rg n = s := by
    simp only [takeS, hssrc, Bool.false_eq_true, if_false]
  obtain ⟨u, hmoves, hfire⟩ := fireCells_alone hop hrsvd hlow hclk hrun
  have heq : fire s rg n op = u.onRgn rg (fun r => r.setCell n
      (Cell.fired (s.cellCfg rg n) (cellE s rg n) (cellResult s rg n op) (cellEmitsFlags s rg n op) (r.cell n))) := by
    unfold fire
    simp only [hcells, hsel, htakeS, hfire]
    refine if_pos ⟨List.cons_ne_nil _ _, hop, ?_, hready, Or.inr hacts⟩
    simp only [List.all_cons, List.all_nil, hfree, Bool.and_true]
  obtain ⟨hacc, hy0, hf⟩ := Cell.follow_keeps (s.cellCfg rg n) { (u.rgn rg).cell n with
    acc := (cellResult s rg n op).acc, hold := (cellResult s rg n op).y0.getD ((u.rgn rg).cell n).hold,
    y0 := if (cellE s rg n).getLsbD 12 then (cellResult s rg n op).y0 else none,
    y1 := if (cellE s rg n).getLsbD 13 then (cellResult s rg n op).y1 else none, f := cellEmitsFlags s rg n op }
  rw [heq, State.rgn_onRgn_same, Region.cell_setCell_same]
  exact ⟨hy0, hacc, hf⟩

/-- An operation that produces a Y0 emits it where the entry enables it. -/
theorem entryEmits_y0 {s : State} {rg : Rg} {n : CellNo} {op : Nat} (h : CellReady s rg n op 12) (hrsvd : reservedOpc op true = false)
    (hy0 : op ≠ 0x07 ∧ op ≠ 0x0A) : entryEmits (cellE s rg n) true = true := by
  obtain ⟨-, -, -, hop, hout, -⟩ := h
  simp only [entryEmits, hop, hrsvd, hout, hy0, bne_iff_ne, Bool.and_eq_true, Bool.or_eq_true, ne_eq, not_false_eq_true, and_self, true_or,
    Bool.not_false]

/-- A ready cell whose operation produces `v` on Y0 and keeps the accumulator. -/
theorem fire_y0 {s : State} {rg : Rg} {n : CellNo} {op : Nat} {v : BitVec 16} (h : CellReady s rg n op 12)
    (hrsvd : reservedOpc op true = false) (hlow : op < 0x10) (hop : op ≠ 0x07 ∧ op ≠ 0x0A) (hv : (cellResult s rg n op).y0 = some v)
    (hacc : (cellResult s rg n op).acc = ((s.rgn rg).cell n).acc) :
    (((fire s rg n op).rgn rg).cell n).y0 = some v ∧ (((fire s rg n op).rgn rg).cell n).acc = ((s.rgn rg).cell n).acc := by
  obtain ⟨hy0, hacc', -⟩ := fire_ready h hrsvd hlow (entryEmits_y0 h hrsvd hop)
  obtain ⟨-, -, -, -, hout, -⟩ := h
  exact ⟨hy0.trans (by rw [if_pos hout, hv]), hacc'.trans hacc⟩

theorem add16_value (a b : BitVec 16) (c : Bool) : (add16 a b c).1 = a + b + (if c then 1 else 0) := by
  refine BitVec.eq_of_toNat_eq ?_
  cases c <;> simp [add16]

/-! ### CMP -/

/-- Without a borrow in, the sign of a difference corrected by its overflow tells which operand is less. -/
theorem sub16_signed (a b : BitVec 16) :
    xor ((sub16 a b false).1.getLsbD 15) (sub16 a b false).2.2 = decide (a.toInt < b.toInt) := by
  have hv : (sub16 a b false).1 = a - b := by simp [sub16]
  have hovf : (sub16 a b false).2.2 = decide (a.toInt - b.toInt ≠ (a - b).toInt) := by simp [sub16]
  have hsign : (a - b).getLsbD 15 = decide ((a - b).toInt < 0) := by rw [← BitVec.msb_eq_toInt]; rfl
  have hdiff : (a - b).toInt = (a.toInt - b.toInt).bmod 65536 := BitVec.toInt_sub
  have ha := a.toInt_lt; have ha' := a.le_toInt
  have hb := b.toInt_lt; have hb' := b.le_toInt
  rw [hv, hovf, hsign, hdiff, Int.bmod_def]
  generalize a.toInt = x at *
  generalize b.toInt = y at *
  rw [Bool.eq_iff_iff]
  simp only [← Bool.bne_eq_xor, bne_iff_ne, ne_eq, decide_eq_decide, decide_eq_true_eq]
  split <;> omega

theorem flags3_bits (x y z : Bool) :
    (BitVec.ofNat 4 (x.toNat + 2 * y.toNat + 4 * z.toNat)).getLsbD 0 = x ∧ (BitVec.ofNat 4 (x.toNat + 2 * y.toNat + 4 * z.toNat)).getLsbD 1 = y ∧
      (BitVec.ofNat 4 (x.toNat + 2 * y.toNat + 4 * z.toNat)).getLsbD 2 = z := by
  revert x y z; decide

theorem cmp_zero (a b : BitVec 16) : ([(sub16 a b false).1].all fun v => decide (v = 0)) = decide (a = b) := by
  have hv : (sub16 a b false).1 = a - b := by simp [sub16]
  simp only [List.all_cons, List.all_nil, Bool.and_true, hv, decide_eq_decide]
  exact sub_eq_zero

theorem fire_cmp {s : State} {rg : Rg} {n : CellNo} (h : CellReady s rg n 0x07 14) :
    (∃ f : BitVec 4, (((fire s rg n 0x07).rgn rg).cell n).f = some f ∧ f.getLsbD 0 = decide (cellA s rg n = cellB s rg n) ∧
        f.getLsbD 1 = decide ((cellA s rg n).toNat < (cellB s rg n).toNat) ∧
        f.getLsbD 2 = decide ((cellA s rg n).toInt < (cellB s rg n).toInt)) ∧
      (((fire s rg n 0x07).rgn rg).cell n).y0 = none := by
  have hemit : entryEmits (cellE s rg n) true = true := by
    obtain ⟨-, -, -, hop, hout, -⟩ := h
    simp [entryEmits, hop, hout, reservedOpc]
  obtain ⟨hy0, -, hf⟩ := fire_ready h rfl (by decide) hemit
  obtain ⟨-, -, -, -, hout, -⟩ := h
  obtain ⟨hzero, hborrow, hless⟩ := flags3_bits ([(sub16 (cellA s rg n) (cellB s rg n) false).1].all fun v => decide (v = 0))
    (sub16 (cellA s rg n) (cellB s rg n) false).2.1
    (xor ((sub16 (cellA s rg n) (cellB s rg n) false).1.getLsbD 15) (sub16 (cellA s rg n) (cellB s rg n) false).2.2)
  refine ⟨⟨_, hf.trans (if_pos hout), hzero.trans (cmp_zero _ _), hborrow, hless.trans (sub16_signed _ _)⟩, ?_⟩
  rw [hy0]
  exact ite_self _

/-- Settles O14. -/
theorem canvasOperations : Obligations.CanvasOperations := by
  unfold Obligations.CanvasOperations
  refine ⟨fun rg n s h => ⟨_, rfl, fire_y0 h rfl (by decide) (by decide) rfl rfl⟩,
    fun rg n s h => ⟨_, rfl, fire_y0 h rfl (by decide) (by decide) (congrArg some (add16_value _ _ _)) rfl⟩,
    fun rg n s h => ⟨_, rfl, fire_y0 h rfl (by decide) (by decide) rfl rfl⟩,
    fun rg n s h => ⟨_, rfl, fire_y0 h rfl (by decide) (by decide) rfl rfl⟩,
    fun rg n s h => ⟨_, rfl, fire_y0 h rfl (by decide) (by decide) rfl rfl⟩,
    fun rg n s h => ⟨_, rfl, fire_y0 h rfl (by decide) (by decide) rfl rfl⟩,
    fun rg n s h hm => ⟨_, rfl, fire_y0 h rfl (by decide) (by decide) ?_ rfl⟩,
    fun rg n s h hm => ⟨_, rfl, (fire_y0 h rfl (by decide) (by decide) ?_ rfl).1⟩,
    fun rg n s h => ⟨_, rfl, fire_cmp h⟩⟩
  · rw [cellResult, hm]; rfl
  · rw [cellResult, hm]; rfl

end Sys2Proof.Machine
end

section
/-! PROOFS. What the steps of an isolation leave alone (R28, R166, R367). -/

namespace Sys2Proof.Machine

/-- The hub registers that no containment writes: the temperatures, the loader's but for the retouch port's, the scrubber's, the
partitions', the links' and the fabric's. -/
def QuietReg (a : Nat) : Prop := (0x30804 ≤ a ∧ a < 0x31000) ∨ (0x60000 ≤ a ∧ a < 0x61000) ∨ (0x62000 ≤ a ∧ a < 0x90000)

/-- A register that stands neither there nor in the job table, and is not the power status. -/
def LoudReg (a : Nat) : Prop :=
  a < 0x30008 ∨ (0x3000C ≤ a ∧ a < 0x30804) ∨ (0x31000 ≤ a ∧ a < 0x50800) ∨ (0x51000 ≤ a ∧ a < 0x60000) ∨ (0x61000 ≤ a ∧ a < 0x62000) ∨
    0x90000 ≤ a

theorem loud {a : Nat} (h : a < 0x30008 ∨ (0x3000C ≤ a ∧ a < 0x30804) ∨ (0x31000 ≤ a ∧ a < 0x50800) ∨ (0x51000 ≤ a ∧ a < 0x60000) ∨
    (0x61000 ≤ a ∧ a < 0x62000) ∨ 0x90000 ≤ a) : LoudReg a := h

/-- From `s` to `t` neither the quiet registers nor the flash nor the meridian receiver have changed. -/
structure Aside (s t : State) : Prop where
  reg : ∀ a, QuietReg a → t.reg a = s.reg a
  flash : t.flash = s.flash
  mer : t.mer = s.mer

theorem Aside.refl (s : State) : Aside s s := ⟨fun _ _ => rfl, rfl, rfl⟩

theorem Aside.trans {s t u : State} (h : Aside s t) (h' : Aside t u) : Aside s u :=
  ⟨fun a ha => (h'.reg a ha).trans (h.reg a ha), h'.flash.trans h.flash, h'.mer.trans h.mer⟩

theorem Aside.f {s t : State} (h : Aside s t) {x : Fld} (hx : QuietReg x.off) : t.f x = s.f x := congrArg x.of (h.reg x.off hx)

/-- From `s` to `t` something has been contained: besides, the regions' control and status and fix state, the debug port and the parked pins
are as they were, the throttle stands, and a job that had failed has. -/
structure Contains (s t : State) : Prop extends Aside s t where
  rf : ∀ rg (x : Fld), x.off = R.RGN_CTRL ∨ x.off = R.RGN_STATUS ∨ x.off = R.FIX_STATUS → t.rf rg x = s.rf rg x
  dbg : t.dbg = s.dbg
  parked : t.gpio.parked = s.gpio.parked
  throttled : t.f F.PWR_STATUS_THR_TEMP = s.f F.PWR_STATUS_THR_TEMP
  failed : ∀ j : Job, s.f (F.MER_JOB_CTRL_FAILED j.toNat) = 1 → t.f (F.MER_JOB_CTRL_FAILED j.toNat) = 1

/-- What the relation speaks of. -/
abbrev State.contained (s : State) : SMap Word × SMap Region × Flash × Meridian × Debug × BitVec 12 :=
  (s.regs, s.rgns, s.flash, s.mer, s.dbg, s.gpio.parked)

namespace Contains

theorem refl (s : State) : Contains s s := ⟨Aside.refl s, fun _ _ _ => rfl, rfl, rfl, rfl, fun _ h => h⟩

theorem trans {s t u : State} (h : Contains s t) (h' : Contains t u) : Contains s u :=
  ⟨h.toAside.trans h'.toAside, fun rg x hx => (h'.rf rg x hx).trans (h.rf rg x hx), h'.dbg.trans h.dbg, h'.parked.trans h.parked,
    h'.throttled.trans h.throttled, fun j hj => h'.failed j (h.failed j hj)⟩

variable {s t : State}

/-- An update that the relation does not speak of. -/
theorem other (h : Contains s t) {u : State} (hu : u.contained = t.contained) : Contains s u := by
  simp only [State.contained, Prod.mk.injEq] at hu
  obtain ⟨hregs, hrgns, hflash, hmer, hdbg, hparked⟩ := hu
  refine h.trans ⟨⟨fun a _ => ?_, hflash, hmer⟩, fun rg x _ => ?_, hdbg, hparked, State.f_of_regs hregs _, fun j hj => ?_⟩
  · simp only [State.reg, hregs]
  · simp only [State.rf, State.rgn, hrgns]
  · rwa [State.f_of_regs hregs]

theorem setRegOutside (h : Contains s t) (a : Nat) (v : Word) (hq : ¬ QuietReg a) (hp : R.PWR_STATUS ≠ a)
    (ha : ∀ j : Job, R.MER_JOB_CTRL j.toNat ≠ a) : Contains s (t.setReg a v) :=
  h.trans ⟨⟨fun b hb => State.reg_setReg_other t v (fun e => hq (e ▸ hb)), rfl, rfl⟩, fun _ _ _ => rfl, rfl, rfl,
    State.f_setReg_other t _ v hp, fun j hj => (State.f_setReg_other t _ v (ha j)).trans hj⟩

theorem setReg (h : Contains s t) (a : Nat) (v : Word) (ha : LoudReg a) : Contains s (t.setReg a v) := by
  refine h.setRegOutside a v ?_ ?_ fun j => ?_
  · unfold LoudReg QuietReg at *
    omega
  · unfold LoudReg R.PWR_STATUS at *
    omega
  · have := j.isLt
    unfold LoudReg R.MER_JOB_CTRL at *
    omega

theorem bump (h : Contains s t) (x : Fld) (k : Nat) (ha : LoudReg x.off) : Contains s (t.bump x k) := h.setReg _ _ ha

/-- A field of a job's control register that stands apart from FAILED. -/
theorem setJobF (h : Contains s t) {x : Fld} {j : Job} (n : Nat) (hoff : x.off = R.MER_JOB_CTRL j.toNat)
    (hx : x.lo + x.w ≤ 5 ∨ 6 ≤ x.lo ∧ x.lo + x.w ≤ 32) : Contains s (t.setF x n) := by
  have hq : ¬ QuietReg x.off := by
    have := j.isLt
    rw [hoff]
    unfold QuietReg R.MER_JOB_CTRL
    omega
  have hp : F.PWR_STATUS_THR_TEMP.off ≠ x.off := by
    rw [hoff]
    unfold R.MER_JOB_CTRL
    dsimp only
    omega
  exact h.trans ⟨⟨fun b hb => State.reg_setF_other t x n (fun e => hq (e ▸ hb)), rfl, rfl⟩, fun _ _ _ => rfl, rfl, rfl,
    State.f_setReg_other t _ _ hp, fun k hk => (State.f_setF_other t x _ n (by omega) (Or.inr (by dsimp only; omega))).trans hk⟩

/-- A field of the power status that stands apart from the throttle. -/
theorem setStatusF (h : Contains s t) {x : Fld} (n : Nat) (hoff : x.off = R.PWR_STATUS) (hx : x.lo + x.w ≤ 4 ∨ 5 ≤ x.lo ∧ x.lo + x.w ≤ 32) :
    Contains s (t.setF x n) := by
  have hq : ¬ QuietReg x.off := by
    rw [hoff]
    unfold QuietReg
    decide
  exact h.trans ⟨⟨fun b hb => State.reg_setF_other t x n (fun e => hq (e ▸ hb)), rfl, rfl⟩, fun _ _ _ => rfl, rfl, rfl,
    State.f_setF_other t x _ n (by omega) (Or.inr (by dsimp only; omega)),
    fun j hj => (State.f_setReg_other t _ _ (by rw [hoff]; unfold R.PWR_STATUS; dsimp only; omega)).trans hj⟩

theorem onRgn (h : Contains s t) (rg : Rg) {g : Region → Region}
    (hg : ∀ x : Fld, x.off = R.RGN_CTRL ∨ x.off = R.RGN_STATUS ∨ x.off = R.FIX_STATUS → (g (t.rgn rg)).f x = (t.rgn rg).f x) :
    Contains s (t.onRgn rg g) := by
  refine h.trans ⟨⟨fun _ _ => rfl, rfl, rfl⟩, fun rh x hx => ?_, rfl, rfl, rfl, fun _ hj => hj⟩
  by_cases hr : rh = rg
  · subst hr; rw [State.rf_onRgn_same]; exact hg x hx
  · exact State.rf_onRgn_other _ _ _ hr

theorem foldS {α : Type} {f : State → α → State} (h : Contains s t) (l : List α) (hf : ∀ u, ∀ a ∈ l, Contains s u → Contains s (f u a)) :
    Contains s (Machine.foldS l t f) :=
  foldS_induct (P := Contains s) l hf h

theorem ibi (h : Contains s t) {cls : Nat} (loc arg : Nat) (hc : cls < 32) : Contains s (t.ibi cls loc arg) := by
  unfold State.ibi
  split
  · exact h.bump _ _ (loud (by decide))
  · have hp := h.setReg R.HIF_IBI_PEND (t.reg R.HIF_IBI_PEND ||| (1 <<< cls)) (loud (by decide))
    have hinfo : ∀ {u : State}, Contains s u → Contains s ((u.setF (F.HIF_IBI_INFO_LOC cls) loc).setF (F.HIF_IBI_INFO_ARG cls) arg) := fun hu =>
      (hu.setReg _ _ (loud (by dsimp only; omega))).setReg _ _ (loud (by dsimp only; omega))
    refine hinfo ?_
    split
    · exact hp.other rfl
    · exact hp

theorem draw (h : Contains s t) (w : Nat) : Contains s (t.draw w).2 := h.other rfl

theorem findsRoom (h : Contains s t) (key places : Nat) : Contains s (t.findsRoom key places).2 := by
  unfold State.findsRoom
  have hpair : ∀ {u : State} (n : Nat), Contains s u →
      Contains s (if n < places then (true, u) else ((u.draw 1).1 == 1#1, (u.draw 1).2)).2 := by
    intro u n hu
    split
    · exact hu
    · exact hu.draw 1
  exact hpair _ (h.other rfl)

theorem noteFault (h : Contains s t) {src l : Nat} (key : Word) (hsrc : src < 32) (hl : l < 8) : Contains s (t.noteFault src l key) := by
  have hroom : ∀ (b : Bool) {u}, Contains s u → Contains s (if b then u.bump (F.FLT_CNT_EVENTS src l) 1 else u.bump F.SEM_XSTAT_OVERRUN 1) := by
    intro b u hu
    split
    · exact hu.bump (F.FLT_CNT_EVENTS src l) 1 (loud (by dsimp only; omega))
    · exact hu.bump _ _ (loud (by decide))
  have hqueue : ∀ {u}, Contains s u → Contains s (if (SMap.get [] u.faultQ l).length < 64 then
      { u with faultQ := SMap.set [] u.faultQ l (SMap.get [] u.faultQ l ++ [(BitVec.ofNat 5 src, key)]) }
      else u.setF F.FLT_STATUS_KEY_LOST 1) := by
    intro u hu
    split
    · exact hu.other rfl
    · exact hu.setReg _ _ (loud (by decide))
  exact hqueue (hroom _ (h.findsRoom _ _))

theorem tokens (h : Contains s t) {u : State} (hu : TokensMove t u) : Contains s u := by
  refine h.trans ⟨⟨fun a _ => ?_, ?_, ?_⟩, fun rg x _ => ?_, ?_, ?_, ?_, fun j hj => ?_⟩
  · rw [hu.others]; rfl
  · rw [hu.others]
  · rw [hu.others]
  · rw [State.rf, hu.region rg]; rfl
  · rw [hu.others]
  · rw [hu.others]
  · rw [hu.others]; rfl
  · rw [hu.others]; exact hj

/-! ### The steps of an isolation -/

theorem abandonTest (h : Contains s t) (rg : Rg) : Contains s (abandonTest t rg) := by
  have hreg : LoudReg (testingReg rg) := loud (by unfold testingReg; split <;> decide)
  unfold Machine.abandonTest
  split
  · exact h
  · exact (((h.setReg _ _ hreg).setReg _ _ (loud (by decide))).setReg _ _ (loud (by decide))).other rfl

theorem endStall (h : Contains s t) (rg : Rg) (c : Cl) : Contains s (endStall t rg c) := by
  unfold Machine.endStall
  split
  · refine (h.draw 32).onRgn rg fun x hx => Region.f_setReg_ne _ _ _ ?_
    have hoff : x.off < 0x4000 := by rcases hx with hx | hx | hx <;> rw [hx] <;> decide
    show x.off ≠ 0x4018 + 256 * c.toNat
    omega
  · exact h

theorem flushRegion (h : Contains s t) (rg : Rg) : Contains s (flushRegion t rg) := by
  have hcross : Contains s (Machine.flushCrossings t) := (h.draw 8).bump _ _ (loud (by decide))
  exact (hcross.tokens ((TokensMove.refl _).dropTokens _)).other rfl

theorem breakSem (h : Contains s t) {n : Nat} (hn : n < 32) : Contains s (breakSem t n) := by
  unfold Machine.breakSem
  split
  · exact h
  · have hsem := fun v => (((h.setReg (R.SEM_HOLDER n) 0 (loud (by unfold R.SEM_HOLDER; omega))).setReg (R.SEM_HOLD_TIME n) 0
      (loud (by unfold R.SEM_HOLD_TIME; omega))).setReg R.SEM_STATUS v (loud (by decide))).bump F.SEM_COUNTS_BROKEN 1
      (loud (by decide)) |>.noteFault (src := 19) (l := 4) (faultKey [(n, 5)]) (by decide) (by decide)
    dsimp only
    split
    · exact ((hsem _).setReg F.SEM_ALERT_ALERT.off _ (loud (by decide))).ibi _ _ (by decide)
    · exact hsem _

theorem breakOwned (h : Contains s t) (p : Node → Bool) : Contains s (breakOwned t p) := by
  refine h.foldS _ fun u n hn hu => ?_
  split
  · exact hu.breakSem (List.mem_range.mp hn)
  · exact hu

/-! ### A job's failure -/

theorem startChecks (h : Contains s t) (j : Job) : Contains s (startChecks t j) := by
  refine h.foldS _ fun u rg _ hu => ?_
  split
  · exact hu.onRgn rg fun _ _ => rfl
  · exact hu

theorem resumeSoon (h : Contains s t) (j : Job) : Contains s (resumeSoon t j) := by
  unfold Machine.resumeSoon
  split
  · exact (h.startChecks j).other rfl
  · exact h

theorem returnJob (h : Contains s t) (j : Job) : Contains s (returnJob t j) := by
  have hjob : Contains s (t.setJob j { t.job j with byPackage := false }) := h.other rfl
  unfold Machine.returnJob
  dsimp only
  split
  · exact hjob.setJobF _ rfl (by simp)
  · exact hjob.resumeSoon j

theorem showQuads (h : Contains s t) : Contains s (showQuads t) := by
  refine h.foldS _ fun u q hq hu => ?_
  have := List.mem_range.mp hq
  exact hu.setReg _ _ (loud (by dsimp only; omega))

theorem setPwr (h : Contains s t) (st : Nat) : Contains s (setPwr t st) :=
  (h.setStatusF (x := F.PWR_STATUS_STATE) st rfl (by decide)).showQuads

theorem beginDrain (h : Contains s t) (st : BitVec 3) : Contains s (beginDrain t st) := by
  have hpwr : Contains s (if t.pwrState = 0 then Machine.setPwr t 1 else t) := by
    split
    · exact h.setPwr 1
    · exact h
  have htests := hpwr.foldS allRegions (f := Machine.abandonTest) fun u rg _ hu => hu.abandonTest rg
  have hdrain : ∀ {u}, Contains s u → Contains s ({ u with refusing := 31 }.setDrain 4 (.enter st)) := fun hu => hu.other rfl
  exact (hdrain htests).setStatusF (x := F.PWR_STATUS_ENTERING) 1 rfl (by decide)

theorem reachHold (h : Contains s t) : Contains s (reachHold t) :=
  (((h.setPwr 1).other rfl : Contains s ((Machine.setPwr t 1).setDrain 4 .none)).setStatusF
    (x := F.PWR_STATUS_ENTERING) 0 rfl (by decide)).bump F.PWR_COUNTS_ENTRIES 1 (loud (by decide))

theorem settleHold (h : Contains s t) : Contains s (settleHold t) := by
  unfold Machine.settleHold
  split
  · split
    · exact h
    · split
      · exact h.reachHold
      · exact h.beginDrain _
  · exact h

theorem jobHeld (h : Contains s t) (j : Job) : Contains s (jobHeld t j) := by
  unfold Machine.jobHeld
  split
  · exact h
  · extract_lets rs held
    split
    · refine settleHold ?_
      refine (fun {u} (hu : Contains s u) => ?_ : ∀ {u}, Contains s u → Contains s (if (u.job j).byPackage then Machine.returnJob u j else u)) ?_
      · split
        · exact hu.returnJob j
        · exact hu
      · have hheld : ∀ v, Contains s ((t.setF (F.MER_JOB_CTRL_HELD j.toNat) 1).setReg (R.MER_HOLD_CYCLE j.toNat) v) := fun v =>
          (h.setJobF (x := F.MER_JOB_CTRL_HELD j.toNat) 1 rfl (by simp)).setRegOutside _ _
            (by have := j.isLt; unfold QuietReg R.MER_HOLD_CYCLE; omega) (by unfold R.PWR_STATUS R.MER_HOLD_CYCLE; omega) fun k => by unfold R.MER_JOB_CTRL R.MER_HOLD_CYCLE; omega
        refine (((hheld _).foldS _ fun u rg _ hu => ?_)).ibi _ _ (by decide)
        split
        · exact hu.onRgn rg fun x hx => Region.f_setReg_ne _ _ _ (by rcases hx with hx | hx | hx <;> rw [hx] <;> decide)
        · exact hu
    · exact h

theorem requestHold (h : Contains s t) (j : Job) (cause : Nat) (least : BitVec 48) : Contains s (requestHold t j cause least) := by
  unfold Machine.requestHold
  extract_lets rs held stands
  split
  · exact h
  · exact (((h.other rfl : Contains s (t.setJob j { t.job j with hold := some (BitVec.ofNat 48 held) })).setJobF
      (x := F.MER_JOB_CTRL_HOLD_CAUSE j.toNat) cause rfl (by simp))).jobHeld j

/-- A job that fails: its FAILED bit reads 1, and the rest is contained. -/
theorem failJob (h : Contains s t) (j : Job) : Contains s (failJob t j) ∧ (Machine.failJob t j).f (F.MER_JOB_CTRL_FAILED j.toNat) = 1 := by
  have hset : Contains s (t.setF (F.MER_JOB_CTRL_FAILED j.toNat) 1) := by
    have hq : ¬ QuietReg (R.MER_JOB_CTRL j.toNat) := by
      have := j.isLt
      unfold QuietReg R.MER_JOB_CTRL
      omega
    refine h.trans ⟨⟨fun b hb => State.reg_setF_other t _ 1 (fun e => by subst e; exact hq hb), rfl, rfl⟩, fun _ _ _ => rfl, rfl, rfl,
      State.f_setReg_other t _ _ (by dsimp only; omega), fun k hk => ?_⟩
    by_cases hkj : k = j
    · subst hkj; exact State.f_setF_eq _ _ _ (by simp)
    · have hne : k.toNat ≠ j.toNat := fun e => hkj (BitVec.eq_of_toNat_eq e)
      rw [State.f_setF_other _ _ _ _ (by simp) (Or.inl (by dsimp only; omega))]
      exact hk
  have hrest : ∀ {u v : State}, Contains u v → Contains u (Machine.settleHold (Machine.jobHeld (Machine.requestHold
      (v.ibi 0x03 (match v.jobRegions j with | rg :: _ => locOf rg | [] => 0) j.toNat) j 3 0) j)) := fun hv =>
    (((hv.ibi _ _ (by decide)).requestHold j 3 0).jobHeld j).settleHold
  exact ⟨hrest hset, (hrest (Contains.refl _)).failed j (State.f_setF_eq _ _ _ (by simp))⟩

end Contains

end Sys2Proof.Machine
end

section
/-! PROOFS. Isolation, gating and the region resets (R24–R28, R107, R501). -/

namespace Sys2Proof.Machine

/-! ### A gated region -/

theorem SMap.get_keep_out {α : Type} (d : α) (p : Nat → Bool) (m : SMap α) {k : Nat} (hk : p k = false) : SMap.get d (SMap.keep p m) k = d := by
  induction m with
  | nil => rfl
  | cons e m ih =>
    obtain ⟨k', v⟩ := e
    unfold SMap.keep at ih ⊢
    rw [List.filter_cons]
    split
    · rename_i hp
      have hne : k' ≠ k := fun he => by subst he; exact absurd hp (by simp [hk])
      exact (if_neg hne).trans ih
    · exact ih

theorem foldl_keeps {α β : Type} {P : β → Prop} {f : β → α → β} (hf : ∀ b a, P b → P (f b a)) (l : List α) {b : β} (hb : P b) :
    P (l.foldl f b) := by
  induction l generalizing b with
  | nil => exact hb
  | cons a l ih => exact ih (hf b a hb)

/-- What the debug port keeps of the cores touches only their own registers. -/
theorem Region.f_keepDebug (n r : Region) {x : Fld} (hx : x.off < 0xe000) : (n.keepDebug r).f x = n.f x := by
  unfold Region.keepDebug
  refine foldl_keeps (P := fun m : Region => m.f x = n.f x) (fun m k hm => ?_) _ rfl
  refine foldl_keeps (P := fun m : Region => m.f x = n.f x) (fun m u hm => ?_) _ ?_
  · rw [← hm]; exact Region.f_setReg_ne _ _ _ (by dsimp only; omega)
  · rw [← hm]; exact (Region.f_setReg_ne _ _ _ (by dsimp only; omega)).trans (Region.f_setEas _ _ _ _)

/-- The registers of a gated region before what the debug port keeps of its cores is written back. -/
def Region.gatedRegs (r : Region) : Region :=
  ((({ isoSub := r.isoSub, isoWord := r.isoWord, regs := SMap.keep ungated r.regs, releasing := r.releasing, resetDue := r.resetDue } : Region).setReg
    R.RGN_STATUS (r.reg R.RGN_STATUS)).setF F.RGN_CTRL_ISOLATE (r.f F.RGN_CTRL_ISOLATE)).setF F.RGN_STATUS_CFG 3

theorem Region.f_gated_of_low (r : Region) {x : Fld} (hx : x.off < 0xe000) : r.gated.f x = r.gatedRegs.f x :=
  Region.f_keepDebug _ r hx

/-- A gated region keeps its isolation and its cause, reads GATED, and its fix engine is OFF. -/
theorem Region.f_gated (r : Region) :
    r.gated.f F.RGN_CTRL_ISOLATE = r.f F.RGN_CTRL_ISOLATE ∧ r.gated.f F.RGN_STATUS_ISO_CAUSE = r.f F.RGN_STATUS_ISO_CAUSE ∧
      r.gated.f F.RGN_STATUS_CFG = 3 ∧ r.gated.f F.FIX_STATUS_STATE = 0 := by
  refine ⟨(r.f_gated_of_low (by decide)).trans ?_, (r.f_gated_of_low (by decide)).trans ?_,
    (r.f_gated_of_low (by decide)).trans (Region.f_setF_eq _ _ _ (by decide)), (r.f_gated_of_low (by decide)).trans ?_⟩
  · rw [Region.gatedRegs, Region.f_setF_other _ _ _ _ (by decide) (by decide), Region.f_setF_eq _ _ _ (by decide)]
    exact Nat.mod_eq_of_lt (r.f_lt F.RGN_CTRL_ISOLATE)
  · rw [Region.gatedRegs, Region.f_setF_other _ _ _ _ (by decide) (by decide), Region.f_setF_other _ _ _ _ (by decide) (by decide)]
    unfold Region.f
    rw [show F.RGN_STATUS_ISO_CAUSE.off = R.RGN_STATUS from rfl, Region.reg_setReg_same]
  · rw [Region.gatedRegs, Region.f_setF_other _ _ _ _ (by decide) (by decide), Region.f_setF_other _ _ _ _ (by decide) (by decide),
      Region.f_setReg_ne _ _ _ (by decide)]
    exact congrArg (Fld.of F.FIX_STATUS_STATE) (SMap.get_keep_out _ ungated r.regs (k := R.FIX_STATUS) (by decide))

/-! ### An isolation -/

/-- The region as an isolation cuts it off, before its tokens and its job are dealt with. -/
def Region.cutOff (cause sub : Nat) (r : Region) : Region :=
  let r : Region := { r.halt.emptyIo with isoSub := BitVec.ofNat 4 sub }
  let r : Region := (r.setF F.RGN_CTRL_ISOLATE 1).setF F.RGN_STATUS_ISO_CAUSE cause
  if r.f F.RGN_STATUS_CFG = 3 then r else r.setF F.RGN_STATUS_CFG 2

theorem Region.f_mapCl (r : Region) (g : Cluster → Cluster) (x : Fld) : (r.mapCl g).f x = r.f x := by
  unfold Region.mapCl
  refine foldl_keeps (P := fun m : Region => m.f x = r.f x) (fun m c hm => ?_) _ rfl
  rw [← hm]
  rfl

theorem Region.f_halt (r : Region) (x : Fld) : r.halt.f x = (r.setF F.FIX_STATUS_STATE 0).f x := by
  unfold Region.halt
  simp only [Region.f_mk, Region.f_mapCl]

/-- The region with its fix engine stopped and its pins' queues empty. -/
theorem Region.f_stopped (r : Region) (sub : Nat) (x : Fld) :
    ({ r.halt.emptyIo with isoSub := BitVec.ofNat 4 sub } : Region).f x = (r.setF F.FIX_STATUS_STATE 0).f x := by
  rw [← Region.f_halt]
  generalize r.halt = h
  rfl

theorem Region.f_cutOff (cause sub : Nat) (r : Region) :
    (r.cutOff cause sub).f F.RGN_CTRL_ISOLATE = 1 ∧ (r.cutOff cause sub).f F.RGN_STATUS_ISO_CAUSE = cause % 8 ∧
      2 ≤ (r.cutOff cause sub).f F.RGN_STATUS_CFG ∧ (r.cutOff cause sub).f F.FIX_STATUS_STATE = 0 := by
  have hfix : ({ r.halt.emptyIo with isoSub := BitVec.ofNat 4 sub } : Region).f F.FIX_STATUS_STATE = 0 :=
    (r.f_stopped sub _).trans (Region.f_setF_eq _ _ _ (by decide))
  unfold Region.cutOff
  generalize ({ r.halt.emptyIo with isoSub := BitVec.ofNat 4 sub } : Region) = h at *
  dsimp only
  split
  case isTrue hgated =>
    refine ⟨?_, Region.f_setF_eq _ _ _ (by decide), by rw [hgated]; decide, ?_⟩
    · rw [Region.f_setF_other _ _ _ _ (by decide) (by decide)]; exact Region.f_setF_eq _ _ _ (by decide)
    · rw [Region.f_setF_other _ _ _ _ (by decide) (by decide), Region.f_setF_other _ _ _ _ (by decide) (by decide), hfix]
  case isFalse =>
    refine ⟨?_, ?_, by rw [Region.f_setF_eq _ _ _ (by decide)]; decide, ?_⟩
    · rw [Region.f_setF_other _ _ _ _ (by decide) (by decide), Region.f_setF_other _ _ _ _ (by decide) (by decide)]
      exact Region.f_setF_eq _ _ _ (by decide)
    · rw [Region.f_setF_other _ _ _ _ (by decide) (by decide)]; exact Region.f_setF_eq _ _ _ (by decide)
    · rw [Region.f_setF_other _ _ _ _ (by decide) (by decide), Region.f_setF_other _ _ _ _ (by decide) (by decide),
        Region.f_setF_other _ _ _ _ (by decide) (by decide), hfix]

/-- Nothing of a region's place in a job changes as it is cut off. -/
theorem Region.f_cutOff_job (cause sub : Nat) (r : Region) {x : Fld} (hx : x = F.RGN_STATUS_IN_JOB ∨ x = F.RGN_STATUS_JOB) :
    (r.cutOff cause sub).f x = r.f x := by
  have hkeep : ({ r.halt.emptyIo with isoSub := BitVec.ofNat 4 sub } : Region).f x = r.f x := by
    refine (r.f_stopped sub _).trans (Region.f_setReg_ne _ _ _ ?_)
    rcases hx with rfl | rfl <;> decide
  unfold Region.cutOff
  generalize ({ r.halt.emptyIo with isoSub := BitVec.ofNat 4 sub } : Region) = h at *
  have hcause : ((h.setF F.RGN_CTRL_ISOLATE 1).setF F.RGN_STATUS_ISO_CAUSE cause).f x = h.f x := by
    rcases hx with rfl | rfl <;>
      rw [Region.f_setF_other _ _ _ _ (by decide) (by decide), Region.f_setF_other _ _ _ _ (by decide) (by decide)]
  dsimp only
  split
  · exact hcause.trans hkeep
  · refine (Eq.trans ?_ hcause).trans hkeep
    rcases hx with rfl | rfl <;> exact Region.f_setF_other _ _ _ _ (by decide) (by decide)

/-- The gating of an isolated region: the others and the debug port keep theirs, and the region stays isolated. -/
theorem gateRegion_contains (s : State) (rg : Rg) :
    ∃ u, Contains s u ∧ Contains (u.onRgn rg Region.gated) (gateRegion s rg) :=
  ⟨abandonTest s rg, (Contains.refl s).abandonTest rg, (Contains.refl _).flushRegion rg⟩

theorem quadOf_lt (rg : Rg) : quadOf rg < 8 := by
  have := rg.isLt
  unfold quadOf
  omega

theorem State.jobOf_eq {s t : State} {rg : Rg} (hin : t.rf rg F.RGN_STATUS_IN_JOB = s.rf rg F.RGN_STATUS_IN_JOB)
    (hjob : t.rf rg F.RGN_STATUS_JOB = s.rf rg F.RGN_STATUS_JOB) : t.jobOf rg = s.jobOf rg := by
  unfold State.jobOf State.rbit
  rw [hin, hjob]

/-- What precedes and follows the cutting off of a region leaves its registers alone, its job has failed, and it may be gated at last. -/
theorem isolate_cutOff {s : State} {rg : Rg} (cause sub : Nat) (hiso : s.rbit rg F.RGN_CTRL_ISOLATE = false) :
    ∃ u v, Contains s u ∧ Contains (u.onRgn rg (Region.cutOff cause sub)) v ∧
      (∀ j : Job, s.jobOf rg = some j → v.f (F.MER_JOB_CTRL_FAILED j.toNat) = 1) ∧
      (isolate s rg cause sub = v ∨ isolate s rg cause sub = gateRegion v rg) := by
  unfold isolate
  rw [if_neg (by rw [hiso]; exact Bool.false_ne_true)]
  extract_lets s₁ s₂ s₃ s₄ s₅ s₆ s₇ s₈
  have hbefore : Contains s s₁ := ((Contains.refl s).abandonTest rg).foldS allClusters fun _ c _ hu => hu.endStall rg c
  have hbroken : Contains s₂ s₄ := ((Contains.refl s₂).flushRegion rg).breakOwned _
  have hnoted : Contains s₂ s₅ := by
    unfold s₅
    split
    · exact hbroken.noteFault _ (by decide) (quadOf_lt rg)
    · exact hbroken
  have hcut : s₂ = s₁.onRgn rg (Region.cutOff cause sub) := rfl
  clear_value s₅ s₂
  subst hcut
  have hplace : ∀ x, x = F.RGN_STATUS_IN_JOB ∨ x = F.RGN_STATUS_JOB → s₅.rf rg x = s.rf rg x := by
    intro x hx
    have hoff : x.off = R.RGN_STATUS := by rcases hx with rfl | rfl <;> rfl
    exact (hnoted.rf rg x (Or.inr (Or.inl hoff))).trans ((State.rf_onRgn_same _ _ _ _).trans
      ((Region.f_cutOff_job cause sub _ hx).trans (hbefore.rf rg x (Or.inr (Or.inl hoff)))))
  have hjob : s₅.jobOf rg = s.jobOf rg := State.jobOf_eq (hplace _ (Or.inl rfl)) (hplace _ (Or.inr rfl))
  have hfailed : Contains s₅ s₆ ∧ ∀ j : Job, s₅.jobOf rg = some j → s₆.f (F.MER_JOB_CTRL_FAILED j.toNat) = 1 := by
    cases hj : s₅.jobOf rg with
    | none => simp only [s₆, hj]; exact ⟨Contains.refl _, fun j h => nomatch h⟩
    | some j =>
      simp only [s₆, hj]
      refine ⟨((Contains.refl s₅).failJob j).1, fun k hk => ?_⟩
      obtain rfl : j = k := Option.some.inj hk
      exact ((Contains.refl s₅).failJob j).2
  clear_value s₆
  have hlogged : Contains s₆ s₈ := by
    have hlast : Contains s₆ s₇ := (Contains.refl s₆).setReg R.FLT_ISO_LAST _ (loud (by decide))
    unfold s₈
    split
    · exact Contains.refl s₆
    · exact (hlast.setReg F.FLT_STATUS_ISO.off _ (loud (by decide))).ibi _ _ (by decide)
  refine ⟨s₁, s₈, hbefore, hnoted.trans (hfailed.1.trans hlogged), fun j hj => hlogged.failed j (hfailed.2 j (hjob.trans hj)), ?_⟩
  split
  · exact Or.inr rfl
  · exact Or.inl rfl

/-- What every isolation of a region leads to. -/
structure IsolatedBy (s : State) (rg : Rg) (cause : Nat) (t : State) : Prop where
  isolated : t.rf rg F.RGN_CTRL_ISOLATE = 1
  cause : t.rf rg F.RGN_STATUS_ISO_CAUSE = cause % 8
  cfg : 2 ≤ t.rf rg F.RGN_STATUS_CFG
  fix : t.rf rg F.FIX_STATUS_STATE = 0
  others : ∀ rh, rh ≠ rg → t.rf rh F.RGN_CTRL_ISOLATE = s.rf rh F.RGN_CTRL_ISOLATE
  dbg : t.dbg = s.dbg
  parked : t.gpio.parked = s.gpio.parked

theorem cutOff_isolatedBy {s u v : State} {rg : Rg} {cause sub : Nat} (hbefore : Contains s u)
    (hafter : Contains (u.onRgn rg (Region.cutOff cause sub)) v) : IsolatedBy s rg cause v := by
  obtain ⟨hiso, hcause, hcfg, hfix⟩ := (u.rgn rg).f_cutOff cause sub
  have hrf : ∀ x : Fld, (u.onRgn rg (Region.cutOff cause sub)).rf rg x = ((u.rgn rg).cutOff cause sub).f x := State.rf_onRgn_same _ _ _
  exact {
    isolated := (hafter.rf rg _ (Or.inl rfl)).trans ((hrf _).trans hiso)
    cause := (hafter.rf rg _ (Or.inr (Or.inl rfl))).trans ((hrf _).trans hcause)
    cfg := hcfg.trans_eq ((hafter.rf rg _ (Or.inr (Or.inl rfl))).trans (hrf _)).symm
    fix := (hafter.rf rg _ (Or.inr (Or.inr rfl))).trans ((hrf _).trans hfix)
    others := fun rh hr =>
      (hafter.rf rh _ (Or.inl rfl)).trans ((State.rf_onRgn_other _ _ _ hr).trans (hbefore.rf rh _ (Or.inl rfl)))
    dbg := hafter.dbg.trans hbefore.dbg
    parked := hafter.parked.trans hbefore.parked }

theorem gateRegion_isolatedBy {s t : State} {rg : Rg} {cause : Nat} (h : IsolatedBy s rg cause t) :
    IsolatedBy s rg cause (gateRegion t rg) := by
  obtain ⟨u, hbefore, hafter⟩ := gateRegion_contains t rg
  generalize gateRegion t rg = v at *
  obtain ⟨hiso, hcause, hcfg, hfix⟩ := (u.rgn rg).f_gated
  have hrf : ∀ x : Fld, (u.onRgn rg Region.gated).rf rg x = (u.rgn rg).gated.f x := State.rf_onRgn_same _ _ _
  exact {
    isolated := (hafter.rf rg _ (Or.inl rfl)).trans ((hrf _).trans (hiso.trans ((hbefore.rf rg _ (Or.inl rfl)).trans h.isolated)))
    cause := (hafter.rf rg _ (Or.inr (Or.inl rfl))).trans ((hrf _).trans (hcause.trans
      ((hbefore.rf rg _ (Or.inr (Or.inl rfl))).trans h.cause)))
    cfg := ((hafter.rf rg _ (Or.inr (Or.inl rfl))).trans ((hrf _).trans hcfg)) ▸ (by decide)
    fix := (hafter.rf rg _ (Or.inr (Or.inr rfl))).trans ((hrf _).trans hfix)
    others := fun rh hr => (hafter.rf rh _ (Or.inl rfl)).trans ((State.rf_onRgn_other _ _ _ hr).trans
      ((hbefore.rf rh _ (Or.inl rfl)).trans (h.others rh hr)))
    dbg := hafter.dbg.trans (hbefore.dbg.trans h.dbg)
    parked := hafter.parked.trans (hbefore.parked.trans h.parked) }

theorem isolate_isolatedBy {s : State} {rg : Rg} (cause sub : Nat) (hiso : s.rbit rg F.RGN_CTRL_ISOLATE = false) :
    IsolatedBy s rg cause (isolate s rg cause sub) := by
  obtain ⟨u, v, hbefore, hafter, -, h | h⟩ := isolate_cutOff cause sub hiso <;> rw [h]
  · exact cutOff_isolatedBy hbefore hafter
  · exact gateRegion_isolatedBy (cutOff_isolatedBy hbefore hafter)

theorem isolate_isolated {s : State} {rg : Rg} (cause sub : Nat) (hiso : s.rbit rg F.RGN_CTRL_ISOLATE = true) :
    isolate s rg cause sub = s := if_pos hiso

/-- The job of an isolated region is reported failed (R51). -/
theorem isolate_failsJob {s : State} {rg : Rg} {j : Job} (cause sub : Nat) (hiso : s.rbit rg F.RGN_CTRL_ISOLATE = false)
    (hj : s.jobOf rg = some j) : (isolate s rg cause sub).f (F.MER_JOB_CTRL_FAILED j.toNat) = 1 := by
  obtain ⟨-, v, -, -, hfailed, h | h⟩ := isolate_cutOff cause sub hiso <;> rw [h]
  · exact hfailed j hj
  · obtain ⟨w, hw, hgate⟩ := gateRegion_contains v rg
    exact hgate.failed j (hw.failed j (hfailed j hj))

/-! ### The requests -/

theorem rbit_of_zero {s : State} {rg : Rg} {x : Fld} (h : s.rf rg x = 0) : s.rbit rg x = false := by simp [State.rbit, h]

theorem rbit_of_one {s : State} {rg : Rg} {x : Fld} (h : s.rf rg x = 1) : s.rbit rg x = true := by simp [State.rbit, h]

/-- A region reset that no reset in progress takes in is requested (R25). -/
theorem requestReset_requests {s : State} {rg : Rg} (hbusy : s.rf rg F.RGN_STATUS_RESET_BUSY = 0) (henc : s.enclosingReset rg = false)
    (release : Bool) :
    (requestReset s rg release).rf rg F.RGN_STATUS_RESET_BUSY = 1 ∧ (requestReset s rg release).rf rg F.NOC_STATUS_REFUSING = 1 ∧
      (requestReset s rg release).rf rg F.RGN_STATUS_EPOCH = s.rf rg F.RGN_STATUS_EPOCH ∧ OnlyRegion rg s (requestReset s rg release) ∧
      SameStores (s.rgn rg) ((requestReset s rg release).rgn rg) ∧ (release = true → ((requestReset s rg release).rgn rg).releasing = true) := by
  have hkey : ∀ u : State, u.rf rg F.RGN_STATUS_RESET_BUSY = 0 → u.enclosingReset rg = false →
      (if u.rbit rg F.RGN_STATUS_RESET_BUSY ∨ u.enclosingReset rg then u
        else (u.setRf rg F.RGN_STATUS_RESET_BUSY 1).setRf rg F.NOC_STATUS_REFUSING 1) =
        (u.setRf rg F.RGN_STATUS_RESET_BUSY 1).setRf rg F.NOC_STATUS_REFUSING 1 := by
    intro u hu he
    rw [if_neg (by simp [rbit_of_zero hu, he])]
  have hrest : ∀ u : State, ((u.setRf rg F.RGN_STATUS_RESET_BUSY 1).setRf rg F.NOC_STATUS_REFUSING 1).rf rg F.RGN_STATUS_RESET_BUSY = 1 ∧
      ((u.setRf rg F.RGN_STATUS_RESET_BUSY 1).setRf rg F.NOC_STATUS_REFUSING 1).rf rg F.NOC_STATUS_REFUSING = 1 ∧
      ((u.setRf rg F.RGN_STATUS_RESET_BUSY 1).setRf rg F.NOC_STATUS_REFUSING 1).rf rg F.RGN_STATUS_EPOCH = u.rf rg F.RGN_STATUS_EPOCH ∧
      OnlyRegion rg u ((u.setRf rg F.RGN_STATUS_RESET_BUSY 1).setRf rg F.NOC_STATUS_REFUSING 1) ∧
      ((u.setRf rg F.RGN_STATUS_RESET_BUSY 1).setRf rg F.NOC_STATUS_REFUSING 1).rgn rg =
        ((u.rgn rg).setF F.RGN_STATUS_RESET_BUSY 1).setF F.NOC_STATUS_REFUSING 1 := by
    intro u
    refine ⟨?_, State.rf_setRf_eq _ _ _ _ (by decide), ?_, ((OnlyRegion.refl rg u).setRf _ _).setRf _ _, ?_⟩
    · rw [State.rf_setRf_other _ _ _ _ _ (by decide) (by decide)]; exact State.rf_setRf_eq _ _ _ _ (by decide)
    · rw [State.rf_setRf_other _ _ _ _ _ (by decide) (by decide), State.rf_setRf_other _ _ _ _ _ (by decide) (by decide)]
    · simp only [State.setRf, State.rgn_onRgn_same]
  cases release with
  | false =>
    have heq : requestReset s rg false = (s.setRf rg F.RGN_STATUS_RESET_BUSY 1).setRf rg F.NOC_STATUS_REFUSING 1 := hkey s hbusy henc
    obtain ⟨hb, hr, he, ho, hrgn⟩ := hrest s
    rw [heq]
    exact ⟨hb, hr, he, ho, by rw [hrgn]; exact ⟨rfl, rfl, rfl, rfl, rfl, rfl, rfl, rfl⟩, fun h => absurd h Bool.false_ne_true⟩
  | true =>
    have hbusy' : (s.onRgn rg fun r => { r with releasing := true }).rf rg F.RGN_STATUS_RESET_BUSY = 0 :=
      (State.rf_onRgn_same _ _ _ _).trans hbusy
    have heq : requestReset s rg true = ((s.onRgn rg fun r => { r with releasing := true }).setRf rg F.RGN_STATUS_RESET_BUSY 1).setRf rg
      F.NOC_STATUS_REFUSING 1 := hkey _ hbusy' henc
    obtain ⟨hb, hr, he, ho, hrgn⟩ := hrest (s.onRgn rg fun r => { r with releasing := true })
    rw [heq]
    refine ⟨hb, hr, he.trans (State.rf_onRgn_same _ _ _ _), ((OnlyRegion.refl rg s).onRgn _).trans ho, ?_, fun _ => ?_⟩
    · rw [hrgn, State.rgn_onRgn_same]; exact ⟨rfl, rfl, rfl, rfl, rfl, rfl, rfl, rfl⟩
    · rw [hrgn, State.rgn_onRgn_same]; rfl

theorem requestReset_merged {s : State} {rg : Rg} (h : s.rbit rg F.RGN_STATUS_RESET_BUSY = true ∨ s.enclosingReset rg = true) :
    requestReset s rg false = s := if_pos h

/-- A region watchdog at its limit notes it and isolates the region (R107). -/
theorem watchdog_isolates {s : State} {rg : Rg} (cause : Nat) (n : Nat) (hiso : s.rf rg F.RGN_CTRL_ISOLATE = 0) :
    IsolatedBy (s.noteFault 18 (quadOf rg) (faultKey [(numOf rg, 4), (n, 1)])) rg cause
      (isolate (s.noteFault 18 (quadOf rg) (faultKey [(numOf rg, 4), (n, 1)])) rg cause 0) :=
  isolate_isolatedBy cause 0 (rbit_of_zero ((State.rf_noteFault _ _ _ _ _ _).trans hiso))

theorem regionWatchdog_fix {s : State} {rg : Rg} (hlim : s.rf rg F.RGN_WDOG_LIMIT ≠ 0)
    (hcyc : 2 ≤ s.rf rg F.FIX_STATUS_STATE ∧ s.rf rg F.FIX_STATUS_STATE ≤ 4)
    (hlate : 1000 * s.rf rg F.RGN_WDOG_LIMIT ≤ (s.rgn rg).fix.noFix) :
    execRegionWatchdog rg false s = .next (isolate (s.noteFault 18 (quadOf rg) (faultKey [(numOf rg, 4), (0, 1)])) rg 1 0) := by
  have hbit : (s.rgn rg).bit F.RGN_WDOG_LIMIT = true := bne_iff_ne.mpr hlim
  have hin : (s.rgn rg).inCycle = true := by simp only [Region.inCycle, Bool.and_eq_true, decide_eq_true_eq]; exact hcyc
  exact congrArg Host.Outcome.next ((if_neg Bool.false_ne_true).trans (if_pos ⟨hbit, hin, hlate⟩))

theorem regionWatchdog_grant {s : State} {rg : Rg} (hlim : s.rf rg F.RGN_WDOG_GRANT ≠ 0) (hown : s.rf rg F.DMEM_STATUS_OWNER < 6)
    (hlate : 1000 * s.rf rg F.RGN_WDOG_GRANT < s.rf rg F.DMEM_GRANT_TIME_NS) :
    execRegionWatchdog rg true s = .next (isolate (s.noteFault 18 (quadOf rg) (faultKey [(numOf rg, 4), (1, 1)])) rg 2 0) := by
  have hbit : (s.rgn rg).bit F.RGN_WDOG_GRANT = true := bne_iff_ne.mpr hlim
  have hown' : (s.rgn rg).f F.DMEM_STATUS_OWNER ≠ 6 := Nat.ne_of_lt hown
  exact congrArg Host.Outcome.next ((if_pos rfl).trans (if_pos ⟨hbit, hown', hlate⟩))

theorem regionWatchdog_waits {s : State} {rg : Rg} {grant : Bool}
    (h : if grant then s.rf rg F.RGN_WDOG_GRANT = 0 ∨ s.rf rg F.DMEM_GRANT_TIME_NS ≤ 1000 * s.rf rg F.RGN_WDOG_GRANT
      else s.rf rg F.RGN_WDOG_LIMIT = 0 ∨ (s.rgn rg).fix.noFix < 1000 * s.rf rg F.RGN_WDOG_LIMIT) :
    execRegionWatchdog rg grant s = .next s := by
  cases grant with
  | true =>
    refine congrArg Host.Outcome.next ((if_pos rfl).trans (if_neg ?_))
    rintro ⟨hbit, -, hlate⟩
    rcases h with h | h
    · exact bne_iff_ne.mp hbit h
    · exact absurd hlate (Nat.not_lt.mpr h)
  | false =>
    refine congrArg Host.Outcome.next ((if_neg Bool.false_ne_true).trans (if_neg ?_))
    rintro ⟨hbit, -, hlate⟩
    rcases h with h | h
    · exact bne_iff_ne.mp hbit h
    · exact absurd hlate (Nat.not_le.mpr h)

/-- Settles O1. -/
theorem regionResetAndIsolation : Obligations.RegionResetAndIsolation := by
  unfold Obligations.RegionResetAndIsolation
  refine ⟨fun rg s hbusy henc => ?request, fun rg s hbusy => ⟨_, rfl, requestReset_merged (Or.inl (rbit_of_one hbusy))⟩,
    fun rg s henc => ⟨_, rfl, requestReset_merged (Or.inr henc)⟩, fun rg s hiso => ?isolates, fun rg j s hiso hj => ?job,
    fun rg s hiso => ⟨_, rfl, isolate_isolated 4 0 (rbit_of_one hiso)⟩, fun rg s hiso hbusy henc => ?releases,
    fun rg s hiso => ?unisolated, fun rg s hiso hlim hcyc hlate => ?fix, fun rg s hiso hlim hown hlate => ?grant,
    fun rg grant s h => ⟨_, regionWatchdog_waits h, rfl⟩⟩
  case request =>
    obtain ⟨hb, hr, he, ho, hs, -⟩ := requestReset_requests hbusy henc false
    exact ⟨_, rfl, hb, hr, he, ho, hs⟩
  case isolates =>
    have h := isolate_isolatedBy (s := s) (rg := rg) 4 0 (rbit_of_zero hiso)
    exact ⟨_, rfl, h.isolated, h.cause, h.fix, h.cfg⟩
  case job => exact ⟨_, rfl, isolate_failsJob 4 0 (rbit_of_zero hiso) hj⟩
  case releases =>
    obtain ⟨hb, hr, -, ho, -, hrel⟩ := requestReset_requests hbusy henc true
    exact ⟨_, congrArg Host.Outcome.next (if_pos (rbit_of_one hiso)), hb, hr, hrel rfl, ho⟩
  case unisolated =>
    exact ⟨_, congrArg Host.Outcome.next (if_neg (by rw [rbit_of_zero hiso]; exact Bool.false_ne_true)), rfl⟩
  case fix =>
    have h := watchdog_isolates (s := s) (rg := rg) 1 0 hiso
    exact ⟨_, regionWatchdog_fix hlim hcyc hlate, h.isolated, h.cause, h.fix⟩
  case grant =>
    have h := watchdog_isolates (s := s) (rg := rg) 2 1 hiso
    exact ⟨_, regionWatchdog_grant hlim hown hlate, h.isolated, h.cause⟩

end Sys2Proof.Machine
end

section
/-! PROOFS. The test modes (R419, R420). -/

namespace Sys2Proof.Machine

/-- What DBG.PRIV carries for the commands of the debug port. -/
theorem privWord_fields (mode : BitVec 2) (arm : BitVec 8) (go : Nat) (hgo : go < 2) :
    (wordOf [(arm.toNat, 8), (mode.toNat, 2), (go, 1)]).toNat = arm.toNat + 256 * mode.toNat + 1024 * go := by
  have := arm.isLt
  have := mode.isLt
  simp only [wordOf, packKey, BitVec.toNat_ofNat]
  omega

/-- The state that a write of DBG.PRIV judges: its mode noted, the arming used up. -/
def privNoted (s : State) (mode : BitVec 2) : State :=
  { s.setF F.DBG_PRIV_MODE mode.toNat with dbg := { s.dbg with armed := none } }

/-- GO answers the arming: the same mode, in time, and the entry not locked. -/
abbrev GoAnswers (s : State) (mode : BitVec 2) (arm : BitVec 8) : Prop :=
  arm.toNat = 0x5A ∧ s.dbg.armed = some mode ∧ s.now ≤ s.dbg.armedAt + 100000 ∧ ¬ s.fuses.testDisable

/-- A write of DBG.PRIV outside a test mode, by its fields. -/
def privWrite (s : State) (mode : BitVec 2) (arm : BitVec 8) (go : Bool) : State :=
  if go then if GoAnswers s mode arm then enterTest (privNoted s mode) mode else (privNoted s mode).dbgErr 4
  else if s.fuses.testDisable ∧ arm.toNat = 0xA5 then (privNoted s mode).dbgErr 4
  else if arm.toNat = 0xA5 ∧ (mode = 1 ∨ mode = 2) then
    { privNoted s mode with dbg := { (privNoted s mode).dbg with armed := some mode, armedAt := s.now } }
  else if s.dbg.armed.isSome ∨ arm.toNat = 0x5A then (privNoted s mode).dbgErr 4
  else privNoted s mode

theorem writePriv_fields {s : State} (htest : s.dbg.testing = none) {v : Word} {mode : BitVec 2} {arm : BitVec 8} {go : Bool}
    (hv : v.toNat = arm.toNat + 256 * mode.toNat + 1024 * go.toNat) : writePriv s v = privWrite s mode arm go := by
  have harm := arm.isLt
  have hmode := mode.isLt
  have hm : (bitsAt v 8 2 : BitVec 2) = mode := by
    refine BitVec.eq_of_toNat_eq ?_
    rw [bitsAt, BitVec.toNat_ofNat, hv]
    omega
  have ha : v.toNat % 256 = arm.toNat := by omega
  have hg : v.getLsbD 10 = go := by
    rw [BitVec.getLsbD, Nat.testBit_eq_decide_div_mod_eq, hv]
    cases go <;> simp <;> omega
  have hout : ¬ s.dbg.testing.isSome = true := by rw [htest]; exact Bool.false_ne_true
  unfold writePriv
  dsimp only
  rw [if_neg hout, hm, ha, hg]
  rfl

theorem privArm_written {s : State} (hopen : PortOpen s) (htest : s.dbg.testing = none) (mode : BitVec 2) (arm : BitVec 8) :
    execPrivArm mode arm s = .next ((privWrite s mode arm false).acked ackOk) := by
  have hv : (wordOf [(arm.toNat, 8), (mode.toNat, 2)]).toNat = arm.toNat + 256 * mode.toNat + 1024 * false.toNat :=
    privWord_fields mode arm 0 (by decide)
  rw [execPrivArm, named_write_open hopen]
  exact congrArg (fun u : State => Host.Outcome.next (u.acked ackOk)) (writePriv_fields htest hv)

/-- What the arming is worth at the moment of GO. -/
def armedInTime (s : State) (since : Word) : State :=
  if decide (s.dbg.armedAt + 100000 < s.nowAt since) then { s with dbg := { s.dbg with armed := none } } else s

theorem armedInTime_frame (s : State) (since : Word) :
    ∃ a, armedInTime s since = { s with dbg := { s.dbg with armed := a } } := by
  unfold armedInTime
  split
  · exact ⟨_, rfl⟩
  · exact ⟨s.dbg.armed, rfl⟩

theorem privGo_written {s : State} (hopen : PortOpen s) (htest : s.dbg.testing = none) (mode : BitVec 2) (arm : BitVec 8) (since : Word) :
    execPrivGo mode arm since s = .next ((privWrite (armedInTime s since) mode arm true).acked ackOk) := by
  obtain ⟨a, ha⟩ := armedInTime_frame s since
  have hopen' : PortOpen (armedInTime s since) := by rw [ha]; exact hopen
  have htest' : (armedInTime s since).dbg.testing = none := by rw [ha]; exact htest
  have hv : (wordOf [(arm.toNat, 8), (mode.toNat, 2), (1, 1)]).toNat = arm.toNat + 256 * mode.toNat + 1024 * true.toNat :=
    privWord_fields mode arm 1 (by decide)
  have hexec : execPrivGo mode arm since s = .next (named (armedInTime s since) 14
    (some (wordOf [(arm.toNat, 8), (mode.toNat, 2), (1, 1)])) .clean) := rfl
  rw [hexec, named_write_open hopen']
  exact congrArg (fun u : State => Host.Outcome.next (u.acked ackOk)) (writePriv_fields htest' hv)

theorem privNoted_err (s : State) (mode : BitVec 2) : (privNoted s mode).f F.DBG_STATUS_ERR = s.f F.DBG_STATUS_ERR :=
  State.f_setReg_other s _ _ (by decide)

/-- A broken sequence is denied (R419). -/
theorem privDenied {s : State} (htest : s.dbg.testing = none) (herr : s.f F.DBG_STATUS_ERR = 0) (mode : BitVec 2) :
    ((privNoted s mode).dbgErr 4).dbg.testing = none ∧ ((privNoted s mode).dbgErr 4).dbg.armed = none ∧
      ((privNoted s mode).dbgErr 4).f F.DBG_STATUS_ERR = 4 ∧ ((privNoted s mode).dbgErr 4).rgns = s.rgns := by
  have heq : (privNoted s mode).dbgErr 4 = (privNoted s mode).setF F.DBG_STATUS_ERR 4 := if_pos ((privNoted_err s mode).trans herr)
  rw [heq]
  exact ⟨htest, rfl, State.f_setF_eq _ _ _ (by decide), rfl⟩

/-! ### The mode is entered -/

/-- What entering a test mode has reached: the regions in the fold are isolated, the pins are parked. -/
theorem isolate_keeps_isolated {s : State} {rg rh : Rg} (cause sub : Nat) (h : s.rbit rh F.RGN_CTRL_ISOLATE = true) :
    (isolate s rg cause sub).rbit rh F.RGN_CTRL_ISOLATE = true := by
  cases hiso : s.rbit rg F.RGN_CTRL_ISOLATE with
  | true => rw [isolate_isolated cause sub hiso]; exact h
  | false =>
    by_cases hr : rh = rg
    · subst hr; exact absurd (h.symm.trans hiso) (by decide)
    · rw [State.rbit, (isolate_isolatedBy cause sub hiso).others rh hr]; exact h

theorem isolate_isolates (s : State) (rg : Rg) (cause sub : Nat) : (isolate s rg cause sub).rbit rg F.RGN_CTRL_ISOLATE = true := by
  cases hiso : s.rbit rg F.RGN_CTRL_ISOLATE with
  | true => rw [isolate_isolated cause sub hiso]; exact hiso
  | false => exact rbit_of_one (isolate_isolatedBy cause sub hiso).isolated

theorem isolate_dbg_parked (s : State) (rg : Rg) (cause sub : Nat) :
    (isolate s rg cause sub).dbg = s.dbg ∧ (isolate s rg cause sub).gpio.parked = s.gpio.parked := by
  cases hiso : s.rbit rg F.RGN_CTRL_ISOLATE with
  | true => rw [isolate_isolated cause sub hiso]; exact ⟨rfl, rfl⟩
  | false => exact ⟨(isolate_isolatedBy cause sub hiso).dbg, (isolate_isolatedBy cause sub hiso).parked⟩

theorem isolate_keeps_entered {s : State} {mode : BitVec 2} (rg : Rg) (cause sub : Nat)
    (h : s.dbg.testing = some mode ∧ s.gpio.parked = 0xFFF) :
    (isolate s rg cause sub).dbg.testing = some mode ∧ (isolate s rg cause sub).gpio.parked = 0xFFF := by
  obtain ⟨hd, hp⟩ := isolate_dbg_parked s rg cause sub
  rw [hd, hp]
  exact h

/-- The package as a test mode begins, before its regions are isolated. -/
def testEntered (s : State) (mode : BitVec 2) : State :=
  { s with dbg := { s.dbg with testing := some mode, armed := none }, refusing := 31, gpio := { s.gpio with parked := 0xFFF } }

/-- Entering a test mode isolates every region and parks every pin (R420). -/
theorem enterTest_enters (s : State) (mode : BitVec 2) :
    (enterTest s mode).dbg.testing = some mode ∧ (enterTest s mode).gpio.parked = 0xFFF ∧
      ∀ rg : Rg, (enterTest s mode).rbit rg F.RGN_CTRL_ISOLATE = true := by
  have hentered : (testEntered s mode).dbg.testing = some mode ∧ (testEntered s mode).gpio.parked = 0xFFF := ⟨rfl, rfl⟩
  have heq : enterTest s mode = foldS allRegions (testEntered s mode) (fun s rg => isolate s rg 4 0) := rfl
  rw [heq]
  generalize testEntered s mode = u at *
  have hkeep : (foldS allRegions u fun s rg => isolate s rg 4 0).dbg.testing = some mode ∧
      (foldS allRegions u fun s rg => isolate s rg 4 0).gpio.parked = 0xFFF :=
    foldS_induct (P := fun v : State => v.dbg.testing = some mode ∧ v.gpio.parked = 0xFFF)
      allRegions (fun v rg _ hv => isolate_keeps_entered rg 4 0 hv) hentered
  have hiso : ∀ rg : Rg, (foldS allRegions u fun s rg => isolate s rg 4 0).rbit rg F.RGN_CTRL_ISOLATE = true := fun rg =>
    foldS_reaches (f := fun s rg => isolate s rg 4 0) (P := fun v => v.rbit rg F.RGN_CTRL_ISOLATE = true) (mem_allRegions rg)
      (fun v => isolate_isolates v rg 4 0) (fun v rh hv => isolate_keeps_isolated 4 0 hv) u
  generalize foldS allRegions u _ = w at *
  exact ⟨hkeep.1, hkeep.2, hiso⟩

/-! ### The stores are cleared -/

/-- Every store of a region is empty. -/
structure Blank (r : Region) : Prop where
  stores : r.strokes = [] ∧ r.dmem = [] ∧ r.ring = [] ∧ r.canvas = []
  cores : ∀ k : CoreNo, (r.eas k).prog = [] ∧ (r.eas k).x = [] ∧ (r.eas k).y = []
  clusters : ∀ c : Cl, (r.cl c).pal = [] ∧ (r.cl c).next = [] ∧ (r.cl c).exch = [] ∧ (r.cl c).ports = []

theorem foldl_reaches {α β : Type} {P : β → Prop} {f : β → α → β} {l : List α} {x : α} (hx : x ∈ l) (hset : ∀ b, P (f b x))
    (hkeep : ∀ b a, P b → P (f b a)) (b : β) : P (l.foldl f b) := by
  induction l generalizing b with
  | nil => exact absurd hx List.not_mem_nil
  | cons a l ih =>
    rcases List.mem_cons.mp hx with rfl | hx
    · exact foldl_keeps hkeep l (hset b)
    · exact ih hx _

theorem mem_allClusters (c : Cl) : c ∈ allClusters := List.mem_map.mpr ⟨c.toNat, List.mem_range.mpr c.isLt, by simp⟩

/-- What a cluster's every update makes so holds of each cluster after all have been updated. -/
theorem Region.cl_mapCl {Q : Cluster → Prop} {g : Cluster → Cluster} (hg : ∀ k, Q (g k)) (r : Region) (c : Cl) : Q ((r.mapCl g).cl c) := by
  refine foldl_reaches (P := fun m : Region => Q (m.cl c)) (mem_allClusters c) (fun m => ?_) (fun m d hm => ?_) r
  · rw [Region.cl_setCl_same]; exact hg _
  · by_cases hd : c = d
    · subst hd; rw [Region.cl_setCl_same]; exact hg _
    · rw [Region.cl_setCl_ne _ _ hd]; exact hm

/-- The cores' memories emptied. -/
def Region.blankCores (r : Region) : Region := allCores.foldl (fun r k => r.setEas k { r.eas k with prog := [], x := [], y := [] }) r

theorem Region.eas_blankCores (r : Region) (k : CoreNo) :
    (r.blankCores.eas k).prog = [] ∧ (r.blankCores.eas k).x = [] ∧ (r.blankCores.eas k).y = [] := by
  refine foldl_reaches (P := fun m : Region => (m.eas k).prog = [] ∧ (m.eas k).x = [] ∧ (m.eas k).y = []) (mem_allCores k)
    (fun m => ?_) (fun m j hm => ?_) r
  · rw [Region.eas_setEas_same]; exact ⟨rfl, rfl, rfl⟩
  · by_cases hj : k = j
    · subst hj; rw [Region.eas_setEas_same]; exact ⟨rfl, rfl, rfl⟩
    · rw [Region.eas_setEas_ne _ _ hj]; exact hm

theorem Region.blanked_eq (r : Region) : ∃ m : Region, (∀ c : Cl, (m.cl c).pal = [] ∧ (m.cl c).next = [] ∧ (m.cl c).exch = [] ∧ (m.cl c).ports = []) ∧
    r.blanked = { m.blankCores with strokes := [], dmem := [], ring := [], upsets := [], canvas := [] } :=
  ⟨_, Region.cl_mapCl (Q := fun k => k.pal = [] ∧ k.next = [] ∧ k.exch = [] ∧ k.ports = []) (fun _ => ⟨rfl, rfl, rfl, rfl⟩) r, rfl⟩

theorem Region.blanked_blank (r : Region) : Blank r.blanked := by
  obtain ⟨m, hm, heq⟩ := r.blanked_eq
  have hcl : ∀ c, m.blankCores.cl c = m.cl c := fun c => by
    refine foldl_keeps (P := fun n : Region => n.cl c = m.cl c) (fun n k hn => ?_) allCores rfl
    exact hn
  rw [heq]
  refine ⟨⟨rfl, rfl, rfl, rfl⟩, fun k => m.eas_blankCores k, fun c => ?_⟩
  rw [Region.cl_mk, hcl c]
  exact hm c

theorem onRgn_blanked_keeps {s : State} {rg : Rg} (rh : Rg) (h : Blank (s.rgn rg)) : Blank ((s.onRgn rh Region.blanked).rgn rg) := by
  by_cases hr : rg = rh
  · subst hr; rw [State.rgn_onRgn_same]; exact Region.blanked_blank _
  · rw [State.rgn_onRgn_ne _ _ hr]; exact h

/-- The hub's own stores emptied. -/
def hubBlanked (s : State) : State :=
  { s with keys := [], sram := [], library := [], load := { s.load with stage := [] }, rtc := { s.rtc with keys := [] } }

/-- Every region's stores emptied. -/
def regionsBlanked (s : State) : State := foldS allRegions s (fun s rg => s.onRgn rg Region.blanked)

theorem regionsBlanked_blank (s : State) (rg : Rg) : Blank ((regionsBlanked s).rgn rg) :=
  foldS_reaches (P := fun u => Blank (u.rgn rg)) (mem_allRegions rg)
    (fun u => by rw [State.rgn_onRgn_same]; exact Region.blanked_blank _) (fun u rh hu => onRgn_blanked_keeps rh hu) s

theorem regionsBlanked_frame (s : State) : regionsBlanked s = { s with rgns := (regionsBlanked s).rgns } :=
  foldS_induct (P := fun u => u = { s with rgns := u.rgns }) allRegions
    (fun u rg _ hu => by rw [hu]; rfl) rfl

theorem clearStores_eq (s : State) :
    clearStores s = ((regionsBlanked (hubBlanked s)).setF F.DBG_STATUS_CLEARED 1).setF F.DBG_STATUS_TESTMODE 1 := rfl

/-- TEST_ENTRY_DONE at the end of an entry (R420). -/
theorem clearStores_clears (s : State) :
    (clearStores s).f F.DBG_STATUS_TESTMODE = 1 ∧ (clearStores s).f F.DBG_STATUS_CLEARED = 1 ∧ (clearStores s).sram = [] ∧
      (clearStores s).library = [] ∧ (clearStores s).keys = [] ∧ (∀ rg : Rg, Blank ((clearStores s).rgn rg)) ∧
      (clearStores s).load.stage = [] ∧ (clearStores s).rtc.keys = [] := by
  have hframe := regionsBlanked_frame (hubBlanked s)
  have hblank := regionsBlanked_blank (hubBlanked s)
  rw [clearStores_eq]
  generalize regionsBlanked (hubBlanked s) = u at *
  refine ⟨State.f_setF_eq _ _ _ (by decide), ?_, ?_, ?_, ?_, hblank, ?_, ?_⟩
  · rw [State.f_setF_other _ _ _ _ (by decide) (by decide)]; exact State.f_setF_eq _ _ _ (by decide)
  all_goals show _ = []
  · exact congrArg State.sram hframe
  · exact congrArg State.library hframe
  · exact congrArg State.keys hframe
  · exact congrArg (fun v : State => v.load.stage) hframe
  · exact congrArg (fun v : State => v.rtc.keys) hframe

/-- Settles O50. -/
theorem testEntry : Obligations.TestEntry := by
  unfold Obligations.TestEntry
  refine ⟨?arm, ?locked, ?go, ?broken, ?done, ?idle⟩
  case arm =>
    rintro mode s ⟨hopen, htest, hfuse, hmode⟩
    refine ⟨_, privArm_written hopen htest mode 0xA5, ?_⟩
    have heq : privWrite s mode 0xA5 false =
        { privNoted s mode with dbg := { (privNoted s mode).dbg with armed := some mode, armedAt := s.now } } := by
      rw [privWrite, if_neg Bool.false_ne_true, if_neg (by rw [hfuse]; exact fun h => Bool.false_ne_true h.1), if_pos ⟨rfl, hmode⟩]
    rw [heq]
    exact ⟨rfl, rfl, htest, (privNoted_err s mode).trans hopen.2.2.1, rfl⟩
  case locked =>
    rintro mode s ⟨hopen, htest, hfuse⟩
    refine ⟨_, privArm_written hopen htest mode 0xA5, ?_⟩
    have heq : privWrite s mode 0xA5 false = (privNoted s mode).dbgErr 4 := by
      rw [privWrite, if_neg Bool.false_ne_true, if_pos ⟨hfuse, rfl⟩]
    obtain ⟨-, harmed, herr, hrgns⟩ := privDenied htest hopen.2.2.1 mode
    rw [heq]
    exact ⟨harmed, herr, hrgns⟩
  case go =>
    rintro mode since s ⟨hopen, htest, hfuse, harmed⟩ htime
    refine ⟨_, privGo_written hopen htest mode 0x5A since, ?_⟩
    have hintime : armedInTime s since = s := if_neg (by simpa using htime)
    have hnow : s.now ≤ s.dbg.armedAt + 100000 := le_trans (Nat.div_le_div_right (Nat.le_add_right _ _)) htime
    have heq : privWrite s mode 0x5A true = enterTest (privNoted s mode) mode := by
      rw [privWrite, if_pos rfl, if_pos ⟨rfl, harmed, hnow, by rw [hfuse]; exact Bool.false_ne_true⟩]
    obtain ⟨htesting, hparked, hiso⟩ := enterTest_enters (privNoted s mode) mode
    rw [hintime, heq]
    exact ⟨htesting, hparked, hiso⟩
  case broken =>
    rintro mode arm since s ⟨hopen, htest, hbroken⟩
    refine ⟨_, privGo_written hopen htest mode arm since, ?_⟩
    have hdenied : ¬ GoAnswers (armedInTime s since) mode arm := by
      rintro ⟨harm, harmed, -, hfuse⟩
      unfold armedInTime at harmed hfuse
      split at harmed
      · exact nomatch harmed
      case isFalse hlate =>
        rw [if_neg hlate] at hfuse
        rcases hbroken with h | h | h | h
        · exact hlate (decide_eq_true h)
        · exact h (BitVec.eq_of_toNat_eq harm)
        · exact h harmed
        · exact hfuse h
    have heq : privWrite (armedInTime s since) mode arm true = (privNoted (armedInTime s since) mode).dbgErr 4 := by
      rw [privWrite, if_pos rfl, if_neg hdenied]
    rw [heq]
    obtain ⟨a, ha⟩ := armedInTime_frame s since
    have h := privDenied (s := armedInTime s since) (by rw [ha]; exact htest) (by rw [ha]; exact hopen.2.2.1) mode
    obtain ⟨htesting, harmed, herr, hrgns⟩ := h
    exact ⟨htesting, harmed, herr, hrgns.trans (by rw [ha])⟩
  case done =>
    rintro mode s ⟨htest, hmode⟩
    have hexec : execTestEntryDone s = .next (clearStores s) :=
      congrArg Host.Outcome.next (if_pos ⟨by rw [htest]; rfl, by simp [State.bit, hmode]⟩)
    obtain ⟨hm, hc, hsram, hlib, hkeys, hblank, hstage, hrtc⟩ := clearStores_clears s
    exact ⟨_, hexec, hm, hc, hsram, hlib, hkeys, fun rg => (hblank rg).stores, fun rg k => (hblank rg).cores k,
      fun rg c => (hblank rg).clusters c, hstage, hrtc⟩
  case idle =>
    intro s htest
    exact ⟨_, congrArg Host.Outcome.next (if_neg (by rw [htest]; exact fun h => Bool.false_ne_true h.1)), rfl⟩

end Sys2Proof.Machine
end

section
/-! PROOFS. The events of the fix engine (R42–R49, R56). -/

namespace Sys2Proof.Machine

theorem foldl_reaches_from {α β : Type} {Q P : β → Prop} {f : β → α → β} {l : List α} {x : α} (hx : x ∈ l) (hQ : ∀ b a, Q b → Q (f b a))
    (hset : ∀ b, Q b → P (f b x)) (hP : ∀ b a, P b → P (f b a)) {b : β} (h : Q b) : P (l.foldl f b) := by
  induction l generalizing b with
  | nil => exact absurd hx List.not_mem_nil
  | cons a l ih =>
    rcases List.mem_cons.mp hx with rfl | hx
    · exact foldl_keeps hP l (hset b h)
    · exact ih hx (hQ b a h)

/-! ### The beginning of a cycle -/

/-- What a cluster is at stroke 0 of a cycle. -/
def AtStrokeZero (r : Region) (c : Cl) : Prop :=
  (r.cl c).running = true ∧ (r.cl c).ended = false ∧ r.f (F.CLU_STATUS_STROKE c.toNat) = 0

theorem Region.cl_setF (r : Region) (x : Fld) (n : Nat) (c : Cl) : (r.setF x n).cl c = r.cl c := rfl

/-- One cluster at stroke 0 of the next cycle. -/
def Region.startCluster (r : Region) (c : Cl) : Region :=
  (r.setCl c { (r.cl c).beginStroke with running := true, ended := false }).setF (F.CLU_STATUS_STROKE c.toNat) 0

theorem Region.startClusters_eq (r : Region) : r.startClusters = allClusters.foldl Region.startCluster r := rfl

theorem Region.startCluster_same (r : Region) (c : Cl) : AtStrokeZero (r.startCluster c) c := by
  have hcl : (r.startCluster c).cl c = { (r.cl c).beginStroke with running := true, ended := false } := by
    rw [Region.startCluster, Region.cl_setF, Region.cl_setCl_same]
  refine ⟨?_, ?_, Region.f_setF_eq _ _ _ (by simp)⟩ <;> rw [hcl]

theorem Region.startCluster_ne {r : Region} {c d : Cl} (hd : c ≠ d) (h : AtStrokeZero r c) : AtStrokeZero (r.startCluster d) c := by
  obtain ⟨hrun, hend, hstroke⟩ := h
  have hcl : (r.startCluster d).cl c = r.cl c := by
    rw [Region.startCluster, Region.cl_setF, Region.cl_setCl_ne r _ hd]
  have hne : c.toNat ≠ d.toNat := fun e => hd (BitVec.eq_of_toNat_eq e)
  have hoff : 0x4004 + 256 * c.toNat ≠ 0x4004 + 256 * d.toNat := by omega
  exact ⟨hcl ▸ hrun, hcl ▸ hend, (Region.f_setReg_ne _ _ _ hoff).trans hstroke⟩

theorem Region.startClusters_atStrokeZero (r : Region) (c : Cl) : AtStrokeZero r.startClusters c := by
  rw [Region.startClusters_eq]
  refine foldl_reaches (P := fun m => AtStrokeZero m c) (mem_allClusters c) (fun m => m.startCluster_same c) (fun m d hm => ?_) r
  by_cases hd : c = d
  · subst hd; exact m.startCluster_same c
  · exact Region.startCluster_ne hd hm

theorem Region.begins_strokes (r : Region) : r.begins.f F.FIX_STATUS_STATE = 2 ∧ ∀ c, AtStrokeZero r.begins c := by
  have hstart := r.startClusters_atStrokeZero
  unfold Region.begins
  generalize r.startClusters = u at *
  refine ⟨Region.f_setF_eq _ _ _ (by decide), fun c => ?_⟩
  obtain ⟨hrun, hend, hstroke⟩ := hstart c
  exact ⟨hrun, hend, (Region.f_setReg_ne u _ _ (show 0x4004 + 256 * c.toNat ≠ 0x1004 by omega)).trans hstroke⟩

/-- FIX_OVERHEAD_END where nothing keeps the next cycle back (R46). -/
theorem fixOverheadEnd_begins {s : State} {rg : Rg} {j : Job} (hj : s.jobOf rg = some j) (hstate : s.rf rg F.FIX_STATUS_STATE = 4)
    (hover : (s.rgn rg).fix.overhead = false) (hhold : s.holdsAt j (s.rgn rg).cycle = false) (heas : (s.rgn rg).easelHolds = false)
    (hcheck : (s.rgn rg).fix.checking = false) (hkeep : s.keepsBack rg = false) :
    Completes (.fixOverheadEnd rg) s (fun t => t.rf rg F.FIX_STATUS_STATE = 2 ∧
      (∀ c : Cl, (t.cl rg c).running = true ∧ (t.cl rg c).ended = false ∧ t.rf rg (F.CLU_STATUS_STROKE c.toNat) = 0) ∧ OnlyRegion rg s t) := by
  have hrgn : (s.onRgn rg fun r => { r with fix := { r.fix with overhead := true } }).rgn rg =
      { s.rgn rg with fix := { (s.rgn rg).fix with overhead := true } } := State.rgn_onRgn_same _ _ _
  have hkeep' : (s.onRgn rg fun r => { r with fix := { r.fix with overhead := true } }).keepsBack rg = false := by
    have hjob : (s.onRgn rg fun r => { r with fix := { r.fix with overhead := true } }).jobOf rg = s.jobOf rg :=
      State.jobOf_eq (State.rf_onRgn_same _ _ _ _) (State.rf_onRgn_same _ _ _ _)
    unfold State.keepsBack at hkeep ⊢
    rw [hjob]
    exact hkeep
  have hgo : ¬ ((s.rgn rg).f F.FIX_STATUS_STATE ≠ 4 ∨ (s.rgn rg).fix.overhead = true) := by
    rw [hover]; exact fun h => h.elim (fun h => h hstate) Bool.false_ne_true
  have hbegin : tryBegin (s.onRgn rg fun r => { r with fix := { r.fix with overhead := true } }) rg =
      (s.onRgn rg fun r => { r with fix := { r.fix with overhead := true } }).onRgn rg Region.begins := by
    refine if_pos ?_
    rw [hrgn, hkeep']
    exact ⟨hstate, rfl, by show ¬ (s.rgn rg).easelHolds = true; rw [heas]; exact Bool.false_ne_true,
      by rw [hcheck]; exact Bool.false_ne_true, Bool.false_ne_true⟩
  have hexec : execFixOverheadEnd rg s = .next
      ((s.onRgn rg fun r => { r with fix := { r.fix with overhead := true } }).onRgn rg Region.begins) := by
    unfold execFixOverheadEnd
    rw [hj]
    exact congrArg Host.Outcome.next ((if_neg hgo).trans ((if_neg (by rw [hhold]; exact Bool.false_ne_true)).trans hbegin))
  obtain ⟨hstroking, hclusters⟩ :=
    Region.begins_strokes ((s.onRgn rg fun r => { r with fix := { r.fix with overhead := true } }).rgn rg)
  refine ⟨_, hexec, (State.rf_onRgn_same _ _ _ _).trans hstroking, fun c => ?_, ((OnlyRegion.refl rg s).onRgn _).onRgn _⟩
  have hc := hclusters c
  unfold State.cl State.rf
  rw [State.rgn_onRgn_same]
  exact hc

/-- FIX_OVERHEAD_END where the hold rule holds the cycle (R49). -/
theorem fixOverheadEnd_holds {s : State} {rg : Rg} {j : Job} (hj : s.jobOf rg = some j) (hstate : s.rf rg F.FIX_STATUS_STATE = 4)
    (hover : (s.rgn rg).fix.overhead = false) (hhold : s.holdsAt j (s.rgn rg).cycle = true) :
    Completes (.fixOverheadEnd rg) s (fun t => t.rf rg F.FIX_STATUS_STATE = 5) := by
  have hgo : ¬ ((s.rgn rg).f F.FIX_STATUS_STATE ≠ 4 ∨ (s.rgn rg).fix.overhead = true) := by
    rw [hover]; exact fun h => h.elim (fun h => h hstate) Bool.false_ne_true
  have hexec : execFixOverheadEnd rg s = .next (jobHeld (s.setRf rg F.FIX_STATUS_STATE 5) j) := by
    unfold execFixOverheadEnd
    rw [hj]
    exact congrArg Host.Outcome.next ((if_neg hgo).trans (if_pos hhold))
  refine ⟨_, hexec, ?_⟩
  exact (((Contains.refl _).jobHeld j).rf rg _ (Or.inr (Or.inr rfl))).trans (State.rf_setRf_eq _ _ _ _ (by decide))

/-! ### The limit of a core's hold -/

/-- One core's hold ends as LATE. -/
def Region.endLateOf (r : Region) (k : CoreNo) : Region :=
  if r.bit (F.EAS_STATUS_HOLDING k.val) then
    (((r.setF (F.EAS_STATUS_HOLDING k.val) 0).setF (F.EAS_STATUS_LATE k.val) 1).bump (F.EAS_COUNTS_LATE k.val) 1).setEas k
      { (((r.setF (F.EAS_STATUS_HOLDING k.val) 0).setF (F.EAS_STATUS_LATE k.val) 1).bump (F.EAS_COUNTS_LATE k.val) 1).eas k with late := true }
  else r

theorem Region.endLate_eq (r : Region) : r.endLate = allCores.foldl Region.endLateOf r := rfl

/-- A core's hold has ended as LATE. -/
def HoldEndedLate (k : CoreNo) (r : Region) : Prop :=
  r.f (F.EAS_STATUS_HOLDING k.val) = 0 ∧ r.f (F.EAS_STATUS_LATE k.val) = 1 ∧ (r.eas k).late = true

theorem Region.endLateOf_same {r : Region} {k : CoreNo} (h : r.bit (F.EAS_STATUS_HOLDING k.val) = true) : HoldEndedLate k (r.endLateOf k) := by
  rw [Region.endLateOf, if_pos h]
  refine ⟨?_, ?_, congrArg Easel.late (Region.eas_setEas_same _ _ _)⟩
  · rw [Region.f_setEas, Region.f_bump_other _ _ _ _ (by simp) (by simp), Region.f_setF_other _ _ _ _ (by simp) (by simp)]
    exact Region.f_setF_eq _ _ _ (by simp)
  · rw [Region.f_setEas, Region.f_bump_other _ _ _ _ (by simp) (by simp)]
    exact Region.f_setF_eq _ _ _ (by simp)

/-- The hold of another core leaves this one alone. -/
theorem Region.endLateOf_ne (r : Region) {k i : CoreNo} (h : i ≠ k) :
    (r.endLateOf i).f (F.EAS_STATUS_HOLDING k.val) = r.f (F.EAS_STATUS_HOLDING k.val) ∧
      (r.endLateOf i).f (F.EAS_STATUS_LATE k.val) = r.f (F.EAS_STATUS_LATE k.val) ∧ (r.endLateOf i).eas k = r.eas k := by
  have hne : i.val ≠ k.val := fun e => h (Fin.ext e)
  have hoff : ∀ x : Fld, x.off = 0xe004 + 256 * k.val → (((r.setF (F.EAS_STATUS_HOLDING i.val) 0).setF (F.EAS_STATUS_LATE i.val) 1).bump
      (F.EAS_COUNTS_LATE i.val) 1).f x = r.f x := by
    intro x hx
    refine (Region.f_setReg_ne _ _ _ ?_).trans ((Region.f_setReg_ne _ _ _ ?_).trans (Region.f_setReg_ne _ _ _ ?_)) <;> rw [hx] <;>
      dsimp only <;> omega
  unfold Region.endLateOf
  split
  · exact ⟨(Region.f_setEas _ _ _ _).trans (hoff _ rfl), (Region.f_setEas _ _ _ _).trans (hoff _ rfl), Region.eas_setEas_ne _ _ (Ne.symm h)⟩
  · exact ⟨rfl, rfl, rfl⟩

theorem Region.endLate_late {r : Region} {k : CoreNo} (h : r.bit (F.EAS_STATUS_HOLDING k.val) = true) : HoldEndedLate k r.endLate := by
  have hkeep : ∀ (m : Region) (i : CoreNo), HoldEndedLate k m → HoldEndedLate k (m.endLateOf i) := by
    intro m i hm
    by_cases hi : i = k
    · subst hi
      have hoff : ¬ m.bit (F.EAS_STATUS_HOLDING i.val) = true := by simp [Region.bit, hm.1]
      rw [Region.endLateOf, if_neg hoff]
      exact hm
    · obtain ⟨hh, hl, he⟩ := m.endLateOf_ne hi
      exact ⟨hh.trans hm.1, hl.trans hm.2.1, (congrArg Easel.late he).trans hm.2.2⟩
  have hstep : ∀ m : Region, m.bit (F.EAS_STATUS_HOLDING k.val) = true ∨ HoldEndedLate k m → HoldEndedLate k (m.endLateOf k) := by
    rintro m (hm | hm)
    · exact Region.endLateOf_same hm
    · exact hkeep m k hm
  rw [Region.endLate_eq]
  refine foldl_reaches_from (Q := fun m : Region => m.bit (F.EAS_STATUS_HOLDING k.val) = true ∨ HoldEndedLate k m) (P := HoldEndedLate k)
    (mem_allCores k) (fun m i hm => ?_) hstep hkeep (Or.inl h)
  by_cases hi : i = k
  · subst hi; exact Or.inr (hstep m hm)
  · rcases hm with hm | hm
    · exact Or.inl (by rw [Region.bit, (m.endLateOf_ne hi).1]; exact hm)
    · exact Or.inr (hkeep m i hm)

/-- The cycle log touches neither the cores nor their registers. -/
theorem Region.writeLog_cores (r : Region) (e : BitVec 128) :
    (∀ k, (r.writeLog e).eas k = r.eas k) ∧ ∀ x : Fld, 0xe000 ≤ x.off → (r.writeLog e).f x = r.f x := by
  have hentry : ∀ (i : Nat) (l : List Nat), (∀ w ∈ l, w < 4) → i < 32 → ∀ u : Region,
      (∀ k, (l.foldl (fun (r : Region) w => r.setReg (R.FIX_LOG (4 * i + w)) (bitsAt e (32 * w) 32)) u).eas k = u.eas k) ∧
        ∀ x : Fld, 0xe000 ≤ x.off → (l.foldl (fun (r : Region) w => r.setReg (R.FIX_LOG (4 * i + w)) (bitsAt e (32 * w) 32)) u).f x = u.f x := by
    intro i l hl hi
    induction l with
    | nil => exact fun u => ⟨fun _ => rfl, fun _ _ => rfl⟩
    | cons w l ih =>
      intro u
      obtain ⟨hk, hx⟩ := ih (fun v hv => hl v (List.mem_cons_of_mem _ hv)) (u.setReg (R.FIX_LOG (4 * i + w)) (bitsAt e (32 * w) 32))
      have hw := hl w List.mem_cons_self
      exact ⟨hk, fun x hoff => (hx x hoff).trans (Region.f_setReg_ne _ _ _ (show x.off ≠ 0x1100 + 4 * (4 * i + w) by omega))⟩
  obtain ⟨hk, hx⟩ := hentry ((r.f F.FIX_LOG_PTR_NEWEST + 1) % 32) (List.range 4) (fun w hw => List.mem_range.mp hw) (Nat.mod_lt _ (by decide)) r
  unfold Region.writeLog
  dsimp only
  refine ⟨hk, fun x hoff => ?_⟩
  rw [← hx x hoff]
  exact (Region.f_setReg_ne _ _ _ (show x.off ≠ 0x1030 by omega)).trans (Region.f_setReg_ne _ _ _ (show x.off ≠ 0x102c by omega))

theorem Region.logLate_cores (r : Region) : (∀ k, r.logLate.eas k = r.eas k) ∧ ∀ x : Fld, 0xe000 ≤ x.off → r.logLate.f x = r.f x := by
  have hptr : r.f F.FIX_LOG_PTR_NEWEST < 32 := r.f_lt F.FIX_LOG_PTR_NEWEST
  unfold Region.logLate
  dsimp only
  split
  · exact Region.writeLog_cores _ _
  · exact ⟨fun _ => rfl, fun x hoff => Region.f_setReg_ne _ _ _ (show x.off ≠ 0x1100 + 4 * (4 * r.f F.FIX_LOG_PTR_NEWEST + 2) by omega)⟩

theorem easelHolds_of_bit {r : Region} {k : CoreNo} (h : r.bit (F.EAS_STATUS_HOLDING k.val) = true) : r.easelHolds = true :=
  List.any_eq_true.mpr ⟨k, mem_allCores k, h⟩

/-- The region as the limit of its cores' hold has passed (R349). -/
def Region.ewinPassed (r : Region) : Region := { r.endLate.logLate with fix := { r.endLate.logLate.fix with ewinOut := true } }

/-- EWIN_EXPIRY (R46, R349). -/
theorem ewinExpiry_ends {s : State} {rg : Rg} {k : CoreNo} (hstate : s.rf rg F.FIX_STATUS_STATE = 4) (hlim : s.rf rg F.FIX_CTRL_EWIN ≠ 0)
    (hlive : (s.rgn rg).replaying = false) (hhold : s.rbit rg (F.EAS_STATUS_HOLDING k.val) = true) :
    Completes (.ewinExpiry rg) s (fun t => t.rf rg (F.EAS_STATUS_HOLDING k.val) = 0 ∧ t.rf rg (F.EAS_STATUS_LATE k.val) = 1 ∧
      (t.eas rg k).late = true ∧ OnlyRegion rg s t) := by
  have hexec : execEwinExpiry rg s = .next (tryBegin (s.onRgn rg Region.ewinPassed) rg) :=
    congrArg Host.Outcome.next (if_pos ⟨hstate, bne_iff_ne.mpr hlim, by rw [hlive]; exact Bool.false_ne_true, easelHolds_of_bit hhold⟩)
  obtain ⟨honly, heas, hf⟩ := tryBegin_cores (s.onRgn rg Region.ewinPassed) rg
  obtain ⟨hh, hl, he⟩ := Region.endLate_late (r := s.rgn rg) (k := k) hhold
  obtain ⟨hlog, hlogf⟩ := Region.logLate_cores (s.rgn rg).endLate
  have hrgn : (s.onRgn rg Region.ewinPassed).rgn rg = (s.rgn rg).ewinPassed := State.rgn_onRgn_same _ _ _
  have hoff : ∀ n, 0xe000 ≤ 0xe004 + 256 * n := fun n => by omega
  refine ⟨_, hexec, ?_, ?_, ?_, ((OnlyRegion.refl rg s).onRgn _).trans honly⟩
  · rw [hf _ (hoff k.val), State.rf, hrgn]; exact (hlogf _ (hoff k.val)).trans hh
  · rw [hf _ (hoff k.val), State.rf, hrgn]; exact (hlogf _ (hoff k.val)).trans hl
  · rw [heas k, State.eas, hrgn]; exact (congrArg Easel.late (hlog k)).trans he

/-! ### Completion and boundary -/

/-- The moment of a cycle's completion has been recorded. -/
def Region.noteDone (s : State) (phase : BitVec 4) (r : Region) : Region :=
  { r with fix := { r.fix with doneTick := s.mer.tick, donePhase := phase, doneAt := s.mer.elapsed, doneLate := r.fix.passed } }

/-- CYCLE_COMPLETE before the boundary (R45). -/
theorem cycleComplete_completes {s : State} {rg : Rg} (phase : BitVec 4) (hstate : s.rf rg F.FIX_STATUS_STATE = 2)
    (hend : ∀ c : Cl, (s.cl rg c).ended = true) (hacc : (s.rgn rg).fix.unaccepted = 0) (hpass : (s.rgn rg).fix.passed = false) :
    Completes (.cycleComplete rg phase) s (fun t => t.rf rg F.FIX_STATUS_STATE = 3 ∧ (t.rgn rg).fix.doneTick = s.mer.tick ∧
      (t.rgn rg).fix.donePhase = phase ∧ OnlyRegion rg s t ∧ SameStores { s.rgn rg with fix := (t.rgn rg).fix } (t.rgn rg)) := by
  have hrgn : (s.onRgn rg (Region.noteDone s phase)).rgn rg = (s.rgn rg).noteDone s phase := State.rgn_onRgn_same _ _ _
  have hexec : execCycleComplete rg phase s = .next ((s.onRgn rg (Region.noteDone s phase)).setRf rg F.FIX_STATUS_STATE 3) := by
    have hdone : (s.rgn rg).f F.FIX_STATUS_STATE = 2 ∧ allClusters.all (fun c => ((s.rgn rg).cl c).ended) = true ∧ (s.rgn rg).fix.unaccepted = 0 :=
      ⟨hstate, List.all_eq_true.mpr fun c _ => hend c, hacc⟩
    exact congrArg Host.Outcome.next ((if_pos hdone).trans (if_pos (by rw [hpass]; exact Bool.false_ne_true)))
  have hfin : ((s.onRgn rg (Region.noteDone s phase)).setRf rg F.FIX_STATUS_STATE 3).rgn rg =
      ((s.rgn rg).noteDone s phase).setF F.FIX_STATUS_STATE 3 := by rw [State.setRf, State.rgn_onRgn_same, hrgn]
  refine ⟨_, hexec, State.rf_setRf_eq _ _ _ _ (by decide), ?_, ?_, ((OnlyRegion.refl rg s).onRgn _).setRf _ _, ?_⟩ <;> rw [hfin]
  · rfl
  · rfl
  · exact ⟨rfl, rfl, rfl, rfl, rfl, rfl, rfl, rfl⟩

/-- Before its boundary has passed the next one to observe is B(N). -/
theorem nextBoundary_first {s : State} {rg : Rg} (hpass : (s.rgn rg).fix.passed = false) :
    s.nextBoundary rg = (s.rgn rg).get48 R.FIX_BOUND_LO R.FIX_BOUND_HI := by
  unfold State.nextBoundary
  simp only [hpass, Bool.false_eq_true, if_false]
  exact BitVec.add_zero _

/-- The boundary of the cycle has been observed. -/
def Region.notePassed (s : State) (r : Region) : Region :=
  { r with fix := { r.fix with passed := true, passAt := s.mer.elapsed, passReck := decide (4 ≤ s.f F.MER_STATUS_STATE) } }

/-- What the observation of a boundary leads on from. -/
theorem boundaryPass_noted {s : State} {rg : Rg} (hcyc : (s.rgn rg).inCycle = true) (hpass : (s.rgn rg).fix.passed = false)
    (htick : tickLe ((s.rgn rg).get48 R.FIX_BOUND_LO R.FIX_BOUND_HI) s.mer.tick = true) :
    execBoundaryPass rg false s = .next (
      if (s.rgn rg).f F.FIX_STATUS_STATE ≠ 3 then s.onRgn rg (Region.notePassed s)
      else if (s.rgn rg).fix.spacing then waitSpacing (s.onRgn rg (Region.notePassed s)) rg
      else doFix (s.onRgn rg (Region.notePassed s)) rg false) := by
  have hgo : ¬ (¬ (s.rgn rg).inCycle = true ∨ ¬ tickLe (s.nextBoundary rg) s.mer.tick = true) := by
    rw [nextBoundary_first hpass, hcyc, htick]; exact fun h => h.elim (· rfl) (· rfl)
  have hnoted : s.onRgn rg (fun r => if r.fix.passed then
      { r with fix := { r.fix with later := r.fix.later ++ [(s.mer.elapsed, decide (4 ≤ s.f F.MER_STATUS_STATE))] } }
      else { r with fix := { r.fix with passed := true, passAt := s.mer.elapsed, passReck := decide (4 ≤ s.f F.MER_STATUS_STATE) } }) =
      s.onRgn rg (Region.notePassed s) := by
    unfold State.onRgn
    dsimp only
    rw [hpass]
    rfl
  unfold execBoundaryPass
  dsimp only
  rw [if_neg hgo, if_neg Bool.false_ne_true, hnoted, hpass]
  by_cases h3 : (s.rgn rg).f F.FIX_STATUS_STATE ≠ 3
  · rw [if_pos h3, if_pos (Or.inr h3)]
  · rw [if_neg h3, if_neg (by rintro (h | h); exacts [Bool.false_ne_true h, h3 h])]

theorem boundaryPass_stroking {s : State} {rg : Rg} (hstate : s.rf rg F.FIX_STATUS_STATE = 2) (hpass : (s.rgn rg).fix.passed = false)
    (htick : tickLe ((s.rgn rg).get48 R.FIX_BOUND_LO R.FIX_BOUND_HI) s.mer.tick = true) :
    Completes (.boundaryPass rg false) s (fun t => (t.rgn rg).fix.passed = true ∧ (t.rgn rg).fix.passAt = s.mer.elapsed ∧
      t.rf rg F.FIX_STATUS_STATE = 2 ∧ OnlyRegion rg s t) := by
  have hstate' : (s.rgn rg).f F.FIX_STATUS_STATE = 2 := hstate
  have hcyc : (s.rgn rg).inCycle = true := by simp [Region.inCycle, hstate']
  have hexec := boundaryPass_noted hcyc hpass htick
  rw [if_pos (by rw [hstate']; decide)] at hexec
  have hrgn : (s.onRgn rg (Region.notePassed s)).rgn rg = (s.rgn rg).notePassed s := State.rgn_onRgn_same _ _ _
  refine ⟨_, hexec, ?_, ?_, (State.rf_onRgn_same _ _ _ _).trans hstate, (OnlyRegion.refl rg s).onRgn _⟩ <;> rw [hrgn] <;> rfl

theorem boundaryPass_parity {s : State} {rg : Rg} (hstate : 2 ≤ s.rf rg F.FIX_STATUS_STATE ∧ s.rf rg F.FIX_STATUS_STATE ≤ 4)
    (hpass : (s.rgn rg).fix.passed = false) (htick : tickLe ((s.rgn rg).get48 R.FIX_BOUND_LO R.FIX_BOUND_HI) s.mer.tick = true)
    (hiso : s.rf rg F.RGN_CTRL_ISOLATE = 0) :
    Completes (.boundaryPass rg true) s (fun t => t.rf rg F.RGN_CTRL_ISOLATE = 1 ∧ t.rf rg F.RGN_STATUS_ISO_CAUSE = 3 ∧
      t.rf rg F.FIX_STATUS_STATE = 0) := by
  have hcyc : (s.rgn rg).inCycle = true := by
    simp only [Region.inCycle, Bool.and_eq_true, decide_eq_true_eq]; exact hstate
  have hgo : ¬ (¬ (s.rgn rg).inCycle = true ∨ ¬ tickLe (s.nextBoundary rg) s.mer.tick = true) := by
    rw [nextBoundary_first hpass, hcyc, htick]; exact fun h => h.elim (· rfl) (· rfl)
  have hexec : execBoundaryPass rg true s = .next (isolate s rg 3 6) :=
    congrArg Host.Outcome.next ((if_neg hgo).trans ((if_pos rfl).trans (if_neg (by rw [rbit_of_zero hiso]; exact Bool.false_ne_true))))
  have h := isolate_isolatedBy (s := s) (rg := rg) 3 6 (rbit_of_zero hiso)
  exact ⟨_, hexec, h.isolated, h.cause, h.fix⟩

/-- MIN_FIX_SPACING where no fix waits for it (R43). -/
theorem minFixSpacing_ends {s : State} {rg : Rg} (hsp : (s.rgn rg).fix.spacing = true) (hstate : s.rf rg F.FIX_STATUS_STATE ≠ 3) :
    Completes (.minFixSpacing rg) s (fun t => (t.rgn rg).fix.spacing = false ∧ OnlyRegion rg s t) := by
  have hexec : execMinFixSpacing rg s = .next (s.onRgn rg fun r => { r with fix := { r.fix with spacing := false } }) :=
    congrArg Host.Outcome.next ((if_neg (not_not_intro hsp)).trans (if_neg fun h => hstate h.1))
  refine ⟨_, hexec, ?_, (OnlyRegion.refl rg s).onRgn _⟩
  rw [State.rgn_onRgn_same]

/-- Settles O3. -/
theorem fixEngineEvents : Obligations.FixEngineEvents := by
  unfold Obligations.FixEngineEvents
  exact ⟨fun _ phase _ hstate hend hacc hpass => cycleComplete_completes phase hstate hend hacc hpass,
    fun _ _ hstate hpass htick => boundaryPass_stroking hstate hpass htick,
    fun _ _ hlo hpass htick hiso => boundaryPass_parity hlo hpass htick hiso,
    fun _ _ hsp hstate => minFixSpacing_ends hsp hstate,
    fun _ _ _ hj hstate hover hhold heas hcheck hkeep => fixOverheadEnd_begins hj hstate hover hhold heas hcheck hkeep,
    fun _ _ _ hj hstate hover hhold => fixOverheadEnd_holds hj hstate hover hhold,
    fun _ _ _ hstate hlim hlive hhold => ewinExpiry_ends hstate hlim hlive hhold,
    fun rg s => ⟨_, rfl, State.rf_setRf_eq _ _ _ _ (by decide), (OnlyRgnRegs.refl rg _ s).setRf (by decide) _⟩⟩

end Sys2Proof.Machine
end

section
/-! PROOFS. Lasting faults, the taint logs, and the tests of regions in service and on demand (R452, R460–R468, R471). -/

namespace Sys2Proof.Machine

/-! ### Lasting faults -/

theorem State.tracks_ibi (s : State) (cls loc arg : Nat) : (s.ibi cls loc arg).tracks = s.tracks := by
  unfold State.ibi
  split
  · rfl
  · dsimp only
    split <;> rfl

/-- What is queued for a test after a lasting fault stands in no register. -/
theorem declareLasting_regs (s : State) (src : BitVec 5) (l : BitVec 3) (key : Word) (now : Nat) :
    (declareLasting s src.toNat l.toNat key now).tracks = s.tracks ∧ (declareLasting s src.toNat l.toNat key now).f F.FLT_STATUS_LASTING = 1 ∧
      (declareLasting s src.toNat l.toNat key now).f F.FLT_LOG_PTR_LASTING = (s.f F.FLT_LOG_PTR_LASTING + 1) % 16 ∧
      (declareLasting s src.toNat l.toNat key now).reg (R.FLT_LASTING_LOG_1 ((s.f F.FLT_LOG_PTR_LASTING + 1) % 16)) = key ∧
      (declareLasting s src.toNat l.toNat key now).reg (R.FLT_LASTING_LOG_2 ((s.f F.FLT_LOG_PTR_LASTING + 1) % 16)) = BitVec.ofNat 32 now ∧
      ((declareLasting s src.toNat l.toNat key now).reg R.HIF_IBI_PEND).getLsbD 0x13 = true := by
  have hsrc := src.isLt
  have hl := l.isLt
  have hi : (s.f F.FLT_LOG_PTR_LASTING + 1) % 16 < 16 := Nat.mod_lt _ (by decide)
  unfold declareLasting
  extract_lets i s1 s2 s3 s4
  have hptr : (s3.f F.FLT_LOG_PTR_LASTING) = i := by
    unfold s3
    rw [State.f_bump_other _ _ _ _ (by simp) (Or.inl (by dsimp only; omega)), State.f_setF_eq _ _ _ (by decide)]
    exact Nat.mod_eq_of_lt hi
  have hlog1 : s3.reg (R.FLT_LASTING_LOG_1 i) = key := by
    have hi : i < 16 := hi
    unfold s3 s2
    rw [State.reg_bump_other _ _ _ (by dsimp only [R.FLT_LASTING_LOG_1]; omega), State.reg_setF_other _ _ _ (by dsimp only [R.FLT_LASTING_LOG_1]; omega),
      State.reg_setReg_other _ _ (by dsimp only [R.FLT_LASTING_LOG_1, R.FLT_LASTING_LOG_2]; omega), State.reg_setReg_same]
  have hlog2 : s3.reg (R.FLT_LASTING_LOG_2 i) = BitVec.ofNat 32 now := by
    have hi : i < 16 := hi
    unfold s3 s2
    rw [State.reg_bump_other _ _ _ (by dsimp only [R.FLT_LASTING_LOG_2]; omega), State.reg_setF_other _ _ _ (by dsimp only [R.FLT_LASTING_LOG_2]; omega),
      State.reg_setReg_same]
  have hregs : s4.tracks = s.tracks ∧ s4.f F.FLT_STATUS_LASTING = 1 ∧ s4.f F.FLT_LOG_PTR_LASTING = i ∧ s4.reg (R.FLT_LASTING_LOG_1 i) = key ∧
      s4.reg (R.FLT_LASTING_LOG_2 i) = BitVec.ofNat 32 now ∧ (s4.reg R.HIF_IBI_PEND).getLsbD 0x13 = true := by
    have hi : i < 16 := hi
    have hreg : ∀ a, 0x40000 < a → a ≠ 0x40004 → s4.reg a = s3.reg a := fun a ha hn => by
      unfold s4
      rw [State.reg_ibi _ _ _ _ (by unfold R.HIF_IBI_PEND; omega) (by dsimp only; omega) (by dsimp only; omega), State.reg_setF_other _ _ _ hn]
    refine ⟨State.tracks_ibi _ _ _ _, ?_, ?_, ?_, ?_, State.ibi_pend _ _ _ _ (by decide)⟩
    · unfold s4
      rw [State.f_ibi _ _ _ _ _ (by decide) (by decide) (by decide), State.f_setF_eq _ _ _ (by decide)]
      rfl
    · exact (congrArg F.FLT_LOG_PTR_LASTING.of (hreg R.FLT_LOG_PTR (by decide) (by decide))).trans hptr
    · exact (hreg _ (by unfold R.FLT_LASTING_LOG_1; omega) (by unfold R.FLT_LASTING_LOG_1; omega)).trans hlog1
    · exact (hreg _ (by unfold R.FLT_LASTING_LOG_2; omega) (by unfold R.FLT_LASTING_LOG_2; omega)).trans hlog2
  split
  · exact hregs
  · exact hregs

theorem exec_classify {l : BitVec 3} {src : BitVec 5} {key : Word} {rest : List (BitVec 5 × Word)} {s : State}
    (hq : SMap.get [] s.faultQ l.toNat = (src, key) :: rest) (since : Word) :
    exec (.classify l since) s = .next (classify { s with faultQ := SMap.set [] s.faultQ l.toNat rest } src l.toNat key (s.msAt since)) := by
  show execClassify l since s = _
  unfold execClassify
  rw [hq]

theorem classify_unseen {s : State} {src : BitVec 5} {l : BitVec 3} {key : Word} (now : Nat) (hn : 2 ≤ s.f (F.FLT_CLASS_N src.toNat))
    (hroom : s.tracks.length < 512) (hnew : ∀ x ∈ s.tracks, x.src ≠ src ∨ x.loc ≠ l ∨ x.key ≠ key) :
    classify s src l.toNat key now = { s with tracks := s.tracks ++ [⟨src, l, key, 1, now⟩] } := by
  have hfind : s.tracks.find? (fun x => decide (x.src = src ∧ x.loc.toNat = l.toNat ∧ x.key = key)) = none := by
    refine List.find?_eq_none.mpr fun x hx => ?_
    simp only [decide_eq_true_eq, BitVec.toNat_inj]
    rintro ⟨hs, hl, hk⟩
    rcases hnew x hx with h | h | h
    · exact h hs
    · exact h hl
    · exact h hk
  unfold classify
  extract_lets n fresh reach
  rw [if_neg (by omega), hfind]
  dsimp only
  have hfresh : fresh = ⟨src, l, key, 1, now⟩ := by unfold fresh; rw [BitVec.ofNat_toNat, BitVec.setWidth_eq]
  rw [if_pos hroom, hfresh]
  exact if_neg (by omega)

theorem classify_reaches {s : State} {src : BitVec 5} {l : BitVec 3} {key : Word} {first now : Nat} {n : BitVec 9}
    (hn : s.f (F.FLT_CLASS_N src.toNat) = n.toNat + 1) (hlt : n.toNat < 255) (htrack : s.tracks = [⟨src, l, key, n, first⟩])
    (hw : now - first ≤ 100 * s.f (F.FLT_CLASS_W src.toNat)) :
    classify s src l.toNat key now = declareLasting { s with tracks := [⟨src, l, key, n + 1, first⟩] } src.toNat l.toNat key now := by
  have hcount : satAdd n 1 = n + 1 := by
    unfold satAdd
    rw [if_pos (by omega)]
    bv_omega
  have hone : (n + 1).toNat = n.toNat + 1 := by bv_omega
  have hfind : s.tracks.find? (fun x => decide (x.src = src ∧ x.loc.toNat = l.toNat ∧ x.key = key)) = some ⟨src, l, key, n, first⟩ := by
    rw [htrack]
    simp
  unfold classify
  extract_lets m fresh reach
  rw [if_neg (by omega), hfind]
  dsimp only
  have hput : putTrack s.tracks ⟨src, l, key, n, first⟩ ⟨src, l, key, satAdd n 1, first⟩ = [⟨src, l, key, n + 1, first⟩] := by
    rw [htrack, hcount]
    simp [putTrack]
  rw [if_pos (show now - first ≤ s.classWindow src.toNat from hw), hput, hcount, hone]
  exact if_pos hn.symm

/-! ### The taint logs -/

/-- The taint log of quadrant `q` is emptied where the mask names it (R471). -/
def clearTaint (mask : BitVec 4) (s : State) (q : Nat) : State :=
  if mask.getLsbD q then ((s.setF (F.TNT_PTR_NEWEST q) 0x3FF).setF (F.TNT_PTR_WRAPPED q) 0).setF (F.TNT_COUNT_ENTRIES q) 0 else s

theorem exec_taintClear (mask : BitVec 4) (s : State) : exec (.taintClear mask) s = .next (foldS (List.range 4) s (clearTaint mask)) := rfl

theorem clearTaint_hub (mask : BitVec 4) (s : State) (q : Nat) : clearTaint mask s q = { s with regs := (clearTaint mask s q).regs } := by
  unfold clearTaint
  split <;> rfl

theorem reg_clearTaint (mask : BitVec 4) (s : State) (q : Nat) {a : Nat} (h : mask.getLsbD q = true → a ≠ R.TNT_PTR q ∧ a ≠ R.TNT_COUNT q) :
    (clearTaint mask s q).reg a = s.reg a := by
  unfold clearTaint
  split
  · next hq =>
    obtain ⟨hp, hc⟩ := h hq
    rw [State.reg_setF_other _ _ _ hc, State.reg_setF_other _ _ _ hp, State.reg_setF_other _ _ _ hp]
  · rfl

/-- The log of quadrant `q` is empty. -/
def TaintEmpty (q : Nat) (s : State) : Prop :=
  s.f (F.TNT_PTR_NEWEST q) = 0x3FF ∧ s.f (F.TNT_PTR_WRAPPED q) = 0 ∧ s.f (F.TNT_COUNT_ENTRIES q) = 0

theorem clearTaint_empty (s : State) {mask : BitVec 4} {q : Nat} (h : mask.getLsbD q = true) : TaintEmpty q (clearTaint mask s q) := by
  unfold clearTaint TaintEmpty
  rw [if_pos h]
  refine ⟨?_, ?_, ?_⟩
  · rw [State.f_setF_other _ _ _ _ (by simp) (Or.inl (by dsimp only; omega)), State.f_setF_other _ _ _ _ (by simp) (Or.inr (by simp)),
      State.f_setF_eq _ _ _ (by simp)]
    rfl
  · rw [State.f_setF_other _ _ _ _ (by simp) (Or.inl (by dsimp only; omega)), State.f_setF_eq _ _ _ (by simp)]
    rfl
  · rw [State.f_setF_eq _ _ _ (by simp)]
    rfl

theorem TaintEmpty.clearTaint {q r : Nat} {s : State} (h : TaintEmpty q s) (mask : BitVec 4) : TaintEmpty q (clearTaint mask s r) := by
  by_cases hr : mask.getLsbD r = true ∧ q = r
  · obtain ⟨hm, rfl⟩ := hr
    exact clearTaint_empty s hm
  · have hp : (Machine.clearTaint mask s r).reg (R.TNT_PTR q) = s.reg (R.TNT_PTR q) :=
      reg_clearTaint _ _ _ fun hm => by
        have hne : q ≠ r := fun e => hr ⟨hm, e⟩
        unfold R.TNT_PTR R.TNT_COUNT
        omega
    have hc : (Machine.clearTaint mask s r).reg (R.TNT_COUNT q) = s.reg (R.TNT_COUNT q) :=
      reg_clearTaint _ _ _ fun hm => by
        have hne : q ≠ r := fun e => hr ⟨hm, e⟩
        unfold R.TNT_PTR R.TNT_COUNT
        omega
    obtain ⟨hnew, hwrap, hcount⟩ := h
    exact ⟨(congrArg (F.TNT_PTR_NEWEST q).of hp).trans hnew, (congrArg (F.TNT_PTR_WRAPPED q).of hp).trans hwrap,
      (congrArg (F.TNT_COUNT_ENTRIES q).of hc).trans hcount⟩

theorem reg_clearTaints (mask : BitVec 4) (s : State) {a : Nat}
    (h : ∀ q : Fin 4, mask.getLsbD q.val = true → a ≠ R.TNT_PTR q.val ∧ a ≠ R.TNT_COUNT q.val) :
    (foldS (List.range 4) s (clearTaint mask)).reg a = s.reg a :=
  foldS_induct (P := fun t => t.reg a = s.reg a) _
    (fun t q hq ht => (reg_clearTaint mask t q (h ⟨q, List.mem_range.mp hq⟩)).trans ht) rfl

theorem clearTaints_hub (mask : BitVec 4) (s : State) :
    foldS (List.range 4) s (clearTaint mask) = { s with regs := (foldS (List.range 4) s (clearTaint mask)).regs } :=
  foldS_induct (P := fun t => t = { s with regs := t.regs }) _ (fun t q _ ht => by
    rw [clearTaint_hub mask t q, ht]) rfl

end Sys2Proof.Machine
end

section
/-! PROOFS. The tests of a region in service and on demand: how they begin, proceed, are abandoned and end (R460–R464). -/

namespace Sys2Proof.Machine

/-! ### The bit of FLT.TESTING -/

theorem testingReg_cases (rg : Rg) : testingReg rg = R.FLT_TESTING_LO ∨ testingReg rg = R.FLT_TESTING_HI := by
  unfold testingReg
  split
  · exact .inl rfl
  · exact .inr rfl

theorem State.testing_of_regs {s t : State} (h : t.regs = s.regs) (rg : Rg) : t.testing rg = s.testing rg := by
  unfold State.testing State.reg
  rw [h]

theorem State.testing_setReg (s : State) {a : Nat} (v : Word) (rg : Rg) (hlo : a ≠ R.FLT_TESTING_LO) (hhi : a ≠ R.FLT_TESTING_HI) :
    (s.setReg a v).testing rg = s.testing rg := by
  unfold State.testing
  rcases testingReg_cases rg with h | h
  · rw [h, State.reg_setReg_other _ _ hlo.symm]
  · rw [h, State.reg_setReg_other _ _ hhi.symm]

theorem State.testing_setTesting_same (s : State) (rg : Rg) (v : Bool) : (s.setTesting rg v).testing rg = v := by
  unfold State.testing State.setTesting
  rw [State.reg_setReg_same]
  exact getLsbD_setBit_same _ _ (Nat.mod_lt _ (by decide))

theorem State.testing_setTesting_other (s : State) {rg rh : Rg} (v : Bool) (h : rh ≠ rg) :
    (s.setTesting rg v).testing rh = s.testing rh := by
  unfold State.testing State.setTesting
  by_cases hr : testingReg rh = testingReg rg
  · have hbit : rh.toNat % 32 ≠ rg.toNat % 32 := by
      have h1 := rh.isLt
      have h2 := rg.isLt
      have hne : rh.toNat ≠ rg.toNat := fun e => h (BitVec.eq_of_toNat_eq e)
      unfold testingReg at hr
      split at hr <;> split at hr <;> simp only [R.FLT_TESTING_LO, R.FLT_TESTING_HI] at hr <;> omega
    rw [hr, State.reg_setReg_same, getLsbD_setBit_ne _ _ hbit]
  · rw [State.reg_setReg_other _ _ hr]

theorem State.f_setTesting (s : State) (rg : Rg) (v : Bool) {x : Fld} (hlo : x.off ≠ R.FLT_TESTING_LO) (hhi : x.off ≠ R.FLT_TESTING_HI) :
    (s.setTesting rg v).f x = s.f x := by
  unfold State.setTesting
  refine State.f_setReg_other _ _ _ ?_
  rcases testingReg_cases rg with h | h <;> rw [h]
  · exact hlo
  · exact hhi

theorem not_testing_of_count {s : State} (h : s.testCount = 0) (rg : Rg) : s.testing rg = false := by
  have hnil := List.length_eq_zero_iff.mp h
  exact Bool.not_eq_true _ ▸ List.filter_eq_nil_iff.mp hnil rg (mem_allRegions rg)

/-! ### A test is abandoned, and what it delayed proceeds -/

theorem abandonTest_of_idle {s : State} {rg : Rg} (h : s.testing rg = false) : abandonTest s rg = s :=
  if_pos (by rw [h]; exact Bool.false_ne_true)

theorem getLsbD_later (d : Bool) (x y : BitVec 64) {i : Nat} (h : i < 64) :
    (if d then (if d then setBit x i true else x) else if d then y else setBit y i true).getLsbD i = true := by
  cases d
  · exact getLsbD_setBit_same y true h
  · exact getLsbD_setBit_same x true h

/-- The test of the region is over, and is to continue later (R464). -/
structure Abandoned (rg : Rg) (s t : State) : Prop where
  testing : t.testing rg = false
  others : ∀ rh, rh ≠ rg → t.testing rh = s.testing rh
  state : t.f F.FLT_BIST_STAT_STATE = 4
  fails : t.f F.FLT_BIST_STAT_FAILS = s.f F.FLT_BIST_STAT_FAILS
  later : (if s.bist.demand.getLsbD rg.toNat then t.bist.asked else t.bist.queued).getLsbD rg.toNat = true
  flash : t.flash = s.flash

theorem abandonTest_abandons {s : State} {rg : Rg} (h : s.testing rg = true) : Abandoned rg s (abandonTest s rg) := by
  unfold abandonTest
  rw [if_neg (not_not_intro h)]
  refine ⟨?_, fun rh hne => ?_, ?_, ?_, ?_, rfl⟩
  · exact (State.testing_setReg _ _ rg (by decide) (by decide)).trans
      ((State.testing_setReg _ _ rg (by decide) (by decide)).trans (s.testing_setTesting_same rg false))
  · exact (State.testing_setReg _ _ rh (by decide) (by decide)).trans
      ((State.testing_setReg _ _ rh (by decide) (by decide)).trans (s.testing_setTesting_other false hne))
  · simp
  · have hset : ∀ v, (s.setTesting rg v).f F.FLT_BIST_STAT_FAILS = s.f F.FLT_BIST_STAT_FAILS := fun v =>
      s.f_setTesting rg v (by decide) (by decide)
    simp [hset]
  · exact getLsbD_later (s.bist.demand.getLsbD rg.toNat) _ _ rg.isLt

/-- What a test step delayed proceeds: the regions change, and a step in progress may be broken off. -/
def Proceeds (s t : State) : Prop := ∃ rgns broken, t = { s with rgns := rgns, bist := { s.bist with broken := broken } }

theorem Proceeds.refl (s : State) : Proceeds s s := ⟨s.rgns, s.bist.broken, rfl⟩

theorem Proceeds.trans {s t u : State} (h : Proceeds s t) (h' : Proceeds t u) : Proceeds s u := by
  obtain ⟨_, _, rfl⟩ := h
  obtain ⟨_, _, rfl⟩ := h'
  exact ⟨_, _, rfl⟩

theorem Proceeds.onRgn {s t : State} (h : Proceeds s t) (rg : Rg) (g : Region → Region) : Proceeds s (t.onRgn rg g) :=
  h.trans ⟨_, _, rfl⟩

theorem Proceeds.takeInterrupt {s t : State} (h : Proceeds s t) (rg : Rg) (k : CoreNo) : Proceeds s (takeInterrupt t rg k) :=
  h.trans ⟨_, _, rfl⟩

theorem Proceeds.ite {s t u : State} {c : Prop} {_ : Decidable c} (ht : Proceeds s t) (hu : Proceeds s u) : Proceeds s (if c then t else u) := by
  split <;> assumption

theorem Proceeds.haltCore {s t : State} (h : Proceeds s t) (rg : Rg) (k : CoreNo) (cause unit : Nat) : Proceeds s (haltCore t rg k cause unit) :=
  (h.onRgn rg _).onRgn rg _

theorem Proceeds.retire {s t : State} (h : Proceeds s t) (rg : Rg) (k : CoreNo) (ie : Bool) (next : Option (BitVec 15)) :
    Proceeds s (retire t rg k ie next) := by
  have hcount := (h.onRgn rg fun r => r.setEas k ((r.eas k).complete ie next)).onRgn rg fun r => r.bump (F.EAS_PERF_INSN_COUNT k.val) 1
  exact Proceeds.ite (hcount.haltCore _ _ _ _) (Proceeds.ite (hcount.haltCore _ _ _ _) hcount)

theorem Proceeds.serveInterrupt {s t : State} (h : Proceeds s t) (rg : Rg) (k : CoreNo) : Proceeds s (serveInterrupt t rg k) := by
  unfold Machine.serveInterrupt
  refine .ite h (.ite (h.trans ⟨_, _, rfl⟩) (.ite ?_ (.ite (h.takeInterrupt rg k) h)))
  have hback := (h.onRgn rg fun r => r.setF (F.EAS_STATUS_STATE k.val) 1).retire rg k (t.eas rg k).ie none
  exact .ite hback (hback.takeInterrupt rg k)

theorem Proceeds.beginLate {s t : State} (h : Proceeds s t) (rg : Rg) : Proceeds s (beginLate t rg) := by
  have hbegin : Proceeds s (tryBegin t rg) := .ite (h.onRgn rg _) h
  unfold Machine.beginLate
  split
  · exact h
  · exact .ite (hbegin.onRgn rg _) hbegin

theorem proceedAfter_proceeds (s : State) (rg : Rg) : Proceeds s (proceedAfter s rg) :=
  Proceeds.beginLate (foldS_induct (P := Proceeds s) allCores (fun _ k _ h => h.serveInterrupt rg k) (.refl s)) rg

theorem Abandoned.proceeds {rg : Rg} {s t u : State} (h : Abandoned rg s t) (hu : Proceeds t u) : Abandoned rg s u := by
  obtain ⟨_, _, rfl⟩ := hu
  obtain ⟨htest, hothers, hstate, hfails, hlater, hflash⟩ := h
  exact ⟨htest, hothers, hstate, hfails, hlater, hflash⟩

/-! ### A test begins -/

theorem takeBlock_takes {s : State} {rg : Rg} (h : s.nextBlocks rg ≠ []) :
    ∃ bank unsound, takeBlock s rg = { s with drawn := s.drawn + 1, bist := { s.bist with bank := bank, unsound := unsound } } := by
  unfold takeBlock
  split
  · next hnil => exact absurd hnil h
  · exact ⟨_, _, rfl⟩

theorem blocksLeft_fresh {s : State} {rg : Rg} (h : SMap.get 0 s.bist.tested (s.passKey rg) = 0) : s.blocksLeft rg ≠ [] := by
  have hmem : 0 ∈ s.blocksLeft rg := by
    unfold State.blocksLeft
    rw [h]
    simp
  exact List.ne_nil_of_mem hmem

theorem nextBlocks_ne_nil {s : State} {rg : Rg} (hleft : s.blocksLeft rg ≠ []) (hrest : (s.rgn rg).restful = true)
    (hidle : s.bist.demand.getLsbD rg.toNat = true ∨ (s.rgn rg).coresIdle = true) : s.nextBlocks rg ≠ [] := by
  obtain ⟨b, hb⟩ := List.exists_mem_of_ne_nil _ hleft
  refine List.ne_nil_of_mem (a := b) (List.mem_filter.mpr ⟨hb, ?_⟩)
  rcases hidle with h | h <;> simp [hrest, h]

theorem nextBlocks_of_memory {s : State} {rg : Rg} (h : ∃ b ∈ s.blocksLeft rg, b < 1161) : s.nextBlocks rg ≠ [] := by
  obtain ⟨b, hb, hlt⟩ := h
  exact List.ne_nil_of_mem (a := b) (List.mem_filter.mpr ⟨hb, by simp [hlt]⟩)

/-- What the state of the tests is when a pass over the region begins or continues. -/
def Bist.begun (b : Bist) (rg : Rg) (demand : Bool) : Bist :=
  { b with queued := if demand then b.queued else setBit b.queued rg.toNat false
           asked := if demand then setBit b.asked rg.toNat false else b.asked
           demand := setBit b.demand rg.toNat demand, broken := setBit b.broken rg.toNat false }

/-- The record of the tested blocks begins anew where none is left. -/
def State.renewPass (s : State) (rg : Rg) : State :=
  if s.blocksLeft rg = [] then { s with bist := { s.bist with tested := SMap.set 0 s.bist.tested (s.passKey rg) 0 } } else s

theorem State.passKey_tested (s : State) (m : SMap (BitVec 1218)) (rg : Rg) :
    State.passKey { s with bist := { s.bist with tested := m } } rg = s.passKey rg := rfl

theorem State.renewPass_left (s : State) (rg : Rg) : (s.renewPass rg).blocksLeft rg ≠ [] := by
  unfold State.renewPass
  split
  · refine blocksLeft_fresh ?_
    dsimp only
    rw [s.passKey_tested (SMap.set 0 s.bist.tested (s.passKey rg) 0), SMap.get_set_same]
  · assumption

theorem State.renewPass_frame (s : State) (rg : Rg) : ∃ tested, s.renewPass rg = { s with bist := { s.bist with tested := tested } } := by
  unfold State.renewPass
  split
  · exact ⟨_, rfl⟩
  · exact ⟨_, rfl⟩

theorem beginTest_eq (s : State) (rg : Rg) (demand : Bool) :
    beginTest s rg demand = takeBlock (State.renewPass { ((s.setTesting rg true).setF F.FLT_BIST_STAT_STATE 1).setF F.FLT_BIST_STAT_OCCASION
      (if demand then 3 else 2) with bist := s.bist.begun rg demand } rg) rg := rfl

theorem beginTest_begins {s : State} {rg : Rg} {demand : Bool} (hrest : (s.rgn rg).restful = true)
    (hidle : demand = true ∨ (s.rgn rg).coresIdle = true) :
    (beginTest s rg demand).testing rg = true ∧ (beginTest s rg demand).f F.FLT_BIST_STAT_STATE = 1 ∧
      (beginTest s rg demand).f F.FLT_BIST_STAT_OCCASION = (if demand then 3 else 2) ∧ (beginTest s rg demand).rgns = s.rgns ∧
      (beginTest s rg demand).flash = s.flash := by
  rw [beginTest_eq]
  generalize hu : ({ ((s.setTesting rg true).setF F.FLT_BIST_STAT_STATE 1).setF F.FLT_BIST_STAT_OCCASION
      (if demand then 3 else 2) with bist := s.bist.begun rg demand } : State) = u
  have htest : u.testing rg = true := by
    rw [← hu]
    exact (State.testing_setReg _ _ rg (by decide) (by decide)).trans
      ((State.testing_setReg _ _ rg (by decide) (by decide)).trans (s.testing_setTesting_same rg true))
  have hstate : u.f F.FLT_BIST_STAT_STATE = 1 := by rw [← hu]; simp
  have hocc : u.f F.FLT_BIST_STAT_OCCASION = if demand then 3 else 2 := by rw [← hu]; cases demand <;> simp
  have hrgns : u.rgns = s.rgns := by rw [← hu]; rfl
  have hflash : u.flash = s.flash := by rw [← hu]; rfl
  have hdemand : u.bist.demand.getLsbD rg.toNat = demand := by rw [← hu]; exact getLsbD_setBit_same _ _ rg.isLt
  have hrgn : u.rgn rg = s.rgn rg := by unfold State.rgn; rw [hrgns]
  have hleft := u.renewPass_left rg
  obtain ⟨tested, hnew⟩ := u.renewPass_frame rg
  rw [hnew] at hleft ⊢
  obtain ⟨bank, unsound, htake⟩ := takeBlock_takes (nextBlocks_ne_nil hleft (hrgn ▸ hrest) (hdemand.symm ▸ hrgn ▸ hidle))
  rw [htake]
  exact ⟨htest, hstate, hocc, hrgns, hflash⟩

theorem restful_of_state {s : State} {rg : Rg} (h : s.rf rg F.FIX_STATUS_STATE = 0) : (s.rgn rg).restful = true := by
  show decide (s.rf rg F.FIX_STATUS_STATE ∈ [0, 1, 5]) = true
  rw [h]
  rfl

theorem coresIdle_of_states {s : State} {rg : Rg} (h : ∀ k : CoreNo, s.rf rg (F.EAS_STATUS_STATE k.val) ≠ 1) : (s.rgn rg).coresIdle = true :=
  List.all_eq_true.mpr fun k _ => decide_eq_true (h k)

theorem testRoom_of_quiet {s : State} (hcount : s.testCount = 0) (hpower : s.f F.PWR_POWER_NOW = 0) (hhead : s.f F.FLT_ISB_HEADROOM ≤ 100) :
    s.testRoom = true := by
  unfold State.testRoom
  rw [hcount, hpower]
  simp only [Bool.and_eq_true, decide_eq_true_eq]
  omega

theorem exec_isbStart_begins {s : State} {rg : Rg} {due : Bool} (hen : s.f F.FLT_CTRL_ISB_EN = 1)
    (hasked : s.bist.asked.getLsbD rg.toNat = false) (hwanted : (if due then s.passDue rg else s.bist.queued.getLsbD rg.toNat) = true)
    (hidle : (s.rgn rg).coresIdle = true) (hiso : s.rf rg F.RGN_CTRL_ISOLATE = 0) (hup : s.f F.PWR_STATUS_STATE ≤ 1)
    (hclock : s.clocked rg = true) (hrest : (s.rgn rg).restful = true) (hroom : s.testRoom = true) (htestable : s.testable rg = true)
    (hfree : s.testing rg = false) : exec (.isbStart rg due) s = .next (beginTest s rg false) := by
  have hbit : s.bit F.FLT_CTRL_ISB_EN = true := by simp [State.bit, hen]
  have hnot : (s.rgn rg).bit F.RGN_CTRL_ISOLATE = false := by
    rw [Region.bit, show (s.rgn rg).f F.RGN_CTRL_ISOLATE = 0 from hiso]
    rfl
  show execIsbStart rg due s = _
  unfold execIsbStart
  dsimp only
  rw [hasked, hbit, hwanted, hidle, hnot, decide_eq_true hup, hclock, hrest, hroom, htestable, hfree]
  exact congrArg Host.Outcome.next (if_pos ⟨rfl, rfl, rfl, rfl, Bool.false_ne_true⟩)

end Sys2Proof.Machine
end

section
/-! PROOFS. A step of a region's test: the results of a pass, a repaired memory, a step broken off (R463–R468). -/

namespace Sys2Proof.Machine

/-! ### The answers of BIST_STEP, case by case -/

section
variable {s : State} {rg : Rg}

theorem exec_bistStep_invalid {valid : Bool} (htest : s.testing rg = true) (hlogic : s.logicStep rg = false)
    (hbad : valid = false ∨ s.testSound rg = false ∨ s.bist.unsound.getLsbD rg.toNat = true) (fails : BistReport) (last : Bool) :
    exec (.bistStep rg fails valid last) s = .next (proceedAfter (abandonTest s rg) rg) := by
  show execBistStep rg fails valid last s = _
  unfold execBistStep
  rw [if_neg (not_not_intro htest), if_neg (by simp [hlogic]), if_pos]
  rcases hbad with rfl | h | h
  · exact .inl Bool.false_ne_true
  · exact .inr (.inr (by rw [h]; exact Bool.false_ne_true))
  · exact .inr (.inl h)

theorem exec_bistStep_broken (htest : s.testing rg = true) (hlogic : s.logicStep rg = true) (hbroken : s.stepBroken rg = true)
    (fails : BistReport) (valid last : Bool) : exec (.bistStep rg fails valid last) s = .next (restoreLogic s rg) := by
  show execBistStep rg fails valid last s = _
  unfold execBistStep
  rw [if_neg (not_not_intro htest), if_pos ⟨hlogic, hbroken⟩]

theorem exec_bistStep_ends {last : Bool} (htest : s.testing rg = true) (hlogic : s.logicStep rg = false) (hsound : s.testSound rg = true)
    (hunsound : s.bist.unsound.getLsbD rg.toNat = false) (hlast : last = decide ((noteTested s rg).blocksLeft rg = [])) (fails : BistReport) :
    exec (.bistStep rg fails true last) s = .next (endStep s rg fails) := by
  show execBistStep rg fails true last s = _
  unfold execBistStep
  rw [if_neg (not_not_intro htest), if_neg (by simp [hlogic]), if_neg (by simp [hsound, hunsound]), if_neg (not_not_intro hlast)]

/-! ### A step broken off -/

theorem blocksLeft_of {t : State} (htested : t.bist.tested = s.bist.tested) (hdemand : t.bist.demand = s.bist.demand) :
    t.blocksLeft rg = s.blocksLeft rg := by
  unfold State.blocksLeft State.passKey
  rw [htested, hdemand]

/-- What a taken block leaves: the tests go on. -/
theorem restoreLogic_continues (htest : s.testing rg = true) (hleft : ∃ b ∈ s.blocksLeft rg, b < 1161) :
    (restoreLogic s rg).testing rg = true ∧ (restoreLogic s rg).f F.FLT_BIST_STAT_FAILS = s.f F.FLT_BIST_STAT_FAILS ∧
      (restoreLogic s rg).flash = s.flash := by
  unfold restoreLogic
  extract_lets _ u
  obtain ⟨rgns, broken, hu⟩ := proceedAfter_proceeds u rg
  have hblocks : (proceedAfter u rg).blocksLeft rg = s.blocksLeft rg := (blocksLeft_of (by rw [hu]) (by rw [hu])).trans (blocksLeft_of rfl rfl)
  obtain ⟨bank, unsound, htake⟩ := takeBlock_takes (nextBlocks_of_memory (s := proceedAfter u rg) (rg := rg) (by rw [hblocks]; exact hleft))
  rw [htake, hu]
  exact ⟨htest, rfl, rfl⟩

/-! ### The end of a pass that finds nothing -/

theorem noteTested_frame (s : State) (rg : Rg) : ∃ tested, noteTested s rg = { s with bist := { s.bist with tested := tested } } := by
  unfold noteTested
  split
  · exact ⟨_, rfl⟩
  · exact ⟨_, rfl⟩

theorem testResults_nil (s : State) (occasion : Nat) (spares : List SpareFail) : testResults s occasion ⟨[], spares⟩ = (s, false) := rfl

theorem setPassBad_frame (s : State) (rg : Rg) (v : Bool) :
    ∃ bad badAsked, s.setPassBad rg v = { s with bist := { s.bist with bad := bad, badAsked := badAsked } } := by
  unfold State.setPassBad
  split
  · exact ⟨_, _, rfl⟩
  · exact ⟨_, _, rfl⟩

theorem completeTest_completes (s : State) (rg : Rg) :
    (completeTest s rg false).testing rg = false ∧ (completeTest s rg false).f F.FLT_BIST_STAT_STATE = 2 ∧
      (completeTest s rg false).f F.FLT_BIST_STAT_OCCASION = (if s.bist.demand.getLsbD rg.toNat then 3 else 2) ∧
      (completeTest s rg false).flash = s.flash ∧ (completeTest s rg false).rgns = s.rgns ∧
      (completeTest s rg false).bist.unstored = s.bist.unstored := by
  obtain ⟨bad, badAsked, hbad⟩ := setPassBad_frame s rg false
  unfold completeTest
  rw [hbad]
  refine ⟨?_, ?_, ?_, rfl, rfl, rfl⟩
  · exact (State.testing_setReg _ _ rg (by decide) (by decide)).trans
      ((State.testing_setReg _ _ rg (by decide) (by decide)).trans (State.testing_setTesting_same _ rg false))
  · simp [testState]
  · have hocc : ∀ t : State, t.occasionOf rg % 4 = t.occasionOf rg := fun t => by unfold State.occasionOf; split <;> rfl
    simp [hocc]
    rfl

theorem defective_of_stores {s t : State} (hf : t.flash = s.flash) (hu : t.bist.unstored = s.bist.unstored) (rg : Rg) :
    t.defective rg = s.defective rg := by
  unfold State.defective State.repairs
  rw [hf, hu]

theorem endStep_passes (hleft : (noteTested s rg).blocksLeft rg = []) (hbad : s.passBad rg = false) :
    (endStep s rg ⟨[], []⟩).testing rg = false ∧ (endStep s rg ⟨[], []⟩).f F.FLT_BIST_STAT_STATE = 2 ∧
      (endStep s rg ⟨[], []⟩).f F.FLT_BIST_STAT_OCCASION = (if s.bist.demand.getLsbD rg.toNat then 3 else 2) ∧
      (endStep s rg ⟨[], []⟩).flash = s.flash ∧ (endStep s rg ⟨[], []⟩).rgns = s.rgns := by
  obtain ⟨tested, hnote⟩ := noteTested_frame s rg
  have hown : endStep s rg ⟨[], []⟩ = (if (completeTest ((noteTested s rg).setPassBad rg false) rg false).defective rg && !s.defective rg
      then uncontained (completeTest ((noteTested s rg).setPassBad rg false) rg false) rg 9
      else completeTest ((noteTested s rg).setPassBad rg false) rg false) := by
    have hpass : (noteTested s rg).passBad rg = false := by rw [hnote]; exact hbad
    have hsame : ((noteTested s rg).setPassBad rg false).blocksLeft rg = [] := by
      obtain ⟨_, _, h⟩ := setPassBad_frame (noteTested s rg) rg false
      exact (blocksLeft_of (by rw [h]) (by rw [h])).trans hleft
    unfold endStep
    simp only [List.filter_nil, testResults_nil, Bool.or_false]
    generalize (noteTested s rg).passBad rg = b at hpass ⊢
    subst hpass
    rw [if_pos hsame]
  obtain ⟨bad, badAsked, hset⟩ := setPassBad_frame (noteTested s rg) rg false
  have hc := completeTest_completes ((noteTested s rg).setPassBad rg false) rg
  generalize completeTest ((noteTested s rg).setPassBad rg false) rg false = t at hown hc
  rw [hset, hnote] at hc
  obtain ⟨htest, hstate, hocc, hflash, hrgns, hunstored⟩ := hc
  have hsound : (t.defective rg && !s.defective rg) = false := by
    rw [defective_of_stores hflash hunstored]
    exact Bool.and_not_self _
  rw [hown, hsound]
  exact ⟨htest, hstate, hocc, hflash, hrgns⟩

end

end Sys2Proof.Machine
end

section
/-! PROOFS. A failing bit of a memory is repaired (R467), and the tests as a whole. -/

namespace Sys2Proof.Machine

/-! ### The spare row -/

/-- The spares of a report on one failing bit: row 0 of the memory's spares fails itself, or none does. -/
def rowSpares (f : BistFail) (spareFails : Bool) : List SpareFail :=
  if spareFails = true then [⟨f.q, f.g, false, f.mac, false, 0⟩] else []

theorem freeSpare_row {f : BistFail} (hub : f.hub = false) (spareFails : Bool) :
    freeSpare (rowSpares f spareFails) [] (macroOf f) 0 4 = some (if spareFails = true then 1 else 0) := by
  have hmac : spareMacro ⟨f.q, f.g, false, f.mac, false, 0⟩ = macroOf f := by
    unfold spareMacro macroOf
    rw [hub]
  unfold freeSpare rowSpares
  cases spareFails
  · rfl
  · rw [show List.range 4 = [0, 1, 2, 3] from rfl]
    simpa using hmac

theorem worstRow_single (x : Nat × Nat) : worstRow [x] = x.1 := rfl

theorem assignSpares_row {bad : List SpareFail} {mac i : Nat} {x : Nat × Nat} (hfree : freeSpare bad [] mac 0 4 = some i) (n : Nat) :
    assignSpares bad mac (n + 2) [] [x] = ([repairEntry mac 0 x.1 i], []) := by
  have hcols : ((([x] : List (Nat × Nat)).map (·.2)).eraseDups.filter (fun b => decide (3 ≤ rowsWith [x] b))) = [] := by
    have hone : ∀ b, rowsWith [x] b ≤ 1 := fun b => by
      unfold rowsWith
      by_cases h : x.2 == b <;> simp [h, List.eraseDups_cons]
    refine List.filter_eq_nil_iff.mpr fun b _ => ?_
    have := hone b
    simp only [decide_eq_true_eq]
    omega
  rw [assignSpares]
  rw [if_neg (List.cons_ne_nil _ _), hcols, hfree]
  dsimp only [List.min?]
  rw [worstRow_single]
  have hrest : [x].filter (fun y => y.1 != x.1) = [] := by simp
  rw [hrest, assignSpares, if_pos rfl]

theorem assignment_row {s : State} {f : BistFail} (hub : f.hub = false) (hlogic : f.logic = false) (hnone : s.repairs = []) (spareFails : Bool) :
    s.assignment (rowSpares f spareFails) [f] = ([repairEntry (macroOf f) 0 (f.addr.toNat / 8) (if spareFails = true then 1 else 0)], []) := by
  unfold State.assignment
  simp only [List.any_cons, List.any_nil, hlogic, Bool.or_self, Bool.false_eq_true, if_false, List.map_cons, List.map_nil, List.headD_cons]
  rw [hnone]
  exact assignSpares_row (freeSpare_row hub spareFails) 4

/-! ### The repair is stored and logged -/

theorem storeRepair_first {s : State} (h : s.flash.repairs = []) (e : BitVec 64) :
    storeRepair s e = { s with flash := { s.flash with repairs := [e], seq := s.flash.seq + 1 } } := by
  unfold storeRepair
  rw [if_pos (by rw [h]; decide)]
  dsimp only
  rw [h]
  exact if_neg (by simp)

/-- The log of a repaired failure: the failures are counted, no test's state and no store changes, and the failure bit stays. -/
structure Logged (s t : State) : Prop where
  testing : ∀ rg, t.testing rg = s.testing rg
  fails : t.f F.FLT_BIST_STAT_FAILS = s.f F.FLT_BIST_STAT_FAILS
  fail : t.f F.FLT_STATUS_BIST_FAIL = s.f F.FLT_STATUS_BIST_FAIL
  flash : t.flash = s.flash
  tests : t.bist.tested = s.bist.tested ∧ t.bist.demand = s.bist.demand ∧ t.bist.unstored = s.bist.unstored

theorem Logged.refl (s : State) : Logged s s := ⟨fun _ => rfl, rfl, rfl, rfl, rfl, rfl, rfl⟩

theorem Logged.trans {s t u : State} (h : Logged s t) (h' : Logged t u) : Logged s u := by
  obtain ⟨h1, h2, h3, h4, h5, h6, h7⟩ := h
  obtain ⟨h1', h2', h3', h4', h5', h6', h7'⟩ := h'
  exact ⟨fun rg => (h1' rg).trans (h1 rg), h2'.trans h2, h3'.trans h3, h4'.trans h4, h5'.trans h5, h6'.trans h6, h7'.trans h7⟩

theorem Logged.setReg {s t : State} (h : Logged s t) {a : Nat} (v : Word) (ha : a < 0x40004 ∨ 0x40020 ≤ a) : Logged s (t.setReg a v) :=
  h.trans ⟨fun rg => t.testing_setReg v rg (by unfold R.FLT_TESTING_LO; omega) (by unfold R.FLT_TESTING_HI; omega),
    t.f_setReg_other _ v (by dsimp only; omega), t.f_setReg_other _ v (by dsimp only; omega), rfl, rfl, rfl, rfl⟩

theorem Logged.noteFault {s t : State} (h : Logged s t) (l : Nat) (key : Word) : Logged s (t.noteFault 25 l key) := by
  have hroom : Logged s (t.findsRoom (32 * l + 25) 16).2 := by
    rw [State.findsRoom_frame]
    exact h.trans ⟨fun _ => rfl, rfl, rfl, rfl, rfl, rfl, rfl⟩
  unfold State.noteFault
  split
  next b u hpair =>
  rw [hpair] at hroom
  have hcount : Logged s (if b = true then u.bump (F.FLT_CNT_EVENTS 25 l) 1 else u.bump F.SEM_XSTAT_OVERRUN 1) := by
    split
    · exact hroom.setReg _ (.inr (by dsimp only; omega))
    · exact hroom.setReg _ (by decide)
  generalize (if b = true then u.bump (F.FLT_CNT_EVENTS 25 l) 1 else u.bump F.SEM_XSTAT_OVERRUN 1) = w at hcount
  dsimp only
  split
  · exact hcount.trans ⟨fun _ => rfl, rfl, rfl, rfl, rfl, rfl, rfl⟩
  · refine hcount.trans ⟨fun rg => w.testing_setReg _ rg (by decide) (by decide), ?_, ?_, rfl, rfl, rfl, rfl⟩
    · exact w.f_setF_other _ _ _ (by decide) (by decide)
    · exact w.f_setF_other _ _ _ (by decide) (by decide)

theorem logFail_repaired (s : State) (occasion : Nat) (f : BistFail) (defect : Bool) :
    Logged (s.bump F.FLT_BIST_STAT_FAILS 1) (logFail s occasion f true defect) := by
  unfold logFail
  have hkey := (Logged.refl (s.bump F.FLT_BIST_STAT_FAILS 1)).noteFault (if f.hub then 4 else f.q.toNat) (faultKey [(f.mac.toNat, 11), (f.g.toNat, 4)])
  extract_lets s1 s2 i w0 s3 s4 _ s5
  have hs2 : Logged (s.bump F.FLT_BIST_STAT_FAILS 1) s2 := hkey
  rw [if_pos rfl]
  clear_value s2
  have hs4 : Logged (s.bump F.FLT_BIST_STAT_FAILS 1) s4 := by
    unfold s4 s3
    refine (((hs2.setReg _ (.inr ?_)).setReg _ (.inr ?_)).setReg _ (.inr ?_)).setReg _ (.inr (by decide))
    · unfold R.FLT_BIST_LOG; omega
    · unfold R.FLT_BIST_LOG; omega
    · unfold R.FLT_BIST_LOG; omega
  unfold s5
  clear_value s4
  split
  · exact hs4.trans ⟨fun _ => rfl, rfl, rfl, rfl, rfl, rfl, rfl⟩
  · exact hs2

theorem entryKind_row (mac index spare : Nat) : entryKind (repairEntry mac 0 index spare) = 0 := by
  unfold entryKind repairEntry
  simp only [packKey, BitVec.toNat_ofNat]
  omega

/-- The new entry of the repair map for a failing bit of a memory. -/
def rowEntry (f : BistFail) (spareFails : Bool) : BitVec 64 :=
  repairEntry (macroOf f) 0 (f.addr.toNat / 8) (if spareFails = true then 1 else 0)

theorem testResults_row {s : State} {f : BistFail} (hub : f.hub = false) (hlogic : f.logic = false) (hnone : s.repairs = []) (occasion : Nat)
    (spareFails : Bool) :
    testResults s occasion ⟨[f], rowSpares f spareFails⟩ = (logFail (storeRepair s (rowEntry f spareFails)) occasion f true false, false) := by
  have hmacro : macroResult s occasion (rowSpares f spareFails) [f] =
      (logFail (storeRepair s (rowEntry f spareFails)) occasion f true false, false) := by
    unfold macroResult
    rw [assignment_row hub hlogic hnone]
    simp only [ne_eq, not_true_eq_false, decide_false, Bool.false_and, Bool.false_eq_true, false_and, if_false, List.contains_nil,
      Bool.not_false, foldS, List.foldl_cons, List.foldl_nil, rowEntry]
  have hkeys : (([f].map macroOf).eraseDups) = [macroOf f] := rfl
  have hown : [f].filter (fun x => macroOf x == macroOf f) = [f] := by simp
  unfold testResults
  rw [hkeys, List.foldl_cons, List.foldl_nil]
  dsimp only
  rw [hown, hmacro, Bool.or_self]

theorem endStep_repairs {s : State} {rg : Rg} {f : BistFail} (hub : f.hub = false) (hrgn : failRegion f = rg) (hlogic : f.logic = false)
    (hbank : SMap.get none s.bist.bank rg.toNat = some f.mac) (hleft : ∃ b ∈ (noteTested s rg).blocksLeft rg, b < 1161)
    (hnone : s.repairs = []) (htest : s.testing rg = true) (spareFails : Bool) :
    (endStep s rg ⟨[f], rowSpares f spareFails⟩).flash.repairs = [rowEntry f spareFails] ∧
      (endStep s rg ⟨[f], rowSpares f spareFails⟩).flash.seq = s.flash.seq + 1 ∧
      (endStep s rg ⟨[f], rowSpares f spareFails⟩).f F.FLT_BIST_STAT_FAILS =
        min (s.f F.FLT_BIST_STAT_FAILS + 1) F.FLT_BIST_STAT_FAILS.max ∧
      (endStep s rg ⟨[f], rowSpares f spareFails⟩).testing rg = true ∧
      (endStep s rg ⟨[f], rowSpares f spareFails⟩).f F.FLT_STATUS_BIST_FAIL = s.f F.FLT_STATUS_BIST_FAIL := by
  obtain ⟨tested, hnote⟩ := noteTested_frame s rg
  have hempty : s.flash.repairs = [] ∧ s.bist.unstored = [] := List.append_eq_nil_iff.mp hnone
  have hown : [f].filter (fun x => !x.hub && decide (failRegion x = rg) && decide (SMap.get none s.bist.bank rg.toNat = some x.mac)) = [f] := by
    simp [hub, hrgn, hbank]
  have hlog := logFail_repaired (storeRepair (noteTested s rg) (rowEntry f spareFails)) (s.occasionOf rg) f false
  have hres := testResults_row hub hlogic (s := noteTested s rg) (by rw [hnote]; exact hnone) (s.occasionOf rg) spareFails
  generalize logFail (storeRepair (noteTested s rg) (rowEntry f spareFails)) (s.occasionOf rg) f true false = v at hlog hres
  rw [storeRepair_first (by rw [hnote]; exact hempty.1)] at hlog
  obtain ⟨bad, badAsked, hset⟩ := setPassBad_frame v rg (v.passBad rg)
  have hblocks : (v.setPassBad rg (v.passBad rg)).blocksLeft rg = (noteTested s rg).blocksLeft rg := by
    refine blocksLeft_of ?_ ?_
    · rw [hset]; exact hlog.tests.1
    · rw [hset]; exact hlog.tests.2.1
  have hne : (v.setPassBad rg (v.passBad rg)).blocksLeft rg ≠ [] := by
    obtain ⟨_, hb, _⟩ := hleft
    rw [hblocks]
    exact List.ne_nil_of_mem hb
  rw [← hblocks] at hleft
  obtain ⟨bank, unsound, htake⟩ := takeBlock_takes (nextBlocks_of_memory hleft)
  have hend : endStep s rg ⟨[f], rowSpares f spareFails⟩ = takeBlock (v.setPassBad rg (v.passBad rg)) rg := by
    have hsound : (takeBlock (v.setPassBad rg (v.passBad rg)) rg).defective rg = false := by
      have hf : v.flash.repairs = [rowEntry f spareFails] := by rw [hlog.flash]; rfl
      have hu : v.bist.unstored = [] := by rw [hlog.tests.2.2, hnote]; exact hempty.2
      rw [htake, hset]
      unfold State.defective State.repairs
      dsimp only
      rw [hf, hu]
      have hkind : entryKind (rowEntry f spareFails) = 0 := entryKind_row _ _ _
      simp [hkind]
    unfold endStep
    simp only [hown, hres, Bool.or_false]
    rw [if_neg hne, hsound, Bool.false_and]
    exact if_neg Bool.false_ne_true
  rw [hend, htake, hset]
  refine ⟨?_, ?_, ?_, ?_, ?_⟩
  · exact congrArg Flash.repairs hlog.flash
  · exact (congrArg Flash.seq hlog.flash).trans (by rw [hnote]; rfl)
  · exact hlog.fails.trans ((State.f_bump_eq _ _ _ (by decide)).trans (by rw [hnote]; rfl))
  · exact (hlog.testing rg).trans ((State.testing_setReg _ _ rg (by decide) (by decide)).trans (by rw [hnote]; exact htest))
  · exact hlog.fail.trans ((State.f_bump_other _ _ _ _ (by decide) (by decide)).trans (by rw [hnote]; rfl))

end Sys2Proof.Machine
end

section
/-! PROOFS. Counting and self-test as a whole (R452, R460–R471). -/

namespace Sys2Proof.Machine

/-! ### BIST_GO -/

/-- The command's operands stand in FLT.BIST_CMD. -/
def State.goWritten (s : State) (rg : Rg) : State := (s.setF F.FLT_BIST_CMD_QUAD (quadOf rg)).setF F.FLT_BIST_CMD_RGN (numOf rg)

theorem exec_bistGo (s : State) (rg : Rg) : exec (.bistGo rg) s = .next (
    if (s.goWritten rg).testing rg ∧ (s.goWritten rg).bist.demand.getLsbD rg.toNat then s.goWritten rg
    else if ¬ (s.goWritten rg).testing rg ∧ ((s.goWritten rg).rgn rg).restful ∧ (s.goWritten rg).testRoom ∧ (s.goWritten rg).testable rg then
      beginTest (s.goWritten rg) rg true
    else { s.goWritten rg with bist := { (s.goWritten rg).bist with asked := setBit (s.goWritten rg).bist.asked rg.toNat true } }) := rfl

theorem State.testing_goWritten (s : State) (rg rh : Rg) : (s.goWritten rg).testing rh = s.testing rh :=
  (State.testing_setReg _ _ rh (by decide) (by decide)).trans (State.testing_setReg _ _ rh (by decide) (by decide))

theorem State.f_goWritten (s : State) (rg : Rg) {x : Fld} (h : x.off ≠ R.FLT_BIST_CMD) : (s.goWritten rg).f x = s.f x :=
  (State.f_setReg_other _ _ _ h).trans (State.f_setReg_other _ _ _ h)

theorem State.testCount_goWritten (s : State) (rg : Rg) : (s.goWritten rg).testCount = s.testCount := by
  unfold State.testCount
  rw [show (s.goWritten rg).testing = s.testing from funext (s.testing_goWritten rg)]

theorem exec_bistGo_begins {s : State} {rg : Rg} (hcount : s.testCount = 0) (hpower : s.f F.PWR_POWER_NOW = 0)
    (hhead : s.f F.FLT_ISB_HEADROOM ≤ 100) (hrest : (s.rgn rg).restful = true) (htestable : s.testable rg = true) :
    exec (.bistGo rg) s = .next (beginTest (s.goWritten rg) rg true) := by
  have hfree : (s.goWritten rg).testing rg = false := (s.testing_goWritten rg rg).trans (not_testing_of_count hcount rg)
  have hroom : (s.goWritten rg).testRoom = true := testRoom_of_quiet ((s.testCount_goWritten rg).trans hcount)
    ((s.f_goWritten rg (by decide)).trans hpower) ((s.f_goWritten rg (x := F.FLT_ISB_HEADROOM) (by decide)).le.trans hhead)
  rw [exec_bistGo, if_neg (by rw [hfree]; simp), if_pos]
  exact ⟨by rw [hfree]; simp, hrest, hroom, htestable⟩

theorem exec_bistGo_waits {s : State} {rg : Rg} (h : (s.testing rg = false ∧ (s.rgn rg).restful = false) ∨
    (s.testing rg = true ∧ s.bist.demand.getLsbD rg.toNat = false)) :
    exec (.bistGo rg) s = .next { s.goWritten rg with bist := { s.bist with asked := setBit s.bist.asked rg.toNat true } } := by
  have hbist : (s.goWritten rg).bist = s.bist := rfl
  have hrgn : (s.goWritten rg).rgn rg = s.rgn rg := rfl
  rw [exec_bistGo, hbist, hrgn, s.testing_goWritten]
  rcases h with ⟨hfree, hbusy⟩ | ⟨htest, hdemand⟩
  · rw [if_neg (by rw [hfree]; simp), if_neg (by rw [hbusy]; simp)]
  · rw [if_neg (by rw [hdemand]; simp), if_neg (by rw [htest]; simp)]

/-! ### BIST_ABORT -/

/-- One region's test is abandoned by BIST_ABORT. -/
def abortTest (s : State) (rg : Rg) : State := proceedAfter (abandonTest s rg) rg

theorem exec_bistAbort (s : State) : exec .bistAbort s = .next (foldS allRegions s abortTest) := rfl

theorem abandonTest_other_bits {s : State} {rg rh : Rg} (h : rh ≠ rg) :
    (abandonTest s rg).bist.demand.getLsbD rh.toNat = s.bist.demand.getLsbD rh.toNat ∧
      (abandonTest s rg).bist.asked.getLsbD rh.toNat = s.bist.asked.getLsbD rh.toNat ∧
      (abandonTest s rg).bist.queued.getLsbD rh.toNat = s.bist.queued.getLsbD rh.toNat := by
  have hne : rh.toNat ≠ rg.toNat := fun e => h (BitVec.eq_of_toNat_eq e)
  have hbit : ∀ (c : Bool) (x : BitVec 64) (v : Bool), (if c then setBit x rg.toNat v else x).getLsbD rh.toNat = x.getLsbD rh.toNat := by
    intro c x v
    cases c
    · rfl
    · exact getLsbD_setBit_ne x v hne
  have hbit' : ∀ (c : Bool) (x : BitVec 64) (v : Bool), (if c then x else setBit x rg.toNat v).getLsbD rh.toNat = x.getLsbD rh.toNat := by
    intro c x v
    cases c
    · exact getLsbD_setBit_ne x v hne
    · rfl
  unfold abandonTest
  split
  · exact ⟨rfl, rfl, rfl⟩
  · exact ⟨getLsbD_setBit_ne _ _ hne, hbit (s.bist.demand.getLsbD rg.toNat) s.bist.asked true,
      hbit' (s.bist.demand.getLsbD rg.toNat) s.bist.queued true⟩

/-- The test of a region that is under test no more is to continue later, on its occasion. -/
def State.Later (s u : State) (rg : Rg) : Prop :=
  (if s.bist.demand.getLsbD rg.toNat then u.bist.asked else u.bist.queued).getLsbD rg.toNat = true ∧ u.f F.FLT_BIST_STAT_STATE = 4

/-- From `s` to `u` some tests have been abandoned. -/
structure Aborting (s u : State) : Prop where
  going : ∀ rg, u.testing rg = true → s.testing rg = true ∧ u.bist.demand.getLsbD rg.toNat = s.bist.demand.getLsbD rg.toNat
  later : ∀ rg, s.testing rg = true → u.testing rg = false → s.Later u rg
  flash : u.flash = s.flash

theorem Aborting.refl (s : State) : Aborting s s := ⟨fun _ h => ⟨h, rfl⟩, fun _ h h' => absurd (h.symm.trans h') (by decide), rfl⟩

theorem Aborting.proceeds {s t u : State} (h : Aborting s t) (hu : Proceeds t u) : Aborting s u := by
  obtain ⟨_, _, rfl⟩ := hu
  exact ⟨h.going, h.later, h.flash⟩

theorem Aborting.abandonTest {s t : State} (h : Aborting s t) (rg : Rg) : Aborting s (abandonTest t rg) := by
  cases htest : t.testing rg
  · rwa [abandonTest_of_idle htest]
  · have ha := abandonTest_abandons htest
    obtain ⟨hs, hdemand⟩ := h.going rg htest
    refine ⟨fun rh hrh => ?_, fun rh hs hrh => ?_, ha.flash.trans h.flash⟩
    · have hne : rh ≠ rg := fun e => by rw [e, ha.testing] at hrh; exact Bool.noConfusion hrh
      rw [ha.others rh hne] at hrh
      rw [(abandonTest_other_bits hne).1]
      exact h.going rh hrh
    · by_cases hne : rh = rg
      · subst hne
        exact ⟨hdemand ▸ ha.later, ha.state⟩
      · rw [ha.others rh hne] at hrh
        obtain ⟨hlater, -⟩ := h.later rh hs hrh
        obtain ⟨-, hasked, hqueued⟩ := abandonTest_other_bits (s := t) hne
        refine ⟨?_, ha.state⟩
        split at hlater
        · next hd => rwa [if_pos hd, hasked]
        · next hd => rwa [if_neg hd, hqueued]

theorem abortTests_abort (s : State) :
    (∀ rg : Rg, (foldS allRegions s abortTest).testing rg = false) ∧ Aborting s (foldS allRegions s abortTest) := by
  have hidle : ∀ (u : State) (rg : Rg), (abortTest u rg).testing rg = false := fun u rg => by
    obtain ⟨_, _, hp⟩ := proceedAfter_proceeds (abandonTest u rg) rg
    unfold abortTest
    rw [hp]
    show (abandonTest u rg).testing rg = false
    cases htest : u.testing rg
    · rwa [abandonTest_of_idle htest]
    · exact (abandonTest_abandons htest).testing
  have hkeeps : ∀ (rg : Rg) (u : State) (rh : Rg), u.testing rg = false → (abortTest u rh).testing rg = false := fun rg u rh hu => by
    have hgo := (((Aborting.refl u).abandonTest rh).proceeds (proceedAfter_proceeds _ rh)).going rg
    exact Bool.eq_false_iff.mpr fun ht => by rw [(hgo ht).1] at hu; exact Bool.noConfusion hu
  exact ⟨fun rg => foldS_reaches (P := fun t => t.testing rg = false) (f := abortTest) (mem_allRegions rg) (fun u => hidle u rg) (hkeeps rg) s,
    foldS_induct (P := Aborting s) (f := abortTest) allRegions
      (fun t rg _ ht => (ht.abandonTest rg).proceeds (proceedAfter_proceeds _ rg)) (Aborting.refl s)⟩

/-! ### The obligation -/

/-- Settles O28. -/
theorem countingAndSelfTest : Obligations.CountingAndSelfTest := by
  unfold Obligations.CountingAndSelfTest
  refine ⟨?empty, ?unseen, ?lasting, ?taint, ?isb, ?go, ?goBusy, ?goInService, ?passed, ?repaired, ?invalid, ?broken, ?abort, ?clear, ?clearOther⟩
  case empty =>
    intro l since s hq
    refine .of_eq s ?_ rfl
    show execClassify l since s = _
    unfold execClassify
    rw [hq]
  case unseen =>
    intro l since src key rest s hq hn hroom hnew
    exact .of_eq _ (exec_classify hq since) (classify_unseen (s := { s with faultQ := SMap.set [] s.faultQ l.toNat rest }) _ hn hroom hnew)
  case lasting =>
    rintro l since src key first n rest s hq ⟨hn, -, hlt⟩ htrack hw hptr
    have hreach := classify_reaches (s := { s with faultQ := SMap.set [] s.faultQ l.toNat rest }) (src := src) (l := l) (key := key) hn hlt htrack hw
    refine .of_eq _ ((exec_classify hq since).trans (congrArg Host.Outcome.next hreach)) ?_
    have hregs := declareLasting_regs { s with faultQ := SMap.set [] s.faultQ l.toNat rest, tracks := [⟨src, l, key, n + 1, first⟩] }
      src l key (s.msAt since)
    rw [show State.f { s with faultQ := SMap.set [] s.faultQ l.toNat rest, tracks := [⟨src, l, key, n + 1, first⟩] } F.FLT_LOG_PTR_LASTING = 4
      from hptr] at hregs
    exact hregs
  case taint =>
    intro mask s
    refine ⟨_, exec_taintClear mask s, fun q hq => ?_, fun q hq => ?_, fun a ha => reg_clearTaints mask s ha, ?_, clearTaints_hub mask s⟩
    · exact foldS_reaches (P := TaintEmpty q.val) (f := clearTaint mask) (List.mem_range.mpr q.isLt) (fun t => clearTaint_empty t hq)
        (fun t r ht => ht.clearTaint mask) s
    · have hother : ∀ r : Fin 4, mask.getLsbD r.val = true → r ≠ q := fun r hr e => by rw [e, hq] at hr; exact Bool.noConfusion hr
      have hreg : ∀ a, a = R.TNT_PTR q.val ∨ a = R.TNT_COUNT q.val → (foldS (List.range 4) s (clearTaint mask)).reg a = s.reg a := by
        refine fun a ha => reg_clearTaints mask s fun r hr => ?_
        have hne : r.val ≠ q.val := fun e => hother r hr (Fin.ext e)
        unfold R.TNT_PTR R.TNT_COUNT at *
        omega
      exact ⟨hreg _ (.inl rfl), congrArg (F.TNT_COUNT_ENTRIES q.val).of (hreg _ (.inr rfl))⟩
    · rw [clearTaints_hub]
  case isb =>
    rintro rg due s ⟨hen, hasked⟩ htestable hwanted hcount ⟨hpower, hhead⟩ ⟨hup, hclock⟩ ⟨hoff, hiso⟩ hcores
    have hwant : (if due then s.passDue rg else s.bist.queued.getLsbD rg.toNat) = true := by
      rcases hwanted with ⟨rfl, h⟩ | ⟨rfl, h⟩ <;> exact h
    have hidle := coresIdle_of_states hcores
    have hrest := restful_of_state hoff
    exact .of_eq _ (exec_isbStart_begins hen hasked hwant hidle hiso hup hclock hrest (testRoom_of_quiet hcount hpower hhead) htestable
      (not_testing_of_count hcount rg)) (beginTest_begins (demand := false) hrest (.inr hidle))
  case go =>
    rintro rg s ⟨hcount, -⟩ ⟨hpower, hhead⟩ ⟨hoff, htestable⟩
    have hrest := restful_of_state hoff
    exact .of_eq _ (exec_bistGo_begins hcount hpower hhead hrest htestable) (beginTest_begins (s := s.goWritten rg) hrest (.inl rfl))
  case goBusy =>
    intro rg s hfree hstate
    have hbusy : (s.rgn rg).restful = false := by
      show decide (s.rf rg F.FIX_STATUS_STATE ∈ [0, 1, 5]) = false
      rw [hstate]
      rfl
    exact .of_eq _ (exec_bistGo_waits (.inl ⟨hfree, hbusy⟩)) ⟨(s.testing_goWritten rg rg).trans hfree, getLsbD_setBit_same _ _ rg.isLt⟩
  case goInService =>
    rintro rg s ⟨htest, hdemand⟩
    exact .of_eq _ (exec_bistGo_waits (.inr ⟨htest, hdemand⟩))
      ⟨(s.testing_goWritten rg rg).trans htest, getLsbD_setBit_same _ _ rg.isLt, rfl⟩
  case passed =>
    rintro rg s ⟨htest, hlogic⟩ hleft hbad ⟨hsound, hunsound⟩
    exact .of_eq _ (exec_bistStep_ends htest hlogic hsound hunsound (decide_eq_true hleft).symm _) (endStep_passes hleft hbad)
  case repaired =>
    rintro rg f spareFails s ⟨htest, hlogic⟩ ⟨hsound, hunsound⟩ ⟨hub, hrgn, hlog, -⟩ ⟨hbank, hleft⟩ hnone
    have hne : (noteTested s rg).blocksLeft rg ≠ [] := by
      obtain ⟨b, hb, _⟩ := hleft
      exact List.ne_nil_of_mem hb
    exact .of_eq _ (exec_bistStep_ends htest hlogic hsound hunsound (decide_eq_false hne).symm ⟨[f], rowSpares f spareFails⟩)
      (endStep_repairs hub hrgn hlog hbank hleft hnone htest spareFails)
  case invalid =>
    rintro rg fails valid last s ⟨htest, hlogic⟩ hbad
    have ha := (abandonTest_abandons htest).proceeds (proceedAfter_proceeds _ rg)
    exact .of_eq _ (exec_bistStep_invalid htest hlogic hbad fails last) ⟨ha.testing, ha.state, ha.later, ha.fails, ha.flash⟩
  case broken =>
    rintro rg fails valid last s ⟨htest, hlogic⟩ ⟨hbroken, hleft⟩
    exact .of_eq _ (exec_bistStep_broken htest hlogic hbroken fails valid last) (restoreLogic_continues htest hleft)
  case abort =>
    rintro s ⟨rh, hrh⟩
    obtain ⟨hidle, ha⟩ := abortTests_abort s
    exact .of_eq _ (exec_bistAbort s) ⟨fun rg => ⟨hidle rg, fun ht => (ha.later rg ht (hidle rg)).1⟩, (ha.later rh hrh (hidle rh)).2, ha.flash⟩
  case clear =>
    intro arm s
    by_cases harm : arm = 0xC5
    · exact .of_eq _ (congrArg Host.Outcome.next (if_pos ⟨rfl, harm⟩)) ⟨fun _ => ⟨rfl, rfl⟩, rfl, rfl, fun h => absurd harm h⟩
    · exact .of_eq s (congrArg Host.Outcome.next (if_neg fun h => harm h.2)) ⟨fun h => absurd h harm, rfl, rfl, fun _ => rfl⟩
  case clearOther =>
    intro w arm s hw
    exact .of_eq s (congrArg Host.Outcome.next (if_neg fun h => hw h.1)) rfl

end Sys2Proof.Machine
end

section
/-! PROOFS. Scrubbing: what a walker finds and what it leaves alone (R236–R240). -/

namespace Sys2Proof.Machine

/-! ### What a walker's reports leave alone -/

/-- From `s` to `t` neither the counts of the corrected and uncorrectable words nor a frame of the canvas have changed. -/
structure Walked (s t : State) : Prop where
  counts : t.reg R.SCR_CE = s.reg R.SCR_CE
  frames : ∀ rg, (t.rgn rg).canvas = (s.rgn rg).canvas

namespace Walked
variable {s t : State}

theorem refl (s : State) : Walked s s := ⟨rfl, fun _ => rfl⟩

theorem trans {u : State} (h : Walked s t) (h' : Walked t u) : Walked s u :=
  ⟨h'.counts.trans h.counts, fun rg => (h'.frames rg).trans (h.frames rg)⟩

theorem other (h : Walked s t) {u : State} (hu : (u.regs, u.rgns) = (t.regs, t.rgns)) : Walked s u := by
  obtain ⟨hregs, hrgns⟩ := Prod.mk.injEq _ _ _ _ ▸ hu
  refine h.trans ⟨?_, fun rg => ?_⟩
  · unfold State.reg
    rw [hregs]
  · unfold State.rgn
    rw [hrgns]

theorem setReg (h : Walked s t) {a : Nat} (v : Word) (ha : a ≠ R.SCR_CE) : Walked s (t.setReg a v) :=
  h.trans ⟨State.reg_setReg_other _ _ ha.symm, fun _ => rfl⟩

theorem bump (h : Walked s t) (x : Fld) (k : Nat) (ha : x.off ≠ R.SCR_CE) : Walked s (t.bump x k) := h.setReg _ ha

theorem ibi (h : Walked s t) {cls : Nat} (loc arg : Nat) (hc : cls < 32) : Walked s (t.ibi cls loc arg) := by
  refine h.trans ⟨?_, fun rg => ?_⟩
  · exact State.reg_ibi _ _ _ _ (by decide) (by decide) (by unfold R.SCR_CE; dsimp only; omega)
  · rw [State.rgn_ibi]

theorem noteFault (h : Walked s t) {src l : Nat} (key : Word) (hsrc : src < 32) (hl : l < 8) : Walked s (t.noteFault src l key) := by
  refine h.trans ⟨?_, fun rg => by rw [State.rgn_noteFault]⟩
  have hc := ((Contains.refl t).noteFault key hsrc hl).reg R.SCR_CE (.inr (by decide))
  exact hc

theorem declareLasting (h : Walked s t) {src l : Nat} (key : Word) (now : Nat) (hsrc : src < 32) (hl : l < 8) :
    Walked s (declareLasting t src l key now) := by
  unfold Machine.declareLasting
  extract_lets i s1 s2 s3 s4
  have hi : i < 16 := Nat.mod_lt _ (by decide)
  have hlog : Walked s s2 := ((h.setReg _ (by unfold R.FLT_LASTING_LOG R.SCR_CE; omega)).setReg _
    (by unfold R.FLT_LASTING_LOG_1 R.SCR_CE; omega)).setReg _ (by unfold R.FLT_LASTING_LOG_2 R.SCR_CE; omega)
  clear_value s2
  have hs : Walked s s4 := (((hlog.setReg _ (by decide)).bump (F.FLT_CNT_LASTING src l) 1 (by unfold R.SCR_CE; dsimp only; omega)).setReg _
    (by decide)).ibi _ _ (by decide)
  clear_value s4
  split
  · exact hs.other rfl
  · exact hs

theorem storeRepair (h : Walked s t) (e : BitVec 64) : Walked s (storeRepair t e) := by
  unfold Machine.storeRepair
  split
  · extract_lets _ u
    have hu : Walked s u := h.other rfl
    split
    · exact (hu.setReg (a := R.FLT_STATUS) _ (by decide)).ibi _ _ (by decide)
    · exact hu
  · have hu : ∀ b, Walked s { t with bist := b } := fun _ => h.other rfl
    exact ((hu _).setReg (a := R.FLT_STATUS) _ (by decide)).ibi _ _ (by decide)

theorem remapFrame (h : Walked s t) (rg : Rg) (n : CellNo) : Walked s (remapFrame t rg n) := by
  unfold Machine.remapFrame
  extract_lets used u v
  split
  · exact h
  · have hu : Walked s u := (h.setReg _ (by unfold R.SCR_CE; dsimp only; omega)).bump _ _ (by decide)
    clear_value u
    have hv : Walked s v := (hu.setReg _ (by decide)).storeRepair _
    clear_value v
    split
    · exact hv.setReg _ (by decide)
    · exact hv

theorem lastingFrame (h : Walked s t) (rg : Rg) (n : CellNo) (ue : Bool) (now : Nat) : Walked s (lastingFrame t rg n ue now) := by
  unfold Machine.lastingFrame
  extract_lets u v w
  have hq := quadOf_lt rg
  have hv : Walked s v := ((h.setReg _ (by decide)).bump _ _ (by decide)).ibi _ _ (by decide)
  clear_value v
  have hw : Walked s w := hv.declareLasting _ _ (by split <;> decide) hq
  clear_value w
  split
  · exact hw
  · exact hw.remapFrame rg n

theorem onRgn (h : Walked s t) (rg : Rg) {g : Region → Region} (hg : (g (t.rgn rg)).canvas = (t.rgn rg).canvas) :
    Walked s (t.onRgn rg g) := by
  refine h.trans ⟨rfl, fun rh => ?_⟩
  by_cases hr : rh = rg
  · subst hr
    rw [State.rgn_onRgn_same, hg]
  · rw [State.rgn_onRgn_ne _ _ hr]

theorem findsRoom (h : Walked s t) (key places : Nat) : Walked s (t.findsRoom key places).2 := by
  rw [State.findsRoom_frame]
  exact h.other rfl

theorem taint (h : Walked s t) (rg : Rg) (x : Taint) : Walked s (t.taint rg x) := by
  have hq := quadOf_lt rg
  unfold State.taint State.taintAt
  extract_lets q n
  split
  next room u hroom =>
  have hu : Walked s u := by
    have := h.findsRoom (256 + q) 32
    rwa [hroom] at this
  clear hroom
  extract_lets u i v1 v2 v3 v4 v5
  split
  · exact hu.bump _ _ (by unfold R.SCR_CE; dsimp only; omega)
  · have hq : q < 8 := hq
    have h1 : Walked s v1 := hu.other rfl
    have h2 : Walked s v2 := h1.setReg _ (by unfold R.SCR_CE; dsimp only; omega)
    clear_value v2
    have h3 : Walked s v3 := by
      unfold v3
      split
      · exact h2.setReg _ (by unfold R.SCR_CE; dsimp only; omega)
      · exact h2
    clear_value v3
    have h4 : Walked s v4 := h3.bump _ _ (by unfold R.SCR_CE; dsimp only; omega)
    clear_value v4
    exact (h4.onRgn rg rfl).ibi _ _ (by decide)

theorem trackFrame (h : Walked s t) (rg : Rg) (n : CellNo) (now : Nat) : Walked s (trackFrame t rg n now).1 := by
  unfold Machine.trackFrame
  dsimp only
  split
  · exact h.other rfl
  · split
    · exact h.other rfl
    · split
      · exact h
      · split
        · exact (h.setReg _ (by decide)).other rfl
        · exact h.other rfl

end Walked

/-! ### A walker's frame -/

/-- The walker of the region goes on behind frame `n`. -/
def State.frameDone (s : State) (rg : Rg) (n : CellNo) : State :=
  { s with scr := { s.scr with cnv := SMap.set 0 s.scr.cnv rg.toNat (n + 1),
                               cnvDone := setBit s.scr.cnvDone rg.toNat (s.scr.cnvDone.getLsbD rg.toNat || n == 1023) } }

/-- A pass over the canvas of every configured region is counted. -/
def State.countPass (s : State) : State :=
  if endPass s s.scr.cnvDone then { s with scr := { s.scr with cnvDone := 0 } }.bump F.SCR_PASS_CNV_PASSES 1 else s

/-- The frame at which the region's walker stands. -/
def State.nextFrame (s : State) (rg : Rg) : CellNo := SMap.get 0 s.scr.cnv rg.toNat

/-- What the walker finds there. -/
def State.frameRead (s : State) (rg : Rg) (eccs : List Ecc) (since : Word) : State :=
  if ((s.rgn rg).cell (s.nextFrame rg)).clamped then s else scrubFrame s rg (s.nextFrame rg) eccs (s.msAt since)

theorem exec_scrubFrame_runs {s : State} {rg : Rg} (hen : s.f F.SCR_CTRL_CNV_EN = 1) (hwalks : s.walks rg = true) (eccs : List Ecc) (since : Word) :
    exec (.scrubFrame rg eccs false since) s = .next ((s.frameRead rg eccs since).frameDone rg (s.nextFrame rg)).countPass := by
  have hbit : s.bit F.SCR_CTRL_CNV_EN = true := by simp [State.bit, hen]
  show execScrubFrame rg eccs false since s = _
  unfold execScrubFrame
  rw [if_neg (by simp [hbit, hwalks])]
  rfl

theorem Walked.passed {s t : State} (h : Walked s t) (rg : Rg) (n : CellNo) : Walked s (t.frameDone rg n).countPass := by
  have hdone : Walked s (t.frameDone rg n) := h.other rfl
  unfold State.countPass
  split
  · have hscr : ∀ x, Walked s { t.frameDone rg n with scr := x } := fun _ => hdone.other rfl
    exact (hscr _).bump F.SCR_PASS_CNV_PASSES 1 (by decide)
  · exact hdone

theorem State.countPass_of_other {s : State} {rh : Rg} (hconf : (s.rgn rh).configured = true) (hdone : s.scr.cnvDone.getLsbD rh.toNat = false) :
    s.countPass = s := by
  refine if_neg fun h => ?_
  have := List.all_eq_true.mp h rh (mem_allRegions rh)
  rw [hconf, hdone] at this
  exact Bool.noConfusion this

/-! ### What a walker finds -/

/-- One word of a frame, as the walker reads it. -/
def scrubbedWord (l : Nat) (key : Word) (s : State) (e : Ecc) : State :=
  match e with
  | .clean => s
  | .single => (s.bump F.SCR_CE_CNV_CE 1).noteFault 11 l key
  | .uncorrectable => (s.bump F.SCR_CE_CNV_UE 1).noteFault 12 l key

theorem scrubFrame_clean (s : State) (rg : Rg) (n : CellNo) (now : Nat) : scrubFrame s rg n [] now = s := rfl

theorem walked_noteFault (s : State) (x : Fld) (rg : Rg) (key : Word) {src : Nat} (hsrc : src < 32) :
    Walked (s.bump x 1) ((s.bump x 1).noteFault src (quadOf rg) key) :=
  (Walked.refl _).noteFault key hsrc (quadOf_lt rg)

theorem Walked.f {s t : State} (h : Walked s t) {x : Fld} (hx : x.off = R.SCR_CE) : t.f x = s.f x :=
  congrArg x.of (hx ▸ h.counts)

theorem Walked.cellCfg {s t : State} (h : Walked s t) (rg : Rg) (m : CellNo) : t.cellCfg rg m = s.cellCfg rg m := by
  unfold State.cellCfg
  rw [h.frames]

theorem scrubFrame_single (s : State) (rg : Rg) (n : CellNo) (now : Nat) :
    Walked (s.bump F.SCR_CE_CNV_CE 1) (scrubFrame s rg n [.clean, .single] now) := by
  have hword := (walked_noteFault s F.SCR_CE_CNV_CE rg (faultKey [(numOf rg, 4), (n.toNat, 10)]) (src := 11) (by decide)).trackFrame rg n now
  unfold scrubFrame
  extract_lets l key words u
  rw [if_pos (show Ecc.single ∈ words by decide)]
  have hu : Walked (s.bump F.SCR_CE_CNV_CE 1) (trackFrame u rg n now).1 := hword
  clear_value u
  split
  next v reached hpair =>
  rw [hpair] at hu
  rw [if_neg (show ¬ Ecc.uncorrectable ∈ words by decide)]
  split
  · exact hu.lastingFrame rg n false now
  · exact hu

/-- The cell of a frame with an uncorrectable word: its mode is 0 (R238). -/
def Region.cellOff (r : Region) (n : CellNo) : Region :=
  { r with canvas := SMap.set 0 r.canvas n.toNat (setBits (SMap.get 0 r.canvas n.toNat) 192 2 0) }

theorem Walked.cellOff {s t : State} (h : Walked s t) (rg : Rg) (n : CellNo) :
    Walked (s.onRgn rg (Region.cellOff · n)) (t.onRgn rg (Region.cellOff · n)) := by
  refine ⟨h.counts, fun rh => ?_⟩
  by_cases hr : rh = rg
  · subst hr
    rw [State.rgn_onRgn_same, State.rgn_onRgn_same]
    unfold Region.cellOff
    rw [h.frames]
  · rw [State.rgn_onRgn_ne _ _ hr, State.rgn_onRgn_ne _ _ hr, h.frames]

theorem scrubFrame_uncorrectable (s : State) (rg : Rg) (n : CellNo) (now : Nat) :
    Walked ((s.bump F.SCR_CE_CNV_UE 1).onRgn rg (Region.cellOff · n)) (scrubFrame s rg n [.uncorrectable] now) := by
  have hword := (walked_noteFault s F.SCR_CE_CNV_UE rg (faultKey [(numOf rg, 4), (n.toNat, 10)]) (src := 12) (by decide)).cellOff rg n
  unfold scrubFrame
  extract_lets l key words u
  rw [if_neg (show ¬ Ecc.single ∈ words by decide)]
  have hu : Walked ((s.bump F.SCR_CE_CNV_UE 1).onRgn rg (Region.cellOff · n)) (u.onRgn rg (Region.cellOff · n)) := hword
  clear_value u
  dsimp only
  rw [if_pos (show Ecc.uncorrectable ∈ words by decide)]
  have hlast := hu.lastingFrame rg n true now
  split
  · exact hlast.taint rg _
  · exact hlast

theorem cfgMode_off (b : BitVec 2048) : cfgMode (setBits b 192 2 0) = 0 := by
  have hzero : (setBits b 192 2 0).extractLsb' 192 2 = 0 := by
    refine BitVec.eq_of_getLsbD_eq fun i hi => ?_
    have h2 : i = 0 ∨ i = 1 := by omega
    rcases h2 with rfl | rfl <;> simp [setBits]
  have hnat := congrArg BitVec.toNat hzero
  rwa [BitVec.extractLsb'_toNat, Nat.shiftRight_eq_div_pow] at hnat

theorem cellCfg_cellOff (s : State) (rg : Rg) (n m : CellNo) :
    (s.onRgn rg (Region.cellOff · n)).cellCfg rg m = if m = n then setBits (s.cellCfg rg n) 192 2 0 else s.cellCfg rg m := by
  unfold State.cellCfg
  rw [State.rgn_onRgn_same]
  unfold Region.cellOff
  split
  · next h => rw [h, SMap.get_set_same]
  · next h => exact SMap.get_set_ne _ _ _ fun e => h (BitVec.eq_of_toNat_eq e)

/-! ### The walk over the memories -/

theorem outVote_frame (s : State) (vote : Bool) : outVote s vote = { s with regs := (outVote s vote).regs } := by
  unfold outVote
  split <;> rfl

theorem passDmem_idle {s : State} {rg : Rg} (h : s.applying = none) : (if s.dmemHeld rg then s.passDmem rg else s) = s := by
  refine if_neg ?_
  unfold State.dmemHeld
  rw [h]
  simp

theorem checked_of_no_upset {r : Region} (h : r.upsets = []) (key : Nat) : r.checked key .clean = .clean := by
  unfold Region.checked
  rw [h]
  rfl

theorem backRead_of_no_upset {s : State} {rg : Rg} (h : (s.rgn rg).upsets = []) (src : Nat) (ring : Bool) (a : Nat) :
    (backRead s rg src ring a .clean).1 = s := by
  unfold backRead
  simp only [checked_of_no_upset h]

/-- The walker's word is behind it. -/
def State.wordDone (s : State) (rg : Rg) (i : Nat) : State :=
  { s with scr := { s.scr with mem := SMap.set 0 s.scr.mem rg.toNat (BitVec.ofNat 20 ((i + 1) % walkSize)),
                               memDone := setBit s.scr.memDone rg.toNat (s.scr.memDone.getLsbD rg.toNat || i + 1 == walkSize) } }

theorem scrubWord_clean {s : State} {rg rh : Rg} (h : (s.rgn rg).upsets = []) (hconf : (s.rgn rh).configured = true)
    (hdone : s.scr.memDone.getLsbD rh.toNat = false) (hne : rh ≠ rg) :
    scrubWord s rg .clean = s.wordDone rg (SMap.get 0 s.scr.mem rg.toNat).toNat := by
  have hbit : rh.toNat ≠ rg.toNat := fun e => hne (BitVec.eq_of_toNat_eq e)
  unfold scrubWord
  simp only [backRead_of_no_upset h, ite_self]
  refine if_neg fun hp => ?_
  have hall := List.all_eq_true.mp hp rh (mem_allRegions rh)
  rw [getLsbD_setBit_ne _ _ hbit, hdone] at hall
  rw [show ∀ scr, State.rgn { s with scr := scr } rh = s.rgn rh from fun _ => rfl, hconf] at hall
  exact Bool.noConfusion hall

end Sys2Proof.Machine
end

section
/-! PROOFS. Scrubbing as a whole (R236–R241). -/

namespace Sys2Proof.Machine

theorem mem_wordDone {s : State} {rg : Rg} {i : Nat} (h : i + 1 < walkSize) :
    (SMap.get 0 (s.wordDone rg i).scr.mem rg.toNat).toNat = i + 1 := by
  have hw : walkSize = 786432 := rfl
  unfold State.wordDone
  rw [SMap.get_set_same, BitVec.toNat_ofNat, Nat.mod_eq_of_lt h]
  exact Nat.mod_eq_of_lt (by omega)

/-- One word of a walker's burst. -/
def burstWord (rg : Rg) (eccs : List Ecc) (s : State) (i : Nat) : State :=
  scrubWord (if s.dmemHeld rg then s.passDmem rg else s) rg (eccs.getD i .clean)

theorem burstWord_clean {s : State} {rg : Rg} (happ : s.applying = none) (k : Nat) : burstWord rg [] s k = scrubWord s rg .clean := by
  unfold burstWord
  rw [passDmem_idle happ, List.getD_nil]

/-- The walker's burst is over. -/
def Region.burstOver (r : Region) : Region := { r with arb := { r.arb with burstEnded := true } }

theorem scrubBurst_two_clean {s : State} {rg rh : Rg} {i : Nat} (happ : s.applying = none) (hup : (s.rgn rg).upsets = [])
    (hi : (SMap.get 0 s.scr.mem rg.toNat).toNat = i) (hlt : i + 2 < 786432) (hconf : (s.rgn rh).configured = true)
    (hdone : s.scr.memDone.getLsbD rh.toNat = false) (hne : rh ≠ rg) :
    foldS (List.range 2) s (burstWord rg []) = (s.wordDone rg i).wordDone rg (i + 1) := by
  have hw : walkSize = 786432 := rfl
  have hbit : rh.toNat ≠ rg.toNat := fun e => hne (BitVec.eq_of_toNat_eq e)
  have hone : scrubWord s rg .clean = s.wordDone rg i := hi ▸ scrubWord_clean hup hconf hdone hne
  have htwo : scrubWord (s.wordDone rg i) rg .clean = (s.wordDone rg i).wordDone rg (i + 1) := by
    have hnext : (SMap.get 0 (s.wordDone rg i).scr.mem rg.toNat).toNat = i + 1 := mem_wordDone (by omega)
    have hdone' : (s.wordDone rg i).scr.memDone.getLsbD rh.toNat = false := (getLsbD_setBit_ne _ _ hbit).trans hdone
    have hword := scrubWord_clean (s := s.wordDone rg i) (rg := rg) (rh := rh) hup hconf hdone' hne
    rwa [hnext] at hword
  rw [show List.range 2 = [0, 1] from rfl, foldS, List.foldl_cons, List.foldl_cons, List.foldl_nil, burstWord_clean happ, hone, burstWord_clean (s := s.wordDone rg i) happ, htwo]

theorem portGives_of_owner {α : Type} {s : State} {rg : Rg} {q : Fin 6} {dmem : Bool} (hown : s.rf rg F.DMEM_STATUS_OWNER = q.val)
    (hfront : (s.rgn rg).frontWrites = false) (f : State → State × α) :
    (portGives s rg q dmem f).1 = (f s).1.onRgn rg Region.dropGrant := by
  have hask : askPort s rg q = (s, true) := if_pos hown
  unfold portGives
  rw [hask]
  dsimp only
  rw [if_pos ⟨rfl, by simp [hfront]⟩]

theorem exec_scrubMemStep_runs {s : State} {rg : Rg} (hen : s.f F.SCR_CTRL_MEM_EN = 1) (hwalks : s.walks rg = true) (happ : s.applying = none)
    (hburst : s.rf rg F.DMEM_ARB_SCRUB_BURST = 2) (hown : s.rf rg F.DMEM_STATUS_OWNER = 5) (hfront : (s.rgn rg).frontWrites = false) (vote : Bool) :
    exec (.scrubMemStep rg [] vote) s =
      .next (((foldS (List.range 2) (outVote s vote) (burstWord rg [])).onRgn rg Region.burstOver).onRgn rg Region.dropGrant) := by
  have hbit : s.bit F.SCR_CTRL_MEM_EN = true := by simp [State.bit, hen]
  have hown' : (outVote s vote).rf rg F.DMEM_STATUS_OWNER = 5 := by rw [outVote_frame]; exact hown
  have hfront' : ((outVote s vote).rgn rg).frontWrites = false := by rw [outVote_frame]; exact hfront
  show execScrubMemStep rg [] vote s = _
  unfold execScrubMemStep
  rw [if_neg (by simp [hbit, hwalks]), passDmem_idle happ]
  dsimp only
  rw [hburst, show max 1 2 = 2 from rfl, portGives_of_owner (q := 5) hown' hfront']
  unfold burstWord Region.burstOver
  with_reducible rfl

theorem exec_scrubMemStep_idle {s : State} {rg : Rg} (h : s.f F.SCR_CTRL_MEM_EN = 0 ∨ s.walks rg = false) (e : List Ecc) (vote : Bool) :
    exec (.scrubMemStep rg e vote) s = .next s := by
  refine congrArg Host.Outcome.next (if_pos ?_)
  rcases h with h | h
  · exact .inl (by simp [State.bit, h])
  · exact .inr (by simp [h])

theorem exec_scrubFrame_idle {s : State} {rg : Rg} (h : s.f F.SCR_CTRL_CNV_EN = 0 ∨ s.walks rg = false) (e : List Ecc) (vote : Bool) (since : Word) :
    exec (.scrubFrame rg e vote since) s = .next s := by
  refine congrArg Host.Outcome.next (if_pos ?_)
  rcases h with h | h
  · exact .inl (by simp [State.bit, h])
  · exact .inr (by simp [h])

theorem configured_of_walks {s : State} {rg : Rg} (h : s.walks rg = true) : (s.rgn rg).configured = true :=
  (Bool.and_eq_true_iff.mp h).1

/-- Settles O29. -/
theorem scrubbing : Obligations.Scrubbing := by
  unfold Obligations.Scrubbing
  refine ⟨?clean, ?frameIdle, ?uncorrectable, ?single, ?memIdle, ?burst⟩
  case clean =>
    rintro rg since s hen hwalks ⟨rh, hrh, hne, hdone⟩
    have hbit : rh.toNat ≠ rg.toNat := fun e => hne (BitVec.eq_of_toNat_eq e)
    have hread : s.frameRead rg [] since = s := by unfold State.frameRead; rw [scrubFrame_clean]; exact ite_self _
    have hpass : (s.frameDone rg (s.nextFrame rg)).countPass = s.frameDone rg (s.nextFrame rg) :=
      State.countPass_of_other (rh := rh) (configured_of_walks hrh) ((getLsbD_setBit_ne _ _ hbit).trans hdone)
    have hexec := exec_scrubFrame_runs hen hwalks [] since
    rw [hread, hpass] at hexec
    exact .of_eq _ hexec ⟨SMap.get_set_same _ _ _ _, rfl, rfl⟩
  case frameIdle =>
    intro rg e vote since s h
    exact .of_eq s (exec_scrubFrame_idle h e vote since) rfl
  case uncorrectable =>
    intro rg since s hen hwalks hclamp
    have hw : Walked ((s.bump F.SCR_CE_CNV_UE 1).onRgn rg (Region.cellOff · (s.nextFrame rg)))
        ((s.frameRead rg [.uncorrectable] since).frameDone rg (s.nextFrame rg)).countPass := by
      have hread : s.frameRead rg [.uncorrectable] since = scrubFrame s rg (s.nextFrame rg) [.uncorrectable] (s.msAt since) :=
        if_neg (by rw [show ((s.rgn rg).cell (s.nextFrame rg)).clamped = false from hclamp]; exact Bool.false_ne_true)
      rw [hread]
      exact (scrubFrame_uncorrectable s rg _ _).passed rg _
    refine .of_eq _ (exec_scrubFrame_runs hen hwalks _ since) ⟨?_, ?_, fun m hm => ?_⟩
    · refine (congrArg cfgMode ((hw.cellCfg rg _).trans ((cellCfg_cellOff _ rg _ _).trans (if_pos rfl)))).trans (cfgMode_off _)
    · exact (hw.f rfl).trans (State.f_bump_eq s _ _ (by decide))
    · exact (hw.cellCfg rg m).trans ((cellCfg_cellOff _ rg _ m).trans (if_neg hm))
  case single =>
    intro rg since s hen hwalks hclamp
    have hw : Walked (s.bump F.SCR_CE_CNV_CE 1) ((s.frameRead rg [.clean, .single] since).frameDone rg (s.nextFrame rg)).countPass := by
      have hread : s.frameRead rg [.clean, .single] since = scrubFrame s rg (s.nextFrame rg) [.clean, .single] (s.msAt since) :=
        if_neg (by rw [show ((s.rgn rg).cell (s.nextFrame rg)).clamped = false from hclamp]; exact Bool.false_ne_true)
      rw [hread]
      exact (scrubFrame_single s rg _ _).passed rg _
    exact .of_eq _ (exec_scrubFrame_runs hen hwalks _ since) ⟨(hw.f rfl).trans (State.f_bump_eq s _ _ (by decide)), fun m => hw.cellCfg rg m⟩
  case memIdle =>
    intro rg e vote s h
    exact .of_eq s (exec_scrubMemStep_idle h e vote) rfl
  case burst =>
    rintro rg vote s hen ⟨hwalks, happ⟩ hburst hown ⟨hup, hfront⟩ hlt ⟨rh, hrh, hne, hdone⟩
    have hfold : foldS (List.range 2) (outVote s vote) (burstWord rg []) =
        ((outVote s vote).wordDone rg (SMap.get 0 s.scr.mem rg.toNat).toNat).wordDone rg ((SMap.get 0 s.scr.mem rg.toNat).toNat + 1) := by
      refine scrubBurst_two_clean (rh := rh) ?_ ?_ ?_ hlt ?_ ?_ hne <;> rw [outVote_frame]
      · exact happ
      · exact hup
      · exact (configured_of_walks hrh :)
      · exact hdone
    refine .of_eq _ (exec_scrubMemStep_runs hen hwalks happ hburst hown hfront vote) ?_
    rw [hfold]
    refine ⟨?_, ?_, ?_, ?_⟩
    · exact mem_wordDone hlt
    · rw [State.rgn_onRgn_same, State.rgn_onRgn_same, outVote_frame]
      rfl
    · rw [State.rgn_onRgn_same, State.rgn_onRgn_same, outVote_frame]
      rfl
    · rw [State.rf_onRgn_same, State.rgn_onRgn_same]
      unfold Region.dropGrant
      rw [Region.f_setF_other _ _ _ _ (by decide) (by decide), Region.f_setF_eq _ _ _ (by decide)]
      rfl

end Sys2Proof.Machine
end

section
/-! PROOFS. The samples of power, temperature and age, and the trip (R439–R446). -/

namespace Sys2Proof.Machine

/-! ### What the trip and the wakes leave alone -/

namespace Contains
variable {s t : State}

theorem holdJobs (h : Contains s t) : Contains s (holdJobs t) := h.foldS _ fun _ j _ hu => hu.requestHold j 4 0

theorem acceptAgain (h : Contains s t) : Contains s (acceptAgain t) := by
  have hopen : ∀ {u} (k : Nat) (v : Bool), Contains s u → Contains s (u.setRefusing k v) := fun _ _ hu => hu.other rfl
  exact (hopen _ _ h).foldS _ fun _ q _ hu => hopen q _ hu

theorem cancelEntry (h : Contains s t) : Contains s (cancelEntry t) := by
  have hcancel : Contains s ((Machine.acceptAgain ((t.setDrain 4 .none).setF F.PWR_STATUS_ENTERING 0)).bump F.PWR_COUNTS_ABORTED 1) := by
    have hdrain : Contains s (t.setDrain 4 .none) := h.other rfl
    exact (hdrain.setStatusF (x := F.PWR_STATUS_ENTERING) 0 rfl (by decide)).acceptAgain.bump F.PWR_COUNTS_ABORTED 1 (loud (by decide))
  unfold Machine.cancelEntry
  split
  · exact hcancel
  · exact hcancel
  · exact h

theorem beginEntry (h : Contains s t) (st : Nat) (auto : Bool) : Contains s (beginEntry t st auto) := by
  unfold Machine.beginEntry
  extract_lets _ u v
  have hu : Contains s u := h.other rfl
  split
  · exact hu
  · split
    · split
      · exact hu.reachHold
      · exact hu.beginDrain _
    · have hdrain : Contains s (u.setDrain 4 (.hold (BitVec.ofNat 3 st))) := hu.other rfl
      exact (hdrain.setStatusF (x := F.PWR_STATUS_ENTERING) 1 rfl (by decide)).holdJobs.settleHold

end Contains

/-- The package is woken: its source is noted, and no deeper state is aimed at. -/
def State.wakeNoted (s : State) (src : Nat) : State :=
  let s := ((s.setF F.PWR_STATUS_WAKE_SRC src).setF F.PWR_STATUS_WAKE_EVT 1).setF F.PWR_IDLE_US 0
  { s with pwr := { s.pwr with goal := none } }

namespace Contains
variable {s t : State}

theorem wakeNoted (h : Contains s t) (src : Nat) : Contains s (t.wakeNoted src) := by
  have hnote : Contains s (((t.setF F.PWR_STATUS_WAKE_SRC src).setF F.PWR_STATUS_WAKE_EVT 1).setF F.PWR_IDLE_US 0) :=
    ((h.setStatusF (x := F.PWR_STATUS_WAKE_SRC) src rfl (by decide)).setStatusF (x := F.PWR_STATUS_WAKE_EVT) 1 rfl (by decide)).setReg
      F.PWR_IDLE_US.off _ (loud (by decide))
  exact hnote.other rfl

theorem wakeEvent (h : Contains s t) (src : Nat) (acts : List Nat) : Contains s (wakeEvent t src acts) := by
  have hnote := h.wakeNoted src
  have hcancel : Contains s { Machine.cancelEntry (t.wakeNoted src) with pwr := { (Machine.cancelEntry (t.wakeNoted src)).pwr with exiting := true } } :=
    hnote.cancelEntry.other rfl
  unfold Machine.wakeEvent
  split
  · split
    · exact hcancel
    · exact h
  · split
    · exact hcancel
    · exact h
  · split
    · exact hnote.other rfl
    · exact h
  · exact h
  · split
    · exact hnote.other rfl
    · exact h

end Contains

/-! ### The trip -/

/-- What the trip leaves: the temperatures and the throttle; it is asserted at 115 °C and above. -/
structure Tripped (s t : State) : Prop where
  sensors : ∀ a, 0x30808 ≤ a → a < 0x31000 → t.reg a = s.reg a
  throttled : t.f F.PWR_STATUS_THR_TEMP = s.f F.PWR_STATUS_THR_TEMP
  throttling : t.f F.THM_STATUS_THROTTLING = s.f F.THM_STATUS_THROTTLING
  asserted : 115 ≤ s.hottest → t.f F.THM_STATUS_THERM = 1

theorem Contains.tripped {s u t : State} (h : Contains u t) (hregs : ∀ a, 0x30808 ≤ a → a < 0x31000 → u.reg a = s.reg a)
    (hthr : u.f F.PWR_STATUS_THR_TEMP = s.f F.PWR_STATUS_THR_TEMP) (hthm : u.f F.THM_STATUS_THROTTLING = s.f F.THM_STATUS_THROTTLING)
    (htherm : 115 ≤ s.hottest → u.f F.THM_STATUS_THERM = 1) : Tripped s t :=
  ⟨fun a ha hlt => (h.reg a (.inl ⟨by omega, hlt⟩)).trans (hregs a ha hlt), h.throttled.trans hthr,
    (h.f (.inl (by decide))).trans hthm, fun hot => (h.f (.inl (by decide))).trans (htherm hot)⟩

theorem judgeTrip_trips (s : State) : Tripped s (judgeTrip s) := by
  unfold judgeTrip
  extract_lets t s1 s2 s3 _ s4
  split
  · have h2 : Contains s1 s2 := (Contains.refl s1).ibi _ _ (by decide)
    have hall : ∀ {u}, Contains s2 u → Tripped s u := fun hu => by
      refine (h2.trans hu).tripped (fun a ha _ => ?_) ?_ ?_ fun _ => ?_
      · unfold s1
        rw [State.reg_setF_other _ _ _ (by dsimp only; omega), State.reg_setF_other _ _ _ (by dsimp only; omega)]
      · unfold s1
        rw [State.f_setF_other _ _ _ _ (by decide) (by decide), State.f_setF_other _ _ _ _ (by decide) (by decide)]
      · unfold s1
        rw [State.f_setF_other _ _ _ _ (by decide) (by decide), State.f_setF_other _ _ _ _ (by decide) (by decide)]
      · unfold s1
        rw [State.f_setF_other _ _ _ _ (by decide) (by decide), State.f_setF_eq _ _ _ (by decide)]
        rfl
    clear_value s2
    have hr := Contains.refl s2
    split
    · exact hall hr.holdJobs
    · split
      · exact hall ((hr.beginEntry 1 false).setStatusF (x := F.PWR_STATUS_TRIP_HOLD) 1 rfl (by decide))
      · split
        · refine hall (Contains.setStatusF (x := F.PWR_STATUS_TRIP_HOLD) ?_ 1 rfl (by decide))
          exact hr.holdJobs.other rfl
        · exact hall hr.holdJobs
  · next hcold =>
    have hsame : 115 ≤ s.hottest → s.f F.THM_STATUS_THERM = 1 := fun hot => by
      by_contra hn
      exact hcold ⟨hot, by simp [State.bit, State.f_eq_zero_of_ne_one rfl hn]⟩
    split
    · next hlow =>
      have hall : ∀ {u}, Contains s4 u → Tripped s u := fun hu => by
        refine hu.tripped (fun a ha _ => ?_) ?_ ?_ fun hot => ?_
        · unfold s4
          rw [State.reg_setF_other _ _ _ (by dsimp only; omega)]
        · unfold s4
          rw [State.f_setF_other _ _ _ _ (by decide) (by decide)]
        · unfold s4
          rw [State.f_setF_other _ _ _ _ (by decide) (by decide)]
        · have := hlow.1
          unfold t at this
          omega
      clear_value s4
      split
      · exact hall ((Contains.refl s4).wakeEvent 5 [1])
      · exact hall (Contains.refl s4)
    · exact (Contains.refl s).tripped (fun _ _ _ => rfl) rfl rfl hsame

/-! ### The 65 sensors -/

/-- The sensors show their temperatures. -/
def showTemps (s : State) (l : List (BitVec 8 × Nat)) : State := foldS l s (fun s x => s.setF (F.THM_SENSOR_TEMP x.2) x.1.toNat)

theorem f_showTemps_below (l : List (BitVec 8)) {n i : Nat} (h : i < n) (s : State) :
    (showTemps s (l.zipIdx n)).f (F.THM_SENSOR_TEMP i) = s.f (F.THM_SENSOR_TEMP i) := by
  induction l generalizing n s with
  | nil => rfl
  | cons a l ih =>
    rw [List.zipIdx_cons, showTemps, foldS, List.foldl_cons, ← foldS, ← showTemps, ih (by omega),
      State.f_setF_other _ _ _ _ (by simp) (Or.inl (by dsimp only; omega))]

theorem f_showTemps (l : List (BitVec 8)) {n i : Nat} (h : i < l.length) (s : State) :
    (showTemps s (l.zipIdx n)).f (F.THM_SENSOR_TEMP (n + i)) = (l.getD i 0).toNat := by
  induction l generalizing n i s with
  | nil => exact absurd h (Nat.not_lt_zero _)
  | cons a l ih =>
    rw [List.zipIdx_cons, showTemps, foldS, List.foldl_cons, ← foldS, ← showTemps]
    cases i with
    | zero =>
      rw [f_showTemps_below l (by omega), Nat.add_zero, State.f_setF_eq _ _ _ (by simp)]
      exact Nat.mod_eq_of_lt a.isLt
    | succ i =>
      rw [show n + (i + 1) = n + 1 + i by omega, ih (Nat.lt_of_succ_lt_succ h), List.getD_cons_succ]

theorem showTemps_hub (s : State) (l : List (BitVec 8 × Nat)) : showTemps s l = { s with regs := (showTemps s l).regs } :=
  foldS_induct (P := fun t => t = { s with regs := t.regs }) l (fun t x _ ht => by rw [ht]; rfl) rfl

theorem reg_showTemps_low (s : State) (l : List (BitVec 8 × Nat)) {a : Nat} (h : a < 0x30840) : (showTemps s l).reg a = s.reg a :=
  foldS_induct (P := fun t => t.reg a = s.reg a) l (fun t x _ ht => (State.reg_setF_other t _ _ (by dsimp only; omega)).trans ht) rfl

/-- The hottest of some sensors is one of them, and none is hotter. -/
theorem hottestOf_spec {l : List (BitVec 8)} (h : l ≠ []) : (hottestOf l).2 ∈ l ∧ ∀ x ∈ l, degrees x ≤ degrees (hottestOf l).2 := by
  have hstep : ∀ (l : List (BitVec 8)) (n : Nat) (m : Nat × BitVec 8),
      ((l.zipIdx n).foldl (fun m x => if degrees m.2 < degrees x.1 then (x.2, x.1) else m) m).2 ∈ m.2 :: l ∧
        ∀ x ∈ m.2 :: l, degrees x ≤ degrees ((l.zipIdx n).foldl (fun m x => if degrees m.2 < degrees x.1 then (x.2, x.1) else m) m).2 := by
    intro l
    induction l with
    | nil => exact fun _ m => ⟨List.mem_cons_self, fun x hx => by rw [List.mem_singleton.mp hx]; exact le_refl _⟩
    | cons a l ih =>
      intro n m
      rw [List.zipIdx_cons, List.foldl_cons]
      dsimp only
      by_cases hlt : degrees m.2 < degrees a
      · rw [if_pos hlt]
        obtain ⟨hmem, hmax⟩ := ih (n + 1) (n, a)
        refine ⟨List.mem_cons_of_mem _ hmem, fun x hx => ?_⟩
        rcases List.mem_cons.mp hx with rfl | hx
        · exact hlt.le.trans (hmax a List.mem_cons_self)
        · exact hmax x hx
      · rw [if_neg hlt]
        obtain ⟨hmem, hmax⟩ := ih (n + 1) m
        refine ⟨?_, fun x hx => ?_⟩
        · rcases List.mem_cons.mp hmem with h | h
          · exact h ▸ List.mem_cons_self
          · exact List.mem_cons_of_mem _ (List.mem_cons_of_mem _ h)
        · rcases List.mem_cons.mp hx with rfl | hx
          · exact hmax _ List.mem_cons_self
          · rcases List.mem_cons.mp hx with rfl | hx
            · exact (not_lt.mp hlt).trans (hmax _ List.mem_cons_self)
            · exact hmax x (List.mem_cons_of_mem _ hx)
  obtain ⟨hmem, hmax⟩ := hstep l 0 (0, l.getD 0 0)
  have hhead : l.getD 0 0 ∈ l := by
    cases l with
    | nil => exact absurd rfl h
    | cons a l => exact List.mem_cons_self
  refine ⟨?_, fun x hx => hmax x (List.mem_cons_of_mem _ hx)⟩
  rcases List.mem_cons.mp hmem with h | h
  · rw [show (hottestOf l).2 = l.getD 0 0 from h]; exact hhead
  · exact h

theorem temps_eq {temps : List (BitVec 8)} (h : temps.length = 65) : (List.range 65).map (fun i => temps.getD i 0) = temps := by
  refine List.ext_getElem (by simp [h]) fun i h1 h2 => ?_
  simp [h2]

/-! ### The sample of the temperatures -/

/-- The throttle, where the hottest sensor is at its threshold. -/
def State.throttled (s : State) : State :=
  if s.throttleAt ≤ s.hottest then setThrottle { s with pwr := { s.pwr with calm := 0 } } true (s.bit F.PWR_STATUS_THR_CAP) else s

/-- The sensors and the hottest of them are shown. -/
def State.measured (s : State) (temps : List (BitVec 8)) : State :=
  ((showTemps s temps.zipIdx).setF F.THM_TEMP_MAX_TEMP (hottestOf temps).2.toNat).setF F.THM_TEMP_MAX_SRC (hottestOf temps).1

theorem exec_thermalSample {s : State} {temps : List (BitVec 8)} (hlen : temps.length = 65) (hp : s.hubPowered = true)
    (hup : s.pwr.boot ≠ .resetLow) : exec (.thermalSample temps) s = .next (judgeTrip (watchTest (s.measured temps).throttled)) := by
  show execThermalSample temps s = _
  unfold execThermalSample
  rw [temps_eq hlen]
  extract_lets s1
  rw [if_neg (by simp [hp, hup])]
  rfl

theorem watchTest_regs (s : State) : (watchTest s).regs = s.regs := by
  unfold watchTest
  split
  · rfl
  · exact foldS_induct (P := fun t => t.regs = s.regs) (List.range 5) (fun t k _ ht => ht) rfl

theorem measured_shows {s : State} {temps : List (BitVec 8)} (hlen : temps.length = 65) :
    (∀ i : Fin 65, (s.measured temps).f (F.THM_SENSOR_TEMP i.val) = (temps.getD i.val 0).toNat) ∧
      (s.measured temps).f F.THM_TEMP_MAX_TEMP = (hottestOf temps).2.toNat := by
  unfold State.measured
  refine ⟨fun i => ?_, ?_⟩
  · rw [State.f_setF_other _ _ _ _ (by decide) (Or.inl (by dsimp only; omega)), State.f_setF_other _ _ _ _ (by decide) (Or.inl (by dsimp only; omega))]
    have hshow := f_showTemps temps (n := 0) (i := i.val) (by omega) s
    rwa [Nat.zero_add] at hshow
  · rw [State.f_setF_other _ _ _ _ (by decide) (by decide), State.f_setF_eq _ _ _ (by decide)]
    exact Nat.mod_eq_of_lt (hottestOf temps).2.isLt

theorem hottest_measured {s : State} {temps : List (BitVec 8)} (hlen : temps.length = 65) :
    (s.measured temps).hottest = degrees (hottestOf temps).2 := by
  unfold State.hottest
  rw [(measured_shows hlen).2, BitVec.ofNat_toNat, BitVec.setWidth_eq]

theorem throttleAt_measured (s : State) (temps : List (BitVec 8)) : (s.measured temps).throttleAt = s.throttleAt := by
  have hreg : (s.measured temps).reg R.THM_CTRL = s.reg R.THM_CTRL := by
    unfold State.measured
    rw [State.reg_setF_other _ _ _ (by decide), State.reg_setF_other _ _ _ (by decide), reg_showTemps_low _ _ (by decide)]
  unfold State.throttleAt
  rw [show (s.measured temps).f F.THM_CTRL_THROTTLE = s.f F.THM_CTRL_THROTTLE from congrArg F.THM_CTRL_THROTTLE.of hreg]

theorem throttled_sets {s : State} (h : s.throttleAt ≤ s.hottest) :
    s.throttled.f F.PWR_STATUS_THR_TEMP = 1 ∧ s.throttled.f F.THM_STATUS_THROTTLING = 1 := by
  unfold State.throttled
  rw [if_pos h]
  unfold setThrottle
  exact ⟨by simp, by simp⟩

theorem throttled_reg (s : State) {a : Nat} (ha : 0x30808 ≤ a) : s.throttled.reg a = s.reg a := by
  unfold State.throttled
  split
  · unfold setThrottle
    rw [State.reg_setF_other _ _ _ (by dsimp only; omega), State.reg_setF_other _ _ _ (by dsimp only; omega),
      State.reg_setF_other _ _ _ (by dsimp only; omega)]
    rfl
  · rfl

theorem throttleAt_le (s : State) : s.throttleAt ≤ 110 := by
  unfold State.throttleAt
  omega

/-- The state that a sample of the temperatures leaves. -/
def State.sampled (s : State) (temps : List (BitVec 8)) : State := judgeTrip (watchTest (s.measured temps).throttled)

theorem sampled_trips (s : State) (temps : List (BitVec 8)) : Tripped (s.measured temps).throttled (s.sampled temps) := by
  obtain ⟨hsensors, hthr, hthm, htherm⟩ := judgeTrip_trips (watchTest (s.measured temps).throttled)
  have hregs := watchTest_regs (s.measured temps).throttled
  have hreg : ∀ a, (watchTest (s.measured temps).throttled).reg a = (s.measured temps).throttled.reg a := fun a => by
    unfold State.reg
    rw [hregs]
  have hhot : (watchTest (s.measured temps).throttled).hottest = (s.measured temps).throttled.hottest := by
    unfold State.hottest
    rw [State.f_of_regs hregs]
  exact ⟨fun a ha hlt => (hsensors a ha hlt).trans (hreg a), hthr.trans (State.f_of_regs hregs _), hthm.trans (State.f_of_regs hregs _),
    fun hot => htherm (hhot ▸ hot)⟩

theorem sampled_reg (s : State) (temps : List (BitVec 8)) {a : Nat} (ha : 0x30808 ≤ a) (hlt : a < 0x31000) :
    (s.sampled temps).reg a = (s.measured temps).reg a :=
  ((sampled_trips s temps).sensors a ha hlt).trans (throttled_reg _ ha)

theorem sampled_max {s : State} {temps : List (BitVec 8)} (hlen : temps.length = 65) :
    (s.sampled temps).f F.THM_TEMP_MAX_TEMP = (hottestOf temps).2.toNat :=
  (congrArg F.THM_TEMP_MAX_TEMP.of (sampled_reg s temps (by decide) (by decide))).trans (measured_shows hlen).2

theorem sampled_throttles {s : State} {temps : List (BitVec 8)} (hlen : temps.length = 65) (h : ∃ x ∈ temps, s.throttleAt ≤ x.toInt) :
    (s.sampled temps).f F.PWR_STATUS_THR_TEMP = 1 ∧ (s.sampled temps).f F.THM_STATUS_THROTTLING = 1 := by
  obtain ⟨x, hx, hle⟩ := h
  have hne : temps ≠ [] := List.ne_nil_of_mem hx
  have hhot : (s.measured temps).throttleAt ≤ (s.measured temps).hottest := by
    rw [throttleAt_measured, hottest_measured hlen]
    exact hle.trans ((hottestOf_spec hne).2 x hx)
  obtain ⟨hthr, hthm⟩ := throttled_sets hhot
  have htrip := sampled_trips s temps
  exact ⟨htrip.throttled.trans hthr, htrip.throttling.trans hthm⟩

/-! ### The sample of the power -/

/-- A rail's measurements are asked for. -/
def askRail (s : State) (q : Nat) : State := s.issueAvs q [.voltage, .current, .status]

theorem askRail_regs (s : State) (q : Nat) : (askRail s q).regs = s.regs := rfl

theorem asked_regs (s : State) : (foldS (List.range 4) s askRail).regs = s.regs :=
  foldS_induct (P := fun t => t.regs = s.regs) (f := askRail) (List.range 4) (fun t q _ ht => (askRail_regs t q).trans ht) rfl

/-- The power of one quadrant is shown. -/
def showPower (quads : List (BitVec 16)) (s : State) (q : Nat) : State := s.setF (F.PWR_QPOWER_DW q) (quads.getD q 0).toNat

theorem showPower_shows (quads : List (BitVec 16)) (s : State) (q : Nat) :
    (showPower quads s q).f (F.PWR_QPOWER_DW q) = (quads.getD q 0).toNat :=
  (State.f_setF_eq _ _ _ (by simp)).trans (Nat.mod_eq_of_lt (quads.getD q 0).isLt)

theorem showPower_keeps (quads : List (BitVec 16)) (s : State) {q r : Nat} (h : s.f (F.PWR_QPOWER_DW q) = (quads.getD q 0).toNat) :
    (showPower quads s r).f (F.PWR_QPOWER_DW q) = (quads.getD q 0).toNat := by
  by_cases hr : q = r
  · exact hr ▸ showPower_shows quads s q
  · exact (State.f_setReg_other _ _ _ (by dsimp only; omega)).trans h

theorem quadPowers_shown (s : State) (quads : List (BitVec 16)) (q : Fin 4) :
    (foldS (List.range 4) s (showPower quads)).f (F.PWR_QPOWER_DW q.val) = (quads.getD q.val 0).toNat :=
  foldS_reaches (P := fun t => t.f (F.PWR_QPOWER_DW q.val) = (quads.getD q.val 0).toNat) (f := showPower quads) (List.mem_range.mpr q.isLt)
    (fun t => showPower_shows quads t _) (fun t _ ht => showPower_keeps quads t ht) s

theorem f_quadPowers (s : State) (quads : List (BitVec 16)) {x : Fld} (h : x.off < 0x30060) :
    (foldS (List.range 4) s (showPower quads)).f x = s.f x :=
  foldS_induct (P := fun t => t.f x = s.f x) (f := showPower quads) (List.range 4)
    (fun t q _ ht => (State.f_setReg_other t x _ (by dsimp only; omega)).trans ht) rfl

/-- The throttle's bits apart, the power registers stand. -/
theorem f_setThrottle (s : State) (temp cap : Bool) {x : Fld} (hx : x.off ≠ R.PWR_STATUS ∨ 6 ≤ x.lo) (hthm : x.off ≠ R.THM_STATUS) :
    (setThrottle s temp cap).f x = s.f x := by
  refine (State.f_setReg_other _ x _ hthm).trans ?_
  rcases hx with hoff | hlo
  · exact (State.f_setReg_other _ x _ hoff).trans (State.f_setReg_other _ x _ hoff)
  · rw [State.f_setF_other _ _ _ _ (by decide) (Or.inr (by dsimp only; omega)), State.f_setF_other _ _ _ _ (by decide) (Or.inr (by dsimp only; omega))]

/-- The powers of the package and of the quadrants are shown. -/
def State.powersShown (s : State) (pkg : BitVec 16) (quads : List (BitVec 16)) : State :=
  let s := (foldS (List.range 4) s askRail).setF F.PWR_POWER_NOW pkg.toNat
  let s := if s.f F.PWR_POWER_PEAK < pkg.toNat then s.setF F.PWR_POWER_PEAK pkg.toNat else s
  let s := foldS (List.range 4) s (showPower quads)
  s.setF F.PWR_STATUS_CAPPED (decide (98 * s.cap ≤ 100 * pkg.toNat)).toNat

theorem State.cap_of {s t : State} (h : t.f F.PWR_CAP_DW = s.f F.PWR_CAP_DW) : t.cap = s.cap := by
  unfold State.cap
  rw [h]

/-- What a sample of the power shows. -/
structure PowerShown (pkg : BitVec 16) (quads : List (BitVec 16)) (s t : State) : Prop where
  now : t.f F.PWR_POWER_NOW = pkg.toNat
  peak : s.f F.PWR_POWER_PEAK ≤ t.f F.PWR_POWER_PEAK ∧ pkg.toNat ≤ t.f F.PWR_POWER_PEAK
  quads : ∀ q : Fin 4, t.f (F.PWR_QPOWER_DW q.val) = (quads.getD q.val 0).toNat
  capped : t.f F.PWR_STATUS_CAPPED = if 98 * s.cap ≤ 100 * pkg.toNat then 1 else 0

theorem powersShown_shows (s : State) (pkg : BitVec 16) (quads : List (BitVec 16)) : PowerShown pkg quads s (s.powersShown pkg quads) := by
  unfold State.powersShown
  extract_lets s1 s2 s3
  have hnow : s1.f F.PWR_POWER_NOW = pkg.toNat := by
    unfold s1
    rw [State.f_setF_eq _ _ _ (by decide)]
    exact Nat.mod_eq_of_lt pkg.isLt
  have hpeak : s1.f F.PWR_POWER_PEAK = s.f F.PWR_POWER_PEAK := by
    unfold s1
    rw [State.f_setF_other _ _ _ _ (by decide) (by decide)]
    exact State.f_of_regs (asked_regs s) _
  have hcap : s1.f F.PWR_CAP_DW = s.f F.PWR_CAP_DW := by
    unfold s1
    rw [State.f_setF_other _ _ _ _ (by decide) (by decide)]
    exact State.f_of_regs (asked_regs s) _
  clear_value s1
  have h2 : s2.f F.PWR_POWER_NOW = pkg.toNat ∧ s2.f F.PWR_CAP_DW = s.f F.PWR_CAP_DW ∧
      s.f F.PWR_POWER_PEAK ≤ s2.f F.PWR_POWER_PEAK ∧ pkg.toNat ≤ s2.f F.PWR_POWER_PEAK := by
    unfold s2
    split
    · next hlt =>
      have hset : (s1.setF F.PWR_POWER_PEAK pkg.toNat).f F.PWR_POWER_PEAK = pkg.toNat :=
        (State.f_setF_eq _ _ _ (by decide)).trans (Nat.mod_eq_of_lt pkg.isLt)
      rw [hset]
      exact ⟨(State.f_setF_other _ _ _ _ (by decide) (by decide)).trans hnow,
        (State.f_setF_other _ _ _ _ (by decide) (by decide)).trans hcap, by omega, le_refl _⟩
    · next hge => exact ⟨hnow, hcap, by omega, by omega⟩
  obtain ⟨hnow2, hcap2, hpeak2, hpkg2⟩ := h2
  clear_value s2
  have hcap3 : s3.cap = s.cap := State.cap_of ((f_quadPowers s2 quads (by decide)).trans hcap2)
  have hother : ∀ {x : Fld}, x.off ≠ R.PWR_STATUS → (s3.setF F.PWR_STATUS_CAPPED (decide (98 * s3.cap ≤ 100 * pkg.toNat)).toNat).f x = s3.f x :=
    fun hx => State.f_setReg_other _ _ _ hx
  have hpeak3 : (s3.setF F.PWR_STATUS_CAPPED (decide (98 * s3.cap ≤ 100 * pkg.toNat)).toNat).f F.PWR_POWER_PEAK = s2.f F.PWR_POWER_PEAK :=
    (hother (by decide)).trans (f_quadPowers s2 quads (by decide))
  refine ⟨(hother (by decide)).trans ((f_quadPowers s2 quads (by decide)).trans hnow2), ?_, fun q => ?_, ?_⟩
  · rw [hpeak3]
    exact ⟨hpeak2, hpkg2⟩
  · exact (hother (by unfold R.PWR_STATUS; dsimp only; omega)).trans (quadPowers_shown s2 quads q)
  · rw [State.f_setF_eq _ _ _ (by decide), hcap3]
    by_cases h : 98 * s.cap ≤ 100 * pkg.toNat <;> simp [h]

theorem PowerShown.of_shown {pkg : BitVec 16} {quads : List (BitVec 16)} {s t u : State} (h : PowerShown pkg quads s t)
    (hu : ∀ {x : Fld}, x.off ≠ R.PWR_STATUS ∨ 6 ≤ x.lo → x.off ≠ R.THM_STATUS → u.f x = t.f x) : PowerShown pkg quads s u := by
  obtain ⟨hnow, hpeak, hquads, hcap⟩ := h
  refine ⟨(hu (by decide) (by decide)).trans hnow, ?_, fun q => ?_, (hu (by decide) (by decide)).trans hcap⟩
  · rw [hu (x := F.PWR_POWER_PEAK) (by decide) (by decide)]
    exact hpeak
  · exact (hu (.inl (by unfold R.PWR_STATUS; dsimp only; omega)) (by unfold R.THM_STATUS; dsimp only; omega)).trans (hquads q)

/-- The throttle that the cap asks for, and the end of the throttle after ten calm samples (R440, R441). -/
def State.throttleJudged (s : State) (pkg : BitVec 16) : State :=
  let ovf := decide (s.cap < pkg.toNat)
  let temp := s.bit F.PWR_STATUS_THR_TEMP
  let s := if ovf ∧ s.pwr.capOver then setThrottle s temp true else s
  let quiet := decide (s.hottest < s.throttleAt - s.f F.THM_CTRL_HYST) && !ovf
  let calm := if quiet then min (s.pwr.calm.toNat + 1) 10 else 0
  let s := { s with pwr := { s.pwr with capOver := ovf, calm := BitVec.ofNat 4 calm } }
  if calm = 10 then setThrottle s false false else s

theorem exec_powerSample (pkg : BitVec 16) (quads : List (BitVec 16)) (s : State) :
    exec (.powerSample pkg quads) s = .next ((s.powersShown pkg quads).throttleJudged pkg) := rfl

theorem f_throttleJudged (s : State) (pkg : BitVec 16) {x : Fld} (hx : x.off ≠ R.PWR_STATUS ∨ 6 ≤ x.lo) (hthm : x.off ≠ R.THM_STATUS) :
    (s.throttleJudged pkg).f x = s.f x := by
  unfold State.throttleJudged
  extract_lets ovf temp s1 quiet calm _ s2
  have h1 : s1.f x = s.f x := by
    unfold s1
    split
    · exact f_setThrottle _ _ _ hx hthm
    · rfl
  have h2 : s2.f x = s.f x := h1
  clear_value s2
  split
  · exact (f_setThrottle _ _ _ hx hthm).trans h2
  · exact h2

/-! ### The check of a quadrant's age -/

/-- The state that the check of a quadrant's age leaves. -/
def State.ageChecked (s : State) (q : Quad) (slow : BitVec 10) : State :=
  let n := q.toNat
  let before := s.f (F.PWR_AGE_SLOW n)
  let s := s.setF (F.PWR_AGE_SLOW n) slow.toNat
  let s := if (SMap.get 0 s.flash.slowAt n).toNat + 24 ≤ s.flash.hours.toNat then saveSlow s n else s
  if before < 60 ∧ 60 ≤ slow.toNat then (s.setF F.PWR_STATUS_AGE_ALERT 1).ibi 0x12 n (min 255 (slow.toNat / 4)) else s

theorem ageCheck_checks (q : Quad) (slow : BitVec 10) (s : State) :
    Completes (.ageCheck q slow) s (fun t => t.f (F.PWR_AGE_SLOW q.toNat) = slow.toNat ∧
      SMap.get 0 t.flash.slow q.toNat = (if (SMap.get 0 s.flash.slowAt q.toNat).toNat + 24 ≤ s.flash.hours.toNat then slow else SMap.get 0 s.flash.slow q.toNat) ∧
      ((s.f (F.PWR_AGE_SLOW q.toNat) < 60 ∧ 60 ≤ slow.toNat) → t.f F.PWR_STATUS_AGE_ALERT = 1)) := by
  have hq := q.isLt
  refine .of_eq (s.ageChecked q slow) rfl ?_
  unfold State.ageChecked
  extract_lets n before s1 s2
  have hs1 : s1.f (F.PWR_AGE_SLOW q.toNat) = slow.toNat :=
    (State.f_setF_eq _ _ _ (by simp)).trans (Nat.mod_eq_of_lt slow.isLt)
  have hs2 : s2.f (F.PWR_AGE_SLOW q.toNat) = slow.toNat ∧ SMap.get 0 s2.flash.slow q.toNat =
      if (SMap.get 0 s.flash.slowAt q.toNat).toNat + 24 ≤ s.flash.hours.toNat then slow else SMap.get 0 s.flash.slow q.toNat := by
    unfold s2
    by_cases h : (SMap.get 0 s.flash.slowAt q.toNat).toNat + 24 ≤ s.flash.hours.toNat
    · rw [if_pos (show (SMap.get 0 s1.flash.slowAt n).toNat + 24 ≤ s1.flash.hours.toNat from h), if_pos h]
      refine ⟨hs1, ?_⟩
      show SMap.get 0 (SMap.set 0 s1.flash.slow q.toNat (BitVec.ofNat 10 (s1.f (F.PWR_AGE_SLOW q.toNat)))) q.toNat = slow
      rw [SMap.get_set_same, hs1, BitVec.ofNat_toNat, BitVec.setWidth_eq]
    · rw [if_neg (show ¬ (SMap.get 0 s1.flash.slowAt n).toNat + 24 ≤ s1.flash.hours.toNat from h), if_neg h]
      exact ⟨hs1, rfl⟩
  clear_value s2
  split
  · have hold : ∀ {x : Fld}, 0x30000 ≤ x.off → x.off < 0x31000 →
        ((s2.setF F.PWR_STATUS_AGE_ALERT 1).ibi 0x12 n (min 255 (slow.toNat / 4))).f x = (s2.setF F.PWR_STATUS_AGE_ALERT 1).f x := fun hlo hhi =>
      State.f_ibi _ _ _ _ _ (by unfold R.HIF_IBI_PEND; omega) (by dsimp only; omega) (by dsimp only; omega)
    refine ⟨(hold (by dsimp only; omega) (by dsimp only; omega)).trans ((State.f_setReg_other _ _ _ (by dsimp only; omega)).trans hs2.1), ?_, fun _ => ?_⟩
    · rw [((Contains.refl _).ibi _ _ (by decide)).flash]
      exact hs2.2
    · rw [hold (by decide) (by decide), State.f_setF_eq _ _ _ (by decide)]
      rfl
  · next hno => exact ⟨hs2.1, hs2.2, fun h => absurd h hno⟩

/-- Settles O27. -/
theorem powerAndThermalSamples : Obligations.PowerAndThermalSamples := by
  unfold Obligations.PowerAndThermalSamples
  refine ⟨?power, ?temps, ?trip, ?throttle, ageCheck_checks⟩
  case power =>
    intro pkg quads s
    obtain ⟨hnow, hpeak, hquads, hcap⟩ := (powersShown_shows s pkg quads).of_shown (f_throttleJudged _ pkg)
    exact .of_eq _ (exec_powerSample pkg quads s) ⟨hnow, hpeak.1, hpeak.2, hquads, hcap⟩
  case temps =>
    rintro temps s ⟨hlen, hp, hup⟩
    have hne : temps ≠ [] := fun e => by rw [e] at hlen; exact absurd hlen (by decide)
    obtain ⟨hmem, hmax⟩ := hottestOf_spec hne
    have hsame : BitVec.ofNat 8 ((s.sampled temps).f F.THM_TEMP_MAX_TEMP) = (hottestOf temps).2 := by
      rw [sampled_max hlen, BitVec.ofNat_toNat, BitVec.setWidth_eq]
    refine .of_eq _ (exec_thermalSample hlen hp hup) ⟨fun i => ?_, fun x hx => ?_, ?_⟩
    · have hreg := sampled_reg s temps (a := (F.THM_SENSOR_TEMP i.val).off) (by dsimp only; omega) (by dsimp only; omega)
      exact (congrArg (F.THM_SENSOR_TEMP i.val).of hreg).trans ((measured_shows hlen).1 i)
    · show degrees x ≤ degrees (BitVec.ofNat 8 ((s.sampled temps).f F.THM_TEMP_MAX_TEMP))
      rw [hsame]
      exact hmax x hx
    · show BitVec.ofNat 8 ((s.sampled temps).f F.THM_TEMP_MAX_TEMP) ∈ temps
      rw [hsame]
      exact hmem
  case trip =>
    rintro temps s ⟨hlen, hp, hup⟩ ⟨x, hx, hot⟩
    obtain ⟨hthr, hthm⟩ := sampled_throttles hlen ⟨x, hx, (throttleAt_le s).trans (by omega)⟩
    have hhot : 115 ≤ (s.measured temps).throttled.hottest := by
      have hmax : (s.measured temps).throttled.f F.THM_TEMP_MAX_TEMP = (s.measured temps).f F.THM_TEMP_MAX_TEMP :=
        congrArg F.THM_TEMP_MAX_TEMP.of (throttled_reg _ (by decide))
      unfold State.hottest
      rw [hmax]
      show 115 ≤ (s.measured temps).hottest
      rw [hottest_measured hlen]
      exact hot.trans ((hottestOf_spec (List.ne_nil_of_mem hx)).2 x hx)
    exact .of_eq _ (exec_thermalSample hlen hp hup) ⟨(sampled_trips s temps).asserted hhot, hthr, hthm⟩
  case throttle =>
    rintro temps s ⟨hlen, hp, hup⟩ h
    exact .of_eq _ (exec_thermalSample hlen hp hup) (sampled_throttles hlen h)

end Sys2Proof.Machine
end

section
/-! PROOFS. What the steps of a fix leave alone: the cycle count and the boundary, the jobs, and every other region (R42–R47). -/

namespace Sys2Proof.Machine

/-! ### A region's fix engine stands -/

/-- The registers from FIX.CTRL to FIX.BOUND_HI. -/
def FixReg (a : Nat) : Prop := 0x1000 ≤ a ∧ a < 0x1018

/-- The fix engine's state, count and boundary, and its spacing limit, are as they were. -/
structure FixStands (r r' : Region) : Prop where
  reg : ∀ a, FixReg a → r'.reg a = r.reg a
  spacing : r'.fix.spacing = r.fix.spacing

namespace FixStands
variable {r r' : Region}

theorem refl (r : Region) : FixStands r r := ⟨fun _ _ => rfl, rfl⟩

theorem trans {r'' : Region} (h : FixStands r r') (h' : FixStands r' r'') : FixStands r r'' :=
  ⟨fun a ha => (h'.reg a ha).trans (h.reg a ha), h'.spacing.trans h.spacing⟩

theorem of_regs (h : FixStands r r') {r'' : Region} (hr : (r''.regs, r''.fix.spacing) = (r'.regs, r'.fix.spacing)) : FixStands r r'' := by
  obtain ⟨hregs, hsp⟩ := Prod.mk.injEq _ _ _ _ ▸ hr
  exact h.trans ⟨fun a _ => by unfold Region.reg; rw [hregs], hsp⟩

theorem setReg (h : FixStands r r') {a : Nat} (v : Word) (ha : ¬ FixReg a) : FixStands r (r'.setReg a v) :=
  h.trans ⟨fun b hb => Region.reg_setReg_other _ _ (fun e => ha (e ▸ hb)), rfl⟩

theorem setF (h : FixStands r r') (x : Fld) (n : Nat) (hx : ¬ FixReg x.off) : FixStands r (r'.setF x n) := h.setReg _ hx

theorem bump (h : FixStands r r') (x : Fld) (k : Nat) (hx : ¬ FixReg x.off) : FixStands r (r'.bump x k) := h.setReg _ hx

theorem ite {c : Prop} {_ : Decidable c} {x y : Region} (hx : FixStands r x) (hy : FixStands r y) : FixStands r (if c then x else y) := by
  split <;> assumption

theorem foldl {α : Type} {f : Region → α → Region} (h : FixStands r r') (l : List α) (hf : ∀ u, ∀ a ∈ l, FixStands r u → FixStands r (f u a)) :
    FixStands r (l.foldl f r') := by
  induction l generalizing r' with
  | nil => exact h
  | cons a l ih => exact ih (hf r' a List.mem_cons_self h) fun u b hb => hf u b (List.mem_cons_of_mem _ hb)

end FixStands

theorem not_fixReg {a : Nat} (h : a < 0x1000 ∨ 0x1018 ≤ a) : ¬ FixReg a := by
  unfold FixReg
  omega

namespace FixStands
variable {r r' : Region}

/-! ### The trace buffer and the back port -/

theorem append (h : FixStands r r') (ws : List Entry) : FixStands r (r'.append ws) :=
  ((h.of_regs (r'' := r'.putRing (r'.f F.RWD_HEAD_WORD) ws) rfl).setF F.RWD_HEAD_WORD _ (not_fixReg (by decide))).setF F.RWD_FREE_WORDS _
    (not_fixReg (by decide))

theorem unusable (h : FixStands r r') : FixStands r r'.unusable :=
  h.foldl _ fun _ i _ hu => hu.setF (F.RWD_MARK_USABLE i) 0 (not_fixReg (by dsimp only; omega))

theorem writeGap (h : FixStands r r') : FixStands r r'.writeGap := by
  have hgap := (((h.append [recHeader r'.rwd.gapCycle 1 false 7, BitVec.ofNat 64 (packKey [(1, 4), (r'.rwd.gapCount.toNat, 32)])]).setF
    F.RWD_STATUS_FULL 0 (not_fixReg (by decide))).setF F.RWD_STATUS_GAP 1 (not_fixReg (by decide))).unusable
  exact hgap.of_regs rfl

theorem discard (h : FixStands r r') (cycle : BitVec 48) : FixStands r (r'.discard cycle) := by
  have hb := h.bump F.RWD_COUNTS_DISCARDED 1 (not_fixReg (by decide))
  unfold Region.discard
  dsimp only
  split
  · exact hb.of_regs rfl
  · exact (hb.setF F.RWD_STATUS_FULL 1 (not_fixReg (by decide))).of_regs rfl

theorem writeMarker (h : FixStands r r') (cycle : BitVec 48) (kind : Nat) : FixStands r (r'.writeMarker cycle kind) := by
  have ha := h.append [recHeader cycle 1 false 7, BitVec.ofNat 64 kind]
  exact ite h (ite (h.discard cycle) (ite (ha.setF F.RWD_STATUS_GAP 1 (not_fixReg (by decide))).unusable ha))

theorem settleOne (h : FixStands r r') : FixStands r r'.settleOne := by
  unfold Region.settleOne
  refine ite h.writeGap ?_
  split
  · next n _ _ => exact writeMarker (h.of_regs (r'' := { r' with rwd := { r'.rwd with branchDue := none } }) rfl) _ 2
  · next n _ _ => exact writeMarker (h.of_regs (r'' := { r' with rwd := { r'.rwd with gapDue := none } }) rfl) _ 1
  · exact h

theorem waitFor (h : FixStands r r') (q : Fin 6) : FixStands r (r'.waitFor q) := h.setF _ _ (not_fixReg (by decide))

theorem round (h : FixStands r r') (w : List (Fin 6)) (g : Fin 6) : FixStands r (r'.round w g) := by
  have harb : ∀ a, FixStands r { r' with arb := a } := fun _ => h.of_regs rfl
  exact ite ((harb _).setF F.DMEM_AGE_MAX_ROUNDS _ (not_fixReg (by decide))) (harb _)

theorem grant (h : FixStands r r') (w : List (Fin 6)) (g : Fin 6) : FixStands r (r'.grant w g) :=
  (((h.round w g).setF F.DMEM_STATUS_WAITING _ (not_fixReg (by decide))).setF F.DMEM_STATUS_OWNER _ (not_fixReg (by decide))).setF
    F.DMEM_GRANT_TIME_NS 0 (not_fixReg (by decide))

theorem granted (h : FixStands r r') (w : List (Fin 6)) (g : Fin 6) (forced : Bool) : FixStands r (r'.granted w g forced) :=
  ite ((h.grant w g).bump F.DMEM_ARB_EVENTS_FORCED 1 (not_fixReg (by decide))) (h.grant w g)

theorem dropGrant (h : FixStands r r') : FixStands r r'.dropGrant :=
  (h.setF F.DMEM_STATUS_OWNER 6 (not_fixReg (by decide))).setF F.DMEM_GRANT_TIME_NS 0 (not_fixReg (by decide))

theorem redo (h : FixStands r r') : FixStands r r'.redo := by
  obtain ⟨d, u, f, hr⟩ := r'.redo_frame
  rw [hr]
  exact h.of_regs rfl

/-- Records read for a replay, and the rewrites that they ask for. -/
theorem redoing (r : Region) (front : List FrontAcc) (used : List (BitVec 18)) :
    FixStands r { r with front := front, rwd := { r.rwd with used := used } }.redo :=
  ((refl r).of_regs (r'' := { r with front := front, rwd := { r.rwd with used := used } }) rfl).redo

theorem shadowSlot (h : FixStands r r') (c : Cl) (k : Nat) : FixStands r (r'.shadowSlot c k) := by
  unfold Region.shadowSlot
  split
  · exact h
  · exact ite (h.of_regs rfl) h

theorem fixInterrupt (h : FixStands r r') : FixStands r r'.fixInterrupt := by
  refine ite h (h.foldl allCores fun u k _ hu => ite hu ?_)
  have hset : ∀ e, FixStands r (u.setEas k e) := fun _ => hu.of_regs rfl
  exact ite ((hset _).setF (F.EAS_STATUS_HOLDING k.val) 1 (not_fixReg (by dsimp only; omega))) (hset _)

theorem recordMargin (h : FixStands r r') : FixStands r r'.recordMargin := by
  have hlast := h.setF F.FIX_MARGIN_LAST (toField 20 r'.margin) (not_fixReg (by decide))
  unfold Region.recordMargin
  extract_lets m r1 r2 least
  refine FixStands.of_regs (r' := r2) ?_ rfl
  exact ite (hlast.setF F.FIX_MARGIN_MIN_MIN _ (not_fixReg (by decide))) hlast

end FixStands

/-! ### The steps of a fix, about their region -/

theorem jobs_ibi (s : State) (cls loc arg : Nat) : (s.ibi cls loc arg).jobs = s.jobs := by
  unfold State.ibi
  split
  · rfl
  · dsimp only
    split <;> rfl

/-- From `s` to `t` no other region has changed, nor the table of the jobs, nor the region's fix engine. -/
structure Beside (rg : Rg) (s t : State) : Prop where
  others : ∀ rh, rh ≠ rg → t.rgn rh = s.rgn rh
  jobs : t.jobs = s.jobs
  table : ∀ a, 0x50800 ≤ a → a < 0x51000 → t.reg a = s.reg a
  fix : FixStands (s.rgn rg) (t.rgn rg)

namespace Beside
variable {rg : Rg} {s t : State}

theorem refl (rg : Rg) (s : State) : Beside rg s s := ⟨fun _ _ => rfl, rfl, fun _ _ _ => rfl, .refl _⟩

theorem trans {u : State} (h : Beside rg s t) (h' : Beside rg t u) : Beside rg s u :=
  ⟨fun rh hr => (h'.others rh hr).trans (h.others rh hr), h'.jobs.trans h.jobs, fun a ha hlt => (h'.table a ha hlt).trans (h.table a ha hlt),
    h.fix.trans h'.fix⟩

theorem other (h : Beside rg s t) {u : State} (hu : (u.regs, u.rgns, u.jobs) = (t.regs, t.rgns, t.jobs)) : Beside rg s u := by
  simp only [Prod.mk.injEq] at hu
  obtain ⟨hregs, hrgns, hjobs⟩ := hu
  have hr : ∀ rh, u.rgn rh = t.rgn rh := fun rh => by unfold State.rgn; rw [hrgns]
  exact h.trans ⟨fun rh _ => hr rh, hjobs, fun a _ _ => by unfold State.reg; rw [hregs], hr rg ▸ .refl _⟩

theorem ite {c : Prop} {_ : Decidable c} {u : State} (ht : Beside rg s t) (hu : Beside rg s u) : Beside rg s (if c then t else u) := by
  split <;> assumption

theorem foldS {α : Type} {f : State → α → State} (h : Beside rg s t) (l : List α) (hf : ∀ u, ∀ a ∈ l, Beside rg s u → Beside rg s (f u a)) :
    Beside rg s (Machine.foldS l t f) := foldS_induct (P := Beside rg s) l hf h

theorem setReg (h : Beside rg s t) {a : Nat} (v : Word) (ha : a < 0x50800 ∨ 0x51000 ≤ a) : Beside rg s (t.setReg a v) :=
  h.trans ⟨fun _ _ => rfl, rfl, fun b hb hlt => State.reg_setReg_other _ _ (by omega), .refl _⟩

theorem bump (h : Beside rg s t) (x : Fld) (k : Nat) (ha : x.off < 0x50800 ∨ 0x51000 ≤ x.off) : Beside rg s (t.bump x k) := h.setReg _ ha

/-- A region whose fix engine stands, for instance because no register and no limit has changed. -/
theorem setRgn (h : Beside rg s t) {r : Region} (hr : FixStands (t.rgn rg) r := by exact ⟨fun _ _ => rfl, rfl⟩) : Beside rg s (t.setRgn rg r) :=
  h.trans ⟨fun _ hn => State.rgn_setRgn_other _ _ hn, rfl, fun _ _ _ => rfl, by rw [State.rgn_setRgn_same]; exact hr⟩

theorem onRgn (h : Beside rg s t) {g : Region → Region} (hg : FixStands (t.rgn rg) (g (t.rgn rg)) := by exact ⟨fun _ _ => rfl, rfl⟩) :
    Beside rg s (t.onRgn rg g) := h.setRgn hg

theorem setRf (h : Beside rg s t) (x : Fld) (n : Nat) (hx : x.off < 0x1000 ∨ 0x1018 ≤ x.off) : Beside rg s (t.setRf rg x n) :=
  h.onRgn ((FixStands.refl _).setF x n (not_fixReg hx))

theorem bumpR (h : Beside rg s t) (x : Fld) (n : Nat) (hx : x.off < 0x1000 ∨ 0x1018 ≤ x.off) : Beside rg s (t.bumpR rg x n) :=
  h.onRgn ((FixStands.refl _).bump x n (not_fixReg hx))

theorem draw (h : Beside rg s t) (w : Nat) : Beside rg s (t.draw w).2 := h.other rfl

theorem ibi (h : Beside rg s t) {cls : Nat} (loc arg : Nat) (hc : cls < 32) : Beside rg s (t.ibi cls loc arg) := by
  refine h.trans ⟨fun rh _ => State.rgn_ibi _ _ _ _ _, jobs_ibi _ _ _ _, fun a ha hlt => ?_, by rw [State.rgn_ibi]; exact .refl _⟩
  exact State.reg_ibi _ _ _ _ (by unfold R.HIF_IBI_PEND; omega) (by dsimp only; omega) (by dsimp only; omega)

theorem findsRoom (h : Beside rg s t) (key places : Nat) : Beside rg s (t.findsRoom key places).2 := by
  rw [State.findsRoom_frame]
  exact h.other rfl

theorem noteFault (h : Beside rg s t) {src l : Nat} (key : Word) (hsrc : src < 32) (hl : l < 8) : Beside rg s (t.noteFault src l key) := by
  unfold State.noteFault
  have hroom := h.findsRoom (32 * l + src) 16
  generalize t.findsRoom (32 * l + src) 16 = x at hroom ⊢
  obtain ⟨room, u⟩ := x
  have hcount : Beside rg s (if room = true then u.bump (F.FLT_CNT_EVENTS src l) 1 else u.bump F.SEM_XSTAT_OVERRUN 1) :=
    ite (hroom.bump _ _ (.inl (by dsimp only; omega))) (hroom.bump _ _ (by decide))
  dsimp only
  generalize (if room = true then u.bump (F.FLT_CNT_EVENTS src l) 1 else u.bump F.SEM_XSTAT_OVERRUN 1) = v at hcount
  exact ite (hcount.other rfl) (hcount.setReg _ (by decide))

theorem taintAt (h : Beside rg s t) (cycle : BitVec 48) (x : Taint) : Beside rg s (t.taintAt (some rg) cycle x) := by
  have hq := quadOf_lt rg
  unfold State.taintAt
  have hroom := h.findsRoom (256 + quadOf rg) 32
  dsimp only
  generalize t.findsRoom (256 + quadOf rg) 32 = y at hroom ⊢
  obtain ⟨room, u⟩ := y
  refine ite (hroom.bump _ _ (.inl (by dsimp only; omega))) (Beside.ibi ?_ _ _ (by decide))
  have hset : ∀ m f n, f.off < 0x50800 → Beside rg s (State.setF { u with taints := m } f n) := fun m f n hf =>
    Beside.setReg (t := { u with taints := m }) (hroom.other rfl) _ (.inl hf)
  refine Beside.onRgn (Beside.bump ?_ _ _ (.inl (by dsimp only; omega)))
  exact ite (Beside.setReg (hset _ _ _ (by dsimp only; omega)) _ (.inl (by dsimp only; omega))) (hset _ _ _ (by dsimp only; omega))

/-! ### The trace buffer -/

theorem lowCheck (h : Beside rg s t) (before : Region) : Beside rg s (lowCheck t rg before) :=
  ite ((h.setRf F.RWD_STATUS_LOW 1 (by decide)).ibi _ _ (by decide)) h

theorem ringWrite (h : Beside rg s t) (cycle : BitVec 48) (ws : List Entry) : Beside rg s (ringWrite t rg cycle ws) :=
  (h.setRgn (by exact FixStands.ite ((FixStands.refl _).discard cycle) ((FixStands.refl _).append ws))).lowCheck _

theorem settleMarker (h : Beside rg s t) : Beside rg s (settleMarker t rg) := (h.onRgn (by exact (FixStands.refl _).settleOne)).lowCheck _

theorem askPort (h : Beside rg s t) (q : Fin 6) : Beside rg s (askPort t rg q).1 := by
  unfold Machine.askPort
  dsimp only
  split
  · exact h
  · split
    · dsimp only
      exact h.onRgn (by exact (FixStands.refl _).waitFor q)
    · split
      · exact h.setRgn (by exact (FixStands.refl _).grant _ _)
      · dsimp only
        refine Beside.onRgn ?_ ?_
        · split
          · exact h.draw 32
          · exact h
        · exact (((FixStands.refl _).waitFor q).granted _ _ _).bump _ _ (not_fixReg (by dsimp only; omega))

theorem usePort (h : Beside rg s t) (q : Fin 6) {f : State → State} (hf : ∀ u, Beside rg s u → Beside rg s (f u)) :
    Beside rg s (usePort t rg q f) := ite ((hf _ (h.askPort q)).onRgn (by exact (FixStands.refl _).dropGrant)) (h.askPort q)

theorem writeMarkers (h : Beside rg s t) : Beside rg s (writeMarkers t rg) :=
  h.foldS [0, 1, 2] fun _ _ _ hu => ite (hu.usePort 4 fun _ hv => hv.settleMarker) hu

theorem traceGrant (h : Beside rg s t) {f : State → State} (hf : ∀ u, Beside rg s u → Beside rg s (f u)) : Beside rg s (traceGrant t rg f) :=
  ite h.writeMarkers (h.writeMarkers.usePort 4 hf)

theorem writeMerge (h : Beside rg s t) : Beside rg s (writeMerge t rg) := by
  unfold Machine.writeMerge
  dsimp only
  split
  · exact h
  · exact h.setRgn.ringWrite _ _

theorem writeMerges (h : Beside rg s t) : Beside rg s (writeMerges t rg) :=
  h.foldS _ fun _ _ _ hu => ite hu (hu.traceGrant fun _ hv => hv.writeMerge)

theorem flushMerges (h : Beside rg s t) (n : BitVec 48) : Beside rg s (flushMerges t rg n) :=
  h.setRgn.writeMerges

theorem takeSnapshot (h : Beside rg s t) (n : BitVec 48) (sh : SMap Entry) (fl : SMap (BitVec 12)) :
    Beside rg s (takeSnapshot t rg n sh fl).1 := by
  unfold Machine.takeSnapshot
  extract_lets b r hd seq i sn r1 _ r2 r3 r4 r5 r6
  split
  · exact h.setRgn ((FixStands.refl _).bump _ _ (not_fixReg (by decide)))
  · have hi : i < 64 := Nat.mod_lt _ (by decide)
    have h1 : FixStands (t.rgn rg) r1 := ((FixStands.refl _).setF _ _ (not_fixReg (by decide))).setF _ _ (not_fixReg (by decide))
    have h2 : FixStands (t.rgn rg) r2 := h1.of_regs rfl
    have h3 : FixStands (t.rgn rg) r3 :=
      (h2.setReg _ (not_fixReg (.inr (by unfold R.RWD_MARK; omega)))).setReg _ (not_fixReg (.inr (by unfold R.RWD_MARK_1; omega)))
    have h4 : FixStands (t.rgn rg) r4 :=
      (h3.setF _ _ (not_fixReg (.inr (by dsimp only; omega)))).setF _ _ (not_fixReg (.inr (by dsimp only; omega)))
    have h5 : FixStands (t.rgn rg) r5 :=
      ((h4.setF _ _ (not_fixReg (.inr (by dsimp only; omega)))).setF _ _ (not_fixReg (.inr (by dsimp only; omega)))).setF _ _ (not_fixReg (by decide))
    have h6 : FixStands (t.rgn rg) r6 := h5.foldl _ fun _ x _ hu => hu.shadowSlot _ _
    exact (h.setRgn h6).lowCheck _

/-! ### The replay's reads -/

theorem backRead (h : Beside rg s t) (src : Nat) (ring : Bool) (a : Nat) (e : Ecc) : Beside rg s (backRead t rg src ring a e).1 := by
  have hq := quadOf_lt rg
  have hread : ∀ place e, Beside rg s (t.onRgn rg (fun r => r.afterRead place e)) := fun _ _ => h.onRgn
  unfold Machine.backRead
  dsimp only
  generalize (t.rgn rg).checked (if ring then ringKey a else dmemKey a) e = e
  cases e with
  | clean => exact h
  | single => exact ((hread _ _).bumpR F.DMEM_ERR_CE 1 (by decide)).noteFault _ (by decide) hq
  | uncorrectable =>
    dsimp only
    exact (((hread _ _).bumpR F.DMEM_ERR_UE 1 (by decide)).noteFault _ (by decide) hq).onRgn (by exact (FixStands.refl _).setReg _ (not_fixReg (by decide)))

theorem ringError (h : Beside rg s t) (w : Nat) (cycle : BitVec 48) (e : Ecc) : Beside rg s (ringError t rg w cycle e) := by
  unfold Machine.ringError
  split
  · exact ((h.backRead 4 true w _).taintAt cycle _).setRf F.RWD_STATUS_RESTORE_TAINT 1 (by decide)
  · exact h.backRead 4 true w _

theorem readRecord (h : Beside rg s t) (x : Rec) : Beside rg s (readRecord t rg x) :=
  h.foldS _ fun _ _ _ hu => ite (hu.ringError _ _ _) hu

theorem replayUndos (h : Beside rg s t) (p : Nat) : Beside rg s (replayUndos t rg p) :=
  ite h ((h.foldS _ fun _ x _ hu => hu.readRecord x).onRgn (by exact FixStands.redoing _ _ _))

theorem meetDamaged (h : Beside rg s t) : Beside rg s (meetDamaged t rg) :=
  h.foldS _ fun _ x _ hu => (hu.readRecord x).onRgn

theorem onCl (h : Beside rg s t) (c : Cl) (g : Cluster → Cluster) : Beside rg s (t.onCl rg c g) :=
  h.onRgn (g := fun r => r.setCl c (g (t.cl rg c)))

theorem replayInjects (h : Beside rg s t) : Beside rg s (replayInjects t rg) :=
  ite h (h.meetDamaged.foldS _ fun _ x _ hu => (hu.readRecord x).onCl _ _)

/-! ### Slips, the readback, the patrol -/

theorem countSlip (h : Beside rg s t) (len : Nat) : Beside rg s (countSlip t rg len) := by
  have hq := quadOf_lt rg
  have hslip := h.bumpR F.FIX_SLIPS_SLIPS 1 (by decide)
  exact (ite (hslip.setRf F.FIX_SLIP_MAX_MAX len (by decide)) hslip).bump _ _ (.inl (by dsimp only; omega))

theorem openLatches (h : Beside rg s t) (r : Region) : Beside rg s (openLatches t r).2 := by
  unfold Machine.openLatches
  suffices ∀ (l : List (Nat × Cell)) (x : Region × State), Beside rg s x.2 → Beside rg s (l.foldl (fun (x : Region × State) e =>
      if e.2.clk then (x.1.setCell (BitVec.ofNat 10 e.1) { e.2 with q := (x.2.draw 16).1 }, (x.2.draw 16).2) else x) x).2 from
    this r.cells (r, t) h
  intro l
  induction l with
  | nil => exact fun _ hx => hx
  | cons e l ih =>
    intro x hx
    rw [List.foldl_cons]
    refine ih _ ?_
    split
    · exact hx.draw 16
    · exact hx

theorem capture (h : Beside rg s t) (rh : Rg) : Beside rg s (capture t rh) := by
  unfold Machine.capture
  split
  · exact h
  · next kind target _ =>
    refine ite ?_ h
    have hopen : Beside rg s (if kind = 1 then Machine.openLatches t (t.rgn rh) else (t.rgn rh, t)).2 := by
      split
      · exact h.openLatches _
      · exact h
    generalize (if kind = 1 then Machine.openLatches t (t.rgn rh) else (t.rgn rh, t)) = x at hopen ⊢
    obtain ⟨r, u⟩ := x
    have hsram : ∀ m, Beside rg s { u with sram := m } := fun _ => hopen.other rfl
    exact (((hsram _).setReg (a := F.RTC_RB_STATUS_WAITING_FIX.off) _ (by decide)).setReg (a := R.RTC_RB_CYCLE_LO) _ (by decide)).setReg
      (a := R.RTC_RB_CYCLE_HI) _ (by decide)

theorem patrolWord (h : Beside rg s t) (c : Cl) (b : Bp) (i : Nat) : Beside rg s (patrolWord t rg c b i) := by
  have hq := quadOf_lt rg
  unfold Machine.patrolWord
  dsimp only
  split
  · exact h
  · exact (h.setRgn.bumpR (F.CLU_ERR_ECC_CE c.toNat) 1 (.inr (by dsimp only; omega))).noteFault _ (by decide) hq
  · exact ((h.bumpR (F.CLU_ERR_ECC_UE c.toNat) 1 (.inr (by dsimp only; omega))).onRgn
      (by exact (FixStands.refl _).setReg _ (not_fixReg (.inr (by unfold R.CLU_UE_LAST; omega))))).noteFault _ (by decide) hq

theorem patrol (h : Beside rg s t) : Beside rg s (patrol t rg) :=
  h.foldS _ fun _ c _ hu => ite hu ((hu.foldS _ fun _ _ _ hv => hv.patrolWord c _ _).setRf _ _ (.inr (by dsimp only; omega)))

end Beside

end Sys2Proof.Machine
end

section
/-! PROOFS. The fix itself (R42, R46): the cycle count rises, and the region is in FIXING with its next boundary. -/

namespace Sys2Proof.Machine

/-- Other regions, the jobs and their table are as they were. -/
structure Apart (rg : Rg) (s t : State) : Prop where
  others : ∀ rh, rh ≠ rg → t.rgn rh = s.rgn rh
  jobs : t.jobs = s.jobs
  table : ∀ a, 0x50800 ≤ a → a < 0x51000 → t.reg a = s.reg a

theorem Apart.trans {rg : Rg} {s t u : State} (h : Apart rg s t) (h' : Apart rg t u) : Apart rg s u :=
  ⟨fun rh hr => (h'.others rh hr).trans (h.others rh hr), h'.jobs.trans h.jobs, fun a ha hlt => (h'.table a ha hlt).trans (h.table a ha hlt)⟩

theorem Beside.apart {rg : Rg} {s t : State} (h : Beside rg s t) : Apart rg s t := ⟨h.others, h.jobs, h.table⟩

theorem Apart.onRgn (s : State) (rg : Rg) (g : Region → Region) : Apart rg s (s.onRgn rg g) :=
  ⟨fun _ hr => State.rgn_onRgn_other _ _ hr, rfl, fun _ _ _ => rfl⟩

theorem Apart.boundary {rg : Rg} {s t : State} (h : Apart rg s t) (j : Job) (n : BitVec 48) : t.boundary j n = s.boundary j n := by
  have hj := j.isLt
  have hjob : t.job j = s.job j := by
    unfold State.job
    rw [h.jobs]
  unfold State.boundary State.get48
  rw [hjob, h.table _ (by unfold R.MER_T0_LO; omega) (by unfold R.MER_T0_LO; omega),
    h.table _ (by unfold R.MER_T0_HI; omega) (by unfold R.MER_T0_HI; omega)]

theorem FixStands.f {r r' : Region} (h : FixStands r r') {x : Fld} (hx : FixReg x.off) : r'.f x = r.f x := congrArg x.of (h.reg _ hx)

theorem FixStands.get48 {r r' : Region} (h : FixStands r r') {lo hi : Nat} (hlo : FixReg lo) (hhi : FixReg hi) :
    r'.get48 lo hi = r.get48 lo hi := by
  unfold Region.get48
  rw [h.reg _ hlo, h.reg _ hhi]

theorem FixStands.cycle {r r' : Region} (h : FixStands r r') : r'.cycle = r.cycle := h.get48 (by unfold FixReg; decide) (by unfold FixReg; decide)

theorem FixStands.executing {r r' : Region} (h : FixStands r r') : r'.executing = r.executing := by
  unfold Region.executing
  rw [h.cycle]

theorem Region.get48_set48 (r : Region) {lo hi : Nat} (v : BitVec 48) (h : lo ≠ hi) : (r.set48 lo hi v).get48 lo hi = v := by
  unfold Region.get48 Region.set48
  rw [Region.reg_setReg_same, Region.reg_setReg_other _ _ h, Region.reg_setReg_same]
  have hv := v.isLt
  refine BitVec.eq_of_toNat_eq ?_
  simp only [BitVec.truncate_eq_setWidth, BitVec.toNat_setWidth, BitVec.toNat_ofNat]
  omega

theorem Region.cycle_swapAndCount (r : Region) : r.swapAndCount.cycle = r.executing := by
  unfold Region.swapAndCount
  exact Region.get48_set48 _ _ (by decide)

/-- The region's log entry is made (R47). -/
theorem FixStands.logged {r r' : Region} (h : FixStands r r') (e : BitVec 128) (skip : Prop) [Decidable skip] :
    FixStands r (if skip then { r' with fix := { r'.fix with entry := e, unlogged := skip } }
      else ({ r' with fix := { r'.fix with entry := e, unlogged := skip } } : Region).writeLog e) := by
  have hset : FixStands r { r' with fix := { r'.fix with entry := e, unlogged := decide skip } } := h.of_regs rfl
  refine FixStands.ite hset ?_
  unfold Region.writeLog
  extract_lets _ i u
  have hu : FixStands r u := hset.foldl _ fun v w hw hv => hv.setReg _ (not_fixReg (.inr (by unfold R.FIX_LOG; omega)))
  exact (hu.setF F.FIX_LOG_PTR_NEWEST i (not_fixReg (by decide))).bump F.FIX_LOG_COUNT_COUNT 1 (not_fixReg (by decide))

/-- What a fix that ends cycle `n` of a region of job `j` makes of it (R42, R46). -/
structure FixDone (rg : Rg) (j : Job) (n : BitVec 48) (s t : State) : Prop where
  cycle : (t.rgn rg).cycle = n
  state : t.rf rg F.FIX_STATUS_STATE = 4
  bound : (t.rgn rg).get48 R.FIX_BOUND_LO R.FIX_BOUND_HI = s.boundary j (n + 1)
  spacing : (t.rgn rg).fix.spacing = true
  others : ∀ rh, rh ≠ rg → t.rgn rh = s.rgn rh

theorem FixDone.beside {rg : Rg} {j : Job} {n : BitVec 48} {s t u : State} (h : FixDone rg j n s t) (hu : Beside rg t u) : FixDone rg j n s u := by
  obtain ⟨hcycle, hstate, hbound, hsp, hothers⟩ := h
  exact ⟨hu.fix.cycle.trans hcycle, (hu.fix.f (by unfold FixReg; decide)).trans hstate,
    (hu.fix.get48 (by unfold FixReg; decide) (by unfold FixReg; decide)).trans hbound, hu.fix.spacing.trans hsp,
    fun rh hr => (hu.others rh hr).trans (hothers rh hr)⟩

/-- The region as its next cycle starts from it. -/
theorem fixDone_of_next {rg : Rg} {j : Job} {n : BitVec 48} {s t : State} (h : Apart rg s t) (hcycle : (t.rgn rg).cycle = n)
    {g : Region → Region} (hg : ∀ r, (g r).cycle = r.cycle ∧ (g r).f F.FIX_STATUS_STATE = 4 ∧
      (g r).get48 R.FIX_BOUND_LO R.FIX_BOUND_HI = t.boundary j (n + 1) ∧ (g r).fix.spacing = true) :
    FixDone rg j n s (t.onRgn rg g) := by
  obtain ⟨hc, hst, hb, hsp⟩ := hg (t.rgn rg)
  refine ⟨?_, ?_, ?_, ?_, fun rh hr => (State.rgn_onRgn_other _ _ hr).trans (h.others rh hr)⟩
  · rw [State.rgn_onRgn_same, hc, hcycle]
  · rw [State.rf_onRgn_same, hst]
  · rw [State.rgn_onRgn_same, hb, h.boundary]
  · rw [State.rgn_onRgn_same, hsp]

/-- The boundary of the cycle after, and FIXING, written (R42). -/
def Region.nextBound (r : Region) (next n : BitVec 48) : Region :=
  let r := r.set48 R.FIX_BOUND_LO R.FIX_BOUND_HI next
  let r := if r.recording then r.set48 R.RWD_LAST_REC_LO R.RWD_LAST_REC_HI n else r
  r.setF F.FIX_STATUS_STATE 4

theorem Region.nextBound_written (r : Region) (next n : BitVec 48) :
    (r.nextBound next n).cycle = r.cycle ∧ (r.nextBound next n).f F.FIX_STATUS_STATE = 4 ∧
      (r.nextBound next n).get48 R.FIX_BOUND_LO R.FIX_BOUND_HI = next := by
  unfold Region.nextBound
  extract_lets r1 r2
  have h2 : FixStands r1 r2 := FixStands.ite (((FixStands.refl r1).setReg _ (not_fixReg (by decide))).setReg _ (not_fixReg (by decide))) (.refl r1)
  have hother : ∀ {lo hi}, lo ≠ R.FIX_STATUS → hi ≠ R.FIX_STATUS → (r2.setF F.FIX_STATUS_STATE 4).get48 lo hi = r2.get48 lo hi := fun hlo hhi => by
    unfold Region.get48
    rw [Region.reg_setF_other _ _ _ hlo, Region.reg_setF_other _ _ _ hhi]
  refine ⟨?_, Region.f_setF_eq _ _ _ (by decide), ?_⟩
  · refine (hother (by decide) (by decide)).trans (h2.cycle.trans ?_)
    unfold Region.cycle Region.get48 r1 Region.set48
    rw [Region.reg_setReg_other _ _ (by decide), Region.reg_setReg_other _ _ (by decide), Region.reg_setReg_other _ _ (by decide),
      Region.reg_setReg_other _ _ (by decide)]
  · exact (hother (by decide) (by decide)).trans ((h2.get48 (by unfold FixReg; decide) (by unfold FixReg; decide)).trans
      (Region.get48_set48 _ _ (by decide)))

theorem doFix_fixes {s : State} {rg : Rg} {j : Job} (hjob : s.jobOf rg = some j) (slip : Bool) :
    FixDone rg j (s.rgn rg).executing s (doFix s rg slip) := by
  unfold doFix
  split
  · next hnone => rw [hjob] at hnone; exact absurd hnone (Option.some_ne_none _)
  next j' hj =>
  obtain rfl : j = j' := Option.some.inj (hjob.symm.trans hj)
  extract_lets r n due sh fl late len slipped m bound x s1 s2 s3 s4 s5 held realigned
  have h1 : Beside rg s s1 := ((Beside.refl rg s).replayUndos 8191).onRgn (by exact (FixStands.refl _).recordMargin)
  clear_value s1
  have h2 : Beside rg s s2 := h1.other rfl
  clear_value s2
  have h3 : Beside rg s s3 := Beside.ite (h2.countSlip len) h2
  clear_value s3
  have h4 : Beside rg s s4 := Beside.ite (h3.bumpR _ _ (by decide)) h3
  clear_value s4
  have h5 : Apart rg s s5 ∧ (s5.rgn rg).cycle = n := by
    have hcap : Beside rg (s4.onRgn rg Region.swapAndCount) s5 := (Beside.refl rg _).capture rg
    refine ⟨(h4.apart.trans (Apart.onRgn s4 rg _)).trans hcap.apart, ?_⟩
    rw [hcap.fix.cycle, State.rgn_onRgn_same, Region.cycle_swapAndCount]
    exact h4.fix.executing
  clear_value s5
  have h6 : Beside rg s5 (if due then takeSnapshot (writeMarkers s5 rg) rg n sh fl else (s5, false)).1 := by
    split
    · exact (Beside.refl rg s5).writeMarkers.takeSnapshot n sh fl
    · exact Beside.refl rg s5
  split
  next s6 snapped hsnap =>
  rw [hsnap] at h6
  clear hsnap
  extract_lets s7 flags e skip s8 next s9
  have h7 : Beside rg s5 s7 := (h6.onRgn (by exact (FixStands.refl _).fixInterrupt)).replayInjects
  clear_value s7
  have h8 : Beside rg s5 s8 := h7.onRgn (by exact (FixStands.refl _).logged e skip)
  clear_value s8
  have h9 : FixDone rg j n s s9 := by
    refine fixDone_of_next (h5.1.trans h8.apart) (h8.fix.cycle.trans h5.2) fun r => ?_
    obtain ⟨hcycle, hstate, hbound⟩ := r.nextBound_written next n
    exact ⟨hcycle, hstate, hbound, rfl⟩
  exact h9.beside ((Beside.refl rg s9).flushMerges n).patrol

/-- Settles O4. -/
theorem theFixAdvancesTheCycle : Obligations.TheFixAdvancesTheCycle := by
  unfold Obligations.TheFixAdvancesTheCycle
  intro rg j s hjob hstate hpass hsp htick
  have hstate' : (s.rgn rg).f F.FIX_STATUS_STATE = 3 := hstate
  have hcyc : (s.rgn rg).inCycle = true := by simp [Region.inCycle, hstate']
  have hexec := boundaryPass_noted hcyc hpass htick
  rw [if_neg (by rw [hstate']; decide), if_neg (by rw [hsp]; exact Bool.false_ne_true)] at hexec
  have hrgn : (s.onRgn rg (Region.notePassed s)).rgn rg = (s.rgn rg).notePassed s := State.rgn_onRgn_same _ _ _
  have hjob' : (s.onRgn rg (Region.notePassed s)).jobOf rg = some j := by
    unfold State.jobOf State.rbit at hjob ⊢
    rw [State.rf_onRgn_same, State.rf_onRgn_same]
    exact hjob
  obtain ⟨hcycle, hfix, hbound, hspacing, hothers⟩ := doFix_fixes hjob' false
  have hexe : ((s.onRgn rg (Region.notePassed s)).rgn rg).executing = (s.rgn rg).cycle + 1 := by rw [hrgn]; rfl
  rw [hexe] at hcycle hbound
  refine .of_eq _ hexec ⟨hcycle, hfix, hbound.trans ?_, hspacing, fun rh hr => (hothers rh hr).trans (State.rgn_onRgn_other _ _ hr)⟩
  rw [(Apart.onRgn s rg _).boundary, BitVec.add_assoc]
  rfl

end Sys2Proof.Machine
end

section
/-! PROOFS. On an empty queue a tick passes (log entry 3). -/

namespace Sys2Proof.Machine

theorem countTick_mer (s : State) : (countTick s).mer = { s.mer with tick := s.mer.tick + 1, elapsed := s.mer.elapsed + 1 } := by
  unfold countTick
  refine foldS_induct (P := fun t => t.mer = { s.mer with tick := s.mer.tick + 1, elapsed := s.mer.elapsed + 1 }) allRegions (fun t rg _ ht => ?_) rfl
  dsimp only
  split
  · exact ht
  · split
    · exact ht
    · exact ht

theorem counted_mer (s : State) : s.counted.mer.tick = (if s.mer.omitted then s.mer.tick else s.mer.tick + 1) ∧ s.counted.mer.omitted = false := by
  unfold State.counted
  cases h : s.mer.omitted
  · rw [if_neg Bool.false_ne_true, if_neg Bool.false_ne_true, countTick_mer]
    exact ⟨rfl, h⟩
  · exact ⟨rfl, rfl⟩

/-- Settles O57. -/
theorem emptyQueueIsATick : Obligations.EmptyQueueIsATick := by
  unfold Obligations.EmptyQueueIsATick
  intro s hq hup
  have hstep : step s = .next (tickRest s.counted) := by
    unfold step
    rw [hq]
    exact congrArg Host.Outcome.next (if_neg (not_not_intro hup))
  have hpending : (tickStep s).pending = [] := (Kept.refl false s).tickStep.pending.trans hq
  rw [tickStep_eq, if_neg (not_not_intro hup)] at hpending
  obtain ⟨htick, homitted⟩ := (Kept.refl true s.counted).tickRest.clock rfl
  obtain ⟨hcount, hreset⟩ := counted_mer s
  exact ⟨_, hstep, hpending, htick.trans hcount, homitted.trans hreset⟩

end Sys2Proof.Machine
end

section
/-! PROOFS. What the sweep's update leaves of a port's registers, and what a port leaves when it goes DOWN. -/

namespace Sys2Proof.Machine

/-! ### Fields that the update of the sweep leaves -/

/-- A field of the links or of the fabric that the sweep's update and the loss of a link leave: of LNK.STATUS all but STRAY, of a neighbour's
registers what its DISCOVER said, and what names the own coordinate and the lodestar. -/
def sweepKeeps (g : Fld) : Prop :=
  (0x70000 ≤ g.off ∧ g.off < 0x76000 ∧ g.off % 4096 ≠ 0x34 ∧ (g.off % 4096 = 4 → g.lo + g.w ≤ 3 ∨ 4 ≤ g.lo)) ∨
  (g.off = 0x80004 ∧ 2 ≤ g.lo ∧ g.lo + g.w ≤ 6) ∨ g.off = 0x80008 ∨ g.off = 0x80018 ∨ g.off = 0x8001c ∨
  (0x80100 ≤ g.off ∧ g.off < 0x801c0 ∧ g.off % 32 < 12 ∧ (g.off % 32 = 0 → 3 ≤ g.lo))

/-- `f` meets no field that the sweep's update leaves. -/
def SweepField (f : Fld) : Prop :=
  f.lo + f.w ≤ 32 ∧ ∀ g, sweepKeeps g → f.off ≠ g.off ∨ f.lo + f.w ≤ g.lo ∨ g.lo + g.w ≤ f.lo

/-- Addresses of which `sweepKeeps` names no field. -/
def sweepAddr (a : Nat) : Prop := a < 0x70000 ∨ a = 0x8000c ∨ 0x80040 ≤ a ∧ a < 0x80100 ∨ 0x801c0 ≤ a

theorem sweepAddr.ne {a : Nat} (h : sweepAddr a) {g : Fld} (hg : sweepKeeps g) : a ≠ g.off := by
  unfold sweepAddr at h; unfold sweepKeeps at hg; omega

theorem SweepField.of_addr {f : Fld} (h : sweepAddr f.off) (hf : f.lo + f.w ≤ 32) : SweepField f := ⟨hf, fun _ hg => .inl (h.ne hg)⟩

/-- Every field that the sweep's update leaves is the same. -/
def FieldsKept (s t : State) : Prop := ∀ g, sweepKeeps g → t.f g = s.f g

theorem FieldsKept.trans {s t u : State} (h : FieldsKept s t) (h' : FieldsKept t u) : FieldsKept s u :=
  fun g hg => (h' g hg).trans (h g hg)

theorem FieldsKept.of_regs {s t : State} (h : t.regs = s.regs) : FieldsKept s t := fun g _ => State.f_of_regs h g

theorem FieldsKept.setF {s t : State} (h : FieldsKept s t) {f : Fld} (n : Nat) (hf : SweepField f) : FieldsKept s (t.setF f n) := by
  intro g hg
  rw [State.f_setF_apart t f g hf.1 (hf.2 g hg) n]
  exact h g hg

theorem FieldsKept.setReg {s t : State} (h : FieldsKept s t) {a : Nat} (v : Word) (ha : sweepAddr a) : FieldsKept s (t.setReg a v) := by
  intro g hg
  rw [State.f_setReg_other t g v (ha.ne hg).symm]
  exact h g hg

/-- The sweep's update and the loss of a link leave the ports, what was heard on them, and these fields. -/
structure Swept (s t : State) : Prop where
  ports : t.ports = s.ports
  arrived : t.arrived = s.arrived
  heard : t.fab.heard = s.fab.heard
  fields : FieldsKept s t

namespace Swept

theorem refl (s : State) : Swept s s := ⟨rfl, rfl, rfl, fun _ _ => rfl⟩

variable {s t u : State}

theorem trans (h : Swept s t) (h' : Swept t u) : Swept s u :=
  ⟨h'.ports.trans h.ports, h'.arrived.trans h.arrived, h'.heard.trans h.heard, h.fields.trans h'.fields⟩

theorem other (h : Swept s t) (hu : (u.ports, u.arrived, u.fab.heard, u.regs) = (t.ports, t.arrived, t.fab.heard, t.regs)) : Swept s u := by
  obtain ⟨hp, ha, hh, hr⟩ := by simpa only [Prod.mk.injEq] using hu
  exact h.trans ⟨hp, ha, hh, .of_regs hr⟩

theorem setF (h : Swept s t) {f : Fld} (n : Nat) (hf : SweepField f) : Swept s (t.setF f n) :=
  ⟨h.ports, h.arrived, h.heard, h.fields.setF n hf⟩

theorem setReg (h : Swept s t) {a : Nat} (v : Word) (ha : sweepAddr a) : Swept s (t.setReg a v) :=
  ⟨h.ports, h.arrived, h.heard, h.fields.setReg v ha⟩

theorem bump (h : Swept s t) {f : Fld} (k : Nat) (hf : SweepField f) : Swept s (t.bump f k) := h.setF _ hf

theorem foldS {α : Type} {f : State → α → State} (l : List α) (hf : ∀ t, ∀ a ∈ l, Swept s t → Swept s (f t a)) (h : Swept s t) :
    Swept s (Machine.foldS l t f) := foldS_induct l hf h

theorem ibi (h : Swept s t) {cls : Nat} (loc arg : Nat) (hc : cls < 64) : Swept s (t.ibi cls loc arg) := by
  have hinfo : sweepAddr (F.HIF_IBI_INFO_LOC cls).off := by dsimp only; unfold sweepAddr; omega
  unfold State.ibi
  split
  · exact h.bump 1 (.of_addr (.inl (by decide)) (by decide))
  · have hpend := h.setReg (t.reg R.HIF_IBI_PEND ||| (1 <<< cls)) (a := R.HIF_IBI_PEND) (.inl (by decide))
    dsimp only
    split
    · have hdue : Swept s { t.setReg R.HIF_IBI_PEND (t.reg R.HIF_IBI_PEND ||| (1 <<< cls)) with
          i3c := { t.i3c with ibiDue := t.i3c.ibiDue ||| (1 <<< cls) } } := hpend.other rfl
      exact (hdue.setF loc (.of_addr hinfo (by simp))).setF arg (.of_addr hinfo (by simp))
    · exact (hpend.setF loc (.of_addr hinfo (by simp))).setF arg (.of_addr hinfo (by simp))

end Swept

theorem Swept.noteFault {s t : State} (h : Swept s t) {src l : Nat} (key : Word) (hs : src < 32) (hl : l < 8) :
    Swept s (t.noteFault src l key) := by
  have hroom : Swept s (t.findsRoom (32 * l + src) 16).2 := by
    rw [State.findsRoom_frame]
    exact h.other rfl
  have hcnt : sweepAddr (F.FLT_CNT_EVENTS src l).off := by dsimp only; unfold sweepAddr; omega
  unfold State.noteFault
  split; next room s1 hpair =>
  rw [hpair] at hroom
  have hcounted : Swept s (if room = true then s1.bump (F.FLT_CNT_EVENTS src l) 1 else s1.bump F.SEM_XSTAT_OVERRUN 1) := by
    split
    · exact hroom.bump 1 (.of_addr hcnt (by simp))
    · exact hroom.bump 1 (.of_addr (.inr (.inr (.inr (by decide)))) (by decide))
  dsimp only
  generalize (if room = true then s1.bump (F.FLT_CNT_EVENTS src l) 1 else s1.bump F.SEM_XSTAT_OVERRUN 1) = s2 at hcounted ⊢
  split
  · exact hcounted.other rfl
  · exact hcounted.setF 1 (.of_addr (.inl (by decide)) (by decide))

/-! ### The events of the sweep -/

theorem F.roleField {p : Nat} (hp : p < 6) : SweepField (F.FAB_NBR_ROLE p) := by
  refine ⟨by simp, fun g hg => ?_⟩
  unfold sweepKeeps at hg; dsimp only; omega

theorem F.strayField {p : Nat} (hp : p < 6) : SweepField (F.LNK_STATUS_STRAY p) := by
  refine ⟨by simp, fun g hg => ?_⟩
  unfold sweepKeeps at hg; dsimp only; omega

theorem F.leafField {p : Nat} (hp : p < 6) : SweepField (F.FAB_NBR_LEAF_VALID p) ∧ SweepField (F.FAB_NBR_LEAF_COORD p) := by
  constructor <;> refine ⟨by simp, fun g hg => ?_⟩ <;> unfold sweepKeeps at hg <;> dsimp only <;> omega

theorem F.sweepField : SweepField F.FAB_STATUS_SWEEP := ⟨by decide, fun g hg => by unfold sweepKeeps at hg; dsimp only; omega⟩

theorem F.conflictField : SweepField F.FAB_STATUS_CONFLICT := ⟨by decide, fun g hg => by unfold sweepKeeps at hg; dsimp only; omega⟩

theorem F.miswireField : SweepField F.FAB_STATUS_MISWIRE := ⟨by decide, fun g hg => by unfold sweepKeeps at hg; dsimp only; omega⟩

theorem F.sizeField : SweepField F.FAB_SIZE_SIZE ∧ SweepField F.FAB_SIZE_WRAP :=
  ⟨.of_addr (.inr (.inl rfl)) (by decide), .of_addr (.inr (.inl rfl)) (by decide)⟩

theorem F.ringField {d : Nat} (hd : d < 3) : SweepField (F.FAB_RING_DOWN_DOWN d) :=
  .of_addr (.inr (.inr (.inl (by dsimp only; omega)))) (by simp)

theorem Swept.setRole (s : State) {p : Nat} (hp : p < 6) : Swept s (Machine.setRole s p) := by
  unfold Machine.setRole
  extract_lets n o s1 s2
  have h1 : Swept s s1 := ((Swept.refl s).setF n (F.roleField hp)).setF _ (F.strayField hp)
  have h2 : Swept s s2 := by
    unfold s2
    split
    · exact (h1.setF 0 (F.leafField hp).1).setF 0 (F.leafField hp).2
    · exact h1
  split
  · exact (h2.setF 1 F.miswireField).ibi _ _ (by decide)
  · exact h2

theorem Swept.setRoles (s : State) : Swept s (Machine.setRoles s) :=
  Swept.foldS _ (fun _ _ hp ht => ht.trans (Swept.setRole _ (List.mem_range.mp hp))) (Swept.refl s)

theorem Swept.conflict (s : State) : Swept s (Machine.conflict s) := by
  have h1 := (Swept.refl s).setF 1 F.conflictField
  unfold Machine.conflict
  dsimp only
  split
  · exact h1
  · exact (h1.setF 2 F.sweepField).ibi _ _ (by decide)

/-- A size that is taken. -/
theorem Swept.sizePut (s : State) (v w : Nat) (k : BitVec 3) : Swept s { (s.setF F.FAB_SIZE_SIZE v).setF F.FAB_SIZE_WRAP w with
    fab := { ((s.setF F.FAB_SIZE_SIZE v).setF F.FAB_SIZE_WRAP w).fab with known := k } } :=
  (((Swept.refl s).setF v F.sizeField.1).setF w F.sizeField.2).other rfl

theorem Swept.offerSize (s : State) (d n : Nat) (wrap : Bool) : Swept s (Machine.offerSize s d n wrap) := by
  unfold Machine.offerSize
  extract_lets w put
  have hput : Swept s (put s) := Swept.sizePut s _ _ _
  clear_value put
  split
  · exact hput
  split
  · exact hput
  split
  · split
    · exact .refl s
    · exact .conflict s
  split
  · exact .refl s
  split
  · exact hput
  · exact .refl s

theorem Swept.ownOffers (s : State) : Swept s (Machine.ownOffers s) := by
  unfold Machine.ownOffers
  split
  · exact .refl s
  · refine Swept.foldS _ (fun t d _ ht => ?_) (Swept.refl s)
    beta_reduce
    extract_lets _ s1
    have h1 : Swept s s1 := by
      unfold s1
      split
      · exact ht.other rfl
      · exact ht
    split
    · exact h1.trans (.offerSize _ _ _ _)
    · exact h1

theorem Swept.setRing (s : State) {d : Nat} (hd : d < 3) : Swept s (Machine.setRing s d) := by
  unfold Machine.setRing
  split
  · exact (Swept.refl s).setF 0 (F.ringField hd)
  · extract_lets z c up heard entry es down _ s1
    have h1 : Swept s s1 := (Swept.refl s).other rfl
    exact h1.setF _ (F.ringField hd)

theorem Swept.setRings (s : State) : Swept s (Machine.setRings s) :=
  Swept.foldS _ (fun _ _ hd ht => ht.trans (Swept.setRing _ (List.mem_range.mp hd))) (Swept.refl s)

theorem Swept.unsettle (b s : State) : Swept s (Machine.unsettle b s) := by
  unfold Machine.unsettle
  split
  · exact (Swept.refl s).setF 0 F.sweepField
  · exact .refl s

theorem Swept.sweepUpdate (b s : State) : Swept s (Machine.sweepUpdate b s) :=
  (((Swept.setRoles s).trans (.ownOffers _)).trans (.setRings _)).trans (.unsettle b _)

/-! ### A reference that is lost with its port -/

theorem Swept.loseReference (s : State) : Swept s (Machine.loseReference s) := by
  have hmer : ∀ {t : State} (n : Nat), Swept s t → Swept s (t.setMer n) := fun n h => h.setF n (.of_addr (.inl (by decide)) (by decide))
  have hund : Swept s s.undated := (Swept.refl s).other rfl
  unfold Machine.loseReference
  split
  · exact hmer 0 hund
  · exact hmer 0 hund
  · extract_lets _ _ s1 s2 s3
    have h1 : Swept s s1 := hund.other rfl
    have h2 : Swept s s2 := (hmer 4 h1).setF 1 (.of_addr (.inl (by decide)) (by decide))
    have h3 : Swept s s3 := (h2.bump 1 (.of_addr (.inl (by decide)) (by decide))).noteFault 0 (by decide) (by decide)
    exact h3.ibi _ _ (by decide)
  · extract_lets _ _ s1 s2 s3
    have h1 : Swept s s1 := hund.other rfl
    have h2 : Swept s s2 := (hmer 4 h1).setF 1 (.of_addr (.inl (by decide)) (by decide))
    have h3 : Swept s s3 := (h2.bump 1 (.of_addr (.inl (by decide)) (by decide))).noteFault 0 (by decide) (by decide)
    exact h3.ibi _ _ (by decide)
  · exact .refl s

theorem Swept.switchSource (s : State) : Swept s (Machine.switchSource s) := by
  have h1 : Swept s { s.undated with mer := { s.undated.mer with onAlt := true, switching := true } } := (Swept.refl s).other rfl
  exact h1.setF 1 (.of_addr (.inl (by decide)) (by decide))

theorem Swept.missTick (s : State) (p : Nat) : Swept s (Machine.missTick s p) := by
  unfold Machine.missTick
  extract_lets _ s1 alt s2
  have h1 : Swept s s1 := (Swept.refl s).other rfl
  have h2 : Swept s s2 := h1.trans (.loseReference s1)
  split
  · exact h1
  split
  · exact h2.other rfl
  split
  · exact h2.trans (.switchSource s2)
  · exact h2

theorem Swept.listenAnew (s : State) (p : Nat) : Swept s (Machine.listenAnew s p) := by
  unfold Machine.listenAnew
  split
  · exact (Swept.refl s).other rfl
  · exact .refl s

end Sys2Proof.Machine
end

section
/-! PROOFS. A port takes another STATE, and goes DOWN: what is read then, and what stays. -/

namespace Sys2Proof.Machine

/-! ### What training had found -/

/-- The fields of port `p` that a new STATE leaves: LNK.STATUS but STATE and PRECODE, and the lanes but OK. -/
def trainingKeeps (p : Nat) (g : Fld) : Prop :=
  (g.off = R.LNK_STATUS p → 7 ≤ g.lo ∨ 3 ≤ g.lo ∧ g.lo + g.w ≤ 6) ∧
    ∀ l < 9, g.off = R.LNK_LANE p l → g.lo + g.w ≤ 16 ∨ 17 ≤ g.lo

theorem trainingKeeps.status {p : Nat} {g : Fld} (h : trainingKeeps p g) (hoff : g.off = R.LNK_STATUS p) :
    7 ≤ g.lo ∨ 3 ≤ g.lo ∧ g.lo + g.w ≤ 6 := h.1 hoff

theorem trainingKeeps.lane {p : Nat} {g : Fld} (h : trainingKeeps p g) {l : Nat} (hl : l < 9) (hoff : g.off = R.LNK_LANE p l) :
    g.lo + g.w ≤ 16 ∨ 17 ≤ g.lo := h.2 l hl hoff

theorem foldS_laneOk_f {s : State} {p : Nat} {g : Fld} (hg : ∀ l < 9, g.off = R.LNK_LANE p l → g.lo + g.w ≤ 16 ∨ 17 ≤ g.lo) :
    (foldS (List.range 9) s (fun s l => s.setF (F.LNK_LANE_OK p l) 0)).f g = s.f g := by
  refine foldS_induct (P := fun t => t.f g = s.f g) _ (fun t l hl ht => ?_) rfl
  have hl := hg l (List.mem_range.mp hl)
  rw [State.f_setF_other _ _ _ _ (by simp) ?_, ht]
  unfold R.LNK_LANE at hl; dsimp only; omega

theorem forgetTraining_ports (s : State) (p st : Nat) : (forgetTraining s p st).ports = s.ports := by
  have hclear : ∀ t : State, (foldS (List.range 9) t (fun s l => s.setF (F.LNK_LANE_OK p l) 0)).ports = t.ports := fun t =>
    foldS_induct (P := fun u => u.ports = t.ports) _ (fun u l _ h => (State.setF_ports u _ _).trans h) rfl
  unfold forgetTraining
  extract_lets s1
  have h1 : s1.ports = s.ports := by unfold s1; split <;> rfl
  split
  · exact (hclear s1).trans h1
  · exact h1

theorem forgetTraining_f (s : State) {p st : Nat} {g : Fld} (hg : trainingKeeps p g) : (forgetTraining s p st).f g = s.f g := by
  have hpre : (s.setF (F.LNK_STATUS_PRECODE p) 0).f g = s.f g := by
    refine State.f_setF_other _ _ _ _ (by simp) ?_
    have h := hg.status; unfold R.LNK_STATUS at h; dsimp only; omega
  have hclear : ∀ t : State, (foldS (List.range 9) t (fun s l => s.setF (F.LNK_LANE_OK p l) 0)).f g = t.f g := fun t =>
    foldS_laneOk_f (fun l hl => hg.lane hl)
  unfold forgetTraining
  dsimp only
  split_ifs <;> simp only [hclear, hpre]

/-- A STATE that is past training leaves all that training has found. -/
theorem forgetTraining_eq (s : State) {p st : Nat} (h0 : st ≠ 0) (h1 : st ≠ 1) (h7 : st ≠ 7) : forgetTraining s p st = s := by
  unfold forgetTraining
  rw [if_neg h1, if_neg (by omega)]

theorem forgetTraining_state (s : State) {p : Nat} (st : Nat) : (forgetTraining s p st).f (F.LNK_STATUS_STATE p) = s.f (F.LNK_STATUS_STATE p) := by
  have hpre : (s.setF (F.LNK_STATUS_PRECODE p) 0).f (F.LNK_STATUS_STATE p) = s.f (F.LNK_STATUS_STATE p) := by simp
  have hclear : ∀ t : State, (foldS (List.range 9) t (fun s l => s.setF (F.LNK_LANE_OK p l) 0)).f (F.LNK_STATUS_STATE p) =
      t.f (F.LNK_STATUS_STATE p) := fun t => foldS_laneOk_f (fun l _ h => by unfold R.LNK_LANE at h; dsimp only at h; omega)
  unfold forgetTraining
  dsimp only
  split_ifs <;> simp only [hclear, hpre]

theorem forgetTraining_detect (s : State) (p : Nat) : (forgetTraining s p 1).f (F.LNK_STATUS_PRECODE p) = 0 ∧
    ∀ l : Fin 9, (forgetTraining s p 1).f (F.LNK_LANE_OK p l.val) = 0 := by
  unfold forgetTraining
  rw [if_pos rfl, if_pos (.inr (.inl rfl))]
  constructor
  · rw [foldS_laneOk_f (fun l _ h => by unfold R.LNK_LANE at h; dsimp only at h; omega)]
    simp
  · intro l
    refine foldS_reaches (P := fun t => t.f (F.LNK_LANE_OK p l.val) = 0) (List.mem_range.mpr l.isLt) (fun t => by simp) (fun t i ht => ?_) _
    by_cases hi : i = l.val
    · rw [hi]; simp
    · rw [State.f_setF_other _ _ _ _ (by simp) (by left; dsimp only; omega), ht]

/-! ### A port takes another STATE -/

/-- A new STATE: what training had found is forgotten, between two updates that leave the fields of `sweepKeeps`. -/
theorem setLink_reaches (s : State) (p st : Nat) : ∃ x y, Swept s x ∧ y.regs = (forgetTraining (x.setF (F.LNK_STATUS_STATE p) st) p st).regs ∧
    y.ports = s.ports ∧ Swept y (setLink s p st) := by
  unfold setLink
  extract_lets b s1 s2 s3 _ s4
  have h1 : Swept s s1 := by
    unfold s1
    split
    · exact .missTick s p
    · exact .refl s
  have h2 : Swept s s2 := by
    unfold s2
    split
    · exact h1.trans (.listenAnew s1 p)
    · exact h1
  have hregs : s4.regs = s3.regs := by unfold s4; split <;> rfl
  have hports : s4.ports = s3.ports := by unfold s4; split <;> rfl
  exact ⟨s2, s4, h2, hregs, hports.trans ((forgetTraining_ports _ p st).trans h2.ports), .sweepUpdate b s4⟩

theorem setLink_ports (s : State) (p st : Nat) : (setLink s p st).ports = s.ports := by
  obtain ⟨x, y, -, -, hports, hswept⟩ := setLink_reaches s p st
  exact hswept.ports.trans hports

@[simp] theorem setLink_port (s : State) (p q st : Nat) : (setLink s p st).port q = s.port q := by
  unfold State.port; rw [setLink_ports]

theorem setLink_link (s : State) {p st : Nat} (hp : p < 6) (hst : st < 8) : (setLink s p st).link p = st := by
  obtain ⟨x, y, -, hregs, -, hswept⟩ := setLink_reaches s p st
  unfold State.link
  rw [hswept.fields _ (by unfold sweepKeeps; dsimp only; omega), State.f_of_regs hregs, forgetTraining_state, State.f_setF_eq _ _ _ (by simp)]
  exact Nat.mod_eq_of_lt hst

/-- The fields of the links that a new STATE of port `p` leaves. -/
theorem setLink_f (s : State) {p st : Nat} {g : Fld} (hg : sweepKeeps g) (hp : trainingKeeps p g) : (setLink s p st).f g = s.f g := by
  obtain ⟨x, y, hx, hregs, -, hswept⟩ := setLink_reaches s p st
  rw [hswept.fields _ hg, State.f_of_regs hregs, forgetTraining_f _ hp, State.f_setF_other _ _ _ _ (by simp) ?_, hx.fields _ hg]
  have h := hp.status; unfold R.LNK_STATUS at h; dsimp only; omega

/-- Past training, what it has found stays. -/
theorem setLink_f_trained (s : State) {p st : Nat} {g : Fld} (h0 : st ≠ 0) (h1 : st ≠ 1) (h7 : st ≠ 7) (hg : sweepKeeps g)
    (hstate : g.off ≠ R.LNK_STATUS p ∨ 3 ≤ g.lo) : (setLink s p st).f g = s.f g := by
  obtain ⟨x, y, hx, hregs, -, hswept⟩ := setLink_reaches s p st
  rw [hswept.fields _ hg, State.f_of_regs hregs, forgetTraining_eq _ h0 h1 h7, State.f_setF_other _ _ _ _ (by simp) ?_, hx.fields _ hg]
  have h := hstate; unfold R.LNK_STATUS at h; dsimp only; omega

/-- Lanes keep their OK in every STATE but DETECT. -/
theorem setLink_laneOk (s : State) {p st : Nat} (hp : p < 6) (h1 : st ≠ 1) (l : Fin 9) :
    (setLink s p st).f (F.LNK_LANE_OK p l.val) = s.f (F.LNK_LANE_OK p l.val) := by
  obtain ⟨x, y, hx, hregs, -, hswept⟩ := setLink_reaches s p st
  have hl := l.isLt
  have hkept : sweepKeeps (F.LNK_LANE_OK p l.val) := by unfold sweepKeeps; dsimp only; omega
  have hoff : (F.LNK_LANE_OK p l.val).off ≠ R.LNK_STATUS p := by unfold R.LNK_STATUS; dsimp only; omega
  rw [hswept.fields _ hkept, State.f_of_regs hregs, ← hx.fields _ hkept]
  unfold forgetTraining
  rw [if_neg h1]
  split
  · rw [State.f_setF_other _ _ _ _ (by simp) (.inl hoff.symm), State.f_setF_other _ _ _ _ (by simp) (.inl hoff.symm)]
  · rw [State.f_setF_other _ _ _ _ (by simp) (.inl hoff.symm)]

theorem setLink_detect (s : State) {p : Nat} (hp : p < 6) : (setLink s p 1).f (F.LNK_STATUS_PRECODE p) = 0 ∧
    ∀ l : Fin 9, (setLink s p 1).f (F.LNK_LANE_OK p l.val) = 0 := by
  obtain ⟨x, y, -, hregs, -, hswept⟩ := setLink_reaches s p 1
  obtain ⟨hpre, hlane⟩ := forgetTraining_detect (x.setF (F.LNK_STATUS_STATE p) 1) p
  constructor
  · rw [hswept.fields _ (by unfold sweepKeeps; dsimp only; omega), State.f_of_regs hregs, hpre]
  · intro l
    have hl := l.isLt
    rw [hswept.fields _ (by unfold sweepKeeps; dsimp only; omega), State.f_of_regs hregs, hlane l]

/-! ### A port goes DOWN -/

theorem sendBack_regs (s : State) (p : Nat) : (sendBack s p).regs = s.regs := by
  unfold sendBack
  extract_lets back
  refine foldS_induct (P := fun t => t.regs = s.regs) back (fun t x _ h => ?_) rfl
  exact h

theorem State.port_onPort (s : State) (p : Nat) (f : Port → Port) : (s.onPort p f).port p = f (s.port p) :=
  SMap.get_set_same _ _ _ _

theorem sendBack_txPkt (s : State) (p : Nat) : ((sendBack s p).port p).txPkt = [] := by
  unfold sendBack
  extract_lets back
  refine foldS_induct (P := fun t => (t.port p).txPkt = []) back (fun t x _ h => ?_) ?_
  · exact h
  · rw [State.port_onPort]

theorem freeFlits_regs (s : State) (i : Nat) (x : Packet) : (freeFlits s i x).regs = s.regs := by
  unfold freeFlits
  split <;> rfl

theorem countRefused_fields (s : State) : FieldsKept s (countRefused s .hub) :=
  (FieldsKept.of_regs rfl).setF _ (.of_addr (.inl (by decide)) (by decide))

theorem refuseHead_fields (s : State) (p : Nat) (x : Packet) (rest : List Packet) (c : Nat) :
    FieldsKept s (refuseHead s p x rest c) := by
  unfold refuseHead
  extract_lets s1 s2 s3
  have h1 : s1.regs = s.regs := freeFlits_regs _ _ _
  have h3 : s3.regs = s.regs := h1
  split
  · refine (FieldsKept.of_regs h3).setF _ ⟨by simp, fun g hg => ?_⟩
    unfold sweepKeeps at hg; dsimp only; omega
  · exact (FieldsKept.of_regs h3).trans (countRefused_fields s3)

theorem settleDue_fields (s : State) (p : Nat) : FieldsKept s (settleDue s p) := by
  unfold settleDue
  refine foldS_induct (P := FieldsKept s) _ (fun t v _ ht => ?_) (fun _ _ => rfl)
  split
  · exact ht
  · split
    · split
      · exact ht
      · exact ht.trans (refuseHead_fields t p _ _ _)
    · exact ht

/-- What stands before the new STATE of a port that goes DOWN. -/
def clearedPort (s : State) (p : Nat) : State :=
  sendBack (settleDue ((sendBack s p).onPort p (fun x => { x.clearSeq with fails := 0, out := none, sent := [] })) p) p

theorem clearedPort_fields (s : State) (p : Nat) : FieldsKept s (clearedPort s p) := by
  refine FieldsKept.trans ?_ (.of_regs (sendBack_regs _ p))
  refine FieldsKept.trans (.of_regs ?_) (settleDue_fields _ p)
  exact sendBack_regs s p

theorem goDown_eq (s : State) (p : Nat) : goDown s p = ((setLink (clearedPort s p) p 0).setF (F.LNK_STATUS_DOWN_EVT p) 1).ibi 0x08 p 0 := rfl

theorem State.ibi_fields (s : State) {cls : Nat} (loc arg : Nat) (hc : cls < 64) : FieldsKept s (s.ibi cls loc arg) :=
  ((Swept.refl s).ibi loc arg hc).fields

theorem State.ibi_ports (s : State) {cls : Nat} (loc arg : Nat) (hc : cls < 64) : (s.ibi cls loc arg).ports = s.ports :=
  ((Swept.refl s).ibi loc arg hc).ports

theorem goDown_link (s : State) {p : Nat} (hp : p < 6) : (goDown s p).link p = 0 := by
  rw [goDown_eq]
  unfold State.link
  rw [State.ibi_fields _ _ _ (by decide) _ (by unfold sweepKeeps; dsimp only; omega), State.f_setF_other _ _ _ _ (by simp) (by simp)]
  exact setLink_link _ hp (by decide)

theorem goDown_downEvt (s : State) {p : Nat} (hp : p < 6) : (goDown s p).f (F.LNK_STATUS_DOWN_EVT p) = 1 := by
  rw [goDown_eq, State.ibi_fields _ _ _ (by decide) _ (by unfold sweepKeeps; dsimp only; omega), State.f_setF_eq _ _ _ (by simp)]
  rfl

theorem goDown_ports (s : State) (p : Nat) : (goDown s p).ports = (clearedPort s p).ports := by
  rw [goDown_eq, State.ibi_ports _ _ _ (by decide), State.setF_ports, setLink_ports]

theorem clearedPort_txPkt (s : State) (p : Nat) : ((clearedPort s p).port p).txPkt = [] := sendBack_txPkt _ p

theorem goDown_txPkt (s : State) (p : Nat) : ((goDown s p).port p).txPkt = [] := by
  have h := clearedPort_txPkt s p
  unfold State.port at h ⊢
  rw [goDown_ports, h]

/-- The fields of the links that a port going DOWN leaves. -/
theorem goDown_f (s : State) {p : Nat} {g : Fld} (hg : sweepKeeps g) (hp' : trainingKeeps p g)
    (hevt : g.off ≠ R.LNK_STATUS p) : (goDown s p).f g = s.f g := by
  rw [goDown_eq, State.ibi_fields _ _ _ (by decide) _ hg, State.f_setF_other _ _ _ _ (by simp) (.inl hevt.symm), setLink_f _ hg hp',
    clearedPort_fields s p _ hg]

theorem goDown_laneOk (s : State) {p : Nat} (hp : p < 6) (l : Fin 9) :
    (goDown s p).f (F.LNK_LANE_OK p l.val) = s.f (F.LNK_LANE_OK p l.val) := by
  have hl := l.isLt
  have hkept : sweepKeeps (F.LNK_LANE_OK p l.val) := by unfold sweepKeeps; dsimp only; omega
  rw [goDown_eq, State.ibi_fields _ _ _ (by decide) _ hkept, State.f_setF_other _ _ _ _ (by simp) (.inl (by dsimp only; omega)),
    setLink_laneOk _ hp (by decide), clearedPort_fields s p _ hkept]

end Sys2Proof.Machine
end

section
/-! PROOFS. Lane faults and the switch of lanes (R296), and the slot tables of a port (R295). -/

namespace Sys2Proof.Machine

/-! ### A fault is declared on a lane -/

theorem lane_toNat (l : Fin 9) : (BitVec.ofNat 4 l.val).toNat = l.val := by
  rw [BitVec.toNat_ofNat]; exact Nat.mod_eq_of_lt (by omega)

/-- A lane of a port that is UP, and OK. -/
structure LaneUsed (s : State) (q l : Nat) : Prop where
  up : s.link q = 5
  lane : l < 9
  ok : s.f (F.LNK_LANE_OK q l) = 1

variable {s : State} {q : Nat} {lane : BitVec 4}

theorem declareFault_used (h : LaneUsed s q lane.toNat) : ¬ (s.link q ≠ 5 ∨ 9 ≤ lane.toNat ∨ ¬ s.bit (F.LNK_LANE_OK q lane.toNat)) := by
  have hlane := h.lane
  simp only [h.up, State.bit, h.ok]; simp; omega

theorem declareFault_standby (h : LaneUsed s q lane.toNat) (hrole : 8 ≤ s.f (F.LNK_LANE_ROLE q lane.toNat)) :
    declareFault s q lane = (s.setF (F.LNK_LANE_OK q lane.toNat) 0).setF (F.LNK_LANE_ROLE q lane.toNat) 15 := by
  unfold declareFault
  exact (if_neg (declareFault_used h)).trans (if_pos hrole)

theorem declareFault_narrow (h : LaneUsed s q lane.toNat) (hrole : s.f (F.LNK_LANE_ROLE q lane.toNat) < 8)
    (hnarrow : s.f (F.LNK_STATUS_RX_NARROW q) = 1) :
    declareFault s q lane = goDown (((s.setF (F.LNK_LANE_OK q lane.toNat) 0).setF (F.LNK_LANE_ROLE q lane.toNat) 15).noteFault 15 4
      (laneFaultKey q lane.toNat)) q := by
  unfold declareFault
  exact (if_neg (declareFault_used h)).trans ((if_neg (by omega)).trans (if_pos (by unfold State.bit; rw [hnarrow]; rfl)))

/-- The operation that the receiver of a full port proposes for a lane; its codeword is free. -/
def proposal (s : State) (q : Nat) (lane : BitVec 4) : LaneOp :=
  { op := if (List.range 9).any (fun i => s.f (F.LNK_LANE_ROLE q i) = 8) then 1 else 2, lane := lane, at_ := (s.draw 48).1, rx := true }

theorem declareFault_full (h : LaneUsed s q lane.toNat) (hrole : s.f (F.LNK_LANE_ROLE q lane.toNat) < 8)
    (hnarrow : s.f (F.LNK_STATUS_RX_NARROW q) = 0) :
    declareFault s q lane = if (s.port q).laneBusy then
        if lane ∈ (s.port q).faulty ∨ (s.port q).propose.any (fun o => o.lane = lane) ∨ (s.port q).agreed.any (fun o => o.rx && o.lane == lane)
        then s else s.onPort q (fun x => { x with faulty := x.faulty ++ [lane] })
      else (s.draw 48).2.onPort q (fun x => { x with propose := some (proposal s q lane) }) := by
  unfold declareFault
  exact (if_neg (declareFault_used h)).trans ((if_neg (by omega)).trans (if_neg (by unfold State.bit; rw [hnarrow]; decide)))

/-! ### An operation takes effect -/

theorem State.regs_onPort (s : State) (q : Nat) (f : Port → Port) : (s.onPort q f).regs = s.regs := rfl

theorem spareLane_ports (s : State) (q l : Nat) : (spareLane s q l).ports = s.ports := by
  unfold spareLane
  extract_lets role s1
  rw [State.setF_ports, State.setF_ports]
  refine foldS_induct (P := fun t => t.ports = s.ports) _ (fun t i _ ht => ?_) rfl
  split
  · rw [State.setF_ports, ht]
  · exact ht

theorem narrowLanes_ports (s : State) (q l : Nat) : (narrowLanes s q l).ports = s.ports := by
  unfold narrowLanes
  extract_lets s1 good
  refine foldS_induct (P := fun t => t.ports = s.ports) _ (fun t i _ ht => ?_) (State.setF_ports s _ _)
  rw [State.setF_ports, ht]

/-- SPARE: the standby takes the faulty lane's logical lane. -/
theorem spareLane_standby {l i : Nat} (hi : i < 9) (hl : s.f (F.LNK_LANE_ROLE q l) ≠ 8) (hstandby : s.f (F.LNK_LANE_ROLE q i) = 8) :
    (spareLane s q l).f (F.LNK_LANE_ROLE q i) = s.f (F.LNK_LANE_ROLE q l) := by
  have hne : i ≠ l := fun h => hl (h ▸ hstandby)
  have hrole : s.f (F.LNK_LANE_ROLE q l) % 2 ^ 4 = s.f (F.LNK_LANE_ROLE q l) := Nat.mod_eq_of_lt (State.f_lt s _)
  unfold spareLane
  extract_lets role s1
  have hset : ∀ t : State, t.f (F.LNK_LANE_ROLE q i) = 8 ∨ t.f (F.LNK_LANE_ROLE q i) = role →
      (if t.f (F.LNK_LANE_ROLE q i) = 8 then t.setF (F.LNK_LANE_ROLE q i) role else t).f (F.LNK_LANE_ROLE q i) = role := by
    intro t ht
    split
    · rw [State.f_setF_eq _ _ _ (by simp)]; exact hrole
    · next h8 => exact ht.resolve_left h8
  have hother : ∀ (t : State) (j : Nat), j ≠ i →
      (if t.f (F.LNK_LANE_ROLE q j) = 8 then t.setF (F.LNK_LANE_ROLE q j) role else t).f (F.LNK_LANE_ROLE q i) = t.f (F.LNK_LANE_ROLE q i) := by
    intro t j hj
    split
    · exact State.f_setF_other _ _ _ _ (by simp) (.inl (by dsimp only; omega))
    · rfl
  have h1 : s1.f (F.LNK_LANE_ROLE q i) = role := by
    refine foldl_reaches_from (Q := fun t : State => t.f (F.LNK_LANE_ROLE q i) = 8 ∨ t.f (F.LNK_LANE_ROLE q i) = role)
      (P := fun t : State => t.f (F.LNK_LANE_ROLE q i) = role) (List.mem_range.mpr hi) (fun t j ht => ?_) hset (fun t j ht => ?_) (.inl hstandby)
    · by_cases hj : j = i
      · subst hj; exact .inr (hset t ht)
      · rw [hother t j hj]; exact ht
    · by_cases hj : j = i
      · subst hj; exact hset t (.inr ht)
      · rw [hother t j hj]; exact ht
  rw [State.f_setF_other _ _ _ _ (by simp) (.inl (by dsimp only; omega)), State.f_setF_other _ _ _ _ (by simp) (.inl (by dsimp only; omega)), h1]

theorem spareLane_lane (s : State) (q l : Nat) :
    (spareLane s q l).f (F.LNK_LANE_ROLE q l) = 15 ∧ (spareLane s q l).f (F.LNK_LANE_OK q l) = 0 := by
  unfold spareLane
  constructor <;> simp

theorem narrowLanes_lane (s : State) (q l : Nat) : (narrowLanes s q l).f (F.LNK_LANE_OK q l) = 0 := by
  unfold narrowLanes
  extract_lets s1 good
  refine foldS_induct (P := fun t => t.f (F.LNK_LANE_OK q l) = 0) _ (fun t i _ ht => ?_) ?_
  · rw [State.f_setF_other _ _ _ _ (by simp) (by dsimp only; omega), ht]
  · unfold s1; simp

/-- What the receiver's operation has done when it is reported. -/
def switched (s : State) (q : Nat) (o : LaneOp) : State :=
  if o.op = 1 then ((spareLane s q o.lane.toNat).setF (F.LNK_STATUS_SPARE_EVT q) 1).bump (F.LNK_LANE_EVENTS_SPARINGS q) 1
  else (((narrowLanes s q o.lane.toNat).setF (F.LNK_STATUS_RX_NARROW q) 1).setF (F.LNK_STATUS_NARROW_EVT q) 1).bump (F.LNK_LANE_EVENTS_NARROWINGS q) 1

theorem switchRx_reports (s : State) (q : Nat) (o : LaneOp) : Swept (switched s q o) (switchRx s q o) := by
  have hl : switchRx s q o = ((switched s q o).noteFault 15 4 (laneFaultKey q o.lane.toNat)).ibi 0x08 q ((switched s q o).link q) := rfl
  rw [hl]
  exact ((Swept.refl _).noteFault _ (by decide) (by decide)).ibi _ _ (by decide)

theorem switched_ports (s : State) (q : Nat) (o : LaneOp) : (switched s q o).ports = s.ports := by
  unfold switched
  split
  · rw [State.bump_ports, State.setF_ports, spareLane_ports]
  · rw [State.bump_ports, State.setF_ports, State.setF_ports, narrowLanes_ports]

theorem switchRx_ports (s : State) (q : Nat) (o : LaneOp) : (switchRx s q o).ports = s.ports :=
  (switchRx_reports s q o).ports.trans (switched_ports s q o)

theorem switchOne_rx {o : LaneOp} (h : o.rx = true) :
    switchOne s q o = switchRx (s.onPort q (fun x => { x with agreed := x.agreed.erase o })) q o := by
  unfold switchOne
  exact if_pos h

theorem switchRx_port {o : LaneOp} (s : State) (q : Nat) : (switchRx s q o).port q = s.port q := by
  unfold State.port; rw [switchRx_ports]

/-- LANE_SWITCH at the receiver, where no lane waits to be declared faulty. -/
theorem exec_laneSwitch_rx {p : PortNo} {o : LaneOp} (hdue : (s.port p.val).dueOp = some o) (hfaulty : (s.port p.val).faulty = [])
    (hrx : o.rx = true) :
    exec (.laneSwitch p) s = .next (switchRx (s.onPort p.val (fun x => { x with agreed := x.agreed.erase o })) p.val o) := by
  have hport : ((switchOne s p.val o).port p.val).faulty = [] := by
    rw [switchOne_rx hrx, switchRx_port, State.port_onPort, hfaulty]
  change execLaneSwitch p s = _
  unfold execLaneSwitch
  dsimp only
  rw [hdue]
  dsimp only
  rw [if_pos hrx, hport, switchOne_rx hrx]

theorem dueIn_singleton {x : Port} {o : LaneOp} (h : x.agreed = [o]) (rx : Bool) (c : BitVec 48) :
    x.dueIn rx c = if o.rx = rx ∧ o.at_ ≤ c then some o else none := by
  unfold Port.dueIn
  rw [h, List.filter_singleton]
  by_cases hd : o.rx = rx ∧ o.at_ ≤ c
  · have hb : (o.rx == rx && decide (o.at_ ≤ c)) = true := by simpa using hd
    rw [if_pos hd, hb]; rfl
  · have hb : (o.rx == rx && decide (o.at_ ≤ c)) = false := by simpa using hd
    rw [if_neg hd, hb]; rfl

/-! ### The slot tables -/

/-- The registers of both tables after SWAP. -/
theorem swapRegs_reg (s : State) {a b c d : Nat} (hab : a ≠ b) (hac : a ≠ c) (had : a ≠ d) (hbc : b ≠ c) (hbd : b ≠ d) (hcd : c ≠ d) :
    let t := ((((s.setReg a (s.reg b)).setReg b (s.reg a)).setReg c (((s.setReg a (s.reg b)).setReg b (s.reg a)).reg d)).setReg d
      (((s.setReg a (s.reg b)).setReg b (s.reg a)).reg c))
    t.reg a = s.reg b ∧ t.reg b = s.reg a ∧ t.reg c = s.reg d ∧ t.reg d = s.reg c := by
  have := hab.symm; have := hac.symm; have := had.symm; have := hbc.symm; have := hbd.symm; have := hcd.symm
  simp [*]

theorem State.reg_onPort (s : State) (q : Nat) (f : Port → Port) (a : Nat) : (s.onPort q f).reg a = s.reg a := rfl

theorem exec_slotCopy (p : PortNo) (s : State) : exec (.slotCopy p) s = .next
    (((s.setReg (R.LNK_PLAN_SH_LO p.val) (s.reg (R.LNK_PLAN_LO p.val))).setReg (R.LNK_PLAN_SH_HI p.val) (s.reg (R.LNK_PLAN_HI p.val))).onPort
      p.val (fun x => { x with shadow := x.map })) := rfl

/-- Settles O40. -/
theorem lanesAndSlotTables : Obligations.LanesAndSlotTables := by
  unfold Obligations.LanesAndSlotTables
  refine ⟨?standby, ?narrow, ?full, ?waits, ?spare, ?narrowing, ?transmitter, ?early, ?swap, ?refused, ?copy⟩
  case standby =>
    rintro p l s ⟨hlink, hok, hrole⟩
    have hl : LaneUsed s p.val l.val := ⟨hlink, l.isLt, hok⟩
    rw [← lane_toNat l] at hl hrole
    refine .of_eq _ (congrArg Host.Outcome.next (declareFault_standby hl hrole)) ?_
    rw [lane_toNat]
    refine ⟨by simp, by simp, ?_⟩
    unfold State.link at hlink ⊢
    rw [State.f_setF_other _ _ _ _ (by simp) (.inl (by dsimp only; omega)), State.f_setF_other _ _ _ _ (by simp) (.inl (by dsimp only; omega)), hlink]
  case narrow =>
    rintro p l s ⟨hlink, hok, hrole, hnarrow⟩
    have hl : LaneUsed s p.val l.val := ⟨hlink, l.isLt, hok⟩
    rw [← lane_toNat l] at hl hrole
    refine .of_eq _ (congrArg Host.Outcome.next (declareFault_narrow hl hrole hnarrow)) ⟨goDown_link _ p.isLt, ?_⟩
    have hkept : sweepKeeps (F.LNK_LANE_OK p.val l.val) := by unfold sweepKeeps; dsimp only; omega
    rw [goDown_laneOk _ p.isLt, ((Swept.refl _).noteFault _ (by decide) (by decide)).fields _ hkept, lane_toNat]
    simp
  case full =>
    rintro p l s ⟨hlink, hok, hrole, hnarrow⟩ hidle
    have hl : LaneUsed s p.val l.val := ⟨hlink, l.isLt, hok⟩
    rw [← lane_toNat l] at hl hrole
    refine .of_eq _ (congrArg Host.Outcome.next ((declareFault_full hl hrole hnarrow).trans (if_neg (by rw [hidle]; decide)))) ?_
    rw [State.port_onPort]
    exact ⟨_, rfl, rfl, rfl, rfl⟩
  case waits =>
    rintro p l s ⟨hlink, hok, hrole, hnarrow⟩ ⟨hbusy, hnew⟩ ⟨hagreed, hpropose⟩
    have hl : LaneUsed s p.val l.val := ⟨hlink, l.isLt, hok⟩
    rw [← lane_toNat l] at hl hrole
    have hfree : ¬ (BitVec.ofNat 4 l.val ∈ (s.port p.val).faulty ∨ (s.port p.val).propose.any (fun o => o.lane = BitVec.ofNat 4 l.val) ∨
        (s.port p.val).agreed.any (fun o => o.rx && o.lane == BitVec.ofNat 4 l.val)) := by
      rintro (h | h | h)
      · exact hnew h
      · cases ho : (s.port p.val).propose with
        | none => rw [ho] at h; exact Bool.noConfusion h
        | some o => rw [ho] at h; exact hpropose o ho (of_decide_eq_true h)
      · obtain ⟨o, ho, h⟩ := List.any_eq_true.mp h
        obtain ⟨hrx, hlane⟩ := Bool.and_eq_true_iff.mp h
        exact hagreed o ho hrx (beq_iff_eq.mp hlane)
    refine .of_eq _ (congrArg Host.Outcome.next (((declareFault_full hl hrole hnarrow).trans (if_pos hbusy)).trans (if_neg hfree))) ⟨?_, rfl⟩
    rw [State.port_onPort]
  case spare =>
    rintro p o s ⟨hdue, hfaulty, hrx, hop, hlane, hrole⟩
    refine .of_eq _ (exec_laneSwitch_rx hdue hfaulty hrx) ⟨?_, ?_⟩
    · rw [switchRx_port, State.port_onPort]
    · obtain ⟨-, -, -, hfields⟩ := switchRx_reports (s.onPort p.val (fun x => { x with agreed := x.agreed.erase o })) p.val o
      have hp := p.isLt
      generalize hs1 : s.onPort p.val (fun x => { x with agreed := x.agreed.erase o }) = s1 at hfields ⊢
      have hf : ∀ g, s1.f g = s.f g := fun g => by rw [← hs1]; rfl
      obtain ⟨h15, h0⟩ := spareLane_lane s1 p.val o.lane.toNat
      have hsw : switched s1 p.val o =
        ((spareLane s1 p.val o.lane.toNat).setF (F.LNK_STATUS_SPARE_EVT p.val) 1).bump (F.LNK_LANE_EVENTS_SPARINGS p.val) 1 := if_pos hop
      have hlanes : ∀ g : Fld, 0x70080 + 4096 * p.val ≤ g.off → (switched s1 p.val o).f g = (spareLane s1 p.val o.lane.toNat).f g := by
        intro g hg
        rw [hsw, State.f_bump_other _ _ _ _ (by simp) (.inl (by dsimp only; omega)), State.f_setF_other _ _ _ _ (by simp) (.inl (by dsimp only; omega))]
      refine ⟨?_, ?_, ?_, fun l hl => ?_⟩
      · rw [hfields _ (by unfold sweepKeeps; dsimp only; omega), hsw, State.f_bump_other _ _ _ _ (by simp) (.inl (by dsimp only; omega)),
          State.f_setF_eq _ _ _ (by simp)]
        rfl
      · rw [hfields _ (by unfold sweepKeeps; dsimp only; omega), hlanes _ (by dsimp only; omega), h15]
      · rw [hfields _ (by unfold sweepKeeps; dsimp only; omega), hlanes _ (by dsimp only; omega), h0]
      · have := l.isLt
        rw [hfields _ (by unfold sweepKeeps; dsimp only; omega), hlanes _ (by dsimp only; omega),
          spareLane_standby l.isLt (by rw [hf]; exact hrole) (by rw [hf]; exact hl), hf]
  case narrowing =>
    rintro p o s ⟨hdue, hfaulty, hrx, hop, hlane⟩
    refine .of_eq _ (exec_laneSwitch_rx hdue hfaulty hrx) ⟨?_, ?_⟩
    · rw [switchRx_port, State.port_onPort]
    · obtain ⟨-, -, -, hfields⟩ := switchRx_reports (s.onPort p.val (fun x => { x with agreed := x.agreed.erase o })) p.val o
      have hp := p.isLt
      generalize s.onPort p.val (fun x => { x with agreed := x.agreed.erase o }) = s1 at hfields ⊢
      have hsw : switched s1 p.val o = (((narrowLanes s1 p.val o.lane.toNat).setF (F.LNK_STATUS_RX_NARROW p.val) 1).setF
        (F.LNK_STATUS_NARROW_EVT p.val) 1).bump (F.LNK_LANE_EVENTS_NARROWINGS p.val) 1 := if_neg (by rw [hop]; decide)
      refine ⟨?_, ?_, ?_⟩
      · rw [hfields _ (by unfold sweepKeeps; dsimp only; omega), hsw, State.f_bump_other _ _ _ _ (by simp) (.inl (by dsimp only; omega))]
        simp
      · rw [hfields _ (by unfold sweepKeeps; dsimp only; omega), hsw, State.f_bump_other _ _ _ _ (by simp) (.inl (by dsimp only; omega))]
        simp
      · rw [hfields _ (by unfold sweepKeeps; dsimp only; omega), hsw, State.f_bump_other _ _ _ _ (by simp) (.inl (by dsimp only; omega)),
          State.f_setF_other _ _ _ _ (by simp) (.inl (by dsimp only; omega)), State.f_setF_other _ _ _ _ (by simp) (.inl (by dsimp only; omega)),
          narrowLanes_lane]
  case transmitter =>
    rintro p o s ⟨hagreed, hrx, hop, hat⟩
    have hdue : (s.port p.val).dueOp = some o := by
      unfold Port.dueOp
      rw [dueIn_singleton hagreed, if_pos ⟨hrx, hat⟩]
    have hexec : exec (.laneSwitch p) s = .next (switchTx (s.onPort p.val (fun x => { x with agreed := x.agreed.erase o })) p.val o.op) := by
      change execLaneSwitch p s = _
      unfold execLaneSwitch switchOne
      dsimp only
      rw [hdue]
      dsimp only
      rw [if_neg (by rw [hrx]; decide), if_neg (by rw [hrx]; decide)]
    refine .of_eq _ hexec ?_
    unfold switchTx
    dsimp only
    rw [if_neg (by rw [hop]; decide)]
    refine ⟨?_, by simp⟩
    rw [State.port, State.setF_ports, ← State.port, State.port_onPort]
    change ((s.onPort p.val (fun x => { x with agreed := x.agreed.erase o })).port p.val).agreed = []
    rw [State.port_onPort, hagreed, List.erase_cons_head]
  case early =>
    rintro p o s ⟨hagreed, hat, hfaulty⟩
    have hdue : (s.port p.val).dueOp = none := by
      unfold Port.dueOp
      rw [dueIn_singleton hagreed, dueIn_singleton hagreed]
      cases hrx : o.rx
      · rw [hrx] at hat
        rw [if_neg (by rintro ⟨-, h⟩; exact absurd hat (BitVec.not_lt.mpr h))]
        exact if_neg (by simp)
      · rw [hrx] at hat
        rw [if_neg (by simp)]
        exact if_neg (by rintro ⟨-, h⟩; exact absurd hat (BitVec.not_lt.mpr h))
    refine .of_eq s ?_ rfl
    change execLaneSwitch p s = _
    unfold execLaneSwitch
    dsimp only
    rw [hdue]
    dsimp only
    rw [hfaulty]
  case swap =>
    intro p s hfree
    refine .of_eq _ (congrArg Host.Outcome.next (if_neg (by rw [hfree]; decide))) ?_
    obtain ⟨hlo, hslo, hhi, hshi⟩ := swapRegs_reg s (a := R.LNK_PLAN_LO p.val) (b := R.LNK_PLAN_SH_LO p.val) (c := R.LNK_PLAN_HI p.val)
      (d := R.LNK_PLAN_SH_HI p.val) (by simp) (by simp) (by simp) (by simp) (by simp) (by simp)
    unfold setClipped
    have hports : ∀ (t : State) (f : Fld) (n : Nat), (t.setF f n).port p.val = t.port p.val := fun t f n => by
      unfold State.port; rw [State.setF_ports]
    refine ⟨?_, ?_, ?_, ?_, ?_, ?_⟩
    · rw [hports, State.port_onPort]; simp only [State.port, State.setReg_ports]
    · rw [hports, State.port_onPort]; simp only [State.port, State.setReg_ports]
    · rw [State.reg_setF_other _ _ _ (by simp), State.reg_onPort]; exact hlo
    · rw [State.reg_setF_other _ _ _ (by simp), State.reg_onPort]; exact hslo
    · rw [State.reg_setF_other _ _ _ (by simp), State.reg_onPort]; exact hhi
    · rw [State.reg_setF_other _ _ _ (by simp), State.reg_onPort]; exact hshi
  case refused =>
    intro p s hbusy
    exact .of_eq _ (congrArg Host.Outcome.next (if_pos hbusy)) rfl
  case copy =>
    intro p s
    refine .of_eq _ (exec_slotCopy p s) ⟨?_, ?_, ?_, ?_⟩
    · rw [State.port_onPort]; simp only [State.port, State.setReg_ports]
    · rw [State.port_onPort]; simp only [State.port, State.setReg_ports]
    · rw [State.reg_onPort]; simp
    · rw [State.reg_onPort]; simp

end Sys2Proof.Machine
end

section
/-! PROOFS. Link training (R278, R279, R289, R298): what each event of a port's training leaves behind. -/

namespace Sys2Proof.Machine

/-! ### The lanes that training has found -/

theorem setTxLanes_f (s : State) (p : Nat) (okTx : BitVec 9) {g : Fld} (hg : g.off ≠ R.LNK_STATUS p ∨ g.lo + g.w ≤ 4 ∨ 5 ≤ g.lo) :
    (setTxLanes s p okTx).f g = s.f g := by
  unfold setTxLanes
  refine State.f_setF_other _ _ _ _ (by simp) ?_
  unfold R.LNK_STATUS at hg; dsimp only; omega

theorem setTxLanes_port (s : State) (p : Nat) (okTx : BitVec 9) : ∃ roles, (setTxLanes s p okTx).port p = { s.port p with txRole := roles } := by
  unfold setTxLanes
  extract_lets roles
  refine ⟨roles, ?_⟩
  rw [State.port, State.setF_ports, ← State.port, State.port_onPort]

theorem setTxLanes_narrow (s : State) (p : Nat) (okTx : BitVec 9) :
    (setTxLanes s p okTx).f (F.LNK_STATUS_TX_NARROW p) = if (bitsOf 9 okTx.toNat).length < 8 then 1 else 0 := by
  unfold setTxLanes
  rw [State.f_setF_eq _ _ _ (by simp)]
  split <;> rfl

theorem laneRole_lt (ok l : Nat) : laneRole ok l < 16 := by
  have hlen : (bitsOf 9 ok).length ≤ 9 := (List.length_filter_le _ _).trans (by simp)
  have hidx := List.idxOf_le_length (a := l) (l := bitsOf 9 ok)
  unfold laneRole
  dsimp only
  split_ifs <;> omega

/-- What training has found of one receive lane is written. -/
def setLane (words : List (Option LaneWord)) (p : Nat) (s : State) (l : Nat) : State :=
  ((s.setF (F.LNK_LANE_OK p l) (okWord words l).isSome.toNat).setF (F.LNK_LANE_ROLE p l)
    (match okWord words l with | some w => laneRole (okLanes words) w.lane.toNat | none => 15)).setF (F.LNK_LANE_INVERTED p l)
    (match okWord words l with | some w => w.inverted.toNat | none => 0)

theorem setLanes_eq (s : State) (p : Nat) (words : List (Option LaneWord)) :
    setLanes s p words = foldS (List.range 9) s (setLane words p) := rfl

/-- The receive lane `l` stands as training has found it. -/
structure LaneFound (words : List (Option LaneWord)) (p l : Nat) (t : State) : Prop where
  ok : t.f (F.LNK_LANE_OK p l) = (okWord words l).isSome.toNat
  found : ∀ w, okWord words l = some w →
    t.f (F.LNK_LANE_INVERTED p l) = w.inverted.toNat ∧ t.f (F.LNK_LANE_ROLE p l) = laneRole (okLanes words) w.lane.toNat

theorem LaneFound.of_f {words : List (Option LaneWord)} {p l : Nat} {s t : State} (h : LaneFound words p l s)
    (hf : ∀ g : Fld, g.off = R.LNK_LANE p l → t.f g = s.f g) : LaneFound words p l t :=
  ⟨(hf _ rfl).trans h.ok, fun w hw => ⟨(hf _ rfl).trans (h.found w hw).1, (hf _ rfl).trans (h.found w hw).2⟩⟩

theorem Bool.toNat_mod_two (b : Bool) : b.toNat % 2 ^ 1 = b.toNat := Nat.mod_eq_of_lt (Bool.toNat_lt b)

theorem setLane_same (words : List (Option LaneWord)) (p l : Nat) (s : State) : LaneFound words p l (setLane words p s l) := by
  unfold setLane
  constructor
  · rw [State.f_setF_other _ _ _ _ (by simp) (by simp), State.f_setF_other _ _ _ _ (by simp) (by simp), State.f_setF_eq _ _ _ (by simp)]
    exact Bool.toNat_mod_two _
  · intro w hw
    rw [hw]
    constructor
    · rw [State.f_setF_eq _ _ _ (by simp)]
      exact Bool.toNat_mod_two _
    · rw [State.f_setF_other _ _ _ _ (by simp) (by simp), State.f_setF_eq _ _ _ (by simp)]
      exact Nat.mod_eq_of_lt (laneRole_lt _ _)

theorem setLane_f (words : List (Option LaneWord)) {p l : Nat} (s : State) {g : Fld} (hg : g.off ≠ R.LNK_LANE p l) :
    (setLane words p s l).f g = s.f g := by
  unfold setLane
  rw [State.f_setF_other _ _ _ _ (by simp) (.inl hg.symm), State.f_setF_other _ _ _ _ (by simp) (.inl hg.symm),
    State.f_setF_other _ _ _ _ (by simp) (.inl hg.symm)]

theorem setLanes_found (s : State) (p : Nat) (words : List (Option LaneWord)) (l : Fin 9) : LaneFound words p l.val (setLanes s p words) := by
  rw [setLanes_eq]
  refine foldS_reaches (f := setLane words p) (List.mem_range.mpr l.isLt) (fun t => setLane_same words p l.val t) (fun t i ht => ?_) s
  by_cases hi : i = l.val
  · rw [hi]; exact setLane_same words p l.val t
  · exact ht.of_f (fun g hg => setLane_f words t (by rw [hg]; unfold R.LNK_LANE; omega))

theorem setLanes_f (s : State) (p : Nat) (words : List (Option LaneWord)) {g : Fld} (hg : ∀ l < 9, g.off ≠ R.LNK_LANE p l) :
    (setLanes s p words).f g = s.f g := by
  rw [setLanes_eq]
  exact foldS_induct (P := fun t => t.f g = s.f g) (f := setLane words p) _
    (fun t l hl ht => (setLane_f words t (hg l (List.mem_range.mp hl))).trans ht) rfl

theorem setLanes_ports (s : State) (p : Nat) (words : List (Option LaneWord)) : (setLanes s p words).ports = s.ports := by
  rw [setLanes_eq]
  refine foldS_induct (P := fun t => t.ports = s.ports) (f := setLane words p) _ (fun t l _ ht => ?_) rfl
  unfold setLane
  rw [State.setF_ports, State.setF_ports, State.setF_ports, ht]

theorem notePeer_port (s : State) (p : Nat) (words : List (Option LaneWord)) :
    (notePeer s p words).port p = { s.port p with peer := majorityPeer words } := by
  unfold notePeer
  dsimp only
  split
  · rw [State.port, State.setReg_ports, State.setReg_ports, ← State.port, State.port_onPort]
  · rw [State.port_onPort]

theorem notePeer_f (s : State) (p : Nat) (words : List (Option LaneWord)) {g : Fld} (h1 : g.off ≠ R.FAB_NBR_1 p) (h2 : g.off ≠ R.FAB_NBR_2 p) :
    (notePeer s p words).f g = s.f g := by
  unfold notePeer
  dsimp only
  split
  · rw [State.f_setReg_other _ _ _ h2, State.f_setReg_other _ _ _ h1]; rfl
  · rfl

/-! ### The events of training -/

variable {p : PortNo} {words : List (Option LaneWord)} {okTx : BitVec 9} {s : State}

theorem precodeAgreed_eq {s t : State} {q : Nat} (h : t.f (F.LNK_CTRL_PRECODE_ALLOW q) = s.f (F.LNK_CTRL_PRECODE_ALLOW q))
    (words : List (Option LaneWord)) : precodeAgreed t q words = precodeAgreed s q words := by
  unfold precodeAgreed State.bit; rw [h]

/-- TRAIN_END (R278): the state before the port takes STATE LOCK. -/
theorem exec_trainEnd (hlink : s.link p.val = 2) (hrx : 4 ≤ okCount words) (htx : 4 ≤ (bitsOf 9 okTx.toNat).length) :
    ∃ t, exec (.trainEnd p words okTx) s = .next (setLink t p.val 3) ∧ (t.port p.val).cw = 0 ∧
      t.f (F.LNK_STATUS_PRECODE p.val) = (precodeAgreed s p.val words).toNat := by
  refine ⟨_, congrArg Host.Outcome.next (if_neg (by omega)), ?_, ?_⟩
  · rw [State.port_onPort]
  · have hp := p.isLt
    unfold State.f
    rw [State.reg_onPort, ← State.f]
    refine foldS_induct (P := fun t => t.f (F.LNK_STATUS_PRECODE p.val) = (precodeAgreed s p.val words).toNat) _ (fun t l hl ht => ?_) ?_
    · have := List.mem_range.mp hl
      rw [State.f_setF_other _ _ _ _ (by simp) (.inl (by dsimp only; omega)), ht]
    · rw [State.f_setF_eq _ _ _ (by simp), precodeAgreed_eq (setTxLanes_f _ _ _ (.inl (by unfold R.LNK_STATUS; dsimp only; omega)))]
      exact Bool.toNat_mod_two _

/-- What training has found at the end of LOCK, before the receiver's codeword is known. -/
def lockedLanes (s : State) (q : Nat) (words : List (Option LaneWord)) (okTx : BitVec 9) (precode : Bool) : State :=
  let s := notePeer (setLanes s q words) q words
  let s := setTxLanes (s.setF (F.LNK_STATUS_RX_NARROW q) (if okCount words < 8 then 1 else 0)) q okTx
  s.setF (F.LNK_STATUS_PRECODE q) (precode && s.bit (F.LNK_CTRL_PRECODE_ALLOW q)).toNat

theorem lockedLanes_peer (s : State) (q : Nat) (precode : Bool) :
    ((lockedLanes s q words okTx precode).port q).peer = majorityPeer words := by
  unfold lockedLanes
  extract_lets s1 s2
  obtain ⟨roles, hroles⟩ := setTxLanes_port (s1.setF (F.LNK_STATUS_RX_NARROW q) (if okCount words < 8 then 1 else 0)) q okTx
  rw [State.port, State.setF_ports, ← State.port, hroles, State.port, State.setF_ports, ← State.port, notePeer_port]

/-- What the lanes and the port's CTRL register hold is the training's. -/
theorem lockedLanes_f (s : State) (q : Nat) (precode : Bool) {g : Fld} (hoff : 0x70000 ≤ g.off ∧ g.off < 0x76000)
    (hg : g.off ≠ R.LNK_STATUS q) : (lockedLanes s q words okTx precode).f g = (setLanes s q words).f g := by
  unfold lockedLanes
  extract_lets s1 s2
  rw [State.f_setF_other _ _ _ _ (by simp) (.inl hg.symm)]
  unfold s2
  rw [setTxLanes_f _ _ _ (.inl hg), State.f_setF_other _ _ _ _ (by simp) (.inl hg.symm)]
  exact notePeer_f _ _ _ (by unfold R.FAB_NBR_1; omega) (by unfold R.FAB_NBR_2; omega)

theorem lockedLanes_status (s : State) (p : PortNo) (precode : Bool) :
    (lockedLanes s p.val words okTx precode).f (F.LNK_STATUS_PRECODE p.val) = (precode && s.bit (F.LNK_CTRL_PRECODE_ALLOW p.val)).toNat ∧
    (lockedLanes s p.val words okTx precode).f (F.LNK_STATUS_RX_NARROW p.val) = (if okCount words < 8 then 1 else 0) ∧
    (lockedLanes s p.val words okTx precode).f (F.LNK_STATUS_TX_NARROW p.val) = (if (bitsOf 9 okTx.toNat).length < 8 then 1 else 0) := by
  have hp := p.isLt
  unfold lockedLanes
  extract_lets s1 s2
  have hallow : s2.bit (F.LNK_CTRL_PRECODE_ALLOW p.val) = s.bit (F.LNK_CTRL_PRECODE_ALLOW p.val) := by
    unfold State.bit s2
    rw [setTxLanes_f _ _ _ (.inl (by unfold R.LNK_STATUS; dsimp only; omega)), State.f_setF_other _ _ _ _ (by simp) (.inl (by dsimp only; omega)),
      notePeer_f _ _ _ (by unfold R.FAB_NBR_1; dsimp only; omega) (by unfold R.FAB_NBR_2; dsimp only; omega),
      setLanes_f _ _ _ (fun l _ => by unfold R.LNK_LANE; dsimp only; omega)]
  refine ⟨?_, ?_, ?_⟩
  · rw [State.f_setF_eq _ _ _ (by simp), hallow]
    exact Bool.toNat_mod_two _
  · rw [State.f_setF_other _ _ _ _ (by simp) (by simp)]
    unfold s2
    rw [setTxLanes_f _ _ _ (by simp), State.f_setF_eq _ _ _ (by simp)]
    split <;> rfl
  · rw [State.f_setF_other _ _ _ _ (by simp) (by simp)]
    exact setTxLanes_narrow _ _ _

/-- The receiver knows which codeword it receives, and CALIB begins. -/
def calibBegun (s : State) (q : Nat) : State :=
  ((s.draw 61).2.onPort q (fun x =>
    { x with rxCw := bitsAt (s.draw 61).1 0 48, rxLen := (bitsAt (s.draw 61).1 48 13 : BitVec 13).toNat % 5140 })).onPort q (fun x =>
    { x with ctrlOut := 0, ctrlIn := 0, peerSeq := none, sentTs := [], samples := [] })

theorem calibBegun_peer (s : State) (q : Nat) : ((calibBegun s q).port q).peer = (s.port q).peer := by
  unfold calibBegun
  rw [State.port_onPort, State.port_onPort]
  rfl

theorem calibBegun_f (s : State) (q : Nat) (g : Fld) : (calibBegun s q).f g = s.f g := by
  unfold calibBegun State.f
  rw [State.reg_onPort, State.reg_onPort]
  rfl

/-- LOCK_END (R278): the state before the port takes STATE CALIB. -/
theorem exec_lockEnd {precode : Bool} (hlink : s.link p.val = 3) (hrx : 4 ≤ okCount words) (htx : 4 ≤ (bitsOf 9 okTx.toNat).length) :
    exec (.lockEnd p words okTx precode) s = .next (setLink (calibBegun (lockedLanes s p.val words okTx precode) p.val) p.val 4) := by
  change execLockEnd p words okTx precode s = _
  unfold execLockEnd
  extract_lets q nr nt s1 s2 s3
  exact congrArg Host.Outcome.next ((if_neg (not_not.mpr hlink)).trans (if_neg (by omega)))

/-- CALIB_END (R278, R289): the state before the port takes STATE UP. -/
theorem exec_calibEnd {r : Bool} {e : BitVec 12} {d : BitVec 24} (hlink : s.link p.val = 4) (hout : 256 ≤ (s.port p.val).ctrlOut.toNat)
    (hin : 256 ≤ (s.port p.val).ctrlIn.toNat) (hpeer : (s.port p.val).peerSeq = some (r, e)) (hdelay : s.f (F.LNK_DELAY_ONEWAY p.val) = d.toNat) :
    exec (.calibEnd p r e d) s = .next (
      let resumed := (s.port p.val).keep && r
      let t := s.onPort p.val (fun x =>
        let x := if resumed then x.resumeAt e else x.clearSeq
        { x with fails := 0, keep := false, pos := 0, sinceCtrl := 0 })
      setLink (if resumed then t.bump (F.LNK_REPLAY_REPLAYS p.val) 1 else t) p.val 5) :=
  congrArg Host.Outcome.next (if_neg (by rw [hpeer, hdelay]; simp; omega))

end Sys2Proof.Machine
end

section
/-! PROOFS. Training begins again, and the statement on link training (R278, R289, R298). -/

namespace Sys2Proof.Machine

theorem beginTraining_eq {s : State} {q : Nat} (hen : s.f (F.LNK_CTRL_EN q) = 1) (hlink : s.link q ≠ 7) :
    beginTraining s q = (setLink (s.onPort q (fun x => x.leave (s.link q))) q 1).bump (F.LNK_LANE_EVENTS_TRAINS q) 1 := by
  unfold beginTraining
  exact if_neg (by unfold State.bit; rw [hen]; simpa using hlink)

theorem beginTraining_link {s : State} {q : Nat} (hq : q < 6) (hen : s.f (F.LNK_CTRL_EN q) = 1) (hlink : s.link q ≠ 7) :
    (beginTraining s q).link q = 1 := by
  rw [beginTraining_eq hen hlink, State.link, State.f_bump_other _ _ _ _ (by simp) (.inl (by dsimp only; omega))]
  exact setLink_link _ hq (by decide)

theorem failTraining_again {s : State} {q : Nat} (h : (s.port q).fails.toNat < 2) :
    failTraining s q = (setLink (s.onPort q (fun x => { x with fails := BitVec.ofNat 2 ((s.port q).fails.toNat + 1) })) q 1).bump
      (F.LNK_LANE_EVENTS_TRAINS q) 1 := by
  unfold failTraining
  exact if_neg (by omega)

theorem State.bump_port (s : State) (f : Fld) (k q : Nat) : (s.bump f k).port q = s.port q := by
  unfold State.port; rw [State.bump_ports]

/-- LOCK_END fixes the lanes and the widths, and CALIB begins (R278, R279). -/
theorem lockEnd_completes {p : PortNo} {words : List (Option LaneWord)} {okTx : BitVec 9} {precode : Bool} {s : State} (hlink : s.link p.val = 3)
    (hrx : 4 ≤ okCount words) (htx : 4 ≤ (bitsOf 9 okTx.toNat).length) :
    Completes (.lockEnd p words okTx precode) s (fun t => t.link p.val = 4 ∧ (t.port p.val).peer = majorityPeer words ∧
      t.f (F.LNK_STATUS_PRECODE p.val) = (precode && s.bit (F.LNK_CTRL_PRECODE_ALLOW p.val)).toNat ∧
      t.f (F.LNK_STATUS_RX_NARROW p.val) = (if okCount words < 8 then 1 else 0) ∧
      t.f (F.LNK_STATUS_TX_NARROW p.val) = (if (bitsOf 9 okTx.toNat).length < 8 then 1 else 0) ∧
      (∀ l : Fin 9, t.f (F.LNK_LANE_OK p.val l.val) = (okWord words l.val).isSome.toNat) ∧
      (∀ l : Fin 9, ∀ w, okWord words l.val = some w → t.f (F.LNK_LANE_INVERTED p.val l.val) = w.inverted.toNat ∧ t.f (F.LNK_LANE_ROLE p.val l.val) = laneRole (okLanes words) w.lane.toNat)) := by
  have hp := p.isLt
  have hf : ∀ g, sweepKeeps g → g.off ≠ R.LNK_STATUS p.val ∨ 3 ≤ g.lo →
      (setLink (calibBegun (lockedLanes s p.val words okTx precode) p.val) p.val 4).f g = (lockedLanes s p.val words okTx precode).f g :=
    fun g hg hstate =>
    (setLink_f_trained _ (by decide) (by decide) (by decide) hg hstate).trans (calibBegun_f _ _ g)
  have hlane : ∀ l : Fin 9, LaneFound words p.val l.val (setLink (calibBegun (lockedLanes s p.val words okTx precode) p.val) p.val 4) := by
    intro l
    have hl := l.isLt
    refine (setLanes_found s p.val words l).of_f (fun g hg => ?_)
    unfold R.LNK_LANE at hg
    rw [hf g (by unfold sweepKeeps; omega) (.inl (by unfold R.LNK_STATUS; omega)), lockedLanes_f _ _ _ (by omega) (by unfold R.LNK_STATUS; omega)]
  obtain ⟨hpre, hrxn, htxn⟩ := lockedLanes_status (words := words) (okTx := okTx) s p precode
  refine .of_eq _ (exec_lockEnd hlink hrx htx) ⟨setLink_link _ hp (by decide), ?_, ?_, ?_, ?_, fun l => (hlane l).ok, fun l => (hlane l).found⟩
  · rw [setLink_port, calibBegun_peer, lockedLanes_peer]
  · rw [hf _ (by unfold sweepKeeps; dsimp only; omega) (.inr (by simp)), hpre]
  · rw [hf _ (by unfold sweepKeeps; dsimp only; omega) (.inr (by simp)), hrxn]
  · rw [hf _ (by unfold sweepKeeps; dsimp only; omega) (.inr (by simp)), htxn]

/-- Settles O38. -/
theorem linkTraining : Obligations.LinkTraining := by
  unfold Obligations.LinkTraining
  refine ⟨?detect, ?train, ?lock, ?anew, ?resumed, ?again, ?down, ?retrain, ?peer, ?off, ?on⟩
  case detect =>
    intro p s hlink
    exact .of_eq _ (congrArg Host.Outcome.next (if_pos hlink)) (setLink_link s p.isLt (by decide))
  case train =>
    rintro p words okTx s ⟨hlink, hrx, htx⟩
    have hp := p.isLt
    obtain ⟨t, hexec, hcw, hpre⟩ := exec_trainEnd hlink hrx htx
    refine .of_eq _ hexec ⟨setLink_link t hp (by decide), ?_, ?_⟩
    · rw [setLink_port, hcw]
    · rw [setLink_f_trained t (by decide) (by decide) (by decide) (by unfold sweepKeeps; dsimp only; omega) (.inr (by simp)), hpre]
      rfl
  case lock =>
    rintro p words okTx precode s ⟨hlink, hrx, htx⟩
    exact lockEnd_completes hlink hrx htx
  case anew =>
    rintro p r e d s ⟨hlink, hout, hin⟩ ⟨hpeer, hkeep, hdelay⟩
    refine .of_eq _ (exec_calibEnd hlink hout hin hpeer hdelay) ?_
    rw [hkeep]
    refine ⟨setLink_link _ p.isLt (by decide), ?_, ?_, ?_⟩
    · rw [setLink_port, if_neg Bool.false_ne_true, State.port_onPort]; rfl
    · rw [setLink_port, if_neg Bool.false_ne_true, State.port_onPort]; rfl
    · rw [setLink_port, if_neg Bool.false_ne_true, State.port_onPort]; rfl
  case resumed =>
    rintro p e d s ⟨hlink, hout, hin⟩ ⟨hpeer, hkeep, hdelay⟩
    have hp := p.isLt
    refine .of_eq _ (exec_calibEnd hlink hout hin hpeer hdelay) ?_
    have hresumed : ((s.port p.val).keep && true) = true := by rw [hkeep]; rfl
    rw [hresumed]
    refine ⟨setLink_link _ p.isLt (by decide), ?_, ?_, ?_, ?_, ?_⟩
    · rw [setLink_port, if_pos rfl, State.bump_port, State.port_onPort]; rfl
    · rw [setLink_port, if_pos rfl, State.bump_port, State.port_onPort]; rfl
    · rw [setLink_port, if_pos rfl, State.bump_port, State.port_onPort]; rfl
    · rw [setLink_port, if_pos rfl, State.bump_port, State.port_onPort]; rfl
    · rw [setLink_f_trained _ (by decide) (by decide) (by decide) (by unfold sweepKeeps; dsimp only; omega)
        (.inl (by unfold R.LNK_STATUS; dsimp only; omega)), if_pos rfl, State.f_bump_eq _ _ _ (by simp)]
      rfl
  case again =>
    rintro p s ⟨hlink, hfails⟩
    have hp := p.isLt
    refine .of_eq _ (congrArg Host.Outcome.next ((if_pos hlink).trans (failTraining_again hfails))) ⟨?_, ?_⟩
    · rw [State.link, State.f_bump_other _ _ _ _ (by simp) (.inl (by dsimp only; omega))]
      exact setLink_link _ hp (by decide)
    · rw [State.bump_port, setLink_port, State.port_onPort]
      exact BitVec.eq_of_toNat_eq (by simp)
  case down =>
    rintro p s ⟨hlink, hfails⟩
    have hgo : failTraining s p.val = goDown s p.val := by
      unfold failTraining
      exact if_pos (by rw [hfails]; decide)
    exact .of_eq _ (congrArg Host.Outcome.next ((if_pos hlink).trans hgo)) ⟨goDown_link s p.isLt, goDown_downEvt s p.isLt⟩
  case retrain =>
    rintro p s ⟨hen, hlink⟩
    have hp := p.isLt
    refine .of_eq (beginTraining (s.onPort p.val (fun x => { x with fails := 0 })) p.val) rfl ?_
    have hen' : (s.onPort p.val (fun x => { x with fails := 0 })).f (F.LNK_CTRL_EN p.val) = 1 := hen
    refine ⟨⟨?_, fun l => ?_⟩, beginTraining_link hp hen' hlink, ?_⟩
    · rw [beginTraining_eq hen' hlink, State.f_bump_other _ _ _ _ (by simp) (.inl (by dsimp only; omega))]
      exact (setLink_detect _ hp).1
    · have hl := l.isLt
      rw [beginTraining_eq hen' hlink, State.f_bump_other _ _ _ _ (by simp) (.inl (by dsimp only; omega))]
      exact (setLink_detect _ hp).2 l
    · rw [beginTraining_eq hen' hlink, State.f_bump_eq _ _ _ (by simp), setLink_f _ (by unfold sweepKeeps; dsimp only; omega)
        ⟨fun h => by unfold R.LNK_STATUS at h; dsimp only at h; omega, fun l _ h => by unfold R.LNK_LANE at h; dsimp only at h; omega⟩]
      rfl
  case peer =>
    rintro p s ⟨hen, hlink, h7⟩
    exact .of_eq _ (congrArg Host.Outcome.next (if_neg (by omega))) (beginTraining_link p.isLt hen h7)
  case off =>
    intro p s hlink
    have hp := p.isLt
    have hlink' : (s.setF (F.LNK_CTRL_EN p.val) 0).link p.val ≠ 0 := by
      rw [State.link, State.f_setF_other _ _ _ _ (by simp) (.inl (by dsimp only; omega))]
      exact hlink
    refine .of_eq (goDown (s.setF (F.LNK_CTRL_EN p.val) 0) p.val) (congrArg Host.Outcome.next (if_neg ?_)) ⟨goDown_link _ hp, ?_, goDown_txPkt _ _⟩
    · rintro (h | h)
      · exact Bool.noConfusion h
      · exact hlink' h
    · rw [goDown_f _ (by unfold sweepKeeps; dsimp only; omega)
        ⟨fun h => by unfold R.LNK_STATUS at h; dsimp only at h; omega, fun l _ h => by unfold R.LNK_LANE at h; dsimp only at h; omega⟩
        (by unfold R.LNK_STATUS; dsimp only; omega)]
      simp
  case on =>
    intro p s
    exact .of_eq _ (congrArg Host.Outcome.next (if_pos (.inl rfl))) rfl

end Sys2Proof.Machine
end

section
/-! PROOFS. What a lane operation leaves of a port and of the package, and the reception of a frame (R276, R285, R296). -/

namespace Sys2Proof.Machine

/-! ### What lane operations and the stream leave -/

/-- A port but for its lanes, its place in the streams and the lane operations agreed. -/
def Port.core (x : Port) : Port :=
  { x with agreed := [], txRole := [], rest := 0, restLen := 0, cw := 0, words := [], rxCw := 0, rxLen := 0, sent := [], level := [] }

/-- The fields that the lane operations of port `q` leave. -/
def laneKeeps (q : Nat) (g : Fld) : Prop :=
  0x62000 ≤ g.off ∧ g.off < 0x90000 ∧ (g.off = R.LNK_STATUS q → g.lo + g.w ≤ 4) ∧ g.off ≠ R.LNK_LANE_EVENTS q ∧
    ∀ l < 16, g.off ≠ R.LNK_LANE q l

/-- What a lane operation of port `q` leaves. -/
structure LanesOnly (q : Nat) (s t : State) : Prop where
  fields : ∀ g, laneKeeps q g → t.f g = s.f g
  core : (t.port q).core = (s.port q).core
  rest : (t.mer, t.net, t.sched, t.refusing) = (s.mer, s.net, s.sched, s.refusing)

namespace LanesOnly

variable {q : Nat} {s t u : State}

theorem refl (q : Nat) (s : State) : LanesOnly q s s := ⟨fun _ _ => rfl, rfl, rfl⟩

theorem trans (h : LanesOnly q s t) (h' : LanesOnly q t u) : LanesOnly q s u :=
  ⟨fun g hg => (h'.fields g hg).trans (h.fields g hg), h'.core.trans h.core, h'.rest.trans h.rest⟩

theorem other (h : LanesOnly q s t) (hu : (u.ports, u.regs, u.mer, u.net, u.sched, u.refusing) =
    (t.ports, t.regs, t.mer, t.net, t.sched, t.refusing)) : LanesOnly q s u := by
  obtain ⟨hp, hr, hrest⟩ := by simpa only [Prod.mk.injEq] using hu
  refine h.trans ⟨fun g _ => State.f_of_regs hr g, by unfold State.port; rw [hp], ?_⟩
  simpa only [Prod.mk.injEq] using hrest

theorem setF (h : LanesOnly q s t) {f : Fld} (n : Nat) (hf : f.lo + f.w ≤ 32)
    (hg : ∀ g, laneKeeps q g → f.off ≠ g.off ∨ f.lo + f.w ≤ g.lo ∨ g.lo + g.w ≤ f.lo) : LanesOnly q s (t.setF f n) :=
  ⟨fun g hk => (State.f_setF_other _ _ _ _ hf (hg g hk)).trans (h.fields g hk), by unfold State.port; rw [State.setF_ports]; exact h.core, h.rest⟩

theorem setLane (h : LanesOnly q s t) {f : Fld} {l : Nat} (n : Nat) (hl : l < 16) (hoff : f.off = R.LNK_LANE q l) (hf : f.lo + f.w ≤ 32) :
    LanesOnly q s (t.setF f n) :=
  h.setF n hf (fun _ hk => .inl (fun he => hk.2.2.2.2 l hl (he.symm.trans hoff)))

theorem setStatus (h : LanesOnly q s t) {f : Fld} (n : Nat) (hoff : f.off = R.LNK_STATUS q) (hlo : 4 ≤ f.lo) (hf : f.lo + f.w ≤ 32) :
    LanesOnly q s (t.setF f n) := by
  refine h.setF n hf (fun g hk => ?_)
  obtain ⟨-, -, hstatus, -⟩ := hk
  by_cases he : f.off = g.off
  · have := hstatus (he.symm.trans hoff); omega
  · exact .inl he

theorem bumpEvents (h : LanesOnly q s t) {f : Fld} (k : Nat) (hoff : f.off = R.LNK_LANE_EVENTS q) (hf : f.lo + f.w ≤ 32) :
    LanesOnly q s (t.bump f k) := by
  refine h.setF _ hf (fun g hk => ?_)
  obtain ⟨-, -, -, hevents, -⟩ := hk
  exact .inl (fun he => hevents (he.symm.trans hoff))

theorem setLow (h : LanesOnly q s t) {f : Fld} (n : Nat) (hoff : f.off < 0x62000 ∨ 0x90000 ≤ f.off) (hf : f.lo + f.w ≤ 32) :
    LanesOnly q s (t.setF f n) := by
  refine h.setF n hf (fun g hk => ?_)
  obtain ⟨hlo, hhi, -⟩ := hk
  omega

theorem onPort (h : LanesOnly q s t) (f : Port → Port) (hf : ∀ x, (f x).core = x.core) : LanesOnly q s (t.onPort q f) :=
  ⟨h.fields, by rw [State.port_onPort, hf]; exact h.core, h.rest⟩

theorem ibi (h : LanesOnly q s t) {cls : Nat} (loc arg : Nat) (hc : cls < 64) : LanesOnly q s (t.ibi cls loc arg) := by
  unfold State.ibi
  split
  · exact h.setLow _ (.inl (by decide)) (by decide)
  · extract_lets s1 _ s2
    have h1 : LanesOnly q s s1 := by
      refine h.trans ⟨fun g hk => State.f_setReg_other _ _ _ ?_, rfl, rfl⟩
      obtain ⟨hlo, -⟩ := hk
      unfold R.HIF_IBI_PEND; omega
    have h2 : LanesOnly q s s2 := by
      unfold s2
      split
      · exact h1.other rfl
      · exact h1
    exact (h2.setLow _ (.inl (by dsimp only; omega)) (by simp)).setLow _ (.inl (by dsimp only; omega)) (by simp)

theorem noteFault (h : LanesOnly q s t) {src l : Nat} (key : Word) (hs : src < 32) (hl : l < 8) : LanesOnly q s (t.noteFault src l key) := by
  have hroom : LanesOnly q s (t.findsRoom (32 * l + src) 16).2 := by
    rw [State.findsRoom_frame]
    exact h.other rfl
  unfold State.noteFault
  split; next room s1 hpair =>
  rw [hpair] at hroom
  have hcounted : LanesOnly q s (if room = true then s1.bump (F.FLT_CNT_EVENTS src l) 1 else s1.bump F.SEM_XSTAT_OVERRUN 1) := by
    split
    · exact hroom.setLow _ (.inl (by dsimp only; omega)) (by simp)
    · exact hroom.setLow _ (.inr (by decide)) (by decide)
  dsimp only
  generalize (if room = true then s1.bump (F.FLT_CNT_EVENTS src l) 1 else s1.bump F.SEM_XSTAT_OVERRUN 1) = s2 at hcounted ⊢
  split
  · exact hcounted.other rfl
  · exact hcounted.setLow _ (.inl (by decide)) (by decide)

theorem spareLane (h : LanesOnly q s t) {l : Nat} (hl : l < 16) : LanesOnly q s (spareLane t q l) := by
  unfold Machine.spareLane
  extract_lets role s1
  have h1 : LanesOnly q s s1 := by
    refine foldS_induct (P := LanesOnly q s) _ (fun u i hi hu => ?_) h
    split
    · exact hu.setLane (l := i) _ (by have := List.mem_range.mp hi; omega) rfl (by simp)
    · exact hu
  exact (h1.setLane _ hl rfl (by simp)).setLane _ hl rfl (by simp)

theorem narrowLanes (h : LanesOnly q s t) {l : Nat} (hl : l < 16) : LanesOnly q s (narrowLanes t q l) := by
  unfold Machine.narrowLanes
  extract_lets s1 good
  refine foldS_induct (P := LanesOnly q s) _ (fun u i hi hu => ?_) (h.setLane _ hl rfl (by simp))
  exact hu.setLane (l := i) _ (by have := List.mem_range.mp hi; omega) rfl (by simp)

theorem switchRx (h : LanesOnly q s t) (o : LaneOp) : LanesOnly q s (switchRx t q o) := by
  have hl : o.lane.toNat < 16 := o.lane.isLt
  unfold Machine.switchRx
  extract_lets l s1
  have h1 : LanesOnly q s s1 := by
    unfold s1
    split
    · exact ((h.spareLane hl).setStatus _ rfl (by simp) (by simp)).bumpEvents _ rfl (by simp)
    · exact (((h.narrowLanes hl).setStatus _ rfl (by simp) (by simp)).setStatus _ rfl (by simp) (by simp)).bumpEvents _ rfl (by simp)
  exact (h1.noteFault _ (by decide) (by decide)).ibi _ _ (by decide)

theorem switchTx (h : LanesOnly q s t) (op : BitVec 4) : LanesOnly q s (switchTx t q op) := by
  have hdraw : LanesOnly q s (t.draw 4).2 := h.other rfl
  unfold Machine.switchTx
  split; next v s1 hpair =>
  rw [hpair] at hdraw
  dsimp only
  split
  · exact hdraw.onPort _ (fun _ => rfl)
  · refine LanesOnly.setStatus (f := F.LNK_STATUS_TX_NARROW q) ?_ 1 rfl (by simp) (by simp)
    exact hdraw.onPort _ (fun _ => rfl)

theorem switchOne (h : LanesOnly q s t) (o : LaneOp) : LanesOnly q s (switchOne t q o) := by
  have h1 := h.onPort (fun x => { x with agreed := x.agreed.erase o }) (fun _ => rfl)
  unfold Machine.switchOne
  dsimp only
  split
  · exact h1.switchRx o
  · exact h1.switchTx o.op

theorem switchDue (h : LanesOnly q s t) (rx : Bool) (c : BitVec 48) : LanesOnly q s (switchDue t q rx c) := by
  unfold Machine.switchDue
  refine foldS_induct (P := LanesOnly q s) _ (fun u i hi hu => ?_) h
  split
  · exact hu
  · exact hu.switchOne _

theorem hearFrame (h : LanesOnly q s t) : LanesOnly q s (hearFrame t q) := by
  unfold Machine.hearFrame
  refine (h.onPort Port.countBits (fun x => ?_)).switchDue true _
  unfold Port.countBits Port.core
  dsimp only
  split <;> rfl

theorem link (h : LanesOnly q s t) (hq : q < 6) : t.link q = s.link q :=
  h.fields _ ⟨by dsimp only; omega, by dsimp only; omega, fun _ => by simp, by unfold R.LNK_LANE_EVENTS; dsimp only; omega,
    fun l _ => by unfold R.LNK_LANE; dsimp only; omega⟩

theorem mer (h : LanesOnly q s t) : t.mer = s.mer := congrArg Prod.fst h.rest
theorem net (h : LanesOnly q s t) : t.net = s.net := congrArg (fun x => x.2.1) h.rest
theorem sched (h : LanesOnly q s t) : t.sched = s.sched := congrArg (fun x => x.2.2.1) h.rest
theorem refusing (h : LanesOnly q s t) : t.refusing = s.refusing := congrArg (fun x => x.2.2.2) h.rest

end LanesOnly

/-! ### A frame is received -/

/-- With no lane operation agreed a frame only counts bits. -/
theorem hearFrame_idle {s : State} {q : Nat} (h : (s.port q).agreed = []) : hearFrame s q = s.onPort q Port.countBits := by
  have hagreed : ((s.onPort q Port.countBits).port q).agreed = [] := by
    rw [State.port_onPort, ← h]
    unfold Port.countBits
    dsimp only
    split <;> rfl
  unfold hearFrame switchDue
  extract_lets s1
  rw [hagreed]
  exact List.foldl_nil

/-- A sound frame of a type that is used. -/
theorem receive_sound {s : State} {p : PortNo} {f : BitVec 544} {types : List Nat} {typ : Nat} (h : SoundFrame s p f [] typ)
    (hnamed : typeNamed typ = true) (hmem : typ ∈ types) (use : State → State) :
    receive s p.val f [] types use = use (hearFrame s p.val) := by
  obtain ⟨hlink, -, hcrc, htype⟩ := h
  unfold receive
  rw [if_neg (by omega)]
  dsimp only
  rw [if_neg (by decide)]
  have hgood : ¬ (¬ crcOk f = true ∨ ¬ typeNamed (frameType f) = true) := by rw [hcrc, htype, hnamed]; decide
  have htypes : frameType f ∈ types := by rw [htype]; exact hmem
  rw [if_neg hgood, if_pos htypes, List.filter_nil, List.eraseDups_nil, foldS, List.foldl_nil]

end Sys2Proof.Machine
end

section
/-! PROOFS. IDLE, SCHED, PKT and PKT_POISON frames at the receiver (R281–R285, R291). -/

namespace Sys2Proof.Machine

theorem getLsbD_bitsAt {n : Nat} (x : BitVec n) (lo w i : Nat) : (bitsAt x lo w).getLsbD i = (decide (i < w) && x.getLsbD (lo + i)) := by
  simp [bitsAt, BitVec.getLsbD, Nat.testBit_div_two_pow, Nat.add_comm]

theorem bitsAt_bitsAt {n : Nat} (x : BitVec n) {lo w k m : Nat} (h : lo + w ≤ m) :
    bitsAt (bitsAt x k m) lo w = bitsAt x (k + lo) w := by
  refine BitVec.eq_of_getLsbD_eq (fun i hi => ?_)
  rw [getLsbD_bitsAt, getLsbD_bitsAt, getLsbD_bitsAt, Nat.add_assoc]
  simp [hi, show lo + i < m by omega]

theorem State.f_onPort (s : State) (q : Nat) (f : Port → Port) (g : Fld) : (s.onPort q f).f g = s.f g := rfl

theorem State.setF_port (s : State) (f : Fld) (n q : Nat) : (s.setF f n).port q = s.port q := by
  unfold State.port; rw [State.setF_ports]

/-! ### Bad frames and wrong symbols -/

/-- A frame that is discarded as bad where no NAK is outstanding. -/
theorem badFrame_port {s : State} {q : Nat} (h : (s.port q).nakOut = false) :
    (badFrame s q).port q = { s.port q with nakOut := true, nakDue := true } := by
  unfold badFrame
  rw [State.port_onPort, if_neg (by rw [h]; decide)]

theorem badFrame_f (s : State) (q : Nat) (g : Fld) : (badFrame s q).f g = s.f g := State.f_onPort s q _ g

theorem declareFault_corrSym (s : State) {q : Nat} (hq : q < 6) (lane : BitVec 4) :
    (declareFault s q lane).f (F.LNK_FEC_CORR_SYM q) = s.f (F.LNK_FEC_CORR_SYM q) := by
  have hlane : ((s.setF (F.LNK_LANE_OK q lane.toNat) 0).setF (F.LNK_LANE_ROLE q lane.toNat) 15).f (F.LNK_FEC_CORR_SYM q) =
      s.f (F.LNK_FEC_CORR_SYM q) := by
    rw [State.f_setF_other _ _ _ _ (by simp) (.inl (by dsimp only; omega)), State.f_setF_other _ _ _ _ (by simp) (.inl (by dsimp only; omega))]
  have hkept : sweepKeeps (F.LNK_FEC_CORR_SYM q) := by unfold sweepKeeps; dsimp only; omega
  unfold declareFault
  extract_lets l x spare
  split
  · rfl
  split
  · exact hlane
  split
  · rw [goDown_f _ hkept
      ⟨fun h => by unfold R.LNK_STATUS at h; dsimp only at h; omega, fun l _ h => by unfold R.LNK_LANE at h; dsimp only at h; omega⟩
      (by unfold R.LNK_STATUS; dsimp only; omega), ((Swept.refl _).noteFault _ (by decide) (by decide)).fields _ hkept]
    exact hlane
  split
  · split
    · rfl
    · rfl
  · rfl

theorem corrected_corrSym (s : State) {q : Nat} (hq : q < 6) (k : BitVec 10) :
    (corrected s q k).f (F.LNK_FEC_CORR_SYM q) = min (s.f (F.LNK_FEC_CORR_SYM q) + 1) (F.LNK_FEC_CORR_SYM q).max := by
  unfold corrected
  extract_lets w s1
  have h1 : s1.f (F.LNK_FEC_CORR_SYM q) = min (s.f (F.LNK_FEC_CORR_SYM q) + 1) (F.LNK_FEC_CORR_SYM q).max := State.f_bump_eq _ _ _ (by simp)
  split
  · exact h1
  · next l hl =>
    extract_lets s2 recent many s3
    have h3 : s3.f (F.LNK_FEC_CORR_SYM q) = s1.f (F.LNK_FEC_CORR_SYM q) := by
      refine (State.f_onPort s2 q _ _).trans ?_
      exact State.f_bump_other _ _ _ _ (by simp) (.inl (by dsimp only; omega))
    split
    · rw [declareFault_corrSym s3 hq, h3, h1]
    · rw [h3, h1]

/-- A sound frame in a codeword with one wrong symbol. -/
theorem receive_corrected {s : State} {p : PortNo} {f : BitVec 544} {types : List Nat} {typ : Nat} {k : BitVec 10} (h : SoundFrame s p f [] typ)
    (hnamed : typeNamed typ = true) (hmem : typ ∈ types) (hk : k.toNat < 544) (use : State → State) :
    receive s p.val f [k] types use = use (corrected (hearFrame s p.val) p.val k) := by
  obtain ⟨hlink, -, hcrc, htype⟩ := h
  have hwrong : (([k].filter (fun k => decide (k.toNat < 544))).eraseDups) = [k] := by
    rw [List.filter_singleton, decide_eq_true hk]; rfl
  unfold receive
  rw [if_neg (by omega)]
  dsimp only
  rw [hwrong, List.length_singleton, if_neg (by decide)]
  have hgood : ¬ (¬ crcOk f = true ∨ ¬ typeNamed (frameType f) = true) := by rw [hcrc, htype, hnamed]; decide
  have htypes : frameType f ∈ types := by rw [htype]; exact hmem
  rw [if_neg hgood, if_pos htypes, foldS, List.foldl_cons, List.foldl_nil]

/-- A codeword that cannot be corrected. -/
theorem receive_uncorrectable {s : State} {p : PortNo} {cw : List (BitVec 10)} (hlink : s.link p.val = 5)
    (hcw : 15 < ((cw.filter (fun k => decide (k.toNat < 544))).eraseDups).length) (f : BitVec 544) (types : List Nat) (use : State → State) :
    receive s p.val f cw types use = badFrame (((hearFrame s p.val).bump (F.LNK_FEC_UE_UNCORR_CW p.val) 1).noteFault 16 4
      (faultKey [(p.val, 3)])) p.val := by
  unfold receive
  rw [if_neg (by omega)]
  exact if_pos hcw

/-! ### Sequenced frames -/

/-- A frame in sequence is accepted. -/
def Port.accept (x : Port) : Port := { x with exp := x.exp + 1, nakOut := x.nakDue, ackNew := true }

theorem Port.accept_exp (x : Port) : x.accept.exp = x.exp + 1 := rfl
theorem Port.accept_nakOut (x : Port) : x.accept.nakOut = x.nakDue := rfl
theorem Port.accept_rxPkt (x : Port) : x.accept.rxPkt = x.rxPkt := rfl
theorem Port.accept_map (x : Port) : x.accept.map = x.map := rfl

theorem inSequence_next {s : State} {q : Nat} {f : BitVec 544} (hlink : s.link q = 5) (hseq : frameSeq f = (s.port q).exp)
    (use : State → State) : inSequence s q f use = use (s.onPort q Port.accept) := by
  unfold inSequence
  exact (if_neg (not_not.mpr hlink)).trans (if_pos hseq)

/-- What a sound sequenced frame in sequence is used on. -/
def accepted (s : State) (q : Nat) : State := (hearFrame s q).onPort q Port.accept

/-- What the core of a port keeps is the same. -/
theorem LanesOnly.proj {α : Type} {q : Nat} {s t : State} (h : LanesOnly q s t) (π : Port → α) (hπ : ∀ x, π x.core = π x) :
    π (t.port q) = π (s.port q) := by
  rw [← hπ, h.core, hπ]

theorem LanesOnly.core_exp {q : Nat} {s t : State} (h : LanesOnly q s t) : (t.port q).exp = (s.port q).exp :=
  h.proj Port.exp (fun _ => rfl)
theorem LanesOnly.core_nakDue {q : Nat} {s t : State} (h : LanesOnly q s t) : (t.port q).nakDue = (s.port q).nakDue :=
  h.proj Port.nakDue (fun _ => rfl)
theorem LanesOnly.core_nakOut {q : Nat} {s t : State} (h : LanesOnly q s t) : (t.port q).nakOut = (s.port q).nakOut :=
  h.proj Port.nakOut (fun _ => rfl)
theorem LanesOnly.core_rxPkt {q : Nat} {s t : State} (h : LanesOnly q s t) : (t.port q).rxPkt = (s.port q).rxPkt :=
  h.proj Port.rxPkt (fun _ => rfl)
theorem LanesOnly.core_map {q : Nat} {s t : State} (h : LanesOnly q s t) : (t.port q).map = (s.port q).map :=
  h.proj Port.map (fun _ => rfl)

variable {s : State} {p : PortNo} {f : BitVec 544} {typ : Nat}

theorem hearFrame_lanes (s : State) (q : Nat) : LanesOnly q s (hearFrame s q) := (LanesOnly.refl q s).hearFrame

theorem receive_accepted {types : List Nat} (h : SoundFrame s p f [] typ) (hnamed : typeNamed typ = true) (hmem : typ ∈ types)
    (hseq : frameSeq f = (s.port p.val).exp) (use : State → State) :
    receive s p.val f [] types (fun s => inSequence s p.val f use) = use (accepted s p.val) := by
  have hl := hearFrame_lanes s p.val
  rw [receive_sound h hnamed hmem]
  exact inSequence_next ((hl.link p.isLt).trans h.1) (hseq.trans hl.core_exp.symm) use

theorem accepted_exp (s : State) (q : Nat) :
    ((accepted s q).port q).exp = (s.port q).exp + 1 ∧ ((accepted s q).port q).nakOut = (s.port q).nakDue := by
  have hl := hearFrame_lanes s q
  unfold accepted
  rw [State.port_onPort, Port.accept_exp, Port.accept_nakOut, hl.core_exp, hl.core_nakDue]
  exact ⟨rfl, rfl⟩

theorem accepted_rxPkt (s : State) (q : Nat) : ((accepted s q).port q).rxPkt = (s.port q).rxPkt := by
  unfold accepted
  rw [State.port_onPort, Port.accept_rxPkt, (hearFrame_lanes s q).core_rxPkt]

theorem accepted_map (s : State) (q : Nat) : ((accepted s q).port q).map = (s.port q).map := by
  unfold accepted
  rw [State.port_onPort, Port.accept_map, (hearFrame_lanes s q).core_map]

/-! ### A position of a SCHED frame -/

theorem State.taintAt_ports (s : State) (cycle : BitVec 48) (x : Taint) : (s.taintAt none cycle x).ports = s.ports := by
  have hroom : ∀ key places : Nat, (s.findsRoom key places).2.ports = s.ports := fun key places => by rw [State.findsRoom_frame]
  unfold State.taintAt
  extract_lets q n
  split; next room s1 hpair =>
  have h1 : s1.ports = s.ports := by rw [← hroom (256 + q) 32, hpair]
  extract_lets s2 i s3 s4 s5 s6 s7
  split
  · rw [State.bump_ports]; exact h1
  · have h4 : s4.ports = s.ports := (State.setF_ports s3 _ _).trans h1
    have h5 : s5.ports = s.ports := by
      unfold s5
      split
      · rw [State.setF_ports, h4]
      · exact h4
    rw [State.ibi_ports _ _ _ (by decide)]
    exact (State.bump_ports s5 _ _).trans h5

/-- What a position of a SCHED frame leaves of the port. -/
theorem takePosition_port (s : State) (q : Nat) (pos : BitVec 80) :
    ((takePosition s q pos).port q).exp = (s.port q).exp ∧ ((takePosition s q pos).port q).nakOut = (s.port q).nakOut := by
  unfold takePosition
  split
  · exact ⟨rfl, rfl⟩
  · extract_lets par poison ls w xdest s1 s2 b
    have h1 : s1.port q = s.port q := by
      unfold s1
      split
      · exact State.bump_port _ _ _ _
      · rfl
    have h2 : s2.port q = s.port q := by
      unfold s2 State.port
      rw [State.taintAt_ports, State.bump_ports]
      exact h1
    split
    · rw [State.port_onPort, h2]
      exact ⟨rfl, rfl⟩
    · change (s1.port q).exp = _ ∧ (s1.port q).nakOut = _
      rw [h1]
      exact ⟨rfl, rfl⟩

/-- A position that holds no bundle. -/
theorem takePosition_empty (s : State) (q : Nat) {pos : BitVec 80} (h : pos.getLsbD 77 = false) : takePosition s q pos = s := by
  unfold takePosition
  exact if_pos (by rw [h]; decide)

end Sys2Proof.Machine
end

section
/-! PROOFS. The bundle of a SCHED position, the packet of a PKT frame, and the flit of a PKT_POISON frame (R283, R291). -/

namespace Sys2Proof.Machine

/-! ### A mapped position (R291) -/

/-- The bundle of a mapped position: what the receive map's word gives it. -/
theorem takePosition_mapped {s : State} {p : PortNo} {pos : BitVec 80} {w : Word} (hvalid : pos.getLsbD 77 = true)
    (hclean : pos.getLsbD 78 = false) (hw : w = SMap.get 0 (s.port p.val).map (bitsAt pos 65 12 : BitVec 12).toNat) (hmapped : w.getLsbD 16 = true)
    (hdest : (bitsAt w 0 4 : BitVec 4).toNat < 4 ∨ (8 ≤ (bitsAt w 0 4 : BitVec 4).toNat ∧ (bitsAt w 0 4 : BitVec 4).toNat < 14 ∧
      (bitsAt w 0 4 : BitVec 4).toNat ≠ 8 + p.val)) :
    ∃ b : Bundle, takePosition s p.val pos = s.pushBundle 68 (4 + p.val) b ∧ b.parity = pos.getLsbD 64 ∧ b.data = bitsAt pos 0 64 ∧
      b.xdest = bitsAt w 0 4 ∧ b.xrgn = bitsAt w 4 4 ∧ b.port = some p := by
  have hx : (bitsAt w 0 4 : BitVec 4).toNat = w.toNat % 16 := by simp [bitsAt]
  have hbit : w.toNat / 2 ^ 16 % 2 ≠ 0 := by
    rw [BitVec.getLsbD, Nat.testBit_eq_decide_div_mod_eq] at hmapped
    have := of_decide_eq_true hmapped
    omega
  rw [hx] at hdest
  unfold takePosition
  rw [if_neg (by rw [hvalid]; decide)]
  dsimp only
  rw [hclean, ← hw, if_neg Bool.false_ne_true, if_neg (by omega)]
  refine ⟨_, rfl, ?_, ?_, ?_, ?_, ?_⟩
  · unfold Bundle.parity
    dsimp only
    rw [BitVec.getLsbD_ofNat]
    cases pos.getLsbD 64
    · simp [Nat.testBit_lt_two_pow (show w.toNat / 256 % 64 < 2 ^ 6 by omega)]
    · have h := Nat.testBit_two_pow_add_eq (w.toNat / 256 % 64) 6
      rw [Nat.testBit_lt_two_pow (show w.toNat / 256 % 64 < 2 ^ 6 by omega)] at h
      simpa [Nat.add_comm] using h
  · simp
  · exact BitVec.eq_of_toNat_eq (by simp [bitsAt])
  · exact BitVec.eq_of_toNat_eq (by simp [bitsAt])
  · exact dif_pos p.isLt

theorem foldS_first {α : Type} {f : State → α → State} {a : α} {l : List α} (s : State) (h : ∀ b ∈ l, ∀ t, f t b = t) :
    foldS (a :: l) s f = f s a := by
  rw [foldS, List.foldl_cons, ← foldS]
  exact foldS_eq_self l (fun b hb => h b hb _)

theorem State.bundles_pushBundle (s : State) (e i : Nat) (b : Bundle) :
    (s.pushBundle e i b).bundles e i b.parity = s.bundles e i b.parity ++ [b] := SMap.get_set_same _ _ _ _

/-! ### Flits (R283) -/

/-- A READ's header flit, for the node's own package. -/
structure ReadHere (s : State) (q : Nat) (h : Packet) : Prop where
  read : h.cmd = 1
  ring : s.role q ≠ 2
  here : nodeCoord h.dest = s.f F.FAB_ID_COORD
  open_ : s.refusing.getLsbD 4 = false

theorem packetIn_read {s : State} {q v : Nat} {h : Packet} (hr : ReadHere s q h) :
    packetIn s q v h = s.pushNet 68 (4 + q) { h with vc := BitVec.ofNat 2 v } := by
  obtain ⟨hcmd, hring, hhere, hopen⟩ := hr
  have hcmd' : ¬ (h.cmd = 0x21 ∨ h.cmd = 0x22 ∨ h.cmd = 0x23) := by rw [hcmd]; decide
  have hring' : ¬ (s.role q = 2 ∧ (s.peerCoord q).isNone = true) := fun hn => hring hn.1
  have hstray : ¬ (s.strayPort q = true ∧ nodeCoord h.dest ≠ s.f F.FAB_ID_COORD) := fun hn => hn.2 hhere
  have hopen' : ¬ s.refusing.getLsbD 4 = true := by rw [hopen]; decide
  unfold packetIn
  extract_lets stopped p free
  rw [if_neg hcmd', if_neg hring', if_neg hstray, if_neg (fun hn => hopen' hn.1), if_neg (fun hn => hopen' hn.1)]

/-- The first flit of a frame where no packet is being received: a READ's header. -/
theorem takeFlit_read {s : State} {q v : Nat} {f : Flit} (hrx : SMap.get none (s.port q).rxPkt v = none) (hf : f ≠ 0)
    (hr : ReadHere s q (headerOf f [] 0)) :
    takeFlit s q v f false = (s.pushNet 68 (4 + q) { headerOf f [] 0 with vc := BitVec.ofNat 2 v }, false) := by
  unfold takeFlit
  dsimp only
  rw [hrx]
  dsimp only
  rw [if_neg (by simpa using hf), if_pos hr.read, if_pos rfl, packetIn_read hr]

/-- A pad: the rest of the frame is discarded. -/
theorem takeFlits_pad {s : State} {q v : Nat} (hrx : SMap.get none (s.port q).rxPkt v = none) (l : List Flit) : takeFlits s q v (0 :: l) = s := by
  have hpad : takeFlit s q v 0 false = (s, true) := by
    unfold takeFlit
    dsimp only
    rw [hrx]
    exact if_pos (.inl rfl)
  rw [takeFlits, hpad]
  rfl

theorem takeFlits_cons {s t : State} {q v : Nat} {f : Flit} (h : takeFlit s q v f false = (t, false)) (l : List Flit) :
    takeFlits s q v (f :: l) = takeFlits t q v l := by
  rw [takeFlits, h]
  rfl

/-- A packet that is being received, on a VC. -/
def Port.putRx (y : Port) (v : Nat) (x : Option RxPacket) : Port := { y with rxPkt := SMap.set none y.rxPkt v x }

/-- A packet with one more flit, which is poisoned. -/
def RxPacket.poisoned (r : RxPacket) : RxPacket :=
  ⟨{ r.head with data := r.head.data ++ [0], poison := setBit r.head.poison r.head.data.length true }, r.left - 1⟩

/-- A poison flit in a packet of which more than one flit is missing. -/
theorem takeFlit_poison {s : State} {q v : Nat} {r : RxPacket} (hrx : SMap.get none (s.port q).rxPkt v = some r) (hleft : 2 ≤ r.left) :
    (takeFlit s q v 0 true).1 = s.onPort q (fun y => y.putRx v (some r.poisoned)) := by
  unfold takeFlit
  dsimp only
  rw [hrx]
  dsimp only
  rw [if_neg (by omega)]
  rfl

theorem State.pushNet_port (s : State) (e i : Nat) (x : Packet) (q : Nat) : (s.pushNet e i x).port q = s.port q := rfl

theorem State.queue_pushNet (s : State) (e i : Nat) (x : Packet) :
    (s.pushNet e i x).queue (netKey e i x.vc.toNat) = s.queue (netKey e i x.vc.toNat) ++ [x] := SMap.get_set_same _ _ _ _

/-! ### What an accepted frame finds -/

theorem accepted_role (s : State) (p : PortNo) : (accepted s p.val).role p.val = s.role p.val := by
  have hp := p.isLt
  unfold State.role accepted
  rw [State.f_onPort]
  exact (hearFrame_lanes s p.val).fields _ ⟨by dsimp only; omega, by dsimp only; omega, fun h => by unfold R.LNK_STATUS at h; dsimp only at h; omega,
    by unfold R.LNK_LANE_EVENTS; dsimp only; omega, fun l _ => by unfold R.LNK_LANE; dsimp only; omega⟩

theorem accepted_coord (s : State) (p : PortNo) : (accepted s p.val).f F.FAB_ID_COORD = s.f F.FAB_ID_COORD := by
  have hp := p.isLt
  unfold accepted
  rw [State.f_onPort]
  exact (hearFrame_lanes s p.val).fields _ ⟨by decide, by decide, fun h => by unfold R.LNK_STATUS at h; dsimp only at h; omega,
    by unfold R.LNK_LANE_EVENTS; dsimp only; omega, fun l _ => by unfold R.LNK_LANE; dsimp only; omega⟩

theorem State.onPort_rest (s : State) (q : Nat) (f : Port → Port) :
    (s.onPort q f).refusing = s.refusing ∧ (s.onPort q f).net = s.net ∧ (s.onPort q f).sched = s.sched := ⟨rfl, rfl, rfl⟩

theorem accepted_refusing (s : State) (q : Nat) : (accepted s q).refusing = s.refusing :=
  (State.onPort_rest (hearFrame s q) q Port.accept).1.trans (hearFrame_lanes s q).refusing

theorem accepted_queue (s : State) (q k : Nat) : (accepted s q).queue k = s.queue k := by
  have h : (accepted s q).net = s.net := (State.onPort_rest (hearFrame s q) q Port.accept).2.1.trans (hearFrame_lanes s q).net
  unfold State.queue; rw [h]

theorem accepted_bundles (s : State) (q e i : Nat) (par : Bool) : (accepted s q).bundles e i par = s.bundles e i par := by
  have h : (accepted s q).sched = s.sched := (State.onPort_rest (hearFrame s q) q Port.accept).2.2.trans (hearFrame_lanes s q).sched
  unfold State.bundles; rw [h]

/-! ### The commands -/

variable {p : PortNo} {f : BitVec 544} {s : State}

theorem framePayload_at (f : BitVec 544) {lo w : Nat} (h : lo + w ≤ 512) : bitsAt (framePayload f) lo w = bitsAt f (16 + lo) w :=
  bitsAt_bitsAt f h

/-- A position of a SCHED frame's payload, by the frame's bits. -/
theorem position_getLsbD (f : BitVec 544) {i k : Nat} (hi : i < 6) (hk : k < 80) :
    (bitsAt (framePayload f) (80 * i) 80).getLsbD k = f.getLsbD (16 + 80 * i + k) := by
  rw [framePayload_at f (by omega), getLsbD_bitsAt, decide_eq_true hk, Bool.true_and]

theorem exec_sched (h : SoundFrame s p f [] 2) (hseq : frameSeq f = (s.port p.val).exp) :
    exec (.sched p f []) s = .next (foldS (List.range 6) (accepted s p.val) (fun s i => takePosition s p.val (bitsAt (framePayload f) (80 * i) 80))) :=
  congrArg Host.Outcome.next (receive_accepted h rfl List.mem_cons_self hseq _)

theorem sched_port (h : SoundFrame s p f [] 2) (hseq : frameSeq f = (s.port p.val).exp) :
    Completes (.sched p f []) s (fun t => (t.port p.val).exp = (s.port p.val).exp + 1 ∧ (t.port p.val).nakOut = (s.port p.val).nakDue) := by
  refine .of_eq _ (exec_sched h hseq) ?_
  refine foldS_induct (P := fun t => (t.port p.val).exp = (s.port p.val).exp + 1 ∧ (t.port p.val).nakOut = (s.port p.val).nakDue) _
    (fun t i _ ht => ?_) (accepted_exp s p.val)
  obtain ⟨hexp, hnak⟩ := takePosition_port t p.val (bitsAt (framePayload f) (80 * i) 80)
  rw [hexp, hnak]
  exact ht

theorem sched_mapped {w : Word} (h : SoundFrame s p f [] 2) (hseq : frameSeq f = (s.port p.val).exp)
    (hvalid : f.getLsbD 93 = true) (hclean : f.getLsbD 94 = false) (hlone : ∀ i : Fin 5, f.getLsbD (173 + 80 * i.val) = false)
    (hw : w = SMap.get 0 (s.port p.val).map (bitsAt f 81 12 : BitVec 12).toNat) (hmapped : w.getLsbD 16 = true)
    (hdest : (bitsAt w 0 4 : BitVec 4).toNat < 4 ∨ (8 ≤ (bitsAt w 0 4 : BitVec 4).toNat ∧ (bitsAt w 0 4 : BitVec 4).toNat < 14 ∧
      (bitsAt w 0 4 : BitVec 4).toNat ≠ 8 + p.val)) :
    Completes (.sched p f []) s (fun t => ∃ b, t.bundles 68 (4 + p.val) (f.getLsbD 80) = s.bundles 68 (4 + p.val) (f.getLsbD 80) ++ [b] ∧
      b.data = bitsAt f 16 64 ∧ b.xdest = bitsAt w 0 4 ∧ b.xrgn = bitsAt w 4 4 ∧ b.port = some p) := by
  have hfirst : bitsAt (framePayload f) (80 * 0) 80 = bitsAt f 16 80 := framePayload_at f (by omega)
  have hls : (bitsAt (bitsAt f 16 80 : BitVec 80) 65 12 : BitVec 12) = bitsAt f 81 12 := bitsAt_bitsAt f (by omega)
  have hbit : ∀ k < 80, (bitsAt f 16 80 : BitVec 80).getLsbD k = f.getLsbD (16 + k) := fun k hk => by
    rw [getLsbD_bitsAt, decide_eq_true hk, Bool.true_and]
  obtain ⟨b, hb, hpar, hdata, hxdest, hxrgn, hport⟩ := takePosition_mapped (s := accepted s p.val) (p := p) (pos := bitsAt f 16 80) (w := w)
    ((hbit 77 (by decide)).trans hvalid) ((hbit 78 (by decide)).trans hclean) (by rw [accepted_map, hls]; exact hw) hmapped hdest
  refine .of_eq _ (exec_sched h hseq) ⟨b, ?_, hdata.trans (bitsAt_bitsAt f (by omega)), hxdest, hxrgn, hport⟩
  rw [show List.range 6 = 0 :: [1, 2, 3, 4, 5] from rfl, foldS_first, hfirst, hb]
  · have hpar' : f.getLsbD 80 = b.parity := (hpar.trans (hbit 64 (by decide))).symm
    rw [hpar', State.bundles_pushBundle, accepted_bundles]
  · intro i hi t
    have hi5 : 1 ≤ i ∧ i < 6 := by simp at hi; omega
    refine takePosition_empty t p.val ?_
    rw [position_getLsbD f hi5.2 (by decide)]
    have hlone := hlone ⟨i - 1, by omega⟩
    rw [show 16 + 80 * i + 77 = 173 + 80 * (i - 1) by omega]
    exact hlone

end Sys2Proof.Machine
end

section
/-! PROOFS. PKT and PKT_POISON frames taken, and CTRL frames at the receiver: credits and the sample of the link delay (R283, R284, R302). -/

namespace Sys2Proof.Machine

variable {p : PortNo} {f : BitVec 544} {s : State}

/-- PKT (R283): a READ in the first flit, pads behind it. -/
theorem pktFrame_read {v : Fin 4} {h : Packet} (hf : SoundFrame s p f [] (8 + v.val)) (hseq : frameSeq f = (s.port p.val).exp)
    (hh : h = { headerOf (bitsAt f 16 128) [] 0 with vc := BitVec.ofNat 2 v.val }) (hcmd : h.cmd = 1) (hpad : (bitsAt f 144 128 : BitVec 128) = 0)
    (hrx : SMap.get none (s.port p.val).rxPkt v.val = none) (hring : s.role p.val ≠ 2) (hhere : nodeCoord h.dest = s.f F.FAB_ID_COORD)
    (hopen : s.refusing.getLsbD 4 = false) :
    Completes (.pktFrame p f []) s (fun t => t.queue (netKey 68 (4 + p.val) v.val) = s.queue (netKey 68 (4 + p.val) v.val) ++ [h] ∧
      (t.port p.val).exp = (s.port p.val).exp + 1) := by
  have hv := v.isLt
  have hnamed : typeNamed (8 + v.val) = true := by unfold typeNamed; simp
  have hmem : 8 + v.val ∈ [8, 9, 10, 11] := by simp; omega
  have hcmd1 : (headerOf (bitsAt f 16 128) [] 0).cmd = 1 := by rw [hh] at hcmd; exact hcmd
  have hdest : nodeCoord (headerOf (bitsAt f 16 128) [] 0).dest = s.f F.FAB_ID_COORD := by rw [hh] at hhere; exact hhere
  have hflits : (List.range 4).map (fun i => (bitsAt (framePayload f) (128 * i) 128 : BitVec 128)) =
      bitsAt f 16 128 :: 0 :: [bitsAt f 272 128, bitsAt f 400 128] := by
    rw [show List.range 4 = [0, 1, 2, 3] from rfl]
    simp only [List.map_cons, List.map_nil]
    rw [framePayload_at f (by omega), framePayload_at f (by omega), framePayload_at f (by omega), framePayload_at f (by omega), ← hpad]
  have hne : (bitsAt f 16 128 : BitVec 128) ≠ 0 := fun h0 => by
    rw [h0] at hcmd1; exact absurd hcmd1 (by decide)
  have hrx' : SMap.get none ((accepted s p.val).port p.val).rxPkt v.val = none := by rw [accepted_rxPkt]; exact hrx
  have hread : ReadHere (accepted s p.val) p.val (headerOf (bitsAt f 16 128) [] 0) :=
    ⟨hcmd1, by rw [accepted_role]; exact hring, by rw [accepted_coord]; exact hdest, by rw [accepted_refusing]; exact hopen⟩
  refine .of_eq ((accepted s p.val).pushNet 68 (4 + p.val) h) ?_ ⟨?_, ?_⟩
  · refine congrArg Host.Outcome.next ((receive_accepted hf hnamed hmem hseq _).trans ?_)
    rw [hflits, hf.2.2.2, Nat.add_sub_cancel_left, takeFlits_cons (takeFlit_read hrx' hne hread), takeFlits_pad, ← hh]
    rw [State.pushNet_port]
    exact hrx'
  · have hvc : h.vc.toNat = v.val := by
      rw [hh]
      exact (BitVec.toNat_ofNat _ _).trans (Nat.mod_eq_of_lt hv)
    have hq := State.queue_pushNet (accepted s p.val) 68 (4 + p.val) h
    rw [hvc, accepted_queue] at hq
    exact hq
  · rw [State.pushNet_port]
    exact (accepted_exp s p.val).1

theorem Port.putRx_rxPkt (y : Port) (v : Nat) (x : Option RxPacket) : (y.putRx v x).rxPkt = SMap.set none y.rxPkt v x := rfl
theorem Port.putRx_exp (y : Port) (v : Nat) (x : Option RxPacket) : (y.putRx v x).exp = y.exp := rfl

/-- PKT_POISON (R283): a poison flit in the packet that is being received. -/
theorem pktPoison_mid {v : Fin 4} {r : RxPacket} (hf : SoundFrame s p f [] (12 + v.val)) (hseq : frameSeq f = (s.port p.val).exp)
    (hrx : SMap.get none (s.port p.val).rxPkt v.val = some r) (hleft : 2 ≤ r.left) :
    Completes (.pktPoison p f []) s (fun t => SMap.get none (t.port p.val).rxPkt v.val = some r.poisoned ∧
      (t.port p.val).exp = (s.port p.val).exp + 1) := by
  have hv := v.isLt
  have hnamed : typeNamed (12 + v.val) = true := by unfold typeNamed; simp; omega
  have hmem : 12 + v.val ∈ [12, 13, 14, 15] := by simp; omega
  have hrx' : SMap.get none ((accepted s p.val).port p.val).rxPkt v.val = some r := by rw [accepted_rxPkt]; exact hrx
  refine .of_eq ((accepted s p.val).onPort p.val (fun y => y.putRx v.val (some r.poisoned))) ?_ ⟨?_, ?_⟩
  · refine congrArg Host.Outcome.next ((receive_accepted hf hnamed hmem hseq _).trans ?_)
    rw [hf.2.2.2, Nat.add_sub_cancel_left]
    exact takeFlit_poison hrx' hleft
  · rw [State.port_onPort, Port.putRx_rxPkt, SMap.get_set_same]
  · rw [State.port_onPort, Port.putRx_exp]
    exact (accepted_exp s p.val).1

/-! ### CTRL (R284) -/

theorem countAccepted_ports (s : State) (b : Bundle) : (countAccepted s b).ports = s.ports := by
  unfold countAccepted
  split <;> rfl

theorem foldS_countAccepted_ports (l : List Bundle) (s : State) : (foldS l s countAccepted).ports = s.ports :=
  foldS_induct (P := fun t => t.ports = s.ports) (f := countAccepted) l (fun t b _ ht => (countAccepted_ports t b).trans ht) rfl

theorem countAccepted_regs (s : State) (b : Bundle) : (countAccepted s b).regs = s.regs := by
  unfold countAccepted
  split <;> rfl

theorem foldS_countAccepted_regs (l : List Bundle) (s : State) : (foldS l s countAccepted).regs = s.regs :=
  foldS_induct (P := fun t => t.regs = s.regs) (f := countAccepted) l (fun t b _ ht => (countAccepted_regs t b).trans ht) rfl

theorem acceptInFlight_port (s : State) (q : Nat) (par : Bool) (n : Nat) :
    ∃ m, (acceptInFlight s q par n).port q = { s.port q with inFlight := m } := by
  unfold acceptInFlight
  extract_lets l s1
  refine ⟨SMap.set [] (s.port q).inFlight par.toNat (l.drop n), ?_⟩
  rw [State.port, foldS_countAccepted_ports, ← State.port, State.port_onPort]

theorem acceptInFlight_regs (s : State) (q : Nat) (par : Bool) (n : Nat) : (acceptInFlight s q par n).regs = s.regs := by
  unfold acceptInFlight
  exact foldS_countAccepted_regs _ _

/-- The credits of a CTRL frame in a port. -/
def Port.credited (x : Port) (c : BitVec 512) : Port :=
  { x with peerVc := (List.range 4).foldl (fun m v => SMap.set 0 m v (bitsAt c (16 + 16 * v) 16)) x.peerVc,
           peerPar := (List.range 2).foldl (fun m b => SMap.set 0 m b (bitsAt c (80 + 16 * b) 16)) x.peerPar }

theorem takeCredits_port (s : State) (q : Nat) (c : BitVec 512) : ∃ m, (takeCredits s q c).port q = { (s.port q).credited c with inFlight := m } := by
  unfold takeCredits
  extract_lets freed n0 n1 s1
  obtain ⟨m0, h0⟩ := acceptInFlight_port s1 q false n0
  obtain ⟨m1, h1⟩ := acceptInFlight_port (acceptInFlight s1 q false n0) q true n1
  have hs1 : s1.port q = (s.port q).credited c := State.port_onPort s q _
  exact ⟨m1, by rw [h1, h0, hs1]⟩

theorem takeCredits_regs (s : State) (q : Nat) (c : BitVec 512) : (takeCredits s q c).regs = s.regs := by
  unfold takeCredits
  extract_lets freed n0 n1 s1
  rw [acceptInFlight_regs, acceptInFlight_regs]
  exact State.regs_onPort s q _

theorem foldl_set_get (n : Nat) (f : Nat → BitVec 16) (m : SMap (BitVec 16)) {k : Nat} (hk : k < n) :
    SMap.get 0 ((List.range n).foldl (fun m v => SMap.set 0 m v (f v)) m) k = f k := by
  refine foldl_reaches_from (Q := fun _ => True) (P := fun m => SMap.get 0 m k = f k) (List.mem_range.mpr hk) (fun _ _ _ => trivial)
    (fun m _ => SMap.get_set_same _ _ _ _) (fun m i hm => ?_) trivial
  by_cases hi : i = k
  · subst hi; exact SMap.get_set_same _ _ _ _
  · rw [SMap.get_set_ne _ _ _ (Ne.symm hi)]; exact hm

theorem Port.credited_vc (x : Port) (c : BitVec 512) (v : Fin 4) : SMap.get 0 (x.credited c).peerVc v.val = bitsAt c (16 + 16 * v.val) 16 :=
  foldl_set_get 4 (fun v => bitsAt c (16 + 16 * v) 16) _ v.isLt

theorem Port.credited_par (x : Port) (c : BitVec 512) (b : Fin 2) : SMap.get 0 (x.credited c).peerPar b.val = bitsAt c (80 + 16 * b.val) 16 :=
  foldl_set_get 2 (fun b => bitsAt c (80 + 16 * b) 16) _ b.isLt

/-- What a sample of the link delay leaves: all of the port but the samples, and every field but LNK.DELAY. -/
theorem sampleDelay_leaves (s : State) (q : Nat) (c : BitVec 512) (a : Word) :
    (∃ l m, (sampleDelay s q c a).port q = { s.port q with samples := l, sentTs := m }) ∧
      ∀ g : Fld, g.off ≠ R.LNK_DELAY q → (sampleDelay s q c a).f g = s.f g := by
  unfold sampleDelay
  extract_lets t1 x all l s1
  split
  · exact ⟨⟨_, _, rfl⟩, fun _ _ => rfl⟩
  · constructor
    · refine ⟨l, x.sentTs.dropWhile (fun t => decide (t ≠ t1)), ?_⟩
      rw [State.setF_port]
      exact State.port_onPort s q _
    · intro g hg
      rw [State.f_setF_other _ _ _ _ (by simp) (.inl hg.symm)]
      exact State.f_onPort s q _ g

/-- The first sample of the link delay. -/
theorem sampleDelay_first {q : Nat} {c : BitVec 512} {a : Word} (hmem : (bitsAt c 144 32 : BitVec 32) ∈ (s.port q).sentTs)
    (hfirst : (s.port q).samples = []) (hsmall : (a - bitsAt c 144 32 - bitsAt c 176 32 : Word).toNat < 2 ^ 25) :
    (sampleDelay s q c a).f (F.LNK_DELAY_ONEWAY q) = (a - bitsAt c 144 32 - bitsAt c 176 32 : Word).toNat / 2 := by
  unfold sampleDelay
  extract_lets t1 x all l s1
  have hall : all = [a - t1 - bitsAt c 176 32] := by
    unfold all x
    rw [hfirst, List.nil_append]
  have hl : l = [a - t1 - bitsAt c 176 32] := by
    unfold l
    rw [hall, List.length_singleton, List.drop_zero]
  rw [if_neg (not_not.mpr hmem), hl, State.f_setF_eq _ _ _ (by simp)]
  have hsum : ([a - t1 - bitsAt c 176 32].map BitVec.toNat).sum / (2 * [a - t1 - bitsAt c 176 32].length) = (a - t1 - bitsAt c 176 32).toNat / 2 := by
    simp
  rw [hsum]
  have hsmall' : (a - t1 - bitsAt c 176 32 : Word).toNat < 2 ^ 25 := hsmall
  exact Nat.mod_eq_of_lt (by dsimp only; omega)

end Sys2Proof.Machine
end

section
/-! PROOFS. CTRL frames at a port that is UP (R284–R286, R296, R302). -/

namespace Sys2Proof.Machine

theorem LanesOnly.core_replay {q : Nat} {s t : State} (h : LanesOnly q s t) : (t.port q).replay = (s.port q).replay :=
  h.proj Port.replay (fun _ => rfl)

theorem LanesOnly.core_sentTs {q : Nat} {s t : State} (h : LanesOnly q s t) : (t.port q).sentTs = (s.port q).sentTs :=
  h.proj Port.sentTs (fun _ => rfl)

theorem LanesOnly.core_samples {q : Nat} {s t : State} (h : LanesOnly q s t) : (t.port q).samples = (s.port q).samples :=
  h.proj Port.samples (fun _ => rfl)

/-! ### What acts on the port, and what leaves LNK.DELAY -/

theorem setLink_delay (s : State) {q : Nat} (hq : q < 6) (st : Nat) : (setLink s q st).f (F.LNK_DELAY_ONEWAY q) = s.f (F.LNK_DELAY_ONEWAY q) :=
  setLink_f s (by unfold sweepKeeps; dsimp only; omega)
    ⟨fun h => by unfold R.LNK_STATUS at h; dsimp only at h; omega, fun l _ h => by unfold R.LNK_LANE at h; dsimp only at h; omega⟩

theorem laneOpIn_delay (s : State) {q : Nat} (hq : q < 6) (op : Nat) (lane : BitVec 4) (at_ : BitVec 48) :
    (laneOpIn s q op lane at_).f (F.LNK_DELAY_ONEWAY q) = s.f (F.LNK_DELAY_ONEWAY q) := by
  unfold laneOpIn
  split
  · exact State.f_onPort s q _ _
  · exact State.f_onPort s q _ _
  · exact State.f_onPort s q _ _
  · split
    · exact setLink_delay s hq 6
    · rfl
  · split
    · exact setLink_delay s hq 5
    · rfl
  · rfl

theorem rewindPort_delay (s : State) (q : Nat) (ack : Option (BitVec 12)) :
    (rewindPort s q ack).f (F.LNK_DELAY_ONEWAY q) = s.f (F.LNK_DELAY_ONEWAY q) := by
  unfold rewindPort
  rw [State.f_bump_other _ _ _ _ (by simp) (.inl (by dsimp only; omega))]
  exact State.f_onPort s q _ _

theorem takeCredits_f (s : State) (q : Nat) (c : BitVec 512) (g : Fld) : (takeCredits s q c).f g = s.f g :=
  State.f_of_regs (takeCredits_regs s q c) g

/-! ### A CTRL frame of a port that is UP -/

/-- A CTRL frame has been heard: a sample of the link delay, and what the next CTRL frame echoes. -/
def ctrlHeard (s : State) (q : Nat) (c : BitVec 512) (arrival : Word) : State :=
  (sampleDelay s q c arrival).onPort q (fun x => { x with echo := bitsAt c 112 32, echoAt := arrival })

/-- Acknowledgement, NAK, credits and lane operation of a CTRL frame. -/
def ctrlTaken (s : State) (q : Nat) (c : BitVec 512) : State :=
  let ack : BitVec 12 := bitsAt c 0 12
  let s := if c.getLsbD 13 then s.onPort q (fun x => x.release ack) else s
  let s := if c.getLsbD 12 ∧ (s.port q).rewound ≠ some ack then rewindPort s q (some ack) else s
  laneOpIn (takeCredits s q c) q (bitsAt c 208 4 : BitVec 4).toNat (bitsAt c 212 4) (bitsAt c 216 48)

theorem ctrlHeard_link (s : State) {q : Nat} (hq : q < 6) (c : BitVec 512) (a : Word) : (ctrlHeard s q c a).link q = s.link q := by
  unfold ctrlHeard State.link
  rw [State.f_onPort, (sampleDelay_leaves s q c a).2 _ (by unfold R.LNK_DELAY; dsimp only; omega)]

/-- What a CTRL frame that has been heard leaves of the port. -/
theorem ctrlHeard_port (s : State) (q : Nat) (c : BitVec 512) (a : Word) :
    ((ctrlHeard s q c a).port q).replay = (s.port q).replay ∧ ((ctrlHeard s q c a).port q).exp = (s.port q).exp ∧
      ((ctrlHeard s q c a).port q).echo = bitsAt c 112 32 ∧ ((ctrlHeard s q c a).port q).echoAt = a := by
  obtain ⟨⟨l, m, hport⟩, -⟩ := sampleDelay_leaves s q c a
  unfold ctrlHeard
  rw [State.port_onPort, hport]
  exact ⟨rfl, rfl, rfl, rfl⟩

variable {p : PortNo} {f : BitVec 544} {s : State}

theorem exec_ctrl (h : SoundFrame s p f [] 4) (since : Word) :
    exec (.ctrl p f ⟨[], since⟩) s = .next (ctrlTaken (ctrlHeard (hearFrame s p.val) p.val (framePayload f) (s.timer since)) p.val (framePayload f)) := by
  have hl := hearFrame_lanes s p.val
  have htimer : (hearFrame s p.val).timer since = s.timer since := by unfold State.timer; rw [hl.mer]
  have hlink : (ctrlHeard (hearFrame s p.val) p.val (framePayload f) (s.timer since)).link p.val = 5 := by
    rw [ctrlHeard_link _ p.isLt, hl.link p.isLt]
    exact h.1
  refine congrArg Host.Outcome.next ((receive_sound h rfl List.mem_cons_self _).trans ?_)
  rw [htimer]
  exact (if_neg (by rw [show (5 : Nat) = 5 from rfl] at hlink; exact fun h6 => absurd (hlink.symm.trans h6) (by decide))).trans
    ((if_neg (fun h4 => absurd (hlink.symm.trans h4) (by decide))).trans (if_neg (not_not.mpr hlink)))

/-- With nothing acknowledged, no NAK and no lane operation a CTRL frame gives the peer's credits. -/
theorem ctrlTaken_credits {t : State} {q : Nat} {c : BitVec 512} (hack : c.getLsbD 13 = false) (hnak : c.getLsbD 12 = false)
    (hop : (bitsAt c 208 4 : BitVec 4) = 0) : ctrlTaken t q c = takeCredits t q c := by
  unfold ctrlTaken
  dsimp only
  rw [hack, hnak, hop, if_neg Bool.false_ne_true, if_neg (fun hn => Bool.false_ne_true hn.1)]
  rfl

theorem ctrlTaken_delay (t : State) {q : Nat} (hq : q < 6) (c : BitVec 512) :
    (ctrlTaken t q c).f (F.LNK_DELAY_ONEWAY q) = t.f (F.LNK_DELAY_ONEWAY q) := by
  unfold ctrlTaken
  extract_lets ack s1 s2
  have h1 : s1.f (F.LNK_DELAY_ONEWAY q) = t.f (F.LNK_DELAY_ONEWAY q) := by
    unfold s1
    split
    · exact State.f_onPort t q _ _
    · rfl
  have h2 : s2.f (F.LNK_DELAY_ONEWAY q) = s1.f (F.LNK_DELAY_ONEWAY q) := by
    unfold s2
    split
    · exact rewindPort_delay s1 q _
    · rfl
  rw [laneOpIn_delay _ hq, takeCredits_f, h2, h1]

theorem ctrl_credits {since : Word} (h : SoundFrame s p f [] 4) (hnak : f.getLsbD 28 = false) (hack : f.getLsbD 29 = false)
    (hop : (bitsAt f 224 4 : BitVec 4) = 0) :
    Completes (.ctrl p f ⟨[], since⟩) s (fun t => (∀ v : Fin 4, SMap.get 0 (t.port p.val).peerVc v.val = bitsAt f (32 + 16 * v.val) 16) ∧
      (∀ b : Fin 2, SMap.get 0 (t.port p.val).peerPar b.val = bitsAt f (96 + 16 * b.val) 16) ∧
      (t.port p.val).replay = (s.port p.val).replay ∧ (t.port p.val).exp = (s.port p.val).exp ∧
      (t.port p.val).echo = bitsAt f 128 32 ∧ (t.port p.val).echoAt = s.timer since) := by
  have hl := hearFrame_lanes s p.val
  have hbit : ∀ k < 512, (framePayload f).getLsbD k = f.getLsbD (16 + k) := fun k hk => by
    unfold framePayload
    rw [getLsbD_bitsAt, decide_eq_true hk, Bool.true_and]
  refine .of_eq _ ((exec_ctrl h since).trans (congrArg Host.Outcome.next (ctrlTaken_credits ((hbit 13 (by decide)).trans hack)
    ((hbit 12 (by decide)).trans hnak) ((framePayload_at f (by decide)).trans hop)))) ?_
  obtain ⟨hr, he, hecho, hat⟩ := ctrlHeard_port (hearFrame s p.val) p.val (framePayload f) (s.timer since)
  generalize ctrlHeard (hearFrame s p.val) p.val (framePayload f) (s.timer since) = t at hr he hecho hat ⊢
  obtain ⟨m, hport⟩ := takeCredits_port t p.val (framePayload f)
  rw [hport]
  refine ⟨fun v => ?_, fun b => ?_, hr.trans hl.core_replay, he.trans hl.core_exp, hecho.trans (framePayload_at f (by decide)), hat⟩
  · have hv := v.isLt
    refine (Port.credited_vc (t.port p.val) (framePayload f) v).trans ?_
    rw [framePayload_at f (by omega), ← Nat.add_assoc]
  · have hb := b.isLt
    refine (Port.credited_par (t.port p.val) (framePayload f) b).trans ?_
    rw [framePayload_at f (by omega), ← Nat.add_assoc]

theorem ctrl_delay {since t1 : Word} (h : SoundFrame s p f [] 4) (ht1 : t1 = bitsAt f 160 32) (hmem : t1 ∈ (s.port p.val).sentTs)
    (hfirst : (s.port p.val).samples = []) (hsmall : (s.timer since - t1 - bitsAt f 192 32 : Word).toNat < 2 ^ 25) :
    Completes (.ctrl p f ⟨[], since⟩) s (fun t => t.f (F.LNK_DELAY_ONEWAY p.val) = (s.timer since - t1 - bitsAt f 192 32 : Word).toNat / 2) := by
  have hl := hearFrame_lanes s p.val
  have h1 : (bitsAt (framePayload f) 144 32 : BitVec 32) = t1 := (framePayload_at f (by decide)).trans ht1.symm
  have h2 : (bitsAt (framePayload f) 176 32 : BitVec 32) = bitsAt f 192 32 := framePayload_at f (by decide)
  refine .of_eq _ (exec_ctrl h since) ?_
  rw [ctrlTaken_delay _ p.isLt]
  unfold ctrlHeard
  rw [State.f_onPort, sampleDelay_first (by rw [h1, hl.core_sentTs]; exact hmem) (hl.core_samples.trans hfirst) (by rw [h1, h2]; exact hsmall), h1, h2]

end Sys2Proof.Machine
end

section
/-! PROOFS. The transmitter sends a frame (R286, R292): what a launch leaves of the port, and each frame that it sends. -/

namespace Sys2Proof.Machine

/-! ### A frame's bits -/

theorem getLsbD_mkFrame (typ seq : Nat) (payload : BitVec 512) {i : Nat} (h : i < 528) :
    (mkFrame typ seq payload).getLsbD i = (BitVec.ofNat 544 (packKey [(typ, 4), (seq, 12), (payload.toNat, 512)])).getLsbD i := by
  have h544 : i < 544 := by omega
  simp only [mkFrame, setBits, BitVec.getLsbD_or, BitVec.getLsbD_and, BitVec.getLsbD_not, BitVec.getLsbD_shiftLeft]
  simp [h, h544]

/-- The SEQ of a frame. -/
theorem frameSeq_of_mkFrame (typ seq : Nat) (payload : BitVec 512) : frameSeq (mkFrame typ seq payload) = BitVec.ofNat 12 seq := by
  have hbits : frameSeq (mkFrame typ seq payload) = bitsAt (BitVec.ofNat 544 (packKey [(typ, 4), (seq, 12), (payload.toNat, 512)])) 4 12 := by
    refine BitVec.eq_of_getLsbD_eq (fun i hi => ?_)
    rw [frameSeq, getLsbD_bitsAt, getLsbD_bitsAt, getLsbD_mkFrame _ _ _ (by omega)]
  rw [hbits]
  refine BitVec.eq_of_toNat_eq ?_
  simp only [bitsAt, packKey, BitVec.toNat_ofNat]
  omega

/-! ### A launch -/

theorem stream_core (x : Port) (w : BitVec 48 → Nat) (f : BitVec 544) : (x.stream w f).core = x.core := by
  unfold Port.stream
  extract_lets bits len m
  split
  · rfl
  · split <;> rfl

/-- The port with a frame at the transmitter's output. -/
def Port.sends (x : Port) (f : BitVec 544) : Port := { x with out := some f }

theorem core_sends (x : Port) (f : BitVec 544) : (x.sends f).core = x.core.sends f := rfl

theorem core_launched (x : Port) (w : BitVec 48 → Nat) (f : BitVec 544) : ({ x.stream w f with out := some f, sent := [] } : Port).core = (x.sends f).core := by
  have h : ({ x.stream w f with out := some f, sent := [] } : Port).core = (x.stream w f).core.sends f := rfl
  rw [h, stream_core, core_sends]

theorem Port.sends_out (x : Port) (f : BitVec 544) : (x.sends f).out = some f := rfl

theorem LanesOnly.of_onPort (s : State) (q : Nat) {f g : Port → Port} (h : ∀ x, (g x).core = (f x).core) :
    LanesOnly q (s.onPort q f) (s.onPort q g) :=
  ⟨fun _ _ => rfl, by rw [State.port_onPort, State.port_onPort, h], rfl⟩

theorem sendCodeword_lanes {q : Nat} {s t : State} (h : LanesOnly q s t) (c : BitVec 48) (m : BitVec 5140) : LanesOnly q s (sendCodeword t q c m) := by
  unfold sendCodeword
  extract_lets s1 w pre
  have h1 : LanesOnly q s s1 := h.switchDue false c
  clear_value s1 w pre
  refine h1.onPort _ (fun x => ?_)
  unfold Port.core
  dsimp only

theorem launch_lanes (s : State) (q : Nat) (f : BitVec 544) : LanesOnly q (s.onPort q (fun x => x.sends f)) (launch s q f) := by
  unfold launch
  extract_lets s1
  have h1 : LanesOnly q (s.onPort q (fun x => x.sends f)) s1 := .of_onPort s q (fun x => core_launched x _ f)
  exact foldS_induct (P := LanesOnly q (s.onPort q (fun x => x.sends f))) _ (fun t w _ ht => sendCodeword_lanes ht w.1 w.2) h1

/-- What a launch leaves of the port. -/
theorem launch_proj {α : Type} (s : State) (q : Nat) (f : BitVec 544) (π : Port → α) (hπ : ∀ x, π x.core = π x) :
    π ((launch s q f).port q) = π ((s.port q).sends f) := by
  rw [(launch_lanes s q f).proj π hπ, State.port_onPort]

theorem launch_out (s : State) (q : Nat) (f : BitVec 544) : ((launch s q f).port q).out = some f := by
  rw [launch_proj s q f Port.out (fun _ => rfl), Port.sends_out]

theorem State.rgns_onPort (s : State) (q : Nat) (f : Port → Port) : (s.onPort q f).rgns = s.rgns := rfl

/-- With no lane operation agreed, a launch acts on the port alone. -/
theorem launch_idle {s : State} {q : Nat} (h : (s.port q).agreed = []) (f : BitVec 544) :
    (launch s q f).regs = s.regs ∧ (launch s q f).rgns = s.rgns := by
  have hagreed : ∀ (x : Port) (w : BitVec 48 → Nat), (x.stream w f).agreed = x.agreed := fun x w => by
    unfold Port.stream
    extract_lets bits len m
    split
    · rfl
    · split <;> rfl
  unfold launch
  extract_lets s1
  have h1 : (s1.port q).agreed = [] := by
    unfold s1
    rw [State.port_onPort]
    dsimp only
    rw [hagreed, h]
  suffices hall : ∀ l : List (BitVec 48 × BitVec 5140), (foldS l s1 (fun s w => sendCodeword s q w.1 w.2)).regs = s.regs ∧
      (foldS l s1 (fun s w => sendCodeword s q w.1 w.2)).rgns = s.rgns ∧ ((foldS l s1 (fun s w => sendCodeword s q w.1 w.2)).port q).agreed = [] from
    ⟨(hall _).1, (hall _).2.1⟩
  intro l
  refine foldS_induct (P := fun t => t.regs = s.regs ∧ t.rgns = s.rgns ∧ (t.port q).agreed = []) l (fun t w _ ht => ?_)
    ⟨State.regs_onPort s q _, State.rgns_onPort s q _, h1⟩
  obtain ⟨hregs, hrgns, ha⟩ := ht
  have hdue : switchDue t q false w.1 = t := by
    unfold switchDue
    rw [ha]
    exact List.foldl_nil
  unfold sendCodeword
  rw [hdue]
  refine ⟨hregs, hrgns, ?_⟩
  rw [State.port_onPort]
  exact ha

/-! ### New sequenced frames -/

/-- A packet's frame goes into the replay buffer with the next SEQ. -/
theorem sendPkt_seq {x : Port} {v : Nat} (h : SMap.get [] x.txPkt v ≠ []) (fill : BitVec 512) :
    ∃ typ payload, (x.sendPkt v fill).replay = x.replay ++ [mkFrame typ x.seq.toNat payload] ∧ (x.sendPkt v fill).seq = x.seq + 1 := by
  unfold Port.sendPkt
  extract_lets q
  cases hq : q with
  | nil => exact absurd hq h
  | cons t rest =>
    dsimp only
    split
    · exact ⟨_, _, rfl, rfl⟩
    · exact ⟨_, _, rfl, rfl⟩

theorem launchNew_eq {s : State} {q : Nat} {l : List (BitVec 544)} {f : BitVec 544} (h : (s.port q).replay = l ++ [f]) :
    launchNew s q = launch s q f := by
  unfold launchNew
  rw [h, List.getLast?_concat]

/-- A PKT frame is launched: the port's SEQ, replay buffer and output. -/
theorem sendPktFrame_port {s : State} {q v : Nat} (h : SMap.get [] (s.port q).txPkt v ≠ []) :
    ∃ f, ((sendPktFrame s q v).port q).replay = (s.port q).replay ++ [f] ∧ ((sendPktFrame s q v).port q).out = some f ∧
      ((sendPktFrame s q v).port q).seq = (s.port q).seq + 1 ∧ frameSeq f = (s.port q).seq := by
  unfold sendPktFrame
  split; next fill s1 hpair =>
  have hs1 : s1.port q = s.port q := by 
    have hdraw : (s.draw 512).2 = s1 := congrArg Prod.snd hpair
    rw [← hdraw]; rfl
  obtain ⟨typ, payload, hreplay, hseq⟩ := sendPkt_seq (by rw [hs1]; exact h) fill (x := s1.port q) (v := v)
  have hport : ((s1.onPort q (fun x => x.sendPkt v fill)).port q) = (s1.port q).sendPkt v fill := State.port_onPort s1 q _
  have hnew : ((s1.onPort q (fun x => x.sendPkt v fill)).port q).replay = (s1.port q).replay ++ [mkFrame typ (s1.port q).seq.toNat payload] := by
    rw [hport, hreplay]
  rw [launchNew_eq hnew]
  refine ⟨mkFrame typ (s1.port q).seq.toNat payload, ?_, launch_out _ _ _, ?_, ?_⟩
  · refine (launch_proj _ q _ Port.replay (fun _ => rfl)).trans (hnew.trans ?_)
    rw [hs1]
  · refine (launch_proj _ q _ Port.seq (fun _ => rfl)).trans ?_
    change ((s1.onPort q (fun x => x.sendPkt v fill)).port q).seq = _
    rw [hport, hseq, hs1]
  · rw [frameSeq_of_mkFrame, hs1, BitVec.ofNat_toNat, BitVec.setWidth_eq]

/-! ### Responses to refusals that had waited for a place -/

/-- What the response to a refusal leaves of a port. -/
def Port.sentPart (x : Port) : List (BitVec 544) × BitVec 12 × Option (BitVec 544) := (x.replay, x.seq, x.out)

theorem freeFlits_sentPart (s : State) (q : Nat) (x : Packet) : ((freeFlits s (4 + q) x).port q).sentPart = (s.port q).sentPart := by
  unfold freeFlits
  split
  · rfl
  · rw [Nat.add_sub_cancel_left, State.port_onPort]
    rfl

theorem replyOn_sentPart (s : State) (q : Nat) (x : Packet) : ((replyOn s q x).port q).sentPart = (s.port q).sentPart := by
  unfold replyOn sendOn
  rw [State.port_onPort]
  rfl

theorem State.popNet_port (s : State) (k : Nat) (l : List Packet) (q : Nat) : (s.popNet k l).port q = s.port q := rfl

theorem countRefused_port (s : State) (e : Element) (q : Nat) : (countRefused s e).port q = s.port q := by
  unfold countRefused
  split <;> rfl

theorem refuseHead_sentPart (s : State) (q : Nat) (x : Packet) (rest : List Packet) (c : Nat) :
    ((refuseHead s q x rest c).port q).sentPart = (s.port q).sentPart := by
  unfold refuseHead
  extract_lets s1 s2 s3
  have h1 : (s1.port q).sentPart = (s.port q).sentPart := by
    unfold s1
    rw [freeFlits_sentPart, State.popNet_port]
  have h2 : (s2.port q).sentPart = (s1.port q).sentPart := by
    unfold s2
    rw [State.port_onPort]
    rfl
  have h3 : (s3.port q).sentPart = (s.port q).sentPart := by
    unfold s3
    rw [replyOn_sentPart, h2, h1]
  split
  · rw [State.bump_port, h3]
  · rw [countRefused_port, h3]

theorem settleDue_sentPart (s : State) (q : Nat) : ((settleDue s q).port q).sentPart = (s.port q).sentPart := by
  unfold settleDue
  refine foldS_induct (P := fun t => (t.port q).sentPart = (s.port q).sentPart) _ (fun t v _ ht => ?_) rfl
  split
  · exact ht
  · split
    · split
      · exact ht
      · rw [refuseHead_sentPart, ht]
    · exact ht

/-- A PKT frame that is ready has a packet. -/
theorem readyFrame_pkt {s : State} {q v : Nat} (h : readyFrame s q = .pkt v) : SMap.get [] (s.port q).txPkt v ≠ [] := by
  have hready : (s.port q).pktReady v = true := by
    unfold readyFrame at h
    extract_lets x room sched ctrl tick pkt replay order at h
    have hmem : Ready.pkt v ∈ order := by
      cases ho : order with
      | nil => rw [ho] at h; exact absurd h (by simp)
      | cons r l => rw [ho] at h; rw [← h]; exact List.mem_cons_self
    have hpkt : Ready.pkt v ∈ pkt := by
      have hs : Ready.pkt v ∉ sched := by unfold sched; split <;> simp
      have hc : Ready.pkt v ∉ ctrl := by unfold ctrl; split <;> simp
      have ht : Ready.pkt v ∉ tick := by unfold tick; split <;> simp
      have hr : Ready.pkt v ∉ replay := by unfold replay; split <;> simp
      unfold order at hmem
      split at hmem <;> simp only [List.mem_append, hs, hc, ht, hr, false_or, or_false] at hmem <;> exact hmem
    unfold pkt at hpkt
    split at hpkt
    · next u hu =>
      obtain rfl : v = u := by simpa using hpkt
      split at hu
      · exact (List.find?_some hu)
      · exact absurd hu (by simp)
    · exact absurd hpkt List.not_mem_nil
  intro hnil
  unfold Port.pktReady at hready
  rw [hnil] at hready
  exact Bool.noConfusion hready

end Sys2Proof.Machine
end

section
/-! PROOFS. FRAME_SEND and REPLAY_TIMEOUT, and the statement on frames and replay (R281–R287, R291, R292, R301, R302). -/

namespace Sys2Proof.Machine

/-! ### FRAME_SEND of a port that is UP (R292) -/

variable {p : PortNo} {since a b : Word} {s : State}

/-- The port after a frame position. -/
theorem nextPosition_port (s : State) (q : Nat) :
    (nextPosition s q).port q = { s.port q with pos := (s.port q).pos + 1, sinceCtrl := if (s.port q).sinceCtrl.toNat < 256 then (s.port q).sinceCtrl + 1 else (s.port q).sinceCtrl } :=
  State.port_onPort s q _

theorem exec_frameSend (hlink : s.link p.val = 5) (hready : readyFrame s p.val ≠ .ctrl) (w : FrameWaits) :
    exec (.frameSend p since w) s = .next (nextPosition (sendReady s p.val since w) p.val) := by
  change execFrameSend p since w s = _
  unfold execFrameSend
  dsimp only
  rw [hlink]
  exact congrArg Host.Outcome.next (if_neg hready)

theorem exec_frameSend_ctrl (hlink : s.link p.val = 5) (hready : readyFrame s p.val = .ctrl) (w : FrameWaits) :
    exec (.frameSend p since w) s = .next ((sendCtrl s p.val false since).onPort p.val (fun x => { x with pos := x.pos + 1 })) := by
  change execFrameSend p since w s = _
  unfold execFrameSend sendReady
  dsimp only
  rw [hlink, hready]
  exact congrArg Host.Outcome.next (if_pos rfl)

theorem Port.sends_rest (x : Port) (f : BitVec 544) : (x.sends f).pos = x.pos ∧ (x.sends f).seq = x.seq ∧ (x.sends f).replay = x.replay ∧
    (x.sends f).readAt = x.readAt := ⟨rfl, rfl, rfl, rfl⟩

theorem launch_rest (s : State) (q : Nat) (f : BitVec 544) : ((launch s q f).port q).pos = (s.port q).pos ∧
    ((launch s q f).port q).seq = (s.port q).seq ∧ ((launch s q f).port q).replay = (s.port q).replay := by
  rw [launch_proj s q f Port.pos (fun _ => rfl), launch_proj s q f Port.seq (fun _ => rfl), launch_proj s q f Port.replay (fun _ => rfl)]
  exact ⟨(Port.sends_rest _ f).1, (Port.sends_rest _ f).2.1, (Port.sends_rest _ f).2.2.1⟩

theorem frameSend_idle (hlink : s.link p.val = 5) (hready : readyFrame s p.val = .idle) (hagreed : (s.port p.val).agreed = []) (w : FrameWaits) :
    Completes (.frameSend p since w) s (fun t => (t.port p.val).out = some (mkFrame 1 0 0) ∧ (t.port p.val).pos = (s.port p.val).pos + 1 ∧
      (t.port p.val).seq = (s.port p.val).seq ∧ t.regs = s.regs ∧ t.rgns = s.rgns) := by
  have hsend : sendReady s p.val since w = launch s p.val (mkFrame 1 0 0) := by unfold sendReady; rw [hready]
  obtain ⟨hpos, hseq, -⟩ := launch_rest s p.val (mkFrame 1 0 0)
  obtain ⟨hregs, hrgns⟩ := launch_idle hagreed (mkFrame 1 0 0)
  refine .of_eq _ (exec_frameSend hlink (by rw [hready]; decide) w) ?_
  rw [hsend, nextPosition_port]
  dsimp only
  refine ⟨launch_out _ _ _, by rw [hpos], hseq, ?_, ?_⟩
  · exact (State.regs_onPort _ _ _).trans hregs
  · exact (State.rgns_onPort _ _ _).trans hrgns

theorem frameSend_replay (hlink : s.link p.val = 5) (hready : readyFrame s p.val = .replay) (w : FrameWaits) :
    Completes (.frameSend p since w) s (fun t => (t.port p.val).out = some ((s.port p.val).replay.getD (s.port p.val).readAt 0) ∧
      (t.port p.val).readAt = (s.port p.val).readAt + 1 ∧ (t.port p.val).replay = (s.port p.val).replay ∧ (t.port p.val).seq = (s.port p.val).seq) := by
  have hsend : sendReady s p.val since w = resend s p.val := by unfold sendReady; rw [hready]
  obtain ⟨-, hseq, hreplay⟩ := launch_rest s p.val ((s.port p.val).replay.getD (s.port p.val).readAt 0)
  have hout := launch_out s p.val ((s.port p.val).replay.getD (s.port p.val).readAt 0)
  refine .of_eq _ (exec_frameSend hlink (by rw [hready]; decide) w) ?_
  rw [hsend, nextPosition_port]
  unfold resend
  rw [State.port_onPort]
  dsimp only
  exact ⟨hout, rfl, hreplay, hseq⟩

theorem frameSend_pkt {v : Nat} (hlink : s.link p.val = 5) (hready : readyFrame s p.val = .pkt v) (w : FrameWaits) :
    Completes (.frameSend p since w) s (fun t => (t.port p.val).seq = (s.port p.val).seq + 1 ∧
      ∃ f, (t.port p.val).replay = (s.port p.val).replay ++ [f] ∧ (t.port p.val).out = some f ∧ frameSeq f = (s.port p.val).seq) := by
  have hsend : sendReady s p.val since w = settleDue ((sendPktFrame s p.val v).bump (F.LNK_TX_WAIT_NS p.val) w.tx.toNat) p.val := by
    unfold sendReady; rw [hready]
  obtain ⟨f, hreplay, hout, hseq, hframe⟩ := sendPktFrame_port (readyFrame_pkt hready)
  have hsettled := settleDue_sentPart ((sendPktFrame s p.val v).bump (F.LNK_TX_WAIT_NS p.val) w.tx.toNat) p.val
  rw [State.bump_port] at hsettled
  simp only [Port.sentPart, Prod.mk.injEq] at hsettled
  obtain ⟨hr, hs, ho⟩ := hsettled
  refine .of_eq _ (exec_frameSend hlink (by rw [hready]; simp) w) ?_
  rw [hsend, nextPosition_port]
  dsimp only
  exact ⟨hs.trans hseq, f, hr.trans hreplay, ho.trans hout, hframe⟩

theorem frameSend_ctrl (hlink : s.link p.val = 5) (hready : readyFrame s p.val = .ctrl) (w : FrameWaits) :
    Completes (.frameSend p since w) s (fun t => (t.port p.val).out = some (mkFrame 4 0 (ctrlPayload (s.port p.val) false (s.timer since))) ∧
      (t.port p.val).nakDue = false ∧ (t.port p.val).sinceCtrl = 0 ∧ (t.port p.val).pos = (s.port p.val).pos + 1) := by
  refine .of_eq _ (exec_frameSend_ctrl hlink hready w) ?_
  rw [State.port_onPort]
  unfold sendCtrl
  extract_lets ts s1 s2
  have h1 : s1.port p.val = s.port p.val := by
    unfold s1
    split
    · exact State.bump_port _ _ _ _
    · rfl
  obtain ⟨hpos, -, -⟩ := launch_rest s1 p.val (mkFrame 4 0 (ctrlPayload (s1.port p.val) false ts))
  have hout := launch_out s1 p.val (mkFrame 4 0 (ctrlPayload (s1.port p.val) false ts))
  rw [State.port_onPort]
  dsimp only
  rw [hout, hpos, h1]
  exact ⟨rfl, rfl, rfl, rfl⟩

theorem frameSend_tick (hlink : s.link p.val = 5) (hready : readyFrame s p.val = .tick) (w : FrameWaits) :
    Completes (.frameSend p since w) s (fun t => (t.port p.val).out = some (mkFrame 3 0 (tickPayload s since)) ∧ (t.port p.val).tick = false) := by
  have hsend : sendReady s p.val since w = (launch s p.val (mkFrame 3 0 (tickPayload s since))).onPort p.val (fun x => { x with tick := false }) := by
    unfold sendReady; rw [hready]
  have hout := launch_out s p.val (mkFrame 3 0 (tickPayload s since))
  refine .of_eq _ (exec_frameSend hlink (by rw [hready]; decide) w) ?_
  rw [hsend, nextPosition_port, State.port_onPort]
  dsimp only
  exact ⟨hout, rfl⟩

/-! ### REPLAY_TIMEOUT (R287) -/

theorem replayTimeout_rewinds (hlink : s.link p.val = 5) (hreplay : (s.port p.val).replay ≠ [])
    (htries : (s.port p.val).tries.toNat < s.f (F.LNK_CTRL_REPLAY_LIMIT p.val)) :
    Completes (.replayTimeout p) s (fun t => (t.port p.val).readAt = 0 ∧ (t.port p.val).replay = (s.port p.val).replay ∧
      (t.port p.val).tries = (s.port p.val).tries + 1 ∧ t.link p.val = 5) := by
  have hp := p.isLt
  have hgo : ¬ (s.link p.val ≠ 5 ∨ (s.port p.val).replay = []) := by rintro (h | h); exacts [h hlink, hreplay h]
  refine .of_eq (rewindPort ((s.onPort p.val (fun x => { x with tries := x.tries + 1 })).bump (F.LNK_REPLAY_TO_TIMEOUTS p.val) 1) p.val none)
    (congrArg Host.Outcome.next ((if_neg hgo).trans (if_neg (by omega)))) ?_
  unfold rewindPort
  rw [State.bump_port, State.port_onPort, State.bump_port, State.port_onPort]
  dsimp only
  refine ⟨rfl, rfl, rfl, ?_⟩
  rw [State.link, State.f_bump_other _ _ _ _ (by simp) (.inl (by dsimp only; omega)), State.f_onPort,
    State.f_bump_other _ _ _ _ (by simp) (.inl (by dsimp only; omega)), State.f_onPort]
  exact hlink

theorem replayTimeout_retrains (hlink : s.link p.val = 5) (hreplay : (s.port p.val).replay ≠ [])
    (htries : max 1 (s.f (F.LNK_CTRL_REPLAY_LIMIT p.val)) ≤ (s.port p.val).tries.toNat) (hen : s.f (F.LNK_CTRL_EN p.val) = 1) :
    Completes (.replayTimeout p) s (fun t => t.link p.val = 1 ∧ (t.port p.val).replay = (s.port p.val).replay ∧ (t.port p.val).keep = true) := by
  have hp := p.isLt
  have hgo : ¬ (s.link p.val ≠ 5 ∨ (s.port p.val).replay = []) := by rintro (h | h); exacts [h hlink, hreplay h]
  refine .of_eq (beginTraining ((s.onPort p.val (fun x => { x with tries := 0 })).bump (F.LNK_REPLAY_TO_RETRAINS p.val) 1) p.val)
    (congrArg Host.Outcome.next ((if_neg hgo).trans (if_pos htries))) ?_
  have hport : ((s.onPort p.val (fun x => { x with tries := 0 })).bump (F.LNK_REPLAY_TO_RETRAINS p.val) 1).port p.val =
      { s.port p.val with tries := 0 } := by rw [State.bump_port, State.port_onPort]
  have hf : ∀ g : Fld, g.off < 0x70020 + 4096 * p.val →
      ((s.onPort p.val (fun x => { x with tries := 0 })).bump (F.LNK_REPLAY_TO_RETRAINS p.val) 1).f g = s.f g := fun g hg => by
    rw [State.f_bump_other _ _ _ _ (by simp) (.inl (by dsimp only; omega)), State.f_onPort]
  generalize (s.onPort p.val (fun x => { x with tries := 0 })).bump (F.LNK_REPLAY_TO_RETRAINS p.val) 1 = u at hport hf ⊢
  have hen' : u.f (F.LNK_CTRL_EN p.val) = 1 := (hf _ (by dsimp only; omega)).trans hen
  have hlink' : u.link p.val = 5 := (hf _ (by dsimp only; omega)).trans hlink
  refine ⟨beginTraining_link hp hen' (by rw [hlink']; decide), ?_, ?_⟩
  · rw [beginTraining_eq hen' (by rw [hlink']; decide), State.bump_port, setLink_port, State.port_onPort, hport]
    rfl
  · rw [beginTraining_eq hen' (by rw [hlink']; decide), State.bump_port, setLink_port, State.port_onPort, hport, hlink']
    unfold Port.leave
    simp

/-! ### TICK_FRAME_SEND (R301) -/

/-- A port of RELAY_EN at its interval has a TICK frame to send. -/
def tickDue (s : State) (q : Nat) : State :=
  if (s.f F.MER_CTRL_RELAY_EN).testBit q ∧ s.link q = 5 ∧ s.mer.tick.toNat % s.tickInterval q = 0 then
    s.onPort q (fun x => { x with tick := true })
  else s

theorem exec_tickFrameSend (s : State) : exec (.tickFrameSend s.mer.tick) s = .next (foldS (List.range 6) s tickDue) :=
  congrArg Host.Outcome.next (if_neg (not_not.mpr rfl))

/-- What decides on TICK frames. -/
def TickView (s t : State) : Prop := t.regs = s.regs ∧ t.rgns = s.rgns ∧ t.mer = s.mer

theorem tickDue_view {s t : State} (h : TickView s t) (q : Nat) : TickView s (tickDue t q) := by
  unfold tickDue
  split
  · exact h
  · exact h

theorem tickDue_same {s t : State} (h : TickView s t) {q : Nat} (hrelay : (s.f F.MER_CTRL_RELAY_EN).testBit q = true) (hlink : s.link q = 5)
    (hat : s.mer.tick.toNat % s.tickInterval q = 0) : ((tickDue t q).port q).tick = true := by
  obtain ⟨hregs, -, hmer⟩ := h
  unfold tickDue State.link State.tickInterval
  rw [if_pos ⟨by rw [State.f_of_regs hregs]; exact hrelay, by rw [State.f_of_regs hregs]; exact hlink,
    by rw [State.f_of_regs hregs, hmer]; exact hat⟩, State.port_onPort]

theorem State.port_onPort_ne (s : State) {q r : Nat} (h : r ≠ q) (f : Port → Port) : (s.onPort q f).port r = s.port r :=
  SMap.get_set_ne _ _ _ h

theorem tickDue_keeps {t : State} {q : Nat} (h : (t.port q).tick = true) (r : Nat) : ((tickDue t r).port q).tick = true := by
  unfold tickDue
  split
  · by_cases hr : q = r
    · subst hr; rw [State.port_onPort]
    · rw [State.port_onPort_ne _ hr, h]
  · exact h

/-! ### Frames out of sequence (R285) -/

theorem inSequence_behind {s : State} {q : Nat} {f : BitVec 544} (hlink : s.link q = 5) (hseq : 2048 ≤ (frameSeq f - (s.port q).exp).toNat)
    (use : State → State) : inSequence s q f use = s := by
  have hne : frameSeq f ≠ (s.port q).exp := fun he => by rw [he, BitVec.sub_self] at hseq; exact absurd hseq (by decide)
  unfold inSequence
  exact (if_neg (not_not.mpr hlink)).trans ((if_neg hne).trans (if_neg (by omega)))

theorem inSequence_ahead {s : State} {q : Nat} {f : BitVec 544} (hlink : s.link q = 5) (hne : frameSeq f ≠ (s.port q).exp)
    (hseq : (frameSeq f - (s.port q).exp).toNat < 2048) (use : State → State) :
    inSequence s q f use = badFrame (s.bump (F.LNK_FEC_UE_CRC_FAIL q) 1) q := by
  unfold inSequence
  exact (if_neg (not_not.mpr hlink)).trans ((if_neg hne).trans (if_pos hseq))

/-- Settles O39. -/
theorem framesAndReplay : Obligations.FramesAndReplay := by
  unfold Obligations.FramesAndReplay
  refine ⟨?idle, ?wrong, ?lost, ?sched, ?behind, ?ahead, ?mapped, ?packet, ?poison, ?ctrl, ?delay, ?none, ?replay, ?pkt, ?sendCtrl, ?sendTick,
    ?rewind, ?retrain, ?tick⟩
  case idle =>
    intro p f s h hagreed
    refine .of_eq (receive s p.val f [] [1] id) rfl ?_
    rw [receive_sound h rfl List.mem_cons_self id, id, hearFrame_idle hagreed]
  case wrong =>
    rintro p f k s ⟨h, hk⟩
    have hp := p.isLt
    refine .of_eq _ (congrArg Host.Outcome.next (receive_corrected h rfl List.mem_cons_self hk id)) ?_
    have hcount : (hearFrame s p.val).f (F.LNK_FEC_CORR_SYM p.val) = s.f (F.LNK_FEC_CORR_SYM p.val) :=
      (hearFrame_lanes s p.val).fields _ ⟨by dsimp only; omega, by dsimp only; omega, fun h => by unfold R.LNK_STATUS at h; dsimp only at h; omega,
        by unfold R.LNK_LANE_EVENTS; dsimp only; omega, fun l _ => by unfold R.LNK_LANE; dsimp only; omega⟩
    rw [id, corrected_corrSym _ hp, hcount]
  case lost =>
    rintro p f cw s ⟨hlink, hnak⟩ hcw
    have hp := p.isLt
    have hl := hearFrame_lanes s p.val
    refine .of_eq _ (congrArg Host.Outcome.next (receive_uncorrectable hlink hcw f _ _)) ?_
    have hnote : ∀ t : State, Swept t (t.noteFault 16 4 (faultKey [(p.val, 3)])) := fun t => (Swept.refl t).noteFault _ (by decide) (by decide)
    have hport : ((((hearFrame s p.val).bump (F.LNK_FEC_UE_UNCORR_CW p.val) 1).noteFault 16 4 (faultKey [(p.val, 3)])).port p.val) =
        (hearFrame s p.val).port p.val := by
      unfold State.port
      rw [(hnote _).ports, State.bump_ports]
    have hcount : (hearFrame s p.val).f (F.LNK_FEC_UE_UNCORR_CW p.val) = s.f (F.LNK_FEC_UE_UNCORR_CW p.val) :=
      hl.fields _ ⟨by dsimp only; omega, by dsimp only; omega, fun h => by unfold R.LNK_STATUS at h; dsimp only at h; omega,
        by unfold R.LNK_LANE_EVENTS; dsimp only; omega, fun l _ => by unfold R.LNK_LANE; dsimp only; omega⟩
    rw [badFrame_port (by rw [hport, hl.core_nakOut]; exact hnak), badFrame_f, hport, (hnote _).fields _ (by unfold sweepKeeps; dsimp only; omega),
      State.f_bump_eq _ _ _ (by simp), hcount]
    dsimp only
    exact ⟨rfl, rfl, hl.core_exp, rfl⟩
  case sched =>
    rintro p f s ⟨h, hseq⟩
    exact sched_port h hseq
  case behind =>
    rintro p f s ⟨h, hseq⟩ hagreed
    have hl := hearFrame_lanes s p.val
    refine .of_eq (hearFrame s p.val) (congrArg Host.Outcome.next ((receive_sound h rfl List.mem_cons_self _).trans ?_)) (hearFrame_idle hagreed)
    exact inSequence_behind ((hl.link p.isLt).trans h.1) (by rw [hl.core_exp]; exact hseq) _
  case ahead =>
    rintro p f s ⟨h, hne, hseq⟩ hnak
    have hp := p.isLt
    have hl := hearFrame_lanes s p.val
    have hcount : (hearFrame s p.val).f (F.LNK_FEC_UE_CRC_FAIL p.val) = s.f (F.LNK_FEC_UE_CRC_FAIL p.val) :=
      hl.fields _ ⟨by dsimp only; omega, by dsimp only; omega, fun h => by unfold R.LNK_STATUS at h; dsimp only at h; omega,
        by unfold R.LNK_LANE_EVENTS; dsimp only; omega, fun l _ => by unfold R.LNK_LANE; dsimp only; omega⟩
    refine .of_eq (badFrame ((hearFrame s p.val).bump (F.LNK_FEC_UE_CRC_FAIL p.val) 1) p.val)
      (congrArg Host.Outcome.next ((receive_sound h rfl List.mem_cons_self _).trans ?_)) ?_
    · exact inSequence_ahead ((hl.link p.isLt).trans h.1) (by rw [hl.core_exp]; exact hne) (by rw [hl.core_exp]; exact hseq) _
    · rw [badFrame_port (by rw [State.bump_port, hl.core_nakOut]; exact hnak), badFrame_f, State.bump_port, State.f_bump_eq _ _ _ (by simp), hcount]
      dsimp only
      exact ⟨rfl, hl.core_exp, rfl⟩
  case mapped =>
    rintro p f w s ⟨h, hseq⟩ ⟨hvalid, hclean, hlone⟩ ⟨hw, hmapped⟩ hdest
    exact sched_mapped h hseq hvalid hclean hlone hw hmapped hdest
  case packet =>
    rintro p f v h s ⟨hf, hseq⟩ ⟨hh, hcmd, hpad⟩ ⟨hrx, hring, hhere, hopen⟩
    exact pktFrame_read hf hseq hh hcmd hpad hrx hring hhere hopen
  case poison =>
    rintro p f v r s ⟨hf, hseq⟩ ⟨hrx, hleft⟩
    exact pktPoison_mid hf hseq hrx hleft
  case ctrl =>
    rintro p f since s ⟨h, hnak, hack, hop⟩
    exact ctrl_credits h hnak hack hop
  case delay =>
    rintro p f since t1 s h ⟨ht1, hmem, hfirst⟩ hsmall
    exact ctrl_delay h ht1 hmem hfirst hsmall
  case none =>
    rintro p since a b s ⟨hlink, hready, hagreed⟩
    exact frameSend_idle hlink hready hagreed _
  case replay =>
    rintro p since a b s ⟨hlink, hready⟩
    exact frameSend_replay hlink hready _
  case pkt =>
    rintro p since a b v s ⟨hlink, hready⟩
    exact frameSend_pkt hlink hready _
  case sendCtrl =>
    rintro p since a b s ⟨hlink, hready⟩
    exact frameSend_ctrl hlink hready _
  case sendTick =>
    rintro p since a b s ⟨hlink, hready⟩
    exact frameSend_tick hlink hready _
  case rewind =>
    rintro p s ⟨hlink, hreplay, htries⟩
    exact replayTimeout_rewinds hlink hreplay htries
  case retrain =>
    rintro p s ⟨hlink, hreplay, htries, hen⟩
    exact replayTimeout_retrains hlink hreplay htries hen
  case tick =>
    rintro p s ⟨hrelay, hlink, hat⟩
    obtain ⟨hregs, hrgns, -⟩ : TickView s (foldS (List.range 6) s tickDue) :=
      foldS_induct (P := TickView s) (f := tickDue) _ (fun t q _ ht => tickDue_view ht q) ⟨rfl, rfl, rfl⟩
    refine .of_eq _ (exec_tickFrameSend s) ⟨?_, hregs, hrgns⟩
    exact foldl_reaches_from (Q := TickView s) (P := fun t => (t.port p.val).tick = true) (f := tickDue) (List.mem_range.mpr p.isLt)
      (fun t q ht => tickDue_view ht q) (fun t ht => tickDue_same ht hrelay hlink hat) (fun t q ht => tickDue_keeps ht q) ⟨rfl, rfl, rfl⟩

end Sys2Proof.Machine
end

section
/-! PROOFS. Broadcasts: what a flood leaves, FABRIC_RESET, and a START that arrives in time (R210, R211, R320, R321). -/

namespace Sys2Proof.Machine

/-! ### A flood -/

/-- What the sending of broadcasts leaves. -/
def Sent (s t : State) : Prop :=
  (t.regs, t.rgns, t.jobs, t.mer, t.fab, t.arrived) = (s.regs, s.rgns, s.jobs, s.mer, s.fab, s.arrived)

theorem sendOn_sent (s : State) (q : Nat) (x : Packet) (own : Bool) : Sent s (sendOn s q x own) := rfl

theorem flood_sent (s : State) (x : Packet) (skip : Option Nat) : Sent s (flood s x skip).1 := by
  unfold flood
  extract_lets ports
  refine foldS_induct (P := Sent s) ports (fun t q _ ht => ?_) rfl
  exact (sendOn_sent t q _ false).trans ht

theorem broadcastOf_sent (s : State) (cmd : BitVec 6) (flit : Flit) : Sent s (broadcastOf s cmd flit).1 := rfl

namespace Sent

variable {s t : State}

theorem regs (h : Sent s t) : t.regs = s.regs := congrArg (fun x => x.1) h
theorem rgns (h : Sent s t) : t.rgns = s.rgns := congrArg (fun x => x.2.1) h
theorem jobs (h : Sent s t) : t.jobs = s.jobs := congrArg (fun x => x.2.2.1) h
theorem mer (h : Sent s t) : t.mer = s.mer := congrArg (fun x => x.2.2.2.1) h
theorem fab (h : Sent s t) : t.fab = s.fab := congrArg (fun x => x.2.2.2.2.1) h
theorem arrived (h : Sent s t) : t.arrived = s.arrived := congrArg (fun x => x.2.2.2.2.2) h

end Sent

/-! ### A START in time (R210) -/

/-- What a START of a job asks of the package. -/
structure Startable (s : State) (j : Job) (tick : BitVec 48) : Prop where
  any : s.jobRegions j ≠ []
  armed : ∀ rg ∈ s.jobRegions j, s.rf rg F.FIX_STATUS_STATE = 1
  user : s.f F.CFG_STATUS_STATE = 4
  early : tickLe tick s.mer.tick = false
  aligned : 3 ≤ s.f F.MER_STATUS_STATE
  ticks : s.f (F.MER_FIX_TICKS_TICKS j.toNat) ≠ 0
  sound : s.f (F.MER_JOB_CTRL_FAILED j.toNat) = 0

theorem Startable.of_inTime {s : State} {j : Job} {tick : BitVec 48} (h : StartInTime s j tick) : Startable s j tick := by
  obtain ⟨hany, huser, harmed, hearly, haligned, hticks, hsound⟩ := h
  exact ⟨hany, fun rg hrg => (harmed rg hrg).1, huser, hearly, haligned, hticks, hsound⟩

theorem State.jobRegions_of_rgns {s t : State} (h : t.rgns = s.rgns) (j : Job) : t.jobRegions j = s.jobRegions j := by
  have hjob : ∀ rg, t.jobOf rg = s.jobOf rg := fun rg => by
    unfold State.jobOf State.rbit State.rf State.rgn
    rw [h]
  unfold State.jobRegions
  simp only [hjob]

theorem Startable.of_view {s t : State} {j : Job} {tick : BitVec 48} (h : Startable s j tick) (hrgns : t.rgns = s.rgns) (hmer : t.mer = s.mer)
    (hreg : ∀ a, a = R.CFG_STATUS ∨ 0x50000 ≤ a ∧ a < 0x52000 → t.reg a = s.reg a) : Startable t j tick := by
  have hj := j.isLt
  have hf : ∀ g : Fld, g.off = R.CFG_STATUS ∨ 0x50000 ≤ g.off ∧ g.off < 0x52000 → t.f g = s.f g := fun g hg => by
    unfold State.f; rw [hreg _ hg]
  have hregions := State.jobRegions_of_rgns hrgns j
  refine ⟨by rw [hregions]; exact h.any, fun rg hrg => ?_, ?_, by rw [hmer]; exact h.early, ?_, ?_, ?_⟩
  · rw [hregions] at hrg
    unfold State.rf State.rgn
    rw [hrgns]
    exact h.armed rg hrg
  · rw [hf _ (.inl rfl)]; exact h.user
  · rw [hf _ (.inr ⟨by decide, by decide⟩)]; exact h.aligned
  · rw [hf _ (.inr ⟨by dsimp only; omega, by dsimp only; omega⟩)]; exact h.ticks
  · rw [hf _ (.inr ⟨by dsimp only; omega, by dsimp only; omega⟩)]; exact h.sound

/-- The checks of dirty regions begin; no job, register or record of STARTs changes. -/
theorem startChecks_leaves (s : State) (j : Job) : (startChecks s j).jobs = s.jobs ∧ (startChecks s j).regs = s.regs ∧ (startChecks s j).fab = s.fab := by
  unfold startChecks
  refine foldS_induct (P := fun t => t.jobs = s.jobs ∧ t.regs = s.regs ∧ t.fab = s.fab) _ (fun t rg _ ht => ?_) ⟨rfl, rfl, rfl⟩
  split
  · exact ht
  · exact ht

theorem startChecks_job (s : State) (j k : Job) : (startChecks s j).job k = s.job k := by
  unfold State.job
  rw [(startChecks_leaves s j).1]

theorem State.job_setJob (s : State) (j : Job) (x : JobState) : (s.setJob j x).job j = x := SMap.get_set_same _ _ _ _

theorem applyStart_startable {s : State} {j : Job} {tick : BitVec 48} (h : Startable s j tick) :
    applyStart s j tick = startChecks (s.setJob j { s.job j with start := some tick }) j := by
  obtain ⟨hany, harmed, huser, hearly, haligned, hticks, hsound⟩ := h
  have hall : (s.jobRegions j).all (fun rg => decide (s.rf rg F.FIX_STATUS_STATE = 1)) = true :=
    List.all_eq_true.mpr (fun rg hrg => decide_eq_true (harmed rg hrg))
  have hsome : (s.jobRegions j).any (fun rg => decide (s.rf rg F.FIX_STATUS_STATE = 1)) = true := by
    obtain ⟨rg, hrg⟩ := List.exists_mem_of_ne_nil _ hany
    exact List.any_eq_true.mpr ⟨rg, hrg, decide_eq_true (harmed rg hrg)⟩
  unfold applyStart
  dsimp only
  rw [if_neg (not_not.mpr huser), hsome, hall, if_neg (by unfold State.bit; rw [hsound]; decide), if_neg (by decide), hearly, if_neg (by decide),
    if_neg (by omega)]

theorem applyStart_leaves {s : State} {j : Job} {tick : BitVec 48} (h : Startable s j tick) :
    ((applyStart s j tick).job j).start = some tick ∧ (applyStart s j tick).regs = s.regs ∧ (applyStart s j tick).fab = s.fab := by
  rw [applyStart_startable h]
  obtain ⟨-, hregs, hfab⟩ := startChecks_leaves (s.setJob j { s.job j with start := some tick }) j
  refine ⟨?_, hregs, hfab⟩
  rw [startChecks_job, State.job_setJob]

/-! ### Broadcasts taken (R320, R321) -/

theorem rememberStart_mem (s : State) (key : BitVec 128) : key ∈ (rememberStart s key).fab.starts := by
  unfold rememberStart
  dsimp only
  rw [List.length_append, List.length_singleton, List.drop_append_of_le_length (by omega)]
  exact List.mem_append_right _ List.mem_cons_self

variable {s : State}

/-- A START that is new, from a port that broadcasts are taken from. -/
theorem exec_start_new {x : Packet} {port : PortNo} (hlink : s.link port.val = 5) (hsweep : s.f F.FAB_STATUS_SWEEP = 1)
    (hport : controlPort s port.val = true) (hsrc : nodeCoord x.src = 0) (hpoison : x.poison = 0)
    (hnew : ((bitsAt (x.data.getD 0 0) 0 55 : BitVec 55).zeroExtend 128 : BitVec 128) ∉ s.fab.starts) :
    exec (.start x port) s = .next (
      let r := flood (rememberStart { s with arrived := s.arrived.erase x } ((bitsAt (x.data.getD 0 0) 0 55 : BitVec 55).zeroExtend 128)) x (some port.val)
      applyStarts (r.1.bump F.FAB_BCAST_RELAYED r.2) (bitsAt (x.data.getD 0 0) 0 48) (bitsAt (x.data.getD 0 0) 48 6) ((x.data.getD 0 0).getLsbD 54)) := by
  have hctrl : ¬ (¬ controlPort { s with arrived := s.arrived.erase x } port.val = true ∨ nodeCoord x.src ≠ 0 ∨ x.poison ≠ 0) := by
    rintro (h | h | h)
    exacts [h hport, h hsrc, h hpoison]
  exact congrArg Host.Outcome.next ((if_neg (not_not.mpr hlink)).trans ((if_neg (not_not.mpr hsweep)).trans ((if_neg hctrl).trans (if_neg hnew))))

theorem start_taken {x : Packet} {port : PortNo} {j : Job} (hlink : s.link port.val = 5) (hsweep : s.f F.FAB_STATUS_SWEEP = 1)
    (hport : controlPort s port.val = true) (hsrc : nodeCoord x.src = 0) (hpoison : x.poison = 0)
    (hnew : ((bitsAt (x.data.getD 0 0) 0 55 : BitVec 55).zeroExtend 128 : BitVec 128) ∉ s.fab.starts)
    (hone : (x.data.getD 0 0).getLsbD 54 = false) (hjob : bitsAt (x.data.getD 0 0) 48 6 = j)
    (htime : StartInTime s j (bitsAt (x.data.getD 0 0) 0 48)) :
    Completes (.start x port) s (fun t => (t.job j).start = some (bitsAt (x.data.getD 0 0) 0 48) ∧
      (bitsAt (x.data.getD 0 0) 0 55 : BitVec 55).zeroExtend 128 ∈ t.fab.starts) := by
  refine .of_eq _ (exec_start_new hlink hsweep hport hsrc hpoison hnew) ?_
  have hmem := rememberStart_mem { s with arrived := s.arrived.erase x } ((bitsAt (x.data.getD 0 0) 0 55 : BitVec 55).zeroExtend 128)
  have hstate : ∀ key, (rememberStart { s with arrived := s.arrived.erase x } key).regs = s.regs ∧
      (rememberStart { s with arrived := s.arrived.erase x } key).rgns = s.rgns ∧
      (rememberStart { s with arrived := s.arrived.erase x } key).mer = s.mer := fun _ => ⟨rfl, rfl, rfl⟩
  obtain ⟨hregs, hrgns, hmer⟩ := hstate ((bitsAt (x.data.getD 0 0) 0 55 : BitVec 55).zeroExtend 128)
  generalize rememberStart { s with arrived := s.arrived.erase x } ((bitsAt (x.data.getD 0 0) 0 55 : BitVec 55).zeroExtend 128) = s1 at *
  have hsent := flood_sent s1 x (some port.val)
  generalize flood s1 x (some port.val) = r at hsent ⊢
  have hready : Startable (r.1.bump F.FAB_BCAST_RELAYED r.2) j (bitsAt (x.data.getD 0 0) 0 48) := by
    refine (Startable.of_inTime htime).of_view (hsent.rgns.trans hrgns) (hsent.mer.trans hmer) (fun a ha => ?_)
    rw [State.reg_bump_other _ _ _ (by unfold R.CFG_STATUS at ha; dsimp only; omega)]
    unfold State.reg
    rw [hsent.regs, hregs]
  obtain ⟨hjobStart, -, hfab⟩ := applyStart_leaves hready
  dsimp only
  rw [hone, hjob]
  refine ⟨hjobStart, ?_⟩
  change _ ∈ (applyStart (r.1.bump F.FAB_BCAST_RELAYED r.2) j (bitsAt (x.data.getD 0 0) 0 48)).fab.starts
  rw [hfab, State.bump_fab, hsent.fab]
  exact hmem

end Sys2Proof.Machine
end

section
/-! PROOFS. DISCOVERs, the sweep and its settling, and the statement on them (R308–R314, R321). -/

namespace Sys2Proof.Machine

theorem State.reg_toNat_eq_f (s : State) (a : Nat) : (s.reg a).toNat = s.f ⟨a, 0, 32⟩ := by
  unfold State.f Fld.of
  rw [Nat.pow_zero, Nat.div_one]
  exact (Nat.mod_eq_of_lt (s.reg a).isLt).symm

theorem State.reg_of_f {s t : State} {a : Nat} (h : t.f ⟨a, 0, 32⟩ = s.f ⟨a, 0, 32⟩) : t.reg a = s.reg a :=
  BitVec.eq_of_toNat_eq (by rw [State.reg_toNat_eq_f, State.reg_toNat_eq_f, h])

/-! ### A lodestar is adopted (R311) -/

/-- The adopted lodestar's unique ID is written. -/
def namedLode (s : State) (uid : BitVec 64) : State := (s.setReg R.FAB_LUID_LO (bitsAt uid 0 32)).setReg R.FAB_LUID_HI (bitsAt uid 32 32)

/-- The class of the adopted lodestar is taken. -/
def classed (s : State) (cls : Nat) : State := { s with fab := { s.fab with lclass := BitVec.ofNat 2 cls } }

theorem classed_reg (s : State) (cls a : Nat) : (classed s cls).reg a = s.reg a := rfl

/-- A candidate of a class is adopted. -/
def adopted (s : State) (cls : Nat) (uid : BitVec 64) : State :=
  let s := namedLode (discardSweep s) uid
  (classed s cls).setF F.FAB_STATUS_SWEEP (if s.bit F.FAB_STATUS_CONFLICT then 2 else 0)

theorem hearCandidate_eq (s : State) (cls : Nat) (uid : BitVec 64) : hearCandidate s cls uid =
    if cls = 0 ∨ cls = 3 then s
    else if uid = s.luid ∧ 0 < s.fab.lclass.toNat then { s with fab := { s.fab with lclass := BitVec.ofNat 2 (max cls s.fab.lclass.toNat) } }
    else if cls < s.fab.lclass.toNat ∨ (cls = s.fab.lclass.toNat ∧ s.luid.toNat ≤ uid.toNat) then
      if uid = Config.uid then s.setF F.FAB_STATUS_MULTI_LODE 1 else s
    else if uid = Config.uid then ((adopted s cls uid).setF F.FAB_STATUS_LODESTAR 1).setF F.FAB_STATUS_COORD_VALID 1
    else if (adopted s cls uid).ownClass ≠ 0 then (adopted s cls uid).setF F.FAB_STATUS_MULTI_LODE 1
    else adopted s cls uid := rfl

/-! ### What a DISCOVER says stays (R323) -/

/-- The fields that say what a neighbour's DISCOVER said. -/
def nbrKeeps (g : Fld) : Prop := 0x80100 ≤ g.off ∧ g.off < 0x801c0 ∧ g.off % 32 < 12 ∧ (g.off % 32 = 0 → 3 ≤ g.lo)

theorem nbrKeeps.sweep {g : Fld} (h : nbrKeeps g) : sweepKeeps g := .inr (.inr (.inr (.inr (.inr h))))

/-- What was heard of the neighbours stays. -/
structure HeardKept (s t : State) : Prop where
  heard : t.fab.heard = s.fab.heard
  arrived : t.arrived = s.arrived
  fields : ∀ g, nbrKeeps g → t.f g = s.f g

namespace HeardKept

variable {s t u : State}

theorem refl (s : State) : HeardKept s s := ⟨rfl, rfl, fun _ _ => rfl⟩

theorem trans (h : HeardKept s t) (h' : HeardKept t u) : HeardKept s u :=
  ⟨h'.heard.trans h.heard, h'.arrived.trans h.arrived, fun g hg => (h'.fields g hg).trans (h.fields g hg)⟩

theorem of_swept (h : Swept s t) : HeardKept s t := ⟨h.heard, h.arrived, fun g hg => h.fields g hg.sweep⟩

theorem other (h : HeardKept s t) (hu : (u.fab.heard, u.arrived, u.regs) = (t.fab.heard, t.arrived, t.regs)) : HeardKept s u := by
  obtain ⟨hh, ha, hr⟩ := by simpa only [Prod.mk.injEq] using hu
  exact h.trans ⟨hh, ha, fun g _ => State.f_of_regs hr g⟩

theorem setF (h : HeardKept s t) {f : Fld} (n : Nat) (hf : f.lo + f.w ≤ 32) (ho : f.off < 0x80100 ∨ f.off % 32 = 12) : HeardKept s (t.setF f n) :=
  ⟨h.heard, h.arrived, fun g hg => (State.f_setF_other _ _ _ _ hf (.inl (by unfold nbrKeeps at hg; omega))).trans (h.fields g hg)⟩

theorem setReg (h : HeardKept s t) {a : Nat} (v : Word) (ha : a < 0x80100) : HeardKept s (t.setReg a v) :=
  ⟨h.heard, h.arrived, fun g hg => (State.f_setReg_other _ _ _ (by unfold nbrKeeps at hg; omega)).trans (h.fields g hg)⟩

theorem discardSweep (h : HeardKept s t) : HeardKept s (discardSweep t) := by
  unfold Machine.discardSweep
  extract_lets s1 s2 s3 s4
  have h1 : HeardKept s s1 := (h.setF _ (by simp) (.inl (by decide))).setF _ (by simp) (.inl (by decide))
  have h2 : HeardKept s s2 := ((h1.setF _ (by simp) (.inl (by decide))).setF _ (by simp) (.inl (by decide))).setF _ (by simp) (.inl (by decide))
  have h3 : HeardKept s s3 :=
    foldS_induct (P := HeardKept s) _ (fun u d hd hu => hu.setF (f := F.FAB_RING_DOWN_DOWN d) 0 (by simp)
      (.inl (by have := List.mem_range.mp hd; dsimp only; omega))) h2
  have h4 : HeardKept s s4 :=
    foldS_induct (P := HeardKept s) _ (fun u p _ hu => (hu.setF (f := F.FAB_NBR_LEAF_VALID p) 0 (by simp) (.inr (by dsimp only; omega))).setF
      (f := F.FAB_NBR_LEAF_COORD p) 0 (by simp) (.inr (by dsimp only; omega))) h3
  clear_value s4
  exact h4.other rfl

theorem adopted (h : HeardKept s t) (cls : Nat) (uid : BitVec 64) : HeardKept s (adopted t cls uid) := by
  have h1 : HeardKept s (namedLode (Machine.discardSweep t) uid) := (h.discardSweep.setReg _ (by decide)).setReg _ (by decide)
  unfold Machine.adopted
  generalize namedLode (Machine.discardSweep t) uid = u at h1 ⊢
  have hclass : HeardKept s (classed u cls) := h1.other rfl
  exact hclass.setF _ (by simp) (.inl (by decide))

theorem hearCandidate (h : HeardKept s t) (cls : Nat) (uid : BitVec 64) : HeardKept s (hearCandidate t cls uid) := by
  rw [hearCandidate_eq]
  split
  · exact h
  split
  · exact h.other rfl
  split
  · split
    · exact h.setF _ (by simp) (.inl (by decide))
    · exact h
  split
  · exact ((h.adopted cls uid).setF _ (by simp) (.inl (by decide))).setF _ (by simp) (.inl (by decide))
  split
  · exact (h.adopted cls uid).setF _ (by simp) (.inl (by decide))
  · exact h.adopted cls uid

theorem offerSize (h : HeardKept s t) (d n : Nat) (wrap : Bool) : HeardKept s (Machine.offerSize t d n wrap) :=
  h.trans (.of_swept (.offerSize t d n wrap))

theorem learnCoord (h : HeardKept s t) (p : Nat) (m : Packet) : HeardKept s (learnCoord t p m) := by
  unfold Machine.learnCoord
  extract_lets d up prop s1 _ s2
  have h1 : HeardKept s s1 := by
    unfold s1
    split
    · exact (h.setF _ (by simp) (.inl (by decide))).setF _ (by simp) (.inl (by decide))
    split
    · exact h.offerSize _ _ _
    split
    · exact h.trans (.of_swept (.conflict t))
    · exact h
  have h2 : HeardKept s s2 := by
    unfold s2
    split
    · split
      · exact h1.other rfl
      · exact h1
    · exact h
  refine foldS_induct (P := HeardKept s) _ (fun u e _ hu => ?_) h2
  split
  · exact hu.offerSize _ _ _
  · exact hu

end HeardKept

end Sys2Proof.Machine
end

section
/-! PROOFS. The commands of the sweep, and the statement on them (R308–R314, R320, R321). -/

namespace Sys2Proof.Machine

variable {s : State}

/-! ### A sound DISCOVER (R308, R309) -/

theorem noteNeighbour_says (s : State) (p : Nat) (m : Packet) :
    (noteNeighbour s p m).f (F.FAB_NBR_PEER_PORT p) = discPort m ∧ (noteNeighbour s p m).f (F.FAB_NBR_PEER_TYPE p) = discType m ∧
      (noteNeighbour s p m).f (F.FAB_NBR_PEER_EPOCH p) = discEpoch m ∧ (noteNeighbour s p m).reg (R.FAB_NBR_1 p) = bitsAt (discUid m) 0 32 ∧
      (noteNeighbour s p m).reg (R.FAB_NBR_2 p) = bitsAt (discUid m) 32 32 := by
  have hport : discPort m < 8 := Nat.mod_lt _ (by decide)
  have htype : discType m < 8 := Nat.mod_lt _ (by decide)
  have hepoch : discEpoch m < 256 := Nat.mod_lt _ (by decide)
  unfold noteNeighbour
  refine ⟨?_, ?_, ?_, ?_, ?_⟩
  · simp [hport]
  · simp [htype]
  · simp [hepoch]
  · simp
  · simp

theorem discover_sound {p : PortNo} {m : Packet} (hlink : s.link p.val = 5) (hsound : discSound m = true) :
    Completes (.discover p m) s (fun t => t.f (F.FAB_NBR_PEER_PORT p.val) = discPort m ∧ t.f (F.FAB_NBR_PEER_TYPE p.val) = discType m ∧
      t.f (F.FAB_NBR_PEER_EPOCH p.val) = discEpoch m ∧ t.reg (R.FAB_NBR_1 p.val) = bitsAt (discUid m) 0 32 ∧
      t.reg (R.FAB_NBR_2 p.val) = bitsAt (discUid m) 32 32 ∧ SMap.get none t.fab.heard p.val = some m ∧ t.arrived = s.arrived.erase m) := by
  have hp := p.isLt
  refine .of_eq _ (congrArg Host.Outcome.next ((if_neg (not_not.mpr hlink)).trans (if_neg (not_not.mpr hsound)))) ?_
  extract_lets b _ s1 s2 s3 s4
  obtain ⟨hport, htype, hepoch, hlo, hhi⟩ := noteNeighbour_says { b with fab := { b.fab with heard := SMap.set none b.fab.heard p.val (some m) } } p.val m
  have hheard : s1.fab.heard = SMap.set none b.fab.heard p.val (some m) := rfl
  have harrived : s1.arrived = s.arrived.erase m := rfl
  have hs1 : s1 = noteNeighbour { b with fab := { b.fab with heard := SMap.set none b.fab.heard p.val (some m) } } p.val m := rfl
  rw [← hs1] at hport htype hepoch hlo hhi
  clear_value s1
  have h2 : HeardKept s1 s2 := (HeardKept.refl s1).hearCandidate _ _
  have h3 : HeardKept s1 s3 := by
    unfold s3
    split
    · exact h2
    · exact h2.hearCandidate _ _
  have h4 : HeardKept s1 s4 := h3.trans (.of_swept (.setRoles s3))
  have hend : HeardKept s1 (sweepUpdate b (if s4.role p.val = 1 then learnCoord s4 p.val m else s4)) := by
    refine HeardKept.trans ?_ (.of_swept (.sweepUpdate b _))
    split
    · exact h4.learnCoord _ _
    · exact h4
  refine ⟨?_, ?_, ?_, ?_, ?_, ?_, hend.arrived.trans harrived⟩
  · rw [hend.fields _ (by unfold nbrKeeps; dsimp only; omega), hport]
  · rw [hend.fields _ (by unfold nbrKeeps; dsimp only; omega), htype]
  · rw [hend.fields _ (by unfold nbrKeeps; dsimp only; omega), hepoch]
  · rw [State.reg_of_f (hend.fields _ (by unfold nbrKeeps R.FAB_NBR_1; dsimp only; omega)), hlo]
  · rw [State.reg_of_f (hend.fields _ (by unfold nbrKeeps R.FAB_NBR_2; dsimp only; omega)), hhi]
  · rw [hend.heard, hheard, SMap.get_set_same]

/-! ### SWEEP (R311, R313) -/

/-- The registers that a discarded sweep clears. -/
def sweepCleared (s : State) : State :=
  ((((s.setF F.FAB_STATUS_COORD_VALID 0).setF F.FAB_ID_COORD 0).setF F.FAB_SIZE_SIZE 0).setF F.FAB_SIZE_WRAP 0).setF F.FAB_STATUS_LODESTAR 0

theorem discardSweep_f (s : State) {g : Fld} (hg : g.off < 0x80040) : (discardSweep s).f g = (sweepCleared s).f g := by
  have hring : ∀ t : State, (foldS (List.range 3) t (fun s d => s.setF (F.FAB_RING_DOWN_DOWN d) 0)).f g = t.f g := fun t =>
    foldS_induct (P := fun u => u.f g = t.f g) _ (fun u d _ hu =>
      (State.f_setF_other _ _ _ _ (by simp) (.inl (by dsimp only; omega))).trans hu) rfl
  have hleaf : ∀ t : State, (foldS (List.range 6) t (fun s p => (s.setF (F.FAB_NBR_LEAF_VALID p) 0).setF (F.FAB_NBR_LEAF_COORD p) 0)).f g = t.f g := fun t =>
    foldS_induct (P := fun u => u.f g = t.f g) _ (fun u p _ hu =>
      (State.f_setF_other _ _ _ _ (by simp) (.inl (by dsimp only; omega))).trans
        ((State.f_setF_other _ _ _ _ (by simp) (.inl (by dsimp only; omega))).trans hu)) rfl
  unfold discardSweep
  extract_lets s1 s2 s3 s4
  have h4 : s4.f g = (sweepCleared s).f g := (hleaf s3).trans (hring s2)
  clear_value s4
  exact h4

/-- What was heard on the ports, and the adopted class, are forgotten. -/
def unheard (s : State) : State := { s with fab := { s.fab with lclass := 0, heard := [] } }

theorem unheard_f (s : State) (g : Fld) : (unheard s).f g = s.f g := rfl

/-- The state in which the package's own candidacy is considered. -/
def sweepBegun (s : State) : State :=
  (unheard ((((discardSweep s).setReg R.FAB_LUID_LO 0).setReg R.FAB_LUID_HI 0).setF F.FAB_STATUS_SWEEP 3)).setF F.FAB_STATUS_CONFLICT 0

theorem beginSweep_eq (s : State) : beginSweep s =
    setRings (ownOffers (setRoles (hearCandidate (sweepBegun s) (sweepBegun s).ownClass Config.uid))) := rfl

theorem sweepBegun_f (s : State) {g : Fld} (hg : g.off < 0x80010) (hs : g.off ≠ 0x80004 ∨ 2 ≤ g.lo ∧ g.lo + g.w ≤ 6) :
    (sweepBegun s).f g = (sweepCleared s).f g := by
  unfold sweepBegun
  rw [State.f_setF_other _ _ _ _ (by simp) (by dsimp only; omega), unheard_f,
    State.f_setF_other _ _ _ _ (by simp) (by dsimp only; omega), State.f_setReg_other _ _ _ (by unfold R.FAB_LUID_HI; omega),
    State.f_setReg_other _ _ _ (by unfold R.FAB_LUID_LO; omega), discardSweep_f _ (by omega)]

theorem sweepBegun_sweep (s : State) : (sweepBegun s).f F.FAB_STATUS_SWEEP = 3 := by
  unfold sweepBegun
  rw [State.f_setF_other _ _ _ _ (by simp) (by simp), unheard_f, State.f_setF_eq _ _ _ (by simp)]
  rfl

theorem sweepBegun_ownClass (s : State) : (sweepBegun s).ownClass = s.ownClass := by
  have hnom : (sweepBegun s).f F.FAB_CTRL_NOMINATE = s.f F.FAB_CTRL_NOMINATE := by
    rw [sweepBegun_f _ (by decide) (.inl (by decide))]
    simp [sweepCleared]
  have hstrap : (sweepBegun s).f F.FAB_STATUS_STRAP = s.f F.FAB_STATUS_STRAP := by
    rw [sweepBegun_f _ (by decide) (.inr (by decide))]
    simp [sweepCleared]
  unfold State.ownClass State.bit
  rw [hnom, hstrap]

/-- The sweep's end leaves what names the coordinate and the lodestar. -/
theorem beginSweep_swept (s : State) : Swept (hearCandidate (sweepBegun s) (sweepBegun s).ownClass Config.uid) (beginSweep s) := by
  rw [beginSweep_eq]
  exact ((Swept.setRoles _).trans (.ownOffers _)).trans (.setRings _)

theorem setRole_sweep (s : State) (p : Nat) (hp : p < 6) : (setRole s p).f F.FAB_STATUS_SWEEP = s.f F.FAB_STATUS_SWEEP := by
  unfold setRole
  extract_lets n o s1 s2
  have h1 : s1.f F.FAB_STATUS_SWEEP = s.f F.FAB_STATUS_SWEEP := by
    unfold s1
    rw [State.f_setF_other _ _ _ _ (by simp) (.inl (by dsimp only; omega)), State.f_setF_other _ _ _ _ (by simp) (.inl (by dsimp only; omega))]
  have h2 : s2.f F.FAB_STATUS_SWEEP = s.f F.FAB_STATUS_SWEEP := by
    unfold s2
    split
    · rw [State.f_setF_other _ _ _ _ (by simp) (.inl (by dsimp only; omega)), State.f_setF_other _ _ _ _ (by simp) (.inl (by dsimp only; omega)), h1]
    · exact h1
  split
  · rw [State.f_ibi _ _ _ _ _ (by decide) (by decide) (by decide), State.f_setF_other _ _ _ _ (by simp) (by simp), h2]
  · exact h2

theorem setRing_sweep (s : State) (d : Nat) : (setRing s d).f F.FAB_STATUS_SWEEP = s.f F.FAB_STATUS_SWEEP := by
  unfold setRing
  split
  · exact State.f_setF_other _ _ _ _ (by simp) (.inl (by dsimp only; omega))
  · exact State.f_setF_other _ _ _ _ (by simp) (.inl (by dsimp only; omega))

theorem setRoles_sweep (s : State) : (setRoles s).f F.FAB_STATUS_SWEEP = s.f F.FAB_STATUS_SWEEP :=
  foldS_induct (P := fun t => t.f F.FAB_STATUS_SWEEP = s.f F.FAB_STATUS_SWEEP) (f := setRole) _
    (fun t p hp ht => (setRole_sweep t p (List.mem_range.mp hp)).trans ht) rfl

theorem setRings_sweep (s : State) : (setRings s).f F.FAB_STATUS_SWEEP = s.f F.FAB_STATUS_SWEEP :=
  foldS_induct (P := fun t => t.f F.FAB_STATUS_SWEEP = s.f F.FAB_STATUS_SWEEP) (f := setRing) _
    (fun t d _ ht => (setRing_sweep t d).trans ht) rfl

/-- SWEEP on a package that is no candidate. -/
theorem sweep_noCandidate (hnom : s.f F.FAB_CTRL_NOMINATE = 0) (hstrap : s.f F.FAB_STATUS_STRAP = 0) :
    Completes .sweep s (fun t => t.f F.FAB_STATUS_SWEEP = 3 ∧ t.f F.FAB_STATUS_COORD_VALID = 0 ∧ t.f F.FAB_ID_COORD = 0 ∧
      t.f F.FAB_STATUS_LODESTAR = 0) := by
  have hclass : (sweepBegun s).ownClass = 0 := by
    rw [sweepBegun_ownClass]
    unfold State.ownClass State.bit
    rw [hnom, hstrap]
    rfl
  have hcand : hearCandidate (sweepBegun s) (sweepBegun s).ownClass Config.uid = sweepBegun s := by
    rw [hclass, hearCandidate_eq, if_pos (.inl rfl)]
  have hswept := beginSweep_swept s
  rw [hcand] at hswept
  have hcoord : (sweepBegun s).f F.FAB_STATUS_COORD_VALID = 0 := by
    rw [sweepBegun_f _ (by decide) (.inr (by decide))]
    simp [sweepCleared]
  refine .of_eq (beginSweep s) rfl ⟨?_, ?_, ?_, ?_⟩
  · have hroles : (setRoles (sweepBegun s)).f F.FAB_STATUS_COORD_VALID = 0 := by
      rw [(Swept.setRoles (sweepBegun s)).fields _ (by unfold sweepKeeps; dsimp only; omega), hcoord]
    have hoffers : ownOffers (setRoles (sweepBegun s)) = setRoles (sweepBegun s) := by
      unfold ownOffers
      exact if_pos (by unfold State.bit; rw [hroles]; decide)
    rw [beginSweep_eq, hcand, hoffers, setRings_sweep, setRoles_sweep, sweepBegun_sweep]
  · rw [hswept.fields _ (by unfold sweepKeeps; dsimp only; omega), hcoord]
  · rw [hswept.fields _ (by unfold sweepKeeps; dsimp only; omega), sweepBegun_f _ (by decide) (.inl (by decide))]
    simp [sweepCleared]
  · rw [hswept.fields _ (by unfold sweepKeeps; dsimp only; omega), sweepBegun_f _ (by decide) (.inr (by decide))]
    simp [sweepCleared]

theorem adopted_luid (s : State) (cls : Nat) (uid : BitVec 64) {t : State}
    (hlo : t.f F.FAB_LUID_LO_UID = (adopted s cls uid).f F.FAB_LUID_LO_UID) (hhi : t.f F.FAB_LUID_HI_UID = (adopted s cls uid).f F.FAB_LUID_HI_UID) :
    t.luid = uid := by
  have hlo' : t.reg R.FAB_LUID_LO = bitsAt uid 0 32 := by
    rw [State.reg_of_f hlo]
    unfold adopted
    rw [State.reg_setF_other _ _ _ (by decide), classed_reg]
    simp [namedLode]
  have hhi' : t.reg R.FAB_LUID_HI = bitsAt uid 32 32 := by
    rw [State.reg_of_f hhi]
    unfold adopted
    rw [State.reg_setF_other _ _ _ (by decide), classed_reg]
    simp [namedLode]
  unfold State.luid
  rw [hlo', hhi']
  refine BitVec.eq_of_toNat_eq ?_
  have := uid.isLt
  simp only [bitsAt, BitVec.toNat_ofNat]
  omega

/-- SWEEP on a candidate. -/
theorem sweep_candidate (hnom : s.f F.FAB_CTRL_NOMINATE = 1) :
    Completes .sweep s (fun t => t.f F.FAB_STATUS_COORD_VALID = 1 ∧ t.f F.FAB_ID_COORD = 0 ∧ t.f F.FAB_STATUS_LODESTAR = 1 ∧ t.luid = Config.uid) := by
  have hclass : (sweepBegun s).ownClass = 2 := by
    rw [sweepBegun_ownClass]
    unfold State.ownClass State.bit
    rw [hnom]
    rfl
  have hl : (sweepBegun s).fab.lclass.toNat = 0 := rfl
  have hcand : hearCandidate (sweepBegun s) (sweepBegun s).ownClass Config.uid =
      ((adopted (sweepBegun s) 2 Config.uid).setF F.FAB_STATUS_LODESTAR 1).setF F.FAB_STATUS_COORD_VALID 1 := by
    rw [hclass, hearCandidate_eq, hl, if_neg (by decide), if_neg (fun h => absurd h.2 (by decide)), if_neg (by omega), if_pos rfl]
  have hswept := beginSweep_swept s
  rw [hcand] at hswept
  refine .of_eq (beginSweep s) rfl ⟨?_, ?_, ?_, ?_⟩
  · rw [hswept.fields _ (by unfold sweepKeeps; dsimp only; omega)]
    simp
  · rw [hswept.fields _ (by unfold sweepKeeps; dsimp only; omega), State.f_setF_other _ _ _ _ (by simp) (by simp),
      State.f_setF_other _ _ _ _ (by simp) (by simp)]
    unfold adopted
    rw [State.f_setF_other _ _ _ _ (by simp) (by simp), State.f, classed_reg, ← State.f]
    unfold namedLode
    rw [State.f_setReg_other _ _ _ (by decide), State.f_setReg_other _ _ _ (by decide), discardSweep_f _ (by decide)]
    simp [sweepCleared]
  · rw [hswept.fields _ (by unfold sweepKeeps; dsimp only; omega)]
    simp
  · refine adopted_luid (sweepBegun s) 2 Config.uid ?_ ?_
    · rw [hswept.fields _ (by unfold sweepKeeps; dsimp only; omega)]
      simp
    · rw [hswept.fields _ (by unfold sweepKeeps; dsimp only; omega)]
      simp

end Sys2Proof.Machine
end

section
/-! PROOFS. Settling, the reset of a fabric, and the statement on the sweep (R308–R314, R320, R321). -/

namespace Sys2Proof.Machine

variable {s : State}

/-! ### SETTLED (R313, R314) -/

/-- What a package that settles leaves: its coordinate, what it knows of the sizes, and that it is settled. -/
structure Settles (s t : State) : Prop where
  sweep : t.f F.FAB_STATUS_SWEEP = s.f F.FAB_STATUS_SWEEP
  coord : t.f F.FAB_ID_COORD = s.f F.FAB_ID_COORD
  known : t.fab.known = s.fab.known

namespace Settles

variable {t : State}

theorem setF (h : Settles s t) {f : Fld} (n : Nat) (hf : f.lo + f.w ≤ 32) (hs : f.off ≠ 0x80004 ∨ 2 ≤ f.lo) (hc : f.off ≠ 0x80008) :
    Settles s (t.setF f n) :=
  ⟨(State.f_setF_other _ _ _ _ hf (by dsimp only; omega)).trans h.sweep, (State.f_setF_other _ _ _ _ hf (.inl hc)).trans h.coord, h.known⟩

theorem other {u : State} (h : Settles s t) (hu : (u.regs, u.fab) = (t.regs, t.fab)) : Settles s u := by
  obtain ⟨hr, hf⟩ := by simpa only [Prod.mk.injEq] using hu
  exact ⟨(State.f_of_regs hr _).trans h.sweep, (State.f_of_regs hr _).trans h.coord, by rw [hf]; exact h.known⟩

theorem assignLeaf (h : Settles s t) (p : Nat) : Settles s (assignLeaf t p) := by
  have hcoord : ∀ {u : State} (n : Nat), Settles s u → Settles s (u.setF (F.FAB_NBR_LEAF_COORD p) n) := fun n hu =>
    hu.setF n (by simp) (.inl (by dsimp only; omega)) (by dsimp only; omega)
  have hvalid : ∀ {u : State} (n : Nat), Settles s u → Settles s (u.setF (F.FAB_NBR_LEAF_VALID p) n) := fun n hu =>
    hu.setF n (by simp) (.inl (by dsimp only; omega)) (by dsimp only; omega)
  unfold Machine.assignLeaf
  split
  · exact h
  · extract_lets d z a v
    clear_value v
    cases v
    case some v => exact hvalid 1 (hcoord _ h)
    case none => exact (hvalid 0 (hcoord 0 h)).setF 1 (by decide) (.inr (by decide)) (by decide)

theorem changeSrc (h : Settles s t) (v : Nat) : Settles s (changeSrc t v) := by
  have hmer : ∀ {u : State} (n : Nat), Settles s u → Settles s (u.setMer n) := fun n hu =>
    hu.setF n (by decide) (.inl (by decide)) (by decide)
  unfold Machine.changeSrc
  extract_lets old s1 _ _ s2 s3
  have h1 : Settles s s1 := h.setF _ (by decide) (.inl (by decide)) (by decide)
  have h2 : Settles s s2 := h1.other rfl
  have h3 : Settles s s3 := h2.setF _ (by decide) (.inl (by decide)) (by decide)
  clear_value s3
  split
  · exact h1
  split
  · split
    · have h4 : Settles s { s3 with mer := { s3.mer with tick := 0 } } := h3.other rfl
      exact hmer 3 h4
    · exact hmer 0 h3
  · exact hmer _ h3

theorem autoMer (h : Settles s t) : Settles s (autoMer t) := by
  have hput : ∀ {u : State} {f : Fld} (n : Nat), Settles s u → f.off = 0x50000 → f.lo + f.w ≤ 32 → Settles s (u.setF f n) := fun n hu ho hf =>
    hu.setF n hf (.inl (by rw [ho]; decide)) (by rw [ho]; decide)
  unfold Machine.autoMer
  extract_lets ports mask hops hp ring cands s1 s2 s3
  clear_value cands
  split
  · exact hput _ h rfl (by decide)
  · have h1 : Settles s s1 := hput _ h rfl (by decide)
    have h2 : Settles s s2 := by
      unfold s2
      split
      · exact hput _ h1 rfl (by decide)
      · exact h1
    have h3 : Settles s s3 := by
      unfold s3
      split
      · exact hput _ (hput _ h2 rfl (by decide)) rfl (by decide)
      · exact hput _ h2 rfl (by decide)
    exact h3.changeSrc 1

end Settles

theorem settled_settles (hsweep : s.f F.FAB_STATUS_SWEEP = 0) (hcv : s.f F.FAB_STATUS_COORD_VALID = 1) (hknown : s.fab.known = 7)
    (hconf : s.f F.FAB_STATUS_CONFLICT = 0) :
    Completes .settled s (fun t => t.f F.FAB_STATUS_SWEEP = 1 ∧ t.f F.FAB_ID_COORD = s.f F.FAB_ID_COORD ∧ t.fab.known = 7) := by
  have hgo : ¬ (s.f F.FAB_STATUS_SWEEP ≠ 0 ∨ ¬ s.bit F.FAB_STATUS_COORD_VALID = true ∨ s.fab.known ≠ 7 ∨ s.bit F.FAB_STATUS_CONFLICT = true) := by
    unfold State.bit
    rw [hsweep, hcv, hconf, hknown]
    decide
  refine .of_eq _ (congrArg Host.Outcome.next (if_neg hgo)) ?_
  extract_lets s1 s2
  have h2 : Settles s1 s2 := foldS_induct (P := Settles s1) (f := assignLeaf) _ (fun t p _ ht => ht.assignLeaf p) ⟨rfl, rfl, rfl⟩
  have hend : Settles s1 (if s2.bit F.FAB_CTRL_AUTO_MER = true then autoMer s2 else s2) := by
    split
    · exact h2.autoMer
    · exact h2
  obtain ⟨hs, hc, hk⟩ := hend
  refine ⟨hs.trans (State.f_setF_eq s _ 1 (by decide)), hc.trans (State.f_setF_other s _ _ 1 (by decide) (.inl (by decide))), hk.trans hknown⟩

/-! ### FABRIC_RESET (R321) -/

theorem fabricResetCmd_lodestar (hlode : s.f F.FAB_STATUS_LODESTAR = 1) :
    Completes .fabricResetCmd s (fun t => t.fab = { s.fab with resetDue := true } ∧ t.regs = s.regs) := by
  refine .of_eq _ (congrArg Host.Outcome.next (if_neg (by unfold State.bit; rw [hlode]; decide))) ?_
  have hsent := (flood_sent (broadcastOf s 0x23 (Config.uid.zeroExtend 128)).1 (broadcastOf s 0x23 (Config.uid.zeroExtend 128)).2 none)
  have hfab : (flood (broadcastOf s 0x23 (Config.uid.zeroExtend 128)).1 (broadcastOf s 0x23 (Config.uid.zeroExtend 128)).2 none).1.fab = s.fab :=
    hsent.fab.trans (broadcastOf_sent s _ _).fab
  have hregs : (flood (broadcastOf s 0x23 (Config.uid.zeroExtend 128)).1 (broadcastOf s 0x23 (Config.uid.zeroExtend 128)).2 none).1.regs = s.regs :=
    hsent.regs.trans (broadcastOf_sent s _ _).regs
  dsimp only
  exact ⟨by rw [← hfab], hregs⟩

theorem fabricReset_taken {x : Packet} {port : PortNo} (hlink : s.link port.val = 5) (hclass : s.fab.lclass ≠ 0)
    (huid : bitsAt (x.data.getD 0 0) 0 64 = s.luid) (hport : controlPort s port.val = true) (hpoison : x.poison = 0) (hdue : s.fab.resetDue = false) :
    Completes (.fabricReset x port true) s (fun t => t.fab.resetDue = true ∧ t.arrived = s.arrived.erase x) := by
  have hgo : ¬ (s.fab.lclass = 0 ∨ bitsAt (x.data.getD 0 0) 0 64 ≠ s.luid ∨ ¬ true = true ∨
      ¬ controlPort { s with arrived := s.arrived.erase x } port.val = true ∨ x.poison ≠ 0) := by
    rintro (h | h | h | h | h)
    exacts [hclass h, h huid, h rfl, h hport, h hpoison]
  have hnot : ¬ s.fab.resetDue = true := by rw [hdue]; decide
  refine .of_eq _ (congrArg Host.Outcome.next ((if_neg (not_not.mpr hlink)).trans ((if_neg hgo).trans (if_neg hnot)))) ⟨rfl, ?_⟩
  exact (flood_sent { s with arrived := s.arrived.erase x } x (some port.val)).arrived

theorem fabricReset_dropped {x : Packet} {port : PortNo} (hlink : s.link port.val = 5) (huid : bitsAt (x.data.getD 0 0) 0 64 ≠ s.luid) :
    Completes (.fabricReset x port true) s (fun t => t.fab = s.fab ∧ t.f F.FAB_STATUS_RESET_IGNORED = 1 ∧
      t.f F.FAB_DROP_BCAST_DROP = min (s.f F.FAB_DROP_BCAST_DROP + 1) F.FAB_DROP_BCAST_DROP.max) := by
  refine .of_eq ((({ s with arrived := s.arrived.erase x } : State).bump F.FAB_DROP_BCAST_DROP 1).setF F.FAB_STATUS_RESET_IGNORED 1)
    (congrArg Host.Outcome.next ((if_neg (not_not.mpr hlink)).trans (if_pos (.inr (.inl huid))))) ⟨rfl, by simp, ?_⟩
  rw [State.f_setF_other _ _ _ _ (by simp) (by simp), State.f_bump_eq _ _ _ (by simp)]
  rfl

/-! ### START and START_CMD (R210, R211) -/

theorem start_repeated {x : Packet} {port : PortNo} (hlink : s.link port.val = 5) (hsweep : s.f F.FAB_STATUS_SWEEP = 1)
    (hport : controlPort s port.val = true) (hsrc : nodeCoord x.src = 0) (hpoison : x.poison = 0)
    (hseen : ((bitsAt (x.data.getD 0 0) 0 55 : BitVec 55).zeroExtend 128 : BitVec 128) ∈ s.fab.starts) :
    Completes (.start x port) s (fun t => t.jobs = s.jobs ∧ t.fab = s.fab ∧ t.f F.FAB_BCAST_DUPS = min (s.f F.FAB_BCAST_DUPS + 1) F.FAB_BCAST_DUPS.max) := by
  have hctrl : ¬ (¬ controlPort { s with arrived := s.arrived.erase x } port.val = true ∨ nodeCoord x.src ≠ 0 ∨ x.poison ≠ 0) := by
    rintro (h | h | h)
    exacts [h hport, h hsrc, h hpoison]
  refine .of_eq (({ s with arrived := s.arrived.erase x } : State).bump F.FAB_BCAST_DUPS 1) (congrArg Host.Outcome.next
    ((if_neg (not_not.mpr hlink)).trans ((if_neg (not_not.mpr hsweep)).trans ((if_neg hctrl).trans (if_pos hseen))))) ⟨rfl, rfl, ?_⟩
  rw [State.f_bump_eq _ _ _ (by simp)]
  rfl

theorem startCmd_one {v : Word} {j : Job} (hgo : v.getLsbD 9 = true) (hat : v.getLsbD 8 = true) (hlocal : v.getLsbD 7 = false)
    (hone : v.getLsbD 6 = false) (hjob : bitsAt v 0 6 = j)
    (htime : StartInTime s j (s.get48 R.CFG_START_TICK_LO R.CFG_START_TICK_HI)) :
    Completes (.startCmd v) s (fun t => (t.job j).start = some (s.get48 R.CFG_START_TICK_LO R.CFG_START_TICK_HI) ∧ t.reg R.CFG_START_CMD = v &&& 0x1FF) := by
  have htick : (s.setReg R.CFG_START_CMD (v &&& 0x1FF)).get48 R.CFG_START_TICK_LO R.CFG_START_TICK_HI = s.get48 R.CFG_START_TICK_LO R.CFG_START_TICK_HI := by
    unfold State.get48
    rw [State.reg_setReg_other _ _ (by decide), State.reg_setReg_other _ _ (by decide)]
  have hexec : exec (.startCmd v) s = .next (applyStart (s.setReg R.CFG_START_CMD (v &&& 0x1FF)) j (s.get48 R.CFG_START_TICK_LO R.CFG_START_TICK_HI)) := by
    change execStartCmd v s = _
    unfold execStartCmd issueStart applyStarts
    dsimp only
    rw [hgo, hat, hlocal, hone, hjob, if_neg (by decide), if_pos rfl, htick]
    rfl
  have hready : Startable (s.setReg R.CFG_START_CMD (v &&& 0x1FF)) j (s.get48 R.CFG_START_TICK_LO R.CFG_START_TICK_HI) :=
    (Startable.of_inTime htime).of_view rfl rfl (fun a ha => State.reg_setReg_other _ _ (by unfold R.CFG_STATUS at ha; unfold R.CFG_START_CMD; omega))
  obtain ⟨hstart, hregs, -⟩ := applyStart_leaves hready
  refine .of_eq _ hexec ⟨hstart, ?_⟩
  unfold State.reg at *
  rw [hregs]
  exact State.reg_setReg_same s _ _

/-! ### The statement -/

/-- Settles O41. -/
theorem fabricSweep : Obligations.FabricSweep := by
  unfold Obligations.FabricSweep
  refine ⟨?send, ?bad, ?sound, ?noCandidate, ?candidate, ?settled, ?ignored, ?sent, ?taken, ?dropped, ?start, ?repeated, ?cmd⟩
  case send =>
    intro p s hlink
    refine .of_eq _ (congrArg Host.Outcome.next (if_pos hlink)) ⟨?_, rfl⟩
    unfold sendOn
    rw [State.port_onPort]
    exact SMap.get_set_same _ _ _ _
  case bad =>
    rintro p m s ⟨hlink, hbad⟩
    refine .of_eq ((({ s with arrived := s.arrived.erase m } : State).bump F.FAB_DISC_CNT_RX 1).bump F.FAB_DISC_CNT_BAD 1)
      (congrArg Host.Outcome.next ((if_neg (not_not.mpr hlink)).trans (if_pos (by rw [hbad]; decide)))) ⟨?_, ?_, rfl, rfl⟩
    · rw [State.f_bump_eq _ _ _ (by simp), State.f_bump_other _ _ _ _ (by simp) (by simp)]; rfl
    · rw [State.f_bump_other _ _ _ _ (by simp) (by simp), State.f_bump_eq _ _ _ (by simp)]; rfl
  case sound =>
    rintro p m s ⟨hlink, hsound⟩
    exact discover_sound hlink hsound
  case noCandidate =>
    rintro s ⟨hnom, hstrap⟩
    exact sweep_noCandidate hnom hstrap
  case candidate =>
    intro s hnom
    exact sweep_candidate hnom
  case settled =>
    rintro s ⟨hsweep, hcv, hknown, hconf⟩
    exact settled_settles hsweep hcv hknown hconf
  case ignored =>
    intro s hlode
    exact .of_eq _ (congrArg Host.Outcome.next (if_pos (by unfold State.bit; rw [hlode]; decide))) rfl
  case sent =>
    intro s hlode
    exact fabricResetCmd_lodestar hlode
  case taken =>
    rintro x port s ⟨hlink, hclass, huid⟩ ⟨hport, hpoison, hdue⟩
    exact fabricReset_taken hlink hclass huid hport hpoison hdue
  case dropped =>
    rintro x port s ⟨hlink, huid⟩
    exact fabricReset_dropped hlink huid
  case start =>
    rintro x port j s ⟨hlink, hsweep, hport, hsrc, hpoison⟩ hnew ⟨hone, hjob⟩ htime
    exact start_taken hlink hsweep hport hsrc hpoison hnew hone hjob htime
  case repeated =>
    rintro x port s ⟨hlink, hsweep, hport, hsrc, hpoison⟩ hseen
    exact start_repeated hlink hsweep hport hsrc hpoison hseen
  case cmd =>
    rintro v j s ⟨hgo, hat, hlocal, hone, hjob⟩ htime
    exact startCmd_one hgo hat hlocal hone hjob htime

end Sys2Proof.Machine
end

section
/-! PROOFS. What the package is after a reset of the whole (R19, R22, R427). -/

namespace Sys2Proof.Machine

/-- The package after its reset, before the links of its dies train and its regions take their epoch and CFG. -/
def freshPackage (s : State) (boot : Boot) : State :=
  let n : State := { pending := s.pending, drawn := s.drawn, flash := s.flash, fuses := s.fuses,
                     gpio := { pads := s.gpio.pads }, pwr := { boot := boot, cause := s.pwr.cause, lowBanks := s.pwr.lowBanks,
                                                               vflOut := s.pwr.vflOut, vhubOut := s.pwr.vhubOut } }
  let n := (n.setReg R.HIF_PINS (s.reg R.HIF_PINS)).setF F.HIF_PINS_RST_CAUSE s.pwr.cause.toNat
  let n := n.setF F.FAB_STATUS_STRAP (s.f F.HIF_PINS_LODESTAR)
  let n := n.setF F.CFG_GROUND_STAT_PIN_SEL (s.f F.CFG_GROUND_STAT_PIN_SEL)
  let n := n.setF F.THM_STATUS_LAST_SHUTDOWN (s.f F.THM_STATUS_LAST_SHUTDOWN)
  n.setF F.FAB_ID_EPOCH (s.f F.FAB_ID_EPOCH + 1)

theorem freshPackage_causes (s : State) (boot : Boot) :
    (freshPackage s boot).f F.HIF_PINS_RST_CAUSE = s.pwr.cause.toNat ∧
      (freshPackage s boot).f F.THM_STATUS_LAST_SHUTDOWN = s.f F.THM_STATUS_LAST_SHUTDOWN := by
  have hcause : s.pwr.cause.toNat % 8 = s.pwr.cause.toNat := Nat.mod_eq_of_lt s.pwr.cause.isLt
  have hlast : s.f F.THM_STATUS_LAST_SHUTDOWN % 2 = s.f F.THM_STATUS_LAST_SHUTDOWN := Nat.mod_eq_of_lt (s.f_lt _)
  constructor <;> unfold freshPackage <;> simp [hcause, hlast]

/-- `t` is `n` but for the links of the dies and the regions, whose stores are empty and of which each reads UNCONFIGURED or GATED. -/
structure Renewed (n t : State) : Prop where
  frame : t = { n with rgns := t.rgns, d2dFails := t.d2dFails }
  stores : ∀ rg : Rg, (t.rgn rg).dmem = [] ∧ (t.rgn rg).strokes = []
  cfg : ∀ rg : Rg, t.rf rg F.RGN_STATUS_CFG = 0 ∨ t.rf rg F.RGN_STATUS_CFG = 3

namespace Renewed

variable {n t : State}

theorem f (h : Renewed n t) (x : Fld) : t.f x = n.f x := State.f_of_regs (by rw [h.frame]) x

/-- An update of one region that leaves its stores and, of CFG, one of the two values. -/
theorem onRgn (h : Renewed n t) (rg : Rg) {g : Region → Region} (hg : ((g (t.rgn rg)).dmem, (g (t.rgn rg)).strokes) = ((t.rgn rg).dmem, (t.rgn rg).strokes))
    (hcfg : (g (t.rgn rg)).f F.RGN_STATUS_CFG = t.rf rg F.RGN_STATUS_CFG ∨ (g (t.rgn rg)).f F.RGN_STATUS_CFG = 3) : Renewed n (t.onRgn rg g) := by
  obtain ⟨hdmem, hstrokes⟩ := Prod.mk.inj hg
  refine ⟨?_, fun rh => ?_, fun rh => ?_⟩
  · conv_lhs => rw [h.frame]
    rfl
  · by_cases hr : rh = rg
    · subst hr; rw [State.rgn_onRgn_same, hdmem, hstrokes]; exact h.stores rh
    · rw [State.rgn_onRgn_other _ _ hr]; exact h.stores rh
  · by_cases hr : rh = rg
    · subst hr; rw [State.rf_onRgn_same]
      rcases hcfg with hc | hc
      · rw [hc]; exact h.cfg rh
      · exact .inr hc
    · rw [State.rf_onRgn_other _ _ _ hr]; exact h.cfg rh

theorem setRf (h : Renewed n t) (rg : Rg) (x : Fld) (v : Nat) (hx : x.lo + x.w ≤ 32)
    (hcfg : F.RGN_STATUS_CFG.off ≠ x.off ∨ x.lo + x.w ≤ 8 ∨ (x = F.RGN_STATUS_CFG ∧ v = 3)) : Renewed n (t.setRf rg x v) := by
  refine h.onRgn rg rfl ?_
  rcases hcfg with hoff | hlo | ⟨rfl, rfl⟩
  · exact .inl (Region.f_setReg_ne _ _ _ hoff)
  · exact .inl (Region.f_setF_other _ _ _ _ hx (.inr (.inl hlo)))
  · exact .inr (Region.f_setF_eq _ _ _ (by decide))

theorem trainD2d (h : Renewed n t) (q l : Nat) : Renewed n (trainD2d t q l) := by
  have hlink : ∀ {u : State} (rg : Rg) (k : Nat), Renewed n u → Renewed n (u.setRf rg (F.NOC_D2D_STATUS_STATE k) 1) := fun rg k hu =>
    hu.onRgn rg rfl (.inl (Region.f_setReg_ne _ _ _ (by dsimp only; omega)))
  have hset : Renewed n (setD2d t q l 1) := by
    unfold setD2d
    dsimp only
    split
    · exact hlink _ _ (hlink _ _ h)
    · exact hlink _ _ h
  refine ⟨?_, hset.stores, hset.cfg⟩
  unfold Machine.trainD2d State.setD2dFailed
  conv_lhs => rw [hset.frame]

end Renewed

theorem Region.stores_cutMail (r : Region) : (r.cutMail.dmem, r.cutMail.strokes) = (r.dmem, r.strokes) := rfl

theorem resetPackage_renewed (s : State) (boot : Boot) : Renewed (freshPackage s boot) (resetPackage s boot) := by
  have hnone : ({} : Region).f F.RGN_STATUS_CFG = 0 := by decide
  have hfresh : Renewed (freshPackage s boot) (freshPackage s boot) := ⟨rfl, fun _ => ⟨rfl, rfl⟩, fun _ => .inl hnone⟩
  have hlinks : Renewed (freshPackage s boot) (foldS (List.range 12) (freshPackage s boot) fun n i => trainD2d n (i / 3) (i % 3)) :=
    foldS_induct _ (fun t i _ ht => ht.trainD2d _ _) hfresh
  refine foldS_induct _ (fun t rg _ ht => ?_) hlinks
  have hepoch : Renewed (freshPackage s boot) ((t.onRgn rg Region.cutMail).setRf rg F.RGN_STATUS_EPOCH (s.f F.FAB_ID_EPOCH + 1)) :=
    (ht.onRgn rg (Region.stores_cutMail _) (.inl rfl)).setRf _ _ _ (by decide) (.inr (.inl (by decide)))
  dsimp only
  split
  · exact hepoch.setRf _ _ _ (by decide) (.inr (.inr ⟨rfl, rfl⟩))
  · exact hepoch

/-- The package after a reset of the whole: its flash, fuses and queue stand, its stores are empty, and it reports the cause (R22). -/
theorem resetPackage_leaves (s : State) (boot : Boot) :
    (resetPackage s boot).pwr = (freshPackage s boot).pwr ∧ (resetPackage s boot).f F.HIF_PINS_RST_CAUSE = s.pwr.cause.toNat ∧
      (resetPackage s boot).flash = s.flash ∧ (resetPackage s boot).fuses = s.fuses ∧ (resetPackage s boot).refusing = 0 ∧
      (resetPackage s boot).sram = [] := by
  have h := resetPackage_renewed s boot
  have hcause := (h.f F.HIF_PINS_RST_CAUSE).trans (freshPackage_causes s boot).1
  have hframe := h.frame
  generalize resetPackage s boot = t at *
  refine ⟨?_, hcause, ?_, ?_, ?_, ?_⟩ <;> rw [hframe] <;> rfl

/-! ### Power applied, removed and lost; RESET_N and its release -/

theorem powerOn_resets {s : State} (h : s.pwr.boot = .noPower) :
    Completes .powerOn s (fun t => t.pwr.boot = .resetLow ∧ t.f F.HIF_PINS_RST_CAUSE = 0 ∧ t.flash = s.flash ∧ t.fuses = s.fuses ∧
      t.pending = s.pending ∧ t.sram = [] ∧ t.jobs = [] ∧ t.net = [] ∧ t.sched = [] ∧ t.keys = [] ∧
      ∀ rg : Rg, (t.rgn rg).dmem = [] ∧ (t.rgn rg).strokes = [] ∧ (t.rf rg F.RGN_STATUS_CFG = 0 ∨ t.rf rg F.RGN_STATUS_CFG = 3)) := by
  refine ⟨_, congrArg Host.Outcome.next (if_pos h), ?_⟩
  dsimp only
  generalize hu : ({ s with pwr := { s.pwr with vflOut := false, vhubOut := false, cause := 0 } } : State) = u
  have hkept : u.pwr.cause = 0 ∧ u.flash = s.flash ∧ u.fuses = s.fuses ∧ u.pending = s.pending := by subst hu; exact ⟨rfl, rfl, rfl, rfl⟩
  obtain ⟨hcause, hflash, hfuses, hpending⟩ := hkept
  have hnew := resetPackage_renewed u .resetLow
  obtain ⟨hpwr, hrst, hfl, hfu, -, hsram⟩ := resetPackage_leaves u .resetLow
  have hstores := hnew.stores
  have hcfg := hnew.cfg
  have hframe := hnew.frame
  clear hnew hu
  generalize resetPackage u .resetLow = t at *
  refine ⟨by rw [hpwr]; rfl, by rw [hrst, hcause]; rfl, hfl.trans hflash, hfu.trans hfuses, ?_, hsram, ?_, ?_, ?_, ?_, fun rg =>
    ⟨(hstores rg).1, (hstores rg).2, hcfg rg⟩⟩
  · rw [hframe]; exact hpending
  all_goals rw [hframe]; rfl

/-- The loss of VHUB resets a package that no thermal shutdown holds (R427). -/
theorem loseSupply_vhub {s : State} (h : s.pwr.boot ≠ .noPower) (vfl : Bool) :
    (loseSupply s true vfl).pwr.boot = .noPower ∧ (loseSupply s true vfl).f F.HIF_PINS_RST_CAUSE = 0 ∧
      (loseSupply s true vfl).f F.THM_STATUS_LAST_SHUTDOWN = 0 ∧ (loseSupply s true vfl).flash = s.flash ∧
      (loseSupply s true vfl).fuses = s.fuses ∧ (loseSupply s true vfl).sram = [] := by
  have hnot : ¬ (s.pwr.boot = .noPower ∨ (s.pwr.boot = .thermal ∧ ¬ true = true)) := by simp [h]
  generalize hu : ({ s with pwr := { s.pwr with vflOut := s.pwr.vflOut || vfl, vhubOut := s.pwr.vhubOut || true, cause := 0 } } : State) = u
  have heq : loseSupply s true vfl = (resetPackage u .noPower).setF F.THM_STATUS_LAST_SHUTDOWN 0 := by
    subst hu
    exact congrArg (fun v : State => v.setF F.THM_STATUS_LAST_SHUTDOWN 0) (if_neg hnot)
  have hkept : u.pwr.cause = 0 ∧ u.flash = s.flash ∧ u.fuses = s.fuses := by subst hu; exact ⟨rfl, rfl, rfl⟩
  obtain ⟨hcause, hflash, hfuses⟩ := hkept
  obtain ⟨hpwr, hrst, hfl, hfu, -, hsram⟩ := resetPackage_leaves u .noPower
  rw [heq]
  generalize resetPackage u .noPower = t at *
  refine ⟨?_, ?_, State.f_setF_eq _ _ _ (by decide), hfl.trans hflash, hfu.trans hfuses, hsram⟩
  · show t.pwr.boot = _
    rw [hpwr]; rfl
  · rw [State.f_setF_other _ _ _ _ (by decide) (by decide), hrst, hcause]; rfl

/-- The reset that NEIGHBOUR_DRAIN_END of the package performs (R22). -/
theorem packageDrained_resets {s : State} (hdrain : s.drainOf 4 = .reset) (hboot : s.pwr.boot = .up) :
    Completes (.neighbourDrainEnd .package) s (fun t => t.pwr.boot = .helmBoot ∧ t.f F.HIF_PINS_RST_CAUSE = s.pwr.cause.toNat ∧
      t.drainOf 4 = .none ∧ t.refusing = 0 ∧ t.sram = [] ∧ t.flash = s.flash ∧ t.fuses = s.fuses) := by
  obtain ⟨hpwr, hrst, hfl, hfu, href, hsram⟩ := resetPackage_leaves s .helmBoot
  have hexec : exec (.neighbourDrainEnd .package) s = .next (resetPackage s .helmBoot) := by
    show Host.Outcome.next (match s.drainOf 4 with | .reset => performPackageReset s | .enter _ => _ | .shutdown => _ | _ => s) = _
    rw [hdrain]
    dsimp only
    unfold performPackageReset
    rw [hboot]
  refine ⟨_, hexec, ?_⟩
  generalize resetPackage s .helmBoot = t at *
  exact ⟨by rw [hpwr]; rfl, hrst, by rw [State.drainOf, hpwr]; rfl, href, hsram, hfl, hfu⟩

theorem resetNRelease_samples {s : State} (prof addr : BitVec 2) (lode : Bool) (hboot : s.pwr.boot = .resetLow) (hidle : s.packageResetting = false) :
    Completes (.resetNRelease prof addr lode) s (fun t => t.pwr.boot = .helmBoot ∧ t.f F.HIF_PINS_PROF_SEL = prof.toNat ∧
      t.f F.HIF_PINS_ADDR_SEL = addr.toNat ∧ t.f F.HIF_PINS_LODESTAR = lode.toNat ∧ t.f F.CFG_GROUND_STAT_PIN_SEL = prof.toNat) := by
  refine ⟨_, congrArg Host.Outcome.next (if_neg (not_not.mpr hboot)), ?_⟩
  have hp := prof.isLt
  have ha := addr.isLt
  have hl : lode.toNat < 2 := by cases lode <;> decide
  simp only [hidle, Bool.false_eq_true, if_false]
  refine ⟨trivial, ?_, ?_, ?_, ?_⟩ <;> simp <;> omega

/-! ### Requests of a package reset -/

/-- The package as its reset has been requested with a cause, before a load is abandoned. -/
def resetRequested (s : State) (cause : Nat) : State :=
  ({ s with pwr := { s.pwr with cause := BitVec.ofNat 3 cause, shutdown := 0, exiting := false, goal := none,
                                wakeDue := none } }.setRefusing 4 true).setDrain 4 .reset

theorem requestPackageReset_eq {s : State} (hidle : s.packageResetting = false) (hup : s.hubPowered = true) (cause : Nat) :
    requestPackageReset s cause = abandonLoad (resetRequested s cause) := if_neg (by simp [hidle, hup])

/-- With no load to abandon the request is all. -/
theorem requestPackageReset_unloaded {s : State} (hidle : s.packageResetting = false) (hup : s.hubPowered = true)
    (hload : s.fullLoad = false) (hground : s.groundBusy = false) (cause : Nat) : requestPackageReset s cause = resetRequested s cause := by
  have hstate : ¬ (s.cfgState = 1 ∨ s.cfgState = 2) := by simpa [State.fullLoad] using hload
  rw [requestPackageReset_eq hidle hup]
  refine (if_neg fun h => hstate h.2).trans (if_neg ?_)
  show ¬ s.groundBusy = true
  simp [hground]

theorem resetRequested_drains (s : State) (cause : Nat) :
    (resetRequested s cause).refusing = setBit s.refusing 4 true ∧ (resetRequested s cause).drainOf 4 = .reset ∧
      (resetRequested s cause).pwr.cause = BitVec.ofNat 3 cause :=
  ⟨rfl, by simp [resetRequested, State.drainOf, State.setDrain], rfl⟩

end Sys2Proof.Machine
end

section
/-! PROOFS. What the sweep of the fabric leaves of the loader, of the regions and of power (R310–R320). -/

namespace Sys2Proof.Machine

/-- A hub register of the loader (R217). -/
def LoaderReg (a : Nat) : Prop := 0x60000 ≤ a ∧ a < 0x61000

/-- From `s` to `t` only the fabric has been swept: the hub's identity, the loader's registers and the package's epoch, its regions, its supplies
and its flash are as they were. -/
structure Sweeps (s t : State) : Prop where
  reg : ∀ a, a < 0x10 ∨ LoaderReg a → t.reg a = s.reg a
  epoch : t.f F.FAB_ID_EPOCH = s.f F.FAB_ID_EPOCH
  stores : (t.rgns, t.pwr, t.flash) = (s.rgns, s.pwr, s.flash)

/-- Addresses that the sweep writes, but for FAB.ID. -/
def SweepAddr (a : Nat) : Prop := 0x10 ≤ a ∧ a ≠ 0x80008 ∧ (a < 0x60000 ∨ 0x61000 ≤ a)

namespace Sweeps

theorem refl (s : State) : Sweeps s s := ⟨fun _ _ => rfl, rfl, rfl⟩

variable {s t u : State}

theorem trans (h : Sweeps s t) (h' : Sweeps t u) : Sweeps s u :=
  ⟨fun a ha => (h'.reg a ha).trans (h.reg a ha), h'.epoch.trans h.epoch, h'.stores.trans h.stores⟩

theorem other (h : Sweeps s t) (hu : (u.regs, u.rgns, u.pwr, u.flash) = (t.regs, t.rgns, t.pwr, t.flash)) : Sweeps s u := by
  obtain ⟨hregs, hstores⟩ := Prod.mk.inj hu
  exact h.trans ⟨fun a _ => by unfold State.reg; rw [hregs], State.f_of_regs hregs _, hstores⟩

theorem setReg (h : Sweeps s t) {a : Nat} (v : Word) (ha : SweepAddr a) : Sweeps s (t.setReg a v) := by
  refine h.trans ⟨fun b hb => State.reg_setReg_other t v ?_, State.f_setReg_other t _ v ?_, rfl⟩
  · unfold LoaderReg SweepAddr at *; omega
  · unfold SweepAddr at ha; dsimp only; omega

theorem setF (h : Sweeps s t) {x : Fld} (n : Nat) (ha : SweepAddr x.off) : Sweeps s (t.setF x n) := h.setReg _ ha

theorem bump (h : Sweeps s t) {x : Fld} (k : Nat) (ha : SweepAddr x.off) : Sweeps s (t.bump x k) := h.setReg _ ha

theorem setCoord (h : Sweeps s t) (n : Nat) : Sweeps s (t.setF F.FAB_ID_COORD n) := by
  refine h.trans ⟨fun b hb => State.reg_setF_other t _ _ ?_, State.f_setF_other t _ _ _ (by decide) (.inr (.inr (by decide))), rfl⟩
  unfold LoaderReg at hb; dsimp only; omega

theorem foldS {α : Type} {f : State → α → State} (l : List α) (hf : ∀ t, ∀ a ∈ l, Sweeps s t → Sweeps s (f t a)) (h : Sweeps s t) :
    Sweeps s (Machine.foldS l t f) := foldS_induct l hf h

theorem ibi (h : Sweeps s t) {cls : Nat} (loc arg : Nat) (hc : cls < 64) : Sweeps s (t.ibi cls loc arg) := by
  have hinfo : SweepAddr (F.HIF_IBI_INFO_LOC cls).off := by dsimp only; unfold SweepAddr; omega
  unfold State.ibi
  split
  · exact h.bump 1 (by unfold SweepAddr; decide)
  · have hpend := h.setReg (t.reg R.HIF_IBI_PEND ||| (1 <<< cls)) (a := R.HIF_IBI_PEND) (by unfold SweepAddr; decide)
    dsimp only
    split
    · have hdue : Sweeps s { t.setReg R.HIF_IBI_PEND (t.reg R.HIF_IBI_PEND ||| (1 <<< cls)) with
          i3c := { t.i3c with ibiDue := t.i3c.ibiDue ||| (1 <<< cls) } } := hpend.other rfl
      exact (hdue.setF loc hinfo).setF arg hinfo
    · exact (hpend.setF loc hinfo).setF arg hinfo

end Sweeps

theorem SweepAddr.fabric {a : Nat} (h : 0x61000 ≤ a) (hid : a ≠ 0x80008) : SweepAddr a := by unfold SweepAddr; omega

theorem SweepAddr.luidLo : SweepAddr R.FAB_LUID_LO := .fabric (by unfold R.FAB_LUID_LO; omega) (by unfold R.FAB_LUID_LO; omega)

theorem SweepAddr.luidHi : SweepAddr R.FAB_LUID_HI := .fabric (by unfold R.FAB_LUID_HI; omega) (by unfold R.FAB_LUID_HI; omega)

theorem Sweeps.setRole (s : State) (p : Nat) : Sweeps s (Machine.setRole s p) := by
  unfold Machine.setRole
  extract_lets n o s1 s2
  have h1 : Sweeps s s1 := ((Sweeps.refl s).setF n (.fabric (by dsimp only; omega) (by dsimp only; omega))).setF _
    (.fabric (by dsimp only; omega) (by dsimp only; omega))
  have h2 : Sweeps s s2 := by
    unfold s2
    split
    · exact (h1.setF 0 (.fabric (by dsimp only; omega) (by dsimp only; omega))).setF 0 (.fabric (by dsimp only; omega) (by dsimp only; omega))
    · exact h1
  split
  · exact (h2.setF 1 (.fabric (by decide) (by decide))).ibi _ _ (by decide)
  · exact h2

theorem Sweeps.setRoles (s : State) : Sweeps s (Machine.setRoles s) :=
  Sweeps.foldS _ (fun _ _ _ ht => ht.trans (Sweeps.setRole _ _)) (Sweeps.refl s)

theorem Sweeps.conflict (s : State) : Sweeps s (Machine.conflict s) := by
  have h1 := (Sweeps.refl s).setF (x := F.FAB_STATUS_CONFLICT) 1 (.fabric (by decide) (by decide))
  unfold Machine.conflict
  dsimp only
  split
  · exact h1
  · exact (h1.setF 2 (.fabric (by decide) (by decide))).ibi _ _ (by decide)

theorem Sweeps.offerSize (s : State) (d n : Nat) (wrap : Bool) : Sweeps s (Machine.offerSize s d n wrap) := by
  unfold Machine.offerSize
  extract_lets w put
  have hput : Sweeps s (put s) :=
    (((Sweeps.refl s).setF (x := F.FAB_SIZE_SIZE) _ (.fabric (by decide) (by decide))).setF (x := F.FAB_SIZE_WRAP) _
      (.fabric (by decide) (by decide))).other rfl
  clear_value put
  split
  · exact hput
  split
  · exact hput
  split
  · split
    · exact .refl s
    · exact .conflict s
  split
  · exact .refl s
  split
  · exact hput
  · exact .refl s

theorem Sweeps.ownOffers (s : State) : Sweeps s (Machine.ownOffers s) := by
  unfold Machine.ownOffers
  split
  · exact .refl s
  · refine Sweeps.foldS _ (fun t d _ ht => ?_) (Sweeps.refl s)
    beta_reduce
    extract_lets _ s1
    have h1 : Sweeps s s1 := by
      unfold s1
      split
      · exact ht.other rfl
      · exact ht
    split
    · exact h1.trans (.offerSize _ _ _ _)
    · exact h1

theorem Sweeps.setRing (s : State) (d : Nat) : Sweeps s (Machine.setRing s d) := by
  have hdown : SweepAddr (F.FAB_RING_DOWN_DOWN d).off := .fabric (by dsimp only; omega) (by dsimp only; omega)
  unfold Machine.setRing
  split
  · exact (Sweeps.refl s).setF 0 hdown
  · extract_lets z c up heard entry es down _ s1
    have h1 : Sweeps s s1 := (Sweeps.refl s).other rfl
    exact h1.setF _ hdown

theorem Sweeps.setRings (s : State) : Sweeps s (Machine.setRings s) :=
  Sweeps.foldS _ (fun _ _ _ ht => ht.trans (Sweeps.setRing _ _)) (Sweeps.refl s)

theorem Sweeps.unsettle (b s : State) : Sweeps s (Machine.unsettle b s) := by
  unfold Machine.unsettle
  split
  · exact (Sweeps.refl s).setF 0 (.fabric (by decide) (by decide))
  · exact .refl s

theorem Sweeps.sweepUpdate (b s : State) : Sweeps s (Machine.sweepUpdate b s) :=
  (((Sweeps.setRoles s).trans (.ownOffers _)).trans (.setRings _)).trans (.unsettle b _)

theorem Sweeps.discardSweep (s : State) : Sweeps s (Machine.discardSweep s) := by
  unfold Machine.discardSweep
  extract_lets s1 s2 s3 s4
  have h1 : Sweeps s s1 := ((Sweeps.refl s).setF (x := F.FAB_STATUS_COORD_VALID) 0 (.fabric (by decide) (by decide))).setCoord 0
  clear_value s1
  have h2 : Sweeps s s2 := ((h1.setF (x := F.FAB_SIZE_SIZE) 0 (.fabric (by decide) (by decide))).setF (x := F.FAB_SIZE_WRAP) 0
    (.fabric (by decide) (by decide))).setF (x := F.FAB_STATUS_LODESTAR) 0 (.fabric (by decide) (by decide))
  have h3 : Sweeps s s3 := Sweeps.foldS _ (fun t d _ ht => ht.setF 0 (.fabric (by dsimp only; omega) (by dsimp only; omega))) h2
  have h4 : Sweeps s s4 := Sweeps.foldS _ (fun t p _ ht =>
    (ht.setF 0 (.fabric (by dsimp only; omega) (by dsimp only; omega))).setF 0 (.fabric (by dsimp only; omega) (by dsimp only; omega))) h3
  clear_value s4
  exact h4.other rfl

theorem Sweeps.classed {s t : State} (h : Sweeps s t) (cls : Nat) : Sweeps s (Machine.classed t cls) := h.other rfl

theorem Sweeps.adopted (s : State) (cls : Nat) (uid : BitVec 64) : Sweeps s (Machine.adopted s cls uid) := by
  have h1 : Sweeps s (namedLode (Machine.discardSweep s) uid) := ((Sweeps.discardSweep s).setReg _ .luidLo).setReg _ .luidHi
  unfold Machine.adopted
  generalize namedLode (Machine.discardSweep s) uid = u at h1 ⊢
  exact (h1.classed cls).setF _ (.fabric (by decide) (by decide))

theorem Sweeps.hearCandidate (s : State) (cls : Nat) (uid : BitVec 64) : Sweeps s (Machine.hearCandidate s cls uid) := by
  rw [hearCandidate_eq]
  split
  · exact .refl s
  split
  · exact (Sweeps.refl s).other rfl
  split
  · split
    · exact (Sweeps.refl s).setF 1 (.fabric (by decide) (by decide))
    · exact .refl s
  split
  · exact ((Sweeps.adopted s cls uid).setF 1 (.fabric (by decide) (by decide))).setF 1 (.fabric (by decide) (by decide))
  split
  · exact (Sweeps.adopted s cls uid).setF 1 (.fabric (by decide) (by decide))
  · exact .adopted s cls uid

theorem Sweeps.considerSelf (s : State) : Sweeps s (Machine.considerSelf s) :=
  (Sweeps.hearCandidate s _ _).trans (.sweepUpdate s _)

theorem Sweeps.unheard {s t : State} (h : Sweeps s t) : Sweeps s (Machine.unheard t) := h.other rfl

theorem Sweeps.beginSweep (s : State) : Sweeps s (Machine.beginSweep s) := by
  have hbegun : Sweeps s (sweepBegun s) := by
    have hcleared : Sweeps s ((((Machine.discardSweep s).setReg R.FAB_LUID_LO 0).setReg R.FAB_LUID_HI 0).setF F.FAB_STATUS_SWEEP 3) :=
      (((Sweeps.discardSweep s).setReg (a := R.FAB_LUID_LO) 0 SweepAddr.luidLo).setReg (a := R.FAB_LUID_HI) 0
        SweepAddr.luidHi).setF (x := F.FAB_STATUS_SWEEP) 3 (.fabric (by decide) (by decide))
    exact hcleared.unheard.setF (x := F.FAB_STATUS_CONFLICT) 0 (.fabric (by decide) (by decide))
  rw [beginSweep_eq]
  exact (((hbegun.trans (.hearCandidate _ _ _)).trans (.setRoles _)).trans (.ownOffers _)).trans (.setRings _)

end Sys2Proof.Machine
end

section
/-! PROOFS. The ends of helm boot, of start-up BIST and of calibration, and a thermal shutdown (R20, R428, R443, R461). -/

namespace Sys2Proof.Machine

/-! ### The end of helm boot (R20, R428) -/

/-- The boot count is `n`, the firmware `fw`, and every epoch is the count's. -/
structure BootsWith (n fw : Word) (t : State) : Prop where
  boots : t.flash.boots = n
  fw : t.reg R.HUB_FW = fw
  epoch : t.f F.FAB_ID_EPOCH = n.toNat % 256
  epochs : ∀ rg : Rg, t.rf rg F.RGN_STATUS_EPOCH = n.toNat % 256

namespace BootsWith

variable {n fw : Word} {t u : State}

theorem other (h : BootsWith n fw t) (hu : (u.regs, u.rgns, u.flash) = (t.regs, t.rgns, t.flash)) : BootsWith n fw u := by
  obtain ⟨hregs, hrgns, hflash⟩ := by simpa only [Prod.mk.injEq] using hu
  refine ⟨hflash ▸ h.boots, ?_, (State.f_of_regs hregs _).trans h.epoch, fun rg => ?_⟩
  · rw [← h.fw]; unfold State.reg; rw [hregs]
  · rw [← h.epochs rg]; unfold State.rf State.rgn; rw [hrgns]

theorem sweeps (h : BootsWith n fw t) (hs : Sweeps t u) : BootsWith n fw u := by
  obtain ⟨hrgns, -, hflash⟩ := by simpa only [Prod.mk.injEq] using hs.stores
  refine ⟨hflash ▸ h.boots, (hs.reg _ (.inl (by decide))).trans h.fw, hs.epoch.trans h.epoch, fun rg => ?_⟩
  rw [← h.epochs rg]; unfold State.rf State.rgn; rw [hrgns]

theorem setReg (h : BootsWith n fw t) {a : Nat} (v : Word) (ha : a ≠ R.HUB_FW ∧ a ≠ 0x80008) : BootsWith n fw (t.setReg a v) :=
  ⟨h.boots, (State.reg_setReg_other t v ha.1.symm).trans h.fw, (State.f_setReg_other t _ v ha.2.symm).trans h.epoch, h.epochs⟩

theorem setF (h : BootsWith n fw t) {x : Fld} (v : Nat) (ha : x.off ≠ R.HUB_FW ∧ x.off ≠ 0x80008) : BootsWith n fw (t.setF x v) := h.setReg _ ha

theorem beginPackageTest (h : BootsWith n fw t) (occasion : Nat) : BootsWith n fw (beginPackageTest t occasion) := by
  unfold Machine.beginPackageTest
  extract_lets s1
  have h1 : BootsWith n fw s1 := (h.setF 1 ⟨by decide, by decide⟩).setF occasion ⟨by decide, by decide⟩
  clear_value s1
  exact h1.other rfl

end BootsWith

/-- The count of boots and the skip record as BOOT_END leaves them. -/
def bootCounted (s : State) : State := { s with flash := { s.flash with boots := s.flash.boots + 1, skip := none } }

/-- The epochs as BOOT_END sets them. -/
def bootEpochs (s : State) : State :=
  foldS allRegions ((bootCounted s).setF F.FAB_ID_EPOCH (s.flash.boots + 1).toNat)
    (fun t rg => t.setRf rg F.RGN_STATUS_EPOCH (s.flash.boots + 1).toNat)

theorem bootCounted_epoch (s : State) (n : Nat) : ((bootCounted s).setF F.FAB_ID_EPOCH n).flash.boots = s.flash.boots + 1 ∧
    ((bootCounted s).setF F.FAB_ID_EPOCH n).f F.FAB_ID_EPOCH = n % 256 := ⟨rfl, State.f_setF_eq _ _ _ (by decide)⟩

/-- Setting every region's epoch leaves the hub. -/
theorem setEpoch_eq (s : State) (rg : Rg) (n : Nat) : (s.setRf rg F.RGN_STATUS_EPOCH n).rf rg F.RGN_STATUS_EPOCH = n % 256 := by simp

theorem setEpoch_keeps {s : State} {rg : Rg} (rh : Rg) {n : Nat} (h : s.rf rg F.RGN_STATUS_EPOCH = n % 256) :
    (s.setRf rh F.RGN_STATUS_EPOCH n).rf rg F.RGN_STATUS_EPOCH = n % 256 := by
  by_cases hr : rg = rh
  · subst hr; exact setEpoch_eq s rg n
  · rw [State.rf_setRf_ne _ _ _ _ hr]; exact h

/-- Setting every region's epoch leaves the hub. -/
theorem foldS_epochs (t : State) (n : Nat) :
    (foldS allRegions t fun u rg => u.setRf rg F.RGN_STATUS_EPOCH n).flash = t.flash ∧
      (foldS allRegions t fun u rg => u.setRf rg F.RGN_STATUS_EPOCH n).regs = t.regs ∧
        ∀ rg : Rg, (foldS allRegions t fun u rg => u.setRf rg F.RGN_STATUS_EPOCH n).rf rg F.RGN_STATUS_EPOCH = n % 256 := by
  refine ⟨?_, ?_, fun rg => ?_⟩
  · exact foldS_keeps State.flash (f := fun u rg => u.setRf rg F.RGN_STATUS_EPOCH n) (fun _ _ => rfl) allRegions t
  · exact foldS_keeps State.regs (f := fun u rg => u.setRf rg F.RGN_STATUS_EPOCH n) (fun _ _ => rfl) allRegions t
  · exact foldS_reaches (f := fun u rg => u.setRf rg F.RGN_STATUS_EPOCH n) (P := fun u => u.rf rg F.RGN_STATUS_EPOCH = n % 256) (mem_allRegions rg)
      (fun u => setEpoch_eq u rg n) (fun u rh h => setEpoch_keeps rh h) t

theorem bootEpochs_boots (s : State) (fw : Word) : BootsWith (s.flash.boots + 1) fw ((bootEpochs s).setReg R.HUB_FW fw) := by
  obtain ⟨hboots, hepoch⟩ := bootCounted_epoch s (s.flash.boots + 1).toNat
  unfold bootEpochs
  generalize (bootCounted s).setF F.FAB_ID_EPOCH (s.flash.boots + 1).toNat = t at *
  obtain ⟨hflash, hregs, hrgn⟩ := foldS_epochs t (s.flash.boots + 1).toNat
  generalize foldS allRegions t _ = u at *
  refine ⟨?_, State.reg_setReg_same _ _ _, ?_, hrgn⟩
  · show u.flash.boots = _
    rw [hflash, hboots]
  · rw [State.f_setReg_other _ _ _ (by decide), State.f_of_regs hregs, hepoch]

theorem bootEnd_boots {s : State} (boots : Bool) (fw : Word) (hboot : s.pwr.boot = .helmBoot) :
    Completes (.bootEnd boots fw) s (fun t => t.flash.boots = s.flash.boots + 1 ∧ t.reg R.HUB_FW = fw ∧
      t.f F.FAB_ID_EPOCH = (s.flash.boots + 1).toNat % 256 ∧ (∀ rg : Rg, t.rf rg F.RGN_STATUS_EPOCH = (s.flash.boots + 1).toNat % 256) ∧
      t.pwr.boot = (if s.flash.skip = some s.flash.seq then .calibration else .selfTest)) := by
  refine ⟨_, congrArg Host.Outcome.next (if_neg (not_not.mpr hboot)), ?_⟩
  extract_lets n skips _ s1 s2 s3 s4 _ s5 s6 s7 s8
  have hs2 : s2 = bootEpochs s := rfl
  have h2 : BootsWith n fw (s2.setReg R.HUB_FW fw) := by rw [hs2]; exact bootEpochs_boots s fw
  clear_value s2
  have h3 : BootsWith n fw s3 := h2.setReg _ ⟨by decide, by decide⟩
  clear_value s3
  have h4 : BootsWith n fw s4 := foldS_induct _ (fun t q hq ht => ht.setF _ ⟨by unfold R.HUB_FW; dsimp only; omega, by have := List.mem_range.mp hq; dsimp only; omega⟩) h3
  clear_value s4
  have h5 : BootsWith n fw s5 := h4.other rfl
  have h6 : BootsWith n fw s6 := foldS_induct _ (fun t q _ ht => ht.other rfl) h5
  clear_value s6
  have h7 : BootsWith n fw s7 := h6.setF _ ⟨by decide, by decide⟩
  have h8 : BootsWith n fw s8 := by
    unfold s8
    split
    · exact h7
    · exact h7.beginPackageTest 0
  clear_value s8
  have h9 : BootsWith n fw { s8 with pwr := { s8.pwr with boot := if skips then .calibration else .selfTest } } := h8.other rfl
  have hboot9 : ({ s8 with pwr := { s8.pwr with boot := if skips then .calibration else .selfTest } } : State).pwr.boot =
      if s.flash.skip = some s.flash.seq then .calibration else .selfTest := by
    unfold skips
    simp only [decide_eq_true_eq]
  generalize ({ s8 with pwr := { s8.pwr with boot := if skips then .calibration else .selfTest } } : State) = s9 at h9 hboot9 ⊢
  have hsweep := Sweeps.beginSweep s9
  obtain ⟨hboots, hfw, hepoch, hepochs⟩ := h9.sweeps hsweep
  have hpwr := (Prod.mk.inj (Prod.mk.inj hsweep.stores).2).1
  exact ⟨hboots, hfw, hepoch, hepochs, by rw [hpwr]; exact hboot9⟩

/-! ### The end of start-up BIST (R460, R461) -/

/-- A package test whose results do not count, or which found nothing, leaves the counts and the flash. -/
theorem startupBistEnd_nothing {s : State} {r : BistReport} {off : List (BitVec 18)} (hboot : s.pwr.boot = .selfTest)
    (hnone : ∀ f ∈ r.fails, s.stepValid off f = false) :
    Completes (.startupBistEnd ⟨r, off⟩) s (fun t => t.pwr.boot = .calibration ∧
      t.f F.FLT_BIST_STAT_STATE = testState (off.isEmpty && (List.range 5).all (fun k => (SMap.get [] s.bist.lost k).isEmpty)) false ∧
      t.flash = s.flash ∧ t.f F.FLT_BIST_STAT_FAILS = s.f F.FLT_BIST_STAT_FAILS) := by
  have hfilter : r.fails.filter (s.stepValid off) = [] := List.filter_eq_nil_iff.mpr fun f hf => by simp [hnone f hf]
  have hresults : testResults s 0 { r with fails := r.fails.filter (s.stepValid off) } = (s, false) := by
    rw [hfilter]; rfl
  refine ⟨_, congrArg Host.Outcome.next (if_neg (not_not.mpr hboot)), ?_⟩
  unfold endPackageTest
  dsimp only
  rw [hresults]
  generalize (off.isEmpty && (List.range 5).all (fun k => (SMap.get [] s.bist.lost k).isEmpty)) = valid
  have hstate : testState valid false < 8 := by cases valid <;> decide
  refine ⟨rfl, ?_, rfl, ?_⟩ <;> simp
  omega

theorem startupBistEnd_lostDie {s : State} {r : BistReport} {off : List (BitVec 18)} {k : Nat} (hbegan : s.bist.began ≤ s.now)
    (hlost : SMap.get [] s.bist.lost k = [(s.bist.began, none)]) (hdie : ∀ f ∈ r.fails, (if f.hub = true then 4 else f.q.toNat) = k) :
    ∀ f ∈ r.fails, s.stepValid off f = false := by
  intro f hf
  have hheld : ∀ m, s.bist.began ≤ m → s.heldAt k m = false := by
    intro m hm
    simp [State.heldAt, hlost, hm]
  unfold State.stepValid
  rw [hdie f hf]
  dsimp only
  rw [hheld _ (by omega)]
  simp

theorem startupBistEnd_invalid {s : State} {r : BistReport} {off : List (BitVec 18)} (hboot : s.pwr.boot = .selfTest)
    (hnone : ∀ f ∈ r.fails, s.stepValid off f = false)
    (hbad : (off.isEmpty && (List.range 5).all (fun k => (SMap.get [] s.bist.lost k).isEmpty)) = false) :
    Completes (.startupBistEnd ⟨r, off⟩) s (fun t => t.pwr.boot = .calibration ∧ t.f F.FLT_BIST_STAT_STATE = 4 ∧
      t.flash = s.flash ∧ t.f F.FLT_BIST_STAT_FAILS = s.f F.FLT_BIST_STAT_FAILS) := by
  obtain ⟨t, hexec, hup, hstate, hflash, hfails⟩ := startupBistEnd_nothing hboot hnone
  exact ⟨t, hexec, hup, by rw [hstate, hbad]; rfl, hflash, hfails⟩

theorem startupBistEnd_passes {s : State} (hboot : s.pwr.boot = .selfTest) (hlost : s.bist.lost = []) :
    Completes (.startupBistEnd ⟨⟨[], []⟩, []⟩) s (fun t => t.pwr.boot = .calibration ∧ t.f F.FLT_BIST_STAT_STATE = 2 ∧ t.flash = s.flash) := by
  have hnone : ∀ f ∈ (⟨[], []⟩ : BistReport).fails, s.stepValid [] f = false := fun f hf => absurd hf List.not_mem_nil
  obtain ⟨t, hexec, hup, hstate, hflash, -⟩ := startupBistEnd_nothing hboot hnone
  exact ⟨t, hexec, hup, by rw [hstate, hlost]; rfl, hflash⟩

theorem stepValid_offClock {s : State} {r : BistReport} {off : List (BitVec 18)} (hoff : ∀ f ∈ r.fails, BitVec.ofNat 18 (macroOf f) ∈ off) :
    ∀ f ∈ r.fails, s.stepValid off f = false := by
  intro f hf
  have hin : off.contains (BitVec.ofNat 18 (macroOf f)) = true := by simpa using hoff f hf
  unfold State.stepValid
  dsimp only
  rw [hin]
  rfl

/-! ### A thermal shutdown (R443) -/

theorem thermalShutdown_leaves (s : State) :
    Completes .thermalShutdown s (fun t => t.pwr.boot = .thermal ∧ t.f F.THM_STATUS_LAST_SHUTDOWN = 1 ∧
      (∀ q : Fin 4, t.f (F.PWR_QSTAT_VQ q.val) = 0) ∧ t.flash = s.flash ∧ t.fuses = s.fuses) := by
  obtain ⟨hpwr, -, hflash, hfuses, -, -⟩ := resetPackage_leaves s .thermal
  refine ⟨_, rfl, ?_⟩
  generalize resetPackage s .thermal = u at *
  have hrails : ∀ q : Fin 4, (foldS (List.range 4) u fun s q => s.setF (F.PWR_QSTAT_VQ q) 0).f (F.PWR_QSTAT_VQ q.val) = 0 := fun q =>
    foldS_reaches (f := fun s q => s.setF (F.PWR_QSTAT_VQ q) 0) (P := fun t => t.f (F.PWR_QSTAT_VQ q.val) = 0) (List.mem_range.mpr q.isLt)
      (fun t => by simp) (fun t k ht => by
        by_cases hk : k = q.val
        · rw [hk]; simp
        · rw [State.f_setF_other _ _ _ _ (by simp) (by left; dsimp only; omega), ht]) u
  have hrest : (foldS (List.range 4) u fun s q => s.setF (F.PWR_QSTAT_VQ q) 0).pwr = u.pwr ∧
      (foldS (List.range 4) u fun s q => s.setF (F.PWR_QSTAT_VQ q) 0).flash = u.flash ∧
        (foldS (List.range 4) u fun s q => s.setF (F.PWR_QSTAT_VQ q) 0).fuses = u.fuses :=
    ⟨foldS_keeps State.pwr (f := fun s q => s.setF (F.PWR_QSTAT_VQ q) 0) (fun _ _ => rfl) _ _,
      foldS_keeps State.flash (f := fun s q => s.setF (F.PWR_QSTAT_VQ q) 0) (fun _ _ => rfl) _ _,
      foldS_keeps State.fuses (f := fun s q => s.setF (F.PWR_QSTAT_VQ q) 0) (fun _ _ => rfl) _ _⟩
  obtain ⟨hp, hfl, hfu⟩ := hrest
  generalize foldS (List.range 4) u _ = v at *
  refine ⟨?_, ?_, fun q => ?_, hfl.trans hflash, hfu.trans hfuses⟩
  · show v.pwr.boot = _
    rw [hp, hpwr]; rfl
  · simp
  · have hq := q.isLt
    rw [State.f_setF_other _ _ _ _ (by decide) (by left; dsimp only; omega), State.f_setF_other _ _ _ _ (by decide) (by left; dsimp only; omega), hrails q]

end Sys2Proof.Machine
end

section
/-! PROOFS. The start and the failure of a FULL load (R204, R206, R213, R215). -/

namespace Sys2Proof.Machine

/-! ### The quadrants whose reset a load requests (R22, R24) -/

/-- From `s` to `t` quadrants have begun to drain; the package has not. -/
structure QuadsDrain (s t : State) : Prop where
  frame : t = { s with refusing := t.refusing, pwr := { s.pwr with drains := t.pwr.drains } }
  ingress : t.refusing.getLsbD 4 = s.refusing.getLsbD 4
  package : t.drainOf 4 = s.drainOf 4

theorem requestQuadResets_drains (s : State) : QuadsDrain s (requestQuadResets s) := by
  have hrefl : QuadsDrain s s := ⟨rfl, rfl, rfl⟩
  refine foldS_induct (P := QuadsDrain s) _ (fun t q hq ht => ?_) hrefl
  have hq4 := List.mem_range.mp hq
  unfold requestQuadReset
  split
  · exact ht
  · refine ⟨?_, ?_, ?_⟩
    · conv_lhs => rw [ht.frame]
      rfl
    · show (setBit t.refusing q _).getLsbD 4 = _
      rw [← ht.ingress]
      exact getLsbD_setBit_ne _ _ (by omega)
    · have hd : ((t.setRefusing q true).setDrain q .reset).drainOf 4 = t.drainOf 4 := by
        unfold State.drainOf State.setDrain
        dsimp only
        exact SMap.get_set_ne Drain.none _ Drain.reset (show (4 : Nat) ≠ q by omega)
      exact hd.trans ht.package

/-! ### The partition is cleared -/

theorem SMap.get_keep_in {α : Type} (d : α) (p : Nat → Bool) (m : SMap α) {k : Nat} (hk : p k = true) : SMap.get d (SMap.keep p m) k = SMap.get d m k := by
  induction m with
  | nil => rfl
  | cons e m ih =>
    obtain ⟨k', v⟩ := e
    unfold SMap.keep at ih ⊢
    rw [List.filter_cons]
    split
    · unfold SMap.get
      split
      · rfl
      · exact ih
    · rename_i hp
      have hne : k' ≠ k := fun he => hp (by subst he; exact hk)
      exact ih.trans (if_neg hne).symm

/-- The registers without those of the partition. -/
def partForgotten (s : State) : State := { s with regs := SMap.keep (fun a => decide (a < 0x63000) || decide (0x65000 ≤ a)) s.regs }

/-- No region is in a job: `t` is `s` but for that. -/
theorem clearPart_frame (s : State) : (clearPart s) = { s with regs := (partForgotten s).regs, rgns := (clearPart s).rgns } ∧
    ∀ rg : Rg, (clearPart s).rf rg F.RGN_STATUS_IN_JOB = 0 := by
  have heq : clearPart s = foldS allRegions (partForgotten s) fun s rg => (s.setRf rg F.RGN_STATUS_IN_JOB 0).setRf rg F.RGN_STATUS_JOB 0 := rfl
  have hset : ∀ (u : State) (rg : Rg), ((u.setRf rg F.RGN_STATUS_IN_JOB 0).setRf rg F.RGN_STATUS_JOB 0).rf rg F.RGN_STATUS_IN_JOB = 0 := fun u rg => by
    simp
  rw [heq]
  generalize hp : partForgotten s = u
  constructor
  · refine foldS_induct (P := fun t => t = { s with regs := u.regs, rgns := t.rgns }) _ (fun t rg _ ht => ?_) ?_
    · conv_lhs => rw [ht]
      rfl
    · subst hp; rfl
  · intro rg
    refine foldS_reaches (f := fun s rg => (s.setRf rg F.RGN_STATUS_IN_JOB 0).setRf rg F.RGN_STATUS_JOB 0)
      (P := fun t => t.rf rg F.RGN_STATUS_IN_JOB = 0) (mem_allRegions rg) (fun t => hset t rg) (fun t rh ht => ?_) u
    by_cases hr : rg = rh
    · subst hr; exact hset t rg
    · rw [State.rf_setRf_ne _ _ _ _ hr, State.rf_setRf_ne _ _ _ _ hr]; exact ht

theorem clearPart_reg (s : State) {a : Nat} (ha : a < 0x63000 ∨ 0x65000 ≤ a) : (clearPart s).reg a = s.reg a := by
  rw [(clearPart_frame s).1]
  exact SMap.get_keep_in _ (fun a => decide (a < 0x63000) || decide (0x65000 ≤ a)) _ (by simpa using ha)

/-! ### A load fails (R204) -/

/-- The loader's registers as a failing load writes them. -/
def failWritten (s : State) (code : Nat) (rg : Rg) (ix ofs : Nat) : State :=
  let s := if s.load.path = 1 then (s.setF F.CFG_STATUS_GROUND_ERR 1).setF F.CFG_GROUND_STAT_RESULT code else s
  let s := s.setReg R.CFG_ERR (faultKey [(code, 4), (quadOf rg, 2), (numOf rg, 4), (ix, 10)])
  let s := (s.setReg R.CFG_ERR_OFFSET_LO (BitVec.ofNat 32 ofs)).setF F.CFG_ERR_OFFSET_HI_OFS_HI (ofs / 2 ^ 32)
  (s.setF F.CFG_STATUS_STATE 5).bump F.CFG_LOADS_FAILED 1

/-- A failing load is written down and reported. -/
def failNoted (s : State) (code : Nat) (rg : Rg) (ix ofs : Nat) : State := (failWritten s code rg ix ofs).ibi 0x05 0 code

/-- A failing load is dropped, with the keys and the loader's window. -/
def failDropped (s : State) : State := { s with load := {}, keys := [], sram := SMap.keep (fun a => decide (windowBytes ≤ a)) s.sram }

theorem failLoad_eq (s : State) (code : Nat) (rg : Rg) (ix ofs : Nat) :
    failLoad s code rg ix ofs = requestQuadResets (clearPart (failDropped (failNoted s code rg ix ofs))) := rfl

theorem State.ibi_frame (s : State) (cls loc arg : Nat) :
    s.ibi cls loc arg = { s with regs := (s.ibi cls loc arg).regs, i3c := (s.ibi cls loc arg).i3c } := by
  unfold State.ibi
  dsimp only
  split
  · rfl
  · split <;> rfl

theorem State.ibi_frame_of {s t : State} (h : t = { s with regs := t.regs }) (cls loc arg : Nat) :
    t.ibi cls loc arg = { s with regs := (t.ibi cls loc arg).regs, i3c := (t.ibi cls loc arg).i3c } := by
  conv_lhs => rw [State.ibi_frame]
  generalize (t.ibi cls loc arg).regs = r, (t.ibi cls loc arg).i3c = i
  rw [h]

/-- Registers may be written one after another: nothing else moves. -/
theorem State.setReg_frame {s t : State} (h : t = { s with regs := t.regs }) (a : Nat) (v : Word) :
    t.setReg a v = { s with regs := (t.setReg a v).regs } := by
  conv_lhs => unfold State.setReg; rw [h]
  rfl

theorem failWritten_frame (s : State) (code : Nat) (rg : Rg) (ix ofs : Nat) :
    failWritten s code rg ix ofs = { s with regs := (failWritten s code rg ix ofs).regs } := by
  unfold failWritten
  extract_lets s1 s2 s3
  have h1 : s1 = { s with regs := s1.regs } := by
    unfold s1
    split
    · exact State.setReg_frame (State.setReg_frame rfl _ _) _ _
    · rfl
  clear_value s1
  have h2 : s2 = { s with regs := s2.regs } := State.setReg_frame h1 _ _
  clear_value s2
  have h3 : s3 = { s with regs := s3.regs } := State.setReg_frame (State.setReg_frame h2 _ _) _ _
  clear_value s3
  exact State.setReg_frame (State.setReg_frame h3 _ _) _ _

theorem failNoted_frame (s : State) (code : Nat) (rg : Rg) (ix ofs : Nat) :
    failNoted s code rg ix ofs = { s with regs := (failNoted s code rg ix ofs).regs, i3c := (failNoted s code rg ix ofs).i3c } := by
  exact State.ibi_frame_of (failWritten_frame s code rg ix ofs) _ _ _

theorem failNoted_fields (s : State) {code : Nat} (hc : code < 16) (rg : Rg) (ix ofs : Nat) :
    (failNoted s code rg ix ofs).f F.CFG_STATUS_STATE = 5 ∧ (failNoted s code rg ix ofs).f F.CFG_ERR_CODE = code ∧
      (failNoted s code rg ix ofs).f F.CFG_LOADS_FAILED = min (s.f F.CFG_LOADS_FAILED + 1) F.CFG_LOADS_FAILED.max ∧
        (failNoted s code rg ix ofs).f F.CFG_STATUS_SLOT = s.f F.CFG_STATUS_SLOT ∧
          (failNoted s code rg ix ofs).f F.CFG_STATUS_SOURCE = s.f F.CFG_STATUS_SOURCE := by
  have hcode : ((faultKey [(code, 4), (quadOf rg, 2), (numOf rg, 4), (ix, 10)]).toNat / 2 ^ 0 % 2 ^ 4) = code := by
    simp only [faultKey, packKey, BitVec.toNat_ofNat]
    omega
  unfold failNoted failWritten
  extract_lets s1 s2 s3
  have h1 : s1.f F.CFG_LOADS_FAILED = s.f F.CFG_LOADS_FAILED ∧ s1.f F.CFG_STATUS_SLOT = s.f F.CFG_STATUS_SLOT ∧
      s1.f F.CFG_STATUS_SOURCE = s.f F.CFG_STATUS_SOURCE := by unfold s1; split <;> simp
  clear_value s1
  obtain ⟨hfailed, hslot, hsource⟩ := h1
  have hibi : ∀ (t : State) (x : Fld), 0x60000 ≤ x.off → (t.ibi 0x05 0 code).f x = t.f x := fun t x hx =>
    State.f_ibi t _ _ _ x (by unfold R.HIF_IBI_PEND; omega) (by dsimp only; omega) (by dsimp only; omega)
  refine ⟨?_, ?_, ?_, ?_, ?_⟩ <;> rw [hibi _ _ (by decide)] <;> unfold s3 s2
  · simp
  · rw [State.f_bump_other _ _ _ _ (by decide) (by decide), State.f_setF_other _ _ _ _ (by decide) (by decide),
      State.f_setF_other _ _ _ _ (by decide) (by decide), State.f_setReg_other _ _ _ (by decide), State.f, State.reg_setReg_same]
    exact hcode
  · simp [hfailed]
  · simp [hslot]
  · simp [hsource]

/-- What a failing load leaves: STATE reads ERROR with the code, the failure is counted, the keys are gone, and no region is in a job. -/
theorem failLoad_fails (s : State) {code : Nat} (hc : code < 16) (rg : Rg) (ix ofs : Nat) :
    (failLoad s code rg ix ofs).f F.CFG_STATUS_STATE = 5 ∧ (failLoad s code rg ix ofs).f F.CFG_ERR_CODE = code ∧
      (failLoad s code rg ix ofs).f F.CFG_LOADS_FAILED = min (s.f F.CFG_LOADS_FAILED + 1) F.CFG_LOADS_FAILED.max ∧
        (failLoad s code rg ix ofs).f F.CFG_STATUS_SLOT = s.f F.CFG_STATUS_SLOT ∧
          (failLoad s code rg ix ofs).f F.CFG_STATUS_SOURCE = s.f F.CFG_STATUS_SOURCE := by
  have hkept : ∀ x : Fld, x.off < 0x63000 → (failLoad s code rg ix ofs).f x = (failNoted s code rg ix ofs).f x := fun x hx => by
    have hquads : ∀ c : State, (requestQuadResets c).f x = c.f x := fun c => State.f_of_regs (by rw [(requestQuadResets_drains c).frame]) x
    rw [failLoad_eq, hquads, State.f, clearPart_reg _ (.inl hx)]
    rfl
  obtain ⟨hstate, hcode, hfailed, hslot, hsource⟩ := failNoted_fields s hc rg ix ofs
  exact ⟨(hkept _ (by decide)).trans hstate, (hkept _ (by decide)).trans hcode, (hkept _ (by decide)).trans hfailed,
    (hkept _ (by decide)).trans hslot, (hkept _ (by decide)).trans hsource⟩

/-- What else a failing load leaves and drops. -/
theorem failLoad_drops (s : State) (code : Nat) (rg : Rg) (ix ofs : Nat) :
    (failLoad s code rg ix ofs).load = {} ∧ (failLoad s code rg ix ofs).keys = [] ∧ (failLoad s code rg ix ofs).flash = s.flash ∧
      (failLoad s code rg ix ofs).pwr = { s.pwr with drains := (failLoad s code rg ix ofs).pwr.drains } ∧
      (failLoad s code rg ix ofs).refusing.getLsbD 4 = s.refusing.getLsbD 4 ∧ (failLoad s code rg ix ofs).drainOf 4 = s.drainOf 4 ∧
      ∀ rh : Rg, (failLoad s code rg ix ofs).rf rh F.RGN_STATUS_IN_JOB = 0 := by
  have hq := requestQuadResets_drains (clearPart (failDropped (failNoted s code rg ix ofs)))
  obtain ⟨hpart, hjobs⟩ := clearPart_frame (failDropped (failNoted s code rg ix ofs))
  rw [← failLoad_eq] at hq
  have hnoted := failNoted_frame s code rg ix ofs
  obtain ⟨hframe, hingress, hpackage⟩ := hq
  generalize failLoad s code rg ix ofs = t at *
  generalize clearPart (failDropped (failNoted s code rg ix ofs)) = c at *
  have hdrain : c.drainOf 4 = s.drainOf 4 := by rw [hpart, failDropped, hnoted]; rfl
  refine ⟨?_, ?_, ?_, ?_, ?_, hpackage.trans hdrain, fun rh => ?_⟩
  · rw [hframe, hpart]; rfl
  · rw [hframe, hpart]; rfl
  · rw [hframe, hpart, failDropped, hnoted]
  · rw [hframe, hpart, failDropped, hnoted]
  · rw [hingress, hpart, failDropped, hnoted]
  · rw [hframe]; exact hjobs rh

/-! ### A load starts (R200, R215) -/

/-- From `s` to `t` the loader has moved; the flash and what power is about, but for drains, are as they were. -/
structure LoaderMoves (s t : State) : Prop where
  flash : t.flash = s.flash
  pwr : t.pwr = { s.pwr with drains := t.pwr.drains }
  slot : t.f F.CFG_STATUS_SLOT = s.f F.CFG_STATUS_SLOT

namespace LoaderMoves

theorem refl (s : State) : LoaderMoves s s := ⟨rfl, rfl, rfl⟩

variable {s t u : State}

theorem trans (h : LoaderMoves s t) (h' : LoaderMoves t u) : LoaderMoves s u :=
  ⟨h'.flash.trans h.flash, by rw [h'.pwr, h.pwr], h'.slot.trans h.slot⟩

theorem boot (h : LoaderMoves s t) : t.pwr.boot = s.pwr.boot := by rw [h.pwr]

theorem other (h : LoaderMoves s t) (hu : (u.flash, u.pwr, u.regs) = (t.flash, t.pwr, t.regs)) : LoaderMoves s u := by
  obtain ⟨hflash, hpwr, hregs⟩ := by simpa only [Prod.mk.injEq] using hu
  exact h.trans ⟨hflash, by rw [hpwr], State.f_of_regs hregs _⟩

theorem setReg (h : LoaderMoves s t) {a : Nat} (v : Word) (ha : F.CFG_STATUS_SLOT.off ≠ a) : LoaderMoves s (t.setReg a v) :=
  h.trans ⟨rfl, rfl, State.f_setReg_other t _ v ha⟩

theorem setF (h : LoaderMoves s t) {x : Fld} (n : Nat) (hw : x.lo + x.w ≤ 32) (hx : x.off ≠ 0x60004 ∨ x.lo + x.w ≤ 12 ∨ 14 ≤ x.lo) :
    LoaderMoves s (t.setF x n) :=
  h.trans ⟨rfl, rfl, State.f_setF_other t _ _ _ hw (by dsimp only; omega)⟩

end LoaderMoves

theorem requestQuadResets_moves (s : State) : LoaderMoves s (requestQuadResets s) := by
  have hframe := (requestQuadResets_drains s).frame
  generalize requestQuadResets s = t at *
  exact ⟨by rw [hframe], by rw [hframe], State.f_of_regs (by rw [hframe]) _⟩

theorem clearPart_moves (s : State) : LoaderMoves s (clearPart s) := by
  have hslot : (clearPart s).f F.CFG_STATUS_SLOT = s.f F.CFG_STATUS_SLOT := by unfold State.f; rw [clearPart_reg _ (.inl (by decide))]
  have hframe := (clearPart_frame s).1
  generalize clearPart s = t at *
  exact ⟨by rw [hframe], by rw [hframe], hslot⟩

/-- The loader's registers as a load begins. -/
def startWritten (s : State) (path : Nat) : State :=
  let s := (s.setF F.CFG_STATUS_STATE 1).setF F.CFG_STATUS_SOURCE path
  let s := ((s.setF F.CFG_STATUS_ENC 0).setF F.CFG_STATUS_DONE_SEEN 0).setF F.CFG_STATUS_DONE_PIN 0
  let s := ((s.setF F.RTC_STATUS_ENC_SEEN 0).setReg R.RTC_DIRTY_LO 0).setReg R.RTC_DIRTY_HI 0
  s.setReg R.CFG_ERR 0

/-- The loader's own state as a load begins. -/
def startOpened (s : State) (path : Nat) : State :=
  { s with load := { s.load with kind := .full, path := BitVec.ofNat 2 path, point := 0, sections := 0, sec := none, slots := 0,
                                 settings := [], touched := 0 } }

theorem startOpened_reg (s : State) (path a : Nat) : (startOpened s path).reg a = s.reg a := rfl

theorem startLoad_eq (s : State) (path : Nat) :
    startLoad s path = requestQuadResets (clearPart (startOpened (startWritten s path) path)) := rfl

theorem LoaderMoves.opened {s t : State} (h : LoaderMoves s t) (path : Nat) : LoaderMoves s (startOpened t path) := h.other rfl

theorem startWritten_moves (s : State) (path : Nat) : LoaderMoves s (startWritten s path) := by
  unfold startWritten
  extract_lets s1 s2 s3
  have h1 : LoaderMoves s s1 := ((LoaderMoves.refl s).setF _ (by decide) (by decide)).setF _ (by decide) (by decide)
  clear_value s1
  have h2 : LoaderMoves s s2 := ((h1.setF _ (by decide) (by decide)).setF _ (by decide) (by decide)).setF _ (by decide) (by decide)
  clear_value s2
  have h3 : LoaderMoves s s3 := ((h2.setF _ (by decide) (by decide)).setReg _ (by decide)).setReg _ (by decide)
  clear_value s3
  exact h3.setReg _ (by decide)

theorem startLoad_moves (s : State) (path : Nat) : LoaderMoves s (startLoad s path) := by
  rw [startLoad_eq]
  have hopened : LoaderMoves s (startOpened (startWritten s path) path) := (startWritten_moves s path).opened path
  exact (hopened.trans (clearPart_moves _)).trans (requestQuadResets_moves _)

theorem startLoad_reg (s : State) (path : Nat) {a : Nat} (ha : a < 0x63000) : (startLoad s path).reg a = (startWritten s path).reg a := by
  have hquads : ∀ c : State, (requestQuadResets c).reg a = c.reg a := fun c => by rw [(requestQuadResets_drains c).frame]; rfl
  rw [startLoad_eq, hquads, clearPart_reg _ (.inl ha), startOpened_reg]

theorem startLoad_begins (s : State) {path : Nat} (hp : path < 4) :
    (startLoad s path).f F.CFG_STATUS_STATE = 1 ∧ (startLoad s path).f F.CFG_STATUS_SOURCE = path := by
  have hreg : ∀ x : Fld, x.off < 0x63000 → (startLoad s path).f x = (startWritten s path).f x := fun x hx => by
    unfold State.f; rw [startLoad_reg s path hx]
  rw [hreg _ (by decide), hreg _ (by decide)]
  unfold startWritten
  constructor
  · simp
  · simp; omega

theorem failLoad_moves (s : State) {code : Nat} (hc : code < 16) (rg : Rg) (ix ofs : Nat) : LoaderMoves s (failLoad s code rg ix ofs) := by
  obtain ⟨-, -, -, hslot, -⟩ := failLoad_fails s hc rg ix ofs
  obtain ⟨-, -, hflash, hpwr, -⟩ := failLoad_drops s code rg ix ofs
  exact ⟨hflash, hpwr, hslot⟩

theorem headerFlaw_lt {s : State} {full : Bool} {c : Nat} (h : headerFlaw s full = some c) : c < 16 := by
  unfold headerFlaw at h
  split_ifs at h <;> simp only [Option.some.injEq] at h <;> omega

/-- A header starts a load, or is turned away with its code. -/
theorem takeFullHeader_takes (s : State) {path : Nat} (hp : path < 4) :
    LoaderMoves s (takeFullHeader s path) ∧ (takeFullHeader s path).f F.CFG_STATUS_SOURCE = path ∧
      ((takeFullHeader s path).cfgState = 1 ∨ (takeFullHeader s path).cfgState = 5) := by
  have hmoves := startLoad_moves s path
  obtain ⟨hstate, hsource⟩ := startLoad_begins s hp
  unfold takeFullHeader
  generalize startLoad s path = u at *
  dsimp only
  split
  next c hc =>
    have hlt := headerFlaw_lt hc
    obtain ⟨hfstate, -, -, -, hfsource⟩ := failLoad_fails u hlt 0 0 0
    exact ⟨hmoves.trans (failLoad_moves u hlt 0 0 0), hfsource.trans hsource, .inr hfstate⟩
  next => exact ⟨hmoves.other rfl, hsource, .inl hstate⟩

/-! ### A ground is loaded (R213, R215) -/

theorem unwrapInto_moves (s : State) (n : Nat) (w : BitVec 384) : LoaderMoves s (unwrapInto s n w) := by
  have hkey : ∀ v, LoaderMoves s (s.setKey n v) := fun v => (LoaderMoves.refl s).other rfl
  have hfail : LoaderMoves s ((s.setKey n 0).setF F.CFG_PKEY_STAT_UNWRAP_FAIL 1) := (hkey 0).setF _ (by decide) (by decide)
  unfold unwrapInto
  extract_lets fail
  split
  · exact hfail
  · extract_lets id
    split
    · exact hfail
    · exact hkey _

theorem loadCopy_loads (s : State) {n : Nat} (hn : n < 4) (c second : Bool) :
    (loadCopy s n c second).flash = s.flash ∧ (loadCopy s n c second).pwr.boot = s.pwr.boot ∧ (loadCopy s n c second).f F.CFG_STATUS_SLOT = n ∧
      (loadCopy s n c second).f F.CFG_STATUS_SOURCE = 1 ∧ ((loadCopy s n c second).cfgState = 1 ∨ (loadCopy s n c second).cfgState = 5) := by
  unfold loadCopy
  extract_lets x s1 stage s2
  have h1 : LoaderMoves s s1 := by
    unfold s1
    split
    · exact .refl s
    · exact unwrapInto_moves s 7 _
  clear_value s1 stage
  have h2 : s2.flash = s.flash ∧ s2.pwr.boot = s.pwr.boot ∧ s2.f F.CFG_STATUS_SLOT = n := by
    refine ⟨h1.flash, h1.boot, ?_⟩
    unfold s2
    simp
    omega
  clear_value s2
  obtain ⟨hflash, hboot, hslot⟩ := h2
  have h3 : LoaderMoves s2 (if second = true then s2.setF F.CFG_STATUS_GROUND_FALLBACK 1 else s2) := by
    split
    · exact (LoaderMoves.refl s2).setF _ (by decide) (by decide)
    · exact .refl s2
  obtain ⟨hmoves, hsource, hstate⟩ := takeFullHeader_takes (if second = true then s2.setF F.CFG_STATUS_GROUND_FALLBACK 1 else s2) (path := 1) (by decide)
  have hall := h3.trans hmoves
  exact ⟨hall.flash.trans hflash, hall.boot.trans hboot, hall.slot.trans hslot, hsource, hstate⟩

/-- A slot without a valid copy leaves STATE and reports the error. -/
theorem loadGround_none {s : State} {n : Nat} (hn : n < 4) (hnone : s.activeCopy n = none) :
    (loadGround s n).f F.CFG_STATUS_SLOT = n ∧ (loadGround s n).f F.CFG_STATUS_GROUND_ERR = 1 ∧ (loadGround s n).cfgState = s.cfgState ∧
      (loadGround s n).flash = s.flash ∧ (loadGround s n).pwr.boot = s.pwr.boot := by
  have hmod : n % 4 = n := Nat.mod_eq_of_lt hn
  have hibi : ∀ (t : State) (arg : Nat) (x : Fld), 0x60000 ≤ x.off → (t.ibi 0x05 0 arg).f x = t.f x := fun t arg x hx =>
    State.f_ibi t _ _ _ x (by unfold R.HIF_IBI_PEND; omega) (by dsimp only; omega) (by dsimp only; omega)
  unfold loadGround
  rw [hnone]
  dsimp only
  unfold State.cfgState
  refine ⟨?_, ?_, ?_, ?_, ?_⟩
  · rw [hibi _ _ _ (by decide)]; simp [hmod]
  · rw [hibi _ _ _ (by decide)]; simp
  · rw [hibi _ _ _ (by decide)]; simp [State.draw]
  · rw [State.ibi_frame]; rfl
  · rw [State.ibi_pwr]; rfl

theorem loadGround_some {s : State} {n : Nat} {c : Bool} (hsome : s.activeCopy n = some c) :
    ∃ second, loadGround s n = loadCopy s n c second := by
  unfold loadGround
  rw [hsome]
  exact ⟨_, rfl⟩

theorem loadGround_boot (s : State) {n : Nat} (hn : n < 4) : (loadGround s n).pwr.boot = s.pwr.boot := by
  cases hcopy : s.activeCopy n with
  | none => exact (loadGround_none hn hcopy).2.2.2.2
  | some c =>
    obtain ⟨second, heq⟩ := loadGround_some hcopy
    rw [heq]
    exact (loadCopy_loads s hn c second).2.1

end Sys2Proof.Machine
end

section
/-! PROOFS. What a reset's steps leave of the regions' stores (R22, R25, R28). -/

namespace Sys2Proof.Machine

/-- The stores of a region, its clusters and its status. -/
abbrev Region.holdings (r : Region) : SMap (BitVec 112) × SMap Entry × SMap (BitVec 2048) × SMap Cluster × Word :=
  (r.strokes, r.dmem, r.canvas, r.clusters, r.reg R.RGN_STATUS)

theorem Region.holdings_setF (r : Region) (x : Fld) (n : Nat) (hx : 4 ≠ x.off) : (r.setF x n).holdings = r.holdings := by
  have hreg : (r.setF x n).reg R.RGN_STATUS = r.reg R.RGN_STATUS := Region.reg_setF_other _ _ _ hx
  simp only [Region.holdings, hreg]
  rfl

/-- From `s` to `t` the holdings of every region are as they were, and an empty injection stays empty. -/
structure Rests (s t : State) : Prop where
  holdings : ∀ rg, (t.rgn rg).holdings = (s.rgn rg).holdings
  inject : ∀ rg, (s.rgn rg).inject = [] → (t.rgn rg).inject = []

namespace Rests

theorem refl (s : State) : Rests s s := ⟨fun _ => rfl, fun _ h => h⟩

variable {s t u : State}

theorem trans (h : Rests s t) (h' : Rests t u) : Rests s u :=
  ⟨fun rg => (h'.holdings rg).trans (h.holdings rg), fun rg hi => h'.inject rg (h.inject rg hi)⟩

theorem of_rgn (h : Rests s t) (hu : ∀ rg, u.rgn rg = t.rgn rg) : Rests s u :=
  h.trans ⟨fun rg => by rw [hu rg], fun rg hi => by rw [hu rg]; exact hi⟩

theorem other (h : Rests s t) (hu : u.rgns = t.rgns) : Rests s u := h.of_rgn fun rg => by unfold State.rgn; rw [hu]

theorem setReg (h : Rests s t) (a : Nat) (v : Word) : Rests s (t.setReg a v) := h.other rfl

theorem setF (h : Rests s t) (x : Fld) (n : Nat) : Rests s (t.setF x n) := h.other rfl

theorem bump (h : Rests s t) (x : Fld) (k : Nat) : Rests s (t.bump x k) := h.other rfl

theorem draw (h : Rests s t) (w : Nat) : Rests s (t.draw w).2 := h.other rfl

theorem ibi (h : Rests s t) (cls loc arg : Nat) : Rests s (t.ibi cls loc arg) := h.of_rgn fun _ => State.rgn_ibi _ _ _ _ _

theorem noteFault (h : Rests s t) (src l : Nat) (key : Word) : Rests s (t.noteFault src l key) := h.of_rgn fun _ => State.rgn_noteFault _ _ _ _ _

theorem onRgn (h : Rests s t) (rg : Rg) {g : Region → Region} (hg : (g (t.rgn rg)).holdings = (t.rgn rg).holdings)
    (hi : (t.rgn rg).inject = [] → (g (t.rgn rg)).inject = []) : Rests s (t.onRgn rg g) := by
  refine h.trans ⟨fun rh => ?_, fun rh hr => ?_⟩
  · by_cases hr : rh = rg
    · subst hr; rw [State.rgn_onRgn_same]; exact hg
    · rw [State.rgn_onRgn_other _ _ hr]
  · by_cases he : rh = rg
    · subst he; rw [State.rgn_onRgn_same]; exact hi hr
    · rw [State.rgn_onRgn_other _ _ he]; exact hr

theorem setRf (h : Rests s t) (rg : Rg) (x : Fld) (n : Nat) (hx : R.RGN_STATUS ≠ x.off) : Rests s (t.setRf rg x n) :=
  h.onRgn rg (Region.holdings_setF _ x n hx) (fun hi => hi)

theorem foldS {α : Type} {f : State → α → State} (h : Rests s t) (l : List α) (hf : ∀ u, ∀ a ∈ l, Rests s u → Rests s (f u a)) :
    Rests s (Machine.foldS l t f) := foldS_induct (P := Rests s) l hf h

theorem tokens (h : Rests s t) (hu : TokensMove t u) : Rests s u :=
  h.trans ⟨fun rg => by rw [hu.region rg]; rfl, fun rg hi => by rw [hu.region rg]; exact hi⟩

/-! ### What stops with a region -/

theorem flushCrossings (h : Rests s t) : Rests s (flushCrossings t) := (h.draw 8).bump _ _

theorem dropTokens (h : Rests s t) (q : Nat) : Rests s (dropTokens t q) := h.tokens ((TokensMove.refl _).dropTokens q)

theorem flushRegion (h : Rests s t) (rg : Rg) : Rests s (flushRegion t rg) := (h.flushCrossings.dropTokens (quadOf rg)).other rfl

theorem breakSem (h : Rests s t) (n : Nat) : Rests s (breakSem t n) := by
  unfold Machine.breakSem
  split
  · exact h
  · have hsem : ∀ v, Rests s ((((t.setReg (R.SEM_HOLDER n) 0).setReg (R.SEM_HOLD_TIME n) 0).setReg R.SEM_STATUS v).bump F.SEM_COUNTS_BROKEN 1 |>.noteFault
        19 4 (faultKey [(n, 5)])) := fun v => ((((h.setReg _ _).setReg _ _).setReg _ v).bump _ _).noteFault _ _ _
    dsimp only
    split
    · exact ((hsem _).setF _ _).ibi _ _ _
    · exact hsem _

theorem breakOwned (h : Rests s t) (p : Node → Bool) : Rests s (breakOwned t p) := by
  refine h.foldS _ fun u n _ hu => ?_
  split
  · exact hu.breakSem n
  · exact hu

theorem countAccepted (h : Rests s t) (b : Bundle) : Rests s (countAccepted t b) := by
  unfold Machine.countAccepted
  split
  · exact h
  · refine h.onRgn _ ?_ fun hi => ?_
    · split <;> rfl
    · split <;> exact hi

theorem loseBundles (h : Rests s t) (key : Nat) : Rests s (loseBundles t key) := by
  have hacc : Rests s (Machine.foldS (SMap.get [] t.sched key) t Machine.countAccepted) := h.foldS _ fun _ b _ hu => hu.countAccepted b
  exact hacc.other rfl

theorem emptyLocal (h : Rests s t) (rg : Rg) : Rests s (emptyLocal t rg) := by
  unfold Machine.emptyLocal
  extract_lets e s1 s2 s3 s4
  have h2 : Rests s s2 := h.other rfl
  clear_value s2
  have h3 : Rests s s3 := h2.foldS _ fun _ b _ hu => hu.countAccepted b
  clear_value s3
  have h4 : Rests s s4 := h3.onRgn rg rfl fun _ => rfl
  exact (h4.loseBundles _).loseBundles _

theorem abandonTest (h : Rests s t) (rg : Rg) : Rests s (abandonTest t rg) := by
  unfold Machine.abandonTest
  split
  · exact h
  · exact h.other rfl

/-! ### A job's failure -/

theorem startChecks (h : Rests s t) (j : Job) : Rests s (startChecks t j) := by
  refine h.foldS _ fun u rg _ hu => ?_
  split
  · exact hu.onRgn rg rfl fun hi => hi
  · exact hu

theorem returnJob (h : Rests s t) (j : Job) : Rests s (returnJob t j) := by
  have hjob : Rests s (t.setJob j { t.job j with byPackage := false }) := h.other rfl
  unfold Machine.returnJob
  dsimp only
  split
  · exact hjob.setF _ _
  · unfold Machine.resumeSoon
    split
    · exact (hjob.startChecks j).other rfl
    · exact hjob

theorem showQuads (h : Rests s t) : Rests s (showQuads t) := h.foldS _ fun _ _ _ hu => hu.setF _ _

theorem setPwr (h : Rests s t) (st : Nat) : Rests s (setPwr t st) := (h.setF F.PWR_STATUS_STATE st).showQuads

theorem beginDrain (h : Rests s t) (st : BitVec 3) : Rests s (beginDrain t st) := by
  have hpwr : Rests s (if t.pwrState = 0 then Machine.setPwr t 1 else t) := by
    split
    · exact h.setPwr 1
    · exact h
  have htests : Rests s (Machine.foldS allRegions (if t.pwrState = 0 then Machine.setPwr t 1 else t) Machine.abandonTest) :=
    hpwr.foldS allRegions fun _ rg _ hu => hu.abandonTest rg
  exact htests.other rfl

theorem settleHold (h : Rests s t) : Rests s (settleHold t) := by
  unfold Machine.settleHold
  split
  · split
    · exact h
    · split
      · exact (h.setPwr 1).other rfl
      · exact h.beginDrain _
  · exact h

theorem jobHeld (h : Rests s t) (j : Job) : Rests s (jobHeld t j) := by
  unfold Machine.jobHeld
  split
  · exact h
  · extract_lets rs s1 s2 s3 s4
    split
    · have h2 : Rests s s2 := (h.setF _ _).setReg _ _
      clear_value s2
      have h3 : Rests s s3 := h2.foldS _ fun u rg _ hu => by
        split
        · exact hu.setRf rg F.RWD_STATUS_MODE 4 (by decide)
        · exact hu
      clear_value s3
      have h4 : Rests s s4 := h3.ibi _ _ _
      clear_value s4
      refine settleHold ?_
      split
      · exact h4.returnJob j
      · exact h4
    · exact h

theorem requestHold (h : Rests s t) (j : Job) (cause : Nat) (least : BitVec 48) : Rests s (requestHold t j cause least) := by
  unfold Machine.requestHold
  extract_lets rs held stands
  split
  · exact h
  · exact (h.other rfl : Rests s ((t.setJob j { t.job j with hold := some (BitVec.ofNat 48 held) }).setF _ _)).jobHeld j

theorem failJob (h : Rests s t) (j : Job) : Rests s (failJob t j) :=
  (((((h.setF _ _).ibi _ _ _).requestHold j 3 0).jobHeld j)).settleHold

/-! ### A region starts anew -/

theorem resetDelays (h : Rests s t) (rg : Rg) : Rests s (resetDelays t rg) := by
  unfold Machine.resetDelays
  split
  · exact h
  · refine h.foldS _ fun u k _ hu => hu.onRgn rg ?_ fun hi => hi
    exact ((Region.holdings_setF _ _ _ (by dsimp only; omega)).trans (Region.holdings_setF _ _ _ (by dsimp only; omega))).trans
      (Region.holdings_setF _ _ _ (by dsimp only; omega))

theorem startLatches (h : Rests s t) (rg : Rg) : Rests s (startLatches t rg) := by
  unfold Machine.startLatches
  split
  · exact h
  · refine h.foldS _ fun u e _ hu => ?_
    unfold startLatch
    extract_lets b
    split
    · exact hu
    · split
      · exact hu
      · split
        next v s1 hpair =>
        have hs : Rests s s1 := by
          split at hpair
          · rw [← (Prod.mk.inj hpair).2]; exact hu.draw 16
          · rw [← (Prod.mk.inj hpair).2]; exact hu
        exact hs.onRgn rg rfl fun hi => hi

end Rests

end Sys2Proof.Machine
end

section
/-! PROOFS. The reset of a region (R22, R25, R28). -/

namespace Sys2Proof.Machine

/-! ### The region after its reset -/

/-- From `r` to `r'` the stores, the clusters and the injection stand, and of the status the epoch and RESET_BUSY. -/
structure Restarts (r r' : Region) : Prop where
  stores : (r'.strokes, r'.dmem, r'.canvas, r'.clusters, r'.inject) = (r.strokes, r.dmem, r.canvas, r.clusters, r.inject)
  epoch : r'.f F.RGN_STATUS_EPOCH = r.f F.RGN_STATUS_EPOCH
  busy : r'.f F.RGN_STATUS_RESET_BUSY = r.f F.RGN_STATUS_RESET_BUSY

namespace Restarts

theorem refl (r : Region) : Restarts r r := ⟨rfl, rfl, rfl⟩

variable {r n m : Region}

theorem trans (h : Restarts r n) (h' : Restarts n m) : Restarts r m :=
  ⟨h'.stores.trans h.stores, h'.epoch.trans h.epoch, h'.busy.trans h.busy⟩

theorem setF (h : Restarts r n) {x : Fld} (v : Nat) (hw : x.lo + x.w ≤ 32)
    (hx : x.off ≠ 4 ∨ 8 ≤ x.lo ∧ x.lo + x.w ≤ 17 ∨ 18 ≤ x.lo) : Restarts r (n.setF x v) :=
  h.trans ⟨rfl, Region.f_setF_other _ _ _ _ hw (by dsimp only; omega), Region.f_setF_other _ _ _ _ hw (by dsimp only; omega)⟩

theorem setEas (h : Restarts r n) (k : CoreNo) (e : Easel) : Restarts r (n.setEas k e) := h.trans ⟨rfl, rfl, rfl⟩

theorem foldl {α : Type} {f : Region → α → Region} (h : Restarts r n) (l : List α) (hf : ∀ u a, Restarts r u → Restarts r (f u a)) :
    Restarts r (l.foldl f n) := foldl_keeps hf l h

theorem resetRing (h : Restarts r n) (every : Nat) : Restarts r (n.resetRing every) :=
  ((h.setF _ (by decide) (.inl (by decide))).setF _ (by decide) (.inl (by decide))).foldl _ fun _ i hu =>
    hu.setF (x := F.RWD_MARK_USABLE i) 0 (by simp) (.inl (by dsimp only; omega))

theorem showFights (h : Restarts r n) : Restarts r n.showFights :=
  (h.setF _ (by decide) (.inl (by decide))).setF _ (by decide) (.inl (by decide))

theorem keepDebug (h : Restarts r n) (old : Region) : Restarts r (n.keepDebug old) :=
  h.foldl _ fun _ k hu => ((hu.setEas k _).setF (x := F.EAS_STATUS_HALTED k.val) _ (by simp) (.inl (by dsimp only; omega))).foldl _
    fun _ u hv => hv.setF (x := F.EAS_PATCH_ADDR_CLAIMED k.val u) _ (by simp) (.inl (by dsimp only; omega))

theorem haltStart (h : Restarts r n) (k : CoreNo) : Restarts r (n.haltStart k) := by
  unfold Region.haltStart
  dsimp only
  split
  · exact (h.setEas k _).setF (x := F.EAS_STATUS_HALTED k.val) 1 (by simp) (.inl (by dsimp only; omega))
  · exact h

theorem startCore (h : Restarts r n) (k : CoreNo) : Restarts r (n.startCore k) := by
  unfold Region.startCore
  extract_lets i r1 st e r2 r3
  have h1 : Restarts r r1 := h.haltStart k
  clear_value r1
  have h2 : Restarts r r2 := by
    unfold r2
    split
    · exact (h1.setEas k _).setF (x := F.EAS_STATUS_STATE i) 3 (by simp) (.inl (by dsimp only; omega))
    · exact h1.setF (x := F.EAS_STATUS_STATE i) st (by simp) (.inl (by dsimp only; omega))
  clear_value r2
  have h3 : Restarts r r3 := (h2.setF (x := F.EAS_STATUS_HOLDING i) 0 (by simp) (.inl (by dsimp only; omega))).setF (x := F.EAS_PKT_BUSY i) 0
    (by simp) (.inl (by dsimp only; omega))
  exact h3.setF (x := F.EAS_WDOG_CNT_COUNT i) _ (by simp) (.inl (by dsimp only; omega))

theorem restart (h : Restarts r n) : Restarts r n.restart := by
  unfold Region.restart
  extract_lets r1
  have h1 : Restarts r r1 := by
    unfold r1
    split
    · exact h.foldl _ fun _ k hu => hu.startCore k
    · exact h
  clear_value r1
  split
  · exact h1.setF _ (by decide) (.inl (by decide))
  · exact h1

end Restarts

/-- The epoch and RESET_BUSY of a region as its reset writes them. -/
def Region.resetNoted (n r : Region) : Region :=
  (n.setF F.RGN_STATUS_EPOCH (r.f F.RGN_STATUS_EPOCH + 1)).setF F.RGN_STATUS_RESET_BUSY 0

theorem Region.resetStatus_restarts (n r : Region) (release : Bool) : Restarts (n.resetNoted r) (n.resetStatus r release) := by
  unfold Region.resetStatus
  extract_lets r1 r2 r3 r4
  have h1 : Restarts (n.resetNoted r) r1 := .refl _
  clear_value r1
  have h2 : Restarts (n.resetNoted r) r2 := h1.setF _ (by decide) (.inl (by decide))
  clear_value r2
  have h3 : Restarts (n.resetNoted r) r3 := h2.foldl _ fun _ c hu => hu.setF (x := F.CLU_STATUS_NO_END c.toNat) _ (by simp) (.inl (by dsimp only; omega))
  clear_value r3
  have h4 : Restarts (n.resetNoted r) r4 := h3.setF _ (by decide) (.inr (.inr (by decide)))
  clear_value r4
  split
  · exact h3.setF _ (by decide) (.inl (by decide))
  · split
    · exact h4
    · exact h4.setF _ (by decide) (.inr (.inl (by decide)))

/-- After its reset a region has its stores, no cluster and no bundle at work, the epoch one up, and RESET_BUSY at 0 (R22, R25). -/
theorem Region.afterReset_leaves (r : Region) (release : Bool) :
    (r.afterReset release).strokes = r.strokes ∧ (r.afterReset release).dmem = r.dmem ∧ (r.afterReset release).canvas = r.canvas ∧
      (r.afterReset release).clusters = [] ∧ (r.afterReset release).inject = [] ∧
      (r.afterReset release).f F.RGN_STATUS_EPOCH = (r.f F.RGN_STATUS_EPOCH + 1) % 256 ∧
      (r.afterReset release).f F.RGN_STATUS_RESET_BUSY = 0 := by
  have hring : Restarts (r.cleared release) ((r.cleared release).resetRing (r.f F.RWD_CTRL_SNAP_EVERY)) := (Restarts.refl _).resetRing _
  unfold Region.afterReset
  generalize (r.cleared release).resetRing (r.f F.RWD_CTRL_SNAP_EVERY) = n at *
  have hrest : Restarts (n.resetNoted r) ((n.resetStatus r release).showFights.keepDebug r).restart :=
    ((n.resetStatus_restarts r release).showFights.keepDebug r).restart
  generalize ((n.resetStatus r release).showFights.keepDebug r).restart = m at *
  obtain ⟨hstrokes, hdmem, hcanvas, hclusters, hinject⟩ := by simpa only [Prod.mk.injEq] using hrest.stores
  obtain ⟨hstrokes', hdmem', hcanvas', hclusters', hinject'⟩ := by simpa only [Prod.mk.injEq] using hring.stores
  refine ⟨hstrokes.trans hstrokes', hdmem.trans hdmem', hcanvas.trans hcanvas', hclusters.trans hclusters', hinject.trans hinject', ?_, ?_⟩
  · rw [hrest.epoch]
    unfold Region.resetNoted
    rw [Region.f_setF_other _ _ _ _ (by decide) (by decide), Region.f_setF_eq _ _ _ (by decide)]
    rfl
  · rw [hrest.busy]
    unfold Region.resetNoted
    rw [Region.f_setF_eq _ _ _ (by decide)]
    rfl

/-! ### NEIGHBOUR_DRAIN_END of a region -/

/-- The region as its reset has stopped what moved in it. -/
def resetStopped (s : State) (rg : Rg) : State := breakOwned (flushRegion (emptyLocal s rg) rg) (fun n => (emptyLocal s rg).nodeIn rg n)

/-- A region reset that releases no isolation, before a job that fails with it. -/
def resetStarted (s : State) (rg : Rg) : State :=
  startLatches (resetDelays ((resetStopped s rg).setRgn rg (((resetStopped s rg).rgn rg).afterReset false)) rg) rg

theorem performReset_eq {s : State} {rg : Rg} (h : (s.rgn rg).releasing = false) :
    performReset s rg = resetStarted s rg ∨ ∃ j, performReset s rg = failJob (resetStarted s rg) j := by
  unfold performReset
  extract_lets r release sub s1 s2 s3 s4
  have hr : release = false := by
    unfold release r
    rw [h]
    rfl
  have hs3 : s3 = resetStarted s rg := by
    unfold s3
    rw [hr]
    rfl
  rw [if_neg (by rw [hr]; simp)]
  unfold s4
  rw [hs3]
  generalize resetStarted s rg = t
  split
  · next j _ =>
    split
    · exact .inr ⟨j, rfl⟩
    · exact .inl rfl
  · exact .inl rfl

theorem resetStopped_rests (s : State) (rg : Rg) : Rests s (resetStopped s rg) :=
  (((Rests.refl s).emptyLocal rg).flushRegion rg).breakOwned _

/-- What a region reset leaves (R22, R25). -/
theorem regionDrained_resets {s : State} {rg : Rg} (hbusy : s.rf rg F.RGN_STATUS_RESET_BUSY = 1) (hmode : s.rf rg F.RWD_STATUS_MODE ≠ 2)
    (happly : s.applying = none) (hrel : (s.rgn rg).releasing = false) (hrest : (s.rgn rg).rwd.restoring = none) :
    Completes (.neighbourDrainEnd (.region rg)) s (fun t => t.rf rg F.RGN_STATUS_RESET_BUSY = 0 ∧
      t.rf rg F.RGN_STATUS_EPOCH = (s.rf rg F.RGN_STATUS_EPOCH + 1) % 256 ∧
      (t.rgn rg).strokes = (s.rgn rg).strokes ∧ (t.rgn rg).dmem = (s.rgn rg).dmem ∧ (t.rgn rg).canvas = (s.rgn rg).canvas ∧
      (t.rgn rg).clusters = [] ∧ (t.rgn rg).inject = []) := by
  have hexec : exec (.neighbourDrainEnd (.region rg)) s = .next (performReset s rg) := by
    have hb : (s.rgn rg).bit F.RGN_STATUS_RESET_BUSY = true := rbit_of_one hbusy
    have hm : ¬ ((s.rgn rg).f F.RWD_STATUS_MODE = 2 ∨ (s.rgn rg).rwd.restoring.isSome = true ∨ s.applying = some rg) := by
      rintro (h | h | h)
      · exact hmode h
      · rw [hrest] at h; exact Bool.false_ne_true h
      · rw [happly] at h; exact absurd h (by simp)
    show Host.Outcome.next (drainedRegion s rg) = _
    unfold drainedRegion
    dsimp only
    rw [if_neg (not_not.mpr hb), if_neg hm]
  have hstarted : Rests ((resetStopped s rg).setRgn rg (((resetStopped s rg).rgn rg).afterReset false)) (performReset s rg) := by
    have hlatched := ((Rests.refl ((resetStopped s rg).setRgn rg (((resetStopped s rg).rgn rg).afterReset false))).resetDelays rg).startLatches rg
    rcases performReset_eq hrel with h | ⟨j, h⟩
    · rw [h]; exact hlatched
    · rw [h]; exact hlatched.failJob j
  have hstopped := (resetStopped_rests s rg).holdings rg
  obtain ⟨hstrokes, hdmem, hcanvas, hclusters, hinject, hepoch, hbusy'⟩ := ((resetStopped s rg).rgn rg).afterReset_leaves false
  refine ⟨_, hexec, ?_⟩
  generalize performReset s rg = t at *
  generalize hr : (resetStopped s rg).rgn rg = r at *
  have hheld := hstarted.holdings rg
  have hempty := hstarted.inject rg
  rw [State.rgn_setRgn_same] at hheld hempty
  simp only [Region.holdings, Prod.mk.injEq] at hheld hstopped
  obtain ⟨h1, h2, h3, h4, h5⟩ := hheld
  obtain ⟨g1, g2, g3, -, g5⟩ := hstopped
  have hf : ∀ x : Fld, x.off = 4 → t.rf rg x = (r.afterReset false).f x := fun x hx => by
    unfold State.rf Region.f; rw [hx]; exact congrArg x.of h5
  have hr' : r.f F.RGN_STATUS_EPOCH = s.rf rg F.RGN_STATUS_EPOCH := congrArg F.RGN_STATUS_EPOCH.of g5
  exact ⟨(hf _ rfl).trans hbusy', by rw [hf _ rfl, hepoch, hr'], h1.trans (hstrokes.trans g1), h2.trans (hdmem.trans g2),
    h3.trans (hcanvas.trans g3), h4.trans hclusters, hempty hinject⟩

end Sys2Proof.Machine
end

section
/-! PROOFS. The reset of a quadrant, and the resets and the boot of the package (R22, R24, R427, R428, R438). -/

namespace Sys2Proof.Machine

/-! ### The quadrant's regions -/

theorem quadRegions_nodup {q : Nat} (hq : q < 4) : (quadRegions q).Nodup := by
  unfold quadRegions
  refine List.Nodup.map_on (fun a ha b hb h => ?_) List.nodup_range
  have ha' := List.mem_range.mp ha
  have hb' := List.mem_range.mp hb
  have h' := congrArg BitVec.toNat h
  simp only [BitVec.toNat_ofNat] at h'
  omega

theorem mem_quadRegions {rg : Rg} {q : Nat} (h : quadOf rg = q) : rg ∈ quadRegions q := by
  have hlt := rg.isLt
  refine List.mem_map.mpr ⟨rg.toNat % 16, List.mem_range.mpr (Nat.mod_lt _ (by decide)), BitVec.eq_of_toNat_eq ?_⟩
  unfold quadOf at h
  simp only [BitVec.toNat_ofNat]
  omega

theorem foldS_onRgn_outside {g : Region → Region} {l : List Rg} {rg : Rg} (h : rg ∉ l) (s : State) :
    (foldS l s fun s rg => s.onRgn rg g).rgn rg = s.rgn rg := by
  induction l generalizing s with
  | nil => rfl
  | cons a l ih =>
    rw [foldS, List.foldl_cons, ← foldS, ih (fun hm => h (List.mem_cons_of_mem _ hm)),
      State.rgn_onRgn_other _ _ (List.ne_of_not_mem_cons h)]

/-- An update of each region of a list once. -/
theorem foldS_onRgn_once {g : Region → Region} {l : List Rg} (hl : l.Nodup) {rg : Rg} (h : rg ∈ l) (s : State) :
    (foldS l s fun s rg => s.onRgn rg g).rgn rg = g (s.rgn rg) := by
  induction l generalizing s with
  | nil => exact absurd h List.not_mem_nil
  | cons a l ih =>
    obtain ⟨hnot, hl⟩ := List.nodup_cons.mp hl
    rw [foldS, List.foldl_cons, ← foldS]
    rcases List.mem_cons.mp h with rfl | hm
    · rw [foldS_onRgn_outside hnot, State.rgn_onRgn_same]
    · rw [ih hl hm, State.rgn_onRgn_other _ _ (ne_of_mem_of_not_mem hm hnot)]

/-- A region whose die is reset has lost everything, and its epoch is the one given (R19, R22). -/
theorem Region.lost_leaves (r : Region) (e : Nat) :
    (r.lost e).dmem = [] ∧ (r.lost e).canvas = [] ∧ (r.lost e).f F.RGN_STATUS_EPOCH = e % 256 := by
  unfold Region.lost
  extract_lets n1 n2 n3
  have hn3 : n3.dmem = [] ∧ n3.canvas = [] := ⟨rfl, rfl⟩
  have hepoch : n3.f F.RGN_STATUS_EPOCH = e % 256 := by
    unfold n3 n2
    rw [Region.f_setReg_other _ _ _ (by decide), Region.f_setF_other _ _ _ _ (by decide) (by decide), Region.f_setF_eq _ _ _ (by decide)]
    rfl
  clear_value n3
  have hjob : Restarts n3 (((n3.setF F.RGN_STATUS_JOB (r.f F.RGN_STATUS_JOB)).setF F.RGN_STATUS_IN_JOB (r.f F.RGN_STATUS_IN_JOB)).keepDebug r) :=
    (((Restarts.refl n3).setF _ (by decide) (.inr (.inl (by decide)))).setF _ (by decide) (.inr (.inl (by decide)))).keepDebug r
  generalize ((n3.setF F.RGN_STATUS_JOB (r.f F.RGN_STATUS_JOB)).setF F.RGN_STATUS_IN_JOB (r.f F.RGN_STATUS_IN_JOB)).keepDebug r = m at *
  obtain ⟨-, hdmem, hcanvas, -, -⟩ := by simpa only [Prod.mk.injEq] using hjob.stores
  exact ⟨hdmem.trans hn3.1, hcanvas.trans hn3.2, hjob.epoch.trans hepoch⟩

/-! ### What the quadrant's reset leaves of the drains -/

theorem State.noteFault_pwr (s : State) (src l : Nat) (key : Word) : (s.noteFault src l key).pwr = s.pwr := by
  unfold State.noteFault
  split
  next room s1 hpair =>
  have h1 : s1.pwr = s.pwr := by
    have h2 : s1 = (s.findsRoom (32 * l + src) 16).2 := by rw [hpair]
    rw [h2, State.findsRoom_frame]
  dsimp only
  split <;> split <;> exact h1

theorem breakSem_pwr (s : State) (n : Nat) : (breakSem s n).pwr = s.pwr := by
  unfold breakSem
  split
  · rfl
  · dsimp only
    split
    · rw [State.ibi_pwr]
      show (State.noteFault _ _ _ _).pwr = _
      rw [State.noteFault_pwr]; rfl
    · rw [State.noteFault_pwr]; rfl

theorem abandonTest_pwr (s : State) (rg : Rg) : (abandonTest s rg).pwr = s.pwr := by
  unfold abandonTest
  split <;> rfl

theorem countAccepted_pwr (s : State) (b : Bundle) : (countAccepted s b).pwr = s.pwr := by
  unfold countAccepted
  split <;> rfl

theorem trainD2d_pwr (s : State) (q l : Nat) : (trainD2d s q l).pwr = s.pwr := by
  unfold trainD2d setD2d
  dsimp only
  split <;> rfl

/-- The package as the reset of quadrant `q` has stopped what moves on its die. -/
def dieStopped (s : State) (q : Nat) : State :=
  let s := foldS (quadRegions q) s (fun s rg => if s.testing rg then abandonTest s rg else s)
  let s := breakOwned (flushQuad s q) (fun n => (quadRegions q).any (fun rg => s.nodeIn rg n))
  dropTokens (emptyDie s q) q

/-- The regions of a list have lost everything, and their epochs are one up. -/
def regionsLost (l : List Rg) (s : State) : State := foldS l s (fun s rg => s.onRgn rg (fun r => r.lost (r.f F.RGN_STATUS_EPOCH + 1)))

/-- What the package keeps of a quadrant beside its regions is forgotten. -/
def dieForgotten (s : State) (q : Nat) : State :=
  { s with library := SMap.keep (fun k => decide (k / 0x8000 ≠ q)) s.library,
           windowFixes := SMap.set 0 s.windowFixes q 0,
           pwr := { s.pwr with kept := setBit s.pwr.kept q false } }

/-- The die of quadrant `q` has lost its contents. -/
def dieLost (s : State) (q : Nat) : State := dieForgotten (regionsLost (quadRegions q) s) q

theorem regionsLost_once {l : List Rg} (hl : l.Nodup) {rg : Rg} (h : rg ∈ l) (s : State) :
    (regionsLost l s).rgn rg = (s.rgn rg).lost (s.rf rg F.RGN_STATUS_EPOCH + 1) :=
  foldS_onRgn_once (g := fun r => r.lost (r.f F.RGN_STATUS_EPOCH + 1)) hl h s

theorem regionsLost_pwr (l : List Rg) (s : State) : (regionsLost l s).pwr = s.pwr :=
  foldS_keeps State.pwr (f := fun s rg => s.onRgn rg (fun r => r.lost (r.f F.RGN_STATUS_EPOCH + 1))) (fun _ _ => rfl) l s

theorem dieForgotten_keeps (s : State) (q : Nat) : (dieForgotten s q).pwr.qGoal = s.pwr.qGoal ∧ ∀ rg, (dieForgotten s q).rgn rg = s.rgn rg :=
  ⟨rfl, fun _ => rfl⟩

theorem resetQuadrant_eq (s : State) (q : Nat) :
    resetQuadrant s q = foldS (List.range 3) (dieLost (dieStopped s q) q) (fun s l => trainD2d s q l) := rfl

theorem Rests.flushQuad {s t : State} (h : Rests s t) (q : Nat) : Rests s (flushQuad t q) := h.flushCrossings.other rfl

theorem Rests.emptyDie {s t : State} (h : Rests s t) (q : Nat) : Rests s (emptyDie t q) := by
  unfold Machine.emptyDie
  extract_lets s1 s2
  have h1 : Rests s s1 := h.foldS _ fun _ x _ hu => hu.foldS _ fun _ b _ hv => hv.countAccepted b
  clear_value s1
  have h2 : Rests s s2 := h1.foldS _ fun _ rg _ hu => hu.foldS _ fun _ b _ hv => hv.countAccepted b
  clear_value s2
  exact h2.other rfl

theorem dieStopped_rests (s : State) (q : Nat) : Rests s (dieStopped s q) := by
  unfold dieStopped
  extract_lets s1 s2
  have h1 : Rests s s1 := (Rests.refl s).foldS _ fun u rg _ hu => by
    split
    · exact hu.abandonTest rg
    · exact hu
  clear_value s1
  exact (((h1.flushQuad q).breakOwned _).emptyDie q).dropTokens q

theorem emptyDie_pwr (s : State) (q : Nat) : (emptyDie s q).pwr = s.pwr := by
  unfold emptyDie
  extract_lets s1 s2
  have h1 : s1.pwr = s.pwr := foldS_keeps State.pwr (fun u (x : Nat × List Bundle) => foldS_keeps State.pwr countAccepted_pwr x.2 u) _ s
  clear_value s1
  have h2 : s2.pwr = s.pwr := (foldS_keeps State.pwr (fun u rg => foldS_keeps State.pwr countAccepted_pwr _ u) _ s1).trans h1
  clear_value s2
  exact h2

theorem TokensMove.goals {s t : State} (h : TokensMove s t) : t.pwr.qGoal = s.pwr.qGoal := by
  rw [h.others]

theorem dieStopped_goals (s : State) (q : Nat) : (dieStopped s q).pwr.qGoal = s.pwr.qGoal := by
  unfold dieStopped
  extract_lets s1 s2
  have h1 : s1.pwr = s.pwr := foldS_keeps State.pwr (fun u rg => by
    split
    · exact abandonTest_pwr u rg
    · rfl) _ s
  clear_value s1
  have h2 : s2.pwr = s1.pwr := foldS_keeps State.pwr (fun u n => by
    split
    · exact breakSem_pwr u n
    · rfl) _ (flushQuad s1 q)
  clear_value s2
  rw [((TokensMove.refl (emptyDie s2 q)).dropTokens q).goals, emptyDie_pwr, h2, h1]

theorem dieLost_region {s : State} {q : Nat} (hq : q < 4) {rg : Rg} (h : quadOf rg = q) :
    (dieLost s q).rgn rg = (s.rgn rg).lost (s.rf rg F.RGN_STATUS_EPOCH + 1) := by
  unfold dieLost
  rw [(dieForgotten_keeps _ q).2, regionsLost_once (quadRegions_nodup hq) (mem_quadRegions h)]

theorem dieLost_goals (s : State) (q : Nat) : (dieLost s q).pwr.qGoal = s.pwr.qGoal := by
  unfold dieLost
  rw [(dieForgotten_keeps _ q).1, regionsLost_pwr]

theorem Rests.trainD2d {s t : State} (h : Rests s t) (q l : Nat) : Rests s (trainD2d t q l) := by
  have hset : Rests s (setD2d t q l 1) := by
    have hoff : ∀ k, R.RGN_STATUS ≠ (F.NOC_D2D_STATUS_STATE k).off := fun k => by unfold R.RGN_STATUS; dsimp only; omega
    unfold setD2d
    dsimp only
    split
    · exact (h.setRf _ _ _ (hoff _)).setRf _ _ _ (hoff _)
    · exact h.setRf _ _ _ (hoff _)
  unfold Machine.trainD2d
  generalize setD2d t q l 1 = u at hset ⊢
  exact hset.other rfl

/-- A quadrant's reset: its regions have lost everything, each epoch is one up, and the goals stand (R19, R22). -/
theorem resetQuadrant_leaves {s : State} {q : Nat} (hq : q < 4) :
    (resetQuadrant s q).pwr.qGoal = s.pwr.qGoal ∧ ∀ rg : Rg, quadOf rg = q → ((resetQuadrant s q).rgn rg).dmem = [] ∧
      ((resetQuadrant s q).rgn rg).canvas = [] ∧
        (resetQuadrant s q).rf rg F.RGN_STATUS_EPOCH = (s.rf rg F.RGN_STATUS_EPOCH + 1) % 256 := by
  have hlinks : Rests (dieLost (dieStopped s q) q) (resetQuadrant s q) :=
    (Rests.refl _).foldS (List.range 3) fun _ l _ hu => hu.trainD2d q l
  have hpwr : (resetQuadrant s q).pwr = (dieLost (dieStopped s q) q).pwr := foldS_keeps State.pwr (fun u l => trainD2d_pwr u q l) _ _
  have hstopped := dieStopped_rests s q
  refine ⟨by rw [hpwr, dieLost_goals, dieStopped_goals], fun rg hrg => ?_⟩
  have hlost := dieLost_region (s := dieStopped s q) hq hrg
  have hheld := hlinks.holdings rg
  have hbefore := hstopped.holdings rg
  generalize resetQuadrant s q = t at *
  generalize dieStopped s q = u at *
  rw [hlost] at hheld
  simp only [Region.holdings, Prod.mk.injEq] at hheld hbefore
  obtain ⟨-, hdmem, hcanvas, -, hstatus⟩ := hheld
  obtain ⟨-, -, -, -, hold⟩ := hbefore
  obtain ⟨hd, hc, he⟩ := (u.rgn rg).lost_leaves (u.rf rg F.RGN_STATUS_EPOCH + 1)
  have hepoch : u.rf rg F.RGN_STATUS_EPOCH = s.rf rg F.RGN_STATUS_EPOCH := congrArg F.RGN_STATUS_EPOCH.of hold
  refine ⟨hdmem.trans hd, hcanvas.trans hc, ?_⟩
  rw [← hepoch, ← he]
  exact congrArg F.RGN_STATUS_EPOCH.of hstatus

end Sys2Proof.Machine
end

section
/-! PROOFS. NEIGHBOUR_DRAIN_END of a quadrant; O25 (R22, R438). -/

namespace Sys2Proof.Machine

/-- From `s` to `t` the regions' holdings, the drains and the quadrants' goals stand. -/
structure Stands (s t : State) : Prop where
  rests : Rests s t
  goals : t.pwr.qGoal = s.pwr.qGoal
  drains : t.pwr.drains = s.pwr.drains

namespace Stands

variable {s t u : State}

theorem refl (s : State) : Stands s s := ⟨.refl s, rfl, rfl⟩

theorem other (h : Stands s t) (hu : (u.rgns, u.pwr.qGoal, u.pwr.drains) = (t.rgns, t.pwr.qGoal, t.pwr.drains)) : Stands s u := by
  obtain ⟨hrgns, hgoal, hdrains⟩ := by simpa only [Prod.mk.injEq] using hu
  exact ⟨h.rests.other hrgns, hgoal.trans h.goals, hdrains.trans h.drains⟩

theorem watchTest (h : Stands s t) : Stands s (watchTest t) := by
  obtain ⟨b, hb⟩ := watchTest_hub t
  rw [hb]
  exact h.other rfl

theorem setVq (h : Stands s t) (q v : Nat) : Stands s (t.setVq q v) := by
  have hset : Stands s ((t.setF (F.PWR_QSTAT_VQ q) v).issueAvs q [.target (BitVec.ofNat 10 v)]) := h.other rfl
  exact hset.watchTest

theorem railOn (h : Stands s t) (q : Nat) : Stands s (railOn t q) := by
  unfold Machine.railOn
  split
  · exact h
  · exact h.setVq q _

theorem showQuads (h : Stands s t) : Stands s (showQuads t) := by
  refine foldS_induct (P := Stands s) _ (fun u q _ hu => ?_) h
  dsimp only
  exact hu.other rfl

theorem setRefusing (h : Stands s t) (q : Nat) (b : Bool) : Stands s (t.setRefusing q b) := h.other rfl

end Stands

/-- The quadrant's own drain has ended. -/
def drainEnded (s : State) (q : Nat) : State := (resetQuadrant s q).setDrain q .none

/-- The rail, the states and the ingress of a quadrant after its reset. -/
def railRetried (s : State) (q : Nat) : State := if s.ownState q = 5 ∧ ¬ s.pwr.locked.getLsbD q then railOn (s.setOwn q 0) q else s

theorem State.rgn_setDrain (s : State) (q : Nat) (d : Drain) (rg : Rg) : (s.setDrain q d).rgn rg = s.rgn rg := rfl

theorem performQuadReset_eq {s : State} (q : Nat) (h : s.applying = none) :
    ∃ b, performQuadReset s q = settleQuad ((showQuads (railRetried (drainEnded s q) q)).setRefusing q b) q := by
  have happly : abandonApply s q = s := by unfold abandonApply; rw [h]
  refine ⟨decide ((showQuads (railRetried (drainEnded s q) q)).ownState q ≠ 0) ||
    (decide (2 ≤ (showQuads (railRetried (drainEnded s q) q)).pwrState)), ?_⟩
  unfold performQuadReset
  rw [happly]
  rfl

theorem railRetried_stands (s : State) (q : Nat) : Stands s (railRetried s q) := by
  have hown : Stands s (s.setOwn q 0) := (Stands.refl s).other rfl
  unfold railRetried
  split
  · exact hown.railOn q
  · exact .refl s

theorem settleQuad_none {s : State} {q : Nat} (h : SMap.get none s.pwr.qGoal q = none) : settleQuad s q = s := by
  unfold settleQuad
  rw [h]

theorem quadDrained_resets {q : Quad} {s : State} (hdrain : s.drainOf q.toNat = .reset) (happly : s.applying = none)
    (hgoal : SMap.get none s.pwr.qGoal q.toNat = none) :
    Completes (.neighbourDrainEnd (.quadrant q)) s (fun t => t.drainOf q.toNat = .none ∧
      (∀ rg : Rg, quadOf rg = q.toNat → (t.rgn rg).dmem = [] ∧ (t.rgn rg).canvas = [] ∧
        t.rf rg F.RGN_STATUS_EPOCH = (s.rf rg F.RGN_STATUS_EPOCH + 1) % 256)) := by
  have hexec : exec (.neighbourDrainEnd (.quadrant q)) s = .next (performQuadReset s q.toNat) := by
    show Host.Outcome.next (match s.drainOf q.toNat with | .reset => performQuadReset s q.toNat | .enter _ => _ | _ => s) = _
    rw [hdrain]
  refine ⟨_, hexec, ?_⟩
  obtain ⟨b, heq⟩ := performQuadReset_eq q.toNat happly
  obtain ⟨hgoals, hregions⟩ := resetQuadrant_leaves (s := s) q.isLt
  have hended : (drainEnded s q.toNat).drainOf q.toNat = .none ∧ (drainEnded s q.toNat).pwr.qGoal = s.pwr.qGoal :=
    ⟨by simp [drainEnded, State.drainOf, State.setDrain], hgoals⟩
  have hrgn : ∀ rg, (drainEnded s q.toNat).rgn rg = (resetQuadrant s q.toNat).rgn rg := fun rg => State.rgn_setDrain _ _ _ rg
  have hstands : Stands (drainEnded s q.toNat) ((showQuads (railRetried (drainEnded s q.toNat) q.toNat)).setRefusing q.toNat b) :=
    ((railRetried_stands _ _).showQuads).setRefusing _ _
  rw [heq]
  generalize resetQuadrant s q.toNat = w at *
  generalize drainEnded s q.toNat = v at *
  generalize (showQuads (railRetried v q.toNat)).setRefusing q.toNat b = u at *
  rw [settleQuad_none (by rw [hstands.goals, hended.2]; exact hgoal)]
  refine ⟨?_, fun rg hrg => ?_⟩
  · rw [State.drainOf, hstands.drains]; exact hended.1
  · obtain ⟨hdmem, hcanvas, hepoch⟩ := hregions rg hrg
    have hheld := hstands.rests.holdings rg
    rw [hrgn rg] at hheld
    simp only [Region.holdings, Prod.mk.injEq] at hheld
    obtain ⟨-, hd, hc, -, hstatus⟩ := hheld
    exact ⟨hd.trans hdmem, hc.trans hcanvas, (congrArg F.RGN_STATUS_EPOCH.of hstatus).trans hepoch⟩

/-! ### HELM_RESTART, RESET_N, CALIBRATION_END -/

theorem helmRestart_loading {s : State} (hidle : s.packageResetting = false) (hup : s.hubPowered = true)
    (hload : s.load.kind = .full ∧ (s.cfgState = 1 ∨ s.cfgState = 2)) :
    Completes .helmRestart s (fun t => t.cfgState = 5 ∧ t.f F.CFG_ERR_CODE = 15 ∧ t.load.kind = .none ∧
      t.refusing.getLsbD 4 = true ∧ t.drainOf 4 = .reset ∧ t.pwr.cause = 3) := by
  have heq : requestPackageReset s 3 = failLoad (resetRequested s 3) 15 0 0 s.load.point := by
    rw [requestPackageReset_eq hidle hup]
    exact if_pos hload
  obtain ⟨href, hdrain, hcause⟩ := resetRequested_drains s 3
  obtain ⟨hstate, hcode, -, -, -⟩ := failLoad_fails (resetRequested s 3) (code := 15) (by decide) 0 0 s.load.point
  obtain ⟨hload', -, -, hpwr, hbit, hpackage, -⟩ := failLoad_drops (resetRequested s 3) 15 0 0 s.load.point
  refine .of_eq (failLoad (resetRequested s 3) 15 0 0 s.load.point) (congrArg Host.Outcome.next heq) ?_
  generalize failLoad (resetRequested s 3) 15 0 0 s.load.point = t at *
  refine ⟨hstate, hcode, by rw [hload'], ?_, hpackage.trans hdrain, ?_⟩
  · rw [hbit, href]; exact getLsbD_setBit_same _ _ (by decide)
  · rw [hpwr]; exact hcause

/-- During a reset of the package an abandoned load moves no ingress and nothing of the fabric (R24, R206). -/
theorem abandonLoad_of_resetting {s : State} (h : s.packageResetting = true) :
    (abandonLoad s).refusing = s.refusing ∧ (abandonLoad s).fab = s.fab := by
  unfold abandonLoad
  split
  · rw [failLoad_eq]
    have hnoted := failNoted_frame s 15 0 0 s.load.point
    obtain ⟨hpart, -⟩ := clearPart_frame (failDropped (failNoted s 15 0 0 s.load.point))
    generalize clearPart (failDropped (failNoted s 15 0 0 s.load.point)) = c at *
    have hpwr : c.pwr = s.pwr := by rw [hpart, failDropped, hnoted]
    rw [requestQuadResets_of_resetting ((State.packageResetting_of_pwr hpwr).trans h)]
    exact ⟨by rw [hpart, failDropped, hnoted], by rw [hpart, failDropped, hnoted]⟩
  · split <;> exact ⟨rfl, rfl⟩

theorem calibrationEnd_up {s : State} (hboot : s.pwr.boot = .calibration) : Completes .calibrationEnd s (fun t => t.pwr.boot = .up) := by
  refine ⟨_, congrArg Host.Outcome.next (if_neg (not_not.mpr hboot)), ?_⟩
  dsimp only
  split
  · rfl
  · exact loadGround_boot _ (State.f_lt _ _)

/-- Settles O25: a reset of the package rebuilds it but for flash, fuses and straps, one of a quadrant or region what lies there; boot steps on. -/
theorem resetsAndBoot : Obligations.ResetsAndBoot := by
  unfold Obligations.ResetsAndBoot
  refine ⟨fun s h => powerOn_resets h, ?removal, ?loss, ?resetN, fun prof addr lode s h hi => resetNRelease_samples prof addr lode h hi,
    ?restart, fun s ⟨hi, hp⟩ hl => helmRestart_loading hi hp hl, ?merged, ?fabric, fun b fw s h => bootEnd_boots b fw h,
    fun s h hl => startupBistEnd_passes h hl, ?off, ?lost, fun s h => calibrationEnd_up h, ?region, ?quad,
    fun s hd hb => packageDrained_resets hd hb, fun s => thermalShutdown_leaves s⟩
  case removal =>
    intro s h
    have hon : s.pwr.boot ≠ .noPower := by rw [h]; decide
    obtain ⟨hboot, -, hlast, hflash, hfuses, -⟩ := loseSupply_vhub hon true
    exact ⟨_, congrArg Host.Outcome.next (if_pos (.inl h)), hboot, hlast, hflash, hfuses⟩
  case loss =>
    intro s h
    have hon : s.pwr.boot ≠ .noPower := by rw [h]; decide
    exact ⟨_, rfl, loseSupply_vhub hon false⟩
  case resetN =>
    rintro cool s hboot ⟨hidle, hload, hground⟩
    have hup : s.hubPowered = true := by simp [State.hubPowered, hboot]
    have hexec : exec (.resetN cool) s = .next { requestPackageReset s 1 with pwr := { (requestPackageReset s 1).pwr with boot := .resetLow, cause := 1 } } := by
      show Host.Outcome.next (match s.pwr.boot with | .noPower => s | .thermal => _ | _ => _) = _
      rw [hboot]
    refine ⟨_, hexec, ?_⟩
    rw [requestPackageReset_unloaded hidle hup hload hground]
    obtain ⟨href, hdrain, -⟩ := resetRequested_drains s 1
    exact ⟨rfl, rfl, href, hdrain, rfl, rfl⟩
  case restart =>
    rintro s ⟨hidle, hup, hload, hground⟩
    obtain ⟨href, hdrain, hcause⟩ := resetRequested_drains s 3
    exact .of_eq _ (congrArg Host.Outcome.next (requestPackageReset_unloaded hidle hup hload hground 3)) ⟨href, hdrain, hcause, rfl, rfl⟩
  case merged =>
    intro s h
    exact ⟨_, congrArg Host.Outcome.next (if_pos (.inl h)), rfl⟩
  case fabric =>
    rintro s hdue ⟨hidle, hup⟩
    have heq := requestPackageReset_eq (s := { s with fab := { s.fab with resetDue := false } }) hidle hup 2
    obtain ⟨href, hdrain, hcause⟩ := resetRequested_drains { s with fab := { s.fab with resetDue := false } } 2
    have hresetting : (resetRequested { s with fab := { s.fab with resetDue := false } } 2).packageResetting = true := by
      rw [State.packageResetting, hdrain]; rfl
    obtain ⟨href', hfab⟩ := abandonLoad_of_resetting hresetting
    have hpwr := abandonLoad_pwr_of_resetting hresetting
    refine .of_eq _ (congrArg Host.Outcome.next ((if_pos hdue).trans heq)) ⟨by rw [hfab]; rfl, href'.trans href, ?_, ?_⟩
    · rw [State.drainOf, hpwr]; exact hdrain
    · rw [hpwr]; exact hcause
  case off =>
    rintro r off s hboot ⟨hne, hoff⟩
    have hempty : off.isEmpty = false := by simpa using hne
    exact startupBistEnd_invalid hboot (stepValid_offClock hoff) (by rw [hempty]; rfl)
  case lost =>
    rintro r off k s hboot ⟨hbegan, hlost⟩ hdie
    refine startupBistEnd_invalid hboot (startupBistEnd_lostDie hbegan hlost hdie) ?_
    have hall : (List.range 5).all (fun k => (SMap.get [] s.bist.lost k).isEmpty) = false :=
      List.all_eq_false.mpr ⟨k.val, List.mem_range.mpr k.isLt, by rw [hlost]; simp⟩
    rw [hall, Bool.and_false]
  case region =>
    rintro rg s ⟨hbusy, hmode⟩ ⟨happly, hrel, hrest⟩
    exact regionDrained_resets hbusy hmode happly hrel hrest
  case quad =>
    rintro q s hd ⟨ha, hg⟩
    exact quadDrained_resets hd ha hg

end Sys2Proof.Machine
end

section
/-! PROOFS. A partial that is turned away leaves the loader's registers and the flash (R222, R230). -/

namespace Sys2Proof.Machine

/-- From `s` to `t` the loader's registers and the flash are as they were. -/
structure LoaderStands (s t : State) : Prop where
  reg : ∀ a, LoaderReg a → t.reg a = s.reg a
  flash : t.flash = s.flash

/-- A hub register outside the loader's. -/
def ForeignReg (a : Nat) : Prop := a < 0x60000 ∨ 0x61000 ≤ a

theorem ForeignReg.low {a : Nat} (h : a < 0x60000) : ForeignReg a := .inl h

theorem ForeignReg.high {a : Nat} (h : 0x61000 ≤ a) : ForeignReg a := .inr h

namespace LoaderStands

theorem refl (s : State) : LoaderStands s s := ⟨fun _ _ => rfl, rfl⟩

variable {s t u : State}

theorem trans (h : LoaderStands s t) (h' : LoaderStands t u) : LoaderStands s u :=
  ⟨fun a ha => (h'.reg a ha).trans (h.reg a ha), h'.flash.trans h.flash⟩

theorem f (h : LoaderStands s t) {x : Fld} (hx : LoaderReg x.off) : t.f x = s.f x := congrArg x.of (h.reg x.off hx)

theorem other (h : LoaderStands s t) (hu : (u.regs, u.flash) = (t.regs, t.flash) := by rfl) : LoaderStands s u := by
  obtain ⟨hregs, hflash⟩ := Prod.mk.inj hu
  exact h.trans ⟨fun a _ => by unfold State.reg; rw [hregs], hflash⟩

theorem aside (h : LoaderStands s t) (hu : Aside t u) : LoaderStands s u :=
  h.trans ⟨fun a ha => hu.reg a (.inr (.inl ha)), hu.flash⟩

theorem tokens (h : LoaderStands s t) (hu : TokensMove t u) : LoaderStands s u := by
  refine h.trans ⟨fun a _ => ?_, ?_⟩
  · rw [hu.others]; rfl
  · rw [hu.others]

theorem ite {c : Prop} {_ : Decidable c} (ht : LoaderStands s t) (hu : LoaderStands s u) : LoaderStands s (if c then t else u) := by
  split <;> assumption

theorem iteSnd {α : Type} {c : Prop} {_ : Decidable c} {x y : α × State} (hx : LoaderStands s x.2) (hy : LoaderStands s y.2) :
    LoaderStands s (if c then x else y).2 := by
  split <;> assumption

theorem foldS {α : Type} {f : State → α → State} (h : LoaderStands s t) (l : List α)
    (hf : ∀ u, ∀ a ∈ l, LoaderStands s u → LoaderStands s (f u a)) : LoaderStands s (Machine.foldS l t f) :=
  foldS_induct (P := LoaderStands s) l hf h

theorem setReg (h : LoaderStands s t) {a : Nat} (v : Word) (ha : ForeignReg a) : LoaderStands s (t.setReg a v) := by
  refine h.trans ⟨fun b hb => State.reg_setReg_other t v ?_, rfl⟩
  unfold LoaderReg ForeignReg at *
  omega

theorem setF (h : LoaderStands s t) {x : Fld} (n : Nat) (hx : ForeignReg x.off) : LoaderStands s (t.setF x n) := h.setReg _ hx

theorem bump (h : LoaderStands s t) {x : Fld} (k : Nat) (hx : ForeignReg x.off) : LoaderStands s (t.bump x k) := h.setReg _ hx

theorem draw (h : LoaderStands s t) (w : Nat) : LoaderStands s (t.draw w).2 := h.other

theorem onRgn (h : LoaderStands s t) (rg : Rg) (g : Region → Region) : LoaderStands s (t.onRgn rg g) := h.other

theorem setRf (h : LoaderStands s t) (rg : Rg) (x : Fld) (n : Nat) : LoaderStands s (t.setRf rg x n) := h.other

theorem bumpR (h : LoaderStands s t) (rg : Rg) (x : Fld) (k : Nat) : LoaderStands s (t.bumpR rg x k) := h.other

theorem onCl (h : LoaderStands s t) (rg : Rg) (c : Cl) (g : Cluster → Cluster) : LoaderStands s (t.onCl rg c g) := h.other

theorem sweeps (h : LoaderStands s t) (hu : Sweeps t u) : LoaderStands s u :=
  h.trans ⟨fun a ha => hu.reg a (.inr ha), (Prod.mk.inj (Prod.mk.inj hu.stores).2).2⟩

theorem ibi (h : LoaderStands s t) {cls : Nat} (loc arg : Nat) (hc : cls < 64) : LoaderStands s (t.ibi cls loc arg) :=
  h.sweeps ((Sweeps.refl t).ibi loc arg hc)

theorem findsRoom (h : LoaderStands s t) (key places : Nat) : LoaderStands s (t.findsRoom key places).2 := by
  rw [State.findsRoom_frame]
  exact h.other

theorem noteFault (h : LoaderStands s t) {src l : Nat} (key : Word) (hsrc : src < 32) (hl : l < 8) : LoaderStands s (t.noteFault src l key) :=
  h.aside ((Contains.refl t).noteFault key hsrc hl).toAside

theorem taintAt (h : LoaderStands s t) (rg : Rg) (cycle : BitVec 48) (x : Taint) : LoaderStands s (t.taintAt (some rg) cycle x) := by
  have hq := quadOf_lt rg
  unfold State.taintAt
  extract_lets q n
  have hroom : LoaderStands s (t.findsRoom (256 + q) 32).2 := h.findsRoom _ _
  generalize t.findsRoom (256 + q) 32 = r at hroom ⊢
  obtain ⟨room, v⟩ := r
  have hset : ∀ m n, LoaderStands s (State.setF { v with taints := m } (F.TNT_PTR_NEWEST q) n) := fun m n =>
    LoaderStands.setF (t := { v with taints := m }) hroom.other n (.low (by unfold q; dsimp only; omega))
  have hwrap : ∀ {w : State}, LoaderStands s w → LoaderStands s (w.setF (F.TNT_PTR_WRAPPED q) 1) := fun hw =>
    hw.setF 1 (.low (by unfold q; dsimp only; omega))
  refine ite (hroom.bump 1 (.low (by unfold q; dsimp only; omega))) (LoaderStands.ibi ?_ _ _ (by decide))
  exact ((ite (hwrap (hset _ _)) (hset _ _)).bump (x := F.TNT_COUNT_ENTRIES q) 1 (.low (by unfold q; dsimp only; omega))).onRgn _ _

/-! ### A JPOST that completes, and what a replay reads for it -/

theorem backRead (h : LoaderStands s t) (rg : Rg) (src : Nat) (ring : Bool) (a : Nat) (e : Ecc) : LoaderStands s (backRead t rg src ring a e).1 := by
  have hq := quadOf_lt rg
  unfold Machine.backRead
  dsimp only
  generalize (t.rgn rg).checked (if ring then ringKey a else dmemKey a) e = e
  cases e with
  | clean => exact h
  | single => exact ((h.onRgn rg _).bumpR rg _ 1).noteFault _ (by decide) hq
  | uncorrectable =>
    dsimp only
    exact (((h.onRgn rg _).bumpR rg _ 1).noteFault _ (by decide) hq).onRgn rg _

theorem readRecord (h : LoaderStands s t) (rg : Rg) (x : Rec) : LoaderStands s (readRecord t rg x) := by
  refine h.foldS _ fun v e _ hv => ite ?_ hv
  unfold ringError
  have hread := hv.backRead rg 4 true e.1 e.2
  split
  · exact (hread.taintAt rg _ _).setRf rg _ 1
  · exact hread

theorem fillJunction (h : LoaderStands s t) (rg : Rg) (c : Cl) (j : BitVec 2) (v : Entry) : LoaderStands s (fillJunction t rg c j v) := by
  unfold Machine.fillJunction
  exact (h.onCl rg c _).onRgn rg _

theorem replayJunction (h : LoaderStands s t) (rg : Rg) (c : Cl) (j : BitVec 2) : LoaderStands s (replayJunction t rg c j) := by
  suffices ∀ f, f = Machine.replayJunction → LoaderStands s (f t rg c j) from this _ rfl
  intro f hf
  delta Machine.replayJunction at hf
  subst hf
  beta_reduce
  extract_lets r next
  clear_value next
  cases next with
  | none => exact h
  | some x => exact ((h.onRgn rg _).readRecord rg x).fillJunction rg c j _

theorem tryEnd (h : LoaderStands s t) (rg : Rg) (c : Cl) : LoaderStands s (tryEnd t rg c) := by
  have hstall : LoaderStands s (endStall t rg c) := by
    unfold endStall
    exact ite ((h.draw 32).bumpR rg _ _) h
  exact ite hstall.other h

theorem finishBp (h : LoaderStands s t) (rg : Rg) (c : Cl) (b : Bp) (w : Option PalWrite) : LoaderStands s (finishBp t rg c b w) := by
  unfold Machine.finishBp completeBp
  exact ((ite ((h.draw 20).setRf rg _ _) h).onRgn rg _).tryEnd rg c

theorem jpostDone (h : LoaderStands s t) (rg : Rg) (c : Cl) (j : BitVec 2) : LoaderStands s (jpostDone t rg c j) := by
  have hdone := (h.onCl rg c (fun k => { k with portFull := setBit k.portFull j.toNat false, lead := .none })).finishBp rg c 0 none
  exact ite (hdone.replayJunction rg c j) hdone

theorem presentWord (h : LoaderStands s t) (rg : Rg) (c : Cl) (j : BitVec 2) (v : Entry) : LoaderStands s (presentWord t rg c j v) := by
  have hwait : ∀ l, LoaderStands s (leadWaits t rg c l) := fun l => h.onRgn rg _
  unfold Machine.presentWord
  exact ite (hwait _) (ite (h.jpostDone rg c j) (((hwait _).onRgn rg _).tokens
    ((TokensMove.refl _).foldS [0, 1, 2, 3] fun _ k hu => hu.dropCrossed _ _ _)))

theorem presentWaiting (h : LoaderStands s t) (rg : Rg) : LoaderStands s (presentWaiting t rg) := by
  refine h.foldS _ fun v c _ hv => ?_
  split
  · exact ite (hv.presentWord rg c _ _) (((hv.draw 32).bumpR rg _ _).presentWord rg c _ _)
  · exact hv

end LoaderStands

end Sys2Proof.Machine
end

section
/-! PROOFS. Resets, isolations and readbacks that a partial's end brings with it leave the loader (R25, R230, R233). -/

namespace Sys2Proof.Machine

/-- The reset of the region ends an isolation. -/
def resetReleases (s : State) (rg : Rg) : Bool := (s.rgn rg).releasing && (s.rgn rg).bit F.RGN_CTRL_ISOLATE

/-- The region has been stopped and started anew. -/
def resetAnew (s : State) (rg : Rg) (release : Bool) : State :=
  startLatches (resetDelays ((resetStopped s rg).setRgn rg (((resetStopped s rg).rgn rg).afterReset release)) rg) rg

/-- The job of a region that is reset fails where it is ACTIVE. -/
def jobFails (s : State) (rg : Rg) : State :=
  match s.jobOf rg with
  | some j => if s.bit (F.MER_JOB_CTRL_ACTIVE j.toNat) then failJob s j else s
  | none => s

theorem performReset_steps (s : State) (rg : Rg) :
    performReset s rg = if resetReleases s rg ∧ (jobFails (resetAnew s rg (resetReleases s rg)) rg).reisolates rg (s.rgn rg).isoSub.toNat
      then isolate (jobFails (resetAnew s rg (resetReleases s rg)) rg) rg 3 (s.rgn rg).isoSub.toNat
      else jobFails (resetAnew s rg (resetReleases s rg)) rg := rfl

namespace LoaderStands

variable {s t : State}

theorem gateRegion (h : LoaderStands s t) (rg : Rg) : LoaderStands s (gateRegion t rg) := by
  obtain ⟨u, hbefore, hafter⟩ := gateRegion_contains t rg
  exact ((h.aside hbefore.toAside).onRgn rg _).aside hafter.toAside

theorem isolate (h : LoaderStands s t) (rg : Rg) (cause sub : Nat) : LoaderStands s (isolate t rg cause sub) := by
  cases hiso : t.rbit rg F.RGN_CTRL_ISOLATE with
  | true => rw [isolate_isolated cause sub hiso]; exact h
  | false =>
    obtain ⟨u, v, hbefore, hafter, -, heq⟩ := isolate_cutOff cause sub hiso
    have hcut := ((h.aside hbefore.toAside).onRgn rg _).aside hafter.toAside
    rcases heq with heq | heq
    · rw [heq]; exact hcut
    · rw [heq]; exact hcut.gateRegion rg

/-! ### A region reset -/

theorem countAccepted (h : LoaderStands s t) (b : Bundle) : LoaderStands s (countAccepted t b) := by
  unfold Machine.countAccepted
  split
  · exact h
  · exact h.onRgn _ _

theorem loseBundles (h : LoaderStands s t) (key : Nat) : LoaderStands s (loseBundles t key) := by
  have hacc : LoaderStands s (Machine.foldS (SMap.get [] t.sched key) t Machine.countAccepted) := h.foldS _ fun _ b _ hu => hu.countAccepted b
  unfold Machine.loseBundles
  exact hacc.other

theorem emptyLocal (h : LoaderStands s t) (rg : Rg) : LoaderStands s (emptyLocal t rg) := by
  unfold Machine.emptyLocal
  extract_lets e s1 s2 s3 s4
  have h2 : LoaderStands s s2 := h.other
  clear_value s2
  have h3 : LoaderStands s s3 := h2.foldS _ fun _ b _ hu => hu.countAccepted b
  clear_value s3
  have h4 : LoaderStands s s4 := h3.onRgn rg _
  exact (h4.loseBundles _).loseBundles _

theorem resetDelays (h : LoaderStands s t) (rg : Rg) : LoaderStands s (resetDelays t rg) := by
  unfold Machine.resetDelays
  exact ite h (h.foldS _ fun u k _ hu => hu.onRgn rg _)

theorem startLatches (h : LoaderStands s t) (rg : Rg) : LoaderStands s (startLatches t rg) := by
  unfold Machine.startLatches
  refine ite h (h.foldS _ fun u e _ hu => ?_)
  unfold startLatch
  extract_lets b
  split
  · exact hu
  · split
    · exact hu
    · split
      next v s1 hpair =>
      have hs : LoaderStands s s1 := by
        split at hpair
        · rw [← (Prod.mk.inj hpair).2]; exact hu.draw 16
        · rw [← (Prod.mk.inj hpair).2]; exact hu
      exact hs.onRgn rg _

theorem resetAnew (h : LoaderStands s t) (rg : Rg) (release : Bool) : LoaderStands s (resetAnew t rg release) := by
  have hstopped : LoaderStands s (resetStopped t rg) :=
    (h.emptyLocal rg).aside (((Contains.refl (Machine.emptyLocal t rg)).flushRegion rg).breakOwned _).toAside
  unfold Machine.resetAnew
  generalize resetStopped t rg = u at hstopped ⊢
  have hanew : LoaderStands s (u.setRgn rg ((u.rgn rg).afterReset release)) := hstopped.other
  exact (hanew.resetDelays rg).startLatches rg

theorem jobFails (h : LoaderStands s t) (rg : Rg) : LoaderStands s (jobFails t rg) := by
  unfold Machine.jobFails
  split
  · next j _ => exact ite (h.aside ((Contains.refl t).failJob j).1.toAside) h
  · exact h

theorem performReset (h : LoaderStands s t) (rg : Rg) : LoaderStands s (performReset t rg) := by
  rw [performReset_steps]
  have hfail := ((h.resetAnew rg (resetReleases t rg)).jobFails rg)
  exact ite (hfail.isolate rg 3 _) hfail

theorem drainedRegion (h : LoaderStands s t) (rg : Rg) : LoaderStands s (drainedRegion t rg) :=
  ite h (ite (h.onRgn rg _) (h.performReset rg))

theorem resetIfDue (h : LoaderStands s t) (rg : Rg) : LoaderStands s (resetIfDue t rg) := ite (h.drainedRegion rg) h

/-! ### A readback begins -/

theorem openLatches (h : LoaderStands s t) (r : Region) : LoaderStands s (openLatches t r).2 := by
  unfold Machine.openLatches
  suffices ∀ (l : List (Nat × Cell)) (x : Region × State), LoaderStands s x.2 → LoaderStands s (l.foldl (fun (x : Region × State) e =>
      if e.2.clk then (x.1.setCell (BitVec.ofNat 10 e.1) { e.2 with q := (x.2.draw 16).1 }, (x.2.draw 16).2) else x) x).2 from
    this r.cells (r, t) h
  intro l
  induction l with
  | nil => exact fun _ hx => hx
  | cons e l ih =>
    intro x hx
    rw [List.foldl_cons]
    exact ih _ (iteSnd (hx.draw 16) hx)

theorem capture (h : LoaderStands s t) (rg : Rg) : LoaderStands s (capture t rg) := by
  unfold Machine.capture
  split
  · exact h
  · next kind target _ =>
    refine ite ?_ h
    have hopen : LoaderStands s (if kind = 1 then Machine.openLatches t (t.rgn rg) else (t.rgn rg, t)).2 := iteSnd (h.openLatches _) h
    generalize (if kind = 1 then Machine.openLatches t (t.rgn rg) else (t.rgn rg, t)) = x at hopen ⊢
    obtain ⟨r, u⟩ := x
    have hsram : ∀ m, LoaderStands s { u with sram := m } := fun _ => hopen.other
    exact (((hsram _).setReg (a := F.RTC_RB_STATUS_WAITING_FIX.off) _ (.high (by decide))).setReg (a := R.RTC_RB_CYCLE_LO) _ (.high (by decide))).setReg
      (a := R.RTC_RB_CYCLE_HI) _ (.high (by decide))

theorem startReadback (h : LoaderStands s t) (kind : BitVec 2) (rg : Rg) : LoaderStands s (startReadback t kind rg) := by
  unfold Machine.startReadback
  extract_lets _ s1 s2
  have h1 : LoaderStands s s1 := h.other
  clear_value s1
  have h2 : LoaderStands s s2 := (h1.setF _ (.high (by decide))).setF _ (.high (by decide))
  exact ite h2 (h2.capture rg)

theorem nextReadback (h : LoaderStands s t) : LoaderStands s (nextReadback t) := by
  unfold Machine.nextReadback
  split
  · exact ite h (LoaderStands.startReadback h.other _ _)
  · exact h

/-! ### A partial is turned away -/

theorem openClamps (h : LoaderStands s t) (rg : Rg) : LoaderStands s (openClamps t rg) := (h.onRgn rg _).presentWaiting rg

theorem closePartial (h : LoaderStands s t) (code : Nat) : LoaderStands s (closePartial t code) := by
  have hend : LoaderStands s (endPartial t code) := by
    unfold endPartial
    split
    · exact h.onRgn _ _
    · exact h
  unfold Machine.closePartial
  extract_lets s1
  have h1 : LoaderStands s s1 := (hend.setF _ (.high (by decide))).setF _ (.high (by decide))
  clear_value s1
  exact LoaderStands.nextReadback h1.other

theorem rejectPartial (h : LoaderStands s t) (code : Nat) (rg : Rg) (ix : Nat) : LoaderStands s (rejectPartial t code rg ix) := by
  unfold Machine.rejectPartial recordReject
  extract_lets s1 s2
  have h1 : LoaderStands s s1 := (h.setF _ (.high (by decide))).setF _ (.high (by decide))
  clear_value s1
  have h2 : LoaderStands s s2 := (((h1.setF _ (.high (by decide))).setF _ (.high (by decide))).bump _ (.high (by decide))).setF _ (.high (by decide))
  clear_value s2
  split
  · exact ((h2.openClamps _).closePartial code).resetIfDue _
  · exact h2.closePartial code

end LoaderStands

theorem yieldPartial_stands (s : State) : LoaderStands s (yieldPartial s) := by
  unfold yieldPartial
  exact LoaderStands.ite ((LoaderStands.refl s).rejectPartial 15 0 0) (.refl s)

end Sys2Proof.Machine
end

section
/-! PROOFS. The ground slots, the project keys and the fuse slots; O32 (R196–R198, R212–R216). -/

namespace Sys2Proof.Machine

/-! ### Loading a ground -/

theorem groundLoad_loads {slot : BitVec 2} {s : State} (hload : s.fullLoad = false) (hground : s.groundBusy = false) :
    Completes (.groundLoad slot) s (fun t => t.f F.CFG_STATUS_SLOT = slot.toNat ∧
      (s.activeCopy slot.toNat = none → t.f F.CFG_STATUS_GROUND_ERR = 1 ∧ t.cfgState = s.cfgState) ∧
      (s.activeCopy slot.toNat ≠ none → t.f F.CFG_STATUS_SOURCE = 1 ∧ (t.cfgState = 1 ∨ t.cfgState = 5)) ∧ t.flash = s.flash) := by
  have hstands := yieldPartial_stands s
  have hexec : exec (.groundLoad slot) s = .next (loadGround (yieldPartial s) slot.toNat) :=
    congrArg Host.Outcome.next (if_neg (by simp [hload, hground]))
  refine ⟨_, hexec, ?_⟩
  generalize yieldPartial s = u at *
  have hcopy : u.activeCopy slot.toNat = s.activeCopy slot.toNat := by
    unfold State.activeCopy State.copy
    rw [hstands.flash]
  have hstate : u.cfgState = s.cfgState := hstands.f ⟨by decide, by decide⟩
  cases hactive : u.activeCopy slot.toNat with
  | none =>
    obtain ⟨hslot, herr, hkept, hflash, -⟩ := loadGround_none slot.isLt hactive
    exact ⟨hslot, fun _ => ⟨herr, hkept.trans hstate⟩, fun h => absurd (hcopy.symm.trans hactive) h, hflash.trans hstands.flash⟩
  | some c =>
    obtain ⟨second, heq⟩ := loadGround_some hactive
    obtain ⟨hflash, -, hslot, hsource, hend⟩ := loadCopy_loads u slot.isLt c second
    rw [heq]
    refine ⟨hslot, fun h => ?_, fun _ => ⟨hsource, hend⟩, hflash.trans hstands.flash⟩
    rw [hcopy.symm.trans hactive] at h
    exact absurd h (by simp)

/-! ### The copies of a slot (R212) -/

theorem State.copy_setCopy_same (s : State) (n : Nat) (c : Bool) (x : GroundCopy) : (s.setCopy n c x).copy n c = x :=
  SMap.get_set_same _ _ _ _

theorem State.copy_setCopy_other (s : State) {n m : Nat} {c d : Bool} (x : GroundCopy) (h : m ≠ n ∨ d ≠ c) :
    (s.setCopy n c x).copy m d = s.copy m d := by
  refine SMap.get_set_ne _ _ _ ?_
  have hc : c.toNat < 2 := Bool.toNat_lt c
  have hd : d.toNat < 2 := Bool.toNat_lt d
  rcases h with h | h
  · omega
  · have : d.toNat ≠ c.toNat := by revert h; cases c <;> cases d <;> decide
    omega

theorem groundErase_erases (slot : BitVec 2) (s : State) :
    Completes (.groundErase slot) s (fun t => t.copy slot.toNat false = {} ∧ t.copy slot.toNat true = {} ∧ t.f F.CFG_GROUND_STAT_RESULT = 0 ∧
      (∀ m : BitVec 2, m ≠ slot → ∀ c, t.copy m.toNat c = s.copy m.toNat c)) := by
  have hcopy : ∀ (u : State) n m c, (u.setF F.CFG_GROUND_STAT_RESULT n).copy m c = u.copy m c := fun _ _ _ _ => rfl
  refine ⟨_, rfl, ?_, ?_, ?_, fun m hm c => ?_⟩
  · rw [hcopy, State.copy_setCopy_other _ _ (.inr (by decide)), State.copy_setCopy_same]
  · rw [hcopy, State.copy_setCopy_same]
  · simp
  · have hne : m.toNat ≠ slot.toNat := fun e => hm (BitVec.eq_of_toNat_eq e)
    rw [hcopy, State.copy_setCopy_other _ _ (.inl hne), State.copy_setCopy_other _ _ (.inl hne)]

theorem groundRefresh_refreshes {slot : BitVec 2} {s : State} (hload : s.fullLoad = false) (hground : s.groundBusy = false) :
    Completes (.groundRefresh slot) s (fun t => (s.activeCopy slot.toNat = none → t = s) ∧
      (∀ c, s.activeCopy slot.toNat = some c → (s.copy slot.toNat c).hours.toNat < 17532 → t = s) ∧
      (∀ c, s.activeCopy slot.toNat = some c → 17532 ≤ (s.copy slot.toNat c).hours.toNat →
      t.copy slot.toNat (!c) = { s.copy slot.toNat c with seq := (s.copy slot.toNat c).seq + 1, hours := 0 } ∧
      t.copy slot.toNat c = s.copy slot.toNat c ∧ t = { s with flash := t.flash })) := by
  cases hactive : s.activeCopy slot.toNat with
  | none =>
    refine .of_eq s ?_ ⟨fun _ => rfl, fun c h => absurd h (by simp), fun c h => absurd h (by simp)⟩
    show Host.Outcome.next (match s.activeCopy slot.toNat with | none => s | some _ => _) = _
    rw [hactive]
  | some c =>
    have hexec : exec (.groundRefresh slot) s = .next (if (s.copy slot.toNat c).hours < 17532 ∨ s.fullLoad ∨ s.groundBusy then s
        else s.setCopy slot.toNat (!c) { s.copy slot.toNat c with seq := (s.copy slot.toNat c).seq + 1, hours := 0 }) := by
      show Host.Outcome.next (match s.activeCopy slot.toNat with | none => s | some _ => _) = _
      rw [hactive]
    have hlt : (s.copy slot.toNat c).hours < 17532 ↔ (s.copy slot.toNat c).hours.toNat < 17532 := BitVec.lt_def
    by_cases hyoung : (s.copy slot.toNat c).hours.toNat < 17532
    · rw [if_pos (.inl (hlt.mpr hyoung))] at hexec
      refine ⟨_, hexec, fun h => absurd h (by simp), fun _ _ _ => rfl, fun d hd hold => ?_⟩
      obtain rfl := Option.some.inj hd
      omega
    · rw [if_neg (by simp [hload, hground]; exact BitVec.not_lt.mp fun h => hyoung (hlt.mp h))] at hexec
      refine ⟨_, hexec, fun h => absurd h (by simp), fun d hd hold => ?_, fun d hd _ => ?_⟩
      · obtain rfl := Option.some.inj hd
        exact absurd hold hyoung
      · obtain rfl := Option.some.inj hd
        exact ⟨State.copy_setCopy_same _ _ _ _, State.copy_setCopy_other _ _ (.inr (by cases c <;> decide)), rfl⟩

/-! ### The end of a ground write (R214) -/

/-- The copy that a ground write makes of the staged bitstream. -/
def committed (s : State) (seq : Word) : GroundCopy :=
  let text := (stagedBytes s.load.stage 0 (bsLength s)).getD []
  { commit := true, seq := seq, digest := Config.sha384 text, length := text.length,
    bytes := s.load.stage.foldl (fun (m : SMap Word) e => if 4 * e.1 < text.length then SMap.set 0 m e.1 (e.2.getD 0) else m) [],
    wrapped := if bsKeyId s = 0 then 0 else s.wrapped }

/-- What GROUND_COMMIT does with a bitstream that has no flaw, in the state in which its signature's slot has been noted. -/
def commitGround (s : State) (n : BitVec 2) : State :=
  match s.activeCopy n.toNat with
  | some c => endGround (s.setCopy n.toNat (!c) (committed s ((s.copy n.toNat c).seq + 1))) 0
  | none => endGround ((s.draw 32).2.setCopy n.toNat false (committed (s.draw 32).2 (s.draw 32).1)) 0

theorem noteVerified_frame (s : State) (p : Nat) : noteVerified s p = { s with regs := (noteVerified s p).regs } := by
  unfold noteVerified
  split <;> rfl

theorem groundCommit_eq {n : BitVec 2} {s : State} (hkind : s.load.kind = .ground n) (hall : bsLength s ≤ s.load.end_) :
    exec .groundCommit s = .next (match signatureFlaw s (bsLength s - 200) with
      | some c => endGround s c
      | none => commitGround (noteVerified s (bsLength s - 200)) n) := by
  have hexec : exec .groundCommit s = execGroundCommit s := rfl
  rw [hexec, execGroundCommit, hkind]
  dsimp only
  rw [if_neg (by omega)]
  cases hflaw : signatureFlaw s (bsLength s - 200) with
  | some c => rfl
  | none =>
    dsimp only
    have hlen : bsLength (noteVerified s (bsLength s - 200)) = bsLength s := by rw [noteVerified_frame]; rfl
    generalize noteVerified s (bsLength s - 200) = u at *
    unfold commitGround
    cases u.activeCopy n.toNat <;> rfl

theorem endGround_ends (s : State) {code : Nat} : (endGround s code).f F.CFG_GROUND_STAT_RESULT = code % 16 ∧ (endGround s code).flash = s.flash ∧
    (endGround s code).load = {} := by
  refine ⟨?_, rfl, rfl⟩
  show (s.setF F.CFG_GROUND_STAT_RESULT code).f F.CFG_GROUND_STAT_RESULT = _
  simp

theorem endGround_copy (s : State) (code n : Nat) (c : Bool) : (endGround s code).copy n c = s.copy n c := rfl

/-- What the copies of a slot read after its commit. -/
theorem commitGround_copies {s : State} {n : BitVec 2} :
    (commitGround s n).f F.CFG_GROUND_STAT_RESULT = 0 ∧ (commitGround s n).load = {} ∧
      (∀ c, s.activeCopy n.toNat = some c → (commitGround s n).copy n.toNat c = s.copy n.toNat c ∧
        (commitGround s n).copy n.toNat (!c) = committed s ((s.copy n.toNat c).seq + 1)) ∧
      (s.activeCopy n.toNat = none → ∃ seq, (commitGround s n).copy n.toNat false = committed s seq) := by
  unfold commitGround
  cases hactive : s.activeCopy n.toNat with
  | some c =>
    obtain ⟨hres, -, hload⟩ := endGround_ends (s.setCopy n.toNat (!c) (committed s ((s.copy n.toNat c).seq + 1))) (code := 0)
    refine ⟨hres, hload, fun d hd => ?_, fun h => absurd h (by simp)⟩
    obtain rfl := Option.some.inj hd
    exact ⟨(endGround_copy _ _ _ _).trans (State.copy_setCopy_other _ _ (.inr (by cases c <;> decide))),
      (endGround_copy _ _ _ _).trans (State.copy_setCopy_same _ _ _ _)⟩
  | none =>
    obtain ⟨hres, -, hload⟩ := endGround_ends ((s.draw 32).2.setCopy n.toNat false (committed (s.draw 32).2 (s.draw 32).1)) (code := 0)
    exact ⟨hres, hload, fun d hd => absurd hd (by simp), fun _ => ⟨(s.draw 32).1,
      (endGround_copy _ _ _ _).trans (State.copy_setCopy_same _ _ _ _)⟩⟩

theorem groundCommit_commits {n : BitVec 2} {s : State} (hkind : s.load.kind = .ground n) (hall : bsLength s ≤ s.load.end_) :
    Completes .groundCommit s (fun t => (∀ k, signatureFlaw s (bsLength s - 200) = some k → t.f F.CFG_GROUND_STAT_RESULT = k % 16 ∧ t.flash = s.flash) ∧
      (signatureFlaw s (bsLength s - 200) = none → t.f F.CFG_GROUND_STAT_RESULT = 0) ∧
      (∀ c, s.activeCopy n.toNat = some c → t.copy n.toNat c = s.copy n.toNat c) ∧
      (signatureFlaw s (bsLength s - 200) = none → ∀ c, s.activeCopy n.toNat = some c →
        (t.copy n.toNat (!c)).seq = (s.copy n.toNat c).seq + 1 ∧ (t.copy n.toNat (!c)).commit = true ∧
          (t.copy n.toNat (!c)).digest = Config.sha384 ((stagedBytes s.load.stage 0 (bsLength s)).getD [])) ∧
      (signatureFlaw s (bsLength s - 200) = none → s.activeCopy n.toNat = none →
        (t.copy n.toNat false).commit = true ∧ (t.copy n.toNat false).digest = Config.sha384 ((stagedBytes s.load.stage 0 (bsLength s)).getD [])) ∧
      t.load = {}) := by
  refine ⟨_, groundCommit_eq hkind hall, ?_⟩
  cases hflaw : signatureFlaw s (bsLength s - 200) with
  | some k =>
    obtain ⟨hres, hflash, hload⟩ := endGround_ends s (code := k)
    refine ⟨fun j hj => ?_, fun h => absurd h (by simp), fun c _ => endGround_copy s k _ c, fun h => absurd h (by simp), fun h => absurd h (by simp), hload⟩
    obtain rfl := Option.some.inj hj
    exact ⟨hres, hflash⟩
  | none =>
    have hnoted := noteVerified_frame s (bsLength s - 200)
    have hsame : ∀ seq, (committed (noteVerified s (bsLength s - 200)) seq).digest = Config.sha384 ((stagedBytes s.load.stage 0 (bsLength s)).getD []) :=
      fun seq => by rw [hnoted]; rfl
    have hcopy : ∀ c, (noteVerified s (bsLength s - 200)).copy n.toNat c = s.copy n.toNat c := fun c => by rw [hnoted]; rfl
    have hactive : (noteVerified s (bsLength s - 200)).activeCopy n.toNat = s.activeCopy n.toNat := by rw [hnoted]; rfl
    dsimp only
    generalize noteVerified s (bsLength s - 200) = u at *
    obtain ⟨hres, hload, hsome, hnone⟩ := commitGround_copies (s := u) (n := n)
    rw [hactive] at hsome hnone
    refine ⟨fun j hj => absurd hj (by simp), fun _ => hres, fun c hc => (hsome c hc).1.trans (hcopy c), fun _ c hc => ?_, fun _ hno => ?_, hload⟩
    · rw [(hsome c hc).2]
      exact ⟨by rw [← hcopy]; rfl, rfl, hsame _⟩
    · obtain ⟨seq, hseq⟩ := hnone hno
      rw [hseq]
      exact ⟨rfl, hsame _⟩

/-! ### The project keys and the signing slots (R197, R198) -/

theorem leNat_lt (l : List (BitVec 8)) : leNat l < 256 ^ l.length := by
  induction l with
  | nil => decide
  | cons b l ih =>
    have hb := b.isLt
    rw [leNat, List.length_cons, Nat.pow_succ]
    omega

/-- The identifier in an unwrapped key. -/
def keyIdOf (b : BitVec 320) : Nat := leNat (bytesOf 4 (b.toNat / 2 ^ 32 % 2 ^ 32)).reverse

theorem length_bytesOf (n v : Nat) : (bytesOf n v).length = n := by
  induction n generalizing v with
  | zero => rfl
  | succ n ih => rw [bytesOf, List.length_cons, ih]

theorem keyIdOf_lt (b : BitVec 320) : keyIdOf b < 2 ^ 32 := by
  have h := leNat_lt (bytesOf 4 (b.toNat / 2 ^ 32 % 2 ^ 32)).reverse
  rw [List.length_reverse, length_bytesOf] at h
  exact h

theorem State.setKey_same (s : State) (n : Nat) (v : BitVec 288) : SMap.get 0 (s.setKey n v).keys n = v := SMap.get_set_same _ _ _ _

theorem State.setKey_other (s : State) {n m : Nat} (v : BitVec 288) (h : m ≠ n) : SMap.get 0 (s.setKey n v).keys m = SMap.get 0 s.keys m :=
  SMap.get_set_ne _ _ _ h

/-- A key as its slot holds it: the identifier above the key's bits. -/
def keyWord (b : BitVec 320) : BitVec 288 := BitVec.ofNat 288 (b.toNat / 2 ^ 64 + 2 ^ 256 * keyIdOf b)

theorem keyWord_id (b : BitVec 320) : (keyWord b).toNat / 2 ^ 256 = keyIdOf b := by
  have hb := b.isLt
  have hid := keyIdOf_lt b
  have hkey : b.toNat / 2 ^ 64 < 2 ^ 256 := by
    rw [Nat.div_lt_iff_lt_mul (by decide), ← Nat.pow_add]
    exact hb
  have hsum : b.toNat / 2 ^ 64 + 2 ^ 256 * keyIdOf b < 2 ^ 288 := by
    have : (2 : Nat) ^ 288 = 2 ^ 256 * 2 ^ 32 := by rw [← Nat.pow_add]
    omega
  rw [keyWord, BitVec.toNat_ofNat, Nat.mod_eq_of_lt hsum, Nat.add_mul_div_left _ _ (by decide), Nat.div_eq_of_lt hkey, Nat.zero_add]

theorem hubView_keyId (s : State) (slot : BitVec 3) :
    hubView s (R.CFG_PKEY_ID slot.toNat) = BitVec.ofNat 32 ((SMap.get 0 s.keys slot.toNat).toNat / 2 ^ 256) := by
  have hslot := slot.isLt
  generalize slot.toNat = n at hslot
  interval_cases n <;> rfl

theorem unwrap_unwraps (slot : BitVec 3) (s : State) :
    Completes (.unwrap slot) s (fun t => (Config.keyUnwrap s.wrapped = none → SMap.get 0 t.keys slot.toNat = 0 ∧ t.f F.CFG_PKEY_STAT_UNWRAP_FAIL = 1) ∧
      (∀ b, Config.keyUnwrap s.wrapped = some b → b.toNat % 2 ^ 32 = 0 → keyIdOf b ≠ 0 →
        SMap.get 0 t.keys slot.toNat = keyWord b ∧
          hubView t (R.CFG_PKEY_ID slot.toNat) = BitVec.ofNat 32 (keyIdOf b) ∧
          t.keyLoaded slot.toNat = true ∧ t.f F.CFG_PKEY_STAT_UNWRAP_FAIL = s.f F.CFG_PKEY_STAT_UNWRAP_FAIL) ∧
      (∀ b, Config.keyUnwrap s.wrapped = some b → (b.toNat % 2 ^ 32 ≠ 0 ∨ keyIdOf b = 0) →
        SMap.get 0 t.keys slot.toNat = 0 ∧ t.f F.CFG_PKEY_STAT_UNWRAP_FAIL = 1) ∧
      (∀ m : BitVec 3, m ≠ slot → SMap.get 0 t.keys m.toNat = SMap.get 0 s.keys m.toNat)) := by
  have hothers : ∀ (v : BitVec 288) (m : BitVec 3), m ≠ slot → SMap.get 0 (s.setKey slot.toNat v).keys m.toNat = SMap.get 0 s.keys m.toNat :=
    fun v m hm => s.setKey_other v fun e => hm (BitVec.eq_of_toNat_eq e)
  have hfails : SMap.get 0 ((s.setKey slot.toNat 0).setF F.CFG_PKEY_STAT_UNWRAP_FAIL 1).keys slot.toNat = 0 ∧
      ((s.setKey slot.toNat 0).setF F.CFG_PKEY_STAT_UNWRAP_FAIL 1).f F.CFG_PKEY_STAT_UNWRAP_FAIL = 1 :=
    ⟨s.setKey_same slot.toNat 0, by simp⟩
  cases hunwrap : Config.keyUnwrap s.wrapped with
  | none =>
    have hexec : exec (.unwrap slot) s = .next ((s.setKey slot.toNat 0).setF F.CFG_PKEY_STAT_UNWRAP_FAIL 1) := by
      show Host.Outcome.next (unwrapInto s slot.toNat s.wrapped) = _
      unfold unwrapInto
      rw [hunwrap]
    exact ⟨_, hexec, fun _ => hfails, fun b hb => absurd hb (by simp), fun b hb => absurd hb (by simp), hothers 0⟩
  | some b =>
    have hexec : exec (.unwrap slot) s = .next (if b.toNat % 2 ^ 32 ≠ 0 ∨ keyIdOf b = 0 then (s.setKey slot.toNat 0).setF F.CFG_PKEY_STAT_UNWRAP_FAIL 1
        else s.setKey slot.toNat (keyWord b)) := by
      show Host.Outcome.next (unwrapInto s slot.toNat s.wrapped) = _
      unfold unwrapInto
      rw [hunwrap]
      rfl
    by_cases hbad : b.toNat % 2 ^ 32 ≠ 0 ∨ keyIdOf b = 0
    · rw [if_pos hbad] at hexec
      refine ⟨_, hexec, fun h => absurd h (by simp), fun d hd hz hid => ?_, fun _ _ _ => hfails, hothers 0⟩
      obtain rfl := Option.some.inj hd
      exact (hbad.resolve_left (not_not.mpr hz) |> hid).elim
    · rw [if_neg hbad] at hexec
      have hkey : SMap.get 0 (s.setKey slot.toNat (keyWord b)).keys slot.toNat = keyWord b := s.setKey_same _ _
      refine ⟨_, hexec, fun h => absurd h (by simp), fun d hd hz hid => ?_, fun d hd hb => ?_, hothers _⟩
      · obtain rfl := Option.some.inj hd
        refine ⟨hkey, by rw [hubView_keyId, hkey, keyWord_id], ?_, rfl⟩
        rw [State.keyLoaded, hkey]
        refine decide_eq_true fun h0 => hid ?_
        rw [← keyWord_id, h0]
        rfl
      · obtain rfl := Option.some.inj hd
        exact absurd hb hbad

/-- Settles O32: each command does its one update of its slot's copies, key or fuse, once a partial has given way to a ground. -/
theorem groundsAndKeys : Obligations.GroundsAndKeys := by
  unfold Obligations.GroundsAndKeys
  refine ⟨fun slot s ⟨hl, hg⟩ => groundLoad_loads hl hg, fun slot s ⟨hl, hg⟩ => ?_, fun n s ⟨hk, he⟩ => groundCommit_commits hk he,
    fun slot s => groundErase_erases slot s, fun slot s ⟨hl, hg⟩ => groundRefresh_refreshes hl hg, fun slot s => unwrap_unwraps slot s,
    fun slot s => ?_, fun s => ⟨_, rfl, rfl⟩, fun slot s hp => ?_, fun w slot arm s h => ?_, fun slot s => ?_, fun w slot arm s h => ?_⟩
  · exact ⟨_, congrArg Host.Outcome.next (if_neg (by simp [hl, hg])), rfl⟩
  · exact ⟨_, rfl, s.setKey_same _ _, fun m hm => s.setKey_other _ fun e => hm (BitVec.eq_of_toNat_eq e), rfl⟩
  · refine ⟨_, congrArg Host.Outcome.next (if_neg (by simp [hp])), getLsbD_setBit_same _ _ slot.isLt, SMap.get_set_same _ _ _ _, fun m hm => ?_⟩
    have hne : m.toNat ≠ slot.toNat := fun e => hm (BitVec.eq_of_toNat_eq e)
    exact ⟨getLsbD_setBit_ne _ _ hne, SMap.get_set_ne _ _ _ hne⟩
  · refine ⟨_, congrArg Host.Outcome.next (if_pos ?_), rfl⟩
    rcases h with h | h
    · exact .inl h
    · exact .inr (.inl h)
  · exact ⟨_, congrArg Host.Outcome.next (if_neg (by simp)), getLsbD_setBit_same _ _ slot.isLt, rfl, rfl⟩
  · exact ⟨_, congrArg Host.Outcome.next (if_pos h), rfl⟩

end Sys2Proof.Machine
end

section
/-! PROOFS. The settings of a load leave the loader's registers (R193, R203). -/

namespace Sys2Proof.Machine

namespace LoaderStands

variable {s t : State}

theorem of_regs {u : State} (h : LoaderStands s t) (hregs : u.regs = t.regs) (hflash : u.flash = t.flash) : LoaderStands s u :=
  h.other (Prod.ext hregs hflash)

/-! ### The meridian's source -/

theorem setMer (h : LoaderStands s t) (n : Nat) : LoaderStands s (t.setMer n) := h.setF n (.low (by decide))

theorem changeSrc (h : LoaderStands s t) (v : Nat) : LoaderStands s (changeSrc t v) := by
  unfold Machine.changeSrc
  extract_lets old s1 _ _ s2 s3
  have h1 : LoaderStands s s1 := h.setF _ (.low (by decide))
  have h2 : LoaderStands s s2 := h1.other
  have h3 : LoaderStands s s3 := h2.setF _ (.low (by decide))
  clear_value s3
  refine ite h1 (ite (ite ?_ (h3.setMer 0)) (h3.setMer _))
  have h4 : LoaderStands s { s3 with mer := { s3.mer with tick := 0 } } := h3.other
  exact h4.setMer 3

theorem lossNoted (h : LoaderStands s t) : LoaderStands s ((((t.setMer 4).setF F.MER_STATUS_LOSS 1).bump F.MER_EVENTS_LOSSES 1 |>.noteFault 22 4 0).ibi 0x01 0 4) :=
  ((((h.setMer 4).setF _ (.low (by decide))).bump _ (.low (by decide))).noteFault _ (by decide) (by decide)).ibi _ _ (by decide)

theorem loseReference (h : LoaderStands s t) : LoaderStands s (loseReference t) := by
  have hund : LoaderStands s t.undated := h.other
  unfold Machine.loseReference
  split
  · exact hund.setMer 0
  · exact hund.setMer 0
  · exact lossNoted (t := { t.undated with mer := { t.undated.mer with slew := 0, odd := none, omitted := false } }) hund.other
  · exact lossNoted (t := { t.undated with mer := { t.undated.mer with slew := 0, odd := none, omitted := false } }) hund.other
  · exact h

theorem switchSource (h : LoaderStands s t) : LoaderStands s (switchSource t) := by
  have h1 : LoaderStands s { t.undated with mer := { t.undated.mer with onAlt := true, switching := true } } := h.other
  exact h1.setF 1 (.low (by decide))

theorem missTick (h : LoaderStands s t) (p : Nat) : LoaderStands s (missTick t p) := by
  unfold Machine.missTick
  extract_lets _ s1 alt s2
  have h1 : LoaderStands s s1 := h.other
  have h2 : LoaderStands s s2 := h1.loseReference
  clear_value s2
  exact ite h1 (ite h2.other (ite h2.switchSource h2))

/-! ### A port takes another STATE -/

theorem forgetTraining (h : LoaderStands s t) (p st : Nat) : LoaderStands s (forgetTraining t p st) := by
  unfold Machine.forgetTraining
  extract_lets s1
  have h1 : LoaderStands s s1 := ite (h.setF _ (.high (by dsimp only; omega))) h
  clear_value s1
  exact ite (h1.foldS _ fun _ l _ hu => hu.setF (x := F.LNK_LANE_OK p l) 0 (.high (by dsimp only; omega))) h1

theorem setLink (h : LoaderStands s t) (p st : Nat) : LoaderStands s (setLink t p st) := by
  unfold Machine.setLink
  extract_lets b s1 s2 s3 _ s4
  have h1 : LoaderStands s s1 := ite (h.missTick p) h
  clear_value s1
  have h2 : LoaderStands s s2 := by
    refine ite ?_ h1
    unfold listenAnew
    exact ite h1.other h1
  clear_value s2
  have h3 : LoaderStands s s3 := (h2.setF (x := F.LNK_STATUS_STATE p) st (.high (by dsimp only; omega))).forgetTraining p st
  clear_value s3
  have h4 : LoaderStands s s4 := ite h3 h3.other
  clear_value s4
  exact h4.sweeps (.sweepUpdate b s4)

theorem beginTraining (h : LoaderStands s t) (p : Nat) : LoaderStands s (beginTraining t p) := by
  unfold Machine.beginTraining
  extract_lets st s1
  have h1 : LoaderStands s s1 := h.other
  clear_value s1
  exact ite h ((h1.setLink p 1).bump (x := F.LNK_LANE_EVENTS_TRAINS p) 1 (.high (by dsimp only; omega)))

theorem sendBack (h : LoaderStands s t) (p : Nat) : LoaderStands s (sendBack t p) := by
  unfold Machine.sendBack
  exact LoaderStands.foldS (t := t.onPort p _) h.other _ fun _ _ _ hu => hu.other

theorem refuseHead (h : LoaderStands s t) (p : Nat) (x : Packet) (rest : List Packet) (c : Nat) : LoaderStands s (refuseHead t p x rest c) := by
  unfold Machine.refuseHead
  extract_lets s1 s2 s3
  have h1 : LoaderStands s s1 := by
    unfold s1 freeFlits
    exact ite h.other h.other
  clear_value s1
  have h3 : LoaderStands s s3 := h1.other
  clear_value s3
  exact ite (h3.bump (x := F.LNK_PKT_INJ_BUSY p) 1 (.high (by dsimp only; omega))) (h3.bump (x := F.HUB_NOC_ABSORBED) 1 (.low (by decide)))

theorem settleDue (h : LoaderStands s t) (p : Nat) : LoaderStands s (settleDue t p) := by
  refine h.foldS _ fun u v _ hu => ?_
  split
  · exact hu
  · split
    · exact ite hu (hu.refuseHead p _ _ _)
    · exact hu

theorem goDown (h : LoaderStands s t) (p : Nat) : LoaderStands s (goDown t p) := by
  have hcleared : LoaderStands s (clearedPort t p) :=
    LoaderStands.sendBack (LoaderStands.settleDue (t := (Machine.sendBack t p).onPort p _) (h.sendBack p).other p) p
  rw [goDown_eq]
  exact ((hcleared.setLink p 0).setF (x := F.LNK_STATUS_DOWN_EVT p) 1 (.high (by dsimp only; omega))).ibi _ _ (by decide)

/-! ### A setting -/

theorem changeFunc (h : LoaderStands s t) (v : Nat) : LoaderStands s (changeFunc t v) := by
  unfold Machine.changeFunc
  extract_lets old moved s1 s2
  have h1 : LoaderStands s s1 := h.setF _ (.low (by decide))
  clear_value s1
  have h2 : LoaderStands s s2 := ite (h1.setF _ (.low (by decide))) h1
  clear_value s2
  exact h2.other

/-- A register that SETTINGS may address is no register of the loader but CFG.CTRL. -/
theorem groundMask_foreign {a : Nat} (h : groundMask a ≠ 0) (hctrl : a ≠ R.CFG_CTRL) : ForeignReg a := by
  by_contra hnot
  refine h ?_
  have ha : 0x60000 ≤ a ∧ a < 0x61000 := by unfold ForeignReg at hnot; omega
  have hlinks : (List.range 6).any (fun p => a == R.LNK_CTRL p) = false := by
    refine List.any_eq_false.mpr fun p _ => ?_
    have : a ≠ R.LNK_CTRL p := by unfold R.LNK_CTRL; omega
    simpa using this
  have hne : ∀ b, b < 0x60000 ∨ 0x61000 ≤ b → a ≠ b := fun b hb => by omega
  unfold groundMask
  rw [if_neg (hne _ (by decide)), if_neg (hne _ (by decide)), if_neg (by omega), if_neg (not_or.mpr ⟨hne _ (by decide), hne _ (by decide)⟩),
    if_neg (hne _ (by decide)), if_neg (hne _ (by decide)), if_neg (hne _ (by decide)), if_neg (hne _ (by decide)), if_neg hctrl,
    if_neg (hne _ (by decide)), if_neg (hne _ (by decide)), if_neg (by rw [hlinks]; decide)]

theorem applySetting (h : LoaderStands s t) {a : Word} (ha : ForeignReg a.toNat) (mask v : Word) : LoaderStands s (applySetting t a mask v) := by
  unfold Machine.applySetting
  extract_lets k old new s1
  have h1 : LoaderStands s s1 := h.setReg new ha
  clear_value s1
  refine ite ((h.setReg _ ha).changeSrc _) (ite (h.changeFunc _) (ite (h1.sweeps (.considerSelf s1)) ?_))
  refine h1.foldS _ fun u p _ hu => ite hu (ite (ite hu (hu.goDown p)) (ite ?_ hu))
  exact LoaderStands.beginTraining hu.other p

end LoaderStands

end Sys2Proof.Machine
end

section
/-! PROOFS. FINISHING_END (R195, R196, R203, R204). -/

namespace Sys2Proof.Machine

namespace LoaderStands

variable {s t : State}

/-! ### What the end of a load does to the regions, the repairs, the banks and the links -/

theorem finishRegion (h : LoaderStands s t) (rg : Rg) : LoaderStands s (finishRegion t rg) := by
  unfold Machine.finishRegion
  extract_lets job named gated s1
  have h1 : LoaderStands s s1 := h.gateRegion rg
  clear_value s1
  exact ite (ite (h1.isolate rg 3 9) h1) (ite (h.gateRegion rg) (ite h (ite (h.gateRegion rg) ((h.onRgn rg _).resetDelays rg))))

theorem writeBanks (h : LoaderStands s t) : LoaderStands s (writeBanks t) :=
  h.foldS _ fun u q _ hu => ((((hu.draw 3).setRf _ _ _).setRf _ _ _).setRf _ _ _).setRf _ _ _

theorem countSpares (h : LoaderStands s t) : LoaderStands s (countSpares t) :=
  h.foldS _ fun u rg _ hu => hu.setF (x := F.SCR_SPARES_USED rg.toNat) _ (.high (by dsimp only; omega))

theorem onPort (h : LoaderStands s t) (p : Nat) (g : Port → Port) : LoaderStands s (t.onPort p g) := h.other

theorem setClipped (h : LoaderStands s t) (p : Nat) : LoaderStands s (setClipped t p) := by
  unfold Machine.setClipped
  exact h.setF (x := F.LNK_STATUS_PLAN_CLIPPED p) _ (.high (by dsimp only; omega))

theorem clearSlots (h : LoaderStands s t) : LoaderStands s (clearSlots t) := by
  refine h.foldS _ fun u p _ hu => ite hu ?_
  have hplan : ∀ a ∈ [R.LNK_PLAN_LO p, R.LNK_PLAN_HI p, R.LNK_PLAN_SH_LO p, R.LNK_PLAN_SH_HI p], ForeignReg a := by
    intro a ha
    simp only [List.mem_cons, List.not_mem_nil, or_false] at ha
    unfold R.LNK_PLAN_LO R.LNK_PLAN_HI R.LNK_PLAN_SH_LO R.LNK_PLAN_SH_HI at ha
    exact .high (by omega)
  have hcleared := hu.foldS _ fun v a ha hv => hv.setReg (a := a) 0 (hplan a ha)
  generalize Machine.foldS [R.LNK_PLAN_LO p, R.LNK_PLAN_HI p, R.LNK_PLAN_SH_LO p, R.LNK_PLAN_SH_HI p] u _ = v at hcleared ⊢
  exact LoaderStands.setClipped (hcleared.onPort p _) p

theorem runChecks (h : LoaderStands s t) (rg : Rg) : LoaderStands s (runChecks t rg) := by
  unfold Machine.runChecks
  split
  · exact h.onRgn rg _
  · exact (h.onRgn rg _).isolate rg 6 0

end LoaderStands

/-! ### A load that succeeds -/

/-- The settings of a load are applied. -/
def settingsApplied (s : State) : State := foldS s.load.settings s (fun s r => applySetting s r.1 r.2.1 r.2.2)

/-- The pins are free again as the load has configured them. -/
def pinsReleased (s : State) : State := { s with gpio := { s.gpio with held := false } }

/-- The regions, the repairs, the banks and the slots of a load that succeeds. -/
def loadFinished (s : State) : State :=
  foldS allRegions (clearSlots (countSpares (writeBanks (foldS allRegions (pinsReleased (settingsApplied s)) finishRegion)))) (fun s rg =>
    if (s.jobOf rg).isSome ∧ (s.rgn rg).configured then runChecks s rg else s)

/-- The result of a ground's load. -/
def groundReported (s : State) : State := if s.load.path = 1 then s.setF F.CFG_GROUND_STAT_RESULT 0 else s

/-- The load is reported, and the loader rests. -/
def loadReported (s : State) : State :=
  let id := headerField s 0x18 8
  let s := (s.setReg R.CFG_BSID_LO (BitVec.ofNat 32 id)).setReg R.CFG_BSID_HI (BitVec.ofNat 32 (id / 2 ^ 32))
  let s := (s.bump F.CFG_LOADS_OK 1).setF F.CFG_STATUS_STATE 3
  { s with load := {} }

theorem finishLoad_steps (s : State) (p : Nat) :
    finishLoad s p = doneReleased (loadReported (loadFinished (groundReported (noteVerified s p)))) := rfl

theorem finishLoad_eq {s : State} (h : s.load.path ≠ 1) (p : Nat) : finishLoad s p = doneReleased (loadReported (loadFinished (noteVerified s p))) := by
  have hpath : (noteVerified s p).load.path ≠ 1 := by rw [noteVerified_frame]; exact h
  have hres : groundReported (noteVerified s p) = noteVerified s p := if_neg hpath
  rw [finishLoad_steps, hres]

theorem loadFinished_stands {s : State} (h : s.load.settings.all (fun x => groundMask x.1.toNat != 0 && x.1.toNat != R.CFG_CTRL) = true) :
    LoaderStands s (loadFinished s) := by
  have hset : LoaderStands s (settingsApplied s) := (LoaderStands.refl s).foldS _ fun u r hr hu => by
    have hmask := List.all_eq_true.mp h r hr
    simp only [Bool.and_eq_true, bne_iff_ne, ne_eq] at hmask
    exact hu.applySetting (LoaderStands.groundMask_foreign hmask.1 hmask.2) _ _
  unfold loadFinished
  generalize settingsApplied s = t at hset ⊢
  have hpins : LoaderStands s (pinsReleased t) := hset.other
  have hslots := (hpins.foldS allRegions (f := finishRegion) fun u rg _ hu => hu.finishRegion rg).writeBanks.countSpares.clearSlots
  exact hslots.foldS _ fun u rg _ hu => LoaderStands.ite (hu.runChecks rg) hu

theorem loadReported_reports (s : State) : (loadReported s).f F.CFG_STATUS_STATE = 3 ∧
    (loadReported s).f F.CFG_LOADS_OK = min (s.f F.CFG_LOADS_OK + 1) F.CFG_LOADS_OK.max ∧ (loadReported s).load = {} ∧
      (loadReported s).f F.CFG_CTRL_DONE_SOLO = s.f F.CFG_CTRL_DONE_SOLO := by
  refine ⟨?_, ?_, rfl, ?_⟩ <;> unfold loadReported <;> simp

theorem noteVerified_f (s : State) (p : Nat) {x : Fld} (hx : x.off ≠ 0x600d0) : (noteVerified s p).f x = s.f x := by
  unfold noteVerified
  split
  · rfl
  · exact State.f_setF_other _ _ _ _ (by decide) (.inl hx.symm)

/-- A load whose signature has no flaw succeeds. -/
theorem finishLoad_succeeds {s : State} (hpath : s.load.path ≠ 1) (hsolo : s.f F.CFG_CTRL_DONE_SOLO = 0)
    (h : s.load.settings.all (fun x => groundMask x.1.toNat != 0 && x.1.toNat != R.CFG_CTRL) = true) (p : Nat) :
    (finishLoad s p).f F.CFG_STATUS_STATE = 3 ∧ (finishLoad s p).f F.CFG_LOADS_OK = min (s.f F.CFG_LOADS_OK + 1) F.CFG_LOADS_OK.max ∧
      (finishLoad s p).load = {} := by
  have hnoted := noteVerified_frame s p
  have hfields : ∀ x : Fld, x.off ≠ 0x600d0 → (noteVerified s p).f x = s.f x := fun x hx => noteVerified_f s p hx
  have hsettings : (noteVerified s p).load.settings = s.load.settings := by rw [hnoted]
  rw [finishLoad_eq hpath]
  generalize noteVerified s p = u at *
  rw [← hsettings] at h
  have hstands := loadFinished_stands h
  generalize loadFinished u = v at hstands ⊢
  obtain ⟨hstate, hok, hload, hdone⟩ := loadReported_reports v
  have hreleased : doneReleased (loadReported v) = loadReported v := by
    refine if_neg fun hd => ?_
    have h0 : (loadReported v).f F.CFG_CTRL_DONE_SOLO = 0 := by
      rw [hdone, hstands.f ⟨by decide, by decide⟩, hfields _ (by decide), hsolo]
    rw [State.bit, h0] at hd
    exact absurd hd.2 (by decide)
  rw [hreleased]
  exact ⟨hstate, by rw [hok, hstands.f ⟨by decide, by decide⟩, hfields _ (by decide)], hload⟩

end Sys2Proof.Machine
end

section
/-! PROOFS. Loads that fail, DONE, and the START command; O31 (R196, R203, R204, R207, R208, R211). -/

namespace Sys2Proof.Machine

/-! ### The signature's slot (R196) -/

/-- Staged bytes are those of a first part and of the rest. -/
theorem stagedBytes_split (m : SMap (Option Word)) {n k a : Nat} {l : List (BitVec 8)} (h : stagedBytes m a (n + k) = some l) :
    stagedBytes m a n = some (l.take n) ∧ stagedBytes m (a + n) k = some (l.drop n) := by
  induction n generalizing a l with
  | zero => exact ⟨rfl, by simpa using h⟩
  | succ n ih =>
    rw [Nat.add_right_comm, stagedBytes] at h
    split at h
    next b t hb ht =>
      obtain rfl := Option.some.inj h
      obtain ⟨hfirst, hrest⟩ := ih ht
      constructor
      · rw [stagedBytes, hb, hfirst]; rfl
      · rw [Nat.add_right_comm] at hrest
        exact hrest
    next => exact absurd h (by simp)

/-- A signature by a slot that is not programmed is turned away with 13. -/
theorem signatureFlaw_unprogrammed {s : State} (hlen : 200 ≤ s.load.point) (hstaged : (stagedBytes s.load.stage 0 s.load.point).isSome = true)
    (hfuses : s.fuses.programmed ≠ 0)
    (hslot : s.fuses.programmed.getLsbD (leNat ((stagedBytes s.load.stage (s.load.point - 200) 1).getD [])) = false) :
    signatureFlaw s (s.load.point - 200) = some 13 := by
  obtain ⟨l, hl⟩ := Option.isSome_iff_exists.mp hstaged
  have hsum : s.load.point - 200 + 200 = s.load.point := by omega
  rw [← hsum] at hl
  obtain ⟨htext, hsig⟩ := stagedBytes_split s.load.stage hl
  rw [Nat.zero_add] at hsig
  obtain ⟨hfirst, -⟩ := stagedBytes_split s.load.stage (n := 1) (k := 199) hsig
  rw [hfirst, Option.getD_some] at hslot
  unfold signatureFlaw
  rw [hsig, htext]
  dsimp only
  refine if_pos ⟨by simpa using hfuses, ?_⟩
  simp [hslot]

theorem signatureFlaw_lt {s : State} {p c : Nat} (h : signatureFlaw s p = some c) : c < 16 := by
  unfold signatureFlaw at h
  split at h
  · dsimp only at h
    split_ifs at h <;> simp only [Option.some.injEq] at h <;> omega
  · simp only [Option.some.injEq] at h
    omega

end Sys2Proof.Machine
end

section
/-! PROOFS. DONE, and the START that follows it or a START_CMD; O31 (R203, R204, R207–R211). -/

namespace Sys2Proof.Machine

/-! ### What a start does to the package -/

theorem Region.haltStart_keeps (r : Region) (k : CoreNo) : ((r.haltStart k).configured, (r.haltStart k).live) = (r.configured, r.live) := by
  unfold Region.haltStart
  dsimp only
  split <;> rfl

theorem Region.startCore_keeps (r : Region) (k : CoreNo) : ((r.startCore k).configured, (r.startCore k).live) = (r.configured, r.live) := by
  unfold Region.startCore
  extract_lets i r1 st e r2 r3
  have h1 : (r1.configured, r1.live) = (r.configured, r.live) := r.haltStart_keeps k
  clear_value r1
  have h2 : (r2.configured, r2.live) = (r1.configured, r1.live) := by unfold r2; split <;> rfl
  exact h2.trans h1

/-- From `s` to `t` the package has been started further: STATE, DONE_SEEN and the command register stand, a START counted as missed stays so,
every region keeps its configuration, and a region that is live stays live. -/
structure Issues (s t : State) : Prop where
  status : (t.f F.CFG_STATUS_STATE, t.f F.CFG_STATUS_DONE_SEEN) = (s.f F.CFG_STATUS_STATE, s.f F.CFG_STATUS_DONE_SEEN)
  missed : s.f F.CFG_STATUS_START_MISSED = 1 → t.f F.CFG_STATUS_START_MISSED = 1
  command : t.reg R.CFG_START_CMD = s.reg R.CFG_START_CMD
  configured : ∀ rg, (t.rgn rg).configured = (s.rgn rg).configured
  live : ∀ rg, (s.rgn rg).live = true → (t.rgn rg).live = true

namespace Issues

theorem refl (s : State) : Issues s s := ⟨rfl, id, rfl, fun _ => rfl, fun _ => id⟩

variable {s t u : State}

theorem trans (h : Issues s t) (h' : Issues t u) : Issues s u :=
  ⟨h'.status.trans h.status, h'.missed ∘ h.missed, h'.command.trans h.command, fun rg => (h'.configured rg).trans (h.configured rg),
    fun rg hrg => h'.live rg (h.live rg hrg)⟩

theorem of_frame (h : Issues s t) (hregs : ∀ a, LoaderReg a → u.reg a = t.reg a) (hrgns : u.rgns = t.rgns) : Issues s u := by
  have hrgn : ∀ rg, u.rgn rg = t.rgn rg := fun rg => by unfold State.rgn; rw [hrgns]
  have hf : ∀ x : Fld, LoaderReg x.off → u.f x = t.f x := fun x hx => congrArg x.of (hregs x.off hx)
  refine h.trans ⟨?_, fun hm => ?_, hregs _ ⟨by decide, by decide⟩, fun rg => by rw [hrgn], fun rg hl => by rw [hrgn, hl]⟩
  · rw [hf _ ⟨by decide, by decide⟩, hf _ ⟨by decide, by decide⟩]
  · rw [hf _ ⟨by decide, by decide⟩, hm]

theorem foldS {α : Type} {f : State → α → State} (h : Issues s t) (l : List α) (hf : ∀ u a, Issues s u → Issues s (f u a)) :
    Issues s (foldS l t f) := foldS_induct l (fun u a _ hu => hf u a hu) h

theorem ite {c : Prop} {_ : Decidable c} (ht : Issues s t) (hu : Issues s u) : Issues s (if c then t else u) := by
  split <;> assumption

theorem setF (h : Issues s t) {x : Fld} (n : Nat) (hx : ForeignReg x.off) : Issues s (t.setF x n) :=
  h.of_frame (fun _ ha => State.reg_setF_ne t x n (by unfold LoaderReg at ha; unfold ForeignReg at hx; omega)) rfl

theorem ibi (h : Issues s t) {cls : Nat} (loc arg : Nat) (hc : cls < 64) : Issues s (t.ibi cls loc arg) :=
  h.of_frame ((LoaderStands.refl t).ibi loc arg hc).reg (by rw [State.ibi_frame])

theorem startMissed (h : Issues s t) : Issues s (t.setF F.CFG_STATUS_START_MISSED 1) := by
  refine h.trans ⟨?_, fun _ => State.f_setF_eq _ _ _ (by decide), State.reg_setF_ne _ _ _ (by decide), fun _ => rfl, fun _ => id⟩
  rw [State.f_setF_other _ _ _ _ (by decide) (by decide), State.f_setF_other _ _ _ _ (by decide) (by decide)]

theorem startLate (h : Issues s t) : Issues s (t.setF F.CFG_STATUS_START_LATE 1) := by
  refine h.trans ⟨?_, fun hm => ?_, State.reg_setF_ne _ _ _ (by decide), fun _ => rfl, fun _ => id⟩
  · rw [State.f_setF_other _ _ _ _ (by decide) (by decide), State.f_setF_other _ _ _ _ (by decide) (by decide)]
  · rw [State.f_setF_other _ _ _ _ (by decide) (by decide), hm]

theorem onRgn (h : Issues s t) (rg : Rg) {g : Region → Region}
    (hg : ∀ r, (g r).configured = r.configured ∧ (r.live = true → (g r).live = true)) : Issues s (t.onRgn rg g) := by
  refine h.trans ⟨rfl, id, rfl, fun rh => ?_, fun rh hl => ?_⟩
  all_goals by_cases hrh : rh = rg
  · subst hrh; rw [State.rgn_onRgn_same, (hg _).1]
  · rw [State.rgn_onRgn_ne _ _ hrh]
  · subst hrh; rw [State.rgn_onRgn_same]; exact (hg _).2 hl
  · rw [State.rgn_onRgn_ne _ _ hrh, hl]

theorem startChecks (h : Issues s t) (j : Job) : Issues s (startChecks t j) :=
  h.foldS _ fun _ rg hu => ite (hu.onRgn rg fun _ => ⟨rfl, id⟩) hu

theorem applyStart (h : Issues s t) (j : Job) (tick : BitVec 48) : Issues s (applyStart t j tick) := by
  unfold Machine.applyStart
  refine ite h.startMissed (ite h (ite h.startMissed (ite (h.startLate.ibi _ _ (by decide)) (ite (h.setF _ (.low ?_)) ?_))))
  · have := j.isLt
    dsimp only
    omega
  · exact (h.of_frame (u := t.setJob j _) (fun _ _ => rfl) rfl).startChecks j

theorem applyStarts (h : Issues s t) (tick : BitVec 48) (j : Job) (all : Bool) : Issues s (applyStarts t tick j all) :=
  ite (h.foldS _ fun _ k hu => hu.applyStart k tick) (h.applyStart j tick)

theorem issueStart (h : Issues s t) (tick : BitVec 48) (j : Job) (all broadcast : Bool) : Issues s (issueStart t tick j all broadcast) := by
  refine applyStarts (ite h (ite h.startMissed ?_)) tick j all
  have hflood := flood_sent (rememberStart (broadcastOf t 0x22 (startFlit tick j all)).1 ((bitsAt (startFlit tick j all) 0 55 : BitVec 55).zeroExtend 128))
    (broadcastOf t 0x22 (startFlit tick j all)).2 none
  exact h.of_frame (fun a _ => by unfold State.reg; rw [hflood.regs]; rfl) (by rw [hflood.rgns]; rfl)

theorem startLatches (h : Issues s t) (rg : Rg) : Issues s (startLatches t rg) := by
  unfold Machine.startLatches
  refine ite h (h.foldS _ fun u e hu => ?_)
  unfold startLatch
  extract_lets b
  refine ite hu ?_
  split
  · exact hu
  · split
    next v s1 hpair =>
    have hs : Issues s s1 := by
      split at hpair
      · rw [← (Prod.mk.inj hpair).2]; exact hu.of_frame (fun _ _ => rfl) rfl
      · rw [← (Prod.mk.inj hpair).2]; exact hu
    exact hs.onRgn rg fun _ => ⟨rfl, id⟩

end Issues

/-! ### DONE (R207, R208) -/

/-- A region as DONE makes it: its fabric runs and its cores start. -/
def Region.enters (r : Region) : Region := allCores.foldl (fun (r : Region) k => r.startCore k) { r with live := true }

theorem Region.enters_keeps (r : Region) : (r.enters.configured, r.enters.live) = (r.configured, true) :=
  foldl_keeps (P := fun n : Region => (n.configured, n.live) = (r.configured, true)) (fun n k hn => (n.startCore_keeps k).trans hn) allCores rfl

/-- DONE in a region: one that is configured enters. -/
def entersRegion (s : State) (rg : Rg) : State := if (s.rgn rg).configured then s.onRgn rg Region.enters else s

theorem Issues.entersRegion {s t : State} (h : Issues s t) (rg : Rg) : Issues s (entersRegion t rg) :=
  ite (h.onRgn rg fun r => ⟨congrArg Prod.fst r.enters_keeps, fun _ => congrArg Prod.snd r.enters_keeps⟩) h

theorem entersRegion_live {t : State} {rg : Rg} (h : (t.rgn rg).configured = true) : ((entersRegion t rg).rgn rg).live = true := by
  unfold entersRegion
  rw [if_pos h, State.rgn_onRgn_same]
  exact congrArg Prod.snd (t.rgn rg).enters_keeps

/-- Every configured region enters. -/
theorem entersRegions_live (s : State) {rg : Rg} (h : (s.rgn rg).configured = true) :
    ((foldS allRegions s entersRegion).rgn rg).live = true := by
  refine foldl_reaches_from (Q := fun t : State => (t.rgn rg).configured = true) (P := fun t : State => (t.rgn rg).live = true) (mem_allRegions rg)
    (fun t a ht => ?_) (fun t ht => entersRegion_live ht) (fun t a ht => ((Issues.refl t).entersRegion a).live rg ht) h
  rw [((Issues.refl t).entersRegion a).configured, ht]

/-- STATE and DONE_SEEN as DONE sets them. -/
def doneSeen (s : State) : State := (s.setF F.CFG_STATUS_STATE 4).setF F.CFG_STATUS_DONE_SEEN 1

theorem doneSeen_reports (s : State) : (doneSeen s).f F.CFG_STATUS_STATE = 4 ∧ (doneSeen s).f F.CFG_STATUS_DONE_SEEN = 1 := by
  unfold doneSeen
  rw [State.f_setF_other _ _ _ _ (by decide) (by decide), State.f_setF_eq _ _ _ (by decide), State.f_setF_eq _ _ _ (by decide)]
  decide

theorem enterUser_starts (s : State) : Issues (foldS allRegions (doneSeen s) entersRegion) (enterUser s) := by
  have h := (Issues.refl (foldS allRegions (doneSeen s) entersRegion)).foldS allRegions (f := startLatches) fun _ rg hu => hu.startLatches rg
  exact Issues.ite (h.issueStart _ _ _ _) h

theorem enterUser_enters (s : State) : (enterUser s).f F.CFG_STATUS_STATE = 4 ∧ (enterUser s).f F.CFG_STATUS_DONE_SEEN = 1 ∧
    ∀ rg : Rg, (s.rgn rg).configured = true → ((enterUser s).rgn rg).live = true := by
  obtain ⟨hstate, hseen⟩ := doneSeen_reports s
  have hloop : Issues (doneSeen s) (foldS allRegions (doneSeen s) entersRegion) := (Issues.refl _).foldS _ fun _ rg hu => hu.entersRegion rg
  have hstarts := enterUser_starts s
  obtain ⟨hstate', hseen'⟩ := Prod.mk.inj (hstarts.status.trans hloop.status)
  exact ⟨hstate'.trans hstate, hseen'.trans hseen, fun rg hrg => hstarts.live rg (entersRegions_live _ hrg)⟩

/-! ### START_CMD (R211) -/

theorem startCmd_broadcast {v : Word} {s : State} (hgo : v.getLsbD 9 = true) (hbroadcast : v.getLsbD 7 = true)
    (hlodestar : s.f F.FAB_STATUS_LODESTAR = 0) :
    Completes (.startCmd v) s (fun t => t.f F.CFG_STATUS_START_MISSED = 1 ∧ t.reg R.CFG_START_CMD = v &&& 0x1FF) := by
  have hexec : ∃ tick, exec (.startCmd v) s = .next (issueStart (s.setReg R.CFG_START_CMD (v &&& 0x1FF)) tick (bitsAt v 0 6) (v.getLsbD 6) (v.getLsbD 7)) :=
    ⟨_, congrArg Host.Outcome.next (if_neg (by simp [hgo]))⟩
  obtain ⟨tick, hexec⟩ := hexec
  refine ⟨_, hexec, ?_⟩
  have hcommand := State.reg_setReg_same s R.CFG_START_CMD (v &&& 0x1FF)
  have hl : (s.setReg R.CFG_START_CMD (v &&& 0x1FF)).bit F.FAB_STATUS_LODESTAR = false := by
    rw [State.bit, State.f_setReg_ne _ _ _ (by decide), hlodestar]
    rfl
  generalize s.setReg R.CFG_START_CMD (v &&& 0x1FF) = u at hcommand hl ⊢
  have hissue : issueStart u tick (bitsAt v 0 6) (v.getLsbD 6) (v.getLsbD 7) =
      applyStarts (u.setF F.CFG_STATUS_START_MISSED 1) tick (bitsAt v 0 6) (v.getLsbD 6) := by
    unfold issueStart
    dsimp only
    rw [if_neg (by simp [hbroadcast]), if_pos (by simp [hl])]
  rw [hissue]
  have h := (Issues.refl (u.setF F.CFG_STATUS_START_MISSED 1)).applyStarts tick (bitsAt v 0 6) (v.getLsbD 6)
  exact ⟨h.missed (State.f_setF_eq _ _ _ (by decide)), by rw [h.command, State.reg_setF_ne _ _ _ (by decide), hcommand]⟩

/-! ### FINISHING_END and a load that fails (R203, R204) -/

/-- Off the ground path a load in FINISHING fails with the flaw of its signature or succeeds. -/
theorem exec_finishingEnd {s : State} (hkind : s.load.kind = .full) (hstate : s.cfgState = 2) (hpath : s.load.path ≠ 1) :
    exec .finishingEnd s = .next (match signatureFlaw s (s.load.point - 200) with
      | some c => failLoad s c 0 0 (s.load.point - 200 - 32)
      | none => finishLoad s (s.load.point - 200)) := by
  refine congrArg Host.Outcome.next ((if_neg (by simp [hkind, hstate])).trans ?_)
  dsimp only
  cases signatureFlaw s (s.load.point - 200) with
  | some c => exact if_neg fun h : _ ∧ _ => hpath h.1
  | none => rfl

/-- Settles O31: a load ends with its signature's verdict, by its timeout or by ABORT; after DONE and a START_CMD the package is only started
further (`Issues`). -/
theorem theEndOfALoad : Obligations.TheEndOfALoad := by
  unfold Obligations.TheEndOfALoad
  refine ⟨fun s ⟨hkind, hstate, hpath⟩ hsolo hsettings => ?_, fun s ⟨hkind, hstate, hpath⟩ ⟨hlen, hstaged⟩ ⟨hfuses, hslot⟩ => ?_, fun s h => ?_, fun s h => ?_,
    fun s h => ?_, fun v s h => ?_, fun v s ⟨hgo, hbroadcast⟩ hlodestar _ => startCmd_broadcast hgo hbroadcast hlodestar⟩
  · refine ⟨_, exec_finishingEnd hkind hstate hpath, ?_⟩
    cases hflaw : signatureFlaw s (s.load.point - 200) with
    | none =>
      obtain ⟨h3, hok, hload⟩ := finishLoad_succeeds hpath hsolo hsettings (s.load.point - 200)
      exact ⟨fun _ => ⟨h3, hok⟩, fun h => absurd rfl h, hload⟩
    | some c =>
      obtain ⟨h5, -, hfailed, -⟩ := failLoad_fails s (signatureFlaw_lt hflaw) 0 0 (s.load.point - 200 - 32)
      exact ⟨fun h => absurd h (by simp), fun _ => ⟨h5, hfailed⟩, (failLoad_drops s c 0 0 _).1⟩
  · refine ⟨_, exec_finishingEnd hkind hstate hpath, ?_⟩
    rw [signatureFlaw_unprogrammed hlen hstaged hfuses hslot]
    obtain ⟨h5, hcode, -⟩ := failLoad_fails s (by decide : 13 < 16) 0 0 (s.load.point - 200 - 32)
    exact ⟨h5, hcode⟩
  · obtain ⟨h5, hcode, -⟩ := failLoad_fails s (by decide : 14 < 16) 0 0 s.load.point
    obtain ⟨hload, hkeys, -, -, -, -, hjobs⟩ := failLoad_drops s 14 0 0 s.load.point
    exact ⟨_, congrArg Host.Outcome.next (if_pos h), h5, hcode, hload, hkeys, hjobs⟩
  · obtain ⟨h5, hcode, -⟩ := failLoad_fails s (by decide : 15 < 16) 0 0 s.load.point
    obtain ⟨hload, hkeys, -⟩ := failLoad_drops s 15 0 0 s.load.point
    exact ⟨_, congrArg Host.Outcome.next (if_pos h), h5, hcode, hload, hkeys⟩
  · exact ⟨_, congrArg Host.Outcome.next (if_pos h), enterUser_enters s⟩
  · exact ⟨_, congrArg Host.Outcome.next (if_pos (by rw [h]; decide)), rfl⟩

end Sys2Proof.Machine
end
